-- ==== Sys2Proof/Word.lean ====
section
/-! DEFINITION. The plain types every other file uses: bytes, words, the 32-rail mask, and maps held as
sorted lists of (key, value) pairs.

00_scope.md R6: registers are 8 bits wide and multi-byte values are little-endian. R11: a rail is named by a
5-bit identifier, and a mask has bit n for rail n. -/

namespace Sys2Proof

/-- One register byte (R6). -/
abbrev Byte := BitVec 8
/-- A 16-bit word: a pending word, a mask word, a telemetry value (R9). -/
abbrev Word := BitVec 16
/-- A 32-bit mask over the rails, bit n for rail identifier n (R11). -/
abbrev Mask := BitVec 32
/-- A rail identifier, 0 to 31 (R11). -/
abbrev Rail := Fin 32
/-- A channel, CH0 to CH3 (R12). -/
abbrev Chan := Fin 4
/-- A rail with external phases: 0 is PRE, 1 + c is MPHc (R11). -/
abbrev PhRail := Fin 5
/-- A physical phase of PRE or of an MPH rail (R75, R91). -/
abbrev Phase := Fin 3
/-- Sparse data by key, keys rising, no entry equal to the map's default (see `mput`). -/
abbrev Map (α : Type) := List (Nat × α)
/-- Register bytes by address: the host's cell form. -/
abbrev RegMap := Map Byte

end Sys2Proof
end

