-- ==== Sys2Proof/Syntax.lean ====
section
/-! DEFINITION. The commands: one constructor per row of spec/opcode_table.json.

The table gives its rows no operand bits. A constructor's operands are the facts its rule reads that the
state does not hold: which path, rail, channel or source; the bytes of a bus access; a measured quantity.
A measured quantity is an `Option`: `none` means that the sender supplies no measurement, and the meaning then
uses the last one held or a free value of the board (Config). -/

namespace Sys2Proof

/-- An input path (03_input_path.md). -/
inductive Path where
  | a | b
deriving DecidableEq, Repr

/-- Voltages measured at the input paths and the PRE input node, in mV (R62, R63), and the sense voltages of the two
paths, in µV (R64, R65). -/
structure InMeas where
  va : Int
  vb : Int
  node : Int
  ia : Int
  ib : Int
deriving DecidableEq, Repr

/-- How a host transaction to a command code is closed (R349): without PEC, or with a PEC that matches or not. -/
inductive Pec where
  | none | good | bad
deriving DecidableEq, Repr

/-- Protocols of SMBus that the host may use to write a command code (R343, R344). -/
inductive Proto where
  | window | block | writeByte | writeWord | other
deriving DecidableEq, Repr

/-- A host write: command code, protocol, the bytes after the code (for a Block Write, after its count, which
`count` holds), and its PEC (R343 to R349). -/
structure BusWrite where
  code : Byte
  proto : Proto
  count : Nat
  data : List Byte
  pec : Pec
deriving DecidableEq, Repr

/-- Accesses without a command code's protocol (R339): a Quick Command, a Send Byte with its byte, a Receive Byte. -/
inductive ShortBus where
  | quick
  | send (b : Byte)
  | receive
deriving DecidableEq, Repr

/-- A command packet: the Block Write to 0xE0 of an opcode that the row names (R353). -/
structure Packet where
  /-- the byte count N of the Block Write -/
  n : Nat
  tag : Byte
  len : Byte
  params : List Byte
deriving DecidableEq, Repr

/-- Which blanking time ends (R94). -/
inductive Blank where
  | strike | brake
deriving DecidableEq, Repr

/-- What failed and how: a phase of PRE or an MPH rail with its cause (R75, R99), or pass device P0 or P1 of an
LDO, open or short (R122). -/
inductive FailDev where
  | phase (r : PhRail) (p : Phase) (cause : Fin 3)
  | pass (c : Chan) (p1 isOpen : Bool)
deriving DecidableEq, Repr

/-- A rail with parts that have a spare (R225). -/
inductive SpareRail where
  | phases (r : PhRail)
  | ldo (c : Chan)
deriving DecidableEq, Repr

/-- One of the two oscillators (R221). -/
inductive Osc where
  | a | b
deriving DecidableEq, Repr

/-- An edge on CYC and how long the level that it begins lasts, in half microseconds (R33). -/
structure CycEdge where
  rising : Bool
  level : Nat
deriving DecidableEq, Repr

/-- How many switching periods of a rail its limit has ended in a row, and whether the negative limit did (R95, R119). -/
structure LimitRun where
  rail : Rail
  run : Nat
  neg : Bool
deriving DecidableEq, Repr

/-- A condition of a rail begins or ends (R114). -/
structure RailEdge where
  rail : Rail
  on : Bool
deriving DecidableEq, Repr

/-- A condition of a channel's block begins or ends (R99, R121). -/
structure ChanEdge where
  chan : Chan
  on : Bool
deriving DecidableEq, Repr

/-- Results of an Assay (R222): ASSAYFAIL bits, the regions (bits 0 to 15) and locks of regions (16 to 31) that differ from the
shadow, rails with one twin failed, rails with both twins failed, and the physical sectors whose margin read failed. -/
structure AssayRes where
  fail : BitVec 5
  fuses : BitVec 32
  cmpFail : Mask
  cmpLost : Mask
  sectors : List (Fin 512)
deriving DecidableEq, Repr

/-- What the boot finds outside the held state (R23, R222): can the ROM read the flash, does the sensing resolve
every lock, and the full Assay's results. -/
structure BootInfo where
  flashOk : Bool
  assay : AssayRes
deriving DecidableEq, Repr

/-- A conversion result: a measurement number and what the converter read. For a measurement that R237 derives from a
setting (41 to 55, 74, 75, 78 to 87) that is the pin's voltage in µV, for any other the value in its encoding. -/
structure Conv where
  meas : Fin 104
  val : Int
deriving DecidableEq, Repr

/-- What one housekeeping round brings (R239, R245, R297): the good results of HKA and of HKB, the light Assay step's
results, the charge counted by the gauge converter since the last round in uA·h,
the cell current in mA averaged over the round with its least and greatest value, averaged over 1 s and over 1 min,
the cell's sense drop in mV, and the reference pairs' differences in 0.01 %. -/
structure RoundData where
  hka : List Conv
  hkb : List Conv
  assay : AssayRes
  dq : Int
  iMean : Int
  iMin : Int
  iMax : Int
  iSec : Int
  iAvgMin : Int
  sense : Int
  devAC : Int
  devBC : Int
  devAB : Int
deriving DecidableEq, Repr

/-- How a Host Notify or a downstream transfer loses the bus (R351). -/
inductive ArbLoss where
  | data | stop | restart
deriving DecidableEq, Repr

/-- How a Host Notify ends on the bus (R350, R351). -/
inductive NotifyEnd where
  | sent | nack | lost (k : ArbLoss)
deriving DecidableEq, Repr

/-- How a downstream transfer ends (R366): its data, or what went wrong. -/
inductive DsEnd where
  | data (bytes : List Byte)
  | nackAddr | nackData | lost (k : ArbLoss) | pecBad
deriving DecidableEq, Repr

/-- The commands, in the order of the opcode table but for some rows without operands, which stand last. -/
inductive Instr where
  -- global, supplies, boot (01_architecture.md)
  | powerOnReset (vsys vin ohms : Nat)
  | logicSupplySelect (rising : Bool) (vin : Nat)
  | logicSupplyLoss
  | bootEnd (b : BootInfo)
  | fwBootTimeout
  | rstkeyWrite (v : Byte)
  | rstkeyCancel
  | rstclr
  | busclr
  | registerWrite (w : BusWrite)
  | pageWrite (v : Byte)
  | fieldLatchRead (code : Byte) (n : Nat)
  | quickCommand (x : ShortBus)
  -- timebase and schedule (02_cycle_timebase.md)
  | cycPulse (e : CycEdge)
  | acceptWindowClose
  | acqMissSpan
  | acqtmo
  | cycleEnd
  | cyccntRead
  | reacq
  | cyccfgWrite (v : Byte)
  | nomfreqWrite (v : Word)
  | schent3Write (v : Byte)
  | schent3Read
  | schctlSwap
  | schctlCopy
  | schctlClear
  | scheduleValidationEnd
  | conv (seq : Fin 32)
  | quiet (len : Byte)
  | quietEnd
  | commit
  | phase (r : PhRail) (avg : Option Nat)
  | swap
  | logflush
  | dither
  -- input paths and PRE (03_input_path.md)
  | pathQualify (x : Path) (m : Option InMeas)
  | preferHandback (x : Path)
  | pathConductionChange (x : Path) (on : Bool)
  | ova (x : Path) (m : Option InMeas)
  | inputOvClear (x : Path) (m : Option InMeas)
  | reva (x : Path) (m : Option InMeas)
  | reverseReclose (x : Path) (m : Option InMeas)
  | foca (x : Path) (m : Option InMeas)
  | slowa (x : Path) (m : Option InMeas)
  | uva (x : Path) (m : Option InMeas)
  | inrushComplete (x : Path) (m : Option InMeas)
  | inrushtmo (x : Path)
  | pathRetryEnd (x : Path) (m : Option InMeas)
  | tripCountClear (x : Path)
  | inctlClr (a b : Bool)
  | inloss
  | plim (on : Bool)
  -- rails (04, 05 and 06)
  | powerGood (r : Rail)
  | uv (r : Rail) (mon : Word)
  | ov (r : Rail) (mon : Word)
  | ovHoldRelease (r : Rail)
  | ocfast (x : LimitRun)
  | overloadClamp (r : Rail) (demand : Nat)
  | ocslow (r : Rail)
  | thlim (r : Rail)
  | starttmo (r : Rail)
  | stageEnableDelay (c : Chan)
  | rampEnd (r : Rail)
  | strike (c : Chan)
  | strikeEnd (c : Chan)
  | brake (c : Chan)
  | brakeEnd (c : Chan)
  | blankingEnd (c : Chan) (k : Blank) (trig : Option Bool)
  | addPhase (r : PhRail)
  | phaseflt (d : FailDev)
  | sparein (d : SpareRail)
  | stgflt (x : ChanEdge)
  | imbal (r : Rail)
  | swapOverlapEnd (d : SpareRail)
  | quenchEnd (r : Rail) (timeout : Bool)
  | pvinLow (c : Chan)
  | pvinRestore (c : Chan)
  | minton (x : RailEdge)
  | hotspot (r : Rail)
  | hotspotRelease (r : Rail)
  | dropout (x : ChanEdge)
  | revblk (c : Chan)
  | revblkRelease (c : Chan)
  | vlow (c : Chan)
  | vlowRestart (c : Chan)
  -- sequencer (06_sequencer.md)
  | railEnable (r : Rail)
  | railOffDelay (r : Rail)
  | railDown (r : Rail)
  | stoptmo (r : Rail)
  | minoffEnd
  | retrySpaceEnd (r : Rail)
  | retryCountClear (r : Rail)
  | resetRelease (x : Fin 5)
  | extpgdly (n : Fin 7)
  | strkclr (c : Chan)
  | cntctlClr
  | cntctlClrall
  | monctlClr
  -- transactions (07_transactions.md)
  | txnCommit (p : Packet)
  | validationEnd
  | commitApply
  | commitDeadline
  | txnAbort (p : Packet)
  | txnValidate (p : Packet)
  | txnRevert (p : Packet)
  -- Anvil, safe state, self-repair (08_fault_tolerance.md)
  | safeInput (a b : Bool)
  | disc
  | safeHoldEnd (r : Rail)
  | safeClear (p : Packet)
  | wdKick (w : Word) (pec : Pec)
  | wdlate
  | lsfail
  | lockup
  | eccded
  | eccsec
  | fwwdt
  | fwup
  | lockstepExpire
  | reffail (ab ac bc : Bool)
  | oscfail (o : Osc) (stopped : Bool)
  | oscSlowCheck (devA devB : Int)
  | assayRun (p : Packet)
  | assaydone (r : AssayRes)
  | operatingHour
  | spareSwap (p : Packet)
  | patinaReport (p : Packet)
  | snapshotRead (p : Packet)
  -- housekeeping and thermal (09_housekeeping_thermal.md)
  | hkRoundEnd (d : RoundData)
  | throttleGraceEnd (r : Rail)
  | convSeqDone (hkb : Bool) (vals : List Int)
  | hkreqGo (smp : Fin 8)
  | hkreqDone (v : Int)
  | hkseqidxWrite (v : Byte)
  | hkseqStore
  | hkrflagRead
  | thmeasWrite (v : Byte)
  | sensclr
  -- charge pilot (10_charge_pilot.md)
  | pilotPeriod (hi lo : Int) (duty freq : Nat)
  | pwmoff
  | pilotDcWindow (mv : Int)
  | ppConversion (mv : Nat)
  | pswWrite (v : Byte)
  | pack
  | rspsoft
  | rsphard
  | pilotRole (p : Packet)
  | roledone
  | pilotRearm (p : Packet)
  | genflt
  | genRestart
  | sleepMonitor (cp : Int) (pp : Nat)
  -- backup cell (11_backup_cell.md)
  | chargerHoldoffEnd (vcell : Option Nat)
  | vmidlow
  | chargerVmidRestore
  | chargePhaseChange (vcell : Nat)
  | done
  | rechg
  | cellov
  | cellovClear
  | tmrpre
  | tmrfast
  | ntcflt
  | ntcRecover
  | ctband (mv : Nat)
  | wdexp
  | chgctlKick
  | chgctlRestart
  | chgsuspWrite (v : Byte)
  | gaugeOffsetCal
  | slowSampling
  | slowSamplingExit
  | accclr
  | cellReplaced (p : Packet)
  | learnStatus (p : Packet)
  -- clock, calendar, power states (12_clock_power_states.md)
  | pwcfgWrite (cnt : Bool) (v : Byte)
  | rtcShift (p : Packet)
  | seqStart (p : Packet)
  | seqStop (p : Packet)
  | railRetry (p : Packet)
  | standbyEnter (p : Packet)
  | standbyExit (p : Packet)
  | sleepEnter (p : Packet)
  | shipEnter (p : Packet)
  -- host bus (13_host_bus_commands.md)
  | cresofsWrite (v : Word)
  | alertResponse (won : Bool)
  | hostNotify (e : NotifyEnd)
  | echo (p : Packet)
  | getInfo (p : Packet)
  | selfReset (p : Packet)
  | sessionOpen (p : Packet)
  | sessionProve (p : Packet)
  | sessionClose (p : Packet)
  -- downstream bus (13_host_bus_commands.md)
  | dsXfer (p : Packet)
  | dsXferDone (e : DsEnd)
  | dsPoll (e : Option DsEnd)
  | scltmo
  | stuckscl
  | dsBusClear (sda : Option Bool)
  | dsClearRetry (sda scl : Bool)
  | dsCutRestart
  | dsctlClr
  -- interrupts (14_interrupts.md)
  | pendWrite (g : Fin 64) (v : Word)
  | maskWrite (g : Fin 64) (v : Word)
  | routeWrite (page : Fin 4) (off : Fin 128) (v : Byte)
  | rrmaskWrite (v : Byte)
  | ovrclr (i : Fin 8) (v : Byte)
  | wlclr (i : Fin 8) (v : Byte)
  | testtrig (i : Fin 2) (v : Byte)
  | intPulseEnd (t : Fin 4)
  | fwIntService (src : Fin 1024)
  -- flash and log (15_nvm_log.md)
  | flashSlotDone (ok : Bool)
  | cfgsave
  | scrubDue
  | scrublate
  | logRecordClose (src : Fin 1024)
  | logTimer
  | logRead (p : Packet)
  | logErase (p : Packet)
  | logFlush (p : Packet)
  -- fuses and update (16_fuses_update.md)
  | otpProgram (p : Packet) (verify : Bool)
  | otpLock (p : Packet) (verify : Bool)
  | updBegin (p : Packet)
  | updData (p : Packet) (reads : Bool)
  | updEnd (p : Packet)
  | updResumeInfo (p : Packet)
  | updConfirm (p : Packet)
  | updRollback (p : Packet)
  | updctlActivate
  | ttrialExpire
  | tconfExpire
  | updVerifyEnd (reads : Bool)
  -- rows the table lists last
  | imbalRearm (r : Rail)
  | stageTempLimitRelease (c : Chan)
  | vaonOutOfWindow (out : Bool)
  -- rows without operands of 12_clock_power_states.md and 13_host_bus_commands.md: Lean's compiler bounds the number of a
  -- constructor that carries operands
  | calendarSecond
  | caltrimStep
  | ptick
  | xtalstop
  | xtalrun
  | calctlSet
  | subsecRead
  | shiftdone
  | wakepin
  | vinwake
  | hostwake
  | idleslp
  | sleepPrepDone
  | hbTimeout
  | sdaHoldTimeout
  | cresRead
  | hnstuck
  | hnsuspClear
  | sesstmo
  | nonceExpire
  | sesslockEnd
  | heldclr
  | cntclr
deriving DecidableEq, Repr

end Sys2Proof
end

