-- ==== Sys2Proof/Config.lean ====
section
/-! DEFINITION. What an implementation or a board fixes and the spec does not state: opaque constants, so that no
proof can rest on a value of them. Log entries 8, 9 and 10. -/

namespace Sys2Proof.Config

/-- A free value (log entry 8), applied to the counter of free values drawn. -/
opaque freeNat : Nat → Nat
/-- A free choice between two allowed outcomes (log entry 8). -/
opaque freeBool : Nat → Bool
/-- A free signed quantity (log entry 8). -/
opaque freeInt : Nat → Int

/-- CRC-32 of R229, R392, R399 and R432: the spec names no polynomial (log entry 10). -/
opaque crc32 : List Byte → BitVec 32
/-- The 16-byte nonce that SESSION_OPEN draws (R358), by the counter of free values (log entry 8). -/
opaque nonceByte : Nat → Nat → Byte
/-- The firmware version of the slot booted (major, minor, patch) when no slot header is known (R343). -/
opaque firmwareVersion : List Byte

/-- The bytes of an image as shipped, from its first on: the spec does not give them (log entry 6). -/
opaque shippedByte : Nat → Byte
/-- The payload length of a bank of a kind whose layout the spec does not give (R401, R225, R307; log entry 8). -/
opaque bankLen : Nat → Nat

/-- Frequency of the pilot's charge pump in Hz, which the spec does not give (log entry 8). -/
opaque pumpHz : Nat
/-- Duty in percent to which the auxiliary-regulated loop of a driver has trimmed, by the sensed peak and GBSNSSET: the spec
gives the loop's aim and bandwidth only (R127, log entry 8). -/
opaque gbTrim : Nat → Nat → Nat

/-- Wear of a quantity against a class life of 0 (R226), by the quantity: the spec states no result (log entry 8). -/
opaque wearOfZeroLife : Nat → Nat

/-- A register byte, schedule entry, mask word or route byte (by kind and index) of a configuration payload: the spec gives the
payload's items (R401) and not their places in it (log entry 8). -/
opaque cfgItem : List Byte → Nat → Nat → Nat

/-- The Floor table's entry of rail 0 sets PRECFG too: R423 and R424 say so, R80 does not (log entry 22). -/
opaque floorSetsPrecfg : Bool

end Sys2Proof.Config
end

