-- ==== Sys2Proof/Machine/Crypto.lean ====
section
/-! DEFINITION. The cryptographic functions that the spec names and that are defined outside it: SHA-256 and HMAC-SHA-256 (R358,
R425, R432 to R434, R440) and ECDSA verification on P-256 (R425). Their definitions are those of the named standards, FIPS 180-4,
RFC 2104 and FIPS 186-4 (log entry 9). -/

namespace Sys2Proof.Machine

/-! SHA-256. -/

/-- A 32-bit word of SHA-256. -/
abbrev W32 := BitVec 32

/-- Rotation to the right by n of 1 to 31. -/
def rotr (x : W32) (n : Nat) : W32 := (x >>> n) ||| (x <<< (32 - n))

/-- The eight words of a 256-bit number, the highest first. -/
def wordsOf (n : Nat) : List W32 := (List.range 8).map (fun i => BitVec.ofNat 32 (n >>> (224 - 32 * i)))

/-- The round constants, eight to a number: the first 32 bits behind the point of the cube roots of the primes 2 to 311. -/
def shaK : List W32 :=
  [0x428a2f9871374491b5c0fbcfe9b5dba53956c25b59f111f1923f82a4ab1c5ed5,
   0xd807aa9812835b01243185be550c7dc372be5d7480deb1fe9bdc06a7c19bf174,
   0xe49b69c1efbe47860fc19dc6240ca1cc2de92c6f4a7484aa5cb0a9dc76f988da,
   0x983e5152a831c66db00327c8bf597fc7c6e00bf3d5a7914706ca635114292967,
   0x27b70a852e1b21384d2c6dfc53380d13650a7354766a0abb81c2c92e92722c85,
   0xa2bfe8a1a81a664bc24b8b70c76c51a3d192e819d6990624f40e3585106aa070,
   0x19a4c1161e376c082748774c34b0bcb5391c0cb34ed8aa4a5b9cca4f682e6ff3,
   0x748f82ee78a5636f84c878148cc7020890befffaa4506cebbef9a3f7c67178f2].flatMap wordsOf

/-- The eight working words. -/
structure Sha where
  a : W32
  b : W32
  c : W32
  d : W32
  e : W32
  f : W32
  g : W32
  h : W32
deriving DecidableEq, Repr

/-- The initial hash value. -/
def sha0 : Sha :=
  ⟨0x6a09e667, 0xbb67ae85, 0x3c6ef372, 0xa54ff53a, 0x510e527f, 0x9b05688c, 0x1f83d9ab, 0x5be0cd19⟩

/-- One round with its constant and its schedule word added. -/
def shaRound (s : Sha) (kw : W32) : Sha :=
  let t1 := s.h + (rotr s.e 6 ^^^ rotr s.e 11 ^^^ rotr s.e 25) + ((s.e &&& s.f) ^^^ (~~~s.e &&& s.g)) + kw
  let t2 := (rotr s.a 2 ^^^ rotr s.a 13 ^^^ rotr s.a 22) + ((s.a &&& s.b) ^^^ (s.a &&& s.c) ^^^ (s.b &&& s.c))
  ⟨t1 + t2, s.a, s.b, s.c, s.d + t1, s.e, s.f, s.g⟩

/-- The rounds from the constants `ks` on, with the sixteen schedule words that come next. -/
def shaRounds : List W32 → List W32 → Sha → Sha
  | [], _, s => s
  | _, [], s => s
  | k :: ks, w :: ws, s =>
    let w1 := ws.getD 0 0
    let w14 := ws.getD 13 0
    let n := (rotr w14 17 ^^^ rotr w14 19 ^^^ (w14 >>> 10)) + ws.getD 8 0 + (rotr w1 7 ^^^ rotr w1 18 ^^^ (w1 >>> 3)) + w
    shaRounds ks (ws ++ [n]) (shaRound s (k + w))

/-- The sixteen big-endian words of a block. -/
def blockWords (bs : List Byte) : List W32 :=
  (List.range 16).map (fun i => bs.getD (4 * i) 0 ++ bs.getD (4 * i + 1) 0 ++ bs.getD (4 * i + 2) 0 ++ bs.getD (4 * i + 3) 0)

/-- The compression of one block. -/
def shaBlock (s : Sha) (bs : List Byte) : Sha :=
  let t := shaRounds shaK (blockWords bs) s
  ⟨s.a + t.a, s.b + t.b, s.c + t.c, s.d + t.d, s.e + t.e, s.f + t.f, s.g + t.g, s.h + t.h⟩

/-- n bytes of a number, most significant first. -/
def beBytes (n x : Nat) : List Byte := ((List.range n).map (fun i => BitVec.ofNat 8 (x / 256 ^ i))).reverse

/-- The number of bytes most significant first. -/
def beNat (bs : List Byte) : Nat := bs.foldl (fun a b => 256 * a + b.toNat) 0

/-- SHA-256 of a byte string. -/
def sha256 (bs : List Byte) : List Byte :=
  let n := bs.length
  let m := bs ++ [0x80] ++ List.replicate ((119 - n % 64) % 64) 0 ++ beBytes 8 (8 * n)
  let t := (List.range (m.length / 64)).foldl (fun s i => shaBlock s ((m.drop (64 * i)).take 64)) sha0
  [t.a, t.b, t.c, t.d, t.e, t.f, t.g, t.h].flatMap (fun w => beBytes 4 w.toNat)

/-- HMAC-SHA-256 with a key. -/
def hmac (key msg : List Byte) : List Byte :=
  let k0 := if 64 < key.length then sha256 key else key
  let k := k0 ++ List.replicate (64 - k0.length) 0
  sha256 (k.map (· ^^^ 0x5C) ++ sha256 (k.map (· ^^^ 0x36) ++ msg))

/-- The proof that SESSION_PROVE must match (R358): the first 16 bytes over the nonce, the identity and the level, under the key
derived from the device secret. -/
def sessionProof (secret nonce : List Byte) (level : Nat) : List Byte :=
  let l : Byte := BitVec.ofNat 8 level
  let ksess := hmac secret ([0x4F, 0x54, 0x42, 0x4F, 0x52, 0x2D, 0x53, 0x45, 0x53, 0x53] ++ [l])
  (hmac ksess (nonce ++ [0x26, 0x40, 0xB0] ++ [l])).take 16

/-! ECDSA on P-256: arithmetic modulo the field prime and the group order, points in Jacobian coordinates. -/

/-- The field prime. -/
def p256 : Nat := 2 ^ 256 - 2 ^ 224 + 2 ^ 192 + 2 ^ 96 - 1
/-- The order of the group. -/
def n256 : Nat := 0xFFFFFFFF00000000FFFFFFFFFFFFFFFFBCE6FAADA7179E84F3B9CAC2FC632551
/-- The curve's coefficient b; a is −3. -/
def b256 : Nat := 0x5AC635D8AA3A93E7B3EBBD55769886BC651D06B0CC53B0F63BCE3C3E27D2604B

/-- x to the power e modulo m, by the lowest `fuel` bits of e. -/
def powMod (m : Nat) : Nat → Nat → Nat → Nat
  | 0, _, _ => 1
  | fuel + 1, x, e => (if e % 2 = 1 then x else 1) * powMod m fuel (x * x % m) (e / 2) % m

/-- The inverse modulo a 256-bit prime. -/
def invMod (m x : Nat) : Nat := powMod m 256 (x % m) (m - 2)

/-- A point in Jacobian coordinates; z = 0 is the point at infinity. -/
structure Pt where
  x : Nat
  y : Nat
  z : Nat
deriving DecidableEq, Repr

/-- The base point. -/
def g256 : Pt :=
  ⟨0x6B17D1F2E12C4247F8BCE6E563A440F277037D812DEB33A0F4A13945D898C296,
   0x4FE342E2FE1A7F9B8EE7EB4A7C0F9E162BCE33576B315ECECBB6406837BF51F5, 1⟩

/-- A difference in the field. -/
def subP (a b : Nat) : Nat := (a + (p256 - b % p256)) % p256

/-- The double of a point. -/
def ptDouble (q : Pt) : Pt :=
  if q.z = 0 ∨ q.y = 0 then ⟨1, 1, 0⟩
  else
    let yy := q.y * q.y % p256
    let s := 4 * (q.x * yy % p256) % p256
    let zz := q.z * q.z % p256
    let m := 3 * (subP q.x zz * (q.x + zz) % p256) % p256
    let x := subP (m * m % p256) (2 * s)
    ⟨x, subP (m * subP s x % p256) (8 * (yy * yy % p256)), 2 * (q.y * q.z % p256) % p256⟩

/-- The sum of two points. -/
def ptAdd (q r : Pt) : Pt :=
  if q.z = 0 then r
  else if r.z = 0 then q
  else
    let zq := q.z * q.z % p256
    let zr := r.z * r.z % p256
    let u1 := q.x * zr % p256
    let u2 := r.x * zq % p256
    let s1 := q.y * (zr * r.z % p256) % p256
    let s2 := r.y * (zq * q.z % p256) % p256
    if u1 = u2 then (if s1 = s2 then ptDouble q else ⟨1, 1, 0⟩)
    else
      let h := subP u2 u1
      let hh := h * h % p256
      let hhh := h * hh % p256
      let t := subP s2 s1
      let v := u1 * hh % p256
      let x := subP (subP (t * t % p256) hhh) (2 * v)
      ⟨x, subP (t * subP v x % p256) (s1 * hhh % p256), h * (q.z * r.z % p256) % p256⟩

/-- k times a point, by the lowest `fuel` bits of k. -/
def ptMul : Nat → Nat → Pt → Pt
  | 0, _, _ => ⟨1, 1, 0⟩
  | fuel + 1, k, q =>
    let r := ptMul fuel (k / 2) (ptDouble q)
    if k % 2 = 1 then ptAdd q r else r

/-- ECDSA P-256 over SHA-256 (R425): the signature r ‖ s of a message under the public key X ‖ Y, 32 bytes each, big-endian. -/
def ecdsaOk (pub msg sig : List Byte) : Bool :=
  let x := beNat (pub.take 32)
  let y := beNat ((pub.drop 32).take 32)
  let r := beNat (sig.take 32)
  let s := beNat ((sig.drop 32).take 32)
  if decide (pub.length ≠ 64 ∨ sig.length ≠ 64 ∨ p256 ≤ x ∨ p256 ≤ y) then false
  else if decide (y * y % p256 ≠ (x * x % p256 * x + (p256 - 3) * x + b256) % p256) then false
  else if decide (r = 0 ∨ n256 ≤ r ∨ s = 0 ∨ n256 ≤ s) then false
  else
    let w := invMod n256 s
    let e := beNat (sha256 msg)
    let q := ptAdd (ptMul 256 (e * w % n256) g256) (ptMul 256 (r * w % n256) ⟨x, y, 1⟩)
    if q.z = 0 then false
    else
      let zi := invMod p256 q.z
      decide (q.x * (zi * zi % p256) % p256 % n256 = r)

end Sys2Proof.Machine
end

