-- ==== Sys2Proof/Machine/State.lean ====
section
/-! DEFINITION. The state of the block: every register, counter, latch, queue and store the spec gives it, as plain
data, and the machine right after a power-on reset. Each field's default is its value at reset: the one its chapter's
table gives, or the one the assumption log names.

A `Map` holds sparse data by key; what an unlisted key reads as stands beside each map. -/

namespace Sys2Proof.Machine

/-- Ways the machine stops for good. No meaning of this model raises one (every command has an effect in the spec). -/
inductive Fault where
  /-- Never raised by this model: kept because the interface asks for a type of faults. Safe. -/
  | never
deriving DecidableEq, Repr

/-- Ways a command is turned down. -/
inductive Refusal where
  /-- Raised by `exec` for a command without a meaning. Safe: the model stops. -/
  | notModelled (mnemonic : String)
deriving DecidableEq, Repr

/-- Operating states (R10). -/
inductive St where
  | ship | sleep | standby | start | run | stop | safe
deriving DecidableEq, Repr

/-- Causes of a system reset (R26). -/
inductive RstCause where
  | rail | cmd | key | upd
deriving DecidableEq, Repr

/-- PLL states (R36). -/
inductive Pll where
  | free | acq | lock | hold
deriving DecidableEq, Repr

/-- An armed event: `ev` is due when the clock reads `due` half microseconds (log entry 1). -/
structure Timer where
  due : Nat
  ev : Instr
deriving DecidableEq, Repr

/-- Absolute time (R31) in half microseconds, the armed events, and the counts of R407. -/
structure Clk where
  now : Nat := 0
  /-- the model's own: how far one idle step advances the clock (log entry 1) -/
  quantum : Nat := 1
  timers : List Timer := []
  /-- time spent in START, RUN, STANDBY, STOP and SAFE, in half microseconds (R407) -/
  op : Nat := 0
  /-- power-cycle count, 24 bits, saturating (R407): the START of this boot is the first -/
  cycles : Nat := 1
deriving DecidableEq, Repr

/-- Page 0x00, supplies and boot (01_architecture.md). -/
structure Glob where
  st : St := .start
  floor : Bool := false
  fwup : Bool := false
  /-- the boot runs (R326) -/
  boot : Bool := true
  /-- STATE.LOGSRC: the logic supply is the start-up regulator (R18) -/
  logsrc : Bool := false
  supplied : Bool := true
  /-- VAON lies in its window (R21) -/
  vaonOk : Bool := true
  /-- the oscillators of the minimum service set run (R21, R221) -/
  clocked : Bool := true
  /-- the firmware island is held in a restart (R17) -/
  restarting : Bool := false
  vsys : Nat := 3600
  vin : Nat := 0
  rstcause : Word := 1
  buserr : BitVec 5 := 0
  floorcause : Nat := 0
  /-- the live registers of the rails hold the Floor table's values (R424) -/
  floorTab : Bool := false
  borNext : Bool := false
  /-- first RSTKEY write taken (R27) -/
  keyArmed : Bool := false
  fwFails : Nat := 0
  /-- a reverse sequence that ends in a system reset (R159) -/
  pendRst : Option RstCause := none
  /-- MINOFF still to run after the boot of R159 -/
  minoffAfterBoot : Bool := false
  /-- the address strap n of R340, and the resistor it was sensed from, in ohms -/
  strap : Nat := 0
  ohms : Nat := 0
  /-- the last state entered by STATECHG, left for the log (R408) -/
  left : St := .start
deriving DecidableEq, Repr

/-- Register bytes (keys of `Regs`: page × 256 + offset, indexed blocks above 65536) (R8, R343, R347, R348). -/
structure Regs where
  page : Byte := 0
  /-- staging copies; an unlisted byte reads as its reset value -/
  stg : RegMap := []
  /-- live copies, under the staging key; unlisted bytes read as reset -/
  live : RegMap := []
  /-- plain RW and LK bytes; unlisted bytes read as reset -/
  plain : RegMap := []
  /-- held bytes of incomplete multi-offset writes (R347) -/
  held : List (Nat × Byte) := []
  /-- the field latch (R348): key of a field's lowest byte, its higher bytes -/
  latch : Option (Nat × List Byte) := none
deriving DecidableEq, Repr

/-- A schedule action between the start of its angle and its action time (R43): its action time, its entry's index, its
command, and whether the cycle of its angle has ended. -/
structure Act where
  due : Nat
  idx : Nat
  ev : Instr
  old : Bool := false
deriving DecidableEq, Repr

/-- The timebase and the schedule (02_cycle_timebase.md). -/
structure Cyc where
  pll : Pll := .free
  misscnt : Nat := 0
  lastAcc : Option Nat := none
  /-- the last accepted interval per pulse, in half microseconds -/
  period : Nat := 40000
  /-- previous expected pulse time -/
  expect : Nat := 0
  /-- by how much the last accepted pulse came after its expected time: the period tracked until the next expected pulse
  is `period + lag` (log entry 26) -/
  lag : Int := 0
  /-- angle rate in 1/4096 Hz -/
  rate : Nat := 204800
  /-- position in the cycle, `cycleUnits` per cycle -/
  phase : Nat := 0
  cnt : BitVec 32 := 0
  pherr : Word := 0
  good : Nat := 0
  /-- the cycle whose ANGOFS pulse was the last good one (R36) -/
  goodCyc : Nat := 0
  acqMiss : Nat := 0
  acqCyc : Nat := 0
  acqTmo : Bool := false
  lcnt : BitVec 32 := 0
  lfine : Nat := 0
  lpll : Pll := .free
  /-- NOMFREQ in effect, 1/16 Hz -/
  nom : Nat := 800
  /-- banks of 128 entries; an unlisted entry is NONE -/
  bankA : Map (BitVec 32) := []
  bankB : Map (BitVec 32) := []
  /-- SCHSTAT.ACTBANK: B active -/
  actB : Bool := false
  schSt : Nat := 0
  reason : Nat := 0
  errIdx : Nat := 0
  swapOk : Bool := false
  /-- the level of CYC behind the glitch filter (R33); low at reset (log entry 12) -/
  lvl : Bool := false
  /-- actions whose fine delay runs, in the order of their angles -/
  acts : List Act := []
deriving DecidableEq, Repr

/-- Quiet windows and dither (R53 to R57). -/
structure Quiet where
  on : Bool := false
  /-- windows opened or skipped so far in the cycle -/
  n : Nat := 0
  /-- when the open or last window ends -/
  until_ : Nat := 0
  breach : BitVec 4 := 0
  skip : BitVec 4 := 0
  brCur : BitVec 4 := 0
  skCur : BitVec 4 := 0
  /-- number of the open window in its cycle, and whether that cycle has ended -/
  cur : Nat := 0
  curOld : Bool := false
  /-- action times of QUIET actions whose cycle had ended before them (R43), and windows counted in the cycle before -/
  spill : List Nat := []
  nOld : Nat := 0
  /-- position in the cycle at which the first triangle of the cycle started -/
  dith0 : Nat := 0
deriving DecidableEq, Repr

/-- Why a path opened last (R69). -/
inductive OpenWhy where
  | uv | enable | gaveWay | guard
deriving DecidableEq, Repr

/-- One input path (03_input_path.md). Guard bits are numbered as INFLTx. -/
structure PathSt where
  qual : Bool := false
  closed : Bool := false
  /-- inrush complete, gate at full drive -/
  full : Bool := false
  cond : Bool := false
  flt : BitVec 7 := 0
  /-- latched guards whose clearing condition is not yet met (R67) -/
  wait : BitVec 7 := 0
  trips : Nat := 0
  /-- the sense voltage last measured, in µV, and the slow integrator of R65 at `accAt`, in µV² times half microseconds -/
  sense : Int := 0
  acc : Nat := 0
  accAt : Nat := 0
  ever : Bool := false
  why : OpenWhy := .enable
  vin : Int := 0
  condOff : Option Nat := none
  /-- when the path last opened, and whether that opening has counted as a trip (R66, R67) -/
  openedAt : Option Nat := none
  counted : Bool := false
deriving DecidableEq, Repr

/-- Input paths and PRE's input (03_input_path.md). -/
structure Inp where
  a : PathSt := {}
  b : PathSt := {}
  inloss : Bool := false
  inlossuv : Bool := false
  /-- a guard other than UV was detected since the last opening (R69) -/
  nonUv : Bool := false
  /-- measured voltage of the PRE input node, mV -/
  node : Int := 0
  /-- PRESTAT.MODE while PRE runs: 1 buck, 2 buck-boost, 3 boost (R71); buck-boost before any measurement of the node (DESIGN CHOICE,
  log entry 13) -/
  mode : Nat := 2
  plim : Bool := false
  /-- PRE waits for a path to complete inrush before its first switching (R68) -/
  gate : Bool := false
deriving DecidableEq, Repr

/-- A reference that moves from v0 to v1 between t0 and t1, in 0.1 mV, and while the output lies above it since the
soft-start began that output (R86). -/
structure Ramp where
  v0 : Nat := 0
  v1 : Nat := 0
  t0 : Nat := 0
  t1 : Nat := 0
  pre : Nat := 0
deriving DecidableEq, Repr

/-- The rails, one bit per rail identifier (04, 05, 06). -/
structure Rails where
  en : Mask := 0
  pg : Mask := 0
  /-- first power-good since the latest enable has been reached (R467) -/
  pgd : Mask := 0
  /-- not yet down (R148) -/
  up : Mask := 0
  /-- in quench (R132) -/
  qu : Mask := 0
  /-- soft-start or voltage ramp running -/
  ss : Mask := 0
  /-- soft-start running: no UV is evaluated (R86) -/
  soft : Mask := 0
  /-- OV hold (R74, R97, R116, R121, R128) -/
  hold : Mask := 0
  /-- the cycle-by-cycle limit acted in the last period -/
  clim : Mask := 0
  /-- OCFAST has been raised in the present run of limited periods (R152) -/
  ocRun : Mask := 0
  /-- averaged clamp or current limit engaged -/
  clamp : Mask := 0
  slowRun : Mask := 0
  /-- the output was last seen below its UV level, above its OV level; of EXT rails the MON inputs tell (R377) -/
  uvNow : Mask := 0
  ovNow : Mask := 0
  thw : Mask := 0
  thl : Mask := 0
  /-- an MPH rail's stages were last seen at or above MPHTL (R377) -/
  thlNow : Mask := 0
  /-- IMBAL has been raised and the difference has not stayed low since (R88) -/
  imbal : Mask := 0
  /-- the phases' currents were last seen to differ by more than the threshold (R377) -/
  imbNow : Mask := 0
  /-- a phase is shed (R77, R91) -/
  shed : Mask := 0
  /-- a planned swap overlaps (R78, R102, R124) -/
  overlap : Mask := 0
  ramps : Map Ramp := []
deriving DecidableEq, Repr

/-- The external phases of PRE or of an MPH rail (R75 to R78, R91 to R102). -/
structure PhaseSt where
  fail : BitVec 3 := 0
  spare : BitVec 3 := 4
  cause : Nat := 0
  /-- the incoming and the outgoing phase of a swap overlap -/
  inc : Nat := 0
  out : Nat := 0
  /-- phases retired into the spare role (R227) -/
  retired : BitVec 3 := 0
deriving DecidableEq, Repr

/-- One LDO's pass devices (R122 to R124). -/
structure LdoSt where
  pass1 : Bool := false
  p0f : Bool := false
  p1f : Bool := false
  pcause : Nat := 0
  drop : Bool := false
  retired : Bool := false
deriving DecidableEq, Repr

/-- Blocks of the channels (04, 05); one bit per channel, BKA 0 to 3 and BKB 4 to 7 where there are eight. -/
structure Blocks where
  /-- PRE 0, MPHc 1 + c; unlisted reads as {} -/
  ph : Map PhaseSt := []
  strk : BitVec 4 := 0
  brk : BitVec 4 := 0
  /-- blanking of a new strike, of a new braking (R94) -/
  blkS : BitVec 4 := 0
  blkB : BitVec 4 := 0
  stgflt : BitVec 4 := 0
  /-- MPHSTRKN per channel, 0 unlisted -/
  strkn : Map Word := []
  /-- unlisted reads as {} -/
  ldo : Map LdoSt := []
  revblk : BitVec 4 := 0
  vlow : BitVec 4 := 0
  /-- GBSNSPK per channel, 0 unlisted -/
  snspk : Map Word := []
  skip : BitVec 8 := 0
  hot : BitVec 8 := 0
  pvlow : BitVec 4 := 0
  /-- BKBAND per channel, 5 unlisted -/
  band : Map Nat := []
deriving DecidableEq, Repr

/-- The sequencer (06_sequencer.md). -/
structure Seq where
  /-- SEQSTAT.PHASE -/
  phase : Nat := 0
  resumed : Bool := false
  /-- tick in force, TICK code (R140) -/
  tick : Nat := 1
  /-- the last common start or stop -/
  t0 : Option Nat := none
  offhold : Mask := 0
  retryWait : Mask := 0
  /-- waiting to be enabled; on-delay elapsed -/
  wait : Mask := 0
  dly : Mask := 0
  /-- to be switched off by the reverse sequence or a SAFE policy; off-delay elapsed -/
  offWait : Mask := 0
  offDly : Mask := 0
  /-- enabled at the common stop (R150) -/
  wasOn : Mask := 0
  /-- retry counters, 0 unlisted -/
  retries : Map Nat := []
  /-- rails that a retry will restart, by the retried rail -/
  rset : Map Mask := []
  /-- event counters by rail × 16 + bit, 0 unlisted (R165) -/
  cnt : Map Word := []
  /-- RSTLVL: reset outputs asserted -/
  rst : BitVec 5 := 0x1F
  /-- release timer running -/
  rstRun : BitVec 5 := 0
  /-- rails whose start timeout expired in the step that switched them off (R161), and those whose reaction to it that step has
  carried out -/
  joined : Mask := 0
  taken : Mask := 0
  lastRail : Nat := 0
  lastCode : Nat := 0
  lastKind : Nat := 7
  /-- the forward sequence is open, has ended since the common start -/
  fwd : Bool := false
  ended : Bool := false
  /-- the STOP in progress runs under COMPLETE whatever INPOL says (R159, R331), or was not caused by input loss -/
  complete : Bool := false
  /-- inputs last reported within their window, and those last reported above their OV level -/
  monok : Word := 0
  monhi : Word := 0
  monuvl : Word := 0
  monovl : Word := 0
deriving DecidableEq, Repr

/-- A commit in flight, or a TXN_VALIDATE being run beside it (07_transactions.md). -/
structure Commit where
  seq : Byte
  scope : Word
  mode : Byte
  angle : Byte
  /-- DEADLINE as an absolute time, and its value in ms -/
  due : Nat
  dlms : Nat
  on : Mask
  off : Mask
  /-- validated, waits for its apply moment -/
  pending : Bool
  /-- an abort, or a deadline, arrived while validating -/
  abort : Bool
  late : Bool
  /-- it still holds the command slot -/
  slot : Bool
  /-- held bytes were found at acceptance (R178) -/
  half : Option Nat
deriving DecidableEq, Repr

/-- Page 0x28 and the commit in flight. -/
structure Txn where
  cur : Option Commit := none
  /-- a TXN_VALIDATE being run beside a pending commit -/
  val : Option Commit := none
  seq : Byte := 0
  appl : Byte := 0
  res : Nat := 0
  unlocked : Bool := false
  applychk : Bool := false
  rsn : Byte := 0
  epg : Byte := 0
  eofs : Byte := 0
  erail : Byte := 0xFF
  pre : Nat := 0
  applycyc : BitVec 32 := 0
  applyang : Byte := 0
deriving DecidableEq, Repr

/-- One snapshot bank's record (R229, R399). -/
structure SnapBank where
  seq : Nat
  bytes : List Byte
deriving DecidableEq, Repr

/-- SAFE, its inputs, the host watchdog, lockstep and the last-fault capture (08_fault_tolerance.md). -/
structure Safe where
  cause : BitVec 7 := 0
  first : Nat := 0
  /-- an accepted SAFE_CLEAR waits, and whether its MINOFF has run (R208) -/
  exit : Bool := false
  waited : Bool := false
  areq : Bool := false
  breq : Bool := false
  disclatch : Bool := false
  wdState : Nat := 0
  wdLatch : Bool := false
  wdNext : Bool := false
  wdErr : Nat := 0
  /-- when the present kick's window opens, half microseconds -/
  wdOpen : Nat := 0
  /-- rails that a HOLD policy holds (R206) -/
  held : Mask := 0
  /-- lockstep failures held (R216) -/
  ls : Nat := 0
  snapHeld : Bool := false
  snapMissed : Bool := false
  snapMiss : Nat := 0
  /-- the last capture; empty: 0xFF bytes -/
  cap : List Byte := []
  bank0 : Option SnapBank := none
  bank1 : Option SnapBank := none
deriving DecidableEq, Repr

/-- Touchstone, oscillators and Assay (page 0x31). -/
structure Tst where
  refFail : BitVec 3 := 0
  cmpOnC : Bool := false
  adcOnC : Bool := false
  oscB : Bool := false
  oscFail : BitVec 2 := 0
  xtal : Bool := false
  full : Nat := 0
  light : Bool := false
  fail : BitVec 5 := 0
  dispN : Nat := 0
  /-- rounds in a row that displaced the light step -/
  dispRun : Nat := 0
  cmpFail : Mask := 0
  cmpLost : Mask := 0
  devAC : Word := 0
  devBC : Word := 0
  devAB : Word := 0
  oscDevA : Byte := 0
  oscDevB : Byte := 0
  /-- REF-A to REF-C, OSC-A, OSC-B retired by a planned swap (R227) -/
  retired : BitVec 5 := 0
deriving DecidableEq, Repr

/-- One Patina resource (R225, R234): charge in milliamperes times rounds of 100 ms. -/
structure Res where
  chg : Nat := 0
  /-- time hot, in rounds of 100 ms -/
  hot : Nat := 0
  /-- strike on-time in the spare role, half microseconds -/
  strk : Nat := 0
  /-- |deviation| summed over the rounds of the last full hour, in 0.005 %; the sum and the rounds of the hour under way (R226) -/
  dev : Nat := 0
  devSum : Nat := 0
  devN : Nat := 0
deriving DecidableEq, Repr

/-- A bank of the Patina ledger as the flash holds it. -/
structure PatBank where
  seq : Nat
  res : Map Res
  op : Nat
  cycles : Nat
  /-- erase counts by physical sector -/
  ecnt : Map Nat
  /-- the spare roles of phases and pass devices -/
  ph : Map PhaseSt
  ldo : Map LdoSt
deriving DecidableEq, Repr

/-- Patina (page 0x32). -/
structure Pat where
  /-- unlisted: {} -/
  res : Map Res := []
  /-- pending planned swaps, oldest first -/
  pend : List Nat := []
  /-- resources whose SPARELOW, whose RETIRE has been raised since the firmware started (log entry 32) -/
  low : BitVec 28 := 0
  told : BitVec 28 := 0
  bankA : Option PatBank := none
  bankB : Option PatBank := none
deriving DecidableEq, Repr

/-- A result of a conversion sequence (R243). -/
structure SeqRes where
  done : Bool := false
  unlocked : Bool := false
  late : Bool := false
  invalid : Bool := false
  qchk : Bool := false
  qbad : Bool := false
  cyc : Word := 0
  ang : Byte := 0
  fine : Nat := 0
  run : Byte := 0
  vals : List Word := []
  /-- the cycle of its action time ended while no firmware ran: no quiet check is made (R243) -/
  lost : Bool := false
deriving DecidableEq, Repr

/-- A conversion sequence that runs or waits on a converter, with the definition it started with (R242, R258). -/
structure SeqRun where
  seq : Nat
  bytes : List Byte
  res : SeqRes
deriving DecidableEq, Repr

/-- One sensor's check (R250, R251). -/
structure Sensor where
  /-- 0 own, 1 neighbours' mean, 2 none, 3 disabled -/
  src : Nat := 2
  failed : Bool := false
  dis : Bool := false
  warn : Bool := false
  limit : Bool := false
  disRun : Nat := 0
  rngRun : Nat := 0
deriving DecidableEq, Repr

/-- Housekeeping (pages 0x38 to 0x3B). -/
structure Hk where
  /-- MVAL, 0 unlisted -/
  mval : Map Word := []
  /-- AGE, 127 unlisted -/
  age : Map Nat := []
  /-- measurements whose INVALID bit is 0 -/
  valid : BitVec 104 := 0
  rnd : Word := 0
  hkaInv : Bool := false
  hkbInv : Bool := false
  tjNone : Bool := false
  noTd : Nat := 0
  /-- round ends since reset -/
  ends : Nat := 0
  /-- when the round under way ends (R239) -/
  due : Nat := 0
  /-- what held the first free slot of the round under way: 0 nothing, 1 a host request, 2 a CONV sequence (R241) -/
  claim : Nat := 0
  /-- since the round under way began there was a moment without a CONV sequence (R241) -/
  gap : Bool := false
  /-- unlisted: {} -/
  res : Map SeqRes := []
  runA : List SeqRun := []
  runB : List SeqRun := []
  reqBusy : Bool := false
  /-- the measurement and the converter (true HKB) that GO named (R244) -/
  reqMeas : Nat := 0
  reqB : Bool := false
  reqDone : Bool := false
  reqInv : Bool := false
  reqVal : Word := 0
  /-- the result latched by HKRFLAG -/
  lres : Option SeqRes := none
  th : BitVec 128 := 0
  thN : Map Nat := []
  /-- unlisted: {} -/
  sen : Map Sensor := []
deriving DecidableEq, Repr

/-- The thermal manager (page 0x3C). -/
structure Thm where
  chip : Nat := 5
  /-- channel bands, 5 unlisted -/
  chan : Map Nat := []
  dchip : Nat := 100
  /-- 100 unlisted -/
  dchan : Map Nat := []
  drail : Map Nat := []
  /-- F below 100 % and its IBASE, by rail -/
  ibase : Map Nat := []
  f : Map Nat := []
  req : Mask := 0
  grace : Mask := 0
  enf : Mask := 0
  tj : Word := 0
deriving DecidableEq, Repr

/-- The charge pilot (page 0x40). -/
structure Plt where
  role : Nat := 3
  state : Nat := 0
  osc : Bool := false
  freqerr : Bool := false
  s2 : Bool := false
  diode : Bool := false
  soft : Bool := false
  hard : Bool := false
  rspRun : Bool := false
  gen : Bool := false
  base : Bool := true
  /-- PDUTYSET as the generator's period under way has it (R277) -/
  gduty : Nat := 1000
  duty : Word := 0xFFFF
  curr : Word := 0xFFFF
  freq : Word := 0
  cphi : Word := 0
  cplo : Word := 0x8000
  ppres : Word := 0xFFFF
  pp : Nat := 0
  cause : BitVec 4 := 0
  /-- class seen last, how often in a row, classified periods so far, last four periods -/
  cls : Nat := 0
  run : Nat := 0
  seen : Nat := 0
  hist : List (Int × Int × Nat × Nat) := []
  ppCls : Nat := 0
  ppRun : Nat := 0
  /-- consecutive supply-role periods with a bad low plateau -/
  lowRun : Nat := 0
  genflt : Bool := false
  /-- a role swap runs, to supply -/
  swap : Option Bool := none
  /-- SLEEP monitor: windows in a row with CP high, with PP present; a window with PP absent was seen -/
  monCp : Nat := 0
  monPp : Nat := 0
  monSeen : Bool := false
deriving DecidableEq, Repr

/-- The charger (page 0x44). -/
structure Chg where
  phase : Nat := 0
  ct : Nat := 2
  ntc : Bool := false
  defaults : Bool := false
  tmrpre : Bool := false
  tmrfast : Bool := false
  cellov : Bool := false
  vmidlow : Bool := false
  /-- hold-off of R294 not yet over -/
  holdoff : Bool := true
  /-- the phase kept through a suspension (R292) -/
  kept : Nat := 0
  tcell : Word := 0x8000
  /-- TCELL comparator levels in mV, rising then falling by edge; none loaded: Hallmark region 7's (R290) -/
  levels : List Nat := []
  /-- the TCELL pin voltage last seen by the comparators, in mV -/
  tpin : Option Nat := none
  /-- running safety timer: counted half microseconds, since when, at which rate (0 paused, 1 half, 2 full) -/
  tcount : Nat := 0
  /-- whose count it is: 1 the pre-charge timer's, 2 the fast timer's, 0 none -/
  tfor : Nat := 0
  tsince : Nat := 0
  trate : Nat := 0
  vcell : Nat := 0
deriving DecidableEq, Repr

/-- What a gauge bank holds (R307). -/
structure GauBank where
  seq : Nat
  cap : Nat
  qnow : Int
  conf : Nat
  learnN : Nat
  rband : List Nat
  start : Option (Nat × Int × Nat)
  acc : Int
  last : Nat
deriving DecidableEq, Repr

/-- The gauge (page 0x45). Charges in µA·h, SOC in 0.1 %. -/
structure Gau where
  off : Bool := true
  cap : Nat := 0
  qnow : Int := 0
  conf : Nat := 0
  learnN : Nat := 0
  /-- Rband of B0 to B5 in 0.1 mΩ, none before the first start; GRCELL as published -/
  rband : List Nat := []
  rcell : Nat := 0
  /-- start point: SOC, GQACC, operating seconds -/
  start : Option (Nat × Int × Nat) := none
  acc : Int := 0
  /-- GQACC as QNOW has it (R297) -/
  seen : Int := 0
  /-- since when the current has stayed within ±GIREST (R299) -/
  calm : Option Nat := none
  /-- when the converter last measured its offset (R295) -/
  calAt : Nat := 0
  last : Nat := 0
  cnew : Nat := 0
  frozen : Bool := false
  rest : Bool := false
  slow : Bool := false
  swapsusp : Bool := false
  soc : Nat := 0
  i : Int := 0
  vcell : Nat := 0
  tte : Nat := 0xFFFF
  /-- last round's mean current, whether it was steady, its cell voltage -/
  prev : Option (Int × Bool × Nat) := none
  /-- the next round is an OCV point: 1 the rest of a SLEEP (R299), 2 first use or a new cell (R308, R310) -/
  point : Nat := 0
  bankA : Option GauBank := none
  bankB : Option GauBank := none
deriving DecidableEq, Repr

/-- A date and time in plain numbers (R315). -/
structure Date where
  sec : Nat := 0
  min : Nat := 0
  hour : Nat := 0
  wday : Nat := 1
  day : Nat := 1
  month : Nat := 1
  year : Nat := 0
  cent : Nat := 20
deriving DecidableEq, Repr

/-- The calendar (page 0x48). -/
structure Cal where
  now : Date := {}
  latched : Option Date := none
  /-- the half microsecond at which the present second began -/
  t0 : Nat := 0
  lost : Bool := true
  lprc : Bool := false
  seterr : Bool := false
  /-- prescaler cycles added by CALTRIM and shifts since the second began -/
  adj : Int := 0
  /-- cycles of a CALTRIM step that fell on the end of a second whose increment waits: the next second's (R319) -/
  trimNext : Int := 0
  /-- RTC_SHIFT under way, and when its prescaler change begins -/
  shift : Option Int := none
  shiftAt : Nat := 0
  /-- a negative shift whose boundary is the end of the present second: its hold begins with the next one (R324) -/
  shiftNext : Bool := false
deriving DecidableEq, Repr

/-- A sleep request (R330 to R332): SLEEP or SHIP, and whether its STOP has ended. -/
structure SlpReq where
  ship : Bool
  prep : Bool
deriving DecidableEq, Repr

/-- Power states and wake (page 0x60, R385). -/
structure Pwr where
  held : Bool := false
  idle : Bool := false
  lastslp : Nat := 0
  req : Option SlpReq := none
  why : Nat := 0
  slpsec : BitVec 32 := 0
  wl : BitVec 64 := 0
  /-- the always-on clock edge, counted from 1, at which a latch last set, 0 unlisted (R386) -/
  wlAt : Map Nat := []
  /-- STANDBY was entered from RUN (R327) -/
  fromRun : Bool := false
  /-- exit kind to report once the firmware runs: WOKE, SHIPEXIT (R334) -/
  woke : Option Bool := none
deriving DecidableEq, Repr

/-- The command slot, sessions and counters of the host bus (13_host_bus_commands.md). -/
structure Bus where
  /-- CSTAT: STATE, TAG, PROGRESS, ERR -/
  cstat : Nat := 0
  tag : Byte := 0
  prog : Byte := 0xFF
  err : Byte := 0
  /-- opcode in the slot -/
  op : Byte := 0
  cres : List Byte := []
  ofs : Nat := 0
  level : Nat := 0
  /-- valid nonce and its level -/
  nonce : Option (List Byte × Nat) := none
  lock : Bool := false
  failn : Nat := 0
  hnsusp : Bool := false
  /-- Host Notifies due, and arbitrations that the first of them has lost so far -/
  hn : Nat := 0
  hnLost : Nat := 0
  peccnt : Nat := 0
  tmocnt : Nat := 0
  nackn : Nat := 0
  /-- bytes last driven on the host bus; the last access was not acknowledged (log entry 14) -/
  rdata : List Byte := []
  nack : Bool := false
deriving DecidableEq, Repr

/-- A downstream transfer (R366): target, bytes to write, bytes to read, arbitrations lost so far, and the PEC appended to its
write. -/
structure DsJob where
  addr : Nat
  wr : List Byte
  q : Nat
  tries : Nat
  pec : Option Byte
deriving DecidableEq, Repr

/-- The downstream port (page 0x4D). -/
structure Ds where
  job : Option DsJob := none
  /-- a bus clear runs: 1 after its first round, 2 the clear of step 6, 3 its first round -/
  clearing : Nat := 0
  failed : Bool := false
  stuckSda : Bool := false
  stuckScl : Bool := false
  cut : Bool := false
  cutSet : Mask := 0
  /-- the cut rails restart; step 6 follows once they are power-good -/
  recheck : Bool := false
  pollIdx : Nat := 0
  /-- DSPOLLT has elapsed and the poll has not started; the entry being polled and its transfer -/
  pollDue : Bool := false
  poll : Option (Nat × DsJob) := none
  /-- DSPVAL, 0 unlisted -/
  val : Map Word := []
  ok : BitVec 12 := 0
  /-- entries whose last poll failed, and arbitrations lost by the poll under way -/
  bad : BitVec 12 := 0
  pollTries : Nat := 0
deriving DecidableEq, Repr

/-- The interrupt controller (14_interrupts.md). -/
structure Irq where
  /-- 0 unlisted -/
  pend : Map Word := []
  /-- 0xFFFF unlisted -/
  mask : Map Word := []
  /-- sources raised since the last read of PENDg's low byte; 0xFFFF unlisted (no read yet) -/
  late : Map Word := []
  /-- the interrupt-clock tick at which a source was last registered, 0 unlisted (R375) -/
  tick : Map Nat := []
  ovr : BitVec 64 := 0
  /-- 4-bit routes, 0 unlisted -/
  route : Map (BitVec 4) := []
  rrnext : Nat := 0
  /-- assigned target + 1 of class S sources, 0 unlisted -/
  asg : Map Nat := []
  /-- the last 1 µs in which raises were assigned: its tick, RRNEXT before them, and their sources, ascending (R380) -/
  rrTick : Nat := 0
  rrBase : Nat := 0
  rrSrcs : List Nat := []
  /-- running 10 µs pulses -/
  pulse : BitVec 4 := 0
  alert : Bool := false
deriving DecidableEq, Repr

/-- A log record (R407), or a raise that waits to become one. -/
structure LogRec where
  kind : Nat
  src : Nat
  sec : Nat
  cyc : Nat
  /-- 0xFF: open -/
  rep : Nat
  data : BitVec 32
  /-- valid mark and CRC are good -/
  ok : Bool
  /-- when it was raised, half microseconds -/
  t : Nat
deriving DecidableEq, Repr

/-- An open record: source, position in the log, folds so far. -/
structure OpenRec where
  src : Nat
  pos : Nat
  n : Nat
deriving DecidableEq, Repr

/-- The frame of a two-bank store in its bank's first sector (R399): bytes 0 to 3 and 8 to 9, whether the CRC-32 fits, and the
valid mark. The sequence number and the payload are those of the bank's own record. -/
structure Frame where
  marker : Word := 0x544F
  kind : Byte
  format : Byte := 0x01
  len : Nat
  crcOk : Bool := true
  mark : Byte := 0xA5
deriving DecidableEq, Repr

/-- The 4,096 data bytes of a sector (R390): those programmed from byte 0 on, 0xFF behind them, or a bank's frame. Bytes `none`:
an image as shipped, whose contents the spec does not give (log entry 6). The records of a log sector are those of `Fl.log`. -/
structure Content where
  bytes : Option (List Byte) := some []
  frame : Option Frame := none
deriving DecidableEq, Repr

/-- A flash sector: its header row (R392) and its data. The role of byte 6 and, but for a stand-in, the logical number of bytes 7
and 8 follow from the sector's own number (R389). -/
structure Sector where
  /-- bytes 0 to 3; none: 0xFF after an erase that did not reach its header -/
  count : Option Nat := some 0
  /-- byte 4 reads 0x5A -/
  start : Bool := false
  /-- byte 5 -/
  done : Byte := 0xA5
  /-- bytes 7 and 8 of a stand-in -/
  stand : Option Nat := none
  /-- byte 9 reads 0x00 -/
  retired : Bool := false
  /-- bytes 12 to 15 fit bytes 0 to 3 and 6 to 8 -/
  crcOk : Bool := true
  /-- of a refresh buffer: bytes 16 and 17, whether bytes 18 to 21 fit the data, bytes 22 and 23 programmed -/
  held : Option Nat := none
  heldCrc : Bool := false
  heldMark : Bool := false
  consumed : Bool := false
  data : Content := {}
  /-- expected to be blank -/
  blank : Bool := true
  /-- half-erased at the last start and not yet erased again, with the count from before the interrupted erase (R394) -/
  half : Option Nat := none
  /-- the last margin read of it failed -/
  marginBad : Bool := false
deriving DecidableEq, Repr

/-- What a configuration bank holds (R401). -/
structure CfgImg where
  seq : Nat
  staged : RegMap
  plain : RegMap
  sched : Map (BitVec 32)
  mask : Map Word
  route : Map (BitVec 4)
  txnappl : Byte
deriving DecidableEq, Repr

/-- What a flash slot does (R403). A refresh takes two: its buffer, then the sector itself. `logPrep`: a half-erased log sector is
erased before it is written. -/
inductive Slot where
  | snap | cfg | scrub (sector : Nat) | refreshBuf (sector : Nat) | refresh (sector : Nat) | pat | gauge | log
  | logErase (sector : Nat) | logPrep (sector : Nat) | upd (sector : Nat) | journal | updMan | updCfg
deriving DecidableEq, Repr

/-- Flash, log and scrub (15_nvm_log.md). -/
structure Fl where
  slot : Option Slot := none
  /-- unlisted: {}; at reset the two sectors of the shortest image lie in slot A (log entry 6) -/
  sec : Map Sector := [(0, { blank := false, data := { bytes := none } }), (1, { blank := false, data := { bytes := none } })]
  ro : BitVec 10 := 0
  cfgSt : Nat := 0
  cfgA : Option CfgImg := none
  cfgB : Option CfgImg := none
  /-- a capture that waits to be written -/
  capture : Option CfgImg := none
  wantPat : Bool := false
  /-- gauge banks to write (R307, R310) -/
  wantGau : Nat := 0
  wantLog : Bool := false
  /-- sectors to scrub or refresh -/
  scrubDue : Bool := false
  scrubSince : Nat := 0
  scrubPrev : Bool := false
  /-- physical sectors that wait for their refresh, and since when -/
  refresh : List (Nat × Nat) := []
  /-- the second refresh buffer is used next (R405): read from the buffers' headers, so nothing takes it back (log entry 36) -/
  turn : Bool := false
  scrubIdx : Nat := 0
  late : Bool := false
  refrcnt : Nat := 0
  halfcnt : Nat := 0
  /-- the log, oldest record first -/
  log : List LogRec := []
  queue : List LogRec := []
  opens : List OpenRec := []
  /-- close bytes that wait for a log slot: position and count (R403, R409) -/
  closes : List (Nat × Nat) := []
  drop : Nat := 0
  /-- length of a run of raises that found the queue full -/
  run : Nat := 0
  bad : Nat := 0
  /-- LOG_ERASE: next sector to erase + 1, LOGCNT before it, LOGDROP at its start -/
  erasing : Option (Nat × Nat × Nat) := none
  flush : Bool := false
  /-- LOG_READ under way: first record, count, records produced (R413) -/
  reading : Option (Nat × Nat × Nat) := none
deriving DecidableEq, Repr

/-- Hallmark (16_fuses_update.md): array, shadow, locks, repair tags. Bytes by region × 64 + index, 0 unlisted. As shipped:
a vendor key digest in slot 0 and a device secret stand for contents that the spec does not give (log entry 5). -/
structure Otp where
  arr : Map Byte := [(0, 0x26), (1, 0x40), (2, 0xB0), (128, 0x01), (256, 0x01)]
  shd : Map Byte := [(0, 0x26), (1, 0x40), (2, 0xB0), (128, 0x01), (256, 0x01)]
  /-- the five fuses of each region's write lock and read lock -/
  wl : Map (BitVec 5) := [(0, 0x1F), (1, 0x1F), (2, 0x1F), (4, 0x1F)]
  rl : Map (BitVec 5) := [(4, 0x1F)]
  wlS : BitVec 16 := 0x0017
  rlS : BitVec 16 := 0x0010
  /-- the 25 fuses of each repair tag: five for each region bit, lowest first, then five for the valid bit -/
  tag14 : BitVec 25 := 0
  tag15 : BitVec 25 := 0
  tag14S : Option Nat := none
  tag15S : Option Nat := none
  /-- regions (bits 0 to 15) and locks of regions (16 to 31) programmed since the last sensing -/
  pend : BitVec 32 := 0
  floorValid : Bool := false
  /-- every lock fuse resolves 3 of 5 (R21) -/
  sensed : Bool := true
deriving DecidableEq, Repr

/-- The valid header of a firmware slot (R432). `bytes`: the 256 it stands in; none for an image as shipped, whose contents the
spec does not give (log entry 6). -/
structure SlotHdr where
  ver : List Byte
  svn : Nat
  key : Nat
  revoke : BitVec 2
  len : Nat
  bytes : Option (List Byte)
deriving DecidableEq, Repr

/-- What the accepted manifest says (R433). -/
structure Manifest where
  bytes : List Byte
  fwLen : Nat
  cfgLen : Nat
  fw : Bool
  cfg : Bool
  /-- the configuration part comes first -/
  cfgFirst : Bool
  delta : Bool
  autoconf : Bool
  tconf : Nat
  ttrial : Nat
  revoke : BitVec 2
deriving DecidableEq, Repr

/-- A bank of the update journal (R440): its sequence number, payload and progress marks. `sha` is empty where no manifest was
accepted; a mark is an output sector and the input offset of what follows it. -/
structure Jrn where
  seq : Nat
  st : Nat
  fw : Bool
  cfg : Bool
  delta : Bool
  nextB : Bool
  prevOk : Bool
  boots : Nat
  err : Byte
  len : Nat
  sha : List Byte
  fwOfs : Nat
  marks : List (Nat × Nat)
deriving DecidableEq, Repr

/-- What follows once a journal write completes. -/
inductive JAct where
  | none | begin | confirm | fell
deriving DecidableEq, Repr

/-- The update engine (16_fuses_update.md). -/
structure Upd where
  /-- UPDSTAT.STATE -/
  st : Nat := 0
  err : Byte := 0
  bootedB : Bool := false
  nextB : Bool := false
  prevOk : Bool := false
  trialflt : Bool := false
  boots : Nat := 0
  inp : Nat := 0
  len : Nat := 0
  out : Nat := 0
  man : Option Manifest := none
  /-- stream bytes received and not yet consumed by an output sector, newest last -/
  buf : List Byte := []
  /-- bytes of a UPD_DATA that waits for room in the buffer -/
  wait : Option (List Byte) := none
  /-- input offset after the highest progress mark -/
  mark : Nat := 0
  /-- bytes of the session's stream before `buf` -/
  used : Nat := 0
  slotA : Option SlotHdr := some ⟨[1, 0, 0], 0, 0, 0, 8192, none⟩
  slotB : Option SlotHdr := none
  /-- Anvil's verified flags of the slots (R445) -/
  verA : Bool := false
  verB : Bool := false
  /-- the operating time at which TTRIAL has passed; 0: its count starts again with the firmware (R20). It goes on across a system
  reset and an island restart (log entry 38) -/
  trialEnd : Nat := 0
  confEnd : Option Nat := none
  /-- where the configuration part of the trial was written: 0 nowhere, 1 the first bank, 2 the second, 3 a bank that a save has
  replaced since; the part itself stands in sector 401 -/
  cfgNew : Nat := 0
  /-- the two banks of the journal -/
  jrn0 : Option Jrn := none
  jrn1 : Option Jrn := none
  /-- what the engine's next flash slot is wanted for -/
  want : Option Slot := none
  jact : JAct := .none
  /-- a fall-back whose journal entry waits for the firmware (R446) -/
  fell : Bool := false
  /-- the bytes that the slot in progress programs for a session that has been cancelled meanwhile (R403, R448) -/
  cutOut : Option (List Byte) := none
deriving DecidableEq, Repr

/-- The whole machine. `free` counts the free values drawn (the model's own, log entry 8). -/
structure State where
  pending : List Instr := []
  clk : Clk := {}
  free : Nat := 0
  glob : Glob := {}
  regs : Regs := {}
  cyc : Cyc := {}
  qt : Quiet := {}
  inp : Inp := {}
  rl : Rails := {}
  bk : Blocks := {}
  seq : Seq := {}
  txn : Txn := {}
  safe : Safe := {}
  tst : Tst := {}
  pat : Pat := {}
  hk : Hk := {}
  thm : Thm := {}
  plt : Plt := {}
  chg : Chg := {}
  gau : Gau := {}
  cal : Cal := {}
  pwr : Pwr := {}
  bus : Bus := {}
  ds : Ds := {}
  irq : Irq := {}
  fl : Fl := {}
  otp : Otp := {}
  upd : Upd := {}
deriving DecidableEq, Repr

/-- The machine right after a power-on reset with the boot under way (R326, R27 and the chapters' reset columns). The firmware
island has just been released (its 50 ms of R23 run), the charge converter's 10 min (R295) and the calendar's second run, and the
scrub's first step is due (R404). -/
def State.reset : State :=
  { clk := { timers := [⟨100000, .fwBootTimeout⟩, ⟨1200000000, .gaugeOffsetCal⟩, ⟨2000000, .calendarSecond⟩, ⟨64000000, .caltrimStep⟩, ⟨7200000001, .scrublate⟩] }, fl := { scrubDue := true } }

end Sys2Proof.Machine
end

