-- ==== Sys2Proof/Machine/Ops.lean ====
section
/-! DEFINITION. Operations that every family shares: maps in canonical form, rail masks, absolute time and armed
events (R31), bytes and check codes, free values. -/

namespace Sys2Proof.Machine

/-! Maps: keys strictly rising, no entry equal to the default. -/

/-- The value at key `k`, `d` where `k` is not listed. -/
def mget {α : Type} (d : α) : Map α → Nat → α
  | [], _ => d
  | (k', v) :: t, k => if k' = k then v else mget d t k

/-- Insert in key order, replacing. -/
def minsert {α : Type} (k : Nat) (v : α) : Map α → Map α
  | [] => [(k, v)]
  | (k', v') :: t =>
    if k < k' then (k, v) :: (k', v') :: t
    else if k = k' then (k, v) :: t
    else (k', v') :: minsert k v t

/-- Remove every entry of a key: what is read there afterwards is the default, whatever the map. -/
def merase {α : Type} (k : Nat) : Map α → Map α
  | [] => []
  | (k', v') :: t => if k = k' then merase k t else (k', v') :: merase k t

/-- Write `v` at `k`; writing the default removes the entry, so that equal contents are equal lists. -/
def mput {α : Type} [DecidableEq α] (d : α) (m : Map α) (k : Nat) (v : α) : Map α :=
  if v = d then merase k m else minsert k v m

/-- Keys strictly rising from above `lo`, no entry equal to the default. -/
def mwfFrom {α : Type} [DecidableEq α] (d : α) : Option Nat → Map α → Bool
  | _, [] => true
  | lo, (k, v) :: t =>
    (match lo with | none => true | some l => decide (l < k)) && decide (v ≠ d) && mwfFrom d (some k) t

/-- The canonical form of a map. -/
def mwf {α : Type} [DecidableEq α] (d : α) (m : Map α) : Bool := mwfFrom d none m

/-! Masks over the rails (R11). -/

/-- The mask of one rail. -/
def bit (r : Nat) : Mask := BitVec.twoPow 32 r

/-- Rail `r` is in the mask. -/
def has (m : Mask) (r : Nat) : Bool := m.getLsbD r

/-- The rails of a mask, ascending. -/
def rails (m : Mask) : List Nat := (List.range 32).filter (has m)

/-- Set or clear one bit of a vector. -/
def setBit {n : Nat} (v : BitVec n) (i : Nat) (b : Bool) : BitVec n :=
  if b then v ||| BitVec.twoPow n i else v &&& ~~~(BitVec.twoPow n i)

/-- The rails for which `p` holds. -/
def maskOf (p : Nat → Bool) : Mask :=
  (List.range 32).foldl (fun m r => if p r then m ||| bit r else m) 0

/-! Absolute time (R31), in half microseconds. -/

/-- Half microseconds in n microseconds. -/
def us (n : Nat) : Nat := 2 * n
/-- Half microseconds in n milliseconds. -/
def ms (n : Nat) : Nat := 2000 * n
/-- Half microseconds in n seconds. -/
def sec (n : Nat) : Nat := 2000000 * n

/-- The event is not armed any more. -/
def disarm (e : Instr) (s : State) : State :=
  { s with clk := { s.clk with timers := s.clk.timers.filter (fun t => decide (t.ev ≠ e)) } }

/-- Arm event `e` for `dt` half microseconds from now; a running one is replaced. -/
def arm (dt : Nat) (e : Instr) (s : State) : State :=
  { s with clk := { s.clk with
      timers := s.clk.timers.filter (fun t => decide (t.ev ≠ e)) ++ [⟨s.clk.now + dt, e⟩] } }

/-- The event is armed. -/
def armed (e : Instr) (s : State) : Bool := s.clk.timers.any (fun t => decide (t.ev = e))

/-- No event that `p` names is armed any more. -/
def disarmAll (p : Instr → Bool) (s : State) : State :=
  { s with clk := { s.clk with timers := s.clk.timers.filter (fun t => !p t.ev) } }

/-- Operating seconds (R407). -/
def opSec (s : State) : Nat := s.clk.op / 2000000

/-- The commands that the device itself brings about at once go to the end of the queue. -/
def enqueue (c : Instr) (s : State) : State := { s with pending := s.pending ++ [c] }

/-- A command that runs before all that waits: the rest of what the device has begun. -/
def runNext (c : Instr) (s : State) : State := { s with pending := c :: s.pending }

/-- The event is armed for a moment still to come: one that comes now ends nothing of it. -/
def armedAhead (e : Instr) (s : State) : Bool := s.clk.timers.any (fun t => decide (t.ev = e ∧ s.clk.now < t.due))

/-! Numbers, bytes and check codes. -/

/-- The sum, at most `cap`. -/
def satAdd (cap a b : Nat) : Nat := min cap (a + b)

/-- A value limited to lo .. hi. -/
def clampTo (lo hi x : Nat) : Nat := max lo (min hi x)

/-- Little-endian bytes of a number (R6). -/
def leBytes : Nat → Nat → List Byte
  | 0, _ => []
  | n + 1, v => BitVec.ofNat 8 v :: leBytes n (v / 256)

/-- The number that little-endian bytes hold (R6). -/
def leNat : List Byte → Nat
  | [] => 0
  | b :: t => b.toNat + 256 * leNat t

/-- Two's complement of a signed quantity, saturated to 16 bits (R9). -/
def word16 (x : Int) : Word := BitVec.ofInt 16 (max (-32768) (min 32767 x))

/-- One bit of the CRC-8 of R349 and R407: polynomial x⁸ + x² + x + 1. -/
def crc8Bit (c : Byte) : Byte := if c.msb then (c <<< 1) ^^^ 0x07 else c <<< 1

/-- CRC-8 of R349 and R407, initial value 0. -/
def crc8 (bs : List Byte) : Byte :=
  bs.foldl (fun c b => crc8Bit (crc8Bit (crc8Bit (crc8Bit (crc8Bit (crc8Bit (crc8Bit (crc8Bit (c ^^^ b))))))))) 0

/-- One bit of the CRC-16 of R423: polynomial 0x1021. -/
def crc16Bit (c : Word) : Word := if c.msb then (c <<< 1) ^^^ 0x1021 else c <<< 1

/-- CRC-16 of R423, initial value 0xFFFF. -/
def crc16 (bs : List Byte) : Word :=
  bs.foldl (fun c b =>
    crc16Bit (crc16Bit (crc16Bit (crc16Bit (crc16Bit (crc16Bit (crc16Bit (crc16Bit
      (c ^^^ BitVec.shiftLeft (b.setWidth 16) 8))))))))) 0xFFFF

/-- A list padded with 0xFF, or cut, to n bytes. -/
def padTo (n : Nat) (l : List Byte) : List Byte := (l ++ List.replicate n 0xFF).take n

/-! Free values (log entry 8): each draw advances the counter. -/

/-- A free number. -/
def drawNat (s : State) : Nat × State := (Config.freeNat s.free, { s with free := s.free + 1 })
/-- A free choice. -/
def drawBool (s : State) : Bool × State := (Config.freeBool s.free, { s with free := s.free + 1 })
/-- A free signed quantity. -/
def drawInt (s : State) : Int × State := (Config.freeInt s.free, { s with free := s.free + 1 })

/-- A byte from a number. -/
def by8 (n : Nat) : Byte := BitVec.ofNat 8 n

/-- One field of a byte replaced. -/
def putBits (b : Byte) (lo w v : Nat) : Byte :=
  BitVec.ofNat 8 (b.toNat / 2 ^ (lo + w) * 2 ^ (lo + w) + v % 2 ^ w * 2 ^ lo + b.toNat % 2 ^ lo)

end Sys2Proof.Machine
end

