-- ==== Sys2Proof/Machine/Operands.lean ====
section
/-! DEFINITION. The register operands: the table of writable fields (page, offset, bits, access, reset, legal
encodings), the keys of register bytes, and the decoded settings the other files read. The rows follow the register
tables of R27, R60, R80, R106, R133 to R136, R166 to R170, R231 to R234, R258 to R262, R281, R312, R313, R336, R337,
R368, R369, R388, R416, R431. -/

namespace Sys2Proof.Machine

/-- Access of a writable field (R7); `sc` marks an offset with self-clearing command bits. -/
inductive Acc where
  | rw | st | lk | sc
deriving DecidableEq, Repr

/-- A writable field: lowest offset, bytes, lowest bit, width, access, reset value, legal codes as closed ranges
(none listed: every code is legal). -/
structure Fd where
  off : Nat
  len : Nat
  lo : Nat
  w : Nat
  acc : Acc
  rst : Nat
  ok : List (Nat × Nat)
deriving DecidableEq, Repr

/-- A code is a legal encoding of the field. -/
def Fd.legal (f : Fd) (v : Nat) : Bool := f.ok.isEmpty || f.ok.any (fun r => decide (r.1 ≤ v) && decide (v ≤ r.2))

/-- n like fields on consecutive offsets. -/
def run (n off len lo w : Nat) (a : Acc) (rst : Nat) (ok : List (Nat × Nat)) : List Fd :=
  (List.range n).map (fun i => ⟨off + len * i, len, lo, w, a, rst, ok⟩)

/-- Page 0x01 (R60). -/
def fields01 : List Fd :=
  [⟨0x00,1,0,1,.rw,1,[]⟩, ⟨0x00,1,1,2,.rw,0,[(0,2)]⟩, ⟨0x00,1,3,2,.rw,1,[]⟩, ⟨0x00,1,5,3,.rw,3,[]⟩,
   ⟨0x01,1,0,1,.sc,0,[]⟩, ⟨0x02,2,0,16,.rw,800,[(256,16000)]⟩, ⟨0x05,1,0,1,.rw,0,[]⟩, ⟨0x05,1,1,1,.rw,0,[]⟩,
   ⟨0x06,1,0,6,.rw,0,[]⟩, ⟨0x07,1,0,4,.rw,0,[(0,8)]⟩, ⟨0x07,1,4,2,.rw,0,[]⟩, ⟨0x08,1,0,6,.rw,0,[]⟩,
   ⟨0x0C,1,0,8,.rw,0,[]⟩, ⟨0x20,1,0,7,.rw,0,[]⟩, ⟨0x20,1,7,1,.rw,0,[]⟩] ++
  run 4 0x21 1 0 8 .rw 0 [] ++ [⟨0x25,1,0,3,.sc,0,[]⟩]

/-- Page 0x02 (R80). -/
def fields02 : List Fd :=
  [⟨0x00,1,0,1,.st,1,[]⟩, ⟨0x00,1,1,1,.st,1,[]⟩, ⟨0x00,1,2,2,.st,0,[(0,2)]⟩, ⟨0x01,1,0,3,.st,2,[(0,4)]⟩,
   ⟨0x02,1,0,8,.st,8,[(0,200)]⟩, ⟨0x03,1,0,8,.st,8,[(0,200)]⟩, ⟨0x04,1,0,8,.st,0,[(0,200)]⟩,
   ⟨0x05,1,0,8,.st,0,[(0,200)]⟩, ⟨0x06,1,0,8,.st,128,[(16,128)]⟩, ⟨0x07,1,0,8,.st,128,[(16,128)]⟩,
   ⟨0x08,1,0,4,.st,5,[]⟩, ⟨0x08,1,4,4,.st,5,[]⟩, ⟨0x09,1,0,8,.st,48,[(8,200)]⟩, ⟨0x0A,1,0,8,.st,48,[(8,200)]⟩,
   ⟨0x0B,1,0,4,.st,7,[(0,12)]⟩, ⟨0x0B,1,4,4,.st,7,[(0,12)]⟩, ⟨0x0C,1,0,3,.st,3,[]⟩,
   ⟨0x0D,1,0,8,.st,10,[(1,255)]⟩, ⟨0x10,1,0,8,.st,140,[(0,180)]⟩, ⟨0x11,1,0,8,.st,75,[(0,200)]⟩,
   ⟨0x12,1,0,2,.st,2,[(1,2)]⟩, ⟨0x12,1,2,1,.st,0,[]⟩, ⟨0x12,1,3,1,.st,0,[]⟩, ⟨0x13,1,0,8,.st,22,[(0,40)]⟩,
   ⟨0x14,2,0,16,.st,2000,[(100,3000)]⟩, ⟨0x16,1,0,8,.st,150,[(10,170)]⟩, ⟨0x17,1,0,8,.st,10,[(1,255)]⟩,
   ⟨0x18,1,0,4,.st,2,[]⟩, ⟨0x18,1,4,4,.st,3,[]⟩, ⟨0x19,1,0,3,.st,3,[]⟩, ⟨0x19,1,3,3,.st,3,[]⟩,
   ⟨0x1A,1,0,8,.st,5,[(1,50)]⟩, ⟨0x1B,1,0,8,.st,30,[(1,200)]⟩, ⟨0x63,1,0,2,.sc,0,[]⟩]

/-- The buck fields at BKA's offset 0x18 or BKB's 0x28 (R133). -/
def fieldsBk (b : Nat) : List Fd :=
  [⟨b,1,0,8,.st,216,[(0,240)]⟩, ⟨b+1,1,0,5,.st,6,[(0,18)]⟩, ⟨b+2,1,0,2,.st,0,[(0,1)]⟩,
   ⟨b+2,1,2,2,.st,1,[(0,2)]⟩, ⟨b+2,1,4,2,.st,1,[(0,2)]⟩, ⟨b+3,1,0,8,.st,10,[(1,100)]⟩,
   ⟨b+4,1,0,3,.st,2,[(0,5)]⟩, ⟨b+5,1,0,4,.st,12,[(0,14)]⟩, ⟨b+6,1,0,3,.st,1,[]⟩, ⟨b+6,1,3,3,.st,1,[]⟩,
   ⟨b+6,1,6,1,.st,0,[]⟩, ⟨b+7,2,0,16,.st,3000,[(100,3000)]⟩, ⟨b+9,1,0,8,.st,10,[(1,255)]⟩]

/-- Pages 0x10 to 0x13 (R106, R133 to R136, R108). -/
def fields10 : List Fd :=
  [⟨0x00,1,0,8,.st,60,[]⟩, ⟨0x01,1,0,8,.st,20,[(0,120)]⟩, ⟨0x02,1,0,2,.st,2,[(1,2)]⟩, ⟨0x02,1,2,1,.st,0,[]⟩,
   ⟨0x02,1,3,1,.st,0,[]⟩, ⟨0x02,1,4,1,.st,1,[]⟩, ⟨0x02,1,5,1,.st,1,[]⟩, ⟨0x02,1,6,1,.st,1,[]⟩,
   ⟨0x03,1,0,2,.st,1,[]⟩, ⟨0x03,1,2,2,.st,1,[(0,2)]⟩, ⟨0x04,1,0,8,.st,20,[(5,100)]⟩, ⟨0x05,1,0,3,.st,2,[(0,5)]⟩,
   ⟨0x06,1,0,8,.st,10,[(1,100)]⟩, ⟨0x07,1,0,8,.st,60,[(10,120)]⟩, ⟨0x08,1,0,3,.st,2,[]⟩, ⟨0x08,1,3,3,.st,2,[]⟩,
   ⟨0x08,1,6,1,.st,0,[]⟩, ⟨0x09,2,0,16,.st,4000,[(100,6000)]⟩, ⟨0x0B,1,0,8,.st,10,[(1,255)]⟩,
   ⟨0x0C,1,0,4,.st,1,[]⟩, ⟨0x0C,1,4,4,.st,3,[]⟩, ⟨0x0D,1,0,4,.st,1,[]⟩, ⟨0x0D,1,4,4,.st,3,[]⟩,
   ⟨0x0E,1,0,4,.st,4,[]⟩, ⟨0x0E,1,4,4,.st,5,[]⟩, ⟨0x0F,1,0,4,.st,6,[]⟩, ⟨0x0F,1,4,4,.st,10,[]⟩,
   ⟨0x10,1,0,8,.st,10,[(1,120)]⟩, ⟨0x11,1,0,4,.st,4,[]⟩, ⟨0x12,1,0,8,.st,125,[(60,150)]⟩,
   ⟨0x13,1,0,8,.st,140,[(60,150)]⟩] ++ fieldsBk 0x18 ++ fieldsBk 0x28 ++
  [⟨0x38,1,0,8,.st,250,[(0,250)]⟩, ⟨0x39,1,0,4,.st,8,[(0,10)]⟩, ⟨0x3A,1,0,3,.st,1,[]⟩, ⟨0x3A,1,3,3,.st,1,[]⟩,
   ⟨0x3A,1,6,1,.st,0,[]⟩, ⟨0x3B,1,0,8,.st,10,[(1,100)]⟩, ⟨0x3C,1,0,1,.st,1,[]⟩, ⟨0x3C,1,1,1,.st,0,[]⟩,
   ⟨0x3D,1,0,8,.st,10,[(1,255)]⟩, ⟨0x48,1,0,3,.st,3,[(0,5)]⟩, ⟨0x48,1,3,1,.st,1,[]⟩, ⟨0x48,1,4,2,.st,1,[]⟩,
   ⟨0x49,1,0,4,.st,6,[(0,8)]⟩, ⟨0x4A,1,0,8,.st,20,[(1,100)]⟩, ⟨0x50,1,0,8,.st,15,[(0,90)]⟩,
   ⟨0x51,1,0,4,.st,4,[]⟩, ⟨0x52,1,0,2,.st,0,[(0,1)]⟩, ⟨0x52,1,2,1,.st,0,[]⟩, ⟨0x53,1,0,4,.st,15,[]⟩,
   ⟨0x54,1,0,8,.st,20,[(1,100)]⟩, ⟨0x55,1,0,8,.st,100,[(25,150)]⟩, ⟨0x56,1,0,3,.st,0,[]⟩, ⟨0x56,1,3,3,.st,0,[]⟩,
   ⟨0x57,1,0,8,.st,10,[(1,255)]⟩, ⟨0x63,1,0,1,.sc,0,[]⟩]

/-- Page 0x14 (R170). -/
def fields14 : List Fd :=
  run 7 0x00 1 0 1 .st 0 [] ++ run 7 0x00 1 1 1 .st 1 [] ++ run 7 0x00 1 4 3 .st 3 [] ++
  run 16 0x10 1 0 8 .st 80 [(14,240)] ++ run 16 0x20 1 0 3 .st 1 [] ++ run 16 0x20 1 3 3 .st 1 [] ++
  run 16 0x20 1 6 1 .st 0 [] ++ run 16 0x30 1 0 3 .st 0 [(0,6)] ++ run 16 0x30 1 3 1 .st 0 [] ++
  [⟨0x67,1,0,1,.sc,0,[]⟩]

/-- Page 0x20 (R166). -/
def fields20 : List Fd :=
  run 64 0x00 1 0 8 .st 0 [] ++ run 32 0x40 1 0 1 .st 0 [] ++ run 32 0x40 1 1 1 .st 0 [] ++
  run 32 0x40 1 2 1 .st 1 [] ++ run 32 0x40 1 4 4 .st 0 []

/-- Page 0x21 (R167). -/
def fields21 : List Fd :=
  run 64 0x00 1 0 5 .st 0 [] ++ run 64 0x00 1 7 1 .st 0 [] ++ run 32 0x40 1 0 8 .st 20 [(1,255)]

/-- Page 0x22 (R168); the reset values of SAFEPOL, SAFEHOLD and RSTMAP vary and stand in `resetByte`. -/
def fields22 : List Fd :=
  [⟨0x00,1,0,3,.st,3,[(0,6)]⟩, ⟨0x00,1,3,3,.st,3,[(0,6)]⟩, ⟨0x01,1,0,3,.st,3,[(0,6)]⟩, ⟨0x01,1,3,3,.st,3,[(0,6)]⟩,
   ⟨0x02,1,0,3,.st,2,[(0,6)]⟩, ⟨0x02,1,3,3,.st,3,[(0,6)]⟩, ⟨0x03,1,0,3,.st,3,[(2,6)]⟩, ⟨0x04,1,0,3,.st,3,[]⟩,
   ⟨0x05,1,0,8,.st,10,[(1,255)]⟩, ⟨0x06,1,0,2,.st,3,[]⟩, ⟨0x07,1,0,8,.st,0,[]⟩, ⟨0x10,1,0,2,.st,1,[]⟩,
   ⟨0x10,1,2,1,.st,0,[]⟩, ⟨0x11,1,0,8,.st,50,[(1,255)]⟩, ⟨0x12,1,0,8,.st,10,[(1,255)]⟩] ++
  run 5 0x13 1 0 8 .st 20 [(1,255)] ++ run 5 0x20 4 0 32 .st 0 [] ++ [⟨0x60,1,0,5,.rw,0,[]⟩]

/-- Page 0x24 (R231), blank-fuse reset values. -/
def fields24 : List Fd :=
  [⟨0x00,1,0,1,.lk,0,[]⟩, ⟨0x00,1,1,1,.lk,0,[]⟩, ⟨0x01,1,0,8,.lk,20,[(1,255)]⟩, ⟨0x03,1,0,1,.lk,0,[]⟩,
   ⟨0x04,1,0,8,.lk,50,[(1,255)]⟩, ⟨0x05,1,0,8,.lk,10,[]⟩, ⟨0x06,1,0,8,.lk,20,[(1,255)]⟩]

/-- Page 0x32 (R234). -/
def fields32 : List Fd :=
  [⟨0x00,1,0,8,.rw,0,[(0,27)]⟩, ⟨0x10,2,0,16,.lk,900,[(100,1000)]⟩, ⟨0x12,2,0,16,.lk,4000,[]⟩,
   ⟨0x14,2,0,16,.lk,2000,[]⟩, ⟨0x16,2,0,16,.lk,60,[]⟩, ⟨0x18,2,0,16,.lk,20000,[]⟩, ⟨0x1A,1,0,8,.lk,105,[(60,150)]⟩]

/-- Page 0x38 (R258). -/
def fields38 : List Fd :=
  [⟨0x00,1,0,8,.rw,16,[(1,80)]⟩, ⟨0x01,1,0,8,.rw,10,[(1,100)]⟩, ⟨0x02,1,0,8,.rw,10,[(1,100)]⟩,
   ⟨0x10,1,0,5,.rw,0,[]⟩, ⟨0x11,1,0,7,.rw,0,[]⟩] ++ run 8 0x12 1 0 8 .rw 0 [] ++
  [⟨0x1A,1,0,1,.sc,0,[]⟩, ⟨0x20,1,0,7,.rw,0,[(0,103)]⟩, ⟨0x20,1,7,1,.rw,0,[]⟩, ⟨0x21,1,0,1,.sc,0,[]⟩,
   ⟨0x21,1,1,3,.rw,0,[]⟩]

/-- Page 0x3B (R261). -/
def fields3B : List Fd :=
  [⟨0x00,1,0,6,.rw,0,[]⟩, ⟨0x01,1,0,7,.rw,0,[(0,103)]⟩, ⟨0x01,1,7,1,.rw,0,[]⟩, ⟨0x02,2,0,16,.rw,0xFFFF,[]⟩,
   ⟨0x04,2,0,16,.rw,0,[]⟩, ⟨0x06,1,0,8,.rw,0,[]⟩, ⟨0x07,1,0,3,.rw,0,[]⟩]

/-- Page 0x3C (R262). -/
def fields3C : List Fd :=
  [⟨0x00,1,0,8,.st,140,[(60,160)]⟩, ⟨0x01,1,0,8,.st,150,[(60,160)]⟩, ⟨0x02,1,0,8,.st,145,[(100,160)]⟩,
   ⟨0x03,1,0,4,.st,4,[(1,15)]⟩, ⟨0x04,1,0,8,.st,0,[(0,0),(100,160)]⟩, ⟨0x05,1,0,4,.st,4,[(1,15)]⟩,
   ⟨0x06,1,0,5,.st,5,[(2,20)]⟩, ⟨0x07,1,0,8,.st,20,[(1,255)]⟩, ⟨0x08,1,0,4,.st,2,[(1,10)]⟩,
   ⟨0x09,1,0,8,.st,20,[(5,50)]⟩, ⟨0x10,4,0,25,.st,0,[]⟩] ++
  run 6 0x18 1 0 2 .st 0 [(0,2)] ++ run 6 0x18 1 2 1 .st 0 [] ++ run 6 0x18 1 3 1 .st 0 [] ++
  run 6 0x18 1 4 3 .st 7 [(0,5),(7,7)] ++ run 6 0x20 1 0 8 .st 110 [(60,160)] ++
  run 6 0x28 1 0 8 .st 125 [(60,160)] ++ [⟨0x74,1,0,5,.rw,0,[]⟩, ⟨0x7C,1,0,1,.sc,0,[]⟩]

/-- Page 0x40 (R281), blank-fuse reset values. -/
def fields40 : List Fd :=
  [⟨0x00,1,0,1,.st,1,[]⟩, ⟨0x00,1,1,1,.st,0,[]⟩, ⟨0x00,1,2,1,.st,1,[]⟩, ⟨0x00,1,3,1,.st,1,[]⟩,
   ⟨0x00,1,4,1,.st,1,[]⟩, ⟨0x01,1,0,8,.st,30,[(1,100)]⟩, ⟨0x02,1,0,8,.st,20,[(1,255)]⟩,
   ⟨0x03,2,0,16,.st,1000,[(50,970),(1000,1000)]⟩, ⟨0x68,1,0,1,.rw,0,[]⟩, ⟨0x68,1,1,1,.rw,0,[]⟩,
   ⟨0x69,1,0,1,.sc,0,[]⟩]

/-- Page 0x44 (R312), blank-fuse reset values. VCV's codes above 25 are legal for Li-ion alone (PAGERULE). -/
def fields44 : List Fd :=
  [⟨0x00,1,0,1,.st,1,[]⟩, ⟨0x00,1,1,2,.st,1,[(0,2)]⟩, ⟨0x00,1,3,1,.st,1,[]⟩, ⟨0x01,1,0,8,.st,20,[(1,40)]⟩,
   ⟨0x02,1,0,8,.st,20,[(0,40)]⟩, ⟨0x03,1,0,2,.st,1,[]⟩, ⟨0x03,1,2,2,.st,1,[]⟩, ⟨0x03,1,4,1,.st,1,[]⟩,
   ⟨0x04,1,0,2,.st,1,[]⟩, ⟨0x04,1,2,3,.st,2,[]⟩, ⟨0x05,1,0,8,.st,10,[(0,18)]⟩,
   ⟨0x06,1,0,8,.st,0,[(0,85),(216,255)]⟩, ⟨0x07,1,0,8,.st,10,[(0,85),(216,255)]⟩,
   ⟨0x08,1,0,8,.st,45,[(0,85),(216,255)]⟩, ⟨0x09,1,0,8,.st,60,[(0,85),(216,255)]⟩, ⟨0x0A,1,0,2,.st,1,[]⟩,
   ⟨0x0A,1,2,2,.st,2,[]⟩, ⟨0x0B,1,0,8,.st,10,[(1,200)]⟩, ⟨0x0C,2,0,16,.st,3435,[(2000,5000)]⟩,
   ⟨0x0E,1,0,3,.st,0,[(0,4)]⟩, ⟨0x0F,1,0,8,.st,20,[(10,40)]⟩, ⟨0x62,1,0,2,.sc,0,[]⟩, ⟨0x63,1,0,1,.rw,0,[]⟩]

/-- Page 0x45 (R313), blank-fuse reset values. -/
def fields45 : List Fd :=
  [⟨0x00,2,0,16,.rw,2000,[(50,10000)]⟩, ⟨0x02,1,0,8,.rw,80,[(10,255)]⟩, ⟨0x03,1,0,1,.rw,1,[]⟩,
   ⟨0x04,1,0,8,.rw,10,[(1,100)]⟩, ⟨0x05,1,0,8,.rw,30,[(1,255)]⟩, ⟨0x06,2,0,16,.rw,35,[]⟩,
   ⟨0x08,1,0,8,.rw,4,[(1,40)]⟩, ⟨0x24,1,0,1,.sc,0,[]⟩]

/-- Page 0x48 (R336). BCD validity of the holding values is checked by SET alone (R318). -/
def fields48 : List Fd :=
  [⟨0x11,1,0,7,.rw,0,[]⟩, ⟨0x12,1,0,7,.rw,0,[]⟩, ⟨0x13,1,0,6,.rw,0,[]⟩, ⟨0x14,1,0,3,.rw,0,[]⟩,
   ⟨0x15,1,0,6,.rw,0,[]⟩, ⟨0x16,1,0,5,.rw,0,[]⟩, ⟨0x17,1,0,8,.rw,0,[]⟩, ⟨0x18,1,0,8,.rw,0,[]⟩,
   ⟨0x19,1,0,1,.sc,0,[]⟩, ⟨0x1B,1,0,8,.rw,0,[(0,127),(129,255)]⟩, ⟨0x1C,1,0,2,.rw,1,[(0,2)]⟩] ++
  run 2 0x20 1 0 7 .rw 0 [] ++ run 2 0x22 1 0 6 .rw 0 [] ++ run 4 0x20 1 7 1 .rw 1 [] ++
  [⟨0x24,1,0,1,.rw,0,[]⟩, ⟨0x28,1,0,2,.rw,1,[]⟩, ⟨0x28,1,2,1,.rw,0,[]⟩, ⟨0x29,1,0,8,.rw,0,[]⟩]

/-- Page 0x4C (R368), blank-fuse reset values. -/
def fields4C : List Fd :=
  [⟨0x00,1,0,1,.rw,0,[]⟩, ⟨0x00,1,1,1,.rw,1,[]⟩, ⟨0x00,1,2,2,.rw,1,[]⟩, ⟨0x01,1,0,1,.rw,0,[]⟩,
   ⟨0x01,1,1,3,.rw,0,[(0,3)]⟩, ⟨0x02,1,0,7,.rw,8,[]⟩, ⟨0x05,1,0,8,.lk,30,[(1,255)]⟩, ⟨0x09,1,0,2,.sc,0,[]⟩]

/-- Page 0x4D (R369). -/
def fields4D : List Fd :=
  [⟨0x00,1,0,1,.rw,0,[]⟩, ⟨0x00,1,1,2,.rw,1,[(0,2)]⟩, ⟨0x00,1,3,1,.rw,0,[]⟩, ⟨0x01,1,0,6,.rw,25,[(1,35)]⟩,
   ⟨0x02,1,0,5,.rw,17,[(17,20)]⟩, ⟨0x02,1,7,1,.rw,0,[]⟩, ⟨0x03,1,0,8,.rw,10,[(1,255)]⟩, ⟨0x04,1,0,8,.rw,0,[]⟩,
   ⟨0x06,1,0,1,.sc,0,[]⟩] ++ run 12 0x10 1 0 7 .rw 0 [] ++ run 12 0x10 1 7 1 .rw 0 [] ++ run 12 0x20 1 0 8 .rw 0 []

/-- Page 0x56 (R388); OVRCLR, WLCLR and TESTTRIG command bytes; WAKEEN bits 0 to 6 cannot be written (R385). -/
def fields56 : List Fd :=
  [⟨0x00,1,0,5,.rw,1,[]⟩, ⟨0x02,1,0,3,.rw,7,[(0,3),(7,7)]⟩] ++ run 4 0x04 1 0 1 .rw 1 [] ++
  run 4 0x04 1 1 1 .rw 0 [] ++ run 8 0x18 1 0 8 .sc 0 [] ++ run 8 0x28 1 0 8 .sc 0 [] ++
  [⟨0x30,1,7,1,.rw,0,[]⟩] ++ run 7 0x31 1 0 8 .rw 0 [] ++ run 2 0x38 1 0 8 .sc 0 []

/-- Page 0x58 (R416). -/
def fields58 : List Fd :=
  [⟨0x04,1,0,1,.sc,0,[]⟩, ⟨0x0C,1,0,8,.rw,10,[(1,255)]⟩, ⟨0x20,8,0,64,.rw,0x7FFF7FFFFFFFFFFF,[]⟩,
   ⟨0x30,2,0,9,.rw,0,[]⟩]

/-- Page 0x60 (R337), blank-fuse reset values. -/
def fields60 : List Fd :=
  [⟨0x00,1,0,1,.rw,1,[]⟩, ⟨0x00,1,1,1,.rw,0,[]⟩, ⟨0x00,1,2,1,.rw,1,[]⟩, ⟨0x00,1,3,1,.rw,1,[]⟩,
   ⟨0x00,1,4,1,.rw,1,[]⟩, ⟨0x01,1,0,8,.rw,0,[]⟩, ⟨0x02,1,0,1,.sc,0,[]⟩]

/-- The writable fields of a page. Pages 0x50 to 0x55 hold PEND, MASK and routes, which have homes of their own. -/
def fieldsOf (p : Nat) : List Fd :=
  if p = 0x00 then [⟨0x01,1,0,2,.sc,0,[]⟩, ⟨0x06,1,0,8,.sc,0,[]⟩]
  else if p = 0x01 then fields01 else if p = 0x02 then fields02
  else if 0x10 ≤ p ∧ p ≤ 0x13 then fields10
  else if p = 0x14 then fields14 else if p = 0x20 then fields20 else if p = 0x21 then fields21
  else if p = 0x22 then fields22
  else if p = 0x23 then [⟨0x00,1,0,5,.rw,0,[]⟩, ⟨0x01,1,0,2,.sc,0,[]⟩]
  else if p = 0x24 then fields24
  else if p = 0x30 then [⟨0x05,1,0,2,.rw,0,[]⟩]
  else if p = 0x32 then fields32 else if p = 0x38 then fields38
  else if p = 0x3A then [⟨0x80,1,0,5,.rw,0,[]⟩]
  else if p = 0x3B then fields3B else if p = 0x3C then fields3C else if p = 0x40 then fields40
  else if p = 0x44 then fields44 else if p = 0x45 then fields45 else if p = 0x48 then fields48
  else if p = 0x4C then fields4C else if p = 0x4D then fields4D else if p = 0x56 then fields56
  else if p = 0x58 then fields58
  else if p = 0x59 then [⟨0x0D,1,0,1,.sc,0,[]⟩]
  else if p = 0x5C then [⟨0x00,1,0,4,.rw,0,[]⟩]
  else if p = 0x60 then fields60 else []

/-- The pages that R28 allocates. -/
def allocated (p : Nat) : Bool :=
  [0x00, 0x01, 0x02, 0x10, 0x11, 0x12, 0x13, 0x14, 0x20, 0x21, 0x22, 0x23, 0x24, 0x28, 0x30, 0x31, 0x32, 0x38, 0x39,
   0x3A, 0x3B, 0x3C, 0x40, 0x44, 0x45, 0x48, 0x4C, 0x4D, 0x50, 0x51, 0x52, 0x53, 0x54, 0x55, 0x56, 0x58, 0x59, 0x5C,
   0x60].contains p

/-- The staged pages in the order of their scope bits (R8, R175). -/
def stagedPages : List Nat := [0x02, 0x10, 0x11, 0x12, 0x13, 0x14, 0x20, 0x21, 0x22, 0x3C, 0x40, 0x44]

/-- The scope bit of a staged page (R175). -/
def scopeBit (p : Nat) : Option Nat := stagedPages.findIdx? (· = p)

/-! Keys of register bytes. -/

/-- Key of a byte of a page that is not an indexed block. -/
def key (p o : Nat) : Nat := p * 256 + o
/-- Key of a byte of block `i` of an indexed page: rail blocks of page 0x22, sequences of 0x38, channels of 0x3B. -/
def ikey (i p o : Nat) : Nat := 65536 * (i + 1) + p * 256 + o
/-- The page of a key. -/
def keyPage (k : Nat) : Nat := k % 65536 / 256
/-- The offset of a key. -/
def keyOff (k : Nat) : Nat := k % 256
/-- The block of an indexed key. -/
def keyIdx (k : Nat) : Nat := k / 65536 - 1

/-- What a field contributes to the byte at offset `o`. -/
def Fd.byteAt (f : Fd) (o v : Nat) : Nat :=
  if f.off ≤ o ∧ o < f.off + f.len then (v * 2 ^ f.lo) / 256 ^ (o - f.off) % 256 else 0

/-- RSTMAP's reset: RSTMAPc names the six rails of channel c, RSTMAPSYS none (R168). -/
def rstmapReset (x : Nat) : Nat :=
  if x < 4 then 2 ^ (1 + x) + 2 ^ (5 + x) + 2 ^ (9 + x) + 2 ^ (13 + x) + 2 ^ (17 + x) + 2 ^ (21 + x) else 0

/-- The reset value of a register byte, by its page's table (fuse-derived fields at their blank values). -/
def resetByte (k : Nat) : Byte :=
  let p := keyPage k
  let o := keyOff k
  let r := keyIdx k
  if p = 0x22 ∧ o = 0x06 then (if r = 0 ∨ (21 ≤ r ∧ r ≤ 24) then 2 else 3)
  else if p = 0x22 ∧ o = 0x07 then (if r = 0 then 60 else if 21 ≤ r ∧ r ≤ 24 then 50 else 0)
  else if p = 0x22 ∧ 0x20 ≤ o ∧ o < 0x34 then
    BitVec.ofNat 8 (rstmapReset ((o - 0x20) / 4) / 256 ^ ((o - 0x20) % 4))
  else if p = 0x20 then (if 0x40 ≤ o ∧ o < 0x60 then 4 else 0)
  else if p = 0x21 then (if 0x40 ≤ o ∧ o < 0x60 then 20 else 0)
  else BitVec.ofNat 8 ((fieldsOf p).foldl (fun a f => a + f.byteAt o f.rst) 0)

/-- Read a register byte: its reset value where nothing else is held. -/
def rget (m : RegMap) (k : Nat) : Byte := mget (resetByte k) m k
/-- Write a register byte, keeping the canonical form. -/
def rput (m : RegMap) (k : Nat) (v : Byte) : RegMap := mput (resetByte k) m k v

/-- The number held at `n` consecutive keys, read by `g`. -/
def rdNat (g : Nat → Byte) (k n : Nat) : Nat := leNat ((List.range n).map (fun i => g (k + i)))
/-- Bits lo .. lo + w − 1 of the byte at key `k`. -/
def rdBits (g : Nat → Byte) (k lo w : Nat) : Nat := (g k).toNat / 2 ^ lo % 2 ^ w

/-- The live copies. -/
def lv (s : State) : Nat → Byte := rget s.regs.live
/-- The staging copies. -/
def sg (s : State) : Nat → Byte := rget s.regs.stg
/-- The plain registers. -/
def pl (s : State) : Nat → Byte := rget s.regs.plain

/-- Write plain register bytes from key `k` on. -/
def putPlain (k : Nat) (bs : List Byte) (s : State) : State :=
  { s with regs := { s.regs with
      plain := (bs.zipIdx).foldl (fun m (b, i) => rput m (k + i) b) s.regs.plain } }

/-- Write live register bytes from key `k` on (the apply step, Floor mode). -/
def putLive (k : Nat) (bs : List Byte) (s : State) : State :=
  { s with regs := { s.regs with
      live := (bs.zipIdx).foldl (fun m (b, i) => rput m (k + i) b) s.regs.live } }

/-- Write staging register bytes from key `k` on. -/
def putStg (k : Nat) (bs : List Byte) (s : State) : State :=
  { s with regs := { s.regs with
      stg := (bs.zipIdx).foldl (fun m (b, i) => rput m (k + i) b) s.regs.stg } }

/-! Rails (R11, R12). -/

/-- Rail types. -/
inductive RK where
  | pre | mph | bka | bkb | ldo | lsw | gb | ext
deriving DecidableEq, Repr

/-- The type of a rail identifier (R11). -/
def rk (r : Nat) : RK :=
  if r = 0 then .pre else if r < 5 then .mph else if r < 9 then .bka else if r < 13 then .bkb
  else if r < 17 then .ldo else if r < 21 then .lsw else if r < 25 then .gb else .ext

/-- The channel, or index, of a rail (R11, R12). -/
def ci (r : Nat) : Nat :=
  if r = 0 then 0 else if r < 25 then (r - 1) % 4 else r - 25

/-- The rail belongs to channel c (R11). -/
def inChan (r c : Nat) : Bool := decide (1 ≤ r ∧ r ≤ 24 ∧ (r - 1) % 4 = c)

/-- First key of the rail's block on its page (R12). -/
def blk (r : Nat) : Nat :=
  match rk r with
  | .pre => key 0x02 0x10
  | .mph => key (0x10 + ci r) 0x00
  | .bka => key (0x10 + ci r) 0x18
  | .bkb => key (0x10 + ci r) 0x28
  | .ldo => key (0x10 + ci r) 0x38
  | .lsw => key (0x10 + ci r) 0x48
  | .gb => key (0x10 + ci r) 0x50
  | .ext => key 0x14 (ci r)

/-- The set voltage in 0.1 mV, of rails that have one (R80, R106, R133, R134). -/
def vset (g : Nat → Byte) (r : Nat) : Nat :=
  let n := (g (blk r)).toNat
  match rk r with
  | .pre => 50000 + 500 * n
  | .mph => 5000 + 50 * n
  | .bka => 6000 + 125 * n
  | .bkb => 6000 + 125 * n
  | .ldo => 8000 + 100 * n
  | _ => 0

/-! Sequencer settings (R166 to R168). -/

/-- ONDLYn. -/
def onDly (g : Nat → Byte) (r : Nat) : Nat := (g (key 0x20 r)).toNat
/-- OFFDLYn. -/
def offDly (g : Nat → Byte) (r : Nat) : Nat := (g (key 0x20 (0x20 + r))).toNat
/-- ATTRn.INSEQ. -/
def inseq (g : Nat → Byte) (r : Nat) : Bool := (g (key 0x20 (0x40 + r))).getLsbD 0
/-- ATTRn.PROT. -/
def prot (g : Nat → Byte) (r : Nat) : Bool := (g (key 0x20 (0x40 + r))).getLsbD 1
/-- ATTRn.QUENCH. -/
def quenchAttr (g : Nat → Byte) (r : Nat) : Bool := (g (key 0x20 (0x40 + r))).getLsbD 2
/-- ATTRn.GRP. -/
def grp (g : Nat → Byte) (r : Nat) : Nat := rdBits g (key 0x20 (0x40 + r)) 4 4

/-- The parents of a rail, as a mask (R145). -/
def parents (g : Nat → Byte) (r : Nat) : Mask :=
  let a := g (key 0x21 r)
  let b := g (key 0x21 (0x20 + r))
  (if a.msb then bit (a.toNat % 32) else 0) ||| (if b.msb then bit (b.toNat % 32) else 0)

/-- Close a set of rails under `f`, in at most n rounds. -/
def closeMask (f : Nat → Mask) : Nat → Mask → Mask
  | 0, m => m
  | n + 1, m =>
    let m' := (rails m).foldl (fun a r => a ||| f r) m
    if m' = m then m else closeMask f n m'

/-- The ancestors of a rail: its chain of parents (R145). -/
def ancestors (g : Nat → Byte) (r : Nat) : Mask := closeMask (parents g) 32 (parents g r)

/-- The dependants of a rail: the rails whose chain of parents reaches it (R145). -/
def dependants (g : Nat → Byte) (r : Nat) : Mask := maskOf (fun d => has (ancestors g d) r)

/-- STTMOn in half microseconds (R142, R167). -/
def sttmo (g : Nat → Byte) (r : Nat) : Nat := ms (g (key 0x21 (0x40 + r))).toNat
/-- Key of the rail's reaction block. -/
def rx (r o : Nat) : Nat := ikey r 0x22 o
/-- RXSPACE. -/
def rxSpace (g : Nat → Byte) (r : Nat) : Nat := ms (g (rx r 5)).toNat
/-- RXRETRY.COUNT. -/
def rxCount (g : Nat → Byte) (r : Nat) : Nat := rdBits g (rx r 4) 0 3
/-- RXESC. -/
def rxEsc (g : Nat → Byte) (r : Nat) : Nat := rdBits g (rx r 3) 0 3
/-- SAFEPOL: 0 KEEP, 1 OFFQ, 2 HOLD, 3 ORDER. -/
def safePol (g : Nat → Byte) (r : Nat) : Nat := rdBits g (rx r 6) 0 2
/-- SAFEHOLD. -/
def safeHold (g : Nat → Byte) (r : Nat) : Nat := ms (10 * (g (rx r 7)).toNat)
/-- The reaction code of a fault kind: 0 UV, 1 OV, 2 short-circuit, 3 overload, 4 failed start, 5 thermal (R152). -/
def rxCode (g : Nat → Byte) (r kind : Nat) : Nat := rdBits g (rx r (kind / 2)) (3 * (kind % 2)) 3
/-- SEQCFG.TICK code. -/
def tickCode (g : Nat → Byte) : Nat := rdBits g (key 0x22 0x10) 0 2
/-- A tick in half microseconds (R140). -/
def tickLen (code : Nat) : Nat :=
  if code = 0 then us 100 else if code = 1 then us 500 else if code = 2 then ms 2 else ms 10
/-- SEQCFG.INPOL: RESUME. -/
def inpol (g : Nat → Byte) : Bool := (g (key 0x22 0x10)).getLsbD 2
/-- MINOFF. -/
def minoff (g : Nat → Byte) : Nat := ms (g (key 0x22 0x11)).toNat
/-- STOPTMO. -/
def stoptmoLen (g : Nat → Byte) : Nat := ms (10 * (g (key 0x22 0x12)).toNat)
/-- RSTSTRx. -/
def rststr (g : Nat → Byte) (x : Nat) : Nat := ms (g (key 0x22 (0x13 + x))).toNat
/-- RSTMAPx. -/
def rstmap (g : Nat → Byte) (x : Nat) : Mask := BitVec.ofNat 32 (rdNat g (key 0x22 (0x20 + 4 * x)) 4)

/-! MON inputs and EXT rails (R164, R170). -/

/-- The enabled MON inputs assigned to EXT rail n. -/
def monsOf (g : Nat → Byte) (n : Nat) : List Nat :=
  (List.range 16).filter (fun m => (g (key 0x14 (0x30 + m))).getLsbD 3 && decide (rdBits g (key 0x14 (0x30 + m)) 0 3 = n))

/-- EXTPGDLY of EXT rail n. -/
def extPgDly (g : Nat → Byte) (n : Nat) : Nat := ms (2 ^ rdBits g (key 0x14 n) 4 3)

/-! Soft-start and slew (R72, R86, R111, R121, R125, R127). -/

/-- Half microseconds that MPHSLEW or BKSLEW code takes for d × 0.1 mV: 0.5 mV/µs × 2^code (R106). -/
def slewTime (code d : Nat) : Nat := 2 * d / (5 * 2 ^ code)

/-- Soft-start time from 0 to the set voltage. -/
def ssTime (g : Nat → Byte) (r : Nat) : Nat :=
  let n := (g (blk r + (match rk r with | .pre => 10 | .mph => 6 | .bka => 3 | .bkb => 3 | .ldo => 3 | _ => 4))).toNat
  match rk r with
  | .pre => ms n
  | .gb => us (100 * n)
  | .lsw => 0
  | .ext => 0
  | _ => us (100 * n)

/-- GBCFG.SNSEN of channel c. -/
def snsen (g : Nat → Byte) (c : Nat) : Bool := (g (key (0x10 + c) 0x52)).getLsbD 2

/-- NPH of PRE (0) or MPHc (1 + c). -/
def nph (g : Nat → Byte) (r : Nat) : Nat := rdBits g (blk r + 2) 0 2
/-- SPAREPOP of PRE (0) or MPHc (1 + c). -/
def sparepop (g : Nat → Byte) (r : Nat) : Bool := (g (blk r + 2)).getLsbD 2
/-- SHEDEN of PRE (0) or MPHc (1 + c). -/
def sheden (g : Nat → Byte) (r : Nat) : Bool := (g (blk r + 2)).getLsbD 3

/-! Sub-structures by index. -/

/-- The phases of PRE (0) or MPHc (1 + c). -/
def phOf (s : State) (r : Nat) : PhaseSt := mget {} s.bk.ph r
/-- The pass devices of LDOc. -/
def ldoOf (s : State) (c : Nat) : LdoSt := mget {} s.bk.ldo c
/-- Write the phases of PRE or MPHc. -/
def setPh (r : Nat) (p : PhaseSt) (s : State) : State := { s with bk := { s.bk with ph := mput {} s.bk.ph r p } }
/-- What outlives the rails of the pass devices: all but their dropout. -/
def ldoRoles (s : State) : Map LdoSt := (List.range 4).foldl (fun m c => mput {} m c { ldoOf s c with drop := false }) []
/-- Write the pass devices of LDOc. -/
def setLdo (c : Nat) (l : LdoSt) (s : State) : State := { s with bk := { s.bk with ldo := mput {} s.bk.ldo c l } }
/-- One input path. -/
def pathOf (s : State) : Path → PathSt
  | .a => s.inp.a
  | .b => s.inp.b
/-- Write one input path. -/
def setPath (x : Path) (p : PathSt) (s : State) : State :=
  match x with
  | .a => { s with inp := { s.inp with a := p } }
  | .b => { s with inp := { s.inp with b := p } }
/-- The other path. -/
def other : Path → Path
  | .a => .b
  | .b => .a
/-- 0 for path A, 1 for path B: the offset of its registers and of its event bits. -/
def px : Path → Nat
  | .a => 0
  | .b => 1

end Sys2Proof.Machine
end

