-- ==== Sys2Proof/Machine/Flags.lean ====
section
/-! DEFINITION. Bits and bytes that the device computes from the state: phases switching, MODE fields, DEPHOLD,
status bytes, LEVEL words (R377), the masks of the interrupt summary. -/

namespace Sys2Proof.Machine

/-- The number of a state (R10, R27). -/
def stNum : St → Nat
  | .ship => 0
  | .sleep => 1
  | .standby => 2
  | .start => 3
  | .run => 4
  | .stop => 5
  | .safe => 6

/-- The STATE byte at 0x00:0x00 (R27). -/
def stateByte (s : State) : Byte :=
  BitVec.ofNat 8 (stNum s.glob.st + 8 * s.glob.floor.toNat + 16 * s.glob.fwup.toNat + 32 * s.glob.logsrc.toNat)

/-- The Anvil island has supply, clock and VAON, and is out of SLEEP and SHIP (R19, R21, R22). -/
def anvilOn (s : State) : Bool :=
  s.glob.supplied && s.glob.vaonOk && s.glob.clocked && s.otp.sensed && decide (s.glob.st ≠ .sleep) &&
    decide (s.glob.st ≠ .ship)

/-- The always-on domain serves (R19, R22). -/
def vaonOn (s : State) : Bool :=
  s.glob.supplied && s.glob.vaonOk && s.glob.clocked && s.otp.sensed && decide (s.glob.st ≠ .ship)

/-- The firmware island runs (R17, R24). -/
def fwOn (s : State) : Bool := anvilOn s && s.glob.fwup && !s.glob.floor && !s.glob.restarting

/-- The cores run, if only in the boot ROM: the firmware is up, restarts or boots (R214, R215). -/
def coresRun (s : State) : Bool := anvilOn s && !s.glob.floor && (s.glob.fwup || s.glob.restarting || s.glob.boot)

/-- The firmware island runs and is not clock-gated (R19, R328). -/
def fwRuns (s : State) : Bool := fwOn s && decide (s.glob.st ≠ .standby)

/-- The DEPHOLD mask: rails with an ancestor in OFFHOLD (R146). -/
def dephold (s : State) : Mask := maskOf (fun r => decide (ancestors (lv s) r &&& s.seq.offhold ≠ 0))

/-! The angle (R37, R42). -/

/-- Units of the angle accumulator in one cycle: at r/4096 Hz each half microsecond adds r. -/
def cycleUnits : Nat := 8192000000
/-- FINE, 4,096 counts per cycle. -/
def fineOf (phase : Nat) : Nat := phase * 4096 / cycleUnits
/-- ANGLE, 256 units per cycle. -/
def angleOf (phase : Nat) : Nat := phase * 256 / cycleUnits
/-- The present angle. -/
def angleNow (s : State) : Nat := angleOf s.cyc.phase
/-- PLLSTAT.STATE (R60). -/
def pllNum : Pll → Nat
  | .free => 0
  | .acq => 1
  | .lock => 2
  | .hold => 3
/-- The active schedule bank. -/
def actBank (s : State) : Map (BitVec 32) := if s.cyc.actB then s.cyc.bankB else s.cyc.bankA
/-- The edit bank. -/
def editBank (s : State) : Map (BitVec 32) := if s.cyc.actB then s.cyc.bankA else s.cyc.bankB
/-- Byte i of a schedule entry (R43). -/
def entByte (e : BitVec 32) (i : Nat) : Nat := e.toNat / 256 ^ i % 256
/-- ACTION code of an entry. -/
def entAction (e : BitVec 32) : Nat := entByte e 2 % 16
/-- The active schedule holds an entry of action a. -/
def hasAction (s : State) (a : Nat) : Bool := (actBank s).any (fun (_, e) => decide (entAction e = a))

/-- Half microseconds until the angle accumulator, at `phase` and `rate`, reaches `target` units. -/
def untilPhase (phase rate target : Nat) : Option Nat :=
  if target ≤ phase ∨ rate = 0 then none else some ((target - phase + rate - 1) / rate)

/-- First unit of an angle. -/
def angleStart (a : Nat) : Nat := a * (cycleUnits / 256)

/-! Quiet windows and dither as they act now (R53, R56 to R58). -/

/-- The action opens a quiet window. -/
def isQuiet : Instr → Bool
  | .quiet _ => true
  | _ => false

/-- The bank whose entries of angle 0 the coming angle 0 places: the edit bank where a validated swap waits for it (R50). -/
def comingBank (s : State) : Map (BitVec 32) := if s.cyc.swapOk then editBank s else actBank s

/-- Half microseconds until the action time of an entry whose angle begins at `at_` units, where it is a QUIET entry still to come. -/
def quietIn (s : State) (at_ : Nat) (e : BitVec 32) : Option Nat :=
  if entAction e = 2 then (untilPhase s.cyc.phase s.cyc.rate at_).map (· + entByte e 1) else none

/-- Half microseconds until the next QUIET actions: those whose fine delay runs, those whose angle lies ahead in this cycle, and
those of the coming angle 0. -/
def quietAhead (s : State) : List Nat :=
  (s.cyc.acts.filter (fun t => isQuiet t.ev)).map (fun t => t.due - s.clk.now) ++
  (actBank s).filterMap (fun (_, e) => if entByte e 0 = 0 then none else quietIn s (angleStart (entByte e 0)) e) ++
  (comingBank s).filterMap (fun (_, e) => if entByte e 0 = 0 then quietIn s cycleUnits e else none)

/-- QUIETCFG.QDIS. -/
def quietDis (s : State) : Bool := (pl s (key 1 5)).getLsbD 1

/-- The level of the QUIET pin (R53): its active level, by QUIETCFG.POL, while a window is open. -/
def quietPin (s : State) : Bool := s.qt.on != (pl s (key 1 5)).getLsbD 0

/-- Bit of a rail's class in QEXEMPT and DITHEN: PRE, MPH, integrated bucks, GB (R60). -/
def classBit (r : Nat) : Option Nat :=
  match rk r with
  | .pre => some 0
  | .mph => some 1
  | .bka => some 2
  | .bkb => some 2
  | .gb => some 3
  | _ => none

/-- The class obeys quiet windows: its QEXEMPT bit is 0. -/
def obeys (s : State) (b : Nat) : Bool := !(pl s (key 1 6)).getLsbD b

/-- The 1.0 µs before a window that will open: the last edge of what obeys it lies before (R53). A window that R55 skips has
no lead. -/
def quietLead (s : State) : Bool :=
  !quietDis s && (quietAhead s).any (fun d => decide (d < us 1) && decide (s.qt.until_ + us 1 ≤ s.clk.now + d))

/-- A class makes no switching edge now: a window that it obeys is open, or opens within the lead (R53). -/
def classGapped (s : State) (b : Nat) : Bool := (s.qt.on || quietLead s) && obeys s b

/-- Rail r makes no switching edge now because of a quiet window that it obeys (R53, R90, R119, R130). -/
def gapped (s : State) (r : Nat) : Bool := match classBit r with | some b => classGapped s b | none => false

/-- The deviation of the dither triangle in units of 0.01 % (R57): TRI triangles per cycle, the first from `dith0` on,
each from −DEPTH up to +DEPTH at its midpoint and back. -/
def ditherDev (s : State) : Int :=
  let d : Int := 100 * (rdBits (pl s) (key 1 7) 0 4 : Int)
  let len := cycleUnits / 2 ^ rdBits (pl s) (key 1 7) 4 2
  let x : Int := ((s.cyc.phase + cycleUnits - s.qt.dith0) % cycleUnits % len : Nat)
  if 2 * x ≤ len then 4 * d * x / len - d else 3 * d - 4 * d * x / len

/-- Set frequency and frequency range of a switching rail, in kHz (R80, R106, R133, R135). -/
def freqOf (g : Nat → Byte) (r : Nat) : Option (Nat × Nat × Nat) :=
  let n := fun k => (g k).toNat
  match rk r with
  | .pre => some (100 + 2 * n (blk r + 1), 100, 500)
  | .mph => some (300 + 10 * n (blk r + 1), 300, 1500)
  | .bka => some (400 + 100 * (n (blk r + 1) % 32), 400, 2200)
  | .bkb => some (400 + 100 * (n (blk r + 1) % 32), 400, 2200)
  | .gb => some (100 + 10 * n (blk r), 100, 1000)
  | _ => none

/-- A frequency of f Hz of class b as it is now: dithered where DITHEN names the class (R57). -/
def dithered (s : State) (b f : Nat) : Nat :=
  if (pl s (key 1 8)).getLsbD b then ((f : Int) * (10000 + ditherDev s) / 10000).toNat else f

/-- The switching frequency of the charger now, in Hz (R57, R284); it has no range to be clipped at. -/
def chargerHz (s : State) : Nat := dithered s 4 1000000
/-- The switching frequency of the pilot's charge pump now, in Hz (R57). -/
def pumpHz (s : State) : Nat := dithered s 5 Config.pumpHz
/-- The pilot's charge pump makes no switching edge now (R53). -/
def pumpGapped (s : State) : Bool := classGapped s 5

/-- The reference of a rail now, in 0.1 mV (R86). -/
def refNow (s : State) (r : Nat) : Nat :=
  let q := mget {} s.rl.ramps r
  if s.clk.now ≥ q.t1 ∨ q.t1 ≤ q.t0 then q.v1
  else if q.v0 ≤ q.v1 then q.v0 + (q.v1 - q.v0) * (s.clk.now - q.t0) / (q.t1 - q.t0)
  else q.v0 - (q.v0 - q.v1) * (s.clk.now - q.t0) / (q.t1 - q.t0)

/-- Measurement m is valid and, in mV, lies below n percent of a rail's reference. -/
def belowRef (s : State) (r n : Nat) : Bool :=
  s.hk.valid.getLsbD r && decide (1000 * (mget 0 s.hk.mval r).toNat < n * refNow s r)

/-- A buck's short-circuit fold-back: after its soft-start the output, as last measured, lies below 30 % of the reference
(R115, log entry 13). -/
def foldedBack (s : State) (r : Nat) : Bool :=
  (decide (rk r = .bka) || decide (rk r = .bkb)) && has s.rl.en r && !has s.rl.soft r && belowRef s r 30

/-- The switching frequency of a rail now, in Hz: its set frequency, dithered where DITHEN names its class, within its
range (R57, R58); a quarter of it in a buck's fold-back (R115). -/
def switchHz (s : State) (r : Nat) : Nat :=
  match freqOf (lv s) r, classBit r with
  | some (f, lo, hi), some b =>
    clampTo (1000 * lo) (1000 * hi) (dithered s b (1000 * f)) / (if foldedBack s r then 4 else 1)
  | _, _ => 0

/-- Half microseconds of n switching periods of a rail now, rounded up. -/
def periods (s : State) (r n : Nat) : Nat := (2000000 * n + switchHz s r - 1) / max 1 (switchHz s r)

/-- The full on-time of a half-period of GBc in ns: half a period less GBDT (R127, R136). -/
def gbFullOn (s : State) (c : Nat) : Nat :=
  500000 / (100 + 10 * (lv s (blk (21 + c))).toNat) - 20 * ((lv s (blk (21 + c) + 1)).toNat % 16 + 1)

/-- The on-time of GBc's half-periods by soft-start and mode, in ns (R127): during soft-start it rises from 0 to full over
GBSS; then full duty, or in the auxiliary-regulated mode what the loop has trimmed between 20 % and full. -/
def gbDuty (s : State) (c : Nat) : Nat :=
  let q := mget {} s.rl.ramps (21 + c)
  if has s.rl.soft (21 + c) then gbFullOn s c * (s.clk.now - q.t0) / max 1 (q.t1 - q.t0)
  else if (lv s (blk (21 + c) + 2)).toNat % 4 = 1 then
    gbFullOn s c * clampTo 20 100 (Config.gbTrim (mget 0 s.bk.snspk c).toNat (lv s (blk (21 + c) + 3)).toNat) / 100
  else gbFullOn s c

/-- The on-time of GBc's half-period under way, in ns (R127, R128, R130, R131): none while the driver is off, stopped, in its
OV hold or held off by a window that it obeys; half of it in the first half-period after such a window. -/
def gbOnTime (s : State) (c : Nat) : Nat :=
  let r := 21 + c
  if !has s.rl.en r || s.bk.vlow.getLsbD c || has s.rl.hold r || gapped s r then 0
  else if obeys s 3 && decide (0 < s.qt.until_ ∧ s.qt.until_ ≤ s.clk.now ∧ s.clk.now < s.qt.until_ + periods s r 1 / 2) then
    gbDuty s c / 2
  else gbDuty s c

/-- EXTENn's pin (R164): whether it is held high, low, or with OD left to its pull-up. -/
inductive ExtPin where
  | high | low | released
deriving DecidableEq, Repr

/-- The pin EXTENn as EXTCFGn.POL and OD have it (R164, R170); without logic supply its passive path holds it low (R456). -/
def extPin (s : State) (n : Nat) : ExtPin :=
  let g := lv s (key 0x14 n)
  if !s.glob.supplied then .low
  else if has s.rl.en (25 + n) = g.getLsbD 0 then .low else if g.getLsbD 1 then .released else .high

/-! Phases (R76, R77, R91, R92). -/

/-- Lowest set bit of three. -/
def low3 (m : BitVec 3) : BitVec 3 := if m.getLsbD 0 then 1 else if m.getLsbD 1 then 2 else m &&& 4

/-- Highest set bit of three. -/
def high3 (m : BitVec 3) : BitVec 3 := if m.getLsbD 2 then 4 else if m.getLsbD 1 then 2 else m &&& 1

/-- Set bits of three. -/
def count3 (m : BitVec 3) : Nat := (m.getLsbD 0).toNat + (m.getLsbD 1).toNat + (m.getLsbD 2).toNat

/-- Healthy phases outside the spare role. -/
def healthy (p : PhaseSt) : BitVec 3 := ~~~p.fail &&& ~~~p.spare

/-- The phases that carry the rail when it runs: one with NPH 1 or while shed, else every healthy phase outside the
spare role; during an overlap the incoming phase as well. The higher-numbered phase is the one shed: R91 says so of the
MPH rails; of PRE R77 does not, and there it is the model's choice (log entry 13). After a failure the one healthy phase left
switches at once, shed or not: R101 does not say (DESIGN CHOICE, log entry 13). -/
def activePhases (n : Nat) (shed ovl : Bool) (p : PhaseSt) : BitVec 3 :=
  let h := healthy p
  let a := if n = 1 then low3 h else if shed ∧ count3 h = 2 then h &&& ~~~(high3 h) else h
  if ovl then a ||| BitVec.twoPow 3 p.inc else a

/-- A pre-biased output that the reference has not exceeded since the soft-start began (R86, log entry 13); whatever moves the
reference, or shows that the output lies below it, ends the pre-bias for good. -/
def preBiased (s : State) (r : Nat) : Bool :=
  let p := (mget {} s.rl.ramps r).pre
  decide (0 < p ∧ refNow s r ≤ p)

/-- The output of rail r is not pre-biased any more. -/
def preOver (r : Nat) (s : State) : State :=
  { s with rl := { s.rl with ramps := mput {} s.rl.ramps r { mget {} s.rl.ramps r with pre := 0 } } }

/-- Rail r (PRE or MPH) is on: PRE's phases are off while it waits for a path and with a negative input node (R68, R71). -/
def phOn (s : State) (r : Nat) : Bool :=
  has s.rl.en r && !has s.rl.qu r && !(decide (r = 0) && (s.inp.gate || decide (s.inp.node < 0)))

/-- Regulation drives the phases of rail r: past the stage-enable delay and a pre-bias (R86). -/
def phRunning (s : State) (r : Nat) : Bool :=
  phOn s r && !preBiased s r &&
    !(decide (r ≠ 0) && s.clk.timers.any (fun t => match t.ev with | .stageEnableDelay c => decide (c.val + 1 = r) | _ => false))

/-- The phases that a strike drives: every healthy populated one, the spare with STRKSPARE (R92) and the incoming phase of an
overlap (R102, log entry 13). -/
def strikePhases (s : State) (r : Nat) : BitVec 3 :=
  let p := phOf s r
  healthy p ||| (if sparepop (lv s) r ∧ (lv s (blk r + 2)).getLsbD 5 then p.spare &&& ~~~p.fail &&& ~~~p.retired else 0) |||
    (if has s.rl.overlap r then BitVec.twoPow 3 p.inc else 0)

/-- PHACT: the phases switching now, by the ranks of R98: none while off, in an OV hold or in braking; in a strike those that it
drives; else the active phases, but none before regulation begins nor within a quiet window that the rail obeys (R53, R90). A phase
that a limit has ended for its period counts as switching. -/
def phact (s : State) (r : Nat) : BitVec 3 :=
  if !phOn s r then 0
  else if has s.rl.hold r then 0
  else if r ≠ 0 ∧ s.bk.brk.getLsbD (r - 1) then 0
  else if r ≠ 0 ∧ s.bk.strk.getLsbD (r - 1) then strikePhases s r
  else if !phRunning s r || gapped s r then 0
  else activePhases (nph (lv s) r) (has s.rl.shed r) (has s.rl.overlap r) (phOf s r)

/-- What a phase's PWM pin shows (R85, R98): `switching` under the current regulation, else a steady level. -/
inductive PwmPin where
  | switching | high | low | mid
deriving DecidableEq, Repr

/-- PWM of phase p of an MPH rail r, by the ranks of R98, and the switches of PRE's phase p with `mid` for all of them off: at
mid-level without logic supply (R456), while the rail is off, for a failed phase, for a spare that is not populated (R91) and for one
that does not switch; low in a quench and in an OV hold, where PRE has every switch off (R74, R132); high in a strike. -/
def pwmPin (s : State) (r p : Nat) : PwmPin :=
  let q := phOf s r
  if !s.glob.supplied || q.fail.getLsbD p || (q.spare.getLsbD p && !sparepop (lv s) r) then .mid
  else if has s.rl.qu r || (phOn s r && has s.rl.hold r) then (if r = 0 then .mid else .low)
  else if !(phact s r).getLsbD p then .mid
  else if r ≠ 0 ∧ s.bk.strk.getLsbD (r - 1) then .high else .switching

/-- The pin SENc (R83, R104): high while the rail is enabled and in its quench. -/
def senPin (s : State) (c : Nat) : Bool := s.glob.supplied && (has s.rl.en (1 + c) || has s.rl.qu (1 + c))

/-- Healthy populated phases for validation (R107). An unpopulated spare of PRE counts no more than one of an MPH rail, of which
R107 says so and R80 does not (DESIGN CHOICE, log entry 21). -/
def healthyPop (g : Nat → Byte) (r : Nat) (p : PhaseSt) : Nat :=
  count3 (healthy p) + (if sparepop g r then count3 (p.spare &&& ~~~p.fail) else 0)

/-! MODE fields (R80, R108, R138). -/

/-- Index of a buck in the eight: BKAc 0 to 3, BKBc 4 to 7. -/
def bkIdx (r : Nat) : Nat := r - 5

/-- The buck or GB rail is stopped under R111 or R131 while enabled, or held off by its hot-spot comparator, which ranks
above its regulation (R118, log entry 13). -/
def stopped (s : State) (r : Nat) : Bool :=
  match rk r with
  | .bka => s.bk.pvlow.getLsbD (ci r) || s.bk.hot.getLsbD (bkIdx r)
  | .bkb => s.bk.pvlow.getLsbD (ci r) || s.bk.hot.getLsbD (bkIdx r)
  | .gb => s.bk.vlow.getLsbD (ci r)
  | _ => false

/-- What a buck's two switches do (R118). -/
inductive BuckSw where
  | bothOff | lowOn | limited | skipped | gapped | switching
deriving DecidableEq, Repr

/-- The switches of a buck r by the ranks of R118: off, with the low side on in a quench (R132); both off by the hot-spot comparator
(R117); a period ended by a limit (R115); the high side off and the low side on in an OV hold (R116); on-times skipped (R114); else
its regulation, which rests while PVIN is low and before a pre-bias is exceeded, and makes no edge in a quiet window that it obeys
(R111). -/
def buckSw (s : State) (r : Nat) : BuckSw :=
  if !s.glob.supplied then .bothOff
  else if !has s.rl.en r then (if has s.rl.qu r then .lowOn else .bothOff)
  else if s.bk.hot.getLsbD (bkIdx r) then .bothOff
  else if has s.rl.clim r then .limited
  else if has s.rl.hold r then .lowOn
  else if s.bk.skip.getLsbD (bkIdx r) then .skipped
  else if stopped s r || preBiased s r then .bothOff
  else if gapped s r then .gapped else .switching

/-- MODE of a rail: 0 off, 1 ramping or stopped, 2 regulating, 3 quench; PRE shows its own mode. -/
def railMode (s : State) (r : Nat) : Nat :=
  if r = 0 then (if has s.rl.en 0 && !s.inp.gate && decide (0 ≤ s.inp.node) then s.inp.mode else 0)
  else if has s.rl.qu r then 3
  else if !has s.rl.en r then 0
  else if has s.rl.ss r || stopped s r then 1 else 2

/-! Measured values and temperatures (R237, R252, R254). Temperatures are in 1/16 °C. -/

/-- MVAL. -/
def mval (s : State) (m : Nat) : Word := mget 0 s.hk.mval m
/-- A measurement's INVALID bit. -/
def minval (s : State) (m : Nat) : Bool := !s.hk.valid.getLsbD m

/-- A byte of page 0x3C. -/
def thByte (s : State) (o : Nat) : Nat := (lv s (key 0x3C o)).toNat
/-- A measurement as a signed number. -/
def mtemp (s : State) (m : Nat) : Int := (mval s m).toInt

/-- The bucks sensor of a channel. -/
def bucksSensor (c : Nat) : Nat := if c = 0 then 0 else if c = 1 then 3 else if c = 2 then 12 else 15
/-- The LDO, LSW and GB sensor of a channel. -/
def ldoSensor (c : Nat) : Nat := if c = 0 then 1 else if c = 1 then 2 else if c = 2 then 13 else 14
/-- TDn. -/
def td (s : State) (n : Nat) : Int := mtemp s (88 + n)
/-- TC of channel c. -/
def tcOf (s : State) (c : Nat) : Int := max (td s (bucksSensor c)) (td s (ldoSensor c))
/-- TR of a rail. -/
def trOf (s : State) (r : Nat) : Int :=
  match rk r with
  | .pre => max (td s 4) (td s 7)
  | .mph => mtemp s (78 + ci r)
  | .bka => td s (bucksSensor (ci r))
  | .bkb => td s (bucksSensor (ci r))
  | .ext => 0
  | _ => td s (ldoSensor (ci r))

/-- TXCFGn.EN. -/
def txEn (s : State) (n : Nat) : Bool := (lv s (key 0x3C (0x18 + n))).getLsbD 3

/-- TW of a rail, in °C (R256). -/
def twOf (s : State) (r : Nat) : Nat := if rk r = .mph then (lv s (blk r + 0x12)).toNat else thByte s 0

/-- Sensor i's warning or limit level in °C (R254): TWBLK and TLBLK for a TD sensor, TXWn and TXLn for a TX sensor. -/
def sensorLimit (s : State) (i : Nat) (limit : Bool) : Nat :=
  if i < 16 then thByte s limit.toNat else thByte s ((if limit then 0x28 else 0x20) + (i - 16))

/-- The measurement of sensor i (R248). -/
def sensorMeas (i : Nat) : Nat := if i < 16 then 88 + i else 66 + i

/-- SENSTAT.WARN and LIMIT: a value in use lies at or above the level (R260). -/
def sensorAt (s : State) (i : Nat) (limit : Bool) : Bool :=
  (decide (i < 16) || txEn s (i - 16)) && !minval s (sensorMeas i) &&
    decide (16 * (sensorLimit s i limit : Int) ≤ mtemp s (sensorMeas i))

/-! LEVEL (R377). -/

/-- The type-specific bit 15 condition. -/
def typeLevel (s : State) (r : Nat) : Bool :=
  match rk r with
  | .pre => s.inp.plim
  | .mph => s.bk.stgflt.getLsbD (ci r)
  | .bka => s.bk.skip.getLsbD (bkIdx r)
  | .bkb => s.bk.skip.getLsbD (bkIdx r)
  | .ldo => (ldoOf s (ci r)).drop
  | .lsw => s.bk.revblk.getLsbD (ci r)
  | .gb => has s.rl.en r && s.bk.vlow.getLsbD (ci r)
  | .ext => false

/-- A phase or pass device of the rail has failed. -/
def partFailed (s : State) (r : Nat) : Bool :=
  match rk r with
  | .pre => decide ((phOf s 0).fail ≠ 0)
  | .mph => decide ((phOf s r).fail ≠ 0)
  | .ldo => (ldoOf s (ci r)).p0f || (ldoOf s (ci r)).p1f
  | _ => false

/-- The rail's temperature is at or above its warning level (R377). -/
def warmLevel (s : State) (r : Nat) : Bool := decide (r < 25) && decide (16 * (twOf s r : Int) ≤ trOf s r)

/-- The rail's temperature is at or above its limit (R377): an MPH rail's stages as last seen (R103), the measured junction
temperature of another rail (R254) or a buck's hot-spot comparator (R117). -/
def limitLevel (s : State) (r : Nat) : Bool :=
  let at_ := decide (16 * (thByte s 1 : Int) ≤ trOf s r)
  match rk r with
  | .mph => has s.rl.thlNow r
  | .bka => at_ || s.bk.hot.getLsbD (bkIdx r)
  | .bkb => at_ || s.bk.hot.getLsbD (bkIdx r)
  | .ext => false
  | _ => at_

/-- The MON inputs of EXT rail r as a word. -/
def monMask (s : State) (r : Nat) : Word := (monsOf (lv s) (ci r)).foldl (fun m i => setBit m i true) 0

/-- Rail r lies below its UV level, an EXT rail by any of its MON inputs (R377). -/
def uvLevel (s : State) (r : Nat) : Bool :=
  if rk r = .ext then decide (monMask s r &&& ~~~s.seq.monok &&& ~~~s.seq.monhi ≠ 0) else has s.rl.uvNow r

/-- Rail r lies above its OV level (R377). -/
def ovLevel (s : State) (r : Nat) : Bool :=
  if rk r = .ext then decide (monMask s r &&& s.seq.monhi ≠ 0) else has s.rl.ovNow r

/-- LEVEL bit b of rail r. -/
def levelBit (s : State) (r b : Nat) : Bool :=
  if b = 0 then uvLevel s r
  else if b = 1 then ovLevel s r
  else if b = 2 then (match rk r with | .ldo => false | .lsw => false | .ext => false | _ => has s.rl.clim r)
  else if b = 3 then has s.rl.clamp r
  else if b = 4 then has s.rl.en r && !has s.rl.pg r
  else if b = 7 then partFailed s r
  else if b = 9 then warmLevel s r
  else if b = 10 then limitLevel s r
  else if b = 12 then has (dephold s) r
  else if b = 13 then decide (rk r = .mph) && s.bk.strk.getLsbD (ci r)
  else if b = 14 then has s.rl.imbNow r
  else if b = 15 then typeLevel s r
  else false

/-- A word of sixteen bits. -/
def word16Of (p : Nat → Bool) : Word :=
  (List.range 16).foldl (fun m b => if p b then m ||| BitVec.twoPow 16 b else m) 0

/-- The sensor state bits of R254's groups, as SENSTAT has them (R377): WARN, LIMIT, FAILED, DISAGREE of sensor
4 (g − 32) + b / 4. -/
def sensorLevel (s : State) (i b : Nat) : Bool :=
  let x : Sensor := mget {} s.hk.sen i
  if i ≥ 22 then false
  else if b = 0 then sensorAt s i false else if b = 1 then sensorAt s i true else if b = 2 then x.failed else x.dis

/-- LEVELg (R377). -/
def levelWord (s : State) (g : Nat) : Word :=
  if g < 32 then word16Of (levelBit s g)
  else if g < 38 then word16Of (fun b => sensorLevel s (4 * (g - 32) + b / 4) (b % 4))
  else if g < 46 then word16Of (fun b => s.hk.th.getLsbD (16 * (g - 38) + b))
  else 0

/-! Interrupt state (R374 to R380). -/

/-- PENDg. -/
def pendOf (s : State) (g : Nat) : Word := mget 0 s.irq.pend g
/-- MASKg. -/
def maskOfG (s : State) (g : Nat) : Word := mget 0xFFFF s.irq.mask g
/-- The 4-bit route of a source. -/
def routeOf (s : State) (src : Nat) : BitVec 4 := mget 0 s.irq.route src
/-- A source is pending. -/
def isPend (s : State) (src : Nat) : Bool := (pendOf s (src / 16)).getLsbD (src % 16)
/-- A source is masked; in Floor mode none is (R387). -/
def isMasked (s : State) (src : Nat) : Bool := !s.glob.floor && (maskOfG s (src / 16)).getLsbD (src % 16)
/-- The target a source resolves to (R379, R380, R387). -/
def targetOf (s : State) (src : Nat) : Option Nat :=
  if s.glob.floor then some 0
  else
    let r := (routeOf s src).toNat
    if r ≤ 4 then some r
    else if r = 8 then (let a := mget 0 s.irq.asg src; if a = 0 then none else some (a - 1))
    else none
/-- Where a source is delivered, if it is (R379). -/
def deliveredTo (s : State) (src : Nat) : Option Nat :=
  if isPend s src && !isMasked s src then targetOf s src else none
/-- Some source is delivered to t. -/
def anyDelivered (s : State) (t : Nat) : Bool :=
  s.irq.pend.any (fun (g, w) => (List.range 16).any (fun b => w.getLsbD b && decide (deliveredTo s (16 * g + b) = some t)))
/-- Bit g of TSUMt (R388). -/
def tsum (s : State) (t : Nat) : BitVec 64 :=
  s.irq.pend.foldl (fun m (g, _) =>
    if (List.range 16).any (fun b => decide (deliveredTo s (16 * g + b) = some t)) then m ||| BitVec.twoPow 64 g else m) 0
/-- INTSUM: groups that hold a source pending and not masked (R343). -/
def intsum (s : State) : BitVec 64 :=
  s.irq.pend.foldl (fun m (g, w) =>
    if s.glob.floor ∨ w &&& ~~~(maskOfG s g) ≠ 0 then m ||| BitVec.twoPow 64 g else m) 0
/-- OUTCFGt.EN. -/
def outEn (s : State) (t : Nat) : Bool := (pl s (key 0x56 (4 + t))).getLsbD 0
/-- OUTCFGt.PULSE. -/
def outPulse (s : State) (t : Nat) : Bool := (pl s (key 0x56 (4 + t))).getLsbD 1
/-- nINTt is low (R382, R387). -/
def intLow (s : State) (t : Nat) : Bool :=
  if s.glob.floor then decide (t = 0) && anyDelivered s 0
  else outEn s t && (if outPulse s t then s.irq.pulse.getLsbD t else anyDelivered s t)
/-- ALERTCFG.SRC. -/
def alertSrc (s : State) : Nat := rdBits (pl s) (key 0x56 2) 0 3
/-- Group g has its LOGEN bit set (R416). -/
def logEn (s : State) (g : Nat) : Bool := (pl s (key 0x58 (0x20 + g / 8))).getLsbD (g % 8)

/-- WAKEEN bit k (R385): latches 0 to 6 by the enables the table names. -/
def wakeEn (s : State) (k : Nat) : Bool :=
  let pw := pl s (key 0x60 0)
  let pc := lv s (key 0x40 0)
  if k = 0 then pw.getLsbD 2 else if k = 1 then pw.getLsbD 3 else if k = 2 then pw.getLsbD 4
  else if k = 3 then (pl s (key 0x48 0x24)).getLsbD 0
  else if k = 4 then (pl s (key 0x48 0x28)).getLsbD 2
  else if k = 5 then pc.getLsbD 3 && pc.getLsbD 2
  else if k = 6 then pc.getLsbD 4 && pc.getLsbD 2
  else (pl s (key 0x56 (0x30 + k / 8))).getLsbD (k % 8)

/-- A wake latch of an enabled source is set (R327, R329, R332). -/
def wakeDue (s : State) : Bool := (List.range 64).any (fun k => s.pwr.wl.getLsbD k && wakeEn s k)
/-- Some wake source is enabled (R330). -/
def anyWakeEn (s : State) : Bool := (List.range 64).any (wakeEn s)

/-- The wake latch of a source (R385). -/
def latchOf (src : Nat) : Option Nat :=
  if src = 992 then some 0 else if src = 993 then some 1 else if src = 994 then some 2
  else if src = 832 then some 3 else if src = 833 then some 4 else if src = 788 then some 5
  else if src = 789 then some 6 else if src = 836 then some 7
  else if src < 512 ∧ src % 16 = 0 then some (8 + src / 16)
  else if 736 ≤ src ∧ src ≤ 751 then some (40 + (src - 736))
  else if 946 ≤ src ∧ src ≤ 948 then some (56 + (src - 946))
  else if 1008 ≤ src ∧ src ≤ 1012 then some (59 + (src - 1008))
  else none

/-- The source of a wake latch (R385). -/
def sourceOfLatch (k : Nat) : Nat :=
  if k = 0 then 992 else if k = 1 then 993 else if k = 2 then 994 else if k = 3 then 832 else if k = 4 then 833
  else if k = 5 then 788 else if k = 6 then 789 else if k = 7 then 836
  else if k < 40 then 16 * (k - 8) else if k < 56 then 736 + (k - 40) else if k < 59 then 946 + (k - 56)
  else 1008 + (k - 59)

end Sys2Proof.Machine
end

