-- ==== Sys2Proof/Machine/FlashOps.lean ====
section
/-! DEFINITION. The flash store's sectors, order and banks (15_nvm_log.md): the steps of an erase (R393), which bank is valid, in
force and written next (R400), and what a slot is given to (R403). -/

namespace Sys2Proof.Machine

/-! Two-bank stores (R400). -/

/-- The second bank is in force. -/
def secondInForce (a b : Option Nat) : Bool :=
  match a, b with
  | some x, some y => decide (x < y)
  | none, some _ => true
  | _, none => false

/-- The bank that the next write goes to is the second: the other one, the invalid one, the first where neither is
valid. -/
def writeSecond (a b : Option Nat) : Bool :=
  match a, b with
  | none, none => false
  | _, _ => !secondInForce a b

/-- The sequence number of the next write. -/
def nextSeq (a b : Option Nat) : Nat := 1 + max (a.getD 0) (b.getD 0)

/-- The bank in force. -/
def inForce {α : Type} (seq : α → Nat) (a b : Option α) : Option α :=
  if secondInForce (a.map seq) (b.map seq) then b else a

/-- The configuration bank in force. -/
def cfgBank (s : State) : Option CfgImg := inForce CfgImg.seq s.fl.cfgA s.fl.cfgB
/-- The ledger bank in force. -/
def patBank (p : Pat) : Option PatBank := inForce PatBank.seq p.bankA p.bankB
/-- The gauge bank in force. -/
def gauBank (g : Gau) : Option GauBank := inForce GauBank.seq g.bankA g.bankB
/-- The newer snapshot bank's sequence number, 0 with none. -/
def snapSeq (s : State) : Nat := max ((s.safe.bank0.map SnapBank.seq).getD 0) ((s.safe.bank1.map SnapBank.seq).getD 0)

/-- The second bank of each store is the one written next. -/
def snapSecond (s : State) : Bool := writeSecond (s.safe.bank0.map SnapBank.seq) (s.safe.bank1.map SnapBank.seq)
/-- As `snapSecond`, of the configuration. -/
def cfgSecond (s : State) : Bool := writeSecond (s.fl.cfgA.map CfgImg.seq) (s.fl.cfgB.map CfgImg.seq)
/-- As `snapSecond`, of Patina. -/
def patSecond (s : State) : Bool := writeSecond (s.pat.bankA.map PatBank.seq) (s.pat.bankB.map PatBank.seq)
/-- As `snapSecond`, of the gauge. -/
def gauSecond (s : State) : Bool := writeSecond (s.gau.bankA.map GauBank.seq) (s.gau.bankB.map GauBank.seq)

/-! Roles that the ledger keeps (R400). -/

/-- The spare and retired roles of a rail's phases; a failure ends with a power-on reset (R75, R100), so a rail whose spare
has been used up by one starts with its roles of the reset. -/
def roleOnly (p : PhaseSt) : PhaseSt := if p.spare = 0 then {} else { spare := p.spare, retired := p.retired }

/-- The active pass device of an LDO and whether the idle one is retired; after a failure the roles of the reset (R123). -/
def roleOnlyLdo (l : LdoSt) : LdoSt := if l.p0f || l.p1f then {} else { pass1 := l.pass1, retired := l.retired }

/-- The journal bank in force. -/
def jrnBank (u : Upd) : Option Jrn := inForce Jrn.seq u.jrn0 u.jrn1
/-- As `snapSecond`, of the update journal. -/
def jrnSecond (u : Upd) : Bool := writeSecond (u.jrn0.map Jrn.seq) (u.jrn1.map Jrn.seq)

/-! Sectors (R389 to R396). -/

/-- A physical sector. -/
def sector (s : State) (n : Nat) : Sector := mget {} s.fl.sec n
/-- Write a physical sector. -/
def setSector (n : Nat) (x : Sector) (s : State) : State := { s with fl := { s.fl with sec := mput {} s.fl.sec n x } }

/-- The physical sector that carries a logical number: its stand-in, or itself. -/
def physical (s : State) (n : Nat) : Nat :=
  match s.fl.sec.filter (fun (_, x) => decide (x.stand = some n) && !x.retired) with
  | (k, _) :: _ => k
  | [] => n

/-- The logical number that a physical sector carries. -/
def logical (s : State) (p : Nat) : Nat := (sector s p).stand.getD p

/-- The header says that an erase was begun and not completed (R394). -/
def Sector.broken (x : Sector) : Bool := x.start || decide (x.done ≠ 0xA5) || !x.crcOk

/-- The erase count that the next erase writes: after an interrupted one C + 2 (R394). -/
def newCount (x : Sector) : Nat := match x.half with | some c => c + 2 | none => x.count.getD 0 + 1

/-- Step 1 of an erase: byte 4 is programmed to 0x5A and byte 5 to 0x00; programming only turns bits to 0 (R390, R393). -/
def eraseStart (x : Sector) : Sector := { x with start := true, done := x.done &&& 0x00 }
/-- Step 2: data and header row read 0xFF. -/
def eraseAll : Sector := { count := none, done := 0xFF, crcOk := false }
/-- Step 3: count, logical number and CRC. -/
def eraseHeader (count : Nat) (stand : Option Nat) (x : Sector) : Sector :=
  { x with count := some count, stand := stand, crcOk := true }
/-- Step 4: the done mark. -/
def eraseDone (x : Sector) : Sector := { x with done := x.done &&& 0xA5 }

/-- A sector after all four steps and the program of `c`; with none it stays blank. -/
def erased (x : Sector) (c : Option Content) : Sector :=
  { eraseDone (eraseHeader (newCount x) x.stand eraseAll) with data := c.getD {}, blank := c.isNone }

/-- The refresh buffer, 508 or 509, that holds logical sector n and has not been consumed (R405). -/
def bufferOf (s : State) (n : Nat) : Option Nat :=
  [508, 509].find? (fun b => let x := sector s (physical s b); x.heldMark && x.heldCrc && !x.consumed && decide (x.held = some n))

/-- The physical sector that holds a logical sector's data: the buffer of an interrupted refresh goes first (R405). -/
def dataHome (s : State) (n : Nat) : Nat := physical s ((bufferOf s n).getD n)

/-- The data bytes of a logical sector that holds plain bytes; `off` is its place in an image as shipped. -/
def sectorBytes (s : State) (n off : Nat) : List Byte :=
  match (sector s (dataHome s n)).data.bytes with
  | some l => l ++ List.replicate (4096 - l.length) 0xFF
  | none => (List.range 4096).map (fun i => Config.shippedByte (off + i))

/-! Banks (R399, R400). -/

/-- The kind of a bank by its first sector: configuration, snapshot, Patina, gauge, journal. -/
def bankKind (n : Nat) : Nat := if n < 200 then 1 else if n < 202 then 2 else if n < 204 then 3 else if n < 206 then 4 else 5

/-- The first sectors of the banks. -/
def bankSectors : List Nat := [192, 196, 200, 201, 202, 203, 204, 205, 206, 207]

/-- The frame of a bank just written, its valid mark programmed last. -/
def frameOf (kind len : Nat) : Content := { frame := some { kind := BitVec.ofNat 8 kind, len := len } }

/-- A frame's marker, kind, format, CRC and valid mark are right. -/
def frameGood (kind : Nat) (f : Frame) : Bool :=
  decide (f.marker = 0x544F ∧ f.kind = BitVec.ofNat 8 kind ∧ f.format = 0x01 ∧ f.mark = 0xA5) && f.crcOk

/-- The bank that begins in logical sector n passes its check (R400). -/
def bankGood (s : State) (n : Nat) : Bool :=
  let x := sector s (physical s n)
  !x.broken && !x.retired && x.data.frame.any (frameGood (bankKind n))

/-- The bank that begins in logical sector n is not valid. -/
def dropBank (n : Nat) (s : State) : State :=
  if n = 192 then { s with fl := { s.fl with cfgA := none } } else if n = 196 then { s with fl := { s.fl with cfgB := none } }
  else if n = 200 then { s with safe := { s.safe with bank0 := none } } else if n = 201 then { s with safe := { s.safe with bank1 := none } }
  else if n = 202 then { s with pat := { s.pat with bankA := none } } else if n = 203 then { s with pat := { s.pat with bankB := none } }
  else if n = 204 then { s with gau := { s.gau with bankA := none } } else if n = 205 then { s with gau := { s.gau with bankB := none } }
  else if n = 206 then { s with upd := { s.upd with jrn0 := none } } else if n = 207 then { s with upd := { s.upd with jrn1 := none } }
  else s

/-- The bank that begins in logical sector n has a record that counts as valid. -/
def bankHeld (s : State) (n : Nat) : Bool :=
  if n = 192 then s.fl.cfgA.isSome else if n = 196 then s.fl.cfgB.isSome
  else if n = 200 then s.safe.bank0.isSome else if n = 201 then s.safe.bank1.isSome
  else if n = 202 then s.pat.bankA.isSome else if n = 203 then s.pat.bankB.isSome
  else if n = 204 then s.gau.bankA.isSome else if n = 205 then s.gau.bankB.isSome
  else if n = 206 then s.upd.jrn0.isSome else s.upd.jrn1.isSome

/-- The other bank of a pair. -/
def otherBank (n : Nat) : Nat := if n = 192 then 196 else if n = 196 then 192 else if n % 2 = 0 then n + 1 else n - 1

/-- Banks that fail their check are not valid; one whose interrupted refresh a buffer holds is restored before it is read. -/
def settleBanks (s : State) : State :=
  bankSectors.foldl (fun s n => if bankGood s n || (bufferOf s n).isSome then s else dropBank n s) s

/-- The logical sector that a slot erases: none for a margin read and for log records. -/
def slotSector (s : State) : Slot → Option Nat
  | .scrub _ => none
  | .refreshBuf _ => some (508 + s.fl.turn.toNat)
  | .refresh p => some (logical s p)
  | .snap => some (200 + (snapSecond s).toNat)
  | .cfg => some (192 + 4 * (cfgSecond s).toNat)
  | .pat => some (202 + (patSecond s).toNat)
  | .gauge => some (204 + (gauSecond s).toNat)
  | .log => none
  | .logErase n => some (208 + n)
  | .logPrep n => some (208 + n)
  | .upd n => some ((if s.upd.bootedB then 0 else 96) + n)
  | .journal => some (206 + (jrnSecond s.upd).toNat)
  | .updMan => some 400
  | .updCfg => some 401

/-- ASSAYFAIL bit 4 clears once every sector that failed its margin read has been refreshed (R203, R233). -/
def marginSettle (s : State) : State :=
  if s.fl.sec.any (fun (_, x) => x.marginBad) then s else { s with tst := { s.tst with fail := setBit s.tst.fail 4 false } }

/-! The order of the slots (R403). -/

/-- The first sector that is programmed and carries a logical number, from `i` on around the array (R404). -/
def nextProgrammed (s : State) (i : Nat) : Option Nat :=
  ((List.range 512).map (fun k => (i + k) % 512)).find? (fun k => !(sector s k).blank && !(sector s k).retired)

/-- The slot of the refresh that waits first; none while the buffers are read-only (R398). -/
def refreshSlot (s : State) : Option Slot :=
  if s.fl.ro.getLsbD 9 then none
  else s.fl.refresh.head?.map (fun (p, _) => if (bufferOf s (logical s p)).isSome then .refresh p else .refreshBuf p)

/-- The slot of a scrub step that is due. -/
def stepSlot (s : State) : Option Slot := if s.fl.scrubDue then (nextProgrammed s s.fl.scrubIdx).map .scrub else none

/-- A scrub step or a refresh waits: a refresh goes first. -/
def scrubSlot (s : State) : Option Slot := refreshSlot s <|> stepSlot s

/-- A refresh or a step that has been due for more than 1 h. -/
def lateSlot (s : State) : Option Slot :=
  (if s.fl.refresh.head?.any (fun (_, t) => decide (s.clk.now > t + sec 3600)) then refreshSlot s else none) <|>
  (if s.clk.now > s.fl.scrubSince + sec 3600 then stepSlot s else none)

/-- The log sector that the next record goes to is half-erased (R394). -/
def logHalf (s : State) (i : Nat) : Bool := decide (i < 128) && (sector s (physical s (208 + i))).half.isSome

/-- What a log slot is given to: records with their close bytes, or first the repeat erase of their sector. -/
def logSlot (s : State) : Slot :=
  let i := s.fl.log.length / 256
  if logHalf s i && !s.fl.ro.getLsbD 7 then .logPrep i else .log

/-- The first claimant. Close bytes that wait at a LOG_ERASE go before its erases, in a log slot of their own (R403, R409); nothing
is given to a read-only partition (R398). -/
def nextSlot (s : State) : Option Slot :=
  let f := s.fl
  if s.safe.snapHeld && !f.ro.getLsbD 3 then some .snap
  else if f.capture.isSome && !f.ro.getLsbD 2 then some .cfg
  else if (lateSlot s).isSome && !f.scrubPrev then lateSlot s
  else if f.wantPat && !f.ro.getLsbD 4 then some .pat
  else if decide (f.wantGau > 0) && !f.ro.getLsbD 5 then some .gauge
  else if (f.wantLog || f.flush) && !(f.queue.isEmpty && f.closes.isEmpty) && f.erasing.isNone then some (logSlot s)
  else match f.erasing with
    | some (k, _, _) => some (if f.closes.isEmpty then .logErase (k - 1) else .log)
    | none => match s.upd.want with
      | some w => if w = .journal ∧ f.ro.getLsbD 6 then scrubSlot s else some w
      | none => scrubSlot s

/-- The flash takes its next slot when it has none and the firmware island runs. -/
def grant (s : State) : State :=
  if s.fl.slot.isSome || !fwOn s then s
  else
    let n := nextSlot s
    let late := n.isSome && decide (n = lateSlot s) && !s.fl.scrubPrev
    { s with fl := { s.fl with slot := n, scrubPrev := if n.isSome then late else s.fl.scrubPrev } }

/-! The update journal (R440). -/

/-- The bank that a write of the journal makes; a new session has no progress marks, any other write keeps them. -/
def jrnOf (u : Upd) : Jrn :=
  let m := u.man
  { seq := nextSeq (u.jrn0.map Jrn.seq) (u.jrn1.map Jrn.seq), st := u.st
    fw := (m.map (·.fw)).getD false, cfg := (m.map (·.cfg)).getD false, delta := (m.map (·.delta)).getD false
    nextB := u.nextB, prevOk := u.prevOk, boots := u.boots, err := u.err, len := u.len
    sha := (m.map (fun m => sha256 m.bytes)).getD []
    fwOfs := (m.map (fun m => 304 + (if m.cfgFirst then m.cfgLen else 0))).getD 0
    marks := if u.jact = .begin then [] else ((jrnBank u).map Jrn.marks).getD [] }

/-- The journal is written: the older bank takes it. -/
def writeJournal (u : Upd) : Upd :=
  if jrnSecond u then { u with jrn1 := some (jrnOf u) } else { u with jrn0 := some (jrnOf u) }

/-- The progress mark of output sector k is programmed into the bank in force: the offset of what follows. -/
def markProgress (k off : Nat) (u : Upd) : Upd :=
  let f := fun (j : Jrn) => { j with marks := j.marks ++ [(k, off)] }
  if secondInForce (u.jrn0.map Jrn.seq) (u.jrn1.map Jrn.seq) then { u with jrn1 := u.jrn1.map f } else { u with jrn0 := u.jrn0.map f }

end Sys2Proof.Machine
end

