-- ==== Sys2Proof/Machine/Raise.lean ====
section
/-! DEFINITION. Raising an interrupt source (R371, R379 to R383, R385, R406): pending bit, delivery, counter, wake
latch, log queue. -/

namespace Sys2Proof.Machine

/-- The first target from `i` upward, wrapping from 4 to 0, whose RRMASK bit is 1 (R380). -/
def rrFind (m i : Nat) : Nat → Option Nat
  | 0 => none
  | n + 1 => if (m / 2 ^ i) % 2 = 1 then some i else rrFind m ((i + 1) % 5) n

/-- RRMASK. -/
def rrmask (s : State) : Nat := rdBits (pl s) (key 0x56 0) 0 5

/-- A class S source that is pending and not masked: one that R380 assigns. -/
def takesTurn (s : State) (src : Nat) : Bool :=
  decide ((routeOf s src).toNat = 8) && isPend s src && !isMasked s src

/-- The source takes its turn (R380): the next target is its own, where it is still one to assign. -/
def assign (src : Nat) (s : State) : State :=
  match rrFind (rrmask s) (s.irq.rrnext % 5) 5 with
  | none => s
  | some t => { s with irq := { s.irq with asg := if takesTurn s src then mput 0 s.irq.asg src (t + 1) else s.irq.asg
                                           rrnext := (t + 1) % 5 } }

/-- What holds an assignment ends with the pending bit, the mask or the route (R380). -/
def unassign (src : Nat) (s : State) : State := { s with irq := { s.irq with asg := mput 0 s.irq.asg src 0 } }

/-- HNCFG.EN and HNCFG.TGT name output t (R350). -/
def notifies (s : State) (t : Nat) : Bool :=
  (pl s (key 0x4C 1)).getLsbD 0 && decide (rdBits (pl s) (key 0x4C 1) 1 3 = t) && !s.glob.floor

/-- A source has become delivered to t: a pulse, and nALERT (R382, R383). -/
def onDelivered (t : Nat) (s : State) : State :=
  if t ≥ 4 ∨ s.glob.floor then s
  else
    let s := if alertSrc s = t then { s with irq := { s.irq with alert := true } } else s
    if outEn s t ∧ outPulse s t then
      arm (us 10) (.intPulseEnd (Fin.ofNat 4 t)) { s with irq := { s.irq with pulse := setBit s.irq.pulse t true } }
    else s

/-- nALERT is released once nothing remains delivered to its output (R383). -/
def settleAlert (s : State) : State :=
  if s.irq.alert && !(decide (alertSrc s < 4) && anyDelivered s (alertSrc s)) then
    { s with irq := { s.irq with alert := false } } else s

/-- The first tick of the 1 µs interrupt clock after now (R375). -/
def intTick (s : State) : Nat := s.clk.now / 2 + 1

/-- The output that Host Notify follows asserts at this change from `s0` (R350, R382): a pulse output by a new pulse, a level one
where nothing was delivered to it before. -/
def notifyAsserts (s0 s : State) (t : Nat) : Bool :=
  outEn s t && (if outPulse s t then s.irq.pulse.getLsbD t && !s0.irq.pulse.getLsbD t else anyDelivered s t && !anyDelivered s0 t)

/-- One Host Notify more is due each time the output that HNCFG.TGT names asserts (R350). -/
def notifyDue (s0 s : State) : State :=
  if !s.bus.hnsusp && (List.range 4).any (fun t => notifies s t && notifyAsserts s0 s t) then
    { s with bus := { s.bus with hn := s.bus.hn + 1 } }
  else s

/-- After a change of the interrupt state from `s0`: sources of `srcs`, and those whose assignment it may have moved (R380), act on
their outputs where they are newly delivered. -/
def afterIrq (s0 : State) (srcs : List Nat) (s : State) : State :=
  notifyDue s0 (settleAlert ((srcs ++ s.irq.rrSrcs.filter (fun x => !srcs.contains x)).foldl (fun s src =>
    match deliveredTo s src with
    | some t => if deliveredTo s0 src = some t then s else onDelivered t s
    | none => s) s))

/-- A source moved away from t in the 1 µs in which it was assigned leaves no pulse there, unless another source of that 1 µs
is delivered to t (R380). -/
def takeBack (t : Nat) (s : State) : State :=
  let now := s.irq.tick.any (fun (src, n) => decide (n = intTick s ∧ deliveredTo s src = some t))
  if now || decide (t ≥ 4) then s
  else disarm (.intPulseEnd (Fin.ofNat 4 t)) { s with irq := { s.irq with pulse := setBit s.irq.pulse t false } }

/-- Insert a source in ascending order, once. -/
def insertSrc (x : Nat) : List Nat → List Nat
  | [] => [x]
  | y :: l => if x = y then y :: l else if x < y then x :: y :: l else y :: insertSrc x l

/-- The sources of `srcs` that R380 assigns and that hold no assignment take one now. All that take theirs in the same 1 µs, whatever
has them take it, do so in ascending source number, from the RRNEXT before the first of them. -/
def assignNow (srcs : List Nat) (s : State) : State :=
  let new := srcs.filter (fun x => takesTurn s x && decide (mget 0 s.irq.asg x = 0))
  if new.isEmpty ∨ rrmask s = 0 then s
  else
    let same := decide (s.irq.rrTick = intTick s)
    let old := if same then s.irq.rrSrcs else []
    let l := new.foldl (fun l x => insertSrc x l) old
    let base := if same then s.irq.rrBase else s.irq.rrnext
    let s1 := l.foldl (fun s x => assign x s)
      { s with irq := { s.irq with rrnext := base, rrTick := intTick s, rrBase := base, rrSrcs := l } }
    old.foldl (fun s' x => match deliveredTo s x with
      | some t => if deliveredTo s' x = some t then s' else takeBack t s'
      | none => s') s1

/-- Set a pending bit and deliver it (R371, R379). -/
def setPend (src : Nat) (s : State) : State :=
  let g := src / 16
  let m := BitVec.twoPow 16 (src % 16)
  let s1 := { s with irq := { s.irq with
    pend := mput 0 s.irq.pend g (mget 0 s.irq.pend g ||| m)
    late := mput 0xFFFF s.irq.late g (mget 0xFFFF s.irq.late g ||| m)
    tick := mput 0 s.irq.tick src (intTick s) } }
  if isPend s src then s1 else afterIrq s [src] (assignNow [src] s1)

/-- The event counter of a rail event (R165). -/
def countEvent (src : Nat) (s : State) : State :=
  if src < 512 then
    { s with seq := { s.seq with cnt := mput 0 s.seq.cnt src (BitVec.ofNat 16 (satAdd 0xFFFF 1 (mget 0 s.seq.cnt src).toNat)) } }
  else s

/-- The edge of the 32,768 Hz always-on clock that has passed last, counted from 1 (R386, log entry 43). -/
def aonEdge (s : State) : Nat := s.clk.now * 32768 / 2000000 + 1

/-- The wake latch of a source sets when it is raised (R385). -/
def setLatch (src : Nat) (s : State) : State :=
  match latchOf src with
  | some k => { s with pwr := { s.pwr with wl := s.pwr.wl ||| BitVec.twoPow 64 k, wlAt := mput 0 s.pwr.wlAt k (aonEdge s) } }
  | none => s

/-- The record of a raise (R406 to R408). -/
def raiseRec (src : Nat) (s : State) : LogRec :=
  { kind := 0, src := src, sec := opSec s, cyc := s.clk.cycles, rep := 0xFF, ok := true, t := s.clk.now,
    data := BitVec.ofNat 32 ((levelWord s (src / 16)).toNat +
      65536 * (if src < 512 then (mget 0 s.seq.cnt src).toNat else 0xFFFF)) }

/-- A raise of the source is logged: its group is, or its route is target 4 (R406). -/
def logged (s : State) (src : Nat) : Bool := logEn s (src / 16) || decide ((routeOf s src).toNat = 4)

/-- One entry more in the raise queue, or one raise lost (R406): QOVF once per run, LOGDROP when it first counts. -/
def pushLog (e : LogRec) (s : State) : State :=
  if s.fl.queue.length < 64 then
    grant { s with fl := { s.fl with queue := s.fl.queue ++ [e]
                                     wantLog := s.fl.wantLog || decide (s.fl.queue.length + 1 ≥ 48) } }
  else
    let first := decide (s.fl.run = 0)
    let zero := decide (s.fl.drop = 0)
    let s := if first then setPend (16 * 53 + 8) s else s
    let s := if zero then setPend (16 * 53 + 6) s else s
    let n := 1 + (first && logged s (16 * 53 + 8)).toNat + (zero && logged s (16 * 53 + 6)).toNat
    { s with fl := { s.fl with run := s.fl.run + n, drop := satAdd 0xFFFFFFFF s.fl.drop n } }

/-- LOGREP in half microseconds (R416). -/
def logRep (s : State) : Nat := ms (100 * (pl s (key 0x58 0x0C)).toNat)

/-- A raise of a source with an open record starts the record's LOGREP again (R409). -/
def touchOpen (src : Nat) (s : State) : State :=
  if s.fl.opens.any (fun o => decide (o.src = src)) then arm (logRep s) (.logRecordClose (Fin.ofNat 1024 src)) s else s

/-- The raise enters the log queue where its group is logged or its route is target 4 (R406); no log in Floor
mode (R24). -/
def logRaise (src : Nat) (s : State) : State :=
  if !s.glob.floor && logged s src then touchOpen src (pushLog (raiseRec src s) s) else s

/-- A log record of another kind than EVENT (R408). -/
def logOther (kind src : Nat) (data : BitVec 32) (s : State) : State :=
  if s.glob.floor then s
  else pushLog { kind := kind, src := src, sec := opSec s, cyc := s.clk.cycles, rep := 0, data := data, ok := true, t := s.clk.now } s

/-- Raise a source (R371). With the Anvil island off, only its wake latch can set (R385). -/
def raise (src : Nat) (s : State) : State :=
  if anvilOn s then logRaise src (setLatch src (countEvent src (setPend src s)))
  else if vaonOn s then (match latchOf src with | some k => if k < 8 then setLatch src s else s | none => s)
  else s

/-- Raise bit b of group g. -/
def raiseG (g b : Nat) (s : State) : State := raise (16 * g + b) s

/-- Raise where the condition holds. -/
def raiseIf (c : Bool) (src : Nat) (s : State) : State := if c then raise src s else s

/-- A BUSERR bit is set; BUSERR is raised when it is newly set (R27, R370). -/
def buserr (b : Nat) (s : State) : State :=
  if s.glob.buserr.getLsbD b then s
  else raiseG 56 12 { s with glob := { s.glob with buserr := setBit s.glob.buserr b true } }

/-- BUSERR bits: RORSV, RSVENC, LKDENY, UNALLOC, PEC (R27). -/
def berrRorsv : State → State := buserr 0
def berrRsvenc : State → State := buserr 1
def berrLkdeny : State → State := buserr 2
def berrUnalloc : State → State := buserr 3
def berrPec : State → State := buserr 4

end Sys2Proof.Machine
end

