-- ==== Sys2Proof/Machine/Log.lean ====
section
/-! DEFINITION. The event log (R406 to R413): records, folds, closing, and writing the raise queue. -/

namespace Sys2Proof.Machine

/-- One lost raise or record (R411): LOGDROP is raised when it first becomes non-zero. -/
def logLost (s : State) : State :=
  let s1 := { s with fl := { s.fl with drop := satAdd 0xFFFFFFFF s.fl.drop 1 } }
  if s.fl.drop = 0 then raiseG 53 6 s1 else s1

/-- The queue without its first n raises of a source. -/
def dropRaises (src : Nat) : Nat → List LogRec → List LogRec
  | 0, l => l
  | _, [] => []
  | n + 1, e :: t => if e.kind = 0 ∧ e.src = src then dropRaises src n t else e :: dropRaises src (n + 1) t

/-- How many raises in the queue have folded into an open record: those of its source, up to the count of 254 (R409). -/
def foldsQueued (o : OpenRec) (s : State) : Nat := min (254 - o.n) (s.fl.queue.countP (fun e => decide (e.kind = 0 ∧ e.src = o.src)))

/-- Close an open record: its count, with the raises that have folded into it and are still queued, waits to be programmed into byte
9, in the next log slot (R403, R409). -/
def closeOpen (o : OpenRec) (s : State) : State :=
  let n := foldsQueued o s
  disarm (.logRecordClose (Fin.ofNat 1024 o.src))
    { s with fl := { s.fl with closes := s.fl.closes ++ [(o.pos, o.n + n)], wantLog := true, queue := dropRaises o.src n s.fl.queue
                               opens := s.fl.opens.filter (fun x => decide (x ≠ o)) } }

/-- The close bytes that wait are programmed. -/
def programCloses (s : State) : State :=
  { s with fl := { s.fl with log := s.fl.closes.foldl (fun l (i, n) => l.modify i (fun r => { r with rep := n })) s.fl.log, closes := [] } }

/-- Close every open record. -/
def closeAll (s : State) : State := s.fl.opens.foldl (fun s o => closeOpen o s) s

/-- Append a record: LOGWARN at 29,440, LOGFULL at 32,768, then recording stops (R411). -/
def appendRec (r : LogRec) (s : State) : State :=
  if s.fl.log.length ≥ 32768 ∨ s.fl.ro.getLsbD 7 then logLost s
  else
    let n := s.fl.log.length + 1
    let s := { s with fl := { s.fl with log := s.fl.log ++ [r] } }
    if n = 29440 then raiseG 53 4 s else if n = 32768 then raiseG 53 5 s else s

/-- The last raise of the entry's source: its own, or a later one that still waits in the queue. -/
def lastRaise (e : LogRec) (s : State) : Nat :=
  s.fl.queue.foldl (fun t x => if x.kind = 0 ∧ x.src = e.src then max t x.t else t) e.t

/-- One entry leaves the queue: a fold, a new open record, or a record of another kind (R409). -/
def writeEntry (e : LogRec) (s : State) : State :=
  if e.kind ≠ 0 then appendRec e s
  else match s.fl.opens.find? (fun o => decide (o.src = e.src)) with
    | some o =>
      let o' := { o with n := o.n + 1 }
      let s := { s with fl := { s.fl with opens := s.fl.opens.map (fun x => if x = o then o' else x) } }
      if o'.n ≥ 254 then closeOpen o' s else s
    | none =>
      if s.fl.log.length ≥ 32768 ∨ s.fl.ro.getLsbD 7 then logLost s
      else
        let s := if s.fl.opens.length ≥ 16 then
            (match s.fl.opens with | o :: _ => closeOpen o s | [] => s) else s
        let pos := s.fl.log.length
        let s := appendRec e s
        arm (lastRaise e s + logRep s - s.clk.now) (.logRecordClose (Fin.ofNat 1024 e.src))
          { s with fl := { s.fl with opens := s.fl.opens ++ [⟨e.src, pos, 0⟩] } }

/-- Write up to n queued entries; a DROP record closes a run of full-queue raises once there is room (R406). -/
def writeQueue : Nat → State → State
  | 0, s => s
  | n + 1, s =>
    match s.fl.queue with
    | [] => { s with fl := { s.fl with wantLog := false, flush := false } }
    | e :: rest =>
      let s := writeEntry e { s with fl := { s.fl with queue := rest } }
      let s := if s.fl.run > 0 then
          logOther 7 0x3FF (BitVec.ofNat 32 s.fl.run) { s with fl := { s.fl with run := 0 } } else s
      writeQueue n s

/-- The sixteen bytes of a record (R407): the CRC leaves out byte 9 and the marks. -/
def recBytes (r : LogRec) : List Byte :=
  let head := leBytes 2 (r.src % 1024 + 4096 * r.kind) ++ leBytes 4 r.sec ++ leBytes 3 r.cyc
  let data := leBytes 4 r.data.toNat
  head ++ [BitVec.ofNat 8 r.rep] ++ data ++ [crc8 (head ++ data), if r.ok then 0xA5 else 0xFF]

/-- A SECURITY record (R452): code, region slot or level, and a word. -/
def logSecurity (code what word : Nat) (s : State) : State :=
  logOther 6 0x3FF (BitVec.ofNat 32 (code + 256 * what + 65536 * word)) s

/-- An UPDATE record (R452): the state entered, UPDERR, UPDOUT. -/
def logUpdate (s : State) : State :=
  logOther 5 0x3FF (BitVec.ofNat 32 (s.upd.st + 256 * s.upd.err.toNat + 65536 * s.upd.out)) s

end Sys2Proof.Machine
end

