-- ==== Sys2Proof/Machine/Manifest.lean ====
section
/-! DEFINITION. Bytes of an update stream read as numbers, and what a manifest says (R433). -/

namespace Sys2Proof.Machine

/-- Byte i of a list, 0 beyond it. -/
def byteN (l : List Byte) (i : Nat) : Nat := (l.getD i 0).toNat
/-- The little-endian number of n bytes from i on. -/
def numAt (l : List Byte) (i n : Nat) : Nat := leNat ((l.drop i).take n)
/-- Bytes i to j − 1 of a list. -/
def slice (l : List Byte) (i j : Nat) : List Byte := (l.drop i).take (j - i)

/-- Entry i of the part table. -/
def partEntry (m : List Byte) (i : Nat) : List Byte := slice m (32 + 72 * i) (104 + 72 * i)

/-- The entries in use. -/
def entries (m : List Byte) : List (List Byte) := (List.range (byteN m 8)).map (partEntry m)

/-- The entry of a part of a kind: 1 firmware, 2 configuration. -/
def entryOf (m : List Byte) (kind : Nat) : Option (List Byte) := (entries m).find? (fun e => decide (byteN e 0 = kind))

/-- What a manifest says. -/
def manifestOf (m : List Byte) : Manifest :=
  let fw := entryOf m 1
  let cf := entryOf m 2
  { bytes := m, fwLen := (fw.map (fun e => numAt e 4 4)).getD 0, cfgLen := (cf.map (fun e => numAt e 4 4)).getD 0
    fw := fw.isSome, cfg := cf.isSome, cfgFirst := decide (byteN m 32 = 2)
    delta := (fw.map (fun e => decide (byteN e 1 = 1))).getD false
    autoconf := decide (byteN m 10 = 1), tconf := byteN m 11, ttrial := byteN m 12, revoke := BitVec.ofNat 2 (byteN m 9) }

end Sys2Proof.Machine
end

