-- ==== Sys2Proof/Machine/Store.lean ====
section
/-! DEFINITION. Writing the flash store (15_nvm_log.md): retirement (R396 to R398), landing a sector, what an interrupted slot
leaves (R393, R394, R405, R410, R413), and what the update journal gives back at a start (R440, R441). -/

namespace Sys2Proof.Machine

/-! Wear, retirement and read-only partitions (R395 to R398). -/

/-- The ROAREA bit of a logical sector's partition (R416). -/
def roBit (n : Nat) : Option Nat :=
  if n < 96 then some 0 else if n < 192 then some 1 else if n < 200 then some 2 else if n < 202 then some 3
  else if n < 204 then some 4 else if n < 206 then some 5 else if n < 208 then some 6 else if n < 336 then some 7
  else if 400 ≤ n ∧ n < 508 then some 8 else if n = 508 ∨ n = 509 then some 9 else none

/-- The blank sectors of the spare pool, lowest first. -/
def freeSpares (s : State) : List Nat :=
  ((List.range 64).map (336 + ·)).filter (fun q => (sector s q).blank && (sector s q).stand.isNone && !(sector s q).retired)

/-- A waiting configuration save fails (R398, R402). -/
def saveFails (s : State) : State :=
  if s.fl.capture.isSome then raiseG 53 1 { s with fl := { s.fl with capture := none, cfgSt := 3 } } else s

/-- The partition becomes read-only (R398): a save that waits for the configuration partition fails. -/
def makeReadOnly (n : Nat) (s : State) : State :=
  match roBit n with
  | some b =>
    if s.fl.ro.getLsbD b then s
    else
      let s := raiseG 53 12 { s with fl := { s.fl with ro := setBit s.fl.ro b true } }
      if b = 2 then saveFails s else s
  | none => s

/-- Logical sector n lies in a read-only partition. -/
def readOnly (n : Nat) (s : State) : Bool := (roBit n).any (fun b => s.fl.ro.getLsbD b)

/-- A queued refresh of physical sector p is moot: the sector is erased and programmed afresh, or retired. -/
def dropRefresh (p : Nat) (s : State) : State :=
  { s with fl := { s.fl with refresh := s.fl.refresh.filter (fun (q, _) => decide (q ≠ p)) } }

/-- The buffer that holds logical sector n is consumed: its byte 23 is programmed (R405). -/
def consumeBuffer (n : Nat) (s : State) : State :=
  match bufferOf s n with
  | some b => let p := physical s b; setSector p { sector s p with consumed := true } s
  | none => s

/-- Physical sector p, which carries n, is retired for the lowest blank spare, which is erased and takes the content (R396); with
none, its partition is read-only. -/
def takeSpare (n p : Nat) (c : Option Content) (s : State) : Bool × State :=
  match freeSpares s with
  | q :: rest =>
    let s := dropRefresh p (setSector p { sector s p with retired := true, marginBad := false } s)
    let s := setSector q { erased (sector s q) c with stand := some n } s
    let s := raiseG 53 10 (marginSettle s)
    (true, if rest.isEmpty then raiseG 53 11 s else s)
  | [] => (false, makeReadOnly n s)

/-- Logical sector n is erased, and programmed with `c` unless it is to stay blank. `ok`: every verify passed; a failure retires
the sector at once, and without a spare its content is lost (R397, R398). False: the content is nowhere. -/
def land (n : Nat) (ok : Bool) (c : Option Content) (s : State) : Bool × State :=
  let p := physical s n
  let x := sector s p
  let (got, s) := if x.retired ∨ newCount x > 100000 then takeSpare n p c s
    else (true, marginSettle (dropRefresh p (setSector p (erased x c) s)))
  let s := if got then consumeBuffer n s else s
  if ok || !got then (got, s)
  else
    let p := physical s n
    let s := setSector p { sector s p with data := {} } s
    let (got, s) := takeSpare n p c (raiseG 53 15 s)
    (got, if got then s else settleBanks s)

/-- As `land`, of a write that no slot's verify reports: whether it verifies is a free choice (log entry 8). -/
def landNow (n : Nat) (c : Option Content) (s : State) : Bool × State :=
  let (ok, s) := drawBool s
  land n ok c s

/-- The journal is written at a boot, before there are slots and behind the header scan (R394, R444). -/
def journalNow (s : State) : State :=
  if readOnly 206 s then s else
  let (got, s) := landNow (206 + (jrnSecond s.upd).toNat) (some (frameOf 5 44)) s
  if got then { s with upd := writeJournal s.upd } else s

/-! An interrupted slot. -/

/-- What point k of R393's steps leaves of a sector that is to carry `stand`: before step 1, after each program of step 1, in step 2,
in step 3, before step 4, or in the program that follows, of which nothing is used. -/
def cutSector (k : Nat) (stand : Option Nat) (blank : Bool) (x : Sector) : Sector :=
  let h := eraseHeader (newCount x) stand eraseAll
  if k = 0 then x else if k = 1 then { x with start := true } else if k = 2 then eraseStart x else if k = 3 then eraseAll
  else if k = 4 then { h with crcOk := false } else if k = 5 then h else { eraseDone h with blank := blank }

/-- The erase and program of logical sector n stop at a free point. A worn sector is retired first and its stand-in erased (R396);
without a spare nothing is changed. True: something was changed. -/
def cutErase (n : Nat) (blank : Bool) (s : State) : Bool × State :=
  let (k, s) := drawNat s
  let k := k % 7
  let p := physical s n
  let x := sector s p
  if x.retired ∨ newCount x > 100000 then
    match freeSpares s with
    | q :: _ =>
      if k = 0 then (false, s)
      else
        let s := setSector p { sector s p with retired := true, marginBad := false } s
        (decide (k ≥ 5), setSector q (cutSector k (if k = 4 then none else some n) blank (sector s q)) s)
    | [] => (false, s)
  else (decide (k ≠ 0), setSector p (cutSector k x.stand blank x) s)

/-- Log sector i holds records. -/
def markLog (i : Nat) (s : State) : State :=
  let p := physical s (208 + i)
  if (sector s p).blank then setSector p { sector s p with blank := false } s else s

/-- The log sectors that the records from position m on have entered hold records. -/
def markLogFrom (m : Nat) (s : State) : State :=
  if s.fl.log.length > m then markLog ((s.fl.log.length - 1) / 256) (markLog (m / 256) s) else s

/-- Records were being programmed: a free number of the entries are in flash with their valid marks, the next may have been left
without its mark, and the close bytes may have been programmed (R410, R412). -/
def cutLog (s : State) : State :=
  let m := s.fl.log.length
  let (n, s) := drawNat s
  let s := writeQueue (n % 33) s
  let (torn, s) := drawBool s
  let s := match torn, s.fl.queue with
    | true, e :: _ =>
      if s.fl.log.length ≥ 32768 ∨ s.fl.ro.getLsbD 7 ∨ (e.kind = 0 ∧ s.fl.opens.any (fun o => decide (o.src = e.src))) then s
      else appendRec { e with ok := false } s
    | _, _ => s
  let (closed, s) := drawBool s
  markLogFrom m (if closed then programCloses s else s)

/-- The erase of log sector i was cut: unless nothing was changed yet, its records are gone, and the log ends before it (R413). -/
def cutLogErase (i : Nat) (s : State) : State :=
  let (changed, s) := cutErase (208 + i) true s
  if changed then { s with fl := { s.fl with log := s.fl.log.take (256 * i) } } else s

/-- The write of output sector n was cut; with sector 0 the inactive slot's header goes. -/
def cutUpd (n : Nat) (s : State) : State :=
  let (changed, s) := cutErase ((if s.upd.bootedB then 0 else 96) + n) false s
  if !changed then s
  else if s.upd.bootedB then { s with upd := { s.upd with verA := false, slotA := if n = 0 then none else s.upd.slotA } }
  else { s with upd := { s.upd with verB := false, slotB := if n = 0 then none else s.upd.slotB } }

/-- The rewrite of a sector was cut, or had ended before the buffer was marked consumed (R405). -/
def cutRefresh (p : Nat) (s : State) : State :=
  let (whole, s) := drawBool s
  let x := sector s p
  if whole then setSector p (erased x (some x.data)) s else (cutErase (logical s p) false s).2

/-- The flash stops in the middle of its slot. -/
def dropSlot (s : State) : State :=
  match s.fl.slot with
  | none => s
  | some sl =>
    let n := slotSector s sl
    let s := { s with fl := { s.fl with slot := none } }
    match sl with
    | .log => cutLog s
    | .logErase i => cutLogErase i s
    | .logPrep i => cutLogErase i s
    | .upd n => cutUpd n s
    | .refresh p => settleBanks (cutRefresh p s)
    | _ => match n with
      | some n => settleBanks (cutErase n false s).2
      | none => s

/-! The update journal at a start (R440, R441). -/

/-- The manifest in sector 400, where it is the one whose digest the journal holds. -/
def manifestHeld (s : State) (j : Jrn) : Option Manifest :=
  let b := (sectorBytes s 400 0).take 304
  if decide (j.sha ≠ []) && decide (sha256 b = j.sha) then some (manifestOf b) else none

/-- The resume point: what follows the highest progress mark; with none the manifest's end, or 0 without a manifest. -/
def resumePoint (j : Jrn) (m : Option Manifest) : Nat := j.marks.foldl (fun n (_, o) => max n o) (if m.isSome then 304 else 0)

/-- What the update engine knows after a boot: what its journal says. The end of TTRIAL is not in the journal: it stays over a system reset
(DESIGN CHOICE, log entry 38). -/
def updFromJournal (s : State) : Upd :=
  let u := { s.upd with buf := [], wait := none, want := none, jact := .none, trialflt := false, fell := false, confEnd := none,
                        cutOut := none }
  match jrnBank u with
  | some j =>
    let m := manifestHeld s j
    let n := resumePoint j m
    { u with st := j.st, err := j.err, boots := j.boots, nextB := j.nextB, prevOk := j.prevOk, len := j.len, man := m,
             mark := n, used := n, inp := n, out := j.marks.length }
  | none => { u with st := 0, err := 0, boots := 0, nextB := u.bootedB, prevOk := false, len := 0, man := none
                     mark := 0, used := 0, inp := 0, out := 0 }

end Sys2Proof.Machine
end

