-- ==== Sys2Proof/Machine/Fuse.lean ====
section
/-! DEFINITION. Hallmark (R418 to R428): sensing, the fuse-derived reset values, the Floor table, keys and the
anti-rollback count. -/

namespace Sys2Proof.Machine

/-- Byte b of region r in a byte map of the array or its shadow. -/
def fuse (m : Map Byte) (r b : Nat) : Byte := mget 0 m (64 * r + b)

/-- The 64 bytes of a region. -/
def regionBytes (m : Map Byte) (r : Nat) : List Byte := (List.range 64).map (fuse m r)

/-- Five fuses read as one bit: set where at least 3 of them are (R418). -/
def fiveOf (v : BitVec 5) : Bool := decide (((List.range 5).filter v.getLsbD).length ≥ 3)

/-- The locks that an array of lock fuses reads as set. -/
def locksOf (m : Map (BitVec 5)) : BitVec 16 := (List.range 16).foldl (fun a r => if fiveOf (mget 0 m r) then setBit a r true else a) 0

/-- The region that a repair tag names, once its valid bit reads set (R418, R430). -/
def tagOf (t : BitVec 25) : Option Nat :=
  let b := fun i => fiveOf (t.extractLsb' (5 * i) 5)
  if b 4 then some ((List.range 4).foldl (fun n i => n + (b i).toNat * 2 ^ i) 0) else none

/-- The fuses of a tag that names region r. -/
def tagFuses (r : Nat) : BitVec 25 :=
  (List.range 5).foldl (fun (t : BitVec 25) i => if i = 4 ∨ r / 2 ^ i % 2 = 1 then t ||| ((0x1F : BitVec 25) <<< (5 * i)) else t) 0

/-- What the array reads with its spares standing in for the regions they replace (R430). -/
def arrayWithSpares (o : Otp) : Map Byte :=
  let sub := fun (m : Map Byte) (tag : Option Nat) (sp : Nat) =>
    match tag with
    | some r => (List.range 64).foldl (fun m b => mput 0 m (64 * r + b) (fuse o.arr sp b)) m
    | none => m
  sub (sub o.arr (tagOf o.tag14) 14) (tagOf o.tag15) 15

/-! Reset values marked H (R421, R422): the exclusive OR of the fuse and the parenthesised value. -/

/-- The fuse bits that belong to a byte of a page. -/
def hRaw (m : Map Byte) (p o : Nat) : Byte :=
  let b0 := (fuse m 6 0).toNat
  if p = 0x24 then
    (if o = 0 then BitVec.ofNat 8 (b0 / 2 % 4) else if o = 3 then BitVec.ofNat 8 (b0 / 8 % 2)
     else if o = 1 then fuse m 6 1 else if 4 ≤ o ∧ o ≤ 6 then fuse m 6 (o - 2) else 0)
  else if p = 0x4C ∧ o = 0 then BitVec.ofNat 8 (b0 / 16 % 4)
  else if p = 0x60 ∧ o = 0 then fuse m 6 5 &&& 0x1F
  else if p = 0x44 ∧ o ≤ 15 then fuse m 7 o
  else if p = 0x45 ∧ o ≤ 2 then fuse m 7 (16 + o)
  else if p = 0x40 ∧ o ≤ 4 then fuse m 8 o
  else 0

/-- The bits of a byte that hold writable fields. -/
def fieldMask (p o : Nat) : Byte :=
  BitVec.ofNat 8 ((fieldsOf p).foldl (fun a f => if f.acc = .sc then a else a + f.byteAt o (2 ^ f.w - 1)) 0)

/-- The decoded bytes of a page before the check of R422; a bit without a field stays 0. -/
def hDecoded (m : Map Byte) (k : Nat) : Byte :=
  resetByte k ^^^ (hRaw m (keyPage k) (keyOff k) &&& fieldMask (keyPage k) (keyOff k))

/-- The value of a field in bytes read by `g` on page p. -/
def Fd.read (f : Fd) (g : Nat → Byte) (base : Nat) : Nat := rdNat g (base + f.off) f.len / 2 ^ f.lo % 2 ^ f.w

/-- A field is a reserved encoding in bytes read by g: VCV above 25 is reserved for LiFePO4 (R312). -/
def fieldBad (g : Nat → Byte) (p base : Nat) (f : Fd) : Bool :=
  let v := f.read g base
  !f.legal v || (decide (p = 0x44 ∧ f.off = 2) && decide (rdBits g (base + 0) 1 2 = 2) && decide (v > 25))

/-- The fuse-derived bytes of a page: a reserved field takes its parenthesised value (R422). -/
def hBytes (m : Map Byte) (p n : Nat) : List Byte :=
  let bad := (fieldsOf p).filter (fun f => decide (f.off < n) && fieldBad (hDecoded m) p (key p 0) f)
  (List.range n).map (fun o =>
    let fix := bad.foldl (fun a f => a + f.byteAt o (2 ^ f.w - 1)) 0
    let d := hDecoded m (key p o)
    (d &&& ~~~(BitVec.ofNat 8 fix)) ||| (resetByte (key p o) &&& BitVec.ofNat 8 fix))

/-- Some fuse-derived field is a reserved encoding: FUSEENC (R422). -/
def fuseBad (m : Map Byte) : Bool :=
  [(0x24, 7), (0x4C, 1), (0x60, 1), (0x44, 16), (0x45, 3), (0x40, 5)].any (fun (p, n) =>
    (fieldsOf p).any (fun f => decide (f.off < n) && fieldBad (hDecoded m) p (key p 0) f))

/-- The fuse-derived values of the staged pages enter the live registers. -/
def loadHLive (s : State) : State :=
  putLive (key 0x40 0) (hBytes s.otp.shd 0x40 5) (putLive (key 0x44 0) (hBytes s.otp.shd 0x44 16) s)

/-- Put the fuse-derived values into the registers; page 0x60 only where the always-on domain powers up. -/
def loadH (vaon : Bool) (s : State) : State :=
  let m := s.otp.shd
  let s := putPlain (key 0x24 0) (hBytes m 0x24 7) s
  let s := putPlain (key 0x4C 0) (hBytes m 0x4C 1) s
  let s := putPlain (key 0x45 0) (hBytes m 0x45 3) s
  let s := putStg (key 0x44 0) (hBytes m 0x44 16) (putLive (key 0x44 0) (hBytes m 0x44 16) s)
  let s := putStg (key 0x40 0) (hBytes m 0x40 5) (putLive (key 0x40 0) (hBytes m 0x40 5) s)
  if vaon then putPlain (key 0x60 0) (hBytes m 0x60 1) s else s

/-- The fuse-derived plain values of the firmware island's own pages, 0x45 and 0x4C, put back at a restart (R215, R368). -/
def loadPlainH (s : State) : State :=
  putPlain (key 0x45 0) (hBytes s.otp.shd 0x45 3) (putPlain (key 0x4C 0) (hBytes s.otp.shd 0x4C 1) s)

/-! The Floor table (R423, R424). -/

/-- One entry of the Floor table. -/
structure FloorEnt where
  rail : Nat
  rxc : Nat
  vset : Nat
  on : Nat
  off : Nat
  parent : Option Nat
  two : Bool
  spare : Bool
deriving DecidableEq, Repr

/-- Entry i of the table in region 5. -/
def floorEnt (m : Map Byte) (i : Nat) : FloorEnt :=
  let b := fun j => (fuse m 5 (4 + 5 * i + j)).toNat
  ⟨b 0 % 32, b 0 / 32, b 1, b 2, b 3, if b 4 / 32 % 2 = 1 then some (b 4 % 32) else none,
    decide (b 4 / 64 % 2 = 1), decide (b 4 / 128 = 1)⟩

/-- The entries that COUNT names. -/
def floorEnts (m : Map Byte) : List FloorEnt := (List.range ((fuse m 5 0).toNat % 16)).map (floorEnt m)

/-- The set voltage code is legal for the rail's type (R423). -/
def vsetLegal (r n : Nat) : Bool :=
  match rk r with
  | .pre => decide (n ≤ 180)
  | .mph => true
  | .bka => decide (n ≤ 240)
  | .bkb => decide (n ≤ 240)
  | .ldo => decide (n ≤ 250)
  | _ => decide (n = 0)

/-- The channel rule of R145. -/
def parentOk (r p : Nat) : Bool :=
  decide (p = 0 ∨ p ≥ 25) || (decide (1 ≤ r ∧ r ≤ 24) && inChan p (ci r))

/-- Parents as the table gives them. -/
def floorParents (es : List FloorEnt) (r : Nat) : Mask :=
  match es.find? (fun e => decide (e.rail = r)) with
  | some e => (match e.parent with | some p => bit p | none => 0)
  | none => 0

/-- Region 5 is entirely blank. -/
def floorBlank (m : Map Byte) : Bool := (regionBytes m 5).all (fun b => decide (b = 0))

/-- The table is valid (R424). -/
def floorTableOk (m : Map Byte) : Bool :=
  let es := floorEnts m
  let n := (fuse m 5 0).toNat % 16
  let body := [fuse m 5 0, fuse m 5 1] ++ (List.range (5 * n)).map (fun j => fuse m 5 (4 + j))
  decide (n ≤ 12) && !(fuse m 5 0).msb &&
  decide ((crc16 body).toNat = (fuse m 5 2).toNat + 256 * (fuse m 5 3).toNat) &&
  decide ((es.map (·.rail)).Nodup) &&
  es.all (fun e => decide (e.rxc ≠ 7) && vsetLegal e.rail e.vset &&
    (decide (e.rail < 5) || (!e.two && !e.spare)) &&
    (match e.parent with
     | some p => es.any (fun x => decide (x.rail = p)) && parentOk e.rail p &&
        !has (closeMask (floorParents es) 32 (bit p)) e.rail
     | none => true))

/-- The table in force: empty when blank or invalid (R424). -/
def floorTable (m : Map Byte) : List FloorEnt := if !floorBlank m && floorTableOk m then floorEnts m else []

/-- Sense the array into its shadow (R420, R424). -/
def sense (s : State) : State :=
  let m := arrayWithSpares s.otp
  { s with otp := { s.otp with shd := m, wlS := locksOf s.otp.wl, rlS := locksOf s.otp.rl
                               tag14S := tagOf s.otp.tag14, tag15S := tagOf s.otp.tag15, pend := 0
                               floorValid := !floorBlank m && floorTableOk m } }

/-- Events of a sensing: FUSEENC (R422), FLOORBAD (R424). -/
def senseEvents (s : State) : State :=
  raiseIf (!s.otp.floorValid && !floorBlank s.otp.shd) (16 * 54 + 5) (raiseIf (fuseBad s.otp.shd) (16 * 54 + 4) s)

/-! Keys and anti-rollback (R425, R427, R428). -/

/-- Programmed bits of eight bytes. -/
def popBytes (bs : List Byte) : Nat := bs.foldl (fun n b => n + ((List.range 8).filter b.getLsbD).length) 0

/-- ARCNT (R427). -/
def arcnt (m : Map Byte) : Nat :=
  max (popBytes ((List.range 8).map (fuse m 9))) (popBytes ((List.range 8).map (fun i => fuse m 9 (8 + i))))

/-- Slot i of vendor 0, 1, customer 0, 1 is revoked (R428). -/
def keyRevoked (m : Map Byte) (i : Nat) : Bool := decide (popBytes [fuse m 9 (16 + i) &&& 0x1F] ≥ 3)

/-- Slot i is present: programmed and not revoked (R425). -/
def keyPresent (m : Map Byte) (i : Nat) : Bool :=
  ((List.range 32).any (fun b => decide (fuse m (2 + i / 2) (32 * (i % 2) + b) ≠ 0))) && !keyRevoked m i

/-- Repair regions left (R430, R234). -/
def spareFuse (o : Otp) : Nat := 2 - (decide (o.tag14 ≠ 0)).toNat - (decide (o.tag15 ≠ 0)).toNat

end Sys2Proof.Machine
end

