-- ==== Sys2Proof/Machine/Ntc.lean ====
section
/-! DEFINITION. The cell's NTC (R290): its resistance and pin voltage at a temperature, the temperature of a pin voltage, and
the comparator levels. The exponential and the logarithm are worked in fixed point with 40 fraction bits, and results rounded
as log entry 47 says. -/

namespace Sys2Proof.Machine

/-- The exponential's series after the term `t` of order k, in 1/2^40. -/
def expTail (x : Nat) : Nat → Nat → Nat → Nat
  | 0, _, _ => 0
  | n + 1, k, t => (let u := t * x / ((k + 1) * 2 ^ 40)
                    u + expTail x n (k + 1) u)

/-- exp(x / 2^40) in 1/2^40. -/
def expFix (x : Int) : Nat :=
  let e := 2 ^ 40 + expTail x.natAbs 40 0 (2 ^ 40)
  if 0 ≤ x then e else 2 ^ 80 / e

/-- The binary logarithm's fraction digits of x / 2^40 in 1 .. 2, as a number of n digits. -/
def logDigits : Nat → Nat → Nat → Nat
  | 0, _, acc => acc
  | n + 1, x, acc => (let y := x * x / 2 ^ 40
                      if 2 ^ 41 ≤ y then logDigits n (y / 2) (2 * acc + 1) else logDigits n y (2 * acc))

/-- ln(p / q) in 1/2^40, for positive p and q. -/
def lnFix (p q : Nat) : Int :=
  let x : Nat := p * 2 ^ 80 / q
  let e : Nat := Nat.log2 x
  let f : Nat := logDigits 32 (x * 2 ^ 40 / 2 ^ e) 0
  let l : Int := ((e : Int) - 80) * 4294967296 + (f : Int)
  l * 762123384786 / 4294967296

/-- The pin voltage in mV at a temperature in °C, to the nearest mV: 1.800 V × RN / (10.0 kΩ + RN) with
RN = NTCNOM × exp(NTCBETA × (1/T − 1/298.15 K)). -/
def ntcLevel (nom beta : Nat) (t : Int) : Nat :=
  let th := 27315 + 100 * t
  let r := nom * expFix ((beta : Int) * 2 ^ 40 * 100 * (29815 - th) / (th * 29815))
  let d := 10 * 2 ^ 40 + r
  (2 * 1800 * r + d) / (2 * d)

/-- The temperature of a pin voltage, in 1/16 °C, rounded down; none where the divider gives no resistance or the law no
temperature. -/
def ntcTemp (nom beta mv : Nat) : Option Int :=
  if mv = 0 ∨ 1800 ≤ mv then none
  else
    let d := 100 * (beta : Int) * 2 ^ 40 + 29815 * lnFix (10 * mv) (nom * (1800 - mv))
    if d ≤ 0 then none else some ((160 * 29815 * (beta : Int) * 2 ^ 40 / d - 43704) / 10)

/-- The levels of the four band edges: for each the rising, then the falling one, 2 °C below (R290, R292). -/
def ntcLevels (nom beta : Nat) (edges : List Int) : List Nat :=
  (edges.map (fun e => [ntcLevel nom beta e, ntcLevel nom beta (e - 2)])).flatten

/-- The levels of the parenthesised defaults of page 0x44. -/
def ntcDefaults : List Nat := ntcLevels 10 3435 [0, 10, 45, 60]

/-- The levels held in Hallmark region 7, bytes 20 to 35, each the exclusive OR with its default (R421). -/
def fuseLevels (m : Map Byte) : List Nat :=
  ntcDefaults.zipIdx.map (fun (d, i) =>
    (BitVec.ofNat 16 d ^^^ BitVec.ofNat 16 ((fuse m 7 (20 + 2 * i)).toNat + 256 * (fuse m 7 (21 + 2 * i)).toNat)).toNat)

/-- The band of a pin voltage where `old` is the band before: edge i, once passed, is left above its falling level (R292). -/
def ntcBand (lv : List Nat) (old mv : Nat) : Nat :=
  let passed := fun i => decide (mv ≤ lv.getD (2 * i) 0) || (decide (i < old) && decide (mv ≤ lv.getD (2 * i + 1) 0))
  if !passed 0 then 0 else if !passed 1 then 1 else if !passed 2 then 2 else if !passed 3 then 3 else 4

end Sys2Proof.Machine
end

