-- ==== Sys2Proof/Machine/PilotOps.lean ====
section
/-! DEFINITION. What the boot, SAFE and the pilot's events share (10_charge_pilot.md): S2, the response timer, the loss of PWM,
passive and receive role. -/

namespace Sys2Proof.Machine

/-- Write the pilot. -/
def setPlt (f : Plt → Plt) (s : State) : State := { s with plt := f s.plt }

/-- PCFG.EN live. -/
def pilotEn (s : State) : Bool := (lv s (key 0x40 0)).getLsbD 0

/-- PCFG.PPSTD live. -/
def ppstd (s : State) : Bool := (lv s (key 0x40 0)).getLsbD 1

/-- The filters restart (R268). -/
def restartFilters (s : State) : State :=
  setPlt (fun p => { p with state := 0, cls := 0, run := 0, seen := 0, hist := [], lowRun := 0 }) s

/-- S2 opens. -/
def openS2 (s : State) : State :=
  if s.plt.s2 then raiseG 48 6 (setPlt (fun p => { p with s2 := false }) s) else s

/-- A cause of R272 in receive role: it starts the response timer while S2 is closed, and adds its bit while the timer runs. -/
def pilotCause (b : Nat) (s : State) : State :=
  if decide (s.plt.role ≠ 0) || !(s.plt.rspRun || (s.plt.s2 && !s.plt.soft && !s.plt.hard)) then s
  else
    let run := s.plt.rspRun
    let s := setPlt (fun p => { p with cause := setBit p.cause b true, rspRun := true }) s
    if run then s else raiseG 48 7 (arm (ms (100 * (lv s (key 0x40 1)).toNat)) .rspsoft s)

/-- A cause if the condition holds. -/
def causeIf (c : Bool) (b : Nat) (s : State) : State := if c then pilotCause b s else s

/-- The response timer stops without a report. -/
def stopResponse (s : State) : State :=
  disarm .rspsoft (disarm .rsphard (setPlt (fun p => { p with rspRun := false, cause := 0 }) s))

/-- A new PCURR: DUTYCHG while OSC is 1, and cause 0 when it falls or forbids (R269, R272). -/
def setCurr (c : Nat) (s : State) : State :=
  let old := s.plt.curr.toNat
  if c = old then s
  else
    let s := raiseIf s.plt.osc (16 * 48 + 3) (setPlt (fun p => { p with curr := BitVec.ofNat 16 c }) s)
    causeIf (decide (c = 0 ∨ c = 0xFFFE ∨ (c < old ∧ old < 0xFFFE))) 0 s

/-- OSC changes: PWMON, PWMOFF, cause 1. -/
def setOsc (on : Bool) (s : State) : State :=
  if s.plt.osc = on then s
  else
    let s := raiseG 48 (if on then 1 else 2) (setPlt (fun p => { p with osc := on }) s)
    if on then s else pilotCause 1 s

/-- No PWM: the values that need it go. -/
def noPwm (s : State) : State :=
  let s := setOsc false s
  setCurr 0xFFFF (setPlt (fun p => { p with duty := 0xFFFF, freq := 0, freqerr := false, cplo := 0x8000, hist := [], lowRun := 0 }) s)

/-- The engine leaves passive: receive role, filters restart, SOFT and HARD clear; DC windows follow 2 ms without a crossing. -/
def pilotReceive (s : State) : State :=
  arm (ms 2) .pwmoff <| restartFilters (stopResponse (setPlt (fun p => { p with role := 0, base := true, gen := false, soft := false, hard := false, swap := none }) s))

/-- The engine becomes passive. -/
def pilotPassive (s : State) : State :=
  noPwm (restartFilters (disarm .pwmoff (stopResponse (openS2
    (setPlt (fun p => { p with role := 3, base := true, gen := false, swap := none }) s)))))

/-- PCFG.EN live may have changed (R265). -/
def pilotFollow (s : State) : State :=
  let on := pilotEn s && !s.glob.floor
  if on ∧ s.plt.role = 3 then pilotReceive s
  else if !on ∧ s.plt.role ≠ 3 then pilotPassive s else s

end Sys2Proof.Machine
end

