-- ==== Sys2Proof/Machine/Reset.lean ====
section
/-! DEFINITION. State transitions (R327), the last-fault capture (R228, R229), the resets of the islands (R18, R20,
R26, R334) and the firmware-island restart (R17, R215). -/

namespace Sys2Proof.Machine

/-- What claims the first free slot of the round that begins, and whether CONV sequences leave it a free slot (R241). -/
def claimNext (s : State) : State :=
  let free := s.hk.runA.isEmpty && s.hk.runB.isEmpty
  { s with hk := { s.hk with claim := if free then s.hk.reqBusy.toNat else 2, gap := free } }

/-- A CONV sequence or a host request has begun or ended: before the first round begins, what will hold its first free slot; in
a round, whether a free slot was left to its Assay step (R241). -/
def noteClaim (s : State) : State :=
  if s.clk.now + 200000 ≤ s.hk.due then claimNext s
  else if s.hk.runA.isEmpty && s.hk.runB.isEmpty then { s with hk := { s.hk with gap := true } }
  else s

/-- Rounds start at the next 100 ms boundary, and the first ends 100 ms after it (R239). -/
def startRounds (s : State) : State :=
  claimNext { s with hk := { s.hk with due := ((s.clk.now + 199999) / 200000 + 1) * 200000 } }

/-- Enter a state: STATECHG, and a STATE record (R326, R408). Entry to STOP, SAFE, SLEEP or SHIP closes the open
records (R409); entry to STOP and SAFE has the ledger and the gauge written (R226, R307). -/
def enterState (n : St) (s : State) : State :=
  if s.glob.st = n then s
  else
    let old := s.glob.st
    let s := { s with glob := { s.glob with st := n, left := old } }
    let s := if old = .standby then startRounds s else s
    let s := if n = .start ∧ s.rl.en = 0 then { s with clk := { s.clk with cycles := satAdd 0xFFFFFF 1 s.clk.cycles } } else s
    let s := raiseG 62 6 s
    let s := logOther 3 0x3FF (BitVec.ofNat 32 (stNum old + 256 * stNum n + 65536 * s.safe.cause.toNat)) s
    if n = .stop ∨ n = .safe then
      (let fw := s.glob.fwup && !s.glob.floor
       grant <| closeAll { s with fl := { s.fl with wantPat := fw || s.fl.wantPat
                                                    wantGau := if fw && !s.gau.off then max 1 s.fl.wantGau else s.fl.wantGau } })
    else if n = .sleep ∨ n = .ship then closeAll s else s

/-! Measured values (R237, R238). -/

/-- The current measurements of a rail (R238). -/
def currentMeas (r : Nat) : List Nat :=
  if r = 0 then [41, 42, 43]
  else if r < 5 then (List.range 3).map (fun p => 44 + 3 * (r - 1) + p)
  else if r < 21 then [56 + (r - 5)] else []

/-- The rail current of R238. -/
def railCurrent (s : State) (r : Nat) : Word :=
  if r ≥ 21 then 0x8000 else word16 ((currentMeas r).foldl (fun a m => a + (mval s m).toInt) 0)

/-- The rail voltage of R238. -/
def railVoltage (s : State) (r : Nat) : Word :=
  if r < 25 then mval s r
  else match monsOf (lv s) (r - 25) with
    | m :: _ => mval s (25 + m)
    | [] => 0xFFFF

/-- A rail's values are INVALID (R229). -/
def railInvalid (s : State) (r : Nat) : Bool :=
  (if r < 25 then minval s r
   else match monsOf (lv s) (r - 25) with | m :: _ => minval s (25 + m) | [] => false) ||
  (currentMeas r).any (minval s)

/-- PLLSTAT (R60). -/
def pllstat (s : State) : Byte := BitVec.ofNat 8 (pllNum s.cyc.pll + 4 * s.cyc.misscnt)

/-- A capture's first 252 bytes (R229); the number is the one the write will take. -/
def captureBytes (cause src : Nat) (s : State) : List Byte :=
  [0x01, BitVec.ofNat 8 cause] ++ leBytes 2 src ++ leBytes 4 (snapSeq s + 1) ++ leBytes 4 (opSec s) ++
  leBytes 3 s.clk.cycles ++ [stateByte s] ++ leBytes 4 s.cyc.cnt.toNat ++
  [BitVec.ofNat 8 (angleNow s)] ++ leBytes 2 (fineOf s.cyc.phase) ++ [pllstat s] ++
  leBytes 4 s.rl.en.toNat ++ leBytes 4 s.rl.pg.toNat ++
  ((List.range 32).map (fun r => leBytes 2 (railVoltage s r).toNat)).flatten ++
  ((List.range 32).map (fun r => leBytes 2 (railCurrent s r).toNat)).flatten ++
  ((List.range 16).map (fun i => leBytes 2 (mval s (88 + i)).toNat)).flatten ++
  ((List.range 6).map (fun i => leBytes 2 (mval s (82 + i)).toNat)).flatten ++
  leBytes 2 (mval s 72).toNat ++ leBytes 2 (mval s 73).toNat ++
  leBytes 4 s.seq.offhold.toNat ++ leBytes 4 (dephold s).toNat ++
  leBytes 4 (maskOf (railInvalid s)).toNat ++
  leBytes 3 ((List.range 22).foldl (fun a i => a + (minval s (if i < 16 then 88 + i else 66 + i)).toNat * 2 ^ i) 0) ++
  [0xFF] ++ leBytes 2 s.glob.rstcause.toNat ++
  [BitVec.ofNat 8 (s.seq.lastRail + 32 * s.seq.lastCode), BitVec.ofNat 8 s.seq.lastKind] ++ List.replicate 24 0xFF

/-- The whole record, with its CRC-32. -/
def captureRec (cause src : Nat) (s : State) : List Byte :=
  let b := captureBytes cause src s
  b ++ leBytes 4 (Config.crc32 b).toNat

/-- A snapshot trigger (R228): freeze a capture, or count a miss while one is held. None in Floor mode (R24). -/
def snapshot (cause src : Nat) (s : State) : State :=
  if s.glob.floor then s
  else if s.safe.snapHeld then
    let s1 := { s with safe := { s.safe with snapMiss := satAdd 255 s.safe.snapMiss 1, snapMissed := true } }
    if s.safe.snapMissed then s1 else raiseG 59 11 s1
  else
    raiseG 59 9 <| grant { s with safe := { s.safe with snapHeld := true, snapMissed := false, cap := captureRec cause src s } }

/-! Resets. -/

/-- What starts the boot: a power-on reset, a system reset, an exit from SLEEP or SHIP. -/
inductive BootKind where
  | por
  | sys (c : RstCause)
  | wake (ship : Bool)
deriving DecidableEq, Repr

/-- The RSTCAUSE bit of a system reset (R26). -/
def rstBit : RstCause → Nat
  | .rail => 2
  | .cmd => 3
  | .key => 4
  | .upd => 8

/-- Timers that run on through SLEEP: the always-on domain's (R315, R319, R323, R324), and the scrub's due times, which
count SLEEP (R404). -/
def alwaysOnTimer : Instr → Bool
  | .ptick => true
  | .calendarSecond => true
  | .caltrimStep => true
  | .shiftdone => true
  | .scrubDue => true
  | .scrublate => true
  | _ => false

/-- Timers that a system reset does not stop: the timebase, the pilot, the lockstep ages, the charge converter (R295), the
periodic wake. -/
def keepOnSys : Instr → Bool
  | .acceptWindowClose => true
  | .acqMissSpan => true
  | .pwmoff => true
  | .rspsoft => true
  | .rsphard => true
  | .roledone => true
  | .lockstepExpire => true
  | .gaugeOffsetCal => true
  | .quietEnd => true
  | i => alwaysOnTimer i

/-- Timers that a boot of this kind leaves armed; the periodic wake runs on through SLEEP (R323). -/
def keepTimer : BootKind → Instr → Bool
  | .por, _ => false
  | .sys _, i => keepOnSys i
  | .wake true, _ => false
  | .wake false, i => alwaysOnTimer i

/-- The flash's RAM side after the firmware starts afresh: captures, open records and waiting claims are gone. -/
def flashRestart (f : Fl) : Fl :=
  { f with slot := none, cfgSt := 0, capture := none, wantPat := false, wantGau := 0, wantLog := !f.queue.isEmpty, opens := [], closes := [],
           erasing := none, flush := false, reading := none }

/-- Failed margin reads are forgotten: they were held in the islands (R20). -/
def forgetMargins (m : Map Sector) : Map Sector := m.foldl (fun t (k, x) => mput {} t k { x with marginBad := false }) []

/-- The flash after the core domain was gone: what the islands held of it is lost, the log's queue, the failed margin reads, the
scrub's turn in the order of the slots and page 0x58's registers among it (R20, R411, R415); the scrub's due times run on (R404). The turn of
the refresh buffers is read back from their headers in the flash (R405; DESIGN CHOICE, log entry 36). -/
def flashSleep (f : Fl) : Fl :=
  { flashRestart f with queue := [], drop := 0, run := 0, wantLog := false, refrcnt := 0, halfcnt := 0, ro := 0, scrubIdx := 0, refresh := [],
                        scrubPrev := false, sec := forgetMargins f.sec }

/-- The flash after the logic supply was gone or SHIP: a new scrub pass starts with its first step due (R404). -/
def flashPower (f : Fl) : Fl :=
  { flashSleep f with scrubDue := true, scrubSince := 0, late := false }

/-- Bytes of the plain registers that a boot of this kind keeps: always-on pages in SLEEP and through a system reset,
the timebase page through a system reset (R20, R315, R336, R337, R40, R52), and the pilot engine's PSW with the S2 that it
asks for (R271, log entry 42). -/
def keepPlain : BootKind → Nat → Bool
  | .por, _ => false
  | .sys _, p => decide (p = 0x48 ∨ p = 0x60 ∨ p = 0x01 ∨ p = 0x40)
  | .wake true, _ => false
  | .wake false, p => decide (p = 0x48 ∨ p = 0x60)

/-- Latches still set make their sources pending again (R386). -/
def repend (s : State) : State :=
  (List.range 64).foldl (fun s k => if s.pwr.wl.getLsbD k then setPend (sourceOfLatch k) s else s) s

/-- The engine's registers at a boot: UPDIN and UPDOUT start from 0 but for a session that the flash's progress marks let
resume (R20, R441). -/
def updAtBoot (s : State) : Upd :=
  let u := updFromJournal s
  if u.st = 1 ∨ u.st = 2 ∨ u.st = 4 then u else { u with inp := 0, out := 0 }

/-- The same after the islands were without power: the count of TTRIAL starts again (R20). Across a system reset it goes on (log
entry 38). -/
def updAtPower (s : State) : Upd := { updAtBoot s with trialEnd := 0 }

/-- The ledger at first use: every resource starts with the factory age of Hallmark region 0 (R225). -/
def factoryLedger (m : Map Byte) : Map Res :=
  let h := (fuse m 0 11).toNat + 256 * (fuse m 0 12).toNat
  if h = 0 then [] else (List.range 23).map (fun i => (i, { hot := 36000 * h }))

/-- Whether a boot follows a system reset, of any cause. -/
def isSysBoot : BootKind → Bool
  | .sys _ => true
  | _ => false

/-- The RSTCAUSE that a boot of a kind leaves (R20, R27): a power-on reset sets POR, and BOR where the device was active; a
wake sets WAKE, from SHIP on top of POR alone; a system reset adds its own bit. -/
def bootCause (k : BootKind) (s : State) : Word :=
  match k with
  | .por => if s.glob.borNext then 3 else 1
  | .sys c => setBit s.glob.rstcause (rstBit c) true
  | .wake true => 0x201
  | .wake false => s.glob.rstcause ||| 0x200

/-- R340's value of a resistor in ohms. Between two bands one of the neighbours is taken: a free choice (log entry 11). -/
def strapOf (ohms : Nat) (lower : Bool) : Nat :=
  let pick := fun n => if lower then n else n + 1
  if ohms ≤ 500 then 0 else if ohms < 1600 then pick 0 else if ohms ≤ 2400 then 1 else if ohms < 3400 then pick 1
  else if ohms ≤ 4700 then 2 else if ohms < 5800 then pick 2 else if ohms ≤ 8000 then 3 else if ohms < 9400 then pick 3
  else if ohms ≤ 12900 then 4 else if ohms < 15200 then pick 4 else if ohms ≤ 20900 then 5 else if ohms < 25600 then pick 5
  else if ohms ≤ 35300 then 6 else if ohms < 80000 then pick 6 else 7

/-- Whether the address resistor is sensed at a boot: the always-on domain powers up (R340). -/
def sensesStrap (k : BootKind) : Bool := decide (k = .por ∨ k = .wake true)

/-- A system reset keeps of the sensors which have failed (R251); the rest of SENSTAT is at reset (R260). -/
def failedOnly (m : Map Sensor) : Map Sensor :=
  m.filterMap (fun (i, x) => if x.failed then some (i, { failed := true }) else none)

/-- What survives a boot of a kind, every other part at its reset value (R20, R26, R326). Where they are silent, as on GBSNSPK over a system
reset (R138), log entry 42 says what the model keeps (DESIGN CHOICE). -/
def bootRecord (k : BootKind) (s : State) : State :=
  let sys := isSysBoot k
  let sleep := decide (k = .wake false)
  let r : State := .reset
  let fl := if sys then flashRestart s.fl else if sleep then flashSleep s.fl else { flashPower s.fl with scrubSince := s.clk.now }
  let bank := patBank s.pat
  let op := if sys then s.clk.op else (match bank with | some b => b.op * 2000000 | none => 0)
  let cyc := satAdd 0xFFFFFF 1 (if sys then s.clk.cycles else (match bank with | some b => b.cycles | none => 0))
  { r with
    pending := s.pending
    clk := { s.clk with timers := s.clk.timers.filter (fun t => keepTimer k t.ev), op := op, cycles := cyc }
    free := if sensesStrap k then s.free + 1 else s.free
    glob := { r.glob with logsrc := s.glob.logsrc, supplied := s.glob.supplied, vaonOk := s.glob.vaonOk,
                          clocked := s.glob.clocked || !sys, vsys := s.glob.vsys, vin := s.glob.vin,
                          strap := if sensesStrap k then strapOf s.glob.ohms (Config.freeBool s.free) else s.glob.strap, ohms := s.glob.ohms,
                          rstcause := bootCause k s,
                          minoffAfterBoot := s.glob.minoffAfterBoot && sys, left := s.glob.st }
    regs := { r.regs with page := if sleep then s.regs.page else 0
                          plain := s.regs.plain.filter (fun (a, _) => keepPlain k (keyPage a)) }
    cyc := if sys then s.cyc else r.cyc
    qt := if sys then s.qt else r.qt
    bk := if sys then { r.bk with ph := s.bk.ph, ldo := ldoRoles s, strkn := s.bk.strkn, stgflt := s.bk.stgflt, snspk := s.bk.snspk,
                                  vlow := s.bk.vlow, hot := s.bk.hot, pvlow := s.bk.pvlow } else r.bk
    seq := if sys then { r.seq with cnt := s.seq.cnt } else r.seq
    safe := { r.safe with
      bank0 := s.safe.bank0, bank1 := s.safe.bank1
      ls := if sys then s.safe.ls else 0
      snapHeld := sys && s.safe.snapHeld, snapMissed := sys && s.safe.snapMissed
      snapMiss := if sys then s.safe.snapMiss else 0, cap := if sys then s.safe.cap else [] }
    tst := if sys then { s.tst with full := 0, light := false, fail := 0, dispN := 0, dispRun := 0 } else { r.tst with xtal := sleep && s.tst.xtal }
    pat := { res := match bank with | some b => b.res | none => factoryLedger s.otp.arr, pend := [], bankA := s.pat.bankA, bankB := s.pat.bankB }
    hk := if sys then { r.hk with sen := failedOnly s.hk.sen } else r.hk
    plt := if sys then s.plt else { r.plt with role := if decide (k = .por) then 3 else 0 }
    chg := if sys then { r.chg with tpin := s.chg.tpin, phase := if s.chg.phase = 7 then 7 else 0, tmrpre := s.chg.tmrpre, tmrfast := s.chg.tmrfast,
                                    ct := s.chg.ct, ntc := s.chg.ntc, vmidlow := s.chg.vmidlow, holdoff := s.chg.holdoff,
                                    vcell := s.chg.vcell }
           else r.chg
    gau := { r.gau with bankA := s.gau.bankA, bankB := s.gau.bankB, acc := if sys then s.gau.acc else 0 }
    cal := if k = .por ∨ k = .wake true then { r.cal with t0 := s.clk.now } else s.cal
    pwr := match k with
      | .por => r.pwr
      | .wake true => { r.pwr with wl := s.pwr.wl, why := s.pwr.why, lastslp := 3, slpsec := 0xFFFFFFFF, woke := some true }
      | .wake false => { s.pwr with req := none, idle := false, fromRun := false, woke := some false }
      | .sys _ => { s.pwr with req := none, idle := false, fromRun := false }
    fl := fl
    otp := s.otp
    upd := if sys then updAtBoot s else updAtPower s }

/-- The sequencer's hold and the pilot's role at the start of a boot, from the reset values just loaded (R265, R325). After a system
reset the pilot goes on in its role, unless the PCFG just loaded has EN 0: then it is passive, and S2 opens (R271). -/
def bootRoles (k : BootKind) (s : State) : State :=
  let s' := if k = .wake false then s else { s with pwr := { s.pwr with held := !(pl s (key 0x60 0)).getLsbD 0 } }
  if isSysBoot k then (if !pilotEn s' ∧ s'.plt.role ≠ 3 then pilotPassive s' else s')
  else if k = .por then s' else
    { s' with plt := { s'.plt with role := if (lv s' (key 0x40 0)).getLsbD 0 then 0 else 3, s2 := false } }

/-- The timers of a boot: the firmware's 50 ms, the charge converter's 10 min where the core domain powers up, the pilot's 2 ms where it starts receiving, and the calendar's where the
calendar starts anew. -/
def bootTimers (k : BootKind) (s : State) : State :=
  let s := if !isSysBoot k && decide (s.plt.role = 0) then arm (ms 2) .pwmoff s else s
  let s := if isSysBoot k then s else arm (sec 600) .gaugeOffsetCal s
  arm (ms 50) .fwBootTimeout
    (if k = .por ∨ k = .wake true then arm (sec 3600 + 1) .scrublate (arm (sec 32) .caltrimStep (arm (sec 1) .calendarSecond s)) else s)

/-- START is reported and recorded where the state was another one (R326, R408), and the end of a session that the reset cut off
(R359). -/
def bootReport (st : St) (sess : Bool) (s : State) : State :=
  raiseIf sess (16 * 56 + 9) (if st = .start then s
    else logOther 3 0x3FF (BitVec.ofNat 32 (stNum st + 256 * stNum .start + 65536 * s.safe.cause.toNat)) (raiseG 62 6 s))

/-- The charger's comparators place the TCELL voltage last seen by the levels of Hallmark region 7, which are in force until the boot commit
(R290); unused with no cell or with TSEN 0 (R285, R291). -/
def placeBand (s : State) : State :=
  let c := (lv s (key 0x44 0)).toNat
  match s.chg.tpin with
  | some mv =>
    let b := ntcBand (fuseLevels s.otp.shd) s.chg.ct mv
    if c / 8 % 2 = 1 ∧ c / 2 % 4 ≠ 0 ∧ s.chg.ct ≠ b then raiseG 50 7 { s with chg := { s.chg with ct := b } } else s
  | none => s

/-- Start the boot (R20, R26, R326, R420): every island at its reset values but for what survives this kind. -/
def bootStart (k : BootKind) (s : State) : State :=
  let s := dropSlot s
  bootTimers k (placeBand (bootReport s.glob.st (decide (s.bus.level ≠ 0)) (repend (senseEvents (bootRoles k
    (loadH (!isSysBoot k && !decide (k = .wake false)) (sense (bootRecord k s))))))))

/-- A system reset (R26). -/
def systemReset (c : RstCause) (s : State) : State := bootStart (.sys c) s

/-- The rest of the firmware's work in one moment, which a system reset that the first part led to ends (R26, R159). -/
def whileUp (f : State → State) (s : State) : State := if s.glob.fwup then f s else s

/-! The firmware-island restart (R17, R215). -/

/-- Pages that a restart keeps (R215); of page 0x38 on, the plain pages of the firmware's chapters are reloaded. -/
def reloadedPage (p : Nat) : Bool := [0x38, 0x39, 0x3A, 0x3B, 0x45, 0x4C, 0x4D, 0x58, 0x59, 0x32].contains p

/-- A threshold channel's state clears with its EN (R246). -/
def clearTh (k : Nat) (s : State) : State :=
  if (pl s (ikey k 0x3B 1)).msb then s
  else { s with hk := { s.hk with th := setBit (setBit s.hk.th (2 * k) false) (2 * k + 1) false
                                  thN := mput 0 (mput 0 s.hk.thN (2 * k) 0) (2 * k + 1) 0 } }

/-- The plain pages of the firmware island as the bank in force holds them; H values, and CFGNONE, where
no bank is valid (R401). -/
def reloadPlain (s : State) : State :=
  let kept := s.regs.plain.filter (fun (a, _) => !reloadedPage (keyPage a))
  let s := loadPlainH { s with regs := { s.regs with plain := kept } }
  let s := match cfgBank s with
    | some c => { s with regs := { s.regs with
        plain := (c.plain.filter (fun (a, _) => reloadedPage (keyPage a))).foldl (fun m (a, b) => rput m a b) s.regs.plain } }
    | none => raiseG 53 2 s
  (List.range 64).foldl (fun s k => clearTh k s) s

/-- The held bytes, the command slot and the session end with the firmware island (R16, R347, R355, R359). -/
def busRestart (s : State) : State :=
  let s := if s.bus.level ≠ 0 then raiseG 56 9 s else s
  { s with regs := { s.regs with held := [] }
           bus := { s.bus with cstat := 0, tag := 0, prog := 0xFF, err := 0, op := 0, cres := [], ofs := 0, level := 0,
                               nonce := none, hn := 0 } }

/-- Which timers stop with the firmware island. -/
def firmwareTimer : Instr → Bool
  | .sesstmo => true
  | .nonceExpire => true
  | .logTimer => true
  | .logRecordClose _ => true
  | .dsPoll _ => true
  | .scltmo => true
  | .stuckscl => true
  | .dsClearRetry _ _ => true
  | .fwwdt => true
  | _ => false

/-- What a restart of the firmware island takes with it (R17, R194, R215): the bus is not answered until FWUP, and the
commands in progress are lost (R218). The island is held 10 µs and then has the 50 ms of R23; FWUP comes from outside
(log entry 3). -/
def islandRestart (s : State) : State :=
  let s := busRestart (dropSlot s)
  let s := match s.txn.cur with
    | some c => if c.pending then { s with txn := { s.txn with val := none, cur := some { c with slot := false } } } else
        disarm .commitDeadline <| raiseG 61 6 (logOther 1 0x3FF (BitVec.ofNat 32 (c.seq.toNat + 256 * 7 + 65536 * 0x14 + 16777216 * 255))
          { s with txn := { s.txn with cur := none, val := none, res := 7, rsn := 0x14, epg := 0, eofs := 0, erail := 0xFF } })
    | none => { s with txn := { s.txn with val := none } }
  let s := disarmAll firmwareTimer s
  let s := arm (us 50010) .fwBootTimeout s
  { s with glob := { s.glob with fwup := false, restarting := true }
           fl := flashRestart s.fl
           ds := { cut := s.ds.cut, cutSet := s.ds.cutSet, recheck := s.ds.recheck, failed := s.ds.cut || s.ds.recheck }
           hk := { s.hk with runA := [], runB := [], reqBusy := false } }

/-- A restart with its RSTCAUSE bit and its snapshot, whose trigger is source `src` (R215, R228). -/
def causedRestart (bitNo src : Nat) (s : State) : State :=
  islandRestart (snapshot 3 src { s with glob := { s.glob with rstcause := setBit s.glob.rstcause bitNo true } })

/-- A restart with its cause: event, RSTCAUSE bit and capture (R17, R214, R228). -/
def fwRestart (bitNo src : Nat) (s : State) : State := causedRestart bitNo src (raise src s)

end Sys2Proof.Machine
end

