-- ==== Sys2Proof/Machine/ChgOps.lean ====
section
/-! DEFINITION. The charger's phase, timers and watchdog as they follow from its conditions (R284 to R294). Phases: 0
off, 1 trickle, 2 pre-charge, 3 CC, 4 CV, 5 done, 6 suspended, 7 fault, 8 VSYS regulation (R312). -/

namespace Sys2Proof.Machine

/-- Write the charger. -/
def setChg (f : Chg → Chg) (s : State) : State := { s with chg := f s.chg }

/-- Byte o of page 0x44 in force: Hallmark region 7 in Floor mode, and for ICHG, VCV and CTADJ once the charger watchdog
has expired (R293, R294). -/
def chgByte (s : State) (o : Nat) : Byte :=
  let h := (hBytes s.otp.shd 0x44 16).getD o 0
  let live := lv s (key 0x44 o)
  if s.glob.floor then h
  else if s.chg.defaults ∧ (o = 1 ∨ o = 10) then h
  else if s.chg.defaults ∧ o = 2 then
    (if h.toNat ≤ (if rdBits (lv s) (key 0x44 0) 1 2 = 2 then 25 else 40) then h else 0)
  else live

/-- CHGCFG.CELL in force: 0 none, 1 Li-ion, 2 LiFePO4. -/
def chgCell (s : State) : Nat := (chgByte s 0).toNat / 2 % 4
/-- CHGCFG.TSEN in force. -/
def chgTsen (s : State) : Bool := (chgByte s 0).getLsbD 3
/-- The band in force: NORMAL with TSEN 0 (R291). -/
def chgBand (s : State) : Nat := if chgTsen s then s.chg.ct else 2
/-- VCV in mV. -/
def vcv (s : State) : Nat := (if chgCell s = 2 then 3400 else 4000) + 10 * (chgByte s 2).toNat
/-- The CV voltage in force (R286, R292). -/
def cvEff (s : State) : Nat := vcv s - (if chgBand s = 3 then 50 * ((chgByte s 10).toNat / 4 % 4) else 0)
/-- NTCNOM in kΩ and NTCBETA in K, in force. -/
def ntcNom (s : State) : Nat := max 1 (chgByte s 11).toNat
/-- NTCBETA. -/
def ntcBeta (s : State) : Nat := (chgByte s 12).toNat + 256 * (chgByte s 13).toNat
/-- TCELLT (R290): the temperature of measurement 77; 0x8000 while that is INVALID or names no temperature. -/
def tcellNow (s : State) : Word :=
  if minval s 77 then 0x8000
  else match ntcTemp (ntcNom s) (ntcBeta s) (mval s 77).toNat with
    | some t => word16 t
    | none => 0x8000
/-- The comparator levels in force: region 7's until the boot commit has loaded page 0x44's, and in Floor mode (R290). -/
def levelsNow (s : State) : List Nat := if s.glob.floor ∨ s.chg.levels = [] then fuseLevels s.otp.shd else s.chg.levels
/-- The levels of the live page's band edges. -/
def pageLevels (s : State) : List Nat :=
  ntcLevels (max 1 (lv s (key 0x44 11)).toNat) (rdNat (lv s) (key 0x44 12) 2)
    ((List.range 4).map (fun i => (lv s (key 0x44 (6 + i))).toInt))
/-- ICHG in mA. -/
def ichg (s : State) : Nat := 50 * (chgByte s 1).toNat
/-- The cool factor in percent (R292). -/
def coolPct (s : State) : Nat := if chgBand s = 1 then 25 * ((chgByte s 10).toNat % 4 + 1) else 100
/-- VTRK and VPRE (R286). -/
def vtrk (s : State) : Nat := if chgCell s = 2 then 2000 else 2500
/-- VPRE. -/
def vpre (s : State) : Nat := if chgCell s = 2 then 2800 else 3000
/-- The current in force in mA (R286). -/
def chgIeff (s : State) : Nat :=
  match s.chg.phase with
  | 1 => 20
  | 2 => max 50 (ichg s / 10)
  | 3 => ichg s * coolPct s / 100
  | 4 => ichg s * coolPct s / 100
  | _ => 0

/-- The phase that R286 selects from VCELL in mV. -/
def phaseOf (s : State) (v : Nat) : Nat :=
  if v < vtrk s then 1 else if v < vpre s then 2 else if v < cvEff s then 3 else 4

/-- The phase selected from the VCELL last measured, a free value where none has been (log entries 8, 13). -/
def choosePhase (s : State) : Nat × State :=
  if s.chg.vcell ≠ 0 then (phaseOf s s.chg.vcell, s)
  else let (v, s) := drawNat s
       (phaseOf s v, s)

/-! Safety timers (R289). -/

/-- Which timer a phase counts on: 1 pre-charge, 2 fast. -/
def timerOf (p : Nat) : Nat := if p = 1 ∨ p = 2 then 1 else if p = 3 ∨ p = 4 then 2 else 0
/-- TPRE or TFAST in half microseconds. -/
def timerLen (s : State) (g : Nat) : Nat :=
  let b := (chgByte s 4).toNat
  if g = 1 then sec (60 * (15 * 2 ^ (b % 4))) else sec (7200 * (b / 4 % 8 + 1))
/-- Counted time so far. -/
def timerCount (s : State) : Nat := s.chg.tcount + (s.clk.now - s.chg.tsince) * s.chg.trate / 2

/-- The timer of the present phase runs on from its count at the rate in force; others stop. -/
def runTimer (s : State) : State :=
  let n := timerCount s
  let g := timerOf s.chg.phase
  let rate := if g = 0 then 0 else if g = 2 ∧ coolPct s < 100 then 1 else 2
  let s := disarm .tmrpre (disarm .tmrfast (setChg (fun c => { c with tcount := n, tsince := s.clk.now, trate := rate }) s))
  if g = 0 then s else arm ((timerLen s g - n) * 2 / rate) (if g = 1 then .tmrpre else .tmrfast) s

/-- Change the phase: PHASE is raised; a timer starts when its phases are entered from those of the other or of none, keeps its
count through a suspension, and is cleared otherwise (R289). -/
def setPhase (p : Nat) (s : State) : State :=
  if s.chg.phase = p then s
  else
    let g := if p = 6 then s.chg.tfor else timerOf p
    let n := if g ≠ 0 ∧ g = s.chg.tfor then timerCount s else 0
    raiseG 50 0 (runTimer (setChg (fun c => { c with phase := p, tcount := n, tfor := g, tsince := s.clk.now, trate := 0 }) s))

/-! The charger's conditions (R284, R291, R292, R294). -/

/-- The charger may work: enabled, rail 0 power-good, VMID high enough, hold-off over. -/
def chgCanRun (s : State) : Bool :=
  anvilOn s && (chgByte s 0).getLsbD 0 && has s.rl.pg 0 && !s.chg.vmidlow && !s.chg.holdoff
/-- CHGSUSP. -/
def chgsusp (s : State) : Bool := (pl s (key 0x44 0x63)).getLsbD 0
/-- Charging is suspended. -/
def chgSuspended (s : State) : Bool := chgsusp s || (chgTsen s && (s.chg.ntc || decide (s.chg.ct = 0) || decide (s.chg.ct = 4)))
/-- The charger may switch by R284; its watchdog counts by this (R293), through an over-voltage of the cell too. -/
def chgMaySwitch (s : State) : Bool := chgCanRun s && !chgsusp s && decide (s.chg.phase < 5 ∨ s.chg.phase = 8)
/-- The charger switches: it may, and no over-voltage of the cell holds it (R288). -/
def chgSwitches (s : State) : Bool := chgMaySwitch s && !s.chg.cellov
/-- The charger makes switching edges now: it switches, and no quiet window that it obeys holds them off (R53, R284). -/
def chgEdges (s : State) : Bool := chgSwitches s && !classGapped s 4
/-- CHGWDT code. -/
def chgwdt (s : State) : Nat := (chgByte s 14).toNat % 8

/-- The charger watchdog runs while the charger may switch (R293). -/
def chgWatch (s : State) : State :=
  if chgwdt s = 0 ∨ !chgMaySwitch s ∨ s.chg.defaults then disarm .wdexp s
  else if armed .wdexp s then s
  else arm (sec (5 * 2 ^ chgwdt s)) .wdexp s

/-- The phase follows its conditions. -/
def chgSettle (s : State) : State :=
  let p := s.chg.phase
  let s :=
    if chgCell s = 0 then setPhase 8 s
    else if p = 7 then s
    else if !chgCanRun s then setPhase 0 s
    else if chgSuspended s then
      (if p = 6 then s
       else
         let (q, s) := if 1 ≤ p ∧ p ≤ 5 then (p, s) else choosePhase s
         setPhase 6 (setChg (fun c => { c with kept := q }) s))
    else if p = 6 then setPhase s.chg.kept s
    else if p = 0 ∨ p = 8 then
      (let (q, s) := choosePhase s
       setPhase q s)
    else s
  chgWatch s

/-- The phase is chosen afresh (R287). -/
def chgRestart (s : State) : State :=
  let p := s.chg.phase
  if chgCell s ≠ 0 ∧ 1 ≤ p ∧ p ≤ 6 then
    (let (q, s) := choosePhase s
     chgSettle (if p = 6 then setChg (fun c => { c with kept := q }) s else setPhase q s))
  else chgSettle s

/-- A charger fault clears (R289); the phase is chosen afresh. -/
def chgClearFault (s : State) : State :=
  let s := setChg (fun c => { c with tmrpre := false, tmrfast := false }) s
  chgSettle (if s.chg.phase = 7 then setPhase 0 s else s)

end Sys2Proof.Machine
end

