-- ==== Sys2Proof/Machine/RailOps.lean ====
section
/-! DEFINITION. What the families share about rails and states: switching a rail on and off (R86, R132, R141 to R149),
power-good (R467), reset outputs (R163), the forward and the reverse sequence, restarts (R144), commits that end
(R192, R198, R199), SAFE entry (R204 to R206), system resets (R159) and fall-backs (R446). -/

namespace Sys2Proof.Machine

/-- A rail number as an operand. -/
def railF (r : Nat) : Rail := Fin.ofNat 32 r

/-- An event is armed or waits in the queue. -/
def waiting (e : Instr) (s : State) : Bool := armed e s || s.pending.contains e

/-- Queue a command that is not in the queue yet. -/
def enqueueOnce (e : Instr) (s : State) : State := if s.pending.contains e then s else enqueue e s

/-- Write the masks of the rails. -/
def setRl (f : Rails → Rails) (s : State) : State := { s with rl := f s.rl }
/-- Write the sequencer. -/
def setSeq (f : Seq → Seq) (s : State) : State := { s with seq := f s.seq }

/-- Every rail whose chain of parents reaches a rail of the mask (R145). -/
def depsOf (g : Nat → Byte) (m : Mask) : Mask := maskOf (fun d => decide (ancestors g d &&& m ≠ 0))
/-- Every ancestor of a rail of the mask (R145). -/
def ancOf (g : Nat → Byte) (m : Mask) : Mask := (rails m).foldl (fun a r => a ||| ancestors g r) 0

/-- A rail is held: OFFHOLD or DEPHOLD (R158). -/
def heldRail (s : State) (r : Nat) : Bool := has s.seq.offhold r || decide (ancestors (lv s) r &&& s.seq.offhold ≠ 0)

/-! The command slot's final states (R355). -/

/-- The slot's command ends: STATE 3 done, 4 error, 5 rejected. -/
def slotEnd (st : Nat) (err : Byte) (res : List Byte) (s : State) : State :=
  { s with bus := { s.bus with cstat := st, err := err, cres := res } }

/-! The end of a commit in flight (R198, R199, R201, R202). -/

/-- The eight result bytes of R199. -/
def txnRes (seq result rsn pg ofs rail b6 ang : Byte) : List Byte := [seq, result, rsn, pg, ofs, rail, b6, ang]

/-- What ends a commit: TXNSTAT.RES, reason, page, offset, rail, TXNPRE.KIND, apply-time check. -/
structure CommitEnd where
  res : Nat
  rsn : Byte
  pg : Byte
  ofs : Byte
  rail : Byte
  pre : Nat
  chk : Bool
deriving DecidableEq, Repr

/-- Result byte 1 of R199 from TXNSTAT.RES. -/
def resultByte (res : Nat) : Byte :=
  if res = 4 then 0x10 else if res = 5 then 0x11 else if res = 6 then 0x12 else if res = 7 then 0x13 else 0x00

/-- A command of the transactions is rejected with a reason of R187: REJECTED (R201), and its result bytes. -/
def rejectTxn (rsn : Byte) (cres : List Byte) (s : State) : State := slotEnd 5 rsn cres (raiseG 61 2 s)

/-- End a commit that is not applied: page 0x28, its event, its record, and its slot or that of the abort. -/
def endCommit (c : Commit) (e : CommitEnd) (s : State) : State :=
  let s := disarm .commitDeadline
    { s with txn := { s.txn with cur := none, res := e.res, rsn := e.rsn, epg := e.pg, eofs := e.ofs, erail := e.rail,
                                 pre := e.pre, unlocked := false, applychk := e.chk } }
  let s := logOther 1 0x3FF (BitVec.ofNat 32 (c.seq.toNat + 256 * e.res + 65536 * e.rsn.toNat + 16777216 * e.rail.toNat)) s
  let s := raiseG 61 (if e.res = 5 then 4 else if e.res = 6 then 5 else if e.rsn = 0x11 then 3 else 2) s
  let b6 := BitVec.ofNat 8 (e.chk.toNat + 2 * e.pre)
  let cres := txnRes c.seq (resultByte e.res) e.rsn e.pg e.ofs e.rail b6 0
  if c.slot then slotEnd (if e.res = 4 then 5 else 4) e.rsn cres s
  else if c.abort && decide (s.bus.cstat = 1 ∨ s.bus.cstat = 2) && decide (s.bus.op = 0x11) then
    (if e.res = 6 then slotEnd 3 0 cres s
     else rejectTxn 0x15 (txnRes s.txn.seq 0x10 0x15 0 0 0xFF 0 0) s)
  else s

/-- Register keys of a page in scope (R175): a key's page has its scope bit set. -/
def inScope (scope : Word) (k : Nat) : Bool :=
  match scopeBit (keyPage k) with | some b => scope.getLsbD b | none => false

/-- Keys whose staging byte differs from its live byte. -/
def diffKeys (s : State) : List Nat :=
  ((s.regs.stg.map (·.1)) ++ (s.regs.live.map (·.1))).filter (fun k => decide (sg s k ≠ lv s k))

/-- The rails a register byte belongs to (R177). -/
def keyRails (s : State) (k : Nat) : Mask :=
  let p := keyPage k
  let o := keyOff k
  if p = 0x02 then bit 0
  else if 0x10 ≤ p ∧ p ≤ 0x13 then
    let c := p - 0x10
    bit (if o < 0x18 then 1 + c else if o < 0x28 then 5 + c else if o < 0x38 then 9 + c else if o < 0x48 then 13 + c
         else if o < 0x50 then 17 + c else 21 + c)
  else if p = 0x14 then
    (if o < 0x10 then bit (25 + o)
     else bit (25 + rdBits (lv s) (key 0x14 (0x30 + o % 16)) 0 3) ||| bit (25 + rdBits (sg s) (key 0x14 (0x30 + o % 16)) 0 3))
  else if p = 0x20 ∨ p = 0x21 then bit (o % 32)
  else if p = 0x22 ∧ k ≥ 65536 then bit (keyIdx k)
  else 0

/-- The rails a commit touches (R177). -/
def touched (c : Commit) (s : State) : Mask :=
  ((diffKeys s).filter (inScope c.scope)).foldl (fun m k => m ||| keyRails s k) (c.on ||| c.off)

/-- Pre-empt the commit in flight (R192): kind 1 SAFE, 2 STOP, 3 a set, 4 a retry; a set or retry only where it reaches
a touched rail. -/
def preempt (kind : Nat) (reach : Mask) (s : State) : State :=
  match s.txn.cur with
  | none => s
  | some c =>
    if kind ≤ 2 then endCommit c ⟨5, 0x12, 0, 0, 0xFF, kind, false⟩ s
    else match rails (touched c s &&& reach) with
      | r :: _ => endCommit c ⟨5, 0x12, 0, 0, BitVec.ofNat 8 r, kind, false⟩ s
      | [] => s

/-! Reset outputs (R163). -/

/-- Rails of the map and their ancestors. -/
def mapReach (s : State) (x : Nat) : Mask :=
  let m := rstmap (lv s) x
  m ||| ancOf (lv s) m

/-- The rails that gate an output. -/
def gating (s : State) (x : Nat) : Mask :=
  let m := (rails (rstmap (lv s) x)).foldl (fun a r => if inseq (lv s) r || has s.rl.en r then a ||| bit r else a) 0
  m ||| ancOf (lv s) m

/-- Assert an output. -/
def assertRst (x : Nat) (s : State) : State :=
  disarm (.resetRelease (Fin.ofNat 5 x))
    { s with seq := { s.seq with rst := setBit s.seq.rst x true, rstRun := setBit s.seq.rstRun x false } }

/-- Assert every output. -/
def assertAll (s : State) : State := (List.range 5).foldl (fun s x => assertRst x s) s

/-- Assert the outputs that a switch-off of these rails reaches. -/
def assertFor (m : Mask) (s : State) : State :=
  (List.range 5).foldl (fun s x => if mapReach s x &&& m ≠ 0 then assertRst x s else s) s

/-- An output may be released: release timers run in START, RUN and STANDBY outside the boot (log entry 17). -/
def releasable (s : State) (x : Nat) : Bool :=
  let g := gating s x
  (decide (s.glob.st = .start) || decide (s.glob.st = .run) || decide (s.glob.st = .standby)) && !s.glob.boot &&
  (if g = 0 then s.seq.ended else decide (g &&& s.rl.pg = g))

/-- Start or stop the release timers as the gating rails stand. -/
def settleResets (s : State) : State :=
  (List.range 5).foldl (fun s x =>
    let e : Instr := .resetRelease (Fin.ofNat 5 x)
    if !s.seq.rst.getLsbD x then s
    else if releasable s x then
      (if s.seq.rstRun.getLsbD x then s
       else arm (rststr (lv s) x) e { s with seq := { s.seq with rstRun := setBit s.seq.rstRun x true } })
    else if s.seq.rstRun.getLsbD x then
      disarm e { s with seq := { s.seq with rstRun := setBit s.seq.rstRun x false } }
    else s) s

/-! The host watchdog (R212). -/

/-- Stop the watchdog. -/
def wdStop (s : State) : State := disarm .wdlate { s with safe := { s.safe with wdState := 0 } }
/-- Arm it with its first window. -/
def wdArm (s : State) : State :=
  if (pl s (key 0x24 3)).getLsbD 0 then
    arm (ms (100 * (pl s (key 0x24 4)).toNat)) .wdlate { s with safe := { s.safe with wdState := 1, wdNext := false } }
  else s

/-! A rail's ramp (R72, R86, R111, R121, R127). -/

/-- The soft-start of a rail: no UV is evaluated while it runs, and an output already above the reference is noted (R86).
The reference rises from 0, PRE's from the VMID last measured; above the set voltage it starts, and ends, there (log
entry 13). -/
def startRamp (r : Nat) (s : State) : State :=
  let v1 := vset (lv s) r
  let v0 := if r = 0 then min v1 (20 * (mval s 0).toNat) else 0
  let t := if r = 0 ∧ v1 ≠ 0 then ssTime (lv s) 0 * (v1 - v0) / v1 else ssTime (lv s) r
  let pre := if r = 0 then 0 else 10 * (mval s r).toNat
  arm t (.rampEnd (railF r))
    { s with rl := { s.rl with ss := s.rl.ss ||| bit r, soft := s.rl.soft ||| bit r
                               ramps := mput {} s.rl.ramps r ⟨v0, v1, s.clk.now, s.clk.now + t, pre⟩ } }

/-- A path has completed inrush (R68). -/
def inrushDone (s : State) : Bool := (s.inp.a.closed && s.inp.a.full) || (s.inp.b.closed && s.inp.b.full)

/-- The spare's strike on-time of `dt` is accounted (R92, R225). -/
def accountStrike (c dt : Nat) (s : State) : State :=
  let r := 1 + c
  let p := phOf s r
  if sparepop (lv s) r && (lv s (blk r + 2)).getLsbD 5 then
    (List.range 3).foldl (fun s i =>
      if p.spare.getLsbD i && !p.fail.getLsbD i && !p.retired.getLsbD i then
        (let q : Res := mget {} s.pat.res (3 * c + i)
         { s with pat := { s.pat with res := mput {} s.pat.res (3 * c + i) { q with strk := q.strk + dt } } })
      else s) s
  else s

/-- The strike of MPHc ends, by itself or cut short: its on-time is accounted. -/
def strikeOver (c : Nat) (s : State) : State :=
  if !s.bk.strk.getLsbD c then s
  else
    let full := rdBits (lv s) (blk (1 + c) + 0x0C) 4 4 + 1
    let e : Instr := .strikeEnd (Fin.ofNat 4 c)
    let left := match s.clk.timers.find? (fun t => decide (t.ev = e)) with | some t => t.due - s.clk.now | none => 0
    let s := disarm e (accountStrike c (full - left) s)
    { s with bk := { s.bk with strk := setBit s.bk.strk c false } }

/-- Clear one rail's bits of the state of its block, at its switch-off and at its enable. -/
def clearRail (r : Nat) (s : State) : State :=
  let k := ~~~(bit r)
  let c := ci r
  let s := if rk r = .mph then strikeOver c s else s
  let rl := s.rl
  let s := { s with rl := { rl with pg := rl.pg &&& k, pgd := rl.pgd &&& k, ss := rl.ss &&& k, soft := rl.soft &&& k, hold := rl.hold &&& k,
                                    clim := rl.clim &&& k, ocRun := rl.ocRun &&& k, clamp := rl.clamp &&& k,
                                    slowRun := rl.slowRun &&& k, imbNow := rl.imbNow &&& k, shed := rl.shed &&& k, overlap := rl.overlap &&& k,
                                    qu := rl.qu &&& k, ramps := mput {} rl.ramps r {} } }
  let rf := railF r
  let s := disarmAll (fun e => match e with
    | .starttmo x => decide (x = rf)
    | .rampEnd x => decide (x = rf)
    | .stoptmo x => decide (x = rf)
    | .ocslow x => decide (x = rf)
    | .quenchEnd x _ => decide (x = rf)
    | .railDown x => decide (x = rf)
    | .retryCountClear x => decide (x = rf)
    | .safeHoldEnd x => decide (x = rf)
    | .extpgdly n => decide (25 + n.val = r)
    | .stageEnableDelay x => decide (1 + x.val = r)
    | .strikeEnd x => decide (1 + x.val = r)
    | .brakeEnd x => decide (1 + x.val = r)
    | .blankingEnd x _ _ => decide (1 + x.val = r)
    | .swapOverlapEnd (.phases x) => decide (x.val = r)
    | .swapOverlapEnd (.ldo x) => decide (13 + x.val = r)
    | _ => false) s
  match rk r with
  | .mph => { s with bk := { s.bk with brk := setBit s.bk.brk c false, blkS := setBit s.bk.blkS c false,
                                       blkB := setBit s.bk.blkB c false } }
  | .bka => { s with bk := { s.bk with skip := setBit s.bk.skip (bkIdx r) false } }
  | .bkb => { s with bk := { s.bk with skip := setBit s.bk.skip (bkIdx r) false } }
  | .ldo => setLdo c { ldoOf s c with drop := false } s
  | .lsw => { s with bk := { s.bk with revblk := setBit s.bk.revblk c false } }
  | .pre => { s with inp := { s.inp with gate := false, plim := false } }
  | .gb => s
  | .ext => s

/-- A protective edge inside a quiet window (R54): QBREACH, and that window's BREACH bit of its cycle. -/
def breach (s : State) : State :=
  if s.qt.on then
    raiseG 47 9 { s with qt := if s.qt.curOld then { s.qt with breach := setBit s.qt.breach s.qt.cur true }
                               else { s.qt with brCur := setBit s.qt.brCur s.qt.cur true } }
  else s

/-- Enable a rail: its start timeout runs (R142), a quench in progress ends, its block starts (R68, R86, R111, R164). A buck
whose PVIN is low or whose hot-spot comparator is tripped, and a driver while VMID is low, wait for the release (log entry
13). -/
def enableRail (r : Nat) (s : State) : State :=
  let b := bit r
  let s := clearRail r s
  let s := { s with rl := { s.rl with en := s.rl.en ||| b, up := s.rl.up ||| b }
                    seq := { s.seq with wait := s.seq.wait &&& ~~~b, dly := s.seq.dly &&& ~~~b, joined := s.seq.joined &&& ~~~b } }
  let s := disarm (.railEnable (railF r)) s
  let s := arm (sttmo (lv s) r) (.starttmo (railF r)) s
  let s := match rk r with
    | .pre => if inrushDone s then startRamp 0 s else { s with inp := { s.inp with gate := true } }
    | .mph => arm (us 100) (.stageEnableDelay (Fin.ofNat 4 (ci r))) { s with rl := { s.rl with ss := s.rl.ss ||| b } }
    | .bka => if stopped s r then s else startRamp r s
    | .bkb => if stopped s r then s else startRamp r s
    | .ldo => startRamp r s
    | .lsw => { s with rl := { s.rl with ss := s.rl.ss ||| b } }
    | .gb => if stopped s r then s else startRamp r s
    | .ext => if (monsOf (lv s) (ci r)).isEmpty then arm (extPgDly (lv s) (ci r)) (.extpgdly (Fin.ofNat 7 (ci r))) s else s
  settleResets s

/-- Switch a rail off, with or without quench (R132). A GB rail without sense is down at once (R148); an EXT rail
without MON inputs is down EXTPGDLY later. A start timeout that has expired in the same step, and whose reaction the step has not
taken, is noted, whatever switches the rail off: it is still raised, and its reaction follows (DESIGN CHOICE where no set of R155
switched the rail off, log entry 20). -/
def switchOff (q : Bool) (r : Nat) (s : State) : State :=
  if !has s.rl.en r then s
  else
    let b := bit r
    let late := !has s.rl.pgd r && s.pending.contains (.starttmo (railF r)) && !has s.seq.taken r
    let s := clearRail r (if q then breach s else s)
    let gone := decide (rk r = .gb) && !snsen (lv s) (ci r)
    let s := { s with rl := { s.rl with en := s.rl.en &&& ~~~b, up := if gone then s.rl.up &&& ~~~b else s.rl.up
                                        qu := if q && !gone then s.rl.qu ||| b else s.rl.qu }
                      seq := { s.seq with joined := if late then s.seq.joined ||| b else s.seq.joined, offWait := s.seq.offWait &&& ~~~b, offDly := s.seq.offDly &&& ~~~b }
                      safe := { s.safe with held := s.safe.held &&& ~~~b } }
    let s := disarm (.railOffDelay (railF r)) s
    if gone then s
    else
      let s := if decide (rk r = .ext) && (monsOf (lv s) (ci r)).isEmpty then arm (extPgDly (lv s) (ci r)) (.railDown (railF r)) s else s
      let s := if r = 0 then chgSettle (disarm (.chargerHoldoffEnd none) s) else s
      if q then arm (if r = 0 then ms 100 else ms 10) (.quenchEnd (railF r) true) s
      else arm (stoptmoLen (lv s)) (.stoptmo (railF r)) s

/-- Whether a rail has UV and OV checks: GB with SNSEN, EXT with an enabled MON input (R125, R128, R164). -/
def supervised (s : State) (r : Nat) : Bool :=
  match rk r with
  | .gb => snsen (lv s) (ci r)
  | .ext => !(monsOf (lv s) (ci r)).isEmpty
  | _ => true

/-- The output of a rail has met its condition of R148: it lies below its UV level, as do the MON inputs of an EXT rail (R164,
R377). -/
def outputDown (r : Nat) (s : State) : State :=
  let m : Word := if rk r = .ext then monMask s r else 0
  { s with rl := { s.rl with ovNow := s.rl.ovNow &&& ~~~(bit r), uvNow := if supervised s r then s.rl.uvNow ||| bit r else s.rl.uvNow }
           seq := { s.seq with monok := s.seq.monok &&& ~~~m, monhi := s.seq.monhi &&& ~~~m } }

/-- The rail counts as down (R148, R149). -/
def markDown (r : Nat) (s : State) : State :=
  let rf := railF r
  let s := disarm (.quenchEnd rf true) (disarm (.stoptmo rf) (disarm (.railDown rf) s))
  { s with rl := { s.rl with up := s.rl.up &&& ~~~(bit r), qu := s.rl.qu &&& ~~~(bit r) } }

/-! Fall-back of a trial (R446). -/

/-- The slot that a trial falls back to: a session without firmware part tries the booted slot itself. -/
def prevSlot (u : Upd) : Bool := if (u.man.map (·.fw)).getD true then !u.bootedB else u.bootedB

/-- The trial falls back; the firmware island restarts into the previous slot. Its journal entry, FALLBACK and, with a
configuration part, the reset follow once the firmware runs. -/
def fallbackMark (restart : Bool) (s : State) : State :=
  disarm .ttrialExpire (disarm .tconfExpire
    { s with upd := { s.upd with bootedB := prevSlot s.upd, nextB := prevSlot s.upd, fell := true, confEnd := none,
                                 trialflt := s.upd.trialflt || restart } })

/-- The engine's own restart: UPDRST is set (R444); FALLBACK, its snapshot's source (log entry 38), is raised once the firmware
runs. -/
def fallback (s : State) : State :=
  if s.upd.st = 5 ∧ !s.upd.fell then causedRestart 8 (16 * 55 + 9) (fallbackMark false s) else s

/-! Sleep requests (R331, R332). -/

/-- The command behind a sleep request ends with CRES byte 0 (R331, R332). -/
def slpCommandEnd (code : Byte) (s : State) : State :=
  if s.bus.cstat = 2 ∧ (s.bus.op = 0xB0 ∨ s.bus.op = 0xB1) then slotEnd 3 0 [code] s else s

/-- A check finds the latch of an enabled source set: the request ends as ABORTED_WAKE. -/
def abortSleep (s : State) : State :=
  raiseG 62 3 (slpCommandEnd 0x01 { s with pwr := { s.pwr with req := none, lastslp := 2 } })

/-! Starting, and what follows from conditions (R141, R143, R151, R325, R327). -/

/-- The start conditions (R325). -/
def startOk (s : State) : Bool := !s.pwr.held && (s.inp.a.qual || s.inp.b.qual)

/-- A restart of a set (R144), in the tick in force (R140). -/
def restartSet (m : Mask) (s : State) : State :=
  let rs := rails m
  let lo := rs.foldl (fun n r => min n (onDly (lv s) r)) 255
  let t := tickLen (match s.seq.t0 with | some _ => s.seq.tick | none => tickCode (lv s))
  let s := { s with seq := { s.seq with wait := s.seq.wait ||| m, dly := s.seq.dly &&& ~~~m } }
  rs.foldl (fun s r => arm ((onDly (lv s) r - lo) * t) (.railEnable (railF r)) s) s

/-- Rails with a policy other than KEEP that are not yet down (R205, R208). -/
def safePending (s : State) : Mask := (rails s.rl.up).foldl (fun m r => if safePol (lv s) r = 0 then m else m ||| bit r) 0

/-- The forward sequence ends once every INSEQ rail is power-good or held (R143); an incomplete end is a fall-back cause
of a trial (R446). -/
def fwdCheck (s : State) : State :=
  let ins := maskOf (inseq (lv s))
  if s.seq.fwd ∧ s.glob.st = .start ∧ !s.glob.boot ∧ (rails ins).all (fun r => has s.rl.pg r || heldRail s r) then
    let full := decide (ins &&& s.rl.pg = ins)
    let s := enterState .run { s with seq := { s.seq with phase := if full then 2 else 3, fwd := false, ended := true } }
    if full then
      (match s.upd.man with
       | some m => if s.upd.st = 5 ∧ m.autoconf then
           arm (sec m.tconf) .tconfExpire { s with upd := { s.upd with confEnd := some (s.clk.op + sec m.tconf) } } else s
       | none => s)
    else fallback s
  else s

/-- A rail may be enabled now (R141, R144, R158, R160). -/
def mayEnable (s : State) (r : Nat) : Bool :=
  has s.seq.wait r && has s.seq.dly r && !has s.rl.en r && !heldRail s r &&
  decide (parents (lv s) r &&& s.rl.pg = parents (lv s) r) && !s.glob.boot &&
  (decide (s.glob.st = .start) || decide (s.glob.st = .run) || decide (s.glob.st = .standby))

/-- A rail may be switched off now by the reverse sequence or a SAFE policy (R147, R206). -/
def mayDrop (s : State) (r : Nat) : Bool :=
  has s.seq.offWait r && has s.seq.offDly r && has s.rl.en r && decide (dependants (lv s) r &&& s.rl.up = 0)

/-- The reverse sequence has ended (R147, R151, R159, R332): idle after SEQ_STOP, else the wait of MINOFF for a restart. -/
def stopEnd (s : State) : State :=
  match s.glob.pendRst with
  | some c => systemReset c { s with glob := { s.glob with minoffAfterBoot := true } }
  | none =>
    if s.pwr.req.isSome ∧ !wakeDue s then
      grant { s with seq := { s.seq with phase := 0 }, pwr := { s.pwr with req := s.pwr.req.map (fun q => { q with prep := true }) },
                     fl := { s.fl with wantGau := if s.gau.off then s.fl.wantGau else max 1 s.fl.wantGau, wantLog := !s.fl.queue.isEmpty } }
    else
      let s := if s.pwr.req.isSome then abortSleep s else s
      arm (minoff (lv s)) .minoffEnd { s with seq := { s.seq with phase := if s.pwr.held then 0 else 5 } }

/-- Waiting rails whose conditions now hold are enabled (R141). -/
def settleOn (s : State) : State :=
  (rails s.seq.wait).foldl (fun s r => if mayEnable s r then enqueueOnce (.railEnable (railF r)) s else s) s

/-- Rails whose switch-off is now due go off (R147, R206). -/
def settleOff (s : State) : State :=
  (rails s.seq.offWait).foldl (fun s r => if mayDrop s r then enqueueOnce (.railOffDelay (railF r)) s else s) s

/-- The spacing of one retry starts once the rail and its dependants are down (R156). -/
def settleRetry (s : State) (r : Nat) : State :=
  if decide ((dependants (lv s) r ||| bit r) &&& s.rl.up = 0) && !waiting (.retrySpaceEnd (railF r)) s
  then arm (rxSpace (lv s) r) (.retrySpaceEnd (railF r)) s else s

/-- In SAFE: SEQSTAT.PHASE, and MINOFF once an accepted exit finds every policy rail down (R205, R208). -/
def settleSafe (s : State) : State :=
  let p := safePending s
  let s := setSeq (fun q => { q with phase := if p = 0 then 0 else 4 }) s
  if s.safe.exit && decide (p = 0) && !s.safe.waited && !waiting .minoffEnd s then arm (minoff (lv s)) .minoffEnd s else s

/-- What follows from rails having become power-good or down: enables and switch-offs that are now due, retry spacings
(R156), the ends of the forward and reverse sequences and of the SAFE policies (R205, R208). -/
def settle (s : State) : State :=
  let s := settleOff (settleOn (settleResets (fwdCheck s)))
  let s := (rails s.seq.retryWait).foldl settleRetry s
  if s.glob.st = .safe then settleSafe s
  else if s.glob.st = .stop ∧ s.seq.phase = 4 ∧ s.rl.up = 0 then stopEnd s
  else s

/-! The Floor table in force (R424). -/

/-- The registers of one rail that the Floor table lists (R173, R423, R424). R423 and R424 have PRE take NPH and SPAREPOP from its entry, R80
keeps PRECFG at its reset value: which of the two a device does is free (log entry 22). -/
def floorRail (e : FloorEnt) (s : State) : State :=
  let r := e.rail
  let g := lv s
  let rx3 := by8 (e.rxc + 8 * e.rxc)
  let s := putLive (key 0x20 r) [by8 e.on] (putLive (key 0x20 (0x20 + r)) [by8 e.off] (putLive (key 0x20 (0x40 + r)) [0x05] s))
  let s := putLive (key 0x21 r) [match e.parent with | some p => by8 (0x80 + p) | none => 0] s
  let s := putLive (rx r 0) [rx3, rx3, rx3] s
  let s := if r < 17 then putLive (blk r) [by8 e.vset] s else s
  if r < 5 ∧ (r ≠ 0 ∨ Config.floorSetsPrecfg) then putLive (blk r + 2) [putBits (putBits (g (blk r + 2)) 0 2 (if e.two then 2 else 1)) 2 1 e.spare.toNat] s else s

/-- The Floor table's values enter the live registers; an empty table enables no rail. -/
def floorLoad (s : State) : State :=
  let es := floorTable s.otp.shd
  let h := (fuse s.otp.shd 5 0).toNat
  let m := fuse s.otp.shd 5 1
  if es.isEmpty then s
  else es.foldl (fun s e => floorRail e s)
    (putLive (key 0x22 0x10) [by8 (h / 16 % 4 + 4 * (h / 64 % 2)), if m = 0 then 50 else m] s)

/-- Floor mode that was entered while the device ran takes the Floor table at its next common start: every live register of the
power path at its reset value but for the table's (R24, R424, log entry 22). -/
def floorTake (s : State) : State :=
  if s.glob.floor && !s.glob.floorTab then
    floorLoad (loadHLive { s with glob := { s.glob with floorTab := true }, regs := { s.regs with live := [] } })
  else s

/-- The common start (R141): entry to START, holds and retry counters cleared (R157, R158), every output asserted, the
charger's phase chosen afresh (R287). What already holds follows at once: a sequence with nothing to start ends (R143), and
an output whose gating rails are power-good has its release timer run (R163). -/
def commonStart (s : State) : State :=
  let s := enterState .start (floorTake { s with pwr := { s.pwr with idle := false, fromRun := false } })
  let s := disarm .idleslp (disarm .minoffEnd s)
  let kept := if s.ds.recheck then s.ds.cutSet &&& s.seq.wait else 0
  let w := maskOf (fun r => (inseq (lv s) r || has kept r) && !has s.rl.en r)
  let s := { s with seq := { s.seq with phase := 1, tick := tickCode (lv s), t0 := some s.clk.now, offhold := 0,
                                        retryWait := 0, rset := [], retries := [], wait := w, dly := 0, offWait := 0,
                                        offDly := 0, fwd := true, ended := false, complete := false } }
  let t := tickLen s.seq.tick
  let s := (rails w).foldl (fun s r => arm (onDly (lv s) r * t) (.railEnable (railF r)) s) s
  settle (assertAll (chgRestart s))

/-- IDLESLP runs in idle STANDBY while no path is qualified (R327); `again` starts it afresh. -/
def idleWatch (again : Bool) (s : State) : State :=
  let n := (pl s (key 0x60 1)).toNat
  if s.glob.st = .standby ∧ s.pwr.idle ∧ s.pwr.req = none ∧ n ≠ 0 ∧ !s.inp.a.qual ∧ !s.inp.b.qual then
    (if armed .idleslp s && !again then s else arm (sec (10 * n)) .idleslp s)
  else disarm .idleslp s

/-- Idle STANDBY (R326, R327). -/
def idleStandby (s : State) : State :=
  idleWatch true (enterState .standby { s with pwr := { s.pwr with idle := true, fromRun := false }
                                               seq := { s.seq with phase := 0 } })

/-- After a STOP, or a boot: START, idle STANDBY, or in Floor mode the wait in STOP (R326, R327). -/
def decideStart (s : State) : State :=
  if startOk s then commonStart s
  else if s.glob.floor then
    (let s := enterState .stop { s with pwr := { s.pwr with idle := false } }
     { s with seq := { s.seq with phase := 5 } })
  else idleStandby s

/-- SAFE ends (R208): SAFECAUSE clears, SAFEEXIT, the common start. -/
def leaveSafe (s : State) : State :=
  commonStart (raiseG 59 1 (disarmAll (fun e => match e with | .safeHoldEnd _ => true | .railOffDelay _ => true | _ => false)
    { s with safe := { s.safe with cause := 0, first := 0, exit := false, waited := false, held := 0 }
             seq := { s.seq with offWait := 0, offDly := 0 } }))

/-- START follows as soon as the start conditions hold in a state that waits for them (R208, R327). -/
def startCheck (s : State) : State :=
  if s.glob.boot ∨ !startOk s then s
  else if s.glob.st = .standby ∧ s.pwr.idle ∧ s.pwr.req = none then commonStart s
  else if s.glob.st = .stop ∧ s.seq.phase = 5 ∧ s.glob.floor ∧ !waiting .minoffEnd s then commonStart s
  else if s.glob.st = .safe ∧ s.safe.exit ∧ safePending s = 0 ∧ s.safe.waited then leaveSafe s
  else s

/-- Power-good (R467): the start timeout ends, the 10 s of R157 run, the charger's hold-off starts with rail 0 (R294). -/
def becomePg (r : Nat) (s : State) : State :=
  let s := { s with rl := { s.rl with pg := s.rl.pg ||| bit r, pgd := s.rl.pgd ||| bit r } }
  let s := disarm (.starttmo (railF r)) (disarm (.extpgdly (Fin.ofNat 7 (r - 25))) s)
  let s := arm (sec 10) (.retryCountClear (railF r)) s
  let s := if r ≠ 0 then s else if s.chg.holdoff then arm (ms 300) (.chargerHoldoffEnd none) s else chgSettle s
  let s := if s.ds.recheck ∧ s.ds.cutSet &&& s.rl.pg = s.ds.cutSet then
             { s with ds := { s.ds with recheck := false, clearing := if s.ds.failed then 2 else s.ds.clearing } } else s
  settle s

/-- A power-good rail loses power-good (R467). -/
def losePg (r : Nat) (s : State) : State :=
  if has s.rl.pg r then
    (let s := disarm (.retryCountClear (railF r)) { s with rl := { s.rl with pg := s.rl.pg &&& ~~~(bit r) } }
     let s := if r = 0 then chgSettle (disarm (.chargerHoldoffEnd none) s) else s
     settleResets (raiseG r 4 s))
  else s

/-! The reverse sequence (R147, R150). -/

/-- The common stop: entry to STOP. -/
def commonStop (complete : Bool) (s : State) : State :=
  let s := enterState .stop { s with pwr := { s.pwr with idle := false, fromRun := false } }
  let s := disarmAll (fun e => match e with
    | .railEnable _ => true
    | .retrySpaceEnd _ => true
    | .minoffEnd => true
    | .idleslp => true
    | .tconfExpire => true
    | _ => false) s
  let s := wdStop (assertAll (preempt 2 0 s))
  let gone := ~~~s.seq.retryWait
  let s := { s with rl := { s.rl with up := s.rl.up &&& (gone ||| s.rl.en) }
                    seq := { s.seq with phase := 4, resumed := false, tick := tickCode (lv s), t0 := some s.clk.now, wait := 0,
                                        dly := 0, retryWait := 0, rset := [], offWait := s.rl.en, offDly := 0,
                                        wasOn := s.rl.en, fwd := false, complete := complete }
                    upd := { s.upd with confEnd := none } }
  let t := tickLen s.seq.tick
  let s := (rails s.rl.en).foldl (fun s r => arm (offDly (lv s) r * t) (.railOffDelay (railF r)) s) s
  settle s

/-- RESUME halts STOP (R150): the state is START again without a common start (log entry 16). -/
def resume (s : State) : State :=
  let back := maskOf (fun r => has s.seq.wasOn r && !has s.rl.en r && !heldRail s r)
  let s := disarmAll (fun e => match e with | .railOffDelay _ => true | _ => false) s
  let s := enterState .start { s with seq := { s.seq with phase := 1, resumed := true, offWait := 0, offDly := 0, fwd := true,
                                                          ended := false } }
  settle (restartSet back (chgRestart s))

/-- A system reset is wanted (R159): the reverse sequence runs to its end under COMPLETE first, where one can run. -/
def requestReset (c : RstCause) (s : State) : State :=
  let s := { s with glob := { s.glob with rstcause := setBit s.glob.rstcause (rstBit c) true }
                    pwr := { s.pwr with req := none } }
  if s.glob.boot ∨ s.glob.st = .safe then systemReset c { s with glob := { s.glob with minoffAfterBoot := true } }
  else if s.glob.st = .stop then
    (let s := { s with glob := { s.glob with pendRst := some c }, seq := { s.seq with complete := true } }
     if s.seq.phase = 4 then settle s else stopEnd s)
  else commonStop true { s with glob := { s.glob with pendRst := some c } }

/-- The first sector of the bank that the session's configuration part was written to is erased, unless a save has replaced that
bank since or the partition is read-only. -/
def eraseCfgPart (s : State) : State :=
  let n := if s.upd.cfgNew = 2 then 196 else 192
  if s.upd.cfgNew = 3 ∨ readOnly n s then s
  else
    let (got, s) := landNow n none s
    if got then dropBank n s else s

/-- Fallen back: FALLBACK, and the end of the new configuration bank with the reset that follows (R446). -/
def fellEnd (s : State) : State :=
  let s := raiseG 55 9 (logUpdate { s with upd := { s.upd with jact := .none } })
  if s.upd.cfgNew = 0 then s
  else
    let s := eraseCfgPart s
    requestReset .upd { s with upd := { s.upd with cfgNew := 0 } }

/-- The journal says fell back. -/
def fellDone (s : State) : State :=
  fellEnd { s with upd := writeJournal { s.upd with st := 7, fell := false, man := none, want := none } }

/-- The engine's part of a fall-back, once the firmware runs: the journal is to be written as fell back (R446). A read-only journal
stays as it is (R398). -/
def fellBack (s : State) : State :=
  if readOnly 206 s then fellEnd { s with upd := { s.upd with st := 7, fell := false, man := none } }
  else grant { s with upd := { s.upd with want := some .journal, jact := .fell } }

/-! Switch-off of a set, and reactions (R146, R153 to R161, R207). -/

/-- Switch off a set and its dependants in one step (R146, R155): outputs asserted, DEPOFF for enabled dependants but
those in `quiet`. -/
def switchOffSet (named quiet : Mask) (s : State) : State :=
  let d := depsOf (lv s) named
  let all := named ||| d
  let dep := d &&& s.rl.en &&& ~~~quiet
  let s := assertFor all s
  let s := (rails (all &&& s.rl.en)).foldl (fun s r => switchOff (quenchAttr (lv s) r) r s) s
  (rails dep).foldl (fun s r => raiseG r 12 s) s

/-- Rails that can be members of a set (R153): enabled, in their retry wait, or waiting to be enabled, be it by the restart
that ends another rail's retry wait or the cut of its downstream bus (R367). -/
def alive (s : State) (r : Nat) : Bool :=
  has s.rl.en r || has s.seq.retryWait r || has s.seq.wait r ||
  (rails s.seq.retryWait).any (fun q => has (mget 0 s.seq.rset q) r) || (s.ds.cut && has s.ds.cutSet r)

/-- The members of an OFF, CHANNEL or GROUP set (R153); `self`: the rail's own protection switched it off in this step
(R154). -/
def members (s : State) (r code : Nat) (self : Bool) : Mask :=
  (if self || alive s r then bit r else 0) |||
  (if code = 3 ∧ 1 ≤ r ∧ r ≤ 24 then maskOf (fun x => inChan x (ci r) && alive s x)
   else if code = 4 then maskOf (fun x => decide (Nat.land (grp (lv s) x) (grp (lv s) r) ≠ 0) && alive s x)
   else 0)

/-- Cancel what waits on the rails of a mask (R160). -/
def cancelPending (m : Mask) (s : State) : State :=
  (rails m).foldl (fun s r => disarm (.railEnable (railF r)) (disarm (.retrySpaceEnd (railF r)) s))
    { s with ds := if s.ds.cut then { s.ds with cutSet := s.ds.cutSet &&& ~~~m } else s.ds
             seq := { s.seq with wait := s.seq.wait &&& ~~~m, dly := s.seq.dly &&& ~~~m, retryWait := s.seq.retryWait &&& ~~~m
                                 rset := s.seq.rset.filterMap (fun (q, x) => if x &&& ~~~m = 0 then none else some (q, x &&& ~~~m)) } }

/-- Switch off the union of the sets of OFF, CHANNEL and GROUP that one step reaches (R155, R160); in SAFE it ends the keep or
hold of every enabled rail it reaches (R207). -/
def setOff (m : Mask) (s : State) : State :=
  let all := m ||| depsOf (lv s) m
  let kept := (rails (all &&& s.rl.en)).any (fun x => decide (safePol (lv s) x = 0) || has s.safe.held x)
  let s := raiseIf (decide (s.glob.st = .safe) && kept) (16 * 59 + 12) s
  let s := cancelPending all (preempt 3 all s)
  let s := if (rails (all &&& s.rl.en)).any (fun x => !quenchAttr (lv s) x) then breach s else s
  let s := switchOffSet m 0 s
  settle { s with seq := { s.seq with offhold := s.seq.offhold ||| m } }

/-- Carry out RETRY (R156); during STOP the rail is not re-enabled (R161). A rail that was off and waits for nothing, whose
protection selects RETRY, is restarted as well once RXSPACE ends (DESIGN CHOICE, log entry 20). -/
def reactRetry (r : Nat) (s : State) : State :=
  let d := dependants (lv s) r
  let all := bit r ||| d
  let back := bit r ||| (d &&& (s.rl.en ||| s.seq.wait))
  let s := preempt 4 all s
  let s := { s with seq := { s.seq with retries := mput 0 s.seq.retries r (mget 0 s.seq.retries r + 1) } }
  let stop := decide (s.glob.st = .stop)
  let s := { s with seq := { s.seq with wait := s.seq.wait &&& ~~~back, dly := s.seq.dly &&& ~~~back } }
  let s := (rails back).foldl (fun s x => disarm (.railEnable (railF x)) s) s
  let s := if (rails (all &&& s.rl.en)).any (fun x => !quenchAttr (lv s) x) then breach s else s
  let s := switchOffSet (bit r) 0 s
  settle (if stop then s
          else { s with seq := { s.seq with retryWait := s.seq.retryWait ||| bit r, rset := mput 0 s.seq.rset r back } })

/-- LASTRX and the capture of a reaction (R166, R228). -/
def noteReaction (r code kind src : Nat) (s : State) : State :=
  let s := if has s.rl.pg r then arm (sec 10) (.retryCountClear (railF r)) s else disarm (.retryCountClear (railF r)) s
  snapshot 1 src { s with seq := { s.seq with lastRail := r, lastCode := code, lastKind := kind } }

/-! SAFE (R204 to R207). -/

/-- Apply the policies of the enabled rails at SAFE entry (R206); ORDER's delays count in the tick in force (R140). -/
def safePolicies (s : State) : State :=
  let t := tickLen (match s.seq.t0 with | some _ => s.seq.tick | none => tickCode (lv s))
  (rails s.rl.en).foldl (fun s r =>
    let p := safePol (lv s) r
    let b := bit r
    let h := safeHold (lv s) r
    if p = 0 then s
    else if p = 1 then switchOff true r s
    else if p = 2 ∧ h = 0 then { s with seq := { s.seq with offWait := s.seq.offWait ||| b, offDly := s.seq.offDly ||| b } }
    else if p = 2 then arm h (.safeHoldEnd (railF r)) { s with safe := { s.safe with held := s.safe.held ||| b } }
    else arm (offDly (lv s) r * t) (.railOffDelay (railF r)) { s with seq := { s.seq with offWait := s.seq.offWait ||| b } }) s

/-- S2 opens and S2REQ is cleared at SAFE entry, in Floor mode too (R271); a swap to supply will end in receive role (R279). -/
def safeOpen (s : State) : State :=
  let k := key 0x40 0x68
  let s := raiseIf s.plt.s2 (16 * 48 + 6) s
  raiseG 49 6 (putPlain k [pl s k &&& 0xFE]
    { s with plt := { s.plt with s2 := false, swap := s.plt.swap.map (fun _ => false) } })

/-- A cause of R204, raised by source `src`: SAFE is entered, or the cause adds its bit and an exit under way is cancelled
(R208). -/
def enterSafe (b src : Nat) (s : State) : State :=
  if s.glob.st = .safe then
    disarm .minoffEnd { s with safe := { s.safe with cause := setBit s.safe.cause b true, exit := false, waited := false } }
  else if s.glob.st = .sleep ∨ s.glob.st = .ship then s
  else
    let s := { s with safe := { s.safe with cause := setBit 0 b true, first := b + 1, exit := false, waited := false, held := 0 } }
    let s := preempt 1 0 s
    let s := if s.pwr.req.isSome then slpCommandEnd 0x02 { s with pwr := { s.pwr with req := none } } else s
    let s := enterState .safe { s with glob := { s.glob with pendRst := none }, pwr := { s.pwr with idle := false, fromRun := false } }
    let s := disarmAll (fun e => match e with
      | .railEnable _ => true
      | .railOffDelay _ => true
      | .retrySpaceEnd _ => true
      | .minoffEnd => true
      | .idleslp => true
      | .tconfExpire => true
      | _ => false) s
    let s := { s with seq := { s.seq with wait := 0, dly := 0, retryWait := 0, rset := [], offWait := 0, offDly := 0,
                                          fwd := false, ended := false }
                      upd := { s.upd with confEnd := none } }
    let s := snapshot 2 src (raiseG 59 0 (wdStop (assertAll s)))
    let s := safePolicies (safeOpen s)
    let s := settle s
    if b = 2 then fallback s else s

/-- A fault that selects a reaction: rail, `kind` as in LASTRX2, source of the event, whether the rail was on before it, and
whether its own protection has switched it off (R154). -/
structure Rx where
  r : Nat
  kind : Nat
  src : Nat
  on : Bool
  self : Bool
deriving DecidableEq, Repr

/-- The code selected, IGNORE as OFF for a rail that its own protection has switched off (R154), and whether a RETRY finds
the retries used up outside SAFE (R156). -/
def rxSelect (s : State) (x : Rx) : Nat × Bool :=
  let code0 := rxCode (lv s) x.r x.kind
  let code := if code0 = 0 ∧ x.self then 2 else code0
  (code, decide (code = 1 ∧ s.glob.st ≠ .safe ∧ rxCount (lv s) x.r ≤ mget 0 s.seq.retries x.r))

/-- What a selected reaction carries out as the state stands: its code after escalation and R207's mapping, and whether RETRYX
is raised; nothing for IGNORE, for a rail that is off in SAFE, and for OFF, CHANNEL, GROUP or RETRY of a held rail or of one
in its retry wait (R161). A code SAFE in SAFE acts as OFF as R207 says, and is no cause that R204 would add: no RAILRX, and an
accepted exit goes on (DESIGN CHOICE, log entry 20). -/
def rxAct (s : State) (x : Rx) : Option (Nat × Bool) :=
  let (code1, spent) := rxSelect s x
  let safe := decide (s.glob.st = .safe)
  let idle := heldRail s x.r || has s.seq.retryWait x.r
  if code1 = 0 then none
  else if safe && !(has s.rl.en x.r || (x.self && x.on)) then none
  else if !safe && idle && decide (code1 ≠ 5) && decide (code1 ≠ 6) then none
  else
    let code := if spent then rxEsc (lv s) x.r else code1
    some (if safe ∧ (code = 1 ∨ code = 5 ∨ code = 6) then 2 else code, spent)

/-- RETRYX, LASTRX and the capture of a reaction that is carried out (R156, R166, R228). -/
def rxNote (x : Rx) (code : Nat) (spent : Bool) (s : State) : State :=
  noteReaction x.r code x.kind x.src (raiseIf spent (16 * x.r + 11) s)

/-- The reaction to a fault (R152 to R161, R207). -/
def reactTo (x : Rx) (s : State) : State :=
  match rxAct s x with
  | none => s
  | some (code, spent) =>
    let s := rxNote x code spent s
    if code = 6 then enterSafe 6 x.src s
    else if code = 5 then requestReset .rail s
    else if code = 1 then reactRetry x.r s
    else setOff (members s x.r code x.self) s

/-- Rank of a reaction as the state stands (R160): SAFE, system reset, switch-off of a set, retry, no effect. -/
def rxRank (s : State) (x : Rx) : Nat :=
  match rxAct s x with
  | some (code, _) => if code = 6 then 0 else if code = 5 then 1 else if code = 1 then 3 else 2
  | none => 4

/-- Several reactions of one step that switch sets off: every set is taken as the state stands before any of them, and their
union goes off at once (R160). -/
def reactSets (l : List Rx) (s : State) : State :=
  let act := fun (x : Rx) => match rxAct s x with | some a => a | none => (2, false)
  let m := l.foldl (fun m x => m ||| members s x.r (act x).1 x.self) 0
  if l.isEmpty then s else setOff m (l.foldl (fun s x => rxNote x (act x).1 (act x).2 s) s)

/-- The rails that the sets of these reactions switch off, with their dependants. -/
def reached (l : List Rx) (s : State) : Mask :=
  let m := (l.filter (fun x => decide (rxRank s x = 2))).foldl
    (fun m x => m ||| members s x.r (match rxAct s x with | some a => a.1 | none => 2) x.self) 0
  m ||| depsOf (lv s) m

/-- The start timeout of a rail that is on expires in the step under way. -/
def startLate (s : State) (r : Nat) : Bool :=
  has s.rl.en r && !has s.rl.pgd r && s.pending.contains (.starttmo (railF r))

/-- The reactions of a step with those of the start timeouts that expire in it on rails that its sets reach; a RETRY or IGNORE among
them has no further effect (R161). -/
def startsJoin : Nat → State → List Rx → List Rx
  | 0, _, l => l
  | n + 1, s, l =>
    let new := (rails (reached l s)).filter (fun r =>
      startLate s r && decide (2 ≤ rxCode (lv s) r 4) && !l.any (fun x => decide (x.r = r ∧ x.kind = 4)))
    if new.isEmpty then l else startsJoin n s (l ++ new.map (fun r => ⟨r, 4, 16 * r + 5, true, false⟩))

/-- Start timeouts that join a step are raised now, and their own events have no further effect. -/
def takeStarts (l : List Rx) (s : State) : State :=
  l.foldl (fun s x => raise x.src { s with seq := { s.seq with taken := s.seq.taken ||| bit x.r } }) s

/-- Reactions of several rails in one step (R160), with those of the start timeouts that join it: the highest-ranked first, the others
on what it leaves. Once SAFE is entered every other one is a set, and only on a rail still on (R161, R207). -/
def reactAll (given : List Rx) (s : State) : State :=
  let l := if s.pending.any (fun e => match e with | .starttmo _ => true | _ => false) then startsJoin 32 s given else given
  let s := takeStarts (l.drop given.length) s
  let first := l.find? (fun x => decide (rxRank s x = 0))
  let l := match first with | some y => l.filter (fun x => decide (x ≠ y)) | none => l
  let s := match first with | some y => reactTo y s | none => s
  let s := (l.filter (fun x => decide (rxRank s x = 1))).foldl (fun s x => reactTo x s) s
  let retry := l.filter (fun x => decide (rxRank s x = 3))
  let s := reactSets (l.filter (fun x => decide (rxRank s x = 2))) s
  retry.foldl (fun s x => reactTo x s) s

/-- The reaction to a fault of one rail. -/
def react (r kind src : Nat) (on self : Bool) (s : State) : State := reactAll [⟨r, kind, src, on, self⟩] s

/-- A rail's own protection turns it off at once, without quench (R117, R125, R154): rank 3, so it pre-empts a commit as a set
does (R160, R192), and an edge that no quiet window holds back (R54). -/
def ownOff (r : Nat) (s : State) : State :=
  switchOff false r (breach (preempt 3 (bit r ||| depsOf (lv s) (bit r)) s))

/-! Wake (R327, R334). -/

/-- WAKEWHY of a latch (R337). -/
def wakeWhy (k : Nat) : Nat :=
  if k = 0 then 1 else if k = 1 then 2 else if k = 2 then 3 else if k = 3 then 4 else if k = 4 then 5
  else if k = 5 ∨ k = 6 then 6 else 7

/-- A set latch of an enabled source acts in STANDBY entered from RUN and in SLEEP. -/
def wakeCheck (s : State) : State :=
  if !wakeDue s then s
  else if s.glob.st = .standby ∧ s.pwr.fromRun then wdArm (enterState .run { s with pwr := { s.pwr with fromRun := false } })
  else if s.glob.st = .sleep then
    let why := match (List.range 64).find? (fun k => s.pwr.wl.getLsbD k && wakeEn s k) with | some k => wakeWhy k | none => 0
    bootStart (.wake false) { s with pwr := { s.pwr with why := why } }
  else s

/-- Raise a source and act on its wake latch. -/
def raiseW (src : Nat) (s : State) : State := wakeCheck (raise src s)

end Sys2Proof.Machine
end

