-- ==== Sys2Proof/Machine/Global.lean ====
section
/-! DEFINITION. Supplies, resets by key, page 0x00's commands (01_architecture.md), and when the host bus is answered
(R17, R19, R22, R25, R27). -/

namespace Sys2Proof.Machine

/-! When the bus is answered. -/

/-- The full register set is answered: the firmware island runs, or Floor mode (R17, R22, R25). -/
def busUp (s : State) : Bool := anvilOn s && (s.glob.floor || (s.glob.fwup && !s.glob.restarting))

/-- The device serves as the sleep-rate responder: in SLEEP, and after it until the full register set answers (R335). -/
def responder (s : State) : Bool :=
  vaonOn s && (decide (s.glob.st = .sleep) || (!busUp s && s.glob.boot && decide (s.pwr.woke = some false)))

/-- Another register write cancels the key sequence (R27). -/
def cancelKey (s : State) : State :=
  disarm .rstkeyCancel { s with glob := { s.glob with keyArmed := false } }

/-- The last access was not acknowledged. -/
def nackAccess (s : State) : State := { s with bus := { s.bus with nack := true } }
/-- The last access was acknowledged. -/
def ackAccess (s : State) : State := { s with bus := { s.bus with nack := false } }

/-- A host write that reaches a register of page p: NACKed while the bus is not answered; in Floor mode every page but
0x00 is as unallocated (R25), and the write still cancels RSTKEY (R27; log entry 25). -/
def onPage (p : Nat) (f : State → State) (s : State) : State :=
  if !busUp s then nackAccess s
  else if s.glob.floor && decide (p ≠ 0) then berrUnalloc (cancelKey (ackAccess s))
  else f (cancelKey (ackAccess s))

/-- As `onPage`, for the offsets that the sleep-rate responder serves as well (R335). -/
def onSleepPage (p : Nat) (f : State → State) (s : State) : State :=
  if responder s then f (ackAccess s) else onPage p f s

/-- As `onPage`, for a read. -/
def onRead (p : Nat) (f : State → State) (s : State) : State :=
  if !busUp s then nackAccess s
  else if s.glob.floor && decide (p ≠ 0) then berrUnalloc (ackAccess { s with bus := { s.bus with rdata := [0xFF] } })
  else f (ackAccess s)

/-- HBCFG.PEC is on and the write's PEC is missing or wrong (R349). -/
def pecFails (s : State) (p : Pec) : Bool := (pl s (key 0x4C 0)).getLsbD 0 && decide (p ≠ .good)

/-- A PEC mismatch on a write: BUSERR.PEC, PECCNT and PECERR (R349, R370). -/
def pecError (s : State) : State :=
  raiseG 56 0 (berrPec { s with bus := { s.bus with peccnt := satAdd 0xFFFF 1 s.bus.peccnt } })

/-! Supplies (R18, R21, R22). -/

/-- INLOSSDLY in half microseconds. -/
def inlossDly (s : State) : Nat := us (100 * (lv s (key 2 0x0D)).toNat)

/-- No path is closed: INLOSSDLY runs if one has ever closed (R69). -/
def watchLoss (s : State) : State :=
  if s.inp.a.closed || s.inp.b.closed || s.inp.inloss || !(s.inp.a.ever || s.inp.b.ever) || armed .inloss s then s
  else arm (inlossDly s) .inloss s

/-- A path without drive: open and not qualified. Its flags, lockout and trip count stay; the retry waits of its guards end with
their timers (log entry 18). -/
def dropPath (p : PathSt) : PathSt :=
  { p with qual := false, closed := false, full := false, cond := false, condOff := none, wait := p.wait &&& 0x13, sense := 0, acc := 0
           openedAt := none, counted := true }

/-- The rails and paths lose their drive without sequencing: default-off drives, reset outputs low (R18, R22); of the pilot
only the passive base path stays (R264). R22 does not say what becomes of what is latched: it stays, but for what belongs to a
rail that is on (DESIGN CHOICE, log entry 18). -/
def dropPower (s : State) : State :=
  let keep : Instr → Bool := fun e => match e with
    | .rstkeyCancel => true
    | .fwBootTimeout => true
    | i => alwaysOnTimer i
  { s with rl := {}, inp := { s.inp with a := dropPath s.inp.a, b := dropPath s.inp.b, gate := false, plim := false }
           bk := { s.bk with strk := 0, brk := 0, blkS := 0, blkB := 0, revblk := 0, skip := 0 }
           seq := { s.seq with wait := 0, dly := 0, offWait := 0, offDly := 0, rst := 0x1F, rstRun := 0 }
           chg := { s.chg with phase := if s.chg.phase = 7 then 7 else 0, tfor := 0, trate := 0 }
           plt := { s.plt with base := true, s2 := false, gen := false }
           cyc := { s.cyc with acts := [] }
           irq := { s.irq with pulse := 0 }
           clk := { s.clk with timers := s.clk.timers.filter (fun t => keep t.ev) } }

/-- POWER_ON_RESET: a source is there, every island resets, Hallmark is sensed and the boot starts (R18, R26, R340). -/
def execPowerOnReset (vsys vin ohms : Nat) (s : State) : Host.Outcome State Fault Refusal :=
  .next (if vsys < 2700 ∧ vin < 2700 then s
    else
      let s := dropPower s
      bootStart .por { s with glob := { s.glob with supplied := true, logsrc := decide (vsys < 2700), vsys := vsys, vin := vin,
                                                    clocked := true, ohms := ohms } })

/-- Neither source is available (R18): rails lose supply unsequenced; BOR shows at the next start if the device was
active. -/
def supplyLost (s : State) : State :=
  if !s.glob.supplied then s
  else
    let s := dropSlot (dropPower s)
    { s with glob := { s.glob with supplied := false, fwup := false, restarting := false,
                                   borNext := decide (s.glob.st ≠ .sleep ∧ s.glob.st ≠ .ship) }
             clk := { s.clk with timers := [] }
             fl := flashPower s.fl }

/-- LOGIC_SUPPLY_SELECT (R18). -/
def execLogicSupplySelect (rising : Bool) (vin : Nat) (s : State) : Host.Outcome State Fault Refusal :=
  .next (if !s.glob.supplied then s
    else if rising then { s with glob := { s.glob with logsrc := false, vsys := 2700, vin := vin } }
    else if s.glob.logsrc then s
    else if vin ≥ 2700 then { s with glob := { s.glob with logsrc := true, vsys := 2599, vin := vin } }
    else supplyLost { s with glob := { s.glob with vsys := 2599, vin := vin } })

/-- LOGIC_SUPPLY_LOSS (R18). -/
def execLogicSupplyLoss (s : State) : Host.Outcome State Fault Refusal := .next (supplyLost s)

/-- The pilot's paths by its role (R264, R265). -/
def pilotPaths (p : Plt) : Plt :=
  { p with base := decide (p.role = 3) || (decide (p.role = 0) && !p.hard), gen := decide (p.role = 1) && !p.genflt }

/-- VAON_OUT_OF_WINDOW (R21, R22): while it is out no service is given; what the islands hold is kept, and the charge converter measures its
offset again every 10 min afterwards (R295, log entry 18). -/
def execVaonOutOfWindow (out : Bool) (s : State) : Host.Outcome State Fault Refusal :=
  .next (if out then (if s.glob.vaonOk then { dropPower s with glob := { s.glob with vaonOk := false } } else s)
    else if s.glob.vaonOk then s
    else watchLoss (arm (sec 600) .gaugeOffsetCal { s with glob := { s.glob with vaonOk := true }, plt := pilotPaths s.plt }))

/-! Page 0x00's commands (R27). -/

/-- A write of RSTKEY: 0xD2 arms, 0x2D less than 10 ms later resets, anything else cancels (R27). DESIGN CHOICE: a second
0xD2 starts the sequence, and its 10 ms, afresh (log entry 11). -/
def rstkeyByte (v : Byte) (s : State) : State :=
  if v = 0xD2 then arm (ms 10) .rstkeyCancel { s with glob := { s.glob with keyArmed := true } }
  else if v = 0x2D ∧ s.glob.keyArmed then
    systemReset .key { cancelKey s with glob := { s.glob with keyArmed := false, minoffAfterBoot := false } }
  else cancelKey s

/-- RSTKEY_WRITE. -/
def execRstkeyWrite (v : Byte) (s : State) : Host.Outcome State Fault Refusal :=
  .next (if busUp s then rstkeyByte v (ackAccess s) else nackAccess s)

/-- RSTKEY_CANCEL: 10 ms have passed. -/
def execRstkeyCancel (s : State) : Host.Outcome State Fault Refusal := .next (cancelKey s)

/-- CTRL.RSTCLR clears RSTCAUSE. -/
def rstclrBit (s : State) : State := { s with glob := { s.glob with rstcause := 0 } }
/-- CTRL.BUSCLR clears BUSERR. -/
def busclrBit (s : State) : State := { s with glob := { s.glob with buserr := 0 } }

/-- RSTCLR. -/
def execRstclr (s : State) : Host.Outcome State Fault Refusal := .next (onPage 0 rstclrBit s)
/-- BUSCLR. -/
def execBusclr (s : State) : Host.Outcome State Fault Refusal := .next (onPage 0 busclrBit s)

end Sys2Proof.Machine
end

