-- ==== Sys2Proof/Machine/RegWrite.lean ====
section
/-! DEFINITION. Writing register fields (R7, R8, R27, R347, R466): legal codes are stored, a reserved code leaves its
field as it was. -/

namespace Sys2Proof.Machine

/-- The fields of a page that hold a byte of offset o and lie in that one byte. -/
def byteFields (p o : Nat) : List Fd := (fieldsOf p).filter (fun f => decide (f.off = o ∧ f.len = 1))

/-- The field of several bytes that covers offset o (R347). -/
def wideField (p o : Nat) : Option Fd := (fieldsOf p).find? (fun f => decide (f.len > 1 ∧ f.off ≤ o ∧ o < f.off + f.len))

/-- A byte after a write: each field takes its new code if it is legal and if `may` lets it, and self-clearing bits read
0; with it, whether some field's code was reserved. -/
def mergeByte (fs : List Fd) (may : Fd → Bool) (old v : Byte) : Byte × Bool :=
  fs.foldl (fun (b, bad) f =>
    let n := v.toNat / 2 ^ f.lo % 2 ^ f.w
    if f.acc = .sc then (b, bad)
    else if !may f then (b, bad)
    else if f.legal n then (putBits b f.lo f.w n, bad) else (b, true)) (old, false)

/-- A byte that no rule but its table governs is written to the plain registers of page p. -/
def plainByte (p o : Nat) (v : Byte) (s : State) : State :=
  let k := key p o
  let (b, bad) := mergeByte (byteFields p o) (fun _ => true) (pl s k) v
  let s := putPlain k [b] s
  if bad then berrRsvenc s else s

/-- A whole value of a several-byte plain field. -/
def plainWide (p : Nat) (f : Fd) (v : Nat) (s : State) : State :=
  if f.legal (v % 2 ^ f.w) then putPlain (key p f.off) (leBytes f.len (v % 2 ^ f.w)) s else berrRsvenc s

end Sys2Proof.Machine
end

