-- ==== Sys2Proof/Machine/Slot.lean ====
section
/-! DEFINITION. The command slot (R353 to R357): taking a packet, its final states, and the idle time of a privileged
session (R359). -/

namespace Sys2Proof.Machine

/-- Command packets are taken: the firmware runs and the device is outside Floor mode (R354). -/
def packetsTaken (s : State) : Bool := busUp s && s.glob.fwup && !s.glob.floor

/-- The slot takes a packet: idle, a final state, or a TXN_COMMIT not yet ended (R354). -/
def slotFree (s : State) : Bool :=
  decide (s.bus.cstat = 0) || decide (3 ≤ s.bus.cstat) || decide (s.bus.op = 0x10)

/-- Acceptance (R354): TAG, empty CRES; a TXN_COMMIT that the slot held goes on outside it. -/
def takeSlot (op tag : Byte) (s : State) : State :=
  { s with bus := { s.bus with cstat := 1, tag := tag, prog := 0xFF, err := 0, op := op, cres := [], ofs := 0 }
           txn := { s.txn with cur := s.txn.cur.map (fun c => { c with slot := false }) } }

/-- The command is refused before acting. -/
def reject (err : Byte) (s : State) : State := slotEnd 5 err [] s
/-- Refused where the spec names no ERR code for the case: a free code below 0xF0 (R357; log entry 8). -/
def rejectOpen (s : State) : State :=
  let (n, s) := drawNat s
  slotEnd 5 (BitVec.ofNat 8 (n % 239 + 1)) [] s
/-- The command is done, with its results. -/
def doneWith (res : List Byte) (s : State) : State := slotEnd 3 0 res s
/-- The command began and ended without completing. -/
def slotError (err : Byte) (s : State) : State := slotEnd 4 err s.bus.cres s
/-- The command executes or waits. -/
def slotBusy (s : State) : State := { s with bus := { s.bus with cstat := 2 } }
/-- The slot holds command `op` and it has not ended. -/
def slotHas (s : State) (op : Byte) : Bool := decide (s.bus.cstat = 2) && decide (s.bus.op = op)

/-- An LK write or a privileged command starts SESSTMO again (R359). -/
def touchSession (s : State) : State :=
  if s.bus.level = 0 then s else arm (sec (10 * (pl s (key 0x4C 5)).toNat)) .sesstmo s

/-- What a packet of n bytes meets at its byte count (R353, R354): a count that is none, or a slot that is not free; else it is
taken. -/
def packetGate (n : Nat) (taken : State → State) (s : State) : State :=
  if n = 0 ∨ n > 64 then berrRsvenc (nackAccess s)
  else if !slotFree s then
    raiseG 56 11 (nackAccess { s with bus := { s.bus with nackn := satAdd 0xFFFF 1 s.bus.nackn } })
  else taken s

/-- The slot shows this packet as accepted, and its command is the next to run (R354). -/
def accepted (op : Byte) (p : Packet) (s : State) : Bool :=
  decide (s.bus.cstat = 1) && decide (s.bus.op = op) && decide (s.bus.tag = p.tag)

/-- A command packet of opcode `op` (R353, R354, R357): the checks that every packet meets, then `body`. One that a
REGISTER_WRITE has brought has met the first of them. -/
def packet (op : Byte) (priv : Bool) (p : Packet) (body : State → State) (s : State) : State :=
  let run := fun (s : State) =>
    let s := takeSlot op p.tag (ackAccess s)
    if p.n ≠ p.len.toNat + 3 then reject 0xF1 s
    else if priv && decide (s.bus.level = 0) then reject 0xF2 s
    else body (if priv then touchSession s else s)
  if !packetsTaken s then nackAccess s
  else if accepted op p s then run s
  else packetGate p.n run s

end Sys2Proof.Machine
end

