-- ==== Sys2Proof/Machine/Gauge.lean ====
section
/-! DEFINITION. The gauge (11_backup_cell.md, R295 to R311). Charges in µA·h, SOC in 0.1 %, impedances in 0.1 mΩ. -/

namespace Sys2Proof.Machine

/-- Write the gauge. -/
def setGau (f : Gau → Gau) (s : State) : State := { s with gau := f s.gau }

/-- The gauge runs: the firmware island runs, a cell is fitted, and the state has been restored (R285, R307). -/
def gaugeOn (s : State) : Bool := fwOn s && !s.gau.off && decide (chgCell s ≠ 0)
/-- GDESCAP in mAh. -/
def gdescap (s : State) : Nat := rdNat (pl s) (key 0x45 0) 2
/-- GRDEF in 0.1 mΩ. -/
def grdef (s : State) : Nat := 10 * (pl s (key 0x45 2)).toNat
/-- Rband of the chip band in force (R301). -/
def rbandNow (s : State) : Nat := s.gau.rband.getD s.thm.chip (grdef s)

/-- Signed 32-bit saturation (R295). -/
def sat32 (x : Int) : Int := max (-2147483648) (min 2147483647 x)

/-- A value clamped to 0 .. CAP. -/
def clampCap (cap : Nat) (q : Int) : Int := max 0 (min cap q)

/-- GSOC follows QNOW, and SOCSTEP when a whole percent is crossed (R297); GRCELL follows Rband (R313). -/
def publishSoc (s : State) : State :=
  let n := if s.gau.cap = 0 then 0 else (s.gau.qnow * 1000 / s.gau.cap).toNat
  let step := decide (n / 10 ≠ s.gau.soc / 10)
  raiseIf step (16 * 51) (setGau (fun g => { g with soc := n, rcell := rbandNow s }) s)

/-- A change of confidence (R304). -/
def setConf (n : Nat) (s : State) : State :=
  if s.gau.conf = n then s else raiseG 51 7 (setGau (fun g => { g with conf := n }) s)

/-- A learn in progress is abandoned, with its reason (R306, R311). -/
def abandonLearn (why : Nat) (s : State) : State :=
  if s.gau.start.isNone then s
  else raiseG 51 6 (setGau (fun g => { g with start := none, last := why }) s)

/-- A gauge bank is to be written (R307). -/
def wantGauge (s : State) : State := grant { s with fl := { s.fl with wantGau := max 1 s.fl.wantGau } }

/-! Learning (R302 to R304). -/

/-- Accept or reject a learnt capacity. -/
def judgeLearn (cnew : Nat) (s : State) : State :=
  let cap := s.gau.cap
  let low := decide (s.gau.conf = 0)
  let d := ((cnew : Int) - cap).natAbs
  let s := setGau (fun g => { g with cnew := cnew }) s
  if d * 100 ≤ cap * (if low then 50 else 20) then
    let cap' := if low then cnew else ((cap : Int) + ((cnew : Int) - cap) / 4).toNat
    let s := setGau (fun g => { g with cap := cap', learnN := satAdd 255 1 g.learnN, last := 1,
                                       qnow := if cap = 0 then g.qnow else g.qnow * cap' / cap }) s
    let s := raiseG 51 4 s
    wantGauge (if low then setConf 1 s else if s.gau.conf = 1 ∧ d * 100 ≤ cap * 5 then setConf 2 s else s)
  else
    let s := raiseG 51 5 (setGau (fun g => { g with last := 2 }) s)
    wantGauge (if s.gau.conf = 2 then setConf 1 s else s)

/-- A reference point for learning with its SOC (R302). -/
def learnPoint (soc : Nat) (s : State) : State :=
  let here := some (soc, s.gau.acc, opSec s)
  match s.gau.start with
  | none => raiseG 51 3 (setGau (fun g => { g with start := here }) s)
  | some (soc0, q0, t0) =>
    let d := ((soc : Int) - soc0).natAbs
    if d ≥ 400 then
      judgeLearn ((s.gau.acc - q0).natAbs * 1000 / d) (setGau (fun g => { g with start := here }) s)
    else if opSec s ≥ t0 + 259200 then setGau (fun g => { g with start := here, last := 8 }) s
    else s

/-- A reference point: QNOW is set, a large move is signalled (R309), and the point counts for learning where it may. -/
def refPoint (soc : Nat) (learn : Bool) (s : State) : State :=
  let q : Int := (soc * s.gau.cap / 1000 : Nat)
  let big := decide ((q - s.gau.qnow).natAbs * 5 > s.gau.cap)
  let s := setGau (fun g => { g with qnow := q, swapsusp := g.swapsusp || big }) s
  let s := raiseIf big (16 * 51 + 9) s
  let s := raiseG 51 2 s
  publishSoc (if learn then learnPoint soc s else s)

/-- The full point (R300); while frozen it sets QNOW alone (R305). -/
def fullPoint (s : State) : State :=
  if !gaugeOn s then s
  else if s.gau.frozen then publishSoc (setGau (fun g => { g with qnow := g.cap }) s)
  else refPoint 1000 true s

/-! SOC from open-circuit voltage (R298). -/

/-- The table, in mV at 0 %, 10 % … 100 %. -/
def ocvTable (lfp : Bool) : List Nat :=
  if lfp then [2800, 3200, 3250, 3280, 3290, 3300, 3310, 3320, 3330, 3340, 3450]
  else [3300, 3550, 3640, 3690, 3730, 3780, 3850, 3930, 4010, 4090, 4180]

/-- A segment's slope is at least 2 mV per percent. -/
def segUsable (lfp : Bool) (k : Nat) : Bool := !lfp || decide (k < 3) || decide (k = 9)

/-- SOC of a voltage in µV on the table's own scale, in the first usable segment that holds it. -/
def socSeg (lfp : Bool) (x : Int) : Nat → List Nat → Option Nat
  | k, a :: b :: t =>
    if (a : Int) * 1000 ≤ x ∧ x ≤ (b : Int) * 1000 ∧ segUsable lfp k then
      some (100 * k + ((x - a * 1000) * 100 / ((b - a : Nat) * 1000 : Nat)).toNat)
    else socSeg lfp x (k + 1) (b :: t)
  | _, _ => none

/-- SOC of an open-circuit voltage in µV; none outside the usable segments. -/
def socOf (s : State) (ocv : Int) : Option Nat :=
  let lfp := decide (chgCell s = 2)
  let v0 : Int := if lfp then 2800000 else 3300000
  let ref : Int := if lfp then 3600000 else 4200000
  socSeg lfp (v0 + (ocv - v0) * (ref - v0) / ((vcv s : Int) * 1000 - v0)) 0 (ocvTable lfp)

/-- An OCV point (R299, R308): `first` counts for learning in every band. -/
def ocvPoint (i : Int) (first : Bool) (s : State) : State :=
  match socOf s ((s.gau.vcell : Int) * 1000 - i * rbandNow s / 10) with
  | some soc => refPoint soc (first || decide (s.thm.chip = 2 ∨ s.thm.chip = 3)) s
  | none => s

/-! The round (R297, R299, R301, R305). -/

/-- A round's current stays within 5 % of its mean. -/
def steadyRound (d : RoundData) : Bool :=
  decide ((d.iMin - d.iMean).natAbs * 20 ≤ d.iMean.natAbs) && decide ((d.iMax - d.iMean).natAbs * 20 ≤ d.iMean.natAbs)

/-- An impedance step between two rounds (R301). -/
def impedanceStep (d : RoundData) (s : State) : State :=
  match s.gau.prev with
  | some (i0, st, v0) =>
    let di := d.iMean - i0
    if s.gau.frozen || !st || !steadyRound d || decide (di.natAbs < 200) then s
    else
      let v := -(((s.gau.vcell : Int) - v0) * 10000 / di)
      if 50 ≤ v ∧ v ≤ 10000 then
        let r : Int := rbandNow s
        raiseG 51 12 (setGau (fun g => { g with rband := g.rband.set s.thm.chip (r + (v - r) / 8).toNat }) s)
      else s
  | none => s

/-- GTTE in minutes (R297). -/
def tteOf (q : Int) (iAvg : Int) : Nat :=
  if iAvg ≥ 0 then 0xFFFF else min 0xFFFF (q.toNat * 60 / (1000 * iAvg.natAbs))

/-- The charge converter counts on, whatever the firmware does (R295); it sees how long the current has stayed within ±GIREST
(R299), a round's 100 ms included. -/
def countCharge (d : RoundData) (s : State) : State :=
  let lim := max 1 (pl s (key 0x45 4)).toNat
  let calm := decide (d.iMin.natAbs ≤ lim ∧ d.iMax.natAbs ≤ lim)
  setGau (fun g => { g with acc := sat32 (g.acc + d.dq), calm := if calm then some (g.calm.getD (s.clk.now - 200000)) else none }) s

/-- QNOW with the change in GQACC since it was last brought up to date (R297). -/
def qnowDue (g : Gau) : Int := clampCap g.cap (g.qnow + (g.acc - g.seen))

/-- The cell is at rest: its current has stayed within ±GIREST for GTREST (R299). -/
def atRest (s : State) : Bool :=
  match s.gau.calm with
  | some t => decide (t + sec (60 * (pl s (key 0x45 5)).toNat) ≤ s.clk.now)
  | none => false

/-- The gauge's part of a round end: `hkbBad` while HKB's results are INVALID. A rest raises REST even while learning is frozen;
its point is not taken then (R305). At a rest point the converter measures its offset (R295). TCELLT follows measurement 77 with
no cell fitted too (R290). -/
def gaugeRound (d : RoundData) (hkbBad : Bool) (s : State) : State :=
  let s := countCharge d s
  let s := if fwOn s then setChg (fun c => { c with tcell := tcellNow s }) s else s
  if !gaugeOn s then s
  else
    let onset := hkbBad && !s.gau.frozen
    let s := raiseIf onset (16 * 51 + 8) (setGau (fun g => { g with frozen := hkbBad }) s)
    let v := if hkbBad then s.gau.vcell else ((mval s 76).toNat - d.sense).toNat
    let rest := atRest s
    let newRest := rest && !s.gau.rest
    let s := setGau (fun g => { g with qnow := qnowDue g, seen := g.acc, i := d.iSec, vcell := v, rest := rest }) s
    let s := setChg (fun c => { c with vcell := v }) s
    let s := raiseIf newRest (16 * 51 + 1) s
    let s := impedanceStep d s
    let s := setGau (fun g => { g with prev := some (d.iMean, steadyRound d, v) }) s
    let point := s.gau.point
    let s := if s.gau.frozen then s
      else if point ≠ 0 then
        ocvPoint d.iMean (decide (point = 2)) (setGau (fun g => { g with point := 0, calAt := if point = 1 then s.clk.now else g.calAt }) s)
      else if newRest then ocvPoint d.iMean false (setGau (fun g => { g with calAt := s.clk.now }) s) else s
    publishSoc (setGau (fun g => { g with tte := tteOf g.qnow d.iAvgMin }) s)

/-! Restoring the gauge (R306 to R308). -/

/-- A gauge bank has been written, or its writing begun. -/
def gaugeEver (s : State) : Bool :=
  [204, 205].any (fun n => let x : Sector := mget {} s.fl.sec n; decide (x.count ≠ some 0) || x.broken)

/-- Every Rband at GRDEF as it stands (R301). -/
def freshBands (s : State) : List Nat := List.replicate 6 (grdef s)

/-- First use (R308). -/
def gaugeFirstUse (s : State) : State :=
  raiseIf (gaugeEver s) (16 * 51 + 10) (setGau (fun g => { g with off := false, cap := 1000 * gdescap s, qnow := 0, conf := 0, learnN := 0,
                                                                  rband := freshBands s, seen := g.acc,
                                                                  start := none, last := 0, cnew := 0, point := 2 }) s)

/-- What starts the gauge: a restart of the firmware or a system reset, a power-on reset, an exit from SLEEP or SHIP, or a commit
that names a cell where none was fitted before (log entry 30). -/
inductive GaugeStart where
  | restart | por | sleep | ship | cell
deriving DecidableEq, Repr

/-- The saved state as it stands after a start of this kind: QNOW and the learn's start point. -/
def gaugeAdjust (k : GaugeStart) (b : GauBank) (s : State) : Int × Option (Nat × Int × Nat) :=
  let est : Int := (rdNat (pl s) (key 0x45 6) 2 * s.pwr.slpsec.toNat / 3600 : Nat)
  match k with
  | .restart => (b.qnow + (s.gau.acc - b.acc), b.start)
  | .por => (b.qnow, b.start)
  | .ship => (b.qnow, b.start)
  | .cell => (b.qnow, b.start)
  | .sleep => (b.qnow - est, b.start.map (fun (c, q, t) => (c, q - b.acc + est, t)))

/-- The gauge takes its state from the newer valid bank (R307). -/
def gaugeStart (k : GaugeStart) (s : State) : State :=
  if chgCell s = 0 then s
  else match gauBank s.gau with
  | none => publishSoc (gaugeFirstUse s)
  | some b =>
    let (q, st) := gaugeAdjust k b s
    let s := setGau (fun g => { g with off := false, cap := b.cap, qnow := clampCap b.cap q, conf := b.conf, learnN := b.learnN,
                                       rband := b.rband, start := st, last := b.last, seen := g.acc }) s
    let est := rdNat (pl s) (key 0x45 6) 2 * s.pwr.slpsec.toNat / 3600
    let s := match k with
      | .restart => s
      | .por => abandonLearn 3 s
      | .ship => abandonLearn 5 s
      | .cell => s
      | .sleep =>
        let s := if est * 50 > b.cap then abandonLearn 4 s else s
        let rested := decide (60 * (pl s (key 0x45 5)).toNat ≤ s.pwr.slpsec.toNat)
        raiseIf rested (16 * 51 + 1) (if rested then setGau (fun g => { g with point := 1, rest := true, calm := some 0 }) s else s)
    publishSoc s

/-- What the gauge bank takes (R307): QNOW up to GQACC at the write. -/
def gaugeImage (seq : Nat) (s : State) : GauBank :=
  ⟨seq, s.gau.cap, qnowDue s.gau, s.gau.conf, s.gau.learnN, s.gau.rband, s.gau.start, s.gau.acc, s.gau.last⟩

/-- The chemistry changed by a commit (R304, R306); a gauge that has not started since the boot because no cell was fitted
starts (R285). -/
def gaugeChemistry (s : State) : State :=
  let s := if s.gau.off && fwOn s && !s.glob.boot then gaugeStart .cell s else s
  if s.gau.off then s else abandonLearn 7 (setConf 0 s)

/-! Commands and events. -/

/-- GAUGE_OFFSET_CAL: the converter measures its offset, every 10 min (R295). -/
def execGaugeOffsetCal (s : State) : Host.Outcome State Fault Refusal :=
  .next (if anvilOn s then arm (sec 600) .gaugeOffsetCal (setGau (fun g => { g with calAt := s.clk.now }) s)
    else disarm .gaugeOffsetCal s)

/-- SLOW_SAMPLING (R296). -/
def execSlowSampling (s : State) : Host.Outcome State Fault Refusal :=
  .next (if anvilOn s && (pl s (key 0x45 3)).getLsbD 0 then setGau (fun g => { g with slow := true }) s else s)

/-- SLOW_SAMPLING_EXIT (R296). -/
def execSlowSamplingExit (s : State) : Host.Outcome State Fault Refusal := .next (setGau (fun g => { g with slow := false }) s)

/-- GCTL.ACCCLR (R313): no event is listed for the learn that it abandons. Charge that QNOW has not yet taken stays due. -/
def accclrBit (s : State) : State := setGau (fun g => { g with acc := 0, seen := g.seen - g.acc, start := none }) s

/-- ACCCLR. -/
def execAccclr (s : State) : Host.Outcome State Fault Refusal := .next (onPage 0x45 accclrBit s)

/-- CELL_REPLACED takes effect (R310). -/
def cellReplace (s : State) : State :=
  let s := abandonLearn 6 s
  let s := setConf 0 s
  let s := setGau (fun g => { g with cap := 1000 * gdescap s, rband := freshBands s, learnN := 0, swapsusp := false, start := none,
                                     qnow := clampCap (1000 * gdescap s) g.qnow, point := 2, off := false }) s
  let s := chgRestart (chgClearFault s)
  let s := publishSoc { s with fl := { s.fl with wantGau := 2 } }
  doneWith [0] (raiseG 51 11 s)

/-- CELL_REPLACED's own checks. The ERR in another state is not stated. -/
def cellReplacedBody (p : Packet) (s : State) : State :=
  if s.glob.st ≠ .run ∧ s.glob.st ≠ .standby ∧ s.glob.st ≠ .safe then rejectOpen s
  else if chgCell s = 0 then reject 0x01 s
  else match p.params with
    | [] => if gdescap s < 50 ∨ 10000 < gdescap s then reject 0x02 s else cellReplace s
    | [a, b] =>
      let n := leNat [a, b]
      if n < 50 ∨ 10000 < n then reject 0x02 s else cellReplace (putPlain (key 0x45 0) [a, b] s)
    | _ => reject 0x01 s

/-- CELL_REPLACED. -/
def execCellReplaced (p : Packet) (s : State) : Host.Outcome State Fault Refusal :=
  .next (packet 0x70 false p (cellReplacedBody p) s)

/-- The 16 bytes of LEARN_STATUS (R311). -/
def learnBytes (s : State) : List Byte :=
  let g := s.gau
  let (soc0, q0, t0) := g.start.getD (0, g.acc, 0)
  [BitVec.ofNat 8 g.conf, if g.start.isNone then 0 else if g.frozen then 2 else 1] ++ leBytes 2 soc0 ++
  leBytes 4 (BitVec.ofInt 32 ((g.acc - q0) / 100)).toNat ++ leBytes 4 t0 ++ [BitVec.ofNat 8 g.learnN, BitVec.ofNat 8 g.last] ++
  leBytes 2 (g.cnew / 1000)

/-- LEARN_STATUS. -/
def execLearnStatus (p : Packet) (s : State) : Host.Outcome State Fault Refusal :=
  .next (packet 0x71 false p (fun s => if p.params = [] then doneWith (learnBytes s) s else rejectOpen s) s)

end Sys2Proof.Machine
end

