-- ==== Sys2Proof/Machine/Charger.lean ====
section
/-! DEFINITION. Events of the charger and its commands (11_backup_cell.md, R284 to R294). -/

namespace Sys2Proof.Machine

/-- Take a cell voltage in mV, if the event brings one. -/
def takeVcell (v : Option Nat) (s : State) : State :=
  match v with
  | some v => setChg (fun c => { c with vcell := v }) s
  | none => s

/-- CHARGER_HOLDOFF_END: 300 ms after rail 0 became power-good the charger chooses its phase (R294). -/
def execChargerHoldoffEnd (vcell : Option Nat) (s : State) : Host.Outcome State Fault Refusal :=
  .next (
    let s := takeVcell vcell (disarm (.chargerHoldoffEnd none) s)
    if s.chg.holdoff && has s.rl.pg 0 then chgSettle (setChg (fun c => { c with holdoff := false }) s) else s)

/-- VMIDLOW: VMID below 4.5 V stops the charger (R284). -/
def execVmidlow (s : State) : Host.Outcome State Fault Refusal :=
  .next (if anvilOn s && !s.chg.vmidlow then chgSettle (raiseG 50 8 (setChg (fun c => { c with vmidlow := true }) s)) else s)

/-- CHARGER_VMID_RESTORE: VMID reaches 4.7 V. -/
def execChargerVmidRestore (s : State) : Host.Outcome State Fault Refusal :=
  .next (chgSettle (setChg (fun c => { c with vmidlow := false }) s))

/-- The phase after a threshold of R286 is crossed with VCELL at v: up at the threshold, down more than 100 mV below. -/
def nextPhase (s : State) (v : Nat) : Nat :=
  match s.chg.phase with
  | 1 => phaseOf s v
  | 2 => if v ≥ vpre s then phaseOf s v else if v + 100 < vtrk s then 1 else 2
  | 3 => if v ≥ cvEff s then 4 else if v + 100 < vpre s then 2 else 3
  | p => p

/-- CHARGE_PHASE_CHANGE. -/
def execChargePhaseChange (vcell : Nat) (s : State) : Host.Outcome State Fault Refusal :=
  .next (
    let s := setChg (fun c => { c with vcell := vcell }) s
    if anvilOn s && decide (chgCell s ≠ 0) then chgWatch (setPhase (nextPhase s vcell) s) else s)

/-- DONE: termination in CV with TERMEN; the full point of the gauge (R287, R300). -/
def execDone (s : State) : Host.Outcome State Fault Refusal :=
  .next (if anvilOn s && decide (s.chg.phase = 4) && (chgByte s 3).getLsbD 4 then
      fullPoint (chgWatch (raiseG 50 1 (setPhase 5 s)))
    else s)

/-- RECHG: from done back to CC (R287). -/
def execRechg (s : State) : Host.Outcome State Fault Refusal :=
  .next (if anvilOn s && decide (s.chg.phase = 5) then chgWatch (raiseG 50 2 (setPhase 3 s)) else s)

/-- CELLOV: the charger stops switching in its present phase (R288); that edge breaks a quiet window (R54). -/
def execCellov (s : State) : Host.Outcome State Fault Refusal :=
  .next (if anvilOn s && decide (chgCell s ≠ 0) && !s.chg.cellov then
      raiseG 50 5 (setChg (fun c => { c with cellov := true }) (if chgSwitches s then breach s else s))
    else s)

/-- CELLOV_CLEAR. -/
def execCellovClear (s : State) : Host.Outcome State Fault Refusal := .next (setChg (fun c => { c with cellov := false }) s)

/-- TMRPRE: the pre-charge timer expires (R289). -/
def execTmrpre (s : State) : Host.Outcome State Fault Refusal :=
  .next (
    let s := disarm .tmrpre s
    if anvilOn s && decide (timerOf s.chg.phase = 1) then
      chgWatch (raiseG 50 3 (setPhase 7 (setChg (fun c => { c with tmrpre := true }) s)))
    else s)

/-- TMRFAST: the fast timer expires (R289). -/
def execTmrfast (s : State) : Host.Outcome State Fault Refusal :=
  .next (
    let s := disarm .tmrfast s
    if anvilOn s && decide (timerOf s.chg.phase = 2) then
      chgWatch (raiseG 50 4 (setPhase 7 (setChg (fun c => { c with tmrfast := true }) s)))
    else s)

/-- NTCFLT: TCELL open or shorted suspends charging while TSEN is 1 (R291). -/
def execNtcflt (s : State) : Host.Outcome State Fault Refusal :=
  .next (if anvilOn s && chgTsen s && decide (chgCell s ≠ 0) && !s.chg.ntc then chgSettle (raiseG 50 6 (setChg (fun c => { c with ntc := true }) s)) else s)

/-- NTC_RECOVER. -/
def execNtcRecover (s : State) : Host.Outcome State Fault Refusal :=
  .next (chgSettle (setChg (fun c => { c with ntc := false }) s))

/-- The comparators place the TCELL voltage last seen in its band (R290, R292); unused with no cell or with TSEN 0 (R285, R291).
Each change raises CTBAND. -/
def bandSettle (s : State) : State :=
  match s.chg.tpin with
  | none => s
  | some mv =>
    let b := ntcBand (levelsNow s) s.chg.ct mv
    if anvilOn s && chgTsen s && decide (chgCell s ≠ 0) && decide (s.chg.ct ≠ b) then
      chgSettle (runTimer (raiseG 50 7 (setChg (fun c => { c with ct := b }) s)))
    else s

/-- CTBAND: the TCELL voltage, in mV, has crossed a comparator level (R292). -/
def execCtband (mv : Nat) (s : State) : Host.Outcome State Fault Refusal :=
  .next (bandSettle (setChg (fun c => { c with tpin := some mv }) s))

/-- WDEXP: Hallmark values replace ICHG, VCV and CTADJ (R293). -/
def execWdexp (s : State) : Host.Outcome State Fault Refusal :=
  .next (
    let s := disarm .wdexp s
    if anvilOn s && decide (chgwdt s ≠ 0) && chgMaySwitch s && !s.chg.defaults then
      runTimer (raiseG 50 9 (setChg (fun c => { c with defaults := true }) s))
    else s)

/-- CHGCTL.KICK (R293). -/
def kickBit (s : State) : State :=
  let was := s.chg.defaults
  let s := raiseIf was (16 * 50 + 10) (disarm .wdexp (setChg (fun c => { c with defaults := false }) s))
  chgWatch (if was then runTimer s else s)
/-- CHGCTL.RESTART (R289). -/
def restartBit (s : State) : State := chgClearFault s

/-- CHGCTL_KICK. -/
def execChgctlKick (s : State) : Host.Outcome State Fault Refusal := .next (onPage 0x44 kickBit s)
/-- CHGCTL_RESTART. -/
def execChgctlRestart (s : State) : Host.Outcome State Fault Refusal := .next (onPage 0x44 restartBit s)

/-- A write of CHGSUSP (R284). -/
def chgsuspByte (v : Byte) (s : State) : State := chgSettle (plainByte 0x44 0x63 v s)

/-- CHGSUSP_WRITE. -/
def execChgsuspWrite (v : Byte) (s : State) : Host.Outcome State Fault Refusal := .next (onPage 0x44 (chgsuspByte v) s)

/-- What a commit's change of page 0x44 does (R287, R289, R293, R304): `old` are the live bytes before it. -/
def chargerFollow (old : Nat → Byte) (s : State) : State :=
  let now := lv s
  let b := fun (g : Nat → Byte) o => g (key 0x44 o)
  let cell := fun g => (b g 0).toNat / 2 % 4
  let s := if cell old ≠ cell now then gaugeChemistry (chgClearFault s) else s
  let s := if cell old ≠ cell now ∨ b old 1 ≠ b now 1 ∨ b old 2 ≠ b now 2 then chgRestart s else s
  let s := if b old 14 ≠ b now 14 then disarm .wdexp s else s
  let s := bandSettle (setChg (fun c => { c with levels := pageLevels s }) s)
  chgSettle (if timerOf s.chg.phase ≠ 0 then runTimer s else s)

/-- Floor mode takes every field of page 0x44 from Hallmark region 7 (R294): bands, timers, watchdog and phase follow; `cell` was in
force before. -/
def chgFloor (cell : Nat) (s : State) : State :=
  let s := bandSettle (disarm .wdexp s)
  let s := if timerOf s.chg.phase ≠ 0 then runTimer s else s
  if chgCell s = cell then chgSettle s else chgRestart s

end Sys2Proof.Machine
end

