-- ==== Sys2Proof/Machine/Downstream.lean ====
section
/-! DEFINITION. The downstream port (R351, R365 to R367). What happens on its two lines comes from outside, as the commands'
operands. -/

namespace Sys2Proof.Machine

/-- Write the port. -/
def setDs (f : Ds → Ds) (s : State) : State := { s with ds := f s.ds }
/-- DSCFG.EN, and the firmware island runs (R365). -/
def portOn (s : State) : Bool := fwOn s && (pl s (key 0x4D 0)).getLsbD 0
/-- DSCFG.PEC. -/
def dsPec (s : State) : Bool := (pl s (key 0x4D 0)).getLsbD 3
/-- DSCUT.RAIL. -/
def cutRail (s : State) : Nat := rdBits (pl s) (key 0x4D 2) 0 5

/-! Polls (R366). -/

/-- Entry k is polled. -/
def pollEn (s : State) (k : Nat) : Bool := (pl s (key 0x4D (0x10 + k))).getLsbD 7

/-- The next enabled entry in turn. -/
def nextPoll (s : State) : Option Nat := ((List.range 12).map (fun i => (s.ds.pollIdx + i) % 12)).find? (pollEn s)

/-- The PEC appended to a write while DSCFG.PEC is 1: over the address byte and the bytes written; a transfer that goes on to
read has the target's PEC after its last byte instead, and a Quick Command none (R366). -/
def dsWritePec (s : State) (addr : Nat) (wr : List Byte) (q : Nat) : Option Byte :=
  if dsPec s && !wr.isEmpty && decide (q = 0) then some (crc8 (BitVec.ofNat 8 (2 * addr) :: wr)) else none

/-- A poll may start: the port is on, polls and has not failed, it makes no transfer or clear, none waits (a DS_XFER goes ahead
of every poll not yet started), and the core clocks run (R328, R366). -/
def mayPoll (s : State) : Bool :=
  portOn s && fwRuns s && decide (pl s (key 0x4D 4) ≠ 0) && !s.ds.failed && s.ds.job.isNone && s.ds.poll.isNone &&
  decide (s.ds.clearing = 0)

/-- A poll that is due starts as soon as it may: a Read Word of DSPCMDk from DSPADDRk. -/
def pollStart (s : State) : State :=
  if s.ds.pollDue && mayPoll s then
    (match nextPoll s with
     | some k => setDs (fun d => { d with pollDue := false, poll := some (k, ⟨rdBits (pl s) (key 0x4D (0x10 + k)) 0 7, [pl s (key 0x4D (0x20 + k))], 2, 0, none⟩) }) s
     | none => setDs (fun d => { d with pollDue := false }) s)
  else s

/-- DSPOLLT runs while the port is on, polls and has not failed; otherwise polls stop (R365, R366). -/
def pollWatch (s : State) : State :=
  let n := (pl s (key 0x4D 4)).toNat
  if portOn s && !s.ds.failed && decide (n ≠ 0) then
    (if armed (.dsPoll none) s then s else arm (ms (10 * n)) (.dsPoll none) s)
  else disarm (.dsPoll none) (setDs (fun d => { d with pollDue := false, poll := none }) s)

/-- The transfer under way ends with an error. -/
def jobError (e : Byte) (s : State) : State :=
  match s.ds.job with
  | some _ => (let s := pollStart (setDs (fun d => { d with job := none }) s)
               if slotHas s 0x03 then slotError e s else s)
  | none => s

/-- The cut (step 5 of R367): the rail and its dependants go off as a set, without OFFHOLD; those that were on or waited, for their start,
in a retry (R156) or in a cut under way, restart after DSCUTT. -/
def startCut (s : State) : State :=
  let r := cutRail s
  let d := dependants (lv s) r
  let all := bit r ||| d
  let retry := s.seq.rset.foldl (fun m (_, x) => m ||| x) 0
  let back := all &&& (s.rl.en ||| s.seq.wait ||| s.seq.retryWait ||| retry ||| (if s.ds.cut then s.ds.cutSet else 0))
  let s := cancelPending all (preempt 3 all s)
  let s := if (rails (all &&& s.rl.en)).any (fun x => !quenchAttr (lv s) x) then breach s else s
  let s := raiseG 57 9 (switchOffSet (bit r) 0 s)
  settle (arm (ms (10 * (pl s (key 0x4D 3)).toNat)) .dsCutRestart (setDs (fun x => { x with cut := true, cutSet := back, recheck := false }) s))

/-- The port fails: FAILED, the transfer under way ends, polls stop, and the cut runs where DSCUT.VALID is 1. -/
def portFailed (s : State) : State :=
  if s.ds.failed then s
  else
    let s := pollWatch (jobError 0x05 (raiseG 57 8 (setDs (fun d => { d with failed := true, clearing := 0 }) s)))
    if (pl s (key 0x4D 2)).getLsbD 7 then startCut s else s

/-- A lost arbitration's event (R351, R370). -/
def lossEvent (k : ArbLoss) (s : State) : State :=
  match k with
  | .data => raiseG 57 2 s
  | .stop => raiseG 57 3 s
  | .restart => raiseG 57 4 s

/-! Transfers (R366). -/

/-- DS_XFER's own checks. -/
def dsXferBody (p : Packet) (s : State) : State :=
  match p.params with
  | a :: w :: q :: bs =>
    if a.msb ∨ w.toNat > 58 ∨ q.toNat > 64 ∨ bs.length ≠ w.toNat ∨ !(pl s (key 0x4D 0)).getLsbD 0 then reject 0x01 s
    else if s.ds.failed then slotError 0x05 s
    else slotBusy (setDs (fun d => { d with job := some ⟨a.toNat, bs, q.toNat, 0, dsWritePec s a.toNat bs q.toNat⟩ }) s)
  | _ => reject 0x01 s

/-- DS_XFER. -/
def execDsXfer (p : Packet) (s : State) : Host.Outcome State Fault Refusal := .next (packet 0x03 false p (dsXferBody p) s)

/-- How a transfer ends. -/
def jobEnd (j : DsJob) (e : DsEnd) (s : State) : State :=
  match e with
  | .data bs =>
    let s := pollStart (setDs (fun d => { d with job := none }) s)
    if slotHas s 0x03 then slotEnd 3 0 (padTo j.q bs) s else s
  | .nackAddr => jobError 0x02 (raiseG 57 0 s)
  | .nackData => jobError 0x03 (raiseG 57 1 s)
  | .lost k =>
    let s := lossEvent k s
    if j.tries ≥ 3 then jobError 0x04 s else setDs (fun d => { d with job := some { j with tries := j.tries + 1 } }) s
  | .pecBad => if dsPec s then jobError 0x07 s else s

/-- DS_XFER_DONE; a poll in progress completes first (R366). -/
def execDsXferDone (e : DsEnd) (s : State) : Host.Outcome State Fault Refusal :=
  .next (match s.ds.job with
    | some j => if fwOn s && s.ds.poll.isNone && decide (s.ds.clearing = 0) then jobEnd j e s else s
    | none => s)

/-! The ends of polls (R366). -/

/-- The entry's poll has failed: POLLERR when newly so. -/
def pollFail (k : Nat) (s : State) : State :=
  let fresh := !s.ds.bad.getLsbD k
  let s := setDs (fun d => { d with ok := setBit d.ok k false, bad := setBit d.bad k true, pollIdx := (k + 1) % 12, pollTries := 0 }) s
  raiseIf fresh (16 * 57 + 10) s

/-- How the poll of entry k ends. -/
def pollEnd (k : Nat) (e : DsEnd) (s : State) : State :=
  match e with
  | .data bs => setDs (fun d => { d with val := mput 0 d.val k (BitVec.ofNat 16 (leNat (bs.take 2))), ok := setBit d.ok k true,
                                         bad := setBit d.bad k false, pollIdx := (k + 1) % 12, pollTries := 0 }) s
  | .nackAddr => pollFail k (raiseG 57 0 s)
  | .nackData => pollFail k (raiseG 57 1 s)
  | .lost c =>
    let s := lossEvent c s
    if s.ds.pollTries ≥ 3 then pollFail k s else setDs (fun d => { d with pollTries := d.pollTries + 1 }) s
  | .pecBad => if dsPec s then pollFail k s else s

/-- The poll in progress ends, unless it tries again; one that is due meanwhile follows what waits. -/
def pollOver (k : Nat) (e : DsEnd) (s : State) : State :=
  let s := pollEnd k e s
  if s.ds.pollTries = 0 then pollStart (setDs (fun d => { d with poll := none }) s) else s

/-- DS_POLL: `none`, DSPOLLT has elapsed and the next enabled entry is due; otherwise the end of the poll in progress, or of one
that started and ended since the last command. -/
def execDsPoll (e : Option DsEnd) (s : State) : Host.Outcome State Fault Refusal :=
  .next (match e with
    | none => if portOn s then pollStart (pollWatch (disarm (.dsPoll none) (setDs (fun d => { d with pollDue := true }) s))) else s
    | some e =>
      match s.ds.poll with
      | some (k, _) => if portOn s then pollOver k e s else s
      | none => if mayPoll s then (match nextPoll s with | some k => pollEnd k e s | none => s) else s)

/-! Stretches and stuck lines (R365, R367). -/

/-- SCLTMO: a stretch beyond DSSTMO ends the transfer, or the poll under way. -/
def execScltmo (s : State) : Host.Outcome State Fault Refusal :=
  .next (
    let s := disarm .scltmo s
    if !portOn s || s.ds.failed then s
    else if s.ds.poll.isSome then
      (match s.ds.poll with
       | some (k, _) => pollStart (setDs (fun d => { d with poll := none }) (pollFail k (raiseG 57 6 s)))
       | none => s)
    else if s.ds.job.isSome then jobError 0x06 (raiseG 57 6 s)
    else if mayPoll s then (match nextPoll s with | some k => pollFail k (raiseG 57 6 s) | none => s)
    else s)

/-- STUCKSCL: SCL has stayed low for 35 ms. -/
def execStuckscl (s : State) : Host.Outcome State Fault Refusal :=
  .next (
    let s := disarm .stuckscl s
    if portOn s && !s.ds.failed then portFailed (setDs (fun d => { d with stuckScl := true }) s) else s)

/-- A bus clear has freed SDA: CLEARED, and the port continues. -/
def busCleared (s : State) : State :=
  pollStart (raiseG 57 7 (setDs (fun d => { d with clearing := 0, stuckSda := false }) s))

/-- DS_BUS_CLEAR: `none`, SDA was found low with SCL high for 100 µs and the first round begins; otherwise the line's level at
step 2 of that round, of the one that DSCTL.CLR starts, or of one that was found and clocked since the last command. -/
def execDsBusClear (sda : Option Bool) (s : State) : Host.Outcome State Fault Refusal :=
  .next (if portOn s && !s.ds.failed && decide (s.ds.clearing = 0 ∨ s.ds.clearing = 3) then
      (match sda with
       | none => setDs (fun d => { d with clearing := 3 }) s
       | some true => busCleared s
       | some false => setDs (fun d => { d with clearing := 1 }) s)
    else s)

/-- DS_CLEAR_RETRY: the second round, or step 6 of R367, ends with these line levels. -/
def execDsClearRetry (sda scl : Bool) (s : State) : Host.Outcome State Fault Refusal :=
  .next (if !portOn s then s
    else if s.ds.clearing = 1 then
      (if sda then busCleared s
       else portFailed (raiseG 57 5 (setDs (fun d => { d with stuckSda := true }) s)))
    else if s.ds.clearing = 2 then
      (if sda && scl then pollWatch (raiseG 57 7 (setDs (fun d => { d with clearing := 0, failed := false, stuckScl := false, stuckSda := false }) s))
       else setDs (fun d => { d with clearing := 0, stuckSda := !sda }) s)
    else s)

/-- DS_CUT_RESTART: DSCUTT has elapsed; the cut rails restart under R144. In STOP or SAFE they wait for the state to let them
(R160). -/
def execDsCutRestart (s : State) : Host.Outcome State Fault Refusal :=
  .next (
    let s := disarm .dsCutRestart s
    if !s.ds.cut then s
    else
      let m := maskOf (fun r => has s.ds.cutSet r && !has s.rl.en r && !heldRail s r)
      let none := decide (m = 0)
      settle (restartSet m (setDs (fun d => { d with cut := false, cutSet := m, recheck := !none,
                                                     clearing := if none && d.failed then 2 else d.clearing }) s)))

/-- DSCTL.CLR clears FAILED and STUCKSCL and runs step 1. -/
def dsClrBit (s : State) : State :=
  pollWatch (setDs (fun d => { d with failed := false, stuckScl := false, clearing := if portOn s then 3 else 0 }) s)

/-- DSCTL_CLR. -/
def execDsctlClr (s : State) : Host.Outcome State Fault Refusal := .next (onPage 0x4D dsClrBit s)

end Sys2Proof.Machine
end

