-- ==== Sys2Proof/Machine/FlashStart.lean ====
section
/-! DEFINITION. What the firmware finds in the flash when it starts (R394, R395, R400, R405, R412, R441). -/

namespace Sys2Proof.Machine

/-- A header read at a start, with the ledger's count of the sector (R394, R395): the count in force is the larger one; where the
sector is half-erased, by its header or by programmed cells where it should be blank, the count from before the interrupted erase
is the ledger's, unless the header still holds it. `bad`: its margin read fails. -/
def scanSector (bad : Bool) (led : Nat) (x : Sector) : Sector :=
  let c := max (x.count.getD 0) led
  { x with count := some c
           half := if x.broken then some (if x.start then c else led) else if x.blank && (bad || x.marginBad) then some c else none }

/-- Every header is read; `bad`: the sectors whose margin read fails. -/
def scanHeaders (bad : List Nat) (s : State) : State :=
  let led := ((patBank s.pat).map PatBank.ecnt).getD []
  (s.fl.sec.map (·.1) ++ led.map (·.1) ++ bad).foldl
    (fun s n => setSector n (scanSector (bad.contains n) (mget 0 led n) (sector s n)) s) s

/-- The half-erased sectors. -/
def halfSectors (s : State) : List Nat := (s.fl.sec.filter (fun (_, x) => x.half.isSome)).map (·.1)

/-- The banks that fail their check while the other of the pair is in force (R400); one that was never written does not count
(log entry 31). -/
def badBanks (s : State) : List Nat :=
  bankSectors.filter (fun n => let x := sector s (physical s n)
    !bankGood s n && (!x.blank || x.broken) && bankHeld s (otherBank n))

/-- A buffer held and not consumed is an interrupted refresh (R405): its data goes to the sector that it names, and it is
consumed. -/
def resumeRefresh (s : State) : State :=
  [508, 509].foldl (fun s b =>
    let p := physical s b
    let x := sector s p
    match x.held with
    | some n =>
      if x.heldMark && x.heldCrc && !x.consumed && x.half.isNone then
        (let s := (landNow n (some x.data) s).2
         marginSettle (setSector p { sector s p with consumed := true } s))
      else s
    | none => s) s

/-- The header scan: HALFCNT, HALFERASE, refreshes taken up, the banks' checks with BANKBAD, LOGBAD (R394, R400, R405, R412). At a
boot the margin reads are those that its Assay reports; at a restart those known to have failed (log entry 36). -/
def headerScan (bad : List Nat) (s : State) : State :=
  let s := scanHeaders bad s
  let half := halfSectors s
  let s := resumeRefresh { s with fl := { s.fl with halfcnt := half.length, bad := (s.fl.log.filter (fun r => !r.ok)).length } }
  let s := half.foldl (fun s _ => raiseG 53 9 s) (settleBanks s)
  (badBanks s).foldl (fun s _ => raiseG 53 3 s) s

/-- The record of a reset or restart (R17, R408). -/
def logReset (s : State) : State :=
  logOther 2 0x3FF (BitVec.ofNat 32 (s.glob.rstcause.toNat + 65536 * s.glob.floorcause + 16777216 * (stateByte s).toNat)) s

/-- The journal is to be rewritten (R440); a read-only one stays as it is (R398). -/
def wantJournal (s : State) : State :=
  { s with upd := { s.upd with want := if readOnly 206 s then none else some .journal } }

/-- The update engine enters a state: an UPDATE record, and the journal is to be rewritten (R440, R452). -/
def updState (n : Nat) (s : State) : State := logUpdate (wantJournal { s with upd := { s.upd with st := n } })

/-- A step overdue for more than 1 h, found by a firmware that runs (R404). -/
def scrubLateCheck (s : State) : State :=
  if fwOn s && s.fl.scrubDue && !s.fl.late && decide (s.clk.now > s.fl.scrubSince + sec 3600) then
    raiseG 53 14 { s with fl := { s.fl with late := true } }
  else s

/-- The state of the update engine after any start of the firmware: receiving and verifying become interrupted, at the resume
point of the journal (R436, R441). -/
def updInterrupted (s : State) : State :=
  if s.upd.st = 1 ∨ s.upd.st = 2 then raiseG 55 3 (updState 4 s) else s

end Sys2Proof.Machine
end

