-- ==== Sys2Proof/Machine/Rails.lean ====
section
/-! DEFINITION. Events of the rails and their blocks (04_multiphase_rails.md, 05_integrated_rails.md, and R72 to R78 of
03_input_path.md): power-good, faults, limits, ramps, strike and braking, phases, stops under R111 and R131. -/

namespace Sys2Proof.Machine

/-! Power-good and ramps (R72, R86, R467). -/

/-- The conditions of a rail's block for power-good: enabled, its soft-start ended, not stopped (R72, R86, R125, R128). -/
def canPg (s : State) (r : Nat) : Bool :=
  anvilOn s && has s.rl.en r && !has s.rl.pg r && (decide (rk r = .lsw) || !has s.rl.ss r) && !stopped s r &&
  !(decide (r = 0) && s.inp.gate)

/-- MON inputs of an EXT rail that lie outside their window (R164), or the GBSNSc peak that a sensed GB rail shows (R128). -/
def monNote (r : Nat) (mon : Word) (s : State) : State :=
  match rk r with
  | .ext => { s with seq := { s.seq with monok := s.seq.monok &&& ~~~mon } }
  | .gb => if snsen (lv s) (ci r) then { s with bk := { s.bk with snspk := mput 0 s.bk.snspk (ci r) mon } } else s
  | _ => s

/-- Every MON input of an enabled EXT rail lies in its window (R164). -/
def monsOk (r : Nat) (s : State) : State :=
  if rk r = .ext ∧ has s.rl.en r then
    { s with seq := { s.seq with monok := s.seq.monok ||| monMask s r, monhi := s.seq.monhi &&& ~~~(monMask s r) } }
  else s

/-- The inputs of an EXT rail that OV reported lie below their OV level again (R164). -/
def monsBack (r : Nat) (s : State) : State :=
  if rk r = .ext then
    (let m := s.seq.monhi &&& monMask s r
     { s with seq := { s.seq with monok := s.seq.monok ||| m, monhi := s.seq.monhi &&& ~~~m } })
  else s

/-- The output of a rail lies within its window (R377). -/
def inWindow (r : Nat) (s : State) : State :=
  monsOk r { s with rl := { s.rl with uvNow := s.rl.uvNow &&& ~~~(bit r), ovNow := s.rl.ovNow &&& ~~~(bit r) } }

/-- POWER_GOOD: the output lies in its window; the rail is power-good where its block lets it be. -/
def execPowerGood (r : Rail) (s : State) : Host.Outcome State Fault Refusal :=
  .next (
    let s := if anvilOn s then inWindow r.val s else s
    if canPg s r.val then becomePg r.val s else s)

/-- RAMP_END: the reference has reached its target; a GB rail without sense becomes power-good (R128). -/
def execRampEnd (r : Rail) (s : State) : Host.Outcome State Fault Refusal :=
  .next (
    let s := disarm (.rampEnd r) s
    if !has s.rl.en r.val || !has s.rl.ss r.val then s
    else
      let q := mget {} s.rl.ramps r.val
      let s := { s with rl := { s.rl with ss := s.rl.ss &&& ~~~(bit r.val), soft := s.rl.soft &&& ~~~(bit r.val)
                                          ramps := mput {} s.rl.ramps r.val { q with v0 := q.v1, t0 := q.t1, pre := if q.pre < q.v1 then 0 else q.pre } } }
      if decide (rk r.val = .gb) && !snsen (lv s) (ci r.val) && canPg s r.val then becomePg r.val s else s)

/-- STAGE_ENABLE_DELAY: 100 µs after SENc the MPH reference rises (R86). -/
def execStageEnableDelay (c : Chan) (s : State) : Host.Outcome State Fault Refusal :=
  .next (
    let r := 1 + c.val
    let s := disarm (.stageEnableDelay c) s
    if has s.rl.en r && has s.rl.ss r && !armed (.rampEnd (railF r)) s then startRamp r s else s)

/-! Faults (R152 and the block chapters). -/

/-- The output of a rail lies below its UV level (R377). Of an EXT rail `mon` are all the inputs that do, and the others lie in their
windows unless they were seen above their OV level (R164). -/
def uvNote (r : Nat) (mon : Word) (s : State) : State :=
  if rk r = .ext then
    (let m := monMask s r
     let hi := s.seq.monhi &&& ~~~(m &&& mon)
     { s with seq := { s.seq with monok := (s.seq.monok &&& ~~~m) ||| (m &&& ~~~mon &&& ~~~hi), monhi := hi } })
  else if supervised s r then monNote r mon { s with rl := { s.rl with uvNow := s.rl.uvNow ||| bit r } }
  else s

/-- A UV report tells of a fall: of an EXT rail, where one of its inputs was last seen in its window or above (R164). -/
def uvFalls (s : State) (r : Nat) (mon : Word) : Bool :=
  decide (rk r ≠ .ext) || decide (mon &&& monMask s r &&& (s.seq.monok ||| s.seq.monhi) ≠ 0)

/-- UV (R467): only after the first power-good since the latest enable and outside a soft-start (R86); power-good is lost. It is
lost during a committed ramp too, where R72 and R86 hold it and R467 has UV take it (DESIGN CHOICE, log entry 13). `mon` are the MON inputs that lie
below their level, on an EXT rail that is off too (MONOK), or the peak of a GB rail's sense. -/
def execUv (r : Rail) (mon : Word) (s : State) : Host.Outcome State Fault Refusal :=
  .next (
    let falls := uvFalls s r.val mon
    let s := if anvilOn s then uvNote r.val mon s else s
    if anvilOn s && has s.rl.en r.val && has s.rl.pgd r.val && !has s.rl.soft r.val && supervised s r.val && falls then
      (let s := if rk r.val = .ext then { s with seq := { s.seq with monuvl := s.seq.monuvl ||| mon } } else s
       react r.val 0 (16 * r.val) true false (losePg r.val (raiseW (16 * r.val) s)))
    else s)

/-- OV: never on LSW; on a disabled rail too. An enabled rail other than an EXT rail holds off its switching (R74, R97, R116,
R121, R128). -/
def execOv (r : Rail) (mon : Word) (s : State) : Host.Outcome State Fault Refusal :=
  .next (if anvilOn s && decide (rk r.val ≠ .lsw) && supervised s r.val then
      (let on := has s.rl.en r.val
       let b := bit r.val
       let s := monNote r.val mon s
       let s := if rk r.val = .ext then { s with seq := { s.seq with monovl := s.seq.monovl ||| mon, monhi := s.seq.monhi ||| mon } }
         else if on then breach { s with rl := { s.rl with hold := s.rl.hold ||| b } } else s
       let s := { s with rl := { s.rl with ovNow := s.rl.ovNow ||| b, uvNow := s.rl.uvNow &&& ~~~b } }
       react r.val 1 (16 * r.val + 1) on false (raise (16 * r.val + 1) s))
    else s)

/-- OV_HOLD_RELEASE; the inputs of an EXT rail that OV reported lie in their windows again. -/
def execOvHoldRelease (r : Rail) (s : State) : Host.Outcome State Fault Refusal :=
  .next (
    let s := if anvilOn s then monsBack r.val s else s
    { s with rl := { s.rl with hold := s.rl.hold &&& ~~~(bit r.val), ovNow := s.rl.ovNow &&& ~~~(bit r.val) } })

/-- The overload time of a rail, in half microseconds (R80, R106, R133 to R136). -/
def olTime (s : State) (r : Nat) : Nat :=
  let n := fun o => (lv s (blk r + o)).toNat
  match rk r with
  | .pre => ms (n 7)
  | .mph => ms (n 0x0B)
  | .bka => ms (n 9)
  | .bkb => ms (n 9)
  | .ldo => ms (n 5)
  | .lsw => us (500 * n 2)
  | .gb => ms (n 7)
  | .ext => 0

/-- The live limit of the averaged clamp or the current limit, in counts of the rail's current encoding (R80, R106, R133 to
R135); a GB rail's is half of all half-periods, in percent (R129). -/
def liveLimit (s : State) (r : Nat) : Nat :=
  match rk r with
  | .pre => rdNat (lv s) (blk r + 4) 2
  | .mph => rdNat (lv s) (blk r + 9) 2
  | .bka => rdNat (lv s) (blk r + 7) 2
  | .bkb => rdNat (lv s) (blk r + 7) 2
  | .ldo => 100 + 50 * (rdBits (lv s) (blk r + 1) 0 4)
  | .lsw => 500 + 250 * (rdBits (lv s) (blk r + 1) 0 4)
  | .gb => 50
  | .ext => 0

/-- The limit of a rail under its factor: the lower of the live one and F × IBASE, IBASE at least a tenth of it (R255). -/
def factorLimit (s : State) (r : Nat) : Nat :=
  let f := mget 100 s.thm.f r
  if f < 100 then min (liveLimit s r) (max (mget 0 s.thm.ibase r) ((liveLimit s r + 9) / 10) * f / 100) else liveLimit s r

/-- The limit in force; an LDO's folds back to a quarter while its output, as last measured, lies below half of the
reference (R121). -/
def limitInForce (s : State) (r : Nat) : Nat :=
  let n := factorLimit s r
  if decide (rk r = .ldo) && (lv s (blk r + 4)).getLsbD 1 && belowRef s r 50 then n / 4 else n

/-- The averaged clamp or the current limit engages: the overload time runs (R73, R96, R115, R121, R125); an LDO's
engagement is its OCFAST (R121). -/
def engage (r : Nat) (s : State) : State :=
  let s := arm (olTime s r) (.ocslow (railF r)) { s with rl := { s.rl with clamp := s.rl.clamp ||| bit r } }
  if rk r = .ldo then react r 2 (16 * r + 2) true false (raise (16 * r + 2) s) else s

/-- Clamping or limiting has ceased. -/
def disengage (r : Nat) (s : State) : State :=
  disarm (.ocslow (railF r)) { s with rl := { s.rl with clamp := s.rl.clamp &&& ~~~(bit r), slowRun := s.rl.slowRun &&& ~~~(bit r) } }

/-- A cycle-by-cycle limit has ended a period, the `run`-th in a row, or with 0 has let one pass (R73, R95, R115, R129,
R152): CLIM, OCFAST once in a run from 16 periods on; a shed phase comes back (R77, R91). -/
def periodLimit (r run : Nat) (s : State) : State :=
  let b := bit r
  if run = 0 then { s with rl := { s.rl with clim := s.rl.clim &&& ~~~b, ocRun := s.rl.ocRun &&& ~~~b } }
  else
    let s := breach { s with rl := { s.rl with clim := s.rl.clim ||| b, shed := s.rl.shed &&& ~~~b } }
    if run ≥ 16 ∧ !has s.rl.ocRun r then
      react r 2 (16 * r + 2) true false (raise (16 * r + 2) { s with rl := { s.rl with ocRun := s.rl.ocRun ||| b } })
    else s

/-- OCFAST: `run` periods limited in a row, 0 for one that was not; `neg`, an edge of the negative limit, which a buck has in
its quench too (R95, R119, R132). An LDO's is the engagement of its limit (R121); an LSW opens by itself (R125). -/
def execOcfast (x : LimitRun) (s : State) : Host.Outcome State Fault Refusal :=
  .next (
    let r := x.rail.val
    let on := has s.rl.en r
    if !anvilOn s then s
    else match rk r with
      | .ext => s
      | .ldo => if on && decide (x.run ≠ 0) && !has s.rl.clamp r then engage r s else s
      | .lsw => if on && decide (x.run ≠ 0) then react r 2 (16 * r + 2) true true (ownOff r (raise (16 * r + 2) s)) else s
      | _ => if x.neg then (if on || has s.rl.qu r then breach s else s)
             else if on then periodLimit r x.run s else s)

/-- OVERLOAD_CLAMP: `demand` is the current that the load asks for, averaged, in counts of the rail's current encoding; a GB
rail's is the share of limited half-periods in percent. Above the limit in force the clamp engages, below it releases (R73,
R96, R115, R121, R125, R129, R255). -/
def execOverloadClamp (r : Rail) (demand : Nat) (s : State) : Host.Outcome State Fault Refusal :=
  .next (
    let on := has s.rl.clamp r.val
    let lim := limitInForce s r.val
    if !anvilOn s || !has s.rl.en r.val || decide (rk r.val = .ext) then s
    else if decide (lim < demand) && !on then engage r.val s
    else if (decide (demand < lim) || (decide (rk r.val = .gb) && decide (demand = lim))) && on then disengage r.val s
    else s)

/-- OCSLOW, once per unbroken run of clamping (R152); an LSW opens by itself (R125). -/
def execOcslow (r : Rail) (s : State) : Host.Outcome State Fault Refusal :=
  .next (
    let s := disarm (.ocslow r) s
    let b := bit r.val
    let src := 16 * r.val + 3
    if !anvilOn s || !has s.rl.en r.val || !has s.rl.clamp r.val || has s.rl.slowRun r.val then s
    else match rk r.val with
      | .ext => s
      | .lsw => react r.val 3 src true true (ownOff r.val (raise src s))
      | _ => react r.val 3 src true false (raise src { s with rl := { s.rl with slowRun := s.rl.slowRun ||| b } }))

/-- The rail's thermal limit is reached: event and reaction (R103, R117, R254). -/
def thermalLimit (r : Nat) (s : State) : State :=
  if has s.rl.thl r then s
  else
    let src := 16 * r + 10
    react r 5 src (has s.rl.en r) false (raise src { s with rl := { s.rl with thl := s.rl.thl ||| bit r, thlNow := s.rl.thlNow ||| bit r } })

/-- THLIM. -/
def execThlim (r : Rail) (s : State) : Host.Outcome State Fault Refusal :=
  .next (if anvilOn s && decide (rk r.val ≠ .ext) then thermalLimit r.val s else s)

/-- STAGE_TEMP_LIMIT_RELEASE: SFLTc reads 2 °C below MPHTL (R103). -/
def execStageTempLimitRelease (c : Chan) (s : State) : Host.Outcome State Fault Refusal :=
  .next { s with rl := { s.rl with thl := s.rl.thl &&& ~~~(bit (1 + c.val)), thlNow := s.rl.thlNow &&& ~~~(bit (1 + c.val)) } }

/-- A start timeout that expired in the step in which its rail was switched off, and that no set's step has taken: it is raised, and
its reaction follows unless it is RETRY or IGNORE (R161); in SAFE it has no effect on the rail, which is off (R207). -/
def joinStart (r : Nat) (s : State) : State :=
  let src := 16 * r + 5
  let s := raise src { s with seq := { s.seq with joined := s.seq.joined &&& ~~~(bit r) } }
  let code := rxCode (lv s) r 4
  if code < 2 ∨ s.glob.st = .safe then s
  else
    let s := noteReaction r code 4 src s
    if code = 6 then enterSafe 6 src s else if code = 5 then requestReset .rail s else setOff (members s r code true) s

/-- STARTTMO: no power-good STTMO after the enable (R142). -/
def execStarttmo (r : Rail) (s : State) : Host.Outcome State Fault Refusal :=
  .next (
    let s := disarm (.starttmo r) s
    let src := 16 * r.val + 5
    if has s.seq.taken r.val then { s with seq := { s.seq with taken := s.seq.taken &&& ~~~(bit r.val) } }
    else if !anvilOn s then s
    else if has s.seq.joined r.val then joinStart r.val s
    else if has s.rl.en r.val && !has s.rl.pgd r.val then react r.val 4 src true false (raise src s) else s)

/-! Strike, braking, blanking (R92 to R94). -/

/-- Strike and braking are armed: power-good, so past soft-start, and the enable bit of MPHCFG. -/
def transientArmed (s : State) (c cfgBit : Nat) : Bool :=
  anvilOn s && has s.rl.en (1 + c) && has s.rl.pg (1 + c) && (lv s (blk (1 + c) + 2)).getLsbD cfgBit

/-- A strike begins, the output below the reference: counted, raised, shed phase back; an overlap starts again after it (R92, R102). -/
def startStrike (c : Nat) (s : State) : State :=
  let r := 1 + c
  let n := mget 0 s.bk.strkn c
  let s := { s with bk := { s.bk with strk := setBit s.bk.strk c true, strkn := mput 0 s.bk.strkn c (BitVec.ofNat 16 (satAdd 0xFFFF 1 n.toNat)) }
                    rl := { s.rl with shed := s.rl.shed &&& ~~~(bit r) } }
  let s := disarm (.swapOverlapEnd (.phases (Fin.ofNat 5 r))) s
  let t := rdBits (lv s) (blk r + 0x0C) 4 4 + 1
  raiseG r 13 (breach (arm t (.strikeEnd (Fin.ofNat 4 c)) (preOver r s)))

/-- STRIKE. -/
def execStrike (c : Chan) (s : State) : Host.Outcome State Fault Refusal :=
  .next (if transientArmed s c.val 4 && !s.bk.strk.getLsbD c.val && !s.bk.blkS.getLsbD c.val then startStrike c.val s else s)

/-- Two switching periods in half microseconds, rounded up (R78, R102). -/
def overlapTime (s : State) (r : Nat) : Nat := periods s r 2

/-- STRIKE_END. -/
def execStrikeEnd (c : Chan) (s : State) : Host.Outcome State Fault Refusal :=
  .next (if !s.bk.strk.getLsbD c.val then disarm (.strikeEnd c) s
    else
      let r := 1 + c.val
      let s := strikeOver c.val s
      let s := { s with bk := { s.bk with blkS := setBit s.bk.blkS c.val true, blkB := setBit s.bk.blkB c.val true } }
      let s := arm (us 2) (.blankingEnd c .strike none) (arm (us 1) (.blankingEnd c .brake none) s)
      if has s.rl.overlap r then arm (overlapTime s r) (.swapOverlapEnd (.phases (Fin.ofNat 5 r))) s else s)

/-- Braking begins (R93). -/
def startBrake (c : Nat) (s : State) : State :=
  let t := us (rdBits (lv s) (blk (1 + c) + 0x0D) 4 4 + 1)
  breach (arm t (.brakeEnd (Fin.ofNat 4 c)) { s with bk := { s.bk with brk := setBit s.bk.brk c true } })

/-- BRAKE. -/
def execBrake (c : Chan) (s : State) : Host.Outcome State Fault Refusal :=
  .next (if transientArmed s c.val 6 && !s.bk.brk.getLsbD c.val && !s.bk.blkB.getLsbD c.val then startBrake c.val s else s)

/-- BRAKE_END. -/
def execBrakeEnd (c : Chan) (s : State) : Host.Outcome State Fault Refusal :=
  .next (if !s.bk.brk.getLsbD c.val then disarm (.brakeEnd c) s
    else
      let s := disarm (.brakeEnd c) { s with bk := { s.bk with brk := setBit s.bk.brk c.val false, blkS := setBit s.bk.blkS c.val true,
                                                               blkB := setBit s.bk.blkB c.val true } }
      arm (us 1) (.blankingEnd c .strike none) (arm (us 1) (.blankingEnd c .brake none) s))

/-- BLANKING_END: a trigger reported as still present acts (R94). -/
def execBlankingEnd (c : Chan) (k : Blank) (trig : Option Bool) (s : State) : Host.Outcome State Fault Refusal :=
  .next (
    let s := disarm (.blankingEnd c k none) s
    match k with
    | .strike =>
      let s := { s with bk := { s.bk with blkS := setBit s.bk.blkS c.val false } }
      if trig = some true ∧ transientArmed s c.val 4 ∧ !s.bk.strk.getLsbD c.val then startStrike c.val s else s
    | .brake =>
      let s := { s with bk := { s.bk with blkB := setBit s.bk.blkB c.val false } }
      if trig = some true ∧ transientArmed s c.val 6 ∧ !s.bk.brk.getLsbD c.val then startBrake c.val s else s)

/-! Phases and pass devices (R75, R76, R91, R99, R100, R122, R123). -/

/-- ADD_PHASE: a shed phase comes back at once (R77, R91). -/
def execAddPhase (r : PhRail) (s : State) : Host.Outcome State Fault Refusal :=
  .next { s with rl := { s.rl with shed := s.rl.shed &&& ~~~(bit r.val) } }

/-- An abandoned swap is pending no more (R102, R124). -/
def dropSwaps (p : Nat → Bool) (s : State) : State := { s with pat := { s.pat with pend := s.pat.pend.filter (fun i => !p i) } }

/-- Patina's number of phase p of PRE or MPH rail r (R225). -/
def phaseRes (r p : Nat) : Nat := if r = 0 then 12 + p else 3 * (r - 1) + p

/-- A phase is declared failed: isolated until the next power-on reset. A swap in which it takes part is abandoned; its
other phase stays active and no spare is left (R102). With one healthy phase left none is shed. -/
def failPhase (r p cause : Nat) (s : State) : State :=
  let q := phOf s r
  let part := has s.rl.overlap r && (decide (q.inc = p) || decide (q.out = p))
  let q' := { q with fail := setBit q.fail p true, cause := if r = 0 then 0 else cause,
                     spare := if part then 0 else setBit q.spare p false }
  let s := setPh r q' s
  let s := if count3 (healthy q') < 2 then { s with rl := { s.rl with shed := s.rl.shed &&& ~~~(bit r) } } else s
  let s := if part then dropSwaps (fun i => decide (i = phaseRes r q.out)) <| disarm (.swapOverlapEnd (.phases (Fin.ofNat 5 r))) { s with rl := { s.rl with overlap := s.rl.overlap &&& ~~~(bit r) } } else s
  raiseG r 7 s

/-- Pass device P0 or P1 of LDOc is declared failed (R122 to R124): a swap under way is abandoned. -/
def failPass (c : Nat) (p1 isOpen : Bool) (s : State) : State :=
  let l := ldoOf s c
  let l' := { l with p0f := l.p0f || !p1, p1f := l.p1f || p1, pcause := if isOpen then 1 else 2 }
  let r := 13 + c
  let s := if has s.rl.overlap r then dropSwaps (fun i => decide (15 + 2 * c ≤ i ∧ i ≤ 16 + 2 * c)) s else s
  let s := disarm (.swapOverlapEnd (.ldo (Fin.ofNat 4 c))) { setLdo c l' s with rl := { s.rl with overlap := s.rl.overlap &&& ~~~(bit r) } }
  raiseG r 7 s

/-- LDOCFG.SPAREEN. -/
def spareEn (s : State) (c : Nat) : Bool := (lv s (blk (13 + c) + 4)).getLsbD 0

/-- A cause of R99 can show on a rail: IMON above 2.60 V always, below 0.300 V while SENc is high, the comparison of periods while
phases switch; a cause of PRE while it is enabled (R75). -/
def causeShows (s : State) (r cause : Nat) : Bool :=
  has s.rl.en r || (decide (r ≠ 0) && (decide (cause = 1) || (decide (cause = 2) && has s.rl.qu r)))

/-- PHASEFLT: of a phase whose cause can show (R99); of a pass device that is driven, while SPAREEN is 1 (R122, R124). -/
def execPhaseflt (d : FailDev) (s : State) : Host.Outcome State Fault Refusal :=
  .next (match d with
    | .phase r p cause =>
      if anvilOn s && causeShows s r.val (cause.val + 1) && !(phOf s r.val).fail.getLsbD p.val then
        failPhase r.val p.val (cause.val + 1) s else s
    | .pass c p1 isOpen =>
      let l := ldoOf s c.val
      if anvilOn s && spareEn s c.val && has s.rl.en (13 + c.val) && (decide (p1 = l.pass1) || has s.rl.overlap (13 + c.val)) &&
         !(if p1 then l.p1f else l.p0f) then
        failPass c.val p1 isOpen s else s)

/-- SPAREIN: a healthy idle phase has taken over without event; otherwise the populated healthy spare, or the other pass
device, joins and is reported (R76, R100, R123). R100 does not say two things, which are DESIGN CHOICES (log entry 13): the spare
joins only where fewer than NPH healthy phases are left, so not for a failed idle phase; and it ends the shedding of its rail. -/
def execSparein (d : SpareRail) (s : State) : Host.Outcome State Fault Refusal :=
  .next (match d with
    | .phases r =>
      let q := phOf s r.val
      if anvilOn s && has s.rl.en r.val && decide (q.fail ≠ 0) && decide (count3 (healthy q) < nph (lv s) r.val) &&
         sparepop (lv s) r.val && decide (q.spare &&& ~~~q.fail ≠ 0) then
        raiseG r.val 8 (setPh r.val { q with spare := 0 } { s with rl := { s.rl with shed := s.rl.shed &&& ~~~(bit r.val) } })
      else s
    | .ldo c =>
      let l := ldoOf s c.val
      if anvilOn s && (if l.pass1 then l.p1f && !l.p0f else l.p0f && !l.p1f) then
        raiseG (13 + c.val) 8 (setLdo c.val { l with pass1 := !l.pass1 } s)
      else s)

/-- STGFLT: SFLTc rises above 2.50 V with no phase identified, or with `on` false falls back (R99, R108). -/
def execStgflt (x : ChanEdge) (s : State) : Host.Outcome State Fault Refusal :=
  .next (
    let c := x.chan.val
    if !anvilOn s then s
    else raiseIf (x.on && !s.bk.stgflt.getLsbD c) (16 * (1 + c) + 15) { s with bk := { s.bk with stgflt := setBit s.bk.stgflt c x.on } })

/-- IMBAL: on PRE, MPH and GB rails; an MPH rail raises it again only after IMBAL_REARM, and not with IMBTH 0 (R82, R88,
R129). -/
def execImbal (r : Rail) (s : State) : Host.Outcome State Fault Refusal :=
  .next (
    let ok := match rk r.val with
      | .pre => true
      | .mph => !has s.rl.imbal r.val && decide (rdBits (lv s) (blk r.val + 0x11) 0 4 ≠ 0)
      | .gb => true
      | _ => false
    if anvilOn s && has s.rl.en r.val && ok then
      raiseG r.val 14 { s with rl := { s.rl with imbal := s.rl.imbal ||| bit r.val, imbNow := s.rl.imbNow ||| bit r.val } }
    else if anvilOn s && has s.rl.en r.val && has s.rl.imbal r.val then { s with rl := { s.rl with imbNow := s.rl.imbNow ||| bit r.val } }
    else s)

/-- IMBAL_REARM. -/
def execImbalRearm (r : Rail) (s : State) : Host.Outcome State Fault Refusal :=
  .next { s with rl := { s.rl with imbal := s.rl.imbal &&& ~~~(bit r.val), imbNow := s.rl.imbNow &&& ~~~(bit r.val) } }

/-! Stops and blocks' own events (R111, R114, R117, R121, R126, R131). -/

/-- An enabled buck or driver stops switching: its ramp ends. -/
def stopBlock (r : Nat) (s : State) : State :=
  disarm (.rampEnd (railF r)) { s with rl := { s.rl with ss := s.rl.ss &&& ~~~(bit r), soft := s.rl.soft &&& ~~~(bit r) } }

/-- A stopped buck or driver restarts with its soft-start once nothing stops it and it is still enabled. -/
def restartBlock (r : Nat) (s : State) : State := if has s.rl.en r && !stopped s r then startRamp r s else s

/-- PVIN_LOW. -/
def execPvinLow (c : Chan) (s : State) : Host.Outcome State Fault Refusal :=
  .next (stopBlock (5 + c.val) (stopBlock (9 + c.val) { s with bk := { s.bk with pvlow := setBit s.bk.pvlow c.val true } }))

/-- PVIN_RESTORE: enabled bucks restart with a new soft-start. -/
def execPvinRestore (c : Chan) (s : State) : Host.Outcome State Fault Refusal :=
  .next (if !s.bk.pvlow.getLsbD c.val then s
    else
      let s := { s with bk := { s.bk with pvlow := setBit s.bk.pvlow c.val false } }
      restartBlock (9 + c.val) (restartBlock (5 + c.val) s))

/-- MINTON: raised once per run of skipped periods, which `on` false ends (R114). -/
def execMinton (x : RailEdge) (s : State) : Host.Outcome State Fault Refusal :=
  .next (
    let r := x.rail.val
    if anvilOn s && has s.rl.en r && (decide (rk r = .bka) || decide (rk r = .bkb)) then
      raiseIf (x.on && !s.bk.skip.getLsbD (bkIdx r)) (16 * r + 15) { s with bk := { s.bk with skip := setBit s.bk.skip (bkIdx r) x.on } }
    else s)

/-- HOTSPOT: the buck turns off without quench, raises THLIM, and its THLIM reaction follows under R154. -/
def execHotspot (r : Rail) (s : State) : Host.Outcome State Fault Refusal :=
  .next (if anvilOn s && (decide (rk r.val = .bka) || decide (rk r.val = .bkb)) && !s.bk.hot.getLsbD (bkIdx r.val) then
      (let on := has s.rl.en r.val
       let src := 16 * r.val + 10
       let s := { s with bk := { s.bk with hot := setBit s.bk.hot (bkIdx r.val) true } }
       react r.val 5 src on on (raise src (if on then ownOff r.val s else s)))
    else s)

/-- HOTSPOT_RELEASE: a buck enabled meanwhile starts now. -/
def execHotspotRelease (r : Rail) (s : State) : Host.Outcome State Fault Refusal :=
  .next (if (rk r.val = .bka ∨ rk r.val = .bkb) ∧ s.bk.hot.getLsbD (bkIdx r.val) then
      restartBlock r.val { s with bk := { s.bk with hot := setBit s.bk.hot (bkIdx r.val) false } }
    else s)

/-- DROPOUT: an LDO enters dropout, or with `on` false leaves it (R121). -/
def execDropout (x : ChanEdge) (s : State) : Host.Outcome State Fault Refusal :=
  .next (
    let c := x.chan.val
    if anvilOn s && has s.rl.en (13 + c) then
      raiseIf (x.on && !(ldoOf s c).drop) (16 * (13 + c) + 15) (setLdo c { ldoOf s c with drop := x.on } s)
    else s)

/-- REVBLK: with RBEN the switch opens; power-good is held. -/
def execRevblk (c : Chan) (s : State) : Host.Outcome State Fault Refusal :=
  .next (if anvilOn s && has s.rl.en (17 + c.val) && !s.bk.revblk.getLsbD c.val && (lv s (blk (17 + c.val))).getLsbD 3 then
      raiseG (17 + c.val) 15 { s with bk := { s.bk with revblk := setBit s.bk.revblk c.val true } }
    else s)

/-- REVBLK_RELEASE. -/
def execRevblkRelease (c : Chan) (s : State) : Host.Outcome State Fault Refusal :=
  .next { s with bk := { s.bk with revblk := setBit s.bk.revblk c.val false } }

/-- VLOW: VMID lies below 4.5 V. An enabled driver stops; without sense it loses power-good (R128, R131). -/
def execVlow (c : Chan) (s : State) : Host.Outcome State Fault Refusal :=
  .next (
    let r := 21 + c.val
    if !anvilOn s || s.bk.vlow.getLsbD c.val then s
    else
      let s := { s with bk := { s.bk with vlow := setBit s.bk.vlow c.val true } }
      if !has s.rl.en r then s
      else
        let s := raiseG r 15 (stopBlock r s)
        if snsen (lv s) c.val then s else losePg r s)

/-- VLOW_RESTART: VMID has reached 4.7 V; soft-start while the rail is still enabled. -/
def execVlowRestart (c : Chan) (s : State) : Host.Outcome State Fault Refusal :=
  .next (if s.bk.vlow.getLsbD c.val then restartBlock (21 + c.val) { s with bk := { s.bk with vlow := setBit s.bk.vlow c.val false } }
    else s)

/-- QUENCH_END: on its end condition the rail is down; by timeout STOPTMO is raised and it counts as down (R132, R149). -/
def execQuenchEnd (r : Rail) (timeout : Bool) (s : State) : Host.Outcome State Fault Refusal :=
  .next (if has s.rl.qu r.val then settle (markDown r.val (if timeout then raiseG r.val 6 s else outputDown r.val s))
    else disarm (.quenchEnd r true) s)

end Sys2Proof.Machine
end

