-- ==== Sys2Proof/Machine/Patina.lean ====
section
/-! DEFINITION. Patina (R225 to R227, R48, R78, R102, R124): wear, roles, spares, planned swaps. -/

namespace Sys2Proof.Machine

/-! Resources (R225). -/

/-- The rail of a phase resource, with the phase. -/
def resPhase (i : Nat) : Option (Nat × Nat) :=
  if i < 12 then some (1 + i / 3, i % 3) else if i < 15 then some (0, i - 12) else none

/-- The channel of a pass-device resource, with the device. -/
def resPass (i : Nat) : Option (Nat × Nat) := if 15 ≤ i ∧ i < 23 then some ((i - 15) / 2, (i - 15) % 2) else none

/-- PATSTATE.ROLE: 0 active, 1 spare, 2 retired spare, 3 failed. -/
def roleOf (s : State) (i : Nat) : Nat :=
  match resPhase i, resPass i with
  | some (r, p), _ =>
    let q := phOf s r
    if q.fail.getLsbD p then 3 else if q.spare.getLsbD p then (if q.retired.getLsbD p then 2 else 1) else 0
  | none, some (c, k) =>
    let l := ldoOf s c
    if (if k = 1 then l.p1f else l.p0f) then 3
    else if decide (k = 1) = l.pass1 then 0 else if l.retired then 2 else 1
  | none, none =>
    let t := s.tst
    if i < 26 then
      (if t.refFail.getLsbD (i - 23) then 3
       else if i = 23 then (if t.cmpOnC then (if t.retired.getLsbD 0 then 2 else 1) else 0)
       else if i = 24 then (if t.adcOnC then (if t.retired.getLsbD 1 then 2 else 1) else 0)
       else if t.cmpOnC || t.adcOnC then 0 else 1)
    else if t.oscFail.getLsbD (i - 26) then 3
    else if decide (i = 27) = t.oscB then 0 else if t.retired.getLsbD (i - 23) then 2 else 1

/-- The rail has a fresh spare phase: populated, healthy, in the spare role and not retired. -/
def freshPhase (s : State) (r : Nat) : Bool :=
  let q := phOf s r
  sparepop (lv s) r && decide (q.spare &&& ~~~q.fail &&& ~~~q.retired ≠ 0)

/-- LDOc has a fresh spare device. -/
def freshPass (s : State) (c : Nat) : Bool :=
  let l := ldoOf s c
  spareEn s c && !l.retired && !(if l.pass1 then l.p0f else l.p1f)

/-- REF-C can take consumers. -/
def freshRef (s : State) : Bool := !s.tst.refFail.getLsbD 2
/-- The standby oscillator is healthy. -/
def freshOsc (s : State) : Bool :=
  if s.tst.oscB then !s.tst.oscFail.getLsbD 0 else !s.tst.oscFail.getLsbD 1

/-- The standby oscillator has not been retired. -/
def unretiredOsc (s : State) : Bool := if s.tst.oscB then !s.tst.retired.getLsbD 3 else !s.tst.retired.getLsbD 4

/-- A fresh spare stands by for resource i. -/
def hasFresh (s : State) (i : Nat) : Bool :=
  match resPhase i, resPass i with
  | some (r, _), _ => freshPhase s r
  | none, some (c, _) => freshPass s c
  | none, none => if i < 25 then freshRef s else if i = 25 then false else freshOsc s && unretiredOsc s

/-! Wear (R226). -/

/-- A quantity against a life, in per mille. -/
def perMille (x life unit : Nat) : Nat :=
  if life = 0 then Config.wearOfZeroLife x else 1000 * x / (life * unit)

/-- A 16-bit field of page 0x32. -/
def pat16 (s : State) (o : Nat) : Nat := rdNat (pl s) (key 0x32 o) 2

/-- PATWEAR: charge in mA over rounds against kA·h, hot time in rounds against hours; deviations, summed in 0.005 % over the
36,000 rounds of an hour, against 0.5 % and 1.0 %. -/
def wearOf (s : State) (i : Nat) : Nat :=
  let q : Res := mget {} s.pat.res i
  let w := if i < 23 then
      max (perMille q.chg (pat16 s (if i < 12 then 0x12 else if i < 15 then 0x14 else 0x16)) 36000000000)
          (perMille q.hot (pat16 s 0x18) 36000)
    else if i < 26 then 10 * q.dev / 36000 else 5 * q.dev / 36000
  min 0xFFFF w

/-- The resource has reached PATRET. -/
def worn (s : State) (i : Nat) : Bool := decide (pat16 s 0x10 ≤ wearOf s i)

/-- PATPEND. -/
def patpend (s : State) : BitVec 28 := s.pat.pend.foldl (fun m i => m ||| BitVec.twoPow 28 i) 0

/-- Page 0x32 offsets 0x20 to 0x27: the spare summary and PATPEND (R234). -/
def spareSummary (s : State) : List Byte :=
  let ph := (List.range 4).foldl (fun n c => n + (freshPhase s (1 + c)).toNat * 2 ^ c) 0 + 16 * (freshPhase s 0).toNat
  let ld := (List.range 4).foldl (fun n c => n + (freshPass s c).toNat * 2 ^ c) 0 + 16 * (freshRef s).toNat + 32 * (freshOsc s).toNat
  let fl := ((List.range 64).filter (fun k => let x := sector s (336 + k); x.stand.isNone && !x.retired)).length
  [BitVec.ofNat 8 ph, BitVec.ofNat 8 ld, BitVec.ofNat 8 fl, BitVec.ofNat 8 (spareFuse s.otp)] ++ leBytes 4 (patpend s).toNat

/-! Planned swaps (R227). -/

/-- Make a swap pending. -/
def pendSwap (i : Nat) (s : State) : State :=
  if s.pat.pend.contains i then s else { s with pat := { s.pat with pend := s.pat.pend ++ [i] } }

/-- SPARELOW, once while the resource lacks a fresh spare. -/
def spareLow (i : Nat) (s : State) : State :=
  if s.pat.low.getLsbD i then s else raiseG 60 12 { s with pat := { s.pat with low := setBit s.pat.low i true } }

/-- Every active resource that has reached PATRET: RETIRE once, whatever else has made its swap pending, and a pending swap, or
SPARELOW (R227). -/
def retireWorn (s : State) : State :=
  (List.range 28).foldl (fun s i =>
    let fresh := hasFresh s i
    let due := decide (roleOf s i = 0) && worn s i
    let s1 := if fresh then { s with pat := { s.pat with low := setBit s.pat.low i false } } else s
    if !due then { s1 with pat := { s1.pat with told := setBit s1.pat.told i false } }
    else if fresh then
      pendSwap i (raiseIf (!s1.pat.told.getLsbD i) (16 * 60 + 10) { s1 with pat := { s1.pat with told := setBit s1.pat.told i true } })
    else if s1.pat.pend.contains i then s1
    else spareLow i s1) s

/-- PATPEND as recomputed from a reloaded ledger (R215); which events have been raised is lost with the firmware's memory (log entry 32). -/
def recomputePend (s : State) : State :=
  { s with pat := { s.pat with low := 0, told := 0
                               pend := (List.range 28).filter (fun i => decide (roleOf s i = 0) && worn s i && hasFresh s i) } }

/-- OPERATING_HOUR (R226): the ledger and the gauge are written; worn resources are retired. -/
def execOperatingHour (s : State) : Host.Outcome State Fault Refusal :=
  .next (if fwOn s then
      (let s := retireWorn s
       grant { s with fl := { s.fl with wantPat := true, wantGau := if s.gau.off then s.fl.wantGau else max 1 s.fl.wantGau } })
    else s)

/-- A swap has been made: the outgoing part is retired where it is worn (R227). -/
def swapDone (i : Nat) (s : State) : State :=
  raiseG 60 11 { s with pat := { s.pat with pend := s.pat.pend.filter (fun x => decide (x ≠ i)) } }

/-- A strike or a limit is in progress on the part's rail (R48, R78, R102, R124). -/
def swapBlocked (s : State) (i : Nat) : Bool :=
  match resPhase i, resPass i with
  | some (r, _), _ =>
    has s.rl.clamp r || (if r = 0 then s.inp.plim
      else has s.rl.clim r || s.bk.strk.getLsbD (r - 1) || s.bk.brk.getLsbD (r - 1))
  | none, some (c, _) => has s.rl.clamp (13 + c) || (ldoOf s c).drop
  | none, none => false

/-- Start the swap of resource i: an overlap, or the switch of a reference or oscillator at once. -/
def beginSwap (i : Nat) (s : State) : State :=
  match resPhase i, resPass i with
  | some (r, p), _ =>
    let q := phOf s r
    let inc := low3 (q.spare &&& ~~~q.fail &&& ~~~q.retired)
    let n := if inc = 1 then 0 else if inc = 2 then 1 else 2
    arm (overlapTime s r) (.swapOverlapEnd (.phases (Fin.ofNat 5 r)))
      (setPh r { q with inc := n, out := p } { s with rl := { s.rl with overlap := s.rl.overlap ||| bit r } })
  | none, some (c, _) =>
    arm (us 20) (.swapOverlapEnd (.ldo (Fin.ofNat 4 c))) { s with rl := { s.rl with overlap := s.rl.overlap ||| bit (13 + c) } }
  | none, none =>
    let t := s.tst
    let ret := setBit t.retired (i - 23) (worn s i)
    if i = 23 then swapDone i { s with tst := { t with cmpOnC := true, retired := ret } }
    else if i = 24 then swapDone i { s with tst := { t with adcOnC := true, retired := ret } }
    else swapDone i { s with tst := { t with oscB := !t.oscB, retired := ret } }

/-- The overlap of resource i runs. -/
def overlapping (s : State) (i : Nat) : Bool :=
  match resPhase i, resPass i with
  | some (r, _), _ => has s.rl.overlap r
  | none, some (c, _) => has s.rl.overlap (13 + c)
  | none, none => false

/-- SWAP, where Patina runs (R45): the oldest pending swap starts, is deferred, or is dropped where its part is no longer active or its spare no
longer fresh (R48, R227). -/
def execSwap (s : State) : Host.Outcome State Fault Refusal :=
  .next (if !fwRuns s then s
    else match s.pat.pend with
      | [] => s
      | i :: rest =>
        if overlapping s i || swapBlocked s i then s
        else if roleOf s i ≠ 0 then { s with pat := { s.pat with pend := rest } }
        else if !hasFresh s i then spareLow i { s with pat := { s.pat with pend := rest } }
        else beginSwap i s)

/-- SWAP_OVERLAP_END: the outgoing part becomes the spare (R78, R102, R124). -/
def execSwapOverlapEnd (d : SpareRail) (s : State) : Host.Outcome State Fault Refusal :=
  .next (
    let s := disarm (.swapOverlapEnd d) s
    match d with
    | .phases r =>
      if !has s.rl.overlap r.val then s
      else
        let q := phOf s r.val
        let i := phaseRes r.val q.out
        let q' := { q with spare := BitVec.twoPow 3 q.out, retired := setBit 0 q.out (worn s i) }
        swapDone i (setPh r.val q' { s with rl := { s.rl with overlap := s.rl.overlap &&& ~~~(bit r.val) } })
    | .ldo c =>
      if !has s.rl.overlap (13 + c.val) then s
      else
        let l := ldoOf s c.val
        let i := 15 + 2 * c.val + l.pass1.toNat
        swapDone i (setLdo c.val { l with pass1 := !l.pass1, retired := worn s i }
          { s with rl := { s.rl with overlap := s.rl.overlap &&& ~~~(bit (13 + c.val)) } }))

/-! Commands (R227). -/

/-- SPARE_SWAP's own checks: one byte naming an active resource with a fresh spare. -/
def spareSwapBody (p : Packet) (s : State) : State :=
  match p.params with
  | [b] =>
    let i := b.toNat
    if i < 28 ∧ hasFresh s i ∧ roleOf s i = 0 then doneWith [] (pendSwap i s) else reject 0x01 s
  | _ => rejectOpen s

/-- SPARE_SWAP. -/
def execSpareSwap (p : Packet) (s : State) : Host.Outcome State Fault Refusal := .next (packet 0xA1 false p (spareSwapBody p) s)

/-- PATINA_REPORT. -/
def execPatinaReport (p : Packet) (s : State) : Host.Outcome State Fault Refusal :=
  .next (packet 0xA0 false p (fun s => if p.params = [] then doneWith (spareSummary s) s else rejectOpen s) s)

end Sys2Proof.Machine
end

