-- ==== Sys2Proof/Machine/Pilot.lean ====
section
/-! DEFINITION. The charge pilot and the proximity contact (10_charge_pilot.md, R263 to R282). Levels in mV, duty in
0.1 %, frequency in 0.1 Hz. Roles: 0 receive, 1 supply, 2 swapping, 3 passive (R265). States and classes: 0 UNKNOWN,
1 NC, 2 A, 3 B, 4 C, 5 D, 6 E, 7 F, 8 INVALID (R281). -/

namespace Sys2Proof.Machine

/-- The engine measures: outside passive, and the always-on domain serves (R265). -/
def pilotOn (s : State) : Bool := vaonOn s && decide (s.plt.role ≠ 3)

/-- PSW.S2REQ. -/
def s2req (s : State) : Bool := (pl s (key 0x40 0x68)).getLsbD 0

/-- PDUTYSET live. -/
def pdutyset (s : State) : Nat := rdNat (lv s) (key 0x40 3) 2

/-! The state resistor and the response timer (R271 to R276). -/

/-- S2 closes once every condition of R271 holds. -/
def tryS2 (s : State) : State :=
  if !s.plt.s2 && s2req s && decide (s.plt.role = 0) && s.plt.osc && (decide (s.plt.state = 3) || decide (s.plt.state = 4)) &&
     decide (1 ≤ s.plt.pp ∧ s.plt.pp ≤ 4) && !s.plt.soft && !s.plt.hard then
    raiseG 48 5 (setPlt (fun p => { p with s2 := true }) s)
  else s

/-- An acknowledgement (R273). -/
def pilotAck (s : State) : State := if s.plt.rspRun then raiseG 48 10 (stopResponse s) else s

/-! Classification (R267, R268). -/

/-- The class of a high plateau in mV, with the edges adjoining the reported state moved 0.2 V away from it. -/
def pilotBand (old : Nat) (vh : Int) : Nat :=
  let e := fun (x : Int) (upper lower : Nat) => if old = upper then x - 200 else if old = lower then x + 200 else x
  if 13500 < vh then 8 else if e 10500 2 3 ≤ vh then 2 else if e 7500 3 4 ≤ vh then 3 else if e 4500 4 5 ≤ vh then 4
  else if 1500 ≤ vh then 5 else if -1500 < vh then 6 else if -13500 ≤ vh ∧ vh ≤ -10500 then 7 else 8

/-- A low plateau in its band. -/
def lowOk (lo : Int) : Bool := decide (-13500 ≤ lo ∧ lo ≤ -10500)

/-- The class of a period or window (R267). A low plateau out of its band makes a period INVALID in every role but supply, where
R278 has it. -/
def pilotClass (s : State) (pwm : Bool) (vh lo : Int) : Nat :=
  let c := pilotBand s.plt.state vh
  if pwm then (if (s.plt.role ≠ 1 ∧ !lowOk lo) ∨ c = 6 ∨ c = 7 then 8 else c)
  else if c = 6 ∧ s.plt.role = 0 ∧ s.plt.pp = 0 then 1 else c

/-- A class joins its run; the fourth in a row is reported (R268), with its causes (R272). -/
def pilotClassify (c : Nat) (s : State) : State :=
  let n := if s.plt.cls = c then s.plt.run + 1 else 1
  let s := setPlt (fun p => { p with cls := c, run := min 4 n, seen := min 4 (p.seen + 1) }) s
  if n < 4 ∨ c = s.plt.state then s
  else
    let s := raiseG 48 0 (setPlt (fun p => { p with state := c }) s)
    let s := raiseIf (decide (c = 8)) (16 * 48 + 12) s
    tryS2 (causeIf (decide (6 ≤ c)) 2 s)

/-! Duty coding (R269). -/

/-- PCURR of a duty in 0.1 %. -/
def pcurrOf (d : Nat) : Nat :=
  if d < 30 then 0 else if d ≤ 70 then 0xFFFE else if d < 80 then 0 else if d < 100 then 60
  else if d ≤ 850 then d * 6 / 10 else if d ≤ 960 then (d - 640) * 5 / 2 else if d ≤ 970 then 800 else 0xFFFF

/-- Mean of n values. -/
def meanInt (l : List Int) : Int := l.foldl (· + ·) 0 / (max 1 l.length : Nat)

/-- Means over the last four periods are published (R266); FREQERR, which needs OSC, and PCURR follow, without OSC at once. -/
def publishPilot (s : State) : State :=
  let h := s.plt.hist
  if h.length < 4 then (if s.plt.osc then s else setCurr 0xFFFF (setPlt (fun p => { p with freqerr := false }) s))
  else
    let nat := fun (f : Int × Int × Nat × Nat → Nat) => h.foldl (fun a x => a + f x) 0 / 4
    let duty := nat (fun x => x.2.2.1)
    let freq := nat (fun x => x.2.2.2)
    let bad := s.plt.osc && decide (freq < 9800 ∨ 10200 < freq)
    let was := s.plt.freqerr
    let s := setPlt (fun p => { p with duty := BitVec.ofNat 16 duty, freq := BitVec.ofNat 16 (min 0xFFFF freq), freqerr := bad,
                                       cphi := word16 (meanInt (h.map (·.1))), cplo := word16 (meanInt (h.map (·.2.1))) }) s
    let s := raiseIf (bad && !was) (16 * 48 + 4) s
    setCurr (if bad || !s.plt.osc then 0xFFFF else pcurrOf duty) s

/-- The supply role's diode check (R278). -/
def diodeCheck (lo : Int) (s : State) : State :=
  if s.plt.role ≠ 1 ∨ s.plt.diode then s
  else
    let n := if lowOk lo then 0 else s.plt.lowRun + 1
    let s := setPlt (fun p => { p with lowRun := n }) s
    if n ≥ 4 then raiseG 48 13 (setPlt (fun p => { p with diode := true }) s) else s

/-- A period of the generator begins: the present PDUTYSET takes effect (R277). -/
def latchDuty (s : State) : State := setPlt (fun p => { p with gduty := pdutyset s }) s

/-- PILOT_PERIOD: one measuring period has ended, and the next begins. OSC says whether its crossings came at 500 Hz to 2 kHz;
outside that range the period is measured, published and classified all the same, without PWM (R266, R267). -/
def execPilotPeriod (hi lo : Int) (duty freq : Nat) (s : State) : Host.Outcome State Fault Refusal :=
  .next (if !pilotOn s then s
    else
      let pwm := decide (5000 ≤ freq ∧ freq ≤ 20000)
      let s := setOsc pwm (latchDuty (arm (ms 2) .pwmoff s))
      let s := setPlt (fun p => { p with hist := (p.hist ++ [(hi, lo, duty, freq)]).drop (p.hist.length - 3) }) s
      let s := publishPilot s
      let s := if pwm then diodeCheck lo s else s
      tryS2 (pilotClassify (pilotClass s pwm hi lo) s))

/-- PWMOFF: no crossing for 2 ms. -/
def execPwmoff (s : State) : Host.Outcome State Fault Refusal :=
  .next (if pilotOn s then noPwm (disarm .pwmoff s) else disarm .pwmoff s)

/-- PILOT_DC_WINDOW: a 1 ms window, measured once 2 ms have passed without a crossing (R266). -/
def execPilotDcWindow (mv : Int) (s : State) : Host.Outcome State Fault Refusal :=
  .next (if !pilotOn s || waiting .pwmoff s then s
    else
      let s := setPlt (fun p => { p with cphi := word16 mv, cplo := 0x8000 }) (latchDuty s)
      pilotClassify (pilotClass s false mv 0) s)

/-! Proximity (R270). -/

/-- R = 330 V / (2.5 − V) lies in the closed band lo .. hi, in ohms, for a voltage in mV. -/
def ppIn (mv lo hi : Nat) : Bool := decide (lo * (2500 - mv) ≤ 330 * mv) && decide (330 * mv ≤ hi * (2500 - mv))

/-- The proximity class of a voltage. -/
def ppClassOf (j1772 : Bool) (mv : Nat) : Nat :=
  if mv ≥ 2500 ∨ 330 * mv > 4500 * (2500 - mv) then 0
  else if 330 * mv < 60 * (2500 - mv) then 6
  else if j1772 then (if ppIn mv 100 200 then 1 else if ppIn mv 360 600 then 2 else 5)
  else if ppIn mv 1000 2500 then 1 else if ppIn mv 400 936 then 2 else if ppIn mv 164 300 then 3
  else if ppIn mv 60 140 then 4 else 5

/-- PPRES of a voltage. -/
def ppresOf (mv : Nat) : Word :=
  if mv ≥ 2500 ∨ 330 * mv > 4500 * (2500 - mv) then 0xFFFF else BitVec.ofNat 16 (330 * mv / (2500 - mv))

/-- A new proximity class is reported. -/
def setPp (c : Nat) (s : State) : State :=
  let s := raiseG 49 0 (setPlt (fun p => { p with pp := c }) s)
  let s := raiseIf (decide (c = 5 ∨ c = 6)) (16 * 49 + 1) s
  let s := causeIf (decide (c = 5 ∨ c = 6) || (decide (c = 2) && ppstd s)) 3 s
  if c = 0 then openS2 s else tryS2 s

/-- PP_CONVERSION: one conversion; four in a row that agree report a new class. -/
def execPpConversion (mv : Nat) (s : State) : Host.Outcome State Fault Refusal :=
  .next (if !pilotOn s then s
    else
      let c := ppClassOf (ppstd s) mv
      let n := if s.plt.ppCls = c then s.plt.ppRun + 1 else 1
      let s := setPlt (fun p => { p with ppCls := c, ppRun := min 4 n, ppres := ppresOf mv }) s
      if n < 4 ∨ c = s.plt.pp then s else setPp c s)

/-! Commands and timers (R271 to R279). -/

/-- A write of PSW: S2REQ withdrawn acknowledges and opens S2; requested, S2 closes when it may (R271, R273). -/
def pswByte (v : Byte) (s : State) : State :=
  let was := s2req s
  let s := plainByte 0x40 0x68 v s
  if was && !s2req s then openS2 (pilotAck s) else tryS2 s

/-- PSW_WRITE. -/
def execPswWrite (v : Byte) (s : State) : Host.Outcome State Fault Refusal := .next (onPage 0x40 (pswByte v) s)

/-- PACK. -/
def execPack (s : State) : Host.Outcome State Fault Refusal := .next (onPage 0x40 pilotAck s)

/-- RSPSOFT (R274). -/
def execRspsoft (s : State) : Host.Outcome State Fault Refusal :=
  .next (
    let s := disarm .rspsoft s
    if s.plt.rspRun && !s.plt.soft then
      (let s := raiseG 48 8 (setPlt (fun p => { p with soft := true }) (openS2 s))
       arm (ms (100 * (lv s (key 0x40 2)).toNat)) .rsphard s)
    else s)

/-- RSPHARD (R275). -/
def execRsphard (s : State) : Host.Outcome State Fault Refusal :=
  .next (
    let s := disarm .rsphard s
    if s.plt.rspRun && s.plt.soft && !s.plt.hard then
      raiseG 48 9 (setPlt (fun p => { p with hard := true, base := false, rspRun := false }) s)
    else s)

/-- PSW reads 0 again, and S2 opens. -/
def clearPsw (s : State) : State := openS2 (putPlain (key 0x40 0x68) [0] s)

/-- A refused role change (R279). -/
def roleRej (err : Byte) (s : State) : State := raiseG 49 3 (reject err s)

/-- A role swap starts: the old role is released; the new one follows 101 ms later (R279). -/
def startSwap (supply : Bool) (s : State) : State :=
  let s := stopResponse (openS2 s)
  arm (ms 101) .roledone (slotBusy (setPlt (fun p => { p with role := 2, base := false, gen := false, swap := some supply }) s))

/-- PILOT_ROLE's own checks, in order. The ERR of a wrong length, or of a swap still running, is not stated. -/
def pilotRole (p : Packet) (s : State) : State :=
  match p.params with
  | [b] =>
    let supply := b.getLsbD 0
    let st := s.plt.state
    if b.toNat ≥ 4 ∨ s.plt.role = 3 then roleRej 0x01 s
    else if s.plt.role = 2 then raiseG 49 3 (rejectOpen s)
    else if 4 ≤ st ∨ (st = 3 ∧ !b.getLsbD 1) then roleRej 0x02 s
    else if supply ∧ (s.glob.st = .safe ∨ s.plt.genflt ∨ !has s.rl.pg 0) then roleRej 0x03 s
    else if s.plt.role = supply.toNat then doneWith [] s
    else startSwap supply s
  | _ => raiseG 49 3 (rejectOpen s)

/-- PILOT_ROLE. -/
def execPilotRole (p : Packet) (s : State) : Host.Outcome State Fault Refusal := .next (packet 0x80 false p (pilotRole p) s)

/-- ROLEDONE: the new role's paths are set. -/
def execRoledone (s : State) : Host.Outcome State Fault Refusal :=
  .next (
    let s := disarm .roledone s
    match s.plt.swap with
    | none => s
    | some supply =>
      if s.plt.role ≠ 2 then s
      else
        let s := clearPsw (restartFilters s)
        let s := setPlt (fun p => { p with role := supply.toNat, base := !supply, gen := supply && !p.genflt, swap := none,
                                           soft := false, hard := false }) s
        let s := raiseG 49 2 (latchDuty s)
        if slotHas s 0x80 then doneWith [] s else s)

/-- PILOT_REARM's body. -/
def pilotRearm (p : Packet) (s : State) : State :=
  if s.plt.role = 3 ∨ s.plt.role = 2 then reject 0x01 s
  else if p.params ≠ [] then rejectOpen s
  else
    let s := restartFilters (clearPsw (stopResponse s))
    let s := setPlt (fun q => { q with base := q.base || decide (q.role = 0), soft := false, hard := false, diode := false }) s
    doneWith [] (raiseG 48 11 s)

/-- PILOT_REARM. -/
def execPilotRearm (p : Packet) (s : State) : Host.Outcome State Fault Refusal := .next (packet 0x81 false p (pilotRearm p) s)

/-- GENFLT: a pump output is out of range; the generator turns off (R278). -/
def execGenflt (s : State) : Host.Outcome State Fault Refusal :=
  .next (if pilotOn s && !s.plt.genflt then raiseG 48 14 (setPlt (fun p => { p with genflt := true, gen := false }) s) else s)

/-- GEN_RESTART: at constant +12 V once both pump outputs are back. -/
def execGenRestart (s : State) : Host.Outcome State Fault Refusal :=
  .next (setPlt (fun p => { p with genflt := false, gen := vaonOn s && decide (p.role = 1) }) s)

/-- SLEEP_MONITOR: one window in SLEEP (R280). `cp` in mV, `pp` in ohms. -/
def execSleepMonitor (cp : Int) (pp : Nat) (s : State) : Host.Outcome State Fault Refusal :=
  .next (if !vaonOn s || decide (s.glob.st ≠ .sleep) || !(lv s (key 0x40 0)).getLsbD 2 then s
    else
      let nc := if 4500 ≤ cp then min 2 (s.plt.monCp + 1) else 0
      let np := if pp < 4500 then min 2 (s.plt.monPp + 1) else 0
      let s := setPlt (fun p => { p with monCp := nc, monPp := np, monSeen := p.monSeen || decide (4500 ≤ pp) }) s
      let s := raiseIf (decide (nc = 2) && (lv s (key 0x40 0)).getLsbD 3) 788 s
      wakeCheck (raiseIf (decide (np = 2) && s.plt.monSeen && (lv s (key 0x40 0)).getLsbD 4) 789 s))

/-! What changes of PCFG and the boot do to the engine (R265, R276). -/

/-- The generator's output in supply role, in 0.1 % of +12 V: 1000 constant +12 V, 0 constant −12 V; PWM at the duty
of the period under way (R277, R278). -/
def genOutput (s : State) : Option Nat :=
  if s.plt.role ≠ 1 ∨ !s.plt.gen then none
  else if s.plt.diode then some 0
  else if s.glob.st = .safe then some 1000
  else if 3 ≤ s.plt.state ∧ s.plt.state ≤ 5 then some s.plt.gduty else some 1000

end Sys2Proof.Machine
end

