-- ==== Sys2Proof/Machine/Anvil.lean ====
section
/-! DEFINITION. Anvil's own events and commands (08_fault_tolerance.md): SAFE inputs, SAFE_CLEAR, the host watchdog,
firmware-island faults, Touchstone, oscillators, Assay, snapshots. -/

namespace Sys2Proof.Machine

/-! SAFE inputs (R209 to R211). -/

/-- SAFECFG.EN. -/
def safeInEn (s : State) : Bool := (pl s (key 0x24 0)).getLsbD 0
/-- SAFECFG.AUTOREL. -/
def autorel (s : State) : Bool := (pl s (key 0x24 0)).getLsbD 1
/-- DISCT in half microseconds. -/
def disct (s : State) : Nat := us (500 * (pl s (key 0x24 1)).toNat)

/-- An accepted exit (R208): the named latches clear, and the wait for the rails and MINOFF begins. -/
def acceptExit (disc wd : Bool) (s : State) : State :=
  settle { s with safe := { s.safe with disclatch := s.safe.disclatch && !disc, wdLatch := s.safe.wdLatch && !wd, exit := true, waited := false } }

/-- Both inputs have stopped requesting: AUTOREL may act (R209). -/
def tryAutorel (s : State) : State :=
  if autorel s && decide (s.glob.st = .safe) && decide (s.safe.cause = 1) && !s.safe.disclatch && !s.safe.wdLatch then
    acceptExit false false s
  else s

/-- While SAFECFG.EN is 0 both inputs are ignored (R210). -/
def ignoreSafeIn (s : State) : State := disarm .disc { s with safe := { s.safe with areq := false, breq := false } }

/-- Recognised levels of the two inputs: true requests SAFE. -/
def safeLevels (a b : Bool) (s : State) : State :=
  let newA := a && !s.safe.areq
  let newB := b && !s.safe.breq
  let was := s.safe.areq || s.safe.breq
  let dis := decide (s.safe.areq ≠ s.safe.breq)
  let s := { s with safe := { s.safe with areq := a, breq := b } }
  let s := if a = b then disarm .disc s else if dis then s else arm (disct s) .disc s
  let s := raiseIf newB (16 * 59 + 3) (raiseIf newA (16 * 59 + 2) s)
  let s := if newA then enterSafe 0 (16 * 59 + 2) s else if newB then enterSafe 0 (16 * 59 + 3) s else s
  if was && !a && !b then tryAutorel s else s

/-- SAFE_INPUT. -/
def execSafeInput (a b : Bool) (s : State) : Host.Outcome State Fault Refusal :=
  .next (if !anvilOn s then s else if !safeInEn s then ignoreSafeIn s else safeLevels a b s)

/-- DISC: the inputs have disagreed for DISCT (R211). -/
def execDisc (s : State) : Host.Outcome State Fault Refusal :=
  .next (
    let s := disarm .disc s
    if anvilOn s && safeInEn s && decide (s.safe.areq ≠ s.safe.breq) then
      enterSafe 1 (16 * 59 + 4) (raiseG 59 4 { s with safe := { s.safe with disclatch := true } })
    else s)

/-- SAFE_HOLD_END: the hold is over; the rail goes off once every dependant is down (R206). -/
def execSafeHoldEnd (r : Rail) (s : State) : Host.Outcome State Fault Refusal :=
  .next (
    let s := disarm (.safeHoldEnd r) s
    if s.glob.st = .safe ∧ has s.safe.held r.val then
      (let b := bit r.val
       let s := { s with safe := { s.safe with held := s.safe.held &&& ~~~b }
                         seq := { s.seq with offWait := s.seq.offWait ||| b, offDly := s.seq.offDly ||| b } }
       if mayDrop s r.val then settle (switchOff true r.val s) else s)
    else s)

/-- The result code of SAFE_CLEAR (R208). -/
def safeClearCode (v : Byte) (s : State) : Byte :=
  if s.glob.st ≠ .safe ∨ v.toNat / 4 ≠ 0 then 0x01
  else if s.safe.cause.getLsbD 3 ∨ s.safe.cause.getLsbD 4 ∨ s.safe.cause.getLsbD 5 then 0x02
  else if s.safe.areq ∨ s.safe.breq then 0x03
  else if s.safe.disclatch ∧ !v.getLsbD 0 then 0x04
  else if s.safe.wdLatch ∧ !v.getLsbD 1 then 0x05
  else 0x00

/-- SAFE_CLEAR's own checks. The ERR of another length is not stated. -/
def safeClearBody (p : Packet) (s : State) : State :=
  match p.params with
  | [v] =>
    let c := safeClearCode v s
    if c = 0 then doneWith [0] (acceptExit (v.getLsbD 0) (v.getLsbD 1) s) else slotEnd 5 c [c] s
  | _ => rejectOpen s

/-- SAFE_CLEAR. -/
def execSafeClear (p : Packet) (s : State) : Host.Outcome State Fault Refusal := .next (packet 0x32 false p (safeClearBody p) s)

/-! The host watchdog (R212, R213). -/

/-- The window's state now: a closed window has opened at `wdOpen`. -/
def wdNow (s : State) : Nat := if s.safe.wdState = 2 ∧ s.safe.wdOpen ≤ s.clk.now then 3 else s.safe.wdState

/-- A watchdog fault: ERR 1 early, 2 late, 3 wrong word. -/
def wdFault (err b : Nat) (s : State) : State :=
  enterSafe 2 (16 * 59 + b) (raiseG 59 b (wdStop { s with safe := { s.safe with wdLatch := true, wdErr := err } }))

/-- A kick with its word. -/
def kick (w : Word) (s : State) : State :=
  let n := wdNow s
  if n = 0 then s
  else if w ≠ (if s.safe.wdNext then 0xA55A else 0x5AA5) then wdFault 3 7 s
  else if n = 2 then wdFault 1 5 s
  else
    let c := ms (pl s (key 0x24 5)).toNat
    let o := ms (pl s (key 0x24 6)).toNat
    arm (c + o) .wdlate { s with safe := { s.safe with wdState := 2, wdNext := !s.safe.wdNext, wdOpen := s.clk.now + c } }

/-- WD_KICK: a Write Word to 0xF1; with PEC on a kick whose PEC fails is discarded (R349). -/
def execWdKick (w : Word) (pec : Pec) (s : State) : Host.Outcome State Fault Refusal :=
  .next (if !busUp s then nackAccess s
    else if pecFails s pec then pecError (nackAccess s)
    else kick w (ackAccess s))

/-- WDLATE: the open window, or the first, ends without a kick. -/
def execWdlate (s : State) : Host.Outcome State Fault Refusal :=
  .next (
    let s := disarm .wdlate s
    if anvilOn s && decide (s.safe.wdState ≠ 0) then wdFault 2 6 s else s)

/-! Firmware-island faults (R214 to R216). -/

/-- Floor mode is entered while the device runs (R23, R24, R216): the island stays down, its work is lost, the pilot is
passive, the charger and the host bus take their fuse defaults (R294, R368), nALERT and nINT1 to nINT3 are released (R387). The
live configuration of the rails stays in force until the next common start (log entry 22). Floor mode knows no STANDBY and no
sleep (R10, R327): a STANDBY with rails on is RUN again, an idle one waits in STOP, and a sleep request is dropped. -/
def floorLeave (s : State) : State :=
  let asked := s.pwr.req.isSome
  let s := { s with pwr := { s.pwr with req := none } }
  if s.glob.st = .standby then
    (if s.pwr.idle then
       (let s := enterState .stop { s with pwr := { s.pwr with idle := false } }
        startCheck (disarm .idleslp { s with seq := { s.seq with phase := 5 } }))
     else wdArm (enterState .run { s with pwr := { s.pwr with fromRun := false } }))
  else if s.glob.st = .stop ∧ asked ∧ s.seq.phase ≠ 4 then arm (minoff (lv s)) .minoffEnd { s with seq := { s.seq with phase := 5 } }
  else s

/-- Floor mode is entered while the device runs. -/
def floorRunning (cause : Nat) (s : State) : State :=
  let s := disarm .fwBootTimeout (islandRestart s)
  let cell := chgCell s
  let s := pilotPassive s
  let s := { s with glob := { s.glob with floor := true, floorcause := cause, floorTab := false, restarting := false, fwup := false,
                                          rstcause := setBit s.glob.rstcause 10 true, boot := false, minoffAfterBoot := false }
                    thm := {}, bk := { s.bk with band := [] }, irq := { s.irq with alert := false, pulse := 0 } }
  let s := putPlain (key 0x4C 0) (hBytes s.otp.shd 0x4C 1) s
  floorLeave (chgFloor cell s)

/-- A failure is held for 10 s (R216); each failure held has an expiry of its own. -/
def holdFailure (s : State) : State :=
  { s with safe := { s.safe with ls := s.safe.ls + 1 }
           clk := { s.clk with timers := s.clk.timers ++ [⟨s.clk.now + sec 10, .lockstepExpire⟩] } }

/-- The third lockstep failure within 10 s: SAFE with the Floor flag (R216). -/
def thirdLockstep (s : State) : State := enterSafe 5 (16 * 59 + 8) (raiseG 59 8 (floorRunning 4 (holdFailure s)))

/-- A trial falls back on a restart cause (R446). -/
def trialFault (s : State) : State := if s.upd.st = 5 ∧ !s.upd.fell then fallbackMark true s else s

/-- A failure in the boot ROM of a cold boot: the cores start again, and the boot goes on from its beginning (R17, R214, R228). -/
def bootAgain (bitNo src : Nat) (s : State) : State :=
  arm (us 50010) .fwBootTimeout (snapshot 3 src { s with glob := { s.glob with rstcause := setBit s.glob.rstcause bitNo true } })

/-- A lockstep failure, with its RSTCAUSE bit and its event, while the firmware runs, restarts or boots. -/
def lockstepFailure (bitNo src : Nat) (s : State) : State :=
  if s.safe.ls ≥ 2 then thirdLockstep (raise src s)
  else if s.glob.boot then bootAgain bitNo src (raise src (trialFault (holdFailure s)))
  else fwRestart bitNo src (trialFault (holdFailure s))

/-- LSFAIL. -/
def execLsfail (s : State) : Host.Outcome State Fault Refusal := .next (if coresRun s then lockstepFailure 5 (16 * 58) s else s)
/-- LOCKUP. -/
def execLockup (s : State) : Host.Outcome State Fault Refusal :=
  .next (if coresRun s then lockstepFailure 6 (16 * 58 + 1) s else s)
/-- ECCDED: treated as a core lockup (R203). -/
def execEccded (s : State) : Host.Outcome State Fault Refusal :=
  .next (if coresRun s then lockstepFailure 6 (16 * 58 + 1) (raiseG 58 4 s) else s)
/-- ECCSEC: corrected in place. -/
def execEccsec (s : State) : Host.Outcome State Fault Refusal := .next (if coresRun s then raiseG 58 3 s else s)
/-- FWWDT: a restart that is no lockstep failure (R214). -/
def execFwwdt (s : State) : Host.Outcome State Fault Refusal :=
  .next (if fwOn s then fwRestart 7 (16 * 58 + 2) (trialFault s) else s)

/-- LOCKSTEP_EXPIRE: a held failure becomes 10 s old; it is one whose expiry is no longer armed. -/
def execLockstepExpire (s : State) : Host.Outcome State Fault Refusal :=
  .next (if (s.clk.timers.filter (fun t => decide (t.ev = .lockstepExpire))).length < s.safe.ls
    then { s with safe := { s.safe with ls := s.safe.ls - 1 } } else s)

/-- The ledger fields and pending swaps after a restart (R215). -/
def reloadLedger (s : State) : State :=
  { s with pat := { s.pat with res := match patBank s.pat with | some b => b.res | none => factoryLedger s.otp.shd } }

/-- Anvil's verified flag of the active slot (R215, R445); where it is not set the island fails to run (R23). -/
def restartBoots (s : State) : Bool := if s.upd.bootedB then s.upd.verB else s.upd.verA

/-- The update engine after a restart: what the journal says, but for a fall-back that the journal does not know yet (R446). -/
def updAtRestart (s : State) : Upd :=
  let u := updAtBoot s
  { u with fell := s.upd.fell, trialflt := s.upd.trialflt, confEnd := s.upd.confEnd
           nextB := if s.upd.fell then s.upd.nextB else u.nextB, man := if s.upd.fell then s.upd.man else u.man }

/-- FWUP: the island is back (R215). -/
def execFwup (s : State) : Host.Outcome State Fault Refusal :=
  .next (if s.glob.restarting && anvilOn s && !s.glob.floor && restartBoots s then
      (let s := disarm .fwBootTimeout { s with glob := { s.glob with restarting := false, fwup := true, fwFails := 0 } }
       let s := recomputePend (reloadLedger (reloadPlain (headerScan [] s)))
       let s := { s with upd := updAtRestart s }
       let s := gaugeStart .restart (scrubLateCheck (updInterrupted s))
       let s := startRounds (arm (sec 1) .logTimer (pollWatch (logReset (raiseG 58 5 s))))
       grant (if s.upd.fell then fellBack s else s))
    else s)

/-! Touchstone (R219, R220, R469). -/

/-- A second reference is lost: which of them failed is not stated where the pairs do not show it. -/
def secondRef (lost : BitVec 3) (s : State) : State :=
  enterSafe 3 (16 * 60 + 1) (raiseG 60 1 { s with tst := { s.tst with refFail := s.tst.refFail ||| lost } })

/-- One of two suspects, a free choice. -/
def suspect (a b : BitVec 3) (s : State) : BitVec 3 × State :=
  let (x, s) := drawBool s
  (if x then a else b, s)

/-- The vote over the disagreeing pairs. -/
def vote (ab ac bc : Bool) (s : State) : State :=
  let f := s.tst.refFail
  if f = 0 then
    if ab && ac && bc then
      (let (x, s) := suspect 3 5 s
       let (y, s) := suspect x 6 s
       secondRef y s)
    else if ab && ac then raiseG 60 0 { s with tst := { s.tst with refFail := 1, cmpOnC := true } }
    else if ab && bc then raiseG 60 0 { s with tst := { s.tst with refFail := 2, adcOnC := true } }
    else if ac && bc then raiseG 60 0 { s with tst := { s.tst with refFail := 4 } }
    else s
  else if f = 1 then (if bc then (let (x, s) := suspect 2 4 s; secondRef x s) else s)
  else if f = 2 then (if ac then (let (x, s) := suspect 1 4 s; secondRef x s) else s)
  else if f = 4 then (if ab then (let (x, s) := suspect 1 2 s; secondRef x s) else s)
  else s

/-- REFFAIL: pairs of references disagree. -/
def execReffail (ab ac bc : Bool) (s : State) : Host.Outcome State Fault Refusal := .next (if anvilOn s then vote ab ac bc s else s)

/-! Oscillators (R221). -/

/-- Number of an oscillator. -/
def oscNum : Osc → Nat
  | .a => 0
  | .b => 1

/-- An oscillator fails: the other takes over, or with none left SAFE runs on it; where it has stopped there is no
service (R22). -/
def oscFailed (o : Osc) (stopped : Bool) (s : State) : State :=
  let n := oscNum o
  let other := s.tst.oscFail.getLsbD (1 - n)
  let active := decide (s.tst.oscB = decide (n = 1))
  if s.tst.oscFail.getLsbD n then
    (if stopped && other && active then { dropPower s with glob := { s.glob with clocked := false } } else s)
  else
    let s := raiseG 60 2 { s with tst := { s.tst with oscFail := setBit s.tst.oscFail n true } }
    if !other then (if active then { s with tst := { s.tst with oscB := !s.tst.oscB } } else s)
    else
      let s := enterSafe 4 (16 * 60 + 3) (raiseG 60 3 s)
      if stopped then { dropPower s with glob := { s.glob with clocked := false } } else s

/-- OSCFAIL: the fast check. -/
def execOscfail (o : Osc) (stopped : Bool) (s : State) : Host.Outcome State Fault Refusal :=
  .next (if anvilOn s then oscFailed o stopped s else s)

/-- A deviation as a signed byte, 0.05 % per count. -/
def devByte (d : Int) : Byte := BitVec.ofInt 8 (max (-128) (min 127 d))

/-- OSC_SLOW_CHECK: 10 ms counts against the crystal; beyond ±2 % (40 counts) an oscillator fails. -/
def execOscSlowCheck (devA devB : Int) (s : State) : Host.Outcome State Fault Refusal :=
  .next (if anvilOn s && s.tst.xtal then
      (let s := { s with tst := { s.tst with oscDevA := devByte devA, oscDevB := devByte devB } }
       let s := if devA.natAbs > 40 ∧ !s.tst.oscFail.getLsbD 0 then oscFailed .a false s else s
       if devB.natAbs > 40 ∧ !s.tst.oscFail.getLsbD 1 then oscFailed .b false s else s)
    else s)

/-! Assay (R222, R223). -/

/-- ASSAYFAIL bits of a result. -/
def assayBits (r : AssayRes) : BitVec 5 :=
  (r.fail &&& 0x03) ||| (if r.fuses ≠ 0 then 8 else 0) ||| (if r.cmpFail ||| r.cmpLost ≠ 0 then 4 else 0) ||| (if r.sectors ≠ [] ∨ r.fail.getLsbD 4 then 16 else 0)

/-- A sector whose margin read fails is queued for refresh (R404). -/
def queueRefresh (n : Nat) (s : State) : State :=
  if (sector s n).retired then s
  else
  let s := setSector n { sector s n with marginBad := true } s
  if s.fl.refresh.any (fun (p, _) => decide (p = n)) then s
  else { s with fl := { s.fl with refresh := s.fl.refresh ++ [(n, s.clk.now)] } }

/-- Newly failed twins, and rails with both twins failed: those take the rail's UV reaction (R222). -/
def comparators (r : AssayRes) (s : State) : State :=
  let one := r.cmpFail &&& ~~~s.tst.cmpFail
  let lost := r.cmpLost &&& ~~~s.tst.cmpLost
  let s := { s with tst := { s.tst with cmpFail := s.tst.cmpFail ||| r.cmpFail, cmpLost := s.tst.cmpLost ||| r.cmpLost } }
  let s := raiseIf (decide (one ||| lost ≠ 0)) (16 * 60 + 6) s
  reactAll ((rails lost).map (fun n => ⟨n, 0, 16 * 60 + 6, has s.rl.en n, false⟩)) s

/-- The fuse test skips regions and locks programmed since the last sensing (R420). -/
def fuseTest (r : AssayRes) (s : State) : AssayRes := { r with fuses := r.fuses &&& ~~~s.otp.pend }

/-- What a test found: registers, events, INVALID flags of the converters, refreshes. `full` replaces ASSAYFAIL, a light
step adds to the bits that later passes do not clear. -/
def publishAssay (full : Bool) (r : AssayRes) (s : State) : State :=
  let r := fuseTest r s
  let b := assayBits r
  let fail := if full then b else (b &&& 3) ||| (s.tst.fail &&& 0x1C) ||| (b &&& 0x1C)
  let s := { s with tst := { s.tst with fail := fail, light := if full then s.tst.light else decide (b ≠ 0),
                                        full := if full then (if b = 0 then 2 else 3) else s.tst.full }
                    hk := { s.hk with hkaInv := b.getLsbD 0, hkbInv := b.getLsbD 1 } }
  let s := raiseIf (b.getLsbD 0 || b.getLsbD 1) (16 * 60 + 5) s
  let s := raiseIf (b.getLsbD 3) (16 * 60 + 7) s
  let s := raiseIf (b.getLsbD 4) (16 * 60 + 8) s
  comparators r (r.sectors.foldl (fun s n => queueRefresh n.val s) s)

/-- ASSAY_RUN's own checks. -/
def assayRunBody (p : Packet) (s : State) : State :=
  if p.params ≠ [] then reject 0x01 s
  else if s.glob.st ≠ .run ∧ s.glob.st ≠ .safe then reject 0x02 s
  else slotBusy { s with bus := { s.bus with prog := 0 }, tst := { s.tst with full := 1 } }

/-- ASSAY_RUN. -/
def execAssayRun (p : Packet) (s : State) : Host.Outcome State Fault Refusal := .next (packet 0x30 false p (assayRunBody p) s)

/-- ASSAYDONE: the full Assay of ASSAY_RUN ends. Nothing of it outlives a system reset that it leads to (R159). -/
def execAssaydone (r : AssayRes) (s : State) : Host.Outcome State Fault Refusal :=
  .next (if fwOn s && decide (s.tst.full = 1) then
      (let s := publishAssay true r s
       if !s.glob.fwup then s else
       let s := raiseG 60 4 s
       let s := if slotHas s 0x30 then
           doneWith ([BitVec.ofNat 8 s.tst.fail.toNat] ++ leBytes 4 s.tst.cmpFail.toNat) { s with bus := { s.bus with prog := 100 } }
         else s
       grant s)
    else s)

/-! Snapshots (R229, R230). -/

/-- The record of the newer bank, or of the older. -/
def snapRecord (s : State) (older : Bool) : Option (List Byte) :=
  let second := secondInForce (s.safe.bank0.map SnapBank.seq) (s.safe.bank1.map SnapBank.seq)
  (if second = older then s.safe.bank0 else s.safe.bank1).map SnapBank.bytes

/-- SNAPSHOT_READ's own checks. The ERR of another parameter is not stated. -/
def snapshotReadBody (p : Packet) (s : State) : State :=
  match p.params with
  | [b] =>
    if b.toNat ≤ 1 then
      (match snapRecord s (decide (b = 1)) with
       | some r => doneWith r s
       | none => reject 0x01 s)
    else rejectOpen s
  | _ => rejectOpen s

/-- SNAPSHOT_READ. -/
def execSnapshotRead (p : Packet) (s : State) : Host.Outcome State Fault Refusal := .next (packet 0x31 false p (snapshotReadBody p) s)

end Sys2Proof.Machine
end

