-- ==== Sys2Proof/Machine/InputPath.lean ====
section
/-! DEFINITION. The input paths and their guards, and PRE's input (03_input_path.md, R62 to R71). -/

namespace Sys2Proof.Machine

/-! Settings (R80). -/

/-- INCFG.AEN or BEN. -/
def pathEn (s : State) (x : Path) : Bool := (lv s (key 2 0)).getLsbD (px x)
/-- INCFG.SEL. -/
def selMode (s : State) : Nat := rdBits (lv s) (key 2 0) 2 2
/-- The preferred path, under prefer A and prefer B. -/
def preferred (s : State) : Option Path := if selMode s = 1 then some .a else if selMode s = 2 then some .b else none
/-- INRETRY. -/
def inretry (s : State) : Nat := rdBits (lv s) (key 2 0x0C) 0 3

/-! Measured voltages, and PRE's mode (R63, R71). -/

/-- The voltage of a path in a measurement. -/
def measOf (m : InMeas) : Path → Int
  | .a => m.va
  | .b => m.vb

/-- ISLOWx in µV. -/
def islow (s : State) (x : Path) : Nat := 250 * (lv s (key 2 (9 + px x))).toNat
/-- The trip level of the slow integrator: ISLOW² × TSLOW, in µV² times half microseconds (R65). -/
def slowLevel (s : State) (x : Path) : Nat := islow s x * islow s x * ms (2 ^ rdBits (lv s) (key 2 0x0B) (4 * px x) 4)
/-- The slow integrator A now: it has moved by (I² − ISLOW²) dt since `accAt`, between 0 and its trip level (R65). -/
def slowNow (s : State) (x : Path) : Nat :=
  let p := pathOf s x
  let rate : Int := p.sense * p.sense - (islow s x * islow s x : Nat)
  min (slowLevel s x) ((p.acc : Int) + rate * ((s.clk.now - p.accAt : Nat) : Int)).toNat
/-- SLOWACCx: A as a percentage of its trip level. -/
def slowPct (s : State) (x : Path) : Nat := min 100 (100 * slowNow s x / max 1 (slowLevel s x))
/-- The trip of a closed path whose integrator rises, or stands at its trip level, is armed for the moment at which it gets there
(R65). -/
def armSlow (x : Path) (s : State) : State :=
  let p := pathOf s x
  let i2 : Nat := (p.sense * p.sense).toNat
  let w := islow s x * islow s x
  let a := slowNow s x
  if p.closed ∧ (w < i2 ∨ 0 < a ∧ slowLevel s x ≤ a) then arm ((slowLevel s x - a + (i2 - w) - 1) / max 1 (i2 - w)) (.slowa x none) s
  else disarm (.slowa x none) s

/-- From now on the sense voltage of a path is `uv`, 0 on an open path. -/
def noteSense (x : Path) (uv : Int) (s : State) : State :=
  let p := pathOf s x
  armSlow x (setPath x { p with acc := slowNow s x, accAt := s.clk.now, sense := if p.closed then uv else 0 } s)

/-- PRE's mode after the node reads `mv`, from its present mode (R71): 1 buck, 2 buck-boost, 3 boost. -/
def preMode (vmid : Nat) (mv : Int) (old : Nat) : Nat :=
  if 100 * mv ≥ 110 * vmid ∨ (old = 1 ∧ 100 * mv ≥ 108 * vmid) then 1
  else if 100 * mv ≤ 90 * vmid ∨ (old = 3 ∧ 100 * mv ≤ 92 * vmid) then 3 else 2

/-- Take a measurement, if the event brings one. -/
def takeMeas (m : Option InMeas) (s : State) : State :=
  match m with
  | none => s
  | some m =>
    let s := noteSense .b m.ib (noteSense .a m.ia s)
    { s with inp := { s.inp with a := { s.inp.a with vin := m.va }, b := { s.inp.b with vin := m.vb }, node := m.node,
                                 mode := preMode (vset (lv s) 0 / 10) m.node s.inp.mode } }

/-! Closing and opening (R62, R63, R68 to R70). -/

/-- The conditions of R62 for closing: enabled, qualified, not locked out, no guard's clearing condition outstanding. -/
def mayClose (s : State) (x : Path) : Bool :=
  let p := pathOf s x
  anvilOn s && pathEn s x && p.qual && !p.closed && !p.flt.getLsbD 6 && decide (p.wait = 0)

/-- INCFG.SEL lets the path close now: the other one is past its inrush in ORing, and not the closed preferred one
otherwise (R63). R63 has two paths that qualify together at start-up wait for each other's inrush; the model has a path that qualifies later, or
whose guard clears, wait so too (DESIGN CHOICE, log entry 28). -/
def selLets (s : State) (x : Path) : Bool :=
  let o := pathOf s (other x)
  match preferred s with
  | none => !o.closed || o.full
  | some p => decide (p = x) || !o.closed

/-- PRE begins to switch once a path has completed inrush after its enable (R68). -/
def preStart (s : State) : State :=
  if has s.rl.en 0 && s.inp.gate && inrushDone s then startRamp 0 { s with inp := { s.inp with gate := false } } else s

/-- Input loss ends (R70); under RESUME a STOP by UV alone halts (R150). -/
def inputReturn (s : State) : State :=
  let s := disarm .inloss s
  if !s.inp.inloss then s
  else
    let uv := s.inp.inlossuv
    let s := raiseW (16 * 46 + 14) { s with inp := { s.inp with inloss := false, inlossuv := false } }
    if s.glob.st = .stop ∧ s.seq.phase = 4 ∧ !s.seq.complete ∧ uv ∧ inpol (lv s) then resume s else s

/-- Close a path: under inrush control when the node lies more than 1.0 V below its input, else at full drive (R63). A
moment without a measurement leaves the choice free (log entry 13). At full drive inrush counts as completed at once, though the node may
lie further below its input than the 0.3 V of R68 (DESIGN CHOICE, log entry 28). -/
def closePath (x : Path) (m : Option InMeas) (s : State) : State :=
  let (soft, s) := match m with
    | some v => (decide (v.node + 1000 < measOf v x), s)
    | none => drawBool s
  let p := pathOf s x
  let s := setPath x { p with closed := true, full := !soft, ever := true } s
  let s := arm (sec 10) (.tripCountClear x) s
  let s := if soft then arm (ms 50) (.inrushtmo x) s else s
  let s := if preferred s = some x ∧ (pathOf s (other x)).closed then arm (us 100) (.preferHandback x) s else s
  preStart (inputReturn s)

/-- Close the path if R62 and R63 let it. -/
def tryClose (x : Path) (m : Option InMeas) (s : State) : State :=
  if mayClose s x && selLets s x then closePath x m s else s

/-- Open a path for the reason given; under prefer A or B the other one closes at once (R63). -/
def openPath (x : Path) (why : OpenWhy) (m : Option InMeas) (s : State) : State :=
  let p := pathOf s x
  if !p.closed then s
  else
    let s := setPath x { p with closed := false, full := false, why := why, openedAt := some s.clk.now, counted := false
                                acc := slowNow s x, accAt := s.clk.now, sense := 0 } s
    let s := disarm (.inrushtmo x) (disarm (.tripCountClear x) (disarm (.preferHandback x) (disarm (.slowa x none) s)))
    let s := { s with inp := { s.inp with nonUv := false } }
    watchLoss (if why = .gaveWay then s else tryClose (other x) m s)

/-- The other path qualifies in the same step and closes first: in ORing the one with the higher input, else the preferred one,
since the other is held open (R63; log entry 28). -/
def yields (s : State) (x : Path) : Bool :=
  let o := other x
  s.pending.any (fun c => match c with | .pathQualify y _ => decide (y = o) | _ => false) && pathEn s o && !(pathOf s o).closed &&
    (match preferred s with
     | none => decide ((pathOf s x).vin < (pathOf s o).vin)
     | some p => decide (p = o))

/-- PATH_QUALIFY. -/
def execPathQualify (x : Path) (m : Option InMeas) (s : State) : Host.Outcome State Fault Refusal :=
  .next (if !anvilOn s || !pathEn s x then s
    else
      let s := takeMeas m s
      let p := pathOf s x
      let s := setPath x { p with qual := true, wait := setBit p.wait 4 false } s
      startCheck (idleWatch false (if yields s x then s else tryClose (other x) m (tryClose x m s))))

/-- PREFER_HANDBACK: `x` is the preferred path that closed 100 µs ago; the other one gives way (R63). -/
def execPreferHandback (x : Path) (s : State) : Host.Outcome State Fault Refusal :=
  .next (let s := disarm (.preferHandback x) s
    if preferred s = some x ∧ (pathOf s x).closed then openPath (other x) .gaveWay none s else s)

/-- PATH_CONDUCTION_CHANGE: SWITCHOVER when the other path conducts, or stopped within the last 1 ms (R63). -/
def execPathConductionChange (x : Path) (on : Bool) (s : State) : Host.Outcome State Fault Refusal :=
  .next (
    let p := pathOf s x
    let o := pathOf s (other x)
    if !anvilOn s || decide (p.cond = on) then s
    else if !on then setPath x { p with cond := false, condOff := some s.clk.now } s
    else
      let near := match o.condOff with | some t => decide (s.clk.now ≤ t + ms 1) | none => false
      wakeCheck (raiseIf (o.cond || near) (16 * 46 + 12) (setPath x { p with cond := true } s)))

/-! Guards (R64 to R67). Guard bits: 0 OV, 1 REV, 2 FOC, 3 SLOW, 4 UV, 5 INRUSHTMO, 6 LOCK. -/

/-- A trip counts; past INRETRY the path locks out (R66). -/
def countTrip (x : Path) (s : State) : State :=
  let p := pathOf s x
  if p.counted then s
  else
    let n := p.trips + 1
    let s := setPath x { p with trips := n, counted := true } s
    if n ≥ inretry s + 1 ∧ !p.flt.getLsbD 6 then
      raiseW (16 * 46 + 10 + px x) (setPath x { (pathOf s x) with flt := setBit (pathOf s x).flt 6 true } s)
    else s

/-- A guard acts on a path: flag, event `src`, opening. A counted guard adds one trip to the opening it belongs to. -/
def guardTrip (x : Path) (bitNo src : Nat) (counted : Bool) (why : OpenWhy) (m : Option InMeas) (s : State) : State :=
  let p := pathOf s x
  let s := setPath x { p with flt := setBit p.flt bitNo true, wait := setBit p.wait bitNo true } s
  let s := openPath x why m s
  let s := if bitNo ≠ 4 ∧ !p.closed then { s with inp := { s.inp with nonUv := true } } else s
  let s := raiseW src s
  wakeCheck (if counted then countTrip x s else s)

/-- The reverse, fast, slow and inrush guards act on a path that is closed, or has opened in this moment (R67, R69). -/
def guardActs (s : State) (x : Path) : Bool :=
  anvilOn s && ((pathOf s x).closed || decide ((pathOf s x).openedAt = some s.clk.now))

/-- The retry wait of a counted guard; the longest applies (R64, R67). -/
def armRetry (x : Path) (t : Nat) (s : State) : State :=
  if s.clk.timers.any (fun u => decide (u.ev = .pathRetryEnd x none) && decide (u.due > s.clk.now + t)) then s
  else arm t (.pathRetryEnd x none) s

/-- OVA, OVB: on an open path too (R69); qualification ends (R62). -/
def execOva (x : Path) (m : Option InMeas) (s : State) : Host.Outcome State Fault Refusal :=
  .next (if !anvilOn s then s
    else
      let s := takeMeas m s
      let s := setPath x { (pathOf s x) with qual := false } s
      idleWatch false (guardTrip x 0 (16 * 46 + px x) false .guard m s))

/-- INPUT_OV_CLEAR. -/
def execInputOvClear (x : Path) (m : Option InMeas) (s : State) : Host.Outcome State Fault Refusal :=
  .next (
    let s := takeMeas m s
    let p := pathOf s x
    tryClose x m (setPath x { p with wait := setBit p.wait 0 false } s))

/-- REVA, REVB. -/
def execReva (x : Path) (m : Option InMeas) (s : State) : Host.Outcome State Fault Refusal :=
  .next (if guardActs s x then guardTrip x 1 (16 * 46 + 2 + px x) false .guard m (takeMeas m s) else s)

/-- REVERSE_RECLOSE: at once while still qualified (R62, R64). -/
def execReverseReclose (x : Path) (m : Option InMeas) (s : State) : Host.Outcome State Fault Refusal :=
  .next (
    let s := takeMeas m s
    let p := pathOf s x
    tryClose x m (setPath x { p with wait := setBit p.wait 1 false } s))

/-- FOCA, FOCB: reclose after 100 ms. -/
def execFoca (x : Path) (m : Option InMeas) (s : State) : Host.Outcome State Fault Refusal :=
  .next (if guardActs s x then armRetry x (ms 100) (guardTrip x 2 (16 * 46 + 4 + px x) true .guard m (takeMeas m s)) else s)

/-- SLOWA, SLOWB: the integrator has reached its trip level; reclose after 1 s. With a measurement the level is judged by the
integrator that the measurements give; without one the sender, or the armed trip, says that it is reached (log entry 13). -/
def execSlowa (x : Path) (m : Option InMeas) (s : State) : Host.Outcome State Fault Refusal :=
  .next (
    let s := disarm (.slowa x none) (takeMeas m s)
    if guardActs s x ∧ (m = none ∨ slowLevel s x ≤ slowNow s x) then
      (let s := guardTrip x 3 (16 * 46 + 6 + px x) true .guard m s
       armRetry x (sec 1) (setPath x { (pathOf s x) with acc := slowLevel s x, accAt := s.clk.now } s))
    else if m = none then s else armSlow x s)

/-- UVA, UVB: requalification follows (R62). -/
def execUva (x : Path) (m : Option InMeas) (s : State) : Host.Outcome State Fault Refusal :=
  .next (if !anvilOn s then s
    else
      let s := takeMeas m s
      let s := setPath x { (pathOf s x) with qual := false } s
      idleWatch false (guardTrip x 4 (16 * 46 + 8 + px x) false .uv m s))

/-- INRUSH_COMPLETE: full drive; PRE may begin, and in ORing the other path may close (R63, R68). -/
def execInrushComplete (x : Path) (m : Option InMeas) (s : State) : Host.Outcome State Fault Refusal :=
  .next (
    let s := disarm (.inrushtmo x) (takeMeas m s)
    let p := pathOf s x
    if p.closed && !p.full then tryClose (other x) m (preStart (setPath x { p with full := true } s)) else s)

/-- INRUSHTMO. -/
def execInrushtmo (x : Path) (s : State) : Host.Outcome State Fault Refusal :=
  .next (
    let s := disarm (.inrushtmo x) s
    if guardActs s x ∧ !(pathOf s x).full then armRetry x (ms 100) (guardTrip x 5 (16 * 46 + 15) true .guard none s) else s)

/-- PATH_RETRY_END: the waits of the counted guards end (R64). DESIGN CHOICE: at the end of the slow guard's 1 s its integrator
starts from 0, fallen that far or not (log entry 13). -/
def execPathRetryEnd (x : Path) (m : Option InMeas) (s : State) : Host.Outcome State Fault Refusal :=
  .next (
    let s := disarm (.pathRetryEnd x none) (takeMeas m s)
    let p := pathOf s x
    let s := if p.wait.getLsbD 3 then setPath x { p with acc := 0, accAt := s.clk.now } s else s
    tryClose x m (setPath x { (pathOf s x) with wait := p.wait &&& 0x13 } s))

/-- TRIP_COUNT_CLEAR: closed for 10 s with no trip (R66). -/
def execTripCountClear (x : Path) (s : State) : Host.Outcome State Fault Refusal :=
  .next (
    let s := disarm (.tripCountClear x) s
    let p := pathOf s x
    if p.closed then setPath x { p with trips := 0 } s else s)

/-- INCTL.CLRx: flags, lockout and trip count clear; qualification ends and counts afresh (R62, R64). -/
def inctlPath (x : Path) (s : State) : State :=
  let p := pathOf s x
  disarm (.pathRetryEnd x none) (setPath x { p with flt := 0, wait := 0, trips := 0, qual := false } s)

/-- The command bits of INCTL. -/
def inctlBits (a b : Bool) (s : State) : State :=
  idleWatch false <|
  let s := if a then inctlPath .a s else s
  if b then inctlPath .b s else s

/-- INCTL_CLR. -/
def execInctlClr (a b : Bool) (s : State) : Host.Outcome State Fault Refusal := .next (onPage 2 (inctlBits a b) s)

/-- Every path that has closed since the reset opened last by UV, a cleared enable or giving way (R69). -/
def lossByUv (s : State) : Bool :=
  let ok := fun (p : PathSt) => !p.ever || decide (p.why ≠ .guard)
  ok s.inp.a && ok s.inp.b && !s.inp.nonUv

/-- INLOSS (R69); in START, RUN and STANDBY the device enters STOP (R150). While the boot runs, in which STATE reads START, it sets the flag
alone, and the boot's end decides by it (R326; DESIGN CHOICE, log entry 16). -/
def execInloss (s : State) : Host.Outcome State Fault Refusal :=
  .next (
    let s := disarm .inloss s
    if !anvilOn s || s.inp.a.closed || s.inp.b.closed || s.inp.inloss || !(s.inp.a.ever || s.inp.b.ever) then s
    else
      let uv := lossByUv s
      let s := raiseW (16 * 46 + 13) { s with inp := { s.inp with inloss := true, inlossuv := uv } }
      if !s.glob.boot ∧ (s.glob.st = .start ∨ s.glob.st = .run ∨ s.glob.st = .standby)
      then commonStop (s.pwr.req.isSome) s else s)

/-- PLIM: PRE's input power limit acts, or ceases (R73, R82). -/
def execPlim (on : Bool) (s : State) : Host.Outcome State Fault Refusal :=
  .next (if !anvilOn s || !has s.rl.en 0 then s
    else if on && !s.inp.plim then raiseG 0 15 { s with inp := { s.inp with plim := true } }
    else { s with inp := { s.inp with plim := on } })

end Sys2Proof.Machine
end

