-- ==== Sys2Proof/Machine/Interrupts.lean ====
section
/-! DEFINITION. The interrupt controller's registers and outputs (14_interrupts.md, R371 to R388). -/

namespace Sys2Proof.Machine

/-- The sources of a group. -/
def groupSources (g : Nat) : List Nat := (List.range 16).map (16 * g + ·)

/-- Sources of the list whose pending bit or mask says so lose their assignment; those newly due take one (R380). -/
def reassign (srcs : List Nat) (s : State) : State :=
  assignNow srcs (srcs.foldl (fun s src => if takesTurn s src then s else unassign src s) s)

/-- Sources of group g that were registered at the tick at which a write of PENDg is applied (R375). -/
def sameTick (s : State) (g : Nat) : Word := word16Of (fun b => decide (mget 0 s.irq.tick (16 * g + b) = intTick s))

/-- A whole PENDg takes effect (R375, R376): bits written as 0 clear, but those of a raise registered at the same tick; a clear of a
source raised since the last read of the low byte sets OVR. -/
def pendWord (g : Nat) (v : Word) (s : State) : State :=
  let old := pendOf s g
  let gone := old &&& ~~~v &&& ~~~(sameTick s g)
  let lost := decide (gone &&& mget 0xFFFF s.irq.late g ≠ 0)
  let s1 := { s with irq := { s.irq with pend := mput 0 s.irq.pend g (old &&& ~~~gone)
                                         ovr := if lost then setBit s.irq.ovr g true else s.irq.ovr } }
  afterIrq s (groupSources g) (reassign (groupSources g) s1)

/-- PEND_WRITE. -/
def execPendWrite (g : Fin 64) (v : Word) (s : State) : Host.Outcome State Fault Refusal :=
  .next (onPage (0x50 + g.val / 32) (pendWord g.val v) s)

/-- A whole MASKg replaces the mask word (R375). -/
def maskWord (g : Nat) (v : Word) (s : State) : State :=
  afterIrq s (groupSources g) (reassign (groupSources g) { s with irq := { s.irq with mask := mput 0xFFFF s.irq.mask g v } })

/-- MASK_WRITE. -/
def execMaskWrite (g : Fin 64) (v : Word) (s : State) : Host.Outcome State Fault Refusal :=
  .next (onPage (0x50 + g.val / 32) (maskWord g.val v) s)

/-- A route code is reserved (R378). -/
def routeReserved (n : Nat) : Bool := decide (n = 5 ∨ n = 6 ∨ n ≥ 9)

/-- A route byte (R378): a reserved nibble has it ignored whole; a class S source is assigned afresh (R380). -/
def routeByte (page off : Nat) (v : Byte) (s : State) : State :=
  let lo := v.toNat % 16
  let hi := v.toNat / 16
  if routeReserved lo || routeReserved hi then berrRsvenc s
  else
    let a := 256 * page + 2 * off
    let s1 := { s with irq := { s.irq with route := mput 0 (mput 0 s.irq.route a (BitVec.ofNat 4 lo)) (a + 1) (BitVec.ofNat 4 hi)
                                           asg := mput 0 (mput 0 s.irq.asg a 0) (a + 1) 0 } }
    afterIrq s [a, a + 1] (reassign [a, a + 1] s1)

/-- ROUTE_WRITE. -/
def execRouteWrite (page : Fin 4) (off : Fin 128) (v : Byte) (s : State) : Host.Outcome State Fault Refusal :=
  .next (onPage (0x52 + page.val) (routeByte page.val off.val v) s)

/-- Sources pending now, in ascending order. -/
def pendingSources (s : State) : List Nat :=
  (s.irq.pend.map (fun (g, w) => (groupSources g).filter (fun x => w.getLsbD (x % 16)))).flatten

/-- RRMASK: sources without assignment take one once a bit is set; those that hold one keep it, so that they take no part in what the
rest of this 1 µs assigns (R380). -/
def rrmaskByte (v : Byte) (s : State) : State :=
  let l := pendingSources s
  let s1 := plainByte 0x56 0 v s
  afterIrq s l (assignNow l { s1 with irq := { s1.irq with rrBase := s1.irq.rrnext, rrSrcs := [] } })

/-- RRMASK_WRITE. -/
def execRrmaskWrite (v : Byte) (s : State) : Host.Outcome State Fault Refusal := .next (onPage 0x56 (rrmaskByte v) s)

/-- A byte of 64 bits, at byte i. -/
def at64 (i : Nat) (v : Byte) : BitVec 64 := BitVec.ofNat 64 (v.toNat * 256 ^ i)

/-- A byte of OVRCLR (R376, R388). -/
def ovrclrByte (i : Nat) (v : Byte) (s : State) : State := { s with irq := { s.irq with ovr := s.irq.ovr &&& ~~~(at64 i v) } }
/-- The wake latches that have set in the always-on clock edge of now (R386). -/
def latchedNow (s : State) : BitVec 64 :=
  s.pwr.wlAt.foldl (fun m (k, e) => if e = aonEdge s then setBit m k true else m) 0
/-- A byte of WLCLR; a latch that sets in the same always-on clock edge stays set (R386). -/
def wlclrByte (i : Nat) (v : Byte) (s : State) : State :=
  { s with pwr := { s.pwr with wl := s.pwr.wl &&& ~~~(at64 i v &&& ~~~(latchedNow s)) } }
/-- A byte of TESTTRIG raises its test sources (R373). -/
def testtrigByte (i : Nat) (v : Byte) (s : State) : State :=
  (List.range 8).foldl (fun s b => if v.getLsbD b then raiseW (1008 + 8 * i + b) s else s) s

/-- OVRCLR. -/
def execOvrclr (i : Fin 8) (v : Byte) (s : State) : Host.Outcome State Fault Refusal := .next (onPage 0x56 (ovrclrByte i.val v) s)
/-- WLCLR. -/
def execWlclr (i : Fin 8) (v : Byte) (s : State) : Host.Outcome State Fault Refusal := .next (onPage 0x56 (wlclrByte i.val v) s)
/-- TESTTRIG. -/
def execTesttrig (i : Fin 2) (v : Byte) (s : State) : Host.Outcome State Fault Refusal := .next (onPage 0x56 (testtrigByte i.val v) s)

/-- INT_PULSE_END: the 10 µs of a pulse are over, unless a later delivery has begun them anew (R382). -/
def execIntPulseEnd (t : Fin 4) (s : State) : Host.Outcome State Fault Refusal :=
  .next (if armedAhead (.intPulseEnd t) s then s else disarm (.intPulseEnd t) { s with irq := { s.irq with pulse := setBit s.irq.pulse t.val false } })

/-- A raise of the source still waits for its log record. -/
def logWaits (s : State) (src : Nat) : Bool := s.fl.queue.any (fun e => decide (e.kind = 0 ∧ e.src = src))

/-- FW_INT_SERVICE: the firmware clears a source delivered to target 4, after its log record is written; while that waits, the
firmware has the log written first (R381). -/
def execFwIntService (src : Fin 1024) (s : State) : Host.Outcome State Fault Refusal :=
  .next (if fwOn s && decide (deliveredTo s src.val = some 4) then
      if logWaits s src.val then grant { s with fl := { s.fl with wantLog := true } } else
      (let g := src.val / 16
       let s1 := { s with irq := { s.irq with pend := mput 0 s.irq.pend g (setBit (pendOf s g) (src.val % 16) false) } }
       afterIrq s [src.val] (unassign src.val s1))
    else s)

end Sys2Proof.Machine
end

