-- ==== Sys2Proof/Machine/UpdOps.lean ====
section
/-! DEFINITION. The update engine's own operations (R427, R428, R432 to R442): manifests, frames, the next output sector,
stream errors. -/

namespace Sys2Proof.Machine

/-- Bytes i to j − 1 are all 0x00. -/
def zeros (l : List Byte) (i j : Nat) : Bool := (List.range (j - i)).all (fun k => decide (byteN l (i + k) = 0))

/-! Slots. -/

/-- The slot that is not booted. -/
def inactive (s : State) : Option SlotHdr := if s.upd.bootedB then s.upd.slotA else s.upd.slotB
/-- The booted slot. -/
def booted (s : State) : Option SlotHdr := if s.upd.bootedB then s.upd.slotB else s.upd.slotA
/-- Write the header of the slot that is not booted. -/
def setInactive (h : Option SlotHdr) (s : State) : State :=
  if s.upd.bootedB then { s with upd := { s.upd with slotA := h } } else { s with upd := { s.upd with slotB := h } }

/-- An SVN is acceptable (R427). -/
def svnOk (s : State) (n : Nat) : Bool := decide (arcnt s.otp.shd ≤ n ∧ n ≤ 64)

/-! Revocation requests (R428). Slots of a class are 2 × class and 2 × class + 1. -/

/-- A request of class `cl` with these bits, signed by slot `signer`, is valid. -/
def revokeOk (s : State) (cl : Nat) (req : BitVec 2) (signer : Nat) : Bool :=
  decide (req = 0) ||
  (decide (signer / 2 = cl) && !req.getLsbD (signer % 2) &&
   [0, 1].any (fun i => keyPresent s.otp.shd (2 * cl + i) && !req.getLsbD i))

/-! Manifests (R433). -/

/-- A part entry is well formed; a full firmware part is whole sectors of a possible image (R432). -/
def entryOk (e : List Byte) : Bool :=
  let k := byteN e 0
  let f := byteN e 1
  let n := numAt e 4 4
  zeros e 2 4 &&
  ((decide (k = 1) && decide (f = 1)) ||
   (decide (k = 1) && decide (f = 0) && zeros e 40 72 && decide (n % 4096 = 0) && decide (8192 ≤ n ∧ n ≤ 393216)) ||
   (decide (k = 2) && decide (f = 0) && zeros e 40 72))

/-- Magic, format, identity, part table, trial bytes and the bytes that are 0x00 (error 0x10). -/
def manifestForm (m : List Byte) : Bool :=
  let es := entries m
  decide (m.take 8 = [0x4F, 0x54, 0x4D, 0x46, 0x01, 0x26, 0x40, 0xB0]) && decide (1 ≤ byteN m 8 ∧ byteN m 8 ≤ 2) &&
  decide (byteN m 9 < 4) && decide (byteN m 10 < 2) && decide (byteN m 11 ≠ 0) && decide (byteN m 12 ≠ 0) &&
  zeros m 14 32 && es.all entryOk && decide ((es.map (fun e => byteN e 0)).Nodup) && (decide (byteN m 8 = 2) || zeros m 104 176)

/-- The signer: slot number 0 to 3. -/
def manifestSigner (m : List Byte) : Nat := byteN m 13 % 2 * 2 + byteN m 13 / 2 % 2

/-- Any customer slot is present. -/
def customerPresent (s : State) : Bool := keyPresent s.otp.shd 2 || keyPresent s.otp.shd 3

/-- A public key X ‖ Y is the one whose digest key slot i holds (R425). -/
def keyMatches (m : Map Byte) (i : Nat) (pub : List Byte) : Bool :=
  decide (sha256 pub = (List.range 32).map (fun b => fuse m (2 + i / 2) (32 * (i % 2) + b)))

/-- The signer is a present slot of the required class, its key is the manifest's, and the signature is right (R433). -/
def signerOk (s : State) (m : List Byte) : Bool :=
  let n := manifestSigner m
  keyPresent s.otp.shd n && decide (n / 2 = (customerPresent s).toNat) && keyMatches s.otp.shd n (slice m 176 240) &&
    ecdsaOk (slice m 176 240) (m.take 240) (slice m 240 304)

/-- The target of a part is read-only: the inactive slot of a firmware part, or the delta scratch (R398, R439). -/
def targetRO (s : State) (m : Manifest) : Bool :=
  (m.fw && s.fl.ro.getLsbD (if s.upd.bootedB then 0 else 1)) || s.fl.ro.getLsbD 8

/-! Images (R432). -/

/-- The first 16 bytes of a slot's image. -/
def headBytes (h : SlotHdr) : List Byte :=
  [0x4F, 0x54, 0x46, 0x57, 0x01] ++ padTo 3 h.ver ++ [BitVec.ofNat 8 h.svn, BitVec.ofNat 8 h.key, BitVec.ofNat 8 h.revoke.toNat, 0] ++
    leBytes 4 h.len

/-- The 256 bytes of a header. -/
def SlotHdr.all (h : SlotHdr) : List Byte :=
  match h.bytes with
  | some b => b
  | none => headBytes h ++ (List.range 240).map (fun i => Config.shippedByte (16 + i))

/-- The image digest that a header names. -/
def SlotHdr.digest (h : SlotHdr) : List Byte := slice h.all 16 48

/-- A length that an image can have. -/
def imageLen (n : Nat) : Bool := decide (n % 4096 = 0 ∧ 8192 ≤ n ∧ n ≤ 393216)

/-- The header that a slot's first bytes spell, where every field, the fill and the CRC are right. -/
def headerOf (b : List Byte) : Option SlotHdr :=
  let b := b.take 256
  if decide (b.length = 256) && decide (b.take 5 = [0x4F, 0x54, 0x46, 0x57, 0x01]) && decide (byteN b 9 < 2 ∧ byteN b 10 < 4 ∧ byteN b 11 = 0) &&
      imageLen (numAt b 12 4) && decide (slice b 176 252 = List.replicate 76 0xFF) &&
      decide (numAt b 252 4 = (Config.crc32 (b.take 252)).toNat) then
    some ⟨slice b 5 8, byteN b 8, byteN b 9, BitVec.ofNat 2 (byteN b 10), numAt b 12 4, some b⟩
  else none

/-- A slot's header. -/
def slotHdr (s : State) (b : Bool) : Option SlotHdr := if b then s.upd.slotB else s.upd.slotA

/-- Sector k of a slot as its bytes: of an image as shipped, the header first. -/
def slotBytes (s : State) (b : Bool) (k : Nat) : List Byte :=
  let l := sectorBytes s (96 * b.toNat + k) (4096 * k)
  match k, slotHdr s b with
  | 0, some h => if h.bytes.isNone then h.all ++ l.drop 256 else l
  | _, _ => l

/-- No sector of the image is half-erased. -/
def slotWhole (s : State) (b : Bool) (h : SlotHdr) : Bool :=
  (List.range (h.len / 4096)).all (fun k => !(sector s (dataHome s (96 * b.toNat + k))).broken)

/-- SHA-256 of the bytes of a slot's image behind its header. -/
def imageDigest (s : State) (b : Bool) (h : SlotHdr) : List Byte :=
  sha256 (((List.range (h.len / 4096)).flatMap (slotBytes s b)).drop 256)

/-- The vendor key of an image is the one of its slot, and its signature is right; an image as shipped counts as Fyhorn's (log
entry 6). -/
def imageSigned (s : State) (h : SlotHdr) : Bool :=
  match h.bytes with
  | some hb => keyMatches s.otp.shd h.key (slice hb 48 112) && ecdsaOk (slice hb 48 112) (hb.take 112) (slice hb 112 176)
  | none => true

/-- The bytes of an image are those of its digest; those of an image as shipped are. -/
def imageWhole (s : State) (b : Bool) (h : SlotHdr) : Bool := slotWhole s b h && (h.bytes.isNone || decide (imageDigest s b h = h.digest))

/-- A slot is bootable (R432): its key's slot is present, key, signature and digest are right, and its SVN is acceptable. -/
def slotBoots (s : State) (b : Bool) : Bool :=
  (slotHdr s b).any (fun h => keyPresent s.otp.shd h.key && svnOk s h.svn && imageSigned s h && imageWhole s b h)

/-- The base of a delta is the booted image (R434). -/
def baseOk (s : State) (m : List Byte) : Bool :=
  (booted s).any (fun h => (entryOf m 1).any (fun e => decide (slice e 40 72 = h.digest)))

/-- The first error of a manifest, 0 with none; a booted image that does not read as it was programmed is not the base. -/
def manifestError (reads : Bool) (m : List Byte) (s : State) : Nat :=
  let x := manifestOf m
  if !manifestForm m || !revokeOk s 1 x.revoke (manifestSigner m) then 0x10
  else if !signerOk s m then 0x11
  else if x.delta && !(reads && baseOk s m) then 0x13
  else if targetRO s x then 0x16
  else if x.cfgLen > 4079 ∨ 304 + x.fwLen + x.cfgLen ≠ s.upd.len then 0x17
  else 0

/-! The end of a session. -/

/-- A signature failure: SIGFAIL and a SECURITY record (R451, R452). -/
def sigFail (slot : Nat) (s : State) : State := raiseG 54 6 (logSecurity 7 slot 0 s)

/-- The session of the engine is over. -/
def dropSession (s : State) : State :=
  { s with upd := { s.upd with buf := [], wait := none, man := none, want := none } }

/-- A stream error (R439): the session ends, the command with it, and the inactive slot holds no bootable image. -/
def updError (e : Byte) (s : State) : State :=
  let s := dropSession s
  let s := setInactive none { s with upd := { s.upd with err := e, prevOk := false } }
  let s := raiseG 55 5 (updState 0 s)
  grant (if slotHas s 0x51 || slotHas s 0x52 then slotError e s else s)

/-! Frames and output sectors (R434). -/

/-- The configuration part has been stored. -/
def cfgStored (s : State) (m : Manifest) : Bool :=
  m.cfg && decide (s.upd.used ≥ 304 + m.cfgLen + (if m.cfgFirst then 0 else m.fwLen))

/-- The output sector of the firmware part that is next. -/
def nextOut (s : State) (m : Manifest) : Nat := s.upd.out - (cfgStored s m).toNat

/-- The runs of a DIFF payload: offset, length and data, rising, within the sector. -/
def diffOk : Nat → Nat → List Byte → Bool
  | 0, _, _ => false
  | f + 1, lo, p =>
    if p = [] then true
    else
      let o := numAt p 0 2
      let n := numAt p 2 2
      decide (4 ≤ p.length) && decide (lo ≤ o) && decide (o + n ≤ 4096) && decide (4 + n ≤ p.length) && diffOk f (o + n) (p.drop (4 + n))

/-- The frame head is valid for output sector k. -/
def frameHead (b : List Byte) (k : Nat) : Bool :=
  let t := byteN b 0
  let base := numAt b 4 2
  let n := numAt b 6 2
  decide (byteN b 1 = 0) && decide (numAt b 2 2 = k) && decide (k ≤ 95) &&
  ((decide (t = 1) && decide (base ≤ 95) && decide (n = 0)) || (decide (t = 2) && decide (base ≤ 95)) ||
   (decide (t = 3) && decide (base = 0xFFFF) && decide (n = 4096)) || (decide (t = 4) && decide (base = 0xFFFF) && decide (n = 1)))

/-- A whole frame is good. -/
def frameOk (b : List Byte) : Bool :=
  let n := numAt b 6 2
  decide (numAt b (8 + n) 4 = (Config.crc32 (b.take (8 + n))).toNat) &&
  (decide (byteN b 0 ≠ 2) || diffOk 4097 0 ((b.drop 8).take n))

/-- What the stream's next unit is. -/
inductive Unit where
  /-- none, or not all of it has arrived -/
  | wait
  | bad
  /-- an output sector, taking n stream bytes -/
  | sector (n : Nat)
  | cfg
deriving DecidableEq, Repr

/-- The next unit of the stream in the buffer. -/
def nextUnit (s : State) (m : Manifest) : Unit :=
  let u := s.upd
  let fs := 304 + (if m.cfgFirst then m.cfgLen else 0)
  let cs := 304 + (if m.cfgFirst then 0 else m.fwLen)
  if m.cfg ∧ u.used = cs ∧ !cfgStored s m then (if u.buf.length ≥ m.cfgLen then .cfg else .wait)
  else if !m.fw ∨ u.used ≥ fs + m.fwLen then .wait
  else if !m.delta then (if u.buf.length ≥ 4096 then .sector 4096 else .wait)
  else if u.buf.length < 8 then .wait
  else if !frameHead u.buf (nextOut s m) then .bad
  else
    let n := numAt u.buf 6 2 + 12
    if u.used + n > fs + m.fwLen then .bad
    else if u.buf.length < n then .wait
    else if frameOk u.buf then .sector n else .bad

/-- The runs of a DIFF laid over bytes. -/
def applyRuns : Nat → List Byte → List Byte → List Byte
  | 0, _, b => b
  | f + 1, p, b =>
    if p.length < 4 then b
    else
      let o := numAt p 0 2
      let n := numAt p 2 2
      let d := (p.drop 4).take n
      applyRuns f (p.drop (4 + n)) (b.zipIdx.map (fun (x, i) => if o ≤ i ∧ i < o + n then d.getD (i - o) x else x))

/-- Output sector k (R434): of a full part its bytes, of a delta what the frame makes of the base, the booted slot. -/
def outSector (m : Manifest) (s : State) : List Byte :=
  let b := s.upd.buf
  if !m.delta then b.take 4096
  else
    let t := byteN b 0
    let base := slotBytes s s.upd.bootedB (numAt b 4 2)
    if t = 1 then base
    else if t = 2 then applyRuns 4097 (slice b 8 (8 + numAt b 6 2)) base
    else if t = 3 then slice b 8 4104
    else List.replicate 4096 (b.getD 8 0)

/-- The bytes that an update slot programs: an output sector, the manifest, the configuration part. -/
def slotContent (s : State) : Option (List Byte) :=
  match s.upd.man, s.fl.slot with
  | some m, some (.upd _) => some (outSector m s)
  | some m, some .updMan => some m.bytes
  | some m, some .updCfg => some (s.upd.buf.take m.cfgLen)
  | _, _ => none

/-- The host ends the session (R448): a slot in progress goes on with what it programs (R403). -/
def cancelSession (s : State) : State :=
  dropSession { s with upd := { s.upd with cutOut := slotContent s } }

/-- Before sector 0 is written the new image's SVN is checked (R427, R439). -/
def svnCheck (k : Nat) (m : Manifest) (s : State) : Option State :=
  if k ≠ 0 then none
  else
    let n := byteN (outSector m s) 8
    if svnOk s n then none else some (updError 0x12 (raiseIf (decide (n < arcnt s.otp.shd)) (16 * 54 + 7) s))

/-- The engine looks for its next output sector; a bad frame ends the session. -/
def updPump (s : State) : State :=
  match s.upd.man with
  | none => s
  | some m =>
    if s.upd.st ≠ 1 ∨ s.upd.want.isSome then s
    else match nextUnit s m with
      | .wait => s
      | .bad => updError 0x14 s
      | .cfg => grant { s with upd := { s.upd with want := some .updCfg } }
      | .sector _ =>
        let k := nextOut s m
        match svnCheck k m s with
        | some s => s
        | none => grant { s with upd := { s.upd with want := some (.upd k) } }

/-- Room in the input buffer: 8 KiB (R438). A frame that is longer never arrives whole (log entry 36). -/
def bufRoom : Nat := 8192

/-- Accepted bytes enter the buffer. -/
def takeBytes (bs : List Byte) (s : State) : State :=
  { s with upd := { s.upd with buf := s.upd.buf ++ bs, inp := s.upd.inp + bs.length, wait := none } }

/-- A waiting UPD_DATA goes on once there is room. -/
def takeWaiting (s : State) : State :=
  match s.upd.wait with
  | some bs => if s.upd.buf.length + bs.length ≤ bufRoom then
      (let s := takeBytes bs s
       if slotHas s 0x51 then slotEnd 3 0 [] s else s) else s
  | none => s

/-- A unit of n bytes has been written: its progress mark k, UPDOUT, and what the buffer holds. -/
def consumed (k n : Nat) (s : State) : State :=
  let u := markProgress k (s.upd.used + n) s.upd
  takeWaiting { s with upd := { u with buf := u.buf.drop n, used := u.used + n, mark := u.used + n, out := u.out + 1, want := none } }

/-- Output sector k is written, with the mark. The first brings the new header, and clears the previous slot's confirmed mark, which
the journal is then to say (R448). -/
def sectorDone (k : Nat) (s : State) : State :=
  match s.upd.man with
  | some m =>
    if s.upd.st ≠ 1 then s
    else match nextUnit s m with
      | .sector n =>
        let head := outSector m s
        let s := consumed k n s
        if k = 0 then updPump (grant (setInactive (headerOf head) (wantJournal { s with upd := { s.upd with prevOk := false } })))
        else updPump s
      | _ => s
  | none => s

/-- The configuration part is in sector 401; its mark is that of sector 96 (R435, R440). -/
def cfgPartDone (s : State) : State :=
  match s.upd.man with
  | some m => if s.upd.st ≠ 1 then s else updPump (consumed 96 m.cfgLen s)
  | none => s

/-- The configuration part that sector 401 holds. -/
def cfgPart (s : State) : List Byte := (sectorBytes s 401 0).take ((s.upd.man.map (·.cfgLen)).getD 0)

/-! Confirmation (R427, R428, R447). -/

/-- Bytes of region r, from byte b on, programmed with the given bits; with a spare in place the spare takes them. -/
def fuseHome (o : Otp) (r : Nat) : Nat := if o.tag15S = some r then 15 else if o.tag14S = some r then 14 else r

/-- Program bits of the array. -/
def burn (r b : Nat) (bs : List Byte) (s : State) : State :=
  let h := fuseHome s.otp r
  { s with otp := { s.otp with pend := setBit s.otp.pend r true
                               arr := (bs.zipIdx).foldl (fun m (v, i) => mput 0 m (64 * h + b + i) (fuse m h (b + i) ||| v)) s.otp.arr } }

/-- ARCNT takes effect at once (log entry 34). -/
def burn9 (b : Nat) (bs : List Byte) (s : State) : State :=
  let s := burn 9 b bs s
  { s with otp := { s.otp with shd := (bs.zipIdx).foldl (fun m (v, i) => mput 0 m (64 * 9 + b + i) (fuse m 9 (b + i) ||| v)) s.otp.shd } }

/-- Eight bytes with the first n bits set. -/
def countBytes (n : Nat) : List Byte := leBytes 8 (2 ^ n - 1)

/-- ARCNT advances to n. -/
def advanceArcnt (n : Nat) (s : State) : State :=
  if n ≤ arcnt s.otp.shd then s
  else
    let s := burn9 0 (countBytes n ++ countBytes n) s
    let s := raiseG 54 8 (logSecurity 8 0 n s)
    if n = 64 then raiseG 54 9 s else s

/-- Slot i is revoked, from the next sensing on (R420). -/
def revokeSlot (i : Nat) (s : State) : State := raiseG 54 10 (logSecurity 9 i 0 (burn 9 (16 + i) [0x1F] s))

/-- The journal cannot be written: the command that waits for it ends; a fall-back goes on without its entry (R398, log entry
36). -/
def journalLost (s : State) : State :=
  let fell := decide (s.upd.jact = .fell)
  let s := { s with upd := { s.upd with want := none, jact := .none } }
  let s := if fell then fellEnd { s with upd := { s.upd with st := 7, fell := false, man := none } } else s
  if slotHas s 0x50 || slotHas s 0x54 then slotError 0x03 s else s

/-- A journal write that waits while its partition becomes read-only is lost. -/
def journalShut (s : State) : State := if s.upd.want = some .journal ∧ readOnly 206 s then journalLost s else s

/-- What confirmation programs; its journal entry follows (R447). -/
def confirm (s : State) : State :=
  let s := match booted s with
    | some h =>
      let s := advanceArcnt h.svn s
      [0, 1].foldl (fun s i => if h.revoke.getLsbD i then revokeSlot i s else s) s
    | none => s
  let s := match s.upd.man with
    | some m => [0, 1].foldl (fun s i => if m.revoke.getLsbD i then revokeSlot (2 + i) s else s) s
    | none => s
  if readOnly 206 s then journalLost s
  else grant { s with upd := { s.upd with want := some .journal, jact := .confirm } }

/-- The confirming journal write has completed. -/
def confirmed (s : State) : State :=
  let s := disarm .ttrialExpire (disarm .tconfExpire
    { s with upd := writeJournal { s.upd with st := 6, prevOk := true, jact := .none, want := none, confEnd := none, cfgNew := 0 } })
  let s := raiseG 55 8 (logUpdate s)
  if slotHas s 0x54 then slotEnd 3 0 [] s else s

/-- A journal write has completed. -/
def journalDone (s : State) : State :=
  match s.upd.jact with
  | .confirm => if s.upd.st = 5 ∧ !s.upd.fell then confirmed s
                else { s with upd := writeJournal { s.upd with want := none, jact := .none } }
  | .begin =>
    let s := { s with upd := { writeJournal { s.upd with want := none } with jact := .none } }
    updPump (if slotHas s 0x50 then slotEnd 3 0 [] s else s)
  | .fell => fellDone s
  | .none => updPump { s with upd := writeJournal { s.upd with want := none } }

end Sys2Proof.Machine
end

