-- ==== Sys2Proof/Machine/Otp.lean ====
section
/-! DEFINITION. Programming Hallmark (R419, R420, R429, R430). -/

namespace Sys2Proof.Machine

/-- Region r's lock is set in these lock fuses (R418). -/
def lockSet (m : Map (BitVec 5)) (r : Nat) : Bool := fiveOf (mget 0 m r)

/-- Regions that OTP_PROGRAM and OTP_LOCK may write (R419). -/
def customerRegion (r : Nat) : Bool := [3, 5, 6, 7, 8, 10, 11, 12, 13].contains r

/-- The lower blank spare, if one is left (R430). -/
def blankSpare (o : Otp) : Option Nat :=
  let blank := fun (sp : Nat) => (List.range 64).all (fun b => decide (fuse o.arr sp b = 0))
  if decide (o.tag14 = 0) && blank 14 then some 14 else if decide (o.tag15 = 0) && blank 15 then some 15 else none

/-- The repair: the region's content with the requested bytes goes into the spare, then the spare's tag (R430). -/
def repair (sp r b : Nat) (bs : List Byte) (s : State) : State :=
  let h := fuseHome s.otp r
  let m := (List.range 64).foldl (fun m i => mput 0 m (64 * sp + i) (fuse m sp i ||| fuse s.otp.arr h i)) s.otp.arr
  let m := (bs.zipIdx).foldl (fun m (v, i) => mput 0 m (64 * sp + b + i) (fuse m sp (b + i) ||| v)) m
  let p := setBit (setBit s.otp.pend r true) sp true
  let s := { s with otp := if sp = 14 then { s.otp with arr := m, tag14 := s.otp.tag14 ||| tagFuses r, pend := p }
                           else { s.otp with arr := m, tag15 := s.otp.tag15 ||| tagFuses r, pend := p } }
  raiseG 54 2 (logSecurity 6 r (b + 256 * bs.length) s)

/-- Bytes of which a free part of the bits was programmed (log entry 8). -/
def partly (bs : List Byte) (s : State) : List Byte × State :=
  let (n, s) := drawNat s
  ((bs.zip (leBytes bs.length n)).map (fun (x, y) => x &&& y), s)

/-- The bits are programmed; `ok`: every one verified. -/
def programFuses (r b : Nat) (bs : List Byte) (ok : Bool) (s : State) : State :=
  let s := logSecurity 4 r (b + 256 * bs.length) s
  if ok then doneWith [] (raiseG 54 0 (burn r b bs s))
  else
    let (part, s) := partly bs s
    let s := burn r b part s
    match blankSpare s.otp with
    | some sp => doneWith [] (raiseG 54 0 (repair sp r b bs s))
    | none => slotError 0x05 (raiseG 54 1 s)

/-- OTP_PROGRAM's own checks. Its ERR in a state other than RUN is not stated. -/
def otpProgramBody (p : Packet) (ok : Bool) (s : State) : State :=
  match p.params with
  | r :: b :: bs =>
    let r := r.toNat
    let b := b.toNat
    if bs = [] ∨ bs.length > 8 ∨ r > 15 ∨ b + bs.length > 64 then reject 0x01 s
    else if !customerRegion r then reject 0x02 s
    else if lockSet s.otp.wl r then reject 0x03 s
    else if !has s.rl.pg 0 then reject 0x04 s
    else if s.glob.st ≠ .run then rejectOpen s
    else programFuses r b bs ok s
  | _ => reject 0x01 s

/-- OTP_PROGRAM. -/
def execOtpProgram (p : Packet) (ok : Bool) (s : State) : Host.Outcome State Fault Refusal :=
  .next (packet 0x60 true p (otpProgramBody p ok) s)

/-- Five lock fuses after a program of which fewer than 3 verified: a free part of the others may have been set, so long as fewer
than 3 read 1 (log entry 8). -/
def lockPart (v : BitVec 5) (n : Nat) : BitVec 5 :=
  let w := v ||| BitVec.ofNat 5 n
  if fiveOf w then v else w

/-- Program lock fuses of region r. -/
def burnLocks (r : Nat) (w rd : BitVec 5) (s : State) : State :=
  { s with otp := { s.otp with wl := mput 0 s.otp.wl r (mget 0 s.otp.wl r ||| w), rl := mput 0 s.otp.rl r (mget 0 s.otp.rl r ||| rd)
                               pend := setBit s.otp.pend (16 + r) true } }

/-- A lock that failed: of two locks asked for, one may have been set, a free choice (log entry 8). -/
def lockFailed (r : Nat) (w rd : Bool) (s : State) : State :=
  let (n, s) := drawNat s
  let (a, s) := drawNat s
  let part := fun (v : BitVec 5) (i : Nat) => lockPart v (a / 32 ^ i)
  burnLocks r (if !w then 0 else if rd ∧ n % 3 = 1 then 0x1F else part (mget 0 s.otp.wl r) 0)
    (if !rd then 0 else if w ∧ n % 3 = 2 then 0x1F else part (mget 0 s.otp.rl r) 1) s

/-- The locks are programmed; a write lock acts at once (R420). -/
def lockFuses (r : Nat) (w rd ok : Bool) (s : State) : State :=
  let s := logSecurity 5 r 0 s
  if !ok then slotError 0x05 (raiseG 54 1 (lockFailed r w rd s))
  else doneWith [] (raiseG 54 0 (raiseG 54 3 (burnLocks r (if w then 0x1F else 0) (if rd then 0x1F else 0) s)))

/-- OTP_LOCK's own checks. -/
def otpLockBody (p : Packet) (ok : Bool) (s : State) : State :=
  match p.params with
  | [r, l] =>
    let r := r.toNat
    let w := l.getLsbD 0
    let rd := l.getLsbD 1
    if r > 15 ∨ l = 0 ∨ l.toNat > 3 then reject 0x01 s
    else if !customerRegion r then reject 0x02 s
    else if (w && lockSet s.otp.wl r) || (rd && lockSet s.otp.rl r) then reject 0x03 s
    else if !has s.rl.pg 0 then reject 0x04 s
    else if s.glob.st ≠ .run then rejectOpen s
    else lockFuses r w rd ok s
  | _ => reject 0x01 s

/-- OTP_LOCK. -/
def execOtpLock (p : Packet) (ok : Bool) (s : State) : Host.Outcome State Fault Refusal := .next (packet 0x61 true p (otpLockBody p ok) s)

end Sys2Proof.Machine
end

