-- ==== Sys2Proof/Machine/Calendar.lean ====
section
/-! DEFINITION. The calendar (R315 to R324) and its events and commands. -/

namespace Sys2Proof.Machine

/-- Write the calendar. -/
def setCal (f : Cal → Cal) (s : State) : State := { s with cal := f s.cal }
/-- Half microseconds of n crystal cycles, rounded down. -/
def xt (n : Int) : Int := n * 15625 / 256

/-! Dates (R315, R317, R318). -/

/-- A leap year. -/
def leap (cent year : Nat) : Bool := if year = 0 then decide (cent % 4 = 0) else decide (year % 4 = 0)
/-- Days of a month. -/
def monthDays (cent year m : Nat) : Nat :=
  if m = 2 then (if leap cent year then 29 else 28) else if m = 4 ∨ m = 6 ∨ m = 9 ∨ m = 11 then 30 else 31

/-- The year, and the century, advance. -/
def nextYear (d : Date) : Date := if d.year < 99 then { d with year := d.year + 1 } else { d with year := 0, cent := if d.cent < 99 then d.cent + 1 else 0 }
/-- The month advances. -/
def nextMonth (d : Date) : Date := if d.month < 12 then { d with month := d.month + 1 } else nextYear { d with month := 1 }
/-- The day advances, and the day of the week. -/
def nextDay (d : Date) : Date :=
  let d := { d with wday := if d.wday ≥ 7 then 1 else d.wday + 1 }
  if d.day < monthDays d.cent d.year d.month then { d with day := d.day + 1 } else nextMonth { d with day := 1 }
/-- The next second. -/
def nextSecond (d : Date) : Date :=
  if d.sec < 59 then { d with sec := d.sec + 1 }
  else if d.min < 59 then { d with sec := 0, min := d.min + 1 }
  else if d.hour < 23 then { d with sec := 0, min := 0, hour := d.hour + 1 }
  else nextDay { d with sec := 0, min := 0, hour := 0 }

/-- CENT 99 has advanced to 00. -/
def centWrapped (old new : Date) : Bool := decide (old.cent = 99) && decide (new.cent = 0)

/-- BCD of a number below 100. -/
def bcd (n : Nat) : Byte := BitVec.ofNat 8 (n / 10 * 16 + n % 10)
/-- The number of a BCD byte, where it is valid. -/
def unbcd (b : Byte) : Option Nat := if b.toNat / 16 ≤ 9 ∧ b.toNat % 16 ≤ 9 then some (b.toNat / 16 * 10 + b.toNat % 16) else none

/-- SEC to CENT as bytes (R336). -/
def dateBytes (d : Date) : List Byte := [bcd d.sec, bcd d.min, bcd d.hour, bcd d.wday, bcd d.day, bcd d.month, bcd d.year, bcd d.cent]

/-- The date in the holding registers, where it is valid (R318). -/
def heldDate (s : State) : Option Date :=
  let f := fun i => unbcd (pl s (key 0x48 (0x11 + i)))
  match f 0, f 1, f 2, f 3, f 4, f 5, f 6, f 7 with
  | some se, some mi, some h, some w, some d, some m, some y, some c =>
    if se ≤ 59 ∧ mi ≤ 59 ∧ h ≤ 23 ∧ 1 ≤ w ∧ w ≤ 7 ∧ 1 ≤ m ∧ m ≤ 12 ∧ 1 ≤ d ∧ d ≤ monthDays c y m then some ⟨se, mi, h, w, d, m, y, c⟩ else none
  | _, _, _, _, _, _, _, _ => none

/-! The prescaler. -/

/-- When the present second ends. -/
def secondEnd (s : State) : Nat := (s.cal.t0 + xt (32768 - s.cal.adj)).toNat

/-- Arm the end of the present second. -/
def armSecond (s : State) : State := arm (secondEnd s - s.clk.now) .calendarSecond s

/-- The prescaler's count; while a negative shift holds it, the count at the start of the hold (R324). -/
def prescaler (s : State) : Nat :=
  let at_ := fun (t : Nat) => ((t : Int) - s.cal.t0) * 256 / 15625 + s.cal.adj
  let c := match s.cal.shift with
    | some n => if 0 ≤ n then at_ s.clk.now
        else if s.cal.shiftNext then at_ s.clk.now
        else if s.clk.now < s.cal.shiftAt then at_ s.clk.now - n
        else if (s.clk.now : Int) < s.cal.shiftAt + xt (-n) then at_ s.cal.shiftAt - n else at_ s.clk.now
    | none => at_ s.clk.now
  (max 0 (min 32767 c)).toNat

/-- SUBSEC. -/
def subsec (s : State) : Byte := BitVec.ofNat 8 (prescaler s / 128)

/-- A change of the prescaler's count moves the end of the second. -/
def addCycles (n : Int) (s : State) : State := armSecond (setCal (fun c => { c with adj := c.adj + n }) s)

/-! Seconds, alarm, periodic wake. -/

/-- The alarm matches: every compared field is equal (R322). -/
def alarmMatches (s : State) : Bool :=
  let d := s.cal.now
  (pl s (key 0x48 0x24)).getLsbD 0 &&
  [(0x20, d.sec), (0x21, d.min), (0x22, d.hour), (0x23, d.day)].all (fun (o, v) =>
    let b := pl s (key 0x48 o)
    b.msb || decide (b = bcd v))

/-- The calendar's domain runs: everywhere but SHIP. -/
def calendarOn (s : State) : Bool := vaonOn s

/-- CALENDAR_SECOND: an increment of SEC with its rollovers and the alarm; while the always-on domain is out of its window the
second passes uncounted, and counting goes on afterwards (R315, log entry 18). -/
def execCalendarSecond (s : State) : Host.Outcome State Fault Refusal :=
  .next (
    let s := disarm .calendarSecond s
    if s.glob.st = .ship then s
    else if !calendarOn s then armSecond (setCal (fun c => { c with t0 := s.clk.now, adj := 0, trimNext := 0 }) s)
    else
      let old := s.cal.now
      let e := secondEnd s
      let held := match s.cal.shift with | some n => if s.cal.shiftNext then n else 0 | none => 0
      let s := setCal (fun c => { c with now := nextSecond c.now, t0 := min e s.clk.now, adj := held + c.trimNext, trimNext := 0, shiftNext := false }) s
      let s := if s.glob.st = .sleep then { s with pwr := { s.pwr with slpsec := BitVec.ofNat 32 (satAdd 0xFFFFFFFF 1 s.pwr.slpsec.toNat) } } else s
      let s := raiseIf (centWrapped old s.cal.now) (16 * 52 + 6) (armSecond s)
      if alarmMatches s then raiseW (16 * 52) s else s)

/-- CALTRIM_STEP: every 2²⁰ cycles CALTRIM cycles are added (R319), to the next second where the present one has ended. -/
def execCaltrimStep (s : State) : Host.Outcome State Fault Refusal :=
  .next (
    let s := disarm .caltrimStep s
    if s.glob.st = .ship then s
    else if calendarOn s then
      (let n := (pl s (key 0x48 0x1B)).toInt
       let s := arm (sec 32) .caltrimStep s
       if secondEnd s ≤ s.clk.now then setCal (fun c => { c with trimNext := c.trimNext + n }) s else addCycles n s)
    else arm (sec 32) .caltrimStep s)

/-- The periodic wake's interval in half microseconds; none while it is stopped (R323). -/
def ptickLen (s : State) : Option Nat :=
  let c := pl s (key 0x48 0x28)
  let n := (pl s (key 0x48 0x29)).toNat
  if !c.getLsbD 2 ∨ n = 0 then none
  else
    let u := c.toNat % 4
    some (if u = 0 then n * 15625 / 2 else sec (n * (if u = 1 then 1 else if u = 2 then 60 else 3600)))

/-- The periodic counter starts again. -/
def restartPtick (s : State) : State :=
  match ptickLen s with
  | some t => arm t .ptick s
  | none => disarm .ptick s

/-- PTICK. -/
def execPtick (s : State) : Host.Outcome State Fault Refusal :=
  .next (
    let s := disarm .ptick s
    if s.glob.st = .ship ∨ (ptickLen s).isNone then s
    else if calendarOn s then raiseW (16 * 52 + 1) (restartPtick s) else restartPtick s)

/-- A write of PWCFG or PWCNT. -/
def pwcfgByte (cnt : Bool) (v : Byte) (s : State) : State := restartPtick (plainByte 0x48 (if cnt then 0x29 else 0x28) v s)

/-- PWCFG_WRITE. -/
def execPwcfgWrite (cnt : Bool) (v : Byte) (s : State) : Host.Outcome State Fault Refusal :=
  .next (onSleepPage 0x48 (pwcfgByte cnt v) s)

/-- XTALSTOP: no crystal edge for 2 ms; the calendar goes on with the RC oscillator (R320). -/
def execXtalstop (s : State) : Host.Outcome State Fault Refusal :=
  .next (if calendarOn s && !s.cal.lprc then
      raiseW (16 * 52 + 4) (setCal (fun c => { c with lprc := true }) { s with tst := { s.tst with xtal := false } })
    else s)

/-- XTALRUN: the crystal has run for 100 ms. -/
def execXtalrun (s : State) : Host.Outcome State Fault Refusal :=
  .next (if calendarOn s && (s.cal.lprc || !s.tst.xtal) then
      raise (16 * 52 + 5) (setCal (fun c => { c with lprc := false }) { s with tst := { s.tst with xtal := true } })
    else s)

/-- What is left of a negative shift under way, as cycles to take off the count (R324). -/
def holdLeft (s : State) : Int :=
  match s.cal.shift with
  | some n => if n < 0 then min 0 (n + ((s.clk.now - s.cal.shiftAt) * 256 / 15625 : Nat)) else 0
  | none => 0

/-- CALCTL.SET (R318): prescaler and SUBSEC clear; a shift under way goes on from there (log entry 18). -/
def calSetBit (s : State) : State :=
  match heldDate s with
  | some d => raise (16 * 52 + 3)
      (armSecond (setCal (fun c => { c with now := d, lost := false, seterr := false, t0 := s.clk.now, adj := holdLeft s, trimNext := 0, shiftNext := false }) s))
  | none => berrRsvenc (setCal (fun c => { c with seterr := true }) s)

/-- CALCTL_SET. -/
def execCalctlSet (s : State) : Host.Outcome State Fault Refusal := .next (onSleepPage 0x48 calSetBit s)

/-- A read of SUBSEC latches SEC to CENT (R316). -/
def subsecLatch (s : State) : State :=
  setCal (fun c => { c with latched := some c.now }) { s with bus := { s.bus with rdata := [subsec s] } }

/-- SUBSEC_READ. -/
def execSubsecRead (s : State) : Host.Outcome State Fault Refusal :=
  .next (if responder s then subsecLatch (ackAccess s) else onRead 0x48 subsecLatch s)

/-- RTC_SHIFT's own checks; a negative shift postpones the end of the second in which its hold begins (R324). -/
def rtcShiftBody (p : Packet) (s : State) : State :=
  match p.params with
  | [a, b] =>
    let n := (b ++ a : Word).toInt
    if s.cal.shift.isSome then reject 0x01 s
    else if n = -32768 then reject 0x02 s
    else if n = 0 then raise (16 * 52 + 2) (doneWith [] s)
    else
      let c := prescaler s
      let wait := (xt ((c / 128 + 1) * 128 - c : Nat)).toNat
      let last := decide (n < 0 ∧ c / 128 = 255)
      let at_ := if last then secondEnd s else s.clk.now + wait
      let s := slotBusy (setCal (fun x => { x with shift := some n, shiftAt := at_, shiftNext := last }) s)
      if 0 < n then arm wait .shiftdone s
      else
        let s := arm (at_ - s.clk.now + (xt (-n)).toNat) .shiftdone s
        if last then s else addCycles n s
  | _ => reject 0x01 s

/-- RTC_SHIFT. -/
def execRtcShift (p : Packet) (s : State) : Host.Outcome State Fault Refusal := .next (packet 0xC0 false p (rtcShiftBody p) s)

/-- SHIFTDONE: the shift is complete; a positive one is made now. -/
def execShiftdone (s : State) : Host.Outcome State Fault Refusal :=
  .next (
    let s := disarm .shiftdone s
    match s.cal.shift with
    | none => s
    | some n =>
      let s := setCal (fun c => { c with shift := none }) s
      let s := if 0 < n then addCycles n s else s
      let s := raise (16 * 52 + 2) s
      if slotHas s 0xC0 then doneWith [] s else s)

end Sys2Proof.Machine
end

