-- ==== Sys2Proof/Machine/Sequencer.lean ====
section
/-! DEFINITION. Events of the sequencer and the command bits beside it (06_sequencer.md, R141 to R165; R92's strike
count). -/

namespace Sys2Proof.Machine

/-- RAIL_ENABLE: the rail's on-delay has elapsed; it is enabled once its parents are power-good (R141, R144). -/
def execRailEnable (r : Rail) (s : State) : Host.Outcome State Fault Refusal :=
  .next (
    let s := disarm (.railEnable r) s
    if !has s.seq.wait r.val then s
    else
      let s := { s with seq := { s.seq with dly := s.seq.dly ||| bit r.val } }
      if anvilOn s && mayEnable s r.val then enableRail r.val s else s)

/-- RAIL_OFF_DELAY: the rail's off-delay, or its hold, has elapsed; it goes off once its dependants are down, in SAFE
with quench (R147, R206). -/
def execRailOffDelay (r : Rail) (s : State) : Host.Outcome State Fault Refusal :=
  .next (
    let s := disarm (.railOffDelay r) s
    if !has s.seq.offWait r.val then s
    else
      let s := { s with seq := { s.seq with offDly := s.seq.offDly ||| bit r.val } }
      if mayDrop s r.val then settle (switchOff (decide (s.glob.st = .safe) || quenchAttr (lv s) r.val) r.val s) else s)

/-- RAIL_DOWN: a rail that is off has met its condition of R148. -/
def execRailDown (r : Rail) (s : State) : Host.Outcome State Fault Refusal :=
  .next (
    let s := disarm (.railDown r) s
    if has s.rl.up r.val && !has s.rl.en r.val then settle (markDown r.val (outputDown r.val s)) else s)

/-- STOPTMO: a rail switched off without quench is not down STOPTMO later; it counts as down (R149). -/
def execStoptmo (r : Rail) (s : State) : Host.Outcome State Fault Refusal :=
  .next (
    let s := disarm (.stoptmo r) s
    if has s.rl.up r.val && !has s.rl.en r.val then settle (markDown r.val (raiseG r.val 6 s)) else s)

/-- MINOFF_END: after a STOP or a reset's boot the device decides (R151, R159); in SAFE an accepted exit may end
(R208). -/
def execMinoffEnd (s : State) : Host.Outcome State Fault Refusal :=
  .next (
    let s := disarm .minoffEnd s
    if !anvilOn s || s.glob.boot then s
    else if s.glob.st = .stop ∧ s.seq.phase ≠ 4 ∧ s.pwr.req = none then decideStart s
    else if s.glob.st = .start ∧ s.seq.phase = 0 then decideStart s
    else if s.glob.st = .safe ∧ s.safe.exit then startCheck { s with safe := { s.safe with waited := true } }
    else s)

/-- RETRY_SPACE_END: RXSPACE has passed; the retried rail and its dependants restart, but for those now held (R156,
R160). -/
def execRetrySpaceEnd (r : Rail) (s : State) : Host.Outcome State Fault Refusal :=
  .next (
    let s := disarm (.retrySpaceEnd r) s
    if !has s.seq.retryWait r.val then s
    else
      let set := (mget 0 s.seq.rset r.val ||| bit r.val) &&& ~~~s.seq.offhold &&& ~~~(dephold s) &&& ~~~s.rl.en
      restartSet set { s with seq := { s.seq with retryWait := s.seq.retryWait &&& ~~~(bit r.val)
                                                  rset := mput 0 s.seq.rset r.val 0 } })

/-- RETRY_COUNT_CLEAR: the rail has stayed power-good for 10 s without a retry or more (R157). -/
def execRetryCountClear (r : Rail) (s : State) : Host.Outcome State Fault Refusal :=
  .next (
    let s := disarm (.retryCountClear r) s
    if has s.rl.pg r.val then { s with seq := { s.seq with retries := mput 0 s.seq.retries r.val 0 } } else s)

/-- RESET_RELEASE: the gating rails have been power-good together for the stretch (R163); nRSTSYS released in START or
RUN arms the host watchdog (R212, R328). -/
def execResetRelease (x : Fin 5) (s : State) : Host.Outcome State Fault Refusal :=
  .next (
    let s := disarm (.resetRelease x) s
    if s.seq.rst.getLsbD x.val && s.seq.rstRun.getLsbD x.val then
      (let s := { s with seq := { s.seq with rst := setBit s.seq.rst x.val false, rstRun := setBit s.seq.rstRun x.val false } }
       if x.val = 4 ∧ (s.glob.st = .start ∨ s.glob.st = .run) then wdArm s else s)
    else s)

/-- EXTPGDLY: an EXT rail without enabled MON inputs is power-good (R164). -/
def execExtpgdly (n : Fin 7) (s : State) : Host.Outcome State Fault Refusal :=
  .next (
    let s := disarm (.extpgdly n) s
    let r := 25 + n.val
    if anvilOn s && has s.rl.en r && !has s.rl.pg r && (monsOf (lv s) n.val).isEmpty then becomePg r s else s)

/-- MPHCTL.STRKCLR: MPHSTRKN becomes 0 (R108). -/
def strkclrBit (c : Nat) (s : State) : State := { s with bk := { s.bk with strkn := mput 0 s.bk.strkn c 0 } }

/-- STRKCLR. -/
def execStrkclr (c : Chan) (s : State) : Host.Outcome State Fault Refusal :=
  .next (onPage (0x10 + c.val) (strkclrBit c.val) s)

/-- CNTSEL. -/
def cntsel (s : State) : Nat := rdBits (pl s) (key 0x23 0) 0 5

/-- CNTCTL.CLR: the counters of the selected rail (R169). -/
def cntClrBit (s : State) : State :=
  { s with seq := { s.seq with cnt := s.seq.cnt.filter (fun (k, _) => decide (k / 16 ≠ cntsel s)) } }
/-- CNTCTL.CLRALL. -/
def cntClrallBit (s : State) : State := { s with seq := { s.seq with cnt := [] } }

/-- CNTCTL_CLR. -/
def execCntctlClr (s : State) : Host.Outcome State Fault Refusal := .next (onPage 0x23 cntClrBit s)
/-- CNTCTL_CLRALL. -/
def execCntctlClrall (s : State) : Host.Outcome State Fault Refusal := .next (onPage 0x23 cntClrallBit s)

/-- MONCTL.CLR (R170). -/
def monClrBit (s : State) : State := { s with seq := { s.seq with monuvl := 0, monovl := 0 } }
/-- MONCTL_CLR. -/
def execMonctlClr (s : State) : Host.Outcome State Fault Refusal := .next (onPage 0x14 monClrBit s)

end Sys2Proof.Machine
end

