-- ==== Sys2Proof/Machine/Power.lean ====
section
/-! DEFINITION. Power states and wake (R325 to R335) and the commands that start and stop the sequence (R363). -/

namespace Sys2Proof.Machine

/-! Wake detectors (R329, R333). -/

/-- A detector's latch sets: in SHIP it wakes the device whatever its enable (R333, R386). -/
def detector (k src : Nat) (s : State) : State :=
  if s.glob.st = .ship then
    (if s.glob.supplied then bootStart (.wake true) { s with pwr := { s.pwr with wl := BitVec.twoPow 64 k, why := wakeWhy k } } else s)
  else raiseW src s

/-- WAKEPIN: WAKE has held its active level for 50 µs. -/
def execWakepin (s : State) : Host.Outcome State Fault Refusal := .next (detector 0 992 s)
/-- VINWAKE: an input rose above 6.0 V after at least 1 ms below 4.0 V. -/
def execVinwake (s : State) : Host.Outcome State Fault Refusal := .next (detector 1 993 s)
/-- PWRCTL.HOSTWAKE. -/
def hostwakeBit (s : State) : State := raiseW 994 s
/-- HOSTWAKE. -/
def execHostwake (s : State) : Host.Outcome State Fault Refusal := .next (onSleepPage 0x60 hostwakeBit s)

/-! SEQ_START, SEQ_STOP, RAIL_RETRY (R363). -/

/-- HELD clears; a STOP that had ended idle for it now waits out its MINOFF for a restart (R147, R325, R327). -/
def clearHeld (s : State) : State :=
  { s with pwr := { s.pwr with held := false }
           seq := { s.seq with phase := if s.glob.st = .stop ∧ s.seq.phase = 0 ∧ s.pwr.req = none ∧ waiting .minoffEnd s then 5
                                        else s.seq.phase } }

/-- SEQ_START. -/
def execSeqStart (p : Packet) (s : State) : Host.Outcome State Fault Refusal :=
  .next (packet 0x20 false p (fun s => if p.params ≠ [] then reject 0x01 s else startCheck (doneWith [] (clearHeld s))) s)

/-- There is a sequence to stop: START outside the boot, RUN, or STANDBY with a rail not down. -/
def canStop (s : State) : Bool :=
  !s.glob.boot && (decide (s.glob.st = .start) || decide (s.glob.st = .run) ||
    (decide (s.glob.st = .standby) && (!s.pwr.idle || decide (s.rl.en ||| s.rl.up ≠ 0))))

/-- SEQ_STOP: HELD; the common stop under COMPLETE. -/
def execSeqStop (p : Packet) (s : State) : Host.Outcome State Fault Refusal :=
  .next (packet 0x21 false p (fun s =>
    if p.params ≠ [] then reject 0x01 s
    else
      let s := doneWith [] { s with pwr := { s.pwr with held := true } }
      if canStop s then commonStop true s else s) s)

/-- The rails that RAIL_RETRY restarts (R158). -/
def retrySet (r : Nat) (s : State) : Mask :=
  bit r ||| maskOf (fun d => has (dependants (lv s) r) d && inseq (lv s) d && !has s.rl.en d && !has s.seq.offhold d &&
    decide (ancestors (lv s) d &&& s.seq.offhold = 0))

/-- RAIL_RETRY's own checks and effect (R157, R158). -/
def railRetryBody (p : Packet) (s : State) : State :=
  match p.params with
  | [b] =>
    let r := b.toNat
    if r ≥ 32 then reject 0x01 s
    else if s.glob.st ≠ .run ∧ s.glob.st ≠ .standby then reject 0x02 s
    else if !has s.seq.offhold r then reject 0x03 s
    else
      let s := { s with seq := { s.seq with offhold := s.seq.offhold &&& ~~~(bit r), retries := mput 0 s.seq.retries r 0 } }
      doneWith [] (restartSet (retrySet r s) s)
  | _ => reject 0x01 s

/-- RAIL_RETRY. -/
def execRailRetry (p : Packet) (s : State) : Host.Outcome State Fault Refusal := .next (packet 0x22 false p (railRetryBody p) s)

/-! STANDBY (R328). -/

/-- STANDBY_ENTER. -/
def execStandbyEnter (p : Packet) (s : State) : Host.Outcome State Fault Refusal :=
  .next (packet 0xB2 false p (fun s =>
    if p.params ≠ [] ∨ s.glob.st ≠ .run then reject 0x01 s
    else if wakeDue s then reject 0x02 s
    else enterState .standby (wdStop (doneWith [] { s with pwr := { s.pwr with fromRun := true, idle := false } }))) s)

/-- STANDBY_EXIT. -/
def execStandbyExit (p : Packet) (s : State) : Host.Outcome State Fault Refusal :=
  .next (packet 0xB3 false p (fun s =>
    if p.params ≠ [] ∨ s.glob.st ≠ .standby ∨ !s.pwr.fromRun then reject 0x01 s
    else wdArm (enterState .run (doneWith [] { s with pwr := { s.pwr with fromRun := false } }))) s)

/-! Sleep requests (R330 to R332). -/

/-- The writes before sleep are wanted: gauge bank, log, a held snapshot (step 4). -/
def sleepWrites (s : State) : State :=
  grant (closeAll { s with fl := { s.fl with wantGau := if s.gau.off then s.fl.wantGau else max 1 s.fl.wantGau
                                             wantLog := !s.fl.queue.isEmpty } })

/-- A sleep request is accepted: check 1, then the STOP if any rail is enabled (steps 1 and 2). -/
def startSleep (ship : Bool) (s : State) : State :=
  let s := disarm .idleslp { s with pwr := { s.pwr with req := some ⟨ship, false⟩ } }
  if wakeDue s then abortSleep s
  else if s.rl.en ≠ 0 then commonStop true s
  else sleepWrites { s with pwr := { s.pwr with req := some ⟨ship, true⟩ } }

/-- VSYS in mV: measurement 76 once a round has published it, before that what the logic supply's switch last saw (R18, R330). -/
def vsysNow (s : State) : Nat := if minval s 76 then s.glob.vsys else (mval s 76).toNat

/-- SLEEP_ENTER's and SHIP_ENTER's own checks. The ERR of parameters is not stated. -/
def sleepBody (ship : Bool) (p : Packet) (s : State) : State :=
  if p.params ≠ [] then rejectOpen s
  else if (s.glob.st ≠ .run ∧ s.glob.st ≠ .standby) ∨ s.pwr.req.isSome ∨ s.glob.floor then reject 0x01 s
  else if (lv s (key 0x44 0)).toNat / 2 % 4 = 0 ∨ vsysNow s < 3000 then reject 0x02 s
  else if !ship ∧ !anyWakeEn s then reject 0x03 s
  else startSleep ship (slotBusy s)

/-- SLEEP_ENTER. -/
def execSleepEnter (p : Packet) (s : State) : Host.Outcome State Fault Refusal := .next (packet 0xB0 false p (sleepBody false p) s)
/-- SHIP_ENTER. -/
def execShipEnter (p : Packet) (s : State) : Host.Outcome State Fault Refusal := .next (packet 0xB1 false p (sleepBody true p) s)

/-- IDLESLP: idle STANDBY has lasted IDLESLP with no path qualified (R327). -/
def execIdleslp (s : State) : Host.Outcome State Fault Refusal :=
  .next (
    let s := disarm .idleslp s
    if anvilOn s && decide (s.glob.st = .standby) && s.pwr.idle && s.pwr.req.isNone && !s.inp.a.qual && !s.inp.b.qual &&
       decide (pl s (key 0x60 1) ≠ 0) then startSleep false s else s)

/-- The core domain is isolated (step 6): drives off, islands unpowered; for SHIP the always-on domain stops too. The responder
takes HBCFG's fuse values (R335, R368). -/
def isolate (ship : Bool) (s : State) : State :=
  let s := if s.bus.level ≠ 0 then raiseG 56 9 { s with bus := { s.bus with level := 0 } } else s
  let s := enterState (if ship then .ship else .sleep) (pilotPassive s)
  let s := dropSlot (dropPower (putPlain (key 0x4C 0) (hBytes s.otp.shd 0x4C 1) s))
  let s := { s with glob := { s.glob with fwup := false }
                    inp := { s.inp with inloss := false, inlossuv := false }
                    chg := { s.chg with phase := 0, defaults := false }
                    plt := { s.plt with monCp := 0, monPp := 0, monSeen := false }
                    pwr := { s.pwr with req := none, idle := false, fromRun := false, lastslp := if ship then 3 else 1, slpsec := 0, why := 0 } }
  if ship then
    disarmAll alwaysOnTimer { s with cal := {}, pwr := { s.pwr with wl := 0, slpsec := 0xFFFFFFFF } }
  else s

/-- The writes before sleep are still under way (step 4): gauge bank, log, a held snapshot, where their stores can be written. -/
def sleepWriting (s : State) : Bool :=
  s.fl.slot.isSome || (decide (0 < s.fl.wantGau) && !s.fl.ro.getLsbD 5) || (s.fl.wantLog && !(s.fl.queue.isEmpty && s.fl.closes.isEmpty)) ||
    (s.safe.snapHeld && !s.fl.ro.getLsbD 3)

/-- SLEEP_PREP_DONE: the writes before sleep have finished; checks 3 and final. An abort after a STOP leaves the device in
STOP with MINOFF. -/
def execSleepPrepDone (s : State) : Host.Outcome State Fault Refusal :=
  .next (match s.pwr.req with
    | some ⟨ship, true⟩ =>
      if !anvilOn s || sleepWriting s then s
      else if wakeDue s then
        (let s := abortSleep s
         if s.glob.st = .stop then arm (minoff (lv s)) .minoffEnd { s with seq := { s.seq with phase := 5 } } else startCheck s)
      else isolate ship s
    | _ => s)

end Sys2Proof.Machine
end

