-- ==== Sys2Proof/Machine/Tick.lean ====
section
/-! DEFINITION. Time passes (log entry 1): what one step does on an empty queue. The clock advances by its quantum, or
less, up to the first armed event or angle crossing; the events that come due join the queue. -/

namespace Sys2Proof.Machine

/-- The angle of a commit that waits for one (R183). -/
def commitAngle (s : State) : Option Nat :=
  match s.txn.cur with
  | some c => if c.pending ∧ c.mode.toNat % 4 = 1 then some c.angle.toNat else none
  | none => none

/-- The smaller of a bound and a possible delay. -/
def minOpt (n : Nat) : Option Nat → Nat
  | none => n
  | some m => min n m

/-- States in which operating seconds count (R407). -/
def operating (s : State) : Bool :=
  s.glob.supplied && decide (s.glob.st ≠ .ship) && decide (s.glob.st ≠ .sleep)

/-- An operating hour (R226). -/
def hourLen : Nat := sec 3600

/-- How far the clock goes in one idle step. -/
def advance (s : State) : Nat :=
  let q := max 1 s.clk.quantum
  let q := s.clk.timers.foldl (fun n t => min n (t.due - s.clk.now)) q
  let q := s.cyc.acts.foldl (fun n t => min n (t.due - s.clk.now)) q
  let q := if operating s then min q (hourLen - s.clk.op % hourLen) else q
  if !anvilOn s then q
  else
    let u := untilPhase s.cyc.phase s.cyc.rate
    let q := minOpt q (u cycleUnits)
    let q := (actBank s).foldl (fun n (_, e) => minOpt n (u (angleStart (entByte e 0)))) q
    match commitAngle s with
    | some a => minOpt q (u (angleStart a))
    | none => q

/-- The action of a schedule entry as a command (R44). -/
def entryEvent (e : BitVec 32) : Option Instr :=
  let a := entByte e 3
  match entAction e with
  | 1 => some (.conv (Fin.ofNat 32 a))
  | 2 => some (.quiet (BitVec.ofNat 8 a))
  | 3 => some .commit
  | 4 => some (.phase (Fin.ofNat 5 a) none)
  | 5 => some .swap
  | 6 => some .logflush
  | 7 => some .dither
  | _ => none

/-- Entries that `p` picks by their angle, in ascending index, as actions whose fine delay starts now (R43). -/
def startActs (s : State) (p : Nat → Bool) : List Act :=
  (actBank s).filterMap (fun (i, e) =>
    if p (entByte e 0) then (entryEvent e).map (fun ev => { due := s.clk.now + entByte e 1, idx := i, ev := ev }) else none)

/-- Entries whose angle starts between two positions of one cycle. -/
def entriesBetween (s : State) (p0 p1 : Nat) : List Act :=
  startActs s (fun a => decide (p0 < angleStart a ∧ angleStart a ≤ p1))

/-- Insert an action in the order of action times, and of indices where they share one (R43). -/
def insertAct (t : Act) : List Act → List Act
  | [] => [t]
  | u :: l => if t.due < u.due ∨ t.due = u.due ∧ t.idx < u.idx then t :: u :: l else u :: insertAct t l

/-- The actions due by now, in order. -/
def dueActs (s : State) : List Act :=
  (s.cyc.acts.filter (fun t => decide (t.due ≤ s.clk.now))).foldl (fun l t => insertAct t l) []

/-- Insert a timer in order of its due time, after those due at the same time. -/
def insertDue (t : Timer) : List Timer → List Timer
  | [] => [t]
  | u :: l => if t.due < u.due then t :: u :: l else u :: insertDue t l

/-- The events due by now, in the order of their due times. -/
def dueEvents (s : State) : List Instr :=
  ((s.clk.timers.filter (fun t => decide (t.due ≤ s.clk.now))).foldl (fun l t => insertDue t l) []).map (·.ev)

/-- The angle moves on by `d` half microseconds (R37): entry angles start their actions; the passage from 255 to 0 ends
the cycle of every action that still waits (R43). -/
def moveAngle (d : Nat) (s : State) : State :=
  if !anvilOn s then s
  else
    let p1 := s.cyc.phase + d * s.cyc.rate
    let acts := s.cyc.acts ++ entriesBetween s s.cyc.phase p1
    { s with cyc := { s.cyc with phase := p1 % cycleUnits,
                                 acts := if p1 ≥ cycleUnits then acts.map (fun t => { t with old := true }) else acts } }

/-- The angle passes from 255 to 0 within `d`. -/
def wraps (d : Nat) (s : State) : Bool := anvilOn s && decide (s.cyc.phase + d * s.cyc.rate ≥ cycleUnits)

/-- The angle of a pending commit starts within `d` (R183). -/
def commitHit (d : Nat) (s : State) : Bool :=
  anvilOn s && (match commitAngle s with
    | some a => decide (s.cyc.phase < angleStart a ∧ angleStart a ≤ s.cyc.phase + d * s.cyc.rate)
    | none => false)

/-- The actions that have come due leave the list; QUIET actions of an ended cycle are noted by their action time. -/
def dropActs (s : State) : State :=
  { s with cyc := { s.cyc with acts := s.cyc.acts.filter (fun t => decide (s.clk.now < t.due)) }
           qt := { s.qt with spill := s.qt.spill ++
                    (s.cyc.acts.filter (fun t => t.old && isQuiet t.ev && decide (t.due ≤ s.clk.now))).map (·.due) } }

/-- One idle step: time passes. At one moment armed events come first, then the end of the cycle, then schedule actions
by index, and the apply moment of a commit last, so that what happens at it happens before (R192). At an angle 0 the actions
wait for the next step at the same moment, so that those of the cycle that ends and those of the one that begins run in one
ascending order (R43). -/
def tick (s : State) : State :=
  let d := advance s
  let hour := operating s && decide (s.clk.op / hourLen ≠ (s.clk.op + d) / hourLen)
  let wrap := wraps d s
  let hit := commitHit d s
  let s := { s with clk := { s.clk with now := s.clk.now + d, op := if operating s then s.clk.op + d else s.clk.op } }
  let s := moveAngle d s
  let s := { s with
    pending := s.pending ++ dueEvents s ++ (if wrap then [.cycleEnd] else (dueActs s).map (·.ev)) ++
      (if hit then [.commitApply] else []) ++ (if hour then [.operatingHour] else [])
    clk := { s.clk with timers := s.clk.timers.filter (fun t => decide (s.clk.now < t.due)) } }
  if wrap then s else dropActs s

end Sys2Proof.Machine
end

