-- ==== Sys2Proof/Machine/Flash.lean ====
section
/-! DEFINITION. The flash store, the scrub and the event log's commands (15_nvm_log.md, R389 to R417; LOGFLUSH of R410). -/

namespace Sys2Proof.Machine

/-! The scrub (R404, R405). -/

/-- Half microseconds from one step to the next: the chip band's days over 512 steps. -/
def scrubStep (s : State) : Nat :=
  let d := if s.thm.chip ≤ 1 then 365 else if s.thm.chip = 2 then 180 else if s.thm.chip = 3 then 90
           else if s.thm.chip = 4 then 14 else 2
  d * 337500000

/-- The step has ended: the next one falls due by the band in force. -/
def scrubEnd (n : Nat) (s : State) : State :=
  arm (scrubStep s) .scrubDue (disarm .scrublate
    { s with fl := { s.fl with scrubDue := false, late := false, scrubIdx := (n + 1) % 512 } })

/-- A margin read has ended; a sector that fails it is queued for refresh and reported by ASSAYFLASH (R398, R404). -/
def scrubbed (n : Nat) (ok : Bool) (s : State) : State :=
  let s := scrubEnd n s
  if ok then s else raiseG 60 8 (queueRefresh n s)

/-- Step 1 of a refresh has ended: the buffer holds the sector's data under its logical number (R405). -/
def bufferWritten (n : Nat) (ok : Bool) (s : State) : State :=
  let b := 508 + s.fl.turn.toNat
  let l := logical s n
  let (got, s) := land b ok (some (sector s n).data) s
  if !got then s
  else
    let p := physical s b
    setSector p { sector s p with held := some l, heldCrc := true, heldMark := true } s

/-- Steps 2 and 3 have ended: the sector is erased and programmed from the buffer, which is consumed (R405). -/
def refreshed (n : Nat) (ok : Bool) (s : State) : State :=
  let l := logical s n
  match bufferOf s l with
  | none => s
  | some b =>
    let c := (sector s (physical s b)).data
    let s := dropRefresh n { s with fl := { s.fl with turn := decide (b = 508) } }
    let (got, s) := land l ok (if (sector s n).blank then none else some c) s
    if got then raiseG 53 13 (marginSettle { s with fl := { s.fl with refrcnt := satAdd 0xFFFF 1 s.fl.refrcnt } }) else s

/-! What each slot writes. -/

/-- A bank's first sector is written: its frame, or where nothing could be written, be it that the partition is read-only, the
former bank is in force (R398, R399). -/
def landBank (n len : Nat) (ok : Bool) (s : State) : Bool × State :=
  if readOnly n s then (false, s) else land n ok (some (frameOf (bankKind n) len)) s

/-- The snapshot bank takes the held capture (R228, R400, R414). -/
def snapWritten (ok : Bool) (s : State) : State :=
  let second := snapSecond s
  let n := snapSeq s + 1
  let (got, s) := landBank (200 + second.toNat) 256 ok s
  if !got then s
  else
    let b := some ⟨n, s.safe.cap⟩
    let s := { s with safe := if second then { s.safe with bank1 := b, snapHeld := false, snapMiss := 0 }
                              else { s.safe with bank0 := b, snapHeld := false, snapMiss := 0 } }
    raiseG 59 10 (logOther 4 0x3FF (BitVec.ofNat 32 n) s)

/-- The configuration save ends (R402). -/
def cfgWritten (ok : Bool) (s : State) : State :=
  match s.fl.capture with
  | none => s
  | some c =>
    let second := cfgSecond s
    let c := { c with seq := nextSeq (s.fl.cfgA.map CfgImg.seq) (s.fl.cfgB.map CfgImg.seq) }
    let (got, s) := landBank (192 + 4 * second.toNat) (Config.bankLen 1) ok { s with fl := { s.fl with capture := none } }
    if !got then raiseG 53 1 { s with fl := { s.fl with cfgSt := 3 } }
    else
      let s := { s with upd := { s.upd with cfgNew := if s.upd.cfgNew = 1 + second.toNat then 3 else s.upd.cfgNew } }
      raiseG 53 0 { s with fl := if second then { s.fl with cfgB := some c, cfgSt := 2 } else { s.fl with cfgA := some c, cfgSt := 2 } }

/-- The Patina bank (R226, R400). -/
def patWritten (ok : Bool) (s : State) : State :=
  let second := patSecond s
  let s := { s with fl := { s.fl with wantPat := false } }
  let (got, s) := landBank (202 + second.toNat) (Config.bankLen 3) ok s
  if !got then s
  else
    let b : PatBank := ⟨nextSeq (s.pat.bankA.map PatBank.seq) (s.pat.bankB.map PatBank.seq), s.pat.res, opSec s, s.clk.cycles,
      s.fl.sec.filterMap (fun (k, x) => x.count.bind (fun c => if c = 0 then none else some (k, c))),
      s.bk.ph.filterMap (fun (r, q) => if roleOnly q = {} then none else some (r, roleOnly q)),
      s.bk.ldo.filterMap (fun (c, l) => if roleOnlyLdo l = {} then none else some (c, roleOnlyLdo l))⟩
    { s with pat := if second then { s.pat with bankB := some b } else { s.pat with bankA := some b } }

/-- The gauge bank (R307, R310). -/
def gaugeWritten (ok : Bool) (s : State) : State :=
  let second := gauSecond s
  let s := { s with fl := { s.fl with wantGau := s.fl.wantGau - 1 } }
  let (got, s) := landBank (204 + second.toNat) (Config.bankLen 4) ok s
  if !got then s
  else
    let b := gaugeImage (nextSeq (s.gau.bankA.map GauBank.seq) (s.gau.bankB.map GauBank.seq)) s
    { s with gau := if second then { s.gau with bankB := some b } else { s.gau with bankA := some b } }

/-- How many entries a slot takes: up to 32 (R403), and not beyond the end of a log sector where the next is half-erased. -/
def logBatch (s : State) : Nat :=
  let n := s.fl.log.length
  if logHalf s (n / 256 + 1) then min 32 (256 - n % 256) else 32

/-- Queued records are written with their close bytes (R403, R410), during LOG_ERASE the close bytes alone (R413); LOG_FLUSH is done
once the queue is empty. A failed verify retires the log sector. -/
def logWritten (ok : Bool) (s : State) : State :=
  let m := s.fl.log.length
  let n := m / 256
  let s := if ok then s else
    (takeSpare (208 + n) (physical s (208 + n)) (some {}) (raiseG 53 15 s)).2
  if s.fl.erasing.isSome then programCloses s else
  let s := markLogFrom m (programCloses (writeQueue (logBatch s) s))
  if !s.fl.queue.isEmpty then s
  else
    let s := { s with fl := { s.fl with wantLog := false, flush := false } }
    if slotHas s 0x42 then slotEnd 3 0 [] s else s

/-- The log is empty: the ERASED record, and recording goes on (R413). -/
def logCleared (cnt : Nat) (s : State) : State :=
  let r : LogRec := { kind := 8, src := 0x3FF, sec := opSec s, cyc := s.clk.cycles, rep := 0, ok := true, t := s.clk.now,
                      data := BitVec.ofNat 32 (cnt + 65536 * min 0xFFFF s.fl.drop) }
  let s := markLog 0 { s with fl := { s.fl with log := [r], bad := 0, erasing := none } }
  let s := raiseG 53 7 s
  if slotHas s 0x41 then slotEnd 3 0 [] { s with bus := { s.bus with prog := 100 } } else s

/-- Log sector n has been erased. -/
def logErased (n : Nat) (ok : Bool) (s : State) : State :=
  let (got, s) := land (208 + n) ok none s
  match s.fl.erasing with
  | none => s
  | some (_, cnt, d) =>
    if !got then
      (let s := { s with fl := { s.fl with erasing := none } }
       if slotHas s 0x41 then slotError 0x02 s else s)
    else
      let s := { s with fl := { s.fl with log := s.fl.log.take (256 * n), erasing := some (n, cnt, d) } }
      let s := if slotHas s 0x41 then { s with bus := { s.bus with prog := BitVec.ofNat 8 (100 * (128 - n) / 128) } } else s
      if n = 0 then logCleared cnt s else s

/-- The repeat erase of a half-erased log sector (R394). -/
def logPrepared (n : Nat) (ok : Bool) (s : State) : State := (land (208 + n) ok none s).2

/-- The session's sector n has been programmed with `b`, unless it could not be: then the session ends (R439). -/
def updLand (n : Nat) (ok : Bool) (b : List Byte) (done : State → State) (s : State) : State :=
  let (got, s) := land n ok (some { bytes := some b }) s
  if got then done s else updError 0x16 s

/-- A slot of a cancelled session ends. Output sector 0 brings its header and clears the previous slot's confirmed mark (R448);
a sector that could not be written is nowhere. -/
def cutWritten (sl : Slot) (n : Nat) (ok : Bool) (b : List Byte) (s : State) : State :=
  let (got, s) := land n ok (some { bytes := some b }) { s with upd := { s.upd with cutOut := none } }
  if sl = .upd 0 then setInactive (if got then headerOf b else none) (wantJournal { s with upd := { s.upd with prevOk := false } })
  else s

/-- Output sector k of the inactive slot (R438, R439); Anvil's verified flag of that slot goes (R445). -/
def updWritten (k : Nat) (ok : Bool) (s : State) : State :=
  let s := { s with upd := if s.upd.bootedB then { s.upd with verA := false } else { s.upd with verB := false } }
  let n := (if s.upd.bootedB then 0 else 96) + k
  match s.upd.cutOut, s.upd.man with
  | some b, _ => cutWritten (.upd k) n ok b s
  | none, some m => updLand n ok (outSector m s) (sectorDone k) s
  | none, none => s

/-- The manifest in sector 400 (R435); the journal follows. -/
def manifestWritten (ok : Bool) (s : State) : State :=
  match s.upd.cutOut, s.upd.man with
  | some b, _ => cutWritten .updMan 400 ok b s
  | none, some m => updLand 400 ok m.bytes (fun s => updPump (wantJournal s)) s
  | none, none => s

/-- The configuration part in sector 401 (R435). -/
def updCfgWritten (ok : Bool) (s : State) : State :=
  match s.upd.cutOut, s.upd.man with
  | some b, _ => cutWritten .updCfg 401 ok b s
  | none, some m => updLand 401 ok (s.upd.buf.take m.cfgLen) cfgPartDone s
  | none, none => s

/-- The update journal (R440); one that cannot be written ends the command that waits for it. -/
def journalWritten (ok : Bool) (s : State) : State :=
  let (got, s) := landBank (206 + (jrnSecond s.upd).toNat) 44 ok s
  if got then journalDone s else journalLost s

/-- What a completed slot leaves. -/
def slotDone (sl : Slot) (ok : Bool) (s : State) : State :=
  match sl with
  | .snap => snapWritten ok s
  | .cfg => cfgWritten ok s
  | .scrub n => scrubbed n ok s
  | .refreshBuf n => bufferWritten n ok s
  | .refresh n => refreshed n ok s
  | .pat => patWritten ok s
  | .gauge => gaugeWritten ok s
  | .log => logWritten ok s
  | .logErase n => logErased n ok s
  | .logPrep n => logPrepared n ok s
  | .upd n => updWritten n ok s
  | .journal => journalWritten ok s
  | .updMan => manifestWritten ok s
  | .updCfg => updCfgWritten ok s

/-- FLASH_SLOT_DONE: the slot in progress completes, `ok` its verify or margin read; the next is granted (R403). -/
def execFlashSlotDone (ok : Bool) (s : State) : Host.Outcome State Fault Refusal :=
  .next (match s.fl.slot with
    | some sl => if fwOn s then grant (journalShut (slotDone sl ok { s with fl := { s.fl with slot := none } })) else s
    | none => s)

/-! The configuration save (R401, R402). -/

/-- Plain register bytes that a save captures. -/
def savedPlain (k : Nat) : Bool :=
  let p := keyPage k
  let o := keyOff k
  decide (p = 0x01 ∧ o ≤ 0x0C) || decide (p = 0x38) || (decide (p = 0x3B) && decide (k ≥ 65536)) || decide (p = 0x45 ∧ o ≤ 0x0B) ||
  decide (p = 0x4C) || decide (p = 0x4D) || decide (p = 0x56 ∧ (o = 0 ∨ o = 2 ∨ (4 ≤ o ∧ o ≤ 7) ∨ (0x30 ≤ o ∧ o ≤ 0x37))) ||
  decide (p = 0x32 ∧ 0x10 ≤ o ∧ o ≤ 0x1A) || decide (p = 0x58 ∧ (o = 0x0C ∨ (0x20 ≤ o ∧ o ≤ 0x27))) ||
  decide (p = 0x48 ∧ (o = 0x1B ∨ o = 0x1C))

/-- The capture, between two apply steps; its sequence number is given when it is written. -/
def captureCfg (s : State) : CfgImg :=
  { seq := 0, staged := s.regs.live, plain := s.regs.plain.filter (fun (k, _) => savedPlain k), sched := actBank s,
    mask := s.irq.mask, route := s.irq.route, txnappl := s.txn.appl }

/-- FLCTL.CFGSAVE. -/
def cfgsaveBit (s : State) : State :=
  if s.fl.cfgSt = 1 then berrRorsv s
  else if s.fl.ro.getLsbD 2 then raiseG 53 1 { s with fl := { s.fl with cfgSt := 3 } }
  else grant { s with fl := { s.fl with capture := some (captureCfg s), cfgSt := 1 } }

/-- CFGSAVE. -/
def execCfgsave (s : State) : Host.Outcome State Fault Refusal := .next (onPage 0x58 cfgsaveBit s)

/-! The scrub's due times (R404). -/

/-- SCRUB_DUE. -/
def execScrubDue (s : State) : Host.Outcome State Fault Refusal :=
  .next (
    let s := disarm .scrubDue s
    if s.fl.scrubDue ∨ !s.glob.supplied ∨ s.glob.st = .ship then s
    else grant (arm (sec 3600 + 1) .scrublate { s with fl := { s.fl with scrubDue := true, late := false, scrubSince := s.clk.now } }))

/-- SCRUBLATE. -/
def execScrublate (s : State) : Host.Outcome State Fault Refusal := .next (scrubLateCheck (disarm .scrublate s))

/-! The log's events and commands (R409, R410, R413). -/

/-- Queued records are wanted in flash. -/
def wantLogNow (s : State) : State := if s.fl.queue.isEmpty then s else grant { s with fl := { s.fl with wantLog := true } }

/-- LOGFLUSH: an entry of the active schedule (R410). -/
def execLogflush (s : State) : Host.Outcome State Fault Refusal :=
  .next (if fwRuns s then wantLogNow s else s)

/-- LOG_TIMER: every 1 s while the active schedule holds no LOGFLUSH entry. -/
def execLogTimer (s : State) : Host.Outcome State Fault Refusal :=
  .next (
    let s := disarm .logTimer s
    if fwOn s then (let s := arm (sec 1) .logTimer s; if hasAction s 6 then s else wantLogNow s) else s)

/-- LOG_RECORD_CLOSE: LOGREP has passed since the record's last raise. -/
def execLogRecordClose (src : Fin 1024) (s : State) : Host.Outcome State Fault Refusal :=
  .next (
    let s := disarm (.logRecordClose src) s
    match s.fl.opens.find? (fun o => decide (o.src = src.val)) with
    | some o => if fwOn s then grant (closeOpen o s) else s
    | none => s)

/-- The records in order, those still queued as they will be written. -/
def allRecs (s : State) : List LogRec := (programCloses (writeQueue 130 s)).fl.log

/-- The sixteen bytes at position i: a record, or 0xFF. -/
def readRec (l : List LogRec) (i : Nat) : List Byte :=
  if i > 32767 then List.replicate 16 0xFF
  else match l[i]? with
    | some r => recBytes r
    | none => List.replicate 16 0xFF

/-- LOG_READ's own checks and results. -/
def logReadBody (p : Packet) (s : State) : State :=
  match p.params with
  | [a, b, n] =>
    let first := leNat [a, b]
    if n = 0 ∨ n.toNat > 32 ∨ first > 32767 then reject 0x01 s
    else slotBusy { s with bus := { s.bus with prog := 0 }, fl := { s.fl with reading := some (first, n.toNat, 0) } }
  | _ => reject 0x01 s

/-- LOG_READ produces its next record, one in each idle step (DESIGN CHOICE, log entry 35); done with the last (R355, R413). -/
def readStep (s : State) : State :=
  match s.fl.reading with
  | some (first, n, k) =>
    if !fwOn s then s
    else if !slotHas s 0x40 then { s with fl := { s.fl with reading := none } }
    else
      let out := s.bus.cres ++ readRec (allRecs s) (first + k)
      let s := { s with bus := { s.bus with prog := BitVec.ofNat 8 (100 * (k + 1) / n), cres := out } }
      if n ≤ k + 1 then doneWith out { s with fl := { s.fl with reading := none } }
      else { s with fl := { s.fl with reading := some (first, n, k + 1) } }
  | none => s

/-- What an idle step does (log entries 1 and 35): time passes, and LOG_READ under way goes on. -/
def idle (s : State) : State := readStep (tick s)

/-- LOG_READ. -/
def execLogRead (p : Packet) (s : State) : Host.Outcome State Fault Refusal := .next (packet 0x40 false p (logReadBody p) s)

/-- LOG_ERASE's own checks; open records close, LOGDROP clears, and log sectors 127 down to 0 are erased in log slots. -/
def logEraseBody (p : Packet) (s : State) : State :=
  if p.params ≠ [] then reject 0x01 s
  else if s.fl.ro.getLsbD 7 then reject 0x02 s
  else if s.glob.st ≠ .run ∧ s.glob.st ≠ .standby then reject 0x03 s
  else
    let s := closeAll (slotBusy { s with bus := { s.bus with prog := 0 } })
    grant { s with fl := { s.fl with drop := 0, erasing := some (128, s.fl.log.length, 0) } }

/-- LOG_ERASE. -/
def execLogErase (p : Packet) (s : State) : Host.Outcome State Fault Refusal := .next (packet 0x41 true p (logEraseBody p) s)

/-- LOG_FLUSH's own checks: done at once where nothing is queued. -/
def logFlushBody (p : Packet) (s : State) : State :=
  if p.params ≠ [] then reject 0x01 s
  else
    let s := closeAll s
    if s.fl.queue.isEmpty && s.fl.closes.isEmpty then doneWith [] s
    else grant (slotBusy { s with fl := { s.fl with flush := true } })

/-- LOG_FLUSH. -/
def execLogFlush (p : Packet) (s : State) : Host.Outcome State Fault Refusal := .next (packet 0x42 false p (logFlushBody p) s)

end Sys2Proof.Machine
end

