-- ==== Sys2Proof/Machine/Thermal.lean ====
section
/-! DEFINITION. The thermal manager (R252 to R257): bands, warnings, throttles and reduction factors, run at each round
end. Temperatures are in 1/16 °C. -/

namespace Sys2Proof.Machine

/-- Write the thermal manager. -/
def setThm (f : Thm → Thm) (s : State) : State := { s with thm := f s.thm }
/-- The TD sensors that have a valid value. -/
def validTds (s : State) : List Nat := (List.range 16).filter (fun n => !minval s (88 + n))

/-- TJ: the highest valid TD value; the last one held where there is none. -/
def tjNow (s : State) : Int :=
  match validTds s with
  | [] => s.thm.tj.toInt
  | n :: l => l.foldl (fun a k => max a (td s k)) (td s n)

/-! Bands (R253). -/

/-- Lower edges of B1 to B5. -/
def bandEdges : List Int := [-320, 0, 720, 1360, 2000]
/-- The band whose lower edge the temperature has reached. -/
def rawBand (t : Int) : Nat := (bandEdges.filter (fun e => decide (e ≤ t))).length
/-- The band that the temperature still keeps, 2 °C below the edges. -/
def keptBand (t : Int) : Nat := (bandEdges.filter (fun e => decide (e - 32 ≤ t))).length
/-- The next band; the first computation since reset has no band to keep. -/
def nextBand (first : Bool) (old : Nat) (t : Int) : Nat :=
  if first then rawBand t else max (rawBand t) (min old (keptBand t))

/-- The bands; a channel's bucks take its band (R113). Without TJ every band is B5. -/
def updateBands (first : Bool) (s : State) : State :=
  let none := s.hk.tjNone
  let chip := if none then 5 else nextBand first s.thm.chip (tjNow s)
  let ch := (List.range 4).foldl (fun m c => mput 5 m c (if none then 5 else nextBand first (mget 5 s.thm.chan c) (tcOf s c))) s.thm.chan
  let tj := word16 (tjNow s)
  { setThm (fun t => { t with chip := chip, chan := ch, tj := tj }) s with bk := { s.bk with band := ch } }

/-! Warnings and limits (R254, R103). -/

/-- A level with 2 °C hysteresis: the next state. -/
def levelNext (on : Bool) (level : Int) (t : Int) : Bool := decide (level ≤ t) || (on && decide (level - 32 ≤ t))

/-- WARN and LIMIT of a sensor: number, measurement, levels. -/
def sensorWarn (i m warn limit : Nat) (s : State) : State :=
  if minval s m then s
  else
    let x : Sensor := mget {} s.hk.sen i
    let w := levelNext x.warn (16 * warn) (mtemp s m)
    let l := levelNext x.limit (16 * limit) (mtemp s m)
    let s := { s with hk := { s.hk with sen := mput {} s.hk.sen i { x with warn := w, limit := l } } }
    let src := 16 * (32 + i / 4) + 4 * (i % 4)
    raiseIf (l && !x.limit) (src + 1) (raiseIf (w && !x.warn) src s)

/-- Every sensor's warnings. -/
def sensorWarnings (s : State) : State :=
  let s := (List.range 16).foldl (fun s i => sensorWarn i (88 + i) (thByte s 0) (thByte s 1) s) s
  (List.range 6).foldl (fun s n => if txEn s n then sensorWarn (16 + n) (82 + n) (thByte s (0x20 + n)) (thByte s (0x28 + n)) s else s) s

/-- The rail's warning holds: at or above TW, and until 2 °C below it (R254); an MPH rail's above MPHTW, and until it has
fallen to 2 °C below (R103). -/
def warnNext (s : State) (r : Nat) : Bool :=
  let on := has s.rl.thw r
  let w : Int := 16 * twOf s r
  if rk r = .mph then decide (w < trOf s r) || (on && decide (w - 32 < trOf s r)) else levelNext on w (trOf s r)

/-- THWARN of a rail. -/
def railWarn (r : Nat) (s : State) : State :=
  let on := has s.rl.thw r
  let w := warnNext s r
  let s := { s with rl := { s.rl with thw := if w then s.rl.thw ||| bit r else s.rl.thw &&& ~~~(bit r) } }
  raiseIf (w && !on) (16 * r + 9) s

/-- A rail other than an MPH rail is at its limit, with the 2 °C of R254. -/
def limitNext (s : State) (r : Nat) : Bool :=
  decide (rk r ≠ .mph) && levelNext (has s.rl.thl r) (16 * thByte s 1) (trOf s r)

/-- THLIM of the rails other than MPH rails; their reactions act by rank (R160). -/
def railLimits (s : State) : State :=
  let now := maskOf (fun r => decide (r < 25) && limitNext s r)
  let mph := maskOf (fun r => decide (rk r = .mph))
  let new := now &&& ~~~s.rl.thl
  let s := { s with rl := { s.rl with thl := (s.rl.thl &&& mph) ||| now } }
  let on := s.rl.en
  reactAll ((rails new).map (fun r => ⟨r, 5, 16 * r + 10, has on r, false⟩)) ((rails new).foldl (fun s r => raise (16 * r + 10) s) s)

/-- Rails 0 to 24: warnings, then limits. -/
def railWarnings (s : State) : State := railLimits ((List.range 25).foldl (fun s r => railWarn r s) s)

/-! The rail-level throttle (R256). -/

/-- DMIN and THRSTEP in percent. -/
def dmin (s : State) : Nat := 5 * (thByte s 6 % 32)
/-- THRSTEP in percent. -/
def thrstep (s : State) : Nat := 5 * (thByte s 8 % 16)
/-- THRTEN bit of a rail. -/
def thrten (s : State) (r : Nat) : Bool := decide (rdNat (lv s) (key 0x3C 0x10) 4 / 2 ^ r % 2 = 1)
/-- Drail. -/
def drail (s : State) (r : Nat) : Nat := mget 100 s.thm.drail r
/-- TR is more than 2 °C below TW. -/
def belowTw (s : State) (r : Nat) : Bool := decide (trOf s r < 16 * twOf s r - 32)

/-- The grace of a rail ends: enforcement, where the rail is still warm and its THRTEN bit is 1. -/
def graceEnd (r : Nat) (s : State) : State :=
  let b := bit r
  let s := setThm (fun t => { t with grace := t.grace &&& ~~~b }) s
  if belowTw s r then setThm (fun t => { t with req := t.req &&& ~~~b }) s
  else if thrten s r then
    setThm (fun t => { t with enf := t.enf ||| b, drail := mput 100 t.drail r (max (dmin s) (100 - thrstep s)) }) s
  else s

/-- One rail's stage at a round end. A grace whose end fell into a firmware-island restart ends now (R16). -/
def throttle (r : Nat) (s : State) : State :=
  let b := bit r
  let e : Instr := .throttleGraceEnd (Fin.ofNat 32 r)
  if !has s.thm.req r then
    (if 16 * (twOf s r : Int) ≤ trOf s r then
       arm (ms (100 * thByte s 7)) e (setThm (fun t => { t with req := t.req ||| b, grace := t.grace ||| b }) s)
     else s)
  else if has s.thm.enf r then
    (if belowTw s r then
       (let d := min 100 (drail s r + thrstep s)
        let done := if d = 100 then ~~~b else -1
        setThm (fun t => { t with drail := mput 100 t.drail r d, req := t.req &&& done, enf := t.enf &&& done }) s)
     else setThm (fun t => { t with drail := mput 100 t.drail r (max (dmin s) (drail s r - thrstep s)) }) s)
  else if belowTw s r then disarm e (setThm (fun t => { t with req := t.req &&& ~~~b, grace := t.grace &&& ~~~b }) s)
  else if has s.thm.grace r && !waiting e s then graceEnd r s
  else s

/-- THROTTLE_GRACE_END. -/
def execThrottleGraceEnd (r : Rail) (s : State) : Host.Outcome State Fault Refusal :=
  .next (
    let s := disarm (.throttleGraceEnd r) s
    if !fwOn s || !has s.thm.grace r.val then s else graceEnd r.val s)

/-! Factors (R255, R257). -/

/-- A target factor in percent: 1 − KP × excess, between DMIN and 1; KP in 2.5 %/°C. -/
def dTarget (s : State) (kp : Nat) (t level : Int) : Nat :=
  clampTo (dmin s) 100 (((3200 - (t - 16 * level) * kp * 5) / 32).toNat)

/-- At most 10 percentage points toward the target. -/
def toward (old target : Nat) : Nat := if old ≤ target then min target (old + 10) else max target (old - 10)

/-- Dchip and Dchan. -/
def updateFactors (s : State) : State :=
  if s.hk.tjNone then
    setThm (fun t => { t with dchip := dmin s, dchan := (List.range 4).foldl (fun m c => mput 100 m c (dmin s)) t.dchan }) s
  else
    let chip := toward s.thm.dchip (dTarget s (thByte s 3 % 16) (tjNow s) (thByte s 2))
    let chan := (List.range 4).foldl (fun m c =>
      let target := if thByte s 4 = 0 then 100 else dTarget s (thByte s 5 % 16) (tcOf s c) (thByte s 4)
      mput 100 m c (toward (mget 100 s.thm.dchan c) target)) s.thm.dchan
    setThm (fun t => { t with dchip := chip, dchan := chan }) s

/-- F of a rail (R255). -/
def factor (s : State) (r : Nat) : Nat :=
  match rk r with
  | .pre => drail s r
  | .mph => drail s r
  | .gb => 100
  | .ext => 100
  | _ => min (drail s r) (min (mget 100 s.thm.dchan (ci r)) s.thm.dchip)

/-- A rail's F and IBASE after a round; IBASE is never less than a tenth of the live limit (R255). -/
def updateF (r : Nat) (s : State) : State :=
  let old := mget 100 s.thm.f r
  let f := factor s r
  let base := if f = 100 then 0
    else max ((liveLimit s r + 9) / 10) (if old < 100 then mget 0 s.thm.ibase r else (railCurrent s r).toInt.toNat)
  setThm (fun t => { t with f := mput 100 t.f r f, ibase := mput 0 t.ibase r base }) s

/-- The thermal manager's part of a round end. -/
def thermalRound (first : Bool) (s : State) : State :=
  whileUp (fun s =>
    let s := updateFactors ((List.range 25).foldl (fun s r => throttle r s) s)
    (List.range 25).foldl (fun s r => updateF r s) s) (railWarnings (sensorWarnings (updateBands first s)))

end Sys2Proof.Machine
end

