-- ==== Sys2Proof/Machine/Timebase.lean ====
section
/-! DEFINITION. The cycle timebase, the schedule and quiet windows (02_cycle_timebase.md, R31 to R61). -/

namespace Sys2Proof.Machine

/-! The PLL (R33 to R39). -/

/-- CYCCFG.EDGE: both. -/
def edgeBoth (s : State) : Bool := decide (rdBits (pl s) (key 1 0) 1 2 = 2)
/-- CYCCFG.EN. -/
def cycEn (s : State) : Bool := (pl s (key 1 0)).getLsbD 0
/-- CYCCFG.TOL in percent. -/
def tolPct (s : State) : Nat :=
  let c := rdBits (pl s) (key 1 0) 3 2
  if c = 0 then 5 else if c = 1 then 10 else if c = 2 then 20 else 40
/-- The shortest level that counts, in half microseconds (R33): GLITCH + 1 µs. -/
def glitch (s : State) : Nat := us (rdBits (pl s) (key 1 0) 5 3 + 1)
/-- The edge counts as a reference pulse (R33): the level that it begins lasts `level` half microseconds, which is not shorter
than GLITCH, it is another one than the filtered level before it, and EDGE selects it. -/
def edgeCounts (s : State) (rising : Bool) (level : Nat) : Bool :=
  let e := rdBits (pl s) (key 1 0) 1 2
  decide (glitch s ≤ level) && (s.cyc.lvl != rising) && (decide (e = 2) || (decide (e = 0) && rising) || (decide (e = 1) && !rising))
/-- The angle that the edge marks (R33). -/
def markedAngle (s : State) (rising : Bool) : Nat :=
  let o := (pl s (key 1 0x0C)).toNat
  if edgeBoth s ∧ !rising then (o + 128) % 256 else o
/-- The pulse marks ANGOFS (R36). -/
def angofsPulse (s : State) (rising : Bool) : Bool := !edgeBoth s || rising
/-- Units of the angle accumulator in one tracked pulse period. -/
def pulseUnits (s : State) : Nat := if edgeBoth s then cycleUnits / 2 else cycleUnits
/-- Phase error: marked angle less present angle, in units, signed. The spec gives PHERR a sign and not its sense (R60); this
sense makes the correction of R36 close it (DEDUCED, log entry 12). -/
def phaseErr (s : State) (rising : Bool) : Int :=
  let d := (markedAngle s rising * (cycleUnits / 256) + cycleUnits - s.cyc.phase) % cycleUnits
  if d > cycleUnits / 2 then (d : Int) - cycleUnits else d
/-- The free-run rate at NOMFREQ. -/
def nomRate (s : State) : Nat := s.cyc.nom * 256
/-- Within n angle units. -/
def within (e : Int) (n : Nat) : Bool := decide (e.natAbs ≤ n * (cycleUnits / 256))

/-- The tracked pulse period T of LOCK and HOLD (R34). The spec gives a law of tracking for ACQ only: here T is the last
accepted interval per pulse, plus, until the next expected pulse, the lag of the pulse that ended it, so that the phase
error is closed over one tracked period as in ACQ (DESIGN CHOICE, log entry 26). -/
def trackT (s : State) : Nat := max 1 ((s.cyc.period : Int) + s.cyc.lag).toNat
/-- First and last moment of the acceptance window after the previous expected pulse time (R34). -/
def winLo (s : State) : Nat := s.cyc.expect + trackT s * (100 - tolPct s) / 100
def winHi (s : State) : Nat := s.cyc.expect + trackT s * (100 + tolPct s) / 100
/-- The number of the cycle whose mark the present pulse gives: the present cycle, or a neighbour where the mark lies beyond
angle 0. -/
def markCycle (s : State) (e : Int) : Nat :=
  (((s.cyc.cnt.toNat : Int) + ((s.cyc.phase : Int) + e).fdiv cycleUnits) % 4294967296).toNat

/-- The PLL falls to FREE; its events by the state it leaves (R36, R61). -/
def toFree (s : State) : State :=
  let old := s.cyc.pll
  let s := disarm .acceptWindowClose (disarm .acqMissSpan
    { s with cyc := { s.cyc with pll := .free, lastAcc := none, rate := nomRate s, good := 0, acqMiss := 0, lag := 0 } })
  match old with
  | .lock => raiseG 47 1 s
  | .hold => raiseG 47 3 s
  | .acq => raiseG 47 3 s
  | .free => s

/-- Close of the next acceptance window (R34). -/
def armWindow (s : State) : State :=
  arm (winHi s - s.clk.now) .acceptWindowClose s

/-- Enter ACQ at an accepted pulse. -/
def toAcq (s : State) : State :=
  arm (125000) .acqMissSpan (disarm .acceptWindowClose
    { s with cyc := { s.cyc with pll := .acq, good := 0, acqMiss := 0, acqCyc := 0, acqTmo := false, misscnt := 0, lag := 0 } })

/-- Enter LOCK: a commit that waits for lock may apply (R184). -/
def toLock (s : State) : State :=
  let s := armWindow (disarm .acqMissSpan { s with cyc := { s.cyc with pll := .lock, misscnt := 0 } })
  let s := raiseG 47 0 s
  match s.txn.cur with
  | some c => if c.pending ∧ c.mode.toNat % 4 = 0 then enqueueOnce .commitApply s else s
  | none => s

/-- The steered rate of ACQ (R36). -/
def steered (s : State) (e : Int) : Nat :=
  let base := pulseUnits s / max 1 s.cyc.period
  clampTo (base * 3 / 4) (base * 5 / 4) ((((base : Int) * ((pulseUnits s : Int) + e)) / pulseUnits s).toNat)

/-- A miss of ACQ (R36): it ends the run of good cycles; the fourth in a row ends ACQ. -/
def acqMissed (s : State) : State :=
  let n := s.cyc.acqMiss + 1
  let s := { s with cyc := { s.cyc with acqMiss := n, good := 0 } }
  if n ≥ 4 then toFree s else s

/-- PHERR in fine-angle counts. -/
def pherrOf (e : Int) : Word := word16 (e * 4096 / cycleUnits)

/-- An accepted pulse's time and phase error. -/
def acceptAt (e : Int) (s : State) : State :=
  { s with cyc := { s.cyc with lastAcc := some s.clk.now, pherr := pherrOf e, misscnt := 0 } }

/-- A rejected pulse (R34). -/
def rejectPulse (s : State) : State := raiseG 47 5 s

/-- A pulse in FREE (R34, R36). -/
def pulseFree (e : Int) (s : State) : State :=
  let f := if edgeBoth s then 2 else 1
  match s.cyc.lastAcc with
  | none => acceptAt e s
  | some t =>
    let d := s.clk.now - t
    if d * f < 2000 then rejectPulse s
    else if d * f > 125000 then acceptAt e s
    else toAcq (acceptAt e { s with cyc := { s.cyc with period := d, rate := pulseUnits s / d } })

/-- The run of good cycles after an ANGOFS pulse (R36): one more where the cycle before had a good one too. -/
def goodRun (s : State) (e : Int) : Nat :=
  if !within e 1 then 0
  else if s.cyc.good ≠ 0 ∧ markCycle s e = (s.cyc.goodCyc + 1) % 4294967296 then s.cyc.good + 1 else 1

/-- A pulse in ACQ (R34, R36). -/
def pulseAcq (rising : Bool) (e : Int) (s : State) : State :=
  let f := if edgeBoth s then 2 else 1
  let d := s.clk.now - s.cyc.lastAcc.getD 0
  if d * f < 2000 ∨ d * f > 125000 then acqMissed (rejectPulse s)
  else
    let s := acceptAt e { s with cyc := { s.cyc with period := d, acqMiss := 0 } }
    let s := arm 125000 .acqMissSpan { s with cyc := { s.cyc with rate := steered s e } }
    if !angofsPulse s rising then s
    else
      let n := goodRun s e
      let s := { s with cyc := { s.cyc with good := n, goodCyc := markCycle s e } }
      if n ≥ 4 then toLock { s with cyc := { s.cyc with expect := s.clk.now } } else s

/-- A pulse in LOCK or HOLD (R34, R36, R37): the expected time of the pulse lies one T after the one before; the rate and T
close the phase error over one tracked period. -/
def pulseLock (e : Int) (s : State) : State :=
  if s.clk.now < winLo s ∨ winHi s < s.clk.now then rejectPulse s
  else
    let was := s.cyc.pll
    let p := (s.clk.now - s.cyc.lastAcc.getD s.cyc.expect) / (s.cyc.misscnt + 1)
    let x := s.cyc.expect + trackT s
    let s := acceptAt e { s with cyc := { s.cyc with period := max 1 p, expect := x, lag := (s.clk.now : Int) - x } }
    let s := { s with cyc := { s.cyc with rate := steered s e } }
    if within e 4 then
      (match was with
       | .hold => toLock s
       | _ => armWindow s)
    else
      let s := toAcq s
      match was with
      | .lock => raiseG 47 1 s
      | _ => s

/-- The filtered level of CYC follows a level that is not shorter than GLITCH (R33). -/
def noteLevel (x : CycEdge) (s : State) : State :=
  if glitch s ≤ x.level then { s with cyc := { s.cyc with lvl := x.rising } } else s

/-- CYC_PULSE. -/
def execCycPulse (x : CycEdge) (s : State) : Host.Outcome State Fault Refusal :=
  .next (if !anvilOn s then s
    else if !cycEn s || !edgeCounts s x.rising x.level then noteLevel x s
    else
      let s := noteLevel x s
      let e := phaseErr s x.rising
      match s.cyc.pll with
      | .free => pulseFree e s
      | .acq => pulseAcq x.rising e s
      | .lock => pulseLock e s
      | .hold => pulseLock e s)

/-- A missing pulse (R35, R36, R39): the expected time moves one T on; from there the last tracked frequency, without the
correction that its period has closed, gives T and the rate. -/
def missPulse (s : State) : State :=
  let s := disarm .acceptWindowClose s
  let n := min 17 (s.cyc.misscnt + 1)
  let s := { s with cyc := { s.cyc with misscnt := n, expect := s.cyc.expect + trackT s, lag := 0,
                                        rate := pulseUnits s / max 1 s.cyc.period } }
  let s := raiseG 47 4 s
  match s.cyc.pll with
  | .lock => raiseG 47 2 (raiseG 47 1 (armWindow { s with cyc := { s.cyc with pll := .hold } }))
  | _ => if n ≥ 17 then toFree s else armWindow s

/-- ACCEPT_WINDOW_CLOSE. -/
def execAcceptWindowClose (s : State) : Host.Outcome State Fault Refusal :=
  .next (match s.cyc.pll with
    | .lock => missPulse s
    | .hold => missPulse s
    | _ => s)

/-- ACQ_MISS_SPAN. -/
def execAcqMissSpan (s : State) : Host.Outcome State Fault Refusal :=
  .next (if s.cyc.pll = .acq then acqMissed (arm 125000 .acqMissSpan s) else s)

/-- ACQTMO, once per entry to ACQ (R36). -/
def execAcqtmo (s : State) : Host.Outcome State Fault Refusal :=
  .next (if s.cyc.pll = .acq ∧ !s.cyc.acqTmo then raiseG 47 11 { s with cyc := { s.cyc with acqTmo := true } } else s)

/-! The cycle (R37, R40, R43, R46, R48, R50, R53, R57, R243). -/

/-- The banks exchange at angle 0 once validation has passed (R50). -/
def exchangeBanks (s : State) : State :=
  if s.cyc.swapOk then
    raiseG 47 6 { s with cyc := { s.cyc with actB := !s.cyc.actB, schSt := 2, swapOk := false } }
  else s

/-- Entries placed at angle 0 run from here with their fine delays (R43). -/
def armAngle0 (s : State) : State :=
  { s with cyc := { s.cyc with acts := s.cyc.acts ++ startActs s (fun a => decide (a = 0)) } }

/-- QUIETSTAT as a byte. -/
def quietstat (s : State) : Byte := BitVec.ofNat 8 (s.qt.breach.toNat + 16 * s.qt.skip.toNat)

/-- The quiet check of the conversion results of the cycle that ends (R243). -/
def quietCheck (s : State) : State :=
  let bad := decide (quietstat s ≠ 0)
  let runs := fwRuns s
  let f : SeqRes → SeqRes := fun r =>
    if r.qchk || r.lost then r else if runs then { r with qchk := true, qbad := bad } else { r with lost := true }
  { s with hk := { s.hk with res := s.hk.res.map (fun (k, r) => (k, f r))
                             runA := s.hk.runA.map (fun x => { x with res := f x.res })
                             runB := s.hk.runB.map (fun x => { x with res := f x.res }) } }

/-- What waits for angle 0 where the schedule has no entry for it (R46, R48, R183). -/
def angle0Defaults (s : State) : State :=
  let s := if hasAction s 3 then s else enqueue .commit s
  let s := if hasAction s 5 ∨ s.pat.pend = [] then s else enqueue .swap s
  match s.txn.cur with
  | some c => if c.pending ∧ c.mode.toNat % 4 = 1 ∧ c.angle = 0 then enqueueOnce .commitApply s else s
  | none => s

/-- Windows of the next cycle count from 0; the open window and those still to come of this cycle keep their numbers (R43,
R53). -/
def quietWrap (s : State) : State :=
  { s with qt := { s.qt with n := 0, nOld := s.qt.n, curOld := s.qt.on, breach := s.qt.brCur, skip := s.qt.skCur, brCur := 0, skCur := 0 } }

/-- The end of a cycle. In ACQ the passages of angle 0 since its entry count as the cycles of ACQTMO, so that the cycle in
which ACQ was entered counts as one (R36 does not say; DESIGN CHOICE, log entry 26). -/
def cycleWrap (s : State) : State :=
  let wrap := decide (s.cyc.cnt = 0xFFFFFFFF)
  let nom := rdNat (pl s) (key 1 2) 2
  let s := { s with cyc := { s.cyc with cnt := s.cyc.cnt + 1, nom := nom,
                                        rate := if s.cyc.pll = .free then nom * 256 else s.cyc.rate,
                                        acqCyc := if s.cyc.pll = .acq then s.cyc.acqCyc + 1 else s.cyc.acqCyc } }
  let s := raiseIf wrap (16 * 47 + 10) s
  let s := if s.cyc.pll = .acq ∧ s.cyc.acqCyc = 8 then enqueueOnce .acqtmo s else s
  let s := exchangeBanks (quietCheck (quietWrap s))
  let s := if hasAction s 7 then s else { s with qt := { s.qt with dith0 := 0 } }
  angle0Defaults (armAngle0 s)

/-- CYCLE_END. -/
def execCycleEnd (s : State) : Host.Outcome State Fault Refusal := .next (if anvilOn s then cycleWrap s else s)

/-- CYCCNT_READ: everything is sampled at one instant (R41). -/
def execCyccntRead (s : State) : Host.Outcome State Fault Refusal :=
  .next (onRead 1 (fun s =>
    { s with cyc := { s.cyc with lcnt := s.cyc.cnt, lfine := fineOf s.cyc.phase, lpll := s.cyc.pll }
             regs := { s.regs with latch := some (key 1 0x10, (leBytes 4 s.cyc.cnt.toNat).drop 1) }
             bus := { s.bus with rdata := leBytes 1 s.cyc.cnt.toNat } }) s)

/-- REACQ: FREE and a new acquisition (R36). -/
def execReacq (s : State) : Host.Outcome State Fault Refusal := .next (onPage 1 toFree s)

/-- A write of CYCCFG: with EN 0, and with every write to EDGE, the PLL goes to FREE (R36). The reserved code of EDGE is no
write to it. -/
def cyccfgByte (v : Byte) (s : State) : State :=
  let s := plainByte 1 0 v s
  if !cycEn s ∨ v.toNat / 2 % 4 ≠ 3 then toFree s else s

/-- CYCCFG_WRITE. -/
def execCyccfgWrite (v : Byte) (s : State) : Host.Outcome State Fault Refusal := .next (onPage 1 (cyccfgByte v) s)

/-- A write of NOMFREQ is range-checked; it takes effect at the next angle 0 (R60). -/
def nomfreqWord (v : Word) (s : State) : State := plainWide 1 ⟨0x02, 2, 0, 16, .rw, 800, [(256, 16000)]⟩ v.toNat s

/-- NOMFREQ_WRITE. -/
def execNomfreqWrite (v : Word) (s : State) : Host.Outcome State Fault Refusal := .next (onPage 1 (nomfreqWord v) s)

/-! Editing and swapping the schedule (R49 to R51). -/

/-- SCHIDX.IDX. -/
def schIdx (s : State) : Nat := rdBits (pl s) (key 1 0x20) 0 7
/-- SCHIDX.RDACT. -/
def rdAct (s : State) : Bool := (pl s (key 1 0x20)).getLsbD 7
/-- SCHIDX increments with wrap. -/
def schIdxNext (s : State) : State :=
  putPlain (key 1 0x20) [putBits (pl s (key 1 0x20)) 0 7 ((schIdx s + 1) % 128)] s
/-- Write the edit bank. -/
def setEdit (b : Map (BitVec 32)) (s : State) : State :=
  if s.cyc.actB then { s with cyc := { s.cyc with bankA := b } } else { s with cyc := { s.cyc with bankB := b } }
/-- A swap is pending (R49). -/
def swapPending (s : State) : Bool := decide (s.cyc.schSt = 1)
/-- The bank's entry that reads show (R49). -/
def schEntry (s : State) : BitVec 32 := mget 0 (if rdAct s then actBank s else editBank s) (schIdx s)

/-- A write of SCHENT3 stores the four bytes and steps the index (R49). -/
def schent3Byte (v : Byte) (s : State) : State :=
  if swapPending s then berrRorsv s
  else
    let s := putPlain (key 1 0x24) [v] s
    let e := BitVec.ofNat 32 (rdNat (pl s) (key 1 0x21) 4)
    schIdxNext (setEdit (mput 0 (editBank s) (schIdx s) e) s)

/-- SCHENT3_WRITE. -/
def execSchent3Write (v : Byte) (s : State) : Host.Outcome State Fault Refusal := .next (onPage 1 (schent3Byte v) s)

/-- SCHENT3_READ. -/
def execSchent3Read (s : State) : Host.Outcome State Fault Refusal :=
  .next (onRead 1 (fun s =>
    schIdxNext { s with bus := { s.bus with rdata := [BitVec.ofNat 8 (entByte (schEntry s) 3)] } }) s)

/-- SCHCTL.SWAP sets the swap pending; the validation ends within 50 µs (log entry 3). -/
def schSwap (s : State) : State :=
  if swapPending s then berrRorsv s
  else { s with cyc := { s.cyc with schSt := 1, reason := 0, swapOk := false } }
/-- SCHCTL.COPY. -/
def schCopy (s : State) : State := if swapPending s then berrRorsv s else setEdit (actBank s) s
/-- SCHCTL.CLEAR. -/
def schClear (s : State) : State := if swapPending s then berrRorsv s else setEdit [] s

/-- SCHCTL_SWAP. -/
def execSchctlSwap (s : State) : Host.Outcome State Fault Refusal := .next (onPage 1 schSwap s)
/-- SCHCTL_COPY. -/
def execSchctlCopy (s : State) : Host.Outcome State Fault Refusal := .next (onPage 1 schCopy s)
/-- SCHCTL_CLEAR. -/
def execSchctlClear (s : State) : Host.Outcome State Fault Refusal := .next (onPage 1 schClear s)

/-- The entry uses a reserved ARG encoding other than a QUIET length (R44, R51 rule 2). R44 calls the rails 5 to 7 of PHASE
reserved, and R51 gives a rail above 4 a rule of its own: they are left to rule 7 (DESIGN CHOICE, log entry 27). -/
def argReserved (e : BitVec 32) : Bool :=
  let a := entByte e 3
  match entAction e with
  | 1 => decide (a ≥ 32)
  | 3 => decide (a ≠ 0)
  | 4 => decide (a ≥ 8)
  | 5 => decide (a ≠ 0)
  | 6 => decide (a ≠ 0)
  | 7 => decide (a ≠ 0)
  | _ => false

/-- Two quiet windows overlap or lie too close (R51 rule 5), in units of 1/NOMFREQ half microseconds. -/
def windowsClash (nom : Nat) (e f : BitVec 32) : Bool :=
  let start := fun (x : BitVec 32) => entByte x 0 * 125000 + entByte x 1 * nom
  let d := (start f + 64000000 - start e % 32000000) % 32000000
  decide (d < (2 * entByte e 3 + 22) * nom)

/-- Validation of a bank (R51): the first failing rule and the lowest failing index. -/
def schValidate (nom : Nat) (b : Map (BitVec 32)) : Option (Nat × Nat) :=
  let idx := fun (p : BitVec 32 → Bool) => (b.find? (fun (_, e) => p e)).map (·.1)
  let q := b.filter (fun (_, e) => decide (entAction e = 2))
  let dd := b.filter (fun (_, e) => decide (entAction e = 7))
  let clash := q.find? (fun (i, e) => q.any (fun (j, f) => decide (i ≠ j) && (windowsClash nom e f || windowsClash nom f e)))
  match idx (fun e => decide (entAction e > 7 ∨ entByte e 2 ≥ 16)) with
  | some i => some (1, i)
  | none => match idx argReserved with
    | some i => some (2, i)
    | none => match idx (fun e => decide (entAction e = 2) && decide (entByte e 3 = 0 ∨ entByte e 3 > 20)) with
      | some i => some (3, i)
      | none => match q.drop 4 with
        | (i, _) :: _ => some (4, i)
        | [] => match clash with
          | some (i, _) => some (5, i)
          | none => match dd.drop 1 with
            | (i, _) :: _ => some (6, i)
            | [] => (idx (fun e => decide (entAction e = 4) && decide (entByte e 3 % 8 > 4))).map (fun i => (7, i))

/-- The end of a validation (R50). One that passes leaves SCHERRIDX at the entry that failed last (DESIGN CHOICE, log entry 27). -/
def schValidated (s : State) : State :=
  match schValidate (rdNat (pl s) (key 1 2) 2) (editBank s) with
  | some (r, i) => raiseG 47 7 { s with cyc := { s.cyc with schSt := 3, reason := r, errIdx := i } }
  | none => { s with cyc := { s.cyc with swapOk := true } }

/-- SCHEDULE_VALIDATION_END. -/
def execScheduleValidationEnd (s : State) : Host.Outcome State Fault Refusal :=
  .next (if swapPending s ∧ !s.cyc.swapOk then schValidated s else s)

/-! Quiet windows and dither (R53 to R58). -/

/-- A QUIET action: a window opens, or is skipped where it would start before the last one's end plus the lead (R55). An
action of the cycle before counts among that cycle's windows (R43, R53). -/
def quietOpen (len : Nat) (s : State) : State :=
  let old := s.qt.spill.contains s.clk.now
  let i := min 3 (if old then s.qt.nOld else s.qt.n)
  let s := { s with qt := if old then { s.qt with nOld := s.qt.nOld + 1 } else { s.qt with n := s.qt.n + 1 } }
  if s.clk.now < s.qt.until_ + us 1 then
    raiseG 47 8 { s with qt := if old then { s.qt with skip := setBit s.qt.skip i true } else { s.qt with skCur := setBit s.qt.skCur i true } }
  else
    arm (us len) .quietEnd { s with qt := { s.qt with on := true, until_ := s.clk.now + us len, cur := i, curOld := old } }

/-- The note of a QUIET action of the cycle before is used up. -/
def quietNoted (s : State) : State := { s with qt := { s.qt with spill := s.qt.spill.erase s.clk.now } }

/-- QUIET. -/
def execQuiet (len : Byte) (s : State) : Host.Outcome State Fault Refusal :=
  .next (quietNoted (if !anvilOn s || quietDis s || decide (len = 0) || decide (len.toNat > 20) then s
    else quietOpen len.toNat s))

/-- The window ends, now if not before. -/
def quietClose (s : State) : State :=
  disarm .quietEnd { s with qt := { s.qt with on := false, until_ := min s.qt.until_ s.clk.now } }

/-- QUIET_END. -/
def execQuietEnd (s : State) : Host.Outcome State Fault Refusal := .next (quietClose s)

/-- A write of QUIETCFG: with QDIS 1 the pin is deasserted and nothing gaps (R56). -/
def quietcfgByte (v : Byte) (s : State) : State :=
  let s := plainByte 1 5 v s
  if quietDis s then quietClose s else s

/-- DITHER: the triangle restarts (R57). -/
def execDither (s : State) : Host.Outcome State Fault Refusal :=
  .next (if anvilOn s then { s with qt := { s.qt with dith0 := s.cyc.phase } } else s)

/-- PSHED in mA (R80, R106). -/
def pshed (s : State) (r : Nat) : Nat :=
  if r = 0 then 100 * (lv s (key 0x02 0x1B)).toNat else 500 * (lv s (blk r + 0x10)).toNat

/-- A PHASE entry (R47, R77, R91): shed below PSHED, add back above 1.5 × PSHED. `avg` is the averaged current in mA. -/
def phaseEntry (r avg : Nat) (s : State) : State :=
  if !has s.rl.en r || !sheden (lv s) r || decide (nph (lv s) r ≠ 2) then s
  else if !has s.rl.shed r && decide (count3 (healthy (phOf s r)) = 2) && decide (avg < pshed s r) then
    { s with rl := { s.rl with shed := s.rl.shed ||| bit r } }
  else if has s.rl.shed r && decide (2 * avg > 3 * pshed s r) then
    { s with rl := { s.rl with shed := s.rl.shed &&& ~~~(bit r) } }
  else s

/-- PHASE. -/
def execPhase (r : PhRail) (avg : Option Nat) (s : State) : Host.Outcome State Fault Refusal :=
  .next (if !anvilOn s then s
    else match avg with
      | some a => phaseEntry r.val a s
      | none => (let (a, s) := drawNat s; phaseEntry r.val a s))

end Sys2Proof.Machine
end

