-- ==== Sys2Proof/Machine/Housekeeping.lean ====
section
/-! DEFINITION. Housekeeping measurement (R236 to R251): the round, values and ages, sensors, threshold channels,
conversion sequences and host requests. -/

namespace Sys2Proof.Machine

/-- Write the housekeeping state. -/
def setHk (f : Hk → Hk) (s : State) : State := { s with hk := f s.hk }

/-! Values and ages (R237, R245). -/

/-- A byte of HKCFG. -/
def hkcfg (s : State) (o : Nat) : Nat := max 1 (pl s (key 0x38 o)).toNat

/-- The quantity that a converter's reading stands for (R237): where a setting scales it, from the pin's voltage in µV.
PRE's sense is 0.25 mΩ × PRERS, a path's 0.1 mΩ × INRSx, a stage's report 1.2 V + GIMON × I (R84), a stage's temperature
(V − 0.6 V) / 10 mV/°C (R103), a TX sensor's by its SLOPE and OFS. -/
def convVal (s : State) (m : Nat) (v : Int) : Int :=
  if 41 ≤ m ∧ m ≤ 43 then 4 * v / (10 * hkcfg s 0)
  else if 44 ≤ m ∧ m ≤ 55 then (v - 1200000) / (25 * 2 ^ rdBits (lv s) (blk (1 + (m - 44) / 3) + 3) 2 2)
  else if m = 74 ∨ m = 75 then v / hkcfg s (m - 73)
  else if 78 ≤ m ∧ m ≤ 81 then (v - 600000) * 16 / 10000
  else if 82 ≤ m ∧ m ≤ 87 then
    (let c := lv s (key 0x3C (0x18 + (m - 82)))
     let slope : Int := if c.toNat % 4 = 0 then 10000 else if c.toNat % 4 = 1 then 19500 else 6250
     (v - (if c.getLsbD 2 then 400000 else 500000)) * 16 / slope)
  else v

/-- The measurement compares, and is encoded, unsigned (R246). -/
def thUnsigned (m : Nat) : Bool := decide (m ≤ 40 ∨ m = 72 ∨ m = 73 ∨ m = 76 ∨ m = 77)

/-- A quantity in its measurement's encoding. -/
def encMeas (m : Nat) (v : Int) : Word := if thUnsigned m then BitVec.ofNat 16 (min 0xFFFF v.toNat) else word16 v

/-- What a converter's list brings for measurement m: the reading. -/
def rawOf (l : List Conv) (m : Nat) : Option Int := (l.find? (fun c => decide (c.meas.val = m))).map (·.val)
/-- A result of a converter's list. -/
def convOf (s : State) (l : List Conv) (m : Nat) : Option Int := (rawOf l m).map (convVal s m)

/-- A value is refreshed. -/
def refresh (m : Nat) (v : Word) (s : State) : State :=
  setHk (fun h => { h with mval := mput 0 h.mval m v, age := mput 127 h.age m 0, valid := setBit h.valid m true }) s

/-- A value is held; `bad` marks it INVALID. -/
def hold (m : Nat) (bad : Bool) (s : State) : State :=
  setHk (fun h => { h with age := mput 127 h.age m (min 127 (mget 127 h.age m + 1))
                           valid := if bad then setBit h.valid m false else h.valid }) s

/-- The output of rail r reads n mV: the reference exceeds a pre-biased output, or not yet (R86). -/
def preFollow (r n : Nat) (s : State) : State :=
  let q := mget {} s.rl.ramps r
  if q.pre = 0 then s
  else if !preBiased s r then preOver r s
  else { s with rl := { s.rl with ramps := mput {} s.rl.ramps r { q with pre := if 10 * n < refNow s r then 0 else 10 * n } } }

/-- What the safety results tell other blocks: the paths' sense voltages (R65), the sensed GB peaks (R128), an output that may be
pre-biased (R86, R111, R121). -/
def notePin (m : Nat) (v : Int) (s : State) : State :=
  if 1 ≤ m ∧ m ≤ 16 then preFollow m v.toNat s else
  if m = 74 then noteSense .a v s else if m = 75 then noteSense .b v s
  else if 21 ≤ m ∧ m ≤ 24 then monNote m (encMeas m v) s else s

/-- A measurement with one home converter. -/
def publishHome (d : RoundData) (m : Nat) (s : State) : State :=
  let inv := if m < 44 then s.hk.hkaInv else s.hk.hkbInv
  if inv then hold m true s
  else match rawOf (if m < 44 then d.hka else d.hkb) m with
    | some v => notePin m v (refresh m (encMeas m (convVal s m v)) s)
    | none => hold m false s

/-- A temperature's good result: the mean of both, or the single one. -/
def ownTemp (d : RoundData) (s : State) (m : Nat) : Option Int :=
  let a := if s.hk.hkaInv then none else convOf s d.hka m
  let b := if s.hk.hkbInv then none else convOf s d.hkb m
  match a, b with
  | some x, some y => some ((x + y) / 2)
  | some x, none => some x
  | none, y => y

/-- Stage temperatures SFLT0 to SFLT3, which have no neighbours: with neither result the value is held and INVALID (R245,
R251). -/
def publishStage (d : RoundData) (m : Nat) (s : State) : State :=
  match ownTemp d s m with
  | some v => refresh m (word16 v) s
  | none => hold m true s

/-! Sensors (R248 to R251). -/

/-- The grid neighbours of TDn. -/
def neighbours (i : Nat) : List Nat :=
  if i ≥ 16 then []
  else (if i ≥ 4 then [i - 4] else []) ++ (if i < 12 then [i + 4] else []) ++
       (if i % 4 ≠ 0 then [i - 1] else []) ++ (if i % 4 ≠ 3 then [i + 1] else [])

/-- A sensor's check state. -/
def senOf (s : State) (i : Nat) : Sensor := mget {} s.hk.sen i
/-- Write a sensor's check state. -/
def setSen (i : Nat) (x : Sensor) (s : State) : State := setHk (fun h => { h with sen := mput {} h.sen i x }) s

/-- Every sensor's own value of this round; a disabled TX sensor has none. -/
def ownValues (d : RoundData) (s : State) : List (Option Int) :=
  (List.range 22).map (fun i => if i ≥ 16 && !txEn s (i - 16) then none else ownTemp d s (sensorMeas i))

/-- Own values of the neighbours that are valid and not failed. -/
def goodNeighbours (own : List (Option Int)) (s : State) (i : Nat) : List Int :=
  (neighbours i).filterMap (fun k => if (senOf s k).failed then none else own.getD k none)

/-- The mean of some values. -/
def meanOf (l : List Int) : Int := l.foldl (· + ·) 0 / (l.length : Int)

/-- Sensor i disagrees this round (R250). -/
def disagrees (own : List (Option Int)) (s : State) (i : Nat) : Bool :=
  let far := fun (x y : Int) => decide ((x - y).natAbs > 16 * thByte s 9)
  match own.getD i none with
  | none => false
  | some x =>
    if i < 16 then
      (let g := goodNeighbours own s i
       decide (2 ≤ g.length) && far x (meanOf g))
    else
      let t := rdBits (lv s) (key 0x3C (0x18 + (i - 16))) 4 3
      if t > 5 then false
      else match own.getD (16 + t) none with
        | some y => far x y
        | none => false

/-- Own value outside −50 °C to 175 °C. -/
def outOfRange (v : Option Int) : Bool :=
  match v with
  | some x => decide (x < -800) || decide (2800 < x)
  | none => false

/-- The check of one sensor at a round end: `dis` as found before any sensor of this round failed. -/
def checkSensor (first : Bool) (own : List (Option Int)) (dis : List Bool) (i : Nat) (s : State) : State :=
  let x := senOf s i
  let now := dis.getD i false
  let dr := if now then x.disRun + 1 else 0
  let rr := if outOfRange (own.getD i none) then x.rngRun + 1 else 0
  let fails := !x.failed && !first && ((decide (i < 16) && decide (dr ≥ 2)) || decide (rr ≥ 2))
  let s := setSen i { x with dis := now, disRun := dr, rngRun := rr, failed := x.failed || fails } s
  let src := 16 * (32 + i / 4) + 4 * (i % 4)
  raiseIf fails (src + 2) (raiseIf (now && decide (dr = 1)) (src + 3) s)

/-- The value in use of one sensor (R249, R251). -/
def publishSensor (own : List (Option Int)) (i : Nat) (s : State) : State :=
  let x := senOf s i
  let m := sensorMeas i
  if i ≥ 16 && !txEn s (i - 16) then hold m true (setSen i { x with src := 3, warn := false, limit := false } s)
  else
    let self := if x.failed then none else own.getD i none
    match self, goodNeighbours own s i with
    | some v, _ => refresh m (word16 v) (setSen i { x with src := 0 } s)
    | none, [] => hold m true (setSen i { x with src := 2 } s)
    | none, g => refresh m (word16 (meanOf g)) (setSen i { x with src := 1 } s)

/-- Sensors at a round end. -/
def sensorRound (first : Bool) (d : RoundData) (s : State) : State :=
  let own := ownValues d s
  let dis := (List.range 22).map (disagrees own s)
  let s := (List.range 22).foldl (fun s i => checkSensor first own dis i s) s
  (List.range 22).foldl (fun s i => publishSensor own i s) s

/-- TJNONE: no TD value valid for 10 round ends (R252). -/
def tdPresence (s : State) : State :=
  let n := if (validTds s).isEmpty then s.hk.noTd + 1 else 0
  setHk (fun h => { h with noTd := n, tjNone := decide (n ≥ 10) }) s

/-! Threshold channels (R246, R247, R261). -/

/-- Key of a byte of threshold channel k. -/
def thKey (k o : Nat) : Nat := ikey k 0x3B o

/-- A word as a number of the measurement's encoding. -/
def thNum (m : Nat) (w : Word) : Int := if thUnsigned m then w.toNat else w.toInt

/-- One side of a channel: bit index j, beyond its level now, back within the hysteresis. -/
def thSide (j filt src : Nat) (beyond back : Bool) (s : State) : State :=
  let n := if beyond then mget 0 s.hk.thN j + 1 else 0
  let on := s.hk.th.getLsbD j
  let set := !on && decide (n ≥ filt + 1)
  let now := set || (on && !back)
  let s := setHk (fun h => { h with th := setBit h.th j now, thN := mput 0 h.thN j (min n 8) }) s
  raiseIf set src s

/-- One channel at a round end. -/
def thChannel (k : Nat) (s : State) : State :=
  let b := pl s (thKey k 1)
  let m := b.toNat % 128
  if !b.msb || decide (m > 103) || minval s m then s
  else
    let v := thNum m (mval s m)
    let w := fun o => thNum m (BitVec.ofNat 16 (rdNat (pl s) (thKey k o) 2))
    let hys : Int := 4 * (pl s (thKey k 6)).toNat
    let filt := (pl s (thKey k 7)).toNat % 8
    let src := 16 * (38 + k / 8) + 2 * (k % 8)
    let s' := thSide (2 * k) filt src (decide (w 2 < v)) (decide (v ≤ w 2 - hys)) s
    thSide (2 * k + 1) filt (src + 1) (decide (v < w 4)) (decide (w 4 + hys ≤ v)) s'

/-- THMEAS of the channel that THIDX selects: clearing EN clears the channel's state. -/
def thmeasByte (v : Byte) (s : State) : State :=
  let k := rdBits (pl s) (key 0x3B 0) 0 6
  let old := pl s (thKey k 1)
  let ok := decide (v.toNat % 128 ≤ 103)
  let s := if ok then s else berrRsvenc s
  let s := putPlain (thKey k 1) [putBits (if ok then putBits old 0 7 (v.toNat % 128) else old) 7 1 (v.toNat / 128)] s
  clearTh k s

/-- THMEAS_WRITE. -/
def execThmeasWrite (v : Byte) (s : State) : Host.Outcome State Fault Refusal := .next (onPage 0x3B (thmeasByte v) s)

/-- THCTL.SENSCLR: every FAILED bit clears and the checks start again (R251). -/
def sensclrBit (s : State) : State :=
  (List.range 22).foldl (fun s i => setSen i { senOf s i with failed := false, disRun := 0, rngRun := 0 } s) s

/-- SENSCLR. -/
def execSensclr (s : State) : Host.Outcome State Fault Refusal := .next (onPage 0x3C sensclrBit s)

/-! The round (R239, R222, R224, R226). -/

/-- The round's light Assay step is displaced (R224, R241): what claims its first free slot holds it, but once 8 rounds in a
row have displaced it the step takes the next free slot, so that only CONV sequences that leave none in the whole round do. -/
def displaced (s : State) : Bool :=
  if s.tst.dispRun < 8 then decide (s.hk.claim ≠ 0)
  else !s.hk.gap

/-- The light Assay step of the round, or its displacement. -/
def lightStep (d : RoundData) (s : State) : State :=
  if !displaced s then publishAssay false d.assay { s with tst := { s.tst with dispRun := 0 } }
  else
    let n := satAdd 0xFF 1 s.tst.dispRun
    raiseIf (decide (n = 8)) (16 * 60 + 9) { s with tst := { s.tst with dispRun := n, dispN := max s.tst.dispN n } }

/-- The Assay of ASSAY_RUN advances (R222): by how much is open, a free value (log entry 8). -/
def assayProgress (s : State) : State :=
  if slotHas s 0x30 && decide (s.tst.full = 1) then
    (let (n, s) := drawNat s
     { s with bus := { s.bus with prog := BitVec.ofNat 8 (max s.bus.prog.toNat (n % 100)) } })
  else s

/-! The ledger (R225, R226). -/

/-- The measurement of a phase's current. -/
def phaseMeas (r p : Nat) : Nat := if r = 0 then 41 + p else 44 + 3 * (r - 1) + p

/-- The measured current of a phase in mA. -/
def phaseMa (s : State) (r p : Nat) : Int := 10 * mtemp s (phaseMeas r p)

/-- The current of resource i in mA: a phase's own; an LDO's is that of each device it drives. -/
def resCurrent (s : State) (i : Nat) : Nat :=
  match resPhase i, resPass i with
  | some (r, p), _ => (phaseMa s r p).natAbs
  | none, some (c, k) =>
    if decide (k = 1) = (ldoOf s c).pass1 || has s.rl.overlap (13 + c) then (mtemp s (64 + c)).natAbs else 0
  | none, none => 0

/-- The rail of resource i is hotter than PATHOTT. -/
def resHot (s : State) (i : Nat) : Bool :=
  let r := match resPhase i, resPass i with | some (r, _), _ => r | none, some (c, _) => 13 + c | none, none => 25
  decide (i < 23) && decide (16 * ((pl s (key 0x32 0x1A)).toNat : Int) < trOf s r)

/-- The deviation of a reference from the other two, and of an oscillator from the crystal, in 0.005 %; a reference's is the
mean of its two pairs' (log entry 13). -/
def resDev (d : RoundData) (s : State) (i : Nat) : Nat :=
  if i = 23 then (d.devAB + d.devAC).natAbs else if i = 24 then (d.devBC - d.devAB).natAbs
  else if i = 25 then (d.devAC + d.devBC).natAbs
  else if i = 26 then 10 * s.tst.oscDevA.toInt.natAbs else if i = 27 then 10 * s.tst.oscDevB.toInt.natAbs else 0

/-- One round more on resource i: charge, time hot, and the deviation, summed over each hour of rounds. -/
def accountRound (d : RoundData) (s : State) (i : Nat) (q : Res) : Res :=
  let sum := q.devSum + resDev d s i
  let n := q.devN + 1
  let q := { q with chg := q.chg + resCurrent s i, hot := q.hot + (resHot s i).toNat }
  if i < 23 then q
  else if n = 36000 then { q with dev := sum, devSum := 0, devN := 0 } else { q with devSum := sum, devN := n }

/-- The round's increments of the ledger. -/
def ledgerRound (d : RoundData) (s : State) : State :=
  let m := (List.range 28).foldl (fun m i => mput {} m i (accountRound d s i (mget {} m i))) s.pat.res
  { s with pat := { s.pat with res := m }
           tst := { s.tst with devAC := word16 d.devAC, devBC := word16 d.devBC, devAB := word16 d.devAB } }

/-- Every value is published, converters first. -/
def publishAll (first : Bool) (d : RoundData) (s : State) : State :=
  let s := (List.range 78).foldl (fun s m => publishHome d m s) s
  let s := (List.range 4).foldl (fun s i => publishStage d (78 + i) s) s
  tdPresence (sensorRound first d s)

/-- The currents of two active phases of a rail, measured or INVALID, leave it open or show that they differ by more than IMBAL's
threshold (R82, R88): 25 % of the PREILIM current, MPHIMB.IMBTH. -/
def unequal (s : State) (r : Nat) : Bool :=
  let on := (List.range 3).filter (fun p => (activePhases (nph (lv s) r) (has s.rl.shed r) (has s.rl.overlap r) (phOf s r)).getLsbD p)
  on.any (fun p => minval s (phaseMeas r p) || on.any (fun q =>
    let d := phaseMa s r p - phaseMa s r q
    if r = 0 then decide (1000 * (20 + 2 * ((lv s (blk 0 + 3)).toNat : Int)) < d * hkcfg s 0)
    else decide (1000 * (rdBits (lv s) (blk r + 0x11) 0 4 : Int) < d)))

/-- What a round's measurements show no longer holds as LEVELg has it (R377): unequal phase currents, stages at MPHTL. -/
def levelsFollow (s : State) : State :=
  let hot := fun r => minval s (78 + ci r) || decide (16 * ((lv s (blk r + 0x13)).toNat : Int) ≤ trOf s r)
  { s with rl := { s.rl with imbNow := s.rl.imbNow &&& maskOf (fun r => decide (5 ≤ r) || unequal s r)
                             thlNow := s.rl.thlNow &&& maskOf (fun r => decide (rk r ≠ .mph) || hot r) } }

/-- The values of a round: published, counted, compared with the thresholds. -/
def roundValues (first : Bool) (d : RoundData) (s : State) : State :=
  let s := levelsFollow (publishAll first d s)
  let s := setHk (fun h => { h with rnd := h.rnd + 1, ends := h.ends + 1, due := (s.clk.now / 200000 + 1) * 200000 }) s
  (List.range 64).foldl (fun s k => thChannel k s) s

/-- A round ends, unless a reaction of its Assay step or of a thermal limit ends in a system reset (R159). -/
def roundEnd (d : RoundData) (s : State) : State :=
  let first := decide (s.hk.ends = 0)
  let s := whileUp (fun s => thermalRound first (roundValues first d s)) (lightStep d s)
  whileUp (fun s => claimNext (assayProgress (grant (gaugeRound d s.hk.hkbInv (ledgerRound d s))))) s

/-- Rounds run (R239). -/
def roundsRun (s : State) : Bool :=
  fwOn s && !s.glob.boot &&
  (decide (s.glob.st = .start) || decide (s.glob.st = .run) || decide (s.glob.st = .stop) || decide (s.glob.st = .safe))

/-- HK_ROUND_END: the round's 100 ms have passed (R239). Where no rounds run, in STANDBY or while the firmware restarts, the charge
converter counts all the same (R295, R328). -/
def execHkRoundEnd (d : RoundData) (s : State) : Host.Outcome State Fault Refusal :=
  .next (if roundsRun s then (if s.hk.due ≤ s.clk.now then roundEnd d s else s)
    else if anvilOn s then countCharge d s else s)

/-! Conversion sequences (R242, R243, R258, R260). -/

/-- Key of a byte of sequence n's definition. -/
def seqKey (n o : Nat) : Nat := ikey n 0x38 o

/-- Sequence n is defined; it names HKB. -/
def seqDefined (s : State) (n : Nat) : Bool := (pl s (seqKey n 0x11)).getLsbD 6
/-- The sequence's converter is HKB. -/
def seqOnB (s : State) (n : Nat) : Bool := (pl s (seqKey n 0x11)).getLsbD 0

/-- CONV: a sequence starts, or waits for the one that runs on its converter and is marked LATE. -/
def execConv (seq : Fin 32) (s : State) : Host.Outcome State Fault Refusal :=
  .next (if !fwRuns s || !seqDefined s seq.val then s
    else
      let b := seqOnB s seq.val
      let busy := !(if b then s.hk.runB else s.hk.runA).isEmpty
      let tags : SeqRes := { unlocked := decide (s.cyc.pll ≠ .lock), late := busy, cyc := s.cyc.cnt.setWidth 16,
                             ang := BitVec.ofNat 8 (angleNow s), fine := fineOf s.cyc.phase }
      let x : SeqRun := ⟨seq.val, (List.range 9).map (fun i => pl s (seqKey seq.val (0x11 + i))), tags⟩
      noteClaim (setHk (fun h => if b then { h with runB := h.runB ++ [x] } else { h with runA := h.runA ++ [x] }) s))

/-- Entry i of a sequence's definition. -/
def seqEntry (x : SeqRun) (i : Nat) : Nat := (x.bytes.getD (1 + i) 0).toNat

/-- A sequence has its values, by the definition it started with (R258). -/
def seqDone (b : Bool) (x : SeqRun) (vals : List Int) (s : State) : State :=
  let n := (x.bytes.getD 0 0).toNat / 2 % 8 + 1
  let run := (mget {} s.hk.res x.seq : SeqRes).run
  let words := (vals.take n).zipIdx.map (fun (v, i) => encMeas (seqEntry x i) (convVal s (seqEntry x i) v))
  let r := { x.res with done := true, invalid := if b then s.hk.hkbInv else s.hk.hkaInv, run := run + 1, vals := words }
  setHk (fun h => { h with res := mput {} h.res x.seq r }) s

/-- CONV_SEQ_DONE: the sequence running on HKA, or HKB, ends. -/
def execConvSeqDone (hkb : Bool) (vals : List Int) (s : State) : Host.Outcome State Fault Refusal :=
  .next (if !fwOn s then s
    else match (if hkb then s.hk.runB else s.hk.runA) with
      | [] => s
      | x :: rest =>
        noteClaim (seqDone hkb x vals (setHk (fun h => if hkb then { h with runB := rest } else { h with runA := rest }) s)))

/-- HKREQCTL.GO: the measurement and the converter are those named now (R244). -/
def hkreqGoBit (smp : Nat) (s : State) : State :=
  if s.hk.reqBusy then berrRorsv s
  else
    let k := key 0x38 0x21
    let m := pl s (key 0x38 0x20)
    noteClaim (setHk (fun h => { h with reqBusy := true, reqDone := false, reqMeas := m.toNat % 128, reqB := m.msb })
      (putPlain k [putBits (pl s k) 1 3 smp] s))

/-- HKREQ_GO. -/
def execHkreqGo (smp : Fin 8) (s : State) : Host.Outcome State Fault Refusal := .next (onPage 0x38 (hkreqGoBit smp.val) s)

/-- HKREQ_DONE. -/
def execHkreqDone (v : Int) (s : State) : Host.Outcome State Fault Refusal :=
  .next (if fwOn s && s.hk.reqBusy then
      noteClaim (setHk (fun h => { h with reqBusy := false, reqDone := true, reqVal := encMeas h.reqMeas (convVal s h.reqMeas v)
                                          reqInv := if h.reqB then h.hkbInv else h.hkaInv }) s)
    else s)

/-- The nine bytes of a definition, or of the buffer. -/
def seqBytes (s : State) (k : Nat) : List Byte := (List.range 9).map (fun i => pl s (k + i))

/-- A write of HKSEQIDX loads the buffer from the named sequence (R258). -/
def hkseqidxByte (v : Byte) (s : State) : State :=
  let n := v.toNat % 32
  putPlain (key 0x38 0x11) (seqBytes s (seqKey n 0x11)) (putPlain (key 0x38 0x10) [BitVec.ofNat 8 n] s)

/-- HKSEQIDX_WRITE. -/
def execHkseqidxWrite (v : Byte) (s : State) : Host.Outcome State Fault Refusal := .next (onPage 0x38 (hkseqidxByte v) s)

/-- HKSEQCTL.STORE: ignored where a used entry is a reserved encoding. -/
def hkseqStoreBit (s : State) : State :=
  let n := rdBits (pl s) (key 0x38 0x11) 1 3 + 1
  if (List.range n).any (fun i => decide ((pl s (key 0x38 (0x12 + i))).toNat > 103)) then berrRsvenc s
  else putPlain (seqKey (rdBits (pl s) (key 0x38 0x10) 0 5) 0x11) (seqBytes s (key 0x38 0x11)) s

/-- HKSEQ_STORE. -/
def execHkseqStore (s : State) : Host.Outcome State Fault Refusal := .next (onPage 0x38 hkseqStoreBit s)

/-- HKRFLAG of a result. -/
def hkrflag (r : SeqRes) : Byte :=
  BitVec.ofNat 8 (r.done.toNat + 2 * r.unlocked.toNat + 4 * r.late.toNat + 8 * r.invalid.toNat + 16 * r.qchk.toNat + 32 * r.qbad.toNat)

/-- A read of HKRFLAG latches the result of the sequence that HKRSEL shows (R260). -/
def hkrflagLatch (s : State) : State :=
  let r : SeqRes := mget {} s.hk.res (rdBits (pl s) (key 0x3A 0x80) 0 5)
  { s with hk := { s.hk with lres := some r }, bus := { s.bus with rdata := [hkrflag r] } }

/-- HKRFLAG_READ. -/
def execHkrflagRead (s : State) : Host.Outcome State Fault Refusal := .next (onRead 0x3A hkrflagLatch s)

end Sys2Proof.Machine
end

