-- ==== Sys2Proof/Machine/Validate.lean ====
section
/-! DEFINITION. Commit validation (R171, R176, R178, R186, R187, R466 and the page rules of R80, R107, R137, R262, R281,
R312): the reason codes 0x04 to 0x10 and 0x16 over the resulting configuration. -/

namespace Sys2Proof.Machine

/-- A register that a rule names: key of its lowest byte, bytes, lowest bit and width; the rail of the failing
instance, 255 for none. -/
structure Rg where
  k : Nat
  len : Nat
  lo : Nat
  w : Nat
  rail : Nat
deriving DecidableEq, Repr

/-- What a validation finds: reason, page, offset, rail. -/
structure Found where
  rsn : Nat
  pg : Nat
  ofs : Nat
  rail : Nat
deriving DecidableEq, Repr

/-- The resulting configuration of a commit (R176). -/
def resulting (scope : Word) (s : State) : Nat → Byte := fun k => if inScope scope k then sg s k else lv s k

/-- A register's value read by g. -/
def Rg.read (g : Nat → Byte) (r : Rg) : Nat := rdNat g r.k r.len / 2 ^ r.lo % 2 ^ r.w

/-- The register's staging value differs from its live value, in whichever of its fields (R186). -/
def Rg.differs (s : State) (r : Rg) : Bool := (List.range r.len).any (fun i => decide (sg s (r.k + i) ≠ lv s (r.k + i)))

/-- A field of one byte as a register of rail `rail`. -/
def rg1 (k lo w rail : Nat) : Rg := ⟨k, 1, lo, w, rail⟩

/-- R186's order: scope bit, then offset; page 0x22 by rail, then offset, its shared fields after its rail blocks. -/
def Rg.rank (r : Rg) : Nat :=
  let o := keyOff r.k
  ((scopeBit (keyPage r.k)).getD 15 * 65536 + (if r.k ≥ 65536 then 256 * keyIdx r.k + o else if keyPage r.k = 0x22 then 32768 + o else o)) * 256 + r.rail

/-- The register of lowest rank. -/
def lowestRg : List Rg → Option Rg
  | [] => none
  | r :: t => match lowestRg t with
    | none => some r
    | some q => if q.rank < r.rank then some q else some r

/-- The offending register among those of a failing rule (R186). -/
def offending (s : State) (scope : Word) (l : List Rg) : Option Rg :=
  let ins := l.filter (fun r => inScope scope r.k)
  let dif := ins.filter (Rg.differs s)
  lowestRg (if dif ≠ [] then dif else if ins ≠ [] then ins else l)

/-- Report a rule by its registers. -/
def foundRg (s : State) (scope : Word) (rsn : Nat) (l : List Rg) : Option Found :=
  (offending s scope l).map (fun r => ⟨rsn, keyPage r.k, keyOff r.k, r.rail⟩)

/-- A parameter failure: rail and parameter byte. The lowest rail is reported, then the lowest byte (R186). -/
def foundParam (rsn : Nat) (l : List (Nat × Nat)) : Option Found :=
  match l with
  | [] => none
  | x :: t =>
    let m := t.foldl (fun (a : Nat × Nat) b => if b.1 < a.1 ∨ (b.1 = a.1 ∧ b.2 < a.2) then b else a) x
    some ⟨rsn, 0xE0, m.2, m.1⟩

/-- Registers of a failing instance, if it fails. -/
def bad (c : Bool) (l : List Rg) : List Rg := if c then l else []

/-! 0x04 HALFPAIR (R178). -/

/-- The rail whose block holds a byte (R177, R186), 255 for none. -/
def ownerRail (g : Nat → Byte) (k : Nat) : Nat :=
  let p := keyPage k
  let o := keyOff k
  if k ≥ 65536 then keyIdx k
  else if p = 0x02 then 0
  else if 0x10 ≤ p ∧ p ≤ 0x13 then
    (let c := p - 0x10
     if o < 0x18 then 1 + c else if o < 0x28 then 5 + c else if o < 0x38 then 9 + c else if o < 0x48 then 13 + c
     else if o < 0x50 then 17 + c else 21 + c)
  else if p = 0x20 ∨ p = 0x21 then o % 32
  else if p = 0x14 ∧ o < 7 then 25 + o
  else if p = 0x14 then (let r := rdBits g (key 0x14 (0x30 + o % 16)) 0 3; if r < 7 then 25 + r else 255)
  else 255

/-- The register that a held byte belongs to. -/
def heldRg (k : Nat) : List Rg :=
  match wideField (keyPage k) (keyOff k) with
  | some f => [⟨k - (keyOff k - f.off), f.len, f.lo, f.w, 255⟩]
  | none => []

/-- The field with held bytes to report, among those on pages in scope. -/
def halfPair (scope : Word) (s : State) : Option Nat :=
  (offending s scope (((s.regs.held.filter (fun (k, _) => inScope scope k)).map (fun (k, _) => heldRg k)).flatten)).map (·.k)

/-! 0x05 ORDER (R80, R107). -/

/-- Input levels of path x. -/
def orderIn (g : Nat → Byte) (x : Nat) : List Rg :=
  let uvr := (g (key 2 (2 + x))).toNat
  let uvf := (g (key 2 (4 + x))).toNat
  let ov := (g (key 2 (6 + x))).toNat
  bad (decide (uvf ≥ uvr)) [rg1 (key 2 (2 + x)) 0 8 0, rg1 (key 2 (4 + x)) 0 8 0] ++
  bad (decide (1000 + 50 * ov ≤ 270 + 25 * uvr)) [rg1 (key 2 (6 + x)) 0 8 0, rg1 (key 2 (2 + x)) 0 8 0]

/-- Levels of MPHc. -/
def orderMph (g : Nat → Byte) (c : Nat) : List Rg :=
  let k := fun o => key (0x10 + c) o
  let r := 1 + c
  let win := (g (k 8)).toNat
  bad (decide (10 + 5 * rdBits g (k 0x0C) 0 4 ≥ 20 * (win / 8 % 8 + 1))) [rg1 (k 0x0C) 0 4 r, rg1 (k 8) 3 3 r] ++
  bad (decide (10 + 5 * rdBits g (k 0x0D) 0 4 ≥ 20 * (win % 8 + 1))) [rg1 (k 0x0D) 0 4 r, rg1 (k 8) 0 3 r] ++
  bad (decide ((g (k 0x13)).toNat ≤ (g (k 0x12)).toNat)) [rg1 (k 0x13) 0 8 r, rg1 (k 0x12) 0 8 r]

/-- ORDER. -/
def ruleOrder (g : Nat → Byte) : List Rg :=
  orderIn g 0 ++ orderIn g 1 ++ ((List.range 4).map (orderMph g)).flatten

/-! 0x06 PHASES (R80, R107). -/

/-- PHASES. -/
def rulePhases (s : State) (g : Nat → Byte) : List Rg :=
  ((List.range 5).map (fun r => bad (decide (nph g r > healthyPop g r (phOf s r)))
    [rg1 (blk r + 2) 0 2 r, rg1 (blk r + 2) 2 1 r])).flatten

/-! 0x07 RATING (R107, R137). -/

/-- The eight bucks: rail, first key of its block. -/
def bucks : List (Nat × Nat) := ((List.range 4).map (fun c => [(5 + c, blk (5 + c)), (9 + c, blk (9 + c))])).flatten

/-- Ratings of MPHc. -/
def ratingMph (g : Nat → Byte) (c : Nat) : List Rg :=
  let k := fun o => key (0x10 + c) o
  let r := 1 + c
  let st := 20 + 10 * rdBits g (k 3) 0 2
  bad (decide ((g (k 7)).toNat > 3 * st)) [rg1 (k 7) 0 8 r, rg1 (k 3) 0 2 r] ++
  bad (decide (rdNat g (k 9) 2 > nph g r * st * 100)) [⟨k 9, 2, 0, 16, r⟩, rg1 (k 2) 0 2 r, rg1 (k 3) 0 2 r]

/-- RATING. -/
def ruleRating (g : Nat → Byte) : List Rg :=
  ((List.range 4).map (ratingMph g)).flatten ++
  (bucks.map (fun (r, b) => bad (decide (rdNat g (b + 7) 2 > 1000 + 250 * rdBits g (b + 5) 0 4))
    [⟨b + 7, 2, 0, 16, r⟩, rg1 (b + 5) 0 4 r])).flatten

/-! 0x08 TIMING (R137). -/

/-- On-time and off-time of a buck, in 0.1 mV and 100 kHz. -/
def timingBuck (g : Nat → Byte) (r b : Nat) : List Rg :=
  let vmid := vset g 0
  let v := vset g r
  let f := 4 + rdBits g (b + 1) 0 5
  bad (decide (1000 * v < 8 * vmid * f ∨ 1000 * (vmid - v) < 13 * vmid * f))
    [rg1 b 0 8 r, rg1 (b + 1) 0 5 r, rg1 (key 2 0x10) 0 8 r]

/-- TIMING. -/
def ruleTiming (g : Nat → Byte) : List Rg :=
  (bucks.map (fun (r, b) => timingBuck g r b)).flatten ++
  ((List.range 4).map (fun c =>
    let k := fun o => key (0x10 + c) o
    bad (decide (4 * (rdBits g (k 0x51) 0 4 + 1) * (100 + 10 * (g (k 0x50)).toNat) > 10000))
      [rg1 (k 0x51) 0 4 (21 + c), rg1 (k 0x50) 0 8 (21 + c)])).flatten

/-! 0x09 LIVECHG (R107, R137). -/

/-- Fields that may not change on an enabled rail. -/
def frozenFields : List Rg :=
  ((List.range 4).map (fun c =>
    let k := fun o => key (0x10 + c) o
    [rg1 (k 2) 2 1 (1 + c), rg1 (k 3) 0 2 (1 + c), rg1 (k 3) 2 2 (1 + c), rg1 (k 4) 0 8 (1 + c),
     rg1 (k 0x1A) 2 2 (5 + c), rg1 (k 0x1A) 4 2 (5 + c), rg1 (k 0x2A) 2 2 (9 + c), rg1 (k 0x2A) 4 2 (9 + c),
     rg1 (k 0x48) 3 1 (17 + c), rg1 (k 0x52) 2 1 (21 + c)])).flatten

/-- LIVECHG; a rail that the same commit switches off still counts as enabled (DESIGN CHOICE, log entry 21). -/
def ruleLive (s : State) (g : Nat → Byte) : List Rg :=
  frozenFields.filter (fun r => has s.rl.en r.rail && decide (r.read g ≠ r.read (lv s)))

/-! 0x0A MODECOMB (R137). -/

/-- MODECOMB. -/
def ruleMode (g : Nat → Byte) : List Rg :=
  ((List.range 4).map (fun c =>
    let k := key (0x10 + c) 0x52
    bad (decide (rdBits g k 0 2 = 1) && !(g k).getLsbD 2) [rg1 k 0 2 (21 + c), rg1 k 2 1 (21 + c)])).flatten

/-! 0x0B GRAPH and 0x0C PARENT (R171, R187). -/

/-- The valid parent fields of a rail: key and parent. -/
def parentFields (g : Nat → Byte) (r : Nat) : List (Nat × Nat) :=
  [key 0x21 r, key 0x21 (0x20 + r)].filterMap (fun k => if (g k).msb then some (k, (g k).toNat % 32) else none)

/-- GRAPH. -/
def ruleGraph (g : Nat → Byte) : List Rg :=
  ((List.range 32).map (fun r =>
    let ps := parentFields g r
    (if ps ≠ [] ∧ has (ancestors g r) r then ps.map (fun (k, _) => rg1 k 0 8 r) else []) ++
    (ps.filter (fun (_, p) => !parentOk r p)).map (fun (k, _) => rg1 k 0 8 r))).flatten

/-- PARENT. -/
def ruleParent (s : State) (on off : Mask) (g : Nat → Byte) : List Rg :=
  ((List.range 32).map (fun r =>
    let active := !has off r && (has s.rl.en r || has on r)
    ((parentFields g r).map (fun (k, p) =>
      bad (inseq g r && !inseq g p) [rg1 k 0 8 r, rg1 (key 0x20 (0x40 + r)) 0 1 r, rg1 (key 0x20 (0x40 + p)) 0 1 r] ++
      bad (active && !(has s.rl.en p && has s.rl.pg p) && !has on p) [rg1 k 0 8 r])).flatten)).flatten

/-! 0x0D ATTR (R162, R163, R170, R466). -/

/-- RSTMAPc's rails outside channel c, PRE and the EXT rails. -/
def strayRails (g : Nat → Byte) (c : Nat) : List Nat :=
  (rails (rstmap g c)).filter (fun r => !(decide (r = 0 ∨ r ≥ 25) || inChan r c))

/-- Reserved encodings left in the bytes listed in a map; an unlisted byte holds its reset value, which is legal. -/
def reservedLeft (g : Nat → Byte) (keys : List Nat) : List Rg :=
  (keys.map (fun k =>
    ((fieldsOf (keyPage k)).filter (fun f => decide (f.off ≤ keyOff k ∧ keyOff k < f.off + f.len))).filterMap (fun f =>
      let r : Rg := ⟨k - (keyOff k - f.off), f.len, f.lo, f.w, ownerRail g k⟩
      if f.legal (r.read g) then none else some r))).flatten

/-- Enabled MON inputs whose set voltage is outside its range. -/
def badMons (g : Nat → Byte) : List Nat :=
  (List.range 16).filter (fun m => (g (key 0x14 (0x30 + m))).getLsbD 3 &&
    !(decide (14 ≤ (g (key 0x14 (0x10 + m))).toNat) && decide ((g (key 0x14 (0x10 + m))).toNat ≤ 240)))

/-- ATTR. -/
def ruleAttr (s : State) (g : Nat → Byte) : List Rg :=
  (((List.range 32).filter (fun r => prot g r && !(decide (rk r = .pre) || decide (rk r = .mph) || decide (rk r = .ldo)))).map
    (fun r => rg1 (key 0x20 (0x40 + r)) 1 1 r)) ++
  ((List.range 4).filterMap (fun c => match strayRails g c with
    | r :: _ => some ⟨key 0x22 (0x20 + 4 * c), 4, 0, 32, r⟩
    | [] => none)) ++
  (badMons g).flatMap (fun m =>
    [rg1 (key 0x14 (0x10 + m)) 0 8 (ownerRail g (key 0x14 (0x10 + m))),
     rg1 (key 0x14 (0x30 + m)) 3 1 (ownerRail g (key 0x14 (0x10 + m)))]) ++
  reservedLeft g ((s.regs.stg.map (·.1)) ++ (s.regs.live.map (·.1)))

/-! 0x0E NOPATH, 0x0F HOLD, 0x10 RAILACT (R80, R158, R187). -/

/-- NOPATH; whether rail 0 is enabled counts the commit's own rail actions as done (DESIGN CHOICE, log entry 21). -/
def rulePath (s : State) (on off : Mask) (g : Nat → Byte) : List Rg :=
  bad (has ((s.rl.en &&& ~~~off) ||| on) 0 && !(g (key 2 0)).getLsbD 0 && !(g (key 2 0)).getLsbD 1)
    [rg1 (key 2 0) 0 1 0, rg1 (key 2 0) 1 1 0]

/-- HOLD: RAILON names a held rail. -/
def ruleHold (s : State) (on : Mask) : List (Nat × Nat) :=
  ((rails on).filter (heldRail s)).map (fun r => (r, 6 + r / 8))

/-- RAILACT. -/
def ruleAct (s : State) (on off : Mask) (g : Nat → Byte) : List (Nat × Nat) :=
  ((rails on).filter (fun r => has off r || has s.rl.en r)).map (fun r => (r, 6 + r / 8)) ++
  ((rails off).filter (fun r => !has s.rl.en r)).map (fun r => (r, 10 + r / 8)) ++
  ((rails off).map (fun r =>
    (rails (dependants g r &&& s.rl.en &&& ~~~off)).map (fun d => (d, 10 + r / 8)))).flatten

/-! 0x16 PAGERULE (R262, R281, R312). -/

/-- Page 0x3C. -/
def page3C (g : Nat → Byte) : List Rg :=
  let b := fun o => (g (key 0x3C o)).toNat
  bad (decide (b 1 ≤ b 0)) [rg1 (key 0x3C 0) 0 8 255, rg1 (key 0x3C 1) 0 8 255] ++
  ((List.range 6).map (fun n =>
    let c := g (key 0x3C (0x18 + n))
    bad (c.getLsbD 3 && decide (b (0x28 + n) ≤ b (0x20 + n)))
      [rg1 (key 0x3C (0x18 + n)) 3 1 255, rg1 (key 0x3C (0x20 + n)) 0 8 255, rg1 (key 0x3C (0x28 + n)) 0 8 255] ++
    bad (decide (c.toNat / 16 % 8 = n)) [rg1 (key 0x3C (0x18 + n)) 4 3 255])).flatten ++
  bad (decide (b 4 ≠ 0 ∧ b 4 > b 2)) [rg1 (key 0x3C 2) 0 8 255, rg1 (key 0x3C 4) 0 8 255]

/-- Page 0x40. -/
def page40 (s : State) (g : Nat → Byte) : List Rg :=
  let k := key 0x40 0
  bad (!(g k).getLsbD 0 && (s.plt.s2 || decide (s.plt.role = 1 ∨ s.plt.role = 2))) [rg1 k 0 1 255] ++
  bad (decide ((g k).getLsbD 1 ≠ (lv s k).getLsbD 1 ∧ s.plt.pp ≠ 0)) [rg1 k 1 1 255]

/-- Page 0x44. -/
def page44 (s : State) (g : Nat → Byte) : List Rg :=
  let b := fun o => g (key 0x44 o)
  let cell := rdBits g (key 0x44 0) 1 2
  let charging := decide (1 ≤ s.chg.phase ∧ s.chg.phase ≤ 4)
  bad ((decide (cell = 1) && decide ((b 2).toNat > 40)) || (decide (cell = 2) && decide ((b 2).toNat > 25)))
    [rg1 (key 0x44 0) 1 2 255, rg1 (key 0x44 2) 0 8 255] ++
  bad (!(decide ((b 6).toInt < (b 7).toInt) && decide ((b 7).toInt < (b 8).toInt) && decide ((b 8).toInt < (b 9).toInt)))
    ((List.range 4).map (fun i => rg1 (key 0x44 (6 + i)) 0 8 255)) ++
  bad (charging && decide (cell ≠ rdBits (lv s) (key 0x44 0) 1 2)) [rg1 (key 0x44 0) 1 2 255] ++
  bad (charging && decide (b 15 ≠ lv s (key 0x44 15))) [rg1 (key 0x44 15) 0 8 255]

/-! The whole of R186. -/

/-- The rules tested again at the apply moment (R189): PHASES, PARENT, NOPATH, HOLD, RAILACT. -/
def applyCheck (c : Commit) (s : State) : Option Found :=
  let g := resulting c.scope s
  let f := foundRg s c.scope
  f 0x06 (rulePhases s g) <|> f 0x0C (ruleParent s c.on c.off g) <|> f 0x0E (rulePath s c.on c.off g) <|>
  foundParam 0x0F (ruleHold s c.on) <|> foundParam 0x10 (ruleAct s c.on c.off g)

/-- The first failing rule of a commit, in ascending order of reason code (R186, R187). -/
def validate (c : Commit) (s : State) : Option Found :=
  let g := resulting c.scope s
  let f := foundRg s c.scope
  (c.half.map (fun k => ⟨0x04, keyPage k, keyOff k, ownerRail g k⟩)) <|>
  f 0x05 (ruleOrder g) <|> f 0x06 (rulePhases s g) <|> f 0x07 (ruleRating g) <|> f 0x08 (ruleTiming g) <|>
  f 0x09 (ruleLive s g) <|> f 0x0A (ruleMode g) <|> f 0x0B (ruleGraph g) <|> f 0x0C (ruleParent s c.on c.off g) <|>
  f 0x0D (ruleAttr s g) <|> f 0x0E (rulePath s c.on c.off g) <|> foundParam 0x0F (ruleHold s c.on) <|>
  foundParam 0x10 (ruleAct s c.on c.off g) <|> f 0x16 (page3C g ++ page40 s g ++ page44 s g)

end Sys2Proof.Machine
end

