-- ==== Sys2Proof/Machine/Txn.lean ====
section
/-! DEFINITION. Transactions (07_transactions.md, R174 to R202): acceptance, the end of validation, the apply moment and
the apply step, aborts and reverts. -/

namespace Sys2Proof.Machine

/-- The PLL is locked. -/
def pllLocked (s : State) : Bool := decide (s.cyc.pll = .lock)

/-- MODE.WHEN. -/
def Commit.when (c : Commit) : Nat := c.mode.toNat % 4
/-- MODE.REQLOCK. -/
def Commit.reqlock (c : Commit) : Bool := c.mode.getLsbD 2

/-- TXNSTAT.LOCKWAIT (R184). -/
def lockwait (s : State) : Bool :=
  match s.txn.cur with
  | some c => c.pending && c.reqlock && !pllLocked s
  | none => false

/-! Acceptance (R180 to R182). -/

/-- A scope that names a reserved bit. -/
def scopeBad (w : Word) : Bool := decide (w.toNat / 4096 ≠ 0)

/-- A scope that names no page: its twelve page bits are 0. -/
def scopeEmpty (w : Word) : Bool := decide (w.toNat % 4096 = 0)

/-- Parameters of TXN_COMMIT and TXN_VALIDATE: SCOPE, MODE, ANGLE, DEADLINE, RAILON, RAILOFF. -/
def commitOf (s : State) (seq : Byte) (ps : List Byte) : Commit :=
  let b := fun i => ps.getD i 0
  let dl := leNat [b 4, b 5]
  let scope := BitVec.ofNat 16 (leNat [b 0, b 1])
  { seq := seq, scope := scope, mode := b 2, angle := b 3, due := s.clk.now + ms dl, dlms := dl,
    on := BitVec.ofNat 32 (leNat ((ps.drop 6).take 4)), off := BitVec.ofNat 32 (leNat ((ps.drop 10).take 4)),
    pending := false, abort := false, late := false, slot := true, half := halfPair scope s }

/-- The commit is accepted in this state (R181). -/
def commitState (ps : List Byte) (s : State) : Bool :=
  let c := commitOf s 0 ps
  decide (s.glob.st = .run) || decide (s.glob.st = .standby) ||
  (decide (s.glob.st = .safe) && decide (ps.length = 14) && decide (c.scope ≠ 0) && decide (c.scope &&& 0x0E00 = c.scope) &&
   decide (c.on = 0 ∧ c.off = 0))

/-- A commit is being validated. -/
def validating (s : State) : Bool := match s.txn.cur with | some c => !c.pending | none => false

/-- The first fault of the parameters: the parameter byte reported (R180). -/
def paramFault (ps : List Byte) : Option Nat :=
  let scope := BitVec.ofNat 16 (leNat (ps.take 2))
  let m := (ps.getD 2 0).toNat
  if ps.length ≠ 14 then some (min ps.length 14)
  else if scopeEmpty scope then some 0
  else if scopeBad scope then some 1
  else if m % 4 = 3 ∨ m / 8 ≠ 0 then some 2 else none

/-- A refusal under R180 to R182: REJECTED, no number, and nothing on page 0x28. R201 names no command: the model raises REJECTED for
every command of this chapter that is rejected, a TXN_VALIDATE, TXN_REVERT or TXN_ABORT too (DESIGN CHOICE, log entry 21). -/
def refuse (rsn pg ofs : Byte) (s : State) : State := rejectTxn rsn (txnRes 0 0x10 rsn pg ofs 0xFF 0 0) s

/-- The checks STATE, BUSY, PARAM, in this order, then `body`. -/
def commitChecks (ps : List Byte) (busy : Bool) (body : State → State) (s : State) : State :=
  if !commitState ps s then refuse 0x01 0 0 s
  else if busy then refuse 0x02 0 0 s
  else match paramFault ps with
    | some o => refuse 0x03 0xE0 (BitVec.ofNat 8 o) s
    | none => body s

/-- A commit is numbered and begins to validate (R182, R184, R199). An apply moment still queued is that of an ended commit and lapses
(R183). -/
def startCommit (c : Commit) (s : State) : State :=
  let t := s.txn
  let s := { s with pending := s.pending.filter (fun e => decide (e ≠ .commitApply))
                    txn := { t with cur := some c, seq := c.seq, res := 1, rsn := 0, epg := 0, eofs := 0, erail := 0xFF, pre := 0,
                                    unlocked := false, applychk := false } }
  if c.reqlock ∧ c.when ≠ 2 ∧ c.dlms ≠ 0 then arm (ms c.dlms) .commitDeadline s else s

/-- TXN_COMMIT. -/
def execTxnCommit (p : Packet) (s : State) : Host.Outcome State Fault Refusal :=
  .next (packet 0x10 false p (fun s =>
    commitChecks p.params s.txn.cur.isSome (fun s =>
      let c := commitOf s (s.txn.seq + 1) p.params
      let s := startCommit c s
      slotBusy { s with bus := { s.bus with cres := [c.seq] } }) s) s)

/-- TXN_VALIDATE (R196). -/
def execTxnValidate (p : Packet) (s : State) : Host.Outcome State Fault Refusal :=
  .next (packet 0x12 false p (fun s =>
    commitChecks p.params (validating s) (fun s =>
      slotBusy { s with txn := { s.txn with val := some (commitOf s 0 p.params) }, bus := { s.bus with cres := [0] } }) s) s)

/-! What the apply step means to the blocks (R188). -/

/-- How long the reference takes for d × 0.1 mV (R72, R86, R111, R121). -/
def rampTime (s : State) (r d : Nat) : Nat :=
  match rk r with
  | .pre => ssTime (lv s) 0 * d / max 1 (vset (lv s) 0)
  | .mph => slewTime (rdBits (lv s) (blk r + 5) 0 3) d
  | .ldo => slewTime 2 d
  | _ => slewTime (rdBits (lv s) (blk r + 4) 0 3) d

/-- A committed set voltage reaches an enabled rail whose reference moves or stands. -/
def redirect (old : Nat → Byte) (s : State) (r : Nat) : State :=
  let v1 := vset (lv s) r
  if v1 = vset old r || !has s.rl.en r || stopped s r || (decide (r = 0) && s.inp.gate) ||
     (decide (rk r = .mph) && armed (.stageEnableDelay (Fin.ofNat 4 (ci r))) s) then s
  else
    let v0 := refNow s r
    let t := rampTime s r (max v0 v1 - min v0 v1)
    arm t (.rampEnd (railF r))
      { s with rl := { s.rl with ss := s.rl.ss ||| bit r, ramps := mput {} s.rl.ramps r ⟨v0, v1, s.clk.now, s.clk.now + t, if preBiased s r then (mget {} s.rl.ramps r).pre else 0⟩ } }

/-- Shedding ends where NPH or SHEDEN no longer lets it be (R77, R91). -/
def shedFollow (s : State) : State :=
  { s with rl := { s.rl with shed := s.rl.shed &&& maskOf (fun r => decide (r < 5) && decide (nph (lv s) r = 2) && sheden (lv s) r) } }

/-- One path after a change of INCFG: a cleared enable ends qualification and opens it (R62). -/
def pathFollow (old : Nat → Byte) (s : State) (x : Path) : State :=
  if (old (key 2 0)).getLsbD (px x) && !pathEn s x then
    openPath x .enable none (setPath x { pathOf s x with qual := false } s)
  else s

/-- The paths after a change of INCFG (R62, R63). -/
def pathsFollow (old : Nat → Byte) (s : State) : State :=
  if old (key 2 0) = lv s (key 2 0) then s
  else
    let s := pathFollow old (pathFollow old s .a) .b
    match preferred s with
    | none => tryClose .b none (tryClose .a none s)
    | some x =>
      let s := tryClose x none s
      if (pathOf s x).closed then (if armed (.preferHandback x) s then s else openPath (other x) .gaveWay none s)
      else tryClose (other x) none s

/-- Every block acts on its new live values (R188). -/
def blocksFollow (old : Nat → Byte) (scope : Word) (s : State) : State :=
  let s := if vset old 0 = vset (lv s) 0 then s
    else { s with inp := { s.inp with mode := preMode (vset (lv s) 0 / 10) s.inp.node s.inp.mode } }
  let s := armSlow .b (armSlow .a s)
  let s := pathsFollow old (shedFollow ((List.range 17).foldl (redirect old) s))
  let s := if scope.getLsbD 10 then pilotFollow s else s
  if scope.getLsbD 11 then chargerFollow old s else s

/-- The listed keys take the bytes that `g` gives them. -/
def takeKeys (ks : List Nat) (g : Nat → Byte) (m : RegMap) : RegMap :=
  ks.foldl (fun m k => rput m k (g k)) (m.filter (fun x => !ks.contains x.1))

/-- Live takes staging on the pages in scope. -/
def copyLive (scope : Word) (s : State) : State :=
  { s with regs := { s.regs with live := takeKeys ((diffKeys s).filter (inScope scope)) (sg s) s.regs.live } }

/-- The apply step (R188): live := staging, rails off as a set, blocks, rails on as a set under R144. A rail of RAILOFF whose
ATTR the same commit changes goes off by the new QUENCH, and a rail of RAILON that is in its retry wait is enabled with RETRYWAIT kept until
RXSPACE ends (DESIGN CHOICE, log entry 21). What waits on a rail of RAILOFF is cancelled (R160). -/
def applyStep (c : Commit) (s : State) : State :=
  let old := lv s
  let s := copyLive c.scope (noteSense .b s.inp.b.sense (noteSense .a s.inp.a.sense s))
  let s := if c.off = 0 then s else switchOffSet c.off c.off (cancelPending c.off s)
  let s := blocksFollow old c.scope s
  settle (if c.on = 0 then s else restartSet c.on s)

/-- A commit is rejected with what a rule found. -/
def rejectCommit (c : Commit) (f : Found) (chk : Bool) (s : State) : State :=
  endCommit c ⟨4, BitVec.ofNat 8 f.rsn, BitVec.ofNat 8 f.pg, BitVec.ofNat 8 f.ofs, BitVec.ofNat 8 f.rail, 0, chk⟩ s

/-- NOLOCK (R184). -/
def noLock (c : Commit) (s : State) : State := rejectCommit c ⟨0x11, 0, 0, 255⟩ false s

/-- The commit is applied (R185, R190, R199, R201, R202). -/
def applyCommit (c : Commit) (s : State) : State :=
  match applyCheck c s with
  | some f => rejectCommit c f true s
  | none =>
    let unl := !pllLocked s
    let ang := BitVec.ofNat 8 (angleNow s)
    let cyc := s.cyc.cnt
    let s := disarm .commitDeadline { s with txn := { s.txn with cur := none } }
    let s := applyStep c s
    let s := { s with txn := { s.txn with cur := none, res := 3, appl := c.seq, unlocked := unl, applycyc := cyc, applyang := ang } }
    let s := logOther 1 0x3FF (BitVec.ofNat 32 (c.seq.toNat + 256 * 3 + 16777216 * 255)) s
    let s := raiseIf unl (16 * 61 + 1) (raiseG 61 0 s)
    if c.slot then slotEnd 3 0 (txnRes c.seq (if unl then 1 else 0) 0 0 0 0xFF 0 ang) s
    else if c.abort then rejectTxn 0x15 (txnRes s.txn.seq 0x10 0x15 0 0 0xFF 0 0) s
    else s

/-- An eligible moment of R183 has come for the pending commit: it applies, waits for lock, or ends with NOLOCK (R184). -/
def applyMoment (s : State) : State :=
  match s.txn.cur with
  | none => s
  | some c =>
    if !c.pending || (decide (c.when = 2) && decide (s.clk.now < c.due)) then s
    else if !c.reqlock then applyCommit c s
    else if c.when ≠ 2 ∧ c.dlms ≠ 0 ∧ s.clk.now ≥ c.due then noLock c s
    else if pllLocked s then applyCommit c s
    else if c.when = 2 ∨ c.dlms = 0 then noLock c s
    else s

/-- This is a moment of R183 for the pending commit, were it an immediate one or one at an angle: a commit at an angle has its moments in
that angle alone, one at a commit point at COMMIT alone. -/
def momentHere (s : State) : Bool :=
  match s.txn.cur with
  | some c => decide (c.when = 0) || (decide (c.when = 1) && decide (angleNow s = c.angle.toNat))
  | none => false

/-- COMMIT_APPLY: the apply moment of a commit that is immediate or at an angle. -/
def execCommitApply (s : State) : Host.Outcome State Fault Refusal :=
  .next (if anvilOn s && momentHere s then applyMoment s else s)

/-- COMMIT: a commit point (R46). -/
def execCommit (s : State) : Host.Outcome State Fault Refusal :=
  .next (match s.txn.cur with
    | some c => if anvilOn s && decide (c.when = 2) then applyMoment s else s
    | none => s)

/-! The end of validation (R186, R195, R196). -/

/-- A commit passes: it is pending; an immediate one meets its moment at once (R183, R184). -/
def passCommit (c : Commit) (s : State) : State :=
  let s := { s with txn := { s.txn with cur := some { c with pending := true }, res := 2 } }
  if c.when = 0 ∧ (!c.reqlock ∨ pllLocked s ∨ c.dlms = 0) then enqueueOnce .commitApply s else s

/-- A TXN_VALIDATE ends with what the rules find (R196). -/
def endValidate (d : Commit) (s : State) : State :=
  let s := { s with txn := { s.txn with val := none } }
  match validate d s with
  | some f => rejectTxn (BitVec.ofNat 8 f.rsn)
      (txnRes 0 0x10 (BitVec.ofNat 8 f.rsn) (BitVec.ofNat 8 f.pg) (BitVec.ofNat 8 f.ofs) (BitVec.ofNat 8 f.rail) 0 0) s
  | none => slotEnd 3 0 (txnRes 0 2 0 0 0 0xFF 0 0) s

/-- The validation of a commit ends (R184, R186, R195). -/
def endValidation (c : Commit) (s : State) : State :=
  if c.abort then endCommit c ⟨6, 0x13, 0, 0, 0xFF, 0, false⟩ s
  else match validate c s with
    | some f => rejectCommit c f false s
    | none => if c.late then noLock c s else passCommit c s

/-- VALIDATION_END. -/
def execValidationEnd (s : State) : Host.Outcome State Fault Refusal :=
  .next (if !fwOn s then s
    else match s.txn.cur, s.txn.val with
    | some c, v => if !c.pending then endValidation c s else (match v with | some d => endValidate d s | none => s)
    | none, some d => endValidate d s
    | none, none => s)

/-- COMMIT_DEADLINE (R184). -/
def execCommitDeadline (s : State) : Host.Outcome State Fault Refusal :=
  .next (
    let s := disarm .commitDeadline s
    match s.txn.cur with
    | some c =>
      if !c.reqlock || decide (c.when = 2) || decide (c.dlms = 0) then s
      else if c.pending then noLock c s
      else { s with txn := { s.txn with cur := some { c with late := true } } }
    | none => s)

/-- TXN_ABORT's body (R195). One with parameters is rejected with PARAM, whose result bytes are those of a refusal under R180
(R199 names no sequence number for it; DESIGN CHOICE, log entry 21). -/
def abortBody (p : Packet) (s : State) : State :=
  if p.params ≠ [] then refuse 0x03 0xE0 0 s
  else match s.txn.cur with
    | none => rejectTxn 0x15 (txnRes s.txn.seq 0x10 0x15 0 0 0xFF 0 0) s
    | some c =>
      let c := { c with abort := true, slot := false }
      if c.pending then endCommit c ⟨6, 0x13, 0, 0, 0xFF, 0, false⟩ s
      else slotBusy { s with txn := { s.txn with cur := some c }, bus := { s.bus with cres := [c.seq] } }

/-- TXN_ABORT. -/
def execTxnAbort (p : Packet) (s : State) : Host.Outcome State Fault Refusal := .next (packet 0x11 false p (abortBody p) s)

/-- Staging takes live on the pages in scope (R189). -/
def revertPages (scope : Word) (s : State) : State :=
  { s with regs := { s.regs with stg := takeKeys ((diffKeys s).filter (inScope scope)) (lv s) s.regs.stg } }

/-- TXN_REVERT's body (R189). -/
def revertBody (p : Packet) (s : State) : State :=
  let scope := BitVec.ofNat 16 (leNat p.params)
  if validating s then rejectTxn 0x02 [] s
  else if p.params.length ≠ 2 ∨ scopeEmpty scope then refuse 0x03 0xE0 0 s
  else if scopeBad scope then refuse 0x03 0xE0 1 s
  else match s.txn.cur with
    | some c => if scope &&& c.scope ≠ 0 then rejectTxn 0x02 [] s else doneWith [] (revertPages scope s)
    | none => doneWith [] (revertPages scope s)

/-- TXN_REVERT. -/
def execTxnRevert (p : Packet) (s : State) : Host.Outcome State Fault Refusal := .next (packet 0x13 false p (revertBody p) s)

/-- The boot commit (R197): every page, immediate, number 1; without it the live copy keeps its reset values. -/
def bootCommit (s : State) : State :=
  let c := { commitOf s 1 [0xFF, 0x0F] with slot := false, half := none }
  let s := startCommit c s
  match validate c s with
  | some f => raiseG 61 7 (rejectCommit c f false s)
  | none => applyCommit { c with pending := true } s

end Sys2Proof.Machine
end

