-- ==== Sys2Proof/Machine/Registers.lean ====
section
/-! DEFINITION. What a register byte reads (the register tables of each chapter; R8, R28, R348): fields of their own,
and bytes composed from the state. -/

namespace Sys2Proof.Machine

/-- Byte o of a number whose lowest byte is at offset b. -/
def nb (n b o : Nat) : Byte := BitVec.ofNat 8 (n / 256 ^ (o - b))
/-- Bits in a byte, each with its place. -/
def bitsOf (l : List (Bool × Nat)) : Nat := l.foldl (fun a (b, i) => a + (if b then 2 ^ i else 0)) 0

/-! Page 0x00 (R27) and the summary word of R343. -/

/-- A byte of page 0x00. -/
def read00 (s : State) (o : Nat) : Byte :=
  if o = 0 then stateByte s
  else if o = 2 ∨ o = 3 then nb s.glob.rstcause.toNat 2 o
  else if o = 4 then s.glob.buserr.setWidth 8
  else if o = 5 then by8 s.glob.floorcause
  else if 8 ≤ o ∧ o < 12 then nb s.rl.en.toNat 8 o
  else if 12 ≤ o ∧ o < 16 then nb s.rl.pg.toNat 12 o
  else 0

/-- STATUS_SUM (R343). -/
def statusSum (s : State) : Nat :=
  stNum s.glob.st + bitsOf [(s.glob.floor, 3), (s.glob.fwup, 4), (decide (intsum s ≠ 0), 5), (decide (s.glob.buserr ≠ 0), 6),
    (decide (s.glob.rstcause ≠ 0), 7), (decide (s.safe.cause ≠ 0), 8), (decide (s.seq.offhold ≠ 0), 9),
    (decide (s.cyc.pll = .lock), 10), (s.txn.cur.isSome, 11), (decide (s.bus.cstat = 1 ∨ s.bus.cstat = 2), 12),
    (s.safe.snapHeld, 13), (!s.regs.held.isEmpty, 14), (s.ds.failed, 15)]

/-! Page 0x01 (R60). -/

/-- The tracked frequency in 1/16 Hz. -/
def cycfreq (s : State) : Nat :=
  if s.cyc.pll = .free then s.cyc.nom else pulseUnits s / max 1 s.cyc.period / 256

/-- A byte of page 0x01. -/
def read01 (s : State) (o : Nat) : Byte :=
  let c := s.cyc
  if o = 0x04 then pllstat s
  else if o = 0x09 then quietstat s
  else if o = 0x0A ∨ o = 0x0B then nb (cycfreq s) 0x0A o
  else if 0x10 ≤ o ∧ o < 0x14 then nb c.lcnt.toNat 0x10 o
  else if o = 0x14 then by8 (c.lfine / 16)
  else if o = 0x15 ∨ o = 0x16 then nb c.lfine 0x15 o
  else if o = 0x17 then by8 (pllNum c.lpll)
  else if o = 0x18 ∨ o = 0x19 then nb c.pherr.toNat 0x18 o
  else if 0x21 ≤ o ∧ o ≤ 0x24 then by8 (entByte (schEntry s) (o - 0x21))
  else if o = 0x26 then by8 (c.schSt + bitsOf [(c.actB, 2)] + 8 * c.reason)
  else if o = 0x27 then by8 c.errIdx
  else if o = 0x28 then by8 ((actBank s).filter (fun (_, e) => decide (entAction e ≠ 0))).length
  else pl s (key 1 o)

/-! Status of the rails (R80, R108, R138, R166, R170). -/

/-- INFLTx. -/
def inflt (p : PathSt) : Byte := p.flt.setWidth 8

/-- A status byte of page 0x02. -/
def read02 (s : State) (o : Nat) : Byte :=
  let i := s.inp
  let p := phOf s 0
  if o = 0x60 then by8 (bitsOf [(i.a.closed, 0), (i.b.closed, 1), (i.a.cond, 2), (i.b.cond, 3), (i.inloss, 4), (i.inlossuv, 5)])
  else if o = 0x61 then inflt i.a else if o = 0x62 then inflt i.b
  else if o = 0x64 then by8 (railMode s 0 + 4 * (phact s 0).toNat + bitsOf [(i.plim, 5), (has s.rl.clamp 0, 6), (has s.rl.clim 0, 7)])
  else if o = 0x65 then by8 (p.fail.toNat + 8 * p.spare.toNat)
  else if o = 0x66 then by8 (slowPct s .a) else if o = 0x67 then by8 (slowPct s .b)
  else 0

/-- BKxSTAT. -/
def bkstat (s : State) (r : Nat) : Byte :=
  by8 (railMode s r + bitsOf [(has s.rl.clim r, 2), (has s.rl.clamp r, 3), (s.bk.skip.getLsbD (bkIdx r), 4), (s.bk.hot.getLsbD (bkIdx r), 5)])

/-- A status byte of channel c's page. -/
def read10 (s : State) (c o : Nat) : Byte :=
  let m := 1 + c
  let p := phOf s m
  let l := ldoOf s c
  if o = 0x60 then by8 (railMode s m + bitsOf [(s.bk.strk.getLsbD c, 2), (s.bk.brk.getLsbD c, 3), (has s.rl.clim m, 4),
      (has s.rl.clamp m, 5), (has s.rl.shed m, 6), (s.bk.stgflt.getLsbD c, 7)])
  else if o = 0x61 then by8 (p.fail.toNat + 8 * p.spare.toNat)
  else if o = 0x62 then by8 ((phact s m).toNat + 8 * p.cause)
  else if o = 0x64 ∨ o = 0x65 then nb (mget 0 s.bk.strkn c).toNat 0x64 o
  else if o = 0x68 then bkstat s (5 + c) else if o = 0x69 then bkstat s (9 + c)
  else if o = 0x6A then by8 (mget 5 s.bk.band c)
  else if o = 0x6B then by8 (railMode s (13 + c) + bitsOf [(has s.rl.clamp (13 + c), 2), (l.pass1, 3), (l.p0f, 4), (l.p1f, 5), (l.drop, 6)])
  else if o = 0x6C then by8 l.pcause
  else if o = 0x6D then by8 (railMode s (17 + c) + bitsOf [(has s.rl.clamp (17 + c), 2), (s.bk.revblk.getLsbD c, 3)])
  else if o = 0x6E then by8 (railMode s (21 + c) + bitsOf [(has s.rl.clim (21 + c), 2), (has s.safe.held (21 + c), 3),
      (has s.rl.en (21 + c) && s.bk.vlow.getLsbD c, 4)])
  else if o = 0x70 ∨ o = 0x71 then nb (mget 0 s.bk.snspk c).toNat 0x70 o
  else 0

/-- A status byte of page 0x14; MONOK shows the enabled inputs. -/
def read14 (s : State) (o : Nat) : Byte :=
  let on := (List.range 16).foldl (fun (w : Word) m => setBit w m ((lv s (key 0x14 (0x30 + m))).getLsbD 3)) 0
  if o = 0x60 ∨ o = 0x61 then nb (s.seq.monok &&& on).toNat 0x60 o
  else if o = 0x62 ∨ o = 0x63 then nb s.seq.monuvl.toNat 0x62 o
  else if o = 0x64 ∨ o = 0x65 then nb s.seq.monovl.toNat 0x64 o
  else if o = 0x66 then by8 (s.rl.en.toNat / 2 ^ 25)
  else 0

/-- SEQTICKS (R166). -/
def seqticks (s : State) : Nat :=
  match s.seq.t0 with
  | some t => min 0xFFFF ((s.clk.now - t) / tickLen s.seq.tick)
  | none => 0

/-- A status byte of page 0x20. -/
def read20 (s : State) (o : Nat) : Byte :=
  let q := s.seq
  if o = 0x60 then by8 (q.phase + bitsOf [(q.resumed, 3)])
  else if o = 0x62 ∨ o = 0x63 then nb (seqticks s) 0x62 o
  else if 0x64 ≤ o ∧ o < 0x68 then nb q.offhold.toNat 0x64 o
  else if 0x68 ≤ o ∧ o < 0x6C then nb (dephold s).toNat 0x68 o
  else if 0x6C ≤ o ∧ o < 0x70 then nb q.retryWait.toNat 0x6C o
  else if o = 0x70 then by8 (q.lastRail + 32 * q.lastCode)
  else if o = 0x71 then by8 q.lastKind
  else 0

/-- A byte of page 0x23 (R169). -/
def read23 (s : State) (o : Nat) : Byte :=
  let r := cntsel s
  if 0x10 ≤ o ∧ o < 0x30 then nb (mget 0 s.seq.cnt (16 * r + (o - 0x10) / 2)).toNat (o - o % 2) o
  else if o = 0x30 then by8 (mget 0 s.seq.retries r)
  else pl s (key 0x23 o)

/-! Page 0x28 (R200). -/

/-- DIRTY (R174, R175). -/
def dirty (s : State) : Word :=
  (diffKeys s).foldl (fun m k => match scopeBit (keyPage k) with | some b => setBit m b true | none => m) 0

/-- A byte of page 0x28. -/
def read28 (s : State) (o : Nat) : Byte :=
  let t := s.txn
  let scope := (t.cur.map (fun c => c.scope.toNat)).getD 0
  if o = 0 then t.seq else if o = 1 then t.appl
  else if o = 2 then by8 (t.res + bitsOf [(t.unlocked, 3), (lockwait s, 4), (t.applychk, 5)])
  else if o = 3 then t.rsn else if o = 4 then t.epg else if o = 5 then t.eofs else if o = 6 then t.erail
  else if o = 7 then by8 t.pre
  else if o = 8 ∨ o = 9 then nb (dirty s).toNat 8 o
  else if o = 0x0A ∨ o = 0x0B then nb scope 0x0A o
  else if o = 0x0C then (t.cur.map (·.mode)).getD 0 else if o = 0x0D then (t.cur.map (·.angle)).getD 0
  else if 0x10 ≤ o ∧ o < 0x14 then nb t.applycyc.toNat 0x10 o
  else if o = 0x14 then t.applyang
  else 0

/-! Pages 0x24, 0x30, 0x31, 0x32 (R231 to R234). -/

/-- A byte of page 0x24. -/
def read24 (s : State) (o : Nat) : Byte :=
  let f := s.safe
  if o = 2 then by8 (bitsOf [(f.areq, 0), (f.breq, 1), (f.disclatch, 2)])
  else if o = 7 then by8 (wdNow s + bitsOf [(f.wdLatch, 2), (f.wdNext, 3)] + 16 * f.wdErr)
  else if o = 8 then s.seq.rst.setWidth 8
  else pl s (key 0x24 o)

/-- A byte of page 0x30. -/
def read30 (s : State) (o : Nat) : Byte :=
  let f := s.safe
  if o = 0 then f.cause.setWidth 8 else if o = 1 then by8 f.first else if o = 2 then by8 f.ls
  else if o = 3 then
    by8 (bitsOf [(f.snapHeld, 0), (secondInForce (f.bank0.map SnapBank.seq) (f.bank1.map SnapBank.seq), 1), (f.bank0.isSome, 2), (f.bank1.isSome, 3)])
  else if o = 4 then by8 f.snapMiss
  else if 8 ≤ o ∧ o < 12 then nb (snapSeq s) 8 o
  else if 0x40 ≤ o ∧ o < 0x80 then f.cap.getD (64 * rdBits (pl s) (key 0x30 5) 0 2 + (o - 0x40)) 0xFF
  else pl s (key 0x30 o)

/-- A byte of page 0x31. -/
def read31 (s : State) (o : Nat) : Byte :=
  let t := s.tst
  if o = 0 then by8 (t.refFail.toNat + bitsOf [(t.cmpOnC, 3), (t.adcOnC, 4)])
  else if o = 1 then by8 (bitsOf [(t.oscB, 0), (t.xtal, 3)] + 2 * t.oscFail.toNat)
  else if o = 2 then by8 (t.full + bitsOf [(t.light, 2)])
  else if o = 3 then t.fail.setWidth 8 else if o = 4 then by8 t.dispN
  else if 8 ≤ o ∧ o < 12 then nb t.cmpFail.toNat 8 o
  else if 12 ≤ o ∧ o < 16 then nb t.cmpLost.toNat 12 o
  else if o = 0x10 ∨ o = 0x11 then nb t.devAC.toNat 0x10 o
  else if o = 0x12 ∨ o = 0x13 then nb t.devBC.toNat 0x12 o
  else if o = 0x14 ∨ o = 0x15 then nb t.devAB.toNat 0x14 o
  else if o = 0x16 then t.oscDevA else if o = 0x17 then t.oscDevB
  else 0

/-- A byte of page 0x32. -/
def read32 (s : State) (o : Nat) : Byte :=
  let i := (pl s (key 0x32 0)).toNat
  let r : Res := mget {} s.pat.res i
  if o = 1 then by8 (roleOf s i + bitsOf [(s.pat.pend.contains i, 2)])
  else if o = 2 ∨ o = 3 then nb (wearOf s i) 2 o
  else if 4 ≤ o ∧ o < 8 then nb (min 0xFFFFFFFF (r.chg / 3600000)) 4 o
  else if o = 8 ∨ o = 9 then nb (min 0xFFFF (r.hot / 36000)) 8 o
  else if o = 0x0A ∨ o = 0x0B then nb (min 0xFFFF (r.strk / 2000)) 0x0A o
  else if 0x20 ≤ o ∧ o < 0x28 then (spareSummary s).getD (o - 0x20) 0
  else pl s (key 0x32 o)

/-! Pages 0x39 to 0x3C (R259 to R262). -/

/-- A byte of page 0x39. -/
def read39 (s : State) (o : Nat) : Byte :=
  if o < 0xD0 then nb (mval s (o / 2)).toNat (o - o % 2) o
  else if o < 0xDA then nb (railCurrent s ((o - 0xD0) / 2)).toNat (o - o % 2) o
  else if o < 0xDC then nb s.hk.rnd.toNat 0xDA o
  else if o = 0xDC then by8 (bitsOf [(s.hk.hkaInv, 0), (s.hk.hkbInv, 1), (s.hk.tjNone, 2)])
  else 0

/-- A byte of page 0x3A; 0x82 to 0x97 show what HKRFLAG latched. -/
def read3A (s : State) (o : Nat) : Byte :=
  let l : SeqRes := s.hk.lres.getD {}
  if o < 0x68 then by8 (mget 127 s.hk.age o + bitsOf [(minval s o, 7)])
  else if o < 0x7E then (let x := senOf s (o - 0x68); by8 (x.src + bitsOf [(x.failed, 2), (x.dis, 3), (sensorAt s (o - 0x68) false, 4),
      (sensorAt s (o - 0x68) true, 5)]))
  else if o = 0x81 then hkrflag (mget {} s.hk.res (rdBits (pl s) (key 0x3A 0x80) 0 5))
  else if o = 0x82 ∨ o = 0x83 then nb l.cyc.toNat 0x82 o
  else if o = 0x84 then l.ang
  else if o = 0x85 ∨ o = 0x86 then nb l.fine 0x85 o
  else if o = 0x87 then l.run
  else if 0x88 ≤ o ∧ o < 0x98 then nb (l.vals.getD ((o - 0x88) / 2) 0).toNat (o - o % 2) o
  else if o = 0x98 ∨ o = 0x99 then nb s.hk.reqVal.toNat 0x98 o
  else if o = 0x9A then by8 (bitsOf [(s.hk.reqBusy, 0), (s.hk.reqDone, 1), (s.hk.reqInv, 2)])
  else pl s (key 0x3A o)

/-- A byte of page 0x3B; 0x01 to 0x07 show the channel that THIDX selects. -/
def read3B (s : State) (o : Nat) : Byte :=
  if 1 ≤ o ∧ o ≤ 7 then pl s (thKey (rdBits (pl s) (key 0x3B 0) 0 6) o)
  else if 0x10 ≤ o ∧ o < 0x20 then nb s.hk.th.toNat 0x10 o
  else pl s (key 0x3B o)

/-- A status byte of page 0x3C. -/
def read3C (s : State) (o : Nat) : Byte :=
  let t := s.thm
  let sel := rdBits (pl s) (key 0x3C 0x74) 0 5
  if o = 0x60 then by8 t.chip
  else if 0x61 ≤ o ∧ o ≤ 0x64 then by8 (mget 5 t.chan (o - 0x61))
  else if o = 0x65 then by8 t.dchip
  else if 0x66 ≤ o ∧ o ≤ 0x69 then by8 (mget 100 t.dchan (o - 0x66))
  else if o = 0x6A ∨ o = 0x6B then nb t.tj.toNat 0x6A o
  else if 0x6C ≤ o ∧ o < 0x70 then nb (t.req ||| t.grace ||| t.enf).toNat 0x6C o
  else if 0x70 ≤ o ∧ o < 0x74 then nb t.enf.toNat 0x70 o
  else if o = 0x75 then by8 (mget 100 t.f sel)
  else if o = 0x76 ∨ o = 0x77 then nb (mget 0 t.ibase sel) 0x76 o
  else pl s (key 0x3C o)

/-! Pages 0x40, 0x44, 0x45, 0x48 (R281, R312, R313, R336). -/

/-- A status byte of page 0x40. -/
def read40 (s : State) (o : Nat) : Byte :=
  let p := s.plt
  if o = 0x60 then by8 (p.state + bitsOf [(p.osc, 4), (p.freqerr, 5), (p.s2, 6), (p.diode, 7)])
  else if o = 0x61 then by8 (p.role + bitsOf [(p.soft, 2), (p.hard, 3), (p.rspRun, 4), (p.gen, 5)])
  else if o = 0x62 ∨ o = 0x63 then nb p.duty.toNat 0x62 o
  else if o = 0x64 ∨ o = 0x65 then nb p.curr.toNat 0x64 o
  else if o = 0x66 ∨ o = 0x67 then nb p.freq.toNat 0x66 o
  else if o = 0x6A ∨ o = 0x6B then nb p.cphi.toNat 0x6A o
  else if o = 0x6C ∨ o = 0x6D then nb p.cplo.toNat 0x6C o
  else if o = 0x6E ∨ o = 0x6F then nb p.ppres.toNat 0x6E o
  else if o = 0x70 then by8 p.pp else if o = 0x71 then p.cause.setWidth 8
  else pl s (key 0x40 o)

/-- A status byte of page 0x44. -/
def read44 (s : State) (o : Nat) : Byte :=
  let c := s.chg
  if o = 0x60 then by8 (c.phase + 16 * (if !chgTsen s then 7 else if c.ntc then 5 else c.ct) + bitsOf [(c.defaults, 7)])
  else if o = 0x61 then by8 (bitsOf [(c.tmrpre, 0), (c.tmrfast, 1), (c.cellov, 2), (chgTsen s && c.ntc, 3), (c.vmidlow, 4)])
  else if o = 0x64 ∨ o = 0x65 then nb (chgIeff s) 0x64 o
  else if o = 0x66 ∨ o = 0x67 then nb (if 1 ≤ c.phase ∧ c.phase ≤ 4 then cvEff s else 0) 0x66 o
  else if o = 0x68 ∨ o = 0x69 then nb c.tcell.toNat 0x68 o
  else if o = 0x6A ∨ o = 0x6B then nb (timerCount s / sec 60) 0x6A o
  else pl s (key 0x44 o)

/-- A byte of page 0x45. -/
def read45 (s : State) (o : Nat) : Byte :=
  let g := s.gau
  if o = 0x10 ∨ o = 0x11 then nb g.soc 0x10 o
  else if o = 0x12 ∨ o = 0x13 then nb (g.cap / 1000) 0x12 o
  else if o = 0x14 ∨ o = 0x15 then nb (g.qnow / 1000).toNat 0x14 o
  else if o = 0x16 ∨ o = 0x17 then nb (word16 g.i).toNat 0x16 o
  else if o = 0x18 ∨ o = 0x19 then nb g.vcell 0x18 o
  else if o = 0x1A ∨ o = 0x1B then nb g.rcell 0x1A o
  else if o = 0x1C then
    by8 (g.conf + bitsOf [(g.start.isSome, 2), (g.frozen, 3), (g.rest, 4), (g.slow, 5), (g.swapsusp, 6), (g.off || decide (chgCell s = 0), 7)])
  else if o = 0x1D then by8 g.learnN
  else if o = 0x1E ∨ o = 0x1F then nb g.tte 0x1E o
  else if 0x20 ≤ o ∧ o < 0x24 then nb (BitVec.ofInt 32 g.acc).toNat 0x20 o
  else pl s (key 0x45 o)

/-- A byte of page 0x48; 0x01 to 0x08 show what SUBSEC latched last. -/
def read48 (s : State) (o : Nat) : Byte :=
  if o = 0 then subsec s
  else if 1 ≤ o ∧ o ≤ 8 then (dateBytes (s.cal.latched.getD s.cal.now)).getD (o - 1) 0
  else if o = 0x1A then by8 (bitsOf [(s.cal.lost, 0), (s.cal.lprc, 1), (s.cal.seterr, 2), (s.cal.shift.isSome, 3)])
  else pl s (key 0x48 o)

/-! Pages 0x4C, 0x4D (R368, R369). -/

/-- The lowest held byte's key. -/
def lowestHeld (s : State) : Option Nat := (s.regs.held.map (·.1)).foldl (fun m k => match m with | none => some k | some j => some (min j k)) none

/-- Page and lowest offset of the lowest held field. -/
def heldField (s : State) : Option (Nat × Nat) :=
  (lowestHeld s).map (fun k => let p := keyPage k; (p, if p = 0x50 ∨ p = 0x51 then keyOff k - keyOff k % 2
    else ((wideField p (keyOff k)).map (·.off)).getD (keyOff k)))

/-- A byte of page 0x4C. -/
def read4C (s : State) (o : Nat) : Byte :=
  let b := s.bus
  if o = 3 then by8 (0x58 + s.glob.strap)
  else if o = 4 then by8 (b.level + bitsOf [(b.nonce.isSome, 2), (b.lock, 3)] + 16 * b.failn)
  else if o = 6 then by8 (bitsOf [(!s.regs.held.isEmpty, 0), (b.hnsusp, 1)])
  else if o = 7 then by8 (((heldField s).map (·.1)).getD 0xFF)
  else if o = 8 then by8 (((heldField s).map (·.2)).getD 0xFF)
  else if o = 0x0A ∨ o = 0x0B then nb b.peccnt 0x0A o
  else if o = 0x0C ∨ o = 0x0D then nb b.tmocnt 0x0C o
  else if o = 0x0E ∨ o = 0x0F then nb b.nackn 0x0E o
  else pl s (key 0x4C o)

/-- A byte of page 0x4D. -/
def read4D (s : State) (o : Nat) : Byte :=
  let d := s.ds
  if o = 5 then by8 (bitsOf [(d.job.isSome || d.poll.isSome || decide (d.clearing ≠ 0), 0), (d.failed, 1), (d.stuckSda, 2), (d.stuckScl, 3), (d.cut, 4)])
  else if 0x30 ≤ o ∧ o < 0x48 then nb (mget 0 d.val ((o - 0x30) / 2)).toNat (o - o % 2) o
  else if o = 0x48 ∨ o = 0x49 then nb d.ok.toNat 0x48 o
  else pl s (key 0x4D o)

/-! The interrupt pages (R374, R378, R388). -/

/-- A byte of page 0x50 or 0x51. -/
def read50 (s : State) (p o : Nat) : Byte :=
  let g := 32 * (p - 0x50)
  if o < 0x80 then nb (if o % 4 < 2 then pendOf s (g + o / 4) else maskOfG s (g + o / 4)).toNat (o - o % 2) o
  else if o < 0xC0 then nb (levelWord s (g + (o - 0x80) / 2)).toNat (o - o % 2) o
  else 0

/-- A route byte. -/
def read52 (s : State) (p o : Nat) : Byte :=
  let a := 256 * (p - 0x52) + 2 * o
  if o < 0x80 then by8 ((routeOf s a).toNat + 16 * (routeOf s (a + 1)).toNat) else 0

/-- A byte of page 0x56. -/
def read56 (s : State) (o : Nat) : Byte :=
  let i := s.irq
  if o = 1 then by8 i.rrnext
  else if o = 8 then by8 (bitsOf [(intLow s 0, 0), (intLow s 1, 1), (intLow s 2, 2), (intLow s 3, 3), (i.alert, 4)])
  else if 0x10 ≤ o ∧ o < 0x18 then nb i.ovr.toNat 0x10 o
  else if 0x20 ≤ o ∧ o < 0x28 then nb s.pwr.wl.toNat 0x20 o
  else if o = 0x30 then by8 (bitsOf ((List.range 8).map (fun k => (wakeEn s k, k))))
  else if 0x40 ≤ o ∧ o < 0x68 then nb (tsum s ((o - 0x40) / 8)).toNat (o - o % 8) o
  else pl s (key 0x56 o)

/-! Pages 0x58, 0x59, 0x5C, 0x60 (R416, R450, R431, R337). -/

/-- The configuration bank in force, 0 A or 1 B. -/
def cfgActB (s : State) : Bool := secondInForce (s.fl.cfgA.map CfgImg.seq) (s.fl.cfgB.map CfgImg.seq)

/-- ESTATE.ROLE of a physical sector. -/
def sectorRole (n : Nat) (x : Sector) : Nat :=
  if x.retired then 2 else if x.stand.isSome then 1 else if 336 ≤ n ∧ n < 400 then 3 else 0

/-- LOGCNT: during LOG_ERASE the count before it. -/
def logcnt (s : State) : Nat := match s.fl.erasing with | some (_, n, _) => n | none => s.fl.log.length

/-- A byte of page 0x58. -/
def read58 (s : State) (o : Nat) : Byte :=
  let f := s.fl
  let n := rdNat (pl s) (key 0x58 0x30) 2 % 512
  let x := sector s n
  if o = 0 then by8 (bitsOf [(f.slot.isSome, 0), (decide (f.log.length ≥ 32768), 1), (f.erasing.isSome, 2)])
  else if o = 2 ∨ o = 3 then nb f.ro.toNat 2 o
  else if o = 5 then by8 (f.cfgSt + bitsOf [(cfgActB s, 2), (f.cfgA.isSome, 3), (f.cfgB.isSome, 4)])
  else if 8 ≤ o ∧ o < 12 then nb (((cfgBank s).map CfgImg.seq).getD 0) 8 o
  else if o = 0x10 ∨ o = 0x11 then nb (logcnt s) 0x10 o
  else if o = 0x12 then by8 f.queue.length else if o = 0x13 then by8 f.opens.length
  else if 0x14 ≤ o ∧ o < 0x18 then nb f.drop 0x14 o
  else if o = 0x18 ∨ o = 0x19 then nb f.bad 0x18 o
  else if o = 0x28 ∨ o = 0x29 then nb f.scrubIdx 0x28 o
  else if o = 0x2A ∨ o = 0x2B then nb (if f.scrubDue then min 0xFFFF ((s.clk.now - f.scrubSince) / sec 60) else 0) 0x2A o
  else if o = 0x2C ∨ o = 0x2D then nb f.refrcnt 0x2C o
  else if o = 0x2E ∨ o = 0x2F then nb f.halfcnt 0x2E o
  else if 0x32 ≤ o ∧ o < 0x36 then nb (x.count.getD 0xFFFFFFFF) 0x32 o
  else if o = 0x36 then by8 (sectorRole n x + bitsOf [(x.half.isSome, 2)])
  else if o = 0x37 ∨ o = 0x38 then
    nb (if x.retired ∨ (336 ≤ n ∧ n < 400 ∧ x.stand.isNone) then 0xFFFF else x.stand.getD n) 0x37 o
  else pl s (key 0x58 o)

/-- VERA or VERB. -/
def verByte (h : Option SlotHdr) (i : Nat) : Byte :=
  match h with
  | some h => if i < 3 then h.ver.getD i 0xFF else by8 h.svn
  | none => 0xFF

/-- Whole units left until an operating time. -/
def opLeft (s : State) (t unit : Nat) : Nat := (t - s.clk.op) / unit

/-- A byte of page 0x59. -/
def read59 (s : State) (o : Nat) : Byte :=
  let u := s.upd
  let m := u.man
  if o = 0 then by8 (u.st + bitsOf [((m.map (·.delta)).getD false, 4), ((m.map (·.fw)).getD false, 5), ((m.map (·.cfg)).getD false, 6)])
  else if o = 1 then u.err
  else if o = 2 then by8 (bitsOf [(u.bootedB, 0), (u.nextB, 1), (u.prevOk, 2), (u.trialflt, 3)])
  else if o = 3 then by8 u.boots
  else if 4 ≤ o ∧ o < 8 then nb u.inp 4 o
  else if 8 ≤ o ∧ o < 12 then nb u.len 8 o
  else if o = 12 then by8 u.out
  else if 0x10 ≤ o ∧ o < 0x14 then verByte u.slotA (o - 0x10)
  else if 0x14 ≤ o ∧ o < 0x18 then verByte u.slotB (o - 0x14)
  else if o = 0x18 ∨ o = 0x19 then nb (if u.st = 5 then opLeft s u.trialEnd (sec 60) else 0) 0x18 o
  else if o = 0x1A then by8 (match u.confEnd with | some t => opLeft s t (sec 1) | none => 0)
  else 0

/-- A repair register. -/
def repairByte (t : Option Nat) : Byte := match t with | some r => by8 (r + 16) | none => 0

/-- A byte of page 0x5C, which shows the shadow. -/
def read5C (s : State) (o : Nat) : Byte :=
  let h := s.otp
  let r := rdBits (pl s) (key 0x5C 0) 0 4
  if o = 2 ∨ o = 3 then nb h.wlS.toNat 2 o
  else if o = 4 ∨ o = 5 then nb h.rlS.toNat 4 o
  else if o = 6 then repairByte h.tag14S else if o = 7 then repairByte h.tag15S
  else if o = 8 then by8 (arcnt h.shd)
  else if o = 9 then by8 (bitsOf (((List.range 4).map (fun i => (keyPresent h.shd i, i))) ++ ((List.range 4).map (fun i => (keyRevoked h.shd i, 4 + i)))))
  else if o = 10 then by8 (bitsOf [(decide (h.pend ≠ 0), 0), (h.floorValid, 1)])
  else if 0x40 ≤ o ∧ o < 0x80 then (if h.rlS.getLsbD r then 0 else fuse h.shd r (o - 0x40))
  else pl s (key 0x5C o)

/-- A byte of page 0x60. -/
def read60 (s : State) (o : Nat) : Byte :=
  let p := s.pwr
  if o = 3 then by8 (bitsOf [(p.held, 0), (p.idle, 1), (p.req.isSome, 4)] + 4 * p.lastslp)
  else if o = 4 then by8 p.why
  else if 8 ≤ o ∧ o < 12 then nb p.slpsec.toNat 8 o
  else pl s (key 0x60 o)

/-! The byte at a page's offset. -/

/-- The status or plain byte of a staged page between its two windows. -/
def readStatus (s : State) (p o : Nat) : Byte :=
  if p = 0x02 then read02 s o else if p ≤ 0x13 then read10 s (p - 0x10) o else if p = 0x14 then read14 s o
  else if p = 0x20 then read20 s o else if p = 0x3C then read3C s o else if p = 0x40 then read40 s o
  else if p = 0x44 then read44 s o else pl s (key p o)

/-- The key of a staging offset: the selected rail's block on page 0x22 (R168). -/
def stKey (s : State) (p n : Nat) : Nat :=
  if p = 0x22 ∧ n < 8 then rx (rdBits (pl s) (key 0x22 0x60) 0 5) n else key p n

/-- A byte of a plain page. -/
def readPlain (s : State) (p o : Nat) : Byte :=
  if p = 0x00 then read00 s o else if p = 0x01 then read01 s o else if p = 0x23 then read23 s o else if p = 0x24 then read24 s o
  else if p = 0x28 then read28 s o else if p = 0x30 then read30 s o else if p = 0x31 then read31 s o
  else if p = 0x32 then read32 s o else if p = 0x39 then read39 s o else if p = 0x3A then read3A s o
  else if p = 0x3B then read3B s o else if p = 0x45 then read45 s o else if p = 0x48 then read48 s o
  else if p = 0x4C then read4C s o else if p = 0x4D then read4D s o
  else if p = 0x50 ∨ p = 0x51 then read50 s p o else if 0x52 ≤ p ∧ p ≤ 0x55 then read52 s p o
  else if p = 0x56 then read56 s o else if p = 0x58 then read58 s o else if p = 0x59 then read59 s o
  else if p = 0x5C then read5C s o else if p = 0x60 then read60 s o else pl s (key p o)

/-- The byte that offset o of page p reads now (R8). -/
def readReg (s : State) (p o : Nat) : Byte :=
  if stagedPages.contains p then
    (if o < 0x60 then sg s (stKey s p o) else if o < 0x80 then readStatus s p o else lv s (stKey s p (o - 0x80)))
  else readPlain s p o

/-! Fields of several offsets, read (R348). -/

/-- Read-only fields of several offsets: lowest offset and bytes. -/
def roWide (p : Nat) : List (Nat × Nat) :=
  if p = 0x00 then [(2, 2), (8, 4), (12, 4)]
  else if p = 0x01 then [(0x0A, 2), (0x10, 4), (0x15, 2), (0x18, 2)]
  else if 0x10 ≤ p ∧ p ≤ 0x13 then [(0x64, 2), (0x70, 2)]
  else if p = 0x14 then [(0x60, 2), (0x62, 2), (0x64, 2)]
  else if p = 0x20 then [(0x62, 2), (0x64, 4), (0x68, 4), (0x6C, 4)]
  else if p = 0x23 then (List.range 16).map (fun b => (0x10 + 2 * b, 2))
  else if p = 0x28 then [(8, 2), (0x0A, 2), (0x10, 4)]
  else if p = 0x30 then [(8, 4)]
  else if p = 0x31 then [(8, 4), (12, 4), (0x10, 2), (0x12, 2), (0x14, 2)]
  else if p = 0x32 then [(2, 2), (4, 4), (8, 2), (10, 2), (0x24, 4)]
  else if p = 0x39 then (List.range 110).map (fun m => (2 * m, 2))
  else if p = 0x3A then [(0x82, 2), (0x85, 2), (0x98, 2)] ++ (List.range 8).map (fun i => (0x88 + 2 * i, 2))
  else if p = 0x3B then [(0x10, 16)]
  else if p = 0x3C then [(0x6A, 2), (0x6C, 4), (0x70, 4), (0x76, 2)]
  else if p = 0x40 then [(0x62, 2), (0x64, 2), (0x66, 2), (0x6A, 2), (0x6C, 2), (0x6E, 2)]
  else if p = 0x44 then [(0x64, 2), (0x66, 2), (0x68, 2), (0x6A, 2)]
  else if p = 0x45 then [(0x10, 2), (0x12, 2), (0x14, 2), (0x16, 2), (0x18, 2), (0x1A, 2), (0x1E, 2), (0x20, 4)]
  else if p = 0x4C then [(10, 2), (12, 2), (14, 2)]
  else if p = 0x4D then (List.range 12).map (fun k => (0x30 + 2 * k, 2)) ++ [(0x48, 2)]
  else if p = 0x50 ∨ p = 0x51 then (List.range 96).map (fun j => (2 * j, 2))
  else if p = 0x56 then [(0x10, 8), (0x20, 8)] ++ (List.range 5).map (fun t => (0x40 + 8 * t, 8))
  else if p = 0x58 then [(2, 2), (8, 4), (0x10, 2), (0x14, 4), (0x18, 2), (0x28, 2), (0x2A, 2), (0x2C, 2), (0x2E, 2), (0x32, 4), (0x37, 2)]
  else if p = 0x59 then [(4, 4), (8, 4), (0x18, 2)]
  else if p = 0x5C then [(2, 2), (4, 2)]
  else if p = 0x60 then [(8, 4)] else []

/-- The field of several offsets that covers offset o, live copies included. -/
def wideAt (p o : Nat) : Option (Nat × Nat) :=
  let st := (stagedPages.contains p && decide (o ≥ 0x80))
  match wideField p (if st then o - 0x80 else o) with
  | some f => if st then some (f.off + 0x80, f.len) else some (f.off, f.len)
  | none => (roWide p).find? (fun (b, n) => decide (b ≤ o ∧ o < b + n))

/-- What reading an offset does besides returning its byte (R41, R44, R260, R316, R376). -/
def readEffect (p o : Nat) (s : State) : State :=
  if p = 0x01 ∧ o = 0x10 then { s with cyc := { s.cyc with lcnt := s.cyc.cnt, lfine := fineOf s.cyc.phase, lpll := s.cyc.pll } }
  else if p = 0x48 ∧ o = 0 then setCal (fun c => { c with latched := some c.now }) s
  else if p = 0x3A ∧ o = 0x81 then { s with hk := { s.hk with lres := some (mget {} s.hk.res (rdBits (pl s) (key 0x3A 0x80) 0 5)) } }
  else if (p = 0x50 ∨ p = 0x51) ∧ o < 0x80 ∧ o % 4 = 0 then
    { s with irq := { s.irq with late := mput 0xFFFF s.irq.late (32 * (p - 0x50) + o / 4) 0 } }
  else s

/-- One byte read by the host: the latch of R348, and what the read does. -/
def readOne (p o : Nat) (s : State) : Byte × State :=
  if !allocated p then (0xFF, berrUnalloc s)
  else
    let s := readEffect p o s
    match wideAt p o with
    | some (b, n) =>
      if o = b then
        (readReg s p o, { s with regs := { s.regs with latch := some (key p b, (List.range (n - 1)).map (fun i => readReg s p (b + 1 + i))) } })
      else (match s.regs.latch with
        | some (k, hi) => if k = key p b then (hi.getD (o - b - 1) 0, s) else (readReg s p o, s)
        | none => (readReg s p o, s))
    | none =>
      let v := readReg s p o
      (v, if p = 0x01 ∧ o = 0x24 then schIdxNext s else s)

/-- A window read of n bytes from offset o: 0xFF beyond 0xDF (R346). -/
def readSeq (p : Nat) : Nat → Nat → State → List Byte × State
  | 0, _, s => ([], s)
  | n + 1, o, s =>
    if o > 0xDF then (List.replicate (n + 1) 0xFF, s)
    else
      let (b, s) := readOne p o s
      let (l, s) := readSeq p n (o + 1) s
      (b :: l, s)

end Sys2Proof.Machine
end

