-- ==== Sys2Proof/Machine/Update.lean ====
section
/-! DEFINITION. The update engine's commands and events (R436 to R449). -/

namespace Sys2Proof.Machine

/-- The update commands are accepted in RUN and STANDBY (R361); their ERR elsewhere is not stated. -/
def updStates (s : State) : Bool := decide (s.glob.st = .run) || decide (s.glob.st = .standby)

/-- A session is opened (R437): the command is done once the journal is written. -/
def updOpen (len : Nat) (s : State) : State :=
  let s := { s with upd := { s.upd with err := 0, inp := 0, len := len, out := 0, man := none, buf := [], wait := none, mark := 0,
                                        used := 0 } }
  let s := slotBusy (raiseG 55 0 (updState 1 s))
  grant { s with upd := { s.upd with jact := .begin } }

/-- UPD_BEGIN's own checks (R449). -/
def updBeginBody (p : Packet) (s : State) : State :=
  match p.params with
  | [k, a, b, c, d] =>
    let len := leNat [a, b, c, d]
    if k.toNat > 1 ∨ len < 304 ∨ len > 1048576 then reject 0x01 s
    else if [1, 2, 3, 5].contains s.upd.st then reject 0x02 s
    else if s.fl.ro.getLsbD 6 then reject 0x03 s
    else if !updStates s then rejectOpen s
    else updOpen len s
  | _ => reject 0x01 s

/-- UPD_BEGIN. -/
def execUpdBegin (p : Packet) (s : State) : Host.Outcome State Fault Refusal := .next (packet 0x50 false p (updBeginBody p) s)

/-- The manifest is complete: it is checked, and ends the session or goes to sector 400 (R435, R438, R439). -/
def checkManifest (reads : Bool) (s : State) : State :=
  let m := s.upd.buf.take 304
  let e := manifestError reads m s
  if e ≠ 0 then updError (BitVec.ofNat 8 e) (if e = 0x11 then sigFail (manifestSigner m) s else s)
  else
    raiseG 55 1 { s with upd := { s.upd with man := some (manifestOf m), buf := s.upd.buf.drop 304, used := 304, mark := 304,
                                             want := some .updMan } }

/-- New bytes in receiving: they wait for room, or enter the buffer and the engine goes on. -/
def updReceive (reads : Bool) (bs : List Byte) (s : State) : State :=
  if s.upd.buf.length + bs.length > bufRoom then slotBusy { s with upd := { s.upd with wait := some bs } }
  else
    let s := slotBusy (takeBytes bs s)
    let s := if s.upd.man.isNone ∧ s.upd.used = 0 ∧ s.upd.buf.length ≥ 304 then checkManifest reads s else s
    let s := updPump (grant s)
    if slotHas s 0x51 then slotEnd 3 0 [] s else s

/-- UPD_DATA's own checks (R438, R449). In interrupted it takes the session up again (R436). -/
def updDataBody (reads : Bool) (p : Packet) (s : State) : State :=
  let ofs := leNat (p.params.take 4)
  let bs := p.params.drop 4
  if bs = [] ∨ bs.length > 57 then reject 0x01 s
  else if s.upd.st ≠ 1 ∧ s.upd.st ≠ 4 then reject 0x02 s
  else if ofs > s.upd.inp ∨ ofs + bs.length > s.upd.len then reject 0x03 s
  else if !updStates s then rejectOpen s
  else
    let s := if s.upd.st = 4 then raiseG 55 4 (updState 1 s) else s
    updReceive reads (bs.drop (s.upd.inp - ofs)) s

/-- UPD_DATA. `reads`: the booted slot reads as it was programmed (log entry 9). -/
def execUpdData (p : Packet) (reads : Bool) (s : State) : Host.Outcome State Fault Refusal :=
  .next (packet 0x51 false p (updDataBody reads p) s)

/-- Every byte has arrived and every sector is written. -/
def updComplete (s : State) : Bool :=
  s.upd.man.isSome && decide (s.upd.inp = s.upd.len) && decide (s.upd.used = s.upd.len) && s.upd.buf.isEmpty

/-- UPD_END's own checks (R442). -/
def updEndBody (p : Packet) (s : State) : State :=
  if p.params ≠ [] then reject 0x01 s
  else if s.upd.st ≠ 1 ∨ !updComplete s then reject 0x02 s
  else if !updStates s then rejectOpen s
  else grant (slotBusy (updState 2 { s with bus := { s.bus with prog := 0 } }))

/-- UPD_END. -/
def execUpdEnd (p : Packet) (s : State) : Host.Outcome State Fault Refusal := .next (packet 0x52 false p (updEndBody p) s)

/-- The result digests of the parts are right (R433, R442). -/
def digestsOk (m : Manifest) (s : State) : Bool :=
  let named := fun k => (entryOf m.bytes k).map (fun e => slice e 8 40)
  (!m.fw || (inactive s).any (fun h => h.bytes.isSome && decide (some (imageDigest s (!s.upd.bootedB) h) = named 1))) &&
  (!m.cfg || decide (some (sha256 (cfgPart s)) = named 2))

/-- What is wrong with the new image, 0 with nothing: key and signature, the header's digest, the SVN, the revocation request. -/
def imageError (s : State) : Nat :=
  match inactive s with
  | none => 0x11
  | some h =>
    if !keyPresent s.otp.shd h.key || !imageSigned s h then 0x11
    else if !imageWhole s (!s.upd.bootedB) h then 0x15
    else if !svnOk s h.svn then 0x12
    else if !revokeOk s 0 h.revoke h.key then 0x10
    else 0

/-- The checks of UPD_END have ended: ready, or an error (R436, R442). What does not read as it was programmed has not the digest
that the manifest names. -/
def updVerified (reads : Bool) (m : Manifest) (s : State) : State :=
  let h := inactive s
  let e := if !(reads && digestsOk m s) then 0x15 else if m.fw then imageError s else 0
  if e = 0x11 then updError 0x11 (sigFail ((h.map (·.key)).getD 0) s)
  else if e = 0x12 then updError 0x12 (raiseIf (decide ((h.map (·.svn)).getD 0 < arcnt s.otp.shd)) (16 * 54 + 7) s)
  else if e ≠ 0 then updError (BitVec.ofNat 8 e) s
  else
    let s := raiseG 55 2 (updState 3 s)
    grant (if slotHas s 0x52 then slotEnd 3 0 [] { s with bus := { s.bus with prog := 100 } } else s)

/-- UPD_VERIFY_END. `reads`: the new parts read as they were programmed (log entry 9). -/
def execUpdVerifyEnd (reads : Bool) (s : State) : Host.Outcome State Fault Refusal :=
  .next (match s.upd.man with
    | some m => if fwOn s && decide (s.upd.st = 2) then updVerified reads m s else s
    | none => s)

/-- The eight bytes of UPD_RESUME_INFO (R441). -/
def resumeInfo (s : State) : List Byte :=
  leBytes 4 s.upd.mark ++ leBytes 2 s.upd.out ++ [BitVec.ofNat 8 s.upd.st, s.upd.err]

/-- UPD_RESUME_INFO. -/
def execUpdResumeInfo (p : Packet) (s : State) : Host.Outcome State Fault Refusal :=
  .next (packet 0x53 false p (fun s =>
    if p.params ≠ [] then reject 0x01 s else if !updStates s then rejectOpen s else doneWith (resumeInfo s) s) s)

/-- A trial that may be confirmed: the forward sequence has ended complete (R447). -/
def mayConfirm (s : State) : Bool := decide (s.upd.st = 5) && !s.upd.fell && s.seq.ended && decide (s.seq.phase = 2)

/-- UPD_CONFIRM: done once the confirming journal write has completed (R447, R443). -/
def execUpdConfirm (p : Packet) (s : State) : Host.Outcome State Fault Refusal :=
  .next (packet 0x54 false p (fun s =>
    if p.params ≠ [] then reject 0x01 s
    else if !mayConfirm s then reject 0x02 s
    else if !updStates s then rejectOpen s
    else confirm (slotBusy s)) s)

/-- TCONF_EXPIRE: AUTOCONF confirms after TCONF in RUN and STANDBY (R447). -/
def execTconfExpire (s : State) : Host.Outcome State Fault Refusal :=
  .next (
    let s := disarm .tconfExpire s
    match s.upd.man with
    | some m => if fwOn s && mayConfirm s && m.autoconf && updStates s then confirm { s with upd := { s.upd with confEnd := none } } else s
    | none => s)

/-- TTRIAL_EXPIRE: the trial falls back (R446). -/
def execTtrialExpire (s : State) : Host.Outcome State Fault Refusal :=
  .next (
    let s := disarm .ttrialExpire s
    if anvilOn s && !s.glob.floor then fallback s else s)

/-- UPD_ROLLBACK by state (R448, R449). -/
def updRollbackBody (p : Packet) (s : State) : State :=
  if p.params ≠ [] then reject 0x01 s
  else if [1, 2, 3, 4].contains s.upd.st then
    (if !updStates s then rejectOpen s
     else grant (doneWith [] (raiseG 55 6 (updState 0 (cancelSession s)))))
  else if s.upd.st = 5 then (if !updStates s then rejectOpen s else fallback s)
  else match inactive s with
    | some h =>
      if !s.upd.prevOk then reject 0x02 s
      else if h.svn < arcnt s.otp.shd then reject 0x12 s
      else if !updStates s then rejectOpen s
      else grant (doneWith [] (raiseG 55 10 (wantJournal { s with upd := { s.upd with nextB := !s.upd.bootedB } })))
    | none => reject 0x02 s

/-- UPD_ROLLBACK. -/
def execUpdRollback (p : Packet) (s : State) : Host.Outcome State Fault Refusal := .next (packet 0x55 false p (updRollbackBody p) s)

/-- UPDCTL.ACTIVATE (R444). -/
def activateBit (s : State) : State := if s.upd.st = 3 then requestReset .upd s else berrRorsv s

/-- UPDCTL_ACTIVATE. -/
def execUpdctlActivate (s : State) : Host.Outcome State Fault Refusal := .next (onPage 0x59 activateBit s)

end Sys2Proof.Machine
end

