-- ==== Sys2Proof/Machine/HostWrite.lean ====
section
/-! DEFINITION. What one written byte does at each page and offset (R8, R179, R345 to R347, R360, R466, R468, and the
register tables). -/

namespace Sys2Proof.Machine

/-! Held bytes (R347). -/

/-- The held byte at key k. -/
def heldAt (s : State) (k : Nat) : Option Byte := (s.regs.held.find? (fun h => decide (h.1 = k))).map (·.2)
/-- Write the held bytes. -/
def setHeld (l : List (Nat × Byte)) (s : State) : State := { s with regs := { s.regs with held := l } }

/-- A byte of a field of n offsets from key k on: it is held, and the field's last missing byte has `done` take the
whole value. -/
def holdByte (k n at_ : Nat) (v : Byte) (done : Nat → State → State) (s : State) : State :=
  let s := setHeld (minsert at_ v s.regs.held) s
  let bs := (List.range n).map (fun i => heldAt s (k + i))
  if bs.all Option.isSome then
    done (leNat (bs.map (·.getD 0))) (setHeld (s.regs.held.filter (fun h => !decide (k ≤ h.1 ∧ h.1 < k + n))) s)
  else s

/-! Plain pages. -/

/-- An LK field is written: ignored outside a session; inside one SESSTMO starts again (R359, R360). -/
def lkGate (f : State → State) (s : State) : State := if s.bus.level = 0 then berrLkdeny s else touchSession (f s)

/-- A byte that no rule but its table governs (R347, R468). -/
def writeTable (p o : Nat) (v : Byte) (s : State) : State :=
  match wideField p o with
  | some f =>
    let w := holdByte (key p f.off) f.len (key p o) v (fun n => plainWide p f n)
    if f.acc = .lk then lkGate w s else w s
  | none =>
    let fs := byteFields p o
    if fs.isEmpty then berrRorsv s
    else if fs.any (fun f => decide (f.acc = .lk)) then lkGate (plainByte p o v) s
    else plainByte p o v s

/-- Apply `f` where the bit is 1. -/
def onBit (v : Byte) (i : Nat) (f : State → State) (s : State) : State := if v.getLsbD i then f s else s

/-- A byte of page 0x00 (R27). -/
def write00 (o : Nat) (v : Byte) (s : State) : State :=
  if o = 1 then onBit v 1 busclrBit (onBit v 0 rstclrBit s) else if o = 6 then rstkeyByte v s else berrRorsv s

/-- A byte of page 0x01 (R36, R49, R60). -/
def write01 (o : Nat) (v : Byte) (s : State) : State :=
  if o = 0 then cyccfgByte v s
  else if o = 1 then onBit v 0 toFree s
  else if o = 5 then quietcfgByte v s
  else if o = 2 ∨ o = 3 then holdByte (key 1 2) 2 (key 1 o) v (fun n => nomfreqWord (BitVec.ofNat 16 n)) s
  else if 0x21 ≤ o ∧ o ≤ 0x23 then (if swapPending s then berrRorsv s else plainByte 1 o v s)
  else if o = 0x24 then schent3Byte v s
  else if o = 0x25 then onBit v 2 schClear (onBit v 1 schCopy (onBit v 0 schSwap s))
  else writeTable 1 o v s

/-- A byte of page 0x24 (R210, R212, R231). -/
def write24 (o : Nat) (v : Byte) (s : State) : State :=
  let s' := writeTable 0x24 o v s
  if o = 0 ∧ s.bus.level ≠ 0 ∧ !v.getLsbD 0 then ignoreSafeIn s'
  else if o = 3 ∧ s.bus.level ≠ 0 ∧ !v.getLsbD 0 then wdStop s'
  else s'

/-- A byte of page 0x38 (R244, R258). -/
def write38 (o : Nat) (v : Byte) (s : State) : State :=
  if o = 0x10 then hkseqidxByte v s
  else if o = 0x1A then onBit v 0 hkseqStoreBit s
  else if o = 0x21 then
    (if v.getLsbD 0 then hkreqGoBit (v.toNat / 2 % 8) s else plainByte 0x38 o v s)
  else writeTable 0x38 o v s

/-- A byte of page 0x3B, of the channel that THIDX selects (R261). -/
def write3B (o : Nat) (v : Byte) (s : State) : State :=
  let k := thKey (rdBits (pl s) (key 0x3B 0) 0 6)
  if o = 1 then thmeasByte v s
  else if 2 ≤ o ∧ o ≤ 5 then holdByte (key 0x3B (o - o % 2)) 2 (key 0x3B o) v (fun n => putPlain (k (o - o % 2)) (leBytes 2 n)) s
  else if o = 6 then putPlain (k 6) [v] s
  else if o = 7 then putPlain (k 7) [putBits (pl s (k 7)) 0 3 v.toNat] s
  else writeTable 0x3B o v s

/-- A byte of page 0x48 (R318, R323, R336). -/
def write48 (o : Nat) (v : Byte) (s : State) : State :=
  if o = 0x19 then onBit v 0 calSetBit s
  else if o = 0x28 ∨ o = 0x29 then pwcfgByte (decide (o = 0x29)) v s
  else writeTable 0x48 o v s

/-- HBCTL.HELDCLR. -/
def heldclrBit (s : State) : State := setHeld [] s
/-- HBCTL.CNTCLR. -/
def busCntClr (s : State) : State := { s with bus := { s.bus with peccnt := 0, tmocnt := 0, nackn := 0 } }

/-- A byte of page 0x50 or 0x51: PENDg and MASKg pair by two (R374, R375). -/
def write50 (p o : Nat) (v : Byte) (s : State) : State :=
  let g := 32 * (p - 0x50) + o / 4
  if o ≥ 0x80 then berrRorsv s
  else holdByte (key p (o - o % 2)) 2 (key p o) v
    (fun n => if o % 4 < 2 then pendWord g (BitVec.ofNat 16 n) else maskWord g (BitVec.ofNat 16 n)) s

/-- An output that a change of its OUTCFG asserts has its Host Notify sent (R350, R382). -/
def notifyChange (s0 s : State) : State :=
  if (List.range 4).any (fun t => notifies s t && intLow s t && !intLow s0 t) && !s.bus.hnsusp then
    { s with bus := { s.bus with hn := s.bus.hn + 1 } }
  else s

/-- A byte of page 0x56 (R380, R383, R386, R388). -/
def write56 (o : Nat) (v : Byte) (s : State) : State :=
  if o = 0 then rrmaskByte v s
  else if 0x18 ≤ o ∧ o < 0x20 then ovrclrByte (o - 0x18) v s
  else if 0x28 ≤ o ∧ o < 0x30 then wlclrByte (o - 0x28) v s
  else if o = 0x38 ∨ o = 0x39 then testtrigByte (o - 0x38) v s
  else notifyChange s (settleAlert (writeTable 0x56 o v s))

/-- A byte of page 0x60 (R327, R337). -/
def write60 (o : Nat) (v : Byte) (s : State) : State :=
  if o = 1 then idleWatch true (writeTable 0x60 o v s)
  else if o = 2 then onBit v 0 hostwakeBit s
  else writeTable 0x60 o v s

/-- A byte of a plain page. -/
def writePlain (p o : Nat) (v : Byte) (s : State) : State :=
  if p = 0x00 then write00 o v s else if p = 0x01 then write01 o v s
  else if p = 0x23 then
    (if o = 1 then onBit v 1 cntClrallBit (onBit v 0 cntClrBit s) else writeTable p o v s)
  else if p = 0x24 then write24 o v s else if p = 0x38 then write38 o v s else if p = 0x3B then write3B o v s
  else if p = 0x45 ∧ o = 0x24 then onBit v 0 accclrBit s
  else if p = 0x48 then write48 o v s
  else if p = 0x4C ∧ o = 9 then onBit v 1 busCntClr (onBit v 0 heldclrBit s)
  else if p = 0x4D then (if o = 6 then onBit v 0 dsClrBit s else pollWatch (writeTable p o v s))
  else if p = 0x50 ∨ p = 0x51 then write50 p o v s
  else if 0x52 ≤ p ∧ p ≤ 0x55 then (if o < 0x80 then routeByte (p - 0x52) o v s else berrRorsv s)
  else if p = 0x56 then write56 o v s
  else if p = 0x58 ∧ o = 4 then onBit v 0 cfgsaveBit s
  else if p = 0x59 ∧ o = 0x0D then onBit v 0 activateBit s
  else if p = 0x60 then write60 o v s
  else writeTable p o v s

/-! Staged pages. -/

/-- The staging copy of page p is locked by the commit in flight (R179). -/
def pageLocked (s : State) (p : Nat) : Bool :=
  match s.txn.cur, scopeBit p with
  | some c, some b => c.scope.getLsbD b
  | _, _ => false

/-- A byte of a staging copy (R8, R347, R466). -/
def writeStaging (p o : Nat) (v : Byte) (s : State) : State :=
  if pageLocked s p then berrRorsv s
  else match wideField p o with
  | some f => holdByte (key p f.off) f.len (key p o) v
      (fun n s => if f.legal (n % 2 ^ f.w) then putStg (key p f.off) (leBytes f.len (n % 2 ^ f.w)) s else berrRsvenc s) s
  | none =>
    let fs := byteFields p o
    if fs.isEmpty then berrRorsv s
    else
      let (b, bad) := mergeByte fs (fun _ => true) (sg s (stKey s p o)) v
      let s := putStg (stKey s p o) [b] s
      if bad then berrRsvenc s else s

/-- A byte of a staged page's status window. -/
def writeStatus (p o : Nat) (v : Byte) (s : State) : State :=
  if p = 0x02 ∧ o = 0x63 then inctlBits (v.getLsbD 0) (v.getLsbD 1) s
  else if 0x10 ≤ p ∧ p ≤ 0x13 ∧ o = 0x63 then onBit v 0 (strkclrBit (p - 0x10)) s
  else if p = 0x14 ∧ o = 0x67 then onBit v 0 monClrBit s
  else if p = 0x3C ∧ o = 0x7C then onBit v 0 sensclrBit s
  else if p = 0x40 ∧ o = 0x68 then pswByte v s
  else if p = 0x40 ∧ o = 0x69 then onBit v 0 pilotAck s
  else if p = 0x44 ∧ o = 0x62 then onBit v 1 restartBit (onBit v 0 kickBit s)
  else if p = 0x44 ∧ o = 0x63 then chgsuspByte v s
  else writeTable p o v s

/-- One byte written at offset o of page p; a write of any register but RSTKEY cancels the key (R27). One to an unallocated
page, or in Floor mode to another page's window, counts as such a write (DESIGN CHOICE, log entry 25). -/
def writeReg (p o : Nat) (v : Byte) (s : State) : State :=
  let s := if p = 0 ∧ o = 6 then s else cancelKey s
  if !allocated p || (s.glob.floor && decide (p ≠ 0)) then berrUnalloc s
  else if !stagedPages.contains p then writePlain p o v s
  else if o < 0x60 then writeStaging p o v s
  else if o < 0x80 then writeStatus p o v s
  else berrRorsv s

/-- A sequential write from offset o on (R345, R346): it ends where the bus is no longer answered, or at a byte that
`ok` turns down. -/
def writeSeq (ok : Nat → Bool) (up : State → Bool) (p : Nat) : Nat → List Byte → State → State
  | _, [], s => s
  | o, v :: t, s =>
    if !up s || !ok o then nackAccess s
    else if o > 0xDF then berrRorsv (nackAccess s)
    else writeSeq ok up p (o + 1) t (writeReg p o v s)

end Sys2Proof.Machine
end

