-- ==== Sys2Proof/Machine/Bus.lean ====
section
/-! DEFINITION. The host bus (R339 to R364): command codes, page-window reads and writes, Host Notify, the alert response,
bus timeouts, sessions, and the packets that act on the bus engine itself. -/

namespace Sys2Proof.Machine

/-! Addressing and PEC. -/

/-- The device's 7-bit address (R340). -/
def ownAddr (s : State) : Nat := 0x58 + s.glob.strap
/-- HBCFG.PEC. -/
def pecOn (s : State) : Bool := (pl s (key 0x4C 0)).getLsbD 0
/-- The PEC of a read of a command code (R349). -/
def readPec (s : State) (code : Byte) (bs : List Byte) : Byte := crc8 ([by8 (2 * ownAddr s), code, by8 (2 * ownAddr s + 1)] ++ bs)
/-- What the device has driven. -/
def drive (bs : List Byte) (s : State) : State := { s with bus := { s.bus with rdata := bs } }
/-- A code's own bytes, with the PEC where it is on. -/
def driveCode (code : Byte) (bs : List Byte) (s : State) : State := drive (if pecOn s then bs ++ [readPec s code bs] else bs) s

/-! Command codes (R343, R344). -/

/-- A listed code. -/
def listed (code : Byte) : Bool := decide (code.toNat ≤ 0xE4) || code = 0xF0 || code = 0xF1 || code = 0xF2 || code = 0xFE
/-- A code that Floor mode turns down (R25); 0xE4 is no code that R25 answers. -/
def floorDenies (s : State) (code : Byte) : Bool := s.glob.floor && decide (0xE0 ≤ code.toNat ∧ code.toNat ≤ 0xE4)

/-- The firmware version booted: three bytes. -/
def fwVersion (s : State) : List Byte := match booted s with | some h => padTo 3 h.ver | none => padTo 3 Config.firmwareVersion
/-- DEVID: its count and eight bytes. -/
def devid (s : State) : List Byte :=
  [8, 0x26, 0x40, 0xB0] ++ (if s.glob.fwup then fwVersion s else [0xFF, 0xFF, 0xFF]) ++ [by8 (ownAddr s), stateByte s]

/-- CSTAT's four bytes (R355). -/
def cstatBytes (s : State) : List Byte := [by8 s.bus.cstat, s.bus.tag, s.bus.prog, s.bus.err]

/-- A read of n bytes is one of R343's fixed-length protocols: Read Byte, Word, 32 or 64; other lengths are Block Reads. -/
def fixedRead (n : Nat) : Bool := decide (n = 1 ∨ n = 2 ∨ n = 4 ∨ n = 8)

/-- A Block Read of CRES (R356). -/
def cresBlock (s : State) : State :=
  let n := min 64 (s.bus.cres.length - s.bus.ofs)
  let bs := by8 n :: (s.bus.cres.drop s.bus.ofs).take n
  driveCode 0xE2 bs { s with bus := { s.bus with ofs := s.bus.ofs + n } }

/-- A code read with a protocol not listed for it (R344). -/
def wrongRead (n : Nat) (s : State) : State := berrRorsv (drive (List.replicate n 0xFF) s)
/-- A fixed-length code read with n bytes. -/
def readFixed (code : Byte) (bs : List Byte) (n : Nat) (s : State) : State :=
  if n = bs.length then driveCode code bs s else wrongRead n s

/-- HBCFG.RLEN in bytes (R349). -/
def rlen (s : State) : Nat := 2 ^ rdBits (pl s) (key 0x4C 0) 2 2

/-- How many of the n bytes of a window read are register bytes: with PEC on, at most RLEN (R349). -/
def windowLen (s : State) (n : Nat) : Nat := if pecOn s then min n (rlen s) else n

/-- A window read of n bytes from offset o drives its register bytes, and with PEC on the PEC and 0xFF after them (R349). -/
def driveWindow (o n : Nat) (bs : List Byte) (s : State) : State :=
  drive (if n ≤ bs.length then bs else bs ++ [readPec s (by8 o) bs] ++ List.replicate (n - bs.length - 1) 0xFF) s

/-- A window read of n bytes (R345, R346, R349); in Floor mode every page but 0x00 is as unallocated (R25). -/
def readWindow (o n : Nat) (s : State) : State :=
  let p := s.regs.page.toNat
  if s.glob.floor ∧ p ≠ 0 then
    (if n = 0 then s else berrUnalloc (driveWindow o n (List.replicate (windowLen s n) 0xFF) s))
  else
    let (bs, s') := readSeq p (windowLen s n) o s
    driveWindow o n bs s'

/-- A read of a command code while the full register set, or Floor mode's, is answered. -/
def readCode (code : Byte) (n : Nat) (s : State) : State :=
  if !listed code || floorDenies s code then nackAccess s
  else
    let s := ackAccess s
    if code.toNat < 0xE0 then readWindow code.toNat n s
    else if code = 0xE0 then wrongRead n s
    else if code = 0xE1 then readFixed code (cstatBytes s) n s
    else if code = 0xE2 then (if fixedRead n then wrongRead n s else cresBlock s)
    else if code = 0xE3 then readFixed code (leBytes 2 s.bus.ofs) n s
    else if code = 0xE4 then readFixed code (leBytes 2 s.bus.cres.length) n s
    else if code = 0xF0 then readFixed code [s.regs.page] n s
    else if code = 0xF1 then readFixed code (leBytes 2 (statusSum s)) n s
    else if code = 0xF2 then readFixed code (leBytes 8 (intsum s).toNat) n s
    else if fixedRead n then wrongRead n s
    else driveCode code (devid s) s

/-- Offsets that the sleep-rate responder reads (R335). -/
def sleepReads (p o : Nat) : Bool := decide (p = 0x48 ∨ p = 0x60 ∨ (p = 0x00 ∧ o = 0))
/-- Offsets that it writes. -/
def sleepWritesAt (p o : Nat) : Bool := decide (p = 0x48 ∨ (p = 0x60 ∧ o = 2))

/-- A read answered by the responder; what follows page 0x00's offset 0 in one access is not stated (log entry 8). -/
def readSleep (code : Byte) (n : Nat) (s : State) : State :=
  let p := s.regs.page.toNat
  if code = 0xFE then (if fixedRead n then wrongRead n (ackAccess s) else driveCode code (devid s) (ackAccess s))
  else if code.toNat < 0xE0 ∧ sleepReads p code.toNat then
    (if p = 0 ∧ windowLen s n > 1 then
      (let (x, s) := drawNat (ackAccess s)
       driveWindow 0 n (stateByte s :: (List.range (windowLen s n - 1)).map (fun i => by8 (x / 256 ^ i))) s)
     else readWindow code.toNat n (ackAccess s))
  else nackAccess s

/-- FIELD_LATCH_READ: a host read of n bytes at a command code; a read of a field's lowest byte loads the latch (R348). -/
def execFieldLatchRead (code : Byte) (n : Nat) (s : State) : Host.Outcome State Fault Refusal :=
  .next (if responder s then readSleep code n s else if busUp s then readCode code n s else nackAccess s)

/-- CRES_READ (R356). -/
def execCresRead (s : State) : Host.Outcome State Fault Refusal :=
  .next (if busUp s && !s.glob.floor then cresBlock (ackAccess s) else nackAccess s)

/-! Writes of command codes. -/

/-- PAGE (R25, R335, R343). -/
def pageByte (v : Byte) (s : State) : State :=
  if responder s then
    (if v = 0x00 ∨ v = 0x48 ∨ v = 0x60 then ackAccess { s with regs := { s.regs with page := v } } else nackAccess s)
  else if !busUp s then nackAccess s
  else if s.glob.floor ∧ v ≠ 0 then berrUnalloc (ackAccess s)
  else ackAccess { s with regs := { s.regs with page := v } }

/-- PAGE_WRITE. -/
def execPageWrite (v : Byte) (s : State) : Host.Outcome State Fault Refusal := .next (pageByte v s)

/-- CRESOFS (R343). -/
def cresofsWord (v : Word) (s : State) : State :=
  if v.toNat > 511 then berrRsvenc s else { s with bus := { s.bus with ofs := v.toNat } }

/-- CRESOFS_WRITE. -/
def execCresofsWrite (v : Word) (s : State) : Host.Outcome State Fault Refusal :=
  .next (if busUp s && !s.glob.floor then cresofsWord v (ackAccess s) else nackAccess s)

/-- A listed code written with a protocol not listed for it (R344). -/
def wrongWrite (s : State) : State := berrRorsv (nackAccess s)

/-- A window write (R345 to R347, R349): with PEC on it takes effect whole or not at all. A Block Write on the window is a
sequential write whose first byte is the count. -/
def writeWindow (o : Nat) (w : BusWrite) (s : State) : State :=
  let bs := match w.proto with | .block => by8 w.count :: w.data | _ => w.data
  let p := s.regs.page.toNat
  if pecOn s ∧ o + bs.length > 0xE0 then berrRorsv (nackAccess s)
  else if pecFails s w.pec then pecError (ackAccess s)
  else writeSeq (fun _ => true) busUp p o bs (ackAccess s)

/-- The commands of R361, as the rows that run them. Facts that a row takes beside the packet are free. -/
def packetCommand (op : Byte) (p : Packet) (s : State) : Option Instr :=
  let f := Config.freeBool s.free
  match op.toNat with
  | 0x01 => some (.echo p) | 0x02 => some (.getInfo p) | 0x03 => some (.dsXfer p) | 0x10 => some (.txnCommit p)
  | 0x11 => some (.txnAbort p) | 0x12 => some (.txnValidate p) | 0x13 => some (.txnRevert p) | 0x20 => some (.seqStart p)
  | 0x21 => some (.seqStop p) | 0x22 => some (.railRetry p) | 0x30 => some (.assayRun p) | 0x31 => some (.snapshotRead p)
  | 0x32 => some (.safeClear p) | 0x40 => some (.logRead p) | 0x41 => some (.logErase p) | 0x42 => some (.logFlush p)
  | 0x50 => some (.updBegin p) | 0x51 => some (.updData p f) | 0x52 => some (.updEnd p) | 0x53 => some (.updResumeInfo p)
  | 0x54 => some (.updConfirm p) | 0x55 => some (.updRollback p) | 0x60 => some (.otpProgram p f) | 0x61 => some (.otpLock p f)
  | 0x70 => some (.cellReplaced p) | 0x71 => some (.learnStatus p) | 0x80 => some (.pilotRole p) | 0x81 => some (.pilotRearm p)
  | 0x90 => some (.sessionOpen p) | 0x91 => some (.sessionProve p) | 0x92 => some (.sessionClose p)
  | 0xA0 => some (.patinaReport p) | 0xA1 => some (.spareSwap p) | 0xB0 => some (.sleepEnter p) | 0xB1 => some (.shipEnter p)
  | 0xB2 => some (.standbyEnter p) | 0xB3 => some (.standbyExit p) | 0xC0 => some (.rtcShift p) | 0xF0 => some (.selfReset p)
  | _ => none

/-- A Block Write to 0xE0 (R353, R354, R357): the byte count is judged before the PEC can follow; a packet that is accepted shows
in CSTAT as accepted, and the row of its opcode, which runs it, comes next; an opcode that R361 does not list is rejected here. -/
def writePacket (w : BusWrite) (s : State) : State :=
  if !packetsTaken s then nackAccess s
  else if w.proto ≠ .block then wrongWrite s
  else packetGate w.count (fun s =>
    if pecFails s w.pec then pecError (nackAccess s)
    else match w.data with
    | op :: tag :: len :: params =>
      let p : Packet := ⟨w.count, tag, len, params⟩
      (match packetCommand op p s with
       | some c => runNext c (takeSlot op tag (ackAccess { s with free := s.free + 1 }))
       | none => packet op false p (fun s => reject 0xF0 s) s)
    | l => packet (l.getD 0 0) false ⟨w.count, l.getD 1 0, 0xFF, []⟩ (fun s => s) s) s

/-- A write of a command code with its protocol. -/
def writeCode (w : BusWrite) (s : State) : State :=
  if !listed w.code || floorDenies s w.code then nackAccess s
  else if w.code.toNat < 0xE0 then (if w.proto = .other then wrongWrite s else writeWindow w.code.toNat w s)
  else if w.code = 0xE0 then writePacket w s
  else match w.proto, w.data with
  | .writeWord, [a, b] =>
    if w.code = 0xE3 then (if pecFails s w.pec then pecError (nackAccess s) else cresofsWord (b ++ a) (ackAccess s))
    else if w.code = 0xF1 then (if pecFails s w.pec then pecError (nackAccess s) else kick (b ++ a) (ackAccess s))
    else wrongWrite s
  | .writeByte, [v] =>
    if w.code = 0xF0 then (if pecFails s w.pec then pecError (nackAccess s) else pageByte v s) else wrongWrite s
  | _, _ => wrongWrite s

/-- A write answered by the sleep-rate responder (R335). -/
def writeSleep (w : BusWrite) (s : State) : State :=
  let p := s.regs.page.toNat
  if w.code = 0xF0 then
    (match w.proto, w.data with
     | .writeByte, [v] => if pecFails s w.pec then pecError (nackAccess s) else pageByte v s
     | _, _ => nackAccess s)
  else if w.code.toNat < 0xE0 ∧ sleepWritesAt p w.code.toNat then
    (if pecOn s ∧ w.code.toNat + w.data.length > 0xE0 then berrRorsv (nackAccess s)
     else if pecOn s ∧ !(List.range w.data.length).all (fun i => sleepWritesAt p (w.code.toNat + i)) then nackAccess s
     else if pecFails s w.pec then pecError (ackAccess s) else writeSeq (sleepWritesAt p) responder p w.code.toNat w.data (ackAccess s))
  else nackAccess s

/-- REGISTER_WRITE (R468). -/
def execRegisterWrite (w : BusWrite) (s : State) : Host.Outcome State Fault Refusal :=
  .next (if responder s then writeSleep w s else if busUp s then writeCode w s else nackAccess s)

/-- A Receive Byte: the STATE byte, with the PEC of its two bytes where PEC is on (R339, R349). -/
def receiveByte (s : State) : State :=
  let b := stateByte s
  drive (if pecOn s then [b, crc8 [by8 (2 * ownAddr s + 1), b]] else [b]) (ackAccess s)

/-- QUICK_COMMAND: a Quick Command and a Send Byte are acknowledged and have no effect; a Receive Byte returns the STATE byte
(R339). The responder acknowledges its address, and a Send Byte of a code that it accepts (R335). -/
def execQuickCommand (x : ShortBus) (s : State) : Host.Outcome State Fault Refusal :=
  .next (match x with
    | .receive => if responder s || busUp s then receiveByte s else nackAccess s
    | .quick => if responder s || busUp s then ackAccess s else nackAccess s
    | .send c =>
      if responder s then
        (if c = 0xFE ∨ c = 0xF0 ∨ (c.toNat < 0xE0 ∧ sleepReads s.regs.page.toNat c.toNat) then ackAccess s else nackAccess s)
      else if busUp s then ackAccess s else nackAccess s)

/-! The bus interface resets itself (R342). -/

/-- TMOCNT and TIMEOUT. -/
def busTimeout (s : State) : State := raiseG 56 1 { s with bus := { s.bus with tmocnt := satAdd 0xFFFF 1 s.bus.tmocnt } }

/-- HB_TIMEOUT. -/
def execHbTimeout (s : State) : Host.Outcome State Fault Refusal :=
  .next (if busUp s && (pl s (key 0x4C 0)).getLsbD 1 then busTimeout s else s)
/-- SDA_HOLD_TIMEOUT. -/
def execSdaHoldTimeout (s : State) : Host.Outcome State Fault Refusal := .next (if busUp s then busTimeout s else s)

/-! The alert response and Host Notify (R350 to R352). -/

/-- ALERT_RESPONSE: the device drives its address only while it drives nALERT; a lost arbitration leaves nALERT as it is. -/
def execAlertResponse (won : Bool) (s : State) : Host.Outcome State Fault Refusal :=
  .next (if !busUp s || !s.irq.alert then nackAccess s
    else if won then drive [by8 (2 * ownAddr s)] (ackAccess { s with irq := { s.irq with alert := false } })
    else ackAccess s)

/-- The lowest group with a source delivered to t, or 0xFF. -/
def lowestGroup (s : State) (t : Nat) : Nat :=
  match (List.range 64).find? (fun g => (tsum s t).getLsbD g) with | some g => g | none => 0xFF

/-- The bytes of a Host Notify. -/
def notifyBytes (s : State) : List Byte :=
  [by8 (2 * rdBits (pl s) (key 0x4C 2) 0 7), by8 (2 * ownAddr s), by8 (statusSum s), by8 (lowestGroup s (rdBits (pl s) (key 0x4C 1) 1 3))]

/-- A notify may be sent: one is due, HNCFG.EN, no HNSUSP. -/
def mayNotify (s : State) : Bool := busUp s && !s.glob.floor && decide (0 < s.bus.hn) && !s.bus.hnsusp && (pl s (key 0x4C 1)).getLsbD 0

/-- One notify is over. -/
def notifyOver (s : State) : State := { s with bus := { s.bus with hn := s.bus.hn - 1, hnLost := 0 } }

/-- HOST_NOTIFY. -/
def execHostNotify (e : NotifyEnd) (s : State) : Host.Outcome State Fault Refusal :=
  .next (if !mayNotify s then s
    else match e with
    | .sent => raiseG 56 2 (notifyOver (drive (notifyBytes s) s))
    | .nack => raiseG 56 3 (notifyOver (drive ((notifyBytes s).take 1) s))
    | .lost k =>
      let s := match k with | .data => s | .stop => raiseG 56 4 s | .restart => raiseG 56 5 s
      let s := { s with bus := { s.bus with hnLost := s.bus.hnLost + 1 } }
      if s.bus.hnLost ≥ 3 then raiseG 56 7 (notifyOver s) else s)

/-- HNSTUCK: SDA stayed low through both rounds of the clear (R352). -/
def execHnstuck (s : State) : Host.Outcome State Fault Refusal :=
  .next (if mayNotify s then raiseG 56 6 { s with bus := { s.bus with hnsusp := true } } else s)
/-- HNSUSP_CLEAR. -/
def execHnsuspClear (s : State) : Host.Outcome State Fault Refusal := .next { s with bus := { s.bus with hnsusp := false } }

/-! ECHO, GET_INFO, SELF_RESET (R362, R364). -/

/-- ECHO. -/
def execEcho (p : Packet) (s : State) : Host.Outcome State Fault Refusal := .next (packet 0x01 false p (fun s => doneWith p.params s) s)

/-- GET_INFO's sixteen bytes. -/
def infoBytes (s : State) : List Byte :=
  [0x26, 0x40, 0xB0] ++ fwVersion s ++ [by8 s.upd.bootedB.toNat, by8 (arcnt s.otp.shd)] ++ leBytes 4 (opSec s) ++
  leBytes 3 s.clk.cycles ++ [by8 s.bus.level]

/-- GET_INFO. -/
def execGetInfo (p : Packet) (s : State) : Host.Outcome State Fault Refusal :=
  .next (packet 0x02 false p (fun s => if p.params ≠ [] then reject 0x01 s else doneWith (infoBytes s) s) s)

/-- SELF_RESET: CSTAT stays busy until the reset. -/
def execSelfReset (p : Packet) (s : State) : Host.Outcome State Fault Refusal :=
  .next (packet 0xF0 false p (fun s =>
    if p.params ≠ [] ∨ (s.glob.st ≠ .run ∧ s.glob.st ≠ .standby) then reject 0x01 s else requestReset .cmd (slotBusy s)) s)

/-! Privileged sessions (R358 to R360). -/

/-- A nonce drawn now: sixteen free bytes (log entry 8). -/
def nonceNow (s : State) : List Byte := (List.range 16).map (Config.nonceByte s.free)

/-- SESSION_OPEN's own checks and effect. -/
def sessionOpenBody (p : Packet) (s : State) : State :=
  match p.params with
  | [v] =>
    if v ≠ 1 ∧ v ≠ 2 then reject 0x01 s
    else if s.bus.level ≠ 0 then reject 0x02 s
    else if s.bus.lock then reject 0x03 s
    else if (List.range 64).all (fun i => decide (fuse s.otp.shd 4 i = 0)) then reject 0x04 s
    else
      let n := nonceNow s
      arm (sec 10) .nonceExpire (doneWith n { s with free := s.free + 1, bus := { s.bus with nonce := some (n, v.toNat) } })
  | _ => reject 0x01 s

/-- SESSION_OPEN. -/
def execSessionOpen (p : Packet) (s : State) : Host.Outcome State Fault Refusal := .next (packet 0x90 false p (sessionOpenBody p) s)

/-- A wrong proof: the nonce is used up; the third in a row locks out for 60 s. -/
def wrongProof (level : Nat) (s : State) : State :=
  let s := logSecurity 2 level 0 { s with bus := { s.bus with nonce := none, failn := s.bus.failn + 1 } }
  let s := disarm .nonceExpire s
  if s.bus.failn ≥ 3 then
    arm (sec 60) .sesslockEnd (raiseG 56 10 (logSecurity 3 level 0 { s with bus := { s.bus with lock := true } }))
  else s

/-- SESSION_PROVE's own checks and effect. -/
def sessionProveBody (p : Packet) (s : State) : State :=
  match s.bus.nonce with
  | none => reject 0x01 s
  | some (n, level) =>
    if p.params.length ≠ 16 then reject 0x01 s
    else if s.bus.lock then reject 0x03 s
    else if p.params = sessionProof ((List.range 64).map (fuse s.otp.shd 4)) n level then
      touchSession (raiseG 56 8 (logSecurity 1 level 0 (disarm .nonceExpire
        (doneWith [] { s with bus := { s.bus with nonce := none, failn := 0, level := level } }))))
    else reject 0x02 (wrongProof level s)

/-- SESSION_PROVE. -/
def execSessionProve (p : Packet) (s : State) : Host.Outcome State Fault Refusal := .next (packet 0x91 false p (sessionProveBody p) s)

/-- The session ends: SESSCLOSE where one was open. -/
def closeSession (s : State) : State :=
  if s.bus.level = 0 then s else raiseG 56 9 (disarm .sesstmo { s with bus := { s.bus with level := 0 } })

/-- SESSION_CLOSE: always done (R359). -/
def execSessionClose (p : Packet) (s : State) : Host.Outcome State Fault Refusal :=
  .next (packet 0x92 false p (fun s => doneWith [] (closeSession s)) s)
/-- SESSTMO. -/
def execSesstmo (s : State) : Host.Outcome State Fault Refusal := .next (closeSession (disarm .sesstmo s))
/-- NONCE_EXPIRE: the nonce is 10 s old. -/
def execNonceExpire (s : State) : Host.Outcome State Fault Refusal := .next (disarm .nonceExpire { s with bus := { s.bus with nonce := none } })
/-- SESSLOCK_END: the lockout ends and the failure count clears. -/
def execSesslockEnd (s : State) : Host.Outcome State Fault Refusal :=
  .next (disarm .sesslockEnd (if s.bus.lock then { s with bus := { s.bus with lock := false, failn := 0 } } else s))

/-! HBCTL (R347, R368). -/

/-- HELDCLR. -/
def execHeldclr (s : State) : Host.Outcome State Fault Refusal := .next (onPage 0x4C heldclrBit s)
/-- CNTCLR. -/
def execCntclr (s : State) : Host.Outcome State Fault Refusal := .next (onPage 0x4C busCntClr s)

end Sys2Proof.Machine
end

