-- ==== Sys2Proof/Machine/Boot.lean ====
section
/-! DEFINITION. The boot (R23, R52, R197, R326, R387, R401, R424, R444, R445): which slot runs, what the configuration bank
loads, the boot commit, the full Assay, and Floor mode. -/

namespace Sys2Proof.Machine

/-! Floor mode (R23, R24, R173, R424). -/

/-- The boot is over: the common start, idle STANDBY, or MINOFF first after a reset that a reaction or the engine asked for
(R159, R326). SAFE entered meanwhile stays (R208). -/
def bootDecide (s : State) : State :=
  let wait := s.glob.minoffAfterBoot
  let s := disarm .fwBootTimeout { s with glob := { s.glob with boot := false, minoffAfterBoot := false } }
  if s.glob.st = .safe then settle s
  else if wait then arm (minoff (lv s)) .minoffEnd s else decideStart s

/-- Floor mode is entered at boot (R23, R24). -/
def floorBoot (cause : Nat) (s : State) : State :=
  let s := { s with glob := { s.glob with floor := true, floorcause := cause, fwup := false, rstcause := setBit s.glob.rstcause 10 true } }
  bootDecide (pilotPassive (floorLoad { s with glob := { s.glob with floorTab := true } }))

/-! The slot (R444 to R446). -/

/-- Anvil's verified flags, as the boot ROM finds the two slots (R444, R445). -/
def verifySlots (s : State) : State := { s with upd := { s.upd with verA := slotBoots s false, verB := slotBoots s true } }

/-- A version as one number. -/
def verNum (h : Option SlotHdr) : Nat :=
  match h with | some h => (byteN h.ver 0 * 256 + byteN h.ver 1) * 256 + byteN h.ver 2 | none => 0

/-- The slot the journal names, or without one the bootable slot with the higher version. -/
def wantedSlot (s : State) : Bool :=
  match jrnBank s.upd with
  | some j => j.nextB
  | none => slotBoots s true && (!slotBoots s false || decide (verNum s.upd.slotA < verNum s.upd.slotB))

/-- The slot that boots: the wanted one, else the other. -/
def chosenSlot (s : State) (w : Bool) : Option Bool := if slotBoots s w then some w else if slotBoots s (!w) then some (!w) else none

/-- The boot ROM boots a slot; the other one than the journal's raises BOOTALT. -/
def bootSlot (w b : Bool) (s : State) : State :=
  raiseIf (decide (b ≠ w)) (16 * 54 + 11) { s with upd := { s.upd with bootedB := b } }

/-- The ROM's part of a fall-back at boot; its journal entry follows once the firmware runs. -/
def bootFallback (b : Bool) (s : State) : State :=
  { s with upd := { s.upd with bootedB := b, nextB := b, fell := true, confEnd := none } }

/-- TTRIAL of the session's manifest, in half microseconds (R433). -/
def ttrial (u : Upd) : Nat := sec (60 * (u.man.map (·.ttrial)).getD 1)

/-- The boot ROM's work on the journal and the slots; none where no slot is bootable. True: the journal is to be written. A session
without firmware part activates in the slot that is booted already. -/
def romBoot (s : State) : Option (Bool × State) :=
  let u := s.upd
  if u.st = 3 then
    let new := if (u.man.map (·.fw)).getD false then !u.bootedB else u.bootedB
    if slotBoots s new then
      let s := { s with upd := { u with st := 5, boots := 1, nextB := new, bootedB := new, cfgNew := 0, trialEnd := s.clk.op + ttrial u } }
      some (true, logUpdate (raiseG 55 7 s))
    else (chosenSlot s u.bootedB).map (fun b => (false, bootFallback b s))
  else if u.st = 5 then
    if u.fell then (chosenSlot s u.bootedB).map (fun b => (false, bootFallback b s))
    else if u.boots ≥ 3 then (chosenSlot s (prevSlot u)).map (fun b => (false, bootFallback b s))
    else (chosenSlot s (wantedSlot s)).map (fun b =>
      let s := bootSlot (wantedSlot s) b s
      (true, { s with upd := { s.upd with boots := u.boots + 1 } }))
  else (chosenSlot s (wantedSlot s)).map (fun b => (false, bootSlot (wantedSlot s) b s))

/-! The configuration part (R401, R444). -/

/-- The keys of every staged byte. -/
def allStaged : List Nat :=
  (stagedPages.map (fun p => (List.range 0x60).filterMap (fun o => if p = 0x22 ∧ o < 8 then none else some (key p o)))).flatten ++
  ((List.range 32).map (fun r => (List.range 8).map (rx r))).flatten

/-- The keys of every plain byte that a bank holds. -/
def allSavedPlain : List Nat :=
  ([0x01, 0x32, 0x38, 0x45, 0x48, 0x4C, 0x4D, 0x56, 0x58].map (fun p =>
    ((List.range 0xE0).map (key p)).filter (fun k => savedPlain k))).flatten ++
  ((List.range 32).map (fun n => (List.range 9).map (fun i => seqKey n (0x11 + i)))).flatten ++
  ((List.range 64).map (fun c => (List.range 7).map (fun i => thKey c (1 + i)))).flatten

/-- A map of register bytes that the part holds, by kind of item. -/
def partMap (part : List Byte) (kind : Nat) (ks : List Nat) : RegMap :=
  ks.foldl (fun m k => rput m k (BitVec.ofNat 8 (Config.cfgItem part kind k) &&& fieldMask (keyPage k) (keyOff k))) []

/-- What a configuration part holds; its layout is not stated (log entry 8). -/
def partImage (part : List Byte) (seq : Nat) : CfgImg :=
  let item := Config.cfgItem part
  { seq := seq, staged := partMap part 0 allStaged, plain := partMap part 1 allSavedPlain
    sched := (List.range 128).foldl (fun m i => mput 0 m i (BitVec.ofNat 32 (item 2 i))) []
    mask := (List.range 64).foldl (fun m g => mput 0xFFFF m g (BitVec.ofNat 16 (item 3 g))) []
    route := (List.range 1024).foldl (fun m x => mput 0 m x (BitVec.ofNat 4 (item 4 x))) []
    txnappl := by8 (item 5 0) }

/-- At the activating boot the configuration part enters the older bank with the next sequence number. -/
def writePart (s : State) : State :=
  if s.upd.st = 5 ∧ s.upd.boots = 1 ∧ (s.upd.man.map (·.cfg)).getD false ∧ !s.fl.ro.getLsbD 2 then
    let second := cfgSecond s
    let part := cfgPart s
    let img := partImage part (nextSeq (s.fl.cfgA.map CfgImg.seq) (s.fl.cfgB.map CfgImg.seq))
    let (got, s) := landNow (if second then 196 else 192) (some (frameOf 1 part.length)) s
    if !got then s
    else { s with fl := if second then { s.fl with cfgB := some img } else { s.fl with cfgA := some img }, upd := { s.upd with cfgNew := 1 + second.toNat } }
  else s

/-! Loading the configuration bank (R52, R197, R387, R401). -/

/-- This boot follows a power-on reset or an exit from SHIP: nothing but those bits shows, and the device did not wake from
SLEEP. -/
def powerBoot (s : State) : Bool := decide (s.glob.rstcause &&& ~~~0x203 = 0) && decide (s.pwr.woke ≠ some false)

/-- The bank loads this plain byte: CALTRIM and XTALCFG after a power-on reset only. -/
def loadsPlain (s : State) (k : Nat) : Bool := savedPlain k && (decide (keyPage k ≠ 0x48) || powerBoot s)

/-- Plain pages, masks, routes and the schedule of the bank; a changed EDGE or EN forces FREE (R36); what is pending is
delivered afresh. -/
def loadPlain (c : CfgImg) (s : State) : State :=
  let e0 := rdBits (pl s) (key 1 0) 1 2
  let kept := s.regs.plain.filter (fun (k, _) => !loadsPlain s k)
  let plain := (c.plain.filter (fun (k, _) => loadsPlain s k)).foldl (fun m (k, b) => rput m k b) kept
  let s0 := s
  let s := { s with regs := { s.regs with plain := plain }, irq := { s.irq with mask := c.mask, route := c.route } }
  let s := afterIrq s0 (pendingSources s) (reassign (pendingSources s) s)
  let s := if !cycEn s ∨ rdBits (pl s) (key 1 0) 1 2 ≠ e0 then toFree s else s
  let s := setEdit c.sched s
  { s with cyc := { s.cyc with schSt := 1, reason := 0, swapOk := false } }

/-- The bank in force is loaded, the schedule's swap is pending, and the boot commit runs. -/
def loadBank (s : State) : State :=
  match cfgBank s with
  | some c => bootCommit (loadPlain c { s with regs := { s.regs with stg := c.staged } })
  | none => bootCommit (raiseG 53 2 s)

/-! The end of the boot. -/

/-- What starts the gauge at this boot (R307). -/
def gaugeKind (s : State) : GaugeStart :=
  match s.pwr.woke with
  | some false => .sleep
  | some true => .ship
  | none => if powerBoot s then .por else .restart

/-- WOKE or SHIPEXIT, once the firmware runs (R334). -/
def wokeEvent (s : State) : State :=
  let w := s.pwr.woke
  let s := { s with pwr := { s.pwr with woke := none } }
  match w with | some false => raiseG 62 4 s | some true => raiseG 62 5 s | none => s

/-- A cause of R446 has shown at this boot: BOOTREJ, or a full Assay failure. -/
def bootFails (s : State) : Bool := decide (s.txn.res = 4 ∨ s.tst.full = 3) && decide (s.upd.st = 5) && !s.upd.fell

/-- TTRIAL runs in a trial (R446): where its count was lost with the islands' power, from its start (R20). -/
def trialWatch (s : State) : State :=
  if s.upd.st = 5 ∧ !s.upd.fell then
    let s := if s.upd.trialEnd = 0 then { s with upd := { s.upd with trialEnd := s.clk.op + ttrial s.upd } } else s
    arm (s.upd.trialEnd - s.clk.op) .ttrialExpire s
  else s

/-- What the firmware starts with once its configuration is loaded: the update engine, the gauge, the periodic events and polls. -/
def firmwareStart (s : State) : State :=
  let s := scrubLateCheck (updInterrupted s)
  let s := wokeEvent (gaugeStart (gaugeKind s) (logReset s))
  trialWatch (pollWatch (arm (sec 1) .logTimer s))

/-- After a power-on reset and an exit from SLEEP or SHIP the spare roles are those of the ledger in force (R400); a Floor boot
has no ledger (R24). -/
def loadRoles (s : State) : State :=
  if powerBoot s ∨ s.pwr.woke.isSome then
    (match patBank s.pat with | some b => { s with bk := { s.bk with ph := b.ph, ldo := b.ldo } } | none => s)
  else s

/-- The boot of a firmware slot ends; `jrn`: the journal is written, behind the scan of the headers (R394). Not so where its full Assay leads to a
system reset (R222, R159): the boot then begins again. -/
def slotBoot (b : BootInfo) (jrn : Bool) (s : State) : State :=
  let s := headerScan (b.assay.sectors.map (·.val)) { s with glob := { s.glob with fwup := true, fwFails := 0 } }
  let s := writePart (if jrn then journalNow s else s)
  let s := startRounds (firmwareStart (loadBank (loadRoles s)))
  let s := publishAssay true b.assay s
  if !s.glob.fwup then s
  else
    let s := recomputePend (raiseG 60 4 s)
    let s := if s.upd.fell then fellBack s else s
    if !s.glob.fwup then s
    else
      let s := pilotFollow (bootDecide s)
      grant (if bootFails s then fallback s else s)

/-- BOOT_END (R23, R326). -/
def execBootEnd (b : BootInfo) (s : State) : Host.Outcome State Fault Refusal :=
  .next (if !s.glob.boot || !anvilOn s || s.glob.floor then s
    else if (fuse s.otp.shd 6 0).getLsbD 0 then floorBoot 2 s
    else if !b.flashOk then floorBoot 5 s
    else match romBoot s with
      | none => floorBoot 1 s
      | some (jrn, s) => slotBoot b jrn (verifySlots s))

/-- FW_BOOT_TIMEOUT: 50 ms after its release the island does not run; on the second attempt in a row Floor mode, at boot or at a
restart (R23, R215). -/
def execFwBootTimeout (s : State) : Host.Outcome State Fault Refusal :=
  .next (
    let s := disarm .fwBootTimeout s
    if !(s.glob.boot || s.glob.restarting) || !anvilOn s || s.glob.fwup || s.glob.floor then s
    else if s.glob.fwFails = 0 then arm (ms 50) .fwBootTimeout { s with glob := { s.glob with fwFails := 1 } }
    else if s.glob.boot then floorBoot 3 s else floorRunning 3 s)

end Sys2Proof.Machine
end

