-- ==== Sys2Proof/Machine/Dispatch.lean ====
section
/-! DEFINITION. One arm per command: a direct call of its meaning. -/

namespace Sys2Proof.Machine

def exec (i : Instr) (s : State) : Host.Outcome State Fault Refusal :=
  match i with
  | .powerOnReset vsys vin ohms => Sys2Proof.Machine.execPowerOnReset vsys vin ohms s
  | .logicSupplySelect rising vin => Sys2Proof.Machine.execLogicSupplySelect rising vin s
  | .logicSupplyLoss => Sys2Proof.Machine.execLogicSupplyLoss s
  | .bootEnd b => Sys2Proof.Machine.execBootEnd b s
  | .fwBootTimeout => Sys2Proof.Machine.execFwBootTimeout s
  | .rstkeyWrite v => Sys2Proof.Machine.execRstkeyWrite v s
  | .rstkeyCancel => Sys2Proof.Machine.execRstkeyCancel s
  | .rstclr => Sys2Proof.Machine.execRstclr s
  | .busclr => Sys2Proof.Machine.execBusclr s
  | .registerWrite w => Sys2Proof.Machine.execRegisterWrite w s
  | .pageWrite v => Sys2Proof.Machine.execPageWrite v s
  | .fieldLatchRead code n => Sys2Proof.Machine.execFieldLatchRead code n s
  | .quickCommand x => Sys2Proof.Machine.execQuickCommand x s
  | .cycPulse e => Sys2Proof.Machine.execCycPulse e s
  | .acceptWindowClose => Sys2Proof.Machine.execAcceptWindowClose s
  | .acqMissSpan => Sys2Proof.Machine.execAcqMissSpan s
  | .acqtmo => Sys2Proof.Machine.execAcqtmo s
  | .cycleEnd => Sys2Proof.Machine.execCycleEnd s
  | .cyccntRead => Sys2Proof.Machine.execCyccntRead s
  | .reacq => Sys2Proof.Machine.execReacq s
  | .cyccfgWrite v => Sys2Proof.Machine.execCyccfgWrite v s
  | .nomfreqWrite v => Sys2Proof.Machine.execNomfreqWrite v s
  | .schent3Write v => Sys2Proof.Machine.execSchent3Write v s
  | .schent3Read => Sys2Proof.Machine.execSchent3Read s
  | .schctlSwap => Sys2Proof.Machine.execSchctlSwap s
  | .schctlCopy => Sys2Proof.Machine.execSchctlCopy s
  | .schctlClear => Sys2Proof.Machine.execSchctlClear s
  | .scheduleValidationEnd => Sys2Proof.Machine.execScheduleValidationEnd s
  | .conv seq => Sys2Proof.Machine.execConv seq s
  | .quiet len => Sys2Proof.Machine.execQuiet len s
  | .quietEnd => Sys2Proof.Machine.execQuietEnd s
  | .commit => Sys2Proof.Machine.execCommit s
  | .phase r avg => Sys2Proof.Machine.execPhase r avg s
  | .swap => Sys2Proof.Machine.execSwap s
  | .logflush => Sys2Proof.Machine.execLogflush s
  | .dither => Sys2Proof.Machine.execDither s
  | .pathQualify x m => Sys2Proof.Machine.execPathQualify x m s
  | .preferHandback x => Sys2Proof.Machine.execPreferHandback x s
  | .pathConductionChange x on => Sys2Proof.Machine.execPathConductionChange x on s
  | .ova x m => Sys2Proof.Machine.execOva x m s
  | .inputOvClear x m => Sys2Proof.Machine.execInputOvClear x m s
  | .reva x m => Sys2Proof.Machine.execReva x m s
  | .reverseReclose x m => Sys2Proof.Machine.execReverseReclose x m s
  | .foca x m => Sys2Proof.Machine.execFoca x m s
  | .slowa x m => Sys2Proof.Machine.execSlowa x m s
  | .uva x m => Sys2Proof.Machine.execUva x m s
  | .inrushComplete x m => Sys2Proof.Machine.execInrushComplete x m s
  | .inrushtmo x => Sys2Proof.Machine.execInrushtmo x s
  | .pathRetryEnd x m => Sys2Proof.Machine.execPathRetryEnd x m s
  | .tripCountClear x => Sys2Proof.Machine.execTripCountClear x s
  | .inctlClr a b => Sys2Proof.Machine.execInctlClr a b s
  | .inloss => Sys2Proof.Machine.execInloss s
  | .plim on => Sys2Proof.Machine.execPlim on s
  | .powerGood r => Sys2Proof.Machine.execPowerGood r s
  | .uv r mon => Sys2Proof.Machine.execUv r mon s
  | .ov r mon => Sys2Proof.Machine.execOv r mon s
  | .ovHoldRelease r => Sys2Proof.Machine.execOvHoldRelease r s
  | .ocfast x => Sys2Proof.Machine.execOcfast x s
  | .overloadClamp r demand => Sys2Proof.Machine.execOverloadClamp r demand s
  | .ocslow r => Sys2Proof.Machine.execOcslow r s
  | .thlim r => Sys2Proof.Machine.execThlim r s
  | .starttmo r => Sys2Proof.Machine.execStarttmo r s
  | .stageEnableDelay c => Sys2Proof.Machine.execStageEnableDelay c s
  | .rampEnd r => Sys2Proof.Machine.execRampEnd r s
  | .strike c => Sys2Proof.Machine.execStrike c s
  | .strikeEnd c => Sys2Proof.Machine.execStrikeEnd c s
  | .brake c => Sys2Proof.Machine.execBrake c s
  | .brakeEnd c => Sys2Proof.Machine.execBrakeEnd c s
  | .blankingEnd c k trig => Sys2Proof.Machine.execBlankingEnd c k trig s
  | .addPhase r => Sys2Proof.Machine.execAddPhase r s
  | .phaseflt d => Sys2Proof.Machine.execPhaseflt d s
  | .sparein d => Sys2Proof.Machine.execSparein d s
  | .stgflt x => Sys2Proof.Machine.execStgflt x s
  | .imbal r => Sys2Proof.Machine.execImbal r s
  | .swapOverlapEnd d => Sys2Proof.Machine.execSwapOverlapEnd d s
  | .quenchEnd r timeout => Sys2Proof.Machine.execQuenchEnd r timeout s
  | .pvinLow c => Sys2Proof.Machine.execPvinLow c s
  | .pvinRestore c => Sys2Proof.Machine.execPvinRestore c s
  | .minton x => Sys2Proof.Machine.execMinton x s
  | .hotspot r => Sys2Proof.Machine.execHotspot r s
  | .hotspotRelease r => Sys2Proof.Machine.execHotspotRelease r s
  | .dropout x => Sys2Proof.Machine.execDropout x s
  | .revblk c => Sys2Proof.Machine.execRevblk c s
  | .revblkRelease c => Sys2Proof.Machine.execRevblkRelease c s
  | .vlow c => Sys2Proof.Machine.execVlow c s
  | .vlowRestart c => Sys2Proof.Machine.execVlowRestart c s
  | .railEnable r => Sys2Proof.Machine.execRailEnable r s
  | .railOffDelay r => Sys2Proof.Machine.execRailOffDelay r s
  | .railDown r => Sys2Proof.Machine.execRailDown r s
  | .stoptmo r => Sys2Proof.Machine.execStoptmo r s
  | .minoffEnd => Sys2Proof.Machine.execMinoffEnd s
  | .retrySpaceEnd r => Sys2Proof.Machine.execRetrySpaceEnd r s
  | .retryCountClear r => Sys2Proof.Machine.execRetryCountClear r s
  | .resetRelease x => Sys2Proof.Machine.execResetRelease x s
  | .extpgdly n => Sys2Proof.Machine.execExtpgdly n s
  | .strkclr c => Sys2Proof.Machine.execStrkclr c s
  | .cntctlClr => Sys2Proof.Machine.execCntctlClr s
  | .cntctlClrall => Sys2Proof.Machine.execCntctlClrall s
  | .monctlClr => Sys2Proof.Machine.execMonctlClr s
  | .txnCommit p => Sys2Proof.Machine.execTxnCommit p s
  | .validationEnd => Sys2Proof.Machine.execValidationEnd s
  | .commitApply => Sys2Proof.Machine.execCommitApply s
  | .commitDeadline => Sys2Proof.Machine.execCommitDeadline s
  | .txnAbort p => Sys2Proof.Machine.execTxnAbort p s
  | .txnValidate p => Sys2Proof.Machine.execTxnValidate p s
  | .txnRevert p => Sys2Proof.Machine.execTxnRevert p s
  | .safeInput a b => Sys2Proof.Machine.execSafeInput a b s
  | .disc => Sys2Proof.Machine.execDisc s
  | .safeHoldEnd r => Sys2Proof.Machine.execSafeHoldEnd r s
  | .safeClear p => Sys2Proof.Machine.execSafeClear p s
  | .wdKick w pec => Sys2Proof.Machine.execWdKick w pec s
  | .wdlate => Sys2Proof.Machine.execWdlate s
  | .lsfail => Sys2Proof.Machine.execLsfail s
  | .lockup => Sys2Proof.Machine.execLockup s
  | .eccded => Sys2Proof.Machine.execEccded s
  | .eccsec => Sys2Proof.Machine.execEccsec s
  | .fwwdt => Sys2Proof.Machine.execFwwdt s
  | .fwup => Sys2Proof.Machine.execFwup s
  | .lockstepExpire => Sys2Proof.Machine.execLockstepExpire s
  | .reffail ab ac bc => Sys2Proof.Machine.execReffail ab ac bc s
  | .oscfail o stopped => Sys2Proof.Machine.execOscfail o stopped s
  | .oscSlowCheck devA devB => Sys2Proof.Machine.execOscSlowCheck devA devB s
  | .assayRun p => Sys2Proof.Machine.execAssayRun p s
  | .assaydone r => Sys2Proof.Machine.execAssaydone r s
  | .operatingHour => Sys2Proof.Machine.execOperatingHour s
  | .spareSwap p => Sys2Proof.Machine.execSpareSwap p s
  | .patinaReport p => Sys2Proof.Machine.execPatinaReport p s
  | .snapshotRead p => Sys2Proof.Machine.execSnapshotRead p s
  | .hkRoundEnd d => Sys2Proof.Machine.execHkRoundEnd d s
  | .throttleGraceEnd r => Sys2Proof.Machine.execThrottleGraceEnd r s
  | .convSeqDone hkb vals => Sys2Proof.Machine.execConvSeqDone hkb vals s
  | .hkreqGo smp => Sys2Proof.Machine.execHkreqGo smp s
  | .hkreqDone v => Sys2Proof.Machine.execHkreqDone v s
  | .hkseqidxWrite v => Sys2Proof.Machine.execHkseqidxWrite v s
  | .hkseqStore => Sys2Proof.Machine.execHkseqStore s
  | .hkrflagRead => Sys2Proof.Machine.execHkrflagRead s
  | .thmeasWrite v => Sys2Proof.Machine.execThmeasWrite v s
  | .sensclr => Sys2Proof.Machine.execSensclr s
  | .pilotPeriod hi lo duty freq => Sys2Proof.Machine.execPilotPeriod hi lo duty freq s
  | .pwmoff => Sys2Proof.Machine.execPwmoff s
  | .pilotDcWindow mv => Sys2Proof.Machine.execPilotDcWindow mv s
  | .ppConversion mv => Sys2Proof.Machine.execPpConversion mv s
  | .pswWrite v => Sys2Proof.Machine.execPswWrite v s
  | .pack => Sys2Proof.Machine.execPack s
  | .rspsoft => Sys2Proof.Machine.execRspsoft s
  | .rsphard => Sys2Proof.Machine.execRsphard s
  | .pilotRole p => Sys2Proof.Machine.execPilotRole p s
  | .roledone => Sys2Proof.Machine.execRoledone s
  | .pilotRearm p => Sys2Proof.Machine.execPilotRearm p s
  | .genflt => Sys2Proof.Machine.execGenflt s
  | .genRestart => Sys2Proof.Machine.execGenRestart s
  | .sleepMonitor cp pp => Sys2Proof.Machine.execSleepMonitor cp pp s
  | .chargerHoldoffEnd vcell => Sys2Proof.Machine.execChargerHoldoffEnd vcell s
  | .vmidlow => Sys2Proof.Machine.execVmidlow s
  | .chargerVmidRestore => Sys2Proof.Machine.execChargerVmidRestore s
  | .chargePhaseChange vcell => Sys2Proof.Machine.execChargePhaseChange vcell s
  | .done => Sys2Proof.Machine.execDone s
  | .rechg => Sys2Proof.Machine.execRechg s
  | .cellov => Sys2Proof.Machine.execCellov s
  | .cellovClear => Sys2Proof.Machine.execCellovClear s
  | .tmrpre => Sys2Proof.Machine.execTmrpre s
  | .tmrfast => Sys2Proof.Machine.execTmrfast s
  | .ntcflt => Sys2Proof.Machine.execNtcflt s
  | .ntcRecover => Sys2Proof.Machine.execNtcRecover s
  | .ctband mv => Sys2Proof.Machine.execCtband mv s
  | .wdexp => Sys2Proof.Machine.execWdexp s
  | .chgctlKick => Sys2Proof.Machine.execChgctlKick s
  | .chgctlRestart => Sys2Proof.Machine.execChgctlRestart s
  | .chgsuspWrite v => Sys2Proof.Machine.execChgsuspWrite v s
  | .gaugeOffsetCal => Sys2Proof.Machine.execGaugeOffsetCal s
  | .slowSampling => Sys2Proof.Machine.execSlowSampling s
  | .slowSamplingExit => Sys2Proof.Machine.execSlowSamplingExit s
  | .accclr => Sys2Proof.Machine.execAccclr s
  | .cellReplaced p => Sys2Proof.Machine.execCellReplaced p s
  | .learnStatus p => Sys2Proof.Machine.execLearnStatus p s
  | .pwcfgWrite cnt v => Sys2Proof.Machine.execPwcfgWrite cnt v s
  | .rtcShift p => Sys2Proof.Machine.execRtcShift p s
  | .seqStart p => Sys2Proof.Machine.execSeqStart p s
  | .seqStop p => Sys2Proof.Machine.execSeqStop p s
  | .railRetry p => Sys2Proof.Machine.execRailRetry p s
  | .standbyEnter p => Sys2Proof.Machine.execStandbyEnter p s
  | .standbyExit p => Sys2Proof.Machine.execStandbyExit p s
  | .sleepEnter p => Sys2Proof.Machine.execSleepEnter p s
  | .shipEnter p => Sys2Proof.Machine.execShipEnter p s
  | .cresofsWrite v => Sys2Proof.Machine.execCresofsWrite v s
  | .alertResponse won => Sys2Proof.Machine.execAlertResponse won s
  | .hostNotify e => Sys2Proof.Machine.execHostNotify e s
  | .echo p => Sys2Proof.Machine.execEcho p s
  | .getInfo p => Sys2Proof.Machine.execGetInfo p s
  | .selfReset p => Sys2Proof.Machine.execSelfReset p s
  | .sessionOpen p => Sys2Proof.Machine.execSessionOpen p s
  | .sessionProve p => Sys2Proof.Machine.execSessionProve p s
  | .sessionClose p => Sys2Proof.Machine.execSessionClose p s
  | .dsXfer p => Sys2Proof.Machine.execDsXfer p s
  | .dsXferDone e => Sys2Proof.Machine.execDsXferDone e s
  | .dsPoll e => Sys2Proof.Machine.execDsPoll e s
  | .scltmo => Sys2Proof.Machine.execScltmo s
  | .stuckscl => Sys2Proof.Machine.execStuckscl s
  | .dsBusClear sda => Sys2Proof.Machine.execDsBusClear sda s
  | .dsClearRetry sda scl => Sys2Proof.Machine.execDsClearRetry sda scl s
  | .dsCutRestart => Sys2Proof.Machine.execDsCutRestart s
  | .dsctlClr => Sys2Proof.Machine.execDsctlClr s
  | .pendWrite g v => Sys2Proof.Machine.execPendWrite g v s
  | .maskWrite g v => Sys2Proof.Machine.execMaskWrite g v s
  | .routeWrite page off v => Sys2Proof.Machine.execRouteWrite page off v s
  | .rrmaskWrite v => Sys2Proof.Machine.execRrmaskWrite v s
  | .ovrclr k v => Sys2Proof.Machine.execOvrclr k v s
  | .wlclr k v => Sys2Proof.Machine.execWlclr k v s
  | .testtrig k v => Sys2Proof.Machine.execTesttrig k v s
  | .intPulseEnd t => Sys2Proof.Machine.execIntPulseEnd t s
  | .fwIntService src => Sys2Proof.Machine.execFwIntService src s
  | .flashSlotDone ok => Sys2Proof.Machine.execFlashSlotDone ok s
  | .cfgsave => Sys2Proof.Machine.execCfgsave s
  | .scrubDue => Sys2Proof.Machine.execScrubDue s
  | .scrublate => Sys2Proof.Machine.execScrublate s
  | .logRecordClose src => Sys2Proof.Machine.execLogRecordClose src s
  | .logTimer => Sys2Proof.Machine.execLogTimer s
  | .logRead p => Sys2Proof.Machine.execLogRead p s
  | .logErase p => Sys2Proof.Machine.execLogErase p s
  | .logFlush p => Sys2Proof.Machine.execLogFlush p s
  | .otpProgram p verify => Sys2Proof.Machine.execOtpProgram p verify s
  | .otpLock p verify => Sys2Proof.Machine.execOtpLock p verify s
  | .updBegin p => Sys2Proof.Machine.execUpdBegin p s
  | .updData p reads => Sys2Proof.Machine.execUpdData p reads s
  | .updEnd p => Sys2Proof.Machine.execUpdEnd p s
  | .updResumeInfo p => Sys2Proof.Machine.execUpdResumeInfo p s
  | .updConfirm p => Sys2Proof.Machine.execUpdConfirm p s
  | .updRollback p => Sys2Proof.Machine.execUpdRollback p s
  | .updctlActivate => Sys2Proof.Machine.execUpdctlActivate s
  | .ttrialExpire => Sys2Proof.Machine.execTtrialExpire s
  | .tconfExpire => Sys2Proof.Machine.execTconfExpire s
  | .updVerifyEnd reads => Sys2Proof.Machine.execUpdVerifyEnd reads s
  | .imbalRearm r => Sys2Proof.Machine.execImbalRearm r s
  | .stageTempLimitRelease c => Sys2Proof.Machine.execStageTempLimitRelease c s
  | .vaonOutOfWindow out => Sys2Proof.Machine.execVaonOutOfWindow out s
  | .calendarSecond => Sys2Proof.Machine.execCalendarSecond s
  | .caltrimStep => Sys2Proof.Machine.execCaltrimStep s
  | .ptick => Sys2Proof.Machine.execPtick s
  | .xtalstop => Sys2Proof.Machine.execXtalstop s
  | .xtalrun => Sys2Proof.Machine.execXtalrun s
  | .calctlSet => Sys2Proof.Machine.execCalctlSet s
  | .subsecRead => Sys2Proof.Machine.execSubsecRead s
  | .shiftdone => Sys2Proof.Machine.execShiftdone s
  | .wakepin => Sys2Proof.Machine.execWakepin s
  | .vinwake => Sys2Proof.Machine.execVinwake s
  | .hostwake => Sys2Proof.Machine.execHostwake s
  | .idleslp => Sys2Proof.Machine.execIdleslp s
  | .sleepPrepDone => Sys2Proof.Machine.execSleepPrepDone s
  | .hbTimeout => Sys2Proof.Machine.execHbTimeout s
  | .sdaHoldTimeout => Sys2Proof.Machine.execSdaHoldTimeout s
  | .cresRead => Sys2Proof.Machine.execCresRead s
  | .hnstuck => Sys2Proof.Machine.execHnstuck s
  | .hnsuspClear => Sys2Proof.Machine.execHnsuspClear s
  | .sesstmo => Sys2Proof.Machine.execSesstmo s
  | .nonceExpire => Sys2Proof.Machine.execNonceExpire s
  | .sesslockEnd => Sys2Proof.Machine.execSesslockEnd s
  | .heldclr => Sys2Proof.Machine.execHeldclr s
  | .cntclr => Sys2Proof.Machine.execCntclr s

end Sys2Proof.Machine
end

