-- ==== Sys2Proof/WellFormed.lean ====
section
/-! DEFINITION. Well-formed commands: what a sender on the host bus, the downstream bus or the converters can bring
about. The meanings are total and hold for ill-formed ones too. -/

namespace Sys2Proof

/-- The parameters of a packet are the bytes of the Block Write after opcode, TAG and LEN (R353); a byte count is one
byte (R343). -/
def Packet.wf (p : Packet) : Bool := decide (p.n ≤ 255) && decide (p.params.length = p.n - 3)

/-- A write carries the bytes that its protocol gives it (R344): one, two, or as many as its count byte says. -/
def BusWrite.wf (w : BusWrite) : Bool :=
  match w.proto with
  | .block => decide (w.count ≤ 255) && decide (w.data.length = w.count)
  | .writeByte => decide (w.data.length = 1)
  | .writeWord => decide (w.data.length = 2)
  | .window => decide (0 < w.data.length)
  | .other => true

/-- A round's currents: the mean lies between the least and the greatest value (R245). -/
def RoundData.wf (d : RoundData) : Bool := decide (d.iMin ≤ d.iMean) && decide (d.iMean ≤ d.iMax)

/-- A downstream transfer reads at most 64 bytes (R366). -/
def DsEnd.wf (e : DsEnd) : Bool :=
  match e with
  | .data bytes => decide (bytes.length ≤ 64)
  | .nackAddr => true
  | .nackData => true
  | .lost _ => true
  | .pecBad => true

/-- The command is one that its sender can form. -/
def Instr.wf (i : Instr) : Bool :=
  match i with
  | .registerWrite w => w.wf
  | .fieldLatchRead _ n => decide (0 < n)
  | .convSeqDone _ vals => decide (0 < vals.length ∧ vals.length ≤ 8)
  | .hkRoundEnd d => d.wf
  | .dsXferDone e => e.wf
  | .dsPoll e => match e with | some e => e.wf | none => true
  -- packets to 0xE0
  | .txnCommit p | .txnAbort p | .txnValidate p | .txnRevert p | .safeClear p | .assayRun p | .spareSwap p
  | .patinaReport p | .snapshotRead p | .pilotRole p | .pilotRearm p | .cellReplaced p | .learnStatus p | .rtcShift p
  | .seqStart p | .seqStop p | .railRetry p | .standbyEnter p | .standbyExit p | .sleepEnter p | .shipEnter p
  | .echo p | .getInfo p | .selfReset p | .sessionOpen p | .sessionProve p | .sessionClose p | .dsXfer p | .logRead p
  | .logErase p | .logFlush p | .otpProgram p _ | .otpLock p _ | .updBegin p | .updData p _ | .updEnd p
  | .updResumeInfo p | .updConfirm p | .updRollback p => p.wf
  -- every value of the operands can occur
  | .powerOnReset .. | .logicSupplySelect .. | .logicSupplyLoss | .bootEnd .. | .fwBootTimeout | .rstkeyWrite ..
  | .rstkeyCancel | .rstclr | .busclr | .pageWrite .. | .quickCommand .. | .cycPulse .. | .acceptWindowClose
  | .acqMissSpan | .acqtmo | .cycleEnd | .cyccntRead | .reacq | .cyccfgWrite .. | .nomfreqWrite .. | .schent3Write ..
  | .schent3Read | .schctlSwap | .schctlCopy | .schctlClear | .scheduleValidationEnd | .conv .. | .quiet ..
  | .quietEnd | .commit | .phase .. | .swap | .logflush | .dither | .pathQualify .. | .preferHandback ..
  | .pathConductionChange .. | .ova .. | .inputOvClear .. | .reva .. | .reverseReclose .. | .foca .. | .slowa ..
  | .uva .. | .inrushComplete .. | .inrushtmo .. | .pathRetryEnd .. | .tripCountClear .. | .inctlClr .. | .inloss
  | .plim .. | .powerGood .. | .uv .. | .ov .. | .ovHoldRelease .. | .ocfast .. | .overloadClamp .. | .ocslow ..
  | .thlim .. | .starttmo .. | .stageEnableDelay .. | .rampEnd .. | .strike .. | .strikeEnd .. | .brake ..
  | .brakeEnd .. | .blankingEnd .. | .addPhase .. | .phaseflt .. | .sparein .. | .stgflt .. | .imbal ..
  | .swapOverlapEnd .. | .quenchEnd .. | .pvinLow .. | .pvinRestore .. | .minton .. | .hotspot ..
  | .hotspotRelease .. | .dropout .. | .revblk .. | .revblkRelease .. | .vlow .. | .vlowRestart .. | .railEnable ..
  | .railOffDelay .. | .railDown .. | .stoptmo .. | .minoffEnd | .retrySpaceEnd .. | .retryCountClear ..
  | .resetRelease .. | .extpgdly .. | .strkclr .. | .cntctlClr | .cntctlClrall | .monctlClr | .validationEnd
  | .commitApply | .commitDeadline | .safeInput .. | .disc | .safeHoldEnd .. | .wdKick .. | .wdlate | .lsfail
  | .lockup | .eccded | .eccsec | .fwwdt | .fwup | .lockstepExpire | .reffail .. | .oscfail .. | .oscSlowCheck ..
  | .assaydone .. | .operatingHour | .throttleGraceEnd .. | .hkreqGo .. | .hkreqDone .. | .hkseqidxWrite ..
  | .hkseqStore | .hkrflagRead | .thmeasWrite .. | .sensclr | .pilotPeriod .. | .pwmoff | .pilotDcWindow ..
  | .ppConversion .. | .pswWrite .. | .pack | .rspsoft | .rsphard | .roledone | .genflt | .genRestart
  | .sleepMonitor .. | .chargerHoldoffEnd .. | .vmidlow | .chargerVmidRestore | .chargePhaseChange .. | .done
  | .rechg | .cellov | .cellovClear | .tmrpre | .tmrfast | .ntcflt | .ntcRecover | .ctband .. | .wdexp | .chgctlKick
  | .chgctlRestart | .chgsuspWrite .. | .gaugeOffsetCal | .slowSampling | .slowSamplingExit | .accclr
  | .pwcfgWrite .. | .cresofsWrite .. | .alertResponse .. | .hostNotify .. | .scltmo | .stuckscl | .dsBusClear ..
  | .dsClearRetry .. | .dsCutRestart | .dsctlClr | .pendWrite .. | .maskWrite .. | .routeWrite .. | .rrmaskWrite ..
  | .ovrclr .. | .wlclr .. | .testtrig .. | .intPulseEnd .. | .fwIntService .. | .flashSlotDone .. | .cfgsave
  | .scrubDue | .scrublate | .logRecordClose .. | .logTimer | .updctlActivate | .ttrialExpire | .tconfExpire
  | .updVerifyEnd .. | .imbalRearm .. | .stageTempLimitRelease .. | .vaonOutOfWindow .. | .calendarSecond
  | .caltrimStep | .ptick | .xtalstop | .xtalrun | .calctlSet | .subsecRead | .shiftdone | .wakepin | .vinwake
  | .hostwake | .idleslp | .sleepPrepDone | .hbTimeout | .sdaHoldTimeout | .cresRead | .hnstuck | .hnsuspClear
  | .sesstmo | .nonceExpire | .sesslockEnd | .heldclr | .cntclr => true

end Sys2Proof
end

