-- ==== Sys2Proof/Safety.lean ====
section
/-! DEFINITION. The terms that claims about a step use: which parts of the state it leaves alone, what raising
interrupt sources may leave behind, and what a command answers. -/

namespace Sys2Proof

open Sys2Proof.Machine

/-- The command answers a next state for which `P` holds. -/
def Ends (c : Instr) (s : State) (P : State → Prop) : Prop := ∃ t, exec c s = .next t ∧ P t

/-- The parts of the state. -/
inductive Part where
  | pending | clk | free | glob | regs | cyc | qt | inp | rl | bk | seq | txn | safe | tst | pat | hk | thm | plt | chg | gau
  | cal | pwr | bus | ds | irq | fl | otp | upd
deriving DecidableEq, Repr

/-- The two states agree on the part. -/
def Part.Same (p : Part) (s t : State) : Prop :=
  match p with
  | .pending => t.pending = s.pending
  | .clk => t.clk = s.clk
  | .free => t.free = s.free
  | .glob => t.glob = s.glob
  | .regs => t.regs = s.regs
  | .cyc => t.cyc = s.cyc
  | .qt => t.qt = s.qt
  | .inp => t.inp = s.inp
  | .rl => t.rl = s.rl
  | .bk => t.bk = s.bk
  | .seq => t.seq = s.seq
  | .txn => t.txn = s.txn
  | .safe => t.safe = s.safe
  | .tst => t.tst = s.tst
  | .pat => t.pat = s.pat
  | .hk => t.hk = s.hk
  | .thm => t.thm = s.thm
  | .plt => t.plt = s.plt
  | .chg => t.chg = s.chg
  | .gau => t.gau = s.gau
  | .cal => t.cal = s.cal
  | .pwr => t.pwr = s.pwr
  | .bus => t.bus = s.bus
  | .ds => t.ds = s.ds
  | .irq => t.irq = s.irq
  | .fl => t.fl = s.fl
  | .otp => t.otp = s.otp
  | .upd => t.upd = s.upd

/-- At most the listed parts differ. -/
def Only (l : List Part) (s t : State) : Prop := ∀ p, p ∉ l → p.Same s t

/-- The parts that raising a source writes to. -/
def raiseParts : List Part := [.clk, .irq, .seq, .pwr, .bus, .fl]

/-- The event is armed for `dt` half microseconds after the clock of `s`. -/
def Armed (dt : Nat) (e : Instr) (s t : State) : Prop := ⟨s.clk.now + dt, e⟩ ∈ t.clk.timers

/-- Timers that a raise may arm: the 10 µs of an output pulse (R382) and the LOGREP of an open record (R409). -/
def isMark (e : Instr) : Bool :=
  match e with
  | .intPulseEnd _ => true
  | .logRecordClose _ => true
  | _ => false

/-- The state without what raising a source writes: pending and late bits with their tick, class S assignments, pulses,
nALERT, the Host Notifies due, the rail event counters, the wake latches, the log's raise queue with its slot request, and the
timers of `isMark` (R371, R379 to R383, R385, R406, R409). -/
def unmarked (s : State) : State :=
  { s with
    clk := { s.clk with timers := s.clk.timers.filter (fun t => !isMark t.ev) }
    irq := { s.irq with pend := [], late := [], tick := [], asg := [], rrnext := 0, rrTick := 0, rrBase := 0, rrSrcs := []
                        pulse := 0, alert := false }
    seq := { s.seq with cnt := [] }
    pwr := { s.pwr with wl := 0, wlAt := [] }
    bus := { s.bus with hn := 0 }
    fl := { s.fl with slot := none, scrubPrev := false, queue := [], wantLog := false, run := 0, drop := 0 } }

/-- LOGDROP and QOVF: the log queue's own sources, which any raise that it loses may raise (R406). -/
def isLogLoss (k : Nat) : Bool := decide (k = 854) || decide (k = 856)

/-- `t` is `s` after the sources `l` were raised, in some order, and nothing else: their pending bits are set and no
pending bit is lost, no other source became pending but the log's own; each raise of a rail event counted, up to
0xFFFF (R165); wake latches are kept and those of `l` are set (R385). -/
structure Raised (l : List Nat) (s t : State) : Prop where
  rest : unmarked t = unmarked s
  kept : ∀ k, isPend s k = true → isPend t k = true
  marked : ∀ k, k ∈ l → isPend t k = true
  others : ∀ k, isPend t k = true → isPend s k = true ∨ k ∈ l ∨ isLogLoss k = true
  counted : ∀ k, k < 512 → (mget 0 t.seq.cnt k).toNat = min 0xFFFF ((mget 0 s.seq.cnt k).toNat + l.count k)
  latched : ∀ k j, k ∈ l → latchOf k = some j → t.pwr.wl.getLsbD j = true
  latchKept : ∀ j, s.pwr.wl.getLsbD j = true → t.pwr.wl.getLsbD j = true

/-- The command takes `s` to `s'`, and then raises the sources `l`, and does nothing else. -/
def Yields (c : Instr) (s s' : State) (l : List Nat) : Prop := Ends c s (Raised l s')

/-- The full register set is answered on the host bus (R17, R19, R22, R25). -/
def Served (s : State) : Prop := busUp s = true ∧ s.glob.floor = false

/-- A host write was acknowledged: of the bus and the global state it changes that, and an open RSTKEY sequence ends (R8, R27). -/
def Acked (s t : State) : Prop := t.bus = { s.bus with nack := false } ∧ t.glob = { s.glob with keyArmed := false }

/-- The device runs: in RUN, powered, and no boot under way (R20). -/
def Running (s : State) : Prop := anvilOn s = true ∧ s.glob.st = .run ∧ s.glob.boot = false

/-- The slot takes the packet and its checks pass (R353, R354, R357): `priv` where the opcode needs a session. -/
structure Takes (priv : Bool) (p : Packet) (s : State) : Prop where
  up : packetsTaken s = true
  some : p.n ≠ 0
  room : p.n ≤ 64
  free : slotFree s = true
  count : p.n = p.len.toNat + 3
  session : priv = true → s.bus.level ≠ 0

/-- The command slot holds a final state of the packet: 3 done, 4 error, 5 rejected; with its ERR and results (R355). -/
structure SlotShows (st : Nat) (err : Byte) (res : List Byte) (p : Packet) (t : State) : Prop where
  state : t.bus.cstat = st
  tag : t.bus.tag = p.tag
  err : t.bus.err = err
  results : t.bus.cres = res

/-- The boot has started: START, no firmware, no rail, every reset output asserted, the command slot idle (R26, R326). -/
structure Booting (t : State) : Prop where
  boot : t.glob.boot = true
  state : t.glob.st = .start
  fwup : t.glob.fwup = false
  floor : t.glob.floor = false
  rails : t.rl = {}
  outputs : t.seq.rst = 0x1F
  slot : t.bus.cstat = 0
  key : t.glob.keyArmed = false
  buserr : t.glob.buserr = 0

/-- Logical sector n can be erased where it is: it is not retired, and short of its end of life (R396). -/
def Landable (s : State) (n : Nat) : Prop :=
  (sector s (physical s n)).retired = false ∧ newCount (sector s (physical s n)) ≤ 100000

/-- Every fuse programmed in `o` is programmed in `p`: data bits, the five fuses of each lock, the 25 of each repair tag (R418). -/
structure FusesKept (o p : Otp) : Prop where
  data : ∀ k b, (mget 0 o.arr k).getLsbD b = true → (mget 0 p.arr k).getLsbD b = true
  writeLock : ∀ r b, (mget 0 o.wl r).getLsbD b = true → (mget 0 p.wl r).getLsbD b = true
  readLock : ∀ r b, (mget 0 o.rl r).getLsbD b = true → (mget 0 p.rl r).getLsbD b = true
  tag14 : ∀ b, o.tag14.getLsbD b = true → p.tag14.getLsbD b = true
  tag15 : ∀ b, o.tag15.getLsbD b = true → p.tag15.getLsbD b = true

/-! What every step keeps, part by part. Each is said of the fields alone, so that it can be read off a state that is being built. -/

/-- The log ring holds at most 32,768 records, its queue 64 raises, and 16 records are open (R406, R409, R411). -/
def LogFits (log queue opens : Nat) : Prop := log ≤ 32768 ∧ queue ≤ 64 ∧ opens ≤ 16
def LogSound (s : State) : Prop := LogFits s.fl.log.length s.fl.queue.length s.fl.opens.length

/-- A session has level 1 or 2, and no session is level 0; a nonce stands for level 1 or 2 (SESSSTAT.LEVEL, R358). -/
def SessionFits (level : Nat) (nonce : Option (List Byte × Nat)) : Prop :=
  level ≤ 2 ∧ ∀ x, nonce = some x → 1 ≤ x.2 ∧ x.2 ≤ 2
def SessionSound (s : State) : Prop := SessionFits s.bus.level s.bus.nonce

/-- Only an enabled rail is power-good; an enabled rail does not count as down and is not in quench (R132, R148, R467). -/
def RailsFit (pg en up qu : Mask) : Prop :=
  ∀ r, (has pg r = true → has en r = true) ∧ (has en r = true → has up r = true ∧ has qu r = false)
def RailsSound (s : State) : Prop := RailsFit s.rl.pg s.rl.en s.rl.up s.rl.qu

/-- S2 is closed in receive role only (R265, R271). -/
def PilotFits (s2 : Bool) (role : Nat) : Prop := s2 = true → role = 0
def PilotSound (s : State) : Prop := PilotFits s.plt.s2 s.plt.role

/-- The gate of a path is at full drive only while the path is closed (R63, R68). -/
def PathFits (p : PathSt) : Prop := p.full = true → p.closed = true
def PathsSound (s : State) : Prop := PathFits s.inp.a ∧ PathFits s.inp.b

/-- A commit in flight passed the checks of its parameters, and page 0x28 shows its number and its state (R180, R182, R199). -/
def CommitFits (cur : Option Commit) (seq : Byte) (res : Nat) : Prop :=
  ∀ c, cur = some c → c.seq = seq ∧ res = (if c.pending then 2 else 1) ∧ c.scope ≠ 0 ∧ c.scope.toNat / 4096 = 0 ∧
    c.mode.toNat % 4 ≠ 3 ∧ c.mode.toNat / 8 = 0
def CommitSound (s : State) : Prop := CommitFits s.txn.cur s.txn.seq s.txn.res

/-! The sparse maps of the state in canonical form: equal contents are equal lists. -/

/-- Keys strictly rise. -/
def Rising {α : Type} (m : Map α) : Prop := m.Pairwise (fun x y => x.1 < y.1)

/-- Keys strictly rise, and no byte equals its register's reset value, which an unlisted byte reads as. -/
def RegsFit (m : RegMap) : Prop := Rising m ∧ ∀ x ∈ m, x.2 ≠ resetByte x.1

/-- The maps of a stored configuration bank (R401). -/
structure ImageFit (c : CfgImg) : Prop where
  staged : RegsFit c.staged
  plain : RegsFit c.plain
  sched : mwf 0 c.sched = true
  mask : mwf 0xFFFF c.mask = true
  route : mwf 0 c.route = true

/-- The maps of a stored Patina bank. -/
structure LedgerFit (b : PatBank) : Prop where
  res : mwf {} b.res = true
  ecnt : mwf 0 b.ecnt = true
  ph : mwf {} b.ph = true
  ldo : mwf {} b.ldo = true

/-- Every map of the state. -/
structure Maps where
  (stg live plain : RegMap) (held : List (Nat × Byte)) (bankA bankB : Map (BitVec 32)) (ramps : Map Ramp) (ph : Map PhaseSt)
  (strkn : Map Word) (ldo : Map LdoSt) (snspk : Map Word) (band retries : Map Nat) (rset : Map Mask) (cnt : Map Word) (res : Map Res)
  (patA patB : Option PatBank) (mval : Map Word) (age : Map Nat) (hkres : Map SeqRes) (thN : Map Nat) (sen : Map Sensor)
  (chan dchan drail ibase f wlAt : Map Nat) (val pend mask late : Map Word) (tick : Map Nat) (route : Map (BitVec 4)) (asg : Map Nat)
  (sec : Map Sector) (cfgA cfgB capture : Option CfgImg) (arr shd : Map Byte) (wl rl : Map (BitVec 5))

/-- The maps of a state. -/
@[reducible] def mapsOf (s : State) : Maps :=
  ⟨s.regs.stg, s.regs.live, s.regs.plain, s.regs.held, s.cyc.bankA, s.cyc.bankB, s.rl.ramps, s.bk.ph, s.bk.strkn, s.bk.ldo, s.bk.snspk,
   s.bk.band, s.seq.retries, s.seq.rset, s.seq.cnt, s.pat.res, s.pat.bankA, s.pat.bankB, s.hk.mval, s.hk.age, s.hk.res, s.hk.thN,
   s.hk.sen, s.thm.chan, s.thm.dchan, s.thm.drail, s.thm.ibase, s.thm.f, s.pwr.wlAt, s.ds.val, s.irq.pend, s.irq.mask, s.irq.late,
   s.irq.tick, s.irq.route, s.irq.asg, s.fl.sec, s.fl.cfgA, s.fl.cfgB, s.fl.capture, s.otp.arr, s.otp.shd, s.otp.wl, s.otp.rl⟩

/-- Each map is canonical, for what its unlisted keys read as. -/
structure MapsFit (m : Maps) : Prop where
  stg : RegsFit m.stg
  live : RegsFit m.live
  plain : RegsFit m.plain
  held : Rising m.held
  bankA : mwf 0 m.bankA = true
  bankB : mwf 0 m.bankB = true
  ramps : mwf {} m.ramps = true
  ph : mwf {} m.ph = true
  strkn : mwf 0 m.strkn = true
  ldo : mwf {} m.ldo = true
  snspk : mwf 0 m.snspk = true
  band : mwf 5 m.band = true
  retries : mwf 0 m.retries = true
  rset : mwf 0 m.rset = true
  cnt : mwf 0 m.cnt = true
  res : mwf {} m.res = true
  patA : ∀ b, m.patA = some b → LedgerFit b
  patB : ∀ b, m.patB = some b → LedgerFit b
  mval : mwf 0 m.mval = true
  age : mwf 127 m.age = true
  hkres : mwf {} m.hkres = true
  thN : mwf 0 m.thN = true
  sen : mwf {} m.sen = true
  chan : mwf 5 m.chan = true
  dchan : mwf 100 m.dchan = true
  drail : mwf 100 m.drail = true
  ibase : mwf 0 m.ibase = true
  f : mwf 100 m.f = true
  wlAt : mwf 0 m.wlAt = true
  val : mwf 0 m.val = true
  pend : mwf 0 m.pend = true
  mask : mwf 0xFFFF m.mask = true
  late : mwf 0xFFFF m.late = true
  tick : mwf 0 m.tick = true
  route : mwf 0 m.route = true
  asg : mwf 0 m.asg = true
  sec : mwf {} m.sec = true
  cfgA : ∀ c, m.cfgA = some c → ImageFit c
  cfgB : ∀ c, m.cfgB = some c → ImageFit c
  capture : ∀ c, m.capture = some c → ImageFit c
  arr : mwf 0 m.arr = true
  shd : mwf 0 m.shd = true
  wl : mwf 0 m.wl = true
  rl : mwf 0 m.rl = true
def MapsSound (s : State) : Prop := MapsFit (mapsOf s)

end Sys2Proof
end

