-- ==== Sys2Proof/Certificates/Slice0/Obligations.lean ====
section
/-! DEFINITION. The statements for the provers: one `Obligations.<Name>` each. -/

open Sys2Proof Sys2Proof.Machine

/-! The block and its queue. -/

/-- For every command and state: a step with the command at the front of the queue is exec of the command on the state with the
rest of the queue, and exec answers a next state, never a fault or a refusal. On an empty queue time passes (the model's choice, log
entry 1): the step is `idle`, which takes the clock forward by at most its quantum, and never back. It stays where it is where an armed
event or a schedule action is due by now; where every one lies ahead of now the clock ends strictly later. -/
def Obligations.StepRunsFrontCommand : Prop :=
  (∀ (s : State) (c : Instr) (rest : List Instr), s.pending = c :: rest → step s = exec c { s with pending := rest }) ∧
  (∀ (c : Instr) (s : State), ∃ t, exec c s = .next t) ∧
  (∀ s : State, s.pending = [] → step s = .next (idle s)) ∧
  (∀ s : State, s.clk.now ≤ (idle s).clk.now ∧ (idle s).clk.now ≤ s.clk.now + max 1 s.clk.quantum) ∧
  (∀ s : State, (∃ x ∈ s.clk.timers, x.due ≤ s.clk.now) ∨ (∃ x ∈ s.cyc.acts, x.due ≤ s.clk.now) → (idle s).clk.now = s.clk.now) ∧
  (∀ s : State, (∀ x ∈ s.clk.timers, s.clk.now < x.due) → (∀ x ∈ s.cyc.acts, s.clk.now < x.due) → s.clk.now < (idle s).clk.now)

/-- What State.reset holds (R10, R26, R27, R60, R163, R355, R371): an empty queue, START with the boot under way, RSTCAUSE.POR
alone, BUSERR and FLOORCAUSE clear, no rail enabled or power-good, every reset output asserted, PLL FREE at 800/16 Hz, an idle
command slot at session level 0, no source pending, every group masked, every source routed to target 0; and the invariants that
every step keeps hold (Obligations.PartsStaySound, Obligations.MapsStayCanonical).
Where the spec leaves a corner open, the clauses follow log entry 4, the model's choice. -/
def Obligations.ResetValues : Prop :=
  let r := State.reset
  r.pending = [] ∧ r.glob.st = .start ∧ r.glob.boot = true ∧ r.glob.rstcause = 1 ∧ r.glob.buserr = 0 ∧ r.glob.floorcause = 0 ∧
  r.rl.en = 0 ∧ r.rl.pg = 0 ∧ r.seq.rst = 0x1F ∧ r.cyc.pll = .free ∧ cycfreq r = 800 ∧ cstatBytes r = [0, 0, 0xFF, 0] ∧
  r.bus.level = 0 ∧ (∀ k, isPend r k = false) ∧ (∀ g, maskOfG r g = 0xFFFF) ∧ (∀ k, (routeOf r k).toNat = 0) ∧
  LogSound r ∧ SessionSound r ∧ RailsSound r ∧ PilotSound r ∧ PathsSound r ∧ CommitSound r ∧ MapsSound r

/-! Supplies, boot and page 0x00 (01_architecture.md). -/

/-- The key and the clears of page 0x00 (R27), on every state in which the bus is answered. RSTKEY: 0xD2 arms the sequence for
10 ms, also while it is armed (the model's choice, log entry 11); 0x2D while armed starts the boot with KEYRST set; any other
value cancels. RSTKEY_CANCEL ends the sequence. RSTCLR clears RSTCAUSE and BUSCLR clears BUSERR, and both cancel the key. -/
def Obligations.KeyAndClears : Prop :=
  (∀ s, busUp s = true → Ends (.rstkeyWrite 0xD2) s (fun t => t.glob = { s.glob with keyArmed := true } ∧
    t.bus = { s.bus with nack := false } ∧ ⟨s.clk.now + ms 10, .rstkeyCancel⟩ ∈ t.clk.timers ∧ Only [.glob, .bus, .clk] s t)) ∧
  (∀ s, busUp s = true → s.glob.keyArmed = true → Ends (.rstkeyWrite 0x2D) s (fun t => Booting t ∧
    t.glob.rstcause = setBit s.glob.rstcause 4 true)) ∧
  (∀ s v, busUp s = true → v ≠ 0xD2 → ¬(v = 0x2D ∧ s.glob.keyArmed = true) → Ends (.rstkeyWrite v) s (fun t =>
    t.glob = { s.glob with keyArmed := false } ∧ armed .rstkeyCancel t = false ∧ Only [.glob, .bus, .clk] s t)) ∧
  (∀ s, Ends .rstkeyCancel s (fun t =>
    t.glob = { s.glob with keyArmed := false } ∧ armed .rstkeyCancel t = false ∧ Only [.glob, .clk] s t)) ∧
  (∀ s, busUp s = true → Ends .rstclr s (fun t => t.glob = { s.glob with keyArmed := false, rstcause := 0 } ∧
    t.bus = { s.bus with nack := false } ∧ Only [.glob, .bus, .clk] s t)) ∧
  (∀ s, busUp s = true → Ends .busclr s (fun t => t.glob = { s.glob with keyArmed := false, buserr := 0 } ∧
    t.bus = { s.bus with nack := false } ∧ Only [.glob, .bus, .clk] s t))

/-- Supplies (R18, R21, R22). With a source at 2.7 V or above POWER_ON_RESET starts the boot, on the start-up regulator
exactly when VSYS is below 2.70 V; RSTCAUSE reads POR, with BOR where the device was active when it lost its supply; with no
such source it does nothing. VSYS rising to 2.70 V becomes the logic supply; falling below 2.60 V with an input at 2.7 V or
above it gives way to the regulator; with neither, and on a loss of supply, every rail loses its drive, the reset outputs are
asserted, S2 is open and the generator off, and BOR is noted if the device was neither in SLEEP nor in SHIP. VAON out of its
window takes the drive of every rail and path away, asserts the reset outputs, opens S2 and turns the generator off; back in
it, the pilot's paths follow its role again, the delay of an input loss starts where no path is closed, the charge converter's next offset measurement is due in 10 min, and nothing else changes (what is kept meanwhile is log entry 18's choice). -/
def Obligations.Supplies : Prop :=
  (∀ s vsys vin ohms, (2700 ≤ vsys ∨ 2700 ≤ vin) → Ends (.powerOnReset vsys vin ohms) s (fun t => Booting t ∧
    t.glob.supplied = true ∧ t.glob.logsrc = decide (vsys < 2700) ∧ t.glob.rstcause = if s.glob.borNext then 3 else 1)) ∧
  (∀ s vsys vin ohms, vsys < 2700 → vin < 2700 → exec (.powerOnReset vsys vin ohms) s = .next s) ∧
  (∀ s vin, s.glob.supplied = true → exec (.logicSupplySelect true vin) s =
    .next { s with glob := { s.glob with logsrc := false, vsys := 2700, vin := vin } }) ∧
  (∀ s vin, s.glob.supplied = true → s.glob.logsrc = false → 2700 ≤ vin → exec (.logicSupplySelect false vin) s =
    .next { s with glob := { s.glob with logsrc := true, vsys := 2599, vin := vin } }) ∧
  (∀ s vin, s.glob.supplied = true → s.glob.logsrc = false → vin < 2700 → Ends (.logicSupplySelect false vin) s (fun t =>
    t.glob.supplied = false ∧ t.glob.fwup = false ∧ t.rl = {} ∧ t.seq.rst = 0x1F ∧ t.clk.timers = [] ∧ t.plt.s2 = false ∧
    t.plt.gen = false ∧ t.glob.borNext = decide (s.glob.st ≠ .sleep ∧ s.glob.st ≠ .ship))) ∧
  (∀ s, s.glob.supplied = true → Ends .logicSupplyLoss s (fun t => t.glob.supplied = false ∧ t.glob.fwup = false ∧ t.rl = {} ∧
    t.seq.rst = 0x1F ∧ t.clk.timers = [] ∧ t.plt.s2 = false ∧ t.plt.gen = false ∧
    t.glob.borNext = decide (s.glob.st ≠ .sleep ∧ s.glob.st ≠ .ship))) ∧
  (∀ s, s.glob.vaonOk = true → Ends (.vaonOutOfWindow true) s (fun t => t.glob = { s.glob with vaonOk := false } ∧ t.rl = {} ∧
    t.seq.rst = 0x1F ∧ t.inp.a.closed = false ∧ t.inp.b.closed = false ∧ t.plt.s2 = false ∧ t.plt.gen = false ∧
    t.irq = { s.irq with pulse := 0 } ∧ t.inp.a.flt = s.inp.a.flt ∧ t.inp.b.flt = s.inp.b.flt ∧ t.inp.a.trips = s.inp.a.trips ∧ t.inp.b.trips = s.inp.b.trips ∧
    Only [.glob, .rl, .inp, .bk, .seq, .chg, .plt, .cyc, .irq, .clk] s t)) ∧
  (∀ s, s.glob.vaonOk = false → exec (.vaonOutOfWindow false) s =
    .next (watchLoss (arm (sec 600) .gaugeOffsetCal { s with glob := { s.glob with vaonOk := true }, plt := pilotPaths s.plt })))

/-- How the boot ends (R23): Floor mode with FLOORCAUSE 2 where the FLOORONLY fuse is set, 5 where the boot ROM cannot read the
flash, 1 where no slot is bootable, 3 at the second timeout in a row; else the slot that the ROM chose is booted (`slotBoot`).
The order of causes 2, 5 and 1 is the model's (log entry 23). The first timeout gives the island another 50 ms; so it does at a
restart of the island, where the second enters Floor mode with cause 3 too (R215). -/
def Obligations.BootOutcomes : Prop :=
  (∀ s b n, s.glob.boot = true → anvilOn s = true → s.glob.floor = false →
    ((n = 2 ∧ (fuse s.otp.shd 6 0).getLsbD 0 = true) ∨
     (n = 5 ∧ (fuse s.otp.shd 6 0).getLsbD 0 = false ∧ b.flashOk = false) ∨
     (n = 1 ∧ (fuse s.otp.shd 6 0).getLsbD 0 = false ∧ b.flashOk = true ∧ romBoot s = none)) →
    Ends (.bootEnd b) s (fun t => t.glob.floor = true ∧ t.glob.floorcause = n ∧ t.glob.boot = false ∧ t.glob.fwup = false ∧
      t.glob.rstcause = setBit s.glob.rstcause 10 true)) ∧
  (∀ s b jrn u, s.glob.boot = true → anvilOn s = true → s.glob.floor = false → (fuse s.otp.shd 6 0).getLsbD 0 = false →
    b.flashOk = true → romBoot s = some (jrn, u) → exec (.bootEnd b) s = .next (slotBoot b jrn (verifySlots u))) ∧
  (∀ s, s.glob.boot = true → anvilOn s = true → s.glob.fwup = false → s.glob.floor = false → s.glob.fwFails = 0 →
    Ends .fwBootTimeout s (fun t => t.glob = { s.glob with fwFails := 1 } ∧ ⟨s.clk.now + ms 50, .fwBootTimeout⟩ ∈ t.clk.timers ∧
      Only [.glob, .clk] s t)) ∧
  (∀ s, s.glob.boot = true → anvilOn s = true → s.glob.fwup = false → s.glob.floor = false → 1 ≤ s.glob.fwFails →
    Ends .fwBootTimeout s (fun t => t.glob.floor = true ∧ t.glob.floorcause = 3 ∧ t.glob.boot = false)) ∧
  (∀ s, s.glob.restarting = true → s.glob.boot = false → anvilOn s = true → s.glob.fwup = false → s.glob.floor = false → s.glob.fwFails = 0 →
    Ends .fwBootTimeout s (fun t => t.glob = { s.glob with fwFails := 1 } ∧ ⟨s.clk.now + ms 50, .fwBootTimeout⟩ ∈ t.clk.timers ∧
      Only [.glob, .clk] s t)) ∧
  (∀ s, s.glob.restarting = true → s.glob.boot = false → anvilOn s = true → s.glob.fwup = false → s.glob.floor = false → 1 ≤ s.glob.fwFails →
    Ends .fwBootTimeout s (fun t => t.glob.floor = true ∧ t.glob.floorcause = 3 ∧ t.glob.boot = false))

/-- What a boot puts into the registers (R23, R24, R52, R197, R401, R424). A slot that boots loads the configuration bank in force into
staging and commits every page as commit 1: where no rule fails, the live copy takes it; where one fails, the live copy stays, with
BOOTREJ; without a bank CFGNONE is raised. Floor mode at boot loads the Floor table over the live copy and makes the pilot passive; entered
while the device ran, it loads the table, over the reset and Hallmark values, at the next common start (log entry 22). An entry of the
table gives its rail its delays, INSEQ, its set voltage where the rail has one, and its parent; an empty table changes nothing.
Where the spec leaves a corner open, the clauses follow log entry 22, the model's choice. -/
def Obligations.BootContents : Prop :=
  (∀ s b jrn u v w x c d, s.glob.boot = true → anvilOn s = true → s.glob.floor = false → (fuse s.otp.shd 6 0).getLsbD 0 = false → b.flashOk = true →
    romBoot s = some (jrn, u) → v = headerScan (b.assay.sectors.map (·.val)) { verifySlots u with glob := { u.glob with fwup := true, fwFails := 0 } } →
    w = loadRoles (writePart (if jrn then journalNow v else v)) →
    cfgBank w = some c → x = loadPlain c { w with regs := { w.regs with stg := c.staged } } →
    d = { commitOf x 1 [0xFF, 0x0F] with slot := false, half := none } → validate d (startCommit d x) = none → Ends (.bootEnd b) s (fun t =>
      t.glob.fwup = true → t.regs.stg = c.staged ∧ t.regs.live = (copyLive 0x0FFF x).regs.live ∧ t.txn.appl = 1 ∧ t.txn.seq = 1)) ∧
  (∀ s b jrn u v w x c d f, s.glob.boot = true → anvilOn s = true → s.glob.floor = false → (fuse s.otp.shd 6 0).getLsbD 0 = false → b.flashOk = true →
    romBoot s = some (jrn, u) → v = headerScan (b.assay.sectors.map (·.val)) { verifySlots u with glob := { u.glob with fwup := true, fwFails := 0 } } →
    w = loadRoles (writePart (if jrn then journalNow v else v)) →
    cfgBank w = some c → x = loadPlain c { w with regs := { w.regs with stg := c.staged } } →
    d = { commitOf x 1 [0xFF, 0x0F] with slot := false, half := none } → validate d (startCommit d x) = some f → Ends (.bootEnd b) s (fun t =>
      t.glob.fwup = true → t.regs.stg = c.staged ∧ t.regs.live = s.regs.live ∧ t.txn.rsn = BitVec.ofNat 8 f.rsn ∧ t.txn.seq = 1 ∧ isPend t (16 * 61 + 7) = true)) ∧
  (∀ s, anvilOn s = true → cfgBank s = none → isPend (loadBank s) (16 * 53 + 2) = true ∧ (loadBank s).regs.stg = s.regs.stg) ∧
  (∀ s b, s.glob.boot = true → anvilOn s = true → s.glob.floor = false → (fuse s.otp.shd 6 0).getLsbD 0 = true → Ends (.bootEnd b) s (fun t =>
    t.glob.floorTab = true ∧ t.regs.live = (floorLoad s).regs.live ∧ t.plt.role = 3 ∧ t.plt.s2 = false ∧ t.plt.gen = false ∧ t.plt.osc = false)) ∧
  (∀ s, anvilOn s = true → s.glob.boot = false → s.glob.st = .stop → s.seq.phase = 5 → s.pwr.req = none → startOk s = true → s.glob.floor = true →
    s.glob.floorTab = false → Ends .minoffEnd s (fun t => t.glob.floorTab = true ∧
      t.regs.live = (floorLoad (loadHLive { s with regs := { s.regs with live := [] } })).regs.live)) ∧
  (∀ s, floorTable s.otp.shd = [] → floorLoad s = s) ∧
  (∀ s e, e ∈ floorTable s.otp.shd → onDly (lv (floorLoad s)) e.rail = (by8 e.on).toNat ∧
    offDly (lv (floorLoad s)) e.rail = (by8 e.off).toNat ∧ inseq (lv (floorLoad s)) e.rail = true ∧
    (e.rail < 17 → lv (floorLoad s) (blk e.rail) = by8 e.vset) ∧
    parents (lv (floorLoad s)) e.rail = (match e.parent with | some p => bit p | none => 0))

/-! The cycle timebase, the schedule and quiet windows (02_cycle_timebase.md). -/

/-- Pulses and the PLL in FREE and ACQ (R33, R34, R36). A level shorter than GLITCH, an
edge that begins no new filtered level and one that EDGE does not select change nothing but that level. In FREE the first pulse, and one more than 62.5 ms after the last, is only noted; one that follows in less than 1.0 ms is
rejected with REJECT and nothing else; any other enters ACQ at the measured interval. Intervals count twice where the pulses mark
half-cycles. In ACQ a pulse at an interval outside these bounds is rejected and counts as a miss. Any other gives the interval and the
rate steered by its phase error; where it marks ANGOFS it sets the run of good cycles (`goodRun`: cycles in a row whose ANGOFS pulse
lies within ±1 angle unit), and a run of four enters LOCK with LOCK. No pulse moves the angle.

Pulses and misses in LOCK and HOLD (R34, R35, R36). The acceptance window lies TOL about the expected time, one tracked period
after the last (`winLo`, `winHi`). A pulse outside it is rejected with REJECT and nothing else. A pulse inside it moves the expected
time on by one tracked period; within ±4 angle units it is tracked, and HOLD returns to LOCK with LOCK; beyond them the PLL acquires
anew, with UNLOCK from LOCK. The close of a window without a pulse is a miss, counted to 17, and moves the expected time on: from
LOCK it enters HOLD with MISS, UNLOCK and HOLD; in HOLD it raises MISS, and the seventeenth leads to FREE at NOMFREQ's rate with
FREERUN. In FREE and ACQ it changes nothing. ACQ_MISS_SPAN is a miss of ACQ: it ends the run of good cycles and is armed again, and
the fourth in a row leads to FREE with FREERUN; out of ACQ it changes nothing. ACQTMO is raised once per entry to ACQ; otherwise the
command changes nothing. None of them moves the angle.
Where the spec leaves a corner open, the clauses follow log entries 12 and 26, the model's choice. -/
def Obligations.PllPulsesAndStates : Prop :=
  (∀ s e l, edgeCounts s e l = false → exec (.cycPulse ⟨e, l⟩) s = .next (if anvilOn s then noteLevel ⟨e, l⟩ s else s)) ∧
  (∀ s e l, anvilOn s = true → cycEn s = true → edgeCounts s e l = true → s.cyc.pll = .free → s.cyc.lastAcc = none →
    exec (.cycPulse ⟨e, l⟩) s = .next { s with cyc := { s.cyc with lvl := e, lastAcc := some s.clk.now, pherr := pherrOf (phaseErr s e), misscnt := 0 } }) ∧
  (∀ s e l a, anvilOn s = true → cycEn s = true → edgeCounts s e l = true → s.cyc.pll = .free → s.cyc.lastAcc = some a →
    125000 < (s.clk.now - a) * (if edgeBoth s then 2 else 1) →
    exec (.cycPulse ⟨e, l⟩) s = .next { s with cyc := { s.cyc with lvl := e, lastAcc := some s.clk.now, pherr := pherrOf (phaseErr s e), misscnt := 0 } }) ∧
  (∀ s e l a, anvilOn s = true → cycEn s = true → edgeCounts s e l = true → s.cyc.pll = .free → s.cyc.lastAcc = some a →
    2000 ≤ (s.clk.now - a) * (if edgeBoth s then 2 else 1) → (s.clk.now - a) * (if edgeBoth s then 2 else 1) ≤ 125000 →
    Ends (.cycPulse ⟨e, l⟩) s (fun t => t.cyc.pll = .acq ∧ t.cyc.period = s.clk.now - a ∧ t.cyc.rate = pulseUnits s / (s.clk.now - a) ∧
      t.cyc.lastAcc = some s.clk.now ∧ t.cyc.good = 0 ∧ t.cyc.phase = s.cyc.phase ∧ Armed 125000 .acqMissSpan s t ∧ Only [.cyc, .clk] s t)) ∧
  (∀ s e l a, anvilOn s = true → cycEn s = true → edgeCounts s e l = true → s.cyc.pll = .free → s.cyc.lastAcc = some a →
    (s.clk.now - a) * (if edgeBoth s then 2 else 1) < 2000 → Yields (.cycPulse ⟨e, l⟩) s { s with cyc := { s.cyc with lvl := e } } [16 * 47 + 5]) ∧
  (∀ s e l a, anvilOn s = true → cycEn s = true → edgeCounts s e l = true → s.cyc.pll = .acq → s.cyc.lastAcc = some a → s.cyc.acqMiss < 3 →
    ((s.clk.now - a) * (if edgeBoth s then 2 else 1) < 2000 ∨ 125000 < (s.clk.now - a) * (if edgeBoth s then 2 else 1)) →
    Yields (.cycPulse ⟨e, l⟩) s { s with cyc := { s.cyc with lvl := e, acqMiss := s.cyc.acqMiss + 1, good := 0 } } [16 * 47 + 5]) ∧
  (∀ s e l a, anvilOn s = true → cycEn s = true → edgeCounts s e l = true → s.cyc.pll = .acq → s.cyc.lastAcc = some a →
    2000 ≤ (s.clk.now - a) * (if edgeBoth s then 2 else 1) → (s.clk.now - a) * (if edgeBoth s then 2 else 1) ≤ 125000 →
    angofsPulse s e = true → 4 ≤ goodRun s (phaseErr s e) →
    Ends (.cycPulse ⟨e, l⟩) s (fun t => t.cyc.pll = .lock ∧ t.cyc.period = s.clk.now - a ∧ t.cyc.misscnt = 0 ∧ t.cyc.phase = s.cyc.phase ∧
      t.cyc.rate = steered { s with cyc := { s.cyc with period := s.clk.now - a } } (phaseErr s e) ∧ t.cyc.expect = s.clk.now ∧
      isPend t (16 * 47) = true ∧ Only ([.cyc, .pending] ++ raiseParts) s t)) ∧
  (∀ s e l a, anvilOn s = true → cycEn s = true → edgeCounts s e l = true → s.cyc.pll = .acq → s.cyc.lastAcc = some a →
    2000 ≤ (s.clk.now - a) * (if edgeBoth s then 2 else 1) → (s.clk.now - a) * (if edgeBoth s then 2 else 1) ≤ 125000 →
    (angofsPulse s e = true → goodRun s (phaseErr s e) < 4) →
    Ends (.cycPulse ⟨e, l⟩) s (fun t => t.cyc.pll = .acq ∧ t.cyc.good = (if angofsPulse s e then goodRun s (phaseErr s e) else s.cyc.good) ∧ t.cyc.acqMiss = 0 ∧
      t.cyc.period = s.clk.now - a ∧ t.cyc.rate = steered { s with cyc := { s.cyc with period := s.clk.now - a } } (phaseErr s e) ∧
      t.cyc.phase = s.cyc.phase ∧ Armed 125000 .acqMissSpan s t ∧ Only [.cyc, .clk] s t)) ∧
  (∀ s e l, anvilOn s = true → cycEn s = true → edgeCounts s e l = true → (s.cyc.pll = .lock ∨ s.cyc.pll = .hold) →
    (s.clk.now < winLo s ∨ winHi s < s.clk.now) → Yields (.cycPulse ⟨e, l⟩) s { s with cyc := { s.cyc with lvl := e } } [16 * 47 + 5]) ∧
  (∀ s e l, anvilOn s = true → cycEn s = true → edgeCounts s e l = true → (s.cyc.pll = .lock ∨ s.cyc.pll = .hold) →
    winLo s ≤ s.clk.now → s.clk.now ≤ winHi s → within (phaseErr s e) 4 = true → Ends (.cycPulse ⟨e, l⟩) s (fun t => t.cyc.pll = .lock ∧
      t.cyc.misscnt = 0 ∧ t.cyc.lastAcc = some s.clk.now ∧ t.cyc.phase = s.cyc.phase ∧ t.cyc.expect = s.cyc.expect + trackT s ∧
      (s.cyc.pll = .hold → isPend t (16 * 47) = true) ∧ Only ([.cyc, .pending] ++ raiseParts) s t)) ∧
  (∀ s e l, anvilOn s = true → cycEn s = true → edgeCounts s e l = true → (s.cyc.pll = .lock ∨ s.cyc.pll = .hold) →
    winLo s ≤ s.clk.now → s.clk.now ≤ winHi s → within (phaseErr s e) 4 = false → Ends (.cycPulse ⟨e, l⟩) s (fun t => t.cyc.pll = .acq ∧
      t.cyc.good = 0 ∧ t.cyc.misscnt = 0 ∧ t.cyc.phase = s.cyc.phase ∧ (s.cyc.pll = .lock → isPend t (16 * 47 + 1) = true) ∧
      Only ([.cyc] ++ raiseParts) s t)) ∧
  (∀ s, anvilOn s = true → s.cyc.pll = .lock → Ends .acceptWindowClose s (fun t => t.cyc.pll = .hold ∧ t.cyc.misscnt = min 17 (s.cyc.misscnt + 1) ∧
      t.cyc.expect = s.cyc.expect + trackT s ∧ t.cyc.phase = s.cyc.phase ∧ isPend t (16 * 47 + 4) = true ∧ isPend t (16 * 47 + 1) = true ∧
      isPend t (16 * 47 + 2) = true ∧ Only ([.cyc] ++ raiseParts) s t)) ∧
  (∀ s, anvilOn s = true → s.cyc.pll = .hold → s.cyc.misscnt < 16 → Ends .acceptWindowClose s (fun t => t.cyc.pll = .hold ∧
      t.cyc.misscnt = s.cyc.misscnt + 1 ∧ t.cyc.expect = s.cyc.expect + trackT s ∧ t.cyc.phase = s.cyc.phase ∧
      isPend t (16 * 47 + 4) = true ∧ Only ([.cyc] ++ raiseParts) s t)) ∧
  (∀ s, anvilOn s = true → s.cyc.pll = .hold → 16 ≤ s.cyc.misscnt → Ends .acceptWindowClose s (fun t => t.cyc.pll = .free ∧ t.cyc.misscnt = 17 ∧
      t.cyc.rate = nomRate s ∧ t.cyc.phase = s.cyc.phase ∧ isPend t (16 * 47 + 4) = true ∧ isPend t (16 * 47 + 3) = true ∧
      Only ([.cyc] ++ raiseParts) s t)) ∧
  (∀ s, (s.cyc.pll = .free ∨ s.cyc.pll = .acq) → exec .acceptWindowClose s = .next s) ∧
  (∀ s, anvilOn s = true → s.cyc.pll = .acq → 3 ≤ s.cyc.acqMiss → Ends .acqMissSpan s (fun t => t.cyc.pll = .free ∧
      t.cyc.rate = nomRate s ∧ t.cyc.phase = s.cyc.phase ∧ isPend t (16 * 47 + 3) = true ∧ Only ([.cyc] ++ raiseParts) s t)) ∧
  (∀ s, s.cyc.pll = .acq → s.cyc.acqMiss < 3 → Ends .acqMissSpan s (fun t => t.cyc = { s.cyc with acqMiss := s.cyc.acqMiss + 1, good := 0 } ∧
      Armed 125000 .acqMissSpan s t ∧ Only [.cyc, .clk] s t)) ∧
  (∀ s, s.cyc.pll ≠ .acq → exec .acqMissSpan s = .next s) ∧
  (∀ s, anvilOn s = true → s.cyc.pll = .acq → s.cyc.acqTmo = false →
    Yields .acqtmo s { s with cyc := { s.cyc with acqTmo := true } } [16 * 47 + 11]) ∧
  (∀ s, (s.cyc.pll ≠ .acq ∨ s.cyc.acqTmo = true) → exec .acqtmo s = .next s)

/-- REACQ, and a write of CYCCFG that clears EN or writes EDGE, take the PLL to FREE at NOMFREQ's rate, with UNLOCK from LOCK and
FREERUN from ACQ and HOLD (R36, R61); the angle stays. A write of CYCCFG stores the byte; with the reserved EDGE code that field alone
keeps its value and BUSERR.RSVENC is set (R60); that the byte's other fields are taken and that with EN 1 the PLL then stays as it is is
the model's choice (log entries 19 and 26). A NOMFREQ from 256 to 16,000 is stored; any
other is ignored and sets BUSERR.RSVENC (R60). Each is an acknowledged host write. No premise on the form of the maps is needed: a read
after a write gives what was written on any list.

Quiet windows, dither and PHASE entries (R47, R53, R55 to R58, R77, R91). A QUIET of 1 to 20 µs opens a window that long, counted in
the present cycle, or in the one before where its fine delay led past angle 0; one that starts before the last one's end and 1 µs more
is counted and skipped with QSKIP. QDIS 1, and a length of 0 or above 20, open none; a write of QUIETCFG with QDIS 1 ends the open
window. QUIET_END ends it: the window, and what the next one counts from, end now if not before. In a window that PRE or an MPH rail obeys no phase switches but in a strike. DITHER restarts the triangle; the
deviation stays within DEPTH, and the dithered frequency within the rail's range but in a buck's fold-back, which divides it by 4 (R115).
Of a rail with two phases and SHEDEN a PHASE entry
sheds the second below PSHED and adds it back above 1.5 × PSHED. -/
def Obligations.TimebaseAndQuiet : Prop :=
  (∀ s, Served s → Ends .reacq s (fun t => t.cyc.pll = .free ∧ t.cyc.lastAcc = none ∧ t.cyc.rate = nomRate s ∧
    t.cyc.phase = s.cyc.phase ∧ (s.cyc.pll = .lock → isPend t (16 * 47 + 1) = true) ∧
    (s.cyc.pll = .acq ∨ s.cyc.pll = .hold → isPend t (16 * 47 + 3) = true) ∧
    t.glob = { s.glob with keyArmed := false } ∧ t.bus.nack = false ∧ Only ([.cyc, .glob] ++ raiseParts) s t)) ∧
  (∀ s v, Served s → v.toNat / 2 % 4 ≠ 3 → Ends (.cyccfgWrite v) s (fun t => pl t (key 1 0) = v ∧ t.cyc.pll = .free ∧
    t.cyc.lastAcc = none ∧ t.cyc.rate = nomRate s ∧ t.cyc.phase = s.cyc.phase ∧ (s.cyc.pll = .lock → isPend t (16 * 47 + 1) = true) ∧
    (s.cyc.pll = .acq ∨ s.cyc.pll = .hold → isPend t (16 * 47 + 3) = true) ∧
    t.glob = { s.glob with keyArmed := false } ∧ t.bus.nack = false ∧ Only ([.cyc, .glob, .regs] ++ raiseParts) s t)) ∧
  (∀ s v, Served s → v.toNat / 2 % 4 = 3 → v.getLsbD 0 = true → Ends (.cyccfgWrite v) s (fun t => t.cyc = s.cyc ∧
    pl t (key 1 0) = putBits v 1 2 ((pl s (key 1 0)).toNat / 2 % 4) ∧ t.glob.buserr = setBit s.glob.buserr 1 true ∧ t.bus.nack = false ∧
    Only ([.glob, .regs] ++ raiseParts) s t)) ∧
  (∀ s v, Served s → v.toNat / 2 % 4 = 3 → v.getLsbD 0 = false → Ends (.cyccfgWrite v) s (fun t => t.cyc.pll = .free ∧
    t.cyc.rate = nomRate s ∧ t.cyc.phase = s.cyc.phase ∧ pl t (key 1 0) = putBits v 1 2 ((pl s (key 1 0)).toNat / 2 % 4) ∧
    t.glob.buserr = setBit s.glob.buserr 1 true ∧ t.bus.nack = false ∧ Only ([.cyc, .glob, .regs] ++ raiseParts) s t)) ∧
  (∀ s v, Served s → 256 ≤ v.toNat → v.toNat ≤ 16000 → exec (.nomfreqWrite v) s =
    .next (putPlain (key 1 2) (leBytes 2 v.toNat) (cancelKey (ackAccess s)))) ∧
  (∀ s v, Served s → (v.toNat < 256 ∨ 16000 < v.toNat) → s.glob.buserr.getLsbD 1 = false → Ends (.nomfreqWrite v) s (fun t =>
    t.regs = s.regs ∧ t.glob.buserr = setBit s.glob.buserr 1 true ∧ isPend t (16 * 56 + 12) = true ∧ t.bus.nack = false ∧
    Only ([.glob] ++ raiseParts) s t)) ∧
  (∀ s v, Served s → (v.toNat < 256 ∨ 16000 < v.toNat) → s.glob.buserr.getLsbD 1 = true → exec (.nomfreqWrite v) s =
    .next (cancelKey (ackAccess s))) ∧
  (∀ s len, anvilOn s = true → quietDis s = false → len ≠ 0 → len.toNat ≤ 20 → s.qt.until_ + us 1 ≤ s.clk.now →
    s.clk.now ∉ s.qt.spill → Ends (.quiet len) s (fun t => t.qt = { s.qt with
      on := true, n := s.qt.n + 1,
      until_ := s.clk.now + us len.toNat, cur := min 3 s.qt.n, curOld := false } ∧
      Armed (us len.toNat) .quietEnd s t ∧ Only [.qt, .clk] s t)) ∧
  (∀ s len, anvilOn s = true → quietDis s = false → len ≠ 0 → len.toNat ≤ 20 → s.qt.until_ + us 1 ≤ s.clk.now →
    s.clk.now ∈ s.qt.spill → Ends (.quiet len) s (fun t => t.qt = { s.qt with
      on := true, nOld := s.qt.nOld + 1,
      until_ := s.clk.now + us len.toNat, cur := min 3 s.qt.nOld, curOld := true, spill := s.qt.spill.erase s.clk.now } ∧
      Armed (us len.toNat) .quietEnd s t ∧ Only [.qt, .clk] s t)) ∧
  (∀ s len, anvilOn s = true → quietDis s = false → len ≠ 0 → len.toNat ≤ 20 → s.clk.now < s.qt.until_ + us 1 → s.clk.now ∉ s.qt.spill →
    Yields (.quiet len) s { s with qt := { s.qt with n := s.qt.n + 1, skCur := setBit s.qt.skCur (min 3 s.qt.n) true } } [16 * 47 + 8]) ∧
  (∀ s len, (quietDis s = true ∨ len = 0 ∨ 20 < len.toNat) → exec (.quiet len) s =
    .next { s with qt := { s.qt with spill := s.qt.spill.erase s.clk.now } }) ∧
  (∀ s, Ends .quietEnd s (fun t => t.qt = { s.qt with
      on := false, until_ := min s.qt.until_ s.clk.now } ∧ armed .quietEnd t = false ∧ Only [.qt, .clk] s t)) ∧
  (∀ v s, v.getLsbD 1 = true → (quietcfgByte v s).qt = { s.qt with
      on := false, until_ := min s.qt.until_ s.clk.now }) ∧
  (∀ s (r : PhRail), gapped s r.val = true → (r.val = 0 ∨ s.bk.strk.getLsbD (r.val - 1) = false) → phact s r.val = 0) ∧
  (∀ s, anvilOn s = true → exec .dither s = .next { s with qt := { s.qt with dith0 := s.cyc.phase } }) ∧
  (∀ s, (ditherDev s).natAbs ≤ 100 * rdBits (pl s) (key 1 7) 0 4) ∧
  (∀ s r f lo hi, freqOf (lv s) r = some (f, lo, hi) → lo ≤ f → f ≤ hi → foldedBack s r = false → 1000 * lo ≤ switchHz s r ∧ switchHz s r ≤ 1000 * hi) ∧
  (∀ s r f lo hi, freqOf (lv s) r = some (f, lo, hi) → lo ≤ f → f ≤ hi → foldedBack s r = true → 1000 * lo / 4 ≤ switchHz s r ∧ switchHz s r ≤ 1000 * hi / 4) ∧
  (∀ s (r : PhRail) a, anvilOn s = true → has s.rl.en r.val = true → sheden (lv s) r.val = true → nph (lv s) r.val = 2 → has s.rl.shed r.val = false →
    count3 (healthy (phOf s r.val)) = 2 → a < pshed s r.val → exec (.phase r (some a)) s =
      .next { s with rl := { s.rl with shed := s.rl.shed ||| bit r.val } }) ∧
  (∀ s (r : PhRail) a, anvilOn s = true → has s.rl.en r.val = true → sheden (lv s) r.val = true → nph (lv s) r.val = 2 → has s.rl.shed r.val = true →
    3 * pshed s r.val < 2 * a → exec (.phase r (some a)) s = .next { s with rl := { s.rl with shed := s.rl.shed &&& ~~~(bit r.val) } })

/-- The end of a cycle (R40, R48, R50, R60): CYCCNT counts on, with CYCWRAP as it wraps; the NOMFREQ last written takes effect, in FREE
as the rate at once; QUIETSTAT shows the windows of the cycle that ended, and those of the next count from 0; validated banks exchange,
with SWAPDONE; with no COMMIT entry in the active schedule COMMIT acts (here with no exchange). CYCCNT_READ latches count, fine angle and PLL state
at one instant and returns the count's low byte; the read of its other bytes returns the rest of the same count (R41). -/
def Obligations.CycleEnds : Prop :=
  (∀ s, anvilOn s = true → Ends .cycleEnd s (fun t => t.cyc.cnt = s.cyc.cnt + 1 ∧ t.cyc.nom = rdNat (pl s) (key 1 2) 2 ∧
    t.cyc.phase = s.cyc.phase ∧ (s.cyc.pll = .free → t.cyc.rate = 256 * t.cyc.nom) ∧ (s.cyc.pll ≠ .free → t.cyc.rate = s.cyc.rate) ∧
    t.qt.n = 0 ∧ t.qt.breach = s.qt.brCur ∧ t.qt.skip = s.qt.skCur ∧ t.qt.brCur = 0 ∧ t.qt.skCur = 0 ∧
    (s.cyc.cnt = 0xFFFFFFFF → isPend t (16 * 47 + 10) = true) ∧
    (s.cyc.swapOk = true → t.cyc.actB = !s.cyc.actB ∧ t.cyc.schSt = 2 ∧ isPend t (16 * 47 + 6) = true) ∧
    (s.cyc.swapOk = false → t.cyc.actB = s.cyc.actB ∧ t.cyc.schSt = s.cyc.schSt) ∧
    (s.cyc.swapOk = false → hasAction s 3 = false → .commit ∈ t.pending) ∧
    Only ([.cyc, .qt, .hk, .pending] ++ raiseParts) s t)) ∧
  (∀ s, Served s → exec .cyccntRead s = .next { s with
    cyc := { s.cyc with lcnt := s.cyc.cnt, lfine := fineOf s.cyc.phase, lpll := s.cyc.pll },
    regs := { s.regs with latch := some (key 1 0x10, (leBytes 4 s.cyc.cnt.toNat).drop 1) },
    bus := { s.bus with nack := false, rdata := [BitVec.ofNat 8 s.cyc.cnt.toNat] } }) ∧
  (∀ s n (i : Fin 3), Served s → pecOn s = false → s.regs.page = 1 → s.regs.latch = some (key 1 0x10, (leBytes 4 n).drop 1) →
    Ends (.fieldLatchRead (BitVec.ofNat 8 (0x11 + i.val)) 1) s (fun t => t.bus.rdata = [BitVec.ofNat 8 (n / 256 ^ (i.val + 1))] ∧ t.bus.nack = false ∧
      t.cyc = s.cyc ∧ t.regs = s.regs))

/-- Editing the schedule (R49, R50). SCHENT3 stores its four bytes at SCHIDX in the edit bank and SCHIDX goes up by one, with wrap;
reading SCHENT3 returns the entry's top byte and steps the same; SWAP sets the swap pending with REASON 0; COPY and CLEAR write the edit
bank. While a swap is pending those writes are ignored and set BUSERR.RORSV.

The end of a validation (R50, R51): a bank that fails is rejected with its first failing rule and lowest failing entry, and raises
SWAPREJ; one that passes stays pending until angle 0.
Where the spec leaves a corner open, the clauses follow log entry 27, the model's choice. -/
def Obligations.ScheduleEditing : Prop :=
  (∀ s v, Served s → swapPending s = false → Ends (.schent3Write v) s (fun t =>
    editBank t = mput 0 (editBank s) (schIdx s) (BitVec.ofNat 32 (rdNat (pl (putPlain (key 1 0x24) [v] s)) (key 1 0x21) 4)) ∧
    actBank t = actBank s ∧ t.regs = (schIdxNext (putPlain (key 1 0x24) [v] s)).regs ∧ t.bus = { s.bus with nack := false } ∧
    t.glob = { s.glob with keyArmed := false } ∧ Only [.cyc, .regs, .glob, .bus, .clk] s t)) ∧
  (∀ s, Served s → Ends .schent3Read s (fun t => t.bus = { s.bus with nack := false, rdata := [BitVec.ofNat 8 (entByte (schEntry s) 3)] } ∧
    t.regs = (schIdxNext s).regs ∧ Only [.regs, .bus] s t)) ∧
  (∀ s, Served s → swapPending s = false → Ends .schctlSwap s (fun t => t.cyc = { s.cyc with schSt := 1, reason := 0, swapOk := false } ∧
    Only [.cyc, .glob, .bus, .clk] s t)) ∧
  (∀ s, Served s → swapPending s = false → Ends .schctlCopy s (fun t => editBank t = actBank s ∧ actBank t = actBank s ∧
    Only [.cyc, .glob, .bus, .clk] s t)) ∧
  (∀ s, Served s → swapPending s = false → Ends .schctlClear s (fun t => editBank t = [] ∧ actBank t = actBank s ∧
    Only [.cyc, .glob, .bus, .clk] s t)) ∧
  (∀ s c v, Served s → swapPending s = true → s.glob.buserr.getLsbD 0 = false → (c = .schent3Write v ∨ c = .schctlSwap ∨ c = .schctlCopy ∨ c = .schctlClear) →
    Ends c s (fun t => t.cyc = s.cyc ∧ t.regs = s.regs ∧ t.glob.buserr = setBit s.glob.buserr 0 true ∧ isPend t (16 * 56 + 12) = true)) ∧
  (∀ s r i, anvilOn s = true → swapPending s = true → s.cyc.swapOk = false → schValidate (rdNat (pl s) (key 1 2) 2) (editBank s) = some (r, i) →
    Yields .scheduleValidationEnd s { s with cyc := { s.cyc with schSt := 3, reason := r, errIdx := i } } [16 * 47 + 7]) ∧
  (∀ s, swapPending s = true → s.cyc.swapOk = false → schValidate (rdNat (pl s) (key 1 2) 2) (editBank s) = none →
    exec .scheduleValidationEnd s = .next { s with cyc := { s.cyc with swapOk := true } }) ∧
  (∀ nom b i e, (i, e) ∈ b → 7 < entAction e → ∃ j, schValidate nom b = some (1, j))

/-- FINE has 4,096 counts per cycle, and FINE[11:4] equals ANGLE (R42). Count k begins where the cycle has gone k of its 4,096 parts: that
the position is rounded down is the model's choice (log entry 12). Every count occurs. -/
def Obligations.FineAngle : Prop :=
  (∀ n, n < cycleUnits → fineOf n < 4096) ∧ (∀ s, fineOf s.cyc.phase / 16 = angleNow s) ∧
  (∀ n k, fineOf n = k ↔ k * cycleUnits ≤ 4096 * n ∧ 4096 * n < (k + 1) * cycleUnits) ∧
  (∀ k, k < 4096 → ∃ n, n < cycleUnits ∧ fineOf n = k)

/-- Missing pulses (R35). In LOCK and HOLD the close of an acceptance window counts one missing pulse, up to 17; PLLSTAT.MISSCNT shows the
count; any accepted pulse clears it, in every state of the PLL, and no window but that of the next pulse is open after it, so that a window
closes only without one. -/
def Obligations.MissedPulses : Prop :=
  (∀ s, anvilOn s = true → (s.cyc.pll = .lock ∨ s.cyc.pll = .hold) → Ends .acceptWindowClose s (fun t =>
    t.cyc.misscnt = min 17 (s.cyc.misscnt + 1) ∧ (pllstat t).toNat / 4 = min 17 (s.cyc.misscnt + 1))) ∧
  (∀ s e l, anvilOn s = true → cycEn s = true → edgeCounts s e l = true → (s.cyc.pll = .lock ∨ s.cyc.pll = .hold) →
    winLo s ≤ s.clk.now → s.clk.now ≤ winHi s → Ends (.cycPulse ⟨e, l⟩) s (fun t => t.cyc.misscnt = 0 ∧ (pllstat t).toNat / 4 = 0 ∧
      (∀ x ∈ t.clk.timers, x.ev = .acceptWindowClose → x.due = max s.clk.now (winHi t)))) ∧
  (∀ s e l, anvilOn s = true → cycEn s = true → edgeCounts s e l = true → s.cyc.pll = .free →
    (∀ a, s.cyc.lastAcc = some a → 2000 ≤ (s.clk.now - a) * (if edgeBoth s then 2 else 1)) →
    Ends (.cycPulse ⟨e, l⟩) s (fun t => t.cyc.misscnt = 0)) ∧
  (∀ s e l a, anvilOn s = true → cycEn s = true → edgeCounts s e l = true → s.cyc.pll = .acq → s.cyc.lastAcc = some a →
    2000 ≤ (s.clk.now - a) * (if edgeBoth s then 2 else 1) → (s.clk.now - a) * (if edgeBoth s then 2 else 1) ≤ 125000 →
    Ends (.cycPulse ⟨e, l⟩) s (fun t => t.cyc.misscnt = 0))

/-! Input paths (03_input_path.md). -/

/-- Closing a path (R62, R63, R68, R70). Qualification closes an enabled path that is not locked out and waits for no guard, where
INCFG.SEL lets it, and closing ends an input loss; where the other path is about to qualify in the same step and has the higher input,
this one waits for it. Inrush complete gives full drive and lets PRE begin its first ramp after an
enable. The preferred path's hand-back opens the other. A path that begins to conduct while the other does, or did within 1 ms, raises
SWITCHOVER.
Where the spec leaves a corner open, the clauses follow log entry 28, the model's choice. -/
def Obligations.PathsClose : Prop :=
  (∀ s x m, anvilOn s = true → pathEn s x = true → Ends (.pathQualify x m) s (fun t => (pathOf t x).qual = true ∧
    (s.glob.st = .run → Only ([.inp, .rl, .free] ++ raiseParts) s t))) ∧
  (∀ s x m, anvilOn s = true → pathEn s x = true → (pathOf s x).closed = false → (pathOf s x).flt.getLsbD 6 = false →
    setBit (pathOf s x).wait 4 false = 0 → selLets s x = true → yields (takeMeas m s) x = false → Ends (.pathQualify x m) s (fun t =>
      (pathOf t x).qual = true ∧ (pathOf t x).closed = true ∧ (pathOf t x).ever = true ∧ t.inp.inloss = false ∧
      (s.inp.inloss = true → isPend t (16 * 46 + 14) = true))) ∧
  (∀ s x m, anvilOn s = true → pathEn s x = true → (pathOf s x).closed = false → yields (takeMeas m s) x = true →
    Ends (.pathQualify x m) s (fun t => (pathOf t x).qual = true ∧ (pathOf t x).closed = false)) ∧
  (∀ s x m, (pathOf s x).closed = true → (pathOf s x).full = false → Ends (.inrushComplete x m) s (fun t => (pathOf t x).full = true ∧
    (pathOf t x).closed = true ∧ armed (.inrushtmo x) t = false ∧
    (has s.rl.en 0 = true → s.inp.gate = true → t.inp.gate = false ∧ has t.rl.ss 0 = true) ∧
    (s.glob.st = .run → Only ([.inp, .rl, .free] ++ raiseParts) s t))) ∧
  (∀ s x, preferred s = some x → (pathOf s x).closed = true → (pathOf s (other x)).closed = true → Ends (.preferHandback x) s (fun t =>
    (pathOf t (other x)).closed = false ∧ (pathOf t (other x)).why = .gaveWay ∧ pathOf t x = pathOf s x ∧ Only [.inp, .clk] s t)) ∧
  (∀ s x, anvilOn s = true → s.glob.st = .run → (pathOf s x).cond = false → (pathOf s (other x)).cond = true →
    Yields (.pathConductionChange x true) s (setPath x { (pathOf s x) with cond := true } s) [16 * 46 + 12]) ∧
  (∀ s x k, anvilOn s = true → s.glob.st = .run → (pathOf s x).cond = false → (pathOf s (other x)).cond = false → (pathOf s (other x)).condOff = some k →
    s.clk.now ≤ k + ms 1 → Yields (.pathConductionChange x true) s (setPath x { (pathOf s x) with cond := true } s) [16 * 46 + 12]) ∧
  (∀ s x, anvilOn s = true → s.glob.st = .run → (pathOf s x).cond = false → (pathOf s (other x)).cond = false →
    (∀ k, (pathOf s (other x)).condOff = some k → k + ms 1 < s.clk.now) → exec (.pathConductionChange x true) s =
      .next (setPath x { (pathOf s x) with cond := true } s)) ∧
  (∀ s x, anvilOn s = true → (pathOf s x).cond = true → exec (.pathConductionChange x false) s =
    .next (setPath x { (pathOf s x) with cond := false, condOff := some s.clk.now } s))

/-- Guards that are not counted as trips (R62, R64): over-voltage, reverse current and under-voltage open the path, set their flag and raise
their event, and leave the trip count; over- and under-voltage end qualification. The clearing of over-voltage and of reverse current closes
a path that is qualified and waits for nothing else.

Guards that are counted (R64 to R67): the fast, slow and inrush guards open a closed path, set their flag, raise their event and add one
trip; a trip past INRETRY locks the path out with LOCKA or LOCKB, and one within it does not. The end of the retry wait closes a qualified
path; 10 s closed clears the count; INCTL.CLRx clears flags, lockout and count, and ends the qualification. Where SLOWx comes with a measurement
that lies below the trip level, the path stays closed and its trip is armed anew. That measurement, and an average that is 0 at the end of the
retry wait, are the model's choice (log entry 13).
Where the spec leaves a corner open, the clauses follow log entries 13 and 28, the model's choice. -/
def Obligations.PathGuards : Prop :=
  (∀ s x m, anvilOn s = true → Ends (.ova x m) s (fun t => (pathOf t x).closed = false ∧ (pathOf t x).flt = setBit (pathOf s x).flt 0 true ∧
    (pathOf t x).qual = false ∧ (pathOf t x).trips = (pathOf s x).trips ∧ isPend t (16 * 46 + px x) = true ∧
    (s.glob.st = .run → Only ([.inp, .rl, .free] ++ raiseParts) s t))) ∧
  (∀ s x m, anvilOn s = true → (pathOf s x).closed = true → Ends (.reva x m) s (fun t => (pathOf t x).closed = false ∧
    (pathOf t x).flt = setBit (pathOf s x).flt 1 true ∧ (pathOf t x).qual = (pathOf s x).qual ∧ (pathOf t x).trips = (pathOf s x).trips ∧
    isPend t (16 * 46 + 2 + px x) = true ∧ (s.glob.st = .run → Only ([.inp, .rl, .free] ++ raiseParts) s t))) ∧
  (∀ s x m, anvilOn s = true → Ends (.uva x m) s (fun t => (pathOf t x).closed = false ∧ (pathOf t x).flt = setBit (pathOf s x).flt 4 true ∧
    (pathOf t x).qual = false ∧ (pathOf t x).trips = (pathOf s x).trips ∧ isPend t (16 * 46 + 8 + px x) = true ∧
    (s.glob.st = .run → Only ([.inp, .rl, .free] ++ raiseParts) s t))) ∧
  (∀ s x m c i, ((c = .inputOvClear x m ∧ i = 0) ∨ (c = .reverseReclose x m ∧ i = 1)) → anvilOn s = true → pathEn s x = true →
    (pathOf s x).qual = true → (pathOf s x).closed = false → (pathOf s x).flt.getLsbD 6 = false → setBit (pathOf s x).wait i false = 0 →
    selLets s x = true → Ends c s (fun t => (pathOf t x).closed = true ∧ t.inp.inloss = false ∧
      (s.glob.st = .run → Only ([.inp, .rl, .free] ++ raiseParts) s t))) ∧
  (∀ s x m c i e, ((c = .foca x m ∧ i = 2 ∧ e = 16 * 46 + 4 + px x) ∨ (c = .slowa x m ∧ i = 3 ∧ e = 16 * 46 + 6 + px x) ∨
      (c = .inrushtmo x ∧ i = 5 ∧ e = 16 * 46 + 15)) → anvilOn s = true → (pathOf s x).closed = true → (i = 5 → (pathOf s x).full = false) →
    (i = 3 → m = none ∨ slowLevel (takeMeas m s) x ≤ slowNow (takeMeas m s) x) →
    (pathOf s x).flt.getLsbD 6 = false →
    Ends c s (fun t => (pathOf t x).closed = false ∧ (pathOf t x).flt.getLsbD i = true ∧ (pathOf t x).trips = (pathOf s x).trips + 1 ∧
      (pathOf t x).flt.getLsbD 6 = decide (inretry s ≤ (pathOf s x).trips) ∧ (i = 3 → (pathOf t x).acc = slowLevel s x) ∧ isPend t e = true ∧
      (inretry s ≤ (pathOf s x).trips → isPend t (16 * 46 + 10 + px x) = true) ∧
      (s.glob.st = .run → Only ([.inp, .rl, .free] ++ raiseParts) s t))) ∧
  (∀ s x m, anvilOn s = true → pathEn s x = true → (pathOf s x).qual = true → (pathOf s x).closed = false →
    (pathOf s x).flt.getLsbD 6 = false → (pathOf s x).wait &&& 0x13 = 0 → selLets s x = true → Ends (.pathRetryEnd x m) s (fun t =>
      (pathOf t x).closed = true ∧ ((pathOf s x).wait.getLsbD 3 = true → slowPct t x = 0) ∧ (s.glob.st = .run → Only ([.inp, .rl, .free] ++ raiseParts) s t))) ∧
  (∀ s x, (pathOf s x).closed = true → Ends (.tripCountClear x) s (fun t => pathOf t x = { (pathOf s x) with trips := 0 } ∧
    pathOf t (other x) = pathOf s (other x) ∧ Only [.inp, .clk] s t)) ∧
  (∀ s a b, Served s → Ends (.inctlClr a b) s (fun t =>
    t.inp = { s.inp with a := if a then { s.inp.a with flt := 0, wait := 0, trips := 0, qual := false } else s.inp.a,
                         b := if b then { s.inp.b with flt := 0, wait := 0, trips := 0, qual := false } else s.inp.b } ∧
    Only [.inp, .clk, .glob, .bus] s t)) ∧
  (∀ s x m, m ≠ none → slowNow (takeMeas m s) x < slowLevel (takeMeas m s) x → exec (.slowa x m) s =
    .next (armSlow x (disarm (.slowa x none) (takeMeas m s))))

/-- Input loss and the input power limit (R69, R73, R82, R150): with no path closed, one closed before and none declared yet, the loss is
declared with INLOSS and INLOSSUV, and in RUN the sequencer stops. PLIM follows the limit and raises its event on rail 0 as it begins.
Where the spec leaves a corner open, the clauses follow log entry 28, the model's choice. -/
def Obligations.InputLoss : Prop :=
  (∀ s, anvilOn s = true → s.glob.pendRst = none → s.inp.a.closed = false → s.inp.b.closed = false → s.inp.inloss = false → (s.inp.a.ever = true ∨ s.inp.b.ever = true) →
    Ends .inloss s (fun t => t.inp.inloss = true ∧ t.inp.inlossuv = lossByUv s ∧ isPend t (16 * 46 + 13) = true ∧
      (s.glob.boot = false → s.glob.st = .run → t.glob.st = .stop))) ∧
  (∀ s, anvilOn s = true → has s.rl.en 0 = true → s.inp.plim = false →
    Yields (.plim true) s { s with inp := { s.inp with plim := true } } [15]) ∧
  (∀ s, anvilOn s = true → has s.rl.en 0 = true → exec (.plim false) s = .next { s with inp := { s.inp with plim := false } })

/-! Rails (04_multiphase_rails.md, 05_integrated_rails.md, 06_sequencing_supervision.md). -/

/-- Power-good and the faults of a rail that runs with the reaction NONE (R74, R95, R103, R116, R119, R121, R125, R142, R152, R164,
R467). An enabled rail whose block allows it becomes power-good. UV after the first power-good and outside a soft-start raises its event
and takes power-good with PGLOST; a report of a level that is no fall, or of a rail that is off, before its first power-good or in a soft-start,
only notes the level. OV raises its event, keeps power-good and holds the switches of every rail but an EXT one off, until
OV_HOLD_RELEASE. A period that a cycle-by-cycle limit has ended sets CLIM, one that it has not clears it, and OCFAST is raised once in a
run that has reached 16; a negative-limit edge is only a protective edge of a quiet window. The limit of an LDO engages with OCFAST and
starts its overload time; an LSW rail with reaction NONE or OFF opens by itself and is held off. No power-good in STTMO raises STARTTMO, and
a timeout that expired in the step in which its rail was switched off is raised all the same, or falls where that step has taken its reaction
(the model's choice, log entry 20); the thermal limit raises THLIM once. None of the others switches the rail off. Whatever the reaction, and on a disabled rail too where
the event has no bar, what follows the event is `react` of its kind, which Obligations.Reactions shows; where the event cannot occur,
nothing changes. The windows of an EXT rail's inputs follow POWER_GOOD, UV, OV and OV_HOLD_RELEASE, whether or not the rail is on (R164, R170);
POWER_GOOD ends the levels of UV and OV (R377).
Where the spec leaves a corner open, the clauses follow log entries 13 and 20, the model's choice. -/
def Obligations.RailFaults : Prop :=
  (∀ s (r : Rail), Running s → canPg s r.val = true → Ends (.powerGood r) s (fun t => has t.rl.pg r.val = true ∧ has t.rl.pgd r.val = true ∧
    t.rl.en = s.rl.en ∧ armed (.starttmo r) t = false ∧ Armed (sec 10) (.retryCountClear r) s t ∧
    Only [.rl, .bk, .seq, .chg, .ds, .pending, .clk, .irq, .pwr, .bus, .fl, .free] s t)) ∧
  (∀ s (r : Rail) mon, Running s → has s.rl.en r.val = true → has s.rl.pgd r.val = true → has s.rl.soft r.val = false →
    supervised s r.val = true → uvFalls s r.val mon = true → rxCode (lv s) r.val 0 = 0 → Ends (.uv r mon) s (fun t => has t.rl.pg r.val = false ∧ t.rl.en = s.rl.en ∧
      isPend t (16 * r.val) = true ∧ (has s.rl.pg r.val = true → isPend t (16 * r.val + 4) = true) ∧ Only ([.rl, .bk, .chg, .free] ++ raiseParts) s t)) ∧
  (∀ s (r : Rail) mon, anvilOn s = true → has s.rl.en r.val = true → rk r.val ≠ .lsw → supervised s r.val = true → rxCode (lv s) r.val 1 = 0 →
    Ends (.ov r mon) s (fun t => isPend t (16 * r.val + 1) = true ∧ t.rl.pg = s.rl.pg ∧ t.rl.en = s.rl.en ∧
      has t.rl.hold r.val = (has s.rl.hold r.val || decide (rk r.val ≠ .ext)) ∧ Only ([.rl, .bk, .qt] ++ raiseParts) s t)) ∧
  (∀ s (r : Rail), Ends (.ovHoldRelease r) s (fun t =>
    t.rl = { s.rl with hold := s.rl.hold &&& ~~~(bit r.val), ovNow := s.rl.ovNow &&& ~~~(bit r.val) } ∧
    Only (if rk r.val = .ext then [.rl, .seq] else [.rl]) s t)) ∧
  (∀ s (r : Rail), anvilOn s = true → has s.rl.en r.val = true → rk r.val ≠ .ext → rk r.val ≠ .ldo → rk r.val ≠ .lsw →
    exec (.ocfast ⟨r, 0, false⟩) s = .next { s with rl := { s.rl with clim := s.rl.clim &&& ~~~(bit r.val), ocRun := s.rl.ocRun &&& ~~~(bit r.val) } }) ∧
  (∀ s (r : Rail) run, anvilOn s = true → has s.rl.en r.val = true → rk r.val ≠ .ext → rk r.val ≠ .ldo → rk r.val ≠ .lsw → run ≠ 0 →
    (run < 16 ∨ has s.rl.ocRun r.val = true) → Ends (.ocfast ⟨r, run, false⟩) s (fun t => t.rl = { s.rl with
      clim := s.rl.clim ||| bit r.val,
      shed := s.rl.shed &&& ~~~(bit r.val) } ∧ Only ([.rl, .qt] ++ raiseParts) s t)) ∧
  (∀ s (r : Rail) run, anvilOn s = true → has s.rl.en r.val = true → rk r.val ≠ .ext → rk r.val ≠ .ldo → rk r.val ≠ .lsw → 16 ≤ run →
    has s.rl.ocRun r.val = false → rxCode (lv s) r.val 2 = 0 → Ends (.ocfast ⟨r, run, false⟩) s (fun t => t.rl = { s.rl with
      clim := s.rl.clim ||| bit r.val, ocRun := s.rl.ocRun ||| bit r.val, shed := s.rl.shed &&& ~~~(bit r.val) } ∧
      isPend t (16 * r.val + 2) = true ∧ Only ([.rl, .qt] ++ raiseParts) s t)) ∧
  (∀ s (r : Rail) run, anvilOn s = true → has s.rl.en r.val = true → rk r.val ≠ .ext → rk r.val ≠ .ldo → rk r.val ≠ .lsw →
    Ends (.ocfast ⟨r, run, true⟩) s (fun t => (s.qt.on = true → isPend t (16 * 47 + 9) = true) ∧ Only ([.qt] ++ raiseParts) s t)) ∧
  (∀ s (r : Rail) run n, Running s → has s.rl.en r.val = true → rk r.val = .lsw → heldRail s r.val = false → has s.seq.retryWait r.val = false →
    (rxCode (lv s) r.val 2 = 0 ∨ rxCode (lv s) r.val 2 = 2) → run ≠ 0 → Ends (.ocfast ⟨r, run, n⟩) s (fun t => has t.rl.en r.val = false ∧
      has t.seq.offhold r.val = true ∧ isPend t (16 * r.val + 2) = true)) ∧
  (∀ s (r : Rail) run n, anvilOn s = true → has s.rl.en r.val = true → rk r.val = .ldo → has s.rl.clamp r.val = false → rxCode (lv s) r.val 2 = 0 →
    run ≠ 0 → Ends (.ocfast ⟨r, run, n⟩) s (fun t => t.rl = { s.rl with clamp := s.rl.clamp ||| bit r.val } ∧ Armed (olTime s r.val) (.ocslow r) s t ∧
      isPend t (16 * r.val + 2) = true ∧ Only ([.rl] ++ raiseParts) s t)) ∧
  (∀ s (r : Rail), anvilOn s = true → has s.rl.en r.val = true → has s.rl.pgd r.val = false → has s.seq.joined r.val = false → has s.seq.taken r.val = false →
    rxCode (lv s) r.val 4 = 0 → Yields (.starttmo r) s (disarm (.starttmo r) s) [16 * r.val + 5]) ∧
  (∀ s (r : Rail), anvilOn s = true → rk r.val ≠ .ext → has s.rl.thl r.val = false → rxCode (lv s) r.val 5 = 0 →
    Yields (.thlim r) s { s with rl := { s.rl with
      thl := s.rl.thl ||| bit r.val, thlNow := s.rl.thlNow ||| bit r.val } } [16 * r.val + 10]) ∧
  (∀ s (r : Rail), anvilOn s = true → rk r.val ≠ .ext → has s.rl.thl r.val = true → exec (.thlim r) s = .next s) ∧
  (∀ s (r : Rail), canPg s r.val = true → s.glob.boot = false → has s.rl.up r.val = true → Ends (.powerGood r) s (fun t =>
    has t.rl.pg r.val = true ∧ has t.rl.pgd r.val = true ∧ t.rl.en = s.rl.en ∧ armed (.starttmo r) t = false)) ∧
  (∀ s (r : Rail), anvilOn s = true → canPg s r.val = false → (rk r.val ≠ .ext ∨ has s.rl.en r.val = false) → exec (.powerGood r) s =
    .next { s with rl := { s.rl with uvNow := s.rl.uvNow &&& ~~~(bit r.val), ovNow := s.rl.ovNow &&& ~~~(bit r.val) } }) ∧
  (∀ s (r : Rail), anvilOn s = true → rk r.val = .ext → has s.rl.en r.val = true → has s.rl.pg r.val = true → exec (.powerGood r) s =
    .next { s with
      rl := { s.rl with uvNow := s.rl.uvNow &&& ~~~(bit r.val), ovNow := s.rl.ovNow &&& ~~~(bit r.val) },
      seq := { s.seq with monok := s.seq.monok ||| monMask s r.val, monhi := s.seq.monhi &&& ~~~(monMask s r.val) } }) ∧
  (∀ s (r : Rail) mon, (rk r.val = .lsw ∨ supervised s r.val = false) → exec (.ov r mon) s = .next s) ∧
  (∀ s (r : Rail) mon, anvilOn s = true → rk r.val ≠ .lsw → supervised s r.val = true → ∃ u, exec (.ov r mon) s =
    .next (react r.val 1 (16 * r.val + 1) (has s.rl.en r.val) false u) ∧ isPend u (16 * r.val + 1) = true ∧ u.rl.en = s.rl.en ∧ u.rl.pg = s.rl.pg ∧
      u.rl.hold = (if has s.rl.en r.val = true ∧ rk r.val ≠ .ext then s.rl.hold ||| bit r.val else s.rl.hold) ∧
      Only ([.rl, .bk, .qt] ++ raiseParts) s u) ∧
  (∀ s (r : Rail) mon, anvilOn s = true → rk r.val = .ext → supervised s r.val = true → rxCode (lv s) r.val 1 = 0 → Ends (.ov r mon) s (fun t =>
    t.seq.monovl = s.seq.monovl ||| mon ∧ t.seq.monok = s.seq.monok &&& ~~~mon ∧ isPend t (16 * r.val + 1) = true ∧ t.rl.hold = s.rl.hold)) ∧
  (∀ s (r : Rail), anvilOn s = true → rk r.val = .ext → Ends (.ovHoldRelease r) s (fun t =>
    t.seq.monok = s.seq.monok ||| (s.seq.monhi &&& monMask s r.val) ∧ t.seq.monhi &&& monMask s r.val = 0)) ∧
  (∀ s (r : Rail) mon, anvilOn s = true → rk r.val = .ext → supervised s r.val = true → has s.rl.en r.val = true → has s.rl.pgd r.val = true →
    has s.rl.soft r.val = false → uvFalls s r.val mon = true → rxCode (lv s) r.val 0 = 0 → Ends (.uv r mon) s (fun t => t.seq.monuvl = s.seq.monuvl ||| mon ∧
      t.seq.monhi = s.seq.monhi &&& ~~~(monMask s r.val &&& mon) ∧
      t.seq.monok = (s.seq.monok &&& ~~~(monMask s r.val)) ||| (monMask s r.val &&& ~~~mon &&& ~~~t.seq.monhi) ∧ isPend t (16 * r.val) = true)) ∧
  (∀ s (r : Rail) run n, (rk r.val = .ext ∨ rk r.val = .lsw ∧ run = 0 ∨ rk r.val = .ldo ∧ (run = 0 ∨ has s.rl.clamp r.val = true) ∨
    has s.rl.en r.val = false ∧ has s.rl.qu r.val = false) → exec (.ocfast ⟨r, run, n⟩) s = .next s) ∧
  (∀ s (r : Rail) run, anvilOn s = true → has s.rl.en r.val = true → rk r.val ≠ .ext → rk r.val ≠ .ldo → rk r.val ≠ .lsw → 16 ≤ run →
    has s.rl.ocRun r.val = false → ∃ u, exec (.ocfast ⟨r, run, false⟩) s = .next (react r.val 2 (16 * r.val + 2) true false u) ∧ u.rl = { s.rl with
      clim := s.rl.clim ||| bit r.val, ocRun := s.rl.ocRun ||| bit r.val, shed := s.rl.shed &&& ~~~(bit r.val) } ∧
      isPend u (16 * r.val + 2) = true ∧ Only ([.rl, .qt] ++ raiseParts) s u) ∧
  (∀ s (r : Rail) run n, anvilOn s = true → has s.rl.en r.val = true → rk r.val = .lsw → run ≠ 0 → exec (.ocfast ⟨r, run, n⟩) s =
    .next (react r.val 2 (16 * r.val + 2) true true (ownOff r.val (raise (16 * r.val + 2) s)))) ∧
  (∀ s (r : Rail) run n, anvilOn s = true → has s.rl.en r.val = true → rk r.val = .ldo → has s.rl.clamp r.val = false → run ≠ 0 →
    ∃ u, exec (.ocfast ⟨r, run, n⟩) s = .next (react r.val 2 (16 * r.val + 2) true false u) ∧ u.rl = { s.rl with clamp := s.rl.clamp ||| bit r.val } ∧
      Armed (olTime s r.val) (.ocslow r) s u ∧ isPend u (16 * r.val + 2) = true ∧ Only ([.rl] ++ raiseParts) s u) ∧
  (∀ s (r : Rail), anvilOn s = true → has s.rl.en r.val = true → has s.rl.pgd r.val = false → has s.seq.joined r.val = false →
    has s.seq.taken r.val = false → exec (.starttmo r) s = .next (react r.val 4 (16 * r.val + 5) true false (raise (16 * r.val + 5) (disarm (.starttmo r) s)))) ∧
  (∀ s (r : Rail), has s.seq.joined r.val = false → has s.seq.taken r.val = false → (has s.rl.en r.val = false ∨ has s.rl.pgd r.val = true) → exec (.starttmo r) s =
    .next (disarm (.starttmo r) s)) ∧
  (∀ s (r : Rail), anvilOn s = true → has s.seq.joined r.val = true → has s.seq.taken r.val = false → (rxCode (lv s) r.val 4 ≤ 1 ∨ s.glob.st = .safe) → Yields (.starttmo r) s
    (disarm (.starttmo r) { s with seq := { s.seq with joined := s.seq.joined &&& ~~~(bit r.val) } }) [16 * r.val + 5]) ∧
  (∀ s (r : Rail), anvilOn s = true → rk r.val ≠ .ext → has s.rl.thl r.val = false → exec (.thlim r) s =
    .next (react r.val 5 (16 * r.val + 10) (has s.rl.en r.val) false (raise (16 * r.val + 10) { s with rl := { s.rl with
      thl := s.rl.thl ||| bit r.val, thlNow := s.rl.thlNow ||| bit r.val } }))) ∧
  (∀ s (r : Rail), rk r.val = .ext → exec (.thlim r) s = .next s) ∧
  (∀ s (r : Rail), anvilOn s = false → exec (.powerGood r) s = .next s) ∧
  (∀ s (r : Rail), has s.seq.taken r.val = true → exec (.starttmo r) s =
    .next (disarm (.starttmo r) { s with seq := { s.seq with taken := s.seq.taken &&& ~~~(bit r.val) } })) ∧
  (∀ s (r : Rail) mon, anvilOn s = true → (has s.rl.en r.val = false ∨ has s.rl.pgd r.val = false ∨ has s.rl.soft r.val = true ∨ uvFalls s r.val mon = false) →
    exec (.uv r mon) s = .next (uvNote r.val mon s)) ∧
  (∀ s (r : Rail) mon, rk r.val ≠ .ext → rk r.val ≠ .gb → supervised s r.val = true → uvNote r.val mon s =
    { s with rl := { s.rl with uvNow := s.rl.uvNow ||| bit r.val } })

/-- Overload (R73, R96, R103, R115, R121, R125, R129, R152, R255). A demand above the limit in force engages the clamp and starts the
overload time, an LDO's with OCFAST; one below it releases the clamp; else nothing changes. After that time OCSLOW is raised, once per
unbroken run of clamping, and an LSW rail with reaction NONE or OFF opens by itself and is held off. STAGE_TEMP_LIMIT_RELEASE ends the
thermal limit of an MPH rail, IMBAL_REARM its imbalance. -/
def Obligations.Overload : Prop :=
  (∀ s (r : Rail) d, anvilOn s = true → has s.rl.en r.val = true → rk r.val ≠ .ext → rk r.val ≠ .ldo → has s.rl.clamp r.val = false →
    limitInForce s r.val < d → Ends (.overloadClamp r d) s (fun t => t.rl = { s.rl with clamp := s.rl.clamp ||| bit r.val } ∧
      Armed (olTime s r.val) (.ocslow r) s t ∧ Only [.rl, .clk] s t)) ∧
  (∀ s (r : Rail) d, anvilOn s = true → has s.rl.en r.val = true → rk r.val = .ldo → has s.rl.clamp r.val = false →
    limitInForce s r.val < d → rxCode (lv s) r.val 2 = 0 → Ends (.overloadClamp r d) s (fun t =>
      t.rl = { s.rl with clamp := s.rl.clamp ||| bit r.val } ∧ Armed (olTime s r.val) (.ocslow r) s t ∧
      isPend t (16 * r.val + 2) = true ∧ Only ([.rl] ++ raiseParts) s t)) ∧
  (∀ s (r : Rail) d, anvilOn s = true → has s.rl.en r.val = true → rk r.val ≠ .ext → has s.rl.clamp r.val = true → d < limitInForce s r.val →
    Ends (.overloadClamp r d) s (fun t => t.rl = { s.rl with clamp := s.rl.clamp &&& ~~~(bit r.val), slowRun := s.rl.slowRun &&& ~~~(bit r.val) } ∧
      armed (.ocslow r) t = false ∧ Only [.rl, .clk] s t)) ∧
  (∀ s (r : Rail) d, (has s.rl.clamp r.val = true → limitInForce s r.val < d) → (has s.rl.clamp r.val = false → d ≤ limitInForce s r.val) →
    exec (.overloadClamp r d) s = .next s) ∧
  (∀ s (r : Rail), anvilOn s = true → has s.rl.en r.val = true → rk r.val ≠ .ext → rk r.val ≠ .lsw →
    has s.rl.clamp r.val = true → has s.rl.slowRun r.val = false → rxCode (lv s) r.val 3 = 0 → Yields (.ocslow r) s
      (disarm (.ocslow r) { s with rl := { s.rl with slowRun := s.rl.slowRun ||| bit r.val } }) [16 * r.val + 3]) ∧
  (∀ s (r : Rail), (has s.rl.slowRun r.val = true ∨ has s.rl.clamp r.val = false) → exec (.ocslow r) s = .next (disarm (.ocslow r) s)) ∧
  (∀ s (r : Rail), Running s → has s.rl.en r.val = true → rk r.val = .lsw → has s.rl.clamp r.val = true → has s.rl.slowRun r.val = false →
    heldRail s r.val = false → has s.seq.retryWait r.val = false → (rxCode (lv s) r.val 3 = 0 ∨ rxCode (lv s) r.val 3 = 2) →
    Ends (.ocslow r) s (fun t => has t.rl.en r.val = false ∧ has t.seq.offhold r.val = true ∧ isPend t (16 * r.val + 3) = true)) ∧
  (∀ s (c : Chan), exec (.stageTempLimitRelease c) s = .next { s with rl := { s.rl with
    thl := s.rl.thl &&& ~~~(bit (1 + c.val)), thlNow := s.rl.thlNow &&& ~~~(bit (1 + c.val)) } }) ∧
  (∀ s (r : Rail), exec (.imbalRearm r) s = .next { s with rl := { s.rl with
    imbal := s.rl.imbal &&& ~~~(bit r.val), imbNow := s.rl.imbNow &&& ~~~(bit r.val) } })

/-- Reactions, shown for UV of a rail that is on in RUN (R153, R155, R156, R158, R159, R166, R204). OFF, CHANNEL and GROUP switch off their members and
every dependant, leave every other rail on, and hold the members off; RETRY within its count switches off and notes the retry, past it RETRYEX is raised;
RESET asks for a system reset with the cause RAILRST; SAFE enters SAFE with the cause REACT. LASTRX names the rail, the code and the kind.
Where the spec leaves a corner open, the clauses follow log entry 20, the model's choice. -/
def Obligations.Reactions : Prop :=
  (∀ s (r : Rail) mon k, Running s → has s.rl.en r.val = true → has s.rl.pgd r.val = true → has s.rl.soft r.val = false → supervised s r.val = true → uvFalls s r.val mon = true →
    heldRail s r.val = false → has s.seq.retryWait r.val = false → rxCode (lv s) r.val 0 = k → (k = 2 ∨ k = 3 ∨ k = 4) → Ends (.uv r mon) s (fun t =>
      has t.rl.en r.val = false ∧ has t.rl.pg r.val = false ∧ has t.seq.offhold r.val = true ∧ t.seq.lastRail = r.val ∧ t.seq.lastCode = k ∧ t.seq.lastKind = 0 ∧
      (∀ d : Rail, ancestors (lv s) d.val &&& members s r.val k false ≠ 0 → has t.rl.en d.val = false) ∧
      (∀ d : Rail, ancestors (lv s) d.val &&& members s r.val k false = 0 → has (members s r.val k false) d.val = false → has t.rl.en d.val = has s.rl.en d.val) ∧
      t.seq.offhold = s.seq.offhold ||| members s r.val k false ∧ t.glob = s.glob ∧
      Only ([.rl, .bk, .inp, .chg, .ds, .free, .txn, .safe, .qt, .pending] ++ raiseParts) s t)) ∧
  (∀ s (r : Rail) mon, Running s → has s.rl.en r.val = true → has s.rl.pgd r.val = true → has s.rl.soft r.val = false → supervised s r.val = true → uvFalls s r.val mon = true →
    heldRail s r.val = false → has s.seq.retryWait r.val = false → rxCode (lv s) r.val 0 = 1 → mget 0 s.seq.retries r.val < rxCount (lv s) r.val →
    Ends (.uv r mon) s (fun t => has t.rl.en r.val = false ∧ has t.seq.retryWait r.val = true ∧ mget 0 t.seq.retries r.val = mget 0 s.seq.retries r.val + 1 ∧
      t.seq.offhold = s.seq.offhold ∧ t.seq.lastRail = r.val ∧ t.seq.lastCode = 1 ∧
      Only ([.rl, .bk, .inp, .chg, .free, .txn, .safe, .qt, .pending] ++ raiseParts) s t)) ∧
  (∀ s (r : Rail) mon, Running s → has s.rl.en r.val = true → has s.rl.pgd r.val = true → has s.rl.soft r.val = false → supervised s r.val = true → uvFalls s r.val mon = true →
    heldRail s r.val = false → has s.seq.retryWait r.val = false → rxCode (lv s) r.val 0 = 1 → rxCount (lv s) r.val ≤ mget 0 s.seq.retries r.val →
    rxEsc (lv s) r.val = 2 → Ends (.uv r mon) s (fun t => has t.rl.en r.val = false ∧ has t.seq.offhold r.val = true ∧
      isPend t (16 * r.val + 11) = true ∧ t.seq.lastCode = 2)) ∧
  (∀ s (r : Rail) mon, Running s → has s.rl.en r.val = true → has s.rl.pgd r.val = true → has s.rl.soft r.val = false → supervised s r.val = true → uvFalls s r.val mon = true →
    heldRail s r.val = false → rxCode (lv s) r.val 0 = 5 → ∃ u, exec (.uv r mon) s = .next (requestReset .rail u) ∧
      u.seq.lastRail = r.val ∧ u.seq.lastCode = 5 ∧ Only ([.rl, .bk, .chg, .free, .safe] ++ raiseParts) s u) ∧
  (∀ s (r : Rail) mon, Running s → has s.rl.en r.val = true → has s.rl.pgd r.val = true → has s.rl.soft r.val = false → supervised s r.val = true → uvFalls s r.val mon = true →
    heldRail s r.val = false → rxCode (lv s) r.val 0 = 6 → Ends (.uv r mon) s (fun t => t.glob.st = .safe ∧ t.safe.cause = 0x40 ∧
      t.safe.first = 7 ∧ t.seq.rst = 0x1F ∧ isPend t (16 * 59) = true ∧ t.seq.lastCode = 6))

/-- Ramps and transient control (R86, R92, R93, R94). The reference of an MPH rail rises 100 µs after its enable, and a ramp ends at its target;
a GB rail without sense is power-good then (R128). On
an armed rail a strike is counted, raises STRIKE, takes a shed phase back and ends a pre-bias; braking begins; each ends into its blanking times, and a
trigger still present when blanking ends acts. -/
def Obligations.TransientControl : Prop :=
  (∀ s (c : Chan), has s.rl.en (1 + c.val) = true → has s.rl.ss (1 + c.val) = true → armed (.rampEnd (railF (1 + c.val))) s = false →
    exec (.stageEnableDelay c) s = .next (startRamp (1 + c.val) (disarm (.stageEnableDelay c) s))) ∧
  (∀ s (r : Rail), has s.rl.en r.val = true → has s.rl.ss r.val = true → rk r.val ≠ .gb → Ends (.rampEnd r) s (fun t =>
    t.rl.ss = s.rl.ss &&& ~~~(bit r.val) ∧ t.rl.en = s.rl.en ∧ t.rl.pg = s.rl.pg ∧ Only [.rl, .clk] s t)) ∧
  (∀ s (c : Chan), Running s → has s.rl.en (21 + c.val) = true → has s.rl.ss (21 + c.val) = true → snsen (lv s) c.val = false →
    s.bk.vlow.getLsbD c.val = false → has s.rl.pg (21 + c.val) = false → Ends (.rampEnd (railF (21 + c.val))) s (fun t =>
    has t.rl.ss (21 + c.val) = false ∧ t.rl.en = s.rl.en ∧ has t.rl.pg (21 + c.val) = true)) ∧
  (∀ s (c : Chan), transientArmed s c.val 4 = true → s.bk.strk.getLsbD c.val = false → s.bk.blkS.getLsbD c.val = false →
    Ends (.strike c) s (fun t => t.bk.strk = setBit s.bk.strk c.val true ∧ (mget 0 t.bk.strkn c.val).toNat = min 0xFFFF (1 + (mget 0 s.bk.strkn c.val).toNat) ∧
      t.rl = { s.rl with shed := s.rl.shed &&& ~~~(bit (1 + c.val)), ramps := t.rl.ramps } ∧ preBiased t (1 + c.val) = false ∧
      isPend t (16 * (1 + c.val) + 13) = true ∧
      Only ([.bk, .rl, .qt] ++ raiseParts) s t)) ∧
  (∀ s (c : Chan), s.bk.strk.getLsbD c.val = true → Ends (.strikeEnd c) s (fun t => t.bk.strk = setBit s.bk.strk c.val false ∧
    t.bk.blkS = setBit s.bk.blkS c.val true ∧ t.bk.blkB = setBit s.bk.blkB c.val true ∧ Armed (us 2) (.blankingEnd c .strike none) s t ∧
    Only [.bk, .pat, .clk] s t)) ∧
  (∀ s (c : Chan), transientArmed s c.val 6 = true → s.bk.brk.getLsbD c.val = false → s.bk.blkB.getLsbD c.val = false →
    Ends (.brake c) s (fun t => t.bk = { s.bk with brk := setBit s.bk.brk c.val true } ∧ armed (.brakeEnd c) t = true ∧ Only ([.bk, .qt] ++ raiseParts) s t)) ∧
  (∀ s (c : Chan), s.bk.brk.getLsbD c.val = true → Ends (.brakeEnd c) s (fun t => t.bk = { s.bk with
    brk := setBit s.bk.brk c.val false, blkS := setBit s.bk.blkS c.val true, blkB := setBit s.bk.blkB c.val true } ∧
    Armed (us 1) (.blankingEnd c .brake none) s t ∧ Only [.bk, .clk] s t)) ∧
  (∀ s (c : Chan) o, o ≠ some true → Ends (.blankingEnd c .strike o) s (fun t => t.bk = { s.bk with blkS := setBit s.bk.blkS c.val false } ∧
    Only [.bk, .clk] s t)) ∧
  (∀ s (c : Chan) o, o ≠ some true → Ends (.blankingEnd c .brake o) s (fun t => t.bk = { s.bk with blkB := setBit s.bk.blkB c.val false } ∧
    Only [.bk, .clk] s t)) ∧
  (∀ s (c : Chan), transientArmed s c.val 4 = true → s.bk.strk.getLsbD c.val = false → Ends (.blankingEnd c .strike (some true)) s (fun t =>
    t.bk.strk = setBit s.bk.strk c.val true ∧ t.bk.blkS = setBit s.bk.blkS c.val false ∧ isPend t (16 * (1 + c.val) + 13) = true ∧
    Only ([.bk, .rl, .qt] ++ raiseParts) s t)) ∧
  (∀ s (c : Chan), transientArmed s c.val 6 = true → s.bk.brk.getLsbD c.val = false → Ends (.blankingEnd c .brake (some true)) s (fun t =>
    t.bk.brk = setBit s.bk.brk c.val true ∧ t.bk.blkB = setBit s.bk.blkB c.val false ∧ Only ([.bk, .qt] ++ raiseParts) s t))

/-- Phases and pass devices (R75, R76, R77, R82, R88, R99, R100, R122, R123). A phase is declared failed with PHASEFLT by a cause that can show: any while
its rail is enabled, and of external stages a high IMON always and a low one in the quench too; so is a driven pass device, the incoming one of an overlap included, which the
failure ends. A populated healthy spare joins with SPAREIN where phases are short, and ends shedding; the other pass device takes over.
That the spare joins only while fewer phases than NPH are healthy, and ends the shedding, so that a shed phase switches at once, is the
model's choice (log entry 13). A stage fault is raised as SFLTc rises and its bit falls with it; an imbalance raises its event, of an MPH rail once until it is re-armed.
ADD_PHASE brings a shed phase back.
Where the spec leaves a corner open, the clauses follow log entry 13, the model's choice. -/
def Obligations.PhasesAndSpares : Prop :=
  (∀ s (r : PhRail) (p : Phase) cause, anvilOn s = true → (has s.rl.en r.val = true ∨ r.val ≠ 0 ∧ (cause.val = 0 ∨ cause.val = 1 ∧ has s.rl.qu r.val = true)) → (phOf s r.val).fail.getLsbD p.val = false → has s.rl.overlap r.val = false →
    Ends (.phaseflt (.phase r p cause)) s (fun t => (phOf t r.val).fail = setBit (phOf s r.val).fail p.val true ∧
      (phOf t r.val).spare = setBit (phOf s r.val).spare p.val false ∧ t.rl = { s.rl with shed := if count3 (healthy (phOf t r.val)) < 2 then s.rl.shed &&& ~~~(bit r.val) else s.rl.shed } ∧
      isPend t (16 * r.val + 7) = true ∧ Only ([.bk, .rl] ++ raiseParts) s t)) ∧
  (∀ s (c : Chan) o, anvilOn s = true → spareEn s c.val = true → has s.rl.en (13 + c.val) = true → has s.rl.overlap (13 + c.val) = false →
    (ldoOf s c.val).pass1 = false → (ldoOf s c.val).p0f = false → Ends (.phaseflt (.pass c false o)) s (fun t => (ldoOf t c.val).p0f = true ∧
      (ldoOf t c.val).p1f = (ldoOf s c.val).p1f ∧ (ldoOf t c.val).pcause = (if o then 1 else 2) ∧ isPend t (16 * (13 + c.val) + 7) = true ∧
      Only ([.bk, .rl] ++ raiseParts) s t)) ∧
  (∀ s (c : Chan) o, anvilOn s = true → spareEn s c.val = true → has s.rl.en (13 + c.val) = true → has s.rl.overlap (13 + c.val) = true →
    (ldoOf s c.val).p1f = false → Ends (.phaseflt (.pass c true o)) s (fun t => (ldoOf t c.val).p1f = true ∧ (ldoOf t c.val).p0f = (ldoOf s c.val).p0f ∧
      (ldoOf t c.val).pcause = (if o then 1 else 2) ∧ has t.rl.overlap (13 + c.val) = false ∧ isPend t (16 * (13 + c.val) + 7) = true ∧
      Only ([.bk, .rl, .pat] ++ raiseParts) s t)) ∧
  (∀ s (r : PhRail), anvilOn s = true → has s.rl.en r.val = true → (phOf s r.val).fail ≠ 0 → count3 (healthy (phOf s r.val)) < nph (lv s) r.val →
    sparepop (lv s) r.val = true → (phOf s r.val).spare &&& ~~~(phOf s r.val).fail ≠ 0 →
    Yields (.sparein (.phases r)) s
      (setPh r.val { (phOf s r.val) with spare := 0 } { s with rl := { s.rl with shed := s.rl.shed &&& ~~~(bit r.val) } }) [16 * r.val + 8]) ∧
  (∀ s (c : Chan), anvilOn s = true → (ldoOf s c.val).pass1 = false → (ldoOf s c.val).p0f = true → (ldoOf s c.val).p1f = false →
    Yields (.sparein (.ldo c)) s (setLdo c.val { (ldoOf s c.val) with pass1 := true } s) [16 * (13 + c.val) + 8]) ∧
  (∀ s (c : Chan), anvilOn s = true → s.bk.stgflt.getLsbD c.val = false → Yields (.stgflt ⟨c, true⟩) s
    { s with bk := { s.bk with stgflt := setBit s.bk.stgflt c.val true } } [16 * (1 + c.val) + 15]) ∧
  (∀ s (c : Chan), anvilOn s = true → exec (.stgflt ⟨c, false⟩) s = .next { s with bk := { s.bk with stgflt := setBit s.bk.stgflt c.val false } }) ∧
  (∀ s (r : Rail), anvilOn s = true → has s.rl.en r.val = true → (rk r.val = .pre ∨ rk r.val = .gb ∨
    rk r.val = .mph ∧ has s.rl.imbal r.val = false ∧ rdBits (lv s) (blk r.val + 0x11) 0 4 ≠ 0) → Yields (.imbal r) s
    { s with rl := { s.rl with
      imbal := s.rl.imbal ||| bit r.val, imbNow := s.rl.imbNow ||| bit r.val } } [16 * r.val + 14]) ∧
  (∀ s (r : PhRail), exec (.addPhase r) s = .next { s with rl := { s.rl with shed := s.rl.shed &&& ~~~(bit r.val) } })

/-- The integrated blocks' own events (R111, R114, R117, R121, R126, R128, R131, R132). PVIN low stops both bucks of the channel, and its
return gives the enabled ones a new soft-start unless their hot-spot comparator holds them off. What a rail's input does while the rail is off is
remembered, and an enable waits for it (the model's choice, log entry 13). MINTON, DROPOUT and REVBLK raise bit 15 of
their rail as they begin, and their bits end with them. HOTSPOT raises THLIM and turns an enabled buck off without quench, and holds it off
with the reaction NONE or OFF; its release starts a buck enabled meanwhile whose PVIN is there. VLOW stops a driver, which loses power-good only
without sense, and its return starts it anew. The end of a quench takes the rail down, with STOPTMO on a timeout.
Where the spec leaves a corner open, the clauses follow log entry 13, the model's choice. -/
def Obligations.BlockEvents : Prop :=
  (∀ s (c : Chan), Ends (.pvinLow c) s (fun t => t.bk = { s.bk with pvlow := setBit s.bk.pvlow c.val true } ∧ t.rl.en = s.rl.en ∧ t.rl.pg = s.rl.pg ∧
    has t.rl.ss (5 + c.val) = false ∧ has t.rl.ss (9 + c.val) = false ∧ Only [.bk, .rl, .clk] s t)) ∧
  (∀ s (c : Chan), s.bk.pvlow.getLsbD c.val = true → Ends (.pvinRestore c) s (fun t => t.bk = { s.bk with pvlow := setBit s.bk.pvlow c.val false } ∧
    (has s.rl.en (5 + c.val) = true → s.bk.hot.getLsbD c.val = false → has t.rl.ss (5 + c.val) = true) ∧
    (has s.rl.en (9 + c.val) = true → s.bk.hot.getLsbD (4 + c.val) = false → has t.rl.ss (9 + c.val) = true) ∧
    t.rl.en = s.rl.en ∧ Only [.bk, .rl, .clk] s t)) ∧
  (∀ s (r : Rail), anvilOn s = true → has s.rl.en r.val = true → (rk r.val = .bka ∨ rk r.val = .bkb) → s.bk.skip.getLsbD (bkIdx r.val) = false →
    Yields (.minton ⟨r, true⟩) s { s with bk := { s.bk with skip := setBit s.bk.skip (bkIdx r.val) true } } [16 * r.val + 15]) ∧
  (∀ s (r : Rail), anvilOn s = true → has s.rl.en r.val = true → (rk r.val = .bka ∨ rk r.val = .bkb) → s.bk.skip.getLsbD (bkIdx r.val) = true →
    exec (.minton ⟨r, true⟩) s = .next s) ∧
  (∀ s (r : Rail), anvilOn s = true → has s.rl.en r.val = true → (rk r.val = .bka ∨ rk r.val = .bkb) → exec (.minton ⟨r, false⟩) s =
    .next { s with bk := { s.bk with skip := setBit s.bk.skip (bkIdx r.val) false } }) ∧
  (∀ s (r : Rail), Running s → (rk r.val = .bka ∨ rk r.val = .bkb) → s.bk.hot.getLsbD (bkIdx r.val) = false → has s.rl.en r.val = true →
    (rxCode (lv s) r.val 5 = 0 ∨ rxCode (lv s) r.val 5 = 2) → heldRail s r.val = false → has s.seq.retryWait r.val = false → Ends (.hotspot r) s (fun t =>
      has t.rl.en r.val = false ∧ has t.rl.qu r.val = false ∧ t.bk.hot = setBit s.bk.hot (bkIdx r.val) true ∧
      has t.seq.offhold r.val = true ∧ isPend t (16 * r.val + 10) = true)) ∧
  (∀ s (r : Rail), anvilOn s = true → (rk r.val = .bka ∨ rk r.val = .bkb) → s.bk.hot.getLsbD (bkIdx r.val) = false → has s.rl.en r.val = false →
    rxCode (lv s) r.val 5 = 0 → Yields (.hotspot r) s { s with bk := { s.bk with hot := setBit s.bk.hot (bkIdx r.val) true } } [16 * r.val + 10]) ∧
  (∀ s (r : Rail), (rk r.val = .bka ∨ rk r.val = .bkb) → s.bk.hot.getLsbD (bkIdx r.val) = true → has s.rl.en r.val = false →
    exec (.hotspotRelease r) s = .next { s with bk := { s.bk with hot := setBit s.bk.hot (bkIdx r.val) false } }) ∧
  (∀ s (r : Rail), (rk r.val = .bka ∨ rk r.val = .bkb) → s.bk.hot.getLsbD (bkIdx r.val) = true → has s.rl.en r.val = true →
    s.bk.pvlow.getLsbD (ci r.val) = false → Ends (.hotspotRelease r) s (fun t => t.bk = { s.bk with hot := setBit s.bk.hot (bkIdx r.val) false } ∧
      has t.rl.ss r.val = true ∧ t.rl.en = s.rl.en ∧ Only [.bk, .rl, .clk] s t)) ∧
  (∀ s (c : Chan), anvilOn s = true → has s.rl.en (13 + c.val) = true → (ldoOf s c.val).drop = false → Yields (.dropout ⟨c, true⟩) s
    (setLdo c.val { (ldoOf s c.val) with drop := true } s) [16 * (13 + c.val) + 15]) ∧
  (∀ s (c : Chan), anvilOn s = true → has s.rl.en (13 + c.val) = true → exec (.dropout ⟨c, false⟩) s =
    .next (setLdo c.val { (ldoOf s c.val) with drop := false } s)) ∧
  (∀ s (c : Chan), anvilOn s = true → has s.rl.en (17 + c.val) = true → s.bk.revblk.getLsbD c.val = false → (lv s (blk (17 + c.val))).getLsbD 3 = true →
    Yields (.revblk c) s { s with bk := { s.bk with revblk := setBit s.bk.revblk c.val true } } [16 * (17 + c.val) + 15]) ∧
  (∀ s (c : Chan), exec (.revblkRelease c) s = .next { s with bk := { s.bk with revblk := setBit s.bk.revblk c.val false } }) ∧
  (∀ s (c : Chan), anvilOn s = true → has s.rl.en (21 + c.val) = true → s.bk.vlow.getLsbD c.val = false → Ends (.vlow c) s (fun t =>
    t.bk.vlow = setBit s.bk.vlow c.val true ∧ isPend t (16 * (21 + c.val) + 15) = true ∧ has t.rl.pg (21 + c.val) = (has s.rl.pg (21 + c.val) && snsen (lv s) c.val) ∧
    t.rl.en = s.rl.en ∧ Only ([.bk, .rl] ++ raiseParts) s t)) ∧
  (∀ s (c : Chan), s.bk.vlow.getLsbD c.val = true → Ends (.vlowRestart c) s (fun t => t.bk = { s.bk with vlow := setBit s.bk.vlow c.val false } ∧
    (has s.rl.en (21 + c.val) = true → has t.rl.ss (21 + c.val) = true) ∧ Only [.bk, .rl, .clk] s t)) ∧
  (∀ s (r : Rail) b, Running s → has s.rl.qu r.val = true → Ends (.quenchEnd r b) s (fun t => has t.rl.up r.val = false ∧ has t.rl.qu r.val = false ∧
    t.rl.en = s.rl.en ∧ isPend t (16 * r.val + 6) = (isPend s (16 * r.val + 6) || b) ∧ Only ([.rl, .pending] ++ raiseParts) s t))

/-- Rails on and off in sequence (R141, R142, R147, R148, R149, R164, R467). A rail whose on-delay is over is enabled, with its start timeout, once every parent is
power-good, and otherwise waits; one whose off-delay is over goes off once every dependant is down, with quench in SAFE or by its attribute;
down and STOPTMO count it down; the last one ends a STOP's reverse sequence and starts MINOFF, with SEQSTAT.PHASE idle after a
SEQ_STOP. An EXT rail without MON inputs is power-good after EXTPGDLY.
Where the spec leaves a corner open, the clauses follow log entry 20, the model's choice. -/
def Obligations.SequencedRails : Prop :=
  (∀ s (r : Rail), anvilOn s = true → has s.seq.wait r.val = true → has s.rl.en r.val = false → heldRail s r.val = false → s.glob.boot = false →
    (s.glob.st = .start ∨ s.glob.st = .run ∨ s.glob.st = .standby) → parents (lv s) r.val &&& s.rl.pg = parents (lv s) r.val →
    Ends (.railEnable r) s (fun t => has t.rl.en r.val = true ∧ has t.rl.up r.val = true ∧ has t.rl.pg r.val = false ∧ has t.seq.wait r.val = false ∧
      Armed (sttmo (lv s) r.val) (.starttmo r) s t ∧ (∀ x : Rail, x ≠ r → has t.rl.en x.val = has s.rl.en x.val ∧ has t.rl.pg x.val = has s.rl.pg x.val) ∧
      Only [.rl, .inp, .bk, .seq, .clk] s t)) ∧
  (∀ s (r : Rail), has s.seq.wait r.val = true → parents (lv s) r.val &&& s.rl.pg ≠ parents (lv s) r.val → exec (.railEnable r) s =
    .next { (disarm (.railEnable r) s) with seq := { s.seq with dly := s.seq.dly ||| bit r.val } }) ∧
  (∀ s (r : Rail), has s.seq.offWait r.val = true → has s.rl.en r.val = true → dependants (lv s) r.val &&& s.rl.up = 0 → ∃ u,
    exec (.railOffDelay r) s = .next (settle u) ∧ has u.rl.en r.val = false ∧ has u.rl.pg r.val = false ∧
    (¬(rk r.val = .gb ∧ snsen (lv s) (ci r.val) = false) → has u.rl.qu r.val = (decide (s.glob.st = .safe) || quenchAttr (lv s) r.val)) ∧
    (∀ x : Rail, x ≠ r → has u.rl.en x.val = has s.rl.en x.val) ∧ Only ([.rl, .inp, .bk, .chg, .free, .qt, .safe] ++ raiseParts) s u) ∧
  (∀ s (r : Rail), has s.seq.offWait r.val = true → dependants (lv s) r.val &&& s.rl.up ≠ 0 → exec (.railOffDelay r) s =
    .next { (disarm (.railOffDelay r) s) with seq := { s.seq with offDly := s.seq.offDly ||| bit r.val } }) ∧
  (∀ s (r : Rail), Running s → has s.rl.up r.val = true → has s.rl.en r.val = false → Ends (.railDown r) s (fun t => has t.rl.up r.val = false ∧
    t.rl.en = s.rl.en ∧ t.rl.pg = s.rl.pg ∧ Only [.rl, .seq, .pending, .clk] s t)) ∧
  (∀ s (r : Rail), Running s → has s.rl.up r.val = true → has s.rl.en r.val = false → Ends (.stoptmo r) s (fun t => has t.rl.up r.val = false ∧
    t.rl.en = s.rl.en ∧ isPend t (16 * r.val + 6) = true ∧ Only ([.rl, .pending] ++ raiseParts) s t)) ∧
  (∀ s (r : Rail), anvilOn s = true → s.glob.st = .stop → s.seq.phase = 4 → s.glob.pendRst = none → s.pwr.req = none → s.rl.up = bit r.val →
    has s.rl.en r.val = false → Ends (.railDown r) s (fun t => t.rl.up = 0 ∧
    t.seq.phase = (if s.pwr.held then 0 else 5) ∧ t.glob.st = .stop ∧ Armed (minoff (lv s)) .minoffEnd s t)) ∧
  (∀ s (n : Fin 7), Running s → has s.rl.en (25 + n.val) = true → has s.rl.pg (25 + n.val) = false → (monsOf (lv s) n.val).isEmpty = true →
    Ends (.extpgdly n) s (fun t => has t.rl.pg (25 + n.val) = true ∧ t.rl.en = s.rl.en ∧
      Only [.rl, .seq, .ds, .pending, .clk, .irq, .pwr, .bus, .fl, .chg, .free] s t))

/-- Starts, retries and reset outputs (R151, R156, R157, R163, R212, R326, R327). After a STOP and MINOFF the common start follows where the start
conditions hold, with holds and retry counts cleared and every reset output asserted: START while a rail of the sequence is not
power-good, and RUN at once where every one is. Where they do not hold, idle STANDBY follows. The end of the retry spacing lets the rail
start again; 10 s of power-good clear its count; an output whose stretch is over is released, and with nRSTSYS in START or
RUN the host watchdog's window opens where it is enabled.

The clear bits of the sequencer's pages (R108, R169, R170): the strike count of a channel, the event counters of the selected rail or of
every rail, and the MON inputs' flags become 0, and no other count.
Where the spec leaves a corner open, the clauses follow log entry 17, the model's choice. -/
def Obligations.StartsRetriesAndClears : Prop :=
  (∀ s, anvilOn s = true → s.glob.boot = false → s.glob.st = .stop → s.seq.phase = 5 → s.pwr.req = none → startOk s = true → s.glob.floor = false → s.ds.recheck = false →
    maskOf (inseq (lv s)) &&& s.rl.pg ≠ maskOf (inseq (lv s)) → Ends .minoffEnd s (fun t => t.glob.st = .start ∧ t.seq.phase = 1 ∧ t.seq.offhold = 0 ∧ t.seq.retries = [] ∧ t.seq.rst = 0x1F ∧ t.rl = s.rl ∧
    t.seq.wait = maskOf (fun r => inseq (lv s) r && !has s.rl.en r) ∧
    Only ([.glob, .chg, .free, .pending] ++ raiseParts) s t)) ∧
  (∀ s, anvilOn s = true → s.glob.boot = false → s.glob.st = .stop → s.seq.phase = 5 → s.pwr.req = none → startOk s = true → s.glob.floor = false → s.ds.recheck = false →
    maskOf (inseq (lv s)) &&& s.rl.pg = maskOf (inseq (lv s)) → Ends .minoffEnd s (fun t => t.glob.st = .run ∧ t.seq.phase = 2 ∧
      t.seq.ended = true ∧ t.rl = s.rl)) ∧
  (∀ s, anvilOn s = true → s.glob.boot = false → s.glob.st = .stop → s.seq.phase = 5 → s.pwr.req = none → startOk s = false → s.glob.floor = false → Ends .minoffEnd s (fun t =>
    t.glob.st = .standby ∧ t.pwr.idle = true ∧ t.seq.phase = 0 ∧ t.rl = s.rl ∧ Only ([.glob] ++ raiseParts) s t)) ∧
  (∀ s (r : Rail), has s.seq.retryWait r.val = true → heldRail s r.val = false → has s.rl.en r.val = false → r.val < 32 → Ends (.retrySpaceEnd r) s (fun t =>
    has t.seq.retryWait r.val = false ∧ has t.seq.wait r.val = true ∧ armed (.railEnable r) t = true ∧ t.seq.offhold = s.seq.offhold ∧
    Only [.seq, .clk] s t)) ∧
  (∀ s (r : Rail), has s.rl.pg r.val = true → exec (.retryCountClear r) s =
    .next { (disarm (.retryCountClear r) s) with seq := { s.seq with retries := mput 0 s.seq.retries r.val 0 } }) ∧
  (∀ s (x : Fin 5), s.seq.rst.getLsbD x.val = true → s.seq.rstRun.getLsbD x.val = true → Ends (.resetRelease x) s (fun t =>
    t.seq = { s.seq with rst := setBit s.seq.rst x.val false, rstRun := setBit s.seq.rstRun x.val false } ∧
    (x.val = 4 → (s.glob.st = .start ∨ s.glob.st = .run) → (pl s (key 0x24 3)).getLsbD 0 = true → t.safe.wdState = 1 ∧ armed .wdlate t = true) ∧ Only [.seq, .safe, .clk] s t)) ∧
  (∀ s (c : Chan), Served s → Ends (.strkclr c) s (fun t => t.bk = { s.bk with strkn := mput 0 s.bk.strkn c.val 0 } ∧ Only [.bk, .glob, .bus, .clk] s t)) ∧
  (∀ s, Served s → Ends .cntctlClr s (fun t => (∀ i, i < 16 → mget 0 t.seq.cnt (16 * cntsel s + i) = 0) ∧
    (∀ k, k / 16 ≠ cntsel s → mget 0 t.seq.cnt k = mget 0 s.seq.cnt k) ∧ t.seq.retries = s.seq.retries ∧ Only [.seq, .glob, .bus, .clk] s t)) ∧
  (∀ s, Served s → Ends .cntctlClrall s (fun t => t.seq = { s.seq with cnt := [] } ∧ Only [.seq, .glob, .bus, .clk] s t)) ∧
  (∀ s, Served s → Ends .monctlClr s (fun t => t.seq = { s.seq with monuvl := 0, monovl := 0 } ∧ Only [.seq, .glob, .bus, .clk] s t))

/-! Transactions (07_transactions.md). -/

/-- Acceptance (R180 to R182, R196, R199). TXN_COMMIT and TXN_VALIDATE are refused with 0x01 in a state that takes no commit, with 0x02 while one is in the
way, with 0x03 for bad parameters, each with REJECTED (for TXN_VALIDATE the model's choice, log entry 21), and use up no number: any commit in flight is in the way of TXN_COMMIT, one under validation in that of
TXN_VALIDATE. An accepted commit takes the next number, shows it in CRES and begins to validate; TXN_VALIDATE, also beside
a pending commit, keeps what to validate and takes no number.
Where the spec leaves a corner open, the clauses follow log entries 21 and 35, the model's choice. -/
def Obligations.CommitAcceptance : Prop :=
  (∀ s p, Takes false p s → commitState p.params s = true → s.txn.cur = none → paramFault p.params = none → Ends (.txnCommit p) s (fun t =>
    t.txn.cur = some (commitOf s (s.txn.seq + 1) p.params) ∧ t.txn.seq = s.txn.seq + 1 ∧ t.txn.res = 1 ∧ t.txn.rsn = 0 ∧
    SlotShows 2 0 [s.txn.seq + 1] p t ∧ Only [.bus, .txn, .clk, .pending] s t)) ∧
  (∀ s p c, ((c = .txnCommit p) ∨ (c = .txnValidate p)) → Takes false p s → commitState p.params s = false → s.txn.cur = none → Ends c s (fun t =>
    SlotShows 5 1 (txnRes 0 0x10 1 0 0 0xFF 0 0) p t ∧ t.txn = s.txn ∧ isPend t (16 * 61 + 2) = true ∧ Only raiseParts s t)) ∧
  (∀ s p d, Takes false p s → commitState p.params s = true → s.txn.cur = some d → Ends (.txnCommit p) s (fun t =>
    SlotShows 5 2 (txnRes 0 0x10 2 0 0 0xFF 0 0) p t ∧ t.txn = { s.txn with cur := some { d with slot := false } } ∧ isPend t (16 * 61 + 2) = true ∧
    Only ([.txn] ++ raiseParts) s t)) ∧
  (∀ s p d, Takes false p s → commitState p.params s = true → s.txn.cur = some d → d.pending = false → Ends (.txnValidate p) s (fun t =>
    SlotShows 5 2 (txnRes 0 0x10 2 0 0 0xFF 0 0) p t ∧ t.txn = { s.txn with cur := some { d with slot := false } } ∧ isPend t (16 * 61 + 2) = true ∧
    Only ([.txn] ++ raiseParts) s t)) ∧
  (∀ s p c o, ((c = .txnCommit p) ∨ (c = .txnValidate p)) → Takes false p s → commitState p.params s = true → s.txn.cur = none → paramFault p.params = some o →
    Ends c s (fun t => SlotShows 5 3 (txnRes 0 0x10 3 0xE0 (BitVec.ofNat 8 o) 0xFF 0 0) p t ∧ t.txn = s.txn ∧ isPend t (16 * 61 + 2) = true ∧
      Only raiseParts s t)) ∧
  (∀ s p, Takes false p s → commitState p.params s = true → s.txn.cur = none → paramFault p.params = none → Ends (.txnValidate p) s (fun t =>
    t.txn = { s.txn with val := some (commitOf s 0 p.params) } ∧ SlotShows 2 0 [0] p t ∧ Only [.bus, .txn] s t)) ∧
  (∀ s p d, Takes false p s → commitState p.params s = true → s.txn.cur = some d → d.pending = true → paramFault p.params = none → Ends (.txnValidate p) s (fun t =>
    t.txn = { s.txn with val := some (commitOf s 0 p.params), cur := some { d with slot := false } } ∧ SlotShows 2 0 [0] p t ∧ Only [.bus, .txn] s t))

/-- The end of a validation (R183, R184, R186, R195, R196, R199, R202). The first rule that fails rejects the commit with its reason, page, offset
and rail, and REJECTED; one that passes is pending, and an immediate one without REQLOCK meets its apply moment at once; an abort that came meanwhile
ends it; a validation alone reports in CRES, with REJECTED where it fails (the model's choice). Where the deadline of a commit with REQLOCK passes, a pending one is rejected with NOLOCK, and
one under validation when that ends.
Where the spec leaves a corner open, the clauses follow log entry 21, the model's choice. -/
def Obligations.CommitValidation : Prop :=
  (∀ s d f, fwOn s = true → s.txn.cur = some d → d.pending = false → d.abort = false → validate d s = some f → Ends .validationEnd s (fun t =>
    t.txn.cur = none ∧ t.txn.res = 4 ∧ t.txn.rsn = BitVec.ofNat 8 f.rsn ∧ t.txn.epg = BitVec.ofNat 8 f.pg ∧ t.txn.eofs = BitVec.ofNat 8 f.ofs ∧
    t.txn.erail = BitVec.ofNat 8 f.rail ∧ t.txn.appl = s.txn.appl ∧ (d.slot = true → t.bus.cstat = 5 ∧ t.bus.err = BitVec.ofNat 8 f.rsn) ∧
    isPend t (16 * 61 + 2) = true ∧ Only ([.txn] ++ raiseParts) s t)) ∧
  (∀ s d, fwOn s = true → s.txn.cur = some d → d.pending = false → d.abort = false → validate d s = none → d.late = false → d.when = 0 → d.reqlock = false →
    Ends .validationEnd s (fun t => t.txn = { s.txn with cur := some { d with pending := true }, res := 2 } ∧ Instr.commitApply ∈ t.pending ∧
      Only [.txn, .pending] s t)) ∧
  (∀ s d, fwOn s = true → s.txn.cur = some d → d.pending = false → d.abort = false → validate d s = none → d.late = false → (d.when = 1 ∨ d.when = 2) →
    exec .validationEnd s = .next { s with txn := { s.txn with cur := some { d with pending := true }, res := 2 } }) ∧
  (∀ s d, fwOn s = true → s.txn.cur = some d → d.pending = false → d.abort = false → validate d s = none → d.late = true → Ends .validationEnd s (fun t =>
    t.txn.cur = none ∧ t.txn.res = 4 ∧ t.txn.rsn = 0x11 ∧ t.txn.appl = s.txn.appl ∧ Only ([.txn] ++ raiseParts) s t)) ∧
  (∀ s d, fwOn s = true → s.txn.cur = some d → d.pending = false → d.abort = true → Ends .validationEnd s (fun t => t.txn.cur = none ∧ t.txn.res = 6 ∧
    t.txn.rsn = 0x13 ∧ isPend t (16 * 61 + 5) = true ∧ Only ([.txn] ++ raiseParts) s t)) ∧
  (∀ s d, fwOn s = true → s.txn.cur = none → s.txn.val = some d → validate d s = none → Ends .validationEnd s (fun t => t.txn = { s.txn with val := none } ∧
    t.bus = { s.bus with cstat := 3, err := 0, cres := txnRes 0 2 0 0 0 0xFF 0 0 } ∧ Only [.txn, .bus] s t)) ∧
  (∀ s d f, fwOn s = true → s.txn.cur = none → s.txn.val = some d → validate d s = some f → Ends .validationEnd s (fun t => t.txn = { s.txn with val := none } ∧
    t.bus.cstat = 5 ∧ t.bus.err = BitVec.ofNat 8 f.rsn ∧ t.bus.tag = s.bus.tag ∧
    t.bus.cres = txnRes 0 0x10 (BitVec.ofNat 8 f.rsn) (BitVec.ofNat 8 f.pg) (BitVec.ofNat 8 f.ofs) (BitVec.ofNat 8 f.rail) 0 0 ∧
    isPend t (16 * 61 + 2) = true ∧ Only ([.txn] ++ raiseParts) s t)) ∧
  (∀ s d, anvilOn s = true → s.txn.cur = some d → d.pending = true → d.reqlock = true → d.when = 1 → d.dlms ≠ 0 → Ends .commitDeadline s (fun t =>
    t.txn.cur = none ∧ t.txn.res = 4 ∧ t.txn.rsn = 0x11 ∧ isPend t (16 * 61 + 3) = true ∧ Only ([.txn] ++ raiseParts) s t)) ∧
  (∀ s d, s.txn.cur = some d → d.pending = false → d.reqlock = true → d.when = 0 → d.dlms ≠ 0 → Ends .commitDeadline s (fun t =>
    t.txn = { s.txn with cur := some { d with late := true } } ∧ Only [.txn, .clk] s t))

/-- The apply moment (R183 to R185, R188, R190, R199, R201), shown in RUN. Where its check still passes, the commit applies: the live copy takes staging on
the pages in scope, whichever they are, staging stays, APPLSEQ, APPLYCYC and APPLYANG note it, and COMMIT is raised; where it fails, the commit is rejected and nothing is
applied. A rail of RAILOFF and its dependants are off, a rail of RAILON waits for its delay, and no other rail is switched.
A commit at a commit point waits for its DEADLINE, and a commit point before it changes nothing; nor does a moment outside a commit's angle.
Under REQLOCK a commit applies only with the PLL locked and before its deadline; otherwise it waits where a deadline lies ahead, and is rejected with
NOLOCK where none does. An apply with the PLL not locked notes it.
Where the spec leaves a corner open, the clauses follow log entry 21, the model's choice. -/
def Obligations.CommitApplies : Prop :=
  (∀ s d, Running s → s.txn.cur = some d → d.pending = true → d.reqlock = false → d.when = 1 → angleNow s = d.angle.toNat → d.on = 0 → d.off = 0 → d.scope = 0x0200 → applyCheck d s = none →
    Ends .commitApply s (fun t => t.regs = (copyLive d.scope s).regs ∧ t.txn.cur = none ∧ t.txn.res = 3 ∧ t.txn.appl = d.seq ∧ t.txn.applycyc = s.cyc.cnt ∧
      t.txn.applyang = BitVec.ofNat 8 (angleNow s) ∧ isPend t (16 * 61) = true ∧ t.rl.en = s.rl.en)) ∧
  (∀ s d f, anvilOn s = true → s.txn.cur = some d → d.pending = true → d.reqlock = false → d.when = 1 → angleNow s = d.angle.toNat → applyCheck d s = some f → Ends .commitApply s (fun t =>
    t.txn.cur = none ∧ t.txn.res = 4 ∧ t.txn.rsn = BitVec.ofNat 8 f.rsn ∧ t.txn.applychk = true ∧ t.txn.appl = s.txn.appl ∧ Only ([.txn] ++ raiseParts) s t)) ∧
  (∀ s d, Running s → s.txn.cur = some d → d.pending = true → d.reqlock = false → d.when = 2 → d.due ≤ s.clk.now → d.on = 0 → d.off = 0 → d.scope = 0x0200 →
    applyCheck d s = none → Ends .commit s (fun t => t.regs = (copyLive d.scope s).regs ∧ t.txn.cur = none ∧ t.txn.res = 3 ∧ t.txn.appl = d.seq ∧
      isPend t (16 * 61) = true)) ∧
  (∀ s d, s.txn.cur = some d → d.when = 2 → s.clk.now < d.due → exec .commit s = .next s) ∧
  (∀ s w k, lv (copyLive w s) k = if inScope w k = true then sg s k else lv s k) ∧
  (∀ s d, Running s → s.txn.cur = some d → d.pending = true → momentHere s = true → d.on = 0 → d.off = 0 → applyCheck d s = none →
    (d.reqlock = false ∨ pllLocked s = true ∧ (d.dlms = 0 ∨ s.clk.now < d.due)) → Ends .commitApply s (fun t =>
      t.regs.live = (copyLive d.scope s).regs.live ∧ t.regs.stg = s.regs.stg ∧ t.txn.cur = none ∧ t.txn.res = 3 ∧ t.txn.appl = d.seq ∧
      t.txn.applycyc = s.cyc.cnt ∧ t.txn.applyang = BitVec.ofNat 8 (angleNow s) ∧ t.txn.unlocked = !pllLocked s ∧ isPend t (16 * 61) = true ∧
      (pllLocked s = false → isPend t (16 * 61 + 1) = true) ∧ t.rl.en = s.rl.en ∧
      (d.slot = true → t.bus.cstat = 3 ∧ t.bus.err = 0))) ∧
  (∀ s d, Running s → s.txn.cur = some d → d.pending = true → d.when = 2 → d.due ≤ s.clk.now → d.on = 0 → d.off = 0 → applyCheck d s = none →
    (d.reqlock = false ∨ pllLocked s = true) → Ends .commit s (fun t =>
      t.regs.live = (copyLive d.scope s).regs.live ∧ t.regs.stg = s.regs.stg ∧ t.txn.cur = none ∧ t.txn.res = 3 ∧ t.txn.appl = d.seq ∧
      t.txn.applycyc = s.cyc.cnt ∧ isPend t (16 * 61) = true ∧ t.rl.en = s.rl.en)) ∧
  (∀ s d, anvilOn s = true → s.txn.cur = some d → d.pending = true → d.reqlock = true → momentHere s = true →
    (pllLocked s = false ∧ d.dlms = 0 ∨ d.dlms ≠ 0 ∧ d.due ≤ s.clk.now) → Ends .commitApply s (fun t => t.txn.cur = none ∧ t.txn.res = 4 ∧
      t.txn.rsn = 0x11 ∧ t.txn.appl = s.txn.appl ∧ isPend t (16 * 61 + 3) = true ∧ Only ([.txn] ++ raiseParts) s t)) ∧
  (∀ s d, anvilOn s = true → s.txn.cur = some d → d.pending = true → d.reqlock = true → d.when = 2 → d.due ≤ s.clk.now → pllLocked s = false →
    Ends .commit s (fun t => t.txn.cur = none ∧ t.txn.res = 4 ∧ t.txn.rsn = 0x11 ∧ t.txn.appl = s.txn.appl ∧ Only ([.txn] ++ raiseParts) s t)) ∧
  (∀ s d, s.txn.cur = some d → d.reqlock = true → d.when ≠ 2 → pllLocked s = false → d.dlms ≠ 0 → s.clk.now < d.due →
    exec .commitApply s = .next s) ∧
  (∀ s d, Running s → s.txn.cur = some d → d.pending = true → momentHere s = true → applyCheck d s = none →
    (d.reqlock = false ∨ pllLocked s = true ∧ (d.dlms = 0 ∨ s.clk.now < d.due)) → Ends .commitApply s (fun t =>
      t.regs.live = (copyLive d.scope s).regs.live ∧ t.regs.stg = s.regs.stg ∧ t.txn.cur = none ∧ t.txn.res = 3 ∧ t.txn.appl = d.seq ∧
      isPend t (16 * 61) = true ∧
      (∀ r : Rail, has (d.off ||| depsOf (lv (copyLive d.scope s)) d.off) r.val = true → has t.rl.en r.val = false ∧ has t.rl.pg r.val = false) ∧
      (∀ r : Rail, has (d.off ||| depsOf (lv (copyLive d.scope s)) d.off) r.val = false → has t.rl.en r.val = has s.rl.en r.val) ∧
      (∀ r : Rail, has d.on r.val = true → has t.seq.wait r.val = true ∧ armed (.railEnable r) t = true))) ∧
  (∀ s d, s.txn.cur = some d → d.when = 1 → angleNow s ≠ d.angle.toNat → exec .commitApply s = .next s)

/-- Aborts and reverts (R189, R195). TXN_ABORT with no commit in flight is rejected with 0x15 and REJECTED; a pending commit is aborted at once, one that validates when its
validation ends. TXN_REVERT writes live over staging on the pages it names, also beside a pending commit whose pages it does not name; during a validation, and for a
page of a commit's scope, it is rejected with 0x02 and REJECTED (for TXN_REVERT the model's choice, log entry 21).
Where the spec leaves a corner open, the clauses follow log entry 21, the model's choice. -/
def Obligations.AbortAndRevert : Prop :=
  (∀ s p, Takes false p s → p.params = [] → s.txn.cur = none → Ends (.txnAbort p) s (fun t => SlotShows 5 0x15 (txnRes s.txn.seq 0x10 0x15 0 0 0xFF 0 0) p t ∧
    t.txn = s.txn ∧ isPend t (16 * 61 + 2) = true ∧ Only raiseParts s t)) ∧
  (∀ s p d, Takes false p s → p.params = [] → s.txn.cur = some d → d.pending = true → Ends (.txnAbort p) s (fun t => t.bus.cstat = 3 ∧ t.bus.tag = p.tag ∧
    t.txn.cur = none ∧ t.txn.res = 6 ∧ t.txn.rsn = 0x13 ∧ isPend t (16 * 61 + 5) = true ∧ t.regs = s.regs)) ∧
  (∀ s p d, Takes false p s → p.params = [] → s.txn.cur = some d → d.pending = false → Ends (.txnAbort p) s (fun t => t.bus.cstat = 2 ∧ t.bus.tag = p.tag ∧
    t.txn = { s.txn with cur := some { d with abort := true, slot := false } } ∧ Only [.bus, .txn] s t)) ∧
  (∀ s p a b, Takes false p s → p.params = [a, b] → s.txn.cur = none → BitVec.ofNat 16 (leNat [a, b]) ≠ 0 → scopeBad (BitVec.ofNat 16 (leNat [a, b])) = false →
    Ends (.txnRevert p) s (fun t => SlotShows 3 0 [] p t ∧ t.regs = (revertPages (BitVec.ofNat 16 (leNat [a, b])) s).regs ∧ Only [.bus, .txn, .regs] s t)) ∧
  (∀ s p, Takes false p s → validating s = true → Ends (.txnRevert p) s (fun t => SlotShows 5 2 [] p t ∧ t.regs = s.regs ∧
    isPend t (16 * 61 + 2) = true)) ∧
  (∀ s w k, sg (revertPages w s) k = if inScope w k = true then lv s k else sg s k) ∧
  (∀ s p a b d, Takes false p s → p.params = [a, b] → s.txn.cur = some d → d.pending = true → BitVec.ofNat 16 (leNat [a, b]) ≠ 0 →
    scopeBad (BitVec.ofNat 16 (leNat [a, b])) = false → BitVec.ofNat 16 (leNat [a, b]) &&& d.scope = 0 → Ends (.txnRevert p) s (fun t =>
      SlotShows 3 0 [] p t ∧ t.regs = (revertPages (BitVec.ofNat 16 (leNat [a, b])) s).regs ∧ Only [.bus, .txn, .regs] s t)) ∧
  (∀ s p a b d, Takes false p s → p.params = [a, b] → s.txn.cur = some d → d.pending = true → BitVec.ofNat 16 (leNat [a, b]) ≠ 0 →
    scopeBad (BitVec.ofNat 16 (leNat [a, b])) = false → BitVec.ofNat 16 (leNat [a, b]) &&& d.scope ≠ 0 → Ends (.txnRevert p) s (fun t =>
      SlotShows 5 2 [] p t ∧ t.regs = s.regs ∧ isPend t (16 * 61 + 2) = true))

/-! Safety mechanisms (08_fault_tolerance.md). -/

/-- The SAFE inputs (R204 to R206, R208 to R211). A first request enters SAFE from RUN with every reset output asserted and the watchdog
stopped, or adds its bit in SAFE; with SAFECFG.EN 0 both are ignored; a disagreement starts DISC and its end stops it; an ordinary release
changes the levels alone, and with AUTOREL and SAFEIN alone acts as an accepted exit; DISC latches, enters SAFE from any other
state and in SAFE adds its cause and takes a begun exit back; a hold ends at its time. -/
def Obligations.SafeInputs : Prop :=
  (∀ s b, Running s → safeInEn s = true → s.safe.areq = false → Ends (.safeInput true b) s (fun t => t.glob.st = .safe ∧
    t.safe.cause.getLsbD 0 = true ∧ t.safe.first = 1 ∧ t.seq.rst = 0x1F ∧ t.safe.areq = true ∧ t.safe.breq = b ∧ t.safe.wdState = 0 ∧
    t.seq.wait = 0 ∧ t.seq.retryWait = 0 ∧ isPend t (16 * 59 + 2) = true ∧ isPend t (16 * 59) = true)) ∧
  (∀ s, anvilOn s = true → safeInEn s = true → s.glob.st = .safe → s.safe.areq = true → s.safe.breq = false →
    Yields (.safeInput true true) s (disarm .minoffEnd (disarm .disc { s with safe := { s.safe with breq := true, exit := false, waited := false, cause := setBit s.safe.cause 0 true } }))
      [16 * 59 + 3]) ∧
  (∀ s a b, anvilOn s = true → safeInEn s = false → exec (.safeInput a b) s =
    .next (disarm .disc { s with safe := { s.safe with areq := false, breq := false } })) ∧
  (∀ s, anvilOn s = true → safeInEn s = true → s.safe.areq = true → s.safe.breq = true → exec (.safeInput true false) s =
    .next (arm (disct s) .disc { s with safe := { s.safe with breq := false } })) ∧
  (∀ s, anvilOn s = true → safeInEn s = true → s.safe.areq = true → s.safe.breq = true → autorel s = false → exec (.safeInput false false) s =
    .next (disarm .disc { s with safe := { s.safe with areq := false, breq := false } })) ∧
  (∀ s, anvilOn s = true → safeInEn s = true → s.safe.areq = true → autorel s = true → s.glob.st = .safe → s.safe.cause = 1 →
    s.safe.disclatch = false → s.safe.wdLatch = false → exec (.safeInput false false) s =
      .next (acceptExit false false (disarm .disc { s with safe := { s.safe with areq := false, breq := false } }))) ∧
  (∀ s, Running s → safeInEn s = true → s.safe.areq = true → s.safe.breq = false → Ends .disc s (fun t => t.glob.st = .safe ∧
    t.safe.disclatch = true ∧ t.safe.cause.getLsbD 1 = true ∧ t.seq.rst = 0x1F ∧ isPend t (16 * 59 + 4) = true)) ∧
  (∀ s, anvilOn s = true → safeInEn s = true → s.safe.areq ≠ s.safe.breq → s.glob.st ≠ .safe → Ends .disc s (fun t => t.glob.st = .safe ∧
    t.safe.disclatch = true ∧ t.safe.cause.getLsbD 1 = true ∧ t.safe.first = 2 ∧ t.seq.rst = 0x1F ∧ isPend t (16 * 59 + 4) = true)) ∧
  (∀ s, anvilOn s = true → safeInEn s = true → s.safe.areq ≠ s.safe.breq → s.glob.st = .safe → Yields .disc s (disarm .minoffEnd (disarm .disc { s with
    safe := { s.safe with disclatch := true, cause := setBit s.safe.cause 1 true, exit := false, waited := false } })) [16 * 59 + 4]) ∧
  (∀ s, (safeInEn s = false ∨ s.safe.areq = s.safe.breq) → exec .disc s = .next (disarm .disc s)) ∧
  (∀ s (r : Rail), s.glob.st = .safe → has s.safe.held r.val = true → dependants (lv s) r.val &&& s.rl.up ≠ 0 → exec (.safeHoldEnd r) s =
    .next (disarm (.safeHoldEnd r) { s with
      safe := { s.safe with held := s.safe.held &&& ~~~(bit r.val) },
      seq := { s.seq with offWait := s.seq.offWait ||| bit r.val, offDly := s.seq.offDly ||| bit r.val } })) ∧
  (∀ s (r : Rail), s.glob.st = .safe → s.safe.exit = false → has s.safe.held r.val = true →
    has s.rl.en r.val = true → dependants (lv s) r.val &&& s.rl.up = 0 → Ends (.safeHoldEnd r) s (fun t =>
    has t.rl.en r.val = false ∧ has t.safe.held r.val = false ∧ t.glob.st = .safe))

/-- SAFE_CLEAR (R208): the codes in their order, each rejected with ERR and result equal to the code, and acceptance, which clears the
named latches and begins the exit.
Where the spec leaves a corner open, the clauses follow log entry 32, the model's choice. -/
def Obligations.SafeClearCodes : Prop :=
  (∀ s p v, Takes false p s → p.params = [v] → (s.glob.st ≠ .safe ∨ 4 ≤ v.toNat) → Ends (.safeClear p) s (fun t =>
    SlotShows 5 1 [1] p t ∧ Only [.bus, .txn] s t)) ∧
  (∀ s p v, Takes false p s → p.params = [v] → s.glob.st = .safe → v.toNat < 4 → s.safe.cause &&& 0x38 ≠ 0 → Ends (.safeClear p) s (fun t =>
    SlotShows 5 2 [2] p t ∧ Only [.bus, .txn] s t)) ∧
  (∀ s p v, Takes false p s → p.params = [v] → s.glob.st = .safe → v.toNat < 4 → s.safe.cause &&& 0x38 = 0 → s.safe.areq = true →
    Ends (.safeClear p) s (fun t => SlotShows 5 3 [3] p t ∧ Only [.bus, .txn] s t)) ∧
  (∀ s p v, Takes false p s → p.params = [v] → s.glob.st = .safe → v.toNat < 4 → s.safe.cause &&& 0x38 = 0 → s.safe.areq = false →
    s.safe.breq = false → s.safe.disclatch = true → v.getLsbD 0 = false → Ends (.safeClear p) s (fun t => SlotShows 5 4 [4] p t ∧ Only [.bus, .txn] s t)) ∧
  (∀ s p v, Takes false p s → p.params = [v] → s.glob.st = .safe → v.toNat < 4 → s.safe.cause &&& 0x38 = 0 → s.safe.areq = false →
    s.safe.breq = false → (s.safe.disclatch = false ∨ v.getLsbD 0 = true) → s.safe.wdLatch = true → v.getLsbD 1 = false → Ends (.safeClear p) s (fun t =>
      SlotShows 5 5 [5] p t ∧ Only [.bus, .txn] s t)) ∧
  (∀ s p v, Takes false p s → p.params = [v] → s.glob.st = .safe → v.toNat < 4 → s.safe.cause &&& 0x38 = 0 → s.safe.areq = false →
    s.safe.breq = false → (s.safe.disclatch = false ∨ v.getLsbD 0 = true) → (s.safe.wdLatch = false ∨ v.getLsbD 1 = true) → ∃ u, exec (.safeClear p) s =
      .next (doneWith [0] (settle u)) ∧ u.safe.exit = true ∧ u.safe.disclatch = false ∧ u.safe.wdLatch = false ∧ u.bus.tag = p.tag ∧ Only [.safe, .bus, .txn] s u)

/-- The host watchdog (R212, R213). A kick with the word expected in the first window, or in the open one, starts the next closed window and
expects the other word; a wrong word, an early kick, and the end of the open window latch ERR 3, 1 and 2 and enter SAFE. -/
def Obligations.HostWatchdog : Prop :=
  (∀ s, Served s → pecOn s = false → s.safe.wdState = 1 → exec (.wdKick (if s.safe.wdNext then 0xA55A else 0x5AA5) .none) s =
    .next (arm (ms (pl s (key 0x24 5)).toNat + ms (pl s (key 0x24 6)).toNat) .wdlate { s with
      bus := { s.bus with nack := false },
      safe := { s.safe with wdState := 2, wdNext := !s.safe.wdNext, wdOpen := s.clk.now + ms (pl s (key 0x24 5)).toNat } })) ∧
  (∀ s, Served s → pecOn s = false → s.safe.wdState = 2 → s.safe.wdOpen ≤ s.clk.now →
    Ends (.wdKick (if s.safe.wdNext then 0xA55A else 0x5AA5) .none) s (fun t => t.safe = { s.safe with wdState := 2, wdNext := !s.safe.wdNext, wdOpen := s.clk.now + ms (pl s (key 0x24 5)).toNat } ∧
      Only [.safe, .bus, .clk] s t)) ∧
  (∀ s w, Served s → pecOn s = false → s.safe.wdState = 0 → exec (.wdKick w .none) s = .next { s with bus := { s.bus with nack := false } }) ∧
  (∀ s w, Served s → pecOn s = false → Running s → s.safe.wdState ≠ 0 → w ≠ (if s.safe.wdNext then 0xA55A else 0x5AA5) → Ends (.wdKick w .none) s (fun t =>
    t.glob.st = .safe ∧ t.safe.wdLatch = true ∧ t.safe.wdErr = 3 ∧ t.safe.wdState = 0 ∧ t.safe.cause.getLsbD 2 = true ∧ isPend t (16 * 59 + 7) = true)) ∧
  (∀ s, Served s → pecOn s = false → Running s → s.safe.wdState = 2 → s.clk.now < s.safe.wdOpen →
    Ends (.wdKick (if s.safe.wdNext then 0xA55A else 0x5AA5) .none) s (fun t => t.glob.st = .safe ∧ t.safe.wdLatch = true ∧ t.safe.wdErr = 1 ∧ t.safe.wdState = 0 ∧ isPend t (16 * 59 + 5) = true)) ∧
  (∀ s, Running s → s.safe.wdState ≠ 0 → Ends .wdlate s (fun t => t.glob.st = .safe ∧ t.safe.wdLatch = true ∧ t.safe.wdErr = 2 ∧ t.safe.wdState = 0 ∧
    t.safe.cause.getLsbD 2 = true ∧ isPend t (16 * 59 + 6) = true))

/-- Firmware-island faults (R17, R203, R214 to R216, R446). A lockstep mismatch, a lockup and an uncorrectable RAM error restart the island and count, during a boot the
boot ROM, in whose program alone the cores then run (log entry 32); a
firmware-watchdog expiry restarts it without counting; every rail keeps its state. The third failure held enters SAFE in Floor mode with cause 4
and no restart. A corrected error only raises ECCSEC; a held failure expires. FWUP ends a restart whose
header check passes with Anvil's state as it was, and has the journal of a trial that fell back written; where the check fails it changes nothing.
Where the spec leaves a corner open, the clauses follow log entry 22, the model's choice. -/
def Obligations.IslandFaults : Prop :=
  (∀ s c b e, coresRun s = true → s.glob.boot = false → s.safe.ls < 2 → ((c = .lsfail ∧ b = 5 ∧ e = 928) ∨ (c = .lockup ∧ b = 6 ∧ e = 929) ∨ (c = .eccded ∧ b = 6 ∧ e = 929)) →
    Ends c s (fun t => t.glob.fwup = false ∧ t.glob.restarting = true ∧ t.glob.rstcause.getLsbD b = true ∧ t.safe.ls = s.safe.ls + 1 ∧
      Armed (sec 10) .lockstepExpire s t ∧ isPend t e = true ∧ t.rl = s.rl ∧ t.bk = s.bk ∧ t.glob.st = s.glob.st ∧ t.bus.cstat = 0 ∧ t.bus.level = 0)) ∧
  (∀ s, fwOn s = true → Ends .fwwdt s (fun t => t.glob.fwup = false ∧ t.glob.restarting = true ∧ t.glob.rstcause.getLsbD 7 = true ∧ t.safe.ls = s.safe.ls ∧
    isPend t 930 = true ∧ t.rl = s.rl ∧ t.glob.st = s.glob.st)) ∧
  (∀ s, coresRun s = true → Ends .eccded s (fun t => isPend t 932 = true)) ∧
  (∀ s, Running s → coresRun s = true → 2 ≤ s.safe.ls → Ends .lsfail s (fun t => t.glob.st = .safe ∧ t.glob.floor = true ∧ t.glob.floorcause = 4 ∧
    t.glob.restarting = false ∧ t.safe.cause.getLsbD 5 = true ∧ isPend t 928 = true ∧ isPend t (16 * 59 + 8) = true)) ∧
  (∀ s, coresRun s = true → Yields .eccsec s s [931]) ∧
  (∀ s, anvilOn s = true → s.glob.restarting = true → s.glob.floor = false → restartBoots s = true → s.upd.fell = false → Ends .fwup s (fun t =>
    t.glob = { s.glob with restarting := false, fwup := true, fwFails := 0 } ∧
    isPend t 933 = true ∧ Armed (sec 1) .logTimer s t ∧ t.rl = s.rl ∧ t.bk = s.bk ∧ t.cyc = s.cyc ∧ t.regs.live = s.regs.live ∧ t.regs.stg = s.regs.stg)) ∧
  (∀ s, anvilOn s = true → s.glob.restarting = true → s.glob.floor = false → restartBoots s = true → s.upd.fell = true → readOnly 206 s = false → Ends .fwup s (fun t => t.glob.fwup = true ∧
    t.upd.want = some .journal ∧ t.upd.jact = .fell ∧ isPend t 933 = true)) ∧
  (∀ s, s.glob.restarting = true → restartBoots s = false → exec .fwup s = .next s) ∧
  (∀ s, (s.clk.timers.filter (fun t => decide (t.ev = .lockstepExpire))).length < s.safe.ls → exec .lockstepExpire s =
    .next { s with safe := { s.safe with ls := s.safe.ls - 1 } }) ∧
  (∀ s c b e, coresRun s = true → s.glob.boot = true → s.safe.ls < 2 → ((c = .lsfail ∧ b = 5 ∧ e = 928) ∨ (c = .lockup ∧ b = 6 ∧ e = 929) ∨ (c = .eccded ∧ b = 6 ∧ e = 929)) →
    Ends c s (fun t => t.glob.boot = true ∧ t.glob.st = s.glob.st ∧ t.glob.rstcause.getLsbD b = true ∧ t.safe.ls = s.safe.ls + 1 ∧
      Armed (sec 10) .lockstepExpire s t ∧ isPend t e = true ∧ t.rl = s.rl ∧ t.bk = s.bk)) ∧
  (∀ s c, coresRun s = false → (c = .lsfail ∨ c = .lockup ∨ c = .eccded ∨ c = .eccsec) → exec c s = .next s)

/-- References and oscillators (R219 to R221). Two disagreeing pairs name the reference that failed and its consumers go to REF-C; a second loss
enters SAFE. An oscillator that fails hands over to the other; the second failure enters SAFE, and a stopped one leaves no clock. The slow check
records deviations and fails an oscillator beyond 40 counts of 0.05 %.
Where the spec leaves a corner open, the clauses follow log entry 32, the model's choice. -/
def Obligations.Touchstone : Prop :=
  (∀ s, anvilOn s = true → s.tst.refFail = 0 → Yields (.reffail true true false) s { s with tst := { s.tst with refFail := 1, cmpOnC := true } } [960]) ∧
  (∀ s, anvilOn s = true → s.tst.refFail = 0 → Yields (.reffail true false true) s { s with tst := { s.tst with refFail := 2, adcOnC := true } } [960]) ∧
  (∀ s, anvilOn s = true → s.tst.refFail = 0 → Yields (.reffail false true true) s { s with tst := { s.tst with refFail := 4 } } [960]) ∧
  (∀ s, Running s → s.tst.refFail = 1 → Ends (.reffail true true true) s (fun t => t.glob.st = .safe ∧ t.safe.cause.getLsbD 3 = true ∧
    (t.tst.refFail = 3 ∨ t.tst.refFail = 5) ∧ isPend t 961 = true)) ∧
  (∀ s, anvilOn s = true → s.tst.oscFail = 0 → s.tst.oscB = false → Yields (.oscfail .a true) s
    { s with tst := { s.tst with oscFail := 1, oscB := true } } [962]) ∧
  (∀ s, anvilOn s = true → s.tst.oscFail = 0 → s.tst.oscB = false → Yields (.oscfail .b true) s { s with tst := { s.tst with oscFail := 2 } } [962]) ∧
  (∀ s, Running s → s.tst.oscFail = 1 → Ends (.oscfail .b false) s (fun t => t.glob.st = .safe ∧ t.safe.cause.getLsbD 4 = true ∧
    t.tst.oscFail = 3 ∧ isPend t 962 = true ∧ isPend t 963 = true)) ∧
  (∀ s, anvilOn s = true → s.tst.oscFail = 1 → Ends (.oscfail .b true) s (fun t => t.glob.clocked = false ∧ t.rl.en = 0)) ∧
  (∀ s a b, anvilOn s = true → s.tst.xtal = true → a.natAbs ≤ 40 → b.natAbs ≤ 40 → exec (.oscSlowCheck a b) s =
    .next { s with tst := { s.tst with oscDevA := BitVec.ofInt 8 a, oscDevB := BitVec.ofInt 8 b } }) ∧
  (∀ s a b, anvilOn s = true → s.tst.xtal = true → s.tst.oscFail = 0 → s.tst.oscB = false → 40 < a.natAbs → b.natAbs ≤ 40 → Yields (.oscSlowCheck a b) s
    { s with tst := { s.tst with oscDevA := devByte a, oscDevB := BitVec.ofInt 8 b, oscFail := 1, oscB := true } } [962])

/-- Assay, wear and planned swaps (R48, R78, R102, R124, R222, R225 to R227, R230, R234). ASSAY_RUN starts the full test in RUN or SAFE; its end
publishes ASSAYFAIL, newly failed comparators and a sector for refresh, and answers the command. An hour retires a worn part with a fresh
spare; SPARE_SWAP pends one; where Patina runs, a swap of a reference acts at once, and one of a phase or a pass device overlaps for 2 periods or
20 µs first, in which the outgoing part stays active, and at whose end it is the spare; during a strike or a limit it waits; the reports answer
their bytes.
Where the spec leaves a corner open, the clauses follow log entry 32, the model's choice. -/
def Obligations.AssayAndPatina : Prop :=
  (∀ s p, Takes false p s → p.params = [] → (s.glob.st = .run ∨ s.glob.st = .safe) → Ends (.assayRun p) s (fun t => t.bus.cstat = 2 ∧ t.bus.tag = p.tag ∧
    t.bus.prog = 0 ∧ t.tst = { s.tst with full := 1 } ∧ Only [.bus, .txn, .tst] s t)) ∧
  (∀ s p, Takes false p s → p.params = [] → s.glob.st ≠ .run → s.glob.st ≠ .safe → Ends (.assayRun p) s (fun t => SlotShows 5 2 [] p t ∧ Only [.bus, .txn] s t)) ∧
  (∀ s (r : AssayRes), fwOn s = true → s.tst.full = 1 → r.cmpLost = 0 → r.fuses &&& s.otp.pend = 0 → Ends (.assaydone r) s (fun t => t.tst.fail = assayBits r ∧
    t.tst.full = (if assayBits r = 0 then 2 else 3) ∧ t.tst.cmpFail = s.tst.cmpFail ||| r.cmpFail ∧ t.hk.hkaInv = r.fail.getLsbD 0 ∧
    t.hk.hkbInv = r.fail.getLsbD 1 ∧ isPend t 964 = true ∧ t.rl = s.rl ∧
    (slotHas s 0x30 = true → t.bus.cstat = 3 ∧ t.bus.err = 0 ∧ t.bus.prog = 100 ∧
      t.bus.cres = BitVec.ofNat 8 (assayBits r).toNat :: leBytes 4 (s.tst.cmpFail ||| r.cmpFail).toNat))) ∧
  (∀ s i, fwOn s = true → i < 28 → roleOf s i = 0 → worn s i = true → hasFresh s i = true → s.pat.told.getLsbD i = false → Ends .operatingHour s (fun t =>
    t.pat.pend.contains i = true ∧ isPend t 970 = true ∧ Only ([.pat] ++ raiseParts) s t)) ∧
  (∀ s p b, Takes false p s → p.params = [b] → b.toNat < 28 → hasFresh s b.toNat = true → roleOf s b.toNat = 0 → Ends (.spareSwap p) s (fun t =>
    SlotShows 3 0 [] p t ∧ t.pat.pend = (if s.pat.pend.contains b.toNat then s.pat.pend else s.pat.pend ++ [b.toNat]) ∧ Only [.bus, .txn, .pat] s t)) ∧
  (∀ s p b, Takes false p s → p.params = [b] → (28 ≤ b.toNat ∨ hasFresh s b.toNat = false ∨ roleOf s b.toNat ≠ 0) → Ends (.spareSwap p) s (fun t =>
    SlotShows 5 1 [] p t ∧ Only [.bus, .txn] s t)) ∧
  (∀ s p, Takes false p s → p.params = [] → Ends (.patinaReport p) s (fun t => SlotShows 3 0 (spareSummary s) p t ∧ Only [.bus, .txn] s t)) ∧
  (∀ s l, fwRuns s = true → s.pat.pend = 23 :: l → (∀ x ∈ l, x ≠ 23) → roleOf s 23 = 0 → hasFresh s 23 = true → Yields .swap s { s with
    pat := { s.pat with pend := l }, tst := { s.tst with cmpOnC := true, retired := setBit s.tst.retired 0 (worn s 23) } } [971]) ∧
  (∀ s (c : Chan) l i, fwRuns s = true → s.pat.pend = i :: l → i = 15 + 2 * c.val + (ldoOf s c.val).pass1.toNat → has s.rl.overlap (13 + c.val) = false →
    has s.rl.clamp (13 + c.val) = false → (ldoOf s c.val).drop = false → roleOf s i = 0 → hasFresh s i = true → exec .swap s =
      .next (arm 40 (.swapOverlapEnd (.ldo c)) { s with rl := { s.rl with overlap := s.rl.overlap ||| bit (13 + c.val) } })) ∧
  (∀ s (c : Chan), anvilOn s = true → has s.rl.overlap (13 + c.val) = true → Ends (.swapOverlapEnd (.ldo c)) s (fun t => (ldoOf t c.val).pass1 = !(ldoOf s c.val).pass1 ∧
    (ldoOf t c.val).retired = worn s (15 + 2 * c.val + (ldoOf s c.val).pass1.toNat) ∧ has t.rl.overlap (13 + c.val) = false ∧ t.rl.en = s.rl.en ∧
    isPend t 971 = true)) ∧
  (∀ s p b v, Takes false p s → p.params = [b] → b.toNat ≤ 1 → snapRecord s (decide (b = 1)) = some v → Ends (.snapshotRead p) s (fun t =>
    SlotShows 3 0 v p t ∧ Only [.bus, .txn] s t)) ∧
  (∀ s p b, Takes false p s → p.params = [b] → b.toNat ≤ 1 → snapRecord s (decide (b = 1)) = none → Ends (.snapshotRead p) s (fun t =>
    SlotShows 5 1 [] p t ∧ Only [.bus, .txn] s t)) ∧
  (∀ s (r : PhRail) (p : Phase) l i, fwRuns s = true → i = phaseRes r.val p.val → s.pat.pend = i :: l → has s.rl.overlap r.val = false → swapBlocked s i = false →
    roleOf s i = 0 → hasFresh s i = true → Ends .swap s (fun t => has t.rl.overlap r.val = true ∧ (phOf t r.val).out = p.val ∧
      (phOf s r.val).spare.getLsbD (phOf t r.val).inc = true ∧ (phOf s r.val).fail.getLsbD (phOf t r.val).inc = false ∧
      (phOf s r.val).retired.getLsbD (phOf t r.val).inc = false ∧ (phOf t r.val).spare = (phOf s r.val).spare ∧ (phOf t r.val).fail = (phOf s r.val).fail ∧
      Armed (overlapTime s r.val) (.swapOverlapEnd (.phases r)) s t ∧ Only [.rl, .bk, .clk] s t)) ∧
  (∀ s (r : PhRail), anvilOn s = true → has s.rl.overlap r.val = true → (phOf s r.val).out < 3 → Ends (.swapOverlapEnd (.phases r)) s (fun t =>
    has t.rl.overlap r.val = false ∧ (∀ j : Phase, (phOf t r.val).spare.getLsbD j.val = decide (j.val = (phOf s r.val).out)) ∧
    (phOf t r.val).fail = (phOf s r.val).fail ∧ (phOf t r.val).retired.getLsbD (phOf s r.val).out = worn s (phaseRes r.val (phOf s r.val).out) ∧
    t.rl.en = s.rl.en ∧ isPend t 971 = true)) ∧
  (∀ s i l, s.pat.pend = i :: l → swapBlocked s i = true → exec .swap s = .next s) ∧
  (∀ s, fwRuns s = false → exec .swap s = .next s)

/-! Housekeeping and thermal (09_housekeeping_thermal.md). -/

/-- A housekeeping round at its end (R239, R245, R249, R256, R295, R328). Shown for HKA's measurements of one converter, in a round whose
light Assay step is displaced: a good result is published in its encoding with age 0, without one the value is held and ages up to 127,
and while HKA is invalid the value is held INVALID; a good result of R237's derived numbers is scaled by its setting (`convVal`). The
round number advances. Before its 100 ms are over no round ends; in STANDBY and while the firmware does not run none does, and the
gauge's charge converter counts alone. A rail hot at the end of its grace is throttled by one step, no lower than DMIN, where its THRTEN
bit is 1; one that has cooled asks no more.

Conversion sequences, host requests and the checks' commands (R242 to R244, R246, R251, R258, R260). CONV starts a defined sequence on its
converter with the cycle, angle and lock of that moment, LATE behind a running one; its end stores the values of the definition it
started with; out of STANDBY's clock-gated island and for an undefined sequence CONV does nothing. A request takes its measurement and
converter at GO and is busy until its result; GO while busy is ignored and sets RORSV. HKSEQIDX loads the definition, STORE writes it back,
or with a reserved measurement number in a used entry sets RSVENC, and the read of HKRFLAG latches a result; a write of THMEAS is stored, and with EN 0 clears the channel's
state, and SENSCLR clears every
FAILED bit.
Where the spec leaves a corner open, the clauses follow log entry 31, the model's choice. -/
def Obligations.Housekeeping : Prop :=
  (∀ s (d : RoundData) m v, roundsRun s = true → s.hk.due ≤ s.clk.now → displaced s = true → m < 44 → s.hk.hkaInv = false → rawOf d.hka m = some v →
    Ends (.hkRoundEnd d) s (fun t => mval t m = encMeas m (convVal s m v) ∧ mget 127 t.hk.age m = 0 ∧ t.hk.valid.getLsbD m = true ∧
      t.hk.rnd = s.hk.rnd + 1)) ∧
  (∀ s (d : RoundData) m, roundsRun s = true → s.hk.due ≤ s.clk.now → displaced s = true → m < 44 → s.hk.hkaInv = false → rawOf d.hka m = none →
    Ends (.hkRoundEnd d) s (fun t => mval t m = mval s m ∧ mget 127 t.hk.age m = min 127 (mget 127 s.hk.age m + 1) ∧
      t.hk.valid.getLsbD m = s.hk.valid.getLsbD m)) ∧
  (∀ s (d : RoundData) m, roundsRun s = true → s.hk.due ≤ s.clk.now → displaced s = true → m < 44 → s.hk.hkaInv = true → Ends (.hkRoundEnd d) s (fun t =>
    mval t m = mval s m ∧ mget 127 t.hk.age m = min 127 (mget 127 s.hk.age m + 1) ∧ t.hk.valid.getLsbD m = false)) ∧
  (∀ s d, s.clk.now < s.hk.due → roundsRun s = true → exec (.hkRoundEnd d) s = .next s) ∧
  (∀ s d, anvilOn s = true → (fwOn s = false ∨ s.glob.st = .standby) → Ends (.hkRoundEnd d) s (fun t =>
    t.gau.acc = sat32 (s.gau.acc + d.dq) ∧ t.gau.qnow = s.gau.qnow ∧ Only [.gau] s t)) ∧
  (∀ s d, (s.glob.st = .sleep ∨ s.glob.st = .ship) → exec (.hkRoundEnd d) s = .next s) ∧
  (∀ s (r : Rail), fwOn s = true → has s.thm.grace r.val = true → thrten s r.val = true → belowTw s r.val = false → exec (.throttleGraceEnd r) s =
    .next (disarm (.throttleGraceEnd r) { s with thm := { s.thm with
      grace := s.thm.grace &&& ~~~(bit r.val),
      enf := s.thm.enf ||| bit r.val,
      drail := mput 100 s.thm.drail r.val (max (dmin s) (100 - thrstep s)) } })) ∧
  (∀ s (r : Rail), fwOn s = true → has s.thm.grace r.val = true → belowTw s r.val = true → exec (.throttleGraceEnd r) s =
    .next (disarm (.throttleGraceEnd r) { s with thm := { s.thm with
      grace := s.thm.grace &&& ~~~(bit r.val),
      req := s.thm.req &&& ~~~(bit r.val) } })) ∧
  (∀ s (n : Fin 32), fwRuns s = true → seqDefined s n.val = true → seqOnB s n.val = false → exec (.conv n) s = .next (noteClaim { s with hk := { s.hk with runA := s.hk.runA ++
    [⟨n.val, (List.range 9).map (fun i => pl s (seqKey n.val (0x11 + i))), { unlocked := decide (s.cyc.pll ≠ .lock), late := !s.hk.runA.isEmpty, cyc := s.cyc.cnt.setWidth 16, ang := BitVec.ofNat 8 (angleNow s), fine := fineOf s.cyc.phase }⟩] } })) ∧
  (∀ s (n : Fin 32), (fwRuns s = false ∨ seqDefined s n.val = false) → exec (.conv n) s = .next s) ∧
  (∀ s vals x l, fwOn s = true → s.hk.runB = x :: l → Ends (.convSeqDone true vals) s (fun t => t.hk.runB = l ∧ t.hk.runA = s.hk.runA ∧
    (mget {} t.hk.res x.seq : SeqRes) = { x.res with
      done := true, invalid := s.hk.hkbInv, run := (mget {} s.hk.res x.seq : SeqRes).run + 1,
      vals := (vals.take ((x.bytes.getD 0 0).toNat / 2 % 8 + 1)).zipIdx.map (fun (v, i) => encMeas (seqEntry x i) (convVal s (seqEntry x i) v)) } ∧
    Only [.hk] s t)) ∧
  (∀ s (n : Fin 8), Served s → s.hk.reqBusy = false → Ends (.hkreqGo n) s (fun t => t.hk = (noteClaim { s with hk := { s.hk with
    reqBusy := true, reqDone := false,
    reqMeas := (pl s (key 0x38 0x20)).toNat % 128, reqB := (pl s (key 0x38 0x20)).msb } }).hk ∧
    pl t (key 0x38 0x21) = putBits (pl s (key 0x38 0x21)) 1 3 n.val ∧ Acked s t ∧ Only [.hk, .regs, .bus, .glob, .clk] s t)) ∧
  (∀ s (n : Fin 8), Served s → s.hk.reqBusy = true → Ends (.hkreqGo n) s (fun t => t.hk = s.hk ∧ t.regs = s.regs ∧
    t.glob.buserr.getLsbD 0 = true ∧ Only ([.bus, .glob] ++ raiseParts) s t)) ∧
  (∀ s v, fwOn s = true → s.hk.reqBusy = true → exec (.hkreqDone v) s = .next (noteClaim { s with hk := { s.hk with
    reqBusy := false, reqDone := true, reqVal := encMeas s.hk.reqMeas (convVal s s.hk.reqMeas v),
    reqInv := if s.hk.reqB then s.hk.hkbInv else s.hk.hkaInv } })) ∧
  (∀ s v, Served s → Ends (.hkseqidxWrite v) s (fun t => pl t (key 0x38 0x10) = BitVec.ofNat 8 (v.toNat % 32) ∧
    (∀ i, i < 9 → pl t (key 0x38 (0x11 + i)) = pl s (seqKey (v.toNat % 32) 0x11 + i)) ∧ Acked s t ∧ Only [.regs, .bus, .glob, .clk] s t)) ∧
  (∀ s, Served s → (∀ i, i < rdBits (pl s) (key 0x38 0x11) 1 3 + 1 → (pl s (key 0x38 (0x12 + i))).toNat ≤ 103) → Ends .hkseqStore s (fun t =>
    (∀ i, i < 9 → pl t (seqKey (rdBits (pl s) (key 0x38 0x10) 0 5) 0x11 + i) = pl s (key 0x38 (0x11 + i))) ∧ Acked s t ∧ Only [.regs, .bus, .glob, .clk] s t)) ∧
  (∀ s, Served s → (∃ i, i < rdBits (pl s) (key 0x38 0x11) 1 3 + 1 ∧ 103 < (pl s (key 0x38 (0x12 + i))).toNat) → Ends .hkseqStore s (fun t =>
    t.regs = s.regs ∧ t.glob.buserr = setBit s.glob.buserr 1 true ∧ Only ([.glob] ++ raiseParts) s t)) ∧
  (∀ s, Served s → Ends .hkrflagRead s (fun t => t.hk = { s.hk with lres := some (mget {} s.hk.res (rdBits (pl s) (key 0x3A 0x80) 0 5)) } ∧
    t.bus.rdata = [hkrflag (mget {} s.hk.res (rdBits (pl s) (key 0x3A 0x80) 0 5))] ∧ Only [.hk, .bus] s t)) ∧
  (∀ s v, Served s → v.toNat ≤ 103 → Ends (.thmeasWrite v) s (fun t => Acked s t ∧
    pl t (thKey (rdBits (pl s) (key 0x3B 0) 0 6) 1) = putBits (putBits (pl s (thKey (rdBits (pl s) (key 0x3B 0) 0 6) 1)) 0 7 v.toNat) 7 1 0 ∧
    t.hk.th.getLsbD (2 * rdBits (pl s) (key 0x3B 0) 0 6) = false ∧ t.hk.th.getLsbD (2 * rdBits (pl s) (key 0x3B 0) 0 6 + 1) = false ∧
    Only [.regs, .hk, .bus, .glob, .clk] s t)) ∧
  (∀ s v, Served s → 128 ≤ v.toNat → v.toNat ≤ 231 → Ends (.thmeasWrite v) s (fun t => Acked s t ∧
    pl t (thKey (rdBits (pl s) (key 0x3B 0) 0 6) 1) = v ∧ Only [.regs, .bus, .glob, .clk] s t)) ∧
  (∀ s, Served s → Ends .sensclr s (fun t => (∀ i, i < 22 → senOf t i = { senOf s i with failed := false, disRun := 0, rngRun := 0 }) ∧ Acked s t ∧
    Only [.hk, .bus, .glob, .clk] s t))

/-- The events of a threshold channel (R247). As the values of a round are compared, a channel k whose HIGH becomes active raises bit
2 × (k mod 8) of interrupt group 38 + k/8, rounded down, and one whose LOW becomes active the bit above it; a channel raises neither otherwise,
and no other source. -/
def Obligations.ThresholdEvents : Prop :=
  (∀ s (k : Fin 64), anvilOn s = true → s.hk.th.getLsbD (2 * k.val) = false → (thChannel k.val s).hk.th.getLsbD (2 * k.val) = true →
    isPend (thChannel k.val s) (16 * (38 + k.val / 8) + 2 * (k.val % 8)) = true) ∧
  (∀ s (k : Fin 64), anvilOn s = true → s.hk.th.getLsbD (2 * k.val + 1) = false → (thChannel k.val s).hk.th.getLsbD (2 * k.val + 1) = true →
    isPend (thChannel k.val s) (16 * (38 + k.val / 8) + 2 * (k.val % 8) + 1) = true) ∧
  (∀ s (k : Fin 64), isPend s (16 * (38 + k.val / 8) + 2 * (k.val % 8)) = false → isPend (thChannel k.val s) (16 * (38 + k.val / 8) + 2 * (k.val % 8)) = true →
    s.hk.th.getLsbD (2 * k.val) = false ∧ (thChannel k.val s).hk.th.getLsbD (2 * k.val) = true) ∧
  (∀ s (k : Fin 64), isPend s (16 * (38 + k.val / 8) + 2 * (k.val % 8) + 1) = false → isPend (thChannel k.val s) (16 * (38 + k.val / 8) + 2 * (k.val % 8) + 1) = true →
    s.hk.th.getLsbD (2 * k.val + 1) = false ∧ (thChannel k.val s).hk.th.getLsbD (2 * k.val + 1) = true) ∧
  (∀ s (k : Fin 64) j, isPend (thChannel k.val s) j = true → isPend s j = true ∨ j = 16 * (38 + k.val / 8) + 2 * (k.val % 8) ∨ j = 16 * (38 + k.val / 8) + 2 * (k.val % 8) + 1 ∨ isLogLoss j = true) ∧
  (∀ s (k : Fin 64), Only ([.hk] ++ raiseParts) s (thChannel k.val s))

/-! The charge pilot (10_charge_pilot.md). -/

/-- Measuring the pilot and the proximity contact (R265 to R270, R272, R280). A period of 500 Hz to 2 kHz is PWM, PWMON as it begins; one
outside that range is measured all the same, but OSC reads 0, with PWMOFF as it ends, and PCURR 0xFFFF. The fourth of four alike publishes
duty, frequency, plateaus and current. With no crossing for 2 ms there is no PWM and no duty. The fourth class in a row is reported with STCHG,
and an INVALID one starts the response while S2 is closed in receive role. A window of the DC level publishes CPHI, with CPLO 0x8000. The fourth
equal proximity class is reported, and NONE opens S2. The SLEEP monitor wakes by the second window in a row, not by the first.
Where the spec leaves a corner open, the clauses follow log entry 29, the model's choice. -/
def Obligations.PilotMeasures : Prop :=
  (∀ s hi lo duty freq, anvilOn s = true → pilotOn s = true → 5000 ≤ freq → freq ≤ 20000 → Ends (.pilotPeriod hi lo duty freq) s (fun t => t.plt.osc = true ∧
    t.plt.hist = (s.plt.hist ++ [(hi, lo, duty, freq)]).drop (s.plt.hist.length - 3) ∧ (s.plt.osc = false → isPend t 769 = true) ∧
    Armed 4000 .pwmoff s t ∧ t.plt.role = s.plt.role ∧ Only ([.plt] ++ raiseParts) s t)) ∧
  (∀ s hi lo duty freq, anvilOn s = true → pilotOn s = true → 9800 ≤ freq → freq ≤ 10200 →
    s.plt.hist = [(hi, lo, duty, freq), (hi, lo, duty, freq), (hi, lo, duty, freq)] → Ends (.pilotPeriod hi lo duty freq) s (fun t =>
      t.plt.duty = BitVec.ofNat 16 duty ∧ t.plt.freq = BitVec.ofNat 16 freq ∧ t.plt.freqerr = false ∧ t.plt.curr = BitVec.ofNat 16 (pcurrOf duty) ∧
      t.plt.cphi = word16 hi ∧ t.plt.cplo = word16 lo)) ∧
  (∀ s hi lo duty freq, anvilOn s = true → pilotOn s = true → 5000 ≤ freq → freq ≤ 20000 → s.plt.cls = pilotClass s true hi lo → s.plt.run = 3 →
    s.plt.cls ≠ s.plt.state → Ends (.pilotPeriod hi lo duty freq) s (fun t => t.plt.state = s.plt.cls ∧ isPend t 768 = true)) ∧
  (∀ s hi lo duty freq, anvilOn s = true → pilotOn s = true → (freq < 5000 ∨ 20000 < freq) → Ends (.pilotPeriod hi lo duty freq) s (fun t => t.plt.osc = false ∧
    t.plt.hist = (s.plt.hist ++ [(hi, lo, duty, freq)]).drop (s.plt.hist.length - 3) ∧ t.plt.curr = 0xFFFF ∧ t.plt.freqerr = false ∧
    (s.plt.osc = true → isPend t 770 = true) ∧ Armed 4000 .pwmoff s t ∧ t.plt.role = s.plt.role ∧ Only ([.plt] ++ raiseParts) s t)) ∧
  (∀ s, anvilOn s = true → pilotOn s = true → Ends .pwmoff s (fun t => t.plt.osc = false ∧ t.plt.duty = 0xFFFF ∧ t.plt.curr = 0xFFFF ∧
    t.plt.state = s.plt.state ∧ (s.plt.osc = true → isPend t 770 = true) ∧ Only ([.plt] ++ raiseParts) s t)) ∧
  (∀ s mv, anvilOn s = true → pilotOn s = true → waiting .pwmoff s = false → pilotClass s false mv 0 = s.plt.state → Ends (.pilotDcWindow mv) s (fun t =>
    t.plt.cphi = word16 mv ∧ t.plt.cplo = 0x8000 ∧ t.plt.state = s.plt.state ∧ t.plt.cls = s.plt.state ∧ Only [.plt] s t)) ∧
  (∀ s mv, anvilOn s = true → pilotOn s = true → waiting .pwmoff s = false → 13500 < mv → s.plt.cls = 8 → s.plt.run = 3 → s.plt.state ≠ 8 → s.plt.s2 = true →
    s.plt.role = 0 → s.plt.soft = false → s.plt.hard = false → s.plt.rspRun = false → Ends (.pilotDcWindow mv) s (fun t => t.plt.state = 8 ∧
      t.plt.rspRun = true ∧ t.plt.cause.getLsbD 2 = true ∧ isPend t 768 = true ∧ isPend t 780 = true ∧ isPend t 775 = true ∧
      Armed (ms (100 * (lv s (key 0x40 1)).toNat)) .rspsoft s t)) ∧
  (∀ s mv, pilotOn s = true → (ppClassOf (ppstd s) mv = s.plt.pp ∨ ppClassOf (ppstd s) mv ≠ s.plt.ppCls ∨ s.plt.ppRun < 3) →
    exec (.ppConversion mv) s = .next { s with plt := { s.plt with
      ppCls := ppClassOf (ppstd s) mv,
      ppRun := min 4 (if s.plt.ppCls = ppClassOf (ppstd s) mv then s.plt.ppRun + 1 else 1),
      ppres := ppresOf mv } }) ∧
  (∀ s mv, anvilOn s = true → pilotOn s = true → ppClassOf (ppstd s) mv = s.plt.ppCls → s.plt.ppCls ≠ s.plt.pp → 3 ≤ s.plt.ppRun → Ends (.ppConversion mv) s (fun t =>
    t.plt.pp = s.plt.ppCls ∧ isPend t 784 = true ∧ (s.plt.ppCls = 0 → t.plt.s2 = false) ∧ Only ([.plt] ++ raiseParts) s t)) ∧
  (∀ s cp pp, vaonOn s = true → s.glob.st = .sleep → (lv s (key 0x40 0)).getLsbD 2 = true → wakeDue s = false → cp < 4500 → 4500 ≤ pp →
    exec (.sleepMonitor cp pp) s = .next { s with plt := { s.plt with monCp := 0, monPp := 0, monSeen := true } }) ∧
  (∀ s cp pp, vaonOn s = true → s.glob.st = .sleep → (lv s (key 0x40 0)).getLsbD 2 = true → wakeDue s = false → s.plt.monCp = 0 → 4500 ≤ cp → 4500 ≤ pp →
    exec (.sleepMonitor cp pp) s = .next { s with plt := { s.plt with monCp := 1, monPp := 0, monSeen := true } }) ∧
  (∀ s cp pp, vaonOn s = true → s.glob.st = .sleep → (lv s (key 0x40 0)).getLsbD 2 = true → (lv s (key 0x40 0)).getLsbD 3 = true → 1 ≤ s.plt.monCp → 4500 ≤ cp →
    wakeEn s 5 = true → Ends (.sleepMonitor cp pp) s Booting)

/-- S2, the response to an outlet that changes, the roles and the generator (R271 to R279). PSW requests S2, which closes in receive role in states B and C with
a coupled contact, and its withdrawal or PACK acknowledges; without one the soft and then the hard limit act; a role swap checks, with
ROLEREJ and ERR 0x01, 0x02 or 0x03, answers at once for the role it has, else releases and takes 101 ms; PILOT_REARM starts the engine afresh
in receive and supply role; a generator fault turns the output off until its supply is back.

The charger's phases (R284, R286, R287, R294). The end of the hold-off chooses the phase from VCELL; VMID low stops the charger and its return lets it go
on; the phase moves up at a threshold and down more than 100 mV below it; termination in CV ends in done and recharge starts CC; CHGSUSP suspends
and its withdrawal restores the phase. Each change raises PHASE.
Where the spec leaves a corner open, the clauses follow log entries 29 and 30, the model's choice. -/
def Obligations.PilotAndCharger : Prop :=
  (∀ s v, Served s → v.getLsbD 0 = true → s.plt.s2 = false → s.plt.role = 0 → s.plt.osc = true → (s.plt.state = 3 ∨ s.plt.state = 4) → 1 ≤ s.plt.pp → s.plt.pp ≤ 4 →
    s.plt.soft = false → s.plt.hard = false → Ends (.pswWrite v) s (fun t => t.plt = { s.plt with s2 := true } ∧ isPend t 773 = true ∧ s2req t = true ∧
      Only ([.plt, .regs, .glob] ++ raiseParts) s t)) ∧
  (∀ s v, Served s → s2req s = true → v.getLsbD 0 = false → s.plt.rspRun = true → Ends (.pswWrite v) s (fun t =>
    t.plt = { s.plt with rspRun := false, cause := 0, s2 := false } ∧ isPend t 778 = true ∧ s2req t = false ∧ Only ([.plt, .regs, .glob] ++ raiseParts) s t)) ∧
  (∀ s, Served s → s.plt.rspRun = true → Ends .pack s (fun t => t.plt = { s.plt with rspRun := false, cause := 0 } ∧ isPend t 778 = true ∧
    armed .rspsoft t = false ∧ armed .rsphard t = false ∧ Only ([.plt, .glob] ++ raiseParts) s t)) ∧
  (∀ s, Served s → s.plt.rspRun = false → Ends .pack s (fun t => Acked s t ∧ Only [.bus, .glob, .clk] s t)) ∧
  (∀ s, anvilOn s = true → s.plt.rspRun = true → s.plt.soft = false → Ends .rspsoft s (fun t => t.plt = { s.plt with soft := true, s2 := false } ∧
    isPend t 776 = true ∧ Armed (ms (100 * (lv s (key 0x40 2)).toNat)) .rsphard s t ∧ Only ([.plt] ++ raiseParts) s t)) ∧
  (∀ s, anvilOn s = true → s.plt.rspRun = true → s.plt.soft = true → s.plt.hard = false → Yields .rsphard s
    (disarm .rsphard { s with plt := { s.plt with hard := true, base := false, rspRun := false } }) [777]) ∧
  (∀ s p b, Takes false p s → p.params = [b] → b.toNat < 4 → s.plt.role < 2 → s.plt.state < 3 → s.plt.role ≠ (b.getLsbD 0).toNat →
    (b.getLsbD 0 = true → s.glob.st ≠ .safe ∧ s.plt.genflt = false ∧ has s.rl.pg 0 = true) → Ends (.pilotRole p) s (fun t => t.bus.cstat = 2 ∧ t.bus.tag = p.tag ∧
      t.plt = { s.plt with role := 2, base := false, gen := false, swap := some (b.getLsbD 0), rspRun := false, cause := 0, s2 := false } ∧ Armed (ms 101) .roledone s t)) ∧
  (∀ s p b, Takes false p s → p.params = [b] → (4 ≤ b.toNat ∨ s.plt.role = 3) → Ends (.pilotRole p) s (fun t => SlotShows 5 1 [] p t ∧ isPend t 787 = true ∧
    t.plt = s.plt)) ∧
  (∀ s p b, Takes false p s → p.params = [b] → b.toNat < 4 → s.plt.role < 2 → (4 ≤ s.plt.state ∨ (s.plt.state = 3 ∧ b.getLsbD 1 = false)) →
    Ends (.pilotRole p) s (fun t => SlotShows 5 2 [] p t ∧ isPend t 787 = true ∧ t.plt = s.plt)) ∧
  (∀ s p b, Takes false p s → p.params = [b] → b.toNat < 4 → s.plt.role < 2 → s.plt.state < 3 → b.getLsbD 0 = true →
    (s.glob.st = .safe ∨ s.plt.genflt = true ∨ has s.rl.pg 0 = false) → Ends (.pilotRole p) s (fun t => SlotShows 5 3 [] p t ∧ isPend t 787 = true ∧
      t.plt = s.plt)) ∧
  (∀ s p b, Takes false p s → p.params = [b] → b.toNat < 4 → s.plt.state < 3 → s.plt.role = (b.getLsbD 0).toNat →
    (b.getLsbD 0 = true → s.glob.st ≠ .safe ∧ s.plt.genflt = false ∧ has s.rl.pg 0 = true) → Ends (.pilotRole p) s (fun t => SlotShows 3 0 [] p t ∧
      Only [.bus, .txn] s t)) ∧
  (∀ s b, anvilOn s = true → s.plt.swap = some b → s.plt.role = 2 → Ends .roledone s (fun t => t.plt.role = b.toNat ∧ t.plt.swap = none ∧ t.plt.base = !b ∧
    t.plt.gen = (b && !s.plt.genflt) ∧ t.plt.s2 = false ∧ t.plt.state = 0 ∧ t.plt.soft = false ∧ t.plt.hard = false ∧ s2req t = false ∧
    isPend t 786 = true ∧ (slotHas s 0x80 = true → t.bus.cstat = 3 ∧ t.bus.err = 0))) ∧
  (∀ s p, Takes false p s → p.params = [] → s.plt.role < 2 → Ends (.pilotRearm p) s (fun t => SlotShows 3 0 [] p t ∧ isPend t 779 = true ∧ t.plt.state = 0 ∧
    t.plt.soft = false ∧ t.plt.hard = false ∧ t.plt.diode = false ∧ t.plt.rspRun = false ∧ t.plt.s2 = false ∧ s2req t = false ∧
    t.plt.base = (s.plt.base || decide (s.plt.role = 0)))) ∧
  (∀ s p, Takes false p s → p.params = [] → 2 ≤ s.plt.role → s.plt.role ≤ 3 → Ends (.pilotRearm p) s (fun t => SlotShows 5 1 [] p t ∧ Only [.bus, .txn] s t)) ∧
  (∀ s, anvilOn s = true → pilotOn s = true → s.plt.genflt = false → Yields .genflt s { s with plt := { s.plt with genflt := true, gen := false } } [782]) ∧
  (∀ s, exec .genRestart s = .next { s with plt := { s.plt with genflt := false, gen := vaonOn s && decide (s.plt.role = 1) } }) ∧
  (∀ s v, anvilOn s = true → chgCell s ≠ 0 → s.chg.phase = 0 → s.chg.holdoff = true → (chgByte s 0).getLsbD 0 = true → has s.rl.pg 0 = true → s.chg.vmidlow = false →
    chgSuspended s = false → v ≠ 0 → Ends (.chargerHoldoffEnd (some v)) s (fun t => t.chg.holdoff = false ∧ t.chg.vcell = v ∧ t.chg.phase = phaseOf s v ∧
      isPend t 800 = true ∧ Only ([.chg] ++ raiseParts) s t)) ∧
  (∀ s, anvilOn s = true → chgCell s ≠ 0 → 1 ≤ s.chg.phase → s.chg.phase ≤ 6 → s.chg.vmidlow = false → Ends .vmidlow s (fun t => t.chg.vmidlow = true ∧ t.chg.phase = 0 ∧
    isPend t 808 = true ∧ isPend t 800 = true ∧ Only ([.chg] ++ raiseParts) s t)) ∧
  (∀ s, anvilOn s = true → chgCell s ≠ 0 → s.chg.phase = 0 → s.chg.holdoff = false → (chgByte s 0).getLsbD 0 = true → has s.rl.pg 0 = true → s.chg.vmidlow = true →
    chgSuspended s = false → s.chg.vcell ≠ 0 → Ends .chargerVmidRestore s (fun t => t.chg.vmidlow = false ∧ t.chg.phase = phaseOf s s.chg.vcell ∧
      isPend t 800 = true ∧ Only ([.chg] ++ raiseParts) s t)) ∧
  (∀ s v, anvilOn s = true → chgCell s ≠ 0 → s.chg.phase = 3 → cvEff s ≤ v → Ends (.chargePhaseChange v) s (fun t => t.chg.phase = 4 ∧ t.chg.vcell = v ∧ isPend t 800 = true)) ∧
  (∀ s v, anvilOn s = true → chgCell s ≠ 0 → s.chg.phase = 2 → vpre s ≤ v → v < cvEff s → vtrk s ≤ v → Ends (.chargePhaseChange v) s (fun t =>
    t.chg.phase = 3 ∧ isPend t 800 = true)) ∧
  (∀ s v, anvilOn s = true → chgCell s ≠ 0 → s.chg.phase = 3 → v < cvEff s → vpre s ≤ v + 100 → Ends (.chargePhaseChange v) s (fun t =>
    t.chg.phase = 3 ∧ t.chg.vcell = v ∧ Only [.chg, .clk] s t)) ∧
  (∀ s v, anvilOn s = true → chgCell s ≠ 0 → s.chg.phase = 3 → v < cvEff s → v + 100 < vpre s → Ends (.chargePhaseChange v) s (fun t => t.chg.phase = 2 ∧ isPend t 800 = true)) ∧
  (∀ s, anvilOn s = true → s.chg.phase = 4 → (chgByte s 3).getLsbD 4 = true → gaugeOn s = false → Ends .done s (fun t => t.chg.phase = 5 ∧ isPend t 800 = true ∧
    isPend t 801 = true ∧ Only ([.chg] ++ raiseParts) s t)) ∧
  (∀ s, anvilOn s = true → s.chg.phase = 4 → (chgByte s 3).getLsbD 4 = true → gaugeOn s = true → s.gau.frozen = true → Ends .done s (fun t => t.chg.phase = 5 ∧
    isPend t 801 = true ∧ t.gau.qnow = (s.gau.cap : Int))) ∧
  (∀ s, anvilOn s = true → s.chg.phase = 5 → Ends .rechg s (fun t => t.chg.phase = 3 ∧ isPend t 800 = true ∧ isPend t 802 = true ∧ Only ([.chg] ++ raiseParts) s t)) ∧
  (∀ s v, Served s → v.getLsbD 0 = true → chgCell s ≠ 0 → chgCanRun s = true → 1 ≤ s.chg.phase → s.chg.phase ≤ 5 → Ends (.chgsuspWrite v) s (fun t => t.chg.phase = 6 ∧
    t.chg.kept = s.chg.phase ∧ chgsusp t = true ∧ isPend t 800 = true)) ∧
  (∀ s v, Served s → v.getLsbD 0 = false → chgCell s ≠ 0 → chgCanRun s = true → chgTsen s = false → s.chg.phase = 6 → s.chg.kept ≠ 6 → Ends (.chgsuspWrite v) s (fun t =>
    t.chg.phase = s.chg.kept ∧ chgsusp t = false ∧ isPend t 800 = true))

/-! The backup cell (11_backup_cell.md). -/

/-- The charger's protection and watchdog (R287 to R293). CELLOV stops the switching in its phase until it clears, with QBREACH where that edge falls into an open quiet window; an expired safety timer faults and
RESTART clears it and lets the charger choose its phase again; an open or shorted TCELL suspends and its return resumes; a TCELL voltage
in another band of the comparator levels is reported, while TSEN is 1 and a cell is named; an expired watchdog takes the Hallmark values, and
KICK gives back the host's, or starts the watchdog again.
Where the spec leaves a corner open, the clauses follow log entry 30, the model's choice. -/
def Obligations.ChargerProtection : Prop :=
  (∀ s, anvilOn s = true → chgCell s ≠ 0 → s.chg.cellov = false → (s.qt.on = false ∨ chgSwitches s = false) →
    Yields .cellov s { s with chg := { s.chg with cellov := true } } [805]) ∧
  (∀ s, exec .cellovClear s = .next { s with chg := { s.chg with cellov := false } }) ∧
  (∀ s, anvilOn s = true → (s.chg.phase = 1 ∨ s.chg.phase = 2) → Ends .tmrpre s (fun t => t.chg.phase = 7 ∧ t.chg.tmrpre = true ∧ isPend t 803 = true ∧ isPend t 800 = true ∧
    armed .tmrpre t = false ∧ Only ([.chg] ++ raiseParts) s t)) ∧
  (∀ s, anvilOn s = true → (s.chg.phase = 3 ∨ s.chg.phase = 4) → Ends .tmrfast s (fun t => t.chg.phase = 7 ∧ t.chg.tmrfast = true ∧ isPend t 804 = true ∧ isPend t 800 = true ∧
    armed .tmrfast t = false ∧ Only ([.chg] ++ raiseParts) s t)) ∧
  (∀ s, Served s → s.chg.phase = 7 → chgCell s ≠ 0 → chgCanRun s = false → Ends .chgctlRestart s (fun t => t.chg.phase = 0 ∧ t.chg.tmrpre = false ∧ t.chg.tmrfast = false ∧
    isPend t 800 = true)) ∧
  (∀ s, Served s → s.chg.phase = 7 → chgCell s ≠ 0 → chgCanRun s = true → chgSuspended s = false → s.chg.vcell ≠ 0 → Ends .chgctlRestart s (fun t =>
    t.chg.phase = phaseOf s s.chg.vcell ∧ t.chg.tmrpre = false ∧ t.chg.tmrfast = false)) ∧
  (∀ s, anvilOn s = true → chgTsen s = true → s.chg.ntc = false → chgCell s ≠ 0 → chgCanRun s = true → 1 ≤ s.chg.phase → s.chg.phase ≤ 5 → Ends .ntcflt s (fun t =>
    t.chg.ntc = true ∧ t.chg.phase = 6 ∧ t.chg.kept = s.chg.phase ∧ isPend t 806 = true ∧ isPend t 800 = true)) ∧
  (∀ s, chgCell s ≠ 0 → chgCanRun s = true → chgsusp s = false → 1 ≤ s.chg.ct → s.chg.ct ≤ 3 → s.chg.phase = 6 → 1 ≤ s.chg.kept → s.chg.kept ≤ 5 → Ends .ntcRecover s (fun t =>
    t.chg.ntc = false ∧ t.chg.phase = s.chg.kept ∧ isPend t 800 = true)) ∧
  (∀ s mv, anvilOn s = true → chgTsen s = true → chgCell s ≠ 0 → ntcBand (levelsNow s) s.chg.ct mv ≠ s.chg.ct → Ends (.ctband mv) s (fun t =>
    t.chg.ct = ntcBand (levelsNow s) s.chg.ct mv ∧ t.chg.tpin = some mv ∧ isPend t 807 = true)) ∧
  (∀ s mv, (chgTsen s = false ∨ chgCell s = 0 ∨ ntcBand (levelsNow s) s.chg.ct mv = s.chg.ct) → exec (.ctband mv) s =
    .next { s with chg := { s.chg with tpin := some mv } }) ∧
  (∀ s, anvilOn s = true → chgwdt s ≠ 0 → chgMaySwitch s = true → s.chg.defaults = false → Ends .wdexp s (fun t => t.chg.defaults = true ∧ isPend t 809 = true ∧
    armed .wdexp t = false ∧ t.chg.phase = s.chg.phase)) ∧
  (∀ s, Served s → s.chg.defaults = true → Ends .chgctlKick s (fun t => t.chg.defaults = false ∧ isPend t 810 = true ∧ t.chg.phase = s.chg.phase)) ∧
  (∀ s, Served s → s.chg.defaults = false → chgwdt s ≠ 0 → chgMaySwitch s = true → Ends .chgctlKick s (fun t => Armed (sec (5 * 2 ^ chgwdt s)) .wdexp s t ∧ t.chg = s.chg ∧
    Acked s t)) ∧
  (∀ s, anvilOn s = true → chgCell s ≠ 0 → s.chg.cellov = false → s.qt.on = true → chgSwitches s = true → Ends .cellov s (fun t =>
    t.chg = { s.chg with cellov := true } ∧ isPend t 805 = true ∧ isPend t (16 * 47 + 9) = true ∧ Only ([.chg, .qt] ++ raiseParts) s t)) ∧
  (∀ s, s.chg.cellov = true → chgSwitches s = false)

/-- The gauge (R295 to R297, R302, R305, R307, R310, R311, R313). The charge of a round, or of 100 ms without one, adds to the accumulator,
saturating at 32 bits; a round brings QNOW up to the accumulator, within 0 and CAP, with its light Assay step or without, also while it is frozen, and
freezes with FROZEN while HKB is invalid; with HKB valid, the firmware running on and no reference point in the round, QNOW is the accumulated charge and nothing else. ACCCLR clears the accumulator and abandons a learn; CELL_REPLACED starts over with the design capacity and GRDEF in every band,
or answers 0x01 without a cell and 0x02 for a capacity out of range; LEARN_STATUS answers; the offset calibration is noted and repeats every
10 min; slow sampling begins where GCFG allows it and ends.
Where the spec leaves a corner open, the clauses follow log entry 30, the model's choice. -/
def Obligations.GaugeRules : Prop :=
  (∀ s (d : RoundData), anvilOn s = true → (roundsRun s = false ∨ s.hk.due ≤ s.clk.now) → Ends (.hkRoundEnd d) s (fun t =>
    t.gau.acc = max (-2147483648) (min 2147483647 (s.gau.acc + d.dq)))) ∧
  (∀ s (d : RoundData), roundsRun s = true → s.hk.due ≤ s.clk.now → displaced s = true → gaugeOn s = true → s.hk.hkbInv = true → Ends (.hkRoundEnd d) s (fun t =>
    t.gau.frozen = true ∧ t.gau.qnow = max 0 (min (s.gau.cap : Int) (s.gau.qnow + (t.gau.acc - s.gau.seen))) ∧ t.gau.seen = t.gau.acc ∧
    (s.gau.frozen = false → isPend t 824 = true))) ∧
  (∀ s, Served s → Ends .accclr s (fun t => t.gau = { s.gau with acc := 0, seen := s.gau.seen - s.gau.acc, start := none } ∧ Acked s t ∧
    Only [.gau, .bus, .glob, .clk] s t)) ∧
  (∀ s p, Takes false p s → p.params = [] → s.glob.st = .run → chgCell s ≠ 0 → 50 ≤ gdescap s → gdescap s ≤ 10000 → Ends (.cellReplaced p) s (fun t => SlotShows 3 0 [0] p t ∧
    t.gau.cap = 1000 * gdescap s ∧ t.gau.conf = 0 ∧ t.gau.learnN = 0 ∧ t.gau.start = none ∧ t.gau.rband = List.replicate 6 (grdef s) ∧
    t.gau.last = (if s.gau.start.isSome then 6 else s.gau.last) ∧
    isPend t 827 = true ∧ t.rl = s.rl)) ∧
  (∀ s p, Takes false p s → p.params = [] → s.glob.st = .run → chgCell s ≠ 0 → (gdescap s < 50 ∨ 10000 < gdescap s) → Ends (.cellReplaced p) s (fun t =>
    SlotShows 5 2 [] p t ∧ Only [.bus, .txn] s t)) ∧
  (∀ s p, Takes false p s → s.glob.st = .run → chgCell s = 0 → Ends (.cellReplaced p) s (fun t => SlotShows 5 1 [] p t ∧ Only [.bus, .txn] s t)) ∧
  (∀ s p, Takes false p s → p.params = [] → Ends (.learnStatus p) s (fun t => SlotShows 3 0 (learnBytes s) p t ∧ Only [.bus, .txn] s t)) ∧
  (∀ s, anvilOn s = true → Ends .gaugeOffsetCal s (fun t => Armed (sec 600) .gaugeOffsetCal s t ∧
    t.gau = { s.gau with calAt := s.clk.now } ∧ Only [.clk, .gau] s t)) ∧
  (∀ s, anvilOn s = true → (pl s (key 0x45 3)).getLsbD 0 = true → exec .slowSampling s = .next { s with gau := { s.gau with slow := true } }) ∧
  (∀ s, exec .slowSamplingExit s = .next { s with gau := { s.gau with slow := false } }) ∧
  (∀ s (d : RoundData), roundsRun s = true → s.hk.due ≤ s.clk.now → gaugeOn s = true → s.gau.point = 0 →
    (s.gau.rest = true ∨ max 1 (pl s (key 0x45 4)).toNat < d.iMax.natAbs) → Ends (.hkRoundEnd d) s (fun t => fwOn t = true → t.hk.hkbInv = false →
      t.gau.frozen = false ∧ t.gau.acc = sat32 (s.gau.acc + d.dq) ∧ t.gau.seen = t.gau.acc ∧ t.gau.cap = s.gau.cap ∧
      t.gau.qnow = max 0 (min (s.gau.cap : Int) (s.gau.qnow + (t.gau.acc - s.gau.seen))) ∧ t.gau.i = d.iSec))

/-- The full point (R287, R300, R305): charge termination ends in done and sets QNOW to CAP, that is SOC 100 %; while the gauge is not frozen it is a
reference point, which raises REFPOINT. -/
def Obligations.FullPoint : Prop :=
  ∀ s, anvilOn s = true → s.chg.phase = 4 → (chgByte s 3).getLsbD 4 = true → gaugeOn s = true → Ends .done s (fun t => t.chg.phase = 5 ∧
    t.gau.qnow = (t.gau.cap : Int) ∧ (s.gau.frozen = false → isPend t 818 = true))

/-! Calendar and power states (12_calendar_power.md). -/

/-- The calendar (R316 to R324). In RUN a second advances the date and another one begins; the wrap of the century raises CENTWRAP, and a match of
the alarm raises ALARM. CALTRIM adds its cycles to the present second, or where that has ended to the next one (log entry 33), and is due again in 32 s. A write of PWCFG or of PWCNT restarts the periodic wake or stops it; its
tick in RUN raises PTICK and starts it again. XTALSTOP in RUN takes the RC oscillator with its source raised, XTALRUN goes back with its source
raised. SET takes the held date where it is valid, clears LOST, SETERR and the prescaler (a negative shift under way goes on, log entry 18) and
raises SETDONE; where it is not, SETERR and BUSERR.RSVENC. Reading SUBSEC latches the date.

RTC_SHIFT (R324): a shift other than 0 occupies the slot, with SHIFTDONE armed; rejected with 0x01 while one runs and with 0x02 for −32,768. A
shift of 0 is done at once with its event. SHIFTDONE ends the shift, makes a positive one, raises its event and ends the command with done.
Where the spec leaves a corner open, the clauses follow log entry 33, the model's choice. -/
def Obligations.CalendarAndShift : Prop :=
  (∀ s, vaonOn s = true → s.glob.st = .run → Ends .calendarSecond s (fun t => t.cal.now = nextSecond s.cal.now ∧ (s.cal.shiftNext = false → t.cal.adj = s.cal.trimNext) ∧ t.cal.trimNext = 0 ∧
    armed .calendarSecond t = true ∧ (alarmMatches t = true → anvilOn s = true → isPend t (16 * 52) = true) ∧
    (s.cal.now.cent = 99 → t.cal.now.cent = 0 → anvilOn s = true → isPend t (16 * 52 + 6) = true) ∧ Only ([.cal] ++ raiseParts) s t)) ∧
  (∀ s, vaonOn s = true → (s.clk.now : Int) < s.cal.t0 + xt (32768 - s.cal.adj) → Ends .caltrimStep s (fun t => t.cal = { s.cal with adj := s.cal.adj + (pl s (key 0x48 0x1B)).toInt } ∧
    Armed (sec 32) .caltrimStep s t ∧ Only [.cal, .clk] s t)) ∧
  (∀ s n, anvilOn s = true → s.glob.st = .run → ptickLen s = some n → Yields .ptick s (arm n .ptick s) [16 * 52 + 1]) ∧
  (∀ s v, Served s → Ends (.pwcfgWrite false v) s (fun t => t.regs = (plainByte 0x48 0x28 v s).regs ∧
    (ptickLen t = none → armed .ptick t = false) ∧ (∀ n, ptickLen t = some n → Armed n .ptick s t) ∧ Only ([.regs, .glob] ++ raiseParts) s t)) ∧
  (∀ s v, Served s → Ends (.pwcfgWrite true v) s (fun t => t.regs = (plainByte 0x48 0x29 v s).regs ∧
    (ptickLen t = none → armed .ptick t = false) ∧ (∀ n, ptickLen t = some n → Armed n .ptick s t) ∧ Only ([.regs, .glob] ++ raiseParts) s t)) ∧
  (∀ s, anvilOn s = true → s.glob.st = .run → s.cal.lprc = false → Yields .xtalstop s
    { s with cal := { s.cal with lprc := true }, tst := { s.tst with xtal := false } } [16 * 52 + 4]) ∧
  (∀ s, anvilOn s = true → (s.cal.lprc = true ∨ s.tst.xtal = false) → Yields .xtalrun s
    { s with cal := { s.cal with lprc := false }, tst := { s.tst with xtal := true } } [16 * 52 + 5]) ∧
  (∀ s d, Served s → heldDate s = some d → Ends .calctlSet s (fun t => t.cal = { s.cal with now := d, lost := false, seterr := false, t0 := s.clk.now, adj := holdLeft s, trimNext := 0, shiftNext := false } ∧
    armed .calendarSecond t = true ∧ isPend t (16 * 52 + 3) = true ∧ Only ([.cal, .glob] ++ raiseParts) s t)) ∧
  (∀ s, Served s → heldDate s = none → Ends .calctlSet s (fun t => t.cal = { s.cal with seterr := true } ∧ t.glob.buserr.getLsbD 1 = true ∧
    Only ([.cal, .glob] ++ raiseParts) s t)) ∧
  (∀ s, Served s → exec .subsecRead s = .next { s with
    cal := { s.cal with latched := some s.cal.now }, bus := { s.bus with nack := false, rdata := [subsec s] } }) ∧
  (∀ s, vaonOn s = true → s.cal.t0 + xt (32768 - s.cal.adj) ≤ (s.clk.now : Int) → Ends .caltrimStep s (fun t =>
    t.cal = { s.cal with trimNext := s.cal.trimNext + (pl s (key 0x48 0x1B)).toInt } ∧ Armed (sec 32) .caltrimStep s t ∧ Only [.cal, .clk] s t)) ∧
  (∀ s p a b, Takes false p s → p.params = [a, b] → s.cal.shift = none → (b ++ a : Word) ≠ 0x8000 → (b ++ a : Word) ≠ 0 → Ends (.rtcShift p) s (fun t =>
    t.bus.cstat = 2 ∧ t.bus.tag = p.tag ∧ t.cal.shift = some (b ++ a : Word).toInt ∧ armed .shiftdone t = true ∧ Only [.bus, .txn, .cal, .clk] s t)) ∧
  (∀ s p, Takes false p s → p.params = [0, 0] → s.cal.shift = none → Ends (.rtcShift p) s (fun t => SlotShows 3 0 [] p t ∧ t.cal = s.cal ∧
    isPend t (16 * 52 + 2) = true ∧ Only ([.bus, .txn] ++ raiseParts) s t)) ∧
  (∀ s p a b, Takes false p s → p.params = [a, b] → s.cal.shift ≠ none → Ends (.rtcShift p) s (fun t => SlotShows 5 1 [] p t ∧ t.cal = s.cal)) ∧
  (∀ s p a b, Takes false p s → p.params = [a, b] → s.cal.shift = none → (b ++ a : Word) = 0x8000 → Ends (.rtcShift p) s (fun t =>
    SlotShows 5 2 [] p t ∧ t.cal = s.cal)) ∧
  (∀ s n, anvilOn s = true → s.cal.shift = some n → 0 < n → Ends .shiftdone s (fun t => t.cal = { s.cal with shift := none, adj := s.cal.adj + n } ∧
    isPend t (16 * 52 + 2) = true ∧ (slotHas s 0xC0 = true → t.bus.cstat = 3) ∧ Only ([.cal] ++ raiseParts) s t)) ∧
  (∀ s n, anvilOn s = true → s.cal.shift = some n → n ≤ 0 → Ends .shiftdone s (fun t => t.cal = { s.cal with shift := none } ∧
    isPend t (16 * 52 + 2) = true ∧ (slotHas s 0xC0 = true → t.bus.cstat = 3) ∧ Only ([.cal] ++ raiseParts) s t))

/-- Wake sources (R327, R329, R333, R334, R385). In RUN the WAKE pin and an input raise their source and do nothing else, and HOSTWAKE raises its
source and sets its latch. The pin and the input, enabled, end a STANDBY entered from RUN, and these and HOSTWAKE, enabled, end a SLEEP, from which the device
boots. SHIP is left by the pin and the input whatever is enabled, with WHY telling which.
Where the spec leaves a corner open, the clauses follow log entry 33, the model's choice. -/
def Obligations.WakeSources : Prop :=
  (∀ s, Running s → Yields .wakepin s s [992]) ∧
  (∀ s, Running s → Yields .vinwake s s [993]) ∧
  (∀ s, Served s → s.glob.st = .run → Ends .hostwake s (fun t => t.pwr.wl.getLsbD 2 = true ∧ isPend t 994 = true ∧ Only ([.glob] ++ raiseParts) s t)) ∧
  (∀ s c k, ((c = .wakepin ∧ k = 0) ∨ (c = .vinwake ∧ k = 1)) → anvilOn s = true → s.glob.st = .standby → s.pwr.fromRun = true → wakeEn s k = true →
    Ends c s (fun t => t.glob.st = .run ∧ t.pwr.fromRun = false ∧ t.pwr.wl.getLsbD k = true ∧ Only ([.glob, .safe, .hk] ++ raiseParts) s t)) ∧
  (∀ s c k, ((c = .wakepin ∧ k = 0) ∨ (c = .vinwake ∧ k = 1)) → vaonOn s = true → s.glob.st = .sleep → wakeEn s k = true → Ends c s Booting) ∧
  (∀ s c k, ((c = .wakepin ∧ k = 0) ∨ (c = .vinwake ∧ k = 1)) → s.glob.supplied = true → s.glob.st = .ship → Ends c s (fun t => Booting t ∧ t.pwr.why = k + 1)) ∧
  (∀ s, vaonOn s = true → s.glob.st = .sleep → wakeEn s 2 = true → Ends .hostwake s Booting)

/-- Commands that start and stop the sequence and STANDBY (R328, R363). SEQ_START clears HELD; it changes no more in RUN, and it starts from idle
STANDBY with an input qualified and an INSEQ rail not power-good. SEQ_STOP sets HELD and, where there is a sequence to stop, runs the common stop.
RAIL_RETRY lifts a rail's hold, clears its retries and puts it in the wait of a restart; with no hold it is rejected with 0x03. STANDBY_ENTER takes RUN to STANDBY with
its event, the watchdog stopped and no rail touched, and is rejected with 0x02 while a wake is due; STANDBY_EXIT takes a STANDBY entered from
RUN back with its event.

Requests for SLEEP and SHIP (R327, R330 to R332). SLEEP_ENTER accepted occupies the slot and, with no rail enabled, goes to the writes before sleep;
SHIP_ENTER accepted with a rail enabled runs the common stop first. Both are rejected with 0x02 without a charger cell or with VSYS below 3.0 V, SLEEP_ENTER with
0x03 where nothing could wake it. IDLESLP asks for SLEEP in idle STANDBY. When the writes are done, the device is in SLEEP or SHIP, with no rail, the
reset outputs asserted and the result in LASTSLP, SHIP with the calendar and the wake latches cleared; a wake that is due in RUN aborts. While a write
is under way nothing changes.
Where the spec leaves a corner open, the clauses follow log entries 16 and 33, the model's choice. -/
def Obligations.SequenceAndSleepRequests : Prop :=
  (∀ s p, Takes false p s → p.params = [] → s.glob.st = .run → Ends (.seqStart p) s (fun t => SlotShows 3 0 [] p t ∧ t.pwr = { s.pwr with held := false } ∧
    Only [.bus, .txn, .pwr] s t)) ∧
  (∀ s p, Takes false p s → p.params = [] → s.glob.st = .standby → s.pwr.idle = true → s.pwr.req = none → s.glob.boot = false →
    (s.inp.a.qual = true ∨ s.inp.b.qual = true) → maskOf (inseq (lv s)) &&& s.rl.pg ≠ maskOf (inseq (lv s)) → Ends (.seqStart p) s (fun t => SlotShows 3 0 [] p t ∧ t.pwr.held = false ∧ t.glob.st = .start ∧
      t.seq.phase = 1 ∧ t.rl = s.rl)) ∧
  (∀ s p, Takes false p s → p.params = [] → canStop s = true → ∃ u, exec (.seqStop p) s = .next (commonStop true u) ∧ SlotShows 3 0 [] p u ∧
    u.pwr = { s.pwr with held := true } ∧ Only [.bus, .txn, .pwr] s u) ∧
  (∀ s p, Takes false p s → p.params = [] → canStop s = false → Ends (.seqStop p) s (fun t => SlotShows 3 0 [] p t ∧ t.pwr = { s.pwr with held := true } ∧
    Only [.bus, .txn, .pwr] s t)) ∧
  (∀ s p b, Takes false p s → p.params = [b] → b.toNat < 32 → (s.glob.st = .run ∨ s.glob.st = .standby) → has s.seq.offhold b.toNat = true →
    Ends (.railRetry p) s (fun t => SlotShows 3 0 [] p t ∧ t.seq.offhold = s.seq.offhold &&& ~~~(bit b.toNat) ∧ has t.seq.wait b.toNat = true ∧
      t.seq.retries = mput 0 s.seq.retries b.toNat 0 ∧ Only [.bus, .txn, .seq, .clk] s t)) ∧
  (∀ s p b, Takes false p s → p.params = [b] → b.toNat < 32 → (s.glob.st = .run ∨ s.glob.st = .standby) → has s.seq.offhold b.toNat = false →
    Ends (.railRetry p) s (fun t => SlotShows 5 3 [] p t ∧ Only [.bus, .txn] s t)) ∧
  (∀ s p, Takes false p s → p.params = [] → s.glob.st = .run → wakeDue s = false → Ends (.standbyEnter p) s (fun t => SlotShows 3 0 [] p t ∧
    t.glob = { s.glob with st := .standby, left := .run } ∧ isPend t (16 * 62 + 6) = true ∧ t.pwr.fromRun = true ∧ t.safe.wdState = 0 ∧ t.rl = s.rl)) ∧
  (∀ s p, Takes false p s → p.params = [] → s.glob.st = .run → wakeDue s = true → Ends (.standbyEnter p) s (fun t => SlotShows 5 2 [] p t ∧
    Only [.bus, .txn] s t)) ∧
  (∀ s p, Takes false p s → p.params = [] → s.glob.st = .standby → s.pwr.fromRun = true → Ends (.standbyExit p) s (fun t => SlotShows 3 0 [] p t ∧
    t.glob = { s.glob with st := .run, left := .standby } ∧ isPend t (16 * 62 + 6) = true ∧ t.pwr.fromRun = false ∧ t.rl = s.rl)) ∧
  (∀ s p, Takes false p s → p.params = [] → (s.glob.st = .run ∨ s.glob.st = .standby) → s.pwr.req = none → s.glob.floor = false → (lv s (key 0x44 0)).toNat / 2 % 4 ≠ 0 →
    3000 ≤ vsysNow s → anyWakeEn s = true → wakeDue s = false → s.rl.en = 0 → Ends (.sleepEnter p) s (fun t =>
      t.bus.cstat = 2 ∧ t.bus.tag = p.tag ∧ t.pwr.req = some ⟨false, true⟩ ∧ t.glob.st = s.glob.st ∧ t.rl = s.rl)) ∧
  (∀ s p, Takes false p s → p.params = [] → (s.glob.st = .run ∨ s.glob.st = .standby) → s.pwr.req = none → s.glob.floor = false → (lv s (key 0x44 0)).toNat / 2 % 4 ≠ 0 →
    3000 ≤ vsysNow s → wakeDue s = false → s.rl.en ≠ 0 → ∃ u, exec (.shipEnter p) s = .next (commonStop true u) ∧
      u.bus.cstat = 2 ∧ u.bus.tag = p.tag ∧ u.pwr.req = some ⟨true, false⟩ ∧ Only [.bus, .txn, .pwr, .clk] s u) ∧
  (∀ s p c, ((c = .sleepEnter p) ∨ (c = .shipEnter p)) → Takes false p s → p.params = [] → (s.glob.st = .run ∨ s.glob.st = .standby) → s.pwr.req = none → s.glob.floor = false →
    ((lv s (key 0x44 0)).toNat / 2 % 4 = 0 ∨ vsysNow s < 3000) → Ends c s (fun t => SlotShows 5 2 [] p t ∧ Only [.bus, .txn] s t)) ∧
  (∀ s p, Takes false p s → p.params = [] → (s.glob.st = .run ∨ s.glob.st = .standby) → s.pwr.req = none → s.glob.floor = false → (lv s (key 0x44 0)).toNat / 2 % 4 ≠ 0 →
    3000 ≤ vsysNow s → anyWakeEn s = false → Ends (.sleepEnter p) s (fun t => SlotShows 5 3 [] p t ∧ Only [.bus, .txn] s t)) ∧
  (∀ s, anvilOn s = true → s.glob.st = .standby → s.pwr.idle = true → s.pwr.req = none → s.inp.a.qual = false → s.inp.b.qual = false →
    pl s (key 0x60 1) ≠ 0 → wakeDue s = false → s.rl.en = 0 → Ends .idleslp s (fun t => t.pwr.req = some ⟨false, true⟩ ∧ t.glob = s.glob ∧ t.rl = s.rl)) ∧
  (∀ s, anvilOn s = true → s.pwr.req = some ⟨false, true⟩ → sleepWriting s = false → wakeDue s = false → Ends .sleepPrepDone s (fun t => t.glob.st = .sleep ∧ t.glob.fwup = false ∧
    t.rl = {} ∧ t.seq.rst = 0x1F ∧ t.pwr.req = none ∧ t.pwr.lastslp = 1 ∧ t.pwr.slpsec = 0)) ∧
  (∀ s, anvilOn s = true → s.pwr.req = some ⟨true, true⟩ → sleepWriting s = false → wakeDue s = false → Ends .sleepPrepDone s (fun t => t.glob.st = .ship ∧ t.rl = {} ∧
    t.pwr.lastslp = 3 ∧ t.seq.rst = 0x1F ∧ t.pwr.req = none ∧ t.cal = {} ∧ t.pwr.wl = 0)) ∧
  (∀ s, sleepWriting s = true → exec .sleepPrepDone s = .next s) ∧
  (∀ s b, anvilOn s = true → s.pwr.req = some ⟨b, true⟩ → sleepWriting s = false → wakeDue s = true → s.glob.st = .run → Ends .sleepPrepDone s (fun t => t.glob = s.glob ∧
    t.pwr.req = none ∧ t.pwr.lastslp = 2 ∧ isPend t (16 * 62 + 3) = true ∧ t.rl = s.rl))

/-! The host bus (13_host_bus_commands.md). -/

/-- Reads of command codes while the full register set is answered (R8, R28, R343 to R346, R348, R355, R356). With PEC off a window read drives the bytes that
`readSeq` gives from the code's offset on in the selected page, and changes nothing but what `readSeq` changes: offset after offset, and
0xFF beyond 0xDF; an unallocated page reads 0xFF and sets BUSERR.UNALLOC; a byte of a staged page below 0x60 is that of the staging copy, one from 0x80 on that
of the live copy; the lowest byte of a field of several offsets latches the rest, and its other bytes read from the latch. PAGE reads the page, CSTAT its four
bytes; CRES_READ returns up to 64 of the result bytes from CRESOFS on, after their count, and moves CRESOFS past them. An unlisted code is not acknowledged.
Where the spec leaves a corner open, the clauses follow log entry 25, the model's choice. -/
def Obligations.HostReads : Prop :=
  (∀ s (code : Byte) n, Served s → pecOn s = false → code.toNat < 0xE0 → Ends (.fieldLatchRead code n) s (fun t =>
    t.bus.rdata = (readSeq s.regs.page.toNat n code.toNat (ackAccess s)).1 ∧ t = drive t.bus.rdata (readSeq s.regs.page.toNat n code.toNat (ackAccess s)).2)) ∧
  (∀ s code n, busUp s = true → listed code = false → exec (.fieldLatchRead code n) s = .next { s with bus := { s.bus with nack := true } }) ∧
  (∀ s, Served s → pecOn s = false → exec (.fieldLatchRead 0xF0 1) s =
    .next { s with bus := { s.bus with nack := false, rdata := [s.regs.page] } }) ∧
  (∀ s, Served s → pecOn s = false → exec (.fieldLatchRead 0xE1 4) s =
    .next { s with bus := { s.bus with nack := false, rdata := [by8 s.bus.cstat, s.bus.tag, s.bus.prog, s.bus.err] } }) ∧
  (∀ s, Served s → pecOn s = false → exec .cresRead s =
    .next { s with bus := { s.bus with
      nack := false,
      ofs := s.bus.ofs + min 64 (s.bus.cres.length - s.bus.ofs),
      rdata := by8 (min 64 (s.bus.cres.length - s.bus.ofs)) :: (s.bus.cres.drop s.bus.ofs).take (min 64 (s.bus.cres.length - s.bus.ofs)) } }) ∧
  (∀ p n o s, o ≤ 0xDF → (readSeq p (n + 1) o s).1 = (readOne p o s).1 :: (readSeq p n (o + 1) (readOne p o s).2).1 ∧
    (readSeq p (n + 1) o s).2 = (readSeq p n (o + 1) (readOne p o s).2).2) ∧
  (∀ s n, Served s → pecOn s = false → Ends (.fieldLatchRead 0xDF (n + 1)) s (fun t => t.bus.rdata.length = n + 1 ∧
    t.bus.rdata.drop 1 = List.replicate n 0xFF)) ∧
  (∀ s (code : Byte) n, Served s → pecOn s = false → code.toNat < 0xE0 → allocated s.regs.page.toNat = false → Ends (.fieldLatchRead code (n + 1)) s (fun t =>
    t.bus.rdata = List.replicate (n + 1) 0xFF ∧ t.bus.nack = false ∧ t.glob.buserr = setBit s.glob.buserr 3 true ∧ t.regs = s.regs ∧
    (s.glob.buserr.getLsbD 3 = false → isPend t (16 * 56 + 12) = true) ∧ Only ([.glob] ++ raiseParts) s t)) ∧
  (∀ s (code : Byte), Served s → pecOn s = false → code.toNat < 0x60 → stagedPages.contains s.regs.page.toNat = true →
    wideAt s.regs.page.toNat code.toNat = none → exec (.fieldLatchRead code 1) s = .next { s with bus := { s.bus with
      nack := false, rdata := [sg s (stKey s s.regs.page.toNat code.toNat)] } }) ∧
  (∀ s (code : Byte), Served s → pecOn s = false → 0x80 ≤ code.toNat → code.toNat < 0xE0 → stagedPages.contains s.regs.page.toNat = true →
    wideAt s.regs.page.toNat code.toNat = none → exec (.fieldLatchRead code 1) s = .next { s with bus := { s.bus with
      nack := false, rdata := [lv s (stKey s s.regs.page.toNat (code.toNat - 0x80))] } }) ∧
  (∀ s (code : Byte) u n, Served s → pecOn s = false → code.toNat < 0xE0 → allocated s.regs.page.toNat = true →
    wideAt s.regs.page.toNat code.toNat = some (code.toNat, n) → u = readEffect s.regs.page.toNat code.toNat (ackAccess s) →
    Ends (.fieldLatchRead code 1) s (fun t => t.bus.rdata = [readReg u s.regs.page.toNat code.toNat] ∧
      t.regs = { s.regs with latch := some (key s.regs.page.toNat code.toNat,
        (List.range (n - 1)).map (fun i => readReg u s.regs.page.toNat (code.toNat + 1 + i))) } ∧ Only [.bus, .regs, .cyc, .cal, .hk, .irq] s t)) ∧
  (∀ s (code : Byte) b n hi, Served s → pecOn s = false → code.toNat < 0xE0 → allocated s.regs.page.toNat = true →
    wideAt s.regs.page.toNat code.toNat = some (b, n) → code.toNat ≠ b → s.regs.latch = some (key s.regs.page.toNat b, hi) →
    exec (.fieldLatchRead code 1) s = .next { s with bus := { s.bus with nack := false, rdata := [hi.getD (code.toNat - b - 1) 0] } })

/-- What a host write of one byte does to the page it reaches (R8, R27, R28, R174, R179, R347, R353, R354, R360, R466). On a staged page it changes the
staging copy alone, and neither the live copy nor the power path; a reserved code leaves its field and sets BUSERR.RSVENC; a page in the scope of a
commit in flight is locked and the write sets BUSERR.RORSV, as one to the live copy does. A byte of a field of two offsets is held until the
other has come, and then both take effect. Outside a session a byte of an LK field is ignored with LKDENY; in one it is stored and SESSTMO runs
anew. An unallocated page ignores the write, with UNALLOC. A packet written to 0xE0 shows as accepted, with its TAG, and its command comes next.

The interrupt registers (R27, R371, R373, R375, R376, R378 to R382, R386). A write of PENDg clears the bits written as 0, but those raised in the
same tick of the interrupt clock, and no other, and sets OVR where one that it clears was raised since the last read. MASKg replaces the mask;
unmasking a pending class F source delivers it, and no masked source is delivered. A route byte takes two routes and no other; where a nibble is
reserved, no route changes, with BUSERR.RSVENC. RRMASK takes its value, and a pending unmasked class S source without a target gets one of it; OVRCLR
and WLCLR clear the bits written as 1; TESTTRIG raises its test sources in RUN. A pulse ends; the firmware clears a source delivered to it, and no other.
Where the spec leaves a corner open, the clauses follow log entries 25 and 43, the model's choice. -/
def Obligations.RegisterWrites : Prop :=
  (∀ s (o : Byte) v b, Served s → pecOn s = false → stagedPages.contains s.regs.page.toNat = true → o.toNat < 0x60 → wideField s.regs.page.toNat o.toNat = none →
    byteFields s.regs.page.toNat o.toNat ≠ [] → pageLocked s s.regs.page.toNat = false →
    mergeByte (byteFields s.regs.page.toNat o.toNat) (fun _ => true) (sg s (stKey s s.regs.page.toNat o.toNat)) v = (b, false) →
    Ends (.registerWrite ⟨o, .writeByte, 0, [v], .none⟩) s (fun t => t.regs = (putStg (stKey s s.regs.page.toNat o.toNat) [b] s).regs ∧
      t.regs.live = s.regs.live ∧ t.bus = { s.bus with nack := false } ∧ t.glob = { s.glob with keyArmed := false } ∧ Only [.regs, .glob, .bus, .clk] s t)) ∧
  (∀ s (o : Byte) v b, Served s → pecOn s = false → stagedPages.contains s.regs.page.toNat = true → o.toNat < 0x60 → wideField s.regs.page.toNat o.toNat = none →
    byteFields s.regs.page.toNat o.toNat ≠ [] → pageLocked s s.regs.page.toNat = false →
    mergeByte (byteFields s.regs.page.toNat o.toNat) (fun _ => true) (sg s (stKey s s.regs.page.toNat o.toNat)) v = (b, true) →
    Ends (.registerWrite ⟨o, .writeByte, 0, [v], .none⟩) s (fun t => t.regs = (putStg (stKey s s.regs.page.toNat o.toNat) [b] s).regs ∧
      t.glob = { s.glob with keyArmed := false, buserr := setBit s.glob.buserr 1 true } ∧
      (s.glob.buserr.getLsbD 1 = false → isPend t (16 * 56 + 12) = true) ∧ Only ([.regs, .glob] ++ raiseParts) s t)) ∧
  (∀ s (r : Rail) v, Served s → pecOn s = false → s.regs.page = 0x20 → pageLocked s 0x20 = false →
    Ends (.registerWrite ⟨BitVec.ofNat 8 r.val, .writeByte, 0, [v], .none⟩) s (fun t => sg t (key 0x20 r.val) = v ∧ lv t (key 0x20 r.val) = lv s (key 0x20 r.val))) ∧
  (∀ s (o : Byte) v, Served s → pecOn s = false → stagedPages.contains s.regs.page.toNat = true → o.toNat < 0xE0 →
    (o.toNat < 0x60 ∧ pageLocked s s.regs.page.toNat = true ∨ 0x80 ≤ o.toNat) →
    Ends (.registerWrite ⟨o, .writeByte, 0, [v], .none⟩) s (fun t => t.regs = s.regs ∧ t.bus.nack = false ∧
      t.glob = { s.glob with keyArmed := false, buserr := setBit s.glob.buserr 0 true } ∧
      (s.glob.buserr.getLsbD 0 = false → isPend t (16 * 56 + 12) = true) ∧ Only ([.glob] ++ raiseParts) s t)) ∧
  (∀ s (o : Byte) v f i, Served s → pecOn s = false → stagedPages.contains s.regs.page.toNat = true → o.toNat < 0x60 → pageLocked s s.regs.page.toNat = false →
    wideField s.regs.page.toNat o.toNat = some f → f.len = 2 → (o.toNat = f.off ∧ i = f.off + 1 ∨ o.toNat = f.off + 1 ∧ i = f.off) →
    heldAt s (key s.regs.page.toNat i) = none → Ends (.registerWrite ⟨o, .writeByte, 0, [v], .none⟩) s (fun t =>
      t.regs = { s.regs with held := minsert (key s.regs.page.toNat o.toNat) v s.regs.held } ∧ Only [.regs, .glob, .bus, .clk] s t)) ∧
  (∀ s (o : Byte) v u f, Served s → pecOn s = false → stagedPages.contains s.regs.page.toNat = true → o.toNat < 0x60 → pageLocked s s.regs.page.toNat = false →
    wideField s.regs.page.toNat o.toNat = some f → f.len = 2 → f.w = 16 → o.toNat = f.off + 1 → heldAt s (key s.regs.page.toNat f.off) = some u →
    f.legal (leNat [u, v]) = true → Ends (.registerWrite ⟨o, .writeByte, 0, [v], .none⟩) s (fun t =>
      sg t (key s.regs.page.toNat f.off) = u ∧ sg t (key s.regs.page.toNat o.toNat) = v ∧ heldAt t (key s.regs.page.toNat f.off) = none ∧
      heldAt t (key s.regs.page.toNat o.toNat) = none ∧ t.regs.live = s.regs.live ∧ Only [.regs, .glob, .bus, .clk] s t)) ∧
  (∀ s (o : Byte) v, Served s → pecOn s = false → o.toNat < 0xE0 → s.bus.level = 0 →
    (fieldsOf s.regs.page.toNat).any (fun f => decide (f.acc = .lk ∧ f.off ≤ o.toNat ∧ o.toNat < f.off + f.len)) = true →
    Ends (.registerWrite ⟨o, .writeByte, 0, [v], .none⟩) s (fun t => t.regs = s.regs ∧ t.bus.nack = false ∧
      t.glob = { s.glob with keyArmed := false, buserr := setBit s.glob.buserr 2 true } ∧
      (s.glob.buserr.getLsbD 2 = false → isPend t (16 * 56 + 12) = true) ∧ Only ([.glob] ++ raiseParts) s t)) ∧
  (∀ s v, Served s → pecOn s = false → s.bus.level ≠ 0 → s.regs.page = 0x24 → v ≠ 0 → Ends (.registerWrite ⟨0x04, .writeByte, 0, [v], .none⟩) s (fun t =>
    t.regs = (putPlain (key 0x24 4) [v] s).regs ∧ t.glob.buserr = s.glob.buserr ∧ Armed (sec (10 * (pl s (key 0x4C 5)).toNat)) .sesstmo s t ∧
    Only [.regs, .glob, .bus, .clk] s t)) ∧
  (∀ s (o : Byte) v, Served s → pecOn s = false → o.toNat < 0xE0 → allocated s.regs.page.toNat = false →
    Ends (.registerWrite ⟨o, .writeByte, 0, [v], .none⟩) s (fun t => t.regs = s.regs ∧ t.bus.nack = false ∧
      t.glob = { s.glob with keyArmed := false, buserr := setBit s.glob.buserr 3 true } ∧
      (s.glob.buserr.getLsbD 3 = false → isPend t (16 * 56 + 12) = true) ∧ Only ([.glob] ++ raiseParts) s t)) ∧
  (∀ s w op tag len ps c, packetsTaken s = true → w.code = 0xE0 → w.proto = .block → w.data = op :: tag :: len :: ps → w.count ≠ 0 → w.count ≤ 64 →
    slotFree s = true → pecFails s w.pec = false → packetCommand op ⟨w.count, tag, len, ps⟩ s = some c → Ends (.registerWrite w) s (fun t =>
      t.pending = c :: s.pending ∧ t.bus.cstat = 1 ∧ t.bus.tag = tag ∧ t.bus.err = 0 ∧ t.bus.cres = [] ∧ t.bus.nack = false ∧ Only [.pending, .bus, .txn, .free] s t)) ∧
  (∀ s w op tag len ps, packetsTaken s = true → w.code = 0xE0 → w.proto = .block → w.data = op :: tag :: len :: ps → w.count ≤ 64 → w.count = len.toNat + 3 →
    slotFree s = true → pecFails s w.pec = false → packetCommand op ⟨w.count, tag, len, ps⟩ s = none → Ends (.registerWrite w) s (fun t =>
      t.bus.cstat = 5 ∧ t.bus.err = 0xF0 ∧ t.bus.tag = tag ∧ t.pending = s.pending)) ∧
  (∀ s (g : Fin 64) v, Served s → Ends (.pendWrite g v) s (fun t => pendOf t g.val = pendOf s g.val &&& (v ||| sameTick s g.val) ∧ (∀ h, h < 64 → h ≠ g.val → pendOf t h = pendOf s h) ∧
    t.irq.ovr = (if pendOf s g.val &&& ~~~v &&& ~~~(sameTick s g.val) &&& mget 0xFFFF s.irq.late g.val ≠ 0 then setBit s.irq.ovr g.val true else s.irq.ovr) ∧
    t.irq.mask = s.irq.mask ∧ t.irq.route = s.irq.route ∧ Only [.irq, .bus, .glob, .clk] s t)) ∧
  (∀ s (g : Fin 64) v, Served s → Ends (.maskWrite g v) s (fun t => maskOfG t g.val = v ∧ (∀ h, h < 64 → h ≠ g.val → maskOfG t h = maskOfG s h) ∧ t.irq.pend = s.irq.pend ∧
    t.irq.route = s.irq.route ∧ Only [.irq, .bus, .glob, .clk] s t)) ∧
  (∀ s (g : Fin 64) v (b : Fin 16), Served s → isPend s (16 * g.val + b.val) = true → v.getLsbD b.val = false → (routeOf s (16 * g.val + b.val)).toNat ≤ 4 →
    Ends (.maskWrite g v) s (fun t => deliveredTo t (16 * g.val + b.val) = some (routeOf s (16 * g.val + b.val)).toNat)) ∧
  (∀ s (g : Fin 64) v (b : Fin 16), Served s → v.getLsbD b.val = true → Ends (.maskWrite g v) s (fun t => deliveredTo t (16 * g.val + b.val) = none)) ∧
  (∀ s (q : Fin 4) (o : Fin 128) v, Served s → routeReserved (v.toNat % 16) = false → routeReserved (v.toNat / 16) = false → Ends (.routeWrite q o v) s (fun t =>
    (routeOf t (256 * q.val + 2 * o.val)).toNat = v.toNat % 16 ∧ (routeOf t (256 * q.val + 2 * o.val + 1)).toNat = v.toNat / 16 ∧ t.irq.pend = s.irq.pend ∧
    t.irq.mask = s.irq.mask ∧ Only [.irq, .bus, .glob, .clk] s t)) ∧
  (∀ s (q : Fin 4) (o : Fin 128) v, Served s → (routeReserved (v.toNat % 16) = true ∨ routeReserved (v.toNat / 16) = true) → Ends (.routeWrite q o v) s (fun t =>
    t.irq.route = s.irq.route ∧ t.glob.buserr.getLsbD 1 = true)) ∧
  (∀ s v k, Served s → v.toNat < 32 → v ≠ 0 → k < 1024 → isPend s k = true → isMasked s k = false → routeOf s k = 8 → mget 0 s.irq.asg k = 0 → Ends (.rrmaskWrite v) s (fun t =>
    mget 0 t.irq.asg k ≠ 0 ∧ v.getLsbD (mget 0 t.irq.asg k - 1) = true ∧ t.irq.pend = s.irq.pend)) ∧
  (∀ s v, Served s → v.toNat < 32 → Ends (.rrmaskWrite v) s (fun t => (pl t (key 0x56 0)).toNat % 32 = v.toNat ∧ Only [.regs, .irq, .bus, .glob, .clk] s t)) ∧
  (∀ s (i : Fin 8) v, Served s → Ends (.ovrclr i v) s (fun t => t.irq = { s.irq with ovr := s.irq.ovr &&& ~~~(at64 i.val v) } ∧ Acked s t ∧ Only [.irq, .bus, .glob, .clk] s t)) ∧
  (∀ s (i : Fin 8) v, Served s → Ends (.wlclr i v) s (fun t => t.pwr = { s.pwr with wl := s.pwr.wl &&& ~~~(at64 i.val v &&& ~~~(latchedNow s)) } ∧ Acked s t ∧ Only [.pwr, .bus, .glob, .clk] s t)) ∧
  (∀ s (i : Fin 2) v (b : Fin 8), Served s → s.glob.st = .run → v.getLsbD b.val = true → Ends (.testtrig i v) s (fun t => isPend t (1008 + 8 * i.val + b.val) = true ∧
    t.rl = s.rl)) ∧
  (∀ s (q : Fin 4), armedAhead (.intPulseEnd q) s = false → exec (.intPulseEnd q) s = .next (disarm (.intPulseEnd q) { s with irq := { s.irq with pulse := setBit s.irq.pulse q.val false } })) ∧
  (∀ s (k : Fin 1024), fwOn s = true → deliveredTo s k.val = some 4 → logWaits s k.val = false → Ends (.fwIntService k) s (fun t => isPend t k.val = false ∧
    (∀ j, j < 1024 → j ≠ k.val → isPend t j = isPend s j) ∧ t.irq.ovr = s.irq.ovr ∧ Only [.irq, .clk, .bus] s t)) ∧
  (∀ s (k : Fin 1024), deliveredTo s k.val ≠ some 4 → exec (.fwIntService k) s = .next s)

/-- Writes of command codes (R8, R27, R339, R343, R344, R347). ANGOFS, a plain byte, takes the byte written and no other register changes;
a write to the read-only offset 0x04 of page 0x01 changes no register and sets BUSERR.RORSV, raising BUSERR when the bit is new; an
unlisted code is not acknowledged; PAGE selects a page; CRESOFS takes 0 to 511 and sets BUSERR.RSVENC above. A Quick Command and a Send Byte are
acknowledged and have no effect; with PEC off a Receive Byte returns the STATE byte.

The sleep-rate responder (R335): in SLEEP it takes PAGE for pages 0x00, 0x48 and 0x60 and for no other, and acknowledges no
write to any other command code outside page 0x48 and the wake register of page 0x60.
Where the spec leaves a corner open, the clauses follow log entry 25, the model's choice. -/
def Obligations.HostWritesAndSleepResponder : Prop :=
  (∀ s v, Served s → pecOn s = false → s.regs.page = 1 →
    Ends (.registerWrite ⟨0x0C, .writeByte, 0, [v], .none⟩) s (fun t => t.regs = { s.regs with plain := rput s.regs.plain (key 1 0x0C) v } ∧
      t.glob = { s.glob with keyArmed := false } ∧ t.bus = { s.bus with nack := false } ∧ Only [.regs, .glob, .bus, .clk] s t)) ∧
  (∀ s v, Served s → pecOn s = false → s.regs.page = 1 → s.glob.buserr.getLsbD 0 = false →
    Ends (.registerWrite ⟨0x04, .writeByte, 0, [v], .none⟩) s (fun t => t.regs = s.regs ∧
      t.glob = { s.glob with keyArmed := false, buserr := setBit s.glob.buserr 0 true } ∧ isPend t (16 * 56 + 12) = true)) ∧
  (∀ s w, busUp s = true → listed w.code = false → exec (.registerWrite w) s = .next { s with bus := { s.bus with nack := true } }) ∧
  (∀ s v, Served s → exec (.pageWrite v) s =
    .next { s with regs := { s.regs with page := v }, bus := { s.bus with nack := false } }) ∧
  (∀ s v, Served s → v.toNat ≤ 511 → exec (.cresofsWrite v) s = .next { s with bus := { s.bus with nack := false, ofs := v.toNat } }) ∧
  (∀ s v, Served s → 511 < v.toNat → s.glob.buserr.getLsbD 1 = false → Yields (.cresofsWrite v) s
    { s with bus := { s.bus with nack := false }, glob := { s.glob with buserr := setBit s.glob.buserr 1 true } } [16 * 56 + 12]) ∧
  (∀ s, busUp s = true → exec (.quickCommand .quick) s = .next { s with bus := { s.bus with nack := false } }) ∧
  (∀ s v, Served s → exec (.quickCommand (.send v)) s = .next { s with bus := { s.bus with nack := false } }) ∧
  (∀ s, busUp s = true → pecOn s = false → exec (.quickCommand .receive) s = .next { s with bus := { s.bus with nack := false, rdata := [stateByte s] } }) ∧
  (∀ s v, s.glob.st = .sleep → vaonOn s = true → (v = 0x00 ∨ v = 0x48 ∨ v = 0x60) → exec (.pageWrite v) s =
    .next { s with regs := { s.regs with page := v }, bus := { s.bus with nack := false } }) ∧
  (∀ s v, s.glob.st = .sleep → vaonOn s = true → ¬(v = 0x00 ∨ v = 0x48 ∨ v = 0x60) → exec (.pageWrite v) s =
    .next { s with bus := { s.bus with nack := true } }) ∧
  (∀ s w, s.glob.st = .sleep → vaonOn s = true → w.code ≠ 0xF0 → (0xE0 ≤ w.code.toNat ∨ sleepWritesAt s.regs.page.toNat w.code.toNat = false) →
    exec (.registerWrite w) s = .next { s with bus := { s.bus with nack := true } })

/-- The bus engine's own events and clears (R342, R343, R347, R350, R352, R383). TIMEOUT counts a stuck clock, where HBCFG.TMO
is on, and a held SDA. The alert response drives the device's address while nALERT is driven (the byte is the model's reading, log entry 24);
where it wins, nALERT is released, and where it loses, it is not. A Host Notify that is sent raises HNSENT, one that is NACKed HNNACK; a lost
arbitration before the third is counted, and SDA stuck low suspends it with HNSTUCK. HNSUSP_CLEAR lifts the suspension, HELDCLR drops the held
registers, CNTCLR clears PECCNT, TMOCNT and CMDNACKN. -/
def Obligations.BusEvents : Prop :=
  (∀ s, busUp s = true → (pl s (key 0x4C 0)).getLsbD 1 = true → Yields .hbTimeout s
    { s with bus := { s.bus with tmocnt := min 0xFFFF (1 + s.bus.tmocnt) } } [16 * 56 + 1]) ∧
  (∀ s, busUp s = true → Yields .sdaHoldTimeout s { s with bus := { s.bus with tmocnt := min 0xFFFF (1 + s.bus.tmocnt) } } [16 * 56 + 1]) ∧
  (∀ s, busUp s = true → s.irq.alert = true → exec (.alertResponse true) s =
    .next { s with irq := { s.irq with alert := false }, bus := { s.bus with nack := false, rdata := [by8 (2 * ownAddr s)] } }) ∧
  (∀ s, busUp s = true → s.irq.alert = true → exec (.alertResponse false) s = .next { s with bus := { s.bus with nack := false } }) ∧
  (∀ s, mayNotify s = true → Yields (.hostNotify .sent) s
    { s with bus := { s.bus with hn := s.bus.hn - 1, hnLost := 0, rdata := notifyBytes s } } [16 * 56 + 2]) ∧
  (∀ s, mayNotify s = true → Yields (.hostNotify .nack) s
    { s with bus := { s.bus with hn := s.bus.hn - 1, hnLost := 0, rdata := (notifyBytes s).take 1 } } [16 * 56 + 3]) ∧
  (∀ s, mayNotify s = true → s.bus.hnLost < 2 → exec (.hostNotify (.lost .data)) s =
    .next { s with bus := { s.bus with hnLost := s.bus.hnLost + 1 } }) ∧
  (∀ s, mayNotify s = true → Yields .hnstuck s { s with bus := { s.bus with hnsusp := true } } [16 * 56 + 6]) ∧
  (∀ s, exec .hnsuspClear s = .next { s with bus := { s.bus with hnsusp := false } }) ∧
  (∀ s, Served s → Ends .heldclr s (fun t => t.regs = { s.regs with held := [] } ∧ t.bus = { s.bus with nack := false } ∧
    t.glob = { s.glob with keyArmed := false } ∧ Only [.regs, .bus, .glob, .clk] s t)) ∧
  (∀ s, Served s → Ends .cntclr s (fun t => t.bus = { s.bus with nack := false, peccnt := 0, tmocnt := 0, nackn := 0 } ∧
    t.glob = { s.glob with keyArmed := false } ∧ Only [.bus, .glob, .clk] s t))

/-- ECHO returns its parameters and GET_INFO its sixteen bytes, each done with ERR 0x00; GET_INFO with parameters is rejected with 0x01 (R355,
R361, R362).

Every packet is checked in one order before its own rules (R353, R354, R357): not taken in Floor mode or without firmware (NACK);
byte count 0 or above 64 (NACK, BUSERR.RSVENC); slot not free (NACK, CMDNACKN and CMDNACK); N other than LEN + 3 (rejected, 0xF1);
a privileged opcode at session level 0 (rejected, 0xF2). Shown for ECHO and, the last, OTP_LOCK.
Where the spec leaves a corner open, the clauses follow log entry 35, the model's choice. -/
def Obligations.CommandSlot : Prop :=
  (∀ s p, Takes false p s → Ends (.echo p) s (fun t => SlotShows 3 0 p.params p t ∧ Only [.bus, .txn] s t)) ∧
  (∀ s p, Takes false p s → p.params = [] → Ends (.getInfo p) s (fun t => SlotShows 3 0 (infoBytes s) p t ∧ Only [.bus, .txn] s t)) ∧
  (∀ s p, Takes false p s → p.params ≠ [] → Ends (.getInfo p) s (fun t => SlotShows 5 1 [] p t ∧ Only [.bus, .txn] s t)) ∧
  (∀ s p, packetsTaken s = false → exec (.echo p) s = .next { s with bus := { s.bus with nack := true } }) ∧
  (∀ s p, packetsTaken s = true → accepted 0x01 p s = false → (p.n = 0 ∨ 64 < p.n) → s.glob.buserr.getLsbD 1 = false → Yields (.echo p) s
    { s with bus := { s.bus with nack := true }, glob := { s.glob with buserr := setBit s.glob.buserr 1 true } } [16 * 56 + 12]) ∧
  (∀ s p, packetsTaken s = true → accepted 0x01 p s = false → p.n ≠ 0 → p.n ≤ 64 → slotFree s = false → Yields (.echo p) s
    { s with bus := { s.bus with nack := true, nackn := min 0xFFFF (1 + s.bus.nackn) } } [16 * 56 + 11]) ∧
  (∀ s p, packetsTaken s = true → p.n ≠ 0 → p.n ≤ 64 → slotFree s = true → p.n ≠ p.len.toNat + 3 → Ends (.echo p) s (fun t =>
    SlotShows 5 0xF1 [] p t ∧ Only [.bus, .txn] s t)) ∧
  (∀ s p ok, Takes false p s → s.bus.level = 0 → Ends (.otpLock p ok) s (fun t => SlotShows 5 0xF2 [] p t ∧ Only [.bus, .txn] s t))

/-- Privileged sessions (R358, R359). SESSION_OPEN of level 1 or 2, with no session, no lock and a key that is not all zeros, returns a nonce that lives
10 s. The matching proof opens the session of its level with SESSOPEN; another proof of 16 bytes is rejected with 0x02, uses the nonce up and counts, and
the third wrong one in a row locks for 60 s. SESSION_CLOSE and SESSTMO end the session, with SESSCLOSE where one was open; the ends of nonce and lock
take them away, the failure count with the lock.
Where the spec leaves a corner open, the clauses follow log entry 9, the model's choice. -/
def Obligations.Sessions : Prop :=
  (∀ s p v, Takes false p s → p.params = [v] → (v = 1 ∨ v = 2) → s.bus.level = 0 → s.bus.lock = false →
    ¬(∀ i, i < 64 → fuse s.otp.shd 4 i = 0) → Ends (.sessionOpen p) s (fun t => SlotShows 3 0 (nonceNow s) p t ∧
      t.bus.nonce = some (nonceNow s, v.toNat) ∧ ⟨s.clk.now + sec 10, .nonceExpire⟩ ∈ t.clk.timers ∧ t.bus.level = 0 ∧
      Only [.bus, .txn, .free, .clk] s t)) ∧
  (∀ s p n l, Takes false p s → s.bus.nonce = some (n, l) → p.params.length = 16 → s.bus.lock = false →
    p.params = sessionProof ((List.range 64).map (fuse s.otp.shd 4)) n l → Ends (.sessionProve p) s (fun t =>
      SlotShows 3 0 [] p t ∧ t.bus.level = l ∧ t.bus.nonce = none ∧ t.bus.failn = 0 ∧ isPend t (16 * 56 + 8) = true)) ∧
  (∀ s p n l, Takes false p s → s.bus.nonce = some (n, l) → p.params.length = 16 → s.bus.lock = false →
    p.params ≠ sessionProof ((List.range 64).map (fuse s.otp.shd 4)) n l → Ends (.sessionProve p) s (fun t =>
      SlotShows 5 2 [] p t ∧ t.bus.level = s.bus.level ∧ t.bus.nonce = none ∧ t.bus.failn = s.bus.failn + 1 ∧
      t.bus.lock = decide (2 ≤ s.bus.failn) ∧ (2 ≤ s.bus.failn → Armed (sec 60) .sesslockEnd s t))) ∧
  (∀ s p, Takes false p s → Ends (.sessionClose p) s (fun t => SlotShows 3 0 [] p t ∧ t.bus.level = 0 ∧ (s.bus.level ≠ 0 → isPend t (16 * 56 + 9) = true))) ∧
  (∀ s, anvilOn s = true → s.bus.level ≠ 0 → Ends .sesstmo s (fun t => t.bus.level = 0 ∧ isPend t (16 * 56 + 9) = true)) ∧
  (∀ s, Ends .nonceExpire s (fun t => t.bus = { s.bus with nonce := none } ∧ Only [.bus, .clk] s t)) ∧
  (∀ s, s.bus.lock = true → Ends .sesslockEnd s (fun t => t.bus = { s.bus with lock := false, failn := 0 } ∧ Only [.bus, .clk] s t))

/-- The downstream port (R351, R365 to R367). A transfer within its limits starts, another is rejected with 0x01; it ends done with its bytes, or with the
error and the event of a NACK, however many tries it had, or of a fourth lost arbitration, while an earlier loss tries again. A poll that is due starts as
a Read Word; it stores its word, or fails with its event and POLLERR where the failure is new. A stretch ends the transfer with 0x06. SCL stuck low fails the port, and with DSCUT.VALID the cut takes its rail off
without OFFHOLD and arms its restart. A clear that frees SDA says so; one that does not goes to the second round, and after that fails the port. The
cut rails that are off and not held restart after DSCUTT under R144, each at its ONDLY after the smallest one, and the last clear of R367 stands due; where
none of them is off the cut just ends. A clear that is found necessary shows BUSY. DSCTL.CLR clears FAILED and STUCKSCL and asks for a clear while the port is on.
Where the spec leaves a corner open, the clauses follow log entry 40, the model's choice. -/
def Obligations.DownstreamPort : Prop :=
  (∀ s p a w q bs, Takes false p s → p.params = a :: w :: q :: bs → a.msb = false → w.toNat ≤ 58 → q.toNat ≤ 64 → bs.length = w.toNat →
    (pl s (key 0x4D 0)).getLsbD 0 = true → s.ds.failed = false → Ends (.dsXfer p) s (fun t => t.bus.cstat = 2 ∧ t.bus.tag = p.tag ∧
      t.ds = { s.ds with job := some ⟨a.toNat, bs, q.toNat, 0, dsWritePec s a.toNat bs q.toNat⟩ } ∧ Only [.bus, .txn, .ds] s t)) ∧
  (∀ s p a w q bs, Takes false p s → p.params = a :: w :: q :: bs → (a.msb = true ∨ 58 < w.toNat ∨ 64 < q.toNat ∨ bs.length ≠ w.toNat) → Ends (.dsXfer p) s (fun t =>
    SlotShows 5 1 [] p t ∧ Only [.bus, .txn] s t)) ∧
  (∀ s bs j, fwOn s = true → s.ds.clearing = 0 → s.ds.poll = none → s.ds.pollDue = false → s.ds.job = some j → slotHas s 0x03 = true → exec (.dsXferDone (.data bs)) s = .next { s with
    ds := { s.ds with job := none }, bus := { s.bus with cstat := 3, err := 0, cres := padTo j.q bs } }) ∧
  (∀ s j c r k, fwOn s = true → s.ds.clearing = 0 → s.ds.poll = none → s.ds.pollDue = false → s.ds.job = some j → slotHas s 0x03 = true → 3 ≤ j.tries →
    ((c = .dsXferDone (.lost .data) ∧ r = 4 ∧ k = 914) ∨ (c = .dsXferDone (.lost .stop) ∧ r = 4 ∧ k = 915) ∨ (c = .dsXferDone (.lost .restart) ∧ r = 4 ∧ k = 916)) →
      Ends c s (fun t => t.ds = { s.ds with job := none } ∧ t.bus.cstat = 4 ∧ t.bus.err = r ∧ isPend t k = true ∧ Only ([.ds] ++ raiseParts) s t)) ∧
  (∀ s j, fwOn s = true → s.ds.clearing = 0 → s.ds.poll = none → s.ds.job = some j → j.tries < 3 → Yields (.dsXferDone (.lost .data)) s
    { s with ds := { s.ds with job := some { j with tries := j.tries + 1 } } } [914]) ∧
  (∀ s k bs, mayPoll s = true → nextPoll s = some k → exec (.dsPoll (some (.data bs))) s = .next { s with ds := { s.ds with
    val := mput 0 s.ds.val k (BitVec.ofNat 16 (leNat (bs.take 2))),
    ok := setBit s.ds.ok k true, bad := setBit s.ds.bad k false, pollIdx := (k + 1) % 12, pollTries := 0 } }) ∧
  (∀ s k, mayPoll s = true → nextPoll s = some k → s.ds.bad.getLsbD k = false → Yields (.dsPoll (some .nackAddr)) s { s with ds := { s.ds with
    ok := setBit s.ds.ok k false, bad := setBit s.ds.bad k true, pollIdx := (k + 1) % 12, pollTries := 0 } } [912, 922]) ∧
  (∀ s j, portOn s = true → s.ds.failed = false → s.ds.poll = none → s.ds.pollDue = false → s.ds.job = some j → slotHas s 0x03 = true → Ends .scltmo s (fun t => t.ds = { s.ds with job := none } ∧
    t.bus.cstat = 4 ∧ t.bus.err = 6 ∧ isPend t 918 = true)) ∧
  (∀ s, portOn s = true → s.ds.failed = false → (pl s (key 0x4D 2)).getLsbD 7 = false → Ends .stuckscl s (fun t => t.ds = { s.ds with
    failed := true, stuckScl := true, clearing := 0, job := none, pollDue := false, poll := none } ∧ isPend t 920 = true ∧ Only ([.ds] ++ raiseParts) s t)) ∧
  (∀ s, portOn s = true → Running s → s.ds.failed = false → (pl s (key 0x4D 2)).getLsbD 7 = true → Ends .stuckscl s (fun t => t.ds.failed = true ∧ t.ds.cut = true ∧
    has t.rl.en (cutRail s) = false ∧ t.seq.offhold = s.seq.offhold ∧ isPend t 920 = true ∧ isPend t 921 = true ∧
    Armed (ms (10 * (pl s (key 0x4D 3)).toNat)) .dsCutRestart s t)) ∧
  (∀ s, portOn s = true → s.ds.failed = false → s.ds.pollDue = false → (s.ds.clearing = 0 ∨ s.ds.clearing = 3) → Yields (.dsBusClear (some true)) s { s with ds := { s.ds with clearing := 0, stuckSda := false } } [919]) ∧
  (∀ s, portOn s = true → s.ds.failed = false → (s.ds.clearing = 0 ∨ s.ds.clearing = 3) → exec (.dsBusClear (some false)) s = .next { s with ds := { s.ds with clearing := 1 } }) ∧
  (∀ s b, portOn s = true → s.ds.clearing = 1 → s.ds.pollDue = false → Yields (.dsClearRetry true b) s { s with ds := { s.ds with clearing := 0, stuckSda := false } } [919]) ∧
  (∀ s b, portOn s = true → s.ds.clearing = 1 → s.ds.failed = false → (pl s (key 0x4D 2)).getLsbD 7 = false → Ends (.dsClearRetry false b) s (fun t => t.ds = { s.ds with
    failed := true, stuckSda := true, clearing := 0, job := none, pollDue := false, poll := none } ∧ isPend t 917 = true ∧ isPend t 920 = true)) ∧
  (∀ s, Running s → s.ds.cut = true → s.ds.cutSet &&& ~~~s.rl.en = 0 → Ends .dsCutRestart s (fun t => t.ds.cut = false ∧ t.ds.cutSet = 0 ∧ t.rl.en = s.rl.en)) ∧
  (∀ s, Served s → Ends .dsctlClr s (fun t => t.ds = { s.ds with
    failed := false, stuckScl := false, clearing := if portOn s then 3 else 0,
    pollDue := t.ds.pollDue, poll := t.ds.poll } ∧ Acked s t ∧
    Only [.ds, .bus, .glob, .clk] s t)) ∧
  (∀ s j c r k, fwOn s = true → s.ds.clearing = 0 → s.ds.poll = none → s.ds.pollDue = false → s.ds.job = some j → slotHas s 0x03 = true →
    ((c = .dsXferDone .nackAddr ∧ r = 2 ∧ k = 912) ∨ (c = .dsXferDone .nackData ∧ r = 3 ∧ k = 913)) →
      Ends c s (fun t => t.ds = { s.ds with job := none } ∧ t.bus.cstat = 4 ∧ t.bus.err = r ∧ isPend t k = true ∧ Only ([.ds] ++ raiseParts) s t)) ∧
  (∀ s, portOn s = true → s.ds.failed = false → (s.ds.clearing = 0 ∨ s.ds.clearing = 3) → exec (.dsBusClear none) s = .next { s with ds := { s.ds with clearing := 3 } }) ∧
  (∀ s k, mayPoll s = true → nextPoll s = some k → Ends (.dsPoll none) s (fun t => t.ds = { s.ds with
    pollDue := false, poll := some (k, ⟨rdBits (pl s) (key 0x4D (0x10 + k)) 0 7, [pl s (key 0x4D (0x20 + k))], 2, 0, none⟩) } ∧
    Armed (ms (10 * (pl s (key 0x4D 4)).toNat)) (.dsPoll none) s t ∧ Only [.ds, .clk] s t)) ∧
  (∀ s m (r : Rail), Running s → s.ds.cut = true → m = maskOf (fun x => has s.ds.cutSet x && !has s.rl.en x && !heldRail s x) → has m r.val = true →
    Ends .dsCutRestart s (fun t => t.ds.cut = false ∧ t.ds.recheck = true ∧ t.ds.cutSet = m ∧ has t.seq.wait r.val = true ∧
      Armed ((onDly (lv s) r.val - (rails m).foldl (fun n x => min n (onDly (lv s) x)) 255) *
        tickLen (match s.seq.t0 with | some _ => s.seq.tick | none => tickCode (lv s))) (.railEnable r) s t))

/-- SELF_RESET (R364; for the rails in a retry R161 with R147, R148 and R159). In RUN or STANDBY it sets RSTCAUSE.CMDRST, and the reverse sequence runs to its end with the command busy where
a rail is up that it waits for (of the rails in a retry only those that are on); where there is none, the
reset is there at once. With a length, or in another state, it is rejected with ERR 0x01. -/
def Obligations.SelfReset : Prop :=
  (∀ s p, Takes false p s → p.params = [] → (s.glob.st = .run ∨ s.glob.st = .standby) → s.glob.boot = false → Ends (.selfReset p) s (fun t => t.glob.rstcause.getLsbD 3 = true ∧
    (s.rl.up &&& (~~~s.seq.retryWait ||| s.rl.en) ≠ 0 → t.glob.st = .stop ∧ t.glob.pendRst = some .cmd ∧ t.seq.complete = true ∧ t.bus.cstat = 2 ∧ t.bus.tag = p.tag) ∧
    (s.rl.up &&& (~~~s.seq.retryWait ||| s.rl.en) = 0 → Booting t))) ∧
  (∀ s p, Takes false p s → (p.params ≠ [] ∨ (s.glob.st ≠ .run ∧ s.glob.st ≠ .standby)) → Ends (.selfReset p) s (fun t => SlotShows 5 1 [] p t ∧ Only [.bus, .txn] s t))

/-! Interrupts (14_interrupts.md). -/

/-- Delivery (R379), outside Floor mode, in which R381 and R387 set it otherwise: a source is delivered while it is pending, not masked, and its route resolves to a target; a class F source
resolves to its static target. -/
def Obligations.Delivery : Prop :=
  ∀ s k, s.glob.floor = false → ((∃ q, deliveredTo s k = some q) ↔ (isPend s k = true ∧ (maskOfG s (k / 16)).getLsbD (k % 16) = false ∧ ∃ q, targetOf s k = some q)) ∧
    ((routeOf s k).toNat ≤ 4 → targetOf s k = some (routeOf s k).toNat)

/-! Flash store and event log (15_nvm_log.md). -/

/-- The flash store (R228, R393, R396, R397, R400 to R404). A slot whose verify passes, in a sector short of its end of life, writes the bank that is not
the newest, with the next number: the snapshot with SNAPWR and the other bank kept; the configuration with CFGSAVED, one erase counted (and the
interrupted one before it) and the other bank kept; Patina's results; the gauge's capacity. A failed verify of the configuration retires its
sector for a spare, with its events, and the save ends in the spare. A save whose store has become read-only meanwhile writes no bank and ends with CFGFAIL. CFGSAVE captures what is in force; it is refused with BUSERR.RORSV while a save runs,
and it fails with CFGFAIL in a read-only store. A scrub step falls due, with its hour; done, the next sector and its step follow; one that fails it
is queued for refresh. A step overdue for 1 h is reported once. Without a slot nothing ends.
Where the spec leaves a corner open, the clauses follow log entry 36, the model's choice. -/
def Obligations.FlashStore : Prop :=
  (∀ s, fwOn s = true → s.fl.slot = some .snap → Landable s (200 + (snapSecond s).toNat) → readOnly 200 s = false → Ends (.flashSlotDone true) s (fun t =>
    (if snapSecond s then t.safe.bank1 else t.safe.bank0) = some ⟨snapSeq s + 1, s.safe.cap⟩ ∧ (if snapSecond s then t.safe.bank0 = s.safe.bank0 else t.safe.bank1 = s.safe.bank1) ∧
    t.safe.snapHeld = false ∧ t.safe.snapMiss = 0 ∧ isPend t 954 = true ∧ t.fl.log = s.fl.log)) ∧
  (∀ s (c : CfgImg), fwOn s = true → s.fl.slot = some .cfg → s.fl.capture = some c → Landable s (192 + 4 * (cfgSecond s).toNat) → readOnly 192 s = false → Ends (.flashSlotDone true) s (fun t =>
    (if cfgSecond s then t.fl.cfgB else t.fl.cfgA) = some { c with seq := nextSeq (s.fl.cfgA.map CfgImg.seq) (s.fl.cfgB.map CfgImg.seq) } ∧
    (if cfgSecond s then t.fl.cfgA = s.fl.cfgA else t.fl.cfgB = s.fl.cfgB) ∧ t.fl.capture = none ∧ t.fl.cfgSt = 2 ∧ isPend t 848 = true ∧
    (sector t (physical s (192 + 4 * (cfgSecond s).toNat))).count = some (newCount (sector s (physical s (192 + 4 * (cfgSecond s).toNat)))))) ∧
  (∀ s (c : CfgImg), fwOn s = true → s.fl.slot = some .cfg → s.fl.capture = some c → Landable s (192 + 4 * (cfgSecond s).toNat) → readOnly 192 s = false → freeSpares s ≠ [] →
    Ends (.flashSlotDone false) s (fun t => (sector t (physical s (192 + 4 * (cfgSecond s).toNat))).retired = true ∧ t.fl.cfgSt = 2 ∧ t.fl.capture = none ∧
      isPend t 863 = true ∧ isPend t 858 = true ∧ isPend t 848 = true)) ∧
  (∀ s, fwOn s = true → s.fl.slot = some .pat → Landable s (202 + (patSecond s).toNat) → readOnly 202 s = false → Ends (.flashSlotDone true) s (fun t => t.fl.wantPat = false ∧
    ((if patSecond s then t.pat.bankB else t.pat.bankA).map PatBank.seq) = some (nextSeq (s.pat.bankA.map PatBank.seq) (s.pat.bankB.map PatBank.seq)) ∧
    ((if patSecond s then t.pat.bankB else t.pat.bankA).map PatBank.res) = some s.pat.res ∧ t.pat.res = s.pat.res)) ∧
  (∀ s, fwOn s = true → s.fl.slot = some .gauge → Landable s (204 + (gauSecond s).toNat) → readOnly 204 s = false → Ends (.flashSlotDone true) s (fun t =>
    t.fl.wantGau = s.fl.wantGau - 1 ∧ ((if gauSecond s then t.gau.bankB else t.gau.bankA).map GauBank.seq) = some (nextSeq (s.gau.bankA.map GauBank.seq) (s.gau.bankB.map GauBank.seq)) ∧
    ((if gauSecond s then t.gau.bankB else t.gau.bankA).map GauBank.cap) = some s.gau.cap ∧ t.gau.cap = s.gau.cap)) ∧
  (∀ s n, fwOn s = true → s.fl.slot = some (.scrub n) → (sector s n).marginBad = false → Ends (.flashSlotDone true) s (fun t => t.fl.scrubDue = false ∧ t.fl.late = false ∧
    t.fl.scrubIdx = (n + 1) % 512 ∧ Armed (scrubStep s) .scrubDue s t ∧ armed .scrublate t = false ∧ t.fl.sec = s.fl.sec)) ∧
  (∀ s n, fwOn s = true → s.fl.slot = some (.scrub n) → (sector s n).retired = false → (sector s n).blank = false → Ends (.flashSlotDone false) s (fun t => n ∈ t.fl.refresh.map Prod.fst ∧ t.fl.scrubIdx = (n + 1) % 512 ∧ isPend t 968 = true)) ∧
  (∀ s b, s.fl.slot = none → exec (.flashSlotDone b) s = .next s) ∧
  (∀ s, Served s → s.fl.cfgSt ≠ 1 → s.fl.ro.getLsbD 2 = false → Ends .cfgsave s (fun t => t.fl.cfgSt = 1 ∧ t.fl.capture = some (captureCfg s) ∧ Acked s t ∧
    Only [.fl, .bus, .glob, .clk] s t)) ∧
  (∀ s, Served s → s.fl.cfgSt = 1 → Ends .cfgsave s (fun t => t.fl.capture = s.fl.capture ∧ t.fl.cfgSt = 1 ∧ t.glob.buserr.getLsbD 0 = true)) ∧
  (∀ s, Served s → s.fl.cfgSt ≠ 1 → s.fl.ro.getLsbD 2 = true → Ends .cfgsave s (fun t => t.fl.cfgSt = 3 ∧ isPend t 849 = true ∧ t.fl.capture = s.fl.capture)) ∧
  (∀ s, s.fl.scrubDue = false → s.glob.supplied = true → s.glob.st ≠ .ship → Ends .scrubDue s (fun t => t.fl.scrubDue = true ∧ t.fl.late = false ∧ t.fl.scrubSince = s.clk.now ∧
    Armed (sec 3600 + 1) .scrublate s t ∧ Only [.fl, .clk] s t)) ∧
  (∀ s, fwOn s = true → s.fl.scrubDue = true → s.fl.late = false → s.fl.scrubSince + sec 3600 < s.clk.now → Yields .scrublate s
    (disarm .scrublate { s with fl := { s.fl with late := true } }) [862]) ∧
  (∀ s (c : CfgImg) b, fwOn s = true → s.fl.slot = some .cfg → s.fl.capture = some c → readOnly 192 s = true → s.upd.want = none → Ends (.flashSlotDone b) s (fun t =>
    t.fl.cfgA = s.fl.cfgA ∧ t.fl.cfgB = s.fl.cfgB ∧ t.fl.cfgSt = 3 ∧ t.fl.capture = none ∧ isPend t 849 = true))

/-- The event log (R406 to R413). When a log slot ends, a record of another kind than EVENT is appended, ending a LOG_FLUSH with done, and an event of
a source with an open record is counted in it. LOGREP after the last raise the record closes with its count, to which the raises that wait in the queue and fold into it belong. The flush timer, with LOGFLUSH in no
schedule, and the action LOGFLUSH have what is queued written. LOG_READ within its limits is busy from progress 0; while it reads, each idle step appends its next record of 16 bytes, with nothing queued one of the log
(the model's choice, log entry 35), and with the last it is done at progress 100; outside them it is rejected with 0x01. LOG_ERASE in RUN or STANDBY starts at the last sector, with DROP and the open records cleared, is rejected
with 0x02 in a read-only log, goes on to the next lower sector, and at the first leaves the ERASED record alone, with its event and done. LOG_FLUSH
closes every record, done at once with nothing queued, else busy.
Where the spec leaves a corner open, the clauses follow log entry 37, the model's choice. -/
def Obligations.EventLog : Prop :=
  (∀ s e, fwOn s = true → s.fl.slot = some .log → s.fl.queue = [e] → s.fl.closes = [] → e.kind ≠ 0 → s.fl.run = 0 → s.fl.erasing = none → s.fl.ro.getLsbD 7 = false → s.fl.log.length < 29439 →
    Ends (.flashSlotDone true) s (fun t => t.fl.log = s.fl.log ++ [e] ∧ t.fl.queue = [] ∧ t.fl.wantLog = false ∧ (slotHas s 0x42 = true → t.bus.cstat = 3 ∧ t.bus.err = 0))) ∧
  (∀ s e, fwOn s = true → s.fl.slot = some .log → s.fl.queue = [e] → s.fl.closes = [] → e.kind = 0 → s.fl.run = 0 → s.fl.erasing = none → s.fl.opens = [⟨e.src, 0, 7⟩] →
    Ends (.flashSlotDone true) s (fun t => t.fl.log = s.fl.log ∧ t.fl.queue = [] ∧ t.fl.opens = [⟨e.src, 0, 8⟩])) ∧
  (∀ s (k : Fin 1024) o, fwOn s = true → s.fl.opens.find? (fun x => decide (x.src = k.val)) = some o → Ends (.logRecordClose k) s (fun t =>
    t.fl.closes = s.fl.closes ++ [(o.pos, o.n + foldsQueued o s)] ∧ t.fl.opens = s.fl.opens.filter (fun x => decide (x ≠ o)) ∧ t.fl.log = s.fl.log ∧ t.fl.wantLog = true ∧
    armed (.logRecordClose k) t = false ∧ Only [.fl, .clk] s t)) ∧
  (∀ s, fwOn s = true → hasAction s 6 = false → s.fl.queue ≠ [] → Ends .logTimer s (fun t => t.fl.wantLog = true ∧ Armed (sec 1) .logTimer s t ∧ Only [.fl, .clk] s t)) ∧
  (∀ s, fwRuns s = true → s.fl.queue ≠ [] → Ends .logflush s (fun t => t.fl.wantLog = true ∧ Only [.fl, .clk] s t)) ∧
  (∀ s p a b n, Takes false p s → p.params = [a, b, n] → n ≠ 0 → n.toNat ≤ 32 → leNat [a, b] ≤ 32767 → Ends (.logRead p) s (fun t =>
    SlotShows 2 0 [] p t ∧ t.bus.prog = 0 ∧ t.fl = { s.fl with reading := some (leNat [a, b], n.toNat, 0) } ∧ Only [.bus, .txn, .fl] s t)) ∧
  (∀ s i n k, fwOn s = true → slotHas s 0x40 = true → s.fl.reading = some (i, n, k) → n ≤ k + 1 → k < n → s.fl.queue = [] → s.fl.closes = [] → readStep s =
    { s with
      fl := { s.fl with reading := none },
      bus := { s.bus with cstat := 3, err := 0, prog := 100, cres := s.bus.cres ++ readRec s.fl.log (i + k) } }) ∧
  (∀ s p a b n, Takes false p s → p.params = [a, b, n] → (n = 0 ∨ 32 < n.toNat ∨ 32767 < leNat [a, b]) → Ends (.logRead p) s (fun t => SlotShows 5 1 [] p t ∧ Only [.bus, .txn] s t)) ∧
  (∀ s p, Takes true p s → p.params = [] → s.fl.ro.getLsbD 7 = false → (s.glob.st = .run ∨ s.glob.st = .standby) → Ends (.logErase p) s (fun t => t.bus.cstat = 2 ∧ t.bus.tag = p.tag ∧
    t.bus.prog = 0 ∧ t.fl.drop = 0 ∧ t.fl.opens = [] ∧ t.fl.erasing = some (128, s.fl.log.length, 0) ∧ Only [.bus, .txn, .fl, .clk] s t)) ∧
  (∀ s p, Takes true p s → p.params = [] → s.fl.ro.getLsbD 7 = true → Ends (.logErase p) s (fun t => SlotShows 5 2 [] p t ∧ Only [.bus, .txn, .clk] s t)) ∧
  (∀ s n k d, fwOn s = true → s.fl.slot = some (.logErase n) → n ≠ 0 → s.fl.erasing = some (n + 1, k, d) → Landable s (208 + n) → Ends (.flashSlotDone true) s (fun t =>
    t.fl.log = s.fl.log.take (256 * n) ∧ t.fl.erasing = some (n, k, d))) ∧
  (∀ s k d, fwOn s = true → s.fl.slot = some (.logErase 0) → s.fl.erasing = some (1, k, d) → Landable s 208 → Ends (.flashSlotDone true) s (fun t =>
    t.fl.log.map LogRec.kind = [8] ∧ t.fl.erasing = none ∧ isPend t 855 = true ∧ (slotHas s 0x41 = true → t.bus.cstat = 3 ∧ t.bus.err = 0 ∧ t.bus.prog = 100))) ∧
  (∀ s p, Takes false p s → p.params = [] → s.fl.queue = [] → s.fl.closes = [] → s.fl.opens = [] → Ends (.logFlush p) s (fun t => SlotShows 3 0 [] p t ∧ t.fl.opens = [] ∧ Only [.bus, .txn, .fl, .clk] s t)) ∧
  (∀ s p, Takes false p s → p.params = [] → (s.fl.queue ≠ [] ∨ s.fl.closes ≠ [] ∨ s.fl.opens ≠ []) → Ends (.logFlush p) s (fun t => t.bus.cstat = 2 ∧ t.bus.tag = p.tag ∧ t.fl.flush = true ∧ t.fl.opens = [] ∧
    Only [.bus, .txn, .fl, .clk] s t)) ∧
  (∀ s i n k, fwOn s = true → slotHas s 0x40 = true → s.fl.reading = some (i, n, k) → k + 1 < n → readStep s =
    { s with
      fl := { s.fl with reading := some (i, n, k + 1) },
      bus := { s.bus with prog := BitVec.ofNat 8 (100 * (k + 1) / n), cres := s.bus.cres ++ readRec (allRecs s) (i + k) } }) ∧
  (∀ s, s.pending = [] → step s = .next (readStep (tick s)))

/-! Hallmark and the firmware update (16_hallmark_update.md). -/

/-- OTP_PROGRAM and OTP_LOCK (R419, R420, R429, R430). In RUN, with rail 0 power-good, up to eight bytes of a region open to customers and not write-locked
are programmed into the array, with done and OTPDONE. Before that a wrong length or range is rejected with 0x01, then another region with 0x02, a
write-locked one with 0x03 and rail 0 not power-good with 0x04, and no fuse changes. A verify that fails is repaired by spare region 14 where that is blank,
with done, OTPDONE and OTPREPAIR; with both spares used it ends in error 0x05 with OTPFAIL. OTP_LOCK sets the locks asked for, in RUN with rail 0
power-good, with done, OTPDONE and LOCKSET; a lock that fails ends in error 0x05 with OTPFAIL and is not set, but of two asked for one may be (a
free choice, log entry 8).
Where the spec leaves a corner open, the clauses follow log entry 39, the model's choice. -/
def Obligations.HallmarkProgramming : Prop :=
  (∀ s p r b bs, Takes true p s → p.params = r :: b :: bs → bs ≠ [] → bs.length ≤ 8 → r.toNat ≤ 15 → b.toNat + bs.length ≤ 64 → customerRegion r.toNat = true →
    lockSet s.otp.wl r.toNat = false → has s.rl.pg 0 = true → s.glob.st = .run → Ends (.otpProgram p true) s (fun t => SlotShows 3 0 [] p t ∧
      (∀ i, i < bs.length → fuse t.otp.arr (fuseHome s.otp r.toNat) (b.toNat + i) = fuse s.otp.arr (fuseHome s.otp r.toNat) (b.toNat + i) ||| bs.getD i 0) ∧
      t.otp = { s.otp with arr := t.otp.arr, pend := setBit s.otp.pend r.toNat true } ∧ isPend t 864 = true ∧ Only ([.bus, .txn, .otp] ++ raiseParts) s t)) ∧
  (∀ s p ok r b bs, Takes true p s → p.params = r :: b :: bs → (bs = [] ∨ 8 < bs.length ∨ 15 < r.toNat ∨ 64 < b.toNat + bs.length) → Ends (.otpProgram p ok) s (fun t =>
    SlotShows 5 1 [] p t ∧ t.otp = s.otp)) ∧
  (∀ s p ok r b bs, Takes true p s → p.params = r :: b :: bs → bs ≠ [] → bs.length ≤ 8 → r.toNat ≤ 15 → b.toNat + bs.length ≤ 64 → customerRegion r.toNat = false →
    Ends (.otpProgram p ok) s (fun t => SlotShows 5 2 [] p t ∧ t.otp = s.otp)) ∧
  (∀ s p ok r b bs, Takes true p s → p.params = r :: b :: bs → bs ≠ [] → bs.length ≤ 8 → r.toNat ≤ 15 → b.toNat + bs.length ≤ 64 → customerRegion r.toNat = true →
    lockSet s.otp.wl r.toNat = true → Ends (.otpProgram p ok) s (fun t => SlotShows 5 3 [] p t ∧ t.otp = s.otp)) ∧
  (∀ s p ok r b bs, Takes true p s → p.params = r :: b :: bs → bs ≠ [] → bs.length ≤ 8 → r.toNat ≤ 15 → b.toNat + bs.length ≤ 64 → customerRegion r.toNat = true →
    lockSet s.otp.wl r.toNat = false → has s.rl.pg 0 = false → Ends (.otpProgram p ok) s (fun t => SlotShows 5 4 [] p t ∧ t.otp = s.otp)) ∧
  (∀ s p r b bs, Takes true p s → p.params = r :: b :: bs → bs ≠ [] → bs.length ≤ 8 → r.toNat ≤ 15 → b.toNat + bs.length ≤ 64 → customerRegion r.toNat = true →
    lockSet s.otp.wl r.toNat = false → has s.rl.pg 0 = true → s.glob.st = .run → s.otp.tag14 = 0 → (∀ i, i < 64 → fuse s.otp.arr 14 i = 0) → fuseHome s.otp r.toNat = r.toNat → Ends (.otpProgram p false) s (fun t => SlotShows 3 0 [] p t ∧
      tagOf t.otp.tag14 = some r.toNat ∧ t.otp.tag15 = s.otp.tag15 ∧
      (∀ i, i < bs.length → fuse t.otp.arr 14 (b.toNat + i) = fuse s.otp.arr r.toNat (b.toNat + i) ||| bs.getD i 0) ∧ isPend t 864 = true ∧ isPend t 866 = true)) ∧
  (∀ s p r b bs, Takes true p s → p.params = r :: b :: bs → bs ≠ [] → bs.length ≤ 8 → r.toNat ≤ 15 → b.toNat + bs.length ≤ 64 → customerRegion r.toNat = true →
    lockSet s.otp.wl r.toNat = false → has s.rl.pg 0 = true → s.glob.st = .run → s.otp.tag14 ≠ 0 → s.otp.tag15 ≠ 0 → Ends (.otpProgram p false) s (fun t =>
      SlotShows 4 5 [] p t ∧ isPend t 865 = true)) ∧
  (∀ s p r l, Takes true p s → p.params = [r, l] → r.toNat ≤ 15 → l ≠ 0 → l.toNat ≤ 3 → customerRegion r.toNat = true → (l.getLsbD 0 = true → lockSet s.otp.wl r.toNat = false) →
    (l.getLsbD 1 = true → lockSet s.otp.rl r.toNat = false) → has s.rl.pg 0 = true → s.glob.st = .run → Ends (.otpLock p true) s (fun t => SlotShows 3 0 [] p t ∧
      (∀ j, j < 16 → lockSet t.otp.wl j = (lockSet s.otp.wl j || (decide (j = r.toNat) && l.getLsbD 0))) ∧
      (∀ j, j < 16 → lockSet t.otp.rl j = (lockSet s.otp.rl j || (decide (j = r.toNat) && l.getLsbD 1))) ∧
      t.otp = { s.otp with wl := t.otp.wl, rl := t.otp.rl, pend := setBit s.otp.pend (16 + r.toNat) true } ∧
      isPend t 864 = true ∧ isPend t 867 = true ∧ Only ([.bus, .txn, .otp] ++ raiseParts) s t)) ∧
  (∀ s p r l, Takes true p s → p.params = [r, l] → r.toNat ≤ 15 → l ≠ 0 → l.toNat ≤ 3 → customerRegion r.toNat = true → lockSet s.otp.wl r.toNat = false →
    lockSet s.otp.rl r.toNat = false → has s.rl.pg 0 = true → s.glob.st = .run → Ends (.otpLock p false) s (fun t => SlotShows 4 5 [] p t ∧
      t.otp = { s.otp with wl := t.otp.wl, rl := t.otp.rl, pend := setBit s.otp.pend (16 + r.toNat) true } ∧
      (l ≠ 3 → lockSet t.otp.wl r.toNat = false ∧ lockSet t.otp.rl r.toNat = false) ∧
      (lockSet t.otp.wl r.toNat = false ∨ lockSet t.otp.rl r.toNat = false) ∧
      (∀ j, j < 16 → j ≠ r.toNat → lockSet t.otp.wl j = lockSet s.otp.wl j ∧ lockSet t.otp.rl j = lockSet s.otp.rl j) ∧ isPend t 865 = true))

/-- An update session (R436 to R438, R441, R442, R449). UPD_BEGIN with a kind and a length in range, no session open and a store that can be written, opens
one in RUN, busy until its journal entry is written; out of range it is rejected with 0x01, with a session open with 0x02. UPD_DATA without a session
is rejected with 0x02, past the stream's place with 0x03; at its place, short of the manifest's end, in RUN, it takes the bytes, and an
interrupted session goes on with RESUMED. UPD_END of a complete session in RUN starts the checks, else it is rejected with 0x02; good digests of parts that
read as they were programmed make the session ready with READY and end the command with done, any other end it with ERR 0x15, the slot empty. UPD_RESUME_INFO answers in RUN.
Where the spec leaves a corner open, the clauses follow log entry 38, the model's choice. -/
def Obligations.UpdateSessions : Prop :=
  (∀ s p k a b c d, Takes false p s → p.params = [k, a, b, c, d] → k.toNat ≤ 1 → 304 ≤ leNat [a, b, c, d] → leNat [a, b, c, d] ≤ 1048576 → (s.upd.st = 0 ∨ s.upd.st = 4 ∨ s.upd.st = 6 ∨ s.upd.st = 7) →
    s.fl.ro.getLsbD 6 = false → s.glob.st = .run → Ends (.updBegin p) s (fun t => t.bus.cstat = 2 ∧ t.bus.tag = p.tag ∧ t.upd.st = 1 ∧ t.upd.len = leNat [a, b, c, d] ∧ t.upd.inp = 0 ∧
      t.upd.out = 0 ∧ t.upd.man = none ∧ t.upd.jact = .begin ∧ isPend t 880 = true ∧ Only ([.bus, .txn, .upd] ++ raiseParts) s t)) ∧
  (∀ s p k a b c d, Takes false p s → p.params = [k, a, b, c, d] → (1 < k.toNat ∨ leNat [a, b, c, d] < 304 ∨ 1048576 < leNat [a, b, c, d]) → Ends (.updBegin p) s (fun t =>
    SlotShows 5 1 [] p t ∧ Only [.bus, .txn] s t)) ∧
  (∀ s p k a b c d, Takes false p s → p.params = [k, a, b, c, d] → k.toNat ≤ 1 → 304 ≤ leNat [a, b, c, d] → leNat [a, b, c, d] ≤ 1048576 →
    (s.upd.st = 1 ∨ s.upd.st = 2 ∨ s.upd.st = 3 ∨ s.upd.st = 5) → Ends (.updBegin p) s (fun t => SlotShows 5 2 [] p t ∧ Only [.bus, .txn] s t)) ∧
  (∀ s, fwOn s = true → s.fl.slot = some .journal → s.upd.jact = .begin → s.upd.man = none → slotHas s 0x50 = true → Landable s (206 + (jrnSecond s.upd).toNat) → readOnly 206 s = false →
    Ends (.flashSlotDone true) s (fun t => t.bus.cstat = 3 ∧ t.bus.err = 0 ∧ jrnBank t.upd = some (jrnOf s.upd) ∧ jrnSecond t.upd = !(jrnSecond s.upd) ∧ t.upd.want = none)) ∧
  (∀ s p k, Takes false p s → (s.upd.st = 0 ∨ s.upd.st = 3 ∨ s.upd.st = 6 ∨ s.upd.st = 7) → 4 < p.params.length → p.params.length ≤ 61 → Ends (.updData p k) s (fun t =>
    SlotShows 5 2 [] p t ∧ Only [.bus, .txn] s t)) ∧
  (∀ s p k, Takes false p s → s.upd.st = 1 → 4 < p.params.length → p.params.length ≤ 61 → s.upd.inp < leNat (p.params.take 4) → Ends (.updData p k) s (fun t =>
    SlotShows 5 3 [] p t ∧ Only [.bus, .txn] s t)) ∧
  (∀ s p k, Takes false p s → (s.upd.st = 1 ∨ s.upd.st = 4) → s.glob.st = .run → 4 < p.params.length → p.params.length ≤ 61 → s.upd.inp = leNat (p.params.take 4) → s.upd.man = none →
    s.upd.buf.length + (p.params.length - 4) < 304 → s.upd.inp + (p.params.length - 4) ≤ s.upd.len → Ends (.updData p k) s (fun t => SlotShows 3 0 [] p t ∧ t.upd.st = 1 ∧
      t.upd.buf = s.upd.buf ++ p.params.drop 4 ∧ t.upd.inp = s.upd.inp + (p.params.length - 4) ∧ (s.upd.st = 4 → isPend t 884 = true) ∧
      Only ([.bus, .txn, .upd] ++ raiseParts) s t)) ∧
  (∀ s p, Takes false p s → p.params = [] → s.upd.st = 1 → updComplete s = true → s.glob.st = .run → Ends (.updEnd p) s (fun t => t.bus.cstat = 2 ∧ t.bus.tag = p.tag ∧
    t.bus.prog = 0 ∧ t.upd.st = 2 ∧ t.upd.want = (if readOnly 206 s then none else some .journal))) ∧
  (∀ s p, Takes false p s → p.params = [] → (s.upd.st ≠ 1 ∨ updComplete s = false) → Ends (.updEnd p) s (fun t => SlotShows 5 2 [] p t ∧ Only [.bus, .txn] s t)) ∧
  (∀ s m, fwOn s = true → s.upd.st = 2 → s.upd.man = some m → digestsOk m s = true → (m.fw = true → imageError s = 0) → Ends (.updVerifyEnd true) s (fun t => t.upd.st = 3 ∧ isPend t 882 = true ∧
    (slotHas s 0x52 = true → t.bus.cstat = 3 ∧ t.bus.err = 0 ∧ t.bus.prog = 100))) ∧
  (∀ s m k, fwOn s = true → s.upd.st = 2 → s.upd.man = some m → (k = false ∨ digestsOk m s = false) → Ends (.updVerifyEnd k) s (fun t => t.upd.st = 0 ∧ t.upd.err = 0x15 ∧ t.upd.prevOk = false ∧
    inactive t = none ∧ isPend t 885 = true ∧ (slotHas s 0x52 = true → t.bus.cstat = 4 ∧ t.bus.err = 0x15))) ∧
  (∀ s p, Takes false p s → p.params = [] → s.glob.st = .run → Ends (.updResumeInfo p) s (fun t => SlotShows 3 0 (resumeInfo s) p t ∧ Only [.bus, .txn] s t))

/-- Activation, confirmation and fall-back (R444, R446 to R449). UPDCTL.ACTIVATE asks for the reset in ready; elsewhere it changes no session and sets
BUSERR.RORSV. UPD_CONFIRM of a trial that may be confirmed, in RUN, has the journal write it, or where
the journal is read-only ends with error 0x03 (log entry 36), else it is rejected with 0x02; once written, the trial is
confirmed with CONFIRMED, its timers gone and the command done. TCONF with AUTOCONF asks for the same. A trial that expires restarts the island into the previous slot with RSTCAUSE.UPDRST
and no rail touched. UPD_ROLLBACK in RUN ends an open session, with CANCELLED; with none it names the other slot for the next boot where that
slot is previous and its SVN counts, and it is rejected with 0x12 where the SVN is too low.
Where the spec leaves a corner open, the clauses follow log entry 38, the model's choice. -/
def Obligations.UpdateActivation : Prop :=
  (∀ s, Served s → s.upd.st = 3 → ∃ u, exec .updctlActivate s = .next (requestReset .upd u) ∧ Acked s u ∧ Only [.bus, .glob, .clk] s u) ∧
  (∀ s, Served s → s.upd.st ≠ 3 → Ends .updctlActivate s (fun t => t.upd = s.upd ∧ t.rl = s.rl ∧ t.glob.buserr.getLsbD 0 = true)) ∧
  (∀ s p, Takes false p s → p.params = [] → mayConfirm s = true → s.glob.st = .run → readOnly 206 s = false → Ends (.updConfirm p) s (fun t => t.bus.cstat = 2 ∧ t.bus.tag = p.tag ∧ t.upd.jact = .confirm ∧
    t.upd.want = some .journal ∧ t.upd.st = 5)) ∧
  (∀ s p, Takes false p s → p.params = [] → mayConfirm s = false → Ends (.updConfirm p) s (fun t => SlotShows 5 2 [] p t ∧ Only [.bus, .txn] s t)) ∧
  (∀ s, fwOn s = true → s.fl.slot = some .journal → s.upd.jact = .confirm → s.upd.st = 5 → s.upd.fell = false → Landable s (206 + (jrnSecond s.upd).toNat) → readOnly 206 s = false →
    Ends (.flashSlotDone true) s (fun t => t.upd.st = 6 ∧ t.upd.prevOk = true ∧ t.upd.jact = .none ∧ isPend t 888 = true ∧ armed .ttrialExpire t = false ∧ armed .tconfExpire t = false ∧
      (slotHas s 0x54 = true → t.bus.cstat = 3 ∧ t.bus.err = 0))) ∧
  (∀ s m, fwOn s = true → mayConfirm s = true → s.upd.man = some m → m.autoconf = true → s.glob.st = .run → readOnly 206 s = false → Ends .tconfExpire s (fun t => t.upd.jact = .confirm ∧
    t.upd.want = some .journal ∧ t.upd.confEnd = none)) ∧
  (∀ s, anvilOn s = true → s.glob.floor = false → s.upd.st = 5 → s.upd.fell = false → Ends .ttrialExpire s (fun t => t.upd.fell = true ∧ t.upd.bootedB = prevSlot s.upd ∧
    t.upd.nextB = prevSlot s.upd ∧ t.glob.fwup = false ∧ t.glob.restarting = true ∧ t.glob.rstcause.getLsbD 8 = true ∧ t.rl = s.rl)) ∧
  (∀ s p, Takes false p s → p.params = [] → s.glob.st = .run → 1 ≤ s.upd.st → s.upd.st ≤ 4 → Ends (.updRollback p) s (fun t => SlotShows 3 0 [] p t ∧ t.upd.st = 0 ∧ t.upd.man = none ∧
    isPend t 886 = true)) ∧
  (∀ s p h, Takes false p s → p.params = [] → s.glob.st = .run → (s.upd.st = 0 ∨ s.upd.st = 6 ∨ s.upd.st = 7) → inactive s = some h → s.upd.prevOk = true → arcnt s.otp.shd ≤ h.svn →
    Ends (.updRollback p) s (fun t => SlotShows 3 0 [] p t ∧ t.upd.nextB = !s.upd.bootedB ∧ isPend t 890 = true)) ∧
  (∀ s p h, Takes false p s → p.params = [] → (s.upd.st = 0 ∨ s.upd.st = 6 ∨ s.upd.st = 7) → inactive s = some h → s.upd.prevOk = true → h.svn < arcnt s.otp.shd →
    Ends (.updRollback p) s (fun t => SlotShows 5 0x12 [] p t ∧ Only [.bus, .txn] s t)) ∧
  (∀ s, fwOn s = true → s.fl.slot = some .journal → s.upd.jact = .fell → s.upd.cfgNew = 0 → Landable s (206 + (jrnSecond s.upd).toNat) → readOnly 206 s = false →
    Ends (.flashSlotDone true) s (fun t => t.upd.st = 7 ∧ t.upd.fell = false ∧ t.upd.man = none ∧ t.upd.want = none ∧ isPend t 889 = true ∧ t.rl = s.rl)) ∧
  (∀ s p, Takes false p s → p.params = [] → mayConfirm s = true → s.glob.st = .run → s.upd.jact = .none → readOnly 206 s = true → Ends (.updConfirm p) s (fun t =>
    SlotShows 4 3 [] p t ∧ t.upd.st = 5 ∧ t.upd.jact = .none))

/-- No step clears a fuse (R418): whatever is programmed in the array, its lock fuses and its repair tags stays programmed. -/
def Obligations.FusesNeverClear : Prop :=
  ∀ o s t, FusesKept o s.otp → step s = .next t → FusesKept o t.otp

/-- What every step keeps, from any state that has it, whatever the command (R63, R68, R132, R148, R180, R182, R199, R265, R271, R358, R406, R409, R411, R467):
the log ring, its queue and its open records keep within their sizes; a session has level 1 or 2 or there is none, and a nonce
stands for level 1 or 2; only an enabled rail is power-good, and an enabled rail neither counts as down nor is in quench; S2 is closed in receive role
only; a path has full drive only while it is closed; a commit in flight passed the checks of its parameters, and page 0x28 shows its number and
state. Each is an invariant of its own. -/
def Obligations.PartsStaySound : Prop :=
  (∀ s t, LogSound s → step s = .next t → LogSound t) ∧
  (∀ s t, SessionSound s → step s = .next t → SessionSound t) ∧
  (∀ s t, RailsSound s → step s = .next t → RailsSound t) ∧
  (∀ s t, PilotSound s → step s = .next t → PilotSound t) ∧
  (∀ s t, PathsSound s → step s = .next t → PathsSound t) ∧
  (∀ s t, CommitSound s → step s = .next t → CommitSound t)

/-- Every sparse map of the state stays in canonical form, whatever the command (R28, R174, R371, R393, R401, R418): its keys rise strictly and no entry equals what an unlisted
key reads as, so that equal contents are equal lists. These are the registers, the schedule banks, the stored configurations and ledgers, the
interrupt maps, the fuses and the sector table with them; State.reset has the form (Obligations.ResetValues). -/
def Obligations.MapsStayCanonical : Prop :=
  ∀ s t, MapsSound s → step s = .next t → MapsSound t
end

