-- ==== Sys2Proof/Laws/Ops.lean ====
section
/-! SUPPORT. What the shared operations do: sparse maps, armed events, the queue. -/

namespace Sys2Proof.Machine

/-! Maps. -/

theorem mget_minsert_same {α : Type} (d v : α) (k : Nat) (m : Map α) : mget d (minsert k v m) k = v := by
  induction m with
  | nil => simp [minsert, mget]
  | cons h t ih =>
    obtain ⟨k', v'⟩ := h
    rcases Nat.lt_trichotomy k k' with hlt | heq | hgt
    · simp [minsert, mget, hlt]
    · subst heq; simp [minsert, mget]
    · simp [minsert, mget, ih, Nat.not_lt.mpr hgt.le, hgt.ne', hgt.ne]

theorem mget_minsert_other {α : Type} (d v : α) {j k : Nat} (h : j ≠ k) (m : Map α) :
    mget d (minsert k v m) j = mget d m j := by
  induction m with
  | nil => simp [minsert, mget, h.symm]
  | cons x t ih =>
    obtain ⟨k', v'⟩ := x
    unfold minsert
    split_ifs with h1 h2
    · simp [mget, h.symm]
    · subst h2; simp [mget, h.symm]
    · simp [mget, ih]

theorem mget_merase_other {α : Type} (d : α) {j k : Nat} (h : j ≠ k) (m : Map α) : mget d (merase k m) j = mget d m j := by
  induction m with
  | nil => rfl
  | cons x t ih =>
    obtain ⟨k', v'⟩ := x
    unfold merase
    split_ifs with h1
    · subst h1; simp [mget, h.symm, ih]
    · simp [mget, ih]

/-- A write leaves every other key as it was. -/
theorem mget_mput_other {α : Type} [DecidableEq α] (d v : α) {j k : Nat} (h : j ≠ k) (m : Map α) :
    mget d (mput d m k v) j = mget d m j := by
  unfold mput
  split_ifs
  · exact mget_merase_other d h m
  · exact mget_minsert_other d v h m

/-- A read after a write of anything but the default gives the value written, on any list. -/
theorem mget_mput_of_ne {α : Type} [DecidableEq α] {d v : α} (h : v ≠ d) (k : Nat) (m : Map α) :
    mget d (mput d m k v) k = v := by
  simp [mput, h, mget_minsert_same]

theorem mwfFrom_mono {α : Type} [DecidableEq α] (d : α) {l l' : Nat} (h : l' ≤ l) (m : Map α) :
    mwfFrom d (some l) m = true → mwfFrom d (some l') m = true := by
  cases m with
  | nil => simp [mwfFrom]
  | cons x t => simp only [mwfFrom, Bool.and_eq_true, decide_eq_true_eq]; exact fun w => ⟨⟨by omega, w.1.2⟩, w.2⟩

theorem mwfFrom_none {α : Type} [DecidableEq α] (d : α) (l : Nat) (m : Map α) :
    mwfFrom d (some l) m = true → mwfFrom d none m = true := by
  cases m with
  | nil => simp [mwfFrom]
  | cons x t => simp only [mwfFrom, Bool.and_eq_true, decide_eq_true_eq]; exact fun w => ⟨⟨trivial, w.1.2⟩, w.2⟩

/-- No key at or below the bound is listed. -/
theorem mget_below {α : Type} [DecidableEq α] (d : α) {k l : Nat} (h : k ≤ l) (m : Map α)
    (w : mwfFrom d (some l) m = true) : mget d m k = d := by
  induction m generalizing l with
  | nil => rfl
  | cons x t ih =>
    obtain ⟨k', v⟩ := x
    simp [mwfFrom] at w
    have : k' ≠ k := by omega
    simp only [mget, this, if_false]
    exact ih (l := k') (by omega) w.2

theorem mwfFrom_minsert {α : Type} [DecidableEq α] (d v : α) (hv : v ≠ d) (k : Nat) (m : Map α) (lo : Option Nat)
    (hlo : ∀ l, lo = some l → l < k) (w : mwfFrom d lo m = true) : mwfFrom d lo (minsert k v m) = true := by
  induction m generalizing lo with
  | nil => cases lo <;> simp_all [minsert, mwfFrom]
  | cons x t ih =>
    obtain ⟨k', v'⟩ := x
    unfold minsert
    simp only [mwfFrom, Bool.and_eq_true, decide_eq_true_eq] at w
    split_ifs with h1 h2
    · cases lo <;> simp_all [mwfFrom]
    · subst h2; cases lo <;> simp_all [mwfFrom]
    · simp only [mwfFrom, Bool.and_eq_true, decide_eq_true_eq]
      exact ⟨w.1, ih (some k') (by intro l hl; cases hl; omega) w.2⟩

theorem mwfFrom_merase {α : Type} [DecidableEq α] (d : α) (k : Nat) (m : Map α) (lo : Option Nat)
    (w : mwfFrom d lo m = true) : mwfFrom d lo (merase k m) = true := by
  induction m generalizing lo with
  | nil => simpa [merase] using w
  | cons x t ih =>
    obtain ⟨k', v'⟩ := x
    unfold merase
    simp only [mwfFrom, Bool.and_eq_true, decide_eq_true_eq] at w
    split_ifs with h1
    · cases lo with
      | none => exact ih none (mwfFrom_none d k' t w.2)
      | some l => exact ih (some l) (mwfFrom_mono d (by have := w.1.1; simp at this; omega) t w.2)
    · simp only [mwfFrom, Bool.and_eq_true, decide_eq_true_eq]
      exact ⟨w.1, ih (some k') w.2⟩

/-- A write keeps the canonical form. -/
theorem mwf_mput {α : Type} [DecidableEq α] (d v : α) (k : Nat) (m : Map α) (w : mwf d m = true) :
    mwf d (mput d m k v) = true := by
  unfold mput mwf at *
  split_ifs with h
  · exact mwfFrom_merase d k m none w
  · exact mwfFrom_minsert d v h k m none (by simp) w

theorem mget_merase_same {α : Type} (d : α) (k : Nat) (m : Map α) : mget d (merase k m) k = d := by
  induction m with
  | nil => rfl
  | cons x t ih =>
    obtain ⟨k', v'⟩ := x
    unfold merase
    split_ifs with h1
    · exact ih
    · have : k' ≠ k := fun e => h1 e.symm
      simp only [mget, this, if_false]
      exact ih

/-- A read after a write gives the value written, whatever the list. -/
theorem mget_mput_same {α : Type} [DecidableEq α] (d v : α) (k : Nat) (m : Map α) :
    mget d (mput d m k v) k = v := by
  unfold mput
  split_ifs with h
  · rw [mget_merase_same d k m, h]
  · exact mget_minsert_same d v k m

/-! What the canonical form says of the list, and what keeps it. -/

theorem mwfFrom_iff {α : Type} [DecidableEq α] (d : α) (m : Map α) (lo : Option Nat) :
    mwfFrom d lo m = true ↔ (∀ l, lo = some l → ∀ x ∈ m, l < x.1) ∧ Sys2Proof.Rising m ∧ ∀ x ∈ m, x.2 ≠ d := by
  induction m generalizing lo with
  | nil => simp [mwfFrom, Sys2Proof.Rising]
  | cons y t ih =>
    obtain ⟨k, v⟩ := y
    simp only [mwfFrom, Bool.and_eq_true, decide_eq_true_eq, ih, Sys2Proof.Rising, List.pairwise_cons, List.mem_cons]
    constructor
    · rintro ⟨⟨hl, hv⟩, hk, hp, hd⟩
      refine ⟨?_, ⟨fun x hx => hk k rfl x hx, hp⟩, ?_⟩
      · intro l e x hx
        subst e
        have hlk : l < k := by simpa using hl
        rcases hx with rfl | hx
        · exact hlk
        · exact Nat.lt_trans hlk (hk k rfl x hx)
      · rintro x (rfl | hx)
        · exact hv
        · exact hd x hx
    · rintro ⟨hl, ⟨hk, hp⟩, hd⟩
      refine ⟨⟨?_, hd _ (.inl rfl)⟩, fun l e x hx => by cases e; exact hk x hx, hp, fun x hx => hd x (.inr hx)⟩
      cases lo with
      | none => rfl
      | some l => simpa using hl l rfl _ (.inl rfl)

theorem mwf_iff {α : Type} [DecidableEq α] (d : α) (m : Map α) :
    mwf d m = true ↔ Sys2Proof.Rising m ∧ ∀ x ∈ m, x.2 ≠ d := by
  unfold mwf; rw [mwfFrom_iff]; simp

/-- The listed keys of a list that keys are inserted in, or erased from. -/
theorem mem_minsert {α : Type} {k : Nat} {v : α} {m : Map α} {x : Nat × α} (h : x ∈ minsert k v m) : x = (k, v) ∨ x ∈ m := by
  induction m with
  | nil => simpa [minsert] using h
  | cons y t ih =>
    obtain ⟨k', v'⟩ := y
    unfold minsert at h
    split_ifs at h with h1 h2
    · simpa using h
    · rcases List.mem_cons.mp h with rfl | g
      · exact .inl rfl
      · exact .inr (List.mem_cons_of_mem _ g)
    · rcases List.mem_cons.mp h with rfl | g
      · exact .inr (List.mem_cons_self ..)
      · rcases ih g with e | e
        · exact .inl e
        · exact .inr (List.mem_cons_of_mem _ e)
theorem mem_merase {α : Type} {k : Nat} {m : Map α} {x : Nat × α} (h : x ∈ merase k m) : x ∈ m := by
  induction m with
  | nil => exact h
  | cons y t ih =>
    obtain ⟨k', v'⟩ := y
    unfold merase at h
    split_ifs at h
    · exact List.mem_cons_of_mem _ (ih h)
    · rcases List.mem_cons.mp h with rfl | g
      · exact List.mem_cons_self ..
      · exact List.mem_cons_of_mem _ (ih g)

theorem rising_minsert {α : Type} (k : Nat) (v : α) (m : Map α) (h : Sys2Proof.Rising m) : Sys2Proof.Rising (minsert k v m) := by
  induction m with
  | nil => simp [minsert, Sys2Proof.Rising]
  | cons y t ih =>
    obtain ⟨k', v'⟩ := y
    obtain ⟨hk, hp⟩ := List.pairwise_cons.mp h
    unfold minsert
    split_ifs with h1 h2
    · refine List.pairwise_cons.mpr ⟨fun x hx => ?_, h⟩
      rcases List.mem_cons.mp hx with rfl | hx
      · exact h1
      · exact Nat.lt_trans h1 (hk x hx)
    · subst h2
      exact List.pairwise_cons.mpr ⟨hk, hp⟩
    · refine List.pairwise_cons.mpr ⟨fun x hx => ?_, ih hp⟩
      rcases mem_minsert hx with rfl | hx
      · exact Nat.lt_of_le_of_ne (Nat.le_of_not_lt h1) (Ne.symm h2)
      · exact hk x hx
theorem rising_merase {α : Type} (k : Nat) (m : Map α) (h : Sys2Proof.Rising m) : Sys2Proof.Rising (merase k m) := by
  induction m with
  | nil => exact h
  | cons y t ih =>
    obtain ⟨k', v'⟩ := y
    obtain ⟨hk, hp⟩ := List.pairwise_cons.mp h
    unfold merase
    split_ifs
    · exact ih hp
    · exact List.pairwise_cons.mpr ⟨fun x hx => hk x (mem_merase hx), ih hp⟩
theorem rising_filter {α : Type} (p : Nat × α → Bool) (m : Map α) (h : Sys2Proof.Rising m) : Sys2Proof.Rising (m.filter p) :=
  List.Pairwise.filter p h
theorem rising_filterMap {α β : Type} (f : Nat × α → Option (Nat × β)) (hf : ∀ x y, f x = some y → y.1 = x.1) (m : Map α)
    (h : Sys2Proof.Rising m) : Sys2Proof.Rising (m.filterMap f) := by
  refine List.Pairwise.filterMap f ?_ h
  intro a b hab c hc d hd
  rw [hf a c hc, hf b d hd]
  exact hab
theorem rising_map {α β : Type} (f : Nat × α → Nat × β) (hf : ∀ x, (f x).1 = x.1) (m : Map α)
    (h : Sys2Proof.Rising m) : Sys2Proof.Rising (m.map f) := by
  refine List.Pairwise.map f ?_ h
  intro a b hab
  rw [hf, hf]
  exact hab

theorem mwf_nil {α : Type} [DecidableEq α] (d : α) : mwf d ([] : Map α) = true := rfl
theorem mwf_filter {α : Type} [DecidableEq α] (d : α) (p : Nat × α → Bool) (m : Map α) (h : mwf d m = true) :
    mwf d (m.filter p) = true := by
  rw [mwf_iff] at h ⊢
  exact ⟨rising_filter p m h.1, fun x hx => h.2 x (List.mem_of_mem_filter hx)⟩
theorem mwf_filterMap {α β : Type} [DecidableEq α] [DecidableEq β] (d : α) (e : β) (f : Nat × α → Option (Nat × β))
    (hf : ∀ x y, f x = some y → y.1 = x.1 ∧ y.2 ≠ e) (m : Map α) (h : mwf d m = true) : mwf e (m.filterMap f) = true := by
  rw [mwf_iff] at h ⊢
  refine ⟨rising_filterMap f (fun x y g => (hf x y g).1) m h.1, fun y hy => ?_⟩
  obtain ⟨x, -, g⟩ := List.mem_filterMap.mp hy
  exact (hf x y g).2
theorem mwf_map {α : Type} [DecidableEq α] (d : α) (f : α → α) (hf : ∀ v, v ≠ d → f v ≠ d) (m : Map α) (h : mwf d m = true) :
    mwf d (m.map (fun x => (x.1, f x.2))) = true := by
  rw [mwf_iff] at h ⊢
  refine ⟨rising_map (fun x => (x.1, f x.2)) (fun _ => rfl) m h.1, fun y hy => ?_⟩
  obtain ⟨x, hx, rfl⟩ := List.mem_map.mp hy
  exact hf _ (h.2 x hx)
theorem mwf_foldl {α β : Type} [DecidableEq α] (d : α) (g : Map α → β → Map α)
    (hg : ∀ m x, mwf d m = true → mwf d (g m x) = true) (l : List β) (m : Map α) (h : mwf d m = true) :
    mwf d (l.foldl g m) = true := by
  induction l generalizing m with
  | nil => exact h
  | cons x l ih => exact ih _ (hg m x h)

theorem regsFit_nil : Sys2Proof.RegsFit [] := ⟨List.Pairwise.nil, fun _ h => (nomatch h)⟩
theorem regsFit_rput (k : Nat) (v : Byte) (m : RegMap) (h : Sys2Proof.RegsFit m) : Sys2Proof.RegsFit (rput m k v) := by
  unfold rput mput
  split_ifs with e
  · exact ⟨rising_merase k m h.1, fun x hx => h.2 x (mem_merase hx)⟩
  · refine ⟨rising_minsert k v m h.1, fun x hx => ?_⟩
    rcases mem_minsert hx with rfl | hx
    · exact e
    · exact h.2 x hx
theorem regsFit_filter (p : Nat × Byte → Bool) (m : RegMap) (h : Sys2Proof.RegsFit m) : Sys2Proof.RegsFit (m.filter p) :=
  ⟨rising_filter p m h.1, fun x hx => h.2 x (List.mem_of_mem_filter hx)⟩
theorem regsFit_foldl {β : Type} (g : RegMap → β → RegMap) (hg : ∀ m x, Sys2Proof.RegsFit m → Sys2Proof.RegsFit (g m x))
    (l : List β) (m : RegMap) (h : Sys2Proof.RegsFit m) : Sys2Proof.RegsFit (l.foldl g m) := by
  induction l generalizing m with
  | nil => exact h
  | cons x l ih => exact ih _ (hg m x h)

/-! Armed events. -/

theorem armed_arm (dt : Nat) (e : Instr) (s : State) : armed e (arm dt e s) = true := by
  simp [armed, arm]

theorem armed_disarm (e : Instr) (s : State) : armed e (disarm e s) = false := by
  simp [armed, disarm]

end Sys2Proof.Machine
end

