-- ==== Sys2Proof/Laws/Raise.lean ====
section
/-! SUPPORT. Everything that raising a source can do (`raise_raised`), and how such changes compose. -/

namespace Sys2Proof

open Sys2Proof.Machine

/-! Parts that a raise does not write. -/

theorem glob_of_unmarked {s t : State} (h : unmarked t = unmarked s) : t.glob = s.glob :=
  show (unmarked t).glob = (unmarked s).glob from h ▸ rfl

theorem otp_of_unmarked {s t : State} (h : unmarked t = unmarked s) : t.otp = s.otp :=
  show (unmarked t).otp = (unmarked s).otp from h ▸ rfl

theorem anvilOn_of_unmarked {s t : State} (h : unmarked t = unmarked s) : anvilOn t = anvilOn s := by
  simp [anvilOn, glob_of_unmarked h, otp_of_unmarked h]

/-! Composition. -/

theorem Raised.refl (s : State) : Raised [] s s where
  rest := rfl
  kept _ h := h
  marked _ h := nomatch h
  others _ h := Or.inl h
  counted k _ := by
    have := (mget 0 s.seq.cnt k).isLt
    simp; omega
  latched _ _ h := nomatch h
  latchKept _ h := h

theorem Raised.trans {a b : List Nat} {s t u : State} (h : Raised a s t) (g : Raised b t u) : Raised (a ++ b) s u where
  rest := g.rest.trans h.rest
  kept k hk := g.kept k (h.kept k hk)
  marked k hk := (List.mem_append.mp hk).elim (fun x => g.kept k (h.marked k x)) (g.marked k)
  others k hk := by
    rcases g.others k hk with h1 | h1 | h1
    · rcases h.others k h1 with h2 | h2 | h2
      · exact .inl h2
      · exact .inr (.inl (List.mem_append_left _ h2))
      · exact .inr (.inr h2)
    · exact .inr (.inl (List.mem_append_right _ h1))
    · exact .inr (.inr h1)
  counted k hk := by rw [g.counted k hk, h.counted k hk, List.count_append]; omega
  latched k j hk hj := (List.mem_append.mp hk).elim (fun x => g.latchKept j (h.latched k j x hj))
    (fun x => g.latched k j x hj)
  latchKept j hj := g.latchKept j (h.latchKept j hj)

/-- The states differ only in marks, and in no pending bit, counter or wake latch. -/
structure Silent (s t : State) : Prop where
  rest : unmarked t = unmarked s
  pend : t.irq.pend = s.irq.pend
  seq : t.seq = s.seq
  pwr : t.pwr = s.pwr

theorem Silent.refl (s : State) : Silent s s := ⟨rfl, rfl, rfl, rfl⟩

theorem Silent.trans {s t u : State} (h : Silent s t) (g : Silent t u) : Silent s u :=
  ⟨g.rest.trans h.rest, g.pend.trans h.pend, g.seq.trans h.seq, g.pwr.trans h.pwr⟩

theorem Silent.isPend {s t : State} (h : Silent s t) (k : Nat) : isPend t k = isPend s k := by
  simp [Machine.isPend, pendOf, h.pend]

theorem Silent.raised {s t : State} (h : Silent s t) : Raised [] s t where
  rest := h.rest
  kept k hk := by rw [h.isPend]; exact hk
  marked _ h := nomatch h
  others k hk := Or.inl (by rw [h.isPend] at hk; exact hk)
  counted k _ := by
    have := (mget 0 s.seq.cnt k).isLt
    simp [h.seq]; omega
  latched _ _ h := nomatch h
  latchKept j hj := by rw [h.pwr]; exact hj

/-! The parts of a raise. -/

theorem unmarked_disarm (e : Instr) (h : isMark e = true) (s : State) : unmarked (disarm e s) = unmarked s := by
  simp only [unmarked, disarm, List.filter_filter]
  have : (fun t : Timer => (!isMark t.ev) && decide (t.ev ≠ e)) = fun t : Timer => !isMark t.ev := by
    funext t
    by_cases ht : t.ev = e
    · simp [ht, h]
    · simp [ht]
  rw [this]

theorem unmarked_arm (dt : Nat) (e : Instr) (h : isMark e = true) (s : State) : unmarked (arm dt e s) = unmarked s := by
  have : unmarked (arm dt e s) = unmarked (disarm e s) := by simp [unmarked, arm, disarm, h]
  rw [this, unmarked_disarm e h]

theorem arm_silent (dt : Nat) (e : Instr) (h : isMark e = true) (s : State) : Silent s (arm dt e s) :=
  ⟨unmarked_arm dt e h s, rfl, rfl, rfl⟩

theorem onDelivered_silent (t : Nat) (s : State) : Silent s (onDelivered t s) := by
  unfold onDelivered
  dsimp only
  repeat' split
  all_goals first
    | exact ⟨rfl, rfl, rfl, rfl⟩
    | exact ⟨unmarked_arm (us 10) (.intPulseEnd (Fin.ofNat 4 t)) rfl _, rfl, rfl, rfl⟩

theorem settleAlert_silent (s : State) : Silent s (settleAlert s) := by
  unfold settleAlert
  split <;> exact ⟨rfl, rfl, rfl, rfl⟩

theorem notifyDue_silent (s0 s : State) : Silent s (notifyDue s0 s) := by
  unfold notifyDue
  split <;> exact ⟨rfl, rfl, rfl, rfl⟩

theorem afterIrq_silent (s0 : State) (l : List Nat) (s : State) : Silent s (afterIrq s0 l s) := by
  refine (?_ : Silent s _).trans ((settleAlert_silent _).trans (notifyDue_silent s0 _))
  generalize l ++ s.irq.rrSrcs.filter (fun x => !l.contains x) = l
  induction l generalizing s with
  | nil => exact Silent.refl s
  | cons x l ih =>
    refine (?_ : Silent s _).trans (ih _)
    dsimp only
    split
    · split
      · exact Silent.refl s
      · exact onDelivered_silent _ s
    · exact Silent.refl s

theorem assign_silent (k : Nat) (s : State) : Silent s (assign k s) := by
  unfold assign
  split <;> exact ⟨rfl, rfl, rfl, rfl⟩

theorem takeBack_silent (t : Nat) (s : State) : Silent s (takeBack t s) := by
  unfold takeBack
  dsimp only
  split
  · exact Silent.refl s
  · exact ⟨unmarked_disarm _ rfl _, rfl, rfl, rfl⟩

theorem foldl_silent {α : Type} (f : State → α → State) (h : ∀ s x, Silent s (f s x)) (l : List α) (s : State) :
    Silent s (l.foldl f s) := by
  induction l generalizing s with
  | nil => exact Silent.refl s
  | cons x l ih => exact (h s x).trans (ih _)

theorem assignNow_silent (l : List Nat) (s : State) : Silent s (assignNow l s) := by
  unfold assignNow
  dsimp only
  split
  · exact Silent.refl s
  · refine Silent.trans (?_ : Silent s _) (foldl_silent _ (fun s' x => ?_) _ _)
    · refine Silent.trans ?_ (foldl_silent _ (fun s' x => assign_silent x s') _ _)
      exact ⟨rfl, rfl, rfl, rfl⟩
    · split
      · split
        · exact Silent.refl _
        · exact takeBack_silent _ _
      · exact Silent.refl _

theorem or_twoPow_ne (w : Word) (i : Nat) (h : i < 16) : w ||| BitVec.twoPow 16 i ≠ 0 := by
  intro e
  have := congrArg (fun v : Word => v.getLsbD i) e
  simp [h] at this

/-- The state with a source's pending and late bits set, before any delivery. -/
def withPend (src : Nat) (s : State) : State :=
  { s with irq := { s.irq with
      pend := mput 0 s.irq.pend (src / 16) (mget 0 s.irq.pend (src / 16) ||| BitVec.twoPow 16 (src % 16))
      late := mput 0xFFFF s.irq.late (src / 16) (mget 0xFFFF s.irq.late (src / 16) ||| BitVec.twoPow 16 (src % 16))
      tick := mput 0 s.irq.tick src (intTick s) } }

theorem isPend_withPend (src : Nat) (s : State) (k : Nat) :
    isPend (withPend src s) k = (isPend s k || decide (k = src)) := by
  simp only [isPend, pendOf, withPend]
  by_cases hg : k / 16 = src / 16
  · rw [hg, mget_mput_of_ne (or_twoPow_ne _ _ (Nat.mod_lt _ (by decide)))]
    have h16 : k % 16 < 16 := Nat.mod_lt _ (by decide)
    by_cases hk : k = src
    · subst hk; simp [h16]
    · have : ¬ src % 16 = k % 16 := by omega
      simp [BitVec.getLsbD_or, BitVec.getLsbD_twoPow, this, hk]
  · rw [mget_mput_other _ _ hg]
    have : k ≠ src := fun e => hg (by rw [e])
    simp [this]

/-- What `setPend` does: one pending bit more. -/
theorem setPend_spec (src : Nat) (s : State) :
    unmarked (setPend src s) = unmarked s ∧ (setPend src s).seq = s.seq ∧ (setPend src s).pwr = s.pwr ∧
    ∀ k, isPend (setPend src s) k = (isPend s k || decide (k = src)) := by
  have base : unmarked (withPend src s) = unmarked s := rfl
  have e : setPend src s = if isPend s src then withPend src s
      else afterIrq s [src] (assignNow [src] (withPend src s)) := rfl
  rw [e]
  split
  · exact ⟨rfl, rfl, rfl, isPend_withPend src s⟩
  · have h := (assignNow_silent [src] (withPend src s)).trans (afterIrq_silent s [src] _)
    exact ⟨h.rest.trans base, h.seq, h.pwr, fun k => (h.isPend k).trans (isPend_withPend src s k)⟩

theorem setPend_loss (src : Nat) (hl : isLogLoss src = true) (s : State) : Raised [] s (setPend src s) := by
  obtain ⟨h1, h2, h3, h4⟩ := setPend_spec src s
  exact {
    rest := h1
    kept := fun k hk => by simp [h4, hk]
    marked := fun _ h => nomatch h
    others := fun k hk => by
      rw [h4] at hk
      by_cases e : k = src
      · exact .inr (.inr (e ▸ hl))
      · exact .inl (by simpa [e] using hk)
    counted := fun k _ => by
      have := (mget 0 s.seq.cnt k).isLt
      simp [h2]; omega
    latched := fun _ _ h => nomatch h
    latchKept := fun j hj => by rw [h3]; exact hj }

theorem grant_silent (s : State) : Silent s (grant s) := by
  unfold grant
  split <;> exact ⟨rfl, rfl, rfl, rfl⟩

theorem pushLog_raised (e : LogRec) (s : State) : Raised [] s (pushLog e s) := by
  unfold pushLog
  split
  · have q : ∀ l w, Silent s (grant { s with fl := { s.fl with queue := l, wantLog := w } }) := fun l w =>
      Silent.trans (t := { s with fl := { s.fl with queue := l, wantLog := w } }) ⟨rfl, rfl, rfl, rfl⟩ (grant_silent _)
    exact (q _ _).raised
  · have ite1 : ∀ (c : Bool) (k : Nat), isLogLoss k = true → ∀ s : State, Raised [] s (if c then setPend k s else s) := by
      intro c k hk s
      cases c
      · exact Raised.refl s
      · exact setPend_loss k hk s
    have a := (ite1 (decide (s.fl.run = 0)) 856 rfl s).trans (ite1 (decide (s.fl.drop = 0)) 854 rfl _)
    exact a.trans (Silent.raised ⟨rfl, rfl, rfl, rfl⟩)

theorem touchOpen_silent (src : Nat) (s : State) : Silent s (touchOpen src s) := by
  unfold touchOpen
  split
  · exact arm_silent _ _ rfl _
  · exact Silent.refl s

theorem logRaise_raised (src : Nat) (s : State) : Raised [] s (logRaise src s) := by
  unfold logRaise
  split
  · exact (pushLog_raised _ s).trans (touchOpen_silent _ _).raised
  · exact Raised.refl s

theorem latchOf_lt (k j : Nat) (h : latchOf k = some j) : j < 64 := by
  have ite : ∀ (c : Prop) [Decidable c] (x y : Option Nat), (c → x = some j → j < 64) → (y = some j → j < 64) →
      (if c then x else y) = some j → j < 64 := by
    intro c _ x y hx hy he
    by_cases hc : c
    · rw [if_pos hc] at he; exact hx hc he
    · rw [if_neg hc] at he; exact hy he
  revert h
  unfold latchOf
  repeat' apply ite
  all_goals intro h
  all_goals try intro e
  all_goals first | (injection e; omega) | (injection h)

/-- Everything that raising a source does, with the Anvil island on. -/
theorem raise_raised (src : Nat) (s : State) (h : anvilOn s = true) : Raised [src] s (raise src s) := by
  obtain ⟨h1, h2, h3, h4⟩ := setPend_spec src s
  have e : raise src s = logRaise src (setLatch src (countEvent src (setPend src s))) := by simp [raise, h]
  rw [e]
  refine Raised.trans (a := [src]) (b := []) ?_ (logRaise_raised _ _)
  have hc : ∀ t : State, Silent t { countEvent src t with seq := t.seq } := by
    intro t; unfold countEvent; split <;> exact ⟨rfl, rfl, rfl, rfl⟩
  have hq : ∀ t : State, (setLatch src (countEvent src t)).irq = t.irq := by
    intro t; unfold setLatch countEvent; repeat' split
    all_goals rfl
  have hu : ∀ t : State, unmarked (setLatch src (countEvent src t)) = unmarked t := by
    intro t; unfold setLatch countEvent; repeat' split
    all_goals rfl
  have hs : ∀ t : State, (setLatch src t).seq = t.seq := by
    intro t; unfold setLatch; split <;> rfl
  have hw : ∀ t : State, (countEvent src t).pwr = t.pwr := by
    intro t; unfold countEvent; split <;> rfl
  have hp : ∀ k, isPend (setLatch src (countEvent src (setPend src s))) k = (isPend s k || decide (k = src)) := by
    intro k
    rw [← h4]
    simp [isPend, pendOf, hq]
  exact {
    rest := (hu _).trans h1
    kept := fun k hk => by simp [hp, hk]
    marked := fun k hk => by simp at hk; simp [hp, hk]
    others := fun k hk => by
      rw [hp] at hk
      by_cases e : k = src
      · exact .inr (.inl (by simp [e]))
      · exact .inl (by simpa [e] using hk)
    counted := fun k hk => by
      have b := (mget 0 s.seq.cnt k).isLt
      rw [hs]
      unfold countEvent
      split
      · by_cases ek : k = src
        · subst ek
          have bb : satAdd 65535 1 (mget 0 s.seq.cnt k).toNat < 65536 := by simp only [satAdd]; omega
          have n0 : BitVec.ofNat 16 (satAdd 65535 1 (mget 0 s.seq.cnt k).toNat) ≠ 0 := by
            intro x
            have := congrArg BitVec.toNat x
            simp only [BitVec.toNat_ofNat, satAdd] at this
            have z : (0 : Word).toNat = 0 := rfl
            rw [z] at this
            omega
          simp only [h2]
          rw [mget_mput_of_ne n0]
          simp only [BitVec.toNat_ofNat, List.count_singleton, beq_self_eq_true, if_true, satAdd] at *
          omega
        · simp only [h2]
          rw [mget_mput_other _ _ ek]
          have : (src == k) = false := by simpa using fun x => ek x.symm
          simp only [List.count_singleton, this]
          simp; omega
      · have : (src == k) = false := by simp; omega
        simp only [h2, List.count_singleton, this]
        simp; omega
    latched := fun k j hk hj => by
      rw [List.mem_singleton] at hk
      subst hk
      have j64 := latchOf_lt k j hj
      unfold setLatch
      rw [hj]
      simp [j64]
    latchKept := fun j hj => by
      unfold setLatch
      split
      · simp [hw, h3, hj]
      · rw [hw, h3]; exact hj }

theorem raiseIf_raised (c : Bool) (src : Nat) (s : State) (h : anvilOn s = true) :
    Raised (if c then [src] else []) s (raiseIf c src s) := by
  cases c
  · exact Raised.refl s
  · exact raise_raised src s h

theorem raiseG_raised (g b : Nat) (s : State) (h : anvilOn s = true) : Raised [16 * g + b] s (raiseG g b s) :=
  raise_raised _ s h

theorem Raised.anvilOn {l : List Nat} {s t : State} (h : Raised l s t) : anvilOn t = anvilOn s :=
  anvilOn_of_unmarked h.rest

end Sys2Proof
end

