-- ==== Sys2Proof/Laws/State.lean ====
section
/-! SUPPORT. What the named updates of the state leave alone: one lemma per operation and part. -/

namespace Sys2Proof.Machine

open Sys2Proof

/-- A raise writes nothing but marks, whichever islands are on. -/
theorem raise_unmarked (k : Nat) (s : State) : unmarked (raise k s) = unmarked s := by
  by_cases h : anvilOn s = true
  · exact (raise_raised k s h).rest
  · unfold raise
    rw [if_neg h]
    split
    · split
      · split
        · unfold setLatch; split <;> rfl
        · rfl
      · rfl
    · rfl

theorem logOther_unmarked (kd k : Nat) (d : BitVec 32) (s : State) :
    unmarked (logOther kd k d s) = unmarked s ∧ (logOther kd k d s).seq = s.seq ∧ (logOther kd k d s).pwr = s.pwr := by
  unfold logOther
  split
  · exact ⟨rfl, rfl, rfl⟩
  · unfold pushLog
    split
    · unfold grant; split <;> exact ⟨rfl, rfl, rfl⟩
    · have p : ∀ (c : Bool) (j : Nat) (s : State), unmarked (if c then setPend j s else s) = unmarked s ∧
          (if c then setPend j s else s).seq = s.seq ∧ (if c then setPend j s else s).pwr = s.pwr := by
        intro c j s
        cases c
        · exact ⟨rfl, rfl, rfl⟩
        · exact ⟨(setPend_spec j s).1, (setPend_spec j s).2.1, (setPend_spec j s).2.2.1⟩
      have a := p (decide (s.fl.run = 0)) (16 * 53 + 8) s
      have b := p (decide (s.fl.drop = 0)) (16 * 53 + 6) (if decide (s.fl.run = 0) then setPend (16 * 53 + 8) s else s)
      exact ⟨b.1.trans a.1, b.2.1.trans a.2.1, b.2.2.trans a.2.2⟩

@[simp] theorem arm_pending (dt : Nat) (e : Instr) (s : State) : (arm dt e s).pending = s.pending := rfl
@[simp] theorem arm_free (dt : Nat) (e : Instr) (s : State) : (arm dt e s).free = s.free := rfl
@[simp] theorem arm_glob (dt : Nat) (e : Instr) (s : State) : (arm dt e s).glob = s.glob := rfl
@[simp] theorem arm_regs (dt : Nat) (e : Instr) (s : State) : (arm dt e s).regs = s.regs := rfl
@[simp] theorem arm_cyc (dt : Nat) (e : Instr) (s : State) : (arm dt e s).cyc = s.cyc := rfl
@[simp] theorem arm_qt (dt : Nat) (e : Instr) (s : State) : (arm dt e s).qt = s.qt := rfl
@[simp] theorem arm_inp (dt : Nat) (e : Instr) (s : State) : (arm dt e s).inp = s.inp := rfl
@[simp] theorem arm_rl (dt : Nat) (e : Instr) (s : State) : (arm dt e s).rl = s.rl := rfl
@[simp] theorem arm_bk (dt : Nat) (e : Instr) (s : State) : (arm dt e s).bk = s.bk := rfl
@[simp] theorem arm_seq (dt : Nat) (e : Instr) (s : State) : (arm dt e s).seq = s.seq := rfl
@[simp] theorem arm_txn (dt : Nat) (e : Instr) (s : State) : (arm dt e s).txn = s.txn := rfl
@[simp] theorem arm_safe (dt : Nat) (e : Instr) (s : State) : (arm dt e s).safe = s.safe := rfl
@[simp] theorem arm_tst (dt : Nat) (e : Instr) (s : State) : (arm dt e s).tst = s.tst := rfl
@[simp] theorem arm_pat (dt : Nat) (e : Instr) (s : State) : (arm dt e s).pat = s.pat := rfl
@[simp] theorem arm_hk (dt : Nat) (e : Instr) (s : State) : (arm dt e s).hk = s.hk := rfl
@[simp] theorem arm_thm (dt : Nat) (e : Instr) (s : State) : (arm dt e s).thm = s.thm := rfl
@[simp] theorem arm_plt (dt : Nat) (e : Instr) (s : State) : (arm dt e s).plt = s.plt := rfl
@[simp] theorem arm_chg (dt : Nat) (e : Instr) (s : State) : (arm dt e s).chg = s.chg := rfl
@[simp] theorem arm_gau (dt : Nat) (e : Instr) (s : State) : (arm dt e s).gau = s.gau := rfl
@[simp] theorem arm_cal (dt : Nat) (e : Instr) (s : State) : (arm dt e s).cal = s.cal := rfl
@[simp] theorem arm_pwr (dt : Nat) (e : Instr) (s : State) : (arm dt e s).pwr = s.pwr := rfl
@[simp] theorem arm_bus (dt : Nat) (e : Instr) (s : State) : (arm dt e s).bus = s.bus := rfl
@[simp] theorem arm_ds (dt : Nat) (e : Instr) (s : State) : (arm dt e s).ds = s.ds := rfl
@[simp] theorem arm_irq (dt : Nat) (e : Instr) (s : State) : (arm dt e s).irq = s.irq := rfl
@[simp] theorem arm_fl (dt : Nat) (e : Instr) (s : State) : (arm dt e s).fl = s.fl := rfl
@[simp] theorem arm_otp (dt : Nat) (e : Instr) (s : State) : (arm dt e s).otp = s.otp := rfl
@[simp] theorem arm_upd (dt : Nat) (e : Instr) (s : State) : (arm dt e s).upd = s.upd := rfl

@[simp] theorem disarm_pending (e : Instr) (s : State) : (disarm e s).pending = s.pending := rfl
@[simp] theorem disarm_free (e : Instr) (s : State) : (disarm e s).free = s.free := rfl
@[simp] theorem disarm_glob (e : Instr) (s : State) : (disarm e s).glob = s.glob := rfl
@[simp] theorem disarm_regs (e : Instr) (s : State) : (disarm e s).regs = s.regs := rfl
@[simp] theorem disarm_cyc (e : Instr) (s : State) : (disarm e s).cyc = s.cyc := rfl
@[simp] theorem disarm_qt (e : Instr) (s : State) : (disarm e s).qt = s.qt := rfl
@[simp] theorem disarm_inp (e : Instr) (s : State) : (disarm e s).inp = s.inp := rfl
@[simp] theorem disarm_rl (e : Instr) (s : State) : (disarm e s).rl = s.rl := rfl
@[simp] theorem disarm_bk (e : Instr) (s : State) : (disarm e s).bk = s.bk := rfl
@[simp] theorem disarm_seq (e : Instr) (s : State) : (disarm e s).seq = s.seq := rfl
@[simp] theorem disarm_txn (e : Instr) (s : State) : (disarm e s).txn = s.txn := rfl
@[simp] theorem disarm_safe (e : Instr) (s : State) : (disarm e s).safe = s.safe := rfl
@[simp] theorem disarm_tst (e : Instr) (s : State) : (disarm e s).tst = s.tst := rfl
@[simp] theorem disarm_pat (e : Instr) (s : State) : (disarm e s).pat = s.pat := rfl
@[simp] theorem disarm_hk (e : Instr) (s : State) : (disarm e s).hk = s.hk := rfl
@[simp] theorem disarm_thm (e : Instr) (s : State) : (disarm e s).thm = s.thm := rfl
@[simp] theorem disarm_plt (e : Instr) (s : State) : (disarm e s).plt = s.plt := rfl
@[simp] theorem disarm_chg (e : Instr) (s : State) : (disarm e s).chg = s.chg := rfl
@[simp] theorem disarm_gau (e : Instr) (s : State) : (disarm e s).gau = s.gau := rfl
@[simp] theorem disarm_cal (e : Instr) (s : State) : (disarm e s).cal = s.cal := rfl
@[simp] theorem disarm_pwr (e : Instr) (s : State) : (disarm e s).pwr = s.pwr := rfl
@[simp] theorem disarm_bus (e : Instr) (s : State) : (disarm e s).bus = s.bus := rfl
@[simp] theorem disarm_ds (e : Instr) (s : State) : (disarm e s).ds = s.ds := rfl
@[simp] theorem disarm_irq (e : Instr) (s : State) : (disarm e s).irq = s.irq := rfl
@[simp] theorem disarm_fl (e : Instr) (s : State) : (disarm e s).fl = s.fl := rfl
@[simp] theorem disarm_otp (e : Instr) (s : State) : (disarm e s).otp = s.otp := rfl
@[simp] theorem disarm_upd (e : Instr) (s : State) : (disarm e s).upd = s.upd := rfl

@[simp] theorem disarmAll_pending (p : Instr → Bool) (s : State) : (disarmAll p s).pending = s.pending := rfl
@[simp] theorem disarmAll_free (p : Instr → Bool) (s : State) : (disarmAll p s).free = s.free := rfl
@[simp] theorem disarmAll_glob (p : Instr → Bool) (s : State) : (disarmAll p s).glob = s.glob := rfl
@[simp] theorem disarmAll_regs (p : Instr → Bool) (s : State) : (disarmAll p s).regs = s.regs := rfl
@[simp] theorem disarmAll_cyc (p : Instr → Bool) (s : State) : (disarmAll p s).cyc = s.cyc := rfl
@[simp] theorem disarmAll_qt (p : Instr → Bool) (s : State) : (disarmAll p s).qt = s.qt := rfl
@[simp] theorem disarmAll_inp (p : Instr → Bool) (s : State) : (disarmAll p s).inp = s.inp := rfl
@[simp] theorem disarmAll_rl (p : Instr → Bool) (s : State) : (disarmAll p s).rl = s.rl := rfl
@[simp] theorem disarmAll_bk (p : Instr → Bool) (s : State) : (disarmAll p s).bk = s.bk := rfl
@[simp] theorem disarmAll_seq (p : Instr → Bool) (s : State) : (disarmAll p s).seq = s.seq := rfl
@[simp] theorem disarmAll_txn (p : Instr → Bool) (s : State) : (disarmAll p s).txn = s.txn := rfl
@[simp] theorem disarmAll_safe (p : Instr → Bool) (s : State) : (disarmAll p s).safe = s.safe := rfl
@[simp] theorem disarmAll_tst (p : Instr → Bool) (s : State) : (disarmAll p s).tst = s.tst := rfl
@[simp] theorem disarmAll_pat (p : Instr → Bool) (s : State) : (disarmAll p s).pat = s.pat := rfl
@[simp] theorem disarmAll_hk (p : Instr → Bool) (s : State) : (disarmAll p s).hk = s.hk := rfl
@[simp] theorem disarmAll_thm (p : Instr → Bool) (s : State) : (disarmAll p s).thm = s.thm := rfl
@[simp] theorem disarmAll_plt (p : Instr → Bool) (s : State) : (disarmAll p s).plt = s.plt := rfl
@[simp] theorem disarmAll_chg (p : Instr → Bool) (s : State) : (disarmAll p s).chg = s.chg := rfl
@[simp] theorem disarmAll_gau (p : Instr → Bool) (s : State) : (disarmAll p s).gau = s.gau := rfl
@[simp] theorem disarmAll_cal (p : Instr → Bool) (s : State) : (disarmAll p s).cal = s.cal := rfl
@[simp] theorem disarmAll_pwr (p : Instr → Bool) (s : State) : (disarmAll p s).pwr = s.pwr := rfl
@[simp] theorem disarmAll_bus (p : Instr → Bool) (s : State) : (disarmAll p s).bus = s.bus := rfl
@[simp] theorem disarmAll_ds (p : Instr → Bool) (s : State) : (disarmAll p s).ds = s.ds := rfl
@[simp] theorem disarmAll_irq (p : Instr → Bool) (s : State) : (disarmAll p s).irq = s.irq := rfl
@[simp] theorem disarmAll_fl (p : Instr → Bool) (s : State) : (disarmAll p s).fl = s.fl := rfl
@[simp] theorem disarmAll_otp (p : Instr → Bool) (s : State) : (disarmAll p s).otp = s.otp := rfl
@[simp] theorem disarmAll_upd (p : Instr → Bool) (s : State) : (disarmAll p s).upd = s.upd := rfl

@[simp] theorem enqueue_clk (c : Instr) (s : State) : (enqueue c s).clk = s.clk := rfl
@[simp] theorem enqueue_free (c : Instr) (s : State) : (enqueue c s).free = s.free := rfl
@[simp] theorem enqueue_glob (c : Instr) (s : State) : (enqueue c s).glob = s.glob := rfl
@[simp] theorem enqueue_regs (c : Instr) (s : State) : (enqueue c s).regs = s.regs := rfl
@[simp] theorem enqueue_cyc (c : Instr) (s : State) : (enqueue c s).cyc = s.cyc := rfl
@[simp] theorem enqueue_qt (c : Instr) (s : State) : (enqueue c s).qt = s.qt := rfl
@[simp] theorem enqueue_inp (c : Instr) (s : State) : (enqueue c s).inp = s.inp := rfl
@[simp] theorem enqueue_rl (c : Instr) (s : State) : (enqueue c s).rl = s.rl := rfl
@[simp] theorem enqueue_bk (c : Instr) (s : State) : (enqueue c s).bk = s.bk := rfl
@[simp] theorem enqueue_seq (c : Instr) (s : State) : (enqueue c s).seq = s.seq := rfl
@[simp] theorem enqueue_txn (c : Instr) (s : State) : (enqueue c s).txn = s.txn := rfl
@[simp] theorem enqueue_safe (c : Instr) (s : State) : (enqueue c s).safe = s.safe := rfl
@[simp] theorem enqueue_tst (c : Instr) (s : State) : (enqueue c s).tst = s.tst := rfl
@[simp] theorem enqueue_pat (c : Instr) (s : State) : (enqueue c s).pat = s.pat := rfl
@[simp] theorem enqueue_hk (c : Instr) (s : State) : (enqueue c s).hk = s.hk := rfl
@[simp] theorem enqueue_thm (c : Instr) (s : State) : (enqueue c s).thm = s.thm := rfl
@[simp] theorem enqueue_plt (c : Instr) (s : State) : (enqueue c s).plt = s.plt := rfl
@[simp] theorem enqueue_chg (c : Instr) (s : State) : (enqueue c s).chg = s.chg := rfl
@[simp] theorem enqueue_gau (c : Instr) (s : State) : (enqueue c s).gau = s.gau := rfl
@[simp] theorem enqueue_cal (c : Instr) (s : State) : (enqueue c s).cal = s.cal := rfl
@[simp] theorem enqueue_pwr (c : Instr) (s : State) : (enqueue c s).pwr = s.pwr := rfl
@[simp] theorem enqueue_bus (c : Instr) (s : State) : (enqueue c s).bus = s.bus := rfl
@[simp] theorem enqueue_ds (c : Instr) (s : State) : (enqueue c s).ds = s.ds := rfl
@[simp] theorem enqueue_irq (c : Instr) (s : State) : (enqueue c s).irq = s.irq := rfl
@[simp] theorem enqueue_fl (c : Instr) (s : State) : (enqueue c s).fl = s.fl := rfl
@[simp] theorem enqueue_otp (c : Instr) (s : State) : (enqueue c s).otp = s.otp := rfl
@[simp] theorem enqueue_upd (c : Instr) (s : State) : (enqueue c s).upd = s.upd := rfl

@[simp] theorem enqueueOnce_clk (c : Instr) (s : State) : (enqueueOnce c s).clk = s.clk := by unfold enqueueOnce; split <;> rfl
@[simp] theorem enqueueOnce_free (c : Instr) (s : State) : (enqueueOnce c s).free = s.free := by unfold enqueueOnce; split <;> rfl
@[simp] theorem enqueueOnce_glob (c : Instr) (s : State) : (enqueueOnce c s).glob = s.glob := by unfold enqueueOnce; split <;> rfl
@[simp] theorem enqueueOnce_regs (c : Instr) (s : State) : (enqueueOnce c s).regs = s.regs := by unfold enqueueOnce; split <;> rfl
@[simp] theorem enqueueOnce_cyc (c : Instr) (s : State) : (enqueueOnce c s).cyc = s.cyc := by unfold enqueueOnce; split <;> rfl
@[simp] theorem enqueueOnce_qt (c : Instr) (s : State) : (enqueueOnce c s).qt = s.qt := by unfold enqueueOnce; split <;> rfl
@[simp] theorem enqueueOnce_inp (c : Instr) (s : State) : (enqueueOnce c s).inp = s.inp := by unfold enqueueOnce; split <;> rfl
@[simp] theorem enqueueOnce_rl (c : Instr) (s : State) : (enqueueOnce c s).rl = s.rl := by unfold enqueueOnce; split <;> rfl
@[simp] theorem enqueueOnce_bk (c : Instr) (s : State) : (enqueueOnce c s).bk = s.bk := by unfold enqueueOnce; split <;> rfl
@[simp] theorem enqueueOnce_seq (c : Instr) (s : State) : (enqueueOnce c s).seq = s.seq := by unfold enqueueOnce; split <;> rfl
@[simp] theorem enqueueOnce_txn (c : Instr) (s : State) : (enqueueOnce c s).txn = s.txn := by unfold enqueueOnce; split <;> rfl
@[simp] theorem enqueueOnce_safe (c : Instr) (s : State) : (enqueueOnce c s).safe = s.safe := by unfold enqueueOnce; split <;> rfl
@[simp] theorem enqueueOnce_tst (c : Instr) (s : State) : (enqueueOnce c s).tst = s.tst := by unfold enqueueOnce; split <;> rfl
@[simp] theorem enqueueOnce_pat (c : Instr) (s : State) : (enqueueOnce c s).pat = s.pat := by unfold enqueueOnce; split <;> rfl
@[simp] theorem enqueueOnce_hk (c : Instr) (s : State) : (enqueueOnce c s).hk = s.hk := by unfold enqueueOnce; split <;> rfl
@[simp] theorem enqueueOnce_thm (c : Instr) (s : State) : (enqueueOnce c s).thm = s.thm := by unfold enqueueOnce; split <;> rfl
@[simp] theorem enqueueOnce_plt (c : Instr) (s : State) : (enqueueOnce c s).plt = s.plt := by unfold enqueueOnce; split <;> rfl
@[simp] theorem enqueueOnce_chg (c : Instr) (s : State) : (enqueueOnce c s).chg = s.chg := by unfold enqueueOnce; split <;> rfl
@[simp] theorem enqueueOnce_gau (c : Instr) (s : State) : (enqueueOnce c s).gau = s.gau := by unfold enqueueOnce; split <;> rfl
@[simp] theorem enqueueOnce_cal (c : Instr) (s : State) : (enqueueOnce c s).cal = s.cal := by unfold enqueueOnce; split <;> rfl
@[simp] theorem enqueueOnce_pwr (c : Instr) (s : State) : (enqueueOnce c s).pwr = s.pwr := by unfold enqueueOnce; split <;> rfl
@[simp] theorem enqueueOnce_bus (c : Instr) (s : State) : (enqueueOnce c s).bus = s.bus := by unfold enqueueOnce; split <;> rfl
@[simp] theorem enqueueOnce_ds (c : Instr) (s : State) : (enqueueOnce c s).ds = s.ds := by unfold enqueueOnce; split <;> rfl
@[simp] theorem enqueueOnce_irq (c : Instr) (s : State) : (enqueueOnce c s).irq = s.irq := by unfold enqueueOnce; split <;> rfl
@[simp] theorem enqueueOnce_fl (c : Instr) (s : State) : (enqueueOnce c s).fl = s.fl := by unfold enqueueOnce; split <;> rfl
@[simp] theorem enqueueOnce_otp (c : Instr) (s : State) : (enqueueOnce c s).otp = s.otp := by unfold enqueueOnce; split <;> rfl
@[simp] theorem enqueueOnce_upd (c : Instr) (s : State) : (enqueueOnce c s).upd = s.upd := by unfold enqueueOnce; split <;> rfl

@[simp] theorem putPlain_pending (k : Nat) (bs : List Byte) (s : State) : (putPlain k bs s).pending = s.pending := rfl
@[simp] theorem putPlain_clk (k : Nat) (bs : List Byte) (s : State) : (putPlain k bs s).clk = s.clk := rfl
@[simp] theorem putPlain_free (k : Nat) (bs : List Byte) (s : State) : (putPlain k bs s).free = s.free := rfl
@[simp] theorem putPlain_glob (k : Nat) (bs : List Byte) (s : State) : (putPlain k bs s).glob = s.glob := rfl
@[simp] theorem putPlain_cyc (k : Nat) (bs : List Byte) (s : State) : (putPlain k bs s).cyc = s.cyc := rfl
@[simp] theorem putPlain_qt (k : Nat) (bs : List Byte) (s : State) : (putPlain k bs s).qt = s.qt := rfl
@[simp] theorem putPlain_inp (k : Nat) (bs : List Byte) (s : State) : (putPlain k bs s).inp = s.inp := rfl
@[simp] theorem putPlain_rl (k : Nat) (bs : List Byte) (s : State) : (putPlain k bs s).rl = s.rl := rfl
@[simp] theorem putPlain_bk (k : Nat) (bs : List Byte) (s : State) : (putPlain k bs s).bk = s.bk := rfl
@[simp] theorem putPlain_seq (k : Nat) (bs : List Byte) (s : State) : (putPlain k bs s).seq = s.seq := rfl
@[simp] theorem putPlain_txn (k : Nat) (bs : List Byte) (s : State) : (putPlain k bs s).txn = s.txn := rfl
@[simp] theorem putPlain_safe (k : Nat) (bs : List Byte) (s : State) : (putPlain k bs s).safe = s.safe := rfl
@[simp] theorem putPlain_tst (k : Nat) (bs : List Byte) (s : State) : (putPlain k bs s).tst = s.tst := rfl
@[simp] theorem putPlain_pat (k : Nat) (bs : List Byte) (s : State) : (putPlain k bs s).pat = s.pat := rfl
@[simp] theorem putPlain_hk (k : Nat) (bs : List Byte) (s : State) : (putPlain k bs s).hk = s.hk := rfl
@[simp] theorem putPlain_thm (k : Nat) (bs : List Byte) (s : State) : (putPlain k bs s).thm = s.thm := rfl
@[simp] theorem putPlain_plt (k : Nat) (bs : List Byte) (s : State) : (putPlain k bs s).plt = s.plt := rfl
@[simp] theorem putPlain_chg (k : Nat) (bs : List Byte) (s : State) : (putPlain k bs s).chg = s.chg := rfl
@[simp] theorem putPlain_gau (k : Nat) (bs : List Byte) (s : State) : (putPlain k bs s).gau = s.gau := rfl
@[simp] theorem putPlain_cal (k : Nat) (bs : List Byte) (s : State) : (putPlain k bs s).cal = s.cal := rfl
@[simp] theorem putPlain_pwr (k : Nat) (bs : List Byte) (s : State) : (putPlain k bs s).pwr = s.pwr := rfl
@[simp] theorem putPlain_bus (k : Nat) (bs : List Byte) (s : State) : (putPlain k bs s).bus = s.bus := rfl
@[simp] theorem putPlain_ds (k : Nat) (bs : List Byte) (s : State) : (putPlain k bs s).ds = s.ds := rfl
@[simp] theorem putPlain_irq (k : Nat) (bs : List Byte) (s : State) : (putPlain k bs s).irq = s.irq := rfl
@[simp] theorem putPlain_fl (k : Nat) (bs : List Byte) (s : State) : (putPlain k bs s).fl = s.fl := rfl
@[simp] theorem putPlain_otp (k : Nat) (bs : List Byte) (s : State) : (putPlain k bs s).otp = s.otp := rfl
@[simp] theorem putPlain_upd (k : Nat) (bs : List Byte) (s : State) : (putPlain k bs s).upd = s.upd := rfl

@[simp] theorem putLive_pending (k : Nat) (bs : List Byte) (s : State) : (putLive k bs s).pending = s.pending := rfl
@[simp] theorem putLive_clk (k : Nat) (bs : List Byte) (s : State) : (putLive k bs s).clk = s.clk := rfl
@[simp] theorem putLive_free (k : Nat) (bs : List Byte) (s : State) : (putLive k bs s).free = s.free := rfl
@[simp] theorem putLive_glob (k : Nat) (bs : List Byte) (s : State) : (putLive k bs s).glob = s.glob := rfl
@[simp] theorem putLive_cyc (k : Nat) (bs : List Byte) (s : State) : (putLive k bs s).cyc = s.cyc := rfl
@[simp] theorem putLive_qt (k : Nat) (bs : List Byte) (s : State) : (putLive k bs s).qt = s.qt := rfl
@[simp] theorem putLive_inp (k : Nat) (bs : List Byte) (s : State) : (putLive k bs s).inp = s.inp := rfl
@[simp] theorem putLive_rl (k : Nat) (bs : List Byte) (s : State) : (putLive k bs s).rl = s.rl := rfl
@[simp] theorem putLive_bk (k : Nat) (bs : List Byte) (s : State) : (putLive k bs s).bk = s.bk := rfl
@[simp] theorem putLive_seq (k : Nat) (bs : List Byte) (s : State) : (putLive k bs s).seq = s.seq := rfl
@[simp] theorem putLive_txn (k : Nat) (bs : List Byte) (s : State) : (putLive k bs s).txn = s.txn := rfl
@[simp] theorem putLive_safe (k : Nat) (bs : List Byte) (s : State) : (putLive k bs s).safe = s.safe := rfl
@[simp] theorem putLive_tst (k : Nat) (bs : List Byte) (s : State) : (putLive k bs s).tst = s.tst := rfl
@[simp] theorem putLive_pat (k : Nat) (bs : List Byte) (s : State) : (putLive k bs s).pat = s.pat := rfl
@[simp] theorem putLive_hk (k : Nat) (bs : List Byte) (s : State) : (putLive k bs s).hk = s.hk := rfl
@[simp] theorem putLive_thm (k : Nat) (bs : List Byte) (s : State) : (putLive k bs s).thm = s.thm := rfl
@[simp] theorem putLive_plt (k : Nat) (bs : List Byte) (s : State) : (putLive k bs s).plt = s.plt := rfl
@[simp] theorem putLive_chg (k : Nat) (bs : List Byte) (s : State) : (putLive k bs s).chg = s.chg := rfl
@[simp] theorem putLive_gau (k : Nat) (bs : List Byte) (s : State) : (putLive k bs s).gau = s.gau := rfl
@[simp] theorem putLive_cal (k : Nat) (bs : List Byte) (s : State) : (putLive k bs s).cal = s.cal := rfl
@[simp] theorem putLive_pwr (k : Nat) (bs : List Byte) (s : State) : (putLive k bs s).pwr = s.pwr := rfl
@[simp] theorem putLive_bus (k : Nat) (bs : List Byte) (s : State) : (putLive k bs s).bus = s.bus := rfl
@[simp] theorem putLive_ds (k : Nat) (bs : List Byte) (s : State) : (putLive k bs s).ds = s.ds := rfl
@[simp] theorem putLive_irq (k : Nat) (bs : List Byte) (s : State) : (putLive k bs s).irq = s.irq := rfl
@[simp] theorem putLive_fl (k : Nat) (bs : List Byte) (s : State) : (putLive k bs s).fl = s.fl := rfl
@[simp] theorem putLive_otp (k : Nat) (bs : List Byte) (s : State) : (putLive k bs s).otp = s.otp := rfl
@[simp] theorem putLive_upd (k : Nat) (bs : List Byte) (s : State) : (putLive k bs s).upd = s.upd := rfl

@[simp] theorem putStg_pending (k : Nat) (bs : List Byte) (s : State) : (putStg k bs s).pending = s.pending := rfl
@[simp] theorem putStg_clk (k : Nat) (bs : List Byte) (s : State) : (putStg k bs s).clk = s.clk := rfl
@[simp] theorem putStg_free (k : Nat) (bs : List Byte) (s : State) : (putStg k bs s).free = s.free := rfl
@[simp] theorem putStg_glob (k : Nat) (bs : List Byte) (s : State) : (putStg k bs s).glob = s.glob := rfl
@[simp] theorem putStg_cyc (k : Nat) (bs : List Byte) (s : State) : (putStg k bs s).cyc = s.cyc := rfl
@[simp] theorem putStg_qt (k : Nat) (bs : List Byte) (s : State) : (putStg k bs s).qt = s.qt := rfl
@[simp] theorem putStg_inp (k : Nat) (bs : List Byte) (s : State) : (putStg k bs s).inp = s.inp := rfl
@[simp] theorem putStg_rl (k : Nat) (bs : List Byte) (s : State) : (putStg k bs s).rl = s.rl := rfl
@[simp] theorem putStg_bk (k : Nat) (bs : List Byte) (s : State) : (putStg k bs s).bk = s.bk := rfl
@[simp] theorem putStg_seq (k : Nat) (bs : List Byte) (s : State) : (putStg k bs s).seq = s.seq := rfl
@[simp] theorem putStg_txn (k : Nat) (bs : List Byte) (s : State) : (putStg k bs s).txn = s.txn := rfl
@[simp] theorem putStg_safe (k : Nat) (bs : List Byte) (s : State) : (putStg k bs s).safe = s.safe := rfl
@[simp] theorem putStg_tst (k : Nat) (bs : List Byte) (s : State) : (putStg k bs s).tst = s.tst := rfl
@[simp] theorem putStg_pat (k : Nat) (bs : List Byte) (s : State) : (putStg k bs s).pat = s.pat := rfl
@[simp] theorem putStg_hk (k : Nat) (bs : List Byte) (s : State) : (putStg k bs s).hk = s.hk := rfl
@[simp] theorem putStg_thm (k : Nat) (bs : List Byte) (s : State) : (putStg k bs s).thm = s.thm := rfl
@[simp] theorem putStg_plt (k : Nat) (bs : List Byte) (s : State) : (putStg k bs s).plt = s.plt := rfl
@[simp] theorem putStg_chg (k : Nat) (bs : List Byte) (s : State) : (putStg k bs s).chg = s.chg := rfl
@[simp] theorem putStg_gau (k : Nat) (bs : List Byte) (s : State) : (putStg k bs s).gau = s.gau := rfl
@[simp] theorem putStg_cal (k : Nat) (bs : List Byte) (s : State) : (putStg k bs s).cal = s.cal := rfl
@[simp] theorem putStg_pwr (k : Nat) (bs : List Byte) (s : State) : (putStg k bs s).pwr = s.pwr := rfl
@[simp] theorem putStg_bus (k : Nat) (bs : List Byte) (s : State) : (putStg k bs s).bus = s.bus := rfl
@[simp] theorem putStg_ds (k : Nat) (bs : List Byte) (s : State) : (putStg k bs s).ds = s.ds := rfl
@[simp] theorem putStg_irq (k : Nat) (bs : List Byte) (s : State) : (putStg k bs s).irq = s.irq := rfl
@[simp] theorem putStg_fl (k : Nat) (bs : List Byte) (s : State) : (putStg k bs s).fl = s.fl := rfl
@[simp] theorem putStg_otp (k : Nat) (bs : List Byte) (s : State) : (putStg k bs s).otp = s.otp := rfl
@[simp] theorem putStg_upd (k : Nat) (bs : List Byte) (s : State) : (putStg k bs s).upd = s.upd := rfl

@[simp] theorem setPh_pending (r : Nat) (p : PhaseSt) (s : State) : (setPh r p s).pending = s.pending := rfl
@[simp] theorem setPh_clk (r : Nat) (p : PhaseSt) (s : State) : (setPh r p s).clk = s.clk := rfl
@[simp] theorem setPh_free (r : Nat) (p : PhaseSt) (s : State) : (setPh r p s).free = s.free := rfl
@[simp] theorem setPh_glob (r : Nat) (p : PhaseSt) (s : State) : (setPh r p s).glob = s.glob := rfl
@[simp] theorem setPh_regs (r : Nat) (p : PhaseSt) (s : State) : (setPh r p s).regs = s.regs := rfl
@[simp] theorem setPh_cyc (r : Nat) (p : PhaseSt) (s : State) : (setPh r p s).cyc = s.cyc := rfl
@[simp] theorem setPh_qt (r : Nat) (p : PhaseSt) (s : State) : (setPh r p s).qt = s.qt := rfl
@[simp] theorem setPh_inp (r : Nat) (p : PhaseSt) (s : State) : (setPh r p s).inp = s.inp := rfl
@[simp] theorem setPh_rl (r : Nat) (p : PhaseSt) (s : State) : (setPh r p s).rl = s.rl := rfl
@[simp] theorem setPh_seq (r : Nat) (p : PhaseSt) (s : State) : (setPh r p s).seq = s.seq := rfl
@[simp] theorem setPh_txn (r : Nat) (p : PhaseSt) (s : State) : (setPh r p s).txn = s.txn := rfl
@[simp] theorem setPh_safe (r : Nat) (p : PhaseSt) (s : State) : (setPh r p s).safe = s.safe := rfl
@[simp] theorem setPh_tst (r : Nat) (p : PhaseSt) (s : State) : (setPh r p s).tst = s.tst := rfl
@[simp] theorem setPh_pat (r : Nat) (p : PhaseSt) (s : State) : (setPh r p s).pat = s.pat := rfl
@[simp] theorem setPh_hk (r : Nat) (p : PhaseSt) (s : State) : (setPh r p s).hk = s.hk := rfl
@[simp] theorem setPh_thm (r : Nat) (p : PhaseSt) (s : State) : (setPh r p s).thm = s.thm := rfl
@[simp] theorem setPh_plt (r : Nat) (p : PhaseSt) (s : State) : (setPh r p s).plt = s.plt := rfl
@[simp] theorem setPh_chg (r : Nat) (p : PhaseSt) (s : State) : (setPh r p s).chg = s.chg := rfl
@[simp] theorem setPh_gau (r : Nat) (p : PhaseSt) (s : State) : (setPh r p s).gau = s.gau := rfl
@[simp] theorem setPh_cal (r : Nat) (p : PhaseSt) (s : State) : (setPh r p s).cal = s.cal := rfl
@[simp] theorem setPh_pwr (r : Nat) (p : PhaseSt) (s : State) : (setPh r p s).pwr = s.pwr := rfl
@[simp] theorem setPh_bus (r : Nat) (p : PhaseSt) (s : State) : (setPh r p s).bus = s.bus := rfl
@[simp] theorem setPh_ds (r : Nat) (p : PhaseSt) (s : State) : (setPh r p s).ds = s.ds := rfl
@[simp] theorem setPh_irq (r : Nat) (p : PhaseSt) (s : State) : (setPh r p s).irq = s.irq := rfl
@[simp] theorem setPh_fl (r : Nat) (p : PhaseSt) (s : State) : (setPh r p s).fl = s.fl := rfl
@[simp] theorem setPh_otp (r : Nat) (p : PhaseSt) (s : State) : (setPh r p s).otp = s.otp := rfl
@[simp] theorem setPh_upd (r : Nat) (p : PhaseSt) (s : State) : (setPh r p s).upd = s.upd := rfl

@[simp] theorem setLdo_pending (c : Nat) (l : LdoSt) (s : State) : (setLdo c l s).pending = s.pending := rfl
@[simp] theorem setLdo_clk (c : Nat) (l : LdoSt) (s : State) : (setLdo c l s).clk = s.clk := rfl
@[simp] theorem setLdo_free (c : Nat) (l : LdoSt) (s : State) : (setLdo c l s).free = s.free := rfl
@[simp] theorem setLdo_glob (c : Nat) (l : LdoSt) (s : State) : (setLdo c l s).glob = s.glob := rfl
@[simp] theorem setLdo_regs (c : Nat) (l : LdoSt) (s : State) : (setLdo c l s).regs = s.regs := rfl
@[simp] theorem setLdo_cyc (c : Nat) (l : LdoSt) (s : State) : (setLdo c l s).cyc = s.cyc := rfl
@[simp] theorem setLdo_qt (c : Nat) (l : LdoSt) (s : State) : (setLdo c l s).qt = s.qt := rfl
@[simp] theorem setLdo_inp (c : Nat) (l : LdoSt) (s : State) : (setLdo c l s).inp = s.inp := rfl
@[simp] theorem setLdo_rl (c : Nat) (l : LdoSt) (s : State) : (setLdo c l s).rl = s.rl := rfl
@[simp] theorem setLdo_seq (c : Nat) (l : LdoSt) (s : State) : (setLdo c l s).seq = s.seq := rfl
@[simp] theorem setLdo_txn (c : Nat) (l : LdoSt) (s : State) : (setLdo c l s).txn = s.txn := rfl
@[simp] theorem setLdo_safe (c : Nat) (l : LdoSt) (s : State) : (setLdo c l s).safe = s.safe := rfl
@[simp] theorem setLdo_tst (c : Nat) (l : LdoSt) (s : State) : (setLdo c l s).tst = s.tst := rfl
@[simp] theorem setLdo_pat (c : Nat) (l : LdoSt) (s : State) : (setLdo c l s).pat = s.pat := rfl
@[simp] theorem setLdo_hk (c : Nat) (l : LdoSt) (s : State) : (setLdo c l s).hk = s.hk := rfl
@[simp] theorem setLdo_thm (c : Nat) (l : LdoSt) (s : State) : (setLdo c l s).thm = s.thm := rfl
@[simp] theorem setLdo_plt (c : Nat) (l : LdoSt) (s : State) : (setLdo c l s).plt = s.plt := rfl
@[simp] theorem setLdo_chg (c : Nat) (l : LdoSt) (s : State) : (setLdo c l s).chg = s.chg := rfl
@[simp] theorem setLdo_gau (c : Nat) (l : LdoSt) (s : State) : (setLdo c l s).gau = s.gau := rfl
@[simp] theorem setLdo_cal (c : Nat) (l : LdoSt) (s : State) : (setLdo c l s).cal = s.cal := rfl
@[simp] theorem setLdo_pwr (c : Nat) (l : LdoSt) (s : State) : (setLdo c l s).pwr = s.pwr := rfl
@[simp] theorem setLdo_bus (c : Nat) (l : LdoSt) (s : State) : (setLdo c l s).bus = s.bus := rfl
@[simp] theorem setLdo_ds (c : Nat) (l : LdoSt) (s : State) : (setLdo c l s).ds = s.ds := rfl
@[simp] theorem setLdo_irq (c : Nat) (l : LdoSt) (s : State) : (setLdo c l s).irq = s.irq := rfl
@[simp] theorem setLdo_fl (c : Nat) (l : LdoSt) (s : State) : (setLdo c l s).fl = s.fl := rfl
@[simp] theorem setLdo_otp (c : Nat) (l : LdoSt) (s : State) : (setLdo c l s).otp = s.otp := rfl
@[simp] theorem setLdo_upd (c : Nat) (l : LdoSt) (s : State) : (setLdo c l s).upd = s.upd := rfl

@[simp] theorem setPath_pending (x : Path) (p : PathSt) (s : State) : (setPath x p s).pending = s.pending := by cases x <;> rfl
@[simp] theorem setPath_clk (x : Path) (p : PathSt) (s : State) : (setPath x p s).clk = s.clk := by cases x <;> rfl
@[simp] theorem setPath_free (x : Path) (p : PathSt) (s : State) : (setPath x p s).free = s.free := by cases x <;> rfl
@[simp] theorem setPath_glob (x : Path) (p : PathSt) (s : State) : (setPath x p s).glob = s.glob := by cases x <;> rfl
@[simp] theorem setPath_regs (x : Path) (p : PathSt) (s : State) : (setPath x p s).regs = s.regs := by cases x <;> rfl
@[simp] theorem setPath_cyc (x : Path) (p : PathSt) (s : State) : (setPath x p s).cyc = s.cyc := by cases x <;> rfl
@[simp] theorem setPath_qt (x : Path) (p : PathSt) (s : State) : (setPath x p s).qt = s.qt := by cases x <;> rfl
@[simp] theorem setPath_rl (x : Path) (p : PathSt) (s : State) : (setPath x p s).rl = s.rl := by cases x <;> rfl
@[simp] theorem setPath_bk (x : Path) (p : PathSt) (s : State) : (setPath x p s).bk = s.bk := by cases x <;> rfl
@[simp] theorem setPath_seq (x : Path) (p : PathSt) (s : State) : (setPath x p s).seq = s.seq := by cases x <;> rfl
@[simp] theorem setPath_txn (x : Path) (p : PathSt) (s : State) : (setPath x p s).txn = s.txn := by cases x <;> rfl
@[simp] theorem setPath_safe (x : Path) (p : PathSt) (s : State) : (setPath x p s).safe = s.safe := by cases x <;> rfl
@[simp] theorem setPath_tst (x : Path) (p : PathSt) (s : State) : (setPath x p s).tst = s.tst := by cases x <;> rfl
@[simp] theorem setPath_pat (x : Path) (p : PathSt) (s : State) : (setPath x p s).pat = s.pat := by cases x <;> rfl
@[simp] theorem setPath_hk (x : Path) (p : PathSt) (s : State) : (setPath x p s).hk = s.hk := by cases x <;> rfl
@[simp] theorem setPath_thm (x : Path) (p : PathSt) (s : State) : (setPath x p s).thm = s.thm := by cases x <;> rfl
@[simp] theorem setPath_plt (x : Path) (p : PathSt) (s : State) : (setPath x p s).plt = s.plt := by cases x <;> rfl
@[simp] theorem setPath_chg (x : Path) (p : PathSt) (s : State) : (setPath x p s).chg = s.chg := by cases x <;> rfl
@[simp] theorem setPath_gau (x : Path) (p : PathSt) (s : State) : (setPath x p s).gau = s.gau := by cases x <;> rfl
@[simp] theorem setPath_cal (x : Path) (p : PathSt) (s : State) : (setPath x p s).cal = s.cal := by cases x <;> rfl
@[simp] theorem setPath_pwr (x : Path) (p : PathSt) (s : State) : (setPath x p s).pwr = s.pwr := by cases x <;> rfl
@[simp] theorem setPath_bus (x : Path) (p : PathSt) (s : State) : (setPath x p s).bus = s.bus := by cases x <;> rfl
@[simp] theorem setPath_ds (x : Path) (p : PathSt) (s : State) : (setPath x p s).ds = s.ds := by cases x <;> rfl
@[simp] theorem setPath_irq (x : Path) (p : PathSt) (s : State) : (setPath x p s).irq = s.irq := by cases x <;> rfl
@[simp] theorem setPath_fl (x : Path) (p : PathSt) (s : State) : (setPath x p s).fl = s.fl := by cases x <;> rfl
@[simp] theorem setPath_otp (x : Path) (p : PathSt) (s : State) : (setPath x p s).otp = s.otp := by cases x <;> rfl
@[simp] theorem setPath_upd (x : Path) (p : PathSt) (s : State) : (setPath x p s).upd = s.upd := by cases x <;> rfl

@[simp] theorem setSector_pending (n : Nat) (x : Sector) (s : State) : (setSector n x s).pending = s.pending := rfl
@[simp] theorem setSector_clk (n : Nat) (x : Sector) (s : State) : (setSector n x s).clk = s.clk := rfl
@[simp] theorem setSector_free (n : Nat) (x : Sector) (s : State) : (setSector n x s).free = s.free := rfl
@[simp] theorem setSector_glob (n : Nat) (x : Sector) (s : State) : (setSector n x s).glob = s.glob := rfl
@[simp] theorem setSector_regs (n : Nat) (x : Sector) (s : State) : (setSector n x s).regs = s.regs := rfl
@[simp] theorem setSector_cyc (n : Nat) (x : Sector) (s : State) : (setSector n x s).cyc = s.cyc := rfl
@[simp] theorem setSector_qt (n : Nat) (x : Sector) (s : State) : (setSector n x s).qt = s.qt := rfl
@[simp] theorem setSector_inp (n : Nat) (x : Sector) (s : State) : (setSector n x s).inp = s.inp := rfl
@[simp] theorem setSector_rl (n : Nat) (x : Sector) (s : State) : (setSector n x s).rl = s.rl := rfl
@[simp] theorem setSector_bk (n : Nat) (x : Sector) (s : State) : (setSector n x s).bk = s.bk := rfl
@[simp] theorem setSector_seq (n : Nat) (x : Sector) (s : State) : (setSector n x s).seq = s.seq := rfl
@[simp] theorem setSector_txn (n : Nat) (x : Sector) (s : State) : (setSector n x s).txn = s.txn := rfl
@[simp] theorem setSector_safe (n : Nat) (x : Sector) (s : State) : (setSector n x s).safe = s.safe := rfl
@[simp] theorem setSector_tst (n : Nat) (x : Sector) (s : State) : (setSector n x s).tst = s.tst := rfl
@[simp] theorem setSector_pat (n : Nat) (x : Sector) (s : State) : (setSector n x s).pat = s.pat := rfl
@[simp] theorem setSector_hk (n : Nat) (x : Sector) (s : State) : (setSector n x s).hk = s.hk := rfl
@[simp] theorem setSector_thm (n : Nat) (x : Sector) (s : State) : (setSector n x s).thm = s.thm := rfl
@[simp] theorem setSector_plt (n : Nat) (x : Sector) (s : State) : (setSector n x s).plt = s.plt := rfl
@[simp] theorem setSector_chg (n : Nat) (x : Sector) (s : State) : (setSector n x s).chg = s.chg := rfl
@[simp] theorem setSector_gau (n : Nat) (x : Sector) (s : State) : (setSector n x s).gau = s.gau := rfl
@[simp] theorem setSector_cal (n : Nat) (x : Sector) (s : State) : (setSector n x s).cal = s.cal := rfl
@[simp] theorem setSector_pwr (n : Nat) (x : Sector) (s : State) : (setSector n x s).pwr = s.pwr := rfl
@[simp] theorem setSector_bus (n : Nat) (x : Sector) (s : State) : (setSector n x s).bus = s.bus := rfl
@[simp] theorem setSector_ds (n : Nat) (x : Sector) (s : State) : (setSector n x s).ds = s.ds := rfl
@[simp] theorem setSector_irq (n : Nat) (x : Sector) (s : State) : (setSector n x s).irq = s.irq := rfl
@[simp] theorem setSector_otp (n : Nat) (x : Sector) (s : State) : (setSector n x s).otp = s.otp := rfl
@[simp] theorem setSector_upd (n : Nat) (x : Sector) (s : State) : (setSector n x s).upd = s.upd := rfl

@[simp] theorem setRl_pending (f : Rails → Rails) (s : State) : (setRl f s).pending = s.pending := rfl
@[simp] theorem setRl_clk (f : Rails → Rails) (s : State) : (setRl f s).clk = s.clk := rfl
@[simp] theorem setRl_free (f : Rails → Rails) (s : State) : (setRl f s).free = s.free := rfl
@[simp] theorem setRl_glob (f : Rails → Rails) (s : State) : (setRl f s).glob = s.glob := rfl
@[simp] theorem setRl_regs (f : Rails → Rails) (s : State) : (setRl f s).regs = s.regs := rfl
@[simp] theorem setRl_cyc (f : Rails → Rails) (s : State) : (setRl f s).cyc = s.cyc := rfl
@[simp] theorem setRl_qt (f : Rails → Rails) (s : State) : (setRl f s).qt = s.qt := rfl
@[simp] theorem setRl_inp (f : Rails → Rails) (s : State) : (setRl f s).inp = s.inp := rfl
@[simp] theorem setRl_bk (f : Rails → Rails) (s : State) : (setRl f s).bk = s.bk := rfl
@[simp] theorem setRl_seq (f : Rails → Rails) (s : State) : (setRl f s).seq = s.seq := rfl
@[simp] theorem setRl_txn (f : Rails → Rails) (s : State) : (setRl f s).txn = s.txn := rfl
@[simp] theorem setRl_safe (f : Rails → Rails) (s : State) : (setRl f s).safe = s.safe := rfl
@[simp] theorem setRl_tst (f : Rails → Rails) (s : State) : (setRl f s).tst = s.tst := rfl
@[simp] theorem setRl_pat (f : Rails → Rails) (s : State) : (setRl f s).pat = s.pat := rfl
@[simp] theorem setRl_hk (f : Rails → Rails) (s : State) : (setRl f s).hk = s.hk := rfl
@[simp] theorem setRl_thm (f : Rails → Rails) (s : State) : (setRl f s).thm = s.thm := rfl
@[simp] theorem setRl_plt (f : Rails → Rails) (s : State) : (setRl f s).plt = s.plt := rfl
@[simp] theorem setRl_chg (f : Rails → Rails) (s : State) : (setRl f s).chg = s.chg := rfl
@[simp] theorem setRl_gau (f : Rails → Rails) (s : State) : (setRl f s).gau = s.gau := rfl
@[simp] theorem setRl_cal (f : Rails → Rails) (s : State) : (setRl f s).cal = s.cal := rfl
@[simp] theorem setRl_pwr (f : Rails → Rails) (s : State) : (setRl f s).pwr = s.pwr := rfl
@[simp] theorem setRl_bus (f : Rails → Rails) (s : State) : (setRl f s).bus = s.bus := rfl
@[simp] theorem setRl_ds (f : Rails → Rails) (s : State) : (setRl f s).ds = s.ds := rfl
@[simp] theorem setRl_irq (f : Rails → Rails) (s : State) : (setRl f s).irq = s.irq := rfl
@[simp] theorem setRl_fl (f : Rails → Rails) (s : State) : (setRl f s).fl = s.fl := rfl
@[simp] theorem setRl_otp (f : Rails → Rails) (s : State) : (setRl f s).otp = s.otp := rfl
@[simp] theorem setRl_upd (f : Rails → Rails) (s : State) : (setRl f s).upd = s.upd := rfl

@[simp] theorem setSeq_pending (f : Seq → Seq) (s : State) : (setSeq f s).pending = s.pending := rfl
@[simp] theorem setSeq_clk (f : Seq → Seq) (s : State) : (setSeq f s).clk = s.clk := rfl
@[simp] theorem setSeq_free (f : Seq → Seq) (s : State) : (setSeq f s).free = s.free := rfl
@[simp] theorem setSeq_glob (f : Seq → Seq) (s : State) : (setSeq f s).glob = s.glob := rfl
@[simp] theorem setSeq_regs (f : Seq → Seq) (s : State) : (setSeq f s).regs = s.regs := rfl
@[simp] theorem setSeq_cyc (f : Seq → Seq) (s : State) : (setSeq f s).cyc = s.cyc := rfl
@[simp] theorem setSeq_qt (f : Seq → Seq) (s : State) : (setSeq f s).qt = s.qt := rfl
@[simp] theorem setSeq_inp (f : Seq → Seq) (s : State) : (setSeq f s).inp = s.inp := rfl
@[simp] theorem setSeq_rl (f : Seq → Seq) (s : State) : (setSeq f s).rl = s.rl := rfl
@[simp] theorem setSeq_bk (f : Seq → Seq) (s : State) : (setSeq f s).bk = s.bk := rfl
@[simp] theorem setSeq_txn (f : Seq → Seq) (s : State) : (setSeq f s).txn = s.txn := rfl
@[simp] theorem setSeq_safe (f : Seq → Seq) (s : State) : (setSeq f s).safe = s.safe := rfl
@[simp] theorem setSeq_tst (f : Seq → Seq) (s : State) : (setSeq f s).tst = s.tst := rfl
@[simp] theorem setSeq_pat (f : Seq → Seq) (s : State) : (setSeq f s).pat = s.pat := rfl
@[simp] theorem setSeq_hk (f : Seq → Seq) (s : State) : (setSeq f s).hk = s.hk := rfl
@[simp] theorem setSeq_thm (f : Seq → Seq) (s : State) : (setSeq f s).thm = s.thm := rfl
@[simp] theorem setSeq_plt (f : Seq → Seq) (s : State) : (setSeq f s).plt = s.plt := rfl
@[simp] theorem setSeq_chg (f : Seq → Seq) (s : State) : (setSeq f s).chg = s.chg := rfl
@[simp] theorem setSeq_gau (f : Seq → Seq) (s : State) : (setSeq f s).gau = s.gau := rfl
@[simp] theorem setSeq_cal (f : Seq → Seq) (s : State) : (setSeq f s).cal = s.cal := rfl
@[simp] theorem setSeq_pwr (f : Seq → Seq) (s : State) : (setSeq f s).pwr = s.pwr := rfl
@[simp] theorem setSeq_bus (f : Seq → Seq) (s : State) : (setSeq f s).bus = s.bus := rfl
@[simp] theorem setSeq_ds (f : Seq → Seq) (s : State) : (setSeq f s).ds = s.ds := rfl
@[simp] theorem setSeq_irq (f : Seq → Seq) (s : State) : (setSeq f s).irq = s.irq := rfl
@[simp] theorem setSeq_fl (f : Seq → Seq) (s : State) : (setSeq f s).fl = s.fl := rfl
@[simp] theorem setSeq_otp (f : Seq → Seq) (s : State) : (setSeq f s).otp = s.otp := rfl
@[simp] theorem setSeq_upd (f : Seq → Seq) (s : State) : (setSeq f s).upd = s.upd := rfl

@[simp] theorem setChg_pending (f : Chg → Chg) (s : State) : (setChg f s).pending = s.pending := rfl
@[simp] theorem setChg_clk (f : Chg → Chg) (s : State) : (setChg f s).clk = s.clk := rfl
@[simp] theorem setChg_free (f : Chg → Chg) (s : State) : (setChg f s).free = s.free := rfl
@[simp] theorem setChg_glob (f : Chg → Chg) (s : State) : (setChg f s).glob = s.glob := rfl
@[simp] theorem setChg_regs (f : Chg → Chg) (s : State) : (setChg f s).regs = s.regs := rfl
@[simp] theorem setChg_cyc (f : Chg → Chg) (s : State) : (setChg f s).cyc = s.cyc := rfl
@[simp] theorem setChg_qt (f : Chg → Chg) (s : State) : (setChg f s).qt = s.qt := rfl
@[simp] theorem setChg_inp (f : Chg → Chg) (s : State) : (setChg f s).inp = s.inp := rfl
@[simp] theorem setChg_rl (f : Chg → Chg) (s : State) : (setChg f s).rl = s.rl := rfl
@[simp] theorem setChg_bk (f : Chg → Chg) (s : State) : (setChg f s).bk = s.bk := rfl
@[simp] theorem setChg_seq (f : Chg → Chg) (s : State) : (setChg f s).seq = s.seq := rfl
@[simp] theorem setChg_txn (f : Chg → Chg) (s : State) : (setChg f s).txn = s.txn := rfl
@[simp] theorem setChg_safe (f : Chg → Chg) (s : State) : (setChg f s).safe = s.safe := rfl
@[simp] theorem setChg_tst (f : Chg → Chg) (s : State) : (setChg f s).tst = s.tst := rfl
@[simp] theorem setChg_pat (f : Chg → Chg) (s : State) : (setChg f s).pat = s.pat := rfl
@[simp] theorem setChg_hk (f : Chg → Chg) (s : State) : (setChg f s).hk = s.hk := rfl
@[simp] theorem setChg_thm (f : Chg → Chg) (s : State) : (setChg f s).thm = s.thm := rfl
@[simp] theorem setChg_plt (f : Chg → Chg) (s : State) : (setChg f s).plt = s.plt := rfl
@[simp] theorem setChg_gau (f : Chg → Chg) (s : State) : (setChg f s).gau = s.gau := rfl
@[simp] theorem setChg_cal (f : Chg → Chg) (s : State) : (setChg f s).cal = s.cal := rfl
@[simp] theorem setChg_pwr (f : Chg → Chg) (s : State) : (setChg f s).pwr = s.pwr := rfl
@[simp] theorem setChg_bus (f : Chg → Chg) (s : State) : (setChg f s).bus = s.bus := rfl
@[simp] theorem setChg_ds (f : Chg → Chg) (s : State) : (setChg f s).ds = s.ds := rfl
@[simp] theorem setChg_irq (f : Chg → Chg) (s : State) : (setChg f s).irq = s.irq := rfl
@[simp] theorem setChg_fl (f : Chg → Chg) (s : State) : (setChg f s).fl = s.fl := rfl
@[simp] theorem setChg_otp (f : Chg → Chg) (s : State) : (setChg f s).otp = s.otp := rfl
@[simp] theorem setChg_upd (f : Chg → Chg) (s : State) : (setChg f s).upd = s.upd := rfl

@[simp] theorem setPlt_pending (f : Plt → Plt) (s : State) : (setPlt f s).pending = s.pending := rfl
@[simp] theorem setPlt_clk (f : Plt → Plt) (s : State) : (setPlt f s).clk = s.clk := rfl
@[simp] theorem setPlt_free (f : Plt → Plt) (s : State) : (setPlt f s).free = s.free := rfl
@[simp] theorem setPlt_glob (f : Plt → Plt) (s : State) : (setPlt f s).glob = s.glob := rfl
@[simp] theorem setPlt_regs (f : Plt → Plt) (s : State) : (setPlt f s).regs = s.regs := rfl
@[simp] theorem setPlt_cyc (f : Plt → Plt) (s : State) : (setPlt f s).cyc = s.cyc := rfl
@[simp] theorem setPlt_qt (f : Plt → Plt) (s : State) : (setPlt f s).qt = s.qt := rfl
@[simp] theorem setPlt_inp (f : Plt → Plt) (s : State) : (setPlt f s).inp = s.inp := rfl
@[simp] theorem setPlt_rl (f : Plt → Plt) (s : State) : (setPlt f s).rl = s.rl := rfl
@[simp] theorem setPlt_bk (f : Plt → Plt) (s : State) : (setPlt f s).bk = s.bk := rfl
@[simp] theorem setPlt_seq (f : Plt → Plt) (s : State) : (setPlt f s).seq = s.seq := rfl
@[simp] theorem setPlt_txn (f : Plt → Plt) (s : State) : (setPlt f s).txn = s.txn := rfl
@[simp] theorem setPlt_safe (f : Plt → Plt) (s : State) : (setPlt f s).safe = s.safe := rfl
@[simp] theorem setPlt_tst (f : Plt → Plt) (s : State) : (setPlt f s).tst = s.tst := rfl
@[simp] theorem setPlt_pat (f : Plt → Plt) (s : State) : (setPlt f s).pat = s.pat := rfl
@[simp] theorem setPlt_hk (f : Plt → Plt) (s : State) : (setPlt f s).hk = s.hk := rfl
@[simp] theorem setPlt_thm (f : Plt → Plt) (s : State) : (setPlt f s).thm = s.thm := rfl
@[simp] theorem setPlt_chg (f : Plt → Plt) (s : State) : (setPlt f s).chg = s.chg := rfl
@[simp] theorem setPlt_gau (f : Plt → Plt) (s : State) : (setPlt f s).gau = s.gau := rfl
@[simp] theorem setPlt_cal (f : Plt → Plt) (s : State) : (setPlt f s).cal = s.cal := rfl
@[simp] theorem setPlt_pwr (f : Plt → Plt) (s : State) : (setPlt f s).pwr = s.pwr := rfl
@[simp] theorem setPlt_bus (f : Plt → Plt) (s : State) : (setPlt f s).bus = s.bus := rfl
@[simp] theorem setPlt_ds (f : Plt → Plt) (s : State) : (setPlt f s).ds = s.ds := rfl
@[simp] theorem setPlt_irq (f : Plt → Plt) (s : State) : (setPlt f s).irq = s.irq := rfl
@[simp] theorem setPlt_fl (f : Plt → Plt) (s : State) : (setPlt f s).fl = s.fl := rfl
@[simp] theorem setPlt_otp (f : Plt → Plt) (s : State) : (setPlt f s).otp = s.otp := rfl
@[simp] theorem setPlt_upd (f : Plt → Plt) (s : State) : (setPlt f s).upd = s.upd := rfl

@[simp] theorem setGau_pending (f : Gau → Gau) (s : State) : (setGau f s).pending = s.pending := rfl
@[simp] theorem setGau_clk (f : Gau → Gau) (s : State) : (setGau f s).clk = s.clk := rfl
@[simp] theorem setGau_free (f : Gau → Gau) (s : State) : (setGau f s).free = s.free := rfl
@[simp] theorem setGau_glob (f : Gau → Gau) (s : State) : (setGau f s).glob = s.glob := rfl
@[simp] theorem setGau_regs (f : Gau → Gau) (s : State) : (setGau f s).regs = s.regs := rfl
@[simp] theorem setGau_cyc (f : Gau → Gau) (s : State) : (setGau f s).cyc = s.cyc := rfl
@[simp] theorem setGau_qt (f : Gau → Gau) (s : State) : (setGau f s).qt = s.qt := rfl
@[simp] theorem setGau_inp (f : Gau → Gau) (s : State) : (setGau f s).inp = s.inp := rfl
@[simp] theorem setGau_rl (f : Gau → Gau) (s : State) : (setGau f s).rl = s.rl := rfl
@[simp] theorem setGau_bk (f : Gau → Gau) (s : State) : (setGau f s).bk = s.bk := rfl
@[simp] theorem setGau_seq (f : Gau → Gau) (s : State) : (setGau f s).seq = s.seq := rfl
@[simp] theorem setGau_txn (f : Gau → Gau) (s : State) : (setGau f s).txn = s.txn := rfl
@[simp] theorem setGau_safe (f : Gau → Gau) (s : State) : (setGau f s).safe = s.safe := rfl
@[simp] theorem setGau_tst (f : Gau → Gau) (s : State) : (setGau f s).tst = s.tst := rfl
@[simp] theorem setGau_pat (f : Gau → Gau) (s : State) : (setGau f s).pat = s.pat := rfl
@[simp] theorem setGau_hk (f : Gau → Gau) (s : State) : (setGau f s).hk = s.hk := rfl
@[simp] theorem setGau_thm (f : Gau → Gau) (s : State) : (setGau f s).thm = s.thm := rfl
@[simp] theorem setGau_plt (f : Gau → Gau) (s : State) : (setGau f s).plt = s.plt := rfl
@[simp] theorem setGau_chg (f : Gau → Gau) (s : State) : (setGau f s).chg = s.chg := rfl
@[simp] theorem setGau_cal (f : Gau → Gau) (s : State) : (setGau f s).cal = s.cal := rfl
@[simp] theorem setGau_pwr (f : Gau → Gau) (s : State) : (setGau f s).pwr = s.pwr := rfl
@[simp] theorem setGau_bus (f : Gau → Gau) (s : State) : (setGau f s).bus = s.bus := rfl
@[simp] theorem setGau_ds (f : Gau → Gau) (s : State) : (setGau f s).ds = s.ds := rfl
@[simp] theorem setGau_irq (f : Gau → Gau) (s : State) : (setGau f s).irq = s.irq := rfl
@[simp] theorem setGau_fl (f : Gau → Gau) (s : State) : (setGau f s).fl = s.fl := rfl
@[simp] theorem setGau_otp (f : Gau → Gau) (s : State) : (setGau f s).otp = s.otp := rfl
@[simp] theorem setGau_upd (f : Gau → Gau) (s : State) : (setGau f s).upd = s.upd := rfl

@[simp] theorem setThm_pending (f : Thm → Thm) (s : State) : (setThm f s).pending = s.pending := rfl
@[simp] theorem setThm_clk (f : Thm → Thm) (s : State) : (setThm f s).clk = s.clk := rfl
@[simp] theorem setThm_free (f : Thm → Thm) (s : State) : (setThm f s).free = s.free := rfl
@[simp] theorem setThm_glob (f : Thm → Thm) (s : State) : (setThm f s).glob = s.glob := rfl
@[simp] theorem setThm_regs (f : Thm → Thm) (s : State) : (setThm f s).regs = s.regs := rfl
@[simp] theorem setThm_cyc (f : Thm → Thm) (s : State) : (setThm f s).cyc = s.cyc := rfl
@[simp] theorem setThm_qt (f : Thm → Thm) (s : State) : (setThm f s).qt = s.qt := rfl
@[simp] theorem setThm_inp (f : Thm → Thm) (s : State) : (setThm f s).inp = s.inp := rfl
@[simp] theorem setThm_rl (f : Thm → Thm) (s : State) : (setThm f s).rl = s.rl := rfl
@[simp] theorem setThm_bk (f : Thm → Thm) (s : State) : (setThm f s).bk = s.bk := rfl
@[simp] theorem setThm_seq (f : Thm → Thm) (s : State) : (setThm f s).seq = s.seq := rfl
@[simp] theorem setThm_txn (f : Thm → Thm) (s : State) : (setThm f s).txn = s.txn := rfl
@[simp] theorem setThm_safe (f : Thm → Thm) (s : State) : (setThm f s).safe = s.safe := rfl
@[simp] theorem setThm_tst (f : Thm → Thm) (s : State) : (setThm f s).tst = s.tst := rfl
@[simp] theorem setThm_pat (f : Thm → Thm) (s : State) : (setThm f s).pat = s.pat := rfl
@[simp] theorem setThm_hk (f : Thm → Thm) (s : State) : (setThm f s).hk = s.hk := rfl
@[simp] theorem setThm_plt (f : Thm → Thm) (s : State) : (setThm f s).plt = s.plt := rfl
@[simp] theorem setThm_chg (f : Thm → Thm) (s : State) : (setThm f s).chg = s.chg := rfl
@[simp] theorem setThm_gau (f : Thm → Thm) (s : State) : (setThm f s).gau = s.gau := rfl
@[simp] theorem setThm_cal (f : Thm → Thm) (s : State) : (setThm f s).cal = s.cal := rfl
@[simp] theorem setThm_pwr (f : Thm → Thm) (s : State) : (setThm f s).pwr = s.pwr := rfl
@[simp] theorem setThm_bus (f : Thm → Thm) (s : State) : (setThm f s).bus = s.bus := rfl
@[simp] theorem setThm_ds (f : Thm → Thm) (s : State) : (setThm f s).ds = s.ds := rfl
@[simp] theorem setThm_irq (f : Thm → Thm) (s : State) : (setThm f s).irq = s.irq := rfl
@[simp] theorem setThm_fl (f : Thm → Thm) (s : State) : (setThm f s).fl = s.fl := rfl
@[simp] theorem setThm_otp (f : Thm → Thm) (s : State) : (setThm f s).otp = s.otp := rfl
@[simp] theorem setThm_upd (f : Thm → Thm) (s : State) : (setThm f s).upd = s.upd := rfl

@[simp] theorem setHk_pending (f : Hk → Hk) (s : State) : (setHk f s).pending = s.pending := rfl
@[simp] theorem setHk_clk (f : Hk → Hk) (s : State) : (setHk f s).clk = s.clk := rfl
@[simp] theorem setHk_free (f : Hk → Hk) (s : State) : (setHk f s).free = s.free := rfl
@[simp] theorem setHk_glob (f : Hk → Hk) (s : State) : (setHk f s).glob = s.glob := rfl
@[simp] theorem setHk_regs (f : Hk → Hk) (s : State) : (setHk f s).regs = s.regs := rfl
@[simp] theorem setHk_cyc (f : Hk → Hk) (s : State) : (setHk f s).cyc = s.cyc := rfl
@[simp] theorem setHk_qt (f : Hk → Hk) (s : State) : (setHk f s).qt = s.qt := rfl
@[simp] theorem setHk_inp (f : Hk → Hk) (s : State) : (setHk f s).inp = s.inp := rfl
@[simp] theorem setHk_rl (f : Hk → Hk) (s : State) : (setHk f s).rl = s.rl := rfl
@[simp] theorem setHk_bk (f : Hk → Hk) (s : State) : (setHk f s).bk = s.bk := rfl
@[simp] theorem setHk_seq (f : Hk → Hk) (s : State) : (setHk f s).seq = s.seq := rfl
@[simp] theorem setHk_txn (f : Hk → Hk) (s : State) : (setHk f s).txn = s.txn := rfl
@[simp] theorem setHk_safe (f : Hk → Hk) (s : State) : (setHk f s).safe = s.safe := rfl
@[simp] theorem setHk_tst (f : Hk → Hk) (s : State) : (setHk f s).tst = s.tst := rfl
@[simp] theorem setHk_pat (f : Hk → Hk) (s : State) : (setHk f s).pat = s.pat := rfl
@[simp] theorem setHk_thm (f : Hk → Hk) (s : State) : (setHk f s).thm = s.thm := rfl
@[simp] theorem setHk_plt (f : Hk → Hk) (s : State) : (setHk f s).plt = s.plt := rfl
@[simp] theorem setHk_chg (f : Hk → Hk) (s : State) : (setHk f s).chg = s.chg := rfl
@[simp] theorem setHk_gau (f : Hk → Hk) (s : State) : (setHk f s).gau = s.gau := rfl
@[simp] theorem setHk_cal (f : Hk → Hk) (s : State) : (setHk f s).cal = s.cal := rfl
@[simp] theorem setHk_pwr (f : Hk → Hk) (s : State) : (setHk f s).pwr = s.pwr := rfl
@[simp] theorem setHk_bus (f : Hk → Hk) (s : State) : (setHk f s).bus = s.bus := rfl
@[simp] theorem setHk_ds (f : Hk → Hk) (s : State) : (setHk f s).ds = s.ds := rfl
@[simp] theorem setHk_irq (f : Hk → Hk) (s : State) : (setHk f s).irq = s.irq := rfl
@[simp] theorem setHk_fl (f : Hk → Hk) (s : State) : (setHk f s).fl = s.fl := rfl
@[simp] theorem setHk_otp (f : Hk → Hk) (s : State) : (setHk f s).otp = s.otp := rfl
@[simp] theorem setHk_upd (f : Hk → Hk) (s : State) : (setHk f s).upd = s.upd := rfl

@[simp] theorem setCal_pending (f : Cal → Cal) (s : State) : (setCal f s).pending = s.pending := rfl
@[simp] theorem setCal_clk (f : Cal → Cal) (s : State) : (setCal f s).clk = s.clk := rfl
@[simp] theorem setCal_free (f : Cal → Cal) (s : State) : (setCal f s).free = s.free := rfl
@[simp] theorem setCal_glob (f : Cal → Cal) (s : State) : (setCal f s).glob = s.glob := rfl
@[simp] theorem setCal_regs (f : Cal → Cal) (s : State) : (setCal f s).regs = s.regs := rfl
@[simp] theorem setCal_cyc (f : Cal → Cal) (s : State) : (setCal f s).cyc = s.cyc := rfl
@[simp] theorem setCal_qt (f : Cal → Cal) (s : State) : (setCal f s).qt = s.qt := rfl
@[simp] theorem setCal_inp (f : Cal → Cal) (s : State) : (setCal f s).inp = s.inp := rfl
@[simp] theorem setCal_rl (f : Cal → Cal) (s : State) : (setCal f s).rl = s.rl := rfl
@[simp] theorem setCal_bk (f : Cal → Cal) (s : State) : (setCal f s).bk = s.bk := rfl
@[simp] theorem setCal_seq (f : Cal → Cal) (s : State) : (setCal f s).seq = s.seq := rfl
@[simp] theorem setCal_txn (f : Cal → Cal) (s : State) : (setCal f s).txn = s.txn := rfl
@[simp] theorem setCal_safe (f : Cal → Cal) (s : State) : (setCal f s).safe = s.safe := rfl
@[simp] theorem setCal_tst (f : Cal → Cal) (s : State) : (setCal f s).tst = s.tst := rfl
@[simp] theorem setCal_pat (f : Cal → Cal) (s : State) : (setCal f s).pat = s.pat := rfl
@[simp] theorem setCal_hk (f : Cal → Cal) (s : State) : (setCal f s).hk = s.hk := rfl
@[simp] theorem setCal_thm (f : Cal → Cal) (s : State) : (setCal f s).thm = s.thm := rfl
@[simp] theorem setCal_plt (f : Cal → Cal) (s : State) : (setCal f s).plt = s.plt := rfl
@[simp] theorem setCal_chg (f : Cal → Cal) (s : State) : (setCal f s).chg = s.chg := rfl
@[simp] theorem setCal_gau (f : Cal → Cal) (s : State) : (setCal f s).gau = s.gau := rfl
@[simp] theorem setCal_pwr (f : Cal → Cal) (s : State) : (setCal f s).pwr = s.pwr := rfl
@[simp] theorem setCal_bus (f : Cal → Cal) (s : State) : (setCal f s).bus = s.bus := rfl
@[simp] theorem setCal_ds (f : Cal → Cal) (s : State) : (setCal f s).ds = s.ds := rfl
@[simp] theorem setCal_irq (f : Cal → Cal) (s : State) : (setCal f s).irq = s.irq := rfl
@[simp] theorem setCal_fl (f : Cal → Cal) (s : State) : (setCal f s).fl = s.fl := rfl
@[simp] theorem setCal_otp (f : Cal → Cal) (s : State) : (setCal f s).otp = s.otp := rfl
@[simp] theorem setCal_upd (f : Cal → Cal) (s : State) : (setCal f s).upd = s.upd := rfl

@[simp] theorem setDs_pending (f : Ds → Ds) (s : State) : (setDs f s).pending = s.pending := rfl
@[simp] theorem setDs_clk (f : Ds → Ds) (s : State) : (setDs f s).clk = s.clk := rfl
@[simp] theorem setDs_free (f : Ds → Ds) (s : State) : (setDs f s).free = s.free := rfl
@[simp] theorem setDs_glob (f : Ds → Ds) (s : State) : (setDs f s).glob = s.glob := rfl
@[simp] theorem setDs_regs (f : Ds → Ds) (s : State) : (setDs f s).regs = s.regs := rfl
@[simp] theorem setDs_cyc (f : Ds → Ds) (s : State) : (setDs f s).cyc = s.cyc := rfl
@[simp] theorem setDs_qt (f : Ds → Ds) (s : State) : (setDs f s).qt = s.qt := rfl
@[simp] theorem setDs_inp (f : Ds → Ds) (s : State) : (setDs f s).inp = s.inp := rfl
@[simp] theorem setDs_rl (f : Ds → Ds) (s : State) : (setDs f s).rl = s.rl := rfl
@[simp] theorem setDs_bk (f : Ds → Ds) (s : State) : (setDs f s).bk = s.bk := rfl
@[simp] theorem setDs_seq (f : Ds → Ds) (s : State) : (setDs f s).seq = s.seq := rfl
@[simp] theorem setDs_txn (f : Ds → Ds) (s : State) : (setDs f s).txn = s.txn := rfl
@[simp] theorem setDs_safe (f : Ds → Ds) (s : State) : (setDs f s).safe = s.safe := rfl
@[simp] theorem setDs_tst (f : Ds → Ds) (s : State) : (setDs f s).tst = s.tst := rfl
@[simp] theorem setDs_pat (f : Ds → Ds) (s : State) : (setDs f s).pat = s.pat := rfl
@[simp] theorem setDs_hk (f : Ds → Ds) (s : State) : (setDs f s).hk = s.hk := rfl
@[simp] theorem setDs_thm (f : Ds → Ds) (s : State) : (setDs f s).thm = s.thm := rfl
@[simp] theorem setDs_plt (f : Ds → Ds) (s : State) : (setDs f s).plt = s.plt := rfl
@[simp] theorem setDs_chg (f : Ds → Ds) (s : State) : (setDs f s).chg = s.chg := rfl
@[simp] theorem setDs_gau (f : Ds → Ds) (s : State) : (setDs f s).gau = s.gau := rfl
@[simp] theorem setDs_cal (f : Ds → Ds) (s : State) : (setDs f s).cal = s.cal := rfl
@[simp] theorem setDs_pwr (f : Ds → Ds) (s : State) : (setDs f s).pwr = s.pwr := rfl
@[simp] theorem setDs_bus (f : Ds → Ds) (s : State) : (setDs f s).bus = s.bus := rfl
@[simp] theorem setDs_irq (f : Ds → Ds) (s : State) : (setDs f s).irq = s.irq := rfl
@[simp] theorem setDs_fl (f : Ds → Ds) (s : State) : (setDs f s).fl = s.fl := rfl
@[simp] theorem setDs_otp (f : Ds → Ds) (s : State) : (setDs f s).otp = s.otp := rfl
@[simp] theorem setDs_upd (f : Ds → Ds) (s : State) : (setDs f s).upd = s.upd := rfl

@[simp] theorem ackAccess_pending (s : State) : (ackAccess s).pending = s.pending := rfl
@[simp] theorem ackAccess_clk (s : State) : (ackAccess s).clk = s.clk := rfl
@[simp] theorem ackAccess_free (s : State) : (ackAccess s).free = s.free := rfl
@[simp] theorem ackAccess_glob (s : State) : (ackAccess s).glob = s.glob := rfl
@[simp] theorem ackAccess_regs (s : State) : (ackAccess s).regs = s.regs := rfl
@[simp] theorem ackAccess_cyc (s : State) : (ackAccess s).cyc = s.cyc := rfl
@[simp] theorem ackAccess_qt (s : State) : (ackAccess s).qt = s.qt := rfl
@[simp] theorem ackAccess_inp (s : State) : (ackAccess s).inp = s.inp := rfl
@[simp] theorem ackAccess_rl (s : State) : (ackAccess s).rl = s.rl := rfl
@[simp] theorem ackAccess_bk (s : State) : (ackAccess s).bk = s.bk := rfl
@[simp] theorem ackAccess_seq (s : State) : (ackAccess s).seq = s.seq := rfl
@[simp] theorem ackAccess_txn (s : State) : (ackAccess s).txn = s.txn := rfl
@[simp] theorem ackAccess_safe (s : State) : (ackAccess s).safe = s.safe := rfl
@[simp] theorem ackAccess_tst (s : State) : (ackAccess s).tst = s.tst := rfl
@[simp] theorem ackAccess_pat (s : State) : (ackAccess s).pat = s.pat := rfl
@[simp] theorem ackAccess_hk (s : State) : (ackAccess s).hk = s.hk := rfl
@[simp] theorem ackAccess_thm (s : State) : (ackAccess s).thm = s.thm := rfl
@[simp] theorem ackAccess_plt (s : State) : (ackAccess s).plt = s.plt := rfl
@[simp] theorem ackAccess_chg (s : State) : (ackAccess s).chg = s.chg := rfl
@[simp] theorem ackAccess_gau (s : State) : (ackAccess s).gau = s.gau := rfl
@[simp] theorem ackAccess_cal (s : State) : (ackAccess s).cal = s.cal := rfl
@[simp] theorem ackAccess_pwr (s : State) : (ackAccess s).pwr = s.pwr := rfl
@[simp] theorem ackAccess_ds (s : State) : (ackAccess s).ds = s.ds := rfl
@[simp] theorem ackAccess_irq (s : State) : (ackAccess s).irq = s.irq := rfl
@[simp] theorem ackAccess_fl (s : State) : (ackAccess s).fl = s.fl := rfl
@[simp] theorem ackAccess_otp (s : State) : (ackAccess s).otp = s.otp := rfl
@[simp] theorem ackAccess_upd (s : State) : (ackAccess s).upd = s.upd := rfl

@[simp] theorem nackAccess_pending (s : State) : (nackAccess s).pending = s.pending := rfl
@[simp] theorem nackAccess_clk (s : State) : (nackAccess s).clk = s.clk := rfl
@[simp] theorem nackAccess_free (s : State) : (nackAccess s).free = s.free := rfl
@[simp] theorem nackAccess_glob (s : State) : (nackAccess s).glob = s.glob := rfl
@[simp] theorem nackAccess_regs (s : State) : (nackAccess s).regs = s.regs := rfl
@[simp] theorem nackAccess_cyc (s : State) : (nackAccess s).cyc = s.cyc := rfl
@[simp] theorem nackAccess_qt (s : State) : (nackAccess s).qt = s.qt := rfl
@[simp] theorem nackAccess_inp (s : State) : (nackAccess s).inp = s.inp := rfl
@[simp] theorem nackAccess_rl (s : State) : (nackAccess s).rl = s.rl := rfl
@[simp] theorem nackAccess_bk (s : State) : (nackAccess s).bk = s.bk := rfl
@[simp] theorem nackAccess_seq (s : State) : (nackAccess s).seq = s.seq := rfl
@[simp] theorem nackAccess_txn (s : State) : (nackAccess s).txn = s.txn := rfl
@[simp] theorem nackAccess_safe (s : State) : (nackAccess s).safe = s.safe := rfl
@[simp] theorem nackAccess_tst (s : State) : (nackAccess s).tst = s.tst := rfl
@[simp] theorem nackAccess_pat (s : State) : (nackAccess s).pat = s.pat := rfl
@[simp] theorem nackAccess_hk (s : State) : (nackAccess s).hk = s.hk := rfl
@[simp] theorem nackAccess_thm (s : State) : (nackAccess s).thm = s.thm := rfl
@[simp] theorem nackAccess_plt (s : State) : (nackAccess s).plt = s.plt := rfl
@[simp] theorem nackAccess_chg (s : State) : (nackAccess s).chg = s.chg := rfl
@[simp] theorem nackAccess_gau (s : State) : (nackAccess s).gau = s.gau := rfl
@[simp] theorem nackAccess_cal (s : State) : (nackAccess s).cal = s.cal := rfl
@[simp] theorem nackAccess_pwr (s : State) : (nackAccess s).pwr = s.pwr := rfl
@[simp] theorem nackAccess_ds (s : State) : (nackAccess s).ds = s.ds := rfl
@[simp] theorem nackAccess_irq (s : State) : (nackAccess s).irq = s.irq := rfl
@[simp] theorem nackAccess_fl (s : State) : (nackAccess s).fl = s.fl := rfl
@[simp] theorem nackAccess_otp (s : State) : (nackAccess s).otp = s.otp := rfl
@[simp] theorem nackAccess_upd (s : State) : (nackAccess s).upd = s.upd := rfl

@[simp] theorem drive_pending (bs : List Byte) (s : State) : (drive bs s).pending = s.pending := rfl
@[simp] theorem drive_clk (bs : List Byte) (s : State) : (drive bs s).clk = s.clk := rfl
@[simp] theorem drive_free (bs : List Byte) (s : State) : (drive bs s).free = s.free := rfl
@[simp] theorem drive_glob (bs : List Byte) (s : State) : (drive bs s).glob = s.glob := rfl
@[simp] theorem drive_regs (bs : List Byte) (s : State) : (drive bs s).regs = s.regs := rfl
@[simp] theorem drive_cyc (bs : List Byte) (s : State) : (drive bs s).cyc = s.cyc := rfl
@[simp] theorem drive_qt (bs : List Byte) (s : State) : (drive bs s).qt = s.qt := rfl
@[simp] theorem drive_inp (bs : List Byte) (s : State) : (drive bs s).inp = s.inp := rfl
@[simp] theorem drive_rl (bs : List Byte) (s : State) : (drive bs s).rl = s.rl := rfl
@[simp] theorem drive_bk (bs : List Byte) (s : State) : (drive bs s).bk = s.bk := rfl
@[simp] theorem drive_seq (bs : List Byte) (s : State) : (drive bs s).seq = s.seq := rfl
@[simp] theorem drive_txn (bs : List Byte) (s : State) : (drive bs s).txn = s.txn := rfl
@[simp] theorem drive_safe (bs : List Byte) (s : State) : (drive bs s).safe = s.safe := rfl
@[simp] theorem drive_tst (bs : List Byte) (s : State) : (drive bs s).tst = s.tst := rfl
@[simp] theorem drive_pat (bs : List Byte) (s : State) : (drive bs s).pat = s.pat := rfl
@[simp] theorem drive_hk (bs : List Byte) (s : State) : (drive bs s).hk = s.hk := rfl
@[simp] theorem drive_thm (bs : List Byte) (s : State) : (drive bs s).thm = s.thm := rfl
@[simp] theorem drive_plt (bs : List Byte) (s : State) : (drive bs s).plt = s.plt := rfl
@[simp] theorem drive_chg (bs : List Byte) (s : State) : (drive bs s).chg = s.chg := rfl
@[simp] theorem drive_gau (bs : List Byte) (s : State) : (drive bs s).gau = s.gau := rfl
@[simp] theorem drive_cal (bs : List Byte) (s : State) : (drive bs s).cal = s.cal := rfl
@[simp] theorem drive_pwr (bs : List Byte) (s : State) : (drive bs s).pwr = s.pwr := rfl
@[simp] theorem drive_ds (bs : List Byte) (s : State) : (drive bs s).ds = s.ds := rfl
@[simp] theorem drive_irq (bs : List Byte) (s : State) : (drive bs s).irq = s.irq := rfl
@[simp] theorem drive_fl (bs : List Byte) (s : State) : (drive bs s).fl = s.fl := rfl
@[simp] theorem drive_otp (bs : List Byte) (s : State) : (drive bs s).otp = s.otp := rfl
@[simp] theorem drive_upd (bs : List Byte) (s : State) : (drive bs s).upd = s.upd := rfl

@[simp] theorem slotEnd_pending (st : Nat) (err : Byte) (res : List Byte) (s : State) : (slotEnd st err res s).pending = s.pending := rfl
@[simp] theorem slotEnd_clk (st : Nat) (err : Byte) (res : List Byte) (s : State) : (slotEnd st err res s).clk = s.clk := rfl
@[simp] theorem slotEnd_free (st : Nat) (err : Byte) (res : List Byte) (s : State) : (slotEnd st err res s).free = s.free := rfl
@[simp] theorem slotEnd_glob (st : Nat) (err : Byte) (res : List Byte) (s : State) : (slotEnd st err res s).glob = s.glob := rfl
@[simp] theorem slotEnd_regs (st : Nat) (err : Byte) (res : List Byte) (s : State) : (slotEnd st err res s).regs = s.regs := rfl
@[simp] theorem slotEnd_cyc (st : Nat) (err : Byte) (res : List Byte) (s : State) : (slotEnd st err res s).cyc = s.cyc := rfl
@[simp] theorem slotEnd_qt (st : Nat) (err : Byte) (res : List Byte) (s : State) : (slotEnd st err res s).qt = s.qt := rfl
@[simp] theorem slotEnd_inp (st : Nat) (err : Byte) (res : List Byte) (s : State) : (slotEnd st err res s).inp = s.inp := rfl
@[simp] theorem slotEnd_rl (st : Nat) (err : Byte) (res : List Byte) (s : State) : (slotEnd st err res s).rl = s.rl := rfl
@[simp] theorem slotEnd_bk (st : Nat) (err : Byte) (res : List Byte) (s : State) : (slotEnd st err res s).bk = s.bk := rfl
@[simp] theorem slotEnd_seq (st : Nat) (err : Byte) (res : List Byte) (s : State) : (slotEnd st err res s).seq = s.seq := rfl
@[simp] theorem slotEnd_txn (st : Nat) (err : Byte) (res : List Byte) (s : State) : (slotEnd st err res s).txn = s.txn := rfl
@[simp] theorem slotEnd_safe (st : Nat) (err : Byte) (res : List Byte) (s : State) : (slotEnd st err res s).safe = s.safe := rfl
@[simp] theorem slotEnd_tst (st : Nat) (err : Byte) (res : List Byte) (s : State) : (slotEnd st err res s).tst = s.tst := rfl
@[simp] theorem slotEnd_pat (st : Nat) (err : Byte) (res : List Byte) (s : State) : (slotEnd st err res s).pat = s.pat := rfl
@[simp] theorem slotEnd_hk (st : Nat) (err : Byte) (res : List Byte) (s : State) : (slotEnd st err res s).hk = s.hk := rfl
@[simp] theorem slotEnd_thm (st : Nat) (err : Byte) (res : List Byte) (s : State) : (slotEnd st err res s).thm = s.thm := rfl
@[simp] theorem slotEnd_plt (st : Nat) (err : Byte) (res : List Byte) (s : State) : (slotEnd st err res s).plt = s.plt := rfl
@[simp] theorem slotEnd_chg (st : Nat) (err : Byte) (res : List Byte) (s : State) : (slotEnd st err res s).chg = s.chg := rfl
@[simp] theorem slotEnd_gau (st : Nat) (err : Byte) (res : List Byte) (s : State) : (slotEnd st err res s).gau = s.gau := rfl
@[simp] theorem slotEnd_cal (st : Nat) (err : Byte) (res : List Byte) (s : State) : (slotEnd st err res s).cal = s.cal := rfl
@[simp] theorem slotEnd_pwr (st : Nat) (err : Byte) (res : List Byte) (s : State) : (slotEnd st err res s).pwr = s.pwr := rfl
@[simp] theorem slotEnd_ds (st : Nat) (err : Byte) (res : List Byte) (s : State) : (slotEnd st err res s).ds = s.ds := rfl
@[simp] theorem slotEnd_irq (st : Nat) (err : Byte) (res : List Byte) (s : State) : (slotEnd st err res s).irq = s.irq := rfl
@[simp] theorem slotEnd_fl (st : Nat) (err : Byte) (res : List Byte) (s : State) : (slotEnd st err res s).fl = s.fl := rfl
@[simp] theorem slotEnd_otp (st : Nat) (err : Byte) (res : List Byte) (s : State) : (slotEnd st err res s).otp = s.otp := rfl
@[simp] theorem slotEnd_upd (st : Nat) (err : Byte) (res : List Byte) (s : State) : (slotEnd st err res s).upd = s.upd := rfl

@[simp] theorem reject_pending (err : Byte) (s : State) : (reject err s).pending = s.pending := rfl
@[simp] theorem reject_clk (err : Byte) (s : State) : (reject err s).clk = s.clk := rfl
@[simp] theorem reject_free (err : Byte) (s : State) : (reject err s).free = s.free := rfl
@[simp] theorem reject_glob (err : Byte) (s : State) : (reject err s).glob = s.glob := rfl
@[simp] theorem reject_regs (err : Byte) (s : State) : (reject err s).regs = s.regs := rfl
@[simp] theorem reject_cyc (err : Byte) (s : State) : (reject err s).cyc = s.cyc := rfl
@[simp] theorem reject_qt (err : Byte) (s : State) : (reject err s).qt = s.qt := rfl
@[simp] theorem reject_inp (err : Byte) (s : State) : (reject err s).inp = s.inp := rfl
@[simp] theorem reject_rl (err : Byte) (s : State) : (reject err s).rl = s.rl := rfl
@[simp] theorem reject_bk (err : Byte) (s : State) : (reject err s).bk = s.bk := rfl
@[simp] theorem reject_seq (err : Byte) (s : State) : (reject err s).seq = s.seq := rfl
@[simp] theorem reject_txn (err : Byte) (s : State) : (reject err s).txn = s.txn := rfl
@[simp] theorem reject_safe (err : Byte) (s : State) : (reject err s).safe = s.safe := rfl
@[simp] theorem reject_tst (err : Byte) (s : State) : (reject err s).tst = s.tst := rfl
@[simp] theorem reject_pat (err : Byte) (s : State) : (reject err s).pat = s.pat := rfl
@[simp] theorem reject_hk (err : Byte) (s : State) : (reject err s).hk = s.hk := rfl
@[simp] theorem reject_thm (err : Byte) (s : State) : (reject err s).thm = s.thm := rfl
@[simp] theorem reject_plt (err : Byte) (s : State) : (reject err s).plt = s.plt := rfl
@[simp] theorem reject_chg (err : Byte) (s : State) : (reject err s).chg = s.chg := rfl
@[simp] theorem reject_gau (err : Byte) (s : State) : (reject err s).gau = s.gau := rfl
@[simp] theorem reject_cal (err : Byte) (s : State) : (reject err s).cal = s.cal := rfl
@[simp] theorem reject_pwr (err : Byte) (s : State) : (reject err s).pwr = s.pwr := rfl
@[simp] theorem reject_ds (err : Byte) (s : State) : (reject err s).ds = s.ds := rfl
@[simp] theorem reject_irq (err : Byte) (s : State) : (reject err s).irq = s.irq := rfl
@[simp] theorem reject_fl (err : Byte) (s : State) : (reject err s).fl = s.fl := rfl
@[simp] theorem reject_otp (err : Byte) (s : State) : (reject err s).otp = s.otp := rfl
@[simp] theorem reject_upd (err : Byte) (s : State) : (reject err s).upd = s.upd := rfl

@[simp] theorem doneWith_pending (res : List Byte) (s : State) : (doneWith res s).pending = s.pending := rfl
@[simp] theorem doneWith_clk (res : List Byte) (s : State) : (doneWith res s).clk = s.clk := rfl
@[simp] theorem doneWith_free (res : List Byte) (s : State) : (doneWith res s).free = s.free := rfl
@[simp] theorem doneWith_glob (res : List Byte) (s : State) : (doneWith res s).glob = s.glob := rfl
@[simp] theorem doneWith_regs (res : List Byte) (s : State) : (doneWith res s).regs = s.regs := rfl
@[simp] theorem doneWith_cyc (res : List Byte) (s : State) : (doneWith res s).cyc = s.cyc := rfl
@[simp] theorem doneWith_qt (res : List Byte) (s : State) : (doneWith res s).qt = s.qt := rfl
@[simp] theorem doneWith_inp (res : List Byte) (s : State) : (doneWith res s).inp = s.inp := rfl
@[simp] theorem doneWith_rl (res : List Byte) (s : State) : (doneWith res s).rl = s.rl := rfl
@[simp] theorem doneWith_bk (res : List Byte) (s : State) : (doneWith res s).bk = s.bk := rfl
@[simp] theorem doneWith_seq (res : List Byte) (s : State) : (doneWith res s).seq = s.seq := rfl
@[simp] theorem doneWith_txn (res : List Byte) (s : State) : (doneWith res s).txn = s.txn := rfl
@[simp] theorem doneWith_safe (res : List Byte) (s : State) : (doneWith res s).safe = s.safe := rfl
@[simp] theorem doneWith_tst (res : List Byte) (s : State) : (doneWith res s).tst = s.tst := rfl
@[simp] theorem doneWith_pat (res : List Byte) (s : State) : (doneWith res s).pat = s.pat := rfl
@[simp] theorem doneWith_hk (res : List Byte) (s : State) : (doneWith res s).hk = s.hk := rfl
@[simp] theorem doneWith_thm (res : List Byte) (s : State) : (doneWith res s).thm = s.thm := rfl
@[simp] theorem doneWith_plt (res : List Byte) (s : State) : (doneWith res s).plt = s.plt := rfl
@[simp] theorem doneWith_chg (res : List Byte) (s : State) : (doneWith res s).chg = s.chg := rfl
@[simp] theorem doneWith_gau (res : List Byte) (s : State) : (doneWith res s).gau = s.gau := rfl
@[simp] theorem doneWith_cal (res : List Byte) (s : State) : (doneWith res s).cal = s.cal := rfl
@[simp] theorem doneWith_pwr (res : List Byte) (s : State) : (doneWith res s).pwr = s.pwr := rfl
@[simp] theorem doneWith_ds (res : List Byte) (s : State) : (doneWith res s).ds = s.ds := rfl
@[simp] theorem doneWith_irq (res : List Byte) (s : State) : (doneWith res s).irq = s.irq := rfl
@[simp] theorem doneWith_fl (res : List Byte) (s : State) : (doneWith res s).fl = s.fl := rfl
@[simp] theorem doneWith_otp (res : List Byte) (s : State) : (doneWith res s).otp = s.otp := rfl
@[simp] theorem doneWith_upd (res : List Byte) (s : State) : (doneWith res s).upd = s.upd := rfl

@[simp] theorem slotError_pending (err : Byte) (s : State) : (slotError err s).pending = s.pending := rfl
@[simp] theorem slotError_clk (err : Byte) (s : State) : (slotError err s).clk = s.clk := rfl
@[simp] theorem slotError_free (err : Byte) (s : State) : (slotError err s).free = s.free := rfl
@[simp] theorem slotError_glob (err : Byte) (s : State) : (slotError err s).glob = s.glob := rfl
@[simp] theorem slotError_regs (err : Byte) (s : State) : (slotError err s).regs = s.regs := rfl
@[simp] theorem slotError_cyc (err : Byte) (s : State) : (slotError err s).cyc = s.cyc := rfl
@[simp] theorem slotError_qt (err : Byte) (s : State) : (slotError err s).qt = s.qt := rfl
@[simp] theorem slotError_inp (err : Byte) (s : State) : (slotError err s).inp = s.inp := rfl
@[simp] theorem slotError_rl (err : Byte) (s : State) : (slotError err s).rl = s.rl := rfl
@[simp] theorem slotError_bk (err : Byte) (s : State) : (slotError err s).bk = s.bk := rfl
@[simp] theorem slotError_seq (err : Byte) (s : State) : (slotError err s).seq = s.seq := rfl
@[simp] theorem slotError_txn (err : Byte) (s : State) : (slotError err s).txn = s.txn := rfl
@[simp] theorem slotError_safe (err : Byte) (s : State) : (slotError err s).safe = s.safe := rfl
@[simp] theorem slotError_tst (err : Byte) (s : State) : (slotError err s).tst = s.tst := rfl
@[simp] theorem slotError_pat (err : Byte) (s : State) : (slotError err s).pat = s.pat := rfl
@[simp] theorem slotError_hk (err : Byte) (s : State) : (slotError err s).hk = s.hk := rfl
@[simp] theorem slotError_thm (err : Byte) (s : State) : (slotError err s).thm = s.thm := rfl
@[simp] theorem slotError_plt (err : Byte) (s : State) : (slotError err s).plt = s.plt := rfl
@[simp] theorem slotError_chg (err : Byte) (s : State) : (slotError err s).chg = s.chg := rfl
@[simp] theorem slotError_gau (err : Byte) (s : State) : (slotError err s).gau = s.gau := rfl
@[simp] theorem slotError_cal (err : Byte) (s : State) : (slotError err s).cal = s.cal := rfl
@[simp] theorem slotError_pwr (err : Byte) (s : State) : (slotError err s).pwr = s.pwr := rfl
@[simp] theorem slotError_ds (err : Byte) (s : State) : (slotError err s).ds = s.ds := rfl
@[simp] theorem slotError_irq (err : Byte) (s : State) : (slotError err s).irq = s.irq := rfl
@[simp] theorem slotError_fl (err : Byte) (s : State) : (slotError err s).fl = s.fl := rfl
@[simp] theorem slotError_otp (err : Byte) (s : State) : (slotError err s).otp = s.otp := rfl
@[simp] theorem slotError_upd (err : Byte) (s : State) : (slotError err s).upd = s.upd := rfl

@[simp] theorem slotBusy_pending (s : State) : (slotBusy s).pending = s.pending := rfl
@[simp] theorem slotBusy_clk (s : State) : (slotBusy s).clk = s.clk := rfl
@[simp] theorem slotBusy_free (s : State) : (slotBusy s).free = s.free := rfl
@[simp] theorem slotBusy_glob (s : State) : (slotBusy s).glob = s.glob := rfl
@[simp] theorem slotBusy_regs (s : State) : (slotBusy s).regs = s.regs := rfl
@[simp] theorem slotBusy_cyc (s : State) : (slotBusy s).cyc = s.cyc := rfl
@[simp] theorem slotBusy_qt (s : State) : (slotBusy s).qt = s.qt := rfl
@[simp] theorem slotBusy_inp (s : State) : (slotBusy s).inp = s.inp := rfl
@[simp] theorem slotBusy_rl (s : State) : (slotBusy s).rl = s.rl := rfl
@[simp] theorem slotBusy_bk (s : State) : (slotBusy s).bk = s.bk := rfl
@[simp] theorem slotBusy_seq (s : State) : (slotBusy s).seq = s.seq := rfl
@[simp] theorem slotBusy_txn (s : State) : (slotBusy s).txn = s.txn := rfl
@[simp] theorem slotBusy_safe (s : State) : (slotBusy s).safe = s.safe := rfl
@[simp] theorem slotBusy_tst (s : State) : (slotBusy s).tst = s.tst := rfl
@[simp] theorem slotBusy_pat (s : State) : (slotBusy s).pat = s.pat := rfl
@[simp] theorem slotBusy_hk (s : State) : (slotBusy s).hk = s.hk := rfl
@[simp] theorem slotBusy_thm (s : State) : (slotBusy s).thm = s.thm := rfl
@[simp] theorem slotBusy_plt (s : State) : (slotBusy s).plt = s.plt := rfl
@[simp] theorem slotBusy_chg (s : State) : (slotBusy s).chg = s.chg := rfl
@[simp] theorem slotBusy_gau (s : State) : (slotBusy s).gau = s.gau := rfl
@[simp] theorem slotBusy_cal (s : State) : (slotBusy s).cal = s.cal := rfl
@[simp] theorem slotBusy_pwr (s : State) : (slotBusy s).pwr = s.pwr := rfl
@[simp] theorem slotBusy_ds (s : State) : (slotBusy s).ds = s.ds := rfl
@[simp] theorem slotBusy_irq (s : State) : (slotBusy s).irq = s.irq := rfl
@[simp] theorem slotBusy_fl (s : State) : (slotBusy s).fl = s.fl := rfl
@[simp] theorem slotBusy_otp (s : State) : (slotBusy s).otp = s.otp := rfl
@[simp] theorem slotBusy_upd (s : State) : (slotBusy s).upd = s.upd := rfl

@[simp] theorem takeSlot_pending (op tag : Byte) (s : State) : (takeSlot op tag s).pending = s.pending := rfl
@[simp] theorem takeSlot_clk (op tag : Byte) (s : State) : (takeSlot op tag s).clk = s.clk := rfl
@[simp] theorem takeSlot_free (op tag : Byte) (s : State) : (takeSlot op tag s).free = s.free := rfl
@[simp] theorem takeSlot_glob (op tag : Byte) (s : State) : (takeSlot op tag s).glob = s.glob := rfl
@[simp] theorem takeSlot_regs (op tag : Byte) (s : State) : (takeSlot op tag s).regs = s.regs := rfl
@[simp] theorem takeSlot_cyc (op tag : Byte) (s : State) : (takeSlot op tag s).cyc = s.cyc := rfl
@[simp] theorem takeSlot_qt (op tag : Byte) (s : State) : (takeSlot op tag s).qt = s.qt := rfl
@[simp] theorem takeSlot_inp (op tag : Byte) (s : State) : (takeSlot op tag s).inp = s.inp := rfl
@[simp] theorem takeSlot_rl (op tag : Byte) (s : State) : (takeSlot op tag s).rl = s.rl := rfl
@[simp] theorem takeSlot_bk (op tag : Byte) (s : State) : (takeSlot op tag s).bk = s.bk := rfl
@[simp] theorem takeSlot_seq (op tag : Byte) (s : State) : (takeSlot op tag s).seq = s.seq := rfl
@[simp] theorem takeSlot_safe (op tag : Byte) (s : State) : (takeSlot op tag s).safe = s.safe := rfl
@[simp] theorem takeSlot_tst (op tag : Byte) (s : State) : (takeSlot op tag s).tst = s.tst := rfl
@[simp] theorem takeSlot_pat (op tag : Byte) (s : State) : (takeSlot op tag s).pat = s.pat := rfl
@[simp] theorem takeSlot_hk (op tag : Byte) (s : State) : (takeSlot op tag s).hk = s.hk := rfl
@[simp] theorem takeSlot_thm (op tag : Byte) (s : State) : (takeSlot op tag s).thm = s.thm := rfl
@[simp] theorem takeSlot_plt (op tag : Byte) (s : State) : (takeSlot op tag s).plt = s.plt := rfl
@[simp] theorem takeSlot_chg (op tag : Byte) (s : State) : (takeSlot op tag s).chg = s.chg := rfl
@[simp] theorem takeSlot_gau (op tag : Byte) (s : State) : (takeSlot op tag s).gau = s.gau := rfl
@[simp] theorem takeSlot_cal (op tag : Byte) (s : State) : (takeSlot op tag s).cal = s.cal := rfl
@[simp] theorem takeSlot_pwr (op tag : Byte) (s : State) : (takeSlot op tag s).pwr = s.pwr := rfl
@[simp] theorem takeSlot_ds (op tag : Byte) (s : State) : (takeSlot op tag s).ds = s.ds := rfl
@[simp] theorem takeSlot_irq (op tag : Byte) (s : State) : (takeSlot op tag s).irq = s.irq := rfl
@[simp] theorem takeSlot_fl (op tag : Byte) (s : State) : (takeSlot op tag s).fl = s.fl := rfl
@[simp] theorem takeSlot_otp (op tag : Byte) (s : State) : (takeSlot op tag s).otp = s.otp := rfl
@[simp] theorem takeSlot_upd (op tag : Byte) (s : State) : (takeSlot op tag s).upd = s.upd := rfl

@[simp] theorem touchSession_pending (s : State) : (touchSession s).pending = s.pending := by unfold touchSession; split <;> rfl
@[simp] theorem touchSession_free (s : State) : (touchSession s).free = s.free := by unfold touchSession; split <;> rfl
@[simp] theorem touchSession_glob (s : State) : (touchSession s).glob = s.glob := by unfold touchSession; split <;> rfl
@[simp] theorem touchSession_regs (s : State) : (touchSession s).regs = s.regs := by unfold touchSession; split <;> rfl
@[simp] theorem touchSession_cyc (s : State) : (touchSession s).cyc = s.cyc := by unfold touchSession; split <;> rfl
@[simp] theorem touchSession_qt (s : State) : (touchSession s).qt = s.qt := by unfold touchSession; split <;> rfl
@[simp] theorem touchSession_inp (s : State) : (touchSession s).inp = s.inp := by unfold touchSession; split <;> rfl
@[simp] theorem touchSession_rl (s : State) : (touchSession s).rl = s.rl := by unfold touchSession; split <;> rfl
@[simp] theorem touchSession_bk (s : State) : (touchSession s).bk = s.bk := by unfold touchSession; split <;> rfl
@[simp] theorem touchSession_seq (s : State) : (touchSession s).seq = s.seq := by unfold touchSession; split <;> rfl
@[simp] theorem touchSession_txn (s : State) : (touchSession s).txn = s.txn := by unfold touchSession; split <;> rfl
@[simp] theorem touchSession_safe (s : State) : (touchSession s).safe = s.safe := by unfold touchSession; split <;> rfl
@[simp] theorem touchSession_tst (s : State) : (touchSession s).tst = s.tst := by unfold touchSession; split <;> rfl
@[simp] theorem touchSession_pat (s : State) : (touchSession s).pat = s.pat := by unfold touchSession; split <;> rfl
@[simp] theorem touchSession_hk (s : State) : (touchSession s).hk = s.hk := by unfold touchSession; split <;> rfl
@[simp] theorem touchSession_thm (s : State) : (touchSession s).thm = s.thm := by unfold touchSession; split <;> rfl
@[simp] theorem touchSession_plt (s : State) : (touchSession s).plt = s.plt := by unfold touchSession; split <;> rfl
@[simp] theorem touchSession_chg (s : State) : (touchSession s).chg = s.chg := by unfold touchSession; split <;> rfl
@[simp] theorem touchSession_gau (s : State) : (touchSession s).gau = s.gau := by unfold touchSession; split <;> rfl
@[simp] theorem touchSession_cal (s : State) : (touchSession s).cal = s.cal := by unfold touchSession; split <;> rfl
@[simp] theorem touchSession_pwr (s : State) : (touchSession s).pwr = s.pwr := by unfold touchSession; split <;> rfl
@[simp] theorem touchSession_bus (s : State) : (touchSession s).bus = s.bus := by unfold touchSession; split <;> rfl
@[simp] theorem touchSession_ds (s : State) : (touchSession s).ds = s.ds := by unfold touchSession; split <;> rfl
@[simp] theorem touchSession_irq (s : State) : (touchSession s).irq = s.irq := by unfold touchSession; split <;> rfl
@[simp] theorem touchSession_fl (s : State) : (touchSession s).fl = s.fl := by unfold touchSession; split <;> rfl
@[simp] theorem touchSession_otp (s : State) : (touchSession s).otp = s.otp := by unfold touchSession; split <;> rfl
@[simp] theorem touchSession_upd (s : State) : (touchSession s).upd = s.upd := by unfold touchSession; split <;> rfl

@[simp] theorem cancelKey_pending (s : State) : (cancelKey s).pending = s.pending := rfl
@[simp] theorem cancelKey_free (s : State) : (cancelKey s).free = s.free := rfl
@[simp] theorem cancelKey_regs (s : State) : (cancelKey s).regs = s.regs := rfl
@[simp] theorem cancelKey_cyc (s : State) : (cancelKey s).cyc = s.cyc := rfl
@[simp] theorem cancelKey_qt (s : State) : (cancelKey s).qt = s.qt := rfl
@[simp] theorem cancelKey_inp (s : State) : (cancelKey s).inp = s.inp := rfl
@[simp] theorem cancelKey_rl (s : State) : (cancelKey s).rl = s.rl := rfl
@[simp] theorem cancelKey_bk (s : State) : (cancelKey s).bk = s.bk := rfl
@[simp] theorem cancelKey_seq (s : State) : (cancelKey s).seq = s.seq := rfl
@[simp] theorem cancelKey_txn (s : State) : (cancelKey s).txn = s.txn := rfl
@[simp] theorem cancelKey_safe (s : State) : (cancelKey s).safe = s.safe := rfl
@[simp] theorem cancelKey_tst (s : State) : (cancelKey s).tst = s.tst := rfl
@[simp] theorem cancelKey_pat (s : State) : (cancelKey s).pat = s.pat := rfl
@[simp] theorem cancelKey_hk (s : State) : (cancelKey s).hk = s.hk := rfl
@[simp] theorem cancelKey_thm (s : State) : (cancelKey s).thm = s.thm := rfl
@[simp] theorem cancelKey_plt (s : State) : (cancelKey s).plt = s.plt := rfl
@[simp] theorem cancelKey_chg (s : State) : (cancelKey s).chg = s.chg := rfl
@[simp] theorem cancelKey_gau (s : State) : (cancelKey s).gau = s.gau := rfl
@[simp] theorem cancelKey_cal (s : State) : (cancelKey s).cal = s.cal := rfl
@[simp] theorem cancelKey_pwr (s : State) : (cancelKey s).pwr = s.pwr := rfl
@[simp] theorem cancelKey_bus (s : State) : (cancelKey s).bus = s.bus := rfl
@[simp] theorem cancelKey_ds (s : State) : (cancelKey s).ds = s.ds := rfl
@[simp] theorem cancelKey_irq (s : State) : (cancelKey s).irq = s.irq := rfl
@[simp] theorem cancelKey_fl (s : State) : (cancelKey s).fl = s.fl := rfl
@[simp] theorem cancelKey_otp (s : State) : (cancelKey s).otp = s.otp := rfl
@[simp] theorem cancelKey_upd (s : State) : (cancelKey s).upd = s.upd := rfl

@[simp] theorem grant_pending (s : State) : (grant s).pending = s.pending := by unfold grant; split <;> rfl
@[simp] theorem grant_clk (s : State) : (grant s).clk = s.clk := by unfold grant; split <;> rfl
@[simp] theorem grant_free (s : State) : (grant s).free = s.free := by unfold grant; split <;> rfl
@[simp] theorem grant_glob (s : State) : (grant s).glob = s.glob := by unfold grant; split <;> rfl
@[simp] theorem grant_regs (s : State) : (grant s).regs = s.regs := by unfold grant; split <;> rfl
@[simp] theorem grant_cyc (s : State) : (grant s).cyc = s.cyc := by unfold grant; split <;> rfl
@[simp] theorem grant_qt (s : State) : (grant s).qt = s.qt := by unfold grant; split <;> rfl
@[simp] theorem grant_inp (s : State) : (grant s).inp = s.inp := by unfold grant; split <;> rfl
@[simp] theorem grant_rl (s : State) : (grant s).rl = s.rl := by unfold grant; split <;> rfl
@[simp] theorem grant_bk (s : State) : (grant s).bk = s.bk := by unfold grant; split <;> rfl
@[simp] theorem grant_seq (s : State) : (grant s).seq = s.seq := by unfold grant; split <;> rfl
@[simp] theorem grant_txn (s : State) : (grant s).txn = s.txn := by unfold grant; split <;> rfl
@[simp] theorem grant_safe (s : State) : (grant s).safe = s.safe := by unfold grant; split <;> rfl
@[simp] theorem grant_tst (s : State) : (grant s).tst = s.tst := by unfold grant; split <;> rfl
@[simp] theorem grant_pat (s : State) : (grant s).pat = s.pat := by unfold grant; split <;> rfl
@[simp] theorem grant_hk (s : State) : (grant s).hk = s.hk := by unfold grant; split <;> rfl
@[simp] theorem grant_thm (s : State) : (grant s).thm = s.thm := by unfold grant; split <;> rfl
@[simp] theorem grant_plt (s : State) : (grant s).plt = s.plt := by unfold grant; split <;> rfl
@[simp] theorem grant_chg (s : State) : (grant s).chg = s.chg := by unfold grant; split <;> rfl
@[simp] theorem grant_gau (s : State) : (grant s).gau = s.gau := by unfold grant; split <;> rfl
@[simp] theorem grant_cal (s : State) : (grant s).cal = s.cal := by unfold grant; split <;> rfl
@[simp] theorem grant_pwr (s : State) : (grant s).pwr = s.pwr := by unfold grant; split <;> rfl
@[simp] theorem grant_bus (s : State) : (grant s).bus = s.bus := by unfold grant; split <;> rfl
@[simp] theorem grant_ds (s : State) : (grant s).ds = s.ds := by unfold grant; split <;> rfl
@[simp] theorem grant_irq (s : State) : (grant s).irq = s.irq := by unfold grant; split <;> rfl
@[simp] theorem grant_otp (s : State) : (grant s).otp = s.otp := by unfold grant; split <;> rfl
@[simp] theorem grant_upd (s : State) : (grant s).upd = s.upd := by unfold grant; split <;> rfl

@[simp] theorem raise_pending (k : Nat) (s : State) : (raise k s).pending = s.pending := by have h := congrArg (fun t : State => t.pending) (raise_unmarked k s); exact h
@[simp] theorem raise_clk_now (k : Nat) (s : State) : (raise k s).clk.now = s.clk.now := by have h := congrArg (fun t : State => t.clk.now) (raise_unmarked k s); exact h
@[simp] theorem raise_clk_quantum (k : Nat) (s : State) : (raise k s).clk.quantum = s.clk.quantum := by have h := congrArg (fun t : State => t.clk.quantum) (raise_unmarked k s); exact h
@[simp] theorem raise_clk_op (k : Nat) (s : State) : (raise k s).clk.op = s.clk.op := by have h := congrArg (fun t : State => t.clk.op) (raise_unmarked k s); exact h
@[simp] theorem raise_clk_cycles (k : Nat) (s : State) : (raise k s).clk.cycles = s.clk.cycles := by have h := congrArg (fun t : State => t.clk.cycles) (raise_unmarked k s); exact h
@[simp] theorem raise_free (k : Nat) (s : State) : (raise k s).free = s.free := by have h := congrArg (fun t : State => t.free) (raise_unmarked k s); exact h
@[simp] theorem raise_glob (k : Nat) (s : State) : (raise k s).glob = s.glob := by have h := congrArg (fun t : State => t.glob) (raise_unmarked k s); exact h
@[simp] theorem raise_regs (k : Nat) (s : State) : (raise k s).regs = s.regs := by have h := congrArg (fun t : State => t.regs) (raise_unmarked k s); exact h
@[simp] theorem raise_cyc (k : Nat) (s : State) : (raise k s).cyc = s.cyc := by have h := congrArg (fun t : State => t.cyc) (raise_unmarked k s); exact h
@[simp] theorem raise_qt (k : Nat) (s : State) : (raise k s).qt = s.qt := by have h := congrArg (fun t : State => t.qt) (raise_unmarked k s); exact h
@[simp] theorem raise_inp (k : Nat) (s : State) : (raise k s).inp = s.inp := by have h := congrArg (fun t : State => t.inp) (raise_unmarked k s); exact h
@[simp] theorem raise_rl (k : Nat) (s : State) : (raise k s).rl = s.rl := by have h := congrArg (fun t : State => t.rl) (raise_unmarked k s); exact h
@[simp] theorem raise_bk (k : Nat) (s : State) : (raise k s).bk = s.bk := by have h := congrArg (fun t : State => t.bk) (raise_unmarked k s); exact h
@[simp] theorem raise_seq_phase (k : Nat) (s : State) : (raise k s).seq.phase = s.seq.phase := by have h := congrArg (fun t : State => t.seq.phase) (raise_unmarked k s); exact h
@[simp] theorem raise_seq_resumed (k : Nat) (s : State) : (raise k s).seq.resumed = s.seq.resumed := by have h := congrArg (fun t : State => t.seq.resumed) (raise_unmarked k s); exact h
@[simp] theorem raise_seq_tick (k : Nat) (s : State) : (raise k s).seq.tick = s.seq.tick := by have h := congrArg (fun t : State => t.seq.tick) (raise_unmarked k s); exact h
@[simp] theorem raise_seq_t0 (k : Nat) (s : State) : (raise k s).seq.t0 = s.seq.t0 := by have h := congrArg (fun t : State => t.seq.t0) (raise_unmarked k s); exact h
@[simp] theorem raise_seq_offhold (k : Nat) (s : State) : (raise k s).seq.offhold = s.seq.offhold := by have h := congrArg (fun t : State => t.seq.offhold) (raise_unmarked k s); exact h
@[simp] theorem raise_seq_retryWait (k : Nat) (s : State) : (raise k s).seq.retryWait = s.seq.retryWait := by have h := congrArg (fun t : State => t.seq.retryWait) (raise_unmarked k s); exact h
@[simp] theorem raise_seq_wait (k : Nat) (s : State) : (raise k s).seq.wait = s.seq.wait := by have h := congrArg (fun t : State => t.seq.wait) (raise_unmarked k s); exact h
@[simp] theorem raise_seq_dly (k : Nat) (s : State) : (raise k s).seq.dly = s.seq.dly := by have h := congrArg (fun t : State => t.seq.dly) (raise_unmarked k s); exact h
@[simp] theorem raise_seq_offWait (k : Nat) (s : State) : (raise k s).seq.offWait = s.seq.offWait := by have h := congrArg (fun t : State => t.seq.offWait) (raise_unmarked k s); exact h
@[simp] theorem raise_seq_offDly (k : Nat) (s : State) : (raise k s).seq.offDly = s.seq.offDly := by have h := congrArg (fun t : State => t.seq.offDly) (raise_unmarked k s); exact h
@[simp] theorem raise_seq_wasOn (k : Nat) (s : State) : (raise k s).seq.wasOn = s.seq.wasOn := by have h := congrArg (fun t : State => t.seq.wasOn) (raise_unmarked k s); exact h
@[simp] theorem raise_seq_retries (k : Nat) (s : State) : (raise k s).seq.retries = s.seq.retries := by have h := congrArg (fun t : State => t.seq.retries) (raise_unmarked k s); exact h
@[simp] theorem raise_seq_rset (k : Nat) (s : State) : (raise k s).seq.rset = s.seq.rset := by have h := congrArg (fun t : State => t.seq.rset) (raise_unmarked k s); exact h
@[simp] theorem raise_seq_rst (k : Nat) (s : State) : (raise k s).seq.rst = s.seq.rst := by have h := congrArg (fun t : State => t.seq.rst) (raise_unmarked k s); exact h
@[simp] theorem raise_seq_rstRun (k : Nat) (s : State) : (raise k s).seq.rstRun = s.seq.rstRun := by have h := congrArg (fun t : State => t.seq.rstRun) (raise_unmarked k s); exact h
@[simp] theorem raise_seq_lastRail (k : Nat) (s : State) : (raise k s).seq.lastRail = s.seq.lastRail := by have h := congrArg (fun t : State => t.seq.lastRail) (raise_unmarked k s); exact h
@[simp] theorem raise_seq_lastCode (k : Nat) (s : State) : (raise k s).seq.lastCode = s.seq.lastCode := by have h := congrArg (fun t : State => t.seq.lastCode) (raise_unmarked k s); exact h
@[simp] theorem raise_seq_lastKind (k : Nat) (s : State) : (raise k s).seq.lastKind = s.seq.lastKind := by have h := congrArg (fun t : State => t.seq.lastKind) (raise_unmarked k s); exact h
@[simp] theorem raise_seq_fwd (k : Nat) (s : State) : (raise k s).seq.fwd = s.seq.fwd := by have h := congrArg (fun t : State => t.seq.fwd) (raise_unmarked k s); exact h
@[simp] theorem raise_seq_ended (k : Nat) (s : State) : (raise k s).seq.ended = s.seq.ended := by have h := congrArg (fun t : State => t.seq.ended) (raise_unmarked k s); exact h
@[simp] theorem raise_seq_complete (k : Nat) (s : State) : (raise k s).seq.complete = s.seq.complete := by have h := congrArg (fun t : State => t.seq.complete) (raise_unmarked k s); exact h
@[simp] theorem raise_seq_monok (k : Nat) (s : State) : (raise k s).seq.monok = s.seq.monok := by have h := congrArg (fun t : State => t.seq.monok) (raise_unmarked k s); exact h
@[simp] theorem raise_seq_monhi (k : Nat) (s : State) : (raise k s).seq.monhi = s.seq.monhi := by have h := congrArg (fun t : State => t.seq.monhi) (raise_unmarked k s); exact h
@[simp] theorem raise_seq_monuvl (k : Nat) (s : State) : (raise k s).seq.monuvl = s.seq.monuvl := by have h := congrArg (fun t : State => t.seq.monuvl) (raise_unmarked k s); exact h
@[simp] theorem raise_seq_monovl (k : Nat) (s : State) : (raise k s).seq.monovl = s.seq.monovl := by have h := congrArg (fun t : State => t.seq.monovl) (raise_unmarked k s); exact h
@[simp] theorem raise_txn (k : Nat) (s : State) : (raise k s).txn = s.txn := by have h := congrArg (fun t : State => t.txn) (raise_unmarked k s); exact h
@[simp] theorem raise_safe (k : Nat) (s : State) : (raise k s).safe = s.safe := by have h := congrArg (fun t : State => t.safe) (raise_unmarked k s); exact h
@[simp] theorem raise_tst (k : Nat) (s : State) : (raise k s).tst = s.tst := by have h := congrArg (fun t : State => t.tst) (raise_unmarked k s); exact h
@[simp] theorem raise_pat (k : Nat) (s : State) : (raise k s).pat = s.pat := by have h := congrArg (fun t : State => t.pat) (raise_unmarked k s); exact h
@[simp] theorem raise_hk (k : Nat) (s : State) : (raise k s).hk = s.hk := by have h := congrArg (fun t : State => t.hk) (raise_unmarked k s); exact h
@[simp] theorem raise_thm (k : Nat) (s : State) : (raise k s).thm = s.thm := by have h := congrArg (fun t : State => t.thm) (raise_unmarked k s); exact h
@[simp] theorem raise_plt (k : Nat) (s : State) : (raise k s).plt = s.plt := by have h := congrArg (fun t : State => t.plt) (raise_unmarked k s); exact h
@[simp] theorem raise_chg (k : Nat) (s : State) : (raise k s).chg = s.chg := by have h := congrArg (fun t : State => t.chg) (raise_unmarked k s); exact h
@[simp] theorem raise_gau (k : Nat) (s : State) : (raise k s).gau = s.gau := by have h := congrArg (fun t : State => t.gau) (raise_unmarked k s); exact h
@[simp] theorem raise_cal (k : Nat) (s : State) : (raise k s).cal = s.cal := by have h := congrArg (fun t : State => t.cal) (raise_unmarked k s); exact h
@[simp] theorem raise_pwr_held (k : Nat) (s : State) : (raise k s).pwr.held = s.pwr.held := by have h := congrArg (fun t : State => t.pwr.held) (raise_unmarked k s); exact h
@[simp] theorem raise_pwr_idle (k : Nat) (s : State) : (raise k s).pwr.idle = s.pwr.idle := by have h := congrArg (fun t : State => t.pwr.idle) (raise_unmarked k s); exact h
@[simp] theorem raise_pwr_lastslp (k : Nat) (s : State) : (raise k s).pwr.lastslp = s.pwr.lastslp := by have h := congrArg (fun t : State => t.pwr.lastslp) (raise_unmarked k s); exact h
@[simp] theorem raise_pwr_req (k : Nat) (s : State) : (raise k s).pwr.req = s.pwr.req := by have h := congrArg (fun t : State => t.pwr.req) (raise_unmarked k s); exact h
@[simp] theorem raise_pwr_why (k : Nat) (s : State) : (raise k s).pwr.why = s.pwr.why := by have h := congrArg (fun t : State => t.pwr.why) (raise_unmarked k s); exact h
@[simp] theorem raise_pwr_slpsec (k : Nat) (s : State) : (raise k s).pwr.slpsec = s.pwr.slpsec := by have h := congrArg (fun t : State => t.pwr.slpsec) (raise_unmarked k s); exact h
@[simp] theorem raise_pwr_fromRun (k : Nat) (s : State) : (raise k s).pwr.fromRun = s.pwr.fromRun := by have h := congrArg (fun t : State => t.pwr.fromRun) (raise_unmarked k s); exact h
@[simp] theorem raise_pwr_woke (k : Nat) (s : State) : (raise k s).pwr.woke = s.pwr.woke := by have h := congrArg (fun t : State => t.pwr.woke) (raise_unmarked k s); exact h
@[simp] theorem raise_bus_cstat (k : Nat) (s : State) : (raise k s).bus.cstat = s.bus.cstat := by have h := congrArg (fun t : State => t.bus.cstat) (raise_unmarked k s); exact h
@[simp] theorem raise_bus_tag (k : Nat) (s : State) : (raise k s).bus.tag = s.bus.tag := by have h := congrArg (fun t : State => t.bus.tag) (raise_unmarked k s); exact h
@[simp] theorem raise_bus_prog (k : Nat) (s : State) : (raise k s).bus.prog = s.bus.prog := by have h := congrArg (fun t : State => t.bus.prog) (raise_unmarked k s); exact h
@[simp] theorem raise_bus_err (k : Nat) (s : State) : (raise k s).bus.err = s.bus.err := by have h := congrArg (fun t : State => t.bus.err) (raise_unmarked k s); exact h
@[simp] theorem raise_bus_op (k : Nat) (s : State) : (raise k s).bus.op = s.bus.op := by have h := congrArg (fun t : State => t.bus.op) (raise_unmarked k s); exact h
@[simp] theorem raise_bus_cres (k : Nat) (s : State) : (raise k s).bus.cres = s.bus.cres := by have h := congrArg (fun t : State => t.bus.cres) (raise_unmarked k s); exact h
@[simp] theorem raise_bus_ofs (k : Nat) (s : State) : (raise k s).bus.ofs = s.bus.ofs := by have h := congrArg (fun t : State => t.bus.ofs) (raise_unmarked k s); exact h
@[simp] theorem raise_bus_level (k : Nat) (s : State) : (raise k s).bus.level = s.bus.level := by have h := congrArg (fun t : State => t.bus.level) (raise_unmarked k s); exact h
@[simp] theorem raise_bus_nonce (k : Nat) (s : State) : (raise k s).bus.nonce = s.bus.nonce := by have h := congrArg (fun t : State => t.bus.nonce) (raise_unmarked k s); exact h
@[simp] theorem raise_bus_lock (k : Nat) (s : State) : (raise k s).bus.lock = s.bus.lock := by have h := congrArg (fun t : State => t.bus.lock) (raise_unmarked k s); exact h
@[simp] theorem raise_bus_failn (k : Nat) (s : State) : (raise k s).bus.failn = s.bus.failn := by have h := congrArg (fun t : State => t.bus.failn) (raise_unmarked k s); exact h
@[simp] theorem raise_bus_hnsusp (k : Nat) (s : State) : (raise k s).bus.hnsusp = s.bus.hnsusp := by have h := congrArg (fun t : State => t.bus.hnsusp) (raise_unmarked k s); exact h
@[simp] theorem raise_bus_hnLost (k : Nat) (s : State) : (raise k s).bus.hnLost = s.bus.hnLost := by have h := congrArg (fun t : State => t.bus.hnLost) (raise_unmarked k s); exact h
@[simp] theorem raise_bus_peccnt (k : Nat) (s : State) : (raise k s).bus.peccnt = s.bus.peccnt := by have h := congrArg (fun t : State => t.bus.peccnt) (raise_unmarked k s); exact h
@[simp] theorem raise_bus_tmocnt (k : Nat) (s : State) : (raise k s).bus.tmocnt = s.bus.tmocnt := by have h := congrArg (fun t : State => t.bus.tmocnt) (raise_unmarked k s); exact h
@[simp] theorem raise_bus_nackn (k : Nat) (s : State) : (raise k s).bus.nackn = s.bus.nackn := by have h := congrArg (fun t : State => t.bus.nackn) (raise_unmarked k s); exact h
@[simp] theorem raise_bus_rdata (k : Nat) (s : State) : (raise k s).bus.rdata = s.bus.rdata := by have h := congrArg (fun t : State => t.bus.rdata) (raise_unmarked k s); exact h
@[simp] theorem raise_bus_nack (k : Nat) (s : State) : (raise k s).bus.nack = s.bus.nack := by have h := congrArg (fun t : State => t.bus.nack) (raise_unmarked k s); exact h
@[simp] theorem raise_ds (k : Nat) (s : State) : (raise k s).ds = s.ds := by have h := congrArg (fun t : State => t.ds) (raise_unmarked k s); exact h
@[simp] theorem raise_irq_mask (k : Nat) (s : State) : (raise k s).irq.mask = s.irq.mask := by have h := congrArg (fun t : State => t.irq.mask) (raise_unmarked k s); exact h
@[simp] theorem raise_irq_route (k : Nat) (s : State) : (raise k s).irq.route = s.irq.route := by have h := congrArg (fun t : State => t.irq.route) (raise_unmarked k s); exact h
@[simp] theorem raise_irq_ovr (k : Nat) (s : State) : (raise k s).irq.ovr = s.irq.ovr := by have h := congrArg (fun t : State => t.irq.ovr) (raise_unmarked k s); exact h
@[simp] theorem raise_fl_sec (k : Nat) (s : State) : (raise k s).fl.sec = s.fl.sec := by have h := congrArg (fun t : State => t.fl.sec) (raise_unmarked k s); exact h
@[simp] theorem raise_fl_ro (k : Nat) (s : State) : (raise k s).fl.ro = s.fl.ro := by have h := congrArg (fun t : State => t.fl.ro) (raise_unmarked k s); exact h
@[simp] theorem raise_fl_cfgSt (k : Nat) (s : State) : (raise k s).fl.cfgSt = s.fl.cfgSt := by have h := congrArg (fun t : State => t.fl.cfgSt) (raise_unmarked k s); exact h
@[simp] theorem raise_fl_cfgA (k : Nat) (s : State) : (raise k s).fl.cfgA = s.fl.cfgA := by have h := congrArg (fun t : State => t.fl.cfgA) (raise_unmarked k s); exact h
@[simp] theorem raise_fl_cfgB (k : Nat) (s : State) : (raise k s).fl.cfgB = s.fl.cfgB := by have h := congrArg (fun t : State => t.fl.cfgB) (raise_unmarked k s); exact h
@[simp] theorem raise_fl_capture (k : Nat) (s : State) : (raise k s).fl.capture = s.fl.capture := by have h := congrArg (fun t : State => t.fl.capture) (raise_unmarked k s); exact h
@[simp] theorem raise_fl_wantPat (k : Nat) (s : State) : (raise k s).fl.wantPat = s.fl.wantPat := by have h := congrArg (fun t : State => t.fl.wantPat) (raise_unmarked k s); exact h
@[simp] theorem raise_fl_wantGau (k : Nat) (s : State) : (raise k s).fl.wantGau = s.fl.wantGau := by have h := congrArg (fun t : State => t.fl.wantGau) (raise_unmarked k s); exact h
@[simp] theorem raise_fl_scrubDue (k : Nat) (s : State) : (raise k s).fl.scrubDue = s.fl.scrubDue := by have h := congrArg (fun t : State => t.fl.scrubDue) (raise_unmarked k s); exact h
@[simp] theorem raise_fl_scrubSince (k : Nat) (s : State) : (raise k s).fl.scrubSince = s.fl.scrubSince := by have h := congrArg (fun t : State => t.fl.scrubSince) (raise_unmarked k s); exact h
@[simp] theorem raise_fl_refresh (k : Nat) (s : State) : (raise k s).fl.refresh = s.fl.refresh := by have h := congrArg (fun t : State => t.fl.refresh) (raise_unmarked k s); exact h
@[simp] theorem raise_fl_scrubIdx (k : Nat) (s : State) : (raise k s).fl.scrubIdx = s.fl.scrubIdx := by have h := congrArg (fun t : State => t.fl.scrubIdx) (raise_unmarked k s); exact h
@[simp] theorem raise_fl_late (k : Nat) (s : State) : (raise k s).fl.late = s.fl.late := by have h := congrArg (fun t : State => t.fl.late) (raise_unmarked k s); exact h
@[simp] theorem raise_fl_refrcnt (k : Nat) (s : State) : (raise k s).fl.refrcnt = s.fl.refrcnt := by have h := congrArg (fun t : State => t.fl.refrcnt) (raise_unmarked k s); exact h
@[simp] theorem raise_fl_halfcnt (k : Nat) (s : State) : (raise k s).fl.halfcnt = s.fl.halfcnt := by have h := congrArg (fun t : State => t.fl.halfcnt) (raise_unmarked k s); exact h
@[simp] theorem raise_fl_log (k : Nat) (s : State) : (raise k s).fl.log = s.fl.log := by have h := congrArg (fun t : State => t.fl.log) (raise_unmarked k s); exact h
@[simp] theorem raise_fl_opens (k : Nat) (s : State) : (raise k s).fl.opens = s.fl.opens := by have h := congrArg (fun t : State => t.fl.opens) (raise_unmarked k s); exact h
@[simp] theorem raise_fl_closes (k : Nat) (s : State) : (raise k s).fl.closes = s.fl.closes := by have h := congrArg (fun t : State => t.fl.closes) (raise_unmarked k s); exact h
@[simp] theorem raise_fl_turn (k : Nat) (s : State) : (raise k s).fl.turn = s.fl.turn := by have h := congrArg (fun t : State => t.fl.turn) (raise_unmarked k s); exact h
@[simp] theorem raise_fl_bad (k : Nat) (s : State) : (raise k s).fl.bad = s.fl.bad := by have h := congrArg (fun t : State => t.fl.bad) (raise_unmarked k s); exact h
@[simp] theorem raise_fl_erasing (k : Nat) (s : State) : (raise k s).fl.erasing = s.fl.erasing := by have h := congrArg (fun t : State => t.fl.erasing) (raise_unmarked k s); exact h
@[simp] theorem raise_fl_flush (k : Nat) (s : State) : (raise k s).fl.flush = s.fl.flush := by have h := congrArg (fun t : State => t.fl.flush) (raise_unmarked k s); exact h
@[simp] theorem raise_otp (k : Nat) (s : State) : (raise k s).otp = s.otp := by have h := congrArg (fun t : State => t.otp) (raise_unmarked k s); exact h
@[simp] theorem raise_upd (k : Nat) (s : State) : (raise k s).upd = s.upd := by have h := congrArg (fun t : State => t.upd) (raise_unmarked k s); exact h

@[simp] theorem raiseG_pending (g b : Nat) (s : State) : (raiseG g b s).pending = s.pending := raise_pending _ s
@[simp] theorem raiseG_clk_now (g b : Nat) (s : State) : (raiseG g b s).clk.now = s.clk.now := raise_clk_now _ s
@[simp] theorem raiseG_clk_quantum (g b : Nat) (s : State) : (raiseG g b s).clk.quantum = s.clk.quantum := raise_clk_quantum _ s
@[simp] theorem raiseG_clk_op (g b : Nat) (s : State) : (raiseG g b s).clk.op = s.clk.op := raise_clk_op _ s
@[simp] theorem raiseG_clk_cycles (g b : Nat) (s : State) : (raiseG g b s).clk.cycles = s.clk.cycles := raise_clk_cycles _ s
@[simp] theorem raiseG_free (g b : Nat) (s : State) : (raiseG g b s).free = s.free := raise_free _ s
@[simp] theorem raiseG_glob (g b : Nat) (s : State) : (raiseG g b s).glob = s.glob := raise_glob _ s
@[simp] theorem raiseG_regs (g b : Nat) (s : State) : (raiseG g b s).regs = s.regs := raise_regs _ s
@[simp] theorem raiseG_cyc (g b : Nat) (s : State) : (raiseG g b s).cyc = s.cyc := raise_cyc _ s
@[simp] theorem raiseG_qt (g b : Nat) (s : State) : (raiseG g b s).qt = s.qt := raise_qt _ s
@[simp] theorem raiseG_inp (g b : Nat) (s : State) : (raiseG g b s).inp = s.inp := raise_inp _ s
@[simp] theorem raiseG_rl (g b : Nat) (s : State) : (raiseG g b s).rl = s.rl := raise_rl _ s
@[simp] theorem raiseG_bk (g b : Nat) (s : State) : (raiseG g b s).bk = s.bk := raise_bk _ s
@[simp] theorem raiseG_seq_phase (g b : Nat) (s : State) : (raiseG g b s).seq.phase = s.seq.phase := raise_seq_phase _ s
@[simp] theorem raiseG_seq_resumed (g b : Nat) (s : State) : (raiseG g b s).seq.resumed = s.seq.resumed := raise_seq_resumed _ s
@[simp] theorem raiseG_seq_tick (g b : Nat) (s : State) : (raiseG g b s).seq.tick = s.seq.tick := raise_seq_tick _ s
@[simp] theorem raiseG_seq_t0 (g b : Nat) (s : State) : (raiseG g b s).seq.t0 = s.seq.t0 := raise_seq_t0 _ s
@[simp] theorem raiseG_seq_offhold (g b : Nat) (s : State) : (raiseG g b s).seq.offhold = s.seq.offhold := raise_seq_offhold _ s
@[simp] theorem raiseG_seq_retryWait (g b : Nat) (s : State) : (raiseG g b s).seq.retryWait = s.seq.retryWait := raise_seq_retryWait _ s
@[simp] theorem raiseG_seq_wait (g b : Nat) (s : State) : (raiseG g b s).seq.wait = s.seq.wait := raise_seq_wait _ s
@[simp] theorem raiseG_seq_dly (g b : Nat) (s : State) : (raiseG g b s).seq.dly = s.seq.dly := raise_seq_dly _ s
@[simp] theorem raiseG_seq_offWait (g b : Nat) (s : State) : (raiseG g b s).seq.offWait = s.seq.offWait := raise_seq_offWait _ s
@[simp] theorem raiseG_seq_offDly (g b : Nat) (s : State) : (raiseG g b s).seq.offDly = s.seq.offDly := raise_seq_offDly _ s
@[simp] theorem raiseG_seq_wasOn (g b : Nat) (s : State) : (raiseG g b s).seq.wasOn = s.seq.wasOn := raise_seq_wasOn _ s
@[simp] theorem raiseG_seq_retries (g b : Nat) (s : State) : (raiseG g b s).seq.retries = s.seq.retries := raise_seq_retries _ s
@[simp] theorem raiseG_seq_rset (g b : Nat) (s : State) : (raiseG g b s).seq.rset = s.seq.rset := raise_seq_rset _ s
@[simp] theorem raiseG_seq_rst (g b : Nat) (s : State) : (raiseG g b s).seq.rst = s.seq.rst := raise_seq_rst _ s
@[simp] theorem raiseG_seq_rstRun (g b : Nat) (s : State) : (raiseG g b s).seq.rstRun = s.seq.rstRun := raise_seq_rstRun _ s
@[simp] theorem raiseG_seq_lastRail (g b : Nat) (s : State) : (raiseG g b s).seq.lastRail = s.seq.lastRail := raise_seq_lastRail _ s
@[simp] theorem raiseG_seq_lastCode (g b : Nat) (s : State) : (raiseG g b s).seq.lastCode = s.seq.lastCode := raise_seq_lastCode _ s
@[simp] theorem raiseG_seq_lastKind (g b : Nat) (s : State) : (raiseG g b s).seq.lastKind = s.seq.lastKind := raise_seq_lastKind _ s
@[simp] theorem raiseG_seq_fwd (g b : Nat) (s : State) : (raiseG g b s).seq.fwd = s.seq.fwd := raise_seq_fwd _ s
@[simp] theorem raiseG_seq_ended (g b : Nat) (s : State) : (raiseG g b s).seq.ended = s.seq.ended := raise_seq_ended _ s
@[simp] theorem raiseG_seq_complete (g b : Nat) (s : State) : (raiseG g b s).seq.complete = s.seq.complete := raise_seq_complete _ s
@[simp] theorem raiseG_seq_monok (g b : Nat) (s : State) : (raiseG g b s).seq.monok = s.seq.monok := raise_seq_monok _ s
@[simp] theorem raiseG_seq_monhi (g b : Nat) (s : State) : (raiseG g b s).seq.monhi = s.seq.monhi := raise_seq_monhi _ s
@[simp] theorem raiseG_seq_monuvl (g b : Nat) (s : State) : (raiseG g b s).seq.monuvl = s.seq.monuvl := raise_seq_monuvl _ s
@[simp] theorem raiseG_seq_monovl (g b : Nat) (s : State) : (raiseG g b s).seq.monovl = s.seq.monovl := raise_seq_monovl _ s
@[simp] theorem raiseG_txn (g b : Nat) (s : State) : (raiseG g b s).txn = s.txn := raise_txn _ s
@[simp] theorem raiseG_safe (g b : Nat) (s : State) : (raiseG g b s).safe = s.safe := raise_safe _ s
@[simp] theorem raiseG_tst (g b : Nat) (s : State) : (raiseG g b s).tst = s.tst := raise_tst _ s
@[simp] theorem raiseG_pat (g b : Nat) (s : State) : (raiseG g b s).pat = s.pat := raise_pat _ s
@[simp] theorem raiseG_hk (g b : Nat) (s : State) : (raiseG g b s).hk = s.hk := raise_hk _ s
@[simp] theorem raiseG_thm (g b : Nat) (s : State) : (raiseG g b s).thm = s.thm := raise_thm _ s
@[simp] theorem raiseG_plt (g b : Nat) (s : State) : (raiseG g b s).plt = s.plt := raise_plt _ s
@[simp] theorem raiseG_chg (g b : Nat) (s : State) : (raiseG g b s).chg = s.chg := raise_chg _ s
@[simp] theorem raiseG_gau (g b : Nat) (s : State) : (raiseG g b s).gau = s.gau := raise_gau _ s
@[simp] theorem raiseG_cal (g b : Nat) (s : State) : (raiseG g b s).cal = s.cal := raise_cal _ s
@[simp] theorem raiseG_pwr_held (g b : Nat) (s : State) : (raiseG g b s).pwr.held = s.pwr.held := raise_pwr_held _ s
@[simp] theorem raiseG_pwr_idle (g b : Nat) (s : State) : (raiseG g b s).pwr.idle = s.pwr.idle := raise_pwr_idle _ s
@[simp] theorem raiseG_pwr_lastslp (g b : Nat) (s : State) : (raiseG g b s).pwr.lastslp = s.pwr.lastslp := raise_pwr_lastslp _ s
@[simp] theorem raiseG_pwr_req (g b : Nat) (s : State) : (raiseG g b s).pwr.req = s.pwr.req := raise_pwr_req _ s
@[simp] theorem raiseG_pwr_why (g b : Nat) (s : State) : (raiseG g b s).pwr.why = s.pwr.why := raise_pwr_why _ s
@[simp] theorem raiseG_pwr_slpsec (g b : Nat) (s : State) : (raiseG g b s).pwr.slpsec = s.pwr.slpsec := raise_pwr_slpsec _ s
@[simp] theorem raiseG_pwr_fromRun (g b : Nat) (s : State) : (raiseG g b s).pwr.fromRun = s.pwr.fromRun := raise_pwr_fromRun _ s
@[simp] theorem raiseG_pwr_woke (g b : Nat) (s : State) : (raiseG g b s).pwr.woke = s.pwr.woke := raise_pwr_woke _ s
@[simp] theorem raiseG_bus_cstat (g b : Nat) (s : State) : (raiseG g b s).bus.cstat = s.bus.cstat := raise_bus_cstat _ s
@[simp] theorem raiseG_bus_tag (g b : Nat) (s : State) : (raiseG g b s).bus.tag = s.bus.tag := raise_bus_tag _ s
@[simp] theorem raiseG_bus_prog (g b : Nat) (s : State) : (raiseG g b s).bus.prog = s.bus.prog := raise_bus_prog _ s
@[simp] theorem raiseG_bus_err (g b : Nat) (s : State) : (raiseG g b s).bus.err = s.bus.err := raise_bus_err _ s
@[simp] theorem raiseG_bus_op (g b : Nat) (s : State) : (raiseG g b s).bus.op = s.bus.op := raise_bus_op _ s
@[simp] theorem raiseG_bus_cres (g b : Nat) (s : State) : (raiseG g b s).bus.cres = s.bus.cres := raise_bus_cres _ s
@[simp] theorem raiseG_bus_ofs (g b : Nat) (s : State) : (raiseG g b s).bus.ofs = s.bus.ofs := raise_bus_ofs _ s
@[simp] theorem raiseG_bus_level (g b : Nat) (s : State) : (raiseG g b s).bus.level = s.bus.level := raise_bus_level _ s
@[simp] theorem raiseG_bus_nonce (g b : Nat) (s : State) : (raiseG g b s).bus.nonce = s.bus.nonce := raise_bus_nonce _ s
@[simp] theorem raiseG_bus_lock (g b : Nat) (s : State) : (raiseG g b s).bus.lock = s.bus.lock := raise_bus_lock _ s
@[simp] theorem raiseG_bus_failn (g b : Nat) (s : State) : (raiseG g b s).bus.failn = s.bus.failn := raise_bus_failn _ s
@[simp] theorem raiseG_bus_hnsusp (g b : Nat) (s : State) : (raiseG g b s).bus.hnsusp = s.bus.hnsusp := raise_bus_hnsusp _ s
@[simp] theorem raiseG_bus_hnLost (g b : Nat) (s : State) : (raiseG g b s).bus.hnLost = s.bus.hnLost := raise_bus_hnLost _ s
@[simp] theorem raiseG_bus_peccnt (g b : Nat) (s : State) : (raiseG g b s).bus.peccnt = s.bus.peccnt := raise_bus_peccnt _ s
@[simp] theorem raiseG_bus_tmocnt (g b : Nat) (s : State) : (raiseG g b s).bus.tmocnt = s.bus.tmocnt := raise_bus_tmocnt _ s
@[simp] theorem raiseG_bus_nackn (g b : Nat) (s : State) : (raiseG g b s).bus.nackn = s.bus.nackn := raise_bus_nackn _ s
@[simp] theorem raiseG_bus_rdata (g b : Nat) (s : State) : (raiseG g b s).bus.rdata = s.bus.rdata := raise_bus_rdata _ s
@[simp] theorem raiseG_bus_nack (g b : Nat) (s : State) : (raiseG g b s).bus.nack = s.bus.nack := raise_bus_nack _ s
@[simp] theorem raiseG_ds (g b : Nat) (s : State) : (raiseG g b s).ds = s.ds := raise_ds _ s
@[simp] theorem raiseG_irq_mask (g b : Nat) (s : State) : (raiseG g b s).irq.mask = s.irq.mask := raise_irq_mask _ s
@[simp] theorem raiseG_irq_route (g b : Nat) (s : State) : (raiseG g b s).irq.route = s.irq.route := raise_irq_route _ s
@[simp] theorem raiseG_irq_ovr (g b : Nat) (s : State) : (raiseG g b s).irq.ovr = s.irq.ovr := raise_irq_ovr _ s
@[simp] theorem raiseG_fl_sec (g b : Nat) (s : State) : (raiseG g b s).fl.sec = s.fl.sec := raise_fl_sec _ s
@[simp] theorem raiseG_fl_ro (g b : Nat) (s : State) : (raiseG g b s).fl.ro = s.fl.ro := raise_fl_ro _ s
@[simp] theorem raiseG_fl_cfgSt (g b : Nat) (s : State) : (raiseG g b s).fl.cfgSt = s.fl.cfgSt := raise_fl_cfgSt _ s
@[simp] theorem raiseG_fl_cfgA (g b : Nat) (s : State) : (raiseG g b s).fl.cfgA = s.fl.cfgA := raise_fl_cfgA _ s
@[simp] theorem raiseG_fl_cfgB (g b : Nat) (s : State) : (raiseG g b s).fl.cfgB = s.fl.cfgB := raise_fl_cfgB _ s
@[simp] theorem raiseG_fl_capture (g b : Nat) (s : State) : (raiseG g b s).fl.capture = s.fl.capture := raise_fl_capture _ s
@[simp] theorem raiseG_fl_wantPat (g b : Nat) (s : State) : (raiseG g b s).fl.wantPat = s.fl.wantPat := raise_fl_wantPat _ s
@[simp] theorem raiseG_fl_wantGau (g b : Nat) (s : State) : (raiseG g b s).fl.wantGau = s.fl.wantGau := raise_fl_wantGau _ s
@[simp] theorem raiseG_fl_scrubDue (g b : Nat) (s : State) : (raiseG g b s).fl.scrubDue = s.fl.scrubDue := raise_fl_scrubDue _ s
@[simp] theorem raiseG_fl_scrubSince (g b : Nat) (s : State) : (raiseG g b s).fl.scrubSince = s.fl.scrubSince := raise_fl_scrubSince _ s
@[simp] theorem raiseG_fl_refresh (g b : Nat) (s : State) : (raiseG g b s).fl.refresh = s.fl.refresh := raise_fl_refresh _ s
@[simp] theorem raiseG_fl_scrubIdx (g b : Nat) (s : State) : (raiseG g b s).fl.scrubIdx = s.fl.scrubIdx := raise_fl_scrubIdx _ s
@[simp] theorem raiseG_fl_late (g b : Nat) (s : State) : (raiseG g b s).fl.late = s.fl.late := raise_fl_late _ s
@[simp] theorem raiseG_fl_refrcnt (g b : Nat) (s : State) : (raiseG g b s).fl.refrcnt = s.fl.refrcnt := raise_fl_refrcnt _ s
@[simp] theorem raiseG_fl_halfcnt (g b : Nat) (s : State) : (raiseG g b s).fl.halfcnt = s.fl.halfcnt := raise_fl_halfcnt _ s
@[simp] theorem raiseG_fl_log (g b : Nat) (s : State) : (raiseG g b s).fl.log = s.fl.log := raise_fl_log _ s
@[simp] theorem raiseG_fl_opens (g b : Nat) (s : State) : (raiseG g b s).fl.opens = s.fl.opens := raise_fl_opens _ s
@[simp] theorem raiseG_fl_closes (g b : Nat) (s : State) : (raiseG g b s).fl.closes = s.fl.closes := raise_fl_closes _ s
@[simp] theorem raiseG_fl_turn (g b : Nat) (s : State) : (raiseG g b s).fl.turn = s.fl.turn := raise_fl_turn _ s
@[simp] theorem raiseG_fl_bad (g b : Nat) (s : State) : (raiseG g b s).fl.bad = s.fl.bad := raise_fl_bad _ s
@[simp] theorem raiseG_fl_erasing (g b : Nat) (s : State) : (raiseG g b s).fl.erasing = s.fl.erasing := raise_fl_erasing _ s
@[simp] theorem raiseG_fl_flush (g b : Nat) (s : State) : (raiseG g b s).fl.flush = s.fl.flush := raise_fl_flush _ s
@[simp] theorem raiseG_otp (g b : Nat) (s : State) : (raiseG g b s).otp = s.otp := raise_otp _ s
@[simp] theorem raiseG_upd (g b : Nat) (s : State) : (raiseG g b s).upd = s.upd := raise_upd _ s

@[simp] theorem raiseIf_pending (c : Bool) (k : Nat) (s : State) : (raiseIf c k s).pending = s.pending := by cases c; exacts [rfl, raise_pending k s]
@[simp] theorem raiseIf_clk_now (c : Bool) (k : Nat) (s : State) : (raiseIf c k s).clk.now = s.clk.now := by cases c; exacts [rfl, raise_clk_now k s]
@[simp] theorem raiseIf_clk_quantum (c : Bool) (k : Nat) (s : State) : (raiseIf c k s).clk.quantum = s.clk.quantum := by cases c; exacts [rfl, raise_clk_quantum k s]
@[simp] theorem raiseIf_clk_op (c : Bool) (k : Nat) (s : State) : (raiseIf c k s).clk.op = s.clk.op := by cases c; exacts [rfl, raise_clk_op k s]
@[simp] theorem raiseIf_clk_cycles (c : Bool) (k : Nat) (s : State) : (raiseIf c k s).clk.cycles = s.clk.cycles := by cases c; exacts [rfl, raise_clk_cycles k s]
@[simp] theorem raiseIf_free (c : Bool) (k : Nat) (s : State) : (raiseIf c k s).free = s.free := by cases c; exacts [rfl, raise_free k s]
@[simp] theorem raiseIf_glob (c : Bool) (k : Nat) (s : State) : (raiseIf c k s).glob = s.glob := by cases c; exacts [rfl, raise_glob k s]
@[simp] theorem raiseIf_regs (c : Bool) (k : Nat) (s : State) : (raiseIf c k s).regs = s.regs := by cases c; exacts [rfl, raise_regs k s]
@[simp] theorem raiseIf_cyc (c : Bool) (k : Nat) (s : State) : (raiseIf c k s).cyc = s.cyc := by cases c; exacts [rfl, raise_cyc k s]
@[simp] theorem raiseIf_qt (c : Bool) (k : Nat) (s : State) : (raiseIf c k s).qt = s.qt := by cases c; exacts [rfl, raise_qt k s]
@[simp] theorem raiseIf_inp (c : Bool) (k : Nat) (s : State) : (raiseIf c k s).inp = s.inp := by cases c; exacts [rfl, raise_inp k s]
@[simp] theorem raiseIf_rl (c : Bool) (k : Nat) (s : State) : (raiseIf c k s).rl = s.rl := by cases c; exacts [rfl, raise_rl k s]
@[simp] theorem raiseIf_bk (c : Bool) (k : Nat) (s : State) : (raiseIf c k s).bk = s.bk := by cases c; exacts [rfl, raise_bk k s]
@[simp] theorem raiseIf_seq_phase (c : Bool) (k : Nat) (s : State) : (raiseIf c k s).seq.phase = s.seq.phase := by cases c; exacts [rfl, raise_seq_phase k s]
@[simp] theorem raiseIf_seq_resumed (c : Bool) (k : Nat) (s : State) : (raiseIf c k s).seq.resumed = s.seq.resumed := by cases c; exacts [rfl, raise_seq_resumed k s]
@[simp] theorem raiseIf_seq_tick (c : Bool) (k : Nat) (s : State) : (raiseIf c k s).seq.tick = s.seq.tick := by cases c; exacts [rfl, raise_seq_tick k s]
@[simp] theorem raiseIf_seq_t0 (c : Bool) (k : Nat) (s : State) : (raiseIf c k s).seq.t0 = s.seq.t0 := by cases c; exacts [rfl, raise_seq_t0 k s]
@[simp] theorem raiseIf_seq_offhold (c : Bool) (k : Nat) (s : State) : (raiseIf c k s).seq.offhold = s.seq.offhold := by cases c; exacts [rfl, raise_seq_offhold k s]
@[simp] theorem raiseIf_seq_retryWait (c : Bool) (k : Nat) (s : State) : (raiseIf c k s).seq.retryWait = s.seq.retryWait := by cases c; exacts [rfl, raise_seq_retryWait k s]
@[simp] theorem raiseIf_seq_wait (c : Bool) (k : Nat) (s : State) : (raiseIf c k s).seq.wait = s.seq.wait := by cases c; exacts [rfl, raise_seq_wait k s]
@[simp] theorem raiseIf_seq_dly (c : Bool) (k : Nat) (s : State) : (raiseIf c k s).seq.dly = s.seq.dly := by cases c; exacts [rfl, raise_seq_dly k s]
@[simp] theorem raiseIf_seq_offWait (c : Bool) (k : Nat) (s : State) : (raiseIf c k s).seq.offWait = s.seq.offWait := by cases c; exacts [rfl, raise_seq_offWait k s]
@[simp] theorem raiseIf_seq_offDly (c : Bool) (k : Nat) (s : State) : (raiseIf c k s).seq.offDly = s.seq.offDly := by cases c; exacts [rfl, raise_seq_offDly k s]
@[simp] theorem raiseIf_seq_wasOn (c : Bool) (k : Nat) (s : State) : (raiseIf c k s).seq.wasOn = s.seq.wasOn := by cases c; exacts [rfl, raise_seq_wasOn k s]
@[simp] theorem raiseIf_seq_retries (c : Bool) (k : Nat) (s : State) : (raiseIf c k s).seq.retries = s.seq.retries := by cases c; exacts [rfl, raise_seq_retries k s]
@[simp] theorem raiseIf_seq_rset (c : Bool) (k : Nat) (s : State) : (raiseIf c k s).seq.rset = s.seq.rset := by cases c; exacts [rfl, raise_seq_rset k s]
@[simp] theorem raiseIf_seq_rst (c : Bool) (k : Nat) (s : State) : (raiseIf c k s).seq.rst = s.seq.rst := by cases c; exacts [rfl, raise_seq_rst k s]
@[simp] theorem raiseIf_seq_rstRun (c : Bool) (k : Nat) (s : State) : (raiseIf c k s).seq.rstRun = s.seq.rstRun := by cases c; exacts [rfl, raise_seq_rstRun k s]
@[simp] theorem raiseIf_seq_lastRail (c : Bool) (k : Nat) (s : State) : (raiseIf c k s).seq.lastRail = s.seq.lastRail := by cases c; exacts [rfl, raise_seq_lastRail k s]
@[simp] theorem raiseIf_seq_lastCode (c : Bool) (k : Nat) (s : State) : (raiseIf c k s).seq.lastCode = s.seq.lastCode := by cases c; exacts [rfl, raise_seq_lastCode k s]
@[simp] theorem raiseIf_seq_lastKind (c : Bool) (k : Nat) (s : State) : (raiseIf c k s).seq.lastKind = s.seq.lastKind := by cases c; exacts [rfl, raise_seq_lastKind k s]
@[simp] theorem raiseIf_seq_fwd (c : Bool) (k : Nat) (s : State) : (raiseIf c k s).seq.fwd = s.seq.fwd := by cases c; exacts [rfl, raise_seq_fwd k s]
@[simp] theorem raiseIf_seq_ended (c : Bool) (k : Nat) (s : State) : (raiseIf c k s).seq.ended = s.seq.ended := by cases c; exacts [rfl, raise_seq_ended k s]
@[simp] theorem raiseIf_seq_complete (c : Bool) (k : Nat) (s : State) : (raiseIf c k s).seq.complete = s.seq.complete := by cases c; exacts [rfl, raise_seq_complete k s]
@[simp] theorem raiseIf_seq_monok (c : Bool) (k : Nat) (s : State) : (raiseIf c k s).seq.monok = s.seq.monok := by cases c; exacts [rfl, raise_seq_monok k s]
@[simp] theorem raiseIf_seq_monhi (c : Bool) (k : Nat) (s : State) : (raiseIf c k s).seq.monhi = s.seq.monhi := by cases c; exacts [rfl, raise_seq_monhi k s]
@[simp] theorem raiseIf_seq_monuvl (c : Bool) (k : Nat) (s : State) : (raiseIf c k s).seq.monuvl = s.seq.monuvl := by cases c; exacts [rfl, raise_seq_monuvl k s]
@[simp] theorem raiseIf_seq_monovl (c : Bool) (k : Nat) (s : State) : (raiseIf c k s).seq.monovl = s.seq.monovl := by cases c; exacts [rfl, raise_seq_monovl k s]
@[simp] theorem raiseIf_txn (c : Bool) (k : Nat) (s : State) : (raiseIf c k s).txn = s.txn := by cases c; exacts [rfl, raise_txn k s]
@[simp] theorem raiseIf_safe (c : Bool) (k : Nat) (s : State) : (raiseIf c k s).safe = s.safe := by cases c; exacts [rfl, raise_safe k s]
@[simp] theorem raiseIf_tst (c : Bool) (k : Nat) (s : State) : (raiseIf c k s).tst = s.tst := by cases c; exacts [rfl, raise_tst k s]
@[simp] theorem raiseIf_pat (c : Bool) (k : Nat) (s : State) : (raiseIf c k s).pat = s.pat := by cases c; exacts [rfl, raise_pat k s]
@[simp] theorem raiseIf_hk (c : Bool) (k : Nat) (s : State) : (raiseIf c k s).hk = s.hk := by cases c; exacts [rfl, raise_hk k s]
@[simp] theorem raiseIf_thm (c : Bool) (k : Nat) (s : State) : (raiseIf c k s).thm = s.thm := by cases c; exacts [rfl, raise_thm k s]
@[simp] theorem raiseIf_plt (c : Bool) (k : Nat) (s : State) : (raiseIf c k s).plt = s.plt := by cases c; exacts [rfl, raise_plt k s]
@[simp] theorem raiseIf_chg (c : Bool) (k : Nat) (s : State) : (raiseIf c k s).chg = s.chg := by cases c; exacts [rfl, raise_chg k s]
@[simp] theorem raiseIf_gau (c : Bool) (k : Nat) (s : State) : (raiseIf c k s).gau = s.gau := by cases c; exacts [rfl, raise_gau k s]
@[simp] theorem raiseIf_cal (c : Bool) (k : Nat) (s : State) : (raiseIf c k s).cal = s.cal := by cases c; exacts [rfl, raise_cal k s]
@[simp] theorem raiseIf_pwr_held (c : Bool) (k : Nat) (s : State) : (raiseIf c k s).pwr.held = s.pwr.held := by cases c; exacts [rfl, raise_pwr_held k s]
@[simp] theorem raiseIf_pwr_idle (c : Bool) (k : Nat) (s : State) : (raiseIf c k s).pwr.idle = s.pwr.idle := by cases c; exacts [rfl, raise_pwr_idle k s]
@[simp] theorem raiseIf_pwr_lastslp (c : Bool) (k : Nat) (s : State) : (raiseIf c k s).pwr.lastslp = s.pwr.lastslp := by cases c; exacts [rfl, raise_pwr_lastslp k s]
@[simp] theorem raiseIf_pwr_req (c : Bool) (k : Nat) (s : State) : (raiseIf c k s).pwr.req = s.pwr.req := by cases c; exacts [rfl, raise_pwr_req k s]
@[simp] theorem raiseIf_pwr_why (c : Bool) (k : Nat) (s : State) : (raiseIf c k s).pwr.why = s.pwr.why := by cases c; exacts [rfl, raise_pwr_why k s]
@[simp] theorem raiseIf_pwr_slpsec (c : Bool) (k : Nat) (s : State) : (raiseIf c k s).pwr.slpsec = s.pwr.slpsec := by cases c; exacts [rfl, raise_pwr_slpsec k s]
@[simp] theorem raiseIf_pwr_fromRun (c : Bool) (k : Nat) (s : State) : (raiseIf c k s).pwr.fromRun = s.pwr.fromRun := by cases c; exacts [rfl, raise_pwr_fromRun k s]
@[simp] theorem raiseIf_pwr_woke (c : Bool) (k : Nat) (s : State) : (raiseIf c k s).pwr.woke = s.pwr.woke := by cases c; exacts [rfl, raise_pwr_woke k s]
@[simp] theorem raiseIf_bus_cstat (c : Bool) (k : Nat) (s : State) : (raiseIf c k s).bus.cstat = s.bus.cstat := by cases c; exacts [rfl, raise_bus_cstat k s]
@[simp] theorem raiseIf_bus_tag (c : Bool) (k : Nat) (s : State) : (raiseIf c k s).bus.tag = s.bus.tag := by cases c; exacts [rfl, raise_bus_tag k s]
@[simp] theorem raiseIf_bus_prog (c : Bool) (k : Nat) (s : State) : (raiseIf c k s).bus.prog = s.bus.prog := by cases c; exacts [rfl, raise_bus_prog k s]
@[simp] theorem raiseIf_bus_err (c : Bool) (k : Nat) (s : State) : (raiseIf c k s).bus.err = s.bus.err := by cases c; exacts [rfl, raise_bus_err k s]
@[simp] theorem raiseIf_bus_op (c : Bool) (k : Nat) (s : State) : (raiseIf c k s).bus.op = s.bus.op := by cases c; exacts [rfl, raise_bus_op k s]
@[simp] theorem raiseIf_bus_cres (c : Bool) (k : Nat) (s : State) : (raiseIf c k s).bus.cres = s.bus.cres := by cases c; exacts [rfl, raise_bus_cres k s]
@[simp] theorem raiseIf_bus_ofs (c : Bool) (k : Nat) (s : State) : (raiseIf c k s).bus.ofs = s.bus.ofs := by cases c; exacts [rfl, raise_bus_ofs k s]
@[simp] theorem raiseIf_bus_level (c : Bool) (k : Nat) (s : State) : (raiseIf c k s).bus.level = s.bus.level := by cases c; exacts [rfl, raise_bus_level k s]
@[simp] theorem raiseIf_bus_nonce (c : Bool) (k : Nat) (s : State) : (raiseIf c k s).bus.nonce = s.bus.nonce := by cases c; exacts [rfl, raise_bus_nonce k s]
@[simp] theorem raiseIf_bus_lock (c : Bool) (k : Nat) (s : State) : (raiseIf c k s).bus.lock = s.bus.lock := by cases c; exacts [rfl, raise_bus_lock k s]
@[simp] theorem raiseIf_bus_failn (c : Bool) (k : Nat) (s : State) : (raiseIf c k s).bus.failn = s.bus.failn := by cases c; exacts [rfl, raise_bus_failn k s]
@[simp] theorem raiseIf_bus_hnsusp (c : Bool) (k : Nat) (s : State) : (raiseIf c k s).bus.hnsusp = s.bus.hnsusp := by cases c; exacts [rfl, raise_bus_hnsusp k s]
@[simp] theorem raiseIf_bus_hnLost (c : Bool) (k : Nat) (s : State) : (raiseIf c k s).bus.hnLost = s.bus.hnLost := by cases c; exacts [rfl, raise_bus_hnLost k s]
@[simp] theorem raiseIf_bus_peccnt (c : Bool) (k : Nat) (s : State) : (raiseIf c k s).bus.peccnt = s.bus.peccnt := by cases c; exacts [rfl, raise_bus_peccnt k s]
@[simp] theorem raiseIf_bus_tmocnt (c : Bool) (k : Nat) (s : State) : (raiseIf c k s).bus.tmocnt = s.bus.tmocnt := by cases c; exacts [rfl, raise_bus_tmocnt k s]
@[simp] theorem raiseIf_bus_nackn (c : Bool) (k : Nat) (s : State) : (raiseIf c k s).bus.nackn = s.bus.nackn := by cases c; exacts [rfl, raise_bus_nackn k s]
@[simp] theorem raiseIf_bus_rdata (c : Bool) (k : Nat) (s : State) : (raiseIf c k s).bus.rdata = s.bus.rdata := by cases c; exacts [rfl, raise_bus_rdata k s]
@[simp] theorem raiseIf_bus_nack (c : Bool) (k : Nat) (s : State) : (raiseIf c k s).bus.nack = s.bus.nack := by cases c; exacts [rfl, raise_bus_nack k s]
@[simp] theorem raiseIf_ds (c : Bool) (k : Nat) (s : State) : (raiseIf c k s).ds = s.ds := by cases c; exacts [rfl, raise_ds k s]
@[simp] theorem raiseIf_irq_mask (c : Bool) (k : Nat) (s : State) : (raiseIf c k s).irq.mask = s.irq.mask := by cases c; exacts [rfl, raise_irq_mask k s]
@[simp] theorem raiseIf_irq_route (c : Bool) (k : Nat) (s : State) : (raiseIf c k s).irq.route = s.irq.route := by cases c; exacts [rfl, raise_irq_route k s]
@[simp] theorem raiseIf_irq_ovr (c : Bool) (k : Nat) (s : State) : (raiseIf c k s).irq.ovr = s.irq.ovr := by cases c; exacts [rfl, raise_irq_ovr k s]
@[simp] theorem raiseIf_fl_sec (c : Bool) (k : Nat) (s : State) : (raiseIf c k s).fl.sec = s.fl.sec := by cases c; exacts [rfl, raise_fl_sec k s]
@[simp] theorem raiseIf_fl_ro (c : Bool) (k : Nat) (s : State) : (raiseIf c k s).fl.ro = s.fl.ro := by cases c; exacts [rfl, raise_fl_ro k s]
@[simp] theorem raiseIf_fl_cfgSt (c : Bool) (k : Nat) (s : State) : (raiseIf c k s).fl.cfgSt = s.fl.cfgSt := by cases c; exacts [rfl, raise_fl_cfgSt k s]
@[simp] theorem raiseIf_fl_cfgA (c : Bool) (k : Nat) (s : State) : (raiseIf c k s).fl.cfgA = s.fl.cfgA := by cases c; exacts [rfl, raise_fl_cfgA k s]
@[simp] theorem raiseIf_fl_cfgB (c : Bool) (k : Nat) (s : State) : (raiseIf c k s).fl.cfgB = s.fl.cfgB := by cases c; exacts [rfl, raise_fl_cfgB k s]
@[simp] theorem raiseIf_fl_capture (c : Bool) (k : Nat) (s : State) : (raiseIf c k s).fl.capture = s.fl.capture := by cases c; exacts [rfl, raise_fl_capture k s]
@[simp] theorem raiseIf_fl_wantPat (c : Bool) (k : Nat) (s : State) : (raiseIf c k s).fl.wantPat = s.fl.wantPat := by cases c; exacts [rfl, raise_fl_wantPat k s]
@[simp] theorem raiseIf_fl_wantGau (c : Bool) (k : Nat) (s : State) : (raiseIf c k s).fl.wantGau = s.fl.wantGau := by cases c; exacts [rfl, raise_fl_wantGau k s]
@[simp] theorem raiseIf_fl_scrubDue (c : Bool) (k : Nat) (s : State) : (raiseIf c k s).fl.scrubDue = s.fl.scrubDue := by cases c; exacts [rfl, raise_fl_scrubDue k s]
@[simp] theorem raiseIf_fl_scrubSince (c : Bool) (k : Nat) (s : State) : (raiseIf c k s).fl.scrubSince = s.fl.scrubSince := by cases c; exacts [rfl, raise_fl_scrubSince k s]
@[simp] theorem raiseIf_fl_refresh (c : Bool) (k : Nat) (s : State) : (raiseIf c k s).fl.refresh = s.fl.refresh := by cases c; exacts [rfl, raise_fl_refresh k s]
@[simp] theorem raiseIf_fl_scrubIdx (c : Bool) (k : Nat) (s : State) : (raiseIf c k s).fl.scrubIdx = s.fl.scrubIdx := by cases c; exacts [rfl, raise_fl_scrubIdx k s]
@[simp] theorem raiseIf_fl_late (c : Bool) (k : Nat) (s : State) : (raiseIf c k s).fl.late = s.fl.late := by cases c; exacts [rfl, raise_fl_late k s]
@[simp] theorem raiseIf_fl_refrcnt (c : Bool) (k : Nat) (s : State) : (raiseIf c k s).fl.refrcnt = s.fl.refrcnt := by cases c; exacts [rfl, raise_fl_refrcnt k s]
@[simp] theorem raiseIf_fl_halfcnt (c : Bool) (k : Nat) (s : State) : (raiseIf c k s).fl.halfcnt = s.fl.halfcnt := by cases c; exacts [rfl, raise_fl_halfcnt k s]
@[simp] theorem raiseIf_fl_log (c : Bool) (k : Nat) (s : State) : (raiseIf c k s).fl.log = s.fl.log := by cases c; exacts [rfl, raise_fl_log k s]
@[simp] theorem raiseIf_fl_opens (c : Bool) (k : Nat) (s : State) : (raiseIf c k s).fl.opens = s.fl.opens := by cases c; exacts [rfl, raise_fl_opens k s]
@[simp] theorem raiseIf_fl_closes (c : Bool) (k : Nat) (s : State) : (raiseIf c k s).fl.closes = s.fl.closes := by cases c; exacts [rfl, raise_fl_closes k s]
@[simp] theorem raiseIf_fl_turn (c : Bool) (k : Nat) (s : State) : (raiseIf c k s).fl.turn = s.fl.turn := by cases c; exacts [rfl, raise_fl_turn k s]
@[simp] theorem raiseIf_fl_bad (c : Bool) (k : Nat) (s : State) : (raiseIf c k s).fl.bad = s.fl.bad := by cases c; exacts [rfl, raise_fl_bad k s]
@[simp] theorem raiseIf_fl_erasing (c : Bool) (k : Nat) (s : State) : (raiseIf c k s).fl.erasing = s.fl.erasing := by cases c; exacts [rfl, raise_fl_erasing k s]
@[simp] theorem raiseIf_fl_flush (c : Bool) (k : Nat) (s : State) : (raiseIf c k s).fl.flush = s.fl.flush := by cases c; exacts [rfl, raise_fl_flush k s]
@[simp] theorem raiseIf_otp (c : Bool) (k : Nat) (s : State) : (raiseIf c k s).otp = s.otp := by cases c; exacts [rfl, raise_otp k s]
@[simp] theorem raiseIf_upd (c : Bool) (k : Nat) (s : State) : (raiseIf c k s).upd = s.upd := by cases c; exacts [rfl, raise_upd k s]

@[simp] theorem logOther_pending (kd k : Nat) (d : BitVec 32) (s : State) : (logOther kd k d s).pending = s.pending := by have h := congrArg (fun t : State => t.pending) (logOther_unmarked kd k d s).1; exact h
@[simp] theorem logOther_clk_now (kd k : Nat) (d : BitVec 32) (s : State) : (logOther kd k d s).clk.now = s.clk.now := by have h := congrArg (fun t : State => t.clk.now) (logOther_unmarked kd k d s).1; exact h
@[simp] theorem logOther_clk_quantum (kd k : Nat) (d : BitVec 32) (s : State) : (logOther kd k d s).clk.quantum = s.clk.quantum := by have h := congrArg (fun t : State => t.clk.quantum) (logOther_unmarked kd k d s).1; exact h
@[simp] theorem logOther_clk_op (kd k : Nat) (d : BitVec 32) (s : State) : (logOther kd k d s).clk.op = s.clk.op := by have h := congrArg (fun t : State => t.clk.op) (logOther_unmarked kd k d s).1; exact h
@[simp] theorem logOther_clk_cycles (kd k : Nat) (d : BitVec 32) (s : State) : (logOther kd k d s).clk.cycles = s.clk.cycles := by have h := congrArg (fun t : State => t.clk.cycles) (logOther_unmarked kd k d s).1; exact h
@[simp] theorem logOther_free (kd k : Nat) (d : BitVec 32) (s : State) : (logOther kd k d s).free = s.free := by have h := congrArg (fun t : State => t.free) (logOther_unmarked kd k d s).1; exact h
@[simp] theorem logOther_glob (kd k : Nat) (d : BitVec 32) (s : State) : (logOther kd k d s).glob = s.glob := by have h := congrArg (fun t : State => t.glob) (logOther_unmarked kd k d s).1; exact h
@[simp] theorem logOther_regs (kd k : Nat) (d : BitVec 32) (s : State) : (logOther kd k d s).regs = s.regs := by have h := congrArg (fun t : State => t.regs) (logOther_unmarked kd k d s).1; exact h
@[simp] theorem logOther_cyc (kd k : Nat) (d : BitVec 32) (s : State) : (logOther kd k d s).cyc = s.cyc := by have h := congrArg (fun t : State => t.cyc) (logOther_unmarked kd k d s).1; exact h
@[simp] theorem logOther_qt (kd k : Nat) (d : BitVec 32) (s : State) : (logOther kd k d s).qt = s.qt := by have h := congrArg (fun t : State => t.qt) (logOther_unmarked kd k d s).1; exact h
@[simp] theorem logOther_inp (kd k : Nat) (d : BitVec 32) (s : State) : (logOther kd k d s).inp = s.inp := by have h := congrArg (fun t : State => t.inp) (logOther_unmarked kd k d s).1; exact h
@[simp] theorem logOther_rl (kd k : Nat) (d : BitVec 32) (s : State) : (logOther kd k d s).rl = s.rl := by have h := congrArg (fun t : State => t.rl) (logOther_unmarked kd k d s).1; exact h
@[simp] theorem logOther_bk (kd k : Nat) (d : BitVec 32) (s : State) : (logOther kd k d s).bk = s.bk := by have h := congrArg (fun t : State => t.bk) (logOther_unmarked kd k d s).1; exact h
@[simp] theorem logOther_seq (kd k : Nat) (d : BitVec 32) (s : State) : (logOther kd k d s).seq = s.seq := (logOther_unmarked kd k d s).2.1
@[simp] theorem logOther_txn (kd k : Nat) (d : BitVec 32) (s : State) : (logOther kd k d s).txn = s.txn := by have h := congrArg (fun t : State => t.txn) (logOther_unmarked kd k d s).1; exact h
@[simp] theorem logOther_safe (kd k : Nat) (d : BitVec 32) (s : State) : (logOther kd k d s).safe = s.safe := by have h := congrArg (fun t : State => t.safe) (logOther_unmarked kd k d s).1; exact h
@[simp] theorem logOther_tst (kd k : Nat) (d : BitVec 32) (s : State) : (logOther kd k d s).tst = s.tst := by have h := congrArg (fun t : State => t.tst) (logOther_unmarked kd k d s).1; exact h
@[simp] theorem logOther_pat (kd k : Nat) (d : BitVec 32) (s : State) : (logOther kd k d s).pat = s.pat := by have h := congrArg (fun t : State => t.pat) (logOther_unmarked kd k d s).1; exact h
@[simp] theorem logOther_hk (kd k : Nat) (d : BitVec 32) (s : State) : (logOther kd k d s).hk = s.hk := by have h := congrArg (fun t : State => t.hk) (logOther_unmarked kd k d s).1; exact h
@[simp] theorem logOther_thm (kd k : Nat) (d : BitVec 32) (s : State) : (logOther kd k d s).thm = s.thm := by have h := congrArg (fun t : State => t.thm) (logOther_unmarked kd k d s).1; exact h
@[simp] theorem logOther_plt (kd k : Nat) (d : BitVec 32) (s : State) : (logOther kd k d s).plt = s.plt := by have h := congrArg (fun t : State => t.plt) (logOther_unmarked kd k d s).1; exact h
@[simp] theorem logOther_chg (kd k : Nat) (d : BitVec 32) (s : State) : (logOther kd k d s).chg = s.chg := by have h := congrArg (fun t : State => t.chg) (logOther_unmarked kd k d s).1; exact h
@[simp] theorem logOther_gau (kd k : Nat) (d : BitVec 32) (s : State) : (logOther kd k d s).gau = s.gau := by have h := congrArg (fun t : State => t.gau) (logOther_unmarked kd k d s).1; exact h
@[simp] theorem logOther_cal (kd k : Nat) (d : BitVec 32) (s : State) : (logOther kd k d s).cal = s.cal := by have h := congrArg (fun t : State => t.cal) (logOther_unmarked kd k d s).1; exact h
@[simp] theorem logOther_pwr (kd k : Nat) (d : BitVec 32) (s : State) : (logOther kd k d s).pwr = s.pwr := (logOther_unmarked kd k d s).2.2
@[simp] theorem logOther_bus_cstat (kd k : Nat) (d : BitVec 32) (s : State) : (logOther kd k d s).bus.cstat = s.bus.cstat := by have h := congrArg (fun t : State => t.bus.cstat) (logOther_unmarked kd k d s).1; exact h
@[simp] theorem logOther_bus_tag (kd k : Nat) (d : BitVec 32) (s : State) : (logOther kd k d s).bus.tag = s.bus.tag := by have h := congrArg (fun t : State => t.bus.tag) (logOther_unmarked kd k d s).1; exact h
@[simp] theorem logOther_bus_prog (kd k : Nat) (d : BitVec 32) (s : State) : (logOther kd k d s).bus.prog = s.bus.prog := by have h := congrArg (fun t : State => t.bus.prog) (logOther_unmarked kd k d s).1; exact h
@[simp] theorem logOther_bus_err (kd k : Nat) (d : BitVec 32) (s : State) : (logOther kd k d s).bus.err = s.bus.err := by have h := congrArg (fun t : State => t.bus.err) (logOther_unmarked kd k d s).1; exact h
@[simp] theorem logOther_bus_op (kd k : Nat) (d : BitVec 32) (s : State) : (logOther kd k d s).bus.op = s.bus.op := by have h := congrArg (fun t : State => t.bus.op) (logOther_unmarked kd k d s).1; exact h
@[simp] theorem logOther_bus_cres (kd k : Nat) (d : BitVec 32) (s : State) : (logOther kd k d s).bus.cres = s.bus.cres := by have h := congrArg (fun t : State => t.bus.cres) (logOther_unmarked kd k d s).1; exact h
@[simp] theorem logOther_bus_ofs (kd k : Nat) (d : BitVec 32) (s : State) : (logOther kd k d s).bus.ofs = s.bus.ofs := by have h := congrArg (fun t : State => t.bus.ofs) (logOther_unmarked kd k d s).1; exact h
@[simp] theorem logOther_bus_level (kd k : Nat) (d : BitVec 32) (s : State) : (logOther kd k d s).bus.level = s.bus.level := by have h := congrArg (fun t : State => t.bus.level) (logOther_unmarked kd k d s).1; exact h
@[simp] theorem logOther_bus_nonce (kd k : Nat) (d : BitVec 32) (s : State) : (logOther kd k d s).bus.nonce = s.bus.nonce := by have h := congrArg (fun t : State => t.bus.nonce) (logOther_unmarked kd k d s).1; exact h
@[simp] theorem logOther_bus_lock (kd k : Nat) (d : BitVec 32) (s : State) : (logOther kd k d s).bus.lock = s.bus.lock := by have h := congrArg (fun t : State => t.bus.lock) (logOther_unmarked kd k d s).1; exact h
@[simp] theorem logOther_bus_failn (kd k : Nat) (d : BitVec 32) (s : State) : (logOther kd k d s).bus.failn = s.bus.failn := by have h := congrArg (fun t : State => t.bus.failn) (logOther_unmarked kd k d s).1; exact h
@[simp] theorem logOther_bus_hnsusp (kd k : Nat) (d : BitVec 32) (s : State) : (logOther kd k d s).bus.hnsusp = s.bus.hnsusp := by have h := congrArg (fun t : State => t.bus.hnsusp) (logOther_unmarked kd k d s).1; exact h
@[simp] theorem logOther_bus_hnLost (kd k : Nat) (d : BitVec 32) (s : State) : (logOther kd k d s).bus.hnLost = s.bus.hnLost := by have h := congrArg (fun t : State => t.bus.hnLost) (logOther_unmarked kd k d s).1; exact h
@[simp] theorem logOther_bus_peccnt (kd k : Nat) (d : BitVec 32) (s : State) : (logOther kd k d s).bus.peccnt = s.bus.peccnt := by have h := congrArg (fun t : State => t.bus.peccnt) (logOther_unmarked kd k d s).1; exact h
@[simp] theorem logOther_bus_tmocnt (kd k : Nat) (d : BitVec 32) (s : State) : (logOther kd k d s).bus.tmocnt = s.bus.tmocnt := by have h := congrArg (fun t : State => t.bus.tmocnt) (logOther_unmarked kd k d s).1; exact h
@[simp] theorem logOther_bus_nackn (kd k : Nat) (d : BitVec 32) (s : State) : (logOther kd k d s).bus.nackn = s.bus.nackn := by have h := congrArg (fun t : State => t.bus.nackn) (logOther_unmarked kd k d s).1; exact h
@[simp] theorem logOther_bus_rdata (kd k : Nat) (d : BitVec 32) (s : State) : (logOther kd k d s).bus.rdata = s.bus.rdata := by have h := congrArg (fun t : State => t.bus.rdata) (logOther_unmarked kd k d s).1; exact h
@[simp] theorem logOther_bus_nack (kd k : Nat) (d : BitVec 32) (s : State) : (logOther kd k d s).bus.nack = s.bus.nack := by have h := congrArg (fun t : State => t.bus.nack) (logOther_unmarked kd k d s).1; exact h
@[simp] theorem logOther_ds (kd k : Nat) (d : BitVec 32) (s : State) : (logOther kd k d s).ds = s.ds := by have h := congrArg (fun t : State => t.ds) (logOther_unmarked kd k d s).1; exact h
@[simp] theorem logOther_irq_mask (kd k : Nat) (d : BitVec 32) (s : State) : (logOther kd k d s).irq.mask = s.irq.mask := by have h := congrArg (fun t : State => t.irq.mask) (logOther_unmarked kd k d s).1; exact h
@[simp] theorem logOther_irq_route (kd k : Nat) (d : BitVec 32) (s : State) : (logOther kd k d s).irq.route = s.irq.route := by have h := congrArg (fun t : State => t.irq.route) (logOther_unmarked kd k d s).1; exact h
@[simp] theorem logOther_irq_ovr (kd k : Nat) (d : BitVec 32) (s : State) : (logOther kd k d s).irq.ovr = s.irq.ovr := by have h := congrArg (fun t : State => t.irq.ovr) (logOther_unmarked kd k d s).1; exact h
@[simp] theorem logOther_fl_sec (kd k : Nat) (d : BitVec 32) (s : State) : (logOther kd k d s).fl.sec = s.fl.sec := by have h := congrArg (fun t : State => t.fl.sec) (logOther_unmarked kd k d s).1; exact h
@[simp] theorem logOther_fl_ro (kd k : Nat) (d : BitVec 32) (s : State) : (logOther kd k d s).fl.ro = s.fl.ro := by have h := congrArg (fun t : State => t.fl.ro) (logOther_unmarked kd k d s).1; exact h
@[simp] theorem logOther_fl_cfgSt (kd k : Nat) (d : BitVec 32) (s : State) : (logOther kd k d s).fl.cfgSt = s.fl.cfgSt := by have h := congrArg (fun t : State => t.fl.cfgSt) (logOther_unmarked kd k d s).1; exact h
@[simp] theorem logOther_fl_cfgA (kd k : Nat) (d : BitVec 32) (s : State) : (logOther kd k d s).fl.cfgA = s.fl.cfgA := by have h := congrArg (fun t : State => t.fl.cfgA) (logOther_unmarked kd k d s).1; exact h
@[simp] theorem logOther_fl_cfgB (kd k : Nat) (d : BitVec 32) (s : State) : (logOther kd k d s).fl.cfgB = s.fl.cfgB := by have h := congrArg (fun t : State => t.fl.cfgB) (logOther_unmarked kd k d s).1; exact h
@[simp] theorem logOther_fl_capture (kd k : Nat) (d : BitVec 32) (s : State) : (logOther kd k d s).fl.capture = s.fl.capture := by have h := congrArg (fun t : State => t.fl.capture) (logOther_unmarked kd k d s).1; exact h
@[simp] theorem logOther_fl_wantPat (kd k : Nat) (d : BitVec 32) (s : State) : (logOther kd k d s).fl.wantPat = s.fl.wantPat := by have h := congrArg (fun t : State => t.fl.wantPat) (logOther_unmarked kd k d s).1; exact h
@[simp] theorem logOther_fl_wantGau (kd k : Nat) (d : BitVec 32) (s : State) : (logOther kd k d s).fl.wantGau = s.fl.wantGau := by have h := congrArg (fun t : State => t.fl.wantGau) (logOther_unmarked kd k d s).1; exact h
@[simp] theorem logOther_fl_scrubDue (kd k : Nat) (d : BitVec 32) (s : State) : (logOther kd k d s).fl.scrubDue = s.fl.scrubDue := by have h := congrArg (fun t : State => t.fl.scrubDue) (logOther_unmarked kd k d s).1; exact h
@[simp] theorem logOther_fl_scrubSince (kd k : Nat) (d : BitVec 32) (s : State) : (logOther kd k d s).fl.scrubSince = s.fl.scrubSince := by have h := congrArg (fun t : State => t.fl.scrubSince) (logOther_unmarked kd k d s).1; exact h
@[simp] theorem logOther_fl_refresh (kd k : Nat) (d : BitVec 32) (s : State) : (logOther kd k d s).fl.refresh = s.fl.refresh := by have h := congrArg (fun t : State => t.fl.refresh) (logOther_unmarked kd k d s).1; exact h
@[simp] theorem logOther_fl_scrubIdx (kd k : Nat) (d : BitVec 32) (s : State) : (logOther kd k d s).fl.scrubIdx = s.fl.scrubIdx := by have h := congrArg (fun t : State => t.fl.scrubIdx) (logOther_unmarked kd k d s).1; exact h
@[simp] theorem logOther_fl_late (kd k : Nat) (d : BitVec 32) (s : State) : (logOther kd k d s).fl.late = s.fl.late := by have h := congrArg (fun t : State => t.fl.late) (logOther_unmarked kd k d s).1; exact h
@[simp] theorem logOther_fl_refrcnt (kd k : Nat) (d : BitVec 32) (s : State) : (logOther kd k d s).fl.refrcnt = s.fl.refrcnt := by have h := congrArg (fun t : State => t.fl.refrcnt) (logOther_unmarked kd k d s).1; exact h
@[simp] theorem logOther_fl_halfcnt (kd k : Nat) (d : BitVec 32) (s : State) : (logOther kd k d s).fl.halfcnt = s.fl.halfcnt := by have h := congrArg (fun t : State => t.fl.halfcnt) (logOther_unmarked kd k d s).1; exact h
@[simp] theorem logOther_fl_log (kd k : Nat) (d : BitVec 32) (s : State) : (logOther kd k d s).fl.log = s.fl.log := by have h := congrArg (fun t : State => t.fl.log) (logOther_unmarked kd k d s).1; exact h
@[simp] theorem logOther_fl_opens (kd k : Nat) (d : BitVec 32) (s : State) : (logOther kd k d s).fl.opens = s.fl.opens := by have h := congrArg (fun t : State => t.fl.opens) (logOther_unmarked kd k d s).1; exact h
@[simp] theorem logOther_fl_closes (kd k : Nat) (d : BitVec 32) (s : State) : (logOther kd k d s).fl.closes = s.fl.closes := by have h := congrArg (fun t : State => t.fl.closes) (logOther_unmarked kd k d s).1; exact h
@[simp] theorem logOther_fl_turn (kd k : Nat) (d : BitVec 32) (s : State) : (logOther kd k d s).fl.turn = s.fl.turn := by have h := congrArg (fun t : State => t.fl.turn) (logOther_unmarked kd k d s).1; exact h
@[simp] theorem logOther_fl_bad (kd k : Nat) (d : BitVec 32) (s : State) : (logOther kd k d s).fl.bad = s.fl.bad := by have h := congrArg (fun t : State => t.fl.bad) (logOther_unmarked kd k d s).1; exact h
@[simp] theorem logOther_fl_erasing (kd k : Nat) (d : BitVec 32) (s : State) : (logOther kd k d s).fl.erasing = s.fl.erasing := by have h := congrArg (fun t : State => t.fl.erasing) (logOther_unmarked kd k d s).1; exact h
@[simp] theorem logOther_fl_flush (kd k : Nat) (d : BitVec 32) (s : State) : (logOther kd k d s).fl.flush = s.fl.flush := by have h := congrArg (fun t : State => t.fl.flush) (logOther_unmarked kd k d s).1; exact h
@[simp] theorem logOther_otp (kd k : Nat) (d : BitVec 32) (s : State) : (logOther kd k d s).otp = s.otp := by have h := congrArg (fun t : State => t.otp) (logOther_unmarked kd k d s).1; exact h
@[simp] theorem logOther_upd (kd k : Nat) (d : BitVec 32) (s : State) : (logOther kd k d s).upd = s.upd := by have h := congrArg (fun t : State => t.upd) (logOther_unmarked kd k d s).1; exact h

@[simp] theorem buserr_pending (b : Nat) (s : State) : (buserr b s).pending = s.pending := by unfold buserr; split; exacts [rfl, raise_pending _ _]
@[simp] theorem buserr_clk_now (b : Nat) (s : State) : (buserr b s).clk.now = s.clk.now := by unfold buserr; split; exacts [rfl, raise_clk_now _ _]
@[simp] theorem buserr_clk_quantum (b : Nat) (s : State) : (buserr b s).clk.quantum = s.clk.quantum := by unfold buserr; split; exacts [rfl, raise_clk_quantum _ _]
@[simp] theorem buserr_clk_op (b : Nat) (s : State) : (buserr b s).clk.op = s.clk.op := by unfold buserr; split; exacts [rfl, raise_clk_op _ _]
@[simp] theorem buserr_clk_cycles (b : Nat) (s : State) : (buserr b s).clk.cycles = s.clk.cycles := by unfold buserr; split; exacts [rfl, raise_clk_cycles _ _]
@[simp] theorem buserr_free (b : Nat) (s : State) : (buserr b s).free = s.free := by unfold buserr; split; exacts [rfl, raise_free _ _]
@[simp] theorem buserr_regs (b : Nat) (s : State) : (buserr b s).regs = s.regs := by unfold buserr; split; exacts [rfl, raise_regs _ _]
@[simp] theorem buserr_cyc (b : Nat) (s : State) : (buserr b s).cyc = s.cyc := by unfold buserr; split; exacts [rfl, raise_cyc _ _]
@[simp] theorem buserr_qt (b : Nat) (s : State) : (buserr b s).qt = s.qt := by unfold buserr; split; exacts [rfl, raise_qt _ _]
@[simp] theorem buserr_inp (b : Nat) (s : State) : (buserr b s).inp = s.inp := by unfold buserr; split; exacts [rfl, raise_inp _ _]
@[simp] theorem buserr_rl (b : Nat) (s : State) : (buserr b s).rl = s.rl := by unfold buserr; split; exacts [rfl, raise_rl _ _]
@[simp] theorem buserr_bk (b : Nat) (s : State) : (buserr b s).bk = s.bk := by unfold buserr; split; exacts [rfl, raise_bk _ _]
@[simp] theorem buserr_seq_phase (b : Nat) (s : State) : (buserr b s).seq.phase = s.seq.phase := by unfold buserr; split; exacts [rfl, raise_seq_phase _ _]
@[simp] theorem buserr_seq_resumed (b : Nat) (s : State) : (buserr b s).seq.resumed = s.seq.resumed := by unfold buserr; split; exacts [rfl, raise_seq_resumed _ _]
@[simp] theorem buserr_seq_tick (b : Nat) (s : State) : (buserr b s).seq.tick = s.seq.tick := by unfold buserr; split; exacts [rfl, raise_seq_tick _ _]
@[simp] theorem buserr_seq_t0 (b : Nat) (s : State) : (buserr b s).seq.t0 = s.seq.t0 := by unfold buserr; split; exacts [rfl, raise_seq_t0 _ _]
@[simp] theorem buserr_seq_offhold (b : Nat) (s : State) : (buserr b s).seq.offhold = s.seq.offhold := by unfold buserr; split; exacts [rfl, raise_seq_offhold _ _]
@[simp] theorem buserr_seq_retryWait (b : Nat) (s : State) : (buserr b s).seq.retryWait = s.seq.retryWait := by unfold buserr; split; exacts [rfl, raise_seq_retryWait _ _]
@[simp] theorem buserr_seq_wait (b : Nat) (s : State) : (buserr b s).seq.wait = s.seq.wait := by unfold buserr; split; exacts [rfl, raise_seq_wait _ _]
@[simp] theorem buserr_seq_dly (b : Nat) (s : State) : (buserr b s).seq.dly = s.seq.dly := by unfold buserr; split; exacts [rfl, raise_seq_dly _ _]
@[simp] theorem buserr_seq_offWait (b : Nat) (s : State) : (buserr b s).seq.offWait = s.seq.offWait := by unfold buserr; split; exacts [rfl, raise_seq_offWait _ _]
@[simp] theorem buserr_seq_offDly (b : Nat) (s : State) : (buserr b s).seq.offDly = s.seq.offDly := by unfold buserr; split; exacts [rfl, raise_seq_offDly _ _]
@[simp] theorem buserr_seq_wasOn (b : Nat) (s : State) : (buserr b s).seq.wasOn = s.seq.wasOn := by unfold buserr; split; exacts [rfl, raise_seq_wasOn _ _]
@[simp] theorem buserr_seq_retries (b : Nat) (s : State) : (buserr b s).seq.retries = s.seq.retries := by unfold buserr; split; exacts [rfl, raise_seq_retries _ _]
@[simp] theorem buserr_seq_rset (b : Nat) (s : State) : (buserr b s).seq.rset = s.seq.rset := by unfold buserr; split; exacts [rfl, raise_seq_rset _ _]
@[simp] theorem buserr_seq_rst (b : Nat) (s : State) : (buserr b s).seq.rst = s.seq.rst := by unfold buserr; split; exacts [rfl, raise_seq_rst _ _]
@[simp] theorem buserr_seq_rstRun (b : Nat) (s : State) : (buserr b s).seq.rstRun = s.seq.rstRun := by unfold buserr; split; exacts [rfl, raise_seq_rstRun _ _]
@[simp] theorem buserr_seq_lastRail (b : Nat) (s : State) : (buserr b s).seq.lastRail = s.seq.lastRail := by unfold buserr; split; exacts [rfl, raise_seq_lastRail _ _]
@[simp] theorem buserr_seq_lastCode (b : Nat) (s : State) : (buserr b s).seq.lastCode = s.seq.lastCode := by unfold buserr; split; exacts [rfl, raise_seq_lastCode _ _]
@[simp] theorem buserr_seq_lastKind (b : Nat) (s : State) : (buserr b s).seq.lastKind = s.seq.lastKind := by unfold buserr; split; exacts [rfl, raise_seq_lastKind _ _]
@[simp] theorem buserr_seq_fwd (b : Nat) (s : State) : (buserr b s).seq.fwd = s.seq.fwd := by unfold buserr; split; exacts [rfl, raise_seq_fwd _ _]
@[simp] theorem buserr_seq_ended (b : Nat) (s : State) : (buserr b s).seq.ended = s.seq.ended := by unfold buserr; split; exacts [rfl, raise_seq_ended _ _]
@[simp] theorem buserr_seq_complete (b : Nat) (s : State) : (buserr b s).seq.complete = s.seq.complete := by unfold buserr; split; exacts [rfl, raise_seq_complete _ _]
@[simp] theorem buserr_seq_monok (b : Nat) (s : State) : (buserr b s).seq.monok = s.seq.monok := by unfold buserr; split; exacts [rfl, raise_seq_monok _ _]
@[simp] theorem buserr_seq_monhi (b : Nat) (s : State) : (buserr b s).seq.monhi = s.seq.monhi := by unfold buserr; split; exacts [rfl, raise_seq_monhi _ _]
@[simp] theorem buserr_seq_monuvl (b : Nat) (s : State) : (buserr b s).seq.monuvl = s.seq.monuvl := by unfold buserr; split; exacts [rfl, raise_seq_monuvl _ _]
@[simp] theorem buserr_seq_monovl (b : Nat) (s : State) : (buserr b s).seq.monovl = s.seq.monovl := by unfold buserr; split; exacts [rfl, raise_seq_monovl _ _]
@[simp] theorem buserr_txn (b : Nat) (s : State) : (buserr b s).txn = s.txn := by unfold buserr; split; exacts [rfl, raise_txn _ _]
@[simp] theorem buserr_safe (b : Nat) (s : State) : (buserr b s).safe = s.safe := by unfold buserr; split; exacts [rfl, raise_safe _ _]
@[simp] theorem buserr_tst (b : Nat) (s : State) : (buserr b s).tst = s.tst := by unfold buserr; split; exacts [rfl, raise_tst _ _]
@[simp] theorem buserr_pat (b : Nat) (s : State) : (buserr b s).pat = s.pat := by unfold buserr; split; exacts [rfl, raise_pat _ _]
@[simp] theorem buserr_hk (b : Nat) (s : State) : (buserr b s).hk = s.hk := by unfold buserr; split; exacts [rfl, raise_hk _ _]
@[simp] theorem buserr_thm (b : Nat) (s : State) : (buserr b s).thm = s.thm := by unfold buserr; split; exacts [rfl, raise_thm _ _]
@[simp] theorem buserr_plt (b : Nat) (s : State) : (buserr b s).plt = s.plt := by unfold buserr; split; exacts [rfl, raise_plt _ _]
@[simp] theorem buserr_chg (b : Nat) (s : State) : (buserr b s).chg = s.chg := by unfold buserr; split; exacts [rfl, raise_chg _ _]
@[simp] theorem buserr_gau (b : Nat) (s : State) : (buserr b s).gau = s.gau := by unfold buserr; split; exacts [rfl, raise_gau _ _]
@[simp] theorem buserr_cal (b : Nat) (s : State) : (buserr b s).cal = s.cal := by unfold buserr; split; exacts [rfl, raise_cal _ _]
@[simp] theorem buserr_pwr_held (b : Nat) (s : State) : (buserr b s).pwr.held = s.pwr.held := by unfold buserr; split; exacts [rfl, raise_pwr_held _ _]
@[simp] theorem buserr_pwr_idle (b : Nat) (s : State) : (buserr b s).pwr.idle = s.pwr.idle := by unfold buserr; split; exacts [rfl, raise_pwr_idle _ _]
@[simp] theorem buserr_pwr_lastslp (b : Nat) (s : State) : (buserr b s).pwr.lastslp = s.pwr.lastslp := by unfold buserr; split; exacts [rfl, raise_pwr_lastslp _ _]
@[simp] theorem buserr_pwr_req (b : Nat) (s : State) : (buserr b s).pwr.req = s.pwr.req := by unfold buserr; split; exacts [rfl, raise_pwr_req _ _]
@[simp] theorem buserr_pwr_why (b : Nat) (s : State) : (buserr b s).pwr.why = s.pwr.why := by unfold buserr; split; exacts [rfl, raise_pwr_why _ _]
@[simp] theorem buserr_pwr_slpsec (b : Nat) (s : State) : (buserr b s).pwr.slpsec = s.pwr.slpsec := by unfold buserr; split; exacts [rfl, raise_pwr_slpsec _ _]
@[simp] theorem buserr_pwr_fromRun (b : Nat) (s : State) : (buserr b s).pwr.fromRun = s.pwr.fromRun := by unfold buserr; split; exacts [rfl, raise_pwr_fromRun _ _]
@[simp] theorem buserr_pwr_woke (b : Nat) (s : State) : (buserr b s).pwr.woke = s.pwr.woke := by unfold buserr; split; exacts [rfl, raise_pwr_woke _ _]
@[simp] theorem buserr_bus_cstat (b : Nat) (s : State) : (buserr b s).bus.cstat = s.bus.cstat := by unfold buserr; split; exacts [rfl, raise_bus_cstat _ _]
@[simp] theorem buserr_bus_tag (b : Nat) (s : State) : (buserr b s).bus.tag = s.bus.tag := by unfold buserr; split; exacts [rfl, raise_bus_tag _ _]
@[simp] theorem buserr_bus_prog (b : Nat) (s : State) : (buserr b s).bus.prog = s.bus.prog := by unfold buserr; split; exacts [rfl, raise_bus_prog _ _]
@[simp] theorem buserr_bus_err (b : Nat) (s : State) : (buserr b s).bus.err = s.bus.err := by unfold buserr; split; exacts [rfl, raise_bus_err _ _]
@[simp] theorem buserr_bus_op (b : Nat) (s : State) : (buserr b s).bus.op = s.bus.op := by unfold buserr; split; exacts [rfl, raise_bus_op _ _]
@[simp] theorem buserr_bus_cres (b : Nat) (s : State) : (buserr b s).bus.cres = s.bus.cres := by unfold buserr; split; exacts [rfl, raise_bus_cres _ _]
@[simp] theorem buserr_bus_ofs (b : Nat) (s : State) : (buserr b s).bus.ofs = s.bus.ofs := by unfold buserr; split; exacts [rfl, raise_bus_ofs _ _]
@[simp] theorem buserr_bus_level (b : Nat) (s : State) : (buserr b s).bus.level = s.bus.level := by unfold buserr; split; exacts [rfl, raise_bus_level _ _]
@[simp] theorem buserr_bus_nonce (b : Nat) (s : State) : (buserr b s).bus.nonce = s.bus.nonce := by unfold buserr; split; exacts [rfl, raise_bus_nonce _ _]
@[simp] theorem buserr_bus_lock (b : Nat) (s : State) : (buserr b s).bus.lock = s.bus.lock := by unfold buserr; split; exacts [rfl, raise_bus_lock _ _]
@[simp] theorem buserr_bus_failn (b : Nat) (s : State) : (buserr b s).bus.failn = s.bus.failn := by unfold buserr; split; exacts [rfl, raise_bus_failn _ _]
@[simp] theorem buserr_bus_hnsusp (b : Nat) (s : State) : (buserr b s).bus.hnsusp = s.bus.hnsusp := by unfold buserr; split; exacts [rfl, raise_bus_hnsusp _ _]
@[simp] theorem buserr_bus_hnLost (b : Nat) (s : State) : (buserr b s).bus.hnLost = s.bus.hnLost := by unfold buserr; split; exacts [rfl, raise_bus_hnLost _ _]
@[simp] theorem buserr_bus_peccnt (b : Nat) (s : State) : (buserr b s).bus.peccnt = s.bus.peccnt := by unfold buserr; split; exacts [rfl, raise_bus_peccnt _ _]
@[simp] theorem buserr_bus_tmocnt (b : Nat) (s : State) : (buserr b s).bus.tmocnt = s.bus.tmocnt := by unfold buserr; split; exacts [rfl, raise_bus_tmocnt _ _]
@[simp] theorem buserr_bus_nackn (b : Nat) (s : State) : (buserr b s).bus.nackn = s.bus.nackn := by unfold buserr; split; exacts [rfl, raise_bus_nackn _ _]
@[simp] theorem buserr_bus_rdata (b : Nat) (s : State) : (buserr b s).bus.rdata = s.bus.rdata := by unfold buserr; split; exacts [rfl, raise_bus_rdata _ _]
@[simp] theorem buserr_bus_nack (b : Nat) (s : State) : (buserr b s).bus.nack = s.bus.nack := by unfold buserr; split; exacts [rfl, raise_bus_nack _ _]
@[simp] theorem buserr_ds (b : Nat) (s : State) : (buserr b s).ds = s.ds := by unfold buserr; split; exacts [rfl, raise_ds _ _]
@[simp] theorem buserr_irq_mask (b : Nat) (s : State) : (buserr b s).irq.mask = s.irq.mask := by unfold buserr; split; exacts [rfl, raise_irq_mask _ _]
@[simp] theorem buserr_irq_route (b : Nat) (s : State) : (buserr b s).irq.route = s.irq.route := by unfold buserr; split; exacts [rfl, raise_irq_route _ _]
@[simp] theorem buserr_irq_ovr (b : Nat) (s : State) : (buserr b s).irq.ovr = s.irq.ovr := by unfold buserr; split; exacts [rfl, raise_irq_ovr _ _]
@[simp] theorem buserr_fl_sec (b : Nat) (s : State) : (buserr b s).fl.sec = s.fl.sec := by unfold buserr; split; exacts [rfl, raise_fl_sec _ _]
@[simp] theorem buserr_fl_ro (b : Nat) (s : State) : (buserr b s).fl.ro = s.fl.ro := by unfold buserr; split; exacts [rfl, raise_fl_ro _ _]
@[simp] theorem buserr_fl_cfgSt (b : Nat) (s : State) : (buserr b s).fl.cfgSt = s.fl.cfgSt := by unfold buserr; split; exacts [rfl, raise_fl_cfgSt _ _]
@[simp] theorem buserr_fl_cfgA (b : Nat) (s : State) : (buserr b s).fl.cfgA = s.fl.cfgA := by unfold buserr; split; exacts [rfl, raise_fl_cfgA _ _]
@[simp] theorem buserr_fl_cfgB (b : Nat) (s : State) : (buserr b s).fl.cfgB = s.fl.cfgB := by unfold buserr; split; exacts [rfl, raise_fl_cfgB _ _]
@[simp] theorem buserr_fl_capture (b : Nat) (s : State) : (buserr b s).fl.capture = s.fl.capture := by unfold buserr; split; exacts [rfl, raise_fl_capture _ _]
@[simp] theorem buserr_fl_wantPat (b : Nat) (s : State) : (buserr b s).fl.wantPat = s.fl.wantPat := by unfold buserr; split; exacts [rfl, raise_fl_wantPat _ _]
@[simp] theorem buserr_fl_wantGau (b : Nat) (s : State) : (buserr b s).fl.wantGau = s.fl.wantGau := by unfold buserr; split; exacts [rfl, raise_fl_wantGau _ _]
@[simp] theorem buserr_fl_scrubDue (b : Nat) (s : State) : (buserr b s).fl.scrubDue = s.fl.scrubDue := by unfold buserr; split; exacts [rfl, raise_fl_scrubDue _ _]
@[simp] theorem buserr_fl_scrubSince (b : Nat) (s : State) : (buserr b s).fl.scrubSince = s.fl.scrubSince := by unfold buserr; split; exacts [rfl, raise_fl_scrubSince _ _]
@[simp] theorem buserr_fl_refresh (b : Nat) (s : State) : (buserr b s).fl.refresh = s.fl.refresh := by unfold buserr; split; exacts [rfl, raise_fl_refresh _ _]
@[simp] theorem buserr_fl_scrubIdx (b : Nat) (s : State) : (buserr b s).fl.scrubIdx = s.fl.scrubIdx := by unfold buserr; split; exacts [rfl, raise_fl_scrubIdx _ _]
@[simp] theorem buserr_fl_late (b : Nat) (s : State) : (buserr b s).fl.late = s.fl.late := by unfold buserr; split; exacts [rfl, raise_fl_late _ _]
@[simp] theorem buserr_fl_refrcnt (b : Nat) (s : State) : (buserr b s).fl.refrcnt = s.fl.refrcnt := by unfold buserr; split; exacts [rfl, raise_fl_refrcnt _ _]
@[simp] theorem buserr_fl_halfcnt (b : Nat) (s : State) : (buserr b s).fl.halfcnt = s.fl.halfcnt := by unfold buserr; split; exacts [rfl, raise_fl_halfcnt _ _]
@[simp] theorem buserr_fl_log (b : Nat) (s : State) : (buserr b s).fl.log = s.fl.log := by unfold buserr; split; exacts [rfl, raise_fl_log _ _]
@[simp] theorem buserr_fl_opens (b : Nat) (s : State) : (buserr b s).fl.opens = s.fl.opens := by unfold buserr; split; exacts [rfl, raise_fl_opens _ _]
@[simp] theorem buserr_fl_closes (b : Nat) (s : State) : (buserr b s).fl.closes = s.fl.closes := by unfold buserr; split; exacts [rfl, raise_fl_closes _ _]
@[simp] theorem buserr_fl_turn (b : Nat) (s : State) : (buserr b s).fl.turn = s.fl.turn := by unfold buserr; split; exacts [rfl, raise_fl_turn _ _]
@[simp] theorem buserr_fl_bad (b : Nat) (s : State) : (buserr b s).fl.bad = s.fl.bad := by unfold buserr; split; exacts [rfl, raise_fl_bad _ _]
@[simp] theorem buserr_fl_erasing (b : Nat) (s : State) : (buserr b s).fl.erasing = s.fl.erasing := by unfold buserr; split; exacts [rfl, raise_fl_erasing _ _]
@[simp] theorem buserr_fl_flush (b : Nat) (s : State) : (buserr b s).fl.flush = s.fl.flush := by unfold buserr; split; exacts [rfl, raise_fl_flush _ _]
@[simp] theorem buserr_otp (b : Nat) (s : State) : (buserr b s).otp = s.otp := by unfold buserr; split; exacts [rfl, raise_otp _ _]
@[simp] theorem buserr_upd (b : Nat) (s : State) : (buserr b s).upd = s.upd := by unfold buserr; split; exacts [rfl, raise_upd _ _]

@[simp] theorem arm_clk_now (dt : Nat) (e : Instr) (s : State) : (arm dt e s).clk.now = s.clk.now := rfl
@[simp] theorem arm_clk_quantum (dt : Nat) (e : Instr) (s : State) : (arm dt e s).clk.quantum = s.clk.quantum := rfl
@[simp] theorem arm_clk_op (dt : Nat) (e : Instr) (s : State) : (arm dt e s).clk.op = s.clk.op := rfl
@[simp] theorem arm_clk_cycles (dt : Nat) (e : Instr) (s : State) : (arm dt e s).clk.cycles = s.clk.cycles := rfl

@[simp] theorem disarm_clk_now (e : Instr) (s : State) : (disarm e s).clk.now = s.clk.now := rfl
@[simp] theorem disarm_clk_quantum (e : Instr) (s : State) : (disarm e s).clk.quantum = s.clk.quantum := rfl
@[simp] theorem disarm_clk_op (e : Instr) (s : State) : (disarm e s).clk.op = s.clk.op := rfl
@[simp] theorem disarm_clk_cycles (e : Instr) (s : State) : (disarm e s).clk.cycles = s.clk.cycles := rfl

@[simp] theorem disarmAll_clk_now (p : Instr → Bool) (s : State) : (disarmAll p s).clk.now = s.clk.now := rfl
@[simp] theorem disarmAll_clk_quantum (p : Instr → Bool) (s : State) : (disarmAll p s).clk.quantum = s.clk.quantum := rfl
@[simp] theorem disarmAll_clk_op (p : Instr → Bool) (s : State) : (disarmAll p s).clk.op = s.clk.op := rfl
@[simp] theorem disarmAll_clk_cycles (p : Instr → Bool) (s : State) : (disarmAll p s).clk.cycles = s.clk.cycles := rfl

end Sys2Proof.Machine
end

