-- ==== Sys2Proof/Laws/Bus.lean ====
section
/-! SUPPORT. What the shared operations of the host bus and the command slot do (R335, R353, R354, R357). -/

namespace Sys2Proof.Machine

open Sys2Proof

/-! Pending bits after a raise. -/

/-- After a raise a source is pending if it was, or is the one raised; the log's own two sources apart (R371). -/
theorem isPend_raise {s : State} (h : anvilOn s = true) (src k : Nat) (hk : isLogLoss k = false) :
    isPend (raise src s) k = (isPend s k || decide (k = src)) := by
  have r := raise_raised src s h
  by_cases e : k = src
  · subst e
    simp [r.marked k (List.mem_singleton.mpr rfl)]
  · by_cases p : isPend s k = true
    · simp [r.kept k p, p]
    · have q : isPend (raise src s) k ≠ true := by
        intro hp
        rcases r.others k hp with h1 | h1 | h1
        · exact p h1
        · exact e (List.mem_singleton.mp h1)
        · simp [hk] at h1
      simp [e, p, q]

@[simp] theorem anvilOn_raise (src : Nat) (s : State) : anvilOn (raise src s) = anvilOn s :=
  anvilOn_of_unmarked (raise_unmarked src s)

/-- The source that is raised is pending. -/
theorem isPend_raiseG_self {s : State} (h : anvilOn s = true) (g b : Nat) : isPend (raiseG g b s) (16 * g + b) = true :=
  (raiseG_raised g b s h).marked _ (List.mem_singleton.mpr rfl)

/-- A raise takes no pending bit away. -/
theorem isPend_raiseG_kept {s : State} (h : anvilOn s = true) (g b : Nat) {k : Nat} (p : isPend s k = true) :
    isPend (raiseG g b s) k = true :=
  (raiseG_raised g b s h).kept k p

theorem busUp_anvil {s : State} (h : busUp s = true) : anvilOn s = true := by
  simp only [busUp, Bool.and_eq_true] at h
  exact h.1

theorem packetsTaken_busUp {s : State} (h : packetsTaken s = true) : busUp s = true := by
  simp only [packetsTaken, Bool.and_eq_true] at h
  exact h.1.1

theorem responder_of_busUp {s : State} (h : busUp s = true) : responder s = false := by
  have a := busUp_anvil h
  simp only [anvilOn, Bool.and_eq_true] at a
  simp_all [responder]

/-- A write to a register of a page, while the full register set is answered. -/
theorem onPage_served {s : State} (h : Served s) (p : Nat) (f : State → State) :
    onPage p f s = f (cancelKey (ackAccess s)) := by
  simp [onPage, h.1, h.2]

/-- The same, on page 0x00, where Floor mode answers too. -/
theorem onPage_zero {s : State} (h : busUp s = true) (f : State → State) : onPage 0 f s = f (cancelKey (ackAccess s)) := by
  simp [onPage, h]

theorem busUp_ack (s : State) : busUp (ackAccess s) = busUp s := rfl

/-- A packet whose count is good, into a free slot, meets its own checks. -/
theorem packet_gate {op : Byte} {priv : Bool} {p : Packet} {s : State} (a : packetsTaken s = true) (b : p.n ≠ 0) (c : p.n ≤ 64)
    (d : slotFree s = true) (body : State → State) :
    packet op priv p body s =
      if p.n ≠ p.len.toNat + 3 then reject 0xF1 (takeSlot op p.tag (ackAccess s))
      else if priv && decide ((takeSlot op p.tag (ackAccess s)).bus.level = 0) then reject 0xF2 (takeSlot op p.tag (ackAccess s))
      else body (if priv then touchSession (takeSlot op p.tag (ackAccess s)) else takeSlot op p.tag (ackAccess s)) := by
  unfold packet packetGate
  dsimp only
  rw [if_neg (by simp [a])]
  split
  · rfl
  · rw [if_neg (by omega), if_neg (by simp [d])]

theorem packet_of_takes {op : Byte} {priv : Bool} {p : Packet} {s : State} (h : Takes priv p s) (body : State → State) :
    packet op priv p body s = body (if priv then touchSession (takeSlot op p.tag (ackAccess s)) else takeSlot op p.tag (ackAccess s)) := by
  obtain ⟨a, b, c, d, e, f⟩ := h
  rw [packet_gate a b c d, if_neg (by omega), if_neg]
  rintro hl
  simp only [Bool.and_eq_true, decide_eq_true_eq] at hl
  exact f hl.1 hl.2

/-- A packet that needs no session and that the slot takes. -/
theorem packet_open {op : Byte} {p : Packet} {s : State} (h : Takes false p s) (body : State → State) :
    packet op false p body s = body (takeSlot op p.tag (ackAccess s)) := packet_of_takes h body

/-- A privileged packet that the slot takes. -/
theorem packet_priv {op : Byte} {p : Packet} {s : State} (h : Takes true p s) (body : State → State) :
    packet op true p body s = body (touchSession (takeSlot op p.tag (ackAccess s))) := packet_of_takes h body

/-- A packet whose LEN disagrees with its byte count. -/
theorem packet_len {op : Byte} {priv : Bool} {p : Packet} {s : State} (a : packetsTaken s = true) (b : p.n ≠ 0) (c : p.n ≤ 64)
    (d : slotFree s = true) (e : p.n ≠ p.len.toNat + 3) (body : State → State) :
    packet op priv p body s = reject 0xF1 (takeSlot op p.tag (ackAccess s)) := by
  rw [packet_gate a b c d, if_pos e]

/-- A privileged packet at session level 0. -/
theorem packet_locked {op : Byte} {p : Packet} {s : State} (h : Takes false p s) (hl : s.bus.level = 0) (body : State → State) :
    packet op true p body s = reject 0xF2 (takeSlot op p.tag (ackAccess s)) := by
  obtain ⟨a, b, c, d, e, f⟩ := h
  have hl' : (takeSlot op p.tag (ackAccess s)).bus.level = 0 := hl
  rw [packet_gate a b c d, if_neg (by omega), if_pos (by simp [hl'])]

/-- A BUSERR bit that is new is set and raises BUSERR (R340). -/
theorem buserr_raised {b : Nat} {s : State} (h : s.glob.buserr.getLsbD b = false) (a : anvilOn s = true) :
    Raised [16 * 56 + 12] { s with glob := { s.glob with buserr := setBit s.glob.buserr b true } } (buserr b s) := by
  have e : buserr b s = raiseG 56 12 { s with glob := { s.glob with buserr := setBit s.glob.buserr b true } } := by
    simp [buserr, h]
  rw [e]
  exact raiseG_raised 56 12 _ a

end Sys2Proof.Machine
end

