-- ==== Sys2Proof/Laws/Keeps.lean ====
section
/-! SUPPORT. What every step keeps (Safety.lean), as one relation between two states that is read off their fields, and the rules
that the lemmas of `Laws.KeepsA`, `KeepsB` and `KeepsC` use. -/

namespace Sys2Proof.Machine

open Sys2Proof

/-- Of the state `z0` the fuses are kept, and each of the invariants that held in it holds in these fields. -/
structure Kept (z0 : State) (otp : Otp) (log queue : List LogRec) (opens : List OpenRec) (level : Nat) (nonce : Option (List Byte × Nat)) (pg en up qu : Mask)
    (s2 : Bool) (role : Nat) (a b : PathSt) (cur : Option Commit) (seq : Byte) (res : Nat) (mp : Maps) : Prop where
  fuses : FusesKept z0.otp otp
  log : LogSound z0 → LogFits log.length queue.length opens.length
  session : SessionSound z0 → SessionFits level nonce
  rails : RailsSound z0 → RailsFit pg en up qu
  pilot : PilotSound z0 → PilotFits s2 role
  paths : PathsSound z0 → PathFits a ∧ PathFits b
  commit : CommitSound z0 → CommitFits cur seq res
  maps : MapsSound z0 → MapsFit mp

/-- `s` keeps what held in `z0`. -/
abbrev Keeps (z0 s : State) : Prop :=
  Kept z0 s.otp s.fl.log s.fl.queue s.fl.opens s.bus.level s.bus.nonce s.rl.pg s.rl.en s.rl.up s.rl.qu s.plt.s2 s.plt.role s.inp.a s.inp.b
    s.txn.cur s.txn.seq s.txn.res (mapsOf s)

theorem fusesKept_refl (o : Otp) : FusesKept o o :=
  ⟨fun _ _ h => h, fun _ _ h => h, fun _ _ h => h, fun _ h => h, fun _ h => h⟩
theorem keeps_refl (s : State) : Keeps s s := ⟨fusesKept_refl _, id, id, id, id, id, id, id⟩

/-- As `Keeps`, of an outcome, of an optional state, and of each state of a list of optional ones. -/
structure OutB (z0 : State) (x : Host.Outcome State Fault Refusal) : Prop where
  kept : ∀ t, x = .next t → Keeps z0 t
structure OptB (z0 : State) (x : Option State) : Prop where
  kept : ∀ t, x = some t → Keeps z0 t

variable {z0 : State}

theorem out_b {s : State} (h : Keeps z0 s) : OutB z0 (.next s) := ⟨fun _ e => by cases e; exact h⟩
theorem some_b {s : State} (h : Keeps z0 s) : OptB z0 (some s) := ⟨fun _ e => by cases e; exact h⟩
theorem none_b : OptB z0 none := ⟨fun _ e => by cases e⟩
theorem optMap_b {α : Type} {x : Option α} {f : α → State} (h : ∀ a, Keeps z0 (f a)) : OptB z0 (x.map f) := by
  cases x
  · exact none_b
  · exact some_b (h _)
theorem pair_b {α : Type} {p : α × State} {a : α} {t : State} (e : p = (a, t)) (h : Keeps z0 p.2) : Keeps z0 t := by
  subst e; exact h
theorem opt_b {x : Option State} {t : State} (e : x = some t) (h : OptB z0 x) : Keeps z0 t := h.kept t e
theorem foldl_b {α : Type} {g : State → α → State} {l : List α} {s : State}
    (hg : ∀ s x, Keeps z0 s → Keeps z0 (g s x)) (h : Keeps z0 s) : Keeps z0 (l.foldl g s) := by
  induction l generalizing s with
  | nil => exact h
  | cons x l ih => exact ih (hg s x h)
theorem ite_b {c : Prop} [Decidable c] {a b : State} (ha : Keeps z0 a) (hb : Keeps z0 b) : Keeps z0 (if c then a else b) := by
  by_cases h : c
  · rw [if_pos h]; exact ha
  · rw [if_neg h]; exact hb

theorem ite_h {c : Prop} [Decidable c] {a b : State} (ha : c → Keeps z0 a) (hb : ¬c → Keeps z0 b) :
    Keeps z0 (if c then a else b) := by
  by_cases h : c
  · rw [if_pos h]; exact ha h
  · rw [if_neg h]; exact hb h

/-- A part of the state that the relation reads. -/
inductive IsPart : Type → Prop where
  | otp : IsPart Otp
  | fl : IsPart Fl
  | bus : IsPart Bus
  | rl : IsPart Rails
  | plt : IsPart Plt
  | inp : IsPart Inp
  | txn : IsPart Txn
  | path : IsPart PathSt
  | mask : IsPart Mask
  | commit : IsPart Commit
  | regs : IsPart Regs
  | cyc : IsPart Cyc
  | bk : IsPart Blocks
  | seq : IsPart Seq
  | pat : IsPart Pat
  | hk : IsPart Hk
  | thm : IsPart Thm
  | pwr : IsPart Pwr
  | ds : IsPart Ds
  | irq : IsPart Irq
  | bank : IsPart PatBank
  | image : IsPart CfgImg
  | map {α : Type} : IsPart (Map α)
theorem isPart {α : Type} (_ : α) {p : Prop} (_ : IsPart α) (h : p) : p := h

/-! Rules of the fields. -/

variable {otp : Otp} {log queue : List LogRec} {opens : List OpenRec} {level : Nat} {nonce : Option (List Byte × Nat)} {pg en up qu : Mask} {s2 : Bool} {role : Nat}
  {a b : PathSt} {cur : Option Commit} {seq : Byte} {res : Nat} {mp : Maps}

theorem kept_log {log' queue' : List LogRec} {opens' : List OpenRec}
    (h : Kept z0 otp log queue opens level nonce pg en up qu s2 role a b cur seq res mp)
    (hl : LogFits log.length queue.length opens.length → LogFits log'.length queue'.length opens'.length) :
    Kept z0 otp log' queue' opens' level nonce pg en up qu s2 role a b cur seq res mp := { h with log := fun w => hl (h.log w) }
theorem kept_otp {otp' : Otp} (h : Kept z0 otp log queue opens level nonce pg en up qu s2 role a b cur seq res mp)
    (ho : FusesKept z0.otp otp → FusesKept z0.otp otp') :
    Kept z0 otp' log queue opens level nonce pg en up qu s2 role a b cur seq res mp := { h with fuses := ho h.fuses }
theorem kept_session {level' : Nat} {nonce' : Option (List Byte × Nat)}
    (h : Kept z0 otp log queue opens level nonce pg en up qu s2 role a b cur seq res mp)
    (hl : SessionFits level nonce → SessionFits level' nonce') :
    Kept z0 otp log queue opens level' nonce' pg en up qu s2 role a b cur seq res mp := { h with session := fun w => hl (h.session w) }
theorem sessionFits_ended (h : SessionFits level nonce) : SessionFits 0 nonce := ⟨Nat.zero_le 2, h.2⟩
theorem sessionFits_spent (h : SessionFits level nonce) : SessionFits level none := ⟨h.1, fun _ e => (nomatch e)⟩
theorem sessionFits_none : SessionFits 0 none := ⟨Nat.zero_le 2, fun _ e => (nomatch e)⟩
theorem kept_rails {pg' en' up' qu' : Mask} (h : Kept z0 otp log queue opens level nonce pg en up qu s2 role a b cur seq res mp)
    (hr : RailsFit pg en up qu → RailsFit pg' en' up' qu') :
    Kept z0 otp log queue opens level nonce pg' en' up' qu' s2 role a b cur seq res mp := { h with rails := fun w => hr (h.rails w) }
theorem kept_pilot {s2' : Bool} {role' : Nat} (h : Kept z0 otp log queue opens level nonce pg en up qu s2 role a b cur seq res mp)
    (hp : PilotFits s2 role → PilotFits s2' role') :
    Kept z0 otp log queue opens level nonce pg en up qu s2' role' a b cur seq res mp := { h with pilot := fun w => hp (h.pilot w) }
theorem kept_paths {a' b' : PathSt} (h : Kept z0 otp log queue opens level nonce pg en up qu s2 role a b cur seq res mp)
    (hp : PathFits a ∧ PathFits b → PathFits a' ∧ PathFits b') :
    Kept z0 otp log queue opens level nonce pg en up qu s2 role a' b' cur seq res mp := { h with paths := fun w => hp (h.paths w) }
theorem kept_commit {cur' : Option Commit} {seq' : Byte} {res' : Nat}
    (h : Kept z0 otp log queue opens level nonce pg en up qu s2 role a b cur seq res mp)
    (hc : CommitFits cur seq res → CommitFits cur' seq' res') :
    Kept z0 otp log queue opens level nonce pg en up qu s2 role a b cur' seq' res' mp := { h with commit := fun w => hc (h.commit w) }
/-- No commit is in flight. -/
theorem kept_noCommit {seq' : Byte} {res' : Nat} (h : Kept z0 otp log queue opens level nonce pg en up qu s2 role a b cur seq res mp) :
    Kept z0 otp log queue opens level nonce pg en up qu s2 role a b none seq' res' mp := kept_commit h (fun _ _ e => by cases e)

/-- The commit in flight goes on with its number, its parameters and its state. -/
theorem kept_sameCommit {c d : Commit} (h : Kept z0 otp log queue opens level nonce pg en up qu s2 role a b cur seq res mp)
    (e : cur = some c) (hs : d.seq = c.seq ∧ d.pending = c.pending ∧ d.scope = c.scope ∧ d.mode = c.mode) :
    Kept z0 otp log queue opens level nonce pg en up qu s2 role a b (some d) seq res mp := by
  refine kept_commit h fun w x hx => ?_
  obtain rfl := Option.some.inj hx
  obtain ⟨h1, h2, h3, h4⟩ := hs
  rw [h1, h2, h3, h4]
  exact w c e

theorem path_b {s : State} (x : Path) (h : Keeps z0 s) (w : PathsSound z0) : PathFits (pathOf s x) := by
  cases x
  · exact (h.paths w).1
  · exact (h.paths w).2
theorem setPath_b (x : Path) (p : PathSt) (s : State) (h : Keeps z0 s) (hp : PathsSound z0 → PathFits p) :
    Keeps z0 (setPath x p s) := by
  cases x
  · exact { h with paths := fun w => ⟨hp w, (h.paths w).2⟩ }
  · exact { h with paths := fun w => ⟨(h.paths w).1, hp w⟩ }

/-- Maps are changed, canonical where they were. -/
theorem kept_maps {mp' : Maps} (h : Kept z0 otp log queue opens level nonce pg en up qu s2 role a b cur seq res mp)
    (hm : MapsFit mp → MapsFit mp') :
    Kept z0 otp log queue opens level nonce pg en up qu s2 role a b cur seq res mp' := { h with maps := fun w => hm (h.maps w) }

/-- As `kept_maps`, from what held in the first state. -/
theorem kept_maps' {mp' : Maps} (h : Kept z0 otp log queue opens level nonce pg en up qu s2 role a b cur seq res mp)
    (hm : MapsSound z0 → MapsFit mp → MapsFit mp') :
    Kept z0 otp log queue opens level nonce pg en up qu s2 role a b cur seq res mp' := { h with maps := fun w => hm w (h.maps w) }

/-! What keeps maps canonical where an operation writes them. -/

theorem mwf_ite {α : Type} [DecidableEq α] {d : α} {c : Prop} [Decidable c] {a b : Map α} (ha : mwf d a = true) (hb : mwf d b = true) :
    mwf d (if c then a else b) = true := by
  by_cases h : c
  · rw [if_pos h]; exact ha
  · rw [if_neg h]; exact hb
theorem mwf_cancel (k : Mask) (m : Map Mask) (h : mwf 0 m = true) :
    mwf 0 (m.filterMap (fun (q, x) => if x &&& ~~~k = 0 then none else some (q, x &&& ~~~k))) = true := by
  refine mwf_filterMap 0 0 _ (fun x y e => ?_) m h
  obtain ⟨q, x⟩ := x
  dsimp only at e
  split at e
  · cases e
  · cases e; exact ⟨rfl, by assumption⟩
theorem arrayWithSpares_wf (o : Otp) (h : mwf 0 o.arr = true) : mwf 0 (arrayWithSpares o) = true := by
  have sub : ∀ (m : Map Byte) (tag : Option Nat) (sp : Nat), mwf 0 m = true →
      mwf 0 (match tag with
        | some r => (List.range 64).foldl (fun m b => mput 0 m (64 * r + b) (fuse o.arr sp b)) m
        | none => m) = true := by
    intro m tag sp hm
    cases tag with
    | none => exact hm
    | some r => exact mwf_foldl 0 _ (fun _ _ => mwf_mput _ _ _ _) _ _ hm
  exact sub _ _ _ (sub _ _ _ h)

theorem inForce_some {α : Type} (f : α → Nat) {a b : Option α} {x : α} (h : inForce f a b = some x) : a = some x ∨ b = some x := by
  unfold inForce at h
  repeat' split at h
  all_goals simp_all

/-! Rails. -/

theorem has_and (m k : Mask) (r : Nat) : has (m &&& k) r = (has m r && has k r) := BitVec.getLsbD_and
theorem has_or (m k : Mask) (r : Nat) : has (m ||| k) r = (has m r || has k r) := BitVec.getLsbD_or
theorem has_bit_ne {i r : Nat} (h : i ≠ r) : has (bit r) i = false := by
  simp [has, bit, Ne.symm h]
theorem has_not_bit_ne {i r : Nat} (m : Mask) (h : i ≠ r) : has (m &&& ~~~(bit r)) i = has m i := by
  simp only [has, bit, BitVec.getLsbD_and, BitVec.getLsbD_not, BitVec.getLsbD_twoPow, Ne.symm h, decide_false, Bool.and_false, Bool.not_false,
    Bool.and_true]
  by_cases g : i < 32
  · simp [g]
  · simp [g, BitVec.getLsbD_of_ge m i (by omega)]
theorem has_not_bit (m : Mask) (r : Nat) : has (m &&& ~~~(bit r)) r = false := by
  simp only [has, bit, BitVec.getLsbD_and, BitVec.getLsbD_not, BitVec.getLsbD_twoPow]
  by_cases g : r < 32 <;> simp [g]

/-- Fewer rails are power-good and in quench. -/
theorem railsFit_less (h : RailsFit pg en up qu) (k : Mask) : RailsFit (pg &&& k) en up (qu &&& k) := by
  intro i
  obtain ⟨a, b⟩ := h i
  simp only [has_and, Bool.and_eq_true, Bool.and_eq_false_iff]
  exact ⟨fun g => a g.1, fun g => ⟨(b g).1, .inl (b g).2⟩⟩
theorem railsFit_lessPg (h : RailsFit pg en up qu) (k : Mask) : RailsFit (pg &&& k) en up qu := by
  intro i
  simp only [has_and, Bool.and_eq_true]
  exact ⟨fun g => (h i).1 g.1, (h i).2⟩
theorem railsFit_lessUp (h : RailsFit pg en up qu) (k : Mask) : RailsFit pg en (up &&& (k ||| en)) qu := by
  intro i
  simp only [has_and, has_or, Bool.and_eq_true, Bool.or_eq_true]
  exact ⟨(h i).1, fun g => ⟨⟨((h i).2 g).1, .inr g⟩, ((h i).2 g).2⟩⟩
theorem railsFit_good {r : Nat} (h : RailsFit pg en up qu) (hr : has en r = true) : RailsFit (pg ||| bit r) en up qu := by
  intro i
  refine ⟨fun g => ?_, (h i).2⟩
  by_cases e : i = r
  · subst e; exact hr
  · rw [has_or, has_bit_ne e, Bool.or_false] at g; exact (h i).1 g
theorem railsFit_enable {r : Nat} (h : RailsFit pg en up qu) (hq : has qu r = false) :
    RailsFit pg (en ||| bit r) (up ||| bit r) qu := by
  intro i
  simp only [has_or, Bool.or_eq_true]
  refine ⟨fun g => .inl ((h i).1 g), fun g => ?_⟩
  rcases g with g | g
  · exact ⟨.inl ((h i).2 g).1, ((h i).2 g).2⟩
  · refine ⟨.inr g, ?_⟩
    by_cases e : i = r
    · subst e; exact hq
    · rw [has_bit_ne e] at g; cases g
/-- Rail r is off: it may be down, or in quench. -/
theorem railsFit_off {r : Nat} {up' qu' : Mask} (h : RailsFit pg en up qu) (hp : has pg r = false)
    (hu : ∀ i, i ≠ r → has up' i = has up i) (hq : ∀ i, i ≠ r → has qu' i = has qu i) : RailsFit pg (en &&& ~~~(bit r)) up' qu' := by
  intro i
  by_cases e : i = r
  · subst e
    rw [has_not_bit, hp]
    exact ⟨fun g => (nomatch g), fun g => (nomatch g)⟩
  · rw [has_not_bit_ne _ e, hu i e, hq i e]
    exact h i
theorem railsFit_down {r : Nat} (h : RailsFit pg en up qu) (he : has en r = false) :
    RailsFit pg en (up &&& ~~~(bit r)) (qu &&& ~~~(bit r)) := by
  intro i
  by_cases e : i = r
  · subst e
    exact ⟨(h i).1, fun g => by rw [he] at g; cases g⟩
  · rw [has_not_bit_ne _ e, has_not_bit_ne _ e]
    exact h i

/-! What only adds fuses. -/

theorem or_b (m : Map Byte) (k : Nat) (v : Byte) (j b : Nat) (h : (mget 0 m j).getLsbD b = true) :
    (mget 0 (mput 0 m k (mget 0 m k ||| v)) j).getLsbD b = true := by
  by_cases e : j = k
  · subst e
    generalize hw : mget 0 m j = w at h
    have n : w ||| v ≠ 0 := by
      intro z
      have := congrArg (fun x : Byte => x.getLsbD b) z
      simp [h] at this
    rw [mget_mput_of_ne n]
    simp [h]
  · rw [mget_mput_other _ _ e]; exact h
/-- A map that only ever gains bits keeps every bit. -/
theorem foldl_or_b {α : Type} (g : Map Byte → α → Map Byte)
    (hg : ∀ m x j b, (mget 0 m j).getLsbD b = true → (mget 0 (g m x) j).getLsbD b = true) (l : List α) (m : Map Byte) (j b : Nat)
    (h : (mget 0 m j).getLsbD b = true) : (mget 0 (l.foldl g m) j).getLsbD b = true := by
  induction l generalizing m with
  | nil => exact h
  | cons x l ih => exact ih _ (hg m x j b h)

end Sys2Proof.Machine
end

