-- ==== Sys2Proof/Laws/KeepsA.lean ====
section
/-! SUPPORT. What every step keeps: the shared operations, one lemma each. -/

set_option linter.unreachableTactic false
set_option linter.unusedTactic false
set_option linter.unusedVariables false

namespace Sys2Proof.Machine

open Sys2Proof

variable {z0 : State}

theorem disarm_b (e : Instr) (s : State) (hs : Keeps z0 s) : Keeps z0 (disarm e s) := by
  unfold disarm
  repeat' (first
    | with_reducible assumption | intro _ | subst x
    | (extract_lets +onlyGivenNames x; have hx : Keeps z0 x := ?_; clear_value x)
    | (extract_lets +onlyGivenNames x; refine isPart x (by constructor) ?_; subst x)
    | (extract_lets +onlyGivenNames x; clear_value x) | with_reducible apply ite_h | split | dsimp only [Keeps])

theorem arm_b (dt : Nat) (e : Instr) (s : State) (hs : Keeps z0 s) : Keeps z0 (arm dt e s) := by
  unfold arm
  repeat' (first
    | with_reducible assumption | intro _ | subst x
    | (extract_lets +onlyGivenNames x; have hx : Keeps z0 x := ?_; clear_value x)
    | (extract_lets +onlyGivenNames x; refine isPart x (by constructor) ?_; subst x)
    | (extract_lets +onlyGivenNames x; clear_value x) | with_reducible apply ite_h | split | dsimp only [Keeps])

theorem disarmAll_b (p : Instr → Bool) (s : State) (hs : Keeps z0 s) : Keeps z0 (disarmAll p s) := by
  unfold disarmAll
  repeat' (first
    | with_reducible assumption | intro _ | subst x
    | (extract_lets +onlyGivenNames x; have hx : Keeps z0 x := ?_; clear_value x)
    | (extract_lets +onlyGivenNames x; refine isPart x (by constructor) ?_; subst x)
    | (extract_lets +onlyGivenNames x; clear_value x) | with_reducible apply ite_h | split | dsimp only [Keeps])

theorem enqueue_b (c : Instr) (s : State) (hs : Keeps z0 s) : Keeps z0 (enqueue c s) := by
  unfold enqueue
  repeat' (first
    | with_reducible assumption | intro _ | subst x
    | (extract_lets +onlyGivenNames x; have hx : Keeps z0 x := ?_; clear_value x)
    | (extract_lets +onlyGivenNames x; refine isPart x (by constructor) ?_; subst x)
    | (extract_lets +onlyGivenNames x; clear_value x) | with_reducible apply ite_h | split | dsimp only [Keeps])

theorem runNext_b (c : Instr) (s : State) (hs : Keeps z0 s) : Keeps z0 (runNext c s) := by
  unfold runNext
  repeat' (first
    | with_reducible assumption | intro _ | subst x
    | (extract_lets +onlyGivenNames x; have hx : Keeps z0 x := ?_; clear_value x)
    | (extract_lets +onlyGivenNames x; refine isPart x (by constructor) ?_; subst x)
    | (extract_lets +onlyGivenNames x; clear_value x) | with_reducible apply ite_h | split | dsimp only [Keeps])

theorem drawNat_b (s : State) (hs : Keeps z0 s) : Keeps z0 (drawNat s).2 := by
  unfold drawNat
  repeat' (first
    | with_reducible assumption | intro _ | subst x
    | (extract_lets +onlyGivenNames x; have hx : Keeps z0 x := ?_; clear_value x)
    | (extract_lets +onlyGivenNames x; refine isPart x (by constructor) ?_; subst x)
    | (extract_lets +onlyGivenNames x; clear_value x) | with_reducible apply ite_h | split | dsimp only [Keeps])

theorem drawBool_b (s : State) (hs : Keeps z0 s) : Keeps z0 (drawBool s).2 := by
  unfold drawBool
  repeat' (first
    | with_reducible assumption | intro _ | subst x
    | (extract_lets +onlyGivenNames x; have hx : Keeps z0 x := ?_; clear_value x)
    | (extract_lets +onlyGivenNames x; refine isPart x (by constructor) ?_; subst x)
    | (extract_lets +onlyGivenNames x; clear_value x) | with_reducible apply ite_h | split | dsimp only [Keeps])

theorem drawInt_b (s : State) (hs : Keeps z0 s) : Keeps z0 (drawInt s).2 := by
  unfold drawInt
  repeat' (first
    | with_reducible assumption | intro _ | subst x
    | (extract_lets +onlyGivenNames x; have hx : Keeps z0 x := ?_; clear_value x)
    | (extract_lets +onlyGivenNames x; refine isPart x (by constructor) ?_; subst x)
    | (extract_lets +onlyGivenNames x; clear_value x) | with_reducible apply ite_h | split | dsimp only [Keeps])

theorem putPlain_b (k : Nat) (bs : List Byte) (s : State) (hs : Keeps z0 s) : Keeps z0 (putPlain k bs s) := by
  unfold putPlain
  repeat' (first
    | with_reducible assumption | intro _ | subst x
    | (extract_lets +onlyGivenNames x; have hx : Keeps z0 x := ?_; clear_value x)
    | (extract_lets +onlyGivenNames x; refine isPart x (by constructor) ?_; subst x)
    | (extract_lets +onlyGivenNames x; clear_value x) | with_reducible apply ite_h | split | with_reducible apply foldl_b
    | (refine kept_maps (by with_reducible assumption) ?_; exact fun w => { w with plain := regsFit_foldl _ (fun _ _ => regsFit_rput _ _ _) _ _ w.plain })
    | dsimp only [Keeps])

theorem putLive_b (k : Nat) (bs : List Byte) (s : State) (hs : Keeps z0 s) : Keeps z0 (putLive k bs s) := by
  unfold putLive
  repeat' (first
    | with_reducible assumption | intro _ | subst x
    | (extract_lets +onlyGivenNames x; have hx : Keeps z0 x := ?_; clear_value x)
    | (extract_lets +onlyGivenNames x; refine isPart x (by constructor) ?_; subst x)
    | (extract_lets +onlyGivenNames x; clear_value x) | with_reducible apply ite_h | split | with_reducible apply foldl_b
    | (refine kept_maps (by with_reducible assumption) ?_; exact fun w => { w with live := regsFit_foldl _ (fun _ _ => regsFit_rput _ _ _) _ _ w.live })
    | dsimp only [Keeps])

theorem putStg_b (k : Nat) (bs : List Byte) (s : State) (hs : Keeps z0 s) : Keeps z0 (putStg k bs s) := by
  unfold putStg
  repeat' (first
    | with_reducible assumption | intro _ | subst x
    | (extract_lets +onlyGivenNames x; have hx : Keeps z0 x := ?_; clear_value x)
    | (extract_lets +onlyGivenNames x; refine isPart x (by constructor) ?_; subst x)
    | (extract_lets +onlyGivenNames x; clear_value x) | with_reducible apply ite_h | split | with_reducible apply foldl_b
    | (refine kept_maps (by with_reducible assumption) ?_; exact fun w => { w with stg := regsFit_foldl _ (fun _ _ => regsFit_rput _ _ _) _ _ w.stg })
    | dsimp only [Keeps])

theorem setPh_b (r : Nat) (p : PhaseSt) (s : State) (hs : Keeps z0 s) : Keeps z0 (setPh r p s) := by
  unfold setPh
  repeat' (first
    | with_reducible assumption | intro _ | subst x
    | (extract_lets +onlyGivenNames x; have hx : Keeps z0 x := ?_; clear_value x)
    | (extract_lets +onlyGivenNames x; refine isPart x (by constructor) ?_; subst x)
    | (extract_lets +onlyGivenNames x; clear_value x) | with_reducible apply ite_h | split
    | (refine kept_maps (by with_reducible assumption) ?_; exact fun w => { w with ph := by dsimp only [mapsOf]; exact mwf_mput _ _ _ _ w.ph })
    | dsimp only [Keeps])

theorem setLdo_b (c : Nat) (l : LdoSt) (s : State) (hs : Keeps z0 s) : Keeps z0 (setLdo c l s) := by
  unfold setLdo
  repeat' (first
    | with_reducible assumption | intro _ | subst x
    | (extract_lets +onlyGivenNames x; have hx : Keeps z0 x := ?_; clear_value x)
    | (extract_lets +onlyGivenNames x; refine isPart x (by constructor) ?_; subst x)
    | (extract_lets +onlyGivenNames x; clear_value x) | with_reducible apply ite_h | split
    | (refine kept_maps (by with_reducible assumption) ?_; exact fun w => { w with ldo := by dsimp only [mapsOf]; exact mwf_mput _ _ _ _ w.ldo })
    | dsimp only [Keeps])

theorem preOver_b (r : Nat) (s : State) (hs : Keeps z0 s) : Keeps z0 (preOver r s) := by
  unfold preOver
  repeat' (first
    | with_reducible assumption | intro _ | subst x
    | (extract_lets +onlyGivenNames x; have hx : Keeps z0 x := ?_; clear_value x)
    | (extract_lets +onlyGivenNames x; refine isPart x (by constructor) ?_; subst x)
    | (extract_lets +onlyGivenNames x; clear_value x) | with_reducible apply ite_h | split
    | (refine kept_maps (by with_reducible assumption) ?_; exact fun w => { w with ramps := by dsimp only [mapsOf]; exact mwf_mput _ _ _ _ w.ramps })
    | dsimp only [Keeps])

theorem setSector_b (n : Nat) (x : Sector) (s : State) (hs : Keeps z0 s) : Keeps z0 (setSector n x s) := by
  unfold setSector
  repeat' (first
    | with_reducible assumption | intro _ | subst x
    | (extract_lets +onlyGivenNames x; have hx : Keeps z0 x := ?_; clear_value x)
    | (extract_lets +onlyGivenNames x; refine isPart x (by constructor) ?_; subst x)
    | (extract_lets +onlyGivenNames x; clear_value x) | with_reducible apply ite_h | split
    | (refine kept_maps (by with_reducible assumption) ?_; exact fun w => { w with sec := by dsimp only [mapsOf]; exact mwf_mput _ _ _ _ w.sec })
    | dsimp only [Keeps])

theorem dropBank_b (n : Nat) (s : State) (hs : Keeps z0 s) : Keeps z0 (dropBank n s) := by
  unfold dropBank
  repeat' (first
    | with_reducible assumption | intro _ | subst x
    | (extract_lets +onlyGivenNames x; have hx : Keeps z0 x := ?_; clear_value x)
    | (extract_lets +onlyGivenNames x; refine isPart x (by constructor) ?_; subst x)
    | (extract_lets +onlyGivenNames x; clear_value x) | with_reducible apply ite_h | split
    | (refine kept_maps (by with_reducible assumption) ?_; exact fun w => { w with cfgA := fun _ h => (nomatch h) })
    | (refine kept_maps (by with_reducible assumption) ?_; exact fun w => { w with cfgB := fun _ h => (nomatch h) })
    | (refine kept_maps (by with_reducible assumption) ?_; exact fun w => { w with patA := fun _ h => (nomatch h) })
    | (refine kept_maps (by with_reducible assumption) ?_; exact fun w => { w with patB := fun _ h => (nomatch h) })
    | dsimp only [Keeps])

theorem settleBanks_b (s : State) (hs : Keeps z0 s) : Keeps z0 (settleBanks s) := by
  unfold settleBanks
  repeat' (first
    | with_reducible assumption | intro _ | subst x
    | (extract_lets +onlyGivenNames x; have hx : Keeps z0 x := ?_; clear_value x)
    | (extract_lets +onlyGivenNames x; refine isPart x (by constructor) ?_; subst x)
    | (extract_lets +onlyGivenNames x; clear_value x) | with_reducible apply ite_h | split | with_reducible apply dropBank_b
    | with_reducible apply foldl_b | dsimp only [Keeps])

theorem marginSettle_b (s : State) (hs : Keeps z0 s) : Keeps z0 (marginSettle s) := by
  unfold marginSettle
  repeat' (first
    | with_reducible assumption | intro _ | subst x
    | (extract_lets +onlyGivenNames x; have hx : Keeps z0 x := ?_; clear_value x)
    | (extract_lets +onlyGivenNames x; refine isPart x (by constructor) ?_; subst x)
    | (extract_lets +onlyGivenNames x; clear_value x) | with_reducible apply ite_h | split | dsimp only [Keeps])

theorem grant_b (s : State) (hs : Keeps z0 s) : Keeps z0 (grant s) := by
  unfold grant
  repeat' (first
    | with_reducible assumption | intro _ | subst x
    | (extract_lets +onlyGivenNames x; have hx : Keeps z0 x := ?_; clear_value x)
    | (extract_lets +onlyGivenNames x; refine isPart x (by constructor) ?_; subst x)
    | (extract_lets +onlyGivenNames x; clear_value x) | with_reducible apply ite_h | split | dsimp only [Keeps])

theorem assign_b (src : Nat) (s : State) (hs : Keeps z0 s) : Keeps z0 (assign src s) := by
  unfold assign
  repeat' (first
    | with_reducible assumption | intro _ | subst x
    | (extract_lets +onlyGivenNames x; have hx : Keeps z0 x := ?_; clear_value x)
    | (extract_lets +onlyGivenNames x; refine isPart x (by constructor) ?_; subst x)
    | (extract_lets +onlyGivenNames x; clear_value x) | with_reducible apply ite_h | split
    | (refine kept_maps (by with_reducible assumption) ?_; exact fun w => { w with asg := by dsimp only [mapsOf]; exact mwf_mput _ _ _ _ w.asg })
    | dsimp only [Keeps])

theorem unassign_b (src : Nat) (s : State) (hs : Keeps z0 s) : Keeps z0 (unassign src s) := by
  unfold unassign
  repeat' (first
    | with_reducible assumption | intro _ | subst x
    | (extract_lets +onlyGivenNames x; have hx : Keeps z0 x := ?_; clear_value x)
    | (extract_lets +onlyGivenNames x; refine isPart x (by constructor) ?_; subst x)
    | (extract_lets +onlyGivenNames x; clear_value x) | with_reducible apply ite_h | split
    | (refine kept_maps (by with_reducible assumption) ?_; exact fun w => { w with asg := by dsimp only [mapsOf]; exact mwf_mput _ _ _ _ w.asg })
    | dsimp only [Keeps])

theorem onDelivered_b (t : Nat) (s : State) (hs : Keeps z0 s) : Keeps z0 (onDelivered t s) := by
  unfold onDelivered
  repeat' (first
    | with_reducible assumption | intro _ | subst x
    | (extract_lets +onlyGivenNames x; have hx : Keeps z0 x := ?_; clear_value x)
    | (extract_lets +onlyGivenNames x; refine isPart x (by constructor) ?_; subst x)
    | (extract_lets +onlyGivenNames x; clear_value x) | with_reducible apply ite_h | split | with_reducible apply arm_b
    | dsimp only [Keeps])

theorem settleAlert_b (s : State) (hs : Keeps z0 s) : Keeps z0 (settleAlert s) := by
  unfold settleAlert
  repeat' (first
    | with_reducible assumption | intro _ | subst x
    | (extract_lets +onlyGivenNames x; have hx : Keeps z0 x := ?_; clear_value x)
    | (extract_lets +onlyGivenNames x; refine isPart x (by constructor) ?_; subst x)
    | (extract_lets +onlyGivenNames x; clear_value x) | with_reducible apply ite_h | split | dsimp only [Keeps])

theorem notifyDue_b (s0 : State) (s : State) (hs0 : Keeps z0 s0) (hs : Keeps z0 s) : Keeps z0 (notifyDue s0 s) := by
  unfold notifyDue
  repeat' (first
    | with_reducible assumption | intro _ | subst x
    | (extract_lets +onlyGivenNames x; have hx : Keeps z0 x := ?_; clear_value x)
    | (extract_lets +onlyGivenNames x; refine isPart x (by constructor) ?_; subst x)
    | (extract_lets +onlyGivenNames x; clear_value x) | with_reducible apply ite_h | split | dsimp only [Keeps])

theorem afterIrq_b (s0 : State) (srcs : List Nat) (s : State) (hs0 : Keeps z0 s0) (hs : Keeps z0 s) : Keeps z0 (afterIrq s0 srcs
    s) := by
  unfold afterIrq
  repeat' (first
    | with_reducible assumption | intro _ | subst x
    | (extract_lets +onlyGivenNames x; have hx : Keeps z0 x := ?_; clear_value x)
    | (extract_lets +onlyGivenNames x; refine isPart x (by constructor) ?_; subst x)
    | (extract_lets +onlyGivenNames x; clear_value x) | with_reducible apply ite_h | split | with_reducible apply notifyDue_b
    | with_reducible apply settleAlert_b | with_reducible apply onDelivered_b | with_reducible apply foldl_b
    | dsimp only [Keeps])

theorem takeBack_b (t : Nat) (s : State) (hs : Keeps z0 s) : Keeps z0 (takeBack t s) := by
  unfold takeBack
  repeat' (first
    | with_reducible assumption | intro _ | subst x
    | (extract_lets +onlyGivenNames x; have hx : Keeps z0 x := ?_; clear_value x)
    | (extract_lets +onlyGivenNames x; refine isPart x (by constructor) ?_; subst x)
    | (extract_lets +onlyGivenNames x; clear_value x) | with_reducible apply ite_h | split | with_reducible apply disarm_b
    | dsimp only [Keeps])

theorem assignNow_b (srcs : List Nat) (s : State) (hs : Keeps z0 s) : Keeps z0 (assignNow srcs s) := by
  unfold assignNow
  repeat' (first
    | with_reducible assumption | intro _ | subst x
    | (extract_lets +onlyGivenNames x; have hx : Keeps z0 x := ?_; clear_value x)
    | (extract_lets +onlyGivenNames x; refine isPart x (by constructor) ?_; subst x)
    | (extract_lets +onlyGivenNames x; clear_value x) | with_reducible apply ite_h | split | with_reducible apply assign_b
    | with_reducible apply takeBack_b | with_reducible apply foldl_b | dsimp only [Keeps])

theorem setPend_b (src : Nat) (s : State) (hs : Keeps z0 s) : Keeps z0 (setPend src s) := by
  unfold setPend
  repeat' (first
    | with_reducible assumption | intro _ | subst x
    | (extract_lets +onlyGivenNames x; have hx : Keeps z0 x := ?_; clear_value x)
    | (extract_lets +onlyGivenNames x; refine isPart x (by constructor) ?_; subst x)
    | (extract_lets +onlyGivenNames x; clear_value x) | with_reducible apply ite_h | split | with_reducible apply assignNow_b
    | with_reducible apply afterIrq_b
    | (refine kept_maps (by with_reducible assumption) ?_; exact fun w => { w with pend := (by dsimp only [mapsOf]; exact mwf_mput _ _ _ _ w.pend), late := (by dsimp only [mapsOf]; exact mwf_mput _ _ _ _ w.late), tick := (by dsimp only [mapsOf]; exact mwf_mput _ _ _ _ w.tick) })
    | dsimp only [Keeps])

theorem countEvent_b (src : Nat) (s : State) (hs : Keeps z0 s) : Keeps z0 (countEvent src s) := by
  unfold countEvent
  repeat' (first
    | with_reducible assumption | intro _ | subst x
    | (extract_lets +onlyGivenNames x; have hx : Keeps z0 x := ?_; clear_value x)
    | (extract_lets +onlyGivenNames x; refine isPart x (by constructor) ?_; subst x)
    | (extract_lets +onlyGivenNames x; clear_value x) | with_reducible apply ite_h | split
    | (refine kept_maps (by with_reducible assumption) ?_; exact fun w => { w with cnt := by dsimp only [mapsOf]; exact mwf_mput _ _ _ _ w.cnt })
    | dsimp only [Keeps])

theorem setLatch_b (src : Nat) (s : State) (hs : Keeps z0 s) : Keeps z0 (setLatch src s) := by
  unfold setLatch
  repeat' (first
    | with_reducible assumption | intro _ | subst x
    | (extract_lets +onlyGivenNames x; have hx : Keeps z0 x := ?_; clear_value x)
    | (extract_lets +onlyGivenNames x; refine isPart x (by constructor) ?_; subst x)
    | (extract_lets +onlyGivenNames x; clear_value x) | with_reducible apply ite_h | split
    | (refine kept_maps (by with_reducible assumption) ?_; exact fun w => { w with wlAt := by dsimp only [mapsOf]; exact mwf_mput _ _ _ _ w.wlAt })
    | dsimp only [Keeps])

theorem pushLog_b (e : LogRec) (s : State) (hs : Keeps z0 s) : Keeps z0 (pushLog e s) := by
  unfold pushLog
  split
  · rename_i h
    refine grant_b _ (kept_log hs fun ⟨a, _, c⟩ => ⟨a, ?_, c⟩)
    simp only [List.length_append, List.length_singleton]
    omega
  · exact ite_b (setPend_b _ _ (ite_b (setPend_b _ _ hs) hs)) (ite_b (setPend_b _ _ hs) hs)

theorem touchOpen_b (src : Nat) (s : State) (hs : Keeps z0 s) : Keeps z0 (touchOpen src s) := by
  unfold touchOpen
  repeat' (first
    | with_reducible assumption | intro _ | subst x
    | (extract_lets +onlyGivenNames x; have hx : Keeps z0 x := ?_; clear_value x)
    | (extract_lets +onlyGivenNames x; refine isPart x (by constructor) ?_; subst x)
    | (extract_lets +onlyGivenNames x; clear_value x) | with_reducible apply ite_h | split | with_reducible apply arm_b
    | dsimp only [Keeps])

theorem logRaise_b (src : Nat) (s : State) (hs : Keeps z0 s) : Keeps z0 (logRaise src s) := by
  unfold logRaise
  repeat' (first
    | with_reducible assumption | intro _ | subst x
    | (extract_lets +onlyGivenNames x; have hx : Keeps z0 x := ?_; clear_value x)
    | (extract_lets +onlyGivenNames x; refine isPart x (by constructor) ?_; subst x)
    | (extract_lets +onlyGivenNames x; clear_value x) | with_reducible apply ite_h | split | with_reducible apply touchOpen_b
    | with_reducible apply pushLog_b | dsimp only [Keeps])

theorem logOther_b (kind : Nat) (src : Nat) (data : BitVec 32) (s : State) (hs : Keeps z0 s) : Keeps z0 (logOther kind src data
    s) := by
  unfold logOther
  repeat' (first
    | with_reducible assumption | intro _ | subst x
    | (extract_lets +onlyGivenNames x; have hx : Keeps z0 x := ?_; clear_value x)
    | (extract_lets +onlyGivenNames x; refine isPart x (by constructor) ?_; subst x)
    | (extract_lets +onlyGivenNames x; clear_value x) | with_reducible apply ite_h | split | with_reducible apply pushLog_b
    | dsimp only [Keeps])

theorem raise_b (src : Nat) (s : State) (hs : Keeps z0 s) : Keeps z0 (raise src s) := by
  unfold raise
  repeat' (first
    | with_reducible assumption | intro _ | subst x
    | (extract_lets +onlyGivenNames x; have hx : Keeps z0 x := ?_; clear_value x)
    | (extract_lets +onlyGivenNames x; refine isPart x (by constructor) ?_; subst x)
    | (extract_lets +onlyGivenNames x; clear_value x) | with_reducible apply ite_h | split | with_reducible apply logRaise_b
    | with_reducible apply setLatch_b | with_reducible apply countEvent_b | with_reducible apply setPend_b | dsimp only [Keeps])

theorem raiseG_b (g : Nat) (b : Nat) (s : State) (hs : Keeps z0 s) : Keeps z0 (raiseG g b s) := by
  unfold raiseG
  repeat' (first
    | with_reducible assumption | intro _ | subst x
    | (extract_lets +onlyGivenNames x; have hx : Keeps z0 x := ?_; clear_value x)
    | (extract_lets +onlyGivenNames x; refine isPart x (by constructor) ?_; subst x)
    | (extract_lets +onlyGivenNames x; clear_value x) | with_reducible apply ite_h | split | with_reducible apply raise_b
    | dsimp only [Keeps])

theorem raiseIf_b (c : Bool) (src : Nat) (s : State) (hs : Keeps z0 s) : Keeps z0 (raiseIf c src s) := by
  unfold raiseIf
  repeat' (first
    | with_reducible assumption | intro _ | subst x
    | (extract_lets +onlyGivenNames x; have hx : Keeps z0 x := ?_; clear_value x)
    | (extract_lets +onlyGivenNames x; refine isPart x (by constructor) ?_; subst x)
    | (extract_lets +onlyGivenNames x; clear_value x) | with_reducible apply ite_h | split | with_reducible apply raise_b
    | dsimp only [Keeps])

theorem buserr_b (b : Nat) (s : State) (hs : Keeps z0 s) : Keeps z0 (buserr b s) := by
  unfold buserr
  repeat' (first
    | with_reducible assumption | intro _ | subst x
    | (extract_lets +onlyGivenNames x; have hx : Keeps z0 x := ?_; clear_value x)
    | (extract_lets +onlyGivenNames x; refine isPart x (by constructor) ?_; subst x)
    | (extract_lets +onlyGivenNames x; clear_value x) | with_reducible apply ite_h | split | with_reducible apply raiseG_b
    | dsimp only [Keeps])

theorem berrRorsv_b (s : State) (hs : Keeps z0 s) : Keeps z0 (berrRorsv s) := by
  unfold berrRorsv
  repeat' (first
    | with_reducible assumption | intro _ | subst x
    | (extract_lets +onlyGivenNames x; have hx : Keeps z0 x := ?_; clear_value x)
    | (extract_lets +onlyGivenNames x; refine isPart x (by constructor) ?_; subst x)
    | (extract_lets +onlyGivenNames x; clear_value x) | with_reducible apply ite_h | split | with_reducible apply buserr_b
    | dsimp only [Keeps])

theorem berrRsvenc_b (s : State) (hs : Keeps z0 s) : Keeps z0 (berrRsvenc s) := by
  unfold berrRsvenc
  repeat' (first
    | with_reducible assumption | intro _ | subst x
    | (extract_lets +onlyGivenNames x; have hx : Keeps z0 x := ?_; clear_value x)
    | (extract_lets +onlyGivenNames x; refine isPart x (by constructor) ?_; subst x)
    | (extract_lets +onlyGivenNames x; clear_value x) | with_reducible apply ite_h | split | with_reducible apply buserr_b
    | dsimp only [Keeps])

theorem berrLkdeny_b (s : State) (hs : Keeps z0 s) : Keeps z0 (berrLkdeny s) := by
  unfold berrLkdeny
  repeat' (first
    | with_reducible assumption | intro _ | subst x
    | (extract_lets +onlyGivenNames x; have hx : Keeps z0 x := ?_; clear_value x)
    | (extract_lets +onlyGivenNames x; refine isPart x (by constructor) ?_; subst x)
    | (extract_lets +onlyGivenNames x; clear_value x) | with_reducible apply ite_h | split | with_reducible apply buserr_b
    | dsimp only [Keeps])

theorem berrUnalloc_b (s : State) (hs : Keeps z0 s) : Keeps z0 (berrUnalloc s) := by
  unfold berrUnalloc
  repeat' (first
    | with_reducible assumption | intro _ | subst x
    | (extract_lets +onlyGivenNames x; have hx : Keeps z0 x := ?_; clear_value x)
    | (extract_lets +onlyGivenNames x; refine isPart x (by constructor) ?_; subst x)
    | (extract_lets +onlyGivenNames x; clear_value x) | with_reducible apply ite_h | split | with_reducible apply buserr_b
    | dsimp only [Keeps])

theorem berrPec_b (s : State) (hs : Keeps z0 s) : Keeps z0 (berrPec s) := by
  unfold berrPec
  repeat' (first
    | with_reducible assumption | intro _ | subst x
    | (extract_lets +onlyGivenNames x; have hx : Keeps z0 x := ?_; clear_value x)
    | (extract_lets +onlyGivenNames x; refine isPart x (by constructor) ?_; subst x)
    | (extract_lets +onlyGivenNames x; clear_value x) | with_reducible apply ite_h | split | with_reducible apply buserr_b
    | dsimp only [Keeps])

theorem logLost_b (s : State) (hs : Keeps z0 s) : Keeps z0 (logLost s) := by
  unfold logLost
  repeat' (first
    | with_reducible assumption | intro _ | subst x
    | (extract_lets +onlyGivenNames x; have hx : Keeps z0 x := ?_; clear_value x)
    | (extract_lets +onlyGivenNames x; refine isPart x (by constructor) ?_; subst x)
    | (extract_lets +onlyGivenNames x; clear_value x) | with_reducible apply ite_h | split | with_reducible apply raiseG_b
    | dsimp only [Keeps])

theorem dropRaises_length (src n : Nat) (l : List LogRec) : (dropRaises src n l).length ≤ l.length := by
  induction l generalizing n with
  | nil => cases n <;> exact Nat.le_refl _
  | cons e l ih =>
    cases n with
    | zero => exact Nat.le_refl _
    | succ n =>
      unfold dropRaises
      split
      · exact Nat.le_succ_of_le (ih _)
      · exact Nat.succ_le_succ (ih _)
theorem closeOpen_b (o : OpenRec) (s : State) (hs : Keeps z0 s) : Keeps z0 (closeOpen o s) :=
  disarm_b _ _ (kept_log hs fun ⟨a, b, c⟩ =>
    ⟨a, Nat.le_trans (dropRaises_length _ _ _) b, Nat.le_trans (List.length_filter_le _ _) c⟩)

theorem modify_length (l : List LogRec) (c : List (Nat × Nat)) :
    (c.foldl (fun l (i, n) => l.modify i (fun r => { r with rep := n })) l).length = l.length := by
  induction c generalizing l with
  | nil => rfl
  | cons x c ih => exact (ih _).trans (List.length_modify _ _ _)

theorem programCloses_b (s : State) (hs : Keeps z0 s) : Keeps z0 (programCloses s) :=
  kept_log hs fun ⟨a, b, c⟩ => ⟨(modify_length _ _).trans_le a, b, c⟩

theorem closeAll_b (s : State) (hs : Keeps z0 s) : Keeps z0 (closeAll s) := by
  unfold closeAll
  repeat' (first
    | with_reducible assumption | intro _ | subst x
    | (extract_lets +onlyGivenNames x; have hx : Keeps z0 x := ?_; clear_value x)
    | (extract_lets +onlyGivenNames x; refine isPart x (by constructor) ?_; subst x)
    | (extract_lets +onlyGivenNames x; clear_value x) | with_reducible apply ite_h | split | with_reducible apply closeOpen_b
    | with_reducible apply foldl_b | dsimp only [Keeps])

theorem appendRec_b (r : LogRec) (s : State) (hs : Keeps z0 s) : Keeps z0 (appendRec r s) := by
  unfold appendRec
  split
  · exact logLost_b s hs
  · rename_i h
    have hk : Keeps z0 { s with fl := { s.fl with log := s.fl.log ++ [r] } } := kept_log hs fun ⟨_, b, c⟩ => ⟨by
      simp only [List.length_append, List.length_singleton]
      omega, b, c⟩
    exact ite_b (raiseG_b _ _ _ hk) (ite_b (raiseG_b _ _ _ hk) hk)

theorem raiseG_opens (g b : Nat) (s : State) : (raiseG g b s).fl.opens = s.fl.opens :=
  show (unmarked (raise (16 * g + b) s)).fl.opens = (unmarked s).fl.opens from congrArg (fun t : State => t.fl.opens) (raise_unmarked _ s)
theorem appendRec_opens (r : LogRec) (s : State) : (appendRec r s).fl.opens = s.fl.opens := by
  simp only [appendRec, logLost, apply_ite (fun t : State => t.fl.opens), raiseG_opens, ite_self]

theorem writeEntry_b (e : LogRec) (s : State) (hs : Keeps z0 s) : Keeps z0 (writeEntry e s) := by
  unfold writeEntry
  split
  · exact appendRec_b _ _ hs
  · split
    · rename_i o _
      have hk : Keeps z0 { s with fl := { s.fl with opens := s.fl.opens.map (fun x => if x = o then { o with n := o.n + 1 } else x) } } :=
        kept_log hs fun ⟨a, b, c⟩ => ⟨a, b, by rw [List.length_map]; exact c⟩
      exact ite_b (closeOpen_b _ _ hk) hk
    · split
      · exact logLost_b s hs
      · dsimp only
        have room : ∀ u : State, Keeps z0 u → (LogSound z0 → u.fl.opens.length ≤ 15) → ∀ p,
            Keeps z0 { (appendRec e u) with fl := { (appendRec e u).fl with opens := (appendRec e u).fl.opens ++ [⟨e.src, p, 0⟩] } } := by
          intro u hu hl p
          have ha := appendRec_b e u hu
          refine { ha with log := fun w => ?_ }
          obtain ⟨a, b, _⟩ := ha.log w
          refine ⟨a, b, ?_⟩
          have := hl w
          simp only [List.length_append, List.length_singleton, appendRec_opens]
          omega
        refine arm_b _ _ _ (room _ ?_ ?_ _)
        · split
          · split
            · exact closeOpen_b _ _ hs
            · exact hs
          · exact hs
        · intro w
          obtain ⟨_, _, c⟩ := hs.log w
          split
          · split
            · rename_i o l e
              rw [e] at c
              have := List.length_filter_le (fun x => decide (x ≠ o)) l
              simp only [closeOpen, disarm, e, List.filter_cons, ne_eq, not_true_eq_false, decide_false, Bool.false_eq_true, if_false]
              simp only [List.length_cons, ne_eq] at c this
              omega
            · rename_i e
              rw [e]; exact Nat.zero_le _
          · omega

theorem writeQueue_b (n : Nat) (s : State) (hs : Keeps z0 s) : Keeps z0 (writeQueue n s) := by
  induction n generalizing s with
  | zero => exact hs
  | succ n ih =>
    unfold writeQueue
    split
    · exact hs
    · rename_i e rest hq
      extract_lets +onlyGivenNames q u
      have hk : Keeps z0 u := by
        refine writeEntry_b _ _ ?_
        dsimp only [Keeps]
        refine kept_log (by with_reducible assumption) ?_
        exact fun ⟨a, b, c⟩ => ⟨a, by rw [hq] at b; exact Nat.le_of_succ_le b, c⟩
      clear_value u
      exact ih _ (ite_b (logOther_b _ _ _ _ hk) hk)

theorem logSecurity_b (code : Nat) (what : Nat) (word : Nat) (s : State) (hs : Keeps z0 s) : Keeps z0 (logSecurity code what
    word s) := by
  unfold logSecurity
  repeat' (first
    | with_reducible assumption | intro _ | subst x
    | (extract_lets +onlyGivenNames x; have hx : Keeps z0 x := ?_; clear_value x)
    | (extract_lets +onlyGivenNames x; refine isPart x (by constructor) ?_; subst x)
    | (extract_lets +onlyGivenNames x; clear_value x) | with_reducible apply ite_h | split | with_reducible apply logOther_b
    | dsimp only [Keeps])

theorem logUpdate_b (s : State) (hs : Keeps z0 s) : Keeps z0 (logUpdate s) := by
  unfold logUpdate
  repeat' (first
    | with_reducible assumption | intro _ | subst x
    | (extract_lets +onlyGivenNames x; have hx : Keeps z0 x := ?_; clear_value x)
    | (extract_lets +onlyGivenNames x; refine isPart x (by constructor) ?_; subst x)
    | (extract_lets +onlyGivenNames x; clear_value x) | with_reducible apply ite_h | split | with_reducible apply logOther_b
    | dsimp only [Keeps])

theorem saveFails_b (s : State) (hs : Keeps z0 s) : Keeps z0 (saveFails s) := by
  unfold saveFails
  repeat' (first
    | with_reducible assumption | intro _ | subst x
    | (extract_lets +onlyGivenNames x; have hx : Keeps z0 x := ?_; clear_value x)
    | (extract_lets +onlyGivenNames x; refine isPart x (by constructor) ?_; subst x)
    | (extract_lets +onlyGivenNames x; clear_value x) | with_reducible apply ite_h | split | with_reducible apply raiseG_b
    | (refine kept_maps (by with_reducible assumption) ?_; exact fun w => { w with capture := fun _ h => (nomatch h) })
    | dsimp only [Keeps])

theorem makeReadOnly_b (n : Nat) (s : State) (hs : Keeps z0 s) : Keeps z0 (makeReadOnly n s) := by
  unfold makeReadOnly
  repeat' (first
    | with_reducible assumption | intro _ | subst x
    | (extract_lets +onlyGivenNames x; have hx : Keeps z0 x := ?_; clear_value x)
    | (extract_lets +onlyGivenNames x; refine isPart x (by constructor) ?_; subst x)
    | (extract_lets +onlyGivenNames x; clear_value x) | with_reducible apply ite_h | split | with_reducible apply saveFails_b
    | with_reducible apply raiseG_b | dsimp only [Keeps])

theorem dropRefresh_b (p : Nat) (s : State) (hs : Keeps z0 s) : Keeps z0 (dropRefresh p s) := by
  unfold dropRefresh
  repeat' (first
    | with_reducible assumption | intro _ | subst x
    | (extract_lets +onlyGivenNames x; have hx : Keeps z0 x := ?_; clear_value x)
    | (extract_lets +onlyGivenNames x; refine isPart x (by constructor) ?_; subst x)
    | (extract_lets +onlyGivenNames x; clear_value x) | with_reducible apply ite_h | split | dsimp only [Keeps])

theorem consumeBuffer_b (n : Nat) (s : State) (hs : Keeps z0 s) : Keeps z0 (consumeBuffer n s) := by
  unfold consumeBuffer
  repeat' (first
    | with_reducible assumption | intro _ | subst x
    | (extract_lets +onlyGivenNames x; have hx : Keeps z0 x := ?_; clear_value x)
    | (extract_lets +onlyGivenNames x; refine isPart x (by constructor) ?_; subst x)
    | (extract_lets +onlyGivenNames x; clear_value x) | with_reducible apply ite_h | split | with_reducible apply setSector_b
    | dsimp only [Keeps])

theorem takeSpare_b (n : Nat) (p : Nat) (c : Option Content) (s : State) (hs : Keeps z0 s) : Keeps z0 (takeSpare n p c s).2 :=
    by
  unfold takeSpare
  repeat' (first
    | with_reducible assumption | intro _ | subst x
    | (extract_lets +onlyGivenNames x; have hx : Keeps z0 x := ?_; clear_value x)
    | (extract_lets +onlyGivenNames x; refine isPart x (by constructor) ?_; subst x)
    | (extract_lets +onlyGivenNames x; clear_value x) | with_reducible apply ite_h | split | with_reducible apply dropRefresh_b
    | with_reducible apply makeReadOnly_b | with_reducible apply raiseG_b | with_reducible apply marginSettle_b
    | with_reducible apply setSector_b | dsimp only [Keeps])

theorem land_b (n : Nat) (ok : Bool) (c : Option Content) (s : State) (hs : Keeps z0 s) : Keeps z0 (land n ok c s).2 := by
  unfold land
  repeat' (first
    | with_reducible assumption | intro _ | subst x
    | (extract_lets +onlyGivenNames x; have hx : Keeps z0 x := ?_; clear_value x)
    | (extract_lets +onlyGivenNames x; refine isPart x (by constructor) ?_; subst x)
    | (extract_lets +onlyGivenNames x; clear_value x) | with_reducible apply ite_h | split
    | with_reducible apply marginSettle_b | with_reducible apply takeSpare_b | with_reducible apply consumeBuffer_b
    | with_reducible apply dropRefresh_b | with_reducible apply raiseG_b | with_reducible apply settleBanks_b
    | with_reducible apply setSector_b | refine pair_b (by with_reducible assumption) ?_ | dsimp only [Keeps])

theorem landNow_b (n : Nat) (c : Option Content) (s : State) (hs : Keeps z0 s) : Keeps z0 (landNow n c s).2 := by
  unfold landNow
  repeat' (first
    | with_reducible assumption | intro _ | subst x
    | (extract_lets +onlyGivenNames x; have hx : Keeps z0 x := ?_; clear_value x)
    | (extract_lets +onlyGivenNames x; refine isPart x (by constructor) ?_; subst x)
    | (extract_lets +onlyGivenNames x; clear_value x) | with_reducible apply ite_h | split | with_reducible apply land_b
    | with_reducible apply drawBool_b | refine pair_b (by with_reducible assumption) ?_ | dsimp only [Keeps])

theorem journalNow_b (s : State) (hs : Keeps z0 s) : Keeps z0 (journalNow s) := by
  unfold journalNow
  repeat' (first
    | with_reducible assumption | intro _ | subst x
    | (extract_lets +onlyGivenNames x; have hx : Keeps z0 x := ?_; clear_value x)
    | (extract_lets +onlyGivenNames x; refine isPart x (by constructor) ?_; subst x)
    | (extract_lets +onlyGivenNames x; clear_value x) | with_reducible apply ite_h | split | with_reducible apply landNow_b
    | refine pair_b (by with_reducible assumption) ?_ | dsimp only [Keeps])

theorem cutErase_b (n : Nat) (blank : Bool) (s : State) (hs : Keeps z0 s) : Keeps z0 (cutErase n blank s).2 := by
  unfold cutErase
  repeat' (first
    | with_reducible assumption | intro _ | subst x
    | (extract_lets +onlyGivenNames x; have hx : Keeps z0 x := ?_; clear_value x)
    | (extract_lets +onlyGivenNames x; refine isPart x (by constructor) ?_; subst x)
    | (extract_lets +onlyGivenNames x; clear_value x) | with_reducible apply ite_h | split | with_reducible apply setSector_b
    | with_reducible apply drawNat_b | refine pair_b (by with_reducible assumption) ?_ | dsimp only [Keeps])

theorem markLog_b (i : Nat) (s : State) (hs : Keeps z0 s) : Keeps z0 (markLog i s) := by
  unfold markLog
  repeat' (first
    | with_reducible assumption | intro _ | subst x
    | (extract_lets +onlyGivenNames x; have hx : Keeps z0 x := ?_; clear_value x)
    | (extract_lets +onlyGivenNames x; refine isPart x (by constructor) ?_; subst x)
    | (extract_lets +onlyGivenNames x; clear_value x) | with_reducible apply ite_h | split | with_reducible apply setSector_b
    | dsimp only [Keeps])

theorem markLogFrom_b (m : Nat) (s : State) (hs : Keeps z0 s) : Keeps z0 (markLogFrom m s) := by
  unfold markLogFrom
  repeat' (first
    | with_reducible assumption | intro _ | subst x
    | (extract_lets +onlyGivenNames x; have hx : Keeps z0 x := ?_; clear_value x)
    | (extract_lets +onlyGivenNames x; refine isPart x (by constructor) ?_; subst x)
    | (extract_lets +onlyGivenNames x; clear_value x) | with_reducible apply ite_h | split | with_reducible apply markLog_b
    | dsimp only [Keeps])

theorem cutLog_b (s : State) (hs : Keeps z0 s) : Keeps z0 (cutLog s) := by
  unfold cutLog
  repeat' (first
    | with_reducible assumption | intro _ | subst x
    | (extract_lets +onlyGivenNames x; have hx : Keeps z0 x := ?_; clear_value x)
    | (extract_lets +onlyGivenNames x; refine isPart x (by constructor) ?_; subst x)
    | (extract_lets +onlyGivenNames x; clear_value x) | with_reducible apply ite_h | split
    | with_reducible apply markLogFrom_b | with_reducible apply writeQueue_b | with_reducible apply appendRec_b
    | with_reducible apply programCloses_b | with_reducible apply drawBool_b | with_reducible apply drawNat_b
    | refine pair_b (by with_reducible assumption) ?_ | dsimp only [Keeps])

theorem cutLogErase_b (i : Nat) (s : State) (hs : Keeps z0 s) : Keeps z0 (cutLogErase i s) := by
  have hk := cutErase_b (208 + i) true s hs
  exact ite_b (kept_log hk fun ⟨a, b, c⟩ => ⟨Nat.le_trans (List.length_take_le' _ _) a, b, c⟩) hk

theorem cutUpd_b (n : Nat) (s : State) (hs : Keeps z0 s) : Keeps z0 (cutUpd n s) := by
  unfold cutUpd
  repeat' (first
    | with_reducible assumption | intro _ | subst x
    | (extract_lets +onlyGivenNames x; have hx : Keeps z0 x := ?_; clear_value x)
    | (extract_lets +onlyGivenNames x; refine isPart x (by constructor) ?_; subst x)
    | (extract_lets +onlyGivenNames x; clear_value x) | with_reducible apply ite_h | split | with_reducible apply cutErase_b
    | refine pair_b (by with_reducible assumption) ?_ | dsimp only [Keeps])

theorem cutRefresh_b (p : Nat) (s : State) (hs : Keeps z0 s) : Keeps z0 (cutRefresh p s) := by
  unfold cutRefresh
  repeat' (first
    | with_reducible assumption | intro _ | subst x
    | (extract_lets +onlyGivenNames x; have hx : Keeps z0 x := ?_; clear_value x)
    | (extract_lets +onlyGivenNames x; refine isPart x (by constructor) ?_; subst x)
    | (extract_lets +onlyGivenNames x; clear_value x) | with_reducible apply ite_h | split | with_reducible apply cutErase_b
    | with_reducible apply setSector_b | with_reducible apply drawBool_b | refine pair_b (by with_reducible assumption) ?_
    | dsimp only [Keeps])

theorem dropSlot_b (s : State) (hs : Keeps z0 s) : Keeps z0 (dropSlot s) := by
  unfold dropSlot
  repeat' (first
    | with_reducible assumption | intro _ | subst x
    | (extract_lets +onlyGivenNames x; have hx : Keeps z0 x := ?_; clear_value x)
    | (extract_lets +onlyGivenNames x; refine isPart x (by constructor) ?_; subst x)
    | (extract_lets +onlyGivenNames x; clear_value x) | with_reducible apply ite_h | split | with_reducible apply cutRefresh_b
    | with_reducible apply cutUpd_b | with_reducible apply cutLogErase_b | with_reducible apply cutLog_b
    | with_reducible apply cutErase_b | with_reducible apply settleBanks_b | refine pair_b (by with_reducible assumption) ?_
    | dsimp only [Keeps])

theorem loadHLive_b (s : State) (hs : Keeps z0 s) : Keeps z0 (loadHLive s) := by
  unfold loadHLive
  repeat' (first
    | with_reducible assumption | intro _ | subst x
    | (extract_lets +onlyGivenNames x; have hx : Keeps z0 x := ?_; clear_value x)
    | (extract_lets +onlyGivenNames x; refine isPart x (by constructor) ?_; subst x)
    | (extract_lets +onlyGivenNames x; clear_value x) | with_reducible apply ite_h | split | with_reducible apply putLive_b
    | dsimp only [Keeps])

theorem loadH_b (vaon : Bool) (s : State) (hs : Keeps z0 s) : Keeps z0 (loadH vaon s) := by
  unfold loadH
  repeat' (first
    | with_reducible assumption | intro _ | subst x
    | (extract_lets +onlyGivenNames x; have hx : Keeps z0 x := ?_; clear_value x)
    | (extract_lets +onlyGivenNames x; refine isPart x (by constructor) ?_; subst x)
    | (extract_lets +onlyGivenNames x; clear_value x) | with_reducible apply ite_h | split | with_reducible apply putStg_b
    | with_reducible apply putLive_b | with_reducible apply putPlain_b | dsimp only [Keeps])

theorem loadPlainH_b (s : State) (hs : Keeps z0 s) : Keeps z0 (loadPlainH s) := by
  unfold loadPlainH
  repeat' (first
    | with_reducible assumption | intro _ | subst x
    | (extract_lets +onlyGivenNames x; have hx : Keeps z0 x := ?_; clear_value x)
    | (extract_lets +onlyGivenNames x; refine isPart x (by constructor) ?_; subst x)
    | (extract_lets +onlyGivenNames x; clear_value x) | with_reducible apply ite_h | split | with_reducible apply putPlain_b
    | dsimp only [Keeps])

theorem sense_b (s : State) (hs : Keeps z0 s) : Keeps z0 (sense s) :=
  kept_maps (kept_otp hs fun h => ⟨h.data, h.writeLock, h.readLock, h.tag14, h.tag15⟩) fun w =>
    { w with shd := arrayWithSpares_wf _ w.arr }

theorem senseEvents_b (s : State) (hs : Keeps z0 s) : Keeps z0 (senseEvents s) := by
  unfold senseEvents
  repeat' (first
    | with_reducible assumption | intro _ | subst x
    | (extract_lets +onlyGivenNames x; have hx : Keeps z0 x := ?_; clear_value x)
    | (extract_lets +onlyGivenNames x; refine isPart x (by constructor) ?_; subst x)
    | (extract_lets +onlyGivenNames x; clear_value x) | with_reducible apply ite_h | split | with_reducible apply raiseIf_b
    | dsimp only [Keeps])

theorem restartFilters_b (s : State) (hs : Keeps z0 s) : Keeps z0 (restartFilters s) := by
  unfold restartFilters
  repeat' (first
    | with_reducible assumption | intro _ | subst x
    | (extract_lets +onlyGivenNames x; have hx : Keeps z0 x := ?_; clear_value x)
    | (extract_lets +onlyGivenNames x; refine isPart x (by constructor) ?_; subst x)
    | (extract_lets +onlyGivenNames x; clear_value x) | with_reducible apply ite_h | split | dsimp only [Keeps, setPlt])

theorem openS2_any (s : State) (hs : ∀ r, s.plt.s2 = true → Keeps z0 { s with plt := { s.plt with s2 := false, role := r } })
    (hk : s.plt.s2 = false → Keeps z0 s) : Keeps z0 (openS2 s) := by
  unfold openS2
  split
  · rename_i h
    exact raiseG_b _ _ _ (hs s.plt.role h)
  · rename_i h
    exact hk (by simpa using h)

theorem openS2_b (s : State) (hs : Keeps z0 s) : Keeps z0 (openS2 s) :=
  openS2_any s (fun _ _ => kept_pilot hs (fun _ h => by cases h)) (fun _ => hs)

theorem pilotCause_b (b : Nat) (s : State) (hs : Keeps z0 s) : Keeps z0 (pilotCause b s) := by
  unfold pilotCause
  repeat' (first
    | with_reducible assumption | intro _ | subst x
    | (extract_lets +onlyGivenNames x; have hx : Keeps z0 x := ?_; clear_value x)
    | (extract_lets +onlyGivenNames x; refine isPart x (by constructor) ?_; subst x)
    | (extract_lets +onlyGivenNames x; clear_value x) | with_reducible apply ite_h | split | with_reducible apply raiseG_b
    | with_reducible apply arm_b | dsimp only [Keeps, setPlt])

theorem causeIf_b (c : Bool) (b : Nat) (s : State) (hs : Keeps z0 s) : Keeps z0 (causeIf c b s) := by
  unfold causeIf
  repeat' (first
    | with_reducible assumption | intro _ | subst x
    | (extract_lets +onlyGivenNames x; have hx : Keeps z0 x := ?_; clear_value x)
    | (extract_lets +onlyGivenNames x; refine isPart x (by constructor) ?_; subst x)
    | (extract_lets +onlyGivenNames x; clear_value x) | with_reducible apply ite_h | split | with_reducible apply pilotCause_b
    | dsimp only [Keeps])

theorem stopResponse_b (s : State) (hs : Keeps z0 s) : Keeps z0 (stopResponse s) := by
  unfold stopResponse
  repeat' (first
    | with_reducible assumption | intro _ | subst x
    | (extract_lets +onlyGivenNames x; have hx : Keeps z0 x := ?_; clear_value x)
    | (extract_lets +onlyGivenNames x; refine isPart x (by constructor) ?_; subst x)
    | (extract_lets +onlyGivenNames x; clear_value x) | with_reducible apply ite_h | split | with_reducible apply disarm_b
    | dsimp only [Keeps, setPlt])

theorem setCurr_b (c : Nat) (s : State) (hs : Keeps z0 s) : Keeps z0 (setCurr c s) := by
  unfold setCurr
  repeat' (first
    | with_reducible assumption | intro _ | subst x
    | (extract_lets +onlyGivenNames x; have hx : Keeps z0 x := ?_; clear_value x)
    | (extract_lets +onlyGivenNames x; refine isPart x (by constructor) ?_; subst x)
    | (extract_lets +onlyGivenNames x; clear_value x) | with_reducible apply ite_h | split | with_reducible apply causeIf_b
    | with_reducible apply raiseIf_b | dsimp only [Keeps, setPlt])

theorem setOsc_b (on : Bool) (s : State) (hs : Keeps z0 s) : Keeps z0 (setOsc on s) := by
  unfold setOsc
  repeat' (first
    | with_reducible assumption | intro _ | subst x
    | (extract_lets +onlyGivenNames x; have hx : Keeps z0 x := ?_; clear_value x)
    | (extract_lets +onlyGivenNames x; refine isPart x (by constructor) ?_; subst x)
    | (extract_lets +onlyGivenNames x; clear_value x) | with_reducible apply ite_h | split | with_reducible apply pilotCause_b
    | with_reducible apply raiseG_b | dsimp only [Keeps, setPlt])

theorem noPwm_b (s : State) (hs : Keeps z0 s) : Keeps z0 (noPwm s) := by
  unfold noPwm
  repeat' (first
    | with_reducible assumption | intro _ | subst x
    | (extract_lets +onlyGivenNames x; have hx : Keeps z0 x := ?_; clear_value x)
    | (extract_lets +onlyGivenNames x; refine isPart x (by constructor) ?_; subst x)
    | (extract_lets +onlyGivenNames x; clear_value x) | with_reducible apply ite_h | split | with_reducible apply setOsc_b
    | with_reducible apply setCurr_b | dsimp only [Keeps, setPlt])

theorem pilotReceive_b (s : State) (hs : Keeps z0 s) : Keeps z0 (pilotReceive s) := by
  unfold pilotReceive
  repeat' (first
    | with_reducible assumption | intro _ | subst x
    | (extract_lets +onlyGivenNames x; have hx : Keeps z0 x := ?_; clear_value x)
    | (extract_lets +onlyGivenNames x; refine isPart x (by constructor) ?_; subst x)
    | (extract_lets +onlyGivenNames x; clear_value x) | with_reducible apply ite_h | split | with_reducible apply stopResponse_b
    | with_reducible apply restartFilters_b | with_reducible apply arm_b
    | exact kept_pilot (by with_reducible assumption) (fun g h => rfl) | dsimp only [Keeps, setPlt])

theorem pilotPassive_b (s : State) (hs : Keeps z0 s) : Keeps z0 (pilotPassive s) := by
  refine noPwm_b _ (restartFilters_b _ (disarm_b _ _ (stopResponse_b _ (openS2_any _ ?_ ?_))))
  · exact fun _ _ => kept_pilot hs (fun _ h => by cases h)
  · intro h
    have h : s.plt.s2 = false := h
    exact kept_pilot hs (fun _ (e : s.plt.s2 = true) => by rw [h] at e; cases e)

theorem pilotFollow_b (s : State) (hs : Keeps z0 s) : Keeps z0 (pilotFollow s) := by
  unfold pilotFollow
  repeat' (first
    | with_reducible assumption | intro _ | subst x
    | (extract_lets +onlyGivenNames x; have hx : Keeps z0 x := ?_; clear_value x)
    | (extract_lets +onlyGivenNames x; refine isPart x (by constructor) ?_; subst x)
    | (extract_lets +onlyGivenNames x; clear_value x) | with_reducible apply ite_h | split | with_reducible apply pilotPassive_b
    | with_reducible apply pilotReceive_b | dsimp only [Keeps])

theorem claimNext_b (s : State) (hs : Keeps z0 s) : Keeps z0 (claimNext s) := by
  unfold claimNext
  repeat' (first
    | with_reducible assumption | intro _ | subst x
    | (extract_lets +onlyGivenNames x; have hx : Keeps z0 x := ?_; clear_value x)
    | (extract_lets +onlyGivenNames x; refine isPart x (by constructor) ?_; subst x)
    | (extract_lets +onlyGivenNames x; clear_value x) | with_reducible apply ite_h | split | dsimp only [Keeps])

theorem noteClaim_b (s : State) (hs : Keeps z0 s) : Keeps z0 (noteClaim s) := by
  unfold noteClaim
  repeat' (first
    | with_reducible assumption | intro _ | subst x
    | (extract_lets +onlyGivenNames x; have hx : Keeps z0 x := ?_; clear_value x)
    | (extract_lets +onlyGivenNames x; refine isPart x (by constructor) ?_; subst x)
    | (extract_lets +onlyGivenNames x; clear_value x) | with_reducible apply ite_h | split | with_reducible apply claimNext_b
    | dsimp only [Keeps])

theorem startRounds_b (s : State) (hs : Keeps z0 s) : Keeps z0 (startRounds s) := by
  unfold startRounds
  repeat' (first
    | with_reducible assumption | intro _ | subst x
    | (extract_lets +onlyGivenNames x; have hx : Keeps z0 x := ?_; clear_value x)
    | (extract_lets +onlyGivenNames x; refine isPart x (by constructor) ?_; subst x)
    | (extract_lets +onlyGivenNames x; clear_value x) | with_reducible apply ite_h | split | with_reducible apply claimNext_b
    | dsimp only [Keeps])

theorem enterState_b (n : St) (s : State) (hs : Keeps z0 s) : Keeps z0 (enterState n s) := by
  unfold enterState
  repeat' (first
    | with_reducible assumption | intro _ | subst x
    | (extract_lets +onlyGivenNames x; have hx : Keeps z0 x := ?_; clear_value x)
    | (extract_lets +onlyGivenNames x; refine isPart x (by constructor) ?_; subst x)
    | (extract_lets +onlyGivenNames x; clear_value x) | with_reducible apply ite_h | split | with_reducible apply startRounds_b
    | with_reducible apply closeAll_b | with_reducible apply raiseG_b | with_reducible apply logOther_b
    | with_reducible apply grant_b | dsimp only [Keeps])

theorem snapshot_b (cause : Nat) (src : Nat) (s : State) (hs : Keeps z0 s) : Keeps z0 (snapshot cause src s) := by
  unfold snapshot
  repeat' (first
    | with_reducible assumption | intro _ | subst x
    | (extract_lets +onlyGivenNames x; have hx : Keeps z0 x := ?_; clear_value x)
    | (extract_lets +onlyGivenNames x; refine isPart x (by constructor) ?_; subst x)
    | (extract_lets +onlyGivenNames x; clear_value x) | with_reducible apply ite_h | split | with_reducible apply raiseG_b
    | with_reducible apply grant_b | dsimp only [Keeps])

theorem repend_b (s : State) (hs : Keeps z0 s) : Keeps z0 (repend s) := by
  unfold repend
  repeat' (first
    | with_reducible assumption | intro _ | subst x
    | (extract_lets +onlyGivenNames x; have hx : Keeps z0 x := ?_; clear_value x)
    | (extract_lets +onlyGivenNames x; refine isPart x (by constructor) ?_; subst x)
    | (extract_lets +onlyGivenNames x; clear_value x) | with_reducible apply ite_h | split | with_reducible apply setPend_b
    | with_reducible apply foldl_b | dsimp only [Keeps])

theorem bootFlash_fits {c d : Prop} [Decidable c] [Decidable d] {f : Fl} {n : Nat} (h : LogFits f.log.length f.queue.length f.opens.length) :
    let g := if c then flashRestart f else if d then flashSleep f else { flashPower f with scrubSince := n }
    LogFits g.log.length g.queue.length g.opens.length := by
  dsimp only
  split
  · exact ⟨h.1, h.2.1, Nat.zero_le _⟩
  · split <;> exact ⟨h.1, Nat.zero_le _, Nat.zero_le _⟩

theorem foldl_mput_wf {α β : Type} [DecidableEq α] (d : α) (k : β → Nat) (v : Map α → β → α) (l : List β) (m : Map α) (h : mwf d m = true) :
    mwf d (l.foldl (fun m x => mput d m (k x) (v m x)) m) = true := mwf_foldl d _ (fun _ _ => mwf_mput _ _ _ _) l m h
theorem forgetMargins_wf (m : Map Sector) : mwf ({} : Sector) (forgetMargins m) = true :=
  foldl_mput_wf ({} : Sector) (fun x : Nat × Sector => x.1) (fun _ x => { x.2 with marginBad := false }) m [] rfl
theorem ldoRoles_wf (s : State) : mwf ({} : LdoSt) (ldoRoles s) = true :=
  foldl_mput_wf ({} : LdoSt) id (fun _ c => { ldoOf s c with drop := false }) _ [] rfl
theorem failedOnly_wf (m : Map Sensor) (h : mwf ({} : Sensor) m = true) : mwf ({} : Sensor) (failedOnly m) = true := by
  refine mwf_filterMap ({} : Sensor) ({} : Sensor) _ (fun x y e => ?_) m h
  obtain ⟨i, x⟩ := x
  dsimp only at e
  split at e
  · cases e; exact ⟨rfl, fun h => Bool.noConfusion (congrArg Sensor.failed h : true = false)⟩
  · cases e
theorem factoryLedger_wf (m : Map Byte) : mwf ({} : Res) (factoryLedger m) = true := by
  unfold factoryLedger
  extract_lets h
  split
  · rfl
  · rename_i g
    rw [mwf_iff]
    refine ⟨List.Pairwise.map _ (fun _ _ e => e) List.pairwise_lt_range, fun x hx => ?_⟩
    obtain ⟨i, -, rfl⟩ := List.mem_map.mp hx
    intro e
    have := congrArg Res.hot e
    dsimp only at this
    omega
theorem patBank_fit {s : State} {b : PatBank} (w : MapsFit (mapsOf s)) (h : patBank s.pat = some b) : LedgerFit b := by
  rcases inForce_some _ h with e | e
  · exact w.patA b e
  · exact w.patB b e
theorem cfgBank_fit {s : State} {c : CfgImg} (w : MapsFit (mapsOf s)) (h : cfgBank s = some c) : ImageFit c := by
  rcases inForce_some _ h with e | e
  · exact w.cfgA c e
  · exact w.cfgB c e

theorem bootRecord_maps (k : BootKind) (s : State) (w : MapsFit (mapsOf s)) : MapsFit (mapsOf (bootRecord k s)) where
  stg := regsFit_nil
  live := regsFit_nil
  plain := regsFit_filter _ _ w.plain
  held := List.Pairwise.nil
  bankA := by unfold bootRecord; dsimp only [mapsOf]; split; exacts [w.bankA, rfl]
  bankB := by unfold bootRecord; dsimp only [mapsOf]; split; exacts [w.bankB, rfl]
  ramps := rfl
  ph := by unfold bootRecord; dsimp only [mapsOf]; split; exacts [w.ph, rfl]
  strkn := by unfold bootRecord; dsimp only [mapsOf]; split; exacts [w.strkn, rfl]
  ldo := by unfold bootRecord; dsimp only [mapsOf]; split; exacts [ldoRoles_wf s, rfl]
  snspk := by unfold bootRecord; dsimp only [mapsOf]; split; exacts [w.snspk, rfl]
  band := by unfold bootRecord; dsimp only [mapsOf]; split; exacts [rfl, rfl]
  retries := by unfold bootRecord; dsimp only [mapsOf]; split; exacts [rfl, rfl]
  rset := by unfold bootRecord; dsimp only [mapsOf]; split; exacts [rfl, rfl]
  cnt := by unfold bootRecord; dsimp only [mapsOf]; split; exacts [w.cnt, rfl]
  res := by
    unfold bootRecord; dsimp only [mapsOf]; split
    · rename_i b e; exact (patBank_fit w e).res
    · exact factoryLedger_wf _
  patA := w.patA
  patB := w.patB
  mval := by unfold bootRecord; dsimp only [mapsOf]; split; exacts [rfl, rfl]
  age := by unfold bootRecord; dsimp only [mapsOf]; split; exacts [rfl, rfl]
  hkres := by unfold bootRecord; dsimp only [mapsOf]; split; exacts [rfl, rfl]
  thN := by unfold bootRecord; dsimp only [mapsOf]; split; exacts [rfl, rfl]
  sen := by unfold bootRecord; dsimp only [mapsOf]; split; exacts [failedOnly_wf _ w.sen, rfl]
  chan := rfl
  dchan := rfl
  drail := rfl
  ibase := rfl
  f := rfl
  wlAt := by
    unfold bootRecord; dsimp only [mapsOf]; split
    · exact rfl
    · exact rfl
    · exact w.wlAt
    · exact w.wlAt
  val := rfl
  pend := rfl
  mask := rfl
  late := rfl
  tick := rfl
  route := rfl
  asg := rfl
  sec := by unfold bootRecord; dsimp only [mapsOf]; split; (exact w.sec); split; exacts [forgetMargins_wf _, forgetMargins_wf _]
  cfgA := by unfold bootRecord; dsimp only [mapsOf]; split; (exact w.cfgA); split; exacts [w.cfgA, w.cfgA]
  cfgB := by unfold bootRecord; dsimp only [mapsOf]; split; (exact w.cfgB); split; exacts [w.cfgB, w.cfgB]
  capture := by
    unfold bootRecord; dsimp only [mapsOf]; intro c h; split at h
    · cases h
    · split at h <;> cases h
  arr := w.arr
  shd := w.shd
  wl := w.wl
  rl := w.rl

theorem bootRecord_b (k : BootKind) (s : State) (hs : Keeps z0 s) : Keeps z0 (bootRecord k s) := by
  refine ⟨hs.fuses, fun w => bootFlash_fits (hs.log w), fun _ => sessionFits_none, fun w r => ?_, fun w => ?_, fun w => ?_, fun _ c e => ?_,
    fun w => ?_⟩
  · exact ⟨fun h => absurd h (by simp [bootRecord, State.reset, has]), fun h => absurd h (by simp [bootRecord, State.reset, has])⟩
  · have hp := hs.pilot w
    cases k with
    | sys c => exact hp
    | por => exact fun h => by cases h
    | wake b => exact fun h => by cases h
  · exact ⟨fun h => (nomatch h), fun h => (nomatch h)⟩
  · cases e
  · exact bootRecord_maps k s (hs.maps w)

theorem bootRoles_b (k : BootKind) (s : State) (hs : Keeps z0 s) : Keeps z0 (bootRoles k s) := by
  unfold bootRoles
  repeat' (first
    | with_reducible assumption | intro _ | subst x
    | (extract_lets +onlyGivenNames x; have hx : Keeps z0 x := ?_; clear_value x)
    | (extract_lets +onlyGivenNames x; refine isPart x (by constructor) ?_; subst x)
    | (extract_lets +onlyGivenNames x; clear_value x) | with_reducible apply ite_h | split | with_reducible apply pilotPassive_b
    | exact kept_pilot (by with_reducible assumption) (fun g h => by cases h) | dsimp only [Keeps])

theorem bootTimers_b (k : BootKind) (s : State) (hs : Keeps z0 s) : Keeps z0 (bootTimers k s) := by
  unfold bootTimers
  repeat' (first
    | with_reducible assumption | intro _ | subst x
    | (extract_lets +onlyGivenNames x; have hx : Keeps z0 x := ?_; clear_value x)
    | (extract_lets +onlyGivenNames x; refine isPart x (by constructor) ?_; subst x)
    | (extract_lets +onlyGivenNames x; clear_value x) | with_reducible apply ite_h | split | with_reducible apply arm_b
    | dsimp only [Keeps])

theorem bootReport_b (st : St) (sess : Bool) (s : State) (hs : Keeps z0 s) : Keeps z0 (bootReport st sess s) := by
  unfold bootReport
  repeat' (first
    | with_reducible assumption | intro _ | subst x
    | (extract_lets +onlyGivenNames x; have hx : Keeps z0 x := ?_; clear_value x)
    | (extract_lets +onlyGivenNames x; refine isPart x (by constructor) ?_; subst x)
    | (extract_lets +onlyGivenNames x; clear_value x) | with_reducible apply ite_h | split | with_reducible apply raiseIf_b
    | with_reducible apply raiseG_b | with_reducible apply logOther_b | dsimp only [Keeps])

theorem placeBand_b (s : State) (hs : Keeps z0 s) : Keeps z0 (placeBand s) := by
  unfold placeBand
  repeat' (first
    | with_reducible assumption | intro _ | subst x
    | (extract_lets +onlyGivenNames x; have hx : Keeps z0 x := ?_; clear_value x)
    | (extract_lets +onlyGivenNames x; refine isPart x (by constructor) ?_; subst x)
    | (extract_lets +onlyGivenNames x; clear_value x) | with_reducible apply ite_h | split | with_reducible apply raiseG_b
    | dsimp only [Keeps])

theorem bootStart_b (k : BootKind) (s : State) (hs : Keeps z0 s) : Keeps z0 (bootStart k s) := by
  unfold bootStart
  repeat' (first
    | with_reducible assumption | intro _ | subst x
    | (extract_lets +onlyGivenNames x; have hx : Keeps z0 x := ?_; clear_value x)
    | (extract_lets +onlyGivenNames x; refine isPart x (by constructor) ?_; subst x)
    | (extract_lets +onlyGivenNames x; clear_value x) | with_reducible apply ite_h | split | with_reducible apply placeBand_b
    | with_reducible apply bootReport_b | with_reducible apply bootTimers_b | with_reducible apply bootRoles_b
    | with_reducible apply bootRecord_b | with_reducible apply repend_b | with_reducible apply senseEvents_b
    | with_reducible apply sense_b | with_reducible apply loadH_b | with_reducible apply dropSlot_b | dsimp only [Keeps])

theorem systemReset_b (c : RstCause) (s : State) (hs : Keeps z0 s) : Keeps z0 (systemReset c s) := by
  unfold systemReset
  repeat' (first
    | with_reducible assumption | intro _ | subst x
    | (extract_lets +onlyGivenNames x; have hx : Keeps z0 x := ?_; clear_value x)
    | (extract_lets +onlyGivenNames x; refine isPart x (by constructor) ?_; subst x)
    | (extract_lets +onlyGivenNames x; clear_value x) | with_reducible apply ite_h | split | with_reducible apply bootStart_b
    | dsimp only [Keeps])

theorem whileUp_b (f : State → State) (s : State) (hf : ∀ (v0 : State), Keeps z0 v0 → Keeps z0 (f v0)) (hs : Keeps z0 s) :
    Keeps z0 (whileUp f s) := by
  unfold whileUp
  repeat' (first
    | with_reducible assumption | intro _ | subst x
    | (extract_lets +onlyGivenNames x; have hx : Keeps z0 x := ?_; clear_value x)
    | (extract_lets +onlyGivenNames x; refine isPart x (by constructor) ?_; subst x)
    | (extract_lets +onlyGivenNames x; clear_value x) | with_reducible apply ite_h | split | with_reducible apply hf
    | dsimp only [Keeps])

theorem clearTh_b (k : Nat) (s : State) (hs : Keeps z0 s) : Keeps z0 (clearTh k s) := by
  unfold clearTh
  repeat' (first
    | with_reducible assumption | intro _ | subst x
    | (extract_lets +onlyGivenNames x; have hx : Keeps z0 x := ?_; clear_value x)
    | (extract_lets +onlyGivenNames x; refine isPart x (by constructor) ?_; subst x)
    | (extract_lets +onlyGivenNames x; clear_value x) | with_reducible apply ite_h | split
    | (refine kept_maps (by with_reducible assumption) ?_; exact fun w => { w with thN := by dsimp only [mapsOf]; exact mwf_mput _ _ _ _ (mwf_mput _ _ _ _ w.thN) })
    | dsimp only [Keeps])

theorem reloadPlain_b (s : State) (hs : Keeps z0 s) : Keeps z0 (reloadPlain s) := by
  unfold reloadPlain
  repeat' (first
    | with_reducible assumption | intro _ | subst x
    | (extract_lets +onlyGivenNames x; have hx : Keeps z0 x := ?_; clear_value x)
    | (extract_lets +onlyGivenNames x; refine isPart x (by constructor) ?_; subst x)
    | (extract_lets +onlyGivenNames x; clear_value x) | with_reducible apply ite_h | split | with_reducible apply clearTh_b
    | with_reducible apply loadPlainH_b | with_reducible apply raiseG_b | with_reducible apply foldl_b
    | (refine kept_maps (by with_reducible assumption) ?_; exact fun w => { w with plain := regsFit_filter _ _ w.plain })
    | (refine kept_maps (by with_reducible assumption) ?_; exact fun w => { w with plain := regsFit_foldl _ (fun _ _ => regsFit_rput _ _ _) _ _ w.plain })
    | dsimp only [Keeps])

theorem busRestart_b (s : State) (hs : Keeps z0 s) : Keeps z0 (busRestart s) := by
  unfold busRestart
  extract_lets +onlyGivenNames x
  have hx : Keeps z0 x := ite_b (raiseG_b _ _ _ hs) hs
  clear_value x
  exact kept_maps (kept_session hx fun _ => sessionFits_none) fun w => { w with held := List.Pairwise.nil }

theorem islandRestart_b (s : State) (hs : Keeps z0 s) : Keeps z0 (islandRestart s) := by
  unfold islandRestart
  repeat' (first
    | with_reducible assumption | intro _ | subst x
    | (extract_lets +onlyGivenNames x; have hx : Keeps z0 x := ?_; clear_value x)
    | (extract_lets +onlyGivenNames x; refine isPart x (by constructor) ?_; subst x)
    | (extract_lets +onlyGivenNames x; clear_value x) | with_reducible apply ite_h | split | with_reducible apply busRestart_b
    | with_reducible apply dropSlot_b | with_reducible apply raiseG_b | with_reducible apply logOther_b
    | with_reducible apply disarmAll_b | with_reducible apply arm_b | with_reducible apply disarm_b
    | exact kept_noCommit (by with_reducible assumption)
    | exact kept_sameCommit (by with_reducible assumption) (by with_reducible assumption) (by exact ⟨rfl, rfl, rfl, rfl⟩)
    | exact kept_log (by with_reducible assumption) (by exact fun h => And.intro h.1 (And.intro h.2.1 (Nat.zero_le _)))
    | (dsimp only [flashRestart]; refine kept_log (kept_maps (by with_reducible assumption) ?_) fun h => ⟨h.1, h.2.1, Nat.zero_le _⟩; exact fun w => { w with capture := (fun _ h => (nomatch h)), val := rfl })
    | dsimp only [Keeps])

theorem causedRestart_b (bitNo : Nat) (src : Nat) (s : State) (hs : Keeps z0 s) : Keeps z0 (causedRestart bitNo src s) := by
  unfold causedRestart
  repeat' (first
    | with_reducible assumption | intro _ | subst x
    | (extract_lets +onlyGivenNames x; have hx : Keeps z0 x := ?_; clear_value x)
    | (extract_lets +onlyGivenNames x; refine isPart x (by constructor) ?_; subst x)
    | (extract_lets +onlyGivenNames x; clear_value x) | with_reducible apply ite_h | split
    | with_reducible apply islandRestart_b | with_reducible apply snapshot_b | dsimp only [Keeps])

theorem fwRestart_b (bitNo : Nat) (src : Nat) (s : State) (hs : Keeps z0 s) : Keeps z0 (fwRestart bitNo src s) := by
  unfold fwRestart
  repeat' (first
    | with_reducible assumption | intro _ | subst x
    | (extract_lets +onlyGivenNames x; have hx : Keeps z0 x := ?_; clear_value x)
    | (extract_lets +onlyGivenNames x; refine isPart x (by constructor) ?_; subst x)
    | (extract_lets +onlyGivenNames x; clear_value x) | with_reducible apply ite_h | split
    | with_reducible apply causedRestart_b | with_reducible apply raise_b | dsimp only [Keeps])

theorem scanHeaders_b (bad : List Nat) (s : State) (hs : Keeps z0 s) : Keeps z0 (scanHeaders bad s) := by
  unfold scanHeaders
  repeat' (first
    | with_reducible assumption | intro _ | subst x
    | (extract_lets +onlyGivenNames x; have hx : Keeps z0 x := ?_; clear_value x)
    | (extract_lets +onlyGivenNames x; refine isPart x (by constructor) ?_; subst x)
    | (extract_lets +onlyGivenNames x; clear_value x) | with_reducible apply ite_h | split | with_reducible apply setSector_b
    | with_reducible apply foldl_b | dsimp only [Keeps])

theorem resumeRefresh_b (s : State) (hs : Keeps z0 s) : Keeps z0 (resumeRefresh s) := by
  unfold resumeRefresh
  repeat' (first
    | with_reducible assumption | intro _ | subst x
    | (extract_lets +onlyGivenNames x; have hx : Keeps z0 x := ?_; clear_value x)
    | (extract_lets +onlyGivenNames x; refine isPart x (by constructor) ?_; subst x)
    | (extract_lets +onlyGivenNames x; clear_value x) | with_reducible apply ite_h | split | with_reducible apply landNow_b
    | with_reducible apply marginSettle_b | with_reducible apply setSector_b | refine pair_b (by with_reducible assumption) ?_
    | with_reducible apply foldl_b | dsimp only [Keeps])

theorem headerScan_b (bad : List Nat) (s : State) (hs : Keeps z0 s) : Keeps z0 (headerScan bad s) := by
  unfold headerScan
  repeat' (first
    | with_reducible assumption | intro _ | subst x
    | (extract_lets +onlyGivenNames x; have hx : Keeps z0 x := ?_; clear_value x)
    | (extract_lets +onlyGivenNames x; refine isPart x (by constructor) ?_; subst x)
    | (extract_lets +onlyGivenNames x; clear_value x) | with_reducible apply ite_h | split
    | with_reducible apply scanHeaders_b | with_reducible apply resumeRefresh_b | with_reducible apply raiseG_b
    | with_reducible apply settleBanks_b | with_reducible apply foldl_b | dsimp only [Keeps])

theorem logReset_b (s : State) (hs : Keeps z0 s) : Keeps z0 (logReset s) := by
  unfold logReset
  repeat' (first
    | with_reducible assumption | intro _ | subst x
    | (extract_lets +onlyGivenNames x; have hx : Keeps z0 x := ?_; clear_value x)
    | (extract_lets +onlyGivenNames x; refine isPart x (by constructor) ?_; subst x)
    | (extract_lets +onlyGivenNames x; clear_value x) | with_reducible apply ite_h | split | with_reducible apply logOther_b
    | dsimp only [Keeps])

theorem wantJournal_b (s : State) (hs : Keeps z0 s) : Keeps z0 (wantJournal s) := by
  unfold wantJournal
  repeat' (first
    | with_reducible assumption | intro _ | subst x
    | (extract_lets +onlyGivenNames x; have hx : Keeps z0 x := ?_; clear_value x)
    | (extract_lets +onlyGivenNames x; refine isPart x (by constructor) ?_; subst x)
    | (extract_lets +onlyGivenNames x; clear_value x) | with_reducible apply ite_h | split | dsimp only [Keeps])

theorem updState_b (n : Nat) (s : State) (hs : Keeps z0 s) : Keeps z0 (updState n s) := by
  unfold updState
  repeat' (first
    | with_reducible assumption | intro _ | subst x
    | (extract_lets +onlyGivenNames x; have hx : Keeps z0 x := ?_; clear_value x)
    | (extract_lets +onlyGivenNames x; refine isPart x (by constructor) ?_; subst x)
    | (extract_lets +onlyGivenNames x; clear_value x) | with_reducible apply ite_h | split
    | with_reducible apply wantJournal_b | with_reducible apply logUpdate_b | dsimp only [Keeps])

theorem updInterrupted_b (s : State) (hs : Keeps z0 s) : Keeps z0 (updInterrupted s) := by
  unfold updInterrupted
  repeat' (first
    | with_reducible assumption | intro _ | subst x
    | (extract_lets +onlyGivenNames x; have hx : Keeps z0 x := ?_; clear_value x)
    | (extract_lets +onlyGivenNames x; refine isPart x (by constructor) ?_; subst x)
    | (extract_lets +onlyGivenNames x; clear_value x) | with_reducible apply ite_h | split | with_reducible apply updState_b
    | with_reducible apply raiseG_b | dsimp only [Keeps])

theorem moveAngle_b (d : Nat) (s : State) (hs : Keeps z0 s) : Keeps z0 (moveAngle d s) := by
  unfold moveAngle
  repeat' (first
    | with_reducible assumption | intro _ | subst x
    | (extract_lets +onlyGivenNames x; have hx : Keeps z0 x := ?_; clear_value x)
    | (extract_lets +onlyGivenNames x; refine isPart x (by constructor) ?_; subst x)
    | (extract_lets +onlyGivenNames x; clear_value x) | with_reducible apply ite_h | split | dsimp only [Keeps])

theorem dropActs_b (s : State) (hs : Keeps z0 s) : Keeps z0 (dropActs s) := by
  unfold dropActs
  repeat' (first
    | with_reducible assumption | intro _ | subst x
    | (extract_lets +onlyGivenNames x; have hx : Keeps z0 x := ?_; clear_value x)
    | (extract_lets +onlyGivenNames x; refine isPart x (by constructor) ?_; subst x)
    | (extract_lets +onlyGivenNames x; clear_value x) | with_reducible apply ite_h | split | dsimp only [Keeps])

theorem tick_b (s : State) (hs : Keeps z0 s) : Keeps z0 (tick s) := by
  unfold tick
  repeat' (first
    | with_reducible assumption | intro _ | subst x
    | (extract_lets +onlyGivenNames x; have hx : Keeps z0 x := ?_; clear_value x)
    | (extract_lets +onlyGivenNames x; refine isPart x (by constructor) ?_; subst x)
    | (extract_lets +onlyGivenNames x; clear_value x) | with_reducible apply ite_h | split | with_reducible apply dropActs_b
    | with_reducible apply moveAngle_b | dsimp only [Keeps])

theorem setChg_b (f : Chg → Chg) (s : State) (hs : Keeps z0 s) : Keeps z0 (setChg f s) := by
  unfold setChg
  repeat' (first
    | with_reducible assumption | intro _ | subst x
    | (extract_lets +onlyGivenNames x; have hx : Keeps z0 x := ?_; clear_value x)
    | (extract_lets +onlyGivenNames x; refine isPart x (by constructor) ?_; subst x)
    | (extract_lets +onlyGivenNames x; clear_value x) | with_reducible apply ite_h | split | dsimp only [Keeps])

theorem choosePhase_b (s : State) (hs : Keeps z0 s) : Keeps z0 (choosePhase s).2 := by
  unfold choosePhase
  repeat' (first
    | with_reducible assumption | intro _ | subst x
    | (extract_lets +onlyGivenNames x; have hx : Keeps z0 x := ?_; clear_value x)
    | (extract_lets +onlyGivenNames x; refine isPart x (by constructor) ?_; subst x)
    | (extract_lets +onlyGivenNames x; clear_value x) | with_reducible apply ite_h | split | with_reducible apply drawNat_b
    | refine pair_b (by with_reducible assumption) ?_ | dsimp only [Keeps])

theorem runTimer_b (s : State) (hs : Keeps z0 s) : Keeps z0 (runTimer s) := by
  unfold runTimer
  repeat' (first
    | with_reducible assumption | intro _ | subst x
    | (extract_lets +onlyGivenNames x; have hx : Keeps z0 x := ?_; clear_value x)
    | (extract_lets +onlyGivenNames x; refine isPart x (by constructor) ?_; subst x)
    | (extract_lets +onlyGivenNames x; clear_value x) | with_reducible apply ite_h | split | with_reducible apply setChg_b
    | with_reducible apply arm_b | with_reducible apply disarm_b | dsimp only [Keeps])

theorem setPhase_b (p : Nat) (s : State) (hs : Keeps z0 s) : Keeps z0 (setPhase p s) := by
  unfold setPhase
  repeat' (first
    | with_reducible assumption | intro _ | subst x
    | (extract_lets +onlyGivenNames x; have hx : Keeps z0 x := ?_; clear_value x)
    | (extract_lets +onlyGivenNames x; refine isPart x (by constructor) ?_; subst x)
    | (extract_lets +onlyGivenNames x; clear_value x) | with_reducible apply ite_h | split | with_reducible apply runTimer_b
    | with_reducible apply setChg_b | with_reducible apply raiseG_b | dsimp only [Keeps])

theorem chgWatch_b (s : State) (hs : Keeps z0 s) : Keeps z0 (chgWatch s) := by
  unfold chgWatch
  repeat' (first
    | with_reducible assumption | intro _ | subst x
    | (extract_lets +onlyGivenNames x; have hx : Keeps z0 x := ?_; clear_value x)
    | (extract_lets +onlyGivenNames x; refine isPart x (by constructor) ?_; subst x)
    | (extract_lets +onlyGivenNames x; clear_value x) | with_reducible apply ite_h | split | with_reducible apply arm_b
    | with_reducible apply disarm_b | dsimp only [Keeps])

theorem chgSettle_b (s : State) (hs : Keeps z0 s) : Keeps z0 (chgSettle s) := by
  unfold chgSettle
  repeat' (first
    | with_reducible assumption | intro _ | subst x
    | (extract_lets +onlyGivenNames x; have hx : Keeps z0 x := ?_; clear_value x)
    | (extract_lets +onlyGivenNames x; refine isPart x (by constructor) ?_; subst x)
    | (extract_lets +onlyGivenNames x; clear_value x) | with_reducible apply ite_h | split | with_reducible apply chgWatch_b
    | with_reducible apply setPhase_b | with_reducible apply choosePhase_b | with_reducible apply setChg_b
    | refine pair_b (by with_reducible assumption) ?_ | dsimp only [Keeps])

theorem chgRestart_b (s : State) (hs : Keeps z0 s) : Keeps z0 (chgRestart s) := by
  unfold chgRestart
  repeat' (first
    | with_reducible assumption | intro _ | subst x
    | (extract_lets +onlyGivenNames x; have hx : Keeps z0 x := ?_; clear_value x)
    | (extract_lets +onlyGivenNames x; refine isPart x (by constructor) ?_; subst x)
    | (extract_lets +onlyGivenNames x; clear_value x) | with_reducible apply ite_h | split | with_reducible apply chgSettle_b
    | with_reducible apply setPhase_b | with_reducible apply choosePhase_b | with_reducible apply setChg_b
    | refine pair_b (by with_reducible assumption) ?_ | dsimp only [Keeps])

theorem chgClearFault_b (s : State) (hs : Keeps z0 s) : Keeps z0 (chgClearFault s) := by
  unfold chgClearFault
  repeat' (first
    | with_reducible assumption | intro _ | subst x
    | (extract_lets +onlyGivenNames x; have hx : Keeps z0 x := ?_; clear_value x)
    | (extract_lets +onlyGivenNames x; refine isPart x (by constructor) ?_; subst x)
    | (extract_lets +onlyGivenNames x; clear_value x) | with_reducible apply ite_h | split | with_reducible apply chgSettle_b
    | with_reducible apply setPhase_b | with_reducible apply setChg_b | dsimp only [Keeps])

theorem enqueueOnce_b (e : Instr) (s : State) (hs : Keeps z0 s) : Keeps z0 (enqueueOnce e s) := by
  unfold enqueueOnce
  repeat' (first
    | with_reducible assumption | intro _ | subst x
    | (extract_lets +onlyGivenNames x; have hx : Keeps z0 x := ?_; clear_value x)
    | (extract_lets +onlyGivenNames x; refine isPart x (by constructor) ?_; subst x)
    | (extract_lets +onlyGivenNames x; clear_value x) | with_reducible apply ite_h | split | with_reducible apply enqueue_b
    | dsimp only [Keeps])

theorem setSeq_b (f : Seq → Seq) (s : State) (hm : MapsFit (mapsOf s) → MapsFit (mapsOf { s with seq := f s.seq })) (hs : Keeps z0 s) :
    Keeps z0 (setSeq f s) := kept_maps hs hm

theorem slotEnd_b (st : Nat) (err : Byte) (res : List Byte) (s : State) (hs : Keeps z0 s) : Keeps z0 (slotEnd st err res s) :=
    by
  unfold slotEnd
  repeat' (first
    | with_reducible assumption | intro _ | subst x
    | (extract_lets +onlyGivenNames x; have hx : Keeps z0 x := ?_; clear_value x)
    | (extract_lets +onlyGivenNames x; refine isPart x (by constructor) ?_; subst x)
    | (extract_lets +onlyGivenNames x; clear_value x) | with_reducible apply ite_h | split | dsimp only [Keeps])

theorem rejectTxn_b (rsn : Byte) (cres : List Byte) (s : State) (hs : Keeps z0 s) : Keeps z0 (rejectTxn rsn cres s) := by
  unfold rejectTxn
  repeat' (first
    | with_reducible assumption | intro _ | subst x
    | (extract_lets +onlyGivenNames x; have hx : Keeps z0 x := ?_; clear_value x)
    | (extract_lets +onlyGivenNames x; refine isPart x (by constructor) ?_; subst x)
    | (extract_lets +onlyGivenNames x; clear_value x) | with_reducible apply ite_h | split | with_reducible apply slotEnd_b
    | with_reducible apply raiseG_b | dsimp only [Keeps])

theorem endCommit_b (c : Commit) (e : CommitEnd) (s : State) (hs : Keeps z0 s) : Keeps z0 (endCommit c e s) := by
  unfold endCommit
  repeat' (first
    | with_reducible assumption | intro _ | subst x
    | (extract_lets +onlyGivenNames x; have hx : Keeps z0 x := ?_; clear_value x)
    | (extract_lets +onlyGivenNames x; refine isPart x (by constructor) ?_; subst x)
    | (extract_lets +onlyGivenNames x; clear_value x) | with_reducible apply ite_h | split | with_reducible apply rejectTxn_b
    | with_reducible apply slotEnd_b | with_reducible apply raiseG_b | with_reducible apply logOther_b
    | with_reducible apply disarm_b | exact kept_noCommit (by with_reducible assumption) | dsimp only [Keeps])

theorem preempt_b (kind : Nat) (reach : Mask) (s : State) (hs : Keeps z0 s) : Keeps z0 (preempt kind reach s) := by
  unfold preempt
  repeat' (first
    | with_reducible assumption | intro _ | subst x
    | (extract_lets +onlyGivenNames x; have hx : Keeps z0 x := ?_; clear_value x)
    | (extract_lets +onlyGivenNames x; refine isPart x (by constructor) ?_; subst x)
    | (extract_lets +onlyGivenNames x; clear_value x) | with_reducible apply ite_h | split | with_reducible apply endCommit_b
    | dsimp only [Keeps])

theorem assertRst_b (x : Nat) (s : State) (hs : Keeps z0 s) : Keeps z0 (assertRst x s) := by
  unfold assertRst
  repeat' (first
    | with_reducible assumption | intro _ | subst x
    | (extract_lets +onlyGivenNames x; have hx : Keeps z0 x := ?_; clear_value x)
    | (extract_lets +onlyGivenNames x; refine isPart x (by constructor) ?_; subst x)
    | (extract_lets +onlyGivenNames x; clear_value x) | with_reducible apply ite_h | split | with_reducible apply disarm_b
    | dsimp only [Keeps])

theorem assertAll_b (s : State) (hs : Keeps z0 s) : Keeps z0 (assertAll s) := by
  unfold assertAll
  repeat' (first
    | with_reducible assumption | intro _ | subst x
    | (extract_lets +onlyGivenNames x; have hx : Keeps z0 x := ?_; clear_value x)
    | (extract_lets +onlyGivenNames x; refine isPart x (by constructor) ?_; subst x)
    | (extract_lets +onlyGivenNames x; clear_value x) | with_reducible apply ite_h | split | with_reducible apply assertRst_b
    | with_reducible apply foldl_b | dsimp only [Keeps])

theorem assertFor_b (m : Mask) (s : State) (hs : Keeps z0 s) : Keeps z0 (assertFor m s) := by
  unfold assertFor
  repeat' (first
    | with_reducible assumption | intro _ | subst x
    | (extract_lets +onlyGivenNames x; have hx : Keeps z0 x := ?_; clear_value x)
    | (extract_lets +onlyGivenNames x; refine isPart x (by constructor) ?_; subst x)
    | (extract_lets +onlyGivenNames x; clear_value x) | with_reducible apply ite_h | split | with_reducible apply assertRst_b
    | with_reducible apply foldl_b | dsimp only [Keeps])

theorem settleResets_b (s : State) (hs : Keeps z0 s) : Keeps z0 (settleResets s) := by
  unfold settleResets
  repeat' (first
    | with_reducible assumption | intro _ | subst x
    | (extract_lets +onlyGivenNames x; have hx : Keeps z0 x := ?_; clear_value x)
    | (extract_lets +onlyGivenNames x; refine isPart x (by constructor) ?_; subst x)
    | (extract_lets +onlyGivenNames x; clear_value x) | with_reducible apply ite_h | split | with_reducible apply arm_b
    | with_reducible apply disarm_b | with_reducible apply foldl_b | dsimp only [Keeps])

theorem wdStop_b (s : State) (hs : Keeps z0 s) : Keeps z0 (wdStop s) := by
  unfold wdStop
  repeat' (first
    | with_reducible assumption | intro _ | subst x
    | (extract_lets +onlyGivenNames x; have hx : Keeps z0 x := ?_; clear_value x)
    | (extract_lets +onlyGivenNames x; refine isPart x (by constructor) ?_; subst x)
    | (extract_lets +onlyGivenNames x; clear_value x) | with_reducible apply ite_h | split | with_reducible apply disarm_b
    | dsimp only [Keeps])

theorem wdArm_b (s : State) (hs : Keeps z0 s) : Keeps z0 (wdArm s) := by
  unfold wdArm
  repeat' (first
    | with_reducible assumption | intro _ | subst x
    | (extract_lets +onlyGivenNames x; have hx : Keeps z0 x := ?_; clear_value x)
    | (extract_lets +onlyGivenNames x; refine isPart x (by constructor) ?_; subst x)
    | (extract_lets +onlyGivenNames x; clear_value x) | with_reducible apply ite_h | split | with_reducible apply arm_b
    | dsimp only [Keeps])

theorem startRamp_b (r : Nat) (s : State) (hs : Keeps z0 s) : Keeps z0 (startRamp r s) := by
  unfold startRamp
  repeat' (first
    | with_reducible assumption | intro _ | subst x
    | (extract_lets +onlyGivenNames x; have hx : Keeps z0 x := ?_; clear_value x)
    | (extract_lets +onlyGivenNames x; refine isPart x (by constructor) ?_; subst x)
    | (extract_lets +onlyGivenNames x; clear_value x) | with_reducible apply ite_h | split | with_reducible apply arm_b
    | (refine kept_maps (by with_reducible assumption) ?_; exact fun w => { w with ramps := by dsimp only [mapsOf]; exact mwf_mput _ _ _ _ w.ramps })
    | dsimp only [Keeps])

theorem accountStrike_b (c : Nat) (dt : Nat) (s : State) (hs : Keeps z0 s) : Keeps z0 (accountStrike c dt s) := by
  unfold accountStrike
  repeat' (first
    | with_reducible assumption | intro _ | subst x
    | (extract_lets +onlyGivenNames x; have hx : Keeps z0 x := ?_; clear_value x)
    | (extract_lets +onlyGivenNames x; refine isPart x (by constructor) ?_; subst x)
    | (extract_lets +onlyGivenNames x; clear_value x) | with_reducible apply ite_h | split | with_reducible apply foldl_b
    | (refine kept_maps (by with_reducible assumption) ?_; exact fun w => { w with res := by dsimp only [mapsOf]; exact mwf_mput _ _ _ _ w.res })
    | dsimp only [Keeps])

theorem strikeOver_b (c : Nat) (s : State) (hs : Keeps z0 s) : Keeps z0 (strikeOver c s) := by
  unfold strikeOver
  repeat' (first
    | with_reducible assumption | intro _ | subst x
    | (extract_lets +onlyGivenNames x; have hx : Keeps z0 x := ?_; clear_value x)
    | (extract_lets +onlyGivenNames x; refine isPart x (by constructor) ?_; subst x)
    | (extract_lets +onlyGivenNames x; clear_value x) | with_reducible apply ite_h | split
    | with_reducible apply accountStrike_b | with_reducible apply disarm_b | dsimp only [Keeps])

theorem accountStrike_rl (c dt : Nat) (s : State) : (accountStrike c dt s).rl = s.rl := by
  have all : ∀ (g : State → Nat → State) (hg : ∀ u i, (g u i).rl = u.rl) (l : List Nat) (u : State), (l.foldl g u).rl = u.rl := by
    intro g hg l
    induction l with
    | nil => exact fun _ => rfl
    | cons x l ih => exact fun u => (ih _).trans (hg u x)
  unfold accountStrike
  dsimp only
  split
  · exact all _ (fun u i => by split <;> rfl) _ _
  · rfl
theorem strikeOver_rl (c : Nat) (s : State) : (strikeOver c s).rl = s.rl := by
  unfold strikeOver
  split
  · rfl
  · exact accountStrike_rl _ _ _
/-- The block's bits are cleared; the rail stays enabled or not, up or down. -/
theorem clearRail_rl (r : Nat) (s : State) : (clearRail r s).rl.en = s.rl.en ∧ (clearRail r s).rl.up = s.rl.up ∧
    (clearRail r s).rl.pg = s.rl.pg &&& ~~~(bit r) ∧ (clearRail r s).rl.qu = s.rl.qu &&& ~~~(bit r) := by
  unfold clearRail
  extract_lets +onlyGivenNames k c u
  have h : u.rl = s.rl := by
    simp only [u]
    split
    · exact strikeOver_rl _ _
    · rfl
  clear_value u
  refine ⟨?_, ?_, ?_, ?_⟩
  · have e := congrArg Rails.en h
    split <;> exact e
  · have e := congrArg Rails.up h
    split <;> exact e
  · have e := congrArg (fun x : Rails => x.pg &&& ~~~(bit r)) h
    split <;> exact e
  · have e := congrArg (fun x : Rails => x.qu &&& ~~~(bit r)) h
    split <;> exact e

theorem clearRail_b (r : Nat) (s : State) (hs : Keeps z0 s) : Keeps z0 (clearRail r s) := by
  unfold clearRail
  repeat' (first
    | with_reducible assumption | intro _ | subst x
    | (extract_lets +onlyGivenNames x; have hx : Keeps z0 x := ?_; clear_value x)
    | (extract_lets +onlyGivenNames x; refine isPart x (by constructor) ?_; subst x)
    | (extract_lets +onlyGivenNames x; clear_value x) | with_reducible apply ite_h | split | with_reducible apply strikeOver_b
    | with_reducible apply setLdo_b | with_reducible apply disarmAll_b
    | exact kept_rails (by with_reducible assumption) (fun h => railsFit_less h _)
    | (exact kept_maps (kept_rails hx fun h => railsFit_less h _) fun w => { w with ramps := by dsimp only [mapsOf]; exact mwf_mput _ _ _ _ w.ramps })
    | dsimp only [Keeps])

theorem breach_b (s : State) (hs : Keeps z0 s) : Keeps z0 (breach s) := by
  unfold breach
  repeat' (first
    | with_reducible assumption | intro _ | subst x
    | (extract_lets +onlyGivenNames x; have hx : Keeps z0 x := ?_; clear_value x)
    | (extract_lets +onlyGivenNames x; refine isPart x (by constructor) ?_; subst x)
    | (extract_lets +onlyGivenNames x; clear_value x) | with_reducible apply ite_h | split | with_reducible apply raiseG_b
    | dsimp only [Keeps])

theorem enableRail_b (r : Nat) (s : State) (hs : Keeps z0 s) : Keeps z0 (enableRail r s) := by
  have hk := clearRail_b r s hs
  have hq : has (clearRail r s).rl.qu r = false := by rw [(clearRail_rl r s).2.2.2]; exact has_not_bit _ _
  unfold enableRail
  extract_lets +onlyGivenNames b u x y v
  have hv : Keeps z0 v := kept_rails hk (fun h => railsFit_enable h hq)
  clear_value v
  repeat' (first
    | with_reducible assumption | intro _ | subst x
    | (extract_lets +onlyGivenNames x; have hx : Keeps z0 x := ?_; clear_value x)
    | (extract_lets +onlyGivenNames x; refine isPart x (by constructor) ?_; subst x)
    | (extract_lets +onlyGivenNames x; clear_value x) | with_reducible apply ite_h | split | with_reducible apply clearRail_b
    | with_reducible apply startRamp_b | with_reducible apply settleResets_b | with_reducible apply arm_b
    | with_reducible apply disarm_b | fail | dsimp only [Keeps])

theorem switchOff_b (q : Bool) (r : Nat) (s : State) (hs : Keeps z0 s) : Keeps z0 (switchOff q r s) := by
  unfold switchOff
  split
  · exact hs
  · extract_lets +onlyGivenNames b late u
    have hk : Keeps z0 u := clearRail_b r _ (ite_b (breach_b s hs) hs)
    have hp : has u.rl.pg r = false := by
      simp only [u]
      rw [(clearRail_rl r _).2.2.1]; exact has_not_bit _ _
    clear_value u
    extract_lets +onlyGivenNames gone x y z v
    have hv : Keeps z0 v := by
      have off : ∀ (c : Bool) (m : Mask) i, i ≠ r → has (if c then m &&& ~~~(bit r) else m) i = has m i := by
        intro c m i e
        cases c
        · rfl
        · exact has_not_bit_ne _ e
      have on : ∀ (c : Bool) (m : Mask) i, i ≠ r → has (if c then m ||| bit r else m) i = has m i := by
        intro c m i e
        cases c
        · rfl
        · exact (has_or _ _ _).trans (by rw [has_bit_ne e, Bool.or_false])
      exact kept_rails hk fun h => railsFit_off h hp (off _ _) (on _ _)
    clear_value v
    repeat' (first
      | with_reducible assumption | intro _ | subst x
      | (extract_lets +onlyGivenNames x; have hx : Keeps z0 x := ?_; clear_value x)
      | (extract_lets +onlyGivenNames x; refine isPart x (by constructor) ?_; subst x)
      | (extract_lets +onlyGivenNames x; clear_value x) | with_reducible apply ite_h | split | with_reducible apply breach_b
      | with_reducible apply clearRail_b | with_reducible apply chgSettle_b | with_reducible apply arm_b
      | with_reducible apply disarm_b | fail | dsimp only [Keeps])

theorem outputDown_b (r : Nat) (s : State) (hs : Keeps z0 s) : Keeps z0 (outputDown r s) := by
  unfold outputDown
  repeat' (first
    | with_reducible assumption | intro _ | subst x
    | (extract_lets +onlyGivenNames x; have hx : Keeps z0 x := ?_; clear_value x)
    | (extract_lets +onlyGivenNames x; refine isPart x (by constructor) ?_; subst x)
    | (extract_lets +onlyGivenNames x; clear_value x) | with_reducible apply ite_h | split | with_reducible apply foldl_b
    | dsimp only [Keeps])

theorem markDown_b (r : Nat) (s : State) (hr : has s.rl.en r = false) (hs : Keeps z0 s) : Keeps z0 (markDown r s) :=
  kept_rails (disarm_b (.quenchEnd (railF r) true) _ (disarm_b (.stoptmo (railF r)) _ (disarm_b (.railDown (railF r)) _ hs))) (fun h => railsFit_down h hr)

theorem fallbackMark_b (restart : Bool) (s : State) (hs : Keeps z0 s) : Keeps z0 (fallbackMark restart s) := by
  unfold fallbackMark
  repeat' (first
    | with_reducible assumption | intro _ | subst x
    | (extract_lets +onlyGivenNames x; have hx : Keeps z0 x := ?_; clear_value x)
    | (extract_lets +onlyGivenNames x; refine isPart x (by constructor) ?_; subst x)
    | (extract_lets +onlyGivenNames x; clear_value x) | with_reducible apply ite_h | split | with_reducible apply disarm_b
    | dsimp only [Keeps])

theorem fallback_b (s : State) (hs : Keeps z0 s) : Keeps z0 (fallback s) := by
  unfold fallback
  repeat' (first
    | with_reducible assumption | intro _ | subst x
    | (extract_lets +onlyGivenNames x; have hx : Keeps z0 x := ?_; clear_value x)
    | (extract_lets +onlyGivenNames x; refine isPart x (by constructor) ?_; subst x)
    | (extract_lets +onlyGivenNames x; clear_value x) | with_reducible apply ite_h | split | with_reducible apply fallbackMark_b
    | with_reducible apply causedRestart_b | dsimp only [Keeps])

theorem slpCommandEnd_b (code : Byte) (s : State) (hs : Keeps z0 s) : Keeps z0 (slpCommandEnd code s) := by
  unfold slpCommandEnd
  repeat' (first
    | with_reducible assumption | intro _ | subst x
    | (extract_lets +onlyGivenNames x; have hx : Keeps z0 x := ?_; clear_value x)
    | (extract_lets +onlyGivenNames x; refine isPart x (by constructor) ?_; subst x)
    | (extract_lets +onlyGivenNames x; clear_value x) | with_reducible apply ite_h | split | with_reducible apply slotEnd_b
    | dsimp only [Keeps])

theorem abortSleep_b (s : State) (hs : Keeps z0 s) : Keeps z0 (abortSleep s) := by
  unfold abortSleep
  repeat' (first
    | with_reducible assumption | intro _ | subst x
    | (extract_lets +onlyGivenNames x; have hx : Keeps z0 x := ?_; clear_value x)
    | (extract_lets +onlyGivenNames x; refine isPart x (by constructor) ?_; subst x)
    | (extract_lets +onlyGivenNames x; clear_value x) | with_reducible apply ite_h | split
    | with_reducible apply slpCommandEnd_b | with_reducible apply raiseG_b | dsimp only [Keeps])

theorem restartSet_b (m : Mask) (s : State) (hs : Keeps z0 s) : Keeps z0 (restartSet m s) := by
  unfold restartSet
  repeat' (first
    | with_reducible assumption | intro _ | subst x
    | (extract_lets +onlyGivenNames x; have hx : Keeps z0 x := ?_; clear_value x)
    | (extract_lets +onlyGivenNames x; refine isPart x (by constructor) ?_; subst x)
    | (extract_lets +onlyGivenNames x; clear_value x) | with_reducible apply ite_h | split | with_reducible apply tick_b
    | with_reducible apply arm_b | with_reducible apply foldl_b | dsimp only [Keeps])

theorem fwdCheck_b (s : State) (hs : Keeps z0 s) : Keeps z0 (fwdCheck s) := by
  unfold fwdCheck
  repeat' (first
    | with_reducible assumption | intro _ | subst x
    | (extract_lets +onlyGivenNames x; have hx : Keeps z0 x := ?_; clear_value x)
    | (extract_lets +onlyGivenNames x; refine isPart x (by constructor) ?_; subst x)
    | (extract_lets +onlyGivenNames x; clear_value x) | with_reducible apply ite_h | split | with_reducible apply fallback_b
    | with_reducible apply enterState_b | with_reducible apply arm_b | dsimp only [Keeps])

theorem stopEnd_b (s : State) (hs : Keeps z0 s) : Keeps z0 (stopEnd s) := by
  unfold stopEnd
  repeat' (first
    | with_reducible assumption | intro _ | subst x
    | (extract_lets +onlyGivenNames x; have hx : Keeps z0 x := ?_; clear_value x)
    | (extract_lets +onlyGivenNames x; refine isPart x (by constructor) ?_; subst x)
    | (extract_lets +onlyGivenNames x; clear_value x) | with_reducible apply ite_h | split | with_reducible apply abortSleep_b
    | with_reducible apply systemReset_b | with_reducible apply grant_b | with_reducible apply arm_b | dsimp only [Keeps])

theorem settleOn_b (s : State) (hs : Keeps z0 s) : Keeps z0 (settleOn s) := by
  unfold settleOn
  repeat' (first
    | with_reducible assumption | intro _ | subst x
    | (extract_lets +onlyGivenNames x; have hx : Keeps z0 x := ?_; clear_value x)
    | (extract_lets +onlyGivenNames x; refine isPart x (by constructor) ?_; subst x)
    | (extract_lets +onlyGivenNames x; clear_value x) | with_reducible apply ite_h | split | with_reducible apply enqueueOnce_b
    | with_reducible apply foldl_b | dsimp only [Keeps])

theorem settleOff_b (s : State) (hs : Keeps z0 s) : Keeps z0 (settleOff s) := by
  unfold settleOff
  repeat' (first
    | with_reducible assumption | intro _ | subst x
    | (extract_lets +onlyGivenNames x; have hx : Keeps z0 x := ?_; clear_value x)
    | (extract_lets +onlyGivenNames x; refine isPart x (by constructor) ?_; subst x)
    | (extract_lets +onlyGivenNames x; clear_value x) | with_reducible apply ite_h | split | with_reducible apply enqueueOnce_b
    | with_reducible apply foldl_b | dsimp only [Keeps])

theorem settleRetry_b (s : State) (r : Nat) (hs : Keeps z0 s) : Keeps z0 (settleRetry s r) := by
  unfold settleRetry
  repeat' (first
    | with_reducible assumption | intro _ | subst x
    | (extract_lets +onlyGivenNames x; have hx : Keeps z0 x := ?_; clear_value x)
    | (extract_lets +onlyGivenNames x; refine isPart x (by constructor) ?_; subst x)
    | (extract_lets +onlyGivenNames x; clear_value x) | with_reducible apply ite_h | split | with_reducible apply arm_b
    | dsimp only [Keeps])

theorem settleSafe_b (s : State) (hs : Keeps z0 s) : Keeps z0 (settleSafe s) := by
  unfold settleSafe
  repeat' (first
    | with_reducible assumption | intro _ | subst x
    | (extract_lets +onlyGivenNames x; have hx : Keeps z0 x := ?_; clear_value x)
    | (extract_lets +onlyGivenNames x; refine isPart x (by constructor) ?_; subst x)
    | (extract_lets +onlyGivenNames x; clear_value x) | with_reducible apply ite_h | split | with_reducible apply setSeq_b
    | with_reducible apply arm_b | dsimp only [Keeps])

theorem settle_b (s : State) (hs : Keeps z0 s) : Keeps z0 (settle s) := by
  unfold settle
  repeat' (first
    | with_reducible assumption | intro _ | subst x
    | (extract_lets +onlyGivenNames x; have hx : Keeps z0 x := ?_; clear_value x)
    | (extract_lets +onlyGivenNames x; refine isPart x (by constructor) ?_; subst x)
    | (extract_lets +onlyGivenNames x; clear_value x) | with_reducible apply ite_h | split | with_reducible apply settleSafe_b
    | with_reducible apply settleRetry_b | with_reducible apply settleOff_b | with_reducible apply settleOn_b
    | with_reducible apply stopEnd_b | with_reducible apply fwdCheck_b | with_reducible apply settleResets_b
    | with_reducible apply foldl_b | dsimp only [Keeps])

theorem floorRail_b (e : FloorEnt) (s : State) (hs : Keeps z0 s) : Keeps z0 (floorRail e s) := by
  unfold floorRail
  repeat' (first
    | with_reducible assumption | intro _ | subst x
    | (extract_lets +onlyGivenNames x; have hx : Keeps z0 x := ?_; clear_value x)
    | (extract_lets +onlyGivenNames x; refine isPart x (by constructor) ?_; subst x)
    | (extract_lets +onlyGivenNames x; clear_value x) | with_reducible apply ite_h | split | with_reducible apply putLive_b
    | dsimp only [Keeps])

theorem floorLoad_b (s : State) (hs : Keeps z0 s) : Keeps z0 (floorLoad s) := by
  unfold floorLoad
  repeat' (first
    | with_reducible assumption | intro _ | subst x
    | (extract_lets +onlyGivenNames x; have hx : Keeps z0 x := ?_; clear_value x)
    | (extract_lets +onlyGivenNames x; refine isPart x (by constructor) ?_; subst x)
    | (extract_lets +onlyGivenNames x; clear_value x) | with_reducible apply ite_h | split | with_reducible apply floorRail_b
    | with_reducible apply putLive_b | with_reducible apply foldl_b | dsimp only [Keeps])

theorem floorTake_b (s : State) (hs : Keeps z0 s) : Keeps z0 (floorTake s) := by
  unfold floorTake
  repeat' (first
    | with_reducible assumption | intro _ | subst x
    | (extract_lets +onlyGivenNames x; have hx : Keeps z0 x := ?_; clear_value x)
    | (extract_lets +onlyGivenNames x; refine isPart x (by constructor) ?_; subst x)
    | (extract_lets +onlyGivenNames x; clear_value x) | with_reducible apply ite_h | split | with_reducible apply floorLoad_b
    | with_reducible apply loadHLive_b
    | (refine kept_maps (by with_reducible assumption) ?_; exact fun w => { w with live := regsFit_nil })
    | dsimp only [Keeps])

theorem commonStart_b (s : State) (hs : Keeps z0 s) : Keeps z0 (commonStart s) := by
  unfold commonStart
  repeat' (first
    | with_reducible assumption | intro _ | subst x
    | (extract_lets +onlyGivenNames x; have hx : Keeps z0 x := ?_; clear_value x)
    | (extract_lets +onlyGivenNames x; refine isPart x (by constructor) ?_; subst x)
    | (extract_lets +onlyGivenNames x; clear_value x) | with_reducible apply ite_h | split | with_reducible apply floorTake_b
    | with_reducible apply settle_b | with_reducible apply assertAll_b | with_reducible apply chgRestart_b
    | with_reducible apply tick_b | with_reducible apply enterState_b | with_reducible apply arm_b
    | with_reducible apply disarm_b | with_reducible apply foldl_b
    | (refine kept_maps (by with_reducible assumption) ?_; exact fun w => { w with retries := rfl, rset := rfl })
    | dsimp only [Keeps])

theorem idleWatch_b (again : Bool) (s : State) (hs : Keeps z0 s) : Keeps z0 (idleWatch again s) := by
  unfold idleWatch
  repeat' (first
    | with_reducible assumption | intro _ | subst x
    | (extract_lets +onlyGivenNames x; have hx : Keeps z0 x := ?_; clear_value x)
    | (extract_lets +onlyGivenNames x; refine isPart x (by constructor) ?_; subst x)
    | (extract_lets +onlyGivenNames x; clear_value x) | with_reducible apply ite_h | split | with_reducible apply arm_b
    | with_reducible apply disarm_b | dsimp only [Keeps])

theorem idleStandby_b (s : State) (hs : Keeps z0 s) : Keeps z0 (idleStandby s) := by
  unfold idleStandby
  repeat' (first
    | with_reducible assumption | intro _ | subst x
    | (extract_lets +onlyGivenNames x; have hx : Keeps z0 x := ?_; clear_value x)
    | (extract_lets +onlyGivenNames x; refine isPart x (by constructor) ?_; subst x)
    | (extract_lets +onlyGivenNames x; clear_value x) | with_reducible apply ite_h | split | with_reducible apply idleWatch_b
    | with_reducible apply enterState_b | dsimp only [Keeps])

theorem decideStart_b (s : State) (hs : Keeps z0 s) : Keeps z0 (decideStart s) := by
  unfold decideStart
  repeat' (first
    | with_reducible assumption | intro _ | subst x
    | (extract_lets +onlyGivenNames x; have hx : Keeps z0 x := ?_; clear_value x)
    | (extract_lets +onlyGivenNames x; refine isPart x (by constructor) ?_; subst x)
    | (extract_lets +onlyGivenNames x; clear_value x) | with_reducible apply ite_h | split | with_reducible apply idleStandby_b
    | with_reducible apply commonStart_b | with_reducible apply enterState_b | dsimp only [Keeps])

theorem leaveSafe_b (s : State) (hs : Keeps z0 s) : Keeps z0 (leaveSafe s) := by
  unfold leaveSafe
  repeat' (first
    | with_reducible assumption | intro _ | subst x
    | (extract_lets +onlyGivenNames x; have hx : Keeps z0 x := ?_; clear_value x)
    | (extract_lets +onlyGivenNames x; refine isPart x (by constructor) ?_; subst x)
    | (extract_lets +onlyGivenNames x; clear_value x) | with_reducible apply ite_h | split | with_reducible apply commonStart_b
    | with_reducible apply raiseG_b | with_reducible apply disarmAll_b | dsimp only [Keeps])

theorem startCheck_b (s : State) (hs : Keeps z0 s) : Keeps z0 (startCheck s) := by
  unfold startCheck
  repeat' (first
    | with_reducible assumption | intro _ | subst x
    | (extract_lets +onlyGivenNames x; have hx : Keeps z0 x := ?_; clear_value x)
    | (extract_lets +onlyGivenNames x; refine isPart x (by constructor) ?_; subst x)
    | (extract_lets +onlyGivenNames x; clear_value x) | with_reducible apply ite_h | split | with_reducible apply leaveSafe_b
    | with_reducible apply commonStart_b | dsimp only [Keeps])

theorem becomePg_b (r : Nat) (s : State) (hr : has s.rl.en r = true) (hs : Keeps z0 s) : Keeps z0 (becomePg r s) := by
  unfold becomePg
  repeat' (first
    | with_reducible assumption | intro _ | subst x
    | (extract_lets +onlyGivenNames x; have hx : Keeps z0 x := ?_; clear_value x)
    | (extract_lets +onlyGivenNames x; refine isPart x (by constructor) ?_; subst x)
    | (extract_lets +onlyGivenNames x; clear_value x) | with_reducible apply ite_h | split | with_reducible apply settle_b
    | with_reducible apply chgSettle_b | with_reducible apply arm_b | with_reducible apply disarm_b
    | exact kept_rails hs (fun h => railsFit_good h hr) | dsimp only [Keeps])

theorem losePg_b (r : Nat) (s : State) (hs : Keeps z0 s) : Keeps z0 (losePg r s) := by
  unfold losePg
  repeat' (first
    | with_reducible assumption | intro _ | subst x
    | (extract_lets +onlyGivenNames x; have hx : Keeps z0 x := ?_; clear_value x)
    | (extract_lets +onlyGivenNames x; refine isPart x (by constructor) ?_; subst x)
    | (extract_lets +onlyGivenNames x; clear_value x) | with_reducible apply ite_h | split | with_reducible apply settleResets_b
    | with_reducible apply chgSettle_b | with_reducible apply raiseG_b | with_reducible apply disarm_b
    | exact kept_rails (by with_reducible assumption) (fun h => railsFit_lessPg h _) | dsimp only [Keeps])

theorem commonStop_b (complete : Bool) (s : State) (hs : Keeps z0 s) : Keeps z0 (commonStop complete s) := by
  unfold commonStop
  repeat' (first
    | with_reducible assumption | intro _ | subst x
    | (extract_lets +onlyGivenNames x; have hx : Keeps z0 x := ?_; clear_value x)
    | (extract_lets +onlyGivenNames x; refine isPart x (by constructor) ?_; subst x)
    | (extract_lets +onlyGivenNames x; clear_value x) | with_reducible apply ite_h | split | with_reducible apply settle_b
    | with_reducible apply wdStop_b | with_reducible apply assertAll_b | with_reducible apply preempt_b
    | with_reducible apply tick_b | with_reducible apply enterState_b | with_reducible apply disarmAll_b
    | with_reducible apply arm_b | with_reducible apply foldl_b
    | exact kept_rails (by with_reducible assumption) (fun h => railsFit_lessUp h _)
    | (exact kept_maps (kept_rails hx fun h => railsFit_lessUp h _) fun w => { w with rset := rfl })
    | dsimp only [Keeps])

theorem resume_b (s : State) (hs : Keeps z0 s) : Keeps z0 (resume s) := by
  unfold resume
  repeat' (first
    | with_reducible assumption | intro _ | subst x
    | (extract_lets +onlyGivenNames x; have hx : Keeps z0 x := ?_; clear_value x)
    | (extract_lets +onlyGivenNames x; refine isPart x (by constructor) ?_; subst x)
    | (extract_lets +onlyGivenNames x; clear_value x) | with_reducible apply ite_h | split | with_reducible apply settle_b
    | with_reducible apply restartSet_b | with_reducible apply chgRestart_b | with_reducible apply enterState_b
    | with_reducible apply disarmAll_b | dsimp only [Keeps])

theorem requestReset_b (c : RstCause) (s : State) (hs : Keeps z0 s) : Keeps z0 (requestReset c s) := by
  unfold requestReset
  repeat' (first
    | with_reducible assumption | intro _ | subst x
    | (extract_lets +onlyGivenNames x; have hx : Keeps z0 x := ?_; clear_value x)
    | (extract_lets +onlyGivenNames x; refine isPart x (by constructor) ?_; subst x)
    | (extract_lets +onlyGivenNames x; clear_value x) | with_reducible apply ite_h | split | with_reducible apply commonStop_b
    | with_reducible apply settle_b | with_reducible apply stopEnd_b | with_reducible apply systemReset_b | dsimp only [Keeps])

theorem eraseCfgPart_b (s : State) (hs : Keeps z0 s) : Keeps z0 (eraseCfgPart s) := by
  unfold eraseCfgPart
  repeat' (first
    | with_reducible assumption | intro _ | subst x
    | (extract_lets +onlyGivenNames x; have hx : Keeps z0 x := ?_; clear_value x)
    | (extract_lets +onlyGivenNames x; refine isPart x (by constructor) ?_; subst x)
    | (extract_lets +onlyGivenNames x; clear_value x) | with_reducible apply ite_h | split | with_reducible apply landNow_b
    | with_reducible apply dropBank_b | refine pair_b (by with_reducible assumption) ?_ | dsimp only [Keeps])

theorem fellEnd_b (s : State) (hs : Keeps z0 s) : Keeps z0 (fellEnd s) := by
  unfold fellEnd
  repeat' (first
    | with_reducible assumption | intro _ | subst x
    | (extract_lets +onlyGivenNames x; have hx : Keeps z0 x := ?_; clear_value x)
    | (extract_lets +onlyGivenNames x; refine isPart x (by constructor) ?_; subst x)
    | (extract_lets +onlyGivenNames x; clear_value x) | with_reducible apply ite_h | split | with_reducible apply raiseG_b
    | with_reducible apply logUpdate_b | with_reducible apply eraseCfgPart_b | with_reducible apply requestReset_b
    | dsimp only [Keeps])

theorem fellBack_b (s : State) (hs : Keeps z0 s) : Keeps z0 (fellBack s) := by
  unfold fellBack
  repeat' (first
    | with_reducible assumption | intro _ | subst x
    | (extract_lets +onlyGivenNames x; have hx : Keeps z0 x := ?_; clear_value x)
    | (extract_lets +onlyGivenNames x; refine isPart x (by constructor) ?_; subst x)
    | (extract_lets +onlyGivenNames x; clear_value x) | with_reducible apply ite_h | split | with_reducible apply fellEnd_b
    | with_reducible apply grant_b | dsimp only [Keeps])

theorem fellDone_b (s : State) (hs : Keeps z0 s) : Keeps z0 (fellDone s) := by
  unfold fellDone
  repeat' (first
    | with_reducible assumption | intro _ | subst x
    | (extract_lets +onlyGivenNames x; have hx : Keeps z0 x := ?_; clear_value x)
    | (extract_lets +onlyGivenNames x; refine isPart x (by constructor) ?_; subst x)
    | (extract_lets +onlyGivenNames x; clear_value x) | with_reducible apply ite_h | split | with_reducible apply fellEnd_b
    | with_reducible apply requestReset_b | with_reducible apply landNow_b | with_reducible apply logUpdate_b
    | with_reducible apply raiseG_b | with_reducible apply dropBank_b | refine pair_b (by with_reducible assumption) ?_
    | dsimp only [Keeps])

theorem switchOffSet_b (named : Mask) (quiet : Mask) (s : State) (hs : Keeps z0 s) : Keeps z0 (switchOffSet named quiet s) := by
  unfold switchOffSet
  repeat' (first
    | with_reducible assumption | intro _ | subst x
    | (extract_lets +onlyGivenNames x; have hx : Keeps z0 x := ?_; clear_value x)
    | (extract_lets +onlyGivenNames x; refine isPart x (by constructor) ?_; subst x)
    | (extract_lets +onlyGivenNames x; clear_value x) | with_reducible apply ite_h | split | with_reducible apply switchOff_b
    | with_reducible apply assertFor_b | with_reducible apply raiseG_b | with_reducible apply foldl_b | dsimp only [Keeps])

theorem cancelPending_b (m : Mask) (s : State) (hs : Keeps z0 s) : Keeps z0 (cancelPending m s) := by
  unfold cancelPending
  repeat' (first
    | with_reducible assumption | intro _ | subst x
    | (extract_lets +onlyGivenNames x; have hx : Keeps z0 x := ?_; clear_value x)
    | (extract_lets +onlyGivenNames x; refine isPart x (by constructor) ?_; subst x)
    | (extract_lets +onlyGivenNames x; clear_value x) | with_reducible apply ite_h | split | with_reducible apply disarm_b
    | with_reducible apply foldl_b
    | (refine kept_maps (by with_reducible assumption) ?_; exact fun w => { w with rset := mwf_cancel _ _ w.rset })
    | dsimp only [Keeps])

theorem setOff_b (m : Mask) (s : State) (hs : Keeps z0 s) : Keeps z0 (setOff m s) := by
  unfold setOff
  repeat' (first
    | with_reducible assumption | intro _ | subst x
    | (extract_lets +onlyGivenNames x; have hx : Keeps z0 x := ?_; clear_value x)
    | (extract_lets +onlyGivenNames x; refine isPart x (by constructor) ?_; subst x)
    | (extract_lets +onlyGivenNames x; clear_value x) | with_reducible apply ite_h | split
    | with_reducible apply cancelPending_b | with_reducible apply switchOffSet_b | with_reducible apply settle_b
    | with_reducible apply breach_b | with_reducible apply preempt_b | with_reducible apply raiseIf_b | dsimp only [Keeps])

theorem reactRetry_b (r : Nat) (s : State) (hs : Keeps z0 s) : Keeps z0 (reactRetry r s) := by
  unfold reactRetry
  extract_lets +onlyGivenNames d all back u1 q u2 stop q' u3 u4 u5 u6
  have h1 : Keeps z0 u1 := preempt_b _ _ _ hs
  have h2 : Keeps z0 u2 := kept_maps h1 fun w => { w with
    retries := show mwf 0 (mput 0 u1.seq.retries r (mget 0 u1.seq.retries r + 1)) = true from mwf_mput _ _ _ _ w.retries }
  have h3 : Keeps z0 u3 := h2
  have h4 : Keeps z0 u4 := foldl_b (fun s x h => disarm_b _ _ h) h3
  have h5 : Keeps z0 u5 := ite_b (breach_b _ h4) h4
  have h6 : Keeps z0 u6 := switchOffSet_b _ _ _ h5
  exact settle_b _ (ite_b h6 (kept_maps h6 fun w => { w with rset := mwf_mput _ _ _ _ w.rset }))

theorem noteReaction_b (r : Nat) (code : Nat) (kind : Nat) (src : Nat) (s : State) (hs : Keeps z0 s) : Keeps z0 (noteReaction r
    code kind src s) := by
  unfold noteReaction
  repeat' (first
    | with_reducible assumption | intro _ | subst x
    | (extract_lets +onlyGivenNames x; have hx : Keeps z0 x := ?_; clear_value x)
    | (extract_lets +onlyGivenNames x; refine isPart x (by constructor) ?_; subst x)
    | (extract_lets +onlyGivenNames x; clear_value x) | with_reducible apply ite_h | split | with_reducible apply snapshot_b
    | with_reducible apply arm_b | with_reducible apply disarm_b | dsimp only [Keeps])

theorem safePolicies_b (s : State) (hs : Keeps z0 s) : Keeps z0 (safePolicies s) := by
  unfold safePolicies
  repeat' (first
    | with_reducible assumption | intro _ | subst x
    | (extract_lets +onlyGivenNames x; have hx : Keeps z0 x := ?_; clear_value x)
    | (extract_lets +onlyGivenNames x; refine isPart x (by constructor) ?_; subst x)
    | (extract_lets +onlyGivenNames x; clear_value x) | with_reducible apply ite_h | split | with_reducible apply switchOff_b
    | with_reducible apply tick_b | with_reducible apply arm_b | with_reducible apply foldl_b | dsimp only [Keeps])

theorem safeOpen_b (s : State) (hs : Keeps z0 s) : Keeps z0 (safeOpen s) := by
  unfold safeOpen
  repeat' (first
    | with_reducible assumption | intro _ | subst x
    | (extract_lets +onlyGivenNames x; have hx : Keeps z0 x := ?_; clear_value x)
    | (extract_lets +onlyGivenNames x; refine isPart x (by constructor) ?_; subst x)
    | (extract_lets +onlyGivenNames x; clear_value x) | with_reducible apply ite_h | split | with_reducible apply raiseIf_b
    | with_reducible apply raiseG_b | with_reducible apply putPlain_b
    | exact kept_pilot (by with_reducible assumption) (fun g h => by cases h) | dsimp only [Keeps])

theorem enterSafe_b (b : Nat) (src : Nat) (s : State) (hs : Keeps z0 s) : Keeps z0 (enterSafe b src s) := by
  unfold enterSafe
  repeat' (first
    | with_reducible assumption | intro _ | subst x
    | (extract_lets +onlyGivenNames x; have hx : Keeps z0 x := ?_; clear_value x)
    | (extract_lets +onlyGivenNames x; refine isPart x (by constructor) ?_; subst x)
    | (extract_lets +onlyGivenNames x; clear_value x) | with_reducible apply ite_h | split | with_reducible apply safeOpen_b
    | with_reducible apply safePolicies_b | with_reducible apply settle_b | with_reducible apply slpCommandEnd_b
    | with_reducible apply fallback_b | with_reducible apply wdStop_b | with_reducible apply assertAll_b
    | with_reducible apply preempt_b | with_reducible apply snapshot_b | with_reducible apply enterState_b
    | with_reducible apply raiseG_b | with_reducible apply disarmAll_b | with_reducible apply disarm_b
    | (refine kept_maps (by with_reducible assumption) ?_; exact fun w => { w with rset := rfl })
    | dsimp only [Keeps])

theorem rxNote_b (x : Rx) (code : Nat) (spent : Bool) (s : State) (hs : Keeps z0 s) : Keeps z0 (rxNote x code spent s) := by
  unfold rxNote
  repeat' (first
    | with_reducible assumption | intro _ | subst x
    | (extract_lets +onlyGivenNames x; have hx : Keeps z0 x := ?_; clear_value x)
    | (extract_lets +onlyGivenNames x; refine isPart x (by constructor) ?_; subst x)
    | (extract_lets +onlyGivenNames x; clear_value x) | with_reducible apply ite_h | split | with_reducible apply noteReaction_b
    | with_reducible apply raiseIf_b | dsimp only [Keeps])

theorem reactTo_b (x : Rx) (s : State) (hs : Keeps z0 s) : Keeps z0 (reactTo x s) := by
  unfold reactTo
  repeat' (first
    | with_reducible assumption | intro _ | subst x
    | (extract_lets +onlyGivenNames x; have hx : Keeps z0 x := ?_; clear_value x)
    | (extract_lets +onlyGivenNames x; refine isPart x (by constructor) ?_; subst x)
    | (extract_lets +onlyGivenNames x; clear_value x) | with_reducible apply ite_h | split | with_reducible apply rxNote_b
    | with_reducible apply enterSafe_b | with_reducible apply reactRetry_b | with_reducible apply setOff_b
    | with_reducible apply requestReset_b | dsimp only [Keeps])

theorem reactSets_b (l : List Rx) (s : State) (hs : Keeps z0 s) : Keeps z0 (reactSets l s) := by
  unfold reactSets
  repeat' (first
    | with_reducible assumption | intro _ | subst x
    | (extract_lets +onlyGivenNames x; have hx : Keeps z0 x := ?_; clear_value x)
    | (extract_lets +onlyGivenNames x; refine isPart x (by constructor) ?_; subst x)
    | (extract_lets +onlyGivenNames x; clear_value x) | with_reducible apply ite_h | split | with_reducible apply rxNote_b
    | with_reducible apply setOff_b | with_reducible apply foldl_b | dsimp only [Keeps])

theorem takeStarts_b (l : List Rx) (s : State) (hs : Keeps z0 s) : Keeps z0 (takeStarts l s) := by
  unfold takeStarts
  repeat' (first
    | with_reducible assumption | intro _ | subst x
    | (extract_lets +onlyGivenNames x; have hx : Keeps z0 x := ?_; clear_value x)
    | (extract_lets +onlyGivenNames x; refine isPart x (by constructor) ?_; subst x)
    | (extract_lets +onlyGivenNames x; clear_value x) | with_reducible apply ite_h | split | with_reducible apply raise_b
    | with_reducible apply foldl_b | dsimp only [Keeps])

theorem reactAll_b (given : List Rx) (s : State) (hs : Keeps z0 s) : Keeps z0 (reactAll given s) := by
  unfold reactAll
  repeat' (first
    | with_reducible assumption | intro _ | subst x
    | (extract_lets +onlyGivenNames x; have hx : Keeps z0 x := ?_; clear_value x)
    | (extract_lets +onlyGivenNames x; refine isPart x (by constructor) ?_; subst x)
    | (extract_lets +onlyGivenNames x; clear_value x) | with_reducible apply ite_h | split
    | with_reducible apply takeStarts_b | with_reducible apply reactTo_b | with_reducible apply reactSets_b
    | with_reducible apply foldl_b | dsimp only [Keeps])

theorem react_b (r kind src : Nat) (on self : Bool) (s : State) (hs : Keeps z0 s) : Keeps z0 (react r kind src on self s) :=
  reactAll_b _ s hs

theorem ownOff_b (r : Nat) (s : State) (hs : Keeps z0 s) : Keeps z0 (ownOff r s) := by
  unfold ownOff
  repeat' (first
    | with_reducible assumption | intro _ | subst x
    | (extract_lets +onlyGivenNames x; have hx : Keeps z0 x := ?_; clear_value x)
    | (extract_lets +onlyGivenNames x; refine isPart x (by constructor) ?_; subst x)
    | (extract_lets +onlyGivenNames x; clear_value x) | with_reducible apply ite_h | split | with_reducible apply switchOff_b
    | with_reducible apply breach_b | with_reducible apply preempt_b | dsimp only [Keeps])

theorem wakeCheck_b (s : State) (hs : Keeps z0 s) : Keeps z0 (wakeCheck s) := by
  unfold wakeCheck
  repeat' (first
    | with_reducible assumption | intro _ | subst x
    | (extract_lets +onlyGivenNames x; have hx : Keeps z0 x := ?_; clear_value x)
    | (extract_lets +onlyGivenNames x; refine isPart x (by constructor) ?_; subst x)
    | (extract_lets +onlyGivenNames x; clear_value x) | with_reducible apply ite_h | split | with_reducible apply wdArm_b
    | with_reducible apply bootStart_b | with_reducible apply enterState_b | dsimp only [Keeps])

theorem raiseW_b (src : Nat) (s : State) (hs : Keeps z0 s) : Keeps z0 (raiseW src s) := by
  unfold raiseW
  repeat' (first
    | with_reducible assumption | intro _ | subst x
    | (extract_lets +onlyGivenNames x; have hx : Keeps z0 x := ?_; clear_value x)
    | (extract_lets +onlyGivenNames x; refine isPart x (by constructor) ?_; subst x)
    | (extract_lets +onlyGivenNames x; clear_value x) | with_reducible apply ite_h | split | with_reducible apply wakeCheck_b
    | with_reducible apply raise_b | dsimp only [Keeps])

theorem cancelKey_b (s : State) (hs : Keeps z0 s) : Keeps z0 (cancelKey s) := by
  unfold cancelKey
  repeat' (first
    | with_reducible assumption | intro _ | subst x
    | (extract_lets +onlyGivenNames x; have hx : Keeps z0 x := ?_; clear_value x)
    | (extract_lets +onlyGivenNames x; refine isPart x (by constructor) ?_; subst x)
    | (extract_lets +onlyGivenNames x; clear_value x) | with_reducible apply ite_h | split | with_reducible apply disarm_b
    | dsimp only [Keeps])

theorem nackAccess_b (s : State) (hs : Keeps z0 s) : Keeps z0 (nackAccess s) := by
  unfold nackAccess
  repeat' (first
    | with_reducible assumption | intro _ | subst x
    | (extract_lets +onlyGivenNames x; have hx : Keeps z0 x := ?_; clear_value x)
    | (extract_lets +onlyGivenNames x; refine isPart x (by constructor) ?_; subst x)
    | (extract_lets +onlyGivenNames x; clear_value x) | with_reducible apply ite_h | split | dsimp only [Keeps])

theorem ackAccess_b (s : State) (hs : Keeps z0 s) : Keeps z0 (ackAccess s) := by
  unfold ackAccess
  repeat' (first
    | with_reducible assumption | intro _ | subst x
    | (extract_lets +onlyGivenNames x; have hx : Keeps z0 x := ?_; clear_value x)
    | (extract_lets +onlyGivenNames x; refine isPart x (by constructor) ?_; subst x)
    | (extract_lets +onlyGivenNames x; clear_value x) | with_reducible apply ite_h | split | dsimp only [Keeps])

theorem onPage_b (p : Nat) (f : State → State) (s : State) (hf : ∀ (v0 : State), Keeps z0 v0 → Keeps z0 (f v0)) (hs : Keeps z0
    s) : Keeps z0 (onPage p f s) := by
  unfold onPage
  repeat' (first
    | with_reducible assumption | intro _ | subst x
    | (extract_lets +onlyGivenNames x; have hx : Keeps z0 x := ?_; clear_value x)
    | (extract_lets +onlyGivenNames x; refine isPart x (by constructor) ?_; subst x)
    | (extract_lets +onlyGivenNames x; clear_value x) | with_reducible apply ite_h | split | with_reducible apply ackAccess_b
    | with_reducible apply nackAccess_b | with_reducible apply cancelKey_b | with_reducible apply berrUnalloc_b
    | with_reducible apply hf | dsimp only [Keeps])

theorem onSleepPage_b (p : Nat) (f : State → State) (s : State) (hf : ∀ (v0 : State), Keeps z0 v0 → Keeps z0 (f v0)) (hs : Keeps
    z0 s) : Keeps z0 (onSleepPage p f s) := by
  unfold onSleepPage
  repeat' (first
    | with_reducible assumption | intro _ | subst x
    | (extract_lets +onlyGivenNames x; have hx : Keeps z0 x := ?_; clear_value x)
    | (extract_lets +onlyGivenNames x; refine isPart x (by constructor) ?_; subst x)
    | (extract_lets +onlyGivenNames x; clear_value x) | with_reducible apply ite_h | split | with_reducible apply onPage_b
    | with_reducible apply ackAccess_b | with_reducible apply hf | dsimp only [Keeps])

theorem onRead_b (p : Nat) (f : State → State) (s : State) (hf : ∀ (v0 : State), Keeps z0 v0 → Keeps z0 (f v0)) (hs : Keeps z0
    s) : Keeps z0 (onRead p f s) := by
  unfold onRead
  repeat' (first
    | with_reducible assumption | intro _ | subst x
    | (extract_lets +onlyGivenNames x; have hx : Keeps z0 x := ?_; clear_value x)
    | (extract_lets +onlyGivenNames x; refine isPart x (by constructor) ?_; subst x)
    | (extract_lets +onlyGivenNames x; clear_value x) | with_reducible apply ite_h | split | with_reducible apply ackAccess_b
    | with_reducible apply nackAccess_b | with_reducible apply berrUnalloc_b | with_reducible apply hf | dsimp only [Keeps])

theorem pecError_b (s : State) (hs : Keeps z0 s) : Keeps z0 (pecError s) := by
  unfold pecError
  repeat' (first
    | with_reducible assumption | intro _ | subst x
    | (extract_lets +onlyGivenNames x; have hx : Keeps z0 x := ?_; clear_value x)
    | (extract_lets +onlyGivenNames x; refine isPart x (by constructor) ?_; subst x)
    | (extract_lets +onlyGivenNames x; clear_value x) | with_reducible apply ite_h | split | with_reducible apply berrPec_b
    | with_reducible apply raiseG_b | dsimp only [Keeps])

theorem watchLoss_b (s : State) (hs : Keeps z0 s) : Keeps z0 (watchLoss s) := by
  unfold watchLoss
  repeat' (first
    | with_reducible assumption | intro _ | subst x
    | (extract_lets +onlyGivenNames x; have hx : Keeps z0 x := ?_; clear_value x)
    | (extract_lets +onlyGivenNames x; refine isPart x (by constructor) ?_; subst x)
    | (extract_lets +onlyGivenNames x; clear_value x) | with_reducible apply ite_h | split | with_reducible apply arm_b
    | dsimp only [Keeps])

theorem dropPower_b (s : State) (hs : Keeps z0 s) : Keeps z0 (dropPower s) :=
  { hs with
    rails := fun _ r => ⟨fun h => absurd h (by simp [dropPower, has]), fun h => absurd h (by simp [dropPower, has])⟩
    pilot := fun _ h => by cases h
    paths := fun _ => ⟨fun h => (nomatch h), fun h => (nomatch h)⟩
    maps := fun m => { hs.maps m with ramps := rfl } }

theorem execPowerOnReset_b (vsys : Nat) (vin : Nat) (ohms : Nat) (s : State) (hs : Keeps z0 s) : OutB z0 (execPowerOnReset vsys
    vin ohms s) := by
  unfold execPowerOnReset
  repeat' (first
    | with_reducible assumption | with_reducible apply out_b | intro _ | subst x
    | (extract_lets +onlyGivenNames x; have hx : Keeps z0 x := ?_; clear_value x)
    | (extract_lets +onlyGivenNames x; refine isPart x (by constructor) ?_; subst x)
    | (extract_lets +onlyGivenNames x; clear_value x) | with_reducible apply ite_h | split | with_reducible apply dropPower_b
    | with_reducible apply bootStart_b | dsimp only [Keeps])

theorem supplyLost_b (s : State) (hs : Keeps z0 s) : Keeps z0 (supplyLost s) := by
  unfold supplyLost
  split
  · exact hs
  · have hk := dropSlot_b _ (dropPower_b s hs)
    refine kept_maps (kept_log hk fun h => ⟨h.1, Nat.zero_le _, Nat.zero_le _⟩) fun w => ?_
    exact { w with sec := forgetMargins_wf _, capture := fun _ h => (nomatch h) }

theorem execLogicSupplySelect_b (rising : Bool) (vin : Nat) (s : State) (hs : Keeps z0 s) : OutB z0 (execLogicSupplySelect
    rising vin s) := by
  unfold execLogicSupplySelect
  repeat' (first
    | with_reducible assumption | with_reducible apply out_b | intro _ | subst x
    | (extract_lets +onlyGivenNames x; have hx : Keeps z0 x := ?_; clear_value x)
    | (extract_lets +onlyGivenNames x; refine isPart x (by constructor) ?_; subst x)
    | (extract_lets +onlyGivenNames x; clear_value x) | with_reducible apply ite_h | split | with_reducible apply supplyLost_b
    | dsimp only [Keeps])

theorem execLogicSupplyLoss_b (s : State) (hs : Keeps z0 s) : OutB z0 (execLogicSupplyLoss s) := by
  unfold execLogicSupplyLoss
  repeat' (first
    | with_reducible assumption | with_reducible apply out_b | intro _ | subst x
    | (extract_lets +onlyGivenNames x; have hx : Keeps z0 x := ?_; clear_value x)
    | (extract_lets +onlyGivenNames x; refine isPart x (by constructor) ?_; subst x)
    | (extract_lets +onlyGivenNames x; clear_value x) | with_reducible apply ite_h | split | with_reducible apply supplyLost_b
    | dsimp only [Keeps])

theorem execVaonOutOfWindow_b (out : Bool) (s : State) (hs : Keeps z0 s) : OutB z0 (execVaonOutOfWindow out s) := by
  unfold execVaonOutOfWindow
  repeat' (first
    | with_reducible assumption | with_reducible apply out_b | intro _ | subst x
    | (extract_lets +onlyGivenNames x; have hx : Keeps z0 x := ?_; clear_value x)
    | (extract_lets +onlyGivenNames x; refine isPart x (by constructor) ?_; subst x)
    | (extract_lets +onlyGivenNames x; clear_value x) | with_reducible apply ite_h | split | with_reducible apply arm_b
    | with_reducible apply dropPower_b | with_reducible apply watchLoss_b
    | exact kept_pilot (show Keeps z0 s by with_reducible assumption) (by exact id) | dsimp only [Keeps])

theorem rstkeyByte_b (v : Byte) (s : State) (hs : Keeps z0 s) : Keeps z0 (rstkeyByte v s) := by
  unfold rstkeyByte
  repeat' (first
    | with_reducible assumption | intro _ | subst x
    | (extract_lets +onlyGivenNames x; have hx : Keeps z0 x := ?_; clear_value x)
    | (extract_lets +onlyGivenNames x; refine isPart x (by constructor) ?_; subst x)
    | (extract_lets +onlyGivenNames x; clear_value x) | with_reducible apply ite_h | split | with_reducible apply cancelKey_b
    | with_reducible apply systemReset_b | with_reducible apply arm_b | dsimp only [Keeps])

theorem execRstkeyWrite_b (v : Byte) (s : State) (hs : Keeps z0 s) : OutB z0 (execRstkeyWrite v s) := by
  unfold execRstkeyWrite
  repeat' (first
    | with_reducible assumption | with_reducible apply out_b | intro _ | subst x
    | (extract_lets +onlyGivenNames x; have hx : Keeps z0 x := ?_; clear_value x)
    | (extract_lets +onlyGivenNames x; refine isPart x (by constructor) ?_; subst x)
    | (extract_lets +onlyGivenNames x; clear_value x) | with_reducible apply ite_h | split | with_reducible apply rstkeyByte_b
    | with_reducible apply ackAccess_b | with_reducible apply nackAccess_b | dsimp only [Keeps])

theorem execRstkeyCancel_b (s : State) (hs : Keeps z0 s) : OutB z0 (execRstkeyCancel s) := by
  unfold execRstkeyCancel
  repeat' (first
    | with_reducible assumption | with_reducible apply out_b | intro _ | subst x
    | (extract_lets +onlyGivenNames x; have hx : Keeps z0 x := ?_; clear_value x)
    | (extract_lets +onlyGivenNames x; refine isPart x (by constructor) ?_; subst x)
    | (extract_lets +onlyGivenNames x; clear_value x) | with_reducible apply ite_h | split | with_reducible apply cancelKey_b
    | dsimp only [Keeps])

theorem rstclrBit_b (s : State) (hs : Keeps z0 s) : Keeps z0 (rstclrBit s) := by
  unfold rstclrBit
  repeat' (first
    | with_reducible assumption | intro _ | subst x
    | (extract_lets +onlyGivenNames x; have hx : Keeps z0 x := ?_; clear_value x)
    | (extract_lets +onlyGivenNames x; refine isPart x (by constructor) ?_; subst x)
    | (extract_lets +onlyGivenNames x; clear_value x) | with_reducible apply ite_h | split | dsimp only [Keeps])

theorem busclrBit_b (s : State) (hs : Keeps z0 s) : Keeps z0 (busclrBit s) := by
  unfold busclrBit
  repeat' (first
    | with_reducible assumption | intro _ | subst x
    | (extract_lets +onlyGivenNames x; have hx : Keeps z0 x := ?_; clear_value x)
    | (extract_lets +onlyGivenNames x; refine isPart x (by constructor) ?_; subst x)
    | (extract_lets +onlyGivenNames x; clear_value x) | with_reducible apply ite_h | split | with_reducible apply buserr_b
    | dsimp only [Keeps])

theorem execRstclr_b (s : State) (hs : Keeps z0 s) : OutB z0 (execRstclr s) := by
  unfold execRstclr
  repeat' (first
    | with_reducible assumption | with_reducible apply out_b | intro _ | subst x
    | (extract_lets +onlyGivenNames x; have hx : Keeps z0 x := ?_; clear_value x)
    | (extract_lets +onlyGivenNames x; refine isPart x (by constructor) ?_; subst x)
    | (extract_lets +onlyGivenNames x; clear_value x) | with_reducible apply ite_h | split | with_reducible apply rstclrBit_b
    | with_reducible apply onPage_b | dsimp only [Keeps])

theorem execBusclr_b (s : State) (hs : Keeps z0 s) : OutB z0 (execBusclr s) := by
  unfold execBusclr
  repeat' (first
    | with_reducible assumption | with_reducible apply out_b | intro _ | subst x
    | (extract_lets +onlyGivenNames x; have hx : Keeps z0 x := ?_; clear_value x)
    | (extract_lets +onlyGivenNames x; refine isPart x (by constructor) ?_; subst x)
    | (extract_lets +onlyGivenNames x; clear_value x) | with_reducible apply ite_h | split | with_reducible apply busclrBit_b
    | with_reducible apply onPage_b | dsimp only [Keeps])

theorem plainByte_b (p : Nat) (o : Nat) (v : Byte) (s : State) (hs : Keeps z0 s) : Keeps z0 (plainByte p o v s) := by
  unfold plainByte
  repeat' (first
    | with_reducible assumption | intro _ | subst x
    | (extract_lets +onlyGivenNames x; have hx : Keeps z0 x := ?_; clear_value x)
    | (extract_lets +onlyGivenNames x; refine isPart x (by constructor) ?_; subst x)
    | (extract_lets +onlyGivenNames x; clear_value x) | with_reducible apply ite_h | split | with_reducible apply berrRsvenc_b
    | with_reducible apply putPlain_b | dsimp only [Keeps])

theorem plainWide_b (p : Nat) (f : Fd) (v : Nat) (s : State) (hs : Keeps z0 s) : Keeps z0 (plainWide p f v s) := by
  unfold plainWide
  repeat' (first
    | with_reducible assumption | intro _ | subst x
    | (extract_lets +onlyGivenNames x; have hx : Keeps z0 x := ?_; clear_value x)
    | (extract_lets +onlyGivenNames x; refine isPart x (by constructor) ?_; subst x)
    | (extract_lets +onlyGivenNames x; clear_value x) | with_reducible apply ite_h | split | with_reducible apply berrRsvenc_b
    | with_reducible apply putPlain_b | dsimp only [Keeps])

theorem takeSlot_b (op : Byte) (tag : Byte) (s : State) (hs : Keeps z0 s) : Keeps z0 (takeSlot op tag s) := by
  refine kept_commit hs fun h c e => ?_
  obtain ⟨d, hd, rfl⟩ := Option.map_eq_some_iff.mp e
  exact h d hd

theorem reject_b (err : Byte) (s : State) (hs : Keeps z0 s) : Keeps z0 (reject err s) := by
  unfold reject
  repeat' (first
    | with_reducible assumption | intro _ | subst x
    | (extract_lets +onlyGivenNames x; have hx : Keeps z0 x := ?_; clear_value x)
    | (extract_lets +onlyGivenNames x; refine isPart x (by constructor) ?_; subst x)
    | (extract_lets +onlyGivenNames x; clear_value x) | with_reducible apply ite_h | split | with_reducible apply slotEnd_b
    | dsimp only [Keeps])

theorem rejectOpen_b (s : State) (hs : Keeps z0 s) : Keeps z0 (rejectOpen s) := by
  unfold rejectOpen
  repeat' (first
    | with_reducible assumption | intro _ | subst x
    | (extract_lets +onlyGivenNames x; have hx : Keeps z0 x := ?_; clear_value x)
    | (extract_lets +onlyGivenNames x; refine isPart x (by constructor) ?_; subst x)
    | (extract_lets +onlyGivenNames x; clear_value x) | with_reducible apply ite_h | split | with_reducible apply slotEnd_b
    | with_reducible apply drawNat_b | refine pair_b (by with_reducible assumption) ?_ | dsimp only [Keeps])

theorem doneWith_b (res : List Byte) (s : State) (hs : Keeps z0 s) : Keeps z0 (doneWith res s) := by
  unfold doneWith
  repeat' (first
    | with_reducible assumption | intro _ | subst x
    | (extract_lets +onlyGivenNames x; have hx : Keeps z0 x := ?_; clear_value x)
    | (extract_lets +onlyGivenNames x; refine isPart x (by constructor) ?_; subst x)
    | (extract_lets +onlyGivenNames x; clear_value x) | with_reducible apply ite_h | split | with_reducible apply slotEnd_b
    | dsimp only [Keeps])

theorem slotError_b (err : Byte) (s : State) (hs : Keeps z0 s) : Keeps z0 (slotError err s) := by
  unfold slotError
  repeat' (first
    | with_reducible assumption | intro _ | subst x
    | (extract_lets +onlyGivenNames x; have hx : Keeps z0 x := ?_; clear_value x)
    | (extract_lets +onlyGivenNames x; refine isPart x (by constructor) ?_; subst x)
    | (extract_lets +onlyGivenNames x; clear_value x) | with_reducible apply ite_h | split | with_reducible apply slotEnd_b
    | dsimp only [Keeps])

theorem slotBusy_b (s : State) (hs : Keeps z0 s) : Keeps z0 (slotBusy s) := by
  unfold slotBusy
  repeat' (first
    | with_reducible assumption | intro _ | subst x
    | (extract_lets +onlyGivenNames x; have hx : Keeps z0 x := ?_; clear_value x)
    | (extract_lets +onlyGivenNames x; refine isPart x (by constructor) ?_; subst x)
    | (extract_lets +onlyGivenNames x; clear_value x) | with_reducible apply ite_h | split | dsimp only [Keeps])

theorem touchSession_b (s : State) (hs : Keeps z0 s) : Keeps z0 (touchSession s) := by
  unfold touchSession
  repeat' (first
    | with_reducible assumption | intro _ | subst x
    | (extract_lets +onlyGivenNames x; have hx : Keeps z0 x := ?_; clear_value x)
    | (extract_lets +onlyGivenNames x; refine isPart x (by constructor) ?_; subst x)
    | (extract_lets +onlyGivenNames x; clear_value x) | with_reducible apply ite_h | split | with_reducible apply arm_b
    | dsimp only [Keeps])

theorem packetGate_b (n : Nat) (taken : State → State) (s : State) (htaken : ∀ (v0 : State), Keeps z0 v0 → Keeps z0 (taken v0))
    (hs : Keeps z0 s) : Keeps z0 (packetGate n taken s) := by
  unfold packetGate
  repeat' (first
    | with_reducible assumption | intro _ | subst x
    | (extract_lets +onlyGivenNames x; have hx : Keeps z0 x := ?_; clear_value x)
    | (extract_lets +onlyGivenNames x; refine isPart x (by constructor) ?_; subst x)
    | (extract_lets +onlyGivenNames x; clear_value x) | with_reducible apply ite_h | split | with_reducible apply nackAccess_b
    | with_reducible apply berrRsvenc_b | with_reducible apply raiseG_b | with_reducible apply htaken | dsimp only [Keeps])

theorem packet_b (op : Byte) (priv : Bool) (p : Packet) (body : State → State) (s : State)
    (hbody : ∀ (v0 : State), Keeps z0 v0 → Keeps z0 (body v0)) (hs : Keeps z0 s) : Keeps z0 (packet op priv p body s) := by
  have run : ∀ u : State, Keeps z0 u → Keeps z0 (
      if p.n ≠ p.len.toNat + 3 then reject 0xF1 (takeSlot op p.tag (ackAccess u))
      else if priv && decide ((takeSlot op p.tag (ackAccess u)).bus.level = 0) then reject 0xF2 (takeSlot op p.tag (ackAccess u))
      else body (if priv then touchSession (takeSlot op p.tag (ackAccess u)) else takeSlot op p.tag (ackAccess u))) := by
    intro u hu
    have hk := takeSlot_b op p.tag _ (ackAccess_b _ hu)
    exact ite_b (reject_b _ _ hk) (ite_b (reject_b _ _ hk) (hbody _ (ite_b (touchSession_b _ hk) hk)))
  unfold packet
  exact ite_b (nackAccess_b _ hs) (ite_b (run _ hs) (packetGate_b _ _ _ run hs))

end Sys2Proof.Machine
end

