-- ==== Sys2Proof/Laws/KeepsB.lean ====
section
/-! SUPPORT. What every step keeps: the cycle, the input path, the rails, the pilot, the cell and the transactions, one lemma for each meaning. -/

set_option linter.unreachableTactic false
set_option linter.unusedTactic false
set_option linter.unusedVariables false

namespace Sys2Proof.Machine

open Sys2Proof

variable {z0 : State}

theorem toFree_b (s : State) (hs : Keeps z0 s) : Keeps z0 (toFree s) := by
  unfold toFree
  repeat' (first
    | with_reducible assumption | intro _ | subst x
    | (extract_lets +onlyGivenNames x; have hx : Keeps z0 x := ?_; clear_value x)
    | (extract_lets +onlyGivenNames x; refine isPart x (by constructor) ?_; subst x)
    | (extract_lets +onlyGivenNames x; clear_value x) | with_reducible apply ite_h | split | with_reducible apply raiseG_b
    | with_reducible apply disarm_b | dsimp only [Keeps])

theorem armWindow_b (s : State) (hs : Keeps z0 s) : Keeps z0 (armWindow s) := by
  unfold armWindow
  repeat' (first
    | with_reducible assumption | intro _ | subst x
    | (extract_lets +onlyGivenNames x; have hx : Keeps z0 x := ?_; clear_value x)
    | (extract_lets +onlyGivenNames x; refine isPart x (by constructor) ?_; subst x)
    | (extract_lets +onlyGivenNames x; clear_value x) | with_reducible apply ite_h | split | with_reducible apply arm_b
    | dsimp only [Keeps])

theorem toAcq_b (s : State) (hs : Keeps z0 s) : Keeps z0 (toAcq s) := by
  unfold toAcq
  repeat' (first
    | with_reducible assumption | intro _ | subst x
    | (extract_lets +onlyGivenNames x; have hx : Keeps z0 x := ?_; clear_value x)
    | (extract_lets +onlyGivenNames x; refine isPart x (by constructor) ?_; subst x)
    | (extract_lets +onlyGivenNames x; clear_value x) | with_reducible apply ite_h | split | with_reducible apply arm_b
    | with_reducible apply disarm_b | dsimp only [Keeps])

theorem toLock_b (s : State) (hs : Keeps z0 s) : Keeps z0 (toLock s) := by
  unfold toLock
  repeat' (first
    | with_reducible assumption | intro _ | subst x
    | (extract_lets +onlyGivenNames x; have hx : Keeps z0 x := ?_; clear_value x)
    | (extract_lets +onlyGivenNames x; refine isPart x (by constructor) ?_; subst x)
    | (extract_lets +onlyGivenNames x; clear_value x) | with_reducible apply ite_h | split | with_reducible apply armWindow_b
    | with_reducible apply enqueueOnce_b | with_reducible apply raiseG_b | with_reducible apply disarm_b | dsimp only [Keeps])

theorem acqMissed_b (s : State) (hs : Keeps z0 s) : Keeps z0 (acqMissed s) := by
  unfold acqMissed
  repeat' (first
    | with_reducible assumption | intro _ | subst x
    | (extract_lets +onlyGivenNames x; have hx : Keeps z0 x := ?_; clear_value x)
    | (extract_lets +onlyGivenNames x; refine isPart x (by constructor) ?_; subst x)
    | (extract_lets +onlyGivenNames x; clear_value x) | with_reducible apply ite_h | split | with_reducible apply toFree_b
    | dsimp only [Keeps])

theorem acceptAt_b (e : Int) (s : State) (hs : Keeps z0 s) : Keeps z0 (acceptAt e s) := by
  unfold acceptAt
  repeat' (first
    | with_reducible assumption | intro _ | subst x
    | (extract_lets +onlyGivenNames x; have hx : Keeps z0 x := ?_; clear_value x)
    | (extract_lets +onlyGivenNames x; refine isPart x (by constructor) ?_; subst x)
    | (extract_lets +onlyGivenNames x; clear_value x) | with_reducible apply ite_h | split | dsimp only [Keeps])

theorem rejectPulse_b (s : State) (hs : Keeps z0 s) : Keeps z0 (rejectPulse s) := by
  unfold rejectPulse
  repeat' (first
    | with_reducible assumption | intro _ | subst x
    | (extract_lets +onlyGivenNames x; have hx : Keeps z0 x := ?_; clear_value x)
    | (extract_lets +onlyGivenNames x; refine isPart x (by constructor) ?_; subst x)
    | (extract_lets +onlyGivenNames x; clear_value x) | with_reducible apply ite_h | split | with_reducible apply raiseG_b
    | dsimp only [Keeps])

theorem pulseFree_b (e : Int) (s : State) (hs : Keeps z0 s) : Keeps z0 (pulseFree e s) := by
  unfold pulseFree
  repeat' (first
    | with_reducible assumption | intro _ | subst x
    | (extract_lets +onlyGivenNames x; have hx : Keeps z0 x := ?_; clear_value x)
    | (extract_lets +onlyGivenNames x; refine isPart x (by constructor) ?_; subst x)
    | (extract_lets +onlyGivenNames x; clear_value x) | with_reducible apply ite_h | split | with_reducible apply rejectPulse_b
    | with_reducible apply acceptAt_b | with_reducible apply toAcq_b | dsimp only [Keeps])

theorem pulseAcq_b (rising : Bool) (e : Int) (s : State) (hs : Keeps z0 s) : Keeps z0 (pulseAcq rising e s) := by
  unfold pulseAcq
  repeat' (first
    | with_reducible assumption | intro _ | subst x
    | (extract_lets +onlyGivenNames x; have hx : Keeps z0 x := ?_; clear_value x)
    | (extract_lets +onlyGivenNames x; refine isPart x (by constructor) ?_; subst x)
    | (extract_lets +onlyGivenNames x; clear_value x) | with_reducible apply ite_h | split | with_reducible apply rejectPulse_b
    | with_reducible apply acceptAt_b | with_reducible apply acqMissed_b | with_reducible apply toLock_b
    | with_reducible apply arm_b | dsimp only [Keeps])

theorem pulseLock_b (e : Int) (s : State) (hs : Keeps z0 s) : Keeps z0 (pulseLock e s) := by
  unfold pulseLock
  repeat' (first
    | with_reducible assumption | intro _ | subst x
    | (extract_lets +onlyGivenNames x; have hx : Keeps z0 x := ?_; clear_value x)
    | (extract_lets +onlyGivenNames x; refine isPart x (by constructor) ?_; subst x)
    | (extract_lets +onlyGivenNames x; clear_value x) | with_reducible apply ite_h | split | with_reducible apply rejectPulse_b
    | with_reducible apply acceptAt_b | with_reducible apply toLock_b | with_reducible apply toAcq_b
    | with_reducible apply armWindow_b | with_reducible apply raiseG_b | dsimp only [Keeps])

theorem noteLevel_b (x : CycEdge) (s : State) (hs : Keeps z0 s) : Keeps z0 (noteLevel x s) := by
  unfold noteLevel
  repeat' (first
    | with_reducible assumption | intro _ | subst x
    | (extract_lets +onlyGivenNames x; have hx : Keeps z0 x := ?_; clear_value x)
    | (extract_lets +onlyGivenNames x; refine isPart x (by constructor) ?_; subst x)
    | (extract_lets +onlyGivenNames x; clear_value x) | with_reducible apply ite_h | split | dsimp only [Keeps])

theorem execCycPulse_b (x : CycEdge) (s : State) (hs : Keeps z0 s) : OutB z0 (execCycPulse x s) := by
  unfold execCycPulse
  repeat' (first
    | with_reducible assumption | with_reducible apply out_b | intro _ | subst x
    | (extract_lets +onlyGivenNames x; have hx : Keeps z0 x := ?_; clear_value x)
    | (extract_lets +onlyGivenNames x; refine isPart x (by constructor) ?_; subst x)
    | (extract_lets +onlyGivenNames x; clear_value x) | with_reducible apply ite_h | split | with_reducible apply noteLevel_b
    | with_reducible apply pulseLock_b | with_reducible apply pulseAcq_b | with_reducible apply pulseFree_b | dsimp only [Keeps])

theorem missPulse_b (s : State) (hs : Keeps z0 s) : Keeps z0 (missPulse s) := by
  unfold missPulse
  repeat' (first
    | with_reducible assumption | intro _ | subst x
    | (extract_lets +onlyGivenNames x; have hx : Keeps z0 x := ?_; clear_value x)
    | (extract_lets +onlyGivenNames x; refine isPart x (by constructor) ?_; subst x)
    | (extract_lets +onlyGivenNames x; clear_value x) | with_reducible apply ite_h | split | with_reducible apply armWindow_b
    | with_reducible apply toFree_b | with_reducible apply raiseG_b | with_reducible apply disarm_b | dsimp only [Keeps])

theorem execAcceptWindowClose_b (s : State) (hs : Keeps z0 s) : OutB z0 (execAcceptWindowClose s) := by
  unfold execAcceptWindowClose
  repeat' (first
    | with_reducible assumption | with_reducible apply out_b | intro _ | subst x
    | (extract_lets +onlyGivenNames x; have hx : Keeps z0 x := ?_; clear_value x)
    | (extract_lets +onlyGivenNames x; refine isPart x (by constructor) ?_; subst x)
    | (extract_lets +onlyGivenNames x; clear_value x) | with_reducible apply ite_h | split | with_reducible apply missPulse_b
    | dsimp only [Keeps])

theorem execAcqMissSpan_b (s : State) (hs : Keeps z0 s) : OutB z0 (execAcqMissSpan s) := by
  unfold execAcqMissSpan
  repeat' (first
    | with_reducible assumption | with_reducible apply out_b | intro _ | subst x
    | (extract_lets +onlyGivenNames x; have hx : Keeps z0 x := ?_; clear_value x)
    | (extract_lets +onlyGivenNames x; refine isPart x (by constructor) ?_; subst x)
    | (extract_lets +onlyGivenNames x; clear_value x) | with_reducible apply ite_h | split | with_reducible apply acqMissed_b
    | with_reducible apply arm_b | dsimp only [Keeps])

theorem execAcqtmo_b (s : State) (hs : Keeps z0 s) : OutB z0 (execAcqtmo s) := by
  unfold execAcqtmo
  repeat' (first
    | with_reducible assumption | with_reducible apply out_b | intro _ | subst x
    | (extract_lets +onlyGivenNames x; have hx : Keeps z0 x := ?_; clear_value x)
    | (extract_lets +onlyGivenNames x; refine isPart x (by constructor) ?_; subst x)
    | (extract_lets +onlyGivenNames x; clear_value x) | with_reducible apply ite_h | split | with_reducible apply raiseG_b
    | dsimp only [Keeps])

theorem exchangeBanks_b (s : State) (hs : Keeps z0 s) : Keeps z0 (exchangeBanks s) := by
  unfold exchangeBanks
  repeat' (first
    | with_reducible assumption | intro _ | subst x
    | (extract_lets +onlyGivenNames x; have hx : Keeps z0 x := ?_; clear_value x)
    | (extract_lets +onlyGivenNames x; refine isPart x (by constructor) ?_; subst x)
    | (extract_lets +onlyGivenNames x; clear_value x) | with_reducible apply ite_h | split | with_reducible apply raiseG_b
    | dsimp only [Keeps])

theorem armAngle0_b (s : State) (hs : Keeps z0 s) : Keeps z0 (armAngle0 s) := by
  unfold armAngle0
  repeat' (first
    | with_reducible assumption | intro _ | subst x
    | (extract_lets +onlyGivenNames x; have hx : Keeps z0 x := ?_; clear_value x)
    | (extract_lets +onlyGivenNames x; refine isPart x (by constructor) ?_; subst x)
    | (extract_lets +onlyGivenNames x; clear_value x) | with_reducible apply ite_h | split | dsimp only [Keeps])

theorem quietCheck_wf (bad runs : Bool) (m : Map SeqRes) (h : mwf {} m = true) : mwf {} (m.map (fun (k, r) =>
    (k, if r.qchk || r.lost then r else if runs then { r with qchk := true, qbad := bad } else { r with lost := true }))) = true := by
  refine mwf_map {} (fun r => if r.qchk || r.lost then r else if runs then { r with qchk := true, qbad := bad } else { r with lost := true })
    (fun r hr => ?_) m h
  split
  · exact hr
  · split
    · exact fun e => Bool.noConfusion (congrArg SeqRes.qchk e : true = false)
    · exact fun e => Bool.noConfusion (congrArg SeqRes.lost e : true = false)

theorem quietCheck_b (s : State) (hs : Keeps z0 s) : Keeps z0 (quietCheck s) :=
  kept_maps hs fun w => { w with hkres := quietCheck_wf (decide (quietstat s ≠ 0)) (fwRuns s) _ w.hkres }

theorem angle0Defaults_b (s : State) (hs : Keeps z0 s) : Keeps z0 (angle0Defaults s) := by
  unfold angle0Defaults
  repeat' (first
    | with_reducible assumption | intro _ | subst x
    | (extract_lets +onlyGivenNames x; have hx : Keeps z0 x := ?_; clear_value x)
    | (extract_lets +onlyGivenNames x; refine isPart x (by constructor) ?_; subst x)
    | (extract_lets +onlyGivenNames x; clear_value x) | with_reducible apply ite_h | split | with_reducible apply enqueueOnce_b
    | with_reducible apply enqueue_b | dsimp only [Keeps])

theorem quietWrap_b (s : State) (hs : Keeps z0 s) : Keeps z0 (quietWrap s) := by
  unfold quietWrap
  repeat' (first
    | with_reducible assumption | intro _ | subst x
    | (extract_lets +onlyGivenNames x; have hx : Keeps z0 x := ?_; clear_value x)
    | (extract_lets +onlyGivenNames x; refine isPart x (by constructor) ?_; subst x)
    | (extract_lets +onlyGivenNames x; clear_value x) | with_reducible apply ite_h | split | with_reducible apply breach_b
    | dsimp only [Keeps])

theorem cycleWrap_b (s : State) (hs : Keeps z0 s) : Keeps z0 (cycleWrap s) := by
  unfold cycleWrap
  repeat' (first
    | with_reducible assumption | intro _ | subst x
    | (extract_lets +onlyGivenNames x; have hx : Keeps z0 x := ?_; clear_value x)
    | (extract_lets +onlyGivenNames x; refine isPart x (by constructor) ?_; subst x)
    | (extract_lets +onlyGivenNames x; clear_value x) | with_reducible apply ite_h | split | with_reducible apply quietWrap_b
    | with_reducible apply angle0Defaults_b | with_reducible apply quietCheck_b | with_reducible apply armAngle0_b
    | with_reducible apply exchangeBanks_b | with_reducible apply enqueueOnce_b | with_reducible apply raiseIf_b
    | dsimp only [Keeps])

theorem execCycleEnd_b (s : State) (hs : Keeps z0 s) : OutB z0 (execCycleEnd s) := by
  unfold execCycleEnd
  repeat' (first
    | with_reducible assumption | with_reducible apply out_b | intro _ | subst x
    | (extract_lets +onlyGivenNames x; have hx : Keeps z0 x := ?_; clear_value x)
    | (extract_lets +onlyGivenNames x; refine isPart x (by constructor) ?_; subst x)
    | (extract_lets +onlyGivenNames x; clear_value x) | with_reducible apply ite_h | split | with_reducible apply cycleWrap_b
    | dsimp only [Keeps])

theorem execCyccntRead_b (s : State) (hs : Keeps z0 s) : OutB z0 (execCyccntRead s) := by
  unfold execCyccntRead
  repeat' (first
    | with_reducible assumption | with_reducible apply out_b | intro _ | subst x
    | (extract_lets +onlyGivenNames x; have hx : Keeps z0 x := ?_; clear_value x)
    | (extract_lets +onlyGivenNames x; refine isPart x (by constructor) ?_; subst x)
    | (extract_lets +onlyGivenNames x; clear_value x) | with_reducible apply ite_h | split | with_reducible apply onRead_b
    | dsimp only [Keeps])

theorem execReacq_b (s : State) (hs : Keeps z0 s) : OutB z0 (execReacq s) := by
  unfold execReacq
  repeat' (first
    | with_reducible assumption | with_reducible apply out_b | intro _ | subst x
    | (extract_lets +onlyGivenNames x; have hx : Keeps z0 x := ?_; clear_value x)
    | (extract_lets +onlyGivenNames x; refine isPart x (by constructor) ?_; subst x)
    | (extract_lets +onlyGivenNames x; clear_value x) | with_reducible apply ite_h | split | with_reducible apply toFree_b
    | with_reducible apply onPage_b | dsimp only [Keeps])

theorem cyccfgByte_b (v : Byte) (s : State) (hs : Keeps z0 s) : Keeps z0 (cyccfgByte v s) := by
  unfold cyccfgByte
  repeat' (first
    | with_reducible assumption | intro _ | subst x
    | (extract_lets +onlyGivenNames x; have hx : Keeps z0 x := ?_; clear_value x)
    | (extract_lets +onlyGivenNames x; refine isPart x (by constructor) ?_; subst x)
    | (extract_lets +onlyGivenNames x; clear_value x) | with_reducible apply ite_h | split | with_reducible apply toFree_b
    | with_reducible apply plainByte_b | dsimp only [Keeps])

theorem execCyccfgWrite_b (v : Byte) (s : State) (hs : Keeps z0 s) : OutB z0 (execCyccfgWrite v s) := by
  unfold execCyccfgWrite
  repeat' (first
    | with_reducible assumption | with_reducible apply out_b | intro _ | subst x
    | (extract_lets +onlyGivenNames x; have hx : Keeps z0 x := ?_; clear_value x)
    | (extract_lets +onlyGivenNames x; refine isPart x (by constructor) ?_; subst x)
    | (extract_lets +onlyGivenNames x; clear_value x) | with_reducible apply ite_h | split | with_reducible apply cyccfgByte_b
    | with_reducible apply onPage_b | dsimp only [Keeps])

theorem nomfreqWord_b (v : Word) (s : State) (hs : Keeps z0 s) : Keeps z0 (nomfreqWord v s) := by
  unfold nomfreqWord
  repeat' (first
    | with_reducible assumption | intro _ | subst x
    | (extract_lets +onlyGivenNames x; have hx : Keeps z0 x := ?_; clear_value x)
    | (extract_lets +onlyGivenNames x; refine isPart x (by constructor) ?_; subst x)
    | (extract_lets +onlyGivenNames x; clear_value x) | with_reducible apply ite_h | split | with_reducible apply plainWide_b
    | dsimp only [Keeps])

theorem execNomfreqWrite_b (v : Word) (s : State) (hs : Keeps z0 s) : OutB z0 (execNomfreqWrite v s) := by
  unfold execNomfreqWrite
  repeat' (first
    | with_reducible assumption | with_reducible apply out_b | intro _ | subst x
    | (extract_lets +onlyGivenNames x; have hx : Keeps z0 x := ?_; clear_value x)
    | (extract_lets +onlyGivenNames x; refine isPart x (by constructor) ?_; subst x)
    | (extract_lets +onlyGivenNames x; clear_value x) | with_reducible apply ite_h | split | with_reducible apply nomfreqWord_b
    | with_reducible apply onPage_b | dsimp only [Keeps])

theorem schIdxNext_b (s : State) (hs : Keeps z0 s) : Keeps z0 (schIdxNext s) := by
  unfold schIdxNext
  repeat' (first
    | with_reducible assumption | intro _ | subst x
    | (extract_lets +onlyGivenNames x; have hx : Keeps z0 x := ?_; clear_value x)
    | (extract_lets +onlyGivenNames x; refine isPart x (by constructor) ?_; subst x)
    | (extract_lets +onlyGivenNames x; clear_value x) | with_reducible apply ite_h | split | with_reducible apply putPlain_b
    | dsimp only [Keeps])

theorem actBank_wf {s : State} (w : MapsFit (mapsOf s)) : mwf 0 (actBank s) = true := mwf_ite w.bankB w.bankA
theorem editBank_wf {s : State} (w : MapsFit (mapsOf s)) : mwf 0 (editBank s) = true := mwf_ite w.bankA w.bankB

theorem setEdit_b (b : Map (BitVec 32)) (s : State) (hb : MapsFit (mapsOf s) → mwf 0 b = true) (hs : Keeps z0 s) : Keeps z0 (setEdit b s) := by
  unfold setEdit
  split
  · exact kept_maps hs fun w => { w with bankA := hb w }
  · exact kept_maps hs fun w => { w with bankB := hb w }

theorem setEdit_z (b : Map (BitVec 32)) (s : State) (hb : MapsSound z0 → mwf 0 b = true) (hs : Keeps z0 s) : Keeps z0 (setEdit b s) := by
  unfold setEdit
  split
  · exact kept_maps' hs fun m w => { w with bankA := hb m }
  · exact kept_maps' hs fun m w => { w with bankB := hb m }

theorem schent3Byte_b (v : Byte) (s : State) (hs : Keeps z0 s) : Keeps z0 (schent3Byte v s) := by
  unfold schent3Byte
  repeat' (first
    | with_reducible assumption | intro _ | subst x
    | (extract_lets +onlyGivenNames x; have hx : Keeps z0 x := ?_; clear_value x)
    | (extract_lets +onlyGivenNames x; refine isPart x (by constructor) ?_; subst x)
    | (extract_lets +onlyGivenNames x; clear_value x) | with_reducible apply ite_h | split
    | with_reducible apply schIdxNext_b | with_reducible apply berrRorsv_b | with_reducible apply putPlain_b
    | (refine setEdit_b _ _ (fun w => mwf_mput _ _ _ _ (editBank_wf w)) ?_)
    | dsimp only [Keeps])

theorem execSchent3Write_b (v : Byte) (s : State) (hs : Keeps z0 s) : OutB z0 (execSchent3Write v s) := by
  unfold execSchent3Write
  repeat' (first
    | with_reducible assumption | with_reducible apply out_b | intro _ | subst x
    | (extract_lets +onlyGivenNames x; have hx : Keeps z0 x := ?_; clear_value x)
    | (extract_lets +onlyGivenNames x; refine isPart x (by constructor) ?_; subst x)
    | (extract_lets +onlyGivenNames x; clear_value x) | with_reducible apply ite_h | split | with_reducible apply schent3Byte_b
    | with_reducible apply onPage_b | dsimp only [Keeps])

theorem execSchent3Read_b (s : State) (hs : Keeps z0 s) : OutB z0 (execSchent3Read s) := by
  unfold execSchent3Read
  repeat' (first
    | with_reducible assumption | with_reducible apply out_b | intro _ | subst x
    | (extract_lets +onlyGivenNames x; have hx : Keeps z0 x := ?_; clear_value x)
    | (extract_lets +onlyGivenNames x; refine isPart x (by constructor) ?_; subst x)
    | (extract_lets +onlyGivenNames x; clear_value x) | with_reducible apply ite_h | split | with_reducible apply schIdxNext_b
    | with_reducible apply onRead_b | dsimp only [Keeps])

theorem schSwap_b (s : State) (hs : Keeps z0 s) : Keeps z0 (schSwap s) := by
  unfold schSwap
  repeat' (first
    | with_reducible assumption | intro _ | subst x
    | (extract_lets +onlyGivenNames x; have hx : Keeps z0 x := ?_; clear_value x)
    | (extract_lets +onlyGivenNames x; refine isPart x (by constructor) ?_; subst x)
    | (extract_lets +onlyGivenNames x; clear_value x) | with_reducible apply ite_h | split | with_reducible apply berrRorsv_b
    | dsimp only [Keeps])

theorem schCopy_b (s : State) (hs : Keeps z0 s) : Keeps z0 (schCopy s) := by
  unfold schCopy
  repeat' (first
    | with_reducible assumption | intro _ | subst x
    | (extract_lets +onlyGivenNames x; have hx : Keeps z0 x := ?_; clear_value x)
    | (extract_lets +onlyGivenNames x; refine isPart x (by constructor) ?_; subst x)
    | (extract_lets +onlyGivenNames x; clear_value x) | with_reducible apply ite_h | split
    | with_reducible apply berrRorsv_b
    | (refine setEdit_b _ _ (fun w => actBank_wf w) ?_)
    | dsimp only [Keeps])

theorem schClear_b (s : State) (hs : Keeps z0 s) : Keeps z0 (schClear s) := by
  unfold schClear
  repeat' (first
    | with_reducible assumption | intro _ | subst x
    | (extract_lets +onlyGivenNames x; have hx : Keeps z0 x := ?_; clear_value x)
    | (extract_lets +onlyGivenNames x; refine isPart x (by constructor) ?_; subst x)
    | (extract_lets +onlyGivenNames x; clear_value x) | with_reducible apply ite_h | split
    | with_reducible apply berrRorsv_b
    | (refine setEdit_b _ _ (fun _ => rfl) ?_)
    | dsimp only [Keeps])

theorem execSchctlSwap_b (s : State) (hs : Keeps z0 s) : OutB z0 (execSchctlSwap s) := by
  unfold execSchctlSwap
  repeat' (first
    | with_reducible assumption | with_reducible apply out_b | intro _ | subst x
    | (extract_lets +onlyGivenNames x; have hx : Keeps z0 x := ?_; clear_value x)
    | (extract_lets +onlyGivenNames x; refine isPart x (by constructor) ?_; subst x)
    | (extract_lets +onlyGivenNames x; clear_value x) | with_reducible apply ite_h | split | with_reducible apply schSwap_b
    | with_reducible apply onPage_b | dsimp only [Keeps])

theorem execSchctlCopy_b (s : State) (hs : Keeps z0 s) : OutB z0 (execSchctlCopy s) := by
  unfold execSchctlCopy
  repeat' (first
    | with_reducible assumption | with_reducible apply out_b | intro _ | subst x
    | (extract_lets +onlyGivenNames x; have hx : Keeps z0 x := ?_; clear_value x)
    | (extract_lets +onlyGivenNames x; refine isPart x (by constructor) ?_; subst x)
    | (extract_lets +onlyGivenNames x; clear_value x) | with_reducible apply ite_h | split | with_reducible apply schCopy_b
    | with_reducible apply onPage_b | dsimp only [Keeps])

theorem execSchctlClear_b (s : State) (hs : Keeps z0 s) : OutB z0 (execSchctlClear s) := by
  unfold execSchctlClear
  repeat' (first
    | with_reducible assumption | with_reducible apply out_b | intro _ | subst x
    | (extract_lets +onlyGivenNames x; have hx : Keeps z0 x := ?_; clear_value x)
    | (extract_lets +onlyGivenNames x; refine isPart x (by constructor) ?_; subst x)
    | (extract_lets +onlyGivenNames x; clear_value x) | with_reducible apply ite_h | split | with_reducible apply schClear_b
    | with_reducible apply onPage_b | dsimp only [Keeps])

theorem schValidated_b (s : State) (hs : Keeps z0 s) : Keeps z0 (schValidated s) := by
  unfold schValidated
  repeat' (first
    | with_reducible assumption | intro _ | subst x
    | (extract_lets +onlyGivenNames x; have hx : Keeps z0 x := ?_; clear_value x)
    | (extract_lets +onlyGivenNames x; refine isPart x (by constructor) ?_; subst x)
    | (extract_lets +onlyGivenNames x; clear_value x) | with_reducible apply ite_h | split | with_reducible apply raiseG_b
    | dsimp only [Keeps])

theorem execScheduleValidationEnd_b (s : State) (hs : Keeps z0 s) : OutB z0 (execScheduleValidationEnd s) := by
  unfold execScheduleValidationEnd
  repeat' (first
    | with_reducible assumption | with_reducible apply out_b | intro _ | subst x
    | (extract_lets +onlyGivenNames x; have hx : Keeps z0 x := ?_; clear_value x)
    | (extract_lets +onlyGivenNames x; refine isPart x (by constructor) ?_; subst x)
    | (extract_lets +onlyGivenNames x; clear_value x) | with_reducible apply ite_h | split | with_reducible apply schValidated_b
    | dsimp only [Keeps])

theorem quietOpen_b (len : Nat) (s : State) (hs : Keeps z0 s) : Keeps z0 (quietOpen len s) := by
  unfold quietOpen
  repeat' (first
    | with_reducible assumption | intro _ | subst x
    | (extract_lets +onlyGivenNames x; have hx : Keeps z0 x := ?_; clear_value x)
    | (extract_lets +onlyGivenNames x; refine isPart x (by constructor) ?_; subst x)
    | (extract_lets +onlyGivenNames x; clear_value x) | with_reducible apply ite_h | split | with_reducible apply raiseG_b
    | with_reducible apply arm_b | dsimp only [Keeps])

theorem quietNoted_b (s : State) (hs : Keeps z0 s) : Keeps z0 (quietNoted s) := by
  unfold quietNoted
  repeat' (first
    | with_reducible assumption | intro _ | subst x
    | (extract_lets +onlyGivenNames x; have hx : Keeps z0 x := ?_; clear_value x)
    | (extract_lets +onlyGivenNames x; refine isPart x (by constructor) ?_; subst x)
    | (extract_lets +onlyGivenNames x; clear_value x) | with_reducible apply ite_h | split | dsimp only [Keeps])

theorem execQuiet_b (len : Byte) (s : State) (hs : Keeps z0 s) : OutB z0 (execQuiet len s) := by
  unfold execQuiet
  repeat' (first
    | with_reducible assumption | with_reducible apply out_b | intro _ | subst x
    | (extract_lets +onlyGivenNames x; have hx : Keeps z0 x := ?_; clear_value x)
    | (extract_lets +onlyGivenNames x; refine isPart x (by constructor) ?_; subst x)
    | (extract_lets +onlyGivenNames x; clear_value x) | with_reducible apply ite_h | split | with_reducible apply quietNoted_b
    | with_reducible apply quietOpen_b | dsimp only [Keeps])

theorem quietClose_b (s : State) (hs : Keeps z0 s) : Keeps z0 (quietClose s) := by
  unfold quietClose
  repeat' (first
    | with_reducible assumption | intro _ | subst x
    | (extract_lets +onlyGivenNames x; have hx : Keeps z0 x := ?_; clear_value x)
    | (extract_lets +onlyGivenNames x; refine isPart x (by constructor) ?_; subst x)
    | (extract_lets +onlyGivenNames x; clear_value x) | with_reducible apply ite_h | split | with_reducible apply disarm_b
    | dsimp only [Keeps])

theorem execQuietEnd_b (s : State) (hs : Keeps z0 s) : OutB z0 (execQuietEnd s) := by
  unfold execQuietEnd
  repeat' (first
    | with_reducible assumption | with_reducible apply out_b | intro _ | subst x
    | (extract_lets +onlyGivenNames x; have hx : Keeps z0 x := ?_; clear_value x)
    | (extract_lets +onlyGivenNames x; refine isPart x (by constructor) ?_; subst x)
    | (extract_lets +onlyGivenNames x; clear_value x) | with_reducible apply ite_h | split | with_reducible apply quietClose_b
    | dsimp only [Keeps])

theorem quietcfgByte_b (v : Byte) (s : State) (hs : Keeps z0 s) : Keeps z0 (quietcfgByte v s) := by
  unfold quietcfgByte
  repeat' (first
    | with_reducible assumption | intro _ | subst x
    | (extract_lets +onlyGivenNames x; have hx : Keeps z0 x := ?_; clear_value x)
    | (extract_lets +onlyGivenNames x; refine isPart x (by constructor) ?_; subst x)
    | (extract_lets +onlyGivenNames x; clear_value x) | with_reducible apply ite_h | split | with_reducible apply quietClose_b
    | with_reducible apply plainByte_b | dsimp only [Keeps])

theorem execDither_b (s : State) (hs : Keeps z0 s) : OutB z0 (execDither s) := by
  unfold execDither
  repeat' (first
    | with_reducible assumption | with_reducible apply out_b | intro _ | subst x
    | (extract_lets +onlyGivenNames x; have hx : Keeps z0 x := ?_; clear_value x)
    | (extract_lets +onlyGivenNames x; refine isPart x (by constructor) ?_; subst x)
    | (extract_lets +onlyGivenNames x; clear_value x) | with_reducible apply ite_h | split | dsimp only [Keeps])

theorem phaseEntry_b (r : Nat) (avg : Nat) (s : State) (hs : Keeps z0 s) : Keeps z0 (phaseEntry r avg s) := by
  unfold phaseEntry
  repeat' (first
    | with_reducible assumption | intro _ | subst x
    | (extract_lets +onlyGivenNames x; have hx : Keeps z0 x := ?_; clear_value x)
    | (extract_lets +onlyGivenNames x; refine isPart x (by constructor) ?_; subst x)
    | (extract_lets +onlyGivenNames x; clear_value x) | with_reducible apply ite_h | split | dsimp only [Keeps])

theorem execPhase_b (r : PhRail) (avg : Option Nat) (s : State) (hs : Keeps z0 s) : OutB z0 (execPhase r avg s) := by
  unfold execPhase
  repeat' (first
    | with_reducible assumption | with_reducible apply out_b | intro _ | subst x
    | (extract_lets +onlyGivenNames x; have hx : Keeps z0 x := ?_; clear_value x)
    | (extract_lets +onlyGivenNames x; refine isPart x (by constructor) ?_; subst x)
    | (extract_lets +onlyGivenNames x; clear_value x) | with_reducible apply ite_h | split | with_reducible apply phaseEntry_b
    | with_reducible apply drawNat_b | refine pair_b (by with_reducible assumption) ?_ | dsimp only [Keeps])

theorem armSlow_b (x : Path) (s : State) (hs : Keeps z0 s) : Keeps z0 (armSlow x s) := by
  unfold armSlow
  repeat' (first
    | with_reducible assumption | intro _ | subst x
    | (extract_lets +onlyGivenNames x; have hx : Keeps z0 x := ?_; clear_value x)
    | (extract_lets +onlyGivenNames x; refine isPart x (by constructor) ?_; subst x)
    | (extract_lets +onlyGivenNames x; clear_value x) | with_reducible apply ite_h | split | with_reducible apply sense_b
    | with_reducible apply arm_b | with_reducible apply disarm_b | dsimp only [Keeps])

theorem noteSense_b (x : Path) (uv : Int) (s : State) (hs : Keeps z0 s) : Keeps z0 (noteSense x uv s) := by
  unfold noteSense
  repeat' (first
    | with_reducible assumption | exact fun w h => path_b _ (by with_reducible assumption) w h
    | exact fun _ h => absurd h Bool.false_ne_true | exact fun _ _ => rfl | intro _ | subst x
    | (extract_lets +onlyGivenNames x; have hx : Keeps z0 x := ?_; clear_value x)
    | (extract_lets +onlyGivenNames x; refine isPart x (by constructor) ?_; subst x)
    | (extract_lets +onlyGivenNames x; clear_value x) | with_reducible apply ite_h | split | with_reducible apply armSlow_b
    | with_reducible apply sense_b | with_reducible apply setPath_b | dsimp only [Keeps])

theorem takeMeas_b (m : Option InMeas) (s : State) (hs : Keeps z0 s) : Keeps z0 (takeMeas m s) := by
  unfold takeMeas
  repeat' (first
    | with_reducible assumption | intro _ | subst x
    | (extract_lets +onlyGivenNames x; have hx : Keeps z0 x := ?_; clear_value x)
    | (extract_lets +onlyGivenNames x; refine isPart x (by constructor) ?_; subst x)
    | (extract_lets +onlyGivenNames x; clear_value x) | with_reducible apply ite_h | split | with_reducible apply noteSense_b
    | exact kept_paths (by with_reducible assumption) (by exact id) | dsimp only [Keeps])

theorem preStart_b (s : State) (hs : Keeps z0 s) : Keeps z0 (preStart s) := by
  unfold preStart
  repeat' (first
    | with_reducible assumption | intro _ | subst x
    | (extract_lets +onlyGivenNames x; have hx : Keeps z0 x := ?_; clear_value x)
    | (extract_lets +onlyGivenNames x; refine isPart x (by constructor) ?_; subst x)
    | (extract_lets +onlyGivenNames x; clear_value x) | with_reducible apply ite_h | split | with_reducible apply startRamp_b
    | dsimp only [Keeps])

theorem inputReturn_b (s : State) (hs : Keeps z0 s) : Keeps z0 (inputReturn s) := by
  unfold inputReturn
  repeat' (first
    | with_reducible assumption | intro _ | subst x
    | (extract_lets +onlyGivenNames x; have hx : Keeps z0 x := ?_; clear_value x)
    | (extract_lets +onlyGivenNames x; refine isPart x (by constructor) ?_; subst x)
    | (extract_lets +onlyGivenNames x; clear_value x) | with_reducible apply ite_h | split | with_reducible apply raiseW_b
    | with_reducible apply resume_b | with_reducible apply disarm_b | dsimp only [Keeps])

theorem closePath_b (x : Path) (m : Option InMeas) (s : State) (hs : Keeps z0 s) : Keeps z0 (closePath x m s) := by
  unfold closePath
  repeat' (first
    | with_reducible assumption | exact fun w h => path_b _ (by with_reducible assumption) w h
    | exact fun _ h => absurd h Bool.false_ne_true | exact fun _ _ => rfl | intro _ | subst x
    | (extract_lets +onlyGivenNames x; have hx : Keeps z0 x := ?_; clear_value x)
    | (extract_lets +onlyGivenNames x; refine isPart x (by constructor) ?_; subst x)
    | (extract_lets +onlyGivenNames x; clear_value x) | with_reducible apply ite_h | split | with_reducible apply inputReturn_b
    | with_reducible apply preStart_b | with_reducible apply setPath_b | with_reducible apply drawBool_b
    | with_reducible apply arm_b | refine pair_b (by with_reducible assumption) ?_ | dsimp only [Keeps])

theorem tryClose_b (x : Path) (m : Option InMeas) (s : State) (hs : Keeps z0 s) : Keeps z0 (tryClose x m s) := by
  unfold tryClose
  repeat' (first
    | with_reducible assumption | exact fun w h => path_b _ (by with_reducible assumption) w h
    | exact fun _ h => absurd h Bool.false_ne_true | exact fun _ _ => rfl | intro _ | subst x
    | (extract_lets +onlyGivenNames x; have hx : Keeps z0 x := ?_; clear_value x)
    | (extract_lets +onlyGivenNames x; refine isPart x (by constructor) ?_; subst x)
    | (extract_lets +onlyGivenNames x; clear_value x) | with_reducible apply ite_h | split | with_reducible apply closePath_b
    | dsimp only [Keeps])

theorem openPath_b (x : Path) (why : OpenWhy) (m : Option InMeas) (s : State) (hs : Keeps z0 s) : Keeps z0 (openPath x why m s)
    := by
  unfold openPath
  repeat' (first
    | with_reducible assumption | exact fun w h => path_b _ (by with_reducible assumption) w h
    | exact fun _ h => absurd h Bool.false_ne_true | exact fun _ _ => rfl | intro _ | subst x
    | (extract_lets +onlyGivenNames x; have hx : Keeps z0 x := ?_; clear_value x)
    | (extract_lets +onlyGivenNames x; refine isPart x (by constructor) ?_; subst x)
    | (extract_lets +onlyGivenNames x; clear_value x) | with_reducible apply ite_h | split | with_reducible apply tryClose_b
    | with_reducible apply watchLoss_b | with_reducible apply sense_b | with_reducible apply setPath_b
    | with_reducible apply disarm_b | dsimp only [Keeps])

theorem execPathQualify_b (x : Path) (m : Option InMeas) (s : State) (hs : Keeps z0 s) : OutB z0 (execPathQualify x m s) := by
  unfold execPathQualify
  repeat' (first
    | with_reducible assumption | exact fun w h => path_b _ (by with_reducible assumption) w h
    | exact fun _ h => absurd h Bool.false_ne_true | exact fun _ _ => rfl | with_reducible apply out_b | intro _ | subst x
    | (extract_lets +onlyGivenNames x; have hx : Keeps z0 x := ?_; clear_value x)
    | (extract_lets +onlyGivenNames x; refine isPart x (by constructor) ?_; subst x)
    | (extract_lets +onlyGivenNames x; clear_value x) | with_reducible apply ite_h | split | with_reducible apply tryClose_b
    | with_reducible apply takeMeas_b | with_reducible apply startCheck_b | with_reducible apply idleWatch_b
    | with_reducible apply setPath_b | dsimp only [Keeps])

theorem execPreferHandback_b (x : Path) (s : State) (hs : Keeps z0 s) : OutB z0 (execPreferHandback x s) := by
  unfold execPreferHandback
  repeat' (first
    | with_reducible assumption | with_reducible apply out_b | intro _ | subst x
    | (extract_lets +onlyGivenNames x; have hx : Keeps z0 x := ?_; clear_value x)
    | (extract_lets +onlyGivenNames x; refine isPart x (by constructor) ?_; subst x)
    | (extract_lets +onlyGivenNames x; clear_value x) | with_reducible apply ite_h | split | with_reducible apply openPath_b
    | with_reducible apply disarm_b | dsimp only [Keeps])

theorem execPathConductionChange_b (x : Path) (on : Bool) (s : State) (hs : Keeps z0 s) : OutB z0 (execPathConductionChange x on
    s) := by
  unfold execPathConductionChange
  repeat' (first
    | with_reducible assumption | exact fun w h => path_b _ (by with_reducible assumption) w h
    | exact fun _ h => absurd h Bool.false_ne_true | exact fun _ _ => rfl | with_reducible apply out_b | intro _ | subst x
    | (extract_lets +onlyGivenNames x; have hx : Keeps z0 x := ?_; clear_value x)
    | (extract_lets +onlyGivenNames x; refine isPart x (by constructor) ?_; subst x)
    | (extract_lets +onlyGivenNames x; clear_value x) | with_reducible apply ite_h | split | with_reducible apply wakeCheck_b
    | with_reducible apply raiseIf_b | with_reducible apply setPath_b | dsimp only [Keeps])

theorem countTrip_b (x : Path) (s : State) (hs : Keeps z0 s) : Keeps z0 (countTrip x s) := by
  unfold countTrip
  repeat' (first
    | with_reducible assumption | exact fun w h => path_b _ (by with_reducible assumption) w h
    | exact fun _ h => absurd h Bool.false_ne_true | exact fun _ _ => rfl | intro _ | subst x
    | (extract_lets +onlyGivenNames x; have hx : Keeps z0 x := ?_; clear_value x)
    | (extract_lets +onlyGivenNames x; refine isPart x (by constructor) ?_; subst x)
    | (extract_lets +onlyGivenNames x; clear_value x) | with_reducible apply ite_h | split | with_reducible apply raiseW_b
    | with_reducible apply setPath_b | dsimp only [Keeps])

theorem guardTrip_b (x : Path) (bitNo : Nat) (src : Nat) (counted : Bool) (why : OpenWhy) (m : Option InMeas) (s : State) (hs :
    Keeps z0 s) : Keeps z0 (guardTrip x bitNo src counted why m s) := by
  unfold guardTrip
  repeat' (first
    | with_reducible assumption | exact fun w h => path_b _ (by with_reducible assumption) w h
    | exact fun _ h => absurd h Bool.false_ne_true | exact fun _ _ => rfl | intro _ | subst x
    | (extract_lets +onlyGivenNames x; have hx : Keeps z0 x := ?_; clear_value x)
    | (extract_lets +onlyGivenNames x; refine isPart x (by constructor) ?_; subst x)
    | (extract_lets +onlyGivenNames x; clear_value x) | with_reducible apply ite_h | split | with_reducible apply countTrip_b
    | with_reducible apply openPath_b | with_reducible apply raiseW_b | with_reducible apply wakeCheck_b
    | with_reducible apply setPath_b | dsimp only [Keeps])

theorem armRetry_b (x : Path) (t : Nat) (s : State) (hs : Keeps z0 s) : Keeps z0 (armRetry x t s) := by
  unfold armRetry
  repeat' (first
    | with_reducible assumption | intro _ | subst x
    | (extract_lets +onlyGivenNames x; have hx : Keeps z0 x := ?_; clear_value x)
    | (extract_lets +onlyGivenNames x; refine isPart x (by constructor) ?_; subst x)
    | (extract_lets +onlyGivenNames x; clear_value x) | with_reducible apply ite_h | split | with_reducible apply arm_b
    | dsimp only [Keeps])

theorem execOva_b (x : Path) (m : Option InMeas) (s : State) (hs : Keeps z0 s) : OutB z0 (execOva x m s) := by
  unfold execOva
  repeat' (first
    | with_reducible assumption | exact fun w h => path_b _ (by with_reducible assumption) w h
    | exact fun _ h => absurd h Bool.false_ne_true | exact fun _ _ => rfl | with_reducible apply out_b | intro _ | subst x
    | (extract_lets +onlyGivenNames x; have hx : Keeps z0 x := ?_; clear_value x)
    | (extract_lets +onlyGivenNames x; refine isPart x (by constructor) ?_; subst x)
    | (extract_lets +onlyGivenNames x; clear_value x) | with_reducible apply ite_h | split | with_reducible apply guardTrip_b
    | with_reducible apply takeMeas_b | with_reducible apply idleWatch_b | with_reducible apply setPath_b | dsimp only [Keeps])

theorem execInputOvClear_b (x : Path) (m : Option InMeas) (s : State) (hs : Keeps z0 s) : OutB z0 (execInputOvClear x m s) := by
  unfold execInputOvClear
  repeat' (first
    | with_reducible assumption | exact fun w h => path_b _ (by with_reducible assumption) w h
    | exact fun _ h => absurd h Bool.false_ne_true | exact fun _ _ => rfl | with_reducible apply out_b | intro _ | subst x
    | (extract_lets +onlyGivenNames x; have hx : Keeps z0 x := ?_; clear_value x)
    | (extract_lets +onlyGivenNames x; refine isPart x (by constructor) ?_; subst x)
    | (extract_lets +onlyGivenNames x; clear_value x) | with_reducible apply ite_h | split | with_reducible apply tryClose_b
    | with_reducible apply takeMeas_b | with_reducible apply setPath_b | dsimp only [Keeps])

theorem execReva_b (x : Path) (m : Option InMeas) (s : State) (hs : Keeps z0 s) : OutB z0 (execReva x m s) := by
  unfold execReva
  repeat' (first
    | with_reducible assumption | with_reducible apply out_b | intro _ | subst x
    | (extract_lets +onlyGivenNames x; have hx : Keeps z0 x := ?_; clear_value x)
    | (extract_lets +onlyGivenNames x; refine isPart x (by constructor) ?_; subst x)
    | (extract_lets +onlyGivenNames x; clear_value x) | with_reducible apply ite_h | split | with_reducible apply guardTrip_b
    | with_reducible apply takeMeas_b | dsimp only [Keeps])

theorem execReverseReclose_b (x : Path) (m : Option InMeas) (s : State) (hs : Keeps z0 s) : OutB z0 (execReverseReclose x m s)
    := by
  unfold execReverseReclose
  repeat' (first
    | with_reducible assumption | exact fun w h => path_b _ (by with_reducible assumption) w h
    | exact fun _ h => absurd h Bool.false_ne_true | exact fun _ _ => rfl | with_reducible apply out_b | intro _ | subst x
    | (extract_lets +onlyGivenNames x; have hx : Keeps z0 x := ?_; clear_value x)
    | (extract_lets +onlyGivenNames x; refine isPart x (by constructor) ?_; subst x)
    | (extract_lets +onlyGivenNames x; clear_value x) | with_reducible apply ite_h | split | with_reducible apply tryClose_b
    | with_reducible apply takeMeas_b | with_reducible apply setPath_b | dsimp only [Keeps])

theorem execFoca_b (x : Path) (m : Option InMeas) (s : State) (hs : Keeps z0 s) : OutB z0 (execFoca x m s) := by
  unfold execFoca
  repeat' (first
    | with_reducible assumption | with_reducible apply out_b | intro _ | subst x
    | (extract_lets +onlyGivenNames x; have hx : Keeps z0 x := ?_; clear_value x)
    | (extract_lets +onlyGivenNames x; refine isPart x (by constructor) ?_; subst x)
    | (extract_lets +onlyGivenNames x; clear_value x) | with_reducible apply ite_h | split | with_reducible apply armRetry_b
    | with_reducible apply guardTrip_b | with_reducible apply takeMeas_b | dsimp only [Keeps])

theorem execSlowa_b (x : Path) (m : Option InMeas) (s : State) (hs : Keeps z0 s) : OutB z0 (execSlowa x m s) := by
  unfold execSlowa
  repeat' (first
    | with_reducible assumption | exact fun w h => path_b _ (by with_reducible assumption) w h
    | exact fun _ h => absurd h Bool.false_ne_true | exact fun _ _ => rfl | with_reducible apply out_b | intro _ | subst x
    | (extract_lets +onlyGivenNames x; have hx : Keeps z0 x := ?_; clear_value x)
    | (extract_lets +onlyGivenNames x; refine isPart x (by constructor) ?_; subst x)
    | (extract_lets +onlyGivenNames x; clear_value x) | with_reducible apply ite_h | split | with_reducible apply armRetry_b
    | with_reducible apply guardTrip_b | with_reducible apply takeMeas_b | with_reducible apply armSlow_b
    | with_reducible apply setPath_b | with_reducible apply disarm_b | dsimp only [Keeps])

theorem execUva_b (x : Path) (m : Option InMeas) (s : State) (hs : Keeps z0 s) : OutB z0 (execUva x m s) := by
  unfold execUva
  repeat' (first
    | with_reducible assumption | exact fun w h => path_b _ (by with_reducible assumption) w h
    | exact fun _ h => absurd h Bool.false_ne_true | exact fun _ _ => rfl | with_reducible apply out_b | intro _ | subst x
    | (extract_lets +onlyGivenNames x; have hx : Keeps z0 x := ?_; clear_value x)
    | (extract_lets +onlyGivenNames x; refine isPart x (by constructor) ?_; subst x)
    | (extract_lets +onlyGivenNames x; clear_value x) | with_reducible apply ite_h | split | with_reducible apply guardTrip_b
    | with_reducible apply takeMeas_b | with_reducible apply idleWatch_b | with_reducible apply setPath_b | dsimp only [Keeps])

theorem execInrushComplete_b (x : Path) (m : Option InMeas) (s : State) (hs : Keeps z0 s) : OutB z0 (execInrushComplete x m s)
    := by
  unfold execInrushComplete
  repeat' (first
    | with_reducible assumption | exact fun w h => path_b _ (by with_reducible assumption) w h
    | exact fun _ h => absurd h Bool.false_ne_true | exact fun _ _ => rfl | (exact fun _ _ => by simp_all)
    | with_reducible apply out_b | intro _ | subst x
    | (extract_lets +onlyGivenNames x; have hx : Keeps z0 x := ?_; clear_value x)
    | (extract_lets +onlyGivenNames x; refine isPart x (by constructor) ?_; subst x)
    | (extract_lets +onlyGivenNames x; clear_value x) | with_reducible apply ite_h | split | with_reducible apply tryClose_b
    | with_reducible apply preStart_b | with_reducible apply takeMeas_b | with_reducible apply setPath_b
    | with_reducible apply disarm_b | dsimp only [Keeps])

theorem execInrushtmo_b (x : Path) (s : State) (hs : Keeps z0 s) : OutB z0 (execInrushtmo x s) := by
  unfold execInrushtmo
  repeat' (first
    | with_reducible assumption | with_reducible apply out_b | intro _ | subst x
    | (extract_lets +onlyGivenNames x; have hx : Keeps z0 x := ?_; clear_value x)
    | (extract_lets +onlyGivenNames x; refine isPart x (by constructor) ?_; subst x)
    | (extract_lets +onlyGivenNames x; clear_value x) | with_reducible apply ite_h | split | with_reducible apply armRetry_b
    | with_reducible apply guardTrip_b | with_reducible apply disarm_b | dsimp only [Keeps])

theorem execPathRetryEnd_b (x : Path) (m : Option InMeas) (s : State) (hs : Keeps z0 s) : OutB z0 (execPathRetryEnd x m s) := by
  unfold execPathRetryEnd
  repeat' (first
    | with_reducible assumption | exact fun w h => path_b _ (by with_reducible assumption) w h
    | exact fun _ h => absurd h Bool.false_ne_true | exact fun _ _ => rfl | with_reducible apply out_b | intro _ | subst x
    | (extract_lets +onlyGivenNames x; have hx : Keeps z0 x := ?_; clear_value x)
    | (extract_lets +onlyGivenNames x; refine isPart x (by constructor) ?_; subst x)
    | (extract_lets +onlyGivenNames x; clear_value x) | with_reducible apply ite_h | split | with_reducible apply tryClose_b
    | with_reducible apply takeMeas_b | with_reducible apply setPath_b | with_reducible apply disarm_b | dsimp only [Keeps])

theorem execTripCountClear_b (x : Path) (s : State) (hs : Keeps z0 s) : OutB z0 (execTripCountClear x s) := by
  unfold execTripCountClear
  repeat' (first
    | with_reducible assumption | exact fun w h => path_b _ (by with_reducible assumption) w h
    | exact fun _ h => absurd h Bool.false_ne_true | exact fun _ _ => rfl | with_reducible apply out_b | intro _ | subst x
    | (extract_lets +onlyGivenNames x; have hx : Keeps z0 x := ?_; clear_value x)
    | (extract_lets +onlyGivenNames x; refine isPart x (by constructor) ?_; subst x)
    | (extract_lets +onlyGivenNames x; clear_value x) | with_reducible apply ite_h | split | with_reducible apply setPath_b
    | with_reducible apply disarm_b | dsimp only [Keeps])

theorem inctlPath_b (x : Path) (s : State) (hs : Keeps z0 s) : Keeps z0 (inctlPath x s) := by
  unfold inctlPath
  repeat' (first
    | with_reducible assumption | exact fun w h => path_b _ (by with_reducible assumption) w h
    | exact fun _ h => absurd h Bool.false_ne_true | exact fun _ _ => rfl | intro _ | subst x
    | (extract_lets +onlyGivenNames x; have hx : Keeps z0 x := ?_; clear_value x)
    | (extract_lets +onlyGivenNames x; refine isPart x (by constructor) ?_; subst x)
    | (extract_lets +onlyGivenNames x; clear_value x) | with_reducible apply ite_h | split | with_reducible apply setPath_b
    | with_reducible apply disarm_b | dsimp only [Keeps])

theorem inctlBits_b (a : Bool) (b : Bool) (s : State) (hs : Keeps z0 s) : Keeps z0 (inctlBits a b s) := by
  unfold inctlBits
  repeat' (first
    | with_reducible assumption | intro _ | subst x
    | (extract_lets +onlyGivenNames x; have hx : Keeps z0 x := ?_; clear_value x)
    | (extract_lets +onlyGivenNames x; refine isPart x (by constructor) ?_; subst x)
    | (extract_lets +onlyGivenNames x; clear_value x) | with_reducible apply ite_h | split | with_reducible apply inctlPath_b
    | with_reducible apply idleWatch_b | dsimp only [Keeps])

theorem execInctlClr_b (a : Bool) (b : Bool) (s : State) (hs : Keeps z0 s) : OutB z0 (execInctlClr a b s) := by
  unfold execInctlClr
  repeat' (first
    | with_reducible assumption | with_reducible apply out_b | intro _ | subst x
    | (extract_lets +onlyGivenNames x; have hx : Keeps z0 x := ?_; clear_value x)
    | (extract_lets +onlyGivenNames x; refine isPart x (by constructor) ?_; subst x)
    | (extract_lets +onlyGivenNames x; clear_value x) | with_reducible apply ite_h | split | with_reducible apply inctlBits_b
    | with_reducible apply onPage_b | dsimp only [Keeps])

theorem execInloss_b (s : State) (hs : Keeps z0 s) : OutB z0 (execInloss s) := by
  unfold execInloss
  repeat' (first
    | with_reducible assumption | with_reducible apply out_b | intro _ | subst x
    | (extract_lets +onlyGivenNames x; have hx : Keeps z0 x := ?_; clear_value x)
    | (extract_lets +onlyGivenNames x; refine isPart x (by constructor) ?_; subst x)
    | (extract_lets +onlyGivenNames x; clear_value x) | with_reducible apply ite_h | split | with_reducible apply raiseW_b
    | with_reducible apply commonStop_b | with_reducible apply disarm_b | dsimp only [Keeps])

theorem execPlim_b (on : Bool) (s : State) (hs : Keeps z0 s) : OutB z0 (execPlim on s) := by
  unfold execPlim
  repeat' (first
    | with_reducible assumption | with_reducible apply out_b | intro _ | subst x
    | (extract_lets +onlyGivenNames x; have hx : Keeps z0 x := ?_; clear_value x)
    | (extract_lets +onlyGivenNames x; refine isPart x (by constructor) ?_; subst x)
    | (extract_lets +onlyGivenNames x; clear_value x) | with_reducible apply ite_h | split | with_reducible apply raiseG_b
    | dsimp only [Keeps])

theorem monNote_b (r : Nat) (mon : Word) (s : State) (hs : Keeps z0 s) : Keeps z0 (monNote r mon s) := by
  unfold monNote
  repeat' (first
    | with_reducible assumption | intro _ | subst x
    | (extract_lets +onlyGivenNames x; have hx : Keeps z0 x := ?_; clear_value x)
    | (extract_lets +onlyGivenNames x; refine isPart x (by constructor) ?_; subst x)
    | (extract_lets +onlyGivenNames x; clear_value x) | with_reducible apply ite_h | split
    | (refine kept_maps (by with_reducible assumption) ?_; exact fun w => { w with snspk := by dsimp only [mapsOf]; exact mwf_mput _ _ _ _ w.snspk })
    | dsimp only [Keeps])

theorem monsOk_b (r : Nat) (s : State) (hs : Keeps z0 s) : Keeps z0 (monsOk r s) := by
  unfold monsOk
  repeat' (first
    | with_reducible assumption | intro _ | subst x
    | (extract_lets +onlyGivenNames x; have hx : Keeps z0 x := ?_; clear_value x)
    | (extract_lets +onlyGivenNames x; refine isPart x (by constructor) ?_; subst x)
    | (extract_lets +onlyGivenNames x; clear_value x) | with_reducible apply ite_h | split | dsimp only [Keeps])

theorem monsBack_b (r : Nat) (s : State) (hs : Keeps z0 s) : Keeps z0 (monsBack r s) := by
  unfold monsBack
  repeat' (first
    | with_reducible assumption | intro _ | subst x
    | (extract_lets +onlyGivenNames x; have hx : Keeps z0 x := ?_; clear_value x)
    | (extract_lets +onlyGivenNames x; refine isPart x (by constructor) ?_; subst x)
    | (extract_lets +onlyGivenNames x; clear_value x) | with_reducible apply ite_h | split | dsimp only [Keeps])

theorem inWindow_b (r : Nat) (s : State) (hs : Keeps z0 s) : Keeps z0 (inWindow r s) := by
  unfold inWindow
  repeat' (first
    | with_reducible assumption | intro _ | subst x
    | (extract_lets +onlyGivenNames x; have hx : Keeps z0 x := ?_; clear_value x)
    | (extract_lets +onlyGivenNames x; refine isPart x (by constructor) ?_; subst x)
    | (extract_lets +onlyGivenNames x; clear_value x) | with_reducible apply ite_h | split | with_reducible apply monsOk_b
    | dsimp only [Keeps])

theorem execPowerGood_b (r : Rail) (s : State) (hs : Keeps z0 s) : OutB z0 (execPowerGood r s) := by
  unfold execPowerGood
  repeat' (first
    | with_reducible assumption | with_reducible apply out_b | intro _ | subst x
    | (extract_lets +onlyGivenNames x; have hx : Keeps z0 x := ?_; clear_value x)
    | (extract_lets +onlyGivenNames x; refine isPart x (by constructor) ?_; subst x)
    | (extract_lets +onlyGivenNames x; clear_value x) | with_reducible apply ite_h | split | with_reducible apply inWindow_b
    | with_reducible apply monsOk_b | with_reducible apply becomePg_b
    | (show has _ _ = _; simp_all [canPg, outputDown]; done) | dsimp only [Keeps])

theorem execRampEnd_b (r : Rail) (s : State) (hs : Keeps z0 s) : OutB z0 (execRampEnd r s) := by
  unfold execRampEnd
  repeat' (first
    | with_reducible assumption | with_reducible apply out_b | intro _ | subst x
    | (extract_lets +onlyGivenNames x; have hx : Keeps z0 x := ?_; clear_value x)
    | (extract_lets +onlyGivenNames x; refine isPart x (by constructor) ?_; subst x)
    | (extract_lets +onlyGivenNames x; clear_value x) | with_reducible apply ite_h | split | with_reducible apply becomePg_b
    | with_reducible apply disarm_b | (show has _ _ = _; simp_all [canPg, outputDown]; done)
    | (refine kept_maps (by with_reducible assumption) ?_; exact fun w => { w with ramps := by dsimp only [mapsOf]; exact mwf_mput _ _ _ _ w.ramps })
    | dsimp only [Keeps])

theorem execStageEnableDelay_b (c : Chan) (s : State) (hs : Keeps z0 s) : OutB z0 (execStageEnableDelay c s) := by
  unfold execStageEnableDelay
  repeat' (first
    | with_reducible assumption | with_reducible apply out_b | intro _ | subst x
    | (extract_lets +onlyGivenNames x; have hx : Keeps z0 x := ?_; clear_value x)
    | (extract_lets +onlyGivenNames x; refine isPart x (by constructor) ?_; subst x)
    | (extract_lets +onlyGivenNames x; clear_value x) | with_reducible apply ite_h | split | with_reducible apply startRamp_b
    | with_reducible apply disarm_b | dsimp only [Keeps])

theorem uvNote_b (r : Nat) (mon : Word) (s : State) (hs : Keeps z0 s) : Keeps z0 (uvNote r mon s) := by
  unfold uvNote
  repeat' (first
    | with_reducible assumption | intro _ | subst x
    | (extract_lets +onlyGivenNames x; have hx : Keeps z0 x := ?_; clear_value x)
    | (extract_lets +onlyGivenNames x; refine isPart x (by constructor) ?_; subst x)
    | (extract_lets +onlyGivenNames x; clear_value x) | with_reducible apply ite_h | split | with_reducible apply monNote_b
    | dsimp only [Keeps])

theorem execUv_b (r : Rail) (mon : Word) (s : State) (hs : Keeps z0 s) : OutB z0 (execUv r mon s) := by
  unfold execUv
  repeat' (first
    | with_reducible assumption | with_reducible apply out_b | intro _ | subst x
    | (extract_lets +onlyGivenNames x; have hx : Keeps z0 x := ?_; clear_value x)
    | (extract_lets +onlyGivenNames x; refine isPart x (by constructor) ?_; subst x)
    | (extract_lets +onlyGivenNames x; clear_value x) | with_reducible apply ite_h | split | with_reducible apply uvNote_b
    | with_reducible apply monNote_b | with_reducible apply raiseW_b | with_reducible apply react_b
    | with_reducible apply losePg_b | dsimp only [Keeps])

theorem execOv_b (r : Rail) (mon : Word) (s : State) (hs : Keeps z0 s) : OutB z0 (execOv r mon s) := by
  unfold execOv
  repeat' (first
    | with_reducible assumption | with_reducible apply out_b | intro _ | subst x
    | (extract_lets +onlyGivenNames x; have hx : Keeps z0 x := ?_; clear_value x)
    | (extract_lets +onlyGivenNames x; refine isPart x (by constructor) ?_; subst x)
    | (extract_lets +onlyGivenNames x; clear_value x) | with_reducible apply ite_h | split | with_reducible apply monNote_b
    | with_reducible apply react_b | with_reducible apply breach_b | with_reducible apply raise_b | dsimp only [Keeps])

theorem execOvHoldRelease_b (r : Rail) (s : State) (hs : Keeps z0 s) : OutB z0 (execOvHoldRelease r s) := by
  unfold execOvHoldRelease
  repeat' (first
    | with_reducible assumption | with_reducible apply out_b | intro _ | subst x
    | (extract_lets +onlyGivenNames x; have hx : Keeps z0 x := ?_; clear_value x)
    | (extract_lets +onlyGivenNames x; refine isPart x (by constructor) ?_; subst x)
    | (extract_lets +onlyGivenNames x; clear_value x) | with_reducible apply ite_h | split | with_reducible apply monsBack_b
    | dsimp only [Keeps])

theorem engage_b (r : Nat) (s : State) (hs : Keeps z0 s) : Keeps z0 (engage r s) := by
  unfold engage
  repeat' (first
    | with_reducible assumption | intro _ | subst x
    | (extract_lets +onlyGivenNames x; have hx : Keeps z0 x := ?_; clear_value x)
    | (extract_lets +onlyGivenNames x; refine isPart x (by constructor) ?_; subst x)
    | (extract_lets +onlyGivenNames x; clear_value x) | with_reducible apply ite_h | split | with_reducible apply react_b
    | with_reducible apply raise_b | with_reducible apply arm_b | dsimp only [Keeps])

theorem disengage_b (r : Nat) (s : State) (hs : Keeps z0 s) : Keeps z0 (disengage r s) := by
  unfold disengage
  repeat' (first
    | with_reducible assumption | intro _ | subst x
    | (extract_lets +onlyGivenNames x; have hx : Keeps z0 x := ?_; clear_value x)
    | (extract_lets +onlyGivenNames x; refine isPart x (by constructor) ?_; subst x)
    | (extract_lets +onlyGivenNames x; clear_value x) | with_reducible apply ite_h | split | with_reducible apply disarm_b
    | dsimp only [Keeps])

theorem periodLimit_b (r : Nat) (run : Nat) (s : State) (hs : Keeps z0 s) : Keeps z0 (periodLimit r run s) := by
  unfold periodLimit
  repeat' (first
    | with_reducible assumption | intro _ | subst x
    | (extract_lets +onlyGivenNames x; have hx : Keeps z0 x := ?_; clear_value x)
    | (extract_lets +onlyGivenNames x; refine isPart x (by constructor) ?_; subst x)
    | (extract_lets +onlyGivenNames x; clear_value x) | with_reducible apply ite_h | split | with_reducible apply react_b
    | with_reducible apply breach_b | with_reducible apply raise_b | dsimp only [Keeps])

theorem execOcfast_b (x : LimitRun) (s : State) (hs : Keeps z0 s) : OutB z0 (execOcfast x s) := by
  unfold execOcfast
  repeat' (first
    | with_reducible assumption | with_reducible apply out_b | intro _ | subst x
    | (extract_lets +onlyGivenNames x; have hx : Keeps z0 x := ?_; clear_value x)
    | (extract_lets +onlyGivenNames x; refine isPart x (by constructor) ?_; subst x)
    | (extract_lets +onlyGivenNames x; clear_value x) | with_reducible apply ite_h | split | with_reducible apply periodLimit_b
    | with_reducible apply engage_b | with_reducible apply ownOff_b | with_reducible apply react_b
    | with_reducible apply breach_b | with_reducible apply raise_b | dsimp only [Keeps])

theorem execOverloadClamp_b (r : Rail) (demand : Nat) (s : State) (hs : Keeps z0 s) : OutB z0 (execOverloadClamp r demand s) :=
    by
  unfold execOverloadClamp
  repeat' (first
    | with_reducible assumption | with_reducible apply out_b | intro _ | subst x
    | (extract_lets +onlyGivenNames x; have hx : Keeps z0 x := ?_; clear_value x)
    | (extract_lets +onlyGivenNames x; refine isPart x (by constructor) ?_; subst x)
    | (extract_lets +onlyGivenNames x; clear_value x) | with_reducible apply ite_h | split | with_reducible apply disengage_b
    | with_reducible apply engage_b | dsimp only [Keeps])

theorem execOcslow_b (r : Rail) (s : State) (hs : Keeps z0 s) : OutB z0 (execOcslow r s) := by
  unfold execOcslow
  repeat' (first
    | with_reducible assumption | with_reducible apply out_b | intro _ | subst x
    | (extract_lets +onlyGivenNames x; have hx : Keeps z0 x := ?_; clear_value x)
    | (extract_lets +onlyGivenNames x; refine isPart x (by constructor) ?_; subst x)
    | (extract_lets +onlyGivenNames x; clear_value x) | with_reducible apply ite_h | split | with_reducible apply ownOff_b
    | with_reducible apply react_b | with_reducible apply raise_b | with_reducible apply disarm_b | dsimp only [Keeps])

theorem thermalLimit_b (r : Nat) (s : State) (hs : Keeps z0 s) : Keeps z0 (thermalLimit r s) := by
  unfold thermalLimit
  repeat' (first
    | with_reducible assumption | intro _ | subst x
    | (extract_lets +onlyGivenNames x; have hx : Keeps z0 x := ?_; clear_value x)
    | (extract_lets +onlyGivenNames x; refine isPart x (by constructor) ?_; subst x)
    | (extract_lets +onlyGivenNames x; clear_value x) | with_reducible apply ite_h | split | with_reducible apply react_b
    | with_reducible apply raise_b | dsimp only [Keeps])

theorem execThlim_b (r : Rail) (s : State) (hs : Keeps z0 s) : OutB z0 (execThlim r s) := by
  unfold execThlim
  repeat' (first
    | with_reducible assumption | with_reducible apply out_b | intro _ | subst x
    | (extract_lets +onlyGivenNames x; have hx : Keeps z0 x := ?_; clear_value x)
    | (extract_lets +onlyGivenNames x; refine isPart x (by constructor) ?_; subst x)
    | (extract_lets +onlyGivenNames x; clear_value x) | with_reducible apply ite_h | split | with_reducible apply thermalLimit_b
    | dsimp only [Keeps])

theorem execStageTempLimitRelease_b (c : Chan) (s : State) (hs : Keeps z0 s) : OutB z0 (execStageTempLimitRelease c s) := by
  unfold execStageTempLimitRelease
  repeat' (first
    | with_reducible assumption | with_reducible apply out_b | intro _ | subst x
    | (extract_lets +onlyGivenNames x; have hx : Keeps z0 x := ?_; clear_value x)
    | (extract_lets +onlyGivenNames x; refine isPart x (by constructor) ?_; subst x)
    | (extract_lets +onlyGivenNames x; clear_value x) | with_reducible apply ite_h | split | dsimp only [Keeps])

theorem joinStart_b (r : Nat) (s : State) (hs : Keeps z0 s) : Keeps z0 (joinStart r s) := by
  unfold joinStart
  repeat' (first
    | with_reducible assumption | intro _ | subst x
    | (extract_lets +onlyGivenNames x; have hx : Keeps z0 x := ?_; clear_value x)
    | (extract_lets +onlyGivenNames x; refine isPart x (by constructor) ?_; subst x)
    | (extract_lets +onlyGivenNames x; clear_value x) | with_reducible apply ite_h | split | with_reducible apply enterSafe_b
    | with_reducible apply noteReaction_b | with_reducible apply setOff_b | with_reducible apply requestReset_b
    | with_reducible apply raise_b | dsimp only [Keeps])

theorem execStarttmo_b (r : Rail) (s : State) (hs : Keeps z0 s) : OutB z0 (execStarttmo r s) := by
  unfold execStarttmo
  repeat' (first
    | with_reducible assumption | with_reducible apply out_b | intro _ | subst x
    | (extract_lets +onlyGivenNames x; have hx : Keeps z0 x := ?_; clear_value x)
    | (extract_lets +onlyGivenNames x; refine isPart x (by constructor) ?_; subst x)
    | (extract_lets +onlyGivenNames x; clear_value x) | with_reducible apply ite_h | split | with_reducible apply joinStart_b
    | with_reducible apply react_b | with_reducible apply raise_b | with_reducible apply disarm_b | dsimp only [Keeps])

theorem startStrike_b (c : Nat) (s : State) (hs : Keeps z0 s) : Keeps z0 (startStrike c s) := by
  unfold startStrike
  repeat' (first
    | with_reducible assumption | intro _ | subst x
    | (extract_lets +onlyGivenNames x; have hx : Keeps z0 x := ?_; clear_value x)
    | (extract_lets +onlyGivenNames x; refine isPart x (by constructor) ?_; subst x)
    | (extract_lets +onlyGivenNames x; clear_value x) | with_reducible apply ite_h | split | with_reducible apply preOver_b
    | with_reducible apply breach_b | with_reducible apply raiseG_b | with_reducible apply arm_b
    | with_reducible apply disarm_b
    | (refine kept_maps (by with_reducible assumption) ?_; exact fun w => { w with strkn := by dsimp only [mapsOf]; exact mwf_mput _ _ _ _ w.strkn })
    | dsimp only [Keeps])

theorem execStrike_b (c : Chan) (s : State) (hs : Keeps z0 s) : OutB z0 (execStrike c s) := by
  unfold execStrike
  repeat' (first
    | with_reducible assumption | with_reducible apply out_b | intro _ | subst x
    | (extract_lets +onlyGivenNames x; have hx : Keeps z0 x := ?_; clear_value x)
    | (extract_lets +onlyGivenNames x; refine isPart x (by constructor) ?_; subst x)
    | (extract_lets +onlyGivenNames x; clear_value x) | with_reducible apply ite_h | split | with_reducible apply startStrike_b
    | dsimp only [Keeps])

theorem execStrikeEnd_b (c : Chan) (s : State) (hs : Keeps z0 s) : OutB z0 (execStrikeEnd c s) := by
  unfold execStrikeEnd
  repeat' (first
    | with_reducible assumption | with_reducible apply out_b | intro _ | subst x
    | (extract_lets +onlyGivenNames x; have hx : Keeps z0 x := ?_; clear_value x)
    | (extract_lets +onlyGivenNames x; refine isPart x (by constructor) ?_; subst x)
    | (extract_lets +onlyGivenNames x; clear_value x) | with_reducible apply ite_h | split | with_reducible apply strikeOver_b
    | with_reducible apply arm_b | with_reducible apply disarm_b | dsimp only [Keeps])

theorem startBrake_b (c : Nat) (s : State) (hs : Keeps z0 s) : Keeps z0 (startBrake c s) := by
  unfold startBrake
  repeat' (first
    | with_reducible assumption | intro _ | subst x
    | (extract_lets +onlyGivenNames x; have hx : Keeps z0 x := ?_; clear_value x)
    | (extract_lets +onlyGivenNames x; refine isPart x (by constructor) ?_; subst x)
    | (extract_lets +onlyGivenNames x; clear_value x) | with_reducible apply ite_h | split | with_reducible apply breach_b
    | with_reducible apply arm_b | dsimp only [Keeps])

theorem execBrake_b (c : Chan) (s : State) (hs : Keeps z0 s) : OutB z0 (execBrake c s) := by
  unfold execBrake
  repeat' (first
    | with_reducible assumption | with_reducible apply out_b | intro _ | subst x
    | (extract_lets +onlyGivenNames x; have hx : Keeps z0 x := ?_; clear_value x)
    | (extract_lets +onlyGivenNames x; refine isPart x (by constructor) ?_; subst x)
    | (extract_lets +onlyGivenNames x; clear_value x) | with_reducible apply ite_h | split | with_reducible apply startBrake_b
    | dsimp only [Keeps])

theorem execBrakeEnd_b (c : Chan) (s : State) (hs : Keeps z0 s) : OutB z0 (execBrakeEnd c s) := by
  unfold execBrakeEnd
  repeat' (first
    | with_reducible assumption | with_reducible apply out_b | intro _ | subst x
    | (extract_lets +onlyGivenNames x; have hx : Keeps z0 x := ?_; clear_value x)
    | (extract_lets +onlyGivenNames x; refine isPart x (by constructor) ?_; subst x)
    | (extract_lets +onlyGivenNames x; clear_value x) | with_reducible apply ite_h | split | with_reducible apply arm_b
    | with_reducible apply disarm_b | dsimp only [Keeps])

theorem execBlankingEnd_b (c : Chan) (k : Blank) (trig : Option Bool) (s : State) (hs : Keeps z0 s) : OutB z0 (execBlankingEnd c
    k trig s) := by
  unfold execBlankingEnd
  repeat' (first
    | with_reducible assumption | with_reducible apply out_b | intro _ | subst x
    | (extract_lets +onlyGivenNames x; have hx : Keeps z0 x := ?_; clear_value x)
    | (extract_lets +onlyGivenNames x; refine isPart x (by constructor) ?_; subst x)
    | (extract_lets +onlyGivenNames x; clear_value x) | with_reducible apply ite_h | split | with_reducible apply startBrake_b
    | with_reducible apply startStrike_b | with_reducible apply disarm_b | dsimp only [Keeps])

theorem execAddPhase_b (r : PhRail) (s : State) (hs : Keeps z0 s) : OutB z0 (execAddPhase r s) := by
  unfold execAddPhase
  repeat' (first
    | with_reducible assumption | with_reducible apply out_b | intro _ | subst x
    | (extract_lets +onlyGivenNames x; have hx : Keeps z0 x := ?_; clear_value x)
    | (extract_lets +onlyGivenNames x; refine isPart x (by constructor) ?_; subst x)
    | (extract_lets +onlyGivenNames x; clear_value x) | with_reducible apply ite_h | split | dsimp only [Keeps])

theorem dropSwaps_b (p : Nat → Bool) (s : State) (hs : Keeps z0 s) : Keeps z0 (dropSwaps p s) := by
  unfold dropSwaps
  repeat' (first
    | with_reducible assumption | intro _ | subst x
    | (extract_lets +onlyGivenNames x; have hx : Keeps z0 x := ?_; clear_value x)
    | (extract_lets +onlyGivenNames x; refine isPart x (by constructor) ?_; subst x)
    | (extract_lets +onlyGivenNames x; clear_value x) | with_reducible apply ite_h | split | dsimp only [Keeps])

theorem failPhase_b (r : Nat) (p : Nat) (cause : Nat) (s : State) (hs : Keeps z0 s) : Keeps z0 (failPhase r p cause s) := by
  unfold failPhase
  repeat' (first
    | with_reducible assumption | intro _ | subst x
    | (extract_lets +onlyGivenNames x; have hx : Keeps z0 x := ?_; clear_value x)
    | (extract_lets +onlyGivenNames x; refine isPart x (by constructor) ?_; subst x)
    | (extract_lets +onlyGivenNames x; clear_value x) | with_reducible apply ite_h | split | with_reducible apply dropSwaps_b
    | with_reducible apply raiseG_b | with_reducible apply setPh_b | with_reducible apply disarm_b | dsimp only [Keeps])

theorem failPass_b (c : Nat) (p1 isOpen : Bool) (s : State) (hs : Keeps z0 s) : Keeps z0 (failPass c p1 isOpen s) := by
  unfold failPass
  extract_lets +onlyGivenNames l l' r u
  have hu : Keeps z0 u := ite_b (dropSwaps_b _ _ hs) hs
  clear_value u
  have hk : Keeps z0 (setLdo c l' u) := setLdo_b _ _ _ hu
  exact raiseG_b _ _ _ (disarm_b _ _ hk)

theorem execPhaseflt_b (d : FailDev) (s : State) (hs : Keeps z0 s) : OutB z0 (execPhaseflt d s) := by
  unfold execPhaseflt
  repeat' (first
    | with_reducible assumption | with_reducible apply out_b | intro _ | subst x
    | (extract_lets +onlyGivenNames x; have hx : Keeps z0 x := ?_; clear_value x)
    | (extract_lets +onlyGivenNames x; refine isPart x (by constructor) ?_; subst x)
    | (extract_lets +onlyGivenNames x; clear_value x) | with_reducible apply ite_h | split | with_reducible apply failPass_b
    | with_reducible apply failPhase_b | dsimp only [Keeps])

theorem execSparein_b (d : SpareRail) (s : State) (hs : Keeps z0 s) : OutB z0 (execSparein d s) := by
  unfold execSparein
  repeat' (first
    | with_reducible assumption | with_reducible apply out_b | intro _ | subst x
    | (extract_lets +onlyGivenNames x; have hx : Keeps z0 x := ?_; clear_value x)
    | (extract_lets +onlyGivenNames x; refine isPart x (by constructor) ?_; subst x)
    | (extract_lets +onlyGivenNames x; clear_value x) | with_reducible apply ite_h | split | with_reducible apply raiseG_b
    | with_reducible apply setLdo_b | with_reducible apply setPh_b | dsimp only [Keeps])

theorem execStgflt_b (x : ChanEdge) (s : State) (hs : Keeps z0 s) : OutB z0 (execStgflt x s) := by
  unfold execStgflt
  repeat' (first
    | with_reducible assumption | with_reducible apply out_b | intro _ | subst x
    | (extract_lets +onlyGivenNames x; have hx : Keeps z0 x := ?_; clear_value x)
    | (extract_lets +onlyGivenNames x; refine isPart x (by constructor) ?_; subst x)
    | (extract_lets +onlyGivenNames x; clear_value x) | with_reducible apply ite_h | split | with_reducible apply raiseIf_b
    | dsimp only [Keeps])

theorem execImbal_b (r : Rail) (s : State) (hs : Keeps z0 s) : OutB z0 (execImbal r s) := by
  unfold execImbal
  repeat' (first
    | with_reducible assumption | with_reducible apply out_b | intro _ | subst x
    | (extract_lets +onlyGivenNames x; have hx : Keeps z0 x := ?_; clear_value x)
    | (extract_lets +onlyGivenNames x; refine isPart x (by constructor) ?_; subst x)
    | (extract_lets +onlyGivenNames x; clear_value x) | with_reducible apply ite_h | split | with_reducible apply raiseG_b
    | dsimp only [Keeps])

theorem execImbalRearm_b (r : Rail) (s : State) (hs : Keeps z0 s) : OutB z0 (execImbalRearm r s) := by
  unfold execImbalRearm
  repeat' (first
    | with_reducible assumption | with_reducible apply out_b | intro _ | subst x
    | (extract_lets +onlyGivenNames x; have hx : Keeps z0 x := ?_; clear_value x)
    | (extract_lets +onlyGivenNames x; refine isPart x (by constructor) ?_; subst x)
    | (extract_lets +onlyGivenNames x; clear_value x) | with_reducible apply ite_h | split | dsimp only [Keeps])

theorem stopBlock_b (r : Nat) (s : State) (hs : Keeps z0 s) : Keeps z0 (stopBlock r s) := by
  unfold stopBlock
  repeat' (first
    | with_reducible assumption | intro _ | subst x
    | (extract_lets +onlyGivenNames x; have hx : Keeps z0 x := ?_; clear_value x)
    | (extract_lets +onlyGivenNames x; refine isPart x (by constructor) ?_; subst x)
    | (extract_lets +onlyGivenNames x; clear_value x) | with_reducible apply ite_h | split | with_reducible apply disarm_b
    | dsimp only [Keeps])

theorem restartBlock_b (r : Nat) (s : State) (hs : Keeps z0 s) : Keeps z0 (restartBlock r s) := by
  unfold restartBlock
  repeat' (first
    | with_reducible assumption | intro _ | subst x
    | (extract_lets +onlyGivenNames x; have hx : Keeps z0 x := ?_; clear_value x)
    | (extract_lets +onlyGivenNames x; refine isPart x (by constructor) ?_; subst x)
    | (extract_lets +onlyGivenNames x; clear_value x) | with_reducible apply ite_h | split | with_reducible apply startRamp_b
    | dsimp only [Keeps])

theorem execPvinLow_b (c : Chan) (s : State) (hs : Keeps z0 s) : OutB z0 (execPvinLow c s) := by
  unfold execPvinLow
  repeat' (first
    | with_reducible assumption | with_reducible apply out_b | intro _ | subst x
    | (extract_lets +onlyGivenNames x; have hx : Keeps z0 x := ?_; clear_value x)
    | (extract_lets +onlyGivenNames x; refine isPart x (by constructor) ?_; subst x)
    | (extract_lets +onlyGivenNames x; clear_value x) | with_reducible apply ite_h | split | with_reducible apply stopBlock_b
    | dsimp only [Keeps])

theorem execPvinRestore_b (c : Chan) (s : State) (hs : Keeps z0 s) : OutB z0 (execPvinRestore c s) := by
  unfold execPvinRestore
  repeat' (first
    | with_reducible assumption | with_reducible apply out_b | intro _ | subst x
    | (extract_lets +onlyGivenNames x; have hx : Keeps z0 x := ?_; clear_value x)
    | (extract_lets +onlyGivenNames x; refine isPart x (by constructor) ?_; subst x)
    | (extract_lets +onlyGivenNames x; clear_value x) | with_reducible apply ite_h | split | with_reducible apply restartBlock_b
    | dsimp only [Keeps])

theorem execMinton_b (x : RailEdge) (s : State) (hs : Keeps z0 s) : OutB z0 (execMinton x s) := by
  unfold execMinton
  repeat' (first
    | with_reducible assumption | with_reducible apply out_b | intro _ | subst x
    | (extract_lets +onlyGivenNames x; have hx : Keeps z0 x := ?_; clear_value x)
    | (extract_lets +onlyGivenNames x; refine isPart x (by constructor) ?_; subst x)
    | (extract_lets +onlyGivenNames x; clear_value x) | with_reducible apply ite_h | split | with_reducible apply raiseIf_b
    | dsimp only [Keeps])

theorem execHotspot_b (r : Rail) (s : State) (hs : Keeps z0 s) : OutB z0 (execHotspot r s) := by
  unfold execHotspot
  repeat' (first
    | with_reducible assumption | with_reducible apply out_b | intro _ | subst x
    | (extract_lets +onlyGivenNames x; have hx : Keeps z0 x := ?_; clear_value x)
    | (extract_lets +onlyGivenNames x; refine isPart x (by constructor) ?_; subst x)
    | (extract_lets +onlyGivenNames x; clear_value x) | with_reducible apply ite_h | split | with_reducible apply ownOff_b
    | with_reducible apply react_b | with_reducible apply raise_b | dsimp only [Keeps])

theorem execHotspotRelease_b (r : Rail) (s : State) (hs : Keeps z0 s) : OutB z0 (execHotspotRelease r s) := by
  unfold execHotspotRelease
  repeat' (first
    | with_reducible assumption | with_reducible apply out_b | intro _ | subst x
    | (extract_lets +onlyGivenNames x; have hx : Keeps z0 x := ?_; clear_value x)
    | (extract_lets +onlyGivenNames x; refine isPart x (by constructor) ?_; subst x)
    | (extract_lets +onlyGivenNames x; clear_value x) | with_reducible apply ite_h | split | with_reducible apply restartBlock_b
    | dsimp only [Keeps])

theorem execDropout_b (x : ChanEdge) (s : State) (hs : Keeps z0 s) : OutB z0 (execDropout x s) := by
  unfold execDropout
  repeat' (first
    | with_reducible assumption | with_reducible apply out_b | intro _ | subst x
    | (extract_lets +onlyGivenNames x; have hx : Keeps z0 x := ?_; clear_value x)
    | (extract_lets +onlyGivenNames x; refine isPart x (by constructor) ?_; subst x)
    | (extract_lets +onlyGivenNames x; clear_value x) | with_reducible apply ite_h | split | with_reducible apply raiseIf_b
    | with_reducible apply setLdo_b | dsimp only [Keeps])

theorem execRevblk_b (c : Chan) (s : State) (hs : Keeps z0 s) : OutB z0 (execRevblk c s) := by
  unfold execRevblk
  repeat' (first
    | with_reducible assumption | with_reducible apply out_b | intro _ | subst x
    | (extract_lets +onlyGivenNames x; have hx : Keeps z0 x := ?_; clear_value x)
    | (extract_lets +onlyGivenNames x; refine isPart x (by constructor) ?_; subst x)
    | (extract_lets +onlyGivenNames x; clear_value x) | with_reducible apply ite_h | split | with_reducible apply raiseG_b
    | dsimp only [Keeps])

theorem execRevblkRelease_b (c : Chan) (s : State) (hs : Keeps z0 s) : OutB z0 (execRevblkRelease c s) := by
  unfold execRevblkRelease
  repeat' (first
    | with_reducible assumption | with_reducible apply out_b | intro _ | subst x
    | (extract_lets +onlyGivenNames x; have hx : Keeps z0 x := ?_; clear_value x)
    | (extract_lets +onlyGivenNames x; refine isPart x (by constructor) ?_; subst x)
    | (extract_lets +onlyGivenNames x; clear_value x) | with_reducible apply ite_h | split | dsimp only [Keeps])

theorem execVlow_b (c : Chan) (s : State) (hs : Keeps z0 s) : OutB z0 (execVlow c s) := by
  unfold execVlow
  repeat' (first
    | with_reducible assumption | with_reducible apply out_b | intro _ | subst x
    | (extract_lets +onlyGivenNames x; have hx : Keeps z0 x := ?_; clear_value x)
    | (extract_lets +onlyGivenNames x; refine isPart x (by constructor) ?_; subst x)
    | (extract_lets +onlyGivenNames x; clear_value x) | with_reducible apply ite_h | split | with_reducible apply stopBlock_b
    | with_reducible apply losePg_b | with_reducible apply raiseG_b | dsimp only [Keeps])

theorem execVlowRestart_b (c : Chan) (s : State) (hs : Keeps z0 s) : OutB z0 (execVlowRestart c s) := by
  unfold execVlowRestart
  repeat' (first
    | with_reducible assumption | with_reducible apply out_b | intro _ | subst x
    | (extract_lets +onlyGivenNames x; have hx : Keeps z0 x := ?_; clear_value x)
    | (extract_lets +onlyGivenNames x; refine isPart x (by constructor) ?_; subst x)
    | (extract_lets +onlyGivenNames x; clear_value x) | with_reducible apply ite_h | split | with_reducible apply restartBlock_b
    | dsimp only [Keeps])

theorem execQuenchEnd_b (r : Rail) (timeout : Bool) (s : State) (hs : Keeps z0 s) : OutB z0 (execQuenchEnd r timeout s) := by
  refine out_b (ite_h (fun h => settle_b _ ?_) (fun _ => disarm_b _ _ hs))
  have hk : Keeps z0 (if timeout then raiseG r.val 6 s else outputDown r.val s) := ite_b (raiseG_b _ _ _ hs) (outputDown_b _ _ hs)
  have same : (if timeout then raiseG r.val 6 s else outputDown r.val s).rl.en = s.rl.en ∧
      (if timeout then raiseG r.val 6 s else outputDown r.val s).rl.qu = s.rl.qu ∧
      (if timeout then raiseG r.val 6 s else outputDown r.val s).rl.up = s.rl.up := by
    cases timeout
    · exact ⟨rfl, rfl, rfl⟩
    · simp
  generalize (if timeout then raiseG r.val 6 s else outputDown r.val s) = u at hk same
  by_cases he : has u.rl.en r.val = false
  · exact markDown_b _ _ he hk
  · have hd := disarm_b (.quenchEnd r true) _ (disarm_b (.stoptmo r) _ (disarm_b (.railDown r) _ hk))
    refine { hd with rails := fun w => ?_ }
    exact absurd (((hs.rails w) r.val).2 (by rw [← same.1]; simpa using he)).2 (by rw [h]; decide)

theorem execRailEnable_b (r : Rail) (s : State) (hs : Keeps z0 s) : OutB z0 (execRailEnable r s) := by
  unfold execRailEnable
  repeat' (first
    | with_reducible assumption | with_reducible apply out_b | intro _ | subst x
    | (extract_lets +onlyGivenNames x; have hx : Keeps z0 x := ?_; clear_value x)
    | (extract_lets +onlyGivenNames x; refine isPart x (by constructor) ?_; subst x)
    | (extract_lets +onlyGivenNames x; clear_value x) | with_reducible apply ite_h | split | with_reducible apply enableRail_b
    | with_reducible apply disarm_b | dsimp only [Keeps])

theorem execRailOffDelay_b (r : Rail) (s : State) (hs : Keeps z0 s) : OutB z0 (execRailOffDelay r s) := by
  unfold execRailOffDelay
  repeat' (first
    | with_reducible assumption | with_reducible apply out_b | intro _ | subst x
    | (extract_lets +onlyGivenNames x; have hx : Keeps z0 x := ?_; clear_value x)
    | (extract_lets +onlyGivenNames x; refine isPart x (by constructor) ?_; subst x)
    | (extract_lets +onlyGivenNames x; clear_value x) | with_reducible apply ite_h | split | with_reducible apply settle_b
    | with_reducible apply switchOff_b | with_reducible apply disarm_b | dsimp only [Keeps])

theorem execRailDown_b (r : Rail) (s : State) (hs : Keeps z0 s) : OutB z0 (execRailDown r s) := by
  unfold execRailDown
  repeat' (first
    | with_reducible assumption | with_reducible apply out_b | intro _ | subst x
    | (extract_lets +onlyGivenNames x; have hx : Keeps z0 x := ?_; clear_value x)
    | (extract_lets +onlyGivenNames x; refine isPart x (by constructor) ?_; subst x)
    | (extract_lets +onlyGivenNames x; clear_value x) | with_reducible apply ite_h | split | with_reducible apply settle_b
    | with_reducible apply markDown_b | with_reducible apply outputDown_b | with_reducible apply disarm_b
    | (show has _ _ = _; simp_all [canPg, outputDown]; done) | dsimp only [Keeps])

theorem execStoptmo_b (r : Rail) (s : State) (hs : Keeps z0 s) : OutB z0 (execStoptmo r s) := by
  unfold execStoptmo
  repeat' (first
    | with_reducible assumption | with_reducible apply out_b | intro _ | subst x
    | (extract_lets +onlyGivenNames x; have hx : Keeps z0 x := ?_; clear_value x)
    | (extract_lets +onlyGivenNames x; refine isPart x (by constructor) ?_; subst x)
    | (extract_lets +onlyGivenNames x; clear_value x) | with_reducible apply ite_h | split | with_reducible apply settle_b
    | with_reducible apply markDown_b | with_reducible apply raiseG_b | with_reducible apply disarm_b
    | (show has _ _ = _; simp_all [canPg, outputDown]; done) | dsimp only [Keeps])

theorem execMinoffEnd_b (s : State) (hs : Keeps z0 s) : OutB z0 (execMinoffEnd s) := by
  unfold execMinoffEnd
  repeat' (first
    | with_reducible assumption | with_reducible apply out_b | intro _ | subst x
    | (extract_lets +onlyGivenNames x; have hx : Keeps z0 x := ?_; clear_value x)
    | (extract_lets +onlyGivenNames x; refine isPart x (by constructor) ?_; subst x)
    | (extract_lets +onlyGivenNames x; clear_value x) | with_reducible apply ite_h | split | with_reducible apply startCheck_b
    | with_reducible apply decideStart_b | with_reducible apply disarm_b | dsimp only [Keeps])

theorem execRetrySpaceEnd_b (r : Rail) (s : State) (hs : Keeps z0 s) : OutB z0 (execRetrySpaceEnd r s) := by
  unfold execRetrySpaceEnd
  repeat' (first
    | with_reducible assumption | with_reducible apply out_b | intro _ | subst x
    | (extract_lets +onlyGivenNames x; have hx : Keeps z0 x := ?_; clear_value x)
    | (extract_lets +onlyGivenNames x; refine isPart x (by constructor) ?_; subst x)
    | (extract_lets +onlyGivenNames x; clear_value x) | with_reducible apply ite_h | split | with_reducible apply restartSet_b
    | with_reducible apply disarm_b
    | (refine kept_maps (by with_reducible assumption) ?_; exact fun w => { w with rset := by dsimp only [mapsOf]; exact mwf_mput _ _ _ _ w.rset })
    | dsimp only [Keeps])

theorem execRetryCountClear_b (r : Rail) (s : State) (hs : Keeps z0 s) : OutB z0 (execRetryCountClear r s) := by
  unfold execRetryCountClear
  repeat' (first
    | with_reducible assumption | with_reducible apply out_b | intro _ | subst x
    | (extract_lets +onlyGivenNames x; have hx : Keeps z0 x := ?_; clear_value x)
    | (extract_lets +onlyGivenNames x; refine isPart x (by constructor) ?_; subst x)
    | (extract_lets +onlyGivenNames x; clear_value x) | with_reducible apply ite_h | split | with_reducible apply disarm_b
    | (refine kept_maps (by with_reducible assumption) ?_; exact fun w => { w with retries := by dsimp only [mapsOf]; exact mwf_mput _ _ _ _ w.retries })
    | dsimp only [Keeps])

theorem execResetRelease_b (x : Fin 5) (s : State) (hs : Keeps z0 s) : OutB z0 (execResetRelease x s) := by
  unfold execResetRelease
  repeat' (first
    | with_reducible assumption | with_reducible apply out_b | intro _ | subst x
    | (extract_lets +onlyGivenNames x; have hx : Keeps z0 x := ?_; clear_value x)
    | (extract_lets +onlyGivenNames x; refine isPart x (by constructor) ?_; subst x)
    | (extract_lets +onlyGivenNames x; clear_value x) | with_reducible apply ite_h | split | with_reducible apply wdArm_b
    | with_reducible apply disarm_b | dsimp only [Keeps])

theorem execExtpgdly_b (n : Fin 7) (s : State) (hs : Keeps z0 s) : OutB z0 (execExtpgdly n s) := by
  unfold execExtpgdly
  repeat' (first
    | with_reducible assumption | with_reducible apply out_b | intro _ | subst x
    | (extract_lets +onlyGivenNames x; have hx : Keeps z0 x := ?_; clear_value x)
    | (extract_lets +onlyGivenNames x; refine isPart x (by constructor) ?_; subst x)
    | (extract_lets +onlyGivenNames x; clear_value x) | with_reducible apply ite_h | split | with_reducible apply becomePg_b
    | with_reducible apply disarm_b | (show has _ _ = _; simp_all [canPg, outputDown]; done) | dsimp only [Keeps])

theorem strkclrBit_b (c : Nat) (s : State) (hs : Keeps z0 s) : Keeps z0 (strkclrBit c s) := by
  unfold strkclrBit
  repeat' (first
    | with_reducible assumption | intro _ | subst x
    | (extract_lets +onlyGivenNames x; have hx : Keeps z0 x := ?_; clear_value x)
    | (extract_lets +onlyGivenNames x; refine isPart x (by constructor) ?_; subst x)
    | (extract_lets +onlyGivenNames x; clear_value x) | with_reducible apply ite_h | split
    | (refine kept_maps (by with_reducible assumption) ?_; exact fun w => { w with strkn := by dsimp only [mapsOf]; exact mwf_mput _ _ _ _ w.strkn })
    | dsimp only [Keeps])

theorem execStrkclr_b (c : Chan) (s : State) (hs : Keeps z0 s) : OutB z0 (execStrkclr c s) := by
  unfold execStrkclr
  repeat' (first
    | with_reducible assumption | with_reducible apply out_b | intro _ | subst x
    | (extract_lets +onlyGivenNames x; have hx : Keeps z0 x := ?_; clear_value x)
    | (extract_lets +onlyGivenNames x; refine isPart x (by constructor) ?_; subst x)
    | (extract_lets +onlyGivenNames x; clear_value x) | with_reducible apply ite_h | split | with_reducible apply strkclrBit_b
    | with_reducible apply onPage_b | dsimp only [Keeps])

theorem cntClrBit_b (s : State) (hs : Keeps z0 s) : Keeps z0 (cntClrBit s) := by
  unfold cntClrBit
  repeat' (first
    | with_reducible assumption | intro _ | subst x
    | (extract_lets +onlyGivenNames x; have hx : Keeps z0 x := ?_; clear_value x)
    | (extract_lets +onlyGivenNames x; refine isPart x (by constructor) ?_; subst x)
    | (extract_lets +onlyGivenNames x; clear_value x) | with_reducible apply ite_h | split
    | (refine kept_maps (by with_reducible assumption) ?_; exact fun w => { w with cnt := mwf_filter _ _ _ w.cnt })
    | dsimp only [Keeps])

theorem cntClrallBit_b (s : State) (hs : Keeps z0 s) : Keeps z0 (cntClrallBit s) := by
  unfold cntClrallBit
  repeat' (first
    | with_reducible assumption | intro _ | subst x
    | (extract_lets +onlyGivenNames x; have hx : Keeps z0 x := ?_; clear_value x)
    | (extract_lets +onlyGivenNames x; refine isPart x (by constructor) ?_; subst x)
    | (extract_lets +onlyGivenNames x; clear_value x) | with_reducible apply ite_h | split
    | (refine kept_maps (by with_reducible assumption) ?_; exact fun w => { w with cnt := rfl })
    | dsimp only [Keeps])

theorem execCntctlClr_b (s : State) (hs : Keeps z0 s) : OutB z0 (execCntctlClr s) := by
  unfold execCntctlClr
  repeat' (first
    | with_reducible assumption | with_reducible apply out_b | intro _ | subst x
    | (extract_lets +onlyGivenNames x; have hx : Keeps z0 x := ?_; clear_value x)
    | (extract_lets +onlyGivenNames x; refine isPart x (by constructor) ?_; subst x)
    | (extract_lets +onlyGivenNames x; clear_value x) | with_reducible apply ite_h | split | with_reducible apply cntClrBit_b
    | with_reducible apply onPage_b | dsimp only [Keeps])

theorem execCntctlClrall_b (s : State) (hs : Keeps z0 s) : OutB z0 (execCntctlClrall s) := by
  unfold execCntctlClrall
  repeat' (first
    | with_reducible assumption | with_reducible apply out_b | intro _ | subst x
    | (extract_lets +onlyGivenNames x; have hx : Keeps z0 x := ?_; clear_value x)
    | (extract_lets +onlyGivenNames x; refine isPart x (by constructor) ?_; subst x)
    | (extract_lets +onlyGivenNames x; clear_value x) | with_reducible apply ite_h | split | with_reducible apply cntClrallBit_b
    | with_reducible apply onPage_b | dsimp only [Keeps])

theorem monClrBit_b (s : State) (hs : Keeps z0 s) : Keeps z0 (monClrBit s) := by
  unfold monClrBit
  repeat' (first
    | with_reducible assumption | intro _ | subst x
    | (extract_lets +onlyGivenNames x; have hx : Keeps z0 x := ?_; clear_value x)
    | (extract_lets +onlyGivenNames x; refine isPart x (by constructor) ?_; subst x)
    | (extract_lets +onlyGivenNames x; clear_value x) | with_reducible apply ite_h | split | dsimp only [Keeps])

theorem execMonctlClr_b (s : State) (hs : Keeps z0 s) : OutB z0 (execMonctlClr s) := by
  unfold execMonctlClr
  repeat' (first
    | with_reducible assumption | with_reducible apply out_b | intro _ | subst x
    | (extract_lets +onlyGivenNames x; have hx : Keeps z0 x := ?_; clear_value x)
    | (extract_lets +onlyGivenNames x; refine isPart x (by constructor) ?_; subst x)
    | (extract_lets +onlyGivenNames x; clear_value x) | with_reducible apply ite_h | split | with_reducible apply monClrBit_b
    | with_reducible apply onPage_b | dsimp only [Keeps])

theorem tryS2_b (s : State) (hs : Keeps z0 s) : Keeps z0 (tryS2 s) := by
  unfold tryS2
  split
  · rename_i h
    simp only [Bool.and_eq_true, decide_eq_true_eq] at h
    exact raiseG_b _ _ _ (kept_pilot hs (fun _ _ => h.1.1.1.1.1.2))
  · exact hs

theorem pilotAck_b (s : State) (hs : Keeps z0 s) : Keeps z0 (pilotAck s) := by
  unfold pilotAck
  repeat' (first
    | with_reducible assumption | intro _ | subst x
    | (extract_lets +onlyGivenNames x; have hx : Keeps z0 x := ?_; clear_value x)
    | (extract_lets +onlyGivenNames x; refine isPart x (by constructor) ?_; subst x)
    | (extract_lets +onlyGivenNames x; clear_value x) | with_reducible apply ite_h | split | with_reducible apply stopResponse_b
    | with_reducible apply raiseG_b | dsimp only [Keeps])

theorem pilotClassify_b (c : Nat) (s : State) (hs : Keeps z0 s) : Keeps z0 (pilotClassify c s) := by
  unfold pilotClassify
  repeat' (first
    | with_reducible assumption | intro _ | subst x
    | (extract_lets +onlyGivenNames x; have hx : Keeps z0 x := ?_; clear_value x)
    | (extract_lets +onlyGivenNames x; refine isPart x (by constructor) ?_; subst x)
    | (extract_lets +onlyGivenNames x; clear_value x) | with_reducible apply ite_h | split | with_reducible apply tryS2_b
    | with_reducible apply causeIf_b | with_reducible apply raiseIf_b | with_reducible apply raiseG_b
    | dsimp only [Keeps, setPlt])

theorem publishPilot_b (s : State) (hs : Keeps z0 s) : Keeps z0 (publishPilot s) := by
  unfold publishPilot
  repeat' (first
    | with_reducible assumption | intro _ | subst x
    | (extract_lets +onlyGivenNames x; have hx : Keeps z0 x := ?_; clear_value x)
    | (extract_lets +onlyGivenNames x; refine isPart x (by constructor) ?_; subst x)
    | (extract_lets +onlyGivenNames x; clear_value x) | with_reducible apply ite_h | split | with_reducible apply setCurr_b
    | with_reducible apply raiseIf_b | with_reducible apply foldl_b | dsimp only [Keeps, setPlt])

theorem diodeCheck_b (lo : Int) (s : State) (hs : Keeps z0 s) : Keeps z0 (diodeCheck lo s) := by
  unfold diodeCheck
  repeat' (first
    | with_reducible assumption | intro _ | subst x
    | (extract_lets +onlyGivenNames x; have hx : Keeps z0 x := ?_; clear_value x)
    | (extract_lets +onlyGivenNames x; refine isPart x (by constructor) ?_; subst x)
    | (extract_lets +onlyGivenNames x; clear_value x) | with_reducible apply ite_h | split | with_reducible apply raiseG_b
    | dsimp only [Keeps, setPlt])

theorem latchDuty_b (s : State) (hs : Keeps z0 s) : Keeps z0 (latchDuty s) := by
  unfold latchDuty
  repeat' (first
    | with_reducible assumption | intro _ | subst x
    | (extract_lets +onlyGivenNames x; have hx : Keeps z0 x := ?_; clear_value x)
    | (extract_lets +onlyGivenNames x; refine isPart x (by constructor) ?_; subst x)
    | (extract_lets +onlyGivenNames x; clear_value x) | with_reducible apply ite_h | split | dsimp only [Keeps, setPlt])

theorem execPilotPeriod_b (hi : Int) (lo : Int) (duty : Nat) (freq : Nat) (s : State) (hs : Keeps z0 s) : OutB z0
    (execPilotPeriod hi lo duty freq s) := by
  unfold execPilotPeriod
  repeat' (first
    | with_reducible assumption | with_reducible apply out_b | intro _ | subst x
    | (extract_lets +onlyGivenNames x; have hx : Keeps z0 x := ?_; clear_value x)
    | (extract_lets +onlyGivenNames x; refine isPart x (by constructor) ?_; subst x)
    | (extract_lets +onlyGivenNames x; clear_value x) | with_reducible apply ite_h | split | with_reducible apply latchDuty_b
    | with_reducible apply diodeCheck_b | with_reducible apply publishPilot_b | with_reducible apply pilotClassify_b
    | with_reducible apply tryS2_b | with_reducible apply setOsc_b | with_reducible apply arm_b | dsimp only [Keeps, setPlt])

theorem execPwmoff_b (s : State) (hs : Keeps z0 s) : OutB z0 (execPwmoff s) := by
  unfold execPwmoff
  repeat' (first
    | with_reducible assumption | with_reducible apply out_b | intro _ | subst x
    | (extract_lets +onlyGivenNames x; have hx : Keeps z0 x := ?_; clear_value x)
    | (extract_lets +onlyGivenNames x; refine isPart x (by constructor) ?_; subst x)
    | (extract_lets +onlyGivenNames x; clear_value x) | with_reducible apply ite_h | split | with_reducible apply noPwm_b
    | with_reducible apply disarm_b | dsimp only [Keeps])

theorem execPilotDcWindow_b (mv : Int) (s : State) (hs : Keeps z0 s) : OutB z0 (execPilotDcWindow mv s) := by
  unfold execPilotDcWindow
  repeat' (first
    | with_reducible assumption | with_reducible apply out_b | intro _ | subst x
    | (extract_lets +onlyGivenNames x; have hx : Keeps z0 x := ?_; clear_value x)
    | (extract_lets +onlyGivenNames x; refine isPart x (by constructor) ?_; subst x)
    | (extract_lets +onlyGivenNames x; clear_value x) | with_reducible apply ite_h | split | with_reducible apply latchDuty_b
    | with_reducible apply pilotClassify_b | dsimp only [Keeps, setPlt])

theorem setPp_b (c : Nat) (s : State) (hs : Keeps z0 s) : Keeps z0 (setPp c s) := by
  unfold setPp
  repeat' (first
    | with_reducible assumption | intro _ | subst x
    | (extract_lets +onlyGivenNames x; have hx : Keeps z0 x := ?_; clear_value x)
    | (extract_lets +onlyGivenNames x; refine isPart x (by constructor) ?_; subst x)
    | (extract_lets +onlyGivenNames x; clear_value x) | with_reducible apply ite_h | split | with_reducible apply tryS2_b
    | with_reducible apply causeIf_b | with_reducible apply openS2_b | with_reducible apply raiseIf_b
    | with_reducible apply raiseG_b | dsimp only [Keeps, setPlt])

theorem execPpConversion_b (mv : Nat) (s : State) (hs : Keeps z0 s) : OutB z0 (execPpConversion mv s) := by
  unfold execPpConversion
  repeat' (first
    | with_reducible assumption | with_reducible apply out_b | intro _ | subst x
    | (extract_lets +onlyGivenNames x; have hx : Keeps z0 x := ?_; clear_value x)
    | (extract_lets +onlyGivenNames x; refine isPart x (by constructor) ?_; subst x)
    | (extract_lets +onlyGivenNames x; clear_value x) | with_reducible apply ite_h | split | with_reducible apply setPp_b
    | dsimp only [Keeps, setPlt])

theorem pswByte_b (v : Byte) (s : State) (hs : Keeps z0 s) : Keeps z0 (pswByte v s) := by
  unfold pswByte
  repeat' (first
    | with_reducible assumption | intro _ | subst x
    | (extract_lets +onlyGivenNames x; have hx : Keeps z0 x := ?_; clear_value x)
    | (extract_lets +onlyGivenNames x; refine isPart x (by constructor) ?_; subst x)
    | (extract_lets +onlyGivenNames x; clear_value x) | with_reducible apply ite_h | split | with_reducible apply pilotAck_b
    | with_reducible apply tryS2_b | with_reducible apply plainByte_b | with_reducible apply openS2_b | dsimp only [Keeps])

theorem execPswWrite_b (v : Byte) (s : State) (hs : Keeps z0 s) : OutB z0 (execPswWrite v s) := by
  unfold execPswWrite
  repeat' (first
    | with_reducible assumption | with_reducible apply out_b | intro _ | subst x
    | (extract_lets +onlyGivenNames x; have hx : Keeps z0 x := ?_; clear_value x)
    | (extract_lets +onlyGivenNames x; refine isPart x (by constructor) ?_; subst x)
    | (extract_lets +onlyGivenNames x; clear_value x) | with_reducible apply ite_h | split | with_reducible apply pswByte_b
    | with_reducible apply onPage_b | dsimp only [Keeps])

theorem execPack_b (s : State) (hs : Keeps z0 s) : OutB z0 (execPack s) := by
  unfold execPack
  repeat' (first
    | with_reducible assumption | with_reducible apply out_b | intro _ | subst x
    | (extract_lets +onlyGivenNames x; have hx : Keeps z0 x := ?_; clear_value x)
    | (extract_lets +onlyGivenNames x; refine isPart x (by constructor) ?_; subst x)
    | (extract_lets +onlyGivenNames x; clear_value x) | with_reducible apply ite_h | split | with_reducible apply pilotAck_b
    | with_reducible apply onPage_b | dsimp only [Keeps])

theorem execRspsoft_b (s : State) (hs : Keeps z0 s) : OutB z0 (execRspsoft s) := by
  unfold execRspsoft
  repeat' (first
    | with_reducible assumption | with_reducible apply out_b | intro _ | subst x
    | (extract_lets +onlyGivenNames x; have hx : Keeps z0 x := ?_; clear_value x)
    | (extract_lets +onlyGivenNames x; refine isPart x (by constructor) ?_; subst x)
    | (extract_lets +onlyGivenNames x; clear_value x) | with_reducible apply ite_h | split | with_reducible apply openS2_b
    | with_reducible apply raiseG_b | with_reducible apply arm_b | with_reducible apply disarm_b | dsimp only [Keeps, setPlt])

theorem execRsphard_b (s : State) (hs : Keeps z0 s) : OutB z0 (execRsphard s) := by
  unfold execRsphard
  repeat' (first
    | with_reducible assumption | with_reducible apply out_b | intro _ | subst x
    | (extract_lets +onlyGivenNames x; have hx : Keeps z0 x := ?_; clear_value x)
    | (extract_lets +onlyGivenNames x; refine isPart x (by constructor) ?_; subst x)
    | (extract_lets +onlyGivenNames x; clear_value x) | with_reducible apply ite_h | split | with_reducible apply raiseG_b
    | with_reducible apply disarm_b | dsimp only [Keeps, setPlt])

theorem clearPsw_b (s : State) (hs : Keeps z0 s) : Keeps z0 (clearPsw s) := by
  unfold clearPsw
  repeat' (first
    | with_reducible assumption | intro _ | subst x
    | (extract_lets +onlyGivenNames x; have hx : Keeps z0 x := ?_; clear_value x)
    | (extract_lets +onlyGivenNames x; refine isPart x (by constructor) ?_; subst x)
    | (extract_lets +onlyGivenNames x; clear_value x) | with_reducible apply ite_h | split | with_reducible apply openS2_b
    | with_reducible apply putPlain_b | dsimp only [Keeps])

theorem roleRej_b (err : Byte) (s : State) (hs : Keeps z0 s) : Keeps z0 (roleRej err s) := by
  unfold roleRej
  repeat' (first
    | with_reducible assumption | intro _ | subst x
    | (extract_lets +onlyGivenNames x; have hx : Keeps z0 x := ?_; clear_value x)
    | (extract_lets +onlyGivenNames x; refine isPart x (by constructor) ?_; subst x)
    | (extract_lets +onlyGivenNames x; clear_value x) | with_reducible apply ite_h | split | with_reducible apply reject_b
    | with_reducible apply raiseG_b | dsimp only [Keeps])

theorem openS2_opened (s : State) : (openS2 s).plt.s2 = false := by
  unfold openS2
  split
  · rw [raiseG_plt]; rfl
  · rename_i h; simpa using h

theorem startSwap_b (supply : Bool) (s : State) (hs : Keeps z0 s) : Keeps z0 (startSwap supply s) := by
  have hk := stopResponse_b _ (openS2_b s hs)
  have h2 : (stopResponse (openS2 s)).plt.s2 = false := openS2_opened s
  exact arm_b _ _ _ (slotBusy_b _ (kept_pilot hk fun _ h => absurd (h2.symm.trans h) Bool.false_ne_true))

theorem pilotRole_b (p : Packet) (s : State) (hs : Keeps z0 s) : Keeps z0 (pilotRole p s) := by
  unfold pilotRole
  repeat' (first
    | with_reducible assumption | intro _ | subst x
    | (extract_lets +onlyGivenNames x; have hx : Keeps z0 x := ?_; clear_value x)
    | (extract_lets +onlyGivenNames x; refine isPart x (by constructor) ?_; subst x)
    | (extract_lets +onlyGivenNames x; clear_value x) | with_reducible apply ite_h | split | with_reducible apply startSwap_b
    | with_reducible apply roleRej_b | with_reducible apply doneWith_b | with_reducible apply rejectOpen_b
    | with_reducible apply raiseG_b | dsimp only [Keeps])

theorem execPilotRole_b (p : Packet) (s : State) (hs : Keeps z0 s) : OutB z0 (execPilotRole p s) := by
  unfold execPilotRole
  repeat' (first
    | with_reducible assumption | with_reducible apply out_b | intro _ | subst x
    | (extract_lets +onlyGivenNames x; have hx : Keeps z0 x := ?_; clear_value x)
    | (extract_lets +onlyGivenNames x; refine isPart x (by constructor) ?_; subst x)
    | (extract_lets +onlyGivenNames x; clear_value x) | with_reducible apply ite_h | split | with_reducible apply pilotRole_b
    | with_reducible apply packet_b | dsimp only [Keeps])

theorem execRoledone_b (s : State) (hs : Keeps z0 s) : OutB z0 (execRoledone s) := by
  have hd := disarm_b .roledone s hs
  refine out_b ?_
  dsimp only
  generalize disarm .roledone s = u at hd
  split
  · exact hd
  · rename_i supply _
    refine ite_b hd ?_
    have hk := clearPsw_b _ (restartFilters_b _ hd)
    have h2 : (clearPsw (restartFilters u)).plt.s2 = false := openS2_opened _
    generalize clearPsw (restartFilters u) = v at hk h2
    have hf := raiseG_b 49 2 _ (latchDuty_b _ (show Keeps z0 (setPlt (fun p => { p with role := supply.toNat, base := !supply, gen := supply && !p.genflt, swap := none, soft := false, hard := false }) v) from
        kept_pilot hk fun _ h => absurd (h2.symm.trans h) Bool.false_ne_true))
    exact ite_b (doneWith_b _ _ hf) hf

theorem pilotRearm_b (p : Packet) (s : State) (hs : Keeps z0 s) : Keeps z0 (pilotRearm p s) := by
  unfold pilotRearm
  repeat' (first
    | with_reducible assumption | intro _ | subst x
    | (extract_lets +onlyGivenNames x; have hx : Keeps z0 x := ?_; clear_value x)
    | (extract_lets +onlyGivenNames x; refine isPart x (by constructor) ?_; subst x)
    | (extract_lets +onlyGivenNames x; clear_value x) | with_reducible apply ite_h | split | with_reducible apply clearPsw_b
    | with_reducible apply doneWith_b | with_reducible apply rejectOpen_b | with_reducible apply reject_b
    | with_reducible apply stopResponse_b | with_reducible apply restartFilters_b | with_reducible apply raiseG_b
    | dsimp only [Keeps, setPlt])

theorem execPilotRearm_b (p : Packet) (s : State) (hs : Keeps z0 s) : OutB z0 (execPilotRearm p s) := by
  unfold execPilotRearm
  repeat' (first
    | with_reducible assumption | with_reducible apply out_b | intro _ | subst x
    | (extract_lets +onlyGivenNames x; have hx : Keeps z0 x := ?_; clear_value x)
    | (extract_lets +onlyGivenNames x; refine isPart x (by constructor) ?_; subst x)
    | (extract_lets +onlyGivenNames x; clear_value x) | with_reducible apply ite_h | split | with_reducible apply pilotRearm_b
    | with_reducible apply packet_b | dsimp only [Keeps])

theorem execGenflt_b (s : State) (hs : Keeps z0 s) : OutB z0 (execGenflt s) := by
  unfold execGenflt
  repeat' (first
    | with_reducible assumption | with_reducible apply out_b | intro _ | subst x
    | (extract_lets +onlyGivenNames x; have hx : Keeps z0 x := ?_; clear_value x)
    | (extract_lets +onlyGivenNames x; refine isPart x (by constructor) ?_; subst x)
    | (extract_lets +onlyGivenNames x; clear_value x) | with_reducible apply ite_h | split | with_reducible apply raiseG_b
    | dsimp only [Keeps, setPlt])

theorem execGenRestart_b (s : State) (hs : Keeps z0 s) : OutB z0 (execGenRestart s) := by
  unfold execGenRestart
  repeat' (first
    | with_reducible assumption | with_reducible apply out_b | intro _ | subst x
    | (extract_lets +onlyGivenNames x; have hx : Keeps z0 x := ?_; clear_value x)
    | (extract_lets +onlyGivenNames x; refine isPart x (by constructor) ?_; subst x)
    | (extract_lets +onlyGivenNames x; clear_value x) | with_reducible apply ite_h | split | dsimp only [Keeps, setPlt])

theorem execSleepMonitor_b (cp : Int) (pp : Nat) (s : State) (hs : Keeps z0 s) : OutB z0 (execSleepMonitor cp pp s) := by
  unfold execSleepMonitor
  repeat' (first
    | with_reducible assumption | with_reducible apply out_b | intro _ | subst x
    | (extract_lets +onlyGivenNames x; have hx : Keeps z0 x := ?_; clear_value x)
    | (extract_lets +onlyGivenNames x; refine isPart x (by constructor) ?_; subst x)
    | (extract_lets +onlyGivenNames x; clear_value x) | with_reducible apply ite_h | split | with_reducible apply wakeCheck_b
    | with_reducible apply raiseIf_b | dsimp only [Keeps, setPlt])

theorem setGau_b (f : Gau → Gau) (s : State) (hs : Keeps z0 s) : Keeps z0 (setGau f s) := by
  unfold setGau
  repeat' (first
    | with_reducible assumption | intro _ | subst x
    | (extract_lets +onlyGivenNames x; have hx : Keeps z0 x := ?_; clear_value x)
    | (extract_lets +onlyGivenNames x; refine isPart x (by constructor) ?_; subst x)
    | (extract_lets +onlyGivenNames x; clear_value x) | with_reducible apply ite_h | split | dsimp only [Keeps])

theorem publishSoc_b (s : State) (hs : Keeps z0 s) : Keeps z0 (publishSoc s) := by
  unfold publishSoc
  repeat' (first
    | with_reducible assumption | intro _ | subst x
    | (extract_lets +onlyGivenNames x; have hx : Keeps z0 x := ?_; clear_value x)
    | (extract_lets +onlyGivenNames x; refine isPart x (by constructor) ?_; subst x)
    | (extract_lets +onlyGivenNames x; clear_value x) | with_reducible apply ite_h | split | with_reducible apply setGau_b
    | with_reducible apply raiseIf_b | dsimp only [Keeps])

theorem setConf_b (n : Nat) (s : State) (hs : Keeps z0 s) : Keeps z0 (setConf n s) := by
  unfold setConf
  repeat' (first
    | with_reducible assumption | intro _ | subst x
    | (extract_lets +onlyGivenNames x; have hx : Keeps z0 x := ?_; clear_value x)
    | (extract_lets +onlyGivenNames x; refine isPart x (by constructor) ?_; subst x)
    | (extract_lets +onlyGivenNames x; clear_value x) | with_reducible apply ite_h | split | with_reducible apply setGau_b
    | with_reducible apply raiseG_b | dsimp only [Keeps])

theorem abandonLearn_b (why : Nat) (s : State) (hs : Keeps z0 s) : Keeps z0 (abandonLearn why s) := by
  unfold abandonLearn
  repeat' (first
    | with_reducible assumption | intro _ | subst x
    | (extract_lets +onlyGivenNames x; have hx : Keeps z0 x := ?_; clear_value x)
    | (extract_lets +onlyGivenNames x; refine isPart x (by constructor) ?_; subst x)
    | (extract_lets +onlyGivenNames x; clear_value x) | with_reducible apply ite_h | split | with_reducible apply setGau_b
    | with_reducible apply raiseG_b | dsimp only [Keeps])

theorem wantGauge_b (s : State) (hs : Keeps z0 s) : Keeps z0 (wantGauge s) := by
  unfold wantGauge
  repeat' (first
    | with_reducible assumption | intro _ | subst x
    | (extract_lets +onlyGivenNames x; have hx : Keeps z0 x := ?_; clear_value x)
    | (extract_lets +onlyGivenNames x; refine isPart x (by constructor) ?_; subst x)
    | (extract_lets +onlyGivenNames x; clear_value x) | with_reducible apply ite_h | split | with_reducible apply grant_b
    | dsimp only [Keeps])

theorem judgeLearn_b (cnew : Nat) (s : State) (hs : Keeps z0 s) : Keeps z0 (judgeLearn cnew s) := by
  unfold judgeLearn
  repeat' (first
    | with_reducible assumption | intro _ | subst x
    | (extract_lets +onlyGivenNames x; have hx : Keeps z0 x := ?_; clear_value x)
    | (extract_lets +onlyGivenNames x; refine isPart x (by constructor) ?_; subst x)
    | (extract_lets +onlyGivenNames x; clear_value x) | with_reducible apply ite_h | split | with_reducible apply wantGauge_b
    | with_reducible apply setConf_b | with_reducible apply setGau_b | with_reducible apply raiseG_b | dsimp only [Keeps])

theorem learnPoint_b (soc : Nat) (s : State) (hs : Keeps z0 s) : Keeps z0 (learnPoint soc s) := by
  unfold learnPoint
  repeat' (first
    | with_reducible assumption | intro _ | subst x
    | (extract_lets +onlyGivenNames x; have hx : Keeps z0 x := ?_; clear_value x)
    | (extract_lets +onlyGivenNames x; refine isPart x (by constructor) ?_; subst x)
    | (extract_lets +onlyGivenNames x; clear_value x) | with_reducible apply ite_h | split | with_reducible apply judgeLearn_b
    | with_reducible apply setGau_b | with_reducible apply raiseG_b | dsimp only [Keeps])

theorem refPoint_b (soc : Nat) (learn : Bool) (s : State) (hs : Keeps z0 s) : Keeps z0 (refPoint soc learn s) := by
  unfold refPoint
  repeat' (first
    | with_reducible assumption | intro _ | subst x
    | (extract_lets +onlyGivenNames x; have hx : Keeps z0 x := ?_; clear_value x)
    | (extract_lets +onlyGivenNames x; refine isPart x (by constructor) ?_; subst x)
    | (extract_lets +onlyGivenNames x; clear_value x) | with_reducible apply ite_h | split | with_reducible apply learnPoint_b
    | with_reducible apply publishSoc_b | with_reducible apply setGau_b | with_reducible apply raiseIf_b
    | with_reducible apply raiseG_b | dsimp only [Keeps])

theorem fullPoint_b (s : State) (hs : Keeps z0 s) : Keeps z0 (fullPoint s) := by
  unfold fullPoint
  repeat' (first
    | with_reducible assumption | intro _ | subst x
    | (extract_lets +onlyGivenNames x; have hx : Keeps z0 x := ?_; clear_value x)
    | (extract_lets +onlyGivenNames x; refine isPart x (by constructor) ?_; subst x)
    | (extract_lets +onlyGivenNames x; clear_value x) | with_reducible apply ite_h | split | with_reducible apply refPoint_b
    | with_reducible apply publishSoc_b | with_reducible apply setGau_b | dsimp only [Keeps])

theorem ocvPoint_b (i : Int) (first : Bool) (s : State) (hs : Keeps z0 s) : Keeps z0 (ocvPoint i first s) := by
  unfold ocvPoint
  repeat' (first
    | with_reducible assumption | intro _ | subst x
    | (extract_lets +onlyGivenNames x; have hx : Keeps z0 x := ?_; clear_value x)
    | (extract_lets +onlyGivenNames x; refine isPart x (by constructor) ?_; subst x)
    | (extract_lets +onlyGivenNames x; clear_value x) | with_reducible apply ite_h | split | with_reducible apply refPoint_b
    | dsimp only [Keeps])

theorem impedanceStep_b (d : RoundData) (s : State) (hs : Keeps z0 s) : Keeps z0 (impedanceStep d s) := by
  unfold impedanceStep
  repeat' (first
    | with_reducible assumption | intro _ | subst x
    | (extract_lets +onlyGivenNames x; have hx : Keeps z0 x := ?_; clear_value x)
    | (extract_lets +onlyGivenNames x; refine isPart x (by constructor) ?_; subst x)
    | (extract_lets +onlyGivenNames x; clear_value x) | with_reducible apply ite_h | split | with_reducible apply setGau_b
    | with_reducible apply raiseG_b | dsimp only [Keeps])

theorem countCharge_b (d : RoundData) (s : State) (hs : Keeps z0 s) : Keeps z0 (countCharge d s) := by
  unfold countCharge
  repeat' (first
    | with_reducible assumption | intro _ | subst x
    | (extract_lets +onlyGivenNames x; have hx : Keeps z0 x := ?_; clear_value x)
    | (extract_lets +onlyGivenNames x; refine isPart x (by constructor) ?_; subst x)
    | (extract_lets +onlyGivenNames x; clear_value x) | with_reducible apply ite_h | split | with_reducible apply setGau_b
    | dsimp only [Keeps])

theorem gaugeRound_b (d : RoundData) (hkbBad : Bool) (s : State) (hs : Keeps z0 s) : Keeps z0 (gaugeRound d hkbBad s) := by
  unfold gaugeRound
  repeat' (first
    | with_reducible assumption | intro _ | subst x
    | (extract_lets +onlyGivenNames x; have hx : Keeps z0 x := ?_; clear_value x)
    | (extract_lets +onlyGivenNames x; refine isPart x (by constructor) ?_; subst x)
    | (extract_lets +onlyGivenNames x; clear_value x) | with_reducible apply ite_h | split | with_reducible apply countCharge_b
    | with_reducible apply impedanceStep_b | with_reducible apply ocvPoint_b | with_reducible apply publishSoc_b
    | with_reducible apply setGau_b | with_reducible apply setChg_b | with_reducible apply sense_b
    | with_reducible apply raiseIf_b | dsimp only [Keeps])

theorem gaugeFirstUse_b (s : State) (hs : Keeps z0 s) : Keeps z0 (gaugeFirstUse s) := by
  unfold gaugeFirstUse
  repeat' (first
    | with_reducible assumption | intro _ | subst x
    | (extract_lets +onlyGivenNames x; have hx : Keeps z0 x := ?_; clear_value x)
    | (extract_lets +onlyGivenNames x; refine isPart x (by constructor) ?_; subst x)
    | (extract_lets +onlyGivenNames x; clear_value x) | with_reducible apply ite_h | split | with_reducible apply setGau_b
    | with_reducible apply raiseIf_b | dsimp only [Keeps])

theorem gaugeStart_b (k : GaugeStart) (s : State) (hs : Keeps z0 s) : Keeps z0 (gaugeStart k s) := by
  unfold gaugeStart
  repeat' (first
    | with_reducible assumption | intro _ | subst x
    | (extract_lets +onlyGivenNames x; have hx : Keeps z0 x := ?_; clear_value x)
    | (extract_lets +onlyGivenNames x; refine isPart x (by constructor) ?_; subst x)
    | (extract_lets +onlyGivenNames x; clear_value x) | with_reducible apply ite_h | split
    | with_reducible apply gaugeFirstUse_b | with_reducible apply abandonLearn_b | with_reducible apply publishSoc_b
    | with_reducible apply setGau_b | with_reducible apply raiseIf_b | dsimp only [Keeps])

theorem gaugeChemistry_b (s : State) (hs : Keeps z0 s) : Keeps z0 (gaugeChemistry s) := by
  unfold gaugeChemistry
  repeat' (first
    | with_reducible assumption | intro _ | subst x
    | (extract_lets +onlyGivenNames x; have hx : Keeps z0 x := ?_; clear_value x)
    | (extract_lets +onlyGivenNames x; refine isPart x (by constructor) ?_; subst x)
    | (extract_lets +onlyGivenNames x; clear_value x) | with_reducible apply ite_h | split | with_reducible apply gaugeStart_b
    | with_reducible apply abandonLearn_b | with_reducible apply setConf_b | dsimp only [Keeps])

theorem execGaugeOffsetCal_b (s : State) (hs : Keeps z0 s) : OutB z0 (execGaugeOffsetCal s) := by
  unfold execGaugeOffsetCal
  repeat' (first
    | with_reducible assumption | with_reducible apply out_b | intro _ | subst x
    | (extract_lets +onlyGivenNames x; have hx : Keeps z0 x := ?_; clear_value x)
    | (extract_lets +onlyGivenNames x; refine isPart x (by constructor) ?_; subst x)
    | (extract_lets +onlyGivenNames x; clear_value x) | with_reducible apply ite_h | split | with_reducible apply setGau_b
    | with_reducible apply arm_b | with_reducible apply disarm_b | dsimp only [Keeps])

theorem execSlowSampling_b (s : State) (hs : Keeps z0 s) : OutB z0 (execSlowSampling s) := by
  unfold execSlowSampling
  repeat' (first
    | with_reducible assumption | with_reducible apply out_b | intro _ | subst x
    | (extract_lets +onlyGivenNames x; have hx : Keeps z0 x := ?_; clear_value x)
    | (extract_lets +onlyGivenNames x; refine isPart x (by constructor) ?_; subst x)
    | (extract_lets +onlyGivenNames x; clear_value x) | with_reducible apply ite_h | split | with_reducible apply setGau_b
    | dsimp only [Keeps])

theorem execSlowSamplingExit_b (s : State) (hs : Keeps z0 s) : OutB z0 (execSlowSamplingExit s) := by
  unfold execSlowSamplingExit
  repeat' (first
    | with_reducible assumption | with_reducible apply out_b | intro _ | subst x
    | (extract_lets +onlyGivenNames x; have hx : Keeps z0 x := ?_; clear_value x)
    | (extract_lets +onlyGivenNames x; refine isPart x (by constructor) ?_; subst x)
    | (extract_lets +onlyGivenNames x; clear_value x) | with_reducible apply ite_h | split | with_reducible apply setGau_b
    | dsimp only [Keeps])

theorem accclrBit_b (s : State) (hs : Keeps z0 s) : Keeps z0 (accclrBit s) := by
  unfold accclrBit
  repeat' (first
    | with_reducible assumption | intro _ | subst x
    | (extract_lets +onlyGivenNames x; have hx : Keeps z0 x := ?_; clear_value x)
    | (extract_lets +onlyGivenNames x; refine isPart x (by constructor) ?_; subst x)
    | (extract_lets +onlyGivenNames x; clear_value x) | with_reducible apply ite_h | split | with_reducible apply setGau_b
    | dsimp only [Keeps])

theorem execAccclr_b (s : State) (hs : Keeps z0 s) : OutB z0 (execAccclr s) := by
  unfold execAccclr
  repeat' (first
    | with_reducible assumption | with_reducible apply out_b | intro _ | subst x
    | (extract_lets +onlyGivenNames x; have hx : Keeps z0 x := ?_; clear_value x)
    | (extract_lets +onlyGivenNames x; refine isPart x (by constructor) ?_; subst x)
    | (extract_lets +onlyGivenNames x; clear_value x) | with_reducible apply ite_h | split | with_reducible apply accclrBit_b
    | with_reducible apply onPage_b | dsimp only [Keeps])

theorem cellReplace_b (s : State) (hs : Keeps z0 s) : Keeps z0 (cellReplace s) := by
  unfold cellReplace
  repeat' (first
    | with_reducible assumption | intro _ | subst x
    | (extract_lets +onlyGivenNames x; have hx : Keeps z0 x := ?_; clear_value x)
    | (extract_lets +onlyGivenNames x; refine isPart x (by constructor) ?_; subst x)
    | (extract_lets +onlyGivenNames x; clear_value x) | with_reducible apply ite_h | split | with_reducible apply abandonLearn_b
    | with_reducible apply setConf_b | with_reducible apply publishSoc_b | with_reducible apply setGau_b
    | with_reducible apply doneWith_b | with_reducible apply chgClearFault_b | with_reducible apply chgRestart_b
    | with_reducible apply raiseG_b | dsimp only [Keeps])

theorem cellReplacedBody_b (p : Packet) (s : State) (hs : Keeps z0 s) : Keeps z0 (cellReplacedBody p s) := by
  unfold cellReplacedBody
  repeat' (first
    | with_reducible assumption | intro _ | subst x
    | (extract_lets +onlyGivenNames x; have hx : Keeps z0 x := ?_; clear_value x)
    | (extract_lets +onlyGivenNames x; refine isPart x (by constructor) ?_; subst x)
    | (extract_lets +onlyGivenNames x; clear_value x) | with_reducible apply ite_h | split | with_reducible apply cellReplace_b
    | with_reducible apply rejectOpen_b | with_reducible apply reject_b | with_reducible apply putPlain_b | dsimp only [Keeps])

theorem execCellReplaced_b (p : Packet) (s : State) (hs : Keeps z0 s) : OutB z0 (execCellReplaced p s) := by
  unfold execCellReplaced
  repeat' (first
    | with_reducible assumption | with_reducible apply out_b | intro _ | subst x
    | (extract_lets +onlyGivenNames x; have hx : Keeps z0 x := ?_; clear_value x)
    | (extract_lets +onlyGivenNames x; refine isPart x (by constructor) ?_; subst x)
    | (extract_lets +onlyGivenNames x; clear_value x) | with_reducible apply ite_h | split
    | with_reducible apply cellReplacedBody_b | with_reducible apply packet_b | dsimp only [Keeps])

theorem execLearnStatus_b (p : Packet) (s : State) (hs : Keeps z0 s) : OutB z0 (execLearnStatus p s) := by
  unfold execLearnStatus
  repeat' (first
    | with_reducible assumption | with_reducible apply out_b | intro _ | subst x
    | (extract_lets +onlyGivenNames x; have hx : Keeps z0 x := ?_; clear_value x)
    | (extract_lets +onlyGivenNames x; refine isPart x (by constructor) ?_; subst x)
    | (extract_lets +onlyGivenNames x; clear_value x) | with_reducible apply ite_h | split | with_reducible apply packet_b
    | with_reducible apply doneWith_b | with_reducible apply rejectOpen_b | dsimp only [Keeps])

theorem takeVcell_b (v : Option Nat) (s : State) (hs : Keeps z0 s) : Keeps z0 (takeVcell v s) := by
  unfold takeVcell
  repeat' (first
    | with_reducible assumption | intro _ | subst x
    | (extract_lets +onlyGivenNames x; have hx : Keeps z0 x := ?_; clear_value x)
    | (extract_lets +onlyGivenNames x; refine isPart x (by constructor) ?_; subst x)
    | (extract_lets +onlyGivenNames x; clear_value x) | with_reducible apply ite_h | split | with_reducible apply setChg_b
    | dsimp only [Keeps])

theorem execChargerHoldoffEnd_b (vcell : Option Nat) (s : State) (hs : Keeps z0 s) : OutB z0 (execChargerHoldoffEnd vcell s) :=
    by
  unfold execChargerHoldoffEnd
  repeat' (first
    | with_reducible assumption | with_reducible apply out_b | intro _ | subst x
    | (extract_lets +onlyGivenNames x; have hx : Keeps z0 x := ?_; clear_value x)
    | (extract_lets +onlyGivenNames x; refine isPart x (by constructor) ?_; subst x)
    | (extract_lets +onlyGivenNames x; clear_value x) | with_reducible apply ite_h | split | with_reducible apply takeVcell_b
    | with_reducible apply chgSettle_b | with_reducible apply setChg_b | with_reducible apply disarm_b | dsimp only [Keeps])

theorem execVmidlow_b (s : State) (hs : Keeps z0 s) : OutB z0 (execVmidlow s) := by
  unfold execVmidlow
  repeat' (first
    | with_reducible assumption | with_reducible apply out_b | intro _ | subst x
    | (extract_lets +onlyGivenNames x; have hx : Keeps z0 x := ?_; clear_value x)
    | (extract_lets +onlyGivenNames x; refine isPart x (by constructor) ?_; subst x)
    | (extract_lets +onlyGivenNames x; clear_value x) | with_reducible apply ite_h | split | with_reducible apply chgSettle_b
    | with_reducible apply setChg_b | with_reducible apply raiseG_b | dsimp only [Keeps])

theorem execChargerVmidRestore_b (s : State) (hs : Keeps z0 s) : OutB z0 (execChargerVmidRestore s) := by
  unfold execChargerVmidRestore
  repeat' (first
    | with_reducible assumption | with_reducible apply out_b | intro _ | subst x
    | (extract_lets +onlyGivenNames x; have hx : Keeps z0 x := ?_; clear_value x)
    | (extract_lets +onlyGivenNames x; refine isPart x (by constructor) ?_; subst x)
    | (extract_lets +onlyGivenNames x; clear_value x) | with_reducible apply ite_h | split | with_reducible apply chgSettle_b
    | with_reducible apply setChg_b | dsimp only [Keeps])

theorem execChargePhaseChange_b (vcell : Nat) (s : State) (hs : Keeps z0 s) : OutB z0 (execChargePhaseChange vcell s) := by
  unfold execChargePhaseChange
  repeat' (first
    | with_reducible assumption | with_reducible apply out_b | intro _ | subst x
    | (extract_lets +onlyGivenNames x; have hx : Keeps z0 x := ?_; clear_value x)
    | (extract_lets +onlyGivenNames x; refine isPart x (by constructor) ?_; subst x)
    | (extract_lets +onlyGivenNames x; clear_value x) | with_reducible apply ite_h | split | with_reducible apply chgWatch_b
    | with_reducible apply setPhase_b | with_reducible apply setChg_b | dsimp only [Keeps])

theorem execDone_b (s : State) (hs : Keeps z0 s) : OutB z0 (execDone s) := by
  unfold execDone
  repeat' (first
    | with_reducible assumption | with_reducible apply out_b | intro _ | subst x
    | (extract_lets +onlyGivenNames x; have hx : Keeps z0 x := ?_; clear_value x)
    | (extract_lets +onlyGivenNames x; refine isPart x (by constructor) ?_; subst x)
    | (extract_lets +onlyGivenNames x; clear_value x) | with_reducible apply ite_h | split | with_reducible apply fullPoint_b
    | with_reducible apply chgWatch_b | with_reducible apply setPhase_b | with_reducible apply raiseG_b | dsimp only [Keeps])

theorem execRechg_b (s : State) (hs : Keeps z0 s) : OutB z0 (execRechg s) := by
  unfold execRechg
  repeat' (first
    | with_reducible assumption | with_reducible apply out_b | intro _ | subst x
    | (extract_lets +onlyGivenNames x; have hx : Keeps z0 x := ?_; clear_value x)
    | (extract_lets +onlyGivenNames x; refine isPart x (by constructor) ?_; subst x)
    | (extract_lets +onlyGivenNames x; clear_value x) | with_reducible apply ite_h | split | with_reducible apply chgWatch_b
    | with_reducible apply setPhase_b | with_reducible apply raiseG_b | dsimp only [Keeps])

theorem execCellov_b (s : State) (hs : Keeps z0 s) : OutB z0 (execCellov s) := by
  unfold execCellov
  repeat' (first
    | with_reducible assumption | with_reducible apply out_b | intro _ | subst x
    | (extract_lets +onlyGivenNames x; have hx : Keeps z0 x := ?_; clear_value x)
    | (extract_lets +onlyGivenNames x; refine isPart x (by constructor) ?_; subst x)
    | (extract_lets +onlyGivenNames x; clear_value x) | with_reducible apply ite_h | split | with_reducible apply breach_b
    | with_reducible apply setChg_b | with_reducible apply raiseG_b | dsimp only [Keeps])

theorem execCellovClear_b (s : State) (hs : Keeps z0 s) : OutB z0 (execCellovClear s) := by
  unfold execCellovClear
  repeat' (first
    | with_reducible assumption | with_reducible apply out_b | intro _ | subst x
    | (extract_lets +onlyGivenNames x; have hx : Keeps z0 x := ?_; clear_value x)
    | (extract_lets +onlyGivenNames x; refine isPart x (by constructor) ?_; subst x)
    | (extract_lets +onlyGivenNames x; clear_value x) | with_reducible apply ite_h | split | with_reducible apply setChg_b
    | dsimp only [Keeps])

theorem execTmrpre_b (s : State) (hs : Keeps z0 s) : OutB z0 (execTmrpre s) := by
  unfold execTmrpre
  repeat' (first
    | with_reducible assumption | with_reducible apply out_b | intro _ | subst x
    | (extract_lets +onlyGivenNames x; have hx : Keeps z0 x := ?_; clear_value x)
    | (extract_lets +onlyGivenNames x; refine isPart x (by constructor) ?_; subst x)
    | (extract_lets +onlyGivenNames x; clear_value x) | with_reducible apply ite_h | split | with_reducible apply chgWatch_b
    | with_reducible apply setPhase_b | with_reducible apply setChg_b | with_reducible apply raiseG_b
    | with_reducible apply disarm_b | dsimp only [Keeps])

theorem execTmrfast_b (s : State) (hs : Keeps z0 s) : OutB z0 (execTmrfast s) := by
  unfold execTmrfast
  repeat' (first
    | with_reducible assumption | with_reducible apply out_b | intro _ | subst x
    | (extract_lets +onlyGivenNames x; have hx : Keeps z0 x := ?_; clear_value x)
    | (extract_lets +onlyGivenNames x; refine isPart x (by constructor) ?_; subst x)
    | (extract_lets +onlyGivenNames x; clear_value x) | with_reducible apply ite_h | split | with_reducible apply chgWatch_b
    | with_reducible apply setPhase_b | with_reducible apply setChg_b | with_reducible apply raiseG_b
    | with_reducible apply disarm_b | dsimp only [Keeps])

theorem execNtcflt_b (s : State) (hs : Keeps z0 s) : OutB z0 (execNtcflt s) := by
  unfold execNtcflt
  repeat' (first
    | with_reducible assumption | with_reducible apply out_b | intro _ | subst x
    | (extract_lets +onlyGivenNames x; have hx : Keeps z0 x := ?_; clear_value x)
    | (extract_lets +onlyGivenNames x; refine isPart x (by constructor) ?_; subst x)
    | (extract_lets +onlyGivenNames x; clear_value x) | with_reducible apply ite_h | split | with_reducible apply chgSettle_b
    | with_reducible apply setChg_b | with_reducible apply raiseG_b | dsimp only [Keeps])

theorem execNtcRecover_b (s : State) (hs : Keeps z0 s) : OutB z0 (execNtcRecover s) := by
  unfold execNtcRecover
  repeat' (first
    | with_reducible assumption | with_reducible apply out_b | intro _ | subst x
    | (extract_lets +onlyGivenNames x; have hx : Keeps z0 x := ?_; clear_value x)
    | (extract_lets +onlyGivenNames x; refine isPart x (by constructor) ?_; subst x)
    | (extract_lets +onlyGivenNames x; clear_value x) | with_reducible apply ite_h | split | with_reducible apply chgSettle_b
    | with_reducible apply setChg_b | dsimp only [Keeps])

theorem bandSettle_b (s : State) (hs : Keeps z0 s) : Keeps z0 (bandSettle s) := by
  unfold bandSettle
  repeat' (first
    | with_reducible assumption | intro _ | subst x
    | (extract_lets +onlyGivenNames x; have hx : Keeps z0 x := ?_; clear_value x)
    | (extract_lets +onlyGivenNames x; refine isPart x (by constructor) ?_; subst x)
    | (extract_lets +onlyGivenNames x; clear_value x) | with_reducible apply ite_h | split | with_reducible apply chgSettle_b
    | with_reducible apply runTimer_b | with_reducible apply setChg_b | with_reducible apply raiseG_b | dsimp only [Keeps])

theorem execCtband_b (mv : Nat) (s : State) (hs : Keeps z0 s) : OutB z0 (execCtband mv s) := by
  unfold execCtband
  repeat' (first
    | with_reducible assumption | with_reducible apply out_b | intro _ | subst x
    | (extract_lets +onlyGivenNames x; have hx : Keeps z0 x := ?_; clear_value x)
    | (extract_lets +onlyGivenNames x; refine isPart x (by constructor) ?_; subst x)
    | (extract_lets +onlyGivenNames x; clear_value x) | with_reducible apply ite_h | split | with_reducible apply bandSettle_b
    | with_reducible apply setChg_b | dsimp only [Keeps])

theorem execWdexp_b (s : State) (hs : Keeps z0 s) : OutB z0 (execWdexp s) := by
  unfold execWdexp
  repeat' (first
    | with_reducible assumption | with_reducible apply out_b | intro _ | subst x
    | (extract_lets +onlyGivenNames x; have hx : Keeps z0 x := ?_; clear_value x)
    | (extract_lets +onlyGivenNames x; refine isPart x (by constructor) ?_; subst x)
    | (extract_lets +onlyGivenNames x; clear_value x) | with_reducible apply ite_h | split | with_reducible apply runTimer_b
    | with_reducible apply setChg_b | with_reducible apply raiseG_b | with_reducible apply disarm_b | dsimp only [Keeps])

theorem kickBit_b (s : State) (hs : Keeps z0 s) : Keeps z0 (kickBit s) := by
  unfold kickBit
  repeat' (first
    | with_reducible assumption | intro _ | subst x
    | (extract_lets +onlyGivenNames x; have hx : Keeps z0 x := ?_; clear_value x)
    | (extract_lets +onlyGivenNames x; refine isPart x (by constructor) ?_; subst x)
    | (extract_lets +onlyGivenNames x; clear_value x) | with_reducible apply ite_h | split | with_reducible apply chgWatch_b
    | with_reducible apply runTimer_b | with_reducible apply setChg_b | with_reducible apply raiseIf_b
    | with_reducible apply disarm_b | dsimp only [Keeps])

theorem restartBit_b (s : State) (hs : Keeps z0 s) : Keeps z0 (restartBit s) := by
  unfold restartBit
  repeat' (first
    | with_reducible assumption | intro _ | subst x
    | (extract_lets +onlyGivenNames x; have hx : Keeps z0 x := ?_; clear_value x)
    | (extract_lets +onlyGivenNames x; refine isPart x (by constructor) ?_; subst x)
    | (extract_lets +onlyGivenNames x; clear_value x) | with_reducible apply ite_h | split
    | with_reducible apply chgClearFault_b | dsimp only [Keeps])

theorem execChgctlKick_b (s : State) (hs : Keeps z0 s) : OutB z0 (execChgctlKick s) := by
  unfold execChgctlKick
  repeat' (first
    | with_reducible assumption | with_reducible apply out_b | intro _ | subst x
    | (extract_lets +onlyGivenNames x; have hx : Keeps z0 x := ?_; clear_value x)
    | (extract_lets +onlyGivenNames x; refine isPart x (by constructor) ?_; subst x)
    | (extract_lets +onlyGivenNames x; clear_value x) | with_reducible apply ite_h | split | with_reducible apply kickBit_b
    | with_reducible apply onPage_b | dsimp only [Keeps])

theorem execChgctlRestart_b (s : State) (hs : Keeps z0 s) : OutB z0 (execChgctlRestart s) := by
  unfold execChgctlRestart
  repeat' (first
    | with_reducible assumption | with_reducible apply out_b | intro _ | subst x
    | (extract_lets +onlyGivenNames x; have hx : Keeps z0 x := ?_; clear_value x)
    | (extract_lets +onlyGivenNames x; refine isPart x (by constructor) ?_; subst x)
    | (extract_lets +onlyGivenNames x; clear_value x) | with_reducible apply ite_h | split | with_reducible apply restartBit_b
    | with_reducible apply onPage_b | dsimp only [Keeps])

theorem chgsuspByte_b (v : Byte) (s : State) (hs : Keeps z0 s) : Keeps z0 (chgsuspByte v s) := by
  unfold chgsuspByte
  repeat' (first
    | with_reducible assumption | intro _ | subst x
    | (extract_lets +onlyGivenNames x; have hx : Keeps z0 x := ?_; clear_value x)
    | (extract_lets +onlyGivenNames x; refine isPart x (by constructor) ?_; subst x)
    | (extract_lets +onlyGivenNames x; clear_value x) | with_reducible apply ite_h | split | with_reducible apply plainByte_b
    | with_reducible apply chgSettle_b | dsimp only [Keeps])

theorem execChgsuspWrite_b (v : Byte) (s : State) (hs : Keeps z0 s) : OutB z0 (execChgsuspWrite v s) := by
  unfold execChgsuspWrite
  repeat' (first
    | with_reducible assumption | with_reducible apply out_b | intro _ | subst x
    | (extract_lets +onlyGivenNames x; have hx : Keeps z0 x := ?_; clear_value x)
    | (extract_lets +onlyGivenNames x; refine isPart x (by constructor) ?_; subst x)
    | (extract_lets +onlyGivenNames x; clear_value x) | with_reducible apply ite_h | split | with_reducible apply chgsuspByte_b
    | with_reducible apply onPage_b | dsimp only [Keeps])

theorem chargerFollow_b (old : Nat → Byte) (s : State) (hs : Keeps z0 s) : Keeps z0 (chargerFollow old s) := by
  unfold chargerFollow
  repeat' (first
    | with_reducible assumption | intro _ | subst x
    | (extract_lets +onlyGivenNames x; have hx : Keeps z0 x := ?_; clear_value x)
    | (extract_lets +onlyGivenNames x; refine isPart x (by constructor) ?_; subst x)
    | (extract_lets +onlyGivenNames x; clear_value x) | with_reducible apply ite_h | split | with_reducible apply bandSettle_b
    | with_reducible apply gaugeChemistry_b | with_reducible apply chgClearFault_b | with_reducible apply chgRestart_b
    | with_reducible apply chgSettle_b | with_reducible apply runTimer_b | with_reducible apply setChg_b
    | with_reducible apply disarm_b | dsimp only [Keeps])

theorem chgFloor_b (cell : Nat) (s : State) (hs : Keeps z0 s) : Keeps z0 (chgFloor cell s) := by
  unfold chgFloor
  repeat' (first
    | with_reducible assumption | intro _ | subst x
    | (extract_lets +onlyGivenNames x; have hx : Keeps z0 x := ?_; clear_value x)
    | (extract_lets +onlyGivenNames x; refine isPart x (by constructor) ?_; subst x)
    | (extract_lets +onlyGivenNames x; clear_value x) | with_reducible apply ite_h | split | with_reducible apply bandSettle_b
    | with_reducible apply chgRestart_b | with_reducible apply chgSettle_b | with_reducible apply runTimer_b
    | with_reducible apply disarm_b | dsimp only [Keeps])

theorem refuse_b (rsn : Byte) (pg : Byte) (ofs : Byte) (s : State) (hs : Keeps z0 s) : Keeps z0 (refuse rsn pg ofs s) := by
  unfold refuse
  repeat' (first
    | with_reducible assumption | intro _ | subst x
    | (extract_lets +onlyGivenNames x; have hx : Keeps z0 x := ?_; clear_value x)
    | (extract_lets +onlyGivenNames x; refine isPart x (by constructor) ?_; subst x)
    | (extract_lets +onlyGivenNames x; clear_value x) | with_reducible apply ite_h | split | with_reducible apply rejectTxn_b
    | with_reducible apply slotEnd_b | dsimp only [Keeps])

theorem commitChecks_b (ps : List Byte) (busy : Bool) (body : State → State) (s : State) (hbody : ∀ (v0 : State), Keeps z0 v0 →
    Keeps z0 (body v0)) (hs : Keeps z0 s) : Keeps z0 (commitChecks ps busy body s) := by
  unfold commitChecks
  repeat' (first
    | with_reducible assumption | intro _ | subst x
    | (extract_lets +onlyGivenNames x; have hx : Keeps z0 x := ?_; clear_value x)
    | (extract_lets +onlyGivenNames x; refine isPart x (by constructor) ?_; subst x)
    | (extract_lets +onlyGivenNames x; clear_value x) | with_reducible apply ite_h | split | with_reducible apply refuse_b
    | with_reducible apply hbody | dsimp only [Keeps])

theorem startCommit_b (c : Commit) (s : State)
    (hc : c.pending = false ∧ c.scope ≠ 0 ∧ c.scope.toNat / 4096 = 0 ∧ c.mode.toNat % 4 ≠ 3 ∧ c.mode.toNat / 8 = 0)
    (hs : Keeps z0 s) : Keeps z0 (startCommit c s) := by
  obtain ⟨h1, h2⟩ := hc
  have hk : Keeps z0 { s with txn := { s.txn with cur := some c, seq := c.seq, res := 1, rsn := 0, epg := 0, eofs := 0, erail := 0xFF, pre := 0, unlocked := false, applychk := false } } := kept_commit hs fun _ d e => by
    obtain rfl := Option.some.inj e
    exact ⟨rfl, by rw [h1]; rfl, h2⟩
  exact ite_b (arm_b _ _ _ hk) hk

/-- Parameters without fault give a commit of a legal scope and mode. -/
theorem paramFault_none {ps : List Byte} (s : State) (seq : Byte) (h : paramFault ps = none) :
    (commitOf s seq ps).pending = false ∧ (commitOf s seq ps).scope ≠ 0 ∧ (commitOf s seq ps).scope.toNat / 4096 = 0 ∧
      (commitOf s seq ps).mode.toNat % 4 ≠ 3 ∧ (commitOf s seq ps).mode.toNat / 8 = 0 := by
  have e : ps.length = 14 → BitVec.ofNat 16 (leNat [ps.getD 0 0, ps.getD 1 0]) = BitVec.ofNat 16 (leNat (ps.take 2)) := by
    intro hl
    match ps, hl with
    | a :: b :: _, _ => rfl
  unfold paramFault at h
  dsimp only at h
  split at h
  · cases h
  · rename_i hl
    rw [← e (by omega)] at h
    split at h
    · cases h
    · rename_i h1
      split at h
      · cases h
      · rename_i h2
        split at h
        · cases h
        · rename_i h3
          simp only [scopeBad, decide_eq_true_eq, not_or, ne_eq, not_not] at h2 h3
          exact ⟨rfl, fun e => h1 (by have e' : BitVec.ofNat 16 (leNat [ps.getD 0 0, ps.getD 1 0]) = 0 := e; rw [e']; rfl), h2, h3.1, h3.2⟩

theorem execTxnCommit_b (p : Packet) (s : State) (hs : Keeps z0 s) : OutB z0 (execTxnCommit p s) := by
  refine out_b (packet_b _ _ _ _ _ (fun u hu => ?_) hs)
  unfold commitChecks
  split
  · exact refuse_b _ _ _ _ hu
  · split
    · exact refuse_b _ _ _ _ hu
    · split
      · exact refuse_b _ _ _ _ hu
      · rename_i h
        have hk := startCommit_b (commitOf u (u.txn.seq + 1) p.params) u (paramFault_none u _ h) hu
        exact slotBusy_b _ hk

theorem execTxnValidate_b (p : Packet) (s : State) (hs : Keeps z0 s) : OutB z0 (execTxnValidate p s) := by
  unfold execTxnValidate
  repeat' (first
    | with_reducible assumption | with_reducible apply out_b | intro _ | subst x
    | (extract_lets +onlyGivenNames x; have hx : Keeps z0 x := ?_; clear_value x)
    | (extract_lets +onlyGivenNames x; refine isPart x (by constructor) ?_; subst x)
    | (extract_lets +onlyGivenNames x; clear_value x) | with_reducible apply ite_h | split | with_reducible apply commitChecks_b
    | with_reducible apply packet_b | with_reducible apply slotBusy_b | dsimp only [Keeps])

theorem redirect_b (old : Nat → Byte) (s : State) (r : Nat) (hs : Keeps z0 s) : Keeps z0 (redirect old s r) := by
  unfold redirect
  repeat' (first
    | with_reducible assumption | intro _ | subst x
    | (extract_lets +onlyGivenNames x; have hx : Keeps z0 x := ?_; clear_value x)
    | (extract_lets +onlyGivenNames x; refine isPart x (by constructor) ?_; subst x)
    | (extract_lets +onlyGivenNames x; clear_value x) | with_reducible apply ite_h | split | with_reducible apply arm_b
    | (refine kept_maps (by with_reducible assumption) ?_; exact fun w => { w with ramps := by dsimp only [mapsOf]; exact mwf_mput _ _ _ _ w.ramps })
    | dsimp only [Keeps])

theorem shedFollow_b (s : State) (hs : Keeps z0 s) : Keeps z0 (shedFollow s) := by
  unfold shedFollow
  repeat' (first
    | with_reducible assumption | intro _ | subst x
    | (extract_lets +onlyGivenNames x; have hx : Keeps z0 x := ?_; clear_value x)
    | (extract_lets +onlyGivenNames x; refine isPart x (by constructor) ?_; subst x)
    | (extract_lets +onlyGivenNames x; clear_value x) | with_reducible apply ite_h | split | dsimp only [Keeps])

theorem pathFollow_b (old : Nat → Byte) (s : State) (x : Path) (hs : Keeps z0 s) : Keeps z0 (pathFollow old s x) := by
  unfold pathFollow
  repeat' (first
    | with_reducible assumption | exact fun w h => path_b _ (by with_reducible assumption) w h
    | exact fun _ h => absurd h Bool.false_ne_true | exact fun _ _ => rfl | intro _ | subst x
    | (extract_lets +onlyGivenNames x; have hx : Keeps z0 x := ?_; clear_value x)
    | (extract_lets +onlyGivenNames x; refine isPart x (by constructor) ?_; subst x)
    | (extract_lets +onlyGivenNames x; clear_value x) | with_reducible apply ite_h | split | with_reducible apply openPath_b
    | with_reducible apply setPath_b | dsimp only [Keeps])

theorem pathsFollow_b (old : Nat → Byte) (s : State) (hs : Keeps z0 s) : Keeps z0 (pathsFollow old s) := by
  unfold pathsFollow
  repeat' (first
    | with_reducible assumption | intro _ | subst x
    | (extract_lets +onlyGivenNames x; have hx : Keeps z0 x := ?_; clear_value x)
    | (extract_lets +onlyGivenNames x; refine isPart x (by constructor) ?_; subst x)
    | (extract_lets +onlyGivenNames x; clear_value x) | with_reducible apply ite_h | split | with_reducible apply pathFollow_b
    | with_reducible apply openPath_b | with_reducible apply tryClose_b | dsimp only [Keeps])

theorem blocksFollow_b (old : Nat → Byte) (scope : Word) (s : State) (hs : Keeps z0 s) : Keeps z0 (blocksFollow old scope s) :=
    by
  unfold blocksFollow
  repeat' (first
    | with_reducible assumption | intro _ | subst x
    | (extract_lets +onlyGivenNames x; have hx : Keeps z0 x := ?_; clear_value x)
    | (extract_lets +onlyGivenNames x; refine isPart x (by constructor) ?_; subst x)
    | (extract_lets +onlyGivenNames x; clear_value x) | with_reducible apply ite_h | split | with_reducible apply pathsFollow_b
    | with_reducible apply shedFollow_b | with_reducible apply redirect_b | with_reducible apply chargerFollow_b
    | with_reducible apply armSlow_b | with_reducible apply pilotFollow_b | with_reducible apply foldl_b | dsimp only [Keeps])

theorem takeKeys_fit (ks : List Nat) (g : Nat → Byte) (m : RegMap) (h : RegsFit m) : RegsFit (takeKeys ks g m) :=
  regsFit_foldl _ (fun _ _ => regsFit_rput _ _ _) _ _ (regsFit_filter _ _ h)

theorem copyLive_b (scope : Word) (s : State) (hs : Keeps z0 s) : Keeps z0 (copyLive scope s) := by
  unfold copyLive
  repeat' (first
    | with_reducible assumption | intro _ | subst x
    | (extract_lets +onlyGivenNames x; have hx : Keeps z0 x := ?_; clear_value x)
    | (extract_lets +onlyGivenNames x; refine isPart x (by constructor) ?_; subst x)
    | (extract_lets +onlyGivenNames x; clear_value x) | with_reducible apply ite_h | split
    | (refine kept_maps (by with_reducible assumption) ?_; exact fun w => { w with live := takeKeys_fit _ _ _ w.live })
    | dsimp only [Keeps])

theorem applyStep_b (c : Commit) (s : State) (hs : Keeps z0 s) : Keeps z0 (applyStep c s) := by
  unfold applyStep
  repeat' (first
    | with_reducible assumption | intro _ | subst x
    | (extract_lets +onlyGivenNames x; have hx : Keeps z0 x := ?_; clear_value x)
    | (extract_lets +onlyGivenNames x; refine isPart x (by constructor) ?_; subst x)
    | (extract_lets +onlyGivenNames x; clear_value x) | with_reducible apply ite_h | split
    | with_reducible apply cancelPending_b | with_reducible apply copyLive_b | with_reducible apply blocksFollow_b
    | with_reducible apply noteSense_b | with_reducible apply switchOffSet_b | with_reducible apply settle_b
    | with_reducible apply restartSet_b | with_reducible apply sense_b | dsimp only [Keeps])

theorem rejectCommit_b (c : Commit) (f : Found) (chk : Bool) (s : State) (hs : Keeps z0 s) : Keeps z0 (rejectCommit c f chk s)
    := by
  unfold rejectCommit
  repeat' (first
    | with_reducible assumption | intro _ | subst x
    | (extract_lets +onlyGivenNames x; have hx : Keeps z0 x := ?_; clear_value x)
    | (extract_lets +onlyGivenNames x; refine isPart x (by constructor) ?_; subst x)
    | (extract_lets +onlyGivenNames x; clear_value x) | with_reducible apply ite_h | split | with_reducible apply endCommit_b
    | dsimp only [Keeps])

theorem noLock_b (c : Commit) (s : State) (hs : Keeps z0 s) : Keeps z0 (noLock c s) := by
  unfold noLock
  repeat' (first
    | with_reducible assumption | intro _ | subst x
    | (extract_lets +onlyGivenNames x; have hx : Keeps z0 x := ?_; clear_value x)
    | (extract_lets +onlyGivenNames x; refine isPart x (by constructor) ?_; subst x)
    | (extract_lets +onlyGivenNames x; clear_value x) | with_reducible apply ite_h | split | with_reducible apply rejectCommit_b
    | dsimp only [Keeps])

theorem applyCommit_b (c : Commit) (s : State) (hs : Keeps z0 s) : Keeps z0 (applyCommit c s) := by
  unfold applyCommit
  repeat' (first
    | with_reducible assumption | intro _ | subst x
    | (extract_lets +onlyGivenNames x; have hx : Keeps z0 x := ?_; clear_value x)
    | (extract_lets +onlyGivenNames x; refine isPart x (by constructor) ?_; subst x)
    | (extract_lets +onlyGivenNames x; clear_value x) | with_reducible apply ite_h | split | with_reducible apply rejectTxn_b
    | with_reducible apply rejectCommit_b | with_reducible apply applyStep_b | with_reducible apply slotEnd_b
    | with_reducible apply raiseIf_b | with_reducible apply raiseG_b | with_reducible apply logOther_b
    | with_reducible apply disarm_b | exact kept_noCommit (by with_reducible assumption) | dsimp only [Keeps])

theorem applyMoment_b (s : State) (hs : Keeps z0 s) : Keeps z0 (applyMoment s) := by
  unfold applyMoment
  repeat' (first
    | with_reducible assumption | intro _ | subst x
    | (extract_lets +onlyGivenNames x; have hx : Keeps z0 x := ?_; clear_value x)
    | (extract_lets +onlyGivenNames x; refine isPart x (by constructor) ?_; subst x)
    | (extract_lets +onlyGivenNames x; clear_value x) | with_reducible apply ite_h | split | with_reducible apply applyCommit_b
    | with_reducible apply noLock_b | dsimp only [Keeps])

theorem execCommitApply_b (s : State) (hs : Keeps z0 s) : OutB z0 (execCommitApply s) := by
  unfold execCommitApply
  repeat' (first
    | with_reducible assumption | with_reducible apply out_b | intro _ | subst x
    | (extract_lets +onlyGivenNames x; have hx : Keeps z0 x := ?_; clear_value x)
    | (extract_lets +onlyGivenNames x; refine isPart x (by constructor) ?_; subst x)
    | (extract_lets +onlyGivenNames x; clear_value x) | with_reducible apply ite_h | split | with_reducible apply applyMoment_b
    | dsimp only [Keeps])

theorem execCommit_b (s : State) (hs : Keeps z0 s) : OutB z0 (execCommit s) := by
  unfold execCommit
  repeat' (first
    | with_reducible assumption | with_reducible apply out_b | intro _ | subst x
    | (extract_lets +onlyGivenNames x; have hx : Keeps z0 x := ?_; clear_value x)
    | (extract_lets +onlyGivenNames x; refine isPart x (by constructor) ?_; subst x)
    | (extract_lets +onlyGivenNames x; clear_value x) | with_reducible apply ite_h | split | with_reducible apply applyMoment_b
    | dsimp only [Keeps])

theorem passCommit_b (c : Commit) (s : State) (hc : s.txn.cur = some c) (hs : Keeps z0 s) : Keeps z0 (passCommit c s) := by
  have hk : Keeps z0 { s with txn := { s.txn with cur := some { c with pending := true }, res := 2 } } :=
    kept_commit hs fun w d e => by
      obtain rfl := Option.some.inj e
      exact ⟨(w c hc).1, rfl, (w c hc).2.2⟩
  exact ite_b (enqueueOnce_b _ _ hk) hk

theorem endValidate_b (d : Commit) (s : State) (hs : Keeps z0 s) : Keeps z0 (endValidate d s) := by
  unfold endValidate
  repeat' (first
    | with_reducible assumption | intro _ | subst x
    | (extract_lets +onlyGivenNames x; have hx : Keeps z0 x := ?_; clear_value x)
    | (extract_lets +onlyGivenNames x; refine isPart x (by constructor) ?_; subst x)
    | (extract_lets +onlyGivenNames x; clear_value x) | with_reducible apply ite_h | split | with_reducible apply rejectTxn_b
    | with_reducible apply slotEnd_b | dsimp only [Keeps])

theorem endValidation_b (c : Commit) (s : State) (hc : s.txn.cur = some c) (hs : Keeps z0 s) : Keeps z0 (endValidation c s) := by
  unfold endValidation
  repeat' (first
    | with_reducible assumption | intro _ | subst x
    | (extract_lets +onlyGivenNames x; have hx : Keeps z0 x := ?_; clear_value x)
    | (extract_lets +onlyGivenNames x; refine isPart x (by constructor) ?_; subst x)
    | (extract_lets +onlyGivenNames x; clear_value x) | with_reducible apply ite_h | split | with_reducible apply endCommit_b
    | with_reducible apply rejectCommit_b | with_reducible apply noLock_b | with_reducible apply passCommit_b
    | dsimp only [Keeps])

theorem execValidationEnd_b (s : State) (hs : Keeps z0 s) : OutB z0 (execValidationEnd s) := by
  unfold execValidationEnd
  repeat' (first
    | with_reducible assumption | with_reducible apply out_b | intro _ | subst x
    | (extract_lets +onlyGivenNames x; have hx : Keeps z0 x := ?_; clear_value x)
    | (extract_lets +onlyGivenNames x; refine isPart x (by constructor) ?_; subst x)
    | (extract_lets +onlyGivenNames x; clear_value x) | with_reducible apply ite_h | split
    | with_reducible apply endValidate_b | (with_reducible apply endValidation_b <;> with_reducible assumption)
    | dsimp only [Keeps])

theorem execCommitDeadline_b (s : State) (hs : Keeps z0 s) : OutB z0 (execCommitDeadline s) := by
  unfold execCommitDeadline
  repeat' (first
    | with_reducible assumption | with_reducible apply out_b | intro _ | subst x
    | (extract_lets +onlyGivenNames x; have hx : Keeps z0 x := ?_; clear_value x)
    | (extract_lets +onlyGivenNames x; refine isPart x (by constructor) ?_; subst x)
    | (extract_lets +onlyGivenNames x; clear_value x) | with_reducible apply ite_h | split | with_reducible apply noLock_b
    | with_reducible apply disarm_b
    | exact kept_sameCommit (by with_reducible assumption) (by with_reducible assumption) (by exact ⟨rfl, rfl, rfl, rfl⟩)
    | dsimp only [Keeps])

theorem abortBody_b (p : Packet) (s : State) (hs : Keeps z0 s) : Keeps z0 (abortBody p s) := by
  unfold abortBody
  repeat' (first
    | with_reducible assumption | intro _ | subst x
    | (extract_lets +onlyGivenNames x; have hx : Keeps z0 x := ?_; clear_value x)
    | (extract_lets +onlyGivenNames x; refine isPart x (by constructor) ?_; subst x)
    | (extract_lets +onlyGivenNames x; clear_value x) | with_reducible apply ite_h | split | with_reducible apply rejectTxn_b
    | with_reducible apply refuse_b | with_reducible apply slotBusy_b | with_reducible apply endCommit_b
    | with_reducible apply slotEnd_b
    | exact kept_sameCommit (by with_reducible assumption) (by with_reducible assumption) (by exact ⟨rfl, rfl, rfl, rfl⟩)
    | dsimp only [Keeps])

theorem execTxnAbort_b (p : Packet) (s : State) (hs : Keeps z0 s) : OutB z0 (execTxnAbort p s) := by
  unfold execTxnAbort
  repeat' (first
    | with_reducible assumption | with_reducible apply out_b | intro _ | subst x
    | (extract_lets +onlyGivenNames x; have hx : Keeps z0 x := ?_; clear_value x)
    | (extract_lets +onlyGivenNames x; refine isPart x (by constructor) ?_; subst x)
    | (extract_lets +onlyGivenNames x; clear_value x) | with_reducible apply ite_h | split | with_reducible apply abortBody_b
    | with_reducible apply packet_b | dsimp only [Keeps])

theorem revertPages_b (scope : Word) (s : State) (hs : Keeps z0 s) : Keeps z0 (revertPages scope s) := by
  unfold revertPages
  repeat' (first
    | with_reducible assumption | intro _ | subst x
    | (extract_lets +onlyGivenNames x; have hx : Keeps z0 x := ?_; clear_value x)
    | (extract_lets +onlyGivenNames x; refine isPart x (by constructor) ?_; subst x)
    | (extract_lets +onlyGivenNames x; clear_value x) | with_reducible apply ite_h | split
    | (refine kept_maps (by with_reducible assumption) ?_; exact fun w => { w with stg := takeKeys_fit _ _ _ w.stg })
    | dsimp only [Keeps])

theorem revertBody_b (p : Packet) (s : State) (hs : Keeps z0 s) : Keeps z0 (revertBody p s) := by
  unfold revertBody
  repeat' (first
    | with_reducible assumption | intro _ | subst x
    | (extract_lets +onlyGivenNames x; have hx : Keeps z0 x := ?_; clear_value x)
    | (extract_lets +onlyGivenNames x; refine isPart x (by constructor) ?_; subst x)
    | (extract_lets +onlyGivenNames x; clear_value x) | with_reducible apply ite_h | split | with_reducible apply rejectTxn_b
    | with_reducible apply revertPages_b | with_reducible apply refuse_b | with_reducible apply doneWith_b
    | with_reducible apply reject_b | dsimp only [Keeps])

theorem execTxnRevert_b (p : Packet) (s : State) (hs : Keeps z0 s) : OutB z0 (execTxnRevert p s) := by
  unfold execTxnRevert
  repeat' (first
    | with_reducible assumption | with_reducible apply out_b | intro _ | subst x
    | (extract_lets +onlyGivenNames x; have hx : Keeps z0 x := ?_; clear_value x)
    | (extract_lets +onlyGivenNames x; refine isPart x (by constructor) ?_; subst x)
    | (extract_lets +onlyGivenNames x; clear_value x) | with_reducible apply ite_h | split | with_reducible apply revertBody_b
    | with_reducible apply packet_b | dsimp only [Keeps])

theorem bootCommit_b (s : State) (hs : Keeps z0 s) : Keeps z0 (bootCommit s) := by
  unfold bootCommit
  extract_lets +onlyGivenNames x c u
  have hu : Keeps z0 u := startCommit_b c s
    ⟨rfl, show (0xFFF : Word) ≠ 0 by decide, show (0xFFF : Word).toNat / 4096 = 0 by decide, show (0 : Byte).toNat % 4 ≠ 3 by decide,
      show (0 : Byte).toNat / 8 = 0 by decide⟩ hs
  clear_value u
  split
  · exact raiseG_b _ _ _ (rejectCommit_b _ _ _ _ hu)
  · exact applyCommit_b _ _ hu

theorem setInactive_b (h : Option SlotHdr) (s : State) (hs : Keeps z0 s) : Keeps z0 (setInactive h s) := by
  unfold setInactive
  repeat' (first
    | with_reducible assumption | intro _ | subst x
    | (extract_lets +onlyGivenNames x; have hx : Keeps z0 x := ?_; clear_value x)
    | (extract_lets +onlyGivenNames x; refine isPart x (by constructor) ?_; subst x)
    | (extract_lets +onlyGivenNames x; clear_value x) | with_reducible apply ite_h | split | dsimp only [Keeps])

theorem sigFail_b (slot : Nat) (s : State) (hs : Keeps z0 s) : Keeps z0 (sigFail slot s) := by
  unfold sigFail
  repeat' (first
    | with_reducible assumption | intro _ | subst x
    | (extract_lets +onlyGivenNames x; have hx : Keeps z0 x := ?_; clear_value x)
    | (extract_lets +onlyGivenNames x; refine isPart x (by constructor) ?_; subst x)
    | (extract_lets +onlyGivenNames x; clear_value x) | with_reducible apply ite_h | split | with_reducible apply logSecurity_b
    | with_reducible apply raiseG_b | dsimp only [Keeps])

theorem dropSession_b (s : State) (hs : Keeps z0 s) : Keeps z0 (dropSession s) := by
  unfold dropSession
  repeat' (first
    | with_reducible assumption | intro _ | subst x
    | (extract_lets +onlyGivenNames x; have hx : Keeps z0 x := ?_; clear_value x)
    | (extract_lets +onlyGivenNames x; refine isPart x (by constructor) ?_; subst x)
    | (extract_lets +onlyGivenNames x; clear_value x) | with_reducible apply ite_h | split | dsimp only [Keeps])

theorem updError_b (e : Byte) (s : State) (hs : Keeps z0 s) : Keeps z0 (updError e s) := by
  unfold updError
  repeat' (first
    | with_reducible assumption | intro _ | subst x
    | (extract_lets +onlyGivenNames x; have hx : Keeps z0 x := ?_; clear_value x)
    | (extract_lets +onlyGivenNames x; refine isPart x (by constructor) ?_; subst x)
    | (extract_lets +onlyGivenNames x; clear_value x) | with_reducible apply ite_h | split | with_reducible apply dropSession_b
    | with_reducible apply setInactive_b | with_reducible apply slotError_b | with_reducible apply updState_b
    | with_reducible apply raiseG_b | with_reducible apply grant_b | dsimp only [Keeps])

theorem cancelSession_b (s : State) (hs : Keeps z0 s) : Keeps z0 (cancelSession s) := by
  unfold cancelSession
  repeat' (first
    | with_reducible assumption | intro _ | subst x
    | (extract_lets +onlyGivenNames x; have hx : Keeps z0 x := ?_; clear_value x)
    | (extract_lets +onlyGivenNames x; refine isPart x (by constructor) ?_; subst x)
    | (extract_lets +onlyGivenNames x; clear_value x) | with_reducible apply ite_h | split
    | with_reducible apply dropSession_b | dsimp only [Keeps])

theorem svnCheck_b (k : Nat) (m : Manifest) (s : State) (hs : Keeps z0 s) : OptB z0 (svnCheck k m s) := by
  unfold svnCheck
  repeat' (first
    | with_reducible assumption | with_reducible apply some_b | exact none_b | intro _ | subst x
    | (extract_lets +onlyGivenNames x; have hx : Keeps z0 x := ?_; clear_value x)
    | (extract_lets +onlyGivenNames x; refine isPart x (by constructor) ?_; subst x)
    | (extract_lets +onlyGivenNames x; clear_value x) | with_reducible apply ite_h | split | with_reducible apply optMap_b
    | with_reducible apply updError_b | with_reducible apply raiseIf_b | dsimp only [Keeps])

theorem updPump_b (s : State) (hs : Keeps z0 s) : Keeps z0 (updPump s) := by
  unfold updPump
  repeat' (first
    | with_reducible assumption | intro _ | subst x
    | (extract_lets +onlyGivenNames x; have hx : Keeps z0 x := ?_; clear_value x)
    | (extract_lets +onlyGivenNames x; refine isPart x (by constructor) ?_; subst x)
    | (extract_lets +onlyGivenNames x; clear_value x) | with_reducible apply ite_h | split
    | (refine opt_b (by with_reducible assumption) ?_; with_reducible apply svnCheck_b) | with_reducible apply updError_b
    | with_reducible apply grant_b | dsimp only [Keeps])

theorem takeBytes_b (bs : List Byte) (s : State) (hs : Keeps z0 s) : Keeps z0 (takeBytes bs s) := by
  unfold takeBytes
  repeat' (first
    | with_reducible assumption | intro _ | subst x
    | (extract_lets +onlyGivenNames x; have hx : Keeps z0 x := ?_; clear_value x)
    | (extract_lets +onlyGivenNames x; refine isPart x (by constructor) ?_; subst x)
    | (extract_lets +onlyGivenNames x; clear_value x) | with_reducible apply ite_h | split | dsimp only [Keeps])

theorem takeWaiting_b (s : State) (hs : Keeps z0 s) : Keeps z0 (takeWaiting s) := by
  unfold takeWaiting
  repeat' (first
    | with_reducible assumption | intro _ | subst x
    | (extract_lets +onlyGivenNames x; have hx : Keeps z0 x := ?_; clear_value x)
    | (extract_lets +onlyGivenNames x; refine isPart x (by constructor) ?_; subst x)
    | (extract_lets +onlyGivenNames x; clear_value x) | with_reducible apply ite_h | split | with_reducible apply takeBytes_b
    | with_reducible apply slotEnd_b | dsimp only [Keeps])

theorem consumed_b (k : Nat) (n : Nat) (s : State) (hs : Keeps z0 s) : Keeps z0 (consumed k n s) := by
  unfold consumed
  repeat' (first
    | with_reducible assumption | intro _ | subst x
    | (extract_lets +onlyGivenNames x; have hx : Keeps z0 x := ?_; clear_value x)
    | (extract_lets +onlyGivenNames x; refine isPart x (by constructor) ?_; subst x)
    | (extract_lets +onlyGivenNames x; clear_value x) | with_reducible apply ite_h | split | with_reducible apply takeWaiting_b
    | dsimp only [Keeps])

theorem sectorDone_b (k : Nat) (s : State) (hs : Keeps z0 s) : Keeps z0 (sectorDone k s) := by
  unfold sectorDone
  repeat' (first
    | with_reducible assumption | intro _ | subst x
    | (extract_lets +onlyGivenNames x; have hx : Keeps z0 x := ?_; clear_value x)
    | (extract_lets +onlyGivenNames x; refine isPart x (by constructor) ?_; subst x)
    | (extract_lets +onlyGivenNames x; clear_value x) | with_reducible apply ite_h | split
    | with_reducible apply wantJournal_b | with_reducible apply consumed_b | with_reducible apply updPump_b
    | with_reducible apply setInactive_b | with_reducible apply grant_b | dsimp only [Keeps])

theorem cfgPartDone_b (s : State) (hs : Keeps z0 s) : Keeps z0 (cfgPartDone s) := by
  unfold cfgPartDone
  repeat' (first
    | with_reducible assumption | intro _ | subst x
    | (extract_lets +onlyGivenNames x; have hx : Keeps z0 x := ?_; clear_value x)
    | (extract_lets +onlyGivenNames x; refine isPart x (by constructor) ?_; subst x)
    | (extract_lets +onlyGivenNames x; clear_value x) | with_reducible apply ite_h | split | with_reducible apply consumed_b
    | with_reducible apply updPump_b | dsimp only [Keeps])

theorem burn_fuses {o : Otp} (r b : Nat) (bs : List Byte) (s : State) (h : FusesKept o s.otp) : FusesKept o (burn r b bs s).otp := by
  refine ⟨fun k i hk => ?_, h.writeLock, h.readLock, h.tag14, h.tag15⟩
  refine foldl_or_b _ (fun m x j i hm => ?_) _ _ k i (h.data k i hk)
  obtain ⟨v, n⟩ := x
  dsimp only
  have e : fuse m (fuseHome s.otp r) (b + n) = mget 0 m (64 * fuseHome s.otp r + b + n) := by rw [fuse, Nat.add_assoc]
  rw [e]
  exact or_b m _ v j i hm

theorem burn_b (r b : Nat) (bs : List Byte) (s : State) (hs : Keeps z0 s) : Keeps z0 (burn r b bs s) :=
  { hs with
    fuses := burn_fuses r b bs s hs.fuses
    maps := fun m => { hs.maps m with arr := mwf_foldl 0 _ (fun _ _ => mwf_mput _ _ _ _) _ _ (hs.maps m).arr } }

theorem burn9_b (b : Nat) (bs : List Byte) (s : State) (hs : Keeps z0 s) : Keeps z0 (burn9 b bs s) :=
  kept_maps (kept_otp (burn_b 9 b bs s hs) fun h => ⟨h.data, h.writeLock, h.readLock, h.tag14, h.tag15⟩) fun w =>
    { w with shd := mwf_foldl 0 _ (fun _ _ => mwf_mput _ _ _ _) _ _ w.shd }

theorem advanceArcnt_b (n : Nat) (s : State) (hs : Keeps z0 s) : Keeps z0 (advanceArcnt n s) := by
  unfold advanceArcnt
  repeat' (first
    | with_reducible assumption | intro _ | subst x
    | (extract_lets +onlyGivenNames x; have hx : Keeps z0 x := ?_; clear_value x)
    | (extract_lets +onlyGivenNames x; refine isPart x (by constructor) ?_; subst x)
    | (extract_lets +onlyGivenNames x; clear_value x) | with_reducible apply ite_h | split | with_reducible apply burn9_b
    | with_reducible apply logSecurity_b | with_reducible apply raiseG_b | dsimp only [Keeps])

theorem revokeSlot_b (i : Nat) (s : State) (hs : Keeps z0 s) : Keeps z0 (revokeSlot i s) := by
  unfold revokeSlot
  repeat' (first
    | with_reducible assumption | intro _ | subst x
    | (extract_lets +onlyGivenNames x; have hx : Keeps z0 x := ?_; clear_value x)
    | (extract_lets +onlyGivenNames x; refine isPart x (by constructor) ?_; subst x)
    | (extract_lets +onlyGivenNames x; clear_value x) | with_reducible apply ite_h | split | with_reducible apply burn_b
    | with_reducible apply logSecurity_b | with_reducible apply raiseG_b | dsimp only [Keeps])

theorem journalLost_b (s : State) (hs : Keeps z0 s) : Keeps z0 (journalLost s) := by
  unfold journalLost
  repeat' (first
    | with_reducible assumption | intro _ | subst x
    | (extract_lets +onlyGivenNames x; have hx : Keeps z0 x := ?_; clear_value x)
    | (extract_lets +onlyGivenNames x; refine isPart x (by constructor) ?_; subst x)
    | (extract_lets +onlyGivenNames x; clear_value x) | with_reducible apply ite_h | split | with_reducible apply fellEnd_b
    | with_reducible apply slotError_b | dsimp only [Keeps])

theorem journalShut_b (s : State) (hs : Keeps z0 s) : Keeps z0 (journalShut s) := by
  unfold journalShut
  repeat' (first
    | with_reducible assumption | intro _ | subst x
    | (extract_lets +onlyGivenNames x; have hx : Keeps z0 x := ?_; clear_value x)
    | (extract_lets +onlyGivenNames x; refine isPart x (by constructor) ?_; subst x)
    | (extract_lets +onlyGivenNames x; clear_value x) | with_reducible apply ite_h | split
    | with_reducible apply journalLost_b | dsimp only [Keeps])

theorem confirm_b (s : State) (hs : Keeps z0 s) : Keeps z0 (confirm s) := by
  unfold confirm
  repeat' (first
    | with_reducible assumption | intro _ | subst x
    | (extract_lets +onlyGivenNames x; have hx : Keeps z0 x := ?_; clear_value x)
    | (extract_lets +onlyGivenNames x; refine isPart x (by constructor) ?_; subst x)
    | (extract_lets +onlyGivenNames x; clear_value x) | with_reducible apply ite_h | split
    | with_reducible apply journalLost_b | with_reducible apply revokeSlot_b | with_reducible apply advanceArcnt_b
    | with_reducible apply grant_b | with_reducible apply foldl_b | dsimp only [Keeps])

theorem confirmed_b (s : State) (hs : Keeps z0 s) : Keeps z0 (confirmed s) := by
  unfold confirmed
  repeat' (first
    | with_reducible assumption | intro _ | subst x
    | (extract_lets +onlyGivenNames x; have hx : Keeps z0 x := ?_; clear_value x)
    | (extract_lets +onlyGivenNames x; refine isPart x (by constructor) ?_; subst x)
    | (extract_lets +onlyGivenNames x; clear_value x) | with_reducible apply ite_h | split | with_reducible apply slotEnd_b
    | with_reducible apply logUpdate_b | with_reducible apply raiseG_b | with_reducible apply disarm_b | dsimp only [Keeps])

theorem journalDone_b (s : State) (hs : Keeps z0 s) : Keeps z0 (journalDone s) := by
  unfold journalDone
  repeat' (first
    | with_reducible assumption | intro _ | subst x
    | (extract_lets +onlyGivenNames x; have hx : Keeps z0 x := ?_; clear_value x)
    | (extract_lets +onlyGivenNames x; refine isPart x (by constructor) ?_; subst x)
    | (extract_lets +onlyGivenNames x; clear_value x) | with_reducible apply ite_h | split | with_reducible apply confirmed_b
    | with_reducible apply confirm_b | with_reducible apply updPump_b | with_reducible apply fellDone_b
    | with_reducible apply slotEnd_b | dsimp only [Keeps])

theorem pendSwap_b (i : Nat) (s : State) (hs : Keeps z0 s) : Keeps z0 (pendSwap i s) := by
  unfold pendSwap
  repeat' (first
    | with_reducible assumption | intro _ | subst x
    | (extract_lets +onlyGivenNames x; have hx : Keeps z0 x := ?_; clear_value x)
    | (extract_lets +onlyGivenNames x; refine isPart x (by constructor) ?_; subst x)
    | (extract_lets +onlyGivenNames x; clear_value x) | with_reducible apply ite_h | split | dsimp only [Keeps])

theorem spareLow_b (i : Nat) (s : State) (hs : Keeps z0 s) : Keeps z0 (spareLow i s) := by
  unfold spareLow
  repeat' (first
    | with_reducible assumption | intro _ | subst x
    | (extract_lets +onlyGivenNames x; have hx : Keeps z0 x := ?_; clear_value x)
    | (extract_lets +onlyGivenNames x; refine isPart x (by constructor) ?_; subst x)
    | (extract_lets +onlyGivenNames x; clear_value x) | with_reducible apply ite_h | split | with_reducible apply raiseG_b
    | dsimp only [Keeps])

theorem retireWorn_b (s : State) (hs : Keeps z0 s) : Keeps z0 (retireWorn s) := by
  unfold retireWorn
  repeat' (first
    | with_reducible assumption | intro _ | subst x
    | (extract_lets +onlyGivenNames x; have hx : Keeps z0 x := ?_; clear_value x)
    | (extract_lets +onlyGivenNames x; refine isPart x (by constructor) ?_; subst x)
    | (extract_lets +onlyGivenNames x; clear_value x) | with_reducible apply ite_h | split | with_reducible apply raiseIf_b
    | with_reducible apply spareLow_b | with_reducible apply pendSwap_b | with_reducible apply raiseG_b
    | with_reducible apply foldl_b | dsimp only [Keeps])

theorem recomputePend_b (s : State) (hs : Keeps z0 s) : Keeps z0 (recomputePend s) := by
  unfold recomputePend
  repeat' (first
    | with_reducible assumption | intro _ | subst x
    | (extract_lets +onlyGivenNames x; have hx : Keeps z0 x := ?_; clear_value x)
    | (extract_lets +onlyGivenNames x; refine isPart x (by constructor) ?_; subst x)
    | (extract_lets +onlyGivenNames x; clear_value x) | with_reducible apply ite_h | split | dsimp only [Keeps])

theorem execOperatingHour_b (s : State) (hs : Keeps z0 s) : OutB z0 (execOperatingHour s) := by
  unfold execOperatingHour
  repeat' (first
    | with_reducible assumption | with_reducible apply out_b | intro _ | subst x
    | (extract_lets +onlyGivenNames x; have hx : Keeps z0 x := ?_; clear_value x)
    | (extract_lets +onlyGivenNames x; refine isPart x (by constructor) ?_; subst x)
    | (extract_lets +onlyGivenNames x; clear_value x) | with_reducible apply ite_h | split | with_reducible apply retireWorn_b
    | with_reducible apply grant_b | dsimp only [Keeps])

theorem swapDone_b (i : Nat) (s : State) (hs : Keeps z0 s) : Keeps z0 (swapDone i s) := by
  unfold swapDone
  repeat' (first
    | with_reducible assumption | intro _ | subst x
    | (extract_lets +onlyGivenNames x; have hx : Keeps z0 x := ?_; clear_value x)
    | (extract_lets +onlyGivenNames x; refine isPart x (by constructor) ?_; subst x)
    | (extract_lets +onlyGivenNames x; clear_value x) | with_reducible apply ite_h | split | with_reducible apply raiseG_b
    | dsimp only [Keeps])

theorem beginSwap_b (i : Nat) (s : State) (hs : Keeps z0 s) : Keeps z0 (beginSwap i s) := by
  unfold beginSwap
  repeat' (first
    | with_reducible assumption | intro _ | subst x
    | (extract_lets +onlyGivenNames x; have hx : Keeps z0 x := ?_; clear_value x)
    | (extract_lets +onlyGivenNames x; refine isPart x (by constructor) ?_; subst x)
    | (extract_lets +onlyGivenNames x; clear_value x) | with_reducible apply ite_h | split | with_reducible apply swapDone_b
    | with_reducible apply setPh_b | with_reducible apply arm_b | dsimp only [Keeps])

theorem execSwap_b (s : State) (hs : Keeps z0 s) : OutB z0 (execSwap s) := by
  unfold execSwap
  repeat' (first
    | with_reducible assumption | with_reducible apply out_b | intro _ | subst x
    | (extract_lets +onlyGivenNames x; have hx : Keeps z0 x := ?_; clear_value x)
    | (extract_lets +onlyGivenNames x; refine isPart x (by constructor) ?_; subst x)
    | (extract_lets +onlyGivenNames x; clear_value x) | with_reducible apply ite_h | split | with_reducible apply beginSwap_b
    | with_reducible apply spareLow_b | dsimp only [Keeps])

theorem execSwapOverlapEnd_b (d : SpareRail) (s : State) (hs : Keeps z0 s) : OutB z0 (execSwapOverlapEnd d s) := by
  unfold execSwapOverlapEnd
  repeat' (first
    | with_reducible assumption | with_reducible apply out_b | intro _ | subst x
    | (extract_lets +onlyGivenNames x; have hx : Keeps z0 x := ?_; clear_value x)
    | (extract_lets +onlyGivenNames x; refine isPart x (by constructor) ?_; subst x)
    | (extract_lets +onlyGivenNames x; clear_value x) | with_reducible apply ite_h | split | with_reducible apply swapDone_b
    | with_reducible apply setLdo_b | with_reducible apply setPh_b | with_reducible apply disarm_b | dsimp only [Keeps])

theorem spareSwapBody_b (p : Packet) (s : State) (hs : Keeps z0 s) : Keeps z0 (spareSwapBody p s) := by
  unfold spareSwapBody
  repeat' (first
    | with_reducible assumption | intro _ | subst x
    | (extract_lets +onlyGivenNames x; have hx : Keeps z0 x := ?_; clear_value x)
    | (extract_lets +onlyGivenNames x; refine isPart x (by constructor) ?_; subst x)
    | (extract_lets +onlyGivenNames x; clear_value x) | with_reducible apply ite_h | split | with_reducible apply pendSwap_b
    | with_reducible apply doneWith_b | with_reducible apply rejectOpen_b | with_reducible apply reject_b | dsimp only [Keeps])

theorem execSpareSwap_b (p : Packet) (s : State) (hs : Keeps z0 s) : OutB z0 (execSpareSwap p s) := by
  unfold execSpareSwap
  repeat' (first
    | with_reducible assumption | with_reducible apply out_b | intro _ | subst x
    | (extract_lets +onlyGivenNames x; have hx : Keeps z0 x := ?_; clear_value x)
    | (extract_lets +onlyGivenNames x; refine isPart x (by constructor) ?_; subst x)
    | (extract_lets +onlyGivenNames x; clear_value x) | with_reducible apply ite_h | split
    | with_reducible apply spareSwapBody_b | with_reducible apply packet_b | dsimp only [Keeps])

theorem execPatinaReport_b (p : Packet) (s : State) (hs : Keeps z0 s) : OutB z0 (execPatinaReport p s) := by
  unfold execPatinaReport
  repeat' (first
    | with_reducible assumption | with_reducible apply out_b | intro _ | subst x
    | (extract_lets +onlyGivenNames x; have hx : Keeps z0 x := ?_; clear_value x)
    | (extract_lets +onlyGivenNames x; refine isPart x (by constructor) ?_; subst x)
    | (extract_lets +onlyGivenNames x; clear_value x) | with_reducible apply ite_h | split | with_reducible apply packet_b
    | with_reducible apply doneWith_b | with_reducible apply rejectOpen_b | dsimp only [Keeps])

end Sys2Proof.Machine
end

