-- ==== Sys2Proof/Laws/KeepsC.lean ====
section
/-! SUPPORT. What every step keeps: the other meanings, one lemma each. -/

set_option linter.unreachableTactic false
set_option linter.unusedTactic false
set_option linter.unusedVariables false

namespace Sys2Proof.Machine

open Sys2Proof

variable {z0 : State}

theorem setDs_b (f : Ds → Ds) (s : State) (hm : MapsFit (mapsOf s) → MapsFit (mapsOf { s with ds := f s.ds })) (hs : Keeps z0 s) :
    Keeps z0 (setDs f s) := kept_maps hs hm

theorem pollStart_b (s : State) (hs : Keeps z0 s) : Keeps z0 (pollStart s) := by
  unfold pollStart
  repeat' (first
    | with_reducible assumption | intro _ | subst x
    | (extract_lets +onlyGivenNames x; have hx : Keeps z0 x := ?_; clear_value x)
    | (extract_lets +onlyGivenNames x; refine isPart x (by constructor) ?_; subst x)
    | (extract_lets +onlyGivenNames x; clear_value x) | with_reducible apply ite_h | split | with_reducible apply setDs_b
    | dsimp only [Keeps])

theorem pollWatch_b (s : State) (hs : Keeps z0 s) : Keeps z0 (pollWatch s) := by
  unfold pollWatch
  repeat' (first
    | with_reducible assumption | intro _ | subst x
    | (extract_lets +onlyGivenNames x; have hx : Keeps z0 x := ?_; clear_value x)
    | (extract_lets +onlyGivenNames x; refine isPart x (by constructor) ?_; subst x)
    | (extract_lets +onlyGivenNames x; clear_value x) | with_reducible apply ite_h | split | with_reducible apply setDs_b
    | with_reducible apply arm_b | with_reducible apply disarm_b | dsimp only [Keeps])

theorem jobError_b (e : Byte) (s : State) (hs : Keeps z0 s) : Keeps z0 (jobError e s) := by
  unfold jobError
  repeat' (first
    | with_reducible assumption | intro _ | subst x
    | (extract_lets +onlyGivenNames x; have hx : Keeps z0 x := ?_; clear_value x)
    | (extract_lets +onlyGivenNames x; refine isPart x (by constructor) ?_; subst x)
    | (extract_lets +onlyGivenNames x; clear_value x) | with_reducible apply ite_h | split | with_reducible apply pollStart_b
    | with_reducible apply setDs_b | with_reducible apply slotError_b | dsimp only [Keeps])

theorem startCut_b (s : State) (hs : Keeps z0 s) : Keeps z0 (startCut s) := by
  unfold startCut
  repeat' (first
    | with_reducible assumption | intro _ | subst x
    | (extract_lets +onlyGivenNames x; have hx : Keeps z0 x := ?_; clear_value x)
    | (extract_lets +onlyGivenNames x; refine isPart x (by constructor) ?_; subst x)
    | (extract_lets +onlyGivenNames x; clear_value x) | with_reducible apply ite_h | split | with_reducible apply foldl_b
    | with_reducible apply setDs_b | with_reducible apply cancelPending_b | with_reducible apply switchOffSet_b
    | with_reducible apply settle_b | with_reducible apply breach_b | with_reducible apply preempt_b
    | with_reducible apply raiseG_b | with_reducible apply arm_b | dsimp only [Keeps])

theorem portFailed_b (s : State) (hs : Keeps z0 s) : Keeps z0 (portFailed s) := by
  unfold portFailed
  repeat' (first
    | with_reducible assumption | intro _ | subst x
    | (extract_lets +onlyGivenNames x; have hx : Keeps z0 x := ?_; clear_value x)
    | (extract_lets +onlyGivenNames x; refine isPart x (by constructor) ?_; subst x)
    | (extract_lets +onlyGivenNames x; clear_value x) | with_reducible apply ite_h | split | with_reducible apply startCut_b
    | with_reducible apply jobError_b | with_reducible apply pollWatch_b | with_reducible apply setDs_b
    | with_reducible apply raiseG_b | dsimp only [Keeps])

theorem lossEvent_b (k : ArbLoss) (s : State) (hs : Keeps z0 s) : Keeps z0 (lossEvent k s) := by
  unfold lossEvent
  repeat' (first
    | with_reducible assumption | intro _ | subst x
    | (extract_lets +onlyGivenNames x; have hx : Keeps z0 x := ?_; clear_value x)
    | (extract_lets +onlyGivenNames x; refine isPart x (by constructor) ?_; subst x)
    | (extract_lets +onlyGivenNames x; clear_value x) | with_reducible apply ite_h | split | with_reducible apply raiseG_b
    | dsimp only [Keeps])

theorem dsXferBody_b (p : Packet) (s : State) (hs : Keeps z0 s) : Keeps z0 (dsXferBody p s) := by
  unfold dsXferBody
  repeat' (first
    | with_reducible assumption | intro _ | subst x
    | (extract_lets +onlyGivenNames x; have hx : Keeps z0 x := ?_; clear_value x)
    | (extract_lets +onlyGivenNames x; refine isPart x (by constructor) ?_; subst x)
    | (extract_lets +onlyGivenNames x; clear_value x) | with_reducible apply ite_h | split | with_reducible apply setDs_b
    | with_reducible apply slotBusy_b | with_reducible apply slotError_b | with_reducible apply reject_b | dsimp only [Keeps])

theorem execDsXfer_b (p : Packet) (s : State) (hs : Keeps z0 s) : OutB z0 (execDsXfer p s) := by
  unfold execDsXfer
  repeat' (first
    | with_reducible assumption | with_reducible apply out_b | intro _ | subst x
    | (extract_lets +onlyGivenNames x; have hx : Keeps z0 x := ?_; clear_value x)
    | (extract_lets +onlyGivenNames x; refine isPart x (by constructor) ?_; subst x)
    | (extract_lets +onlyGivenNames x; clear_value x) | with_reducible apply ite_h | split | with_reducible apply dsXferBody_b
    | with_reducible apply packet_b | dsimp only [Keeps])

theorem jobEnd_b (j : DsJob) (e : DsEnd) (s : State) (hs : Keeps z0 s) : Keeps z0 (jobEnd j e s) := by
  unfold jobEnd
  repeat' (first
    | with_reducible assumption | intro _ | subst x
    | (extract_lets +onlyGivenNames x; have hx : Keeps z0 x := ?_; clear_value x)
    | (extract_lets +onlyGivenNames x; refine isPart x (by constructor) ?_; subst x)
    | (extract_lets +onlyGivenNames x; clear_value x) | with_reducible apply ite_h | split | with_reducible apply lossEvent_b
    | with_reducible apply jobError_b | with_reducible apply pollStart_b | with_reducible apply setDs_b
    | with_reducible apply slotEnd_b | with_reducible apply raiseG_b | dsimp only [Keeps])

theorem execDsXferDone_b (e : DsEnd) (s : State) (hs : Keeps z0 s) : OutB z0 (execDsXferDone e s) := by
  unfold execDsXferDone
  repeat' (first
    | with_reducible assumption | with_reducible apply out_b | intro _ | subst x
    | (extract_lets +onlyGivenNames x; have hx : Keeps z0 x := ?_; clear_value x)
    | (extract_lets +onlyGivenNames x; refine isPart x (by constructor) ?_; subst x)
    | (extract_lets +onlyGivenNames x; clear_value x) | with_reducible apply ite_h | split | with_reducible apply jobEnd_b
    | dsimp only [Keeps])

theorem pollFail_b (k : Nat) (s : State) (hs : Keeps z0 s) : Keeps z0 (pollFail k s) := by
  unfold pollFail
  repeat' (first
    | with_reducible assumption | intro _ | subst x
    | (extract_lets +onlyGivenNames x; have hx : Keeps z0 x := ?_; clear_value x)
    | (extract_lets +onlyGivenNames x; refine isPart x (by constructor) ?_; subst x)
    | (extract_lets +onlyGivenNames x; clear_value x) | with_reducible apply ite_h | split | with_reducible apply setDs_b
    | with_reducible apply raiseIf_b | dsimp only [Keeps])

theorem pollEnd_b (k : Nat) (e : DsEnd) (s : State) (hs : Keeps z0 s) : Keeps z0 (pollEnd k e s) := by
  unfold pollEnd
  repeat' (first
    | (with_reducible apply setDs_b; exact fun w => { w with val := by dsimp only [mapsOf]; exact mwf_mput _ _ _ _ w.val })
    | with_reducible assumption | intro _ | subst x
    | (extract_lets +onlyGivenNames x; have hx : Keeps z0 x := ?_; clear_value x)
    | (extract_lets +onlyGivenNames x; refine isPart x (by constructor) ?_; subst x)
    | (extract_lets +onlyGivenNames x; clear_value x) | with_reducible apply ite_h | split | with_reducible apply pollFail_b
    | with_reducible apply lossEvent_b | with_reducible apply setDs_b | with_reducible apply raiseG_b | dsimp only [Keeps])

theorem pollOver_b (k : Nat) (e : DsEnd) (s : State) (hs : Keeps z0 s) : Keeps z0 (pollOver k e s) := by
  unfold pollOver
  repeat' (first
    | with_reducible assumption | intro _ | subst x
    | (extract_lets +onlyGivenNames x; have hx : Keeps z0 x := ?_; clear_value x)
    | (extract_lets +onlyGivenNames x; refine isPart x (by constructor) ?_; subst x)
    | (extract_lets +onlyGivenNames x; clear_value x) | with_reducible apply ite_h | split | with_reducible apply pollEnd_b
    | with_reducible apply pollStart_b | with_reducible apply setDs_b | dsimp only [Keeps])

theorem execDsPoll_b (e : Option DsEnd) (s : State) (hs : Keeps z0 s) : OutB z0 (execDsPoll e s) := by
  unfold execDsPoll
  repeat' (first
    | with_reducible assumption | with_reducible apply out_b | intro _ | subst x
    | (extract_lets +onlyGivenNames x; have hx : Keeps z0 x := ?_; clear_value x)
    | (extract_lets +onlyGivenNames x; refine isPart x (by constructor) ?_; subst x)
    | (extract_lets +onlyGivenNames x; clear_value x) | with_reducible apply ite_h | split | with_reducible apply pollOver_b
    | with_reducible apply pollEnd_b | with_reducible apply pollWatch_b | with_reducible apply pollStart_b
    | with_reducible apply setDs_b | with_reducible apply disarm_b | dsimp only [Keeps])

theorem execScltmo_b (s : State) (hs : Keeps z0 s) : OutB z0 (execScltmo s) := by
  unfold execScltmo
  repeat' (first
    | with_reducible assumption | with_reducible apply out_b | intro _ | subst x
    | (extract_lets +onlyGivenNames x; have hx : Keeps z0 x := ?_; clear_value x)
    | (extract_lets +onlyGivenNames x; refine isPart x (by constructor) ?_; subst x)
    | (extract_lets +onlyGivenNames x; clear_value x) | with_reducible apply ite_h | split | with_reducible apply pollFail_b
    | with_reducible apply jobError_b | with_reducible apply pollStart_b | with_reducible apply setDs_b
    | with_reducible apply raiseG_b | with_reducible apply disarm_b | dsimp only [Keeps])

theorem execStuckscl_b (s : State) (hs : Keeps z0 s) : OutB z0 (execStuckscl s) := by
  unfold execStuckscl
  repeat' (first
    | with_reducible assumption | with_reducible apply out_b | intro _ | subst x
    | (extract_lets +onlyGivenNames x; have hx : Keeps z0 x := ?_; clear_value x)
    | (extract_lets +onlyGivenNames x; refine isPart x (by constructor) ?_; subst x)
    | (extract_lets +onlyGivenNames x; clear_value x) | with_reducible apply ite_h | split | with_reducible apply portFailed_b
    | with_reducible apply setDs_b | with_reducible apply disarm_b | dsimp only [Keeps])

theorem busCleared_b (s : State) (hs : Keeps z0 s) : Keeps z0 (busCleared s) := by
  unfold busCleared
  repeat' (first
    | with_reducible assumption | intro _ | subst x
    | (extract_lets +onlyGivenNames x; have hx : Keeps z0 x := ?_; clear_value x)
    | (extract_lets +onlyGivenNames x; refine isPart x (by constructor) ?_; subst x)
    | (extract_lets +onlyGivenNames x; clear_value x) | with_reducible apply ite_h | split | with_reducible apply pollStart_b
    | with_reducible apply setDs_b | with_reducible apply raiseG_b | dsimp only [Keeps])

theorem execDsBusClear_b (sda : Option Bool) (s : State) (hs : Keeps z0 s) : OutB z0 (execDsBusClear sda s) := by
  unfold execDsBusClear
  repeat' (first
    | with_reducible assumption | with_reducible apply out_b | intro _ | subst x
    | (extract_lets +onlyGivenNames x; have hx : Keeps z0 x := ?_; clear_value x)
    | (extract_lets +onlyGivenNames x; refine isPart x (by constructor) ?_; subst x)
    | (extract_lets +onlyGivenNames x; clear_value x) | with_reducible apply ite_h | split | with_reducible apply busCleared_b
    | with_reducible apply setDs_b | dsimp only [Keeps])

theorem execDsClearRetry_b (sda : Bool) (scl : Bool) (s : State) (hs : Keeps z0 s) : OutB z0 (execDsClearRetry sda scl s) := by
  unfold execDsClearRetry
  repeat' (first
    | with_reducible assumption | with_reducible apply out_b | intro _ | subst x
    | (extract_lets +onlyGivenNames x; have hx : Keeps z0 x := ?_; clear_value x)
    | (extract_lets +onlyGivenNames x; refine isPart x (by constructor) ?_; subst x)
    | (extract_lets +onlyGivenNames x; clear_value x) | with_reducible apply ite_h | split | with_reducible apply busCleared_b
    | with_reducible apply portFailed_b | with_reducible apply pollWatch_b | with_reducible apply setDs_b
    | with_reducible apply raiseG_b | dsimp only [Keeps])

theorem execDsCutRestart_b (s : State) (hs : Keeps z0 s) : OutB z0 (execDsCutRestart s) := by
  unfold execDsCutRestart
  repeat' (first
    | with_reducible assumption | with_reducible apply out_b | intro _ | subst x
    | (extract_lets +onlyGivenNames x; have hx : Keeps z0 x := ?_; clear_value x)
    | (extract_lets +onlyGivenNames x; refine isPart x (by constructor) ?_; subst x)
    | (extract_lets +onlyGivenNames x; clear_value x) | with_reducible apply ite_h | split | with_reducible apply setDs_b
    | with_reducible apply settle_b | with_reducible apply restartSet_b | with_reducible apply disarm_b | dsimp only [Keeps])

theorem dsClrBit_b (s : State) (hs : Keeps z0 s) : Keeps z0 (dsClrBit s) := by
  unfold dsClrBit
  repeat' (first
    | with_reducible assumption | intro _ | subst x
    | (extract_lets +onlyGivenNames x; have hx : Keeps z0 x := ?_; clear_value x)
    | (extract_lets +onlyGivenNames x; refine isPart x (by constructor) ?_; subst x)
    | (extract_lets +onlyGivenNames x; clear_value x) | with_reducible apply ite_h | split | with_reducible apply pollWatch_b
    | with_reducible apply setDs_b | dsimp only [Keeps])

theorem execDsctlClr_b (s : State) (hs : Keeps z0 s) : OutB z0 (execDsctlClr s) := by
  unfold execDsctlClr
  repeat' (first
    | with_reducible assumption | with_reducible apply out_b | intro _ | subst x
    | (extract_lets +onlyGivenNames x; have hx : Keeps z0 x := ?_; clear_value x)
    | (extract_lets +onlyGivenNames x; refine isPart x (by constructor) ?_; subst x)
    | (extract_lets +onlyGivenNames x; clear_value x) | with_reducible apply ite_h | split | with_reducible apply dsClrBit_b
    | with_reducible apply onPage_b | dsimp only [Keeps])

theorem acceptExit_b (disc : Bool) (wd : Bool) (s : State) (hs : Keeps z0 s) : Keeps z0 (acceptExit disc wd s) := by
  unfold acceptExit
  repeat' (first
    | with_reducible assumption | intro _ | subst x
    | (extract_lets +onlyGivenNames x; have hx : Keeps z0 x := ?_; clear_value x)
    | (extract_lets +onlyGivenNames x; refine isPart x (by constructor) ?_; subst x)
    | (extract_lets +onlyGivenNames x; clear_value x) | with_reducible apply ite_h | split | with_reducible apply settle_b
    | dsimp only [Keeps])

theorem tryAutorel_b (s : State) (hs : Keeps z0 s) : Keeps z0 (tryAutorel s) := by
  unfold tryAutorel
  repeat' (first
    | with_reducible assumption | intro _ | subst x
    | (extract_lets +onlyGivenNames x; have hx : Keeps z0 x := ?_; clear_value x)
    | (extract_lets +onlyGivenNames x; refine isPart x (by constructor) ?_; subst x)
    | (extract_lets +onlyGivenNames x; clear_value x) | with_reducible apply ite_h | split | with_reducible apply acceptExit_b
    | dsimp only [Keeps])

theorem ignoreSafeIn_b (s : State) (hs : Keeps z0 s) : Keeps z0 (ignoreSafeIn s) := by
  unfold ignoreSafeIn
  repeat' (first
    | with_reducible assumption | intro _ | subst x
    | (extract_lets +onlyGivenNames x; have hx : Keeps z0 x := ?_; clear_value x)
    | (extract_lets +onlyGivenNames x; refine isPart x (by constructor) ?_; subst x)
    | (extract_lets +onlyGivenNames x; clear_value x) | with_reducible apply ite_h | split | with_reducible apply disarm_b
    | dsimp only [Keeps])

theorem safeLevels_b (a : Bool) (b : Bool) (s : State) (hs : Keeps z0 s) : Keeps z0 (safeLevels a b s) := by
  unfold safeLevels
  repeat' (first
    | with_reducible assumption | intro _ | subst x
    | (extract_lets +onlyGivenNames x; have hx : Keeps z0 x := ?_; clear_value x)
    | (extract_lets +onlyGivenNames x; refine isPart x (by constructor) ?_; subst x)
    | (extract_lets +onlyGivenNames x; clear_value x) | with_reducible apply ite_h | split | with_reducible apply tryAutorel_b
    | with_reducible apply enterSafe_b | with_reducible apply raiseIf_b | with_reducible apply arm_b
    | with_reducible apply disarm_b | dsimp only [Keeps])

theorem execSafeInput_b (a : Bool) (b : Bool) (s : State) (hs : Keeps z0 s) : OutB z0 (execSafeInput a b s) := by
  unfold execSafeInput
  repeat' (first
    | with_reducible assumption | with_reducible apply out_b | intro _ | subst x
    | (extract_lets +onlyGivenNames x; have hx : Keeps z0 x := ?_; clear_value x)
    | (extract_lets +onlyGivenNames x; refine isPart x (by constructor) ?_; subst x)
    | (extract_lets +onlyGivenNames x; clear_value x) | with_reducible apply ite_h | split | with_reducible apply safeLevels_b
    | with_reducible apply ignoreSafeIn_b | dsimp only [Keeps])

theorem execDisc_b (s : State) (hs : Keeps z0 s) : OutB z0 (execDisc s) := by
  unfold execDisc
  repeat' (first
    | with_reducible assumption | with_reducible apply out_b | intro _ | subst x
    | (extract_lets +onlyGivenNames x; have hx : Keeps z0 x := ?_; clear_value x)
    | (extract_lets +onlyGivenNames x; refine isPart x (by constructor) ?_; subst x)
    | (extract_lets +onlyGivenNames x; clear_value x) | with_reducible apply ite_h | split | with_reducible apply enterSafe_b
    | with_reducible apply raiseG_b | with_reducible apply disarm_b | dsimp only [Keeps])

theorem execSafeHoldEnd_b (r : Rail) (s : State) (hs : Keeps z0 s) : OutB z0 (execSafeHoldEnd r s) := by
  unfold execSafeHoldEnd
  repeat' (first
    | with_reducible assumption | with_reducible apply out_b | intro _ | subst x
    | (extract_lets +onlyGivenNames x; have hx : Keeps z0 x := ?_; clear_value x)
    | (extract_lets +onlyGivenNames x; refine isPart x (by constructor) ?_; subst x)
    | (extract_lets +onlyGivenNames x; clear_value x) | with_reducible apply ite_h | split | with_reducible apply settle_b
    | with_reducible apply switchOff_b | with_reducible apply disarm_b | dsimp only [Keeps])

theorem safeClearBody_b (p : Packet) (s : State) (hs : Keeps z0 s) : Keeps z0 (safeClearBody p s) := by
  unfold safeClearBody
  repeat' (first
    | with_reducible assumption | intro _ | subst x
    | (extract_lets +onlyGivenNames x; have hx : Keeps z0 x := ?_; clear_value x)
    | (extract_lets +onlyGivenNames x; refine isPart x (by constructor) ?_; subst x)
    | (extract_lets +onlyGivenNames x; clear_value x) | with_reducible apply ite_h | split | with_reducible apply acceptExit_b
    | with_reducible apply doneWith_b | with_reducible apply rejectOpen_b | with_reducible apply slotEnd_b | dsimp only [Keeps])

theorem execSafeClear_b (p : Packet) (s : State) (hs : Keeps z0 s) : OutB z0 (execSafeClear p s) := by
  unfold execSafeClear
  repeat' (first
    | with_reducible assumption | with_reducible apply out_b | intro _ | subst x
    | (extract_lets +onlyGivenNames x; have hx : Keeps z0 x := ?_; clear_value x)
    | (extract_lets +onlyGivenNames x; refine isPart x (by constructor) ?_; subst x)
    | (extract_lets +onlyGivenNames x; clear_value x) | with_reducible apply ite_h | split
    | with_reducible apply safeClearBody_b | with_reducible apply packet_b | dsimp only [Keeps])

theorem wdFault_b (err : Nat) (b : Nat) (s : State) (hs : Keeps z0 s) : Keeps z0 (wdFault err b s) := by
  unfold wdFault
  repeat' (first
    | with_reducible assumption | intro _ | subst x
    | (extract_lets +onlyGivenNames x; have hx : Keeps z0 x := ?_; clear_value x)
    | (extract_lets +onlyGivenNames x; refine isPart x (by constructor) ?_; subst x)
    | (extract_lets +onlyGivenNames x; clear_value x) | with_reducible apply ite_h | split | with_reducible apply enterSafe_b
    | with_reducible apply wdStop_b | with_reducible apply raiseG_b | dsimp only [Keeps])

theorem kick_b (w : Word) (s : State) (hs : Keeps z0 s) : Keeps z0 (kick w s) := by
  unfold kick
  repeat' (first
    | with_reducible assumption | intro _ | subst x
    | (extract_lets +onlyGivenNames x; have hx : Keeps z0 x := ?_; clear_value x)
    | (extract_lets +onlyGivenNames x; refine isPart x (by constructor) ?_; subst x)
    | (extract_lets +onlyGivenNames x; clear_value x) | with_reducible apply ite_h | split | with_reducible apply wdFault_b
    | with_reducible apply arm_b | dsimp only [Keeps])

theorem execWdKick_b (w : Word) (pec : Pec) (s : State) (hs : Keeps z0 s) : OutB z0 (execWdKick w pec s) := by
  unfold execWdKick
  repeat' (first
    | with_reducible assumption | with_reducible apply out_b | intro _ | subst x
    | (extract_lets +onlyGivenNames x; have hx : Keeps z0 x := ?_; clear_value x)
    | (extract_lets +onlyGivenNames x; refine isPart x (by constructor) ?_; subst x)
    | (extract_lets +onlyGivenNames x; clear_value x) | with_reducible apply ite_h | split | with_reducible apply kick_b
    | with_reducible apply pecError_b | with_reducible apply ackAccess_b | with_reducible apply nackAccess_b
    | dsimp only [Keeps])

theorem execWdlate_b (s : State) (hs : Keeps z0 s) : OutB z0 (execWdlate s) := by
  unfold execWdlate
  repeat' (first
    | with_reducible assumption | with_reducible apply out_b | intro _ | subst x
    | (extract_lets +onlyGivenNames x; have hx : Keeps z0 x := ?_; clear_value x)
    | (extract_lets +onlyGivenNames x; refine isPart x (by constructor) ?_; subst x)
    | (extract_lets +onlyGivenNames x; clear_value x) | with_reducible apply ite_h | split | with_reducible apply wdFault_b
    | with_reducible apply disarm_b | dsimp only [Keeps])

theorem floorLeave_b (s : State) (hs : Keeps z0 s) : Keeps z0 (floorLeave s) := by
  unfold floorLeave
  repeat' (first
    | with_reducible assumption | intro _ | subst x
    | (extract_lets +onlyGivenNames x; have hx : Keeps z0 x := ?_; clear_value x)
    | (extract_lets +onlyGivenNames x; refine isPart x (by constructor) ?_; subst x)
    | (extract_lets +onlyGivenNames x; clear_value x) | with_reducible apply ite_h | split | with_reducible apply startCheck_b
    | with_reducible apply wdArm_b | with_reducible apply enterState_b | with_reducible apply arm_b
    | with_reducible apply disarm_b | dsimp only [Keeps])

theorem floorRunning_b (cause : Nat) (s : State) (hs : Keeps z0 s) : Keeps z0 (floorRunning cause s) := by
  unfold floorRunning
  repeat' (first
    | with_reducible assumption | intro _ | subst x
    | (extract_lets +onlyGivenNames x; have hx : Keeps z0 x := ?_; clear_value x)
    | (extract_lets +onlyGivenNames x; refine isPart x (by constructor) ?_; subst x)
    | (extract_lets +onlyGivenNames x; clear_value x) | with_reducible apply ite_h | split | with_reducible apply floorLeave_b
    | with_reducible apply chgFloor_b | with_reducible apply islandRestart_b | with_reducible apply pilotPassive_b
    | with_reducible apply putPlain_b | with_reducible apply disarm_b
    | (refine kept_maps (by with_reducible assumption) ?_; exact fun w => { w with band := rfl, chan := rfl, dchan := rfl, drail := rfl, ibase := rfl, f := rfl })
    | dsimp only [Keeps])

theorem holdFailure_b (s : State) (hs : Keeps z0 s) : Keeps z0 (holdFailure s) := by
  unfold holdFailure
  repeat' (first
    | with_reducible assumption | intro _ | subst x
    | (extract_lets +onlyGivenNames x; have hx : Keeps z0 x := ?_; clear_value x)
    | (extract_lets +onlyGivenNames x; refine isPart x (by constructor) ?_; subst x)
    | (extract_lets +onlyGivenNames x; clear_value x) | with_reducible apply ite_h | split | dsimp only [Keeps])

theorem thirdLockstep_b (s : State) (hs : Keeps z0 s) : Keeps z0 (thirdLockstep s) := by
  unfold thirdLockstep
  repeat' (first
    | with_reducible assumption | intro _ | subst x
    | (extract_lets +onlyGivenNames x; have hx : Keeps z0 x := ?_; clear_value x)
    | (extract_lets +onlyGivenNames x; refine isPart x (by constructor) ?_; subst x)
    | (extract_lets +onlyGivenNames x; clear_value x) | with_reducible apply ite_h | split | with_reducible apply holdFailure_b
    | with_reducible apply floorRunning_b | with_reducible apply enterSafe_b | with_reducible apply raiseG_b
    | dsimp only [Keeps])

theorem trialFault_b (s : State) (hs : Keeps z0 s) : Keeps z0 (trialFault s) := by
  unfold trialFault
  repeat' (first
    | with_reducible assumption | intro _ | subst x
    | (extract_lets +onlyGivenNames x; have hx : Keeps z0 x := ?_; clear_value x)
    | (extract_lets +onlyGivenNames x; refine isPart x (by constructor) ?_; subst x)
    | (extract_lets +onlyGivenNames x; clear_value x) | with_reducible apply ite_h | split | with_reducible apply fallbackMark_b
    | dsimp only [Keeps])

theorem bootAgain_b (bitNo src : Nat) (s : State) (hs : Keeps z0 s) : Keeps z0 (bootAgain bitNo src s) := by
  unfold bootAgain
  repeat' (first
    | with_reducible assumption | intro _ | subst x
    | (extract_lets +onlyGivenNames x; have hx : Keeps z0 x := ?_; clear_value x)
    | (extract_lets +onlyGivenNames x; refine isPart x (by constructor) ?_; subst x)
    | (extract_lets +onlyGivenNames x; clear_value x) | with_reducible apply ite_h | split | with_reducible apply arm_b
    | with_reducible apply snapshot_b | dsimp only [Keeps])

theorem lockstepFailure_b (bitNo : Nat) (src : Nat) (s : State) (hs : Keeps z0 s) : Keeps z0 (lockstepFailure bitNo src s) := by
  unfold lockstepFailure
  repeat' (first
    | with_reducible assumption | intro _ | subst x
    | (extract_lets +onlyGivenNames x; have hx : Keeps z0 x := ?_; clear_value x)
    | (extract_lets +onlyGivenNames x; refine isPart x (by constructor) ?_; subst x)
    | (extract_lets +onlyGivenNames x; clear_value x) | with_reducible apply ite_h | split | with_reducible apply bootAgain_b
    | with_reducible apply trialFault_b | with_reducible apply thirdLockstep_b | with_reducible apply holdFailure_b
    | with_reducible apply fwRestart_b | with_reducible apply raise_b | dsimp only [Keeps])

theorem execLsfail_b (s : State) (hs : Keeps z0 s) : OutB z0 (execLsfail s) := by
  unfold execLsfail
  repeat' (first
    | with_reducible assumption | with_reducible apply out_b | intro _ | subst x
    | (extract_lets +onlyGivenNames x; have hx : Keeps z0 x := ?_; clear_value x)
    | (extract_lets +onlyGivenNames x; refine isPart x (by constructor) ?_; subst x)
    | (extract_lets +onlyGivenNames x; clear_value x) | with_reducible apply ite_h | split
    | with_reducible apply lockstepFailure_b | dsimp only [Keeps])

theorem execLockup_b (s : State) (hs : Keeps z0 s) : OutB z0 (execLockup s) := by
  unfold execLockup
  repeat' (first
    | with_reducible assumption | with_reducible apply out_b | intro _ | subst x
    | (extract_lets +onlyGivenNames x; have hx : Keeps z0 x := ?_; clear_value x)
    | (extract_lets +onlyGivenNames x; refine isPart x (by constructor) ?_; subst x)
    | (extract_lets +onlyGivenNames x; clear_value x) | with_reducible apply ite_h | split
    | with_reducible apply lockstepFailure_b | dsimp only [Keeps])

theorem execEccded_b (s : State) (hs : Keeps z0 s) : OutB z0 (execEccded s) := by
  unfold execEccded
  repeat' (first
    | with_reducible assumption | with_reducible apply out_b | intro _ | subst x
    | (extract_lets +onlyGivenNames x; have hx : Keeps z0 x := ?_; clear_value x)
    | (extract_lets +onlyGivenNames x; refine isPart x (by constructor) ?_; subst x)
    | (extract_lets +onlyGivenNames x; clear_value x) | with_reducible apply ite_h | split
    | with_reducible apply lockstepFailure_b | with_reducible apply raiseG_b | dsimp only [Keeps])

theorem execEccsec_b (s : State) (hs : Keeps z0 s) : OutB z0 (execEccsec s) := by
  unfold execEccsec
  repeat' (first
    | with_reducible assumption | with_reducible apply out_b | intro _ | subst x
    | (extract_lets +onlyGivenNames x; have hx : Keeps z0 x := ?_; clear_value x)
    | (extract_lets +onlyGivenNames x; refine isPart x (by constructor) ?_; subst x)
    | (extract_lets +onlyGivenNames x; clear_value x) | with_reducible apply ite_h | split | with_reducible apply raiseG_b
    | dsimp only [Keeps])

theorem execFwwdt_b (s : State) (hs : Keeps z0 s) : OutB z0 (execFwwdt s) := by
  unfold execFwwdt
  repeat' (first
    | with_reducible assumption | with_reducible apply out_b | intro _ | subst x
    | (extract_lets +onlyGivenNames x; have hx : Keeps z0 x := ?_; clear_value x)
    | (extract_lets +onlyGivenNames x; refine isPart x (by constructor) ?_; subst x)
    | (extract_lets +onlyGivenNames x; clear_value x) | with_reducible apply ite_h | split | with_reducible apply trialFault_b
    | with_reducible apply fwRestart_b | dsimp only [Keeps])

theorem execLockstepExpire_b (s : State) (hs : Keeps z0 s) : OutB z0 (execLockstepExpire s) := by
  unfold execLockstepExpire
  repeat' (first
    | with_reducible assumption | with_reducible apply out_b | intro _ | subst x
    | (extract_lets +onlyGivenNames x; have hx : Keeps z0 x := ?_; clear_value x)
    | (extract_lets +onlyGivenNames x; refine isPart x (by constructor) ?_; subst x)
    | (extract_lets +onlyGivenNames x; clear_value x) | with_reducible apply ite_h | split | dsimp only [Keeps])

theorem reloadLedger_b (s : State) (hs : Keeps z0 s) : Keeps z0 (reloadLedger s) := by
  refine kept_maps hs fun w => { w with res := ?_ }
  unfold reloadLedger
  dsimp only [mapsOf]
  split
  · rename_i b e; exact (patBank_fit w e).res
  · exact factoryLedger_wf _

theorem scrubLateCheck_b (s : State) (hs : Keeps z0 s) : Keeps z0 (scrubLateCheck s) := by
  unfold scrubLateCheck
  repeat' (first
    | with_reducible assumption | intro _ | subst x
    | (extract_lets +onlyGivenNames x; have hx : Keeps z0 x := ?_; clear_value x)
    | (extract_lets +onlyGivenNames x; refine isPart x (by constructor) ?_; subst x)
    | (extract_lets +onlyGivenNames x; clear_value x) | with_reducible apply ite_h | split | with_reducible apply raiseG_b
    | dsimp only [Keeps])

theorem execFwup_b (s : State) (hs : Keeps z0 s) : OutB z0 (execFwup s) := by
  unfold execFwup
  repeat' (first
    | with_reducible assumption | with_reducible apply out_b | intro _ | subst x
    | (extract_lets +onlyGivenNames x; have hx : Keeps z0 x := ?_; clear_value x)
    | (extract_lets +onlyGivenNames x; refine isPart x (by constructor) ?_; subst x)
    | (extract_lets +onlyGivenNames x; clear_value x) | with_reducible apply ite_h | split
    | with_reducible apply scrubLateCheck_b | with_reducible apply reloadLedger_b | with_reducible apply pollWatch_b
    | with_reducible apply recomputePend_b | with_reducible apply gaugeStart_b | with_reducible apply fellBack_b
    | with_reducible apply updInterrupted_b | with_reducible apply logReset_b | with_reducible apply headerScan_b
    | with_reducible apply reloadPlain_b | with_reducible apply startRounds_b | with_reducible apply raiseG_b
    | with_reducible apply grant_b | with_reducible apply arm_b | with_reducible apply disarm_b | dsimp only [Keeps])

theorem secondRef_b (lost : BitVec 3) (s : State) (hs : Keeps z0 s) : Keeps z0 (secondRef lost s) := by
  unfold secondRef
  repeat' (first
    | with_reducible assumption | intro _ | subst x
    | (extract_lets +onlyGivenNames x; have hx : Keeps z0 x := ?_; clear_value x)
    | (extract_lets +onlyGivenNames x; refine isPart x (by constructor) ?_; subst x)
    | (extract_lets +onlyGivenNames x; clear_value x) | with_reducible apply ite_h | split | with_reducible apply enterSafe_b
    | with_reducible apply raiseG_b | dsimp only [Keeps])

theorem suspect_b (a : BitVec 3) (b : BitVec 3) (s : State) (hs : Keeps z0 s) : Keeps z0 (suspect a b s).2 := by
  unfold suspect
  repeat' (first
    | with_reducible assumption | intro _ | subst x
    | (extract_lets +onlyGivenNames x; have hx : Keeps z0 x := ?_; clear_value x)
    | (extract_lets +onlyGivenNames x; refine isPart x (by constructor) ?_; subst x)
    | (extract_lets +onlyGivenNames x; clear_value x) | with_reducible apply ite_h | split | with_reducible apply drawBool_b
    | refine pair_b (by with_reducible assumption) ?_ | dsimp only [Keeps])

theorem vote_b (ab : Bool) (ac : Bool) (bc : Bool) (s : State) (hs : Keeps z0 s) : Keeps z0 (vote ab ac bc s) := by
  unfold vote
  repeat' (first
    | with_reducible assumption | intro _ | subst x
    | (extract_lets +onlyGivenNames x; have hx : Keeps z0 x := ?_; clear_value x)
    | (extract_lets +onlyGivenNames x; refine isPart x (by constructor) ?_; subst x)
    | (extract_lets +onlyGivenNames x; clear_value x) | with_reducible apply ite_h | split | with_reducible apply suspect_b
    | with_reducible apply secondRef_b | with_reducible apply raiseG_b | refine pair_b (by with_reducible assumption) ?_
    | dsimp only [Keeps])

theorem execReffail_b (ab : Bool) (ac : Bool) (bc : Bool) (s : State) (hs : Keeps z0 s) : OutB z0 (execReffail ab ac bc s) := by
  unfold execReffail
  repeat' (first
    | with_reducible assumption | with_reducible apply out_b | intro _ | subst x
    | (extract_lets +onlyGivenNames x; have hx : Keeps z0 x := ?_; clear_value x)
    | (extract_lets +onlyGivenNames x; refine isPart x (by constructor) ?_; subst x)
    | (extract_lets +onlyGivenNames x; clear_value x) | with_reducible apply ite_h | split | with_reducible apply vote_b
    | dsimp only [Keeps])

theorem oscFailed_b (o : Osc) (stopped : Bool) (s : State) (hs : Keeps z0 s) : Keeps z0 (oscFailed o stopped s) := by
  unfold oscFailed
  repeat' (first
    | with_reducible assumption | intro _ | subst x
    | (extract_lets +onlyGivenNames x; have hx : Keeps z0 x := ?_; clear_value x)
    | (extract_lets +onlyGivenNames x; refine isPart x (by constructor) ?_; subst x)
    | (extract_lets +onlyGivenNames x; clear_value x) | with_reducible apply ite_h | split | with_reducible apply dropPower_b
    | with_reducible apply enterSafe_b | with_reducible apply raiseG_b | dsimp only [Keeps])

theorem execOscfail_b (o : Osc) (stopped : Bool) (s : State) (hs : Keeps z0 s) : OutB z0 (execOscfail o stopped s) := by
  unfold execOscfail
  repeat' (first
    | with_reducible assumption | with_reducible apply out_b | intro _ | subst x
    | (extract_lets +onlyGivenNames x; have hx : Keeps z0 x := ?_; clear_value x)
    | (extract_lets +onlyGivenNames x; refine isPart x (by constructor) ?_; subst x)
    | (extract_lets +onlyGivenNames x; clear_value x) | with_reducible apply ite_h | split | with_reducible apply oscFailed_b
    | dsimp only [Keeps])

theorem execOscSlowCheck_b (devA : Int) (devB : Int) (s : State) (hs : Keeps z0 s) : OutB z0 (execOscSlowCheck devA devB s) :=
    by
  unfold execOscSlowCheck
  repeat' (first
    | with_reducible assumption | with_reducible apply out_b | intro _ | subst x
    | (extract_lets +onlyGivenNames x; have hx : Keeps z0 x := ?_; clear_value x)
    | (extract_lets +onlyGivenNames x; refine isPart x (by constructor) ?_; subst x)
    | (extract_lets +onlyGivenNames x; clear_value x) | with_reducible apply ite_h | split | with_reducible apply oscFailed_b
    | dsimp only [Keeps])

theorem queueRefresh_b (n : Nat) (s : State) (hs : Keeps z0 s) : Keeps z0 (queueRefresh n s) := by
  unfold queueRefresh
  repeat' (first
    | with_reducible assumption | intro _ | subst x
    | (extract_lets +onlyGivenNames x; have hx : Keeps z0 x := ?_; clear_value x)
    | (extract_lets +onlyGivenNames x; refine isPart x (by constructor) ?_; subst x)
    | (extract_lets +onlyGivenNames x; clear_value x) | with_reducible apply ite_h | split | with_reducible apply setSector_b
    | dsimp only [Keeps])

theorem comparators_b (r : AssayRes) (s : State) (hs : Keeps z0 s) : Keeps z0 (comparators r s) := by
  unfold comparators
  repeat' (first
    | with_reducible assumption | intro _ | subst x
    | (extract_lets +onlyGivenNames x; have hx : Keeps z0 x := ?_; clear_value x)
    | (extract_lets +onlyGivenNames x; refine isPart x (by constructor) ?_; subst x)
    | (extract_lets +onlyGivenNames x; clear_value x) | with_reducible apply ite_h | split | with_reducible apply reactAll_b
    | with_reducible apply raiseIf_b | dsimp only [Keeps])

theorem publishAssay_b (full : Bool) (r : AssayRes) (s : State) (hs : Keeps z0 s) : Keeps z0 (publishAssay full r s) := by
  unfold publishAssay
  repeat' (first
    | with_reducible assumption | intro _ | subst x
    | (extract_lets +onlyGivenNames x; have hx : Keeps z0 x := ?_; clear_value x)
    | (extract_lets +onlyGivenNames x; refine isPart x (by constructor) ?_; subst x)
    | (extract_lets +onlyGivenNames x; clear_value x) | with_reducible apply ite_h | split | with_reducible apply comparators_b
    | with_reducible apply queueRefresh_b | with_reducible apply raiseIf_b | with_reducible apply foldl_b | dsimp only [Keeps])

theorem assayRunBody_b (p : Packet) (s : State) (hs : Keeps z0 s) : Keeps z0 (assayRunBody p s) := by
  unfold assayRunBody
  repeat' (first
    | with_reducible assumption | intro _ | subst x
    | (extract_lets +onlyGivenNames x; have hx : Keeps z0 x := ?_; clear_value x)
    | (extract_lets +onlyGivenNames x; refine isPart x (by constructor) ?_; subst x)
    | (extract_lets +onlyGivenNames x; clear_value x) | with_reducible apply ite_h | split | with_reducible apply slotBusy_b
    | with_reducible apply reject_b | dsimp only [Keeps])

theorem execAssayRun_b (p : Packet) (s : State) (hs : Keeps z0 s) : OutB z0 (execAssayRun p s) := by
  unfold execAssayRun
  repeat' (first
    | with_reducible assumption | with_reducible apply out_b | intro _ | subst x
    | (extract_lets +onlyGivenNames x; have hx : Keeps z0 x := ?_; clear_value x)
    | (extract_lets +onlyGivenNames x; refine isPart x (by constructor) ?_; subst x)
    | (extract_lets +onlyGivenNames x; clear_value x) | with_reducible apply ite_h | split | with_reducible apply assayRunBody_b
    | with_reducible apply packet_b | dsimp only [Keeps])

theorem execAssaydone_b (r : AssayRes) (s : State) (hs : Keeps z0 s) : OutB z0 (execAssaydone r s) := by
  unfold execAssaydone
  repeat' (first
    | with_reducible assumption | with_reducible apply out_b | intro _ | subst x
    | (extract_lets +onlyGivenNames x; have hx : Keeps z0 x := ?_; clear_value x)
    | (extract_lets +onlyGivenNames x; refine isPart x (by constructor) ?_; subst x)
    | (extract_lets +onlyGivenNames x; clear_value x) | with_reducible apply ite_h | split | with_reducible apply publishAssay_b
    | with_reducible apply doneWith_b | with_reducible apply raiseG_b | with_reducible apply grant_b | dsimp only [Keeps])

theorem snapshotReadBody_b (p : Packet) (s : State) (hs : Keeps z0 s) : Keeps z0 (snapshotReadBody p s) := by
  unfold snapshotReadBody
  repeat' (first
    | with_reducible assumption | intro _ | subst x
    | (extract_lets +onlyGivenNames x; have hx : Keeps z0 x := ?_; clear_value x)
    | (extract_lets +onlyGivenNames x; refine isPart x (by constructor) ?_; subst x)
    | (extract_lets +onlyGivenNames x; clear_value x) | with_reducible apply ite_h | split | with_reducible apply doneWith_b
    | with_reducible apply rejectOpen_b | with_reducible apply reject_b | dsimp only [Keeps])

theorem execSnapshotRead_b (p : Packet) (s : State) (hs : Keeps z0 s) : OutB z0 (execSnapshotRead p s) := by
  unfold execSnapshotRead
  repeat' (first
    | with_reducible assumption | with_reducible apply out_b | intro _ | subst x
    | (extract_lets +onlyGivenNames x; have hx : Keeps z0 x := ?_; clear_value x)
    | (extract_lets +onlyGivenNames x; refine isPart x (by constructor) ?_; subst x)
    | (extract_lets +onlyGivenNames x; clear_value x) | with_reducible apply ite_h | split
    | with_reducible apply snapshotReadBody_b | with_reducible apply packet_b | dsimp only [Keeps])

theorem setThm_b (f : Thm → Thm) (s : State) (hm : MapsFit (mapsOf s) → MapsFit (mapsOf { s with thm := f s.thm })) (hs : Keeps z0 s) :
    Keeps z0 (setThm f s) := kept_maps hs hm

theorem updateBands_b (first : Bool) (s : State) (hs : Keeps z0 s) : Keeps z0 (updateBands first s) := by
  unfold updateBands
  extract_lets +onlyGivenNames none chip ch tj
  have hc : MapsFit (mapsOf s) → mwf 5 ch = true := fun w => mwf_foldl 5 _ (fun _ _ => mwf_mput _ _ _ _) _ _ w.chan
  clear_value ch
  exact kept_maps hs fun w => { w with chan := hc w, band := hc w }

theorem sensorWarn_b (i : Nat) (m : Nat) (warn : Nat) (limit : Nat) (s : State) (hs : Keeps z0 s) : Keeps z0 (sensorWarn i m
    warn limit s) := by
  unfold sensorWarn
  repeat' (first
    | with_reducible assumption | intro _ | subst x
    | (extract_lets +onlyGivenNames x; have hx : Keeps z0 x := ?_; clear_value x)
    | (extract_lets +onlyGivenNames x; refine isPart x (by constructor) ?_; subst x)
    | (extract_lets +onlyGivenNames x; clear_value x) | with_reducible apply ite_h | split | with_reducible apply raiseIf_b
    | (refine kept_maps (by with_reducible assumption) ?_; exact fun w => { w with sen := by dsimp only [mapsOf]; exact mwf_mput _ _ _ _ w.sen })
    | dsimp only [Keeps])

theorem sensorWarnings_b (s : State) (hs : Keeps z0 s) : Keeps z0 (sensorWarnings s) := by
  unfold sensorWarnings
  repeat' (first
    | with_reducible assumption | intro _ | subst x
    | (extract_lets +onlyGivenNames x; have hx : Keeps z0 x := ?_; clear_value x)
    | (extract_lets +onlyGivenNames x; refine isPart x (by constructor) ?_; subst x)
    | (extract_lets +onlyGivenNames x; clear_value x) | with_reducible apply ite_h | split | with_reducible apply sensorWarn_b
    | with_reducible apply foldl_b | dsimp only [Keeps])

theorem railWarn_b (r : Nat) (s : State) (hs : Keeps z0 s) : Keeps z0 (railWarn r s) := by
  unfold railWarn
  repeat' (first
    | with_reducible assumption | intro _ | subst x
    | (extract_lets +onlyGivenNames x; have hx : Keeps z0 x := ?_; clear_value x)
    | (extract_lets +onlyGivenNames x; refine isPart x (by constructor) ?_; subst x)
    | (extract_lets +onlyGivenNames x; clear_value x) | with_reducible apply ite_h | split | with_reducible apply raiseIf_b
    | dsimp only [Keeps])

theorem railLimits_b (s : State) (hs : Keeps z0 s) : Keeps z0 (railLimits s) := by
  unfold railLimits
  repeat' (first
    | with_reducible assumption | intro _ | subst x
    | (extract_lets +onlyGivenNames x; have hx : Keeps z0 x := ?_; clear_value x)
    | (extract_lets +onlyGivenNames x; refine isPart x (by constructor) ?_; subst x)
    | (extract_lets +onlyGivenNames x; clear_value x) | with_reducible apply ite_h | split | with_reducible apply reactAll_b
    | with_reducible apply raise_b | with_reducible apply foldl_b | dsimp only [Keeps])

theorem railWarnings_b (s : State) (hs : Keeps z0 s) : Keeps z0 (railWarnings s) := by
  unfold railWarnings
  repeat' (first
    | with_reducible assumption | intro _ | subst x
    | (extract_lets +onlyGivenNames x; have hx : Keeps z0 x := ?_; clear_value x)
    | (extract_lets +onlyGivenNames x; refine isPart x (by constructor) ?_; subst x)
    | (extract_lets +onlyGivenNames x; clear_value x) | with_reducible apply ite_h | split | with_reducible apply railLimits_b
    | with_reducible apply railWarn_b | with_reducible apply foldl_b | dsimp only [Keeps])

theorem graceEnd_b (r : Nat) (s : State) (hs : Keeps z0 s) : Keeps z0 (graceEnd r s) := by
  unfold graceEnd
  repeat' (first
    | (with_reducible apply setThm_b; exact fun w => { w with drail := by dsimp only [mapsOf]; exact mwf_mput _ _ _ _ w.drail })
    | with_reducible assumption | intro _ | subst x
    | (extract_lets +onlyGivenNames x; have hx : Keeps z0 x := ?_; clear_value x)
    | (extract_lets +onlyGivenNames x; refine isPart x (by constructor) ?_; subst x)
    | (extract_lets +onlyGivenNames x; clear_value x) | with_reducible apply ite_h | split | with_reducible apply setThm_b
    | dsimp only [Keeps])

theorem throttle_b (r : Nat) (s : State) (hs : Keeps z0 s) : Keeps z0 (throttle r s) := by
  unfold throttle
  repeat' (first
    | (with_reducible apply setThm_b; exact fun w => { w with drail := by dsimp only [mapsOf]; exact mwf_mput _ _ _ _ w.drail })
    | with_reducible assumption | intro _ | subst x
    | (extract_lets +onlyGivenNames x; have hx : Keeps z0 x := ?_; clear_value x)
    | (extract_lets +onlyGivenNames x; refine isPart x (by constructor) ?_; subst x)
    | (extract_lets +onlyGivenNames x; clear_value x) | with_reducible apply ite_h | split | with_reducible apply graceEnd_b
    | with_reducible apply setThm_b | with_reducible apply arm_b | with_reducible apply disarm_b | dsimp only [Keeps])

theorem execThrottleGraceEnd_b (r : Rail) (s : State) (hs : Keeps z0 s) : OutB z0 (execThrottleGraceEnd r s) := by
  unfold execThrottleGraceEnd
  repeat' (first
    | with_reducible assumption | with_reducible apply out_b | intro _ | subst x
    | (extract_lets +onlyGivenNames x; have hx : Keeps z0 x := ?_; clear_value x)
    | (extract_lets +onlyGivenNames x; refine isPart x (by constructor) ?_; subst x)
    | (extract_lets +onlyGivenNames x; clear_value x) | with_reducible apply ite_h | split | with_reducible apply graceEnd_b
    | with_reducible apply disarm_b | dsimp only [Keeps])

theorem updateFactors_b (s : State) (hs : Keeps z0 s) : Keeps z0 (updateFactors s) := by
  unfold updateFactors
  repeat' (first
    | (with_reducible apply setThm_b; exact fun w => { w with dchan := by dsimp only [mapsOf]; exact mwf_foldl _ _ (fun _ _ => mwf_mput _ _ _ _) _ _ w.dchan })
    | with_reducible assumption | intro _ | subst x
    | (extract_lets +onlyGivenNames x; have hx : Keeps z0 x := ?_; clear_value x)
    | (extract_lets +onlyGivenNames x; refine isPart x (by constructor) ?_; subst x)
    | (extract_lets +onlyGivenNames x; clear_value x) | with_reducible apply ite_h | split | with_reducible apply setThm_b
    | with_reducible apply foldl_b | dsimp only [Keeps])

theorem updateF_b (r : Nat) (s : State) (hs : Keeps z0 s) : Keeps z0 (updateF r s) := by
  unfold updateF
  repeat' (first
    | (with_reducible apply setThm_b; exact fun w => { w with f := (by dsimp only [mapsOf]; exact mwf_mput _ _ _ _ w.f), ibase := (by dsimp only [mapsOf]; exact mwf_mput _ _ _ _ w.ibase) })
    | with_reducible assumption | intro _ | subst x
    | (extract_lets +onlyGivenNames x; have hx : Keeps z0 x := ?_; clear_value x)
    | (extract_lets +onlyGivenNames x; refine isPart x (by constructor) ?_; subst x)
    | (extract_lets +onlyGivenNames x; clear_value x) | with_reducible apply ite_h | split | with_reducible apply setThm_b
    | dsimp only [Keeps])

theorem thermalRound_b (first : Bool) (s : State) (hs : Keeps z0 s) : Keeps z0 (thermalRound first s) := by
  unfold thermalRound
  repeat' (first
    | with_reducible assumption | intro _ | subst x
    | (extract_lets +onlyGivenNames x; have hx : Keeps z0 x := ?_; clear_value x)
    | (extract_lets +onlyGivenNames x; refine isPart x (by constructor) ?_; subst x)
    | (extract_lets +onlyGivenNames x; clear_value x) | with_reducible apply ite_h | split | with_reducible apply whileUp_b
    | with_reducible apply updateF_b | with_reducible apply updateFactors_b | with_reducible apply throttle_b
    | with_reducible apply railWarnings_b | with_reducible apply sensorWarnings_b | with_reducible apply updateBands_b
    | with_reducible apply foldl_b | dsimp only [Keeps])

theorem setHk_b (f : Hk → Hk) (s : State) (hm : MapsFit (mapsOf s) → MapsFit (mapsOf { s with hk := f s.hk })) (hs : Keeps z0 s) :
    Keeps z0 (setHk f s) := kept_maps hs hm

theorem refresh_b (m : Nat) (v : Word) (s : State) (hs : Keeps z0 s) : Keeps z0 (refresh m v s) := by
  unfold refresh
  repeat' (first
    | (with_reducible apply setHk_b; exact fun w => { w with mval := (by dsimp only [mapsOf]; exact mwf_mput _ _ _ _ w.mval), age := (by dsimp only [mapsOf]; exact mwf_mput _ _ _ _ w.age) })
    | with_reducible assumption | intro _ | subst x
    | (extract_lets +onlyGivenNames x; have hx : Keeps z0 x := ?_; clear_value x)
    | (extract_lets +onlyGivenNames x; refine isPart x (by constructor) ?_; subst x)
    | (extract_lets +onlyGivenNames x; clear_value x) | with_reducible apply ite_h | split | with_reducible apply setHk_b
    | dsimp only [Keeps])

theorem hold_b (m : Nat) (bad : Bool) (s : State) (hs : Keeps z0 s) : Keeps z0 (hold m bad s) := by
  unfold hold
  repeat' (first
    | (with_reducible apply setHk_b; exact fun w => { w with age := by dsimp only [mapsOf]; exact mwf_mput _ _ _ _ w.age })
    | with_reducible assumption | intro _ | subst x
    | (extract_lets +onlyGivenNames x; have hx : Keeps z0 x := ?_; clear_value x)
    | (extract_lets +onlyGivenNames x; refine isPart x (by constructor) ?_; subst x)
    | (extract_lets +onlyGivenNames x; clear_value x) | with_reducible apply ite_h | split | with_reducible apply setHk_b
    | dsimp only [Keeps])

theorem preFollow_b (r : Nat) (n : Nat) (s : State) (hs : Keeps z0 s) : Keeps z0 (preFollow r n s) := by
  unfold preFollow
  repeat' (first
    | with_reducible assumption | intro _ | subst x
    | (extract_lets +onlyGivenNames x; have hx : Keeps z0 x := ?_; clear_value x)
    | (extract_lets +onlyGivenNames x; refine isPart x (by constructor) ?_; subst x)
    | (extract_lets +onlyGivenNames x; clear_value x) | with_reducible apply ite_h | split | with_reducible apply preOver_b
    | (refine kept_maps (by with_reducible assumption) ?_; exact fun w => { w with ramps := by dsimp only [mapsOf]; exact mwf_mput _ _ _ _ w.ramps })
    | dsimp only [Keeps])

theorem notePin_b (m : Nat) (v : Int) (s : State) (hs : Keeps z0 s) : Keeps z0 (notePin m v s) := by
  unfold notePin
  repeat' (first
    | with_reducible assumption | intro _ | subst x
    | (extract_lets +onlyGivenNames x; have hx : Keeps z0 x := ?_; clear_value x)
    | (extract_lets +onlyGivenNames x; refine isPart x (by constructor) ?_; subst x)
    | (extract_lets +onlyGivenNames x; clear_value x) | with_reducible apply ite_h | split | with_reducible apply preFollow_b
    | with_reducible apply monNote_b | with_reducible apply noteSense_b | dsimp only [Keeps])

theorem publishHome_b (d : RoundData) (m : Nat) (s : State) (hs : Keeps z0 s) : Keeps z0 (publishHome d m s) := by
  unfold publishHome
  repeat' (first
    | with_reducible assumption | intro _ | subst x
    | (extract_lets +onlyGivenNames x; have hx : Keeps z0 x := ?_; clear_value x)
    | (extract_lets +onlyGivenNames x; refine isPart x (by constructor) ?_; subst x)
    | (extract_lets +onlyGivenNames x; clear_value x) | with_reducible apply ite_h | split | with_reducible apply notePin_b
    | with_reducible apply hold_b | with_reducible apply refresh_b | dsimp only [Keeps])

theorem publishStage_b (d : RoundData) (m : Nat) (s : State) (hs : Keeps z0 s) : Keeps z0 (publishStage d m s) := by
  unfold publishStage
  repeat' (first
    | with_reducible assumption | intro _ | subst x
    | (extract_lets +onlyGivenNames x; have hx : Keeps z0 x := ?_; clear_value x)
    | (extract_lets +onlyGivenNames x; refine isPart x (by constructor) ?_; subst x)
    | (extract_lets +onlyGivenNames x; clear_value x) | with_reducible apply ite_h | split | with_reducible apply hold_b
    | with_reducible apply refresh_b | dsimp only [Keeps])

theorem setSen_b (i : Nat) (x : Sensor) (s : State) (hs : Keeps z0 s) : Keeps z0 (setSen i x s) := by
  unfold setSen
  repeat' (first
    | (with_reducible apply setHk_b; exact fun w => { w with sen := by dsimp only [mapsOf]; exact mwf_mput _ _ _ _ w.sen })
    | with_reducible assumption | intro _ | subst x
    | (extract_lets +onlyGivenNames x; have hx : Keeps z0 x := ?_; clear_value x)
    | (extract_lets +onlyGivenNames x; refine isPart x (by constructor) ?_; subst x)
    | (extract_lets +onlyGivenNames x; clear_value x) | with_reducible apply ite_h | split | with_reducible apply setHk_b
    | dsimp only [Keeps])

theorem checkSensor_b (first : Bool) (own : List (Option Int)) (dis : List Bool) (i : Nat) (s : State) (hs : Keeps z0 s) : Keeps
    z0 (checkSensor first own dis i s) := by
  unfold checkSensor
  repeat' (first
    | with_reducible assumption | intro _ | subst x
    | (extract_lets +onlyGivenNames x; have hx : Keeps z0 x := ?_; clear_value x)
    | (extract_lets +onlyGivenNames x; refine isPart x (by constructor) ?_; subst x)
    | (extract_lets +onlyGivenNames x; clear_value x) | with_reducible apply ite_h | split | with_reducible apply setSen_b
    | with_reducible apply raiseIf_b | dsimp only [Keeps])

theorem publishSensor_b (own : List (Option Int)) (i : Nat) (s : State) (hs : Keeps z0 s) : Keeps z0 (publishSensor own i s) :=
    by
  unfold publishSensor
  repeat' (first
    | with_reducible assumption | intro _ | subst x
    | (extract_lets +onlyGivenNames x; have hx : Keeps z0 x := ?_; clear_value x)
    | (extract_lets +onlyGivenNames x; refine isPart x (by constructor) ?_; subst x)
    | (extract_lets +onlyGivenNames x; clear_value x) | with_reducible apply ite_h | split | with_reducible apply setSen_b
    | with_reducible apply hold_b | with_reducible apply refresh_b | dsimp only [Keeps])

theorem sensorRound_b (first : Bool) (d : RoundData) (s : State) (hs : Keeps z0 s) : Keeps z0 (sensorRound first d s) := by
  unfold sensorRound
  repeat' (first
    | with_reducible assumption | intro _ | subst x
    | (extract_lets +onlyGivenNames x; have hx : Keeps z0 x := ?_; clear_value x)
    | (extract_lets +onlyGivenNames x; refine isPart x (by constructor) ?_; subst x)
    | (extract_lets +onlyGivenNames x; clear_value x) | with_reducible apply ite_h | split
    | with_reducible apply publishSensor_b | with_reducible apply checkSensor_b | with_reducible apply foldl_b
    | dsimp only [Keeps])

theorem tdPresence_b (s : State) (hs : Keeps z0 s) : Keeps z0 (tdPresence s) := by
  unfold tdPresence
  repeat' (first
    | with_reducible assumption | intro _ | subst x
    | (extract_lets +onlyGivenNames x; have hx : Keeps z0 x := ?_; clear_value x)
    | (extract_lets +onlyGivenNames x; refine isPart x (by constructor) ?_; subst x)
    | (extract_lets +onlyGivenNames x; clear_value x) | with_reducible apply ite_h | split | with_reducible apply setHk_b
    | dsimp only [Keeps])

theorem thSide_b (j : Nat) (filt : Nat) (src : Nat) (beyond : Bool) (back : Bool) (s : State) (hs : Keeps z0 s) : Keeps z0
    (thSide j filt src beyond back s) := by
  unfold thSide
  repeat' (first
    | (with_reducible apply setHk_b; exact fun w => { w with thN := by dsimp only [mapsOf]; exact mwf_mput _ _ _ _ w.thN })
    | with_reducible assumption | intro _ | subst x
    | (extract_lets +onlyGivenNames x; have hx : Keeps z0 x := ?_; clear_value x)
    | (extract_lets +onlyGivenNames x; refine isPart x (by constructor) ?_; subst x)
    | (extract_lets +onlyGivenNames x; clear_value x) | with_reducible apply ite_h | split | with_reducible apply setHk_b
    | with_reducible apply raiseIf_b | dsimp only [Keeps])

theorem thChannel_b (k : Nat) (s : State) (hs : Keeps z0 s) : Keeps z0 (thChannel k s) := by
  unfold thChannel
  repeat' (first
    | with_reducible assumption | intro _ | subst x
    | (extract_lets +onlyGivenNames x; have hx : Keeps z0 x := ?_; clear_value x)
    | (extract_lets +onlyGivenNames x; refine isPart x (by constructor) ?_; subst x)
    | (extract_lets +onlyGivenNames x; clear_value x) | with_reducible apply ite_h | split | with_reducible apply thSide_b
    | dsimp only [Keeps])

theorem thmeasByte_b (v : Byte) (s : State) (hs : Keeps z0 s) : Keeps z0 (thmeasByte v s) := by
  unfold thmeasByte
  repeat' (first
    | with_reducible assumption | intro _ | subst x
    | (extract_lets +onlyGivenNames x; have hx : Keeps z0 x := ?_; clear_value x)
    | (extract_lets +onlyGivenNames x; refine isPart x (by constructor) ?_; subst x)
    | (extract_lets +onlyGivenNames x; clear_value x) | with_reducible apply ite_h | split | with_reducible apply clearTh_b
    | with_reducible apply berrRsvenc_b | with_reducible apply putPlain_b | dsimp only [Keeps])

theorem execThmeasWrite_b (v : Byte) (s : State) (hs : Keeps z0 s) : OutB z0 (execThmeasWrite v s) := by
  unfold execThmeasWrite
  repeat' (first
    | with_reducible assumption | with_reducible apply out_b | intro _ | subst x
    | (extract_lets +onlyGivenNames x; have hx : Keeps z0 x := ?_; clear_value x)
    | (extract_lets +onlyGivenNames x; refine isPart x (by constructor) ?_; subst x)
    | (extract_lets +onlyGivenNames x; clear_value x) | with_reducible apply ite_h | split | with_reducible apply thmeasByte_b
    | with_reducible apply onPage_b | dsimp only [Keeps])

theorem sensclrBit_b (s : State) (hs : Keeps z0 s) : Keeps z0 (sensclrBit s) := by
  unfold sensclrBit
  repeat' (first
    | with_reducible assumption | intro _ | subst x
    | (extract_lets +onlyGivenNames x; have hx : Keeps z0 x := ?_; clear_value x)
    | (extract_lets +onlyGivenNames x; refine isPart x (by constructor) ?_; subst x)
    | (extract_lets +onlyGivenNames x; clear_value x) | with_reducible apply ite_h | split | with_reducible apply setSen_b
    | with_reducible apply foldl_b | dsimp only [Keeps])

theorem execSensclr_b (s : State) (hs : Keeps z0 s) : OutB z0 (execSensclr s) := by
  unfold execSensclr
  repeat' (first
    | with_reducible assumption | with_reducible apply out_b | intro _ | subst x
    | (extract_lets +onlyGivenNames x; have hx : Keeps z0 x := ?_; clear_value x)
    | (extract_lets +onlyGivenNames x; refine isPart x (by constructor) ?_; subst x)
    | (extract_lets +onlyGivenNames x; clear_value x) | with_reducible apply ite_h | split | with_reducible apply sensclrBit_b
    | with_reducible apply onPage_b | dsimp only [Keeps])

theorem lightStep_b (d : RoundData) (s : State) (hs : Keeps z0 s) : Keeps z0 (lightStep d s) := by
  unfold lightStep
  repeat' (first
    | with_reducible assumption | intro _ | subst x
    | (extract_lets +onlyGivenNames x; have hx : Keeps z0 x := ?_; clear_value x)
    | (extract_lets +onlyGivenNames x; refine isPart x (by constructor) ?_; subst x)
    | (extract_lets +onlyGivenNames x; clear_value x) | with_reducible apply ite_h | split | with_reducible apply publishAssay_b
    | with_reducible apply raiseIf_b | dsimp only [Keeps])

theorem assayProgress_b (s : State) (hs : Keeps z0 s) : Keeps z0 (assayProgress s) := by
  unfold assayProgress
  repeat' (first
    | with_reducible assumption | intro _ | subst x
    | (extract_lets +onlyGivenNames x; have hx : Keeps z0 x := ?_; clear_value x)
    | (extract_lets +onlyGivenNames x; refine isPart x (by constructor) ?_; subst x)
    | (extract_lets +onlyGivenNames x; clear_value x) | with_reducible apply ite_h | split | with_reducible apply drawNat_b
    | refine pair_b (by with_reducible assumption) ?_ | dsimp only [Keeps])

theorem ledgerRound_b (d : RoundData) (s : State) (hs : Keeps z0 s) : Keeps z0 (ledgerRound d s) := by
  unfold ledgerRound
  extract_lets +onlyGivenNames m
  have hm : MapsFit (mapsOf s) → mwf ({} : Res) m = true := fun w => mwf_foldl ({} : Res) _ (fun _ _ => mwf_mput _ _ _ _) _ _ w.res
  clear_value m
  exact kept_maps hs fun w => { w with res := hm w }

theorem publishAll_b (first : Bool) (d : RoundData) (s : State) (hs : Keeps z0 s) : Keeps z0 (publishAll first d s) := by
  unfold publishAll
  repeat' (first
    | with_reducible assumption | intro _ | subst x
    | (extract_lets +onlyGivenNames x; have hx : Keeps z0 x := ?_; clear_value x)
    | (extract_lets +onlyGivenNames x; refine isPart x (by constructor) ?_; subst x)
    | (extract_lets +onlyGivenNames x; clear_value x) | with_reducible apply ite_h | split | with_reducible apply tdPresence_b
    | with_reducible apply sensorRound_b | with_reducible apply publishStage_b | with_reducible apply publishHome_b
    | with_reducible apply foldl_b | dsimp only [Keeps])

theorem levelsFollow_b (s : State) (hs : Keeps z0 s) : Keeps z0 (levelsFollow s) := by
  unfold levelsFollow
  repeat' (first
    | with_reducible assumption | intro _ | subst x
    | (extract_lets +onlyGivenNames x; have hx : Keeps z0 x := ?_; clear_value x)
    | (extract_lets +onlyGivenNames x; refine isPart x (by constructor) ?_; subst x)
    | (extract_lets +onlyGivenNames x; clear_value x) | with_reducible apply ite_h | split | dsimp only [Keeps])

theorem roundValues_b (first : Bool) (d : RoundData) (s : State) (hs : Keeps z0 s) : Keeps z0 (roundValues first d s) := by
  unfold roundValues
  repeat' (first
    | with_reducible assumption | intro _ | subst x
    | (extract_lets +onlyGivenNames x; have hx : Keeps z0 x := ?_; clear_value x)
    | (extract_lets +onlyGivenNames x; refine isPart x (by constructor) ?_; subst x)
    | (extract_lets +onlyGivenNames x; clear_value x) | with_reducible apply ite_h | split
    | with_reducible apply levelsFollow_b | with_reducible apply publishAll_b | with_reducible apply setHk_b
    | with_reducible apply thChannel_b | with_reducible apply foldl_b | dsimp only [Keeps])

theorem roundEnd_b (d : RoundData) (s : State) (hs : Keeps z0 s) : Keeps z0 (roundEnd d s) := by
  unfold roundEnd
  repeat' (first
    | with_reducible assumption | intro _ | subst x
    | (extract_lets +onlyGivenNames x; have hx : Keeps z0 x := ?_; clear_value x)
    | (extract_lets +onlyGivenNames x; refine isPart x (by constructor) ?_; subst x)
    | (extract_lets +onlyGivenNames x; clear_value x) | with_reducible apply ite_h | split | with_reducible apply whileUp_b
    | with_reducible apply roundValues_b | with_reducible apply publishAll_b | with_reducible apply ledgerRound_b
    | with_reducible apply assayProgress_b | with_reducible apply lightStep_b | with_reducible apply thChannel_b
    | with_reducible apply setHk_b | with_reducible apply thermalRound_b | with_reducible apply gaugeRound_b
    | with_reducible apply claimNext_b | with_reducible apply grant_b | with_reducible apply foldl_b | dsimp only [Keeps])

theorem execHkRoundEnd_b (d : RoundData) (s : State) (hs : Keeps z0 s) : OutB z0 (execHkRoundEnd d s) := by
  unfold execHkRoundEnd
  repeat' (first
    | with_reducible assumption | with_reducible apply out_b | intro _ | subst x
    | (extract_lets +onlyGivenNames x; have hx : Keeps z0 x := ?_; clear_value x)
    | (extract_lets +onlyGivenNames x; refine isPart x (by constructor) ?_; subst x)
    | (extract_lets +onlyGivenNames x; clear_value x) | with_reducible apply ite_h | split | with_reducible apply roundEnd_b
    | with_reducible apply countCharge_b | dsimp only [Keeps])

theorem execConv_b (seq : Fin 32) (s : State) (hs : Keeps z0 s) : OutB z0 (execConv seq s) := by
  unfold execConv
  repeat' (first
    | with_reducible assumption | with_reducible apply out_b | intro _ | subst x
    | (extract_lets +onlyGivenNames x; have hx : Keeps z0 x := ?_; clear_value x)
    | (extract_lets +onlyGivenNames x; refine isPart x (by constructor) ?_; subst x)
    | (extract_lets +onlyGivenNames x; clear_value x) | with_reducible apply ite_h | split | with_reducible apply setHk_b
    | with_reducible apply noteClaim_b | dsimp only [Keeps])

theorem seqDone_b (b : Bool) (x : SeqRun) (vals : List Int) (s : State) (hs : Keeps z0 s) : Keeps z0 (seqDone b x vals s) := by
  unfold seqDone
  repeat' (first
    | (with_reducible apply setHk_b; exact fun w => { w with hkres := by dsimp only [mapsOf]; exact mwf_mput _ _ _ _ w.hkres })
    | with_reducible assumption | intro _ | subst x
    | (extract_lets +onlyGivenNames x; have hx : Keeps z0 x := ?_; clear_value x)
    | (extract_lets +onlyGivenNames x; refine isPart x (by constructor) ?_; subst x)
    | (extract_lets +onlyGivenNames x; clear_value x) | with_reducible apply ite_h | split | with_reducible apply setHk_b
    | dsimp only [Keeps])

theorem execConvSeqDone_b (hkb : Bool) (vals : List Int) (s : State) (hs : Keeps z0 s) : OutB z0 (execConvSeqDone hkb vals s) :=
    by
  unfold execConvSeqDone
  repeat' (first
    | with_reducible assumption | with_reducible apply out_b | intro _ | subst x
    | (extract_lets +onlyGivenNames x; have hx : Keeps z0 x := ?_; clear_value x)
    | (extract_lets +onlyGivenNames x; refine isPart x (by constructor) ?_; subst x)
    | (extract_lets +onlyGivenNames x; clear_value x) | with_reducible apply ite_h | split | with_reducible apply seqDone_b
    | with_reducible apply setHk_b | with_reducible apply noteClaim_b | dsimp only [Keeps])

theorem hkreqGoBit_b (smp : Nat) (s : State) (hs : Keeps z0 s) : Keeps z0 (hkreqGoBit smp s) := by
  unfold hkreqGoBit
  repeat' (first
    | with_reducible assumption | intro _ | subst x
    | (extract_lets +onlyGivenNames x; have hx : Keeps z0 x := ?_; clear_value x)
    | (extract_lets +onlyGivenNames x; refine isPart x (by constructor) ?_; subst x)
    | (extract_lets +onlyGivenNames x; clear_value x) | with_reducible apply ite_h | split | with_reducible apply setHk_b
    | with_reducible apply noteClaim_b | with_reducible apply berrRorsv_b | with_reducible apply putPlain_b | dsimp only [Keeps])

theorem execHkreqGo_b (smp : Fin 8) (s : State) (hs : Keeps z0 s) : OutB z0 (execHkreqGo smp s) := by
  unfold execHkreqGo
  repeat' (first
    | with_reducible assumption | with_reducible apply out_b | intro _ | subst x
    | (extract_lets +onlyGivenNames x; have hx : Keeps z0 x := ?_; clear_value x)
    | (extract_lets +onlyGivenNames x; refine isPart x (by constructor) ?_; subst x)
    | (extract_lets +onlyGivenNames x; clear_value x) | with_reducible apply ite_h | split | with_reducible apply hkreqGoBit_b
    | with_reducible apply onPage_b | dsimp only [Keeps])

theorem execHkreqDone_b (v : Int) (s : State) (hs : Keeps z0 s) : OutB z0 (execHkreqDone v s) := by
  unfold execHkreqDone
  repeat' (first
    | with_reducible assumption | with_reducible apply out_b | intro _ | subst x
    | (extract_lets +onlyGivenNames x; have hx : Keeps z0 x := ?_; clear_value x)
    | (extract_lets +onlyGivenNames x; refine isPart x (by constructor) ?_; subst x)
    | (extract_lets +onlyGivenNames x; clear_value x) | with_reducible apply ite_h | split | with_reducible apply setHk_b
    | with_reducible apply noteClaim_b | dsimp only [Keeps])

theorem hkseqidxByte_b (v : Byte) (s : State) (hs : Keeps z0 s) : Keeps z0 (hkseqidxByte v s) := by
  unfold hkseqidxByte
  repeat' (first
    | with_reducible assumption | intro _ | subst x
    | (extract_lets +onlyGivenNames x; have hx : Keeps z0 x := ?_; clear_value x)
    | (extract_lets +onlyGivenNames x; refine isPart x (by constructor) ?_; subst x)
    | (extract_lets +onlyGivenNames x; clear_value x) | with_reducible apply ite_h | split | with_reducible apply putPlain_b
    | dsimp only [Keeps])

theorem execHkseqidxWrite_b (v : Byte) (s : State) (hs : Keeps z0 s) : OutB z0 (execHkseqidxWrite v s) := by
  unfold execHkseqidxWrite
  repeat' (first
    | with_reducible assumption | with_reducible apply out_b | intro _ | subst x
    | (extract_lets +onlyGivenNames x; have hx : Keeps z0 x := ?_; clear_value x)
    | (extract_lets +onlyGivenNames x; refine isPart x (by constructor) ?_; subst x)
    | (extract_lets +onlyGivenNames x; clear_value x) | with_reducible apply ite_h | split | with_reducible apply hkseqidxByte_b
    | with_reducible apply onPage_b | dsimp only [Keeps])

theorem hkseqStoreBit_b (s : State) (hs : Keeps z0 s) : Keeps z0 (hkseqStoreBit s) := by
  unfold hkseqStoreBit
  repeat' (first
    | with_reducible assumption | intro _ | subst x
    | (extract_lets +onlyGivenNames x; have hx : Keeps z0 x := ?_; clear_value x)
    | (extract_lets +onlyGivenNames x; refine isPart x (by constructor) ?_; subst x)
    | (extract_lets +onlyGivenNames x; clear_value x) | with_reducible apply ite_h | split | with_reducible apply berrRsvenc_b
    | with_reducible apply putPlain_b | dsimp only [Keeps])

theorem execHkseqStore_b (s : State) (hs : Keeps z0 s) : OutB z0 (execHkseqStore s) := by
  unfold execHkseqStore
  repeat' (first
    | with_reducible assumption | with_reducible apply out_b | intro _ | subst x
    | (extract_lets +onlyGivenNames x; have hx : Keeps z0 x := ?_; clear_value x)
    | (extract_lets +onlyGivenNames x; refine isPart x (by constructor) ?_; subst x)
    | (extract_lets +onlyGivenNames x; clear_value x) | with_reducible apply ite_h | split
    | with_reducible apply hkseqStoreBit_b | with_reducible apply onPage_b | dsimp only [Keeps])

theorem hkrflagLatch_b (s : State) (hs : Keeps z0 s) : Keeps z0 (hkrflagLatch s) := by
  unfold hkrflagLatch
  repeat' (first
    | with_reducible assumption | intro _ | subst x
    | (extract_lets +onlyGivenNames x; have hx : Keeps z0 x := ?_; clear_value x)
    | (extract_lets +onlyGivenNames x; refine isPart x (by constructor) ?_; subst x)
    | (extract_lets +onlyGivenNames x; clear_value x) | with_reducible apply ite_h | split | dsimp only [Keeps])

theorem execHkrflagRead_b (s : State) (hs : Keeps z0 s) : OutB z0 (execHkrflagRead s) := by
  unfold execHkrflagRead
  repeat' (first
    | with_reducible assumption | with_reducible apply out_b | intro _ | subst x
    | (extract_lets +onlyGivenNames x; have hx : Keeps z0 x := ?_; clear_value x)
    | (extract_lets +onlyGivenNames x; refine isPart x (by constructor) ?_; subst x)
    | (extract_lets +onlyGivenNames x; clear_value x) | with_reducible apply ite_h | split | with_reducible apply hkrflagLatch_b
    | with_reducible apply onRead_b | dsimp only [Keeps])

theorem setCal_b (f : Cal → Cal) (s : State) (hs : Keeps z0 s) : Keeps z0 (setCal f s) := by
  unfold setCal
  repeat' (first
    | with_reducible assumption | intro _ | subst x
    | (extract_lets +onlyGivenNames x; have hx : Keeps z0 x := ?_; clear_value x)
    | (extract_lets +onlyGivenNames x; refine isPart x (by constructor) ?_; subst x)
    | (extract_lets +onlyGivenNames x; clear_value x) | with_reducible apply ite_h | split | dsimp only [Keeps])

theorem armSecond_b (s : State) (hs : Keeps z0 s) : Keeps z0 (armSecond s) := by
  unfold armSecond
  repeat' (first
    | with_reducible assumption | intro _ | subst x
    | (extract_lets +onlyGivenNames x; have hx : Keeps z0 x := ?_; clear_value x)
    | (extract_lets +onlyGivenNames x; refine isPart x (by constructor) ?_; subst x)
    | (extract_lets +onlyGivenNames x; clear_value x) | with_reducible apply ite_h | split | with_reducible apply arm_b
    | dsimp only [Keeps])

theorem addCycles_b (n : Int) (s : State) (hs : Keeps z0 s) : Keeps z0 (addCycles n s) := by
  unfold addCycles
  repeat' (first
    | with_reducible assumption | intro _ | subst x
    | (extract_lets +onlyGivenNames x; have hx : Keeps z0 x := ?_; clear_value x)
    | (extract_lets +onlyGivenNames x; refine isPart x (by constructor) ?_; subst x)
    | (extract_lets +onlyGivenNames x; clear_value x) | with_reducible apply ite_h | split | with_reducible apply armSecond_b
    | with_reducible apply setCal_b | dsimp only [Keeps])

theorem execCalendarSecond_b (s : State) (hs : Keeps z0 s) : OutB z0 (execCalendarSecond s) := by
  unfold execCalendarSecond
  repeat' (first
    | with_reducible assumption | with_reducible apply out_b | intro _ | subst x
    | (extract_lets +onlyGivenNames x; have hx : Keeps z0 x := ?_; clear_value x)
    | (extract_lets +onlyGivenNames x; refine isPart x (by constructor) ?_; subst x)
    | (extract_lets +onlyGivenNames x; clear_value x) | with_reducible apply ite_h | split | with_reducible apply armSecond_b
    | with_reducible apply setCal_b | with_reducible apply raiseW_b | with_reducible apply raiseIf_b
    | with_reducible apply disarm_b | dsimp only [Keeps])

theorem execCaltrimStep_b (s : State) (hs : Keeps z0 s) : OutB z0 (execCaltrimStep s) := by
  unfold execCaltrimStep
  repeat' (first
    | with_reducible assumption | with_reducible apply out_b | intro _ | subst x
    | (extract_lets +onlyGivenNames x; have hx : Keeps z0 x := ?_; clear_value x)
    | (extract_lets +onlyGivenNames x; refine isPart x (by constructor) ?_; subst x)
    | (extract_lets +onlyGivenNames x; clear_value x) | with_reducible apply ite_h | split | with_reducible apply setCal_b
    | with_reducible apply addCycles_b | with_reducible apply arm_b | with_reducible apply disarm_b | dsimp only [Keeps])

theorem restartPtick_b (s : State) (hs : Keeps z0 s) : Keeps z0 (restartPtick s) := by
  unfold restartPtick
  repeat' (first
    | with_reducible assumption | intro _ | subst x
    | (extract_lets +onlyGivenNames x; have hx : Keeps z0 x := ?_; clear_value x)
    | (extract_lets +onlyGivenNames x; refine isPart x (by constructor) ?_; subst x)
    | (extract_lets +onlyGivenNames x; clear_value x) | with_reducible apply ite_h | split | with_reducible apply arm_b
    | with_reducible apply disarm_b | dsimp only [Keeps])

theorem execPtick_b (s : State) (hs : Keeps z0 s) : OutB z0 (execPtick s) := by
  unfold execPtick
  repeat' (first
    | with_reducible assumption | with_reducible apply out_b | intro _ | subst x
    | (extract_lets +onlyGivenNames x; have hx : Keeps z0 x := ?_; clear_value x)
    | (extract_lets +onlyGivenNames x; refine isPart x (by constructor) ?_; subst x)
    | (extract_lets +onlyGivenNames x; clear_value x) | with_reducible apply ite_h | split | with_reducible apply restartPtick_b
    | with_reducible apply raiseW_b | with_reducible apply disarm_b | dsimp only [Keeps])

theorem pwcfgByte_b (cnt : Bool) (v : Byte) (s : State) (hs : Keeps z0 s) : Keeps z0 (pwcfgByte cnt v s) := by
  unfold pwcfgByte
  repeat' (first
    | with_reducible assumption | intro _ | subst x
    | (extract_lets +onlyGivenNames x; have hx : Keeps z0 x := ?_; clear_value x)
    | (extract_lets +onlyGivenNames x; refine isPart x (by constructor) ?_; subst x)
    | (extract_lets +onlyGivenNames x; clear_value x) | with_reducible apply ite_h | split | with_reducible apply restartPtick_b
    | with_reducible apply plainByte_b | dsimp only [Keeps])

theorem execPwcfgWrite_b (cnt : Bool) (v : Byte) (s : State) (hs : Keeps z0 s) : OutB z0 (execPwcfgWrite cnt v s) := by
  unfold execPwcfgWrite
  repeat' (first
    | with_reducible assumption | with_reducible apply out_b | intro _ | subst x
    | (extract_lets +onlyGivenNames x; have hx : Keeps z0 x := ?_; clear_value x)
    | (extract_lets +onlyGivenNames x; refine isPart x (by constructor) ?_; subst x)
    | (extract_lets +onlyGivenNames x; clear_value x) | with_reducible apply ite_h | split | with_reducible apply pwcfgByte_b
    | with_reducible apply onSleepPage_b | dsimp only [Keeps])

theorem execXtalstop_b (s : State) (hs : Keeps z0 s) : OutB z0 (execXtalstop s) := by
  unfold execXtalstop
  repeat' (first
    | with_reducible assumption | with_reducible apply out_b | intro _ | subst x
    | (extract_lets +onlyGivenNames x; have hx : Keeps z0 x := ?_; clear_value x)
    | (extract_lets +onlyGivenNames x; refine isPart x (by constructor) ?_; subst x)
    | (extract_lets +onlyGivenNames x; clear_value x) | with_reducible apply ite_h | split | with_reducible apply setCal_b
    | with_reducible apply raiseW_b | dsimp only [Keeps])

theorem execXtalrun_b (s : State) (hs : Keeps z0 s) : OutB z0 (execXtalrun s) := by
  unfold execXtalrun
  repeat' (first
    | with_reducible assumption | with_reducible apply out_b | intro _ | subst x
    | (extract_lets +onlyGivenNames x; have hx : Keeps z0 x := ?_; clear_value x)
    | (extract_lets +onlyGivenNames x; refine isPart x (by constructor) ?_; subst x)
    | (extract_lets +onlyGivenNames x; clear_value x) | with_reducible apply ite_h | split | with_reducible apply setCal_b
    | with_reducible apply raise_b | dsimp only [Keeps])

theorem calSetBit_b (s : State) (hs : Keeps z0 s) : Keeps z0 (calSetBit s) := by
  unfold calSetBit
  repeat' (first
    | with_reducible assumption | intro _ | subst x
    | (extract_lets +onlyGivenNames x; have hx : Keeps z0 x := ?_; clear_value x)
    | (extract_lets +onlyGivenNames x; refine isPart x (by constructor) ?_; subst x)
    | (extract_lets +onlyGivenNames x; clear_value x) | with_reducible apply ite_h | split | with_reducible apply armSecond_b
    | with_reducible apply setCal_b | with_reducible apply berrRsvenc_b | with_reducible apply raise_b | dsimp only [Keeps])

theorem execCalctlSet_b (s : State) (hs : Keeps z0 s) : OutB z0 (execCalctlSet s) := by
  unfold execCalctlSet
  repeat' (first
    | with_reducible assumption | with_reducible apply out_b | intro _ | subst x
    | (extract_lets +onlyGivenNames x; have hx : Keeps z0 x := ?_; clear_value x)
    | (extract_lets +onlyGivenNames x; refine isPart x (by constructor) ?_; subst x)
    | (extract_lets +onlyGivenNames x; clear_value x) | with_reducible apply ite_h | split | with_reducible apply calSetBit_b
    | with_reducible apply onSleepPage_b | dsimp only [Keeps])

theorem subsecLatch_b (s : State) (hs : Keeps z0 s) : Keeps z0 (subsecLatch s) := by
  unfold subsecLatch
  repeat' (first
    | with_reducible assumption | intro _ | subst x
    | (extract_lets +onlyGivenNames x; have hx : Keeps z0 x := ?_; clear_value x)
    | (extract_lets +onlyGivenNames x; refine isPart x (by constructor) ?_; subst x)
    | (extract_lets +onlyGivenNames x; clear_value x) | with_reducible apply ite_h | split | with_reducible apply setCal_b
    | dsimp only [Keeps])

theorem execSubsecRead_b (s : State) (hs : Keeps z0 s) : OutB z0 (execSubsecRead s) := by
  unfold execSubsecRead
  repeat' (first
    | with_reducible assumption | with_reducible apply out_b | intro _ | subst x
    | (extract_lets +onlyGivenNames x; have hx : Keeps z0 x := ?_; clear_value x)
    | (extract_lets +onlyGivenNames x; refine isPart x (by constructor) ?_; subst x)
    | (extract_lets +onlyGivenNames x; clear_value x) | with_reducible apply ite_h | split | with_reducible apply subsecLatch_b
    | with_reducible apply onRead_b | with_reducible apply ackAccess_b | dsimp only [Keeps])

theorem rtcShiftBody_b (p : Packet) (s : State) (hs : Keeps z0 s) : Keeps z0 (rtcShiftBody p s) := by
  unfold rtcShiftBody
  repeat' (first
    | with_reducible assumption | intro _ | subst x
    | (extract_lets +onlyGivenNames x; have hx : Keeps z0 x := ?_; clear_value x)
    | (extract_lets +onlyGivenNames x; refine isPart x (by constructor) ?_; subst x)
    | (extract_lets +onlyGivenNames x; clear_value x) | with_reducible apply ite_h | split | with_reducible apply addCycles_b
    | with_reducible apply setCal_b | with_reducible apply slotBusy_b | with_reducible apply doneWith_b
    | with_reducible apply reject_b | with_reducible apply raise_b | with_reducible apply arm_b | dsimp only [Keeps])

theorem execRtcShift_b (p : Packet) (s : State) (hs : Keeps z0 s) : OutB z0 (execRtcShift p s) := by
  unfold execRtcShift
  repeat' (first
    | with_reducible assumption | with_reducible apply out_b | intro _ | subst x
    | (extract_lets +onlyGivenNames x; have hx : Keeps z0 x := ?_; clear_value x)
    | (extract_lets +onlyGivenNames x; refine isPart x (by constructor) ?_; subst x)
    | (extract_lets +onlyGivenNames x; clear_value x) | with_reducible apply ite_h | split | with_reducible apply rtcShiftBody_b
    | with_reducible apply packet_b | dsimp only [Keeps])

theorem execShiftdone_b (s : State) (hs : Keeps z0 s) : OutB z0 (execShiftdone s) := by
  unfold execShiftdone
  repeat' (first
    | with_reducible assumption | with_reducible apply out_b | intro _ | subst x
    | (extract_lets +onlyGivenNames x; have hx : Keeps z0 x := ?_; clear_value x)
    | (extract_lets +onlyGivenNames x; refine isPart x (by constructor) ?_; subst x)
    | (extract_lets +onlyGivenNames x; clear_value x) | with_reducible apply ite_h | split | with_reducible apply addCycles_b
    | with_reducible apply setCal_b | with_reducible apply doneWith_b | with_reducible apply raise_b
    | with_reducible apply disarm_b | dsimp only [Keeps])

theorem detector_b (k : Nat) (src : Nat) (s : State) (hs : Keeps z0 s) : Keeps z0 (detector k src s) := by
  unfold detector
  repeat' (first
    | with_reducible assumption | intro _ | subst x
    | (extract_lets +onlyGivenNames x; have hx : Keeps z0 x := ?_; clear_value x)
    | (extract_lets +onlyGivenNames x; refine isPart x (by constructor) ?_; subst x)
    | (extract_lets +onlyGivenNames x; clear_value x) | with_reducible apply ite_h | split | with_reducible apply raiseW_b
    | with_reducible apply bootStart_b | dsimp only [Keeps])

theorem execWakepin_b (s : State) (hs : Keeps z0 s) : OutB z0 (execWakepin s) := by
  unfold execWakepin
  repeat' (first
    | with_reducible assumption | with_reducible apply out_b | intro _ | subst x
    | (extract_lets +onlyGivenNames x; have hx : Keeps z0 x := ?_; clear_value x)
    | (extract_lets +onlyGivenNames x; refine isPart x (by constructor) ?_; subst x)
    | (extract_lets +onlyGivenNames x; clear_value x) | with_reducible apply ite_h | split | with_reducible apply detector_b
    | dsimp only [Keeps])

theorem execVinwake_b (s : State) (hs : Keeps z0 s) : OutB z0 (execVinwake s) := by
  unfold execVinwake
  repeat' (first
    | with_reducible assumption | with_reducible apply out_b | intro _ | subst x
    | (extract_lets +onlyGivenNames x; have hx : Keeps z0 x := ?_; clear_value x)
    | (extract_lets +onlyGivenNames x; refine isPart x (by constructor) ?_; subst x)
    | (extract_lets +onlyGivenNames x; clear_value x) | with_reducible apply ite_h | split | with_reducible apply detector_b
    | dsimp only [Keeps])

theorem hostwakeBit_b (s : State) (hs : Keeps z0 s) : Keeps z0 (hostwakeBit s) := by
  unfold hostwakeBit
  repeat' (first
    | with_reducible assumption | intro _ | subst x
    | (extract_lets +onlyGivenNames x; have hx : Keeps z0 x := ?_; clear_value x)
    | (extract_lets +onlyGivenNames x; refine isPart x (by constructor) ?_; subst x)
    | (extract_lets +onlyGivenNames x; clear_value x) | with_reducible apply ite_h | split | with_reducible apply raiseW_b
    | dsimp only [Keeps])

theorem execHostwake_b (s : State) (hs : Keeps z0 s) : OutB z0 (execHostwake s) := by
  unfold execHostwake
  repeat' (first
    | with_reducible assumption | with_reducible apply out_b | intro _ | subst x
    | (extract_lets +onlyGivenNames x; have hx : Keeps z0 x := ?_; clear_value x)
    | (extract_lets +onlyGivenNames x; refine isPart x (by constructor) ?_; subst x)
    | (extract_lets +onlyGivenNames x; clear_value x) | with_reducible apply ite_h | split | with_reducible apply hostwakeBit_b
    | with_reducible apply onSleepPage_b | dsimp only [Keeps])

theorem clearHeld_b (s : State) (hs : Keeps z0 s) : Keeps z0 (clearHeld s) := by
  unfold clearHeld
  repeat' (first
    | with_reducible assumption | intro _ | subst x
    | (extract_lets +onlyGivenNames x; have hx : Keeps z0 x := ?_; clear_value x)
    | (extract_lets +onlyGivenNames x; refine isPart x (by constructor) ?_; subst x)
    | (extract_lets +onlyGivenNames x; clear_value x) | with_reducible apply ite_h | split | dsimp only [Keeps])

theorem execSeqStart_b (p : Packet) (s : State) (hs : Keeps z0 s) : OutB z0 (execSeqStart p s) := by
  unfold execSeqStart
  repeat' (first
    | with_reducible assumption | with_reducible apply out_b | intro _ | subst x
    | (extract_lets +onlyGivenNames x; have hx : Keeps z0 x := ?_; clear_value x)
    | (extract_lets +onlyGivenNames x; refine isPart x (by constructor) ?_; subst x)
    | (extract_lets +onlyGivenNames x; clear_value x) | with_reducible apply ite_h | split | with_reducible apply clearHeld_b
    | with_reducible apply packet_b | with_reducible apply doneWith_b | with_reducible apply reject_b
    | with_reducible apply startCheck_b | dsimp only [Keeps])

theorem execSeqStop_b (p : Packet) (s : State) (hs : Keeps z0 s) : OutB z0 (execSeqStop p s) := by
  unfold execSeqStop
  repeat' (first
    | with_reducible assumption | with_reducible apply out_b | intro _ | subst x
    | (extract_lets +onlyGivenNames x; have hx : Keeps z0 x := ?_; clear_value x)
    | (extract_lets +onlyGivenNames x; refine isPart x (by constructor) ?_; subst x)
    | (extract_lets +onlyGivenNames x; clear_value x) | with_reducible apply ite_h | split | with_reducible apply packet_b
    | with_reducible apply doneWith_b | with_reducible apply reject_b | with_reducible apply commonStop_b | dsimp only [Keeps])

theorem railRetryBody_b (p : Packet) (s : State) (hs : Keeps z0 s) : Keeps z0 (railRetryBody p s) := by
  unfold railRetryBody
  repeat' (first
    | with_reducible assumption | intro _ | subst x
    | (extract_lets +onlyGivenNames x; have hx : Keeps z0 x := ?_; clear_value x)
    | (extract_lets +onlyGivenNames x; refine isPart x (by constructor) ?_; subst x)
    | (extract_lets +onlyGivenNames x; clear_value x) | with_reducible apply ite_h | split | with_reducible apply doneWith_b
    | with_reducible apply reject_b | with_reducible apply restartSet_b
    | (refine kept_maps (by with_reducible assumption) ?_; exact fun w => { w with retries := by dsimp only [mapsOf]; exact mwf_mput _ _ _ _ w.retries })
    | dsimp only [Keeps])

theorem execRailRetry_b (p : Packet) (s : State) (hs : Keeps z0 s) : OutB z0 (execRailRetry p s) := by
  unfold execRailRetry
  repeat' (first
    | with_reducible assumption | with_reducible apply out_b | intro _ | subst x
    | (extract_lets +onlyGivenNames x; have hx : Keeps z0 x := ?_; clear_value x)
    | (extract_lets +onlyGivenNames x; refine isPart x (by constructor) ?_; subst x)
    | (extract_lets +onlyGivenNames x; clear_value x) | with_reducible apply ite_h | split
    | with_reducible apply railRetryBody_b | with_reducible apply packet_b | dsimp only [Keeps])

theorem execStandbyEnter_b (p : Packet) (s : State) (hs : Keeps z0 s) : OutB z0 (execStandbyEnter p s) := by
  unfold execStandbyEnter
  repeat' (first
    | with_reducible assumption | with_reducible apply out_b | intro _ | subst x
    | (extract_lets +onlyGivenNames x; have hx : Keeps z0 x := ?_; clear_value x)
    | (extract_lets +onlyGivenNames x; refine isPart x (by constructor) ?_; subst x)
    | (extract_lets +onlyGivenNames x; clear_value x) | with_reducible apply ite_h | split | with_reducible apply packet_b
    | with_reducible apply doneWith_b | with_reducible apply reject_b | with_reducible apply wdStop_b
    | with_reducible apply enterState_b | dsimp only [Keeps])

theorem execStandbyExit_b (p : Packet) (s : State) (hs : Keeps z0 s) : OutB z0 (execStandbyExit p s) := by
  unfold execStandbyExit
  repeat' (first
    | with_reducible assumption | with_reducible apply out_b | intro _ | subst x
    | (extract_lets +onlyGivenNames x; have hx : Keeps z0 x := ?_; clear_value x)
    | (extract_lets +onlyGivenNames x; refine isPart x (by constructor) ?_; subst x)
    | (extract_lets +onlyGivenNames x; clear_value x) | with_reducible apply ite_h | split | with_reducible apply packet_b
    | with_reducible apply doneWith_b | with_reducible apply reject_b | with_reducible apply wdArm_b
    | with_reducible apply enterState_b | dsimp only [Keeps])

theorem sleepWrites_b (s : State) (hs : Keeps z0 s) : Keeps z0 (sleepWrites s) := by
  unfold sleepWrites
  repeat' (first
    | with_reducible assumption | intro _ | subst x
    | (extract_lets +onlyGivenNames x; have hx : Keeps z0 x := ?_; clear_value x)
    | (extract_lets +onlyGivenNames x; refine isPart x (by constructor) ?_; subst x)
    | (extract_lets +onlyGivenNames x; clear_value x) | with_reducible apply ite_h | split | with_reducible apply closeAll_b
    | with_reducible apply grant_b | dsimp only [Keeps])

theorem startSleep_b (ship : Bool) (s : State) (hs : Keeps z0 s) : Keeps z0 (startSleep ship s) := by
  unfold startSleep
  repeat' (first
    | with_reducible assumption | intro _ | subst x
    | (extract_lets +onlyGivenNames x; have hx : Keeps z0 x := ?_; clear_value x)
    | (extract_lets +onlyGivenNames x; refine isPart x (by constructor) ?_; subst x)
    | (extract_lets +onlyGivenNames x; clear_value x) | with_reducible apply ite_h | split | with_reducible apply sleepWrites_b
    | with_reducible apply commonStop_b | with_reducible apply abortSleep_b | with_reducible apply disarm_b | dsimp only [Keeps])

theorem sleepBody_b (ship : Bool) (p : Packet) (s : State) (hs : Keeps z0 s) : Keeps z0 (sleepBody ship p s) := by
  unfold sleepBody
  repeat' (first
    | with_reducible assumption | intro _ | subst x
    | (extract_lets +onlyGivenNames x; have hx : Keeps z0 x := ?_; clear_value x)
    | (extract_lets +onlyGivenNames x; refine isPart x (by constructor) ?_; subst x)
    | (extract_lets +onlyGivenNames x; clear_value x) | with_reducible apply ite_h | split | with_reducible apply startSleep_b
    | with_reducible apply slotBusy_b | with_reducible apply rejectOpen_b | with_reducible apply reject_b | dsimp only [Keeps])

theorem execSleepEnter_b (p : Packet) (s : State) (hs : Keeps z0 s) : OutB z0 (execSleepEnter p s) := by
  unfold execSleepEnter
  repeat' (first
    | with_reducible assumption | with_reducible apply out_b | intro _ | subst x
    | (extract_lets +onlyGivenNames x; have hx : Keeps z0 x := ?_; clear_value x)
    | (extract_lets +onlyGivenNames x; refine isPart x (by constructor) ?_; subst x)
    | (extract_lets +onlyGivenNames x; clear_value x) | with_reducible apply ite_h | split | with_reducible apply sleepBody_b
    | with_reducible apply packet_b | dsimp only [Keeps])

theorem execShipEnter_b (p : Packet) (s : State) (hs : Keeps z0 s) : OutB z0 (execShipEnter p s) := by
  unfold execShipEnter
  repeat' (first
    | with_reducible assumption | with_reducible apply out_b | intro _ | subst x
    | (extract_lets +onlyGivenNames x; have hx : Keeps z0 x := ?_; clear_value x)
    | (extract_lets +onlyGivenNames x; refine isPart x (by constructor) ?_; subst x)
    | (extract_lets +onlyGivenNames x; clear_value x) | with_reducible apply ite_h | split | with_reducible apply sleepBody_b
    | with_reducible apply packet_b | dsimp only [Keeps])

theorem execIdleslp_b (s : State) (hs : Keeps z0 s) : OutB z0 (execIdleslp s) := by
  unfold execIdleslp
  repeat' (first
    | with_reducible assumption | with_reducible apply out_b | intro _ | subst x
    | (extract_lets +onlyGivenNames x; have hx : Keeps z0 x := ?_; clear_value x)
    | (extract_lets +onlyGivenNames x; refine isPart x (by constructor) ?_; subst x)
    | (extract_lets +onlyGivenNames x; clear_value x) | with_reducible apply ite_h | split | with_reducible apply startSleep_b
    | with_reducible apply disarm_b | dsimp only [Keeps])

theorem isolate_b (ship : Bool) (s : State) (hs : Keeps z0 s) : Keeps z0 (isolate ship s) := by
  unfold isolate
  repeat' (first
    | with_reducible assumption | intro _ | subst x
    | (extract_lets +onlyGivenNames x; have hx : Keeps z0 x := ?_; clear_value x)
    | (extract_lets +onlyGivenNames x; refine isPart x (by constructor) ?_; subst x)
    | (extract_lets +onlyGivenNames x; clear_value x) | with_reducible apply ite_h | split | with_reducible apply dropPower_b
    | with_reducible apply enterState_b | with_reducible apply pilotPassive_b | with_reducible apply dropSlot_b
    | with_reducible apply raiseG_b | with_reducible apply putPlain_b | with_reducible apply disarmAll_b
    | exact kept_session (by with_reducible assumption) (by exact sessionFits_ended) | dsimp only [Keeps])

theorem execSleepPrepDone_b (s : State) (hs : Keeps z0 s) : OutB z0 (execSleepPrepDone s) := by
  unfold execSleepPrepDone
  repeat' (first
    | with_reducible assumption | with_reducible apply out_b | intro _ | subst x
    | (extract_lets +onlyGivenNames x; have hx : Keeps z0 x := ?_; clear_value x)
    | (extract_lets +onlyGivenNames x; refine isPart x (by constructor) ?_; subst x)
    | (extract_lets +onlyGivenNames x; clear_value x) | with_reducible apply ite_h | split | with_reducible apply isolate_b
    | with_reducible apply startCheck_b | with_reducible apply abortSleep_b | with_reducible apply arm_b | dsimp only [Keeps])

theorem scrubEnd_b (n : Nat) (s : State) (hs : Keeps z0 s) : Keeps z0 (scrubEnd n s) := by
  unfold scrubEnd
  repeat' (first
    | with_reducible assumption | intro _ | subst x
    | (extract_lets +onlyGivenNames x; have hx : Keeps z0 x := ?_; clear_value x)
    | (extract_lets +onlyGivenNames x; refine isPart x (by constructor) ?_; subst x)
    | (extract_lets +onlyGivenNames x; clear_value x) | with_reducible apply ite_h | split | with_reducible apply arm_b
    | with_reducible apply disarm_b | dsimp only [Keeps])

theorem scrubbed_b (n : Nat) (ok : Bool) (s : State) (hs : Keeps z0 s) : Keeps z0 (scrubbed n ok s) := by
  unfold scrubbed
  repeat' (first
    | with_reducible assumption | intro _ | subst x
    | (extract_lets +onlyGivenNames x; have hx : Keeps z0 x := ?_; clear_value x)
    | (extract_lets +onlyGivenNames x; refine isPart x (by constructor) ?_; subst x)
    | (extract_lets +onlyGivenNames x; clear_value x) | with_reducible apply ite_h | split | with_reducible apply scrubEnd_b
    | with_reducible apply queueRefresh_b | with_reducible apply raiseG_b | dsimp only [Keeps])

theorem bufferWritten_b (n : Nat) (ok : Bool) (s : State) (hs : Keeps z0 s) : Keeps z0 (bufferWritten n ok s) := by
  unfold bufferWritten
  repeat' (first
    | with_reducible assumption | intro _ | subst x
    | (extract_lets +onlyGivenNames x; have hx : Keeps z0 x := ?_; clear_value x)
    | (extract_lets +onlyGivenNames x; refine isPart x (by constructor) ?_; subst x)
    | (extract_lets +onlyGivenNames x; clear_value x) | with_reducible apply ite_h | split | with_reducible apply land_b
    | with_reducible apply setSector_b | refine pair_b (by with_reducible assumption) ?_ | dsimp only [Keeps])

theorem refreshed_b (n : Nat) (ok : Bool) (s : State) (hs : Keeps z0 s) : Keeps z0 (refreshed n ok s) := by
  unfold refreshed
  repeat' (first
    | with_reducible assumption | intro _ | subst x
    | (extract_lets +onlyGivenNames x; have hx : Keeps z0 x := ?_; clear_value x)
    | (extract_lets +onlyGivenNames x; refine isPart x (by constructor) ?_; subst x)
    | (extract_lets +onlyGivenNames x; clear_value x) | with_reducible apply ite_h | split | with_reducible apply land_b
    | with_reducible apply dropRefresh_b | with_reducible apply raiseG_b | with_reducible apply marginSettle_b
    | refine pair_b (by with_reducible assumption) ?_ | dsimp only [Keeps])

theorem landBank_b (n : Nat) (len : Nat) (ok : Bool) (s : State) (hs : Keeps z0 s) : Keeps z0 (landBank n len ok s).2 := by
  unfold landBank
  repeat' (first
    | with_reducible assumption | intro _ | subst x
    | (extract_lets +onlyGivenNames x; have hx : Keeps z0 x := ?_; clear_value x)
    | (extract_lets +onlyGivenNames x; refine isPart x (by constructor) ?_; subst x)
    | (extract_lets +onlyGivenNames x; clear_value x) | with_reducible apply ite_h | split | with_reducible apply land_b
    | refine pair_b (by with_reducible assumption) ?_ | dsimp only [Keeps])

theorem snapWritten_b (ok : Bool) (s : State) (hs : Keeps z0 s) : Keeps z0 (snapWritten ok s) := by
  unfold snapWritten
  repeat' (first
    | with_reducible assumption | intro _ | subst x
    | (extract_lets +onlyGivenNames x; have hx : Keeps z0 x := ?_; clear_value x)
    | (extract_lets +onlyGivenNames x; refine isPart x (by constructor) ?_; subst x)
    | (extract_lets +onlyGivenNames x; clear_value x) | with_reducible apply ite_h | split | with_reducible apply landBank_b
    | with_reducible apply raiseG_b | with_reducible apply logOther_b | refine pair_b (by with_reducible assumption) ?_
    | dsimp only [Keeps])

theorem cfgWritten_b (ok : Bool) (s : State) (hs : Keeps z0 s) : Keeps z0 (cfgWritten ok s) := by
  unfold cfgWritten
  split
  · exact hs
  · rename_i c hc
    extract_lets +onlyGivenNames second d q
    have hd : MapsSound z0 → ImageFit d := fun m =>
      have w := (hs.maps m).capture c hc
      ⟨w.staged, w.plain, w.sched, w.mask, w.route⟩
    clear_value d
    split
    rename_i got x e
    have hx : Keeps z0 x := pair_b e (landBank_b _ _ _ _ (kept_maps hs fun w => { w with capture := fun _ h => (nomatch h) }))
    split
    · exact raiseG_b _ _ _ hx
    · extract_lets +onlyGivenNames q' y
      have hy : Keeps z0 y := hx
      clear_value y
      refine raiseG_b _ _ _ ?_
      split
      · exact kept_maps' hy fun m w => { w with cfgB := fun _ h => Option.some.inj h ▸ hd m }
      · exact kept_maps' hy fun m w => { w with cfgA := fun _ h => Option.some.inj h ▸ hd m }

theorem roleOnly_wf (m : Map PhaseSt) (h : mwf ({} : PhaseSt) m = true) :
    mwf ({} : PhaseSt) (m.filterMap (fun (r, q) => if roleOnly q = {} then none else some (r, roleOnly q))) = true := by
  refine mwf_filterMap _ _ _ (fun x y e => ?_) m h
  obtain ⟨r, q⟩ := x
  dsimp only at e
  split at e
  · cases e
  · cases e; exact ⟨rfl, by assumption⟩
theorem roleOnlyLdo_wf (m : Map LdoSt) (h : mwf ({} : LdoSt) m = true) :
    mwf ({} : LdoSt) (m.filterMap (fun (c, l) => if roleOnlyLdo l = {} then none else some (c, roleOnlyLdo l))) = true := by
  refine mwf_filterMap _ _ _ (fun x y e => ?_) m h
  obtain ⟨r, q⟩ := x
  dsimp only at e
  split at e
  · cases e
  · cases e; exact ⟨rfl, by assumption⟩
theorem counts_wf (m : Map Sector) (h : mwf ({} : Sector) m = true) :
    mwf 0 (m.filterMap (fun (k, x) => x.count.bind (fun c => if c = 0 then none else some (k, c)))) = true := by
  refine mwf_filterMap _ _ _ (fun x y e => ?_) m h
  obtain ⟨k, x⟩ := x
  dsimp only at e
  obtain ⟨c, -, e⟩ := Option.bind_eq_some_iff.mp e
  split at e
  · cases e
  · cases e; exact ⟨rfl, by assumption⟩
theorem ledger_fit (s : State) (w : MapsFit (mapsOf s)) : LedgerFit ⟨nextSeq (s.pat.bankA.map PatBank.seq) (s.pat.bankB.map PatBank.seq),
    s.pat.res, opSec s, s.clk.cycles,
    s.fl.sec.filterMap (fun (k, x) => x.count.bind (fun c => if c = 0 then none else some (k, c))),
    s.bk.ph.filterMap (fun (r, q) => if roleOnly q = {} then none else some (r, roleOnly q)),
    s.bk.ldo.filterMap (fun (c, l) => if roleOnlyLdo l = {} then none else some (c, roleOnlyLdo l))⟩ :=
  ⟨w.res, counts_wf _ w.sec, roleOnly_wf _ w.ph, roleOnlyLdo_wf _ w.ldo⟩

theorem patWritten_b (ok : Bool) (s : State) (hs : Keeps z0 s) : Keeps z0 (patWritten ok s) := by
  unfold patWritten
  extract_lets +onlyGivenNames second q u
  have hu : Keeps z0 u := hs
  clear_value u
  split
  rename_i got x e
  have hx : Keeps z0 x := pair_b e (landBank_b _ _ _ _ hu)
  split
  · exact hx
  · have hb := fun (w : MapsFit (mapsOf x)) => ledger_fit x w
    extract_lets +onlyGivenNames b
    split
    · exact kept_maps hx fun w => { w with patB := fun _ h => Option.some.inj h ▸ hb w }
    · exact kept_maps hx fun w => { w with patA := fun _ h => Option.some.inj h ▸ hb w }

theorem gaugeWritten_b (ok : Bool) (s : State) (hs : Keeps z0 s) : Keeps z0 (gaugeWritten ok s) := by
  unfold gaugeWritten
  repeat' (first
    | with_reducible assumption | intro _ | subst x
    | (extract_lets +onlyGivenNames x; have hx : Keeps z0 x := ?_; clear_value x)
    | (extract_lets +onlyGivenNames x; refine isPart x (by constructor) ?_; subst x)
    | (extract_lets +onlyGivenNames x; clear_value x) | with_reducible apply ite_h | split | with_reducible apply landBank_b
    | refine pair_b (by with_reducible assumption) ?_ | dsimp only [Keeps])

theorem logWritten_b (ok : Bool) (s : State) (hs : Keeps z0 s) : Keeps z0 (logWritten ok s) := by
  unfold logWritten
  repeat' (first
    | with_reducible assumption | intro _ | subst x
    | (extract_lets +onlyGivenNames x; have hx : Keeps z0 x := ?_; clear_value x)
    | (extract_lets +onlyGivenNames x; refine isPart x (by constructor) ?_; subst x)
    | (extract_lets +onlyGivenNames x; clear_value x) | with_reducible apply ite_h | split
    | with_reducible apply markLogFrom_b | with_reducible apply markLog_b | with_reducible apply slotEnd_b
    | with_reducible apply takeSpare_b | with_reducible apply writeQueue_b | with_reducible apply programCloses_b
    | with_reducible apply raiseG_b | refine pair_b (by with_reducible assumption) ?_ | dsimp only [Keeps])

theorem logCleared_b (cnt : Nat) (s : State) (hs : Keeps z0 s) : Keeps z0 (logCleared cnt s) := by
  unfold logCleared
  repeat' (first
    | with_reducible assumption | intro _ | subst x
    | (extract_lets +onlyGivenNames x; have hx : Keeps z0 x := ?_; clear_value x)
    | (extract_lets +onlyGivenNames x; refine isPart x (by constructor) ?_; subst x)
    | (extract_lets +onlyGivenNames x; clear_value x) | with_reducible apply ite_h | split | with_reducible apply markLog_b
    | with_reducible apply slotEnd_b | with_reducible apply raiseG_b
    | exact kept_log (by with_reducible assumption) (by exact fun h => ⟨by simp, h.2⟩) | dsimp only [Keeps])

theorem logErased_b (n : Nat) (ok : Bool) (s : State) (hs : Keeps z0 s) : Keeps z0 (logErased n ok s) := by
  unfold logErased
  repeat' (first
    | with_reducible assumption | intro _ | subst x
    | (extract_lets +onlyGivenNames x; have hx : Keeps z0 x := ?_; clear_value x)
    | (extract_lets +onlyGivenNames x; refine isPart x (by constructor) ?_; subst x)
    | (extract_lets +onlyGivenNames x; clear_value x) | with_reducible apply ite_h | split | with_reducible apply logCleared_b
    | with_reducible apply slotError_b | with_reducible apply land_b | refine pair_b (by with_reducible assumption) ?_
    | exact kept_log (pair_b (by with_reducible assumption) (land_b _ _ _ _ hs)) (by exact fun h => ⟨Nat.le_trans (List.length_take_le' _ _) h.1, h.2⟩)
    | dsimp only [Keeps])

theorem logPrepared_b (n : Nat) (ok : Bool) (s : State) (hs : Keeps z0 s) : Keeps z0 (logPrepared n ok s) := by
  unfold logPrepared
  repeat' (first
    | with_reducible assumption | intro _ | subst x
    | (extract_lets +onlyGivenNames x; have hx : Keeps z0 x := ?_; clear_value x)
    | (extract_lets +onlyGivenNames x; refine isPart x (by constructor) ?_; subst x)
    | (extract_lets +onlyGivenNames x; clear_value x) | with_reducible apply ite_h | split | with_reducible apply land_b
    | refine pair_b (by with_reducible assumption) ?_ | dsimp only [Keeps])

theorem updLand_b (n : Nat) (ok : Bool) (b : List Byte) (done : State → State) (s : State) (hdone : ∀ (v0 : State), Keeps
    z0 v0 → Keeps z0 (done v0)) (hs : Keeps z0 s) : Keeps z0 (updLand n ok b done s) := by
  unfold updLand
  repeat' (first
    | with_reducible assumption | intro _ | subst x
    | (extract_lets +onlyGivenNames x; have hx : Keeps z0 x := ?_; clear_value x)
    | (extract_lets +onlyGivenNames x; refine isPart x (by constructor) ?_; subst x)
    | (extract_lets +onlyGivenNames x; clear_value x) | with_reducible apply ite_h | split | with_reducible apply land_b
    | with_reducible apply updError_b | with_reducible apply hdone | refine pair_b (by with_reducible assumption) ?_
    | dsimp only [Keeps])

theorem cutWritten_b (sl : Slot) (n : Nat) (ok : Bool) (b : List Byte) (s : State) (hs : Keeps z0 s) : Keeps z0
    (cutWritten sl n ok b s) := by
  unfold cutWritten
  repeat' (first
    | with_reducible assumption | intro _ | subst x
    | (extract_lets +onlyGivenNames x; have hx : Keeps z0 x := ?_; clear_value x)
    | (extract_lets +onlyGivenNames x; refine isPart x (by constructor) ?_; subst x)
    | (extract_lets +onlyGivenNames x; clear_value x) | with_reducible apply ite_h | split | with_reducible apply land_b
    | with_reducible apply setInactive_b | with_reducible apply wantJournal_b
    | refine pair_b (by with_reducible assumption) ?_ | dsimp only [Keeps])

theorem updWritten_b (k : Nat) (ok : Bool) (s : State) (hs : Keeps z0 s) : Keeps z0 (updWritten k ok s) := by
  unfold updWritten
  repeat' (first
    | with_reducible assumption | intro _ | subst x
    | (extract_lets +onlyGivenNames x; have hx : Keeps z0 x := ?_; clear_value x)
    | (extract_lets +onlyGivenNames x; refine isPart x (by constructor) ?_; subst x)
    | (extract_lets +onlyGivenNames x; clear_value x) | with_reducible apply ite_h | split
    | with_reducible apply cutWritten_b | with_reducible apply updLand_b | with_reducible apply sectorDone_b
    | with_reducible apply updError_b | with_reducible apply land_b | refine pair_b (by with_reducible assumption) ?_
    | dsimp only [Keeps])

theorem manifestWritten_b (ok : Bool) (s : State) (hs : Keeps z0 s) : Keeps z0 (manifestWritten ok s) := by
  unfold manifestWritten
  repeat' (first
    | with_reducible assumption | intro _ | subst x
    | (extract_lets +onlyGivenNames x; have hx : Keeps z0 x := ?_; clear_value x)
    | (extract_lets +onlyGivenNames x; refine isPart x (by constructor) ?_; subst x)
    | (extract_lets +onlyGivenNames x; clear_value x) | with_reducible apply ite_h | split
    | with_reducible apply cutWritten_b | with_reducible apply updLand_b | with_reducible apply updPump_b
    | with_reducible apply wantJournal_b | with_reducible apply updError_b | with_reducible apply land_b
    | refine pair_b (by with_reducible assumption) ?_ | dsimp only [Keeps])

theorem updCfgWritten_b (ok : Bool) (s : State) (hs : Keeps z0 s) : Keeps z0 (updCfgWritten ok s) := by
  unfold updCfgWritten
  repeat' (first
    | with_reducible assumption | intro _ | subst x
    | (extract_lets +onlyGivenNames x; have hx : Keeps z0 x := ?_; clear_value x)
    | (extract_lets +onlyGivenNames x; refine isPart x (by constructor) ?_; subst x)
    | (extract_lets +onlyGivenNames x; clear_value x) | with_reducible apply ite_h | split
    | with_reducible apply cutWritten_b | with_reducible apply updLand_b | with_reducible apply cfgPartDone_b
    | with_reducible apply updError_b | with_reducible apply land_b | refine pair_b (by with_reducible assumption) ?_
    | dsimp only [Keeps])

theorem journalWritten_b (ok : Bool) (s : State) (hs : Keeps z0 s) : Keeps z0 (journalWritten ok s) := by
  unfold journalWritten
  repeat' (first
    | with_reducible assumption | intro _ | subst x
    | (extract_lets +onlyGivenNames x; have hx : Keeps z0 x := ?_; clear_value x)
    | (extract_lets +onlyGivenNames x; refine isPart x (by constructor) ?_; subst x)
    | (extract_lets +onlyGivenNames x; clear_value x) | with_reducible apply ite_h | split
    | with_reducible apply journalLost_b | with_reducible apply landBank_b | with_reducible apply journalDone_b
    | with_reducible apply slotError_b | refine pair_b (by with_reducible assumption) ?_ | dsimp only [Keeps])

theorem slotDone_b (sl : Slot) (ok : Bool) (s : State) (hs : Keeps z0 s) : Keeps z0 (slotDone sl ok s) := by
  unfold slotDone
  repeat' (first
    | with_reducible assumption | intro _ | subst x
    | (extract_lets +onlyGivenNames x; have hx : Keeps z0 x := ?_; clear_value x)
    | (extract_lets +onlyGivenNames x; refine isPart x (by constructor) ?_; subst x)
    | (extract_lets +onlyGivenNames x; clear_value x) | with_reducible apply ite_h | split
    | with_reducible apply journalWritten_b | with_reducible apply updCfgWritten_b | with_reducible apply manifestWritten_b
    | with_reducible apply updWritten_b | with_reducible apply logPrepared_b | with_reducible apply logErased_b
    | with_reducible apply logWritten_b | with_reducible apply gaugeWritten_b | with_reducible apply patWritten_b
    | with_reducible apply cfgWritten_b | with_reducible apply snapWritten_b | with_reducible apply refreshed_b
    | with_reducible apply bufferWritten_b | with_reducible apply scrubbed_b | with_reducible apply refresh_b
    | dsimp only [Keeps])

theorem execFlashSlotDone_b (ok : Bool) (s : State) (hs : Keeps z0 s) : OutB z0 (execFlashSlotDone ok s) := by
  unfold execFlashSlotDone
  repeat' (first
    | with_reducible assumption | with_reducible apply out_b | intro _ | subst x
    | (extract_lets +onlyGivenNames x; have hx : Keeps z0 x := ?_; clear_value x)
    | (extract_lets +onlyGivenNames x; refine isPart x (by constructor) ?_; subst x)
    | (extract_lets +onlyGivenNames x; clear_value x) | with_reducible apply ite_h | split
    | with_reducible apply journalShut_b | with_reducible apply slotDone_b | with_reducible apply grant_b
    | dsimp only [Keeps])

theorem captureCfg_fit {s : State} (w : MapsFit (mapsOf s)) : ImageFit (captureCfg s) :=
  ⟨w.live, regsFit_filter _ _ w.plain, actBank_wf w, w.mask, w.route⟩

theorem cfgsaveBit_b (s : State) (hs : Keeps z0 s) : Keeps z0 (cfgsaveBit s) := by
  unfold cfgsaveBit
  repeat' (first
    | with_reducible assumption | intro _ | subst x
    | (extract_lets +onlyGivenNames x; have hx : Keeps z0 x := ?_; clear_value x)
    | (extract_lets +onlyGivenNames x; refine isPart x (by constructor) ?_; subst x)
    | (extract_lets +onlyGivenNames x; clear_value x) | with_reducible apply ite_h | split | with_reducible apply berrRorsv_b
    | with_reducible apply raiseG_b | with_reducible apply grant_b
    | (refine kept_maps (by with_reducible assumption) ?_; exact fun w => { w with capture := fun c e => by cases e; exact captureCfg_fit w })
    | dsimp only [Keeps])

theorem execCfgsave_b (s : State) (hs : Keeps z0 s) : OutB z0 (execCfgsave s) := by
  unfold execCfgsave
  repeat' (first
    | with_reducible assumption | with_reducible apply out_b | intro _ | subst x
    | (extract_lets +onlyGivenNames x; have hx : Keeps z0 x := ?_; clear_value x)
    | (extract_lets +onlyGivenNames x; refine isPart x (by constructor) ?_; subst x)
    | (extract_lets +onlyGivenNames x; clear_value x) | with_reducible apply ite_h | split | with_reducible apply cfgsaveBit_b
    | with_reducible apply onPage_b | dsimp only [Keeps])

theorem execScrubDue_b (s : State) (hs : Keeps z0 s) : OutB z0 (execScrubDue s) := by
  unfold execScrubDue
  repeat' (first
    | with_reducible assumption | with_reducible apply out_b | intro _ | subst x
    | (extract_lets +onlyGivenNames x; have hx : Keeps z0 x := ?_; clear_value x)
    | (extract_lets +onlyGivenNames x; refine isPart x (by constructor) ?_; subst x)
    | (extract_lets +onlyGivenNames x; clear_value x) | with_reducible apply ite_h | split | with_reducible apply grant_b
    | with_reducible apply arm_b | with_reducible apply disarm_b | dsimp only [Keeps])

theorem execScrublate_b (s : State) (hs : Keeps z0 s) : OutB z0 (execScrublate s) := by
  unfold execScrublate
  repeat' (first
    | with_reducible assumption | with_reducible apply out_b | intro _ | subst x
    | (extract_lets +onlyGivenNames x; have hx : Keeps z0 x := ?_; clear_value x)
    | (extract_lets +onlyGivenNames x; refine isPart x (by constructor) ?_; subst x)
    | (extract_lets +onlyGivenNames x; clear_value x) | with_reducible apply ite_h | split
    | with_reducible apply scrubLateCheck_b | with_reducible apply disarm_b | dsimp only [Keeps])

theorem wantLogNow_b (s : State) (hs : Keeps z0 s) : Keeps z0 (wantLogNow s) := by
  unfold wantLogNow
  repeat' (first
    | with_reducible assumption | intro _ | subst x
    | (extract_lets +onlyGivenNames x; have hx : Keeps z0 x := ?_; clear_value x)
    | (extract_lets +onlyGivenNames x; refine isPart x (by constructor) ?_; subst x)
    | (extract_lets +onlyGivenNames x; clear_value x) | with_reducible apply ite_h | split | with_reducible apply grant_b
    | dsimp only [Keeps])

theorem execLogflush_b (s : State) (hs : Keeps z0 s) : OutB z0 (execLogflush s) := by
  unfold execLogflush
  repeat' (first
    | with_reducible assumption | with_reducible apply out_b | intro _ | subst x
    | (extract_lets +onlyGivenNames x; have hx : Keeps z0 x := ?_; clear_value x)
    | (extract_lets +onlyGivenNames x; refine isPart x (by constructor) ?_; subst x)
    | (extract_lets +onlyGivenNames x; clear_value x) | with_reducible apply ite_h | split | with_reducible apply wantLogNow_b
    | dsimp only [Keeps])

theorem execLogTimer_b (s : State) (hs : Keeps z0 s) : OutB z0 (execLogTimer s) := by
  unfold execLogTimer
  repeat' (first
    | with_reducible assumption | with_reducible apply out_b | intro _ | subst x
    | (extract_lets +onlyGivenNames x; have hx : Keeps z0 x := ?_; clear_value x)
    | (extract_lets +onlyGivenNames x; refine isPart x (by constructor) ?_; subst x)
    | (extract_lets +onlyGivenNames x; clear_value x) | with_reducible apply ite_h | split | with_reducible apply wantLogNow_b
    | with_reducible apply arm_b | with_reducible apply disarm_b | dsimp only [Keeps])

theorem execLogRecordClose_b (src : Fin 1024) (s : State) (hs : Keeps z0 s) : OutB z0 (execLogRecordClose src s) := by
  unfold execLogRecordClose
  repeat' (first
    | with_reducible assumption | with_reducible apply out_b | intro _ | subst x
    | (extract_lets +onlyGivenNames x; have hx : Keeps z0 x := ?_; clear_value x)
    | (extract_lets +onlyGivenNames x; refine isPart x (by constructor) ?_; subst x)
    | (extract_lets +onlyGivenNames x; clear_value x) | with_reducible apply ite_h | split | with_reducible apply closeOpen_b
    | with_reducible apply grant_b | with_reducible apply disarm_b | dsimp only [Keeps])

theorem logReadBody_b (p : Packet) (s : State) (hs : Keeps z0 s) : Keeps z0 (logReadBody p s) := by
  unfold logReadBody
  repeat' (first
    | with_reducible assumption | intro _ | subst x
    | (extract_lets +onlyGivenNames x; have hx : Keeps z0 x := ?_; clear_value x)
    | (extract_lets +onlyGivenNames x; refine isPart x (by constructor) ?_; subst x)
    | (extract_lets +onlyGivenNames x; clear_value x) | with_reducible apply ite_h | split | with_reducible apply slotBusy_b
    | with_reducible apply doneWith_b | with_reducible apply reject_b | dsimp only [Keeps])

theorem execLogRead_b (p : Packet) (s : State) (hs : Keeps z0 s) : OutB z0 (execLogRead p s) := by
  unfold execLogRead
  repeat' (first
    | with_reducible assumption | with_reducible apply out_b | intro _ | subst x
    | (extract_lets +onlyGivenNames x; have hx : Keeps z0 x := ?_; clear_value x)
    | (extract_lets +onlyGivenNames x; refine isPart x (by constructor) ?_; subst x)
    | (extract_lets +onlyGivenNames x; clear_value x) | with_reducible apply ite_h | split | with_reducible apply logReadBody_b
    | with_reducible apply packet_b | dsimp only [Keeps])

theorem logEraseBody_b (p : Packet) (s : State) (hs : Keeps z0 s) : Keeps z0 (logEraseBody p s) := by
  unfold logEraseBody
  repeat' (first
    | with_reducible assumption | intro _ | subst x
    | (extract_lets +onlyGivenNames x; have hx : Keeps z0 x := ?_; clear_value x)
    | (extract_lets +onlyGivenNames x; refine isPart x (by constructor) ?_; subst x)
    | (extract_lets +onlyGivenNames x; clear_value x) | with_reducible apply ite_h | split | with_reducible apply slotBusy_b
    | with_reducible apply reject_b | with_reducible apply closeAll_b | with_reducible apply programCloses_b
    | with_reducible apply grant_b | dsimp only [Keeps])

theorem execLogErase_b (p : Packet) (s : State) (hs : Keeps z0 s) : OutB z0 (execLogErase p s) := by
  unfold execLogErase
  repeat' (first
    | with_reducible assumption | with_reducible apply out_b | intro _ | subst x
    | (extract_lets +onlyGivenNames x; have hx : Keeps z0 x := ?_; clear_value x)
    | (extract_lets +onlyGivenNames x; refine isPart x (by constructor) ?_; subst x)
    | (extract_lets +onlyGivenNames x; clear_value x) | with_reducible apply ite_h | split | with_reducible apply logEraseBody_b
    | with_reducible apply packet_b | dsimp only [Keeps])

theorem logFlushBody_b (p : Packet) (s : State) (hs : Keeps z0 s) : Keeps z0 (logFlushBody p s) := by
  unfold logFlushBody
  repeat' (first
    | with_reducible assumption | intro _ | subst x
    | (extract_lets +onlyGivenNames x; have hx : Keeps z0 x := ?_; clear_value x)
    | (extract_lets +onlyGivenNames x; refine isPart x (by constructor) ?_; subst x)
    | (extract_lets +onlyGivenNames x; clear_value x) | with_reducible apply ite_h | split | with_reducible apply slotBusy_b
    | with_reducible apply doneWith_b | with_reducible apply reject_b | with_reducible apply closeAll_b
    | with_reducible apply grant_b | dsimp only [Keeps])

theorem execLogFlush_b (p : Packet) (s : State) (hs : Keeps z0 s) : OutB z0 (execLogFlush p s) := by
  unfold execLogFlush
  repeat' (first
    | with_reducible assumption | with_reducible apply out_b | intro _ | subst x
    | (extract_lets +onlyGivenNames x; have hx : Keeps z0 x := ?_; clear_value x)
    | (extract_lets +onlyGivenNames x; refine isPart x (by constructor) ?_; subst x)
    | (extract_lets +onlyGivenNames x; clear_value x) | with_reducible apply ite_h | split | with_reducible apply logFlushBody_b
    | with_reducible apply packet_b | dsimp only [Keeps])

theorem reassign_b (srcs : List Nat) (s : State) (hs : Keeps z0 s) : Keeps z0 (reassign srcs s) := by
  unfold reassign
  repeat' (first
    | with_reducible assumption | intro _ | subst x
    | (extract_lets +onlyGivenNames x; have hx : Keeps z0 x := ?_; clear_value x)
    | (extract_lets +onlyGivenNames x; refine isPart x (by constructor) ?_; subst x)
    | (extract_lets +onlyGivenNames x; clear_value x) | with_reducible apply ite_h | split | with_reducible apply assignNow_b
    | with_reducible apply unassign_b | with_reducible apply foldl_b | dsimp only [Keeps])

theorem pendWord_b (g : Nat) (v : Word) (s : State) (hs : Keeps z0 s) : Keeps z0 (pendWord g v s) := by
  unfold pendWord
  repeat' (first
    | with_reducible assumption | intro _ | subst x
    | (extract_lets +onlyGivenNames x; have hx : Keeps z0 x := ?_; clear_value x)
    | (extract_lets +onlyGivenNames x; refine isPart x (by constructor) ?_; subst x)
    | (extract_lets +onlyGivenNames x; clear_value x) | with_reducible apply ite_h | split | with_reducible apply reassign_b
    | with_reducible apply afterIrq_b
    | (refine kept_maps (by with_reducible assumption) ?_; exact fun w => { w with pend := by dsimp only [mapsOf]; exact mwf_mput _ _ _ _ w.pend })
    | dsimp only [Keeps])

theorem execPendWrite_b (g : Fin 64) (v : Word) (s : State) (hs : Keeps z0 s) : OutB z0 (execPendWrite g v s) := by
  unfold execPendWrite
  repeat' (first
    | with_reducible assumption | with_reducible apply out_b | intro _ | subst x
    | (extract_lets +onlyGivenNames x; have hx : Keeps z0 x := ?_; clear_value x)
    | (extract_lets +onlyGivenNames x; refine isPart x (by constructor) ?_; subst x)
    | (extract_lets +onlyGivenNames x; clear_value x) | with_reducible apply ite_h | split | with_reducible apply pendWord_b
    | with_reducible apply onPage_b | dsimp only [Keeps])

theorem maskWord_b (g : Nat) (v : Word) (s : State) (hs : Keeps z0 s) : Keeps z0 (maskWord g v s) := by
  unfold maskWord
  repeat' (first
    | with_reducible assumption | intro _ | subst x
    | (extract_lets +onlyGivenNames x; have hx : Keeps z0 x := ?_; clear_value x)
    | (extract_lets +onlyGivenNames x; refine isPart x (by constructor) ?_; subst x)
    | (extract_lets +onlyGivenNames x; clear_value x) | with_reducible apply ite_h | split | with_reducible apply reassign_b
    | with_reducible apply afterIrq_b
    | (refine kept_maps (by with_reducible assumption) ?_; exact fun w => { w with mask := by dsimp only [mapsOf]; exact mwf_mput _ _ _ _ w.mask })
    | dsimp only [Keeps])

theorem execMaskWrite_b (g : Fin 64) (v : Word) (s : State) (hs : Keeps z0 s) : OutB z0 (execMaskWrite g v s) := by
  unfold execMaskWrite
  repeat' (first
    | with_reducible assumption | with_reducible apply out_b | intro _ | subst x
    | (extract_lets +onlyGivenNames x; have hx : Keeps z0 x := ?_; clear_value x)
    | (extract_lets +onlyGivenNames x; refine isPart x (by constructor) ?_; subst x)
    | (extract_lets +onlyGivenNames x; clear_value x) | with_reducible apply ite_h | split | with_reducible apply maskWord_b
    | with_reducible apply onPage_b | dsimp only [Keeps])

theorem routeByte_b (page : Nat) (off : Nat) (v : Byte) (s : State) (hs : Keeps z0 s) : Keeps z0 (routeByte page off v s) := by
  unfold routeByte
  repeat' (first
    | with_reducible assumption | intro _ | subst x
    | (extract_lets +onlyGivenNames x; have hx : Keeps z0 x := ?_; clear_value x)
    | (extract_lets +onlyGivenNames x; refine isPart x (by constructor) ?_; subst x)
    | (extract_lets +onlyGivenNames x; clear_value x) | with_reducible apply ite_h | split | with_reducible apply reassign_b
    | with_reducible apply berrRsvenc_b | with_reducible apply afterIrq_b
    | (refine kept_maps (by with_reducible assumption) ?_; exact fun w => { w with route := (by dsimp only [mapsOf]; exact mwf_mput _ _ _ _ (mwf_mput _ _ _ _ w.route)), asg := (by dsimp only [mapsOf]; exact mwf_mput _ _ _ _ (mwf_mput _ _ _ _ w.asg)) })
    | dsimp only [Keeps])

theorem execRouteWrite_b (page : Fin 4) (off : Fin 128) (v : Byte) (s : State) (hs : Keeps z0 s) : OutB z0 (execRouteWrite page
    off v s) := by
  unfold execRouteWrite
  repeat' (first
    | with_reducible assumption | with_reducible apply out_b | intro _ | subst x
    | (extract_lets +onlyGivenNames x; have hx : Keeps z0 x := ?_; clear_value x)
    | (extract_lets +onlyGivenNames x; refine isPart x (by constructor) ?_; subst x)
    | (extract_lets +onlyGivenNames x; clear_value x) | with_reducible apply ite_h | split | with_reducible apply routeByte_b
    | with_reducible apply onPage_b | dsimp only [Keeps])

theorem rrmaskByte_b (v : Byte) (s : State) (hs : Keeps z0 s) : Keeps z0 (rrmaskByte v s) := by
  unfold rrmaskByte
  repeat' (first
    | with_reducible assumption | intro _ | subst x
    | (extract_lets +onlyGivenNames x; have hx : Keeps z0 x := ?_; clear_value x)
    | (extract_lets +onlyGivenNames x; refine isPart x (by constructor) ?_; subst x)
    | (extract_lets +onlyGivenNames x; clear_value x) | with_reducible apply ite_h | split | with_reducible apply assignNow_b
    | with_reducible apply plainByte_b | with_reducible apply afterIrq_b | with_reducible apply foldl_b | dsimp only [Keeps])

theorem execRrmaskWrite_b (v : Byte) (s : State) (hs : Keeps z0 s) : OutB z0 (execRrmaskWrite v s) := by
  unfold execRrmaskWrite
  repeat' (first
    | with_reducible assumption | with_reducible apply out_b | intro _ | subst x
    | (extract_lets +onlyGivenNames x; have hx : Keeps z0 x := ?_; clear_value x)
    | (extract_lets +onlyGivenNames x; refine isPart x (by constructor) ?_; subst x)
    | (extract_lets +onlyGivenNames x; clear_value x) | with_reducible apply ite_h | split | with_reducible apply rrmaskByte_b
    | with_reducible apply onPage_b | dsimp only [Keeps])

theorem ovrclrByte_b (i : Nat) (v : Byte) (s : State) (hs : Keeps z0 s) : Keeps z0 (ovrclrByte i v s) := by
  unfold ovrclrByte
  repeat' (first
    | with_reducible assumption | intro _ | subst x
    | (extract_lets +onlyGivenNames x; have hx : Keeps z0 x := ?_; clear_value x)
    | (extract_lets +onlyGivenNames x; refine isPart x (by constructor) ?_; subst x)
    | (extract_lets +onlyGivenNames x; clear_value x) | with_reducible apply ite_h | split | dsimp only [Keeps])

theorem wlclrByte_b (i : Nat) (v : Byte) (s : State) (hs : Keeps z0 s) : Keeps z0 (wlclrByte i v s) := by
  unfold wlclrByte
  repeat' (first
    | with_reducible assumption | intro _ | subst x
    | (extract_lets +onlyGivenNames x; have hx : Keeps z0 x := ?_; clear_value x)
    | (extract_lets +onlyGivenNames x; refine isPart x (by constructor) ?_; subst x)
    | (extract_lets +onlyGivenNames x; clear_value x) | with_reducible apply ite_h | split | dsimp only [Keeps])

theorem testtrigByte_b (i : Nat) (v : Byte) (s : State) (hs : Keeps z0 s) : Keeps z0 (testtrigByte i v s) := by
  unfold testtrigByte
  repeat' (first
    | with_reducible assumption | intro _ | subst x
    | (extract_lets +onlyGivenNames x; have hx : Keeps z0 x := ?_; clear_value x)
    | (extract_lets +onlyGivenNames x; refine isPart x (by constructor) ?_; subst x)
    | (extract_lets +onlyGivenNames x; clear_value x) | with_reducible apply ite_h | split | with_reducible apply raiseW_b
    | with_reducible apply foldl_b | dsimp only [Keeps])

theorem execOvrclr_b (i : Fin 8) (v : Byte) (s : State) (hs : Keeps z0 s) : OutB z0 (execOvrclr i v s) := by
  unfold execOvrclr
  repeat' (first
    | with_reducible assumption | with_reducible apply out_b | intro _ | subst x
    | (extract_lets +onlyGivenNames x; have hx : Keeps z0 x := ?_; clear_value x)
    | (extract_lets +onlyGivenNames x; refine isPart x (by constructor) ?_; subst x)
    | (extract_lets +onlyGivenNames x; clear_value x) | with_reducible apply ite_h | split | with_reducible apply ovrclrByte_b
    | with_reducible apply onPage_b | dsimp only [Keeps])

theorem execWlclr_b (i : Fin 8) (v : Byte) (s : State) (hs : Keeps z0 s) : OutB z0 (execWlclr i v s) := by
  unfold execWlclr
  repeat' (first
    | with_reducible assumption | with_reducible apply out_b | intro _ | subst x
    | (extract_lets +onlyGivenNames x; have hx : Keeps z0 x := ?_; clear_value x)
    | (extract_lets +onlyGivenNames x; refine isPart x (by constructor) ?_; subst x)
    | (extract_lets +onlyGivenNames x; clear_value x) | with_reducible apply ite_h | split | with_reducible apply wlclrByte_b
    | with_reducible apply onPage_b | dsimp only [Keeps])

theorem execTesttrig_b (i : Fin 2) (v : Byte) (s : State) (hs : Keeps z0 s) : OutB z0 (execTesttrig i v s) := by
  unfold execTesttrig
  repeat' (first
    | with_reducible assumption | with_reducible apply out_b | intro _ | subst x
    | (extract_lets +onlyGivenNames x; have hx : Keeps z0 x := ?_; clear_value x)
    | (extract_lets +onlyGivenNames x; refine isPart x (by constructor) ?_; subst x)
    | (extract_lets +onlyGivenNames x; clear_value x) | with_reducible apply ite_h | split | with_reducible apply testtrigByte_b
    | with_reducible apply onPage_b | dsimp only [Keeps])

theorem execIntPulseEnd_b (t : Fin 4) (s : State) (hs : Keeps z0 s) : OutB z0 (execIntPulseEnd t s) := by
  unfold execIntPulseEnd
  repeat' (first
    | with_reducible assumption | with_reducible apply out_b | intro _ | subst x
    | (extract_lets +onlyGivenNames x; have hx : Keeps z0 x := ?_; clear_value x)
    | (extract_lets +onlyGivenNames x; refine isPart x (by constructor) ?_; subst x)
    | (extract_lets +onlyGivenNames x; clear_value x) | with_reducible apply ite_h | split | with_reducible apply disarm_b
    | dsimp only [Keeps])

theorem execFwIntService_b (src : Fin 1024) (s : State) (hs : Keeps z0 s) : OutB z0 (execFwIntService src s) := by
  unfold execFwIntService
  repeat' (first
    | with_reducible assumption | with_reducible apply out_b | intro _ | subst x
    | (extract_lets +onlyGivenNames x; have hx : Keeps z0 x := ?_; clear_value x)
    | (extract_lets +onlyGivenNames x; refine isPart x (by constructor) ?_; subst x)
    | (extract_lets +onlyGivenNames x; clear_value x) | with_reducible apply ite_h | split | with_reducible apply afterIrq_b
    | with_reducible apply unassign_b | with_reducible apply grant_b
    | (refine kept_maps (by with_reducible assumption) ?_; exact fun w => { w with pend := by dsimp only [mapsOf]; exact mwf_mput _ _ _ _ w.pend })
    | dsimp only [Keeps])

theorem repair_b (sp r b : Nat) (bs : List Byte) (s : State) (hs : Keeps z0 s) : Keeps z0 (repair sp r b bs s) := by
  unfold repair
  refine raiseG_b _ _ _ (logSecurity_b _ _ _ _ (kept_maps (kept_otp hs fun h => ?_) fun w => ?_))
  rotate_left
  · have hm : mwf 0 ((bs.zipIdx).foldl (fun m (v, i) => mput 0 m (64 * sp + b + i) (fuse m sp (b + i) ||| v)) ((List.range 64).foldl
        (fun m i => mput 0 m (64 * sp + i) (fuse m sp i ||| fuse s.otp.arr (fuseHome s.otp r) i)) s.otp.arr)) = true :=
      mwf_foldl 0 _ (fun _ _ => mwf_mput _ _ _ _) _ _ (mwf_foldl 0 _ (fun _ _ => mwf_mput _ _ _ _) _ _ w.arr)
    split <;> exact { w with arr := hm }
  have hd : ∀ k i, (mget 0 z0.otp.arr k).getLsbD i = true → (mget 0 ((bs.zipIdx).foldl (fun m (v, i) =>
      mput 0 m (64 * sp + b + i) (fuse m sp (b + i) ||| v)) ((List.range 64).foldl (fun m i =>
      mput 0 m (64 * sp + i) (fuse m sp i ||| fuse s.otp.arr (fuseHome s.otp r) i)) s.otp.arr)) k).getLsbD i = true := by
    intro k i hk
    refine foldl_or_b _ (fun m x j i hm => ?_) _ _ k i
      (foldl_or_b _ (fun m x j i hm => or_b m _ _ j i hm) _ _ k i (h.data k i hk))
    obtain ⟨v, n⟩ := x
    dsimp only
    have e : fuse m sp (b + n) = mget 0 m (64 * sp + b + n) := by rw [fuse, Nat.add_assoc]
    rw [e]
    exact or_b m _ v j i hm
  have more : ∀ (t u v : BitVec 25), (∀ b, t.getLsbD b = true → u.getLsbD b = true) → ∀ b, t.getLsbD b = true → (u ||| v).getLsbD b = true :=
    fun t u v h b g => by rw [BitVec.getLsbD_or, h b g, Bool.true_or]
  split
  · exact ⟨hd, h.writeLock, h.readLock, more _ _ _ h.tag14, h.tag15⟩
  · exact ⟨hd, h.writeLock, h.readLock, h.tag14, more _ _ _ h.tag15⟩

theorem partly_b (bs : List Byte) (s : State) (hs : Keeps z0 s) : Keeps z0 (partly bs s).2 := by
  unfold partly
  repeat' (first
    | with_reducible assumption | intro _ | subst x
    | (extract_lets +onlyGivenNames x; have hx : Keeps z0 x := ?_; clear_value x)
    | (extract_lets +onlyGivenNames x; refine isPart x (by constructor) ?_; subst x)
    | (extract_lets +onlyGivenNames x; clear_value x) | with_reducible apply ite_h | split | with_reducible apply drawNat_b
    | refine pair_b (by with_reducible assumption) ?_ | dsimp only [Keeps])

theorem programFuses_b (r : Nat) (b : Nat) (bs : List Byte) (ok : Bool) (s : State) (hs : Keeps z0 s) : Keeps z0 (programFuses r
    b bs ok s) := by
  unfold programFuses
  repeat' (first
    | with_reducible assumption | intro _ | subst x
    | (extract_lets +onlyGivenNames x; have hx : Keeps z0 x := ?_; clear_value x)
    | (extract_lets +onlyGivenNames x; refine isPart x (by constructor) ?_; subst x)
    | (extract_lets +onlyGivenNames x; clear_value x) | with_reducible apply ite_h | split | with_reducible apply partly_b
    | with_reducible apply repair_b | with_reducible apply burn_b | with_reducible apply slotError_b
    | with_reducible apply doneWith_b | with_reducible apply logSecurity_b | with_reducible apply raiseG_b
    | refine pair_b (by with_reducible assumption) ?_ | dsimp only [Keeps])

theorem otpProgramBody_b (p : Packet) (ok : Bool) (s : State) (hs : Keeps z0 s) : Keeps z0 (otpProgramBody p ok s) := by
  unfold otpProgramBody
  repeat' (first
    | with_reducible assumption | intro _ | subst x
    | (extract_lets +onlyGivenNames x; have hx : Keeps z0 x := ?_; clear_value x)
    | (extract_lets +onlyGivenNames x; refine isPart x (by constructor) ?_; subst x)
    | (extract_lets +onlyGivenNames x; clear_value x) | with_reducible apply ite_h | split | with_reducible apply programFuses_b
    | with_reducible apply rejectOpen_b | with_reducible apply reject_b | dsimp only [Keeps])

theorem execOtpProgram_b (p : Packet) (ok : Bool) (s : State) (hs : Keeps z0 s) : OutB z0 (execOtpProgram p ok s) := by
  unfold execOtpProgram
  repeat' (first
    | with_reducible assumption | with_reducible apply out_b | intro _ | subst x
    | (extract_lets +onlyGivenNames x; have hx : Keeps z0 x := ?_; clear_value x)
    | (extract_lets +onlyGivenNames x; refine isPart x (by constructor) ?_; subst x)
    | (extract_lets +onlyGivenNames x; clear_value x) | with_reducible apply ite_h | split
    | with_reducible apply otpProgramBody_b | with_reducible apply packet_b | dsimp only [Keeps])

theorem or_fuse {n : Nat} (m : Map (BitVec n)) (k : Nat) (v : BitVec n) (j b : Nat) (h : (mget 0 m j).getLsbD b = true) :
    (mget 0 (mput 0 m k (mget 0 m k ||| v)) j).getLsbD b = true := by
  by_cases e : j = k
  · subst e
    by_cases z : mget 0 m j ||| v = 0
    · have := congrArg (fun x : BitVec n => x.getLsbD b) z
      rw [BitVec.getLsbD_or, h] at this
      simp at this
    · rw [mget_mput_of_ne z, BitVec.getLsbD_or, h, Bool.true_or]
  · rw [mget_mput_other _ _ e]; exact h

theorem burnLocks_b (r : Nat) (w rd : BitVec 5) (s : State) (hs : Keeps z0 s) : Keeps z0 (burnLocks r w rd s) :=
  kept_maps (kept_otp hs fun h => ⟨h.data, fun j b hj => or_fuse _ _ _ _ _ (h.writeLock j b hj),
    fun j b hj => or_fuse _ _ _ _ _ (h.readLock j b hj), h.tag14, h.tag15⟩)
    fun m => { m with wl := mwf_mput _ _ _ _ m.wl, rl := mwf_mput _ _ _ _ m.rl }

theorem lockFailed_b (r : Nat) (w : Bool) (rd : Bool) (s : State) (hs : Keeps z0 s) : Keeps z0 (lockFailed r w rd s) := by
  unfold lockFailed
  repeat' (first
    | with_reducible assumption | intro _ | subst x
    | (extract_lets +onlyGivenNames x; have hx : Keeps z0 x := ?_; clear_value x)
    | (extract_lets +onlyGivenNames x; refine isPart x (by constructor) ?_; subst x)
    | (extract_lets +onlyGivenNames x; clear_value x) | with_reducible apply ite_h | split | with_reducible apply burnLocks_b
    | with_reducible apply drawNat_b | refine pair_b (by with_reducible assumption) ?_ | dsimp only [Keeps])

theorem lockFuses_b (r : Nat) (w : Bool) (rd : Bool) (ok : Bool) (s : State) (hs : Keeps z0 s) : Keeps z0 (lockFuses r w rd ok
    s) := by
  unfold lockFuses
  repeat' (first
    | with_reducible assumption | intro _ | subst x
    | (extract_lets +onlyGivenNames x; have hx : Keeps z0 x := ?_; clear_value x)
    | (extract_lets +onlyGivenNames x; refine isPart x (by constructor) ?_; subst x)
    | (extract_lets +onlyGivenNames x; clear_value x) | with_reducible apply ite_h | split | with_reducible apply lockFailed_b
    | with_reducible apply burnLocks_b | with_reducible apply slotError_b | with_reducible apply doneWith_b
    | with_reducible apply logSecurity_b | with_reducible apply raiseG_b | dsimp only [Keeps])

theorem otpLockBody_b (p : Packet) (ok : Bool) (s : State) (hs : Keeps z0 s) : Keeps z0 (otpLockBody p ok s) := by
  unfold otpLockBody
  repeat' (first
    | with_reducible assumption | intro _ | subst x
    | (extract_lets +onlyGivenNames x; have hx : Keeps z0 x := ?_; clear_value x)
    | (extract_lets +onlyGivenNames x; refine isPart x (by constructor) ?_; subst x)
    | (extract_lets +onlyGivenNames x; clear_value x) | with_reducible apply ite_h | split | with_reducible apply lockFuses_b
    | with_reducible apply rejectOpen_b | with_reducible apply reject_b | dsimp only [Keeps])

theorem execOtpLock_b (p : Packet) (ok : Bool) (s : State) (hs : Keeps z0 s) : OutB z0 (execOtpLock p ok s) := by
  unfold execOtpLock
  repeat' (first
    | with_reducible assumption | with_reducible apply out_b | intro _ | subst x
    | (extract_lets +onlyGivenNames x; have hx : Keeps z0 x := ?_; clear_value x)
    | (extract_lets +onlyGivenNames x; refine isPart x (by constructor) ?_; subst x)
    | (extract_lets +onlyGivenNames x; clear_value x) | with_reducible apply ite_h | split | with_reducible apply otpLockBody_b
    | with_reducible apply packet_b | dsimp only [Keeps])

theorem updOpen_b (len : Nat) (s : State) (hs : Keeps z0 s) : Keeps z0 (updOpen len s) := by
  unfold updOpen
  repeat' (first
    | with_reducible assumption | intro _ | subst x
    | (extract_lets +onlyGivenNames x; have hx : Keeps z0 x := ?_; clear_value x)
    | (extract_lets +onlyGivenNames x; refine isPart x (by constructor) ?_; subst x)
    | (extract_lets +onlyGivenNames x; clear_value x) | with_reducible apply ite_h | split | with_reducible apply slotBusy_b
    | with_reducible apply updState_b | with_reducible apply raiseG_b | with_reducible apply grant_b | dsimp only [Keeps])

theorem updBeginBody_b (p : Packet) (s : State) (hs : Keeps z0 s) : Keeps z0 (updBeginBody p s) := by
  unfold updBeginBody
  repeat' (first
    | with_reducible assumption | intro _ | subst x
    | (extract_lets +onlyGivenNames x; have hx : Keeps z0 x := ?_; clear_value x)
    | (extract_lets +onlyGivenNames x; refine isPart x (by constructor) ?_; subst x)
    | (extract_lets +onlyGivenNames x; clear_value x) | with_reducible apply ite_h | split | with_reducible apply updOpen_b
    | with_reducible apply rejectOpen_b | with_reducible apply reject_b | dsimp only [Keeps])

theorem execUpdBegin_b (p : Packet) (s : State) (hs : Keeps z0 s) : OutB z0 (execUpdBegin p s) := by
  unfold execUpdBegin
  repeat' (first
    | with_reducible assumption | with_reducible apply out_b | intro _ | subst x
    | (extract_lets +onlyGivenNames x; have hx : Keeps z0 x := ?_; clear_value x)
    | (extract_lets +onlyGivenNames x; refine isPart x (by constructor) ?_; subst x)
    | (extract_lets +onlyGivenNames x; clear_value x) | with_reducible apply ite_h | split | with_reducible apply updBeginBody_b
    | with_reducible apply packet_b | dsimp only [Keeps])

theorem checkManifest_b (k : Bool) (s : State) (hs : Keeps z0 s) : Keeps z0 (checkManifest k s) := by
  unfold checkManifest
  repeat' (first
    | with_reducible assumption | intro _ | subst x
    | (extract_lets +onlyGivenNames x; have hx : Keeps z0 x := ?_; clear_value x)
    | (extract_lets +onlyGivenNames x; refine isPart x (by constructor) ?_; subst x)
    | (extract_lets +onlyGivenNames x; clear_value x) | with_reducible apply ite_h | split | with_reducible apply updError_b
    | with_reducible apply sigFail_b | with_reducible apply raiseG_b | dsimp only [Keeps])

theorem updReceive_b (k : Bool) (bs : List Byte) (s : State) (hs : Keeps z0 s) : Keeps z0 (updReceive k bs s) := by
  unfold updReceive
  repeat' (first
    | with_reducible assumption | intro _ | subst x
    | (extract_lets +onlyGivenNames x; have hx : Keeps z0 x := ?_; clear_value x)
    | (extract_lets +onlyGivenNames x; refine isPart x (by constructor) ?_; subst x)
    | (extract_lets +onlyGivenNames x; clear_value x) | with_reducible apply ite_h | split
    | with_reducible apply checkManifest_b | with_reducible apply takeBytes_b | with_reducible apply updPump_b
    | with_reducible apply slotBusy_b | with_reducible apply slotEnd_b | with_reducible apply grant_b | dsimp only [Keeps])

theorem updDataBody_b (k : Bool) (p : Packet) (s : State) (hs : Keeps z0 s) : Keeps z0 (updDataBody k p s) := by
  unfold updDataBody
  repeat' (first
    | with_reducible assumption | intro _ | subst x
    | (extract_lets +onlyGivenNames x; have hx : Keeps z0 x := ?_; clear_value x)
    | (extract_lets +onlyGivenNames x; refine isPart x (by constructor) ?_; subst x)
    | (extract_lets +onlyGivenNames x; clear_value x) | with_reducible apply ite_h | split | with_reducible apply updReceive_b
    | with_reducible apply rejectOpen_b | with_reducible apply reject_b | with_reducible apply updState_b
    | with_reducible apply raiseG_b | dsimp only [Keeps])

theorem execUpdData_b (p : Packet) (k : Bool) (s : State) (hs : Keeps z0 s) : OutB z0 (execUpdData p k s) := by
  unfold execUpdData
  repeat' (first
    | with_reducible assumption | with_reducible apply out_b | intro _ | subst x
    | (extract_lets +onlyGivenNames x; have hx : Keeps z0 x := ?_; clear_value x)
    | (extract_lets +onlyGivenNames x; refine isPart x (by constructor) ?_; subst x)
    | (extract_lets +onlyGivenNames x; clear_value x) | with_reducible apply ite_h | split | with_reducible apply updDataBody_b
    | with_reducible apply packet_b | dsimp only [Keeps])

theorem updEndBody_b (p : Packet) (s : State) (hs : Keeps z0 s) : Keeps z0 (updEndBody p s) := by
  unfold updEndBody
  repeat' (first
    | with_reducible assumption | intro _ | subst x
    | (extract_lets +onlyGivenNames x; have hx : Keeps z0 x := ?_; clear_value x)
    | (extract_lets +onlyGivenNames x; refine isPart x (by constructor) ?_; subst x)
    | (extract_lets +onlyGivenNames x; clear_value x) | with_reducible apply ite_h | split | with_reducible apply slotBusy_b
    | with_reducible apply rejectOpen_b | with_reducible apply reject_b | with_reducible apply updState_b
    | with_reducible apply grant_b | dsimp only [Keeps])

theorem execUpdEnd_b (p : Packet) (s : State) (hs : Keeps z0 s) : OutB z0 (execUpdEnd p s) := by
  unfold execUpdEnd
  repeat' (first
    | with_reducible assumption | with_reducible apply out_b | intro _ | subst x
    | (extract_lets +onlyGivenNames x; have hx : Keeps z0 x := ?_; clear_value x)
    | (extract_lets +onlyGivenNames x; refine isPart x (by constructor) ?_; subst x)
    | (extract_lets +onlyGivenNames x; clear_value x) | with_reducible apply ite_h | split | with_reducible apply updEndBody_b
    | with_reducible apply packet_b | dsimp only [Keeps])

theorem updVerified_b (k : Bool) (m : Manifest) (s : State) (hs : Keeps z0 s) : Keeps z0 (updVerified k m s) := by
  unfold updVerified
  repeat' (first
    | with_reducible assumption | intro _ | subst x
    | (extract_lets +onlyGivenNames x; have hx : Keeps z0 x := ?_; clear_value x)
    | (extract_lets +onlyGivenNames x; refine isPart x (by constructor) ?_; subst x)
    | (extract_lets +onlyGivenNames x; clear_value x) | with_reducible apply ite_h | split | with_reducible apply updError_b
    | with_reducible apply sigFail_b | with_reducible apply slotEnd_b | with_reducible apply updState_b
    | with_reducible apply raiseIf_b | with_reducible apply raiseG_b | with_reducible apply grant_b | dsimp only [Keeps])

theorem execUpdVerifyEnd_b (k : Bool) (s : State) (hs : Keeps z0 s) : OutB z0 (execUpdVerifyEnd k s) := by
  unfold execUpdVerifyEnd
  repeat' (first
    | with_reducible assumption | with_reducible apply out_b | intro _ | subst x
    | (extract_lets +onlyGivenNames x; have hx : Keeps z0 x := ?_; clear_value x)
    | (extract_lets +onlyGivenNames x; refine isPart x (by constructor) ?_; subst x)
    | (extract_lets +onlyGivenNames x; clear_value x) | with_reducible apply ite_h | split | with_reducible apply updVerified_b
    | dsimp only [Keeps])

theorem execUpdResumeInfo_b (p : Packet) (s : State) (hs : Keeps z0 s) : OutB z0 (execUpdResumeInfo p s) := by
  unfold execUpdResumeInfo
  repeat' (first
    | with_reducible assumption | with_reducible apply out_b | intro _ | subst x
    | (extract_lets +onlyGivenNames x; have hx : Keeps z0 x := ?_; clear_value x)
    | (extract_lets +onlyGivenNames x; refine isPart x (by constructor) ?_; subst x)
    | (extract_lets +onlyGivenNames x; clear_value x) | with_reducible apply ite_h | split | with_reducible apply packet_b
    | with_reducible apply doneWith_b | with_reducible apply rejectOpen_b | with_reducible apply reject_b | dsimp only [Keeps])

theorem execUpdConfirm_b (p : Packet) (s : State) (hs : Keeps z0 s) : OutB z0 (execUpdConfirm p s) := by
  unfold execUpdConfirm
  repeat' (first
    | with_reducible assumption | with_reducible apply out_b | intro _ | subst x
    | (extract_lets +onlyGivenNames x; have hx : Keeps z0 x := ?_; clear_value x)
    | (extract_lets +onlyGivenNames x; refine isPart x (by constructor) ?_; subst x)
    | (extract_lets +onlyGivenNames x; clear_value x) | with_reducible apply ite_h | split | with_reducible apply confirm_b
    | with_reducible apply packet_b | with_reducible apply slotBusy_b | with_reducible apply rejectOpen_b
    | with_reducible apply reject_b | dsimp only [Keeps])

theorem execTconfExpire_b (s : State) (hs : Keeps z0 s) : OutB z0 (execTconfExpire s) := by
  unfold execTconfExpire
  repeat' (first
    | with_reducible assumption | with_reducible apply out_b | intro _ | subst x
    | (extract_lets +onlyGivenNames x; have hx : Keeps z0 x := ?_; clear_value x)
    | (extract_lets +onlyGivenNames x; refine isPart x (by constructor) ?_; subst x)
    | (extract_lets +onlyGivenNames x; clear_value x) | with_reducible apply ite_h | split | with_reducible apply confirm_b
    | with_reducible apply disarm_b | dsimp only [Keeps])

theorem execTtrialExpire_b (s : State) (hs : Keeps z0 s) : OutB z0 (execTtrialExpire s) := by
  unfold execTtrialExpire
  repeat' (first
    | with_reducible assumption | with_reducible apply out_b | intro _ | subst x
    | (extract_lets +onlyGivenNames x; have hx : Keeps z0 x := ?_; clear_value x)
    | (extract_lets +onlyGivenNames x; refine isPart x (by constructor) ?_; subst x)
    | (extract_lets +onlyGivenNames x; clear_value x) | with_reducible apply ite_h | split | with_reducible apply fallback_b
    | with_reducible apply disarm_b | dsimp only [Keeps])

theorem updRollbackBody_b (p : Packet) (s : State) (hs : Keeps z0 s) : Keeps z0 (updRollbackBody p s) := by
  unfold updRollbackBody
  repeat' (first
    | with_reducible assumption | intro _ | subst x
    | (extract_lets +onlyGivenNames x; have hx : Keeps z0 x := ?_; clear_value x)
    | (extract_lets +onlyGivenNames x; refine isPart x (by constructor) ?_; subst x)
    | (extract_lets +onlyGivenNames x; clear_value x) | with_reducible apply ite_h | split
    | with_reducible apply cancelSession_b | with_reducible apply wantJournal_b | with_reducible apply dropSession_b
    | with_reducible apply doneWith_b | with_reducible apply rejectOpen_b | with_reducible apply reject_b
    | with_reducible apply fallback_b | with_reducible apply updState_b | with_reducible apply raiseG_b
    | with_reducible apply grant_b | dsimp only [Keeps])

theorem execUpdRollback_b (p : Packet) (s : State) (hs : Keeps z0 s) : OutB z0 (execUpdRollback p s) := by
  unfold execUpdRollback
  repeat' (first
    | with_reducible assumption | with_reducible apply out_b | intro _ | subst x
    | (extract_lets +onlyGivenNames x; have hx : Keeps z0 x := ?_; clear_value x)
    | (extract_lets +onlyGivenNames x; refine isPart x (by constructor) ?_; subst x)
    | (extract_lets +onlyGivenNames x; clear_value x) | with_reducible apply ite_h | split
    | with_reducible apply updRollbackBody_b | with_reducible apply packet_b | dsimp only [Keeps])

theorem activateBit_b (s : State) (hs : Keeps z0 s) : Keeps z0 (activateBit s) := by
  unfold activateBit
  repeat' (first
    | with_reducible assumption | intro _ | subst x
    | (extract_lets +onlyGivenNames x; have hx : Keeps z0 x := ?_; clear_value x)
    | (extract_lets +onlyGivenNames x; refine isPart x (by constructor) ?_; subst x)
    | (extract_lets +onlyGivenNames x; clear_value x) | with_reducible apply ite_h | split | with_reducible apply requestReset_b
    | with_reducible apply berrRorsv_b | dsimp only [Keeps])

theorem execUpdctlActivate_b (s : State) (hs : Keeps z0 s) : OutB z0 (execUpdctlActivate s) := by
  unfold execUpdctlActivate
  repeat' (first
    | with_reducible assumption | with_reducible apply out_b | intro _ | subst x
    | (extract_lets +onlyGivenNames x; have hx : Keeps z0 x := ?_; clear_value x)
    | (extract_lets +onlyGivenNames x; refine isPart x (by constructor) ?_; subst x)
    | (extract_lets +onlyGivenNames x; clear_value x) | with_reducible apply ite_h | split | with_reducible apply activateBit_b
    | with_reducible apply onPage_b | dsimp only [Keeps])

theorem readEffect_b (p : Nat) (o : Nat) (s : State) (hs : Keeps z0 s) : Keeps z0 (readEffect p o s) := by
  unfold readEffect
  repeat' (first
    | with_reducible assumption | intro _ | subst x
    | (extract_lets +onlyGivenNames x; have hx : Keeps z0 x := ?_; clear_value x)
    | (extract_lets +onlyGivenNames x; refine isPart x (by constructor) ?_; subst x)
    | (extract_lets +onlyGivenNames x; clear_value x) | with_reducible apply ite_h | split | with_reducible apply setCal_b
    | (refine kept_maps (by with_reducible assumption) ?_; exact fun w => { w with late := by dsimp only [mapsOf]; exact mwf_mput _ _ _ _ w.late })
    | dsimp only [Keeps])

theorem readOne_b (p : Nat) (o : Nat) (s : State) (hs : Keeps z0 s) : Keeps z0 (readOne p o s).2 := by
  unfold readOne
  repeat' (first
    | with_reducible assumption | intro _ | subst x
    | (extract_lets +onlyGivenNames x; have hx : Keeps z0 x := ?_; clear_value x)
    | (extract_lets +onlyGivenNames x; refine isPart x (by constructor) ?_; subst x)
    | (extract_lets +onlyGivenNames x; clear_value x) | with_reducible apply ite_h | split | with_reducible apply readEffect_b
    | with_reducible apply schIdxNext_b | with_reducible apply berrUnalloc_b | dsimp only [Keeps])

theorem readSeq_b (p n o : Nat) (s : State) (hs : Keeps z0 s) : Keeps z0 (readSeq p n o s).2 := by
  induction n generalizing o s with
  | zero => exact hs
  | succ n ih =>
    unfold readSeq
    split
    · exact hs
    · exact ih _ _ (readOne_b _ _ _ hs)

theorem setHeld_b (l : List (Nat × Byte)) (s : State) (hl : MapsFit (mapsOf s) → Rising l) (hs : Keeps z0 s) : Keeps z0 (setHeld l s) :=
  kept_maps hs fun w => { w with held := hl w }

theorem holdByte_b (k : Nat) (n : Nat) (at_ : Nat) (v : Byte) (done : Nat → State → State) (s : State) (hdone : ∀ (v0 : Nat) (v1
    : State), Keeps z0 v1 → Keeps z0 (done v0 v1)) (hs : Keeps z0 s) : Keeps z0 (holdByte k n at_ v done s) := by
  unfold holdByte
  repeat' (first
    | (with_reducible apply setHeld_b; exact fun w => rising_filter _ _ w.held)
    | (with_reducible apply setHeld_b; exact fun w => rising_minsert _ _ _ w.held)
    | with_reducible assumption | intro _ | subst x
    | (extract_lets +onlyGivenNames x; have hx : Keeps z0 x := ?_; clear_value x)
    | (extract_lets +onlyGivenNames x; refine isPart x (by constructor) ?_; subst x)
    | (extract_lets +onlyGivenNames x; clear_value x) | with_reducible apply ite_h | split | with_reducible apply setHeld_b
    | with_reducible apply hdone | dsimp only [Keeps])

theorem lkGate_b (f : State → State) (s : State) (hf : ∀ (v0 : State), Keeps z0 v0 → Keeps z0 (f v0)) (hs : Keeps z0 s) : Keeps
    z0 (lkGate f s) := by
  unfold lkGate
  repeat' (first
    | with_reducible assumption | intro _ | subst x
    | (extract_lets +onlyGivenNames x; have hx : Keeps z0 x := ?_; clear_value x)
    | (extract_lets +onlyGivenNames x; refine isPart x (by constructor) ?_; subst x)
    | (extract_lets +onlyGivenNames x; clear_value x) | with_reducible apply ite_h | split | with_reducible apply touchSession_b
    | with_reducible apply berrLkdeny_b | with_reducible apply hf | dsimp only [Keeps])

theorem writeTable_b (p o : Nat) (v : Byte) (s : State) (hs : Keeps z0 s) : Keeps z0 (writeTable p o v s) := by
  unfold writeTable
  split
  · rename_i f _
    have hw : ∀ s, Keeps z0 s → Keeps z0 (holdByte (key p f.off) f.len (key p o) v (fun n => plainWide p f n) s) :=
      fun s h => holdByte_b _ _ _ _ _ s (fun n s h => plainWide_b _ _ _ _ h) h
    exact ite_b (lkGate_b _ _ hw hs) (hw s hs)
  · exact ite_b (berrRorsv_b _ hs) (ite_b (lkGate_b _ _ (fun s h => plainByte_b _ _ _ _ h) hs) (plainByte_b _ _ _ _ hs))

theorem onBit_b (v : Byte) (i : Nat) (f : State → State) (s : State) (hf : ∀ (v0 : State), Keeps z0 v0 → Keeps z0 (f v0)) (hs :
    Keeps z0 s) : Keeps z0 (onBit v i f s) := by
  unfold onBit
  repeat' (first
    | with_reducible assumption | intro _ | subst x
    | (extract_lets +onlyGivenNames x; have hx : Keeps z0 x := ?_; clear_value x)
    | (extract_lets +onlyGivenNames x; refine isPart x (by constructor) ?_; subst x)
    | (extract_lets +onlyGivenNames x; clear_value x) | with_reducible apply ite_h | split | with_reducible apply hf
    | dsimp only [Keeps])

theorem write00_b (o : Nat) (v : Byte) (s : State) (hs : Keeps z0 s) : Keeps z0 (write00 o v s) := by
  unfold write00
  repeat' (first
    | with_reducible assumption | intro _ | subst x
    | (extract_lets +onlyGivenNames x; have hx : Keeps z0 x := ?_; clear_value x)
    | (extract_lets +onlyGivenNames x; refine isPart x (by constructor) ?_; subst x)
    | (extract_lets +onlyGivenNames x; clear_value x) | with_reducible apply ite_h | split | with_reducible apply onBit_b
    | with_reducible apply busclrBit_b | with_reducible apply rstclrBit_b | with_reducible apply rstkeyByte_b
    | with_reducible apply berrRorsv_b | dsimp only [Keeps])

theorem write01_b (o : Nat) (v : Byte) (s : State) (hs : Keeps z0 s) : Keeps z0 (write01 o v s) := by
  unfold write01
  repeat' (first
    | with_reducible assumption | intro _ | subst x
    | (extract_lets +onlyGivenNames x; have hx : Keeps z0 x := ?_; clear_value x)
    | (extract_lets +onlyGivenNames x; refine isPart x (by constructor) ?_; subst x)
    | (extract_lets +onlyGivenNames x; clear_value x) | with_reducible apply ite_h | split | with_reducible apply onBit_b
    | with_reducible apply writeTable_b | with_reducible apply holdByte_b | with_reducible apply quietcfgByte_b
    | with_reducible apply schClear_b | with_reducible apply schCopy_b | with_reducible apply schSwap_b
    | with_reducible apply schent3Byte_b | with_reducible apply nomfreqWord_b | with_reducible apply cyccfgByte_b
    | with_reducible apply toFree_b | with_reducible apply plainByte_b | with_reducible apply berrRorsv_b | dsimp only [Keeps])

theorem write24_b (o : Nat) (v : Byte) (s : State) (hs : Keeps z0 s) : Keeps z0 (write24 o v s) := by
  unfold write24
  repeat' (first
    | with_reducible assumption | intro _ | subst x
    | (extract_lets +onlyGivenNames x; have hx : Keeps z0 x := ?_; clear_value x)
    | (extract_lets +onlyGivenNames x; refine isPart x (by constructor) ?_; subst x)
    | (extract_lets +onlyGivenNames x; clear_value x) | with_reducible apply ite_h | split | with_reducible apply writeTable_b
    | with_reducible apply ignoreSafeIn_b | with_reducible apply wdStop_b | dsimp only [Keeps])

theorem write38_b (o : Nat) (v : Byte) (s : State) (hs : Keeps z0 s) : Keeps z0 (write38 o v s) := by
  unfold write38
  repeat' (first
    | with_reducible assumption | intro _ | subst x
    | (extract_lets +onlyGivenNames x; have hx : Keeps z0 x := ?_; clear_value x)
    | (extract_lets +onlyGivenNames x; refine isPart x (by constructor) ?_; subst x)
    | (extract_lets +onlyGivenNames x; clear_value x) | with_reducible apply ite_h | split | with_reducible apply onBit_b
    | with_reducible apply writeTable_b | with_reducible apply hkseqStoreBit_b | with_reducible apply hkseqidxByte_b
    | with_reducible apply hkreqGoBit_b | with_reducible apply plainByte_b | dsimp only [Keeps])

theorem write3B_b (o : Nat) (v : Byte) (s : State) (hs : Keeps z0 s) : Keeps z0 (write3B o v s) := by
  unfold write3B
  repeat' (first
    | with_reducible assumption | intro _ | subst x
    | (extract_lets +onlyGivenNames x; have hx : Keeps z0 x := ?_; clear_value x)
    | (extract_lets +onlyGivenNames x; refine isPart x (by constructor) ?_; subst x)
    | (extract_lets +onlyGivenNames x; clear_value x) | with_reducible apply ite_h | split | with_reducible apply writeTable_b
    | with_reducible apply holdByte_b | with_reducible apply thmeasByte_b | with_reducible apply putPlain_b | dsimp only [Keeps])

theorem write48_b (o : Nat) (v : Byte) (s : State) (hs : Keeps z0 s) : Keeps z0 (write48 o v s) := by
  unfold write48
  repeat' (first
    | with_reducible assumption | intro _ | subst x
    | (extract_lets +onlyGivenNames x; have hx : Keeps z0 x := ?_; clear_value x)
    | (extract_lets +onlyGivenNames x; refine isPart x (by constructor) ?_; subst x)
    | (extract_lets +onlyGivenNames x; clear_value x) | with_reducible apply ite_h | split | with_reducible apply onBit_b
    | with_reducible apply writeTable_b | with_reducible apply calSetBit_b | with_reducible apply pwcfgByte_b
    | dsimp only [Keeps])

theorem heldclrBit_b (s : State) (hs : Keeps z0 s) : Keeps z0 (heldclrBit s) := setHeld_b _ _ (fun _ => List.Pairwise.nil) hs

theorem busCntClr_b (s : State) (hs : Keeps z0 s) : Keeps z0 (busCntClr s) := by
  unfold busCntClr
  repeat' (first
    | with_reducible assumption | intro _ | subst x
    | (extract_lets +onlyGivenNames x; have hx : Keeps z0 x := ?_; clear_value x)
    | (extract_lets +onlyGivenNames x; refine isPart x (by constructor) ?_; subst x)
    | (extract_lets +onlyGivenNames x; clear_value x) | with_reducible apply ite_h | split | dsimp only [Keeps])

theorem write50_b (p : Nat) (o : Nat) (v : Byte) (s : State) (hs : Keeps z0 s) : Keeps z0 (write50 p o v s) := by
  unfold write50
  repeat' (first
    | with_reducible assumption | intro _ | subst x
    | (extract_lets +onlyGivenNames x; have hx : Keeps z0 x := ?_; clear_value x)
    | (extract_lets +onlyGivenNames x; refine isPart x (by constructor) ?_; subst x)
    | (extract_lets +onlyGivenNames x; clear_value x) | with_reducible apply ite_h | split | with_reducible apply holdByte_b
    | with_reducible apply maskWord_b | with_reducible apply pendWord_b | with_reducible apply berrRorsv_b | dsimp only [Keeps])

theorem notifyChange_b (s0 : State) (s : State) (hs0 : Keeps z0 s0) (hs : Keeps z0 s) : Keeps z0 (notifyChange s0 s) := by
  unfold notifyChange
  repeat' (first
    | with_reducible assumption | intro _ | subst x
    | (extract_lets +onlyGivenNames x; have hx : Keeps z0 x := ?_; clear_value x)
    | (extract_lets +onlyGivenNames x; refine isPart x (by constructor) ?_; subst x)
    | (extract_lets +onlyGivenNames x; clear_value x) | with_reducible apply ite_h | split | dsimp only [Keeps])

theorem write56_b (o : Nat) (v : Byte) (s : State) (hs : Keeps z0 s) : Keeps z0 (write56 o v s) := by
  unfold write56
  repeat' (first
    | with_reducible assumption | intro _ | subst x
    | (extract_lets +onlyGivenNames x; have hx : Keeps z0 x := ?_; clear_value x)
    | (extract_lets +onlyGivenNames x; refine isPart x (by constructor) ?_; subst x)
    | (extract_lets +onlyGivenNames x; clear_value x) | with_reducible apply ite_h | split | with_reducible apply notifyChange_b
    | with_reducible apply writeTable_b | with_reducible apply testtrigByte_b | with_reducible apply wlclrByte_b
    | with_reducible apply ovrclrByte_b | with_reducible apply rrmaskByte_b | with_reducible apply settleAlert_b
    | dsimp only [Keeps])

theorem write60_b (o : Nat) (v : Byte) (s : State) (hs : Keeps z0 s) : Keeps z0 (write60 o v s) := by
  unfold write60
  repeat' (first
    | with_reducible assumption | intro _ | subst x
    | (extract_lets +onlyGivenNames x; have hx : Keeps z0 x := ?_; clear_value x)
    | (extract_lets +onlyGivenNames x; refine isPart x (by constructor) ?_; subst x)
    | (extract_lets +onlyGivenNames x; clear_value x) | with_reducible apply ite_h | split | with_reducible apply onBit_b
    | with_reducible apply writeTable_b | with_reducible apply hostwakeBit_b | with_reducible apply idleWatch_b
    | dsimp only [Keeps])

theorem writePlain_b (p : Nat) (o : Nat) (v : Byte) (s : State) (hs : Keeps z0 s) : Keeps z0 (writePlain p o v s) := by
  unfold writePlain
  repeat' (first
    | with_reducible assumption | intro _ | subst x
    | (extract_lets +onlyGivenNames x; have hx : Keeps z0 x := ?_; clear_value x)
    | (extract_lets +onlyGivenNames x; refine isPart x (by constructor) ?_; subst x)
    | (extract_lets +onlyGivenNames x; clear_value x) | with_reducible apply ite_h | split | with_reducible apply write60_b
    | with_reducible apply write56_b | with_reducible apply write50_b | with_reducible apply busCntClr_b
    | with_reducible apply heldclrBit_b | with_reducible apply write48_b | with_reducible apply write3B_b
    | with_reducible apply write38_b | with_reducible apply write24_b | with_reducible apply write01_b
    | with_reducible apply write00_b | with_reducible apply onBit_b | with_reducible apply writeTable_b
    | with_reducible apply activateBit_b | with_reducible apply routeByte_b | with_reducible apply cfgsaveBit_b
    | with_reducible apply dsClrBit_b | with_reducible apply pollWatch_b | with_reducible apply accclrBit_b
    | with_reducible apply cntClrallBit_b | with_reducible apply cntClrBit_b | with_reducible apply berrRorsv_b
    | dsimp only [Keeps])

theorem writeStaging_b (p : Nat) (o : Nat) (v : Byte) (s : State) (hs : Keeps z0 s) : Keeps z0 (writeStaging p o v s) := by
  unfold writeStaging
  repeat' (first
    | with_reducible assumption | intro _ | subst x
    | (extract_lets +onlyGivenNames x; have hx : Keeps z0 x := ?_; clear_value x)
    | (extract_lets +onlyGivenNames x; refine isPart x (by constructor) ?_; subst x)
    | (extract_lets +onlyGivenNames x; clear_value x) | with_reducible apply ite_h | split | with_reducible apply holdByte_b
    | with_reducible apply berrRsvenc_b | with_reducible apply berrRorsv_b | with_reducible apply putStg_b | dsimp only [Keeps])

theorem writeStatus_b (p : Nat) (o : Nat) (v : Byte) (s : State) (hs : Keeps z0 s) : Keeps z0 (writeStatus p o v s) := by
  unfold writeStatus
  repeat' (first
    | with_reducible assumption | intro _ | subst x
    | (extract_lets +onlyGivenNames x; have hx : Keeps z0 x := ?_; clear_value x)
    | (extract_lets +onlyGivenNames x; refine isPart x (by constructor) ?_; subst x)
    | (extract_lets +onlyGivenNames x; clear_value x) | with_reducible apply ite_h | split | with_reducible apply onBit_b
    | with_reducible apply writeTable_b | with_reducible apply sensclrBit_b | with_reducible apply chgsuspByte_b
    | with_reducible apply restartBit_b | with_reducible apply kickBit_b | with_reducible apply pswByte_b
    | with_reducible apply pilotAck_b | with_reducible apply monClrBit_b | with_reducible apply strkclrBit_b
    | with_reducible apply inctlBits_b | dsimp only [Keeps])

theorem writeReg_b (p : Nat) (o : Nat) (v : Byte) (s : State) (hs : Keeps z0 s) : Keeps z0 (writeReg p o v s) := by
  unfold writeReg
  repeat' (first
    | with_reducible assumption | intro _ | subst x
    | (extract_lets +onlyGivenNames x; have hx : Keeps z0 x := ?_; clear_value x)
    | (extract_lets +onlyGivenNames x; refine isPart x (by constructor) ?_; subst x)
    | (extract_lets +onlyGivenNames x; clear_value x) | with_reducible apply ite_h | split | with_reducible apply writeStatus_b
    | with_reducible apply writeStaging_b | with_reducible apply writePlain_b | with_reducible apply cancelKey_b
    | with_reducible apply berrUnalloc_b | with_reducible apply berrRorsv_b | dsimp only [Keeps])

theorem writeSeq_b (ok : Nat → Bool) (up : State → Bool) (p o : Nat) (l : List Byte) (s : State) (hs : Keeps z0 s) :
    Keeps z0 (writeSeq ok up p o l s) := by
  induction l generalizing o s with
  | nil => exact hs
  | cons v l ih =>
    unfold writeSeq
    exact ite_b (nackAccess_b _ hs) (ite_b (berrRorsv_b _ (nackAccess_b _ hs)) (ih _ _ (writeReg_b _ _ _ _ hs)))

theorem drive_b (bs : List Byte) (s : State) (hs : Keeps z0 s) : Keeps z0 (drive bs s) := by
  unfold drive
  repeat' (first
    | with_reducible assumption | intro _ | subst x
    | (extract_lets +onlyGivenNames x; have hx : Keeps z0 x := ?_; clear_value x)
    | (extract_lets +onlyGivenNames x; refine isPart x (by constructor) ?_; subst x)
    | (extract_lets +onlyGivenNames x; clear_value x) | with_reducible apply ite_h | split | dsimp only [Keeps])

theorem driveCode_b (code : Byte) (bs : List Byte) (s : State) (hs : Keeps z0 s) : Keeps z0 (driveCode code bs s) := by
  unfold driveCode
  repeat' (first
    | with_reducible assumption | intro _ | subst x
    | (extract_lets +onlyGivenNames x; have hx : Keeps z0 x := ?_; clear_value x)
    | (extract_lets +onlyGivenNames x; refine isPart x (by constructor) ?_; subst x)
    | (extract_lets +onlyGivenNames x; clear_value x) | with_reducible apply ite_h | split | with_reducible apply drive_b
    | dsimp only [Keeps])

theorem cresBlock_b (s : State) (hs : Keeps z0 s) : Keeps z0 (cresBlock s) := by
  unfold cresBlock
  repeat' (first
    | with_reducible assumption | intro _ | subst x
    | (extract_lets +onlyGivenNames x; have hx : Keeps z0 x := ?_; clear_value x)
    | (extract_lets +onlyGivenNames x; refine isPart x (by constructor) ?_; subst x)
    | (extract_lets +onlyGivenNames x; clear_value x) | with_reducible apply ite_h | split | with_reducible apply driveCode_b
    | dsimp only [Keeps])

theorem wrongRead_b (n : Nat) (s : State) (hs : Keeps z0 s) : Keeps z0 (wrongRead n s) := by
  unfold wrongRead
  repeat' (first
    | with_reducible assumption | intro _ | subst x
    | (extract_lets +onlyGivenNames x; have hx : Keeps z0 x := ?_; clear_value x)
    | (extract_lets +onlyGivenNames x; refine isPart x (by constructor) ?_; subst x)
    | (extract_lets +onlyGivenNames x; clear_value x) | with_reducible apply ite_h | split | with_reducible apply drive_b
    | with_reducible apply berrRorsv_b | dsimp only [Keeps])

theorem readFixed_b (code : Byte) (bs : List Byte) (n : Nat) (s : State) (hs : Keeps z0 s) : Keeps z0 (readFixed code bs n s) :=
    by
  unfold readFixed
  repeat' (first
    | with_reducible assumption | intro _ | subst x
    | (extract_lets +onlyGivenNames x; have hx : Keeps z0 x := ?_; clear_value x)
    | (extract_lets +onlyGivenNames x; refine isPart x (by constructor) ?_; subst x)
    | (extract_lets +onlyGivenNames x; clear_value x) | with_reducible apply ite_h | split | with_reducible apply wrongRead_b
    | with_reducible apply driveCode_b | dsimp only [Keeps])

theorem driveWindow_b (o : Nat) (n : Nat) (bs : List Byte) (s : State) (hs : Keeps z0 s) : Keeps z0 (driveWindow o n bs s) := by
  unfold driveWindow
  repeat' (first
    | with_reducible assumption | intro _ | subst x
    | (extract_lets +onlyGivenNames x; have hx : Keeps z0 x := ?_; clear_value x)
    | (extract_lets +onlyGivenNames x; refine isPart x (by constructor) ?_; subst x)
    | (extract_lets +onlyGivenNames x; clear_value x) | with_reducible apply ite_h | split | with_reducible apply drive_b
    | dsimp only [Keeps])

theorem readWindow_b (o : Nat) (n : Nat) (s : State) (hs : Keeps z0 s) : Keeps z0 (readWindow o n s) := by
  unfold readWindow
  repeat' (first
    | with_reducible assumption | intro _ | subst x
    | (extract_lets +onlyGivenNames x; have hx : Keeps z0 x := ?_; clear_value x)
    | (extract_lets +onlyGivenNames x; refine isPart x (by constructor) ?_; subst x)
    | (extract_lets +onlyGivenNames x; clear_value x) | with_reducible apply ite_h | split | with_reducible apply driveWindow_b
    | with_reducible apply readSeq_b | with_reducible apply berrUnalloc_b | refine pair_b (by with_reducible assumption) ?_
    | dsimp only [Keeps])

theorem readCode_b (code : Byte) (n : Nat) (s : State) (hs : Keeps z0 s) : Keeps z0 (readCode code n s) := by
  unfold readCode
  repeat' (first
    | with_reducible assumption | intro _ | subst x
    | (extract_lets +onlyGivenNames x; have hx : Keeps z0 x := ?_; clear_value x)
    | (extract_lets +onlyGivenNames x; refine isPart x (by constructor) ?_; subst x)
    | (extract_lets +onlyGivenNames x; clear_value x) | with_reducible apply ite_h | split | with_reducible apply readWindow_b
    | with_reducible apply readFixed_b | with_reducible apply wrongRead_b | with_reducible apply cresBlock_b
    | with_reducible apply driveCode_b | with_reducible apply ackAccess_b | with_reducible apply nackAccess_b
    | dsimp only [Keeps])

theorem readSleep_b (code : Byte) (n : Nat) (s : State) (hs : Keeps z0 s) : Keeps z0 (readSleep code n s) := by
  unfold readSleep
  repeat' (first
    | with_reducible assumption | intro _ | subst x
    | (extract_lets +onlyGivenNames x; have hx : Keeps z0 x := ?_; clear_value x)
    | (extract_lets +onlyGivenNames x; refine isPart x (by constructor) ?_; subst x)
    | (extract_lets +onlyGivenNames x; clear_value x) | with_reducible apply ite_h | split | with_reducible apply readWindow_b
    | with_reducible apply driveWindow_b | with_reducible apply wrongRead_b | with_reducible apply driveCode_b
    | with_reducible apply ackAccess_b | with_reducible apply nackAccess_b | with_reducible apply drawNat_b
    | refine pair_b (by with_reducible assumption) ?_ | dsimp only [Keeps])

theorem execFieldLatchRead_b (code : Byte) (n : Nat) (s : State) (hs : Keeps z0 s) : OutB z0 (execFieldLatchRead code n s) := by
  unfold execFieldLatchRead
  repeat' (first
    | with_reducible assumption | with_reducible apply out_b | intro _ | subst x
    | (extract_lets +onlyGivenNames x; have hx : Keeps z0 x := ?_; clear_value x)
    | (extract_lets +onlyGivenNames x; refine isPart x (by constructor) ?_; subst x)
    | (extract_lets +onlyGivenNames x; clear_value x) | with_reducible apply ite_h | split | with_reducible apply readSleep_b
    | with_reducible apply readCode_b | with_reducible apply nackAccess_b | dsimp only [Keeps])

theorem execCresRead_b (s : State) (hs : Keeps z0 s) : OutB z0 (execCresRead s) := by
  unfold execCresRead
  repeat' (first
    | with_reducible assumption | with_reducible apply out_b | intro _ | subst x
    | (extract_lets +onlyGivenNames x; have hx : Keeps z0 x := ?_; clear_value x)
    | (extract_lets +onlyGivenNames x; refine isPart x (by constructor) ?_; subst x)
    | (extract_lets +onlyGivenNames x; clear_value x) | with_reducible apply ite_h | split | with_reducible apply cresBlock_b
    | with_reducible apply ackAccess_b | with_reducible apply nackAccess_b | dsimp only [Keeps])

theorem pageByte_b (v : Byte) (s : State) (hs : Keeps z0 s) : Keeps z0 (pageByte v s) := by
  unfold pageByte
  repeat' (first
    | with_reducible assumption | intro _ | subst x
    | (extract_lets +onlyGivenNames x; have hx : Keeps z0 x := ?_; clear_value x)
    | (extract_lets +onlyGivenNames x; refine isPart x (by constructor) ?_; subst x)
    | (extract_lets +onlyGivenNames x; clear_value x) | with_reducible apply ite_h | split | with_reducible apply ackAccess_b
    | with_reducible apply nackAccess_b | with_reducible apply berrUnalloc_b | dsimp only [Keeps])

theorem execPageWrite_b (v : Byte) (s : State) (hs : Keeps z0 s) : OutB z0 (execPageWrite v s) := by
  unfold execPageWrite
  repeat' (first
    | with_reducible assumption | with_reducible apply out_b | intro _ | subst x
    | (extract_lets +onlyGivenNames x; have hx : Keeps z0 x := ?_; clear_value x)
    | (extract_lets +onlyGivenNames x; refine isPart x (by constructor) ?_; subst x)
    | (extract_lets +onlyGivenNames x; clear_value x) | with_reducible apply ite_h | split | with_reducible apply pageByte_b
    | dsimp only [Keeps])

theorem cresofsWord_b (v : Word) (s : State) (hs : Keeps z0 s) : Keeps z0 (cresofsWord v s) := by
  unfold cresofsWord
  repeat' (first
    | with_reducible assumption | intro _ | subst x
    | (extract_lets +onlyGivenNames x; have hx : Keeps z0 x := ?_; clear_value x)
    | (extract_lets +onlyGivenNames x; refine isPart x (by constructor) ?_; subst x)
    | (extract_lets +onlyGivenNames x; clear_value x) | with_reducible apply ite_h | split | with_reducible apply berrRsvenc_b
    | dsimp only [Keeps])

theorem execCresofsWrite_b (v : Word) (s : State) (hs : Keeps z0 s) : OutB z0 (execCresofsWrite v s) := by
  unfold execCresofsWrite
  repeat' (first
    | with_reducible assumption | with_reducible apply out_b | intro _ | subst x
    | (extract_lets +onlyGivenNames x; have hx : Keeps z0 x := ?_; clear_value x)
    | (extract_lets +onlyGivenNames x; refine isPart x (by constructor) ?_; subst x)
    | (extract_lets +onlyGivenNames x; clear_value x) | with_reducible apply ite_h | split | with_reducible apply cresofsWord_b
    | with_reducible apply ackAccess_b | with_reducible apply nackAccess_b | dsimp only [Keeps])

theorem wrongWrite_b (s : State) (hs : Keeps z0 s) : Keeps z0 (wrongWrite s) := by
  unfold wrongWrite
  repeat' (first
    | with_reducible assumption | intro _ | subst x
    | (extract_lets +onlyGivenNames x; have hx : Keeps z0 x := ?_; clear_value x)
    | (extract_lets +onlyGivenNames x; refine isPart x (by constructor) ?_; subst x)
    | (extract_lets +onlyGivenNames x; clear_value x) | with_reducible apply ite_h | split | with_reducible apply nackAccess_b
    | with_reducible apply berrRorsv_b | dsimp only [Keeps])

theorem writeWindow_b (o : Nat) (w : BusWrite) (s : State) (hs : Keeps z0 s) : Keeps z0 (writeWindow o w s) := by
  unfold writeWindow
  repeat' (first
    | with_reducible assumption | intro _ | subst x
    | (extract_lets +onlyGivenNames x; have hx : Keeps z0 x := ?_; clear_value x)
    | (extract_lets +onlyGivenNames x; refine isPart x (by constructor) ?_; subst x)
    | (extract_lets +onlyGivenNames x; clear_value x) | with_reducible apply ite_h | split | with_reducible apply writeSeq_b
    | with_reducible apply pecError_b | with_reducible apply ackAccess_b | with_reducible apply nackAccess_b
    | with_reducible apply berrRorsv_b | dsimp only [Keeps])

theorem writePacket_b (w : BusWrite) (s : State) (hs : Keeps z0 s) : Keeps z0 (writePacket w s) := by
  unfold writePacket
  repeat' (first
    | with_reducible assumption | intro _ | subst x
    | (extract_lets +onlyGivenNames x; have hx : Keeps z0 x := ?_; clear_value x)
    | (extract_lets +onlyGivenNames x; refine isPart x (by constructor) ?_; subst x)
    | (extract_lets +onlyGivenNames x; clear_value x) | with_reducible apply ite_h | split | with_reducible apply wrongWrite_b
    | with_reducible apply packet_b | with_reducible apply packetGate_b | with_reducible apply reject_b
    | with_reducible apply takeSlot_b | with_reducible apply pecError_b | with_reducible apply ackAccess_b
    | with_reducible apply nackAccess_b | with_reducible apply runNext_b | dsimp only [Keeps])

theorem writeCode_b (w : BusWrite) (s : State) (hs : Keeps z0 s) : Keeps z0 (writeCode w s) := by
  unfold writeCode
  repeat' (first
    | with_reducible assumption | intro _ | subst x
    | (extract_lets +onlyGivenNames x; have hx : Keeps z0 x := ?_; clear_value x)
    | (extract_lets +onlyGivenNames x; refine isPart x (by constructor) ?_; subst x)
    | (extract_lets +onlyGivenNames x; clear_value x) | with_reducible apply ite_h | split | with_reducible apply writePacket_b
    | with_reducible apply writeWindow_b | with_reducible apply wrongWrite_b | with_reducible apply cresofsWord_b
    | with_reducible apply pageByte_b | with_reducible apply kick_b | with_reducible apply pecError_b
    | with_reducible apply ackAccess_b | with_reducible apply nackAccess_b | dsimp only [Keeps])

theorem writeSleep_b (w : BusWrite) (s : State) (hs : Keeps z0 s) : Keeps z0 (writeSleep w s) := by
  unfold writeSleep
  repeat' (first
    | with_reducible assumption | intro _ | subst x
    | (extract_lets +onlyGivenNames x; have hx : Keeps z0 x := ?_; clear_value x)
    | (extract_lets +onlyGivenNames x; refine isPart x (by constructor) ?_; subst x)
    | (extract_lets +onlyGivenNames x; clear_value x) | with_reducible apply ite_h | split | with_reducible apply pecError_b
    | with_reducible apply pageByte_b | with_reducible apply writeSeq_b | with_reducible apply ackAccess_b
    | with_reducible apply nackAccess_b | with_reducible apply berrRorsv_b | dsimp only [Keeps])

theorem execRegisterWrite_b (w : BusWrite) (s : State) (hs : Keeps z0 s) : OutB z0 (execRegisterWrite w s) := by
  unfold execRegisterWrite
  repeat' (first
    | with_reducible assumption | with_reducible apply out_b | intro _ | subst x
    | (extract_lets +onlyGivenNames x; have hx : Keeps z0 x := ?_; clear_value x)
    | (extract_lets +onlyGivenNames x; refine isPart x (by constructor) ?_; subst x)
    | (extract_lets +onlyGivenNames x; clear_value x) | with_reducible apply ite_h | split | with_reducible apply writeSleep_b
    | with_reducible apply writeCode_b | with_reducible apply nackAccess_b | dsimp only [Keeps])

theorem receiveByte_b (s : State) (hs : Keeps z0 s) : Keeps z0 (receiveByte s) := by
  unfold receiveByte
  repeat' (first
    | with_reducible assumption | intro _ | subst x
    | (extract_lets +onlyGivenNames x; have hx : Keeps z0 x := ?_; clear_value x)
    | (extract_lets +onlyGivenNames x; refine isPart x (by constructor) ?_; subst x)
    | (extract_lets +onlyGivenNames x; clear_value x) | with_reducible apply ite_h | split | with_reducible apply drive_b
    | with_reducible apply ackAccess_b | dsimp only [Keeps])

theorem execQuickCommand_b (x : ShortBus) (s : State) (hs : Keeps z0 s) : OutB z0 (execQuickCommand x s) := by
  unfold execQuickCommand
  repeat' (first
    | with_reducible assumption | with_reducible apply out_b | intro _ | subst x
    | (extract_lets +onlyGivenNames x; have hx : Keeps z0 x := ?_; clear_value x)
    | (extract_lets +onlyGivenNames x; refine isPart x (by constructor) ?_; subst x)
    | (extract_lets +onlyGivenNames x; clear_value x) | with_reducible apply ite_h | split | with_reducible apply receiveByte_b
    | with_reducible apply ackAccess_b | with_reducible apply nackAccess_b | dsimp only [Keeps])

theorem busTimeout_b (s : State) (hs : Keeps z0 s) : Keeps z0 (busTimeout s) := by
  unfold busTimeout
  repeat' (first
    | with_reducible assumption | intro _ | subst x
    | (extract_lets +onlyGivenNames x; have hx : Keeps z0 x := ?_; clear_value x)
    | (extract_lets +onlyGivenNames x; refine isPart x (by constructor) ?_; subst x)
    | (extract_lets +onlyGivenNames x; clear_value x) | with_reducible apply ite_h | split | with_reducible apply raiseG_b
    | dsimp only [Keeps])

theorem execHbTimeout_b (s : State) (hs : Keeps z0 s) : OutB z0 (execHbTimeout s) := by
  unfold execHbTimeout
  repeat' (first
    | with_reducible assumption | with_reducible apply out_b | intro _ | subst x
    | (extract_lets +onlyGivenNames x; have hx : Keeps z0 x := ?_; clear_value x)
    | (extract_lets +onlyGivenNames x; refine isPart x (by constructor) ?_; subst x)
    | (extract_lets +onlyGivenNames x; clear_value x) | with_reducible apply ite_h | split | with_reducible apply busTimeout_b
    | dsimp only [Keeps])

theorem execSdaHoldTimeout_b (s : State) (hs : Keeps z0 s) : OutB z0 (execSdaHoldTimeout s) := by
  unfold execSdaHoldTimeout
  repeat' (first
    | with_reducible assumption | with_reducible apply out_b | intro _ | subst x
    | (extract_lets +onlyGivenNames x; have hx : Keeps z0 x := ?_; clear_value x)
    | (extract_lets +onlyGivenNames x; refine isPart x (by constructor) ?_; subst x)
    | (extract_lets +onlyGivenNames x; clear_value x) | with_reducible apply ite_h | split | with_reducible apply busTimeout_b
    | dsimp only [Keeps])

theorem execAlertResponse_b (won : Bool) (s : State) (hs : Keeps z0 s) : OutB z0 (execAlertResponse won s) := by
  unfold execAlertResponse
  repeat' (first
    | with_reducible assumption | with_reducible apply out_b | intro _ | subst x
    | (extract_lets +onlyGivenNames x; have hx : Keeps z0 x := ?_; clear_value x)
    | (extract_lets +onlyGivenNames x; refine isPart x (by constructor) ?_; subst x)
    | (extract_lets +onlyGivenNames x; clear_value x) | with_reducible apply ite_h | split | with_reducible apply drive_b
    | with_reducible apply ackAccess_b | with_reducible apply nackAccess_b | dsimp only [Keeps])

theorem notifyOver_b (s : State) (hs : Keeps z0 s) : Keeps z0 (notifyOver s) := by
  unfold notifyOver
  repeat' (first
    | with_reducible assumption | intro _ | subst x
    | (extract_lets +onlyGivenNames x; have hx : Keeps z0 x := ?_; clear_value x)
    | (extract_lets +onlyGivenNames x; refine isPart x (by constructor) ?_; subst x)
    | (extract_lets +onlyGivenNames x; clear_value x) | with_reducible apply ite_h | split | dsimp only [Keeps])

theorem execHostNotify_b (e : NotifyEnd) (s : State) (hs : Keeps z0 s) : OutB z0 (execHostNotify e s) := by
  unfold execHostNotify
  repeat' (first
    | with_reducible assumption | with_reducible apply out_b | intro _ | subst x
    | (extract_lets +onlyGivenNames x; have hx : Keeps z0 x := ?_; clear_value x)
    | (extract_lets +onlyGivenNames x; refine isPart x (by constructor) ?_; subst x)
    | (extract_lets +onlyGivenNames x; clear_value x) | with_reducible apply ite_h | split | with_reducible apply notifyOver_b
    | with_reducible apply drive_b | with_reducible apply raiseG_b | dsimp only [Keeps])

theorem execHnstuck_b (s : State) (hs : Keeps z0 s) : OutB z0 (execHnstuck s) := by
  unfold execHnstuck
  repeat' (first
    | with_reducible assumption | with_reducible apply out_b | intro _ | subst x
    | (extract_lets +onlyGivenNames x; have hx : Keeps z0 x := ?_; clear_value x)
    | (extract_lets +onlyGivenNames x; refine isPart x (by constructor) ?_; subst x)
    | (extract_lets +onlyGivenNames x; clear_value x) | with_reducible apply ite_h | split | with_reducible apply raiseG_b
    | dsimp only [Keeps])

theorem execHnsuspClear_b (s : State) (hs : Keeps z0 s) : OutB z0 (execHnsuspClear s) := by
  unfold execHnsuspClear
  repeat' (first
    | with_reducible assumption | with_reducible apply out_b | intro _ | subst x
    | (extract_lets +onlyGivenNames x; have hx : Keeps z0 x := ?_; clear_value x)
    | (extract_lets +onlyGivenNames x; refine isPart x (by constructor) ?_; subst x)
    | (extract_lets +onlyGivenNames x; clear_value x) | with_reducible apply ite_h | split | dsimp only [Keeps])

theorem execEcho_b (p : Packet) (s : State) (hs : Keeps z0 s) : OutB z0 (execEcho p s) := by
  unfold execEcho
  repeat' (first
    | with_reducible assumption | with_reducible apply out_b | intro _ | subst x
    | (extract_lets +onlyGivenNames x; have hx : Keeps z0 x := ?_; clear_value x)
    | (extract_lets +onlyGivenNames x; refine isPart x (by constructor) ?_; subst x)
    | (extract_lets +onlyGivenNames x; clear_value x) | with_reducible apply ite_h | split | with_reducible apply packet_b
    | with_reducible apply doneWith_b | dsimp only [Keeps])

theorem execGetInfo_b (p : Packet) (s : State) (hs : Keeps z0 s) : OutB z0 (execGetInfo p s) := by
  unfold execGetInfo
  repeat' (first
    | with_reducible assumption | with_reducible apply out_b | intro _ | subst x
    | (extract_lets +onlyGivenNames x; have hx : Keeps z0 x := ?_; clear_value x)
    | (extract_lets +onlyGivenNames x; refine isPart x (by constructor) ?_; subst x)
    | (extract_lets +onlyGivenNames x; clear_value x) | with_reducible apply ite_h | split | with_reducible apply packet_b
    | with_reducible apply doneWith_b | with_reducible apply reject_b | dsimp only [Keeps])

theorem execSelfReset_b (p : Packet) (s : State) (hs : Keeps z0 s) : OutB z0 (execSelfReset p s) := by
  unfold execSelfReset
  repeat' (first
    | with_reducible assumption | with_reducible apply out_b | intro _ | subst x
    | (extract_lets +onlyGivenNames x; have hx : Keeps z0 x := ?_; clear_value x)
    | (extract_lets +onlyGivenNames x; refine isPart x (by constructor) ?_; subst x)
    | (extract_lets +onlyGivenNames x; clear_value x) | with_reducible apply ite_h | split | with_reducible apply packet_b
    | with_reducible apply slotBusy_b | with_reducible apply reject_b | with_reducible apply requestReset_b | dsimp only [Keeps])

theorem sessionOpenBody_b (p : Packet) (s : State) (hs : Keeps z0 s) : Keeps z0 (sessionOpenBody p s) := by
  unfold sessionOpenBody
  split
  · rename_i v _
    refine ite_h (fun _ => reject_b _ _ hs) (fun hv => ite_b (reject_b _ _ hs) (ite_b (reject_b _ _ hs) (ite_b (reject_b _ _ hs) ?_)))
    have hk : Keeps z0 { s with free := s.free + 1, bus := { s.bus with nonce := some (nonceNow s, v.toNat) } } :=
      kept_session hs fun h => ⟨h.1, fun x e => by
        obtain rfl := Option.some.inj e
        have : v = 1 ∨ v = 2 := by by_cases h1 : v = 1 <;> simp_all
        rcases this with rfl | rfl <;> simp⟩
    exact arm_b _ _ _ (doneWith_b _ _ hk)
  · exact reject_b _ _ hs

theorem execSessionOpen_b (p : Packet) (s : State) (hs : Keeps z0 s) : OutB z0 (execSessionOpen p s) := by
  unfold execSessionOpen
  repeat' (first
    | with_reducible assumption | with_reducible apply out_b | intro _ | subst x
    | (extract_lets +onlyGivenNames x; have hx : Keeps z0 x := ?_; clear_value x)
    | (extract_lets +onlyGivenNames x; refine isPart x (by constructor) ?_; subst x)
    | (extract_lets +onlyGivenNames x; clear_value x) | with_reducible apply ite_h | split
    | with_reducible apply sessionOpenBody_b | with_reducible apply packet_b | dsimp only [Keeps])

theorem wrongProof_b (level : Nat) (s : State) (hs : Keeps z0 s) : Keeps z0 (wrongProof level s) := by
  unfold wrongProof
  repeat' (first
    | with_reducible assumption | intro _ | subst x
    | (extract_lets +onlyGivenNames x; have hx : Keeps z0 x := ?_; clear_value x)
    | (extract_lets +onlyGivenNames x; refine isPart x (by constructor) ?_; subst x)
    | (extract_lets +onlyGivenNames x; clear_value x) | with_reducible apply ite_h | split | with_reducible apply logSecurity_b
    | with_reducible apply raiseG_b | with_reducible apply arm_b | with_reducible apply disarm_b
    | exact kept_session (by with_reducible assumption) (by exact sessionFits_ended)
    | exact kept_session (by with_reducible assumption) (by exact sessionFits_spent) | dsimp only [Keeps])

theorem sessionProveBody_b (p : Packet) (s : State) (hs : Keeps z0 s) : Keeps z0 (sessionProveBody p s) := by
  unfold sessionProveBody
  split
  · exact reject_b _ _ hs
  · rename_i n level e
    refine ite_b (reject_b _ _ hs) (ite_b (reject_b _ _ hs) (ite_b ?_ (reject_b _ _ (wrongProof_b _ _ hs))))
    have hk : Keeps z0 { s with bus := { s.bus with nonce := none, failn := 0, level := level } } :=
      kept_session hs fun h => ⟨(h.2 _ e).2, fun _ g => (nomatch g)⟩
    exact touchSession_b _ (raiseG_b _ _ _ (logSecurity_b _ _ _ _ (disarm_b _ _ (doneWith_b _ _ hk))))

theorem execSessionProve_b (p : Packet) (s : State) (hs : Keeps z0 s) : OutB z0 (execSessionProve p s) := by
  unfold execSessionProve
  repeat' (first
    | with_reducible assumption | with_reducible apply out_b | intro _ | subst x
    | (extract_lets +onlyGivenNames x; have hx : Keeps z0 x := ?_; clear_value x)
    | (extract_lets +onlyGivenNames x; refine isPart x (by constructor) ?_; subst x)
    | (extract_lets +onlyGivenNames x; clear_value x) | with_reducible apply ite_h | split
    | with_reducible apply sessionProveBody_b | with_reducible apply packet_b | dsimp only [Keeps])

theorem closeSession_b (s : State) (hs : Keeps z0 s) : Keeps z0 (closeSession s) := by
  unfold closeSession
  repeat' (first
    | with_reducible assumption | intro _ | subst x
    | (extract_lets +onlyGivenNames x; have hx : Keeps z0 x := ?_; clear_value x)
    | (extract_lets +onlyGivenNames x; refine isPart x (by constructor) ?_; subst x)
    | (extract_lets +onlyGivenNames x; clear_value x) | with_reducible apply ite_h | split | with_reducible apply raiseG_b
    | with_reducible apply disarm_b | exact kept_session (by with_reducible assumption) (by exact sessionFits_ended)
    | exact kept_session (by with_reducible assumption) (by exact sessionFits_spent) | dsimp only [Keeps])

theorem execSessionClose_b (p : Packet) (s : State) (hs : Keeps z0 s) : OutB z0 (execSessionClose p s) := by
  unfold execSessionClose
  repeat' (first
    | with_reducible assumption | with_reducible apply out_b | intro _ | subst x
    | (extract_lets +onlyGivenNames x; have hx : Keeps z0 x := ?_; clear_value x)
    | (extract_lets +onlyGivenNames x; refine isPart x (by constructor) ?_; subst x)
    | (extract_lets +onlyGivenNames x; clear_value x) | with_reducible apply ite_h | split | with_reducible apply closeSession_b
    | with_reducible apply packet_b | with_reducible apply doneWith_b | dsimp only [Keeps])

theorem execSesstmo_b (s : State) (hs : Keeps z0 s) : OutB z0 (execSesstmo s) := by
  unfold execSesstmo
  repeat' (first
    | with_reducible assumption | with_reducible apply out_b | intro _ | subst x
    | (extract_lets +onlyGivenNames x; have hx : Keeps z0 x := ?_; clear_value x)
    | (extract_lets +onlyGivenNames x; refine isPart x (by constructor) ?_; subst x)
    | (extract_lets +onlyGivenNames x; clear_value x) | with_reducible apply ite_h | split | with_reducible apply closeSession_b
    | with_reducible apply disarm_b | dsimp only [Keeps])

theorem execNonceExpire_b (s : State) (hs : Keeps z0 s) : OutB z0 (execNonceExpire s) := by
  unfold execNonceExpire
  repeat' (first
    | with_reducible assumption | with_reducible apply out_b | intro _ | subst x
    | (extract_lets +onlyGivenNames x; have hx : Keeps z0 x := ?_; clear_value x)
    | (extract_lets +onlyGivenNames x; refine isPart x (by constructor) ?_; subst x)
    | (extract_lets +onlyGivenNames x; clear_value x) | with_reducible apply ite_h | split | with_reducible apply disarm_b
    | exact kept_session (by with_reducible assumption) (by exact sessionFits_ended)
    | exact kept_session (by with_reducible assumption) (by exact sessionFits_spent) | dsimp only [Keeps])

theorem execSesslockEnd_b (s : State) (hs : Keeps z0 s) : OutB z0 (execSesslockEnd s) := by
  unfold execSesslockEnd
  repeat' (first
    | with_reducible assumption | with_reducible apply out_b | intro _ | subst x
    | (extract_lets +onlyGivenNames x; have hx : Keeps z0 x := ?_; clear_value x)
    | (extract_lets +onlyGivenNames x; refine isPart x (by constructor) ?_; subst x)
    | (extract_lets +onlyGivenNames x; clear_value x) | with_reducible apply ite_h | split | with_reducible apply disarm_b
    | exact kept_session (by with_reducible assumption) (by exact sessionFits_ended)
    | exact kept_session (by with_reducible assumption) (by exact sessionFits_spent) | dsimp only [Keeps])

theorem execHeldclr_b (s : State) (hs : Keeps z0 s) : OutB z0 (execHeldclr s) := by
  unfold execHeldclr
  repeat' (first
    | with_reducible assumption | with_reducible apply out_b | intro _ | subst x
    | (extract_lets +onlyGivenNames x; have hx : Keeps z0 x := ?_; clear_value x)
    | (extract_lets +onlyGivenNames x; refine isPart x (by constructor) ?_; subst x)
    | (extract_lets +onlyGivenNames x; clear_value x) | with_reducible apply ite_h | split | with_reducible apply heldclrBit_b
    | with_reducible apply onPage_b | dsimp only [Keeps])

theorem execCntclr_b (s : State) (hs : Keeps z0 s) : OutB z0 (execCntclr s) := by
  unfold execCntclr
  repeat' (first
    | with_reducible assumption | with_reducible apply out_b | intro _ | subst x
    | (extract_lets +onlyGivenNames x; have hx : Keeps z0 x := ?_; clear_value x)
    | (extract_lets +onlyGivenNames x; refine isPart x (by constructor) ?_; subst x)
    | (extract_lets +onlyGivenNames x; clear_value x) | with_reducible apply ite_h | split | with_reducible apply busCntClr_b
    | with_reducible apply onPage_b | dsimp only [Keeps])

theorem bootDecide_b (s : State) (hs : Keeps z0 s) : Keeps z0 (bootDecide s) := by
  unfold bootDecide
  repeat' (first
    | with_reducible assumption | intro _ | subst x
    | (extract_lets +onlyGivenNames x; have hx : Keeps z0 x := ?_; clear_value x)
    | (extract_lets +onlyGivenNames x; refine isPart x (by constructor) ?_; subst x)
    | (extract_lets +onlyGivenNames x; clear_value x) | with_reducible apply ite_h | split | with_reducible apply decideStart_b
    | with_reducible apply settle_b | with_reducible apply arm_b | with_reducible apply disarm_b | dsimp only [Keeps])

theorem floorBoot_b (cause : Nat) (s : State) (hs : Keeps z0 s) : Keeps z0 (floorBoot cause s) := by
  unfold floorBoot
  repeat' (first
    | with_reducible assumption | intro _ | subst x
    | (extract_lets +onlyGivenNames x; have hx : Keeps z0 x := ?_; clear_value x)
    | (extract_lets +onlyGivenNames x; refine isPart x (by constructor) ?_; subst x)
    | (extract_lets +onlyGivenNames x; clear_value x) | with_reducible apply ite_h | split | with_reducible apply bootDecide_b
    | with_reducible apply floorLoad_b | with_reducible apply pilotPassive_b | dsimp only [Keeps])

theorem verifySlots_b (s : State) (hs : Keeps z0 s) : Keeps z0 (verifySlots s) := by
  unfold verifySlots
  repeat' (first
    | with_reducible assumption | intro _ | subst x
    | (extract_lets +onlyGivenNames x; have hx : Keeps z0 x := ?_; clear_value x)
    | (extract_lets +onlyGivenNames x; refine isPart x (by constructor) ?_; subst x)
    | (extract_lets +onlyGivenNames x; clear_value x) | with_reducible apply ite_h | split | dsimp only [Keeps])

theorem bootSlot_b (w : Bool) (b : Bool) (s : State) (hs : Keeps z0 s) : Keeps z0 (bootSlot w b s) := by
  unfold bootSlot
  repeat' (first
    | with_reducible assumption | intro _ | subst x
    | (extract_lets +onlyGivenNames x; have hx : Keeps z0 x := ?_; clear_value x)
    | (extract_lets +onlyGivenNames x; refine isPart x (by constructor) ?_; subst x)
    | (extract_lets +onlyGivenNames x; clear_value x) | with_reducible apply ite_h | split | with_reducible apply raiseIf_b
    | dsimp only [Keeps])

theorem bootFallback_b (b : Bool) (s : State) (hs : Keeps z0 s) : Keeps z0 (bootFallback b s) := by
  unfold bootFallback
  repeat' (first
    | with_reducible assumption | intro _ | subst x
    | (extract_lets +onlyGivenNames x; have hx : Keeps z0 x := ?_; clear_value x)
    | (extract_lets +onlyGivenNames x; refine isPart x (by constructor) ?_; subst x)
    | (extract_lets +onlyGivenNames x; clear_value x) | with_reducible apply ite_h | split | dsimp only [Keeps])

/-- As `OptB`, of a state with the ROM's note on the journal. -/
structure RomB (z0 : State) (x : Option (Bool × State)) : Prop where
  kept : ∀ j t, x = some (j, t) → Keeps z0 t

theorem rom_b {j : Bool} {t : State} (h : Keeps z0 t) : RomB z0 (some (j, t)) := ⟨fun _ _ e => by cases e; exact h⟩
theorem romIte_b {c : Prop} [Decidable c] {x y : Option (Bool × State)} (hx : RomB z0 x) (hy : RomB z0 y) :
    RomB z0 (if c then x else y) := by
  by_cases h : c
  · rw [if_pos h]; exact hx
  · rw [if_neg h]; exact hy
theorem romMap_b {α : Type} {x : Option α} {j : Bool} {f : α → State} (h : ∀ a, Keeps z0 (f a)) :
    RomB z0 (x.map (fun a => (j, f a))) := by
  cases x
  · exact ⟨fun _ _ e => nomatch e⟩
  · exact ⟨fun _ _ e => by cases e; exact h _⟩

theorem romBoot_b (s : State) (hs : Keeps z0 s) : RomB z0 (romBoot s) := by
  have back : ∀ x : Option Bool, RomB z0 (x.map (fun b => (false, bootFallback b s))) :=
    fun x => romMap_b (fun b => bootFallback_b b s hs)
  have slot : ∀ x : Option Bool, RomB z0 (x.map (fun b => (false, bootSlot (wantedSlot s) b s))) :=
    fun x => romMap_b (fun b => bootSlot_b _ b s hs)
  unfold romBoot
  exact romIte_b (romIte_b (rom_b (logUpdate_b _ (raiseG_b _ _ _ hs))) (back _))
    (romIte_b (romIte_b (back _) (romIte_b (back _) (romMap_b (fun b => bootSlot_b _ b s hs)))) (slot _))

theorem partImage_fit (part : List Byte) (n : Nat) : ImageFit (partImage part n) := by
  unfold partImage
  constructor <;> dsimp only
  · exact regsFit_foldl _ (fun _ _ => regsFit_rput _ _ _) _ _ regsFit_nil
  · exact regsFit_foldl _ (fun _ _ => regsFit_rput _ _ _) _ _ regsFit_nil
  · exact mwf_foldl 0 _ (fun _ _ => mwf_mput _ _ _ _) _ _ rfl
  · exact mwf_foldl 0xFFFF _ (fun _ _ => mwf_mput _ _ _ _) _ _ rfl
  · exact mwf_foldl 0 _ (fun _ _ => mwf_mput _ _ _ _) _ _ rfl

theorem writePart_b (s : State) (hs : Keeps z0 s) : Keeps z0 (writePart s) := by
  unfold writePart
  split
  · extract_lets +onlyGivenNames second part img
    have hi : ImageFit img := partImage_fit _ _
    clear_value img
    split
    rename_i got x e
    have hx : Keeps z0 x := pair_b e (landNow_b _ _ _ hs)
    split
    · exact hx
    · split
      · exact kept_maps hx fun w => { w with cfgB := fun _ h => Option.some.inj h ▸ hi }
      · exact kept_maps hx fun w => { w with cfgA := fun _ h => Option.some.inj h ▸ hi }
  · exact hs

theorem loadPlain_b (c : CfgImg) (s : State) (hc : MapsSound z0 → ImageFit c) (hs : Keeps z0 s) : Keeps z0 (loadPlain c s) := by
  unfold loadPlain
  extract_lets +onlyGivenNames e0 kept plain s0 q1 q2 u1 u2 u3 u4
  have h1 : Keeps z0 u1 := kept_maps' hs fun m w =>
    { w with
      plain := regsFit_foldl _ (fun _ _ => regsFit_rput _ _ _) _ _ (regsFit_filter _ _ w.plain)
      mask := (hc m).mask
      route := (hc m).route }
  clear_value u1
  have h2 : Keeps z0 u2 := afterIrq_b _ _ _ hs (reassign_b _ _ h1)
  clear_value u2
  have h3 : Keeps z0 u3 := ite_b (toFree_b _ h2) h2
  clear_value u3
  exact setEdit_z _ _ (fun m => (hc m).sched) h3

theorem loadBank_b (s : State) (hs : Keeps z0 s) : Keeps z0 (loadBank s) := by
  unfold loadBank
  split
  · rename_i c e
    have hc : MapsSound z0 → ImageFit c := fun m => cfgBank_fit (hs.maps m) e
    exact bootCommit_b _ (loadPlain_b _ _ hc (kept_maps' hs fun m w => { w with stg := (hc m).staged }))
  · exact bootCommit_b _ (raiseG_b _ _ _ hs)

theorem wokeEvent_b (s : State) (hs : Keeps z0 s) : Keeps z0 (wokeEvent s) := by
  unfold wokeEvent
  repeat' (first
    | with_reducible assumption | intro _ | subst x
    | (extract_lets +onlyGivenNames x; have hx : Keeps z0 x := ?_; clear_value x)
    | (extract_lets +onlyGivenNames x; refine isPart x (by constructor) ?_; subst x)
    | (extract_lets +onlyGivenNames x; clear_value x) | with_reducible apply ite_h | split | with_reducible apply raiseG_b
    | dsimp only [Keeps])

theorem trialWatch_b (s : State) (hs : Keeps z0 s) : Keeps z0 (trialWatch s) := by
  unfold trialWatch
  repeat' (first
    | with_reducible assumption | intro _ | subst x
    | (extract_lets +onlyGivenNames x; have hx : Keeps z0 x := ?_; clear_value x)
    | (extract_lets +onlyGivenNames x; refine isPart x (by constructor) ?_; subst x)
    | (extract_lets +onlyGivenNames x; clear_value x) | with_reducible apply ite_h | split | with_reducible apply arm_b
    | dsimp only [Keeps])

theorem firmwareStart_b (s : State) (hs : Keeps z0 s) : Keeps z0 (firmwareStart s) := by
  unfold firmwareStart
  repeat' (first
    | with_reducible assumption | intro _ | subst x
    | (extract_lets +onlyGivenNames x; have hx : Keeps z0 x := ?_; clear_value x)
    | (extract_lets +onlyGivenNames x; refine isPart x (by constructor) ?_; subst x)
    | (extract_lets +onlyGivenNames x; clear_value x) | with_reducible apply ite_h | split
    | with_reducible apply trialWatch_b | with_reducible apply wokeEvent_b | with_reducible apply scrubLateCheck_b
    | with_reducible apply pollWatch_b | with_reducible apply gaugeStart_b | with_reducible apply updInterrupted_b
    | with_reducible apply logReset_b | with_reducible apply arm_b | dsimp only [Keeps])

theorem loadRoles_b (s : State) (hs : Keeps z0 s) : Keeps z0 (loadRoles s) := by
  unfold loadRoles
  split
  · split
    · rename_i b e
      exact kept_maps hs fun w => { w with ph := (patBank_fit w e).ph, ldo := (patBank_fit w e).ldo }
    · exact hs
  · exact hs

theorem slotBoot_b (b : BootInfo) (jrn : Bool) (s : State) (hs : Keeps z0 s) : Keeps z0 (slotBoot b jrn s) := by
  unfold slotBoot
  repeat' (first
    | with_reducible assumption | intro _ | subst x
    | (extract_lets +onlyGivenNames x; have hx : Keeps z0 x := ?_; clear_value x)
    | (extract_lets +onlyGivenNames x; refine isPart x (by constructor) ?_; subst x)
    | (extract_lets +onlyGivenNames x; clear_value x) | with_reducible apply ite_h | split
    | with_reducible apply journalNow_b | with_reducible apply loadRoles_b | with_reducible apply firmwareStart_b
    | with_reducible apply loadBank_b | with_reducible apply writePart_b | with_reducible apply bootDecide_b
    | with_reducible apply publishAssay_b | with_reducible apply recomputePend_b | with_reducible apply fellBack_b
    | with_reducible apply fallback_b | with_reducible apply headerScan_b | with_reducible apply startRounds_b
    | with_reducible apply pilotFollow_b | with_reducible apply raiseG_b | with_reducible apply grant_b | dsimp only [Keeps])

theorem execBootEnd_b (b : BootInfo) (s : State) (hs : Keeps z0 s) : OutB z0 (execBootEnd b s) := by
  unfold execBootEnd
  refine out_b (ite_b hs (ite_b (floorBoot_b _ _ hs) (ite_b (floorBoot_b _ _ hs) ?_)))
  split
  · exact floorBoot_b _ _ hs
  · exact slotBoot_b b _ _ (verifySlots_b _ ((romBoot_b s hs).kept _ _ (by assumption)))

theorem execFwBootTimeout_b (s : State) (hs : Keeps z0 s) : OutB z0 (execFwBootTimeout s) := by
  unfold execFwBootTimeout
  repeat' (first
    | with_reducible assumption | with_reducible apply out_b | intro _ | subst x
    | (extract_lets +onlyGivenNames x; have hx : Keeps z0 x := ?_; clear_value x)
    | (extract_lets +onlyGivenNames x; refine isPart x (by constructor) ?_; subst x)
    | (extract_lets +onlyGivenNames x; clear_value x) | with_reducible apply ite_h | split | with_reducible apply floorBoot_b
    | with_reducible apply floorRunning_b | with_reducible apply arm_b | with_reducible apply disarm_b | dsimp only [Keeps])

theorem tick_step_b (s : State) (hs : Keeps z0 s) : Keeps z0 (tick s) := by
  unfold tick moveAngle dropActs
  repeat' (first
    | with_reducible assumption | intro _ | subst x
    | (extract_lets +onlyGivenNames x; have hx : Keeps z0 x := ?_; clear_value x)
    | (extract_lets +onlyGivenNames x; refine isPart x (by constructor) ?_; subst x)
    | (extract_lets +onlyGivenNames x; clear_value x) | with_reducible apply ite_h | split | dsimp only [Keeps])

theorem readStep_b (s : State) (hs : Keeps z0 s) : Keeps z0 (readStep s) := by
  unfold readStep
  repeat' (first
    | with_reducible assumption | intro _ | subst x
    | (extract_lets +onlyGivenNames x; have hx : Keeps z0 x := ?_; clear_value x)
    | (extract_lets +onlyGivenNames x; refine isPart x (by constructor) ?_; subst x)
    | (extract_lets +onlyGivenNames x; clear_value x) | with_reducible apply ite_h | split | with_reducible apply doneWith_b
    | dsimp only [Keeps])

theorem idle_b (s : State) (hs : Keeps z0 s) : Keeps z0 (idle s) := readStep_b _ (tick_step_b _ hs)

end Sys2Proof.Machine
end

