-- ==== Sys2Proof/Laws/Reset.lean ====
section
/-! SUPPORT. What starting the boot leaves (R20, R26, R326). -/

namespace Sys2Proof.Machine

open Sys2Proof

@[simp] theorem loadH_glob (v : Bool) (s : State) : (loadH v s).glob = s.glob := by
  unfold loadH; cases v <;> simp
@[simp] theorem loadH_rl (v : Bool) (s : State) : (loadH v s).rl = s.rl := by
  unfold loadH; cases v <;> simp
@[simp] theorem loadH_seq (v : Bool) (s : State) : (loadH v s).seq = s.seq := by
  unfold loadH; cases v <;> simp
@[simp] theorem loadH_bus (v : Bool) (s : State) : (loadH v s).bus = s.bus := by
  unfold loadH; cases v <;> simp

theorem repend_unmarked (s : State) : unmarked (repend s) = unmarked s := by
  have step : ∀ (u : State) (k : Nat), unmarked (if u.pwr.wl.getLsbD k then setPend (sourceOfLatch k) u else u) = unmarked u := by
    intro u k
    split
    · exact (setPend_spec _ u).1
    · rfl
  have all : ∀ (l : List Nat) (u : State),
      unmarked (l.foldl (fun s k => if s.pwr.wl.getLsbD k then setPend (sourceOfLatch k) s else s) u) = unmarked u := by
    intro l
    induction l with
    | nil => intro u; rfl
    | cons x l ih => intro u; exact (ih _).trans (step u x)
  exact all _ s

theorem raiseIf_unmarked (c : Bool) (k : Nat) (s : State) : unmarked (raiseIf c k s) = unmarked s := by
  cases c
  · rfl
  · exact raise_unmarked k s

theorem senseEvents_unmarked (s : State) : unmarked (senseEvents s) = unmarked s := by
  unfold senseEvents
  rw [raiseIf_unmarked, raiseIf_unmarked]

theorem Booting.congr {a b : State} (hg : b.glob = a.glob) (hr : b.rl = a.rl) (hs : b.seq.rst = a.seq.rst)
    (hb : b.bus.cstat = a.bus.cstat) (h : Booting a) : Booting b where
  boot := by rw [hg]; exact h.boot
  state := by rw [hg]; exact h.state
  fwup := by rw [hg]; exact h.fwup
  floor := by rw [hg]; exact h.floor
  rails := by rw [hr]; exact h.rails
  outputs := by rw [hs]; exact h.outputs
  slot := by rw [hb]; exact h.slot
  key := by rw [hg]; exact h.key
  buserr := by rw [hg]; exact h.buserr

@[simp] theorem drawNat_glob (s : State) : (drawNat s).2.glob = s.glob := rfl
@[simp] theorem drawBool_glob (s : State) : (drawBool s).2.glob = s.glob := rfl

@[simp] theorem cutErase_glob (n : Nat) (b : Bool) (s : State) : (cutErase n b s).2.glob = s.glob := by
  unfold cutErase
  dsimp only [drawNat]
  repeat' split
  all_goals rfl

@[simp] theorem dropBank_glob (n : Nat) (s : State) : (dropBank n s).glob = s.glob := by
  simp only [dropBank, apply_ite State.glob, ite_self]

theorem foldl_glob {α : Type} (f : State → α → State) (h : ∀ s x, (f s x).glob = s.glob) (l : List α) (s : State) :
    (l.foldl f s).glob = s.glob := by
  induction l generalizing s with
  | nil => rfl
  | cons x l ih => exact (ih _).trans (h s x)

@[simp] theorem settleBanks_glob (s : State) : (settleBanks s).glob = s.glob :=
  foldl_glob _ (fun s n => by split <;> simp) _ s

@[simp] theorem closeOpen_glob (o : OpenRec) (s : State) : (closeOpen o s).glob = s.glob := rfl
@[simp] theorem logLost_glob (s : State) : (logLost s).glob = s.glob := by unfold logLost; dsimp only; split <;> simp
@[simp] theorem appendRec_glob (r : LogRec) (s : State) : (appendRec r s).glob = s.glob := by
  simp only [appendRec, apply_ite State.glob, logLost_glob, raiseG_glob, ite_self]
@[simp] theorem writeEntry_glob (e : LogRec) (s : State) : (writeEntry e s).glob = s.glob := by
  unfold writeEntry
  split
  · simp
  · split
    · simp only [apply_ite State.glob, closeOpen_glob, ite_self]
    · split
      · simp
      · simp only [arm_glob, appendRec_glob, apply_ite State.glob]
        split
        · split <;> rfl
        · rfl
@[simp] theorem writeQueue_glob (n : Nat) (s : State) : (writeQueue n s).glob = s.glob := by
  induction n generalizing s with
  | zero => rfl
  | succ n ih =>
    unfold writeQueue
    split
    · rfl
    · rw [ih]
      split <;> simp
@[simp] theorem markLog_glob (i : Nat) (s : State) : (markLog i s).glob = s.glob := by unfold markLog; dsimp only; split <;> rfl
@[simp] theorem markLogFrom_glob (m : Nat) (s : State) : (markLogFrom m s).glob = s.glob := by unfold markLogFrom; split <;> simp
@[simp] theorem cutLog_glob (s : State) : (cutLog s).glob = s.glob := by
  unfold cutLog
  dsimp only [drawNat, drawBool]
  rw [markLogFrom_glob]
  repeat' split
  all_goals simp [programCloses]
@[simp] theorem cutLogErase_glob (i : Nat) (s : State) : (cutLogErase i s).glob = s.glob := by
  simp only [cutLogErase, apply_ite State.glob, cutErase_glob, ite_self]
@[simp] theorem cutUpd_glob (n : Nat) (s : State) : (cutUpd n s).glob = s.glob := by
  simp only [cutUpd, apply_ite State.glob, cutErase_glob, ite_self]
@[simp] theorem cutRefresh_glob (p : Nat) (s : State) : (cutRefresh p s).glob = s.glob := by
  unfold cutRefresh
  dsimp only [drawBool]
  split
  · rfl
  · simp

@[simp] theorem dropSlot_glob (s : State) : (dropSlot s).glob = s.glob := by
  unfold dropSlot
  split
  · rfl
  · dsimp only
    split <;> try simp
    split <;> simp

theorem bootRecord_booting (k : BootKind) (s : State) : Booting (bootRecord k s) := by
  refine ⟨rfl, rfl, rfl, rfl, rfl, ?_, rfl, rfl, rfl⟩
  cases k <;> rfl
theorem bootRecord_glob (k : BootKind) (s : State) : (bootRecord k s).glob.rstcause = bootCause k s ∧
    (bootRecord k s).glob.supplied = s.glob.supplied ∧ (bootRecord k s).glob.logsrc = s.glob.logsrc ∧
    (sensesStrap k = false → (bootRecord k s).glob.strap = s.glob.strap) :=
  ⟨rfl, rfl, rfl, fun h => by simp [bootRecord, h]⟩

/-- The parts of a booting state that `Booting` speaks of are the same in both. -/
def SameBoot (a b : State) : Prop := b.glob = a.glob ∧ b.rl = a.rl ∧ b.seq.rst = a.seq.rst ∧ b.bus.cstat = a.bus.cstat

theorem SameBoot.trans {a b c : State} (h : SameBoot a b) (g : SameBoot b c) : SameBoot a c :=
  ⟨g.1.trans h.1, g.2.1.trans h.2.1, g.2.2.1.trans h.2.2.1, g.2.2.2.trans h.2.2.2⟩
theorem SameBoot.of_unmarked {a b : State} (h : unmarked b = unmarked a) : SameBoot a b := by
  have hg : (unmarked b).glob = (unmarked a).glob := congrArg State.glob h
  have hr : (unmarked b).rl = (unmarked a).rl := congrArg State.rl h
  have hs : (unmarked b).seq.rst = (unmarked a).seq.rst := congrArg (fun t : State => t.seq.rst) h
  have hb : (unmarked b).bus.cstat = (unmarked a).bus.cstat := congrArg (fun t : State => t.bus.cstat) h
  exact ⟨hg, hr, hs, hb⟩

theorem loadH_sense_same (v : Bool) (s : State) : SameBoot s (loadH v (sense s)) := by
  refine ⟨?_, ?_, ?_, ?_⟩ <;> simp [sense]
theorem SameBoot.refl (s : State) : SameBoot s s := ⟨rfl, rfl, rfl, rfl⟩
theorem raise_same (k : Nat) (s : State) : SameBoot s (raise k s) := .of_unmarked (raise_unmarked _ _)
theorem openS2_same (s : State) : SameBoot s (openS2 s) := by
  unfold openS2
  split
  · exact SameBoot.trans (b := setPlt (fun p => { p with s2 := false }) s) ⟨rfl, rfl, rfl, rfl⟩ (raise_same _ _)
  · exact .refl s
theorem pilotCause_same (b : Nat) (s : State) : SameBoot s (pilotCause b s) := by
  unfold pilotCause
  split
  · exact .refl s
  · dsimp only
    split
    · exact ⟨rfl, rfl, rfl, rfl⟩
    · refine SameBoot.trans (b := arm _ _ (setPlt _ s)) ?_ (raise_same _ _)
      exact ⟨rfl, rfl, rfl, rfl⟩
theorem setOsc_same (on : Bool) (s : State) : SameBoot s (setOsc on s) := by
  unfold setOsc
  split
  · exact .refl s
  · have h : ∀ k, SameBoot s (raise k (setPlt (fun p => { p with osc := on }) s)) := fun k =>
      SameBoot.trans (b := setPlt (fun p => { p with osc := on }) s) ⟨rfl, rfl, rfl, rfl⟩ (raise_same _ _)
    dsimp only
    split
    · exact h _
    · exact (h _).trans (pilotCause_same _ _)
theorem setCurr_same (c : Nat) (s : State) : SameBoot s (setCurr c s) := by
  unfold setCurr
  dsimp only
  split
  · exact .refl s
  · have h : SameBoot s (raiseIf s.plt.osc (16 * 48 + 3) (setPlt (fun p => { p with curr := BitVec.ofNat 16 c }) s)) :=
      SameBoot.trans (b := setPlt (fun p => { p with curr := BitVec.ofNat 16 c }) s) ⟨rfl, rfl, rfl, rfl⟩
        (.of_unmarked (raiseIf_unmarked _ _ _))
    unfold causeIf
    split
    · exact h.trans (pilotCause_same _ _)
    · exact h
theorem noPwm_same (s : State) : SameBoot s (noPwm s) :=
  ((setOsc_same false s).trans (b := setOsc false s) (c := setPlt (fun p => { p with duty := 0xFFFF, freq := 0, freqerr := false, cplo := 0x8000, hist := [], lowRun := 0 }) (setOsc false s))
    ⟨rfl, rfl, rfl, rfl⟩).trans (setCurr_same _ _)
theorem pilotPassive_same (s : State) : SameBoot s (pilotPassive s) := by
  have h : SameBoot s (openS2 (setPlt (fun p => { p with role := 3, base := true, gen := false, swap := none }) s)) :=
    SameBoot.trans (b := setPlt (fun p => { p with role := 3, base := true, gen := false, swap := none }) s)
      ⟨rfl, rfl, rfl, rfl⟩ (openS2_same _)
  refine (h.trans ?_).trans (noPwm_same _)
  exact ⟨rfl, rfl, rfl, rfl⟩
theorem bootRoles_same (k : BootKind) (s : State) : SameBoot s (bootRoles k s) := by
  unfold bootRoles
  generalize hs : (if k = BootKind.wake false then s else { s with pwr := { s.pwr with held := !(pl s (key 0x60 0)).getLsbD 0 } }) = u
  have h : SameBoot s u := by subst hs; split <;> exact ⟨rfl, rfl, rfl, rfl⟩
  refine h.trans ?_
  dsimp only
  split
  · split
    · exact pilotPassive_same u
    · exact .refl u
  · split <;> exact ⟨rfl, rfl, rfl, rfl⟩
theorem bootReport_same (st : St) (sess : Bool) (s : State) : SameBoot s (bootReport st sess s) := by
  unfold bootReport
  refine SameBoot.of_unmarked ((raiseIf_unmarked _ _ _).trans ?_)
  split
  · rfl
  · exact (logOther_unmarked _ _ _ _).1.trans (raise_unmarked _ _)
theorem SameBoot.ite {a b c : State} (p : Prop) [Decidable p] (hb : SameBoot a b) (hc : SameBoot a c) :
    SameBoot a (if p then b else c) := by
  split
  · exact hb
  · exact hc
theorem placeBand_same (s : State) : SameBoot s (placeBand s) := by
  unfold placeBand
  dsimp only
  split
  · split
    · exact SameBoot.trans (b := { s with chg := { s.chg with ct := _ } }) ⟨rfl, rfl, rfl, rfl⟩ (raise_same _ _)
    · exact .refl s
  · exact .refl s
theorem SameBoot.arm {a b : State} (dt : Nat) (e : Instr) (h : SameBoot a b) : SameBoot a (arm dt e b) :=
  h.trans ⟨rfl, rfl, rfl, rfl⟩
theorem bootTimers_same (k : BootKind) (s : State) : SameBoot s (bootTimers k s) := by
  have first : SameBoot s (if !isSysBoot k && decide (s.plt.role = 0) then Machine.arm (ms 2) .pwmoff s else s) :=
    .ite _ ((SameBoot.refl s).arm _ _) (.refl s)
  have second := SameBoot.ite (isSysBoot k = true) first (first.arm (sec 600) .gaugeOffsetCal)
  exact (SameBoot.ite (k = .por ∨ k = .wake true) (((second.arm _ _).arm _ _).arm _ _) second).arm _ _

/-- What a boot leaves: the states' common part, the cause, and the supplies as they were. -/
theorem bootStart_spec (k : BootKind) (s : State) : Booting (bootStart k s) ∧
    (bootStart k s).glob.rstcause = bootCause k s ∧ (bootStart k s).glob.supplied = s.glob.supplied ∧
    (bootStart k s).glob.logsrc = s.glob.logsrc ∧
    (sensesStrap k = false → (bootStart k s).glob.strap = s.glob.strap) := by
  have same : SameBoot (bootRecord k (dropSlot s)) (bootStart k s) :=
    (((((loadH_sense_same _ _).trans (bootRoles_same k _)).trans
      (.of_unmarked ((repend_unmarked _).trans (senseEvents_unmarked _)))).trans (bootReport_same _ _ _)).trans (placeBand_same _)).trans (bootTimers_same k _)
  obtain ⟨c, u, l, p⟩ := bootRecord_glob k (dropSlot s)
  have cause : bootCause k (dropSlot s) = bootCause k s := by unfold bootCause; rw [dropSlot_glob]
  rw [dropSlot_glob] at u l p
  refine ⟨Booting.congr same.1 same.2.1 same.2.2.1 same.2.2.2 (bootRecord_booting k _), ?_, ?_, ?_, ?_⟩ <;> rw [same.1]
  · rw [c, cause]
  · exact u
  · exact l
  · exact p

end Sys2Proof.Machine
end

