-- ==== Sys2Proof/Tests/Slice0.lean ====
section
/-! SUPPORT. Tests of the model on values that the spec works out, the well-formedness smoke, and for each obligation
with hypotheses a concrete state and operands that meet them. -/

namespace Sys2Proof.Tests

open Sys2Proof Sys2Proof.Machine

set_option Elab.async false

/-! States to test on. -/

/-- A device in RUN, served, from the reset state. -/
def up : State := { State.reset with
  clk.now := 2000000000, glob.supplied := true, glob.vaonOk := true, glob.clocked := true, glob.boot := false, glob.fwup := true,
  glob.st := .run, glob.vsys := 3700, otp.sensed := true }

/-- The Anvil island works. -/
def mkAnvil (s : State) : State :=
  { s with glob.supplied := true, glob.vaonOk := true, glob.clocked := true, otp.sensed := true,
           glob.st := if s.glob.st = .sleep ∨ s.glob.st = .ship then .run else s.glob.st }
/-- The full register set is answered. -/
def mkServed (s : State) : State := let s := mkAnvil s; { s with glob.floor := false, glob.fwup := true, glob.restarting := false }
/-- The command slot takes a packet; `b`: with a session. -/
def mkTakes (b : Bool) (s : State) : State :=
  let s := mkServed s
  { s with bus.cstat := [0, 3, 4, 5].getD (s.bus.cstat % 4) 0, bus.level := if b then max 1 s.bus.level else s.bus.level }
/-- A field of a live register byte. -/
def setLiveBits (k lo w v : Nat) (s : State) : State := putLive k [putBits (lv s k) lo w v] s
/-- A field of a plain register byte. -/
def setPlainBits (k lo w v : Nat) (s : State) : State := putPlain k [putBits (pl s k) lo w v] s
/-- Two phases and shedding for an MPH rail. -/
def fixPh (s : State) (r : Nat) : State := setLiveBits (blk r + 2) 0 4 0xA s
/-- In SLEEP. -/
def mkSleep (s : State) : State := { s with glob.supplied := true, glob.vaonOk := true, glob.st := .sleep }
/-- A Host Notify is due. -/
def mkNotify (s : State) : State := let s := mkServed s; setPlainBits (key 0x4C 1) 0 1 1 { s with bus.hn := 1, bus.hnsusp := false, bus.hnLost := s.bus.hnLost % 3 }
/-- A reaction code of a rail. -/
def mkRx (r kind code : Nat) (s : State) : State := let k := rx r (kind / 2); let s := putLive k [putBits (lv s k) (3 * (kind % 2)) 3 code] s; s
/-- A gate-bias driver with its checks on. -/
def mkSup (r : Nat) (s : State) : State := match rk r with
  | .gb => putLive (blk r) [0xFF] (putLive (blk r + 1) [0xFF] (putLive (blk r + 2) [0xFF] s))
  | _ => s
/-- A rail that may become power-good. -/
def mkPg (r : Nat) (s : State) : State := { mkAnvil s with rl.en := setBit s.rl.en r true, rl.pg := setBit s.rl.pg r false, rl.ss := setBit s.rl.ss r false, inp.gate := false, bk.pvlow := 0, bk.vlow := 0, bk.hot := 0, bk.revblk := 0 }
/-- An MPH rail with transient control armed. -/
def mkTr (c b : Nat) (s : State) : State := setLiveBits (blk (1 + c) + 2) b 1 1 { mkAnvil s with rl.en := setBit s.rl.en (1+c) true, rl.pg := setBit s.rl.pg (1+c) true }
/-- No wake source enabled. -/
def noWake (s : State) : State := putPlain (key 0x60 0) [0] (putPlain (key 0x48 0x24) [0] (putPlain (key 0x48 0x28) [0] (putLive (key 0x40 0) [0] { s with regs.plain := s.regs.plain.filter (fun x => keyPage x.1 ≠ 0x60) })))
/-- A change of the commit in flight. -/
def updC (f : Commit → Commit) (s : State) : State := { s with txn.cur := s.txn.cur.map f, txn.val := s.txn.val.map f }
/-- A commit that finds nothing to object to. -/
def mkClean (s : State) : State := updC (fun c => { c with scope := if c.scope = 0x0200 then c.scope else 0x0FFF, on := 0, off := 0, half := none }) { s with regs.stg := [], regs.live := [], bk := State.reset.bk }
/-- In RUN, served. -/
def mkRuns (s : State) : State := let s := mkServed s; { s with glob.st := if s.glob.st = .standby then .run else s.glob.st }
/-- A Floor table of three entries, its CRC filled in. -/
def ftB : List Byte := [3, 100, 0, 0, 0, 120, 0, 7, 0, 0x21, 90, 3, 6, 0x20, 0x25, 80, 5, 4, 0x21]
/-- The fuse array with that table in region 5. -/
def FT : Map Byte :=
  let b := [ftB.getD 0 0, ftB.getD 1 0] ++ ftB.drop 4
  let c := crc16 b
  let l := [ftB.getD 0 0, ftB.getD 1 0, BitVec.ofNat 8 c.toNat, BitVec.ofNat 8 (c.toNat / 256)] ++ ftB.drop 4
  (List.range l.length).foldl (fun m i => mput 0 m (320 + i) (l.getD i 0)) []
/-- A boot about to end: a firmware image in slot A as shipped, one configuration bank that holds the staged bytes `st`. -/
def mkBoot (st : Map Byte) : State :=
  { mkAnvil up with
    glob.boot := true, glob.fwup := false, otp.shd := [(128, 1)],
    upd.slotA := some ⟨[1, 0, 0], 0, 0, 0, 4096, none⟩, fl.sec := [(192, { count := some 1, data := frameOf 1 3 })],
    fl.cfgA := some ⟨5, st, [], [], [], [], 0⟩ }
/-- What the ROM leaves, and whether the journal is to be written. -/
def bootU (s : State) : Bool × State := (romBoot s).getD (false, s)
/-- With the firmware up and the headers read. -/
def bootV (s : State) : State :=
  headerScan [] { verifySlots (bootU s).2 with glob := { (bootU s).2.glob with fwup := true, fwFails := 0 } }
/-- With the journal written where it is to be, and the roles loaded. -/
def bootW (s : State) : State := loadRoles (writePart (if (bootU s).1 then journalNow (bootV s) else bootV s))
/-- The configuration it loads. -/
def bootC (s : State) : CfgImg := (cfgBank (bootW s)).getD ⟨0, [], [], [], [], [], 0⟩
/-- With that configuration loaded and staged. -/
def bootX (s : State) : State := loadPlain (bootC s) { bootW s with regs := { (bootW s).regs with stg := (bootC s).staged } }
/-- The boot commit. -/
def bootD (s : State) : Commit := { commitOf (bootX s) 1 [0xFF, 0x0F] with slot := false, half := none }
/-- What a boot commit is rejected for. -/
def bootF (s : State) : Found := (validate (bootD s) (startCommit (bootD s) (bootX s))).getD ⟨0, 0, 0, 0⟩



/-- The state a command answers; the state itself where it answers none. -/
def after (c : Instr) (s : State) : State := match exec c s with | .next t => t | .fault _ => s | .refused _ => s

/-- A round that brings nothing. -/
def noData : RoundData := ⟨[], [], ⟨0, 0, 0, 0, []⟩, 0, 0, 0, 0, 0, 0, 0, 0, 0, 0⟩

/-! Well-formedness: an ill-formed term for each check, which the check refuses. -/

theorem test_wf_packet_params : Instr.wf (.echo ⟨5, 1, 2, [7]⟩) = false := by decide
theorem test_wf_packet_count : Instr.wf (.echo ⟨256, 1, 2, List.replicate 253 7⟩) = false := by decide +kernel
theorem test_wf_write_byte : Instr.wf (.registerWrite ⟨4, .writeByte, 0, [], .none⟩) = false := by decide
theorem test_wf_write_word : Instr.wf (.registerWrite ⟨4, .writeWord, 0, [1], .none⟩) = false := by decide
theorem test_wf_block : Instr.wf (.registerWrite ⟨4, .block, 2, [1], .none⟩) = false := by decide
theorem test_wf_window : Instr.wf (.registerWrite ⟨4, .window, 0, [], .none⟩) = false := by decide
theorem test_wf_read_count : Instr.wf (.fieldLatchRead 4 0) = false := by decide
theorem test_wf_conv_values : Instr.wf (.convSeqDone false []) = false := by decide
theorem test_wf_round_mean : RoundData.wf { noData with iMin := 5 } = false := by decide
theorem test_wf_round_max : RoundData.wf { noData with iMax := -5 } = false := by decide
theorem test_wf_ds_bytes : Instr.wf (.dsXferDone (.data (List.replicate 65 0))) = false := by decide +kernel
theorem test_wf_echo : Instr.wf (.echo ⟨4, 1, 1, [7]⟩) = true := by decide

/-! The queue: a step takes the front command; nothing spells a command in bits. -/

theorem test_step_front : (after (.rstclr) { up with glob.rstcause := 5 }).glob.rstcause = 0 := by decide +kernel
theorem test_decode_none : decodeTableWord 16 0x1234 = none := by decide

/-! Values that the spec works out. -/

/-- R269: 85.0 % is 51.0 A, 85.1 % 52.7 A, 26.7 % 16.0 A; R269's table at its other edges. -/
theorem test_pilot_current : [850, 851, 267, 29, 30, 70, 71, 79, 80, 99, 960, 961, 970, 971].map pcurrOf =
    [510, 527, 160, 0, 0xFFFE, 0xFFFE, 0, 0, 60, 60, 800, 800, 800, 0xFFFF] := by decide

/-- R270: 936 Ω is a 20 A cable and 937 Ω is invalid (1,848 mV and 1,849 mV lie on either side). -/
theorem test_proximity_edge : (ppClassOf false 1848, ppClassOf false 1849, ppClassOf true 1500) = (2, 5, 2) := by decide

/-- Example of 11_backup_cell.md, step 2: 3.7256 V at a 4.20 V cell is 38.9 %. -/
theorem test_gauge_soc : socOf (putLive (key 0x44 0) [3, 20, 20] up) 3725600 = some 389 := by decide +kernel

/-- R317: 2000 is a leap year and 2100 is not; a year that is a non-zero multiple of 4 is. -/
theorem test_leap_years : (leap 20 0, leap 20 24, leap 21 0, leap 20 23) = (true, true, false, false) := by decide

/-- R42: a quarter of a cycle is angle 64, fine angle 1,024. -/
theorem test_angle_quarter : (angleOf (cycleUnits / 4), fineOf (cycleUnits / 4)) = (64, 1024) := by decide

/-- The schedule of the example in 02_cycle_timebase.md is valid; a second DITHER is not (R50). -/
theorem test_schedule_example : schValidate 800 [(0, 0x00070000), (1, 0x00032800), (2, 0x00050002), (3, 0x00060020),
    (4, 0x10020040), (5, 0x03010840), (6, 0x100200C0), (7, 0x030108C0)] = none := by decide +kernel
theorem test_schedule_two_dithers : schValidate 800 [(0, 0x00070000), (1, 0x00070080)] = some (6, 1) := by decide +kernel

/-- The example commit of 07_transactions.md: SCOPE 0x0006, MODE 0x05, ANGLE 8, DEADLINE 100 ms. -/
theorem test_commit_params : (let c := commitOf up 0x2E [0x06, 0x00, 0x05, 0x08, 0x64, 0, 0, 0, 0, 0, 0, 0, 0, 0];
    (c.scope, c.when, c.reqlock, c.angle, c.dlms, c.due)) = (0x0006, 1, true, 8, 100, up.clk.now + 200000) := by decide +kernel
theorem test_commit_param_fault : [paramFault [1, 0], paramFault (List.replicate 14 0),
    paramFault [1, 0x10, 0, 0, 0, 0, 0, 0, 0, 0, 0, 0, 0, 0], paramFault [0, 0xF0, 0, 0, 0, 0, 0, 0, 0, 0, 0, 0, 0, 0], paramFault [1, 0, 3, 0, 0, 0, 0, 0, 0, 0, 0, 0, 0, 0]] =
    [some 2, some 0, some 1, some 0, some 2] := by decide

/-- R362: GET_INFO begins with the identity, and is done; ECHO returns its parameters. -/
theorem test_get_info : (let t := after (.getInfo ⟨3, 0x31, 0, []⟩) up; (t.bus.cstat, t.bus.tag, t.bus.cres.take 3, t.bus.cres.length)) =
    (3, 0x31, [0x26, 0x40, 0xB0], 16) := by decide +kernel
theorem test_echo : (after (.echo ⟨5, 9, 2, [7, 8]⟩) up).bus.cres = [7, 8] := by decide +kernel
/-- R353: a byte count other than LEN + 3 is rejected with 0xF1; one above 64 is NACKed. -/
theorem test_packet_length : (let t := after (.echo ⟨4, 9, 2, [7]⟩) up; (t.bus.cstat, t.bus.err)) = (5, 0xF1) := by decide +kernel
theorem test_packet_too_long : (after (.echo ⟨65, 9, 62, List.replicate 62 1⟩) up).bus.nack = true := by decide +kernel

/-- R212's example, WDCLOSED 10 ms: an early kick latches ERR 1 and enters SAFE. -/
theorem test_watchdog_early : (let s := { up with safe.wdState := 2, safe.wdOpen := up.clk.now + 20 }
    let t := after (.wdKick 0x5AA5 .none) s; (t.glob.st, t.safe.wdLatch)) = (.safe, true) := by decide +kernel

/-- R27: 0xD2 arms the key and 0x2D then resets with KEYRST. -/
theorem test_key_reset : (let t := after (.rstkeyWrite 0x2D) (after (.rstkeyWrite 0xD2) up); (t.glob.st, t.glob.rstcause)) =
    (.start, setBit up.glob.rstcause 4 true) := by decide +kernel

/-- R47, R57: QUIET 0x10 of the example lasts 16 µs. -/
theorem test_quiet_length : (after (.quiet 0x10) up).qt.until_ = up.clk.now + 32 := by decide +kernel

/-- R375: a 0 written to a pending bit clears it, a 1 leaves it. -/
theorem test_pend_write : pendOf (after (.pendWrite 47 0xFFFE) { up with irq.pend := [(47, 3)] }) 47 = 2 := by decide +kernel

/-- A register byte written by the host reads back (R345). -/
theorem test_register_write : pl (after (.registerWrite ⟨0x0C, .writeByte, 0, [0x55], .none⟩) { up with regs.page := 1 }) (key 1 0x0C) = 0x55 := by
  decide +kernel

/-- R349, R407: the CRC-8 with polynomial 0x07 and initial value 0; 0xF4 is its customary check value over the digits 1 to 9. -/
theorem test_crc8 : crc8 [0x31, 0x32, 0x33, 0x34, 0x35, 0x36, 0x37, 0x38, 0x39] = 0xF4 := by decide +kernel

/-- The rejected commit of 07_transactions.md: BKFREQ 8 for BKB2 at 1.000 V from 12.00 V fails TIMING, 0x08, at 0x12:0x29
on rail 11; with BKFREQ 6 it passes (example of 05_integrated_rails.md). -/
def bkb2 (freq : Byte) : State := putStg (key 0x12 0x28) [32, freq] (putLive (key 0x12 0x28) [32] up)
theorem test_commit_rejected : validate (commitOf (bkb2 8) 0x2F (8 :: List.replicate 13 0)) (bkb2 8) = some ⟨0x08, 0x12, 0x29, 11⟩ := by
  decide +kernel
theorem test_commit_passes : validate (commitOf (bkb2 6) 0x2F (8 :: List.replicate 13 0)) (bkb2 6) = none := by decide +kernel


/-- R290: at 25 °C the NTC has its nominal resistance; with 10 kΩ the pin is at half of 1.800 V, and back. -/
theorem test_ntc_nominal : (ntcLevel 10 3435 25, ntcLevel 20 3435 25, ntcTemp 10 3435 900) = (900, 1200, some 400) := by decide +kernel

/-- R339: a Receive Byte returns the STATE byte and no more while PEC is off. -/
theorem test_receive_byte : (after (.quickCommand .receive) (putPlain (key 0x4C 0) [0] up)).bus.rdata = [stateByte up] := by decide +kernel

/-- The one-block example of FIPS 180-4 (R425): the digest of the three bytes "abc". -/
theorem test_sha256 : (sha256 [0x61, 0x62, 0x63]).take 8 = [0xBA, 0x78, 0x16, 0xBF, 0x8F, 0x01, 0xCF, 0xEA] := by decide +kernel

/-! The hypotheses of every clause of the obligations can be met. -/

/-- `StepRunsFrontCommand`. -/
theorem witness_StepRunsFrontCommand :
    (∃ (s : State) (c : Instr) (rest : List Instr), s.pending = c :: rest) ∧
    (∃ (s : State), s.pending = []) ∧
    (∃ (s : State), (∃ x ∈ s.clk.timers, x.due ≤ s.clk.now) ∨ (∃ x ∈ s.cyc.acts, x.due ≤ s.clk.now)) ∧
    (∃ (s : State), (∀ x ∈ s.clk.timers, s.clk.now < x.due) ∧ (∀ x ∈ s.cyc.acts, s.clk.now < x.due)) :=
    ⟨⟨(let s := up; let s := { s with pending := [.rstclr] }; s), (.rstclr : Instr), ([] : List Instr), by decide +kernel⟩,
    ⟨up, by decide +kernel⟩,
    ⟨up, by decide +kernel⟩,
    ⟨(let s := up; let s := { up with clk.timers := [⟨2000000001, .quietEnd⟩], cyc.acts := [] }; s), by decide +kernel⟩⟩

/-- `KeyAndClears`. -/
theorem witness_KeyAndClears :
    (∃ (s : State), busUp s = true) ∧
    (∃ (s : State), busUp s = true ∧ s.glob.keyArmed = true) ∧
    (∃ (s : State) (v : Byte), busUp s = true ∧ v ≠ 0xD2 ∧ (¬(v = 0x2D ∧ s.glob.keyArmed = true))) ∧
    (∃ (s : State), busUp s = true) ∧
    (∃ (s : State), busUp s = true) :=
    ⟨⟨(let s := up; let s := mkServed s; s), by decide +kernel⟩,
    ⟨(let s := up; let s := mkServed s; let s := { s with glob.keyArmed := true }; s), by decide +kernel⟩,
    ⟨(let s := up; let s := mkServed s; s), (0x9d#8 : Byte), by decide +kernel⟩,
    ⟨(let s := up; let s := mkServed s; s), by decide +kernel⟩,
    ⟨(let s := up; let s := mkServed s; s), by decide +kernel⟩⟩

/-- `Supplies`. -/
theorem witness_Supplies :
    (∃ (s : State) (vsys : Nat) (vin : Nat), (2700 ≤ vsys ∨ 2700 ≤ vin)) ∧
    (∃ (s : State) (vsys : Nat) (vin : Nat), vsys < 2700 ∧ vin < 2700) ∧
    (∃ (s : State), s.glob.supplied = true) ∧
    (∃ (s : State) (vin : Nat), s.glob.supplied = true ∧ s.glob.logsrc = false ∧ 2700 ≤ vin) ∧
    (∃ (s : State) (vin : Nat), s.glob.supplied = true ∧ s.glob.logsrc = false ∧ vin < 2700) ∧
    (∃ (s : State), s.glob.supplied = true) ∧
    (∃ (s : State), s.glob.vaonOk = true) ∧
    (∃ (s : State), s.glob.vaonOk = false) :=
    ⟨⟨up, (2700 : Nat), (0 : Nat), by decide +kernel⟩,
    ⟨up, (2699 : Nat), (2699 : Nat), by decide +kernel⟩,
    ⟨(let s := up; let s := { s with glob.supplied := true }; s), by decide +kernel⟩,
    ⟨(let s := up; let s := { s with glob.supplied := true }; let s := { s with glob.logsrc := false }; s), (2700 : Nat), by decide +kernel⟩,
    ⟨(let s := up; let s := { s with glob.supplied := true }; let s := { s with glob.logsrc := false }; s), (2699 : Nat), by decide +kernel⟩,
    ⟨(let s := up; let s := { s with glob.supplied := true }; s), by decide +kernel⟩,
    ⟨(let s := up; let s := { s with glob.vaonOk := true }; s), by decide +kernel⟩,
    ⟨(let s := up; let s := { s with glob.vaonOk := false }; s), by decide +kernel⟩⟩

/-- `BootOutcomes`. -/
theorem witness_BootOutcomes :
    (∃ (s : State) (b : BootInfo) (n : Nat), s.glob.boot = true ∧ anvilOn s = true ∧ s.glob.floor = false ∧ ((n = 2 ∧ (fuse s.otp.shd 6 0).getLsbD 0 = true) ∨ (n = 5 ∧ (fuse s.otp.shd 6 0).getLsbD 0 = false ∧ b.flashOk = false) ∨ (n = 1 ∧ (fuse s.otp.shd 6 0).getLsbD 0 = false ∧ b.flashOk = true ∧ romBoot s = none))) ∧
    (∃ (s : State) (b : BootInfo) (jrn : Bool) (u : State), s.glob.boot = true ∧ anvilOn s = true ∧ s.glob.floor = false ∧ (fuse s.otp.shd 6 0).getLsbD 0 = false ∧ b.flashOk = true ∧ romBoot s = some (jrn, u)) ∧
    (∃ (s : State), s.glob.boot = true ∧ anvilOn s = true ∧ s.glob.fwup = false ∧ s.glob.floor = false ∧ s.glob.fwFails = 0) ∧
    (∃ (s : State), s.glob.boot = true ∧ anvilOn s = true ∧ s.glob.fwup = false ∧ s.glob.floor = false ∧ 1 ≤ s.glob.fwFails) ∧
    (∃ (s : State), s.glob.restarting = true ∧ s.glob.boot = false ∧ anvilOn s = true ∧ s.glob.fwup = false ∧ s.glob.floor = false ∧ s.glob.fwFails = 0) ∧
    (∃ (s : State), s.glob.restarting = true ∧ s.glob.boot = false ∧ anvilOn s = true ∧ s.glob.fwup = false ∧ s.glob.floor = false ∧ 1 ≤ s.glob.fwFails) :=
    ⟨⟨(let n : Nat := 1; let s := up; let s := { s with glob.boot := true }; let s := mkAnvil s; let s := { s with glob.floor := false }; let s := { mkAnvil s with glob.boot := true, glob.floor := false, otp.shd := mput 0 s.otp.shd (64*6) (if n = 2 then 1 else 0), upd.st := 0, upd.slotA := none, upd.slotB := none }; s), ({ flashOk := true, assay := { fail := 0x00#5, fuses := 0x00000000#32, cmpFail := 0x00000000#32, cmpLost := 0x00000000#32, sectors := [] } } : BootInfo), (1 : Nat), by decide +kernel⟩,
    ⟨(let s := up; let s := mkBoot []; s), (⟨true, ⟨0, 0, 0, 0, []⟩⟩ : BootInfo), ((bootU (mkBoot [])).1 : Bool), ((bootU (mkBoot [])).2 : State), by decide +kernel⟩,
    ⟨(let s := up; let s := { s with glob.boot := true }; let s := mkAnvil s; let s := { s with glob.fwup := false }; let s := { s with glob.floor := false }; let s := { s with glob.fwFails := 0 }; let s := { mkAnvil s with glob.boot := true, glob.fwup := false, glob.floor := false, glob.fwFails := 0 }; s), by decide +kernel⟩,
    ⟨(let s := up; let s := { s with glob.boot := true }; let s := mkAnvil s; let s := { s with glob.fwup := false }; let s := { s with glob.floor := false }; let s := let s := { mkAnvil s with glob.boot := true, glob.fwup := false, glob.floor := false, glob.fwFails := 1 }; { s with glob.fwFails := 1 }; s), by decide +kernel⟩,
    ⟨(let s := up; let s := { s with glob.restarting := true }; let s := { s with glob.boot := false }; let s := mkAnvil s; let s := { s with glob.fwup := false }; let s := { s with glob.floor := false }; let s := { s with glob.fwFails := 0 }; let s := { mkAnvil s with glob.restarting := true, glob.boot := false, glob.fwup := false, glob.floor := false, glob.fwFails := 0 }; s), by decide +kernel⟩,
    ⟨(let s := up; let s := { s with glob.restarting := true }; let s := { s with glob.boot := false }; let s := mkAnvil s; let s := { s with glob.fwup := false }; let s := { s with glob.floor := false }; let s := { mkAnvil s with glob.restarting := true, glob.boot := false, glob.fwup := false, glob.floor := false, glob.fwFails := 1 }; s), by decide +kernel⟩⟩

/-- `BootContents`. -/
theorem witness_BootContents :
    (∃ (s : State) (b : BootInfo) (jrn : Bool) (u : State) (v : State) (w : State) (x : State) (c : CfgImg) (d : Commit), s.glob.boot = true ∧ anvilOn s = true ∧ s.glob.floor = false ∧ (fuse s.otp.shd 6 0).getLsbD 0 = false ∧ b.flashOk = true ∧ romBoot s = some (jrn, u) ∧ v = headerScan (b.assay.sectors.map (·.val)) { verifySlots u with glob := { u.glob with fwup := true, fwFails := 0 } } ∧ w = loadRoles (writePart (if jrn then journalNow v else v)) ∧ cfgBank w = some c ∧ x = loadPlain c { w with regs := { w.regs with stg := c.staged } } ∧ d = { commitOf x 1 [0xFF, 0x0F] with slot := false, half := none } ∧ validate d (startCommit d x) = none) ∧
    (∃ (s : State) (b : BootInfo) (jrn : Bool) (u : State) (v : State) (w : State) (x : State) (c : CfgImg) (d : Commit) (f : Found), s.glob.boot = true ∧ anvilOn s = true ∧ s.glob.floor = false ∧ (fuse s.otp.shd 6 0).getLsbD 0 = false ∧ b.flashOk = true ∧ romBoot s = some (jrn, u) ∧ v = headerScan (b.assay.sectors.map (·.val)) { verifySlots u with glob := { u.glob with fwup := true, fwFails := 0 } } ∧ w = loadRoles (writePart (if jrn then journalNow v else v)) ∧ cfgBank w = some c ∧ x = loadPlain c { w with regs := { w.regs with stg := c.staged } } ∧ d = { commitOf x 1 [0xFF, 0x0F] with slot := false, half := none } ∧ validate d (startCommit d x) = some f) ∧
    (∃ (s : State), anvilOn s = true ∧ cfgBank s = none) ∧
    (∃ (s : State), s.glob.boot = true ∧ anvilOn s = true ∧ s.glob.floor = false ∧ (fuse s.otp.shd 6 0).getLsbD 0 = true) ∧
    (∃ (s : State), anvilOn s = true ∧ s.glob.boot = false ∧ s.glob.st = .stop ∧ s.seq.phase = 5 ∧ s.pwr.req = none ∧ startOk s = true ∧ s.glob.floor = true ∧ s.glob.floorTab = false) ∧
    (∃ (s : State), floorTable s.otp.shd = []) ∧
    (∃ (s : State) (e : _), e ∈ floorTable s.otp.shd) :=
    ⟨⟨(let s := up; let s := mkBoot []; s), (⟨true, ⟨0, 0, 0, 0, []⟩⟩ : BootInfo), ((bootU (mkBoot [])).1 : Bool), ((bootU (mkBoot [])).2 : State), (bootV (mkBoot []) : State), (bootW (mkBoot []) : State), (bootX (mkBoot []) : State), (bootC (mkBoot []) : CfgImg), (bootD (mkBoot []) : Commit), by decide +kernel⟩,
    ⟨(let s := up; let s := mkBoot [(key 0x20 0x41, 1), (key 0x21 1, 0x83)]; s), (⟨true, ⟨0, 0, 0, 0, []⟩⟩ : BootInfo), ((bootU (mkBoot [(key 0x20 0x41, 1), (key 0x21 1, 0x83)])).1 : Bool), ((bootU (mkBoot [(key 0x20 0x41, 1), (key 0x21 1, 0x83)])).2 : State), (bootV (mkBoot [(key 0x20 0x41, 1), (key 0x21 1, 0x83)]) : State), (bootW (mkBoot [(key 0x20 0x41, 1), (key 0x21 1, 0x83)]) : State), (bootX (mkBoot [(key 0x20 0x41, 1), (key 0x21 1, 0x83)]) : State), (bootC (mkBoot [(key 0x20 0x41, 1), (key 0x21 1, 0x83)]) : CfgImg), (bootD (mkBoot [(key 0x20 0x41, 1), (key 0x21 1, 0x83)]) : Commit), (bootF (mkBoot [(key 0x20 0x41, 1), (key 0x21 1, 0x83)]) : Found), by decide +kernel⟩,
    ⟨(let s := up; let s := mkAnvil s; let s := { mkAnvil s with fl.cfgA := none, fl.cfgB := none }; s), by decide +kernel⟩,
    ⟨(let s := up; let s := { s with glob.boot := true }; let s := mkAnvil s; let s := { s with glob.floor := false }; let s := { mkAnvil s with glob.boot := true, glob.floor := false, otp.shd := mput 0 FT 384 1 }; s), by decide +kernel⟩,
    ⟨(let s := up; let s := mkAnvil s; let s := { s with glob.boot := false }; let s := { s with glob.st := .stop }; let s := { s with seq.phase := 5 }; let s := { s with pwr.req := none }; let s := { s with glob.floor := true }; let s := { s with glob.floorTab := false }; let s := { mkAnvil s with glob.boot := false, glob.st := .stop, seq.phase := 5, pwr.req := none, pwr.held := false, glob.floor := true, glob.floorTab := false, inp.a.qual := true, otp.shd := FT }; s), by decide +kernel⟩,
    ⟨up, by decide +kernel⟩,
    ⟨(let s := up; let s := { s with otp.shd := FT }; s), (let s := (let s := up; let s := { s with otp.shd := FT }; s); ((floorTable s.otp.shd).getD (s.cyc.cnt.toNat % 3) ⟨99,0,0,0,0,none,false,false⟩)), by decide +kernel⟩⟩

/-- `PllPulsesAndStates`. -/
theorem witness_PllPulsesAndStates :
    (∃ (s : State) (e : Bool) (l : Nat), edgeCounts s e l = false) ∧
    (∃ (s : State) (e : Bool) (l : Nat), anvilOn s = true ∧ cycEn s = true ∧ edgeCounts s e l = true ∧ s.cyc.pll = .free ∧ s.cyc.lastAcc = none) ∧
    (∃ (s : State) (e : Bool) (l : Nat) (a : Nat), anvilOn s = true ∧ cycEn s = true ∧ edgeCounts s e l = true ∧ s.cyc.pll = .free ∧ s.cyc.lastAcc = some a ∧ 125000 < (s.clk.now - a) * (if edgeBoth s then 2 else 1)) ∧
    (∃ (s : State) (e : Bool) (l : Nat) (a : Nat), anvilOn s = true ∧ cycEn s = true ∧ edgeCounts s e l = true ∧ s.cyc.pll = .free ∧ s.cyc.lastAcc = some a ∧ 2000 ≤ (s.clk.now - a) * (if edgeBoth s then 2 else 1) ∧ (s.clk.now - a) * (if edgeBoth s then 2 else 1) ≤ 125000) ∧
    (∃ (s : State) (e : Bool) (l : Nat) (a : Nat), anvilOn s = true ∧ cycEn s = true ∧ edgeCounts s e l = true ∧ s.cyc.pll = .free ∧ s.cyc.lastAcc = some a ∧ (s.clk.now - a) * (if edgeBoth s then 2 else 1) < 2000) ∧
    (∃ (s : State) (e : Bool) (l : Nat) (a : Nat), anvilOn s = true ∧ cycEn s = true ∧ edgeCounts s e l = true ∧ s.cyc.pll = .acq ∧ s.cyc.lastAcc = some a ∧ s.cyc.acqMiss < 3 ∧ ((s.clk.now - a) * (if edgeBoth s then 2 else 1) < 2000 ∨ 125000 < (s.clk.now - a) * (if edgeBoth s then 2 else 1))) ∧
    (∃ (s : State) (e : Bool) (l : Nat) (a : Nat), anvilOn s = true ∧ cycEn s = true ∧ edgeCounts s e l = true ∧ s.cyc.pll = .acq ∧ s.cyc.lastAcc = some a ∧ 2000 ≤ (s.clk.now - a) * (if edgeBoth s then 2 else 1) ∧ (s.clk.now - a) * (if edgeBoth s then 2 else 1) ≤ 125000 ∧ angofsPulse s e = true ∧ 4 ≤ goodRun s (phaseErr s e)) ∧
    (∃ (s : State) (e : Bool) (l : Nat) (a : Nat), anvilOn s = true ∧ cycEn s = true ∧ edgeCounts s e l = true ∧ s.cyc.pll = .acq ∧ s.cyc.lastAcc = some a ∧ 2000 ≤ (s.clk.now - a) * (if edgeBoth s then 2 else 1) ∧ (s.clk.now - a) * (if edgeBoth s then 2 else 1) ≤ 125000 ∧ (angofsPulse s e = true → goodRun s (phaseErr s e) < 4)) ∧
    (∃ (s : State) (e : Bool) (l : Nat), anvilOn s = true ∧ cycEn s = true ∧ edgeCounts s e l = true ∧ (s.cyc.pll = .lock ∨ s.cyc.pll = .hold) ∧ (s.clk.now < winLo s ∨ winHi s < s.clk.now)) ∧
    (∃ (s : State) (e : Bool) (l : Nat), anvilOn s = true ∧ cycEn s = true ∧ edgeCounts s e l = true ∧ (s.cyc.pll = .lock ∨ s.cyc.pll = .hold) ∧ winLo s ≤ s.clk.now ∧ s.clk.now ≤ winHi s ∧ within (phaseErr s e) 4 = true) ∧
    (∃ (s : State) (e : Bool) (l : Nat), anvilOn s = true ∧ cycEn s = true ∧ edgeCounts s e l = true ∧ (s.cyc.pll = .lock ∨ s.cyc.pll = .hold) ∧ winLo s ≤ s.clk.now ∧ s.clk.now ≤ winHi s ∧ within (phaseErr s e) 4 = false) ∧
    (∃ (s : State), anvilOn s = true ∧ s.cyc.pll = .lock) ∧
    (∃ (s : State), anvilOn s = true ∧ s.cyc.pll = .hold ∧ s.cyc.misscnt < 16) ∧
    (∃ (s : State), anvilOn s = true ∧ s.cyc.pll = .hold ∧ 16 ≤ s.cyc.misscnt) ∧
    (∃ (s : State), (s.cyc.pll = .free ∨ s.cyc.pll = .acq)) ∧
    (∃ (s : State), anvilOn s = true ∧ s.cyc.pll = .acq ∧ 3 ≤ s.cyc.acqMiss) ∧
    (∃ (s : State), s.cyc.pll = .acq ∧ s.cyc.acqMiss < 3) ∧
    (∃ (s : State), s.cyc.pll ≠ .acq) ∧
    (∃ (s : State), anvilOn s = true ∧ s.cyc.pll = .acq ∧ s.cyc.acqTmo = false) ∧
    (∃ (s : State), (s.cyc.pll ≠ .acq ∨ s.cyc.acqTmo = true)) :=
    ⟨⟨(let e : Bool := false; let s := up; let s := setPlainBits (key 1 0) 1 2 (if e then 1 else 0) s; s), (false : Bool), (1 : Nat), by decide +kernel⟩,
    ⟨(let e : Bool := true; let l : Nat := 1; let s := up; let s := mkAnvil s; let s := setPlainBits (key 1 0) 0 1 1 s; let s := setPlainBits (key 1 0) 5 3 (if (16 + l) < 4 then 0 else 1) (setPlainBits (key 1 0) 1 2 (if (s.clk.now % 2 = 0) then 2 else if e then 0 else 1) s); let s := { s with cyc.pll := .free }; let s := { s with cyc.lastAcc := none }; s), (true : Bool), ((let l : Nat := 1; (16 + l)) : Nat), by decide +kernel⟩,
    ⟨(let e : Bool := true; let l : Nat := 1; let a : Nat := 1; let s := up; let s := mkAnvil s; let s := setPlainBits (key 1 0) 0 1 1 s; let s := setPlainBits (key 1 0) 5 3 (if (16 + l) < 4 then 0 else 1) (setPlainBits (key 1 0) 1 2 (if (s.clk.now % 2 = 0) then 2 else if e then 0 else 1) s); let s := { s with cyc.pll := .free }; let s := { s with cyc.lastAcc := some a }; let s := { s with clk.now := a + 130000 }; let s := { s with clk.now := a + 62501 }; s), (true : Bool), ((let l : Nat := 1; (16 + l)) : Nat), (1 : Nat), by decide +kernel⟩,
    ⟨(let e : Bool := true; let l : Nat := 1; let a : Nat := 1; let s := up; let s := mkAnvil s; let s := setPlainBits (key 1 0) 0 1 1 s; let s := setPlainBits (key 1 0) 5 3 (if (16 + l) < 4 then 0 else 1) (setPlainBits (key 1 0) 1 2 (if (s.clk.now % 2 = 0) then 2 else if e then 0 else 1) s); let s := { s with cyc.pll := .free }; let s := { s with cyc.lastAcc := some a }; let s := { s with clk.now := a + 30000 }; let s := { s with clk.now := a + 1000 }; s), (true : Bool), ((let l : Nat := 1; (16 + l)) : Nat), (1 : Nat), by decide +kernel⟩,
    ⟨(let e : Bool := true; let l : Nat := 1; let a : Nat := 1; let s := up; let s := mkAnvil s; let s := setPlainBits (key 1 0) 0 1 1 s; let s := setPlainBits (key 1 0) 5 3 (if (16 + l) < 4 then 0 else 1) (setPlainBits (key 1 0) 1 2 (if (s.clk.now % 2 = 0) then 2 else if e then 0 else 1) s); let s := { s with cyc.pll := .free }; let s := { s with cyc.lastAcc := some a }; let s := { s with clk.now := a + 900 }; let s := { s with clk.now := a + 999 }; s), (true : Bool), ((let l : Nat := 1; (16 + l)) : Nat), (1 : Nat), by decide +kernel⟩,
    ⟨(let e : Bool := true; let l : Nat := 1; let a : Nat := 1; let s := up; let s := mkAnvil s; let s := setPlainBits (key 1 0) 0 1 1 s; let s := setPlainBits (key 1 0) 5 3 (if (16 + l) < 4 then 0 else 1) (setPlainBits (key 1 0) 1 2 (if (s.clk.now % 2 = 0) then 2 else if e then 0 else 1) s); let s := { s with cyc.pll := .acq }; let s := { s with cyc.lastAcc := some a }; let s := { s with clk.now := a + (if a % 2 = 0 then 900 else 130000), cyc.acqMiss := s.cyc.acqMiss % 3 }; let s := { s with clk.now := a + 999, cyc.acqMiss := 2 }; s), (true : Bool), ((let l : Nat := 1; (16 + l)) : Nat), (1 : Nat), by decide +kernel⟩,
    ⟨(let e : Bool := true; let l : Nat := 1; let a : Nat := 1; let s := up; let s := mkAnvil s; let s := setPlainBits (key 1 0) 0 1 1 s; let s := setPlainBits (key 1 0) 5 3 (if (16 + l) < 4 then 0 else 1) (setPlainBits (key 1 0) 1 2 (if (s.clk.now % 2 = 0) then 2 else if e then 0 else 1) s); let s := { s with cyc.pll := .acq }; let s := { s with cyc.lastAcc := some a }; let s := let s := setPlainBits (key 1 0) 1 2 (if e then 0 else 1) s; { s with clk.now := a + 30000, cyc.phase := (pl s (key 1 0xC)).toNat * (cycleUnits / 256), cyc.good := 3, cyc.cnt := 7, cyc.goodCyc := 6 }; s), (true : Bool), ((let l : Nat := 1; (16 + l)) : Nat), (1 : Nat), by decide +kernel⟩,
    ⟨(let e : Bool := true; let l : Nat := 1; let a : Nat := 1; let s := up; let s := mkAnvil s; let s := setPlainBits (key 1 0) 0 1 1 s; let s := setPlainBits (key 1 0) 5 3 (if (16 + l) < 4 then 0 else 1) (setPlainBits (key 1 0) 1 2 (if (s.clk.now % 2 = 0) then 2 else if e then 0 else 1) s); let s := { s with cyc.pll := .acq }; let s := { s with cyc.lastAcc := some a }; let s := let s := setPlainBits (key 1 0) 1 2 (if e then 0 else 1) s; { s with clk.now := a + 30000, cyc.phase := ((pl s (key 1 0xC)).toNat * (cycleUnits / 256) + (if a % 2 = 0 then 5 else cycleUnits / 3)) % cycleUnits }; s), (true : Bool), ((let l : Nat := 1; (16 + l)) : Nat), (1 : Nat), by decide +kernel⟩,
    ⟨(let e : Bool := true; let l : Nat := 1; let s := up; let s := mkAnvil s; let s := setPlainBits (key 1 0) 0 1 1 s; let s := setPlainBits (key 1 0) 5 3 (if (16 + l) < 4 then 0 else 1) (setPlainBits (key 1 0) 1 2 (if (s.clk.now % 2 = 0) then 2 else if e then 0 else 1) s); let s := { s with cyc.pll := if s.cyc.cnt.getLsbD 3 then .lock else .hold, cyc.expect := s.clk.now - 1, cyc.period := 2000 }; let s := { s with clk.now := winHi s + 1 }; s), (true : Bool), ((let l : Nat := 1; (16 + l)) : Nat), by decide +kernel⟩,
    ⟨(let e : Bool := true; let l : Nat := 1; let s := up; let s := mkAnvil s; let s := setPlainBits (key 1 0) 0 1 1 s; let s := setPlainBits (key 1 0) 5 3 (if (16 + l) < 4 then 0 else 1) (setPlainBits (key 1 0) 1 2 (if (s.clk.now % 2 = 0) then 2 else if e then 0 else 1) s); let s := { s with cyc.pll := if s.cyc.cnt.getLsbD 3 then .lock else .hold, cyc.expect := s.clk.now - 2000, cyc.period := 2010, cyc.lag := s.cyc.lag % 9, cyc.phase := markedAngle s e * (cycleUnits / 256) + 77 }; let s := { s with clk.now := winHi s }; s), (true : Bool), ((let l : Nat := 1; (16 + l)) : Nat), by decide +kernel⟩,
    ⟨(let e : Bool := true; let l : Nat := 1; let s := up; let s := mkAnvil s; let s := setPlainBits (key 1 0) 0 1 1 s; let s := setPlainBits (key 1 0) 5 3 (if (16 + l) < 4 then 0 else 1) (setPlainBits (key 1 0) 1 2 (if (s.clk.now % 2 = 0) then 2 else if e then 0 else 1) s); let s := { s with cyc.pll := if s.cyc.cnt.getLsbD 3 then .lock else .hold, cyc.expect := s.clk.now - 2000, cyc.period := 2010, cyc.lag := s.cyc.lag % 9, cyc.phase := (markedAngle s e * (cycleUnits / 256) + cycleUnits / 3) % cycleUnits }; let s := { s with clk.now := winLo s }; s), (true : Bool), ((let l : Nat := 1; (16 + l)) : Nat), by decide +kernel⟩,
    ⟨(let s := up; let s := mkAnvil s; let s := { s with cyc.pll := .lock }; s), by decide +kernel⟩,
    ⟨(let s := up; let s := mkAnvil s; let s := { s with cyc.pll := .hold }; let s := { s with cyc.misscnt := s.cyc.misscnt % 16 }; let s := { s with cyc.misscnt := 15 }; s), by decide +kernel⟩,
    ⟨(let s := up; let s := mkAnvil s; let s := { s with cyc.pll := .hold }; let s := { s with cyc.misscnt := 16 }; s), by decide +kernel⟩,
    ⟨(let s := up; let s := { s with cyc.pll := if s.cyc.cnt.getLsbD 3 then .free else .acq }; s), by decide +kernel⟩,
    ⟨(let s := up; let s := mkAnvil s; let s := { s with cyc.pll := .acq }; let s := { s with cyc.acqMiss := 3 }; s), by decide +kernel⟩,
    ⟨(let s := up; let s := { s with cyc.pll := .acq }; let s := { s with cyc.acqMiss := s.cyc.acqMiss % 3 }; let s := { s with cyc.acqMiss := 2 }; s), by decide +kernel⟩,
    ⟨up, by decide +kernel⟩,
    ⟨(let s := up; let s := mkAnvil s; let s := { s with cyc.pll := .acq }; let s := { s with cyc.acqTmo := false }; s), by decide +kernel⟩,
    ⟨up, by decide +kernel⟩⟩

/-- `TimebaseAndQuiet`. -/
theorem witness_TimebaseAndQuiet :
    (∃ (s : State), Served s) ∧
    (∃ (s : State) (v : Byte), Served s ∧ v.toNat / 2 % 4 ≠ 3) ∧
    (∃ (s : State) (v : Byte), Served s ∧ v.toNat / 2 % 4 = 3 ∧ v.getLsbD 0 = true) ∧
    (∃ (s : State) (v : Byte), Served s ∧ v.toNat / 2 % 4 = 3 ∧ v.getLsbD 0 = false) ∧
    (∃ (s : State) (v : Word), Served s ∧ 256 ≤ v.toNat ∧ v.toNat ≤ 16000) ∧
    (∃ (s : State) (v : Word), Served s ∧ (v.toNat < 256 ∨ 16000 < v.toNat) ∧ s.glob.buserr.getLsbD 1 = false) ∧
    (∃ (s : State) (v : Word), Served s ∧ (v.toNat < 256 ∨ 16000 < v.toNat) ∧ s.glob.buserr.getLsbD 1 = true) ∧
    (∃ (s : State) (len : Byte), anvilOn s = true ∧ quietDis s = false ∧ len ≠ 0 ∧ len.toNat ≤ 20 ∧ s.qt.until_ + us 1 ≤ s.clk.now ∧ s.clk.now ∉ s.qt.spill) ∧
    (∃ (s : State) (len : Byte), anvilOn s = true ∧ quietDis s = false ∧ len ≠ 0 ∧ len.toNat ≤ 20 ∧ s.qt.until_ + us 1 ≤ s.clk.now ∧ s.clk.now ∈ s.qt.spill) ∧
    (∃ (s : State) (len : Byte), anvilOn s = true ∧ quietDis s = false ∧ len ≠ 0 ∧ len.toNat ≤ 20 ∧ s.clk.now < s.qt.until_ + us 1 ∧ s.clk.now ∉ s.qt.spill) ∧
    (∃ (s : State) (len : Byte), (quietDis s = true ∨ len = 0 ∨ 20 < len.toNat)) ∧
    (∃ (v : Byte) (s : State), v.getLsbD 1 = true) ∧
    (∃ (s : State) (r : PhRail), gapped s r.val = true ∧ (r.val = 0 ∨ s.bk.strk.getLsbD (r.val - 1) = false)) ∧
    (∃ (s : State), anvilOn s = true) ∧
    (∃ (s : State) (r : Nat) (f : Nat) (lo : Nat) (hi : Nat), freqOf (lv s) r = some (f, lo, hi) ∧ lo ≤ f ∧ f ≤ hi ∧ foldedBack s r = false) ∧
    (∃ (s : State) (r : Nat) (f : Nat) (lo : Nat) (hi : Nat), freqOf (lv s) r = some (f, lo, hi) ∧ lo ≤ f ∧ f ≤ hi ∧ foldedBack s r = true) ∧
    (∃ (s : State) (r : PhRail) (a : Nat), anvilOn s = true ∧ has s.rl.en r.val = true ∧ sheden (lv s) r.val = true ∧ nph (lv s) r.val = 2 ∧ has s.rl.shed r.val = false ∧ count3 (healthy (phOf s r.val)) = 2 ∧ a < pshed s r.val) ∧
    (∃ (s : State) (r : PhRail) (a : Nat), anvilOn s = true ∧ has s.rl.en r.val = true ∧ sheden (lv s) r.val = true ∧ nph (lv s) r.val = 2 ∧ has s.rl.shed r.val = true ∧ 3 * pshed s r.val < 2 * a) :=
    ⟨⟨(let s := up; let s := mkServed s; s), ⟨by decide +kernel, by decide +kernel⟩⟩,
    ⟨(let s := up; let s := mkServed s; s), ((let v : Byte := 0x9d#8; (v &&& 0xFB)) : Byte), ⟨by decide +kernel, by decide +kernel⟩, by decide +kernel⟩,
    ⟨(let s := up; let s := mkServed s; s), ((let v : Byte := 0x9d#8; (v ||| 7)) : Byte), ⟨by decide +kernel, by decide +kernel⟩, by decide +kernel⟩,
    ⟨(let s := up; let s := mkServed s; s), ((let v : Byte := 0x9d#8; ((v ||| 7) - 1)) : Byte), ⟨by decide +kernel, by decide +kernel⟩, by decide +kernel⟩,
    ⟨(let s := up; let s := mkServed s; s), (256 : Word), ⟨by decide +kernel, by decide +kernel⟩, by decide +kernel⟩,
    ⟨(let s := up; let s := mkServed s; let s := { s with glob.buserr := setBit s.glob.buserr 1 false }; s), (255 : Word), ⟨by decide +kernel, by decide +kernel⟩, by decide +kernel⟩,
    ⟨(let s := up; let s := mkServed s; let s := { s with glob.buserr := setBit s.glob.buserr 1 true }; s), (16001 : Word), ⟨by decide +kernel, by decide +kernel⟩, by decide +kernel⟩,
    ⟨(let s := up; let s := mkAnvil s; let s := setPlainBits (key 1 5) 1 1 0 s; let s := { s with qt.spill := [] }; let s := { s with qt.until_ := s.clk.now - 3, clk.now := s.clk.now + 3, qt.spill := s.qt.spill.map (· + 3) }; let s := { s with qt.until_ := s.clk.now - us 1 }; s), ((let len : Byte := 20; (len % 20 + 1)) : Byte), by decide +kernel⟩,
    ⟨(let s := up; let s := mkAnvil s; let s := setPlainBits (key 1 5) 1 1 0 s; let s := { s with qt.spill := [s.clk.now, 5] }; let s := { s with qt.until_ := s.clk.now - 3, clk.now := s.clk.now + 3, qt.spill := s.qt.spill.map (· + 3) }; let s := { s with qt.until_ := s.clk.now - us 1 }; s), ((let len : Byte := 1; (len % 20 + 1)) : Byte), by decide +kernel⟩,
    ⟨(let s := up; let s := mkAnvil s; let s := setPlainBits (key 1 5) 1 1 0 s; let s := { s with qt.spill := [] }; let s := { s with qt.until_ := s.clk.now }; let s := { s with qt.until_ := s.clk.now - us 1 + 1 }; s), ((let len : Byte := 20; (len % 20 + 1)) : Byte), by decide +kernel⟩,
    ⟨(let s := up; let s := setPlainBits (key 1 5) 1 1 0 s; s), (21 : Byte), by decide +kernel⟩,
    ⟨((let v : Byte := 0x9d#8; (v ||| 2)) : Byte), up, by decide +kernel⟩,
    ⟨(let s := up; let s := setPlainBits (key 1 6) 0 8 0 { s with qt.on := true }; let s := setPlainBits (key 1 6) 0 8 0 { s with bk.strk := 0, qt.on := true, rl.hold := 0, inp.gate := false }; s), (0 : PhRail), by decide +kernel⟩,
    ⟨(let s := up; let s := mkAnvil s; s), by decide +kernel⟩,
    ⟨up, ((let r : Nat := 1; (r % 25)) : Nat), ((let r : Nat := 1; let s := up; (((freqOf (lv s) (r%25)).getD default).1)) : Nat), ((let r : Nat := 1; let s := up; (((freqOf (lv s) (r%25)).getD default).2.1)) : Nat), ((let r : Nat := 1; let s := up; (((freqOf (lv s) (r%25)).getD default).2.2)) : Nat), by decide +kernel⟩,
    ⟨(let s := up; let s := { up with rl.en := 0x20, hk.valid := 0x20, rl.ramps := [(5, { v1 := 9000 })] }; s), (5 : Nat), (1000 : Nat), (400 : Nat), (2200 : Nat), by decide +kernel⟩,
    ⟨(let r : PhRail := 0; let s := up; let s := mkAnvil s; let s := { s with rl.en := setBit s.rl.en r.val true }; let s := { s with rl.shed := setBit s.rl.shed r.val false }; let s := let s := setLiveBits (blk r.val + 0x10) 0 8 255 s; let s := putLive (key 2 0x1B) [255] s; { (fixPh s r.val) with bk.ph := [] }; s), (0 : PhRail), (1 : Nat), by decide +kernel⟩,
    ⟨(let r : PhRail := 0; let s := up; let s := mkAnvil s; let s := { s with rl.en := setBit s.rl.en r.val true }; let s := { s with rl.shed := setBit s.rl.shed r.val true }; let s := let s := setLiveBits (blk r.val + 0x10) 0 8 0 s; putLive (key 2 0x1B) [0] (fixPh s r.val); s), (0 : PhRail), (1 : Nat), by decide +kernel⟩⟩

/-- `CycleEnds`. -/
theorem witness_CycleEnds :
    (∃ (s : State), anvilOn s = true) ∧
    (∃ (s : State), Served s) ∧
    (∃ (s : State) (n : Nat), Served s ∧ pecOn s = false ∧ s.regs.page = 1 ∧ s.regs.latch = some (key 1 0x10, (leBytes 4 n).drop 1)) :=
    ⟨⟨(let s := up; let s := mkAnvil s; s), by decide +kernel⟩,
    ⟨(let s := up; let s := mkServed s; s), ⟨by decide +kernel, by decide +kernel⟩⟩,
    ⟨(let n : Nat := 1; let s := up; let s := mkServed s; let s := setPlainBits (key 0x4C 0) 0 1 0 s; let s := { s with regs.page := 1 }; let s := { s with regs.latch := some (key 1 0x10, (leBytes 4 n).drop 1) }; s), (1 : Nat), ⟨by decide +kernel, by decide +kernel⟩, by decide +kernel⟩⟩

/-- `ScheduleEditing`. -/
theorem witness_ScheduleEditing :
    (∃ (s : State), Served s ∧ swapPending s = false) ∧
    (∃ (s : State), Served s) ∧
    (∃ (s : State), Served s ∧ swapPending s = false) ∧
    (∃ (s : State), Served s ∧ swapPending s = false) ∧
    (∃ (s : State), Served s ∧ swapPending s = false) ∧
    (∃ (s : State) (c : Instr) (v : Byte), Served s ∧ swapPending s = true ∧ s.glob.buserr.getLsbD 0 = false ∧ (c = .schent3Write v ∨ c = .schctlSwap ∨ c = .schctlCopy ∨ c = .schctlClear)) ∧
    (∃ (s : State) (r : Nat) (i : Nat), anvilOn s = true ∧ swapPending s = true ∧ s.cyc.swapOk = false ∧ schValidate (rdNat (pl s) (key 1 2) 2) (editBank s) = some (r, i)) ∧
    (∃ (s : State), swapPending s = true ∧ s.cyc.swapOk = false ∧ schValidate (rdNat (pl s) (key 1 2) 2) (editBank s) = none) ∧
    (∃ (b : Map (BitVec 32)) (i : Nat) (e : BitVec 32), (i, e) ∈ b ∧ 7 < entAction e) :=
    ⟨⟨(let s := up; let s := mkServed s; let s := { s with cyc.schSt := if false then 1 else 2 }; s), ⟨by decide +kernel, by decide +kernel⟩, by decide +kernel⟩,
    ⟨(let s := up; let s := mkServed s; s), ⟨by decide +kernel, by decide +kernel⟩⟩,
    ⟨(let s := up; let s := mkServed s; let s := { s with cyc.schSt := if false then 1 else 2 }; s), ⟨by decide +kernel, by decide +kernel⟩, by decide +kernel⟩,
    ⟨(let s := up; let s := mkServed s; let s := { s with cyc.schSt := if false then 1 else 2 }; s), ⟨by decide +kernel, by decide +kernel⟩, by decide +kernel⟩,
    ⟨(let s := up; let s := mkServed s; let s := { s with cyc.schSt := if false then 1 else 2 }; s), ⟨by decide +kernel, by decide +kernel⟩, by decide +kernel⟩,
    ⟨(let s := up; let s := mkServed s; let s := { s with cyc.schSt := if true then 1 else 2 }; let s := { s with glob.buserr := setBit s.glob.buserr 0 false }; s), ((let v : Byte := 0x9d#8; .schent3Write v) : Instr), (0x9d#8 : Byte), ⟨by decide +kernel, by decide +kernel⟩, by decide +kernel⟩,
    ⟨(let s := up; let s := mkAnvil s; let s := { s with cyc.schSt := if true then 1 else 2 }; let s := { s with cyc.swapOk := false }; let s := setEdit [(2, 0x00090000)] s; s), (1 : Nat), (2 : Nat), by decide +kernel⟩,
    ⟨(let s := up; let s := { s with cyc.schSt := if true then 1 else 2 }; let s := { s with cyc.swapOk := false }; s), by decide +kernel⟩,
    ⟨([(4, 0x00080000)] : Map (BitVec 32)), (4 : Nat), (0x00080000 : BitVec 32), by decide +kernel⟩⟩

/-- `FineAngle`. -/
theorem witness_FineAngle :
    (∃ (n : Nat), n < cycleUnits) ∧
    (∃ (k : Nat), k < 4096) :=
    ⟨⟨(8191999999 : Nat), by decide +kernel⟩,
    ⟨(4095 : Nat), by decide +kernel⟩⟩

/-- `MissedPulses`. -/
theorem witness_MissedPulses :
    (∃ (s : State), anvilOn s = true ∧ (s.cyc.pll = .lock ∨ s.cyc.pll = .hold)) ∧
    (∃ (s : State) (e : Bool) (l : Nat), anvilOn s = true ∧ cycEn s = true ∧ edgeCounts s e l = true ∧ (s.cyc.pll = .lock ∨ s.cyc.pll = .hold) ∧ winLo s ≤ s.clk.now ∧ s.clk.now ≤ winHi s) ∧
    (∃ (s : State) (e : Bool) (l : Nat), anvilOn s = true ∧ cycEn s = true ∧ edgeCounts s e l = true ∧ s.cyc.pll = .free ∧ (∀ a, s.cyc.lastAcc = some a → 2000 ≤ (s.clk.now - a) * (if edgeBoth s then 2 else 1))) ∧
    (∃ (s : State) (e : Bool) (l : Nat) (a : Nat), anvilOn s = true ∧ cycEn s = true ∧ edgeCounts s e l = true ∧ s.cyc.pll = .acq ∧ s.cyc.lastAcc = some a ∧ 2000 ≤ (s.clk.now - a) * (if edgeBoth s then 2 else 1) ∧ (s.clk.now - a) * (if edgeBoth s then 2 else 1) ≤ 125000) :=
    ⟨⟨(let s := up; let s := { up with cyc.pll := .lock, cyc.misscnt := 16 }; s), by decide +kernel⟩,
    ⟨(let e : Bool := true; let l : Nat := 115502; let s := up; let s := mkAnvil s; let s := setPlainBits (key 1 0) 0 1 1 s; let s := setPlainBits (key 1 0) 5 3 (if l < 4 then 0 else 1) (setPlainBits (key 1 0) 1 2 (if (s.clk.now % 2 = 0) then 2 else if e then 0 else 1) s); let s := { s with cyc.pll := if s.cyc.cnt.getLsbD 3 then .lock else .hold, cyc.expect := s.clk.now - 2000, cyc.period := 2010, cyc.lag := s.cyc.lag % 9, cyc.phase := markedAngle s e * (cycleUnits / 256) + 77 }; let s := { s with clk.now := winLo s }; s), (true : Bool), (115502 : Nat), by decide +kernel⟩,
    ⟨(let e : Bool := true; let l : Nat := 115502; let s := up; let s := mkAnvil s; let s := setPlainBits (key 1 0) 0 1 1 s; let s := setPlainBits (key 1 0) 5 3 (if l < 4 then 0 else 1) (setPlainBits (key 1 0) 1 2 (if (s.clk.now % 2 = 0) then 2 else if e then 0 else 1) s); let s := { s with cyc.pll := .free }; s), (true : Bool), (115502 : Nat), by decide +kernel⟩,
    ⟨(let e : Bool := true; let l : Nat := 115502; let a : Nat := 1; let s := up; let s := mkAnvil s; let s := setPlainBits (key 1 0) 0 1 1 s; let s := setPlainBits (key 1 0) 5 3 (if l < 4 then 0 else 1) (setPlainBits (key 1 0) 1 2 (if (s.clk.now % 2 = 0) then 2 else if e then 0 else 1) s); let s := { s with cyc.pll := .acq }; let s := { s with cyc.lastAcc := some a }; let s := { s with clk.now := a + 30000 }; let s := { s with clk.now := a + 62500 }; s), (true : Bool), (115502 : Nat), (1 : Nat), by decide +kernel⟩⟩

/-- `PathsClose`. -/
theorem witness_PathsClose :
    (∃ (s : State) (x : Sys2Proof.Path), anvilOn s = true ∧ pathEn s x = true) ∧
    (∃ (s : State) (x : Sys2Proof.Path) (m : Option InMeas), anvilOn s = true ∧ pathEn s x = true ∧ (pathOf s x).closed = false ∧ (pathOf s x).flt.getLsbD 6 = false ∧ setBit (pathOf s x).wait 4 false = 0 ∧ selLets s x = true ∧ yields (takeMeas m s) x = false) ∧
    (∃ (s : State) (x : Sys2Proof.Path) (m : Option InMeas), anvilOn s = true ∧ pathEn s x = true ∧ (pathOf s x).closed = false ∧ yields (takeMeas m s) x = true) ∧
    (∃ (s : State) (x : Sys2Proof.Path), (pathOf s x).closed = true ∧ (pathOf s x).full = false) ∧
    (∃ (s : State) (x : Sys2Proof.Path), preferred s = some x ∧ (pathOf s x).closed = true ∧ (pathOf s (other x)).closed = true) ∧
    (∃ (s : State) (x : Sys2Proof.Path), anvilOn s = true ∧ s.glob.st = .run ∧ (pathOf s x).cond = false ∧ (pathOf s (other x)).cond = true) ∧
    (∃ (s : State) (x : Sys2Proof.Path) (k : _), anvilOn s = true ∧ s.glob.st = .run ∧ (pathOf s x).cond = false ∧ (pathOf s (other x)).cond = false ∧ (pathOf s (other x)).condOff = some k ∧ s.clk.now ≤ k + ms 1) ∧
    (∃ (s : State) (x : Sys2Proof.Path), anvilOn s = true ∧ s.glob.st = .run ∧ (pathOf s x).cond = false ∧ (pathOf s (other x)).cond = false ∧ (∀ k, (pathOf s (other x)).condOff = some k → k + ms 1 < s.clk.now)) ∧
    (∃ (s : State) (x : Sys2Proof.Path), anvilOn s = true ∧ (pathOf s x).cond = true) :=
    ⟨⟨(let x : Sys2Proof.Path := Sys2Proof.Path.a; let s := up; let s := mkAnvil s; let s := setLiveBits (key 2 0) (px x) 1 1 s; s), (Sys2Proof.Path.a : Sys2Proof.Path), by decide +kernel⟩,
    ⟨(let x : Sys2Proof.Path := Sys2Proof.Path.a; let s := up; let s := mkAnvil s; let s := setLiveBits (key 2 0) (px x) 1 1 s; let s := setPath x { (pathOf s x) with closed := false } s; let s := setPath x { (pathOf s x) with flt := setBit (pathOf s x).flt 6 false } s; let s := setPath x { (pathOf s x) with wait := setBit 0 4 true } s; let s := setLiveBits (key 2 0) 2 2 0 (setPath (other x) { (pathOf s (other x)) with full := true } s); s), (Sys2Proof.Path.a : Sys2Proof.Path), (none : Option InMeas), by decide +kernel⟩,
    ⟨(let x : Sys2Proof.Path := Sys2Proof.Path.a; let s := up; let s := mkAnvil s; let s := setLiveBits (key 2 0) (px x) 1 1 s; let s := setPath x { (pathOf s x) with closed := false } s; let s := let s := setPath (other x) { (pathOf s (other x)) with closed := false, vin := 9000 } (setPath x { (pathOf s x) with closed := false, vin := 5000 } (setLiveBits (key 2 0) 0 2 3 s)); { s with pending := .pathQualify (other x) none :: s.pending }; s), (Sys2Proof.Path.a : Sys2Proof.Path), (none : Option InMeas), by decide +kernel⟩,
    ⟨(let x : Sys2Proof.Path := Sys2Proof.Path.a; let s := up; let s := setPath x { (pathOf s x) with closed := true } s; let s := setPath x { (pathOf s x) with full := false } s; s), (Sys2Proof.Path.a : Sys2Proof.Path), by decide +kernel⟩,
    ⟨(let x : Sys2Proof.Path := Sys2Proof.Path.a; let s := up; let s := setLiveBits (key 2 0) 2 2 (1 + px x) s; let s := setPath x { (pathOf s x) with closed := true } s; let s := setPath (other x) { (pathOf s (other x)) with closed := true } s; s), (Sys2Proof.Path.a : Sys2Proof.Path), by decide +kernel⟩,
    ⟨(let x : Sys2Proof.Path := Sys2Proof.Path.a; let s := up; let s := mkAnvil s; let s := { s with glob.st := .run }; let s := setPath x { (pathOf s x) with cond := false } s; let s := setPath (other x) { (pathOf s (other x)) with cond := true } s; s), (Sys2Proof.Path.a : Sys2Proof.Path), by decide +kernel⟩,
    ⟨(let x : Sys2Proof.Path := Sys2Proof.Path.a; let s := up; let s := mkAnvil s; let s := { s with glob.st := .run }; let s := setPath x { (pathOf s x) with cond := false } s; let s := setPath (other x) { (pathOf s (other x)) with cond := false } s; let s := setPath (other x) { (pathOf s (other x)) with condOff := some (s.clk.now - 1 - s.cyc.cnt.toNat % 3) } s; s), (Sys2Proof.Path.a : Sys2Proof.Path), (let x : Sys2Proof.Path := Sys2Proof.Path.a; let s := (let x : Sys2Proof.Path := Sys2Proof.Path.a; let s := up; let s := mkAnvil s; let s := { s with glob.st := .run }; let s := setPath x { (pathOf s x) with cond := false } s; let s := setPath (other x) { (pathOf s (other x)) with cond := false } s; let s := setPath (other x) { (pathOf s (other x)) with condOff := some (s.clk.now - 1 - s.cyc.cnt.toNat % 3) } s; s); (((pathOf s (other x)).condOff).getD 0)), by decide +kernel⟩,
    ⟨(let x : Sys2Proof.Path := Sys2Proof.Path.a; let s := up; let s := mkAnvil s; let s := { s with glob.st := .run }; let s := setPath x { (pathOf s x) with cond := false } s; let s := setPath (other x) { (pathOf s (other x)) with cond := false } s; s), (Sys2Proof.Path.a : Sys2Proof.Path), by decide +kernel⟩,
    ⟨(let x : Sys2Proof.Path := Sys2Proof.Path.a; let s := up; let s := mkAnvil s; let s := setPath x { (pathOf s x) with cond := true } s; s), (Sys2Proof.Path.a : Sys2Proof.Path), by decide +kernel⟩⟩

/-- `PathGuards`. -/
theorem witness_PathGuards :
    (∃ (s : State), anvilOn s = true) ∧
    (∃ (s : State) (x : Sys2Proof.Path), anvilOn s = true ∧ (pathOf s x).closed = true) ∧
    (∃ (s : State), anvilOn s = true) ∧
    (∃ (s : State) (x : Sys2Proof.Path) (m : Option InMeas) (c : Instr) (i : Nat), ((c = .inputOvClear x m ∧ i = 0) ∨ (c = .reverseReclose x m ∧ i = 1)) ∧ anvilOn s = true ∧ pathEn s x = true ∧ (pathOf s x).qual = true ∧ (pathOf s x).closed = false ∧ (pathOf s x).flt.getLsbD 6 = false ∧ setBit (pathOf s x).wait i false = 0 ∧ selLets s x = true) ∧
    (∃ (s : State) (x : Sys2Proof.Path) (m : Option InMeas) (c : Instr) (i : Nat) (e : Nat), ((c = .foca x m ∧ i = 2 ∧ e = 16 * 46 + 4 + px x) ∨ (c = .slowa x m ∧ i = 3 ∧ e = 16 * 46 + 6 + px x) ∨ (c = .inrushtmo x ∧ i = 5 ∧ e = 16 * 46 + 15)) ∧ anvilOn s = true ∧ (pathOf s x).closed = true ∧ (i = 5 → (pathOf s x).full = false) ∧ (i = 3 → m = none ∨ slowLevel (takeMeas m s) x ≤ slowNow (takeMeas m s) x) ∧ (pathOf s x).flt.getLsbD 6 = false) ∧
    (∃ (s : State) (x : Sys2Proof.Path), anvilOn s = true ∧ pathEn s x = true ∧ (pathOf s x).qual = true ∧ (pathOf s x).closed = false ∧ (pathOf s x).flt.getLsbD 6 = false ∧ (pathOf s x).wait &&& 0x13 = 0 ∧ selLets s x = true) ∧
    (∃ (s : State) (x : Sys2Proof.Path), (pathOf s x).closed = true) ∧
    (∃ (s : State), Served s) ∧
    (∃ (s : State) (x : Sys2Proof.Path) (m : Option InMeas), m ≠ none ∧ slowNow (takeMeas m s) x < slowLevel (takeMeas m s) x) :=
    ⟨⟨(let s := up; let s := mkAnvil s; s), by decide +kernel⟩,
    ⟨(let x : Sys2Proof.Path := Sys2Proof.Path.a; let s := up; let s := mkAnvil s; let s := setPath x { (pathOf s x) with closed := true } s; s), (Sys2Proof.Path.a : Sys2Proof.Path), by decide +kernel⟩,
    ⟨(let s := up; let s := mkAnvil s; s), by decide +kernel⟩,
    ⟨(let x : Sys2Proof.Path := Sys2Proof.Path.a; let s := up; let s := mkAnvil s; let s := setLiveBits (key 2 0) (px x) 1 1 s; let s := setPath x { (pathOf s x) with qual := true } s; let s := setPath x { (pathOf s x) with closed := false } s; let s := setPath x { (pathOf s x) with flt := setBit (pathOf s x).flt 6 false } s; let s := setLiveBits (key 2 0) 2 2 0 (setPath (other x) { (pathOf s (other x)) with full := true } s); s), (Sys2Proof.Path.a : Sys2Proof.Path), (none : Option InMeas), ((let x : Sys2Proof.Path := Sys2Proof.Path.a; let m : Option InMeas := none; .inputOvClear x m) : Instr), (0 : Nat), by decide +kernel⟩,
    ⟨(let x : Sys2Proof.Path := Sys2Proof.Path.a; let s := up; let s := mkAnvil s; let s := setPath x { (pathOf s x) with closed := true } s; let s := setPath x { (pathOf s x) with flt := setBit (pathOf s x).flt 6 false } s; s), (Sys2Proof.Path.a : Sys2Proof.Path), (none : Option InMeas), ((let x : Sys2Proof.Path := Sys2Proof.Path.a; let m : Option InMeas := none; .foca x m) : Instr), (2 : Nat), ((let x : Sys2Proof.Path := Sys2Proof.Path.a; 16 * 46 + 4 + px x) : Nat), by decide +kernel⟩,
    ⟨(let x : Sys2Proof.Path := Sys2Proof.Path.a; let s := up; let s := mkAnvil s; let s := setLiveBits (key 2 0) (px x) 1 1 s; let s := setPath x { (pathOf s x) with qual := true } s; let s := setPath x { (pathOf s x) with closed := false } s; let s := setPath x { (pathOf s x) with flt := setBit (pathOf s x).flt 6 false } s; let s := setPath x { (pathOf s x) with wait := 0x2C } s; let s := setLiveBits (key 2 0) 2 2 0 (setPath (other x) { (pathOf s (other x)) with full := true } s); s), (Sys2Proof.Path.a : Sys2Proof.Path), by decide +kernel⟩,
    ⟨(let x : Sys2Proof.Path := Sys2Proof.Path.a; let s := up; let s := setPath x { (pathOf s x) with closed := true } s; s), (Sys2Proof.Path.a : Sys2Proof.Path), by decide +kernel⟩,
    ⟨(let s := up; let s := mkServed s; s), ⟨by decide +kernel, by decide +kernel⟩⟩,
    ⟨up, (Sys2Proof.Path.a : Sys2Proof.Path), (some { va := 27059, vb := 25963, node := 19715, ia := 28138, ib := 9204 } : Option InMeas), by decide +kernel⟩⟩

/-- `InputLoss`. -/
theorem witness_InputLoss :
    (∃ (s : State), anvilOn s = true ∧ s.glob.pendRst = none ∧ s.inp.a.closed = false ∧ s.inp.b.closed = false ∧ s.inp.inloss = false ∧ (s.inp.a.ever = true ∨ s.inp.b.ever = true)) ∧
    (∃ (s : State), anvilOn s = true ∧ has s.rl.en 0 = true ∧ s.inp.plim = false) ∧
    (∃ (s : State), anvilOn s = true ∧ has s.rl.en 0 = true) :=
    ⟨⟨(let s := up; let s := mkAnvil s; let s := { s with glob.pendRst := none }; let s := { s with inp.a.closed := false }; let s := { s with inp.b.closed := false }; let s := { s with inp.inloss := false }; let s := { s with inp.a.ever := true }; s), by decide +kernel⟩,
    ⟨(let s := up; let s := mkAnvil s; let s := { s with rl.en := setBit s.rl.en 0 true }; let s := { s with inp.plim := false }; s), by decide +kernel⟩,
    ⟨(let s := up; let s := mkAnvil s; let s := { s with rl.en := setBit s.rl.en 0 true }; s), by decide +kernel⟩⟩

/-- `RailFaults`. -/
theorem witness_RailFaults :
    (∃ (s : State) (r : Rail), Running s ∧ canPg s r.val = true) ∧
    (∃ (s : State) (r : Rail) (mon : Word), Running s ∧ has s.rl.en r.val = true ∧ has s.rl.pgd r.val = true ∧ has s.rl.soft r.val = false ∧ supervised s r.val = true ∧ uvFalls s r.val mon = true ∧ rxCode (lv s) r.val 0 = 0) ∧
    (∃ (s : State) (r : Rail), anvilOn s = true ∧ has s.rl.en r.val = true ∧ rk r.val ≠ .lsw ∧ supervised s r.val = true ∧ rxCode (lv s) r.val 1 = 0) ∧
    (∃ (s : State) (r : Rail), anvilOn s = true ∧ has s.rl.en r.val = true ∧ rk r.val ≠ .ext ∧ rk r.val ≠ .ldo ∧ rk r.val ≠ .lsw) ∧
    (∃ (s : State) (r : Rail) (run : Nat), anvilOn s = true ∧ has s.rl.en r.val = true ∧ rk r.val ≠ .ext ∧ rk r.val ≠ .ldo ∧ rk r.val ≠ .lsw ∧ run ≠ 0 ∧ (run < 16 ∨ has s.rl.ocRun r.val = true)) ∧
    (∃ (s : State) (r : Rail) (run : Nat), anvilOn s = true ∧ has s.rl.en r.val = true ∧ rk r.val ≠ .ext ∧ rk r.val ≠ .ldo ∧ rk r.val ≠ .lsw ∧ 16 ≤ run ∧ has s.rl.ocRun r.val = false ∧ rxCode (lv s) r.val 2 = 0) ∧
    (∃ (s : State) (r : Rail), anvilOn s = true ∧ has s.rl.en r.val = true ∧ rk r.val ≠ .ext ∧ rk r.val ≠ .ldo ∧ rk r.val ≠ .lsw) ∧
    (∃ (s : State) (r : Rail) (run : Nat), Running s ∧ has s.rl.en r.val = true ∧ rk r.val = .lsw ∧ heldRail s r.val = false ∧ has s.seq.retryWait r.val = false ∧ (rxCode (lv s) r.val 2 = 0 ∨ rxCode (lv s) r.val 2 = 2) ∧ run ≠ 0) ∧
    (∃ (s : State) (r : Rail) (run : Nat), anvilOn s = true ∧ has s.rl.en r.val = true ∧ rk r.val = .ldo ∧ has s.rl.clamp r.val = false ∧ rxCode (lv s) r.val 2 = 0 ∧ run ≠ 0) ∧
    (∃ (s : State) (r : Rail), anvilOn s = true ∧ has s.rl.en r.val = true ∧ has s.rl.pgd r.val = false ∧ has s.seq.joined r.val = false ∧ has s.seq.taken r.val = false ∧ rxCode (lv s) r.val 4 = 0) ∧
    (∃ (s : State) (r : Rail), anvilOn s = true ∧ rk r.val ≠ .ext ∧ has s.rl.thl r.val = false ∧ rxCode (lv s) r.val 5 = 0) ∧
    (∃ (s : State) (r : Rail), anvilOn s = true ∧ rk r.val ≠ .ext ∧ has s.rl.thl r.val = true) ∧
    (∃ (s : State) (r : Rail), canPg s r.val = true ∧ s.glob.boot = false ∧ has s.rl.up r.val = true) ∧
    (∃ (s : State) (r : Rail), anvilOn s = true ∧ canPg s r.val = false ∧ (rk r.val ≠ .ext ∨ has s.rl.en r.val = false)) ∧
    (∃ (s : State) (r : Rail), anvilOn s = true ∧ rk r.val = .ext ∧ has s.rl.en r.val = true ∧ has s.rl.pg r.val = true) ∧
    (∃ (s : State) (r : Rail), (rk r.val = .lsw ∨ supervised s r.val = false)) ∧
    (∃ (s : State) (r : Rail), anvilOn s = true ∧ rk r.val ≠ .lsw ∧ supervised s r.val = true) ∧
    (∃ (s : State) (r : Rail), anvilOn s = true ∧ rk r.val = .ext ∧ supervised s r.val = true ∧ rxCode (lv s) r.val 1 = 0) ∧
    (∃ (s : State) (r : Rail), anvilOn s = true ∧ rk r.val = .ext) ∧
    (∃ (s : State) (r : Rail) (mon : Word), anvilOn s = true ∧ rk r.val = .ext ∧ supervised s r.val = true ∧ has s.rl.en r.val = true ∧ has s.rl.pgd r.val = true ∧ has s.rl.soft r.val = false ∧ uvFalls s r.val mon = true ∧ rxCode (lv s) r.val 0 = 0) ∧
    (∃ (s : State) (r : Rail) (run : Nat), (rk r.val = .ext ∨ rk r.val = .lsw ∧ run = 0 ∨ rk r.val = .ldo ∧ (run = 0 ∨ has s.rl.clamp r.val = true) ∨ has s.rl.en r.val = false ∧ has s.rl.qu r.val = false)) ∧
    (∃ (s : State) (r : Rail) (run : Nat), anvilOn s = true ∧ has s.rl.en r.val = true ∧ rk r.val ≠ .ext ∧ rk r.val ≠ .ldo ∧ rk r.val ≠ .lsw ∧ 16 ≤ run ∧ has s.rl.ocRun r.val = false) ∧
    (∃ (s : State) (r : Rail) (run : Nat), anvilOn s = true ∧ has s.rl.en r.val = true ∧ rk r.val = .lsw ∧ run ≠ 0) ∧
    (∃ (s : State) (r : Rail) (run : Nat), anvilOn s = true ∧ has s.rl.en r.val = true ∧ rk r.val = .ldo ∧ has s.rl.clamp r.val = false ∧ run ≠ 0) ∧
    (∃ (s : State) (r : Rail), anvilOn s = true ∧ has s.rl.en r.val = true ∧ has s.rl.pgd r.val = false ∧ has s.seq.joined r.val = false ∧ has s.seq.taken r.val = false) ∧
    (∃ (s : State) (r : Rail), has s.seq.joined r.val = false ∧ has s.seq.taken r.val = false ∧ (has s.rl.en r.val = false ∨ has s.rl.pgd r.val = true)) ∧
    (∃ (s : State) (r : Rail), anvilOn s = true ∧ has s.seq.joined r.val = true ∧ has s.seq.taken r.val = false ∧ (rxCode (lv s) r.val 4 ≤ 1 ∨ s.glob.st = .safe)) ∧
    (∃ (s : State) (r : Rail), anvilOn s = true ∧ rk r.val ≠ .ext ∧ has s.rl.thl r.val = false) ∧
    (∃ (s : State) (r : Rail), rk r.val = .ext) ∧
    (∃ (s : State), anvilOn s = false) ∧
    (∃ (s : State) (r : Rail), has s.seq.taken r.val = true) ∧
    (∃ (s : State) (r : Rail) (mon : Word), anvilOn s = true ∧ (has s.rl.en r.val = false ∨ has s.rl.pgd r.val = false ∨ has s.rl.soft r.val = true ∨ uvFalls s r.val mon = false)) ∧
    (∃ (s : State) (r : Rail), rk r.val ≠ .ext ∧ rk r.val ≠ .gb ∧ supervised s r.val = true) :=
    ⟨⟨(let r : Rail := 0; let s := up; let s := { mkAnvil s with glob.st := .run, glob.boot := false }; let s := mkPg r.val s; s), (0 : Rail), ⟨by decide +kernel, by decide +kernel, by decide +kernel⟩, by decide +kernel⟩,
    ⟨(let r : Rail := 0; let s := up; let s := { mkAnvil s with glob.st := .run, glob.boot := false }; let s := { s with rl.en := setBit s.rl.en r.val true }; let s := { s with rl.pgd := setBit s.rl.pgd r.val true }; let s := { s with rl.soft := setBit s.rl.soft r.val false }; let s := mkSup r.val s; let s := { s with seq.monok := BitVec.allOnes _ }; let s := mkRx r.val 0 0 s; s), (0 : Rail), (0x749d#16 : Word), ⟨by decide +kernel, by decide +kernel, by decide +kernel⟩, by decide +kernel⟩,
    ⟨(let r : Rail := 0; let s := up; let s := mkAnvil s; let s := { s with rl.en := setBit s.rl.en r.val true }; let s := mkSup r.val s; let s := mkRx r.val 1 0 s; s), (0 : Rail), by decide +kernel⟩,
    ⟨(let r : Rail := 0; let s := up; let s := mkAnvil s; let s := { s with rl.en := setBit s.rl.en r.val true }; s), (0 : Rail), by decide +kernel⟩,
    ⟨(let r : Rail := 0; let s := up; let s := mkAnvil s; let s := { s with rl.en := setBit s.rl.en r.val true }; s), (0 : Rail), (15 : Nat), by decide +kernel⟩,
    ⟨(let r : Rail := 0; let s := up; let s := mkAnvil s; let s := { s with rl.en := setBit s.rl.en r.val true }; let s := { s with rl.ocRun := setBit s.rl.ocRun r.val false }; let s := mkRx r.val 2 0 s; s), (0 : Rail), (16 : Nat), by decide +kernel⟩,
    ⟨(let r : Rail := 0; let s := up; let s := mkAnvil s; let s := { s with rl.en := setBit s.rl.en r.val true }; s), (0 : Rail), by decide +kernel⟩,
    ⟨(let r : Rail := 17; let s := up; let s := { mkAnvil s with glob.st := .run, glob.boot := false }; let s := { s with rl.en := setBit s.rl.en r.val true }; let s := { s with seq.offhold := 0 }; let s := { s with seq.retryWait := setBit s.seq.retryWait r.val false }; let s := mkRx r.val 2 (if s.cyc.cnt.getLsbD 2 then 2 else 0) s; s), (17 : Rail), ((let run : Nat := 1; (run + 1)) : Nat), ⟨by decide +kernel, by decide +kernel, by decide +kernel⟩, by decide +kernel⟩,
    ⟨(let r : Rail := 13; let s := up; let s := mkAnvil s; let s := { s with rl.en := setBit s.rl.en r.val true }; let s := { s with rl.clamp := setBit s.rl.clamp r.val false }; let s := mkRx r.val 2 0 s; s), (13 : Rail), ((let run : Nat := 3; (run + 1)) : Nat), by decide +kernel⟩,
    ⟨(let r : Rail := 0; let s := up; let s := mkAnvil s; let s := { s with rl.en := setBit s.rl.en r.val true }; let s := { s with rl.pgd := setBit s.rl.pgd r.val false }; let s := { s with seq.joined := setBit s.seq.joined r.val false }; let s := { s with seq.taken := setBit s.seq.taken r.val false }; let s := mkRx r.val 4 0 s; s), (0 : Rail), by decide +kernel⟩,
    ⟨(let r : Rail := 0; let s := up; let s := mkAnvil s; let s := { s with rl.thl := setBit s.rl.thl r.val false }; let s := mkRx r.val 5 0 s; s), (0 : Rail), by decide +kernel⟩,
    ⟨(let r : Rail := 0; let s := up; let s := mkAnvil s; let s := { s with rl.thl := setBit s.rl.thl r.val true }; s), (0 : Rail), by decide +kernel⟩,
    ⟨(let r : Rail := 0; let s := up; let s := mkPg r.val s; let s := { s with glob.boot := false }; let s := { s with rl.up := setBit s.rl.up r.val true }; s), (0 : Rail), by decide +kernel⟩,
    ⟨(let s := up; let s := mkAnvil s; s), (0 : Rail), by decide +kernel⟩,
    ⟨(let r : Rail := 31; let s := up; let s := mkAnvil s; let s := { s with rl.en := setBit s.rl.en r.val true }; let s := { s with rl.pg := setBit s.rl.pg r.val true }; s), (31 : Rail), by decide +kernel⟩,
    ⟨up, (17 : Rail), by decide +kernel⟩,
    ⟨(let r : Rail := 0; let s := up; let s := mkAnvil s; let s := mkSup r.val s; let s := mkRx r.val 1 0 s; s), (0 : Rail), by decide +kernel⟩,
    ⟨(let r : Rail := 0; let s := up; let s := mkAnvil s; let s := mkSup (Fin.ofNat 32 (25 + r.val % 7)).val s; let s := mkRx (Fin.ofNat 32 (25 + r.val % 7)).val 1 0 s; let s := mkRx (Fin.ofNat 32 (25 + r.val % 7)).val 1 0 (putLive (key 0x14 0x33) [BitVec.ofNat 8 (8 + ci (Fin.ofNat 32 (25 + r.val % 7)).val)] s); s), ((let r : Rail := 0; (Fin.ofNat 32 (25 + r.val % 7))) : Rail), by decide +kernel⟩,
    ⟨(let s := up; let s := mkAnvil s; s), (31 : Rail), by decide +kernel⟩,
    ⟨(let r : Rail := 0; let s := up; let s := mkAnvil s; let s := mkSup (Fin.ofNat 32 (25 + r.val % 7)).val s; let s := { s with rl.en := setBit s.rl.en (Fin.ofNat 32 (25 + r.val % 7)).val true }; let s := { s with rl.pgd := setBit s.rl.pgd (Fin.ofNat 32 (25 + r.val % 7)).val true }; let s := { s with rl.soft := setBit s.rl.soft (Fin.ofNat 32 (25 + r.val % 7)).val false }; let s := { s with seq.monok := BitVec.allOnes _ }; let s := mkRx (Fin.ofNat 32 (25 + r.val % 7)).val 0 0 s; let s := mkRx (Fin.ofNat 32 (25 + r.val % 7)).val 0 0 (putLive (key 0x14 0x33) [BitVec.ofNat 8 (8 + ci (Fin.ofNat 32 (25 + r.val % 7)).val)] s); s), ((let r : Rail := 0; (Fin.ofNat 32 (25 + r.val % 7))) : Rail), (0x749d#16 : Word), by decide +kernel⟩,
    ⟨up, (0 : Rail), (1 : Nat), by decide +kernel⟩,
    ⟨(let r : Rail := 0; let s := up; let s := mkAnvil s; let s := { s with rl.en := setBit s.rl.en r.val true }; let s := { s with rl.ocRun := setBit s.rl.ocRun r.val false }; let s := mkRx r.val 2 0 s; s), (0 : Rail), (16 : Nat), by decide +kernel⟩,
    ⟨(let r : Rail := 17; let s := up; let s := mkAnvil s; let s := { s with rl.en := setBit s.rl.en r.val true }; s), (17 : Rail), (1 : Nat), by decide +kernel⟩,
    ⟨(let r : Rail := 13; let s := up; let s := mkAnvil s; let s := { s with rl.en := setBit s.rl.en r.val true }; let s := { s with rl.clamp := setBit s.rl.clamp r.val false }; let s := mkRx r.val 2 0 s; s), (13 : Rail), (3 : Nat), by decide +kernel⟩,
    ⟨(let r : Rail := 0; let s := up; let s := mkAnvil s; let s := { s with rl.en := setBit s.rl.en r.val true }; let s := { s with rl.pgd := setBit s.rl.pgd r.val false }; let s := { s with seq.joined := setBit s.seq.joined r.val false }; let s := { s with seq.taken := setBit s.seq.taken r.val false }; s), (0 : Rail), by decide +kernel⟩,
    ⟨(let r : Rail := 0; let s := up; let s := { s with seq.joined := setBit s.seq.joined r.val false }; let s := { s with seq.taken := setBit s.seq.taken r.val false }; s), (0 : Rail), by decide +kernel⟩,
    ⟨(let r : Rail := 0; let s := up; let s := mkAnvil s; let s := { s with seq.joined := setBit s.seq.joined r.val true }; let s := { s with seq.taken := setBit s.seq.taken r.val false }; let s := mkRx r.val 4 0 s; s), (0 : Rail), by decide +kernel⟩,
    ⟨(let r : Rail := 0; let s := up; let s := mkAnvil s; let s := { s with rl.thl := setBit s.rl.thl r.val false }; s), (0 : Rail), by decide +kernel⟩,
    ⟨up, (31 : Rail), by decide +kernel⟩,
    ⟨(let s := up; let s := { up with glob.supplied := false }; s), by decide +kernel⟩,
    ⟨(let r : Rail := 0; let s := up; let s := { s with seq.taken := setBit s.seq.taken r.val true }; s), (0 : Rail), by decide +kernel⟩,
    ⟨(let s := up; let s := mkAnvil s; s), (0 : Rail), (0x749d#16 : Word), by decide +kernel⟩,
    ⟨(let r : Rail := 0; let s := up; let s := mkSup r.val s; s), (0 : Rail), by decide +kernel⟩⟩

/-- `Overload`. -/
theorem witness_Overload :
    (∃ (s : State) (r : Rail) (d : Nat), anvilOn s = true ∧ has s.rl.en r.val = true ∧ rk r.val ≠ .ext ∧ rk r.val ≠ .ldo ∧ has s.rl.clamp r.val = false ∧ limitInForce s r.val < d) ∧
    (∃ (s : State) (r : Rail) (d : Nat), anvilOn s = true ∧ has s.rl.en r.val = true ∧ rk r.val = .ldo ∧ has s.rl.clamp r.val = false ∧ limitInForce s r.val < d ∧ rxCode (lv s) r.val 2 = 0) ∧
    (∃ (s : State) (r : Rail) (d : Nat), anvilOn s = true ∧ has s.rl.en r.val = true ∧ rk r.val ≠ .ext ∧ has s.rl.clamp r.val = true ∧ d < limitInForce s r.val) ∧
    (∃ (s : State) (r : Rail) (d : Nat), (has s.rl.clamp r.val = true → limitInForce s r.val < d) ∧ (has s.rl.clamp r.val = false → d ≤ limitInForce s r.val)) ∧
    (∃ (s : State) (r : Rail), anvilOn s = true ∧ has s.rl.en r.val = true ∧ rk r.val ≠ .ext ∧ rk r.val ≠ .lsw ∧ has s.rl.clamp r.val = true ∧ has s.rl.slowRun r.val = false ∧ rxCode (lv s) r.val 3 = 0) ∧
    (∃ (s : State) (r : Rail), (has s.rl.slowRun r.val = true ∨ has s.rl.clamp r.val = false)) ∧
    (∃ (s : State) (r : Rail), Running s ∧ has s.rl.en r.val = true ∧ rk r.val = .lsw ∧ has s.rl.clamp r.val = true ∧ has s.rl.slowRun r.val = false ∧ heldRail s r.val = false ∧ has s.seq.retryWait r.val = false ∧ (rxCode (lv s) r.val 3 = 0 ∨ rxCode (lv s) r.val 3 = 2)) :=
    ⟨⟨(let r : Rail := 0; let s := up; let s := mkAnvil s; let s := { s with rl.en := setBit s.rl.en r.val true }; let s := { s with rl.clamp := setBit s.rl.clamp r.val false }; s), (0 : Rail), ((limitInForce ((let r : Rail := 0; let s := up; let s := mkAnvil s; let s := { s with rl.en := setBit s.rl.en r.val true }; let s := { s with rl.clamp := setBit s.rl.clamp r.val false }; s)) 0 + 1) : Nat), by decide +kernel⟩,
    ⟨(let r : Rail := 13; let s := up; let s := mkAnvil s; let s := { s with rl.en := setBit s.rl.en r.val true }; let s := { s with rl.clamp := setBit s.rl.clamp r.val false }; let s := mkRx r.val 2 0 s; s), (13 : Rail), ((let r : Rail := 13; let d : Nat := 0; let s := (let r : Rail := 13; let s := up; let s := mkAnvil s; let s := { s with rl.en := setBit s.rl.en r.val true }; let s := { s with rl.clamp := setBit s.rl.clamp r.val false }; let s := mkRx r.val 2 0 s; s); (limitInForce s r.val + 1 + d)) : Nat), by decide +kernel⟩,
    ⟨(let r : Rail := 0; let s := up; let s := mkAnvil s; let s := { s with rl.en := setBit s.rl.en r.val true }; let s := { s with rl.clamp := setBit s.rl.clamp r.val true }; s), (0 : Rail), ((limitInForce ((let r : Rail := 0; let s := up; let s := mkAnvil s; let s := { s with rl.en := setBit s.rl.en r.val true }; let s := { s with rl.clamp := setBit s.rl.clamp r.val true }; s)) 0 - 1) : Nat), by decide +kernel⟩,
    ⟨(let s := up; let s := { s with rl.clamp := 0 }; s), (0 : Rail), ((limitInForce ((let s := up; let s := { s with rl.clamp := 0 }; s)) 0) : Nat), by decide +kernel⟩,
    ⟨(let r : Rail := 0; let s := up; let s := mkAnvil s; let s := { s with rl.en := setBit s.rl.en r.val true }; let s := { s with rl.clamp := setBit s.rl.clamp r.val true }; let s := { s with rl.slowRun := setBit s.rl.slowRun r.val false }; let s := mkRx r.val 3 0 s; s), (0 : Rail), by decide +kernel⟩,
    ⟨up, (0 : Rail), by decide +kernel⟩,
    ⟨(let r : Rail := 17; let s := up; let s := { mkAnvil s with glob.st := .run, glob.boot := false }; let s := { s with rl.en := setBit s.rl.en r.val true }; let s := { s with rl.clamp := setBit s.rl.clamp r.val true }; let s := { s with rl.slowRun := setBit s.rl.slowRun r.val false }; let s := { s with seq.offhold := 0 }; let s := { s with seq.retryWait := setBit s.seq.retryWait r.val false }; let s := mkRx r.val 3 (if s.cyc.cnt.getLsbD 2 then 2 else 0) s; s), (17 : Rail), ⟨by decide +kernel, by decide +kernel, by decide +kernel⟩, by decide +kernel⟩⟩

/-- `Reactions`. -/
theorem witness_Reactions :
    (∃ (s : State) (r : Rail) (mon : Word) (k : Nat), Running s ∧ has s.rl.en r.val = true ∧ has s.rl.pgd r.val = true ∧ has s.rl.soft r.val = false ∧ supervised s r.val = true ∧ uvFalls s r.val mon = true ∧ heldRail s r.val = false ∧ has s.seq.retryWait r.val = false ∧ rxCode (lv s) r.val 0 = k ∧ (k = 2 ∨ k = 3 ∨ k = 4)) ∧
    (∃ (s : State) (r : Rail) (mon : Word), Running s ∧ has s.rl.en r.val = true ∧ has s.rl.pgd r.val = true ∧ has s.rl.soft r.val = false ∧ supervised s r.val = true ∧ uvFalls s r.val mon = true ∧ heldRail s r.val = false ∧ has s.seq.retryWait r.val = false ∧ rxCode (lv s) r.val 0 = 1 ∧ mget 0 s.seq.retries r.val < rxCount (lv s) r.val) ∧
    (∃ (s : State) (r : Rail) (mon : Word), Running s ∧ has s.rl.en r.val = true ∧ has s.rl.pgd r.val = true ∧ has s.rl.soft r.val = false ∧ supervised s r.val = true ∧ uvFalls s r.val mon = true ∧ heldRail s r.val = false ∧ has s.seq.retryWait r.val = false ∧ rxCode (lv s) r.val 0 = 1 ∧ rxCount (lv s) r.val ≤ mget 0 s.seq.retries r.val ∧ rxEsc (lv s) r.val = 2) ∧
    (∃ (s : State) (r : Rail) (mon : Word), Running s ∧ has s.rl.en r.val = true ∧ has s.rl.pgd r.val = true ∧ has s.rl.soft r.val = false ∧ supervised s r.val = true ∧ uvFalls s r.val mon = true ∧ heldRail s r.val = false ∧ rxCode (lv s) r.val 0 = 5) ∧
    (∃ (s : State) (r : Rail) (mon : Word), Running s ∧ has s.rl.en r.val = true ∧ has s.rl.pgd r.val = true ∧ has s.rl.soft r.val = false ∧ supervised s r.val = true ∧ uvFalls s r.val mon = true ∧ heldRail s r.val = false ∧ rxCode (lv s) r.val 0 = 6) :=
    ⟨⟨(let r : Rail := 0; let k : Nat := 2; let s := up; let s := { mkAnvil s with glob.st := .run, glob.boot := false }; let s := { s with rl.en := setBit s.rl.en r.val true }; let s := { s with rl.pgd := setBit s.rl.pgd r.val true }; let s := { s with rl.soft := setBit s.rl.soft r.val false }; let s := mkSup r.val s; let s := { s with seq.monok := BitVec.allOnes _ }; let s := { s with seq.offhold := 0 }; let s := { s with seq.retryWait := setBit s.seq.retryWait r.val false }; let s := mkRx r.val 0 k s; s), (0 : Rail), (0x749d#16 : Word), (2 : Nat), ⟨by decide +kernel, by decide +kernel, by decide +kernel⟩, by decide +kernel⟩,
    ⟨(let r : Rail := 0; let s := up; let s := { mkAnvil s with glob.st := .run, glob.boot := false }; let s := { s with rl.en := setBit s.rl.en r.val true }; let s := { s with rl.pgd := setBit s.rl.pgd r.val true }; let s := { s with rl.soft := setBit s.rl.soft r.val false }; let s := mkSup r.val s; let s := { s with seq.monok := BitVec.allOnes _ }; let s := { s with seq.offhold := 0 }; let s := { s with seq.retryWait := setBit s.seq.retryWait r.val false }; let s := mkRx r.val 0 1 s; s), (0 : Rail), (0x749d#16 : Word), ⟨by decide +kernel, by decide +kernel, by decide +kernel⟩, by decide +kernel⟩,
    ⟨(let r : Rail := 0; let s := up; let s := { mkAnvil s with glob.st := .run, glob.boot := false }; let s := { s with rl.en := setBit s.rl.en r.val true }; let s := { s with rl.pgd := setBit s.rl.pgd r.val true }; let s := { s with rl.soft := setBit s.rl.soft r.val false }; let s := mkSup r.val s; let s := { s with seq.monok := BitVec.allOnes _ }; let s := { s with seq.offhold := 0 }; let s := { s with seq.retryWait := setBit s.seq.retryWait r.val false }; let s := mkRx r.val 0 1 s; let s := mkRx r.val 6 2 { s with seq.retries := mput 0 s.seq.retries r.val 8 }; s), (0 : Rail), (0x749d#16 : Word), ⟨by decide +kernel, by decide +kernel, by decide +kernel⟩, by decide +kernel⟩,
    ⟨(let r : Rail := 0; let s := up; let s := { mkAnvil s with glob.st := .run, glob.boot := false }; let s := { s with rl.en := setBit s.rl.en r.val true }; let s := { s with rl.pgd := setBit s.rl.pgd r.val true }; let s := { s with rl.soft := setBit s.rl.soft r.val false }; let s := mkSup r.val s; let s := { s with seq.monok := BitVec.allOnes _ }; let s := { s with seq.offhold := 0 }; let s := mkRx r.val 0 5 s; s), (0 : Rail), (0x749d#16 : Word), ⟨by decide +kernel, by decide +kernel, by decide +kernel⟩, by decide +kernel⟩,
    ⟨(let r : Rail := 0; let s := up; let s := { mkAnvil s with glob.st := .run, glob.boot := false }; let s := { s with rl.en := setBit s.rl.en r.val true }; let s := { s with rl.pgd := setBit s.rl.pgd r.val true }; let s := { s with rl.soft := setBit s.rl.soft r.val false }; let s := mkSup r.val s; let s := { s with seq.monok := BitVec.allOnes _ }; let s := { s with seq.offhold := 0 }; let s := mkRx r.val 0 6 s; s), (0 : Rail), (0x749d#16 : Word), ⟨by decide +kernel, by decide +kernel, by decide +kernel⟩, by decide +kernel⟩⟩

/-- `TransientControl`. -/
theorem witness_TransientControl :
    (∃ (s : State) (c : Chan), has s.rl.en (1 + c.val) = true ∧ has s.rl.ss (1 + c.val) = true ∧ armed (.rampEnd (railF (1 + c.val))) s = false) ∧
    (∃ (s : State) (r : Rail), has s.rl.en r.val = true ∧ has s.rl.ss r.val = true ∧ rk r.val ≠ .gb) ∧
    (∃ (s : State) (c : Chan), Running s ∧ has s.rl.en (21 + c.val) = true ∧ has s.rl.ss (21 + c.val) = true ∧ snsen (lv s) c.val = false ∧ s.bk.vlow.getLsbD c.val = false ∧ has s.rl.pg (21 + c.val) = false) ∧
    (∃ (s : State) (c : Chan), transientArmed s c.val 4 = true ∧ s.bk.strk.getLsbD c.val = false ∧ s.bk.blkS.getLsbD c.val = false) ∧
    (∃ (s : State) (c : Chan), s.bk.strk.getLsbD c.val = true) ∧
    (∃ (s : State) (c : Chan), transientArmed s c.val 6 = true ∧ s.bk.brk.getLsbD c.val = false ∧ s.bk.blkB.getLsbD c.val = false) ∧
    (∃ (s : State) (c : Chan), s.bk.brk.getLsbD c.val = true) ∧
    (∃ (s : State) (o : Option Bool), o ≠ some true) ∧
    (∃ (s : State) (o : Option Bool), o ≠ some true) ∧
    (∃ (s : State) (c : Chan), transientArmed s c.val 4 = true ∧ s.bk.strk.getLsbD c.val = false) ∧
    (∃ (s : State) (c : Chan), transientArmed s c.val 6 = true ∧ s.bk.brk.getLsbD c.val = false) :=
    ⟨⟨(let c : Chan := 0; let s := up; let s := { s with rl.en := setBit s.rl.en (1 + c.val) true }; let s := { s with rl.ss := setBit s.rl.ss (1 + c.val) true }; let s := disarm (.rampEnd (railF (1 + c.val))) s; s), (0 : Chan), by decide +kernel⟩,
    ⟨(let r : Rail := 0; let s := up; let s := { s with rl.en := setBit s.rl.en r.val true }; let s := { s with rl.ss := setBit s.rl.ss r.val true }; s), (0 : Rail), by decide +kernel⟩,
    ⟨(let c : Chan := 0; let s := up; let s := { mkAnvil s with glob.st := .run, glob.boot := false }; let s := { s with rl.en := setBit s.rl.en (21 + c.val) true }; let s := { s with rl.ss := setBit s.rl.ss (21 + c.val) true }; let s := { s with bk.vlow := setBit s.bk.vlow c.val false }; let s := { s with rl.pg := setBit s.rl.pg (21 + c.val) false }; let s := putLive (blk (21 + c.val) + 5) [0] { s with rl.pg := setBit s.rl.pg (21 + c.val) false, bk.vlow := setBit s.bk.vlow c.val false }; s), (0 : Chan), ⟨by decide +kernel, by decide +kernel, by decide +kernel⟩, by decide +kernel⟩,
    ⟨(let c : Chan := 0; let s := up; let s := mkTr c.val 4 s; let s := { s with bk.strk := setBit s.bk.strk c.val false }; let s := { s with bk.blkS := setBit s.bk.blkS c.val false }; s), (0 : Chan), by decide +kernel⟩,
    ⟨(let c : Chan := 0; let s := up; let s := { s with bk.strk := setBit s.bk.strk c.val true }; s), (0 : Chan), by decide +kernel⟩,
    ⟨(let c : Chan := 0; let s := up; let s := mkTr c.val 6 s; let s := { s with bk.brk := setBit s.bk.brk c.val false }; let s := { s with bk.blkB := setBit s.bk.blkB c.val false }; s), (0 : Chan), by decide +kernel⟩,
    ⟨(let c : Chan := 0; let s := up; let s := { s with bk.brk := setBit s.bk.brk c.val true }; s), (0 : Chan), by decide +kernel⟩,
    ⟨up, ((let o : Option Bool := none; (if o = some true then none else o)) : Option Bool), by decide +kernel⟩,
    ⟨up, ((let o : Option Bool := none; (if o = some true then none else o)) : Option Bool), by decide +kernel⟩,
    ⟨(let c : Chan := 0; let s := up; let s := mkTr c.val 4 s; let s := { s with bk.strk := setBit s.bk.strk c.val false }; s), (0 : Chan), by decide +kernel⟩,
    ⟨(let c : Chan := 0; let s := up; let s := mkTr c.val 6 s; let s := { s with bk.brk := setBit s.bk.brk c.val false }; s), (0 : Chan), by decide +kernel⟩⟩

/-- `PhasesAndSpares`. -/
theorem witness_PhasesAndSpares :
    (∃ (s : State) (r : PhRail) (p : Phase) (cause : Fin 3), anvilOn s = true ∧ (has s.rl.en r.val = true ∨ r.val ≠ 0 ∧ (cause.val = 0 ∨ cause.val = 1 ∧ has s.rl.qu r.val = true)) ∧ (phOf s r.val).fail.getLsbD p.val = false ∧ has s.rl.overlap r.val = false) ∧
    (∃ (s : State) (c : Chan), anvilOn s = true ∧ spareEn s c.val = true ∧ has s.rl.en (13 + c.val) = true ∧ has s.rl.overlap (13 + c.val) = false ∧ (ldoOf s c.val).pass1 = false ∧ (ldoOf s c.val).p0f = false) ∧
    (∃ (s : State) (c : Chan), anvilOn s = true ∧ spareEn s c.val = true ∧ has s.rl.en (13 + c.val) = true ∧ has s.rl.overlap (13 + c.val) = true ∧ (ldoOf s c.val).p1f = false) ∧
    (∃ (s : State) (r : PhRail), anvilOn s = true ∧ has s.rl.en r.val = true ∧ (phOf s r.val).fail ≠ 0 ∧ count3 (healthy (phOf s r.val)) < nph (lv s) r.val ∧ sparepop (lv s) r.val = true ∧ (phOf s r.val).spare &&& ~~~(phOf s r.val).fail ≠ 0) ∧
    (∃ (s : State) (c : Chan), anvilOn s = true ∧ (ldoOf s c.val).pass1 = false ∧ (ldoOf s c.val).p0f = true ∧ (ldoOf s c.val).p1f = false) ∧
    (∃ (s : State) (c : Chan), anvilOn s = true ∧ s.bk.stgflt.getLsbD c.val = false) ∧
    (∃ (s : State), anvilOn s = true) ∧
    (∃ (s : State) (r : Rail), anvilOn s = true ∧ has s.rl.en r.val = true ∧ (rk r.val = .pre ∨ rk r.val = .gb ∨ rk r.val = .mph ∧ has s.rl.imbal r.val = false ∧ rdBits (lv s) (blk r.val + 0x11) 0 4 ≠ 0)) :=
    ⟨⟨(let r : PhRail := 3; let s := up; let s := mkAnvil s; let s := { s with rl.overlap := setBit s.rl.overlap r.val false }; let s := { s with rl.en := setBit s.rl.en r.val (s.cyc.cnt.getLsbD 3), rl.qu := setBit s.rl.qu r.val true }; s), (3 : PhRail), (0 : Phase), (0 : Fin 3), by decide +kernel⟩,
    ⟨(let c : Chan := 0; let s := up; let s := mkAnvil s; let s := { s with rl.en := setBit s.rl.en (13 + c.val) true }; let s := { s with rl.overlap := setBit s.rl.overlap (13 + c.val) false }; let s := setLdo c.val { (ldoOf s c.val) with pass1 := false } s; let s := setLdo c.val { (ldoOf s c.val) with p0f := false } s; let s := setLiveBits (blk (13 + c.val) + 4) 0 1 1 (setLdo c.val { (ldoOf s c.val) with pass1 := false, p0f := false } s); s), (0 : Chan), by decide +kernel⟩,
    ⟨(let c : Chan := 0; let s := up; let s := mkAnvil s; let s := { s with rl.en := setBit s.rl.en (13 + c.val) true }; let s := { s with rl.overlap := setBit s.rl.overlap (13 + c.val) true }; let s := setLdo c.val { (ldoOf s c.val) with p1f := false } s; let s := setLiveBits (blk (13 + c.val) + 4) 0 1 1 (setLdo c.val { (ldoOf s c.val) with p1f := false } s); s), (0 : Chan), by decide +kernel⟩,
    ⟨(let r : PhRail := 0; let s := up; let s := mkAnvil s; let s := { s with rl.en := setBit s.rl.en r.val true }; let s := setLiveBits (blk r.val + 2) 0 3 6 (setPh r.val { (phOf s r.val) with fail := 1, spare := 4 } s); s), (0 : PhRail), by decide +kernel⟩,
    ⟨(let c : Chan := 0; let s := up; let s := mkAnvil s; let s := setLdo c.val { (ldoOf s c.val) with pass1 := false } s; let s := setLdo c.val { (ldoOf s c.val) with p0f := true } s; let s := setLdo c.val { (ldoOf s c.val) with p1f := false } s; let s := setLdo c.val { (ldoOf s c.val) with pass1 := false, p0f := true, p1f := false } s; s), (0 : Chan), by decide +kernel⟩,
    ⟨(let c : Chan := 0; let s := up; let s := mkAnvil s; let s := { s with bk.stgflt := setBit s.bk.stgflt c.val false }; s), (0 : Chan), by decide +kernel⟩,
    ⟨(let s := up; let s := mkAnvil s; s), by decide +kernel⟩,
    ⟨(let r : Rail := 0; let s := up; let s := mkAnvil s; let s := { s with rl.en := setBit s.rl.en r.val true }; s), (0 : Rail), by decide +kernel⟩⟩

/-- `BlockEvents`. -/
theorem witness_BlockEvents :
    (∃ (s : State) (c : Chan), s.bk.pvlow.getLsbD c.val = true) ∧
    (∃ (s : State) (r : Rail), anvilOn s = true ∧ has s.rl.en r.val = true ∧ (rk r.val = .bka ∨ rk r.val = .bkb) ∧ s.bk.skip.getLsbD (bkIdx r.val) = false) ∧
    (∃ (s : State) (r : Rail), anvilOn s = true ∧ has s.rl.en r.val = true ∧ (rk r.val = .bka ∨ rk r.val = .bkb) ∧ s.bk.skip.getLsbD (bkIdx r.val) = true) ∧
    (∃ (s : State) (r : Rail), anvilOn s = true ∧ has s.rl.en r.val = true ∧ (rk r.val = .bka ∨ rk r.val = .bkb)) ∧
    (∃ (s : State) (r : Rail), Running s ∧ (rk r.val = .bka ∨ rk r.val = .bkb) ∧ s.bk.hot.getLsbD (bkIdx r.val) = false ∧ has s.rl.en r.val = true ∧ (rxCode (lv s) r.val 5 = 0 ∨ rxCode (lv s) r.val 5 = 2) ∧ heldRail s r.val = false ∧ has s.seq.retryWait r.val = false) ∧
    (∃ (s : State) (r : Rail), anvilOn s = true ∧ (rk r.val = .bka ∨ rk r.val = .bkb) ∧ s.bk.hot.getLsbD (bkIdx r.val) = false ∧ has s.rl.en r.val = false ∧ rxCode (lv s) r.val 5 = 0) ∧
    (∃ (s : State) (r : Rail), (rk r.val = .bka ∨ rk r.val = .bkb) ∧ s.bk.hot.getLsbD (bkIdx r.val) = true ∧ has s.rl.en r.val = false) ∧
    (∃ (s : State) (r : Rail), (rk r.val = .bka ∨ rk r.val = .bkb) ∧ s.bk.hot.getLsbD (bkIdx r.val) = true ∧ has s.rl.en r.val = true ∧ s.bk.pvlow.getLsbD (ci r.val) = false) ∧
    (∃ (s : State) (c : Chan), anvilOn s = true ∧ has s.rl.en (13 + c.val) = true ∧ (ldoOf s c.val).drop = false) ∧
    (∃ (s : State) (c : Chan), anvilOn s = true ∧ has s.rl.en (13 + c.val) = true) ∧
    (∃ (s : State) (c : Chan), anvilOn s = true ∧ has s.rl.en (17 + c.val) = true ∧ s.bk.revblk.getLsbD c.val = false ∧ (lv s (blk (17 + c.val))).getLsbD 3 = true) ∧
    (∃ (s : State) (c : Chan), anvilOn s = true ∧ has s.rl.en (21 + c.val) = true ∧ s.bk.vlow.getLsbD c.val = false) ∧
    (∃ (s : State) (c : Chan), s.bk.vlow.getLsbD c.val = true) ∧
    (∃ (s : State) (r : Rail), Running s ∧ has s.rl.qu r.val = true) :=
    ⟨⟨(let c : Chan := 0; let s := up; let s := { s with bk.pvlow := setBit s.bk.pvlow c.val true }; s), (0 : Chan), by decide +kernel⟩,
    ⟨(let r : Rail := 10; let s := up; let s := mkAnvil s; let s := { s with rl.en := setBit s.rl.en r.val true }; let s := { s with bk.skip := setBit s.bk.skip (bkIdx r.val) false }; s), (10 : Rail), by decide +kernel⟩,
    ⟨(let r : Rail := 10; let s := up; let s := mkAnvil s; let s := { s with rl.en := setBit s.rl.en r.val true }; let s := { s with bk.skip := setBit s.bk.skip (bkIdx r.val) true }; s), (10 : Rail), by decide +kernel⟩,
    ⟨(let r : Rail := 10; let s := up; let s := mkAnvil s; let s := { s with rl.en := setBit s.rl.en r.val true }; s), (10 : Rail), by decide +kernel⟩,
    ⟨(let r : Rail := 10; let s := up; let s := { mkAnvil s with glob.st := .run, glob.boot := false }; let s := { s with bk.hot := setBit s.bk.hot (bkIdx r.val) false }; let s := { s with rl.en := setBit s.rl.en r.val true }; let s := { s with seq.offhold := 0 }; let s := { s with seq.retryWait := setBit s.seq.retryWait r.val false }; let s := mkRx r.val 5 (if s.cyc.cnt.getLsbD 2 then 2 else 0) s; s), (10 : Rail), ⟨by decide +kernel, by decide +kernel, by decide +kernel⟩, by decide +kernel⟩,
    ⟨(let r : Rail := 10; let s := up; let s := mkAnvil s; let s := { s with bk.hot := setBit s.bk.hot (bkIdx r.val) false }; let s := { s with rl.en := setBit s.rl.en r.val false }; let s := mkRx r.val 5 0 s; s), (10 : Rail), by decide +kernel⟩,
    ⟨(let r : Rail := 10; let s := up; let s := { s with bk.hot := setBit s.bk.hot (bkIdx r.val) true }; let s := { s with rl.en := setBit s.rl.en r.val false }; s), (10 : Rail), by decide +kernel⟩,
    ⟨(let r : Rail := 10; let s := up; let s := { s with bk.hot := setBit s.bk.hot (bkIdx r.val) true }; let s := { s with rl.en := setBit s.rl.en r.val true }; let s := { s with bk.pvlow := setBit s.bk.pvlow (ci r.val) false }; s), (10 : Rail), by decide +kernel⟩,
    ⟨(let c : Chan := 0; let s := up; let s := mkAnvil s; let s := { s with rl.en := setBit s.rl.en (13 + c.val) true }; let s := setLdo c.val { (ldoOf s c.val) with drop := false } s; s), (0 : Chan), by decide +kernel⟩,
    ⟨(let c : Chan := 0; let s := up; let s := mkAnvil s; let s := { s with rl.en := setBit s.rl.en (13 + c.val) true }; s), (0 : Chan), by decide +kernel⟩,
    ⟨(let c : Chan := 0; let s := up; let s := mkAnvil s; let s := { s with rl.en := setBit s.rl.en (17 + c.val) true }; let s := { s with bk.revblk := setBit s.bk.revblk c.val false }; s), (0 : Chan), by decide +kernel⟩,
    ⟨(let c : Chan := 0; let s := up; let s := mkAnvil s; let s := { s with rl.en := setBit s.rl.en (21 + c.val) true }; let s := { s with bk.vlow := setBit s.bk.vlow c.val false }; s), (0 : Chan), by decide +kernel⟩,
    ⟨(let c : Chan := 0; let s := up; let s := { s with bk.vlow := setBit s.bk.vlow c.val true }; s), (0 : Chan), by decide +kernel⟩,
    ⟨(let r : Rail := 0; let s := up; let s := { mkAnvil s with glob.st := .run, glob.boot := false }; let s := { s with rl.qu := setBit s.rl.qu r.val true }; s), (0 : Rail), ⟨by decide +kernel, by decide +kernel, by decide +kernel⟩, by decide +kernel⟩⟩

/-- `SequencedRails`. -/
theorem witness_SequencedRails :
    (∃ (s : State) (r : Rail), anvilOn s = true ∧ has s.seq.wait r.val = true ∧ has s.rl.en r.val = false ∧ heldRail s r.val = false ∧ s.glob.boot = false ∧ (s.glob.st = .start ∨ s.glob.st = .run ∨ s.glob.st = .standby) ∧ parents (lv s) r.val &&& s.rl.pg = parents (lv s) r.val) ∧
    (∃ (s : State) (r : Rail), has s.seq.wait r.val = true ∧ parents (lv s) r.val &&& s.rl.pg ≠ parents (lv s) r.val) ∧
    (∃ (s : State) (r : Rail), has s.seq.offWait r.val = true ∧ has s.rl.en r.val = true ∧ dependants (lv s) r.val &&& s.rl.up = 0) ∧
    (∃ (s : State) (r : Rail), has s.seq.offWait r.val = true ∧ dependants (lv s) r.val &&& s.rl.up ≠ 0) ∧
    (∃ (s : State) (r : Rail), Running s ∧ has s.rl.up r.val = true ∧ has s.rl.en r.val = false) ∧
    (∃ (s : State) (r : Rail), Running s ∧ has s.rl.up r.val = true ∧ has s.rl.en r.val = false) ∧
    (∃ (s : State) (r : Rail), anvilOn s = true ∧ s.glob.st = .stop ∧ s.seq.phase = 4 ∧ s.glob.pendRst = none ∧ s.pwr.req = none ∧ s.rl.up = bit r.val ∧ has s.rl.en r.val = false) ∧
    (∃ (s : State) (n : Fin 7), Running s ∧ has s.rl.en (25 + n.val) = true ∧ has s.rl.pg (25 + n.val) = false ∧ (monsOf (lv s) n.val).isEmpty = true) :=
    ⟨⟨(let r : Rail := 0; let s := up; let s := mkAnvil s; let s := { s with seq.wait := setBit s.seq.wait r.val true }; let s := { s with rl.en := setBit s.rl.en r.val false }; let s := { s with seq.offhold := 0 }; let s := { s with glob.boot := false }; s), (0 : Rail), by decide +kernel⟩,
    ⟨(let r : Rail := 0; let s := up; let s := { s with seq.wait := setBit s.seq.wait r.val true }; let s := putLive (key 0x21 r.val) [0x83] { s with rl.pg := 0 }; s), (0 : Rail), by decide +kernel⟩,
    ⟨(let r : Rail := 0; let s := up; let s := { s with seq.offWait := setBit s.seq.offWait r.val true }; let s := { s with rl.en := setBit s.rl.en r.val true }; s), (0 : Rail), by decide +kernel⟩,
    ⟨(let r : Rail := 0; let s := up; let s := { s with seq.offWait := setBit s.seq.offWait r.val true }; let s := putLive (key 0x21 ((r.val + 1) % 32)) [BitVec.ofNat 8 (128 + r.val)] { s with rl.up := BitVec.allOnes 32 }; s), (0 : Rail), by decide +kernel⟩,
    ⟨(let r : Rail := 0; let s := up; let s := { mkAnvil s with glob.st := .run, glob.boot := false }; let s := { s with rl.up := setBit s.rl.up r.val true }; let s := { s with rl.en := setBit s.rl.en r.val false }; s), (0 : Rail), ⟨by decide +kernel, by decide +kernel, by decide +kernel⟩, by decide +kernel⟩,
    ⟨(let r : Rail := 0; let s := up; let s := { mkAnvil s with glob.st := .run, glob.boot := false }; let s := { s with rl.up := setBit s.rl.up r.val true }; let s := { s with rl.en := setBit s.rl.en r.val false }; s), (0 : Rail), ⟨by decide +kernel, by decide +kernel, by decide +kernel⟩, by decide +kernel⟩,
    ⟨(let r : Rail := 0; let s := up; let s := mkAnvil s; let s := { s with glob.st := .stop }; let s := { s with seq.phase := 4 }; let s := { s with glob.pendRst := none }; let s := { s with pwr.req := none }; let s := { s with rl.up := bit r.val }; let s := { s with rl.en := setBit s.rl.en r.val false }; s), (0 : Rail), by decide +kernel⟩,
    ⟨(let n : Fin 7 := 0; let s := up; let s := { mkAnvil s with glob.st := .run, glob.boot := false }; let s := { s with rl.en := setBit s.rl.en (25 + n.val) true }; let s := { s with rl.pg := setBit s.rl.pg (25 + n.val) false }; s), (0 : Fin 7), ⟨by decide +kernel, by decide +kernel, by decide +kernel⟩, by decide +kernel⟩⟩

/-- `StartsRetriesAndClears`. -/
theorem witness_StartsRetriesAndClears :
    (∃ (s : State), anvilOn s = true ∧ s.glob.boot = false ∧ s.glob.st = .stop ∧ s.seq.phase = 5 ∧ s.pwr.req = none ∧ startOk s = true ∧ s.glob.floor = false ∧ s.ds.recheck = false ∧ maskOf (inseq (lv s)) &&& s.rl.pg ≠ maskOf (inseq (lv s))) ∧
    (∃ (s : State), anvilOn s = true ∧ s.glob.boot = false ∧ s.glob.st = .stop ∧ s.seq.phase = 5 ∧ s.pwr.req = none ∧ startOk s = true ∧ s.glob.floor = false ∧ s.ds.recheck = false ∧ maskOf (inseq (lv s)) &&& s.rl.pg = maskOf (inseq (lv s))) ∧
    (∃ (s : State), anvilOn s = true ∧ s.glob.boot = false ∧ s.glob.st = .stop ∧ s.seq.phase = 5 ∧ s.pwr.req = none ∧ startOk s = false ∧ s.glob.floor = false) ∧
    (∃ (s : State) (r : Rail), has s.seq.retryWait r.val = true ∧ heldRail s r.val = false ∧ has s.rl.en r.val = false ∧ r.val < 32) ∧
    (∃ (s : State) (r : Rail), has s.rl.pg r.val = true) ∧
    (∃ (s : State) (x : Fin 5), s.seq.rst.getLsbD x.val = true ∧ s.seq.rstRun.getLsbD x.val = true) ∧
    (∃ (s : State), Served s) ∧
    (∃ (s : State), Served s) ∧
    (∃ (s : State), Served s) ∧
    (∃ (s : State), Served s) :=
    ⟨⟨(let s := up; let s := mkAnvil s; let s := { s with glob.boot := false }; let s := { s with glob.st := .stop }; let s := { s with seq.phase := 5 }; let s := { s with pwr.req := none }; let s := { s with glob.floor := false }; let s := { s with ds.recheck := false }; let s := let s := setLiveBits (key 0x20 0x44) 0 1 1 { s with pwr.held := false, inp.a.qual := true, rl.pg := 0 }; { s with inp.a.qual := true, glob.vin := 5000 }; s), by decide +kernel⟩,
    ⟨(let s := up; let s := mkAnvil s; let s := { s with glob.boot := false }; let s := { s with glob.st := .stop }; let s := { s with seq.phase := 5 }; let s := { s with pwr.req := none }; let s := { s with glob.floor := false }; let s := { s with ds.recheck := false }; let s := { s with pwr.held := false, inp.a.qual := true, rl.pg := 0xFFFFFFFF }; s), by decide +kernel⟩,
    ⟨(let s := up; let s := mkAnvil s; let s := { s with glob.boot := false }; let s := { s with glob.st := .stop }; let s := { s with seq.phase := 5 }; let s := { s with pwr.req := none }; let s := { s with glob.floor := false }; s), by decide +kernel⟩,
    ⟨(let r : Rail := 0; let s := up; let s := { s with seq.retryWait := setBit s.seq.retryWait r.val true }; let s := { s with seq.offhold := 0 }; let s := { s with rl.en := setBit s.rl.en r.val false }; s), (0 : Rail), by decide +kernel⟩,
    ⟨(let r : Rail := 0; let s := up; let s := { s with rl.pg := setBit s.rl.pg r.val true }; s), (0 : Rail), by decide +kernel⟩,
    ⟨(let s := up; let s := let s := { s with glob.st := if s.cyc.cnt.getLsbD 3 then .run else s.glob.st }; { s with seq.rst := 0x1F, seq.rstRun := 0x1F }; s), (0 : Fin 5), by decide +kernel⟩,
    ⟨(let s := up; let s := mkServed s; s), ⟨by decide +kernel, by decide +kernel⟩⟩,
    ⟨(let s := up; let s := mkServed s; s), ⟨by decide +kernel, by decide +kernel⟩⟩,
    ⟨(let s := up; let s := mkServed s; s), ⟨by decide +kernel, by decide +kernel⟩⟩,
    ⟨(let s := up; let s := mkServed s; s), ⟨by decide +kernel, by decide +kernel⟩⟩⟩

/-- `CommitAcceptance`. -/
theorem witness_CommitAcceptance :
    (∃ (s : State) (p : Packet), Takes false p s ∧ commitState p.params s = true ∧ s.txn.cur = none ∧ paramFault p.params = none) ∧
    (∃ (s : State) (p : Packet) (c : Instr), Takes false p s ∧ ((c = .txnCommit p) ∨ (c = .txnValidate p)) ∧ commitState p.params s = false ∧ s.txn.cur = none) ∧
    (∃ (s : State) (p : Packet) (d : Commit), Takes false p s ∧ commitState p.params s = true ∧ s.txn.cur = some d) ∧
    (∃ (s : State) (p : Packet) (d : Commit), Takes false p s ∧ commitState p.params s = true ∧ s.txn.cur = some d ∧ d.pending = false) ∧
    (∃ (s : State) (p : Packet) (c : Instr) (o : Nat), Takes false p s ∧ ((c = .txnCommit p) ∨ (c = .txnValidate p)) ∧ commitState p.params s = true ∧ s.txn.cur = none ∧ paramFault p.params = some o) ∧
    (∃ (s : State) (p : Packet), Takes false p s ∧ commitState p.params s = true ∧ s.txn.cur = none ∧ paramFault p.params = none) ∧
    (∃ (s : State) (p : Packet) (d : Commit), Takes false p s ∧ commitState p.params s = true ∧ s.txn.cur = some d ∧ d.pending = true ∧ paramFault p.params = none) :=
    ⟨⟨(let s := up; let s := mkTakes false s; let s := { s with glob.st := .run }; let s := { s with txn.cur := none }; s), ({ n := 17, tag := 0x04#8, len := 0x0e#8, params := [0xff#8, 0x0f#8, 0x04#8, 0x07#8, 0x64#8, 0x00#8, 0x00#8, 0x00#8, 0x00#8, 0x00#8, 0x00#8, 0x00#8, 0x00#8, 0x00#8] } : Packet), ⟨by decide +kernel, by decide, by decide, by decide +kernel, by decide, by decide +kernel⟩, by decide +kernel⟩,
    ⟨(let s := up; let s := mkTakes false s; let s := { s with txn.cur := none }; let s := { s with glob.st := .stop }; s), ({ n := 3, tag := 0x05#8, len := 0x00#8, params := [] } : Packet), ((let p : Packet := { n := 3, tag := 0x05#8, len := 0x00#8, params := [] }; .txnCommit p) : Instr), ⟨by decide +kernel, by decide, by decide, by decide +kernel, by decide, by decide +kernel⟩, by decide +kernel⟩,
    ⟨(let s := up; let s := mkTakes false s; let s := { s with glob.st := .run }; let s := { s with txn.cur := some (s.txn.cur.getD ((commitOf s 3 (List.replicate 14 0)))) }; s), ({ n := 3, tag := 0x05#8, len := 0x00#8, params := [] } : Packet), ((let s := (let s := up; let s := mkTakes false s; let s := { s with glob.st := .run }; let s := { s with txn.cur := some (s.txn.cur.getD ((commitOf s 3 (List.replicate 14 0)))) }; s); (s.txn.cur).getD (commitOf State.reset 3 [])) : Commit), ⟨by decide +kernel, by decide, by decide, by decide +kernel, by decide, by decide +kernel⟩, by decide +kernel⟩,
    ⟨(let s := up; let s := mkTakes false s; let s := { s with glob.st := .run }; let s := { s with txn.cur := some (s.txn.cur.getD ((commitOf s 3 (List.replicate 14 0)))) }; let s := updC (fun c => { c with pending := false }) s; s), ({ n := 3, tag := 0x05#8, len := 0x00#8, params := [] } : Packet), ((let s := (let s := up; let s := mkTakes false s; let s := { s with glob.st := .run }; let s := { s with txn.cur := some (s.txn.cur.getD ((commitOf s 3 (List.replicate 14 0)))) }; let s := updC (fun c => { c with pending := false }) s; s); (s.txn.cur).getD (commitOf State.reset 3 [])) : Commit), ⟨by decide +kernel, by decide, by decide, by decide +kernel, by decide, by decide +kernel⟩, by decide +kernel⟩,
    ⟨(let s := up; let s := mkTakes false s; let s := { s with glob.st := .run }; let s := { s with txn.cur := none }; s), ({ n := 3, tag := 0x05#8, len := 0x00#8, params := [] } : Packet), ((let p : Packet := { n := 3, tag := 0x05#8, len := 0x00#8, params := [] }; .txnCommit p) : Instr), (0 : Nat), ⟨by decide +kernel, by decide, by decide, by decide +kernel, by decide, by decide +kernel⟩, by decide +kernel⟩,
    ⟨(let s := up; let s := mkTakes false s; let s := { s with glob.st := .run }; let s := { s with txn.cur := none }; s), ({ n := 17, tag := 0x04#8, len := 0x0e#8, params := [0xff#8, 0x0f#8, 0x04#8, 0x07#8, 0x64#8, 0x00#8, 0x00#8, 0x00#8, 0x00#8, 0x00#8, 0x00#8, 0x00#8, 0x00#8, 0x00#8] } : Packet), ⟨by decide +kernel, by decide, by decide, by decide +kernel, by decide, by decide +kernel⟩, by decide +kernel⟩,
    ⟨(let s := up; let s := mkTakes false s; let s := { s with glob.st := .run }; let s := { s with txn.cur := some (s.txn.cur.getD ((commitOf s 3 (List.replicate 14 0)))) }; let s := updC (fun c => { c with pending := true }) s; s), ({ n := 17, tag := 0x04#8, len := 0x0e#8, params := [0xff#8, 0x0f#8, 0x04#8, 0x07#8, 0x64#8, 0x00#8, 0x00#8, 0x00#8, 0x00#8, 0x00#8, 0x00#8, 0x00#8, 0x00#8, 0x00#8] } : Packet), ((let s := (let s := up; let s := mkTakes false s; let s := { s with glob.st := .run }; let s := { s with txn.cur := some (s.txn.cur.getD ((commitOf s 3 (List.replicate 14 0)))) }; let s := updC (fun c => { c with pending := true }) s; s); (s.txn.cur).getD (commitOf State.reset 3 [])) : Commit), ⟨by decide +kernel, by decide, by decide, by decide +kernel, by decide, by decide +kernel⟩, by decide +kernel⟩⟩

/-- `CommitValidation`. -/
theorem witness_CommitValidation :
    (∃ (s : State) (d : Commit) (f : Found), fwOn s = true ∧ s.txn.cur = some d ∧ d.pending = false ∧ d.abort = false ∧ validate d s = some f) ∧
    (∃ (s : State) (d : Commit), fwOn s = true ∧ s.txn.cur = some d ∧ d.pending = false ∧ d.abort = false ∧ validate d s = none ∧ d.late = false ∧ d.when = 0 ∧ d.reqlock = false) ∧
    (∃ (s : State) (d : Commit), fwOn s = true ∧ s.txn.cur = some d ∧ d.pending = false ∧ d.abort = false ∧ validate d s = none ∧ d.late = false ∧ (d.when = 1 ∨ d.when = 2)) ∧
    (∃ (s : State) (d : Commit), fwOn s = true ∧ s.txn.cur = some d ∧ d.pending = false ∧ d.abort = false ∧ validate d s = none ∧ d.late = true) ∧
    (∃ (s : State) (d : Commit), fwOn s = true ∧ s.txn.cur = some d ∧ d.pending = false ∧ d.abort = true) ∧
    (∃ (s : State) (d : Commit), fwOn s = true ∧ s.txn.cur = none ∧ s.txn.val = some d ∧ validate d s = none) ∧
    (∃ (s : State) (d : Commit) (f : Found), fwOn s = true ∧ s.txn.cur = none ∧ s.txn.val = some d ∧ validate d s = some f) ∧
    (∃ (s : State) (d : Commit), anvilOn s = true ∧ s.txn.cur = some d ∧ d.pending = true ∧ d.reqlock = true ∧ d.when = 1 ∧ d.dlms ≠ 0) ∧
    (∃ (s : State) (d : Commit), s.txn.cur = some d ∧ d.pending = false ∧ d.reqlock = true ∧ d.when = 0 ∧ d.dlms ≠ 0) :=
    ⟨⟨(let s := up; let s := mkServed s; let s := { s with txn.cur := some (s.txn.cur.getD ((commitOf s 3 (List.replicate 14 0)))) }; let s := updC (fun c => { c with pending := false }) s; let s := updC (fun c => { c with abort := false }) s; let s := updC (fun c => { c with scope := 0x0FFF, on := 2, off := 2 }) s; s), ((let s := (let s := up; let s := mkServed s; let s := { s with txn.cur := some (s.txn.cur.getD ((commitOf s 3 (List.replicate 14 0)))) }; let s := updC (fun c => { c with pending := false }) s; let s := updC (fun c => { c with abort := false }) s; let s := updC (fun c => { c with scope := 0x0FFF, on := 2, off := 2 }) s; s); (s.txn.cur).getD (commitOf State.reset 3 [])) : Commit), ((let s := (let s := up; let s := mkServed s; let s := { s with txn.cur := some (s.txn.cur.getD ((commitOf s 3 (List.replicate 14 0)))) }; let s := updC (fun c => { c with pending := false }) s; let s := updC (fun c => { c with abort := false }) s; let s := updC (fun c => { c with scope := 0x0FFF, on := 2, off := 2 }) s; s); (validate ((s.txn.cur).getD (commitOf State.reset 3 [])) s).getD ⟨0, 0, 0, 0⟩) : Found), by decide +kernel⟩,
    ⟨(let s := up; let s := mkServed s; let s := { s with txn.cur := some (s.txn.cur.getD ((commitOf s 3 (List.replicate 14 0)))) }; let s := updC (fun c => { c with pending := false }) s; let s := updC (fun c => { c with abort := false }) s; let s := mkClean s; let s := updC (fun c => { c with late := false }) s; let s := updC (fun c => { c with mode := (c.mode &&& 4) ||| 0 }) s; let s := updC (fun c => { c with mode := setBit c.mode 2 false }) s; s), ((let s := (let s := up; let s := mkServed s; let s := { s with txn.cur := some (s.txn.cur.getD ((commitOf s 3 (List.replicate 14 0)))) }; let s := updC (fun c => { c with pending := false }) s; let s := updC (fun c => { c with abort := false }) s; let s := mkClean s; let s := updC (fun c => { c with late := false }) s; let s := updC (fun c => { c with mode := (c.mode &&& 4) ||| 0 }) s; let s := updC (fun c => { c with mode := setBit c.mode 2 false }) s; s); (s.txn.cur).getD (commitOf State.reset 3 [])) : Commit), by decide +kernel⟩,
    ⟨(let s := up; let s := mkServed s; let s := { s with txn.cur := some (s.txn.cur.getD ((commitOf s 3 (List.replicate 14 0)))) }; let s := updC (fun c => { c with pending := false }) s; let s := updC (fun c => { c with abort := false }) s; let s := mkClean s; let s := updC (fun c => { c with late := false }) s; let s := updC (fun c => { c with mode := (c.mode &&& 4) ||| (if s.cyc.cnt.getLsbD 3 then 1 else 2) }) s; s), ((let s := (let s := up; let s := mkServed s; let s := { s with txn.cur := some (s.txn.cur.getD ((commitOf s 3 (List.replicate 14 0)))) }; let s := updC (fun c => { c with pending := false }) s; let s := updC (fun c => { c with abort := false }) s; let s := mkClean s; let s := updC (fun c => { c with late := false }) s; let s := updC (fun c => { c with mode := (c.mode &&& 4) ||| (if s.cyc.cnt.getLsbD 3 then 1 else 2) }) s; s); (s.txn.cur).getD (commitOf State.reset 3 [])) : Commit), by decide +kernel⟩,
    ⟨(let s := up; let s := mkServed s; let s := { s with txn.cur := some (s.txn.cur.getD ((commitOf s 3 (List.replicate 14 0)))) }; let s := updC (fun c => { c with pending := false }) s; let s := updC (fun c => { c with abort := false }) s; let s := mkClean s; let s := updC (fun c => { c with late := true }) s; s), ((let s := (let s := up; let s := mkServed s; let s := { s with txn.cur := some (s.txn.cur.getD ((commitOf s 3 (List.replicate 14 0)))) }; let s := updC (fun c => { c with pending := false }) s; let s := updC (fun c => { c with abort := false }) s; let s := mkClean s; let s := updC (fun c => { c with late := true }) s; s); (s.txn.cur).getD (commitOf State.reset 3 [])) : Commit), by decide +kernel⟩,
    ⟨(let s := up; let s := mkServed s; let s := { s with txn.cur := some (s.txn.cur.getD ((commitOf s 3 (List.replicate 14 0)))) }; let s := updC (fun c => { c with pending := false }) s; let s := updC (fun c => { c with abort := true }) s; s), ((let s := (let s := up; let s := mkServed s; let s := { s with txn.cur := some (s.txn.cur.getD ((commitOf s 3 (List.replicate 14 0)))) }; let s := updC (fun c => { c with pending := false }) s; let s := updC (fun c => { c with abort := true }) s; s); (s.txn.cur).getD (commitOf State.reset 3 [])) : Commit), by decide +kernel⟩,
    ⟨(let s := up; let s := mkServed s; let s := { s with txn.cur := none }; let s := { s with txn.val := some (s.txn.val.getD ((commitOf s 3 (List.replicate 14 0)))) }; let s := mkClean s; s), ((let s := (let s := up; let s := mkServed s; let s := { s with txn.cur := none }; let s := { s with txn.val := some (s.txn.val.getD ((commitOf s 3 (List.replicate 14 0)))) }; let s := mkClean s; s); (s.txn.val).getD (commitOf State.reset 3 [])) : Commit), by decide +kernel⟩,
    ⟨(let s := up; let s := mkServed s; let s := { s with txn.cur := none }; let s := { s with txn.val := some (s.txn.val.getD ((commitOf s 3 (List.replicate 14 0)))) }; let s := { s with txn.val := some { commitOf s 3 (List.replicate 14 0) with scope := 0x0FFF, on := 2, off := 2 } }; s), ((let s := (let s := up; let s := mkServed s; let s := { s with txn.cur := none }; let s := { s with txn.val := some (s.txn.val.getD ((commitOf s 3 (List.replicate 14 0)))) }; let s := { s with txn.val := some { commitOf s 3 (List.replicate 14 0) with scope := 0x0FFF, on := 2, off := 2 } }; s); (s.txn.val).getD (commitOf State.reset 3 [])) : Commit), ((let s := (let s := up; let s := mkServed s; let s := { s with txn.cur := none }; let s := { s with txn.val := some (s.txn.val.getD ((commitOf s 3 (List.replicate 14 0)))) }; let s := { s with txn.val := some { commitOf s 3 (List.replicate 14 0) with scope := 0x0FFF, on := 2, off := 2 } }; s); (validate ((s.txn.val).getD (commitOf State.reset 3 [])) s).getD ⟨0, 0, 0, 0⟩) : Found), by decide +kernel⟩,
    ⟨(let s := up; let s := mkAnvil s; let s := { s with txn.cur := some (s.txn.cur.getD ((commitOf s 3 (List.replicate 14 0)))) }; let s := updC (fun c => { c with pending := true }) s; let s := updC (fun c => { c with mode := setBit c.mode 2 true }) s; let s := updC (fun c => { c with mode := (c.mode &&& 4) ||| 1 }) s; let s := updC (fun c => { c with dlms := max 1 c.dlms }) s; s), ((let s := (let s := up; let s := mkAnvil s; let s := { s with txn.cur := some (s.txn.cur.getD ((commitOf s 3 (List.replicate 14 0)))) }; let s := updC (fun c => { c with pending := true }) s; let s := updC (fun c => { c with mode := setBit c.mode 2 true }) s; let s := updC (fun c => { c with mode := (c.mode &&& 4) ||| 1 }) s; let s := updC (fun c => { c with dlms := max 1 c.dlms }) s; s); (s.txn.cur).getD (commitOf State.reset 3 [])) : Commit), by decide +kernel⟩,
    ⟨(let s := up; let s := { s with txn.cur := some (s.txn.cur.getD ((commitOf s 3 (List.replicate 14 0)))) }; let s := updC (fun c => { c with pending := false }) s; let s := updC (fun c => { c with mode := setBit c.mode 2 true }) s; let s := updC (fun c => { c with mode := (c.mode &&& 4) ||| 0 }) s; let s := updC (fun c => { c with dlms := max 1 c.dlms }) s; s), ((let s := (let s := up; let s := { s with txn.cur := some (s.txn.cur.getD ((commitOf s 3 (List.replicate 14 0)))) }; let s := updC (fun c => { c with pending := false }) s; let s := updC (fun c => { c with mode := setBit c.mode 2 true }) s; let s := updC (fun c => { c with mode := (c.mode &&& 4) ||| 0 }) s; let s := updC (fun c => { c with dlms := max 1 c.dlms }) s; s); (s.txn.cur).getD (commitOf State.reset 3 [])) : Commit), by decide +kernel⟩⟩

/-- `CommitApplies`. -/
theorem witness_CommitApplies :
    (∃ (s : State) (d : Commit), Running s ∧ s.txn.cur = some d ∧ d.pending = true ∧ d.reqlock = false ∧ d.when = 1 ∧ angleNow s = d.angle.toNat ∧ d.on = 0 ∧ d.off = 0 ∧ d.scope = 0x0200 ∧ applyCheck d s = none) ∧
    (∃ (s : State) (d : Commit) (f : Found), anvilOn s = true ∧ s.txn.cur = some d ∧ d.pending = true ∧ d.reqlock = false ∧ d.when = 1 ∧ angleNow s = d.angle.toNat ∧ applyCheck d s = some f) ∧
    (∃ (s : State) (d : Commit), Running s ∧ s.txn.cur = some d ∧ d.pending = true ∧ d.reqlock = false ∧ d.when = 2 ∧ d.due ≤ s.clk.now ∧ d.on = 0 ∧ d.off = 0 ∧ d.scope = 0x0200 ∧ applyCheck d s = none) ∧
    (∃ (s : State) (d : Commit), s.txn.cur = some d ∧ d.when = 2 ∧ s.clk.now < d.due) ∧
    (∃ (s : State) (d : Commit), Running s ∧ s.txn.cur = some d ∧ d.pending = true ∧ momentHere s = true ∧ d.on = 0 ∧ d.off = 0 ∧ applyCheck d s = none ∧ (d.reqlock = false ∨ pllLocked s = true ∧ (d.dlms = 0 ∨ s.clk.now < d.due))) ∧
    (∃ (s : State) (d : Commit), Running s ∧ s.txn.cur = some d ∧ d.pending = true ∧ d.when = 2 ∧ d.due ≤ s.clk.now ∧ d.on = 0 ∧ d.off = 0 ∧ applyCheck d s = none ∧ (d.reqlock = false ∨ pllLocked s = true)) ∧
    (∃ (s : State) (d : Commit), anvilOn s = true ∧ s.txn.cur = some d ∧ d.pending = true ∧ d.reqlock = true ∧ momentHere s = true ∧ (pllLocked s = false ∧ d.dlms = 0 ∨ d.dlms ≠ 0 ∧ d.due ≤ s.clk.now)) ∧
    (∃ (s : State) (d : Commit), anvilOn s = true ∧ s.txn.cur = some d ∧ d.pending = true ∧ d.reqlock = true ∧ d.when = 2 ∧ d.due ≤ s.clk.now ∧ pllLocked s = false) ∧
    (∃ (s : State) (d : Commit), s.txn.cur = some d ∧ d.reqlock = true ∧ d.when ≠ 2 ∧ pllLocked s = false ∧ d.dlms ≠ 0 ∧ s.clk.now < d.due) ∧
    (∃ (s : State) (d : Commit), Running s ∧ s.txn.cur = some d ∧ d.pending = true ∧ momentHere s = true ∧ applyCheck d s = none ∧ (d.reqlock = false ∨ pllLocked s = true ∧ (d.dlms = 0 ∨ s.clk.now < d.due))) ∧
    (∃ (s : State) (d : Commit), s.txn.cur = some d ∧ d.when = 1 ∧ angleNow s ≠ d.angle.toNat) :=
    ⟨⟨(let s := up; let s := { mkAnvil s with glob.st := .run, glob.boot := false }; let s := { s with txn.cur := some (s.txn.cur.getD ((commitOf s 3 (List.replicate 14 0)))) }; let s := updC (fun c => { c with pending := true }) s; let s := updC (fun c => { c with mode := setBit c.mode 2 false }) s; let s := updC (fun c => { c with mode := (c.mode &&& 4) ||| 1 }) s; let s := updC (fun c => { c with angle := BitVec.ofNat _ (angleNow s) }) s; let s := updC (fun c => { c with on := 0 }) s; let s := updC (fun c => { c with off := 0 }) s; let s := updC (fun c => { c with scope := 0x0200 }) s; let s := mkClean s; s), ((let s := (let s := up; let s := { mkAnvil s with glob.st := .run, glob.boot := false }; let s := { s with txn.cur := some (s.txn.cur.getD ((commitOf s 3 (List.replicate 14 0)))) }; let s := updC (fun c => { c with pending := true }) s; let s := updC (fun c => { c with mode := setBit c.mode 2 false }) s; let s := updC (fun c => { c with mode := (c.mode &&& 4) ||| 1 }) s; let s := updC (fun c => { c with angle := BitVec.ofNat _ (angleNow s) }) s; let s := updC (fun c => { c with on := 0 }) s; let s := updC (fun c => { c with off := 0 }) s; let s := updC (fun c => { c with scope := 0x0200 }) s; let s := mkClean s; s); (s.txn.cur).getD (commitOf State.reset 3 [])) : Commit), ⟨by decide +kernel, by decide +kernel, by decide +kernel⟩, by decide +kernel⟩,
    ⟨(let s := up; let s := mkAnvil s; let s := { s with txn.cur := some (s.txn.cur.getD ((commitOf s 3 (List.replicate 14 0)))) }; let s := updC (fun c => { c with pending := true }) s; let s := updC (fun c => { c with mode := setBit c.mode 2 false }) s; let s := updC (fun c => { c with mode := (c.mode &&& 4) ||| 1 }) s; let s := updC (fun c => { c with angle := BitVec.ofNat _ (angleNow s) }) s; let s := updC (fun c => { c with scope := 0x0FFF, on := 0xFFFFFFFF, off := 0xFFFFFFFF }) { s with glob.st := .run }; s), ((let s := (let s := up; let s := mkAnvil s; let s := { s with txn.cur := some (s.txn.cur.getD ((commitOf s 3 (List.replicate 14 0)))) }; let s := updC (fun c => { c with pending := true }) s; let s := updC (fun c => { c with mode := setBit c.mode 2 false }) s; let s := updC (fun c => { c with mode := (c.mode &&& 4) ||| 1 }) s; let s := updC (fun c => { c with angle := BitVec.ofNat _ (angleNow s) }) s; let s := updC (fun c => { c with scope := 0x0FFF, on := 0xFFFFFFFF, off := 0xFFFFFFFF }) { s with glob.st := .run }; s); (s.txn.cur).getD (commitOf State.reset 3 [])) : Commit), ((let s := (let s := up; let s := mkAnvil s; let s := { s with txn.cur := some (s.txn.cur.getD ((commitOf s 3 (List.replicate 14 0)))) }; let s := updC (fun c => { c with pending := true }) s; let s := updC (fun c => { c with mode := setBit c.mode 2 false }) s; let s := updC (fun c => { c with mode := (c.mode &&& 4) ||| 1 }) s; let s := updC (fun c => { c with angle := BitVec.ofNat _ (angleNow s) }) s; let s := updC (fun c => { c with scope := 0x0FFF, on := 0xFFFFFFFF, off := 0xFFFFFFFF }) { s with glob.st := .run }; s); (applyCheck ((s.txn.cur).getD (commitOf State.reset 3 [])) s).getD ⟨0, 0, 0, 0⟩) : Found), by decide +kernel⟩,
    ⟨(let s := up; let s := { mkAnvil s with glob.st := .run, glob.boot := false }; let s := { s with txn.cur := some (s.txn.cur.getD ((commitOf s 3 (List.replicate 14 0)))) }; let s := updC (fun c => { c with pending := true }) s; let s := updC (fun c => { c with mode := setBit c.mode 2 false }) s; let s := updC (fun c => { c with mode := (c.mode &&& 4) ||| 2 }) s; let s := updC (fun c => { c with due := s.clk.now }) s; let s := updC (fun c => { c with on := 0 }) s; let s := updC (fun c => { c with off := 0 }) s; let s := updC (fun c => { c with scope := 0x0200 }) s; let s := mkClean s; s), ((let s := (let s := up; let s := { mkAnvil s with glob.st := .run, glob.boot := false }; let s := { s with txn.cur := some (s.txn.cur.getD ((commitOf s 3 (List.replicate 14 0)))) }; let s := updC (fun c => { c with pending := true }) s; let s := updC (fun c => { c with mode := setBit c.mode 2 false }) s; let s := updC (fun c => { c with mode := (c.mode &&& 4) ||| 2 }) s; let s := updC (fun c => { c with due := s.clk.now }) s; let s := updC (fun c => { c with on := 0 }) s; let s := updC (fun c => { c with off := 0 }) s; let s := updC (fun c => { c with scope := 0x0200 }) s; let s := mkClean s; s); (s.txn.cur).getD (commitOf State.reset 3 [])) : Commit), ⟨by decide +kernel, by decide +kernel, by decide +kernel⟩, by decide +kernel⟩,
    ⟨(let s := up; let s := { s with txn.cur := some (s.txn.cur.getD ((commitOf s 3 (List.replicate 14 0)))) }; let s := updC (fun c => { c with mode := (c.mode &&& 4) ||| 2 }) s; let s := updC (fun c => { c with due := s.clk.now + 1 }) s; s), ((let s := (let s := up; let s := { s with txn.cur := some (s.txn.cur.getD ((commitOf s 3 (List.replicate 14 0)))) }; let s := updC (fun c => { c with mode := (c.mode &&& 4) ||| 2 }) s; let s := updC (fun c => { c with due := s.clk.now + 1 }) s; s); (s.txn.cur).getD (commitOf State.reset 3 [])) : Commit), by decide +kernel⟩,
    ⟨(let s := up; let s := { mkAnvil s with glob.st := .run, glob.boot := false }; let s := { s with txn.cur := some (s.txn.cur.getD ((commitOf s 3 (List.replicate 14 0)))) }; let s := updC (fun c => { c with pending := true }) s; let s := updC (fun c => { c with mode := c.mode &&& 4 }) s; let s := updC (fun c => { c with on := 0 }) s; let s := updC (fun c => { c with off := 0 }) s; let s := mkClean s; let s := let s := updC (fun c => { c with scope := 0x0FFF, mode := if s.cyc.cnt.getLsbD 2 then 0 else 1 }) s; { s with regs.stg := [(key 2 4, BitVec.ofNat 8 s.cyc.cnt.toNat), (key 0x24 2, 9), (key 0x40 2, 7), (key 0x44 0, 3), (key 0x44 2, 5)] }; s), ((let s := (let s := up; let s := { mkAnvil s with glob.st := .run, glob.boot := false }; let s := { s with txn.cur := some (s.txn.cur.getD ((commitOf s 3 (List.replicate 14 0)))) }; let s := updC (fun c => { c with pending := true }) s; let s := updC (fun c => { c with mode := c.mode &&& 4 }) s; let s := updC (fun c => { c with on := 0 }) s; let s := updC (fun c => { c with off := 0 }) s; let s := mkClean s; let s := let s := updC (fun c => { c with scope := 0x0FFF, mode := if s.cyc.cnt.getLsbD 2 then 0 else 1 }) s; { s with regs.stg := [(key 2 4, BitVec.ofNat 8 s.cyc.cnt.toNat), (key 0x24 2, 9), (key 0x40 2, 7), (key 0x44 0, 3), (key 0x44 2, 5)] }; s); (s.txn.cur).getD (commitOf State.reset 3 [])) : Commit), ⟨by decide +kernel, by decide +kernel, by decide +kernel⟩, by decide +kernel⟩,
    ⟨(let s := up; let s := { mkAnvil s with glob.st := .run, glob.boot := false }; let s := { s with txn.cur := some (s.txn.cur.getD ((commitOf s 3 (List.replicate 14 0)))) }; let s := updC (fun c => { c with pending := true }) s; let s := updC (fun c => { c with mode := (c.mode &&& 4) ||| 2 }) s; let s := updC (fun c => { c with due := s.clk.now }) s; let s := updC (fun c => { c with on := 0 }) s; let s := updC (fun c => { c with off := 0 }) s; let s := mkClean s; let s := let s := updC (fun c => { c with scope := 0x0C04, mode := 2 }) s; { s with regs.stg := [(key 2 4, BitVec.ofNat 8 s.cyc.cnt.toNat), (key 0x24 2, 9), (key 0x40 2, 7), (key 0x44 0, 3), (key 0x44 2, 5)] }; s), ((let s := (let s := up; let s := { mkAnvil s with glob.st := .run, glob.boot := false }; let s := { s with txn.cur := some (s.txn.cur.getD ((commitOf s 3 (List.replicate 14 0)))) }; let s := updC (fun c => { c with pending := true }) s; let s := updC (fun c => { c with mode := (c.mode &&& 4) ||| 2 }) s; let s := updC (fun c => { c with due := s.clk.now }) s; let s := updC (fun c => { c with on := 0 }) s; let s := updC (fun c => { c with off := 0 }) s; let s := mkClean s; let s := let s := updC (fun c => { c with scope := 0x0C04, mode := 2 }) s; { s with regs.stg := [(key 2 4, BitVec.ofNat 8 s.cyc.cnt.toNat), (key 0x24 2, 9), (key 0x40 2, 7), (key 0x44 0, 3), (key 0x44 2, 5)] }; s); (s.txn.cur).getD (commitOf State.reset 3 [])) : Commit), ⟨by decide +kernel, by decide +kernel, by decide +kernel⟩, by decide +kernel⟩,
    ⟨(let s := up; let s := mkAnvil s; let s := { s with txn.cur := some (s.txn.cur.getD ((commitOf s 3 (List.replicate 14 0)))) }; let s := updC (fun c => { c with pending := true }) s; let s := updC (fun c => { c with mode := setBit c.mode 2 true }) s; let s := updC (fun c => { c with mode := c.mode &&& 4 }) s; s), ((let s := (let s := up; let s := mkAnvil s; let s := { s with txn.cur := some (s.txn.cur.getD ((commitOf s 3 (List.replicate 14 0)))) }; let s := updC (fun c => { c with pending := true }) s; let s := updC (fun c => { c with mode := setBit c.mode 2 true }) s; let s := updC (fun c => { c with mode := c.mode &&& 4 }) s; s); (s.txn.cur).getD (commitOf State.reset 3 [])) : Commit), by decide +kernel⟩,
    ⟨(let s := up; let s := mkAnvil s; let s := { s with txn.cur := some (s.txn.cur.getD ((commitOf s 3 (List.replicate 14 0)))) }; let s := updC (fun c => { c with pending := true }) s; let s := updC (fun c => { c with mode := setBit c.mode 2 true }) s; let s := updC (fun c => { c with mode := (c.mode &&& 4) ||| 2 }) s; let s := updC (fun c => { c with due := s.clk.now }) s; s), ((let s := (let s := up; let s := mkAnvil s; let s := { s with txn.cur := some (s.txn.cur.getD ((commitOf s 3 (List.replicate 14 0)))) }; let s := updC (fun c => { c with pending := true }) s; let s := updC (fun c => { c with mode := setBit c.mode 2 true }) s; let s := updC (fun c => { c with mode := (c.mode &&& 4) ||| 2 }) s; let s := updC (fun c => { c with due := s.clk.now }) s; s); (s.txn.cur).getD (commitOf State.reset 3 [])) : Commit), by decide +kernel⟩,
    ⟨(let s := up; let s := { s with txn.cur := some (s.txn.cur.getD ((commitOf s 3 (List.replicate 14 0)))) }; let s := updC (fun c => { c with mode := setBit c.mode 2 true }) s; let s := updC (fun c => { c with dlms := max 1 c.dlms }) s; let s := updC (fun c => { c with due := s.clk.now + 1 }) s; s), ((let s := (let s := up; let s := { s with txn.cur := some (s.txn.cur.getD ((commitOf s 3 (List.replicate 14 0)))) }; let s := updC (fun c => { c with mode := setBit c.mode 2 true }) s; let s := updC (fun c => { c with dlms := max 1 c.dlms }) s; let s := updC (fun c => { c with due := s.clk.now + 1 }) s; s); (s.txn.cur).getD (commitOf State.reset 3 [])) : Commit), by decide +kernel⟩,
    ⟨(let s := up; let s := { mkAnvil s with glob.st := .run, glob.boot := false }; let s := { s with txn.cur := some (s.txn.cur.getD ((commitOf s 3 (List.replicate 14 0)))) }; let s := updC (fun c => { c with pending := true }) s; let s := updC (fun c => { c with mode := c.mode &&& 4 }) s; let s := mkClean s; s), ((let s := (let s := up; let s := { mkAnvil s with glob.st := .run, glob.boot := false }; let s := { s with txn.cur := some (s.txn.cur.getD ((commitOf s 3 (List.replicate 14 0)))) }; let s := updC (fun c => { c with pending := true }) s; let s := updC (fun c => { c with mode := c.mode &&& 4 }) s; let s := mkClean s; s); (s.txn.cur).getD (commitOf State.reset 3 [])) : Commit), ⟨by decide +kernel, by decide +kernel, by decide +kernel⟩, by decide +kernel⟩,
    ⟨(let s := up; let s := { up with txn.cur := some { commitOf up 3 [] with mode := 1, angle := 1 } }; s), ({ commitOf up 3 [] with mode := 1, angle := 1 } : Commit), by decide +kernel⟩⟩

/-- `AbortAndRevert`. -/
theorem witness_AbortAndRevert :
    (∃ (s : State) (p : Packet), Takes false p s ∧ p.params = [] ∧ s.txn.cur = none) ∧
    (∃ (s : State) (p : Packet) (d : Commit), Takes false p s ∧ p.params = [] ∧ s.txn.cur = some d ∧ d.pending = true) ∧
    (∃ (s : State) (p : Packet) (d : Commit), Takes false p s ∧ p.params = [] ∧ s.txn.cur = some d ∧ d.pending = false) ∧
    (∃ (s : State) (p : Packet) (a : Byte) (b : Byte), Takes false p s ∧ p.params = [a, b] ∧ s.txn.cur = none ∧ BitVec.ofNat 16 (leNat [a, b]) ≠ 0 ∧ scopeBad (BitVec.ofNat 16 (leNat [a, b])) = false) ∧
    (∃ (s : State) (p : Packet), Takes false p s ∧ validating s = true) ∧
    (∃ (s : State) (p : Packet) (a : _) (b : _) (d : Commit), Takes false p s ∧ p.params = [a, b] ∧ s.txn.cur = some d ∧ d.pending = true ∧ BitVec.ofNat 16 (leNat [a, b]) ≠ 0 ∧ scopeBad (BitVec.ofNat 16 (leNat [a, b])) = false ∧ BitVec.ofNat 16 (leNat [a, b]) &&& d.scope = 0) ∧
    (∃ (s : State) (p : Packet) (a : _) (b : _) (d : Commit), Takes false p s ∧ p.params = [a, b] ∧ s.txn.cur = some d ∧ d.pending = true ∧ BitVec.ofNat 16 (leNat [a, b]) ≠ 0 ∧ scopeBad (BitVec.ofNat 16 (leNat [a, b])) = false ∧ BitVec.ofNat 16 (leNat [a, b]) &&& d.scope ≠ 0) :=
    ⟨⟨(let s := up; let s := mkTakes false s; let s := { s with txn.cur := none }; s), ({ n := 3, tag := 0x05#8, len := 0x00#8, params := [] } : Packet), ⟨by decide +kernel, by decide, by decide, by decide +kernel, by decide, by decide +kernel⟩, by decide +kernel⟩,
    ⟨(let s := up; let s := mkTakes false s; let s := { s with txn.cur := some (s.txn.cur.getD ((commitOf s 3 (List.replicate 14 0)))) }; let s := updC (fun c => { c with pending := true }) s; s), ({ n := 3, tag := 0x05#8, len := 0x00#8, params := [] } : Packet), ((let s := (let s := up; let s := mkTakes false s; let s := { s with txn.cur := some (s.txn.cur.getD ((commitOf s 3 (List.replicate 14 0)))) }; let s := updC (fun c => { c with pending := true }) s; s); (s.txn.cur).getD (commitOf State.reset 3 [])) : Commit), ⟨by decide +kernel, by decide, by decide, by decide +kernel, by decide, by decide +kernel⟩, by decide +kernel⟩,
    ⟨(let s := up; let s := mkTakes false s; let s := { s with txn.cur := some (s.txn.cur.getD ((commitOf s 3 (List.replicate 14 0)))) }; let s := updC (fun c => { c with pending := false }) s; s), ({ n := 3, tag := 0x05#8, len := 0x00#8, params := [] } : Packet), ((let s := (let s := up; let s := mkTakes false s; let s := { s with txn.cur := some (s.txn.cur.getD ((commitOf s 3 (List.replicate 14 0)))) }; let s := updC (fun c => { c with pending := false }) s; s); (s.txn.cur).getD (commitOf State.reset 3 [])) : Commit), ⟨by decide +kernel, by decide, by decide, by decide +kernel, by decide, by decide +kernel⟩, by decide +kernel⟩,
    ⟨(let s := up; let s := mkTakes false s; let s := { s with txn.cur := none }; s), ({ n := 5, tag := 0x02#8, len := 0x02#8, params := [0x01#8, 0x00#8] } : Packet), (0x01#8 : Byte), (0x00#8 : Byte), ⟨by decide +kernel, by decide, by decide, by decide +kernel, by decide, by decide +kernel⟩, by decide +kernel⟩,
    ⟨(let s := up; let s := mkTakes false s; let s := updC (fun c => { c with pending := false }) { s with txn.cur := some (commitOf s 3 (List.replicate 14 0)) }; s), ({ n := 3, tag := 0x05#8, len := 0x00#8, params := [] } : Packet), ⟨by decide +kernel, by decide, by decide, by decide +kernel, by decide, by decide +kernel⟩, by decide +kernel⟩,
    ⟨(let s := up; let s := mkTakes false s; let s := { s with txn.cur := some (s.txn.cur.getD ((commitOf s 3 (List.replicate 14 0)))) }; let s := updC (fun c => { c with pending := true }) s; let s := updC (fun c => { c with scope := 0xFF0 }) s; s), ({ n := 5, tag := 0x02#8, len := 0x02#8, params := [0x01#8, 0x00#8] } : Packet), (let p : Packet := { n := 5, tag := 0x02#8, len := 0x02#8, params := [0x01#8, 0x00#8] }; (p.params.getD 0 0)), (let p : Packet := { n := 5, tag := 0x02#8, len := 0x02#8, params := [0x01#8, 0x00#8] }; (p.params.getD 1 0)), ((let s := (let s := up; let s := mkTakes false s; let s := { s with txn.cur := some (s.txn.cur.getD ((commitOf s 3 (List.replicate 14 0)))) }; let s := updC (fun c => { c with pending := true }) s; let s := updC (fun c => { c with scope := 0xFF0 }) s; s); (s.txn.cur).getD (commitOf State.reset 3 [])) : Commit), ⟨by decide +kernel, by decide, by decide, by decide +kernel, by decide, by decide +kernel⟩, by decide +kernel⟩,
    ⟨(let s := up; let s := mkTakes false s; let s := { s with txn.cur := some (s.txn.cur.getD ((commitOf s 3 (List.replicate 14 0)))) }; let s := updC (fun c => { c with pending := true }) s; let s := updC (fun c => { c with scope := 0xFFF }) s; s), ({ n := 5, tag := 0x02#8, len := 0x02#8, params := [0x01#8, 0x00#8] } : Packet), (let p : Packet := { n := 5, tag := 0x02#8, len := 0x02#8, params := [0x01#8, 0x00#8] }; (p.params.getD 0 0)), (let p : Packet := { n := 5, tag := 0x02#8, len := 0x02#8, params := [0x01#8, 0x00#8] }; (p.params.getD 1 0)), ((let s := (let s := up; let s := mkTakes false s; let s := { s with txn.cur := some (s.txn.cur.getD ((commitOf s 3 (List.replicate 14 0)))) }; let s := updC (fun c => { c with pending := true }) s; let s := updC (fun c => { c with scope := 0xFFF }) s; s); (s.txn.cur).getD (commitOf State.reset 3 [])) : Commit), ⟨by decide +kernel, by decide, by decide, by decide +kernel, by decide, by decide +kernel⟩, by decide +kernel⟩⟩

/-- `SafeInputs`. -/
theorem witness_SafeInputs :
    (∃ (s : State), Running s ∧ safeInEn s = true ∧ s.safe.areq = false) ∧
    (∃ (s : State), anvilOn s = true ∧ safeInEn s = true ∧ s.glob.st = .safe ∧ s.safe.areq = true ∧ s.safe.breq = false) ∧
    (∃ (s : State), anvilOn s = true ∧ safeInEn s = false) ∧
    (∃ (s : State), anvilOn s = true ∧ safeInEn s = true ∧ s.safe.areq = true ∧ s.safe.breq = true) ∧
    (∃ (s : State), anvilOn s = true ∧ safeInEn s = true ∧ s.safe.areq = true ∧ s.safe.breq = true ∧ autorel s = false) ∧
    (∃ (s : State), anvilOn s = true ∧ safeInEn s = true ∧ s.safe.areq = true ∧ autorel s = true ∧ s.glob.st = .safe ∧ s.safe.cause = 1 ∧ s.safe.disclatch = false ∧ s.safe.wdLatch = false) ∧
    (∃ (s : State), Running s ∧ safeInEn s = true ∧ s.safe.areq = true ∧ s.safe.breq = false) ∧
    (∃ (s : State), anvilOn s = true ∧ safeInEn s = true ∧ s.safe.areq ≠ s.safe.breq ∧ s.glob.st ≠ .safe) ∧
    (∃ (s : State), anvilOn s = true ∧ safeInEn s = true ∧ s.safe.areq ≠ s.safe.breq ∧ s.glob.st = .safe) ∧
    (∃ (s : State), (safeInEn s = false ∨ s.safe.areq = s.safe.breq)) ∧
    (∃ (s : State) (r : Rail), s.glob.st = .safe ∧ has s.safe.held r.val = true ∧ dependants (lv s) r.val &&& s.rl.up ≠ 0) ∧
    (∃ (s : State) (r : Rail), s.glob.st = .safe ∧ s.safe.exit = false ∧ has s.safe.held r.val = true ∧ has s.rl.en r.val = true ∧ dependants (lv s) r.val &&& s.rl.up = 0) :=
    ⟨⟨(let s := up; let s := { mkAnvil s with glob.st := .run, glob.boot := false }; let s := setPlainBits (key 0x24 0) 0 1 1 s; let s := { s with safe.areq := false }; let s := { mkAnvil s with glob.st := .run, glob.boot := false, safe.areq := false }; s), ⟨by decide +kernel, by decide +kernel, by decide +kernel⟩, by decide +kernel⟩,
    ⟨(let s := up; let s := mkAnvil s; let s := setPlainBits (key 0x24 0) 0 1 1 s; let s := { s with glob.st := .safe }; let s := { s with safe.areq := true }; let s := { s with safe.breq := false }; s), by decide +kernel⟩,
    ⟨(let s := up; let s := mkAnvil s; let s := setPlainBits (key 0x24 0) 0 1 0 s; s), by decide +kernel⟩,
    ⟨(let s := up; let s := mkAnvil s; let s := setPlainBits (key 0x24 0) 0 1 1 s; let s := { s with safe.areq := true }; let s := { s with safe.breq := true }; s), by decide +kernel⟩,
    ⟨(let s := up; let s := mkAnvil s; let s := setPlainBits (key 0x24 0) 0 1 1 s; let s := { s with safe.areq := true }; let s := { s with safe.breq := true }; let s := setPlainBits (key 0x24 0) 1 1 0 s; s), by decide +kernel⟩,
    ⟨(let s := up; let s := mkAnvil s; let s := setPlainBits (key 0x24 0) 0 1 1 s; let s := { s with safe.areq := true }; let s := setPlainBits (key 0x24 0) 1 1 1 s; let s := { s with glob.st := .safe }; let s := { s with safe.cause := 1 }; let s := { s with safe.disclatch := false }; let s := { s with safe.wdLatch := false }; s), by decide +kernel⟩,
    ⟨(let s := up; let s := { mkAnvil s with glob.st := .run, glob.boot := false }; let s := setPlainBits (key 0x24 0) 0 1 1 s; let s := { s with safe.areq := true }; let s := { s with safe.breq := false }; s), ⟨by decide +kernel, by decide +kernel, by decide +kernel⟩, by decide +kernel⟩,
    ⟨(let s := up; let s := mkAnvil s; let s := setPlainBits (key 0x24 0) 0 1 1 s; let s := { s with safe.breq := !s.safe.areq, glob.st := [St.start, .run, .stop, .standby].getD (s.cyc.cnt.toNat % 4) .run }; s), by decide +kernel⟩,
    ⟨(let s := up; let s := mkAnvil s; let s := setPlainBits (key 0x24 0) 0 1 1 s; let s := { s with glob.st := .safe }; let s := { s with safe.breq := !s.safe.areq }; s), by decide +kernel⟩,
    ⟨up, by decide +kernel⟩,
    ⟨(let r : Rail := 0; let s := up; let s := { s with glob.st := .safe }; let s := { s with safe.held := setBit s.safe.held r.val true }; let s := putLive (key 0x21 ((r.val + 1) % 32)) [BitVec.ofNat 8 (128 + r.val)] { s with rl.up := BitVec.allOnes 32 }; s), (0 : Rail), by decide +kernel⟩,
    ⟨(let r : Rail := 0; let s := up; let s := { s with glob.st := .safe }; let s := { s with safe.exit := false }; let s := { s with safe.held := setBit s.safe.held r.val true }; let s := { s with rl.en := setBit s.rl.en r.val true }; let s := { s with rl.up := 0 }; s), (0 : Rail), by decide +kernel⟩⟩

/-- `SafeClearCodes`. -/
theorem witness_SafeClearCodes :
    (∃ (s : State) (p : Packet) (v : Byte), Takes false p s ∧ p.params = [v] ∧ (s.glob.st ≠ .safe ∨ 4 ≤ v.toNat)) ∧
    (∃ (s : State) (p : Packet) (v : Byte), Takes false p s ∧ p.params = [v] ∧ s.glob.st = .safe ∧ v.toNat < 4 ∧ s.safe.cause &&& 0x38 ≠ 0) ∧
    (∃ (s : State) (p : Packet) (v : Byte), Takes false p s ∧ p.params = [v] ∧ s.glob.st = .safe ∧ v.toNat < 4 ∧ s.safe.cause &&& 0x38 = 0 ∧ s.safe.areq = true) ∧
    (∃ (s : State) (p : Packet) (v : Byte), Takes false p s ∧ p.params = [v] ∧ s.glob.st = .safe ∧ v.toNat < 4 ∧ s.safe.cause &&& 0x38 = 0 ∧ s.safe.areq = false ∧ s.safe.breq = false ∧ s.safe.disclatch = true ∧ v.getLsbD 0 = false) ∧
    (∃ (s : State) (p : Packet) (v : Byte), Takes false p s ∧ p.params = [v] ∧ s.glob.st = .safe ∧ v.toNat < 4 ∧ s.safe.cause &&& 0x38 = 0 ∧ s.safe.areq = false ∧ s.safe.breq = false ∧ (s.safe.disclatch = false ∨ v.getLsbD 0 = true) ∧ s.safe.wdLatch = true ∧ v.getLsbD 1 = false) ∧
    (∃ (s : State) (p : Packet) (v : Byte), Takes false p s ∧ p.params = [v] ∧ s.glob.st = .safe ∧ v.toNat < 4 ∧ s.safe.cause &&& 0x38 = 0 ∧ s.safe.areq = false ∧ s.safe.breq = false ∧ (s.safe.disclatch = false ∨ v.getLsbD 0 = true) ∧ (s.safe.wdLatch = false ∨ v.getLsbD 1 = true)) :=
    ⟨⟨(let s := up; let s := mkTakes false s; let s := { s with glob.st := .safe }; s), (⟨4, 2, 1, [4]⟩ : Packet), (4 : Byte), ⟨by decide +kernel, by decide, by decide, by decide +kernel, by decide, by decide +kernel⟩, by decide +kernel⟩,
    ⟨(let s := up; let s := mkTakes false s; let s := { s with glob.st := .safe }; let s := { mkTakes false s with glob.st := .safe, safe.cause := 8 }; s), (⟨4, 2, 1, [3]⟩ : Packet), (3 : Byte), ⟨by decide +kernel, by decide, by decide, by decide +kernel, by decide, by decide +kernel⟩, by decide +kernel⟩,
    ⟨(let s := up; let s := mkTakes false s; let s := { s with glob.st := .safe }; let s := { s with safe.areq := true }; let s := { mkTakes false s with glob.st := .safe, safe.cause := 1, safe.areq := true }; s), (⟨4, 2, 1, [3]⟩ : Packet), (3 : Byte), ⟨by decide +kernel, by decide, by decide, by decide +kernel, by decide, by decide +kernel⟩, by decide +kernel⟩,
    ⟨(let s := up; let s := mkTakes false s; let s := { s with glob.st := .safe }; let s := { s with safe.areq := false }; let s := { s with safe.breq := false }; let s := { s with safe.disclatch := true }; let s := { mkTakes false s with glob.st := .safe, safe.cause := 1, safe.areq := false, safe.breq := false, safe.disclatch := true }; s), ({ n := 4, tag := 0x09#8, len := 0x01#8, params := [0x00#8] } : Packet), (0x00#8 : Byte), ⟨by decide +kernel, by decide, by decide, by decide +kernel, by decide, by decide +kernel⟩, by decide +kernel⟩,
    ⟨(let s := up; let s := mkTakes false s; let s := { s with glob.st := .safe }; let s := { s with safe.areq := false }; let s := { s with safe.breq := false }; let s := { s with safe.wdLatch := true }; let s := { mkTakes false s with glob.st := .safe, safe.cause := 1, safe.areq := false, safe.disclatch := false }; s), ({ n := 4, tag := 0x02#8, len := 0x01#8, params := [0x01#8] } : Packet), (0x01#8 : Byte), ⟨by decide +kernel, by decide, by decide, by decide +kernel, by decide, by decide +kernel⟩, by decide +kernel⟩,
    ⟨(let s := up; let s := mkTakes false s; let s := { s with glob.st := .safe }; let s := { s with safe.areq := false }; let s := { s with safe.breq := false }; s), ({ n := 4, tag := 0x02#8, len := 0x01#8, params := [0x01#8] } : Packet), (0x01#8 : Byte), ⟨by decide +kernel, by decide, by decide, by decide +kernel, by decide, by decide +kernel⟩, by decide +kernel⟩⟩

/-- `HostWatchdog`. -/
theorem witness_HostWatchdog :
    (∃ (s : State), Served s ∧ pecOn s = false ∧ s.safe.wdState = 1) ∧
    (∃ (s : State), Served s ∧ pecOn s = false ∧ s.safe.wdState = 2 ∧ s.safe.wdOpen ≤ s.clk.now) ∧
    (∃ (s : State), Served s ∧ pecOn s = false ∧ s.safe.wdState = 0) ∧
    (∃ (s : State) (w : Word), Served s ∧ Running s ∧ pecOn s = false ∧ s.safe.wdState ≠ 0 ∧ w ≠ (if s.safe.wdNext then 0xA55A else 0x5AA5)) ∧
    (∃ (s : State), Served s ∧ Running s ∧ pecOn s = false ∧ s.safe.wdState = 2 ∧ s.clk.now < s.safe.wdOpen) ∧
    (∃ (s : State), Running s ∧ s.safe.wdState ≠ 0) :=
    ⟨⟨(let s := up; let s := mkServed s; let s := setPlainBits (key 0x4C 0) 0 1 0 s; let s := { s with safe.wdState := 1 }; s), ⟨by decide +kernel, by decide +kernel⟩, by decide +kernel⟩,
    ⟨(let s := up; let s := mkServed s; let s := setPlainBits (key 0x4C 0) 0 1 0 s; let s := { s with safe.wdState := 2 }; let s := { s with safe.wdOpen := s.clk.now }; s), ⟨by decide +kernel, by decide +kernel⟩, by decide +kernel⟩,
    ⟨(let s := up; let s := mkServed s; let s := setPlainBits (key 0x4C 0) 0 1 0 s; let s := { s with safe.wdState := 0 }; s), ⟨by decide +kernel, by decide +kernel⟩, by decide +kernel⟩,
    ⟨(let s := up; let s := mkServed s; let s := setPlainBits (key 0x4C 0) 0 1 0 s; let s := { mkAnvil s with glob.st := .run, glob.boot := false }; let s := { s with safe.wdState := 1 + s.safe.wdState % 2 }; s), (0x749d#16 : Word), ⟨by decide +kernel, by decide +kernel⟩, ⟨by decide +kernel, by decide +kernel, by decide +kernel⟩, by decide +kernel⟩,
    ⟨(let s := up; let s := mkServed s; let s := setPlainBits (key 0x4C 0) 0 1 0 s; let s := { mkAnvil s with glob.st := .run, glob.boot := false }; let s := { s with safe.wdState := 2 }; let s := { mkServed s with safe.wdOpen := s.clk.now + 1, glob.st := .run, glob.boot := false }; s), ⟨by decide +kernel, by decide +kernel⟩, ⟨by decide +kernel, by decide +kernel, by decide +kernel⟩, by decide +kernel⟩,
    ⟨(let s := up; let s := { mkAnvil s with glob.st := .run, glob.boot := false }; let s := { s with safe.wdState := 1 + s.safe.wdState % 2 }; s), ⟨by decide +kernel, by decide +kernel, by decide +kernel⟩, by decide +kernel⟩⟩

/-- `IslandFaults`. -/
theorem witness_IslandFaults :
    (∃ (s : State) (c : Instr) (b : Nat) (e : Nat), coresRun s = true ∧ s.glob.boot = false ∧ s.safe.ls < 2 ∧ ((c = .lsfail ∧ b = 5 ∧ e = 928) ∨ (c = .lockup ∧ b = 6 ∧ e = 929) ∨ (c = .eccded ∧ b = 6 ∧ e = 929))) ∧
    (∃ (s : State), fwOn s = true) ∧
    (∃ (s : State), coresRun s = true) ∧
    (∃ (s : State), Running s ∧ coresRun s = true ∧ 2 ≤ s.safe.ls) ∧
    (∃ (s : State), coresRun s = true) ∧
    (∃ (s : State), anvilOn s = true ∧ s.glob.restarting = true ∧ s.glob.floor = false ∧ restartBoots s = true ∧ s.upd.fell = false) ∧
    (∃ (s : State), anvilOn s = true ∧ s.glob.restarting = true ∧ s.glob.floor = false ∧ restartBoots s = true ∧ s.upd.fell = true ∧ readOnly 206 s = false) ∧
    (∃ (s : State), s.glob.restarting = true ∧ restartBoots s = false) ∧
    (∃ (s : State), (s.clk.timers.filter (fun t => decide (t.ev = .lockstepExpire))).length < s.safe.ls) ∧
    (∃ (s : State) (c : Instr) (b : Nat) (e : Nat), coresRun s = true ∧ s.glob.boot = true ∧ s.safe.ls < 2 ∧ ((c = .lsfail ∧ b = 5 ∧ e = 928) ∨ (c = .lockup ∧ b = 6 ∧ e = 929) ∨ (c = .eccded ∧ b = 6 ∧ e = 929))) ∧
    (∃ (s : State) (c : Instr), coresRun s = false ∧ (c = .lsfail ∨ c = .lockup ∨ c = .eccded ∨ c = .eccsec)) :=
    ⟨⟨(let s := up; let s := mkServed s; let s := { s with glob.boot := false }; let s := { mkServed s with safe.ls := s.safe.ls % 2 }; let s := { s with safe.ls := 1 }; s), (.lsfail : Instr), (5 : Nat), (928 : Nat), by decide +kernel⟩,
    ⟨(let s := up; let s := mkServed s; s), by decide +kernel⟩,
    ⟨(let s := up; let s := mkServed s; s), by decide +kernel⟩,
    ⟨(let s := up; let s := { mkAnvil s with glob.st := .run, glob.boot := false }; let s := mkServed s; let s := { mkServed s with safe.ls := 2, glob.st := .run, glob.boot := false }; s), ⟨by decide +kernel, by decide +kernel, by decide +kernel⟩, by decide +kernel⟩,
    ⟨(let s := up; let s := mkServed s; s), by decide +kernel⟩,
    ⟨(let s := up; let s := mkAnvil s; let s := { s with glob.restarting := true }; let s := { s with glob.floor := false }; let s := { s with upd.verA := true, upd.verB := true }; let s := { s with upd.fell := false }; let s := { s with glob.restarting := true }; s), by decide +kernel⟩,
    ⟨(let s := up; let s := mkAnvil s; let s := { s with glob.restarting := true }; let s := { s with glob.floor := false }; let s := { s with upd.verA := true, upd.verB := true }; let s := { s with upd.fell := true }; let s := { s with fl.ro := 0 }; let s := { s with glob.restarting := true }; s), by decide +kernel⟩,
    ⟨(let s := up; let s := { s with glob.restarting := true }; let s := { s with upd.verA := false, upd.verB := false }; s), by decide +kernel⟩,
    ⟨(let s := up; let s := { s with safe.ls := 3, clk.timers := s.clk.timers.filter (fun t => t.ev ≠ .lockstepExpire) }; s), by decide +kernel⟩,
    ⟨(let s := up; let s := mkServed s; let s := { s with glob.boot := true }; let s := { s with safe.ls := 1 }; s), (.lsfail : Instr), (5 : Nat), (928 : Nat), by decide +kernel⟩,
    ⟨(let s := up; let s := { up with glob.fwup := false }; s), (.lsfail : Instr), by decide +kernel⟩⟩

/-- `Touchstone`. -/
theorem witness_Touchstone :
    (∃ (s : State), anvilOn s = true ∧ s.tst.refFail = 0) ∧
    (∃ (s : State), anvilOn s = true ∧ s.tst.refFail = 0) ∧
    (∃ (s : State), anvilOn s = true ∧ s.tst.refFail = 0) ∧
    (∃ (s : State), Running s ∧ s.tst.refFail = 1) ∧
    (∃ (s : State), anvilOn s = true ∧ s.tst.oscFail = 0 ∧ s.tst.oscB = false) ∧
    (∃ (s : State), anvilOn s = true ∧ s.tst.oscFail = 0 ∧ s.tst.oscB = false) ∧
    (∃ (s : State), Running s ∧ s.tst.oscFail = 1) ∧
    (∃ (s : State), anvilOn s = true ∧ s.tst.oscFail = 1) ∧
    (∃ (s : State) (a : Int) (b : Int), anvilOn s = true ∧ s.tst.xtal = true ∧ a.natAbs ≤ 40 ∧ b.natAbs ≤ 40) ∧
    (∃ (s : State) (a : Int) (b : Int), anvilOn s = true ∧ s.tst.xtal = true ∧ s.tst.oscFail = 0 ∧ s.tst.oscB = false ∧ 40 < a.natAbs ∧ b.natAbs ≤ 40) :=
    ⟨⟨(let s := up; let s := mkAnvil s; let s := { s with tst.refFail := 0 }; s), by decide +kernel⟩,
    ⟨(let s := up; let s := mkAnvil s; let s := { s with tst.refFail := 0 }; s), by decide +kernel⟩,
    ⟨(let s := up; let s := mkAnvil s; let s := { s with tst.refFail := 0 }; s), by decide +kernel⟩,
    ⟨(let s := up; let s := { mkAnvil s with glob.st := .run, glob.boot := false }; let s := { s with tst.refFail := 1 }; s), ⟨by decide +kernel, by decide +kernel, by decide +kernel⟩, by decide +kernel⟩,
    ⟨(let s := up; let s := mkAnvil s; let s := { s with tst.oscFail := 0 }; let s := { s with tst.oscB := false }; s), by decide +kernel⟩,
    ⟨(let s := up; let s := mkAnvil s; let s := { s with tst.oscFail := 0 }; let s := { s with tst.oscB := false }; s), by decide +kernel⟩,
    ⟨(let s := up; let s := { mkAnvil s with glob.st := .run, glob.boot := false }; let s := { s with tst.oscFail := 1 }; s), ⟨by decide +kernel, by decide +kernel, by decide +kernel⟩, by decide +kernel⟩,
    ⟨(let s := up; let s := mkAnvil s; let s := { s with tst.oscFail := 1 }; s), by decide +kernel⟩,
    ⟨(let s := up; let s := mkAnvil s; let s := { s with tst.xtal := true }; s), (40 : Int), (-40 : Int), by decide +kernel⟩,
    ⟨(let s := up; let s := mkAnvil s; let s := { s with tst.xtal := true }; let s := { s with tst.oscFail := 0 }; let s := { s with tst.oscB := false }; s), (41 : Int), (40 : Int), by decide +kernel⟩⟩

/-- `AssayAndPatina`. -/
theorem witness_AssayAndPatina :
    (∃ (s : State) (p : Packet), Takes false p s ∧ p.params = [] ∧ (s.glob.st = .run ∨ s.glob.st = .safe)) ∧
    (∃ (s : State) (p : Packet), Takes false p s ∧ p.params = [] ∧ s.glob.st ≠ .run ∧ s.glob.st ≠ .safe) ∧
    (∃ (s : State) (r : AssayRes), fwOn s = true ∧ s.tst.full = 1 ∧ r.cmpLost = 0 ∧ r.fuses &&& s.otp.pend = 0) ∧
    (∃ (s : State) (i : Nat), fwOn s = true ∧ i < 28 ∧ roleOf s i = 0 ∧ worn s i = true ∧ hasFresh s i = true ∧ s.pat.told.getLsbD i = false) ∧
    (∃ (s : State) (p : Packet) (b : Byte), Takes false p s ∧ p.params = [b] ∧ b.toNat < 28 ∧ hasFresh s b.toNat = true ∧ roleOf s b.toNat = 0) ∧
    (∃ (s : State) (p : Packet) (b : Byte), Takes false p s ∧ p.params = [b] ∧ (28 ≤ b.toNat ∨ hasFresh s b.toNat = false ∨ roleOf s b.toNat ≠ 0)) ∧
    (∃ (s : State) (p : Packet), Takes false p s ∧ p.params = []) ∧
    (∃ (s : State) (l : List Nat), fwRuns s = true ∧ s.pat.pend = 23 :: l ∧ (∀ x ∈ l, x ≠ 23) ∧ roleOf s 23 = 0 ∧ hasFresh s 23 = true) ∧
    (∃ (s : State) (c : Chan) (l : List Nat) (i : Nat), fwRuns s = true ∧ s.pat.pend = i :: l ∧ i = 15 + 2 * c.val + (ldoOf s c.val).pass1.toNat ∧ has s.rl.overlap (13 + c.val) = false ∧ has s.rl.clamp (13 + c.val) = false ∧ (ldoOf s c.val).drop = false ∧ roleOf s i = 0 ∧ hasFresh s i = true) ∧
    (∃ (s : State) (c : Chan), anvilOn s = true ∧ has s.rl.overlap (13 + c.val) = true) ∧
    (∃ (s : State) (p : Packet) (b : Byte) (v : List Byte), Takes false p s ∧ p.params = [b] ∧ b.toNat ≤ 1 ∧ snapRecord s (decide (b = 1)) = some v) ∧
    (∃ (s : State) (p : Packet) (b : Byte), Takes false p s ∧ p.params = [b] ∧ b.toNat ≤ 1 ∧ snapRecord s (decide (b = 1)) = none) ∧
    (∃ (s : State) (r : PhRail) (p : Phase) (l : List Nat) (i : _), fwRuns s = true ∧ i = phaseRes r.val p.val ∧ s.pat.pend = i :: l ∧ has s.rl.overlap r.val = false ∧ swapBlocked s i = false ∧ roleOf s i = 0 ∧ hasFresh s i = true) ∧
    (∃ (s : State) (r : PhRail), anvilOn s = true ∧ has s.rl.overlap r.val = true ∧ (phOf s r.val).out < 3) ∧
    (∃ (s : State) (i : Nat) (l : List Nat), s.pat.pend = i :: l ∧ swapBlocked s i = true) ∧
    (∃ (s : State), fwRuns s = false) :=
    ⟨⟨(let s := up; let s := mkTakes false s; let s := { mkTakes false s with glob.st := if s.cyc.cnt.getLsbD 3 then .run else .safe }; s), ({ n := 3, tag := 0x05#8, len := 0x00#8, params := [] } : Packet), ⟨by decide +kernel, by decide, by decide, by decide +kernel, by decide, by decide +kernel⟩, by decide +kernel⟩,
    ⟨(let s := up; let s := mkTakes false s; let s := { s with glob.st := .standby }; s), ({ n := 3, tag := 0x05#8, len := 0x00#8, params := [] } : Packet), ⟨by decide +kernel, by decide, by decide, by decide +kernel, by decide, by decide +kernel⟩, by decide +kernel⟩,
    ⟨(let s := up; let s := mkServed s; let s := { s with tst.full := 1 }; let s := mkServed s; s), ({ fail := 0x0f#5, fuses := 0x00008000#32, cmpFail := 0xffffffff#32, cmpLost := 0x00000000#32, sectors := [415, 347, 251] } : AssayRes), by decide +kernel⟩,
    ⟨(let i : Nat := 23; let s := up; let s := mkServed s; let s := { s with pat.told := setBit s.pat.told i false }; let s := putPlain (key 0x32 0x10) [0, 0] { mkServed s with pat.pend := [], tst.refFail := 0, tst.cmpOnC := false }; s), (23 : Nat), by decide +kernel⟩,
    ⟨(let s := up; let s := mkTakes false s; let s := setLiveBits (blk 15) 0 8 255 { mkTakes false s with tst.refFail := 0, tst.cmpOnC := false, tst.adcOnC := false }; s), (⟨4, 9, 1, [23]⟩ : Packet), (23 : Byte), ⟨by decide +kernel, by decide, by decide, by decide +kernel, by decide, by decide +kernel⟩, by decide +kernel⟩,
    ⟨(let s := up; let s := mkTakes false s; s), (⟨4, 2, 1, [28]⟩ : Packet), (28 : Byte), ⟨by decide +kernel, by decide, by decide, by decide +kernel, by decide, by decide +kernel⟩, by decide +kernel⟩,
    ⟨(let s := up; let s := mkTakes false s; s), ({ n := 3, tag := 0x05#8, len := 0x00#8, params := [] } : Packet), ⟨by decide +kernel, by decide, by decide, by decide +kernel, by decide, by decide +kernel⟩, by decide +kernel⟩,
    ⟨(let l : List Nat := []; let s := up; let s := mkRuns s; let s := { s with pat.pend := 23 :: l }; let s := { s with tst.refFail := 0, tst.cmpOnC := false, pat.pend := 23 :: (s.pat.pend.filter (· ≠ 23)) }; s), ([] : List Nat), by decide +kernel⟩,
    ⟨(let c : Chan := 0; let l : List Nat := []; let i : Nat := 15; let s := up; let s := mkRuns s; let s := { s with pat.pend := i :: l }; let s := { s with rl.overlap := setBit s.rl.overlap (13 + c.val) false }; let s := { s with rl.clamp := setBit s.rl.clamp (13 + c.val) false }; let s := setLdo c.val { (ldoOf s c.val) with drop := false } s; s), (0 : Chan), ([] : List Nat), (15 : Nat), by decide +kernel⟩,
    ⟨(let c : Chan := 0; let s := up; let s := mkAnvil s; let s := { s with rl.overlap := setBit s.rl.overlap (13 + c.val) true }; s), (0 : Chan), by decide +kernel⟩,
    ⟨(let s := up; let s := mkTakes false { s with safe.bank0 := some ⟨1, [7]⟩, safe.bank1 := some ⟨1, [7]⟩ }; s), (⟨4, 9, 1, [0]⟩ : Packet), (0 : Byte), ([7] : List Byte), ⟨by decide +kernel, by decide, by decide, by decide +kernel, by decide, by decide +kernel⟩, by decide +kernel⟩,
    ⟨(let s := up; let s := mkTakes false s; s), ({ n := 4, tag := 0x02#8, len := 0x01#8, params := [0x01#8] } : Packet), (0x01#8 : Byte), ⟨by decide +kernel, by decide, by decide, by decide +kernel, by decide, by decide +kernel⟩, by decide +kernel⟩,
    ⟨(let r : PhRail := 0; let p : Phase := 0; let l : List Nat := []; let s := up; let s := mkRuns s; let s := { s with pat.pend := (phaseRes r.val p.val) :: l }; let s := { s with rl.overlap := setBit s.rl.overlap r.val false }; let s := { s with rl.clamp := 0, rl.clim := 0, inp.plim := false, bk.strk := 0, bk.brk := 0 }; let s := setLiveBits (blk r.val + 2) 2 1 1 { setPh r.val { (phOf s r.val) with spare := 1 <<< ((p.val + 1) % 3), fail := 0, retired := 0 } s with glob.floor := false }; s), (0 : PhRail), (0 : Phase), ([] : List Nat), (let r : PhRail := 0; let p : Phase := 0; (phaseRes r.val p.val)), by decide +kernel⟩,
    ⟨(let r : PhRail := 0; let s := up; let s := mkAnvil s; let s := { s with rl.overlap := setBit s.rl.overlap r.val true }; let s := setPh r.val { (phOf s r.val) with out := (phOf s r.val).out % 3 } s; s), (0 : PhRail), by decide +kernel⟩,
    ⟨(let s := up; let s := { up with pat.pend := [1], rl.clamp := 0x1FFFFFF }; s), (1 : Nat), ([] : List Nat), by decide +kernel⟩,
    ⟨(let s := up; let s := { up with glob.st := .standby }; s), by decide +kernel⟩⟩

/-- `Housekeeping`. -/
theorem witness_Housekeeping :
    (∃ (s : State) (d : RoundData) (m : Nat) (v : Int), roundsRun s = true ∧ s.hk.due ≤ s.clk.now ∧ displaced s = true ∧ m < 44 ∧ s.hk.hkaInv = false ∧ rawOf d.hka m = some v) ∧
    (∃ (s : State) (d : RoundData) (m : Nat), roundsRun s = true ∧ s.hk.due ≤ s.clk.now ∧ displaced s = true ∧ m < 44 ∧ s.hk.hkaInv = false ∧ rawOf d.hka m = none) ∧
    (∃ (s : State) (m : Nat), roundsRun s = true ∧ s.hk.due ≤ s.clk.now ∧ displaced s = true ∧ m < 44 ∧ s.hk.hkaInv = true) ∧
    (∃ (s : State), s.clk.now < s.hk.due ∧ roundsRun s = true) ∧
    (∃ (s : State), anvilOn s = true ∧ (fwOn s = false ∨ s.glob.st = .standby)) ∧
    (∃ (s : State), (s.glob.st = .sleep ∨ s.glob.st = .ship)) ∧
    (∃ (s : State) (r : Rail), fwOn s = true ∧ has s.thm.grace r.val = true ∧ thrten s r.val = true ∧ belowTw s r.val = false) ∧
    (∃ (s : State) (r : Rail), fwOn s = true ∧ has s.thm.grace r.val = true ∧ belowTw s r.val = true) ∧
    (∃ (s : State) (n : Fin 32), fwRuns s = true ∧ seqDefined s n.val = true ∧ seqOnB s n.val = false) ∧
    (∃ (s : State) (n : Fin 32), (fwRuns s = false ∨ seqDefined s n.val = false)) ∧
    (∃ (s : State) (x : SeqRun) (l : List SeqRun), fwOn s = true ∧ s.hk.runB = x :: l) ∧
    (∃ (s : State), Served s ∧ s.hk.reqBusy = false) ∧
    (∃ (s : State), Served s ∧ s.hk.reqBusy = true) ∧
    (∃ (s : State), fwOn s = true ∧ s.hk.reqBusy = true) ∧
    (∃ (s : State), Served s) ∧
    (∃ (s : State), Served s ∧ (∀ i, i < rdBits (pl s) (key 0x38 0x11) 1 3 + 1 → (pl s (key 0x38 (0x12 + i))).toNat ≤ 103)) ∧
    (∃ (s : State), Served s ∧ (∃ i, i < rdBits (pl s) (key 0x38 0x11) 1 3 + 1 ∧ 103 < (pl s (key 0x38 (0x12 + i))).toNat)) ∧
    (∃ (s : State), Served s) ∧
    (∃ (s : State) (v : Byte), Served s ∧ v.toNat ≤ 103) ∧
    (∃ (s : State) (v : Byte), Served s ∧ 128 ≤ v.toNat ∧ v.toNat ≤ 231) ∧
    (∃ (s : State), Served s) :=
    ⟨⟨(let s := up; let s := { mkServed s with glob.boot := false, glob.st := [St.start, .run, .stop, .safe].getD (s.cyc.cnt.toNat % 4) .run }; let s := { s with hk.due := s.clk.now }; let s := { s with hk.claim := 2, hk.runA := [⟨3, [], {}⟩] }; let s := { s with hk.hkaInv := false }; s), ({ hka := [{ meas := 0, val := 0 }, { meas := 33, val := -44 }, { meas := 19, val := 224366 }, { meas := 91, val := -2 }], hkb := [{ meas := 6, val := -26 }], assay := { fail := 0x00#5, fuses := 0xb865523e#32, cmpFail := 0xbaab7a9b#32, cmpLost := 0x00000006#32, sectors := [150] }, dq := 140354, iMean := -22, iMin := -16, iMax := 14, iSec := 12, iAvgMin := -7, sense := 1, devAC := 25, devBC := 96682, devAB := -9 } : RoundData), ((let d : RoundData := { hka := [{ meas := 0, val := 0 }, { meas := 33, val := -44 }, { meas := 19, val := 224366 }, { meas := 91, val := -2 }], hkb := [{ meas := 6, val := -26 }], assay := { fail := 0x00#5, fuses := 0xb865523e#32, cmpFail := 0xbaab7a9b#32, cmpLost := 0x00000006#32, sectors := [150] }, dq := 140354, iMean := -22, iMin := -16, iMax := 14, iSec := 12, iAvgMin := -7, sense := 1, devAC := 25, devBC := 96682, devAB := -9 }; (((d.hka.find? (fun c => decide (c.meas.val < 44))).map (·.meas.val)).getD 0)) : Nat), ((let d : RoundData := { hka := [{ meas := 0, val := 0 }, { meas := 33, val := -44 }, { meas := 19, val := 224366 }, { meas := 91, val := -2 }], hkb := [{ meas := 6, val := -26 }], assay := { fail := 0x00#5, fuses := 0xb865523e#32, cmpFail := 0xbaab7a9b#32, cmpLost := 0x00000006#32, sectors := [150] }, dq := 140354, iMean := -22, iMin := -16, iMax := 14, iSec := 12, iAvgMin := -7, sense := 1, devAC := 25, devBC := 96682, devAB := -9 }; ((rawOf d.hka (((d.hka.find? (fun c => decide (c.meas.val < 44))).map (·.meas.val)).getD 0)).getD 0)) : Int), by decide +kernel⟩,
    ⟨(let s := up; let s := { mkServed s with glob.boot := false, glob.st := [St.start, .run, .stop, .safe].getD (s.cyc.cnt.toNat % 4) .run }; let s := { s with hk.due := s.clk.now }; let s := { s with hk.claim := 2, hk.runA := [⟨3, [], {}⟩] }; let s := { s with hk.hkaInv := false }; s), ({ hka := [{ meas := 0, val := 0 }, { meas := 33, val := -44 }, { meas := 19, val := 224366 }, { meas := 91, val := -2 }], hkb := [{ meas := 6, val := -26 }], assay := { fail := 0x00#5, fuses := 0xb865523e#32, cmpFail := 0xbaab7a9b#32, cmpLost := 0x00000006#32, sectors := [150] }, dq := 140354, iMean := -22, iMin := -16, iMax := 14, iSec := 12, iAvgMin := -7, sense := 1, devAC := 25, devBC := 96682, devAB := -9 } : RoundData), (43 : Nat), by decide +kernel⟩,
    ⟨(let s := up; let s := { mkServed s with glob.boot := false, glob.st := [St.start, .run, .stop, .safe].getD (s.cyc.cnt.toNat % 4) .run }; let s := { s with hk.due := s.clk.now }; let s := { s with hk.claim := 2, hk.runA := [⟨3, [], {}⟩] }; let s := { s with hk.hkaInv := true }; s), (43 : Nat), by decide +kernel⟩,
    ⟨(let s := up; let s := { s with hk.due := s.clk.now + 7 }; let s := { mkServed s with glob.boot := false, glob.st := [St.start, .run, .stop, .safe].getD (s.cyc.cnt.toNat % 4) .run }; let s := { s with hk.due := s.clk.now + 1 }; s), by decide +kernel⟩,
    ⟨(let s := up; let s := mkAnvil s; let s := { s with glob.st := .standby }; s), by decide +kernel⟩,
    ⟨(let s := up; let s := { s with glob.st := .sleep }; s), by decide +kernel⟩,
    ⟨(let r : Rail := 0; let s := up; let s := mkServed s; let s := { s with thm.grace := setBit s.thm.grace r.val true }; let s := let s := setLiveBits (key 0x3C 0) 0 8 0 (setLiveBits (blk r.val + 0x12) 0 8 0 s); (putLive (key 0x3C 0x10) [255,255,255,255]) { s with hk.mval := [] }; s), (0 : Rail), by decide +kernel⟩,
    ⟨(let r : Rail := 0; let s := up; let s := mkServed s; let s := { s with thm.grace := setBit s.thm.grace r.val true }; s), (0 : Rail), by decide +kernel⟩,
    ⟨(let n : Fin 32 := 0; let s := up; let s := mkRuns s; let s := setPlainBits (seqKey n.val 0x11) 0 1 0 (setPlainBits (seqKey n.val 0x11) 6 1 1 s); s), (0 : Fin 32), by decide +kernel⟩,
    ⟨up, (0 : Fin 32), by decide +kernel⟩,
    ⟨(let x : SeqRun := { seq := 3, bytes := [0x00#8, 0xb9#8, 0x34#8], res := { done := true, unlocked := false, late := true, invalid := false, qchk := false, qbad := false, cyc := 0x0000#16, ang := 0x3e#8, fine := 11, run := 0x03#8, vals := [0x0000#16], lost := false } }; let l : List SeqRun := []; let s := up; let s := mkServed s; let s := { s with hk.runB := x :: l }; s), ({ seq := 3, bytes := [0x00#8, 0xb9#8, 0x34#8], res := { done := true, unlocked := false, late := true, invalid := false, qchk := false, qbad := false, cyc := 0x0000#16, ang := 0x3e#8, fine := 11, run := 0x03#8, vals := [0x0000#16], lost := false } } : SeqRun), ([] : List SeqRun), by decide +kernel⟩,
    ⟨(let s := up; let s := mkServed s; let s := { s with hk.reqBusy := false }; s), ⟨by decide +kernel, by decide +kernel⟩, by decide +kernel⟩,
    ⟨(let s := up; let s := mkServed s; let s := { s with hk.reqBusy := true }; s), ⟨by decide +kernel, by decide +kernel⟩, by decide +kernel⟩,
    ⟨(let s := up; let s := mkServed s; let s := { s with hk.reqBusy := true }; s), by decide +kernel⟩,
    ⟨(let s := up; let s := mkServed s; s), ⟨by decide +kernel, by decide +kernel⟩⟩,
    ⟨(let s := up; let s := mkServed s; let s := putPlain (key 0x38 0x12) [1,2,3,4,5,6,7,8] s; let s := putPlain (key 0x38 0x12) [103, 103, 103, 103, 103, 103, 103, 103] s; s), ⟨by decide +kernel, by decide +kernel⟩, by decide +kernel⟩,
    ⟨(let s := up; let s := mkServed s; let s := putPlain (key 0x38 0x12) [200,2,3,4,5,6,7,8] s; let s := putPlain (key 0x38 0x12) [104] s; s), ⟨by decide +kernel, by decide +kernel⟩, by decide +kernel⟩,
    ⟨(let s := up; let s := mkServed s; s), ⟨by decide +kernel, by decide +kernel⟩⟩,
    ⟨(let s := up; let s := mkServed s; s), (103 : Byte), ⟨by decide +kernel, by decide +kernel⟩, by decide +kernel⟩,
    ⟨(let s := up; let s := mkServed s; s), ((let v : Byte := 231; (128 + v % 104)) : Byte), ⟨by decide +kernel, by decide +kernel⟩, by decide +kernel⟩,
    ⟨(let s := up; let s := mkServed s; s), ⟨by decide +kernel, by decide +kernel⟩⟩⟩

/-- `ThresholdEvents`. -/
theorem witness_ThresholdEvents :
    (∃ (s : State) (k : Fin 64), anvilOn s = true ∧ s.hk.th.getLsbD (2 * k.val) = false ∧ (thChannel k.val s).hk.th.getLsbD (2 * k.val) = true) ∧
    (∃ (s : State) (k : Fin 64), anvilOn s = true ∧ s.hk.th.getLsbD (2 * k.val + 1) = false ∧ (thChannel k.val s).hk.th.getLsbD (2 * k.val + 1) = true) ∧
    (∃ (s : State) (k : Fin 64), isPend s (16 * (38 + k.val / 8) + 2 * (k.val % 8)) = false ∧ isPend (thChannel k.val s) (16 * (38 + k.val / 8) + 2 * (k.val % 8)) = true) ∧
    (∃ (s : State) (k : Fin 64), isPend s (16 * (38 + k.val / 8) + 2 * (k.val % 8) + 1) = false ∧ isPend (thChannel k.val s) (16 * (38 + k.val / 8) + 2 * (k.val % 8) + 1) = true) ∧
    (∃ (s : State) (k : Fin 64) (j : Nat), isPend (thChannel k.val s) j = true) :=
    ⟨⟨(let s := up; let s := putPlain (thKey 63 4) [255, 127] (putPlain (thKey 63 2) [3, 0] (setPlainBits (thKey 63 1) 0 8 200 { up with hk.valid := BitVec.allOnes _, hk.mval := [(72, 4)] })); s), (63 : Fin 64), by decide +kernel⟩,
    ⟨(let k : Fin 64 := 0; let s := up; let s := mkAnvil s; let s := { setPlainBits (thKey k.val 2) 0 16 65535 (putPlain (thKey k.val 4) [255, 255] (putPlain (thKey k.val 7) [0] (setPlainBits (thKey k.val 1) 0 8 (128 + s.cyc.cnt.toNat % 70) s))) with hk.th := 0, hk.valid := BitVec.allOnes _ }; s), (0 : Fin 64), by decide +kernel⟩,
    ⟨(let s := up; let s := putPlain (thKey 63 4) [255, 127] (putPlain (thKey 63 2) [3, 0] (setPlainBits (thKey 63 1) 0 8 200 { up with hk.valid := BitVec.allOnes _, hk.mval := [(72, 4)] })); s), (63 : Fin 64), by decide +kernel⟩,
    ⟨(let k : Fin 64 := 0; let s := up; let s := mkAnvil ({ setPlainBits (thKey k.val 2) 0 16 65535 (putPlain (thKey k.val 4) [255, 255] (putPlain (thKey k.val 7) [0] (setPlainBits (thKey k.val 1) 0 8 (128 + s.cyc.cnt.toNat % 70) s))) with hk.th := 0, hk.valid := BitVec.allOnes _ }); s), (0 : Fin 64), by decide +kernel⟩,
    ⟨(let s := up; let s := { up with irq.pend := [(0, 1)] }; s), (63 : Fin 64), (0 : Nat), by decide +kernel⟩⟩

/-- `PilotMeasures`. -/
theorem witness_PilotMeasures :
    (∃ (s : State) (freq : Nat), anvilOn s = true ∧ pilotOn s = true ∧ 5000 ≤ freq ∧ freq ≤ 20000) ∧
    (∃ (s : State) (hi : Int) (lo : Int) (duty : Nat) (freq : Nat), anvilOn s = true ∧ pilotOn s = true ∧ 9800 ≤ freq ∧ freq ≤ 10200 ∧ s.plt.hist = [(hi, lo, duty, freq), (hi, lo, duty, freq), (hi, lo, duty, freq)]) ∧
    (∃ (s : State) (hi : Int) (lo : Int) (freq : Nat), anvilOn s = true ∧ pilotOn s = true ∧ 5000 ≤ freq ∧ freq ≤ 20000 ∧ s.plt.cls = pilotClass s true hi lo ∧ s.plt.run = 3 ∧ s.plt.cls ≠ s.plt.state) ∧
    (∃ (s : State) (freq : Nat), anvilOn s = true ∧ pilotOn s = true ∧ (freq < 5000 ∨ 20000 < freq)) ∧
    (∃ (s : State), anvilOn s = true ∧ pilotOn s = true) ∧
    (∃ (s : State) (mv : Int), anvilOn s = true ∧ pilotOn s = true ∧ waiting .pwmoff s = false ∧ pilotClass s false mv 0 = s.plt.state) ∧
    (∃ (s : State) (mv : Int), anvilOn s = true ∧ pilotOn s = true ∧ waiting .pwmoff s = false ∧ 13500 < mv ∧ s.plt.cls = 8 ∧ s.plt.run = 3 ∧ s.plt.state ≠ 8 ∧ s.plt.s2 = true ∧ s.plt.role = 0 ∧ s.plt.soft = false ∧ s.plt.hard = false ∧ s.plt.rspRun = false) ∧
    (∃ (s : State) (mv : Nat), pilotOn s = true ∧ (ppClassOf (ppstd s) mv = s.plt.pp ∨ ppClassOf (ppstd s) mv ≠ s.plt.ppCls ∨ s.plt.ppRun < 3)) ∧
    (∃ (s : State) (mv : Nat), anvilOn s = true ∧ pilotOn s = true ∧ ppClassOf (ppstd s) mv = s.plt.ppCls ∧ s.plt.ppCls ≠ s.plt.pp ∧ 3 ≤ s.plt.ppRun) ∧
    (∃ (s : State) (cp : Int) (pp : Nat), vaonOn s = true ∧ s.glob.st = .sleep ∧ (lv s (key 0x40 0)).getLsbD 2 = true ∧ wakeDue s = false ∧ cp < 4500 ∧ 4500 ≤ pp) ∧
    (∃ (s : State) (cp : Int) (pp : Int), vaonOn s = true ∧ s.glob.st = .sleep ∧ (lv s (key 0x40 0)).getLsbD 2 = true ∧ wakeDue s = false ∧ s.plt.monCp = 0 ∧ 4500 ≤ cp ∧ 4500 ≤ pp) ∧
    (∃ (s : State) (cp : Int), vaonOn s = true ∧ s.glob.st = .sleep ∧ (lv s (key 0x40 0)).getLsbD 2 = true ∧ (lv s (key 0x40 0)).getLsbD 3 = true ∧ 1 ≤ s.plt.monCp ∧ 4500 ≤ cp ∧ wakeEn s 5 = true) :=
    ⟨⟨(let s := up; let s := mkAnvil s; let s := { mkAnvil s with plt.role := s.plt.role % 3 }; s), (5000 : Nat), by decide +kernel⟩,
    ⟨(let hi : Int := -45000; let lo : Int := -45000; let duty : Nat := 1; let freq : Nat := 1; let s := up; let s := mkAnvil s; let s := { mkAnvil s with plt.role := s.plt.role % 3 }; let s := { s with plt.hist := [(hi, lo, duty, (9850 + freq % 300)), (hi, lo, duty, (9850 + freq % 300)), (hi, lo, duty, (9850 + freq % 300))] }; s), (-45000 : Int), (-45000 : Int), (1 : Nat), ((let freq : Nat := 1; (9850 + freq % 300)) : Nat), by decide +kernel⟩,
    ⟨(let hi : Int := -45000; let lo : Int := -45000; let s := up; let s := mkAnvil s; let s := { mkAnvil s with plt.role := s.plt.role % 3 }; let s := { s with plt.cls := pilotClass s true hi lo }; let s := { s with plt.run := 3 }; let s := { s with plt.cls := pilotClass s true hi lo }; s), (-45000 : Int), (-45000 : Int), ((let freq : Nat := 1; (9850 + freq % 300)) : Nat), by decide +kernel⟩,
    ⟨(let s := up; let s := mkAnvil s; let s := { mkAnvil s with plt.role := s.plt.role % 3 }; s), (4999 : Nat), by decide +kernel⟩,
    ⟨(let s := up; let s := mkAnvil s; let s := { mkAnvil s with plt.role := s.plt.role % 3 }; s), by decide +kernel⟩,
    ⟨(let mv : Int := -45000; let s := up; let s := mkAnvil s; let s := { mkAnvil s with plt.role := s.plt.role % 3 }; let s := { (disarm Instr.pwmoff s) with pending := s.pending.filter (fun c => c ≠ Instr.pwmoff) }; let s := { s with plt.state := pilotClass s false mv 0 }; s), (-45000 : Int), by decide +kernel⟩,
    ⟨(let s := up; let s := mkAnvil s; let s := { mkAnvil s with plt.role := s.plt.role % 3 }; let s := { (disarm Instr.pwmoff s) with pending := s.pending.filter (fun c => c ≠ Instr.pwmoff) }; let s := { s with plt.cls := 8 }; let s := { s with plt.run := 3 }; let s := { s with plt.s2 := true }; let s := { s with plt.role := 0 }; let s := { s with plt.soft := false }; let s := { s with plt.hard := false }; let s := { s with plt.rspRun := false }; s), ((let mv : Int := -45000; (13501 + Int.natAbs mv)) : Int), by decide +kernel⟩,
    ⟨(let s := up; let s := { mkAnvil s with plt.role := s.plt.role % 3 }; s), (1 : Nat), by decide +kernel⟩,
    ⟨(let mv : Nat := 1; let s := up; let s := mkAnvil s; let s := { mkAnvil s with plt.role := s.plt.role % 3 }; let s := { s with plt.ppCls := ppClassOf (ppstd s) mv, plt.ppRun := 3 }; s), (1 : Nat), by decide +kernel⟩,
    ⟨(let s := up; let s := { s with glob.supplied := true, glob.vaonOk := true, glob.clocked := true, otp.sensed := true }; let s := { s with glob.st := .sleep }; let s := { s with pwr.wl := 0 }; let s := setLiveBits (key 0x40 0) 2 1 1 { mkSleep s with glob.st := .sleep, pwr.wl := 0 }; s), (4499 : Int), (4500 : Nat), by decide +kernel⟩,
    ⟨(let s := up; let s := { s with glob.supplied := true, glob.vaonOk := true, glob.clocked := true, otp.sensed := true }; let s := { s with glob.st := .sleep }; let s := { s with pwr.wl := 0 }; let s := { s with plt.monCp := 0 }; let s := { setLiveBits (key 0x40 0) 2 1 1 { mkSleep s with glob.st := .sleep, pwr.wl := 0 } with plt.monCp := 0 }; s), ((let cp : Int := -45000; (4500 + Int.natAbs cp)) : Int), ((let pp : Int := -45000; (4500 + Int.natAbs pp)) : Int), by decide +kernel⟩,
    ⟨(let s := up; let s := { s with glob.supplied := true, glob.vaonOk := true, glob.clocked := true, otp.sensed := true }; let s := { s with glob.st := .sleep }; let s := setPlainBits (key 0x60 0) 2 3 7 s; let s := setPlainBits (key 0x60 0) 2 6 63 (setLiveBits (key 0x40 0) 2 2 3 { mkSleep s with glob.st := .sleep, pwr.wl := 0, plt.monCp := 1 }); s), ((let cp : Int := -45000; (4500 + Int.natAbs cp)) : Int), by decide +kernel⟩⟩

/-- `PilotAndCharger`. -/
theorem witness_PilotAndCharger :
    (∃ (s : State) (v : Byte), Served s ∧ v.getLsbD 0 = true ∧ s.plt.s2 = false ∧ s.plt.role = 0 ∧ s.plt.osc = true ∧ (s.plt.state = 3 ∨ s.plt.state = 4) ∧ 1 ≤ s.plt.pp ∧ s.plt.pp ≤ 4 ∧ s.plt.soft = false ∧ s.plt.hard = false) ∧
    (∃ (s : State) (v : Byte), Served s ∧ s2req s = true ∧ v.getLsbD 0 = false ∧ s.plt.rspRun = true) ∧
    (∃ (s : State), Served s ∧ s.plt.rspRun = true) ∧
    (∃ (s : State), Served s ∧ s.plt.rspRun = false) ∧
    (∃ (s : State), anvilOn s = true ∧ s.plt.rspRun = true ∧ s.plt.soft = false) ∧
    (∃ (s : State), anvilOn s = true ∧ s.plt.rspRun = true ∧ s.plt.soft = true ∧ s.plt.hard = false) ∧
    (∃ (s : State) (p : Packet) (b : Byte), Takes false p s ∧ p.params = [b] ∧ b.toNat < 4 ∧ s.plt.role < 2 ∧ s.plt.state < 3 ∧ s.plt.role ≠ (b.getLsbD 0).toNat ∧ (b.getLsbD 0 = true → s.glob.st ≠ .safe ∧ s.plt.genflt = false ∧ has s.rl.pg 0 = true)) ∧
    (∃ (s : State) (p : Packet) (b : Byte), Takes false p s ∧ p.params = [b] ∧ (4 ≤ b.toNat ∨ s.plt.role = 3)) ∧
    (∃ (s : State) (p : Packet) (b : Byte), Takes false p s ∧ p.params = [b] ∧ b.toNat < 4 ∧ s.plt.role < 2 ∧ (4 ≤ s.plt.state ∨ (s.plt.state = 3 ∧ b.getLsbD 1 = false))) ∧
    (∃ (s : State) (p : Packet) (b : Byte), Takes false p s ∧ p.params = [b] ∧ b.toNat < 4 ∧ s.plt.role < 2 ∧ s.plt.state < 3 ∧ b.getLsbD 0 = true ∧ (s.glob.st = .safe ∨ s.plt.genflt = true ∨ has s.rl.pg 0 = false)) ∧
    (∃ (s : State) (p : Packet) (b : Byte), Takes false p s ∧ p.params = [b] ∧ b.toNat < 4 ∧ s.plt.state < 3 ∧ s.plt.role = (b.getLsbD 0).toNat ∧ (b.getLsbD 0 = true → s.glob.st ≠ .safe ∧ s.plt.genflt = false ∧ has s.rl.pg 0 = true)) ∧
    (∃ (s : State) (b : Bool), anvilOn s = true ∧ s.plt.swap = some b ∧ s.plt.role = 2) ∧
    (∃ (s : State) (p : Packet), Takes false p s ∧ p.params = [] ∧ s.plt.role < 2) ∧
    (∃ (s : State) (p : Packet), Takes false p s ∧ p.params = [] ∧ 2 ≤ s.plt.role ∧ s.plt.role ≤ 3) ∧
    (∃ (s : State), anvilOn s = true ∧ pilotOn s = true ∧ s.plt.genflt = false) ∧
    (∃ (s : State) (v : Nat), anvilOn s = true ∧ chgCell s ≠ 0 ∧ s.chg.phase = 0 ∧ s.chg.holdoff = true ∧ (chgByte s 0).getLsbD 0 = true ∧ has s.rl.pg 0 = true ∧ s.chg.vmidlow = false ∧ chgSuspended s = false ∧ v ≠ 0) ∧
    (∃ (s : State), anvilOn s = true ∧ chgCell s ≠ 0 ∧ 1 ≤ s.chg.phase ∧ s.chg.phase ≤ 6 ∧ s.chg.vmidlow = false) ∧
    (∃ (s : State), anvilOn s = true ∧ chgCell s ≠ 0 ∧ s.chg.phase = 0 ∧ s.chg.holdoff = false ∧ (chgByte s 0).getLsbD 0 = true ∧ has s.rl.pg 0 = true ∧ s.chg.vmidlow = true ∧ chgSuspended s = false ∧ s.chg.vcell ≠ 0) ∧
    (∃ (s : State) (v : Nat), anvilOn s = true ∧ chgCell s ≠ 0 ∧ s.chg.phase = 3 ∧ cvEff s ≤ v) ∧
    (∃ (s : State) (v : Nat), anvilOn s = true ∧ chgCell s ≠ 0 ∧ s.chg.phase = 2 ∧ vpre s ≤ v ∧ v < cvEff s ∧ vtrk s ≤ v) ∧
    (∃ (s : State) (v : Nat), anvilOn s = true ∧ chgCell s ≠ 0 ∧ s.chg.phase = 3 ∧ v < cvEff s ∧ vpre s ≤ v + 100) ∧
    (∃ (s : State) (v : Nat), anvilOn s = true ∧ chgCell s ≠ 0 ∧ s.chg.phase = 3 ∧ v < cvEff s ∧ v + 100 < vpre s) ∧
    (∃ (s : State), anvilOn s = true ∧ s.chg.phase = 4 ∧ (chgByte s 3).getLsbD 4 = true ∧ gaugeOn s = false) ∧
    (∃ (s : State), anvilOn s = true ∧ s.chg.phase = 4 ∧ (chgByte s 3).getLsbD 4 = true ∧ gaugeOn s = true ∧ s.gau.frozen = true) ∧
    (∃ (s : State), anvilOn s = true ∧ s.chg.phase = 5) ∧
    (∃ (s : State) (v : Byte), Served s ∧ v.getLsbD 0 = true ∧ chgCell s ≠ 0 ∧ chgCanRun s = true ∧ 1 ≤ s.chg.phase ∧ s.chg.phase ≤ 5) ∧
    (∃ (s : State) (v : Byte), Served s ∧ v.getLsbD 0 = false ∧ chgCell s ≠ 0 ∧ chgCanRun s = true ∧ chgTsen s = false ∧ s.chg.phase = 6 ∧ s.chg.kept ≠ 6) :=
    ⟨⟨(let s := up; let s := mkServed s; let s := { s with plt.s2 := false }; let s := { s with plt.role := 0 }; let s := { s with plt.osc := true }; let s := { s with plt.soft := false }; let s := { s with plt.hard := false }; let s := { s with plt.state := 3 + s.plt.state % 2, plt.pp := 1 + s.plt.pp % 4 }; s), (0x9d#8 : Byte), ⟨by decide +kernel, by decide +kernel⟩, by decide +kernel⟩,
    ⟨(let s := up; let s := mkServed s; let s := setPlainBits (key 0x40 0x68) 0 1 1 s; let s := { s with plt.rspRun := true }; s), (0x00#8 : Byte), ⟨by decide +kernel, by decide +kernel⟩, by decide +kernel⟩,
    ⟨(let s := up; let s := mkServed s; let s := { s with plt.rspRun := true }; s), ⟨by decide +kernel, by decide +kernel⟩, by decide +kernel⟩,
    ⟨(let s := up; let s := mkServed s; let s := { s with plt.rspRun := false }; s), ⟨by decide +kernel, by decide +kernel⟩, by decide +kernel⟩,
    ⟨(let s := up; let s := mkAnvil s; let s := { s with plt.rspRun := true }; let s := { s with plt.soft := false }; s), by decide +kernel⟩,
    ⟨(let s := up; let s := mkAnvil s; let s := { s with plt.rspRun := true }; let s := { s with plt.soft := true }; let s := { s with plt.hard := false }; s), by decide +kernel⟩,
    ⟨(let b : Byte := 0x01#8; let s := up; let s := mkTakes false s; let s := { s with plt.role := s.plt.role % 2 }; let s := { s with plt.state := s.plt.state % 3 }; let s := { s with plt.role := 1 - (b.getLsbD 0).toNat, rl.pg := s.rl.pg ||| 1, plt.genflt := false, glob.st := .run }; s), ({ n := 4, tag := 0x02#8, len := 0x01#8, params := [0x01#8] } : Packet), (0x01#8 : Byte), ⟨by decide +kernel, by decide, by decide, by decide +kernel, by decide, by decide +kernel⟩, by decide +kernel⟩,
    ⟨(let s := up; let s := mkTakes false s; s), (⟨4, 2, 1, [4]⟩ : Packet), (4 : Byte), ⟨by decide +kernel, by decide, by decide, by decide +kernel, by decide, by decide +kernel⟩, by decide +kernel⟩,
    ⟨(let s := up; let s := mkTakes false s; let s := { s with plt.role := s.plt.role % 2 }; let s := { s with plt.state := 3 + s.plt.state % 3 }; s), ({ n := 4, tag := 0x02#8, len := 0x01#8, params := [0x01#8] } : Packet), (0x01#8 : Byte), ⟨by decide +kernel, by decide, by decide, by decide +kernel, by decide, by decide +kernel⟩, by decide +kernel⟩,
    ⟨(let s := up; let s := mkTakes false s; let s := { s with plt.role := s.plt.role % 2 }; let s := { s with plt.state := s.plt.state % 3 }; let s := { s with plt.role := s.plt.role % 2, plt.state := s.plt.state % 3 }; s), ({ n := 4, tag := 0x02#8, len := 0x01#8, params := [0x01#8] } : Packet), (0x01#8 : Byte), ⟨by decide +kernel, by decide, by decide, by decide +kernel, by decide, by decide +kernel⟩, by decide +kernel⟩,
    ⟨(let b : Byte := 0x01#8; let s := up; let s := mkTakes false s; let s := { s with plt.state := s.plt.state % 3 }; let s := { s with plt.role := (b.getLsbD 0).toNat }; let s := { s with plt.role := (b.getLsbD 0).toNat, rl.pg := s.rl.pg ||| 1, plt.genflt := false, plt.state := s.plt.state % 3, glob.st := .run }; s), ({ n := 4, tag := 0x02#8, len := 0x01#8, params := [0x01#8] } : Packet), (0x01#8 : Byte), ⟨by decide +kernel, by decide, by decide, by decide +kernel, by decide, by decide +kernel⟩, by decide +kernel⟩,
    ⟨(let b : Bool := false; let s := up; let s := mkAnvil s; let s := { s with plt.swap := some b }; let s := { s with plt.role := 2 }; s), (false : Bool), by decide +kernel⟩,
    ⟨(let s := up; let s := mkTakes false s; let s := { s with plt.role := s.plt.role % 2 }; s), ({ n := 3, tag := 0x05#8, len := 0x00#8, params := [] } : Packet), ⟨by decide +kernel, by decide, by decide, by decide +kernel, by decide, by decide +kernel⟩, by decide +kernel⟩,
    ⟨(let s := up; let s := mkTakes false s; let s := { s with plt.role := 2 + s.plt.role % 2 }; s), ({ n := 3, tag := 0x05#8, len := 0x00#8, params := [] } : Packet), ⟨by decide +kernel, by decide, by decide, by decide +kernel, by decide, by decide +kernel⟩, by decide +kernel⟩,
    ⟨(let s := up; let s := mkAnvil s; let s := { mkAnvil s with plt.role := s.plt.role % 3 }; let s := { s with plt.genflt := false }; s), by decide +kernel⟩,
    ⟨(let s := up; let s := mkAnvil s; let s := putLive (key 0x44 0) [putBits (lv s (key 0x44 0)) 1 2 (1 + s.cyc.cnt.toNat % 2)] { s with glob.floor := false, chg.defaults := false }; let s := { s with chg.phase := 0 }; let s := { s with chg.holdoff := true }; let s := setLiveBits (key 0x44 0) 0 1 1 { s with glob.floor := false }; let s := { s with rl.pg := setBit s.rl.pg 0 true }; let s := { s with chg.vmidlow := false }; let s := setPlainBits (key 0x44 0x63) 0 1 0 { s with chg.ntc := false, chg.ct := 1 + s.chg.ct % 3 }; s), (1 : Nat), by decide +kernel⟩,
    ⟨(let s := up; let s := mkAnvil s; let s := putLive (key 0x44 0) [putBits (lv s (key 0x44 0)) 1 2 (1 + s.cyc.cnt.toNat % 2)] { s with glob.floor := false, chg.defaults := false }; let s := { s with chg.phase := 1 + s.chg.phase % 6 }; let s := { s with chg.vmidlow := false }; s), by decide +kernel⟩,
    ⟨(let s := up; let s := mkAnvil s; let s := putLive (key 0x44 0) [putBits (lv s (key 0x44 0)) 1 2 (1 + s.cyc.cnt.toNat % 2)] { s with glob.floor := false, chg.defaults := false }; let s := { s with chg.phase := 0 }; let s := { s with chg.holdoff := false }; let s := setLiveBits (key 0x44 0) 0 1 1 { s with glob.floor := false }; let s := { s with rl.pg := setBit s.rl.pg 0 true }; let s := { s with chg.vmidlow := true }; let s := setPlainBits (key 0x44 0x63) 0 1 0 { s with chg.ntc := false, chg.ct := 1 + s.chg.ct % 3 }; let s := { s with chg.vcell := 3700 }; s), by decide +kernel⟩,
    ⟨(let s := up; let s := mkAnvil s; let s := putLive (key 0x44 0) [putBits (lv s (key 0x44 0)) 1 2 (1 + s.cyc.cnt.toNat % 2)] { s with glob.floor := false, chg.defaults := false }; let s := { s with chg.phase := 3 }; s), ((cvEff ((let s := up; let s := mkAnvil s; let s := putLive (key 0x44 0) [putBits (lv s (key 0x44 0)) 1 2 (1 + s.cyc.cnt.toNat % 2)] { s with glob.floor := false, chg.defaults := false }; let s := { s with chg.phase := 3 }; s))) : Nat), by decide +kernel⟩,
    ⟨(let s := up; let s := mkAnvil s; let s := putLive (key 0x44 0) [putBits (lv s (key 0x44 0)) 1 2 (1 + s.cyc.cnt.toNat % 2)] { s with glob.floor := false, chg.defaults := false }; let s := { s with chg.phase := 2 }; s), ((cvEff ((let s := up; let s := mkAnvil s; let s := putLive (key 0x44 0) [putBits (lv s (key 0x44 0)) 1 2 (1 + s.cyc.cnt.toNat % 2)] { s with glob.floor := false, chg.defaults := false }; let s := { s with chg.phase := 2 }; s)) - 1) : Nat), by decide +kernel⟩,
    ⟨(let s := up; let s := mkAnvil s; let s := putLive (key 0x44 0) [putBits (lv s (key 0x44 0)) 1 2 (1 + s.cyc.cnt.toNat % 2)] { s with glob.floor := false, chg.defaults := false }; let s := { s with chg.phase := 3 }; s), ((vpre ((let s := up; let s := mkAnvil s; let s := putLive (key 0x44 0) [putBits (lv s (key 0x44 0)) 1 2 (1 + s.cyc.cnt.toNat % 2)] { s with glob.floor := false, chg.defaults := false }; let s := { s with chg.phase := 3 }; s)) - 100) : Nat), by decide +kernel⟩,
    ⟨(let s := up; let s := mkAnvil s; let s := putLive (key 0x44 0) [putBits (lv s (key 0x44 0)) 1 2 (1 + s.cyc.cnt.toNat % 2)] { s with glob.floor := false, chg.defaults := false }; let s := { s with chg.phase := 3 }; s), ((vpre ((let s := up; let s := mkAnvil s; let s := putLive (key 0x44 0) [putBits (lv s (key 0x44 0)) 1 2 (1 + s.cyc.cnt.toNat % 2)] { s with glob.floor := false, chg.defaults := false }; let s := { s with chg.phase := 3 }; s)) - 101) : Nat), by decide +kernel⟩,
    ⟨(let s := up; let s := mkAnvil s; let s := { s with chg.phase := 4 }; let s := setLiveBits (key 0x44 3) 4 1 1 { s with glob.floor := false }; s), by decide +kernel⟩,
    ⟨(let s := up; let s := mkAnvil s; let s := { s with chg.phase := 4 }; let s := setLiveBits (key 0x44 3) 4 1 1 { s with glob.floor := false }; let s := putLive (key 0x44 0) [putBits (lv s (key 0x44 0)) 1 2 (1 + s.cyc.cnt.toNat % 2)] { mkServed s with gau.off := false }; let s := { s with gau.frozen := true }; s), by decide +kernel⟩,
    ⟨(let s := up; let s := mkAnvil s; let s := { s with chg.phase := 5 }; s), by decide +kernel⟩,
    ⟨(let s := up; let s := mkServed s; let s := putLive (key 0x44 0) [putBits (lv s (key 0x44 0)) 1 2 (1 + s.cyc.cnt.toNat % 2)] { s with glob.floor := false, chg.defaults := false }; let s := setLiveBits (key 0x44 0) 0 1 1 { mkAnvil s with glob.floor := false, chg.vmidlow := false, chg.holdoff := false, rl.pg := s.rl.pg ||| 1 }; let s := { s with chg.phase := 1 + s.chg.phase % 5 }; s), (0x9d#8 : Byte), ⟨by decide +kernel, by decide +kernel⟩, by decide +kernel⟩,
    ⟨(let s := up; let s := mkServed s; let s := putLive (key 0x44 0) [putBits (lv s (key 0x44 0)) 1 2 (1 + s.cyc.cnt.toNat % 2)] { s with glob.floor := false, chg.defaults := false }; let s := setLiveBits (key 0x44 0) 0 1 1 { mkAnvil s with glob.floor := false, chg.vmidlow := false, chg.holdoff := false, rl.pg := s.rl.pg ||| 1 }; let s := setLiveBits (key 0x44 0) 3 1 0 { s with glob.floor := false }; let s := { s with chg.phase := 6 }; s), (0x00#8 : Byte), ⟨by decide +kernel, by decide +kernel⟩, by decide +kernel⟩⟩

/-- `ChargerProtection`. -/
theorem witness_ChargerProtection :
    (∃ (s : State), anvilOn s = true ∧ chgCell s ≠ 0 ∧ s.chg.cellov = false ∧ (s.qt.on = false ∨ chgSwitches s = false)) ∧
    (∃ (s : State), anvilOn s = true ∧ (s.chg.phase = 1 ∨ s.chg.phase = 2)) ∧
    (∃ (s : State), anvilOn s = true ∧ (s.chg.phase = 3 ∨ s.chg.phase = 4)) ∧
    (∃ (s : State), Served s ∧ s.chg.phase = 7 ∧ chgCell s ≠ 0 ∧ chgCanRun s = false) ∧
    (∃ (s : State), Served s ∧ s.chg.phase = 7 ∧ chgCell s ≠ 0 ∧ chgCanRun s = true ∧ chgSuspended s = false ∧ s.chg.vcell ≠ 0) ∧
    (∃ (s : State), anvilOn s = true ∧ chgTsen s = true ∧ s.chg.ntc = false ∧ chgCell s ≠ 0 ∧ chgCanRun s = true ∧ 1 ≤ s.chg.phase ∧ s.chg.phase ≤ 5) ∧
    (∃ (s : State), chgCell s ≠ 0 ∧ chgCanRun s = true ∧ chgsusp s = false ∧ 1 ≤ s.chg.ct ∧ s.chg.ct ≤ 3 ∧ s.chg.phase = 6 ∧ 1 ≤ s.chg.kept ∧ s.chg.kept ≤ 5) ∧
    (∃ (s : State) (mv : Nat), anvilOn s = true ∧ chgTsen s = true ∧ chgCell s ≠ 0 ∧ ntcBand (levelsNow s) s.chg.ct mv ≠ s.chg.ct) ∧
    (∃ (s : State) (mv : Nat), (chgTsen s = false ∨ chgCell s = 0 ∨ ntcBand (levelsNow s) s.chg.ct mv = s.chg.ct)) ∧
    (∃ (s : State), anvilOn s = true ∧ chgwdt s ≠ 0 ∧ chgMaySwitch s = true ∧ s.chg.defaults = false) ∧
    (∃ (s : State), Served s ∧ s.chg.defaults = true) ∧
    (∃ (s : State), Served s ∧ s.chg.defaults = false ∧ chgwdt s ≠ 0 ∧ chgMaySwitch s = true) ∧
    (∃ (s : State), anvilOn s = true ∧ chgCell s ≠ 0 ∧ s.chg.cellov = false ∧ s.qt.on = true ∧ chgSwitches s = true) ∧
    (∃ (s : State), s.chg.cellov = true) :=
    ⟨⟨(let s := up; let s := mkAnvil s; let s := putLive (key 0x44 0) [putBits (lv s (key 0x44 0)) 1 2 (1 + s.cyc.cnt.toNat % 2)] { s with glob.floor := false, chg.defaults := false }; let s := { s with chg.cellov := false }; s), by decide +kernel⟩,
    ⟨(let s := up; let s := mkAnvil s; let s := { s with chg.phase := 1 + s.chg.phase % 2 }; s), by decide +kernel⟩,
    ⟨(let s := up; let s := mkAnvil s; let s := { s with chg.phase := 3 + s.chg.phase % 2 }; s), by decide +kernel⟩,
    ⟨(let s := up; let s := mkServed s; let s := { s with chg.phase := 7 }; let s := putLive (key 0x44 0) [putBits (lv s (key 0x44 0)) 1 2 (1 + s.cyc.cnt.toNat % 2)] { s with glob.floor := false, chg.defaults := false }; s), ⟨by decide +kernel, by decide +kernel⟩, by decide +kernel⟩,
    ⟨(let s := up; let s := mkServed s; let s := { s with chg.phase := 7 }; let s := putLive (key 0x44 0) [putBits (lv s (key 0x44 0)) 1 2 (1 + s.cyc.cnt.toNat % 2)] { s with glob.floor := false, chg.defaults := false }; let s := setLiveBits (key 0x44 0) 0 1 1 { mkAnvil s with glob.floor := false, chg.vmidlow := false, chg.holdoff := false, rl.pg := s.rl.pg ||| 1 }; let s := setPlainBits (key 0x44 0x63) 0 1 0 { s with chg.ntc := false, chg.ct := 1 + s.chg.ct % 3 }; let s := { s with chg.vcell := 3700 }; s), ⟨by decide +kernel, by decide +kernel⟩, by decide +kernel⟩,
    ⟨(let s := up; let s := mkAnvil s; let s := setLiveBits (key 0x44 0) 3 1 1 { s with glob.floor := false }; let s := { s with chg.ntc := false }; let s := putLive (key 0x44 0) [putBits (lv s (key 0x44 0)) 1 2 (1 + s.cyc.cnt.toNat % 2)] { s with glob.floor := false, chg.defaults := false }; let s := setLiveBits (key 0x44 0) 0 1 1 { mkAnvil s with glob.floor := false, chg.vmidlow := false, chg.holdoff := false, rl.pg := s.rl.pg ||| 1 }; let s := { s with chg.phase := 1 + s.chg.phase % 5 }; s), by decide +kernel⟩,
    ⟨(let s := up; let s := putLive (key 0x44 0) [putBits (lv s (key 0x44 0)) 1 2 (1 + s.cyc.cnt.toNat % 2)] { s with glob.floor := false, chg.defaults := false }; let s := setLiveBits (key 0x44 0) 0 1 1 { mkAnvil s with glob.floor := false, chg.vmidlow := false, chg.holdoff := false, rl.pg := s.rl.pg ||| 1 }; let s := setPlainBits (key 0x44 0x63) 0 1 0 s; let s := { s with chg.ct := 1 + s.chg.ct % 3 }; let s := { s with chg.phase := 6 }; let s := { s with chg.kept := 1 + s.chg.kept % 5 }; s), by decide +kernel⟩,
    ⟨(let s := up; let s := mkAnvil s; let s := setLiveBits (key 0x44 0) 3 1 1 { s with glob.floor := false }; let s := putLive (key 0x44 0) [putBits (lv s (key 0x44 0)) 1 2 (1 + s.cyc.cnt.toNat % 2)] { s with glob.floor := false, chg.defaults := false }; let s := { s with chg.levels := [1600, 1580, 1300, 1280, 500, 490, 300, 290], glob.floor := false }; s), (1 : Nat), by decide +kernel⟩,
    ⟨(let s := up; let s := { s with chg.levels := [1600, 1580, 1300, 1280, 500, 490, 300, 290], glob.floor := false }; s), (596 : Nat), by decide +kernel⟩,
    ⟨(let s := up; let s := mkAnvil s; let s := setLiveBits (key 0x44 14) 0 3 (1 + s.cyc.cnt.toNat % 7) { s with glob.floor := false }; let s := setPlainBits (key 0x44 0x63) 0 1 0 (setLiveBits (key 0x44 0) 0 1 1 { mkAnvil s with glob.floor := false, chg.vmidlow := false, chg.holdoff := false, rl.pg := s.rl.pg ||| 1, chg.phase := s.chg.phase % 5 }); let s := { s with chg.defaults := false }; s), by decide +kernel⟩,
    ⟨(let s := up; let s := mkServed s; let s := { s with chg.defaults := true }; s), ⟨by decide +kernel, by decide +kernel⟩, by decide +kernel⟩,
    ⟨(let s := up; let s := mkServed s; let s := { s with chg.defaults := false }; let s := setLiveBits (key 0x44 14) 0 3 (1 + s.cyc.cnt.toNat % 7) { s with glob.floor := false }; let s := setPlainBits (key 0x44 0x63) 0 1 0 (setLiveBits (key 0x44 0) 0 1 1 { mkAnvil s with glob.floor := false, chg.vmidlow := false, chg.holdoff := false, rl.pg := s.rl.pg ||| 1, chg.phase := s.chg.phase % 5 }); s), ⟨by decide +kernel, by decide +kernel⟩, by decide +kernel⟩,
    ⟨(let s := up; let s := { setLiveBits (key 0x44 0) 0 3 3 up with rl.pg := 1, qt.on := true, chg.holdoff := false }; s), by decide +kernel⟩,
    ⟨(let s := up; let s := { up with chg.cellov := true }; s), by decide +kernel⟩⟩

/-- `GaugeRules`. -/
theorem witness_GaugeRules :
    (∃ (s : State), anvilOn s = true ∧ (roundsRun s = false ∨ s.hk.due ≤ s.clk.now)) ∧
    (∃ (s : State), roundsRun s = true ∧ s.hk.due ≤ s.clk.now ∧ displaced s = true ∧ gaugeOn s = true ∧ s.hk.hkbInv = true) ∧
    (∃ (s : State), Served s) ∧
    (∃ (s : State) (p : Packet), Takes false p s ∧ p.params = [] ∧ s.glob.st = .run ∧ chgCell s ≠ 0 ∧ 50 ≤ gdescap s ∧ gdescap s ≤ 10000) ∧
    (∃ (s : State) (p : Packet), Takes false p s ∧ p.params = [] ∧ s.glob.st = .run ∧ chgCell s ≠ 0 ∧ (gdescap s < 50 ∨ 10000 < gdescap s)) ∧
    (∃ (s : State) (p : Packet), Takes false p s ∧ s.glob.st = .run ∧ chgCell s = 0) ∧
    (∃ (s : State) (p : Packet), Takes false p s ∧ p.params = []) ∧
    (∃ (s : State), anvilOn s = true) ∧
    (∃ (s : State), anvilOn s = true ∧ (pl s (key 0x45 3)).getLsbD 0 = true) ∧
    (∃ (s : State) (d : RoundData), roundsRun s = true ∧ s.hk.due ≤ s.clk.now ∧ gaugeOn s = true ∧ s.gau.point = 0 ∧ (s.gau.rest = true ∨ max 1 (pl s (key 0x45 4)).toNat < d.iMax.natAbs)) :=
    ⟨⟨(let s := up; let s := mkAnvil s; s), by decide +kernel⟩,
    ⟨(let s := up; let s := { mkServed s with glob.boot := false, glob.st := [St.start, .run, .stop, .safe].getD (s.cyc.cnt.toNat % 4) .run }; let s := { s with hk.due := s.clk.now }; let s := { s with hk.claim := 2, hk.runA := [⟨3, [], {}⟩] }; let s := putLive (key 0x44 0) [putBits (lv s (key 0x44 0)) 1 2 (1 + s.cyc.cnt.toNat % 2)] { mkServed s with gau.off := false }; let s := { s with hk.hkbInv := true }; s), by decide +kernel⟩,
    ⟨(let s := up; let s := mkServed s; s), ⟨by decide +kernel, by decide +kernel⟩⟩,
    ⟨(let s := up; let s := mkTakes false s; let s := { s with glob.st := .run }; let s := putLive (key 0x44 0) [putBits (lv s (key 0x44 0)) 1 2 (1 + s.cyc.cnt.toNat % 2)] { s with glob.floor := false, chg.defaults := false }; let s := putPlain (key 0x45 0) [77, 3] s; let s := putPlain (key 0x45 0) [50, 0] s; s), ({ n := 3, tag := 0x05#8, len := 0x00#8, params := [] } : Packet), ⟨by decide +kernel, by decide, by decide, by decide +kernel, by decide, by decide +kernel⟩, by decide +kernel⟩,
    ⟨(let s := up; let s := mkTakes false s; let s := { s with glob.st := .run }; let s := putLive (key 0x44 0) [putBits (lv s (key 0x44 0)) 1 2 (1 + s.cyc.cnt.toNat % 2)] { s with glob.floor := false, chg.defaults := false }; let s := putPlain (key 0x45 0) [7, 0] s; let s := putPlain (key 0x45 0) [49, 0] s; s), ({ n := 3, tag := 0x05#8, len := 0x00#8, params := [] } : Packet), ⟨by decide +kernel, by decide, by decide, by decide +kernel, by decide, by decide +kernel⟩, by decide +kernel⟩,
    ⟨(let s := up; let s := mkTakes false s; let s := { s with glob.st := .run }; let s := putLive (key 0x44 0) [putBits (lv s (key 0x44 0)) 1 2 0] { s with glob.floor := false, chg.defaults := false }; s), ({ n := 3, tag := 0x05#8, len := 0x00#8, params := [] } : Packet), ⟨by decide +kernel, by decide, by decide, by decide +kernel, by decide, by decide +kernel⟩, by decide +kernel⟩,
    ⟨(let s := up; let s := mkTakes false s; s), ({ n := 3, tag := 0x05#8, len := 0x00#8, params := [] } : Packet), ⟨by decide +kernel, by decide, by decide, by decide +kernel, by decide, by decide +kernel⟩, by decide +kernel⟩,
    ⟨(let s := up; let s := mkAnvil s; s), by decide +kernel⟩,
    ⟨(let s := up; let s := mkAnvil s; let s := setPlainBits (key 0x45 3) 0 1 (if true then 1 else 0) s; s), by decide +kernel⟩,
    ⟨(let s := up; let s := { mkServed s with glob.boot := false, glob.st := [St.start, .run, .stop, .safe].getD (s.cyc.cnt.toNat % 4) .run }; let s := { s with hk.due := s.clk.now }; let s := putLive (key 0x44 0) [putBits (lv s (key 0x44 0)) 1 2 (1 + s.cyc.cnt.toNat % 2)] { mkServed s with gau.off := false }; let s := { s with gau.point := 0 }; s), ({ hka := [{ meas := 0, val := 0 }, { meas := 33, val := -44 }, { meas := 19, val := 224366 }, { meas := 91, val := -2 }], hkb := [{ meas := 6, val := -26 }], assay := { fail := 0x00#5, fuses := 0xb865523e#32, cmpFail := 0xbaab7a9b#32, cmpLost := 0x00000006#32, sectors := [150] }, dq := 140354, iMean := -22, iMin := -16, iMax := 14, iSec := 12, iAvgMin := -7, sense := 1, devAC := 25, devBC := 96682, devAB := -9 } : RoundData), by decide +kernel⟩⟩

/-- `FullPoint`. -/
theorem witness_FullPoint :
    (∃ (s : State), anvilOn s = true ∧ s.chg.phase = 4 ∧ (chgByte s 3).getLsbD 4 = true ∧ gaugeOn s = true) :=
    ⟨(let s := up; let s := mkAnvil s; let s := { s with chg.phase := 4 }; let s := setLiveBits (key 0x44 3) 4 1 1 { s with glob.floor := false }; let s := putLive (key 0x44 0) [putBits (lv s (key 0x44 0)) 1 2 (1 + s.cyc.cnt.toNat % 2)] { mkServed s with gau.off := false }; s), by decide +kernel⟩

/-- `CalendarAndShift`. -/
theorem witness_CalendarAndShift :
    (∃ (s : State), vaonOn s = true ∧ s.glob.st = .run) ∧
    (∃ (s : State), vaonOn s = true ∧ (s.clk.now : Int) < s.cal.t0 + xt (32768 - s.cal.adj)) ∧
    (∃ (s : State) (n : Nat), anvilOn s = true ∧ s.glob.st = .run ∧ ptickLen s = some n) ∧
    (∃ (s : State), Served s) ∧
    (∃ (s : State), Served s) ∧
    (∃ (s : State), anvilOn s = true ∧ s.glob.st = .run ∧ s.cal.lprc = false) ∧
    (∃ (s : State), anvilOn s = true ∧ (s.cal.lprc = true ∨ s.tst.xtal = false)) ∧
    (∃ (s : State) (d : Date), Served s ∧ heldDate s = some d) ∧
    (∃ (s : State), Served s ∧ heldDate s = none) ∧
    (∃ (s : State), Served s) ∧
    (∃ (s : State), vaonOn s = true ∧ s.cal.t0 + xt (32768 - s.cal.adj) ≤ (s.clk.now : Int)) ∧
    (∃ (s : State) (p : Packet) (a : Byte) (b : Byte), Takes false p s ∧ p.params = [a, b] ∧ s.cal.shift = none ∧ (b ++ a : Word) ≠ 0x8000 ∧ (b ++ a : Word) ≠ 0) ∧
    (∃ (s : State) (p : Packet), Takes false p s ∧ p.params = [0, 0] ∧ s.cal.shift = none) ∧
    (∃ (s : State) (p : Packet) (a : Byte) (b : Byte), Takes false p s ∧ p.params = [a, b] ∧ s.cal.shift ≠ none) ∧
    (∃ (s : State) (p : Packet) (a : Byte) (b : Byte), Takes false p s ∧ p.params = [a, b] ∧ s.cal.shift = none ∧ (b ++ a : Word) = 0x8000) ∧
    (∃ (s : State) (n : Int), anvilOn s = true ∧ s.cal.shift = some n ∧ 0 < n) ∧
    (∃ (s : State) (n : Int), anvilOn s = true ∧ s.cal.shift = some n ∧ n ≤ 0) :=
    ⟨⟨(let s := up; let s := { s with glob.supplied := true, glob.vaonOk := true, glob.clocked := true, otp.sensed := true }; let s := { s with glob.st := .run }; s), by decide +kernel⟩,
    ⟨(let s := up; let s := { s with glob.supplied := true, glob.vaonOk := true, glob.clocked := true, otp.sensed := true }; let s := setPlainBits (key 0x48 0x1B) 0 8 (200 + s.cyc.cnt.toNat % 50) { s with cal.t0 := s.clk.now - 2000, cal.adj := 3 }; let s := { s with cal.adj := 0, cal.t0 := s.clk.now + 1 - 2000000 }; s), by decide +kernel⟩,
    ⟨(let s := up; let s := setPlainBits (key 0x48 0x28) 0 3 4 (putPlain (key 0x48 0x29) [9] up); s), ((let s := (let s := up; let s := setPlainBits (key 0x48 0x28) 0 3 4 (putPlain (key 0x48 0x29) [9] up); s); ((ptickLen s).getD 0)) : Nat), by decide +kernel⟩,
    ⟨(let s := up; let s := mkServed s; s), ⟨by decide +kernel, by decide +kernel⟩⟩,
    ⟨(let s := up; let s := mkServed s; s), ⟨by decide +kernel, by decide +kernel⟩⟩,
    ⟨(let s := up; let s := mkAnvil s; let s := { s with glob.st := .run }; let s := { s with cal.lprc := false }; s), by decide +kernel⟩,
    ⟨(let s := up; let s := mkAnvil s; let s := { s with cal.lprc := s.cyc.cnt.getLsbD 1, tst.xtal := false }; s), by decide +kernel⟩,
    ⟨(let s := up; let s := mkServed s; let s := putPlain (key 0x48 0x11) [0x59, 0x58, 0x23, 3, 0x28, 2, 0x24, 0x20] s; s), ((let s := (let s := up; let s := mkServed s; let s := putPlain (key 0x48 0x11) [0x59, 0x58, 0x23, 3, 0x28, 2, 0x24, 0x20] s; s); (heldDate s).getD {}) : Date), ⟨by decide +kernel, by decide +kernel⟩, by decide +kernel⟩,
    ⟨(let s := up; let s := mkServed s; s), ⟨by decide +kernel, by decide +kernel⟩, by decide +kernel⟩,
    ⟨(let s := up; let s := mkServed s; s), ⟨by decide +kernel, by decide +kernel⟩⟩,
    ⟨(let s := up; let s := { s with glob.supplied := true, glob.vaonOk := true, glob.clocked := true, otp.sensed := true }; let s := setPlainBits (key 0x48 0x1B) 0 8 (200 + s.cyc.cnt.toNat % 50) { s with cal.t0 := s.clk.now - 20000000, cal.adj := 3 }; let s := { s with cal.adj := 0, cal.t0 := s.clk.now - 2000000 }; s), by decide +kernel⟩,
    ⟨(let s := up; let s := mkTakes false s; let s := { s with cal.shift := none }; s), ({ n := 5, tag := 0x02#8, len := 0x02#8, params := [0x01#8, 0x00#8] } : Packet), (0x01#8 : Byte), (0x00#8 : Byte), ⟨by decide +kernel, by decide, by decide, by decide +kernel, by decide, by decide +kernel⟩, by decide +kernel⟩,
    ⟨(let s := up; let s := mkTakes false s; let s := { s with cal.shift := none }; s), ((let p : Packet := { n := 3, tag := 0x05#8, len := 0x00#8, params := [] }; ({ (p : Packet) with params := [0, 0], n := 5, len := 2 } : Packet)) : Packet), ⟨by decide +kernel, by decide, by decide, by decide +kernel, by decide, by decide +kernel⟩, by decide +kernel⟩,
    ⟨(let s := up; let s := mkTakes false s; let s := { s with cal.shift := some 5 }; s), ({ n := 5, tag := 0x02#8, len := 0x02#8, params := [0x01#8, 0x00#8] } : Packet), (0x01#8 : Byte), (0x00#8 : Byte), ⟨by decide +kernel, by decide, by decide, by decide +kernel, by decide, by decide +kernel⟩, by decide +kernel⟩,
    ⟨(let s := up; let s := mkTakes false s; let s := { s with cal.shift := none }; s), ({ n := 5, tag := 0x02#8, len := 0x02#8, params := [0x00#8, 0x80#8] } : Packet), (0x00#8 : Byte), (0x80#8 : Byte), ⟨by decide +kernel, by decide, by decide, by decide +kernel, by decide, by decide +kernel⟩, by decide +kernel⟩,
    ⟨(let n : Int := 1; let s := up; let s := mkAnvil s; let s := { s with cal.shift := some n }; s), (1 : Int), by decide +kernel⟩,
    ⟨(let n : Int := 0; let s := up; let s := mkAnvil s; let s := { s with cal.shift := some n }; s), (0 : Int), by decide +kernel⟩⟩

/-- `WakeSources`. -/
theorem witness_WakeSources :
    (∃ (s : State), Running s) ∧
    (∃ (s : State), Running s) ∧
    (∃ (s : State), Served s ∧ s.glob.st = .run) ∧
    (∃ (s : State) (c : Instr) (k : Nat), ((c = .wakepin ∧ k = 0) ∨ (c = .vinwake ∧ k = 1)) ∧ anvilOn s = true ∧ s.glob.st = .standby ∧ s.pwr.fromRun = true ∧ wakeEn s k = true) ∧
    (∃ (s : State) (c : Instr) (k : Nat), ((c = .wakepin ∧ k = 0) ∨ (c = .vinwake ∧ k = 1)) ∧ vaonOn s = true ∧ s.glob.st = .sleep ∧ wakeEn s k = true) ∧
    (∃ (s : State) (c : Instr) (k : Nat), ((c = .wakepin ∧ k = 0) ∨ (c = .vinwake ∧ k = 1)) ∧ s.glob.supplied = true ∧ s.glob.st = .ship) ∧
    (∃ (s : State), vaonOn s = true ∧ s.glob.st = .sleep ∧ wakeEn s 2 = true) :=
    ⟨⟨(let s := up; let s := { mkAnvil s with glob.st := .run, glob.boot := false }; s), ⟨by decide +kernel, by decide +kernel, by decide +kernel⟩⟩,
    ⟨(let s := up; let s := { mkAnvil s with glob.st := .run, glob.boot := false }; s), ⟨by decide +kernel, by decide +kernel, by decide +kernel⟩⟩,
    ⟨(let s := up; let s := mkServed s; let s := { s with glob.st := .run }; s), ⟨by decide +kernel, by decide +kernel⟩, by decide +kernel⟩,
    ⟨(let s := up; let s := mkAnvil s; let s := { s with glob.st := .standby }; let s := { s with pwr.fromRun := true }; let s := setPlainBits (key 0x60 0) 2 3 7 s; s), (.wakepin : Instr), (0 : Nat), by decide +kernel⟩,
    ⟨(let s := up; let s := { s with glob.supplied := true, glob.vaonOk := true, glob.clocked := true, otp.sensed := true }; let s := { s with glob.st := .sleep }; let s := setPlainBits (key 0x60 0) 2 3 7 s; s), (.wakepin : Instr), (0 : Nat), by decide +kernel⟩,
    ⟨(let s := up; let s := { s with glob.supplied := true }; let s := { s with glob.st := .ship }; s), (.wakepin : Instr), (0 : Nat), by decide +kernel⟩,
    ⟨(let s := up; let s := { s with glob.supplied := true, glob.vaonOk := true, glob.clocked := true, otp.sensed := true }; let s := { s with glob.st := .sleep }; let s := setPlainBits (key 0x60 0) 2 3 7 s; s), by decide +kernel⟩⟩

/-- `SequenceAndSleepRequests`. -/
theorem witness_SequenceAndSleepRequests :
    (∃ (s : State) (p : Packet), Takes false p s ∧ p.params = [] ∧ s.glob.st = .run) ∧
    (∃ (s : State) (p : Packet), Takes false p s ∧ p.params = [] ∧ s.glob.st = .standby ∧ s.pwr.idle = true ∧ s.pwr.req = none ∧ s.glob.boot = false ∧ (s.inp.a.qual = true ∨ s.inp.b.qual = true) ∧ maskOf (inseq (lv s)) &&& s.rl.pg ≠ maskOf (inseq (lv s))) ∧
    (∃ (s : State) (p : Packet), Takes false p s ∧ p.params = [] ∧ canStop s = true) ∧
    (∃ (s : State) (p : Packet), Takes false p s ∧ p.params = [] ∧ canStop s = false) ∧
    (∃ (s : State) (p : Packet) (b : Byte), Takes false p s ∧ p.params = [b] ∧ b.toNat < 32 ∧ (s.glob.st = .run ∨ s.glob.st = .standby) ∧ has s.seq.offhold b.toNat = true) ∧
    (∃ (s : State) (p : Packet) (b : Byte), Takes false p s ∧ p.params = [b] ∧ b.toNat < 32 ∧ (s.glob.st = .run ∨ s.glob.st = .standby) ∧ has s.seq.offhold b.toNat = false) ∧
    (∃ (s : State) (p : Packet), Takes false p s ∧ p.params = [] ∧ s.glob.st = .run ∧ wakeDue s = false) ∧
    (∃ (s : State) (p : Packet), Takes false p s ∧ p.params = [] ∧ s.glob.st = .run ∧ wakeDue s = true) ∧
    (∃ (s : State) (p : Packet), Takes false p s ∧ p.params = [] ∧ s.glob.st = .standby ∧ s.pwr.fromRun = true) ∧
    (∃ (s : State) (p : Packet), Takes false p s ∧ p.params = [] ∧ (s.glob.st = .run ∨ s.glob.st = .standby) ∧ s.pwr.req = none ∧ s.glob.floor = false ∧ (lv s (key 0x44 0)).toNat / 2 % 4 ≠ 0 ∧ 3000 ≤ vsysNow s ∧ anyWakeEn s = true ∧ wakeDue s = false ∧ s.rl.en = 0) ∧
    (∃ (s : State) (p : Packet), Takes false p s ∧ p.params = [] ∧ (s.glob.st = .run ∨ s.glob.st = .standby) ∧ s.pwr.req = none ∧ s.glob.floor = false ∧ (lv s (key 0x44 0)).toNat / 2 % 4 ≠ 0 ∧ 3000 ≤ vsysNow s ∧ wakeDue s = false ∧ s.rl.en ≠ 0) ∧
    (∃ (s : State) (p : Packet) (c : Instr), Takes false p s ∧ ((c = .sleepEnter p) ∨ (c = .shipEnter p)) ∧ p.params = [] ∧ (s.glob.st = .run ∨ s.glob.st = .standby) ∧ s.pwr.req = none ∧ s.glob.floor = false ∧ ((lv s (key 0x44 0)).toNat / 2 % 4 = 0 ∨ vsysNow s < 3000)) ∧
    (∃ (s : State) (p : Packet), Takes false p s ∧ p.params = [] ∧ (s.glob.st = .run ∨ s.glob.st = .standby) ∧ s.pwr.req = none ∧ s.glob.floor = false ∧ (lv s (key 0x44 0)).toNat / 2 % 4 ≠ 0 ∧ 3000 ≤ vsysNow s ∧ anyWakeEn s = false) ∧
    (∃ (s : State), anvilOn s = true ∧ s.glob.st = .standby ∧ s.pwr.idle = true ∧ s.pwr.req = none ∧ s.inp.a.qual = false ∧ s.inp.b.qual = false ∧ pl s (key 0x60 1) ≠ 0 ∧ wakeDue s = false ∧ s.rl.en = 0) ∧
    (∃ (s : State), anvilOn s = true ∧ s.pwr.req = some ⟨false, true⟩ ∧ sleepWriting s = false ∧ wakeDue s = false) ∧
    (∃ (s : State), anvilOn s = true ∧ s.pwr.req = some ⟨true, true⟩ ∧ sleepWriting s = false ∧ wakeDue s = false) ∧
    (∃ (s : State), sleepWriting s = true) ∧
    (∃ (s : State) (b : Bool), anvilOn s = true ∧ s.pwr.req = some ⟨b, true⟩ ∧ sleepWriting s = false ∧ wakeDue s = true ∧ s.glob.st = .run) :=
    ⟨⟨(let s := up; let s := mkTakes false s; let s := { s with glob.st := .run }; s), ({ n := 3, tag := 0x05#8, len := 0x00#8, params := [] } : Packet), ⟨by decide +kernel, by decide, by decide, by decide +kernel, by decide, by decide +kernel⟩, by decide +kernel⟩,
    ⟨(let s := up; let s := mkTakes false s; let s := { s with glob.st := .standby }; let s := { s with pwr.idle := true }; let s := { s with pwr.req := none }; let s := { s with glob.boot := false }; let s := setLiveBits (key 0x20 0x44) 0 1 1 { s with inp.a.qual := true }; s), ((let p : Packet := { n := 3, tag := 0x05#8, len := 0x00#8, params := [] }; ({ (p : Packet) with params := [], n := 3, len := 0 } : Packet)) : Packet), ⟨by decide +kernel, by decide, by decide, by decide +kernel, by decide, by decide +kernel⟩, by decide +kernel⟩,
    ⟨(let s := up; let s := mkTakes false s; s), ({ n := 3, tag := 0x05#8, len := 0x00#8, params := [] } : Packet), ⟨by decide +kernel, by decide, by decide, by decide +kernel, by decide, by decide +kernel⟩, by decide +kernel⟩,
    ⟨(let s := up; let s := mkTakes false s; let s := { s with glob.st := .safe }; s), ({ n := 3, tag := 0x05#8, len := 0x00#8, params := [] } : Packet), ⟨by decide +kernel, by decide, by decide, by decide +kernel, by decide, by decide +kernel⟩, by decide +kernel⟩,
    ⟨(let b : Byte := 31; let s := up; let s := mkTakes false s; let s := { s with glob.st := if s.cyc.cnt.getLsbD 5 then .run else .standby }; let s := { s with seq.offhold := setBit s.seq.offhold b.toNat true }; s), (⟨4, 2, 1, [31]⟩ : Packet), (31 : Byte), ⟨by decide +kernel, by decide, by decide, by decide +kernel, by decide, by decide +kernel⟩, by decide +kernel⟩,
    ⟨(let b : Byte := 31; let s := up; let s := mkTakes false s; let s := { s with glob.st := if s.cyc.cnt.getLsbD 5 then .run else .standby }; let s := { s with seq.offhold := setBit s.seq.offhold b.toNat false }; s), (⟨4, 2, 1, [31]⟩ : Packet), (31 : Byte), ⟨by decide +kernel, by decide, by decide, by decide +kernel, by decide, by decide +kernel⟩, by decide +kernel⟩,
    ⟨(let s := up; let s := mkTakes false s; let s := { s with glob.st := .run }; let s := { s with pwr.wl := 0 }; s), ({ n := 3, tag := 0x05#8, len := 0x00#8, params := [] } : Packet), ⟨by decide +kernel, by decide, by decide, by decide +kernel, by decide, by decide +kernel⟩, by decide +kernel⟩,
    ⟨(let s := up; let s := mkTakes false s; let s := { s with glob.st := .run }; let s := setPlainBits (key 0x60 0) 2 3 7 { s with pwr.wl := 7 }; s), ({ n := 3, tag := 0x05#8, len := 0x00#8, params := [] } : Packet), ⟨by decide +kernel, by decide, by decide, by decide +kernel, by decide, by decide +kernel⟩, by decide +kernel⟩,
    ⟨(let s := up; let s := mkTakes false s; let s := { s with glob.st := .standby }; let s := { s with pwr.fromRun := true }; s), ({ n := 3, tag := 0x05#8, len := 0x00#8, params := [] } : Packet), ⟨by decide +kernel, by decide, by decide, by decide +kernel, by decide, by decide +kernel⟩, by decide +kernel⟩,
    ⟨(let s := up; let s := mkTakes false s; let s := { s with glob.st := if s.cyc.cnt.getLsbD 5 then .run else .standby }; let s := { s with pwr.req := none }; let s := { s with glob.floor := false }; let s := setLiveBits (key 0x44 0) 1 2 2 s; let s := { s with glob.vsys := 3000, hk.valid := 0 }; let s := setPlainBits (key 0x60 0) 2 3 7 { s with pwr.wl := 0 }; let s := { s with pwr.wl := 0 }; let s := { s with rl.en := 0 }; s), ({ n := 3, tag := 0x05#8, len := 0x00#8, params := [] } : Packet), ⟨by decide +kernel, by decide, by decide, by decide +kernel, by decide, by decide +kernel⟩, by decide +kernel⟩,
    ⟨(let s := up; let s := mkTakes false s; let s := { s with glob.st := if s.cyc.cnt.getLsbD 5 then .run else .standby }; let s := { s with pwr.req := none }; let s := { s with glob.floor := false }; let s := setLiveBits (key 0x44 0) 1 2 2 s; let s := { s with glob.vsys := 3000, hk.valid := 0 }; let s := { s with pwr.wl := 0 }; let s := { s with rl.en := 5 }; s), ({ n := 3, tag := 0x05#8, len := 0x00#8, params := [] } : Packet), ⟨by decide +kernel, by decide, by decide, by decide +kernel, by decide, by decide +kernel⟩, by decide +kernel⟩,
    ⟨(let s := up; let s := mkTakes false s; let s := { s with glob.st := if s.cyc.cnt.getLsbD 5 then .run else .standby }; let s := { s with pwr.req := none }; let s := { s with glob.floor := false }; let s := { s with glob.vsys := 2999, hk.valid := 0 }; s), ({ n := 3, tag := 0x05#8, len := 0x00#8, params := [] } : Packet), ((let p : Packet := { n := 3, tag := 0x05#8, len := 0x00#8, params := [] }; .sleepEnter p) : Instr), ⟨by decide +kernel, by decide, by decide, by decide +kernel, by decide, by decide +kernel⟩, by decide +kernel⟩,
    ⟨(let s := up; let s := mkTakes false s; let s := { s with glob.st := if s.cyc.cnt.getLsbD 5 then .run else .standby }; let s := { s with pwr.req := none }; let s := { s with glob.floor := false }; let s := setLiveBits (key 0x44 0) 1 2 2 s; let s := { s with glob.vsys := 3000, hk.valid := 0 }; let s := noWake s; s), ({ n := 3, tag := 0x05#8, len := 0x00#8, params := [] } : Packet), ⟨by decide +kernel, by decide, by decide, by decide +kernel, by decide, by decide +kernel⟩, by decide +kernel⟩,
    ⟨(let s := up; let s := mkAnvil s; let s := { s with glob.st := .standby }; let s := { s with pwr.idle := true }; let s := { s with pwr.req := none }; let s := { s with inp.a.qual := false }; let s := { s with inp.b.qual := false }; let s := { s with pwr.wl := 0 }; let s := { s with rl.en := 0 }; let s := putPlain (key 0x60 1) [3] s; s), by decide +kernel⟩,
    ⟨(let s := up; let s := mkAnvil s; let s := { s with pwr.req := some ⟨false, true⟩ }; let s := { s with fl.slot := none, fl.wantGau := 0, fl.wantLog := false, safe.snapHeld := false }; let s := { s with pwr.wl := 0 }; s), by decide +kernel⟩,
    ⟨(let s := up; let s := mkAnvil s; let s := { s with pwr.req := some ⟨true, true⟩ }; let s := { s with fl.slot := none, fl.wantGau := 0, fl.wantLog := false, safe.snapHeld := false }; let s := { s with pwr.wl := 0 }; s), by decide +kernel⟩,
    ⟨(let s := up; let s := { s with fl.wantGau := 1, fl.ro := 0 }; s), by decide +kernel⟩,
    ⟨(let b : Bool := false; let s := up; let s := mkAnvil s; let s := { s with pwr.req := some ⟨b, true⟩ }; let s := { s with fl.slot := none, fl.wantGau := 0, fl.wantLog := false, safe.snapHeld := false }; let s := setPlainBits (key 0x60 0) 2 3 7 { s with pwr.wl := 7 }; let s := { s with glob.st := .run }; s), (false : Bool), by decide +kernel⟩⟩

/-- `HostReads`. -/
theorem witness_HostReads :
    (∃ (s : State) (code : Byte), Served s ∧ pecOn s = false ∧ code.toNat < 0xE0) ∧
    (∃ (s : State) (code : Byte), busUp s = true ∧ listed code = false) ∧
    (∃ (s : State), Served s ∧ pecOn s = false) ∧
    (∃ (s : State), Served s ∧ pecOn s = false) ∧
    (∃ (s : State), Served s ∧ pecOn s = false) ∧
    (∃ (o : Nat) (s : State), o ≤ 0xDF) ∧
    (∃ (s : State), Served s ∧ pecOn s = false) ∧
    (∃ (s : State) (code : Byte), Served s ∧ pecOn s = false ∧ code.toNat < 0xE0 ∧ allocated s.regs.page.toNat = false) ∧
    (∃ (s : State) (code : Byte), Served s ∧ pecOn s = false ∧ code.toNat < 0x60 ∧ stagedPages.contains s.regs.page.toNat = true ∧ wideAt s.regs.page.toNat code.toNat = none) ∧
    (∃ (s : State) (code : Byte), Served s ∧ pecOn s = false ∧ 0x80 ≤ code.toNat ∧ code.toNat < 0xE0 ∧ stagedPages.contains s.regs.page.toNat = true ∧ wideAt s.regs.page.toNat code.toNat = none) ∧
    (∃ (s : State) (code : Byte) (u : _) (n : _), Served s ∧ pecOn s = false ∧ code.toNat < 0xE0 ∧ allocated s.regs.page.toNat = true ∧ wideAt s.regs.page.toNat code.toNat = some (code.toNat, n) ∧ u = readEffect s.regs.page.toNat code.toNat (ackAccess s)) ∧
    (∃ (s : State) (code : Byte) (b : Nat) (n : Nat) (hi : List Byte), Served s ∧ pecOn s = false ∧ code.toNat < 0xE0 ∧ allocated s.regs.page.toNat = true ∧ wideAt s.regs.page.toNat code.toNat = some (b, n) ∧ code.toNat ≠ b ∧ s.regs.latch = some (key s.regs.page.toNat b, hi)) :=
    ⟨⟨(let s := up; let s := mkServed s; let s := setPlainBits (key 0x4C 0) 0 1 0 s; s), (0xDF : Byte), ⟨by decide +kernel, by decide +kernel⟩, by decide +kernel⟩,
    ⟨(let s := up; let s := mkServed s; s), (0xE5 : Byte), by decide +kernel⟩,
    ⟨(let s := up; let s := mkServed s; let s := setPlainBits (key 0x4C 0) 0 1 0 s; s), ⟨by decide +kernel, by decide +kernel⟩, by decide +kernel⟩,
    ⟨(let s := up; let s := mkServed s; let s := setPlainBits (key 0x4C 0) 0 1 0 s; s), ⟨by decide +kernel, by decide +kernel⟩, by decide +kernel⟩,
    ⟨(let s := up; let s := mkServed s; let s := setPlainBits (key 0x4C 0) 0 1 0 s; s), ⟨by decide +kernel, by decide +kernel⟩, by decide +kernel⟩,
    ⟨(0xDF : Nat), up, by decide +kernel⟩,
    ⟨(let s := up; let s := mkServed s; let s := setPlainBits (key 0x4C 0) 0 1 0 s; s), ⟨by decide +kernel, by decide +kernel⟩, by decide +kernel⟩,
    ⟨(let s := up; let s := mkServed s; let s := setPlainBits (key 0x4C 0) 0 1 0 s; let s := { s with regs.page := 9 }; s), (0xDF : Byte), ⟨by decide +kernel, by decide +kernel⟩, by decide +kernel⟩,
    ⟨(let s := up; let s := mkServed s; let s := setPlainBits (key 0x4C 0) 0 1 0 s; let s := setPlainBits (key 0x4C 0) 0 1 0 ({ mkServed s with regs.page := BitVec.ofNat 8 (stagedPages.getD (s.cyc.cnt.toNat % 12) 2), txn.cur := none }); s), ((let code : Byte := 0x9d#8; (BitVec.ofNat 8 (code.toNat % 0x60))) : Byte), ⟨by decide +kernel, by decide +kernel⟩, by decide +kernel⟩,
    ⟨(let s := up; let s := mkServed s; let s := setPlainBits (key 0x4C 0) 0 1 0 s; let s := setPlainBits (key 0x4C 0) 0 1 0 ({ mkServed s with regs.page := BitVec.ofNat 8 (stagedPages.getD (s.cyc.cnt.toNat % 12) 2), txn.cur := none }); s), ((let code : Byte := 0x9d#8; (BitVec.ofNat 8 (0x80 + code.toNat % 0x60))) : Byte), ⟨by decide +kernel, by decide +kernel⟩, by decide +kernel⟩,
    ⟨(let s := up; let s := mkServed s; let s := setPlainBits (key 0x4C 0) 0 1 0 s; let s := setPlainBits (key 0x4C 0) 0 1 0 ({ mkServed s with regs.page := BitVec.ofNat 8 ([0,1,2,0x10,0x14,0x20,0x23,0x28,0x30,0x31,0x32,0x39,0x3A,0x3B,0x3C,0x40,0x44,0x45,0x48,0x4C,0x4D,0x50,0x51,0x56,0x58,0x59,0x5C,0x60].getD ((s.cyc.cnt.toNat + s.regs.page.toNat + s.free) % 28) 2) }); s), ((let code : Byte := 0x01#8; (BitVec.ofNat 8 (2 * (code.toNat % 0x40)))) : Byte), (let code : Byte := 0x01#8; let s := (let s := up; let s := mkServed s; let s := setPlainBits (key 0x4C 0) 0 1 0 s; let s := setPlainBits (key 0x4C 0) 0 1 0 ({ mkServed s with regs.page := BitVec.ofNat 8 ([0,1,2,0x10,0x14,0x20,0x23,0x28,0x30,0x31,0x32,0x39,0x3A,0x3B,0x3C,0x40,0x44,0x45,0x48,0x4C,0x4D,0x50,0x51,0x56,0x58,0x59,0x5C,0x60].getD ((s.cyc.cnt.toNat + s.regs.page.toNat + s.free) % 28) 2) }); s); (readEffect s.regs.page.toNat (2 * (code.toNat % 0x40)) (ackAccess s))), (let code : Byte := 0x01#8; let s := (let s := up; let s := mkServed s; let s := setPlainBits (key 0x4C 0) 0 1 0 s; let s := setPlainBits (key 0x4C 0) 0 1 0 ({ mkServed s with regs.page := BitVec.ofNat 8 ([0,1,2,0x10,0x14,0x20,0x23,0x28,0x30,0x31,0x32,0x39,0x3A,0x3B,0x3C,0x40,0x44,0x45,0x48,0x4C,0x4D,0x50,0x51,0x56,0x58,0x59,0x5C,0x60].getD ((s.cyc.cnt.toNat + s.regs.page.toNat + s.free) % 28) 2) }); s); (((wideAt s.regs.page.toNat (2 * (code.toNat % 0x40))).getD (0,0)).2)), ⟨by decide +kernel, by decide +kernel⟩, by decide +kernel⟩,
    ⟨(let s := up; let s := { mkServed s with regs.page := 0x39, regs.latch := some (key 0x39 0, [7, 9]) }; let s := setPlainBits (key 0x4C 0) 0 1 0 s; s), (1 : Byte), (0 : Nat), (2 : Nat), ([7, 9] : List Byte), ⟨by decide +kernel, by decide +kernel⟩, by decide +kernel⟩⟩

/-- `RegisterWrites`. -/
theorem witness_RegisterWrites :
    (∃ (s : State) (o : Byte) (v : Byte) (b : _), Served s ∧ pecOn s = false ∧ stagedPages.contains s.regs.page.toNat = true ∧ o.toNat < 0x60 ∧ wideField s.regs.page.toNat o.toNat = none ∧ byteFields s.regs.page.toNat o.toNat ≠ [] ∧ pageLocked s s.regs.page.toNat = false ∧ mergeByte (byteFields s.regs.page.toNat o.toNat) (fun _ => true) (sg s (stKey s s.regs.page.toNat o.toNat)) v = (b, false)) ∧
    (∃ (s : State) (o : Byte) (v : Byte) (b : _), Served s ∧ pecOn s = false ∧ stagedPages.contains s.regs.page.toNat = true ∧ o.toNat < 0x60 ∧ wideField s.regs.page.toNat o.toNat = none ∧ byteFields s.regs.page.toNat o.toNat ≠ [] ∧ pageLocked s s.regs.page.toNat = false ∧ mergeByte (byteFields s.regs.page.toNat o.toNat) (fun _ => true) (sg s (stKey s s.regs.page.toNat o.toNat)) v = (b, true)) ∧
    (∃ (s : State), Served s ∧ pecOn s = false ∧ s.regs.page = 0x20 ∧ pageLocked s 0x20 = false) ∧
    (∃ (s : State) (o : Byte), Served s ∧ pecOn s = false ∧ stagedPages.contains s.regs.page.toNat = true ∧ o.toNat < 0xE0 ∧ (o.toNat < 0x60 ∧ pageLocked s s.regs.page.toNat = true ∨ 0x80 ≤ o.toNat)) ∧
    (∃ (s : State) (o : Byte) (f : Fd) (i : Nat), Served s ∧ pecOn s = false ∧ stagedPages.contains s.regs.page.toNat = true ∧ o.toNat < 0x60 ∧ pageLocked s s.regs.page.toNat = false ∧ wideField s.regs.page.toNat o.toNat = some f ∧ f.len = 2 ∧ (o.toNat = f.off ∧ i = f.off + 1 ∨ o.toNat = f.off + 1 ∧ i = f.off) ∧ heldAt s (key s.regs.page.toNat i) = none) ∧
    (∃ (s : State) (o : Byte) (v : Byte) (u : Byte) (f : Fd), Served s ∧ pecOn s = false ∧ stagedPages.contains s.regs.page.toNat = true ∧ o.toNat < 0x60 ∧ pageLocked s s.regs.page.toNat = false ∧ wideField s.regs.page.toNat o.toNat = some f ∧ f.len = 2 ∧ f.w = 16 ∧ o.toNat = f.off + 1 ∧ heldAt s (key s.regs.page.toNat f.off) = some u ∧ f.legal (leNat [u, v]) = true) ∧
    (∃ (s : State) (o : Byte), Served s ∧ pecOn s = false ∧ o.toNat < 0xE0 ∧ s.bus.level = 0 ∧ (fieldsOf s.regs.page.toNat).any (fun f => decide (f.acc = .lk ∧ f.off ≤ o.toNat ∧ o.toNat < f.off + f.len)) = true) ∧
    (∃ (s : State) (v : Byte), Served s ∧ pecOn s = false ∧ s.bus.level ≠ 0 ∧ s.regs.page = 0x24 ∧ v ≠ 0) ∧
    (∃ (s : State) (o : Byte), Served s ∧ pecOn s = false ∧ o.toNat < 0xE0 ∧ allocated s.regs.page.toNat = false) ∧
    (∃ (s : State) (w : BusWrite) (op : Byte) (tag : Byte) (len : Byte) (ps : List Byte) (c : Instr), packetsTaken s = true ∧ w.code = 0xE0 ∧ w.proto = .block ∧ w.data = op :: tag :: len :: ps ∧ w.count ≠ 0 ∧ w.count ≤ 64 ∧ slotFree s = true ∧ pecFails s w.pec = false ∧ packetCommand op ⟨w.count, tag, len, ps⟩ s = some c) ∧
    (∃ (s : State) (w : BusWrite) (op : Byte) (tag : Byte) (len : Byte) (ps : List Byte), packetsTaken s = true ∧ w.code = 0xE0 ∧ w.proto = .block ∧ w.data = op :: tag :: len :: ps ∧ w.count ≤ 64 ∧ w.count = len.toNat + 3 ∧ slotFree s = true ∧ pecFails s w.pec = false ∧ packetCommand op ⟨w.count, tag, len, ps⟩ s = none) ∧
    (∃ (s : State), Served s) ∧
    (∃ (s : State), Served s) ∧
    (∃ (s : State) (g : Fin 64) (v : Word) (b : Fin 16), Served s ∧ isPend s (16 * g.val + b.val) = true ∧ v.getLsbD b.val = false ∧ (routeOf s (16 * g.val + b.val)).toNat ≤ 4) ∧
    (∃ (s : State) (v : Word) (b : Fin 16), Served s ∧ v.getLsbD b.val = true) ∧
    (∃ (s : State) (v : Byte), Served s ∧ routeReserved (v.toNat % 16) = false ∧ routeReserved (v.toNat / 16) = false) ∧
    (∃ (s : State) (v : Byte), Served s ∧ (routeReserved (v.toNat % 16) = true ∨ routeReserved (v.toNat / 16) = true)) ∧
    (∃ (s : State) (v : Byte) (k : Nat), Served s ∧ v.toNat < 32 ∧ v ≠ 0 ∧ k < 1024 ∧ isPend s k = true ∧ isMasked s k = false ∧ routeOf s k = 8 ∧ mget 0 s.irq.asg k = 0) ∧
    (∃ (s : State) (v : Byte), Served s ∧ v.toNat < 32) ∧
    (∃ (s : State), Served s) ∧
    (∃ (s : State), Served s) ∧
    (∃ (s : State) (v : Byte) (b : Fin 8), Served s ∧ s.glob.st = .run ∧ v.getLsbD b.val = true) ∧
    (∃ (s : State) (q : Fin 4), armedAhead (.intPulseEnd q) s = false) ∧
    (∃ (s : State) (k : Fin 1024), fwOn s = true ∧ deliveredTo s k.val = some 4 ∧ logWaits s k.val = false) ∧
    (∃ (s : State) (k : Fin 1024), deliveredTo s k.val ≠ some 4) :=
    ⟨⟨(let s := up; let s := mkServed s; let s := setPlainBits (key 0x4C 0) 0 1 0 s; let s := setPlainBits (key 0x4C 0) 0 1 0 ({ mkServed s with regs.page := BitVec.ofNat 8 (stagedPages.getD (s.cyc.cnt.toNat % 12) 2), txn.cur := none }); s), ((let o : Byte := 0x00#8; (BitVec.ofNat 8 (o.toNat % 0x60))) : Byte), (0x00#8 : Byte), (let o : Byte := 0x00#8; let v : Byte := 0x00#8; let s := (let s := up; let s := mkServed s; let s := setPlainBits (key 0x4C 0) 0 1 0 s; let s := setPlainBits (key 0x4C 0) 0 1 0 ({ mkServed s with regs.page := BitVec.ofNat 8 (stagedPages.getD (s.cyc.cnt.toNat % 12) 2), txn.cur := none }); s); ((mergeByte (byteFields s.regs.page.toNat (o.toNat % 0x60)) (fun _ => true) (sg s (stKey s s.regs.page.toNat (o.toNat % 0x60))) v).1)), ⟨by decide +kernel, by decide +kernel⟩, by decide +kernel⟩,
    ⟨(let s := up; let s := mkServed s; let s := setPlainBits (key 0x4C 0) 0 1 0 s; let s := setPlainBits (key 0x4C 0) 0 1 0 ({ mkServed s with regs.page := BitVec.ofNat 8 (stagedPages.getD (s.cyc.cnt.toNat % 12) 2), txn.cur := none }); s), ((let o : Byte := 0x00#8; (BitVec.ofNat 8 (o.toNat % 0x60))) : Byte), (0x9d#8 : Byte), (let o : Byte := 0x00#8; let v : Byte := 0x9d#8; let s := (let s := up; let s := mkServed s; let s := setPlainBits (key 0x4C 0) 0 1 0 s; let s := setPlainBits (key 0x4C 0) 0 1 0 ({ mkServed s with regs.page := BitVec.ofNat 8 (stagedPages.getD (s.cyc.cnt.toNat % 12) 2), txn.cur := none }); s); ((mergeByte (byteFields s.regs.page.toNat (o.toNat % 0x60)) (fun _ => true) (sg s (stKey s s.regs.page.toNat (o.toNat % 0x60))) v).1)), ⟨by decide +kernel, by decide +kernel⟩, by decide +kernel⟩,
    ⟨(let s := up; let s := mkServed s; let s := setPlainBits (key 0x4C 0) 0 1 0 s; let s := { s with regs.page := 0x20 }; s), ⟨by decide +kernel, by decide +kernel⟩, by decide +kernel⟩,
    ⟨(let s := up; let s := mkServed s; let s := setPlainBits (key 0x4C 0) 0 1 0 s; let s := updC (fun c => { c with scope := 0xFFF }) (setPlainBits (key 0x4C 0) 0 1 0 { mkServed s with regs.page := BitVec.ofNat 8 (stagedPages.getD (s.cyc.cnt.toNat % 12) 2) }); s), (0x80 : Byte), ⟨by decide +kernel, by decide +kernel⟩, by decide +kernel⟩,
    ⟨(let s := up; let s := { mkServed s with regs.page := 2 }; let s := setPlainBits (key 0x4C 0) 0 1 0 s; s), (20 : Byte), ((wideField 2 20).getD ⟨0, 2, 0, 16, .rw, 0, []⟩ : Fd), (21 : Nat), ⟨by decide +kernel, by decide +kernel⟩, by decide +kernel⟩,
    ⟨(let s := up; let s := { mkServed s with regs.page := 2 }; let s := setPlainBits (key 0x4C 0) 0 1 0 s; let s := { s with regs.held := [(key 2 20, 1)] }; s), (21 : Byte), (1 : Byte), (1 : Byte), ((wideField 2 20).getD ⟨0, 2, 0, 16, .rw, 0, []⟩ : Fd), ⟨by decide +kernel, by decide +kernel⟩, by decide +kernel⟩,
    ⟨(let s := up; let s := { mkServed s with regs.page := 0x24, bus.level := 0 }; let s := setPlainBits (key 0x4C 0) 0 1 0 s; s), (4 : Byte), ⟨by decide +kernel, by decide +kernel⟩, by decide +kernel⟩,
    ⟨(let s := up; let s := mkServed s; let s := setPlainBits (key 0x4C 0) 0 1 0 s; let s := { s with regs.page := 0x24 }; let s := setPlainBits (key 0x4C 0) 0 1 0 { mkServed s with regs.page := 0x24, bus.level := 1 + s.cyc.cnt.toNat % 2 }; s), (0x9d#8 : Byte), ⟨by decide +kernel, by decide +kernel⟩, by decide +kernel⟩,
    ⟨(let s := up; let s := mkServed s; let s := setPlainBits (key 0x4C 0) 0 1 0 s; let s := { s with regs.page := 9 }; s), (0xDF : Byte), ⟨by decide +kernel, by decide +kernel⟩, by decide +kernel⟩,
    ⟨(let s := up; let s := { mkServed s with bus.cstat := 3 }; let s := setPlainBits (key 0x4C 0) 0 1 0 s; s), (⟨0xE0, .block, 5, [1, 9, 2, 7, 8], .good⟩ : BusWrite), (0x01 : Byte), (9 : Byte), (2 : Byte), ([7, 8] : List Byte), (.echo ⟨5, 9, 2, [7, 8]⟩ : Instr), by decide +kernel⟩,
    ⟨(let s := up; let s := { mkServed s with bus.cstat := 3 }; let s := setPlainBits (key 0x4C 0) 0 1 0 s; s), (⟨0xE0, .block, 5, [0xFE, 9, 2, 7, 8], .good⟩ : BusWrite), (0xFE : Byte), (9 : Byte), (2 : Byte), ([7, 8] : List Byte), by decide +kernel⟩,
    ⟨(let s := up; let s := mkServed s; s), ⟨by decide +kernel, by decide +kernel⟩⟩,
    ⟨(let s := up; let s := mkServed s; s), ⟨by decide +kernel, by decide +kernel⟩⟩,
    ⟨(let g : Fin 64 := 0; let v : Word := 0x749d#16; let b : Fin 16 := 1; let s := up; let s := mkServed s; let s := { s with irq.pend := mput 0 s.irq.pend (((16 * g.val + b.val)) / 16) (setBit (mget 0 s.irq.pend (((16 * g.val + b.val)) / 16)) (((16 * g.val + b.val)) % 16) true) }; let s := { s with irq.route := mput 0 s.irq.route (16 * g.val + b.val) (BitVec.ofNat 4 (v.toNat % 5)) }; s), (0 : Fin 64), (0x749d#16 : Word), (1 : Fin 16), ⟨by decide +kernel, by decide +kernel⟩, by decide +kernel⟩,
    ⟨(let s := up; let s := mkServed s; s), (0x749d#16 : Word), (0 : Fin 16), ⟨by decide +kernel, by decide +kernel⟩, by decide +kernel⟩,
    ⟨(let s := up; let s := mkServed s; s), (0x00#8 : Byte), ⟨by decide +kernel, by decide +kernel⟩, by decide +kernel⟩,
    ⟨(let s := up; let s := mkServed s; s), (0x9d#8 : Byte), ⟨by decide +kernel, by decide +kernel⟩, by decide +kernel⟩,
    ⟨(let k : Nat := 1; let s := up; let s := mkServed s; let s := { s with irq.pend := mput 0 s.irq.pend (((k % 1024)) / 16) (setBit (mget 0 s.irq.pend (((k % 1024)) / 16)) (((k % 1024)) % 16) true) }; let s := { s with irq.rrnext := s.irq.rrnext % 5, irq.route := mput 0 s.irq.route (k % 1024) 8, irq.asg := mput 0 s.irq.asg (k % 1024) 0, irq.mask := mput 0xFFFF s.irq.mask ((k % 1024)/16) 0 }; s), ((let v : Byte := 0x9d#8; (1 ||| v % 32)) : Byte), ((let k : Nat := 1; (k % 1024)) : Nat), ⟨by decide +kernel, by decide +kernel⟩, by decide +kernel⟩,
    ⟨(let s := up; let s := mkServed s; s), (31 : Byte), ⟨by decide +kernel, by decide +kernel⟩, by decide +kernel⟩,
    ⟨(let s := up; let s := mkServed s; s), ⟨by decide +kernel, by decide +kernel⟩⟩,
    ⟨(let s := up; let s := mkServed s; s), ⟨by decide +kernel, by decide +kernel⟩⟩,
    ⟨(let s := up; let s := mkServed s; let s := { s with glob.st := .run }; s), (0x9d#8 : Byte), (0 : Fin 8), ⟨by decide +kernel, by decide +kernel⟩, by decide +kernel⟩,
    ⟨up, (0 : Fin 4), by decide +kernel⟩,
    ⟨(let k : Fin 1024 := 0; let s := up; let s := mkServed s; let s := { s with irq.pend := mput 0 s.irq.pend (k.val / 16) (setBit (mget 0 s.irq.pend (k.val / 16)) (k.val % 16) true), irq.mask := mput 0xFFFF s.irq.mask (k.val/16) 0, irq.route := mput 0 s.irq.route k.val 4 }; s), (0 : Fin 1024), by decide +kernel⟩,
    ⟨up, (0 : Fin 1024), by decide +kernel⟩⟩

/-- `HostWritesAndSleepResponder`. -/
theorem witness_HostWritesAndSleepResponder :
    (∃ (s : State), Served s ∧ pecOn s = false ∧ s.regs.page = 1) ∧
    (∃ (s : State), Served s ∧ pecOn s = false ∧ s.regs.page = 1 ∧ s.glob.buserr.getLsbD 0 = false) ∧
    (∃ (s : State) (w : BusWrite), busUp s = true ∧ listed w.code = false) ∧
    (∃ (s : State), Served s) ∧
    (∃ (s : State) (v : Word), Served s ∧ v.toNat ≤ 511) ∧
    (∃ (s : State) (v : Word), Served s ∧ 511 < v.toNat ∧ s.glob.buserr.getLsbD 1 = false) ∧
    (∃ (s : State), busUp s = true) ∧
    (∃ (s : State), Served s) ∧
    (∃ (s : State), busUp s = true ∧ pecOn s = false) ∧
    (∃ (s : State) (v : Byte), s.glob.st = .sleep ∧ vaonOn s = true ∧ (v = 0x00 ∨ v = 0x48 ∨ v = 0x60)) ∧
    (∃ (s : State) (v : Byte), s.glob.st = .sleep ∧ vaonOn s = true ∧ (¬(v = 0x00 ∨ v = 0x48 ∨ v = 0x60))) ∧
    (∃ (s : State) (w : BusWrite), s.glob.st = .sleep ∧ vaonOn s = true ∧ w.code ≠ 0xF0 ∧ (0xE0 ≤ w.code.toNat ∨ sleepWritesAt s.regs.page.toNat w.code.toNat = false)) :=
    ⟨⟨(let s := up; let s := mkServed s; let s := setPlainBits (key 0x4C 0) 0 1 0 s; let s := { s with regs.page := 1 }; s), ⟨by decide +kernel, by decide +kernel⟩, by decide +kernel⟩,
    ⟨(let s := up; let s := mkServed s; let s := setPlainBits (key 0x4C 0) 0 1 0 s; let s := { s with regs.page := 1 }; let s := { s with glob.buserr := setBit s.glob.buserr 0 false }; s), ⟨by decide +kernel, by decide +kernel⟩, by decide +kernel⟩,
    ⟨(let s := up; let s := mkServed s; s), (⟨0xE5, .writeByte, 0, [1], .none⟩ : BusWrite), by decide +kernel⟩,
    ⟨(let s := up; let s := mkServed s; s), ⟨by decide +kernel, by decide +kernel⟩⟩,
    ⟨(let s := up; let s := mkServed s; s), (511 : Word), ⟨by decide +kernel, by decide +kernel⟩, by decide +kernel⟩,
    ⟨(let s := up; let s := mkServed s; let s := { s with glob.buserr := setBit s.glob.buserr 1 false }; s), (512 : Word), ⟨by decide +kernel, by decide +kernel⟩, by decide +kernel⟩,
    ⟨(let s := up; let s := mkServed s; s), by decide +kernel⟩,
    ⟨(let s := up; let s := mkServed s; s), ⟨by decide +kernel, by decide +kernel⟩⟩,
    ⟨(let s := up; let s := mkServed s; let s := setPlainBits (key 0x4C 0) 0 1 0 s; s), by decide +kernel⟩,
    ⟨(let s := up; let s := { s with glob.st := .sleep }; let s := { s with glob.supplied := true, glob.vaonOk := true, glob.clocked := true, otp.sensed := true }; let s := mkSleep s; s), (0x00#8 : Byte), by decide +kernel⟩,
    ⟨(let s := up; let s := { s with glob.st := .sleep }; let s := { s with glob.supplied := true, glob.vaonOk := true, glob.clocked := true, otp.sensed := true }; let s := mkSleep s; s), (0x9d#8 : Byte), by decide +kernel⟩,
    ⟨(let s := up; let s := { s with glob.st := .sleep }; let s := { s with glob.supplied := true, glob.vaonOk := true, glob.clocked := true, otp.sensed := true }; let s := mkSleep s; s), ({ code := 0x40#8, proto := Sys2Proof.Proto.writeByte, count := 0, data := [0x00#8], pec := Sys2Proof.Pec.none } : BusWrite), by decide +kernel⟩⟩

/-- `BusEvents`. -/
theorem witness_BusEvents :
    (∃ (s : State), busUp s = true ∧ (pl s (key 0x4C 0)).getLsbD 1 = true) ∧
    (∃ (s : State), busUp s = true) ∧
    (∃ (s : State), busUp s = true ∧ s.irq.alert = true) ∧
    (∃ (s : State), busUp s = true ∧ s.irq.alert = true) ∧
    (∃ (s : State), mayNotify s = true) ∧
    (∃ (s : State), mayNotify s = true) ∧
    (∃ (s : State), mayNotify s = true ∧ s.bus.hnLost < 2) ∧
    (∃ (s : State), mayNotify s = true) ∧
    (∃ (s : State), Served s) ∧
    (∃ (s : State), Served s) :=
    ⟨⟨(let s := up; let s := mkServed s; let s := setPlainBits (key 0x4C 0) 1 1 (if true then 1 else 0) s; s), by decide +kernel⟩,
    ⟨(let s := up; let s := mkServed s; s), by decide +kernel⟩,
    ⟨(let s := up; let s := mkServed s; let s := { s with irq.alert := true }; s), by decide +kernel⟩,
    ⟨(let s := up; let s := mkServed s; let s := { s with irq.alert := true }; s), by decide +kernel⟩,
    ⟨(let s := up; let s := mkNotify s; s), by decide +kernel⟩,
    ⟨(let s := up; let s := mkNotify s; s), by decide +kernel⟩,
    ⟨(let s := up; let s := mkNotify s; let s := { s with bus.hnLost := 1 }; s), by decide +kernel⟩,
    ⟨(let s := up; let s := mkNotify s; s), by decide +kernel⟩,
    ⟨(let s := up; let s := mkServed s; s), ⟨by decide +kernel, by decide +kernel⟩⟩,
    ⟨(let s := up; let s := mkServed s; s), ⟨by decide +kernel, by decide +kernel⟩⟩⟩

/-- `CommandSlot`. -/
theorem witness_CommandSlot :
    (∃ (s : State) (p : Packet), Takes false p s) ∧
    (∃ (s : State) (p : Packet), Takes false p s ∧ p.params = []) ∧
    (∃ (s : State) (p : Packet), Takes false p s ∧ p.params ≠ []) ∧
    (∃ (s : State), packetsTaken s = false) ∧
    (∃ (s : State) (p : Packet), packetsTaken s = true ∧ accepted 0x01 p s = false ∧ (p.n = 0 ∨ 64 < p.n) ∧ s.glob.buserr.getLsbD 1 = false) ∧
    (∃ (s : State) (p : Packet), packetsTaken s = true ∧ accepted 0x01 p s = false ∧ p.n ≠ 0 ∧ p.n ≤ 64 ∧ slotFree s = false) ∧
    (∃ (s : State) (p : Packet), packetsTaken s = true ∧ p.n ≠ 0 ∧ p.n ≤ 64 ∧ slotFree s = true ∧ p.n ≠ p.len.toNat + 3) ∧
    (∃ (s : State) (p : Packet), Takes false p s ∧ s.bus.level = 0) :=
    ⟨⟨(let s := up; let s := mkTakes false s; s), ({ n := 3, tag := 0x05#8, len := 0x00#8, params := [] } : Packet), ⟨by decide +kernel, by decide, by decide, by decide +kernel, by decide, by decide +kernel⟩⟩,
    ⟨(let s := up; let s := mkTakes false s; s), ({ n := 3, tag := 0x05#8, len := 0x00#8, params := [] } : Packet), ⟨by decide +kernel, by decide, by decide, by decide +kernel, by decide, by decide +kernel⟩, by decide +kernel⟩,
    ⟨(let s := up; let s := mkTakes false s; s), ({ n := 17, tag := 0x04#8, len := 0x0e#8, params := [0xff#8, 0x0f#8, 0x04#8, 0x07#8, 0x64#8, 0x00#8, 0x00#8, 0x00#8, 0x00#8, 0x00#8, 0x00#8, 0x00#8, 0x00#8, 0x00#8] } : Packet), ⟨by decide +kernel, by decide, by decide, by decide +kernel, by decide, by decide +kernel⟩, by decide +kernel⟩,
    ⟨(let s := up; let s := { s with glob.fwup := false }; s), by decide +kernel⟩,
    ⟨(let s := up; let s := mkServed s; let s := { s with glob.buserr := setBit s.glob.buserr 1 false }; let s := mkTakes false s; s), (⟨65, 3, 62, []⟩ : Packet), by decide +kernel⟩,
    ⟨(let s := up; let s := mkServed s; let s := { s with bus.cstat := 2 }; s), (⟨64, 3, 61, []⟩ : Packet), by decide +kernel⟩,
    ⟨(let s := up; let s := mkServed s; s), ({ n := 1, tag := 0x03#8, len := 0x01#8, params := [0x01#8, 0x02#8] } : Packet), by decide +kernel⟩,
    ⟨(let s := up; let s := mkTakes false s; let s := { s with bus.level := 0 }; s), ({ n := 3, tag := 0x05#8, len := 0x00#8, params := [] } : Packet), ⟨by decide +kernel, by decide, by decide, by decide +kernel, by decide, by decide +kernel⟩, by decide +kernel⟩⟩

/-- `Sessions`. -/
theorem witness_Sessions :
    (∃ (s : State) (p : Packet) (v : Byte), Takes false p s ∧ p.params = [v] ∧ (v = 1 ∨ v = 2) ∧ s.bus.level = 0 ∧ s.bus.lock = false ∧ (¬(∀ i, i < 64 → fuse s.otp.shd 4 i = 0))) ∧
    (∃ (s : State) (p : Packet) (n : List Byte) (l : Nat), Takes false p s ∧ s.bus.nonce = some (n, l) ∧ p.params.length = 16 ∧ s.bus.lock = false ∧ p.params = sessionProof ((List.range 64).map (fuse s.otp.shd 4)) n l) ∧
    (∃ (s : State) (p : Packet) (n : List Byte) (l : Nat), Takes false p s ∧ s.bus.nonce = some (n, l) ∧ p.params.length = 16 ∧ s.bus.lock = false ∧ p.params ≠ sessionProof ((List.range 64).map (fuse s.otp.shd 4)) n l) ∧
    (∃ (s : State) (p : Packet), Takes false p s) ∧
    (∃ (s : State), anvilOn s = true ∧ s.bus.level ≠ 0) ∧
    (∃ (s : State), s.bus.lock = true) :=
    ⟨⟨(let s := up; let s := mkTakes false s; let s := { s with bus.level := 0 }; let s := { s with bus.lock := false }; let s := { s with otp.shd := mput 0 s.otp.shd 256 3 }; s), ({ n := 4, tag := 0x02#8, len := 0x01#8, params := [0x01#8] } : Packet), (0x01#8 : Byte), ⟨by decide +kernel, by decide, by decide, by decide +kernel, by decide, by decide +kernel⟩, by decide +kernel⟩,
    ⟨(let n : List Byte := [7]; let l : Nat := 1; let s := up; let s := mkTakes false s; let s := { s with bus.nonce := some (n, l) }; let s := { s with bus.lock := false }; s), ((let p : Packet := ⟨19, 2, 16, []⟩; let n : List Byte := [7]; let l : Nat := 1; let s := (let n : List Byte := [7]; let l : Nat := 1; let s := up; let s := mkTakes false s; let s := { s with bus.nonce := some (n, l) }; let s := { s with bus.lock := false }; s); ({ (p : Packet) with params := sessionProof ((List.range 64).map (fuse s.otp.shd 4)) n l, n := 19, len := 16 } : Packet)) : Packet), ([7] : List Byte), (1 : Nat), ⟨by decide +kernel, by decide, by decide, by decide +kernel, by decide, by decide +kernel⟩, by decide +kernel⟩,
    ⟨(let n : List Byte := [7]; let l : Nat := 1; let s := up; let s := mkTakes false s; let s := { s with bus.nonce := some (n, l) }; let s := { s with bus.lock := false }; let s := { mkTakes false s with bus.nonce := some (n, l), bus.lock := false }; s), (⟨19, 2, 16, List.replicate 16 0⟩ : Packet), ([7] : List Byte), (1 : Nat), ⟨by decide +kernel, by decide, by decide, by decide +kernel, by decide, by decide +kernel⟩, by decide +kernel⟩,
    ⟨(let s := up; let s := mkTakes false s; s), ({ n := 3, tag := 0x05#8, len := 0x00#8, params := [] } : Packet), ⟨by decide +kernel, by decide, by decide, by decide +kernel, by decide, by decide +kernel⟩⟩,
    ⟨(let s := up; let s := mkAnvil { s with bus.level := 1 }; s), by decide +kernel⟩,
    ⟨(let s := up; let s := { s with bus.lock := true }; s), by decide +kernel⟩⟩

/-- `DownstreamPort`. -/
theorem witness_DownstreamPort :
    (∃ (s : State) (p : Packet) (a : _) (w : _) (q : _) (bs : _), Takes false p s ∧ p.params = a :: w :: q :: bs ∧ a.msb = false ∧ w.toNat ≤ 58 ∧ q.toNat ≤ 64 ∧ bs.length = w.toNat ∧ (pl s (key 0x4D 0)).getLsbD 0 = true ∧ s.ds.failed = false) ∧
    (∃ (s : State) (p : Packet) (a : _) (w : _) (q : _) (bs : _), Takes false p s ∧ p.params = a :: w :: q :: bs ∧ (a.msb = true ∨ 58 < w.toNat ∨ 64 < q.toNat ∨ bs.length ≠ w.toNat)) ∧
    (∃ (s : State) (j : DsJob), fwOn s = true ∧ s.ds.clearing = 0 ∧ s.ds.poll = none ∧ s.ds.pollDue = false ∧ s.ds.job = some j ∧ slotHas s 0x03 = true) ∧
    (∃ (s : State) (j : DsJob) (c : Instr) (r : Nat) (k : Nat), fwOn s = true ∧ s.ds.clearing = 0 ∧ s.ds.poll = none ∧ s.ds.pollDue = false ∧ s.ds.job = some j ∧ slotHas s 0x03 = true ∧ 3 ≤ j.tries ∧ ((c = .dsXferDone (.lost .data) ∧ r = 4 ∧ k = 914) ∨ (c = .dsXferDone (.lost .stop) ∧ r = 4 ∧ k = 915) ∨ (c = .dsXferDone (.lost .restart) ∧ r = 4 ∧ k = 916))) ∧
    (∃ (s : State) (j : DsJob), fwOn s = true ∧ s.ds.clearing = 0 ∧ s.ds.poll = none ∧ s.ds.job = some j ∧ j.tries < 3) ∧
    (∃ (s : State) (k : Nat), mayPoll s = true ∧ nextPoll s = some k) ∧
    (∃ (s : State) (k : Nat), mayPoll s = true ∧ nextPoll s = some k ∧ s.ds.bad.getLsbD k = false) ∧
    (∃ (s : State) (j : DsJob), portOn s = true ∧ s.ds.failed = false ∧ s.ds.poll = none ∧ s.ds.pollDue = false ∧ s.ds.job = some j ∧ slotHas s 0x03 = true) ∧
    (∃ (s : State), portOn s = true ∧ s.ds.failed = false ∧ (pl s (key 0x4D 2)).getLsbD 7 = false) ∧
    (∃ (s : State), Running s ∧ portOn s = true ∧ s.ds.failed = false ∧ (pl s (key 0x4D 2)).getLsbD 7 = true) ∧
    (∃ (s : State), portOn s = true ∧ s.ds.failed = false ∧ s.ds.pollDue = false ∧ (s.ds.clearing = 0 ∨ s.ds.clearing = 3)) ∧
    (∃ (s : State), portOn s = true ∧ s.ds.failed = false ∧ (s.ds.clearing = 0 ∨ s.ds.clearing = 3)) ∧
    (∃ (s : State), portOn s = true ∧ s.ds.clearing = 1 ∧ s.ds.pollDue = false) ∧
    (∃ (s : State), portOn s = true ∧ s.ds.clearing = 1 ∧ s.ds.failed = false ∧ (pl s (key 0x4D 2)).getLsbD 7 = false) ∧
    (∃ (s : State), Running s ∧ s.ds.cut = true ∧ s.ds.cutSet &&& ~~~s.rl.en = 0) ∧
    (∃ (s : State), Served s) ∧
    (∃ (s : State) (j : DsJob) (c : Instr) (r : Nat) (k : Nat), fwOn s = true ∧ s.ds.clearing = 0 ∧ s.ds.poll = none ∧ s.ds.pollDue = false ∧ s.ds.job = some j ∧ slotHas s 0x03 = true ∧ ((c = .dsXferDone .nackAddr ∧ r = 2 ∧ k = 912) ∨ (c = .dsXferDone .nackData ∧ r = 3 ∧ k = 913))) ∧
    (∃ (s : State), portOn s = true ∧ s.ds.failed = false ∧ (s.ds.clearing = 0 ∨ s.ds.clearing = 3)) ∧
    (∃ (s : State) (k : _), mayPoll s = true ∧ nextPoll s = some k) ∧
    (∃ (s : State) (m : _) (r : Rail), Running s ∧ s.ds.cut = true ∧ m = maskOf (fun x => has s.ds.cutSet x && !has s.rl.en x && !heldRail s x) ∧ has m r.val = true) :=
    ⟨⟨(let s := up; let s := mkTakes false s; let s := setPlainBits (key 0x4D 0) 0 1 (if true then 1 else 0) s; let s := { s with ds.failed := false }; s), (⟨64, 5, 61, 3 :: 58 :: 64 :: List.replicate 58 0⟩ : Packet), (let p : Packet := ⟨64, 5, 61, 3 :: 58 :: 64 :: List.replicate 58 0⟩; (p.params.getD 0 0)), (let p : Packet := ⟨64, 5, 61, 3 :: 58 :: 64 :: List.replicate 58 0⟩; (p.params.getD 1 0)), (let p : Packet := ⟨64, 5, 61, 3 :: 58 :: 64 :: List.replicate 58 0⟩; (p.params.getD 2 0)), (let p : Packet := ⟨64, 5, 61, 3 :: 58 :: 64 :: List.replicate 58 0⟩; (p.params.drop 3)), ⟨by decide +kernel, by decide, by decide, by decide +kernel, by decide, by decide +kernel⟩, by decide +kernel⟩,
    ⟨(let s := up; let s := mkTakes false s; s), ({ n := 17, tag := 0x04#8, len := 0x0e#8, params := [0xff#8, 0x0f#8, 0x04#8, 0x07#8, 0x64#8, 0x00#8, 0x00#8, 0x00#8, 0x00#8, 0x00#8, 0x00#8, 0x00#8, 0x00#8, 0x00#8] } : Packet), (let p : Packet := { n := 17, tag := 0x04#8, len := 0x0e#8, params := [0xff#8, 0x0f#8, 0x04#8, 0x07#8, 0x64#8, 0x00#8, 0x00#8, 0x00#8, 0x00#8, 0x00#8, 0x00#8, 0x00#8, 0x00#8, 0x00#8] }; (p.params.getD 0 0)), (let p : Packet := { n := 17, tag := 0x04#8, len := 0x0e#8, params := [0xff#8, 0x0f#8, 0x04#8, 0x07#8, 0x64#8, 0x00#8, 0x00#8, 0x00#8, 0x00#8, 0x00#8, 0x00#8, 0x00#8, 0x00#8, 0x00#8] }; (p.params.getD 1 0)), (let p : Packet := { n := 17, tag := 0x04#8, len := 0x0e#8, params := [0xff#8, 0x0f#8, 0x04#8, 0x07#8, 0x64#8, 0x00#8, 0x00#8, 0x00#8, 0x00#8, 0x00#8, 0x00#8, 0x00#8, 0x00#8, 0x00#8] }; (p.params.getD 2 0)), (let p : Packet := { n := 17, tag := 0x04#8, len := 0x0e#8, params := [0xff#8, 0x0f#8, 0x04#8, 0x07#8, 0x64#8, 0x00#8, 0x00#8, 0x00#8, 0x00#8, 0x00#8, 0x00#8, 0x00#8, 0x00#8, 0x00#8] }; (p.params.drop 3)), ⟨by decide +kernel, by decide, by decide, by decide +kernel, by decide, by decide +kernel⟩, by decide +kernel⟩,
    ⟨(let j : DsJob := { addr := 3, wr := [0x00#8, 0xb9#8, 0x34#8], q := 1, tries := 3, pec := some 0x07#8 }; let s := up; let s := mkServed s; let s := { s with ds.clearing := 0 }; let s := { s with ds.poll := none }; let s := { s with ds.pollDue := false }; let s := { s with ds.job := some j }; let s := { s with bus.cstat := 2, bus.op := 0x03 }; s), ({ addr := 3, wr := [0x00#8, 0xb9#8, 0x34#8], q := 1, tries := 3, pec := some 0x07#8 } : DsJob), by decide +kernel⟩,
    ⟨(let j : DsJob := { addr := 3, wr := [0x00#8, 0xb9#8, 0x34#8], q := 1, tries := 3, pec := some 0x07#8 }; let s := up; let s := mkServed s; let s := { s with ds.clearing := 0 }; let s := { s with ds.poll := none }; let s := { s with ds.pollDue := false }; let s := { s with ds.job := some j }; let s := { s with bus.cstat := 2, bus.op := 0x03 }; s), ({ addr := 3, wr := [0x00#8, 0xb9#8, 0x34#8], q := 1, tries := 3, pec := some 0x07#8 } : DsJob), (.dsXferDone (.lost .data) : Instr), (4 : Nat), (914 : Nat), by decide +kernel⟩,
    ⟨(let j : DsJob := { addr := 3, wr := [0x00#8, 0xb9#8, 0x34#8], q := 1, tries := 0, pec := some 0x07#8 }; let s := up; let s := mkServed s; let s := { s with ds.clearing := 0 }; let s := { s with ds.poll := none }; let s := { s with ds.job := some j }; s), ({ addr := 3, wr := [0x00#8, 0xb9#8, 0x34#8], q := 1, tries := 0, pec := some 0x07#8 } : DsJob), by decide +kernel⟩,
    ⟨(let s := up; let s := { setPlainBits (key 0x4D 0x14) 7 1 1 (putPlain (key 0x4D 4) [5] (setPlainBits (key 0x4D 0) 0 1 1 (mkServed s))) with ds.failed := false, ds.job := none, ds.clearing := 0 }; s), (4 : Nat), by decide +kernel⟩,
    ⟨(let k : Nat := 4; let s := up; let s := { setPlainBits (key 0x4D 0x14) 7 1 1 (putPlain (key 0x4D 4) [5] (setPlainBits (key 0x4D 0) 0 1 1 (mkServed s))) with ds.failed := false, ds.job := none, ds.clearing := 0 }; let s := { s with ds.bad := setBit s.ds.bad k false }; s), (4 : Nat), by decide +kernel⟩,
    ⟨(let j : DsJob := { addr := 3, wr := [0x00#8, 0xb9#8, 0x34#8], q := 1, tries := 3, pec := some 0x07#8 }; let s := up; let s := setPlainBits (key 0x4D 0) 0 1 1 (mkServed s); let s := { s with ds.failed := false }; let s := { s with ds.poll := none }; let s := { s with ds.pollDue := false }; let s := { s with ds.job := some j }; let s := { s with bus.cstat := 2, bus.op := 0x03 }; s), ({ addr := 3, wr := [0x00#8, 0xb9#8, 0x34#8], q := 1, tries := 3, pec := some 0x07#8 } : DsJob), by decide +kernel⟩,
    ⟨(let s := up; let s := setPlainBits (key 0x4D 0) 0 1 1 (mkServed s); let s := { s with ds.failed := false }; let s := setPlainBits (key 0x4D 2) 7 1 (if false then 1 else 0) s; s), by decide +kernel⟩,
    ⟨(let s := up; let s := setPlainBits (key 0x4D 0) 0 1 1 (mkServed s); let s := { mkAnvil s with glob.st := .run, glob.boot := false }; let s := { s with ds.failed := false }; let s := setPlainBits (key 0x4D 2) 7 1 (if true then 1 else 0) s; s), ⟨by decide +kernel, by decide +kernel, by decide +kernel⟩, by decide +kernel⟩,
    ⟨(let s := up; let s := setPlainBits (key 0x4D 0) 0 1 1 (mkServed s); let s := { s with ds.failed := false }; let s := { s with ds.pollDue := false }; s), by decide +kernel⟩,
    ⟨(let s := up; let s := setPlainBits (key 0x4D 0) 0 1 1 (mkServed s); let s := { s with ds.failed := false }; s), by decide +kernel⟩,
    ⟨(let s := up; let s := setPlainBits (key 0x4D 0) 0 1 1 (mkServed s); let s := { s with ds.clearing := 1 }; let s := { s with ds.pollDue := false }; s), by decide +kernel⟩,
    ⟨(let s := up; let s := setPlainBits (key 0x4D 0) 0 1 1 (mkServed s); let s := { s with ds.clearing := 1 }; let s := { s with ds.failed := false }; let s := setPlainBits (key 0x4D 2) 7 1 (if false then 1 else 0) s; s), by decide +kernel⟩,
    ⟨(let s := up; let s := { mkAnvil s with glob.st := .run, glob.boot := false }; let s := { s with ds.cut := true }; let s := { mkAnvil s with glob.st := .run, glob.boot := false, ds.cut := true, ds.cutSet := s.ds.cutSet &&& s.rl.en }; s), ⟨by decide +kernel, by decide +kernel, by decide +kernel⟩, by decide +kernel⟩,
    ⟨(let s := up; let s := mkServed s; s), ⟨by decide +kernel, by decide +kernel⟩⟩,
    ⟨(let j : DsJob := { addr := 3, wr := [0x00#8, 0xb9#8, 0x34#8], q := 1, tries := 3, pec := some 0x07#8 }; let s := up; let s := mkServed s; let s := { s with ds.clearing := 0 }; let s := { s with ds.poll := none }; let s := { s with ds.pollDue := false }; let s := { s with ds.job := some j }; let s := { s with bus.cstat := 2, bus.op := 0x03 }; s), ({ addr := 3, wr := [0x00#8, 0xb9#8, 0x34#8], q := 1, tries := 3, pec := some 0x07#8 } : DsJob), (.dsXferDone .nackAddr : Instr), (2 : Nat), (912 : Nat), by decide +kernel⟩,
    ⟨(let s := up; let s := setPlainBits (key 0x4D 0) 0 1 1 (mkServed s); let s := { s with ds.failed := false }; s), by decide +kernel⟩,
    ⟨(let s := up; let s := { setPlainBits (key 0x4D 0x14) 7 1 1 (putPlain (key 0x4D 4) [5] (setPlainBits (key 0x4D 0) 0 1 1 (mkServed s))) with ds.failed := false, ds.job := none, ds.clearing := 0 }; let s := { s with ds.poll := none }; s), (let s := (let s := up; let s := { setPlainBits (key 0x4D 0x14) 7 1 1 (putPlain (key 0x4D 4) [5] (setPlainBits (key 0x4D 0) 0 1 1 (mkServed s))) with ds.failed := false, ds.job := none, ds.clearing := 0 }; let s := { s with ds.poll := none }; s); ((nextPoll s).getD 0)), by decide +kernel⟩,
    ⟨(let r : Rail := 0; let s := up; let s := { mkAnvil s with glob.st := .run, glob.boot := false }; let s := { s with ds.cut := true }; let s := { s with ds.cut := true, ds.cutSet := setBit (s.ds.cutSet ||| s.rl.en) r.val true, rl.en := setBit (s.rl.en &&& s.rl.up) r.val false, seq.offhold := 0 }; s), (let s := (let r : Rail := 0; let s := up; let s := { mkAnvil s with glob.st := .run, glob.boot := false }; let s := { s with ds.cut := true }; let s := { s with ds.cut := true, ds.cutSet := setBit (s.ds.cutSet ||| s.rl.en) r.val true, rl.en := setBit (s.rl.en &&& s.rl.up) r.val false, seq.offhold := 0 }; s); (maskOf (fun x => has s.ds.cutSet x && !has s.rl.en x && !heldRail s x))), (0 : Rail), ⟨by decide +kernel, by decide +kernel, by decide +kernel⟩, by decide +kernel⟩⟩

/-- `SelfReset`. -/
theorem witness_SelfReset :
    (∃ (s : State) (p : Packet), Takes false p s ∧ p.params = [] ∧ (s.glob.st = .run ∨ s.glob.st = .standby) ∧ s.glob.boot = false) ∧
    (∃ (s : State) (p : Packet), Takes false p s ∧ (p.params ≠ [] ∨ (s.glob.st ≠ .run ∧ s.glob.st ≠ .standby))) :=
    ⟨⟨(let s := up; let s := mkTakes false s; let s := { s with glob.st := if s.cyc.cnt.getLsbD 5 then .run else .standby }; let s := { s with glob.boot := false }; let s := { mkTakes false s with rl.up := s.rl.up &&& s.seq.retryWait, rl.en := if s.cyc.cnt.getLsbD 3 then 0 else s.rl.en, glob.boot := false, glob.st := .run }; s), ({ n := 3, tag := 0x05#8, len := 0x00#8, params := [] } : Packet), ⟨by decide +kernel, by decide, by decide, by decide +kernel, by decide, by decide +kernel⟩, by decide +kernel⟩,
    ⟨(let s := up; let s := mkTakes false s; s), ({ n := 17, tag := 0x04#8, len := 0x0e#8, params := [0xff#8, 0x0f#8, 0x04#8, 0x07#8, 0x64#8, 0x00#8, 0x00#8, 0x00#8, 0x00#8, 0x00#8, 0x00#8, 0x00#8, 0x00#8, 0x00#8] } : Packet), ⟨by decide +kernel, by decide, by decide, by decide +kernel, by decide, by decide +kernel⟩, by decide +kernel⟩⟩

/-- `Delivery`. -/
theorem witness_Delivery :
    (∃ (s : State), s.glob.floor = false) :=
    ⟨(let s := up; let s := { s with glob.floor := false }; s), by decide +kernel⟩

/-- `FlashStore`. -/
theorem witness_FlashStore :
    (∃ (s : State), Landable s (200 + (snapSecond s).toNat) ∧ fwOn s = true ∧ s.fl.slot = some .snap ∧ readOnly 200 s = false) ∧
    (∃ (s : State) (c : CfgImg), Landable s (192 + 4 * (cfgSecond s).toNat) ∧ fwOn s = true ∧ s.fl.slot = some .cfg ∧ s.fl.capture = some c ∧ readOnly 192 s = false) ∧
    (∃ (s : State) (c : CfgImg), Landable s (192 + 4 * (cfgSecond s).toNat) ∧ fwOn s = true ∧ s.fl.slot = some .cfg ∧ s.fl.capture = some c ∧ readOnly 192 s = false ∧ freeSpares s ≠ []) ∧
    (∃ (s : State), Landable s (202 + (patSecond s).toNat) ∧ fwOn s = true ∧ s.fl.slot = some .pat ∧ readOnly 202 s = false) ∧
    (∃ (s : State), Landable s (204 + (gauSecond s).toNat) ∧ fwOn s = true ∧ s.fl.slot = some .gauge ∧ readOnly 204 s = false) ∧
    (∃ (s : State) (n : Nat), fwOn s = true ∧ s.fl.slot = some (.scrub n) ∧ (sector s n).marginBad = false) ∧
    (∃ (s : State) (n : Nat), fwOn s = true ∧ s.fl.slot = some (.scrub n) ∧ (sector s n).retired = false ∧ (sector s n).blank = false) ∧
    (∃ (s : State), s.fl.slot = none) ∧
    (∃ (s : State), Served s ∧ s.fl.cfgSt ≠ 1 ∧ s.fl.ro.getLsbD 2 = false) ∧
    (∃ (s : State), Served s ∧ s.fl.cfgSt = 1) ∧
    (∃ (s : State), Served s ∧ s.fl.cfgSt ≠ 1 ∧ s.fl.ro.getLsbD 2 = true) ∧
    (∃ (s : State), s.fl.scrubDue = false ∧ s.glob.supplied = true ∧ s.glob.st ≠ .ship) ∧
    (∃ (s : State), fwOn s = true ∧ s.fl.scrubDue = true ∧ s.fl.late = false ∧ s.fl.scrubSince + sec 3600 < s.clk.now) ∧
    (∃ (s : State) (c : CfgImg), fwOn s = true ∧ s.fl.slot = some .cfg ∧ s.fl.capture = some c ∧ readOnly 192 s = true ∧ s.upd.want = none) :=
    ⟨⟨(let s := up; let s := mkServed s; let s := { s with fl.slot := some .snap }; let s := setSector (physical s ((200 + (snapSecond s).toNat))) { sector s (physical s ((200 + (snapSecond s).toNat))) with retired := false, half := none, count := some 7 } s; let s := { s with fl.ro := 0 }; s), ⟨by decide +kernel, by decide +kernel⟩, by decide +kernel⟩,
    ⟨(let c : CfgImg := ⟨3, [], [], [], [], [], 0⟩; let s := up; let s := mkServed s; let s := { s with fl.slot := some .cfg }; let s := { s with fl.capture := some c }; let s := setSector (physical s ((192 + 4 * (cfgSecond s).toNat))) { sector s (physical s ((192 + 4 * (cfgSecond s).toNat))) with retired := false, half := none, count := some 7 } s; let s := { s with fl.ro := 0 }; s), (⟨3, [], [], [], [], [], 0⟩ : CfgImg), ⟨by decide +kernel, by decide +kernel⟩, by decide +kernel⟩,
    ⟨(let c : CfgImg := ⟨3, [], [], [], [], [], 0⟩; let s := up; let s := mkServed s; let s := { s with fl.slot := some .cfg }; let s := { s with fl.capture := some c }; let s := setSector (physical s ((192 + 4 * (cfgSecond s).toNat))) { sector s (physical s ((192 + 4 * (cfgSecond s).toNat))) with retired := false, half := none, count := some 7 } s; let s := { s with fl.ro := 0 }; s), (⟨3, [], [], [], [], [], 0⟩ : CfgImg), ⟨by decide +kernel, by decide +kernel⟩, by decide +kernel⟩,
    ⟨(let s := up; let s := mkServed s; let s := { s with fl.slot := some .pat }; let s := setSector (physical s ((202 + (patSecond s).toNat))) { sector s (physical s ((202 + (patSecond s).toNat))) with retired := false, half := none, count := some 7 } s; let s := { s with fl.ro := 0 }; s), ⟨by decide +kernel, by decide +kernel⟩, by decide +kernel⟩,
    ⟨(let s := up; let s := mkServed s; let s := { s with fl.slot := some .gauge }; let s := setSector (physical s ((204 + (gauSecond s).toNat))) { sector s (physical s ((204 + (gauSecond s).toNat))) with retired := false, half := none, count := some 7 } s; let s := { s with fl.ro := 0 }; s), ⟨by decide +kernel, by decide +kernel⟩, by decide +kernel⟩,
    ⟨(let n : Nat := 1; let s := up; let s := mkServed s; let s := { s with fl.slot := some (.scrub n) }; s), (1 : Nat), by decide +kernel⟩,
    ⟨(let n : Nat := 1; let s := up; let s := mkServed s; let s := { s with fl.slot := some (.scrub n) }; let s := setSector n { sector s n with retired := false } s; let s := setSector n { sector s n with blank := false } s; s), (1 : Nat), by decide +kernel⟩,
    ⟨(let s := up; let s := { s with fl.slot := none }; s), by decide +kernel⟩,
    ⟨(let s := up; let s := mkServed s; let s := { s with fl.ro := setBit s.fl.ro 2 false }; s), ⟨by decide +kernel, by decide +kernel⟩, by decide +kernel⟩,
    ⟨(let s := up; let s := mkServed s; let s := { s with fl.cfgSt := 1 }; s), ⟨by decide +kernel, by decide +kernel⟩, by decide +kernel⟩,
    ⟨(let s := up; let s := mkServed s; let s := { s with fl.ro := setBit s.fl.ro 2 true }; s), ⟨by decide +kernel, by decide +kernel⟩, by decide +kernel⟩,
    ⟨(let s := up; let s := { s with fl.scrubDue := false }; let s := { s with glob.supplied := true }; s), by decide +kernel⟩,
    ⟨(let s := up; let s := mkServed { s with fl.scrubDue := true, fl.scrubSince := 0, clk.now := 7200000001 }; s), by decide +kernel⟩,
    ⟨(let c : CfgImg := { seq := 3, staged := [(573, 0x06#8), (4129, 0xdf#8), (4244, 0x5f#8), (4609, 0xff#8), (4745, 0x08#8), (4865, 0x39#8), (5133, 0x06#8), (5285, 0xfb#8), (8710, 0xa7#8), (8894, 0x10#8), (9397, 0xff#8), (10247, 0x08#8), (10255, 0x01#8), (10273, 0x32#8), (12806, 0xb1#8), (14600, 0x26#8), (14802, 0x04#8), (14897, 0x74#8), (15131, 0x10#8), (18433, 0x08#8), (19458, 0x10#8), (19715, 0x08#8), (19922, 0xff#8), (20755, 0x06#8), (20880, 0x01#8), (22533, 0x03#8)], plain := [(358, 0xff#8), (412, 0xff#8), (4130, 0x6b#8), (4152, 0x00#8), (4375, 0x60#8), (4614, 0x00#8), (4793, 0xff#8), (4870, 0x7e#8), (8711, 0xff#8), (9070, 0x07#8), (9219, 0xaa#8), (9249, 0x46#8), (10312, 0xa5#8), (12963, 0xff#8), (14605, 0x98#8), (15024, 0xe0#8), (15053, 0xff#8), (15160, 0xb2#8), (15515, 0x17#8), (16553, 0xff#8), (17618, 0xdc#8), (19556, 0x08#8), (19720, 0x05#8), (20681, 0x07#8), (22902, 0x04#8), (23041, 0xff#8), (23078, 0x33#8), (24587, 0x10#8)], sched := [(2, 0x00000007#32), (31, 0xffffffff#32), (35, 0x00000004#32)], mask := [(35, 0xe0d6#16)], route := [(4, 0x8#4), (19, 0x3#4), (20, 0x8#4), (30, 0xd#4), (31, 0xf#4)], txnappl := 0x00#8 }; let s := up; let s := mkServed s; let s := { s with fl.slot := some .cfg }; let s := { s with fl.capture := some c }; let s := { s with fl.ro := BitVec.allOnes _ }; let s := { s with upd.want := none }; s), ({ seq := 3, staged := [(573, 0x06#8), (4129, 0xdf#8), (4244, 0x5f#8), (4609, 0xff#8), (4745, 0x08#8), (4865, 0x39#8), (5133, 0x06#8), (5285, 0xfb#8), (8710, 0xa7#8), (8894, 0x10#8), (9397, 0xff#8), (10247, 0x08#8), (10255, 0x01#8), (10273, 0x32#8), (12806, 0xb1#8), (14600, 0x26#8), (14802, 0x04#8), (14897, 0x74#8), (15131, 0x10#8), (18433, 0x08#8), (19458, 0x10#8), (19715, 0x08#8), (19922, 0xff#8), (20755, 0x06#8), (20880, 0x01#8), (22533, 0x03#8)], plain := [(358, 0xff#8), (412, 0xff#8), (4130, 0x6b#8), (4152, 0x00#8), (4375, 0x60#8), (4614, 0x00#8), (4793, 0xff#8), (4870, 0x7e#8), (8711, 0xff#8), (9070, 0x07#8), (9219, 0xaa#8), (9249, 0x46#8), (10312, 0xa5#8), (12963, 0xff#8), (14605, 0x98#8), (15024, 0xe0#8), (15053, 0xff#8), (15160, 0xb2#8), (15515, 0x17#8), (16553, 0xff#8), (17618, 0xdc#8), (19556, 0x08#8), (19720, 0x05#8), (20681, 0x07#8), (22902, 0x04#8), (23041, 0xff#8), (23078, 0x33#8), (24587, 0x10#8)], sched := [(2, 0x00000007#32), (31, 0xffffffff#32), (35, 0x00000004#32)], mask := [(35, 0xe0d6#16)], route := [(4, 0x8#4), (19, 0x3#4), (20, 0x8#4), (30, 0xd#4), (31, 0xf#4)], txnappl := 0x00#8 } : CfgImg), by decide +kernel⟩⟩

/-- `EventLog`. -/
theorem witness_EventLog :
    (∃ (s : State) (e : LogRec), fwOn s = true ∧ s.fl.slot = some .log ∧ s.fl.queue = [e] ∧ s.fl.closes = [] ∧ e.kind ≠ 0 ∧ s.fl.run = 0 ∧ s.fl.erasing = none ∧ s.fl.ro.getLsbD 7 = false ∧ s.fl.log.length < 29439) ∧
    (∃ (s : State) (e : LogRec), fwOn s = true ∧ s.fl.slot = some .log ∧ s.fl.queue = [e] ∧ s.fl.closes = [] ∧ e.kind = 0 ∧ s.fl.run = 0 ∧ s.fl.erasing = none ∧ s.fl.opens = [⟨e.src, 0, 7⟩]) ∧
    (∃ (s : State) (k : Fin 1024) (o : OpenRec), fwOn s = true ∧ s.fl.opens.find? (fun x => decide (x.src = k.val)) = some o) ∧
    (∃ (s : State), fwOn s = true ∧ hasAction s 6 = false ∧ s.fl.queue ≠ []) ∧
    (∃ (s : State), fwRuns s = true ∧ s.fl.queue ≠ []) ∧
    (∃ (s : State) (p : Packet) (a : _) (b : _) (n : _), Takes false p s ∧ p.params = [a, b, n] ∧ n ≠ 0 ∧ n.toNat ≤ 32 ∧ leNat [a, b] ≤ 32767) ∧
    (∃ (s : State) (i : Nat) (n : Nat) (k : Nat), fwOn s = true ∧ slotHas s 0x40 = true ∧ s.fl.reading = some (i, n, k) ∧ n ≤ k + 1 ∧ k < n ∧ s.fl.queue = [] ∧ s.fl.closes = []) ∧
    (∃ (s : State) (p : Packet) (a : _) (b : _) (n : _), Takes false p s ∧ p.params = [a, b, n] ∧ (n = 0 ∨ 32 < n.toNat ∨ 32767 < leNat [a, b])) ∧
    (∃ (s : State) (p : Packet), Takes true p s ∧ p.params = [] ∧ s.fl.ro.getLsbD 7 = false ∧ (s.glob.st = .run ∨ s.glob.st = .standby)) ∧
    (∃ (s : State) (p : Packet), Takes true p s ∧ p.params = [] ∧ s.fl.ro.getLsbD 7 = true) ∧
    (∃ (s : State) (n : Nat) (k : Nat) (d : Nat), Landable s (208 + n) ∧ fwOn s = true ∧ s.fl.slot = some (.logErase n) ∧ n ≠ 0 ∧ s.fl.erasing = some (n + 1, k, d)) ∧
    (∃ (s : State) (k : Nat) (d : Nat), Landable s 208 ∧ fwOn s = true ∧ s.fl.slot = some (.logErase 0) ∧ s.fl.erasing = some (1, k, d)) ∧
    (∃ (s : State) (p : Packet), Takes false p s ∧ p.params = [] ∧ s.fl.queue = [] ∧ s.fl.closes = [] ∧ s.fl.opens = []) ∧
    (∃ (s : State) (p : Packet), Takes false p s ∧ p.params = [] ∧ (s.fl.queue ≠ [] ∨ s.fl.closes ≠ [] ∨ s.fl.opens ≠ [])) ∧
    (∃ (s : State) (i : Nat) (n : Nat) (k : Nat), fwOn s = true ∧ slotHas s 0x40 = true ∧ s.fl.reading = some (i, n, k) ∧ k + 1 < n) ∧
    (∃ (s : State), s.pending = []) :=
    ⟨⟨(let e : LogRec := { kind := 5, src := 2, sec := 3, cyc := 224405, rep := 1, data := 0x00000002#32, ok := true, t := 38 }; let s := up; let s := mkServed s; let s := { s with fl.slot := some .log }; let s := { s with fl.queue := [e] }; let s := { s with fl.closes := [] }; let s := { s with fl.run := 0 }; let s := { s with fl.erasing := none }; let s := { s with fl.ro := setBit s.fl.ro 7 false }; s), ({ kind := 5, src := 2, sec := 3, cyc := 224405, rep := 1, data := 0x00000002#32, ok := true, t := 38 } : LogRec), by decide +kernel⟩,
    ⟨(let e : LogRec := { kind := 0, src := 2, sec := 3, cyc := 224405, rep := 1, data := 0x00000002#32, ok := true, t := 38 }; let s := up; let s := mkServed s; let s := { s with fl.slot := some .log }; let s := { s with fl.queue := [e] }; let s := { s with fl.closes := [] }; let s := { s with fl.run := 0 }; let s := { s with fl.erasing := none }; let s := { s with fl.opens := [⟨e.src, 0, 7⟩] }; s), ({ kind := 0, src := 2, sec := 3, cyc := 224405, rep := 1, data := 0x00000002#32, ok := true, t := 38 } : LogRec), by decide +kernel⟩,
    ⟨(let k : Fin 1024 := 0; let o : OpenRec := { src := 3, pos := 2, n := 3 }; let s := up; let s := mkServed s; let s := { s with fl.opens := [((fun (q : OpenRec) => { q with src := k.val }) o)] }; s), (0 : Fin 1024), ((let k : Fin 1024 := 0; let o : OpenRec := { src := 3, pos := 2, n := 3 }; ((fun (q : OpenRec) => { q with src := k.val }) o)) : OpenRec), by decide +kernel⟩,
    ⟨(let s := up; let s := mkServed s; let s := { s with fl.queue := { kind := 2, src := 1, sec := 2, cyc := 3, rep := 0, ok := true, t := 1, data := 3 } :: s.fl.queue }; let s := { s with cyc.bankA := [], cyc.bankB := [] }; s), by decide +kernel⟩,
    ⟨(let s := up; let s := mkRuns s; let s := { s with fl.queue := { kind := 2, src := 1, sec := 2, cyc := 3, rep := 0, ok := true, t := 1, data := 3 } :: s.fl.queue }; let s := { s with cyc.bankA := [(2, 0x00060000)], cyc.bankB := [(2, 0x00060000)] }; s), by decide +kernel⟩,
    ⟨(let s := up; let s := mkTakes false s; s), (⟨6, 2, 3, [0xFF, 0x7F, 32]⟩ : Packet), (let p : Packet := ⟨6, 2, 3, [0xFF, 0x7F, 32]⟩; (p.params.getD 0 0)), (let p : Packet := ⟨6, 2, 3, [0xFF, 0x7F, 32]⟩; (p.params.getD 1 0)), (let p : Packet := ⟨6, 2, 3, [0xFF, 0x7F, 32]⟩; (p.params.getD 2 0)), ⟨by decide +kernel, by decide, by decide, by decide +kernel, by decide, by decide +kernel⟩, by decide +kernel⟩,
    ⟨(let i : Nat := 0; let n : Nat := 3; let k : Nat := 2; let s := up; let s := mkServed s; let s := { s with bus.cstat := 2, bus.op := 0x40 }; let s := { s with fl.reading := some (i, n, k) }; let s := { s with fl.queue := [] }; let s := { s with fl.closes := [] }; let s := { s with fl.reading := some (s.cyc.cnt.toNat % 3, 3, 2) }; s), (0 : Nat), (3 : Nat), (2 : Nat), by decide +kernel⟩,
    ⟨(let s := up; let s := mkTakes false s; s), (⟨6, 2, 3, [0, 0, 33]⟩ : Packet), (let p : Packet := ⟨6, 2, 3, [0, 0, 33]⟩; (p.params.getD 0 0)), (let p : Packet := ⟨6, 2, 3, [0, 0, 33]⟩; (p.params.getD 1 0)), (let p : Packet := ⟨6, 2, 3, [0, 0, 33]⟩; (p.params.getD 2 0)), ⟨by decide +kernel, by decide, by decide, by decide +kernel, by decide, by decide +kernel⟩, by decide +kernel⟩,
    ⟨(let s := up; let s := mkTakes true s; let s := { s with fl.ro := setBit s.fl.ro 7 false }; let s := { s with glob.st := if s.cyc.cnt.getLsbD 5 then .run else .standby }; s), ({ n := 3, tag := 0x05#8, len := 0x00#8, params := [] } : Packet), ⟨by decide +kernel, by decide, by decide, by decide +kernel, by decide, by decide +kernel⟩, by decide +kernel⟩,
    ⟨(let s := up; let s := mkTakes true s; let s := { s with fl.ro := setBit s.fl.ro 7 true }; s), ({ n := 3, tag := 0x05#8, len := 0x00#8, params := [] } : Packet), ⟨by decide +kernel, by decide, by decide, by decide +kernel, by decide, by decide +kernel⟩, by decide +kernel⟩,
    ⟨(let n : Nat := 1; let k : Nat := 1; let d : Nat := 1; let s := up; let s := mkServed s; let s := { s with fl.slot := some (.logErase n) }; let s := { s with fl.erasing := some (n + 1, k, d) }; let s := setSector (physical s ((208 + n))) { sector s (physical s ((208 + n))) with retired := false, half := none, count := some 7 } s; s), (1 : Nat), (1 : Nat), (1 : Nat), ⟨by decide +kernel, by decide +kernel⟩, by decide +kernel⟩,
    ⟨(let k : Nat := 1; let d : Nat := 1; let s := up; let s := mkServed s; let s := { s with fl.slot := some (.logErase 0) }; let s := { s with fl.erasing := some (1, k, d) }; let s := setSector (physical s (208)) { sector s (physical s (208)) with retired := false, half := none, count := some 7 } s; s), (1 : Nat), (1 : Nat), ⟨by decide +kernel, by decide +kernel⟩, by decide +kernel⟩,
    ⟨(let s := up; let s := mkTakes false s; let s := { s with fl.queue := [] }; let s := { s with fl.closes := [] }; let s := { s with fl.opens := [] }; s), ({ n := 3, tag := 0x05#8, len := 0x00#8, params := [] } : Packet), ⟨by decide +kernel, by decide, by decide, by decide +kernel, by decide, by decide +kernel⟩, by decide +kernel⟩,
    ⟨(let s := up; let s := mkTakes false s; let s := { s with fl.opens := [⟨3, 3, 9⟩] }; s), ({ n := 3, tag := 0x05#8, len := 0x00#8, params := [] } : Packet), ⟨by decide +kernel, by decide, by decide, by decide +kernel, by decide, by decide +kernel⟩, by decide +kernel⟩,
    ⟨(let i : Nat := 0; let n : Nat := 3; let k : Nat := 0; let s := up; let s := mkServed s; let s := { s with bus.cstat := 2, bus.op := 0x40 }; let s := { s with fl.reading := some (i, n, k) }; let s := { s with fl.reading := some (s.cyc.cnt.toNat % 3, 3, s.cyc.cnt.toNat % 2) }; s), (0 : Nat), (3 : Nat), (0 : Nat), by decide +kernel⟩,
    ⟨up, by decide +kernel⟩⟩

/-- `HallmarkProgramming`. -/
theorem witness_HallmarkProgramming :
    (∃ (s : State) (p : Packet) (r : _) (b : _) (bs : _), Takes true p s ∧ p.params = r :: b :: bs ∧ bs ≠ [] ∧ bs.length ≤ 8 ∧ r.toNat ≤ 15 ∧ b.toNat + bs.length ≤ 64 ∧ customerRegion r.toNat = true ∧ lockSet s.otp.wl r.toNat = false ∧ has s.rl.pg 0 = true ∧ s.glob.st = .run) ∧
    (∃ (s : State) (p : Packet) (r : _) (b : _) (bs : _), Takes true p s ∧ p.params = r :: b :: bs ∧ (bs = [] ∨ 8 < bs.length ∨ 15 < r.toNat ∨ 64 < b.toNat + bs.length)) ∧
    (∃ (s : State) (p : Packet) (r : _) (b : _) (bs : _), Takes true p s ∧ p.params = r :: b :: bs ∧ bs ≠ [] ∧ bs.length ≤ 8 ∧ r.toNat ≤ 15 ∧ b.toNat + bs.length ≤ 64 ∧ customerRegion r.toNat = false) ∧
    (∃ (s : State) (p : Packet) (r : _) (b : _) (bs : _), Takes true p s ∧ p.params = r :: b :: bs ∧ bs ≠ [] ∧ bs.length ≤ 8 ∧ r.toNat ≤ 15 ∧ b.toNat + bs.length ≤ 64 ∧ customerRegion r.toNat = true ∧ lockSet s.otp.wl r.toNat = true) ∧
    (∃ (s : State) (p : Packet) (r : _) (b : _) (bs : _), Takes true p s ∧ p.params = r :: b :: bs ∧ bs ≠ [] ∧ bs.length ≤ 8 ∧ r.toNat ≤ 15 ∧ b.toNat + bs.length ≤ 64 ∧ customerRegion r.toNat = true ∧ lockSet s.otp.wl r.toNat = false ∧ has s.rl.pg 0 = false) ∧
    (∃ (s : State) (p : Packet) (r : _) (b : _) (bs : _), Takes true p s ∧ p.params = r :: b :: bs ∧ bs ≠ [] ∧ bs.length ≤ 8 ∧ r.toNat ≤ 15 ∧ b.toNat + bs.length ≤ 64 ∧ customerRegion r.toNat = true ∧ lockSet s.otp.wl r.toNat = false ∧ has s.rl.pg 0 = true ∧ s.glob.st = .run ∧ s.otp.tag14 = 0 ∧ (∀ i, i < 64 → fuse s.otp.arr 14 i = 0) ∧ fuseHome s.otp r.toNat = r.toNat) ∧
    (∃ (s : State) (p : Packet) (r : _) (b : _) (bs : _), Takes true p s ∧ p.params = r :: b :: bs ∧ bs ≠ [] ∧ bs.length ≤ 8 ∧ r.toNat ≤ 15 ∧ b.toNat + bs.length ≤ 64 ∧ customerRegion r.toNat = true ∧ lockSet s.otp.wl r.toNat = false ∧ has s.rl.pg 0 = true ∧ s.glob.st = .run ∧ s.otp.tag14 ≠ 0 ∧ s.otp.tag15 ≠ 0) ∧
    (∃ (s : State) (p : Packet) (r : _) (l : _), Takes true p s ∧ p.params = [r, l] ∧ r.toNat ≤ 15 ∧ l ≠ 0 ∧ l.toNat ≤ 3 ∧ customerRegion r.toNat = true ∧ (l.getLsbD 0 = true → lockSet s.otp.wl r.toNat = false) ∧ (l.getLsbD 1 = true → lockSet s.otp.rl r.toNat = false) ∧ has s.rl.pg 0 = true ∧ s.glob.st = .run) ∧
    (∃ (s : State) (p : Packet) (r : _) (l : _), Takes true p s ∧ p.params = [r, l] ∧ r.toNat ≤ 15 ∧ l ≠ 0 ∧ l.toNat ≤ 3 ∧ customerRegion r.toNat = true ∧ lockSet s.otp.wl r.toNat = false ∧ lockSet s.otp.rl r.toNat = false ∧ has s.rl.pg 0 = true ∧ s.glob.st = .run) :=
    ⟨⟨(let p : Packet := { n := 7, tag := 0x02#8, len := 0x04#8, params := [0x03#8, 0x04#8, 0x09#8, 0x07#8] }; let s := up; let s := mkTakes true s; let s := { s with otp.wl := mput 0 s.otp.wl (p.params.getD 0 0).toNat 17 }; let s := { s with rl.pg := setBit s.rl.pg 0 true }; let s := { s with glob.st := .run }; let s := { s with otp.wl := [] }; s), ({ n := 7, tag := 0x02#8, len := 0x04#8, params := [0x03#8, 0x04#8, 0x09#8, 0x07#8] } : Packet), (let p : Packet := { n := 7, tag := 0x02#8, len := 0x04#8, params := [0x03#8, 0x04#8, 0x09#8, 0x07#8] }; (p.params.getD 0 0)), (let p : Packet := { n := 7, tag := 0x02#8, len := 0x04#8, params := [0x03#8, 0x04#8, 0x09#8, 0x07#8] }; (p.params.getD 1 0)), (let p : Packet := { n := 7, tag := 0x02#8, len := 0x04#8, params := [0x03#8, 0x04#8, 0x09#8, 0x07#8] }; (p.params.drop 2)), ⟨by decide +kernel, by decide, by decide, by decide +kernel, by decide, by decide +kernel⟩, by decide +kernel⟩,
    ⟨(let s := up; let s := mkTakes true s; s), ({ n := 17, tag := 0x04#8, len := 0x0e#8, params := [0xff#8, 0x0f#8, 0x04#8, 0x07#8, 0x64#8, 0x00#8, 0x00#8, 0x00#8, 0x00#8, 0x00#8, 0x00#8, 0x00#8, 0x00#8, 0x00#8] } : Packet), (let p : Packet := { n := 17, tag := 0x04#8, len := 0x0e#8, params := [0xff#8, 0x0f#8, 0x04#8, 0x07#8, 0x64#8, 0x00#8, 0x00#8, 0x00#8, 0x00#8, 0x00#8, 0x00#8, 0x00#8, 0x00#8, 0x00#8] }; (p.params.getD 0 0)), (let p : Packet := { n := 17, tag := 0x04#8, len := 0x0e#8, params := [0xff#8, 0x0f#8, 0x04#8, 0x07#8, 0x64#8, 0x00#8, 0x00#8, 0x00#8, 0x00#8, 0x00#8, 0x00#8, 0x00#8, 0x00#8, 0x00#8] }; (p.params.getD 1 0)), (let p : Packet := { n := 17, tag := 0x04#8, len := 0x0e#8, params := [0xff#8, 0x0f#8, 0x04#8, 0x07#8, 0x64#8, 0x00#8, 0x00#8, 0x00#8, 0x00#8, 0x00#8, 0x00#8, 0x00#8, 0x00#8, 0x00#8] }; (p.params.drop 2)), ⟨by decide +kernel, by decide, by decide, by decide +kernel, by decide, by decide +kernel⟩, by decide +kernel⟩,
    ⟨(let s := up; let s := mkTakes true s; s), ({ n := 6, tag := 0x07#8, len := 0x03#8, params := [0x01#8, 0x00#8, 0x02#8] } : Packet), (let p : Packet := { n := 6, tag := 0x07#8, len := 0x03#8, params := [0x01#8, 0x00#8, 0x02#8] }; (p.params.getD 0 0)), (let p : Packet := { n := 6, tag := 0x07#8, len := 0x03#8, params := [0x01#8, 0x00#8, 0x02#8] }; (p.params.getD 1 0)), (let p : Packet := { n := 6, tag := 0x07#8, len := 0x03#8, params := [0x01#8, 0x00#8, 0x02#8] }; (p.params.drop 2)), ⟨by decide +kernel, by decide, by decide, by decide +kernel, by decide, by decide +kernel⟩, by decide +kernel⟩,
    ⟨(let p : Packet := { n := 7, tag := 0x02#8, len := 0x04#8, params := [0x03#8, 0x04#8, 0x09#8, 0x07#8] }; let s := up; let s := mkTakes true s; let s := { s with otp.wl := mput 0 s.otp.wl (p.params.getD 0 0).toNat 7 }; let s := { s with otp.wl := (List.range 16).map (fun i => (i, 0x1F)) }; s), ({ n := 7, tag := 0x02#8, len := 0x04#8, params := [0x03#8, 0x04#8, 0x09#8, 0x07#8] } : Packet), (let p : Packet := { n := 7, tag := 0x02#8, len := 0x04#8, params := [0x03#8, 0x04#8, 0x09#8, 0x07#8] }; (p.params.getD 0 0)), (let p : Packet := { n := 7, tag := 0x02#8, len := 0x04#8, params := [0x03#8, 0x04#8, 0x09#8, 0x07#8] }; (p.params.getD 1 0)), (let p : Packet := { n := 7, tag := 0x02#8, len := 0x04#8, params := [0x03#8, 0x04#8, 0x09#8, 0x07#8] }; (p.params.drop 2)), ⟨by decide +kernel, by decide, by decide, by decide +kernel, by decide, by decide +kernel⟩, by decide +kernel⟩,
    ⟨(let p : Packet := { n := 7, tag := 0x02#8, len := 0x04#8, params := [0x03#8, 0x04#8, 0x09#8, 0x07#8] }; let s := up; let s := mkTakes true s; let s := { s with otp.wl := mput 0 s.otp.wl (p.params.getD 0 0).toNat 17 }; let s := { s with rl.pg := setBit s.rl.pg 0 false }; let s := { s with otp.wl := [] }; s), ({ n := 7, tag := 0x02#8, len := 0x04#8, params := [0x03#8, 0x04#8, 0x09#8, 0x07#8] } : Packet), (let p : Packet := { n := 7, tag := 0x02#8, len := 0x04#8, params := [0x03#8, 0x04#8, 0x09#8, 0x07#8] }; (p.params.getD 0 0)), (let p : Packet := { n := 7, tag := 0x02#8, len := 0x04#8, params := [0x03#8, 0x04#8, 0x09#8, 0x07#8] }; (p.params.getD 1 0)), (let p : Packet := { n := 7, tag := 0x02#8, len := 0x04#8, params := [0x03#8, 0x04#8, 0x09#8, 0x07#8] }; (p.params.drop 2)), ⟨by decide +kernel, by decide, by decide, by decide +kernel, by decide, by decide +kernel⟩, by decide +kernel⟩,
    ⟨(let p : Packet := { n := 7, tag := 0x02#8, len := 0x04#8, params := [0x03#8, 0x04#8, 0x09#8, 0x07#8] }; let s := up; let s := mkTakes true s; let s := { s with otp.wl := mput 0 s.otp.wl (p.params.getD 0 0).toNat 17 }; let s := { s with rl.pg := setBit s.rl.pg 0 true }; let s := { s with glob.st := .run }; let s := { s with otp.tag14 := 0 }; let s := { s with otp.wl := [], otp.tag14 := 0, otp.tag14S := none, otp.tag15S := none, otp.arr := s.otp.arr.filter (fun x => x.1 / 64 ≠ 14) }; s), ({ n := 7, tag := 0x02#8, len := 0x04#8, params := [0x03#8, 0x04#8, 0x09#8, 0x07#8] } : Packet), (let p : Packet := { n := 7, tag := 0x02#8, len := 0x04#8, params := [0x03#8, 0x04#8, 0x09#8, 0x07#8] }; (p.params.getD 0 0)), (let p : Packet := { n := 7, tag := 0x02#8, len := 0x04#8, params := [0x03#8, 0x04#8, 0x09#8, 0x07#8] }; (p.params.getD 1 0)), (let p : Packet := { n := 7, tag := 0x02#8, len := 0x04#8, params := [0x03#8, 0x04#8, 0x09#8, 0x07#8] }; (p.params.drop 2)), ⟨by decide +kernel, by decide, by decide, by decide +kernel, by decide, by decide +kernel⟩, by decide +kernel⟩,
    ⟨(let p : Packet := { n := 7, tag := 0x02#8, len := 0x04#8, params := [0x03#8, 0x04#8, 0x09#8, 0x07#8] }; let s := up; let s := mkTakes true s; let s := { s with otp.wl := mput 0 s.otp.wl (p.params.getD 0 0).toNat 17 }; let s := { s with rl.pg := setBit s.rl.pg 0 true }; let s := { s with glob.st := .run }; let s := { s with otp.wl := [], otp.tag14 := 3, otp.tag15 := 4 }; s), ({ n := 7, tag := 0x02#8, len := 0x04#8, params := [0x03#8, 0x04#8, 0x09#8, 0x07#8] } : Packet), (let p : Packet := { n := 7, tag := 0x02#8, len := 0x04#8, params := [0x03#8, 0x04#8, 0x09#8, 0x07#8] }; (p.params.getD 0 0)), (let p : Packet := { n := 7, tag := 0x02#8, len := 0x04#8, params := [0x03#8, 0x04#8, 0x09#8, 0x07#8] }; (p.params.getD 1 0)), (let p : Packet := { n := 7, tag := 0x02#8, len := 0x04#8, params := [0x03#8, 0x04#8, 0x09#8, 0x07#8] }; (p.params.drop 2)), ⟨by decide +kernel, by decide, by decide, by decide +kernel, by decide, by decide +kernel⟩, by decide +kernel⟩,
    ⟨(let s := up; let s := mkTakes true s; let s := { s with rl.pg := setBit s.rl.pg 0 true }; let s := { s with glob.st := .run }; let s := { s with otp.wl := [], otp.rl := [] }; s), ({ n := 5, tag := 0x03#8, len := 0x02#8, params := [0x03#8, 0x01#8] } : Packet), (let p : Packet := { n := 5, tag := 0x03#8, len := 0x02#8, params := [0x03#8, 0x01#8] }; (p.params.getD 0 0)), (let p : Packet := { n := 5, tag := 0x03#8, len := 0x02#8, params := [0x03#8, 0x01#8] }; (p.params.getD 1 0)), ⟨by decide +kernel, by decide, by decide, by decide +kernel, by decide, by decide +kernel⟩, by decide +kernel⟩,
    ⟨(let p : Packet := { n := 5, tag := 0x03#8, len := 0x02#8, params := [0x03#8, 0x01#8] }; let s := up; let s := mkTakes true s; let s := { s with otp.wl := mput 0 s.otp.wl (p.params.getD 0 0).toNat 17 }; let s := { s with otp.rl := mput 0 s.otp.rl (p.params.getD 0 0).toNat 17 }; let s := { s with rl.pg := setBit s.rl.pg 0 true }; let s := { s with glob.st := .run }; let s := { s with otp.wl := [], otp.rl := [] }; s), ({ n := 5, tag := 0x03#8, len := 0x02#8, params := [0x03#8, 0x01#8] } : Packet), (let p : Packet := { n := 5, tag := 0x03#8, len := 0x02#8, params := [0x03#8, 0x01#8] }; (p.params.getD 0 0)), (let p : Packet := { n := 5, tag := 0x03#8, len := 0x02#8, params := [0x03#8, 0x01#8] }; (p.params.getD 1 0)), ⟨by decide +kernel, by decide, by decide, by decide +kernel, by decide, by decide +kernel⟩, by decide +kernel⟩⟩

/-- `UpdateSessions`. -/
theorem witness_UpdateSessions :
    (∃ (s : State) (p : Packet) (k : _) (a : _) (b : _) (c : _) (d : _), Takes false p s ∧ p.params = [k, a, b, c, d] ∧ k.toNat ≤ 1 ∧ 304 ≤ leNat [a, b, c, d] ∧ leNat [a, b, c, d] ≤ 1048576 ∧ (s.upd.st = 0 ∨ s.upd.st = 4 ∨ s.upd.st = 6 ∨ s.upd.st = 7) ∧ s.fl.ro.getLsbD 6 = false ∧ s.glob.st = .run) ∧
    (∃ (s : State) (p : Packet) (k : _) (a : _) (b : _) (c : _) (d : _), Takes false p s ∧ p.params = [k, a, b, c, d] ∧ (1 < k.toNat ∨ leNat [a, b, c, d] < 304 ∨ 1048576 < leNat [a, b, c, d])) ∧
    (∃ (s : State) (p : Packet) (k : _) (a : _) (b : _) (c : _) (d : _), Takes false p s ∧ p.params = [k, a, b, c, d] ∧ k.toNat ≤ 1 ∧ 304 ≤ leNat [a, b, c, d] ∧ leNat [a, b, c, d] ≤ 1048576 ∧ (s.upd.st = 1 ∨ s.upd.st = 2 ∨ s.upd.st = 3 ∨ s.upd.st = 5)) ∧
    (∃ (s : State), Landable s (206 + (jrnSecond s.upd).toNat) ∧ fwOn s = true ∧ s.fl.slot = some .journal ∧ s.upd.jact = .begin ∧ s.upd.man = none ∧ slotHas s 0x50 = true ∧ readOnly 206 s = false) ∧
    (∃ (s : State) (p : Packet), Takes false p s ∧ (s.upd.st = 0 ∨ s.upd.st = 3 ∨ s.upd.st = 6 ∨ s.upd.st = 7) ∧ 4 < p.params.length ∧ p.params.length ≤ 61) ∧
    (∃ (s : State) (p : Packet), Takes false p s ∧ s.upd.st = 1 ∧ 4 < p.params.length ∧ p.params.length ≤ 61 ∧ s.upd.inp < leNat (p.params.take 4)) ∧
    (∃ (s : State) (p : Packet), Takes false p s ∧ (s.upd.st = 1 ∨ s.upd.st = 4) ∧ s.glob.st = .run ∧ 4 < p.params.length ∧ p.params.length ≤ 61 ∧ s.upd.inp = leNat (p.params.take 4) ∧ s.upd.man = none ∧ s.upd.buf.length + (p.params.length - 4) < 304 ∧ s.upd.inp + (p.params.length - 4) ≤ s.upd.len) ∧
    (∃ (s : State) (p : Packet), Takes false p s ∧ p.params = [] ∧ s.upd.st = 1 ∧ updComplete s = true ∧ s.glob.st = .run) ∧
    (∃ (s : State) (p : Packet), Takes false p s ∧ p.params = [] ∧ (s.upd.st ≠ 1 ∨ updComplete s = false)) ∧
    (∃ (s : State) (m : Manifest), fwOn s = true ∧ s.upd.st = 2 ∧ s.upd.man = some m ∧ digestsOk m s = true ∧ (m.fw = true → imageError s = 0)) ∧
    (∃ (s : State) (m : Manifest) (k : Bool), fwOn s = true ∧ s.upd.st = 2 ∧ s.upd.man = some m ∧ (k = false ∨ digestsOk m s = false)) ∧
    (∃ (s : State) (p : Packet), Takes false p s ∧ p.params = [] ∧ s.glob.st = .run) :=
    ⟨⟨(let s := up; let s := mkTakes false s; let s := { s with upd.st := if s.cyc.cnt.getLsbD 4 then 0 else 4 }; let s := { s with fl.ro := setBit s.fl.ro 6 false }; let s := { s with glob.st := .run }; s), ({ n := 8, tag := 0x03#8, len := 0x05#8, params := [0x00#8, 0x30#8, 0x01#8, 0x00#8, 0x00#8] } : Packet), (let p : Packet := { n := 8, tag := 0x03#8, len := 0x05#8, params := [0x00#8, 0x30#8, 0x01#8, 0x00#8, 0x00#8] }; (p.params.getD 0 0)), (let p : Packet := { n := 8, tag := 0x03#8, len := 0x05#8, params := [0x00#8, 0x30#8, 0x01#8, 0x00#8, 0x00#8] }; (p.params.getD 1 0)), (let p : Packet := { n := 8, tag := 0x03#8, len := 0x05#8, params := [0x00#8, 0x30#8, 0x01#8, 0x00#8, 0x00#8] }; (p.params.getD 2 0)), (let p : Packet := { n := 8, tag := 0x03#8, len := 0x05#8, params := [0x00#8, 0x30#8, 0x01#8, 0x00#8, 0x00#8] }; (p.params.getD 3 0)), (let p : Packet := { n := 8, tag := 0x03#8, len := 0x05#8, params := [0x00#8, 0x30#8, 0x01#8, 0x00#8, 0x00#8] }; (p.params.getD 4 0)), ⟨by decide +kernel, by decide, by decide, by decide +kernel, by decide, by decide +kernel⟩, by decide +kernel⟩,
    ⟨(let s := up; let s := mkTakes false s; s), (⟨8, 5, 5, [0, 0x2F, 1, 0, 0]⟩ : Packet), (let p : Packet := ⟨8, 5, 5, [0, 0x2F, 1, 0, 0]⟩; (p.params.getD 0 0)), (let p : Packet := ⟨8, 5, 5, [0, 0x2F, 1, 0, 0]⟩; (p.params.getD 1 0)), (let p : Packet := ⟨8, 5, 5, [0, 0x2F, 1, 0, 0]⟩; (p.params.getD 2 0)), (let p : Packet := ⟨8, 5, 5, [0, 0x2F, 1, 0, 0]⟩; (p.params.getD 3 0)), (let p : Packet := ⟨8, 5, 5, [0, 0x2F, 1, 0, 0]⟩; (p.params.getD 4 0)), ⟨by decide +kernel, by decide, by decide, by decide +kernel, by decide, by decide +kernel⟩, by decide +kernel⟩,
    ⟨(let s := up; let s := mkTakes false s; let s := { s with upd.st := if s.cyc.cnt.getLsbD 4 then 1 else 2 }; s), ({ n := 8, tag := 0x03#8, len := 0x05#8, params := [0x00#8, 0x30#8, 0x01#8, 0x00#8, 0x00#8] } : Packet), (let p : Packet := { n := 8, tag := 0x03#8, len := 0x05#8, params := [0x00#8, 0x30#8, 0x01#8, 0x00#8, 0x00#8] }; (p.params.getD 0 0)), (let p : Packet := { n := 8, tag := 0x03#8, len := 0x05#8, params := [0x00#8, 0x30#8, 0x01#8, 0x00#8, 0x00#8] }; (p.params.getD 1 0)), (let p : Packet := { n := 8, tag := 0x03#8, len := 0x05#8, params := [0x00#8, 0x30#8, 0x01#8, 0x00#8, 0x00#8] }; (p.params.getD 2 0)), (let p : Packet := { n := 8, tag := 0x03#8, len := 0x05#8, params := [0x00#8, 0x30#8, 0x01#8, 0x00#8, 0x00#8] }; (p.params.getD 3 0)), (let p : Packet := { n := 8, tag := 0x03#8, len := 0x05#8, params := [0x00#8, 0x30#8, 0x01#8, 0x00#8, 0x00#8] }; (p.params.getD 4 0)), ⟨by decide +kernel, by decide, by decide, by decide +kernel, by decide, by decide +kernel⟩, by decide +kernel⟩,
    ⟨(let s := up; let s := mkServed s; let s := { s with fl.slot := some .journal }; let s := { s with upd.jact := .begin }; let s := { s with upd.man := none }; let s := { s with bus.cstat := 2, bus.op := 0x50 }; let s := setSector (physical s ((206 + (jrnSecond s.upd).toNat))) { sector s (physical s ((206 + (jrnSecond s.upd).toNat))) with retired := false, half := none, count := some 7 } s; let s := { s with fl.ro := 0 }; s), ⟨by decide +kernel, by decide +kernel⟩, by decide +kernel⟩,
    ⟨(let s := up; let s := mkTakes false s; let s := { s with upd.st := if s.cyc.cnt.getLsbD 4 then 0 else 3 }; s), ({ n := 17, tag := 0x04#8, len := 0x0e#8, params := [0xff#8, 0x0f#8, 0x04#8, 0x07#8, 0x64#8, 0x00#8, 0x00#8, 0x00#8, 0x00#8, 0x00#8, 0x00#8, 0x00#8, 0x00#8, 0x00#8] } : Packet), ⟨by decide +kernel, by decide, by decide, by decide +kernel, by decide, by decide +kernel⟩, by decide +kernel⟩,
    ⟨(let s := up; let s := mkTakes false s; let s := { s with upd.st := 1 }; let s := { s with upd.inp := 0, upd.st := 1 }; s), ({ n := 17, tag := 0x04#8, len := 0x0e#8, params := [0xff#8, 0x0f#8, 0x04#8, 0x07#8, 0x64#8, 0x00#8, 0x00#8, 0x00#8, 0x00#8, 0x00#8, 0x00#8, 0x00#8, 0x00#8, 0x00#8] } : Packet), ⟨by decide +kernel, by decide, by decide, by decide +kernel, by decide, by decide +kernel⟩, by decide +kernel⟩,
    ⟨(let p : Packet := { n := 17, tag := 0x04#8, len := 0x0e#8, params := [0xff#8, 0x0f#8, 0x04#8, 0x07#8, 0x64#8, 0x00#8, 0x00#8, 0x00#8, 0x00#8, 0x00#8, 0x00#8, 0x00#8, 0x00#8, 0x00#8] }; let s := up; let s := mkTakes false s; let s := { s with upd.st := if s.cyc.cnt.getLsbD 4 then 1 else 4 }; let s := { s with glob.st := .run }; let s := { s with upd.inp := leNat (p.params.take 4) }; let s := { s with upd.man := none }; let s := { s with upd.inp := leNat (p.params.take 4), upd.man := none, upd.buf := s.upd.buf.take 5, upd.len := 1000000000000 }; s), ({ n := 17, tag := 0x04#8, len := 0x0e#8, params := [0xff#8, 0x0f#8, 0x04#8, 0x07#8, 0x64#8, 0x00#8, 0x00#8, 0x00#8, 0x00#8, 0x00#8, 0x00#8, 0x00#8, 0x00#8, 0x00#8] } : Packet), ⟨by decide +kernel, by decide, by decide, by decide +kernel, by decide, by decide +kernel⟩, by decide +kernel⟩,
    ⟨(let s := up; let s := mkTakes false s; let s := { s with upd.st := 1 }; let s := { s with glob.st := .run }; let s := { s with upd.st := 1, upd.man := s.upd.man.or (some (manifestOf [])), upd.len := s.upd.inp, upd.used := s.upd.inp, upd.buf := [] }; s), ({ n := 3, tag := 0x05#8, len := 0x00#8, params := [] } : Packet), ⟨by decide +kernel, by decide, by decide, by decide +kernel, by decide, by decide +kernel⟩, by decide +kernel⟩,
    ⟨(let s := up; let s := mkTakes false s; s), ({ n := 3, tag := 0x05#8, len := 0x00#8, params := [] } : Packet), ⟨by decide +kernel, by decide, by decide, by decide +kernel, by decide, by decide +kernel⟩, by decide +kernel⟩,
    ⟨(let m : Manifest := { bytes := [0xb9#8, 0x34#8, 0x03#8], fwLen := 0, cfgLen := 38, fw := false, cfg := false, cfgFirst := false, delta := false, autoconf := true, tconf := 6, ttrial := 2, revoke := 0x3#2 }; let s := up; let s := mkServed s; let s := { s with upd.st := 2 }; let s := { s with upd.man := some m }; s), ({ bytes := [0xb9#8, 0x34#8, 0x03#8], fwLen := 0, cfgLen := 38, fw := false, cfg := false, cfgFirst := false, delta := false, autoconf := true, tconf := 6, ttrial := 2, revoke := 0x3#2 } : Manifest), by decide +kernel⟩,
    ⟨(let m : Manifest := { bytes := [0xb9#8, 0x34#8, 0x03#8], fwLen := 0, cfgLen := 38, fw := false, cfg := false, cfgFirst := false, delta := false, autoconf := true, tconf := 6, ttrial := 2, revoke := 0x3#2 }; let s := up; let s := mkServed s; let s := { s with upd.st := 2 }; let s := { s with upd.man := some m }; s), ({ bytes := [0xb9#8, 0x34#8, 0x03#8], fwLen := 0, cfgLen := 38, fw := false, cfg := false, cfgFirst := false, delta := false, autoconf := true, tconf := 6, ttrial := 2, revoke := 0x3#2 } : Manifest), (false : Bool), by decide +kernel⟩,
    ⟨(let s := up; let s := mkTakes false s; let s := { s with glob.st := .run }; s), ({ n := 3, tag := 0x05#8, len := 0x00#8, params := [] } : Packet), ⟨by decide +kernel, by decide, by decide, by decide +kernel, by decide, by decide +kernel⟩, by decide +kernel⟩⟩

/-- `UpdateActivation`. -/
theorem witness_UpdateActivation :
    (∃ (s : State), Served s ∧ s.upd.st = 3) ∧
    (∃ (s : State), Served s ∧ s.upd.st ≠ 3) ∧
    (∃ (s : State) (p : Packet), Takes false p s ∧ p.params = [] ∧ mayConfirm s = true ∧ s.glob.st = .run ∧ readOnly 206 s = false) ∧
    (∃ (s : State) (p : Packet), Takes false p s ∧ p.params = [] ∧ mayConfirm s = false) ∧
    (∃ (s : State), Landable s (206 + (jrnSecond s.upd).toNat) ∧ fwOn s = true ∧ s.fl.slot = some .journal ∧ s.upd.jact = .confirm ∧ s.upd.st = 5 ∧ s.upd.fell = false ∧ readOnly 206 s = false) ∧
    (∃ (s : State) (m : Manifest), fwOn s = true ∧ mayConfirm s = true ∧ s.upd.man = some m ∧ m.autoconf = true ∧ s.glob.st = .run ∧ readOnly 206 s = false) ∧
    (∃ (s : State), anvilOn s = true ∧ s.glob.floor = false ∧ s.upd.st = 5 ∧ s.upd.fell = false) ∧
    (∃ (s : State) (p : Packet), Takes false p s ∧ p.params = [] ∧ s.glob.st = .run ∧ 1 ≤ s.upd.st ∧ s.upd.st ≤ 4) ∧
    (∃ (s : State) (p : Packet) (h : SlotHdr), Takes false p s ∧ p.params = [] ∧ s.glob.st = .run ∧ (s.upd.st = 0 ∨ s.upd.st = 6 ∨ s.upd.st = 7) ∧ inactive s = some h ∧ s.upd.prevOk = true ∧ arcnt s.otp.shd ≤ h.svn) ∧
    (∃ (s : State) (p : Packet) (h : SlotHdr), Takes false p s ∧ p.params = [] ∧ (s.upd.st = 0 ∨ s.upd.st = 6 ∨ s.upd.st = 7) ∧ inactive s = some h ∧ s.upd.prevOk = true ∧ h.svn < arcnt s.otp.shd) ∧
    (∃ (s : State), Landable s (206 + (jrnSecond s.upd).toNat) ∧ fwOn s = true ∧ s.fl.slot = some .journal ∧ s.upd.jact = .fell ∧ s.upd.cfgNew = 0 ∧ readOnly 206 s = false) ∧
    (∃ (s : State) (p : Packet), Takes false p s ∧ p.params = [] ∧ mayConfirm s = true ∧ s.glob.st = .run ∧ s.upd.jact = .none ∧ readOnly 206 s = true) :=
    ⟨⟨(let s := up; let s := mkServed s; let s := { s with upd.st := 3 }; s), ⟨by decide +kernel, by decide +kernel⟩, by decide +kernel⟩,
    ⟨(let s := up; let s := mkServed s; s), ⟨by decide +kernel, by decide +kernel⟩, by decide +kernel⟩,
    ⟨(let s := up; let s := mkTakes false s; let s := { s with upd.st := 5, upd.fell := false, seq.ended := true, seq.phase := 2 }; let s := { s with glob.st := .run }; let s := { s with fl.ro := 0 }; s), ({ n := 3, tag := 0x05#8, len := 0x00#8, params := [] } : Packet), ⟨by decide +kernel, by decide, by decide, by decide +kernel, by decide, by decide +kernel⟩, by decide +kernel⟩,
    ⟨(let s := up; let s := mkTakes false s; s), ({ n := 3, tag := 0x05#8, len := 0x00#8, params := [] } : Packet), ⟨by decide +kernel, by decide, by decide, by decide +kernel, by decide, by decide +kernel⟩, by decide +kernel⟩,
    ⟨(let s := up; let s := mkServed s; let s := { s with fl.slot := some .journal }; let s := { s with upd.jact := .confirm }; let s := { s with upd.st := 5 }; let s := { s with upd.fell := false }; let s := setSector (physical s ((206 + (jrnSecond s.upd).toNat))) { sector s (physical s ((206 + (jrnSecond s.upd).toNat))) with retired := false, half := none, count := some 7 } s; let s := { s with fl.ro := 0 }; s), ⟨by decide +kernel, by decide +kernel⟩, by decide +kernel⟩,
    ⟨(let m : Manifest := { bytes := [0xb9#8, 0x34#8, 0x03#8], fwLen := 0, cfgLen := 38, fw := false, cfg := false, cfgFirst := false, delta := false, autoconf := true, tconf := 6, ttrial := 2, revoke := 0x3#2 }; let s := up; let s := mkServed s; let s := { s with upd.st := 5, upd.fell := false, seq.ended := true, seq.phase := 2 }; let s := { s with upd.man := some m }; let s := { s with glob.st := .run }; let s := { s with fl.ro := 0 }; s), ({ bytes := [0xb9#8, 0x34#8, 0x03#8], fwLen := 0, cfgLen := 38, fw := false, cfg := false, cfgFirst := false, delta := false, autoconf := true, tconf := 6, ttrial := 2, revoke := 0x3#2 } : Manifest), by decide +kernel⟩,
    ⟨(let s := up; let s := mkAnvil s; let s := { s with glob.floor := false }; let s := { s with upd.st := 5 }; let s := { s with upd.fell := false }; s), by decide +kernel⟩,
    ⟨(let s := up; let s := mkTakes false s; let s := { s with glob.st := .run }; let s := { s with upd.st := 1 + s.upd.st % 4 }; let s := { s with upd.st := 4 }; s), ({ n := 3, tag := 0x05#8, len := 0x00#8, params := [] } : Packet), ⟨by decide +kernel, by decide, by decide, by decide +kernel, by decide, by decide +kernel⟩, by decide +kernel⟩,
    ⟨(let h : SlotHdr := { ver := [0xb9#8, 0x34#8, 0x03#8], svn := 0, key := 38, revoke := 0x3#2, len := 1, bytes := none }; let s := up; let s := mkTakes false s; let s := { s with glob.st := .run }; let s := { s with upd.st := if s.cyc.cnt.getLsbD 4 then 0 else 6 }; let s := { s with upd.prevOk := true }; let s := { s with upd.slotA := some h, upd.slotB := some h, otp.shd := [] }; s), ({ n := 3, tag := 0x05#8, len := 0x00#8, params := [] } : Packet), ({ ver := [0xb9#8, 0x34#8, 0x03#8], svn := 0, key := 38, revoke := 0x3#2, len := 1, bytes := none } : SlotHdr), ⟨by decide +kernel, by decide, by decide, by decide +kernel, by decide, by decide +kernel⟩, by decide +kernel⟩,
    ⟨(let h : SlotHdr := { ver := [0xb9#8, 0x34#8, 0x03#8], svn := 0, key := 38, revoke := 0x3#2, len := 1, bytes := none }; let s := up; let s := mkTakes false s; let s := { s with upd.st := if s.cyc.cnt.getLsbD 4 then 0 else 6 }; let s := { s with upd.prevOk := true }; let s := { s with upd.slotA := some { ((fun (q : SlotHdr) => { q with svn := 0 }) h) with svn := 0 }, upd.slotB := some { ((fun (q : SlotHdr) => { q with svn := 0 }) h) with svn := 0 }, otp.shd := mput 0 [] (64*9) 7 }; s), ({ n := 3, tag := 0x05#8, len := 0x00#8, params := [] } : Packet), ((let h : SlotHdr := { ver := [0xb9#8, 0x34#8, 0x03#8], svn := 0, key := 38, revoke := 0x3#2, len := 1, bytes := none }; ((fun (q : SlotHdr) => { q with svn := 0 }) h)) : SlotHdr), ⟨by decide +kernel, by decide, by decide, by decide +kernel, by decide, by decide +kernel⟩, by decide +kernel⟩,
    ⟨(let s := up; let s := mkServed s; let s := { s with fl.slot := some .journal }; let s := { s with upd.jact := .fell }; let s := { s with upd.cfgNew := 0 }; let s := setSector (physical s ((206 + (jrnSecond s.upd).toNat))) { sector s (physical s ((206 + (jrnSecond s.upd).toNat))) with retired := false, half := none, count := some 7 } s; let s := { s with fl.ro := 0 }; s), ⟨by decide +kernel, by decide +kernel⟩, by decide +kernel⟩,
    ⟨(let s := up; let s := mkTakes false s; let s := { s with upd.st := 5, upd.fell := false, seq.ended := true, seq.phase := 2 }; let s := { s with glob.st := .run }; let s := { s with upd.jact := .none }; let s := { s with fl.ro := BitVec.allOnes _ }; s), ({ n := 3, tag := 0x05#8, len := 0x00#8, params := [] } : Packet), ⟨by decide +kernel, by decide, by decide, by decide +kernel, by decide, by decide +kernel⟩, by decide +kernel⟩⟩

/-- A state that has what every step keeps, with something in each part: a session and a nonce, a rail power-good, S2 closed,
both paths at full drive, a commit in flight, a fuse, a queued Quick Command. -/
def sound : State := { up with
  pending := [.quickCommand .quick], bus.level := 1, bus.nonce := some ([7], 2), rl.en := 2, rl.up := 2, rl.pg := 2, plt.s2 := true, plt.role := 0,
  inp.a.closed := true, inp.a.full := true, inp.b.closed := true, inp.b.full := true, txn.seq := 9, txn.res := 1, otp.arr := [(3, 4)],
  txn.cur := some { commitOf up 9 (6 :: List.replicate 13 0) with pending := false } }

/-- `FusesNeverClear`. -/
theorem witness_FusesNeverClear : ∃ (o : Otp) (s t : State), FusesKept o s.otp ∧ step s = .next t :=
  ⟨sound.otp, sound, _, ⟨fun _ _ h => h, fun _ _ h => h, fun _ _ h => h, fun _ h => h, fun _ h => h⟩, rfl⟩

/-- `PartsStaySound`. -/
theorem witness_PartsStaySound :
    (∃ s t, LogSound s ∧ step s = .next t) ∧ (∃ s t, SessionSound s ∧ step s = .next t) ∧ (∃ s t, RailsSound s ∧ step s = .next t) ∧
    (∃ s t, PilotSound s ∧ step s = .next t) ∧ (∃ s t, PathsSound s ∧ step s = .next t) ∧ (∃ s t, CommitSound s ∧ step s = .next t) :=
  ⟨⟨sound, _, ⟨by decide, by decide, by decide⟩, rfl⟩,
   ⟨sound, _, ⟨by decide, fun x h => by cases h; decide⟩, rfl⟩,
   ⟨sound, _, fun r => ⟨fun h => h, fun h => ⟨h, by show (0#32).getLsbD r = false; simp⟩⟩, rfl⟩,
   ⟨sound, _, fun _ => rfl, rfl⟩,
   ⟨sound, _, ⟨fun _ => rfl, fun _ => rfl⟩, rfl⟩,
   ⟨sound, _, fun c h => by cases h; decide, rfl⟩⟩

/-- `MapsStayCanonical`: maps with entries, a command waiting. -/
theorem witness_MapsStayCanonical : ∃ s t, MapsSound s ∧ step s = .next t := by
  refine ⟨{ sound with regs.plain := [(key 1 0x0C, 0x55), (key 1 0x0D, 0x66)], irq.pend := [(0, 1), (3, 2)] }, _, ?_, rfl⟩
  constructor <;> first
    | decide
    | exact ⟨by unfold Rising; decide, by decide⟩
    | (unfold Rising; decide)
    | (intro _ h; cases h)

end Sys2Proof.Tests
end

section
/-! SUPPORT. The count of missing pulses and the acceptance windows (R34, R35). -/

namespace Sys2Proof.Machine

open Sys2Proof

/-! The count, and PLLSTAT. -/

/-- PLLSTAT has room for the count up to 17 above the two bits of the state (R60). -/
theorem pllstat_misscnt {s : State} (h : s.cyc.misscnt ≤ 17) : (pllstat s).toNat / 4 = s.cyc.misscnt := by
  have hp : pllNum s.cyc.pll < 4 := by cases s.cyc.pll <;> decide
  simp only [pllstat, BitVec.toNat_ofNat]
  omega

theorem toFree_misscnt (s : State) : (toFree s).cyc.misscnt = s.cyc.misscnt := by
  unfold toFree
  dsimp only
  split <;> simp [raiseG]

@[simp] theorem armWindow_cyc (s : State) : (armWindow s).cyc = s.cyc := rfl

/-- A missing pulse counts one, up to 17, from LOCK, from HOLD and where it ends HOLD (R35). -/
theorem missPulse_misscnt (s : State) : (missPulse s).cyc.misscnt = min 17 (s.cyc.misscnt + 1) := by
  unfold missPulse
  dsimp only
  split
  case h_1 => simp [raiseG]
  case h_2 => split <;> simp [raiseG, toFree_misscnt]

/-! The acceptance window that is open. -/

/-- Every close of an acceptance window that is armed is that of the next pulse's window (R34). -/
def NextWindowOnly (s : State) : Prop :=
  ∀ x ∈ s.clk.timers, x.ev = .acceptWindowClose → x.due = max s.clk.now (winHi s)

/-- What the open window is read from. -/
theorem NextWindowOnly.congr {s t : State} (h : NextWindowOnly s) (hnow : t.clk.now = s.clk.now) (hcyc : t.cyc = s.cyc)
    (hregs : t.regs = s.regs) (hclose : ∀ x ∈ t.clk.timers, x.ev = .acceptWindowClose → x ∈ s.clk.timers) :
    NextWindowOnly t := by
  have hw : winHi t = winHi s := by unfold winHi trackT tolPct pl; rw [hcyc, hregs]
  intro x hx e
  rw [hnow, hw]
  exact h x (hclose x hx e) e

/-- A raise arms and disarms marks only. -/
theorem mem_timers_raise {x : Timer} (hx : isMark x.ev = false) (k : Nat) (s : State) :
    x ∈ (raise k s).clk.timers ↔ x ∈ s.clk.timers := by
  have h := congrArg (fun t : State => x ∈ t.clk.timers) (raise_unmarked k s)
  simpa [unmarked, hx] using h

theorem NextWindowOnly.raise {s : State} (h : NextWindowOnly s) (k : Nat) : NextWindowOnly (raise k s) :=
  h.congr (raise_clk_now k s) (raise_cyc k s) (raise_regs k s) fun _ hx e =>
    (mem_timers_raise (by rw [e]; rfl) k s).mp hx

theorem NextWindowOnly.enqueueOnce {s : State} (h : NextWindowOnly s) (c : Instr) : NextWindowOnly (enqueueOnce c s) :=
  h.congr (by simp) (by simp) (by simp) fun _ hx _ => by simpa using hx

/-- Arming the window replaces the one that was open. -/
theorem nextWindowOnly_armWindow (s : State) : NextWindowOnly (armWindow s) := by
  have hw : winHi (armWindow s) = winHi s := rfl
  intro x hx e
  simp only [armWindow, arm, List.mem_append, List.mem_filter, List.mem_singleton, decide_eq_true_eq] at hx
  rcases hx with ⟨-, hne⟩ | rfl
  · exact absurd e hne
  · rw [hw]
    show s.clk.now + (winHi s - s.clk.now) = max s.clk.now (winHi s)
    omega

/-- ACQ has no window. -/
theorem nextWindowOnly_toAcq (s : State) : NextWindowOnly (toAcq s) := by
  intro x hx e
  simp only [toAcq, arm, disarm, List.mem_append, List.mem_filter, List.mem_singleton, decide_eq_true_eq] at hx
  rcases hx with ⟨⟨-, hne⟩, -⟩ | rfl
  · exact absurd e hne
  · cases e

/-! What the count and the window are after an accepted pulse. -/

/-- At `now` a pulse was accepted: none is missing, and no window but that of the next pulse is open (R34, R35). -/
structure PulseTaken (now : Nat) (t : State) : Prop where
  count : t.cyc.misscnt = 0
  now : t.clk.now = now
  window : NextWindowOnly t

theorem PulseTaken.raiseG {now : Nat} {t : State} (h : PulseTaken now t) (g b : Nat) : PulseTaken now (raiseG g b t) :=
  ⟨(congrArg Cyc.misscnt (raise_cyc _ t)).trans h.count, (raise_clk_now _ t).trans h.now, h.window.raise _⟩

theorem PulseTaken.enqueueOnce {now : Nat} {t : State} (h : PulseTaken now t) (c : Instr) :
    PulseTaken now (enqueueOnce c t) :=
  ⟨(congrArg Cyc.misscnt (enqueueOnce_cyc c t)).trans h.count, (congrArg Clk.now (enqueueOnce_clk c t)).trans h.now,
    h.window.enqueueOnce c⟩

theorem pulseTaken_armWindow {now : Nat} {s : State} (hnow : s.clk.now = now) (h : s.cyc.misscnt = 0) :
    PulseTaken now (armWindow s) :=
  ⟨h, hnow, nextWindowOnly_armWindow s⟩

theorem pulseTaken_toAcq {now : Nat} {s : State} (hnow : s.clk.now = now) : PulseTaken now (toAcq s) :=
  ⟨rfl, hnow, nextWindowOnly_toAcq s⟩

/-- Entering LOCK opens the next window; the event and the commit that waited for lock leave it. -/
theorem pulseTaken_toLock {now : Nat} {s : State} (hnow : s.clk.now = now) : PulseTaken now (toLock s) := by
  have h : PulseTaken now (raiseG 47 0 (armWindow (disarm .acqMissSpan
      { s with cyc := { s.cyc with pll := .lock, misscnt := 0 } }))) := by
    refine .raiseG ?_ 47 0
    exact pulseTaken_armWindow hnow rfl
  unfold toLock
  dsimp only
  split
  · split
    · exact h.enqueueOnce _
    · exact h
  · exact h

/-- A pulse inside the window of LOCK and HOLD, whatever its phase error. -/
theorem pulseLock_taken {s : State} (e : Int) (lo : winLo s ≤ s.clk.now) (hi : s.clk.now ≤ winHi s) :
    PulseTaken s.clk.now (pulseLock e s) := by
  unfold pulseLock
  dsimp only
  rw [if_neg (by omega)]
  split
  · split
    · exact pulseTaken_toLock rfl
    · exact pulseTaken_armWindow rfl rfl
  · split
    · refine .raiseG ?_ 47 1
      exact pulseTaken_toAcq rfl
    · exact pulseTaken_toAcq rfl

/-- A pulse of FREE at an interval that is not too short. -/
theorem pulseFree_misscnt {s : State} (e : Int)
    (h : ∀ a, s.cyc.lastAcc = some a → 2000 ≤ (s.clk.now - a) * (if edgeBoth s then 2 else 1)) :
    (pulseFree e s).cyc.misscnt = 0 := by
  unfold pulseFree
  dsimp only
  split
  case h_1 => rfl
  case h_2 a ha =>
    rw [if_neg (Nat.not_lt.mpr (h a ha))]
    split_ifs <;> rfl

/-- A pulse of ACQ at an interval within bounds, whether it enters LOCK or not. -/
theorem pulseAcq_misscnt {s : State} (rising : Bool) (e : Int) {a : Nat} (ha : s.cyc.lastAcc = some a)
    (lo : 2000 ≤ (s.clk.now - a) * (if edgeBoth s then 2 else 1))
    (hi : (s.clk.now - a) * (if edgeBoth s then 2 else 1) ≤ 125000) :
    (pulseAcq rising e s).cyc.misscnt = 0 := by
  unfold pulseAcq
  dsimp only
  rw [ha, Option.getD_some, if_neg (by omega)]
  split
  · rfl
  · split
    · exact (pulseTaken_toLock rfl).count
    · rfl

/-! An edge that counts as a reference pulse (R33). -/

/-- The state with the filtered level of CYC at that which the edge begins. -/
def levelAt (e : Bool) (s : State) : State := { s with cyc := { s.cyc with lvl := e } }

theorem noteLevel_of_edgeCounts {s : State} {e : Bool} {l : Nat} (h : edgeCounts s e l = true) :
    noteLevel ⟨e, l⟩ s = levelAt e s := by
  simp only [edgeCounts, Bool.and_eq_true, decide_eq_true_eq] at h
  obtain ⟨⟨hl, -⟩, -⟩ := h
  exact if_pos hl

@[simp] theorem levelAt_pll (e : Bool) (s : State) : (levelAt e s).cyc.pll = s.cyc.pll := rfl
@[simp] theorem phaseErr_levelAt (e x : Bool) (s : State) : phaseErr (levelAt e s) x = phaseErr s x := rfl

/-- A reference pulse acts by the state of the PLL, on the state with its level. -/
theorem exec_cycPulse_counted {s : State} {e : Bool} {l : Nat} (ha : anvilOn s = true) (hc : cycEn s = true)
    (h : edgeCounts s e l = true) :
    (s.cyc.pll = .free → exec (.cycPulse ⟨e, l⟩) s = .next (pulseFree (phaseErr s e) (levelAt e s))) ∧
    (s.cyc.pll = .acq → exec (.cycPulse ⟨e, l⟩) s = .next (pulseAcq e (phaseErr s e) (levelAt e s))) ∧
    (s.cyc.pll = .lock ∨ s.cyc.pll = .hold →
      exec (.cycPulse ⟨e, l⟩) s = .next (pulseLock (phaseErr s e) (levelAt e s))) := by
  have hx : exec (.cycPulse ⟨e, l⟩) s = execCycPulse ⟨e, l⟩ s := rfl
  rw [hx]
  refine ⟨fun hp => ?_, fun hp => ?_, fun hp => ?_⟩
  · simp [execCycPulse, ha, hc, h, noteLevel_of_edgeCounts h, hp]
  · simp [execCycPulse, ha, hc, h, noteLevel_of_edgeCounts h, hp]
  · rcases hp with hp | hp <;> simp [execCycPulse, ha, hc, h, noteLevel_of_edgeCounts h, hp]

end Sys2Proof.Machine
end

section
/-! The obligation on missing pulses (R35). -/

namespace Sys2Proof

open Sys2Proof.Machine

/-- The close of a window in LOCK and HOLD. -/
theorem acceptWindowClose_counts {s : State} (h : s.cyc.pll = .lock ∨ s.cyc.pll = .hold) :
    Ends .acceptWindowClose s (fun t =>
      t.cyc.misscnt = min 17 (s.cyc.misscnt + 1) ∧ (pllstat t).toNat / 4 = min 17 (s.cyc.misscnt + 1)) := by
  have hx : exec .acceptWindowClose s = execAcceptWindowClose s := rfl
  have he : execAcceptWindowClose s = .next (missPulse s) := by
    rcases h with h | h <;> simp [execAcceptWindowClose, h]
  have hn := missPulse_misscnt s
  exact ⟨_, hx.trans he, hn, by rw [pllstat_misscnt (by omega), hn]⟩

/-- A pulse inside the window in LOCK and HOLD. -/
theorem cycPulse_in_window_clears {s : State} {e : Bool} {l : Nat} (ha : anvilOn s = true) (hc : cycEn s = true)
    (he : edgeCounts s e l = true) (hp : s.cyc.pll = .lock ∨ s.cyc.pll = .hold) (lo : winLo s ≤ s.clk.now)
    (hi : s.clk.now ≤ winHi s) :
    Ends (.cycPulse ⟨e, l⟩) s (fun t => t.cyc.misscnt = 0 ∧ (pllstat t).toNat / 4 = 0 ∧
      (∀ x ∈ t.clk.timers, x.ev = .acceptWindowClose → x.due = max s.clk.now (winHi t))) := by
  obtain ⟨-, -, exec_lock⟩ := exec_cycPulse_counted ha hc he
  obtain ⟨count, now, window⟩ := pulseLock_taken (s := levelAt e s) (phaseErr s e) lo hi
  have hnow : (pulseLock (phaseErr s e) (levelAt e s)).clk.now = s.clk.now := now
  exact ⟨_, exec_lock hp, count, by rw [pllstat_misscnt (by omega), count], hnow ▸ window⟩

/-- A pulse in FREE that is not too soon after the last. -/
theorem cycPulse_free_clears {s : State} {e : Bool} {l : Nat} (ha : anvilOn s = true) (hc : cycEn s = true)
    (he : edgeCounts s e l = true) (hp : s.cyc.pll = .free)
    (h : ∀ a, s.cyc.lastAcc = some a → 2000 ≤ (s.clk.now - a) * (if edgeBoth s then 2 else 1)) :
    Ends (.cycPulse ⟨e, l⟩) s (fun t => t.cyc.misscnt = 0) := by
  obtain ⟨exec_free, -, -⟩ := exec_cycPulse_counted ha hc he
  exact ⟨_, exec_free hp, pulseFree_misscnt (s := levelAt e s) _ h⟩

/-- A pulse in ACQ at an interval within bounds. -/
theorem cycPulse_acq_clears {s : State} {e : Bool} {l a : Nat} (ha : anvilOn s = true) (hc : cycEn s = true)
    (he : edgeCounts s e l = true) (hp : s.cyc.pll = .acq) (hl : s.cyc.lastAcc = some a)
    (lo : 2000 ≤ (s.clk.now - a) * (if edgeBoth s then 2 else 1))
    (hi : (s.clk.now - a) * (if edgeBoth s then 2 else 1) ≤ 125000) :
    Ends (.cycPulse ⟨e, l⟩) s (fun t => t.cyc.misscnt = 0) := by
  obtain ⟨-, exec_acq, -⟩ := exec_cycPulse_counted ha hc he
  exact ⟨_, exec_acq hp, pulseAcq_misscnt (s := levelAt e s) e _ hl lo hi⟩

/-- Settles O12: a window's close counts one through `missPulse_misscnt`; every pulse that is accepted clears the count, and in
LOCK and HOLD the window armed in its place is the next pulse's. -/
theorem missedPulses : Obligations.MissedPulses := by
  unfold Obligations.MissedPulses
  exact ⟨fun _ _ hp => acceptWindowClose_counts hp,
    fun _ _ _ ha hc he hp lo hi => cycPulse_in_window_clears ha hc he hp lo hi,
    fun _ _ _ ha hc he hp h => cycPulse_free_clears ha hc he hp h,
    fun _ _ _ _ ha hc he hp hl lo hi => cycPulse_acq_clears ha hc he hp hl lo hi⟩

end Sys2Proof
end

section
/-! SUPPORT. Statements of the parts that may differ, composed. -/

namespace Sys2Proof

open Sys2Proof.Machine

theorem Part.Same.refl (p : Part) (s : State) : p.Same s s := by cases p <;> rfl

theorem Part.Same.trans {p : Part} {s t u : State} (h : p.Same s t) (g : p.Same t u) : p.Same s u := by
  cases p <;> exact Eq.trans g h

theorem Only.refl (l : List Part) (s : State) : Only l s s := fun p _ => Part.Same.refl p s

theorem Only.trans {l : List Part} {s t u : State} (h : Only l s t) (g : Only l t u) : Only l s u :=
  fun p hp => (h p hp).trans (g p hp)

theorem Only.weaken {l m : List Part} {s t : State} (h : Only l s t) (hlm : l ⊆ m) : Only m s t :=
  fun p hp => h p fun hl => hp (hlm hl)

/-- A part that a raise does not write to is read off the state without marks. -/
theorem Part.same_unmarked {p : Part} (hp : p ∉ raiseParts) (s t : State) :
    p.Same (unmarked s) (unmarked t) ↔ p.Same s t := by
  cases p <;> simp [raiseParts] at hp <;> rfl

theorem only_of_unmarked {s t : State} (h : unmarked t = unmarked s) : Only raiseParts s t :=
  fun p hp => (Part.same_unmarked hp s t).mp (h ▸ Part.Same.refl p (unmarked s))

theorem only_raiseIf (c : Bool) (src : Nat) (s : State) : Only raiseParts s (raiseIf c src s) := by
  cases c
  case false => exact Only.refl _ s
  case true => exact only_of_unmarked (raise_unmarked src s)

theorem only_setHk (f : Hk → Hk) (s : State) : Only [.hk] s (setHk f s) := by
  intro p hp
  cases p <;> simp at hp <;> rfl

end Sys2Proof
end

section
/-! SUPPORT. The two sides of a threshold channel: activity and events (R246, R247). -/

namespace Sys2Proof.Machine

open Sys2Proof

/-! Bits of a vector, and pending bits whichever islands are on. -/

theorem getLsbD_setBit_self {n i : Nat} (h : i < n) (v : BitVec n) (b : Bool) : (setBit v i b).getLsbD i = b := by
  cases b <;> simp [setBit, h]

theorem getLsbD_setBit_other {n i j : Nat} (h : j ≠ i) (v : BitVec n) (b : Bool) :
    (setBit v i b).getLsbD j = v.getLsbD j := by
  cases b
  case true => simp [setBit, h.symm]
  case false =>
    by_cases hj : j < n
    · simp [setBit, hj, h]
    · simp [BitVec.getLsbD_of_ge _ j (Nat.not_lt.mp hj)]

/-- With the Anvil island off a raise leaves the interrupt state alone (R385). -/
theorem raise_irq_of_off {s : State} (h : anvilOn s = false) (src : Nat) : (raise src s).irq = s.irq := by
  simp only [raise, h, Bool.false_eq_true, if_false, setLatch]
  repeat' split
  all_goals rfl

theorem isPend_raiseIf (c : Bool) (src : Nat) (s : State) {k : Nat} (hk : isLogLoss k = false) :
    isPend (raiseIf c src s) k = (isPend s k || (anvilOn s && c && decide (k = src))) := by
  cases c
  case false => simp [raiseIf]
  case true =>
    cases h : anvilOn s
    case false => simp [raiseIf, isPend, pendOf, raise_irq_of_off h]
    case true => simpa [raiseIf] using isPend_raise h src k hk

/-! One side. -/

/-- Bit j of THSTATE goes from inactive to active between the two states. -/
def thRose (j : Nat) (s t : State) : Bool := !s.hk.th.getLsbD j && t.hk.th.getLsbD j

theorem thRose_iff {j : Nat} {s t : State} :
    thRose j s t = true ↔ s.hk.th.getLsbD j = false ∧ t.hk.th.getLsbD j = true := by simp [thRose]

theorem thRose_self (j : Nat) (s : State) : thRose j s s = false := by simp [thRose]

/-- An inactive side has been beyond its level for THFILT + 1 round ends, this one among them (R246). -/
def thSets (j filt : Nat) (beyond : Bool) (s : State) : Bool :=
  !s.hk.th.getLsbD j && decide ((if beyond then mget 0 s.hk.thN j + 1 else 0) ≥ filt + 1)

/-- A side writes its own bit and its count, then raises its source where it has become active. -/
theorem thSide_eq (j filt src : Nat) (beyond back : Bool) (s : State) :
    ∃ n, thSide j filt src beyond back s = raiseIf (thSets j filt beyond s) src (setHk (fun h =>
      { h with th := setBit h.th j (thSets j filt beyond s || (h.th.getLsbD j && !back)), thN := n }) s) := ⟨_, rfl⟩

theorem anvilOn_thSide (j filt src : Nat) (beyond back : Bool) (s : State) :
    anvilOn (thSide j filt src beyond back s) = anvilOn s := by
  obtain ⟨n, e⟩ := thSide_eq j filt src beyond back s
  simp [e, anvilOn]

theorem thSide_th_other {i j : Nat} (h : i ≠ j) (filt src : Nat) (beyond back : Bool) (s : State) :
    (thSide j filt src beyond back s).hk.th.getLsbD i = s.hk.th.getLsbD i := by
  obtain ⟨n, e⟩ := thSide_eq j filt src beyond back s
  simp [e, setHk, getLsbD_setBit_other h]

theorem thRose_thSide {j : Nat} (hj : j < 128) (filt src : Nat) (beyond back : Bool) (s : State) :
    thRose j s (thSide j filt src beyond back s) = thSets j filt beyond s := by
  obtain ⟨n, e⟩ := thSide_eq j filt src beyond back s
  cases h : s.hk.th.getLsbD j <;> simp [e, setHk, thRose, getLsbD_setBit_self hj, thSets, h]

/-- A side raises its source exactly where it becomes active, and no other source. -/
theorem isPend_thSide {j : Nat} (hj : j < 128) (filt src : Nat) (beyond back : Bool) (s : State) {k : Nat}
    (hk : isLogLoss k = false) :
    isPend (thSide j filt src beyond back s) k =
      (isPend s k || (anvilOn s && thRose j s (thSide j filt src beyond back s) && decide (k = src))) := by
  rw [thRose_thSide hj]
  obtain ⟨n, e⟩ := thSide_eq j filt src beyond back s
  rw [e, isPend_raiseIf _ _ _ hk]
  rfl

theorem only_thSide (j filt src : Nat) (beyond back : Bool) (s : State) :
    Only ([.hk] ++ raiseParts) s (thSide j filt src beyond back s) := by
  obtain ⟨n, e⟩ := thSide_eq j filt src beyond back s
  rw [e]
  exact ((only_setHk _ s).weaken (List.subset_append_left _ _)).trans
    ((only_raiseIf _ src _).weaken (List.subset_append_right _ _))

/-! One channel. -/

/-- The source of channel k's HIGH event; its LOW event is the next (R247). -/
def thSrc (k : Nat) : Nat := 16 * (38 + k / 8) + 2 * (k % 8)

/-- The events of the 64 channels are none of the log's own. -/
theorem isLogLoss_thSrc {k : Nat} (hk : k < 64) : isLogLoss (thSrc k) = false ∧ isLogLoss (thSrc k + 1) = false := by
  have hlt : thSrc k < 736 := by unfold thSrc; omega
  simp only [isLogLoss, Bool.or_eq_false_iff, decide_eq_false_iff_not]
  omega

/-- A channel that is off or whose measurement is invalid does nothing; another compares HIGH, then LOW. -/
theorem thChannel_cases (k : Nat) (s : State) :
    thChannel k s = s ∨ ∃ filt high highBack low lowBack, thChannel k s =
      thSide (2 * k + 1) filt (thSrc k + 1) low lowBack (thSide (2 * k) filt (thSrc k) high highBack s) := by
  unfold thChannel
  dsimp only
  split
  · exact .inl rfl
  · exact .inr ⟨_, _, _, _, _, rfl⟩

/-- A channel raises HIGH exactly where HIGH becomes active, LOW where LOW does, and no other source (R247). -/
theorem isPend_thChannel {k : Nat} (hk : k < 64) (s : State) {j : Nat} (hj : isLogLoss j = false) :
    isPend (thChannel k s) j = (isPend s j ||
      (anvilOn s && thRose (2 * k) s (thChannel k s) && decide (j = thSrc k)) ||
      (anvilOn s && thRose (2 * k + 1) s (thChannel k s) && decide (j = thSrc k + 1))) := by
  rcases thChannel_cases k s with e | ⟨filt, high, highBack, low, lowBack, e⟩
  · simp [e, thRose_self]
  · have hhigh : thRose (2 * k) s (thChannel k s) = thRose (2 * k) s (thSide (2 * k) filt (thSrc k) high highBack s) := by
      rw [e, thRose, thRose, thSide_th_other (by omega)]
    have hlow : thRose (2 * k + 1) s (thChannel k s) =
        thRose (2 * k + 1) (thSide (2 * k) filt (thSrc k) high highBack s) (thChannel k s) := by
      rw [thRose, thRose, thSide_th_other (by omega)]
    rw [hhigh, hlow, e, isPend_thSide (by omega) _ _ _ _ _ hj, isPend_thSide (by omega) _ _ _ _ _ hj, anvilOn_thSide]

theorem only_thChannel (k : Nat) (s : State) : Only ([.hk] ++ raiseParts) s (thChannel k s) := by
  rcases thChannel_cases k s with e | ⟨filt, high, highBack, low, lowBack, e⟩
  · rw [e]
    exact Only.refl _ s
  · rw [e]
    exact (only_thSide _ _ _ _ _ _).trans (only_thSide _ _ _ _ _ _)

theorem isPend_thChannel_high {k : Nat} (hk : k < 64) (s : State) :
    isPend (thChannel k s) (thSrc k) = (isPend s (thSrc k) || (anvilOn s && thRose (2 * k) s (thChannel k s))) := by
  simp [isPend_thChannel hk s (isLogLoss_thSrc hk).1]

theorem isPend_thChannel_low {k : Nat} (hk : k < 64) (s : State) :
    isPend (thChannel k s) (thSrc k + 1) =
      (isPend s (thSrc k + 1) || (anvilOn s && thRose (2 * k + 1) s (thChannel k s))) := by
  simp [isPend_thChannel hk s (isLogLoss_thSrc hk).2]

end Sys2Proof.Machine
end

section
/-! The obligation on the events of the threshold channels (R247). -/

namespace Sys2Proof

open Sys2Proof.Machine

/-- Settles O35: `isPend_thChannel` says which pending bits a channel's comparison sets, at its own two sources and at every other. -/
theorem thresholdEvents : Obligations.ThresholdEvents := by
  unfold Obligations.ThresholdEvents
  refine ⟨fun s k ha off on => ?high, fun s k ha off on => ?low, fun s k off on => ?onlyHigh, fun s k off on => ?onlyLow,
    fun s k j hp => ?noOther, fun s k => only_thChannel k s⟩
  case high => exact (isPend_thChannel_high k.isLt s).trans (by simp [ha, thRose_iff.mpr ⟨off, on⟩])
  case low => exact (isPend_thChannel_low k.isLt s).trans (by simp [ha, thRose_iff.mpr ⟨off, on⟩])
  case onlyHigh =>
    have h := (isPend_thChannel_high k.isLt s).symm.trans on
    rw [show isPend s (thSrc k) = false from off, Bool.false_or, Bool.and_eq_true] at h
    exact thRose_iff.mp h.2
  case onlyLow =>
    have h := (isPend_thChannel_low k.isLt s).symm.trans on
    rw [show isPend s (thSrc k + 1) = false from off, Bool.false_or, Bool.and_eq_true] at h
    exact thRose_iff.mp h.2
  case noOther =>
    cases hj : isLogLoss j
    case true => simp
    case false =>
      rw [isPend_thChannel k.isLt s hj] at hp
      simp only [Bool.or_eq_true, Bool.and_eq_true, decide_eq_true_eq] at hp
      rcases hp with (hp | ⟨-, hp⟩) | ⟨-, hp⟩
      · exact .inl hp
      · exact .inr (.inl hp)
      · exact .inr (.inr (.inl hp))

end Sys2Proof
end

section
/-! What every step keeps: the fuses, the invariants of the parts, the canonical form of the maps (R418 and others). -/

namespace Sys2Proof.Machine

open Sys2Proof

/-- Each command keeps what held in `z0`: the lemma of its meaning, command by command. -/
theorem exec_keeps {z0 : State} (c : Instr) (s : State) (hs : Keeps z0 s) : OutB z0 (exec c s) :=
  match c with
  | .powerOnReset vsys vin ohms => execPowerOnReset_b vsys vin ohms s hs
  | .logicSupplySelect rising vin => execLogicSupplySelect_b rising vin s hs
  | .logicSupplyLoss => execLogicSupplyLoss_b s hs
  | .bootEnd b => execBootEnd_b b s hs
  | .fwBootTimeout => execFwBootTimeout_b s hs
  | .rstkeyWrite v => execRstkeyWrite_b v s hs
  | .rstkeyCancel => execRstkeyCancel_b s hs
  | .rstclr => execRstclr_b s hs
  | .busclr => execBusclr_b s hs
  | .registerWrite w => execRegisterWrite_b w s hs
  | .pageWrite v => execPageWrite_b v s hs
  | .fieldLatchRead code n => execFieldLatchRead_b code n s hs
  | .quickCommand x => execQuickCommand_b x s hs
  | .cycPulse e => execCycPulse_b e s hs
  | .acceptWindowClose => execAcceptWindowClose_b s hs
  | .acqMissSpan => execAcqMissSpan_b s hs
  | .acqtmo => execAcqtmo_b s hs
  | .cycleEnd => execCycleEnd_b s hs
  | .cyccntRead => execCyccntRead_b s hs
  | .reacq => execReacq_b s hs
  | .cyccfgWrite v => execCyccfgWrite_b v s hs
  | .nomfreqWrite v => execNomfreqWrite_b v s hs
  | .schent3Write v => execSchent3Write_b v s hs
  | .schent3Read => execSchent3Read_b s hs
  | .schctlSwap => execSchctlSwap_b s hs
  | .schctlCopy => execSchctlCopy_b s hs
  | .schctlClear => execSchctlClear_b s hs
  | .scheduleValidationEnd => execScheduleValidationEnd_b s hs
  | .conv seq => execConv_b seq s hs
  | .quiet len => execQuiet_b len s hs
  | .quietEnd => execQuietEnd_b s hs
  | .commit => execCommit_b s hs
  | .phase r avg => execPhase_b r avg s hs
  | .swap => execSwap_b s hs
  | .logflush => execLogflush_b s hs
  | .dither => execDither_b s hs
  | .pathQualify x m => execPathQualify_b x m s hs
  | .preferHandback x => execPreferHandback_b x s hs
  | .pathConductionChange x on => execPathConductionChange_b x on s hs
  | .ova x m => execOva_b x m s hs
  | .inputOvClear x m => execInputOvClear_b x m s hs
  | .reva x m => execReva_b x m s hs
  | .reverseReclose x m => execReverseReclose_b x m s hs
  | .foca x m => execFoca_b x m s hs
  | .slowa x m => execSlowa_b x m s hs
  | .uva x m => execUva_b x m s hs
  | .inrushComplete x m => execInrushComplete_b x m s hs
  | .inrushtmo x => execInrushtmo_b x s hs
  | .pathRetryEnd x m => execPathRetryEnd_b x m s hs
  | .tripCountClear x => execTripCountClear_b x s hs
  | .inctlClr a b => execInctlClr_b a b s hs
  | .inloss => execInloss_b s hs
  | .plim on => execPlim_b on s hs
  | .powerGood r => execPowerGood_b r s hs
  | .uv r mon => execUv_b r mon s hs
  | .ov r mon => execOv_b r mon s hs
  | .ovHoldRelease r => execOvHoldRelease_b r s hs
  | .ocfast x => execOcfast_b x s hs
  | .overloadClamp r demand => execOverloadClamp_b r demand s hs
  | .ocslow r => execOcslow_b r s hs
  | .thlim r => execThlim_b r s hs
  | .starttmo r => execStarttmo_b r s hs
  | .stageEnableDelay c => execStageEnableDelay_b c s hs
  | .rampEnd r => execRampEnd_b r s hs
  | .strike c => execStrike_b c s hs
  | .strikeEnd c => execStrikeEnd_b c s hs
  | .brake c => execBrake_b c s hs
  | .brakeEnd c => execBrakeEnd_b c s hs
  | .blankingEnd c k trig => execBlankingEnd_b c k trig s hs
  | .addPhase r => execAddPhase_b r s hs
  | .phaseflt d => execPhaseflt_b d s hs
  | .sparein d => execSparein_b d s hs
  | .stgflt x => execStgflt_b x s hs
  | .imbal r => execImbal_b r s hs
  | .swapOverlapEnd d => execSwapOverlapEnd_b d s hs
  | .quenchEnd r timeout => execQuenchEnd_b r timeout s hs
  | .pvinLow c => execPvinLow_b c s hs
  | .pvinRestore c => execPvinRestore_b c s hs
  | .minton x => execMinton_b x s hs
  | .hotspot r => execHotspot_b r s hs
  | .hotspotRelease r => execHotspotRelease_b r s hs
  | .dropout x => execDropout_b x s hs
  | .revblk c => execRevblk_b c s hs
  | .revblkRelease c => execRevblkRelease_b c s hs
  | .vlow c => execVlow_b c s hs
  | .vlowRestart c => execVlowRestart_b c s hs
  | .railEnable r => execRailEnable_b r s hs
  | .railOffDelay r => execRailOffDelay_b r s hs
  | .railDown r => execRailDown_b r s hs
  | .stoptmo r => execStoptmo_b r s hs
  | .minoffEnd => execMinoffEnd_b s hs
  | .retrySpaceEnd r => execRetrySpaceEnd_b r s hs
  | .retryCountClear r => execRetryCountClear_b r s hs
  | .resetRelease x => execResetRelease_b x s hs
  | .extpgdly n => execExtpgdly_b n s hs
  | .strkclr c => execStrkclr_b c s hs
  | .cntctlClr => execCntctlClr_b s hs
  | .cntctlClrall => execCntctlClrall_b s hs
  | .monctlClr => execMonctlClr_b s hs
  | .txnCommit p => execTxnCommit_b p s hs
  | .validationEnd => execValidationEnd_b s hs
  | .commitApply => execCommitApply_b s hs
  | .commitDeadline => execCommitDeadline_b s hs
  | .txnAbort p => execTxnAbort_b p s hs
  | .txnValidate p => execTxnValidate_b p s hs
  | .txnRevert p => execTxnRevert_b p s hs
  | .safeInput a b => execSafeInput_b a b s hs
  | .disc => execDisc_b s hs
  | .safeHoldEnd r => execSafeHoldEnd_b r s hs
  | .safeClear p => execSafeClear_b p s hs
  | .wdKick w pec => execWdKick_b w pec s hs
  | .wdlate => execWdlate_b s hs
  | .lsfail => execLsfail_b s hs
  | .lockup => execLockup_b s hs
  | .eccded => execEccded_b s hs
  | .eccsec => execEccsec_b s hs
  | .fwwdt => execFwwdt_b s hs
  | .fwup => execFwup_b s hs
  | .lockstepExpire => execLockstepExpire_b s hs
  | .reffail ab ac bc => execReffail_b ab ac bc s hs
  | .oscfail o stopped => execOscfail_b o stopped s hs
  | .oscSlowCheck devA devB => execOscSlowCheck_b devA devB s hs
  | .assayRun p => execAssayRun_b p s hs
  | .assaydone r => execAssaydone_b r s hs
  | .operatingHour => execOperatingHour_b s hs
  | .spareSwap p => execSpareSwap_b p s hs
  | .patinaReport p => execPatinaReport_b p s hs
  | .snapshotRead p => execSnapshotRead_b p s hs
  | .hkRoundEnd d => execHkRoundEnd_b d s hs
  | .throttleGraceEnd r => execThrottleGraceEnd_b r s hs
  | .convSeqDone hkb vals => execConvSeqDone_b hkb vals s hs
  | .hkreqGo smp => execHkreqGo_b smp s hs
  | .hkreqDone v => execHkreqDone_b v s hs
  | .hkseqidxWrite v => execHkseqidxWrite_b v s hs
  | .hkseqStore => execHkseqStore_b s hs
  | .hkrflagRead => execHkrflagRead_b s hs
  | .thmeasWrite v => execThmeasWrite_b v s hs
  | .sensclr => execSensclr_b s hs
  | .pilotPeriod hi lo duty freq => execPilotPeriod_b hi lo duty freq s hs
  | .pwmoff => execPwmoff_b s hs
  | .pilotDcWindow mv => execPilotDcWindow_b mv s hs
  | .ppConversion mv => execPpConversion_b mv s hs
  | .pswWrite v => execPswWrite_b v s hs
  | .pack => execPack_b s hs
  | .rspsoft => execRspsoft_b s hs
  | .rsphard => execRsphard_b s hs
  | .pilotRole p => execPilotRole_b p s hs
  | .roledone => execRoledone_b s hs
  | .pilotRearm p => execPilotRearm_b p s hs
  | .genflt => execGenflt_b s hs
  | .genRestart => execGenRestart_b s hs
  | .sleepMonitor cp pp => execSleepMonitor_b cp pp s hs
  | .chargerHoldoffEnd vcell => execChargerHoldoffEnd_b vcell s hs
  | .vmidlow => execVmidlow_b s hs
  | .chargerVmidRestore => execChargerVmidRestore_b s hs
  | .chargePhaseChange vcell => execChargePhaseChange_b vcell s hs
  | .done => execDone_b s hs
  | .rechg => execRechg_b s hs
  | .cellov => execCellov_b s hs
  | .cellovClear => execCellovClear_b s hs
  | .tmrpre => execTmrpre_b s hs
  | .tmrfast => execTmrfast_b s hs
  | .ntcflt => execNtcflt_b s hs
  | .ntcRecover => execNtcRecover_b s hs
  | .ctband mv => execCtband_b mv s hs
  | .wdexp => execWdexp_b s hs
  | .chgctlKick => execChgctlKick_b s hs
  | .chgctlRestart => execChgctlRestart_b s hs
  | .chgsuspWrite v => execChgsuspWrite_b v s hs
  | .gaugeOffsetCal => execGaugeOffsetCal_b s hs
  | .slowSampling => execSlowSampling_b s hs
  | .slowSamplingExit => execSlowSamplingExit_b s hs
  | .accclr => execAccclr_b s hs
  | .cellReplaced p => execCellReplaced_b p s hs
  | .learnStatus p => execLearnStatus_b p s hs
  | .pwcfgWrite cnt v => execPwcfgWrite_b cnt v s hs
  | .rtcShift p => execRtcShift_b p s hs
  | .seqStart p => execSeqStart_b p s hs
  | .seqStop p => execSeqStop_b p s hs
  | .railRetry p => execRailRetry_b p s hs
  | .standbyEnter p => execStandbyEnter_b p s hs
  | .standbyExit p => execStandbyExit_b p s hs
  | .sleepEnter p => execSleepEnter_b p s hs
  | .shipEnter p => execShipEnter_b p s hs
  | .cresofsWrite v => execCresofsWrite_b v s hs
  | .alertResponse won => execAlertResponse_b won s hs
  | .hostNotify e => execHostNotify_b e s hs
  | .echo p => execEcho_b p s hs
  | .getInfo p => execGetInfo_b p s hs
  | .selfReset p => execSelfReset_b p s hs
  | .sessionOpen p => execSessionOpen_b p s hs
  | .sessionProve p => execSessionProve_b p s hs
  | .sessionClose p => execSessionClose_b p s hs
  | .dsXfer p => execDsXfer_b p s hs
  | .dsXferDone e => execDsXferDone_b e s hs
  | .dsPoll e => execDsPoll_b e s hs
  | .scltmo => execScltmo_b s hs
  | .stuckscl => execStuckscl_b s hs
  | .dsBusClear sda => execDsBusClear_b sda s hs
  | .dsClearRetry sda scl => execDsClearRetry_b sda scl s hs
  | .dsCutRestart => execDsCutRestart_b s hs
  | .dsctlClr => execDsctlClr_b s hs
  | .pendWrite g v => execPendWrite_b g v s hs
  | .maskWrite g v => execMaskWrite_b g v s hs
  | .routeWrite page off v => execRouteWrite_b page off v s hs
  | .rrmaskWrite v => execRrmaskWrite_b v s hs
  | .ovrclr k v => execOvrclr_b k v s hs
  | .wlclr k v => execWlclr_b k v s hs
  | .testtrig k v => execTesttrig_b k v s hs
  | .intPulseEnd t => execIntPulseEnd_b t s hs
  | .fwIntService src => execFwIntService_b src s hs
  | .flashSlotDone ok => execFlashSlotDone_b ok s hs
  | .cfgsave => execCfgsave_b s hs
  | .scrubDue => execScrubDue_b s hs
  | .scrublate => execScrublate_b s hs
  | .logRecordClose src => execLogRecordClose_b src s hs
  | .logTimer => execLogTimer_b s hs
  | .logRead p => execLogRead_b p s hs
  | .logErase p => execLogErase_b p s hs
  | .logFlush p => execLogFlush_b p s hs
  | .otpProgram p verify => execOtpProgram_b p verify s hs
  | .otpLock p verify => execOtpLock_b p verify s hs
  | .updBegin p => execUpdBegin_b p s hs
  | .updData p reads => execUpdData_b p reads s hs
  | .updEnd p => execUpdEnd_b p s hs
  | .updResumeInfo p => execUpdResumeInfo_b p s hs
  | .updConfirm p => execUpdConfirm_b p s hs
  | .updRollback p => execUpdRollback_b p s hs
  | .updctlActivate => execUpdctlActivate_b s hs
  | .ttrialExpire => execTtrialExpire_b s hs
  | .tconfExpire => execTconfExpire_b s hs
  | .updVerifyEnd reads => execUpdVerifyEnd_b reads s hs
  | .imbalRearm r => execImbalRearm_b r s hs
  | .stageTempLimitRelease c => execStageTempLimitRelease_b c s hs
  | .vaonOutOfWindow out => execVaonOutOfWindow_b out s hs
  | .calendarSecond => execCalendarSecond_b s hs
  | .caltrimStep => execCaltrimStep_b s hs
  | .ptick => execPtick_b s hs
  | .xtalstop => execXtalstop_b s hs
  | .xtalrun => execXtalrun_b s hs
  | .calctlSet => execCalctlSet_b s hs
  | .subsecRead => execSubsecRead_b s hs
  | .shiftdone => execShiftdone_b s hs
  | .wakepin => execWakepin_b s hs
  | .vinwake => execVinwake_b s hs
  | .hostwake => execHostwake_b s hs
  | .idleslp => execIdleslp_b s hs
  | .sleepPrepDone => execSleepPrepDone_b s hs
  | .hbTimeout => execHbTimeout_b s hs
  | .sdaHoldTimeout => execSdaHoldTimeout_b s hs
  | .cresRead => execCresRead_b s hs
  | .hnstuck => execHnstuck_b s hs
  | .hnsuspClear => execHnsuspClear_b s hs
  | .sesstmo => execSesstmo_b s hs
  | .nonceExpire => execNonceExpire_b s hs
  | .sesslockEnd => execSesslockEnd_b s hs
  | .heldclr => execHeldclr_b s hs
  | .cntclr => execCntclr_b s hs

/-- A step keeps what held before it, whether a command runs or time passes. -/
theorem step_keeps {s t : State} (h : step s = .next t) : Keeps s t := by
  unfold step at h
  split at h
  case h_1 =>
    cases h
    exact idle_b s (keeps_refl s)
  case h_2 c rest _ => exact (exec_keeps c { s with pending := rest } (keeps_refl s)).kept t h

end Sys2Proof.Machine

namespace Sys2Proof

open Sys2Proof.Machine

theorem FusesKept.trans {o p q : Otp} (h : FusesKept o p) (g : FusesKept p q) : FusesKept o q where
  data k b w := g.data k b (h.data k b w)
  writeLock r b w := g.writeLock r b (h.writeLock r b w)
  readLock r b w := g.readLock r b (h.readLock r b w)
  tag14 b w := g.tag14 b (h.tag14 b w)
  tag15 b w := g.tag15 b (h.tag15 b w)

/-- Settles O58: every step keeps the fuses of the state before it (`step_keeps`), and keeping composes. -/
theorem fusesNeverClear : Obligations.FusesNeverClear :=
  fun _ _ _ h e => h.trans (step_keeps e).fuses

/-- Settles O59: each invariant is a part of what a step keeps (`step_keeps`). -/
theorem partsStaySound : Obligations.PartsStaySound :=
  ⟨fun _ _ h e => (step_keeps e).log h, fun _ _ h e => (step_keeps e).session h, fun _ _ h e => (step_keeps e).rails h,
    fun _ _ h e => (step_keeps e).pilot h, fun _ _ h e => (step_keeps e).paths h, fun _ _ h e => (step_keeps e).commit h⟩

/-- Settles O60: the maps are a part of what a step keeps (`step_keeps`). -/
theorem mapsStayCanonical : Obligations.MapsStayCanonical :=
  fun _ _ h e => (step_keeps e).maps h

end Sys2Proof
end

section
/-! The queue, the passage of time, the reset state, the fine angle and delivery (R10, R42, R379). -/

namespace Sys2Proof.Machine

open Sys2Proof

/-! How far the clock goes in an idle step: `advance` lowers a bound, one candidate after another. -/

section Folds

variable {α : Type} {f : Nat → α → Nat}

theorem foldl_le_init (hf : ∀ n x, f n x ≤ n) (l : List α) (n : Nat) : l.foldl f n ≤ n := by
  induction l generalizing n with
  | nil => exact le_rfl
  | cons x l ih => exact (ih _).trans (hf n x)

theorem foldl_pos {l : List α} (hf : ∀ n, ∀ x ∈ l, 0 < n → 0 < f n x) {n : Nat} (h : 0 < n) : 0 < l.foldl f n := by
  induction l generalizing n with
  | nil => exact h
  | cons x l ih => exact ih (fun n y hy => hf n y (List.mem_cons_of_mem _ hy)) (hf n x List.mem_cons_self h)

theorem foldl_eq_zero (hf : ∀ n x, f n x ≤ n) {l : List α} {x : α} (hx : x ∈ l) (hz : ∀ n, f n x = 0) (n : Nat) :
    l.foldl f n = 0 := by
  induction l generalizing n with
  | nil => cases hx
  | cons y l ih =>
    rcases List.mem_cons.mp hx with rfl | hx
    · exact Nat.le_zero.mp ((foldl_le_init hf l _).trans (hz n).le)
    · exact ih hx _

end Folds

theorem minOpt_le (n : Nat) (x : Option Nat) : minOpt n x ≤ n := by
  cases x with
  | none => exact le_rfl
  | some m => exact Nat.min_le_left n m

/-- An angle that lies ahead is reached later than now. -/
theorem minOpt_untilPhase_pos {n : Nat} (h : 0 < n) (phase rate target : Nat) : 0 < minOpt n (untilPhase phase rate target) := by
  unfold untilPhase
  split
  · exact h
  · rename_i g
    have : 1 ≤ (target - phase + rate - 1) / rate := (Nat.le_div_iff_mul_le (by omega)).mpr (by omega)
    exact Nat.lt_min.mpr ⟨h, this⟩

/-- The bound that the quantum, the armed events and the actions set. -/
def advanceEvents (s : State) : Nat :=
  s.cyc.acts.foldl (fun n t => min n (t.due - s.clk.now))
    (s.clk.timers.foldl (fun n t => min n (t.due - s.clk.now)) (max 1 s.clk.quantum))

/-- The bound lowered to the next operating hour. -/
def advanceHour (s : State) : Nat :=
  if operating s then min (advanceEvents s) (hourLen - s.clk.op % hourLen) else advanceEvents s

/-- The bound lowered to the end of the cycle and the next angle of the active schedule. -/
def advanceAngle (s : State) : Nat :=
  (actBank s).foldl (fun n x => minOpt n (untilPhase s.cyc.phase s.cyc.rate (angleStart (entByte x.2 0))))
    (minOpt (advanceHour s) (untilPhase s.cyc.phase s.cyc.rate cycleUnits))

theorem advance_eq (s : State) : advance s = if !anvilOn s then advanceHour s
    else match commitAngle s with
      | some a => minOpt (advanceAngle s) (untilPhase s.cyc.phase s.cyc.rate (angleStart a))
      | none => advanceAngle s := rfl

theorem advanceAngle_le (s : State) : advanceAngle s ≤ advanceHour s :=
  (foldl_le_init (fun n _ => minOpt_le n _) _ _).trans (minOpt_le _ _)

theorem advanceHour_le (s : State) : advanceHour s ≤ advanceEvents s := by
  unfold advanceHour
  split
  · exact Nat.min_le_left ..
  · exact le_rfl

theorem advanceHour_pos {s : State} (h : 0 < advanceEvents s) : 0 < advanceHour s := by
  unfold advanceHour
  split
  · have : s.clk.op % hourLen < hourLen := Nat.mod_lt _ (by decide)
    exact Nat.lt_min.mpr ⟨h, by omega⟩
  · exact h

theorem advance_le (s : State) : advance s ≤ advanceEvents s := by
  rw [advance_eq]
  split
  · exact advanceHour_le s
  · have h := (advanceAngle_le s).trans (advanceHour_le s)
    split
    · exact (minOpt_le _ _).trans h
    · exact h

theorem advance_pos {s : State} (h : 0 < advanceEvents s) : 0 < advance s := by
  have angle : 0 < advanceAngle s :=
    foldl_pos (fun _ _ _ g => minOpt_untilPhase_pos g _ _ _) (minOpt_untilPhase_pos (advanceHour_pos h) _ _ _)
  rw [advance_eq]
  split
  · exact advanceHour_pos h
  · split
    · exact minOpt_untilPhase_pos angle _ _ _
    · exact angle

theorem min_sub_le {α : Type} (due : α → Nat) (now n : Nat) (x : α) : min n (due x - now) ≤ n := Nat.min_le_left ..

theorem advanceEvents_le (s : State) : advanceEvents s ≤ max 1 s.clk.quantum :=
  (foldl_le_init (min_sub_le _ _) _ _).trans (foldl_le_init (min_sub_le _ _) _ _)

/-- Nothing moves while something is due. -/
theorem advanceEvents_eq_zero {s : State} (h : (∃ x ∈ s.clk.timers, x.due ≤ s.clk.now) ∨ (∃ x ∈ s.cyc.acts, x.due ≤ s.clk.now)) :
    advanceEvents s = 0 := by
  rcases h with ⟨x, hx, hd⟩ | ⟨x, hx, hd⟩
  · have : s.clk.timers.foldl (fun n t => min n (t.due - s.clk.now)) (max 1 s.clk.quantum) = 0 :=
      foldl_eq_zero (min_sub_le _ _) hx (fun n => by omega) _
    unfold advanceEvents
    rw [this]
    exact Nat.le_zero.mp (foldl_le_init (min_sub_le _ _) _ _)
  · exact foldl_eq_zero (min_sub_le _ _) hx (fun n => by omega) _

theorem advanceEvents_pos {s : State} (ht : ∀ x ∈ s.clk.timers, s.clk.now < x.due) (ha : ∀ x ∈ s.cyc.acts, s.clk.now < x.due) :
    0 < advanceEvents s :=
  foldl_pos (fun n x hx h => by have := ha x hx; omega)
    (foldl_pos (fun n x hx h => by have := ht x hx; omega) (by omega))

theorem readStep_clk (s : State) : (readStep s).clk = s.clk := by
  unfold readStep
  repeat' split
  all_goals rfl

theorem tick_now (s : State) : (tick s).clk.now = s.clk.now + advance s := by
  simp only [tick, moveAngle, dropActs, apply_ite State.clk, ite_self]

/-- An idle step takes the clock forward by `advance`. -/
theorem idle_now (s : State) : (idle s).clk.now = s.clk.now + advance s := by
  rw [idle, readStep_clk, tick_now]

/-- Every command answers a next state. -/
theorem exec_next (c : Instr) (s : State) : ∃ t, exec c s = .next t := by
  cases c <;> exact ⟨_, rfl⟩

end Sys2Proof.Machine

namespace Sys2Proof

open Sys2Proof.Machine

/-- Settles O1: `exec_next` says that every command answers; `idle_now` and the bounds on `advance` say how far the clock goes. -/
theorem stepRunsFrontCommand : Obligations.StepRunsFrontCommand := by
  refine ⟨fun s c rest h => ?front, exec_next, fun s h => ?empty, fun s => ?bounds, fun s h => ?due, fun s ht ha => ?ahead⟩
  case front => unfold step; rw [h]
  case empty => unfold step; rw [h]
  case bounds =>
    have := (advance_le s).trans (advanceEvents_le s)
    rw [idle_now]
    omega
  case due =>
    have := (advance_le s).trans (advanceEvents_eq_zero h).le
    rw [idle_now]
    omega
  case ahead =>
    have := advance_pos (advanceEvents_pos ht ha)
    rw [idle_now]
    omega

/-- Settles O11: counts and angles are quotients of the position by the units of one count. -/
theorem fineAngle : Obligations.FineAngle := by
  refine ⟨fun n h => ?below, fun s => ?top, fun n k => ?begins, fun k hk => ⟨(k * cycleUnits + 4095) / 4096, ?_, ?_⟩⟩
  case below => unfold fineOf cycleUnits at *; omega
  case top => unfold angleNow angleOf fineOf cycleUnits; omega
  case begins => unfold fineOf cycleUnits; omega
  all_goals unfold cycleUnits at *
  · omega
  · unfold fineOf cycleUnits; omega

/-- Settles O52: by the definition of `deliveredTo`, outside Floor mode. -/
theorem delivery : Obligations.Delivery := by
  intro s k hf
  refine ⟨?delivered, fun h => by simp [targetOf, hf, h]⟩
  case delivered =>
    unfold deliveredTo isMasked
    by_cases hp : isPend s k = true <;> by_cases hm : (maskOfG s (k / 16)).getLsbD (k % 16) = true <;> simp [hp, hm, hf]

/-- The maps of the reset state: empty, or listed with no default among them. -/
theorem mapsSound_reset : MapsSound State.reset := by
  constructor
  case stg => exact regsFit_nil
  case live => exact regsFit_nil
  case plain => exact regsFit_nil
  case held => exact List.Pairwise.nil
  case patA | patB | cfgA | cfgB | capture => intro _ h; cases h
  all_goals decide

theorem railsSound_reset : RailsSound State.reset := by
  intro r
  have none (m : Mask) (h : m = 0) : has m r = false := by subst h; simp [has]
  simp [none State.reset.rl.pg rfl, none State.reset.rl.en rfl]

/-- Settles O2: field by field; no map of the interrupt controller lists anything, and the invariants hold of what the state lists. -/
theorem resetValues : Obligations.ResetValues := by
  refine ⟨rfl, rfl, rfl, rfl, rfl, rfl, rfl, rfl, rfl, rfl, rfl, rfl, rfl, fun k => ?pend, fun g => rfl, fun k => rfl, ?log, ?session,
    railsSound_reset, ?pilot, ?paths, ?commit, mapsSound_reset⟩
  case pend => simp [isPend, pendOf, State.reset, mget]
  case log => exact ⟨by decide, by decide, by decide⟩
  case session => exact ⟨by decide, nofun⟩
  case pilot => exact nofun
  case paths => exact ⟨nofun, nofun⟩
  case commit => exact nofun

end Sys2Proof
end

section
/-! SUPPORT. How statements about a command are read: the state it answers, the parts that may differ, armed events, pending bits. -/

namespace Sys2Proof

open Sys2Proof.Machine

/-! The state that a command answers. -/

theorem Ends.of_eq {c : Instr} {s t : State} {P : State → Prop} (e : exec c s = .next t) (h : P t) : Ends c s P := ⟨t, e, h⟩

theorem Ends.imp {c : Instr} {s : State} {P Q : State → Prop} (h : Ends c s P) (f : ∀ t, P t → Q t) : Ends c s Q :=
  let ⟨t, e, p⟩ := h
  ⟨t, e, f t p⟩

/-! The parts that may differ, part by part. -/

theorem only_iff {l : List Part} {s t : State} : Only l s t ↔
    (.pending ∈ l ∨ t.pending = s.pending) ∧ (.clk ∈ l ∨ t.clk = s.clk) ∧ (.free ∈ l ∨ t.free = s.free) ∧
    (.glob ∈ l ∨ t.glob = s.glob) ∧ (.regs ∈ l ∨ t.regs = s.regs) ∧ (.cyc ∈ l ∨ t.cyc = s.cyc) ∧ (.qt ∈ l ∨ t.qt = s.qt) ∧
    (.inp ∈ l ∨ t.inp = s.inp) ∧ (.rl ∈ l ∨ t.rl = s.rl) ∧ (.bk ∈ l ∨ t.bk = s.bk) ∧ (.seq ∈ l ∨ t.seq = s.seq) ∧
    (.txn ∈ l ∨ t.txn = s.txn) ∧ (.safe ∈ l ∨ t.safe = s.safe) ∧ (.tst ∈ l ∨ t.tst = s.tst) ∧ (.pat ∈ l ∨ t.pat = s.pat) ∧
    (.hk ∈ l ∨ t.hk = s.hk) ∧ (.thm ∈ l ∨ t.thm = s.thm) ∧ (.plt ∈ l ∨ t.plt = s.plt) ∧ (.chg ∈ l ∨ t.chg = s.chg) ∧
    (.gau ∈ l ∨ t.gau = s.gau) ∧ (.cal ∈ l ∨ t.cal = s.cal) ∧ (.pwr ∈ l ∨ t.pwr = s.pwr) ∧ (.bus ∈ l ∨ t.bus = s.bus) ∧
    (.ds ∈ l ∨ t.ds = s.ds) ∧ (.irq ∈ l ∨ t.irq = s.irq) ∧ (.fl ∈ l ∨ t.fl = s.fl) ∧ (.otp ∈ l ∨ t.otp = s.otp) ∧
    (.upd ∈ l ∨ t.upd = s.upd) := by
  have all (p : Part) : (p ∉ l → p.Same s t) ↔ (p ∈ l ∨ p.Same s t) := Decidable.or_iff_not_imp_left.symm
  constructor
  · intro h
    have g (p : Part) := (all p).mp (h p)
    exact ⟨g .pending, g .clk, g .free, g .glob, g .regs, g .cyc, g .qt, g .inp, g .rl, g .bk, g .seq, g .txn, g .safe, g .tst, g .pat,
      g .hk, g .thm, g .plt, g .chg, g .gau, g .cal, g .pwr, g .bus, g .ds, g .irq, g .fl, g .otp, g .upd⟩
  · rintro ⟨h1, h2, h3, h4, h5, h6, h7, h8, h9, h10, h11, h12, h13, h14, h15, h16, h17, h18, h19, h20, h21, h22, h23, h24, h25, h26,
      h27, h28⟩ p
    rw [all]
    cases p <;> assumption

/-- `Only` composes along the operations that make a state: what each may write lies in the list. -/
theorem Only.step {l m : List Part} {s t u : State} (h : Only l s t) (g : Only m t u) (hm : m ⊆ l) : Only l s u :=
  h.trans (g.weaken hm)

/-! Armed events. -/

theorem mem_timers_arm {x : Timer} (dt : Nat) (e : Instr) (s : State) :
    x ∈ (arm dt e s).clk.timers ↔ (x ∈ s.clk.timers ∧ x.ev ≠ e) ∨ x = ⟨s.clk.now + dt, e⟩ := by
  simp [arm]

theorem mem_timers_disarm {x : Timer} (e : Instr) (s : State) :
    x ∈ (disarm e s).clk.timers ↔ x ∈ s.clk.timers ∧ x.ev ≠ e := by
  simp [disarm]

theorem armed_iff (e : Instr) (s : State) : armed e s = true ↔ ∃ x ∈ s.clk.timers, x.ev = e := by
  simp [armed]

theorem armed_congr {e : Instr} {s t : State} (h : t.clk.timers = s.clk.timers) : armed e t = armed e s := by
  unfold armed; rw [h]

theorem armed_arm_ne {e f : Instr} (h : f ≠ e) (dt : Nat) (s : State) : armed f (arm dt e s) = armed f s := by
  rw [Bool.eq_iff_iff, armed_iff, armed_iff]
  simp only [mem_timers_arm]
  constructor
  · rintro ⟨x, (⟨hx, -⟩ | rfl), hf⟩
    · exact ⟨x, hx, hf⟩
    · exact absurd hf.symm h
  · rintro ⟨x, hx, rfl⟩
    exact ⟨x, .inl ⟨hx, h⟩, rfl⟩

theorem armed_disarm_ne {e f : Instr} (h : f ≠ e) (s : State) : armed f (disarm e s) = armed f s := by
  rw [Bool.eq_iff_iff, armed_iff, armed_iff]
  simp only [mem_timers_disarm]
  constructor
  · rintro ⟨x, ⟨hx, -⟩, hf⟩
    exact ⟨x, hx, hf⟩
  · rintro ⟨x, hx, rfl⟩
    exact ⟨x, ⟨hx, h⟩, rfl⟩

/-- A raise arms and disarms marks only. -/
theorem armed_raise {e : Instr} (h : isMark e = false) (k : Nat) (s : State) : armed e (raise k s) = armed e s := by
  rw [Bool.eq_iff_iff, armed_iff, armed_iff]
  constructor
  · rintro ⟨x, hx, rfl⟩
    exact ⟨x, (mem_timers_raise h k s).mp hx, rfl⟩
  · rintro ⟨x, hx, rfl⟩
    exact ⟨x, (mem_timers_raise h k s).mpr hx, rfl⟩

theorem armed_of_unmarked {e : Instr} {s t : State} (h : isMark e = false) (u : unmarked t = unmarked s) : armed e t = armed e s := by
  have f (v : State) : armed e v = armed e (unmarked v) := by
    rw [Bool.eq_iff_iff, armed_iff, armed_iff]
    constructor
    · rintro ⟨x, hx, rfl⟩
      exact ⟨x, by simp [unmarked, hx, h], rfl⟩
    · rintro ⟨x, hx, rfl⟩
      exact ⟨x, (List.mem_filter.mp hx).1, rfl⟩
  rw [f t, u, ← f s]

theorem mem_timers_of_unmarked {x : Timer} {s t : State} (h : isMark x.ev = false) (u : unmarked t = unmarked s) :
    x ∈ t.clk.timers ↔ x ∈ s.clk.timers := by
  have f (v : State) : x ∈ v.clk.timers ↔ x ∈ (unmarked v).clk.timers := by simp [unmarked, h]
  rw [f t, u, ← f s]

theorem now_of_unmarked {s t : State} (h : unmarked t = unmarked s) : t.clk.now = s.clk.now :=
  show (unmarked t).clk.now = (unmarked s).clk.now from h ▸ rfl

/-! Pending bits. -/

theorem isPend_congr {s t : State} (h : t.irq.pend = s.irq.pend) (k : Nat) : isPend t k = isPend s k := by
  unfold isPend pendOf; rw [h]

theorem Raised.anvil {l : List Nat} {s t : State} (h : Raised l s t) (a : Machine.anvilOn s = true) : Machine.anvilOn t = true :=
  h.anvilOn.trans a

/-- A command that answers a state with one source raised. -/
theorem yields_raise {c : Instr} {s s' : State} {k : Nat} (a : anvilOn s' = true) (e : exec c s = .next (raise k s')) :
    Yields c s s' [k] := ⟨_, e, raise_raised k s' a⟩

theorem yields_raiseG {c : Instr} {s s' : State} {g b : Nat} (a : anvilOn s' = true) (e : exec c s = .next (raiseG g b s')) :
    Yields c s s' [16 * g + b] := yields_raise a e

end Sys2Proof
end

section
/-! Page 0x00: the key and the clear bits (R27). -/

namespace Sys2Proof

open Sys2Proof.Machine

@[simp] theorem cancelKey_glob (s : State) : (cancelKey s).glob = { s.glob with keyArmed := false } := rfl

@[simp] theorem ackAccess_bus (s : State) : (ackAccess s).bus = { s.bus with nack := false } := rfl

@[simp] theorem armed_cancelKey (s : State) : armed .rstkeyCancel (cancelKey s) = false := by
  simp [cancelKey, armed, disarm]

theorem rstkeyByte_arm (s : State) : rstkeyByte 0xD2 s = arm (ms 10) .rstkeyCancel { s with glob := { s.glob with keyArmed := true } } := rfl

theorem rstkeyByte_reset {s : State} (k : s.glob.keyArmed = true) :
    rstkeyByte 0x2D s = bootStart (.sys .key) { cancelKey s with glob := { s.glob with keyArmed := false, minoffAfterBoot := false } } := by
  simp [rstkeyByte, k, systemReset]

theorem rstkeyByte_cancel {v : Byte} {s : State} (n : v ≠ 0xD2) (m : ¬(v = 0x2D ∧ s.glob.keyArmed = true)) :
    rstkeyByte v s = cancelKey s := by
  simp only [rstkeyByte, n, m, if_false]

theorem exec_rstkeyWrite {s : State} (h : busUp s = true) (v : Byte) : exec (.rstkeyWrite v) s = .next (rstkeyByte v (ackAccess s)) := by
  show execRstkeyWrite v s = _
  simp [execRstkeyWrite, h]

theorem exec_onPage_zero {s : State} {c : Instr} {f : State → State} (h : busUp s = true) (e : exec c s = .next (onPage 0 f s)) :
    exec c s = .next (f (cancelKey (ackAccess s))) := by
  rw [e, onPage_zero h]

/-- Settles O3: each command is the effect of its register byte on an acknowledged access. -/
theorem keyAndClears : Obligations.KeyAndClears := by
  refine ⟨fun s h => .of_eq (exec_rstkeyWrite h _) ?_, fun s h k => .of_eq (exec_rstkeyWrite h _) ?_,
    fun s v h n m => .of_eq (exec_rstkeyWrite h _) ?_, fun s => .of_eq (t := cancelKey s) rfl ?_,
    fun s h => .of_eq (exec_onPage_zero (f := rstclrBit) h rfl) ?_, fun s h => .of_eq (exec_onPage_zero (f := busclrBit) h rfl) ?_⟩
  · rw [rstkeyByte_arm]
    simp [only_iff, mem_timers_arm]
  · rw [rstkeyByte_reset (by exact k)]
    obtain ⟨boots, cause, -⟩ := bootStart_spec (.sys .key) { cancelKey (ackAccess s) with glob := { s.glob with keyArmed := false, minoffAfterBoot := false } }
    exact ⟨boots, cause⟩
  · rw [rstkeyByte_cancel n (by exact m)]
    simp [only_iff]
  · simp [only_iff]
  · simp [rstclrBit, only_iff]
  · simp [busclrBit, only_iff]

end Sys2Proof
end

section
/-! SUPPORT. What an operation leaves alone, raise marks apart. -/

namespace Sys2Proof

open Sys2Proof.Machine

/-- The parts, in the order of the state's fields. -/
def allParts : List Part :=
  [.pending, .clk, .free, .glob, .regs, .cyc, .qt, .inp, .rl, .bk, .seq, .txn, .safe, .tst, .pat, .hk, .thm, .plt, .chg, .gau, .cal, .pwr,
   .bus, .ds, .irq, .fl, .otp, .upd]

/-- The two states agree, marks apart, on the parts of the second list that are not in the first. -/
def AgreeBut (l : List Part) : List Part → State → State → Prop
  | [], _, _ => True
  | p :: ps, s, t => (match decide (p ∈ l) with | true => True | false => p.Same (unmarked s) (unmarked t)) ∧ AgreeBut l ps s t

/-- What was pending still is, unless the interrupt state is listed. -/
def PendKept (l : List Part) (s t : State) : Prop :=
  match decide (.irq ∈ l) with
  | true => True
  | false => ∀ k, isPend s k = true → isPend t k = true

/-- At most the listed parts differ, and what raising a source marks, which takes no pending bit away; and no time has passed. It unfolds
to equations of parts, so that a state that differs from another in listed parts only is left by the same parts, by definition. -/
def Leaves (l : List Part) (s t : State) : Prop := t.clk.now = s.clk.now ∧ PendKept l s t ∧ AgreeBut l allParts s t

theorem agreeBut_iff {l ps : List Part} {s t : State} :
    AgreeBut l ps s t ↔ ∀ p ∈ ps, p ∉ l → p.Same (unmarked s) (unmarked t) := by
  induction ps with
  | nil => simp [AgreeBut]
  | cons q ps ih =>
    simp only [AgreeBut, ih, List.mem_cons, forall_eq_or_imp]
    by_cases h : q ∈ l <;> simp [h]

theorem pendKept_iff {l : List Part} {s t : State} : PendKept l s t ↔ (.irq ∉ l → ∀ k, isPend s k = true → isPend t k = true) := by
  unfold PendKept
  by_cases h : Part.irq ∈ l <;> simp [h]

theorem PendKept.of_all {l : List Part} {s t : State} (h : ∀ k, isPend s k = true → isPend t k = true) : PendKept l s t :=
  pendKept_iff.mpr fun _ => h

theorem agreeBut_allParts {l : List Part} {s t : State} : AgreeBut l allParts s t ↔ Only l (unmarked s) (unmarked t) := by
  rw [agreeBut_iff]
  exact ⟨fun h p hp => h p (by cases p <;> decide) hp, fun h p _ hp => h p hp⟩

theorem leaves_iff {l : List Part} {s t : State} :
    Leaves l s t ↔ t.clk.now = s.clk.now ∧ PendKept l s t ∧ Only l (unmarked s) (unmarked t) := by
  unfold Leaves
  rw [agreeBut_allParts]

theorem Leaves.marked {l : List Part} {s t : State} (h : Leaves l s t) : Only l (unmarked s) (unmarked t) := agreeBut_allParts.mp h.2.2

theorem Leaves.now {l : List Part} {s t : State} (h : Leaves l s t) : t.clk.now = s.clk.now := h.1

/-- A pending bit stays, where the interrupt state is not listed. -/
theorem Leaves.pend {l : List Part} {s t : State} (h : Leaves l s t) {k : Nat} (p : isPend s k = true) (hi : .irq ∉ l := by decide) :
    isPend t k = true := pendKept_iff.mp h.2.1 hi k p

theorem Leaves.refl (l : List Part) (s : State) : Leaves l s s := leaves_iff.mpr ⟨rfl, .of_all fun _ h => h, Only.refl l _⟩

theorem Leaves.then {l m : List Part} {z s t : State} (h : Leaves l z s) (g : Leaves m s t) (hm : m ⊆ l) : Leaves l z t :=
  leaves_iff.mpr ⟨g.now.trans h.now, pendKept_iff.mpr fun hi _ p => g.pend (h.pend p hi) (fun x => hi (hm x)),
    h.marked.trans (g.marked.weaken hm)⟩

theorem Leaves.after {l m : List Part} {z s t : State} (g : Leaves m s t) (h : Leaves l z s) (hm : m ⊆ l) : Leaves l z t := h.then g hm

theorem Leaves.of_only {l : List Part} {s t : State} (g : Only l s t) (n : t.clk.now = s.clk.now) : Leaves l s t := by
  refine leaves_iff.mpr ⟨n, pendKept_iff.mpr fun hi k p => ?_, fun p hp => ?_⟩
  · have e : t.irq = s.irq := g .irq hi
    exact (isPend_congr (congrArg (·.pend) e) k).trans p
  · have q := g p hp
    cases p <;> simp_all [Part.Same, unmarked]

theorem Leaves.set {l : List Part} {z s t : State} (h : Leaves l z s) (g : Only l s t) (n : t.clk.now = s.clk.now := by rfl) :
    Leaves l z t := h.then (.of_only g n) (List.Subset.refl l)

theorem Leaves.of_unmarked {l : List Part} {s t : State} (h : unmarked t = unmarked s)
    (p : ∀ k, isPend s k = true → isPend t k = true) : Leaves l s t :=
  leaves_iff.mpr ⟨now_of_unmarked h, .of_all p, by rw [h]; exact Only.refl l _⟩

theorem Leaves.ite {l : List Part} {z a b : State} {c : Prop} [Decidable c] (ha : c → Leaves l z a) (hb : ¬c → Leaves l z b) :
    Leaves l z (if c then a else b) := by
  split
  · exact ha ‹_›
  · exact hb ‹_›

theorem leaves_pair {α : Type} {l : List Part} {z : State} {p : α × State} {a : α} {t : State} (e : p = (a, t)) (h : Leaves l z p.2) :
    Leaves l z t := by
  subst e; exact h

theorem leaves_foldl {α : Type} {l : List Part} {z s : State} {f : State → α → State} {xs : List α}
    (hf : ∀ s x, Leaves l z s → Leaves l z (f s x)) (h : Leaves l z s) : Leaves l z (xs.foldl f s) := by
  induction xs generalizing s with
  | nil => exact h
  | cons x xs ih => exact ih (hf s x h)

/-- What a raise writes is a mark, or one of the parts that carry marks. -/
theorem Part.same_of_unmarked {p : Part} (hp : p ∉ raiseParts) {s t : State} (h : p.Same (unmarked s) (unmarked t)) : p.Same s t :=
  (Part.same_unmarked hp s t).mp h

theorem Leaves.only {l : List Part} {s t : State} (h : Leaves l s t) : Only (l ++ raiseParts) s t := fun p hp =>
  Part.same_of_unmarked (fun g => hp (List.mem_append_right _ g))
    (h.marked p fun g => hp (List.mem_append_left _ g))

/-- A part that is not listed and carries no marks. -/
theorem Leaves.same {l : List Part} {s t : State} (h : Leaves l s t) (p : Part) (hp : p ∉ l ++ raiseParts) : p.Same s t := h.only p hp

end Sys2Proof

/-! The shared operations. -/

namespace Sys2Proof.Machine

open Sys2Proof

variable {z : State} {l : List Part}

/-- A raise takes no pending bit away, with the island on or off. -/
theorem isPend_raise_kept (k : Nat) (s : State) {j : Nat} (p : isPend s j = true) : isPend (raise k s) j = true := by
  by_cases h : anvilOn s = true
  · exact (raise_raised k s h).kept j p
  · have latch : ∀ u : State, (setLatch k u).irq = u.irq := fun u => by unfold setLatch; split <;> rfl
    unfold raise
    rw [if_neg h]
    repeat' split
    all_goals first
      | exact p
      | exact (isPend_congr (congrArg (·.pend) (latch s)) j).trans p

theorem isPend_logOther_kept (kd k : Nat) (d : BitVec 32) (s : State) {j : Nat} (p : isPend s j = true) :
    isPend (logOther kd k d s) j = true := by
  unfold logOther
  split
  · exact p
  · exact (pushLog_raised _ s).kept j p

theorem raise_leaves (k : Nat) (s : State) (hs : Leaves l z s) : Leaves l z (raise k s) :=
  hs.then (m := []) (.of_unmarked (raise_unmarked k s) fun _ => isPend_raise_kept k s) (List.nil_subset l)
theorem raiseG_leaves (g b : Nat) (s : State) (hs : Leaves l z s) : Leaves l z (raiseG g b s) := raise_leaves _ s hs
theorem raiseIf_leaves (c : Bool) (k : Nat) (s : State) (hs : Leaves l z s) : Leaves l z (raiseIf c k s) := by
  cases c
  · exact hs
  · exact raise_leaves k s hs
theorem logOther_leaves (k n : Nat) (d : BitVec 32) (s : State) (hs : Leaves l z s) : Leaves l z (logOther k n d s) :=
  hs.then (m := []) (.of_unmarked (logOther_unmarked k n d s).1 fun _ => isPend_logOther_kept k n d s) (List.nil_subset l)
theorem setPend_leaves (k : Nat) (s : State) (hs : Leaves l z s) : Leaves l z (setPend k s) :=
  hs.then (m := []) (.of_unmarked (setPend_spec k s).1 fun j h => by simp [(setPend_spec k s).2.2.2, h]) (List.nil_subset l)
theorem grant_leaves (s : State) (hs : Leaves l z s) : Leaves l z (grant s) :=
  hs.then (m := []) (.of_unmarked (grant_silent s).rest fun k h => by rw [(grant_silent s).isPend]; exact h) (List.nil_subset l)
theorem buserr_leaves (b : Nat) (s : State) (hs : Leaves [.glob] z s) : Leaves [.glob] z (buserr b s) := by
  unfold buserr
  split
  · exact hs
  · exact raiseG_leaves _ _ _ hs

theorem disarm_leaves (e : Instr) (s : State) (hs : Leaves [.clk] z s) :
    Leaves [.clk] z (disarm e s) := by
  unfold disarm
  repeat' (first
    | with_reducible assumption | with_reducible intro _ | subst x | assumption)

theorem arm_leaves (dt : Nat) (e : Instr) (s : State) (hs : Leaves [.clk] z s) :
    Leaves [.clk] z (arm dt e s) := by
  unfold arm
  repeat' (first
    | with_reducible assumption | with_reducible intro _ | subst x | assumption)

theorem drawNat_leaves (s : State) (hs : Leaves [.free] z s) :
    Leaves [.free] z (drawNat s).2 := by
  unfold drawNat
  repeat' (first
    | with_reducible assumption | with_reducible intro _ | subst x | dsimp only | assumption)

theorem drawBool_leaves (s : State) (hs : Leaves [.free] z s) :
    Leaves [.free] z (drawBool s).2 := by
  unfold drawBool
  repeat' (first
    | with_reducible assumption | with_reducible intro _ | subst x | dsimp only | assumption)

theorem setSector_leaves (n : Nat) (x : Sector) (s : State) (hs : Leaves [.fl] z s) :
    Leaves [.fl] z (setSector n x s) := by
  unfold setSector
  repeat' (first
    | with_reducible assumption | with_reducible intro _ | subst x | assumption)

theorem dropBank_leaves (n : Nat) (s : State) (hs : Leaves [.safe, .pat, .gau, .fl, .upd] z s) :
    Leaves [.safe, .pat, .gau, .fl, .upd] z (dropBank n s) := by
  unfold dropBank
  repeat' (first
    | with_reducible assumption | with_reducible intro _ | subst x | with_reducible apply Leaves.ite | assumption)

theorem settleBanks_leaves (s : State) (hs : Leaves [.safe, .pat, .gau, .fl, .upd] z s) :
    Leaves [.safe, .pat, .gau, .fl, .upd] z (settleBanks s) := by
  unfold settleBanks
  refine leaves_foldl (fun t n ht => ?_) hs
  split
  · exact ht
  · exact dropBank_leaves n t ht

theorem logLost_leaves (s : State) (hs : Leaves [.fl] z s) :
    Leaves [.fl] z (logLost s) := by
  unfold logLost
  repeat' (first
    | with_reducible assumption | with_reducible intro _ | subst x
    | (extract_lets +onlyGivenNames x; have hx : Leaves [.fl] z x := ?_; clear_value x)
    | (extract_lets +onlyGivenNames x; clear_value x) | with_reducible apply Leaves.ite | with_reducible apply raiseG_leaves
    | assumption)

theorem closeOpen_leaves (o : OpenRec) (s : State) (hs : Leaves [.clk, .fl] z s) :
    Leaves [.clk, .fl] z (closeOpen o s) := by
  unfold closeOpen
  repeat' (first
    | with_reducible assumption | subst x
    | (extract_lets +onlyGivenNames x; clear_value x)
    | with_reducible refine Leaves.then ?_ (disarm_leaves _ _ (Leaves.refl _ _)) (by decide) | assumption)

theorem programCloses_leaves (s : State) (hs : Leaves [.fl] z s) :
    Leaves [.fl] z (programCloses s) := by
  unfold programCloses
  repeat' (first
    | with_reducible assumption | with_reducible intro _ | subst x | with_reducible apply leaves_foldl | dsimp only | assumption)

theorem appendRec_leaves (r : LogRec) (s : State) (hs : Leaves [.fl] z s) :
    Leaves [.fl] z (appendRec r s) := by
  unfold appendRec
  repeat' (first
    | with_reducible assumption | with_reducible intro _ | subst x
    | (extract_lets +onlyGivenNames x; have hx : Leaves [.fl] z x := ?_; clear_value x)
    | (extract_lets +onlyGivenNames x; clear_value x) | with_reducible apply Leaves.ite
    | with_reducible refine Leaves.then ?_ (logLost_leaves _ (Leaves.refl _ _)) (by decide) | with_reducible apply raiseG_leaves
    | assumption)

theorem writeEntry_leaves (e : LogRec) (s : State) (hs : Leaves [.clk, .fl] z s) :
    Leaves [.clk, .fl] z (writeEntry e s) := by
  unfold writeEntry
  repeat' (first
    | with_reducible assumption | with_reducible intro _ | subst x
    | (extract_lets +onlyGivenNames x; have hx : Leaves [.clk, .fl] z x := ?_; clear_value x)
    | (extract_lets +onlyGivenNames x; clear_value x) | with_reducible apply Leaves.ite | split
    | with_reducible refine Leaves.then ?_ (appendRec_leaves _ _ (Leaves.refl _ _)) (by decide)
    | with_reducible refine Leaves.then ?_ (closeOpen_leaves _ _ (Leaves.refl _ _)) (by decide)
    | with_reducible refine Leaves.then ?_ (logLost_leaves _ (Leaves.refl _ _)) (by decide)
    | with_reducible refine Leaves.then ?_ (arm_leaves _ _ _ (Leaves.refl _ _)) (by decide) | assumption)

theorem writeQueue_leaves (n : Nat) (s : State) (hs : Leaves [.clk, .fl] z s) : Leaves [.clk, .fl] z (writeQueue n s) := by
  induction n generalizing s with
  | zero => exact hs
  | succ n ih =>
    unfold writeQueue
    split
    · exact hs
    · next e rest _ =>
      refine ih _ ?_
      have hw := writeEntry_leaves e { s with fl := { s.fl with queue := rest } } hs
      generalize writeEntry e _ = w at hw ⊢
      split
      · exact logOther_leaves _ _ _ _ hw
      · exact hw

theorem cutErase_leaves (n : Nat) (blank : Bool) (s : State) (hs : Leaves [.free, .fl] z s) :
    Leaves [.free, .fl] z (cutErase n blank s).2 := by
  unfold cutErase
  repeat' (first
    | with_reducible assumption | with_reducible intro _ | subst x
    | (extract_lets +onlyGivenNames x; have hx : Leaves [.free, .fl] z x := ?_; clear_value x)
    | (extract_lets +onlyGivenNames x; clear_value x) | with_reducible apply Leaves.ite | split
    | with_reducible refine Leaves.then ?_ (setSector_leaves _ _ _ (Leaves.refl _ _)) (by decide)
    | refine leaves_pair (by with_reducible assumption) ?_ | dsimp only
    | exact Leaves.then (by with_reducible assumption) (drawNat_leaves _ (Leaves.refl _ _)) (by decide))

theorem markLog_leaves (i : Nat) (s : State) (hs : Leaves [.fl] z s) :
    Leaves [.fl] z (markLog i s) := by
  unfold markLog
  repeat' (first
    | with_reducible assumption | with_reducible intro _ | subst x
    | (extract_lets +onlyGivenNames x; clear_value x) | with_reducible apply Leaves.ite
    | with_reducible refine Leaves.then ?_ (setSector_leaves _ _ _ (Leaves.refl _ _)) (by decide))

theorem markLogFrom_leaves (m : Nat) (s : State) (hs : Leaves [.fl] z s) :
    Leaves [.fl] z (markLogFrom m s) := by
  unfold markLogFrom
  repeat' (first
    | with_reducible assumption | with_reducible intro _ | subst x | with_reducible apply Leaves.ite
    | with_reducible refine Leaves.then ?_ (markLog_leaves _ _ (Leaves.refl _ _)) (by decide))

theorem cutLog_leaves (s : State) (hs : Leaves [.clk, .free, .fl] z s) :
    Leaves [.clk, .free, .fl] z (cutLog s) := by
  unfold cutLog
  repeat' (first
    | with_reducible assumption | with_reducible intro _ | subst x
    | (extract_lets +onlyGivenNames x; have hx : Leaves [.clk, .free, .fl] z x := ?_; clear_value x)
    | (extract_lets +onlyGivenNames x; clear_value x) | with_reducible apply Leaves.ite | split
    | with_reducible refine Leaves.then ?_ (markLogFrom_leaves _ _ (Leaves.refl _ _)) (by decide)
    | with_reducible refine Leaves.then ?_ (writeQueue_leaves _ _ (Leaves.refl _ _)) (by decide)
    | with_reducible refine Leaves.then ?_ (appendRec_leaves _ _ (Leaves.refl _ _)) (by decide)
    | with_reducible refine Leaves.then ?_ (programCloses_leaves _ (Leaves.refl _ _)) (by decide)
    | with_reducible refine Leaves.then ?_ (drawBool_leaves _ (Leaves.refl _ _)) (by decide)
    | refine leaves_pair (by with_reducible assumption) ?_ | dsimp only
    | exact Leaves.then (by with_reducible assumption) (drawBool_leaves _ (Leaves.refl _ _)) (by decide))

theorem cutLogErase_leaves (i : Nat) (s : State) (hs : Leaves [.free, .fl] z s) : Leaves [.free, .fl] z (cutLogErase i s) := by
  have hc := cutErase_leaves (208 + i) true s hs
  unfold cutLogErase
  dsimp only
  split <;> exact hc

theorem cutUpd_leaves (n : Nat) (s : State) (hs : Leaves [.free, .fl, .upd] z s) : Leaves [.free, .fl, .upd] z (cutUpd n s) := by
  have hc := (cutErase_leaves ((if s.upd.bootedB then 0 else 96) + n) false s (Leaves.refl _ _)).after hs (by decide)
  unfold cutUpd
  dsimp only
  generalize cutErase _ _ s = p at hc ⊢
  repeat' (first | exact hc | split)

theorem cutRefresh_leaves (p : Nat) (s : State) (hs : Leaves [.free, .fl] z s) :
    Leaves [.free, .fl] z (cutRefresh p s) := by
  unfold cutRefresh
  repeat' (first
    | with_reducible assumption | with_reducible intro _ | subst x
    | (extract_lets +onlyGivenNames x; clear_value x) | with_reducible apply Leaves.ite | split
    | with_reducible refine Leaves.then ?_ (cutErase_leaves _ _ _ (Leaves.refl _ _)) (by decide)
    | with_reducible refine Leaves.then ?_ (setSector_leaves _ _ _ (Leaves.refl _ _)) (by decide)
    | dsimp only
    | exact Leaves.then (by with_reducible assumption) (drawBool_leaves _ (Leaves.refl _ _)) (by decide)
    | exact Leaves.then (by with_reducible assumption) (cutErase_leaves _ _ _ (Leaves.refl _ _)) (by decide))

theorem dropSlot_leaves (s : State) (hs : Leaves [.clk, .free, .safe, .pat, .gau, .fl, .upd] z s) :
    Leaves [.clk, .free, .safe, .pat, .gau, .fl, .upd] z (dropSlot s) := by
  unfold dropSlot
  split
  · exact hs
  next sl _ =>
    have hd : Leaves [.clk, .free, .safe, .pat, .gau, .fl, .upd] z { s with fl := { s.fl with slot := none } } := hs
    dsimp only
    generalize State.mk _ _ _ _ _ _ _ _ _ _ _ _ _ _ _ _ _ _ _ _ _ _ _ _ _ _ _ _ = t at hd ⊢
    generalize slotSector s sl = n
    split
    · exact (cutLog_leaves t (Leaves.refl _ _)).after hd (by decide)
    · exact (cutLogErase_leaves _ t (Leaves.refl _ _)).after hd (by decide)
    · exact (cutLogErase_leaves _ t (Leaves.refl _ _)).after hd (by decide)
    · exact (cutUpd_leaves _ t (Leaves.refl _ _)).after hd (by decide)
    · exact (settleBanks_leaves _ (Leaves.refl _ _)).after ((cutRefresh_leaves _ t (Leaves.refl _ _)).after hd (by decide)) (by decide)
    · split
      · exact (settleBanks_leaves _ (Leaves.refl _ _)).after ((cutErase_leaves _ _ t (Leaves.refl _ _)).after hd (by decide)) (by decide)
      · exact hd

end Sys2Proof.Machine
end

section
/-! Supplies (R18, R21, R22). -/

namespace Sys2Proof

open Sys2Proof.Machine

/-- What a loss of the logic supply leaves, from the flash in any state. -/
theorem supplyLost_spec {s : State} (h : s.glob.supplied = true) :
    (supplyLost s).glob.supplied = false ∧ (supplyLost s).glob.fwup = false ∧ (supplyLost s).rl = {} ∧ (supplyLost s).seq.rst = 0x1F ∧
    (supplyLost s).clk.timers = [] ∧ (supplyLost s).plt.s2 = false ∧ (supplyLost s).plt.gen = false ∧
    (supplyLost s).glob.borNext = decide (s.glob.st ≠ .sleep ∧ s.glob.st ≠ .ship) := by
  have l := dropSlot_leaves (dropPower s) (Leaves.refl _ _)
  have rails : (dropSlot (dropPower s)).rl = {} := l.same .rl (by decide)
  have pilot : (dropSlot (dropPower s)).plt = { s.plt with base := true, s2 := false, gen := false } := l.same .plt (by decide)
  have glob : (dropPower s).glob = s.glob := rfl
  have outputs : (dropSlot (dropPower s)).seq.rst = 0x1F := congrArg Seq.rst (l.marked .seq (by decide))
  simp [supplyLost, h, rails, pilot, outputs, glob]

/-- Settles O4: each supply command's arm, and for a loss what `dropPower` and the flash's stop leave. -/
theorem supplies : Obligations.Supplies := by
  refine ⟨fun s vsys vin ohms h => ?_, fun s vsys vin ohms h k => ?_, fun s vin h => ?_, fun s vin h k m => ?_, fun s vin h k m => ?_,
    fun s h => .of_eq (t := supplyLost s) rfl (supplyLost_spec h), fun s h => ⟨_, rfl, ?_⟩, fun s h => ?_⟩
  · have n : ¬(vsys < 2700 ∧ vin < 2700) := by omega
    refine ⟨_, rfl, ?_⟩
    simp only [n, if_false]
    obtain ⟨boots, cause, supplied, source, -⟩ := bootStart_spec .por { dropPower s with
      glob := { s.glob with supplied := true, logsrc := decide (vsys < 2700), vsys := vsys, vin := vin, clocked := true, ohms := ohms } }
    exact ⟨boots, supplied, source, cause⟩
  · show execPowerOnReset vsys vin ohms s = _
    simp [execPowerOnReset, h, k]
  · show execLogicSupplySelect true vin s = _
    simp [execLogicSupplySelect, h]
  · show execLogicSupplySelect false vin s = _
    simp [execLogicSupplySelect, h, k, m]
  · have n : ¬2700 ≤ vin := by omega
    refine .of_eq (t := supplyLost { s with glob := { s.glob with vsys := 2599, vin := vin } }) ?_ (supplyLost_spec h)
    show execLogicSupplySelect false vin s = _
    simp [execLogicSupplySelect, h, k, n]
  · simp [h, dropPower, dropPath, only_iff]
  · show execVaonOutOfWindow false s = _
    simp [execVaonOutOfWindow, h]

end Sys2Proof
end

section
/-! SUPPORT. Host accesses while the full register set is answered, and pending bits and power through the small operations. -/

namespace Sys2Proof

open Sys2Proof.Machine

/-! Host accesses. -/

theorem exec_onPage {s : State} {c : Instr} {p : Nat} {f : State → State} (h : Served s) (e : exec c s = .next (onPage p f s)) :
    exec c s = .next (f (cancelKey (ackAccess s))) := by
  rw [e, onPage_served h]

theorem exec_onRead {s : State} {c : Instr} {p : Nat} {f : State → State} (h : Served s) (e : exec c s = .next (onRead p f s)) :
    exec c s = .next (f (ackAccess s)) := by
  rw [e]
  simp [onRead, h.1, h.2]

theorem anvilOn_served {s : State} (h : Served s) : anvilOn s = true := busUp_anvil h.1

/-! Power and pending bits. -/

@[simp] theorem anvilOn_arm (dt : Nat) (e : Instr) (s : State) : anvilOn (arm dt e s) = anvilOn s := rfl
@[simp] theorem anvilOn_disarm (e : Instr) (s : State) : anvilOn (disarm e s) = anvilOn s := rfl
@[simp] theorem anvilOn_ackAccess (s : State) : anvilOn (ackAccess s) = anvilOn s := rfl
@[simp] theorem anvilOn_cancelKey (s : State) : anvilOn (cancelKey s) = anvilOn s := rfl
@[simp] theorem anvilOn_raiseG (g b : Nat) (s : State) : anvilOn (raiseG g b s) = anvilOn s := anvilOn_raise _ s

/-- After a raise a source of an event is pending if it was, or is the one raised. -/
theorem isPend_raiseG {s : State} (h : anvilOn s = true) (g b : Nat) {k : Nat} (hk : isLogLoss k = false) :
    isPend (raiseG g b s) k = (isPend s k || decide (k = 16 * g + b)) := isPend_raise h _ k hk

@[simp] theorem isPend_arm (dt : Nat) (e : Instr) (s : State) (k : Nat) : isPend (arm dt e s) k = isPend s k := rfl
@[simp] theorem isPend_disarm (e : Instr) (s : State) (k : Nat) : isPend (disarm e s) k = isPend s k := rfl
@[simp] theorem isPend_enqueue (c : Instr) (s : State) (k : Nat) : isPend (enqueue c s) k = isPend s k := rfl
@[simp] theorem isPend_enqueueOnce (c : Instr) (s : State) (k : Nat) : isPend (enqueueOnce c s) k = isPend s k :=
  isPend_congr (by simp) k

theorem pl_congr {s t : State} (h : t.regs = s.regs) : pl t = pl s := by unfold pl; rw [h]
theorem lv_congr {s t : State} (h : t.regs = s.regs) : lv t = lv s := by unfold lv; rw [h]

/-- A BUSERR bit that is new: it is set, and BUSERR is pending. -/
theorem buserr_new {b : Nat} {s : State} (n : s.glob.buserr.getLsbD b = false) :
    buserr b s = raiseG 56 12 { s with glob := { s.glob with buserr := setBit s.glob.buserr b true } } := by
  simp [buserr, n]

theorem buserr_same {b : Nat} {s : State} (n : s.glob.buserr.getLsbD b = true) : buserr b s = s := by
  simp [buserr, n]

end Sys2Proof
end

section
/-! Editing and validating the schedule (R49 to R51). -/

namespace Sys2Proof

open Sys2Proof.Machine

theorem editBank_setEdit (b : Map (BitVec 32)) (s : State) : editBank (setEdit b s) = b := by
  cases h : s.cyc.actB <;> simp [setEdit, editBank, h]

theorem actBank_setEdit (b : Map (BitVec 32)) (s : State) : actBank (setEdit b s) = actBank s := by
  cases h : s.cyc.actB <;> simp [setEdit, actBank, h]

theorem setEdit_only (b : Map (BitVec 32)) (s : State) : Only [.cyc] s (setEdit b s) := by
  cases h : s.cyc.actB <;> simp [setEdit, only_iff, h]

theorem setEdit_regs (b : Map (BitVec 32)) (s : State) : (setEdit b s).regs = s.regs := setEdit_only b s .regs (by decide)

theorem schIdxNext_regs {s t : State} (h : t.regs = s.regs) : (schIdxNext t).regs = (schIdxNext s).regs := by
  simp only [schIdxNext, schIdx, putPlain, pl, h]

theorem editBank_congr {s t : State} (h : t.cyc = s.cyc) : editBank t = editBank s := by unfold editBank; rw [h]
theorem actBank_congr {s t : State} (h : t.cyc = s.cyc) : actBank t = actBank s := by unfold actBank; rw [h]

theorem schIdx_putPlain (v : Byte) (s : State) : schIdx (putPlain (key 1 0x24) [v] s) = schIdx s := by
  unfold schIdx rdBits pl
  exact congrArg (fun b : Byte => b.toNat / 2 ^ 0 % 2 ^ 7) (mget_mput_other _ v (by decide) s.regs.plain)

theorem schent3Byte_open {v : Byte} {s : State} (h : swapPending s = false) : schent3Byte v s =
    schIdxNext (setEdit (mput 0 (editBank s) (schIdx s)
      (BitVec.ofNat 32 (rdNat (pl (putPlain (key 1 0x24) [v] s)) (key 1 0x21) 4))) (putPlain (key 1 0x24) [v] s)) := by
  rw [← schIdx_putPlain v s]
  simp [schent3Byte, h]; rfl

/-- While a swap is pending an editing write is refused with BUSERR.RORSV (R49). -/
theorem edit_refused {c : Instr} {f : State → State} {s : State} (a : Served s) (n : s.glob.buserr.getLsbD 0 = false)
    (e : exec c s = .next (onPage 1 f s)) (r : ∀ u : State, u.cyc = s.cyc → f u = berrRorsv u) :
    Ends c s (fun t => t.cyc = s.cyc ∧ t.regs = s.regs ∧ t.glob.buserr = setBit s.glob.buserr 0 true ∧ isPend t (16 * 56 + 12) = true) := by
  refine .of_eq ((exec_onPage a e).trans (congrArg _ ((r (cancelKey (ackAccess s)) rfl).trans (buserr_new (b := 0) n)))) ?_
  refine ⟨by simp, by simp, by simp, isPend_raiseG_self ?_ 56 12⟩
  exact anvilOn_served a

/-- Rule 1 of R51 comes first. -/
theorem schValidate_action {nom : Nat} {b : Map (BitVec 32)} {i : Nat} {e : BitVec 32} (m : (i, e) ∈ b) (h : 7 < entAction e) :
    ∃ j, schValidate nom b = some (1, j) := by
  have found : (b.find? fun (_, e) => decide (entAction e > 7 ∨ entByte e 2 ≥ 16)).isSome := by
    rw [List.find?_isSome]
    exact ⟨(i, e), m, by simp [h]⟩
  obtain ⟨p, hp⟩ := Option.isSome_iff_exists.mp found
  exact ⟨p.1, by simp only [schValidate, hp, Option.map_some]⟩

/-- Settles O10: an editing write acts on the edit bank of an acknowledged access, or is refused while a swap is pending. -/
theorem scheduleEditing : Obligations.ScheduleEditing := by
  refine ⟨fun s v a h => .of_eq (exec_onPage (f := schent3Byte v) a rfl) ?_, fun s a => .of_eq (exec_onRead a rfl) ?_,
    fun s a h => .of_eq (exec_onPage (f := schSwap) a rfl) ?_, fun s a h => .of_eq (exec_onPage (f := schCopy) a rfl) ?_,
    fun s a h => .of_eq (exec_onPage (f := schClear) a rfl) ?_, fun s c v a h n e => ?_, fun s r i a h k v => yields_raiseG a ?_,
    fun s h k v => ?_, fun nom b i e m h => schValidate_action m h⟩
  · rw [schent3Byte_open (by exact h)]
    have cyc (x : State) : (schIdxNext x).cyc = x.cyc := rfl
    refine ⟨(editBank_congr (cyc _)).trans (editBank_setEdit _ _), (actBank_congr (cyc _)).trans (actBank_setEdit _ _),
      schIdxNext_regs (setEdit_regs _ _), ?_⟩
    cases b : s.cyc.actB <;> simp [schIdxNext, setEdit, only_iff, b]
  · exact ⟨rfl, rfl, by simp [schIdxNext, only_iff]⟩
  · have open' : swapPending (cancelKey (ackAccess s)) = false := h
    simp [schSwap, open', only_iff]
  · have open' : swapPending (cancelKey (ackAccess s)) = false := h
    simp only [schCopy, open', Bool.false_eq_true, if_false]
    exact ⟨editBank_setEdit _ _, actBank_setEdit _ _, by cases b : s.cyc.actB <;> simp [setEdit, only_iff, b]⟩
  · have open' : swapPending (cancelKey (ackAccess s)) = false := h
    simp only [schClear, open', Bool.false_eq_true, if_false]
    exact ⟨editBank_setEdit _ _, actBank_setEdit _ _, by cases b : s.cyc.actB <;> simp [setEdit, only_iff, b]⟩
  · have held (u : State) (c : u.cyc = s.cyc) : swapPending u = true := by unfold swapPending; rw [c]; exact h
    rcases e with rfl | rfl | rfl | rfl
    · exact edit_refused (f := schent3Byte v) a n rfl fun u c => by simp [schent3Byte, held u c]
    · exact edit_refused (f := schSwap) a n rfl fun u c => by simp [schSwap, held u c]
    · exact edit_refused (f := schCopy) a n rfl fun u c => by simp [schCopy, held u c]
    · exact edit_refused (f := schClear) a n rfl fun u c => by simp [schClear, held u c]
  · show execScheduleValidationEnd s = _
    simp [execScheduleValidationEnd, schValidated, h, k, v]
  · show execScheduleValidationEnd s = _
    simp [execScheduleValidationEnd, schValidated, h, k, v]

end Sys2Proof
end

section
/-! Reads of command codes on the host bus (R8, R28, R343 to R348, R355, R356). -/

namespace Sys2Proof

open Sys2Proof.Machine

/-! A window read, offset after offset. -/

theorem readSeq_beyond {o : Nat} (h : 0xDF < o) (p n : Nat) (s : State) : readSeq p n o s = (List.replicate n 0xFF, s) := by
  cases n with
  | zero => rfl
  | succ n => simp [readSeq, h]

theorem readSeq_succ {o : Nat} (h : o ≤ 0xDF) (p n : Nat) (s : State) : readSeq p (n + 1) o s =
    ((readOne p o s).1 :: (readSeq p n (o + 1) (readOne p o s).2).1, (readSeq p n (o + 1) (readOne p o s).2).2) := by
  simp [readSeq, Nat.not_lt.mpr h]

theorem readSeq_one {o : Nat} (h : o ≤ 0xDF) (p : Nat) (s : State) : readSeq p 1 o s = ([(readOne p o s).1], (readOne p o s).2) := by
  rw [readSeq_succ h]; rfl

theorem readSeq_length (p n o : Nat) (s : State) : (readSeq p n o s).1.length = n := by
  induction n generalizing o s with
  | zero => rfl
  | succ n ih =>
    by_cases h : 0xDF < o
    · rw [readSeq_beyond h]; simp
    · rw [readSeq_succ (by omega)]; simp [ih]

theorem readOne_unallocated {p : Nat} (h : allocated p = false) (o : Nat) (s : State) : readOne p o s = (0xFF, berrUnalloc s) := by
  simp [readOne, h]

theorem berrUnalloc_idem (s : State) : berrUnalloc (berrUnalloc s) = berrUnalloc s := by
  refine buserr_same ?_
  by_cases h : s.glob.buserr.getLsbD 3 = true
  · rw [berrUnalloc, buserr_same h]; exact h
  · rw [berrUnalloc, buserr_new (by simpa using h), raiseG, raise_glob]
    exact getLsbD_setBit_self (by decide) _ true

theorem readSeq_unallocated {p : Nat} (h : allocated p = false) (n o : Nat) (s : State) (ho : o ≤ 0xDF) :
    readSeq p (n + 1) o s = (List.replicate (n + 1) 0xFF, berrUnalloc s) := by
  induction n generalizing o s with
  | zero => rw [readSeq_one ho, readOne_unallocated h]; rfl
  | succ n ih =>
    rw [readSeq_succ ho, readOne_unallocated h]
    by_cases g : o + 1 ≤ 0xDF
    · simp only [ih (o + 1) (berrUnalloc s) g, berrUnalloc_idem]; rfl
    · simp only [readSeq_beyond (show 0xDF < o + 1 by omega)]; rfl

/-! A read of a command code. -/

theorem exec_read {s : State} (h : Served s) (code : Byte) (n : Nat) : exec (.fieldLatchRead code n) s = .next (readCode code n s) := by
  show execFieldLatchRead code n s = _
  simp [execFieldLatchRead, responder_of_busUp h.1, h.1]

theorem readWindow_plain {s : State} (h : s.glob.floor = false) (k : pecOn s = false) (o n : Nat) :
    readWindow o n s = drive (readSeq s.regs.page.toNat n o s).1 (readSeq s.regs.page.toNat n o s).2 := by
  simp [readWindow, h, windowLen, k, driveWindow, readSeq_length]

theorem readCode_window {s : State} (h : Served s) (k : pecOn s = false) {code : Byte} (c : code.toNat < 0xE0) (n : Nat) :
    readCode code n s = drive (readSeq s.regs.page.toNat n code.toNat (ackAccess s)).1 (readSeq s.regs.page.toNat n code.toNat (ackAccess s)).2 := by
  have l : listed code = true := by simp [listed]; omega
  have d : floorDenies s code = false := by simp [floorDenies, h.2]
  rw [readCode, l, d]
  simp only [Bool.not_true, Bool.or_self, Bool.false_eq_true, if_false, c, if_true]
  exact readWindow_plain (s := ackAccess s) h.2 k _ _

/-- A read of one byte of a page. -/
theorem exec_readOne {s : State} (h : Served s) (k : pecOn s = false) {code : Byte} (c : code.toNat < 0xE0) :
    exec (.fieldLatchRead code 1) s = .next (drive [(readOne s.regs.page.toNat code.toNat (ackAccess s)).1]
      (readOne s.regs.page.toNat code.toNat (ackAccess s)).2) := by
  rw [exec_read h, readCode_window h k c, readSeq_one (by omega)]

/-! One byte. -/

theorem wideAt_pend {p o : Nat} (hp : p = 0x50 ∨ p = 0x51) (h : o < 0x80) (m : o % 4 = 0) : wideAt p o = some (o, 2) := by
  have all : ∀ j < 32, wideAt 0x50 (4 * j) = some (4 * j, 2) ∧ wideAt 0x51 (4 * j) = some (4 * j, 2) := by decide
  obtain ⟨a, b⟩ := all (o / 4) (by omega)
  rw [show 4 * (o / 4) = o by omega] at a b
  rcases hp with rfl | rfl <;> assumption

/-- Where reading an offset does more than return its byte, the offset is the lowest of its field or of no field. -/
theorem readEffect_high {p o b n : Nat} (w : wideAt p o = some (b, n)) (h : o ≠ b) (s : State) : readEffect p o s = s := by
  unfold readEffect
  split_ifs with c1 c2 c3 c4
  · obtain ⟨rfl, rfl⟩ := c1
    rw [show wideAt 0x01 0x10 = some (0x10, 4) by decide] at w
    cases w; exact absurd rfl h
  · obtain ⟨rfl, rfl⟩ := c2
    rw [show wideAt 0x48 0 = none by decide] at w
    cases w
  · obtain ⟨rfl, rfl⟩ := c3
    rw [show wideAt 0x3A 0x81 = none by decide] at w
    cases w
  · obtain ⟨hp, ho, hm⟩ := c4
    rw [wideAt_pend hp ho hm] at w
    cases w; exact absurd rfl h
  · rfl

theorem readEffect_only (p o : Nat) (s : State) : Only [.cyc, .cal, .hk, .irq] s (readEffect p o s) := by
  unfold readEffect
  split_ifs <;> simp [only_iff]

theorem stagedPages_cases {p : Nat} (h : stagedPages.contains p = true) :
    allocated p = true ∧ p ≠ 0x01 ∧ p ≠ 0x48 ∧ p ≠ 0x3A ∧ p ≠ 0x50 ∧ p ≠ 0x51 := by
  have all : ∀ q ∈ stagedPages, allocated q = true ∧ q ≠ 0x01 ∧ q ≠ 0x48 ∧ q ≠ 0x3A ∧ q ≠ 0x50 ∧ q ≠ 0x51 := by decide
  exact all p (by simpa using h)

/-- A byte of a staged page that is no part of a field of several offsets. -/
theorem readOne_staged {p o : Nat} (h : stagedPages.contains p = true) (w : wideAt p o = none) (s : State) : readOne p o s = (readReg s p o, s) := by
  obtain ⟨a, n1, n2, n3, n4, n5⟩ := stagedPages_cases h
  simp [readOne, a, readEffect, n1, n2, n3, n4, n5, w]

theorem readOne_high {p o b n : Nat} {s : State} {hi : List Byte} (a : allocated p = true) (w : wideAt p o = some (b, n)) (h : o ≠ b)
    (l : s.regs.latch = some (key p b, hi)) : readOne p o s = (hi.getD (o - b - 1) 0, s) := by
  simp [readOne, a, w, h, readEffect_high w h, l]

theorem readOne_low {p o n : Nat} (a : allocated p = true) (w : wideAt p o = some (o, n)) (s : State) :
    readOne p o s = (readReg (readEffect p o s) p o, { readEffect p o s with regs := { (readEffect p o s).regs with
      latch := some (key p o, (List.range (n - 1)).map (fun i => readReg (readEffect p o s) p (o + 1 + i))) } }) := by
  simp [readOne, a, w]

/-! BUSERR. -/

theorem setBit_of_set {n i : Nat} {v : BitVec n} (h : v.getLsbD i = true) : setBit v i true = v := by
  have hi : i < n := BitVec.lt_of_getLsbD h
  refine BitVec.eq_of_getLsbD_eq fun j hj => ?_
  by_cases e : j = i
  · subst e; rw [getLsbD_setBit_self hi, h]
  · exact getLsbD_setBit_other e v true

/-- What a bus error does: its bit is set, and where it is new BUSERR is raised. -/
theorem buserr_spec (b : Nat) {s : State} (a : anvilOn s = true) :
    (buserr b s).glob = { s.glob with buserr := setBit s.glob.buserr b true } ∧
    (s.glob.buserr.getLsbD b = false → isPend (buserr b s) (16 * 56 + 12) = true) ∧ Only ([.glob] ++ raiseParts) s (buserr b s) := by
  cases h : s.glob.buserr.getLsbD b
  · rw [buserr_new h]
    refine ⟨by simp, fun _ => isPend_raiseG_self ?_ 56 12, by simp [only_iff, raiseParts]⟩
    exact a
  · rw [buserr_same h]
    refine ⟨?_, fun n => by simp at n, Only.refl _ s⟩
    rw [setBit_of_set h]

/-- Settles O44: a read of a window is `readSeq`, of one offset `readOne`, and each other code drives its own bytes. -/
theorem hostReads : Obligations.HostReads := by
  refine ⟨fun s code n h k c => .of_eq ((exec_read h code n).trans (congrArg _ (readCode_window h k c n))) ⟨rfl, rfl⟩, fun s code n h l => ?_,
    fun s h k => ?_, fun s h k => ?_, fun s h k => ?_, fun p n o s h => ?_, fun s n h k => ?_, fun s code n h k c a => ?_, fun s code h k c p w => ?_,
    fun s code h k c d p w => ?_, fun s code u n h k c a w e => ?_, fun s code b n hi h k c a w e l => ?_⟩
  · show execFieldLatchRead code n s = _
    simp [execFieldLatchRead, responder_of_busUp h, h, readCode, l, nackAccess]
  · rw [exec_read h]
    have k' : pecOn (ackAccess s) = false := k
    simp [readCode, listed, floorDenies, h.2, readFixed, driveCode, k', drive]
  · rw [exec_read h]
    have k' : pecOn (ackAccess s) = false := k
    simp [readCode, listed, floorDenies, h.2, readFixed, driveCode, k', drive, cstatBytes]
  · show execCresRead s = _
    have k' (t : Bus) : pecOn { s with bus := t } = false := k
    simp only [execCresRead, h.1, h.2, Bool.not_false, Bool.and_self, if_true, cresBlock, driveCode]
    rw [if_neg (by simp [k', ackAccess])]
    rfl
  · rw [readSeq_succ h]
    exact ⟨rfl, rfl⟩
  · refine .of_eq ((exec_read h _ _).trans (congrArg _ (readCode_window h k (by decide) _))) ⟨readSeq_length _ _ _ _, ?_⟩
    rw [readSeq_succ (by decide), readSeq_beyond (by decide)]
    rfl
  · refine .of_eq ((exec_read h _ _).trans (congrArg _ (readCode_window h k c _))) ?_
    rw [readSeq_unallocated a n code.toNat _ (by omega)]
    obtain ⟨g, p, o⟩ := buserr_spec 3 (s := ackAccess s) (anvilOn_served h)
    have od (bs : List Byte) : Only [.bus] (berrUnalloc (ackAccess s)) (drive bs (berrUnalloc (ackAccess s))) := by simp [only_iff]
    have oa : Only ([.glob] ++ raiseParts) s (ackAccess s) := by simp [only_iff, raiseParts]
    refine ⟨rfl, ?_, congrArg Glob.buserr g, ?_, p, ?_⟩
    · simp [drive, berrUnalloc]
    · simp [drive, berrUnalloc]
    · exact (oa.step o (by decide)).step (od _) (by decide)
  · rw [exec_readOne h k (by omega), readOne_staged p w]
    simp only [readReg, p, if_true, c]
    rfl
  · rw [exec_readOne h k d, readOne_staged p w]
    have n1 : ¬code.toNat < 0x60 := by omega
    have n2 : ¬code.toNat < 0x80 := by omega
    simp only [readReg, p, if_true, n1, n2, if_false]
    rfl
  · subst e
    refine .of_eq (exec_readOne h k c) ?_
    rw [readOne_low a w]
    have o := readEffect_only s.regs.page.toNat code.toNat (ackAccess s)
    have r : (readEffect s.regs.page.toNat code.toNat (ackAccess s)).regs = s.regs := o .regs (by decide)
    refine ⟨rfl, by simp [r], ?_⟩
    have oa : Only [.bus] s (ackAccess s) := by simp [only_iff]
    have od (v : State) (bs : List Byte) (x : Regs) : Only [.bus, .regs] v (drive bs { v with regs := x }) := by simp [only_iff]
    exact ((oa.weaken (by decide)).step o (by decide)).step (od _ _ _) (by decide)
  · rw [exec_readOne h k c, readOne_high (s := ackAccess s) a w e l]
    rfl

end Sys2Proof
end

section
/-! The end of a cycle, and the read of CYCCNT (R40, R41, R48, R50, R60). -/

namespace Sys2Proof

open Sys2Proof.Machine

theorem hasAction_congr {s t : State} (h : t.cyc = s.cyc) (a : Nat) : hasAction t a = hasAction s a := by
  unfold hasAction actBank; rw [h]

theorem mem_enqueue (c : Instr) (s : State) : c ∈ (enqueue c s).pending := by simp [enqueue]

theorem mem_enqueueOnce_of_mem {c : Instr} {s : State} (h : c ∈ s.pending) (e : Instr) : c ∈ (enqueueOnce e s).pending := by
  unfold enqueueOnce
  split
  · exact h
  · exact List.mem_append_left _ h

/-! What waits for angle 0 only joins the queue. -/

theorem angle0Defaults_only (s : State) : Only [.pending] s (angle0Defaults s) := by
  unfold angle0Defaults
  dsimp only
  repeat' split
  all_goals simp [only_iff]

theorem angle0Defaults_commit {s : State} (h : hasAction s 3 = false) : .commit ∈ (angle0Defaults s).pending := by
  have queued (c : Prop) [Decidable c] : .commit ∈ (if c then enqueue .commit s else enqueue .swap (enqueue .commit s)).pending := by
    split
    · exact mem_enqueue _ s
    · exact List.mem_append_left _ (mem_enqueue _ s)
  unfold angle0Defaults
  simp only [h, Bool.false_eq_true, if_false]
  split
  · split
    · exact mem_enqueueOnce_of_mem (by split <;> simp [enqueue]) _
    · split <;> simp [enqueue]
  · split <;> simp [enqueue]

/-! The parts of a cycle's end, in their order. -/

/-- The count, NOMFREQ in force and the cycles of ACQTMO at the end of a cycle. -/
def countCycle (s : State) : State :=
  { s with cyc := { s.cyc with
      cnt := s.cyc.cnt + 1, nom := rdNat (pl s) (key 1 2) 2
      rate := if s.cyc.pll = .free then rdNat (pl s) (key 1 2) 2 * 256 else s.cyc.rate
      acqCyc := if s.cyc.pll = .acq then s.cyc.acqCyc + 1 else s.cyc.acqCyc } }

/-- The count with its wrap, and ACQTMO as its cycles are over. -/
def cycleCounted (s : State) : State :=
  let s := raiseIf (decide (s.cyc.cnt = 0xFFFFFFFF)) (16 * 47 + 10) (countCycle s)
  if s.cyc.pll = .acq ∧ s.cyc.acqCyc = 8 then enqueueOnce .acqtmo s else s

/-- The triangle of the dither starts at angle 0 where no entry restarts it. -/
def ditherWrap (s : State) : State := if hasAction s 7 then s else { s with qt := { s.qt with dith0 := 0 } }

theorem cycleWrap_eq (s : State) :
    cycleWrap s = angle0Defaults (armAngle0 (ditherWrap (exchangeBanks (quietCheck (quietWrap (cycleCounted s)))))) := rfl

theorem cycleCounted_only (s : State) : Only ([.pending] ++ raiseParts) (countCycle s) (cycleCounted s) := by
  unfold cycleCounted
  dsimp only
  split <;> simp [only_iff, raiseParts]

theorem cycleCounted_wrap {s : State} (a : anvilOn s = true) (h : s.cyc.cnt = 0xFFFFFFFF) : isPend (cycleCounted s) (16 * 47 + 10) = true := by
  have up : anvilOn (countCycle s) = true := a
  unfold cycleCounted
  dsimp only
  split <;> simp [raiseIf, h, (raise_raised _ (countCycle s) up).marked]

theorem exchangeBanks_cyc (s : State) : (exchangeBanks s).cyc =
    if s.cyc.swapOk then { s.cyc with actB := !s.cyc.actB, schSt := 2, swapOk := false } else s.cyc := by
  unfold exchangeBanks
  split
  · exact raise_cyc _ _
  · rfl

theorem exchangeBanks_only (s : State) : Only ([.cyc] ++ raiseParts) s (exchangeBanks s) := by
  unfold exchangeBanks
  split <;> simp [only_iff, raiseParts]

theorem exchangeBanks_kept {s : State} (a : anvilOn s = true) {k : Nat} (h : isPend s k = true) : isPend (exchangeBanks s) k = true := by
  unfold exchangeBanks
  split
  · refine isPend_raiseG_kept ?_ 47 6 h
    exact a
  · exact h

theorem exchangeBanks_done {s : State} (a : anvilOn s = true) (h : s.cyc.swapOk = true) : isPend (exchangeBanks s) (16 * 47 + 6) = true := by
  unfold exchangeBanks
  rw [if_pos h]
  refine isPend_raiseG_self ?_ 47 6
  exact a

/-- After the exchange of the banks only the dither's start, the actions at angle 0 and the queue still change. -/
def settled (s : State) : State := angle0Defaults (armAngle0 (ditherWrap s))

theorem settled_only (s : State) : Only [.pending, .cyc, .qt] s (settled s) := by
  have d : Only [.cyc, .qt] s (armAngle0 (ditherWrap s)) := by
    unfold ditherWrap
    split <;> simp [armAngle0, only_iff]
  exact (d.weaken (by decide)).trans ((angle0Defaults_only _).weaken (by decide))

theorem settled_cyc (s : State) : ∃ as, (settled s).cyc = { s.cyc with acts := as } := by
  have d : (ditherWrap s).cyc = s.cyc := by unfold ditherWrap; split <;> rfl
  have e : (armAngle0 (ditherWrap s)).cyc = { (ditherWrap s).cyc with acts := (armAngle0 (ditherWrap s)).cyc.acts } := rfl
  have a : (settled s).cyc = (armAngle0 (ditherWrap s)).cyc := angle0Defaults_only _ .cyc (by decide)
  exact ⟨_, a.trans (e.trans (by rw [d]))⟩

theorem settled_qt (s : State) : ∃ d, (settled s).qt = { s.qt with dith0 := d } := by
  have a : (settled s).qt = (ditherWrap s).qt := angle0Defaults_only _ .qt (by decide)
  rw [a]
  unfold ditherWrap
  split
  · exact ⟨s.qt.dith0, rfl⟩
  · exact ⟨0, rfl⟩

theorem settled_commit {s : State} (h : hasAction s 3 = false) : .commit ∈ (settled s).pending := by
  refine angle0Defaults_commit ?_
  have c : (ditherWrap s).cyc = s.cyc := by unfold ditherWrap; split <;> rfl
  have b : actBank (armAngle0 (ditherWrap s)) = actBank s := by simp [actBank, armAngle0, c]
  simpa [hasAction, b] using h

theorem settled_pend (s : State) (k : Nat) : isPend (settled s) k = isPend s k :=
  isPend_congr (congrArg Irq.pend (settled_only s .irq (by decide))) k

/-- The state before the banks exchange. -/
def quieted (s : State) : State := quietCheck (quietWrap (cycleCounted s))

theorem quieted_cyc (s : State) : (quieted s).cyc = (countCycle s).cyc := cycleCounted_only s .cyc (by decide)

theorem quieted_qt (s : State) : (quieted s).qt = { s.qt with
    n := 0, nOld := s.qt.n, curOld := s.qt.on, breach := s.qt.brCur, skip := s.qt.skCur, brCur := 0, skCur := 0 } := by
  have e : (cycleCounted s).qt = s.qt := cycleCounted_only s .qt (by decide)
  simp [quieted, quietCheck, quietWrap, e]

theorem quieted_anvil (s : State) : anvilOn (quieted s) = anvilOn s := by
  have g : (quieted s).glob = s.glob := cycleCounted_only s .glob (by decide)
  have o : (quieted s).otp = s.otp := cycleCounted_only s .otp (by decide)
  simp [anvilOn, g, o]

theorem quieted_wrap {s : State} (a : anvilOn s = true) (h : s.cyc.cnt = 0xFFFFFFFF) : isPend (quieted s) (16 * 47 + 10) = true :=
  cycleCounted_wrap a h

theorem quieted_only (s : State) : Only ([.cyc, .qt, .hk, .pending] ++ raiseParts) s (quieted s) := by
  have c : Only [.cyc] s (countCycle s) := by simp [countCycle, only_iff]
  have q (t : State) : Only [.qt, .hk] t (quietCheck (quietWrap t)) := by simp [quietCheck, quietWrap, only_iff]
  exact ((c.weaken (by decide)).step (cycleCounted_only s) (by decide)).step (q _) (by decide)

theorem exec_cycleEnd {s : State} (a : anvilOn s = true) : exec .cycleEnd s = .next (settled (exchangeBanks (quieted s))) := by
  show execCycleEnd s = _
  simp only [execCycleEnd, a, if_true, cycleWrap_eq]
  rfl

theorem countCycle_rate (s : State) : (countCycle s).cyc.rate = if s.cyc.pll = .free then (countCycle s).cyc.nom * 256 else s.cyc.rate := rfl

theorem hasAction_quieted (s : State) (a : Nat) : hasAction (quieted s) a = hasAction s a := by
  simp [hasAction, actBank, quieted_cyc, countCycle]

theorem exec_cyccntRead {s : State} (h : Served s) : exec .cyccntRead s = .next { s with
    cyc := { s.cyc with lcnt := s.cyc.cnt, lfine := fineOf s.cyc.phase, lpll := s.cyc.pll }
    regs := { s.regs with latch := some (key 1 0x10, (leBytes 4 s.cyc.cnt.toNat).drop 1) }
    bus := { s.bus with nack := false, rdata := [BitVec.ofNat 8 s.cyc.cnt.toNat] } } := by
  have low : leBytes 1 s.cyc.cnt.toNat = [BitVec.ofNat 8 s.cyc.cnt.toNat] := by simp [leBytes]
  rw [exec_onRead (p := 1) h (show exec .cyccntRead s = .next (onRead 1 _ s) from rfl), ← low]
  rfl

/-- The other bytes of CYCCNT come from the latch. -/
theorem cyccnt_latched {s : State} {n : Nat} (i : Fin 3) (l : s.regs.latch = some (key 1 0x10, (leBytes 4 n).drop 1)) :
    readOne 1 (0x11 + i.val) s = (BitVec.ofNat 8 (n / 256 ^ (i.val + 1)), s) := by
  have w : ∀ j : Fin 3, wideAt 1 (0x11 + j.val) = some (0x10, 4) := by decide
  rw [readOne_high (by decide) (w i) (by omega) l]
  fin_cases i <;> simp [leBytes, Nat.div_div_eq_div_mul]

/-- Settles O9: the end of a cycle is the count, the quiet windows, the exchange of the banks and what waits for angle 0, in this order. -/
theorem cycleEnds : Obligations.CycleEnds := by
  refine ⟨fun s a => .of_eq (exec_cycleEnd a) ?_, fun s h => exec_cyccntRead h, fun s n i h k p l => ?_⟩
  · have on : anvilOn (quieted s) = true := (quieted_anvil s).trans a
    obtain ⟨as, c⟩ := settled_cyc (exchangeBanks (quieted s))
    obtain ⟨d, q⟩ := settled_qt (exchangeBanks (quieted s))
    have qt : (exchangeBanks (quieted s)).qt = (quieted s).qt := exchangeBanks_only _ .qt (by decide)
    have commits (w : s.cyc.swapOk = false) (m : hasAction s 3 = false) : hasAction (exchangeBanks (quieted s)) 3 = false := by
      rw [hasAction_congr (s := quieted s) (by rw [exchangeBanks_cyc, quieted_cyc]; simp [countCycle, w])]
      exact (hasAction_quieted s 3).trans m
    refine ⟨?_, ?_, ?_, ?_, ?_, ?_, ?_, ?_, ?_, ?_, fun w => ?_, fun w => ⟨?_, ?_, ?_⟩, fun w => ⟨?_, ?_⟩, fun w m => settled_commit (commits w m),
      ((quieted_only s).step (exchangeBanks_only _) (by decide)).step (settled_only _) (by decide)⟩
    case refine_11 => exact (settled_pend _ _).trans (exchangeBanks_kept on (quieted_wrap a w))
    case refine_14 => exact (settled_pend _ _).trans (exchangeBanks_done on (by rw [quieted_cyc]; exact w))
    case refine_6 | refine_7 | refine_8 | refine_9 | refine_10 => rw [q, qt, quieted_qt]
    all_goals
      simp only [c, exchangeBanks_cyc, quieted_cyc, countCycle]
      cases h : s.cyc.swapOk <;> simp_all [Nat.mul_comm]
  · have code : (BitVec.ofNat 8 (0x11 + i.val) : Byte).toNat = 0x11 + i.val := by rw [BitVec.toNat_ofNat]; omega
    refine .of_eq (exec_readOne h k (by omega)) ?_
    rw [code, p, show (1 : Byte).toNat = 1 from rfl, cyccnt_latched (s := ackAccess s) i l]
    exact ⟨rfl, rfl, rfl, rfl⟩

end Sys2Proof
end

section
/-! Pulses and misses of the PLL (R33 to R36). -/

namespace Sys2Proof

open Sys2Proof.Machine

/-- A change of the timebase commutes with raises. -/
theorem Raised.setCyc {l : List Nat} {s t : State} (h : Raised l s t) (c : Cyc) : Raised l { s with cyc := c } { t with cyc := c } where
  rest := congrArg (fun u : State => { u with cyc := c }) h.rest
  kept := h.kept
  marked := h.marked
  others := h.others
  counted := h.counted
  latched := h.latched
  latchKept := h.latchKept

/-! Pulses in FREE. -/

theorem pulseFree_first {s : State} (h : s.cyc.lastAcc = none) (e : Int) : pulseFree e s = acceptAt e s := by
  simp [pulseFree, h]

theorem pulseFree_late {s : State} {a : Nat} (h : s.cyc.lastAcc = some a) (d : 125000 < (s.clk.now - a) * (if edgeBoth s then 2 else 1))
    (e : Int) : pulseFree e s = acceptAt e s := by
  simp only [pulseFree, h]
  rw [if_neg (by omega), if_pos d]

theorem pulseFree_early {s : State} {a : Nat} (h : s.cyc.lastAcc = some a) (d : (s.clk.now - a) * (if edgeBoth s then 2 else 1) < 2000)
    (e : Int) : pulseFree e s = rejectPulse s := by
  simp only [pulseFree, h]
  rw [if_pos d]

theorem pulseFree_acquires {s : State} {a : Nat} (h : s.cyc.lastAcc = some a) (lo : 2000 ≤ (s.clk.now - a) * (if edgeBoth s then 2 else 1))
    (hi : (s.clk.now - a) * (if edgeBoth s then 2 else 1) ≤ 125000) (e : Int) : pulseFree e s =
    toAcq (acceptAt e { s with cyc := { s.cyc with period := s.clk.now - a, rate := pulseUnits s / (s.clk.now - a) } }) := by
  simp only [pulseFree, h]
  rw [if_neg (by omega), if_neg (by omega)]

/-! Pulses in ACQ. -/

theorem acqMissed_more {s : State} (h : s.cyc.acqMiss < 3) :
    acqMissed s = { s with cyc := { s.cyc with acqMiss := s.cyc.acqMiss + 1, good := 0 } } := by
  simp only [acqMissed]
  rw [if_neg (by omega)]

theorem acqMissed_last {s : State} (h : 3 ≤ s.cyc.acqMiss) :
    acqMissed s = toFree { s with cyc := { s.cyc with acqMiss := s.cyc.acqMiss + 1, good := 0 } } := by
  simp only [acqMissed]
  rw [if_pos (by omega)]

/-- ACQ after a pulse at an interval within bounds, with the interval and the steered rate. -/
def acqTracked (e : Int) (a : Nat) (s : State) : State :=
  let s := acceptAt e { s with cyc := { s.cyc with period := s.clk.now - a, acqMiss := 0 } }
  arm 125000 .acqMissSpan { s with cyc := { s.cyc with rate := steered s e } }

/-- The same with its run of good cycles. -/
def acqGood (e : Int) (a : Nat) (s : State) : State :=
  { acqTracked e a s with cyc := { (acqTracked e a s).cyc with
      good := goodRun (acqTracked e a s) e, goodCyc := markCycle (acqTracked e a s) e } }

theorem pulseAcq_within {s : State} {a : Nat} (h : s.cyc.lastAcc = some a) (lo : 2000 ≤ (s.clk.now - a) * (if edgeBoth s then 2 else 1))
    (hi : (s.clk.now - a) * (if edgeBoth s then 2 else 1) ≤ 125000) (r : Bool) (e : Int) : pulseAcq r e s =
    if !angofsPulse s r then acqTracked e a s
    else if 4 ≤ goodRun s e then toLock { acqGood e a s with cyc := { (acqGood e a s).cyc with expect := s.clk.now } } else acqGood e a s := by
  simp only [pulseAcq, h, Option.getD_some]
  rw [if_neg (by omega)]
  rfl

theorem pulseAcq_outside {s : State} {a : Nat} (h : s.cyc.lastAcc = some a)
    (d : (s.clk.now - a) * (if edgeBoth s then 2 else 1) < 2000 ∨ 125000 < (s.clk.now - a) * (if edgeBoth s then 2 else 1)) (r : Bool) (e : Int) :
    pulseAcq r e s = acqMissed (rejectPulse s) := by
  simp only [pulseAcq, h, Option.getD_some]
  rw [if_pos d]

/-- A rejected pulse of ACQ that is not the fourth in a row. -/
theorem acqMissed_reject {s : State} (a : anvilOn s = true) (h : s.cyc.acqMiss < 3) :
    Raised [16 * 47 + 5] { s with cyc := { s.cyc with acqMiss := s.cyc.acqMiss + 1, good := 0 } } (acqMissed (rejectPulse s)) := by
  have c : (rejectPulse s).cyc = s.cyc := raise_cyc _ s
  rw [acqMissed_more (by rw [c]; exact h), c]
  exact (raiseG_raised 47 5 s a).setCyc _

/-! Entries of the states. -/

/-- A commit that waits for lock may now apply. -/
def lockQueue (s : State) : State :=
  match s.txn.cur with
  | some c => if c.pending ∧ c.mode.toNat % 4 = 0 then enqueueOnce .commitApply s else s
  | none => s

theorem toLock_eq (s : State) : toLock s =
    lockQueue (raiseG 47 0 (armWindow (disarm .acqMissSpan { s with cyc := { s.cyc with pll := .lock, misscnt := 0 } }))) := rfl

theorem lockQueue_only (s : State) : Only [.pending] s (lockQueue s) := by
  unfold lockQueue
  repeat' split
  all_goals simp [only_iff]

theorem toLock_spec {s : State} (a : anvilOn s = true) : (toLock s).cyc = { s.cyc with pll := .lock, misscnt := 0 } ∧
    isPend (toLock s) (16 * 47) = true ∧ Only ([.cyc, .pending] ++ raiseParts) s (toLock s) := by
  rw [toLock_eq]
  generalize hu : armWindow (disarm .acqMissSpan { s with cyc := { s.cyc with pll := .lock, misscnt := 0 } }) = u
  have up : anvilOn u = true := by subst hu; exact a
  have c : u.cyc = { s.cyc with pll := .lock, misscnt := 0 } := by subst hu; rfl
  have o : Only ([.cyc, .pending] ++ raiseParts) s u := by subst hu; simp [only_iff, raiseParts, armWindow]
  have q := lockQueue_only (raiseG 47 0 u)
  have qc : (lockQueue (raiseG 47 0 u)).cyc = (raiseG 47 0 u).cyc := q .cyc (by decide)
  have qi : (lockQueue (raiseG 47 0 u)).irq = (raiseG 47 0 u).irq := q .irq (by decide)
  refine ⟨(qc.trans (raise_cyc _ u)).trans c, ?_, (o.step (m := raiseParts) ?_ (by decide)).step q (by decide)⟩
  · exact (isPend_congr (congrArg Irq.pend qi) _).trans (isPend_raiseG_self up 47 0)
  · simp [only_iff, raiseParts]

theorem toFree_cyc (s : State) :
    (toFree s).cyc = { s.cyc with pll := .free, lastAcc := none, rate := nomRate s, good := 0, acqMiss := 0, lag := 0 } := by
  unfold toFree
  dsimp only
  split <;> simp

theorem toFree_only (s : State) : Only ([.cyc] ++ raiseParts) s (toFree s) := by
  unfold toFree
  dsimp only
  split <;> simp [only_iff, raiseParts]

/-- UNLOCK from LOCK; FREERUN from ACQ and HOLD. -/
theorem toFree_event {s : State} (a : anvilOn s = true) : (s.cyc.pll = .lock → isPend (toFree s) (16 * 47 + 1) = true) ∧
    (s.cyc.pll = .acq ∨ s.cyc.pll = .hold → isPend (toFree s) (16 * 47 + 3) = true) := by
  refine ⟨fun h => ?_, fun h => ?_⟩
  · simp only [toFree, h]
    refine isPend_raiseG_self ?_ 47 1
    exact a
  · rcases h with h | h <;> simp only [toFree, h] <;> refine isPend_raiseG_self ?_ 47 3 <;> exact a

/-- Leaving a state loses no pending source. -/
theorem toFree_kept {s : State} (a : anvilOn s = true) {k : Nat} (h : isPend s k = true) : isPend (toFree s) k = true := by
  unfold toFree
  dsimp only
  split
  case h_4 => exact h
  all_goals
    refine isPend_raiseG_kept ?_ _ _ h
    exact a

/-! Pulses in LOCK and HOLD. -/

/-- The state after a pulse inside the window, before its phase error decides. -/
def tracked (e : Int) (s : State) : State :=
  let x := s.cyc.expect + trackT s
  let p := (s.clk.now - s.cyc.lastAcc.getD s.cyc.expect) / (s.cyc.misscnt + 1)
  let s := acceptAt e { s with cyc := { s.cyc with period := max 1 p, expect := x, lag := (s.clk.now : Int) - x } }
  { s with cyc := { s.cyc with rate := steered s e } }

theorem pulseLock_outside {s : State} (h : s.clk.now < winLo s ∨ winHi s < s.clk.now) (e : Int) : pulseLock e s = rejectPulse s := by
  simp only [pulseLock, h, if_true]

theorem pulseLock_tracks {s : State} {e : Int} (lo : winLo s ≤ s.clk.now) (hi : s.clk.now ≤ winHi s) (w : within e 4 = true) :
    pulseLock e s = if s.cyc.pll = .hold then toLock (tracked e s) else armWindow (tracked e s) := by
  unfold pulseLock
  dsimp only
  rw [if_neg (by omega), if_pos w]
  split
  · next h => rw [if_pos h]; rfl
  · next h => rw [if_neg h]; rfl

theorem pulseLock_loses {s : State} {e : Int} (lo : winLo s ≤ s.clk.now) (hi : s.clk.now ≤ winHi s) (w : within e 4 = false) :
    pulseLock e s = if s.cyc.pll = .lock then raiseG 47 1 (toAcq (tracked e s)) else toAcq (tracked e s) := by
  unfold pulseLock
  dsimp only
  rw [if_neg (by omega), if_neg (by simp [w])]
  split
  · next h => rw [if_pos h]; rfl
  · next h => rw [if_neg h]; rfl

theorem toAcq_only (s : State) : Only [.cyc, .clk] s (toAcq s) := by simp [toAcq, only_iff]

/-! Missing pulses. -/

/-- The state after a missing pulse, before the PLL's state follows. -/
def missed (s : State) : State :=
  let s := disarm .acceptWindowClose s
  raiseG 47 4 { s with cyc := { s.cyc with
    misscnt := min 17 (s.cyc.misscnt + 1), expect := s.cyc.expect + trackT s, lag := 0, rate := pulseUnits s / max 1 s.cyc.period } }

theorem missed_cyc (s : State) : (missed s).cyc = { s.cyc with
    misscnt := min 17 (s.cyc.misscnt + 1), expect := s.cyc.expect + trackT s, lag := 0, rate := pulseUnits s / max 1 s.cyc.period } :=
  raise_cyc _ _

theorem missed_only (s : State) : Only ([.cyc] ++ raiseParts) s (missed s) := by simp [missed, only_iff, raiseParts]

theorem missed_anvil (s : State) : anvilOn (missed s) = anvilOn s := anvilOn_raise _ _

theorem missed_event {s : State} (a : anvilOn s = true) : isPend (missed s) (16 * 47 + 4) = true := by
  refine isPend_raiseG_self ?_ 47 4
  exact a

theorem missPulse_lock {s : State} (h : s.cyc.pll = .lock) : missPulse s =
    raiseG 47 2 (raiseG 47 1 (armWindow { missed s with cyc := { (missed s).cyc with pll := .hold } })) := by
  have c : (missed s).cyc.pll = .lock := by rw [missed_cyc]; exact h
  unfold missPulse
  dsimp only
  change (match (missed s).cyc.pll with | .lock => _ | _ => _) = _
  rw [c]
  rfl

theorem missPulse_hold {s : State} (h : s.cyc.pll = .hold) : missPulse s =
    if 17 ≤ min 17 (s.cyc.misscnt + 1) then toFree (missed s) else armWindow (missed s) := by
  have c : (missed s).cyc.pll = .hold := by rw [missed_cyc]; exact h
  unfold missPulse
  dsimp only
  change (match (missed s).cyc.pll with | .lock => _ | _ => _) = _
  rw [c]
  rfl

theorem exec_acceptWindowClose {s : State} (h : s.cyc.pll = .lock ∨ s.cyc.pll = .hold) : exec .acceptWindowClose s = .next (missPulse s) := by
  show execAcceptWindowClose s = _
  rcases h with h | h <;> simp [execAcceptWindowClose, h]

/-! The obligation. -/

/-- A pulse that does not complete a run of four. -/
theorem pulseAcq_stays {s : State} {a : Nat} (h : s.cyc.lastAcc = some a) (lo : 2000 ≤ (s.clk.now - a) * (if edgeBoth s then 2 else 1))
    (hi : (s.clk.now - a) * (if edgeBoth s then 2 else 1) ≤ 125000) {r : Bool} {e : Int} (g : angofsPulse s r = true → goodRun s e < 4) :
    pulseAcq r e s = if angofsPulse s r then acqGood e a s else acqTracked e a s := by
  rw [pulseAcq_within h lo hi]
  cases b : angofsPulse s r
  · rfl
  · simp [Nat.not_le.mpr (g b)]

theorem steered_congr {s t : State} (p : t.cyc.period = s.cyc.period) (r : t.regs = s.regs) (e : Int) : steered t e = steered s e := by
  have u : pulseUnits t = pulseUnits s := by unfold pulseUnits edgeBoth; rw [pl_congr r]
  unfold steered
  rw [p, u]

theorem goodRun_congr {s t : State} (g : t.cyc.good = s.cyc.good) (h : t.cyc.goodCyc = s.cyc.goodCyc) (n : t.cyc.cnt = s.cyc.cnt)
    (p : t.cyc.phase = s.cyc.phase) (e : Int) : goodRun t e = goodRun s e := by
  unfold goodRun markCycle
  rw [g, h, n, p]

theorem acqTracked_rate (e : Int) (a : Nat) (s : State) :
    (acqTracked e a s).cyc.rate = steered { s with cyc := { s.cyc with period := s.clk.now - a } } e := steered_congr rfl rfl e

/-- The error `d` stands for `phaseErr s e`. -/
theorem acqKeeps {s : State} (e : Bool) (d : Int) (x : Nat) (f : s.cyc.pll = .acq) (t : State)
    (ht : t = if angofsPulse s e then acqGood d x (levelAt e s) else acqTracked d x (levelAt e s)) :
    t.cyc.pll = .acq ∧ t.cyc.good = (if angofsPulse s e then goodRun s d else s.cyc.good) ∧ t.cyc.acqMiss = 0 ∧
    t.cyc.period = s.clk.now - x ∧ t.cyc.rate = steered { s with cyc := { s.cyc with period := s.clk.now - x } } d ∧
    t.cyc.phase = s.cyc.phase ∧ Armed 125000 .acqMissSpan s t ∧ Only [.cyc, .clk] s t := by
  subst ht
  have rate := (acqTracked_rate d x (levelAt e s)).trans
    (steered_congr (s := { s with cyc := { s.cyc with period := s.clk.now - x } }) rfl rfl d)
  have run : goodRun (acqTracked d x (levelAt e s)) d = goodRun s d := goodRun_congr rfl rfl rfl rfl _
  cases b : angofsPulse s e
  · exact ⟨f, rfl, rfl, rfl, rate, rfl, by simp [Armed, acqTracked, acceptAt, mem_timers_arm, levelAt],
      by simp [acqTracked, acceptAt, only_iff, levelAt]⟩
  · exact ⟨f, run, rfl, rfl, rate, rfl, by simp [Armed, acqGood, acqTracked, acceptAt, mem_timers_arm, levelAt],
      by simp [acqGood, acqTracked, acceptAt, only_iff, levelAt]⟩

/-- A fourth good cycle in a row enters LOCK. -/
theorem acqLocks {s : State} (e : Bool) (d : Int) (x : Nat) (a : anvilOn s = true) (t : State)
    (ht : t = toLock { acqGood d x (levelAt e s) with
      cyc := { (acqGood d x (levelAt e s)).cyc with expect := s.clk.now } }) :
    t.cyc.pll = .lock ∧ t.cyc.period = s.clk.now - x ∧ t.cyc.misscnt = 0 ∧ t.cyc.phase = s.cyc.phase ∧
    t.cyc.rate = steered { s with cyc := { s.cyc with period := s.clk.now - x } } d ∧ t.cyc.expect = s.clk.now ∧
    isPend t (16 * 47) = true ∧ Only ([.cyc, .pending] ++ raiseParts) s t := by
  obtain ⟨cyc, event, only⟩ := toLock_spec (s := { acqGood d x (levelAt e s) with
    cyc := { (acqGood d x (levelAt e s)).cyc with expect := s.clk.now } }) a
  have o : Only ([.cyc, .pending] ++ raiseParts) s { acqGood d x (levelAt e s) with
      cyc := { (acqGood d x (levelAt e s)).cyc with expect := s.clk.now } } := by
    simp [acqGood, acqTracked, acceptAt, levelAt, only_iff, raiseParts]
  have rate := (acqTracked_rate d x (levelAt e s)).trans
    (steered_congr (s := { s with cyc := { s.cyc with period := s.clk.now - x } }) rfl rfl d)
  subst ht
  rw [cyc]
  exact ⟨rfl, rfl, rfl, rfl, rate, rfl, event, o.step only (by decide)⟩

/-- The close of a window of LOCK. -/
theorem missPulse_of_lock {s : State} (a : anvilOn s = true) (f : s.cyc.pll = .lock) (t : State) (ht : t = missPulse s) :
    t.cyc.pll = .hold ∧ t.cyc.misscnt = min 17 (s.cyc.misscnt + 1) ∧ t.cyc.expect = s.cyc.expect + trackT s ∧ t.cyc.phase = s.cyc.phase ∧
    isPend t (16 * 47 + 4) = true ∧ isPend t (16 * 47 + 1) = true ∧ isPend t (16 * 47 + 2) = true ∧ Only ([.cyc] ++ raiseParts) s t := by
  rw [missPulse_lock f] at ht
  obtain ⟨u, hu⟩ : ∃ u, u = armWindow { missed s with cyc := { (missed s).cyc with pll := .hold } } := ⟨_, rfl⟩
  have on : anvilOn u = true := by rw [hu]; exact (missed_anvil s).trans a
  have miss : isPend u (16 * 47 + 4) = true := by rw [hu]; exact missed_event a
  have uc : u.cyc = { (missed s).cyc with pll := .hold } := by rw [hu]; rfl
  have uo : Only ([.cyc] ++ raiseParts) s u := by
    rw [hu]
    exact (missed_only s).step (m := [.cyc, .clk]) (by simp [armWindow, only_iff]) (by decide)
  rw [← hu] at ht
  have cyc : t.cyc = u.cyc := by rw [ht]; simp
  rw [uc, missed_cyc] at cyc
  rw [cyc, ht]
  have on' : anvilOn (raiseG 47 1 u) = true := (anvilOn_raiseG 47 1 u).trans on
  exact ⟨rfl, rfl, rfl, rfl, isPend_raiseG_kept on' 47 2 (isPend_raiseG_kept on 47 1 miss), isPend_raiseG_kept on' 47 2 (isPend_raiseG_self on 47 1),
    isPend_raiseG_self on' 47 2, uo.step (m := raiseParts) (by simp [only_iff, raiseParts]) (by decide)⟩

/-- The seventeenth miss in a row in HOLD. -/
theorem missPulse_of_hold {s : State} (a : anvilOn s = true) (f : s.cyc.pll = .hold) (m : 16 ≤ s.cyc.misscnt) (t : State) (ht : t = missPulse s) :
    t.cyc.pll = .free ∧ t.cyc.misscnt = 17 ∧ t.cyc.rate = nomRate s ∧ t.cyc.phase = s.cyc.phase ∧ isPend t (16 * 47 + 4) = true ∧
    isPend t (16 * 47 + 3) = true ∧ Only ([.cyc] ++ raiseParts) s t := by
  have on : anvilOn (missed s) = true := (missed_anvil s).trans a
  have hold : (missed s).cyc.pll = .hold := by rw [missed_cyc]; exact f
  have count : min 17 (s.cyc.misscnt + 1) = 17 := by omega
  have rate : nomRate (missed s) = nomRate s := by rw [nomRate, missed_cyc]; rfl
  rw [missPulse_hold f, if_pos count.ge] at ht
  have cyc := toFree_cyc (missed s)
  rw [missed_cyc, rate, count, ← ht] at cyc
  rw [cyc]
  subst ht
  exact ⟨rfl, rfl, rfl, rfl, toFree_kept on (missed_event a), (toFree_event on).2 (.inr hold), (missed_only s).step (toFree_only _) (by decide)⟩

theorem exec_acqMissSpan {s : State} (f : s.cyc.pll = .acq) : exec .acqMissSpan s = .next (acqMissed (arm 125000 .acqMissSpan s)) := by
  show execAcqMissSpan s = _
  simp [execAcqMissSpan, f]

/-- The fourth miss in a row of ACQ. -/
theorem acqMissed_ends {s : State} (a : anvilOn s = true) (f : s.cyc.pll = .acq) (m : 3 ≤ s.cyc.acqMiss) (t : State)
    (ht : t = acqMissed (arm 125000 .acqMissSpan s)) : t.cyc.pll = .free ∧ t.cyc.rate = nomRate s ∧ t.cyc.phase = s.cyc.phase ∧
    isPend t (16 * 47 + 3) = true ∧ Only ([.cyc] ++ raiseParts) s t := by
  rw [acqMissed_last (s := arm 125000 .acqMissSpan s) m] at ht
  subst ht
  rw [toFree_cyc]
  refine ⟨rfl, rfl, rfl, (toFree_event ?_).2 (.inl f), Only.step ?_ (toFree_only _) (by decide)⟩
  · exact a
  · simp [only_iff, raiseParts]

/-- Settles O7: each clause is one branch of a pulse, of a window's close or of a miss. -/
theorem pllPulsesAndStates : Obligations.PllPulsesAndStates := by
  refine ⟨fun s e l n => ?_, fun s e l a c n f h => ?_, fun s e l x a c n f h d => ?_, fun s e l x a c n f h lo hi => ?_, fun s e l x a c n f h d => ?_,
    fun s e l x a c n f h m d => ?_, fun s e l x a c n f h lo hi g run => ?_, fun s e l x a c n f h lo hi g => ?_, fun s e l a c n f d => ?_,
    fun s e l a c n f lo hi w => ?_, fun s e l a c n f lo hi w => ?_, fun s a f => ?_, fun s a f m => ?_, fun s a f m => ?_, fun s f => ?_,
    fun s a f m => ?_, fun s f m => ?_, fun s f => ?_, fun s a f m => ?_, fun s f => ?_⟩
  · show execCycPulse ⟨e, l⟩ s = _
    cases a : anvilOn s <;> simp [execCycPulse, a, n]
  · rw [(exec_cycPulse_counted a c n).1 f, pulseFree_first (s := levelAt e s) h]
    rfl
  · rw [(exec_cycPulse_counted a c n).1 f, pulseFree_late (s := levelAt e s) h d]
    rfl
  · refine .of_eq ((exec_cycPulse_counted a c n).1 f) ?_
    rw [pulseFree_acquires (s := levelAt e s) h lo hi]
    refine ⟨rfl, rfl, rfl, rfl, rfl, rfl, ?_, ?_⟩
    · simp [Armed, toAcq, mem_timers_arm, acceptAt, levelAt]
    · exact (show Only [.cyc, .clk] s _ by simp [acceptAt, levelAt, only_iff]).trans (toAcq_only _)
  · refine yields_raiseG ?_ (((exec_cycPulse_counted a c n).1 f).trans (congrArg _ (pulseFree_early (s := levelAt e s) h d _)))
    exact a
  · refine .of_eq (((exec_cycPulse_counted a c n).2.1 f).trans (congrArg _ (pulseAcq_outside (s := levelAt e s) h d _ _))) ?_
    exact acqMissed_reject (s := levelAt e s) a m
  · refine .of_eq ((exec_cycPulse_counted a c n).2.1 f) ?_
    rw [pulseAcq_within (s := levelAt e s) h lo hi, if_neg (by simp [show angofsPulse (levelAt e s) e = true from g]),
      if_pos (show 4 ≤ goodRun (levelAt e s) (phaseErr s e) from run)]
    exact acqLocks e (phaseErr s e) x a _ rfl
  · refine .of_eq ((exec_cycPulse_counted a c n).2.1 f) ?_
    rw [pulseAcq_stays (s := levelAt e s) h lo hi g]
    exact acqKeeps e (phaseErr s e) x f _ rfl
  · refine yields_raiseG ?_ (((exec_cycPulse_counted a c n).2.2 f).trans (congrArg _ (pulseLock_outside (s := levelAt e s) d _)))
    exact a
  · refine .of_eq ((exec_cycPulse_counted a c n).2.2 f) ?_
    rw [pulseLock_tracks (s := levelAt e s) lo hi w]
    have o : Only [.cyc] s (tracked (phaseErr s e) (levelAt e s)) := by simp [tracked, acceptAt, levelAt, only_iff]
    split
    · obtain ⟨cyc, event, only⟩ := toLock_spec (s := tracked (phaseErr s e) (levelAt e s)) a
      exact ⟨congrArg Cyc.pll cyc, congrArg Cyc.misscnt cyc, congrArg Cyc.lastAcc cyc, (congrArg Cyc.phase cyc :), congrArg Cyc.expect cyc,
        fun _ => event, (o.weaken (by decide)).step only (by decide)⟩
    · next q =>
      have p : s.cyc.pll = .lock := f.resolve_right q
      refine ⟨p, rfl, rfl, rfl, rfl, fun k => absurd k q, ?_⟩
      exact (o.weaken (by decide)).step (m := [.clk]) (by simp [armWindow, only_iff]) (by decide)
  · refine .of_eq ((exec_cycPulse_counted a c n).2.2 f) ?_
    rw [pulseLock_loses (s := levelAt e s) lo hi w]
    have o : Only ([.cyc] ++ raiseParts) s (toAcq (tracked (phaseErr s e) (levelAt e s))) :=
      (show Only ([.cyc] ++ raiseParts) s (tracked (phaseErr s e) (levelAt e s)) by
        simp [tracked, acceptAt, levelAt, only_iff, raiseParts]).step (toAcq_only _) (by decide)
    split
    · next q =>
      have cyc := raise_cyc (16 * 47 + 1) (toAcq (tracked (phaseErr s e) (levelAt e s)))
      refine ⟨congrArg Cyc.pll cyc, congrArg Cyc.good cyc, congrArg Cyc.misscnt cyc, (congrArg Cyc.phase cyc :), fun _ => isPend_raiseG_self ?_ 47 1,
        o.step (m := raiseParts) (by simp [only_iff, raiseParts]) (by decide)⟩
      exact a
    · next q => exact ⟨rfl, rfl, rfl, rfl, fun k => absurd k q, o⟩
  · exact .of_eq (exec_acceptWindowClose (.inl f)) (missPulse_of_lock a f _ rfl)
  · refine .of_eq (exec_acceptWindowClose (.inr f)) ?_
    rw [missPulse_hold f, if_neg (by omega), armWindow_cyc, missed_cyc]
    refine ⟨f, by show min 17 (s.cyc.misscnt + 1) = _; omega, rfl, rfl, missed_event a, ?_⟩
    exact (missed_only s).step (m := [.clk]) (by simp [armWindow, only_iff]) (by decide)
  · exact .of_eq (exec_acceptWindowClose (.inr f)) (missPulse_of_hold a f m _ rfl)
  · show execAcceptWindowClose s = _
    rcases f with f | f <;> simp [execAcceptWindowClose, f]
  · exact .of_eq (exec_acqMissSpan f) (acqMissed_ends a f m _ rfl)
  · refine .of_eq (exec_acqMissSpan f) ?_
    rw [acqMissed_more (s := arm 125000 .acqMissSpan s) m]
    exact ⟨rfl, by simp [Armed, mem_timers_arm], by simp [only_iff]⟩
  · show execAcqMissSpan s = _
    simp [execAcqMissSpan, f]
  · refine yields_raiseG ?_ (show execAcqtmo s = _ from ?_)
    · exact a
    · simp [execAcqtmo, f, m]
  · show execAcqtmo s = _
    rcases f with f | f <;> simp [execAcqtmo, f]

end Sys2Proof
end

section
/-! Timebase registers, quiet windows, dither and PHASE entries (R36, R47, R53 to R61). -/

namespace Sys2Proof

open Sys2Proof.Machine

/-! A byte after a write. -/

theorem byteFields_cyccfg :
    byteFields 1 0 = [⟨0x00, 1, 0, 1, .rw, 1, []⟩, ⟨0x00, 1, 1, 2, .rw, 0, [(0, 2)]⟩, ⟨0x00, 1, 3, 2, .rw, 1, []⟩, ⟨0x00, 1, 5, 3, .rw, 3, []⟩] := by
  decide

theorem legal_free (o l b w : Nat) (a : Acc) (r n : Nat) : Fd.legal ⟨o, l, b, w, a, r, []⟩ n = true := rfl
theorem legal_upto (o l b w : Nat) (a : Acc) (r m n : Nat) : Fd.legal ⟨o, l, b, w, a, r, [(0, m)]⟩ n = decide (n ≤ m) := by simp [Fd.legal]

theorem putBits_getLsbD (b : Byte) (lo w v : Nat) {i : Nat} (hi : i < 8) :
    (putBits b lo w v).getLsbD i = if lo ≤ i ∧ i < lo + w then v.testBit (i - lo) else b.getLsbD i := by
  have e : b.toNat / 2 ^ (lo + w) * 2 ^ (lo + w) + v % 2 ^ w * 2 ^ lo + b.toNat % 2 ^ lo =
      2 ^ lo * (2 ^ w * (b.toNat / 2 ^ (lo + w)) + v % 2 ^ w) + b.toNat % 2 ^ lo := by ring
  rw [putBits, BitVec.getLsbD_ofNat, e, Nat.testBit_two_pow_mul_add _ (Nat.mod_lt _ (by positivity)),
    Nat.testBit_two_pow_mul_add _ (Nat.mod_lt _ (by positivity))]
  simp only [hi, decide_true, Bool.true_and, Nat.testBit_mod_two_pow, Nat.testBit_div_two_pow, ← BitVec.testBit_toNat]
  by_cases h1 : i < lo
  · simp [h1, show ¬lo ≤ i by omega]
  · by_cases h2 : i < lo + w
    · simp [h1, h2, show i - lo < w by omega, show lo ≤ i by omega]
    · simp [h1, h2, show ¬i - lo < w by omega, show i - lo - w + (lo + w) = i by omega]

/-- A field that takes its code from the byte written. -/
theorem putBits_field (b v : Byte) (lo w : Nat) {i : Nat} (hi : i < 8) :
    (putBits b lo w (v.toNat / 2 ^ lo % 2 ^ w)).getLsbD i = if lo ≤ i ∧ i < lo + w then v.getLsbD i else b.getLsbD i := by
  rw [putBits_getLsbD _ _ _ _ hi]
  split
  · rw [Nat.testBit_mod_two_pow, Nat.testBit_div_two_pow, BitVec.testBit_toNat]
    simp [show i - lo < w by omega, show i - lo + lo = i by omega]
  · rfl

/-- CYCCFG takes the byte written; with the reserved code EDGE keeps its value. -/
theorem mergeByte_cyccfg (old v : Byte) : mergeByte (byteFields 1 0) (fun _ => true) old v =
    if v.toNat / 2 % 4 = 3 then (putBits v 1 2 (old.toNat / 2 % 4), true) else (v, false) := by
  have edge : putBits v 1 2 (old.toNat / 2 % 4) = putBits v 1 2 (old.toNat / 2 ^ 1 % 2 ^ 2) := rfl
  simp only [byteFields_cyccfg, mergeByte, List.foldl_cons, List.foldl_nil, legal_free, legal_upto, reduceCtorEq, if_false, Bool.not_true,
    Bool.false_eq_true, if_true, decide_eq_true_eq]
  by_cases h : v.toNat / 2 % 4 = 3
  · have n : ¬v.toNat / 2 ^ 1 % 2 ^ 2 ≤ 2 := by rw [show v.toNat / 2 ^ 1 % 2 ^ 2 = v.toNat / 2 % 4 from rfl]; omega
    rw [if_neg n, if_pos h, edge]
    refine Prod.ext (BitVec.eq_of_getLsbD_eq fun i hi => ?_) rfl
    simp only [putBits_field _ _ _ _ hi]
    split_ifs <;> first | rfl | omega
  · have n : v.toNat / 2 ^ 1 % 2 ^ 2 ≤ 2 := by rw [show v.toNat / 2 ^ 1 % 2 ^ 2 = v.toNat / 2 % 4 from rfl]; omega
    rw [if_pos n, if_neg h]
    refine Prod.ext (BitVec.eq_of_getLsbD_eq fun i hi => ?_) rfl
    simp only [putBits_field _ _ _ _ hi]
    split_ifs <;> first | rfl | omega

/-- A write of CYCCFG on the plain registers. -/
theorem plainByte_cyccfg {v : Byte} (s : State) : plainByte 1 0 v s =
    if v.toNat / 2 % 4 = 3 then berrRsvenc (putPlain (key 1 0) [putBits v 1 2 ((pl s (key 1 0)).toNat / 2 % 4)] s) else putPlain (key 1 0) [v] s := by
  unfold plainByte
  dsimp only
  rw [mergeByte_cyccfg]
  split <;> rfl

theorem pl_putPlain_same (k : Nat) (v : Byte) (s : State) : pl (putPlain k [v] s) k = v := mget_mput_same _ v k s.regs.plain

/-! The PLL falls to FREE after an acknowledged write. -/

theorem toFree_nack (s : State) : (toFree s).bus.nack = s.bus.nack := by
  unfold toFree
  dsimp only
  split <;> simp

/-- What the timebase shows after it was sent to FREE. -/
structure SentFree (s t : State) : Prop where
  pll : t.cyc.pll = .free
  lastAcc : t.cyc.lastAcc = none
  rate : t.cyc.rate = nomRate s
  phase : t.cyc.phase = s.cyc.phase
  unlock : s.cyc.pll = .lock → isPend t (16 * 47 + 1) = true
  freerun : s.cyc.pll = .acq ∨ s.cyc.pll = .hold → isPend t (16 * 47 + 3) = true

theorem sentFree_of {s u : State} (a : anvilOn u = true) (c : u.cyc = s.cyc) : SentFree s (toFree u) := by
  have f := toFree_cyc u
  obtain ⟨lock, free⟩ := toFree_event a
  rw [c] at f lock free
  have n : nomRate u = nomRate s := by unfold nomRate; rw [c]
  rw [n] at f
  exact ⟨by rw [f], by rw [f], by rw [f], by rw [f], lock, free⟩

/-- A write that also sends the PLL to FREE. -/
theorem toFree_write {s u : State} {l : List Part} (o : Only ([.cyc] ++ raiseParts ++ l) s u) :
    Only ([.cyc] ++ raiseParts ++ l) s (toFree u) :=
  o.step (toFree_only u) (List.subset_append_left _ _)

/-- A write of CYCCFG with the reserved code: the byte with its old EDGE, and the bus error. -/
def cyccfgReserved (v : Byte) (s : State) : State :=
  berrRsvenc (putPlain (key 1 0) [putBits v 1 2 ((pl s (key 1 0)).toNat / 2 % 4)] (cancelKey (ackAccess s)))

theorem cyccfgReserved_spec {v : Byte} {s : State} (h : Served s) : (cyccfgReserved v s).cyc = s.cyc ∧
    pl (cyccfgReserved v s) (key 1 0) = putBits v 1 2 ((pl s (key 1 0)).toNat / 2 % 4) ∧
    (cyccfgReserved v s).glob.buserr = setBit s.glob.buserr 1 true ∧ (cyccfgReserved v s).bus.nack = false ∧
    anvilOn (cyccfgReserved v s) = true ∧ Only ([.glob, .regs] ++ raiseParts) s (cyccfgReserved v s) := by
  have on := anvilOn_served h
  obtain ⟨glob, -, only⟩ := buserr_spec 1 (s := putPlain (key 1 0) [putBits v 1 2 ((pl s (key 1 0)).toNat / 2 % 4)] (cancelKey (ackAccess s))) on
  have o : Only ([.glob, .regs] ++ raiseParts) s
      (putPlain (key 1 0) [putBits v 1 2 ((pl s (key 1 0)).toNat / 2 % 4)] (cancelKey (ackAccess s))) := by simp [only_iff, raiseParts]
  refine ⟨only .cyc (by decide), ?_, congrArg Glob.buserr glob, ?_, ?_, o.step only (by decide)⟩
  · rw [pl_congr (t := cyccfgReserved v s) (only .regs (by decide)), pl_putPlain_same]
  · simp [cyccfgReserved, berrRsvenc]
  · have otp : (cyccfgReserved v s).otp = s.otp := only .otp (by decide)
    have g : (cyccfgReserved v s).glob = _ := glob
    simp only [anvilOn, otp, g] at on ⊢
    exact on

theorem cyccfgByte_reserved {v : Byte} {s : State} (h : Served s) (n : v.toNat / 2 % 4 = 3) : cyccfgByte v (cancelKey (ackAccess s)) =
    if v.getLsbD 0 = true then cyccfgReserved v s else toFree (cyccfgReserved v s) := by
  have en : cycEn (cyccfgReserved v s) = v.getLsbD 0 := by
    unfold cycEn
    rw [(cyccfgReserved_spec h).2.1, putBits_getLsbD _ _ _ _ (by decide)]
    rfl
  have b : plainByte 1 0 v (cancelKey (ackAccess s)) = cyccfgReserved v s := by rw [plainByte_cyccfg, if_pos n]; rfl
  simp only [cyccfgByte, b, en, n]
  cases v.getLsbD 0 <;> simp

/-! NOMFREQ. -/

theorem nomfreqWord_eq (v : Word) (s : State) : nomfreqWord v s =
    if 256 ≤ v.toNat ∧ v.toNat ≤ 16000 then putPlain (key 1 2) (leBytes 2 v.toNat) s else berrRsvenc s := by
  have m : v.toNat % 65536 = v.toNat := Nat.mod_eq_of_lt v.isLt
  simp [nomfreqWord, plainWide, Fd.legal, m]

/-! Quiet windows. -/

theorem exec_quiet {s : State} {len : Byte} (a : anvilOn s = true) (q : quietDis s = false) (z : len ≠ 0) (m : len.toNat ≤ 20) :
    exec (.quiet len) s = .next (quietNoted (quietOpen len.toNat s)) := by
  show execQuiet len s = _
  have n : ¬(len = 0#8 ∨ 20 < len.toNat) := not_or.mpr ⟨z, Nat.not_lt.mpr m⟩
  simp [execQuiet, a, q, n]

/-- A window that opens, in the present cycle or the one before. -/
theorem quietOpen_opens {s : State} (n : Nat) (g : s.qt.until_ + us 1 ≤ s.clk.now) : quietOpen n s = arm (us n) .quietEnd { s with qt :=
    if s.clk.now ∈ s.qt.spill then
      { s.qt with nOld := s.qt.nOld + 1, on := true, until_ := s.clk.now + us n, cur := min 3 s.qt.nOld, curOld := true }
    else { s.qt with n := s.qt.n + 1, on := true, until_ := s.clk.now + us n, cur := min 3 s.qt.n, curOld := false } } := by
  by_cases p : s.clk.now ∈ s.qt.spill <;> simp [quietOpen, p, Nat.not_lt.mpr g]

theorem quietOpen_skips {s : State} (n : Nat) (g : s.clk.now < s.qt.until_ + us 1) (p : s.clk.now ∉ s.qt.spill) :
    quietOpen n s = raiseG 47 8 { s with qt := { s.qt with n := s.qt.n + 1, skCur := setBit s.qt.skCur (min 3 s.qt.n) true } } := by
  simp [quietOpen, p, g]

theorem quietNoted_absent {s : State} (h : s.clk.now ∉ s.qt.spill) : quietNoted s = s := by
  unfold quietNoted
  rw [List.erase_of_not_mem h]

theorem byteFields_quietcfg : byteFields 1 5 = [⟨0x05, 1, 0, 1, .rw, 0, []⟩, ⟨0x05, 1, 1, 1, .rw, 0, []⟩] := by decide

theorem mergeByte_quietcfg_qdis (old v : Byte) : (mergeByte (byteFields 1 5) (fun _ => true) old v).2 = false ∧
    (mergeByte (byteFields 1 5) (fun _ => true) old v).1.getLsbD 1 = v.getLsbD 1 := by
  simp only [byteFields_quietcfg, mergeByte, List.foldl_cons, List.foldl_nil, legal_free, reduceCtorEq, if_false, Bool.not_true,
    Bool.false_eq_true, if_true, true_and]
  rw [putBits_field _ _ _ _ (by decide)]
  rfl

theorem quietcfgByte_qdis {v : Byte} (s : State) (h : v.getLsbD 1 = true) : (quietcfgByte v s).qt = { s.qt with
    on := false, until_ := min s.qt.until_ s.clk.now } := by
  obtain ⟨legal, bit⟩ := mergeByte_quietcfg_qdis (pl s (key 1 5)) v
  have written : plainByte 1 5 v s = putPlain (key 1 5) [(mergeByte (byteFields 1 5) (fun _ => true) (pl s (key 1 5)) v).1] s := by
    simp [plainByte, legal]
  have dis : quietDis (plainByte 1 5 v s) = true := by rw [written, quietDis, pl_putPlain_same, bit, h]
  simp only [quietcfgByte, dis, if_true]
  rw [written]
  rfl

/-! Gapping and dither. -/

theorem phact_gapped {s : State} {r : Nat} (g : gapped s r = true) (h : r = 0 ∨ s.bk.strk.getLsbD (r - 1) = false) : phact s r = 0 := by
  have k : ¬(r ≠ 0 ∧ s.bk.strk.getLsbD (r - 1) = true) := by rintro ⟨n, b⟩; rcases h with h | h <;> simp_all
  unfold phact
  rw [if_neg k]
  simp [g]

theorem clampTo_bounds {lo hi : Nat} (h : lo ≤ hi) (x : Nat) : lo ≤ clampTo lo hi x ∧ clampTo lo hi x ≤ hi := by
  unfold clampTo; omega

/-- One triangle: up from `-d` to `d` at its midpoint, and back. -/
theorem triangle_bound {d len x : Int} (hd : 0 ≤ d) (hl : 0 < len) (h0 : 0 ≤ x) (h1 : x < len) :
    (if 2 * x ≤ len then 4 * d * x / len - d else 3 * d - 4 * d * x / len).natAbs ≤ d.natAbs := by
  have up : 0 ≤ 4 * d * x / len := Int.ediv_nonneg (by positivity) hl.le
  split
  · next h =>
    have top : 4 * d * x / len ≤ 2 * d := by
      refine Int.ediv_le_of_le_mul hl ?_
      nlinarith
    omega
  · next h =>
    have low : 2 * d ≤ 4 * d * x / len := by
      rw [Int.le_ediv_iff_mul_le hl]
      nlinarith
    have top : 4 * d * x / len ≤ 4 * d := by
      refine Int.ediv_le_of_le_mul hl ?_
      nlinarith
    omega

theorem ditherDev_bound (s : State) : (ditherDev s).natAbs ≤ 100 * rdBits (pl s) (key 1 7) 0 4 := by
  have units : 0 < cycleUnits / 2 ^ rdBits (pl s) (key 1 7) 4 2 := by
    have k : rdBits (pl s) (key 1 7) 4 2 < 4 := Nat.mod_lt _ (by decide)
    generalize rdBits (pl s) (key 1 7) 4 2 = n at k
    interval_cases n <;> decide
  have b := triangle_bound (d := 100 * (rdBits (pl s) (key 1 7) 0 4 : Int)) (len := (cycleUnits / 2 ^ rdBits (pl s) (key 1 7) 4 2 : Nat))
    (x := ((s.cyc.phase + cycleUnits - s.qt.dith0) % cycleUnits % (cycleUnits / 2 ^ rdBits (pl s) (key 1 7) 4 2) : Nat))
    (by positivity) (by exact_mod_cast units) (by positivity) (by exact_mod_cast Nat.mod_lt _ units)
  refine le_trans b ?_
  omega

theorem switchHz_eq {s : State} {r f lo hi : Nat} (h : freqOf (lv s) r = some (f, lo, hi)) :
    ∃ b, switchHz s r = clampTo (1000 * lo) (1000 * hi) (dithered s b (1000 * f)) / (if foldedBack s r then 4 else 1) := by
  have c : (classBit r).isSome := by
    unfold freqOf at h
    unfold classBit
    cases k : rk r <;> simp_all
  obtain ⟨b, hb⟩ := Option.isSome_iff_exists.mp c
  exact ⟨b, by simp only [switchHz, h, hb]⟩

/-- Settles O8: register writes through their merged byte, windows through `quietOpen`, and bounds of the triangle and the clamp. -/
theorem timebaseAndQuiet : Obligations.TimebaseAndQuiet := by
  refine ⟨fun s h => ?_, fun s v h n => ?_, fun s v h n e => ?_, fun s v h n e => ?_, fun s v h lo hi => ?_, fun s v h d n => ?_, fun s v h d n => ?_,
    fun s len a q z m g p => ?_, fun s len a q z m g p => ?_, fun s len a q z m g p => ?_, fun s len h => ?_, fun s => ?_,
    fun v s h => quietcfgByte_qdis s h, fun s r g h => phact_gapped g h, fun s a => ?_, ditherDev_bound, fun s r f lo hi h l u n => ?_,
    fun s r f lo hi h l u n => ?_, fun s r a on e sh n d c m => ?_, fun s r a on e sh n d m => ?_⟩
  · refine .of_eq (exec_onPage (f := toFree) h rfl) ?_
    obtain ⟨pll, last, rate, phase, lock, free⟩ := sentFree_of (s := s) (u := cancelKey (ackAccess s)) (anvilOn_served h) rfl
    have o : Only ([.cyc, .glob] ++ raiseParts) s (cancelKey (ackAccess s)) := by simp [only_iff, raiseParts]
    exact ⟨pll, last, rate, phase, lock, free, toFree_only _ .glob (by decide), toFree_nack _, o.step (toFree_only _) (by decide)⟩
  · have e : cyccfgByte v (cancelKey (ackAccess s)) = toFree (putPlain (key 1 0) [v] (cancelKey (ackAccess s))) := by
      simp only [cyccfgByte, plainByte_cyccfg, n, if_false, ne_eq, not_false_eq_true, or_true, if_true]
    refine .of_eq ((exec_onPage (f := cyccfgByte v) h rfl).trans (congrArg _ e)) ?_
    obtain ⟨pll, last, rate, phase, lock, free⟩ := sentFree_of (s := s) (u := putPlain (key 1 0) [v] (cancelKey (ackAccess s))) (anvilOn_served h) rfl
    have o : Only ([.cyc, .glob, .regs] ++ raiseParts) s (putPlain (key 1 0) [v] (cancelKey (ackAccess s))) := by simp [only_iff, raiseParts]
    refine ⟨?_, pll, last, rate, phase, lock, free, toFree_only _ .glob (by decide), toFree_nack _, o.step (toFree_only _) (by decide)⟩
    rw [pl_congr (toFree_only _ .regs (by decide)), pl_putPlain_same]
  · have r : cyccfgByte v (cancelKey (ackAccess s)) = cyccfgReserved v s := by rw [cyccfgByte_reserved h n, if_pos e]
    refine .of_eq ((exec_onPage (f := cyccfgByte v) h rfl).trans (congrArg _ r)) ?_
    obtain ⟨cyc, byte, berr, nack, -, only⟩ := cyccfgReserved_spec (v := v) h
    exact ⟨cyc, byte, berr, nack, only⟩
  · have r : cyccfgByte v (cancelKey (ackAccess s)) = toFree (cyccfgReserved v s) := by rw [cyccfgByte_reserved h n, if_neg (by rw [e]; decide)]
    refine .of_eq ((exec_onPage (f := cyccfgByte v) h rfl).trans (congrArg _ r)) ?_
    obtain ⟨cyc, byte, berr, nack, up, only⟩ := cyccfgReserved_spec (v := v) h
    obtain ⟨pll, -, rate, phase, -, -⟩ := sentFree_of up cyc
    have o := toFree_only (cyccfgReserved v s)
    refine ⟨pll, rate, phase, ?_, ?_, (toFree_nack _).trans nack, (only.weaken (by decide)).step o (by decide)⟩
    · rw [pl_congr (t := toFree _) (o .regs (by decide)), byte]
    · have g : (toFree (cyccfgReserved v s)).glob = (cyccfgReserved v s).glob := o .glob (by decide)
      rw [g, berr]
  · rw [exec_onPage (f := nomfreqWord v) h rfl, nomfreqWord_eq, if_pos ⟨lo, hi⟩]
  · have r : nomfreqWord v (cancelKey (ackAccess s)) = berrRsvenc (cancelKey (ackAccess s)) := by rw [nomfreqWord_eq, if_neg (by omega)]
    refine .of_eq ((exec_onPage (f := nomfreqWord v) h rfl).trans (congrArg _ r)) ?_
    obtain ⟨glob, event, only⟩ := buserr_spec 1 (s := cancelKey (ackAccess s)) (anvilOn_served h)
    have o : Only ([.glob] ++ raiseParts) s (cancelKey (ackAccess s)) := by simp [only_iff, raiseParts]
    exact ⟨only .regs (by decide), congrArg Glob.buserr glob, event n, by simp [berrRsvenc], o.step only (by decide)⟩
  · rw [exec_onPage (f := nomfreqWord v) h rfl, nomfreqWord_eq, if_neg (by omega), berrRsvenc, buserr_same (s := cancelKey (ackAccess s)) n]
  · refine .of_eq (exec_quiet a q z m) ?_
    rw [quietOpen_opens _ g, if_neg p]
    exact ⟨by simp [quietNoted, List.erase_of_not_mem p], by simp [Armed, quietNoted, mem_timers_arm], by simp [quietNoted, only_iff]⟩
  · refine .of_eq (exec_quiet a q z m) ?_
    rw [quietOpen_opens _ g, if_pos p]
    exact ⟨rfl, by simp [Armed, quietNoted, mem_timers_arm], by simp [quietNoted, only_iff]⟩
  · refine .of_eq (exec_quiet a q z m) ?_
    rw [quietOpen_skips _ g p, quietNoted_absent (by simpa using p)]
    exact raiseG_raised 47 8 _ a
  · show execQuiet len s = _
    rcases h with h | h | h <;> simp [execQuiet, quietNoted, h]
  · refine .of_eq (t := quietClose s) rfl ⟨rfl, by simp [quietClose, armed_disarm], by simp [quietClose, only_iff]⟩
  · show execDither s = _
    simp [execDither, a]
  · obtain ⟨b, e⟩ := switchHz_eq h
    rw [e, if_neg (by simp [n]), Nat.div_one]
    exact clampTo_bounds (by omega) _
  · obtain ⟨b, e⟩ := switchHz_eq h
    obtain ⟨x, y⟩ := clampTo_bounds (lo := 1000 * lo) (hi := 1000 * hi) (by omega) (dithered s b (1000 * f))
    rw [e, if_pos n]
    exact ⟨Nat.div_le_div_right x, Nat.div_le_div_right y⟩
  · show execPhase r (some a) s = _
    simp [execPhase, phaseEntry, on, e, sh, n, d, c, m]
  · show execPhase r (some a) s = _
    simp [execPhase, phaseEntry, on, e, sh, n, d, m]

end Sys2Proof
end

section
/-! SUPPORT. What the operations leave alone, raise marks apart, function by function. -/

namespace Sys2Proof.Machine

open Sys2Proof

variable {z : State} {l : List Part}

theorem disarmAll_leaves (p : Instr → Bool) (s : State) (hs : Leaves [.clk] z s) :
    Leaves [.clk] z (disarmAll p s) := by
  unfold disarmAll
  repeat' (first
    | with_reducible assumption | with_reducible intro _ | subst x | assumption)

theorem enqueue_leaves (c : Instr) (s : State) (hs : Leaves [.pending] z s) :
    Leaves [.pending] z (enqueue c s) := by
  unfold enqueue
  repeat' (first
    | with_reducible assumption | with_reducible intro _ | subst x | assumption)

theorem putPlain_leaves (k : Nat) (bs : List Byte) (s : State) (hs : Leaves [.regs] z s) :
    Leaves [.regs] z (putPlain k bs s) := by
  unfold putPlain
  repeat' (first
    | with_reducible assumption | with_reducible intro _ | subst x | with_reducible apply leaves_foldl | dsimp only | assumption)

theorem putLive_leaves (k : Nat) (bs : List Byte) (s : State) (hs : Leaves [.regs] z s) :
    Leaves [.regs] z (putLive k bs s) := by
  unfold putLive
  repeat' (first
    | with_reducible assumption | with_reducible intro _ | subst x | with_reducible apply leaves_foldl | dsimp only | assumption)

theorem setLdo_leaves (c : Nat) (l : LdoSt) (s : State) (hs : Leaves [.bk] z s) :
    Leaves [.bk] z (setLdo c l s) := by
  unfold setLdo
  repeat' (first
    | with_reducible assumption | with_reducible intro _ | subst x | assumption)

theorem setPath_leaves (x : Path) (p : PathSt) (s : State) (hs : Leaves [.inp] z s) :
    Leaves [.inp] z (setPath x p s) := by
  unfold setPath
  repeat' (first
    | with_reducible assumption | with_reducible intro _ | subst x | split | assumption)

theorem closeAll_leaves (s : State) (hs : Leaves [.clk, .fl] z s) :
    Leaves [.clk, .fl] z (closeAll s) := by
  unfold closeAll
  repeat' (first
    | with_reducible assumption | with_reducible intro _ | subst x
    | with_reducible refine Leaves.then ?_ (closeOpen_leaves _ _ (Leaves.refl _ _)) (by decide) | with_reducible apply leaves_foldl)

theorem loadHLive_leaves (s : State) (hs : Leaves [.regs] z s) :
    Leaves [.regs] z (loadHLive s) := by
  unfold loadHLive
  repeat' (first
    | with_reducible assumption | with_reducible intro _ | subst x
    | with_reducible refine Leaves.then ?_ (putLive_leaves _ _ _ (Leaves.refl _ _)) (by decide))

theorem claimNext_leaves (s : State) (hs : Leaves [.hk] z s) :
    Leaves [.hk] z (claimNext s) := by
  unfold claimNext
  repeat' (first
    | with_reducible assumption | with_reducible intro _ | subst x
    | (extract_lets +onlyGivenNames x; clear_value x) | with_reducible apply Leaves.ite | assumption)

theorem startRounds_leaves (s : State) (hs : Leaves [.hk] z s) : Leaves [.hk] z (startRounds s) := by
  unfold startRounds
  generalize (s.clk.now + 199999) / 200000 = k
  exact (hs.set (by simp [only_iff])).then (claimNext_leaves _ (.refl _ _)) (by decide)

theorem enterState_leaves (n : St) (s : State) (hs : Leaves [.clk, .glob, .hk, .fl] z s) :
    Leaves [.clk, .glob, .hk, .fl] z (enterState n s) := by
  by_cases h : s.glob.st = n
  · rw [enterState, if_pos h]; exact hs
  · rw [enterState, if_neg h]
    generalize satAdd 0xFFFFFF 1 = next
    extract_lets old g a b k c d e
    have ha : Leaves [.clk, .glob, .hk, .fl] z a := hs.set (by simp [a, only_iff])
    have hb : Leaves [.clk, .glob, .hk, .fl] z b := by
      unfold b
      split
      · exact ha.then (startRounds_leaves _ (.refl _ _)) (by decide)
      · exact ha
    have hc : Leaves [.clk, .glob, .hk, .fl] z c := by
      unfold c
      split
      · exact hb.set (by simp [only_iff])
      · exact hb
    have he : Leaves [.clk, .glob, .hk, .fl] z e := logOther_leaves _ _ _ _ (raiseG_leaves _ _ _ hc)
    split
    · exact grant_leaves _ ((he.set (by simp [only_iff])).then (closeAll_leaves _ (.refl _ _)) (by decide))
    · split
      · exact he.then (closeAll_leaves _ (.refl _ _)) (by decide)
      · exact he

theorem snapshot_leaves (cause src : Nat) (s : State) (hs : Leaves [.safe] z s) : Leaves [.safe] z (snapshot cause src s) := by
  unfold snapshot
  generalize captureRec cause src s = c
  split
  · exact hs
  · split
    · dsimp only
      split
      · exact hs
      · exact raiseG_leaves _ _ _ hs
    · exact raiseG_leaves _ _ _ (grant_leaves _ hs)

theorem busRestart_leaves (s : State) (hs : Leaves [.regs, .bus] z s) :
    Leaves [.regs, .bus] z (busRestart s) := by
  unfold busRestart
  repeat' (first
    | with_reducible assumption | with_reducible intro _ | subst x
    | (extract_lets +onlyGivenNames x; have hx : Leaves [.regs, .bus] z x := ?_; clear_value x)
    | (extract_lets +onlyGivenNames x; clear_value x) | with_reducible apply Leaves.ite | with_reducible apply raiseG_leaves
    | assumption)

theorem islandRestart_leaves (s : State) (hs : Leaves [.clk, .free, .glob, .regs, .txn, .safe, .pat, .hk, .gau, .bus, .ds, .fl, .upd] z s) :
    Leaves [.clk, .free, .glob, .regs, .txn, .safe, .pat, .hk, .gau, .bus, .ds, .fl, .upd] z (islandRestart s) := by
  unfold islandRestart
  repeat' (first
    | with_reducible assumption | with_reducible intro _ | subst x
    | (extract_lets +onlyGivenNames x; have hx : Leaves [.clk, .free, .glob, .regs, .txn, .safe, .pat, .hk, .gau, .bus, .ds, .fl, .upd] z x := ?_; clear_value x)
    | (extract_lets +onlyGivenNames x; clear_value x) | with_reducible apply Leaves.ite | split
    | with_reducible refine Leaves.then ?_ (busRestart_leaves _ (Leaves.refl _ _)) (by decide)
    | with_reducible refine Leaves.then ?_ (dropSlot_leaves _ (Leaves.refl _ _)) (by decide) | with_reducible apply raiseG_leaves
    | with_reducible apply logOther_leaves | with_reducible refine Leaves.then ?_ (disarmAll_leaves _ _ (Leaves.refl _ _)) (by decide)
    | with_reducible refine Leaves.then ?_ (arm_leaves _ _ _ (Leaves.refl _ _)) (by decide)
    | with_reducible refine Leaves.then ?_ (disarm_leaves _ _ (Leaves.refl _ _)) (by decide) | assumption)

theorem causedRestart_leaves (bitNo src : Nat) (s : State) (hs : Leaves [.clk, .free, .glob, .regs, .txn, .safe, .pat, .hk, .gau, .bus, .ds, .fl, .upd] z s) :
    Leaves [.clk, .free, .glob, .regs, .txn, .safe, .pat, .hk, .gau, .bus, .ds, .fl, .upd] z (causedRestart bitNo src s) := by
  unfold causedRestart
  repeat' (first
    | with_reducible assumption | with_reducible intro _ | subst x
    | with_reducible refine Leaves.then ?_ (islandRestart_leaves _ (Leaves.refl _ _)) (by decide)
    | with_reducible refine Leaves.then ?_ (snapshot_leaves _ _ _ (Leaves.refl _ _)) (by decide) | assumption)

theorem setChg_leaves (f : Chg → Chg) (s : State) (hs : Leaves [.chg] z s) :
    Leaves [.chg] z (setChg f s) := by
  unfold setChg
  repeat' (first
    | with_reducible assumption | with_reducible intro _ | subst x | assumption)

theorem choosePhase_leaves (s : State) (hs : Leaves [.free] z s) :
    Leaves [.free] z (choosePhase s).2 := by
  unfold choosePhase
  repeat' (first
    | with_reducible assumption | with_reducible intro _ | subst x
    | with_reducible apply Leaves.ite | split
    | with_reducible refine Leaves.then ?_ (drawNat_leaves _ (Leaves.refl _ _)) (by decide)
    | refine leaves_pair (by with_reducible assumption) ?_ | exact Leaves.then (by with_reducible assumption) (drawNat_leaves _ (Leaves.refl _ _)) (by decide))

theorem runTimer_leaves (s : State) (hs : Leaves [.clk, .chg] z s) :
    Leaves [.clk, .chg] z (runTimer s) := by
  unfold runTimer
  repeat' (first
    | with_reducible assumption | with_reducible intro _ | subst x
    | (extract_lets +onlyGivenNames x; have hx : Leaves [.clk, .chg] z x := ?_; clear_value x)
    | (extract_lets +onlyGivenNames x; clear_value x) | with_reducible apply Leaves.ite
    | with_reducible refine Leaves.then ?_ (setChg_leaves _ _ (Leaves.refl _ _)) (by decide)
    | with_reducible refine Leaves.then ?_ (arm_leaves _ _ _ (Leaves.refl _ _)) (by decide)
    | with_reducible refine Leaves.then ?_ (disarm_leaves _ _ (Leaves.refl _ _)) (by decide))

theorem setPhase_leaves (p : Nat) (s : State) (hs : Leaves [.clk, .chg] z s) :
    Leaves [.clk, .chg] z (setPhase p s) := by
  unfold setPhase
  repeat' (first
    | with_reducible assumption | with_reducible intro _ | subst x
    | (extract_lets +onlyGivenNames x; clear_value x) | with_reducible apply Leaves.ite
    | with_reducible refine Leaves.then ?_ (runTimer_leaves _ (Leaves.refl _ _)) (by decide)
    | with_reducible refine Leaves.then ?_ (setChg_leaves _ _ (Leaves.refl _ _)) (by decide) | with_reducible apply raiseG_leaves)

theorem chgWatch_leaves (s : State) (hs : Leaves [.clk] z s) :
    Leaves [.clk] z (chgWatch s) := by
  unfold chgWatch
  repeat' (first
    | with_reducible assumption | with_reducible intro _ | subst x | with_reducible apply Leaves.ite
    | with_reducible refine Leaves.then ?_ (arm_leaves _ _ _ (Leaves.refl _ _)) (by decide)
    | with_reducible refine Leaves.then ?_ (disarm_leaves _ _ (Leaves.refl _ _)) (by decide))

theorem chgSettle_leaves (s : State) (hs : Leaves [.clk, .free, .chg] z s) :
    Leaves [.clk, .free, .chg] z (chgSettle s) := by
  unfold chgSettle
  repeat' (first
    | with_reducible assumption | with_reducible intro _ | subst x
    | (extract_lets +onlyGivenNames x; have hx : Leaves [.clk, .free, .chg] z x := ?_; clear_value x)
    | (extract_lets +onlyGivenNames x; clear_value x) | with_reducible apply Leaves.ite | split
    | with_reducible refine Leaves.then ?_ (chgWatch_leaves _ (Leaves.refl _ _)) (by decide)
    | with_reducible refine Leaves.then ?_ (setPhase_leaves _ _ (Leaves.refl _ _)) (by decide)
    | with_reducible refine Leaves.then ?_ (choosePhase_leaves _ (Leaves.refl _ _)) (by decide)
    | with_reducible refine Leaves.then ?_ (setChg_leaves _ _ (Leaves.refl _ _)) (by decide)
    | refine leaves_pair (by with_reducible assumption) ?_ | exact Leaves.then (by with_reducible assumption) (choosePhase_leaves _ (Leaves.refl _ _)) (by decide))

theorem chgRestart_leaves (s : State) (hs : Leaves [.clk, .free, .chg] z s) :
    Leaves [.clk, .free, .chg] z (chgRestart s) := by
  unfold chgRestart
  repeat' (first
    | with_reducible assumption | with_reducible intro _ | subst x
    | (extract_lets +onlyGivenNames x; clear_value x) | with_reducible apply Leaves.ite | split
    | with_reducible refine Leaves.then ?_ (chgSettle_leaves _ (Leaves.refl _ _)) (by decide)
    | with_reducible refine Leaves.then ?_ (setPhase_leaves _ _ (Leaves.refl _ _)) (by decide)
    | with_reducible refine Leaves.then ?_ (choosePhase_leaves _ (Leaves.refl _ _)) (by decide)
    | with_reducible refine Leaves.then ?_ (setChg_leaves _ _ (Leaves.refl _ _)) (by decide)
    | refine leaves_pair (by with_reducible assumption) ?_ | exact Leaves.then (by with_reducible assumption) (choosePhase_leaves _ (Leaves.refl _ _)) (by decide))

theorem enqueueOnce_leaves (e : Instr) (s : State) (hs : Leaves [.pending] z s) :
    Leaves [.pending] z (enqueueOnce e s) := by
  unfold enqueueOnce
  repeat' (first
    | with_reducible assumption | with_reducible intro _ | subst x | with_reducible apply Leaves.ite
    | with_reducible refine Leaves.then ?_ (enqueue_leaves _ _ (Leaves.refl _ _)) (by decide))

theorem setSeq_leaves (f : Seq → Seq) (s : State) (hs : Leaves [.seq] z s) :
    Leaves [.seq] z (setSeq f s) := by
  unfold setSeq
  repeat' (first
    | with_reducible assumption | with_reducible intro _ | subst x | assumption)

theorem assertRst_leaves (x : Nat) (s : State) (hs : Leaves [.clk, .seq] z s) :
    Leaves [.clk, .seq] z (assertRst x s) := by
  unfold assertRst
  repeat' (first
    | with_reducible assumption | with_reducible intro _ | subst x
    | with_reducible refine Leaves.then ?_ (disarm_leaves _ _ (Leaves.refl _ _)) (by decide) | assumption)

theorem assertAll_leaves (s : State) (hs : Leaves [.clk, .seq] z s) :
    Leaves [.clk, .seq] z (assertAll s) := by
  unfold assertAll
  repeat' (first
    | with_reducible assumption | with_reducible intro _ | subst x
    | with_reducible refine Leaves.then ?_ (assertRst_leaves _ _ (Leaves.refl _ _)) (by decide) | dsimp only)

theorem settleResets_leaves (s : State) (hs : Leaves [.clk, .seq] z s) :
    Leaves [.clk, .seq] z (settleResets s) := by
  unfold settleResets
  repeat' (first
    | with_reducible assumption | with_reducible intro _ | subst x
    | (extract_lets +onlyGivenNames x; clear_value x) | with_reducible apply Leaves.ite
    | with_reducible refine Leaves.then ?_ (arm_leaves _ _ _ (Leaves.refl _ _)) (by decide)
    | with_reducible refine Leaves.then ?_ (disarm_leaves _ _ (Leaves.refl _ _)) (by decide) | with_reducible apply leaves_foldl
    | dsimp only | assumption)

theorem wdArm_leaves (s : State) (hs : Leaves [.clk, .safe] z s) :
    Leaves [.clk, .safe] z (wdArm s) := by
  unfold wdArm
  repeat' (first
    | with_reducible assumption | with_reducible intro _ | subst x | with_reducible apply Leaves.ite
    | with_reducible refine Leaves.then ?_ (arm_leaves _ _ _ (Leaves.refl _ _)) (by decide) | assumption)

theorem startRamp_leaves (r : Nat) (s : State) (hs : Leaves [.clk, .rl] z s) :
    Leaves [.clk, .rl] z (startRamp r s) := by
  unfold startRamp
  repeat' (first
    | with_reducible assumption | with_reducible intro _ | subst x
    | (extract_lets +onlyGivenNames x; clear_value x) | with_reducible apply Leaves.ite
    | with_reducible refine Leaves.then ?_ (arm_leaves _ _ _ (Leaves.refl _ _)) (by decide) | assumption)

theorem accountStrike_leaves (c dt : Nat) (s : State) (hs : Leaves [.pat] z s) :
    Leaves [.pat] z (accountStrike c dt s) := by
  unfold accountStrike
  repeat' (first
    | with_reducible assumption | with_reducible intro _ | subst x
    | (extract_lets +onlyGivenNames x; clear_value x) | with_reducible apply Leaves.ite | with_reducible apply leaves_foldl
    | dsimp only | assumption)

theorem strikeOver_leaves (c : Nat) (s : State) (hs : Leaves [.clk, .bk, .pat] z s) :
    Leaves [.clk, .bk, .pat] z (strikeOver c s) := by
  unfold strikeOver
  repeat' (first
    | with_reducible assumption | with_reducible intro _ | subst x
    | (extract_lets +onlyGivenNames x; have hx : Leaves [.clk, .bk, .pat] z x := ?_; clear_value x)
    | (extract_lets +onlyGivenNames x; clear_value x) | with_reducible apply Leaves.ite | split
    | with_reducible refine Leaves.then ?_ (accountStrike_leaves _ _ _ (Leaves.refl _ _)) (by decide)
    | with_reducible refine Leaves.then ?_ (disarm_leaves _ _ (Leaves.refl _ _)) (by decide) | assumption)

theorem clearRail_leaves (r : Nat) (s : State) (hs : Leaves [.clk, .inp, .rl, .bk, .pat] z s) :
    Leaves [.clk, .inp, .rl, .bk, .pat] z (clearRail r s) := by
  unfold clearRail
  repeat' (first
    | with_reducible assumption | with_reducible intro _ | subst x
    | (extract_lets +onlyGivenNames x; have hx : Leaves [.clk, .inp, .rl, .bk, .pat] z x := ?_; clear_value x)
    | (extract_lets +onlyGivenNames x; clear_value x) | with_reducible apply Leaves.ite | split
    | with_reducible refine Leaves.then ?_ (strikeOver_leaves _ _ (Leaves.refl _ _)) (by decide)
    | with_reducible refine Leaves.then ?_ (setLdo_leaves _ _ _ (Leaves.refl _ _)) (by decide)
    | with_reducible refine Leaves.then ?_ (disarmAll_leaves _ _ (Leaves.refl _ _)) (by decide) | assumption)

theorem breach_leaves (s : State) (hs : Leaves [.qt] z s) :
    Leaves [.qt] z (breach s) := by
  unfold breach
  repeat' (first
    | with_reducible assumption | with_reducible intro _ | subst x | with_reducible apply Leaves.ite
    | with_reducible apply raiseG_leaves | assumption)

theorem enableRail_leaves (r : Nat) (s : State) (hs : Leaves [.clk, .inp, .rl, .bk, .seq, .pat] z s) :
    Leaves [.clk, .inp, .rl, .bk, .seq, .pat] z (enableRail r s) := by
  unfold enableRail
  repeat' (first
    | with_reducible assumption | with_reducible intro _ | subst x
    | (extract_lets +onlyGivenNames x; have hx : Leaves [.clk, .inp, .rl, .bk, .seq, .pat] z x := ?_; clear_value x)
    | (extract_lets +onlyGivenNames x; clear_value x) | with_reducible apply Leaves.ite | split
    | with_reducible refine Leaves.then ?_ (clearRail_leaves _ _ (Leaves.refl _ _)) (by decide)
    | with_reducible refine Leaves.then ?_ (startRamp_leaves _ _ (Leaves.refl _ _)) (by decide)
    | with_reducible refine Leaves.then ?_ (settleResets_leaves _ (Leaves.refl _ _)) (by decide)
    | with_reducible refine Leaves.then ?_ (arm_leaves _ _ _ (Leaves.refl _ _)) (by decide)
    | with_reducible refine Leaves.then ?_ (disarm_leaves _ _ (Leaves.refl _ _)) (by decide) | assumption)

theorem switchOff_leaves (q : Bool) (r : Nat) (s : State) (hs : Leaves [.clk, .free, .qt, .inp, .rl, .bk, .seq, .safe, .pat, .chg] z s) :
    Leaves [.clk, .free, .qt, .inp, .rl, .bk, .seq, .safe, .pat, .chg] z (switchOff q r s) := by
  unfold switchOff
  repeat' (first
    | with_reducible assumption | with_reducible intro _ | subst x
    | (extract_lets +onlyGivenNames x; have hx : Leaves [.clk, .free, .qt, .inp, .rl, .bk, .seq, .safe, .pat, .chg] z x := ?_; clear_value x)
    | (extract_lets +onlyGivenNames x; clear_value x) | with_reducible apply Leaves.ite
    | with_reducible refine Leaves.then ?_ (breach_leaves _ (Leaves.refl _ _)) (by decide)
    | with_reducible refine Leaves.then ?_ (clearRail_leaves _ _ (Leaves.refl _ _)) (by decide)
    | with_reducible refine Leaves.then ?_ (chgSettle_leaves _ (Leaves.refl _ _)) (by decide)
    | with_reducible refine Leaves.then ?_ (arm_leaves _ _ _ (Leaves.refl _ _)) (by decide)
    | with_reducible refine Leaves.then ?_ (disarm_leaves _ _ (Leaves.refl _ _)) (by decide) | assumption)

theorem fallbackMark_leaves (restart : Bool) (s : State) (hs : Leaves [.clk, .upd] z s) :
    Leaves [.clk, .upd] z (fallbackMark restart s) := by
  unfold fallbackMark
  repeat' (first
    | with_reducible assumption | with_reducible intro _ | subst x
    | with_reducible refine Leaves.then ?_ (disarm_leaves _ _ (Leaves.refl _ _)) (by decide) | assumption)

theorem fallback_leaves (s : State) (hs : Leaves [.clk, .free, .glob, .regs, .txn, .safe, .pat, .hk, .gau, .bus, .ds, .fl, .upd] z s) :
    Leaves [.clk, .free, .glob, .regs, .txn, .safe, .pat, .hk, .gau, .bus, .ds, .fl, .upd] z (fallback s) := by
  unfold fallback
  repeat' (first
    | with_reducible assumption | with_reducible intro _ | subst x | with_reducible apply Leaves.ite
    | with_reducible refine Leaves.then ?_ (fallbackMark_leaves _ _ (Leaves.refl _ _)) (by decide)
    | with_reducible refine Leaves.then ?_ (causedRestart_leaves _ _ _ (Leaves.refl _ _)) (by decide))

theorem restartSet_leaves (m : Mask) (s : State) (hs : Leaves [.clk, .seq] z s) :
    Leaves [.clk, .seq] z (restartSet m s) := by
  unfold restartSet
  repeat' (first
    | with_reducible assumption | with_reducible intro _ | subst x
    | (extract_lets +onlyGivenNames x; have hx : Leaves [.clk, .seq] z x := ?_; clear_value x)
    | (extract_lets +onlyGivenNames x; clear_value x) | split
    | with_reducible refine Leaves.then ?_ (arm_leaves _ _ _ (Leaves.refl _ _)) (by decide) | with_reducible apply leaves_foldl
    | dsimp only | assumption)

theorem fwdCheck_leaves (s : State) (hs : Leaves [.clk, .free, .glob, .regs, .seq, .txn, .safe, .pat, .hk, .gau, .bus, .ds, .fl, .upd] z s) :
    Leaves [.clk, .free, .glob, .regs, .seq, .txn, .safe, .pat, .hk, .gau, .bus, .ds, .fl, .upd] z (fwdCheck s) := by
  unfold fwdCheck
  repeat' (first
    | with_reducible assumption | with_reducible intro _ | subst x
    | (extract_lets +onlyGivenNames x; have hx : Leaves [.clk, .free, .glob, .regs, .seq, .txn, .safe, .pat, .hk, .gau, .bus, .ds, .fl, .upd] z x := ?_; clear_value x)
    | (extract_lets +onlyGivenNames x; clear_value x) | with_reducible apply Leaves.ite | split
    | with_reducible refine Leaves.then ?_ (fallback_leaves _ (Leaves.refl _ _)) (by decide)
    | with_reducible refine Leaves.then ?_ (enterState_leaves _ _ (Leaves.refl _ _)) (by decide)
    | with_reducible refine Leaves.then ?_ (arm_leaves _ _ _ (Leaves.refl _ _)) (by decide) | assumption)

theorem settleOn_leaves (s : State) (hs : Leaves [.pending] z s) :
    Leaves [.pending] z (settleOn s) := by
  unfold settleOn
  repeat' (first
    | with_reducible assumption | with_reducible intro _ | subst x | with_reducible apply Leaves.ite
    | with_reducible refine Leaves.then ?_ (enqueueOnce_leaves _ _ (Leaves.refl _ _)) (by decide) | with_reducible apply leaves_foldl)

theorem settleOff_leaves (s : State) (hs : Leaves [.pending] z s) :
    Leaves [.pending] z (settleOff s) := by
  unfold settleOff
  repeat' (first
    | with_reducible assumption | with_reducible intro _ | subst x | with_reducible apply Leaves.ite
    | with_reducible refine Leaves.then ?_ (enqueueOnce_leaves _ _ (Leaves.refl _ _)) (by decide) | with_reducible apply leaves_foldl)

theorem settleRetry_leaves (s : State) (r : Nat) (hs : Leaves [.clk] z s) :
    Leaves [.clk] z (settleRetry s r) := by
  unfold settleRetry
  repeat' (first
    | with_reducible assumption | with_reducible intro _ | subst x | with_reducible apply Leaves.ite
    | with_reducible refine Leaves.then ?_ (arm_leaves _ _ _ (Leaves.refl _ _)) (by decide))

theorem settleSafe_leaves (s : State) (hs : Leaves [.clk, .seq] z s) :
    Leaves [.clk, .seq] z (settleSafe s) := by
  unfold settleSafe
  repeat' (first
    | with_reducible assumption | with_reducible intro _ | subst x
    | (extract_lets +onlyGivenNames x; have hx : Leaves [.clk, .seq] z x := ?_; clear_value x)
    | (extract_lets +onlyGivenNames x; clear_value x) | with_reducible apply Leaves.ite
    | with_reducible refine Leaves.then ?_ (setSeq_leaves _ _ (Leaves.refl _ _)) (by decide)
    | with_reducible refine Leaves.then ?_ (arm_leaves _ _ _ (Leaves.refl _ _)) (by decide))

theorem floorRail_leaves (e : FloorEnt) (s : State) (hs : Leaves [.regs] z s) :
    Leaves [.regs] z (floorRail e s) := by
  unfold floorRail
  repeat' (first
    | with_reducible assumption | with_reducible intro _ | subst x
    | (extract_lets +onlyGivenNames x; have hx : Leaves [.regs] z x := ?_; clear_value x)
    | (extract_lets +onlyGivenNames x; clear_value x) | with_reducible apply Leaves.ite | split
    | with_reducible refine Leaves.then ?_ (putLive_leaves _ _ _ (Leaves.refl _ _)) (by decide))

theorem floorLoad_leaves (s : State) (hs : Leaves [.regs] z s) :
    Leaves [.regs] z (floorLoad s) := by
  unfold floorLoad
  repeat' (first
    | with_reducible assumption | with_reducible intro _ | subst x
    | (extract_lets +onlyGivenNames x; clear_value x) | with_reducible apply Leaves.ite
    | with_reducible refine Leaves.then ?_ (floorRail_leaves _ _ (Leaves.refl _ _)) (by decide)
    | with_reducible refine Leaves.then ?_ (putLive_leaves _ _ _ (Leaves.refl _ _)) (by decide) | with_reducible apply leaves_foldl)

theorem floorTake_leaves (s : State) (hs : Leaves [.glob, .regs] z s) :
    Leaves [.glob, .regs] z (floorTake s) := by
  unfold floorTake
  repeat' (first
    | with_reducible assumption | with_reducible intro _ | subst x | with_reducible apply Leaves.ite
    | with_reducible refine Leaves.then ?_ (floorLoad_leaves _ (Leaves.refl _ _)) (by decide)
    | with_reducible refine Leaves.then ?_ (loadHLive_leaves _ (Leaves.refl _ _)) (by decide) | assumption)

theorem idleWatch_leaves (again : Bool) (s : State) (hs : Leaves [.clk] z s) :
    Leaves [.clk] z (idleWatch again s) := by
  unfold idleWatch
  repeat' (first
    | with_reducible assumption | with_reducible intro _ | subst x
    | (extract_lets +onlyGivenNames x; clear_value x) | with_reducible apply Leaves.ite
    | with_reducible refine Leaves.then ?_ (arm_leaves _ _ _ (Leaves.refl _ _)) (by decide)
    | with_reducible refine Leaves.then ?_ (disarm_leaves _ _ (Leaves.refl _ _)) (by decide))

theorem watchLoss_leaves (s : State) (hs : Leaves [.clk] z s) :
    Leaves [.clk] z (watchLoss s) := by
  unfold watchLoss
  repeat' (first
    | with_reducible assumption | with_reducible intro _ | subst x | with_reducible apply Leaves.ite
    | with_reducible refine Leaves.then ?_ (arm_leaves _ _ _ (Leaves.refl _ _)) (by decide))

theorem armSlow_leaves (x : Path) (s : State) (hs : Leaves [.clk] z s) :
    Leaves [.clk] z (armSlow x s) := by
  unfold armSlow
  repeat' (first
    | with_reducible assumption | with_reducible intro _ | subst x
    | (extract_lets +onlyGivenNames x; clear_value x) | with_reducible apply Leaves.ite
    | with_reducible refine Leaves.then ?_ (arm_leaves _ _ _ (Leaves.refl _ _)) (by decide)
    | with_reducible refine Leaves.then ?_ (disarm_leaves _ _ (Leaves.refl _ _)) (by decide))

theorem noteSense_leaves (x : Path) (uv : Int) (s : State) (hs : Leaves [.clk, .inp] z s) :
    Leaves [.clk, .inp] z (noteSense x uv s) := by
  unfold noteSense
  repeat' (first
    | with_reducible assumption | with_reducible intro _ | subst x
    | (extract_lets +onlyGivenNames x; clear_value x) | with_reducible apply Leaves.ite
    | with_reducible refine Leaves.then ?_ (armSlow_leaves _ _ (Leaves.refl _ _)) (by decide)
    | with_reducible refine Leaves.then ?_ (setPath_leaves _ _ _ (Leaves.refl _ _)) (by decide))

theorem takeMeas_leaves (m : Option InMeas) (s : State) (hs : Leaves [.clk, .inp] z s) :
    Leaves [.clk, .inp] z (takeMeas m s) := by
  unfold takeMeas
  repeat' (first
    | with_reducible assumption | with_reducible intro _ | subst x
    | (extract_lets +onlyGivenNames x; have hx : Leaves [.clk, .inp] z x := ?_; clear_value x)
    | (extract_lets +onlyGivenNames x; clear_value x) | split
    | with_reducible refine Leaves.then ?_ (noteSense_leaves _ _ _ (Leaves.refl _ _)) (by decide) | assumption)

end Sys2Proof.Machine
end

section
/-! SUPPORT. What the operations leave alone, raise marks apart, function by function. -/

namespace Sys2Proof.Machine

open Sys2Proof

variable {z : State} {l : List Part}

theorem slotEnd_leaves (st : Nat) (err : Byte) (res : List Byte) (s : State) (hs : Leaves [.bus] z s) :
    Leaves [.bus] z (slotEnd st err res s) := by
  unfold slotEnd
  exact hs.set (by simp [only_iff])


theorem rejectTxn_leaves (rsn : Byte) (cres : List Byte) (s : State) (hs : Leaves [.bus] z s) :
    Leaves [.bus] z (rejectTxn rsn cres s) := slotEnd_leaves _ _ _ _ (raiseG_leaves _ _ _ hs)


theorem endCommit_leaves (c : Commit) (e : CommitEnd) (s : State) (hs : Leaves [.clk, .txn, .bus] z s) :
    Leaves [.clk, .txn, .bus] z (endCommit c e s) := by
  unfold endCommit
  extract_lets txn a b d b6 cres
  have ha : Leaves [.clk, .txn, .bus] z a := Leaves.then (hs.set (by simp [only_iff])) (disarm_leaves _ _ (.refl _ _)) (by decide)
  clear_value a
  have hd : Leaves [.clk, .txn, .bus] z d := raiseG_leaves _ _ _ (logOther_leaves _ _ _ _ ha)
  clear_value d
  split
  · exact hd.then (slotEnd_leaves _ _ _ _ (.refl _ _)) (by decide)
  · split
    · split
      · exact hd.then (slotEnd_leaves _ _ _ _ (.refl _ _)) (by decide)
      · exact hd.then (rejectTxn_leaves _ _ _ (.refl _ _)) (by decide)
    · exact hd


theorem preempt_leaves (kind : Nat) (reach : Mask) (s : State) (hs : Leaves [.clk, .txn, .bus] z s) :
    Leaves [.clk, .txn, .bus] z (preempt kind reach s) := by
  unfold preempt
  repeat' (first
    | with_reducible assumption | with_reducible intro _ | subst x | with_reducible apply Leaves.ite | split
    | with_reducible refine Leaves.then ?_ (endCommit_leaves _ _ _ (Leaves.refl _ _)) (by decide))

theorem wdStop_leaves (s : State) (hs : Leaves [.clk, .safe] z s) :
    Leaves [.clk, .safe] z (wdStop s) := by
  unfold wdStop
  repeat' (first
    | with_reducible assumption | with_reducible intro _ | subst x
    | with_reducible refine Leaves.then ?_ (disarm_leaves _ _ (Leaves.refl _ _)) (by decide) | assumption)

theorem slpCommandEnd_leaves (code : Byte) (s : State) (hs : Leaves [.bus] z s) :
    Leaves [.bus] z (slpCommandEnd code s) := by
  unfold slpCommandEnd
  repeat' (first
    | with_reducible assumption | with_reducible intro _ | subst x | with_reducible apply Leaves.ite
    | with_reducible refine Leaves.then ?_ (slotEnd_leaves _ _ _ _ (Leaves.refl _ _)) (by decide))

theorem abortSleep_leaves (s : State) (hs : Leaves [.pwr, .bus] z s) :
    Leaves [.pwr, .bus] z (abortSleep s) := by
  unfold abortSleep
  repeat' (first
    | with_reducible assumption | with_reducible intro _ | subst x
    | with_reducible refine Leaves.then ?_ (slpCommandEnd_leaves _ _ (Leaves.refl _ _)) (by decide)
    | with_reducible apply raiseG_leaves | assumption)

end Sys2Proof.Machine

namespace Sys2Proof

open Sys2Proof.Machine

/-! The parts that the sequencer's operations decide by. -/

/-- Supply, clock, boot and a wanted reset are as they were: all that says whether the island has power, but for the state. -/
structure Powered (s t : State) : Prop where
  supplied : t.glob.supplied = s.glob.supplied
  vaonOk : t.glob.vaonOk = s.glob.vaonOk
  clocked : t.glob.clocked = s.glob.clocked
  sensed : t.otp.sensed = s.otp.sensed
  boot : t.glob.boot = s.glob.boot
  floor : t.glob.floor = s.glob.floor
  pendRst : t.glob.pendRst = s.glob.pendRst

theorem Powered.refl (s : State) : Powered s s := ⟨rfl, rfl, rfl, rfl, rfl, rfl, rfl⟩

theorem Powered.trans {s t u : State} (h : Powered s t) (g : Powered t u) : Powered s u :=
  ⟨g.supplied.trans h.supplied, g.vaonOk.trans h.vaonOk, g.clocked.trans h.clocked, g.sensed.trans h.sensed, g.boot.trans h.boot,
    g.floor.trans h.floor, g.pendRst.trans h.pendRst⟩

theorem Powered.of_eq {s t : State} (g : t.glob = s.glob) (o : t.otp = s.otp) : Powered s t := by
  constructor <;> simp [g, o]

theorem Leaves.powered {l : List Part} {s t : State} (h : Leaves l s t) (hg : .glob ∉ l ++ raiseParts := by decide)
    (ho : .otp ∉ l ++ raiseParts := by decide) : Powered s t :=
  .of_eq (h.same .glob hg) (h.same .otp ho)

theorem Leaves.st {l : List Part} {s t : State} (h : Leaves l s t) (hg : .glob ∉ l ++ raiseParts := by decide) :
    t.glob.st = s.glob.st := congrArg (·.st) (h.same .glob hg : t.glob = s.glob)

theorem Powered.anvil {s t : State} (h : Powered s t) (a : anvilOn s = true) (n : t.glob.st ≠ .sleep) (m : t.glob.st ≠ .ship) :
    anvilOn t = true := by
  simp only [anvilOn, Bool.and_eq_true, decide_eq_true_eq] at a ⊢
  obtain ⟨⟨⟨⟨⟨a1, a2⟩, a3⟩, a4⟩, -⟩, -⟩ := a
  exact ⟨⟨⟨⟨⟨h.supplied.trans a1, h.vaonOk.trans a2⟩, h.clocked.trans a3⟩, h.sensed.trans a4⟩, n⟩, m⟩

theorem anvilOn_state {s : State} (a : anvilOn s = true) : s.glob.st ≠ .sleep ∧ s.glob.st ≠ .ship := by
  simp only [anvilOn, Bool.and_eq_true, decide_eq_true_eq] at a
  exact ⟨a.1.2, a.2⟩

theorem Powered.anvil_st {s t : State} (h : Powered s t) (e : t.glob.st = s.glob.st) (a : anvilOn s = true) : anvilOn t = true :=
  h.anvil a (e ▸ (anvilOn_state a).1) (e ▸ (anvilOn_state a).2)

end Sys2Proof

namespace Sys2Proof.Machine

open Sys2Proof

variable {z : State}

/-! Entry to a state. -/

theorem enterState_glob (n : St) (s : State) : (enterState n s).glob = { s.glob with
    st := n, left := if s.glob.st = n then s.glob.left else s.glob.st } := by
  have hr (u : State) : (startRounds u).glob = u.glob := (startRounds_leaves u (.refl _ _)).same .glob (by decide)
  have hc (u : State) : (closeAll u).glob = u.glob := (closeAll_leaves u (.refl _ _)).same .glob (by decide)
  by_cases h : s.glob.st = n
  · rw [enterState, if_pos h, if_pos h, ← h]
  · rw [enterState, if_neg h, if_neg h]
    generalize satAdd 0xFFFFFF 1 = next
    simp only [apply_ite State.glob, grant_glob, hc, logOther_glob, raiseG_glob, hr, ite_self]

theorem enterState_st (n : St) (s : State) : (enterState n s).glob.st = n := by rw [enterState_glob]

theorem enterState_powered (n : St) (s : State) : Powered s (enterState n s) where
  supplied := by rw [enterState_glob]
  vaonOk := by rw [enterState_glob]
  clocked := by rw [enterState_glob]
  sensed := congrArg (·.sensed) ((enterState_leaves n s (.refl _ _)).same .otp (by decide) : (enterState n s).otp = s.otp)
  boot := by rw [enterState_glob]
  floor := by rw [enterState_glob]
  pendRst := by rw [enterState_glob]

theorem Powered.entered {s u : State} (h : Powered s u) (n : St) : Powered s (enterState n u) := h.trans (enterState_powered n u)

theorem anvilOn_enterState {n : St} {s : State} (a : anvilOn s = true) (h : n ≠ .sleep := by decide) (h' : n ≠ .ship := by decide) :
    anvilOn (enterState n s) = true :=
  (enterState_powered n s).anvil a (by rw [enterState_st]; exact h) (by rw [enterState_st]; exact h')

/-! The restart of the island. -/

theorem islandRestart_glob (s : State) : (islandRestart s).glob = { s.glob with fwup := false, restarting := true } := by
  have hb (u : State) : (busRestart u).glob = u.glob := (busRestart_leaves u (.refl _ _)).same .glob (by decide)
  unfold islandRestart
  dsimp only
  split
  · split <;> simp [hb]
  · simp [hb]

theorem causedRestart_glob (b k : Nat) (s : State) : (causedRestart b k s).glob =
    { s.glob with rstcause := setBit s.glob.rstcause b true, fwup := false, restarting := true } := by
  have hs (u : State) : (snapshot 3 k u).glob = u.glob := (snapshot_leaves 3 k u (.refl _ _)).same .glob (by decide)
  simp [causedRestart, islandRestart_glob, hs]

theorem fallback_powered (s : State) : Powered s (fallback s) ∧ (fallback s).glob.st = s.glob.st := by
  have ho : (fallback s).otp = s.otp := (fallback_leaves s (.refl _ _)).same .otp (by decide)
  have hf (b : Bool) : (fallbackMark b s).glob = s.glob := rfl
  unfold fallback at *
  split at ho
  · rw [if_pos ‹_›]
    have hg := causedRestart_glob 8 (16 * 55 + 9) (fallbackMark false s)
    rw [hf] at hg
    exact ⟨⟨by rw [hg], by rw [hg], by rw [hg], by rw [ho], by rw [hg], by rw [hg], by rw [hg]⟩, by rw [hg]⟩
  · rw [if_neg ‹_›]
    exact ⟨.refl s, rfl⟩

/-! The forward sequence's end, and what settles while no reverse sequence runs. -/

theorem fwdCheck_powered (s : State) : Powered s (fwdCheck s) ∧
    ((fwdCheck s).glob.st = s.glob.st ∨ s.glob.st = .start ∧ (fwdCheck s).glob.st = .run) := by
  unfold fwdCheck
  dsimp only
  split
  case isFalse => exact ⟨.refl s, .inl rfl⟩
  case isTrue h =>
    generalize hu : enterState .run _ = u
    have up : Powered s u := by 
      rw [← hu]
      refine Powered.entered ?_ .run
      exact ⟨rfl, rfl, rfl, rfl, rfl, rfl, rfl⟩
    have us : u.glob.st = .run := by rw [← hu]; exact enterState_st .run _
    suffices g : ∀ t, Powered u t ∧ t.glob.st = u.glob.st → Powered s t ∧ (t.glob.st = s.glob.st ∨ s.glob.st = .start ∧ t.glob.st = .run) by
      split
      · split
        · split
          · exact g _ ⟨⟨rfl, rfl, rfl, rfl, rfl, rfl, rfl⟩, rfl⟩
          · exact g _ ⟨.refl u, rfl⟩
        · exact g _ ⟨.refl u, rfl⟩
      · exact g _ (fallback_powered u)
    exact fun t ht => ⟨up.trans ht.1, .inr ⟨h.2.1, ht.2.trans us⟩⟩

theorem fwdCheck_of_not_start {s : State} (h : s.glob.st ≠ .start) : fwdCheck s = s := by
  unfold fwdCheck
  dsimp only
  rw [if_neg fun x => h x.2.1]

/-- What `settle` writes while no reverse sequence runs. -/
def settleParts : List Part :=
  [.pending, .clk, .free, .glob, .regs, .seq, .txn, .safe, .pat, .hk, .gau, .bus, .ds, .fl, .upd]

/-- The steps of `settle` before it asks for the ends of the reverse sequence and of the SAFE policies. -/
def settleStart (s : State) : State :=
  let s := settleOff (settleOn (settleResets (fwdCheck s)))
  (rails s.seq.retryWait).foldl settleRetry s

theorem settle_eq (s : State) : settle s = if (settleStart s).glob.st = .safe then settleSafe (settleStart s)
    else if (settleStart s).glob.st = .stop ∧ (settleStart s).seq.phase = 4 ∧ (settleStart s).rl.up = 0 then stopEnd (settleStart s)
    else settleStart s := rfl

theorem settleStart_after (s : State) : Leaves [.pending, .clk, .seq] (fwdCheck s) (settleStart s) := by
  unfold settleStart
  refine leaves_foldl (fun u x hu => hu.then (settleRetry_leaves u x (.refl _ _)) (by decide)) ?_
  have hr : Leaves [.pending, .clk, .seq] (fwdCheck s) (settleResets (fwdCheck s)) :=
    (Leaves.refl _ _).then (settleResets_leaves _ (.refl _ _)) (by decide)
  exact (hr.then (settleOn_leaves _ (.refl _ _)) (by decide)).then (settleOff_leaves _ (.refl _ _)) (by decide)

theorem settleStart_leaves (s : State) (hs : Leaves settleParts z s) : Leaves settleParts z (settleStart s) :=
  (hs.then (fwdCheck_leaves s (.refl _ _)) (by decide)).then (settleStart_after s) (by decide)

theorem settleStart_powered (s : State) : Powered s (settleStart s) ∧
    ((settleStart s).glob.st = s.glob.st ∨ s.glob.st = .start ∧ (settleStart s).glob.st = .run) := by
  have h := settleStart_after s
  rw [h.st]
  exact ⟨(fwdCheck_powered s).1.trans h.powered, (fwdCheck_powered s).2⟩

theorem settle_leaves (s : State) (h : s.glob.st ≠ .stop) (hs : Leaves settleParts z s) : Leaves settleParts z (settle s) := by
  have hc := settleStart_leaves s hs
  have hn : (settleStart s).glob.st ≠ .stop := by rcases (settleStart_powered s).2 with e | ⟨-, e⟩ <;> simp [e, h]
  rw [settle_eq]
  split
  · exact hc.then (settleSafe_leaves _ (.refl _ _)) (by decide)
  · rw [if_neg fun x => hn x.1]
    exact hc

theorem settle_powered (s : State) (h : s.glob.st ≠ .stop) : Powered s (settle s) ∧
    ((settle s).glob.st = s.glob.st ∨ s.glob.st = .start ∧ (settle s).glob.st = .run) := by
  have hp := settleStart_powered s
  have hn : (settleStart s).glob.st ≠ .stop := by rcases hp.2 with e | ⟨-, e⟩ <;> simp [e, h]
  rw [settle_eq]
  split
  · have hl := settleSafe_leaves (settleStart s) (.refl _ _)
    rw [hl.st]
    exact ⟨hp.1.trans hl.powered, hp.2⟩
  · rw [if_neg fun x => hn x.1]
    exact hp

/-- What the end of the reverse sequence writes where no reset is wanted. -/
theorem stopEnd_leaves (s : State) (h : s.glob.pendRst = none) (hs : Leaves [.clk, .seq, .pwr, .bus, .fl] z s) :
    Leaves [.clk, .seq, .pwr, .bus, .fl] z (stopEnd s) := by
  unfold stopEnd
  split
  · simp_all
  · split
    · exact grant_leaves _ (hs.set (by simp [only_iff]))
    · dsimp only
      refine Leaves.then ?_ (arm_leaves _ _ _ (.refl _ _)) (by decide)
      split
      · exact (hs.then (abortSleep_leaves _ (.refl _ _)) (by decide)).set (by simp [only_iff])
      · exact hs.set (by simp [only_iff])

theorem settle_stop_leaves (s : State) (h : s.glob.st = .stop) (hp : s.glob.pendRst = none)
    (hs : Leaves [.pending, .clk, .seq, .pwr, .bus, .fl] z s) : Leaves [.pending, .clk, .seq, .pwr, .bus, .fl] z (settle s) := by
  have hf : fwdCheck s = s := fwdCheck_of_not_start (by simp [h])
  have h1 := settleStart_after s
  rw [hf] at h1
  have hc := hs.then h1 (by decide)
  have hst := h1.st.trans h
  rw [settle_eq, if_neg (by simp [hst])]
  split
  · exact hc.then (stopEnd_leaves _ (h1.powered.pendRst.trans hp) (.refl _ _)) (by decide)
  · exact hc

/-! The common start. -/

/-- What the common start writes. -/
def startParts : List Part := settleParts ++ [.chg, .pwr]

theorem foldl_arm_leaves {α : Type} (dt : State → α → Nat) (e : α → Instr) (xs : List α) (s : State) (hs : Leaves [.clk] z s) :
    Leaves [.clk] z (xs.foldl (fun s x => arm (dt s x) (e x) s) s) :=
  leaves_foldl (fun u x hu => hu.then (arm_leaves _ _ u (.refl _ _)) (by decide)) hs

theorem floorTake_powered (s : State) : Powered s (floorTake s) := by
  unfold floorTake
  split
  · have h (u : State) : Leaves [.regs] u (floorLoad (loadHLive u)) := (loadHLive_leaves u (.refl _ _)).then (floorLoad_leaves _ (.refl _ _)) (by decide)
    refine Powered.trans ?_ (h _).powered
    exact ⟨rfl, rfl, rfl, rfl, rfl, rfl, rfl⟩
  · exact .refl s

/-- How the common start ends: the charger's phase, the reset outputs and what settles. -/
theorem settle_start {s u : State} (hs : Leaves startParts s u) (hp : Powered s u) (h : u.glob.st = .start) :
    Leaves startParts s (settle (assertAll (chgRestart u))) ∧ Powered s (settle (assertAll (chgRestart u))) ∧
    ((settle (assertAll (chgRestart u))).glob.st = .start ∨ (settle (assertAll (chgRestart u))).glob.st = .run) := by
  have hc := chgRestart_leaves u (.refl _ _)
  have ha := assertAll_leaves (chgRestart u) (.refl _ _)
  have hst : (assertAll (chgRestart u)).glob.st = .start := by rw [ha.st, hc.st, h]
  have hn : (assertAll (chgRestart u)).glob.st ≠ .stop := by simp [hst]
  have hset := settle_powered _ hn
  refine ⟨((hs.then hc (by decide)).then ha (by decide)).then (settle_leaves _ hn (.refl _ _)) (by decide),
    ((hp.trans hc.powered).trans ha.powered).trans hset.1, ?_⟩
  rcases hset.2 with e | ⟨-, e⟩
  · exact .inl (e.trans hst)
  · exact .inr e

theorem commonStart_spec (s : State) : Leaves startParts s (commonStart s) ∧ Powered s (commonStart s) ∧
    ((commonStart s).glob.st = .start ∨ (commonStart s).glob.st = .run) := by
  unfold commonStart
  generalize hw : ({ s with pwr := { s.pwr with idle := false, fromRun := false } } : State) = w
  have lw : Leaves startParts s w := by rw [← hw]; exact (Leaves.refl _ s).set (by simp [only_iff, startParts, settleParts])
  have pw : Powered s w := by rw [← hw]; exact ⟨rfl, rfl, rfl, rfl, rfl, rfl, rfl⟩
  generalize he : enterState .start (floorTake w) = e
  have le : Leaves startParts s e := by
    rw [← he]
    exact (lw.then (floorTake_leaves w (.refl _ _)) (by decide)).then (enterState_leaves _ _ (.refl _ _)) (by decide)
  have pe : Powered s e := by rw [← he]; exact Powered.entered (pw.trans (floorTake_powered w)) .start
  have se : e.glob.st = .start := by rw [← he]; exact enterState_st _ _
  clear hw he
  suffices h : Leaves [.clk, .seq] e _ from
    settle_start (le.then h (by decide)) (pe.trans h.powered) (h.st.trans se)
  have ld : Leaves [.clk, .seq] e (disarm .idleslp (disarm .minoffEnd e)) :=
    ((Leaves.refl _ _).then (disarm_leaves _ _ (.refl _ _)) (by decide)).then (disarm_leaves _ _ (.refl _ _)) (by decide)
  refine Leaves.then (m := [.clk]) ?_ (foldl_arm_leaves _ _ _ _ (.refl _ _)) (by decide)
  exact ld.set (by simp [only_iff])

theorem commonStart_leaves (s : State) (hs : Leaves startParts z s) : Leaves startParts z (commonStart s) :=
  hs.then (commonStart_spec s).1 (List.Subset.refl _)

theorem leaveSafe_spec (s : State) : Leaves startParts s (leaveSafe s) ∧ Powered s (leaveSafe s) ∧
    ((leaveSafe s).glob.st = .start ∨ (leaveSafe s).glob.st = .run) := by
  unfold leaveSafe
  generalize hw : raiseG 59 1 _ = w
  have lw : Leaves [.clk, .safe, .seq] s w := by
    rw [← hw]
    refine raiseG_leaves _ _ _ (Leaves.then ?_ (disarmAll_leaves _ _ (.refl _ _)) (by decide))
    exact (Leaves.refl _ s).set (by simp [only_iff])
  have h := commonStart_spec w
  exact ⟨((Leaves.refl _ s).then lw (by decide)).then h.1 (List.Subset.refl _),
    lw.powered.trans h.2.1, h.2.2⟩

theorem startCheck_spec (s : State) : Leaves startParts s (startCheck s) ∧ Powered s (startCheck s) ∧
    ((startCheck s).glob.st = s.glob.st ∨ (startCheck s).glob.st = .start ∨ (startCheck s).glob.st = .run) := by
  have stay : Leaves startParts s s ∧ Powered s s ∧ (s.glob.st = s.glob.st ∨ s.glob.st = .start ∨ s.glob.st = .run) :=
    ⟨.refl _ s, .refl s, .inl rfl⟩
  obtain ⟨c1, c2, c3⟩ := commonStart_spec s
  obtain ⟨l1, l2, l3⟩ := leaveSafe_spec s
  unfold startCheck
  split
  · exact stay
  · split
    · exact ⟨c1, c2, .inr c3⟩
    · split
      · exact ⟨c1, c2, .inr c3⟩
      · split
        · exact ⟨l1, l2, .inr l3⟩
        · exact stay

theorem startCheck_run {s : State} (h : s.glob.st = .run) : startCheck s = s := by
  simp [startCheck, h]

theorem idleWatch_run {s : State} (b : Bool) (h : s.glob.st = .run) : idleWatch b s = disarm .idleslp s := by
  simp [idleWatch, h]

/-! Wake latches while the island has power. -/

/-- What a wake from STANDBY writes. -/
def wakeParts : List Part := [.clk, .glob, .safe, .hk, .pwr, .fl]

theorem wakeCheck_of_not {s : State} (h : s.glob.st ≠ .standby) (a : anvilOn s = true) : wakeCheck s = s := by
  simp [wakeCheck, h, (anvilOn_state a).1]

theorem wakeCheck_run {s : State} (h : s.glob.st = .run) : wakeCheck s = s := by simp [wakeCheck, h]

theorem wakeCheck_spec (s : State) (a : anvilOn s = true) : Leaves wakeParts s (wakeCheck s) ∧ Powered s (wakeCheck s) ∧
    ((wakeCheck s).glob.st = s.glob.st ∨ s.glob.st = .standby ∧ (wakeCheck s).glob.st = .run) := by
  have stay : Leaves wakeParts s s ∧ Powered s s ∧ (s.glob.st = s.glob.st ∨ s.glob.st = .standby ∧ s.glob.st = .run) :=
    ⟨.refl _ s, .refl s, .inl rfl⟩
  unfold wakeCheck
  split
  · exact stay
  · split
    · rename_i h
      generalize hw : enterState .run _ = w
      have lw : Leaves wakeParts s w := by
        rw [← hw]
        refine Leaves.then ?_ (enterState_leaves _ _ (.refl _ _)) (by decide)
        exact (Leaves.refl _ s).set (by simp [only_iff, wakeParts])
      have pw : Powered s w := by
        rw [← hw]
        refine Powered.entered ?_ .run
        exact ⟨rfl, rfl, rfl, rfl, rfl, rfl, rfl⟩
      have sw : w.glob.st = .run := by rw [← hw]; exact enterState_st _ _
      have ha := wdArm_leaves w (.refl _ _)
      exact ⟨lw.then ha (by decide), pw.trans ha.powered, .inr ⟨h.1, ha.st.trans sw⟩⟩
    · rw [if_neg (anvilOn_state a).1]
      exact stay

theorem anvilOn_wakeCheck {s : State} (a : anvilOn s = true) : anvilOn (wakeCheck s) = true := by
  obtain ⟨-, p, e | ⟨-, e⟩⟩ := wakeCheck_spec s a
  · exact p.anvil_st e a
  · exact p.anvil a (by simp [e]) (by simp [e])

theorem raiseW_spec (k : Nat) (s : State) (a : anvilOn s = true) : Leaves wakeParts s (raiseW k s) ∧ isPend (raiseW k s) k = true ∧
    anvilOn (raiseW k s) = true := by
  have ar : anvilOn (raise k s) = true := by rw [anvilOn_raise]; exact a
  obtain ⟨l, -, -⟩ := wakeCheck_spec (raise k s) ar
  exact ⟨(raise_leaves k s (.refl _ s)).then l (List.Subset.refl _), l.pend ((raise_raised k s a).marked k (List.mem_singleton.mpr rfl)),
    anvilOn_wakeCheck ar⟩

theorem raiseW_run {s : State} (k : Nat) (h : s.glob.st = .run) : raiseW k s = raise k s := by
  exact wakeCheck_run (by rw [raise_glob]; exact h)

/-! RESUME. -/

theorem resume_spec (s : State) : Leaves startParts s (resume s) ∧ Powered s (resume s) ∧
    ((resume s).glob.st = .start ∨ (resume s).glob.st = .run) := by
  unfold resume
  extract_lets back d seq e
  have ld : Leaves startParts s d := (Leaves.refl _ s).then (disarmAll_leaves _ _ (.refl _ _)) (by decide)
  have pd : Powered s d := ⟨rfl, rfl, rfl, rfl, rfl, rfl, rfl⟩
  have le : Leaves startParts s e := by
    refine Leaves.then ?_ (enterState_leaves _ _ (.refl _ _)) (by decide)
    exact ld.set (by simp [only_iff, startParts, settleParts])
  have pe : Powered s e := by
    refine Powered.entered (pd.trans ?_) .start
    exact ⟨rfl, rfl, rfl, rfl, rfl, rfl, rfl⟩
  have se : e.glob.st = .start := enterState_st _ _
  clear_value e back
  have hc := chgRestart_leaves e (.refl _ _)
  have hr := restartSet_leaves back (chgRestart e) (.refl _ _)
  have hst : (restartSet back (chgRestart e)).glob.st = .start := by rw [hr.st, hc.st, se]
  have hn : (restartSet back (chgRestart e)).glob.st ≠ .stop := by simp [hst]
  obtain ⟨p, q⟩ := settle_powered _ hn
  refine ⟨((le.then hc (by decide)).then hr (by decide)).then (settle_leaves _ hn (.refl _ _)) (by decide),
    ((pe.trans hc.powered).trans hr.powered).trans p, ?_⟩
  rcases q with e | ⟨-, e⟩
  · exact .inl (e.trans hst)
  · exact .inr e

end Sys2Proof.Machine

namespace Sys2Proof

open Sys2Proof.Machine

/-! The registers: a restart of the island drops the bytes held for a field of several offsets. -/

/-- The registers are as they were, held bytes apart. -/
def RegsKept (s t : State) : Prop := t.regs = { s.regs with held := t.regs.held }

theorem RegsKept.refl (s : State) : RegsKept s s := rfl

theorem RegsKept.trans {s t u : State} (h : RegsKept s t) (g : RegsKept t u) : RegsKept s u := by
  unfold RegsKept at *
  rw [g, h]

theorem RegsKept.of_eq {s t : State} (h : t.regs = s.regs) : RegsKept s t := by unfold RegsKept; rw [h]

theorem RegsKept.live {s t : State} (h : RegsKept s t) : t.regs.live = s.regs.live := by rw [h]
theorem RegsKept.lv {s t : State} (h : RegsKept s t) : Machine.lv t = Machine.lv s := by unfold Machine.lv; rw [h.live]

theorem Leaves.regsKept {l : List Part} {s t : State} (h : Leaves l s t) (hl : .regs ∉ l ++ raiseParts := by decide) :
    RegsKept s t := .of_eq (h.same .regs hl)

end Sys2Proof

namespace Sys2Proof.Machine

open Sys2Proof

theorem islandRestart_regs (s : State) : RegsKept s (islandRestart s) := by
  have hd := (dropSlot_leaves s (.refl _ s)).same .regs (by decide)
  unfold islandRestart
  have hb : (busRestart (dropSlot s)).regs = { s.regs with held := [] } := by
    unfold busRestart
    dsimp only
    split <;> simp [show (dropSlot s).regs = s.regs from hd]
  dsimp only
  generalize busRestart (dropSlot s) = b at hb ⊢
  have hk : RegsKept s b := by unfold RegsKept; rw [hb]
  refine hk.trans (.of_eq ?_)
  split
  · split <;> simp
  · simp

theorem fallback_regs (s : State) : RegsKept s (fallback s) := by
  unfold fallback causedRestart
  split
  · refine RegsKept.trans ?_ (islandRestart_regs _)
    exact .of_eq ((snapshot_leaves 3 _ _ (.refl _ _)).same .regs (by decide))
  · exact .refl s

theorem fwdCheck_regs (s : State) : RegsKept s (fwdCheck s) := by
  unfold fwdCheck
  dsimp only
  split
  · generalize hu : enterState .run _ = u
    have ku : RegsKept s u := by
      rw [← hu]
      exact .of_eq ((enterState_leaves .run _ (.refl _ _)).same .regs (by decide))
    split
    · split
      · split <;> exact ku
      · exact ku
    · exact ku.trans (fallback_regs u)
  · exact .refl s

theorem settleStart_regs (s : State) : RegsKept s (settleStart s) := (fwdCheck_regs s).trans (settleStart_after s).regsKept

theorem settle_regs (s : State) (h : s.glob.st ≠ .stop ∨ s.glob.pendRst = none) : RegsKept s (settle s) := by
  have ht := settleStart_regs s
  obtain ⟨hp, hst⟩ := settleStart_powered s
  rw [settle_eq]
  split
  · exact ht.trans (settleSafe_leaves _ (.refl _ _)).regsKept
  · split
    · rename_i hstop
      refine ht.trans (stopEnd_leaves _ (hp.pendRst.trans (h.resolve_left fun n => ?_)) (.refl _ _)).regsKept
      rcases hst with e | ⟨-, e⟩
      · exact n (e ▸ hstop.1)
      · simp [e] at hstop
    · exact ht

theorem resume_regs (s : State) : RegsKept s (resume s) := by
  unfold resume
  extract_lets back d seq e
  have ke : RegsKept s e := .of_eq ((enterState_leaves .start _ (.refl _ _)).same .regs (by decide))
  have se : e.glob.st = .start := enterState_st _ _
  clear_value e back
  have hc := chgRestart_leaves e (.refl _ _)
  have hr := restartSet_leaves back (chgRestart e) (.refl _ _)
  exact ((ke.trans hc.regsKept).trans hr.regsKept).trans (settle_regs _ (.inl (by rw [hr.st, hc.st, se]; simp)))

end Sys2Proof.Machine
end

section
/-! SUPPORT. Which armed events the sequencer's operations leave alone. -/

namespace Sys2Proof.Machine

open Sys2Proof

/-- The events that the sequencer, the island's restart and their like arm or end, and those that a raise marks. -/
def seqTimer (e : Instr) : Bool :=
  isMark e || firmwareTimer e || match e with
  | .railEnable _ | .railOffDelay _ | .retrySpaceEnd _ | .resetRelease _ | .minoffEnd | .idleslp | .wdlate | .tconfExpire | .ttrialExpire
  | .commitDeadline | .fwBootTimeout | .tmrpre | .tmrfast | .wdexp | .safeHoldEnd _ => true
  | _ => false

/-- Every other event is armed for the same moments. -/
def Times (s t : State) : Prop := ∀ e, seqTimer e = false → ∀ d, ⟨d, e⟩ ∈ t.clk.timers ↔ ⟨d, e⟩ ∈ s.clk.timers

variable {z : State}

theorem Times.refl (s : State) : Times s s := fun _ _ _ => .rfl

theorem Times.then {s t : State} (h : Times z s) (g : Times s t) : Times z t := fun e he d => (g e he d).trans (h e he d)

theorem Times.set {s t : State} (h : Times z s) (e : t.clk.timers = s.clk.timers) : Times z t :=
  h.then fun _ _ _ => by rw [e]

theorem Times.armed {s t : State} (h : Times s t) {e : Instr} (he : seqTimer e = false) : armed e t = armed e s := by
  rw [Bool.eq_iff_iff, armed_iff, armed_iff]
  constructor
  · rintro ⟨⟨d, f⟩, m, rfl⟩
    exact ⟨_, (h f he d).mp m, rfl⟩
  · rintro ⟨⟨d, f⟩, m, rfl⟩
    exact ⟨_, (h f he d).mpr m, rfl⟩

theorem seqTimer_mark {e : Instr} (h : seqTimer e = false) : isMark e = false := by
  cases hm : isMark e
  · rfl
  · simp [seqTimer, hm] at h

theorem Times.of_unmarked {s t : State} (h : (unmarked t).clk = (unmarked s).clk) : Times s t := by
  intro e he d
  have hm := seqTimer_mark he
  have f (v : State) : (⟨d, e⟩ : Timer) ∈ v.clk.timers ↔ ⟨d, e⟩ ∈ (unmarked v).clk.timers := by simp [unmarked, hm]
  rw [f t, h, ← f s]

end Sys2Proof.Machine

namespace Sys2Proof

open Sys2Proof.Machine

/-- An operation that leaves the clock's part alone arms nothing but marks. -/
theorem Leaves.times {l : List Part} {s t : State} (h : Leaves l s t) (hl : .clk ∉ l := by decide) : Times s t :=
  .of_unmarked ((h.marked .clk hl : (unmarked t).clk = (unmarked s).clk))

end Sys2Proof

namespace Sys2Proof.Machine

open Sys2Proof

variable {z : State}

theorem arm_times (dt : Nat) (e : Instr) (h : seqTimer e = true) (s : State) (hs : Times z s) : Times z (arm dt e s) := by
  refine hs.then fun f hf d => ?_
  rw [mem_timers_arm]
  have : f ≠ e := fun x => by simp [x, h] at hf
  simp [this]

theorem disarm_times (e : Instr) (h : seqTimer e = true) (s : State) (hs : Times z s) : Times z (disarm e s) := by
  refine hs.then fun f hf d => ?_
  rw [mem_timers_disarm]
  have : f ≠ e := fun x => by simp [x, h] at hf
  simp [this]

theorem disarmAll_times (p : Instr → Bool) (h : ∀ e, p e = true → seqTimer e = true) (s : State) (hs : Times z s) :
    Times z (disarmAll p s) := by
  refine hs.then fun f hf d => ?_
  simp only [disarmAll, List.mem_filter]
  have : p f ≠ true := fun x => by simp [h f x] at hf
  simp [this]

theorem Times.ite {a b : State} {c : Prop} [Decidable c] (ha : c → Times z a) (hb : ¬c → Times z b) : Times z (if c then a else b) := by
  split
  · exact ha ‹_›
  · exact hb ‹_›

theorem times_pair {α : Type} {p : α × State} {a : α} {t : State} (e : p = (a, t)) (h : Times z p.2) : Times z t := by
  subst e; exact h

theorem times_foldl {α : Type} {s : State} {f : State → α → State} {xs : List α} (hf : ∀ s x, Times z s → Times z (f s x))
    (h : Times z s) : Times z (xs.foldl f s) := by
  induction xs generalizing s with
  | nil => exact h
  | cons x xs ih => exact ih (hf s x h)

theorem raise_times (k : Nat) (s : State) (hs : Times z s) : Times z (raise k s) := hs.then ((raise_leaves k s (.refl [] s)).times)
theorem raiseG_times (g b : Nat) (s : State) (hs : Times z s) : Times z (raiseG g b s) := raise_times _ s hs
theorem raiseIf_times (c : Bool) (k : Nat) (s : State) (hs : Times z s) : Times z (raiseIf c k s) :=
  hs.then ((raiseIf_leaves c k s (.refl [] s)).times)
theorem logOther_times (k n : Nat) (d : BitVec 32) (s : State) (hs : Times z s) : Times z (logOther k n d s) :=
  hs.then ((logOther_leaves k n d s (.refl [] s)).times)
theorem grant_times (s : State) (hs : Times z s) : Times z (grant s) := hs.then ((grant_leaves s (.refl [] s)).times)

/-! Function by function. -/

theorem closeOpen_times (o : OpenRec) (s : State) (hs : Times z s) : Times z (closeOpen o s) := by
  unfold closeOpen
  repeat' (first
    | with_reducible assumption | with_reducible intro _ | subst x
    | (extract_lets +onlyGivenNames x; clear_value x)
    | with_reducible refine disarm_times _ rfl _ ?_ | exact Times.set hx rfl | exact Times.set hs rfl)

theorem closeAll_times (s : State) (hs : Times z s) : Times z (closeAll s) := by
  unfold closeAll
  repeat' (first
    | with_reducible assumption | with_reducible intro _ | subst x
    | with_reducible refine Times.then ?_ (closeOpen_times _ _ (.refl _)) | with_reducible apply times_foldl | exact Times.set hs rfl)

theorem writeEntry_times (e : LogRec) (s : State) (hs : Times z s) : Times z (writeEntry e s) := by
  unfold writeEntry
  repeat' (first
    | with_reducible assumption | with_reducible intro _ | subst x
    | (extract_lets +onlyGivenNames x; have hx : Times z x := ?_; clear_value x) | (extract_lets +onlyGivenNames x; clear_value x)
    | with_reducible apply Times.ite | split
    | with_reducible refine Times.then ?_ ((appendRec_leaves _ _ (.refl _ _)).times (by decide))
    | with_reducible refine Times.then ?_ (closeOpen_times _ _ (.refl _))
    | with_reducible refine Times.then ?_ ((logLost_leaves _ (.refl _ _)).times (by decide))
    | with_reducible refine arm_times _ _ rfl _ ?_ | exact Times.set hx rfl | exact Times.set hs rfl)

theorem writeQueue_times (n : Nat) (s : State) (hs : Times z s) : Times z (writeQueue n s) := by
  induction n generalizing s with
  | zero => exact hs
  | succ n ih =>
    unfold writeQueue
    split
    · exact hs.set rfl
    · next e rest _ =>
      refine ih _ ?_
      have hw := writeEntry_times e { s with fl := { s.fl with queue := rest } } (hs.set rfl)
      generalize writeEntry e _ = w at hw ⊢
      split
      · exact logOther_times _ _ _ _ (hw.set rfl)
      · exact hw


theorem cutLog_times (s : State) (hs : Times z s) : Times z (cutLog s) := by
  unfold cutLog
  have hd (u : State) : Times u (drawNat u).2 := (drawNat_leaves u (.refl _ _)).times
  have hb (u : State) : Times u (drawBool u).2 := (drawBool_leaves u (.refl _ _)).times
  have h2 := (writeQueue_times ((drawNat s).1 % 33) _ (hs.then (hd s))).then (hb _)
  have last (m : Nat) (t : State) (ht : Times z t) :
      Times z (markLogFrom m (if (drawBool t).1 then programCloses (drawBool t).2 else (drawBool t).2)) := by
    refine Times.then ?_ (markLogFrom_leaves _ _ (.refl _ _)).times
    split
    · exact (ht.then (hb t)).then (programCloses_leaves _ (.refl _ _)).times
    · exact ht.then (hb t)
  refine last _ _ ?_
  change Times z (drawBool _).2 at h2
  split
  · split
    · exact h2
    · exact h2.then (appendRec_leaves _ (drawBool _).2 (.refl _ _)).times
  · exact h2


theorem dropSlot_times (s : State) (hs : Times z s) : Times z (dropSlot s) := by
  unfold dropSlot
  split
  · exact hs
  next sl _ =>
    have hd : Times z { s with fl := { s.fl with slot := none } } := hs.set rfl
    dsimp only
    generalize State.mk _ _ _ _ _ _ _ _ _ _ _ _ _ _ _ _ _ _ _ _ _ _ _ _ _ _ _ _ = t at hd ⊢
    generalize slotSector s sl = n
    split
    · exact cutLog_times t hd
    · exact hd.then (cutLogErase_leaves _ t (.refl _ _)).times
    · exact hd.then (cutLogErase_leaves _ t (.refl _ _)).times
    · exact hd.then (cutUpd_leaves _ t (.refl _ _)).times
    · exact hd.then ((cutRefresh_leaves _ t (.refl _ _)).times.then (settleBanks_leaves _ (.refl _ _)).times)
    · split
      · exact hd.then ((cutErase_leaves _ _ t (.refl _ _)).times.then (settleBanks_leaves _ (.refl _ _)).times)
      · exact hd


theorem enterState_times (n : St) (s : State) (hs : Times z s) : Times z (enterState n s) := by
  by_cases h : s.glob.st = n
  · rw [enterState, if_pos h]; exact hs
  · rw [enterState, if_neg h]
    generalize satAdd 0xFFFFFF 1 = next
    extract_lets old g a b k c d e
    have ha : Times z a := hs.set rfl
    have hb : Times z b := by
      unfold b
      split
      · exact ha.then (startRounds_leaves _ (.refl _ _)).times
      · exact ha
    have hc : Times z c := by
      unfold c
      split
      · exact hb.set rfl
      · exact hb
    have he : Times z e := logOther_times _ _ _ _ (raiseG_times _ _ _ hc)
    clear_value e
    split
    · exact grant_times _ (closeAll_times _ (he.set rfl))
    · split
      · exact closeAll_times _ he
      · exact he


theorem islandRestart_times (s : State) (hs : Times z s) : Times z (islandRestart s) := by
  unfold islandRestart
  have hb : Times z (busRestart (dropSlot s)) := (dropSlot_times s hs).then (busRestart_leaves _ (.refl _ _)).times
  extract_lets b txn c d e
  have hc : Times z c := by
    unfold c
    split
    · split
      · exact hb.set rfl
      · exact disarm_times _ rfl _ (raiseG_times _ _ _ (logOther_times _ _ _ _ (hb.set rfl)))
    · exact hb.set rfl
  clear_value c
  exact (arm_times _ _ rfl _ (disarmAll_times _ (fun e h => by simp [seqTimer, h]) _ hc)).set rfl


theorem causedRestart_times (bitNo src : Nat) (s : State) (hs : Times z s) : Times z (causedRestart bitNo src s) := by
  unfold causedRestart
  repeat' (first
    | with_reducible assumption | with_reducible intro _ | subst x
    | with_reducible refine Times.then ?_ (islandRestart_times _ (.refl _))
    | with_reducible refine Times.then ?_ ((snapshot_leaves _ _ _ (.refl _ _)).times (by decide)) | exact Times.set hs rfl)

theorem runTimer_times (s : State) (hs : Times z s) : Times z (runTimer s) := by
  unfold runTimer
  extract_lets n g rate a
  have ha : Times z a := disarm_times _ rfl _ (disarm_times _ rfl _ (hs.set rfl))
  clear_value a
  split
  · exact ha
  · exact arm_times _ _ (by split <;> rfl) _ ha


theorem setPhase_times (p : Nat) (s : State) (hs : Times z s) : Times z (setPhase p s) := by
  unfold setPhase
  repeat' (first
    | with_reducible assumption | with_reducible intro _ | subst x
    | (extract_lets +onlyGivenNames x; clear_value x)
    | with_reducible apply Times.ite | with_reducible refine Times.then ?_ (runTimer_times _ (.refl _))
    | with_reducible refine Times.then ?_ ((setChg_leaves _ _ (.refl _ _)).times (by decide)) | with_reducible apply raiseG_times
    | exact Times.set hs rfl)

theorem chgWatch_times (s : State) (hs : Times z s) : Times z (chgWatch s) := by
  unfold chgWatch
  repeat' (first
    | with_reducible assumption | with_reducible intro _ | subst x | with_reducible apply Times.ite
    | with_reducible refine arm_times _ _ rfl _ ?_ | with_reducible refine disarm_times _ rfl _ ?_)

theorem chgSettle_times (s : State) (hs : Times z s) : Times z (chgSettle s) := by
  unfold chgSettle
  repeat' (first
    | with_reducible assumption | with_reducible intro _ | subst x
    | (extract_lets +onlyGivenNames x; have hx : Times z x := ?_; clear_value x) | (extract_lets +onlyGivenNames x; clear_value x)
    | with_reducible apply Times.ite | split | with_reducible refine Times.then ?_ (chgWatch_times _ (.refl _))
    | with_reducible refine Times.then ?_ (setPhase_times _ _ (.refl _))
    | with_reducible refine Times.then ?_ ((choosePhase_leaves _ (.refl _ _)).times (by decide))
    | with_reducible refine Times.then ?_ ((setChg_leaves _ _ (.refl _ _)).times (by decide))
    | refine times_pair (by with_reducible assumption) ?_ | exact Times.then (by with_reducible assumption) ((choosePhase_leaves _ (.refl _ _)).times (by decide)))

theorem chgRestart_times (s : State) (hs : Times z s) : Times z (chgRestart s) := by
  unfold chgRestart
  repeat' (first
    | with_reducible assumption | with_reducible intro _ | subst x
    | (extract_lets +onlyGivenNames x; clear_value x)
    | with_reducible apply Times.ite | split | with_reducible refine Times.then ?_ (chgSettle_times _ (.refl _))
    | with_reducible refine Times.then ?_ (setPhase_times _ _ (.refl _))
    | with_reducible refine Times.then ?_ ((choosePhase_leaves _ (.refl _ _)).times (by decide))
    | with_reducible refine Times.then ?_ ((setChg_leaves _ _ (.refl _ _)).times (by decide))
    | refine times_pair (by with_reducible assumption) ?_ | exact Times.then (by with_reducible assumption) ((choosePhase_leaves _ (.refl _ _)).times (by decide)))

theorem endCommit_times (c : Commit) (e : CommitEnd) (s : State) (hs : Times z s) : Times z (endCommit c e s) := by
  unfold endCommit
  extract_lets txn a b d b6 cres
  have ha : Times z a := disarm_times _ rfl _ (hs.set rfl)
  clear_value a
  have hd : Times z d := raiseG_times _ _ _ (logOther_times _ _ _ _ ha)
  clear_value d
  split
  · exact hd.then (slotEnd_leaves _ _ _ _ (.refl _ _)).times
  · split
    · split
      · exact hd.then (slotEnd_leaves _ _ _ _ (.refl _ _)).times
      · exact hd.then (rejectTxn_leaves _ _ _ (.refl _ _)).times
    · exact hd


theorem preempt_times (kind : Nat) (reach : Mask) (s : State) (hs : Times z s) : Times z (preempt kind reach s) := by
  unfold preempt
  repeat' (first
    | with_reducible assumption | with_reducible intro _ | subst x | with_reducible apply Times.ite | split
    | with_reducible refine Times.then ?_ (endCommit_times _ _ _ (.refl _)))

theorem assertRst_times (x : Nat) (s : State) (hs : Times z s) : Times z (assertRst x s) := by
  unfold assertRst
  repeat' (first
    | with_reducible assumption | with_reducible intro _ | subst x | with_reducible refine disarm_times _ rfl _ ?_
    | exact Times.set hs rfl)

theorem assertAll_times (s : State) (hs : Times z s) : Times z (assertAll s) := by
  unfold assertAll
  repeat' (first
    | with_reducible assumption | with_reducible intro _ | subst x
    | with_reducible refine Times.then ?_ (assertRst_times _ _ (.refl _)) | exact Times.set hs rfl)

theorem settleResets_times (s : State) (hs : Times z s) : Times z (settleResets s) := by
  unfold settleResets
  refine times_foldl (fun u x hu => ?_) hs
  dsimp only
  split
  · exact hu
  · split
    · split
      · exact hu
      · exact arm_times _ _ rfl _ (hu.set rfl)
    · split
      · exact disarm_times _ rfl _ (hu.set rfl)
      · exact hu


theorem wdStop_times (s : State) (hs : Times z s) : Times z (wdStop s) := by
  unfold wdStop
  repeat' (first
    | with_reducible assumption | with_reducible intro _ | subst x | with_reducible refine disarm_times _ rfl _ ?_
    | exact Times.set hs rfl)

theorem wdArm_times (s : State) (hs : Times z s) : Times z (wdArm s) := by
  unfold wdArm
  repeat' (first
    | with_reducible assumption | with_reducible intro _ | subst x | with_reducible apply Times.ite
    | with_reducible refine arm_times _ _ rfl _ ?_ | exact Times.set hs rfl)

theorem fallbackMark_times (restart : Bool) (s : State) (hs : Times z s) : Times z (fallbackMark restart s) := by
  unfold fallbackMark
  repeat' (first
    | with_reducible assumption | with_reducible intro _ | subst x | with_reducible refine disarm_times _ rfl _ ?_
    | exact Times.set hs rfl)

theorem fallback_times (s : State) (hs : Times z s) : Times z (fallback s) := by
  unfold fallback
  repeat' (first
    | with_reducible assumption | with_reducible intro _ | subst x | with_reducible apply Times.ite
    | with_reducible refine Times.then ?_ (fallbackMark_times _ _ (.refl _))
    | with_reducible refine Times.then ?_ (causedRestart_times _ _ _ (.refl _)))

theorem restartSet_times (m : Mask) (s : State) (hs : Times z s) : Times z (restartSet m s) := by
  unfold restartSet
  repeat' (first
    | with_reducible assumption | with_reducible intro _ | subst x
    | (extract_lets +onlyGivenNames x; have hx : Times z x := ?_; clear_value x) | (extract_lets +onlyGivenNames x; clear_value x)
    | split | with_reducible refine arm_times _ _ rfl _ ?_ | with_reducible apply times_foldl | dsimp only | exact Times.set hx rfl
    | exact Times.set hs rfl)

theorem fwdCheck_times (s : State) (hs : Times z s) : Times z (fwdCheck s) := by
  unfold fwdCheck
  repeat' (first
    | with_reducible assumption | with_reducible intro _ | subst x
    | (extract_lets +onlyGivenNames x; have hx : Times z x := ?_; clear_value x) | (extract_lets +onlyGivenNames x; clear_value x)
    | with_reducible apply Times.ite | split | with_reducible refine Times.then ?_ (fallback_times _ (.refl _))
    | with_reducible refine Times.then ?_ (enterState_times _ _ (.refl _)) | with_reducible refine arm_times _ _ rfl _ ?_
    | exact Times.set hx rfl | exact Times.set hs rfl)

theorem settleRetry_times (s : State) (r : Nat) (hs : Times z s) : Times z (settleRetry s r) := by
  unfold settleRetry
  repeat' (first
    | with_reducible assumption | with_reducible intro _ | subst x | with_reducible apply Times.ite
    | with_reducible refine arm_times _ _ rfl _ ?_)

theorem settleSafe_times (s : State) (hs : Times z s) : Times z (settleSafe s) := by
  unfold settleSafe
  repeat' (first
    | with_reducible assumption | with_reducible intro _ | subst x
    | (extract_lets +onlyGivenNames x; have hx : Times z x := ?_; clear_value x) | (extract_lets +onlyGivenNames x; clear_value x)
    | with_reducible apply Times.ite | with_reducible refine Times.then ?_ ((setSeq_leaves _ _ (.refl _ _)).times (by decide))
    | with_reducible refine arm_times _ _ rfl _ ?_ | exact Times.set hs rfl)

theorem idleWatch_times (again : Bool) (s : State) (hs : Times z s) : Times z (idleWatch again s) := by
  unfold idleWatch
  repeat' (first
    | with_reducible assumption | with_reducible intro _ | subst x
    | (extract_lets +onlyGivenNames x; clear_value x)
    | with_reducible apply Times.ite | with_reducible refine arm_times _ _ rfl _ ?_ | with_reducible refine disarm_times _ rfl _ ?_
    | exact Times.set hs rfl)

/-! The compound ones. -/

theorem settleStart_times (s : State) (hs : Times z s) : Times z (settleStart s) := by
  unfold settleStart
  refine times_foldl (fun u x hu => settleRetry_times u x hu) ?_
  have h := settleResets_times _ (fwdCheck_times s hs)
  exact (h.then (settleOn_leaves _ (.refl _ _)).times).then (settleOff_leaves _ (.refl _ _)).times

theorem stopEnd_times (s : State) (h : s.glob.pendRst = none) (hs : Times z s) : Times z (stopEnd s) := by
  unfold stopEnd
  split
  · simp_all
  · split
    · exact grant_times _ (hs.set rfl)
    · dsimp only
      refine arm_times _ _ rfl _ ?_
      split
      · exact (hs.then (abortSleep_leaves _ (.refl _ _)).times).set rfl
      · exact hs.set rfl

theorem settle_times (s : State) (h : s.glob.st ≠ .stop ∨ s.glob.pendRst = none) (hs : Times z s) : Times z (settle s) := by
  have ht := settleStart_times s hs
  obtain ⟨hp, hst⟩ := settleStart_powered s
  rw [settle_eq]
  split
  · exact settleSafe_times _ ht
  · split
    · rename_i hstop
      refine stopEnd_times _ (hp.pendRst.trans (h.resolve_left fun n => ?_)) ht
      rcases hst with e | ⟨-, e⟩
      · exact n (e ▸ hstop.1)
      · simp [e] at hstop
    · exact ht

theorem commonStart_times (s : State) (hs : Times z s) : Times z (commonStart s) := by
  unfold commonStart
  generalize hw : ({ s with pwr := { s.pwr with idle := false, fromRun := false } } : State) = w
  have tw : Times z w := by rw [← hw]; exact hs.set rfl
  generalize he : enterState .start (floorTake w) = e
  have te : Times z e := by rw [← he]; exact enterState_times _ _ (tw.then (floorTake_leaves w (.refl _ _)).times)
  have se : e.glob.st = .start := by rw [← he]; exact enterState_st _ _
  clear hw he
  have key (u : State) (h : Leaves [.clk, .seq] e u) (tu : Times z u) : Times z (settle (assertAll (chgRestart u))) := by
    have hc := chgRestart_leaves u (.refl _ _)
    have ha := assertAll_leaves (chgRestart u) (.refl _ _)
    exact settle_times _ (.inl (by rw [ha.st, hc.st, h.st, se]; simp)) (assertAll_times _ (chgRestart_times _ tu))
  have ld : Leaves [.clk, .seq] e (disarm .idleslp (disarm .minoffEnd e)) :=
    ((Leaves.refl _ _).then (disarm_leaves _ _ (.refl _ _)) (by decide)).then (disarm_leaves _ _ (.refl _ _)) (by decide)
  have td : Times z (disarm .idleslp (disarm .minoffEnd e)) := disarm_times _ rfl _ (disarm_times _ rfl _ te)
  refine key _ ?_ (times_foldl (fun u x hu => arm_times _ _ rfl _ hu) ?_)
  · refine Leaves.then (m := [.clk]) ?_ (foldl_arm_leaves _ _ _ _ (.refl _ _)) (by decide)
    exact ld.set (by simp [only_iff])
  · exact td.set rfl

theorem leaveSafe_times (s : State) (hs : Times z s) : Times z (leaveSafe s) := by
  unfold leaveSafe
  refine commonStart_times _ (raiseG_times _ _ _ (disarmAll_times _ (fun e he => ?_) _ ?_))
  · revert he
    split <;> simp [seqTimer]
  · exact hs.set rfl

theorem startCheck_times (s : State) (hs : Times z s) : Times z (startCheck s) := by
  unfold startCheck
  split
  · exact hs
  · split
    · exact commonStart_times s hs
    · split
      · exact commonStart_times s hs
      · split
        · exact leaveSafe_times s hs
        · exact hs

theorem wakeCheck_times (s : State) (a : anvilOn s = true) (hs : Times z s) : Times z (wakeCheck s) := by
  unfold wakeCheck
  split
  · exact hs
  · split
    · exact wdArm_times _ (enterState_times _ _ (hs.set rfl))
    · rw [if_neg (anvilOn_state a).1]
      exact hs

theorem raiseW_times (k : Nat) (s : State) (a : anvilOn s = true) (hs : Times z s) : Times z (raiseW k s) :=
  wakeCheck_times _ (by rw [anvilOn_raise]; exact a) (raise_times k s hs)

theorem resume_times (s : State) (hs : Times z s) : Times z (resume s) := by
  unfold resume
  extract_lets back d seq e
  have td : Times z d := disarmAll_times _ (fun e he => by revert he; split <;> simp [seqTimer]) s hs
  have te : Times z e := enterState_times _ _ (td.set rfl)
  have se : e.glob.st = .start := enterState_st _ _
  clear_value e back
  have hc := chgRestart_leaves e (.refl _ _)
  have hr := restartSet_leaves back (chgRestart e) (.refl _ _)
  exact settle_times _ (.inl (by rw [hr.st, hc.st, se]; simp)) (restartSet_times _ _ (chgRestart_times _ te))

end Sys2Proof.Machine
end

section
/-! SUPPORT. The input paths: what the operations that measure, close and open them do. -/

namespace Sys2Proof

open Sys2Proof.Machine

/-! One path in the state. -/

@[simp] theorem pathOf_setPath_same (x : Path) (p : PathSt) (s : State) : pathOf (setPath x p s) x = p := by cases x <;> rfl
@[simp] theorem pathOf_setPath_other (x : Path) (p : PathSt) (s : State) : pathOf (setPath x p s) (other x) = pathOf s (other x) := by
  cases x <;> rfl
@[simp] theorem other_other (x : Path) : other (other x) = x := by cases x <;> rfl
@[simp] theorem pathOf_setPath_of_other (x : Path) (p : PathSt) (s : State) : pathOf (setPath (other x) p s) x = pathOf s x := by
  cases x <;> rfl
theorem other_ne (x : Path) : other x ≠ x := by cases x <;> decide

theorem path_cases (x y : Path) : y = x ∨ y = other x := by cases x <;> cases y <;> decide

theorem pathOf_congr {s t : State} (h : t.inp = s.inp) (y : Path) : pathOf t y = pathOf s y := by cases y <;> simp [pathOf, h]

theorem setPath_inloss (x : Path) (p : PathSt) (s : State) : (setPath x p s).inp.inloss = s.inp.inloss := by cases x <;> rfl
theorem setPath_gate (x : Path) (p : PathSt) (s : State) : (setPath x p s).inp.gate = s.inp.gate := by cases x <;> rfl

theorem setPath_only (x : Path) (p : PathSt) (s : State) : Only [.inp] s (setPath x p s) := by cases x <;> simp [setPath, only_iff]
theorem setPath_now (x : Path) (p : PathSt) (s : State) : (setPath x p s).clk.now = s.clk.now := by cases x <;> rfl

theorem setPath_left (x : Path) (p : PathSt) (s : State) : Leaves [.inp] s (setPath x p s) := .of_only (setPath_only x p s) (setPath_now x p s)

/-- What an operation on the paths may do: outside RUN what a start writes, too. -/
structure PathStep (s t : State) : Prop where
  leaves : Leaves (.inp :: .rl :: startParts) s t
  anvil : anvilOn s = true → anvilOn t = true
  run : s.glob.st = .run → Leaves [.clk, .free, .inp, .rl] s t

theorem PathStep.refl (s : State) : PathStep s s := ⟨.refl _ s, id, fun _ => .refl _ s⟩

theorem PathStep.trans {s t u : State} (h : PathStep s t) (g : PathStep t u) : PathStep s u where
  leaves := h.leaves.then g.leaves (List.Subset.refl _)
  anvil := g.anvil ∘ h.anvil
  run e := (h.run e).then (g.run ((h.run e).st.trans e)) (List.Subset.refl _)

theorem PathStep.of_leaves {l : List Part} {s t : State} (h : Leaves l s t) (hl : l ⊆ [.clk, .free, .inp, .rl] := by decide) :
    PathStep s t where
  leaves := (Leaves.refl _ s).then h (List.Subset.trans hl (by decide))
  anvil a := by
    have k := (Leaves.refl [.clk, .free, .inp, .rl] s).then h hl
    exact k.powered.anvil_st k.st a
  run _ := (Leaves.refl _ s).then h hl

/-- In RUN an operation on the paths writes the paths, PRE's ramp and a free choice alone. -/
theorem PathStep.only {s t : State} (h : PathStep s t) (e : s.glob.st = .run) : Only ([.inp, .rl, .free] ++ raiseParts) s t :=
  (h.run e).only.weaken (by decide)

theorem PathStep.set (x : Path) (p : PathSt) (s : State) : PathStep s (setPath x p s) := .of_leaves (setPath_left x p s)

theorem startCheck_step (s : State) : PathStep s (startCheck s) := by
  obtain ⟨l, p, e⟩ := startCheck_spec s
  refine ⟨(Leaves.refl _ s).then l (by decide), fun a => ?_, fun h => ?_⟩
  · rcases e with e | e | e
    · exact p.anvil_st e a
    · exact p.anvil a (by simp [e]) (by simp [e])
    · exact p.anvil a (by simp [e]) (by simp [e])
  · rw [startCheck_run h]
    exact .refl _ s

theorem startCheck_inp (s : State) : (startCheck s).inp = s.inp := (startCheck_spec s).1.same .inp (by decide)

theorem idleWatch_step (b : Bool) (s : State) : PathStep s (idleWatch b s) := .of_leaves (idleWatch_leaves b s (.refl [.clk] s))
theorem idleWatch_inp (b : Bool) (s : State) : (idleWatch b s).inp = s.inp := (idleWatch_leaves b s (.refl [.clk] s)).same .inp (by decide)

theorem wakeCheck_step {s : State} (a : anvilOn s = true) : PathStep s (wakeCheck s) := by
  obtain ⟨l, -, -⟩ := wakeCheck_spec s a
  refine ⟨(Leaves.refl _ s).then l (by decide), fun _ => anvilOn_wakeCheck a, fun h => ?_⟩
  rw [wakeCheck_run h]
  exact .refl _ s

theorem wakeCheck_inp {s : State} (a : anvilOn s = true) : (wakeCheck s).inp = s.inp := (wakeCheck_spec s a).1.same .inp (by decide)

theorem raise_step (k : Nat) (s : State) : PathStep s (raise k s) := .of_leaves (raise_leaves k s (.refl [] s))

theorem raiseW_step {s : State} (k : Nat) (a : anvilOn s = true) : PathStep s (raiseW k s) :=
  (raise_step k s).trans (wakeCheck_step (by rw [anvilOn_raise]; exact a))

theorem raiseW_inp {s : State} (k : Nat) (a : anvilOn s = true) : (raiseW k s).inp = s.inp := by
  rw [raiseW, wakeCheck_inp (by rw [anvilOn_raise]; exact a), raise_inp]

theorem raiseW_powered {s : State} (k : Nat) (a : anvilOn s = true) : Powered s (raiseW k s) :=
  (raise_leaves k s (.refl [] s)).powered.trans (wakeCheck_spec _ (by rw [anvilOn_raise]; exact a)).2.1

theorem raiseW_pend {s : State} (k : Nat) (a : anvilOn s = true) : isPend (raiseW k s) k = true := (raiseW_spec k s a).2.1

/-- A pending bit outlives an operation on the paths. -/
theorem PathStep.pend {s t : State} (h : PathStep s t) {k : Nat} (p : isPend s k = true) : isPend t k = true := h.leaves.pend p

/-! Measurements. -/

/-- A path without what a measurement and its integrator write. -/
def guards (p : PathSt) : PathSt := { p with sense := 0, acc := 0, accAt := 0, vin := 0 }

theorem armSlow_inp (x : Path) (s : State) : (armSlow x s).inp = s.inp := (armSlow_leaves x s (.refl [.clk] s)).same .inp (by decide)

theorem noteSense_guards (x y : Path) (uv : Int) (s : State) : guards (pathOf (noteSense x uv s) y) = guards (pathOf s y) := by
  rw [noteSense, pathOf_congr (armSlow_inp x _)]
  cases x <;> cases y <;> rfl

theorem noteSense_rest (x : Path) (uv : Int) (s : State) : (noteSense x uv s).inp.inloss = s.inp.inloss ∧
    (noteSense x uv s).inp.gate = s.inp.gate := by
  rw [noteSense, armSlow_inp]
  cases x <;> exact ⟨rfl, rfl⟩

theorem takeMeas_guards (m : Option InMeas) (y : Path) (s : State) : guards (pathOf (takeMeas m s) y) = guards (pathOf s y) := by
  cases m with
  | none => rfl
  | some m =>
    have h : guards (pathOf (takeMeas (some m) s) y) = guards (pathOf (noteSense .b m.ib (noteSense .a m.ia s)) y) := by cases y <;> rfl
    rw [h, noteSense_guards, noteSense_guards]

theorem takeMeas_rest (m : Option InMeas) (s : State) : (takeMeas m s).inp.inloss = s.inp.inloss ∧
    (takeMeas m s).inp.gate = s.inp.gate := by
  cases m with
  | none => exact ⟨rfl, rfl⟩
  | some m =>
    have h1 := noteSense_rest .a m.ia s
    have h2 := noteSense_rest .b m.ib (noteSense .a m.ia s)
    exact ⟨h2.1.trans h1.1, h2.2.trans h1.2⟩

theorem takeMeas_left (m : Option InMeas) (s : State) : Leaves [.clk, .inp] s (takeMeas m s) := takeMeas_leaves m s (.refl _ s)
theorem takeMeas_step (m : Option InMeas) (s : State) : PathStep s (takeMeas m s) := .of_leaves (takeMeas_left m s)
theorem takeMeas_lv (m : Option InMeas) (s : State) : lv (takeMeas m s) = lv s := lv_congr ((takeMeas_left m s).same .regs (by decide))

/-! The end of an input loss, and PRE's start. -/

/-- What an operation leaves of the paths: both as they were, and the events of their own armed as before. -/
structure PathsKept (s t : State) : Prop where
  path : ∀ y, pathOf t y = pathOf s y
  inrush : ∀ y, armed (.inrushtmo y) t = armed (.inrushtmo y) s

theorem PathsKept.refl (s : State) : PathsKept s s := ⟨fun _ => rfl, fun _ => rfl⟩

theorem PathsKept.trans {s t u : State} (h : PathsKept s t) (g : PathsKept t u) : PathsKept s u :=
  ⟨fun y => (g.path y).trans (h.path y), fun y => (g.inrush y).trans (h.inrush y)⟩

theorem PathsKept.of_times {s t : State} (h : t.inp = s.inp) (g : Times s t) : PathsKept s t :=
  ⟨pathOf_congr h, fun y => g.armed (by cases y <;> rfl)⟩

theorem resume_inp (s : State) : (resume s).inp = s.inp := (resume_spec s).1.same .inp (by decide)

theorem resume_step {s : State} (h : s.glob.st ≠ .run) : PathStep s (resume s) := by
  obtain ⟨l, p, e⟩ := resume_spec s
  refine ⟨(Leaves.refl _ s).then l (by decide), fun a => ?_, fun r => absurd r h⟩
  rcases e with e | e <;> exact p.anvil a (by simp [e]) (by simp [e])

theorem inputReturn_spec {s : State} (a : anvilOn s = true) : PathStep s (inputReturn s) ∧ PathsKept s (inputReturn s) ∧
    (inputReturn s).inp.inloss = false ∧ (inputReturn s).inp.gate = s.inp.gate ∧ (inputReturn s).rl = s.rl ∧ RegsKept s (inputReturn s) ∧
    (s.inp.inloss = true → isPend (inputReturn s) (16 * 46 + 14) = true) := by
  have kd : PathsKept s (disarm .inloss s) := ⟨fun _ => rfl, fun y => armed_disarm_ne (by simp) s⟩
  have sd : PathStep s (disarm .inloss s) := .of_leaves (disarm_leaves .inloss s (.refl [.clk] s))
  have ad : anvilOn (disarm .inloss s) = true := a
  have id : (disarm .inloss s).inp = s.inp := rfl
  have rd : (disarm .inloss s).rl = s.rl := rfl
  have gd : RegsKept s (disarm .inloss s) := .refl s
  unfold inputReturn
  generalize disarm .inloss s = d at kd sd ad id rd gd ⊢
  dsimp only
  split
  · rename_i h
    simp only [id, Bool.not_eq_true'] at h
    exact ⟨sd, kd, id ▸ h, by rw [id], rd, gd, by simp [h]⟩
  · generalize hu : ({ d with inp := { d.inp with inloss := false, inlossuv := false } } : State) = u
    have su : PathStep d u := by rw [← hu]; exact .of_leaves (l := [.inp]) (.of_only (by simp [only_iff]) rfl)
    have ku : PathsKept d u := by rw [← hu]; exact ⟨fun y => by cases y <;> rfl, fun _ => rfl⟩
    have iu : u.inp.inloss = false ∧ u.inp.gate = d.inp.gate ∧ u.rl = d.rl := by rw [← hu]; exact ⟨rfl, rfl, rfl⟩
    have au := su.anvil ad
    have gu : RegsKept s u := by rw [← hu]; exact gd
    clear hu
    have sw := (sd.trans su).trans (raiseW_step (16 * 46 + 14) au)
    have iw := raiseW_inp (16 * 46 + 14) au
    have kw : PathsKept s (raiseW (16 * 46 + 14) u) := (kd.trans ku).trans (.of_times iw (raiseW_times _ u au (.refl u)))
    have rw' : (raiseW (16 * 46 + 14) u).rl = u.rl := (raiseW_spec _ u au).1.same .rl (by decide)
    have pw := raiseW_pend (16 * 46 + 14) au
    have rgw := gu.trans (raiseW_spec (16 * 46 + 14) u au).1.regsKept
    generalize raiseW (16 * 46 + 14) u = w at sw iw kw rw' pw rgw ⊢
    have gw : w.inp.inloss = false ∧ w.inp.gate = s.inp.gate ∧ w.rl = s.rl := by
      rw [iw, rw']; exact ⟨iu.1, by rw [iu.2.1, id], iu.2.2.trans rd⟩
    split
    · rename_i h
      have sr := resume_step (s := w) (by simp [h.1])
      refine ⟨sw.trans sr, kw.trans (.of_times (resume_inp w) (resume_times w (.refl w))), ?_, ?_, ?_, rgw.trans (resume_regs w), fun _ => sr.pend pw⟩
      · rw [resume_inp]; exact gw.1
      · rw [resume_inp]; exact gw.2.1
      · have re : (resume w).rl = w.rl := (resume_spec w).1.same .rl (by decide)
        exact re.trans gw.2.2
    · exact ⟨sw, kw, gw.1, gw.2.1, gw.2.2, rgw, fun _ => pw⟩

theorem preStart_left (s : State) : Leaves [.clk, .inp, .rl] s (preStart s) := by
  unfold preStart
  split
  · refine Leaves.then ?_ (startRamp_leaves _ _ (.refl _ _)) (by decide)
    exact (Leaves.refl _ s).set (by simp [only_iff])
  · exact .refl _ s

theorem preStart_kept (s : State) : PathsKept s (preStart s) ∧ (preStart s).inp.inloss = s.inp.inloss := by
  unfold preStart
  split
  · refine ⟨⟨fun y => by cases y <;> rfl, fun y => ?_⟩, rfl⟩
    rw [startRamp, armed_arm_ne (by simp)]
    rfl
  · exact ⟨.refl s, rfl⟩

theorem preStart_of_gate {s : State} (h : s.inp.gate = false) : preStart s = s := by simp [preStart, h]

/-- PRE begins its first ramp. -/
theorem preStart_begins {s : State} (h : has s.rl.en 0 = true) (g : s.inp.gate = true) (d : inrushDone s = true) :
    (preStart s).inp.gate = false ∧ has (preStart s).rl.ss 0 = true := by
  unfold preStart
  rw [if_pos (by simp [h, g, d])]
  exact ⟨rfl, by simp [startRamp, arm, has, bit]⟩

/-! Closing a path. -/

/-- A path closes: under inrush control or at full drive. -/
def closeAt (x : Path) (soft : Bool) (s : State) : State :=
  let s := setPath x { pathOf s x with closed := true, full := !soft, ever := true } s
  let s := arm (sec 10) (.tripCountClear x) s
  let s := if soft then arm (ms 50) (.inrushtmo x) s else s
  let s := if preferred s = some x ∧ (pathOf s (other x)).closed then arm (us 100) (.preferHandback x) s else s
  preStart (inputReturn s)

theorem closePath_eq (x : Path) (m : Option InMeas) (s : State) : ∃ b u, closePath x m s = closeAt x b u ∧ Leaves [.free] s u := by
  cases m with
  | none => exact ⟨_, _, rfl, drawBool_leaves s (.refl _ s)⟩
  | some v => exact ⟨_, _, rfl, .refl _ s⟩

/-- What closing a path does. -/
structure Closes (x : Path) (s t : State) : Prop where
  step : PathStep s t
  self : ∃ f, pathOf t x = { pathOf s x with closed := true, full := f, ever := true }
  other : pathOf t (other x) = pathOf s (other x)
  inrush : armed (.inrushtmo (Machine.other x)) t = armed (.inrushtmo (Machine.other x)) s
  inloss : t.inp.inloss = false
  pend : s.inp.inloss = true → isPend t (16 * 46 + 14) = true
  gate : s.inp.gate = false → t.inp.gate = false ∧ t.rl = s.rl
  regs : RegsKept s t

theorem closeAt_closes {s : State} (x : Path) (soft : Bool) (a : anvilOn s = true) : Closes x s (closeAt x soft s) := by
  unfold closeAt
  generalize hb : setPath x { pathOf s x with closed := true, full := !soft, ever := true } s = b
  have sb : PathStep s b := by rw [← hb]; exact .set x _ s
  have bx : pathOf b x = { pathOf s x with closed := true, full := !soft, ever := true } := by rw [← hb]; simp
  have bo : pathOf b (other x) = pathOf s (other x) := by rw [← hb]; simp
  have br : armed (.inrushtmo (other x)) b = armed (.inrushtmo (other x)) s := by rw [← hb]; cases x <;> rfl
  have bg : RegsKept s b := by rw [← hb]; exact (setPath_left x _ s).regsKept
  have bi : b.inp.inloss = s.inp.inloss ∧ b.inp.gate = s.inp.gate ∧ b.rl = s.rl := by rw [← hb]; cases x <;> exact ⟨rfl, rfl, rfl⟩
  clear hb
  extract_lets b0 c d e
  have kc : PathStep b c ∧ RegsKept b c ∧ c.inp = b.inp ∧ c.rl = b.rl ∧ armed (.inrushtmo (other x)) c = armed (.inrushtmo (other x)) b :=
    ⟨.of_leaves (arm_leaves _ _ b (.refl [.clk] b)), rfl, rfl, rfl, armed_arm_ne (by simp) _ _⟩
  clear_value c
  have kd : PathStep c d ∧ RegsKept c d ∧ d.inp = c.inp ∧ d.rl = c.rl ∧ armed (.inrushtmo (other x)) d = armed (.inrushtmo (other x)) c := by
    unfold d
    split
    · exact ⟨.of_leaves (arm_leaves _ _ c (.refl [.clk] c)), rfl, rfl, rfl, armed_arm_ne (by simp [other_ne]) _ _⟩
    · exact ⟨.refl c, rfl, rfl, rfl, rfl⟩
  clear_value d
  have ke : PathStep d e ∧ RegsKept d e ∧ e.inp = d.inp ∧ e.rl = d.rl ∧ armed (.inrushtmo (other x)) e = armed (.inrushtmo (other x)) d := by
    unfold e
    split
    · exact ⟨.of_leaves (arm_leaves _ _ d (.refl [.clk] d)), rfl, rfl, rfl, armed_arm_ne (by simp) _ _⟩
    · exact ⟨.refl d, rfl, rfl, rfl, rfl⟩
  clear_value e
  have se : PathStep s e := ((sb.trans kc.1).trans kd.1).trans ke.1
  have ie : e.inp = b.inp := ke.2.2.1.trans (kd.2.2.1.trans kc.2.2.1)
  have re : e.rl = s.rl := ke.2.2.2.1.trans (kd.2.2.2.1.trans (kc.2.2.2.1.trans bi.2.2))
  have te : armed (.inrushtmo (other x)) e = armed (.inrushtmo (other x)) s :=
    ke.2.2.2.2.trans (kd.2.2.2.2.trans (kc.2.2.2.2.trans br))
  have ge : RegsKept s e := ((bg.trans kc.2.1).trans kd.2.1).trans ke.2.1
  obtain ⟨si, ki, il, ig, ir, irg, ip⟩ := inputReturn_spec (se.anvil a)
  obtain ⟨kp, pl⟩ := preStart_kept (inputReturn e)
  have sp : PathStep (inputReturn e) (preStart (inputReturn e)) := .of_leaves (preStart_left _)
  have path (y : Path) : pathOf (preStart (inputReturn e)) y = pathOf b y := by rw [kp.path, ki.path, pathOf_congr ie]
  refine ⟨(se.trans si).trans sp, ⟨!soft, by rw [path, bx]⟩, by rw [path, bo], by rw [kp.inrush, ki.inrush, te], pl.trans il,
    fun h => sp.pend (ip (by rw [ie, bi.1]; exact h)), fun h => ?_, (ge.trans irg).trans (preStart_left _).regsKept⟩
  have g0 : (inputReturn e).inp.gate = false := by rw [ig, ie, bi.2.1]; exact h
  rw [preStart_of_gate g0]
  exact ⟨g0, ir.trans re⟩

theorem closePath_closes {s : State} (x : Path) (m : Option InMeas) (a : anvilOn s = true) : Closes x s (closePath x m s) := by
  obtain ⟨b, u, e, l⟩ := closePath_eq x m s
  have su : PathStep s u := .of_leaves l
  have iu : u.inp = s.inp := l.same .inp (by decide)
  have c := closeAt_closes x b (su.anvil a)
  rw [e]
  refine ⟨su.trans c.step, by simpa [pathOf_congr iu] using c.self, by rw [c.other, pathOf_congr iu], ?_, c.inloss, ?_, ?_, l.regsKept.trans c.regs⟩
  · rw [c.inrush, l.times.armed (by cases x <;> rfl)]
  · rw [← iu]; exact c.pend
  · rw [← iu, ← (l.same .rl (by decide) : u.rl = s.rl)]; exact c.gate

/-- An attempt to close either closes the path or does nothing. -/
theorem tryClose_cases (x : Path) (m : Option InMeas) (s : State) :
    (tryClose x m s = s) ∨ (mayClose s x = true ∧ Closes x s (tryClose x m s)) := by
  unfold tryClose
  split
  · rename_i h
    simp only [Bool.and_eq_true] at h
    have a : anvilOn s = true := by
      have := h.1
      simp only [mayClose, Bool.and_eq_true] at this
      exact this.1.1.1.1.1
    exact .inr ⟨h.1, closePath_closes x m a⟩
  · exact .inl rfl

theorem tryClose_closes {s : State} {x : Path} (m : Option InMeas) (h : mayClose s x = true) (g : selLets s x = true) :
    Closes x s (tryClose x m s) := by
  rcases tryClose_cases x m s with e | ⟨-, c⟩
  · have a : anvilOn s = true := by
      simp only [mayClose, Bool.and_eq_true] at h
      exact h.1.1.1.1.1
    rw [tryClose, if_pos (by simp [h, g])]
    exact closePath_closes x m a
  · exact c

theorem tryClose_step (x : Path) (m : Option InMeas) (s : State) : PathStep s (tryClose x m s) := by
  rcases tryClose_cases x m s with e | ⟨-, c⟩
  · rw [e]; exact .refl s
  · exact c.step

/-- Closing one path leaves the other. -/
theorem tryClose_other (x : Path) (m : Option InMeas) (s : State) : pathOf (tryClose (other x) m s) x = pathOf s x := by
  rcases tryClose_cases (other x) m s with e | ⟨-, c⟩
  · rw [e]
  · simpa using c.other

theorem tryClose_other_inrush (x : Path) (m : Option InMeas) (s : State) :
    armed (.inrushtmo x) (tryClose (other x) m s) = armed (.inrushtmo x) s := by
  rcases tryClose_cases (other x) m s with e | ⟨-, c⟩
  · rw [e]
  · simpa using c.inrush

theorem tryClose_inloss (x : Path) (m : Option InMeas) (s : State) (h : s.inp.inloss = false) : (tryClose x m s).inp.inloss = false := by
  rcases tryClose_cases x m s with e | ⟨-, c⟩
  · rw [e]; exact h
  · exact c.inloss

theorem tryClose_gate (x : Path) (m : Option InMeas) (s : State) (h : s.inp.gate = false) :
    (tryClose x m s).inp.gate = false ∧ (tryClose x m s).rl = s.rl := by
  rcases tryClose_cases x m s with e | ⟨-, c⟩
  · rw [e]; exact ⟨h, rfl⟩
  · exact c.gate h

theorem tryClose_regs (x : Path) (m : Option InMeas) (s : State) : RegsKept s (tryClose x m s) := by
  rcases tryClose_cases x m s with e | ⟨-, c⟩
  · rw [e]; exact .refl s
  · exact c.regs

/-! What says whether a path may close. -/

theorem pathEn_congr {s t : State} (h : lv t = lv s) (x : Path) : pathEn t x = pathEn s x := by unfold pathEn; rw [h]
theorem selMode_congr {s t : State} (h : lv t = lv s) : selMode t = selMode s := by unfold selMode; rw [h]
theorem preferred_congr {s t : State} (h : lv t = lv s) : preferred t = preferred s := by unfold preferred; rw [selMode_congr h]
theorem inretry_congr {s t : State} (h : lv t = lv s) : inretry t = inretry s := by unfold inretry; rw [h]

theorem selLets_congr {s t : State} (h : lv t = lv s) {x : Path} (c : (pathOf t (other x)).closed = (pathOf s (other x)).closed)
    (f : (pathOf t (other x)).full = (pathOf s (other x)).full) : selLets t x = selLets s x := by
  simp [selLets, preferred_congr h, c, f]

theorem yields_congr {s t : State} (h : lv t = lv s) (hp : t.pending = s.pending) {x : Path}
    (c : (pathOf t (other x)).closed = (pathOf s (other x)).closed) (v : ∀ y, (pathOf t y).vin = (pathOf s y).vin) : yields t x = yields s x := by
  simp [yields, preferred_congr h, pathEn_congr h, hp, c, v]

/-- The path that the state shows may close: it is enabled, qualified and open, not locked out, and waits for no guard. -/
theorem mayClose_of {s t : State} {x : Path} (a : anvilOn t = true) (h : lv t = lv s) (en : pathEn s x = true) (q : (pathOf t x).qual = true)
    (c : (pathOf t x).closed = false) (f : (pathOf t x).flt.getLsbD 6 = false) (w : (pathOf t x).wait = 0) : mayClose t x = true := by
  simp only [mayClose, a, pathEn_congr h, en, q, c, f, w]
  rfl

/-! Opening a path. -/

/-- A path just opened, before the other one may close. -/
def opened (x : Path) (why : OpenWhy) (s : State) : State :=
  let s := setPath x { pathOf s x with closed := false, full := false, why := why, openedAt := some s.clk.now, counted := false
                                       acc := slowNow s x, accAt := s.clk.now, sense := 0 } s
  let s := disarm (.inrushtmo x) (disarm (.tripCountClear x) (disarm (.preferHandback x) (disarm (.slowa x none) s)))
  { s with inp := { s.inp with nonUv := false } }

theorem openPath_eq {s : State} {x : Path} (why : OpenWhy) (m : Option InMeas) (h : (pathOf s x).closed = true) :
    openPath x why m s = watchLoss (if why = .gaveWay then opened x why s else tryClose (other x) m (opened x why s)) := by
  unfold openPath
  dsimp only
  rw [if_neg (by simp [h])]
  rfl

theorem openPath_open {s : State} {x : Path} (why : OpenWhy) (m : Option InMeas) (h : (pathOf s x).closed = false) :
    openPath x why m s = s := by
  unfold openPath
  dsimp only
  rw [if_pos (by simp [h])]

theorem opened_only (x : Path) (why : OpenWhy) (s : State) : Only [.inp, .clk] s (opened x why s) := by
  cases x <;> simp [opened, only_iff]

theorem opened_left (x : Path) (why : OpenWhy) (s : State) : Leaves [.clk, .inp] s (opened x why s) :=
  .of_only ((opened_only x why s).weaken (by decide)) (by cases x <;> rfl)

theorem opened_self (x : Path) (why : OpenWhy) (s : State) : pathOf (opened x why s) x =
    { pathOf s x with closed := false, full := false, why := why, openedAt := some s.clk.now, counted := false, acc := slowNow s x,
                      accAt := s.clk.now, sense := 0 } := by cases x <;> rfl

theorem opened_other (x : Path) (why : OpenWhy) (s : State) : pathOf (opened x why s) (other x) = pathOf s (other x) := by
  cases x <;> rfl

theorem watchLoss_only (s : State) : Only [.clk] s (watchLoss s) := by
  unfold watchLoss
  split
  · exact Only.refl _ s
  · simp [only_iff]

theorem watchLoss_step (s : State) : PathStep s (watchLoss s) := .of_leaves (watchLoss_leaves s (.refl [.clk] s))
theorem watchLoss_inp (s : State) : (watchLoss s).inp = s.inp := watchLoss_only s .inp (by decide)

theorem openPath_step (x : Path) (why : OpenWhy) (m : Option InMeas) (s : State) : PathStep s (openPath x why m s) := by
  by_cases h : (pathOf s x).closed = true
  · rw [openPath_eq why m h]
    refine PathStep.trans ?_ (watchLoss_step _)
    split
    · exact .of_leaves (opened_left x why s)
    · exact (PathStep.of_leaves (opened_left x why s)).trans (tryClose_step _ m _)
  · rw [openPath_open why m (by simpa using h)]
    exact .refl s

theorem openPath_regs (x : Path) (why : OpenWhy) (m : Option InMeas) (s : State) : RegsKept s (openPath x why m s) := by
  by_cases h : (pathOf s x).closed = true
  · rw [openPath_eq why m h]
    refine RegsKept.trans ?_ (watchLoss_leaves _ (.refl [.clk] _)).regsKept
    split
    · exact (opened_left x why s).regsKept
    · exact (opened_left x why s).regsKept.trans (tryClose_regs _ m _)
  · rw [openPath_open why m (by simpa using h)]
    exact .refl s

theorem openPath_self {s : State} {x : Path} (why : OpenWhy) (m : Option InMeas) (h : (pathOf s x).closed = true) :
    pathOf (openPath x why m s) x = { pathOf s x with
      closed := false, full := false, why := why, openedAt := some s.clk.now, counted := false, acc := slowNow s x, accAt := s.clk.now,
      sense := 0 } := by
  rw [openPath_eq why m h, pathOf_congr (watchLoss_inp _), ← opened_self]
  split
  · rfl
  · rw [tryClose_other]

/-- Opening leaves a path open, with its flags, waits, trips and qualification. -/
theorem openPath_flags (x : Path) (why : OpenWhy) (m : Option InMeas) (s : State) :
    (pathOf (openPath x why m s) x).closed = false ∧ (pathOf (openPath x why m s) x).flt = (pathOf s x).flt ∧
    (pathOf (openPath x why m s) x).wait = (pathOf s x).wait ∧ (pathOf (openPath x why m s) x).qual = (pathOf s x).qual ∧
    (pathOf (openPath x why m s) x).trips = (pathOf s x).trips := by
  by_cases h : (pathOf s x).closed = true
  · rw [openPath_self why m h]
    exact ⟨rfl, rfl, rfl, rfl, rfl⟩
  · rw [openPath_open why m (by simpa using h)]
    exact ⟨by simpa using h, rfl, rfl, rfl, rfl⟩

end Sys2Proof
end

section
/-! The closing of an input path. -/

namespace Sys2Proof

open Sys2Proof.Machine

theorem guards_closed {p q : PathSt} (h : guards p = guards q) : p.closed = q.closed ∧ p.full = q.full :=
  ⟨congrArg (·.closed) h, congrArg (·.full) h⟩

/-- A path as it qualifies: measured, and no longer waiting for its under-voltage. -/
def qualified (x : Path) (m : Option InMeas) (s : State) : State :=
  setPath x { pathOf (takeMeas m s) x with qual := true, wait := setBit (pathOf (takeMeas m s) x).wait 4 false } (takeMeas m s)

theorem qualified_step (x : Path) (m : Option InMeas) (s : State) : PathStep s (qualified x m s) :=
  (takeMeas_step m s).trans (.set x _ _)

theorem qualified_lv (x : Path) (m : Option InMeas) (s : State) : lv (qualified x m s) = lv s :=
  ((setPath_left x _ _).regsKept.lv).trans (takeMeas_lv m s)

theorem qualified_self (x : Path) (m : Option InMeas) (s : State) : (pathOf (qualified x m s) x).qual = true ∧
    (pathOf (qualified x m s) x).closed = (pathOf s x).closed ∧ (pathOf (qualified x m s) x).flt = (pathOf s x).flt ∧
    (pathOf (qualified x m s) x).wait = setBit (pathOf s x).wait 4 false := by
  have h := takeMeas_guards m x s
  have hc : (pathOf (takeMeas m s) x).closed = (pathOf s x).closed := congrArg (·.closed) h
  have hf : (pathOf (takeMeas m s) x).flt = (pathOf s x).flt := congrArg (·.flt) h
  have hw : (pathOf (takeMeas m s) x).wait = (pathOf s x).wait := congrArg (·.wait) h
  simp [qualified, hc, hf, hw]

theorem qualified_other (x : Path) (m : Option InMeas) (s : State) :
    guards (pathOf (qualified x m s) (other x)) = guards (pathOf s (other x)) := by
  rw [qualified, pathOf_setPath_other, takeMeas_guards]

theorem qualified_yields (x : Path) (m : Option InMeas) (s : State) : yields (qualified x m s) x = yields (takeMeas m s) x := by
  refine yields_congr ((setPath_left x _ _).regsKept.lv) (setPath_pending x _ _) (congrArg (·.closed) (pathOf_setPath_other x _ _)) fun y => ?_
  rcases path_cases x y with rfl | rfl <;> simp

theorem exec_pathQualify {s : State} {x : Path} (m : Option InMeas) (a : anvilOn s = true) (en : pathEn s x = true) :
    exec (.pathQualify x m) s = .next (startCheck (idleWatch false (if yields (qualified x m s) x then qualified x m s
      else tryClose (other x) m (tryClose x m (qualified x m s))))) := by
  show execPathQualify x m s = _
  simp only [execPathQualify, a, en, Bool.not_true, Bool.or_self, Bool.false_eq_true, if_false]
  rfl

/-- What follows a qualification changes no path. -/
theorem qualify_tail (u : State) : PathStep u (startCheck (idleWatch false u)) ∧ (startCheck (idleWatch false u)).inp = u.inp :=
  ⟨(idleWatch_step false u).trans (startCheck_step _), (startCheck_inp _).trans (idleWatch_inp false u)⟩

theorem pathQualify_qual (s : State) (x : Path) (m : Option InMeas) (a : anvilOn s = true) (en : pathEn s x = true) :
    Ends (.pathQualify x m) s (fun t => (pathOf t x).qual = true ∧
      (s.glob.st = .run → Only ([.inp, .rl, .free] ++ raiseParts) s t)) := by
  refine .of_eq (exec_pathQualify m a en) ?_
  have hq := (qualified_self x m s).1
  have hs := qualified_step x m s
  suffices h : ∀ u, PathStep s u → (pathOf u x).qual = true → (pathOf (startCheck (idleWatch false u)) x).qual = true ∧
      (s.glob.st = .run → Only ([.inp, .rl, .free] ++ raiseParts) s (startCheck (idleWatch false u))) by
    split
    · exact h _ hs hq
    · refine h _ ((hs.trans (tryClose_step x m _)).trans (tryClose_step _ m _)) ?_
      rw [tryClose_other]
      rcases tryClose_cases x m (qualified x m s) with e | ⟨-, c⟩
      · rw [e]; exact hq
      · obtain ⟨f, e⟩ := c.self
        rw [e]; exact hq
  intro u hu q
  obtain ⟨k, i⟩ := qualify_tail u
  exact ⟨by rw [pathOf_congr i]; exact q, (hu.trans k).only⟩

theorem pathQualify_closes (s : State) (x : Path) (m : Option InMeas) (a : anvilOn s = true) (en : pathEn s x = true)
    (hc : (pathOf s x).closed = false) (hl : (pathOf s x).flt.getLsbD 6 = false) (hw : setBit (pathOf s x).wait 4 false = 0)
    (sel : selLets s x = true) (hy : yields (takeMeas m s) x = false) : Ends (.pathQualify x m) s (fun t =>
      (pathOf t x).qual = true ∧ (pathOf t x).closed = true ∧ (pathOf t x).ever = true ∧ t.inp.inloss = false ∧
      (s.inp.inloss = true → isPend t (16 * 46 + 14) = true)) := by
  refine .of_eq (exec_pathQualify m a en) ?_
  rw [qualified_yields, hy, if_neg (by simp)]
  obtain ⟨qq, qc, qf, qw⟩ := qualified_self x m s
  have hs := qualified_step x m s
  have lq := qualified_lv x m s
  have ho := guards_closed (qualified_other x m s)
  have il : (qualified x m s).inp.inloss = s.inp.inloss := (setPath_inloss x _ _).trans (takeMeas_rest m s).1
  generalize qualified x m s = u at qq qc qf qw hs lq ho il ⊢
  have c := tryClose_closes m (mayClose_of (hs.anvil a) lq en qq (qc.trans hc) (by rw [qf]; exact hl) (qw.trans hw))
    ((selLets_congr lq ho.1 ho.2).trans sel)
  obtain ⟨k, i⟩ := qualify_tail (tryClose (other x) m (tryClose x m u))
  obtain ⟨f, e⟩ := c.self
  have p : pathOf (startCheck (idleWatch false (tryClose (other x) m (tryClose x m u)))) x =
      { pathOf u x with closed := true, full := f, ever := true } := by rw [pathOf_congr i, tryClose_other, e]
  rw [p]
  refine ⟨qq, rfl, rfl, ?_, fun h => k.pend ((tryClose_step _ m _).pend (c.pend (il.trans h)))⟩
  rw [i]
  exact tryClose_inloss _ _ _ c.inloss

theorem pathQualify_waits (s : State) (x : Path) (m : Option InMeas) (a : anvilOn s = true) (en : pathEn s x = true)
    (hc : (pathOf s x).closed = false) (hy : yields (takeMeas m s) x = true) :
    Ends (.pathQualify x m) s (fun t => (pathOf t x).qual = true ∧ (pathOf t x).closed = false) := by
  refine .of_eq (exec_pathQualify m a en) ?_
  rw [qualified_yields, hy, if_pos rfl]
  obtain ⟨qq, qc, -, -⟩ := qualified_self x m s
  rw [pathOf_congr (qualify_tail _).2]
  exact ⟨qq, qc.trans hc⟩

/-- The inrush of a path has ended: it is at full drive, and its time limit is gone. -/
theorem inrushComplete_full (s : State) (x : Path) (m : Option InMeas) (hc : (pathOf s x).closed = true) (hf : (pathOf s x).full = false) :
    Ends (.inrushComplete x m) s (fun t => (pathOf t x).full = true ∧ (pathOf t x).closed = true ∧ armed (.inrushtmo x) t = false ∧
      (has s.rl.en 0 = true → s.inp.gate = true → t.inp.gate = false ∧ has t.rl.ss 0 = true) ∧
      (s.glob.st = .run → Only ([.inp, .rl, .free] ++ raiseParts) s t)) := by
  have gc := guards_closed (takeMeas_guards m x s)
  have e : exec (.inrushComplete x m) s = .next (tryClose (other x) m (preStart
      (setPath x { pathOf (takeMeas m s) x with full := true } (disarm (.inrushtmo x) (takeMeas m s))))) := by
    show execInrushComplete x m s = _
    have h (v : State) : pathOf (disarm (.inrushtmo x) v) x = pathOf v x := by cases x <;> rfl
    unfold execInrushComplete
    dsimp only
    rw [h, if_pos (by simp [gc.1, gc.2, hc, hf])]
  refine .of_eq e ?_
  generalize hu : setPath x { pathOf (takeMeas m s) x with full := true } (disarm (.inrushtmo x) (takeMeas m s)) = u
  have su : PathStep s u := by
    rw [← hu]
    exact ((takeMeas_step m s).trans (.of_leaves (disarm_leaves _ _ (.refl [.clk] _)))).trans (.set x _ _)
  have pu : (pathOf u x).full = true ∧ (pathOf u x).closed = true := by rw [← hu]; simp [gc.1, hc]
  have au : armed (.inrushtmo x) u = false := by
    rw [← hu]
    have h := armed_disarm (.inrushtmo x) (takeMeas m s)
    cases x <;> exact h
  have gu : u.inp.gate = s.inp.gate := by rw [← hu, setPath_gate]; exact (takeMeas_rest m s).2
  have ru : u.rl = s.rl := by
    rw [← hu, setPath_rl]
    exact (takeMeas_left m s).same .rl (by decide)
  clear hu e
  obtain ⟨kp, -⟩ := preStart_kept u
  have sp : PathStep u (preStart u) := .of_leaves (preStart_left u)
  rw [tryClose_other, kp.path, tryClose_other_inrush, kp.inrush]
  refine ⟨pu.1, pu.2, au, fun h g => ?_, ((su.trans sp).trans (tryClose_step _ m _)).only⟩
  have d : inrushDone u = true := by cases x <;> simp_all [inrushDone, pathOf]
  have b := preStart_begins (by rw [ru]; exact h) (gu.trans g) d
  obtain ⟨k1, k2⟩ := tryClose_gate (other x) m _ b.1
  exact ⟨k1, by rw [k2]; exact b.2⟩

theorem preferHandback_opens (s : State) (x : Path) (hp : preferred s = some x) (hc : (pathOf s x).closed = true)
    (ho : (pathOf s (other x)).closed = true) : Ends (.preferHandback x) s (fun t =>
      (pathOf t (other x)).closed = false ∧ (pathOf t (other x)).why = .gaveWay ∧ pathOf t x = pathOf s x ∧ Only [.inp, .clk] s t) := by
  have pd (y : Path) : pathOf (disarm (.preferHandback x) s) y = pathOf s y := by cases y <;> rfl
  have e : exec (.preferHandback x) s = .next (watchLoss (opened (other x) .gaveWay (disarm (.preferHandback x) s))) := by
    show execPreferHandback x s = _
    have h : preferred (disarm (.preferHandback x) s) = some x := hp
    simp only [execPreferHandback, h, pd, hc, true_and, if_true]
    rw [openPath_eq _ _ (by rw [pd]; exact ho), if_pos rfl]
  refine .of_eq e ⟨?_, ?_, ?_, ?_⟩
  · rw [pathOf_congr (watchLoss_inp _), opened_self]
  · rw [pathOf_congr (watchLoss_inp _), opened_self]
  · have h := opened_other (other x) .gaveWay (disarm (.preferHandback x) s)
    rw [other_other] at h
    rw [pathOf_congr (watchLoss_inp _), h, pd]
  · have h0 : Only [.inp, .clk] s (disarm (.preferHandback x) s) := by simp [only_iff]
    exact (h0.trans (opened_only _ _ _)).trans ((watchLoss_only _).weaken (by decide))

/-! Conduction. -/

theorem conduction_begins {s : State} {x : Path} (a : anvilOn s = true) (r : s.glob.st = .run) (hc : (pathOf s x).cond = false)
    (near : Bool) (hn : near = match (pathOf s (other x)).condOff with | some t => decide (s.clk.now ≤ t + ms 1) | none => false) :
    exec (.pathConductionChange x true) s = .next (raiseIf ((pathOf s (other x)).cond || near) (16 * 46 + 12)
      (setPath x { pathOf s x with cond := true } s)) := by
  show execPathConductionChange x true s = _
  have h (c : Bool) : (raiseIf c (16 * 46 + 12) (setPath x { pathOf s x with cond := true } s)).glob.st = .run := by
    rw [raiseIf_glob, setPath_glob]; exact r
  simp only [execPathConductionChange, a, hc, hn, Bool.not_true, Bool.false_or, Bool.false_eq_true, decide_false, if_false]
  exact congrArg Host.Outcome.next (wakeCheck_run (h _))

theorem conduction_switchover {s : State} {x : Path} (a : anvilOn s = true) (r : s.glob.st = .run) (hc : (pathOf s x).cond = false)
    (h : (pathOf s (other x)).cond = true ∨ ∃ k, (pathOf s (other x)).condOff = some k ∧ s.clk.now ≤ k + ms 1) :
    Yields (.pathConductionChange x true) s (setPath x { pathOf s x with cond := true } s) [16 * 46 + 12] := by
  have e := conduction_begins a r hc _ rfl
  refine yields_raise ((PathStep.set x _ s).anvil a) (e.trans ?_)
  rw [raiseIf, if_pos]
  rcases h with h | ⟨k, hk, hn⟩
  · simp [h]
  · simp [hk, hn]

theorem conduction_quiet {s : State} {x : Path} (a : anvilOn s = true) (r : s.glob.st = .run) (hc : (pathOf s x).cond = false)
    (ho : (pathOf s (other x)).cond = false) (hn : ∀ k, (pathOf s (other x)).condOff = some k → k + ms 1 < s.clk.now) :
    exec (.pathConductionChange x true) s = .next (setPath x { pathOf s x with cond := true } s) := by
  rw [conduction_begins a r hc _ rfl, raiseIf, if_neg]
  cases hk : (pathOf s (other x)).condOff with
  | none => simp [ho]
  | some k => simpa [ho] using hn k hk

theorem conduction_ends {s : State} {x : Path} (a : anvilOn s = true) (hc : (pathOf s x).cond = true) :
    exec (.pathConductionChange x false) s = .next (setPath x { pathOf s x with cond := false, condOff := some s.clk.now } s) := by
  show execPathConductionChange x false s = _
  simp [execPathConductionChange, a, hc]

/-- Settles O13: a path closes through the conditions of R62 and R63, which the lemmas on `tryClose` give. -/
theorem pathsClose : Obligations.PathsClose := by
  unfold Obligations.PathsClose
  refine ⟨pathQualify_qual, pathQualify_closes, pathQualify_waits, inrushComplete_full, preferHandback_opens, ?_, ?_, ?_, ?_⟩
  · exact fun s x a r hc ho => conduction_switchover a r hc (.inl ho)
  · exact fun s x k a r hc _ hk hn => conduction_switchover a r hc (.inr ⟨k, hk, hn⟩)
  · exact fun s x a r hc ho hn => conduction_quiet a r hc ho hn
  · exact fun s x a hc => conduction_ends a hc

end Sys2Proof
end

section
/-! The guards of an input path, and input loss. -/

namespace Sys2Proof

open Sys2Proof.Machine

theorem nonUv_left (s : State) : Leaves [.inp] s { s with inp := { s.inp with nonUv := true } } := .of_only (by simp [only_iff]) rfl

/-- A guard has acted: flag, opening and event, before a trip counts. -/
def tripped (x : Path) (bitNo src : Nat) (why : OpenWhy) (m : Option InMeas) (s : State) : State :=
  let p := pathOf s x
  let s := openPath x why m (setPath x { p with flt := setBit p.flt bitNo true, wait := setBit p.wait bitNo true } s)
  raiseW src (if bitNo ≠ 4 ∧ !p.closed then { s with inp := { s.inp with nonUv := true } } else s)

theorem guardTrip_eq (x : Path) (bitNo src : Nat) (counted : Bool) (why : OpenWhy) (m : Option InMeas) (s : State) :
    guardTrip x bitNo src counted why m s =
      wakeCheck (if counted then countTrip x (tripped x bitNo src why m s) else tripped x bitNo src why m s) := rfl

/-- What a guard does to its path, apart from a trip. -/
structure Trips (x : Path) (bitNo src : Nat) (s t : State) : Prop where
  step : PathStep s t
  regs : RegsKept s t
  closed : (pathOf t x).closed = false
  flt : (pathOf t x).flt = setBit (pathOf s x).flt bitNo true
  qual : (pathOf t x).qual = (pathOf s x).qual
  trips : (pathOf t x).trips = (pathOf s x).trips
  counted : (pathOf s x).closed = true → (pathOf t x).counted = false
  pend : isPend t src = true

theorem tripped_trips {s : State} (x : Path) (bitNo src : Nat) (why : OpenWhy) (m : Option InMeas) (a : anvilOn s = true) :
    Trips x bitNo src s (tripped x bitNo src why m s) := by
  unfold tripped
  dsimp only
  generalize hf : setPath x { pathOf s x with flt := setBit (pathOf s x).flt bitNo true, wait := setBit (pathOf s x).wait bitNo true } s = f
  have lf : Leaves [.inp] s f := by rw [← hf]; exact setPath_left x _ s
  have pf : pathOf f x = { pathOf s x with flt := setBit (pathOf s x).flt bitNo true, wait := setBit (pathOf s x).wait bitNo true } := by
    rw [← hf, pathOf_setPath_same]
  have so := openPath_step x why m f
  have ro := openPath_regs x why m f
  obtain ⟨oc, of, -, oq, ot⟩ := openPath_flags x why m f
  have on (h : (pathOf s x).closed = true) : (pathOf (openPath x why m f) x).counted = false := by
    rw [openPath_self why m (by rw [pf]; exact h)]
  generalize openPath x why m f = o at so ro oc of oq ot on ⊢
  rw [pf] at of oq ot
  have sfo : PathStep s o := (PathStep.of_leaves lf).trans so
  have rfo : RegsKept s o := lf.regsKept.trans ro
  suffices h : ∀ u, Leaves [.inp] o u → pathOf u x = pathOf o x → Trips x bitNo src s (raiseW src u) by
    split
    · exact h _ (nonUv_left o) (by cases x <;> rfl)
    · exact h _ (.refl _ o) rfl
  intro u lu pu
  have su := sfo.trans (.of_leaves lu)
  have au := su.anvil a
  have pw : pathOf (raiseW src u) x = pathOf o x := by rw [pathOf_congr (raiseW_inp src au), pu]
  exact ⟨su.trans (raiseW_step src au), (rfo.trans lu.regsKept).trans (raiseW_spec src u au).1.regsKept, by rw [pw]; exact oc,
    by rw [pw]; exact of, by rw [pw]; exact oq, by rw [pw]; exact ot, fun h => by rw [pw]; exact on h, raiseW_pend src au⟩

theorem Trips.woken {x : Path} {bitNo src : Nat} {s t : State} (h : Trips x bitNo src s t) (a : anvilOn s = true) :
    Trips x bitNo src s (wakeCheck t) := by
  have at' := h.step.anvil a
  have p := pathOf_congr (wakeCheck_inp at') x
  exact ⟨h.step.trans (wakeCheck_step at'), h.regs.trans (wakeCheck_spec t at').1.regsKept, by rw [p]; exact h.closed,
    by rw [p]; exact h.flt, by rw [p]; exact h.qual, by rw [p]; exact h.trips, fun c => by rw [p]; exact h.counted c,
    (wakeCheck_step at').pend h.pend⟩

theorem guardTrip_uncounted {s : State} (x : Path) (bitNo src : Nat) (why : OpenWhy) (m : Option InMeas) (a : anvilOn s = true) :
    Trips x bitNo src s (guardTrip x bitNo src false why m s) := by
  rw [guardTrip_eq, if_neg (by simp)]
  exact (tripped_trips x bitNo src why m a).woken a

/-! Guards that are not counted. -/

/-- The state in which OV or UV acts: measured, the path no longer qualified. -/
def unqualified (x : Path) (m : Option InMeas) (s : State) : State :=
  setPath x { pathOf (takeMeas m s) x with qual := false } (takeMeas m s)

theorem unqualified_step (x : Path) (m : Option InMeas) (s : State) : PathStep s (unqualified x m s) :=
  (takeMeas_step m s).trans (.set x _ _)

theorem unqualified_self (x : Path) (m : Option InMeas) (s : State) : (pathOf (unqualified x m s) x).qual = false ∧
    (pathOf (unqualified x m s) x).flt = (pathOf s x).flt ∧ (pathOf (unqualified x m s) x).trips = (pathOf s x).trips := by
  have h := takeMeas_guards m x s
  have hf : (pathOf (takeMeas m s) x).flt = (pathOf s x).flt := congrArg (·.flt) h
  have ht : (pathOf (takeMeas m s) x).trips = (pathOf s x).trips := congrArg (·.trips) h
  simp [unqualified, hf, ht]

/-- OV or UV: the path is open and no longer qualified. -/
theorem voltage_guard {s : State} {c : Instr} {x : Path} {m : Option InMeas} {bitNo src : Nat} {why : OpenWhy} (a : anvilOn s = true)
    (e : exec c s = .next (idleWatch false (guardTrip x bitNo src false why m (unqualified x m s)))) : Ends c s (fun t =>
      (pathOf t x).closed = false ∧ (pathOf t x).flt = setBit (pathOf s x).flt bitNo true ∧ (pathOf t x).qual = false ∧
      (pathOf t x).trips = (pathOf s x).trips ∧ isPend t src = true ∧
      (s.glob.st = .run → Only ([.inp, .rl, .free] ++ raiseParts) s t)) := by
  refine .of_eq e ?_
  have su := unqualified_step x m s
  obtain ⟨uq, uf, ut⟩ := unqualified_self x m s
  have g := guardTrip_uncounted x bitNo src why m (su.anvil a)
  rw [pathOf_congr (idleWatch_inp false _)]
  exact ⟨g.closed, by rw [g.flt, uf], by rw [g.qual, uq], by rw [g.trips, ut], (idleWatch_step false _).pend g.pend,
    ((su.trans g.step).trans (idleWatch_step false _)).only⟩

theorem exec_ova {s : State} (x : Path) (m : Option InMeas) (a : anvilOn s = true) :
    exec (.ova x m) s = .next (idleWatch false (guardTrip x 0 (16 * 46 + px x) false .guard m (unqualified x m s))) := by
  show execOva x m s = _
  simp only [execOva, a, Bool.not_true, Bool.false_eq_true, if_false]
  rfl

theorem exec_uva {s : State} (x : Path) (m : Option InMeas) (a : anvilOn s = true) :
    exec (.uva x m) s = .next (idleWatch false (guardTrip x 4 (16 * 46 + 8 + px x) false .uv m (unqualified x m s))) := by
  show execUva x m s = _
  simp only [execUva, a, Bool.not_true, Bool.false_eq_true, if_false]
  rfl

theorem guardActs_closed {s : State} {x : Path} (m : Option InMeas) (a : anvilOn s = true) (h : (pathOf s x).closed = true) :
    guardActs s x = true ∧ guardActs (takeMeas m s) x = true := by
  have hc := (guards_closed (takeMeas_guards m x s)).1.trans h
  simp [guardActs, a, (takeMeas_step m s).anvil a, hc, h]

theorem reverse_guard (s : State) (x : Path) (m : Option InMeas) (a : anvilOn s = true) (h : (pathOf s x).closed = true) :
    Ends (.reva x m) s (fun t => (pathOf t x).closed = false ∧ (pathOf t x).flt = setBit (pathOf s x).flt 1 true ∧
      (pathOf t x).qual = (pathOf s x).qual ∧ (pathOf t x).trips = (pathOf s x).trips ∧ isPend t (16 * 46 + 2 + px x) = true ∧
      (s.glob.st = .run → Only ([.inp, .rl, .free] ++ raiseParts) s t)) := by
  have e : exec (.reva x m) s = .next (guardTrip x 1 (16 * 46 + 2 + px x) false .guard m (takeMeas m s)) := by
    show execReva x m s = _
    rw [execReva, if_pos (guardActs_closed m a h).1]
  refine .of_eq e ?_
  have sm := takeMeas_step m s
  have gm := takeMeas_guards m x s
  have g := guardTrip_uncounted x 1 (16 * 46 + 2 + px x) .guard m (sm.anvil a)
  have hf : (pathOf (takeMeas m s) x).flt = (pathOf s x).flt := congrArg (·.flt) gm
  have ht : (pathOf (takeMeas m s) x).trips = (pathOf s x).trips := congrArg (·.trips) gm
  have hq : (pathOf (takeMeas m s) x).qual = (pathOf s x).qual := congrArg (·.qual) gm
  exact ⟨g.closed, by rw [g.flt, hf], by rw [g.qual, hq], by rw [g.trips, ht], g.pend, (sm.trans g.step).only⟩

/-- The state in which a guard's condition has cleared. -/
def cleared (x : Path) (m : Option InMeas) (i : Nat) (s : State) : State :=
  setPath x { pathOf (takeMeas m s) x with wait := setBit (pathOf (takeMeas m s) x).wait i false } (takeMeas m s)

theorem guard_clears (s : State) (x : Path) (m : Option InMeas) (c : Instr) (i : Nat)
    (h : (c = .inputOvClear x m ∧ i = 0) ∨ (c = .reverseReclose x m ∧ i = 1)) (a : anvilOn s = true) (en : pathEn s x = true)
    (q : (pathOf s x).qual = true) (hc : (pathOf s x).closed = false) (hl : (pathOf s x).flt.getLsbD 6 = false)
    (hw : setBit (pathOf s x).wait i false = 0) (sel : selLets s x = true) : Ends c s (fun t =>
      (pathOf t x).closed = true ∧ t.inp.inloss = false ∧ (s.glob.st = .run → Only ([.inp, .rl, .free] ++ raiseParts) s t)) := by
  have e : exec c s = .next (tryClose x m (cleared x m i s)) := by rcases h with ⟨rfl, rfl⟩ | ⟨rfl, rfl⟩ <;> rfl
  refine .of_eq e ?_
  have gm := takeMeas_guards m x s
  have go := takeMeas_guards m (other x) s
  have su : PathStep s (cleared x m i s) := (takeMeas_step m s).trans (.set x _ _)
  have lu : lv (cleared x m i s) = lv s := ((setPath_left x _ _).regsKept.lv).trans (takeMeas_lv m s)
  have pu : pathOf (cleared x m i s) x = { pathOf (takeMeas m s) x with wait := setBit (pathOf (takeMeas m s) x).wait i false } := by
    simp [cleared]
  have ou : pathOf (cleared x m i s) (other x) = pathOf (takeMeas m s) (other x) := by simp [cleared]
  have hw' : (pathOf (takeMeas m s) x).wait = (pathOf s x).wait := congrArg (·.wait) gm
  have hf' : (pathOf (takeMeas m s) x).flt = (pathOf s x).flt := congrArg (·.flt) gm
  have hq' : (pathOf (takeMeas m s) x).qual = (pathOf s x).qual := congrArg (·.qual) gm
  have k := tryClose_closes m (mayClose_of (su.anvil a) lu en (by rw [pu]; exact hq'.trans q) (by rw [pu]; exact (guards_closed gm).1.trans hc)
    (by rw [pu]; simp only [hf']; exact hl) (by rw [pu]; simp only [hw']; exact hw))
    ((selLets_congr lu (by rw [ou]; exact (guards_closed go).1) (by rw [ou]; exact (guards_closed go).2)).trans sel)
  obtain ⟨f, hf⟩ := k.self
  exact ⟨by rw [hf], k.inloss, (su.trans k.step).only⟩

/-! Guards that are counted. -/

/-- A trip that counts: one more, and the lockout past INRETRY. -/
theorem countTrip_counts {s : State} {x : Path} (a : anvilOn s = true) (hc : (pathOf s x).counted = false)
    (hl : (pathOf s x).flt.getLsbD 6 = false) : PathStep s (countTrip x s) ∧ RegsKept s (countTrip x s) ∧
    (pathOf (countTrip x s) x).closed = (pathOf s x).closed ∧ (pathOf (countTrip x s) x).trips = (pathOf s x).trips + 1 ∧
    (∀ i, i < 6 → (pathOf (countTrip x s) x).flt.getLsbD i = (pathOf s x).flt.getLsbD i) ∧
    (pathOf (countTrip x s) x).flt.getLsbD 6 = decide (inretry s ≤ (pathOf s x).trips) ∧
    (inretry s ≤ (pathOf s x).trips → isPend (countTrip x s) (16 * 46 + 10 + px x) = true) := by
  unfold countTrip
  dsimp only
  rw [if_neg (by simp [hc])]
  generalize hu : setPath x { pathOf s x with trips := (pathOf s x).trips + 1, counted := true } s = u
  have lu : Leaves [.inp] s u := by rw [← hu]; exact setPath_left x _ s
  have pu : pathOf u x = { pathOf s x with trips := (pathOf s x).trips + 1, counted := true } := by rw [← hu, pathOf_setPath_same]
  clear hu
  rw [inretry_congr lu.regsKept.lv, hl]
  by_cases h : inretry s ≤ (pathOf s x).trips
  · rw [if_pos ⟨by omega, rfl⟩]
    generalize hw : setPath x { pathOf u x with flt := setBit (pathOf u x).flt 6 true } u = w
    have lw : Leaves [.inp] u w := by rw [← hw]; exact setPath_left x _ u
    have sw : PathStep s w := (PathStep.of_leaves lu).trans (.of_leaves lw)
    have aw := sw.anvil a
    have pw : pathOf (raiseW (16 * 46 + 10 + px x) w) x = { pathOf u x with flt := setBit (pathOf u x).flt 6 true } := by
      rw [pathOf_congr (raiseW_inp _ aw), ← hw, pathOf_setPath_same]
    refine ⟨sw.trans (raiseW_step _ aw), (lu.regsKept.trans lw.regsKept).trans (raiseW_spec _ w aw).1.regsKept, by rw [pw, pu], by rw [pw, pu],
      fun i hi => ?_, ?_, fun _ => raiseW_pend _ aw⟩
    · rw [pw, pu, getLsbD_setBit_other (by omega)]
    · rw [pw, pu, getLsbD_setBit_self (by omega)]
      simp [h]
  · rw [if_neg (by omega)]
    refine ⟨.of_leaves lu, lu.regsKept, by rw [pu], by rw [pu], fun i _ => by rw [pu], by rw [pu]; exact hl.trans (by simp [h]), fun g => absurd g h⟩

/-- What a counted guard does to a closed path that is not locked out. -/
structure Counts (x : Path) (i src : Nat) (s t : State) : Prop where
  step : PathStep s t
  regs : RegsKept s t
  closed : (pathOf t x).closed = false
  flt : (pathOf t x).flt.getLsbD i = true
  trips : (pathOf t x).trips = (pathOf s x).trips + 1
  lock : (pathOf t x).flt.getLsbD 6 = decide (inretry s ≤ (pathOf s x).trips)
  pend : isPend t src = true
  locked : inretry s ≤ (pathOf s x).trips → isPend t (16 * 46 + 10 + px x) = true

theorem guardTrip_counted {s : State} (x : Path) {i : Nat} (src : Nat) (why : OpenWhy) (m : Option InMeas) (a : anvilOn s = true)
    (hi : i < 6) (hc : (pathOf s x).closed = true) (hl : (pathOf s x).flt.getLsbD 6 = false) :
    Counts x i src s (guardTrip x i src true why m s) := by
  rw [guardTrip_eq, if_pos rfl]
  have g := tripped_trips x i src why m a
  generalize tripped x i src why m s = u at g ⊢
  have au := g.step.anvil a
  have f6 : (pathOf u x).flt.getLsbD 6 = false := by
    rw [g.flt, getLsbD_setBit_other (by omega)]; exact hl
  obtain ⟨cs, cr, cc, ct, cf, c6, cp⟩ := countTrip_counts au (g.counted hc) f6
  generalize countTrip x u = v at cs cr cc ct cf c6 cp ⊢
  have av := cs.anvil au
  have p := pathOf_congr (wakeCheck_inp av) x
  have sw := wakeCheck_step av
  rw [inretry_congr g.regs.lv, g.trips] at c6 cp
  refine ⟨(g.step.trans cs).trans sw, (g.regs.trans cr).trans (wakeCheck_spec v av).1.regsKept, by rw [p, cc, g.closed], ?_,
    by rw [p, ct, g.trips], by rw [p, c6], sw.pend (cs.pend g.pend), fun h => sw.pend (cp h)⟩
  rw [p, cf i hi, g.flt, getLsbD_setBit_self (by omega)]

theorem armRetry_left (x : Path) (dt : Nat) (s : State) : Leaves [.clk] s (armRetry x dt s) := by
  unfold armRetry
  split
  · exact .refl _ s
  · exact arm_leaves _ _ s (.refl _ s)

/-- The wait for a retry is armed: nothing else. -/
theorem Counts.retry {x : Path} {i src : Nat} {s t : State} (h : Counts x i src s t) (dt : Nat) : Counts x i src s (armRetry x dt t) := by
  have l := armRetry_left x dt t
  have p := pathOf_congr (show (armRetry x dt t).inp = t.inp from l.same .inp (by decide)) x
  have k : PathStep t (armRetry x dt t) := .of_leaves l
  exact ⟨h.step.trans k, h.regs.trans l.regsKept, by rw [p]; exact h.closed, by rw [p]; exact h.flt, by rw [p]; exact h.trips,
    by rw [p]; exact h.lock, k.pend h.pend, fun g => k.pend (h.locked g)⟩

/-- A counted guard on the state that a measurement left. -/
theorem Counts.from {x : Path} {i src : Nat} {s u t : State} (h : Counts x i src u t) (k : PathStep s u) (l : lv u = lv s)
    (p : (pathOf u x).trips = (pathOf s x).trips) : PathStep s t ∧ (pathOf t x).closed = false ∧ (pathOf t x).flt.getLsbD i = true ∧
    (pathOf t x).trips = (pathOf s x).trips + 1 ∧ (pathOf t x).flt.getLsbD 6 = decide (inretry s ≤ (pathOf s x).trips) ∧
    isPend t src = true ∧ (inretry s ≤ (pathOf s x).trips → isPend t (16 * 46 + 10 + px x) = true) := by
  have hl := h.lock
  have hk := h.locked
  rw [inretry_congr l, p] at hl hk
  exact ⟨k.trans h.step, h.closed, h.flt, by rw [h.trips, p], hl, h.pend, hk⟩

theorem pathOf_disarm (e : Instr) (s : State) (x : Path) : pathOf (disarm e s) x = pathOf s x := by cases x <;> rfl

theorem fast_guard {s : State} (x : Path) (m : Option InMeas) (a : anvilOn s = true) (hc : (pathOf s x).closed = true)
    (hl : (pathOf s x).flt.getLsbD 6 = false) : ∃ t, exec (.foca x m) s = .next t ∧ ∃ u, Counts x 2 (16 * 46 + 4 + px x) u t ∧
      PathStep s u ∧ lv u = lv s ∧ (pathOf u x).trips = (pathOf s x).trips := by
  have gm := takeMeas_guards m x s
  refine ⟨_, ?_, takeMeas m s, (guardTrip_counted x (16 * 46 + 4 + px x) .guard m ((takeMeas_step m s).anvil a) (by decide)
    ((guards_closed gm).1.trans hc) ((congrArg (fun p : PathSt => p.flt.getLsbD 6) gm).trans hl)).retry (ms 100),
    takeMeas_step m s, takeMeas_lv m s, congrArg (·.trips) gm⟩
  show execFoca x m s = _
  rw [execFoca, if_pos (guardActs_closed m a hc).1]

theorem inrush_guard {s : State} (x : Path) (a : anvilOn s = true) (hc : (pathOf s x).closed = true) (hf : (pathOf s x).full = false)
    (hl : (pathOf s x).flt.getLsbD 6 = false) : ∃ t, exec (.inrushtmo x) s = .next t ∧ ∃ u, Counts x 5 (16 * 46 + 15) u t ∧
      PathStep s u ∧ lv u = lv s ∧ (pathOf u x).trips = (pathOf s x).trips := by
  have p := pathOf_disarm (.inrushtmo x) s x
  have k : PathStep s (disarm (.inrushtmo x) s) := .of_leaves (disarm_leaves _ s (.refl [.clk] s))
  refine ⟨_, ?_, disarm (.inrushtmo x) s, (guardTrip_counted x (16 * 46 + 15) .guard none (k.anvil a) (by decide) (by rw [p]; exact hc)
    (by rw [p]; exact hl)).retry (ms 100), k, rfl, by rw [p]⟩
  show execInrushtmo x s = _
  have g : guardActs (disarm (.inrushtmo x) s) x = true := (guardActs_closed none (k.anvil a) (by rw [p]; exact hc)).1
  rw [execInrushtmo]
  simp only [g, p, hf, Bool.not_false, and_self, if_true]

/-- The slow guard also leaves its integrator at the trip level. -/
theorem slow_guard {s : State} (x : Path) (m : Option InMeas) (a : anvilOn s = true) (hc : (pathOf s x).closed = true)
    (hm : m = none ∨ slowLevel (takeMeas m s) x ≤ slowNow (takeMeas m s) x) (hl : (pathOf s x).flt.getLsbD 6 = false) :
    ∃ t, exec (.slowa x m) s = .next t ∧ (pathOf t x).acc = slowLevel s x ∧ ∃ u, Counts x 3 (16 * 46 + 6 + px x) u t ∧
      PathStep s u ∧ lv u = lv s ∧ (pathOf u x).trips = (pathOf s x).trips := by
  have gm := takeMeas_guards m x s
  generalize hu : disarm (.slowa x none) (takeMeas m s) = u
  have ku : PathStep s u := by rw [← hu]; exact (takeMeas_step m s).trans (.of_leaves (disarm_leaves _ _ (.refl [.clk] _)))
  have lu : lv u = lv s := by rw [← hu]; exact takeMeas_lv m s
  have pu : pathOf u x = pathOf (takeMeas m s) x := by rw [← hu, pathOf_disarm]
  have cu : (pathOf u x).closed = true := by rw [pu]; exact (guards_closed gm).1.trans hc
  have g := guardTrip_counted x (i := 3) (16 * 46 + 6 + px x) .guard m (ku.anvil a) (by decide) cu
    (by rw [pu]; exact (congrArg (fun p : PathSt => p.flt.getLsbD 6) gm).trans hl)
  have e : exec (.slowa x m) s = .next (armRetry x (sec 1) (setPath x { pathOf (guardTrip x 3 (16 * 46 + 6 + px x) true .guard m u) x with
      acc := slowLevel (guardTrip x 3 (16 * 46 + 6 + px x) true .guard m u) x
      accAt := (guardTrip x 3 (16 * 46 + 6 + px x) true .guard m u).clk.now } (guardTrip x 3 (16 * 46 + 6 + px x) true .guard m u))) := by
    show execSlowa x m s = _
    have hg := (guardActs_closed (s := u) none (ku.anvil a) cu).1
    have hm' : m = none ∨ slowLevel u x ≤ slowNow u x := by
      rw [← hu]
      cases x <;> exact hm
    rw [execSlowa, hu]
    simp only [hg, hm', and_self, if_true]
  refine ⟨_, e, ?_, u, ?_, ku, lu, by rw [pu]; exact congrArg (·.trips) gm⟩
  · rw [pathOf_congr (show (armRetry x (sec 1) _).inp = _ from (armRetry_left x (sec 1) _).same .inp (by decide)), pathOf_setPath_same]
    simp only [slowLevel, islow, g.regs.lv, lu]
  · refine Counts.retry ?_ _
    generalize guardTrip x 3 (16 * 46 + 6 + px x) true .guard m u = v at g ⊢
    have k : PathStep v (setPath x { pathOf v x with acc := slowLevel v x, accAt := v.clk.now } v) := .set x _ v
    exact ⟨g.step.trans k, g.regs.trans (setPath_left x _ v).regsKept, by rw [pathOf_setPath_same]; exact g.closed,
      by rw [pathOf_setPath_same]; exact g.flt, by rw [pathOf_setPath_same]; exact g.trips, by rw [pathOf_setPath_same]; exact g.lock,
      k.pend g.pend, fun h => k.pend (g.locked h)⟩

theorem guard_counts (s : State) (x : Path) (m : Option InMeas) (c : Instr) (i e : Nat)
    (h : (c = .foca x m ∧ i = 2 ∧ e = 16 * 46 + 4 + px x) ∨ (c = .slowa x m ∧ i = 3 ∧ e = 16 * 46 + 6 + px x) ∨
      (c = .inrushtmo x ∧ i = 5 ∧ e = 16 * 46 + 15)) (a : anvilOn s = true) (hc : (pathOf s x).closed = true)
    (hf : i = 5 → (pathOf s x).full = false) (hm : i = 3 → m = none ∨ slowLevel (takeMeas m s) x ≤ slowNow (takeMeas m s) x)
    (hl : (pathOf s x).flt.getLsbD 6 = false) :
    Ends c s (fun t => (pathOf t x).closed = false ∧ (pathOf t x).flt.getLsbD i = true ∧ (pathOf t x).trips = (pathOf s x).trips + 1 ∧
      (pathOf t x).flt.getLsbD 6 = decide (inretry s ≤ (pathOf s x).trips) ∧ (i = 3 → (pathOf t x).acc = slowLevel s x) ∧ isPend t e = true ∧
      (inretry s ≤ (pathOf s x).trips → isPend t (16 * 46 + 10 + px x) = true) ∧
      (s.glob.st = .run → Only ([.inp, .rl, .free] ++ raiseParts) s t)) := by
  rcases h with ⟨rfl, rfl, rfl⟩ | ⟨rfl, rfl, rfl⟩ | ⟨rfl, rfl, rfl⟩
  · obtain ⟨t, ht, u, k, su, lu, pu⟩ := fast_guard x m a hc hl
    obtain ⟨k1, k2, k3, k4, k5, k6, k7⟩ := k.from su lu pu
    exact ⟨t, ht, k2, k3, k4, k5, by simp, k6, k7, k1.only⟩
  · obtain ⟨t, ht, ac, u, k, su, lu, pu⟩ := slow_guard x m a hc (hm rfl) hl
    obtain ⟨k1, k2, k3, k4, k5, k6, k7⟩ := k.from su lu pu
    exact ⟨t, ht, k2, k3, k4, k5, fun _ => ac, k6, k7, k1.only⟩
  · obtain ⟨t, ht, u, k, su, lu, pu⟩ := inrush_guard x a hc (hf rfl) hl
    obtain ⟨k1, k2, k3, k4, k5, k6, k7⟩ := k.from su lu pu
    exact ⟨t, ht, k2, k3, k4, k5, by simp, k6, k7, k1.only⟩

/-! What ends a guard's wait. -/

theorem slowPct_zero {s : State} {x : Path} (ha : (pathOf s x).acc = 0) (ht : (pathOf s x).accAt = s.clk.now) : slowPct s x = 0 := by
  simp [slowPct, slowNow, ha, ht]

theorem pathRetryEnd_closes (s : State) (x : Path) (m : Option InMeas) (a : anvilOn s = true) (en : pathEn s x = true)
    (q : (pathOf s x).qual = true) (hc : (pathOf s x).closed = false) (hl : (pathOf s x).flt.getLsbD 6 = false)
    (hw : (pathOf s x).wait &&& 0x13 = 0) (sel : selLets s x = true) : Ends (.pathRetryEnd x m) s (fun t =>
      (pathOf t x).closed = true ∧ ((pathOf s x).wait.getLsbD 3 = true → slowPct t x = 0) ∧
      (s.glob.st = .run → Only ([.inp, .rl, .free] ++ raiseParts) s t)) := by
  have gm := takeMeas_guards m x s
  have go := takeMeas_guards m (other x) s
  generalize hd : disarm (.pathRetryEnd x none) (takeMeas m s) = d
  have kd : PathStep s d := by rw [← hd]; exact (takeMeas_step m s).trans (.of_leaves (disarm_leaves _ _ (.refl [.clk] _)))
  have ld : lv d = lv s := by rw [← hd]; exact takeMeas_lv m s
  have pd (y : Path) : pathOf d y = pathOf (takeMeas m s) y := by rw [← hd, pathOf_disarm]
  have wd : (pathOf d x).wait = (pathOf s x).wait := by rw [pd]; exact congrArg (·.wait) gm
  generalize hu : (if (pathOf d x).wait.getLsbD 3 then setPath x { pathOf d x with acc := 0, accAt := d.clk.now } d else d) = u
  have lu : Leaves [.inp] d u := by
    rw [← hu]
    split
    · exact setPath_left x _ d
    · exact .refl _ d
  have pu : (pathOf u x).qual = (pathOf d x).qual ∧ (pathOf u x).closed = (pathOf d x).closed ∧ (pathOf u x).flt = (pathOf d x).flt ∧
      pathOf u (other x) = pathOf d (other x) ∧
      ((pathOf d x).wait.getLsbD 3 = true → (pathOf u x).acc = 0 ∧ (pathOf u x).accAt = d.clk.now) := by
    rw [← hu]
    split
    · simp
    · exact ⟨rfl, rfl, rfl, rfl, fun h => absurd h ‹_›⟩
  obtain ⟨pq, pc, pf, po, ps⟩ := pu
  generalize hv : setPath x { pathOf u x with wait := (pathOf d x).wait &&& 0x13 } u = v
  have e : exec (.pathRetryEnd x m) s = .next (tryClose x m v) := by
    show execPathRetryEnd x m s = _
    rw [← hv, ← hu, ← hd]
    rfl
  have lv' : Leaves [.inp] u v := by rw [← hv]; exact setPath_left x _ u
  have px : pathOf v x = { pathOf u x with wait := (pathOf d x).wait &&& 0x13 } := by rw [← hv, pathOf_setPath_same]
  have pxo : pathOf v (other x) = pathOf u (other x) := by rw [← hv, pathOf_setPath_other]
  have kv : PathStep s v := (kd.trans (.of_leaves lu)).trans (.of_leaves lv')
  have l : lv v = lv s := lv'.regsKept.lv.trans (lu.regsKept.lv.trans ld)
  refine .of_eq e ?_
  have hq' : (pathOf (takeMeas m s) x).qual = (pathOf s x).qual := congrArg (·.qual) gm
  have hf' : (pathOf (takeMeas m s) x).flt = (pathOf s x).flt := congrArg (·.flt) gm
  have k := tryClose_closes m (mayClose_of (kv.anvil a) l en (by rw [px]; simp only [pq, pd]; exact hq'.trans q)
    (by rw [px]; simp only [pc, pd]; exact (guards_closed gm).1.trans hc) (by rw [px]; simp only [pf, pd, hf']; exact hl)
    (by rw [px]; simp only [wd]; exact hw))
    ((selLets_congr l (by rw [pxo, po, pd]; exact (guards_closed go).1) (by rw [pxo, po, pd]; exact (guards_closed go).2)).trans sel)
  obtain ⟨f, hf⟩ := k.self
  refine ⟨by rw [hf], fun h => ?_, (kv.trans k.step).only⟩
  obtain ⟨z1, z2⟩ := ps (by rw [wd]; exact h)
  refine slowPct_zero (by rw [hf, px]; exact z1) ?_
  rw [hf, px, k.step.leaves.now, lv'.now, lu.now]
  exact z2

theorem tripCountClear_clears (s : State) (x : Path) (hc : (pathOf s x).closed = true) : Ends (.tripCountClear x) s (fun t =>
    pathOf t x = { pathOf s x with trips := 0 } ∧ pathOf t (other x) = pathOf s (other x) ∧ Only [.inp, .clk] s t) := by
  have e : exec (.tripCountClear x) s = .next (setPath x { pathOf s x with trips := 0 } (disarm (.tripCountClear x) s)) := by
    show execTripCountClear x s = _
    simp only [execTripCountClear, pathOf_disarm, hc, if_true]
  refine .of_eq e ⟨pathOf_setPath_same _ _ _, by rw [pathOf_setPath_other, pathOf_disarm], ?_⟩
  have h : Only [.inp, .clk] s (disarm (.tripCountClear x) s) := by simp [only_iff]
  exact h.trans ((setPath_only x _ _).weaken (by decide))

/-- INCTL.CLRx gives a path its cleared contents. -/
def pathCleared (p : PathSt) : PathSt := { p with flt := 0, wait := 0, trips := 0, qual := false }

theorem inctlPath_inp (x : Path) (s : State) : (inctlPath x s).inp = (setPath x (pathCleared (pathOf s x)) s).inp := rfl

theorem inctlPath_only (x : Path) (s : State) : Only [.inp, .clk] s (inctlPath x s) := by cases x <;> simp [inctlPath, only_iff]

theorem idleWatch_only (b : Bool) (s : State) : Only [.clk] s (idleWatch b s) := by
  unfold idleWatch
  dsimp only
  repeat' split
  all_goals simp [only_iff]

theorem inctlClr_clears (s : State) (a b : Bool) (h : Served s) : Ends (.inctlClr a b) s (fun t =>
    t.inp = { s.inp with a := if a then { s.inp.a with flt := 0, wait := 0, trips := 0, qual := false } else s.inp.a,
                         b := if b then { s.inp.b with flt := 0, wait := 0, trips := 0, qual := false } else s.inp.b } ∧
    Only [.inp, .clk, .glob, .bus] s t) := by
  refine .of_eq (exec_onPage h rfl) ?_
  generalize hu : cancelKey (ackAccess s) = u
  have iu : u.inp = s.inp := by rw [← hu]; rfl
  have ou : Only [.inp, .clk, .glob, .bus] s u := by rw [← hu]; simp [only_iff]
  unfold inctlBits
  constructor
  · rw [idleWatch_inp]
    cases a <;> cases b <;> simp [inctlPath_inp, pathCleared, setPath, pathOf, iu]
  · refine (ou.trans ?_).trans ((idleWatch_only false _).weaken (by decide))
    have w (x : Path) (v : State) : Only [.inp, .clk, .glob, .bus] v (inctlPath x v) := (inctlPath_only x v).weaken (by decide)
    cases a <;> cases b
    · exact Only.refl _ u
    · exact w .b u
    · exact w .a u
    · exact (w .a u).trans (w .b _)

/-- A slow trip whose measurement lies below the level is armed anew. -/
theorem slow_below (s : State) (x : Path) (m : Option InMeas) (hm : m ≠ none)
    (h : slowNow (takeMeas m s) x < slowLevel (takeMeas m s) x) :
    exec (.slowa x m) s = .next (armSlow x (disarm (.slowa x none) (takeMeas m s))) := by
  show execSlowa x m s = _
  have h' : ¬ slowLevel (disarm (.slowa x none) (takeMeas m s)) x ≤ slowNow (disarm (.slowa x none) (takeMeas m s)) x := by
    cases x <;> exact Nat.not_le.mpr h
  simp only [execSlowa, hm, h', or_self, and_false, if_false]

/-- Settles O14: every guard opens its path (`Trips`, `Counts`), and an ended wait closes it where `tryClose` lets it. -/
theorem pathGuards : Obligations.PathGuards := by
  unfold Obligations.PathGuards
  exact ⟨fun s x m a => voltage_guard a (exec_ova x m a), reverse_guard, fun s x m a => voltage_guard a (exec_uva x m a), guard_clears, guard_counts,
    pathRetryEnd_closes, tripCountClear_clears, inctlClr_clears, slow_below⟩

end Sys2Proof
end

section
/-! SUPPORT. The common stop. -/

namespace Sys2Proof.Machine

open Sys2Proof

variable {z : State}

/-- What the common stop writes where no reset is wanted. -/
def stopParts : List Part := [.pending, .clk, .glob, .rl, .seq, .txn, .safe, .hk, .pwr, .bus, .fl, .upd]

/-- Every event armed for the forward sequence ends. -/
def stopTimers (e : Instr) : Bool :=
  match e with
  | .railEnable _ => true
  | .retrySpaceEnd _ => true
  | .minoffEnd => true
  | .idleslp => true
  | .tconfExpire => true
  | _ => false

theorem stopTimers_seq {e : Instr} (h : stopTimers e = true) : seqTimer e = true := by
  revert h
  unfold stopTimers
  split <;> simp [seqTimer]

/-- The stop up to the delays of the rails: the state, the timers, a pending commit, the outputs and the host watchdog. -/
def stopEntry (s : State) : State :=
  wdStop (assertAll (preempt 2 0 (disarmAll stopTimers (enterState .stop { s with pwr := { s.pwr with idle := false, fromRun := false } }))))

/-- What the reverse sequence starts from. -/
def stopPlan (complete : Bool) (s : State) : State :=
  { s with rl := { s.rl with up := s.rl.up &&& (~~~s.seq.retryWait ||| s.rl.en) }
           seq := { s.seq with phase := 4, resumed := false, tick := tickCode (lv s), t0 := some s.clk.now, wait := 0,
                               dly := 0, retryWait := 0, rset := [], offWait := s.rl.en, offDly := 0,
                               wasOn := s.rl.en, fwd := false, complete := complete }
           upd := { s.upd with confEnd := none } }

theorem commonStop_eq (complete : Bool) (s : State) : commonStop complete s =
    settle ((rails (stopPlan complete (stopEntry s)).rl.en).foldl (fun u r =>
      arm (offDly (lv u) r * tickLen (stopPlan complete (stopEntry s)).seq.tick) (.railOffDelay (railF r)) u) (stopPlan complete (stopEntry s))) := rfl

theorem stopEntry_leaves (s : State) : Leaves [.clk, .glob, .seq, .txn, .safe, .hk, .pwr, .bus, .fl] s (stopEntry s) := by
  unfold stopEntry
  refine Leaves.then ?_ (wdStop_leaves _ (.refl _ _)) (by decide)
  refine Leaves.then ?_ (assertAll_leaves _ (.refl _ _)) (by decide)
  refine Leaves.then ?_ (preempt_leaves _ _ _ (.refl _ _)) (by decide)
  refine Leaves.then ?_ (disarmAll_leaves _ _ (.refl _ _)) (by decide)
  refine Leaves.then ?_ (enterState_leaves _ _ (.refl _ _)) (by decide)
  exact (Leaves.refl _ s).set (by simp [only_iff])

theorem stopEntry_st (s : State) : (stopEntry s).glob.st = .stop := by
  unfold stopEntry
  rw [(wdStop_leaves _ (.refl _ _)).st, (assertAll_leaves _ (.refl _ _)).st, (preempt_leaves _ _ _ (.refl _ _)).st,
    (disarmAll_leaves _ _ (.refl _ _)).st, enterState_st]

theorem stopEntry_powered (s : State) : Powered s (stopEntry s) := by
  unfold stopEntry
  refine Powered.trans ?_ (wdStop_leaves _ (.refl _ _)).powered
  refine Powered.trans ?_ (assertAll_leaves _ (.refl _ _)).powered
  refine Powered.trans ?_ (preempt_leaves _ _ _ (.refl _ _)).powered
  refine Powered.trans ?_ (disarmAll_leaves _ _ (.refl _ _)).powered
  refine Powered.entered ?_ .stop
  exact ⟨rfl, rfl, rfl, rfl, rfl, rfl, rfl⟩

theorem stopPlan_leaves (c : Bool) (s : State) : Leaves [.rl, .seq, .upd] s (stopPlan c s) := .of_only (by simp [stopPlan, only_iff]) rfl

/-- The reverse sequence begins, and settles as far as it can at once. -/
theorem commonStop_spec (complete : Bool) (s : State) (h : s.glob.pendRst = none) :
    Leaves stopParts s (commonStop complete s) ∧ Powered s (commonStop complete s) ∧ (commonStop complete s).glob.st = .stop ∧
    (commonStop complete s).rl.en = s.rl.en := by
  rw [commonStop_eq]
  have le := stopEntry_leaves s
  have pe := stopEntry_powered s
  have se := stopEntry_st s
  have re : (stopEntry s).rl = s.rl := le.same .rl (by decide)
  generalize stopEntry s = e at le pe se re ⊢
  have lp := stopPlan_leaves complete e
  have rp : (stopPlan complete e).rl.en = e.rl.en := rfl
  generalize stopPlan complete e = p at lp rp ⊢
  generalize hq : (rails p.rl.en).foldl _ p = q
  have lq : Leaves [.clk] p q := by
    rw [← hq]
    exact foldl_arm_leaves _ _ _ _ (.refl _ _)
  have lpq : Leaves stopParts s q := (((Leaves.refl _ s).then le (by decide)).then lp (by decide)).then lq (by decide)
  have ppq : Powered s q := (pe.trans lp.powered).trans lq.powered
  have sq : q.glob.st = .stop := by rw [lq.st, lp.st, se]
  have ls := settle_stop_leaves q sq (ppq.pendRst.trans h) (.refl _ q)
  refine ⟨lpq.then ls (by decide), ppq.trans ls.powered, ls.st.trans sq, ?_⟩
  have r1 : (settle q).rl = q.rl := ls.same .rl (by decide)
  have r2 : q.rl = p.rl := lq.same .rl (by decide)
  rw [r1, r2, rp, re]

theorem commonStop_times (complete : Bool) (s : State) (h : s.glob.pendRst = none) (hs : Times z s) :
    Times z (commonStop complete s) := by
  rw [commonStop_eq]
  have te : Times z (stopEntry s) := by
    unfold stopEntry
    refine wdStop_times _ (assertAll_times _ (preempt_times _ _ _ (disarmAll_times _ (fun e he => stopTimers_seq he) _ ?_)))
    exact enterState_times _ _ (hs.set rfl)
  refine settle_times _ (.inr ?_) (times_foldl (fun u r hu => arm_times _ _ rfl _ hu) (te.set rfl))
  have lq : Leaves [.clk] (stopPlan complete (stopEntry s)) _ := foldl_arm_leaves
    (fun u r => offDly (lv u) r * tickLen (stopPlan complete (stopEntry s)).seq.tick) (fun r => .railOffDelay (railF r))
    (rails (stopPlan complete (stopEntry s)).rl.en) _ (.refl _ _)
  rw [lq.powered.pendRst, (stopPlan_leaves _ _).powered.pendRst, (stopEntry_powered s).pendRst, h]

end Sys2Proof.Machine
end

section
/-! Input loss and the input power limit. -/

namespace Sys2Proof

open Sys2Proof.Machine

theorem inloss_declared (s : State) (a : anvilOn s = true) (hp : s.glob.pendRst = none) (ha : s.inp.a.closed = false)
    (hb : s.inp.b.closed = false) (hl : s.inp.inloss = false) (he : s.inp.a.ever = true ∨ s.inp.b.ever = true) :
    Ends .inloss s (fun t => t.inp.inloss = true ∧ t.inp.inlossuv = lossByUv s ∧ isPend t (16 * 46 + 13) = true ∧
      (s.glob.boot = false → s.glob.st = .run → t.glob.st = .stop)) := by
  generalize hu : ({ disarm .inloss s with inp := { s.inp with inloss := true, inlossuv := lossByUv s } } : State) = u
  have e : exec .inloss s = .next (if !(raiseW (16 * 46 + 13) u).glob.boot ∧ ((raiseW (16 * 46 + 13) u).glob.st = .start ∨
      (raiseW (16 * 46 + 13) u).glob.st = .run ∨ (raiseW (16 * 46 + 13) u).glob.st = .standby)
      then commonStop (raiseW (16 * 46 + 13) u).pwr.req.isSome (raiseW (16 * 46 + 13) u) else raiseW (16 * 46 + 13) u) := by
    rw [← hu]
    show execInloss s = _
    have he' : (!(s.inp.a.ever || s.inp.b.ever)) = false := by rcases he with h | h <;> simp [h]
    unfold execInloss
    dsimp only
    rw [if_neg (by simp [a, ha, hb, hl, he'])]
    rfl
  have lu : Leaves [.clk, .inp] s u := by rw [← hu]; exact .of_only (by simp [only_iff]) rfl
  have iu : u.inp = { s.inp with inloss := true, inlossuv := lossByUv s } := by rw [← hu]
  have au : anvilOn u = true := lu.powered.anvil_st lu.st a
  clear hu
  obtain ⟨lw, pw, -⟩ := raiseW_spec (16 * 46 + 13) u au
  have iw := raiseW_inp (16 * 46 + 13) au
  have bw : (raiseW (16 * 46 + 13) u).glob.pendRst = none := by
    rw [(raiseW_powered _ au).pendRst, lu.powered.pendRst, hp]
  have rw' (h : s.glob.st = .run) : (raiseW (16 * 46 + 13) u).glob = s.glob := by
    rw [raiseW_run _ (lu.st.trans h), raise_glob]
    exact lu.same .glob (by decide)
  refine .of_eq e ?_
  generalize raiseW (16 * 46 + 13) u = w at lw pw iw bw rw' ⊢
  have both (t : State) (h : t.inp = w.inp) : t.inp.inloss = true ∧ t.inp.inlossuv = lossByUv s := by
    rw [h, iw, iu]
    exact ⟨rfl, rfl⟩
  split
  · obtain ⟨ls, -, st, -⟩ := commonStop_spec w.pwr.req.isSome w bw
    obtain ⟨b1, b2⟩ := both _ (ls.same .inp (by decide))
    exact ⟨b1, b2, ls.pend pw, fun _ _ => st⟩
  · rename_i h
    obtain ⟨b1, b2⟩ := both w rfl
    refine ⟨b1, b2, pw, fun hboot hrun => absurd ?_ h⟩
    rw [rw' hrun]
    exact ⟨by simp [hboot], .inr (.inl hrun)⟩

/-- Settles O15: INLOSS runs the common stop, which enters STOP (`commonStop_spec`). -/
theorem inputLoss : Obligations.InputLoss := by
  unfold Obligations.InputLoss
  refine ⟨inloss_declared, fun s a h p => yields_raiseG (g := 0) (b := 15) a ?_, fun s a h => ?_⟩
  · show execPlim true s = _
    simp [execPlim, a, h, p]
  · show execPlim false s = _
    simp [execPlim, a, h]

end Sys2Proof
end

section
/-! SUPPORT. What the operations leave alone, raise marks apart, function by function. -/

namespace Sys2Proof.Machine

open Sys2Proof

variable {z : State} {l : List Part}

theorem setPlt_leaves (f : Plt → Plt) (s : State) (hs : Leaves [.plt] z s) :
    Leaves [.plt] z (setPlt f s) := by
  unfold setPlt
  repeat' (first
    | with_reducible assumption | with_reducible intro _ | subst x | assumption)

theorem restartFilters_leaves (s : State) (hs : Leaves [.plt] z s) :
    Leaves [.plt] z (restartFilters s) := by
  unfold restartFilters
  repeat' (first
    | with_reducible assumption | with_reducible intro _ | subst x
    | with_reducible refine Leaves.then ?_ (setPlt_leaves _ _ (Leaves.refl _ _)) (by decide))

theorem openS2_leaves (s : State) (hs : Leaves [.plt] z s) :
    Leaves [.plt] z (openS2 s) := by
  unfold openS2
  repeat' (first
    | with_reducible assumption | with_reducible intro _ | subst x | with_reducible apply Leaves.ite
    | with_reducible refine Leaves.then ?_ (setPlt_leaves _ _ (Leaves.refl _ _)) (by decide) | with_reducible apply raiseG_leaves)

theorem pilotCause_leaves (b : Nat) (s : State) (hs : Leaves [.clk, .plt] z s) :
    Leaves [.clk, .plt] z (pilotCause b s) := by
  unfold pilotCause
  repeat' (first
    | with_reducible assumption | with_reducible intro _ | subst x
    | (extract_lets +onlyGivenNames x; have hx : Leaves [.clk, .plt] z x := ?_; clear_value x)
    | (extract_lets +onlyGivenNames x; clear_value x) | with_reducible apply Leaves.ite
    | with_reducible refine Leaves.then ?_ (setPlt_leaves _ _ (Leaves.refl _ _)) (by decide) | with_reducible apply raiseG_leaves
    | with_reducible refine Leaves.then ?_ (arm_leaves _ _ _ (Leaves.refl _ _)) (by decide))

theorem causeIf_leaves (c : Bool) (b : Nat) (s : State) (hs : Leaves [.clk, .plt] z s) :
    Leaves [.clk, .plt] z (causeIf c b s) := by
  unfold causeIf
  repeat' (first
    | with_reducible assumption | with_reducible intro _ | subst x | with_reducible apply Leaves.ite
    | with_reducible refine Leaves.then ?_ (pilotCause_leaves _ _ (Leaves.refl _ _)) (by decide))

theorem stopResponse_leaves (s : State) (hs : Leaves [.clk, .plt] z s) :
    Leaves [.clk, .plt] z (stopResponse s) := by
  unfold stopResponse
  repeat' (first
    | with_reducible assumption | with_reducible intro _ | subst x
    | with_reducible refine Leaves.then ?_ (setPlt_leaves _ _ (Leaves.refl _ _)) (by decide)
    | with_reducible refine Leaves.then ?_ (disarm_leaves _ _ (Leaves.refl _ _)) (by decide))

theorem setCurr_leaves (c : Nat) (s : State) (hs : Leaves [.clk, .plt] z s) : Leaves [.clk, .plt] z (setCurr c s) := by
  unfold setCurr
  dsimp only
  split
  · exact hs
  · refine Leaves.then ?_ (causeIf_leaves _ _ _ (.refl _ _)) (by decide)
    exact raiseIf_leaves _ _ _ (hs.then (setPlt_leaves _ s (.refl _ _)) (by decide))


theorem setOsc_leaves (on : Bool) (s : State) (hs : Leaves [.clk, .plt] z s) :
    Leaves [.clk, .plt] z (setOsc on s) := by
  unfold setOsc
  repeat' (first
    | with_reducible assumption | with_reducible intro _ | subst x
    | (extract_lets +onlyGivenNames x; have hx : Leaves [.clk, .plt] z x := ?_; clear_value x)
    | with_reducible apply Leaves.ite
    | with_reducible refine Leaves.then ?_ (pilotCause_leaves _ _ (Leaves.refl _ _)) (by decide)
    | with_reducible refine Leaves.then ?_ (setPlt_leaves _ _ (Leaves.refl _ _)) (by decide) | with_reducible apply raiseG_leaves)

theorem noPwm_leaves (s : State) (hs : Leaves [.clk, .plt] z s) : Leaves [.clk, .plt] z (noPwm s) := by
  unfold noPwm
  refine Leaves.then ?_ (setCurr_leaves _ _ (.refl _ _)) (by decide)
  exact (hs.then (setOsc_leaves _ s (.refl _ _)) (by decide)).then (setPlt_leaves _ _ (.refl _ _)) (by decide)


theorem pilotReceive_leaves (s : State) (hs : Leaves [.clk, .plt] z s) :
    Leaves [.clk, .plt] z (pilotReceive s) := by
  unfold pilotReceive
  repeat' (first
    | with_reducible assumption | with_reducible intro _ | subst x
    | with_reducible refine Leaves.then ?_ (stopResponse_leaves _ (Leaves.refl _ _)) (by decide)
    | with_reducible refine Leaves.then ?_ (restartFilters_leaves _ (Leaves.refl _ _)) (by decide)
    | with_reducible refine Leaves.then ?_ (setPlt_leaves _ _ (Leaves.refl _ _)) (by decide)
    | with_reducible refine Leaves.then ?_ (arm_leaves _ _ _ (Leaves.refl _ _)) (by decide))

theorem pilotPassive_leaves (s : State) (hs : Leaves [.clk, .plt] z s) : Leaves [.clk, .plt] z (pilotPassive s) := by
  unfold pilotPassive
  have h1 := hs.then (setPlt_leaves (fun p => { p with role := 3, base := true, gen := false, swap := none }) s (.refl _ _)) (by decide)
  have h2 := (h1.then (openS2_leaves _ (.refl _ _)) (by decide)).then (stopResponse_leaves _ (.refl _ _)) (by decide)
  exact noPwm_leaves _ ((h2.then (disarm_leaves .pwmoff _ (.refl _ _)) (by decide)).then (restartFilters_leaves _ (.refl _ _)) (by decide))


theorem pilotFollow_leaves (s : State) (hs : Leaves [.clk, .plt] z s) : Leaves [.clk, .plt] z (pilotFollow s) := by
  unfold pilotFollow
  dsimp only
  split
  · exact pilotReceive_leaves s hs
  · split
    · exact pilotPassive_leaves s hs
    · exact hs


theorem idleStandby_leaves (s : State) (hs : Leaves [.clk, .glob, .seq, .hk, .pwr, .fl] z s) :
    Leaves [.clk, .glob, .seq, .hk, .pwr, .fl] z (idleStandby s) := by
  unfold idleStandby
  repeat' (first
    | with_reducible assumption | with_reducible intro _ | subst x
    | with_reducible refine Leaves.then ?_ (idleWatch_leaves _ _ (Leaves.refl _ _)) (by decide)
    | with_reducible refine Leaves.then ?_ (enterState_leaves _ _ (Leaves.refl _ _)) (by decide) | assumption)

theorem bandSettle_leaves (s : State) (hs : Leaves [.clk, .free, .chg] z s) :
    Leaves [.clk, .free, .chg] z (bandSettle s) := by
  unfold bandSettle
  repeat' (first
    | with_reducible assumption | with_reducible intro _ | subst x
    | (extract_lets +onlyGivenNames x; clear_value x) | with_reducible apply Leaves.ite | split
    | with_reducible refine Leaves.then ?_ (chgSettle_leaves _ (Leaves.refl _ _)) (by decide)
    | with_reducible refine Leaves.then ?_ (runTimer_leaves _ (Leaves.refl _ _)) (by decide)
    | with_reducible refine Leaves.then ?_ (setChg_leaves _ _ (Leaves.refl _ _)) (by decide) | with_reducible apply raiseG_leaves)

theorem chgFloor_leaves (cell : Nat) (s : State) (hs : Leaves [.clk, .free, .chg] z s) :
    Leaves [.clk, .free, .chg] z (chgFloor cell s) := by
  unfold chgFloor
  repeat' (first
    | with_reducible assumption | with_reducible intro _ | subst x
    | (extract_lets +onlyGivenNames x; have hx : Leaves [.clk, .free, .chg] z x := ?_; clear_value x)
    | with_reducible apply Leaves.ite
    | with_reducible refine Leaves.then ?_ (bandSettle_leaves _ (Leaves.refl _ _)) (by decide)
    | with_reducible refine Leaves.then ?_ (chgRestart_leaves _ (Leaves.refl _ _)) (by decide)
    | with_reducible refine Leaves.then ?_ (chgSettle_leaves _ (Leaves.refl _ _)) (by decide)
    | with_reducible refine Leaves.then ?_ (runTimer_leaves _ (Leaves.refl _ _)) (by decide)
    | with_reducible refine Leaves.then ?_ (disarm_leaves _ _ (Leaves.refl _ _)) (by decide))

end Sys2Proof.Machine
end

section
/-! SUPPORT. A start with no rail held falls back in no trial: what then stays of the device's own flags. -/

namespace Sys2Proof

open Sys2Proof.Machine

/-- Of the device's flags only the state and the one before it may differ. -/
def GlobKept (s t : State) : Prop := t.glob = { s.glob with st := t.glob.st, left := t.glob.left }

theorem GlobKept.refl (s : State) : GlobKept s s := rfl

theorem GlobKept.trans {s t u : State} (h : GlobKept s t) (g : GlobKept t u) : GlobKept s u := by
  unfold GlobKept at *
  rw [g, h]

theorem GlobKept.of_eq {s t : State} (h : t.glob = s.glob) : GlobKept s t := by unfold GlobKept; rw [h]

theorem Leaves.globKept {l : List Part} {s t : State} (h : Leaves l s t) (hl : .glob ∉ l ++ raiseParts := by decide) : GlobKept s t :=
  .of_eq (h.same .glob hl)

/-- The same, the Floor table's mark apart. -/
def FlagsKept (s t : State) : Prop :=
  t.glob = { s.glob with st := t.glob.st, left := t.glob.left, floorTab := t.glob.floorTab }

theorem FlagsKept.trans {s t u : State} (h : FlagsKept s t) (g : FlagsKept t u) : FlagsKept s u := by
  unfold FlagsKept at *
  rw [g, h]

theorem GlobKept.flags {s t : State} (h : GlobKept s t) : FlagsKept s t := by
  unfold GlobKept at h
  unfold FlagsKept
  rw [h]

theorem mem_rails {m : Mask} {r : Nat} : r ∈ rails m ↔ has m r = true := by
  simp only [rails, List.mem_filter, List.mem_range, and_iff_right_iff_imp]
  intro h
  exact Nat.lt_of_not_le fun g => by simp [has, BitVec.getLsbD_of_ge _ _ g] at h

/-- Every rail of a mask is in another one. -/
theorem and_eq_of_rails {m n : Mask} (h : ∀ r ∈ rails m, has n r = true) : m &&& n = m := by
  refine BitVec.eq_of_getLsbD_eq fun r _ => ?_
  rw [BitVec.getLsbD_and]
  cases hm : m.getLsbD r
  · rfl
  · rw [show n.getLsbD r = true from h r (mem_rails.mpr hm)]
    rfl

end Sys2Proof

namespace Sys2Proof.Machine

open Sys2Proof

theorem heldRail_of_offhold {s : State} (h : s.seq.offhold = 0) (r : Nat) : heldRail s r = false := by
  simp [heldRail, h, has]

theorem enterState_globKept (n : St) (s : State) : GlobKept s (enterState n s) := by
  unfold GlobKept
  rw [enterState_glob]

theorem fwdCheck_globKept {s : State} (h : s.seq.offhold = 0) : GlobKept s (fwdCheck s) := by
  unfold fwdCheck
  dsimp only
  split
  case isFalse => exact .refl s
  case isTrue hc =>
    have full : maskOf (inseq (lv s)) &&& s.rl.pg = maskOf (inseq (lv s)) := and_eq_of_rails fun r hr => by
      have := List.all_eq_true.mp hc.2.2.2 r hr
      simpa [heldRail_of_offhold h] using this
    rw [if_pos (by simp [full])]
    generalize hu : enterState .run _ = u
    have gu : GlobKept s u := by
      rw [← hu]
      refine GlobKept.trans ?_ (enterState_globKept .run _)
      exact GlobKept.of_eq rfl
    split
    · split <;> exact gu
    · exact gu

theorem settle_globKept {s : State} (h : s.seq.offhold = 0) (hs : s.glob.st ≠ .stop ∨ s.glob.pendRst = none) : GlobKept s (settle s) := by
  obtain ⟨hp, hst⟩ := settleStart_powered s
  have g : GlobKept s (settleStart s) := (fwdCheck_globKept h).trans (settleStart_after s).globKept
  rw [settle_eq]
  split
  · exact g.trans (settleSafe_leaves _ (.refl _ _)).globKept
  · split
    · rename_i hstop
      refine g.trans (stopEnd_leaves _ (hp.pendRst.trans (hs.resolve_left fun n => ?_)) (.refl _ _)).globKept
      rcases hst with e | ⟨-, e⟩
      · exact n (e ▸ hstop.1)
      · simp [e] at hstop
    · exact g

theorem settle_globKept_of_not_start {s : State} (h : s.glob.st ≠ .start) (hs : s.glob.st ≠ .stop) : GlobKept s (settle s) := by
  have g : GlobKept s (settleStart s) := by
    have := (settleStart_after s).globKept
    rwa [fwdCheck_of_not_start h] at this
  have hst : (settleStart s).glob.st = s.glob.st := (settleStart_powered s).2.resolve_right fun x => h x.1
  rw [settle_eq]
  split
  · exact g.trans (settleSafe_leaves _ (.refl _ _)).globKept
  · rw [if_neg fun x => hs (hst ▸ x.1)]
    exact g

theorem floorTake_glob (s : State) : (floorTake s).glob = { s.glob with floorTab := s.glob.floorTab || s.glob.floor } := by
  unfold floorTake
  split
  · rename_i h
    have hl (u : State) : Leaves [.regs] u (floorLoad (loadHLive u)) := (loadHLive_leaves u (.refl _ _)).then (floorLoad_leaves _ (.refl _ _)) (by decide)
    have hf : s.glob.floor = true := by simp at h; exact h.1
    have e := (hl { s with glob := { s.glob with floorTab := true }, regs := { s.regs with live := [] } }).same .glob (by decide)
    simp only [Part.Same] at e
    rw [e]
    simp [hf]
  · rename_i h
    have : (s.glob.floorTab || s.glob.floor) = s.glob.floorTab := by
      cases hf : s.glob.floor <;> simp_all
    rw [this]

theorem assertAll_offhold (s : State) : (assertAll s).seq.offhold = s.seq.offhold := by
  have one (x : Nat) (u : State) : (assertRst x u).seq.offhold = u.seq.offhold := rfl
  unfold assertAll
  generalize List.range 5 = l
  induction l generalizing s with
  | nil => rfl
  | cons x l ih => exact (ih _).trans (one x s)

/-- How the common start ends, from a state with no rail held. -/
theorem settle_start_kept {u : State} (h : u.glob.st = .start) (ho : u.seq.offhold = 0) :
    GlobKept u (settle (assertAll (chgRestart u))) ∧ RegsKept u (settle (assertAll (chgRestart u))) := by
  have hc := chgRestart_leaves u (.refl _ _)
  have ha := assertAll_leaves (chgRestart u) (.refl _ _)
  have hst : (assertAll (chgRestart u)).glob.st ≠ .stop := by rw [ha.st, hc.st, h]; simp
  have hoff : (assertAll (chgRestart u)).seq.offhold = 0 := by
    have : (chgRestart u).seq.offhold = u.seq.offhold := congrArg (·.offhold) (hc.marked .seq (by decide))
    rw [assertAll_offhold, this, ho]
  exact ⟨(hc.globKept.trans ha.globKept).trans (settle_globKept hoff (.inl hst)),
    (hc.regsKept.trans ha.regsKept).trans (settle_regs _ (.inl hst))⟩

/-- The state from which the common start takes the Floor table. -/
def startFrom (s : State) : State := { s with pwr := { s.pwr with idle := false, fromRun := false } }

/-- The common start keeps the device's flags, and the registers as the Floor table leaves them. -/
theorem commonStart_kept (s : State) : GlobKept (floorTake (startFrom s)) (commonStart s) ∧
    RegsKept (floorTake (startFrom s)) (commonStart s) := by
  unfold commonStart startFrom
  generalize floorTake { s with pwr := { s.pwr with idle := false, fromRun := false } } = w
  have ge := enterState_globKept .start w
  have re : RegsKept w (enterState .start w) := (enterState_leaves .start w (.refl _ _)).regsKept
  have se := enterState_st .start w
  generalize enterState .start w = e at ge re se ⊢
  have key (u : State) (h : Leaves [.clk, .seq] e u) (ho : u.seq.offhold = 0) :
      GlobKept w (settle (assertAll (chgRestart u))) ∧ RegsKept w (settle (assertAll (chgRestart u))) := by
    obtain ⟨k1, k2⟩ := settle_start_kept (h.st.trans se) ho
    exact ⟨(ge.trans h.globKept).trans k1, (re.trans h.regsKept).trans k2⟩
  have ld : Leaves [.clk, .seq] e (disarm .idleslp (disarm .minoffEnd e)) :=
    ((Leaves.refl _ _).then (disarm_leaves _ _ (.refl _ _)) (by decide)).then (disarm_leaves _ _ (.refl _ _)) (by decide)
  refine key _ ?_ ?_
  · refine Leaves.then (m := [.clk]) ?_ (foldl_arm_leaves _ _ _ _ (.refl _ _)) (by decide)
    exact ld.set (by simp [only_iff])
  · generalize hv : State.mk _ _ _ _ _ _ _ _ _ _ _ _ _ _ _ _ _ _ _ _ _ _ _ _ _ _ _ _ = v
    have hv0 : v.seq.offhold = 0 := by rw [← hv]
    exact (congrArg (·.offhold) ((foldl_arm_leaves _ _ _ v (.refl [.clk] v)).marked .seq (by decide))).trans hv0

theorem leaveSafe_kept (s : State) : ∃ u, u.glob = s.glob ∧ u.regs = s.regs ∧ u.otp = s.otp ∧ leaveSafe s = commonStart u := by
  refine ⟨_, ?_, ?_, ?_, rfl⟩
  · exact raise_glob _ _
  · exact raise_regs _ _
  · exact raise_otp _ _

theorem startCheck_kept (s : State) : startCheck s = s ∨ ∃ u, u.glob = s.glob ∧ u.regs = s.regs ∧ u.otp = s.otp ∧ startCheck s = commonStart u := by
  have c : ∃ u, u.glob = s.glob ∧ u.regs = s.regs ∧ u.otp = s.otp ∧ commonStart s = commonStart u := ⟨s, rfl, rfl, rfl, rfl⟩
  unfold startCheck
  split
  · exact .inl rfl
  · split
    · exact .inr c
    · split
      · exact .inr c
      · split
        · exact .inr (leaveSafe_kept s)
        · exact .inl rfl

theorem commonStart_flags (s : State) : FlagsKept s (commonStart s) := by
  refine FlagsKept.trans (t := floorTake (startFrom s)) ?_ (commonStart_kept s).1.flags
  unfold FlagsKept
  rw [floorTake_glob]
  rfl

theorem startCheck_flags (s : State) : FlagsKept s (startCheck s) := by
  rcases startCheck_kept s with e | ⟨u, hg, -, -, e⟩
  · rw [e]; exact (GlobKept.refl s).flags
  · rw [e]
    exact (GlobKept.of_eq hg).flags.trans (commonStart_flags u)

theorem idleStandby_flags (s : State) : FlagsKept s (idleStandby s) := by
  unfold idleStandby
  refine GlobKept.flags (GlobKept.trans ?_ (idleWatch_leaves true _ (.refl _ _)).globKept)
  refine GlobKept.trans ?_ (enterState_globKept .standby _)
  exact GlobKept.of_eq rfl

theorem decideStart_flags (s : State) : FlagsKept s (decideStart s) := by
  unfold decideStart
  split
  · exact commonStart_flags s
  · split
    · refine GlobKept.flags (GlobKept.trans (t := { s with pwr := { s.pwr with idle := false } }) (.of_eq rfl) ?_)
      exact enterState_globKept .stop _
    · exact idleStandby_flags s

end Sys2Proof.Machine
end

section
/-! How the boot ends. -/

namespace Sys2Proof

open Sys2Proof.Machine

theorem bootDecide_flags (s : State) :
    FlagsKept { s with glob := { s.glob with boot := false, minoffAfterBoot := false } } (bootDecide s) := by
  unfold bootDecide
  generalize hd : disarm .fwBootTimeout { s with glob := { s.glob with boot := false, minoffAfterBoot := false } } = d
  have hg : GlobKept { s with glob := { s.glob with boot := false, minoffAfterBoot := false } } d := by rw [← hd]; exact .of_eq rfl
  dsimp only
  split
  · rename_i h
    exact (hg.trans (settle_globKept_of_not_start (by simp [h]) (by simp [h]))).flags
  · split
    · exact (hg.trans (GlobKept.of_eq (arm_glob _ _ _))).flags
    · exact hg.flags.trans (decideStart_flags d)

/-- Floor mode at the boot: its flags, whatever the state it leads to. -/
theorem floorBoot_flags (n : Nat) (s : State) : (floorBoot n s).glob.floor = true ∧ (floorBoot n s).glob.floorcause = n ∧
    (floorBoot n s).glob.boot = false ∧ (floorBoot n s).glob.fwup = false ∧
    (floorBoot n s).glob.rstcause = setBit s.glob.rstcause 10 true := by
  unfold floorBoot
  generalize hf : ({ s with glob := { s.glob with floor := true, floorcause := n, fwup := false, rstcause := setBit s.glob.rstcause 10 true } } : State) = f
  have gf : f.glob = { s.glob with floor := true, floorcause := n, fwup := false, rstcause := setBit s.glob.rstcause 10 true } := by rw [← hf]
  dsimp only
  have hl (u : State) : (floorLoad u).glob = u.glob := (floorLoad_leaves u (.refl _ _)).same .glob (by decide)
  have hp (u : State) : (pilotPassive u).glob = u.glob := (pilotPassive_leaves u (.refl _ _)).same .glob (by decide)
  have h := bootDecide_flags (pilotPassive (floorLoad { f with glob := { f.glob with floorTab := true } }))
  unfold FlagsKept at h
  rw [hp, hl] at h
  rw [h, gf]
  exact ⟨rfl, rfl, rfl, rfl, rfl⟩

theorem bootEnd_floor (s : State) (b : BootInfo) (n : Nat) (hb : s.glob.boot = true) (a : anvilOn s = true) (hf : s.glob.floor = false)
    (h : (n = 2 ∧ (fuse s.otp.shd 6 0).getLsbD 0 = true) ∨ (n = 5 ∧ (fuse s.otp.shd 6 0).getLsbD 0 = false ∧ b.flashOk = false) ∨
      (n = 1 ∧ (fuse s.otp.shd 6 0).getLsbD 0 = false ∧ b.flashOk = true ∧ romBoot s = none)) :
    exec (.bootEnd b) s = .next (floorBoot n s) := by
  show execBootEnd b s = _
  rcases h with ⟨rfl, h⟩ | ⟨rfl, h, k⟩ | ⟨rfl, h, k, r⟩
  · simp only [execBootEnd, hb, a, hf, h, Bool.not_true, Bool.or_self, Bool.false_eq_true, if_false, if_true]
  · simp only [execBootEnd, hb, a, hf, h, k, Bool.not_true, Bool.not_false, Bool.or_self, Bool.false_eq_true, if_false, if_true]
  · simp only [execBootEnd, hb, a, hf, h, k, r, Bool.not_true, Bool.or_self, Bool.false_eq_true, if_false]

theorem bootEnd_slot (s : State) (b : BootInfo) (jrn : Bool) (u : State) (hb : s.glob.boot = true) (a : anvilOn s = true)
    (hf : s.glob.floor = false) (h : (fuse s.otp.shd 6 0).getLsbD 0 = false) (k : b.flashOk = true) (r : romBoot s = some (jrn, u)) :
    exec (.bootEnd b) s = .next (slotBoot b jrn (verifySlots u)) := by
  show execBootEnd b s = _
  simp only [execBootEnd, hb, a, hf, h, k, r, Bool.not_true, Bool.or_self, Bool.false_eq_true, if_false]

/-! The timeout of a release. -/

theorem fwBootTimeout_first (s : State) (hr : s.glob.boot = true ∨ s.glob.restarting = true) (a : anvilOn s = true)
    (u : s.glob.fwup = false) (f : s.glob.floor = false) (z : s.glob.fwFails = 0) : Ends .fwBootTimeout s (fun t =>
      t.glob = { s.glob with fwFails := 1 } ∧ ⟨s.clk.now + ms 50, .fwBootTimeout⟩ ∈ t.clk.timers ∧ Only [.glob, .clk] s t) := by
  have hr' : (s.glob.boot || s.glob.restarting) = true := by rcases hr with h | h <;> simp [h]
  have e : exec .fwBootTimeout s = .next (arm (ms 50) .fwBootTimeout
      { disarm .fwBootTimeout s with glob := { s.glob with fwFails := 1 } }) := by
    show execFwBootTimeout s = _
    simp [execFwBootTimeout, hr', a, u, f, z]
  exact .of_eq e ⟨rfl, by simp [mem_timers_arm], by simp [only_iff]⟩

theorem fwBootTimeout_floor (s : State) (hb : s.glob.boot = true) (a : anvilOn s = true) (u : s.glob.fwup = false)
    (f : s.glob.floor = false) (z : 1 ≤ s.glob.fwFails) : Ends .fwBootTimeout s (fun t =>
      t.glob.floor = true ∧ t.glob.floorcause = 3 ∧ t.glob.boot = false) := by
  have e : exec .fwBootTimeout s = .next (floorBoot 3 (disarm .fwBootTimeout s)) := by
    show execFwBootTimeout s = _
    have : ¬ s.glob.fwFails = 0 := by omega
    simp [execFwBootTimeout, hb, a, u, f, this]
  obtain ⟨h1, h2, h3, -, -⟩ := floorBoot_flags 3 (disarm .fwBootTimeout s)
  exact .of_eq e ⟨h1, h2, h3⟩

/-- A state entered from one with the same flags. -/
theorem flags_entered {s v : State} (h : v.glob = s.glob) (n : St) : FlagsKept s (enterState n v) :=
  ((GlobKept.of_eq h).trans (enterState_globKept n v)).flags

theorem floorLeave_flags (s : State) : FlagsKept s (floorLeave s) := by
  unfold floorLeave
  extract_lets asked p u p2 v q1 q2
  have hu : u.glob = s.glob := rfl
  have hv : FlagsKept s v := flags_entered (v := { u with pwr := { p2 with idle := false } }) hu .stop
  clear_value v
  split
  · split
    · exact (hv.trans (GlobKept.of_eq (by rfl)).flags).trans (startCheck_flags _)
    · exact (flags_entered (by exact hu) .run).trans (wdArm_leaves _ (.refl _ _)).globKept.flags
  · split
    · exact (GlobKept.of_eq hu).flags
    · exact (GlobKept.of_eq hu).flags

/-- Floor mode entered while the device ran: its flags. -/
theorem floorRunning_flags (n : Nat) (s : State) : (floorRunning n s).glob.floor = true ∧ (floorRunning n s).glob.floorcause = n ∧
    (floorRunning n s).glob.boot = false := by
  unfold floorRunning
  generalize disarm .fwBootTimeout (islandRestart s) = d
  dsimp only
  generalize hv : putPlain (key 0x4C 0) (hBytes _ 0x4C 1) _ = v
  have gv : v.glob.floor = true ∧ v.glob.floorcause = n ∧ v.glob.boot = false := by
    rw [← hv]
    exact ⟨rfl, rfl, rfl⟩
  clear hv
  have gc : (chgFloor (chgCell d) v).glob = v.glob := (chgFloor_leaves _ v (.refl _ _)).same .glob (by decide)
  have h := floorLeave_flags (chgFloor (chgCell d) v)
  unfold FlagsKept at h
  rw [h, gc]
  exact gv

theorem fwBootTimeout_running (s : State) (hr : s.glob.restarting = true) (hb : s.glob.boot = false) (a : anvilOn s = true)
    (u : s.glob.fwup = false) (f : s.glob.floor = false) (z : 1 ≤ s.glob.fwFails) : Ends .fwBootTimeout s (fun t =>
      t.glob.floor = true ∧ t.glob.floorcause = 3 ∧ t.glob.boot = false) := by
  have e : exec .fwBootTimeout s = .next (floorRunning 3 (disarm .fwBootTimeout s)) := by
    show execFwBootTimeout s = _
    have : ¬ s.glob.fwFails = 0 := by omega
    simp [execFwBootTimeout, hb, hr, a, u, f, this]
  exact .of_eq e (floorRunning_flags 3 _)

/-- Settles O5: Floor mode's flags outlive what follows them (`bootDecide_flags`, `floorLeave_flags`). -/
theorem bootOutcomes : Obligations.BootOutcomes := by
  unfold Obligations.BootOutcomes
  refine ⟨fun s b n hb a hf h => .of_eq (bootEnd_floor s b n hb a hf h) (floorBoot_flags n s), bootEnd_slot,
    fun s hb a u f z => fwBootTimeout_first s (.inl hb) a u f z, fwBootTimeout_floor,
    fun s hr _ a u f z => fwBootTimeout_first s (.inr hr) a u f z, fwBootTimeout_running⟩

end Sys2Proof
end

section
/-! Reactions that a start timeout of the same step joins. -/

namespace Sys2Proof

open Sys2Proof.Machine

/-- What a command ends with, where it ends with a state. -/
def endsIn (p : State → Bool) : Host.Outcome State Fault Refusal → Bool
  | .next t => p t
  | _ => false

theorem endsIn_of {p : State → Bool} {c : Instr} {s t : State} (h : endsIn p (exec c s) = true) (e : exec c s = .next t) : p t = true := by
  rw [e] at h
  exact h

/-- A device in RUN, served, from the reset state. -/
def inRun : State := { State.reset with
  clk.now := 2000000000, glob.supplied := true, glob.vaonOk := true, glob.clocked := true, glob.boot := false, glob.fwup := true,
  glob.st := .run, glob.vsys := 3700, otp.sensed := true }

/-- Load switch 0 (rail 17) is on and power-good; rail 18 depends on it, is on without power-good, and its start timeout, whose reaction is
RESET, expires in this step. No rail counts as up: the invariants of Obligations.PartsStaySound exclude such a state, these obligations do not. -/
def lateStart : State := { putLive (key 0x21 18) [0x91] (putLive (rx 18 2) [5] (putLive (rx 17 1) [0] inRun)) with
  rl.en := bit 17 ||| bit 18, rl.clamp := bit 17, rl.pgd := bit 17, rl.pg := bit 17, pending := [.starttmo 18] }

/-- Refutes O16: with a load switch's limit the start timeout of its dependant acts, and its RESET takes the pending OCFAST away. -/
theorem not_railFaults : ¬ Obligations.RailFaults := by
  unfold Obligations.RailFaults
  intro h
  obtain ⟨-, -, -, -, -, -, -, -, h, -⟩ := h
  obtain ⟨t, e, -, -, p⟩ := h lateStart 17 1 false ⟨by decide +kernel, by decide +kernel, by decide +kernel⟩ (by decide +kernel) (by decide +kernel) (by decide +kernel)
    (by decide +kernel) (.inl (by decide +kernel)) (by decide)
  have r : endsIn (fun t => !isPend t (16 * 17 + 2)) (exec (.ocfast ⟨17, 1, false⟩) lateStart) = true := by decide +kernel
  have := endsIn_of r e
  rw [Bool.not_eq_true'] at this
  exact absurd p (by rw [show ((17 : Rail).val) = 17 from rfl, this]; decide)

/-- Refutes O17: with a load switch's overload the start timeout of its dependant acts, and its RESET takes the pending OCSLOW away. -/
theorem not_overload : ¬ Obligations.Overload := by
  unfold Obligations.Overload
  intro h
  obtain ⟨-, -, -, -, -, -, h, -⟩ := h
  obtain ⟨t, e, -, -, p⟩ := h lateStart 17 ⟨by decide +kernel, by decide +kernel, by decide +kernel⟩ (by decide +kernel) (by decide +kernel) (by decide +kernel) (by decide +kernel)
    (by decide +kernel) (by decide +kernel) (.inl (by decide +kernel))
  have r : endsIn (fun t => !isPend t (16 * 17 + 3)) (exec (.ocslow 17) lateStart) = true := by decide +kernel
  have := endsIn_of r e
  rw [Bool.not_eq_true'] at this
  exact absurd p (by rw [show ((17 : Rail).val) = 17 from rfl, this]; decide)

/-- Rail 5 is on and power-good, with the reaction OFF to UV; rail 6 depends on it, is on without power-good, and its start timeout, whose
reaction is OFF too, expires in this step. -/
def joinedStart : State := { putLive (key 0x21 6) [0x85] (putLive (rx 6 2) [2] (putLive (rx 5 0) [2] inRun)) with
  rl.en := bit 5 ||| bit 6, rl.pgd := bit 5, rl.pg := bit 5, rl.up := bit 5 ||| bit 6, pending := [.starttmo 6] }

/-- Refutes O18: the start timeout of a dependant that the step reaches joins it (R160, R161), so that its rail is held off as well. -/
theorem not_reactions : ¬ Obligations.Reactions := by
  unfold Obligations.Reactions
  intro h
  obtain ⟨t, e, -, -, -, -, -, -, -, -, ho, -⟩ := h.1 joinedStart 5 0 2 ⟨by decide +kernel, by decide +kernel, by decide +kernel⟩ (by decide +kernel) (by decide +kernel)
    (by decide +kernel) (by decide +kernel) (by decide +kernel) (by decide +kernel) (by decide +kernel) (by decide +kernel) (.inl rfl)
  have r : endsIn (fun t => decide (t.seq.offhold ≠ joinedStart.seq.offhold ||| members joinedStart 5 2 false)) (exec (.uv 5 0) joinedStart) = true := by
    decide +kernel
  exact of_decide_eq_true (endsIn_of r e) ho

end Sys2Proof
end

section
/-! Ramps, strike and braking. -/

namespace Sys2Proof

open Sys2Proof.Machine

theorem breach_left (s : State) : Leaves [.qt] s (breach s) := breach_leaves s (.refl _ s)
@[simp] theorem breach_bk (s : State) : (breach s).bk = s.bk := (breach_left s).same .bk (by decide)
@[simp] theorem breach_rl (s : State) : (breach s).rl = s.rl := (breach_left s).same .rl (by decide)
@[simp] theorem breach_regs (s : State) : (breach s).regs = s.regs := (breach_left s).same .regs (by decide)
@[simp] theorem anvilOn_breach (s : State) : anvilOn (breach s) = anvilOn s :=
  by rw [anvilOn, anvilOn, (breach_left s).same .glob (by decide), (breach_left s).same .otp (by decide)]

theorem chan_ofNat (c : Chan) : (Fin.ofNat 4 c.val : Chan) = c := Fin.ext (Nat.mod_eq_of_lt c.isLt)

theorem has_bit_self {r : Nat} (h : r < 32) : has (bit r) r = true := by simp [has, bit, h]
theorem has_or_bit (m : Mask) {r : Nat} (h : r < 32) : has (m ||| bit r) r = true := by rw [has_or, has_bit_self h, Bool.or_true]

/-- A rail becomes power-good: outside the reverse sequence nothing else of the rails changes. -/
theorem becomePg_rl (r : Nat) {s : State} (h : s.glob.st ≠ .stop) :
    (becomePg r s).rl = { s.rl with pg := s.rl.pg ||| bit r, pgd := s.rl.pgd ||| bit r } := by
  unfold becomePg
  dsimp only
  generalize hu : arm (sec 10) (.retryCountClear (railF r)) (disarm (.starttmo (railF r)) (disarm (.extpgdly (Fin.ofNat 7 (r - 25))) _)) = u
  have iu : u.rl = { s.rl with pg := s.rl.pg ||| bit r, pgd := s.rl.pgd ||| bit r } ∧ u.glob = s.glob := by rw [← hu]; exact ⟨rfl, rfl⟩
  clear hu
  generalize hv : (if r ≠ 0 then u else if u.chg.holdoff then arm (ms 300) (.chargerHoldoffEnd none) u else chgSettle u) = v
  have lv' : Leaves [.clk, .free, .chg] u v := by
    rw [← hv]
    split
    · exact .refl _ u
    · split
      · exact (Leaves.refl _ u).then (arm_leaves _ _ u (.refl _ _)) (by decide)
      · exact chgSettle_leaves u (.refl _ u)
  have key (w : State) (hw : Leaves [.ds] v w) : (settle w).rl = { s.rl with pg := s.rl.pg ||| bit r, pgd := s.rl.pgd ||| bit r } := by
    have hst : w.glob.st ≠ .stop := by rw [hw.st, lv'.st, iu.2]; exact h
    have h1 : (settle w).rl = w.rl := (settle_leaves w hst (.refl _ w)).same .rl (by decide)
    have h2 : w.rl = v.rl := hw.same .rl (by decide)
    have h3 : v.rl = u.rl := lv'.same .rl (by decide)
    rw [h1, h2, h3, iu.1]
  split
  · exact key _ (.of_only (by simp [only_iff]) rfl)
  · exact key v (.refl _ v)

/-! Ramps. -/

theorem stageEnableDelay_ramps (s : State) (c : Chan) (en : has s.rl.en (1 + c) = true) (ss : has s.rl.ss (1 + c) = true)
    (h : armed (.rampEnd (railF (1 + c))) s = false) :
    exec (.stageEnableDelay c) s = .next (startRamp (1 + c) (disarm (.stageEnableDelay c) s)) := by
  show execStageEnableDelay c s = _
  have h' : armed (.rampEnd (railF (1 + c))) (disarm (.stageEnableDelay c) s) = false := by rw [armed_disarm_ne (by simp)]; exact h
  unfold execStageEnableDelay
  dsimp only
  rw [if_pos]
  simp [en, ss, h']

/-- The state in which a ramp has ended. -/
def rampEnded (r : Rail) (s : State) : State :=
  { disarm (.rampEnd r) s with rl := { s.rl with
      ss := s.rl.ss &&& ~~~(bit r.val), soft := s.rl.soft &&& ~~~(bit r.val)
      ramps := mput {} s.rl.ramps r.val { mget {} s.rl.ramps r.val with
        v0 := (mget {} s.rl.ramps r.val).v1, t0 := (mget {} s.rl.ramps r.val).t1
        pre := if (mget {} s.rl.ramps r.val).pre < (mget {} s.rl.ramps r.val).v1 then 0 else (mget {} s.rl.ramps r.val).pre } } }

theorem exec_rampEnd {s : State} {r : Rail} (en : has s.rl.en r.val = true) (ss : has s.rl.ss r.val = true) :
    exec (.rampEnd r) s = .next (if decide (rk r.val = .gb) && !snsen (lv (rampEnded r s)) (ci r.val) && canPg (rampEnded r s) r.val
      then becomePg r.val (rampEnded r s) else rampEnded r s) := by
  show execRampEnd r s = _
  unfold execRampEnd
  dsimp only
  rw [if_neg (by simp [en, ss])]
  rfl

theorem rampEnd_ends (s : State) (r : Rail) (en : has s.rl.en r.val = true) (ss : has s.rl.ss r.val = true) (h : rk r.val ≠ .gb) :
    Ends (.rampEnd r) s (fun t => t.rl.ss = s.rl.ss &&& ~~~(bit r.val) ∧ t.rl.en = s.rl.en ∧ t.rl.pg = s.rl.pg ∧ Only [.rl, .clk] s t) := by
  refine .of_eq (exec_rampEnd en ss) ?_
  rw [if_neg (by simp [h])]
  exact ⟨rfl, rfl, rfl, by simp [rampEnded, only_iff]⟩

theorem rk_gb (c : Chan) : rk (21 + c.val) = .gb := by
  have := c.isLt
  rw [rk, if_neg (by omega), if_neg (by omega), if_neg (by omega), if_neg (by omega), if_neg (by omega), if_neg (by omega), if_pos (by omega)]

theorem ci_gb (c : Chan) : ci (21 + c.val) = c.val := by
  have := c.isLt
  rw [ci, if_neg (by omega), if_pos (by omega)]
  omega

theorem railF_val {n : Nat} (h : n < 32) : (railF n).val = n := Nat.mod_eq_of_lt h

theorem rampEnd_powerGood (s : State) (c : Chan) (run : Running s) (en : has s.rl.en (21 + c) = true) (ss : has s.rl.ss (21 + c) = true)
    (hs : snsen (lv s) c.val = false) (hv : s.bk.vlow.getLsbD c.val = false) (hp : has s.rl.pg (21 + c) = false) :
    Ends (.rampEnd (railF (21 + c))) s (fun t =>
      has t.rl.ss (21 + c) = false ∧ t.rl.en = s.rl.en ∧ has t.rl.pg (21 + c) = true) := by
  obtain ⟨a, st, -⟩ := run
  have hc := c.isLt
  have v : (railF (21 + c)).val = 21 + c.val := railF_val (by omega)
  refine .of_eq (exec_rampEnd (by rw [v]; exact en) (by rw [v]; exact ss)) ?_
  have can : canPg (rampEnded (railF (21 + c)) s) (21 + c) = true := by
    have h1 : anvilOn (rampEnded (railF (21 + c)) s) = true := a
    have h2 : has (rampEnded (railF (21 + c)) s).rl.ss (21 + c) = false := by simp only [rampEnded, v]; exact has_not_bit _ _
    have h3 : stopped (rampEnded (railF (21 + c)) s) (21 + c) = false := by simp only [stopped, rk_gb, ci_gb]; exact hv
    have h4 : has (rampEnded (railF (21 + c)) s).rl.en (21 + c) = true := en
    have h5 : has (rampEnded (railF (21 + c)) s).rl.pg (21 + c) = false := hp
    simp [canPg, h1, h2, h3, h4, h5]
  have hs' : snsen (lv (rampEnded (railF (21 + c)) s)) (ci (21 + c)) = false := by rw [ci_gb]; exact hs
  rw [v, if_pos (by simp [rk_gb, hs', can])]
  have hst : (rampEnded (railF (21 + c)) s).glob.st ≠ .stop := by
    show s.glob.st ≠ .stop
    simp [st]
  rw [becomePg_rl _ hst]
  refine ⟨?_, rfl, has_or_bit _ (by omega)⟩
  simp only [rampEnded, v]
  exact has_not_bit _ _

/-! Strike. -/

/-- What a strike leaves of the rails and blocks. -/
theorem startStrike_spec (c : Chan) {s : State} (a : anvilOn s = true) : (startStrike c.val s).bk = { s.bk with
      strk := setBit s.bk.strk c.val true
      strkn := mput 0 s.bk.strkn c.val (BitVec.ofNat 16 (satAdd 0xFFFF 1 (mget 0 s.bk.strkn c.val).toNat)) } ∧
    (startStrike c.val s).rl = { s.rl with
      shed := s.rl.shed &&& ~~~(bit (1 + c.val))
      ramps := mput {} s.rl.ramps (1 + c.val) { mget {} s.rl.ramps (1 + c.val) with pre := 0 } } ∧
    isPend (startStrike c.val s) (16 * (1 + c.val) + 13) = true ∧ Only ([.bk, .rl, .qt] ++ raiseParts) s (startStrike c.val s) := by
  unfold startStrike
  dsimp only
  generalize hb : BitVec.ofNat 16 (satAdd 0xFFFF 1 (mget 0 s.bk.strkn c.val).toNat) = n
  generalize hu : arm _ (.strikeEnd (Fin.ofNat 4 c.val)) (preOver (1 + c.val) _) = u
  have bu : u.bk = { s.bk with strk := setBit s.bk.strk c.val true, strkn := mput 0 s.bk.strkn c.val n } := by rw [← hu]; rfl
  have ru : u.rl = { s.rl with
      shed := s.rl.shed &&& ~~~(bit (1 + c.val))
      ramps := mput {} s.rl.ramps (1 + c.val) { mget {} s.rl.ramps (1 + c.val) with pre := 0 } } := by rw [← hu]; rfl
  have ou : Only [.bk, .rl, .clk] s u := by rw [← hu]; simp [only_iff, preOver]
  have au : anvilOn u = true := by rw [← hu]; exact a
  clear hu
  refine ⟨by simp [bu], by simp [ru], isPend_raiseG_self (by rw [anvilOn_breach]; exact au) _ _, ?_⟩
  exact (ou.weaken (by decide)).trans (((raiseG_leaves _ _ _ (breach_left u)).only).weaken (by decide))

theorem satCount_toNat (n : Word) : (BitVec.ofNat 16 (satAdd 0xFFFF 1 n.toNat)).toNat = min 0xFFFF (1 + n.toNat) := by
  rw [BitVec.toNat_ofNat, Nat.mod_eq_of_lt]
  · rfl
  · unfold satAdd
    omega

theorem preBiased_of_zero {s : State} {r : Nat} (h : (mget {} s.rl.ramps r).pre = 0) : preBiased s r = false := by
  simp [preBiased, h]

theorem transientArmed_anvil {s : State} {c b : Nat} (h : transientArmed s c b = true) : anvilOn s = true := by
  simp only [transientArmed, Bool.and_eq_true] at h
  exact h.1.1.1

theorem strike_begins (s : State) (c : Chan) (h : transientArmed s c.val 4 = true) (h1 : s.bk.strk.getLsbD c.val = false)
    (h2 : s.bk.blkS.getLsbD c.val = false) : Ends (.strike c) s (fun t => t.bk.strk = setBit s.bk.strk c.val true ∧
      (mget 0 t.bk.strkn c.val).toNat = min 0xFFFF (1 + (mget 0 s.bk.strkn c.val).toNat) ∧
      t.rl = { s.rl with shed := s.rl.shed &&& ~~~(bit (1 + c.val)), ramps := t.rl.ramps } ∧ preBiased t (1 + c.val) = false ∧
      isPend t (16 * (1 + c.val) + 13) = true ∧ Only ([.bk, .rl, .qt] ++ raiseParts) s t) := by
  have e : exec (.strike c) s = .next (startStrike c.val s) := by
    show execStrike c s = _
    exact congrArg Host.Outcome.next (if_pos (by rw [h, h1, h2]; rfl))
  obtain ⟨hb, hr, hp, ho⟩ := startStrike_spec c (transientArmed_anvil h)
  refine .of_eq e ⟨by rw [hb], ?_, by rw [hr], preBiased_of_zero ?_, hp, ho⟩
  · rw [hb]
    show (mget 0 (mput 0 s.bk.strkn c.val _) c.val).toNat = _
    rw [mget_mput_same, satCount_toNat]
  · rw [hr]
    show (mget {} (mput {} s.rl.ramps (1 + c.val) _) (1 + c.val)).pre = 0
    rw [mget_mput_same]

theorem foldl_only {α : Type} {l : List Part} {f : State → α → State} (h : ∀ s x, Only l s (f s x)) (xs : List α) (s : State) :
    Only l s (xs.foldl f s) := by
  induction xs generalizing s with
  | nil => exact Only.refl l s
  | cons x xs ih => exact (h s x).trans (ih _)

theorem accountStrike_only (c dt : Nat) (s : State) : Only [.pat] s (accountStrike c dt s) := by
  unfold accountStrike
  dsimp only
  split
  · refine foldl_only (fun u i => ?_) _ s
    split
    · simp [only_iff]
    · exact Only.refl _ u
  · exact Only.refl _ s

theorem strikeOver_spec (c : Nat) {s : State} (h : s.bk.strk.getLsbD c = true) : Only [.bk, .pat, .clk] s (strikeOver c s) ∧
    (strikeOver c s).bk = { s.bk with strk := setBit s.bk.strk c false } ∧ (strikeOver c s).clk.now = s.clk.now ∧
    (strikeOver c s).rl = s.rl := by
  unfold strikeOver
  rw [if_neg (by simp [h])]
  dsimp only
  generalize hk : accountStrike c _ s = k
  have hc : Only [.pat] s k := by rw [← hk]; exact accountStrike_only _ _ _
  have kb : k.bk = s.bk := hc .bk (by decide)
  have kc : k.clk = s.clk := hc .clk (by decide)
  have kr : k.rl = s.rl := hc .rl (by decide)
  refine ⟨(hc.weaken (by decide)).trans (by simp [only_iff]), by simp [kb], by simp [kc], by simp [kr]⟩

theorem strikeEnd_blanks (s : State) (c : Chan) (h : s.bk.strk.getLsbD c.val = true) : Ends (.strikeEnd c) s (fun t =>
    t.bk.strk = setBit s.bk.strk c.val false ∧ t.bk.blkS = setBit s.bk.blkS c.val true ∧ t.bk.blkB = setBit s.bk.blkB c.val true ∧
    Armed (us 2) (.blankingEnd c .strike none) s t ∧ Only [.bk, .pat, .clk] s t) := by
  obtain ⟨ho, hb, hn, -⟩ := strikeOver_spec c.val h
  generalize hw : arm (us 2) (.blankingEnd c .strike none) (arm (us 1) (.blankingEnd c .brake none) { strikeOver c.val s with bk := { (strikeOver c.val s).bk with
    blkS := setBit (strikeOver c.val s).bk.blkS c.val true, blkB := setBit (strikeOver c.val s).bk.blkB c.val true } }) = w
  have e : exec (.strikeEnd c) s = .next (if has w.rl.overlap (1 + c.val) then
      arm (overlapTime w (1 + c.val)) (.swapOverlapEnd (.phases (Fin.ofNat 5 (1 + c.val)))) w else w) := by
    rw [← hw]
    show execStrikeEnd c s = _
    unfold execStrikeEnd
    rw [if_neg (by simp [h])]
  have bw : w.bk = { s.bk with strk := setBit s.bk.strk c.val false, blkS := setBit s.bk.blkS c.val true, blkB := setBit s.bk.blkB c.val true } := by
    rw [← hw]
    simp [hb]
  have ow : Only [.bk, .pat, .clk] s w := by rw [← hw]; exact ho.trans (by simp [only_iff])
  have aw : Armed (us 2) (.blankingEnd c .strike none) s w := by
    rw [← hw]
    simp [Armed, mem_timers_arm, hn]
  clear hw
  refine .of_eq e ?_
  split
  · refine ⟨by simp [bw], by simp [bw], by simp [bw], ?_, ow.trans (by simp [only_iff])⟩
    rw [Armed, mem_timers_arm]
    exact .inl ⟨aw, by simp⟩
  · exact ⟨by rw [bw], by rw [bw], by rw [bw], aw, ow⟩

/-! Braking. -/

theorem startBrake_spec (c : Chan) {s : State} : (startBrake c.val s).bk = { s.bk with brk := setBit s.bk.brk c.val true } ∧
    armed (.brakeEnd c) (startBrake c.val s) = true ∧ Only ([.bk, .qt] ++ raiseParts) s (startBrake c.val s) := by
  unfold startBrake
  rw [chan_ofNat]
  dsimp only
  generalize hu : arm _ (.brakeEnd c) _ = u
  have bu : u.bk = { s.bk with brk := setBit s.bk.brk c.val true } := by rw [← hu]; rfl
  have au : armed (.brakeEnd c) u = true := by rw [← hu]; exact armed_arm _ _ _
  have ou : Only [.bk, .clk] s u := by rw [← hu]; simp [only_iff]
  clear hu
  have tu : Times u (breach u) := (breach_left u).times
  exact ⟨by rw [breach_bk, bu], by rw [tu.armed (by cases c; rfl)]; exact au, (ou.weaken (by decide)).trans ((breach_left u).only.weaken (by decide))⟩

theorem brake_begins (s : State) (c : Chan) (h : transientArmed s c.val 6 = true) (h1 : s.bk.brk.getLsbD c.val = false)
    (h2 : s.bk.blkB.getLsbD c.val = false) : Ends (.brake c) s (fun t => t.bk = { s.bk with brk := setBit s.bk.brk c.val true } ∧
      armed (.brakeEnd c) t = true ∧ Only ([.bk, .qt] ++ raiseParts) s t) := by
  refine .of_eq (t := startBrake c.val s) ?_ (startBrake_spec c)
  show execBrake c s = _
  exact congrArg Host.Outcome.next (if_pos (by rw [h, h1, h2]; rfl))

theorem brakeEnd_blanks (s : State) (c : Chan) (h : s.bk.brk.getLsbD c.val = true) : Ends (.brakeEnd c) s (fun t =>
    t.bk = { s.bk with brk := setBit s.bk.brk c.val false, blkS := setBit s.bk.blkS c.val true, blkB := setBit s.bk.blkB c.val true } ∧
    Armed (us 1) (.blankingEnd c .brake none) s t ∧ Only [.bk, .clk] s t) := by
  refine .of_eq (t := arm (us 1) (.blankingEnd c .strike none) (arm (us 1) (.blankingEnd c .brake none) (disarm (.brakeEnd c) { s with
    bk := { s.bk with brk := setBit s.bk.brk c.val false, blkS := setBit s.bk.blkS c.val true, blkB := setBit s.bk.blkB c.val true } }))) ?_ ?_
  · show execBrakeEnd c s = _
    simp [execBrakeEnd, h]
  · refine ⟨rfl, ?_, by simp [only_iff]⟩
    rw [Armed, mem_timers_arm, mem_timers_arm]
    exact .inl ⟨.inr rfl, by simp⟩

/-! Blanking. -/

theorem blankingEnd_strike (s : State) (c : Chan) (o : Option Bool) (h : o ≠ some true) : Ends (.blankingEnd c .strike o) s (fun t =>
    t.bk = { s.bk with blkS := setBit s.bk.blkS c.val false } ∧ Only [.bk, .clk] s t) := by
  refine .of_eq (t := { disarm (.blankingEnd c .strike none) s with bk := { s.bk with blkS := setBit s.bk.blkS c.val false } }) ?_
    ⟨rfl, by simp [only_iff]⟩
  show execBlankingEnd c .strike o s = _
  simp [execBlankingEnd, h]

theorem blankingEnd_brake (s : State) (c : Chan) (o : Option Bool) (h : o ≠ some true) : Ends (.blankingEnd c .brake o) s (fun t =>
    t.bk = { s.bk with blkB := setBit s.bk.blkB c.val false } ∧ Only [.bk, .clk] s t) := by
  refine .of_eq (t := { disarm (.blankingEnd c .brake none) s with bk := { s.bk with blkB := setBit s.bk.blkB c.val false } }) ?_
    ⟨rfl, by simp [only_iff]⟩
  show execBlankingEnd c .brake o s = _
  simp [execBlankingEnd, h]

theorem blankingEnd_strikes (s : State) (c : Chan) (h : transientArmed s c.val 4 = true) (h1 : s.bk.strk.getLsbD c.val = false) :
    Ends (.blankingEnd c .strike (some true)) s (fun t => t.bk.strk = setBit s.bk.strk c.val true ∧
      t.bk.blkS = setBit s.bk.blkS c.val false ∧ isPend t (16 * (1 + c.val) + 13) = true ∧ Only ([.bk, .rl, .qt] ++ raiseParts) s t) := by
  generalize hu : ({ disarm (.blankingEnd c .strike none) s with bk := { s.bk with blkS := setBit s.bk.blkS c.val false } } : State) = u
  have au : transientArmed u c.val 4 = true := by rw [← hu]; exact h
  have bu : u.bk = { s.bk with blkS := setBit s.bk.blkS c.val false } := by rw [← hu]
  have ou : Only [.bk, .clk] s u := by rw [← hu]; simp [only_iff]
  have e : exec (.blankingEnd c .strike (some true)) s = .next (startStrike c.val u) := by
    rw [← hu] at au ⊢
    show execBlankingEnd c .strike (some true) s = _
    unfold execBlankingEnd
    dsimp only
    exact congrArg Host.Outcome.next (if_pos ⟨rfl, au, (congrArg (! ·) h1 :)⟩)
  obtain ⟨hb, -, hp, ho⟩ := startStrike_spec c (transientArmed_anvil au)
  exact .of_eq e ⟨by rw [hb, bu], by rw [hb, bu], hp, (ou.weaken (by decide)).trans ho⟩

theorem blankingEnd_brakes (s : State) (c : Chan) (h : transientArmed s c.val 6 = true) (h1 : s.bk.brk.getLsbD c.val = false) :
    Ends (.blankingEnd c .brake (some true)) s (fun t => t.bk.brk = setBit s.bk.brk c.val true ∧
      t.bk.blkB = setBit s.bk.blkB c.val false ∧ Only ([.bk, .qt] ++ raiseParts) s t) := by
  generalize hu : ({ disarm (.blankingEnd c .brake none) s with bk := { s.bk with blkB := setBit s.bk.blkB c.val false } } : State) = u
  have au : transientArmed u c.val 6 = true := by rw [← hu]; exact h
  have bu : u.bk = { s.bk with blkB := setBit s.bk.blkB c.val false } := by rw [← hu]
  have ou : Only [.bk, .clk] s u := by rw [← hu]; simp [only_iff]
  have e : exec (.blankingEnd c .brake (some true)) s = .next (startBrake c.val u) := by
    rw [← hu] at au ⊢
    show execBlankingEnd c .brake (some true) s = _
    unfold execBlankingEnd
    dsimp only
    exact congrArg Host.Outcome.next (if_pos ⟨rfl, au, (congrArg (! ·) h1 :)⟩)
  obtain ⟨hb, -, ho⟩ := startBrake_spec c (s := u)
  exact .of_eq e ⟨by rw [hb, bu], by rw [hb, bu], (ou.weaken (by decide)).trans ho⟩

/-- Settles O19: strike and braking through what `startStrike` and `startBrake` write. -/
theorem transientControl : Obligations.TransientControl := by
  unfold Obligations.TransientControl
  exact ⟨stageEnableDelay_ramps, rampEnd_ends, rampEnd_powerGood, strike_begins, strikeEnd_blanks, brake_begins, brakeEnd_blanks,
    blankingEnd_strike, blankingEnd_brake, blankingEnd_strikes, blankingEnd_brakes⟩

end Sys2Proof
end

section
/-! Phases, stages, pass devices and their spares. -/

namespace Sys2Proof

open Sys2Proof.Machine

theorem phOf_setPh (r : Nat) (p : PhaseSt) (s : State) : phOf (setPh r p s) r = p := mget_mput_same ..
theorem ldoOf_setLdo (c : Nat) (l : LdoSt) (s : State) : ldoOf (setLdo c l s) c = l := mget_mput_same ..
theorem phOf_congr {s t : State} (h : t.bk = s.bk) (r : Nat) : phOf t r = phOf s r := by rw [phOf, phOf, h]
theorem ldoOf_congr {s t : State} (h : t.bk = s.bk) (c : Nat) : ldoOf t c = ldoOf s c := by rw [ldoOf, ldoOf, h]

/-- A phase that takes part in no overlap, failed. -/
def failedPhase (r p cause : Nat) (q : PhaseSt) : PhaseSt :=
  { q with fail := setBit q.fail p true, cause := if r = 0 then 0 else cause, spare := setBit q.spare p false }

/-- The state in which a phase that takes part in no overlap has failed, before the report. -/
def phaseFailed (r p cause : Nat) (s : State) : State :=
  { setPh r (failedPhase r p cause (phOf s r)) s with
    rl := { s.rl with shed := if count3 (healthy (failedPhase r p cause (phOf s r))) < 2 then s.rl.shed &&& ~~~(bit r) else s.rl.shed } }

theorem failPhase_eq {r : Nat} (p cause : Nat) {s : State} (h : has s.rl.overlap r = false) :
    failPhase r p cause s = raiseG r 7 (phaseFailed r p cause s) := by
  unfold failPhase
  simp only [h, Bool.false_and, Bool.false_eq_true, if_false]
  refine congrArg (raiseG r 7) ?_
  unfold phaseFailed
  by_cases hc : count3 (healthy (failedPhase r p cause (phOf s r))) < 2
  · rw [if_pos hc]
    exact if_pos hc
  · rw [if_neg hc]
    exact if_neg hc

theorem phaseFailed_phase (r p cause : Nat) (s : State) : phOf (phaseFailed r p cause s) r = failedPhase r p cause (phOf s r) :=
  phOf_setPh r _ s

theorem phaseFailed_only (r p cause : Nat) (s : State) : Only [.bk, .rl] s (phaseFailed r p cause s) := by
  simp [phaseFailed, setPh, only_iff]

theorem phaseFailed_anvil (r p cause : Nat) (s : State) : anvilOn (phaseFailed r p cause s) = anvilOn s := rfl

theorem phaseFailed_rl (r p cause : Nat) (s : State) : (phaseFailed r p cause s).rl =
    { s.rl with shed := if count3 (healthy (failedPhase r p cause (phOf s r))) < 2 then s.rl.shed &&& ~~~(bit r) else s.rl.shed } := rfl

theorem phaseflt_declares (s : State) (r : PhRail) (p : Phase) (cause : Fin 3) (a : anvilOn s = true)
    (sh : has s.rl.en r.val = true ∨ r.val ≠ 0 ∧ (cause.val = 0 ∨ cause.val = 1 ∧ has s.rl.qu r.val = true))
    (h : (phOf s r.val).fail.getLsbD p.val = false) (ov : has s.rl.overlap r.val = false) :
    Ends (.phaseflt (.phase r p cause)) s (fun t => (phOf t r.val).fail = setBit (phOf s r.val).fail p.val true ∧
      (phOf t r.val).spare = setBit (phOf s r.val).spare p.val false ∧
      t.rl = { s.rl with shed := if count3 (healthy (phOf t r.val)) < 2 then s.rl.shed &&& ~~~(bit r.val) else s.rl.shed } ∧
      isPend t (16 * r.val + 7) = true ∧ Only ([.bk, .rl] ++ raiseParts) s t) := by
  have shows' : causeShows s r.val (cause.val + 1) = true := by
    unfold causeShows
    rcases sh with h | ⟨h0, h | ⟨h, q⟩⟩
    · simp [h]
    · simp [h, h0]
    · simp [h, h0, q]
  have e : exec (.phaseflt (.phase r p cause)) s = .next (raiseG r.val 7 (phaseFailed r.val p.val (cause.val + 1) s)) := by
    rw [← failPhase_eq p.val (cause.val + 1) ov]
    exact congrArg Host.Outcome.next (if_pos (by rw [a, shows', h]; rfl))
  have ph := phaseFailed_phase r.val p.val (cause.val + 1) s
  have rl := phaseFailed_rl r.val p.val (cause.val + 1) s
  have au : anvilOn (phaseFailed r.val p.val (cause.val + 1) s) = true := a
  have ou := phaseFailed_only r.val p.val (cause.val + 1) s
  have nu : (phaseFailed r.val p.val (cause.val + 1) s).clk.now = s.clk.now := rfl
  generalize phaseFailed r.val p.val (cause.val + 1) s = u at e ph rl au ou nu
  refine .of_eq e ⟨?_, ?_, ?_, isPend_raiseG_self au _ _, (raiseG_leaves _ _ _ (.of_only ou nu)).only⟩
  · rw [phOf_congr (raiseG_bk ..), ph]; rfl
  · rw [phOf_congr (raiseG_bk ..), ph]; rfl
  · rw [phOf_congr (raiseG_bk ..), ph, raiseG_rl, rl]

/-! Pass devices. -/

theorem dropSwaps_left (p : Nat → Bool) (s : State) : Leaves [.pat] s (dropSwaps p s) := .of_only (by simp [dropSwaps, only_iff]) rfl

/-- What the failure of a pass device leaves. -/
theorem failPass_spec (c : Chan) (p1 o : Bool) {s : State} (a : anvilOn s = true) :
    ldoOf (failPass c.val p1 o s) c.val = { ldoOf s c.val with
      p0f := (ldoOf s c.val).p0f || !p1, p1f := (ldoOf s c.val).p1f || p1, pcause := if o then 1 else 2 } ∧
    has (failPass c.val p1 o s).rl.overlap (13 + c.val) = false ∧ isPend (failPass c.val p1 o s) (16 * (13 + c.val) + 7) = true ∧
    Only ([.bk, .rl, .pat] ++ raiseParts) s (failPass c.val p1 o s) ∧
    (has s.rl.overlap (13 + c.val) = false → Only ([.bk, .rl] ++ raiseParts) s (failPass c.val p1 o s)) := by
  unfold failPass
  dsimp only
  generalize hd : (if has s.rl.overlap (13 + c.val) = true then _ else s) = d
  have od : Leaves [.pat] s d := by
    rw [← hd]
    exact .ite (fun _ => dropSwaps_left _ s) (fun _ => .refl _ s)
  have dd : has s.rl.overlap (13 + c.val) = false → d = s := fun h => by rw [← hd, if_neg (by simp [h])]
  have ad : anvilOn d = true := by rw [anvilOn, od.same .glob (by decide), od.same .otp (by decide)]; exact a
  clear hd
  generalize hu : disarm (.swapOverlapEnd (.ldo (Fin.ofNat 4 c.val))) _ = u
  have au : anvilOn u = true := by rw [← hu]; exact ad
  have bu : ldoOf u c.val = { ldoOf s c.val with
      p0f := (ldoOf s c.val).p0f || !p1, p1f := (ldoOf s c.val).p1f || p1, pcause := if o then 1 else 2 } := by
    rw [← hu]
    exact ldoOf_setLdo c.val _ d
  have ru : has u.rl.overlap (13 + c.val) = false := by rw [← hu]; exact has_not_bit _ _
  have ou : Only [.bk, .rl, .clk] d u := by rw [← hu]; simp [setLdo, only_iff]
  have nu : u.clk.now = d.clk.now := by rw [← hu]; rfl
  clear hu
  have lu : Leaves [.bk, .rl, .clk] d u := .of_only ou nu
  refine ⟨(ldoOf_congr (raiseG_bk ..) _).trans bu, by rw [raiseG_rl]; exact ru, isPend_raiseG_self au _ _, ?_, fun h => ?_⟩
  · exact (raiseG_leaves (13 + c.val) 7 _ (((Leaves.refl [.bk, .rl, .pat, .clk] s).then od (by decide)).then lu (by decide))).only.weaken (by decide)
  · rw [dd h] at lu
    exact (raiseG_leaves (13 + c.val) 7 _ lu).only.weaken (by decide)

theorem passflt_driven (s : State) (c : Chan) (o : Bool) (a : anvilOn s = true) (sp : spareEn s c.val = true) (en : has s.rl.en (13 + c.val) = true)
    (ov : has s.rl.overlap (13 + c.val) = false) (h : (ldoOf s c.val).pass1 = false) (hf : (ldoOf s c.val).p0f = false) :
    Ends (.phaseflt (.pass c false o)) s (fun t => (ldoOf t c.val).p0f = true ∧ (ldoOf t c.val).p1f = (ldoOf s c.val).p1f ∧
      (ldoOf t c.val).pcause = (if o then 1 else 2) ∧ isPend t (16 * (13 + c.val) + 7) = true ∧ Only ([.bk, .rl] ++ raiseParts) s t) := by
  have e : exec (.phaseflt (.pass c false o)) s = .next (failPass c.val false o s) :=
    congrArg Host.Outcome.next (if_pos (by rw [a, sp, en, ov, h]; simp [hf]))
  obtain ⟨hl, -, hp, -, ho⟩ := failPass_spec c false o a
  exact .of_eq e ⟨by rw [hl]; simp, by rw [hl]; simp, by rw [hl], hp, ho ov⟩

theorem passflt_incoming (s : State) (c : Chan) (o : Bool) (a : anvilOn s = true) (sp : spareEn s c.val = true) (en : has s.rl.en (13 + c.val) = true)
    (ov : has s.rl.overlap (13 + c.val) = true) (hf : (ldoOf s c.val).p1f = false) :
    Ends (.phaseflt (.pass c true o)) s (fun t => (ldoOf t c.val).p1f = true ∧ (ldoOf t c.val).p0f = (ldoOf s c.val).p0f ∧
      (ldoOf t c.val).pcause = (if o then 1 else 2) ∧ has t.rl.overlap (13 + c.val) = false ∧ isPend t (16 * (13 + c.val) + 7) = true ∧
      Only ([.bk, .rl, .pat] ++ raiseParts) s t) := by
  have e : exec (.phaseflt (.pass c true o)) s = .next (failPass c.val true o s) :=
    congrArg Host.Outcome.next (if_pos (by rw [a, sp, en, ov]; simp [hf]))
  obtain ⟨hl, hr, hp, ho, -⟩ := failPass_spec c true o a
  exact .of_eq e ⟨by rw [hl]; simp, by rw [hl]; simp, by rw [hl], hr, hp, ho⟩

/-! Spares, stage faults and imbalance. -/

theorem sparein_phases (s : State) (r : PhRail) (a : anvilOn s = true) (en : has s.rl.en r.val = true) (hf : (phOf s r.val).fail ≠ 0)
    (hn : count3 (healthy (phOf s r.val)) < nph (lv s) r.val) (pop : sparepop (lv s) r.val = true)
    (hs : (phOf s r.val).spare &&& ~~~(phOf s r.val).fail ≠ 0) : Yields (.sparein (.phases r)) s
      (setPh r.val { (phOf s r.val) with spare := 0 } { s with rl := { s.rl with shed := s.rl.shed &&& ~~~(bit r.val) } }) [16 * r.val + 8] :=
  yields_raiseG a (congrArg Host.Outcome.next (if_pos (by rw [a, en, decide_eq_true hf, decide_eq_true hn, pop, decide_eq_true hs]; rfl)))

theorem sparein_pass (s : State) (c : Chan) (a : anvilOn s = true) (h : (ldoOf s c.val).pass1 = false) (h0 : (ldoOf s c.val).p0f = true)
    (h1 : (ldoOf s c.val).p1f = false) :
    Yields (.sparein (.ldo c)) s (setLdo c.val { (ldoOf s c.val) with pass1 := true } s) [16 * (13 + c.val) + 8] := by
  have e : exec (.sparein (.ldo c)) s = .next (raiseG (13 + c.val) 8 (setLdo c.val { ldoOf s c.val with pass1 := !(ldoOf s c.val).pass1 } s)) :=
    congrArg Host.Outcome.next (if_pos (by rw [a, h, h0, h1]; rfl))
  rw [h] at e
  exact yields_raiseG a e

theorem stgflt_rises (s : State) (c : Chan) (a : anvilOn s = true) (h : s.bk.stgflt.getLsbD c.val = false) : Yields (.stgflt ⟨c, true⟩) s
    { s with bk := { s.bk with stgflt := setBit s.bk.stgflt c.val true } } [16 * (1 + c.val) + 15] := by
  refine yields_raise a ?_
  show execStgflt ⟨c, true⟩ s = _
  rw [execStgflt]
  dsimp only
  rw [if_neg (by simp [a]), h]
  rfl

theorem stgflt_falls (s : State) (c : Chan) (a : anvilOn s = true) :
    exec (.stgflt ⟨c, false⟩) s = .next { s with bk := { s.bk with stgflt := setBit s.bk.stgflt c.val false } } := by
  show execStgflt ⟨c, false⟩ s = _
  rw [execStgflt]
  dsimp only
  rw [if_neg (by simp [a])]
  rfl

theorem imbal_raises (s : State) (r : Rail) (a : anvilOn s = true) (en : has s.rl.en r.val = true) (h : rk r.val = .pre ∨ rk r.val = .gb ∨
    rk r.val = .mph ∧ has s.rl.imbal r.val = false ∧ rdBits (lv s) (blk r.val + 0x11) 0 4 ≠ 0) : Yields (.imbal r) s
    { s with rl := { s.rl with imbal := s.rl.imbal ||| bit r.val, imbNow := s.rl.imbNow ||| bit r.val } } [16 * r.val + 14] := by
  refine yields_raiseG a ?_
  show execImbal r s = _
  rw [execImbal]
  dsimp only
  rw [if_pos]
  rcases h with h | h | ⟨h, hi, hb⟩
  · simp [h, a, en]
  · simp [h, a, en]
  · simp [h, a, en, hi, hb]

/-- Settles O20: each report by what the failed part or the spare leaves. -/
theorem phasesAndSpares : Obligations.PhasesAndSpares := by
  unfold Obligations.PhasesAndSpares
  exact ⟨phaseflt_declares, passflt_driven, passflt_incoming, sparein_phases, sparein_pass, stgflt_rises, stgflt_falls, imbal_raises,
    fun _ _ => rfl⟩

/-- Buck 5 is on and power-good; rail 6 depends on it, is on without power-good, and its start timeout, whose reaction is RESET, expires in
this step. No rail counts as up. -/
def hotStart : State := { putLive (key 0x21 6) [0x85] (putLive (rx 6 2) [5] (putLive (rx 5 2) [0] inRun)) with
  rl.en := bit 5 ||| bit 6, rl.pgd := bit 5, rl.pg := bit 5, pending := [.starttmo 6] }

/-- Refutes O21: with a hot spot the start timeout of its dependant acts, and its RESET takes the pending THLIM away. -/
theorem not_blockEvents : ¬ Obligations.BlockEvents := by
  unfold Obligations.BlockEvents
  intro h
  obtain ⟨-, -, -, -, -, h, -⟩ := h
  obtain ⟨t, e, -, -, -, -, p⟩ := h hotStart 5 ⟨by decide +kernel, by decide +kernel, by decide +kernel⟩ (.inl (by decide +kernel)) (by decide +kernel)
    (by decide +kernel) (.inl (by decide +kernel)) (by decide +kernel) (by decide +kernel)
  have r : endsIn (fun t => !isPend t (16 * 5 + 10)) (exec (.hotspot 5) hotStart) = true := by decide +kernel
  have := endsIn_of r e
  rw [Bool.not_eq_true'] at this
  exact absurd p (by rw [show ((5 : Rail).val) = 5 from rfl, this]; decide)

end Sys2Proof
end

section
/-! Rails enabled and taken down in sequence. -/

namespace Sys2Proof

open Sys2Proof.Machine

/-- Rail 1 is off and waits for its delay, and a strike of its block still runs, with a populated spare phase whose strike time counts. A
switch-off ends the strike of its rail, so that no step reaches such a state; the statement speaks of every state. -/
def struckWait : State := { setPh 1 { spare := 4 } (putLive (blk 1 + 2) [0x27] inRun) with bk.strk := 1, seq.wait := bit 1 }

/-- Refutes O22: the enable of a rail ends a strike of its block and accounts the spare's on-time, which is no part that the statement lets
change. -/
theorem not_sequencedRails : ¬ Obligations.SequencedRails := by
  unfold Obligations.SequencedRails
  intro h
  obtain ⟨t, e, -, -, -, -, -, -, o⟩ := h.1 struckWait 1 (by decide +kernel) (by decide +kernel) (by decide +kernel) (by decide +kernel) (by decide +kernel)
    (.inr (.inl (by decide +kernel))) (by decide +kernel)
  have same : t.pat = struckWait.pat := o .pat (by decide)
  have r : endsIn (fun t => decide (t.pat ≠ struckWait.pat)) (exec (.railEnable 1) struckWait) = true := by decide +kernel
  exact of_decide_eq_true (endsIn_of r e) same

end Sys2Proof
end

section
/-! SUPPORT. The sequencer's registers through the small operations, and the common start as it leaves them. -/

namespace Sys2Proof

open Sys2Proof.Machine

/-- The sequencer is as it was, event counts and release timers apart. -/
def SeqKept (s t : State) : Prop := t.seq = { s.seq with cnt := t.seq.cnt, rstRun := t.seq.rstRun }

theorem SeqKept.refl (s : State) : SeqKept s s := rfl

theorem SeqKept.trans {s t u : State} (h : SeqKept s t) (g : SeqKept t u) : SeqKept s u := by
  unfold SeqKept at *
  rw [g, h]

theorem SeqKept.of_eq {s t : State} (h : t.seq = s.seq) : SeqKept s t := by unfold SeqKept; rw [h]

theorem Leaves.seqKept {l : List Part} {s t : State} (h : Leaves l s t) (hl : .seq ∉ l := by decide) : SeqKept s t := by
  have e : { t.seq with cnt := [] } = { s.seq with cnt := [] } := h.marked .seq hl
  have : { t.seq with cnt := [] } = { { s.seq with cnt := t.seq.cnt, rstRun := t.seq.rstRun } with cnt := [] } := by
    rw [e]
    have r : t.seq.rstRun = s.seq.rstRun := congrArg (·.rstRun) e
    rw [r]
  unfold SeqKept
  cases ht : t.seq
  cases hs : s.seq
  simp_all

end Sys2Proof

namespace Sys2Proof.Machine

open Sys2Proof

/-- Where no rail is enabled for STANDBY's rounds, a change of state leaves housekeeping alone. -/
theorem enterState_left {n : St} {s : State} (h : s.glob.st ≠ .standby) : Leaves [.clk, .glob, .fl] s (enterState n s) := by
  by_cases e : s.glob.st = n
  · rw [enterState, if_pos e]; exact .refl _ s
  · rw [enterState, if_neg e]
    generalize satAdd 0xFFFFFF 1 = next
    extract_lets old g a b k c d e
    have ha : Leaves [.clk, .glob, .fl] s a := (Leaves.refl _ s).set (by simp [a, only_iff])
    have hb : Leaves [.clk, .glob, .fl] s b := by
      rw [show b = a from if_neg h]
      exact ha
    have hc : Leaves [.clk, .glob, .fl] s c := by
      unfold c
      split
      · exact hb.set (by simp [only_iff])
      · exact hb
    have he : Leaves [.clk, .glob, .fl] s e := logOther_leaves _ _ _ _ (raiseG_leaves _ _ _ hc)
    split
    · exact grant_leaves _ ((he.set (by simp [only_iff])).then (closeAll_leaves _ (.refl _ _)) (by decide))
    · split
      · exact he.then (closeAll_leaves _ (.refl _ _)) (by decide)
      · exact he

theorem assertAll_seq (s : State) : (assertAll s).seq = { s.seq with rst := 0x1F, rstRun := 0 } := by
  have all : ∀ v : BitVec 5, setBit (setBit (setBit (setBit (setBit v 0 true) 1 true) 2 true) 3 true) 4 true = 0x1F := by decide
  have none' : ∀ v : BitVec 5, setBit (setBit (setBit (setBit (setBit v 0 false) 1 false) 2 false) 3 false) 4 false = 0 := by decide
  have one (x : Nat) (u : State) : (assertRst x u).seq = { u.seq with rst := setBit u.seq.rst x true, rstRun := setBit u.seq.rstRun x false } := rfl
  have e : assertAll s = assertRst 4 (assertRst 3 (assertRst 2 (assertRst 1 (assertRst 0 s)))) := rfl
  rw [e, one, one, one, one, one]
  dsimp only
  rw [all, none']

theorem settleResets_seqKept (s : State) : SeqKept s (settleResets s) := by
  have step (u : State) (x : Nat) : SeqKept u (if !u.seq.rst.getLsbD x then u
      else if releasable u x then
        (if u.seq.rstRun.getLsbD x then u
         else arm (rststr (lv u) x) (.resetRelease (Fin.ofNat 5 x)) { u with seq := { u.seq with rstRun := setBit u.seq.rstRun x true } })
      else if u.seq.rstRun.getLsbD x then
        disarm (.resetRelease (Fin.ofNat 5 x)) { u with seq := { u.seq with rstRun := setBit u.seq.rstRun x false } }
      else u) := by
    split
    · exact .refl u
    · split
      · split
        · exact .refl u
        · exact rfl
      · split
        · exact rfl
        · exact .refl u
  unfold settleResets
  generalize List.range 5 = l
  induction l generalizing s with
  | nil => exact .refl s
  | cons x l ih => exact (step s x).trans (ih _)

theorem seqKept_foldl {α : Type} {f : State → α → State} {xs : List α} (h : ∀ s x, SeqKept s (f s x)) (s : State) : SeqKept s (xs.foldl f s) := by
  induction xs generalizing s with
  | nil => exact .refl s
  | cons x xs ih => exact (h s x).trans (ih _)

theorem settleStart_seqKept (s : State) : SeqKept (fwdCheck s) (settleStart s) := by
  have on := (settleOn_leaves (settleResets (fwdCheck s)) (.refl _ _)).seqKept
  have off := (settleOff_leaves (settleOn (settleResets (fwdCheck s))) (.refl _ _)).seqKept
  have retry := seqKept_foldl (f := settleRetry) (xs := rails (settleOff (settleOn (settleResets (fwdCheck s)))).seq.retryWait)
    (fun s x => (settleRetry_leaves s x (.refl _ s)).seqKept) (settleOff (settleOn (settleResets (fwdCheck s))))
  exact (((settleResets_seqKept _).trans on).trans off).trans retry

theorem settle_of_start {s : State} (h : s.glob.st = .start ∨ s.glob.st = .run) : settle s = settleStart s := by
  have hn : (settleStart s).glob.st = .start ∨ (settleStart s).glob.st = .run := by
    rcases (settleStart_powered s).2 with e | ⟨-, e⟩
    · rw [e]; exact h
    · exact .inr e
  rw [settle_eq]
  rcases hn with e | e <;> rw [if_neg (by rw [e]; decide), if_neg (by rw [e]; exact fun x => absurd x.1 (by decide))]

/-! The forward sequence's end. -/

theorem fwdCheck_of_waiting {s : State} (h : s.seq.offhold = 0) (m : maskOf (inseq (lv s)) &&& s.rl.pg ≠ maskOf (inseq (lv s))) : fwdCheck s = s := by
  unfold fwdCheck
  dsimp only
  refine if_neg fun hc => m (and_eq_of_rails fun r hr => ?_)
  have := List.all_eq_true.mp hc.2.2.2 r hr
  simpa [heldRail_of_offhold h] using this

/-- The sequence ends complete: RUN, with SEQSTAT.PHASE run. -/
theorem fwdCheck_full {s : State} (hf : s.seq.fwd = true) (h : s.glob.st = .start) (hb : s.glob.boot = false)
    (m : maskOf (inseq (lv s)) &&& s.rl.pg = maskOf (inseq (lv s))) :
    (fwdCheck s).glob.st = .run ∧ (fwdCheck s).seq.phase = 2 ∧ (fwdCheck s).seq.ended = true ∧ (fwdCheck s).seq.retryWait = s.seq.retryWait ∧
      (fwdCheck s).rl = s.rl := by
  have all : ((rails (maskOf (inseq (lv s)))).all fun r => has s.rl.pg r || heldRail s r) = true := by
    refine List.all_eq_true.mpr fun r hr => ?_
    have : has (maskOf (inseq (lv s)) &&& s.rl.pg) r = true := by rw [m]; exact mem_rails.mp hr
    rw [has_and, Bool.and_eq_true] at this
    rw [this.2, Bool.true_or]
  unfold fwdCheck
  dsimp only
  rw [if_pos ⟨hf, h, by simp [hb], all⟩, if_pos (by simp [m]), decide_eq_true m]
  generalize hu : enterState .run _ = u
  have facts : u.glob.st = .run ∧ u.seq.phase = 2 ∧ u.seq.ended = true ∧ u.seq.retryWait = s.seq.retryWait ∧ u.rl = s.rl := by
    have k : SeqKept { s with seq := { s.seq with phase := 2, fwd := false, ended := true } } u := by
      rw [← hu]
      exact (enterState_leaves .run _ (.refl _ _)).seqKept
    refine ⟨by rw [← hu]; exact enterState_st _ _, by rw [k], by rw [k], by rw [k], ?_⟩
    rw [← hu]
    exact (enterState_leaves .run _ (.refl _ _)).same .rl (by decide)
  clear hu
  split
  · split
    · exact facts
    · exact facts
  · exact facts

/-! The common start. -/

theorem has_none (r : Nat) : has 0#32 r = false := by simp [has]

/-- `t` is the start from `s`: nothing held, and the rails `w` waiting. -/
structure StartsWith (w : Mask) (s t : State) : Prop where
  seq : t.seq = { s.seq with phase := 1, tick := tickCode (lv s), t0 := some t.clk.now, offhold := 0, retryWait := 0, rset := [], retries := []
                             wait := w, dly := 0, offWait := 0, offDly := 0
                             fwd := true, ended := false, complete := false, rst := t.seq.rst, rstRun := t.seq.rstRun, cnt := t.seq.cnt }
  rst : t.seq.rst = 0x1F
  st : t.glob.st = .start
  boot : t.glob.boot = s.glob.boot
  rl : t.rl = s.rl
  lv : lv t = lv s

/-- The same with the rails of the sequence that are off. -/
abbrev Starts (s t : State) : Prop := StartsWith (maskOf (fun r => inseq (lv s) r && !has s.rl.en r)) s t

theorem startFrom_only (s : State) : Leaves [.pwr] s (startFrom s) := .set (.refl _ s) (by simp [startFrom, only_iff])

/-- The common start outside Floor mode: a start, settled; only the cut of a downstream bus has other rails wait than those of the
sequence. -/
theorem commonStart_settles {s : State} (hf : s.glob.floor = false) : ∃ w u, commonStart s = settle u ∧ StartsWith w s u ∧
    (s.ds.recheck = false → w = maskOf (fun r => inseq (lv s) r && !has s.rl.en r)) ∧
    Leaves [.clk, .chg, .free, .seq] (enterState .start (startFrom s)) u := by
  unfold commonStart
  extract_lets p e d kept m q v t x
  have fw : floorTake (startFrom s) = startFrom s := by rw [floorTake, if_neg]; simp [startFrom, hf]
  have he : e = enterState .start (startFrom s) := by rw [← fw]; rfl
  have lw : Leaves [.clk, .glob, .hk, .fl, .pwr] s e := by
    rw [he]
    exact ((Leaves.refl _ s).then (startFrom_only s) (by decide)).then (enterState_leaves .start _ (.refl _ _)) (by decide)
  have se : e.glob.st = .start := enterState_st _ _
  have be : e.glob.boot = s.glob.boot := by rw [he, enterState_glob]; rfl
  rw [← he]
  clear_value e
  have ld : Leaves [.clk] e d := ((Leaves.refl _ _).then (disarm_leaves _ _ (.refl _ _)) (by decide)).then (disarm_leaves _ _ (.refl _ _)) (by decide)
  have le' : Leaves [.clk, .glob, .hk, .fl, .pwr] s d := lw.then ld (by decide)
  have kd : SeqKept s d := le'.seqKept
  have rd : d.rl = s.rl := le'.same .rl (by decide)
  have vd : lv d = lv s := lv_congr (le'.same .regs (by decide))
  have gd : d.glob = e.glob := ld.same .glob (by decide)
  have hm : s.ds.recheck = false → m = maskOf (fun r => inseq (lv s) r && !has s.rl.en r) := by
    intro hr
    have hk : kept = 0 := by
      have : d.ds = s.ds := le'.same .ds (by decide)
      unfold kept
      rw [this, hr]
      rfl
    unfold m
    rw [hk, vd, rd]
    simp [has_none]
  have lv' : Leaves [.seq] d v := .of_only (by simp [v, only_iff]) rfl
  have sv : v.seq = { s.seq with phase := 1, tick := tickCode (lv s), t0 := some v.clk.now, offhold := 0, retryWait := 0, rset := [], retries := []
                                 wait := m, dly := 0, offWait := 0, offDly := 0
                                 fwd := true, ended := false, complete := false, rst := v.seq.rst, rstRun := v.seq.rstRun, cnt := v.seq.cnt } := by
    unfold v
    dsimp only
    rw [vd, show q = d.seq from rfl]
    clear_value d m
    rw [kd]
  have gv : v.glob = e.glob := (lv'.same .glob (by decide)).trans gd
  clear_value v
  have lx : Leaves [.clk] v x := foldl_arm_leaves _ _ _ v (.refl _ v)
  have hx : Leaves [.clk, .chg, .free, .seq] e x := ((Leaves.then (.refl _ e) ld (by decide)).then lv' (by decide)).then lx (by decide)
  clear_value x
  have lc := chgRestart_leaves x (.refl _ _)
  have la := assertAll_leaves (chgRestart x) (.refl _ _)
  have all : Leaves [.clk, .chg, .free, .seq] e (assertAll (chgRestart x)) := (hx.then lc (by decide)).then la (by decide)
  have ga : (assertAll (chgRestart x)).glob = e.glob := all.same .glob (by decide)
  have whole : Leaves [.clk, .glob, .hk, .fl, .pwr, .chg, .free, .seq] s (assertAll (chgRestart x)) := ((Leaves.refl _ s).then lw (by decide)).then all (by decide)
  refine ⟨m, _, rfl, ⟨?_, by rw [assertAll_seq], by rw [ga, se], by rw [ga, be], whole.same .rl (by decide), lv_congr (whole.same .regs (by decide))⟩, hm, all⟩
  have k : SeqKept v (chgRestart x) := lx.seqKept.trans lc.seqKept
  have n : (assertAll (chgRestart x)).clk.now = v.clk.now := by rw [la.now, lc.now, lx.now]
  rw [n, assertAll_seq, k, sv]

end Sys2Proof.Machine
end

section
/-! Starts after a STOP, retries, reset outputs and the clear bits of the sequencer's pages. -/

namespace Sys2Proof

open Sys2Proof.Machine

/-! The end of MINOFF. -/

theorem startOk_disarm (e : Instr) (s : State) : startOk (disarm e s) = startOk s := rfl

theorem exec_minoffEnd {s : State} (a : anvilOn s = true) (hb : s.glob.boot = false) (hs : s.glob.st = .stop) (hp : s.seq.phase = 5)
    (hr : s.pwr.req = none) : exec .minoffEnd s = .next (decideStart (disarm .minoffEnd s)) := by
  show execMinoffEnd s = _
  unfold execMinoffEnd
  dsimp only
  rw [if_neg (by simp [a, hb]), if_pos ⟨hs, by show s.seq.phase ≠ 4; simp [hp], hr⟩]

theorem exec_minoffEnd_start {s : State} (a : anvilOn s = true) (hb : s.glob.boot = false) (hs : s.glob.st = .stop) (hp : s.seq.phase = 5)
    (hr : s.pwr.req = none) (ok : startOk s = true) (hf : s.glob.floor = false) (hd : s.ds.recheck = false) :
    ∃ u, exec .minoffEnd s = .next (settle u) ∧ Starts s u ∧ Leaves [.clk, .glob, .chg, .free, .seq, .pwr, .fl] s u := by
  have st : (disarm .minoffEnd s).glob.st ≠ .standby := by
    show s.glob.st ≠ .standby
    simp [hs]
  obtain ⟨w, u, e, hu, hw, lu⟩ := commonStart_settles (s := disarm .minoffEnd s) hf
  obtain rfl := hw hd
  have ls : Leaves [.clk, .glob, .chg, .free, .seq, .pwr, .fl] (disarm .minoffEnd s) u :=
    (((Leaves.refl _ _).then (startFrom_only _) (by decide)).then (enterState_left (n := .start) (s := startFrom (disarm .minoffEnd s)) st) (by decide)).then lu (by decide)
  have ok' : startOk (disarm .minoffEnd s) = true := ok
  refine ⟨u, ?_, ⟨hu.seq, hu.rst, hu.st, hu.boot, hu.rl, hu.lv⟩, ?_⟩
  · rw [exec_minoffEnd a hb hs hp hr, decideStart, if_pos ok', e]
  · exact ((Leaves.refl _ s).then (disarm_leaves .minoffEnd s (.refl [.clk] s)) (by decide)).then ls (by decide)

theorem minoffEnd_starts (s : State) (a : anvilOn s = true) (hb : s.glob.boot = false) (hs : s.glob.st = .stop) (hp : s.seq.phase = 5)
    (hr : s.pwr.req = none) (ok : startOk s = true) (hf : s.glob.floor = false) (hd : s.ds.recheck = false)
    (m : maskOf (inseq (lv s)) &&& s.rl.pg ≠ maskOf (inseq (lv s))) : Ends .minoffEnd s (fun t =>
      t.glob.st = .start ∧ t.seq.phase = 1 ∧ t.seq.offhold = 0 ∧ t.seq.retries = [] ∧ t.seq.rst = 0x1F ∧ t.rl = s.rl ∧
      t.seq.wait = maskOf (fun r => inseq (lv s) r && !has s.rl.en r) ∧ Only ([.glob, .chg, .free, .pending] ++ raiseParts) s t) := by
  obtain ⟨u, e, hu, lu⟩ := exec_minoffEnd_start a hb hs hp hr ok hf hd
  have hw : fwdCheck u = u := fwdCheck_of_waiting (by rw [hu.seq]) (by rw [hu.lv, hu.rl]; exact m)
  have k := settleStart_seqKept u
  have l := settleStart_after u
  rw [hw] at k l
  rw [settle_of_start (.inl hu.st)] at e
  have all : Leaves ([.glob, .chg, .free, .pending] ++ raiseParts) s (settleStart u) :=
    ((Leaves.refl _ s).then lu (by decide)).then l (by decide)
  refine .of_eq e ⟨l.st.trans hu.st, by rw [k, hu.seq], by rw [k, hu.seq], by rw [k, hu.seq], by rw [k]; exact hu.rst, ?_, by rw [k, hu.seq], ?_⟩
  · exact all.same .rl (by decide)
  · exact all.only.weaken (by decide)

theorem minoffEnd_runs (s : State) (a : anvilOn s = true) (hb : s.glob.boot = false) (hs : s.glob.st = .stop) (hp : s.seq.phase = 5)
    (hr : s.pwr.req = none) (ok : startOk s = true) (hf : s.glob.floor = false) (hd : s.ds.recheck = false)
    (m : maskOf (inseq (lv s)) &&& s.rl.pg = maskOf (inseq (lv s))) :
    Ends .minoffEnd s (fun t => t.glob.st = .run ∧ t.seq.phase = 2 ∧ t.seq.ended = true ∧ t.rl = s.rl) := by
  obtain ⟨u, e, hu, -⟩ := exec_minoffEnd_start a hb hs hp hr ok hf hd
  obtain ⟨f1, f2, f3, -, f5⟩ := fwdCheck_full (s := u) (by rw [hu.seq]) hu.st (hu.boot.trans hb) (by rw [hu.lv, hu.rl]; exact m)
  have k := settleStart_seqKept u
  have l := settleStart_after u
  have rl : (settleStart u).rl = (fwdCheck u).rl := l.same .rl (by decide)
  rw [settle_of_start (.inl hu.st)] at e
  exact .of_eq e ⟨l.st.trans f1, by rw [k]; exact f2, by rw [k]; exact f3, by rw [rl, f5, hu.rl]⟩

theorem minoffEnd_idles (s : State) (a : anvilOn s = true) (hb : s.glob.boot = false) (hs : s.glob.st = .stop) (hp : s.seq.phase = 5)
    (hr : s.pwr.req = none) (ok : startOk s = false) (hf : s.glob.floor = false) : Ends .minoffEnd s (fun t =>
      t.glob.st = .standby ∧ t.pwr.idle = true ∧ t.seq.phase = 0 ∧ t.rl = s.rl ∧ Only ([.glob] ++ raiseParts) s t) := by
  have ok' : ¬startOk (disarm .minoffEnd s) = true := by rw [startOk_disarm, ok]; decide
  have hf' : ¬(disarm .minoffEnd s).glob.floor = true := by
    show ¬s.glob.floor = true
    simp [hf]
  have e := exec_minoffEnd a hb hs hp hr
  rw [decideStart, if_neg ok', if_neg hf'] at e
  refine .of_eq e ?_
  unfold idleStandby
  generalize hw : ({ disarm .minoffEnd s with
    pwr := { (disarm .minoffEnd s).pwr with idle := true, fromRun := false }
    seq := { (disarm .minoffEnd s).seq with phase := 0 } } : State) = w
  have lw : Leaves [.clk, .glob, .fl, .pwr, .seq] s w := by rw [← hw]; exact (Leaves.refl _ s).set (by simp [only_iff])
  have sw : w.glob.st ≠ .standby := by
    rw [← hw]
    show s.glob.st ≠ .standby
    simp [hs]
  have pw : w.pwr.idle = true := by rw [← hw]
  have qw : w.seq.phase = 0 := by rw [← hw]
  clear hw
  have le := enterState_left (n := .standby) sw
  have li := idleWatch_leaves true (enterState .standby w) (.refl _ _)
  have all : Leaves [.clk, .glob, .fl, .pwr, .seq] s (idleWatch true (enterState .standby w)) := (lw.then le (by decide)).then li (by decide)
  have k : SeqKept w (idleWatch true (enterState .standby w)) := le.seqKept.trans li.seqKept
  have pi : (idleWatch true (enterState .standby w)).pwr.idle = w.pwr.idle :=
    (congrArg (·.idle) (li.marked .pwr (by decide))).trans (congrArg (·.idle) (le.marked .pwr (by decide)))
  exact ⟨li.st.trans (enterState_st _ _), pi.trans pw, by rw [k]; exact qw, all.same .rl (by decide), all.only.weaken (by decide)⟩

/-! Retries and reset outputs. -/

theorem has_foldl_bits (p : Nat → Bool) {r : Nat} (h : r < 32) (l : List Nat) (m : Mask) :
    has (l.foldl (fun m r => if p r then m ||| bit r else m) m) r = (has m r || (decide (r ∈ l) && p r)) := by
  induction l generalizing m with
  | nil => simp
  | cons x l ih =>
    rw [List.foldl_cons, ih]
    by_cases hx : r = x
    · subst hx
      cases hp : p r
      · simp
      · simp [has_or, has_bit_self h]
    · cases hp : p x
      · simp [hx]
      · simp [has_or, has_bit_ne hx, hx]

theorem has_maskOf (p : Nat → Bool) {r : Nat} (h : r < 32) : has (maskOf p) r = p r := by
  have := has_foldl_bits p h (List.range 32) 0#32
  rw [has_none, decide_eq_true (List.mem_range.mpr h)] at this
  exact this.trans (by simp)

theorem has_not (m : Mask) {r : Nat} (h : r < 32) : has (~~~m) r = !has m r := by simp [has, h]

theorem dephold_of_not_held {s : State} {r : Nat} (hr : r < 32) (h : heldRail s r = false) : has s.seq.offhold r = false ∧ has (dephold s) r = false := by
  rw [heldRail, Bool.or_eq_false_iff] at h
  exact ⟨h.1, by rw [dephold, has_maskOf _ hr]; exact h.2⟩

theorem armed_arm_kept {e f : Instr} {dt : Nat} {s : State} (h : armed e s = true) : armed e (arm dt f s) = true := by
  by_cases hf : e = f
  · rw [hf]; exact armed_arm _ _ _
  · rw [armed_arm_ne hf]; exact h

theorem armed_foldl_arm {α : Type} (dt : State → α → Nat) (f : α → Instr) {xs : List α} {x : α} (hx : x ∈ xs) (s : State) :
    armed (f x) (xs.foldl (fun s x => arm (dt s x) (f x) s) s) = true := by
  have kept (e : Instr) (l : List α) (u : State) (h : armed e u = true) : armed e (l.foldl (fun s x => arm (dt s x) (f x) s) u) = true := by
    induction l generalizing u with
    | nil => exact h
    | cons y l ih => exact ih _ (armed_arm_kept h)
  induction xs generalizing s with
  | nil => simp at hx
  | cons y l ih =>
    rcases List.mem_cons.mp hx with e | m
    · rw [← e]
      exact kept _ l _ (armed_arm _ _ s)
    · exact ih m _

/-- A restart of a set: its rails wait for their delays, which run. -/
theorem restartSet_spec (m : Mask) (s : State) : (restartSet m s).seq = { s.seq with wait := s.seq.wait ||| m, dly := s.seq.dly &&& ~~~m } ∧
    (∀ r : Rail, has m r.val = true → armed (.railEnable r) (restartSet m s) = true) ∧ Only [.seq, .clk] s (restartSet m s) := by
  unfold restartSet
  extract_lets rs lo t q u
  have fold : Only [.clk] u (rs.foldl (fun s r => arm ((onDly (lv s) r - lo) * t) (.railEnable (railF r)) s) u) :=
    foldl_only (fun _ _ => by simp [only_iff]) rs u
  refine ⟨fold .seq (by decide), fun r hr => ?_, (show Only [.seq, .clk] s u by simp [u, only_iff]).trans (fold.weaken (by decide))⟩
  have f : railF r.val = r := Fin.ext (Nat.mod_eq_of_lt r.isLt)
  have := armed_foldl_arm (fun s r => (onDly (lv s) r - lo) * t) (fun r => .railEnable (railF r)) (mem_rails.mpr hr) u
  rw [f] at this
  exact this

theorem retrySpaceEnd_restarts (s : State) (r : Rail) (hw : has s.seq.retryWait r.val = true) (hh : heldRail s r.val = false)
    (en : has s.rl.en r.val = false) (h32 : r.val < 32) : Ends (.retrySpaceEnd r) s (fun t =>
      has t.seq.retryWait r.val = false ∧ has t.seq.wait r.val = true ∧ armed (.railEnable r) t = true ∧ t.seq.offhold = s.seq.offhold ∧
      Only [.seq, .clk] s t) := by
  obtain ⟨off, dep⟩ := dephold_of_not_held h32 hh
  generalize hm : (mget 0 s.seq.rset r.val ||| bit r.val) &&& ~~~s.seq.offhold &&& ~~~(dephold s) &&& ~~~s.rl.en = m
  have hasm : has m r.val = true := by
    rw [← hm]
    simp [has_and, has_or, has_not _ h32, has_bit_self h32, off, dep, en]
  generalize hu : ({ disarm (.retrySpaceEnd r) s with seq := { s.seq with
    retryWait := s.seq.retryWait &&& ~~~(bit r.val), rset := mput 0 s.seq.rset r.val 0 } } : State) = u
  have e : exec (.retrySpaceEnd r) s = .next (restartSet m u) := by
    rw [← hu, ← hm]
    exact congrArg Host.Outcome.next (if_neg (by show ¬(!has s.seq.retryWait r.val) = true; simp [hw]))
  have qu : u.seq = { s.seq with retryWait := s.seq.retryWait &&& ~~~(bit r.val), rset := mput 0 s.seq.rset r.val 0 } := by rw [← hu]
  have ou : Only [.seq, .clk] s u := by rw [← hu]; simp [only_iff]
  clear hu
  obtain ⟨hq, ha, ho⟩ := restartSet_spec m u
  refine .of_eq e ⟨by rw [hq, qu]; exact has_not_bit _ _, ?_, ha r hasm, by rw [hq, qu], ou.trans ho⟩
  rw [hq]
  show has (u.seq.wait ||| m) r.val = true
  rw [has_or, hasm, Bool.or_true]

theorem retryCountClear_clears (s : State) (r : Rail) (h : has s.rl.pg r.val = true) : exec (.retryCountClear r) s =
    .next { (disarm (.retryCountClear r) s) with seq := { s.seq with retries := mput 0 s.seq.retries r.val 0 } } :=
  congrArg Host.Outcome.next (if_pos h)

theorem resetRelease_releases (s : State) (x : Fin 5) (h : s.seq.rst.getLsbD x.val = true) (hr : s.seq.rstRun.getLsbD x.val = true) :
    Ends (.resetRelease x) s (fun t =>
      t.seq = { s.seq with rst := setBit s.seq.rst x.val false, rstRun := setBit s.seq.rstRun x.val false } ∧
      (x.val = 4 → (s.glob.st = .start ∨ s.glob.st = .run) → (pl s (key 0x24 3)).getLsbD 0 = true → t.safe.wdState = 1 ∧ armed .wdlate t = true) ∧
      Only [.seq, .safe, .clk] s t) := by
  generalize hu : ({ disarm (.resetRelease x) s with
    seq := { s.seq with rst := setBit s.seq.rst x.val false, rstRun := setBit s.seq.rstRun x.val false } } : State) = u
  have e : exec (.resetRelease x) s = .next (if x.val = 4 ∧ (u.glob.st = .start ∨ u.glob.st = .run) then wdArm u else u) := by
    rw [← hu]
    exact congrArg Host.Outcome.next (if_pos (by rw [Bool.and_eq_true]; exact ⟨h, hr⟩))
  have qu : u.seq = { s.seq with rst := setBit s.seq.rst x.val false, rstRun := setBit s.seq.rstRun x.val false } := by rw [← hu]
  have gu : u.glob = s.glob := by rw [← hu]; rfl
  have pu : pl u = pl s := by rw [← hu]; rfl
  have ou : Only [.seq, .clk] s u := by rw [← hu]; simp [only_iff]
  clear hu
  refine .of_eq e ?_
  by_cases hc : x.val = 4 ∧ (u.glob.st = .start ∨ u.glob.st = .run)
  · rw [if_pos hc, wdArm]
    by_cases hp : (pl u (key 0x24 3)).getLsbD 0 = true
    · rw [if_pos hp]
      refine ⟨qu, fun _ _ _ => ⟨rfl, armed_arm _ _ _⟩, ?_⟩
      exact (ou.weaken (by decide)).trans (by simp [only_iff])
    · rw [if_neg hp]
      exact ⟨qu, fun _ _ h => absurd (pu ▸ h) hp, ou.weaken (by decide)⟩
  · rw [if_neg hc]
    exact ⟨qu, fun h4 hst => absurd ⟨h4, gu ▸ hst⟩ hc, ou.weaken (by decide)⟩

/-! Clear bits. -/

theorem strkclr_clears (s : State) (c : Chan) (h : Served s) : Ends (.strkclr c) s (fun t =>
    t.bk = { s.bk with strkn := mput 0 s.bk.strkn c.val 0 } ∧ Only [.bk, .glob, .bus, .clk] s t) := by
  refine .of_eq (exec_onPage (f := strkclrBit c.val) h rfl) ⟨rfl, ?_⟩
  simp [strkclrBit, cancelKey, ackAccess, only_iff]

theorem mget_filter_keys {α : Type} (d : α) (p : Nat → Bool) (m : Map α) (k : Nat) :
    mget d (m.filter (fun (k, _) => p k)) k = if p k then mget d m k else d := by
  induction m with
  | nil => simp [mget]
  | cons x m ih =>
    obtain ⟨j, v⟩ := x
    rw [List.filter_cons]
    by_cases hj : j = k
    · subst hj
      cases hp : p j
      · simpa [hp] using ih
      · rw [if_pos rfl]
        simp [mget, hp]
    · cases hp : p j
      · simpa [hp, mget, hj] using ih
      · simpa [hp, mget, hj] using ih

theorem cntctlClr_clears (s : State) (h : Served s) : Ends .cntctlClr s (fun t =>
    (∀ i, i < 16 → mget 0 t.seq.cnt (16 * cntsel s + i) = 0) ∧ (∀ k, k / 16 ≠ cntsel s → mget 0 t.seq.cnt k = mget 0 s.seq.cnt k) ∧
    t.seq.retries = s.seq.retries ∧ Only [.seq, .glob, .bus, .clk] s t) := by
  have c (k : Nat) : mget 0 (cntClrBit (cancelKey (ackAccess s))).seq.cnt k = if k / 16 ≠ cntsel s then mget 0 s.seq.cnt k else 0 := by
    have := mget_filter_keys 0 (fun k => decide (k / 16 ≠ cntsel s)) s.seq.cnt k
    simp only [decide_eq_true_eq] at this
    exact this
  refine .of_eq (exec_onPage (f := cntClrBit) h rfl) ⟨fun i hi => ?_, fun k hk => ?_, rfl, ?_⟩
  · rw [c, if_neg (by simp only [ne_eq, not_not]; omega)]
  · rw [c, if_pos hk]
  · simp [cntClrBit, cancelKey, ackAccess, only_iff]

theorem cntctlClrall_clears (s : State) (h : Served s) : Ends .cntctlClrall s (fun t =>
    t.seq = { s.seq with cnt := [] } ∧ Only [.seq, .glob, .bus, .clk] s t) := by
  refine .of_eq (exec_onPage (f := cntClrallBit) h rfl) ⟨rfl, ?_⟩
  simp [cntClrallBit, cancelKey, ackAccess, only_iff]

theorem monctlClr_clears (s : State) (h : Served s) : Ends .monctlClr s (fun t =>
    t.seq = { s.seq with monuvl := 0, monovl := 0 } ∧ Only [.seq, .glob, .bus, .clk] s t) := by
  refine .of_eq (exec_onPage (f := monClrBit) h rfl) ⟨rfl, ?_⟩
  simp [monClrBit, cancelKey, ackAccess, only_iff]

/-- Settles O23: the common start as a settled start, and the timers and clear bits one by one. -/
theorem startsRetriesAndClears : Obligations.StartsRetriesAndClears := by
  unfold Obligations.StartsRetriesAndClears
  exact ⟨minoffEnd_starts, minoffEnd_runs, minoffEnd_idles, retrySpaceEnd_restarts, retryCountClear_clears, resetRelease_releases,
    strkclr_clears, cntctlClr_clears, cntctlClrall_clears, monctlClr_clears⟩

end Sys2Proof
end

section
/-! Acceptance of transactions, and the end of their validation. -/

namespace Sys2Proof

open Sys2Proof.Machine

/-! The slot. -/

theorem takes_anvil {b : Bool} {p : Packet} {s : State} (h : Takes b p s) : anvilOn s = true := busUp_anvil (packetsTaken_busUp h.up)

/-- What the slot takes over from a packet. -/
theorem taken_only (op tag : Byte) (s : State) : Only [.bus, .txn] s (takeSlot op tag (ackAccess s)) := by
  simp [takeSlot, ackAccess, only_iff]

theorem taken_anvil (op tag : Byte) (s : State) : anvilOn (takeSlot op tag (ackAccess s)) = anvilOn s := rfl

theorem taken_txn (op tag : Byte) (s : State) :
    (takeSlot op tag (ackAccess s)).txn = { s.txn with cur := s.txn.cur.map (fun c => { c with slot := false }) } := rfl

theorem taken_txn_of_none {s : State} (h : s.txn.cur = none) (op tag : Byte) : (takeSlot op tag (ackAccess s)).txn = s.txn := by
  rw [taken_txn, h, Option.map_none, ← h]

theorem taken_txn_of_some {s : State} {d : Commit} (h : s.txn.cur = some d) (op tag : Byte) :
    (takeSlot op tag (ackAccess s)).txn = { s.txn with cur := some { d with slot := false } } := by
  rw [taken_txn, h, Option.map_some]

/-- The slot's contents after a raise. -/
theorem Leaves.busKept {l : List Part} {s t : State} (h : Leaves l s t) (hl : .bus ∉ l := by decide) : t.bus = { s.bus with hn := t.bus.hn } := by
  have e : { t.bus with hn := 0 } = { s.bus with hn := 0 } := h.marked .bus hl
  cases ht : t.bus
  cases hs : s.bus
  simp_all

/-! Refusals. -/

/-- A refusal by a command of the transactions. -/
theorem rejectTxn_spec (rsn : Byte) (res : List Byte) {s : State} (a : anvilOn s = true) :
    (rejectTxn rsn res s).bus = { s.bus with cstat := 5, err := rsn, cres := res, hn := (rejectTxn rsn res s).bus.hn } ∧
    (rejectTxn rsn res s).txn = s.txn ∧ isPend (rejectTxn rsn res s) (16 * 61 + 2) = true ∧ Only raiseParts s (rejectTxn rsn res s) := by
  have l : Leaves [] s (raiseG 61 2 s) := raiseG_leaves _ _ _ (.refl _ s)
  have b := l.busKept
  have p : isPend (raiseG 61 2 s) (16 * 61 + 2) = true := isPend_raiseG_self a _ _
  have o : Only raiseParts s (raiseG 61 2 s) := l.only
  have q : (raiseG 61 2 s).txn = s.txn := raiseG_txn ..
  unfold rejectTxn
  generalize raiseG 61 2 s = u at b p o q
  refine ⟨?_, q, p, o.trans (by simp [slotEnd, only_iff, raiseParts])⟩
  show { u.bus with cstat := 5, err := rsn, cres := res } = _
  rw [b]
  rfl

/-- A packet of the transactions that is refused: the slot shows it. -/
theorem Ends.refused {c : Instr} {op : Byte} {p : Packet} {s : State} {rsn : Byte} {res : List Byte} (a : anvilOn s = true)
    (e : exec c s = .next (rejectTxn rsn res (takeSlot op p.tag (ackAccess s)))) : Ends c s (fun t =>
      SlotShows 5 rsn res p t ∧ t.txn = (takeSlot op p.tag (ackAccess s)).txn ∧ isPend t (16 * 61 + 2) = true ∧ t.regs = s.regs ∧
      Only ([.txn] ++ raiseParts) s t ∧ (s.txn.cur = none → Only raiseParts s t)) := by
  obtain ⟨b, q, pd, o⟩ := rejectTxn_spec rsn res (s := takeSlot op p.tag (ackAccess s)) a
  refine .of_eq e ⟨⟨by rw [b], by rw [b]; rfl, by rw [b], by rw [b]⟩, q, pd, ?_, ?_, fun h => ?_⟩
  · exact o .regs (by decide)
  · exact ((taken_only op p.tag s).weaken (by decide)).trans (o.weaken (by decide))
  · refine Only.trans (t := takeSlot op p.tag (ackAccess s)) ?_ o
    have := taken_txn_of_none h op p.tag
    rw [only_iff]
    simp only [raiseParts, List.mem_cons, List.not_mem_nil, or_false, true_or, or_true, true_and, this]
    simp [takeSlot, ackAccess]

/-! The checks of TXN_COMMIT and TXN_VALIDATE. -/

theorem commitState_taken (ps : List Byte) (op tag : Byte) (s : State) : commitState ps (takeSlot op tag (ackAccess s)) = commitState ps s := rfl

theorem commitOf_taken (n : Byte) (ps : List Byte) (op tag : Byte) (s : State) :
    commitOf (takeSlot op tag (ackAccess s)) n ps = commitOf s n ps := rfl

theorem validating_of {s : State} {d : Commit} (h : s.txn.cur = some d) : validating s = !d.pending := by rw [validating, h]
theorem validating_none {s : State} (h : s.txn.cur = none) : validating s = false := by rw [validating, h]

theorem commitChecks_state {ps : List Byte} {s : State} (h : commitState ps s = false) (busy : Bool) (body : State → State) :
    commitChecks ps busy body s = rejectTxn 1 (txnRes 0 0x10 1 0 0 0xFF 0 0) s := by rw [commitChecks, if_pos (by simp [h])]; rfl

theorem commitChecks_busy {ps : List Byte} {s : State} (h : commitState ps s = true) (body : State → State) :
    commitChecks ps true body s = rejectTxn 2 (txnRes 0 0x10 2 0 0 0xFF 0 0) s := by rw [commitChecks, if_neg (by simp [h]), if_pos rfl]; rfl

theorem commitChecks_param {ps : List Byte} {s : State} {o : Nat} (h : commitState ps s = true) (ho : paramFault ps = some o) (body : State → State) :
    commitChecks ps false body s = rejectTxn 3 (txnRes 0 0x10 3 0xE0 (BitVec.ofNat 8 o) 0xFF 0 0) s := by
  rw [commitChecks, if_neg (by simp [h]), if_neg (by decide), ho]
  exact Eq.refl _

theorem commitChecks_pass {ps : List Byte} {s : State} (h : commitState ps s = true) (ho : paramFault ps = none) (body : State → State) :
    commitChecks ps false body s = body s := by
  rw [commitChecks, if_neg (by simp [h]), if_neg (by decide), ho]

theorem exec_txnCommit {p : Packet} {s : State} (h : Takes false p s) : ∃ body, (∀ u, body u = slotBusy
      { startCommit (commitOf u (u.txn.seq + 1) p.params) u with bus := { (startCommit (commitOf u (u.txn.seq + 1) p.params) u).bus with cres := [u.txn.seq + 1] } }) ∧
    exec (.txnCommit p) s = .next (commitChecks p.params s.txn.cur.isSome body (takeSlot 0x10 p.tag (ackAccess s))) := by
  refine ⟨_, fun u => rfl, ?_⟩
  have e : (takeSlot 0x10 p.tag (ackAccess s)).txn.cur.isSome = s.txn.cur.isSome := by
    show (s.txn.cur.map _).isSome = _
    rw [Option.isSome_map]
  rw [← e]
  exact congrArg Host.Outcome.next (packet_open h _)

theorem exec_txnValidate {p : Packet} {s : State} (h : Takes false p s) : ∃ body, (∀ u, body u = slotBusy
      { u with txn := { u.txn with val := some (commitOf u 0 p.params) }, bus := { u.bus with cres := [0] } }) ∧
    exec (.txnValidate p) s = .next (commitChecks p.params (validating s) body (takeSlot 0x12 p.tag (ackAccess s))) := by
  refine ⟨_, fun u => rfl, ?_⟩
  have e : validating (takeSlot 0x12 p.tag (ackAccess s)) = validating s := by
    cases hc : s.txn.cur with
    | none => rw [validating_none hc, validating_none (by rw [taken_txn_of_none hc]; exact hc)]
    | some d => rw [validating_of hc, validating_of (d := { d with slot := false }) (by rw [taken_txn_of_some hc])]
  rw [← e]
  exact congrArg Host.Outcome.next (packet_open h _)

theorem startCommit_spec (c : Commit) (s : State) : (startCommit c s).txn = { s.txn with
      cur := some c, seq := c.seq, res := 1, rsn := 0, epg := 0, eofs := 0, erail := 0xFF, pre := 0, unlocked := false, applychk := false } ∧
    (startCommit c s).bus = s.bus ∧ Only [.txn, .clk, .pending] s (startCommit c s) := by
  unfold startCommit
  dsimp only
  split
  · exact ⟨rfl, rfl, by simp [only_iff]⟩
  · exact ⟨rfl, rfl, by simp [only_iff]⟩

theorem txnCommit_accepts (s : State) (p : Packet) (h : Takes false p s) (st : commitState p.params s = true) (hc : s.txn.cur = none)
    (hp : paramFault p.params = none) : Ends (.txnCommit p) s (fun t =>
      t.txn.cur = some (commitOf s (s.txn.seq + 1) p.params) ∧ t.txn.seq = s.txn.seq + 1 ∧ t.txn.res = 1 ∧ t.txn.rsn = 0 ∧
      SlotShows 2 0 [s.txn.seq + 1] p t ∧ Only [.bus, .txn, .clk, .pending] s t) := by
  obtain ⟨body, hb, e⟩ := exec_txnCommit h
  rw [hc, Option.isSome_none, commitChecks_pass (by rw [commitState_taken]; exact st) hp, hb] at e
  refine .of_eq e ?_
  rw [commitOf_taken, taken_txn_of_none hc]
  obtain ⟨ht, hbus, ho⟩ := startCommit_spec (commitOf s (s.txn.seq + 1) p.params) (takeSlot 0x10 p.tag (ackAccess s))
  generalize startCommit (commitOf s (s.txn.seq + 1) p.params) (takeSlot 0x10 p.tag (ackAccess s)) = u at ht hbus ho
  refine ⟨(congrArg (·.cur) ht :), (congrArg (·.seq) ht :), (congrArg (·.res) ht :), (congrArg (·.rsn) ht :),
    ⟨rfl, (congrArg (·.tag) hbus :), (congrArg (·.err) hbus :), rfl⟩, ?_⟩
  refine ((taken_only 0x10 p.tag s).weaken (by decide)).trans ((ho.weaken (by decide)).trans ?_)
  simp [slotBusy, only_iff]

theorem txn_refusedState (s : State) (p : Packet) (c : Instr) (hc : c = .txnCommit p ∨ c = .txnValidate p) (h : Takes false p s)
    (st : commitState p.params s = false) (cur : s.txn.cur = none) : Ends c s (fun t =>
      SlotShows 5 1 (txnRes 0 0x10 1 0 0 0xFF 0 0) p t ∧ t.txn = s.txn ∧ isPend t (16 * 61 + 2) = true ∧ Only raiseParts s t) := by
  rcases hc with rfl | rfl
  · obtain ⟨body, -, e⟩ := exec_txnCommit h
    rw [commitChecks_state (by rw [commitState_taken]; exact st)] at e
    exact (Ends.refused (takes_anvil h) e).imp fun t ⟨a, b, d, _, _, f⟩ => ⟨a, b.trans (taken_txn_of_none cur ..), d, f cur⟩
  · obtain ⟨body, -, e⟩ := exec_txnValidate h
    rw [commitChecks_state (by rw [commitState_taken]; exact st)] at e
    exact (Ends.refused (takes_anvil h) e).imp fun t ⟨a, b, d, _, _, f⟩ => ⟨a, b.trans (taken_txn_of_none cur ..), d, f cur⟩

theorem txnCommit_busy (s : State) (p : Packet) (d : Commit) (h : Takes false p s) (st : commitState p.params s = true) (cur : s.txn.cur = some d) :
    Ends (.txnCommit p) s (fun t => SlotShows 5 2 (txnRes 0 0x10 2 0 0 0xFF 0 0) p t ∧ t.txn = { s.txn with cur := some { d with slot := false } } ∧
      isPend t (16 * 61 + 2) = true ∧ Only ([.txn] ++ raiseParts) s t) := by
  obtain ⟨body, -, e⟩ := exec_txnCommit h
  rw [cur, Option.isSome_some, commitChecks_busy (by rw [commitState_taken]; exact st)] at e
  exact (Ends.refused (takes_anvil h) e).imp fun t ⟨a, b, d, _, f, _⟩ => ⟨a, b.trans (taken_txn_of_some cur ..), d, f⟩

theorem txnValidate_busy (s : State) (p : Packet) (d : Commit) (h : Takes false p s) (st : commitState p.params s = true) (cur : s.txn.cur = some d)
    (hd : d.pending = false) :
    Ends (.txnValidate p) s (fun t => SlotShows 5 2 (txnRes 0 0x10 2 0 0 0xFF 0 0) p t ∧ t.txn = { s.txn with cur := some { d with slot := false } } ∧
      isPend t (16 * 61 + 2) = true ∧ Only ([.txn] ++ raiseParts) s t) := by
  obtain ⟨body, -, e⟩ := exec_txnValidate h
  rw [validating_of cur, hd, Bool.not_false, commitChecks_busy (by rw [commitState_taken]; exact st)] at e
  exact (Ends.refused (takes_anvil h) e).imp fun t ⟨a, b, d, _, f, _⟩ => ⟨a, b.trans (taken_txn_of_some cur ..), d, f⟩

theorem txn_badParams (s : State) (p : Packet) (c : Instr) (o : Nat) (hc : c = .txnCommit p ∨ c = .txnValidate p) (h : Takes false p s)
    (st : commitState p.params s = true) (cur : s.txn.cur = none) (hp : paramFault p.params = some o) : Ends c s (fun t =>
      SlotShows 5 3 (txnRes 0 0x10 3 0xE0 (BitVec.ofNat 8 o) 0xFF 0 0) p t ∧ t.txn = s.txn ∧ isPend t (16 * 61 + 2) = true ∧ Only raiseParts s t) := by
  rcases hc with rfl | rfl
  · obtain ⟨body, -, e⟩ := exec_txnCommit h
    rw [cur, Option.isSome_none, commitChecks_param (by rw [commitState_taken]; exact st) hp] at e
    exact (Ends.refused (takes_anvil h) e).imp fun t ⟨a, b, d, _, _, f⟩ => ⟨a, b.trans (taken_txn_of_none cur ..), d, f cur⟩
  · obtain ⟨body, -, e⟩ := exec_txnValidate h
    rw [validating_none cur, commitChecks_param (by rw [commitState_taken]; exact st) hp] at e
    exact (Ends.refused (takes_anvil h) e).imp fun t ⟨a, b, d, _, _, f⟩ => ⟨a, b.trans (taken_txn_of_none cur ..), d, f cur⟩

theorem txnValidate_accepts (s : State) (p : Packet) (h : Takes false p s) (st : commitState p.params s = true) (cur : s.txn.cur = none)
    (hp : paramFault p.params = none) : Ends (.txnValidate p) s (fun t =>
      t.txn = { s.txn with val := some (commitOf s 0 p.params) } ∧ SlotShows 2 0 [0] p t ∧ Only [.bus, .txn] s t) := by
  obtain ⟨body, hb, e⟩ := exec_txnValidate h
  rw [validating_none cur, commitChecks_pass (by rw [commitState_taken]; exact st) hp, hb] at e
  refine .of_eq e ⟨?_, ⟨rfl, rfl, rfl, rfl⟩, (taken_only 0x12 p.tag s).trans (by simp [slotBusy, only_iff])⟩
  show { (takeSlot 0x12 p.tag (ackAccess s)).txn with val := some (commitOf (takeSlot 0x12 p.tag (ackAccess s)) 0 p.params) } = _
  rw [commitOf_taken, taken_txn_of_none cur]

theorem txnValidate_beside (s : State) (p : Packet) (d : Commit) (h : Takes false p s) (st : commitState p.params s = true) (cur : s.txn.cur = some d)
    (hd : d.pending = true) (hp : paramFault p.params = none) : Ends (.txnValidate p) s (fun t =>
      t.txn = { s.txn with val := some (commitOf s 0 p.params), cur := some { d with slot := false } } ∧ SlotShows 2 0 [0] p t ∧ Only [.bus, .txn] s t) := by
  obtain ⟨body, hb, e⟩ := exec_txnValidate h
  rw [validating_of cur, hd, Bool.not_true, commitChecks_pass (by rw [commitState_taken]; exact st) hp, hb] at e
  refine .of_eq e ⟨?_, ⟨rfl, rfl, rfl, rfl⟩, (taken_only 0x12 p.tag s).trans (by simp [slotBusy, only_iff])⟩
  show { (takeSlot 0x12 p.tag (ackAccess s)).txn with val := some (commitOf (takeSlot 0x12 p.tag (ackAccess s)) 0 p.params) } = _
  rw [commitOf_taken, taken_txn_of_some cur]

/-- Settles O24: the slot takes the packet, then the checks STATE, BUSY and PARAM in their order. -/
theorem commitAcceptance : Obligations.CommitAcceptance := by
  unfold Obligations.CommitAcceptance
  exact ⟨txnCommit_accepts, txn_refusedState, txnCommit_busy, txnValidate_busy, txn_badParams, txnValidate_accepts, txnValidate_beside⟩

end Sys2Proof
end

section
/-! The end of a validation, its deadline, aborts and reverts. -/

namespace Sys2Proof

open Sys2Proof.Machine

/-! Reason codes. -/

theorem foundRg_rsn {s : State} {w : Word} {n : Nat} {l : List Rg} {f : Found} (h : foundRg s w n l = some f) : f.rsn = n := by
  obtain ⟨r, -, e⟩ := Option.map_eq_some_iff.mp h
  rw [← e]

theorem foundParam_rsn {n : Nat} {l : List (Nat × Nat)} {f : Found} (h : foundParam n l = some f) : f.rsn = n := by
  cases l with
  | nil => simp [foundParam] at h
  | cons x t =>
    simp only [foundParam, Option.some.injEq] at h
    rw [← h]

/-- Every result of one rule or of the next satisfies what the results of both do. -/
theorem orElse_all {α : Type} {Q : α → Prop} {a b : Option α} (ha : ∀ f, a = some f → Q f) (hb : ∀ f, b = some f → Q f) :
    ∀ f, (a <|> b) = some f → Q f := by
  intro f h
  cases a with
  | none => exact hb f h
  | some x => exact ha f h

theorem foundRg_all {Q : Nat → Prop} {s : State} {w : Word} {n : Nat} {l : List Rg} (h : Q n) : ∀ f, foundRg s w n l = some f → Q f.rsn :=
  fun _ e => foundRg_rsn e ▸ h

theorem foundParam_all {Q : Nat → Prop} {n : Nat} {l : List (Nat × Nat)} (h : Q n) : ∀ f, foundParam n l = some f → Q f.rsn :=
  fun _ e => foundParam_rsn e ▸ h

/-- A reason that a validation reports (R187). -/
def Reason (n : Nat) : Prop := 4 ≤ n ∧ n ≤ 0x10 ∨ n = 0x16

theorem reason_of {n : Nat} (h : 4 ≤ n) (h' : n ≤ 0x10) : Reason n := .inl ⟨h, h'⟩

theorem validate_rsn (c : Commit) (s : State) : ∀ f, validate c s = some f → Reason f.rsn := by
  unfold validate
  refine orElse_all (fun f e => ?_) ?_
  · obtain ⟨k, -, rfl⟩ := Option.map_eq_some_iff.mp e
    exact reason_of (Nat.le_refl 4) (by show 4 ≤ 16; decide)
  iterate 10 refine orElse_all (foundRg_all (reason_of (by decide) (by decide))) ?_
  iterate 2 refine orElse_all (foundParam_all (reason_of (by decide) (by decide))) ?_
  exact foundRg_all (.inr rfl)

theorem validate_rsn_ne {c : Commit} {s : State} {f : Found} (h : validate c s = some f) : BitVec.ofNat 8 f.rsn ≠ 0x11 := by
  intro e
  have := congrArg BitVec.toNat e
  rw [BitVec.toNat_ofNat] at this
  have r : 4 ≤ f.rsn ∧ f.rsn ≤ 0x10 ∨ f.rsn = 0x16 := validate_rsn c s f h
  change f.rsn % 256 = 17 at this
  omega

/-! A commit in flight ends. -/

/-- The source that the end of a commit raises. -/
def endSource (e : CommitEnd) : Nat := if e.res = 5 then 4 else if e.res = 6 then 5 else if e.rsn = 0x11 then 3 else 2

theorem logOther_left (k n : Nat) (d : BitVec 32) (s : State) : Leaves [] s (logOther k n d s) := logOther_leaves k n d s (.refl _ s)

/-- A commit that is not applied has left page 0x28 and raised its event. -/
def ended (c : Commit) (e : CommitEnd) (s : State) : State :=
  raiseG 61 (endSource e) (logOther 1 0x3FF (BitVec.ofNat 32 (c.seq.toNat + 256 * e.res + 65536 * e.rsn.toNat + 16777216 * e.rail.toNat))
    (disarm .commitDeadline { s with txn := { s.txn with
      cur := none, res := e.res, rsn := e.rsn, epg := e.pg, eofs := e.ofs, erail := e.rail, pre := e.pre, unlocked := false, applychk := e.chk } }))

/-- The result bytes of a commit that is not applied (R199). -/
def endedResults (c : Commit) (e : CommitEnd) : List Byte :=
  txnRes c.seq (resultByte e.res) e.rsn e.pg e.ofs e.rail (BitVec.ofNat 8 (e.chk.toNat + 2 * e.pre)) 0

theorem endCommit_eq (c : Commit) (e : CommitEnd) (s : State) : endCommit c e s =
    if c.slot then slotEnd (if e.res = 4 then 5 else 4) e.rsn (endedResults c e) (ended c e s)
    else if c.abort && decide ((ended c e s).bus.cstat = 1 ∨ (ended c e s).bus.cstat = 2) && decide ((ended c e s).bus.op = 0x11) then
      (if e.res = 6 then slotEnd 3 0 (endedResults c e) (ended c e s)
       else rejectTxn 0x15 (txnRes (ended c e s).txn.seq 0x10 0x15 0 0 0xFF 0 0) (ended c e s))
    else ended c e s := rfl

theorem ended_spec (c : Commit) (e : CommitEnd) {s : State} (a : anvilOn s = true) :
    (ended c e s).txn = { s.txn with cur := none, res := e.res, rsn := e.rsn, epg := e.pg, eofs := e.ofs, erail := e.rail, pre := e.pre
                                     unlocked := false, applychk := e.chk } ∧
    isPend (ended c e s) (16 * 61 + endSource e) = true ∧ Leaves [.txn, .clk] s (ended c e s) ∧ anvilOn (ended c e s) = true := by
  unfold ended
  generalize hw : disarm .commitDeadline _ = w
  have tw : w.txn = { s.txn with cur := none, res := e.res, rsn := e.rsn, epg := e.pg, eofs := e.ofs, erail := e.rail, pre := e.pre
                                 unlocked := false, applychk := e.chk } := by rw [← hw]; rfl
  have lw : Leaves [.txn, .clk] s w := by rw [← hw]; exact .of_only (by simp [only_iff]) rfl
  have aw : anvilOn w = true := by rw [← hw]; exact a
  clear hw
  generalize BitVec.ofNat 32 _ = rec
  have ll := logOther_left 1 0x3FF rec w
  have al : anvilOn (logOther 1 0x3FF rec w) = true := ll.powered.anvil_st ll.st aw
  have lr : Leaves [] w (raiseG 61 (endSource e) (logOther 1 0x3FF rec w)) := raiseG_leaves _ _ _ ll
  have same : (raiseG 61 (endSource e) (logOther 1 0x3FF rec w)).txn = w.txn := lr.same .txn (by decide)
  exact ⟨same.trans tw, isPend_raiseG_self al _ _, lw.then lr (by decide), by rw [anvilOn_raiseG]; exact al⟩

/-- How a commit that is not applied ends: page 0x28, its event, and the slot of the commit or of its abort. -/
theorem endCommit_spec (c : Commit) (e : CommitEnd) {s : State} (a : anvilOn s = true) :
    (endCommit c e s).txn = { s.txn with cur := none, res := e.res, rsn := e.rsn, epg := e.pg, eofs := e.ofs, erail := e.rail, pre := e.pre
                                         unlocked := false, applychk := e.chk } ∧
    isPend (endCommit c e s) (16 * 61 + endSource e) = true ∧ Only ([.txn] ++ raiseParts) s (endCommit c e s) ∧
    (c.slot = true → (endCommit c e s).bus.cstat = (if e.res = 4 then 5 else 4) ∧ (endCommit c e s).bus.err = e.rsn) ∧
    (c.slot = false → c.abort = true → s.bus.cstat = 1 → s.bus.op = 0x11 → e.res = 6 →
      (endCommit c e s).bus.cstat = 3 ∧ (endCommit c e s).bus.tag = s.bus.tag) := by
  obtain ⟨tv, pv, lv', av⟩ := ended_spec c e a
  rw [endCommit_eq]
  generalize ended c e s = v at tv pv lv' av
  have bv := lv'.busKept
  have ov : Only ([.txn] ++ raiseParts) s v := lv'.only.weaken (by decide)
  have slot (st : Nat) (er : Byte) (rs : List Byte) : Only ([.txn] ++ raiseParts) s (slotEnd st er rs v) :=
    ov.trans (by simp [slotEnd, only_iff, raiseParts])
  by_cases hs : c.slot = true
  · rw [if_pos hs]
    exact ⟨tv, pv, slot _ _ _, fun _ => ⟨rfl, rfl⟩, fun h => absurd hs (by simp [h])⟩
  · rw [if_neg hs]
    by_cases ha : (c.abort && decide (v.bus.cstat = 1 ∨ v.bus.cstat = 2) && decide (v.bus.op = 0x11)) = true
    · rw [if_pos ha]
      by_cases h6 : e.res = 6
      · rw [if_pos h6]
        exact ⟨tv, pv, slot _ _ _, fun h => absurd h hs, fun _ _ _ _ _ => ⟨rfl, (congrArg (·.tag) bv :)⟩⟩
      · rw [if_neg h6]
        obtain ⟨-, rt, -, ro⟩ := rejectTxn_spec 0x15 (txnRes v.txn.seq 0x10 0x15 0 0 0xFF 0 0) av
        exact ⟨rt.trans tv, isPend_raiseG_kept av 61 2 pv, ov.trans (ro.weaken (by decide)), fun h => absurd h hs, fun _ _ _ _ h => absurd h h6⟩
    · rw [if_neg ha]
      refine ⟨tv, pv, ov, fun h => absurd h hs, fun _ ab cs op _ => absurd ?_ ha⟩
      have c1 : v.bus.cstat = 1 := by rw [bv]; exact cs
      have o1 : v.bus.op = 0x11 := by rw [bv]; exact op
      rw [ab, c1, o1]
      decide

theorem rejectCommit_spec (c : Commit) (f : Found) (chk : Bool) {s : State} (a : anvilOn s = true) :
    (rejectCommit c f chk s).txn = { s.txn with cur := none, res := 4, rsn := BitVec.ofNat 8 f.rsn, epg := BitVec.ofNat 8 f.pg
                                                eofs := BitVec.ofNat 8 f.ofs, erail := BitVec.ofNat 8 f.rail, pre := 0, unlocked := false, applychk := chk } ∧
    isPend (rejectCommit c f chk s) (16 * 61 + if BitVec.ofNat 8 f.rsn = 0x11 then 3 else 2) = true ∧ Only ([.txn] ++ raiseParts) s (rejectCommit c f chk s) ∧
    (c.slot = true → (rejectCommit c f chk s).bus.cstat = 5 ∧ (rejectCommit c f chk s).bus.err = BitVec.ofNat 8 f.rsn) := by
  obtain ⟨t, p, o, b, -⟩ := endCommit_spec c ⟨4, BitVec.ofNat 8 f.rsn, BitVec.ofNat 8 f.pg, BitVec.ofNat 8 f.ofs, BitVec.ofNat 8 f.rail, 0, chk⟩ a
  exact ⟨t, p, o, b⟩

/-! The end of a validation. -/

theorem fwOn_anvil {s : State} (h : fwOn s = true) : anvilOn s = true := by
  simp only [fwOn, Bool.and_eq_true] at h
  exact h.1.1.1

theorem exec_validationEnd {s : State} {d : Commit} (fw : fwOn s = true) (cur : s.txn.cur = some d) (hp : d.pending = false) :
    exec .validationEnd s = .next (endValidation d s) := by
  show execValidationEnd s = _
  unfold execValidationEnd
  rw [if_neg (by simp [fw]), cur]
  exact congrArg Host.Outcome.next (if_pos (by simp [hp]))

theorem exec_validationEnd_alone {s : State} {d : Commit} (fw : fwOn s = true) (cur : s.txn.cur = none) (v : s.txn.val = some d) :
    exec .validationEnd s = .next (endValidate d s) := by
  show execValidationEnd s = _
  unfold execValidationEnd
  rw [if_neg (by simp [fw]), cur, v]

theorem validation_rejects (s : State) (d : Commit) (f : Found) (fw : fwOn s = true) (cur : s.txn.cur = some d) (hp : d.pending = false)
    (ab : d.abort = false) (hv : validate d s = some f) : Ends .validationEnd s (fun t =>
      t.txn.cur = none ∧ t.txn.res = 4 ∧ t.txn.rsn = BitVec.ofNat 8 f.rsn ∧ t.txn.epg = BitVec.ofNat 8 f.pg ∧ t.txn.eofs = BitVec.ofNat 8 f.ofs ∧
      t.txn.erail = BitVec.ofNat 8 f.rail ∧ t.txn.appl = s.txn.appl ∧ (d.slot = true → t.bus.cstat = 5 ∧ t.bus.err = BitVec.ofNat 8 f.rsn) ∧
      isPend t (16 * 61 + 2) = true ∧ Only ([.txn] ++ raiseParts) s t) := by
  have e := exec_validationEnd fw cur hp
  rw [endValidation, if_neg (by simp [ab]), hv] at e
  obtain ⟨t, p, o, b⟩ := rejectCommit_spec d f false (fwOn_anvil fw)
  rw [if_neg (validate_rsn_ne hv)] at p
  exact .of_eq e ⟨by rw [t], by rw [t], by rw [t], by rw [t], by rw [t], by rw [t], by rw [t], b, p, o⟩

theorem enqueueOnce_mem (c : Instr) (s : State) : c ∈ (enqueueOnce c s).pending := by
  rw [enqueueOnce]
  split
  case isTrue h => exact List.contains_iff_mem.mp h
  case isFalse => exact List.mem_append.mpr (.inr (List.mem_singleton.mpr rfl))

theorem enqueueOnce_only (c : Instr) (s : State) : Only [.pending] s (enqueueOnce c s) := by
  rw [enqueueOnce]
  split
  · exact Only.refl _ s
  · simp [enqueue, only_iff]

theorem validation_passes (s : State) (d : Commit) (fw : fwOn s = true) (cur : s.txn.cur = some d) (hp : d.pending = false) (ab : d.abort = false)
    (hv : validate d s = none) (hl : d.late = false) (hw : d.when = 0) (hr : d.reqlock = false) : Ends .validationEnd s (fun t =>
      t.txn = { s.txn with cur := some { d with pending := true }, res := 2 } ∧ Instr.commitApply ∈ t.pending ∧ Only [.txn, .pending] s t) := by
  have e := exec_validationEnd fw cur hp
  rw [endValidation, if_neg (by simp [ab]), hv] at e
  refine .of_eq (e.trans (congrArg Host.Outcome.next ((if_neg (by simp [hl])).trans (if_pos ⟨hw, .inl (by simp [hr])⟩)))) ?_
  have o := enqueueOnce_only .commitApply { s with txn := { s.txn with cur := some { d with pending := true }, res := 2 } }
  exact ⟨o .txn (by decide), enqueueOnce_mem _ _, (show Only [.txn, .pending] s _ by simp [only_iff]).trans (o.weaken (by decide))⟩

theorem validation_waits (s : State) (d : Commit) (fw : fwOn s = true) (cur : s.txn.cur = some d) (hp : d.pending = false) (ab : d.abort = false)
    (hv : validate d s = none) (hl : d.late = false) (hw : d.when = 1 ∨ d.when = 2) :
    exec .validationEnd s = .next { s with txn := { s.txn with cur := some { d with pending := true }, res := 2 } } := by
  have e := exec_validationEnd fw cur hp
  rw [endValidation, if_neg (by simp [ab]), hv] at e
  exact e.trans (congrArg Host.Outcome.next ((if_neg (by simp [hl])).trans (if_neg fun x => by omega)))

theorem validation_late (s : State) (d : Commit) (fw : fwOn s = true) (cur : s.txn.cur = some d) (hp : d.pending = false) (ab : d.abort = false)
    (hv : validate d s = none) (hl : d.late = true) : Ends .validationEnd s (fun t =>
      t.txn.cur = none ∧ t.txn.res = 4 ∧ t.txn.rsn = 0x11 ∧ t.txn.appl = s.txn.appl ∧ Only ([.txn] ++ raiseParts) s t) := by
  have e := exec_validationEnd fw cur hp
  rw [endValidation, if_neg (by simp [ab]), hv] at e
  obtain ⟨t, -, o, -⟩ := rejectCommit_spec d ⟨0x11, 0, 0, 255⟩ false (fwOn_anvil fw)
  exact .of_eq (e.trans (congrArg Host.Outcome.next (if_pos hl))) ⟨(congrArg (·.cur) t :), (congrArg (·.res) t :), (congrArg (·.rsn) t :), (congrArg (·.appl) t :), o⟩

theorem validation_aborted (s : State) (d : Commit) (fw : fwOn s = true) (cur : s.txn.cur = some d) (hp : d.pending = false) (ab : d.abort = true) :
    Ends .validationEnd s (fun t => t.txn.cur = none ∧ t.txn.res = 6 ∧ t.txn.rsn = 0x13 ∧ isPend t (16 * 61 + 5) = true ∧
      Only ([.txn] ++ raiseParts) s t) := by
  have e := exec_validationEnd fw cur hp
  rw [endValidation, if_pos ab] at e
  obtain ⟨t, p, o, -, -⟩ := endCommit_spec d ⟨6, 0x13, 0, 0, 0xFF, 0, false⟩ (fwOn_anvil fw)
  exact .of_eq e ⟨by rw [t], by rw [t], by rw [t], p, o⟩

/-- What a validation finds does not depend on the validation that waits. -/
theorem validate_noVal (d : Commit) (s : State) : validate d { s with txn := { s.txn with val := none } } = validate d s := rfl

theorem validation_alone (s : State) (d : Commit) (fw : fwOn s = true) (cur : s.txn.cur = none) (v : s.txn.val = some d) (hv : validate d s = none) :
    Ends .validationEnd s (fun t => t.txn = { s.txn with val := none } ∧
      t.bus = { s.bus with cstat := 3, err := 0, cres := txnRes 0 2 0 0 0 0xFF 0 0 } ∧ Only [.txn, .bus] s t) := by
  have e := exec_validationEnd_alone fw cur v
  unfold endValidate at e
  dsimp only at e
  rw [validate_noVal, hv] at e
  exact .of_eq e ⟨rfl, rfl, by simp [slotEnd, only_iff]⟩

theorem validation_alone_fails (s : State) (d : Commit) (f : Found) (fw : fwOn s = true) (cur : s.txn.cur = none) (v : s.txn.val = some d)
    (hv : validate d s = some f) : Ends .validationEnd s (fun t => t.txn = { s.txn with val := none } ∧
      t.bus.cstat = 5 ∧ t.bus.err = BitVec.ofNat 8 f.rsn ∧ t.bus.tag = s.bus.tag ∧
      t.bus.cres = txnRes 0 0x10 (BitVec.ofNat 8 f.rsn) (BitVec.ofNat 8 f.pg) (BitVec.ofNat 8 f.ofs) (BitVec.ofNat 8 f.rail) 0 0 ∧
      isPend t (16 * 61 + 2) = true ∧ Only ([.txn] ++ raiseParts) s t) := by
  have e := exec_validationEnd_alone fw cur v
  unfold endValidate at e
  dsimp only at e
  rw [validate_noVal, hv] at e
  obtain ⟨b, t, p, o⟩ := rejectTxn_spec (BitVec.ofNat 8 f.rsn)
    (txnRes 0 0x10 (BitVec.ofNat 8 f.rsn) (BitVec.ofNat 8 f.pg) (BitVec.ofNat 8 f.ofs) (BitVec.ofNat 8 f.rail) 0 0)
    (s := { s with txn := { s.txn with val := none } }) (fwOn_anvil fw)
  exact .of_eq e ⟨t, by rw [b], by rw [b], by rw [b], by rw [b], p,
    (show Only ([.txn] ++ raiseParts) s { s with txn := { s.txn with val := none } } by simp [only_iff, raiseParts]).trans (o.weaken (by decide))⟩

/-! The deadline. -/

theorem deadline_pending (s : State) (d : Commit) (a : anvilOn s = true) (cur : s.txn.cur = some d) (hp : d.pending = true) (hr : d.reqlock = true)
    (hw : d.when = 1) (hd : d.dlms ≠ 0) : Ends .commitDeadline s (fun t =>
      t.txn.cur = none ∧ t.txn.res = 4 ∧ t.txn.rsn = 0x11 ∧ isPend t (16 * 61 + 3) = true ∧ Only ([.txn] ++ raiseParts) s t) := by
  have e : exec .commitDeadline s = .next (noLock d (disarm .commitDeadline s)) := by
    show execCommitDeadline s = _
    unfold execCommitDeadline
    dsimp only
    rw [show (disarm .commitDeadline s).txn.cur = some d from cur]
    exact congrArg Host.Outcome.next ((if_neg (by simp [hr, hw, hd])).trans (if_pos hp))
  obtain ⟨t, p, o, -⟩ := rejectCommit_spec d ⟨0x11, 0, 0, 255⟩ false (s := disarm .commitDeadline s) a
  refine .of_eq e ⟨(congrArg (·.cur) t :), (congrArg (·.res) t :), (congrArg (·.rsn) t :), p, ?_⟩
  exact (show Only ([.txn] ++ raiseParts) s (disarm .commitDeadline s) by simp [only_iff, raiseParts]).trans o

theorem deadline_validating (s : State) (d : Commit) (cur : s.txn.cur = some d) (hp : d.pending = false) (hr : d.reqlock = true)
    (hw : d.when = 0) (hd : d.dlms ≠ 0) : Ends .commitDeadline s (fun t =>
      t.txn = { s.txn with cur := some { d with late := true } } ∧ Only [.txn, .clk] s t) := by
  refine .of_eq (t := { disarm .commitDeadline s with txn := { s.txn with cur := some { d with late := true } } }) ?_ ⟨rfl, by simp [only_iff]⟩
  show execCommitDeadline s = _
  unfold execCommitDeadline
  dsimp only
  rw [show (disarm .commitDeadline s).txn.cur = some d from cur]
  exact congrArg Host.Outcome.next ((if_neg (by simp [hr, hw, hd])).trans (if_neg (by simp [hp])))

/-- Settles O25: each end of a validation by what it does to the commit in flight. -/
theorem commitValidation : Obligations.CommitValidation := by
  unfold Obligations.CommitValidation
  exact ⟨validation_rejects, validation_passes, validation_waits, validation_late, validation_aborted, validation_alone, validation_alone_fails,
    deadline_pending, deadline_validating⟩

end Sys2Proof
end

section
/-! The apply moment. -/

namespace Sys2Proof

open Sys2Proof.Machine

/-- An immediate commit that switches rail 5 off. -/
def offCommit : Commit := { seq := 1, scope := 0x0200, mode := 0, angle := 0, due := 0, dlms := 0, on := 0, off := bit 5, pending := true, abort := false
                            late := false, slot := false, half := none }

/-- Rail 5 is on. Rail 6 depends on it and is off, yet shows as power-good: the invariants of Obligations.PartsStaySound exclude such a state,
the statement does not. -/
def goodOff : State := { putLive (key 0x21 6) [0x85] inRun with rl.en := bit 5, rl.pgd := bit 5, rl.pg := bit 5 ||| bit 6, rl.up := bit 5, txn.cur := some offCommit }

/-- Refutes O26: a dependant that is off keeps the power-good that it shows. -/
theorem not_commitApplies : ¬ Obligations.CommitApplies := by
  unfold Obligations.CommitApplies
  intro h
  obtain ⟨-, -, -, -, -, -, -, -, -, -, h, -⟩ := h
  obtain ⟨t, e, -, -, -, -, -, -, off, -, -⟩ := h goodOff offCommit ⟨by decide +kernel, by decide +kernel, by decide +kernel⟩ (by decide +kernel) (by decide +kernel)
    (by decide +kernel) (by decide +kernel) (.inl (by decide +kernel))
  have good : has t.rl.pg 6 = false := (off 6 (by decide +kernel)).2
  have r : endsIn (fun t => has t.rl.pg 6) (exec .commitApply goodOff) = true := by decide +kernel
  exact absurd good (by rw [show has t.rl.pg 6 = true from endsIn_of r e]; decide)

end Sys2Proof
end

section
/-! Aborts and reverts. -/

namespace Sys2Proof

open Sys2Proof.Machine

/-! Copies between staging and live. -/

theorem mget_of_unlisted {α : Type} (d : α) {m : Map α} {k : Nat} (h : k ∉ m.map (·.1)) : mget d m k = d := by
  induction m with
  | nil => rfl
  | cons x m ih =>
    obtain ⟨j, v⟩ := x
    rw [List.map_cons, List.mem_cons, not_or] at h
    rw [mget, if_neg (Ne.symm h.1)]
    exact ih h.2

/-- A written key reads as written, and another one as before, whatever its reset value. -/
theorem rget_rput_same (m : RegMap) (k : Nat) (v : Byte) : rget (rput m k v) k = v := mget_mput_same ..

theorem rget_rput_other {j k : Nat} (h : j ≠ k) (m : RegMap) (v : Byte) : rget (rput m k v) j = rget m j := by
  unfold rget rput mput
  split
  · exact mget_merase_other _ h m
  · exact mget_minsert_other _ _ h m

theorem rget_foldl_rput (g : Nat → Byte) (k : Nat) (ks : List Nat) (m : RegMap) :
    rget (ks.foldl (fun m k => rput m k (g k)) m) k = if k ∈ ks then g k else rget m k := by
  induction ks generalizing m with
  | nil => simp
  | cons x ks ih =>
    rw [List.foldl_cons, ih]
    by_cases hx : k = x
    · subst hx
      simp [rget_rput_same]
    · simp [rget_rput_other hx, hx]

/-- Listed keys take their bytes, and every other key keeps its own. -/
theorem rget_takeKeys (ks : List Nat) (g : Nat → Byte) (m : RegMap) (k : Nat) :
    rget (takeKeys ks g m) k = if k ∈ ks then g k else rget m k := by
  rw [takeKeys, rget_foldl_rput]
  by_cases h : k ∈ ks
  · rw [if_pos h, if_pos h]
  · rw [if_neg h, if_neg h]
    have := mget_filter_keys (resetByte k) (fun k => !ks.contains k) m k
    rw [if_pos (by simpa using h)] at this
    exact this

/-- A key whose bytes differ in the two copies is among those that a copy runs over. -/
theorem same_of_not_mem_diffKeys {s : State} {k : Nat} (h : k ∉ diffKeys s) : sg s k = lv s k := by
  by_contra ne
  have un : k ∉ s.regs.stg.map (·.1) ++ s.regs.live.map (·.1) := fun m => h (List.mem_filter.mpr ⟨m, decide_eq_true ne⟩)
  rw [List.mem_append, not_or] at un
  exact ne ((mget_of_unlisted _ un.1).trans (mget_of_unlisted _ un.2).symm)

theorem sg_revertPages (s : State) (w : Word) (k : Nat) : sg (revertPages w s) k = if inScope w k = true then lv s k else sg s k := by
  have e : sg (revertPages w s) k = if k ∈ (diffKeys s).filter (inScope w) then lv s k else sg s k := rget_takeKeys ..
  rw [e]
  by_cases hs : inScope w k = true
  · rw [if_pos hs]
    by_cases hd : k ∈ diffKeys s
    · rw [if_pos (List.mem_filter.mpr ⟨hd, hs⟩)]
    · rw [if_neg fun m => hd (List.mem_filter.mp m).1, same_of_not_mem_diffKeys hd]
  · rw [if_neg hs, if_neg fun m => hs (List.mem_filter.mp m).2]

/-! TXN_ABORT. -/

theorem exec_txnAbort {p : Packet} {s : State} (h : Takes false p s) :
    exec (.txnAbort p) s = .next (abortBody p (takeSlot 0x11 p.tag (ackAccess s))) := congrArg Host.Outcome.next (packet_open h _)

theorem abort_without (s : State) (p : Packet) (h : Takes false p s) (hp : p.params = []) (cur : s.txn.cur = none) :
    Ends (.txnAbort p) s (fun t => SlotShows 5 0x15 (txnRes s.txn.seq 0x10 0x15 0 0 0xFF 0 0) p t ∧ t.txn = s.txn ∧
      isPend t (16 * 61 + 2) = true ∧ Only raiseParts s t) := by
  have e := exec_txnAbort h
  unfold abortBody at e
  rw [if_neg (by simp [hp]), taken_txn_of_none cur, cur] at e
  exact (Ends.refused (takes_anvil h) e).imp fun t ⟨a, b, d, _, _, f⟩ => ⟨a, b.trans (taken_txn_of_none cur ..), d, f cur⟩

theorem abort_pending (s : State) (p : Packet) (d : Commit) (h : Takes false p s) (hp : p.params = []) (cur : s.txn.cur = some d)
    (hd : d.pending = true) : Ends (.txnAbort p) s (fun t => t.bus.cstat = 3 ∧ t.bus.tag = p.tag ∧
      t.txn.cur = none ∧ t.txn.res = 6 ∧ t.txn.rsn = 0x13 ∧ isPend t (16 * 61 + 5) = true ∧ t.regs = s.regs) := by
  have e := exec_txnAbort h
  unfold abortBody at e
  rw [if_neg (by simp [hp]), taken_txn_of_some cur] at e
  have e' := e.trans (congrArg Host.Outcome.next (if_pos hd))
  obtain ⟨t, q, o, -, b⟩ := endCommit_spec { d with abort := true, slot := false } ⟨6, 0x13, 0, 0, 0xFF, 0, false⟩
    (s := takeSlot 0x11 p.tag (ackAccess s)) (show anvilOn s = true from takes_anvil h)
  obtain ⟨bc, bt⟩ := b rfl rfl rfl rfl rfl
  exact .of_eq e' ⟨bc, bt, by rw [t], by rw [t], by rw [t], q, o .regs (by decide)⟩

theorem abort_validating (s : State) (p : Packet) (d : Commit) (h : Takes false p s) (hp : p.params = []) (cur : s.txn.cur = some d)
    (hd : d.pending = false) : Ends (.txnAbort p) s (fun t => t.bus.cstat = 2 ∧ t.bus.tag = p.tag ∧
      t.txn = { s.txn with cur := some { d with abort := true, slot := false } } ∧ Only [.bus, .txn] s t) := by
  have e := exec_txnAbort h
  unfold abortBody at e
  rw [if_neg (by simp [hp]), taken_txn_of_some cur] at e
  refine .of_eq (e.trans (congrArg Host.Outcome.next (if_neg (by simp [hd])))) ⟨rfl, rfl, rfl, ?_⟩
  exact (taken_only 0x11 p.tag s).trans (by simp [slotBusy, only_iff])

/-! TXN_REVERT. -/

theorem exec_txnRevert {p : Packet} {s : State} (h : Takes false p s) :
    exec (.txnRevert p) s = .next (revertBody p (takeSlot 0x13 p.tag (ackAccess s))) := congrArg Host.Outcome.next (packet_open h _)

theorem revert_reverts {p : Packet} {s : State} {w : Word} (e : exec (.txnRevert p) s = .next (doneWith [] (revertPages w (takeSlot 0x13 p.tag (ackAccess s))))) :
    Ends (.txnRevert p) s (fun t => SlotShows 3 0 [] p t ∧ t.regs = (revertPages w s).regs ∧ Only [.bus, .txn, .regs] s t) := by
  refine .of_eq e ⟨⟨rfl, rfl, rfl, rfl⟩, rfl, ?_⟩
  exact ((taken_only 0x13 p.tag s).weaken (by decide)).trans (by simp [doneWith, slotEnd, revertPages, only_iff])

theorem revert_refused {p : Packet} {s : State} (h : Takes false p s)
    (e : exec (.txnRevert p) s = .next (rejectTxn 2 [] (takeSlot 0x13 p.tag (ackAccess s)))) :
    Ends (.txnRevert p) s (fun t => SlotShows 5 2 [] p t ∧ t.regs = s.regs ∧ isPend t (16 * 61 + 2) = true) :=
  (Ends.refused (takes_anvil h) e).imp fun _ ⟨a, _, d, g, _, _⟩ => ⟨a, g, d⟩

theorem leNat_pair (a b : Byte) : leNat [a, b] < 65536 := by
  have := a.isLt
  have := b.isLt
  simp only [leNat]
  omega

theorem scope_named {a b : Byte} (h : BitVec.ofNat 16 (leNat [a, b]) ≠ 0) (h' : scopeBad (BitVec.ofNat 16 (leNat [a, b])) = false) :
    scopeEmpty (BitVec.ofNat 16 (leNat [a, b])) = false := by
  simp only [scopeBad, decide_eq_false_iff_not, not_not] at h'
  simp only [scopeEmpty, decide_eq_false_iff_not]
  intro z
  refine h (BitVec.eq_of_toNat_eq ?_)
  show _ = 0
  omega

/-- A revert whose parameters name pages, beside no commit that validates, goes by the scope of the commit in flight. -/
theorem revertBody_eq {p : Packet} {u : State} {a b : Byte} (hv : validating u = false) (hp : p.params = [a, b])
    (h : BitVec.ofNat 16 (leNat [a, b]) ≠ 0) (h' : scopeBad (BitVec.ofNat 16 (leNat [a, b])) = false) {r : State}
    (hn : u.txn.cur = none → r = doneWith [] (revertPages (BitVec.ofNat 16 (leNat [a, b])) u))
    (hs : ∀ c, u.txn.cur = some c → r = if BitVec.ofNat 16 (leNat [a, b]) &&& c.scope ≠ 0 then rejectTxn 2 [] u
      else doneWith [] (revertPages (BitVec.ofNat 16 (leNat [a, b])) u)) : revertBody p u = r := by
  unfold revertBody
  dsimp only
  rw [hp, if_neg (by simp [hv]), if_neg (by rw [scope_named h h']; simp), if_neg (by simp [h'])]
  cases hc : u.txn.cur with
  | none => exact (hn hc).symm
  | some c => exact (hs c hc).symm

theorem revert_alone (s : State) (p : Packet) (a b : Byte) (h : Takes false p s) (hp : p.params = [a, b]) (cur : s.txn.cur = none)
    (h1 : BitVec.ofNat 16 (leNat [a, b]) ≠ 0) (h2 : scopeBad (BitVec.ofNat 16 (leNat [a, b])) = false) :
    Ends (.txnRevert p) s (fun t => SlotShows 3 0 [] p t ∧ t.regs = (revertPages (BitVec.ofNat 16 (leNat [a, b])) s).regs ∧
      Only [.bus, .txn, .regs] s t) := by
  have c : (takeSlot 0x13 p.tag (ackAccess s)).txn.cur = none := by rw [taken_txn_of_none cur]; exact cur
  refine revert_reverts ((exec_txnRevert h).trans (congrArg Host.Outcome.next ?_))
  exact revertBody_eq (validating_none c) hp h1 h2 (fun _ => rfl) fun c' h => absurd (c.symm.trans h) (by simp)

theorem revert_validating (s : State) (p : Packet) (h : Takes false p s) (hv : validating s = true) :
    Ends (.txnRevert p) s (fun t => SlotShows 5 2 [] p t ∧ t.regs = s.regs ∧ isPend t (16 * 61 + 2) = true) := by
  refine revert_refused h ((exec_txnRevert h).trans (congrArg Host.Outcome.next (if_pos ?_)))
  cases hc : s.txn.cur with
  | none => exact absurd hv (by simp [validating_none hc])
  | some d =>
    rw [validating_of hc] at hv
    rw [validating_of (by rw [taken_txn_of_some hc])]
    exact hv

theorem revert_beside (s : State) (p : Packet) (a b : Byte) (d : Commit) (h : Takes false p s) (hp : p.params = [a, b]) (cur : s.txn.cur = some d)
    (hd : d.pending = true) (h1 : BitVec.ofNat 16 (leNat [a, b]) ≠ 0) (h2 : scopeBad (BitVec.ofNat 16 (leNat [a, b])) = false)
    (h3 : BitVec.ofNat 16 (leNat [a, b]) &&& d.scope = 0) : Ends (.txnRevert p) s (fun t =>
      SlotShows 3 0 [] p t ∧ t.regs = (revertPages (BitVec.ofNat 16 (leNat [a, b])) s).regs ∧ Only [.bus, .txn, .regs] s t) := by
  have c : (takeSlot 0x13 p.tag (ackAccess s)).txn.cur = some { d with slot := false } := by rw [taken_txn_of_some cur]
  refine revert_reverts ((exec_txnRevert h).trans (congrArg Host.Outcome.next ?_))
  refine revertBody_eq (by rw [validating_of c]; simp [hd]) hp h1 h2 (fun h => absurd (c.symm.trans h) (by simp)) fun c' h => ?_
  obtain rfl : { d with slot := false } = c' := Option.some.inj (c.symm.trans h)
  exact (if_neg (by simp only [ne_eq, not_not]; exact h3)).symm

theorem revert_scope (s : State) (p : Packet) (a b : Byte) (d : Commit) (h : Takes false p s) (hp : p.params = [a, b]) (cur : s.txn.cur = some d)
    (hd : d.pending = true) (h1 : BitVec.ofNat 16 (leNat [a, b]) ≠ 0) (h2 : scopeBad (BitVec.ofNat 16 (leNat [a, b])) = false)
    (h3 : BitVec.ofNat 16 (leNat [a, b]) &&& d.scope ≠ 0) :
    Ends (.txnRevert p) s (fun t => SlotShows 5 2 [] p t ∧ t.regs = s.regs ∧ isPend t (16 * 61 + 2) = true) := by
  have c : (takeSlot 0x13 p.tag (ackAccess s)).txn.cur = some { d with slot := false } := by rw [taken_txn_of_some cur]
  refine revert_refused h ((exec_txnRevert h).trans (congrArg Host.Outcome.next ?_))
  refine revertBody_eq (by rw [validating_of c]; simp [hd]) hp h1 h2 (fun h => absurd (c.symm.trans h) (by simp)) fun c' h => ?_
  obtain rfl : { d with slot := false } = c' := Option.some.inj (c.symm.trans h)
  exact (if_pos h3).symm

/-- Settles O27: an abort by the end of its commit, a revert by the keys that it copies. -/
theorem abortAndRevert : Obligations.AbortAndRevert := by
  unfold Obligations.AbortAndRevert
  exact ⟨abort_without, abort_pending, abort_validating, revert_alone, revert_validating, sg_revertPages, revert_beside, revert_scope⟩

end Sys2Proof
end

section
/-! SUPPORT. What the operations leave alone, raise marks apart, function by function. -/

namespace Sys2Proof.Machine

open Sys2Proof

variable {z : State} {l : List Part}

theorem marginSettle_leaves (s : State) (hs : Leaves [.tst] z s) :
    Leaves [.tst] z (marginSettle s) := by
  unfold marginSettle
  repeat' (first
    | with_reducible assumption | with_reducible intro _ | subst x | with_reducible apply Leaves.ite | assumption)

theorem logUpdate_leaves (s : State) (hs : Leaves [] z s) :
    Leaves [] z (logUpdate s) := by
  unfold logUpdate
  repeat' (first
    | with_reducible assumption | with_reducible intro _ | subst x | with_reducible apply logOther_leaves)

theorem saveFails_leaves (s : State) (hs : Leaves [.fl] z s) :
    Leaves [.fl] z (saveFails s) := by
  unfold saveFails
  repeat' (first
    | with_reducible assumption | with_reducible intro _ | subst x | with_reducible apply Leaves.ite
    | with_reducible apply raiseG_leaves | assumption)

theorem makeReadOnly_leaves (n : Nat) (s : State) (hs : Leaves [.fl] z s) :
    Leaves [.fl] z (makeReadOnly n s) := by
  unfold makeReadOnly
  repeat' (first
    | with_reducible assumption | with_reducible intro _ | subst x
    | (extract_lets +onlyGivenNames x; have hx : Leaves [.fl] z x := ?_; clear_value x)
    | (extract_lets +onlyGivenNames x; clear_value x) | with_reducible apply Leaves.ite | split
    | (with_reducible apply Leaves.after (saveFails_leaves _ (Leaves.refl _ _)); rotate_left; decide)
    | with_reducible apply raiseG_leaves | assumption)

theorem dropRefresh_leaves (p : Nat) (s : State) (hs : Leaves [.fl] z s) :
    Leaves [.fl] z (dropRefresh p s) := by
  unfold dropRefresh
  repeat' (first
    | with_reducible assumption | with_reducible intro _ | subst x | assumption)

theorem consumeBuffer_leaves (n : Nat) (s : State) (hs : Leaves [.fl] z s) :
    Leaves [.fl] z (consumeBuffer n s) := by
  unfold consumeBuffer
  repeat' (first
    | with_reducible assumption | with_reducible intro _ | subst x
    | (extract_lets +onlyGivenNames x; clear_value x) | split
    | (with_reducible apply Leaves.after (setSector_leaves _ _ _ (Leaves.refl _ _)); rotate_left; decide))

theorem takeSpare_leaves (n p : Nat) (c : Option Content) (s : State) (hs : Leaves [.tst, .fl] z s) :
    Leaves [.tst, .fl] z (takeSpare n p c s).2 := by
  unfold takeSpare
  repeat' (first
    | with_reducible assumption | with_reducible intro _ | subst x
    | (extract_lets +onlyGivenNames x; have hx : Leaves [.tst, .fl] z x := ?_; clear_value x)
    | (extract_lets +onlyGivenNames x; clear_value x) | with_reducible apply Leaves.ite | split
    | (with_reducible apply Leaves.after (dropRefresh_leaves _ _ (Leaves.refl _ _)); rotate_left; decide)
    | (with_reducible apply Leaves.after (makeReadOnly_leaves _ _ (Leaves.refl _ _)); rotate_left; decide)
    | with_reducible apply raiseG_leaves
    | (with_reducible apply Leaves.after (marginSettle_leaves _ (Leaves.refl _ _)); rotate_left; decide)
    | (with_reducible apply Leaves.after (setSector_leaves _ _ _ (Leaves.refl _ _)); rotate_left; decide))

theorem land_leaves (n : Nat) (ok : Bool) (c : Option Content) (s : State) (hs : Leaves [.safe, .tst, .pat, .gau, .fl, .upd] z s) :
    Leaves [.safe, .tst, .pat, .gau, .fl, .upd] z (land n ok c s).2 := by
  unfold land
  repeat' (first
    | with_reducible assumption | with_reducible intro _ | subst x
    | (extract_lets +onlyGivenNames x; have hx : Leaves [.safe, .tst, .pat, .gau, .fl, .upd] z x := ?_; clear_value x)
    | (extract_lets +onlyGivenNames x; clear_value x) | with_reducible apply Leaves.ite | split
    | (with_reducible apply Leaves.after (takeSpare_leaves _ _ _ _ (Leaves.refl _ _)); rotate_left; decide)
    | (with_reducible apply Leaves.after (consumeBuffer_leaves _ _ (Leaves.refl _ _)); rotate_left; decide)
    | (with_reducible apply Leaves.after (dropRefresh_leaves _ _ (Leaves.refl _ _)); rotate_left; decide)
    | with_reducible apply raiseG_leaves
    | (with_reducible apply Leaves.after (marginSettle_leaves _ (Leaves.refl _ _)); rotate_left; decide)
    | (with_reducible apply Leaves.after (settleBanks_leaves _ (Leaves.refl _ _)); rotate_left; decide)
    | (with_reducible apply Leaves.after (setSector_leaves _ _ _ (Leaves.refl _ _)); rotate_left; decide)
    | refine leaves_pair (by with_reducible assumption) ?_ | exact Leaves.then (by with_reducible assumption) (takeSpare_leaves _ _ _ _ (Leaves.refl _ _)) (by decide))

theorem landNow_leaves (n : Nat) (c : Option Content) (s : State) (hs : Leaves [.free, .safe, .tst, .pat, .gau, .fl, .upd] z s) :
    Leaves [.free, .safe, .tst, .pat, .gau, .fl, .upd] z (landNow n c s).2 := by
  unfold landNow
  repeat' (first
    | with_reducible assumption | with_reducible intro _ | subst x
    | split
    | (with_reducible apply Leaves.after (land_leaves _ _ _ _ (Leaves.refl _ _)); rotate_left; decide)
    | (with_reducible apply Leaves.after (drawBool_leaves _ (Leaves.refl _ _)); rotate_left; decide)
    | refine leaves_pair (by with_reducible assumption) ?_ | exact Leaves.then (by with_reducible assumption) (land_leaves _ _ _ _ (Leaves.refl _ _)) (by decide))

theorem loadPlainH_leaves (s : State) (hs : Leaves [.regs] z s) :
    Leaves [.regs] z (loadPlainH s) := by
  unfold loadPlainH
  repeat' (first
    | with_reducible assumption | with_reducible intro _ | subst x
    | (with_reducible apply Leaves.after (putPlain_leaves _ _ _ (Leaves.refl _ _)); rotate_left; decide))

theorem clearTh_leaves (k : Nat) (s : State) (hs : Leaves [.hk] z s) :
    Leaves [.hk] z (clearTh k s) := by
  unfold clearTh
  repeat' (first
    | with_reducible assumption | with_reducible intro _ | subst x | with_reducible apply Leaves.ite | assumption)

theorem reloadPlain_leaves (s : State) (hs : Leaves [.regs, .hk] z s) :
    Leaves [.regs, .hk] z (reloadPlain s) := by
  unfold reloadPlain
  repeat' (first
    | with_reducible assumption | with_reducible intro _ | subst x
    | (extract_lets +onlyGivenNames x; have hx : Leaves [.regs, .hk] z x := ?_; clear_value x)
    | (extract_lets +onlyGivenNames x; clear_value x) | split
    | (with_reducible apply Leaves.after (clearTh_leaves _ _ (Leaves.refl _ _)); rotate_left; decide)
    | (with_reducible apply Leaves.after (loadPlainH_leaves _ (Leaves.refl _ _)); rotate_left; decide)
    | with_reducible apply raiseG_leaves | with_reducible apply leaves_foldl | dsimp only | assumption)

theorem safePolicies_leaves (s : State) (hs : Leaves [.clk, .free, .qt, .inp, .rl, .bk, .seq, .safe, .pat, .chg] z s) :
    Leaves [.clk, .free, .qt, .inp, .rl, .bk, .seq, .safe, .pat, .chg] z (safePolicies s) := by
  unfold safePolicies
  repeat' (first
    | with_reducible assumption | with_reducible intro _ | subst x
    | (extract_lets +onlyGivenNames x; clear_value x) | with_reducible apply Leaves.ite | split
    | (with_reducible apply Leaves.after (switchOff_leaves _ _ _ (Leaves.refl _ _)); rotate_left; decide)
    | (with_reducible apply Leaves.after (arm_leaves _ _ _ (Leaves.refl _ _)); rotate_left; decide) | with_reducible apply leaves_foldl
    | dsimp only | assumption)

theorem safeOpen_leaves (s : State) (hs : Leaves [.regs, .plt] z s) :
    Leaves [.regs, .plt] z (safeOpen s) := by
  unfold safeOpen
  repeat' (first
    | with_reducible assumption | with_reducible intro _ | subst x
    | (extract_lets +onlyGivenNames x; have hx : Leaves [.regs, .plt] z x := ?_; clear_value x)
    | (extract_lets +onlyGivenNames x; clear_value x) | with_reducible apply raiseIf_leaves | with_reducible apply raiseG_leaves
    | (with_reducible apply Leaves.after (putPlain_leaves _ _ _ (Leaves.refl _ _)); rotate_left; decide) | assumption)

theorem setGau_leaves (f : Gau → Gau) (s : State) (hs : Leaves [.gau] z s) :
    Leaves [.gau] z (setGau f s) := by
  unfold setGau
  repeat' (first
    | with_reducible assumption | with_reducible intro _ | subst x | assumption)

theorem publishSoc_leaves (s : State) (hs : Leaves [.gau] z s) :
    Leaves [.gau] z (publishSoc s) := by
  unfold publishSoc
  repeat' (first
    | with_reducible assumption | with_reducible intro _ | subst x
    | (extract_lets +onlyGivenNames x; clear_value x) | with_reducible apply Leaves.ite
    | (with_reducible apply Leaves.after (setGau_leaves _ _ (Leaves.refl _ _)); rotate_left; decide)
    | with_reducible apply raiseIf_leaves)

theorem abandonLearn_leaves (why : Nat) (s : State) (hs : Leaves [.gau] z s) :
    Leaves [.gau] z (abandonLearn why s) := by
  unfold abandonLearn
  repeat' (first
    | with_reducible assumption | with_reducible intro _ | subst x | with_reducible apply Leaves.ite
    | (with_reducible apply Leaves.after (setGau_leaves _ _ (Leaves.refl _ _)); rotate_left; decide)
    | with_reducible apply raiseG_leaves)

theorem gaugeFirstUse_leaves (s : State) (hs : Leaves [.gau] z s) :
    Leaves [.gau] z (gaugeFirstUse s) := by
  unfold gaugeFirstUse
  repeat' (first
    | with_reducible assumption | with_reducible intro _ | subst x
    | (with_reducible apply Leaves.after (setGau_leaves _ _ (Leaves.refl _ _)); rotate_left; decide)
    | with_reducible apply raiseIf_leaves)

theorem gaugeStart_leaves (k : GaugeStart) (s : State) (hs : Leaves [.gau] z s) :
    Leaves [.gau] z (gaugeStart k s) := by
  unfold gaugeStart
  repeat' (first
    | with_reducible assumption | with_reducible intro _ | subst x
    | (extract_lets +onlyGivenNames x; have hx : Leaves [.gau] z x := ?_; clear_value x)
    | (extract_lets +onlyGivenNames x; clear_value x) | with_reducible apply Leaves.ite | split
    | (with_reducible apply Leaves.after (gaugeFirstUse_leaves _ (Leaves.refl _ _)); rotate_left; decide)
    | (with_reducible apply Leaves.after (abandonLearn_leaves _ _ (Leaves.refl _ _)); rotate_left; decide)
    | (with_reducible apply Leaves.after (publishSoc_leaves _ (Leaves.refl _ _)); rotate_left; decide)
    | (with_reducible apply Leaves.after (setGau_leaves _ _ (Leaves.refl _ _)); rotate_left; decide)
    | with_reducible apply raiseIf_leaves)

theorem setDs_leaves (f : Ds → Ds) (s : State) (hs : Leaves [.ds] z s) :
    Leaves [.ds] z (setDs f s) := by
  unfold setDs
  repeat' (first
    | with_reducible assumption | with_reducible intro _ | subst x | assumption)

theorem pollWatch_leaves (s : State) (hs : Leaves [.clk, .ds] z s) :
    Leaves [.clk, .ds] z (pollWatch s) := by
  unfold pollWatch
  repeat' (first
    | with_reducible assumption | with_reducible intro _ | subst x
    | (extract_lets +onlyGivenNames x; clear_value x) | with_reducible apply Leaves.ite
    | (with_reducible apply Leaves.after (setDs_leaves _ _ (Leaves.refl _ _)); rotate_left; decide)
    | (with_reducible apply Leaves.after (arm_leaves _ _ _ (Leaves.refl _ _)); rotate_left; decide)
    | (with_reducible apply Leaves.after (disarm_leaves _ _ (Leaves.refl _ _)); rotate_left; decide))

theorem scanHeaders_leaves (bad : List Nat) (s : State) (hs : Leaves [.fl] z s) :
    Leaves [.fl] z (scanHeaders bad s) := by
  unfold scanHeaders
  repeat' (first
    | with_reducible assumption | with_reducible intro _ | subst x
    | (extract_lets +onlyGivenNames x; clear_value x)
    | (with_reducible apply Leaves.after (setSector_leaves _ _ _ (Leaves.refl _ _)); rotate_left; decide)
    | with_reducible apply leaves_foldl)

theorem resumeRefresh_leaves (s : State) (hs : Leaves [.free, .safe, .tst, .pat, .gau, .fl, .upd] z s) :
    Leaves [.free, .safe, .tst, .pat, .gau, .fl, .upd] z (resumeRefresh s) := by
  unfold resumeRefresh
  repeat' (first
    | with_reducible assumption | with_reducible intro _ | subst x
    | (extract_lets +onlyGivenNames x; have hx : Leaves [.free, .safe, .tst, .pat, .gau, .fl, .upd] z x := ?_; clear_value x)
    | (extract_lets +onlyGivenNames x; clear_value x) | with_reducible apply Leaves.ite | split
    | (with_reducible apply Leaves.after (landNow_leaves _ _ _ (Leaves.refl _ _)); rotate_left; decide)
    | (with_reducible apply Leaves.after (marginSettle_leaves _ (Leaves.refl _ _)); rotate_left; decide)
    | (with_reducible apply Leaves.after (setSector_leaves _ _ _ (Leaves.refl _ _)); rotate_left; decide)
    | with_reducible apply leaves_foldl | dsimp only)

theorem headerScan_leaves (bad : List Nat) (s : State) (hs : Leaves [.free, .safe, .tst, .pat, .gau, .fl, .upd] z s) :
    Leaves [.free, .safe, .tst, .pat, .gau, .fl, .upd] z (headerScan bad s) := by
  unfold headerScan
  repeat' (first
    | with_reducible assumption | with_reducible intro _ | subst x
    | (extract_lets +onlyGivenNames x; have hx : Leaves [.free, .safe, .tst, .pat, .gau, .fl, .upd] z x := ?_; clear_value x)
    | (extract_lets +onlyGivenNames x; clear_value x)
    | (with_reducible apply Leaves.after (resumeRefresh_leaves _ (Leaves.refl _ _)); rotate_left; decide)
    | (with_reducible apply Leaves.after (scanHeaders_leaves _ _ (Leaves.refl _ _)); rotate_left; decide)
    | with_reducible apply raiseG_leaves
    | (with_reducible apply Leaves.after (settleBanks_leaves _ (Leaves.refl _ _)); rotate_left; decide)
    | with_reducible apply leaves_foldl | dsimp only | assumption)

theorem logReset_leaves (s : State) (hs : Leaves [] z s) :
    Leaves [] z (logReset s) := by
  unfold logReset
  repeat' (first
    | with_reducible assumption | with_reducible intro _ | subst x | with_reducible apply logOther_leaves)

theorem wantJournal_leaves (s : State) (hs : Leaves [.upd] z s) :
    Leaves [.upd] z (wantJournal s) := by
  unfold wantJournal
  repeat' (first
    | with_reducible assumption | with_reducible intro _ | subst x | with_reducible apply Leaves.ite | assumption)

theorem updState_leaves (n : Nat) (s : State) (hs : Leaves [.upd] z s) :
    Leaves [.upd] z (updState n s) := by
  unfold updState
  repeat' (first
    | with_reducible assumption | with_reducible intro _ | subst x
    | (with_reducible apply Leaves.after (wantJournal_leaves _ (Leaves.refl _ _)); rotate_left; decide)
    | (with_reducible apply Leaves.after (logUpdate_leaves _ (Leaves.refl _ _)); rotate_left; decide) | assumption)

theorem scrubLateCheck_leaves (s : State) (hs : Leaves [.fl] z s) :
    Leaves [.fl] z (scrubLateCheck s) := by
  unfold scrubLateCheck
  repeat' (first
    | with_reducible assumption | with_reducible intro _ | subst x | with_reducible apply Leaves.ite
    | with_reducible apply raiseG_leaves | assumption)

theorem updInterrupted_leaves (s : State) (hs : Leaves [.upd] z s) :
    Leaves [.upd] z (updInterrupted s) := by
  unfold updInterrupted
  repeat' (first
    | with_reducible assumption | with_reducible intro _ | subst x | with_reducible apply Leaves.ite
    | (with_reducible apply Leaves.after (updState_leaves _ _ (Leaves.refl _ _)); rotate_left; decide)
    | with_reducible apply raiseG_leaves)

theorem recomputePend_leaves (s : State) (hs : Leaves [.pat] z s) :
    Leaves [.pat] z (recomputePend s) := by
  unfold recomputePend
  repeat' (first
    | with_reducible assumption | with_reducible intro _ | subst x | assumption)

theorem reloadLedger_leaves (s : State) (hs : Leaves [.pat] z s) :
    Leaves [.pat] z (reloadLedger s) := by
  unfold reloadLedger
  repeat' (first
    | with_reducible assumption | with_reducible intro _ | subst x | split | assumption)

theorem queueRefresh_leaves (n : Nat) (s : State) (hs : Leaves [.fl] z s) :
    Leaves [.fl] z (queueRefresh n s) := by
  unfold queueRefresh
  repeat' (first
    | with_reducible assumption | with_reducible intro _ | subst x
    | (extract_lets +onlyGivenNames x; have hx : Leaves [.fl] z x := ?_; clear_value x)
    | (extract_lets +onlyGivenNames x; clear_value x) | with_reducible apply Leaves.ite
    | (with_reducible apply Leaves.after (setSector_leaves _ _ _ (Leaves.refl _ _)); rotate_left; decide) | assumption)

end Sys2Proof.Machine
end

section
/-! SUPPORT. Entry to SAFE. -/

namespace Sys2Proof

open Sys2Proof.Machine

/-- The SAFE state's registers and the watchdog's, without the rails held and the last-fault capture. -/
def safeCore (q : Safe) : Safe :=
  { q with held := 0, snapHeld := false, snapMissed := false, snapMiss := 0, cap := [], bank0 := none, bank1 := none }

/-- The sequencer without its event counts, release timers, phase, switch-offs due and start timeouts noted. -/
def seqCore (q : Machine.Seq) : Machine.Seq := { q with cnt := [], rstRun := 0, phase := 0, joined := 0, offWait := 0, offDly := 0 }

/-- SAFE, the watchdog and the sequencer's waits are as they were. -/
structure Cores (s t : State) : Prop where
  safe : safeCore t.safe = safeCore s.safe
  seq : seqCore t.seq = seqCore s.seq

theorem Cores.refl (s : State) : Cores s s := ⟨rfl, rfl⟩
theorem Cores.trans {s t u : State} (h : Cores s t) (g : Cores t u) : Cores s u := ⟨g.safe.trans h.safe, g.seq.trans h.seq⟩

theorem Leaves.seqCore {l : List Part} {s t : State} (h : Leaves l s t) (hq : .seq ∉ l := by decide) :
    seqCore t.seq = seqCore s.seq := by
  have e : { t.seq with cnt := [] } = { s.seq with cnt := [] } := h.marked .seq hq
  have h := congrArg (fun q : Machine.Seq => Sys2Proof.seqCore q) e
  exact h

theorem Leaves.cores {l : List Part} {s t : State} (h : Leaves l s t) (hl : .safe ∉ l ++ raiseParts := by decide) (hq : .seq ∉ l := by decide) :
    Cores s t := ⟨congrArg safeCore (h.same .safe hl), h.seqCore hq⟩

end Sys2Proof

namespace Sys2Proof.Machine

open Sys2Proof

/-! The island's restart. -/

theorem cores_foldl {α : Type} {f : State → α → State} (h : ∀ s x, Cores s (f s x)) (xs : List α) (s : State) : Cores s (xs.foldl f s) := by
  induction xs generalizing s with
  | nil => exact .refl s
  | cons x xs ih => exact (h s x).trans (ih _)

theorem cores_ite {c : Prop} [Decidable c] {s a b : State} (ha : Cores s a) (hb : Cores s b) : Cores s (if c then a else b) := by
  split
  · exact ha
  · exact hb

theorem dropBank_cores (n : Nat) (s : State) : Cores s (dropBank n s) := by
  unfold dropBank
  iterate 10 refine cores_ite ⟨rfl, rfl⟩ ?_
  exact .refl s

theorem settleBanks_cores (s : State) : Cores s (settleBanks s) := by
  unfold settleBanks
  refine cores_foldl (fun u n => ?_) _ s
  split
  · exact .refl u
  · exact dropBank_cores n u

theorem dropSlot_cores (s : State) : Cores s (dropSlot s) := by
  unfold dropSlot
  split
  · exact .refl s
  · rename_i sl _
    dsimp only
    have h0 : Cores s { s with fl := { s.fl with slot := none } } := ⟨rfl, rfl⟩
    generalize slotSector s sl = n
    generalize ({ s with fl := { s.fl with slot := none } } : State) = u at h0
    refine h0.trans ?_
    split
    · exact (cutLog_leaves u (.refl _ u)).cores
    · exact (cutLogErase_leaves _ u (.refl _ u)).cores
    · exact (cutLogErase_leaves _ u (.refl _ u)).cores
    · exact (cutUpd_leaves _ u (.refl _ u)).cores
    · exact (cutRefresh_leaves _ u (.refl _ u)).cores.trans (settleBanks_cores _)
    · split
      · exact (cutErase_leaves _ _ u (.refl _ u)).cores.trans (settleBanks_cores _)
      · exact .refl u

theorem islandRestart_cores (s : State) : Cores s (islandRestart s) := by
  unfold islandRestart
  extract_lets u q v w x
  have hu : Cores s u := (dropSlot_cores s).trans (busRestart_leaves _ (.refl _ _)).cores
  clear_value u
  have hv : Cores u v := by
    unfold v
    split
    · split
      · exact ⟨rfl, rfl⟩
      · refine Leaves.cores (l := [.clk, .txn]) ?_
        refine Leaves.then ?_ (disarm_leaves _ _ (.refl _ _)) (by decide)
        exact raiseG_leaves _ _ _ (logOther_leaves _ _ _ _ (.of_only (by simp [only_iff]) rfl))
    · exact ⟨rfl, rfl⟩
  exact (hu.trans hv).trans ⟨rfl, rfl⟩

theorem snapshot_cores (cause src : Nat) (s : State) : Cores s (snapshot cause src s) := by
  refine ⟨?_, (snapshot_leaves cause src s (.refl _ s)).seqCore⟩
  unfold snapshot
  split
  · rfl
  · split
    · dsimp only
      split
      · rfl
      · rw [raiseG_safe]
        rfl
    · rw [raiseG_safe]
      generalize hu : ({ s with safe := _ } : State) = u
      have h : safeCore u.safe = safeCore s.safe := by rw [← hu]; rfl
      exact (grant_leaves (l := []) u (.refl _ u)).cores.safe.trans h

theorem causedRestart_cores (b k : Nat) (s : State) : Cores s (causedRestart b k s) := by
  unfold causedRestart
  generalize hu : ({ s with glob := { s.glob with rstcause := setBit s.glob.rstcause b true } } : State) = u
  have h : Cores s u := by rw [← hu]; exact ⟨rfl, rfl⟩
  exact (h.trans (snapshot_cores 3 k u)).trans (islandRestart_cores _)

theorem fallback_cores (s : State) : Cores s (fallback s) := by
  unfold fallback
  split
  · exact (fallbackMark_leaves false s (.refl _ s)).cores.trans (causedRestart_cores ..)
  · exact .refl s

/-! Policies. -/

theorem arm_cores (dt : Nat) (e : Instr) (s : State) : Cores s (arm dt e s) := ⟨rfl, rfl⟩

theorem disarm_cores (e : Instr) (s : State) : Cores s (disarm e s) := ⟨rfl, rfl⟩

theorem switchOff_cores (q : Bool) (r : Nat) (s : State) : Cores s (switchOff q r s) := by
  unfold switchOff
  split
  · exact .refl s
  · dsimp only
    generalize hu : clearRail r _ = u
    have cu : Cores s u := by
      rw [← hu]
      refine Cores.trans ?_ (clearRail_leaves r _ (.refl _ _)).cores
      exact cores_ite (breach_leaves s (.refl _ s)).cores (.refl s)
    clear hu
    generalize hv : disarm (.railOffDelay (railF r)) _ = v
    have cv : Cores s v := by
      rw [← hv]
      exact cu.trans ⟨rfl, rfl⟩
    clear hv
    refine cores_ite cv (cv.trans ?_)
    generalize hw : (if (decide (rk r = .ext) && (monsOf (lv v) (ci r)).isEmpty) = true then _ else v) = w
    have cw : Cores v w := by
      rw [← hw]
      exact cores_ite ⟨rfl, rfl⟩ (.refl v)
    clear hw
    have cx : Cores v (if r = 0 then chgSettle (disarm (.chargerHoldoffEnd none) w) else w) := by
      refine cw.trans (cores_ite ?_ (.refl w))
      exact (disarm_cores (.chargerHoldoffEnd none) w).trans (chgSettle_leaves (disarm (.chargerHoldoffEnd none) w) (.refl _ _)).cores
    exact cores_ite (cx.trans (arm_cores ..)) (cx.trans (arm_cores ..))

theorem safePolicies_cores (s : State) : Cores s (safePolicies s) := by
  unfold safePolicies
  refine cores_foldl (fun u r => ?_) _ s
  dsimp only
  refine cores_ite (.refl u) (cores_ite (switchOff_cores ..) (cores_ite ⟨rfl, rfl⟩ (cores_ite ⟨rfl, rfl⟩ ⟨rfl, rfl⟩)))

theorem settleSafe_cores (s : State) : Cores s (settleSafe s) := by
  unfold settleSafe
  dsimp only
  exact cores_ite ⟨rfl, rfl⟩ ⟨rfl, rfl⟩

theorem settle_safe {s : State} (h : s.glob.st = .safe) : settle s = settleSafe (settleStart s) ∧ Cores s (settle s) ∧
    Leaves [.pending, .clk, .seq] s (settle s) := by
  have hf : fwdCheck s = s := fwdCheck_of_not_start (by simp [h])
  have l := settleStart_after s
  have k := settleStart_seqKept s
  rw [hf] at l k
  have e : settle s = settleSafe (settleStart s) := by rw [settle_eq, if_pos (l.st.trans h)]
  have ls := settleSafe_leaves (settleStart s) (.refl _ _)
  have safe : (settleStart s).safe = s.safe := l.same .safe (by decide)
  have safe' : (settleSafe (settleStart s)).safe = (settleStart s).safe := ls.same .safe (by decide)
  refine ⟨e, ⟨by rw [e, safe', safe], ?_⟩, by rw [e]; exact l.then ls (by decide)⟩
  have q : seqCore (settleSafe (settleStart s)).seq = seqCore (settleStart s).seq := (settleSafe_cores _).seq
  rw [e, q, k]
  rfl

/-! SAFE. -/

/-- What entry to SAFE writes. -/
def safeParts : List Part :=
  [.pending, .clk, .free, .glob, .regs, .qt, .inp, .rl, .bk, .seq, .txn, .safe, .pat, .hk, .plt, .chg, .gau, .pwr, .bus, .ds, .fl, .upd]

/-- SAFE is entered with the cause `b`. -/
structure Entered (b : Nat) (s t : State) : Prop where
  st : t.glob.st = .safe
  safe : safeCore t.safe = safeCore { s.safe with cause := setBit 0 b true, first := b + 1, exit := false, waited := false, wdState := 0 }
  rst : t.seq.rst = 0x1F
  wait : t.seq.wait = 0
  retryWait : t.seq.retryWait = 0
  event : isPend t (16 * 59) = true
  left : Leaves safeParts s t
  anvil : anvilOn t = true
  flags : b ≠ 2 → t.glob = { s.glob with st := t.glob.st, left := t.glob.left, pendRst := none }

/-- Entry to SAFE before the outputs are asserted: the commit in flight and a sleep request are gone, and nothing waits any more. -/
def safeBegun (b : Nat) (s : State) : State :=
  let s := { s with safe := { s.safe with cause := setBit 0 b true, first := b + 1, exit := false, waited := false, held := 0 } }
  let s := preempt 1 0 s
  let s := if s.pwr.req.isSome then slpCommandEnd 0x02 { s with pwr := { s.pwr with req := none } } else s
  let s := enterState .safe { s with glob := { s.glob with pendRst := none }, pwr := { s.pwr with idle := false, fromRun := false } }
  let s := disarmAll (fun e => match e with
    | .railEnable _ => true
    | .railOffDelay _ => true
    | .retrySpaceEnd _ => true
    | .minoffEnd => true
    | .idleslp => true
    | .tconfExpire => true
    | _ => false) s
  { s with seq := { s.seq with wait := 0, dly := 0, retryWait := 0, rset := [], offWait := 0, offDly := 0, fwd := false, ended := false }
           upd := { s.upd with confEnd := none } }

/-- Entry to SAFE up to the capture. -/
def safeCaught (b src : Nat) (s : State) : State := snapshot 2 src (raiseG 59 0 (wdStop (assertAll (safeBegun b s))))

theorem enterSafe_eq (b src : Nat) {s : State} (a : anvilOn s = true) (hs : s.glob.st ≠ .safe) : enterSafe b src s =
    if b = 2 then fallback (settle (safePolicies (safeOpen (safeCaught b src s)))) else settle (safePolicies (safeOpen (safeCaught b src s))) := by
  obtain ⟨ns, nh⟩ := anvilOn_state a
  unfold enterSafe
  rw [if_neg hs, if_neg (by simp [ns, nh])]
  rfl

theorem safeBegun_spec (b : Nat) {s : State} (a : anvilOn s = true) : Leaves safeParts s (safeBegun b s) ∧ anvilOn (safeBegun b s) = true ∧
    (safeBegun b s).glob = { s.glob with st := .safe, left := (safeBegun b s).glob.left, pendRst := none } ∧
    safeCore (safeBegun b s).safe = safeCore { s.safe with cause := setBit 0 b true, first := b + 1, exit := false, waited := false } ∧
    (safeBegun b s).seq.wait = 0 ∧ (safeBegun b s).seq.retryWait = 0 := by
  unfold safeBegun
  extract_lets q s1 s2 p0 s3 gl pw s4 s5 sq up
  have l1 : Leaves safeParts s s1 := (Leaves.refl _ s).set (by simp [s1, only_iff, safeParts])
  have c1 : safeCore s1.safe = safeCore { s.safe with cause := setBit 0 b true, first := b + 1, exit := false, waited := false } := rfl
  have g1 : s1.glob = s.glob := rfl
  have a1 : anvilOn s1 = true := a
  clear_value s1
  have p2 := preempt_leaves 1 0 s1 (.refl _ _)
  have l2 : Leaves safeParts s s2 := l1.then p2 (by decide)
  have c2 : safeCore s2.safe = _ := p2.cores.safe.trans c1
  have g2 : s2.glob = s.glob := Eq.trans (p2.same .glob (by decide)) g1
  have a2 : anvilOn s2 = true := p2.powered.anvil_st p2.st a1
  clear_value s2
  have p3 : Leaves [.pwr, .bus] s2 s3 := by
    unfold s3
    refine .ite (fun _ => ?_) (fun _ => .refl _ _)
    exact ((Leaves.refl [.pwr, .bus] s2).set (by simp [only_iff])).then (slpCommandEnd_leaves _ _ (.refl _ _)) (by decide)
  have l3 : Leaves safeParts s s3 := l2.then p3 (by decide)
  have c3 : safeCore s3.safe = _ := p3.cores.safe.trans c2
  have g3 : s3.glob = s.glob := Eq.trans (p3.same .glob (by decide)) g2
  have a3 : anvilOn s3 = true := p3.powered.anvil_st p3.st a2
  clear_value s3
  have l4 : Leaves safeParts s s4 := (l3.set (by simp [only_iff, safeParts])).then (enterState_leaves .safe _ (.refl _ _)) (by decide)
  have c4 : safeCore s4.safe = _ := Eq.trans (enterState_leaves .safe _ (.refl _ _)).cores.safe c3
  have g4 : s4.glob = { s.glob with st := .safe, left := s4.glob.left, pendRst := none } := by
    unfold s4 gl
    rw [enterState_glob, g3]
  have a4 : anvilOn s4 = true := anvilOn_enterState a3
  clear_value s4
  have p5 : Leaves [.clk] s4 s5 := disarmAll_leaves _ s4 (.refl _ _)
  have l5 : Leaves safeParts s s5 := l4.then p5 (by decide)
  have c5 : safeCore s5.safe = _ := p5.cores.safe.trans c4
  have g5 : s5.glob = s4.glob := p5.same .glob (by decide)
  have a5 : anvilOn s5 = true := p5.powered.anvil_st p5.st a4
  rw [← g5] at g4
  clear_value s5
  exact ⟨l5.set (by simp [only_iff, safeParts]), a5, g4, c5, rfl, rfl⟩

theorem safeCaught_spec (b src : Nat) {s : State} (a : anvilOn s = true) : Leaves safeParts s (safeCaught b src s) ∧
    anvilOn (safeCaught b src s) = true ∧
    (safeCaught b src s).glob = { s.glob with st := .safe, left := (safeCaught b src s).glob.left, pendRst := none } ∧
    safeCore (safeCaught b src s).safe = safeCore { s.safe with cause := setBit 0 b true, first := b + 1, exit := false, waited := false, wdState := 0 } ∧
    (safeCaught b src s).seq.wait = 0 ∧ (safeCaught b src s).seq.retryWait = 0 ∧ (safeCaught b src s).seq.rst = 0x1F ∧
    isPend (safeCaught b src s) (16 * 59) = true := by
  obtain ⟨l, a', g, c, hw, hr⟩ := safeBegun_spec b a
  unfold safeCaught
  generalize safeBegun b s = u at l a' g c hw hr
  have pa := assertAll_leaves u (.refl _ _)
  have qa := assertAll_seq u
  generalize assertAll u = v at pa qa
  have sa : v.safe = u.safe := pa.same .safe (by decide)
  have pw' : Leaves [.clk, .safe] v (wdStop v) := wdStop_leaves v (.refl _ _)
  have cw : safeCore (wdStop v).safe = { safeCore u.safe with wdState := 0 } := by rw [← sa]; rfl
  have qw : (wdStop v).seq = v.seq := rfl
  generalize wdStop v = w at pw' cw qw
  have lw : Leaves [.clk, .seq, .safe] u w := ((Leaves.refl [.clk, .seq, .safe] u).then pa (by decide)).then pw' (by decide)
  have aw : anvilOn w = true := lw.powered.anvil_st lw.st a'
  have pr : Leaves [] w (raiseG 59 0 w) := raiseG_leaves _ _ _ (.refl _ _)
  have ev : isPend (raiseG 59 0 w) (16 * 59) = true := isPend_raiseG_self aw 59 0
  generalize raiseG 59 0 w = x at pr ev
  have px : Leaves [.safe] x (snapshot 2 src x) := snapshot_leaves _ _ _ (.refl _ _)
  have cx := snapshot_cores 2 src x
  generalize snapshot 2 src x = y at px cx
  have ly : Leaves [.clk, .seq, .safe] u y :=
    (lw.then pr (by decide)).then px (by decide)
  have hc : Cores w y := pr.cores.trans cx
  have gy : y.glob = u.glob := ly.same .glob (by decide)
  have hs : safeCore y.safe = { safeCore u.safe with wdState := 0 } := hc.safe.trans cw
  have hq : seqCore y.seq = seqCore { u.seq with rst := 0x1F, rstRun := 0 } := by rw [hc.seq, qw, qa]
  refine ⟨l.then ly (by decide), ly.powered.anvil_st ly.st a', ?_, ?_, ?_, ?_, ?_, ?_⟩
  · rw [gy]; exact g
  · rw [hs, c]; rfl
  · exact (congrArg (·.wait) hq).trans hw
  · exact (congrArg (·.retryWait) hq).trans hr
  · exact congrArg (·.rst) hq
  · exact px.pend ev

/-- The rest of the entry keeps what the entry set. -/
theorem safeCaught_enters {b src : Nat} {s t : State} (a : anvilOn s = true) (l : Leaves safeParts (safeCaught b src s) t)
    (c : Cores (safeCaught b src s) t) (ps : Powered (safeCaught b src s) t) (st : t.glob.st = (safeCaught b src s).glob.st)
    (g : b ≠ 2 → t.glob = (safeCaught b src s).glob) : Entered b s t := by
  obtain ⟨l0, a0, g0, c0, hw, hr, rst, ev⟩ := safeCaught_spec b src a
  generalize safeCaught b src s = x at l c ps st g l0 a0 g0 c0 hw hr rst ev
  have qx : seqCore t.seq = seqCore x.seq := c.seq
  refine ⟨st.trans (congrArg (·.st) g0 :), c.safe.trans c0, ?_, ?_, ?_, l.pend ev (by decide), l0.then l (by decide), ps.anvil_st st a0, fun hb => ?_⟩
  · exact (congrArg (·.rst) qx :).trans rst
  · exact (congrArg (·.wait) qx :).trans hw
  · exact (congrArg (·.retryWait) qx :).trans hr
  · rw [g hb, (congrArg (·.st) g0 : x.glob.st = .safe)]
    exact g0

theorem enterSafe_enters (b src : Nat) {s : State} (a : anvilOn s = true) (hs : s.glob.st ≠ .safe) : Entered b s (enterSafe b src s) := by
  have g0 := (safeCaught_spec b src a).2.2.1
  have st0 : (safeCaught b src s).glob.st = .safe := congrArg (·.st) g0
  rw [enterSafe_eq b src a hs]
  have main (t : State) (l : Leaves safeParts (safeCaught b src s) t) (c : Cores (safeCaught b src s) t) (ps : Powered (safeCaught b src s) t)
      (st : t.glob.st = (safeCaught b src s).glob.st) (g : b ≠ 2 → t.glob = (safeCaught b src s).glob) : Entered b s t :=
    safeCaught_enters a l c ps st g
  generalize safeCaught b src s = x at main st0
  have po : Leaves [.regs, .plt] x (safeOpen x) := safeOpen_leaves x (.refl _ _)
  generalize safeOpen x = y at po ⊢
  have pp := safePolicies_leaves y (.refl _ _)
  have cp := safePolicies_cores y
  generalize safePolicies y = w at pp cp ⊢
  have lw : Leaves [.regs, .plt, .clk, .free, .qt, .inp, .rl, .bk, .seq, .safe, .pat, .chg, .pending] x w :=
    ((Leaves.refl _ x).then po (by decide)).then pp (by decide)
  obtain ⟨-, cs, ls⟩ := settle_safe (s := w) (lw.st.trans st0)
  generalize settle w = v at cs ls ⊢
  have lv : Leaves [.regs, .plt, .clk, .free, .qt, .inp, .rl, .bk, .seq, .safe, .pat, .chg, .pending] x v := lw.then ls (by decide)
  have cv : Cores x v := (po.cores.trans cp).trans cs
  have gv : v.glob = x.glob := lv.same .glob (by decide)
  by_cases hb : b = 2
  · rw [if_pos hb]
    have pf := fallback_leaves v (.refl _ _)
    obtain ⟨fp, fst⟩ := fallback_powered v
    have lf : Leaves safeParts x (fallback v) := ((Leaves.refl safeParts x).then lv (by decide)).then pf (by decide)
    exact main _ lf (cv.trans (fallback_cores v)) (lv.powered.trans fp) (fst.trans lv.st) fun h => absurd hb h
  · rw [if_neg hb]
    exact main _ ((Leaves.refl safeParts x).then lv (by decide)) cv lv.powered lv.st fun _ => gv

end Sys2Proof.Machine
end

section
/-! The SAFE inputs. -/

namespace Sys2Proof

open Sys2Proof.Machine

/-- Stopping a timer commutes with raises. -/
theorem Raised.disarm {l : List Nat} {s t : State} (h : Raised l s t) (e : Instr) : Raised l (Machine.disarm e s) (Machine.disarm e t) where
  rest := by
    have c (u : State) : unmarked (Machine.disarm e u) = Machine.disarm e (unmarked u) := by
      simp only [unmarked, Machine.disarm, List.filter_filter, Bool.and_comm]
    rw [c, c, h.rest]
  kept := h.kept
  marked := h.marked
  others := h.others
  counted := h.counted
  latched := h.latched
  latchKept := h.latchKept

theorem Raised.safe {l : List Nat} {s t : State} (h : Raised l s t) : t.safe = s.safe := (congrArg (·.safe) h.rest :)

/-- A change of SAFE's registers commutes with raises. -/
theorem Raised.setSafe {l : List Nat} {s t : State} (h : Raised l s t) (q : Safe) : Raised l { s with safe := q } { t with safe := q } where
  rest := congrArg (fun u : State => { u with safe := q }) h.rest
  kept := h.kept
  marked := h.marked
  others := h.others
  counted := h.counted
  latched := h.latched
  latchKept := h.latchKept

end Sys2Proof

namespace Sys2Proof.Machine

open Sys2Proof

theorem enterSafe_again (b src : Nat) {s : State} (h : s.glob.st = .safe) : enterSafe b src s =
    disarm .minoffEnd { s with safe := { s.safe with cause := setBit s.safe.cause b true, exit := false, waited := false } } := by
  unfold enterSafe
  rw [if_pos h]

/-- In SAFE a further cause follows a raise as it follows the state before. -/
theorem enterSafe_raised {b src : Nat} {l : List Nat} {s t : State} (h : s.glob.st = .safe) (r : Raised l s t) : Raised l
    (disarm .minoffEnd { s with safe := { s.safe with cause := setBit s.safe.cause b true, exit := false, waited := false } }) (enterSafe b src t) := by
  rw [enterSafe_again b src ((congrArg (·.glob.st) r.rest : t.glob.st = s.glob.st).trans h), r.safe]
  exact (r.setSafe _).disarm _

/-- The fields of SAFE that the entry sets. -/
theorem Entered.fields {b : Nat} {s t : State} (h : Entered b s t) : t.safe.cause = setBit 0 b true ∧ t.safe.first = b + 1 ∧ t.safe.wdState = 0 ∧
    t.safe.areq = s.safe.areq ∧ t.safe.breq = s.safe.breq ∧ t.safe.disclatch = s.safe.disclatch ∧ t.safe.wdLatch = s.safe.wdLatch ∧
    t.safe.wdErr = s.safe.wdErr ∧ t.safe.ls = s.safe.ls := by
  have e := h.safe
  exact ⟨congrArg (·.cause) e, congrArg (·.first) e, congrArg (·.wdState) e, congrArg (·.areq) e, congrArg (·.breq) e, congrArg (·.disclatch) e,
    congrArg (·.wdLatch) e, congrArg (·.wdErr) e, congrArg (·.ls) e⟩

theorem Entered.cause {b : Nat} {s t : State} (h : Entered b s t) (hb : b < 7 := by decide) : t.safe.cause.getLsbD b = true := by
  rw [h.fields.1]
  exact getLsbD_setBit_self hb 0 true

/-! A rail goes off. -/

theorem switchOff_switches (q : Bool) (r : Nat) (s : State) (h : has s.rl.en r = true) :
    has (switchOff q r s).rl.en r = false ∧ (switchOff q r s).safe.held = s.safe.held &&& ~~~(bit r) := by
  unfold switchOff
  rw [if_neg (by simp [h])]
  extract_lets b late u gone rl0 sq0 sf0 v w x y
  have hu : u.safe = s.safe := by
    refine Leaves.same (l := [.clk, .inp, .rl, .bk, .pat, .qt]) ?_ .safe (by decide)
    refine Leaves.then ?_ (clearRail_leaves r _ (.refl _ _)) (by decide)
    exact .ite (fun _ => (Leaves.refl _ s).then (breach_leaves s (.refl _ s)) (by decide)) fun _ => .refl _ s
  have ev : has w.rl.en r = false := has_not_bit u.rl.en r
  have sv : w.safe.held = s.safe.held &&& ~~~b := congrArg (fun q : Safe => q.held &&& ~~~b) hu
  clear_value u
  clear hu
  clear_value w
  have hx : Leaves [.clk, .free, .chg] w x :=
    .ite (fun _ => (Leaves.refl _ w).then (arm_leaves _ _ w (.refl _ _)) (by decide)) fun _ => .refl _ w
  clear_value x
  have hy : Leaves [.clk, .free, .chg] w y := by
    refine .ite (fun _ => ?_) fun _ => hx
    exact (hx.then (disarm_leaves _ _ (.refl _ _)) (by decide)).then (chgSettle_leaves _ (.refl _ _)) (by decide)
  clear_value y
  have fin (z : State) (h : Leaves [.clk, .free, .chg] w z) : has z.rl.en r = false ∧ z.safe.held = s.safe.held &&& ~~~b := by
    have rl : z.rl = w.rl := h.same .rl (by decide)
    have sf : z.safe = w.safe := h.same .safe (by decide)
    rw [rl, sf]
    exact ⟨ev, sv⟩
  split
  · exact fin w (.refl _ w)
  · split
    · exact fin _ (hy.then (arm_leaves _ _ _ (.refl _ _)) (by decide))
    · exact fin _ (hy.then (arm_leaves _ _ _ (.refl _ _)) (by decide))

/-! The inputs. -/

theorem exec_safeInput {a b : Bool} {s : State} (h : anvilOn s = true) (e : safeInEn s = true) :
    exec (.safeInput a b) s = .next (safeLevels a b s) := by
  show execSafeInput a b s = _
  simp only [execSafeInput, h, e, Bool.not_true, Bool.false_eq_true, if_false]

/-- SAFE is entered on a first request of input A. -/
theorem safeLevels_rises {b : Bool} {s : State} (h : Running s) (e : s.safe.areq = false) : ∃ u, Entered 0 u (safeLevels true b s) ∧
    u.safe = { s.safe with areq := true, breq := b } ∧ isPend u (16 * 59 + 2) = true := by
  obtain ⟨a, st, -⟩ := h
  unfold safeLevels
  extract_lets newA newB was dis sf s1 s2 s3 s4
  have hA : newA = true := by unfold newA; rw [e]; exact Eq.refl _
  have l1 : Leaves [.clk, .safe] s s1 := .set (.refl _ s) (by simp [only_iff, s1])
  have e1 : s1.safe = { s.safe with areq := true, breq := b } := rfl
  clear_value s1
  have l2 : Leaves [.clk] s1 s2 :=
    .ite (fun _ => disarm_leaves _ _ (.refl _ _)) fun _ => .ite (fun _ => .refl _ _) fun _ => arm_leaves _ _ _ (.refl _ _)
  clear_value s2
  have l12 : Leaves [.clk, .safe] s s2 := l1.then l2 (by decide)
  have p3 : isPend s3 (16 * 59 + 2) = true := by
    unfold s3
    rw [hA]
    have l : Leaves [] (raise (16 * 59 + 2) s2) (raiseIf newB (16 * 59 + 3) (raise (16 * 59 + 2) s2)) := raiseIf_leaves _ _ _ (.refl _ _)
    exact l.pend (isPend_raiseG_self (l12.powered.anvil_st l12.st a) 59 2)
  have l3 : Leaves [] s2 s3 := raiseIf_leaves _ _ _ (raiseIf_leaves _ _ _ (.refl _ _))
  clear_value s3
  have l13 := l12.then l3 (by decide)
  have e3 : s3.safe = s1.safe := (l2.then l3 (by decide)).same .safe (by decide)
  have h4 : s4 = enterSafe 0 (16 * 59 + 2) s3 := if_pos hA
  rw [if_neg (by simp), h4]
  exact ⟨s3, enterSafe_enters 0 _ (l13.powered.anvil_st l13.st a) (by rw [l13.st, st]; decide), e3.trans e1, p3⟩

theorem safeLevels_second {s : State} (h : anvilOn s = true) (st : s.glob.st = .safe) (ha : s.safe.areq = true) (hb : s.safe.breq = false) :
    Raised [16 * 59 + 3] (disarm .minoffEnd (disarm .disc { s with safe := { s.safe with breq := true, exit := false, waited := false, cause := setBit s.safe.cause 0 true } }))
      (safeLevels true true s) := by
  have e : safeLevels true true s = enterSafe 0 (16 * 59 + 3) (raise (16 * 59 + 3) (disarm .disc { s with safe := { s.safe with areq := true, breq := true } })) := by
    unfold safeLevels
    simp only [ha, hb, raiseIf, Bool.not_true, Bool.not_false, Bool.and_false, Bool.and_true, Bool.false_eq_true, if_false, if_true]
  have q : ({ s.safe with areq := true, breq := true } : Safe) = { s.safe with breq := true } :=
    congrArg (fun x => ({ s.safe with areq := x, breq := true } : Safe)) ha.symm
  rw [e, q]
  exact enterSafe_raised (s := disarm .disc { s with safe := { s.safe with breq := true } }) st (raise_raised (16 * 59 + 3) _ h)

/-- A change of the levels that requests nothing new and leaves a request standing, or does not let AUTOREL act. -/
theorem safeLevels_disagree {s : State} (ha : s.safe.areq = true) (hb : s.safe.breq = true) : safeLevels true false s =
    arm (disct s) .disc { s with safe := { s.safe with breq := false } } := by
  have e : safeLevels true false s = arm (disct s) .disc { s with safe := { s.safe with areq := true, breq := false } } := by
    unfold safeLevels
    simp only [ha, hb, raiseIf, Bool.not_true, Bool.false_and, Bool.and_false, Bool.false_eq_true, if_false, Bool.true_eq_false,
      ne_eq, not_true, decide_false, Bool.or_true]
    rfl
  rw [e, ← ha]

theorem safeLevels_release {s : State} (ha : s.safe.areq = true) : safeLevels false false s =
    tryAutorel (disarm .disc { s with safe := { s.safe with areq := false, breq := false } }) := by
  unfold safeLevels
  simp only [ha, raiseIf, Bool.not_true, Bool.not_false, Bool.false_and, Bool.true_and, Bool.false_eq_true, if_false, if_true, Bool.true_or]

/-! The disagreement. -/

theorem exec_disc_runs {s : State} (h : anvilOn s = true) (e : safeInEn s = true) (d : s.safe.areq ≠ s.safe.breq) : exec .disc s =
    .next (enterSafe 1 (16 * 59 + 4) (raiseG 59 4 { disarm .disc s with safe := { s.safe with disclatch := true } })) := by
  have c : (anvilOn (disarm .disc s) && safeInEn (disarm .disc s) && decide ((disarm .disc s).safe.areq ≠ (disarm .disc s).safe.breq)) = true :=
    Bool.and_eq_true_iff.mpr ⟨Bool.and_eq_true_iff.mpr ⟨h, e⟩, decide_eq_true d⟩
  exact congrArg Host.Outcome.next (if_pos c)

theorem disc_enters {s : State} (h : anvilOn s = true) (e : safeInEn s = true) (d : s.safe.areq ≠ s.safe.breq) (st : s.glob.st ≠ .safe) :
    Ends .disc s (fun t => t.glob.st = .safe ∧ t.safe.disclatch = true ∧ t.safe.cause.getLsbD 1 = true ∧ t.safe.first = 2 ∧ t.seq.rst = 0x1F ∧
      isPend t (16 * 59 + 4) = true) := by
  refine Ends.of_eq (exec_disc_runs h e d) ?_
  have hr : (raiseG 59 4 { disarm .disc s with safe := { s.safe with disclatch := true } }).safe = { s.safe with disclatch := true } := raiseG_safe ..
  have l : Leaves [.clk, .safe] s (raiseG 59 4 { disarm .disc s with safe := { s.safe with disclatch := true } }) :=
    ((Leaves.refl [.clk, .safe] s).set (by simp [only_iff, disarm])).then (raiseG_leaves (l := []) _ _ _ (.refl _ _)) (by decide)
  have p : isPend (raiseG 59 4 { disarm .disc s with safe := { s.safe with disclatch := true } }) (16 * 59 + 4) = true :=
    isPend_raiseG_self (s := { disarm .disc s with safe := { s.safe with disclatch := true } }) h 59 4
  generalize raiseG 59 4 { disarm .disc s with safe := { s.safe with disclatch := true } } = u at hr l p
  have x := enterSafe_enters 1 (16 * 59 + 4) (l.powered.anvil_st l.st h) (by rw [l.st]; exact st)
  obtain ⟨-, first, -, -, -, dl, -⟩ := x.fields
  exact ⟨x.st, by rw [dl, hr], x.cause, first, x.rst, x.left.pend p⟩

theorem disc_again {s : State} (h : anvilOn s = true) (e : safeInEn s = true) (d : s.safe.areq ≠ s.safe.breq) (st : s.glob.st = .safe) :
    Yields .disc s (disarm .minoffEnd (disarm .disc { s with
      safe := { s.safe with disclatch := true, cause := setBit s.safe.cause 1 true, exit := false, waited := false } })) [16 * 59 + 4] :=
  Ends.of_eq (exec_disc_runs h e d) (enterSafe_raised
    (s := { disarm .disc s with safe := { s.safe with disclatch := true } }) st (raiseG_raised 59 4 _ h))

theorem exec_disc_stops {s : State} (h : safeInEn s = false ∨ s.safe.areq = s.safe.breq) : exec .disc s = .next (disarm .disc s) := by
  have c : ¬ (anvilOn (disarm .disc s) && safeInEn (disarm .disc s) && decide ((disarm .disc s).safe.areq ≠ (disarm .disc s).safe.breq)) = true := by
    intro hc
    obtain ⟨ha, hd⟩ := Bool.and_eq_true_iff.mp hc
    obtain ⟨-, he⟩ := Bool.and_eq_true_iff.mp ha
    rcases h with h | h
    · exact absurd (h.symm.trans he) (by decide)
    · exact of_decide_eq_true hd h
  exact congrArg Host.Outcome.next (if_neg c)

/-! The hold. -/

/-- The hold of a rail has ended. -/
def holdEnded (r : Rail) (s : State) : State :=
  { disarm (.safeHoldEnd r) s with
    safe := { s.safe with held := s.safe.held &&& ~~~(bit r.val) }
    seq := { s.seq with offWait := s.seq.offWait ||| bit r.val, offDly := s.seq.offDly ||| bit r.val } }

theorem exec_safeHoldEnd {s : State} {r : Rail} (h : s.glob.st = .safe) (k : has s.safe.held r.val = true) : exec (.safeHoldEnd r) s =
    .next (if mayDrop (holdEnded r s) r.val then settle (switchOff true r.val (holdEnded r s)) else holdEnded r s) :=
  congrArg Host.Outcome.next (if_pos (show (disarm (.safeHoldEnd r) s).glob.st = .safe ∧ has (disarm (.safeHoldEnd r) s).safe.held r.val from ⟨h, k⟩))

theorem mayDrop_holdEnded {s : State} {r : Rail} : mayDrop (holdEnded r s) r.val = (has s.rl.en r.val && decide (dependants (lv s) r.val &&& s.rl.up = 0)) := by
  have a : has (s.seq.offWait ||| bit r.val) r.val = true := has_or_bit _ (by omega)
  have b : has (s.seq.offDly ||| bit r.val) r.val = true := has_or_bit _ (by omega)
  show (has (s.seq.offWait ||| bit r.val) r.val && has (s.seq.offDly ||| bit r.val) r.val && has s.rl.en r.val && _) = _
  rw [a, b]
  rfl

theorem safeHoldEnd_drops {s : State} {r : Rail} (h : s.glob.st = .safe) (k : has s.safe.held r.val = true) (en : has s.rl.en r.val = true)
    (d : dependants (lv s) r.val &&& s.rl.up = 0) : Ends (.safeHoldEnd r) s (fun t =>
      has t.rl.en r.val = false ∧ has t.safe.held r.val = false ∧ t.glob.st = .safe) := by
  have m : mayDrop (holdEnded r s) r.val = true := by rw [mayDrop_holdEnded, en, d]; rfl
  refine Ends.of_eq ((exec_safeHoldEnd h k).trans (congrArg Host.Outcome.next (if_pos m))) ?_
  have en' : has (holdEnded r s).rl.en r.val = true := en
  have st' : (holdEnded r s).glob.st = .safe := h
  have held' : (holdEnded r s).safe.held = s.safe.held &&& ~~~(bit r.val) := rfl
  generalize holdEnded r s = u at en' st' held'
  obtain ⟨off, held⟩ := switchOff_switches true r.val u en'
  have lo := switchOff_leaves true r.val u (.refl _ _)
  generalize switchOff true r.val u = v at off held lo
  have st : v.glob.st = .safe := lo.st.trans st'
  obtain ⟨-, -, ls⟩ := settle_safe st
  have rl : (settle v).rl = v.rl := ls.same .rl (by decide)
  have sf : (settle v).safe = v.safe := ls.same .safe (by decide)
  rw [rl, sf, held]
  exact ⟨off, has_not_bit _ _, ls.st.trans st⟩

theorem safeInputs_autorel {s : State} (h : autorel s = true) (st : s.glob.st = .safe) (c : s.safe.cause = 1) (d : s.safe.disclatch = false)
    (w : s.safe.wdLatch = false) : tryAutorel s = acceptExit false false s := by
  unfold tryAutorel
  rw [h, st, c, d, w]
  rfl

theorem safeInputs_noAutorel {s : State} (h : autorel s = false) : tryAutorel s = s := by
  unfold tryAutorel
  rw [h]
  rfl

/-- Settles O28. -/
theorem safeInputs : Obligations.SafeInputs := by
  unfold Obligations.SafeInputs
  refine ⟨fun s b h e k => ?_, fun s h e st k q => ?_, fun s a b h e => ?_, fun s h e k q => ?_, fun s h e k q n => ?_, fun s h e k n st c d w => ?_,
    fun s h e k q => ?_, fun s h e k st => disc_enters h e k st, fun s h e k st => disc_again h e k st, fun s h => exec_disc_stops h,
    fun s r st k d => ?_, fun s r st _ k en d => safeHoldEnd_drops st k en d⟩
  · refine Ends.of_eq (exec_safeInput h.1 e) ?_
    obtain ⟨u, x, hu, p⟩ := safeLevels_rises (b := b) h k
    obtain ⟨-, first, wd, ar, br, -⟩ := x.fields
    rw [hu] at ar br
    exact ⟨x.st, x.cause, first, x.rst, ar, br, wd, x.wait, x.retryWait, x.left.pend p, x.event⟩
  · exact Ends.of_eq (exec_safeInput h e) (safeLevels_second h st k q)
  · show execSafeInput a b s = _
    simp only [execSafeInput, h, e, Bool.not_true, Bool.not_false, Bool.false_eq_true, if_false, if_true]
    exact Eq.refl _
  · rw [exec_safeInput h e, safeLevels_disagree k q]
  · rw [exec_safeInput h e, safeLevels_release k]
    exact congrArg Host.Outcome.next (safeInputs_noAutorel n)
  · rw [exec_safeInput h e, safeLevels_release k]
    exact congrArg Host.Outcome.next (safeInputs_autorel n st c d w)
  · obtain ⟨t, x, st, dl, c, -, rst, p⟩ := disc_enters h.1 e (by rw [k, q]; decide) (by rw [h.2.1]; decide)
    exact ⟨t, x, st, dl, c, rst, p⟩
  · have m : ¬ mayDrop (holdEnded r s) r.val = true := by rw [mayDrop_holdEnded, decide_eq_false d, Bool.and_false]; decide
    exact (exec_safeHoldEnd st k).trans (congrArg Host.Outcome.next (if_neg m))

end Sys2Proof.Machine
end

section
/-! SUPPORT. Commands that end with their own checks. -/

namespace Sys2Proof

open Sys2Proof.Machine

/-- The slot has taken the packet. -/
def taken (op : Byte) (p : Packet) (s : State) : State := takeSlot op p.tag (ackAccess s)

theorem exec_taken {c : Instr} {op : Byte} {p : Packet} {body : State → State} {s : State} (h : Takes false p s)
    (e : exec c s = .next (packet op false p body s)) : exec c s = .next (body (taken op p s)) :=
  e.trans (congrArg Host.Outcome.next (packet_open h body))

theorem slotEnd_shows (op : Byte) (p : Packet) (s : State) (st : Nat) (err : Byte) (res : List Byte) :
    SlotShows st err res p (slotEnd st err res (taken op p s)) ∧ Only [.bus, .txn] s (slotEnd st err res (taken op p s)) :=
  ⟨⟨rfl, rfl, rfl, rfl⟩, (taken_only op p.tag s).trans (by simp [only_iff, slotEnd, taken])⟩

/-- A command that only ends its slot. -/
theorem Ends.slotEnd {c : Instr} {op : Byte} {p : Packet} {body : State → State} {s : State} {st : Nat} {err : Byte} {res : List Byte}
    (h : Takes false p s) (e : exec c s = .next (packet op false p body s))
    (b : body (taken op p s) = Machine.slotEnd st err res (taken op p s)) :
    Ends c s (fun t => SlotShows st err res p t ∧ Only [.bus, .txn] s t) :=
  .of_eq ((exec_taken h e).trans (congrArg Host.Outcome.next b)) (slotEnd_shows op p s st err res)

end Sys2Proof
end

section
/-! SAFE_CLEAR and the host watchdog. -/

namespace Sys2Proof.Machine

open Sys2Proof

/-! SAFE_CLEAR. -/

theorem safeClearCode_state {v : Byte} {s : State} (h : s.glob.st ≠ .safe ∨ 4 ≤ v.toNat) : safeClearCode v s = 1 :=
  if_pos (h.imp_right fun h => by omega)

/-- The cause bits 3 to 5 keep SAFE. -/
theorem lastingCause {c : BitVec 7} : (c.getLsbD 3 = true ∨ c.getLsbD 4 = true ∨ c.getLsbD 5 = true) ↔ c &&& 0x38 ≠ 0 := by
  revert c
  decide

theorem safeClearCode_cause {v : Byte} {s : State} (st : s.glob.st = .safe) (hv : v.toNat < 4) (hc : s.safe.cause &&& 0x38 ≠ 0) :
    safeClearCode v s = 2 :=
  (if_neg fun c => c.elim (fun h => h st) fun h => by omega).trans (if_pos (lastingCause.mpr hc))

theorem safeClearCode_open {v : Byte} {s : State} (st : s.glob.st = .safe) (hv : v.toNat < 4) (hc : s.safe.cause &&& 0x38 = 0) :
    safeClearCode v s = if s.safe.areq ∨ s.safe.breq then 0x03 else if s.safe.disclatch ∧ !v.getLsbD 0 then 0x04
      else if s.safe.wdLatch ∧ !v.getLsbD 1 then 0x05 else 0x00 :=
  (if_neg fun c => c.elim (fun h => h st) fun h => by omega).trans (if_neg fun h => lastingCause.mp h hc)

theorem safeClearBody_one {p : Packet} {v : Byte} (hp : p.params = [v]) (s : State) : safeClearBody p s =
    if safeClearCode v s = 0 then doneWith [0] (acceptExit (v.getLsbD 0) (v.getLsbD 1) s) else slotEnd 5 (safeClearCode v s) [safeClearCode v s] s := by
  unfold safeClearBody
  rw [hp]

theorem safeClear_refused {s : State} {p : Packet} {v c : Byte} (h : Takes false p s) (hp : p.params = [v]) (e : safeClearCode v s = c) (hc : c ≠ 0) :
    Ends (.safeClear p) s (fun t => SlotShows 5 c [c] p t ∧ Only [.bus, .txn] s t) := by
  have e' : safeClearCode v (taken 0x32 p s) = c := e
  refine Ends.slotEnd h (op := 0x32) (body := safeClearBody p) rfl ?_
  rw [safeClearBody_one hp, e', if_neg hc]

theorem safeClear_accepted {s : State} {p : Packet} {v : Byte} (h : Takes false p s) (hp : p.params = [v]) (e : safeClearCode v s = 0)
    (hd : s.safe.disclatch = false ∨ v.getLsbD 0 = true) (hw : s.safe.wdLatch = false ∨ v.getLsbD 1 = true) : ∃ u, exec (.safeClear p) s =
      .next (doneWith [0] (settle u)) ∧ u.safe.exit = true ∧ u.safe.disclatch = false ∧ u.safe.wdLatch = false ∧ u.bus.tag = p.tag ∧
      Only [.safe, .bus, .txn] s u := by
  have e' : safeClearCode v (taken 0x32 p s) = 0 := e
  refine ⟨{ taken 0x32 p s with safe := { s.safe with disclatch := s.safe.disclatch && !v.getLsbD 0, wdLatch := s.safe.wdLatch && !v.getLsbD 1,
                                                      exit := true, waited := false } }, ?_, rfl, ?_, ?_, rfl, ?_⟩
  · refine (exec_taken h (op := 0x32) (body := safeClearBody p) rfl).trans (congrArg Host.Outcome.next ?_)
    rw [safeClearBody_one hp, if_pos e']
    exact Eq.refl _
  · rcases hd with hd | hd <;> simp [hd]
  · rcases hw with hw | hw <;> simp [hw]
  · exact ((taken_only 0x32 p.tag s).weaken (by decide)).trans (by simp [only_iff, taken])

/-- Settles O29. -/
theorem safeClearCodes : Obligations.SafeClearCodes := by
  unfold Obligations.SafeClearCodes
  refine ⟨fun s p v h hp c => safeClear_refused h hp (safeClearCode_state c) (by decide),
    fun s p v h hp st hv c => safeClear_refused h hp (safeClearCode_cause st hv c) (by decide),
    fun s p v h hp st hv c a => safeClear_refused h hp ?_ (by decide), fun s p v h hp st hv c a b d d' => safeClear_refused h hp ?_ (by decide),
    fun s p v h hp st hv c a b d w w' => safeClear_refused h hp ?_ (by decide), fun s p v h hp st hv c a b d w => safeClear_accepted h hp ?_ d w⟩
  · rw [safeClearCode_open st hv c, if_pos (.inl a)]
  · rw [safeClearCode_open st hv c, a, b, d, d', if_neg (by decide), if_pos (by decide)]
  · have nd : ¬ (s.safe.disclatch = true ∧ (!v.getLsbD 0) = true) := by rcases d with d | d <;> simp [d]
    rw [safeClearCode_open st hv c, a, b, if_neg (by decide), if_neg nd, w, w', if_pos (by decide)]
  · have nd : ¬ (s.safe.disclatch = true ∧ (!v.getLsbD 0) = true) := by rcases d with d | d <;> simp [d]
    have nw : ¬ (s.safe.wdLatch = true ∧ (!v.getLsbD 1) = true) := by rcases w with w | w <;> simp [w]
    rw [safeClearCode_open st hv c, a, b, if_neg (by decide), if_neg nd, if_neg nw]

/-! The host watchdog. -/

theorem exec_wdKick {s : State} (w : Word) (h : Served s) (p : pecOn s = false) : exec (.wdKick w .none) s = .next (kick w (ackAccess s)) := by
  have hp : pecFails s .none = false := by
    show (pecOn s && _) = false
    rw [p]
    rfl
  show execWdKick w .none s = _
  simp only [execWdKick, h.1, hp, Bool.not_true, Bool.false_eq_true, if_false]

theorem wdNow_open {s : State} (h : s.safe.wdState = 2) (o : s.safe.wdOpen ≤ s.clk.now) : wdNow s = 3 := if_pos ⟨h, o⟩
theorem wdNow_closed {s : State} (h : s.safe.wdState = 2) (o : s.clk.now < s.safe.wdOpen) : wdNow s = 2 :=
  (if_neg fun c => absurd c.2 (by omega)).trans h
theorem wdNow_other {s : State} (h : s.safe.wdState ≠ 2) : wdNow s = s.safe.wdState := if_neg fun c => h c.1
theorem wdNow_runs {s : State} (h : s.safe.wdState ≠ 0) : wdNow s ≠ 0 := by
  unfold wdNow
  split
  · decide
  · exact h

/-- The word expected, in a window that takes it, starts the next closed window. -/
theorem kick_expected {s : State} (h : wdNow s = 1 ∨ wdNow s = 3) : kick (if s.safe.wdNext then 0xA55A else 0x5AA5) s =
    arm (ms (pl s (key 0x24 5)).toNat + ms (pl s (key 0x24 6)).toNat) .wdlate
      { s with safe := { s.safe with wdState := 2, wdNext := !s.safe.wdNext, wdOpen := s.clk.now + ms (pl s (key 0x24 5)).toNat } } := by
  unfold kick
  dsimp only
  rw [if_neg (by omega), if_neg (fun c => c rfl), if_neg (by omega)]

theorem kick_wrong {s : State} {w : Word} (h : s.safe.wdState ≠ 0) (hw : w ≠ (if s.safe.wdNext then 0xA55A else 0x5AA5)) : kick w s = wdFault 3 7 s := by
  unfold kick
  dsimp only
  rw [if_neg (wdNow_runs h), if_pos hw]

theorem kick_early {s : State} (h : s.safe.wdState = 2) (o : s.clk.now < s.safe.wdOpen) :
    kick (if s.safe.wdNext then 0xA55A else 0x5AA5) s = wdFault 1 5 s := by
  unfold kick
  dsimp only
  rw [wdNow_closed h o, if_neg (by decide), if_neg (fun c => c rfl), if_pos rfl]

/-- A fault of the watchdog enters SAFE. -/
theorem wdFault_enters (err b : Nat) {s : State} (a : anvilOn s = true) (st : s.glob.st ≠ .safe) : (wdFault err b s).glob.st = .safe ∧
    (wdFault err b s).safe.wdLatch = true ∧ (wdFault err b s).safe.wdErr = err ∧ (wdFault err b s).safe.wdState = 0 ∧
    (wdFault err b s).safe.cause.getLsbD 2 = true ∧ isPend (wdFault err b s) (16 * 59 + b) = true := by
  unfold wdFault
  have lw : Leaves [.clk, .safe] s (wdStop { s with safe := { s.safe with wdLatch := true, wdErr := err } }) :=
    Leaves.then (.set (.refl [.clk, .safe] s) (by simp [only_iff])) (wdStop_leaves _ (.refl _ _)) (by decide)
  have sw : (wdStop { s with safe := { s.safe with wdLatch := true, wdErr := err } }).safe = { s.safe with wdLatch := true, wdErr := err, wdState := 0 } := rfl
  generalize wdStop { s with safe := { s.safe with wdLatch := true, wdErr := err } } = u at lw sw
  have p : isPend (raiseG 59 b u) (16 * 59 + b) = true := isPend_raiseG_self (lw.powered.anvil_st lw.st a) 59 b
  have lr : Leaves [.clk, .safe] s (raiseG 59 b u) := lw.then (raiseG_leaves (l := []) _ _ _ (.refl _ _)) (by decide)
  have sr : (raiseG 59 b u).safe = { s.safe with wdLatch := true, wdErr := err, wdState := 0 } := (raiseG_safe ..).trans sw
  generalize raiseG 59 b u = v at p lr sr
  have x := enterSafe_enters 2 (16 * 59 + b) (lr.powered.anvil_st lr.st a) (by rw [lr.st]; exact st)
  obtain ⟨-, -, wd, -, -, -, latch, er, -⟩ := x.fields
  exact ⟨x.st, by rw [latch, sr], by rw [er, sr], wd, x.cause, x.left.pend p⟩

theorem wdlate_enters {s : State} (h : Running s) (w : s.safe.wdState ≠ 0) : exec .wdlate s = .next (wdFault 2 6 (disarm .wdlate s)) := by
  have c : (anvilOn (disarm .wdlate s) && decide ((disarm .wdlate s).safe.wdState ≠ 0)) = true := Bool.and_eq_true_iff.mpr ⟨h.1, decide_eq_true w⟩
  exact congrArg Host.Outcome.next (if_pos c)

/-- Settles O30. -/
theorem hostWatchdog : Obligations.HostWatchdog := by
  unfold Obligations.HostWatchdog
  have ns {s : State} (h : Running s) : s.glob.st ≠ .safe := by rw [h.2.1]; decide
  refine ⟨fun s h p w => (exec_wdKick _ h p).trans (congrArg Host.Outcome.next (kick_expected (s := ackAccess s) (.inl ?_))),
    fun s h p w o => Ends.of_eq ((exec_wdKick _ h p).trans (congrArg Host.Outcome.next (kick_expected (s := ackAccess s) (.inr ?_)))) ⟨rfl, ?_⟩,
    fun s w h p z => (exec_wdKick _ h p).trans (congrArg Host.Outcome.next (if_pos ?_)),
    fun s w h p r z hw => Ends.of_eq ((exec_wdKick _ h p).trans (congrArg Host.Outcome.next (kick_wrong (s := ackAccess s) z hw))) ?_,
    fun s h p r w o => Ends.of_eq ((exec_wdKick _ h p).trans (congrArg Host.Outcome.next (kick_early (s := ackAccess s) w o))) ?_,
    fun s r w => Ends.of_eq (wdlate_enters r w) (wdFault_enters 2 6 (s := disarm .wdlate s) r.1 (ns r))⟩
  · exact (wdNow_other (s := ackAccess s) (by show s.safe.wdState ≠ 2; omega)).trans w
  · exact wdNow_open (s := ackAccess s) w o
  · simp [only_iff, arm, ackAccess]
  · exact (wdNow_other (s := ackAccess s) (by show s.safe.wdState ≠ 2; omega)).trans z
  · exact wdFault_enters 3 7 (s := ackAccess s) r.1 (ns r)
  · obtain ⟨st, l, e, z, -, q⟩ := wdFault_enters 1 5 (s := ackAccess s) r.1 (ns r)
    exact ⟨st, l, e, z, q⟩

end Sys2Proof.Machine
end

section
/-! The flash at its end of life where the island comes back. -/

namespace Sys2Proof

open Sys2Proof.Machine

/-- The content of a sector that is worn out while no spare is left is lost, whatever the verify would say (R398). -/
theorem landNow_lost {n : Nat} {s : State} (c : Option Content)
    (w : (sector s (physical s n)).retired = true ∨ newCount (sector s (physical s n)) > 100000) (f : freeSpares s = []) :
    (landNow n c s).2 = makeReadOnly n { s with free := s.free + 1 } := by
  have w' : (sector (drawBool s).2 (physical (drawBool s).2 n)).retired = true ∨ newCount (sector (drawBool s).2 (physical (drawBool s).2 n)) > 100000 := w
  have t : takeSpare n (physical (drawBool s).2 n) c (drawBool s).2 = (false, makeReadOnly n (drawBool s).2) := by
    have f' : freeSpares (drawBool s).2 = [] := f
    unfold takeSpare
    rw [f']
  have e : land n (drawBool s).1 c (drawBool s).2 = (false, makeReadOnly n (drawBool s).2) := by
    unfold land
    dsimp only
    rw [if_pos w', t]
    simp
  exact congrArg Prod.snd e

/-- The state after an interrupted refresh of sector `n`, held by buffer 508, that finds no sector. -/
def refreshLost (n : Nat) (s : State) : State :=
  let u := makeReadOnly n { s with free := s.free + 1 }
  let p := physical s 508
  marginSettle (setSector p { sector u p with consumed := true } u)

/-- What the header scan does with buffer `b` (R405). -/
def resumeStep (s : State) (b : Nat) : State :=
  let p := physical s b
  let x := sector s p
  match x.held with
  | some n =>
    if x.heldMark && x.heldCrc && !x.consumed && x.half.isNone then
      (let s := (landNow n (some x.data) s).2
       marginSettle (setSector p { sector s p with consumed := true } s))
    else s
  | none => s

theorem resumeRefresh_steps (s : State) : resumeRefresh s = resumeStep (resumeStep s 508) 509 := rfl

theorem resumeStep_none {s : State} {b : Nat} (h : (sector s (physical s b)).held = none) : resumeStep s b = s := by
  unfold resumeStep
  dsimp only
  split
  · rename_i e
    rw [h] at e
    exact absurd e (by simp)
  · rfl

theorem resumeStep_lost {n : Nat} {s : State} (h : (sector s (physical s 508)).held = some n)
    (m : ((sector s (physical s 508)).heldMark && (sector s (physical s 508)).heldCrc && !(sector s (physical s 508)).consumed &&
      (sector s (physical s 508)).half.isNone) = true)
    (w : (sector s (physical s n)).retired = true ∨ newCount (sector s (physical s n)) > 100000) (f : freeSpares s = []) :
    resumeStep s 508 = refreshLost n s := by
  unfold resumeStep
  dsimp only
  split
  · rename_i k e
    obtain rfl : n = k := Option.some.inj (h.symm.trans e)
    rw [if_pos m, landNow_lost _ w f]
    rfl
  · rename_i e
    rw [h] at e
    exact absurd e (by simp)

theorem resumeRefresh_lost {n : Nat} {s : State} (h : (sector s (physical s 508)).held = some n)
    (m : ((sector s (physical s 508)).heldMark && (sector s (physical s 508)).heldCrc && !(sector s (physical s 508)).consumed &&
      (sector s (physical s 508)).half.isNone) = true)
    (w : (sector s (physical s n)).retired = true ∨ newCount (sector s (physical s n)) > 100000) (f : freeSpares s = [])
    (l : (sector (refreshLost n s) (physical (refreshLost n s) 509)).held = none) : resumeRefresh s = refreshLost n s := by
  rw [resumeRefresh_steps, resumeStep_lost h m w f, resumeStep_none l]

/-- The island restarts after a trial that fell back. A refresh of the journal's sector was interrupted, so that buffer 508 holds its data; that
sector is worn out, and every spare sector is retired. -/
def wornOut : State := { inRun with
  glob.fwup := false, glob.restarting := true, upd.verA := true, upd.verB := true, upd.fell := true,
  fl.sec := (206, { count := some 200000, blank := false }) :: (List.range 64).map (fun i => (336 + i, { retired := true })) ++
    [(508, { held := some 206, heldCrc := true, heldMark := true, blank := false })] }

/-- `wornOut` as the header scan of the restart finds it. -/
def wornScanned : State :=
  let s := scanHeaders [] (disarm .fwBootTimeout { wornOut with glob := { wornOut.glob with restarting := false, fwup := true, fwFails := 0 } })
  { s with fl := { s.fl with halfcnt := (halfSectors s).length, bad := (s.fl.log.filter (fun r => !r.ok)).length } }

/-- What follows the header scan where the island is back. -/
def islandBack (s : State) : State :=
  let s := recomputePend (reloadLedger (reloadPlain s))
  let s := { s with upd := updAtRestart s }
  let s := gaugeStart .restart (scrubLateCheck (updInterrupted s))
  let s := startRounds (arm (sec 1) .logTimer (pollWatch (logReset (raiseG 58 5 s))))
  grant (if s.upd.fell then fellBack s else s)

/-- What follows the refreshes in the header scan, where no sector is half-erased. -/
def banksScanned (s : State) : State :=
  let u := settleBanks s
  (badBanks u).foldl (fun s _ => raiseG 53 3 s) u

theorem wornOut_scan : resumeRefresh wornScanned = refreshLost 206 wornScanned :=
  resumeRefresh_lost (by decide +kernel) (by decide +kernel) (.inr (by decide +kernel)) (by decide +kernel) (by decide +kernel)

theorem headerScan_whole {s : State} (h : halfSectors (scanHeaders [] s) = []) : headerScan [] s =
    banksScanned (resumeRefresh (let v := scanHeaders [] s
      { v with fl := { v.fl with halfcnt := (halfSectors v).length, bad := (v.fl.log.filter (fun r => !r.ok)).length } })) := by
  unfold headerScan banksScanned
  dsimp only
  rw [h, List.foldl_nil]

theorem exec_fwup {s : State} (c : (s.glob.restarting && anvilOn s && !s.glob.floor && restartBoots s) = true) : exec .fwup s =
    .next (islandBack (headerScan [] (disarm .fwBootTimeout { s with glob := { s.glob with restarting := false, fwup := true, fwFails := 0 } }))) :=
  congrArg Host.Outcome.next (if_pos c)

theorem wornOut_restarts : exec .fwup wornOut = .next (islandBack (banksScanned (refreshLost 206 wornScanned))) := by
  rw [exec_fwup (by decide +kernel), headerScan_whole (by decide +kernel), ← wornOut_scan]
  exact congrArg (fun s => Host.Outcome.next (islandBack (banksScanned (resumeRefresh s)))) (Eq.refl _)

/-- Refutes O31: the header scan of the restart finds no sector for the journal's data, the journal's store becomes read-only (R398), and the
fall-back is not written. -/
theorem not_islandFaults : ¬ Obligations.IslandFaults := by
  unfold Obligations.IslandFaults
  intro h
  obtain ⟨-, -, -, -, -, -, h, -⟩ := h
  obtain ⟨t, e, -, want, -⟩ := h wornOut (by decide +kernel) (by decide +kernel) (by decide +kernel) (by decide +kernel) (by decide +kernel) (by decide +kernel)
  have r : (islandBack (banksScanned (refreshLost 206 wornScanned))).upd.want = none := by decide +kernel
  have q : islandBack (banksScanned (refreshLost 206 wornScanned)) = t := Host.Outcome.next.inj (wornOut_restarts.symm.trans e)
  rw [q, want] at r
  exact absurd r (by decide)

end Sys2Proof
end

section
/-! References and oscillators. -/

namespace Sys2Proof

open Sys2Proof.Machine

/-- A change of Touchstone's registers commutes with raises. -/
theorem Raised.setTst {l : List Nat} {s t : State} (h : Raised l s t) (q : Tst) : Raised l { s with tst := q } { t with tst := q } where
  rest := congrArg (fun u : State => { u with tst := q }) h.rest
  kept := h.kept
  marked := h.marked
  others := h.others
  counted := h.counted
  latched := h.latched
  latchKept := h.latchKept

end Sys2Proof

namespace Sys2Proof.Machine

open Sys2Proof

/-! References. -/

theorem exec_reffail {s : State} (a : anvilOn s = true) (x y z : Bool) : exec (.reffail x y z) s = .next (vote x y z s) :=
  congrArg Host.Outcome.next (if_pos a)

/-- An event, and then entry to SAFE with the event. -/
theorem raised_enters {b g i src : Nat} {s : State} (a : anvilOn s = true) (st : s.glob.st ≠ .safe) :
    Entered b (raiseG g i s) (enterSafe b src (raiseG g i s)) ∧ isPend (enterSafe b src (raiseG g i s)) (16 * g + i) = true ∧
      (raiseG g i s).tst = s.tst := by
  have p := isPend_raiseG_self a g i
  have l : Leaves [] s (raiseG g i s) := raiseG_leaves _ _ _ (.refl _ _)
  generalize raiseG g i s = u at p l
  have x := enterSafe_enters b src (l.powered.anvil_st l.st a) (by rw [l.st]; exact st)
  exact ⟨x, x.left.pend p, l.same .tst (by decide)⟩

/-- A second reference is lost. -/
theorem secondRef_enters (l : BitVec 3) {s : State} (a : anvilOn s = true) (st : s.glob.st ≠ .safe) : (secondRef l s).glob.st = .safe ∧
    (secondRef l s).safe.cause.getLsbD 3 = true ∧ (secondRef l s).tst.refFail = s.tst.refFail ||| l ∧ isPend (secondRef l s) 961 = true := by
  obtain ⟨x, p, e⟩ := raised_enters (b := 3) (g := 60) (i := 1) (src := 16 * 60 + 1)
    (s := { s with tst := { s.tst with refFail := s.tst.refFail ||| l } }) a st
  have tst : (secondRef l s).tst = (raiseG 60 1 { s with tst := { s.tst with refFail := s.tst.refFail ||| l } }).tst := x.left.same .tst (by decide)
  exact ⟨x.st, x.cause, by rw [tst, e], p⟩

theorem reffail_second {s : State} (h : Running s) (f : s.tst.refFail = 1) : Ends (.reffail true true true) s (fun t => t.glob.st = .safe ∧
    t.safe.cause.getLsbD 3 = true ∧ (t.tst.refFail = 3 ∨ t.tst.refFail = 5) ∧ isPend t 961 = true) := by
  have e : vote true true true s = secondRef (suspect 2 4 s).1 (suspect 2 4 s).2 := by
    unfold vote
    rw [f]
    exact Eq.refl _
  refine .of_eq ((exec_reffail h.1 _ _ _).trans (congrArg Host.Outcome.next e)) ?_
  obtain ⟨st, c, r, p⟩ := secondRef_enters (suspect 2 4 s).1 (s := (suspect 2 4 s).2) h.1 (by rw [show (suspect 2 4 s).2.glob.st = .run from h.2.1]; decide)
  refine ⟨st, c, ?_, p⟩
  rw [r, show (suspect 2 4 s).2.tst.refFail = 1 from f]
  unfold suspect
  dsimp only
  split
  · exact .inl (by decide)
  · exact .inr (by decide)

/-! Oscillators. -/

theorem exec_oscfail {s : State} (a : anvilOn s = true) (o : Osc) (x : Bool) : exec (.oscfail o x) s = .next (oscFailed o x s) :=
  congrArg Host.Outcome.next (if_pos a)

/-- The oscillator in use fails while the other runs. -/
theorem oscFailed_a {s : State} (f : s.tst.oscFail = 0) (b : s.tst.oscB = false) (x : Bool) : oscFailed .a x s =
    (let u := raiseG 60 2 { s with tst := { s.tst with oscFail := 1 } }; { u with tst := { u.tst with oscB := !u.tst.oscB } }) := by
  unfold oscFailed oscNum
  rw [f, b]
  exact Eq.refl _

theorem oscFailed_a_raised {s : State} (a : anvilOn s = true) (f : s.tst.oscFail = 0) (b : s.tst.oscB = false) (x : Bool) :
    Raised [962] { s with tst := { s.tst with oscFail := 1, oscB := true } } (oscFailed .a x s) := by
  rw [oscFailed_a f b]
  have r := raiseG_raised 60 2 { s with tst := { s.tst with oscFail := 1 } } a
  have e : (raiseG 60 2 { s with tst := { s.tst with oscFail := 1 } }).tst = { s.tst with oscFail := 1 } := congrArg (·.tst) r.rest
  generalize raiseG 60 2 { s with tst := { s.tst with oscFail := 1 } } = u at r e
  dsimp only
  rw [e]
  show Raised [962] { s with tst := { s.tst with oscFail := 1, oscB := true } } { u with tst := { s.tst with oscFail := 1, oscB := !s.tst.oscB } }
  rw [b]
  exact r.setTst { s.tst with oscFail := 1, oscB := true }

theorem oscFailed_spare {s : State} (f : s.tst.oscFail = 0) (b : s.tst.oscB = false) (x : Bool) : oscFailed .b x s =
    raiseG 60 2 { s with tst := { s.tst with oscFail := 2 } } := by
  unfold oscFailed oscNum
  rw [f, b]
  exact Eq.refl _

/-- The last oscillator fails. -/
theorem oscFailed_last {s : State} (f : s.tst.oscFail = 1) (x : Bool) : oscFailed .b x s =
    (let u := enterSafe 4 (16 * 60 + 3) (raiseG 60 3 (raiseG 60 2 { s with tst := { s.tst with oscFail := 3 } }))
     if x then { dropPower u with glob := { u.glob with clocked := false } } else u) := by
  unfold oscFailed oscNum
  rw [f]
  exact Eq.refl _

theorem oscfail_second {s : State} (h : Running s) (f : s.tst.oscFail = 1) : Ends (.oscfail .b false) s (fun t => t.glob.st = .safe ∧
    t.safe.cause.getLsbD 4 = true ∧ t.tst.oscFail = 3 ∧ isPend t 962 = true ∧ isPend t 963 = true) := by
  refine .of_eq ((exec_oscfail h.1 _ _).trans (congrArg Host.Outcome.next ((oscFailed_last f false).trans (if_neg (by decide))))) ?_
  have p := isPend_raiseG_self (s := { s with tst := { s.tst with oscFail := 3 } }) h.1 60 2
  have l : Leaves [.tst] s (raiseG 60 2 { s with tst := { s.tst with oscFail := 3 } }) :=
    (Leaves.set (.refl [.tst] s) (by simp [only_iff])).then (raiseG_leaves (l := []) _ _ _ (.refl _ _)) (by decide)
  have e : (raiseG 60 2 { s with tst := { s.tst with oscFail := 3 } }).tst = { s.tst with oscFail := 3 } := raiseG_tst ..
  generalize raiseG 60 2 { s with tst := { s.tst with oscFail := 3 } } = u at p l e
  obtain ⟨x, p', e'⟩ := raised_enters (b := 4) (g := 60) (i := 3) (src := 16 * 60 + 3) (l.powered.anvil_st l.st h.1) (by rw [l.st, h.2.1]; decide)
  have tst : (enterSafe 4 (16 * 60 + 3) (raiseG 60 3 u)).tst = (raiseG 60 3 u).tst := x.left.same .tst (by decide)
  refine ⟨x.st, x.cause, by rw [tst, e', e], x.left.pend ?_, p'⟩
  exact (raiseG_leaves (l := []) 60 3 u (.refl _ _)).pend p

/-- With the last oscillator stopped, no clock is left. -/
theorem oscFailed_stopped {s : State} (f : s.tst.oscFail = 1) : ∃ u : State, oscFailed .b true s =
    { dropPower u with glob := { u.glob with clocked := false } } := by
  rw [oscFailed_last f]
  dsimp only
  generalize enterSafe 4 (16 * 60 + 3) _ = u
  exact ⟨u, rfl⟩

theorem dropPower_en (u : State) (g : Glob) : ({ dropPower u with glob := g } : State).rl.en = 0 := rfl

/-! The slow check. -/

theorem devByte_within {d : Int} (h : d.natAbs ≤ 40) : devByte d = BitVec.ofInt 8 d := by
  unfold devByte
  rw [show max (-128) (min 127 d) = d by omega]

theorem exec_oscSlowCheck {s : State} (a : anvilOn s = true) (x : s.tst.xtal = true) (d e : Int) (h : e.natAbs ≤ 40) : exec (.oscSlowCheck d e) s =
    .next (if d.natAbs > 40 ∧ !s.tst.oscFail.getLsbD 0 then
      oscFailed .a false { s with tst := { s.tst with oscDevA := devByte d, oscDevB := devByte e } }
      else { s with tst := { s.tst with oscDevA := devByte d, oscDevB := devByte e } }) := by
  have c : (anvilOn s && s.tst.xtal) = true := Bool.and_eq_true_iff.mpr ⟨a, x⟩
  exact congrArg Host.Outcome.next ((if_pos c).trans (if_neg fun c => absurd c.1 (by omega)))

/-- Settles O32. -/
theorem touchstone : Obligations.Touchstone := by
  unfold Obligations.Touchstone
  refine ⟨fun s a f => yields_raiseG (g := 60) (b := 0) a ((exec_reffail a _ _ _).trans ?_), fun s a f => yields_raiseG (g := 60) (b := 0) a ((exec_reffail a _ _ _).trans ?_),
    fun s a f => yields_raiseG (g := 60) (b := 0) a ((exec_reffail a _ _ _).trans ?_), fun s h f => reffail_second h f,
    fun s a f b => Ends.of_eq (exec_oscfail a _ _) (oscFailed_a_raised a f b true),
    fun s a f b => yields_raiseG (g := 60) (b := 2) a ((exec_oscfail a _ _).trans (congrArg Host.Outcome.next (oscFailed_spare f b true))),
    fun s h f => oscfail_second h f,
    fun s a f => (oscFailed_stopped f).elim fun u e =>
      Ends.of_eq ((exec_oscfail a _ _).trans (congrArg Host.Outcome.next e)) ⟨rfl, dropPower_en u _⟩,
    fun s d e a x hd he => ?_, fun s d e a x f b hd he => ?_⟩
  · refine congrArg Host.Outcome.next ?_
    unfold vote
    rw [f]
    exact Eq.refl _
  · refine congrArg Host.Outcome.next ?_
    unfold vote
    rw [f]
    exact Eq.refl _
  · refine congrArg Host.Outcome.next ?_
    unfold vote
    rw [f]
    exact Eq.refl _
  · rw [exec_oscSlowCheck a x d e he, if_neg fun c => absurd c.1 (by omega), devByte_within hd, devByte_within he]
  · have c : d.natAbs > 40 ∧ (!s.tst.oscFail.getLsbD 0) = true := ⟨hd, by rw [f]; rfl⟩
    refine Ends.of_eq ((exec_oscSlowCheck a x d e he).trans (congrArg Host.Outcome.next (if_pos c))) ?_
    rw [← devByte_within he]
    exact oscFailed_a_raised (s := { s with tst := { s.tst with oscDevA := devByte d, oscDevB := devByte e } }) a f b false

end Sys2Proof.Machine
end

section
/-! Assay, wear and planned swaps. -/

namespace Sys2Proof.Machine

open Sys2Proof

/-! Wear. -/

theorem roleOf_congr {s t : State} (hb : t.bk = s.bk) (ht : t.tst = s.tst) (i : Nat) : roleOf t i = roleOf s i := by
  unfold roleOf
  simp only [phOf_congr hb, ldoOf_congr hb, ht]

theorem hasFresh_congr {s t : State} (hr : t.regs = s.regs) (hb : t.bk = s.bk) (ht : t.tst = s.tst) (i : Nat) : hasFresh t i = hasFresh s i := by
  unfold hasFresh freshPhase freshPass spareEn freshRef freshOsc unretiredOsc
  simp only [phOf_congr hb, ldoOf_congr hb, ht, lv_congr hr]

theorem worn_congr {s t : State} (hr : t.regs = s.regs) (hp : t.pat.res = s.pat.res) (i : Nat) : worn t i = worn s i := by
  unfold worn wearOf pat16 pl
  rw [hr, hp]

/-- What an hour does with resource `i` (R227). -/
def retireStep (s : State) (i : Nat) : State :=
  let fresh := hasFresh s i
  let due := decide (roleOf s i = 0) && worn s i
  let s1 := if fresh then { s with pat := { s.pat with low := setBit s.pat.low i false } } else s
  if !due then { s1 with pat := { s1.pat with told := setBit s1.pat.told i false } }
  else if fresh then
    pendSwap i (raiseIf (!s1.pat.told.getLsbD i) (16 * 60 + 10) { s1 with pat := { s1.pat with told := setBit s1.pat.told i true } })
  else if s1.pat.pend.contains i then s1
  else spareLow i s1

theorem retireWorn_steps (s : State) : retireWorn s = (List.range 28).foldl retireStep s := rfl

/-- Wear, and the other resources' marks, are as they were; no pending swap is lost. -/
structure Retires (i : Nat) (s t : State) : Prop where
  res : t.pat.res = s.pat.res
  told : ∀ j, j ≠ i → t.pat.told.getLsbD j = s.pat.told.getLsbD j
  pend : ∀ j, j ∈ s.pat.pend → j ∈ t.pat.pend

theorem retireStep_leaves (s : State) (i : Nat) : Leaves [.pat] s (retireStep s i) := by
  unfold retireStep
  extract_lets fresh due p1 s1 p2
  have l1 : Leaves [.pat] s s1 := .ite (fun _ => .set (.refl _ s) (by simp [only_iff])) fun _ => .refl _ s
  clear_value s1
  refine .ite (fun _ => l1.set (by simp [only_iff])) fun _ => .ite (fun _ => ?_) fun _ => .ite (fun _ => l1) fun _ => ?_
  · have l2 : Leaves [.pat] s (raiseIf (!s1.pat.told.getLsbD i) (16 * 60 + 10) { s1 with pat := { p2 with told := setBit s1.pat.told i true } }) :=
      (l1.set (by simp [only_iff])).then (raiseIf_leaves (l := []) _ _ _ (.refl _ _)) (by decide)
    unfold pendSwap
    exact .ite (fun _ => l2) fun _ => l2.set (by simp [only_iff])
  · unfold spareLow
    exact .ite (fun _ => l1) fun _ => (l1.set (by simp [only_iff])).then (raiseG_leaves (l := []) _ _ _ (.refl _ _)) (by decide)

theorem retireStep_retires (s : State) (i : Nat) : Retires i s (retireStep s i) := by
  unfold retireStep
  extract_lets fresh due p1 s1 p2
  have r1 : s1.pat.res = s.pat.res ∧ s1.pat.told = s.pat.told ∧ s1.pat.pend = s.pat.pend := by
    unfold s1
    split <;> exact ⟨rfl, rfl, rfl⟩
  clear_value s1
  obtain ⟨hr, ht, hp⟩ := r1
  split
  · exact ⟨hr, fun j h => (getLsbD_setBit_other h ..).trans (by rw [ht]), fun j h => hp ▸ h⟩
  · split
    · unfold pendSwap
      split
      · refine ⟨?_, fun j h => ?_, fun j h => ?_⟩
        · rw [raiseIf_pat]; exact hr
        · rw [raiseIf_pat]; exact (getLsbD_setBit_other h ..).trans (by rw [ht])
        · rw [raiseIf_pat]; exact hp ▸ h
      · refine ⟨?_, fun j h => ?_, fun j h => ?_⟩
        · dsimp only
          rw [raiseIf_pat]; exact hr
        · dsimp only
          rw [raiseIf_pat]; exact (getLsbD_setBit_other h ..).trans (by rw [ht])
        · dsimp only
          rw [raiseIf_pat]; exact List.mem_append_left _ (hp ▸ h)
    · split
      · exact ⟨hr, fun j _ => by rw [ht], fun j h => hp ▸ h⟩
      · unfold spareLow
        split
        · exact ⟨hr, fun j _ => by rw [ht], fun j h => hp ▸ h⟩
        · refine ⟨?_, fun j _ => ?_, fun j h => ?_⟩
          · rw [raiseG_pat]; exact hr
          · rw [raiseG_pat]; exact congrArg (·.getLsbD j) ht
          · rw [raiseG_pat]; exact hp ▸ h

/-- Resource `i` is due for its retirement. -/
structure RetireDue (i : Nat) (s : State) : Prop where
  on : anvilOn s = true
  role : roleOf s i = 0
  worn : worn s i = true
  fresh : hasFresh s i = true
  told : s.pat.told.getLsbD i = false

theorem RetireDue.kept {i j : Nat} {s : State} (h : RetireDue i s) (hj : i ≠ j) : RetireDue i (retireStep s j) := by
  have l := retireStep_leaves s j
  have r := retireStep_retires s j
  generalize retireStep s j = t at l r
  have hb : t.bk = s.bk := l.same .bk (by decide)
  have ht : t.tst = s.tst := l.same .tst (by decide)
  have hr : t.regs = s.regs := l.same .regs (by decide)
  exact ⟨l.powered.anvil_st l.st h.on, (roleOf_congr hb ht i).trans h.role, (worn_congr hr r.res i).trans h.worn,
    (hasFresh_congr hr hb ht i).trans h.fresh, (r.told i hj).trans h.told⟩

theorem RetireDue.step {i : Nat} {s : State} (h : RetireDue i s) : i ∈ (retireStep s i).pat.pend ∧ isPend (retireStep s i) 970 = true := by
  have due : (decide (roleOf s i = 0) && Machine.worn s i) = true := by rw [h.role, h.worn]; rfl
  have e : retireStep s i = pendSwap i (raise (16 * 60 + 10) { s with pat := { s.pat with low := setBit s.pat.low i false, told := setBit s.pat.told i true } }) := by
    unfold retireStep
    simp only [due, h.fresh, h.told, Bool.not_true, Bool.not_false, Bool.false_eq_true, if_false, if_true, raiseIf]
  have p : isPend (raise (16 * 60 + 10) { s with pat := { s.pat with low := setBit s.pat.low i false, told := setBit s.pat.told i true } }) (16 * 60 + 10) = true :=
    isPend_raiseG_self (s := { s with pat := { s.pat with low := setBit s.pat.low i false, told := setBit s.pat.told i true } }) h.on 60 10
  rw [e]
  generalize raise (16 * 60 + 10) { s with pat := { s.pat with low := setBit s.pat.low i false, told := setBit s.pat.told i true } } = u at p
  unfold pendSwap
  split
  · rename_i c
    exact ⟨List.contains_iff_mem.mp c, p⟩
  · exact ⟨List.mem_append_right _ (List.mem_singleton.mpr rfl), p⟩

theorem retire_leaves (l : List Nat) (s : State) : Leaves [.pat] s (l.foldl retireStep s) :=
  leaves_foldl (fun s i h => h.then (retireStep_leaves s i) (by decide)) (.refl _ s)

theorem retire_pend {i : Nat} (l : List Nat) {s : State} (h : i ∈ s.pat.pend) : i ∈ (l.foldl retireStep s).pat.pend := by
  induction l generalizing s with
  | nil => exact h
  | cons j l ih => exact ih ((retireStep_retires s j).pend i h)

theorem RetireDue.retires {i : Nat} (l : List Nat) {s : State} (h : RetireDue i s) (hi : i ∈ l) :
    i ∈ (l.foldl retireStep s).pat.pend ∧ isPend (l.foldl retireStep s) 970 = true := by
  induction l generalizing s with
  | nil => exact absurd hi (List.not_mem_nil)
  | cons j l ih =>
    by_cases e : i = j
    · subst e
      obtain ⟨a, b⟩ := h.step
      exact ⟨retire_pend l a, (retire_leaves l _).pend b⟩
    · exact ih (h.kept e) ((List.mem_cons.mp hi).resolve_left e)

theorem operatingHour_retires {s : State} {i : Nat} (f : fwOn s = true) (hi : i < 28) (r : roleOf s i = 0) (w : worn s i = true)
    (h : hasFresh s i = true) (t : s.pat.told.getLsbD i = false) : Ends .operatingHour s (fun t =>
      t.pat.pend.contains i = true ∧ isPend t 970 = true ∧ Only ([.pat] ++ raiseParts) s t) := by
  have e : exec .operatingHour s = .next (grant { retireWorn s with fl := { (retireWorn s).fl with
      wantPat := true, wantGau := if (retireWorn s).gau.off then (retireWorn s).fl.wantGau else max 1 (retireWorn s).fl.wantGau } }) :=
    congrArg Host.Outcome.next (if_pos f)
  refine .of_eq e ?_
  rw [retireWorn_steps]
  obtain ⟨a, b⟩ := RetireDue.retires (List.range 28) ⟨fwOn_anvil f, r, w, h, t⟩ (List.mem_range.mpr hi)
  have l := retire_leaves (List.range 28) s
  generalize (List.range 28).foldl retireStep s = u at a b l
  have g : Leaves [.fl] u (grant { u with fl := { u.fl with wantPat := true, wantGau := if u.gau.off then u.fl.wantGau else max 1 u.fl.wantGau } }) :=
    (Leaves.set (.refl [.fl] u) (by simp [only_iff])).then (grant_leaves (l := []) _ (.refl _ _)) (by decide)
  generalize grant _ = t at g
  have hp : t.pat = u.pat := g.same .pat (by decide)
  exact ⟨by rw [hp]; exact List.contains_iff_mem.mpr a, g.pend b, l.only.trans (g.only.weaken (by decide))⟩

/-! Assay. -/

theorem reached_nil (s : State) : reached [] s = 0 := by
  have z (x : Mask) : x &&& (0 : Mask) = 0 := BitVec.and_zero
  unfold reached depsOf
  simp only [List.filter_nil, List.foldl_nil, z, ne_eq, not_true, decide_false]
  rfl

theorem startsJoin_nil (n : Nat) (s : State) : startsJoin n s [] = [] := by
  cases n with
  | zero => rfl
  | succ n =>
    unfold startsJoin
    rw [reached_nil]
    rfl

theorem reactAll_nil (s : State) : reactAll [] s = s := by
  unfold reactAll
  rw [startsJoin_nil, ite_self]
  rfl

theorem comparators_kept {r : AssayRes} (h : r.cmpLost = 0) (s : State) : Leaves [.tst] s (comparators r s) ∧
    (comparators r s).tst = { s.tst with cmpFail := s.tst.cmpFail ||| r.cmpFail, cmpLost := s.tst.cmpLost ||| r.cmpLost } := by
  have hl : rails (r.cmpLost &&& ~~~s.tst.cmpLost) = [] := by
    rw [h, show (0 : Mask) &&& ~~~s.tst.cmpLost = 0 from BitVec.zero_and]
    rfl
  unfold comparators
  dsimp only
  rw [hl, List.map_nil, reactAll_nil]
  refine ⟨?_, raiseIf_tst ..⟩
  exact (Leaves.set (.refl [.tst] s) (by simp [only_iff])).then (raiseIf_leaves (l := []) _ _ _ (.refl _ _)) (by decide)

/-- What a full test publishes where no rail lost both comparators. -/
theorem publishAssay_full {r : AssayRes} {s : State} (h : r.cmpLost = 0) (f : r.fuses &&& s.otp.pend = 0) :
    Leaves [.tst, .hk, .fl] s (publishAssay true r s) ∧
    (publishAssay true r s).tst.fail = assayBits r ∧ (publishAssay true r s).tst.full = (if assayBits r = 0 then 2 else 3) ∧
    (publishAssay true r s).tst.cmpFail = s.tst.cmpFail ||| r.cmpFail ∧
    (publishAssay true r s).hk.hkaInv = (assayBits r).getLsbD 0 ∧ (publishAssay true r s).hk.hkbInv = (assayBits r).getLsbD 1 := by
  have hf : fuseTest r s = r := by
    unfold fuseTest
    have : r.fuses &&& ~~~s.otp.pend = r.fuses := by
      refine BitVec.eq_of_getLsbD_eq fun i hi => ?_
      have hi' := congrArg (·.getLsbD i) f
      simp only [BitVec.getLsbD_and] at hi'
      simp only [BitVec.getLsbD_and, BitVec.getLsbD_not, hi, decide_true, Bool.true_and]
      cases hx : r.fuses.getLsbD i <;> simp_all
    rw [this]
  unfold publishAssay
  rw [hf]
  extract_lets q b fail t0 hk0 s1 s2 s3 s4
  have l1 : Leaves [.tst, .hk, .fl] s s1 := .set (.refl _ s) (by simp [only_iff, s1])
  have e1 : s1.tst = { s.tst with fail := b, full := if b = 0 then 2 else 3 } := rfl
  have h1 : s1.hk.hkaInv = b.getLsbD 0 ∧ s1.hk.hkbInv = b.getLsbD 1 := ⟨rfl, rfl⟩
  clear_value s1
  have l4 : Leaves [] s1 s4 := raiseIf_leaves _ _ _ (raiseIf_leaves _ _ _ (raiseIf_leaves _ _ _ (.refl _ s1)))
  clear_value s4
  have l5 : Leaves [.fl] s4 (r.sectors.foldl (fun s n => queueRefresh n.val s) s4) :=
    leaves_foldl (fun s n h => queueRefresh_leaves _ s h) (.refl _ s4)
  have l15 : Leaves [.fl] s1 (r.sectors.foldl (fun s n => queueRefresh n.val s) s4) :=
    (Leaves.then (.refl [.fl] s1) l4 (by decide)).then l5 (by decide)
  generalize r.sectors.foldl (fun s n => queueRefresh n.val s) s4 = v at l15
  obtain ⟨lc, ec⟩ := comparators_kept h v
  have hv : v.tst = s1.tst := l15.same .tst (by decide)
  have hkc : (comparators r v).hk = v.hk := lc.same .hk (by decide)
  have hkv : v.hk = s1.hk := l15.same .hk (by decide)
  have hk : (comparators r v).hk = s1.hk := hkc.trans hkv
  rw [ec, hk, hv, e1]
  exact ⟨(l1.then l15 (by decide)).then lc (by decide), rfl, rfl, rfl, h1⟩

theorem assayBits_converters (r : AssayRes) : (assayBits r).getLsbD 0 = r.fail.getLsbD 0 ∧ (assayBits r).getLsbD 1 = r.fail.getLsbD 1 := by
  unfold assayBits
  generalize r.fail = f
  constructor <;> split <;> split <;> split <;> simp

/-- The full test ends. -/
theorem assaydone_publishes {s : State} {r : AssayRes} (f : fwOn s = true) (full : s.tst.full = 1) (h : r.cmpLost = 0) (p : r.fuses &&& s.otp.pend = 0) :
    Ends (.assaydone r) s (fun t => t.tst.fail = assayBits r ∧
      t.tst.full = (if assayBits r = 0 then 2 else 3) ∧ t.tst.cmpFail = s.tst.cmpFail ||| r.cmpFail ∧ t.hk.hkaInv = r.fail.getLsbD 0 ∧
      t.hk.hkbInv = r.fail.getLsbD 1 ∧ isPend t 964 = true ∧ t.rl = s.rl ∧
      (slotHas s 0x30 = true → t.bus.cstat = 3 ∧ t.bus.err = 0 ∧ t.bus.prog = 100 ∧
        t.bus.cres = BitVec.ofNat 8 (assayBits r).toNat :: leBytes 4 (s.tst.cmpFail ||| r.cmpFail).toNat)) := by
  obtain ⟨l, e1, e2, e3, e4, e5⟩ := publishAssay_full h p
  have c : (fwOn s && decide (s.tst.full = 1)) = true := Bool.and_eq_true_iff.mpr ⟨f, decide_eq_true full⟩
  have up : s.glob.fwup = true := by
    unfold fwOn at f
    simp only [Bool.and_eq_true] at f
    exact f.1.1.2
  obtain ⟨t, ht⟩ : ∃ t, t = publishAssay true r s := ⟨_, rfl⟩
  rw [← ht] at l e1 e2 e3 e4 e5
  have gt : t.glob = s.glob := l.same .glob (by decide)
  have hx : exec (.assaydone r) s = .next (grant (if slotHas (raiseG 60 4 t) 0x30 then
      doneWith ([BitVec.ofNat 8 (raiseG 60 4 t).tst.fail.toNat] ++ leBytes 4 (raiseG 60 4 t).tst.cmpFail.toNat)
        { raiseG 60 4 t with bus := { (raiseG 60 4 t).bus with prog := 100 } } else raiseG 60 4 t)) := by
    refine congrArg Host.Outcome.next ((if_pos c).trans ?_)
    rw [← ht]
    exact if_neg (by rw [gt, up]; decide)
  refine .of_eq hx ?_
  have pd : isPend (raiseG 60 4 t) 964 = true := isPend_raiseG_self (l.powered.anvil_st l.st (fwOn_anvil f)) 60 4
  have lr : Leaves [] t (raiseG 60 4 t) := raiseG_leaves _ _ _ (.refl _ _)
  have br : ({ (raiseG 60 4 t).bus with hn := 0 } : Bus) = { t.bus with hn := 0 } := lr.marked .bus (by decide)
  have tr : (raiseG 60 4 t).tst = t.tst := lr.same .tst (by decide)
  have lu : Leaves [.tst, .hk, .fl] s (raiseG 60 4 t) := l.then lr (by decide)
  have hk : (raiseG 60 4 t).hk = t.hk := lr.same .hk (by decide)
  generalize raiseG 60 4 t = u at pd br tr lu hk
  have bs : ({ u.bus with hn := 0 } : Bus) = { s.bus with hn := 0 } := lu.marked .bus (by decide)
  have sh : slotHas u 0x30 = slotHas s 0x30 := by
    unfold slotHas
    rw [(congrArg (·.cstat) bs : u.bus.cstat = s.bus.cstat), (congrArg (·.op) bs : u.bus.op = s.bus.op)]
  have main (v : State) (tv : v.tst = u.tst) (hv : v.hk = u.hk) (rv : v.rl = u.rl) (pv : isPend v 964 = true)
      (bv : slotHas s 0x30 = true → v.bus.cstat = 3 ∧ v.bus.err = 0 ∧ v.bus.prog = 100 ∧
        v.bus.cres = BitVec.ofNat 8 (assayBits r).toNat :: leBytes 4 (s.tst.cmpFail ||| r.cmpFail).toNat) :
      (grant v).tst.fail = assayBits r ∧
      (grant v).tst.full = (if assayBits r = 0 then 2 else 3) ∧ (grant v).tst.cmpFail = s.tst.cmpFail ||| r.cmpFail ∧
      (grant v).hk.hkaInv = r.fail.getLsbD 0 ∧ (grant v).hk.hkbInv = r.fail.getLsbD 1 ∧ isPend (grant v) 964 = true ∧ (grant v).rl = s.rl ∧
      (slotHas s 0x30 = true → (grant v).bus.cstat = 3 ∧ (grant v).bus.err = 0 ∧ (grant v).bus.prog = 100 ∧
        (grant v).bus.cres = BitVec.ofNat 8 (assayBits r).toNat :: leBytes 4 (s.tst.cmpFail ||| r.cmpFail).toNat) := by
    have lg : Leaves [] v (grant v) := grant_leaves v (.refl _ _)
    have tg : (grant v).tst = v.tst := lg.same .tst (by decide)
    have hg : (grant v).hk = v.hk := lg.same .hk (by decide)
    have rg : (grant v).rl = v.rl := lg.same .rl (by decide)
    have ru : u.rl = s.rl := lu.same .rl (by decide)
    have bg : (grant v).bus = v.bus := grant_bus v
    rw [tg, tv, tr, hg, hv, hk, rg, rv, ru, bg, (assayBits_converters r).1.symm, (assayBits_converters r).2.symm]
    exact ⟨e1, e2, e3, e4, e5, lg.pend pv, rfl, bv⟩
  rw [sh]
  split
  · refine main _ rfl rfl rfl pd fun _ => ⟨rfl, rfl, rfl, ?_⟩
    show BitVec.ofNat 8 u.tst.fail.toNat :: leBytes 4 u.tst.cmpFail.toNat = _
    rw [tr, e1, e3]
  · rename_i n
    exact main u rfl rfl rfl pd fun y => absurd y n

theorem assayRun_refused {s : State} {p : Packet} (h : Takes false p s) (hp : p.params = []) (n : s.glob.st ≠ .run) (m : s.glob.st ≠ .safe) :
    Ends (.assayRun p) s (fun t => SlotShows 5 2 [] p t ∧ Only [.bus, .txn] s t) := by
  refine Ends.slotEnd h (op := 0x30) (body := assayRunBody p) rfl ?_
  unfold assayRunBody
  rw [if_neg (by simp [hp]), if_pos ⟨n, m⟩]
  rfl

theorem assayRun_starts {s : State} {p : Packet} (h : Takes false p s) (hp : p.params = []) (st : s.glob.st = .run ∨ s.glob.st = .safe) :
    Ends (.assayRun p) s (fun t => t.bus.cstat = 2 ∧ t.bus.tag = p.tag ∧ t.bus.prog = 0 ∧ t.tst = { s.tst with full := 1 } ∧ Only [.bus, .txn, .tst] s t) := by
  have e : assayRunBody p (taken 0x30 p s) = slotBusy { taken 0x30 p s with bus := { (taken 0x30 p s).bus with prog := 0 }, tst := { s.tst with full := 1 } } := by
    unfold assayRunBody
    rw [if_neg (by simp [hp]), if_neg (fun c => st.elim c.1 c.2)]
    exact Eq.refl _
  refine Ends.of_eq ((exec_taken h (op := 0x30) (body := assayRunBody p) rfl).trans (congrArg Host.Outcome.next e)) ⟨rfl, rfl, rfl, rfl, ?_⟩
  exact ((taken_only 0x30 p.tag s).weaken (by decide)).trans (by simp [only_iff, slotBusy, taken])

/-! Reports. -/

theorem spareSwap_pends {s : State} {p : Packet} {b : Byte} (h : Takes false p s) (hp : p.params = [b]) (hb : b.toNat < 28) (f : hasFresh s b.toNat = true)
    (r : roleOf s b.toNat = 0) : Ends (.spareSwap p) s (fun t => SlotShows 3 0 [] p t ∧
      t.pat.pend = (if s.pat.pend.contains b.toNat then s.pat.pend else s.pat.pend ++ [b.toNat]) ∧ Only [.bus, .txn, .pat] s t) := by
  have e : spareSwapBody p (taken 0xA1 p s) = doneWith [] (pendSwap b.toNat (taken 0xA1 p s)) := by
    unfold spareSwapBody
    rw [hp]
    exact if_pos ⟨hb, f, r⟩
  refine Ends.of_eq ((exec_taken h (op := 0xA1) (body := spareSwapBody p) rfl).trans (congrArg Host.Outcome.next e)) ?_
  have o := taken_only 0xA1 p.tag s
  have ps (u : State) : (pendSwap b.toNat u).pat.pend = (if u.pat.pend.contains b.toNat then u.pat.pend else u.pat.pend ++ [b.toNat]) ∧
      Only [.pat] u (pendSwap b.toNat u) ∧ (pendSwap b.toNat u).bus = u.bus := by
    unfold pendSwap
    split
    · exact ⟨rfl, Only.refl _ _, rfl⟩
    · exact ⟨rfl, by simp [only_iff], rfl⟩
  obtain ⟨a, o', bus⟩ := ps (taken 0xA1 p s)
  refine ⟨⟨rfl, ?_, rfl, rfl⟩, a, ((o.weaken (by decide)).trans (o'.weaken (by decide))).trans (by simp [only_iff, doneWith, slotEnd])⟩
  show (pendSwap b.toNat (taken 0xA1 p s)).bus.tag = p.tag
  rw [bus]
  rfl

theorem spareSwap_refused {s : State} {p : Packet} {b : Byte} (h : Takes false p s) (hp : p.params = [b])
    (c : 28 ≤ b.toNat ∨ hasFresh s b.toNat = false ∨ roleOf s b.toNat ≠ 0) : Ends (.spareSwap p) s (fun t => SlotShows 5 1 [] p t ∧ Only [.bus, .txn] s t) := by
  refine Ends.slotEnd h (op := 0xA1) (body := spareSwapBody p) rfl ?_
  unfold spareSwapBody
  rw [hp]
  refine if_neg ?_
  rintro ⟨hb, f, r⟩
  rcases c with c | c | c
  · omega
  · exact absurd (c.symm.trans f) (by decide)
  · exact c r

theorem patinaReport_answers {s : State} {p : Packet} (h : Takes false p s) (hp : p.params = []) :
    Ends (.patinaReport p) s (fun t => SlotShows 3 0 (spareSummary s) p t ∧ Only [.bus, .txn] s t) :=
  Ends.slotEnd h (op := 0xA0) (body := fun s => if p.params = [] then doneWith (spareSummary s) s else rejectOpen s) rfl (if_pos hp)

theorem snapshotRead_one {p : Packet} {b : Byte} (hp : p.params = [b]) (hb : b.toNat ≤ 1) (s : State) : snapshotReadBody p s =
    (match snapRecord s (decide (b = 1)) with | some r => doneWith r s | none => reject 0x01 s) := by
  unfold snapshotReadBody
  rw [hp]
  exact if_pos hb

theorem snapshotRead_answers {s : State} {p : Packet} {b : Byte} {v : List Byte} (h : Takes false p s) (hp : p.params = [b]) (hb : b.toNat ≤ 1)
    (e : snapRecord s (decide (b = 1)) = some v) : Ends (.snapshotRead p) s (fun t => SlotShows 3 0 v p t ∧ Only [.bus, .txn] s t) := by
  have e' : snapRecord (taken 0x31 p s) (decide (b = 1)) = some v := e
  refine Ends.slotEnd h (op := 0x31) (body := snapshotReadBody p) rfl ?_
  rw [snapshotRead_one hp hb, e']
  rfl

theorem snapshotRead_refused {s : State} {p : Packet} {b : Byte} (h : Takes false p s) (hp : p.params = [b]) (hb : b.toNat ≤ 1)
    (e : snapRecord s (decide (b = 1)) = none) : Ends (.snapshotRead p) s (fun t => SlotShows 5 1 [] p t ∧ Only [.bus, .txn] s t) := by
  have e' : snapRecord (taken 0x31 p s) (decide (b = 1)) = none := e
  refine Ends.slotEnd h (op := 0x31) (body := snapshotReadBody p) rfl ?_
  rw [snapshotRead_one hp hb, e']
  rfl

/-! Planned swaps. -/

theorem exec_swap {s : State} {i : Nat} {l : List Nat} (f : fwRuns s = true) (hp : s.pat.pend = i :: l) : exec .swap s =
    .next (if overlapping s i || swapBlocked s i then s
      else if roleOf s i ≠ 0 then { s with pat := { s.pat with pend := l } }
      else if !hasFresh s i then spareLow i { s with pat := { s.pat with pend := l } }
      else beginSwap i s) := by
  refine congrArg Host.Outcome.next ((if_neg (by rw [f]; decide)).trans ?_)
  rw [hp]

theorem exec_swap_begins {s : State} {i : Nat} {l : List Nat} (f : fwRuns s = true) (hp : s.pat.pend = i :: l) (o : overlapping s i = false)
    (b : swapBlocked s i = false) (r : roleOf s i = 0) (h : hasFresh s i = true) : exec .swap s = .next (beginSwap i s) := by
  rw [exec_swap f hp, o, b, r, h]
  exact Eq.refl _

theorem exec_swap_blocked {s : State} {i : Nat} {l : List Nat} (hp : s.pat.pend = i :: l) (b : swapBlocked s i = true) : exec .swap s = .next s := by
  by_cases f : fwRuns s = true
  · rw [exec_swap f hp, b, Bool.or_true, if_pos rfl]
  · exact congrArg Host.Outcome.next (if_pos (by simpa using f))

theorem swap_reference {s : State} {l : List Nat} (f : fwRuns s = true) (hp : s.pat.pend = 23 :: l) (hl : ∀ x ∈ l, x ≠ 23) (r : roleOf s 23 = 0)
    (h : hasFresh s 23 = true) : Yields .swap s { s with
      pat := { s.pat with pend := l }, tst := { s.tst with cmpOnC := true, retired := setBit s.tst.retired 0 (worn s 23) } } [971] := by
  have fl : s.pat.pend.filter (fun x => decide (x ≠ 23)) = l := by
    rw [hp, List.filter_cons_of_neg (by decide)]
    exact List.filter_eq_self.mpr fun x hx => decide_eq_true (hl x hx)
  have e : beginSwap 23 s = raiseG 60 11 { s with
      pat := { s.pat with pend := s.pat.pend.filter (fun x => decide (x ≠ 23)) },
      tst := { s.tst with cmpOnC := true, retired := setBit s.tst.retired 0 (worn s 23) } } := rfl
  rw [fl] at e
  have on : anvilOn s = true := by
    unfold fwRuns at f
    exact fwOn_anvil (Bool.and_eq_true_iff.mp f).1
  exact yields_raiseG (g := 60) (b := 11) on ((exec_swap_begins f hp rfl rfl r h).trans (congrArg Host.Outcome.next e))

/-- The resource of a pass device names it. -/
theorem resPass_of (c : Chan) (k : Bool) : resPhase (15 + 2 * c.val + k.toNat) = none ∧ resPass (15 + 2 * c.val + k.toNat) = some (c.val, k.toNat) := by
  revert c k
  decide

/-- The resource of a phase names it. -/
theorem resPhase_of (r : PhRail) (p : Phase) : resPhase (phaseRes r.val p.val) = some (r.val, p.val) := by
  revert r p
  decide

theorem swap_pass {s : State} {c : Chan} {l : List Nat} {i : Nat} (f : fwRuns s = true) (hp : s.pat.pend = i :: l)
    (hi : i = 15 + 2 * c.val + (ldoOf s c.val).pass1.toNat) (o : has s.rl.overlap (13 + c.val) = false) (cl : has s.rl.clamp (13 + c.val) = false)
    (d : (ldoOf s c.val).drop = false) (r : roleOf s i = 0) (h : hasFresh s i = true) : exec .swap s =
      .next (arm 40 (.swapOverlapEnd (.ldo c)) { s with rl := { s.rl with overlap := s.rl.overlap ||| bit (13 + c.val) } }) := by
  obtain ⟨h1, h2⟩ := resPass_of c (ldoOf s c.val).pass1
  rw [← hi] at h1 h2
  have ho : overlapping s i = false := by
    unfold overlapping
    rw [h1, h2]
    exact o
  have hb : swapBlocked s i = false := by
    unfold swapBlocked
    rw [h1, h2]
    dsimp only
    rw [cl, d]
    rfl
  refine (exec_swap_begins f hp ho hb r h).trans (congrArg Host.Outcome.next ?_)
  unfold beginSwap
  rw [h1, h2]
  dsimp only
  rw [Fin.ofNat_val_eq_self]
  rfl

theorem swapDone_spec (i : Nat) {s : State} (a : anvilOn s = true) : (swapDone i s).bk = s.bk ∧ (swapDone i s).rl = s.rl ∧
    isPend (swapDone i s) 971 = true := ⟨raiseG_bk .., raiseG_rl .., 
    isPend_raiseG_self (s := { s with pat := { s.pat with pend := s.pat.pend.filter (fun x => decide (x ≠ i)) } }) a 60 11⟩

theorem overlapEnd_pass {s : State} {c : Chan} (a : anvilOn s = true) (o : has s.rl.overlap (13 + c.val) = true) :
    Ends (.swapOverlapEnd (.ldo c)) s (fun t => (ldoOf t c.val).pass1 = !(ldoOf s c.val).pass1 ∧
      (ldoOf t c.val).retired = worn s (15 + 2 * c.val + (ldoOf s c.val).pass1.toNat) ∧ has t.rl.overlap (13 + c.val) = false ∧ t.rl.en = s.rl.en ∧
      isPend t 971 = true) := by
  obtain ⟨l', hl⟩ : ∃ l', l' = { ldoOf s c.val with pass1 := !(ldoOf s c.val).pass1, retired := worn s (15 + 2 * c.val + (ldoOf s c.val).pass1.toNat) } := ⟨_, rfl⟩
  have e : exec (.swapOverlapEnd (.ldo c)) s = .next (swapDone (15 + 2 * c.val + (ldoOf s c.val).pass1.toNat) (setLdo c.val l'
      { disarm (.swapOverlapEnd (.ldo c)) s with rl := { s.rl with overlap := s.rl.overlap &&& ~~~(bit (13 + c.val)) } })) := by
    rw [hl]
    exact congrArg Host.Outcome.next (if_neg (show ¬ (!has (disarm (.swapOverlapEnd (.ldo c)) s).rl.overlap (13 + c.val)) = true from by
      rw [show has (disarm (.swapOverlapEnd (.ldo c)) s).rl.overlap (13 + c.val) = true from o]; decide))
  refine .of_eq e ?_
  obtain ⟨u, hu⟩ : ∃ u, u = setLdo c.val l' { disarm (.swapOverlapEnd (.ldo c)) s with rl := { s.rl with overlap := s.rl.overlap &&& ~~~(bit (13 + c.val)) } } := ⟨_, rfl⟩
  have hp : ldoOf u c.val = l' := by rw [hu]; exact ldoOf_setLdo ..
  have hr : u.rl = { s.rl with overlap := s.rl.overlap &&& ~~~(bit (13 + c.val)) } := by rw [hu]; rfl
  have on : anvilOn u = true := by rw [hu]; exact a
  rw [← hu]
  clear hu
  obtain ⟨bk, rl, pd⟩ := swapDone_spec (15 + 2 * c.val + (ldoOf s c.val).pass1.toNat) on
  rw [ldoOf_congr bk, rl, hp, hr, hl]
  exact ⟨rfl, rfl, has_not_bit _ _, rfl, pd⟩

/-- The incoming phase of a swap: a fresh spare. -/
def incoming (m : BitVec 3) : Nat := if low3 m = 1 then 0 else if low3 m = 2 then 1 else 2

theorem incoming_fresh : ∀ a b c : BitVec 3, a &&& ~~~b &&& ~~~c ≠ 0 → a.getLsbD (incoming (a &&& ~~~b &&& ~~~c)) = true ∧
    b.getLsbD (incoming (a &&& ~~~b &&& ~~~c)) = false ∧ c.getLsbD (incoming (a &&& ~~~b &&& ~~~c)) = false := by
  decide

theorem swap_phase {s : State} {r : PhRail} {p : Phase} {l : List Nat} {i : Nat} (f : fwRuns s = true) (hi : i = phaseRes r.val p.val)
    (hp : s.pat.pend = i :: l) (o : has s.rl.overlap r.val = false) (b : swapBlocked s i = false) (ro : roleOf s i = 0) (h : hasFresh s i = true) :
    Ends .swap s (fun t => has t.rl.overlap r.val = true ∧ (phOf t r.val).out = p.val ∧
      (phOf s r.val).spare.getLsbD (phOf t r.val).inc = true ∧ (phOf s r.val).fail.getLsbD (phOf t r.val).inc = false ∧
      (phOf s r.val).retired.getLsbD (phOf t r.val).inc = false ∧ (phOf t r.val).spare = (phOf s r.val).spare ∧ (phOf t r.val).fail = (phOf s r.val).fail ∧
      Armed (overlapTime s r.val) (.swapOverlapEnd (.phases r)) s t ∧ Only [.rl, .bk, .clk] s t) := by
  have h1 := resPhase_of r p
  rw [← hi] at h1
  have ho : overlapping s i = false := by
    unfold overlapping
    rw [h1]
    exact o
  have hf : (phOf s r.val).spare &&& ~~~(phOf s r.val).fail &&& ~~~(phOf s r.val).retired ≠ 0 := by
    unfold hasFresh at h
    rw [h1] at h
    exact of_decide_eq_true (Bool.and_eq_true_iff.mp h).2
  obtain ⟨q, hq⟩ : ∃ q, q = { phOf s r.val with
      inc := incoming ((phOf s r.val).spare &&& ~~~(phOf s r.val).fail &&& ~~~(phOf s r.val).retired), out := p.val } := ⟨_, rfl⟩
  have e : beginSwap i s = arm (overlapTime s r.val) (.swapOverlapEnd (.phases r))
      (setPh r.val q { s with rl := { s.rl with overlap := s.rl.overlap ||| bit r.val } }) := by
    rw [hq]
    unfold beginSwap
    rw [h1]
    dsimp only
    rw [Fin.ofNat_val_eq_self]
    rfl
  refine .of_eq ((exec_swap_begins f hp ho b ro h).trans (congrArg Host.Outcome.next e)) ?_
  have hph : phOf (arm (overlapTime s r.val) (.swapOverlapEnd (.phases r))
      (setPh r.val q { s with rl := { s.rl with overlap := s.rl.overlap ||| bit r.val } })) r.val = q := phOf_setPh r.val q _
  rw [hph, hq]
  obtain ⟨i1, i2, i3⟩ := incoming_fresh _ _ _ hf
  refine ⟨has_or_bit _ (by omega), rfl, i1, i2, i3, rfl, rfl, ?_, ?_⟩
  · exact List.mem_append_right _ (List.mem_singleton.mpr rfl)
  · simp [only_iff, arm, setPh]

theorem overlapEnd_phase {s : State} {r : PhRail} (a : anvilOn s = true) (o : has s.rl.overlap r.val = true) (ho : (phOf s r.val).out < 3) :
    Ends (.swapOverlapEnd (.phases r)) s (fun t =>
      has t.rl.overlap r.val = false ∧ (∀ j : Phase, (phOf t r.val).spare.getLsbD j.val = decide (j.val = (phOf s r.val).out)) ∧
      (phOf t r.val).fail = (phOf s r.val).fail ∧ (phOf t r.val).retired.getLsbD (phOf s r.val).out = worn s (phaseRes r.val (phOf s r.val).out) ∧
      t.rl.en = s.rl.en ∧ isPend t 971 = true) := by
  obtain ⟨q, hq⟩ : ∃ q, q = { phOf s r.val with spare := BitVec.twoPow 3 (phOf s r.val).out,
                                                 retired := setBit 0 (phOf s r.val).out (worn s (phaseRes r.val (phOf s r.val).out)) } := ⟨_, rfl⟩
  have e : exec (.swapOverlapEnd (.phases r)) s = .next (swapDone (phaseRes r.val (phOf s r.val).out) (setPh r.val q
      { disarm (.swapOverlapEnd (.phases r)) s with rl := { s.rl with overlap := s.rl.overlap &&& ~~~(bit r.val) } })) := by
    rw [hq]
    exact congrArg Host.Outcome.next (if_neg (show ¬ (!has (disarm (.swapOverlapEnd (.phases r)) s).rl.overlap r.val) = true from by
      rw [show has (disarm (.swapOverlapEnd (.phases r)) s).rl.overlap r.val = true from o]; decide))
  refine .of_eq e ?_
  obtain ⟨u, hu⟩ : ∃ u, u = setPh r.val q { disarm (.swapOverlapEnd (.phases r)) s with rl := { s.rl with overlap := s.rl.overlap &&& ~~~(bit r.val) } } := ⟨_, rfl⟩
  have hp : phOf u r.val = q := by rw [hu]; exact phOf_setPh ..
  have hr : u.rl = { s.rl with overlap := s.rl.overlap &&& ~~~(bit r.val) } := by rw [hu]; rfl
  have on : anvilOn u = true := by rw [hu]; exact a
  rw [← hu]
  clear hu
  obtain ⟨bk, rl, pd⟩ := swapDone_spec (phaseRes r.val (phOf s r.val).out) on
  rw [phOf_congr bk, rl, hp, hr, hq]
  refine ⟨has_not_bit _ _, fun j => ?_, rfl, getLsbD_setBit_self ho _ _, rfl, pd⟩
  show (BitVec.twoPow 3 (phOf s r.val).out).getLsbD j.val = _
  rw [BitVec.getLsbD_twoPow, decide_eq_true ho, Bool.true_and]
  exact decide_eq_decide.mpr eq_comm

/-- Settles O33. -/
theorem assayAndPatina : Obligations.AssayAndPatina := by
  unfold Obligations.AssayAndPatina
  exact ⟨fun s p h hp st => assayRun_starts h hp st, fun s p h hp n m => assayRun_refused h hp n m,
    fun s r f full h p => assaydone_publishes f full h p, fun s i f hi r w h t => operatingHour_retires f hi r w h t,
    fun s p b h hp hb f r => spareSwap_pends h hp hb f r, fun s p b h hp c => spareSwap_refused h hp c, fun s p h hp => patinaReport_answers h hp,
    fun s l f hp hl r h => swap_reference f hp hl r h, fun s c l i f hp hi o cl d r h => swap_pass f hp hi o cl d r h,
    fun s c a o => overlapEnd_pass a o, fun s p b v h hp hb e => snapshotRead_answers h hp hb e, fun s p b h hp hb e => snapshotRead_refused h hp hb e,
    fun s r p l i f hi hp o b ro h => swap_phase f hi hp o b ro h, fun s r a o ho => overlapEnd_phase a o ho,
    fun s i l hp b => exec_swap_blocked hp b, fun s f => congrArg Host.Outcome.next (if_pos (by rw [f]; rfl))⟩

end Sys2Proof.Machine
end

section
/-! A round that ends in a system reset. -/

namespace Sys2Proof

open Sys2Proof.Machine

/-- Load switch 0 (rail 17) is on, with the reaction RESET to its thermal limit; the round's light Assay step is displaced. -/
def hotRound : State := { putLive (rx 17 2) [0x28] inRun with rl.en := bit 17, hk.claim := 1 }

/-- A round that measures 175 °C at the load switch's sensor. -/
def hotData : RoundData where
  hka := [⟨0, 100⟩, ⟨89, 2800⟩]
  hkb := []
  assay := { fail := 0, fuses := 0, cmpFail := 0, cmpLost := 0, sectors := [] }
  dq := 0
  iMean := 0
  iMin := 0
  iMax := 0
  iSec := 0
  iAvgMin := 0
  sense := 0
  devAC := 0
  devBC := 0
  devAB := 0

/-- Refutes O34: the thermal limit that the round finds resets the device (R159), and the values that the round published are gone. -/
theorem not_housekeeping : ¬ Obligations.Housekeeping := by
  unfold Obligations.Housekeeping
  intro h
  obtain ⟨h, -⟩ := h
  obtain ⟨t, e, -, -, -, n⟩ := h hotRound hotData 0 100 (by decide +kernel) (by decide +kernel) (by decide +kernel) (by decide) (by decide +kernel) (by decide)
  have r : endsIn (fun t => decide (t.hk.rnd = 0)) (exec (.hkRoundEnd hotData) hotRound) = true := by decide +kernel
  have z : t.hk.rnd = 0 := of_decide_eq_true (endsIn_of r e)
  rw [z] at n
  exact absurd n (by decide +kernel)

end Sys2Proof
end

section
/-! SUPPORT. What the operations leave alone, raise marks apart, function by function. -/

namespace Sys2Proof.Machine

open Sys2Proof

variable {z : State} {l : List Part}

theorem berrRsvenc_leaves (s : State) (hs : Leaves [.glob] z s) : Leaves [.glob] z (berrRsvenc s) := buserr_leaves 1 s hs


theorem plainByte_leaves (p o : Nat) (v : Byte) (s : State) (hs : Leaves [.glob, .regs] z s) : Leaves [.glob, .regs] z (plainByte p o v s) := by
  unfold plainByte
  dsimp only
  have h := hs.then (putPlain_leaves (key p o) [(mergeByte (byteFields p o) (fun _ => true) (pl s (key p o)) v).1] s (.refl _ _)) (by decide)
  exact .ite (fun _ => h.then (berrRsvenc_leaves _ (.refl _ _)) (by decide)) fun _ => h


theorem slotBusy_leaves (s : State) (hs : Leaves [.bus] z s) :
    Leaves [.bus] z (slotBusy s) := by
  unfold slotBusy
  repeat' (first
    | with_reducible assumption | with_reducible intro _ | subst x | assumption)

theorem tryS2_leaves (s : State) (hs : Leaves [.plt] z s) :
    Leaves [.plt] z (tryS2 s) := by
  unfold tryS2
  repeat' (first
    | with_reducible assumption | with_reducible intro _ | subst x | with_reducible apply Leaves.ite
    | (with_reducible apply Leaves.after (setPlt_leaves _ _ (Leaves.refl _ _)); rotate_left; decide)
    | with_reducible apply raiseG_leaves)

theorem pilotAck_leaves (s : State) (hs : Leaves [.clk, .plt] z s) :
    Leaves [.clk, .plt] z (pilotAck s) := by
  unfold pilotAck
  repeat' (first
    | with_reducible assumption | with_reducible intro _ | subst x | with_reducible apply Leaves.ite
    | (with_reducible apply Leaves.after (stopResponse_leaves _ (Leaves.refl _ _)); rotate_left; decide)
    | with_reducible apply raiseG_leaves)

theorem pilotClassify_leaves (c : Nat) (s : State) (hs : Leaves [.clk, .plt] z s) :
    Leaves [.clk, .plt] z (pilotClassify c s) := by
  unfold pilotClassify
  repeat' (first
    | with_reducible assumption | with_reducible intro _ | subst x
    | (extract_lets +onlyGivenNames x; have hx : Leaves [.clk, .plt] z x := ?_; clear_value x)
    | (extract_lets +onlyGivenNames x; clear_value x) | with_reducible apply Leaves.ite
    | (with_reducible apply Leaves.after (tryS2_leaves _ (Leaves.refl _ _)); rotate_left; decide)
    | (with_reducible apply Leaves.after (causeIf_leaves _ _ _ (Leaves.refl _ _)); rotate_left; decide)
    | (with_reducible apply Leaves.after (setPlt_leaves _ _ (Leaves.refl _ _)); rotate_left; decide)
    | with_reducible apply raiseIf_leaves | with_reducible apply raiseG_leaves)

theorem publishPilot_leaves (s : State) (hs : Leaves [.clk, .plt] z s) :
    Leaves [.clk, .plt] z (publishPilot s) := by
  unfold publishPilot
  repeat' (first
    | with_reducible assumption | with_reducible intro _ | subst x
    | (extract_lets +onlyGivenNames x; have hx : Leaves [.clk, .plt] z x := ?_; clear_value x)
    | (extract_lets +onlyGivenNames x; clear_value x) | with_reducible apply Leaves.ite
    | (with_reducible apply Leaves.after (setCurr_leaves _ _ (Leaves.refl _ _)); rotate_left; decide)
    | (with_reducible apply Leaves.after (setPlt_leaves _ _ (Leaves.refl _ _)); rotate_left; decide)
    | with_reducible apply raiseIf_leaves | dsimp only)

theorem diodeCheck_leaves (lo : Int) (s : State) (hs : Leaves [.plt] z s) :
    Leaves [.plt] z (diodeCheck lo s) := by
  unfold diodeCheck
  repeat' (first
    | with_reducible assumption | with_reducible intro _ | subst x
    | (extract_lets +onlyGivenNames x; have hx : Leaves [.plt] z x := ?_; clear_value x)
    | (extract_lets +onlyGivenNames x; clear_value x) | with_reducible apply Leaves.ite
    | (with_reducible apply Leaves.after (setPlt_leaves _ _ (Leaves.refl _ _)); rotate_left; decide)
    | with_reducible apply raiseG_leaves)

theorem latchDuty_leaves (s : State) (hs : Leaves [.plt] z s) :
    Leaves [.plt] z (latchDuty s) := by
  unfold latchDuty
  repeat' (first
    | with_reducible assumption | with_reducible intro _ | subst x
    | (with_reducible apply Leaves.after (setPlt_leaves _ _ (Leaves.refl _ _)); rotate_left; decide))

theorem setPp_leaves (c : Nat) (s : State) (hs : Leaves [.clk, .plt] z s) :
    Leaves [.clk, .plt] z (setPp c s) := by
  unfold setPp
  repeat' (first
    | with_reducible assumption | with_reducible intro _ | subst x
    | (extract_lets +onlyGivenNames x; have hx : Leaves [.clk, .plt] z x := ?_; clear_value x)
    | with_reducible apply Leaves.ite
    | (with_reducible apply Leaves.after (tryS2_leaves _ (Leaves.refl _ _)); rotate_left; decide)
    | (with_reducible apply Leaves.after (causeIf_leaves _ _ _ (Leaves.refl _ _)); rotate_left; decide)
    | (with_reducible apply Leaves.after (openS2_leaves _ (Leaves.refl _ _)); rotate_left; decide)
    | (with_reducible apply Leaves.after (setPlt_leaves _ _ (Leaves.refl _ _)); rotate_left; decide)
    | with_reducible apply raiseIf_leaves | with_reducible apply raiseG_leaves)

theorem pswByte_leaves (v : Byte) (s : State) (hs : Leaves [.clk, .glob, .regs, .plt] z s) :
    Leaves [.clk, .glob, .regs, .plt] z (pswByte v s) := by
  unfold pswByte
  repeat' (first
    | with_reducible assumption | with_reducible intro _ | subst x
    | (extract_lets +onlyGivenNames x; have hx : Leaves [.clk, .glob, .regs, .plt] z x := ?_; clear_value x)
    | (extract_lets +onlyGivenNames x; clear_value x) | with_reducible apply Leaves.ite
    | (with_reducible apply Leaves.after (pilotAck_leaves _ (Leaves.refl _ _)); rotate_left; decide)
    | (with_reducible apply Leaves.after (tryS2_leaves _ (Leaves.refl _ _)); rotate_left; decide)
    | (with_reducible apply Leaves.after (plainByte_leaves _ _ _ _ (Leaves.refl _ _)); rotate_left; decide)
    | (with_reducible apply Leaves.after (openS2_leaves _ (Leaves.refl _ _)); rotate_left; decide))

theorem clearPsw_leaves (s : State) (hs : Leaves [.regs, .plt] z s) :
    Leaves [.regs, .plt] z (clearPsw s) := by
  unfold clearPsw
  repeat' (first
    | with_reducible assumption | with_reducible intro _ | subst x
    | (with_reducible apply Leaves.after (openS2_leaves _ (Leaves.refl _ _)); rotate_left; decide)
    | (with_reducible apply Leaves.after (putPlain_leaves _ _ _ (Leaves.refl _ _)); rotate_left; decide))

theorem startSwap_leaves (supply : Bool) (s : State) (hs : Leaves [.clk, .plt, .bus] z s) :
    Leaves [.clk, .plt, .bus] z (startSwap supply s) := by
  unfold startSwap
  repeat' (first
    | with_reducible assumption | with_reducible intro _ | subst x
    | (extract_lets +onlyGivenNames x; have hx : Leaves [.clk, .plt, .bus] z x := ?_; clear_value x)
    | (with_reducible apply Leaves.after (slotBusy_leaves _ (Leaves.refl _ _)); rotate_left; decide)
    | (with_reducible apply Leaves.after (stopResponse_leaves _ (Leaves.refl _ _)); rotate_left; decide)
    | (with_reducible apply Leaves.after (openS2_leaves _ (Leaves.refl _ _)); rotate_left; decide)
    | (with_reducible apply Leaves.after (setPlt_leaves _ _ (Leaves.refl _ _)); rotate_left; decide)
    | (with_reducible apply Leaves.after (arm_leaves _ _ _ (Leaves.refl _ _)); rotate_left; decide))

end Sys2Proof.Machine
end

section
/-! SUPPORT. One timer, over what arms and stops others. -/

namespace Sys2Proof

open Sys2Proof.Machine

/-- The event `e` is armed for the same moments. -/
def Timed (e : Instr) (s t : State) : Prop := ∀ d, ⟨d, e⟩ ∈ t.clk.timers ↔ ⟨d, e⟩ ∈ s.clk.timers

theorem Timed.refl (e : Instr) (s : State) : Timed e s s := fun _ => .rfl
theorem Timed.trans {e : Instr} {s t u : State} (h : Timed e s t) (g : Timed e t u) : Timed e s u := fun d => (g d).trans (h d)
theorem Timed.of_eq {e : Instr} {s t : State} (h : t.clk = s.clk) : Timed e s t := fun _ => by rw [h]

theorem Leaves.timed {l : List Part} {s t : State} (h : Leaves l s t) (e : Instr) (hc : .clk ∉ l := by decide) (he : seqTimer e = false := by rfl) :
    Timed e s t := h.times hc e he

theorem timed_ite {e : Instr} {c : Prop} [Decidable c] {s a b : State} (ha : Timed e s a) (hb : Timed e s b) : Timed e s (if c then a else b) := by
  split
  · exact ha
  · exact hb

end Sys2Proof

namespace Sys2Proof.Machine

open Sys2Proof

theorem arm_timed {e f : Instr} (h : f ≠ e) (dt : Nat) (s : State) : Timed e s (arm dt f s) := by
  intro d
  simp [arm, Ne.symm h]

theorem disarm_timed {e f : Instr} (h : f ≠ e) (s : State) : Timed e s (disarm f s) := by
  intro d
  simp [disarm, Ne.symm h]

theorem arm_arms (dt : Nat) (e : Instr) (s : State) : Armed dt e s (arm dt e s) := List.mem_append_right _ (List.mem_singleton.mpr rfl)

theorem raiseG_timed {e : Instr} (he : seqTimer e = false) (g b : Nat) (s : State) : Timed e s (raiseG g b s) :=
  (raiseG_leaves (l := []) g b s (.refl _ _)).timed e (he := he)

theorem raiseIf_timed {e : Instr} (he : seqTimer e = false) (c : Bool) (k : Nat) (s : State) : Timed e s (raiseIf c k s) :=
  (raiseIf_leaves (l := []) c k s (.refl _ _)).timed e (he := he)

theorem pilotCause_timed {e : Instr} (h : .rspsoft ≠ e) (he : seqTimer e = false) (b : Nat) (s : State) : Timed e s (pilotCause b s) := by
  unfold pilotCause
  refine timed_ite (.refl e s) ?_
  dsimp only
  refine timed_ite (.of_eq rfl) ?_
  refine Timed.trans ?_ (raiseG_timed he _ _ _)
  exact Timed.trans (.of_eq rfl) (arm_timed h _ _)

theorem causeIf_timed {e : Instr} (h : .rspsoft ≠ e) (he : seqTimer e = false) (c : Bool) (b : Nat) (s : State) : Timed e s (causeIf c b s) :=
  timed_ite (pilotCause_timed h he b s) (.refl e s)

theorem setCurr_timed {e : Instr} (h : .rspsoft ≠ e) (he : seqTimer e = false) (c : Nat) (s : State) : Timed e s (setCurr c s) := by
  unfold setCurr
  dsimp only
  refine timed_ite (.refl e s) (Timed.trans ?_ (causeIf_timed h he _ _ _))
  exact Timed.trans (.of_eq rfl) (raiseIf_timed he _ _ _)

theorem setOsc_timed {e : Instr} (h : .rspsoft ≠ e) (he : seqTimer e = false) (on : Bool) (s : State) : Timed e s (setOsc on s) := by
  unfold setOsc
  dsimp only
  refine timed_ite (.refl e s) ?_
  have r := Timed.trans (s := s) (.of_eq rfl) (raiseG_timed he 48 (if on then 1 else 2) (setPlt (fun p => { p with osc := on }) s))
  exact timed_ite r (r.trans (pilotCause_timed h he 1 _))

theorem publishPilot_timed {e : Instr} (h : .rspsoft ≠ e) (he : seqTimer e = false) (s : State) : Timed e s (publishPilot s) := by
  unfold publishPilot
  dsimp only
  refine timed_ite (timed_ite (.refl e s) (Timed.trans (.of_eq rfl) (setCurr_timed h he _ _))) ?_
  refine Timed.trans ?_ (setCurr_timed h he _ _)
  exact Timed.trans (.of_eq rfl) (raiseIf_timed he _ _ _)

theorem pilotClassify_timed {e : Instr} (h : .rspsoft ≠ e) (he : seqTimer e = false) (c : Nat) (s : State) : Timed e s (pilotClassify c s) := by
  unfold pilotClassify
  dsimp only
  generalize (if s.plt.cls = c then s.plt.run + 1 else 1) = n
  refine timed_ite (.of_eq rfl) ?_
  refine Timed.trans ?_ ((tryS2_leaves _ (.refl _ _)).timed e (he := he))
  refine Timed.trans ?_ (causeIf_timed h he _ _ _)
  refine Timed.trans ?_ (raiseIf_timed he _ _ _)
  exact Timed.trans (.of_eq rfl) (raiseG_timed he 48 0 (setPlt (fun p => { p with state := c }) (setPlt (fun p => { p with cls := c, run := min 4 n, seen := min 4 (p.seen + 1) }) s)))

end Sys2Proof.Machine
end

section
/-! Measuring the pilot and the proximity contact. -/

namespace Sys2Proof.Machine

open Sys2Proof

/-- The pilot's registers without S2, the response and the diode check. -/
def pltAct (p : Plt) : Plt := { p with s2 := false, diode := false, rspRun := false, cause := 0, lowRun := 0 }

theorem tryS2_act (s : State) : pltAct (tryS2 s).plt = pltAct s.plt := by
  unfold tryS2
  split
  · rw [raiseG_plt]; rfl
  · rfl

theorem openS2_act (s : State) : pltAct (openS2 s).plt = pltAct s.plt := by
  unfold openS2
  split
  · rw [raiseG_plt]; rfl
  · rfl

theorem pilotCause_act (b : Nat) (s : State) : pltAct (pilotCause b s).plt = pltAct s.plt := by
  unfold pilotCause
  split
  · rfl
  · dsimp only
    split
    · rfl
    · rw [raiseG_plt]; rfl

theorem causeIf_act (c : Bool) (b : Nat) (s : State) : pltAct (causeIf c b s).plt = pltAct s.plt := by
  unfold causeIf
  split
  · exact pilotCause_act b s
  · rfl

theorem diodeCheck_act (lo : Int) (s : State) : pltAct (diodeCheck lo s).plt = pltAct s.plt := by
  unfold diodeCheck
  split
  · rfl
  · dsimp only
    generalize (if lowOk lo then 0 else s.plt.lowRun + 1) = n
    split
    · rw [raiseG_plt]; rfl
    · rfl

theorem setOsc_act (on : Bool) (s : State) : pltAct (setOsc on s).plt = pltAct { s.plt with osc := on } := by
  unfold setOsc
  split
  · rename_i h
    rw [← h]
  · dsimp only
    split
    · rw [raiseG_plt]; rfl
    · rw [pilotCause_act, raiseG_plt]; rfl

theorem setCurr_act (c : Nat) (s : State) : pltAct (setCurr c s).plt = pltAct { s.plt with curr := BitVec.ofNat 16 c } := by
  unfold setCurr
  dsimp only
  split
  · rename_i h
    rw [h, BitVec.ofNat_toNat, BitVec.setWidth_eq]
  · rw [causeIf_act, raiseIf_plt]; rfl

/-- A class after it has joined its run. -/
def classed (c : Nat) (p : Plt) : Plt :=
  let n := if p.cls = c then p.run + 1 else 1
  { p with cls := c, run := min 4 n, seen := min 4 (p.seen + 1), state := if n < 4 ∨ c = p.state then p.state else c }

theorem pilotClassify_act (c : Nat) (s : State) : pltAct (pilotClassify c s).plt = pltAct (classed c s.plt) := by
  unfold pilotClassify classed
  dsimp only
  generalize (if s.plt.cls = c then s.plt.run + 1 else 1) = n
  split
  · rename_i h
    rw [if_pos (show n < 4 ∨ c = s.plt.state from h)]
    rfl
  · rename_i h
    rw [if_neg (show ¬ (n < 4 ∨ c = s.plt.state) from h), tryS2_act, causeIf_act, raiseIf_plt, raiseG_plt]
    rfl

/-- The values that a period publishes. -/
def published (p : Plt) : Plt :=
  if p.hist.length < 4 then (if p.osc then p else { p with freqerr := false, curr := BitVec.ofNat 16 0xFFFF })
  else
    let nat := fun (f : Int × Int × Nat × Nat → Nat) => p.hist.foldl (fun a x => a + f x) 0 / 4
    let duty := nat (fun x => x.2.2.1)
    let freq := nat (fun x => x.2.2.2)
    let bad := p.osc && decide (freq < 9800 ∨ 10200 < freq)
    { p with duty := BitVec.ofNat 16 duty, freq := BitVec.ofNat 16 (min 0xFFFF freq), freqerr := bad,
             cphi := word16 (meanInt (p.hist.map (·.1))), cplo := word16 (meanInt (p.hist.map (·.2.1))),
             curr := BitVec.ofNat 16 (if bad || !p.osc then 0xFFFF else pcurrOf duty) }

theorem publishPilot_act (s : State) : pltAct (publishPilot s).plt = pltAct (published s.plt) := by
  unfold publishPilot published
  dsimp only
  split
  · split
    · rfl
    · rw [setCurr_act]; rfl
  · rw [setCurr_act, raiseIf_plt]
    rfl

/-! A period. -/

/-- The state after a period has been measured and published. -/
def periodRead (hi lo : Int) (duty freq : Nat) (s : State) : State :=
  let s := setOsc (decide (5000 ≤ freq ∧ freq ≤ 20000)) (latchDuty (arm (ms 2) .pwmoff s))
  publishPilot (setPlt (fun p => { p with hist := (p.hist ++ [(hi, lo, duty, freq)]).drop (p.hist.length - 3) }) s)

theorem exec_pilotPeriod {s : State} (on : pilotOn s = true) (hi lo : Int) (duty freq : Nat) : exec (.pilotPeriod hi lo duty freq) s =
    .next (let u := periodRead hi lo duty freq s
      let v := if decide (5000 ≤ freq ∧ freq ≤ 20000) then diodeCheck lo u else u
      tryS2 (pilotClassify (pilotClass v (decide (5000 ≤ freq ∧ freq ≤ 20000)) hi lo) v)) :=
  congrArg Host.Outcome.next (if_neg (by rw [on]; decide))

/-- What a period writes but for the class, S2, the response and the diode check. -/
def periodPlt (hi lo : Int) (duty freq : Nat) (s : State) : Plt :=
  published { s.plt with gduty := pdutyset s, osc := decide (5000 ≤ freq ∧ freq ≤ 20000), hist := (s.plt.hist ++ [(hi, lo, duty, freq)]).drop (s.plt.hist.length - 3) }

theorem published_act (p : Plt) : pltAct (published (pltAct p)) = pltAct (published p) := by
  unfold published
  by_cases h : p.hist.length < 4
  · rw [if_pos h, if_pos (show (pltAct p).hist.length < 4 from h)]
    by_cases o : p.osc = true
    · rw [if_pos o, if_pos (show (pltAct p).osc = true from o)]
      rfl
    · rw [if_neg o, if_neg (show ¬ (pltAct p).osc = true from o)]
      rfl
  · rw [if_neg h, if_neg (show ¬ (pltAct p).hist.length < 4 from h)]
    rfl

theorem published_congr {p q : Plt} (h : pltAct p = pltAct q) : pltAct (published p) = pltAct (published q) := by
  rw [← published_act p, h, published_act]

theorem setOsc_rises (on : Bool) {s : State} (a : anvilOn s = true) (h : s.plt.osc ≠ on) : isPend (setOsc on s) (if on then 769 else 770) = true := by
  unfold setOsc
  rw [if_neg h]
  dsimp only
  cases on
  · have p := isPend_raiseG_self (s := setPlt (fun p => { p with osc := false }) s) a 48 2
    exact (pilotCause_leaves 1 _ (.refl _ _)).pend p
  · exact isPend_raiseG_self (s := setPlt (fun p => { p with osc := true }) s) a 48 1

theorem periodRead_spec (hi lo : Int) (duty freq : Nat) {s : State} (a : anvilOn s = true) :
    pltAct (periodRead hi lo duty freq s).plt = pltAct (periodPlt hi lo duty freq s) ∧
    Leaves [.clk, .plt] s (periodRead hi lo duty freq s) ∧ Armed 4000 .pwmoff s (periodRead hi lo duty freq s) ∧
    (s.plt.osc ≠ decide (5000 ≤ freq ∧ freq ≤ 20000) → isPend (periodRead hi lo duty freq s) (if decide (5000 ≤ freq ∧ freq ≤ 20000) then 769 else 770) = true) := by
  unfold periodRead periodPlt
  generalize decide (5000 ≤ freq ∧ freq ≤ 20000) = pwm
  obtain ⟨u, hu⟩ : ∃ u, u = latchDuty (arm (ms 2) .pwmoff s) := ⟨_, rfl⟩
  have pu : u.plt = { s.plt with gduty := pdutyset s } := by rw [hu]; rfl
  have lu : Leaves [.clk, .plt] s u := by
    rw [hu]
    exact ((Leaves.refl [.clk, .plt] s).then (arm_leaves _ _ s (.refl _ _)) (by decide)).then (latchDuty_leaves _ (.refl _ _)) (by decide)
  have tu : Armed 4000 .pwmoff s u := by rw [hu]; exact arm_arms (ms 2) .pwmoff s
  rw [← hu]
  clear hu
  have po := setOsc_act pwm u
  have lo' := setOsc_leaves pwm u (.refl _ _)
  have tm := setOsc_timed (e := .pwmoff) (by decide) rfl pwm u
  have ro : u.plt.osc ≠ pwm → isPend (setOsc pwm u) (if pwm then 769 else 770) = true := setOsc_rises pwm (lu.powered.anvil_st lu.st a)
  dsimp only
  generalize setOsc pwm u = v at po lo' tm ro
  obtain ⟨w, hw⟩ : ∃ w, w = setPlt (fun p => { p with hist := (p.hist ++ [(hi, lo, duty, freq)]).drop (p.hist.length - 3) }) v := ⟨_, rfl⟩
  have hv : v.plt.hist = s.plt.hist := (congrArg (·.hist) po :).trans (by rw [pu]; rfl)
  have pw : pltAct w.plt = pltAct { s.plt with gduty := pdutyset s, osc := pwm, hist := (s.plt.hist ++ [(hi, lo, duty, freq)]).drop (s.plt.hist.length - 3) } := by
    rw [hw, ← hv]
    rw [pu] at po
    exact congrArg (fun q : Plt => { q with hist := (v.plt.hist ++ [(hi, lo, duty, freq)]).drop (v.plt.hist.length - 3) }) po
  have lw : Leaves [.clk, .plt] v w := by rw [hw]; exact .set (.refl _ _) (by simp [only_iff, setPlt])
  have tw : Timed .pwmoff v w := by rw [hw]; exact .of_eq rfl
  rw [← hw]
  clear hw
  have lp := publishPilot_leaves w (.refl _ _)
  have tp := publishPilot_timed (e := .pwmoff) (by decide) rfl w
  refine ⟨(publishPilot_act w).trans (published_congr pw), ((lu.then lo' (by decide)).then lw (by decide)).then lp (by decide),
    (tp _).mpr ((tw _).mpr ((tm _).mpr tu)), fun h => (lw.then lp (by decide)).pend (ro ?_)⟩
  rw [pu]
  exact h

/-- The rest of a period: the diode check, the class and S2. -/
def periodEnd (hi lo : Int) (pwm : Bool) (s : State) : State :=
  let v := if pwm then diodeCheck lo s else s
  tryS2 (pilotClassify (pilotClass v pwm hi lo) v)

theorem pilotClass_congr {s t : State} (h : pltAct t.plt = pltAct s.plt) (pwm : Bool) (hi lo : Int) : pilotClass t pwm hi lo = pilotClass s pwm hi lo := by
  have h1 : t.plt.state = s.plt.state := congrArg (·.state) h
  have h2 : t.plt.role = s.plt.role := congrArg (·.role) h
  have h3 : t.plt.pp = s.plt.pp := congrArg (·.pp) h
  unfold pilotClass
  rw [h1, h2, h3]

theorem classed_act (c : Nat) (p : Plt) : pltAct (classed c (pltAct p)) = pltAct (classed c p) := rfl

/-- The fourth class in a row is reported. -/
theorem classify_reports {c : Nat} {s : State} (a : anvilOn s = true) (h : s.plt.cls = c) (r : s.plt.run = 3) (n : c ≠ s.plt.state) :
    isPend (pilotClassify c s) 768 = true := by
  obtain ⟨u, hu⟩ : ∃ u : State, u = { s with plt := { s.plt with cls := c, run := 4, seen := min 4 (s.plt.seen + 1), state := c } } := ⟨_, rfl⟩
  have e : pilotClassify c s = tryS2 (causeIf (decide (6 ≤ c)) 2 (raiseIf (decide (c = 8)) (16 * 48 + 12) (raiseG 48 0 u))) := by
    rw [hu]
    unfold pilotClassify
    rw [if_pos h, r]
    refine (if_neg (show ¬ (4 < 4 ∨ c = s.plt.state) from ?_)).trans (Eq.refl _)
    rintro (h | h)
    · exact absurd h (by decide)
    · exact n h
  have au : anvilOn u = true := by rw [hu]; exact a
  have p := isPend_raiseG_self au 48 0
  rw [e]
  generalize raiseG 48 0 u = v at p
  have l : Leaves [.clk, .plt] v (tryS2 (causeIf (decide (6 ≤ c)) 2 (raiseIf (decide (c = 8)) (16 * 48 + 12) v))) :=
    (((Leaves.refl [.clk, .plt] v).then (raiseIf_leaves (l := []) _ _ _ (.refl _ _)) (by decide)).then (causeIf_leaves _ _ _ (.refl _ _)) (by decide)).then
      (tryS2_leaves _ (.refl _ _)) (by decide)
  exact l.pend p

theorem periodEnd_spec (hi lo : Int) (pwm : Bool) (s : State) : pltAct (periodEnd hi lo pwm s).plt = pltAct (classed (pilotClass s pwm hi lo) s.plt) ∧
    Leaves [.clk, .plt] s (periodEnd hi lo pwm s) ∧ Timed .pwmoff s (periodEnd hi lo pwm s) ∧
    (anvilOn s = true → s.plt.cls = pilotClass s pwm hi lo → s.plt.run = 3 → s.plt.cls ≠ s.plt.state → isPend (periodEnd hi lo pwm s) 768 = true) := by
  unfold periodEnd
  extract_lets v
  have pv : pltAct v.plt = pltAct s.plt := by
    unfold v
    split
    · exact diodeCheck_act lo s
    · rfl
  have lv : Leaves [.plt] s v := .ite (fun _ => diodeCheck_leaves lo s (.refl _ _)) fun _ => .refl _ s
  clear_value v
  rw [pilotClass_congr pv]
  generalize pilotClass s pwm hi lo = c
  have tl : Leaves [.plt] (pilotClassify c v) (tryS2 (pilotClassify c v)) := tryS2_leaves _ (.refl _ _)
  refine ⟨?_, ?_, ?_, fun a h r n => tl.pend (classify_reports (lv.powered.anvil_st lv.st a) ?_ ?_ ?_)⟩
  · rw [tryS2_act, pilotClassify_act, ← classed_act, pv, classed_act]
  · exact ((Leaves.then (.refl [.clk, .plt] s) lv (by decide)).then (pilotClassify_leaves c v (.refl _ _)) (by decide)).then tl (by decide)
  · exact ((lv.timed _).trans (pilotClassify_timed (by decide) rfl c v)).trans (tl.timed _)
  · exact (congrArg (·.cls) pv :).trans h
  · exact (congrArg (·.run) pv :).trans r
  · have st : v.plt.state = s.plt.state := congrArg (·.state) pv
    rw [st, ← h]
    exact n

/-- What publishing leaves. -/
theorem published_kept (p : Plt) : (published p).state = p.state ∧ (published p).role = p.role ∧ (published p).pp = p.pp ∧ (published p).osc = p.osc ∧
    (published p).hist = p.hist ∧ (published p).cls = p.cls ∧ (published p).run = p.run := by
  unfold published
  split
  · split <;> exact ⟨rfl, rfl, rfl, rfl, rfl, rfl, rfl⟩
  · exact ⟨rfl, rfl, rfl, rfl, rfl, rfl, rfl⟩

/-- Without PWM no current is offered. -/
theorem published_noPwm {p : Plt} (h : p.osc = false) : (published p).curr = 0xFFFF ∧ (published p).freqerr = false := by
  unfold published
  rw [h]
  split <;> exact ⟨rfl, rfl⟩

/-- A period: its values and its class. -/
theorem pilotPeriod_spec {s : State} (a : anvilOn s = true) (on : pilotOn s = true) (hi lo : Int) (duty freq : Nat) :
    Ends (.pilotPeriod hi lo duty freq) s (fun t =>
      pltAct t.plt = pltAct (classed (pilotClass s (decide (5000 ≤ freq ∧ freq ≤ 20000)) hi lo) (periodPlt hi lo duty freq s)) ∧
      Armed 4000 .pwmoff s t ∧ Only ([.plt] ++ raiseParts) s t ∧
      (s.plt.osc ≠ decide (5000 ≤ freq ∧ freq ≤ 20000) → isPend t (if decide (5000 ≤ freq ∧ freq ≤ 20000) then 769 else 770) = true) ∧
      (s.plt.cls = pilotClass s (decide (5000 ≤ freq ∧ freq ≤ 20000)) hi lo → s.plt.run = 3 → s.plt.cls ≠ s.plt.state → isPend t 768 = true)) := by
  have e : exec (.pilotPeriod hi lo duty freq) s = .next (periodEnd hi lo (decide (5000 ≤ freq ∧ freq ≤ 20000)) (periodRead hi lo duty freq s)) :=
    exec_pilotPeriod on hi lo duty freq
  refine .of_eq e ?_
  obtain ⟨pu, lu, au, ru⟩ := periodRead_spec hi lo duty freq a
  have cu : pilotClass (periodRead hi lo duty freq s) (decide (5000 ≤ freq ∧ freq ≤ 20000)) hi lo =
      pilotClass s (decide (5000 ≤ freq ∧ freq ≤ 20000)) hi lo := by
    obtain ⟨q1, q2, q3, -⟩ := published_kept { s.plt with gduty := pdutyset s, osc := decide (5000 ≤ freq ∧ freq ≤ 20000), hist := (s.plt.hist ++ [(hi, lo, duty, freq)]).drop (s.plt.hist.length - 3) }
    have h1 : (periodRead hi lo duty freq s).plt.state = s.plt.state := (congrArg (·.state) pu :).trans q1
    have h2 : (periodRead hi lo duty freq s).plt.role = s.plt.role := (congrArg (·.role) pu :).trans q2
    have h3 : (periodRead hi lo duty freq s).plt.pp = s.plt.pp := (congrArg (·.pp) pu :).trans q3
    unfold pilotClass
    rw [h1, h2, h3]
  obtain ⟨q1, -, -, -, -, q6, q7⟩ := published_kept { s.plt with gduty := pdutyset s, osc := decide (5000 ≤ freq ∧ freq ≤ 20000), hist := (s.plt.hist ++ [(hi, lo, duty, freq)]).drop (s.plt.hist.length - 3) }
  have h1 : (periodRead hi lo duty freq s).plt.state = s.plt.state := (congrArg (·.state) pu :).trans q1
  have h6 : (periodRead hi lo duty freq s).plt.cls = s.plt.cls := (congrArg (·.cls) pu :).trans q6
  have h7 : (periodRead hi lo duty freq s).plt.run = s.plt.run := (congrArg (·.run) pu :).trans q7
  generalize periodRead hi lo duty freq s = u at pu lu au ru cu h1 h6 h7
  obtain ⟨pt, lt, tt, rt⟩ := periodEnd_spec hi lo (decide (5000 ≤ freq ∧ freq ≤ 20000)) u
  rw [cu, h1, h6, h7] at rt
  refine ⟨?_, (tt _).mpr au, (lu.then lt (by decide)).only.weaken (by decide), fun h => lt.pend (ru h), rt (lu.powered.anvil_st lu.st a)⟩
  rw [pt, cu, ← classed_act, pu, classed_act]

/-- Four periods alike. -/
theorem published_alike (hi lo : Int) (duty freq : Nat) {p : Plt} (h : p.hist = [(hi, lo, duty, freq), (hi, lo, duty, freq), (hi, lo, duty, freq), (hi, lo, duty, freq)])
    (o : p.osc = true) (f1 : 9800 ≤ freq) (f2 : freq ≤ 10200) : (published p).duty = BitVec.ofNat 16 duty ∧ (published p).freq = BitVec.ofNat 16 freq ∧
    (published p).freqerr = false ∧ (published p).curr = BitVec.ofNat 16 (pcurrOf duty) ∧ (published p).cphi = word16 hi ∧ (published p).cplo = word16 lo := by
  have m (x : Int) : meanInt [x, x, x, x] = x := by
    show (0 + x + x + x + x) / (4 : Int) = x
    omega
  have d (n : Nat) : (0 + n + n + n + n) / 4 = n := by omega
  have fr : ¬ (freq < 9800 ∨ 10200 < freq) := by omega
  unfold published
  rw [h, if_neg (by simp), o]
  simp only [List.foldl_cons, List.foldl_nil, List.map_cons, List.map_nil, d, m, decide_eq_false fr, Bool.and_false, Bool.not_true, Bool.or_self,
    Bool.false_eq_true, if_false, true_and, and_true]
  rw [Nat.min_eq_right (by omega)]

/-! No crossing, and the DC level. -/

theorem noPwm_act (s : State) : pltAct (noPwm s).plt = pltAct { s.plt with
    osc := false, duty := 0xFFFF, freq := 0, freqerr := false, cplo := 0x8000, hist := [], curr := BitVec.ofNat 16 0xFFFF } := by
  unfold noPwm
  dsimp only
  rw [setCurr_act]
  exact congrArg (fun q : Plt => { q with duty := 0xFFFF, freq := 0, freqerr := false, cplo := 0x8000, hist := [], curr := BitVec.ofNat 16 0xFFFF }) (setOsc_act false s)

theorem pwmoff_ends {s : State} (a : anvilOn s = true) (on : pilotOn s = true) : Ends .pwmoff s (fun t =>
    t.plt.osc = false ∧ t.plt.duty = 0xFFFF ∧ t.plt.curr = 0xFFFF ∧
    t.plt.state = s.plt.state ∧ (s.plt.osc = true → isPend t 770 = true) ∧ Only ([.plt] ++ raiseParts) s t) := by
  have e : exec .pwmoff s = .next (noPwm (disarm .pwmoff s)) := congrArg Host.Outcome.next (if_pos on)
  refine .of_eq e ?_
  have l : Leaves [.clk, .plt] s (disarm .pwmoff s) := (Leaves.refl [.clk, .plt] s).then (disarm_leaves _ s (.refl _ _)) (by decide)
  have ro : s.plt.osc = true → isPend (setOsc false (disarm .pwmoff s)) 770 = true := fun h =>
    setOsc_rises false (s := disarm .pwmoff s) a (by rw [show (disarm .pwmoff s).plt.osc = true from h]; decide)
  have pe : (disarm .pwmoff s).plt = s.plt := rfl
  generalize disarm .pwmoff s = u at l ro pe
  have pn := noPwm_act u
  rw [pe] at pn
  have ln : Leaves [.clk, .plt] (setOsc false u) (noPwm u) := by
    unfold noPwm
    generalize setOsc false u = v
    exact (Leaves.set (.refl [.clk, .plt] v) (by simp [only_iff, setPlt])).then (setCurr_leaves _ _ (.refl _ _)) (by decide)
  exact ⟨congrArg (·.osc) pn, congrArg (·.duty) pn, congrArg (·.curr) pn, congrArg (·.state) pn, fun h => ln.pend (ro h),
    (l.then (noPwm_leaves u (.refl _ _)) (by decide)).only.weaken (by decide)⟩

/-- A window of the DC level, up to the class. -/
def dcRead (mv : Int) (s : State) : State := { s with plt := { s.plt with gduty := pdutyset s, cphi := word16 mv, cplo := 0x8000 } }

theorem exec_pilotDcWindow {s : State} (on : pilotOn s = true) (w : waiting .pwmoff s = false) (mv : Int) : exec (.pilotDcWindow mv) s =
    .next (pilotClassify (pilotClass s false mv 0) (dcRead mv s)) :=
  congrArg Host.Outcome.next (if_neg (by rw [on, w]; decide))

theorem pilotClassify_same {c : Nat} {s : State} (h : c = s.plt.state) : pilotClassify c s =
    { s with plt := { s.plt with cls := c, run := min 4 (if s.plt.cls = c then s.plt.run + 1 else 1), seen := min 4 (s.plt.seen + 1) } } := by
  unfold pilotClassify
  dsimp only
  generalize (if s.plt.cls = c then s.plt.run + 1 else 1) = n
  exact if_pos (.inr h)

theorem pilotClass_invalid {s : State} {mv : Int} (h : 13500 < mv) : pilotClass s false mv 0 = 8 := by
  have b : pilotBand s.plt.state mv = 8 := if_pos h
  unfold pilotClass
  rw [b]
  rfl

/-- A cause of R272 that starts the response. -/
theorem pilotCause_starts (b : Nat) {s : State} (a : anvilOn s = true) (ro : s.plt.role = 0) (rs : s.plt.rspRun = false) (s2 : s.plt.s2 = true)
    (so : s.plt.soft = false) (ha : s.plt.hard = false) : (pilotCause b s).plt = { s.plt with cause := setBit s.plt.cause b true, rspRun := true } ∧
    isPend (pilotCause b s) 775 = true ∧ Armed (ms (100 * (lv s (key 0x40 1)).toNat)) .rspsoft s (pilotCause b s) := by
  have e : pilotCause b s = raiseG 48 7 (arm (ms (100 * (lv s (key 0x40 1)).toNat)) .rspsoft
      (setPlt (fun p => { p with cause := setBit p.cause b true, rspRun := true }) s)) := by
    unfold pilotCause
    rw [ro, rs, s2, so, ha]
    exact Eq.refl _
  rw [e]
  have ar : Armed (ms (100 * (lv s (key 0x40 1)).toNat)) .rspsoft s (arm (ms (100 * (lv s (key 0x40 1)).toNat)) .rspsoft
      (setPlt (fun p => { p with cause := setBit p.cause b true, rspRun := true }) s)) := arm_arms _ _ (setPlt _ s)
  have pe : (arm (ms (100 * (lv s (key 0x40 1)).toNat)) .rspsoft
      (setPlt (fun p => { p with cause := setBit p.cause b true, rspRun := true }) s)).plt = { s.plt with cause := setBit s.plt.cause b true, rspRun := true } := rfl
  have au : anvilOn (arm (ms (100 * (lv s (key 0x40 1)).toNat)) .rspsoft
      (setPlt (fun p => { p with cause := setBit p.cause b true, rspRun := true }) s)) = true := a
  generalize arm _ .rspsoft _ = u at ar pe au
  exact ⟨(raiseG_plt ..).trans pe, isPend_raiseG_self au 48 7, (raiseG_timed (e := .rspsoft) rfl 48 7 u _).mpr ar⟩

/-- The fourth INVALID class. -/
theorem classify_invalid {s : State} (a : anvilOn s = true) (c : s.plt.cls = 8)
    (r : s.plt.run = 3) (st : s.plt.state ≠ 8) (s2 : s.plt.s2 = true) (ro : s.plt.role = 0) (so : s.plt.soft = false) (ha : s.plt.hard = false)
    (rs : s.plt.rspRun = false) : (pilotClassify 8 s).plt.state = 8 ∧
      (pilotClassify 8 s).plt.rspRun = true ∧ (pilotClassify 8 s).plt.cause.getLsbD 2 = true ∧ isPend (pilotClassify 8 s) 768 = true ∧
      isPend (pilotClassify 8 s) 780 = true ∧ isPend (pilotClassify 8 s) 775 = true ∧
      Armed (ms (100 * (lv s (key 0x40 1)).toNat)) .rspsoft s (pilotClassify 8 s) := by
  obtain ⟨u, hu⟩ : ∃ u : State, u = { s with plt := { s.plt with cls := 8, run := 4, seen := min 4 (s.plt.seen + 1), state := 8 } } := ⟨_, rfl⟩
  have e : pilotClassify 8 s = tryS2 (pilotCause 2 (raise (16 * 48 + 12) (raiseG 48 0 u))) := by
    rw [hu]
    unfold pilotClassify
    rw [c, r]
    refine (if_neg (show ¬ (4 < 4 ∨ 8 = s.plt.state) from ?_)).trans (Eq.refl _)
    rintro (h | h)
    · exact absurd h (by decide)
    · exact st h.symm
  have pu : u.plt = { s.plt with cls := 8, run := 4, seen := min 4 (s.plt.seen + 1), state := 8 } := by rw [hu]
  have au : anvilOn u = true := by rw [hu]; exact a
  have nu : u.clk.now = s.clk.now ∧ u.regs = s.regs := by rw [hu]; exact ⟨rfl, rfl⟩
  clear hu
  have p1 := isPend_raiseG_self au 48 0
  have l1 : Leaves [] u (raiseG 48 0 u) := raiseG_leaves _ _ _ (.refl _ _)
  generalize raiseG 48 0 u = v at p1 l1 e
  have l2 : Leaves [] v (raise (16 * 48 + 12) v) := raise_leaves _ _ (.refl _ _)
  have p2 : isPend (raise (16 * 48 + 12) v) (16 * 48 + 12) = true := isPend_raiseG_self (l1.powered.anvil_st l1.st au) 48 12
  have p1' := l2.pend p1
  have lw : Leaves [] u (raise (16 * 48 + 12) v) := l1.then l2 (by decide)
  generalize raise (16 * 48 + 12) v = w at p2 p1' lw e
  have pw : w.plt = u.plt := lw.same .plt (by decide)
  have rw' : w.regs = u.regs := lw.same .regs (by decide)
  obtain ⟨pc, pp, ar⟩ := pilotCause_starts 2 (lw.powered.anvil_st lw.st au) (by rw [pw, pu]; exact ro) (by rw [pw, pu]; exact rs)
    (by rw [pw, pu]; exact s2) (by rw [pw, pu]; exact so) (by rw [pw, pu]; exact ha)
  have lc : Leaves [.clk, .plt] w (pilotCause 2 w) := pilotCause_leaves 2 w (.refl _ _)
  have q1 := lc.pend p1'
  have q2 := lc.pend p2
  have lvw : lv w = lv s := lv_congr (rw'.trans nu.2)
  have nw : w.clk.now = s.clk.now := lw.now.trans nu.1
  rw [e]
  generalize pilotCause 2 w = x at pc pp ar q1 q2
  have xs : x.plt.s2 = true := by rw [pc, pw, pu]; exact s2
  have te : tryS2 x = x := by
    unfold tryS2
    rw [xs]
    rfl
  rw [te]
  refine ⟨?_, ?_, ?_, q1, q2, pp, ?_⟩
  · rw [pc, pw, pu]
  · rw [pc]
  · rw [pc]
    exact getLsbD_setBit_self (by decide) _ _
  · unfold Armed at ar ⊢
    rw [lvw, nw] at ar
    exact ar

/-! Proximity. -/

theorem exec_ppConversion {s : State} (on : pilotOn s = true) (mv : Nat) : exec (.ppConversion mv) s =
    .next (let c := ppClassOf (ppstd s) mv
      let n := if s.plt.ppCls = c then s.plt.ppRun + 1 else 1
      let u : State := { s with plt := { s.plt with ppCls := c, ppRun := min 4 n, ppres := ppresOf mv } }
      if n < 4 ∨ c = s.plt.pp then u else setPp c u) :=
  congrArg Host.Outcome.next (if_neg (by rw [on]; decide))

theorem ppConversion_holds {s : State} {mv : Nat} (on : pilotOn s = true)
    (h : ppClassOf (ppstd s) mv = s.plt.pp ∨ ppClassOf (ppstd s) mv ≠ s.plt.ppCls ∨ s.plt.ppRun < 3) : exec (.ppConversion mv) s = .next { s with plt := { s.plt with
      ppCls := ppClassOf (ppstd s) mv,
      ppRun := min 4 (if s.plt.ppCls = ppClassOf (ppstd s) mv then s.plt.ppRun + 1 else 1),
      ppres := ppresOf mv } } := by
  rw [exec_ppConversion on]
  refine congrArg Host.Outcome.next (if_pos ?_)
  rcases h with h | h | h
  · exact .inr h
  · left
    rw [if_neg (Ne.symm h)]
    decide
  · left
    split <;> omega

/-- What follows the report of a proximity class. -/
def ppActs (c : Nat) (s : State) : State :=
  let s := raiseIf (decide (c = 5 ∨ c = 6)) (16 * 49 + 1) s
  let s := causeIf (decide (c = 5 ∨ c = 6) || (decide (c = 2) && ppstd s)) 3 s
  if c = 0 then openS2 s else tryS2 s

theorem setPp_eq (c : Nat) (s : State) : setPp c s = ppActs c (raiseG 49 0 (setPlt (fun p => { p with pp := c }) s)) := rfl

theorem ppActs_spec (c : Nat) (s : State) : pltAct (ppActs c s).plt = pltAct s.plt ∧ Leaves [.clk, .plt] s (ppActs c s) ∧
    (c = 0 → (ppActs c s).plt.s2 = false) := by
  unfold ppActs
  extract_lets u v
  have pv : pltAct v.plt = pltAct s.plt := (causeIf_act ..).trans (congrArg pltAct (raiseIf_plt ..))
  have lv : Leaves [.clk, .plt] s v :=
    ((Leaves.refl [.clk, .plt] s).then (raiseIf_leaves (l := []) _ _ _ (.refl _ _)) (by decide)).then (causeIf_leaves _ _ _ (.refl _ _)) (by decide)
  clear_value v
  split
  · exact ⟨(openS2_act v).trans pv, lv.then (openS2_leaves v (.refl _ _)) (by decide), fun _ => openS2_opened v⟩
  · rename_i h
    exact ⟨(tryS2_act v).trans pv, lv.then (tryS2_leaves v (.refl _ _)) (by decide), fun k => absurd k h⟩

theorem ppConversion_reports {s : State} {mv : Nat} (a : anvilOn s = true) (on : pilotOn s = true) (c : ppClassOf (ppstd s) mv = s.plt.ppCls)
    (n : s.plt.ppCls ≠ s.plt.pp) (r : 3 ≤ s.plt.ppRun) : Ends (.ppConversion mv) s (fun t =>
      t.plt.pp = s.plt.ppCls ∧ isPend t 784 = true ∧ (s.plt.ppCls = 0 → t.plt.s2 = false) ∧ Only ([.plt] ++ raiseParts) s t) := by
  obtain ⟨u, hu⟩ : ∃ u : State, u = { s with plt := { s.plt with ppRun := min 4 (s.plt.ppRun + 1), ppres := ppresOf mv } } := ⟨_, rfl⟩
  have e : exec (.ppConversion mv) s = .next (setPp s.plt.ppCls u) := by
    rw [exec_ppConversion on, c, hu]
    refine congrArg Host.Outcome.next ?_
    dsimp only
    rw [if_pos rfl, if_neg (by omega)]
  have lu : Leaves [.plt] s u := by rw [hu]; exact .set (.refl _ _) (by simp [only_iff])
  have pu : u.plt.ppCls = s.plt.ppCls := by rw [hu]
  clear hu
  refine .of_eq e ?_
  generalize hk : s.plt.ppCls = k
  have au := lu.powered.anvil_st lu.st a
  have p1 := isPend_raiseG_self (s := setPlt (fun p => { p with pp := k }) u) au 49 0
  have e1 : (raiseG 49 0 (setPlt (fun p => { p with pp := k }) u)).plt.pp = k := by rw [raiseG_plt]; rfl
  have lr : Leaves [.clk, .plt] s (raiseG 49 0 (setPlt (fun p => { p with pp := k }) u)) :=
    ((Leaves.then (.refl [.clk, .plt] s) lu (by decide)).then (setPlt_leaves _ u (.refl _ _)) (by decide)).then (raiseG_leaves (l := []) _ _ _ (.refl _ _)) (by decide)
  rw [setPp_eq]
  generalize raiseG 49 0 (setPlt (fun p => { p with pp := k }) u) = v at p1 e1 lr
  obtain ⟨pv, lv, ov⟩ := ppActs_spec k v
  exact ⟨(congrArg (·.pp) pv :).trans e1, lv.pend p1, ov, (lr.then lv (by decide)).only.weaken (by decide)⟩

/-! The monitor in SLEEP. -/

/-- What a window in SLEEP counts. -/
def monitored (cp : Int) (pp : Nat) (s : State) : State := { s with plt := { s.plt with
  monCp := if 4500 ≤ cp then min 2 (s.plt.monCp + 1) else 0, monPp := if pp < 4500 then min 2 (s.plt.monPp + 1) else 0,
  monSeen := s.plt.monSeen || decide (4500 ≤ pp) } }

theorem exec_sleepMonitor {s : State} (on : vaonOn s = true) (st : s.glob.st = .sleep) (en : (lv s (key 0x40 0)).getLsbD 2 = true) (cp : Int) (pp : Nat) :
    exec (.sleepMonitor cp pp) s = .next (let u := monitored cp pp s
      let u := raiseIf (decide (u.plt.monCp = 2) && (lv u (key 0x40 0)).getLsbD 3) 788 u
      wakeCheck (raiseIf (decide ((monitored cp pp s).plt.monPp = 2) && u.plt.monSeen && (lv u (key 0x40 0)).getLsbD 4) 789 u)) :=
  congrArg Host.Outcome.next (if_neg (by rw [on, st, en]; decide))

theorem sleepMonitor_counts {s : State} (on : vaonOn s = true) (st : s.glob.st = .sleep) (en : (lv s (key 0x40 0)).getLsbD 2 = true) (w : wakeDue s = false)
    {cp : Int} {pp : Nat} (n : (monitored cp pp s).plt.monCp ≠ 2) (hp : 4500 ≤ pp) : exec (.sleepMonitor cp pp) s = .next (monitored cp pp s) := by
  have np : (monitored cp pp s).plt.monPp = 0 := if_neg (by omega)
  have c : wakeCheck (monitored cp pp s) = monitored cp pp s := if_pos (by rw [show wakeDue (monitored cp pp s) = wakeDue s from rfl, w]; rfl)
  rw [exec_sleepMonitor on st en]
  dsimp only
  rw [np, decide_eq_false n]
  exact congrArg Host.Outcome.next c

theorem wakeCheck_boots {s : State} (st : s.glob.st = .sleep) (w : wakeDue s = true) : Booting (wakeCheck s) := by
  unfold wakeCheck
  rw [if_neg (by rw [w]; decide), if_neg (by rw [st]; exact fun h => absurd h.1 (by decide)), if_pos st]
  exact (bootStart_spec ..).1

theorem wakeEn_congr {s t : State} (h : t.regs = s.regs) (k : Nat) : wakeEn t k = wakeEn s k := by
  unfold wakeEn pl lv
  rw [h]

theorem wakeDue_of {s : State} {j : Nat} (hj : j < 64) (w : s.pwr.wl.getLsbD j = true) (e : wakeEn s j = true) : wakeDue s = true :=
  List.any_eq_true.mpr ⟨j, List.mem_range.mpr hj, by rw [w, e]; rfl⟩

/-- In SLEEP a raise of a source that wakes sets its latch. -/
theorem raise_asleep {s : State} {k j : Nat} (on : vaonOn s = true) (st : s.glob.st = .sleep) (h : latchOf k = some j) (hj : j < 8) :
    raise k s = { s with pwr := { s.pwr with wl := s.pwr.wl ||| BitVec.twoPow 64 j, wlAt := mput 0 s.pwr.wlAt j (aonEdge s) } } := by
  have na : anvilOn s = false := by
    by_contra h
    exact (anvilOn_state (by simpa using h)).1 st
  unfold raise
  rw [na, on, if_neg (by decide), if_pos rfl, h]
  dsimp only
  rw [if_pos hj, setLatch, h]

theorem sleepMonitor_wakes {s : State} (on : vaonOn s = true) (st : s.glob.st = .sleep) (en : (lv s (key 0x40 0)).getLsbD 2 = true)
    (e3 : (lv s (key 0x40 0)).getLsbD 3 = true) {cp : Int} (pp : Nat) (n : 1 ≤ s.plt.monCp) (hc : 4500 ≤ cp) (w : wakeEn s 5 = true) :
    Ends (.sleepMonitor cp pp) s Booting := by
  refine .of_eq (exec_sleepMonitor on st en cp pp) ?_
  have nc : (monitored cp pp s).plt.monCp = 2 := by
    show (if 4500 ≤ cp then min 2 (s.plt.monCp + 1) else 0) = 2
    rw [if_pos hc]
    omega
  have e3' : (lv (monitored cp pp s) (key 0x40 0)).getLsbD 3 = true := e3
  have hr : raiseIf (decide ((monitored cp pp s).plt.monCp = 2) && (lv (monitored cp pp s) (key 0x40 0)).getLsbD 3) 788 (monitored cp pp s) =
      { monitored cp pp s with pwr := { s.pwr with wl := s.pwr.wl ||| BitVec.twoPow 64 5, wlAt := mput 0 s.pwr.wlAt 5 (aonEdge s) } } := by
    rw [nc, e3']
    exact raise_asleep (s := monitored cp pp s) on st (show latchOf 788 = some 5 from rfl) (by decide)
  dsimp only
  rw [hr]
  obtain ⟨u, hu⟩ : ∃ u : State, u = { monitored cp pp s with pwr := { s.pwr with wl := s.pwr.wl ||| BitVec.twoPow 64 5, wlAt := mput 0 s.pwr.wlAt 5 (aonEdge s) } } := ⟨_, rfl⟩
  have u5 : u.pwr.wl.getLsbD 5 = true := by
    rw [hu]
    show (s.pwr.wl ||| BitVec.twoPow 64 5).getLsbD 5 = true
    simp
  have ue : wakeEn u 5 = true := by rw [hu]; exact w
  have us : u.glob.st = .sleep := by rw [hu]; exact st
  have uo : vaonOn u = true := by rw [hu]; exact on
  rw [← hu]
  generalize (decide ((monitored cp pp s).plt.monPp = 2) && u.plt.monSeen && (lv u (key 0x40 0)).getLsbD 4) = c
  cases c
  · exact wakeCheck_boots us (wakeDue_of (by decide) u5 ue)
  · rw [show raiseIf true 789 u = raise 789 u from rfl, raise_asleep uo us (show latchOf 789 = some 6 from rfl) (by decide)]
    refine wakeCheck_boots us (wakeDue_of (j := 5) (by decide) ?_ ue)
    show (u.pwr.wl ||| BitVec.twoPow 64 6).getLsbD 5 = true
    rw [BitVec.getLsbD_or, u5]
    rfl

/-- Settles O36. -/
theorem pilotMeasures : Obligations.PilotMeasures := by
  unfold Obligations.PilotMeasures
  refine ⟨fun s hi lo duty freq a on f1 f2 => ?_, fun s hi lo duty freq a on f1 f2 h => ?_, fun s hi lo duty freq a on f1 f2 c r n => ?_,
    fun s hi lo duty freq a on f => ?_, fun s a on => pwmoff_ends a on, fun s mv a on w c => ?_, fun s mv a on w h c r st s2 ro so ha rs => ?_,
    fun s mv on h => ppConversion_holds on h, fun s mv a on c n r => ppConversion_reports a on c n r, fun s cp pp on st en w hc hp => ?_,
    fun s cp pp on st en w n hc hp => ?_, fun s cp pp on st en e3 n hc w => sleepMonitor_wakes on st en e3 pp n hc w⟩
  · have f : decide (5000 ≤ freq ∧ freq ≤ 20000) = true := decide_eq_true ⟨f1, f2⟩
    obtain ⟨-, q2, -, q4, q5, -, -⟩ := published_kept { s.plt with gduty := pdutyset s, osc := decide (5000 ≤ freq ∧ freq ≤ 20000), hist := (s.plt.hist ++ [(hi, lo, duty, freq)]).drop (s.plt.hist.length - 3) }
    refine (pilotPeriod_spec a on hi lo duty freq).imp fun t ⟨p, ar, o, ri, _⟩ =>
      ⟨((congrArg (·.osc) p :).trans q4).trans f, (congrArg (·.hist) p :).trans q5, fun h => ?_, ar, (congrArg (·.role) p :).trans q2, o⟩
    rw [f] at ri
    exact ri (by rw [h]; decide)
  · have f : decide (5000 ≤ freq ∧ freq ≤ 20000) = true := decide_eq_true (by omega)
    obtain ⟨e1, e2, e3, e4, e5, e6⟩ := published_alike hi lo duty freq (p := { s.plt with gduty := pdutyset s, osc := decide (5000 ≤ freq ∧ freq ≤ 20000), hist := (s.plt.hist ++ [(hi, lo, duty, freq)]).drop (s.plt.hist.length - 3) })
      (by rw [h]; rfl) f f1 f2
    exact (pilotPeriod_spec a on hi lo duty freq).imp fun t ⟨p, _⟩ => ⟨(congrArg (·.duty) p :).trans e1, (congrArg (·.freq) p :).trans e2,
      (congrArg (·.freqerr) p :).trans e3, (congrArg (·.curr) p :).trans e4, (congrArg (·.cphi) p :).trans e5, (congrArg (·.cplo) p :).trans e6⟩
  · have f : decide (5000 ≤ freq ∧ freq ≤ 20000) = true := decide_eq_true ⟨f1, f2⟩
    obtain ⟨q1, -, -, -, -, q6, q7⟩ := published_kept { s.plt with gduty := pdutyset s, osc := decide (5000 ≤ freq ∧ freq ≤ 20000), hist := (s.plt.hist ++ [(hi, lo, duty, freq)]).drop (s.plt.hist.length - 3) }
    rw [← f] at c
    refine (pilotPeriod_spec a on hi lo duty freq).imp fun t ⟨p, _, _, _, ri⟩ => ⟨(congrArg (·.state) p :).trans ?_, ri c r n⟩
    have k6 : (periodPlt hi lo duty freq s).cls = s.plt.cls := q6
    have k7 : (periodPlt hi lo duty freq s).run = s.plt.run := q7
    have k1 : (periodPlt hi lo duty freq s).state = s.plt.state := q1
    show (if (if (periodPlt hi lo duty freq s).cls = _ then (periodPlt hi lo duty freq s).run + 1 else 1) < 4 ∨ _ = (periodPlt hi lo duty freq s).state then
      (periodPlt hi lo duty freq s).state else _) = _
    rw [← c, k6, k7, k1, if_pos rfl, r, if_neg]
    rintro (h | h)
    · exact absurd h (by decide)
    · exact n h
  · have f' : decide (5000 ≤ freq ∧ freq ≤ 20000) = false := decide_eq_false (by omega)
    obtain ⟨-, q2, -, q4, q5, -, -⟩ := published_kept { s.plt with gduty := pdutyset s, osc := decide (5000 ≤ freq ∧ freq ≤ 20000), hist := (s.plt.hist ++ [(hi, lo, duty, freq)]).drop (s.plt.hist.length - 3) }
    obtain ⟨c1, c2⟩ := published_noPwm (p := { s.plt with gduty := pdutyset s, osc := decide (5000 ≤ freq ∧ freq ≤ 20000), hist := (s.plt.hist ++ [(hi, lo, duty, freq)]).drop (s.plt.hist.length - 3) }) f'
    refine (pilotPeriod_spec a on hi lo duty freq).imp fun t ⟨p, ar, o, ri, _⟩ =>
      ⟨((congrArg (·.osc) p :).trans q4).trans f', (congrArg (·.hist) p :).trans q5, (congrArg (·.curr) p :).trans c1, (congrArg (·.freqerr) p :).trans c2,
        fun h => ?_, ar, (congrArg (·.role) p :).trans q2, o⟩
    rw [f'] at ri
    exact ri (by rw [h]; decide)
  · have e : pilotClassify (pilotClass s false mv 0) (dcRead mv s) = _ := pilotClassify_same (s := dcRead mv s) c
    exact Ends.of_eq ((exec_pilotDcWindow on w mv).trans (congrArg Host.Outcome.next e)) ⟨rfl, rfl, rfl, c, by simp [only_iff, dcRead]⟩
  · have e := exec_pilotDcWindow on w mv
    rw [pilotClass_invalid h] at e
    exact Ends.of_eq e (classify_invalid (s := dcRead mv s) a c r st s2 ro so ha rs)
  · have e : monitored cp pp s = { s with plt := { s.plt with monCp := 0, monPp := 0, monSeen := true } } := by
      unfold monitored
      rw [if_neg (by omega), if_neg (by omega), decide_eq_true hp, Bool.or_true]
    exact (sleepMonitor_counts on st en w (by rw [e]; exact (by decide : (0 : Nat) ≠ 2)) hp).trans (congrArg Host.Outcome.next e)
  · have e : monitored cp pp s = { s with plt := { s.plt with monCp := 1, monPp := 0, monSeen := true } } := by
      unfold monitored
      rw [if_pos hc, if_neg (by omega), decide_eq_true hp, Bool.or_true, n]
      rfl
    exact (sleepMonitor_counts on st en w (by rw [e]; exact (by decide : (1 : Nat) ≠ 2)) hp).trans (congrArg Host.Outcome.next e)

end Sys2Proof.Machine
end

section
/-! SUPPORT. The charger's phase, over its conditions (R284, R286). -/

namespace Sys2Proof

open Sys2Proof.Machine

/-- The charger without its phase and its safety timers. -/
def chgAside (c : Chg) : Chg := { c with phase := 0, tcount := 0, tfor := 0, tsince := 0, trate := 0 }

/-- The charger has taken the phase `p`, with PHASE where that is a change. -/
structure Phased (p : Nat) (s t : State) : Prop where
  phase : t.chg.phase = p
  aside : chgAside t.chg = chgAside s.chg
  leaves : Leaves [.clk, .chg] s t
  raised : anvilOn s = true → s.chg.phase ≠ p → isPend t 800 = true

theorem Phased.vcell {p : Nat} {s t : State} (h : Phased p s t) : t.chg.vcell = s.chg.vcell := (congrArg (·.vcell) h.aside :)
theorem Phased.kept {p : Nat} {s t : State} (h : Phased p s t) : t.chg.kept = s.chg.kept := (congrArg (·.kept) h.aside :)
theorem Phased.only {p : Nat} {s t : State} (h : Phased p s t) : Only ([.chg] ++ raiseParts) s t := h.leaves.only.weaken (by decide)

/-- What follows and leaves the charger and what is pending alone. -/
theorem Phased.then {p : Nat} {s t u : State} (h : Phased p s t) (g : Leaves [.clk] t u) : Phased p s u :=
  have c : u.chg = t.chg := g.same .chg (by decide)
  ⟨by rw [c]; exact h.phase, by rw [c]; exact h.aside, h.leaves.then g (by decide), fun a n => g.pend (h.raised a n)⟩

end Sys2Proof

namespace Sys2Proof.Machine

open Sys2Proof

theorem runTimer_chg (s : State) : (runTimer s).chg.phase = s.chg.phase ∧ chgAside (runTimer s).chg = chgAside s.chg := by
  unfold runTimer
  dsimp only
  split <;> exact ⟨rfl, rfl⟩

theorem setPhase_phased (p : Nat) (s : State) : Phased p s (setPhase p s) := by
  by_cases h : s.chg.phase = p
  · rw [show setPhase p s = s from if_pos h]
    exact ⟨h, rfl, .refl _ s, fun _ n => absurd h n⟩
  · obtain ⟨u, e, l, hp, ha⟩ : ∃ u, setPhase p s = raiseG 50 0 u ∧ Leaves [.clk, .chg] s u ∧ u.chg.phase = p ∧ chgAside u.chg = chgAside s.chg := by
      refine ⟨_, if_neg h, ?_, (runTimer_chg _).1, (runTimer_chg _).2⟩
      exact (Leaves.set (.refl [.clk, .chg] s) (by simp [only_iff, setChg])).then (runTimer_leaves _ (.refl _ _)) (by decide)
    have r : Leaves [] u (raiseG 50 0 u) := raiseG_leaves 50 0 u (.refl _ _)
    have c : (raiseG 50 0 u).chg = u.chg := raiseG_chg ..
    rw [e]
    exact ⟨by rw [c]; exact hp, by rw [c]; exact ha, l.then r (by decide), fun a _ => isPend_raiseG_self (l.powered.anvil_st l.st a) 50 0⟩

/-- The phase `p` is taken, and the watchdog follows. -/
theorem takePhase_phased (p : Nat) (s : State) : Phased p s (chgWatch (setPhase p s)) :=
  (setPhase_phased p s).then (chgWatch_leaves _ (.refl _ _))

/-! What settles the phase. -/

/-- It cannot run: off. -/
theorem chgSettle_off {s : State} (c : chgCell s ≠ 0) (p : s.chg.phase ≠ 7) (r : chgCanRun s = false) : Phased 0 s (chgSettle s) := by
  have e : chgSettle s = chgWatch (setPhase 0 s) := by
    unfold chgSettle
    dsimp only
    rw [if_neg c, if_neg p, r]
    rfl
  rw [e]
  exact takePhase_phased 0 s

/-- It can run, and chooses from the cell voltage. -/
theorem chgSettle_chooses {s : State} (c : chgCell s ≠ 0) (p : s.chg.phase = 0) (r : chgCanRun s = true) (n : chgSuspended s = false)
    (v : s.chg.vcell ≠ 0) : Phased (phaseOf s s.chg.vcell) s (chgSettle s) := by
  have e : chgSettle s = chgWatch (setPhase (phaseOf s s.chg.vcell) s) := by
    unfold chgSettle choosePhase
    dsimp only
    rw [if_neg c, if_neg (by omega), r, if_neg (by decide), n, if_neg (by decide), if_neg (by omega), if_pos (.inl p), if_pos v]
  rw [e]
  exact takePhase_phased _ s

/-- It is suspended, and keeps the phase that it had. -/
theorem chgSettle_suspends {s : State} (c : chgCell s ≠ 0) (r : chgCanRun s = true) (n : chgSuspended s = true) (p : 1 ≤ s.chg.phase)
    (q : s.chg.phase ≤ 5) : Phased 6 (setChg (fun c => { c with kept := s.chg.phase }) s) (chgSettle s) := by
  have e : chgSettle s = chgWatch (setPhase 6 (setChg (fun c => { c with kept := s.chg.phase }) s)) := by
    unfold chgSettle
    dsimp only
    rw [if_neg c, if_neg (by omega), r, if_neg (by decide), n, if_pos rfl, if_neg (by omega), if_pos ⟨p, q⟩]
  rw [e]
  exact takePhase_phased _ _

/-- It is no longer suspended, and takes the kept phase. -/
theorem chgSettle_resumes {s : State} (c : chgCell s ≠ 0) (p : s.chg.phase = 6) (r : chgCanRun s = true) (n : chgSuspended s = false) :
    Phased s.chg.kept s (chgSettle s) := by
  have e : chgSettle s = chgWatch (setPhase s.chg.kept s) := by
    unfold chgSettle
    dsimp only
    rw [if_neg c, if_neg (by omega), r, if_neg (by decide), n, if_neg (by decide), if_pos p]
  rw [e]
  exact takePhase_phased _ s

theorem phaseOf_pos (s : State) (v : Nat) : 1 ≤ phaseOf s v ∧ phaseOf s v ≤ 4 := by
  unfold phaseOf
  split_ifs <;> omega

/-! What the charger's settings depend on. -/

theorem chgByte_congr {s t : State} (r : t.regs = s.regs) (f : t.glob.floor = s.glob.floor) (d : t.chg.defaults = s.chg.defaults)
    (o : t.otp = s.otp) (n : Nat) : chgByte t n = chgByte s n := by
  unfold chgByte
  rw [lv_congr r, f, d, o]

theorem chgCell_congr {s t : State} (r : t.regs = s.regs) (f : t.glob.floor = s.glob.floor) (d : t.chg.defaults = s.chg.defaults)
    (o : t.otp = s.otp) : chgCell t = chgCell s := by
  unfold chgCell
  rw [chgByte_congr r f d o]

end Sys2Proof.Machine
end

section
/-! S2, the response to the outlet, roles and the generator; the phases of the charger. -/

namespace Sys2Proof

open Sys2Proof.Machine

theorem Timed.armed {e : Instr} {s t : State} (h : Timed e s t) : armed e t = armed e s := by
  rw [Bool.eq_iff_iff, armed_iff, armed_iff]
  constructor
  · rintro ⟨⟨d, _⟩, m, rfl⟩
    exact ⟨_, (h d).mp m, rfl⟩
  · rintro ⟨⟨d, _⟩, m, rfl⟩
    exact ⟨_, (h d).mpr m, rfl⟩

/-- The command slot as it was. -/
structure SlotKept (s t : State) : Prop where
  cstat : t.bus.cstat = s.bus.cstat
  tag : t.bus.tag = s.bus.tag
  err : t.bus.err = s.bus.err
  cres : t.bus.cres = s.bus.cres
  op : t.bus.op = s.bus.op

theorem SlotKept.trans {s t u : State} (h : SlotKept s t) (g : SlotKept t u) : SlotKept s u :=
  ⟨g.cstat.trans h.cstat, g.tag.trans h.tag, g.err.trans h.err, g.cres.trans h.cres, g.op.trans h.op⟩
theorem SlotKept.of_eq {s t : State} (h : t.bus = s.bus) : SlotKept s t := by
  constructor <;> rw [h]
theorem SlotKept.shows {st : Nat} {err : Byte} {res : List Byte} {p : Packet} {s t : State} (h : SlotKept s t) (g : SlotShows st err res p s) :
    SlotShows st err res p t :=
  ⟨h.cstat.trans g.state, h.tag.trans g.tag, h.err.trans g.err, h.cres.trans g.results⟩
theorem SlotKept.slotHas {s t : State} (h : SlotKept s t) (op : Byte) : slotHas t op = slotHas s op := by
  unfold Machine.slotHas
  rw [h.cstat, h.op]

theorem Leaves.slotKept {l : List Part} {s t : State} (h : Leaves l s t) (hl : .bus ∉ l := by decide) : SlotKept s t := by
  have b := h.busKept hl
  exact ⟨congrArg (·.cstat) b, congrArg (·.tag) b, congrArg (·.err) b, congrArg (·.cres) b, congrArg (·.op) b⟩

/-- The island is powered as it was. -/
theorem Leaves.anvilOn {l : List Part} {s t : State} (h : Leaves l s t) (hg : .glob ∉ l ++ raiseParts := by decide)
    (ho : .otp ∉ l ++ raiseParts := by decide) : anvilOn t = anvilOn s := by
  have g : t.glob = s.glob := h.same .glob hg
  have o : t.otp = s.otp := h.same .otp ho
  unfold Machine.anvilOn
  rw [g, o]

/-- What an acknowledged write changes besides what it does. -/
theorem Leaves.acked {l : List Part} {s t : State} (h : Leaves l (cancelKey (ackAccess s)) t) : Only (l ++ [.glob] ++ raiseParts) s t := by
  have o : Only [.bus, .glob, .clk] s (cancelKey (ackAccess s)) := by simp [only_iff, cancelKey, ackAccess, disarm]
  refine (o.weaken fun p hp => ?_).trans (h.only.weaken fun p hp => ?_)
  · simp only [List.mem_cons, List.not_mem_nil, or_false] at hp
    rcases hp with rfl | rfl | rfl <;> simp [raiseParts]
  · simp only [List.mem_append] at hp ⊢
    exact hp.elim (fun x => .inl (.inl x)) .inr

end Sys2Proof

namespace Sys2Proof.Machine

open Sys2Proof

/-! Single-bit registers. -/

theorem byteFields_psw : byteFields 0x40 0x68 = [⟨0x68, 1, 0, 1, .rw, 0, []⟩, ⟨0x68, 1, 1, 1, .rw, 0, []⟩] := by decide
theorem byteFields_chgsusp : byteFields 0x44 0x63 = [⟨0x63, 1, 0, 1, .rw, 0, []⟩] := by decide

/-- A plain byte that takes bit 0 as written. -/
def TakesBit0 (p o : Nat) : Prop := ∀ old v, (mergeByte (byteFields p o) (fun _ => true) old v).2 = false ∧
    (mergeByte (byteFields p o) (fun _ => true) old v).1.getLsbD 0 = v.getLsbD 0

theorem psw_takesBit0 : TakesBit0 0x40 0x68 := by
  intro old v
  simp only [byteFields_psw, mergeByte, List.foldl_cons, List.foldl_nil, legal_free, reduceCtorEq, if_false, Bool.not_true,
    Bool.false_eq_true, if_true, true_and]
  rw [putBits_field _ _ _ _ (by decide), if_neg (by decide), putBits_field _ _ _ _ (by decide)]
  rfl

theorem chgsusp_takesBit0 : TakesBit0 0x44 0x63 := by
  intro old v
  simp only [byteFields_chgsusp, mergeByte, List.foldl_cons, List.foldl_nil, legal_free, reduceCtorEq, if_false, Bool.not_true,
    Bool.false_eq_true, if_true, true_and]
  rw [putBits_field _ _ _ _ (by decide)]
  rfl

/-- The write stores that bit, and changes no part but the registers; the live copy stays. -/
theorem TakesBit0.plain {p o : Nat} (h : TakesBit0 p o) (v : Byte) (s : State) : ∃ r, plainByte p o v s = { s with regs := r } ∧
    (pl (plainByte p o v s) (key p o)).getLsbD 0 = v.getLsbD 0 ∧ lv (plainByte p o v s) = lv s := by
  have e : plainByte p o v s = putPlain (key p o) [(mergeByte (byteFields p o) (fun _ => true) (pl s (key p o)) v).1] s := by
    simp [plainByte, (h (pl s (key p o)) v).1]
  rw [e]
  exact ⟨_, rfl, by rw [pl_putPlain_same]; exact (h _ _).2, rfl⟩

/-! PSW, PACK and the limits of the response. -/

theorem tryS2_closes {s : State} (a : anvilOn s = true) (rq : s2req s = true) (s2 : s.plt.s2 = false) (ro : s.plt.role = 0) (os : s.plt.osc = true)
    (st : s.plt.state = 3 ∨ s.plt.state = 4) (p1 : 1 ≤ s.plt.pp) (p2 : s.plt.pp ≤ 4) (so : s.plt.soft = false) (ha : s.plt.hard = false) :
    (tryS2 s).plt = { s.plt with s2 := true } ∧ isPend (tryS2 s) 773 = true := by
  have e : tryS2 s = raiseG 48 5 (setPlt (fun p => { p with s2 := true }) s) :=
    if_pos (by rw [rq, s2, ro, os, so, ha]; rcases st with st | st <;> simp [st, p1, p2])
  rw [e]
  exact ⟨raiseG_plt .., isPend_raiseG_self (s := setPlt _ s) a 48 5⟩

theorem openS2_plt (s : State) : (openS2 s).plt = { s.plt with s2 := false } := by
  unfold openS2
  split
  · exact raiseG_plt ..
  · rename_i h
    rw [← show s.plt.s2 = false by simpa using h]

/-- The response ends with an acknowledgement. -/
theorem pilotAck_acks {s : State} (a : anvilOn s = true) (r : s.plt.rspRun = true) : (pilotAck s).plt = { s.plt with rspRun := false, cause := 0 } ∧
    isPend (pilotAck s) 778 = true ∧ armed .rspsoft (pilotAck s) = false ∧ armed .rsphard (pilotAck s) = false := by
  have e : pilotAck s = raiseG 48 10 (stopResponse s) := if_pos r
  rw [e]
  refine ⟨raiseG_plt .., isPend_raiseG_self (s := stopResponse s) a 48 10, ?_, ?_⟩
  · rw [(raiseG_timed rfl 48 10 (stopResponse s)).armed]
    exact armed_disarm _ _
  · rw [(raiseG_timed rfl 48 10 (stopResponse s)).armed, stopResponse, (disarm_timed (by decide) _).armed]
    exact armed_disarm _ _

/-- PSW requests S2. -/
theorem pswWrite_requests {s : State} {v : Byte} (h : Served s) (b : v.getLsbD 0 = true) (s2 : s.plt.s2 = false) (ro : s.plt.role = 0)
    (os : s.plt.osc = true) (st : s.plt.state = 3 ∨ s.plt.state = 4) (p1 : 1 ≤ s.plt.pp) (p2 : s.plt.pp ≤ 4) (so : s.plt.soft = false)
    (ha : s.plt.hard = false) : Ends (.pswWrite v) s (fun t => t.plt = { s.plt with s2 := true } ∧ isPend t 773 = true ∧ s2req t = true ∧
      Only ([.plt, .regs, .glob] ++ raiseParts) s t) := by
  refine .of_eq (exec_onPage (f := pswByte v) h rfl) ?_
  have l := pswByte_leaves v (cancelKey (ackAccess s)) (.refl _ _)
  have a : anvilOn (cancelKey (ackAccess s)) = true := anvilOn_served h
  have e : pswByte v (cancelKey (ackAccess s)) = tryS2 (plainByte 0x40 0x68 v (cancelKey (ackAccess s))) := by
    obtain ⟨r, -, q, -⟩ := psw_takesBit0.plain v (cancelKey (ackAccess s))
    have q' : s2req (plainByte 0x40 0x68 v (cancelKey (ackAccess s))) = true := q.trans b
    unfold pswByte
    dsimp only
    rw [q']
    exact if_neg (by simp)
  obtain ⟨r, eu, q, -⟩ := psw_takesBit0.plain v (cancelKey (ackAccess s))
  rw [e] at l ⊢
  generalize plainByte 0x40 0x68 v (cancelKey (ackAccess s)) = u at eu q l
  have pu : u.plt = s.plt := by rw [eu]; rfl
  have q' : s2req u = true := q.trans b
  obtain ⟨pt, rt⟩ := tryS2_closes (s := u) (by rw [eu]; exact a) q' (by rw [pu]; exact s2) (by rw [pu]; exact ro) (by rw [pu]; exact os)
    (by rw [pu]; exact st) (by rw [pu]; exact p1) (by rw [pu]; exact p2) (by rw [pu]; exact so) (by rw [pu]; exact ha)
  refine ⟨pt.trans (by rw [pu]), rt, ?_, ?_⟩
  · unfold s2req
    rw [pl_congr ((tryS2_leaves u (.refl _ _)).same .regs (by decide))]
    exact q'
  · exact l.acked.weaken (by decide)

/-- PSW withdraws the request. -/
theorem pswWrite_withdraws {s : State} {v : Byte} (h : Served s) (w : s2req s = true) (b : v.getLsbD 0 = false) (ru : s.plt.rspRun = true) :
    Ends (.pswWrite v) s (fun t => t.plt = { s.plt with rspRun := false, cause := 0, s2 := false } ∧ isPend t 778 = true ∧ s2req t = false ∧
      Only ([.plt, .regs, .glob] ++ raiseParts) s t) := by
  refine .of_eq (exec_onPage (f := pswByte v) h rfl) ?_
  have l := pswByte_leaves v (cancelKey (ackAccess s)) (.refl _ _)
  have a : anvilOn (cancelKey (ackAccess s)) = true := anvilOn_served h
  obtain ⟨r, eu, q, -⟩ := psw_takesBit0.plain v (cancelKey (ackAccess s))
  have e : pswByte v (cancelKey (ackAccess s)) = openS2 (pilotAck (plainByte 0x40 0x68 v (cancelKey (ackAccess s)))) := by
    have q' : s2req (plainByte 0x40 0x68 v (cancelKey (ackAccess s))) = false := q.trans b
    have w' : s2req (cancelKey (ackAccess s)) = true := w
    unfold pswByte
    dsimp only
    rw [q', w']
    exact if_pos rfl
  rw [e] at l ⊢
  generalize plainByte 0x40 0x68 v (cancelKey (ackAccess s)) = u at eu q l
  have pu : u.plt = s.plt := by rw [eu]; rfl
  obtain ⟨pa, ra, -⟩ := pilotAck_acks (s := u) (by rw [eu]; exact a) (by rw [pu]; exact ru)
  have la := pilotAck_leaves u (.refl _ _)
  generalize pilotAck u = w at pa ra la l
  have lo := openS2_leaves w (.refl _ _)
  refine ⟨?_, lo.pend ra, ?_, ?_⟩
  · rw [openS2_plt, pa, pu]
  · unfold s2req
    rw [pl_congr ((la.then lo (by decide)).same .regs (by decide))]
    exact q.trans b
  · exact l.acked.weaken (by decide)

theorem pack_acks {s : State} (h : Served s) (r : s.plt.rspRun = true) : Ends .pack s (fun t =>
    t.plt = { s.plt with rspRun := false, cause := 0 } ∧ isPend t 778 = true ∧ armed .rspsoft t = false ∧ armed .rsphard t = false ∧
    Only ([.plt, .glob] ++ raiseParts) s t) := by
  refine .of_eq (exec_onPage (f := pilotAck) h rfl) ?_
  obtain ⟨p, q, x, y⟩ := pilotAck_acks (s := cancelKey (ackAccess s)) (anvilOn_served h) r
  exact ⟨p, q, x, y, (pilotAck_leaves _ (.refl _ _)).acked.weaken (by decide)⟩

theorem pack_idle {s : State} (h : Served s) (r : s.plt.rspRun = false) : Ends .pack s (fun t => Acked s t ∧ Only [.bus, .glob, .clk] s t) := by
  refine .of_eq (t := cancelKey (ackAccess s)) ((exec_onPage (f := pilotAck) h rfl).trans (congrArg Host.Outcome.next (if_neg ?_))) ⟨⟨rfl, rfl⟩, ?_⟩
  · rw [show (cancelKey (ackAccess s)).plt.rspRun = false from r]
    decide
  · simp [only_iff, cancelKey, ackAccess]

theorem rspsoft_limits {s : State} (a : anvilOn s = true) (r : s.plt.rspRun = true) (so : s.plt.soft = false) : Ends .rspsoft s (fun t =>
    t.plt = { s.plt with soft := true, s2 := false } ∧ isPend t 776 = true ∧ Armed (ms (100 * (lv s (key 0x40 2)).toNat)) .rsphard s t ∧
    Only ([.plt] ++ raiseParts) s t) := by
  obtain ⟨u, hu⟩ : ∃ u, u = openS2 (disarm .rspsoft s) := ⟨_, rfl⟩
  have pu : u.plt = { s.plt with s2 := false } := by rw [hu, openS2_plt]; rfl
  have lu : Leaves [.clk, .plt] s u := by
    rw [hu]
    exact ((Leaves.refl [.clk, .plt] s).then (disarm_leaves .rspsoft s (.refl _ _)) (by decide)).then (openS2_leaves _ (.refl _ _)) (by decide)
  obtain ⟨w, hw⟩ : ∃ w, w = raiseG 48 8 (setPlt (fun p => { p with soft := true }) u) := ⟨_, rfl⟩
  have e : exec .rspsoft s = .next (arm (ms (100 * (lv w (key 0x40 2)).toNat)) .rsphard w) := by
    rw [hw, hu]
    refine congrArg Host.Outcome.next (if_pos ?_)
    show (s.plt.rspRun && !s.plt.soft) = true
    rw [r, so]
    rfl
  clear hu
  have pw : w.plt = { s.plt with soft := true, s2 := false } := by
    rw [hw, raiseG_plt]
    exact congrArg (fun q : Plt => { q with soft := true }) pu
  have lw : Leaves [.clk, .plt] s w := by
    rw [hw]
    exact (lu.set (t := setPlt (fun p => { p with soft := true }) u) (by simp [only_iff, setPlt])).then (raiseG_leaves (l := []) _ _ _ (.refl _ _)) (by decide)
  have rw' : isPend w 776 = true := by
    rw [hw]
    exact isPend_raiseG_self (s := setPlt (fun p => { p with soft := true }) u) (lu.powered.anvil_st lu.st a) 48 8
  clear hw
  refine .of_eq e ⟨pw, rw', ?_, ((lw.then (arm_leaves _ _ _ (.refl _ _)) (by decide)).only).weaken (by decide)⟩
  have x := arm_arms (ms (100 * (lv w (key 0x40 2)).toNat)) .rsphard w
  rw [lv_congr (lw.same .regs (by decide))] at x ⊢
  unfold Armed at x ⊢
  rw [← lw.now]
  exact x

theorem rsphard_limits {s : State} (a : anvilOn s = true) (r : s.plt.rspRun = true) (so : s.plt.soft = true) (ha : s.plt.hard = false) :
    Yields .rsphard s (disarm .rsphard { s with plt := { s.plt with hard := true, base := false, rspRun := false } }) [777] := by
  refine yields_raiseG (g := 48) (b := 9) (s' := disarm .rsphard { s with plt := { s.plt with hard := true, base := false, rspRun := false } })
    a (congrArg Host.Outcome.next ((if_pos ?_).trans (Eq.refl _)))
  show (s.plt.rspRun && s.plt.soft && !s.plt.hard) = true
  rw [r, so, ha]
  rfl

/-! PILOT_ROLE and PILOT_REARM. -/

/-- The role change is refused. -/
theorem pilotRole_refused {s : State} {p : Packet} {err : Byte} (h : Takes false p s) (e : pilotRole p (taken 0x80 p s) = roleRej err (taken 0x80 p s)) :
    Ends (.pilotRole p) s (fun t => SlotShows 5 err [] p t ∧ isPend t 787 = true ∧ t.plt = s.plt) := by
  refine .of_eq ((exec_taken h rfl).trans (congrArg Host.Outcome.next e)) ?_
  obtain ⟨x, o⟩ := slotEnd_shows 0x80 p s 5 err []
  have on := takes_anvil h
  have a : anvilOn (slotEnd 5 err [] (taken 0x80 p s)) = true := on
  have l : Leaves [] (slotEnd 5 err [] (taken 0x80 p s)) (roleRej err (taken 0x80 p s)) := raiseG_leaves 49 3 _ (.refl _ _)
  exact ⟨l.slotKept.shows x, isPend_raiseG_self a 49 3, (raiseG_plt ..).trans (o .plt (by decide))⟩

/-- The checks of PILOT_ROLE, over a packet of one byte. -/
theorem pilotRole_byte {p : Packet} {b : Byte} (h : p.params = [b]) (s : State) : pilotRole p s =
    if b.toNat ≥ 4 ∨ s.plt.role = 3 then roleRej 0x01 s
    else if s.plt.role = 2 then raiseG 49 3 (rejectOpen s)
    else if 4 ≤ s.plt.state ∨ (s.plt.state = 3 ∧ !b.getLsbD 1) then roleRej 0x02 s
    else if b.getLsbD 0 ∧ (s.glob.st = .safe ∨ s.plt.genflt ∨ !has s.rl.pg 0) then roleRej 0x03 s
    else if s.plt.role = (b.getLsbD 0).toNat then doneWith [] s
    else startSwap (b.getLsbD 0) s := by
  unfold pilotRole
  rw [h]

/-- A change of role that passes the first three checks. -/
theorem pilotRole_passes {s : State} {p : Packet} {b : Byte} (h : p.params = [b]) (hb : b.toNat < 4) (ro : s.plt.role < 2) (st : s.plt.state < 3) :
    pilotRole p s = if b.getLsbD 0 ∧ (s.glob.st = .safe ∨ s.plt.genflt ∨ !has s.rl.pg 0) then roleRej 0x03 s
    else if s.plt.role = (b.getLsbD 0).toNat then doneWith [] s
    else startSwap (b.getLsbD 0) s := by
  rw [pilotRole_byte h, if_neg (by omega), if_neg (by omega), if_neg (by omega)]

/-- Nothing stands against the supply role. -/
theorem supply_free {s : State} {b : Byte} (h : b.getLsbD 0 = true → s.glob.st ≠ .safe ∧ s.plt.genflt = false ∧ has s.rl.pg 0 = true) :
    ¬ (b.getLsbD 0 = true ∧ (s.glob.st = .safe ∨ s.plt.genflt = true ∨ (!has s.rl.pg 0) = true)) := by
  rintro ⟨x, y⟩
  obtain ⟨h1, h2, h3⟩ := h x
  rw [h2, h3] at y
  rcases y with y | y | y
  · exact h1 y
  · cases y
  · cases y

theorem stopResponse_plt (s : State) : (stopResponse s).plt = { s.plt with rspRun := false, cause := 0 } := rfl

theorem startSwap_starts (b : Bool) (s : State) : (startSwap b s).bus.cstat = 2 ∧ (startSwap b s).bus.tag = s.bus.tag ∧
    (startSwap b s).plt = { s.plt with role := 2, base := false, gen := false, swap := some b, rspRun := false, cause := 0, s2 := false } ∧
    Armed (ms 101) .roledone s (startSwap b s) := by
  have l : Leaves [.clk, .plt] s (stopResponse (openS2 s)) :=
    ((Leaves.refl [.clk, .plt] s).then (openS2_leaves s (.refl _ _)) (by decide)).then (stopResponse_leaves _ (.refl _ _)) (by decide)
  have pl : (stopResponse (openS2 s)).plt = { s.plt with rspRun := false, cause := 0, s2 := false } := by rw [stopResponse_plt, openS2_plt]
  have bu := l.slotKept.tag
  unfold startSwap
  generalize stopResponse (openS2 s) = u at l pl bu
  refine ⟨rfl, bu,
    congrArg (fun x : Plt => { x with role := 2, base := false, gen := false, swap := some b }) pl, ?_⟩
  have x := arm_arms (ms 101) .roledone (slotBusy (setPlt (fun p => { p with role := 2, base := false, gen := false, swap := some b }) u))
  unfold Armed at x ⊢
  rw [← l.now]
  exact x

theorem pilotRole_swaps {s : State} {p : Packet} {b : Byte} (h : Takes false p s) (hp : p.params = [b]) (hb : b.toNat < 4) (ro : s.plt.role < 2)
    (st : s.plt.state < 3) (ne : s.plt.role ≠ (b.getLsbD 0).toNat)
    (ok : b.getLsbD 0 = true → s.glob.st ≠ .safe ∧ s.plt.genflt = false ∧ has s.rl.pg 0 = true) : Ends (.pilotRole p) s (fun t =>
      t.bus.cstat = 2 ∧ t.bus.tag = p.tag ∧
      t.plt = { s.plt with role := 2, base := false, gen := false, swap := some (b.getLsbD 0), rspRun := false, cause := 0, s2 := false } ∧
      Armed (ms 101) .roledone s t) := by
  have e : pilotRole p (taken 0x80 p s) = startSwap (b.getLsbD 0) (taken 0x80 p s) :=
    ((pilotRole_passes (s := taken 0x80 p s) hp hb ro st).trans (if_neg (supply_free (s := taken 0x80 p s) ok))).trans (if_neg ne)
  refine .of_eq ((exec_taken h rfl).trans (congrArg Host.Outcome.next e)) ?_
  exact startSwap_starts (b.getLsbD 0) (taken 0x80 p s)

/-- The state after PSW was cleared. -/
theorem clearPsw_clears (s : State) : (clearPsw s).plt = { s.plt with s2 := false } ∧ s2req (clearPsw s) = false := by
  have l : Leaves [.plt] (putPlain (key 0x40 0x68) [0] s) (clearPsw s) := openS2_leaves _ (.refl _ _)
  refine ⟨openS2_plt _, ?_⟩
  unfold s2req
  rw [pl_congr (l.same .regs (by decide)), pl_putPlain_same]
  decide

/-- The new role's paths are set. -/
def roleTaken (b : Bool) (s : State) : State :=
  let s := clearPsw (restartFilters (disarm .roledone s))
  let s := setPlt (fun p => { p with role := b.toNat, base := !b, gen := b && !p.genflt, swap := none, soft := false, hard := false }) s
  raiseG 49 2 (latchDuty s)

theorem roleTaken_spec (b : Bool) {s : State} (a : anvilOn s = true) : (roleTaken b s).plt.role = b.toNat ∧ (roleTaken b s).plt.swap = none ∧
    (roleTaken b s).plt.base = !b ∧ (roleTaken b s).plt.gen = (b && !s.plt.genflt) ∧ (roleTaken b s).plt.s2 = false ∧ (roleTaken b s).plt.state = 0 ∧
    (roleTaken b s).plt.soft = false ∧ (roleTaken b s).plt.hard = false ∧ s2req (roleTaken b s) = false ∧ isPend (roleTaken b s) 786 = true ∧
    SlotKept s (roleTaken b s) := by
  have l : Leaves [.clk, .regs, .plt] s (clearPsw (restartFilters (disarm .roledone s))) :=
    (((Leaves.refl [.clk, .regs, .plt] s).then (disarm_leaves .roledone s (.refl _ _)) (by decide)).then (restartFilters_leaves _ (.refl _ _)) (by decide)).then
      (clearPsw_leaves _ (.refl _ _)) (by decide)
  obtain ⟨pl, rq⟩ := clearPsw_clears (restartFilters (disarm .roledone s))
  have bu := l.slotKept
  have gf : (clearPsw (restartFilters (disarm .roledone s))).plt.genflt = s.plt.genflt := by rw [pl]; rfl
  have st : (clearPsw (restartFilters (disarm .roledone s))).plt.state = 0 := by rw [pl]; rfl
  have s2 : (clearPsw (restartFilters (disarm .roledone s))).plt.s2 = false := by rw [pl]
  unfold roleTaken
  dsimp only
  generalize clearPsw (restartFilters (disarm .roledone s)) = u at l rq bu gf st s2
  obtain ⟨w, hw⟩ : ∃ w, w = latchDuty (setPlt (fun p => { p with role := b.toNat, base := !b, gen := b && !p.genflt, swap := none, soft := false, hard := false }) u) := ⟨_, rfl⟩
  have aw : anvilOn w = true := by rw [hw]; exact l.powered.anvil_st l.st a
  have rw' : s2req w = false := by rw [hw]; exact rq
  rw [← hw]
  have lr : Leaves [] w (raiseG 49 2 w) := raiseG_leaves 49 2 w (.refl _ _)
  have pr : (raiseG 49 2 w).plt = w.plt := raiseG_plt ..
  refine ⟨?_, ?_, ?_, ?_, ?_, ?_, ?_, ?_, ?_, isPend_raiseG_self aw 49 2, (bu.trans (.of_eq (by rw [hw]; rfl))).trans lr.slotKept⟩
  · rw [pr, hw]; rfl
  · rw [pr, hw]; rfl
  · rw [pr, hw]; rfl
  · rw [pr, hw, ← gf]; rfl
  · rw [pr, hw]; exact s2
  · rw [pr, hw]; exact st
  · rw [pr, hw]; rfl
  · rw [pr, hw]; rfl
  · unfold s2req at rw' ⊢
    rw [pl_congr (lr.same .regs (by decide))]
    exact rw'

theorem roledone_ends {s : State} {b : Bool} (a : anvilOn s = true) (sw : s.plt.swap = some b) (ro : s.plt.role = 2) : Ends .roledone s (fun t =>
    t.plt.role = b.toNat ∧ t.plt.swap = none ∧ t.plt.base = !b ∧
    t.plt.gen = (b && !s.plt.genflt) ∧ t.plt.s2 = false ∧ t.plt.state = 0 ∧ t.plt.soft = false ∧ t.plt.hard = false ∧ s2req t = false ∧
    isPend t 786 = true ∧ (slotHas s 0x80 = true → t.bus.cstat = 3 ∧ t.bus.err = 0)) := by
  have e : exec .roledone s = .next (if slotHas (roleTaken b s) 0x80 then doneWith [] (roleTaken b s) else roleTaken b s) := by
    refine congrArg Host.Outcome.next ?_
    dsimp only
    rw [show (disarm .roledone s).plt.swap = some b from sw]
    exact if_neg (fun x => x ro)
  refine .of_eq e ?_
  obtain ⟨h1, h2, h3, h4, h5, h6, h7, h8, h9, h10, bu⟩ := roleTaken_spec b a
  generalize roleTaken b s = u at h1 h2 h3 h4 h5 h6 h7 h8 h9 h10 bu
  have sl : slotHas u 0x80 = slotHas s 0x80 := bu.slotHas _
  rw [sl]
  split
  · exact ⟨h1, h2, h3, h4, h5, h6, h7, h8, h9, h10, fun _ => ⟨rfl, rfl⟩⟩
  · rename_i n
    exact ⟨h1, h2, h3, h4, h5, h6, h7, h8, h9, h10, fun x => absurd x n⟩

theorem pilotRearm_ends {s : State} {p : Packet} (h : Takes false p s) (hp : p.params = []) (ro : s.plt.role < 2) : Ends (.pilotRearm p) s (fun t =>
    SlotShows 3 0 [] p t ∧ isPend t 779 = true ∧ t.plt.state = 0 ∧
    t.plt.soft = false ∧ t.plt.hard = false ∧ t.plt.diode = false ∧ t.plt.rspRun = false ∧ t.plt.s2 = false ∧ s2req t = false ∧
    t.plt.base = (s.plt.base || decide (s.plt.role = 0))) := by
  have r' : (taken 0x81 p s).plt = s.plt := rfl
  obtain ⟨u, hu⟩ : ∃ u, u = restartFilters (clearPsw (stopResponse (taken 0x81 p s))) := ⟨_, rfl⟩
  obtain ⟨w, hw⟩ : ∃ w, w = setPlt (fun q => { q with base := q.base || decide (q.role = 0), soft := false, hard := false, diode := false }) u := ⟨_, rfl⟩
  have e : pilotRearm p (taken 0x81 p s) = doneWith [] (raiseG 48 11 w) := by
    rw [hw, hu]
    unfold pilotRearm
    rw [r', if_neg (by omega), if_neg (by rw [hp]; exact fun x => x rfl)]
  obtain ⟨cp, cq⟩ := clearPsw_clears (stopResponse (taken 0x81 p s))
  have l : Leaves [.clk, .regs, .plt] (taken 0x81 p s) u := by
    rw [hu]
    exact (((Leaves.refl [.clk, .regs, .plt] _).then (stopResponse_leaves _ (.refl _ _)) (by decide)).then (clearPsw_leaves _ (.refl _ _)) (by decide)).then
      (restartFilters_leaves _ (.refl _ _)) (by decide)
  have pu : u.plt = { s.plt with s2 := false, rspRun := false, cause := 0, state := 0, cls := 0, run := 0, seen := 0, hist := [], lowRun := 0 } := by
    rw [hu]
    exact congrArg (fun q : Plt => { q with state := 0, cls := 0, run := 0, seen := 0, hist := [], lowRun := 0 }) cp
  have bu : u.bus.tag = p.tag := l.slotKept.tag
  have qu : s2req u = false := by rw [hu]; exact cq
  have on := takes_anvil h
  have au : anvilOn u = true := l.powered.anvil_st l.st (show anvilOn (taken 0x81 p s) = true from on)
  clear hu
  have aw : anvilOn w = true := by rw [hw]; exact au
  have lr : Leaves [] w (raiseG 48 11 w) := raiseG_leaves 48 11 w (.refl _ _)
  have pw : (doneWith [] (raiseG 48 11 w)).plt = { u.plt with base := u.plt.base || decide (u.plt.role = 0), soft := false, hard := false, diode := false } :=
    (raiseG_plt ..).trans (by rw [hw]; rfl)
  rw [pu] at pw
  refine .of_eq ((exec_taken h rfl).trans (congrArg Host.Outcome.next e)) ⟨⟨rfl, ?_, rfl, rfl⟩, isPend_raiseG_self aw 48 11, ?_, ?_, ?_, ?_, ?_, ?_, ?_, ?_⟩
  · exact lr.slotKept.tag.trans (by rw [hw]; exact bu)
  · exact congrArg (·.state) pw
  · exact congrArg (·.soft) pw
  · exact congrArg (·.hard) pw
  · exact congrArg (·.diode) pw
  · exact congrArg (·.rspRun) pw
  · exact congrArg (·.s2) pw
  · unfold s2req at qu ⊢
    have r : (raiseG 48 11 w).regs = w.regs := lr.same .regs (by decide)
    rw [pl_congr (show (doneWith [] (raiseG 48 11 w)).regs = u.regs from r.trans (by rw [hw]; rfl))]
    exact qu
  · exact congrArg (·.base) pw

theorem pilotRearm_refused {s : State} {p : Packet} (h : Takes false p s) (r2 : 2 ≤ s.plt.role) (r3 : s.plt.role ≤ 3) :
    Ends (.pilotRearm p) s (fun t => SlotShows 5 1 [] p t ∧ Only [.bus, .txn] s t) :=
  .slotEnd h (op := 0x81) (body := pilotRearm p) rfl (if_pos (show s.plt.role = 3 ∨ s.plt.role = 2 by omega))

theorem pilotRole_same {s : State} {p : Packet} {b : Byte} (h : Takes false p s) (hp : p.params = [b]) (hb : b.toNat < 4) (st : s.plt.state < 3)
    (e : s.plt.role = (b.getLsbD 0).toNat) (ok : b.getLsbD 0 = true → s.glob.st ≠ .safe ∧ s.plt.genflt = false ∧ has s.rl.pg 0 = true) :
    Ends (.pilotRole p) s (fun t => SlotShows 3 0 [] p t ∧ Only [.bus, .txn] s t) := by
  have ro : s.plt.role < 2 := by
    rw [e]
    cases b.getLsbD 0 <;> decide
  exact .slotEnd h (op := 0x80) (body := pilotRole p) rfl
    (((pilotRole_passes (s := taken 0x80 p s) hp hb ro st).trans (if_neg (supply_free (s := taken 0x80 p s) ok))).trans (if_pos e))

/-! The charger's phases. -/

/-- The phase taken after the charger was changed aside from it. -/
theorem Phased_only {p : Nat} {s u t : State} (h : Phased p u t) (g : Only [.chg, .clk] s u) : Only ([.chg] ++ raiseParts) s t :=
  (g.weaken (by decide)).trans h.only

theorem chgCanRun_of {s : State} (a : anvilOn s = true) (e : (chgByte s 0).getLsbD 0 = true) (g : has s.rl.pg 0 = true) (v : s.chg.vmidlow = false)
    (o : s.chg.holdoff = false) : chgCanRun s = true := by
  unfold chgCanRun
  rw [a, e, g, v, o]
  rfl

theorem holdoffEnd_chooses {s : State} {v : Nat} (a : anvilOn s = true) (c : chgCell s ≠ 0) (p : s.chg.phase = 0) (ho : s.chg.holdoff = true)
    (e : (chgByte s 0).getLsbD 0 = true) (g : has s.rl.pg 0 = true) (vl : s.chg.vmidlow = false) (su : chgSuspended s = false) (nv : v ≠ 0) :
    Ends (.chargerHoldoffEnd (some v)) s (fun t => t.chg.holdoff = false ∧ t.chg.vcell = v ∧ t.chg.phase = phaseOf s v ∧
      isPend t 800 = true ∧ Only ([.chg] ++ raiseParts) s t) := by
  obtain ⟨u, hu⟩ : ∃ u, u = setChg (fun c => { c with holdoff := false, vcell := v }) (disarm (.chargerHoldoffEnd none) s) := ⟨_, rfl⟩
  have ex : exec (.chargerHoldoffEnd (some v)) s = .next (chgSettle u) := by
    rw [hu]
    exact congrArg Host.Outcome.next (if_pos (show (s.chg.holdoff && has s.rl.pg 0) = true by rw [ho, g]; rfl))
  have ou : Only [.chg, .clk] s u := by rw [hu]; simp [only_iff, setChg, disarm]
  have uc : chgCell u ≠ 0 := by rw [hu]; exact c
  have ur : chgCanRun u = true := by rw [hu]; exact chgCanRun_of a e g vl rfl
  have us : chgSuspended u = false := by rw [hu]; exact su
  have uv : u.chg.vcell = v := by rw [hu]; rfl
  have uh : u.chg.holdoff = false := by rw [hu]; rfl
  have up : u.chg.phase = 0 := by rw [hu]; exact p
  have ua : anvilOn u = true := by rw [hu]; exact a
  have uo : phaseOf u v = phaseOf s v := by rw [hu]; rfl
  clear hu
  have ph := chgSettle_chooses uc up ur us (by rw [uv]; exact nv)
  rw [uv] at ph
  have pos := (phaseOf_pos u v).1
  exact .of_eq ex ⟨(congrArg (·.holdoff) ph.aside :).trans uh, ph.vcell.trans uv, ph.phase.trans uo, ph.raised ua (by omega), Phased_only ph ou⟩

theorem vmidlow_stops {s : State} (a : anvilOn s = true) (c : chgCell s ≠ 0) (p : 1 ≤ s.chg.phase) (q : s.chg.phase ≤ 6) (vl : s.chg.vmidlow = false) :
    Ends .vmidlow s (fun t => t.chg.vmidlow = true ∧ t.chg.phase = 0 ∧ isPend t 808 = true ∧ isPend t 800 = true ∧ Only ([.chg] ++ raiseParts) s t) := by
  obtain ⟨u, hu⟩ : ∃ u, u = setChg (fun c => { c with vmidlow := true }) s := ⟨_, rfl⟩
  have ex : exec .vmidlow s = .next (chgSettle (raiseG 50 8 u)) := by
    rw [hu]
    exact congrArg Host.Outcome.next (if_pos (by rw [a, vl]; rfl))
  have ou : Only [.chg, .clk] s u := by rw [hu]; simp [only_iff, setChg]
  have ua : anvilOn u = true := by rw [hu]; exact a
  have uc : chgCell u ≠ 0 := by rw [hu]; exact c
  have uv : u.chg.vmidlow = true := by rw [hu]; rfl
  have up : u.chg.phase = s.chg.phase := by rw [hu]; rfl
  clear hu
  have r := isPend_raiseG_self ua 50 8
  have l : Leaves [] u (raiseG 50 8 u) := raiseG_leaves 50 8 u (.refl _ _)
  generalize raiseG 50 8 u = w at ex r l
  have cw : w.chg = u.chg := l.same .chg (by decide)
  have rc : w.regs = u.regs := l.same .regs (by decide)
  have oc : w.otp = u.otp := l.same .otp (by decide)
  have gc : w.glob = u.glob := l.same .glob (by decide)
  have cc : chgCell w ≠ 0 := by rw [chgCell_congr rc (by rw [gc]) (by rw [cw]) oc]; exact uc
  have lc : Leaves [.clk, .chg] u w := (Leaves.refl _ u).then l (by decide)
  have off : chgCanRun w = false := by
    unfold chgCanRun
    rw [cw, uv]
    simp
  have ph := chgSettle_off cc (by rw [cw, up]; omega) off
  refine .of_eq ex ⟨?_, ph.phase, ph.leaves.pend r, ph.raised (l.powered.anvil_st l.st ua) (by rw [cw, up]; omega), ?_⟩
  · exact (congrArg (·.vmidlow) ph.aside :).trans (by rw [cw]; exact uv)
  · exact (ou.weaken (by decide)).trans ((lc.then ph.leaves (by decide)).only.weaken (by decide))

theorem vmidRestore_chooses {s : State} (a : anvilOn s = true) (c : chgCell s ≠ 0) (p : s.chg.phase = 0) (ho : s.chg.holdoff = false)
    (e : (chgByte s 0).getLsbD 0 = true) (g : has s.rl.pg 0 = true) (su : chgSuspended s = false) (nv : s.chg.vcell ≠ 0) :
    Ends .chargerVmidRestore s (fun t => t.chg.vmidlow = false ∧ t.chg.phase = phaseOf s s.chg.vcell ∧
      isPend t 800 = true ∧ Only ([.chg] ++ raiseParts) s t) := by
  have ou : Only [.chg, .clk] s (setChg (fun c => { c with vmidlow := false }) s) := by simp [only_iff, setChg]
  have ph := chgSettle_chooses (s := setChg (fun c => { c with vmidlow := false }) s) c p (chgCanRun_of a e g rfl ho) su nv
  have pos := (phaseOf_pos (setChg (fun c => { c with vmidlow := false }) s) s.chg.vcell).1
  have p' : (setChg (fun c => { c with vmidlow := false }) s).chg.phase = 0 := p
  exact .of_eq (t := chgSettle (setChg (fun c => { c with vmidlow := false }) s)) rfl
    ⟨(congrArg (·.vmidlow) ph.aside :), ph.phase, ph.raised a (by rw [p']; exact Nat.ne_of_lt pos), Phased_only ph ou⟩

theorem chgWatch_only (s : State) : Only [.clk] s (chgWatch s) := by
  unfold chgWatch
  split_ifs <;> simp [only_iff, arm, disarm]

/-- A threshold crossed. -/
theorem phaseChange_takes {s : State} (a : anvilOn s = true) (c : chgCell s ≠ 0) (v : Nat) : Ends (.chargePhaseChange v) s (fun t =>
    Phased (nextPhase (setChg (fun c => { c with vcell := v }) s) v) (setChg (fun c => { c with vcell := v }) s) t ∧
    (s.chg.phase = nextPhase (setChg (fun c => { c with vcell := v }) s) v → Only [.chg, .clk] s t)) := by
  refine .of_eq (congrArg Host.Outcome.next (if_pos (show (anvilOn s && decide (chgCell s ≠ 0)) = true by rw [a, decide_eq_true c]; rfl)))
    ⟨takePhase_phased _ _, fun h => ?_⟩
  have e : setPhase (nextPhase (setChg (fun c => { c with vcell := v }) s) v) (setChg (fun c => { c with vcell := v }) s) =
      setChg (fun c => { c with vcell := v }) s := if_pos h
  rw [e]
  have o : Only [.chg, .clk] s (setChg (fun c => { c with vcell := v }) s) := by simp [only_iff, setChg]
  exact o.trans ((chgWatch_only _).weaken (by decide))

theorem nextPhase_fast {s : State} (h : s.chg.phase = 3) (v : Nat) : nextPhase s v = if v ≥ cvEff s then 4 else if v + 100 < vpre s then 2 else 3 := by
  unfold nextPhase
  rw [h]
  exact Eq.refl _

theorem nextPhase_pre {s : State} (h : s.chg.phase = 2) (v : Nat) :
    nextPhase s v = if v ≥ vpre s then phaseOf s v else if v + 100 < vtrk s then 1 else 2 := by
  unfold nextPhase
  rw [h]
  exact Eq.refl _

/-! Termination, recharge and CHGSUSP. -/

/-- Termination, up to the full point. -/
theorem done_phases {s : State} (a : anvilOn s = true) (p : s.chg.phase = 4) (te : (chgByte s 3).getLsbD 4 = true) : ∃ u, exec .done s = .next (fullPoint u) ∧
    u.chg.phase = 5 ∧ isPend u 800 = true ∧ isPend u 801 = true ∧ Leaves [.clk, .chg] s u ∧ chgAside u.chg = chgAside s.chg := by
  refine ⟨chgWatch (raiseG 50 1 (setPhase 5 s)), congrArg Host.Outcome.next (if_pos (by rw [a, p, te]; rfl)), ?_⟩
  have ph := setPhase_phased 5 s
  have au : anvilOn (setPhase 5 s) = true := ph.leaves.powered.anvil_st ph.leaves.st a
  have ra := ph.raised a (by omega)
  obtain ⟨pp, pa, pl, -⟩ := ph
  generalize setPhase 5 s = u at pp pa pl au ra
  have r := isPend_raiseG_self au 50 1
  have l : Leaves [] u (raiseG 50 1 u) := raiseG_leaves 50 1 u (.refl _ _)
  generalize raiseG 50 1 u = w at r l
  have lw := chgWatch_leaves w (.refl _ _)
  have c1 : (chgWatch w).chg = w.chg := lw.same .chg (by decide)
  have c2 : w.chg = u.chg := l.same .chg (by decide)
  have cw : (chgWatch w).chg = u.chg := c1.trans c2
  exact ⟨by rw [cw]; exact pp, lw.pend (l.pend ra), lw.pend r, (pl.then l (by decide)).then lw (by decide), by rw [cw]; exact pa⟩

theorem gaugeOn_congr {s t : State} (f : fwOn t = fwOn s) (g : t.gau.off = s.gau.off) (c : chgCell t = chgCell s) : gaugeOn t = gaugeOn s := by
  unfold gaugeOn
  rw [f, g, c]

/-- The gauge runs as before. -/
theorem gaugeOn_charged {s u : State} (l : Leaves [.clk, .chg] s u) (e : chgAside u.chg = chgAside s.chg) : gaugeOn u = gaugeOn s := by
  have g : u.gau = s.gau := l.same .gau (by decide)
  have gl : u.glob = s.glob := l.same .glob (by decide)
  have d : u.chg.defaults = s.chg.defaults := congrArg (·.defaults) e
  have an : anvilOn u = anvilOn s := l.anvilOn
  refine gaugeOn_congr ?_ (by rw [g]) (chgCell_congr (l.same .regs (by decide)) (by rw [gl]) d (l.same .otp (by decide)))
  unfold fwOn
  rw [an, gl]

theorem done_without_gauge {s : State} (a : anvilOn s = true) (p : s.chg.phase = 4) (te : (chgByte s 3).getLsbD 4 = true) (g : gaugeOn s = false) :
    Ends .done s (fun t => t.chg.phase = 5 ∧ isPend t 800 = true ∧ isPend t 801 = true ∧ Only ([.chg] ++ raiseParts) s t) := by
  obtain ⟨u, e, pp, r1, r2, l, as⟩ := done_phases a p te
  have gu : gaugeOn u = false := (gaugeOn_charged l as).trans g
  have f : fullPoint u = u := if_pos (by rw [gu]; rfl)
  exact .of_eq (e.trans (by rw [f])) ⟨pp, r1, r2, l.only.weaken (by decide)⟩

theorem publishSoc_gau (s : State) : (publishSoc s).gau.qnow = s.gau.qnow := by
  unfold publishSoc
  dsimp only
  rw [raiseIf_gau]
  rfl

theorem done_frozen {s : State} (a : anvilOn s = true) (p : s.chg.phase = 4) (te : (chgByte s 3).getLsbD 4 = true) (g : gaugeOn s = true)
    (f : s.gau.frozen = true) : Ends .done s (fun t => t.chg.phase = 5 ∧ isPend t 801 = true ∧ t.gau.qnow = (s.gau.cap : Int)) := by
  obtain ⟨u, e, pp, -, r2, l, as⟩ := done_phases a p te
  have gu : gaugeOn u = true := (gaugeOn_charged l as).trans g
  have ga : u.gau = s.gau := l.same .gau (by decide)
  have ef : fullPoint u = publishSoc (setGau (fun g => { g with qnow := g.cap }) u) := by
    unfold fullPoint
    rw [gu, ga, f]
    rfl
  have lp : Leaves [.gau] u (publishSoc (setGau (fun g => { g with qnow := g.cap }) u)) := publishSoc_leaves _ (.set (.refl _ _) (by simp [only_iff, setGau]))
  refine .of_eq (e.trans (congrArg Host.Outcome.next ef)) ⟨?_, lp.pend r2, ?_⟩
  · exact (congrArg (·.phase) (lp.same .chg (by decide)) :).trans pp
  · rw [publishSoc_gau]
    exact congrArg (fun x : Gau => (x.cap : Int)) ga

theorem rechg_ends {s : State} (a : anvilOn s = true) (p : s.chg.phase = 5) : Ends .rechg s (fun t =>
    t.chg.phase = 3 ∧ isPend t 800 = true ∧ isPend t 802 = true ∧ Only ([.chg] ++ raiseParts) s t) := by
  refine .of_eq (t := chgWatch (raiseG 50 2 (setPhase 3 s))) (congrArg Host.Outcome.next (if_pos (by rw [a, p]; rfl))) ?_
  have ph := setPhase_phased 3 s
  have au : anvilOn (setPhase 3 s) = true := ph.leaves.powered.anvil_st ph.leaves.st a
  have ra := ph.raised a (by omega)
  have pp := ph.phase
  have pl := ph.leaves
  clear ph
  generalize setPhase 3 s = u at pp pl au ra
  have r := isPend_raiseG_self au 50 2
  have l : Leaves [] u (raiseG 50 2 u) := raiseG_leaves 50 2 u (.refl _ _)
  generalize raiseG 50 2 u = w at r l
  have lw := chgWatch_leaves w (.refl _ _)
  have c1 : (chgWatch w).chg = w.chg := lw.same .chg (by decide)
  have c2 : w.chg = u.chg := l.same .chg (by decide)
  exact ⟨by rw [c1, c2]; exact pp, lw.pend (l.pend ra), lw.pend r, ((pl.then l (by decide)).then lw (by decide)).only.weaken (by decide)⟩

/-- CHGSUSP written. -/
theorem chgsuspWrite_settles {s : State} (h : Served s) (v : Byte) : ∃ r, exec (.chgsuspWrite v) s = .next (chgSettle { cancelKey (ackAccess s) with regs := r }) ∧
    chgsusp { cancelKey (ackAccess s) with regs := r } = v.getLsbD 0 ∧ chgByte { cancelKey (ackAccess s) with regs := r } = chgByte s := by
  obtain ⟨r, e, q, live⟩ := chgsusp_takesBit0.plain v (cancelKey (ackAccess s))
  refine ⟨r, (exec_onPage (f := chgsuspByte v) h rfl).trans ?_, ?_, ?_⟩
  · exact congrArg (fun x => Host.Outcome.next (chgSettle x)) e
  · rw [e] at q
    exact q
  · rw [e] at live
    funext n
    unfold chgByte
    rw [live]
    rfl

theorem chgsuspWrite_suspends {s : State} {v : Byte} (h : Served s) (b : v.getLsbD 0 = true) (c : chgCell s ≠ 0) (r : chgCanRun s = true)
    (p : 1 ≤ s.chg.phase) (q : s.chg.phase ≤ 5) : Ends (.chgsuspWrite v) s (fun t => t.chg.phase = 6 ∧
      t.chg.kept = s.chg.phase ∧ chgsusp t = true ∧ isPend t 800 = true) := by
  obtain ⟨g, e, su, by'⟩ := chgsuspWrite_settles h v
  refine .of_eq e ?_
  have cu : chgCell { cancelKey (ackAccess s) with regs := g } ≠ 0 := by unfold chgCell; rw [by']; exact c
  have ru : chgCanRun { cancelKey (ackAccess s) with regs := g } = true := by
    unfold chgCanRun at r ⊢
    rw [by']
    exact r
  have ph := chgSettle_suspends cu ru (by unfold chgSuspended; rw [su, b]; rfl) p q
  refine ⟨ph.phase, ph.kept, ?_, ph.raised (anvilOn_served h) (show s.chg.phase ≠ 6 by omega)⟩
  unfold chgsusp at su ⊢
  rw [pl_congr (ph.leaves.same .regs (by decide))]
  exact su.trans b

theorem chgsuspWrite_resumes {s : State} {v : Byte} (h : Served s) (b : v.getLsbD 0 = false) (c : chgCell s ≠ 0) (r : chgCanRun s = true)
    (ts : chgTsen s = false) (p : s.chg.phase = 6) (k : s.chg.kept ≠ 6) : Ends (.chgsuspWrite v) s (fun t =>
      t.chg.phase = s.chg.kept ∧ chgsusp t = false ∧ isPend t 800 = true) := by
  obtain ⟨g, e, su, by'⟩ := chgsuspWrite_settles h v
  refine .of_eq e ?_
  have cu : chgCell { cancelKey (ackAccess s) with regs := g } ≠ 0 := by unfold chgCell; rw [by']; exact c
  have ru : chgCanRun { cancelKey (ackAccess s) with regs := g } = true := by
    unfold chgCanRun at r ⊢
    rw [by']
    exact r
  have tu : chgTsen { cancelKey (ackAccess s) with regs := g } = false := by unfold chgTsen; rw [by']; exact ts
  have ph := chgSettle_resumes cu p ru (by unfold chgSuspended; rw [su, b, tu]; rfl)
  refine ⟨ph.phase, ?_, ph.raised (anvilOn_served h) (show s.chg.phase ≠ s.chg.kept by omega)⟩
  unfold chgsusp at su ⊢
  rw [pl_congr (ph.leaves.same .regs (by decide))]
  exact su.trans b

/-- Settles O37: the pilot's commands by their effects on S2 and the response, the charger's by the phase that each takes. -/
theorem pilotAndCharger : Obligations.PilotAndCharger := by
  refine ⟨fun s v h b s2 ro os st p1 p2 so ha => pswWrite_requests h b s2 ro os st p1 p2 so ha, fun s v h w b r => pswWrite_withdraws h w b r,
    fun s h r => pack_acks h r, fun s h r => pack_idle h r, fun s a r so => rspsoft_limits a r so, fun s a r so ha => rsphard_limits a r so ha,
    fun s p b h hp hb ro st ne ok => pilotRole_swaps h hp hb ro st ne ok, fun s p b h hp c => pilotRole_refused h ?_,
    fun s p b h hp hb ro st => pilotRole_refused h ?_, fun s p b h hp hb ro st su bad => pilotRole_refused h ?_,
    fun s p b h hp hb st e ok => pilotRole_same h hp hb st e ok, fun s b a sw ro => roledone_ends a sw ro, fun s p h hp ro => pilotRearm_ends h hp ro,
    fun s p h hp r2 r3 => pilotRearm_refused h r2 r3, fun s a on gf => ?_, fun s => rfl,
    fun s v a c p ho e g vl su nv => holdoffEnd_chooses a c p ho e g vl su nv, fun s a c p q vl => vmidlow_stops a c p q vl,
    fun s a c p ho e g vl su nv => vmidRestore_chooses a c p ho e g su nv, fun s v a c p hv => ?_, fun s v a c p h1 h2 h3 => ?_,
    fun s v a c p h1 h2 => ?_, fun s v a c p h1 h2 => ?_, fun s a p te g => done_without_gauge a p te g, fun s a p te g f => done_frozen a p te g f,
    fun s a p => rechg_ends a p, fun s v h b c r p q => chgsuspWrite_suspends h b c r p q, fun s v h b c r ts p k => chgsuspWrite_resumes h b c r ts p k⟩
  · exact (pilotRole_byte hp _).trans (if_pos c)
  · have n1 : ¬ (b.toNat ≥ 4 ∨ (taken 0x80 p s).plt.role = 3) := by
      show ¬ (b.toNat ≥ 4 ∨ s.plt.role = 3)
      omega
    have n2 : ¬ (taken 0x80 p s).plt.role = 2 := by
      show ¬ s.plt.role = 2
      omega
    rw [pilotRole_byte hp, if_neg n1, if_neg n2]
    refine if_pos (st.imp_right fun ⟨x, y⟩ => ⟨x, ?_⟩)
    rw [y]
    rfl
  · refine (pilotRole_passes (s := taken 0x80 p s) hp hb ro st).trans (if_pos ⟨su, bad.imp_right (Or.imp_right fun x => ?_)⟩)
    show (!has s.rl.pg 0) = true
    rw [x]
    rfl
  · exact yields_raiseG (g := 48) (b := 14) (s' := { s with plt := { s.plt with genflt := true, gen := false } }) a
      (congrArg Host.Outcome.next (if_pos (by rw [on, gf]; rfl)))
  · refine (phaseChange_takes a c v).imp fun t ⟨ph, _⟩ => ?_
    rw [(nextPhase_fast (s := setChg (fun c => { c with vcell := v }) s) p v).trans (if_pos hv)] at ph
    exact ⟨ph.phase, ph.vcell, ph.raised a (show s.chg.phase ≠ 4 by omega)⟩
  · refine (phaseChange_takes a c v).imp fun t ⟨ph, _⟩ => ?_
    have o : phaseOf s v = 3 := by
      unfold phaseOf
      rw [if_neg (by omega), if_neg (by omega), if_pos h2]
    rw [((nextPhase_pre (s := setChg (fun c => { c with vcell := v }) s) p v).trans (if_pos h1)).trans o] at ph
    exact ⟨ph.phase, ph.raised a (show s.chg.phase ≠ 3 by omega)⟩
  · refine (phaseChange_takes a c v).imp fun t ⟨ph, o⟩ => ?_
    have n : nextPhase (setChg (fun c => { c with vcell := v }) s) v = 3 :=
      ((nextPhase_fast (s := setChg (fun c => { c with vcell := v }) s) p v).trans (if_neg (Nat.not_le.mpr h1))).trans (if_neg (Nat.not_lt.mpr h2))
    rw [n] at ph o
    exact ⟨ph.phase, ph.vcell, o p⟩
  · refine (phaseChange_takes a c v).imp fun t ⟨ph, _⟩ => ?_
    rw [((nextPhase_fast (s := setChg (fun c => { c with vcell := v }) s) p v).trans (if_neg (Nat.not_le.mpr h1))).trans (if_pos h2)] at ph
    exact ⟨ph.phase, ph.raised a (show s.chg.phase ≠ 2 by omega)⟩

end Sys2Proof.Machine
end

section
/-! Protection and watchdog of the charger. -/

namespace Sys2Proof.Machine

open Sys2Proof

/-- A raise arms marks alone. -/
theorem raiseG_keeps {e : Instr} (h : isMark e = false) (g b : Nat) (s : State) : Timed e s (raiseG g b s) := fun d =>
  mem_timers_raise (x := ⟨d, e⟩) h _ s

/-! The safety timers. -/

theorem runTimer_stops {s : State} (h : timerOf s.chg.phase = 0) : armed .tmrpre (runTimer s) = false ∧ armed .tmrfast (runTimer s) = false := by
  unfold runTimer
  dsimp only
  rw [if_pos h]
  exact ⟨armed_disarm _ _, (disarm_timed (by decide) _).armed.trans (armed_disarm _ _)⟩

theorem runTimer_timed {e : Instr} (h1 : .tmrpre ≠ e) (h2 : .tmrfast ≠ e) (s : State) : Timed e s (runTimer s) := by
  unfold runTimer
  dsimp only
  have d (u : State) : Timed e u (disarm .tmrpre (disarm .tmrfast u)) := (disarm_timed h2 u).trans (disarm_timed h1 _)
  have x := d (setChg (fun c => { c with tcount := timerCount s, tsince := s.clk.now, trate := if timerOf s.chg.phase = 0 then 0 else if timerOf s.chg.phase = 2 ∧ coolPct s < 100 then 1 else 2 }) s)
  refine timed_ite (Timed.trans (.of_eq rfl) x) ?_
  refine (Timed.trans (Timed.of_eq rfl) x).trans (arm_timed ?_ _ _)
  split
  · exact h1
  · exact h2

/-- The fault: both timers stop. -/
theorem setPhase_fault {s : State} (h : s.chg.phase ≠ 7) : armed .tmrpre (setPhase 7 s) = false ∧ armed .tmrfast (setPhase 7 s) = false := by
  obtain ⟨u, e, p⟩ : ∃ u, setPhase 7 s = raiseG 50 0 (runTimer u) ∧ timerOf u.chg.phase = 0 := ⟨_, if_neg h, rfl⟩
  obtain ⟨x, y⟩ := runTimer_stops p
  rw [e]
  exact ⟨(raiseG_keeps rfl _ _ _).armed.trans x, (raiseG_keeps rfl _ _ _).armed.trans y⟩

theorem chgWatch_timed {e : Instr} (h : .wdexp ≠ e) (s : State) : Timed e s (chgWatch s) := by
  unfold chgWatch
  exact timed_ite (disarm_timed h s) (timed_ite (.refl e s) (arm_timed h _ s))

/-- A safety timer has expired: source `b` with the fault. -/
theorem timer_faults (b : Nat) {s : State} (a : anvilOn s = true) (h : s.chg.phase ≠ 7) : ∃ t, t = chgWatch (raiseG 50 b (setPhase 7 s)) ∧
    t.chg.phase = 7 ∧ chgAside t.chg = chgAside s.chg ∧ isPend t (16 * 50 + b) = true ∧ isPend t 800 = true ∧ armed .tmrpre t = false ∧
    armed .tmrfast t = false ∧ Leaves [.clk, .chg] s t := by
  refine ⟨_, rfl, ?_⟩
  obtain ⟨x, y⟩ := setPhase_fault h
  have ph := setPhase_phased 7 s
  have au : anvilOn (setPhase 7 s) = true := ph.leaves.anvilOn.trans a
  have ra := ph.raised a h
  obtain ⟨pp, pa, pl, -⟩ := ph
  generalize setPhase 7 s = u at x y pp pa pl au ra
  have r := isPend_raiseG_self au 50 b
  have l : Leaves [] u (raiseG 50 b u) := raiseG_leaves 50 b u (.refl _ _)
  have t1 := raiseG_keeps (e := .tmrpre) rfl 50 b u
  have t2 := raiseG_keeps (e := .tmrfast) rfl 50 b u
  generalize raiseG 50 b u = w at r l t1 t2
  have lw := chgWatch_leaves w (.refl _ _)
  have c1 : (chgWatch w).chg = w.chg := lw.same .chg (by decide)
  have c2 : w.chg = u.chg := l.same .chg (by decide)
  exact ⟨by rw [c1, c2]; exact pp, by rw [c1, c2]; exact pa, lw.pend r, lw.pend (l.pend ra),
    ((chgWatch_timed (by decide) w).armed.trans t1.armed).trans x, ((chgWatch_timed (by decide) w).armed.trans t2.armed).trans y,
    (pl.then l (by decide)).then lw (by decide)⟩

theorem tmrpre_faults {s : State} (a : anvilOn s = true) (p : s.chg.phase = 1 ∨ s.chg.phase = 2) : Ends .tmrpre s (fun t =>
    t.chg.phase = 7 ∧ t.chg.tmrpre = true ∧ isPend t 803 = true ∧ isPend t 800 = true ∧ armed .tmrpre t = false ∧ Only ([.chg] ++ raiseParts) s t) := by
  obtain ⟨u, hu⟩ : ∃ u, u = setChg (fun c => { c with tmrpre := true }) (disarm .tmrpre s) := ⟨_, rfl⟩
  have on : timerOf s.chg.phase = 1 := if_pos p
  have e : exec .tmrpre s = .next (chgWatch (raiseG 50 3 (setPhase 7 u))) := by
    rw [hu]
    exact congrArg Host.Outcome.next (if_pos (show (anvilOn s && decide (timerOf s.chg.phase = 1)) = true by rw [a, on]; rfl))
  have ou : Only [.chg, .clk] s u := by rw [hu]; simp [only_iff, setChg, disarm]
  have au : anvilOn u = true := by rw [hu]; exact a
  have pu : u.chg.phase ≠ 7 := by
    rw [hu]
    show s.chg.phase ≠ 7
    omega
  have fu : u.chg.tmrpre = true := by rw [hu]; rfl
  clear hu
  obtain ⟨t, et, pt, at', r1, r2, d1, -, l⟩ := timer_faults 3 au pu
  exact .of_eq (e.trans (by rw [et])) ⟨pt, (congrArg (·.tmrpre) at' :).trans fu, r1, r2, d1, (ou.weaken (by decide)).trans (l.only.weaken (by decide))⟩

theorem tmrfast_faults {s : State} (a : anvilOn s = true) (p : s.chg.phase = 3 ∨ s.chg.phase = 4) : Ends .tmrfast s (fun t =>
    t.chg.phase = 7 ∧ t.chg.tmrfast = true ∧ isPend t 804 = true ∧ isPend t 800 = true ∧ armed .tmrfast t = false ∧ Only ([.chg] ++ raiseParts) s t) := by
  obtain ⟨u, hu⟩ : ∃ u, u = setChg (fun c => { c with tmrfast := true }) (disarm .tmrfast s) := ⟨_, rfl⟩
  have on : timerOf s.chg.phase = 2 := (if_neg (by omega)).trans (if_pos p)
  have e : exec .tmrfast s = .next (chgWatch (raiseG 50 4 (setPhase 7 u))) := by
    rw [hu]
    exact congrArg Host.Outcome.next (if_pos (show (anvilOn s && decide (timerOf s.chg.phase = 2)) = true by rw [a, on]; rfl))
  have ou : Only [.chg, .clk] s u := by rw [hu]; simp [only_iff, setChg, disarm]
  have au : anvilOn u = true := by rw [hu]; exact a
  have pu : u.chg.phase ≠ 7 := by
    rw [hu]
    show s.chg.phase ≠ 7
    omega
  have fu : u.chg.tmrfast = true := by rw [hu]; rfl
  clear hu
  obtain ⟨t, et, pt, at', r1, r2, -, d2, l⟩ := timer_faults 4 au pu
  exact .of_eq (e.trans (by rw [et])) ⟨pt, (congrArg (·.tmrfast) at' :).trans fu, r1, r2, d2, (ou.weaken (by decide)).trans (l.only.weaken (by decide))⟩

/-! RESTART. -/

/-- The fault is cleared: off, and the phase to be chosen. -/
def faultCleared (s : State) : State := setPhase 0 (setChg (fun c => { c with tmrpre := false, tmrfast := false }) (cancelKey (ackAccess s)))

theorem exec_chgctlRestart {s : State} (h : Served s) (p : s.chg.phase = 7) : exec .chgctlRestart s = .next (chgSettle (faultCleared s)) := by
  refine (exec_onPage (f := restartBit) h rfl).trans (congrArg Host.Outcome.next ?_)
  exact congrArg chgSettle (if_pos p)

/-- What the charger's conditions depend on besides its own state. -/
structure Conditioned (s t : State) : Prop where
  bytes : chgByte t = chgByte s
  can : chgCanRun t = chgCanRun s
  plain : pl t = pl s

theorem Conditioned.cell {s t : State} (h : Conditioned s t) : chgCell t = chgCell s := by unfold chgCell; rw [h.bytes]
theorem Conditioned.tsen {s t : State} (h : Conditioned s t) : chgTsen t = chgTsen s := by unfold chgTsen; rw [h.bytes]
theorem Conditioned.susp {s t : State} (h : Conditioned s t) : chgsusp t = chgsusp s := by unfold chgsusp; rw [h.plain]
theorem Conditioned.suspended {s t : State} (h : Conditioned s t) (n : t.chg.ntc = s.chg.ntc) (c : t.chg.ct = s.chg.ct) :
    chgSuspended t = chgSuspended s := by
  unfold chgSuspended
  rw [h.susp, h.tsen, n, c]
theorem Conditioned.phaseOf {s t : State} (h : Conditioned s t) (c : t.chg.ct = s.chg.ct) (v : Nat) : phaseOf t v = phaseOf s v := by
  unfold Machine.phaseOf cvEff chgBand vcv vtrk vpre
  rw [h.cell, h.tsen, h.bytes, c]
theorem Conditioned.trans {s t u : State} (h : Conditioned s t) (g : Conditioned t u) : Conditioned s u :=
  ⟨g.bytes.trans h.bytes, g.can.trans h.can, g.plain.trans h.plain⟩

/-- The charger changed aside from what its conditions read. -/
theorem Conditioned.of_leaves {l : List Part} {s t : State} (h : Leaves l s t) (d : t.chg.defaults = s.chg.defaults) (v : t.chg.vmidlow = s.chg.vmidlow)
    (o : t.chg.holdoff = s.chg.holdoff) (hg : .glob ∉ l ++ raiseParts := by decide) (hr : .regs ∉ l ++ raiseParts := by decide)
    (ho : .otp ∉ l ++ raiseParts := by decide) (hl : .rl ∉ l ++ raiseParts := by decide) : Conditioned s t := by
  have gl : t.glob = s.glob := h.same .glob hg
  have rg : t.regs = s.regs := h.same .regs hr
  have ot : t.otp = s.otp := h.same .otp ho
  have rl : t.rl = s.rl := h.same .rl hl
  have b : chgByte t = chgByte s := funext fun n => chgByte_congr rg (by rw [gl]) d ot n
  refine ⟨b, ?_, pl_congr rg⟩
  unfold chgCanRun
  rw [h.anvilOn hg ho, b, rl, v, o]

theorem faultCleared_phased {s : State} (h : Served s) (p : s.chg.phase = 7) : (faultCleared s).chg.phase = 0 ∧ (faultCleared s).chg.tmrpre = false ∧
    (faultCleared s).chg.tmrfast = false ∧ isPend (faultCleared s) 800 = true ∧ (faultCleared s).chg.vcell = s.chg.vcell ∧
    (faultCleared s).chg.ntc = s.chg.ntc ∧ (faultCleared s).chg.ct = s.chg.ct ∧ Conditioned s (faultCleared s) := by
  have ph := setPhase_phased 0 (setChg (fun c => { c with tmrpre := false, tmrfast := false }) (cancelKey (ackAccess s)))
  have c : Conditioned (setChg (fun c => { c with tmrpre := false, tmrfast := false }) (cancelKey (ackAccess s))) (faultCleared s) :=
    .of_leaves ph.leaves (congrArg (·.defaults) ph.aside :) (congrArg (·.vmidlow) ph.aside :) (congrArg (·.holdoff) ph.aside :)
  have p' : (setChg (fun c => { c with tmrpre := false, tmrfast := false }) (cancelKey (ackAccess s))).chg.phase ≠ 0 := by
    show s.chg.phase ≠ 0
    omega
  exact ⟨ph.phase, (congrArg (·.tmrpre) ph.aside :), (congrArg (·.tmrfast) ph.aside :), ph.raised (anvilOn_served h) p', ph.vcell, (congrArg (·.ntc) ph.aside :),
    (congrArg (·.ct) ph.aside :), ⟨c.bytes, c.can, c.plain⟩⟩

theorem restart_off {s : State} (h : Served s) (p : s.chg.phase = 7) (c : chgCell s ≠ 0) (r : chgCanRun s = false) : Ends .chgctlRestart s (fun t =>
    t.chg.phase = 0 ∧ t.chg.tmrpre = false ∧ t.chg.tmrfast = false ∧ isPend t 800 = true) := by
  obtain ⟨q, f1, f2, ra, -, -, -, k⟩ := faultCleared_phased h p
  have ph := chgSettle_off (s := faultCleared s) (by rw [k.cell]; exact c) (by omega) (k.can.trans r)
  exact .of_eq (exec_chgctlRestart h p) ⟨ph.phase, (congrArg (·.tmrpre) ph.aside :).trans f1, (congrArg (·.tmrfast) ph.aside :).trans f2, ph.leaves.pend ra⟩

theorem restart_chooses {s : State} (h : Served s) (p : s.chg.phase = 7) (c : chgCell s ≠ 0) (r : chgCanRun s = true) (su : chgSuspended s = false)
    (v : s.chg.vcell ≠ 0) : Ends .chgctlRestart s (fun t => t.chg.phase = phaseOf s s.chg.vcell ∧ t.chg.tmrpre = false ∧ t.chg.tmrfast = false) := by
  obtain ⟨q, f1, f2, ra, ev, en, ec, k⟩ := faultCleared_phased h p
  have ph := chgSettle_chooses (s := faultCleared s) (by rw [k.cell]; exact c) q (k.can.trans r) ((k.suspended en ec).trans su) (by rw [ev]; exact v)
  refine .of_eq (exec_chgctlRestart h p) ⟨ph.phase.trans ?_, (congrArg (·.tmrpre) ph.aside :).trans f1, (congrArg (·.tmrfast) ph.aside :).trans f2⟩
  rw [ev]
  exact k.phaseOf ec _

/-! TCELL. -/

theorem ntcflt_suspends {s : State} (a : anvilOn s = true) (ts : chgTsen s = true) (n : s.chg.ntc = false) (c : chgCell s ≠ 0) (r : chgCanRun s = true)
    (p : 1 ≤ s.chg.phase) (q : s.chg.phase ≤ 5) : Ends .ntcflt s (fun t => t.chg.ntc = true ∧ t.chg.phase = 6 ∧ t.chg.kept = s.chg.phase ∧
      isPend t 806 = true ∧ isPend t 800 = true) := by
  obtain ⟨u, hu⟩ : ∃ u, u = setChg (fun c => { c with ntc := true }) s := ⟨_, rfl⟩
  have e : exec .ntcflt s = .next (chgSettle (raiseG 50 6 u)) := by
    rw [hu]
    exact congrArg Host.Outcome.next (if_pos (by rw [a, ts, n, decide_eq_true c]; rfl))
  have au : anvilOn u = true := by rw [hu]; exact a
  have ku : Conditioned s u := by rw [hu]; exact ⟨rfl, rfl, rfl⟩
  have nu : u.chg.ntc = true := by rw [hu]; rfl
  have pu : u.chg.phase = s.chg.phase := by rw [hu]; rfl
  clear hu
  have r6 := isPend_raiseG_self au 50 6
  have l : Leaves [] u (raiseG 50 6 u) := raiseG_leaves 50 6 u (.refl _ _)
  generalize raiseG 50 6 u = w at e r6 l
  have cw : w.chg = u.chg := l.same .chg (by decide)
  have kw : Conditioned s w := ku.trans (.of_leaves l (by rw [cw]) (by rw [cw]) (by rw [cw]))
  have sw : chgSuspended w = true := by
    unfold chgSuspended
    rw [kw.tsen, ts, cw, nu]
    simp
  have ph := chgSettle_suspends (s := w) (by rw [kw.cell]; exact c) (kw.can.trans r) sw (by rw [cw, pu]; exact p) (by rw [cw, pu]; exact q)
  have rp := ph.raised (l.anvilOn.trans au) (show w.chg.phase ≠ 6 by rw [cw, pu]; omega)
  have nt : (chgSettle w).chg.ntc = w.chg.ntc := congrArg (·.ntc) ph.aside
  have kt : (chgSettle w).chg.kept = w.chg.phase := ph.kept
  have lt := chgSettle_leaves w (.refl _ _)
  refine .of_eq e ⟨?_, ph.phase, ?_, lt.pend r6, rp⟩
  · rw [nt, cw]; exact nu
  · rw [kt, cw]; exact pu

theorem ntcRecover_resumes {s : State} (c : chgCell s ≠ 0) (r : chgCanRun s = true) (su : chgsusp s = false) (c1 : 1 ≤ s.chg.ct) (c3 : s.chg.ct ≤ 3)
    (p : s.chg.phase = 6) (k1 : 1 ≤ s.chg.kept) (k5 : s.chg.kept ≤ 5) : Ends .ntcRecover s (fun t =>
      t.chg.ntc = false ∧ t.chg.phase = s.chg.kept ∧ isPend t 800 = true) := by
  obtain ⟨u, hu⟩ : ∃ u, u = setChg (fun c => { c with ntc := false }) s := ⟨_, rfl⟩
  have e : exec .ntcRecover s = .next (chgSettle u) := by rw [hu]; rfl
  have k : Conditioned s u := by rw [hu]; exact ⟨rfl, rfl, rfl⟩
  have nu : u.chg.ntc = false := by rw [hu]; rfl
  have cu : u.chg.ct = s.chg.ct := by rw [hu]; rfl
  have pu : u.chg.phase = 6 := by rw [hu]; exact p
  have ku : u.chg.kept = s.chg.kept := by rw [hu]; rfl
  clear hu
  have n : chgSuspended u = false := by
    unfold chgSuspended
    rw [k.susp, su, nu, cu, decide_eq_false (show ¬ s.chg.ct = 0 by omega), decide_eq_false (show ¬ s.chg.ct = 4 by omega)]
    simp
  have a : anvilOn u = true := by
    have r' := k.can.trans r
    unfold chgCanRun at r'
    simp only [Bool.and_eq_true] at r'
    exact r'.1.1.1.1
  have ph := chgSettle_resumes (s := u) (by rw [k.cell]; exact c) pu (k.can.trans r) n
  exact .of_eq e ⟨(congrArg (·.ntc) ph.aside :).trans nu, ph.phase.trans ku, ph.raised a (by omega)⟩

/-- The charger's comparator state, which settling the phase leaves. -/
theorem chgSettle_aside (s : State) : (chgSettle s).chg.ct = s.chg.ct ∧ (chgSettle s).chg.tpin = s.chg.tpin := by
  have w (u : State) : (chgWatch u).chg = u.chg := (chgWatch_leaves u (.refl _ _)).same .chg (by decide)
  have q (p : Nat) (u : State) : (setPhase p u).chg.ct = u.chg.ct ∧ (setPhase p u).chg.tpin = u.chg.tpin :=
    ⟨congrArg (·.ct) (setPhase_phased p u).aside, congrArg (·.tpin) (setPhase_phased p u).aside⟩
  have cp (u : State) : (choosePhase u).2.chg = u.chg := (choosePhase_leaves u (.refl _ _)).same .chg (by decide)
  unfold chgSettle
  dsimp only
  rw [w]
  split_ifs
  · exact q 8 s
  · exact ⟨rfl, rfl⟩
  · exact q 0 s
  · exact ⟨rfl, rfl⟩
  · exact q 6 _
  · refine ⟨(q 6 _).1.trans ?_, (q 6 _).2.trans ?_⟩
    · exact congrArg (·.ct) (cp s)
    · exact congrArg (·.tpin) (cp s)
  · exact q _ s
  · refine ⟨(q _ _).1.trans ?_, (q _ _).2.trans ?_⟩
    · rw [cp]
    · rw [cp]
  · exact ⟨rfl, rfl⟩

theorem ctband_changes {s : State} {mv : Nat} (a : anvilOn s = true) (ts : chgTsen s = true) (c : chgCell s ≠ 0) (n : ntcBand (levelsNow s) s.chg.ct mv ≠ s.chg.ct) :
    Ends (.ctband mv) s (fun t => t.chg.ct = ntcBand (levelsNow s) s.chg.ct mv ∧ t.chg.tpin = some mv ∧ isPend t 807 = true) := by
  obtain ⟨u, hu⟩ : ∃ u, u = setChg (fun c => { c with tpin := some mv, ct := ntcBand (levelsNow s) s.chg.ct mv }) s := ⟨_, rfl⟩
  have e : exec (.ctband mv) s = .next (chgSettle (runTimer (raiseG 50 7 u))) := by
    rw [hu]
    refine congrArg Host.Outcome.next (if_pos (show (anvilOn s && chgTsen s && decide (chgCell s ≠ 0) && decide (s.chg.ct ≠ ntcBand (levelsNow s) s.chg.ct mv)) = true from ?_))
    rw [a, ts, decide_eq_true c, decide_eq_true (Ne.symm n)]
    rfl
  have au : anvilOn u = true := by rw [hu]; exact a
  have cu : u.chg.ct = ntcBand (levelsNow s) s.chg.ct mv ∧ u.chg.tpin = some mv := by rw [hu]; exact ⟨rfl, rfl⟩
  clear hu
  have r := isPend_raiseG_self au 50 7
  have l : Leaves [] u (raiseG 50 7 u) := raiseG_leaves 50 7 u (.refl _ _)
  generalize raiseG 50 7 u = w at e r l
  have cw : w.chg = u.chg := l.same .chg (by decide)
  obtain ⟨-, ta⟩ := runTimer_chg w
  have lt := runTimer_leaves w (.refl _ _)
  generalize runTimer w = x at e ta lt
  obtain ⟨h1, h2⟩ := chgSettle_aside x
  have x1 : x.chg.ct = w.chg.ct := congrArg (·.ct) ta
  have x2 : x.chg.tpin = w.chg.tpin := congrArg (·.tpin) ta
  refine .of_eq e ⟨?_, ?_, (chgSettle_leaves x (.refl _ _)).pend (lt.pend r)⟩
  · rw [h1, x1, cw]; exact cu.1
  · rw [h2, x2, cw]; exact cu.2

theorem ctband_stays {s : State} {mv : Nat} (h : chgTsen s = false ∨ chgCell s = 0 ∨ ntcBand (levelsNow s) s.chg.ct mv = s.chg.ct) :
    exec (.ctband mv) s = .next { s with chg := { s.chg with tpin := some mv } } := by
  refine congrArg Host.Outcome.next (if_neg (show ¬ (anvilOn s && chgTsen s && decide (chgCell s ≠ 0) && decide (s.chg.ct ≠ ntcBand (levelsNow s) s.chg.ct mv)) = true from ?_))
  rcases h with h | h | h
  · simp [h]
  · simp [h]
  · simp [h]

/-! The watchdog. -/

theorem wdexp_defaults {s : State} (a : anvilOn s = true) (w : chgwdt s ≠ 0) (m : chgMaySwitch s = true) (d : s.chg.defaults = false) :
    Ends .wdexp s (fun t => t.chg.defaults = true ∧ isPend t 809 = true ∧ armed .wdexp t = false ∧ t.chg.phase = s.chg.phase) := by
  obtain ⟨u, hu⟩ : ∃ u, u = setChg (fun c => { c with defaults := true }) (disarm .wdexp s) := ⟨_, rfl⟩
  have e : exec .wdexp s = .next (runTimer (raiseG 50 9 u)) := by
    rw [hu]
    refine congrArg Host.Outcome.next (if_pos (show (anvilOn s && decide (chgwdt s ≠ 0) && chgMaySwitch s && !s.chg.defaults) = true from ?_))
    rw [a, decide_eq_true w, m, d]
    rfl
  have au : anvilOn u = true := by rw [hu]; exact a
  have du : armed .wdexp u = false := by rw [hu]; exact armed_disarm _ _
  have cu : u.chg.defaults = true ∧ u.chg.phase = s.chg.phase := by rw [hu]; exact ⟨rfl, rfl⟩
  clear hu
  have r := isPend_raiseG_self au 50 9
  have l : Leaves [] u (raiseG 50 9 u) := raiseG_leaves 50 9 u (.refl _ _)
  have ti := raiseG_keeps (e := .wdexp) rfl 50 9 u
  generalize raiseG 50 9 u = x at e r l ti
  have cx : x.chg = u.chg := l.same .chg (by decide)
  obtain ⟨tp, ta⟩ := runTimer_chg x
  have td : (runTimer x).chg.defaults = x.chg.defaults := congrArg (·.defaults) ta
  refine .of_eq e ⟨?_, (runTimer_leaves x (.refl _ _)).pend r, ?_, ?_⟩
  · rw [td, cx]; exact cu.1
  · rw [(runTimer_timed (by decide) (by decide) x).armed, ti.armed]
    exact du
  · rw [tp, cx]; exact cu.2

theorem kick_restores {s : State} (h : Served s) (d : s.chg.defaults = true) : Ends .chgctlKick s (fun t =>
    t.chg.defaults = false ∧ isPend t 810 = true ∧ t.chg.phase = s.chg.phase) := by
  obtain ⟨u, hu⟩ : ∃ u, u = disarm .wdexp (setChg (fun c => { c with defaults := false }) (cancelKey (ackAccess s))) := ⟨_, rfl⟩
  have e : exec .chgctlKick s = .next (chgWatch (runTimer (raiseG 50 10 u))) := by
    refine (exec_onPage (f := kickBit) h rfl).trans (congrArg Host.Outcome.next ?_)
    have d' : (cancelKey (ackAccess s)).chg.defaults = true := d
    rw [hu]
    unfold kickBit
    rw [d']
    rfl
  have au : anvilOn u = true := by rw [hu]; exact anvilOn_served h
  have cu : u.chg.defaults = false ∧ u.chg.phase = s.chg.phase := by rw [hu]; exact ⟨rfl, rfl⟩
  clear hu
  have r := isPend_raiseG_self au 50 10
  have l : Leaves [] u (raiseG 50 10 u) := raiseG_leaves 50 10 u (.refl _ _)
  generalize raiseG 50 10 u = x at e r l
  have cx : x.chg = u.chg := l.same .chg (by decide)
  obtain ⟨tp, ta⟩ := runTimer_chg x
  have td : (runTimer x).chg.defaults = x.chg.defaults := congrArg (·.defaults) ta
  have lt := runTimer_leaves x (.refl _ _)
  generalize runTimer x = y at e tp td lt
  have lw := chgWatch_leaves y (.refl _ _)
  have cw : (chgWatch y).chg = y.chg := lw.same .chg (by decide)
  refine .of_eq e ⟨?_, lw.pend (lt.pend r), ?_⟩
  · rw [cw, td, cx]; exact cu.1
  · rw [cw, tp, cx]; exact cu.2

theorem kick_restarts {s : State} (h : Served s) (d : s.chg.defaults = false) (w : chgwdt s ≠ 0) (m : chgMaySwitch s = true) : Ends .chgctlKick s (fun t =>
    Armed (sec (5 * 2 ^ chgwdt s)) .wdexp s t ∧ t.chg = s.chg ∧ Acked s t) := by
  have e0 : setChg (fun c => { c with defaults := false }) (cancelKey (ackAccess s)) = cancelKey (ackAccess s) := by
    have x : ({ s.chg with defaults := false } : Chg) = s.chg := by rw [← d]
    exact congrArg (fun c => { cancelKey (ackAccess s) with chg := c }) x
  obtain ⟨u, hu⟩ : ∃ u, u = disarm .wdexp (cancelKey (ackAccess s)) := ⟨_, rfl⟩
  have e : exec .chgctlKick s = .next (chgWatch u) := by
    refine (exec_onPage (f := kickBit) h rfl).trans (congrArg Host.Outcome.next ?_)
    unfold kickBit
    rw [e0, show (cancelKey (ackAccess s)).chg.defaults = false from d, hu]
    rfl
  have wu : chgWatch u = arm (sec (5 * 2 ^ chgwdt u)) .wdexp u := by
    have nu : armed .wdexp u = false := by rw [hu]; exact armed_disarm _ _
    have w' : chgwdt u ≠ 0 := by rw [hu]; exact w
    have m' : chgMaySwitch u = true := by rw [hu]; exact m
    have d' : u.chg.defaults = false := by rw [hu]; exact d
    unfold chgWatch
    rw [m', d', nu, if_neg (by simp [w']), if_neg (by decide)]
  rw [wu, hu] at e
  refine .of_eq e ⟨?_, rfl, rfl, rfl⟩
  exact arm_arms (sec (5 * 2 ^ chgwdt s)) .wdexp (disarm .wdexp (cancelKey (ackAccess s)))

/-! CELLOV. -/

theorem exec_cellov {s : State} (a : anvilOn s = true) (c : chgCell s ≠ 0) (o : s.chg.cellov = false) : exec .cellov s =
    .next (raiseG 50 5 (setChg (fun c => { c with cellov := true }) (if chgSwitches s then breach s else s))) :=
  congrArg Host.Outcome.next (if_pos (by rw [a, decide_eq_true c, o]; rfl))

theorem cellov_plain {s : State} (a : anvilOn s = true) (c : chgCell s ≠ 0) (o : s.chg.cellov = false) (q : s.qt.on = false ∨ chgSwitches s = false) :
    Yields .cellov s { s with chg := { s.chg with cellov := true } } [805] := by
  have b : (if chgSwitches s then breach s else s) = s := by
    rcases q with q | q
    · have : breach s = s := if_neg (by rw [q]; decide)
      rw [this, ite_self]
    · rw [q]
      rfl
  refine yields_raiseG (g := 50) (b := 5) (s' := { s with chg := { s.chg with cellov := true } }) a ?_
  rw [exec_cellov a c o, b]
  rfl

theorem cellov_breaches {s : State} (a : anvilOn s = true) (c : chgCell s ≠ 0) (o : s.chg.cellov = false) (q : s.qt.on = true) (w : chgSwitches s = true) :
    Ends .cellov s (fun t => t.chg = { s.chg with cellov := true } ∧ isPend t 805 = true ∧ isPend t (16 * 47 + 9) = true ∧
      Only ([.chg, .qt] ++ raiseParts) s t) := by
  have e := exec_cellov a c o
  rw [w, if_pos rfl] at e
  have rb : isPend (breach s) (16 * 47 + 9) = true := by
    unfold breach
    rw [if_pos q]
    generalize hv : ({ s with qt := if s.qt.curOld then _ else _ } : State) = v
    have av : anvilOn v = true := by rw [← hv]; exact a
    exact isPend_raiseG_self av 47 9
  have lb := breach_left s
  generalize breach s = u at e rb lb
  have cu : u.chg = s.chg := lb.same .chg (by decide)
  have l : Leaves [.chg] u (raiseG 50 5 (setChg (fun c => { c with cellov := true }) u)) := raiseG_leaves 50 5 _ (.set (.refl _ _) (by simp [only_iff, setChg]))
  refine .of_eq e ⟨?_, isPend_raiseG_self (s := setChg _ u) (lb.anvilOn.trans a) 50 5, l.pend rb, ?_⟩
  · rw [raiseG_chg, ← cu]
    rfl
  · exact (lb.only.weaken (by decide)).trans (l.only.weaken (by decide))

/-- Settles O38: the safety timers fault, the conditions suspend and resume, and the watchdog changes the values in force. -/
theorem chargerProtection : Obligations.ChargerProtection := by
  refine ⟨fun s a c o q => cellov_plain a c o q, fun s => rfl, fun s a p => tmrpre_faults a p, fun s a p => tmrfast_faults a p,
    fun s h p c r => restart_off h p c r, fun s h p c r su v => restart_chooses h p c r su v, fun s a ts n c r p q => ntcflt_suspends a ts n c r p q,
    fun s c r su c1 c3 p k1 k5 => ntcRecover_resumes c r su c1 c3 p k1 k5, fun s mv a ts c n => ctband_changes a ts c n, fun s mv h => ctband_stays h,
    fun s a w m d => wdexp_defaults a w m d, fun s h d => kick_restores h d, fun s h d w m => kick_restarts h d w m,
    fun s a c o q w => cellov_breaches a c o q w, fun s o => ?_⟩
  unfold chgSwitches
  rw [o]
  exact Bool.and_false _

end Sys2Proof.Machine
end

section
/-! The gauge. -/

namespace Sys2Proof

open Sys2Proof.Machine

/-- The same round, in which 5 µA·h flowed. -/
def hotCharge : RoundData := { hotData with dq := 5 }

/-- Refutes O39: the thermal limit that the round finds resets the device before its charge is counted. -/
theorem not_gaugeRules : ¬ Obligations.GaugeRules := by
  unfold Obligations.GaugeRules
  intro h
  obtain ⟨h, -⟩ := h
  obtain ⟨t, e, n⟩ := h hotRound hotCharge (by decide +kernel) (.inr (by decide +kernel))
  have r : endsIn (fun t => decide (t.gau.acc = 0)) (exec (.hkRoundEnd hotCharge) hotRound) = true := by decide +kernel
  have z : t.gau.acc = 0 := of_decide_eq_true (endsIn_of r e)
  rw [z] at n
  exact absurd n (by decide +kernel)

end Sys2Proof
end

section
/-! SUPPORT. What the operations leave alone, raise marks apart, function by function. -/

namespace Sys2Proof.Machine

open Sys2Proof

variable {z : State} {l : List Part}

theorem setConf_leaves (n : Nat) (s : State) (hs : Leaves [.gau] z s) :
    Leaves [.gau] z (setConf n s) := by
  unfold setConf
  repeat' (first
    | with_reducible assumption | with_reducible intro _ | subst x | with_reducible apply Leaves.ite
    | (with_reducible apply Leaves.after (setGau_leaves _ _ (Leaves.refl _ _)); rotate_left; decide)
    | with_reducible apply raiseG_leaves)

theorem wantGauge_leaves (s : State) (hs : Leaves [.fl] z s) :
    Leaves [.fl] z (wantGauge s) := by
  unfold wantGauge
  repeat' (first
    | with_reducible assumption | with_reducible intro _ | subst x | with_reducible apply grant_leaves | assumption)

theorem judgeLearn_leaves (cnew : Nat) (s : State) (hs : Leaves [.gau, .fl] z s) :
    Leaves [.gau, .fl] z (judgeLearn cnew s) := by
  unfold judgeLearn
  repeat' (first
    | with_reducible assumption | with_reducible intro _ | subst x
    | (extract_lets +onlyGivenNames x; have hx : Leaves [.gau, .fl] z x := ?_; clear_value x)
    | (extract_lets +onlyGivenNames x; clear_value x) | with_reducible apply Leaves.ite
    | (with_reducible apply Leaves.after (wantGauge_leaves _ (Leaves.refl _ _)); rotate_left; decide)
    | (with_reducible apply Leaves.after (setConf_leaves _ _ (Leaves.refl _ _)); rotate_left; decide)
    | (with_reducible apply Leaves.after (setGau_leaves _ _ (Leaves.refl _ _)); rotate_left; decide)
    | with_reducible apply raiseG_leaves)

theorem learnPoint_leaves (soc : Nat) (s : State) (hs : Leaves [.gau, .fl] z s) :
    Leaves [.gau, .fl] z (learnPoint soc s) := by
  unfold learnPoint
  repeat' (first
    | with_reducible assumption | with_reducible intro _ | subst x
    | (extract_lets +onlyGivenNames x; clear_value x) | with_reducible apply Leaves.ite | split
    | (with_reducible apply Leaves.after (judgeLearn_leaves _ _ (Leaves.refl _ _)); rotate_left; decide)
    | (with_reducible apply Leaves.after (setGau_leaves _ _ (Leaves.refl _ _)); rotate_left; decide)
    | with_reducible apply raiseG_leaves)

theorem refPoint_leaves (soc : Nat) (learn : Bool) (s : State) (hs : Leaves [.gau, .fl] z s) :
    Leaves [.gau, .fl] z (refPoint soc learn s) := by
  unfold refPoint
  repeat' (first
    | with_reducible assumption | with_reducible intro _ | subst x
    | (extract_lets +onlyGivenNames x; have hx : Leaves [.gau, .fl] z x := ?_; clear_value x)
    | (extract_lets +onlyGivenNames x; clear_value x) | with_reducible apply Leaves.ite
    | (with_reducible apply Leaves.after (learnPoint_leaves _ _ (Leaves.refl _ _)); rotate_left; decide)
    | (with_reducible apply Leaves.after (publishSoc_leaves _ (Leaves.refl _ _)); rotate_left; decide)
    | (with_reducible apply Leaves.after (setGau_leaves _ _ (Leaves.refl _ _)); rotate_left; decide)
    | with_reducible apply raiseIf_leaves | with_reducible apply raiseG_leaves)

theorem fullPoint_leaves (s : State) (hs : Leaves [.gau, .fl] z s) :
    Leaves [.gau, .fl] z (fullPoint s) := by
  unfold fullPoint
  repeat' (first
    | with_reducible assumption | with_reducible intro _ | subst x | with_reducible apply Leaves.ite
    | (with_reducible apply Leaves.after (refPoint_leaves _ _ _ (Leaves.refl _ _)); rotate_left; decide)
    | (with_reducible apply Leaves.after (publishSoc_leaves _ (Leaves.refl _ _)); rotate_left; decide)
    | (with_reducible apply Leaves.after (setGau_leaves _ _ (Leaves.refl _ _)); rotate_left; decide))

end Sys2Proof.Machine
end

section
/-! The full point. -/

namespace Sys2Proof.Machine

open Sys2Proof

variable {z : State}

theorem setConf_gau (n : Nat) (s : State) : (setConf n s).gau.qnow = s.gau.qnow ∧ (setConf n s).gau.cap = s.gau.cap := by
  unfold setConf
  split
  · exact ⟨rfl, rfl⟩
  · rw [raiseG_gau]
    exact ⟨rfl, rfl⟩

theorem grant_qnow (s : State) : (wantGauge s).gau = s.gau := by
  unfold wantGauge
  rw [grant_gau]

/-- QNOW equals CAP. -/
def Full (g : Gau) : Prop := g.qnow = (g.cap : Int)

/-- The capacity learnt scales the charge with it: a full cell stays full. -/
theorem full_scaled (cap cap' : Nat) (h : cap = 0 → cap' = 0) : (if cap = 0 then (cap : Int) else (cap : Int) * cap' / cap) = (cap' : Int) := by
  split
  · rename_i e
    rw [h e, e]
  · rename_i n
    rw [Int.mul_comm]
    exact Int.mul_ediv_cancel _ (by omega)

/-- The capacity that a learn accepts: none of none. -/
theorem learnt_none {cap cnew : Nat} {k : Nat} {low : Bool} (h : ((cnew : Int) - cap).natAbs * 100 ≤ cap * k) (z : cap = 0) :
    (if low then cnew else ((cap : Int) + ((cnew : Int) - cap) / 4).toNat) = 0 := by
  subst z
  have c : cnew = 0 := by omega
  subst c
  cases low <;> rfl

theorem judgeLearn_full (cnew : Nat) {s : State} (h : Full s.gau) : Full (judgeLearn cnew s).gau := by
  unfold judgeLearn
  dsimp only
  generalize hk : (if decide (s.gau.conf = 0) = true then 50 else 20) = k
  split
  · rename_i d
    rw [grant_qnow]
    have n := learnt_none (low := decide (s.gau.conf = 0)) d
    generalize (if decide (s.gau.conf = 0) = true then cnew else ((s.gau.cap : Int) + ((cnew : Int) - s.gau.cap) / 4).toNat) = cap' at n
    have f : Full { s.gau with cap := cap', qnow := if s.gau.cap = 0 then s.gau.qnow else s.gau.qnow * cap' / s.gau.cap } := by
      unfold Full at h ⊢
      dsimp only
      rw [h]
      exact full_scaled _ _ n
    obtain ⟨u, hu⟩ : ∃ u, u = raiseG 51 4 (setGau (fun g => { g with cap := cap', learnN := satAdd 255 1 g.learnN, last := 1, qnow := if s.gau.cap = 0 then g.qnow else g.qnow * cap' / s.gau.cap }) (setGau (fun g => { g with cnew := cnew }) s)) := ⟨_, rfl⟩
    have fu : Full u.gau := by
      rw [hu, raiseG_gau]
      exact f
    rw [← hu]
    have sc (n : Nat) : Full (setConf n u).gau := by
      obtain ⟨x, y⟩ := setConf_gau n u
      unfold Full at fu ⊢
      rw [x, y]
      exact fu
    split_ifs
    · exact sc 1
    · exact sc 2
    · exact fu
  · rw [grant_qnow]
    obtain ⟨u, hu⟩ : ∃ u, u = raiseG 51 5 (setGau (fun g => { g with last := 2 }) (setGau (fun g => { g with cnew := cnew }) s)) := ⟨_, rfl⟩
    have fu : Full u.gau := by
      rw [hu, raiseG_gau]
      exact h
    rw [← hu]
    split_ifs
    · obtain ⟨x, y⟩ := setConf_gau 1 u
      unfold Full at fu ⊢
      rw [x, y]
      exact fu
    · exact fu

theorem learnPoint_full (soc : Nat) {s : State} (h : Full s.gau) : Full (learnPoint soc s).gau := by
  unfold learnPoint
  dsimp only
  split
  · rw [raiseG_gau]
    exact h
  · split_ifs
    · exact judgeLearn_full _ h
    · exact h
    · exact h

theorem publishSoc_full {s : State} (h : Full s.gau) : Full (publishSoc s).gau := by
  unfold publishSoc
  dsimp only
  rw [raiseIf_gau]
  exact h

/-- A reference point at 100 % fills the cell, with REFPOINT. -/
theorem refPoint_full {s : State} (a : anvilOn s = true) : Full (refPoint 1000 true s).gau ∧ isPend (refPoint 1000 true s) 818 = true ∧
    Leaves [.gau, .fl] s (refPoint 1000 true s) := by
  obtain ⟨u, hu, fu⟩ : ∃ u, u = setGau (fun g => { g with qnow := ((1000 * s.gau.cap / 1000 : Nat) : Int), swapsusp := g.swapsusp || decide ((((1000 * s.gau.cap / 1000 : Nat) : Int) - s.gau.qnow).natAbs * 5 > s.gau.cap) }) s ∧ Full u.gau := by
    refine ⟨_, rfl, ?_⟩
    show ((1000 * s.gau.cap / 1000 : Nat) : Int) = (s.gau.cap : Int)
    rw [Nat.mul_div_cancel_left _ (by decide)]
  have lu : Leaves [.gau] s u := by rw [hu]; exact .set (.refl _ _) (by simp [only_iff, setGau])
  obtain ⟨v, hv, fv, lv, rv⟩ : ∃ v, v = raiseG 51 2 (raiseIf (decide ((((1000 * s.gau.cap / 1000 : Nat) : Int) - s.gau.qnow).natAbs * 5 > s.gau.cap)) (16 * 51 + 9) u) ∧
      Full v.gau ∧ Leaves [.gau] s v ∧ isPend v 818 = true := by
    refine ⟨_, rfl, ?_, raiseG_leaves _ _ _ (raiseIf_leaves _ _ _ lu), isPend_raiseG_self ((raiseIf_leaves _ _ _ lu).anvilOn.trans a) 51 2⟩
    rw [raiseG_gau, raiseIf_gau]
    exact fu
  have e : refPoint 1000 true s = publishSoc (learnPoint 1000 v) := by
    rw [hv, hu]
    rfl
  have ll := learnPoint_leaves 1000 v (.refl _ _)
  have lp := publishSoc_leaves (learnPoint 1000 v) (.refl _ _)
  rw [e]
  exact ⟨publishSoc_full (learnPoint_full 1000 fv), lp.pend (ll.pend rv),
    ((Leaves.refl _ s).then lv (by decide)).then ll (by decide) |>.then lp (by decide)⟩

end Sys2Proof.Machine

namespace Sys2Proof

open Sys2Proof.Machine

/-- Settles O40: termination is the full point, whose charge is the capacity, learnt or not. -/
theorem fullPoint : Obligations.FullPoint := by
  intro s a p te g
  obtain ⟨u, e, pp, -, -, l, as⟩ := done_phases a p te
  have gu : gaugeOn u = true := (gaugeOn_charged l as).trans g
  have ga : u.gau = s.gau := l.same .gau (by decide)
  by_cases f : s.gau.frozen = true
  · obtain ⟨t, et, tp, -, tq⟩ := done_frozen a p te g f
    refine ⟨t, et, tp, ?_, fun x => absurd x (by rw [f]; decide)⟩
    have ef : Machine.fullPoint u = publishSoc (setGau (fun g => { g with qnow := g.cap }) u) := by
      unfold Machine.fullPoint
      rw [gu, ga, f]
      rfl
    rw [e, ef] at et
    obtain rfl : publishSoc (setGau (fun g => { g with qnow := g.cap }) u) = t := by injection et
    exact publishSoc_full (s := setGau (fun g => { g with qnow := g.cap }) u) (rfl : (u.gau.cap : Int) = u.gau.cap)
  · have ef : Machine.fullPoint u = refPoint 1000 true u := by
      unfold Machine.fullPoint
      rw [gu, ga, Bool.not_eq_true _ |>.mp f]
      rfl
    obtain ⟨fl, r, lr⟩ := refPoint_full (l.anvilOn.trans a)
    exact .of_eq (e.trans (congrArg Host.Outcome.next ef)) ⟨(congrArg (·.phase) (lr.same .chg (by decide)) :).trans pp, fl, fun _ => r⟩

end Sys2Proof
end

section
/-! The calendar, the alarm, the periodic wake and RTC_SHIFT. -/

namespace Sys2Proof.Machine

open Sys2Proof

theorem vaonOn_of_anvil {s : State} (a : anvilOn s = true) : vaonOn s = true := by
  simp only [anvilOn, vaonOn, Bool.and_eq_true, decide_eq_true_eq] at a ⊢
  obtain ⟨⟨h, -⟩, n⟩ := a
  exact ⟨h, n⟩

/-- Served, the sleep-rate responder does not answer. -/
theorem exec_onSleepPage {s : State} {c : Instr} {p : Nat} {f : State → State} (h : Served s) (e : exec c s = .next (onSleepPage p f s)) :
    exec c s = .next (f (cancelKey (ackAccess s))) := by
  have r : responder s = false := by
    have n := (anvilOn_state (anvilOn_served h)).1
    unfold responder
    rw [h.1, decide_eq_false n]
    simp
  unfold onSleepPage at e
  rw [r] at e
  exact exec_onPage h e

/-! Seconds. -/

/-- A second that is counted, up to the sources that it raises. -/
def secondCounted (s : State) : State :=
  let held := match s.cal.shift with | some n => if s.cal.shiftNext then n else 0 | none => 0
  armSecond (setCal (fun c => { c with now := nextSecond c.now, t0 := min (secondEnd s) s.clk.now, adj := held + c.trimNext, trimNext := 0, shiftNext := false })
    (disarm .calendarSecond s))

theorem exec_calendarSecond {s : State} (v : vaonOn s = true) (st : s.glob.st = .run) : exec .calendarSecond s = .next (
    let t := raiseIf (centWrapped s.cal.now (secondCounted s).cal.now) (16 * 52 + 6) (secondCounted s)
    if alarmMatches t then raiseW (16 * 52) t else t) := by
  refine congrArg Host.Outcome.next ((if_neg (show ¬ s.glob.st = .ship by rw [st]; decide)).trans ((if_neg (show ¬ (!vaonOn s) = true by rw [v]; decide)).trans ?_))
  have n : ¬ (disarm .calendarSecond s).glob.st = .sleep := by
    show ¬ s.glob.st = .sleep
    rw [st]
    decide
  simp only [setCal, n, if_false]
  exact Eq.refl _

theorem alarmMatches_congr {s t : State} (c : t.cal = s.cal) (r : t.regs = s.regs) : alarmMatches t = alarmMatches s := by
  unfold alarmMatches
  rw [c, pl_congr r]

theorem calendarSecond_counts {s : State} (v : vaonOn s = true) (st : s.glob.st = .run) : Ends .calendarSecond s (fun t =>
    t.cal.now = nextSecond s.cal.now ∧ (s.cal.shiftNext = false → t.cal.adj = s.cal.trimNext) ∧ t.cal.trimNext = 0 ∧
    armed .calendarSecond t = true ∧ (alarmMatches t = true → anvilOn s = true → isPend t (16 * 52) = true) ∧
    (s.cal.now.cent = 99 → t.cal.now.cent = 0 → anvilOn s = true → isPend t (16 * 52 + 6) = true) ∧ Only ([.cal] ++ raiseParts) s t) := by
  have e := exec_calendarSecond v st
  have n : (secondCounted s).cal.now = nextSecond s.cal.now := rfl
  have j : s.cal.shiftNext = false → (secondCounted s).cal.adj = s.cal.trimNext := by
    intro h
    show (match s.cal.shift with | some n => if s.cal.shiftNext then n else 0 | none => 0) + s.cal.trimNext = s.cal.trimNext
    rw [h]
    cases s.cal.shift <;> exact Int.zero_add _
  have z : (secondCounted s).cal.trimNext = 0 := rfl
  have ar : armed .calendarSecond (secondCounted s) = true := armed_arm _ _ _
  have o : Leaves [.cal, .clk] s (secondCounted s) := .set (.refl _ _) (by simp [only_iff, secondCounted, armSecond, setCal, arm, disarm])
  generalize secondCounted s = u at e n j z ar o
  have au (a : anvilOn s = true) : anvilOn u = true := o.anvilOn.trans a
  obtain ⟨w, hw⟩ : ∃ w, w = raiseIf (centWrapped s.cal.now u.cal.now) (16 * 52 + 6) u := ⟨_, rfl⟩
  rw [← hw] at e
  have lw : Leaves [] u w := by rw [hw]; exact raiseIf_leaves _ _ _ (.refl _ _)
  have tw : armed .calendarSecond w = true := by
    rw [hw]
    unfold raiseIf
    split
    · exact (raiseG_keeps (e := .calendarSecond) rfl 52 6 u).armed.trans ar
    · exact ar
  have rw' : s.cal.now.cent = 99 → u.cal.now.cent = 0 → anvilOn s = true → isPend w (16 * 52 + 6) = true := by
    intro c1 c2 a
    rw [hw]
    unfold raiseIf centWrapped
    rw [c1, c2]
    exact isPend_raiseG_self (au a) 52 6
  clear hw
  have cw : w.cal = u.cal := lw.same .cal (by decide)
  have sw : w.glob.st = .run := (lw.st.trans o.st).trans st
  have ow : Only ([.cal] ++ raiseParts) s w := (o.then lw (by decide)).only.weaken (by decide)
  dsimp only at e
  rw [raiseW_run _ sw] at e
  by_cases m : alarmMatches w = true
  · rw [if_pos m] at e
    have lt : Leaves [] w (raise (16 * 52) w) := raise_leaves _ _ (.refl _ _)
    have ct : (raise (16 * 52) w).cal = u.cal := (show (raise (16 * 52) w).cal = w.cal from lt.same .cal (by decide)).trans cw
    refine .of_eq e ⟨by rw [ct]; exact n, fun h => by rw [ct]; exact j h, by rw [ct]; exact z, ?_, fun _ a => ?_, fun c1 c2 a => ?_, ?_⟩
    · exact (raiseG_keeps rfl 52 0 w).armed.trans tw
    · exact isPend_raiseG_self (lw.anvilOn.trans (au a)) 52 0
    · rw [ct] at c2
      exact lt.pend (rw' c1 c2 a)
    · exact ow.trans (lt.only.weaken (by decide))
  · rw [if_neg m] at e
    exact .of_eq e ⟨by rw [cw]; exact n, fun h => by rw [cw]; exact j h, by rw [cw]; exact z, tw, fun h => absurd h m,
      fun c1 c2 a => rw' c1 (by rw [cw] at c2; exact c2) a, ow⟩

/-! CALTRIM. -/

theorem exec_caltrimStep {s : State} (v : vaonOn s = true) : exec .caltrimStep s = .next (
    if secondEnd s ≤ s.clk.now then setCal (fun c => { c with trimNext := c.trimNext + (pl s (key 0x48 0x1B)).toInt }) (arm (sec 32) .caltrimStep (disarm .caltrimStep s))
    else addCycles (pl s (key 0x48 0x1B)).toInt (arm (sec 32) .caltrimStep (disarm .caltrimStep s))) := by
  have n : ¬ s.glob.st = .ship := by
    unfold vaonOn at v
    simp only [Bool.and_eq_true, decide_eq_true_eq] at v
    exact v.2
  exact congrArg Host.Outcome.next ((if_neg n).trans (if_pos v))

theorem caltrim_now {s : State} (v : vaonOn s = true) (h : (s.clk.now : Int) < s.cal.t0 + xt (32768 - s.cal.adj)) : Ends .caltrimStep s (fun t =>
    t.cal = { s.cal with adj := s.cal.adj + (pl s (key 0x48 0x1B)).toInt } ∧ Armed (sec 32) .caltrimStep s t ∧ Only [.cal, .clk] s t) := by
  have n : ¬ secondEnd s ≤ s.clk.now := by
    unfold secondEnd
    omega
  refine .of_eq ((exec_caltrimStep v).trans (congrArg Host.Outcome.next (if_neg n))) ⟨rfl, ?_, ?_⟩
  · exact (arm_timed (by decide) _ _ _).mpr (arm_arms (sec 32) .caltrimStep (disarm .caltrimStep s))
  · simp [only_iff, addCycles, armSecond, setCal, arm, disarm]

theorem caltrim_next {s : State} (v : vaonOn s = true) (h : s.cal.t0 + xt (32768 - s.cal.adj) ≤ (s.clk.now : Int)) : Ends .caltrimStep s (fun t =>
    t.cal = { s.cal with trimNext := s.cal.trimNext + (pl s (key 0x48 0x1B)).toInt } ∧ Armed (sec 32) .caltrimStep s t ∧ Only [.cal, .clk] s t) := by
  have n : secondEnd s ≤ s.clk.now := by
    unfold secondEnd
    omega
  refine .of_eq ((exec_caltrimStep v).trans (congrArg Host.Outcome.next (if_pos n))) ⟨rfl, ?_, ?_⟩
  · exact arm_arms (sec 32) .caltrimStep (disarm .caltrimStep s)
  · simp [only_iff, setCal, arm, disarm]

/-! The periodic wake. -/

theorem arm_disarm (dt : Nat) (e : Instr) (s : State) : arm dt e (disarm e s) = arm dt e s := by
  simp [arm, disarm, List.filter_filter]

theorem ptickLen_congr {s t : State} (h : t.regs = s.regs) : ptickLen t = ptickLen s := by
  unfold ptickLen
  rw [pl_congr h]

theorem ptick_raises {s : State} {n : Nat} (a : anvilOn s = true) (st : s.glob.st = .run) (h : ptickLen s = some n) :
    Yields .ptick s (arm n .ptick s) [16 * 52 + 1] := by
  have e : exec .ptick s = .next (raiseG 52 1 (arm n .ptick s)) := by
    have l : ptickLen (disarm .ptick s) = some n := (ptickLen_congr rfl).trans h
    have r : restartPtick (disarm .ptick s) = arm n .ptick s := by
      unfold restartPtick
      rw [l]
      exact arm_disarm n .ptick s
    have c : ¬ ((disarm .ptick s).glob.st = .ship ∨ (ptickLen (disarm .ptick s)).isNone = true) := by
      rw [l, show (disarm .ptick s).glob.st = .run from st]
      simp
    have v : calendarOn (disarm .ptick s) = true := vaonOn_of_anvil a
    refine congrArg Host.Outcome.next ((if_neg c).trans ((if_pos v).trans ?_))
    rw [r]
    exact raiseW_run (s := arm n .ptick s) _ st
  exact yields_raiseG (g := 52) (b := 1) (s' := arm n .ptick s) a e

/-- The counter restarts, or stops. -/
theorem restartPtick_spec (s : State) : Leaves [.clk] s (restartPtick s) ∧ (restartPtick s).regs = s.regs ∧
    (ptickLen s = none → armed .ptick (restartPtick s) = false) ∧ (∀ n, ptickLen s = some n → Armed n .ptick s (restartPtick s)) := by
  unfold restartPtick
  cases ptickLen s with
  | none => exact ⟨disarm_leaves .ptick s (.refl _ _), rfl, fun _ => armed_disarm .ptick s, fun n x => absurd x (by simp)⟩
  | some n =>
    refine ⟨arm_leaves n .ptick s (.refl _ _), rfl, fun x => absurd x (by simp), fun m x => ?_⟩
    obtain rfl : n = m := by injection x
    exact arm_arms n .ptick s

theorem plainByte_regs {p o : Nat} {v : Byte} {s t : State} (h : t.regs = s.regs) : (plainByte p o v t).regs = (plainByte p o v s).regs := by
  have one (u : State) : (plainByte p o v u).regs = (putPlain (key p o) [(mergeByte (byteFields p o) (fun _ => true) (pl u (key p o)) v).1] u).regs := by
    unfold plainByte
    dsimp only
    split
    · exact (berrRsvenc_leaves _ (.refl _ _)).same .regs (by decide)
    · rfl
  rw [one, one, pl_congr h]
  unfold putPlain
  rw [h]

theorem pwcfg_restarts {s : State} (h : Served s) (cnt : Bool) (v : Byte) : Ends (.pwcfgWrite cnt v) s (fun t =>
    t.regs = (plainByte 0x48 (if cnt then 0x29 else 0x28) v s).regs ∧
    (ptickLen t = none → armed .ptick t = false) ∧ (∀ n, ptickLen t = some n → Armed n .ptick s t) ∧ Only ([.regs, .glob] ++ raiseParts) s t) := by
  refine .of_eq (exec_onSleepPage (f := pwcfgByte cnt v) h rfl) ?_
  have lb := plainByte_leaves 0x48 (if cnt then 0x29 else 0x28) v (cancelKey (ackAccess s)) (.refl _ _)
  have rb := plainByte_regs (p := 0x48) (o := if cnt then 0x29 else 0x28) (v := v) (show (cancelKey (ackAccess s)).regs = s.regs from rfl)
  unfold pwcfgByte
  generalize plainByte 0x48 (if cnt then 0x29 else 0x28) v (cancelKey (ackAccess s)) = u at lb rb
  obtain ⟨l, r, stop, go⟩ := restartPtick_spec u
  have q := ptickLen_congr r
  refine ⟨r.trans rb, fun x => stop (q.symm.trans x), fun n x => ?_, ?_⟩
  · have g := go n (q.symm.trans x)
    unfold Armed at g ⊢
    rw [lb.now] at g
    exact g
  · exact ((Leaves.refl _ _).then lb (by decide) |>.then (l := [.regs, .glob, .clk]) l (by decide)).acked.weaken (by decide)

/-! The crystal, SET and SUBSEC. -/

theorem calctlSet_takes {s : State} {d : Date} (h : Served s) (hd : heldDate s = some d) : Ends .calctlSet s (fun t =>
    t.cal = { s.cal with now := d, lost := false, seterr := false, t0 := s.clk.now, adj := holdLeft s, trimNext := 0, shiftNext := false } ∧
    armed .calendarSecond t = true ∧ isPend t (16 * 52 + 3) = true ∧ Only ([.cal, .glob] ++ raiseParts) s t) := by
  obtain ⟨u, hu⟩ : ∃ u, u = armSecond (setCal (fun c => { c with now := d, lost := false, seterr := false, t0 := s.clk.now, adj := holdLeft s, trimNext := 0, shiftNext := false })
    (cancelKey (ackAccess s))) := ⟨_, rfl⟩
  have e : exec .calctlSet s = .next (raiseG 52 3 u) := by
    refine (exec_onSleepPage (f := calSetBit) h rfl).trans (congrArg Host.Outcome.next ?_)
    have hd' : heldDate (cancelKey (ackAccess s)) = some d := hd
    rw [hu]
    unfold calSetBit
    rw [hd']
    exact Eq.refl _
  have cu : u.cal = { s.cal with now := d, lost := false, seterr := false, t0 := s.clk.now, adj := holdLeft s, trimNext := 0, shiftNext := false } := by rw [hu]; rfl
  have au : anvilOn u = true := by rw [hu]; exact anvilOn_served h
  have tu : armed .calendarSecond u = true := by rw [hu]; exact armed_arm _ _ _
  have lu : Leaves [.cal, .clk] (cancelKey (ackAccess s)) u := by rw [hu]; exact .set (.refl _ _) (by simp [only_iff, armSecond, setCal, arm])
  clear hu
  refine .of_eq e ⟨(raiseG_cal ..).trans cu, (raiseG_keeps rfl 52 3 u).armed.trans tu, isPend_raiseG_self au 52 3, ?_⟩
  exact (raiseG_leaves 52 3 u lu).acked.weaken (by decide)

theorem calctlSet_refuses {s : State} (h : Served s) (hd : heldDate s = none) : Ends .calctlSet s (fun t =>
    t.cal = { s.cal with seterr := true } ∧ t.glob.buserr.getLsbD 1 = true ∧ Only ([.cal, .glob] ++ raiseParts) s t) := by
  have e : exec .calctlSet s = .next (berrRsvenc (setCal (fun c => { c with seterr := true }) (cancelKey (ackAccess s)))) := by
    refine (exec_onSleepPage (f := calSetBit) h rfl).trans (congrArg Host.Outcome.next ?_)
    have hd' : heldDate (cancelKey (ackAccess s)) = none := hd
    unfold calSetBit
    rw [hd']
  have l : Leaves [.glob] (setCal (fun c => { c with seterr := true }) (cancelKey (ackAccess s)))
      (berrRsvenc (setCal (fun c => { c with seterr := true }) (cancelKey (ackAccess s)))) := berrRsvenc_leaves _ (.refl _ _)
  refine .of_eq e ⟨l.same .cal (by decide), ?_, ?_⟩
  · obtain ⟨g, -⟩ := buserr_spec 1 (s := setCal (fun c => { c with seterr := true }) (cancelKey (ackAccess s))) (anvilOn_served h)
    rw [show (berrRsvenc (setCal (fun c => { c with seterr := true }) (cancelKey (ackAccess s)))).glob = _ from g]
    exact getLsbD_setBit_self (by decide) _ _
  · have o : Leaves [.cal] (cancelKey (ackAccess s)) (setCal (fun c => { c with seterr := true }) (cancelKey (ackAccess s))) :=
      .set (.refl _ _) (by simp [only_iff, setCal])
    exact ((Leaves.refl [.cal, .glob] _).then o (by decide) |>.then l (by decide)).acked.weaken (by decide)

/-! RTC_SHIFT. -/

theorem rtcShiftBody_word {p : Packet} {a b : Byte} (h : p.params = [a, b]) (s : State) : rtcShiftBody p s =
    (let n := (b ++ a : Word).toInt
    if s.cal.shift.isSome then reject 0x01 s
    else if n = -32768 then reject 0x02 s
    else if n = 0 then raise (16 * 52 + 2) (doneWith [] s)
    else
      let c := prescaler s
      let wait := (xt ((c / 128 + 1) * 128 - c : Nat)).toNat
      let last := decide (n < 0 ∧ c / 128 = 255)
      let at_ := if last then secondEnd s else s.clk.now + wait
      let s := slotBusy (setCal (fun x => { x with shift := some n, shiftAt := at_, shiftNext := last }) s)
      if 0 < n then arm wait .shiftdone s
      else
        let s := arm (at_ - s.clk.now + (xt (-n)).toNat) .shiftdone s
        if last then s else addCycles n s) := by
  unfold rtcShiftBody
  rw [h]

theorem toInt_min_iff (w : Word) : w.toInt = -32768 ↔ w = 0x8000 :=
  ⟨fun h => BitVec.eq_of_toInt_eq (h.trans (by decide)), fun h => by rw [h]; decide⟩
theorem toInt_zero_iff (w : Word) : w.toInt = 0 ↔ w = 0 :=
  ⟨fun h => BitVec.eq_of_toInt_eq (h.trans (by decide)), fun h => by rw [h]; decide⟩

/-- A shift that starts. -/
theorem rtcShift_starts {p : Packet} {a b : Byte} (h : p.params = [a, b]) {s : State} (n : s.cal.shift = none) (m : (b ++ a : Word) ≠ 0x8000)
    (z : (b ++ a : Word) ≠ 0) : (rtcShiftBody p s).bus = { s.bus with cstat := 2 } ∧ (rtcShiftBody p s).cal.shift = some (b ++ a : Word).toInt ∧
      armed .shiftdone (rtcShiftBody p s) = true ∧ Only [.bus, .cal, .clk] s (rtcShiftBody p s) := by
  rw [rtcShiftBody_word h]
  dsimp only
  rw [n, if_neg (by decide), if_neg (fun x => m ((toInt_min_iff _).mp x)), if_neg (fun x => z ((toInt_zero_iff _).mp x))]
  generalize decide ((b ++ a : Word).toInt < 0 ∧ prescaler s / 128 = 255) = last
  generalize (if last = true then secondEnd s else s.clk.now + (xt ((prescaler s / 128 + 1) * 128 - prescaler s : Nat)).toNat) = at_
  obtain ⟨u, hu⟩ : ∃ u, u = slotBusy (setCal (fun x => { x with shift := some (b ++ a : Word).toInt, shiftAt := at_, shiftNext := last }) s) := ⟨_, rfl⟩
  have bu : u.bus = { s.bus with cstat := 2 } ∧ u.cal.shift = some (b ++ a : Word).toInt ∧ Only [.bus, .cal, .clk] s u := by
    rw [hu]
    exact ⟨rfl, rfl, by simp [only_iff, slotBusy, setCal]⟩
  rw [← hu]
  clear hu
  obtain ⟨b1, b2, b3⟩ := bu
  have ar (k : Nat) : (arm k .shiftdone u).bus = { s.bus with cstat := 2 } ∧ (arm k .shiftdone u).cal.shift = some (b ++ a : Word).toInt ∧
      armed .shiftdone (arm k .shiftdone u) = true ∧ Only [.bus, .cal, .clk] s (arm k .shiftdone u) :=
    ⟨b1, b2, armed_arm _ _ _, b3.trans (by simp [only_iff, arm])⟩
  split
  · exact ar _
  · obtain ⟨c1, c2, c3, c4⟩ := ar (at_ - u.clk.now + (xt (-(b ++ a : Word).toInt)).toNat)
    split
    · exact ⟨c1, c2, c3, c4⟩
    · refine ⟨c1, c2, (arm_timed (by decide) _ _).armed.trans c3, c4.trans (by simp [only_iff, addCycles, armSecond, setCal, arm])⟩

theorem rtcShift_zero {s : State} {p : Packet} (h : Takes false p s) (hp : p.params = [0, 0]) (n : s.cal.shift = none) : Ends (.rtcShift p) s (fun t =>
    SlotShows 3 0 [] p t ∧ t.cal = s.cal ∧ isPend t (16 * 52 + 2) = true ∧ Only ([.bus, .txn] ++ raiseParts) s t) := by
  have e : rtcShiftBody p (taken 0xC0 p s) = raiseG 52 2 (slotEnd 3 0 [] (taken 0xC0 p s)) := by
    rw [rtcShiftBody_word hp]
    dsimp only
    rw [show (taken 0xC0 p s).cal.shift = none from n]
    rfl
  obtain ⟨x, o⟩ := slotEnd_shows 0xC0 p s 3 0 []
  have on := takes_anvil h
  have a : anvilOn (slotEnd 3 0 [] (taken 0xC0 p s)) = true := on
  have l : Leaves [] (slotEnd 3 0 [] (taken 0xC0 p s)) (raiseG 52 2 (slotEnd 3 0 [] (taken 0xC0 p s))) := raiseG_leaves 52 2 _ (.refl _ _)
  refine .of_eq ((exec_taken h rfl).trans (congrArg Host.Outcome.next e)) ⟨l.slotKept.shows x, ?_, isPend_raiseG_self a 52 2, ?_⟩
  · exact (raiseG_cal ..).trans (o .cal (by decide))
  · exact (o.weaken (by decide)).trans (l.only.weaken (by decide))

/-- SHIFTDONE: `c` is the calendar after it. -/
theorem shiftdone_ends {s : State} {n : Int} {c : Cal} (a : anvilOn s = true) (h : s.cal.shift = some n)
    (hc : c = if 0 < n then { s.cal with shift := none, adj := s.cal.adj + n } else { s.cal with shift := none }) : Ends .shiftdone s (fun t =>
    t.cal = c ∧ isPend t (16 * 52 + 2) = true ∧ (slotHas s 0xC0 = true → t.bus.cstat = 3) ∧ Only ([.cal] ++ raiseParts) s t) := by
  obtain ⟨u, hu⟩ : ∃ u, u = if 0 < n then addCycles n (setCal (fun c => { c with shift := none }) (disarm .shiftdone s))
      else setCal (fun c => { c with shift := none }) (disarm .shiftdone s) := ⟨_, rfl⟩
  have e : exec .shiftdone s = .next (if slotHas (raiseG 52 2 u) 0xC0 then doneWith [] (raiseG 52 2 u) else raiseG 52 2 u) := by
    refine congrArg Host.Outcome.next ?_
    dsimp only
    rw [show (disarm .shiftdone s).cal.shift = some n from h, hu]
    exact Eq.refl _
  have cu : u.cal = c := by
    rw [hu, hc]
    split <;> rfl
  have lu : Leaves [.cal, .clk] s u := by
    rw [hu]
    refine .ite (fun _ => ?_) fun _ => ?_
    · exact .set (.refl _ _) (by simp [only_iff, addCycles, armSecond, setCal, arm, disarm])
    · exact .set (.refl _ _) (by simp [only_iff, setCal, disarm])
  clear hu
  have r := isPend_raiseG_self (lu.anvilOn.trans a) 52 2
  have l : Leaves [] u (raiseG 52 2 u) := raiseG_leaves 52 2 u (.refl _ _)
  have ct : (raiseG 52 2 u).cal = c := (raiseG_cal ..).trans cu
  generalize raiseG 52 2 u = w at e r l ct
  have sl : slotHas w 0xC0 = slotHas s 0xC0 := (lu.slotKept.trans l.slotKept).slotHas _
  have o : Only ([.cal] ++ raiseParts) s w := (lu.then l (by decide)).only.weaken (by decide)
  refine .of_eq e ?_
  rw [sl]
  split
  · exact ⟨ct, r, fun _ => rfl, o.trans (by simp [only_iff, slotEnd, doneWith, raiseParts])⟩
  · rename_i x
    exact ⟨ct, r, fun y => absurd y x, o⟩

/-- Settles O41: each event and command by its change of the calendar. -/
theorem calendarAndShift : Obligations.CalendarAndShift := by
  refine ⟨fun s v st => calendarSecond_counts v st, fun s v h => caltrim_now v h, fun s n a st h => ptick_raises a st h,
    fun s v h => pwcfg_restarts h false v, fun s v h => pwcfg_restarts h true v, fun s a st l => ?_, fun s a c => ?_,
    fun s d h hd => calctlSet_takes h hd, fun s h hd => calctlSet_refuses h hd, fun s h => ?_, fun s v h => caltrim_next v h,
    fun s p a b h hp n m z => ?_, fun s p h hp n => rtcShift_zero h hp n, fun s p a b h hp n => ?_, fun s p a b h hp n m => ?_,
    fun s n a h g => shiftdone_ends a h (if_pos g).symm, fun s n a h g => shiftdone_ends a h (if_neg (not_lt.mpr g)).symm⟩
  · refine yields_raiseG (g := 52) (b := 4) (s' := { s with cal := { s.cal with lprc := true }, tst := { s.tst with xtal := false } }) a ?_
    refine congrArg Host.Outcome.next ((if_pos (show (vaonOn s && !s.cal.lprc) = true by rw [vaonOn_of_anvil a, l]; rfl)).trans ?_)
    exact raiseW_run (s := setCal (fun c => { c with lprc := true }) { s with tst := { s.tst with xtal := false } }) _ st
  · refine yields_raiseG (g := 52) (b := 5) (s' := { s with cal := { s.cal with lprc := false }, tst := { s.tst with xtal := true } }) a ?_
    refine congrArg Host.Outcome.next (if_pos (show (vaonOn s && (s.cal.lprc || !s.tst.xtal)) = true from ?_))
    rw [vaonOn_of_anvil a]
    rcases c with c | c
    · rw [c]; rfl
    · rw [c]; exact Bool.or_true _
  · have r : responder s = false := by
      have n := (anvilOn_state (anvilOn_served h)).1
      unfold responder
      rw [h.1, decide_eq_false n]
      simp
    have e : exec .subsecRead s = .next (onRead 0x48 subsecLatch s) := congrArg Host.Outcome.next (if_neg (by rw [r]; decide))
    exact exec_onRead h e
  · obtain ⟨b1, b2, b3, b4⟩ := rtcShift_starts hp (s := taken 0xC0 p s) n m z
    refine .of_eq (exec_taken h rfl) ⟨by rw [b1], by rw [b1]; rfl, b2, b3, ?_⟩
    exact ((taken_only 0xC0 p.tag s).weaken (by decide)).trans (b4.weaken (by decide))
  · refine (Ends.slotEnd h (op := 0xC0) (body := rtcShiftBody p) (st := 5) (err := 1) (res := []) rfl ?_).imp fun t ⟨x, o⟩ => ⟨x, o .cal (by decide)⟩
    rw [rtcShiftBody_word hp]
    exact if_pos (Option.isSome_iff_ne_none.mpr n)
  · refine (Ends.slotEnd h (op := 0xC0) (body := rtcShiftBody p) (st := 5) (err := 2) (res := []) rfl ?_).imp fun t ⟨x, o⟩ => ⟨x, o .cal (by decide)⟩
    rw [rtcShiftBody_word hp]
    dsimp only
    rw [show (taken 0xC0 p s).cal.shift = none from n]
    exact (if_neg (by decide)).trans (if_pos ((toInt_min_iff _).mpr m))

end Sys2Proof.Machine
end

section
/-! Wake sources. -/

namespace Sys2Proof

open Sys2Proof.Machine

/-- The power registers as they were, wake latches apart. -/
theorem Leaves.pwrKept {l : List Part} {s t : State} (h : Leaves l s t) (hl : .pwr ∉ l := by decide) :
    t.pwr = { s.pwr with wl := t.pwr.wl, wlAt := t.pwr.wlAt } := by
  have e : { t.pwr with wl := 0, wlAt := [] } = { s.pwr with wl := 0, wlAt := [] } := h.marked .pwr hl
  exact congrArg (fun x : Pwr => { x with wl := t.pwr.wl, wlAt := t.pwr.wlAt }) e

end Sys2Proof

namespace Sys2Proof.Machine

open Sys2Proof

/-! Wakes from STANDBY. -/

/-- A set latch stays set. -/
def LatchKept (s t : State) : Prop := ∀ j, s.pwr.wl.getLsbD j = true → t.pwr.wl.getLsbD j = true

theorem raise_latchKept (k : Nat) {s : State} (a : anvilOn s = true) : LatchKept s (raise k s) := (raise_raised k s a).latchKept

theorem logOther_latchKept (kd k : Nat) (d : BitVec 32) {s : State} : LatchKept s (logOther kd k d s) := by
  intro j h
  unfold logOther
  split
  · exact h
  · exact (pushLog_raised _ s).latchKept j h

theorem claimNext_pwr (s : State) : (claimNext s).pwr = s.pwr := rfl

theorem startRounds_pwr (s : State) : (startRounds s).pwr = s.pwr := claimNext_pwr _

/-- Entry to RUN or STANDBY: reported and recorded, and no more. -/
theorem enterState_reports {n : St} {s : State} (h : s.glob.st ≠ n) (hn : n = .run ∨ n = .standby) : ∃ u d, enterState n s = logOther 3 0x3FF d (raiseG 62 6 u) ∧
    u.pwr = s.pwr ∧ (anvilOn s = true → anvilOn u = true) := by
  have st : n ≠ .start ∧ n ≠ .stop ∧ n ≠ .safe ∧ n ≠ .sleep ∧ n ≠ .ship := by rcases hn with rfl | rfl <;> decide
  obtain ⟨n1, n2, n3, n4, n5⟩ := st
  obtain ⟨u, hu⟩ : ∃ u, u = if s.glob.st = .standby then startRounds { s with glob := { s.glob with st := n, left := s.glob.st } } else
    { s with glob := { s.glob with st := n, left := s.glob.st } } := ⟨_, rfl⟩
  refine ⟨u, BitVec.ofNat 32 (stNum s.glob.st + 256 * stNum n + 65536 * (raiseG 62 6 u).safe.cause.toNat), (if_neg h).trans ?_, ?_, fun a => ?_⟩ <;> rw [hu]
  · dsimp only
    rw [if_neg (show ¬ (n = .start ∧ _) from fun x => n1 x.1), if_neg (show ¬ (n = .stop ∨ n = .safe) from fun x => x.elim n2 n3),
      if_neg (show ¬ (n = .sleep ∨ n = .ship) from fun x => x.elim n4 n5)]
  · split
    · exact startRounds_pwr _
    · rfl
  · have p : Powered s { s with glob := { s.glob with st := n, left := s.glob.st } } := ⟨rfl, rfl, rfl, rfl, rfl, rfl, rfl⟩
    have b := p.anvil a n4 n5
    split
    · exact (startRounds_leaves _ (.refl _ _)).anvilOn.trans b
    · exact b

theorem enterRun_latchKept {s : State} (a : anvilOn s = true) : LatchKept s (enterState .run s) := by
  by_cases h : s.glob.st = .run
  · rw [show enterState .run s = s from if_pos h]
    exact fun _ x => x
  · obtain ⟨u, d, e, eu, au⟩ := enterState_reports h (.inl rfl)
    rw [e]
    exact fun j x => logOther_latchKept _ _ _ j (raise_latchKept _ (au a) j (by rw [eu]; exact x))

/-- A set latch of an enabled source ends a STANDBY entered from RUN. -/
theorem wakeCheck_resumes {s : State} (a : anvilOn s = true) (st : s.glob.st = .standby) (fr : s.pwr.fromRun = true) (w : wakeDue s = true) :
    (wakeCheck s).glob.st = .run ∧ (wakeCheck s).pwr.fromRun = false ∧ LatchKept s (wakeCheck s) ∧
    Only ([.glob, .safe, .hk] ++ raiseParts) s (wakeCheck s) := by
  obtain ⟨u, hu⟩ : ∃ u : State, u = { s with pwr := { s.pwr with fromRun := false } } := ⟨_, rfl⟩
  have e : wakeCheck s = wdArm (enterState .run u) := by
    rw [hu]
    unfold wakeCheck
    rw [if_neg (by rw [w]; decide), if_pos ⟨st, fr⟩]
  have ou : Only [.pwr] s u := by rw [hu]; simp [only_iff]
  have au : anvilOn u = true := by rw [hu]; exact a
  have fu : u.pwr.fromRun = false := by rw [hu]
  have ku : u.pwr.wl = s.pwr.wl := by rw [hu]
  clear hu
  have le := enterState_leaves .run u (.refl _ _)
  have ke := enterRun_latchKept au
  have se := enterState_st .run u
  generalize enterState .run u = v at e le ke se
  have lw := wdArm_leaves v (.refl _ _)
  have pw : (wdArm v).pwr = v.pwr := by
    unfold wdArm
    split <;> rfl
  rw [e]
  refine ⟨lw.st.trans se, ?_, fun j x => ?_, ?_⟩
  · rw [pw, le.pwrKept]
    exact fu
  · rw [pw]
    exact ke j (by rw [ku]; exact x)
  · exact (ou.weaken (by decide)).trans ((Leaves.then (.refl [.clk, .glob, .hk, .fl, .safe] u) le (by decide) |>.then lw (by decide)).only.weaken (by decide))

/-- A detector and its latch. -/
def Detects (c : Instr) (k : Nat) : Prop := (c = .wakepin ∧ k = 0) ∨ (c = .vinwake ∧ k = 1)

theorem Detects.latch {c : Instr} {k : Nat} (h : Detects c k) : latchOf (992 + k) = some k ∧ k < 8 ∧ wakeWhy k = k + 1 ∧
    ∀ s, exec c s = .next (detector k (992 + k) s) := by
  rcases h with ⟨rfl, rfl⟩ | ⟨rfl, rfl⟩
  · exact ⟨rfl, by decide, rfl, fun s => rfl⟩
  · exact ⟨rfl, by decide, rfl, fun s => rfl⟩

theorem detector_awake (k src : Nat) {s : State} (h : s.glob.st ≠ .ship) : detector k src s = raiseW src s := if_neg h

theorem detector_resumes {s : State} {c : Instr} {k : Nat} (h : Detects c k) (a : anvilOn s = true) (st : s.glob.st = .standby) (fr : s.pwr.fromRun = true)
    (en : wakeEn s k = true) : Ends c s (fun t => t.glob.st = .run ∧ t.pwr.fromRun = false ∧ t.pwr.wl.getLsbD k = true ∧
      Only ([.glob, .safe, .hk] ++ raiseParts) s t) := by
  obtain ⟨lk, hk, -, ex⟩ := h.latch
  have e := (ex s).trans (congrArg Host.Outcome.next (detector_awake k (992 + k) (by rw [st]; decide)))
  have r := raise_raised (992 + k) s a
  have l : Leaves [] s (raise (992 + k) s) := raise_leaves _ s (.refl _ _)
  have set : (raise (992 + k) s).pwr.wl.getLsbD k = true := r.latched _ k (List.mem_singleton.mpr rfl) lk
  have fk : (raise (992 + k) s).pwr.fromRun = true := by
    rw [l.pwrKept]
    exact fr
  unfold raiseW at e
  generalize raise (992 + k) s = u at e l set fk
  have due : wakeDue u = true := wakeDue_of (by omega) set ((wakeEn_congr (l.same .regs (by decide)) k).trans en)
  obtain ⟨t1, t2, t3, t4⟩ := wakeCheck_resumes (l.anvilOn.trans a) (l.st.trans st) fk due
  exact .of_eq e ⟨t1, t2, t3 k set, (l.only.weaken (by decide)).trans t4⟩

/-! Wakes from SLEEP and SHIP. -/

/-- A source whose latch wakes ends the SLEEP. -/
theorem raiseW_boots {s : State} {src k : Nat} (on : vaonOn s = true) (st : s.glob.st = .sleep) (h : latchOf src = some k) (hk : k < 8)
    (en : wakeEn s k = true) : Booting (raiseW src s) := by
  obtain ⟨u, hu⟩ : ∃ u, u = raise src s := ⟨_, rfl⟩
  have ru := raise_asleep on st h hk
  rw [← hu] at ru
  have su : u.glob.st = .sleep := by rw [ru]; exact st
  have wu : u.pwr.wl.getLsbD k = true := by
    rw [ru]
    show (s.pwr.wl ||| BitVec.twoPow 64 k).getLsbD k = true
    rw [BitVec.getLsbD_or, BitVec.getLsbD_twoPow]
    simp
    omega
  have eu : wakeEn u k = true := by rw [ru]; exact en
  unfold raiseW
  rw [← hu]
  exact wakeCheck_boots su (wakeDue_of (by omega) wu eu)

/-- The reason of the wake, through a boot from SHIP. -/
theorem bootStart_why (s : State) : (bootStart (.wake true) s).pwr.why = s.pwr.why := by
  have un {a b : State} (h : unmarked b = unmarked a) : b.pwr.why = a.pwr.why := by
    have g : (unmarked b).pwr.why = (unmarked a).pwr.why := congrArg (fun t : State => t.pwr.why) h
    exact g
  have d : (dropSlot s).pwr.why = s.pwr.why := by
    have l := dropSlot_leaves s (.refl _ _)
    rw [l.pwrKept]
  unfold bootStart
  dsimp only
  generalize dropSlot s = u at d
  rw [← d]
  have w1 : (bootRoles (.wake true) (loadH (!isSysBoot (.wake true) && !decide (BootKind.wake true = .wake false)) (sense (bootRecord (.wake true) u)))).pwr.why =
      u.pwr.why := by
    rw [show bootRoles (.wake true) _ = _ from rfl]
    simp [sense]
    rfl
  generalize bootRoles (.wake true) _ = v at w1
  have w2 : (repend (senseEvents v)).pwr.why = v.pwr.why := un ((repend_unmarked _).trans (senseEvents_unmarked _))
  generalize repend (senseEvents v) = w at w2
  have w3 (st : St) (b : Bool) : (bootReport st b w).pwr.why = w.pwr.why := by
    unfold bootReport
    refine un ((raiseIf_unmarked _ _ _).trans ?_)
    split
    · rfl
    · exact (logOther_unmarked _ _ _ _).1.trans (raise_unmarked _ _)
  have w4 (x : State) : (placeBand x).pwr.why = x.pwr.why := by
    unfold placeBand
    dsimp only
    split
    · split
      · generalize hy : ({ x with chg := { x.chg with ct := _ } } : State) = y
        have l : Leaves [] y (raiseG 50 7 y) := raiseG_leaves 50 7 y (.refl _ _)
        rw [l.pwrKept, ← hy]
      · rfl
    · rfl
  have w5 (x : State) : (bootTimers (.wake true) x).pwr = x.pwr := by
    unfold bootTimers
    dsimp only
    split_ifs <;> rfl
  rw [w5, w4, w3, w2, w1]

theorem detector_ships {s : State} {c : Instr} {k : Nat} (h : Detects c k) (su : s.glob.supplied = true) (st : s.glob.st = .ship) :
    Ends c s (fun t => Booting t ∧ t.pwr.why = k + 1) := by
  obtain ⟨-, -, why, ex⟩ := h.latch
  refine .of_eq ((ex s).trans (congrArg Host.Outcome.next ((if_pos st).trans (if_pos su)))) ⟨(bootStart_spec _ _).1, ?_⟩
  rw [bootStart_why]
  exact why

theorem exec_hostwake {s : State} (on : vaonOn s = true) (st : s.glob.st = .sleep) : exec .hostwake s = .next (raiseW 994 (ackAccess s)) := by
  have r : responder s = true := by
    unfold responder
    rw [on, decide_eq_true st]
    rfl
  exact congrArg Host.Outcome.next (if_pos r)

theorem hostwake_run {s : State} (h : Served s) (st : s.glob.st = .run) : Ends .hostwake s (fun t =>
    t.pwr.wl.getLsbD 2 = true ∧ isPend t 994 = true ∧ Only ([.glob] ++ raiseParts) s t) := by
  have e : exec .hostwake s = .next (raise 994 (cancelKey (ackAccess s))) :=
    (exec_onSleepPage (f := hostwakeBit) h rfl).trans (congrArg Host.Outcome.next (raiseW_run 994 (s := cancelKey (ackAccess s)) st))
  have r := raise_raised 994 (cancelKey (ackAccess s)) (anvilOn_served h)
  have l : Leaves [] (cancelKey (ackAccess s)) (raise 994 (cancelKey (ackAccess s))) := raise_leaves _ _ (.refl _ _)
  exact .of_eq e ⟨r.latched 994 2 (List.mem_singleton.mpr rfl) rfl, r.marked 994 (List.mem_singleton.mpr rfl), l.acked⟩

theorem detector_running {s : State} {c : Instr} {k : Nat} (h : Detects c k) (r : Running s) : Yields c s s [992 + k] := by
  obtain ⟨a, st, -⟩ := r
  obtain ⟨-, -, -, ex⟩ := h.latch
  exact yields_raise a ((ex s).trans (congrArg Host.Outcome.next ((detector_awake k (992 + k) (by rw [st]; decide)).trans (raiseW_run _ st))))

/-- Settles O42: a latch of an enabled source ends STANDBY and SLEEP, a detector SHIP. -/
theorem wakeSources : Obligations.WakeSources :=
  ⟨fun _ r => detector_running (.inl ⟨rfl, rfl⟩) r, fun _ r => detector_running (.inr ⟨rfl, rfl⟩) r, fun _ h st => hostwake_run h st,
    fun _ _ _ h a st fr en => detector_resumes h a st fr en,
    fun _ _ k h on st en => .of_eq ((Detects.latch h).2.2.2 _) (by
      obtain ⟨lk, hk, -, -⟩ := Detects.latch h
      rw [detector_awake k (992 + k) (by rw [st]; decide)]
      exact raiseW_boots on st lk hk en),
    fun _ _ _ h su st => detector_ships h su st,
    fun _ on st en => .of_eq (exec_hostwake on st) (raiseW_boots (k := 2) on st rfl (by decide) en)⟩

end Sys2Proof.Machine
end

section
/-! SEQ_START, SEQ_STOP, RAIL_RETRY and STANDBY; requests for SLEEP and SHIP. -/

namespace Sys2Proof.Machine

open Sys2Proof

/-! SEQ_START and SEQ_STOP. -/

/-- The slot's packet done after a change of the power registers. -/
theorem doneWith_shows (op : Byte) (p : Packet) (s : State) (f : Pwr) :
    SlotShows 3 0 [] p (doneWith [] { taken op p s with pwr := f }) ∧ Only [.bus, .txn, .pwr] s (doneWith [] { taken op p s with pwr := f }) :=
  have o : Only [.bus, .txn, .pwr] (taken op p s) (doneWith [] { taken op p s with pwr := f }) := by simp [only_iff, doneWith, slotEnd]
  ⟨⟨rfl, rfl, rfl, rfl⟩, ((taken_only op p.tag s).weaken (by decide)).trans o⟩

theorem clearHeld_plain {s : State} (h : s.glob.st ≠ .stop) : clearHeld s = { s with pwr := { s.pwr with held := false } } := by
  unfold clearHeld
  rw [if_neg (fun x => h x.1)]

/-- SEQ_START's, SEQ_STOP's, STANDBY_ENTER's and STANDBY_EXIT's own checks and effects. -/
def seqStartBody (p : Packet) (s : State) : State := if p.params ≠ [] then reject 0x01 s else startCheck (doneWith [] (clearHeld s))
def seqStopBody (p : Packet) (s : State) : State :=
  if p.params ≠ [] then reject 0x01 s
  else
    let s := doneWith [] { s with pwr := { s.pwr with held := true } }
    if canStop s then commonStop true s else s
def standbyEnterBody (p : Packet) (s : State) : State :=
  if p.params ≠ [] ∨ s.glob.st ≠ .run then reject 0x01 s
  else if wakeDue s then reject 0x02 s
  else enterState .standby (wdStop (doneWith [] { s with pwr := { s.pwr with fromRun := true, idle := false } }))
def standbyExitBody (p : Packet) (s : State) : State :=
  if p.params ≠ [] ∨ s.glob.st ≠ .standby ∨ !s.pwr.fromRun then reject 0x01 s
  else wdArm (enterState .run (doneWith [] { s with pwr := { s.pwr with fromRun := false } }))

theorem exec_seqStart {s : State} {p : Packet} (h : Takes false p s) (hp : p.params = []) (st : s.glob.st ≠ .stop) : exec (.seqStart p) s =
    .next (startCheck (doneWith [] { taken 0x20 p s with pwr := { s.pwr with held := false } })) := by
  refine (exec_taken (op := 0x20) (body := seqStartBody p) h rfl).trans (congrArg Host.Outcome.next ((if_neg (fun x => x hp)).trans ?_))
  rw [clearHeld_plain (s := taken 0x20 p s) st]
  rfl

theorem seqStart_running {s : State} {p : Packet} (h : Takes false p s) (hp : p.params = []) (st : s.glob.st = .run) : Ends (.seqStart p) s (fun t =>
    SlotShows 3 0 [] p t ∧ t.pwr = { s.pwr with held := false } ∧ Only [.bus, .txn, .pwr] s t) := by
  have e := exec_seqStart h hp (by rw [st]; decide)
  rw [startCheck_run (s := doneWith [] { taken 0x20 p s with pwr := { s.pwr with held := false } }) st] at e
  obtain ⟨x, o⟩ := doneWith_shows 0x20 p s { s.pwr with held := false }
  exact .of_eq e ⟨x, rfl, o⟩

/-- The common start outside Floor mode, with a rail of the sequence to wait for. -/
theorem commonStart_waits {s : State} (hf : s.glob.floor = false) (m : maskOf (inseq (lv s)) &&& s.rl.pg ≠ maskOf (inseq (lv s))) :
    (commonStart s).glob.st = .start ∧ (commonStart s).seq.phase = 1 ∧ (commonStart s).rl = s.rl ∧ (commonStart s).pwr.held = s.pwr.held ∧
    SlotKept s (commonStart s) := by
  obtain ⟨w, u, e, hu, -, l⟩ := commonStart_settles hf
  have hw : fwdCheck u = u := fwdCheck_of_waiting (by rw [hu.seq]) (by rw [hu.lv, hu.rl]; exact m)
  have k := settleStart_seqKept u
  have ls := settleStart_after u
  rw [hw] at k ls
  rw [settle_of_start (.inl hu.st)] at e
  have le := enterState_leaves .start (startFrom s) (.refl _ _)
  have all : Leaves [.clk, .glob, .hk, .fl, .chg, .free, .seq, .pending] (startFrom s) (settleStart u) :=
    ((Leaves.then (.refl _ _) le (by decide)).then l (by decide)).then ls (by decide)
  rw [e]
  refine ⟨ls.st.trans hu.st, by rw [k, hu.seq], (show (settleStart u).rl = u.rl from ls.same .rl (by decide)).trans hu.rl, ?_, ?_⟩
  · rw [all.pwrKept]
    rfl
  · exact (SlotKept.of_eq (s := s) (t := startFrom s) rfl).trans all.slotKept

theorem seqStart_starts {s : State} {p : Packet} (h : Takes false p s) (hp : p.params = []) (st : s.glob.st = .standby) (id : s.pwr.idle = true)
    (rq : s.pwr.req = none) (bo : s.glob.boot = false) (q : s.inp.a.qual = true ∨ s.inp.b.qual = true)
    (m : maskOf (inseq (lv s)) &&& s.rl.pg ≠ maskOf (inseq (lv s))) : Ends (.seqStart p) s (fun t => SlotShows 3 0 [] p t ∧ t.pwr.held = false ∧
      t.glob.st = .start ∧ t.seq.phase = 1 ∧ t.rl = s.rl) := by
  have e := exec_seqStart h hp (by rw [st]; decide)
  obtain ⟨x, -⟩ := doneWith_shows 0x20 p s { s.pwr with held := false }
  obtain ⟨u, hu⟩ : ∃ u, u = doneWith [] { taken 0x20 p s with pwr := { s.pwr with held := false } } := ⟨_, rfl⟩
  rw [← hu] at e x
  have fl : s.glob.floor = false := by
    have := h.up
    simp only [packetsTaken, Bool.and_eq_true, Bool.not_eq_true'] at this
    exact this.2
  have hs : startCheck u = commonStart u := by
    have ok : startOk u = true := by
      rw [hu]
      show (!false && (s.inp.a.qual || s.inp.b.qual)) = true
      rcases q with q | q <;> simp [q]
    unfold startCheck
    rw [ok, show u.glob = s.glob by rw [hu]; rfl, show u.pwr.idle = true by rw [hu]; exact id, show u.pwr.req = none by rw [hu]; exact rq, bo, st]
    exact (if_neg (by decide)).trans (if_pos ⟨rfl, rfl, rfl⟩)
  rw [hs] at e
  obtain ⟨t1, t2, t3, t4, t5⟩ := commonStart_waits (s := u) (by rw [hu]; exact fl) (by rw [hu]; exact m)
  refine .of_eq e ⟨t5.shows x, t4.trans (by rw [hu]; rfl), t1, t2, t3.trans (by rw [hu]; rfl)⟩

theorem exec_seqStop {s : State} {p : Packet} (h : Takes false p s) (hp : p.params = []) : exec (.seqStop p) s =
    .next (let u := doneWith [] { taken 0x21 p s with pwr := { s.pwr with held := true } }
      if canStop s then commonStop true u else u) :=
  (exec_taken (op := 0x21) (body := seqStopBody p) h rfl).trans (congrArg Host.Outcome.next (if_neg (fun x => x hp)))

/-! RAIL_RETRY. -/

theorem railRetryBody_byte {p : Packet} {b : Byte} (h : p.params = [b]) (hb : b.toNat < 32) {s : State} (st : s.glob.st = .run ∨ s.glob.st = .standby) :
    railRetryBody p s = if !has s.seq.offhold b.toNat then reject 0x03 s
      else
        let s := { s with seq := { s.seq with offhold := s.seq.offhold &&& ~~~(bit b.toNat), retries := mput 0 s.seq.retries b.toNat 0 } }
        doneWith [] (restartSet (retrySet b.toNat s) s) := by
  have n : ¬ (s.glob.st ≠ .run ∧ s.glob.st ≠ .standby) := fun x => st.elim x.1 x.2
  unfold railRetryBody
  rw [h]
  exact (if_neg (by omega)).trans (if_neg n)

theorem railRetry_restarts {s : State} {p : Packet} {b : Byte} (h : Takes false p s) (hp : p.params = [b]) (hb : b.toNat < 32)
    (st : s.glob.st = .run ∨ s.glob.st = .standby) (ho : has s.seq.offhold b.toNat = true) : Ends (.railRetry p) s (fun t =>
      SlotShows 3 0 [] p t ∧ t.seq.offhold = s.seq.offhold &&& ~~~(bit b.toNat) ∧ has t.seq.wait b.toNat = true ∧
      t.seq.retries = mput 0 s.seq.retries b.toNat 0 ∧ Only [.bus, .txn, .seq, .clk] s t) := by
  obtain ⟨u, hu⟩ : ∃ u, u = { taken 0x22 p s with seq := { s.seq with offhold := s.seq.offhold &&& ~~~(bit b.toNat), retries := mput 0 s.seq.retries b.toNat 0 } } := ⟨_, rfl⟩
  have e : exec (.railRetry p) s = .next (doneWith [] (restartSet (retrySet b.toNat u) u)) := by
    refine (exec_taken (op := 0x22) h rfl).trans (congrArg Host.Outcome.next ?_)
    rw [hu]
    exact (railRetryBody_byte (s := taken 0x22 p s) hp hb st).trans (if_neg (by rw [show has (taken 0x22 p s).seq.offhold b.toNat = true from ho]; decide))
  have ou : Only [.bus, .txn, .seq, .clk] s u := by
    rw [hu]
    exact ((taken_only 0x22 p.tag s).weaken (by decide)).trans (by simp [only_iff, taken])
  have qu : u.seq = { s.seq with offhold := s.seq.offhold &&& ~~~(bit b.toNat), retries := mput 0 s.seq.retries b.toNat 0 } := by rw [hu]
  have tu : u.bus.tag = p.tag := by rw [hu]; rfl
  clear hu
  have hb' : has (retrySet b.toNat u) b.toNat = true := by
    unfold retrySet
    rw [has_or, has_bit_self hb]
    rfl
  obtain ⟨rq, -, ro⟩ := restartSet_spec (retrySet b.toNat u) u
  have rb : (restartSet (retrySet b.toNat u) u).bus = u.bus := ro .bus (by decide)
  generalize restartSet (retrySet b.toNat u) u = w at e rq ro rb
  refine .of_eq e ⟨⟨rfl, by rw [← tu, ← rb]; rfl, rfl, rfl⟩, ?_, ?_, ?_, (ou.trans (ro.weaken (by decide))).trans (by simp [only_iff, doneWith, slotEnd])⟩
  · show w.seq.offhold = _
    rw [rq, qu]
  · show has w.seq.wait b.toNat = true
    rw [rq]
    show has (u.seq.wait ||| retrySet b.toNat u) b.toNat = true
    rw [has_or, hb', Bool.or_true]
  · show w.seq.retries = _
    rw [rq, qu]

/-! STANDBY. -/

theorem enterState_raises {n : St} {s : State} (a : anvilOn s = true) (h : s.glob.st ≠ n) (hn : n = .run ∨ n = .standby) :
    isPend (enterState n s) (16 * 62 + 6) = true := by
  obtain ⟨u, d, e, -, au⟩ := enterState_reports h hn
  rw [e]
  exact isPend_logOther_kept _ _ _ _ (isPend_raiseG_self (au a) 62 6)

/-- Entering another state writes STATE and the one left, and no rail. -/
theorem enterState_turns {n : St} {s : State} (h : s.glob.st ≠ n) :
    (enterState n s).glob = { s.glob with st := n, left := s.glob.st } ∧ (enterState n s).rl = s.rl ∧ (enterState n s).safe = s.safe ∧
    (enterState n s).pwr.fromRun = s.pwr.fromRun ∧ SlotKept s (enterState n s) := by
  have l := enterState_leaves n s (.refl _ _)
  refine ⟨?_, l.same .rl (by decide), l.same .safe (by decide), ?_, l.slotKept⟩
  · rw [enterState_glob, if_neg h]
  · rw [l.pwrKept]

theorem standbyEnter_enters {s : State} {p : Packet} (h : Takes false p s) (hp : p.params = []) (st : s.glob.st = .run) (w : wakeDue s = false) :
    Ends (.standbyEnter p) s (fun t => SlotShows 3 0 [] p t ∧ t.glob = { s.glob with st := .standby, left := .run } ∧ isPend t (16 * 62 + 6) = true ∧
      t.pwr.fromRun = true ∧ t.safe.wdState = 0 ∧ t.rl = s.rl) := by
  obtain ⟨x, -⟩ := doneWith_shows 0xB2 p s { s.pwr with fromRun := true, idle := false }
  obtain ⟨u, hu⟩ : ∃ u, u = wdStop (doneWith [] { taken 0xB2 p s with pwr := { s.pwr with fromRun := true, idle := false } }) := ⟨_, rfl⟩
  have e : exec (.standbyEnter p) s = .next (enterState .standby u) := by
    rw [hu]
    refine (exec_taken (op := 0xB2) (body := standbyEnterBody p) h rfl).trans (congrArg Host.Outcome.next ((if_neg ?_).trans (if_neg ?_)))
    · exact fun y => y.elim (fun z => z hp) (fun z => z st)
    · rw [show wakeDue (taken 0xB2 p s) = wakeDue s from rfl, w]
      decide
  have on := takes_anvil h
  have au : anvilOn u = true := by rw [hu]; exact on
  have gu : u.glob = s.glob := by rw [hu]; rfl
  have ru : u.rl = s.rl := by rw [hu]; rfl
  have fu : u.pwr.fromRun = true := by rw [hu]; rfl
  have wu : u.safe.wdState = 0 := by rw [hu]; rfl
  have xu : SlotShows 3 0 [] p u := by rw [hu]; exact ⟨x.state, x.tag, x.err, x.results⟩
  have su : u.glob.st ≠ .standby := by
    rw [gu, st]
    decide
  obtain ⟨t1, t2, t3, t4, t5⟩ := enterState_turns su
  refine .of_eq e ⟨t5.shows xu, ?_, enterState_raises au su (.inr rfl), t4.trans fu, by rw [t3]; exact wu, t2.trans ru⟩
  rw [t1, gu, st]

theorem standbyExit_exits {s : State} {p : Packet} (h : Takes false p s) (hp : p.params = []) (st : s.glob.st = .standby) (fr : s.pwr.fromRun = true) :
    Ends (.standbyExit p) s (fun t => SlotShows 3 0 [] p t ∧ t.glob = { s.glob with st := .run, left := .standby } ∧ isPend t (16 * 62 + 6) = true ∧
      t.pwr.fromRun = false ∧ t.rl = s.rl) := by
  obtain ⟨x, -⟩ := doneWith_shows 0xB3 p s { s.pwr with fromRun := false }
  obtain ⟨u, hu⟩ : ∃ u, u = doneWith [] { taken 0xB3 p s with pwr := { s.pwr with fromRun := false } } := ⟨_, rfl⟩
  have e : exec (.standbyExit p) s = .next (wdArm (enterState .run u)) := by
    rw [hu]
    refine (exec_taken (op := 0xB3) (body := standbyExitBody p) h rfl).trans (congrArg Host.Outcome.next (if_neg ?_))
    rintro (y | y | y)
    · exact y hp
    · exact y st
    · rw [show (taken 0xB3 p s).pwr.fromRun = true from fr] at y
      cases y
  have on := takes_anvil h
  have au : anvilOn u = true := by rw [hu]; exact on
  have gu : u.glob = s.glob := by rw [hu]; rfl
  have ru : u.rl = s.rl := by rw [hu]; rfl
  have fu : u.pwr.fromRun = false := by rw [hu]; rfl
  have xu : SlotShows 3 0 [] p u := by rw [hu]; exact x
  have su : u.glob.st ≠ .run := by
    rw [gu, st]
    decide
  obtain ⟨t1, t2, -, t4, t5⟩ := enterState_turns su
  have rs := enterState_raises au su (.inl rfl)
  generalize enterState .run u = w at e t1 t2 t4 t5 rs
  have lw := wdArm_leaves w (.refl _ _)
  have gw : (wdArm w).glob = w.glob := lw.same .glob (by decide)
  refine .of_eq e ⟨(t5.trans lw.slotKept).shows xu, ?_, lw.pend rs, ?_, (show (wdArm w).rl = w.rl from lw.same .rl (by decide)).trans (t2.trans ru)⟩
  · rw [gw, t1, gu, st]
  · rw [lw.pwrKept]
    exact t4.trans fu

/-! Requests for SLEEP and SHIP. -/

theorem sleepWrites_leaves (s : State) : Leaves [.clk, .fl] s (sleepWrites s) := by
  unfold sleepWrites
  exact grant_leaves _ (.set (closeAll_leaves _ (.set (.refl _ s) (by simp [only_iff]))) (Only.refl _ _))

/-- What may be asked for. -/
structure Asks (s : State) : Prop where
  st : s.glob.st = .run ∨ s.glob.st = .standby
  req : s.pwr.req = none
  floor : s.glob.floor = false

theorem sleepBody_asks {p : Packet} (hp : p.params = []) (ship : Bool) {s : State} (h : Asks s) : sleepBody ship p s =
    if (lv s (key 0x44 0)).toNat / 2 % 4 = 0 ∨ vsysNow s < 3000 then reject 0x02 s
    else if !ship ∧ !anyWakeEn s then reject 0x03 s
    else startSleep ship (slotBusy s) := by
  unfold sleepBody
  rw [if_neg (fun x => x hp)]
  refine if_neg ?_
  rw [h.req, h.floor]
  rintro (x | x | x)
  · exact h.st.elim x.1 x.2
  · cases x
  · cases x

theorem sleepEnter_prepares {s : State} {p : Packet} (h : Takes false p s) (hp : p.params = []) (as : Asks s)
    (cell : (lv s (key 0x44 0)).toNat / 2 % 4 ≠ 0) (vs : 3000 ≤ vsysNow s) (en : anyWakeEn s = true) (w : wakeDue s = false) (off : s.rl.en = 0) :
    Ends (.sleepEnter p) s (fun t => t.bus.cstat = 2 ∧ t.bus.tag = p.tag ∧ t.pwr.req = some ⟨false, true⟩ ∧ t.glob.st = s.glob.st ∧ t.rl = s.rl) := by
  obtain ⟨u, hu⟩ : ∃ u, u = { disarm .idleslp (slotBusy (taken 0xB0 p s)) with pwr := { s.pwr with req := some ⟨false, true⟩ } } := ⟨_, rfl⟩
  have e : exec (.sleepEnter p) s = .next (sleepWrites u) := by
    rw [hu]
    have n1 : ¬ ((lv s (key 0x44 0)).toNat / 2 % 4 = 0 ∨ vsysNow s < 3000) := fun x => x.elim cell (fun y => by omega)
    have n2 : ¬ ((!false) = true ∧ (!anyWakeEn s) = true) := fun x => by rw [en] at x; cases x.2
    have n3 : ¬ wakeDue s = true := by rw [w]; decide
    exact (exec_taken (op := 0xB0) h rfl).trans (congrArg Host.Outcome.next ((sleepBody_asks (s := taken 0xB0 p s) hp false ⟨as.st, as.req, as.floor⟩).trans
      ((if_neg n1).trans ((if_neg n2).trans ((if_neg n3).trans (if_neg (fun x => x off)))))))
  have l := sleepWrites_leaves u
  have k := l.slotKept
  refine .of_eq e ⟨k.cstat.trans (by rw [hu]; rfl), k.tag.trans (by rw [hu]; rfl), ?_, ?_, ?_⟩
  · rw [l.pwrKept, hu]
  · exact l.st.trans (by rw [hu]; rfl)
  · exact (show (sleepWrites u).rl = u.rl from l.same .rl (by decide)).trans (by rw [hu]; rfl)

theorem shipEnter_stops {s : State} {p : Packet} (h : Takes false p s) (hp : p.params = []) (as : Asks s)
    (cell : (lv s (key 0x44 0)).toNat / 2 % 4 ≠ 0) (vs : 3000 ≤ vsysNow s) (w : wakeDue s = false) (on : s.rl.en ≠ 0) :
    ∃ u, exec (.shipEnter p) s = .next (commonStop true u) ∧ u.bus.cstat = 2 ∧ u.bus.tag = p.tag ∧ u.pwr.req = some ⟨true, false⟩ ∧
      Only [.bus, .txn, .pwr, .clk] s u := by
  have n1 : ¬ ((lv s (key 0x44 0)).toNat / 2 % 4 = 0 ∨ vsysNow s < 3000) := fun x => x.elim cell (fun y => by omega)
  have n2 : ¬ ((!true) = true ∧ (!anyWakeEn s) = true) := fun x => by cases x.1
  have n3 : ¬ wakeDue s = true := by rw [w]; decide
  refine ⟨disarm .idleslp { slotBusy (taken 0xB1 p s) with pwr := { s.pwr with req := some ⟨true, false⟩ } }, ?_, rfl, rfl, rfl, ?_⟩
  · exact (exec_taken (op := 0xB1) h rfl).trans (congrArg Host.Outcome.next ((sleepBody_asks (s := taken 0xB1 p s) hp true ⟨as.st, as.req, as.floor⟩).trans
      ((if_neg n1).trans ((if_neg n2).trans ((if_neg n3).trans (if_pos on))))))
  · exact ((taken_only 0xB1 p.tag s).weaken (by decide)).trans (by simp [only_iff, taken, slotBusy, disarm])

theorem idleslp_prepares {s : State} (a : anvilOn s = true) (st : s.glob.st = .standby) (id : s.pwr.idle = true) (rq : s.pwr.req = none)
    (qa : s.inp.a.qual = false) (qb : s.inp.b.qual = false) (on : pl s (key 0x60 1) ≠ 0) (w : wakeDue s = false) (off : s.rl.en = 0) :
    Ends .idleslp s (fun t => t.pwr.req = some ⟨false, true⟩ ∧ t.glob = s.glob ∧ t.rl = s.rl) := by
  obtain ⟨u, hu⟩ : ∃ u, u = { disarm .idleslp { disarm .idleslp s with pwr := { s.pwr with req := some ⟨false, false⟩ } } with
    pwr := { s.pwr with req := some ⟨false, true⟩ } } := ⟨_, rfl⟩
  have e : exec .idleslp s = .next (sleepWrites u) := by
    rw [hu]
    have c : (anvilOn s && decide (s.glob.st = .standby) && s.pwr.idle && s.pwr.req.isNone && !s.inp.a.qual && !s.inp.b.qual &&
        decide (pl s (key 0x60 1) ≠ 0)) = true := by
      rw [a, decide_eq_true st, id, rq, qa, qb, decide_eq_true on]
      rfl
    have n3 : ¬ wakeDue s = true := by rw [w]; decide
    exact congrArg Host.Outcome.next ((if_pos c).trans ((if_neg n3).trans (if_neg (fun x => x off))))
  have l := sleepWrites_leaves u
  refine .of_eq e ⟨?_, ?_, ?_⟩
  · rw [l.pwrKept, hu]
  · exact (show (sleepWrites u).glob = u.glob from l.same .glob (by decide)).trans (by rw [hu]; rfl)
  · exact (show (sleepWrites u).rl = u.rl from l.same .rl (by decide)).trans (by rw [hu]; rfl)

/-! The end of the writes. -/

/-- The core domain's drives off: no rail, the reset outputs asserted, in the state `n`. -/
structure Isolated (n : St) (t : State) : Prop where
  st : t.glob.st = n
  rl : t.rl = {}
  rst : t.seq.rst = 0x1F

theorem dropped_isolated {n : St} (s : State) (h : s.glob.st = n) : Isolated n (dropSlot (dropPower s)) := by
  have l := dropSlot_leaves (dropPower s) (.refl _ _)
  refine ⟨l.st.trans h, l.same .rl (by decide), ?_⟩
  have k := l.seqKept
  rw [k]
  rfl

/-- The registers of the isolated domain. -/
def isolateEnd (ship : Bool) (s : State) : State :=
  let s := { s with glob := { s.glob with fwup := false }
                    inp := { s.inp with inloss := false, inlossuv := false }
                    chg := { s.chg with phase := 0, defaults := false }
                    plt := { s.plt with monCp := 0, monPp := 0, monSeen := false }
                    pwr := { s.pwr with req := none, idle := false, fromRun := false, lastslp := if ship then 3 else 1, slpsec := 0, why := 0 } }
  if ship then disarmAll alwaysOnTimer { s with cal := {}, pwr := { s.pwr with wl := 0, slpsec := 0xFFFFFFFF } } else s

theorem isolate_eq (ship : Bool) (s : State) : ∃ w, isolate ship s = isolateEnd ship w ∧ Isolated (if ship then .ship else .sleep) w :=
  ⟨dropSlot (dropPower _), rfl, dropped_isolated _ (enterState_st _ _)⟩

theorem isolate_isolates (ship : Bool) (s : State) : Isolated (if ship then .ship else .sleep) (isolate ship s) ∧ (isolate ship s).glob.fwup = false ∧
    (isolate ship s).pwr.req = none ∧ (isolate ship s).pwr.lastslp = (if ship then 3 else 1) ∧
    (ship = false → (isolate ship s).pwr.slpsec = 0) ∧ (ship = true → (isolate ship s).cal = {} ∧ (isolate ship s).pwr.wl = 0) := by
  obtain ⟨w, e, h1, h2, h3⟩ := isolate_eq ship s
  rw [e]
  cases ship with
  | false => exact ⟨⟨h1, h2, h3⟩, rfl, rfl, rfl, fun _ => rfl, fun z => absurd z (by decide)⟩
  | true => exact ⟨⟨h1, h2, h3⟩, rfl, rfl, rfl, fun z => absurd z (by decide), fun _ => ⟨rfl, rfl⟩⟩

theorem exec_sleepPrepDone {s : State} {ship : Bool} (h : s.pwr.req = some ⟨ship, true⟩) : exec .sleepPrepDone s = .next (
    if !anvilOn s || sleepWriting s then s
    else if wakeDue s then
      (let s := abortSleep s
       if s.glob.st = .stop then arm (minoff (lv s)) .minoffEnd { s with seq := { s.seq with phase := 5 } } else startCheck s)
    else isolate ship s) := by
  show execSleepPrepDone s = _
  unfold execSleepPrepDone
  rw [h]

theorem sleepPrepDone_isolates {s : State} {ship : Bool} (a : anvilOn s = true) (h : s.pwr.req = some ⟨ship, true⟩) (w : sleepWriting s = false)
    (d : wakeDue s = false) : exec .sleepPrepDone s = .next (isolate ship s) := by
  rw [exec_sleepPrepDone h, a, w, d]
  rfl

theorem sleepPrepDone_aborts {s : State} {ship : Bool} (a : anvilOn s = true) (h : s.pwr.req = some ⟨ship, true⟩) (w : sleepWriting s = false)
    (d : wakeDue s = true) (st : s.glob.st = .run) : Ends .sleepPrepDone s (fun t => t.glob = s.glob ∧
    t.pwr.req = none ∧ t.pwr.lastslp = 2 ∧ isPend t (16 * 62 + 3) = true ∧ t.rl = s.rl) := by
  obtain ⟨u, hu⟩ : ∃ u, u = slpCommandEnd 0x01 { s with pwr := { s.pwr with req := none, lastslp := 2 } } := ⟨_, rfl⟩
  have pu : u.pwr = { s.pwr with req := none, lastslp := 2 } := by
    rw [hu]
    unfold slpCommandEnd
    split <;> rfl
  have lu : Leaves [.pwr, .bus] s u := by
    rw [hu]
    exact Leaves.then (.set (.refl _ s) (by simp [only_iff])) (slpCommandEnd_leaves _ _ (.refl _ _)) (by decide)
  have l : Leaves [.pwr, .bus] s (raiseG 62 3 u) := raiseG_leaves 62 3 u lu
  have e : exec .sleepPrepDone s = .next (raiseG 62 3 u) := by
    have s' : (raiseG 62 3 u).glob.st = .run := l.st.trans st
    rw [exec_sleepPrepDone h, a, w, d, ← startCheck_run s', hu]
    refine congrArg Host.Outcome.next ((if_neg (by decide)).trans ((if_pos rfl).trans (if_neg (show ¬ (abortSleep s).glob.st = .stop from ?_))))
    rw [hu] at s'
    rw [show (abortSleep s).glob.st = .run from s']
    decide
  refine .of_eq e ⟨l.same .glob (by decide), ?_, ?_, isPend_raiseG_self (lu.anvilOn.trans a) 62 3, l.same .rl (by decide)⟩
  · rw [(raiseG_leaves (l := []) 62 3 u (.refl _ _)).pwrKept, pu]
  · rw [(raiseG_leaves (l := []) 62 3 u (.refl _ _)).pwrKept, pu]

/-- Settles O43: each command by what it writes, and the end of the writes before sleep by the core domain's isolation. -/
theorem sequenceAndSleepRequests : Obligations.SequenceAndSleepRequests := by
  refine ⟨fun s p h hp st => seqStart_running h hp st, fun s p h hp st id rq bo q m => seqStart_starts h hp st id rq bo q m,
    fun s p h hp c => ⟨_, (exec_seqStop h hp).trans (congrArg Host.Outcome.next (if_pos c)), (doneWith_shows 0x21 p s _).1, rfl, (doneWith_shows 0x21 p s _).2⟩,
    fun s p h hp c => .of_eq ((exec_seqStop h hp).trans (congrArg Host.Outcome.next (if_neg (by rw [c]; decide))))
      ⟨(doneWith_shows 0x21 p s _).1, rfl, (doneWith_shows 0x21 p s _).2⟩,
    fun s p b h hp hb st ho => railRetry_restarts h hp hb st ho, fun s p b h hp hb st ho => ?_,
    fun s p h hp st w => standbyEnter_enters h hp st w, fun s p h hp st w => ?_, fun s p h hp st fr => standbyExit_exits h hp st fr,
    fun s p h hp st rq fl cell vs en w off => sleepEnter_prepares h hp ⟨st, rq, fl⟩ cell vs en w off,
    fun s p h hp st rq fl cell vs w on => shipEnter_stops h hp ⟨st, rq, fl⟩ cell vs w on, fun s p c hc h hp st rq fl bad => ?_,
    fun s p h hp st rq fl cell vs en => ?_, fun s a st id rq qa qb on w off => idleslp_prepares a st id rq qa qb on w off,
    fun s a h w d => ?_, fun s a h w d => ?_, fun s w => ?_, fun s b a h w d st => sleepPrepDone_aborts a h w d st⟩
  · exact .slotEnd h (op := 0x22) (body := railRetryBody p) rfl ((railRetryBody_byte (s := taken 0x22 p s) hp hb st).trans (if_pos (by
      rw [show has (taken 0x22 p s).seq.offhold b.toNat = false from ho]; rfl)))
  · refine .slotEnd (err := 2) (st := 5) (res := []) h (op := 0xB2) (body := standbyEnterBody p) rfl ((if_neg ?_).trans (if_pos w))
    exact fun y => y.elim (fun z => z hp) (fun z => z st)
  · rcases hc with rfl | rfl
    · exact .slotEnd h (op := 0xB0) (body := sleepBody false p) rfl ((sleepBody_asks (s := taken 0xB0 p s) hp false ⟨st, rq, fl⟩).trans (if_pos bad))
    · exact .slotEnd h (op := 0xB1) (body := sleepBody true p) rfl ((sleepBody_asks (s := taken 0xB1 p s) hp true ⟨st, rq, fl⟩).trans (if_pos bad))
  · refine .slotEnd h (op := 0xB0) (body := sleepBody false p) rfl ((sleepBody_asks (s := taken 0xB0 p s) hp false ⟨st, rq, fl⟩).trans ((if_neg ?_).trans (if_pos ⟨rfl, ?_⟩)))
    · exact fun x => x.elim cell (fun y => Nat.not_le.mpr y vs)
    · rw [show anyWakeEn (taken 0xB0 p s) = false from en]
      rfl
  · obtain ⟨⟨h1, h2, h3⟩, h4, h5, h6, h7, -⟩ := isolate_isolates false s
    exact .of_eq (sleepPrepDone_isolates a h w d) ⟨h1, h4, h2, h3, h5, h6, h7 rfl⟩
  · obtain ⟨⟨h1, h2, h3⟩, -, h5, h6, -, h8⟩ := isolate_isolates true s
    obtain ⟨h9, h10⟩ := h8 rfl
    exact .of_eq (sleepPrepDone_isolates a h w d) ⟨h1, h2, h6, h3, h5, h9, h10⟩
  · show execSleepPrepDone s = .next s
    unfold execSleepPrepDone
    split
    · exact congrArg Host.Outcome.next (if_pos (by rw [w]; exact Bool.or_true _))
    · rfl

end Sys2Proof.Machine
end

section
/-! SUPPORT. Host writes of command codes (R343 to R347). -/

namespace Sys2Proof

open Sys2Proof.Machine

theorem exec_write {s : State} (h : Served s) (w : BusWrite) : exec (.registerWrite w) s = .next (writeCode w s) := by
  show execRegisterWrite w s = _
  simp [execRegisterWrite, responder_of_busUp h.1, h.1]

/-- Without PEC a written byte is taken as it comes. -/
theorem pecFails_off {s : State} (k : pecOn s = false) (p : Pec) : pecFails s p = false := by
  unfold pecFails
  rw [show (pl s (key 0x4C 0)).getLsbD 0 = false from k, Bool.false_and]

theorem writeSeq_one {up : State → Bool} {s : State} {o : Nat} (h : up s = true) (ho : o ≤ 0xDF) (p : Nat) (v : Byte) :
    writeSeq (fun _ => true) up p o [v] s = writeReg p o v s := by
  simp [writeSeq, h, Nat.not_lt.mpr ho]

theorem writeCode_byte {s : State} (h : Served s) (k : pecOn s = false) {o : Byte} (ho : o.toNat < 0xE0) (v : Byte) :
    writeCode ⟨o, .writeByte, 0, [v], .none⟩ s = writeReg s.regs.page.toNat o.toNat v (ackAccess s) := by
  have l : listed o = true := by simp [listed]; omega
  have d : floorDenies s o = false := by simp [floorDenies, h.2]
  have p : pecFails s .none = false := pecFails_off k .none
  simp only [writeCode, l, d, Bool.not_true, Bool.or_self, Bool.false_eq_true, if_false, ho, if_true, reduceCtorEq, writeWindow, k,
    false_and, p]
  exact writeSeq_one (s := ackAccess s) h.1 (by omega) _ v

/-- A Write Byte to an offset of the selected page. -/
theorem exec_writeByte {s : State} (h : Served s) (k : pecOn s = false) {o : Byte} (ho : o.toNat < 0xE0) (v : Byte) :
    exec (.registerWrite ⟨o, .writeByte, 0, [v], .none⟩) s = .next (writeReg s.regs.page.toNat o.toNat v (ackAccess s)) :=
  (exec_write h _).trans (congrArg _ (writeCode_byte h k ho v))

/-! One byte at a page and an offset. -/

theorem writeReg_unallocated {s : State} {p o : Nat} (a : allocated p = false) (n : ¬(p = 0 ∧ o = 6)) (v : Byte) :
    writeReg p o v s = berrUnalloc (cancelKey s) := by simp [writeReg, a, n]

theorem writeReg_plain {s : State} {p o : Nat} (f : s.glob.floor = false) (a : allocated p = true) (n : ¬(p = 0 ∧ o = 6))
    (g : stagedPages.contains p = false) (v : Byte) : writeReg p o v s = writePlain p o v (cancelKey s) := by
  have f' : (cancelKey s).glob.floor = false := f
  simp only [writeReg, if_neg n, a, f', g, Bool.not_true, Bool.false_and, Bool.or_self, Bool.false_eq_true, if_false, Bool.not_false, if_true]

theorem writeReg_staged {s : State} {p o : Nat} (f : s.glob.floor = false) (g : stagedPages.contains p = true) (v : Byte) :
    writeReg p o v s = if o < 0x60 then writeStaging p o v (cancelKey s) else if o < 0x80 then writeStatus p o v (cancelKey s)
      else berrRorsv (cancelKey s) := by
  obtain ⟨a, -⟩ := stagedPages_cases g
  have n : ¬(p = 0 ∧ o = 6) := fun e => by rw [e.1] at g; exact absurd g (by decide)
  have f' : (cancelKey s).glob.floor = false := f
  simp only [writeReg, if_neg n, a, f', g, Bool.not_true, Bool.false_and, Bool.or_self, Bool.false_eq_true, if_false]

/-! A byte of one field. -/

theorem putBits_whole (b v : Byte) : putBits b 0 8 (v.toNat / 2 ^ 0 % 2 ^ 8) = v :=
  BitVec.eq_of_getLsbD_eq fun i hi => by rw [putBits_field _ _ _ _ hi, if_pos (by omega)]

theorem mergeByte_whole {f : Fd} {v : Byte} (a : f.acc ≠ .sc) (lo : f.lo = 0) (w : f.w = 8) (l : f.legal v.toNat = true) (old : Byte) :
    mergeByte [f] (fun _ => true) old v = (v, false) := by
  have l' : f.legal (v.toNat / 2 ^ 0 % 2 ^ 8) = true := by rwa [Nat.pow_zero, Nat.div_one, Nat.mod_eq_of_lt v.isLt]
  simp only [mergeByte, List.foldl_cons, List.foldl_nil, if_neg a, lo, w, l', Bool.not_true, Bool.false_eq_true, if_false, if_true, putBits_whole]

theorem plainByte_of {p o : Nat} {v b : Byte} {s : State} (m : mergeByte (byteFields p o) (fun _ => true) (pl s (key p o)) v = (b, false)) :
    plainByte p o v s = putPlain (key p o) [b] s := by
  unfold plainByte
  dsimp only
  rw [m]
  exact if_neg Bool.false_ne_true

theorem writeTable_byte {p o : Nat} (w : wideField p o = none) (f : (byteFields p o).isEmpty = false)
    (k : (byteFields p o).any (fun f => decide (f.acc = .lk)) = false) (v : Byte) (s : State) : writeTable p o v s = plainByte p o v s := by
  unfold writeTable
  rw [w]
  simp only [f, k, Bool.false_eq_true, if_false]

theorem writeTable_none {p o : Nat} (w : wideField p o = none) (f : (byteFields p o).isEmpty = true) (v : Byte) (s : State) :
    writeTable p o v s = berrRorsv s := by
  unfold writeTable
  rw [w]
  simp only [f, if_true]

end Sys2Proof
end

section
/-! Writes of command codes on the host bus, and the sleep-rate responder (R8, R27, R335, R339, R343, R344, R347). -/

namespace Sys2Proof

open Sys2Proof.Machine

theorem mergeByte_angofs (old v : Byte) : mergeByte (byteFields 1 0x0C) (fun _ => true) old v = (v, false) := by
  rw [show byteFields 1 0x0C = [⟨0x0C, 1, 0, 8, .rw, 0, []⟩] by decide]
  exact mergeByte_whole (by decide) rfl rfl (legal_free _ _ _ _ _ _ _) old

theorem writeReg_angofs {s : State} (f : s.glob.floor = false) (v : Byte) :
    writeReg 1 0x0C v s = putPlain (key 1 0x0C) [v] (cancelKey s) := by
  rw [writeReg_plain f (by decide) (by decide) (by decide)]
  show writeTable 1 0x0C v (cancelKey s) = _
  rw [writeTable_byte (by decide) (by decide) (by decide)]
  exact plainByte_of (mergeByte_angofs _ _)

theorem writeReg_cyccnt {s : State} (f : s.glob.floor = false) (v : Byte) : writeReg 1 0x04 v s = berrRorsv (cancelKey s) := by
  rw [writeReg_plain f (by decide) (by decide) (by decide)]
  show writeTable 1 0x04 v (cancelKey s) = _
  exact writeTable_none (by decide) (by decide) v _

/-! The sleep-rate responder. -/

theorem responder_sleep {s : State} (st : s.glob.st = .sleep) (v : vaonOn s = true) : responder s = true := by
  simp [responder, st, v]

/-- Settles O46: each code by its own case of the write, and in SLEEP by the responder's. -/
theorem hostWritesAndSleepResponder : Obligations.HostWritesAndSleepResponder := by
  refine ⟨fun s v h k p => ?_, fun s v h k p b => ?_, fun s w h l => ?_, fun s v h => ?_, fun s v h n => ?_, fun s v h n b => ?_,
    fun s h => ?_, fun s v h => ?_, fun s h k => ?_, fun s v st a c => ?_, fun s v st a c => ?_, fun s w st a n c => ?_⟩
  · refine .of_eq ((exec_writeByte h k (by decide) v).trans ?_) (t := putPlain (key 1 0x0C) [v] (cancelKey (ackAccess s))) ⟨rfl, rfl, rfl, ?_⟩
    · rw [p]
      exact congrArg Host.Outcome.next (writeReg_angofs (s := ackAccess s) h.2 v)
    · simp [only_iff, putPlain]
  · refine .of_eq ((exec_writeByte h k (by decide) v).trans ?_) (t := berrRorsv (cancelKey (ackAccess s))) ?_
    · rw [p]
      exact congrArg Host.Outcome.next (writeReg_cyccnt (s := ackAccess s) h.2 v)
    · obtain ⟨g, r, -⟩ := buserr_spec 0 (s := cancelKey (ackAccess s)) (anvilOn_served h)
      exact ⟨(buserr_leaves 0 _ (.refl _ _)).same .regs (by decide), g, r b⟩
  · show execRegisterWrite w s = _
    simp [execRegisterWrite, responder_of_busUp h, h, writeCode, l, nackAccess]
  · show Host.Outcome.next (pageByte v s) = _
    simp [pageByte, responder_of_busUp h.1, h.1, h.2, ackAccess]
  · show execCresofsWrite v s = _
    simp [execCresofsWrite, h.1, h.2, cresofsWord, Nat.not_lt.mpr n, ackAccess]
  · refine yields_raiseG (s' := { s with bus := { s.bus with nack := false }, glob := { s.glob with buserr := setBit s.glob.buserr 1 true } })
      (g := 56) (b := 12) (anvilOn_served h) ?_
    have up : (busUp s && !s.glob.floor) = true := by rw [h.1, h.2]; rfl
    exact congrArg Host.Outcome.next ((if_pos up).trans ((if_pos n).trans (buserr_new (s := ackAccess s) b)))
  · show execQuickCommand .quick s = _
    simp [execQuickCommand, h, ackAccess]
  · show execQuickCommand (.send v) s = _
    simp [execQuickCommand, responder_of_busUp h.1, h.1, ackAccess]
  · show execQuickCommand .receive s = _
    simp [execQuickCommand, h, receiveByte, k, drive, ackAccess]
  · show Host.Outcome.next (pageByte v s) = _
    simp only [pageByte, responder_sleep st a, if_true, c]
    rfl
  · show Host.Outcome.next (pageByte v s) = _
    simp only [pageByte, responder_sleep st a, if_true, c, if_false]
    rfl
  · show execRegisterWrite w s = _
    have c' : ¬(w.code.toNat < 0xE0 ∧ sleepWritesAt s.regs.page.toNat w.code.toNat = true) := by
      rintro ⟨lt, y⟩
      rcases c with ge | no
      · exact absurd lt (Nat.not_lt.mpr ge)
      · rw [no] at y; exact absurd y (by decide)
    simp only [execRegisterWrite, responder_sleep st a, if_true, writeSleep, n, if_false, c', nackAccess]

end Sys2Proof
end

section
/-! The events of the bus engine and their clears (R342, R343, R347, R350, R352, R383). -/

namespace Sys2Proof

open Sys2Proof.Machine

theorem anvilOn_notifies {s : State} (h : mayNotify s = true) : anvilOn s = true := by
  simp only [mayNotify, Bool.and_eq_true] at h
  exact busUp_anvil h.1.1.1.1

theorem busTimeout_yields {c : Instr} {s : State} (h : busUp s = true) (e : exec c s = .next (busTimeout s)) :
    Yields c s { s with bus := { s.bus with tmocnt := min 0xFFFF (1 + s.bus.tmocnt) } } [16 * 56 + 1] :=
  yields_raiseG (g := 56) (b := 1) (s' := { s with bus := { s.bus with tmocnt := min 0xFFFF (1 + s.bus.tmocnt) } }) (busUp_anvil h) e

/-- Settles O47: each event is one raise after its count, and each clear writes its own registers. -/
theorem busEvents : Obligations.BusEvents := by
  refine ⟨fun s h k => ?_, fun s h => ?_, fun s h a => ?_, fun s h a => ?_, fun s h => ?_, fun s h => ?_, fun s h n => ?_, fun s h => ?_,
    fun s => rfl, fun s h => ?_, fun s h => ?_⟩
  · exact busTimeout_yields h (congrArg Host.Outcome.next (if_pos (by rw [h, k]; rfl)))
  · exact busTimeout_yields h (congrArg Host.Outcome.next (if_pos h))
  · exact congrArg Host.Outcome.next ((if_neg (by simp [h, a])).trans (if_pos rfl))
  · exact congrArg Host.Outcome.next ((if_neg (by simp [h, a])).trans (if_neg Bool.false_ne_true))
  · have a := anvilOn_notifies h
    exact yields_raiseG (g := 56) (b := 2) (s' := { s with bus := { s.bus with hn := s.bus.hn - 1, hnLost := 0, rdata := notifyBytes s } })
      a (congrArg Host.Outcome.next (if_neg (by rw [h]; decide)))
  · have a := anvilOn_notifies h
    exact yields_raiseG (g := 56) (b := 3) (s' := { s with bus := { s.bus with hn := s.bus.hn - 1, hnLost := 0, rdata := (notifyBytes s).take 1 } })
      a (congrArg Host.Outcome.next (if_neg (by rw [h]; decide)))
  · refine congrArg Host.Outcome.next ((if_neg (by rw [h]; decide)).trans (if_neg ?_))
    show ¬3 ≤ s.bus.hnLost + 1
    omega
  · have a := anvilOn_notifies h
    exact yields_raiseG (g := 56) (b := 6) (s' := { s with bus := { s.bus with hnsusp := true } }) a
      (congrArg Host.Outcome.next (if_pos h))
  · exact .of_eq (exec_onPage h rfl) ⟨rfl, rfl, rfl, by simp [only_iff, heldclrBit, setHeld]⟩
  · exact .of_eq (exec_onPage h rfl) ⟨rfl, rfl, by simp [only_iff, busCntClr]⟩

end Sys2Proof
end

section
/-! The checks of a packet, and ECHO and GET_INFO (R353 to R357, R361, R362). -/

namespace Sys2Proof

open Sys2Proof.Machine

theorem packetsTaken_anvil {s : State} (h : packetsTaken s = true) : anvilOn s = true := by
  simp only [packetsTaken, Bool.and_eq_true] at h
  exact busUp_anvil h.1.1

theorem packet_refused {op : Byte} {priv : Bool} {p : Packet} {s : State} (h : packetsTaken s = false) (body : State → State) :
    packet op priv p body s = nackAccess s := if_pos (by rw [h]; rfl)

/-- A packet that no REGISTER_WRITE has brought meets its byte count first. -/
theorem packet_new {op : Byte} {priv : Bool} {p : Packet} {s : State} (h : packetsTaken s = true) (n : accepted op p s = false)
    (body : State → State) : ∃ run, packet op priv p body s = packetGate p.n run s :=
  ⟨_, (if_neg (by rw [h]; decide)).trans (if_neg (by rw [n]; decide))⟩

theorem packetGate_count {n : Nat} (h : n = 0 ∨ 64 < n) (run : State → State) (s : State) :
    packetGate n run s = berrRsvenc (nackAccess s) := if_pos h

theorem packetGate_busy {n : Nat} {s : State} (a : n ≠ 0) (b : n ≤ 64) (f : slotFree s = false) (run : State → State) :
    packetGate n run s = raiseG 56 11 (nackAccess { s with bus := { s.bus with nackn := satAdd 0xFFFF 1 s.bus.nackn } }) :=
  (if_neg (by omega)).trans (if_pos (by rw [f]; rfl))

/-- Settles O48: the packet's checks, one lemma each, and the bodies of ECHO and GET_INFO. -/
theorem commandSlot : Obligations.CommandSlot := by
  refine ⟨fun s p h => .slotEnd (op := 0x01) (body := doneWith p.params) h rfl rfl, fun s p h e => ?_, fun s p h e => ?_, fun s p h => ?_, fun s p h n b v => ?_,
    fun s p h n a b f => ?_, fun s p h a b f n => ?_, fun s p ok h l => ?_⟩
  · exact .slotEnd (op := 0x02) (body := fun s => if p.params ≠ [] then reject 0x01 s else doneWith (infoBytes s) s) h rfl (if_neg (by simp [e]))
  · exact .slotEnd (op := 0x02) (body := fun s => if p.params ≠ [] then reject 0x01 s else doneWith (infoBytes s) s) h rfl (if_pos e)
  · exact congrArg Host.Outcome.next (packet_refused h _)
  · obtain ⟨run, e⟩ := packet_new (priv := false) h n (fun s => doneWith p.params s)
    refine yields_raiseG (g := 56) (b := 12)
      (s' := { s with bus := { s.bus with nack := true }, glob := { s.glob with buserr := setBit s.glob.buserr 1 true } }) (packetsTaken_anvil h) ?_
    exact congrArg Host.Outcome.next (e.trans ((packetGate_count b run s).trans (buserr_new (s := nackAccess s) v)))
  · obtain ⟨run, e⟩ := packet_new (priv := false) h n (fun s => doneWith p.params s)
    refine yields_raiseG (g := 56) (b := 11)
      (s' := { s with bus := { s.bus with nack := true, nackn := min 0xFFFF (1 + s.bus.nackn) } }) (packetsTaken_anvil h) ?_
    exact congrArg Host.Outcome.next (e.trans (packetGate_busy a b f run))
  · exact .of_eq (congrArg Host.Outcome.next (packet_len h a b f n _)) (slotEnd_shows 0x01 p s 5 0xF1 [])
  · exact .of_eq (congrArg Host.Outcome.next (packet_locked h l _)) (slotEnd_shows 0x61 p s 5 0xF2 [])

end Sys2Proof
end

section
/-! Privileged sessions (R358, R359). -/

namespace Sys2Proof

open Sys2Proof.Machine

/-- What a wrong proof leaves in the bus engine: the nonce used up, the count of failures, and the lock from the third on. -/
theorem wrongProof_spec (l : Nat) {u : State} (k : u.bus.lock = false) :
    (wrongProof l u).bus = { u.bus with nonce := none, failn := u.bus.failn + 1, lock := decide (2 ≤ u.bus.failn), hn := (wrongProof l u).bus.hn } ∧
    (2 ≤ u.bus.failn → Armed (sec 60) .sesslockEnd u (wrongProof l u)) := by
  obtain ⟨v, hv⟩ : ∃ v, v = disarm .nonceExpire (logSecurity 2 l 0 { u with bus := { u.bus with nonce := none, failn := u.bus.failn + 1 } }) := ⟨_, rfl⟩
  have lv : Leaves [.clk] { u with bus := { u.bus with nonce := none, failn := u.bus.failn + 1 } } v := by
    rw [hv]
    exact disarm_leaves _ _ (logOther_leaves (l := [.clk]) 6 0x3FF _ _ (.refl _ _))
  have bv := lv.busKept (by decide)
  have fv : v.bus.failn = u.bus.failn + 1 := congrArg Bus.failn bv
  have e : wrongProof l u = if v.bus.failn ≥ 3 then
      arm (sec 60) .sesslockEnd (raiseG 56 10 (logSecurity 3 l 0 { v with bus := { v.bus with lock := true } })) else v := by
    rw [hv]; rfl
  rw [e, fv]
  clear hv e
  by_cases f : 2 ≤ u.bus.failn
  · rw [if_pos (by omega), decide_eq_true f]
    have lw := raiseG_leaves 56 10 _ (logOther_leaves (l := []) 6 0x3FF (BitVec.ofNat 32 (3 + 256 * l + 65536 * 0)) { v with bus := { v.bus with lock := true } } (.refl _ _))
    have bw := lw.busKept (by decide)
    refine ⟨?_, fun _ => ?_⟩
    · refine bw.trans ?_
      rw [bv]
      rfl
    · have m := arm_arms (sec 60) .sesslockEnd (raiseG 56 10 (logSecurity 3 l 0 { v with bus := { v.bus with lock := true } }))
      unfold Armed at m ⊢
      have n : (raiseG 56 10 (logSecurity 3 l 0 { v with bus := { v.bus with lock := true } })).clk.now = u.clk.now := lw.now.trans lv.now
      rwa [n] at m
  · rw [if_neg (by omega), decide_eq_false f]
    refine ⟨?_, fun y => absurd y f⟩
    rw [bv]
    simp [k]

theorem closeSession_open {s : State} (h : s.bus.level ≠ 0) : closeSession s = raiseG 56 9 (disarm .sesstmo { s with bus := { s.bus with level := 0 } }) :=
  if_neg h

/-- A session that was open ends with SESSCLOSE. -/
theorem closeSession_spec {s : State} (a : anvilOn s = true) : (closeSession s).bus.level = 0 ∧ (closeSession s).bus.tag = s.bus.tag ∧
    (s.bus.level ≠ 0 → isPend (closeSession s) (16 * 56 + 9) = true) := by
  by_cases h : s.bus.level = 0
  · rw [show closeSession s = s from if_pos h]
    exact ⟨h, rfl, fun n => absurd h n⟩
  · rw [closeSession_open h]
    exact ⟨by simp, by simp, fun _ => isPend_raiseG_self (s := disarm .sesstmo { s with bus := { s.bus with level := 0 } }) a 56 9⟩

/-- Settles O49: each command's own checks, and what the session, its nonce and its lock become. -/
theorem sessions : Obligations.Sessions := by
  refine ⟨fun s p v h e c lv lk k => ?_, fun s p n l h nc len lk e => ?_, fun s p n l h nc len lk e => ?_, fun s p h => ?_, fun s a h => ?_,
    fun s => .of_eq (t := disarm .nonceExpire { s with bus := { s.bus with nonce := none } }) rfl ⟨rfl, by simp [only_iff]⟩, fun s h => ?_⟩
  · have b : sessionOpenBody p (taken 0x90 p s) = arm (sec 10) .nonceExpire (doneWith (nonceNow s)
        { taken 0x90 p s with free := s.free + 1, bus := { (taken 0x90 p s).bus with nonce := some (nonceNow s, v.toNat) } }) := by
      unfold sessionOpenBody
      rw [e]
      refine (if_neg (by tauto)).trans ((if_neg (not_not.mpr lv)).trans ((if_neg (by rw [show (taken 0x90 p s).bus.lock = s.bus.lock from rfl, lk]; decide)).trans
        ((if_neg ?_).trans (Eq.refl _))))
      show ¬(List.range 64).all (fun i => decide (fuse s.otp.shd 4 i = 0)) = true
      simpa using k
    refine .of_eq ((exec_taken (op := 0x90) h rfl).trans (congrArg Host.Outcome.next b)) ⟨⟨rfl, rfl, rfl, rfl⟩, rfl, arm_arms (sec 10) .nonceExpire _, lv, ?_⟩
    exact ((taken_only 0x90 p.tag s).weaken (m := [.bus, .txn, .free, .clk]) (by decide)).trans (by simp [only_iff, doneWith, slotEnd, taken])
  · have b : sessionProveBody p (taken 0x91 p s) = touchSession (raiseG 56 8 (logSecurity 1 l 0 (disarm .nonceExpire
        (doneWith [] { taken 0x91 p s with bus := { (taken 0x91 p s).bus with nonce := none, failn := 0, level := l } })))) := by
      unfold sessionProveBody
      rw [show (taken 0x91 p s).bus.nonce = some (n, l) from nc]
      exact (if_neg (not_not.mpr len)).trans ((if_neg (by rw [show (taken 0x91 p s).bus.lock = s.bus.lock from rfl, lk]; decide)).trans (if_pos e))
    refine .of_eq ((exec_taken (op := 0x91) h rfl).trans (congrArg Host.Outcome.next b)) ?_
    obtain ⟨u, hu⟩ : ∃ u, u = logSecurity 1 l 0 (disarm .nonceExpire
        (doneWith [] { taken 0x91 p s with bus := { (taken 0x91 p s).bus with nonce := none, failn := 0, level := l } })) := ⟨_, rfl⟩
    have a := takes_anvil h
    have lu : Leaves [.clk] (doneWith [] { taken 0x91 p s with bus := { (taken 0x91 p s).bus with nonce := none, failn := 0, level := l } }) u := by
      rw [hu]; exact logOther_leaves (l := [.clk]) 6 0x3FF _ _ (disarm_leaves _ _ (.refl _ _))
    have bu := lu.busKept (by decide)
    have au : anvilOn u = true := by rw [lu.anvilOn]; exact a
    rw [← hu]
    clear hu lu
    have pr := isPend_raiseG_self au 56 8
    have bw := (raiseG_leaves 56 8 u (.refl [] _)).busKept (by decide)
    have ks : (touchSession (raiseG 56 8 u)).bus = (raiseG 56 8 u).bus := touchSession_bus _
    refine ⟨⟨?_, ?_, ?_, ?_⟩, ?_, ?_, ?_, ?_⟩
    iterate 7 rw [ks, bw, bu]; rfl
    unfold touchSession
    split
    · exact pr
    · exact pr
  · have b : sessionProveBody p (taken 0x91 p s) = reject 0x02 (wrongProof l (taken 0x91 p s)) := by
      unfold sessionProveBody
      rw [show (taken 0x91 p s).bus.nonce = some (n, l) from nc]
      exact (if_neg (not_not.mpr len)).trans ((if_neg (by rw [show (taken 0x91 p s).bus.lock = s.bus.lock from rfl, lk]; decide)).trans (if_neg e))
    obtain ⟨bw, ar⟩ := wrongProof_spec l (u := taken 0x91 p s) lk
    refine .of_eq ((exec_taken (op := 0x91) h rfl).trans (congrArg Host.Outcome.next b)) ⟨⟨rfl, ?_, rfl, rfl⟩, ?_, ?_, ?_, ?_, ar⟩
    · exact congrArg Bus.tag bw
    · exact (congrArg (fun b : Bus => b.level) bw :)
    · exact congrArg (fun b : Bus => b.nonce) bw
    · exact congrArg (fun b : Bus => b.failn) bw
    · exact congrArg (fun b : Bus => b.lock) bw
  · have a := takes_anvil h
    obtain ⟨l, t, r⟩ := closeSession_spec (s := taken 0x92 p s) a
    refine .of_eq (exec_taken (op := 0x92) (body := fun s => doneWith [] (closeSession s)) h rfl) ⟨⟨rfl, t, rfl, rfl⟩, l, r⟩
  · obtain ⟨l, -, r⟩ := closeSession_spec (s := disarm .sesstmo s) a
    exact .of_eq (t := closeSession (disarm .sesstmo s)) rfl ⟨l, r h⟩
  · refine .of_eq (congrArg (fun u => Host.Outcome.next (disarm .sesslockEnd u)) (if_pos h)) ⟨rfl, by simp [only_iff]⟩

end Sys2Proof
end

section
/-! SELF_RESET: the reverse sequence and the system reset (R364). -/

namespace Sys2Proof.Machine

open Sys2Proof

/-- A commit that no slot waits for ends without touching the slot. -/
theorem endCommit_aside {c : Commit} {s : State} (h : c.slot = false) (o : s.bus.op ≠ 0x11) (e : CommitEnd) : Leaves [.clk, .txn] s (endCommit c e s) := by
  unfold endCommit
  extract_lets txn a b d b6 cres
  have la : Leaves [.clk, .txn] s a := Leaves.then ((Leaves.refl _ s).set (by simp [only_iff])) (disarm_leaves _ _ (.refl _ _)) (by decide)
  have ld : Leaves [.clk, .txn] s d := raiseG_leaves _ _ _ (logOther_leaves _ _ _ _ la)
  have od : d.bus.op ≠ 0x11 := by rw [ld.slotKept.op]; exact o
  clear_value d
  rw [if_neg (by rw [h]; decide), if_neg (by simp only [Bool.and_eq_true, decide_eq_true_eq]; exact fun x => od x.2)]
  exact ld

theorem preempt_aside {s : State} (h : ∀ c, s.txn.cur = some c → c.slot = false) (o : s.bus.op ≠ 0x11) (kind : Nat) (reach : Mask) :
    Leaves [.clk, .txn] s (preempt kind reach s) := by
  unfold preempt
  split
  · exact .refl _ s
  · rename_i c e
    refine .ite (fun _ => endCommit_aside (h c e) o _) fun _ => ?_
    split
    · exact endCommit_aside (h c e) o _
    · exact .refl _ s

/-- The common stop as far as its last step: what the rails then wait for, and that the state is STOP. -/
structure Stopping (complete : Bool) (s t : State) : Prop where
  phase : t.seq.phase = 4
  complete : t.seq.complete = complete
  up : t.rl.up = s.rl.up &&& (~~~s.seq.retryWait ||| s.rl.en)
  st : t.glob.st = .stop
  powered : Powered s t
  rstcause : t.glob.rstcause = s.glob.rstcause

theorem enterState_rstcause (n : St) (s : State) : (enterState n s).glob.rstcause = s.glob.rstcause := by rw [enterState_glob]

theorem stopEntry_seqKept (s : State) : (stopEntry s).seq = { s.seq with cnt := (stopEntry s).seq.cnt, rst := 0x1F, rstRun := 0 } := by
  obtain ⟨e, he⟩ : ∃ e, e = preempt 2 0 (disarmAll stopTimers (enterState .stop { s with pwr := { s.pwr with idle := false, fromRun := false } })) := ⟨_, rfl⟩
  have le : Leaves [.clk, .glob, .hk, .fl, .pwr, .txn, .bus] s e := by
    rw [he]
    refine Leaves.then ?_ (preempt_leaves _ _ _ (.refl _ _)) (by decide)
    refine Leaves.then ?_ (disarmAll_leaves _ _ (.refl _ _)) (by decide)
    refine Leaves.then ?_ (enterState_leaves _ _ (.refl _ _)) (by decide)
    exact (Leaves.refl _ s).set (by simp [only_iff])
  have q : (stopEntry s).seq = { e.seq with rst := 0x1F, rstRun := 0 } := by
    rw [he]
    exact assertAll_seq _
  have k := le.seqKept
  unfold SeqKept at k
  rw [q, k]

theorem stopEntry_rstcause (s : State) : (stopEntry s).glob.rstcause = s.glob.rstcause := by
  have w (u : State) : (wdStop u).glob = u.glob := (wdStop_leaves u (.refl _ _)).same .glob (by decide)
  have a (u : State) : (assertAll u).glob = u.glob := (assertAll_leaves u (.refl _ _)).same .glob (by decide)
  have p (u : State) : (preempt 2 0 u).glob = u.glob := (preempt_leaves 2 0 u (.refl _ _)).same .glob (by decide)
  have d (u : State) : (disarmAll stopTimers u).glob = u.glob := (disarmAll_leaves _ u (.refl _ _)).same .glob (by decide)
  unfold stopEntry
  rw [w, a, p, d, enterState_rstcause]

theorem stopEntry_slotKept {s : State} (h : ∀ c, s.txn.cur = some c → c.slot = false) (o : s.bus.op ≠ 0x11) : SlotKept s (stopEntry s) := by
  have w (u : State) : (wdStop u).bus = u.bus := rfl
  have a (u : State) : (assertAll u).bus = u.bus := rfl
  obtain ⟨e, he⟩ : ∃ e, e = disarmAll stopTimers (enterState .stop { s with pwr := { s.pwr with idle := false, fromRun := false } }) := ⟨_, rfl⟩
  have le : Leaves [.clk, .glob, .hk, .fl, .pwr] s e := by
    rw [he]
    refine Leaves.then ?_ (disarmAll_leaves _ _ (.refl _ _)) (by decide)
    refine Leaves.then ?_ (enterState_leaves _ _ (.refl _ _)) (by decide)
    exact (Leaves.refl _ s).set (by simp [only_iff])
  have te : e.txn = s.txn := le.same .txn (by decide)
  have lp := preempt_aside (s := e) (by rw [te]; exact h) (by rw [le.slotKept.op]; exact o) 2 0
  refine (le.slotKept.trans lp.slotKept).trans (.of_eq ?_)
  rw [he]
  unfold stopEntry
  rw [w, a]

theorem commonStop_settles (c : Bool) (s : State) : ∃ q, commonStop c s = settle q ∧ Stopping c s q ∧
    ((∀ x, s.txn.cur = some x → x.slot = false) → s.bus.op ≠ 0x11 → SlotKept s q) := by
  rw [commonStop_eq]
  have le := stopEntry_leaves s
  have pe := stopEntry_powered s
  have se := stopEntry_st s
  have qe := stopEntry_seqKept s
  have ce := stopEntry_rstcause s
  have ke := fun h o => stopEntry_slotKept (s := s) h o
  have re : (stopEntry s).rl = s.rl := le.same .rl (by decide)
  generalize stopEntry s = e at le pe se qe ce ke re ⊢
  have lp := stopPlan_leaves c e
  have rp : (stopPlan c e).rl.up = e.rl.up &&& (~~~e.seq.retryWait ||| e.rl.en) := rfl
  have fp : (stopPlan c e).seq.phase = 4 := rfl
  have cp : (stopPlan c e).seq.complete = c := rfl
  generalize stopPlan c e = p at lp rp fp cp ⊢
  obtain ⟨q, hq⟩ : ∃ q, q = (rails p.rl.en).foldl (fun u r => arm (offDly (lv u) r * tickLen p.seq.tick) (.railOffDelay (railF r)) u) p := ⟨_, rfl⟩
  have lq : Leaves [.clk] p q := by rw [hq]; exact foldl_arm_leaves _ _ _ _ (.refl _ _)
  have kq := lq.seqKept
  refine ⟨q, by rw [hq], ⟨?_, ?_, ?_, ?_, (pe.trans lp.powered).trans lq.powered, ?_⟩, fun h o => ?_⟩
  · rw [kq]; exact fp
  · rw [kq]; exact cp
  · rw [lq.same .rl (by decide), rp, re, qe]
  · rw [lq.st, lp.st, se]
  · rw [show q.glob = p.glob from lq.same .glob (by decide), show p.glob = e.glob from lp.same .glob (by decide), ce]
  · exact ((ke h o).trans lp.slotKept).trans lq.slotKept

theorem settle_stopping {c : Bool} {s q : State} (h : Stopping c s q) : ∃ v, Leaves [.pending, .clk, .seq] q v ∧ SeqKept q v ∧
    settle q = if s.rl.up &&& (~~~s.seq.retryWait ||| s.rl.en) = 0 then stopEnd v else v := by
  have f : fwdCheck q = q := fwdCheck_of_not_start (by simp [h.st])
  have l := settleStart_after q
  have k := settleStart_seqKept q
  rw [f] at l k
  have st : (settleStart q).glob.st = .stop := l.st.trans h.st
  have ph : (settleStart q).seq.phase = 4 := by rw [k]; exact h.phase
  have up : (settleStart q).rl.up = s.rl.up &&& (~~~s.seq.retryWait ||| s.rl.en) := by
    rw [show (settleStart q).rl = q.rl from l.same .rl (by decide), h.up]
  refine ⟨settleStart q, l, k, ?_⟩
  rw [settle_eq, if_neg (by rw [st]; decide), up]
  by_cases u : s.rl.up &&& (~~~s.seq.retryWait ||| s.rl.en) = 0
  · rw [if_pos ⟨st, ph, u⟩, if_pos u]
  · rw [if_neg (fun x => u x.2.2), if_neg u]

/-- The end of the reverse sequence carries out the reset that is wanted. -/
theorem stopEnd_resets {s : State} {c : RstCause} (h : s.glob.pendRst = some c) :
    stopEnd s = systemReset c { s with glob := { s.glob with minoffAfterBoot := true } } := by
  unfold stopEnd
  rw [h]

end Sys2Proof.Machine

namespace Sys2Proof

open Sys2Proof.Machine

/-- Settles O51: the common stop under COMPLETE, which ends in the reset (`commonStop_settles`, `settle_stopping`). -/
theorem selfReset : Obligations.SelfReset := by
  refine ⟨fun s p h e st b => ?_, fun s p h e => ?_⟩
  · obtain ⟨v, hv⟩ : ∃ v, v = { slotBusy (taken 0xF0 p s) with
        glob := { s.glob with rstcause := setBit s.glob.rstcause 3 true, pendRst := some .cmd }, pwr := { s.pwr with req := none } } := ⟨_, rfl⟩
    have x : exec (.selfReset p) s = .next (commonStop true v) := by
      refine (exec_taken (op := 0xF0) (body := fun s => if p.params ≠ [] ∨ (s.glob.st ≠ .run ∧ s.glob.st ≠ .standby) then reject 0x01 s
        else requestReset .cmd (slotBusy s)) h rfl).trans (congrArg Host.Outcome.next ((if_neg ?_).trans ?_))
      · rw [show (taken 0xF0 p s).glob = s.glob from rfl]
        rintro (n | ⟨n, m⟩)
        · exact n e
        · exact st.elim n m
      · rw [hv]
        refine (if_neg ?_).trans (if_neg ?_)
        · rintro (y | y)
          · exact absurd (b.symm.trans y) (by decide)
          · rcases st with st | st <;> exact absurd (st.symm.trans y) (by decide)
        · intro y
          rcases st with st | st <;> exact absurd (st.symm.trans y) (by decide)
    have aside : ∀ c, v.txn.cur = some c → c.slot = false := by
      rw [hv]
      intro c hc
      obtain ⟨d, -, rfl⟩ := Option.map_eq_some_iff.mp (show s.txn.cur.map (fun c => { c with slot := false }) = some c from hc)
      rfl
    obtain ⟨q, eq, stop, slot⟩ := commonStop_settles true v
    have sq := slot aside (by rw [hv]; exact (by decide : (0xF0 : Byte) ≠ 0x11))
    obtain ⟨w, lw, kw, ew⟩ := settle_stopping stop
    have up : v.rl.up &&& (~~~v.seq.retryWait ||| v.rl.en) = s.rl.up &&& (~~~s.seq.retryWait ||| s.rl.en) := by rw [hv]; rfl
    rw [up] at ew
    have gw : w.glob = q.glob := lw.same .glob (by decide)
    have pw : w.glob.pendRst = some .cmd := by rw [gw, stop.powered.pendRst, hv]
    by_cases u : s.rl.up &&& (~~~s.seq.retryWait ||| s.rl.en) = 0
    · rw [if_pos u, stopEnd_resets pw] at ew
      obtain ⟨bt, rc, -⟩ := bootStart_spec (.sys .cmd) { w with glob := { w.glob with minoffAfterBoot := true } }
      refine .of_eq (x.trans (congrArg _ (eq.trans ew))) ⟨?_, fun n => absurd u n, fun _ => bt⟩
      rw [systemReset, rc]
      exact getLsbD_setBit_self (by decide) _ true
    · rw [if_neg u] at ew
      have sw := sq.trans lw.slotKept
      refine .of_eq (x.trans (congrArg _ (eq.trans ew))) ⟨?_, fun _ => ⟨?_, pw, ?_, ?_, ?_⟩, fun n => absurd n u⟩
      · rw [gw, stop.rstcause, hv]
        exact getLsbD_setBit_self (by decide) _ true
      · rw [gw, stop.st]
      · rw [kw]; exact stop.complete
      · rw [sw.cstat, hv]; rfl
      · rw [sw.tag, hv]; rfl
  · exact .slotEnd (op := 0xF0) (body := fun s => if p.params ≠ [] ∨ (s.glob.st ≠ .run ∧ s.glob.st ≠ .standby) then reject 0x01 s
        else requestReset .cmd (slotBusy s)) h rfl (if_pos e)

end Sys2Proof
end

section
/-! SUPPORT. What the operations leave alone, raise marks apart, function by function. -/

namespace Sys2Proof.Machine

open Sys2Proof

variable {z : State} {l : List Part}

theorem assertFor_leaves (m : Mask) (s : State) (hs : Leaves [.clk, .seq] z s) :
    Leaves [.clk, .seq] z (assertFor m s) := by
  unfold assertFor
  repeat' (first
    | with_reducible assumption | with_reducible intro _ | subst x | with_reducible apply Leaves.ite
    | (with_reducible apply Leaves.after (assertRst_leaves _ _ (Leaves.refl _ _)); rotate_left; decide)
    | with_reducible apply leaves_foldl)

theorem switchOffSet_leaves (named quiet : Mask) (s : State) (hs : Leaves [.clk, .free, .qt, .inp, .rl, .bk, .seq, .safe, .pat, .chg] z s) :
    Leaves [.clk, .free, .qt, .inp, .rl, .bk, .seq, .safe, .pat, .chg] z (switchOffSet named quiet s) := by
  unfold switchOffSet
  repeat' (first
    | with_reducible assumption | with_reducible intro _ | subst x
    | (extract_lets +onlyGivenNames x; have hx : Leaves [.clk, .free, .qt, .inp, .rl, .bk, .seq, .safe, .pat, .chg] z x := ?_; clear_value x)
    | (extract_lets +onlyGivenNames x; clear_value x)
    | (with_reducible apply Leaves.after (switchOff_leaves _ _ _ (Leaves.refl _ _)); rotate_left; decide)
    | (with_reducible apply Leaves.after (assertFor_leaves _ _ (Leaves.refl _ _)); rotate_left; decide)
    | with_reducible apply raiseG_leaves | with_reducible apply leaves_foldl)

theorem cancelPending_leaves (m : Mask) (s : State) (hs : Leaves [.clk, .seq, .ds] z s) :
    Leaves [.clk, .seq, .ds] z (cancelPending m s) := by
  unfold cancelPending
  repeat' (first
    | with_reducible assumption | with_reducible intro _ | subst x | with_reducible apply Leaves.ite
    | (with_reducible apply Leaves.after (disarm_leaves _ _ (Leaves.refl _ _)); rotate_left; decide)
    | with_reducible apply leaves_foldl | dsimp only | assumption)

theorem slotError_leaves (err : Byte) (s : State) (hs : Leaves [.bus] z s) :
    Leaves [.bus] z (slotError err s) := by
  unfold slotError
  repeat' (first
    | with_reducible assumption | with_reducible intro _ | subst x
    | (with_reducible apply Leaves.after (slotEnd_leaves _ _ _ _ (Leaves.refl _ _)); rotate_left; decide))

theorem pollStart_leaves (s : State) (hs : Leaves [.ds] z s) :
    Leaves [.ds] z (pollStart s) := by
  unfold pollStart
  repeat' (first
    | with_reducible assumption | with_reducible intro _ | subst x | with_reducible apply Leaves.ite | split
    | (with_reducible apply Leaves.after (setDs_leaves _ _ (Leaves.refl _ _)); rotate_left; decide))

theorem jobError_leaves (e : Byte) (s : State) (hs : Leaves [.bus, .ds] z s) :
    Leaves [.bus, .ds] z (jobError e s) := by
  unfold jobError
  repeat' (first
    | with_reducible assumption | with_reducible intro _ | subst x
    | (extract_lets +onlyGivenNames x; have hx : Leaves [.bus, .ds] z x := ?_; clear_value x)
    | with_reducible apply Leaves.ite | split
    | (with_reducible apply Leaves.after (pollStart_leaves _ (Leaves.refl _ _)); rotate_left; decide)
    | (with_reducible apply Leaves.after (setDs_leaves _ _ (Leaves.refl _ _)); rotate_left; decide)
    | (with_reducible apply Leaves.after (slotError_leaves _ _ (Leaves.refl _ _)); rotate_left; decide))

theorem pollFail_leaves (k : Nat) (s : State) (hs : Leaves [.ds] z s) :
    Leaves [.ds] z (pollFail k s) := by
  unfold pollFail
  repeat' (first
    | with_reducible assumption | with_reducible intro _ | subst x
    | (extract_lets +onlyGivenNames x; have hx : Leaves [.ds] z x := ?_; clear_value x)
    | (extract_lets +onlyGivenNames x; clear_value x)
    | (with_reducible apply Leaves.after (setDs_leaves _ _ (Leaves.refl _ _)); rotate_left; decide)
    | with_reducible apply raiseIf_leaves)

end Sys2Proof.Machine
end

section
/-! The downstream port (R351, R365 to R367). -/

namespace Sys2Proof

open Sys2Proof.Machine

/-- A change of the port's registers commutes with raises. -/
theorem Raised.setDs {l : List Nat} {s t : State} (h : Raised l s t) (d : Ds) : Raised l { s with ds := d } { t with ds := d } where
  rest := congrArg (fun u : State => { u with ds := d }) h.rest
  kept := h.kept
  marked := h.marked
  others := h.others
  counted := h.counted
  latched := h.latched
  latchKept := h.latchKept

theorem SeqKept.offhold {s t : State} (h : SeqKept s t) : t.seq.offhold = s.seq.offhold := by
  unfold SeqKept at h
  rw [h]

theorem Raised.ds {l : List Nat} {s t : State} (h : Raised l s t) : t.ds = s.ds := (congrArg (·.ds) h.rest :)

end Sys2Proof

namespace Sys2Proof.Machine

open Sys2Proof

theorem portOn_fw {s : State} (h : portOn s = true) : fwOn s = true := by
  unfold portOn at h
  exact (Bool.and_eq_true_iff.mp h).1

theorem mayPoll_on {s : State} (h : mayPoll s = true) : portOn s = true ∧ s.ds.failed = false ∧ s.ds.poll = none ∧ pl s (key 0x4D 4) ≠ 0 := by
  simp only [mayPoll, Bool.and_eq_true, Bool.not_eq_true', Option.isNone_iff_eq_none, decide_eq_true_eq] at h
  obtain ⟨⟨⟨⟨⟨⟨on, -⟩, n⟩, f⟩, -⟩, p⟩, -⟩ := h
  exact ⟨on, f, p, n⟩

theorem pollStart_idle {s : State} (h : s.ds.pollDue = false) : pollStart s = s := if_neg (by rw [h, Bool.false_and]; exact Bool.false_ne_true)

theorem pollStart_failed {s : State} (h : s.ds.failed = true) : pollStart s = s := by
  refine if_neg ?_
  rw [Bool.and_eq_true]
  exact fun x => absurd (h.symm.trans (mayPoll_on x.2).2.1) (by decide)

/-! Transfers. -/

theorem jobError_of {s : State} {j : DsJob} (h : s.ds.job = some j) (d : s.ds.pollDue = false) (x : slotHas s 0x03 = true) (e : Byte) :
    jobError e s = slotError e { s with ds := { s.ds with job := none } } := by
  unfold jobError
  rw [h]
  dsimp only
  rw [pollStart_idle (s := setDs (fun d => { d with job := none }) s) d]
  exact if_pos x

/-- A transfer ends with its error after the event that ends it. -/
theorem jobError_raised {s : State} {j : DsJob} (a : anvilOn s = true) (h : s.ds.job = some j) (d : s.ds.pollDue = false) (x : slotHas s 0x03 = true)
    (g b : Nat) (e : Byte) : (jobError e (raiseG g b s)).ds = { s.ds with job := none } ∧ (jobError e (raiseG g b s)).bus.cstat = 4 ∧
    (jobError e (raiseG g b s)).bus.err = e ∧ isPend (jobError e (raiseG g b s)) (16 * g + b) = true ∧ Only ([.ds] ++ raiseParts) s (jobError e (raiseG g b s)) := by
  have l := raiseG_leaves (l := []) g b s (.refl _ _)
  have p := isPend_raiseG_self a g b
  have ds : (raiseG g b s).ds = s.ds := l.same .ds (by decide)
  have o : Only raiseParts s (raiseG g b s) := l.only
  have x' : slotHas (raiseG g b s) 0x03 = true := (l.slotKept.slotHas 0x03).trans x
  generalize raiseG g b s = u at ds o p x' ⊢
  rw [jobError_of (by rw [ds]; exact h) (by rw [ds]; exact d) x', ds]
  refine ⟨rfl, rfl, rfl, p, (o.weaken (by decide)).trans ?_⟩
  simp [only_iff, slotError, slotEnd, raiseParts]

theorem exec_dsXferDone {s : State} {j : DsJob} (on : fwOn s = true) (c : s.ds.clearing = 0) (p : s.ds.poll = none) (h : s.ds.job = some j) (e : DsEnd) :
    exec (.dsXferDone e) s = .next (jobEnd j e s) := by
  show execDsXferDone e s = _
  unfold execDsXferDone
  rw [h]
  exact congrArg Host.Outcome.next (if_pos (by rw [on, c, p]; rfl))

/-! Polls. -/

/-- The end of a poll that started since the last command. -/
theorem exec_dsPoll_end {s : State} {k : Nat} (h : mayPoll s = true) (n : nextPoll s = some k) (e : DsEnd) :
    exec (.dsPoll (some e)) s = .next (pollEnd k e s) := by
  have p := (mayPoll_on h).2.2.1
  show execDsPoll (some e) s = _
  unfold execDsPoll
  dsimp only
  rw [p]
  dsimp only
  rw [if_pos h, n]

theorem pollFail_fresh {s : State} {k : Nat} (h : s.ds.bad.getLsbD k = false) : pollFail k s = raise (16 * 57 + 10) (setDs (fun d =>
    { d with ok := setBit d.ok k false, bad := setBit d.bad k true, pollIdx := (k + 1) % 12, pollTries := 0 }) s) := by
  unfold pollFail
  rw [h]
  rfl

/-- A poll that is due starts at once, and DSPOLLT runs anew. -/
theorem exec_dsPoll_due {s : State} {k : Nat} (h : mayPoll s = true) (n : nextPoll s = some k) : exec (.dsPoll none) s = .next (setDs (fun d =>
    { d with pollDue := false, poll := some (k, ⟨rdBits (pl s) (key 0x4D (0x10 + k)) 0 7, [pl s (key 0x4D (0x20 + k))], 2, 0, none⟩) })
    (arm (ms (10 * (pl s (key 0x4D 4)).toNat)) (.dsPoll none) (disarm (.dsPoll none) (setDs (fun d => { d with pollDue := true }) s)))) := by
  obtain ⟨on, f, -, nz⟩ := mayPoll_on h
  obtain ⟨u, hu⟩ : ∃ u, u = disarm (.dsPoll none) (setDs (fun d => { d with pollDue := true }) s) := ⟨_, rfl⟩
  have nz' : ¬(pl s (key 0x4D 4)).toNat = 0 := fun x => nz (BitVec.eq_of_toNat_eq x)
  have w : pollWatch u = arm (ms (10 * (pl s (key 0x4D 4)).toNat)) (.dsPoll none) u := by
    have pu : pl u = pl s := by rw [hu]; rfl
    have ou : portOn u = true := by rw [hu]; exact on
    have fu : u.ds.failed = false := by rw [hu]; exact f
    unfold pollWatch
    dsimp only
    rw [pu, ou, fu, if_pos (by simp [nz']), if_neg (by rw [hu, armed_disarm]; decide)]
  have st : pollStart (arm (ms (10 * (pl s (key 0x4D 4)).toNat)) (.dsPoll none) u) = setDs (fun d =>
      { d with pollDue := false, poll := some (k, ⟨rdBits (pl s) (key 0x4D (0x10 + k)) 0 7, [pl s (key 0x4D (0x20 + k))], 2, 0, none⟩) })
      (arm (ms (10 * (pl s (key 0x4D 4)).toNat)) (.dsPoll none) u) := by
    obtain ⟨v, hv⟩ : ∃ v, v = arm (ms (10 * (pl s (key 0x4D 4)).toNat)) (.dsPoll none) u := ⟨_, rfl⟩
    have dv : v.ds.pollDue = true := by rw [hv, hu]; rfl
    have mv : mayPoll v = true := by rw [hv, hu]; exact h
    have nv : nextPoll v = some k := by rw [hv, hu]; exact n
    have pv : pl v = pl s := by rw [hv, hu]; rfl
    rw [← hv]
    unfold pollStart
    rw [dv, mv, nv, pv]
    exact Eq.refl _
  have e : exec (.dsPoll none) s = .next (pollStart (pollWatch u)) := by
    rw [hu]
    exact congrArg Host.Outcome.next (if_pos on)
  rw [e, w, st, hu]

/-! Lines that are stuck. -/

/-- Outside a cut the port fails with what it was doing. -/
def failedPort (s : State) : State := pollWatch (jobError 0x05 (raiseG 57 8 (setDs (fun d => { d with failed := true, clearing := 0 }) s)))

theorem portFailed_eq {s : State} (h : s.ds.failed = false) :
    portFailed s = if (pl (failedPort s) (key 0x4D 2)).getLsbD 7 then startCut (failedPort s) else failedPort s := if_neg (by rw [h]; decide)

theorem pollWatch_failed {s : State} (h : s.ds.failed = true) : (pollWatch s).ds = { s.ds with pollDue := false, poll := none } := by
  unfold pollWatch
  rw [h]
  dsimp only
  rw [if_neg (by simp)]
  rfl

theorem jobError_failed {s : State} (h : s.ds.failed = true) (e : Byte) : (jobError e s).ds = { s.ds with job := none } := by
  unfold jobError
  split
  · dsimp only
    rw [pollStart_failed (s := setDs (fun d => { d with job := none }) s) h]
    split <;> rfl
  · next n => rw [← n]

theorem failedPort_spec {s : State} (a : anvilOn s = true) : (failedPort s).ds = { s.ds with
      failed := true, clearing := 0, job := none, pollDue := false, poll := none } ∧ isPend (failedPort s) 920 = true ∧
    Leaves [.clk, .ds, .bus] s (failedPort s) := by
  obtain ⟨u, hu⟩ : ∃ u, u = setDs (fun d => { d with failed := true, clearing := 0 }) s := ⟨_, rfl⟩
  have l := raiseG_leaves (l := []) 57 8 u (.refl _ _)
  have p := isPend_raiseG_self (s := u) (by rw [hu]; exact a) 57 8
  have ds : (raiseG 57 8 u).ds = u.ds := l.same .ds (by decide)
  have f : (raiseG 57 8 u).ds.failed = true := by rw [ds, hu]; rfl
  have je := jobError_failed f 0x05
  have jl := jobError_leaves 0x05 (raiseG 57 8 u) (.refl _ _)
  have pw := pollWatch_failed (s := jobError 0x05 (raiseG 57 8 u)) (by rw [je]; exact f)
  have pwl := pollWatch_leaves (jobError 0x05 (raiseG 57 8 u)) (.refl _ _)
  have lu : Leaves [.ds] s u := by rw [hu]; exact setDs_leaves _ _ (.refl _ _)
  refine ⟨?_, ?_, ?_⟩
  · unfold failedPort
    rw [← hu, pw, je, ds, hu]
    rfl
  · unfold failedPort
    rw [← hu]
    exact pwl.pend (jl.pend p)
  · unfold failedPort
    rw [← hu]
    exact ((((Leaves.refl _ s).then lu (by decide)).then l (by decide)).then jl (by decide)).then pwl (by decide)

/-- A bus clear that has freed SDA. -/
theorem busCleared_eq {s : State} (h : s.ds.pollDue = false) : busCleared s = raiseG 57 7 { s with ds := { s.ds with clearing := 0, stuckSda := false } } := by
  refine pollStart_idle ?_
  rw [show (raiseG 57 7 (setDs (fun d => { d with clearing := 0, stuckSda := false }) s)).ds = _ from
    (raiseG_leaves (l := []) 57 7 _ (.refl _ _)).same .ds (by decide)]
  exact h

theorem exec_dsBusClear {s : State} (on : portOn s = true) (f : s.ds.failed = false) (c : s.ds.clearing = 0 ∨ s.ds.clearing = 3) (x : Option Bool) :
    exec (.dsBusClear x) s = .next (match x with
      | none => setDs (fun d => { d with clearing := 3 }) s
      | some true => busCleared s
      | some false => setDs (fun d => { d with clearing := 1 }) s) :=
  congrArg Host.Outcome.next (if_pos (by rw [on, f, decide_eq_true c]; rfl))

/-! The cut. -/

/-- A rail that goes off: it alone, and no hold. -/
theorem switchOff_sets (q : Bool) (r : Nat) (s : State) :
    (switchOff q r s).rl.en = s.rl.en &&& ~~~(bit r) ∧ (switchOff q r s).seq.offhold = s.seq.offhold := by
  unfold switchOff
  by_cases h : has s.rl.en r = true
  swap
  · rw [if_pos (by simpa using h)]
    refine ⟨(BitVec.eq_of_getLsbD_eq fun i hi => ?_), rfl⟩
    by_cases e : i = r
    · subst e
      rw [show s.rl.en.getLsbD i = false by simpa [has] using h]
      simp [show s.rl.en.getLsbD i = false by simpa [has] using h]
    · simp [bit, hi, e]
  rw [if_neg (by simp [h])]
  extract_lets b late u gone rl0 sq0 sf0 v w x y
  have lu : Leaves [.clk, .inp, .rl, .bk, .pat, .qt] s u := by
    refine Leaves.then ?_ (clearRail_leaves r _ (.refl _ _)) (by decide)
    exact .ite (fun _ => (Leaves.refl _ s).then (breach_leaves s (.refl _ s)) (by decide)) fun _ => .refl _ s
  have eu : u.rl.en = s.rl.en := by
    have br : (if q = true then breach s else s).rl = s.rl := by
      split
      · exact (breach_leaves s (.refl _ s)).same .rl (by decide)
      · rfl
    exact (clearRail_rl r _).1.trans (congrArg Rails.en br)
  have ou : u.seq.offhold = s.seq.offhold := lu.seqKept.offhold
  have ev : w.rl.en = s.rl.en &&& ~~~b := congrArg (· &&& ~~~b) eu
  have sv : w.seq.offhold = s.seq.offhold := ou
  clear_value u
  clear lu eu ou
  clear_value w
  have hx : Leaves [.clk, .free, .chg] w x :=
    .ite (fun _ => (Leaves.refl _ w).then (arm_leaves _ _ w (.refl _ _)) (by decide)) fun _ => .refl _ w
  clear_value x
  have hy : Leaves [.clk, .free, .chg] w y := by
    refine .ite (fun _ => ?_) fun _ => hx
    exact (hx.then (disarm_leaves _ _ (.refl _ _)) (by decide)).then (chgSettle_leaves _ (.refl _ _)) (by decide)
  clear_value y
  have fin (z : State) (h : Leaves [.clk, .free, .chg] w z) : z.rl.en = s.rl.en &&& ~~~b ∧ z.seq.offhold = s.seq.offhold := by
    have rl : z.rl = w.rl := h.same .rl (by decide)
    rw [rl, h.seqKept.offhold]
    exact ⟨ev, sv⟩
  split
  · exact fin w (.refl _ w)
  · split
    · exact fin _ (hy.then (arm_leaves _ _ _ (.refl _ _)) (by decide))
    · exact fin _ (hy.then (arm_leaves _ _ _ (.refl _ _)) (by decide))

/-- Once every rail of a list is switched off, none of them is enabled, nor one that was off before. -/
theorem foldl_switchOff_sets {q : State → Nat → Bool} (xs : List Nat) (s : State) :
    (∀ r, r ∈ xs ∨ has s.rl.en r = false → has (xs.foldl (fun s r => switchOff (q s r) r s) s).rl.en r = false) ∧
    (xs.foldl (fun s r => switchOff (q s r) r s) s).seq.offhold = s.seq.offhold := by
  induction xs generalizing s with
  | nil => exact ⟨fun r h => h.elim (fun m => nomatch m) id, rfl⟩
  | cons x xs ih =>
    obtain ⟨en, off⟩ := switchOff_sets (q s x) x s
    obtain ⟨a, b⟩ := ih (switchOff (q s x) x s)
    refine ⟨fun r h => a r ?_, b.trans off⟩
    rw [en]
    rcases h with h | h
    · rcases List.mem_cons.mp h with rfl | h
      · exact .inr (has_not_bit s.rl.en r)
      · exact .inl h
    · exact .inr (by rw [has_and, h, Bool.false_and])

theorem switchOffSet_spec {m quiet : Mask} {r : Nat} (h : has m r = true) (s : State) :
    has (switchOffSet m quiet s).rl.en r = false ∧ (switchOffSet m quiet s).seq.offhold = s.seq.offhold := by
  unfold switchOffSet
  extract_lets d all dep a b
  have la : Leaves [.clk, .seq] s a := assertFor_leaves all s (.refl _ s)
  have oa : a.seq.offhold = s.seq.offhold := by
    refine List.foldlRecOn (motive := fun u : State => u.seq.offhold = s.seq.offhold) (List.range 5) _ rfl fun u hu x _ => ?_
    split
    · exact hu
    · exact hu
  have ra : a.rl = s.rl := la.same .rl (by decide)
  obtain ⟨en, off⟩ := foldl_switchOff_sets (q := fun s r => quenchAttr (lv s) r) (rails (all &&& a.rl.en)) a
  have lb : Leaves [] b ((rails dep).foldl (fun s r => raiseG r 12 s) b) := leaves_foldl (fun u x hu => raiseG_leaves _ _ _ hu) (.refl _ b)
  rw [show ((rails dep).foldl (fun s r => raiseG r 12 s) b).rl = b.rl from lb.same .rl (by decide), lb.seqKept.offhold]
  refine ⟨en r ?_, off.trans oa⟩
  cases e : has a.rl.en r
  · exact .inr rfl
  · refine .inl (mem_rails.mpr ?_)
    rw [has_and, e, show has all r = true by rw [has_or, h, Bool.true_or], Bool.and_self]

theorem cancelPending_offhold (m : Mask) (s : State) : (cancelPending m s).seq.offhold = s.seq.offhold ∧ (cancelPending m s).ds.failed = s.ds.failed := by
  unfold cancelPending
  refine List.foldlRecOn (motive := fun u : State => u.seq.offhold = s.seq.offhold ∧ u.ds.failed = s.ds.failed) (rails m) _ ⟨rfl, ?_⟩ fun u hu x _ => hu
  dsimp only
  split <;> rfl

/-- The cut takes its rail off without a hold, and its restart is armed. -/
theorem startCut_spec {s : State} (a : anvilOn s = true) (st : s.glob.st = .run) : (startCut s).ds.failed = s.ds.failed ∧ (startCut s).ds.cut = true ∧
    has (startCut s).rl.en (cutRail s) = false ∧ (startCut s).seq.offhold = s.seq.offhold ∧ isPend (startCut s) 921 = true ∧
    (∀ k, isPend s k = true → isPend (startCut s) k = true) ∧ Armed (ms (10 * (pl s (key 0x4D 3)).toNat)) .dsCutRestart s (startCut s) := by
  have hr : cutRail s < 32 := by
    unfold cutRail rdBits
    exact Nat.mod_lt _ (by decide)
  unfold startCut
  extract_lets r d all retry back u v w
  obtain ⟨p, hp⟩ : ∃ p, p = preempt 3 all s := ⟨_, rfl⟩
  have lp : Leaves [.clk, .txn, .bus] s p := by rw [hp]; exact preempt_leaves _ _ _ (.refl _ _)
  have lu : Leaves [.clk, .txn, .bus, .seq, .ds] s u := by
    unfold u
    rw [← hp]
    exact ((Leaves.refl _ s).then lp (by decide)).then (cancelPending_leaves all p (.refl _ _)) (by decide)
  obtain ⟨ou, fu⟩ : u.seq.offhold = s.seq.offhold ∧ u.ds.failed = s.ds.failed := by
    unfold u
    rw [← hp]
    obtain ⟨o, f⟩ := cancelPending_offhold all p
    exact ⟨o.trans (lp.seqKept.offhold), f.trans (congrArg Ds.failed (lp.same .ds (by decide)))⟩
  clear_value u
  have lv' : Leaves [.qt] u v := .ite (fun _ => breach_leaves u (.refl _ u)) fun _ => .refl _ u
  clear_value v
  obtain ⟨e, he⟩ : ∃ e, e = switchOffSet (bit r) 0 v := ⟨_, rfl⟩
  have le : Leaves [.clk, .free, .qt, .inp, .rl, .bk, .seq, .safe, .pat, .chg] v e := by rw [he]; exact switchOffSet_leaves _ _ _ (.refl _ _)
  obtain ⟨en, oe⟩ : has e.rl.en r = false ∧ e.seq.offhold = v.seq.offhold := by rw [he]; exact switchOffSet_spec (has_bit_self hr) v
  have lw : Leaves [] e w := by unfold w; rw [← he]; exact raiseG_leaves 57 9 e (.refl _ e)
  have ae : anvilOn e = true := by rw [le.anvilOn, lv'.anvilOn, lu.anvilOn]; exact a
  have pw : isPend w 921 = true := by unfold w; rw [← he]; exact isPend_raiseG_self ae 57 9
  clear_value w
  have all' : Leaves [.clk, .txn, .bus, .seq, .ds, .free, .qt, .inp, .rl, .bk, .safe, .pat, .chg] s w :=
    (((((Leaves.refl _ s).then lu (by decide)).then lv' (by decide)).then le (by decide)).then lw (by decide))
  obtain ⟨z, hz⟩ : ∃ z, z = arm (ms (10 * (pl w (key 0x4D 3)).toNat)) .dsCutRestart (setDs (fun x => { x with cut := true, cutSet := back, recheck := false }) w) := ⟨_, rfl⟩
  have lz : Leaves [.clk, .ds] w z := by rw [hz]; exact ((Leaves.refl _ w).then (setDs_leaves _ w (.refl _ w)) (by decide)).then (arm_leaves _ _ _ (.refl _ _)) (by decide)
  have dz : z.ds = { w.ds with cut := true, cutSet := back, recheck := false } := by rw [hz]; rfl
  have az : Armed (ms (10 * (pl w (key 0x4D 3)).toNat)) .dsCutRestart w z := by
    rw [hz]
    exact arm_arms _ .dsCutRestart (setDs (fun x => { x with cut := true, cutSet := back, recheck := false }) w)
  rw [← hz]
  clear hz
  have sz : z.glob.st = .run := by rw [lz.st, all'.st, st]
  have fz : fwdCheck z = z := fwdCheck_of_not_start (by rw [sz]; decide)
  have ls := settleStart_after z
  have ks := settleStart_seqKept z
  rw [fz] at ls ks
  have ts := settle_times z (.inl (by rw [sz]; decide)) (.refl z)
  have es : settle z = settleStart z := settle_of_start (.inr sz)
  rw [es] at ts ⊢
  have dt : (settleStart z).ds = z.ds := ls.same .ds (by decide)
  have rt : (settleStart z).rl = z.rl := ls.same .rl (by decide)
  have dw : w.ds = u.ds := by
    rw [show w.ds = e.ds from lw.same .ds (by decide), show e.ds = v.ds from le.same .ds (by decide), show v.ds = u.ds from lv'.same .ds (by decide)]
  refine ⟨?_, ?_, ?_, ?_, ls.pend (lz.pend pw), fun k hk => ls.pend (lz.pend (all'.pend hk)), ?_⟩
  · rw [dt, dz, dw]; exact fu
  · rw [dt, dz]
  · rw [rt, show z.rl = w.rl from lz.same .rl (by decide), show w.rl = e.rl from lw.same .rl (by decide)]; exact en
  · rw [ks.offhold, lz.seqKept.offhold, lw.seqKept.offhold]
    exact oe.trans ((lv'.seqKept.offhold).trans ou)
  · have m := (ts .dsCutRestart rfl _).mpr az
    rw [all'.now, pl_congr (all'.same .regs (by decide))] at m
    exact m

theorem settleStart_timed {e : Instr} (hr : ∀ x, .resetRelease x ≠ e) (hs : ∀ x, .retrySpaceEnd x ≠ e) (s : State) :
    Timed e (fwdCheck s) (settleStart s) := by
  have fold {α : Type} {f : State → α → State} (h : ∀ u x, Timed e u (f u x)) (xs : List α) (u : State) : Timed e u (xs.foldl f u) :=
    List.foldlRecOn (motive := fun v => Timed e u v) xs f (.refl e u) fun v hv x _ => hv.trans (h v x)
  have q (c : Instr) (u : State) : Timed e u (enqueueOnce c u) := .of_eq (by unfold enqueueOnce; split <;> rfl)
  have resets : Timed e (fwdCheck s) (settleResets (fwdCheck s)) := by
    refine fold (fun u x => ?_) _ _
    refine timed_ite (.refl e u) (timed_ite (timed_ite (.refl e u) ?_) (timed_ite ?_ (.refl e u)))
    · exact Timed.trans (.of_eq rfl) (arm_timed (hr _) _ _)
    · exact Timed.trans (.of_eq rfl) (disarm_timed (hr _) _)
  have on (u : State) : Timed e u (settleOn u) := fold (fun v x => timed_ite (q _ v) (.refl e v)) _ u
  have off (u : State) : Timed e u (settleOff u) := fold (fun v x => timed_ite (q _ v) (.refl e v)) _ u
  refine ((resets.trans (on _)).trans (off _)).trans (fold (fun u x => ?_) _ _)
  exact timed_ite (arm_timed (hs _) _ _) (.refl e u)

/-- A restart of a set: each of its rails waits for its delay after the smallest one. -/
theorem restartSet_arms {m : Mask} {r : Rail} (h : has m r.val = true) (s : State) :
    Armed ((onDly (lv s) r.val - (rails m).foldl (fun n x => min n (onDly (lv s) x)) 255) *
      tickLen (match s.seq.t0 with | some _ => s.seq.tick | none => tickCode (lv s))) (.railEnable r) s (restartSet m s) := by
  unfold restartSet
  extract_lets rs lo t _ u
  have own {x : Nat} (hx : x < 32) (e : railF x = r) : r.val = x := by rw [← e]; exact Nat.mod_eq_of_lt hx
  have fold (xs : List Nat) (v : State) (hv : v.clk.now = s.clk.now ∧ lv v = lv s) (small : ∀ x ∈ xs, x < 32) (hr : r.val ∈ xs) :
      Armed ((onDly (lv s) r.val - lo) * t) (.railEnable r) s (xs.foldl (fun s r => arm ((onDly (lv s) r - lo) * t) (.railEnable (railF r)) s) v) := by
    induction xs generalizing v with
    | nil => exact absurd hr List.not_mem_nil
    | cons x xs ih =>
      by_cases mem : r.val ∈ xs
      · exact ih _ hv (fun y hy => small y (List.mem_cons_of_mem _ hy)) mem
      · obtain rfl : r.val = x := (List.mem_cons.mp hr).resolve_right mem
        have one := arm_arms ((onDly (lv v) r.val - lo) * t) (.railEnable (railF r.val)) v
        rw [show railF r.val = r from Fin.ext (Nat.mod_eq_of_lt r.isLt), hv.2] at one
        have rest : Timed (.railEnable r) (arm ((onDly (lv s) r.val - lo) * t) (.railEnable r) v)
            (xs.foldl (fun s r => arm ((onDly (lv s) r - lo) * t) (.railEnable (railF r)) s) (arm ((onDly (lv s) r.val - lo) * t) (.railEnable r) v)) := by
          refine List.foldlRecOn (motive := fun w => Timed (.railEnable r) _ w) xs _ (.refl _ _) fun w hw y hy => hw.trans (arm_timed (fun eq => ?_) _ _)
          rw [own (small y (List.mem_cons_of_mem _ hy)) (Instr.railEnable.inj eq)] at mem
          exact mem hy
        have both := (rest _).mpr one
        rw [hv.1] at both
        rw [List.foldl_cons, hv.2, show railF r.val = r from Fin.ext (Nat.mod_eq_of_lt r.isLt)]
        exact both
  refine fold rs u ⟨rfl, rfl⟩ (fun x hx => ?_) (mem_rails.mpr h)
  exact List.mem_range.mp (List.mem_filter.mp hx).1

/-- DSCUTT is over: the rails of the cut wait for their restart. -/
theorem exec_dsCutRestart {s : State} {m : Mask} (run : Running s) (c : s.ds.cut = true)
    (hm : m = maskOf (fun x => has s.ds.cutSet x && !has s.rl.en x && !heldRail s x)) : ∃ t, exec .dsCutRestart s = .next t ∧
      t.ds = { s.ds with cut := false, cutSet := m, recheck := !decide (m = 0), clearing := if decide (m = 0) && s.ds.failed then 2 else s.ds.clearing } ∧
      t.rl = s.rl ∧ t.seq.wait = s.seq.wait ||| m ∧ ∃ u, u.regs = s.regs ∧ u.seq = s.seq ∧ u.clk.now = s.clk.now ∧
        ∀ r, Timed (.railEnable r) (restartSet m u) t := by
  obtain ⟨-, st, -⟩ := run
  obtain ⟨u, hu⟩ : ∃ u, u = setDs (fun d => { d with cut := false, cutSet := m, recheck := !decide (m = 0), clearing := if decide (m = 0) && d.failed then 2 else d.clearing }) (disarm .dsCutRestart s) := ⟨_, rfl⟩
  have e : exec .dsCutRestart s = .next (settle (restartSet m u)) := by
    rw [hu, hm]
    exact congrArg Host.Outcome.next (if_neg (by rw [show (disarm .dsCutRestart s).ds = s.ds from rfl, c]; decide))
  obtain ⟨seq, -, only⟩ := restartSet_spec m u
  have sr : (restartSet m u).glob.st = .run := by
    rw [show (restartSet m u).glob = u.glob from only .glob (by decide), hu]
    exact st
  have fr : fwdCheck (restartSet m u) = restartSet m u := fwdCheck_of_not_start (by rw [sr]; decide)
  have ls := settleStart_after (restartSet m u)
  have ks := settleStart_seqKept (restartSet m u)
  have ts {f : Instr} := settleStart_timed (e := f) (s := restartSet m u)
  rw [fr] at ls ks
  simp only [fr] at ts
  have es : settle (restartSet m u) = settleStart (restartSet m u) := settle_of_start (.inr sr)
  rw [es] at e
  refine ⟨_, e, ?_, ?_, ?_, u, by rw [hu]; rfl, by rw [hu]; rfl, by rw [hu]; rfl, fun r => ts (fun x h => nomatch h) (fun x h => nomatch h)⟩
  · rw [show (settleStart (restartSet m u)).ds = _ from ls.same .ds (by decide), only .ds (by decide), hu]
    rfl
  · rw [show (settleStart (restartSet m u)).rl = _ from ls.same .rl (by decide), only .rl (by decide), hu]
    rfl
  · rw [ks, show (restartSet m u).seq = _ from seq, hu]
    rfl

/-! DSCTL.CLR. -/

theorem pollWatch_ds (s : State) : (pollWatch s).ds = { s.ds with pollDue := (pollWatch s).ds.pollDue, poll := (pollWatch s).ds.poll } := by
  unfold pollWatch
  dsimp only
  split
  · split <;> rfl
  · rfl

theorem pollWatch_only (s : State) : Only [.ds, .clk] s (pollWatch s) := by
  unfold pollWatch
  dsimp only
  split
  · split <;> simp [only_iff]
  · simp [only_iff]

end Sys2Proof.Machine

namespace Sys2Proof

open Sys2Proof.Machine

/-- A poll that its target does not acknowledge. -/
theorem dsPoll_nack {s : State} {k : Nat} (h : mayPoll s = true) (n : nextPoll s = some k) (b : s.ds.bad.getLsbD k = false) :
    Yields (.dsPoll (some .nackAddr)) s { s with ds := { s.ds with
      ok := setBit s.ds.ok k false, bad := setBit s.ds.bad k true, pollIdx := (k + 1) % 12, pollTries := 0 } } [912, 922] := by
  have a := fwOn_anvil (portOn_fw (mayPoll_on h).1)
  have r : Raised [912] s (raiseG 57 0 s) := raise_raised 912 s a
  have f : (raiseG 57 0 s).ds.bad.getLsbD k = false := by rw [r.ds]; exact b
  have q : Raised [912] _ { raiseG 57 0 s with ds := { s.ds with ok := setBit s.ds.ok k false, bad := setBit s.ds.bad k true, pollIdx := (k + 1) % 12, pollTries := 0 } } := r.setDs _
  refine .of_eq ((exec_dsPoll_end h n _).trans (congrArg Host.Outcome.next (pollFail_fresh f))) (q.trans ?_)
  have e : setDs (fun d => { d with ok := setBit d.ok k false, bad := setBit d.bad k true, pollIdx := (k + 1) % 12, pollTries := 0 }) (raiseG 57 0 s) =
      { raiseG 57 0 s with ds := { s.ds with ok := setBit s.ds.ok k false, bad := setBit s.ds.bad k true, pollIdx := (k + 1) % 12, pollTries := 0 } } := by
    rw [← r.ds]; rfl
  rw [e]
  exact raise_raised 922 _ (q.anvil a)

theorem scltmo_ends {s : State} {j : DsJob} (on : portOn s = true) (f : s.ds.failed = false) (p : s.ds.poll = none) (d : s.ds.pollDue = false)
    (h : s.ds.job = some j) (x : slotHas s 0x03 = true) : Ends .scltmo s (fun t => t.ds = { s.ds with job := none } ∧
      t.bus.cstat = 4 ∧ t.bus.err = 6 ∧ isPend t 918 = true) := by
  obtain ⟨u, hu⟩ : ∃ u, u = Machine.disarm .scltmo s := ⟨_, rfl⟩
  have e : exec .scltmo s = .next (jobError 0x06 (raiseG 57 6 u)) := by
    show execScltmo s = _
    unfold execScltmo
    dsimp only
    rw [← hu]
    rw [show portOn u = true by rw [hu]; exact on, show u.ds = s.ds by rw [hu]; rfl, f, p, h]
    exact Eq.refl _
  obtain ⟨ds, st, er, pe, -⟩ := jobError_raised (s := u) (j := j) (by rw [hu]; exact fwOn_anvil (portOn_fw on)) (by rw [hu]; exact h) (by rw [hu]; exact d)
    (by rw [hu]; exact x) 57 6 0x06
  refine .of_eq e ⟨?_, st, er, pe⟩
  rw [ds, hu]
  rfl

theorem stuckscl_fails {s : State} (on : portOn s = true) (f : s.ds.failed = false) (v : (pl s (key 0x4D 2)).getLsbD 7 = false) :
    Ends .stuckscl s (fun t => t.ds = { s.ds with
      failed := true, stuckScl := true, clearing := 0, job := none, pollDue := false, poll := none } ∧ isPend t 920 = true ∧ Only ([.ds] ++ raiseParts) s t) := by
  obtain ⟨u, hu⟩ : ∃ u, u = setDs (fun d => { d with stuckScl := true }) (Machine.disarm .stuckscl s) := ⟨_, rfl⟩
  have a : anvilOn u = true := by rw [hu]; exact fwOn_anvil (portOn_fw on)
  obtain ⟨ds, pe, l⟩ := failedPort_spec a
  have e : exec .stuckscl s = .next (failedPort u) := by
    refine (congrArg Host.Outcome.next (if_pos ?_)).trans (congrArg Host.Outcome.next (?_ : portFailed (setDs (fun d => { d with stuckScl := true }) (Machine.disarm .stuckscl s)) = _))
    · rw [show portOn (Machine.disarm .stuckscl s) = true from on, show (Machine.disarm .stuckscl s).ds = s.ds from rfl, f]; rfl
    · rw [← hu, portFailed_eq (by rw [hu]; exact f), if_neg]
      rw [pl_congr (l.same .regs (by decide)), show pl u = pl s by rw [hu]; rfl, v]
      decide
  refine .of_eq e ⟨?_, pe, ?_⟩
  · rw [ds, hu]; rfl
  · have o : Only [.ds, .clk] s u := by rw [hu]; simp [only_iff]
    exact (o.weaken (by decide)).trans (l.only.weaken (by decide))

theorem stuckscl_cuts {s : State} (on : portOn s = true) (run : Running s) (f : s.ds.failed = false) (v : (pl s (key 0x4D 2)).getLsbD 7 = true) :
    Ends .stuckscl s (fun t => t.ds.failed = true ∧ t.ds.cut = true ∧ has t.rl.en (cutRail s) = false ∧ t.seq.offhold = s.seq.offhold ∧
      isPend t 920 = true ∧ isPend t 921 = true ∧ Armed (ms (10 * (pl s (key 0x4D 3)).toNat)) .dsCutRestart s t) := by
  obtain ⟨u, hu⟩ : ∃ u, u = setDs (fun d => { d with stuckScl := true }) (Machine.disarm .stuckscl s) := ⟨_, rfl⟩
  have a : anvilOn u = true := by rw [hu]; exact fwOn_anvil (portOn_fw on)
  obtain ⟨ds, pe, l⟩ := failedPort_spec a
  have re : (failedPort u).regs = s.regs := by rw [l.same .regs (by decide), hu]; rfl
  have e : exec .stuckscl s = .next (startCut (failedPort u)) := by
    refine (congrArg Host.Outcome.next (if_pos ?_)).trans (congrArg Host.Outcome.next (?_ : portFailed (setDs (fun d => { d with stuckScl := true }) (Machine.disarm .stuckscl s)) = _))
    · rw [show portOn (Machine.disarm .stuckscl s) = true from on, show (Machine.disarm .stuckscl s).ds = s.ds from rfl, f]; rfl
    · rw [← hu, portFailed_eq (by rw [hu]; exact f), if_pos]
      rw [pl_congr re, v]
  obtain ⟨fl, cu, en, off, p1, pk, ar⟩ := startCut_spec (s := failedPort u) (by rw [l.anvilOn]; exact a) (by rw [l.st, hu]; exact run.2.1)
  refine .of_eq e ⟨?_, cu, ?_, ?_, pk _ pe, p1, ?_⟩
  · rw [fl, ds]
  · rw [show cutRail s = cutRail (failedPort u) by unfold cutRail; rw [pl_congr re]]
    exact en
  · rw [off, l.seqKept.offhold, hu]
    rfl
  · unfold Armed at ar ⊢
    rw [l.now, show u.clk.now = s.clk.now by rw [hu]; rfl, pl_congr re] at ar
    exact ar

/-- The second round has not freed SDA. -/
theorem dsClearRetry_fails {s : State} (b : Bool) (on : portOn s = true) (c : s.ds.clearing = 1) (f : s.ds.failed = false)
    (v : (pl s (key 0x4D 2)).getLsbD 7 = false) : Ends (.dsClearRetry false b) s (fun t => t.ds = { s.ds with
      failed := true, stuckSda := true, clearing := 0, job := none, pollDue := false, poll := none } ∧ isPend t 917 = true ∧ isPend t 920 = true) := by
  obtain ⟨u, hu⟩ : ∃ u, u = raiseG 57 5 (setDs (fun d => { d with stuckSda := true }) s) := ⟨_, rfl⟩
  have a := fwOn_anvil (portOn_fw on)
  have lu : Leaves [.ds] s u := by rw [hu]; exact raiseG_leaves 57 5 _ (setDs_leaves _ s (.refl _ s))
  have du : u.ds = { s.ds with stuckSda := true } := by
    rw [hu, show (raiseG 57 5 (setDs (fun d => { d with stuckSda := true }) s)).ds = _ from (raiseG_leaves (l := []) 57 5 _ (.refl _ _)).same .ds (by decide)]
    rfl
  have p5 : isPend u 917 = true := by rw [hu]; exact isPend_raiseG_self (s := setDs (fun d => { d with stuckSda := true }) s) a 57 5
  obtain ⟨ds, pe, l⟩ := failedPort_spec (s := u) (by rw [lu.anvilOn]; exact a)
  have e : exec (.dsClearRetry false b) s = .next (failedPort u) := by
    refine (congrArg Host.Outcome.next ((if_neg (by rw [on]; decide)).trans ((if_pos c).trans (if_neg Bool.false_ne_true)))).trans ?_
    rw [← hu, portFailed_eq (by rw [du]; exact f), if_neg]
    rw [pl_congr (l.same .regs (by decide)), pl_congr (lu.same .regs (by decide)), v]
    decide
  refine .of_eq e ⟨?_, l.pend p5, pe⟩
  rw [ds, du]

theorem dsctlClr_ends {s : State} (h : Served s) : Ends .dsctlClr s (fun t => t.ds = { s.ds with
      failed := false, stuckScl := false, clearing := if portOn s then 3 else 0, pollDue := t.ds.pollDue, poll := t.ds.poll } ∧ Acked s t ∧
      Only [.ds, .bus, .glob, .clk] s t) := by
  refine .of_eq (exec_onPage h rfl) (t := dsClrBit (cancelKey (ackAccess s))) ?_
  obtain ⟨u, hu⟩ : ∃ u, u = setDs (fun d => { d with failed := false, stuckScl := false, clearing := if portOn s then 3 else 0 }) (cancelKey (ackAccess s)) := ⟨_, rfl⟩
  have e : dsClrBit (cancelKey (ackAccess s)) = pollWatch u := by rw [hu]; rfl
  have d := pollWatch_ds u
  have o := pollWatch_only u
  rw [e]
  refine ⟨?_, ⟨?_, ?_⟩, ?_⟩
  · have du : u.ds = { s.ds with failed := false, stuckScl := false, clearing := if portOn s then 3 else 0 } := by rw [hu]; rfl
    generalize pollWatch u = w at d
    exact d.trans (by rw [du])
  · rw [o .bus (by decide), hu]; rfl
  · rw [o .glob (by decide), hu]; rfl
  · have ou : Only [.ds, .bus, .glob, .clk] s u := by rw [hu]; simp [only_iff, cancelKey, ackAccess]
    exact ou.trans (o.weaken (by decide))

/-- Settles O50: transfers and polls end as their outcome says, a stuck line fails the port (`failedPort_spec`), and the cut takes its
rails off and has them wait for their restart (`startCut_spec`, `exec_dsCutRestart`). -/
theorem downstreamPort : Obligations.DownstreamPort := by
  refine ⟨fun s p a w q bs h e m lw lq lb en f => ?_, fun s p a w q bs h e bad => ?_, fun s bs j on c p d h x => ?_, fun s j c r k on cl p d h x tr o => ?_,
    fun s j on c p h tr => ?_, fun s k bs h n => exec_dsPoll_end h n _, fun s k h n b => ?_, fun s j on f p d h x => ?_, fun s on f v => ?_,
    fun s on run f v => ?_, fun s on f d c => ?_, fun s on f c => exec_dsBusClear on f c _, fun s b on c d => ?_, fun s b on c f v => ?_, fun s run c z => ?_, fun s h => ?_,
    fun s j c r k on cl p d h x o => ?_, fun s on f c => exec_dsBusClear on f c _, fun s k h n => ?_, fun s m r run c hm hr => ?_⟩
  · have b : dsXferBody p (taken 0x03 p s) = slotBusy (setDs (fun d => { d with job := some ⟨a.toNat, bs, q.toNat, 0, dsWritePec s a.toNat bs q.toNat⟩ }) (taken 0x03 p s)) := by
      unfold dsXferBody
      rw [e]
      refine (if_neg ?_).trans ((if_neg (by rw [show (taken 0x03 p s).ds = s.ds from rfl, f]; decide)).trans (Eq.refl _))
      rw [show pl (taken 0x03 p s) = pl s from rfl, m, en]
      simp only [Bool.false_eq_true, Bool.not_true, false_or, or_false]
      omega
    refine .of_eq ((exec_taken (op := 0x03) h rfl).trans (congrArg Host.Outcome.next b)) ⟨rfl, rfl, rfl, ?_⟩
    exact ((taken_only 0x03 p.tag s).weaken (m := [.bus, .txn, .ds]) (by decide)).trans (by simp [only_iff, slotBusy, taken])
  · refine .slotEnd (op := 0x03) (body := dsXferBody p) h rfl ?_
    unfold dsXferBody
    rw [e]
    exact if_pos (by tauto)
  · refine (exec_dsXferDone on c p h _).trans (congrArg Host.Outcome.next ?_)
    unfold jobEnd
    dsimp only
    rw [pollStart_idle (s := setDs (fun d => { d with job := none }) s) d]
    exact if_pos x
  · have l : jobEnd j (.lost .data) s = jobError 0x04 (raiseG 57 2 s) ∧ jobEnd j (.lost .stop) s = jobError 0x04 (raiseG 57 3 s) ∧
        jobEnd j (.lost .restart) s = jobError 0x04 (raiseG 57 4 s) := ⟨if_pos tr, if_pos tr, if_pos tr⟩
    have a := fwOn_anvil on
    rcases o with ⟨rfl, rfl, rfl⟩ | ⟨rfl, rfl, rfl⟩ | ⟨rfl, rfl, rfl⟩
    · exact .of_eq ((exec_dsXferDone on cl p h _).trans (congrArg _ l.1)) (jobError_raised a h d x 57 2 0x04)
    · exact .of_eq ((exec_dsXferDone on cl p h _).trans (congrArg _ l.2.1)) (jobError_raised a h d x 57 3 0x04)
    · exact .of_eq ((exec_dsXferDone on cl p h _).trans (congrArg _ l.2.2)) (jobError_raised a h d x 57 4 0x04)
  · have r : Raised [914] s (raiseG 57 2 s) := raise_raised 914 s (fwOn_anvil on)
    refine .of_eq ((exec_dsXferDone on c p h _).trans (congrArg Host.Outcome.next (if_neg (Nat.not_le.mpr tr)))) ?_
    have e : setDs (fun d => { d with job := some { j with tries := j.tries + 1 } }) (raiseG 57 2 s) =
        { raiseG 57 2 s with ds := { s.ds with job := some { j with tries := j.tries + 1 } } } := by rw [← r.ds]; rfl
    show Raised [914] _ (setDs (fun d => { d with job := some { j with tries := j.tries + 1 } }) (raiseG 57 2 s))
    rw [e]
    exact r.setDs _
  · exact dsPoll_nack h n b
  · exact scltmo_ends on f p d h x
  · exact stuckscl_fails on f v
  · exact stuckscl_cuts on run f v
  · refine yields_raiseG (g := 57) (b := 7) (s' := { s with ds := { s.ds with clearing := 0, stuckSda := false } }) (fwOn_anvil (portOn_fw on)) ?_
    exact (exec_dsBusClear on f c _).trans (congrArg Host.Outcome.next (busCleared_eq d))
  · refine yields_raiseG (g := 57) (b := 7) (s' := { s with ds := { s.ds with clearing := 0, stuckSda := false } }) (fwOn_anvil (portOn_fw on)) ?_
    exact congrArg Host.Outcome.next ((if_neg (by rw [on]; decide)).trans ((if_pos c).trans ((if_pos rfl).trans (busCleared_eq d))))
  · exact dsClearRetry_fails b on c f v
  · have m0 : maskOf (fun x => has s.ds.cutSet x && !has s.rl.en x && !heldRail s x) = 0 := by
      refine BitVec.eq_of_getLsbD_eq fun i hi => ?_
      have z' : (s.ds.cutSet &&& ~~~s.rl.en).getLsbD i = false := by rw [z]; simp
      rw [show (maskOf _).getLsbD i = _ from has_maskOf _ hi]
      simp only [BitVec.getLsbD_and, BitVec.getLsbD_not, hi, decide_true, Bool.true_and] at z'
      simp [has, z']
    obtain ⟨t, e, ds, rl, -⟩ := exec_dsCutRestart run c m0.symm
    exact .of_eq e ⟨by rw [ds], by rw [ds], by rw [rl]⟩
  · exact dsctlClr_ends h
  · have a := fwOn_anvil on
    rcases o with ⟨rfl, rfl, rfl⟩ | ⟨rfl, rfl, rfl⟩
    · exact .of_eq (exec_dsXferDone on cl p h _) (jobError_raised a h d x 57 0 0x02)
    · exact .of_eq (exec_dsXferDone on cl p h _) (jobError_raised a h d x 57 1 0x03)
  · refine .of_eq (exec_dsPoll_due h n) ⟨rfl, ?_, by simp [only_iff]⟩
    exact arm_arms (ms (10 * (pl s (key 0x4D 4)).toNat)) (.dsPoll none) (Machine.disarm (.dsPoll none) (setDs (fun d => { d with pollDue := true }) s))
  · obtain ⟨t, e, ds, -, w, u, ru, su, nu, ti⟩ := exec_dsCutRestart run c hm
    have n0 : decide (m = 0) = false := by
      refine decide_eq_false fun x => ?_
      rw [x, show (0 : Mask) = 0#32 from rfl, has_none] at hr
      exact absurd hr (by decide)
    have ar := (ti r _).mpr (restartSet_arms hr u)
    rw [nu, lv_congr ru, su] at ar
    refine .of_eq e ⟨by rw [ds], by rw [ds, n0]; rfl, by rw [ds], ?_, ar⟩
    rw [w, has_or, hr, Bool.or_true]

end Sys2Proof
end

section
/-! A slot that ends while the journal of a trial that fell back can no longer be written. -/

namespace Sys2Proof

open Sys2Proof.Machine

/-- The journal is to say that the trial fell back, and its partition has become read-only; the slot in progress writes the snapshot. -/
def journalShutOut : State := { inRun with fl.slot := some .snap, fl.ro := 0x40, upd.want := some .journal, upd.jact := .fell, upd.cfgNew := 3 }

/-- Refutes O53: the fall-back goes on without its journal entry, and its system reset takes SNAPWR away in the step that raised it. -/
theorem not_flashStore : ¬ Obligations.FlashStore := by
  unfold Obligations.FlashStore
  intro h
  obtain ⟨h, -⟩ := h
  obtain ⟨t, e, -, -, -, -, p, -⟩ := h journalShutOut (by decide +kernel) rfl ⟨by decide +kernel, by decide +kernel⟩ (by decide +kernel)
  have r : endsIn (fun t => !isPend t 954) (exec (.flashSlotDone true) journalShutOut) = true := by decide +kernel
  have n := endsIn_of r e
  rw [p] at n
  exact absurd n (by decide)

/-- The same with the log's slot in progress, for a LOG_FLUSH and its last entry. -/
def flushShutOut : State := { journalShutOut with
  fl.slot := some .log, fl.queue := [⟨7, 0x3FF, 0, 0, 0, 0, true, 0⟩], bus.cstat := 2, bus.op := 0x42 }

/-- Refutes O54: the reset ends the slot of the LOG_FLUSH that was done in the same step. -/
theorem not_eventLog : ¬ Obligations.EventLog := by
  unfold Obligations.EventLog
  intro h
  obtain ⟨h, -⟩ := h
  obtain ⟨t, e, -, -, -, c⟩ := h flushShutOut ⟨7, 0x3FF, 0, 0, 0, 0, true, 0⟩ (by decide +kernel) rfl rfl rfl (by decide) rfl rfl (by decide +kernel) (by decide +kernel)
  have r : endsIn (fun t => decide (t.bus.cstat = 0)) (exec (.flashSlotDone true) flushShutOut) = true := by decide +kernel
  have z : t.bus.cstat = 0 := of_decide_eq_true (endsIn_of r e)
  have d := (c (by decide +kernel)).1
  rw [z] at d
  exact absurd d (by decide)

end Sys2Proof
end

section
/-! OTP_PROGRAM and OTP_LOCK (R419, R420, R429, R430). -/

namespace Sys2Proof.Machine

open Sys2Proof

/-! A privileged packet. -/

/-- The slot has taken a packet that needs a session, and SESSTMO runs anew. -/
def privTaken (op : Byte) (p : Packet) (s : State) : State := touchSession (taken op p s)

theorem exec_privTaken {c : Instr} {op : Byte} {p : Packet} {body : State → State} {s : State} (h : Takes true p s)
    (e : exec c s = .next (packet op true p body s)) : exec c s = .next (body (privTaken op p s)) :=
  e.trans (congrArg Host.Outcome.next (packet_priv h body))

theorem privTaken_bus (op : Byte) (p : Packet) (s : State) : (privTaken op p s).bus = (taken op p s).bus := touchSession_bus _

theorem privTaken_only (op : Byte) (p : Packet) (s : State) : Only [.bus, .txn, .clk] s (privTaken op p s) := by
  refine ((taken_only op p.tag s).weaken (by decide)).trans ?_
  unfold privTaken touchSession
  split
  · exact (Only.refl _ _)
  · simp [only_iff, taken]

theorem reject_privTaken (op : Byte) (p : Packet) (s : State) (err : Byte) :
    SlotShows 5 err [] p (reject err (privTaken op p s)) ∧ (reject err (privTaken op p s)).otp = s.otp := by
  refine ⟨⟨rfl, congrArg (fun b : Bus => b.tag) (privTaken_bus op p s), rfl, rfl⟩, privTaken_only op p s .otp (by decide)⟩

/-! Fuses that are programmed. -/

theorem or_none (v : Byte) : v ||| 0 = v := BitVec.or_zero

/-- Bytes programmed from an address on: each ORs into its own, no other changes. -/
theorem mget_program (bs : List Byte) (a n k : Nat) (m : Map Byte) :
    mget 0 ((bs.zipIdx n).foldl (fun m (v, i) => mput 0 m (a + i) (mget 0 m (a + i) ||| v)) m) k =
      mget 0 m k ||| (if a + n ≤ k ∧ k < a + n + bs.length then bs.getD (k - (a + n)) 0 else 0) := by
  induction bs generalizing n m with
  | nil => simp
  | cons v bs ih =>
    rw [List.zipIdx_cons, List.foldl_cons, ih]
    dsimp only
    by_cases e : k = a + n
    · subst e
      rw [mget_mput_same, if_neg (by omega), if_pos (by simp only [List.length_cons]; omega), Nat.sub_self, List.getD_cons_zero, or_none]
    · rw [show mget 0 (mput 0 m (a + n) (mget 0 m (a + n) ||| v)) k = mget 0 m k from mget_mput_other _ _ e m]
      by_cases r : a + n ≤ k ∧ k < a + n + (v :: bs).length
      · have r' : a + (n + 1) ≤ k ∧ k < a + (n + 1) + bs.length := by simp only [List.length_cons] at r; omega
        rw [if_pos r, if_pos r', show k - (a + n) = k - (a + (n + 1)) + 1 by omega, List.getD_cons_succ]
      · have r' : ¬(a + (n + 1) ≤ k ∧ k < a + (n + 1) + bs.length) := by simp only [List.length_cons] at r; omega
        rw [if_neg r, if_neg r']

/-- The first n bytes from an address on, each with its own bits. -/
theorem mget_copy (g : Nat → Byte) (a n k : Nat) (m : Map Byte) :
    mget 0 ((List.range n).foldl (fun m i => mput 0 m (a + i) (mget 0 m (a + i) ||| g i)) m) k =
      mget 0 m k ||| (if a ≤ k ∧ k < a + n then g (k - a) else 0) := by
  induction n with
  | zero => rw [List.range_zero, List.foldl_nil, if_neg (by omega), or_none]
  | succ n ih =>
    rw [List.range_succ, List.foldl_append, List.foldl_cons, List.foldl_nil]
    by_cases e : k = a + n
    · subst e
      rw [mget_mput_same, ih, if_neg (by omega), if_pos (by omega), or_none, show a + n - a = n by omega]
    · rw [mget_mput_other _ _ e, ih]
      by_cases r : a ≤ k ∧ k < a + n
      · rw [if_pos r, if_pos (by omega)]
      · rw [if_neg r, if_neg (by omega)]

/-- A program of a region lands where its spare stands, or in the region itself. -/
theorem mget_burn (r b : Nat) (bs : List Byte) (s : State) (k : Nat) : mget 0 (burn r b bs s).otp.arr k =
    mget 0 s.otp.arr k ||| (if 64 * fuseHome s.otp r + b ≤ k ∧ k < 64 * fuseHome s.otp r + b + bs.length then
      bs.getD (k - (64 * fuseHome s.otp r + b)) 0 else 0) := by
  have e := mget_program bs (64 * fuseHome s.otp r + b) 0 k s.otp.arr
  unfold burn
  simp only [fuse, ← Nat.add_assoc]
  exact e

theorem fuse_burn {r b i : Nat} {bs : List Byte} (h : i < bs.length) (s : State) :
    fuse (burn r b bs s).otp.arr (fuseHome s.otp r) (b + i) = fuse s.otp.arr (fuseHome s.otp r) (b + i) ||| bs.getD i 0 := by
  unfold fuse
  rw [mget_burn, if_pos (by omega), show 64 * fuseHome s.otp r + (b + i) - (64 * fuseHome s.otp r + b) = i by omega]

theorem burn_leaves (r b : Nat) (bs : List Byte) (s : State) : Leaves [.otp] s (burn r b bs s) := .of_only (by simp [burn, only_iff]) rfl

theorem customerRegion_spare {r : Nat} (h : customerRegion r = true) : r ≠ 14 ∧ r ≠ 15 := by
  constructor <;> rintro rfl <;> exact absurd h (by decide)

/-! The repair. -/

theorem tagOf_tagFuses {r : Nat} (h : r ≤ 15) : tagOf (tagFuses r) = some r := by
  have all : ∀ r < 16, tagOf (tagFuses r) = some r := by decide
  exact all r (by omega)

/-- The first spare takes the region's bytes and those that were to be programmed. -/
theorem fuse_repair {r b i : Nat} {bs : List Byte} (hr : fuseHome s.otp r = r) (h : i < bs.length) (hb : b + bs.length ≤ 64) :
    fuse (repair 14 r b bs s).otp.arr 14 (b + i) = (fuse s.otp.arr 14 (b + i) ||| fuse s.otp.arr r (b + i)) ||| bs.getD i 0 := by
  obtain ⟨m, hm⟩ : ∃ m, m = (List.range 64).foldl (fun m i => mput 0 m (64 * 14 + i) (fuse m 14 i ||| fuse s.otp.arr r i)) s.otp.arr := ⟨_, rfl⟩
  have copy : mget 0 m (64 * 14 + (b + i)) = fuse s.otp.arr 14 (b + i) ||| fuse s.otp.arr r (b + i) := by
    rw [hm]
    refine (mget_copy (fuse s.otp.arr r) (64 * 14) 64 _ s.otp.arr).trans ?_
    rw [if_pos (by omega), show 64 * 14 + (b + i) - 64 * 14 = b + i by omega]
    rfl
  have arr : (repair 14 r b bs s).otp.arr = (bs.zipIdx).foldl (fun m (v, i) => mput 0 m (64 * 14 + b + i) (mget 0 m (64 * 14 + b + i) ||| v)) m := by
    unfold repair
    rw [hr, hm]
    simp only [fuse, ← Nat.add_assoc, raiseG_otp, logSecurity, logOther_otp, if_true]
  unfold fuse at copy ⊢
  rw [arr, mget_program, copy, if_pos (by omega), show 64 * 14 + (b + i) - (64 * 14 + b + 0) = i by omega]

theorem repair_leaves (sp r b : Nat) (bs : List Byte) (s : State) : Leaves [.otp] s (repair sp r b bs s) := by
  unfold repair
  refine raiseG_leaves _ _ _ (logOther_leaves _ _ _ _ (.of_only ?_ ?_))
  · split <;> simp [only_iff]
  · split <;> rfl

theorem repair_otp (r b : Nat) (bs : List Byte) (s : State) : (repair 14 r b bs s).otp.tag14 = s.otp.tag14 ||| tagFuses r ∧
    (repair 14 r b bs s).otp.tag15 = s.otp.tag15 ∧ (repair 14 r b bs s).otp.sensed = s.otp.sensed := by
  unfold repair
  refine ⟨?_, ?_, ?_⟩ <;> simp only [raiseG_otp, logSecurity, logOther_otp, if_true]

theorem isPend_repair (r b : Nat) (bs : List Byte) {s : State} (a : anvilOn s = true) : isPend (repair 14 r b bs s) 866 = true := by
  unfold repair
  refine isPend_raiseG_self ?_ 54 2
  unfold anvilOn at a ⊢
  simp only [logSecurity, logOther_glob, logOther_otp, if_true]
  exact a

/-- What was programmed of some bytes is part of them. -/
theorem partly_spec (bs : List Byte) (s : State) : (partly bs s).1.length = bs.length ∧ (∀ i, (partly bs s).1.getD i 0 ||| bs.getD i 0 = bs.getD i 0) ∧
    Leaves [.free] s (partly bs s).2 ∧ (partly bs s).2.otp = s.otp := by
  have len (n v : Nat) : (leBytes n v).length = n := by
    induction n generalizing v with
    | zero => rfl
    | succ n ih => exact congrArg (· + 1) (ih _)
  have l : (partly bs s).1.length = bs.length := by simp [partly, len]
  refine ⟨l, fun i => ?_, .of_only (by simp [partly, drawNat, only_iff]) rfl, rfl⟩
  by_cases h : i < bs.length
  · rw [List.getD_eq_getElem _ _ (l.symm ▸ h), List.getD_eq_getElem _ _ h]
    simp only [partly, List.getElem_map, List.getElem_zip]
    refine BitVec.eq_of_getLsbD_eq fun j _ => ?_
    rw [BitVec.getLsbD_or, BitVec.getLsbD_and]
    cases bs[i].getLsbD j
    · rfl
    · exact Bool.or_true _
  · rw [List.getD_eq_default _ _ (by omega), List.getD_eq_default _ _ (by omega)]
    rfl

/-! The locks. -/

theorem fiveOf_all : ∀ v : BitVec 5, fiveOf (v ||| 0x1F) = true := by decide
theorem fiveOf_none (v : BitVec 5) : v ||| 0 = v := BitVec.or_zero

/-- A lock of which too few fuses verified stays open. -/
theorem fiveOf_lockPart {v : BitVec 5} (h : fiveOf v = false) (n : Nat) : fiveOf (v ||| lockPart v n) = false := by
  unfold lockPart
  dsimp only
  by_cases w : fiveOf (v ||| BitVec.ofNat 5 n) = true
  · rw [if_pos w, BitVec.or_self]
    exact h
  · rw [if_neg w, ← BitVec.or_assoc, BitVec.or_self]
    exact Bool.eq_false_iff.mpr w

theorem burnLocks_spec (r : Nat) (w rd : BitVec 5) (s : State) :
    (∀ j, lockSet (burnLocks r w rd s).otp.wl j = if j = r then fiveOf (mget 0 s.otp.wl r ||| w) else lockSet s.otp.wl j) ∧
    (∀ j, lockSet (burnLocks r w rd s).otp.rl j = if j = r then fiveOf (mget 0 s.otp.rl r ||| rd) else lockSet s.otp.rl j) := by
  have one (m : Map (BitVec 5)) (v : BitVec 5) (j : Nat) : lockSet (mput 0 m r (mget 0 m r ||| v)) j = if j = r then fiveOf (mget 0 m r ||| v) else lockSet m j := by
    unfold lockSet
    by_cases e : j = r
    · subst e; rw [mget_mput_same, if_pos rfl]
    · rw [mget_mput_other _ _ e, if_neg e]
  exact ⟨one _ _, one _ _⟩

theorem burnLocks_leaves (r : Nat) (w rd : BitVec 5) (s : State) : Leaves [.otp] s (burnLocks r w rd s) := .of_only (by simp [burnLocks, only_iff]) rfl

/-- What an asked-for lock ORs in. -/
theorem fiveOf_asked (v : BitVec 5) (w : Bool) : fiveOf (v ||| if w then 0x1F else 0) = (fiveOf v || w) := by
  cases w
  · rw [if_neg Bool.false_ne_true, fiveOf_none, Bool.or_false]
  · rw [if_pos rfl, fiveOf_all, Bool.or_true]

/-- Where none of the locks asked for was set, a failure sets at most one of two, and none of one. -/
theorem lockFailed_spec {r : Nat} {w rd : Bool} {s : State} (hw : lockSet s.otp.wl r = false) (hr : lockSet s.otp.rl r = false) :
    ((w && rd) = false → lockSet (lockFailed r w rd s).otp.wl r = false ∧ lockSet (lockFailed r w rd s).otp.rl r = false) ∧
    (lockSet (lockFailed r w rd s).otp.wl r = false ∨ lockSet (lockFailed r w rd s).otp.rl r = false) ∧
    (∀ j, j ≠ r → lockSet (lockFailed r w rd s).otp.wl j = lockSet s.otp.wl j ∧ lockSet (lockFailed r w rd s).otp.rl j = lockSet s.otp.rl j) ∧
    (lockFailed r w rd s).otp = { s.otp with wl := (lockFailed r w rd s).otp.wl, rl := (lockFailed r w rd s).otp.rl, pend := setBit s.otp.pend (16 + r) true } ∧
    Leaves [.otp, .free] s (lockFailed r w rd s) := by
  obtain ⟨n, a, e⟩ : ∃ n a, lockFailed r w rd s = burnLocks r (if !w then 0 else if rd ∧ n % 3 = 1 then 0x1F else lockPart (mget 0 s.otp.wl r) a)
      (if !rd then 0 else if w ∧ n % 3 = 2 then 0x1F else lockPart (mget 0 s.otp.rl r) (a / 32)) { s with free := s.free + 2 } := by
    refine ⟨Config.freeNat s.free, Config.freeNat (s.free + 1), ?_⟩
    unfold lockFailed
    simp only [drawNat, Nat.pow_zero, Nat.pow_one, Nat.div_one]
  rw [e]
  obtain ⟨bw, br⟩ := burnLocks_spec r (if !w then 0 else if rd ∧ n % 3 = 1 then 0x1F else lockPart (mget 0 s.otp.wl r) a)
    (if !rd then 0 else if w ∧ n % 3 = 2 then 0x1F else lockPart (mget 0 s.otp.rl r) (a / 32)) { s with free := s.free + 2 }
  have fw (c : ¬(rd = true ∧ n % 3 = 1)) : fiveOf (mget 0 s.otp.wl r ||| (if !w then 0 else if rd ∧ n % 3 = 1 then 0x1F else lockPart (mget 0 s.otp.wl r) a)) = false := by
    rw [if_neg c]
    split
    · rw [fiveOf_none]; exact hw
    · exact fiveOf_lockPart hw a
  have fr (c : ¬(w = true ∧ n % 3 = 2)) : fiveOf (mget 0 s.otp.rl r ||| (if !rd then 0 else if w ∧ n % 3 = 2 then 0x1F else lockPart (mget 0 s.otp.rl r) (a / 32))) = false := by
    rw [if_neg c]
    split
    · rw [fiveOf_none]; exact hr
    · exact fiveOf_lockPart hr _
  refine ⟨fun one => ?_, ?_, fun j hj => ?_, rfl, (Leaves.set (.refl _ s) (by simp [only_iff])).then (burnLocks_leaves _ _ _ _) (by decide)⟩
  · rw [bw, br, if_pos rfl, if_pos rfl]
    cases w <;> cases rd
    · exact ⟨fw (by simp), fr (by simp)⟩
    · exact ⟨by simpa [lockSet] using hw, fr (by simp)⟩
    · exact ⟨fw (by simp), by simpa [lockSet] using hr⟩
    · exact absurd one (by decide)
  · rw [bw, br, if_pos rfl, if_pos rfl]
    by_cases c : n % 3 = 1
    · exact .inr (fr (by omega))
    · exact .inl (fw (by tauto))
  · rw [bw, br, if_neg hj, if_neg hj]
    exact ⟨rfl, rfl⟩

end Sys2Proof.Machine

namespace Sys2Proof

open Sys2Proof.Machine

/-- Fuses decide over the power of the island only in that they are sensed. -/
theorem Leaves.anvilOn_sensed {l : List Part} {s t : State} (h : Leaves l s t) (o : t.otp.sensed = s.otp.sensed)
    (hg : .glob ∉ l ++ raiseParts := by decide) : Machine.anvilOn t = Machine.anvilOn s := by
  have g : t.glob = s.glob := h.same .glob hg
  unfold Machine.anvilOn
  rw [g, o]

theorem privTaken_done {op : Byte} {p : Packet} {s x : State} (k : SlotKept (privTaken op p s) x) : SlotShows 3 0 [] p (doneWith [] x) :=
  ⟨rfl, k.tag.trans (congrArg (fun b : Bus => b.tag) (privTaken_bus op p s)), rfl, rfl⟩

theorem privTaken_error {op : Byte} {p : Packet} {s x : State} (k : SlotKept (privTaken op p s) x) (e : Byte) : SlotShows 4 e [] p (slotError e x) :=
  ⟨rfl, k.tag.trans (congrArg (fun b : Bus => b.tag) (privTaken_bus op p s)), rfl, k.cres.trans (congrArg (fun b : Bus => b.cres) (privTaken_bus op p s))⟩

theorem slotEnd_only (st : Nat) (err : Byte) (res : List Byte) (s : State) : Only [.bus] s (slotEnd st err res s) := by simp [only_iff, slotEnd]

/-- Everything that a command of OTP may change, from what it did after its checks. -/
theorem privTaken_leaves {op : Byte} {p : Packet} {s x y : State} (l : Leaves [.otp] (privTaken op p s) x) (o : Only [.bus] x y) :
    Only ([.bus, .txn, .otp] ++ raiseParts) s y :=
  (((Machine.privTaken_only op p s).weaken (by decide)).trans (l.only.weaken (by decide))).trans (o.weaken (by decide))

section
variable {p : Packet} {s : State} {r b : Byte} {bs : List Byte}

theorem otpProgramBody_range (ok : Bool) (e : p.params = r :: b :: bs) (bad : bs = [] ∨ 8 < bs.length ∨ 15 < r.toNat ∨ 64 < b.toNat + bs.length) (s : State) :
    otpProgramBody p ok s = reject 1 s := by
  unfold otpProgramBody
  rw [e]
  exact if_pos bad

/-- What decides after the range. -/
theorem otpProgramBody_checks (ok : Bool) (e : p.params = r :: b :: bs) (n : bs ≠ []) (n8 : bs.length ≤ 8) (r15 : r.toNat ≤ 15)
    (fit : b.toNat + bs.length ≤ 64) (s : State) : otpProgramBody p ok s =
      if !customerRegion r.toNat then reject 2 s
      else if lockSet s.otp.wl r.toNat then reject 3 s
      else if !has s.rl.pg 0 then reject 4 s
      else if s.glob.st ≠ .run then rejectOpen s
      else programFuses r.toNat b.toNat bs ok s := by
  unfold otpProgramBody
  rw [e]
  refine if_neg ?_
  rintro (x | x | x | x)
  · exact n x
  · omega
  · omega
  · omega

/-- An OTP_PROGRAM that passes its checks. -/
theorem otpProgram_programs (ok : Bool) (h : Takes true p s) (e : p.params = r :: b :: bs) (n : bs ≠ []) (n8 : bs.length ≤ 8) (r15 : r.toNat ≤ 15)
    (fit : b.toNat + bs.length ≤ 64) (c : customerRegion r.toNat = true) (lk : lockSet s.otp.wl r.toNat = false) (pg : has s.rl.pg 0 = true)
    (st : s.glob.st = .run) : exec (.otpProgram p ok) s = .next (programFuses r.toNat b.toNat bs ok (privTaken 0x60 p s)) := by
  refine (exec_privTaken (op := 0x60) h rfl).trans (congrArg Host.Outcome.next ?_)
  have o := Machine.privTaken_only 0x60 p s
  have ot : (privTaken 0x60 p s).otp = s.otp := o .otp (by decide)
  have rl : (privTaken 0x60 p s).rl = s.rl := o .rl (by decide)
  have gl : (privTaken 0x60 p s).glob = s.glob := o .glob (by decide)
  rw [otpProgramBody_checks ok e n n8 r15 fit, ot, rl, gl, c, lk, pg, st]
  exact Eq.refl _

/-- One that a check refuses. -/
theorem otpProgram_rejects (ok : Bool) (h : Takes true p s) {err : Byte} (x : otpProgramBody p ok (privTaken 0x60 p s) = reject err (privTaken 0x60 p s)) :
    Ends (.otpProgram p ok) s (fun t => SlotShows 5 err [] p t ∧ t.otp = s.otp) :=
  .of_eq ((exec_privTaken (op := 0x60) h rfl).trans (congrArg Host.Outcome.next x)) (reject_privTaken 0x60 p s err)

end

theorem otpProgram_done {p : Packet} {s : State} {r b : Nat} {bs : List Byte} {u : State} (hu : u = privTaken 0x60 p s) (a : anvilOn u = true) :
    SlotShows 3 0 [] p (programFuses r b bs true u) ∧
    (∀ i, i < bs.length → fuse (programFuses r b bs true u).otp.arr (fuseHome s.otp r) (b + i) = fuse s.otp.arr (fuseHome s.otp r) (b + i) ||| bs.getD i 0) ∧
    (programFuses r b bs true u).otp = { s.otp with arr := (programFuses r b bs true u).otp.arr, pend := setBit s.otp.pend r true } ∧
    isPend (programFuses r b bs true u) 864 = true ∧ Only ([.bus, .txn, .otp] ++ raiseParts) s (programFuses r b bs true u) := by
  have ot : u.otp = s.otp := by rw [hu]; exact Machine.privTaken_only 0x60 p s .otp (by decide)
  obtain ⟨v, hv⟩ : ∃ v, v = logSecurity 4 r (b + 256 * bs.length) u := ⟨_, rfl⟩
  have lv : Leaves [] u v := by rw [hv]; exact logOther_leaves _ _ _ _ (.refl _ _)
  have ov : v.otp = s.otp := (show v.otp = u.otp from lv.same .otp (by decide)).trans ot
  have lw := burn_leaves r b bs v
  have fw : ∀ i, i < bs.length → _ := fun i hi => fuse_burn (r := r) (b := b) hi v
  have ow : (burn r b bs v).otp = { v.otp with arr := (burn r b bs v).otp.arr, pend := setBit v.otp.pend r true } := rfl
  have e : programFuses r b bs true u = doneWith [] (raiseG 54 0 (burn r b bs v)) := by rw [hv]; rfl
  have aw : anvilOn (burn r b bs v) = true := (show anvilOn (burn r b bs v) = anvilOn v from rfl).trans (lv.anvilOn.trans a)
  generalize burn r b bs v = w at lw fw ow e aw
  have lx := raiseG_leaves (l := []) 54 0 w (.refl _ _)
  have ox : (doneWith [] (raiseG 54 0 w)).otp = w.otp := lx.same .otp (by decide)
  have l : Leaves [.otp] u (raiseG 54 0 w) := ((((Leaves.refl [.otp] u).then lv (by decide)).then lw (by decide)).then lx (by decide))
  rw [e, ox]
  rw [ov] at fw ow
  subst hu
  exact ⟨privTaken_done l.slotKept, fw, ow, isPend_raiseG_self aw 54 0, privTaken_leaves l (slotEnd_only _ _ _ _)⟩

/-- The state of a program of which not every bit verified. -/
def partBurnt (r b : Nat) (bs : List Byte) (u : State) : State :=
  burn r b (partly bs (logSecurity 4 r (b + 256 * bs.length) u)).1 (partly bs (logSecurity 4 r (b + 256 * bs.length) u)).2

/-- Of the fuses it changes only the region's bytes, to a part of those asked for. -/
theorem partBurnt_spec (r b : Nat) (bs : List Byte) (u : State) : Leaves [.otp, .free] u (partBurnt r b bs u) ∧
    (partBurnt r b bs u).otp = { u.otp with arr := (partBurnt r b bs u).otp.arr, pend := (partBurnt r b bs u).otp.pend } ∧
    (∀ i, i < bs.length → fuse (partBurnt r b bs u).otp.arr (fuseHome u.otp r) (b + i) ||| bs.getD i 0 = fuse u.otp.arr (fuseHome u.otp r) (b + i) ||| bs.getD i 0) ∧
    (∀ q i, q ≠ fuseHome u.otp r → i < 64 → b + bs.length ≤ 64 → fuse (partBurnt r b bs u).otp.arr q i = fuse u.otp.arr q i) := by
  unfold partBurnt
  obtain ⟨v, hv⟩ : ∃ v, v = logSecurity 4 r (b + 256 * bs.length) u := ⟨_, rfl⟩
  rw [← hv]
  have lv : Leaves [] u v := by rw [hv]; exact logOther_leaves _ _ _ _ (.refl _ _)
  have ov : v.otp = u.otp := lv.same .otp (by decide)
  obtain ⟨len, part, lp, op⟩ := partly_spec bs v
  generalize (partly bs v).1 = ps at len part
  generalize (partly bs v).2 = w at lp op
  rw [← ov, ← op]
  refine ⟨((Leaves.refl _ u).then lv (by decide)).then lp (by decide) |>.then (burn_leaves r b ps w) (by decide), rfl, fun i h => ?_, fun q i hq h fit => ?_⟩
  · rw [fuse_burn (len ▸ h), BitVec.or_assoc, part i]
  · unfold fuse
    rw [mget_burn, if_neg (by omega), or_none]

theorem programFuses_failed (r b : Nat) (bs : List Byte) (u : State) : programFuses r b bs false u =
    match blankSpare (partBurnt r b bs u).otp with
    | some sp => doneWith [] (raiseG 54 0 (repair sp r b bs (partBurnt r b bs u)))
    | none => slotError 0x05 (raiseG 54 1 (partBurnt r b bs u)) := rfl

theorem blankSpare_first {o : Otp} (t : o.tag14 = 0) (h : ∀ i, i < 64 → fuse o.arr 14 i = 0) : blankSpare o = some 14 := by
  have all : (List.range 64).all (fun b => decide (fuse o.arr 14 b = 0)) = true :=
    List.all_eq_true.mpr fun i hi => decide_eq_true (h i (List.mem_range.mp hi))
  exact if_pos (by rw [decide_eq_true t, Bool.true_and]; exact all)

theorem blankSpare_used {o : Otp} (h14 : o.tag14 ≠ 0) (h15 : o.tag15 ≠ 0) : blankSpare o = none := by
  unfold blankSpare
  dsimp only
  rw [decide_eq_false h14, decide_eq_false h15]
  rfl

/-- A verify that fails is repaired by the first spare. -/
theorem otpProgram_repaired {p : Packet} {s : State} {r b : Nat} {bs : List Byte} {u : State} (hu : u = privTaken 0x60 p s) (a : anvilOn u = true)
    (r15 : r ≤ 15) (fit : b + bs.length ≤ 64) (c : customerRegion r = true) (t0 : s.otp.tag14 = 0) (blank : ∀ i, i < 64 → fuse s.otp.arr 14 i = 0)
    (home : fuseHome s.otp r = r) :
    SlotShows 3 0 [] p (programFuses r b bs false u) ∧ tagOf (programFuses r b bs false u).otp.tag14 = some r ∧
    (programFuses r b bs false u).otp.tag15 = s.otp.tag15 ∧
    (∀ i, i < bs.length → fuse (programFuses r b bs false u).otp.arr 14 (b + i) = fuse s.otp.arr r (b + i) ||| bs.getD i 0) ∧
    isPend (programFuses r b bs false u) 864 = true ∧ isPend (programFuses r b bs false u) 866 = true := by
  have ot : u.otp = s.otp := by rw [hu]; exact privTaken_only 0x60 p s .otp (by decide)
  obtain ⟨lx, ox, own, others⟩ := partBurnt_spec r b bs u
  have e := programFuses_failed r b bs u
  generalize partBurnt r b bs u = x at lx ox own others e
  rw [ot] at ox own others
  rw [home] at own others
  have ax : anvilOn x = true := (lx.anvilOn_sensed (by rw [ox, ot])).trans a
  have blank' : ∀ i, i < 64 → fuse x.otp.arr 14 i = 0 := fun i h => (others 14 i (customerRegion_spare c).1.symm h fit).trans (blank i h)
  have x14 : x.otp.tag14 = 0 := (congrArg Otp.tag14 ox).trans t0
  rw [blankSpare_first x14 blank'] at e
  dsimp only at e
  have hx : fuseHome x.otp r = r := (congrArg (fun o => fuseHome o r) ox).trans home
  have fy : ∀ i, i < bs.length → fuse (repair 14 r b bs x).otp.arr 14 (b + i) = fuse s.otp.arr r (b + i) ||| bs.getD i 0 := fun i h => by
    rw [fuse_repair hx h fit, blank' (b + i) (by omega), show (0 : Byte) ||| fuse x.otp.arr r (b + i) = _ from BitVec.zero_or, own i h]
  have oy := repair_otp r b bs x
  have ly := repair_leaves 14 r b bs x
  have p2 : isPend (repair 14 r b bs x) 866 = true := isPend_repair r b bs ax
  generalize repair 14 r b bs x = y at e fy oy ly p2
  have lz := raiseG_leaves (l := []) 54 0 y (.refl _ _)
  have oz : (doneWith [] (raiseG 54 0 y)).otp = y.otp := lz.same .otp (by decide)
  have l : Leaves [.otp, .free] u (raiseG 54 0 y) := (lx.then ly (by decide)).then lz (by decide)
  have ay : anvilOn y = true := (ly.anvilOn_sensed oy.2.2).trans ax
  rw [e, oz]
  subst hu
  refine ⟨privTaken_done l.slotKept, ?_, ?_, fy, isPend_raiseG_self ay 54 0, lz.pend p2⟩
  · rw [oy.1, x14]
    exact (congrArg tagOf BitVec.zero_or).trans (tagOf_tagFuses r15)
  · exact oy.2.1.trans (congrArg Otp.tag15 ox :)

/-- With both spares used it ends in an error. -/
theorem otpProgram_fails {p : Packet} {s : State} {r b : Nat} {bs : List Byte} {u : State} (hu : u = privTaken 0x60 p s) (a : anvilOn u = true)
    (h14 : s.otp.tag14 ≠ 0) (h15 : s.otp.tag15 ≠ 0) :
    SlotShows 4 5 [] p (programFuses r b bs false u) ∧ isPend (programFuses r b bs false u) 865 = true := by
  have ot : u.otp = s.otp := by rw [hu]; exact privTaken_only 0x60 p s .otp (by decide)
  obtain ⟨lx, ox, -, -⟩ := partBurnt_spec r b bs u
  have e := programFuses_failed r b bs u
  generalize partBurnt r b bs u = x at lx ox e
  rw [ot] at ox
  rw [blankSpare_used (by rw [ox]; exact h14) (by rw [ox]; exact h15)] at e
  have lz := raiseG_leaves (l := []) 54 1 x (.refl _ _)
  have l : Leaves [.otp, .free] u (raiseG 54 1 x) := lx.then lz (by decide)
  rw [e]
  subst hu
  exact ⟨privTaken_error l.slotKept 5, isPend_raiseG_self ((lx.anvilOn_sensed (by rw [ox, ot])).trans a) 54 1⟩

/-- An OTP_LOCK that passes its checks. -/
theorem otpLock_locks {p : Packet} {s : State} {r l : Byte} (ok : Bool) (h : Takes true p s) (e : p.params = [r, l]) (r15 : r.toNat ≤ 15) (l0 : l ≠ 0)
    (l3 : l.toNat ≤ 3) (c : customerRegion r.toNat = true) (lw : l.getLsbD 0 = true → lockSet s.otp.wl r.toNat = false)
    (lr : l.getLsbD 1 = true → lockSet s.otp.rl r.toNat = false) (pg : has s.rl.pg 0 = true) (st : s.glob.st = .run) :
    exec (.otpLock p ok) s = .next (lockFuses r.toNat (l.getLsbD 0) (l.getLsbD 1) ok (privTaken 0x61 p s)) := by
  refine (exec_privTaken (op := 0x61) h rfl).trans (congrArg Host.Outcome.next ?_)
  have o := privTaken_only 0x61 p s
  have ot : (privTaken 0x61 p s).otp = s.otp := o .otp (by decide)
  have rl : (privTaken 0x61 p s).rl = s.rl := o .rl (by decide)
  have gl : (privTaken 0x61 p s).glob = s.glob := o .glob (by decide)
  have nw : (l.getLsbD 0 && lockSet s.otp.wl r.toNat) = false := by
    cases x : l.getLsbD 0
    · rfl
    · rw [lw x]; rfl
  have nr : (l.getLsbD 1 && lockSet s.otp.rl r.toNat) = false := by
    cases x : l.getLsbD 1
    · rfl
    · rw [lr x]; rfl
  unfold otpLockBody
  rw [e]
  dsimp only
  rw [ot, rl, gl, c, nw, nr, pg, st]
  refine (if_neg ?_).trans (Eq.refl _)
  rintro (x | x | x)
  · omega
  · exact l0 x
  · omega

theorem otpLock_done {p : Packet} {s : State} {r : Nat} {w rd : Bool} {u : State} (hu : u = privTaken 0x61 p s) (a : anvilOn u = true) :
    SlotShows 3 0 [] p (lockFuses r w rd true u) ∧
    (∀ j, j < 16 → lockSet (lockFuses r w rd true u).otp.wl j = (lockSet s.otp.wl j || (decide (j = r) && w))) ∧
    (∀ j, j < 16 → lockSet (lockFuses r w rd true u).otp.rl j = (lockSet s.otp.rl j || (decide (j = r) && rd))) ∧
    (lockFuses r w rd true u).otp = { s.otp with wl := (lockFuses r w rd true u).otp.wl, rl := (lockFuses r w rd true u).otp.rl,
                                                  pend := setBit s.otp.pend (16 + r) true } ∧
    isPend (lockFuses r w rd true u) 864 = true ∧ isPend (lockFuses r w rd true u) 867 = true ∧
    Only ([.bus, .txn, .otp] ++ raiseParts) s (lockFuses r w rd true u) := by
  have ot : u.otp = s.otp := by rw [hu]; exact privTaken_only 0x61 p s .otp (by decide)
  obtain ⟨v, hv⟩ : ∃ v, v = logSecurity 5 r 0 u := ⟨_, rfl⟩
  have lv : Leaves [] u v := by rw [hv]; exact logOther_leaves _ _ _ _ (.refl _ _)
  have ov : v.otp = s.otp := (show v.otp = u.otp from lv.same .otp (by decide)).trans ot
  have e : lockFuses r w rd true u = doneWith [] (raiseG 54 0 (raiseG 54 3 (burnLocks r (if w then 0x1F else 0) (if rd then 0x1F else 0) v))) := by rw [hv]; rfl
  obtain ⟨bw, br⟩ := burnLocks_spec r (if w then 0x1F else 0) (if rd then 0x1F else 0) v
  have lx := burnLocks_leaves r (if w then 0x1F else 0) (if rd then 0x1F else 0) v
  have ox : (burnLocks r (if w then 0x1F else 0) (if rd then 0x1F else 0) v).otp = { v.otp with
    wl := (burnLocks r (if w then 0x1F else 0) (if rd then 0x1F else 0) v).otp.wl, rl := (burnLocks r (if w then 0x1F else 0) (if rd then 0x1F else 0) v).otp.rl,
    pend := setBit v.otp.pend (16 + r) true } := rfl
  have ax : anvilOn (burnLocks r (if w then 0x1F else 0) (if rd then 0x1F else 0) v) = true := (lx.anvilOn_sensed (congrArg Otp.sensed ox :)).trans (lv.anvilOn.trans a)
  generalize burnLocks r (if w then 0x1F else 0) (if rd then 0x1F else 0) v = x at e bw br lx ox ax
  have l3 := raiseG_leaves (l := []) 54 3 x (.refl _ _)
  have p3 := isPend_raiseG_self ax 54 3
  have l0 := raiseG_leaves (l := []) 54 0 (raiseG 54 3 x) (.refl _ _)
  have oz : (doneWith [] (raiseG 54 0 (raiseG 54 3 x))).otp = x.otp := (l3.then l0 (by decide)).same .otp (by decide)
  have l : Leaves [.otp] u (raiseG 54 0 (raiseG 54 3 x)) :=
    (((Leaves.refl [.otp] u).then lv (by decide)).then lx (by decide)).then (l3.then l0 (by decide)) (by decide)
  have one {m : Map (BitVec 5)} {f : BitVec 5} {w : Bool} (hf : f = if w then 0x1F else 0) (j : Nat) :
      (if j = r then fiveOf (mget 0 m r ||| f) else lockSet m j) = (lockSet m j || (decide (j = r) && w)) := by
    by_cases x : j = r
    · subst x; rw [if_pos rfl, hf, fiveOf_asked, decide_eq_true rfl, Bool.true_and]; rfl
    · rw [if_neg x, decide_eq_false x, Bool.false_and, Bool.or_false]
  rw [e, oz]
  rw [ov] at bw br ox
  subst hu
  exact ⟨privTaken_done l.slotKept, fun j _ => (bw j).trans (one rfl j), fun j _ => (br j).trans (one rfl j), ox,
    isPend_raiseG_self (l3.anvilOn.trans ax) 54 0, l0.pend p3, privTaken_leaves l (slotEnd_only _ _ _ _)⟩

theorem otpLock_fails {p : Packet} {s : State} {r : Nat} {w rd : Bool} {u : State} (hu : u = privTaken 0x61 p s) (a : anvilOn u = true)
    (hw : lockSet s.otp.wl r = false) (hr : lockSet s.otp.rl r = false) :
    SlotShows 4 5 [] p (lockFuses r w rd false u) ∧
    (lockFuses r w rd false u).otp = { s.otp with wl := (lockFuses r w rd false u).otp.wl, rl := (lockFuses r w rd false u).otp.rl,
                                                   pend := setBit s.otp.pend (16 + r) true } ∧
    ((w && rd) = false → lockSet (lockFuses r w rd false u).otp.wl r = false ∧ lockSet (lockFuses r w rd false u).otp.rl r = false) ∧
    (lockSet (lockFuses r w rd false u).otp.wl r = false ∨ lockSet (lockFuses r w rd false u).otp.rl r = false) ∧
    (∀ j, j < 16 → j ≠ r → lockSet (lockFuses r w rd false u).otp.wl j = lockSet s.otp.wl j ∧ lockSet (lockFuses r w rd false u).otp.rl j = lockSet s.otp.rl j) ∧
    isPend (lockFuses r w rd false u) 865 = true := by
  have ot : u.otp = s.otp := by rw [hu]; exact privTaken_only 0x61 p s .otp (by decide)
  obtain ⟨v, hv⟩ : ∃ v, v = logSecurity 5 r 0 u := ⟨_, rfl⟩
  have lv : Leaves [] u v := by rw [hv]; exact logOther_leaves _ _ _ _ (.refl _ _)
  have ov : v.otp = s.otp := (show v.otp = u.otp from lv.same .otp (by decide)).trans ot
  have e : lockFuses r w rd false u = slotError 5 (raiseG 54 1 (lockFailed r w rd v)) := by rw [hv]; rfl
  obtain ⟨one, two, others, ox, lx⟩ := lockFailed_spec (w := w) (rd := rd) (by rw [ov]; exact hw) (by rw [ov]; exact hr)
  have sx : (lockFailed r w rd v).otp.sensed = v.otp.sensed := (congrArg Otp.sensed ox :)
  generalize lockFailed r w rd v = x at sx e one two others ox lx
  have lz := raiseG_leaves (l := []) 54 1 x (.refl _ _)
  have oz : (slotError 5 (raiseG 54 1 x)).otp = x.otp := lz.same .otp (by decide)
  have l : Leaves [.otp, .free] u (raiseG 54 1 x) := (((Leaves.refl _ u).then lv (by decide)).then lx (by decide)).then lz (by decide)
  rw [e, oz]
  rw [ov] at ox others
  subst hu
  exact ⟨privTaken_error l.slotKept 5, ox, one, two, fun j _ => others j, isPend_raiseG_self ((lx.anvilOn_sensed sx).trans (lv.anvilOn.trans a)) 54 1⟩

theorem privTaken_anvil {op : Byte} {p : Packet} {s : State} (h : Takes true p s) : anvilOn (privTaken op p s) = true := by
  have g : (privTaken op p s).glob = s.glob := privTaken_only op p s .glob (by decide)
  have o : (privTaken op p s).otp = s.otp := privTaken_only op p s .otp (by decide)
  rw [show anvilOn (privTaken op p s) = anvilOn s by unfold anvilOn; rw [g, o]]
  exact takes_anvil h

/-- The state in which the checks of a privileged OTP command are made has the fuses and rails of the one before. -/
theorem privTaken_otp_rl (op : Byte) (p : Packet) (s : State) : (privTaken op p s).otp = s.otp ∧ (privTaken op p s).rl = s.rl :=
  ⟨privTaken_only op p s .otp (by decide), privTaken_only op p s .rl (by decide)⟩

/-- Settles O55: each check by its equation, each program, repair and lock by what it leaves of the fuses. -/
theorem hallmarkProgramming : Obligations.HallmarkProgramming := by
  unfold Obligations.HallmarkProgramming
  refine ⟨?_, ?_, ?_, ?_, ?_, ?_, ?_, ?_, ?_⟩
  · intro s p r b bs h e n n8 r15 fit c lk pg st
    exact .of_eq (otpProgram_programs true h e n n8 r15 fit c lk pg st) (otpProgram_done rfl (privTaken_anvil h))
  · intro s p ok r b bs h e bad
    exact otpProgram_rejects ok h (otpProgramBody_range ok e bad _)
  · intro s p ok r b bs h e n n8 r15 fit c
    refine otpProgram_rejects ok h ((otpProgramBody_checks ok e n n8 r15 fit _).trans ?_)
    rw [c]
    exact if_pos rfl
  · intro s p ok r b bs h e n n8 r15 fit c lk
    obtain ⟨ot, -⟩ := privTaken_otp_rl 0x60 p s
    refine otpProgram_rejects ok h ((otpProgramBody_checks ok e n n8 r15 fit _).trans ?_)
    rw [c, ot, lk]
    exact (if_neg (by decide)).trans (if_pos rfl)
  · intro s p ok r b bs h e n n8 r15 fit c lk pg
    obtain ⟨ot, rl⟩ := privTaken_otp_rl 0x60 p s
    refine otpProgram_rejects ok h ((otpProgramBody_checks ok e n n8 r15 fit _).trans ?_)
    rw [c, ot, rl, lk, pg]
    exact (if_neg (by decide)).trans ((if_neg (by decide)).trans (if_pos rfl))
  · intro s p r b bs h e n n8 r15 fit c lk pg st t14 blank home
    exact .of_eq (otpProgram_programs false h e n n8 r15 fit c lk pg st) (otpProgram_repaired rfl (privTaken_anvil h) r15 fit c t14 blank home)
  · intro s p r b bs h e n n8 r15 fit c lk pg st t14 t15
    exact .of_eq (otpProgram_programs false h e n n8 r15 fit c lk pg st) (otpProgram_fails rfl (privTaken_anvil h) t14 t15)
  · intro s p r l h e r15 l0 l3 c lw lr pg st
    exact .of_eq (otpLock_locks true h e r15 l0 l3 c lw lr pg st) (otpLock_done rfl (privTaken_anvil h))
  · intro s p r l h e r15 l0 l3 c hw hr pg st
    obtain ⟨shows, ot, one, two, others, pd⟩ := otpLock_fails (w := l.getLsbD 0) (rd := l.getLsbD 1) rfl (privTaken_anvil h) hw hr
    have both : ∀ l : Byte, l.toNat ≤ 3 → l ≠ 3 → (l.getLsbD 0 && l.getLsbD 1) = false := by decide
    exact .of_eq (otpLock_locks false h e r15 l0 l3 c (fun _ => hw) (fun _ => hr) pg st) ⟨shows, ot, fun n => one (both l l3 n), two, others, pd⟩

end Sys2Proof
end

section
/-! SUPPORT. The update engine: its journal, and what its operations do to its state. -/

namespace Sys2Proof.Machine

open Sys2Proof

/-! The journal (R440). -/

/-- A write of the journal makes its bank the one in force, and the other the next to be written. -/
theorem jrn_write (u : Upd) : jrnBank (writeJournal u) = some (jrnOf u) ∧ jrnSecond (writeJournal u) = !jrnSecond u := by
  have seq : (jrnOf u).seq = nextSeq (u.jrn0.map Jrn.seq) (u.jrn1.map Jrn.seq) := rfl
  unfold writeJournal jrnBank jrnSecond
  generalize jrnOf u = j at seq
  cases h0 : u.jrn0 <;> cases h1 : u.jrn1 <;> rw [h0, h1] at seq <;>
    simp only [Option.map_some, Option.map_none, nextSeq, Option.getD_some, Option.getD_none] at seq
  · simp [writeSecond, inForce, secondInForce]
  · next b =>
    have n : ¬j.seq < b.seq := by omega
    simp [writeSecond, inForce, secondInForce, n]
  · next a =>
    have n : a.seq < j.seq := by omega
    simp [writeSecond, inForce, secondInForce, n]
  · next a b =>
    by_cases c : a.seq < b.seq
    · have n : ¬j.seq < b.seq := by omega
      simp [writeSecond, inForce, secondInForce, c, n]
    · have n : a.seq < j.seq := by omega
      simp [writeSecond, inForce, secondInForce, c, n]

/-- A sector that can be erased where it is takes what is written, and nothing else of the device but the flash and a flag of Assay
changes. -/
theorem land_landable {n : Nat} {s : State} (h : Landable s n) (c : Option Content) : (land n true c s).1 = true ∧ Only [.fl, .tst] s (land n true c s).2 := by
  have keep : ¬((sector s (physical s n)).retired = true ∨ newCount (sector s (physical s n)) > 100000) := by
    rintro (x | x)
    · exact Bool.false_ne_true (h.1.symm.trans x)
    · exact absurd h.2 (by omega)
  have settle (u : State) : Only [.fl, .tst] u (marginSettle u) := by
    unfold marginSettle
    split
    · exact Only.refl _ _
    · simp [only_iff]
  have consume (u : State) : Only [.fl, .tst] u (consumeBuffer n u) := by
    unfold consumeBuffer
    split
    · simp [only_iff, setSector]
    · exact Only.refl _ _
  unfold land
  simp only [if_neg keep, Bool.true_or, if_true]
  refine ⟨trivial, Only.trans ?_ (consume _)⟩
  exact Only.trans (by simp [only_iff, dropRefresh, setSector]) (settle _)

/-- A write of the journal that can be made is made: what follows is `journalDone`. -/
theorem exec_journalDone {s : State} (fw : fwOn s = true) (sl : s.fl.slot = some .journal) (lb : Landable s (206 + (jrnSecond s.upd).toNat))
    (ro : readOnly 206 s = false) : ∃ x, Only [.fl, .tst] s x ∧ exec (.flashSlotDone true) s = .next (grant (journalShut (journalDone x))) := by
  obtain ⟨u, hu⟩ : ∃ u : State, u = { s with fl := { s.fl with slot := none } } := ⟨_, rfl⟩
  have ro' : readOnly (206 + (jrnSecond s.upd).toNat) u = false := by
    rw [hu, ← ro]
    cases jrnSecond s.upd <;> rfl
  have lb' : Landable u (206 + (jrnSecond s.upd).toNat) := by rw [hu]; exact lb
  obtain ⟨got, o⟩ := land_landable lb' (some (frameOf (bankKind (206 + (jrnSecond s.upd).toNat)) 44))
  refine ⟨(land (206 + (jrnSecond s.upd).toNat) true (some (frameOf (bankKind (206 + (jrnSecond s.upd).toNat)) 44)) u).2,
    Only.trans (by rw [hu]; simp [only_iff]) o, ?_⟩
  have e : exec (.flashSlotDone true) s = .next (grant (journalShut (slotDone .journal true u))) := by
    rw [hu]
    show Host.Outcome.next (match s.fl.slot with
      | some sl => if fwOn s then grant (journalShut (slotDone sl true { s with fl := { s.fl with slot := none } })) else s
      | none => s) = _
    rw [sl]
    exact congrArg Host.Outcome.next (if_pos fw)
  rw [e]
  have w : slotDone .journal true u = journalWritten true u := rfl
  have up : u.upd = s.upd := by rw [hu]
  rw [w]
  unfold journalWritten landBank
  dsimp only
  rw [up, ro', if_neg Bool.false_ne_true, got]
  rfl

/-- Nothing waits for a journal that is shut. -/
theorem journalShut_idle {s : State} (h : s.upd.want = none) : journalShut s = s := if_neg (by rw [h]; rintro ⟨x, -⟩; cases x)

/-! The states of the engine. -/

theorem wantJournal_upd (s : State) : (wantJournal s).upd = { s.upd with want := if readOnly 206 s then none else some .journal } := rfl

theorem updState_upd (n : Nat) (s : State) : (updState n s).upd = { s.upd with st := n, want := if readOnly 206 s then none else some .journal } := by
  unfold updState logUpdate
  rw [logOther_upd]
  rfl

theorem updPump_unread {s : State} (h : s.upd.man = none) : updPump s = s := by
  unfold updPump
  rw [h]

theorem setInactive_leaves (h : Option SlotHdr) (s : State) : Leaves [.upd] s (setInactive h s) := by
  unfold setInactive
  split <;> exact .of_only (by simp [only_iff]) rfl

theorem inactive_congr {s t : State} (b : t.upd.bootedB = s.upd.bootedB) (a : t.upd.slotA = s.upd.slotA) (c : t.upd.slotB = s.upd.slotB) : inactive t = inactive s := by
  unfold inactive
  rw [b, a, c]

/-- The slot that is not booted takes a header, and nothing else of the engine changes. -/
theorem setInactive_upd (h : Option SlotHdr) (s : State) : inactive (setInactive h s) = h ∧ (setInactive h s).upd.bootedB = s.upd.bootedB ∧
    (setInactive h s).upd.err = s.upd.err ∧ (setInactive h s).upd.prevOk = s.upd.prevOk := by
  unfold setInactive inactive
  cases b : s.upd.bootedB <;> simp [b]

/-- A stream error ends the session, and the command that waits (R439). -/
theorem updError_spec (e : Byte) {s : State} (a : anvilOn s = true) : (updError e s).upd.st = 0 ∧ (updError e s).upd.err = e ∧
    (updError e s).upd.prevOk = false ∧ inactive (updError e s) = none ∧ isPend (updError e s) 885 = true ∧
    (slotHas s 0x52 = true → (updError e s).bus.cstat = 4 ∧ (updError e s).bus.err = e) := by
  obtain ⟨v, hv⟩ : ∃ v : State, v = { dropSession s with upd := { (dropSession s).upd with err := e, prevOk := false } } := ⟨_, rfl⟩
  have lv : Leaves [.upd] s v := by rw [hv]; exact .of_only (by simp [only_iff, dropSession]) rfl
  have vu : v.upd.err = e ∧ v.upd.prevOk = false := by rw [hv]; exact ⟨rfl, rfl⟩
  obtain ⟨w, hw⟩ : ∃ w, w = updState 0 (setInactive none v) := ⟨_, rfl⟩
  have lw : Leaves [.upd] v w := by rw [hw]; exact updState_leaves 0 _ (setInactive_leaves none v)
  obtain ⟨inn, bb, er, po⟩ := setInactive_upd none v
  have wu := updState_upd 0 (setInactive none v)
  rw [← hw] at wu
  have wi : inactive w = none := (inactive_congr (by rw [wu]) (by rw [wu]) (by rw [wu])).trans inn
  have x := isPend_raiseG_self (lw.anvilOn.trans (lv.anvilOn.trans a)) 55 5
  have lx := raiseG_leaves (l := []) 55 5 w (.refl _ _)
  have xu : (raiseG 55 5 w).upd = w.upd := raiseG_upd ..
  have kept : SlotKept s (raiseG 55 5 w) := ((lv.then lw (by decide)).then lx (by decide)).slotKept
  have ee : updError e s = grant (if slotHas (raiseG 55 5 w) 0x51 || slotHas (raiseG 55 5 w) 0x52 then slotError e (raiseG 55 5 w) else raiseG 55 5 w) := by
    rw [hw, hv]; rfl
  have fin : Only [.bus] (raiseG 55 5 w) (if slotHas (raiseG 55 5 w) 0x51 || slotHas (raiseG 55 5 w) 0x52 then slotError e (raiseG 55 5 w) else raiseG 55 5 w) := by
    split
    · simp [only_iff, slotError, slotEnd]
    · exact Only.refl _ _
  have fb : slotHas s 0x52 = true → (if slotHas (raiseG 55 5 w) 0x51 || slotHas (raiseG 55 5 w) 0x52 then slotError e (raiseG 55 5 w) else raiseG 55 5 w).bus.cstat = 4 ∧
      (if slotHas (raiseG 55 5 w) 0x51 || slotHas (raiseG 55 5 w) 0x52 then slotError e (raiseG 55 5 w) else raiseG 55 5 w).bus.err = e := by
    intro h
    have h' : slotHas (raiseG 55 5 w) 0x52 = true := (kept.slotHas 0x52).trans h
    rw [h', Bool.or_true, if_pos rfl]
    exact ⟨rfl, rfl⟩
  clear hw hv
  generalize raiseG 55 5 w = y at x xu ee fin fb
  generalize (if slotHas y 0x51 || slotHas y 0x52 then slotError e y else y) = z at ee fin fb
  have zu : z.upd = w.upd := (show z.upd = y.upd from fin .upd (by decide)).trans xu
  have zi : z.irq = y.irq := fin .irq (by decide)
  rw [ee, grant_upd, grant_bus, zu]
  refine ⟨by rw [wu], by rw [wu]; exact er.trans vu.1, by rw [wu]; exact po.trans vu.2, ?_, ?_, fb⟩
  · exact (inactive_congr (by rw [grant_upd, zu]) (by rw [grant_upd, zu]) (by rw [grant_upd, zu])).trans wi
  · exact (isPend_congr (congrArg Irq.pend ((grant_irq z).trans zi)) 885).trans x

end Sys2Proof.Machine
end

section
/-! An update session (R436 to R438, R441, R442, R449). -/

namespace Sys2Proof

open Sys2Proof.Machine

theorem taken_upd (op : Byte) (p : Packet) (s : State) : (taken op p s).upd = s.upd := rfl

/-- What a command of the update engine may change. -/
theorem taken_updates {op : Byte} {p : Packet} {s x : State} (h : Leaves [.bus, .upd] (taken op p s) x) : Only ([.bus, .txn, .upd] ++ raiseParts) s x :=
  ((taken_only op p.tag s).weaken (by decide)).trans (h.only.weaken (by decide))

section
variable {s : State} {p : Packet} {k a b c d : Byte}

/-- UPD_BEGIN whose length and kind are in range. -/
theorem updBegin_checks (h : Takes false p s) (e : p.params = [k, a, b, c, d]) (k1 : k.toNat ≤ 1) (lo : 304 ≤ leNat [a, b, c, d]) (hi : leNat [a, b, c, d] ≤ 1048576) :
    exec (.updBegin p) s = .next (if [1, 2, 3, 5].contains s.upd.st then reject 2 (taken 0x50 p s)
      else if s.fl.ro.getLsbD 6 then reject 3 (taken 0x50 p s)
      else if !updStates (taken 0x50 p s) then rejectOpen (taken 0x50 p s)
      else updOpen (leNat [a, b, c, d]) (taken 0x50 p s)) := by
  refine (exec_taken (op := 0x50) h rfl).trans (congrArg Host.Outcome.next ?_)
  unfold updBeginBody
  rw [e]
  refine if_neg ?_
  rintro (x | x | x) <;> omega

/-- The session that UPD_BEGIN opens: its journal entry is wanted, and the command waits for it. -/
theorem updOpen_spec (len : Nat) {u : State} (on : anvilOn u = true) : (updOpen len u).bus.cstat = 2 ∧ (updOpen len u).bus.tag = u.bus.tag ∧ (updOpen len u).upd.st = 1 ∧
    (updOpen len u).upd.len = len ∧ (updOpen len u).upd.inp = 0 ∧ (updOpen len u).upd.out = 0 ∧ (updOpen len u).upd.man = none ∧
    (updOpen len u).upd.jact = .begin ∧ isPend (updOpen len u) 880 = true ∧ Leaves [.bus, .upd] u (updOpen len u) := by
  obtain ⟨v, hv⟩ : ∃ v : State, v = { u with upd := { u.upd with err := 0, inp := 0, len := len, out := 0, man := none, buf := [], wait := none, mark := 0,
                                                                  used := 0 } } := ⟨_, rfl⟩
  have lv : Leaves [.upd] u v := by rw [hv]; exact .of_only (by simp [only_iff]) rfl
  have vu : v.upd.len = len ∧ v.upd.inp = 0 ∧ v.upd.out = 0 ∧ v.upd.man = none := by rw [hv]; exact ⟨rfl, rfl, rfl, rfl⟩
  have lw : Leaves [.upd] v (updState 1 v) := updState_leaves 1 _ (.refl _ _)
  have wu := updState_upd 1 v
  have e : updOpen len u = grant { slotBusy (raiseG 55 0 (updState 1 v)) with upd := { (slotBusy (raiseG 55 0 (updState 1 v))).upd with jact := .begin } } := by rw [hv]; rfl
  generalize updState 1 v = w at lw wu e
  have lx := raiseG_leaves (l := [.upd]) 55 0 w (.refl _ _)
  have px := isPend_raiseG_self (lw.anvilOn.trans (lv.anvilOn.trans on)) 55 0
  have xu : (raiseG 55 0 w).upd = w.upd := raiseG_upd ..
  generalize raiseG 55 0 w = x at lx px xu e
  have l : Leaves [.upd] u x := (lv.then lw (by decide)).then lx (by decide)
  have ug : (updOpen len u).upd = { x.upd with jact := .begin } := by rw [e, grant_upd]; rfl
  have bg : (updOpen len u).bus = { x.bus with cstat := 2 } := by rw [e, grant_bus]; rfl
  have ig : (updOpen len u).irq = x.irq := by rw [e, grant_irq]; rfl
  rw [xu, wu] at ug
  rw [bg, ug]
  refine ⟨rfl, l.slotKept.tag, rfl, vu.1, vu.2.1, vu.2.2.1, vu.2.2.2, rfl, (isPend_congr (congrArg Irq.pend ig) 880).trans px,
    ?_⟩
  rw [e]
  exact grant_leaves _ (((Leaves.refl [.bus, .upd] u).then l (by decide)).set (by simp [only_iff, slotBusy]))

end

section
variable {s : State} {p : Packet}

theorem params_drop (lo : 4 < p.params.length) (hi : p.params.length ≤ 61) : p.params.drop 4 ≠ [] ∧ (p.params.drop 4).length ≤ 57 ∧
    (p.params.drop 4).length = p.params.length - 4 := by
  have l := List.length_drop (i := 4) (l := p.params)
  refine ⟨fun h => ?_, by omega, l⟩
  rw [h] at l
  simp only [List.length_nil] at l
  omega

/-- UPD_DATA of a length in range. -/
theorem updDataBody_checks (k : Bool) (lo : 4 < p.params.length) (hi : p.params.length ≤ 61) (u : State) : updDataBody k p u =
    if u.upd.st ≠ 1 ∧ u.upd.st ≠ 4 then reject 2 u
    else if leNat (p.params.take 4) > u.upd.inp ∨ leNat (p.params.take 4) + (p.params.drop 4).length > u.upd.len then reject 3 u
    else if !updStates u then rejectOpen u
    else updReceive k ((p.params.drop 4).drop (u.upd.inp - leNat (p.params.take 4))) (if u.upd.st = 4 then raiseG 55 4 (updState 1 u) else u) := by
  obtain ⟨ne, le, -⟩ := params_drop lo hi
  have inp : (if u.upd.st = 4 then raiseG 55 4 (updState 1 u) else u).upd.inp = u.upd.inp := by
    split
    · rw [raiseG_upd, updState_upd]
    · rfl
  unfold updDataBody
  dsimp only
  rw [inp]
  refine if_neg ?_
  rintro (x | x)
  · exact ne x
  · omega

/-- Bytes that do not complete the manifest only enter the buffer, and the command is done. -/
theorem updReceive_short (k : Bool) {bs : List Byte} {u : State} (man : u.upd.man = none) (short : u.upd.buf.length + bs.length < 304) (op : u.bus.op = 0x51) :
    updReceive k bs u = slotEnd 3 0 [] (grant (slotBusy (takeBytes bs u))) := by
  have room : ¬(u.upd.buf.length + bs.length > bufRoom) := by
    unfold bufRoom
    omega
  have part : ¬((slotBusy (takeBytes bs u)).upd.man.isNone = true ∧ (slotBusy (takeBytes bs u)).upd.used = 0 ∧ (slotBusy (takeBytes bs u)).upd.buf.length ≥ 304) := by
    rintro ⟨-, -, x⟩
    rw [show (slotBusy (takeBytes bs u)).upd.buf = u.upd.buf ++ bs from rfl, List.length_append] at x
    omega
  have idle : updPump (grant (slotBusy (takeBytes bs u))) = grant (slotBusy (takeBytes bs u)) := updPump_unread (by rw [grant_upd]; exact man)
  have waits : slotHas (grant (slotBusy (takeBytes bs u))) 0x51 = true := by
    unfold slotHas
    rw [grant_bus]
    show (decide (2 = 2) && decide (u.bus.op = 0x51)) = true
    rw [op]
    rfl
  unfold updReceive
  rw [if_neg room]
  dsimp only
  rw [if_neg part, idle, if_pos waits]

/-- UPD_DATA at the stream's place, short of the manifest's end. -/
theorem updData_taken (k : Bool) (h : Takes false p s) (rcv : s.upd.st = 1 ∨ s.upd.st = 4) (st : s.glob.st = .run) (lo : 4 < p.params.length)
    (hi : p.params.length ≤ 61) (place : s.upd.inp = leNat (p.params.take 4)) (man : s.upd.man = none) (short : s.upd.buf.length + (p.params.length - 4) < 304)
    (fit : s.upd.inp + (p.params.length - 4) ≤ s.upd.len) : Ends (.updData p k) s (fun t => SlotShows 3 0 [] p t ∧ t.upd.st = 1 ∧
      t.upd.buf = s.upd.buf ++ p.params.drop 4 ∧ t.upd.inp = s.upd.inp + (p.params.length - 4) ∧ (s.upd.st = 4 → isPend t 884 = true) ∧
      Only ([.bus, .txn, .upd] ++ raiseParts) s t) := by
  obtain ⟨-, -, len⟩ := params_drop lo hi
  obtain ⟨u, hu⟩ : ∃ u, u = taken 0x51 p s := ⟨_, rfl⟩
  have uu : u.upd = s.upd := by rw [hu]; rfl
  have ug : u.glob = s.glob := by rw [hu]; exact taken_only _ _ _ .glob (by decide)
  have on : anvilOn u = true := by rw [hu]; exact (taken_anvil _ _ _).trans (takes_anvil h)
  have ub : u.bus.tag = p.tag ∧ u.bus.op = 0x51 := by rw [hu]; exact ⟨rfl, rfl⟩
  have body : updDataBody k p u = updReceive k (p.params.drop 4) (if u.upd.st = 4 then raiseG 55 4 (updState 1 u) else u) := by
    rw [updDataBody_checks k lo hi, uu, place, Nat.sub_self, List.drop_zero, if_neg (by rcases rcv with x | x <;> rw [x] <;> decide), if_neg (by omega), if_neg]
    unfold updStates
    rw [ug, st]
    decide
  obtain ⟨v, hv⟩ : ∃ v, v = if u.upd.st = 4 then raiseG 55 4 (updState 1 u) else u := ⟨_, rfl⟩
  have lv : Leaves [.upd] u v := by
    rw [hv]
    exact .ite (fun _ => raiseG_leaves 55 4 _ (updState_leaves 1 u (.refl _ _))) fun _ => .refl _ _
  have vu : v.upd.st = 1 ∧ v.upd.buf = s.upd.buf ∧ v.upd.inp = s.upd.inp ∧ v.upd.man = none ∧ (s.upd.st = 4 → isPend v 884 = true) := by
    rw [hv]
    rcases rcv with x | x
    · rw [if_neg (by rw [uu, x]; decide), uu]
      exact ⟨x, rfl, rfl, man, fun y => absurd (x.symm.trans y) (by decide)⟩
    · rw [if_pos (by rw [uu, x]), raiseG_upd, updState_upd, uu]
      exact ⟨rfl, rfl, rfl, man, fun _ => isPend_raiseG_self ((updState_leaves 1 u (.refl _ u)).anvilOn.trans on) 55 4⟩
  obtain ⟨vst, vbuf, vinp, vman, vp⟩ := vu
  have e : exec (.updData p k) s = .next (slotEnd 3 0 [] (grant (slotBusy (takeBytes (p.params.drop 4) v)))) := by
    refine (exec_taken (op := 0x51) h rfl).trans (congrArg Host.Outcome.next ?_)
    rw [← hu, body, ← hv]
    exact updReceive_short k vman (by rw [vbuf, len]; exact short) (lv.slotKept.op.trans ub.2)
  have lx : Leaves [.bus, .upd] u (slotBusy (takeBytes (p.params.drop 4) v)) := (Leaves.refl [.bus, .upd] u).then lv (by decide) |>.set (by simp [only_iff, slotBusy, takeBytes])
  have ly : Leaves [.bus, .upd] u (slotEnd 3 0 [] (grant (slotBusy (takeBytes (p.params.drop 4) v)))) := (grant_leaves _ lx).set (by simp [only_iff, slotEnd])
  refine .of_eq e ⟨⟨rfl, ?_, rfl, rfl⟩, ?_, ?_, ?_, fun x => ?_, taken_updates (hu ▸ ly)⟩
  · show (grant (slotBusy (takeBytes (p.params.drop 4) v))).bus.tag = _
    rw [grant_bus]
    exact lv.slotKept.tag.trans ub.1
  · rw [slotEnd_upd, grant_upd]; exact vst
  · rw [slotEnd_upd, grant_upd]; exact congrArg (· ++ p.params.drop 4) vbuf
  · rw [slotEnd_upd, grant_upd]
    show v.upd.inp + (p.params.drop 4).length = _
    rw [vinp, len]
  · refine (isPend_congr (congrArg Irq.pend ?_) 884).trans (vp x)
    show (grant (slotBusy (takeBytes (p.params.drop 4) v))).irq = _
    rw [grant_irq]
    rfl

end

/-- The journal entry of UPD_BEGIN has been written. -/
theorem beginEntry_written {s : State} (fw : fwOn s = true) (sl : s.fl.slot = some .journal) (j : s.upd.jact = .begin) (man : s.upd.man = none)
    (w : slotHas s 0x50 = true) (lb : Landable s (206 + (jrnSecond s.upd).toNat)) (ro : readOnly 206 s = false) : Ends (.flashSlotDone true) s (fun t =>
      t.bus.cstat = 3 ∧ t.bus.err = 0 ∧ jrnBank t.upd = some (jrnOf s.upd) ∧ jrnSecond t.upd = !(jrnSecond s.upd) ∧ t.upd.want = none) := by
  obtain ⟨x, o, e⟩ := exec_journalDone fw sl lb ro
  have xu : x.upd = s.upd := o .upd (by decide)
  have xb : x.bus = s.bus := o .bus (by decide)
  obtain ⟨y, hy⟩ : ∃ y : State, y = { x with upd := { writeJournal { x.upd with want := none } with jact := .none } } := ⟨_, rfl⟩
  have wm : (writeJournal { x.upd with want := none }).man = none ∧ (writeJournal { x.upd with want := none }).want = none := by
    unfold writeJournal
    split <;> exact ⟨(congrArg Upd.man xu).trans man, rfl⟩
  obtain ⟨bank, second⟩ := jrn_write { x.upd with want := none }
  have wy : slotHas y 0x50 = true := by rw [hy]; unfold slotHas at w ⊢; exact xb ▸ w
  have done : journalDone x = slotEnd 3 0 [] y := by
    unfold journalDone
    rw [xu, j]
    dsimp only
    rw [← xu, ← hy, if_pos wy]
    exact updPump_unread (by rw [slotEnd_upd, hy]; exact wm.1)
  have yu : y.upd = { writeJournal { x.upd with want := none } with jact := .none } := by rw [hy]
  rw [done, journalShut_idle (by rw [slotEnd_upd, yu]; exact wm.2)] at e
  refine .of_eq e ⟨?_, ?_, ?_, ?_, ?_⟩
  · rw [grant_bus]; rfl
  · rw [grant_bus]; rfl
  · rw [grant_upd, slotEnd_upd, yu]
    exact bank.trans (congrArg (fun u : Upd => some (jrnOf { u with want := none })) xu)
  · rw [grant_upd, slotEnd_upd, yu]
    exact second.trans (congrArg (fun u : Upd => !jrnSecond { u with want := none }) xu)
  · rw [grant_upd, slotEnd_upd, yu]
    exact wm.2

/-- UPD_END of a complete session. -/
theorem updEnd_begins {s : State} {p : Packet} (h : Takes false p s) (e : p.params = []) (st : s.upd.st = 1) (c : updComplete s = true) (run : s.glob.st = .run) :
    Ends (.updEnd p) s (fun t => t.bus.cstat = 2 ∧ t.bus.tag = p.tag ∧ t.bus.prog = 0 ∧ t.upd.st = 2 ∧
      t.upd.want = (if readOnly 206 s then none else some .journal)) := by
  obtain ⟨u, hu⟩ : ∃ u, u = taken 0x52 p s := ⟨_, rfl⟩
  have o : Only [.bus, .txn] s u := by rw [hu]; exact taken_only _ _ _
  have uu : u.upd = s.upd := o .upd (by decide)
  have ug : u.glob = s.glob := o .glob (by decide)
  have uf : u.fl = s.fl := o .fl (by decide)
  have ut : u.bus.tag = p.tag := by rw [hu]; rfl
  have body : updEndBody p u = grant (slotBusy (updState 2 { u with bus := { u.bus with prog := 0 } })) := by
    have cu : updComplete u = true := by unfold updComplete at c ⊢; rw [uu]; exact c
    have su : updStates u = true := by unfold updStates; rw [ug, run]; rfl
    unfold updEndBody
    rw [if_neg (by rw [e]; simp), if_neg (by rw [uu, st, cu]; decide), if_neg (by rw [su]; decide)]
  have lw : Leaves [.upd] { u with bus := { u.bus with prog := 0 } } (updState 2 { u with bus := { u.bus with prog := 0 } }) := updState_leaves 2 _ (.refl _ _)
  have wu := updState_upd 2 { u with bus := { u.bus with prog := 0 } }
  have pr : (updState 2 { u with bus := { u.bus with prog := 0 } }).bus.prog = 0 := (congrArg (fun b : Bus => b.prog) lw.busKept :)
  have tg := lw.slotKept.tag
  refine .of_eq ((exec_taken (op := 0x52) h rfl).trans (congrArg Host.Outcome.next ((congrArg (updEndBody p) hu.symm).trans body))) ?_
  generalize updState 2 { u with bus := { u.bus with prog := 0 } } = w at wu pr tg
  rw [grant_bus, grant_upd]
  refine ⟨rfl, tg.trans ut, pr, ?_, ?_⟩
  · rw [slotBusy_upd, wu]
  · rw [slotBusy_upd, wu]
    show (if readOnly 206 u then none else some Slot.journal) = _
    have r : readOnly 206 u = readOnly 206 s := by unfold readOnly; rw [uf]
    rw [r]

/-- Good digests end the checks in ready. -/
theorem updVerifyEnd_ready {s : State} {m : Manifest} (fw : fwOn s = true) (st : s.upd.st = 2) (man : s.upd.man = some m) (d : digestsOk m s = true)
    (i : m.fw = true → imageError s = 0) : Ends (.updVerifyEnd true) s (fun t => t.upd.st = 3 ∧ isPend t 882 = true ∧
      (slotHas s 0x52 = true → t.bus.cstat = 3 ∧ t.bus.err = 0 ∧ t.bus.prog = 100)) := by
  have none : (if !(true && digestsOk m s) then 0x15 else if m.fw then imageError s else 0) = 0 := by
    rw [d]
    cases x : m.fw
    · rfl
    · exact i x
  have lw : Leaves [.upd] s (updState 3 s) := updState_leaves 3 _ (.refl _ _)
  have wu := updState_upd 3 s
  have e : exec (.updVerifyEnd true) s = .next (grant (if slotHas (raiseG 55 2 (updState 3 s)) 0x52 then
      slotEnd 3 0 [] { raiseG 55 2 (updState 3 s) with bus := { (raiseG 55 2 (updState 3 s)).bus with prog := 100 } } else raiseG 55 2 (updState 3 s))) := by
    show Host.Outcome.next (match s.upd.man with
      | some m => if fwOn s && decide (s.upd.st = 2) then updVerified true m s else s
      | .none => s) = _
    rw [man]
    refine congrArg Host.Outcome.next ((if_pos (by rw [fw, st]; rfl)).trans ?_)
    unfold updVerified
    dsimp only
    rw [none]
    rfl
  have px := isPend_raiseG_self (lw.anvilOn.trans (fwOn_anvil fw)) 55 2
  have kept : SlotKept s (raiseG 55 2 (updState 3 s)) := (raiseG_leaves 55 2 _ lw).slotKept
  have xu : (raiseG 55 2 (updState 3 s)).upd.st = 3 := by rw [raiseG_upd, wu]
  refine .of_eq e ?_
  generalize raiseG 55 2 (updState 3 s) = x at px kept xu
  have has := kept.slotHas 0x52
  rw [grant_upd, grant_bus]
  by_cases w : slotHas x 0x52 = true
  · rw [if_pos w]
    exact ⟨xu, (isPend_congr (congrArg Irq.pend ((grant_irq _).trans rfl)) 882).trans px, fun _ => ⟨rfl, rfl, rfl⟩⟩
  · rw [if_neg w]
    exact ⟨xu, (isPend_congr (congrArg Irq.pend (grant_irq _)) 882).trans px, fun y => absurd (has.trans y) w⟩

/-- Any other digests end the session. -/
theorem updVerifyEnd_fails {s : State} {m : Manifest} {k : Bool} (fw : fwOn s = true) (st : s.upd.st = 2) (man : s.upd.man = some m)
    (bad : k = false ∨ digestsOk m s = false) : exec (.updVerifyEnd k) s = .next (updError 0x15 s) := by
  show Host.Outcome.next (match s.upd.man with
    | some m => if fwOn s && decide (s.upd.st = 2) then updVerified k m s else s
    | none => s) = _
  rw [man]
  refine congrArg Host.Outcome.next ((if_pos (by rw [fw, st]; rfl)).trans ?_)
  have e : (if !(k && digestsOk m s) then 0x15 else if m.fw then imageError s else 0) = 0x15 :=
    if_pos (by rcases bad with x | x <;> simp [x])
  unfold updVerified
  dsimp only
  rw [e]
  rfl

/-- Settles O56: each command by its checks, and what a session's steps do to the engine's state. -/
theorem updateSessions : Obligations.UpdateSessions := by
  unfold Obligations.UpdateSessions
  refine ⟨?_, ?_, ?_, fun s fw sl j man w lb ro => beginEntry_written fw sl j man w lb ro, ?_, ?_,
    fun s p k h rcv st lo hi place man short fit => updData_taken k h rcv st lo hi place man short fit,
    fun s p h e st c run => updEnd_begins h e st c run, ?_, fun s m fw st man d i => updVerifyEnd_ready fw st man d i, ?_, ?_⟩
  · intro s p k a b c d h e k1 lo hi st ro run
    have ug : (taken 0x50 p s).glob = s.glob := taken_only _ _ _ .glob (by decide)
    have x := (updBegin_checks h e k1 lo hi).trans (congrArg Host.Outcome.next ((if_neg (by rcases st with x | x | x | x <;> rw [x] <;> decide)).trans
      ((if_neg (by rw [ro]; decide)).trans (if_neg (by unfold updStates; rw [ug, run]; decide)))))
    obtain ⟨b1, b2, u1, u2, u3, u4, u5, u6, pd, l⟩ := updOpen_spec (leNat [a, b, c, d]) ((taken_anvil 0x50 p.tag s).trans (takes_anvil h))
    exact .of_eq x ⟨b1, b2, u1, u2, u3, u4, u5, u6, pd, taken_updates l⟩
  · intro s p k a b c d h e bad
    refine Ends.slotEnd (op := 0x50) (body := updBeginBody p) h rfl ?_
    unfold updBeginBody
    rw [e]
    exact if_pos (by rcases bad with x | x | x <;> omega)
  · intro s p k a b c d h e k1 lo hi st
    exact .of_eq ((updBegin_checks h e k1 lo hi).trans (congrArg Host.Outcome.next (if_pos (by rcases st with x | x | x | x <;> rw [x] <;> decide))))
      (slotEnd_shows 0x50 p s 5 2 [])
  · intro s p k h st lo hi
    refine Ends.slotEnd (op := 0x51) (body := updDataBody k p) h rfl ?_
    rw [updDataBody_checks k lo hi, taken_upd]
    exact if_pos (by rcases st with x | x | x | x <;> rw [x] <;> decide)
  · intro s p k h st lo hi past
    refine Ends.slotEnd (op := 0x51) (body := updDataBody k p) h rfl ?_
    rw [updDataBody_checks k lo hi, taken_upd, if_neg (by rw [st]; decide)]
    exact if_pos (.inl past)
  · intro s p h e bad
    refine Ends.slotEnd (op := 0x52) (body := updEndBody p) h rfl ?_
    unfold updEndBody
    rw [if_neg (by rw [e]; simp)]
    refine if_pos (bad.imp_right fun x => ?_)
    show (!updComplete s) = true
    rw [x]
    rfl
  · intro s m k fw st man bad
    exact .of_eq (updVerifyEnd_fails fw st man bad) (updError_spec 0x15 (fwOn_anvil fw))
  · intro s p h e run
    refine Ends.slotEnd (op := 0x53) (body := fun s => if p.params ≠ [] then reject 0x01 s else if !updStates s then rejectOpen s else doneWith (resumeInfo s) s) h rfl ?_
    have ug : (taken 0x53 p s).glob = s.glob := taken_only _ _ _ .glob (by decide)
    rw [if_neg (by rw [e]; simp), if_neg (by unfold updStates; rw [ug, run]; decide)]
    rfl

end Sys2Proof
end

section
/-! Activation, confirmation and fall-back of an update (R444, R446 to R449). -/

namespace Sys2Proof.Machine

open Sys2Proof

variable {z : State}

/-! Confirmation programs fuses. -/

theorem advanceArcnt_leaves (n : Nat) (s : State) : Leaves [.otp] s (advanceArcnt n s) := by
  have b (u : State) : Leaves [.otp] u (burn9 0 (countBytes n ++ countBytes n) u) := .of_only (by simp [burn9, burn, only_iff]) rfl
  unfold advanceArcnt
  refine .ite (fun _ => .refl _ _) fun _ => ?_
  have l := raiseG_leaves 54 8 _ (logOther_leaves 6 0x3FF (BitVec.ofNat 32 (8 + 256 * 0 + 65536 * n)) _ (b s))
  exact .ite (fun _ => raiseG_leaves 54 9 _ l) fun _ => l

theorem revokeSlot_leaves (i : Nat) (s : State) : Leaves [.otp] s (revokeSlot i s) :=
  raiseG_leaves 54 10 _ (logOther_leaves _ _ _ _ (burn_leaves _ _ _ _))

theorem revokeTwo_leaves (c : Nat → Bool) (k : Nat) (s : State) :
    Leaves [.otp] s ([0, 1].foldl (fun s i => if c i then revokeSlot (k + i) s else s) s) := by
  have one (i : Nat) (s : State) : Leaves [.otp] s (if c i then revokeSlot (k + i) s else s) := .ite (fun _ => revokeSlot_leaves _ _) fun _ => .refl _ _
  exact (one 0 s).then (one 1 _) (by decide)

/-- What confirmation programs before its journal entry. -/
def confirmFuses (s : State) : State :=
  let s := match booted s with
    | some h =>
      let s := advanceArcnt h.svn s
      [0, 1].foldl (fun s i => if h.revoke.getLsbD i then revokeSlot i s else s) s
    | none => s
  match s.upd.man with
  | some m => [0, 1].foldl (fun s i => if m.revoke.getLsbD i then revokeSlot (2 + i) s else s) s
  | none => s

theorem confirm_eq (s : State) : confirm s = if readOnly 206 (confirmFuses s) then journalLost (confirmFuses s)
    else grant { confirmFuses s with upd := { (confirmFuses s).upd with want := some .journal, jact := .confirm } } := rfl

theorem confirmFuses_leaves (s : State) : Leaves [.otp] s (confirmFuses s) := by
  unfold confirmFuses
  dsimp only
  have first : Leaves [.otp] s (match booted s with
    | some h => [0, 1].foldl (fun s i => if h.revoke.getLsbD i then revokeSlot i s else s) (advanceArcnt h.svn s)
    | none => s) := by
    cases booted s with
    | none => exact .refl _ _
    | some h =>
      have r := revokeTwo_leaves h.revoke.getLsbD 0 (advanceArcnt h.svn s)
      simp only [Nat.zero_add] at r
      exact (advanceArcnt_leaves h.svn s).then r (by decide)
  split
  · next m _ => exact first.then (revokeTwo_leaves m.revoke.getLsbD 2 _) (by decide)
  · exact first

theorem readOnly_leaves {l : List Part} {s t : State} (h : Leaves l s t) (n : Nat) (hf : .fl ∉ l := by decide) : readOnly n t = readOnly n s := by
  have f : (unmarked t).fl = (unmarked s).fl := h.marked .fl hf
  have r : t.fl.ro = s.fl.ro := (congrArg (fun f : Fl => f.ro) f : (unmarked t).fl.ro = (unmarked s).fl.ro)
  unfold readOnly
  rw [r]

/-- Confirmation with a journal that can be written. -/
theorem confirm_wants {s : State} (ro : readOnly 206 s = false) : (confirm s).upd = { s.upd with want := some .journal, jact := .confirm } ∧
    SlotKept s (confirm s) := by
  have l := confirmFuses_leaves s
  have e := (confirm_eq s).trans (if_neg (by rw [readOnly_leaves l, ro]; decide))
  have u : (confirmFuses s).upd = s.upd := l.same .upd (by decide)
  rw [e, grant_upd]
  refine ⟨by rw [← u], l.slotKept.trans (.of_eq ?_)⟩
  rw [grant_bus]

/-- A journal that is lost ends the command that waits for it. -/
theorem journalLost_waiting {s : State} (j : s.upd.jact ≠ .fell) (w : slotHas s 0x54 = true) :
    journalLost s = slotError 3 { s with upd := { s.upd with want := none, jact := .none } } := by
  unfold journalLost
  dsimp only
  rw [decide_eq_false j, if_neg Bool.false_ne_true]
  exact if_pos (by rw [show slotHas { s with upd := { s.upd with want := none, jact := .none } } 0x54 = true from w, Bool.or_true])

/-- With one that cannot be, and nothing else waiting for it, the command ends. -/
theorem confirm_lost {s : State} (ro : readOnly 206 s = true) (j : s.upd.jact = .none) (w : slotHas s 0x54 = true) :
    (confirm s).upd = { s.upd with want := none } ∧ (confirm s).bus.cstat = 4 ∧ (confirm s).bus.err = 3 ∧ (confirm s).bus.tag = s.bus.tag ∧
    (confirm s).bus.cres = s.bus.cres := by
  have l := confirmFuses_leaves s
  have e := (confirm_eq s).trans (if_pos (by rw [readOnly_leaves l, ro]))
  have u : (confirmFuses s).upd = s.upd := l.same .upd (by decide)
  have k := l.slotKept
  generalize confirmFuses s = x at e u k
  have lost := journalLost_waiting (by rw [u, j]; decide) ((k.slotHas 0x54).trans w)
  rw [e, lost]
  refine ⟨?_, rfl, rfl, k.tag, k.cres⟩
  rw [slotError_upd, u]
  show ({ s.upd with want := none, jact := .none } : Upd) = _
  rw [← j]

/-! The fall-back. -/

/-- The booted slot, the next one and the note of a fall-back. -/
structure BootsKept (s t : State) : Prop where
  booted : t.upd.bootedB = s.upd.bootedB
  next : t.upd.nextB = s.upd.nextB
  fell : t.upd.fell = s.upd.fell

theorem BootsKept.refl (s : State) : BootsKept s s := ⟨rfl, rfl, rfl⟩
theorem BootsKept.trans {s t u : State} (h : BootsKept s t) (g : BootsKept t u) : BootsKept s u :=
  ⟨g.booted.trans h.booted, g.next.trans h.next, g.fell.trans h.fell⟩
theorem BootsKept.of_eq {s t : State} (h : t.upd = s.upd) : BootsKept s t := by constructor <;> rw [h]

theorem bootsKept_ite {c : Prop} [Decidable c] {s a b : State} (ha : BootsKept s a) (hb : BootsKept s b) : BootsKept s (if c then a else b) := by
  split
  · exact ha
  · exact hb

theorem dropBank_boots (n : Nat) (s : State) : BootsKept s (dropBank n s) := by
  unfold dropBank
  repeat' refine bootsKept_ite ?_ ?_
  all_goals exact ⟨rfl, rfl, rfl⟩

theorem settleBanks_boots (s : State) : BootsKept s (settleBanks s) := by
  unfold settleBanks
  generalize bankSectors = l
  induction l generalizing s with
  | nil => exact .refl _
  | cons n l ih =>
    exact BootsKept.trans (bootsKept_ite (.refl _) (dropBank_boots n s)) (ih _)

theorem cutErase_boots (n : Nat) (blank : Bool) (s : State) : BootsKept s (cutErase n blank s).2 :=
  .of_eq ((cutErase_leaves n blank s (.refl _ _)).same .upd (by decide))

/-- The flash stops in its slot, and what boots next stays. -/
theorem dropSlot_boots (s : State) : BootsKept s (dropSlot s) := by
  unfold dropSlot
  split
  · exact .refl _
  · next sl _ =>
    have idle : BootsKept s { s with fl := { s.fl with slot := none } } := .of_eq rfl
    dsimp only
    split
    · exact .of_eq ((cutLog_leaves { s with fl := { s.fl with slot := none } } (.refl _ _)).same .upd (by decide))
    · next i _ => exact .of_eq ((cutLogErase_leaves i { s with fl := { s.fl with slot := none } } (.refl _ _)).same .upd (by decide))
    · next i _ => exact .of_eq ((cutLogErase_leaves i { s with fl := { s.fl with slot := none } } (.refl _ _)).same .upd (by decide))
    · next n _ =>
      have c := cutErase_boots ((if s.upd.bootedB then 0 else 96) + n) false { s with fl := { s.fl with slot := none } }
      refine BootsKept.trans (idle.trans c) ?_
      exact bootsKept_ite (.refl _) (bootsKept_ite ⟨rfl, rfl, rfl⟩ ⟨rfl, rfl, rfl⟩)
    · next p _ =>
      refine BootsKept.trans (.of_eq ?_) (settleBanks_boots _)
      exact ((cutRefresh_leaves p { s with fl := { s.fl with slot := none } } (.refl _ _)).same .upd (by decide) :)
    · split
      · exact (idle.trans (cutErase_boots _ _ _)).trans (settleBanks_boots _)
      · exact idle

theorem islandRestart_boots (s : State) : BootsKept s (islandRestart s) := by
  have b : (busRestart (dropSlot s)).upd = (dropSlot s).upd := (busRestart_leaves _ (.refl _ _)).same .upd (by decide)
  refine (dropSlot_boots s).trans (.of_eq (Eq.trans ?_ b))
  unfold islandRestart
  dsimp only
  generalize busRestart (dropSlot s) = x
  split
  · split <;> simp
  · simp

theorem causedRestart_boots (b k : Nat) (s : State) : BootsKept s (causedRestart b k s) := by
  obtain ⟨u, hu⟩ : ∃ u : State, u = { s with glob := { s.glob with rstcause := setBit s.glob.rstcause b true } } := ⟨_, rfl⟩
  have h : BootsKept s u := .of_eq (by rw [hu])
  have c : causedRestart b k s = islandRestart (snapshot 3 k u) := by rw [hu]; rfl
  rw [c]
  exact (h.trans (.of_eq ((snapshot_leaves 3 k u (.refl _ _)).same .upd (by decide)))).trans (islandRestart_boots _)

end Sys2Proof.Machine

namespace Sys2Proof

open Sys2Proof.Machine

/-- A timer that no raise arms stays as it is. -/
theorem Leaves.unmarkedTimer {l : List Part} {s t : State} (h : Leaves l s t) {e : Instr} (hm : isMark e = false) (hc : .clk ∉ l := by decide) : Timed e s t := by
  have c : (unmarked t).clk = (unmarked s).clk := h.marked .clk hc
  have f : t.clk.timers.filter (fun t => !isMark t.ev) = s.clk.timers.filter (fun t => !isMark t.ev) :=
    (congrArg Clk.timers c : (unmarked t).clk.timers = (unmarked s).clk.timers)
  intro d
  have x := congrArg (fun l => ⟨d, e⟩ ∈ l) f
  simpa [hm] using x

/-! Clauses. -/

theorem updConfirm_confirms {s : State} {p : Packet} (h : Takes false p s) (e : p.params = []) (c : mayConfirm s = true) (run : s.glob.st = .run) :
    exec (.updConfirm p) s = .next (confirm (slotBusy (taken 0x54 p s))) := by
  refine (exec_taken (op := 0x54) h rfl).trans (congrArg Host.Outcome.next ?_)
  have o := taken_only 0x54 p.tag s
  have ug : (taken 0x54 p s).glob = s.glob := o .glob (by decide)
  have uq : (taken 0x54 p s).seq = s.seq := o .seq (by decide)
  have c' : mayConfirm (taken 0x54 p s) = true := by unfold mayConfirm at c ⊢; rw [taken_upd, uq]; exact c
  exact (if_neg (by rw [e]; simp)).trans ((if_neg (by rw [c']; decide)).trans (if_neg (by unfold updStates; rw [ug, run]; decide)))

theorem mayConfirm_state {s : State} (c : mayConfirm s = true) : s.upd.st = 5 := by
  simp only [mayConfirm, Bool.and_eq_true, decide_eq_true_eq] at c
  exact c.1.1.1

/-- The confirming write of the journal has been made. -/
theorem confirmation_written {s : State} (fw : fwOn s = true) (sl : s.fl.slot = some .journal) (j : s.upd.jact = .confirm) (st : s.upd.st = 5)
    (f : s.upd.fell = false) (lb : Landable s (206 + (jrnSecond s.upd).toNat)) (ro : readOnly 206 s = false) : Ends (.flashSlotDone true) s (fun t =>
      t.upd.st = 6 ∧ t.upd.prevOk = true ∧ t.upd.jact = .none ∧ isPend t 888 = true ∧ armed .ttrialExpire t = false ∧ armed .tconfExpire t = false ∧
      (slotHas s 0x54 = true → t.bus.cstat = 3 ∧ t.bus.err = 0)) := by
  obtain ⟨x, o, e⟩ := exec_journalDone fw sl lb ro
  have xu : x.upd = s.upd := o .upd (by decide)
  have xb : x.bus = s.bus := o .bus (by decide)
  have xg : x.glob = s.glob := o .glob (by decide)
  have xo : x.otp = s.otp := o .otp (by decide)
  obtain ⟨u, hu⟩ : ∃ u : Upd, u = { x.upd with st := 6, prevOk := true, jact := .none, want := none, confEnd := none, cfgNew := 0 } := ⟨_, rfl⟩
  have wu : (writeJournal u).st = 6 ∧ (writeJournal u).prevOk = true ∧ (writeJournal u).jact = .none ∧ (writeJournal u).want = none := by
    rw [hu]
    unfold writeJournal
    split <;> exact ⟨rfl, rfl, rfl, rfl⟩
  obtain ⟨v, hv⟩ : ∃ v, v = disarm .ttrialExpire (disarm .tconfExpire { x with upd := writeJournal u }) := ⟨_, rfl⟩
  have vu : v.upd = writeJournal u := by rw [hv]; rfl
  have vb : v.bus = s.bus := by rw [hv]; exact xb
  have on : anvilOn v = true := by
    rw [hv]
    show anvilOn x = true
    unfold anvilOn
    rw [xg, xo]
    exact fwOn_anvil fw
  have t1 : armed .ttrialExpire v = false := by rw [hv]; exact armed_disarm _ _
  have t2 : armed .tconfExpire v = false := by
    rw [hv, (disarm_timed (by decide) _).armed]
    exact armed_disarm _ _
  have done : journalDone x = if slotHas (raiseG 55 8 (logUpdate v)) 0x54 then slotEnd 3 0 [] (raiseG 55 8 (logUpdate v)) else raiseG 55 8 (logUpdate v) := by
    unfold journalDone
    rw [show x.upd.jact = .confirm from (congrArg Upd.jact xu).trans j]
    dsimp only
    rw [if_pos ⟨(congrArg Upd.st xu).trans st, by rw [xu, f]; rfl⟩, hv, hu]
    rfl
  clear hv hu
  have lw : Leaves [] v (logUpdate v) := logUpdate_leaves v (.refl _ _)
  have l : Leaves [] v (raiseG 55 8 (logUpdate v)) := raiseG_leaves 55 8 _ lw
  have pd := isPend_raiseG_self (lw.anvilOn.trans on) 55 8
  generalize raiseG 55 8 (logUpdate v) = w at done l pd
  have wv : w.upd = writeJournal u := (show w.upd = v.upd from l.same .upd (by decide)).trans vu
  have b1 : armed .ttrialExpire w = false := (l.unmarkedTimer rfl).armed.trans t1
  have b2 : armed .tconfExpire w = false := (l.unmarkedTimer rfl).armed.trans t2
  have has : slotHas w 0x54 = slotHas s 0x54 := (SlotKept.trans (.of_eq vb) l.slotKept).slotHas 0x54
  have fin : Only [.bus] w (journalDone x) := by
    rw [done]
    split
    · exact slotEnd_only _ _ _ w
    · exact Only.refl _ _
  have fu : (journalDone x).upd = writeJournal u := (show (journalDone x).upd = w.upd from fin .upd (by decide)).trans wv
  have fi : (journalDone x).irq = w.irq := fin .irq (by decide)
  have fc : (journalDone x).clk = w.clk := fin .clk (by decide)
  rw [journalShut_idle (by rw [fu]; exact wu.2.2.2)] at e
  refine .of_eq e ⟨?_, ?_, ?_, ?_, ?_, ?_, fun y => ?_⟩
  · rw [grant_upd, fu]; exact wu.1
  · rw [grant_upd, fu]; exact wu.2.1
  · rw [grant_upd, fu]; exact wu.2.2.1
  · exact (isPend_congr (congrArg Irq.pend ((grant_irq _).trans fi)) 888).trans pd
  · exact (Timed.of_eq ((grant_clk _).trans fc)).armed.trans b1
  · exact (Timed.of_eq ((grant_clk _).trans fc)).armed.trans b2
  · rw [grant_bus, done, if_pos (has.trans y)]
    exact ⟨rfl, rfl⟩

/-- AUTOCONF asks for the same as UPD_CONFIRM. -/
theorem tconfExpire_confirms {s : State} {m : Manifest} (fw : fwOn s = true) (c : mayConfirm s = true) (man : s.upd.man = some m) (a : m.autoconf = true)
    (run : s.glob.st = .run) (ro : readOnly 206 s = false) : Ends .tconfExpire s (fun t => t.upd.jact = .confirm ∧ t.upd.want = some .journal ∧ t.upd.confEnd = none) := by
  obtain ⟨u, hu⟩ : ∃ u : State, u = { disarm .tconfExpire s with upd := { s.upd with confEnd := none } } := ⟨_, rfl⟩
  have e : exec .tconfExpire s = .next (confirm u) := by
    show Host.Outcome.next (match s.upd.man with
      | some m => if fwOn s && mayConfirm s && m.autoconf && updStates (disarm .tconfExpire s) then
          confirm { disarm .tconfExpire s with upd := { s.upd with confEnd := none } } else disarm .tconfExpire s
      | none => disarm .tconfExpire s) = _
    rw [man, hu]
    exact congrArg Host.Outcome.next (if_pos (by unfold updStates; rw [fw, c, a, disarm_glob, run]; rfl))
  obtain ⟨cu, -⟩ := confirm_wants (s := u) (by rw [hu]; exact ro)
  refine .of_eq e ?_
  rw [cu]
  exact ⟨rfl, rfl, by rw [hu]⟩

/-- A trial that expires falls back: the island restarts into the previous slot, and no rail is touched. -/
theorem ttrialExpire_falls {s : State} (on : anvilOn s = true) (fl : s.glob.floor = false) (st : s.upd.st = 5) (f : s.upd.fell = false) :
    Ends .ttrialExpire s (fun t => t.upd.fell = true ∧ t.upd.bootedB = prevSlot s.upd ∧ t.upd.nextB = prevSlot s.upd ∧ t.glob.fwup = false ∧
      t.glob.restarting = true ∧ t.glob.rstcause.getLsbD 8 = true ∧ t.rl = s.rl) := by
  obtain ⟨u, hu⟩ : ∃ u, u = fallbackMark false (disarm .ttrialExpire s) := ⟨_, rfl⟩
  have uu : u.upd.fell = true ∧ u.upd.bootedB = prevSlot s.upd ∧ u.upd.nextB = prevSlot s.upd := by rw [hu]; exact ⟨rfl, rfl, rfl⟩
  have e : fallback (disarm .ttrialExpire s) = causedRestart 8 (16 * 55 + 9) u := by
    rw [hu]
    exact if_pos ⟨st, by rw [disarm_upd, f]; rfl⟩
  have x : exec .ttrialExpire s = .next (fallback (disarm .ttrialExpire s)) := by
    refine congrArg Host.Outcome.next (if_pos ?_)
    show (anvilOn s && !s.glob.floor) = true
    rw [on, fl]
    rfl
  have b := causedRestart_boots 8 (16 * 55 + 9) u
  have rl : (fallback (disarm .ttrialExpire s)).rl = s.rl := (fallback_leaves (disarm .ttrialExpire s) (.refl _ _)).same .rl (by decide)
  refine .of_eq x ⟨?_, ?_, ?_, ?_, ?_, ?_, rl⟩
  · rw [e, b.fell]; exact uu.1
  · rw [e, b.booted]; exact uu.2.1
  · rw [e, b.next]; exact uu.2.2
  · rw [e, causedRestart_glob]
  · rw [e, causedRestart_glob]
  · rw [e, causedRestart_glob]
    show (setBit u.glob.rstcause 8 true).getLsbD 8 = true
    simp [setBit]

/-- A rollback with a session open ends the session. -/
theorem updRollback_cancels {s : State} {p : Packet} (h : Takes false p s) (e : p.params = []) (run : s.glob.st = .run) (lo : 1 ≤ s.upd.st) (hi : s.upd.st ≤ 4) :
    Ends (.updRollback p) s (fun t => SlotShows 3 0 [] p t ∧ t.upd.st = 0 ∧ t.upd.man = none ∧ isPend t 886 = true) := by
  obtain ⟨u, hu⟩ : ∃ u, u = cancelSession (taken 0x55 p s) := ⟨_, rfl⟩
  have lu : Leaves [.upd] (taken 0x55 p s) u := by rw [hu]; exact .of_only (by simp [only_iff, cancelSession, dropSession]) rfl
  have um : u.upd.man = none := by rw [hu]; rfl
  have ug : (taken 0x55 p s).glob = s.glob := taken_only _ _ _ .glob (by decide)
  have inn : [1, 2, 3, 4].contains s.upd.st = true := by
    generalize s.upd.st = n at lo hi
    interval_cases n <;> rfl
  have body : updRollbackBody p (taken 0x55 p s) = grant (doneWith [] (raiseG 55 6 (updState 0 u))) := by
    rw [hu]
    unfold updRollbackBody
    rw [if_neg (by rw [e]; simp), taken_upd, if_pos inn, if_neg (by unfold updStates; rw [ug, run]; decide)]
  have lw : Leaves [.upd] u (updState 0 u) := updState_leaves 0 u (.refl _ _)
  have wu := updState_upd 0 u
  have pd := isPend_raiseG_self (lw.anvilOn.trans (lu.anvilOn.trans ((taken_anvil 0x55 p.tag s).trans (takes_anvil h)))) 55 6
  have k : SlotKept (taken 0x55 p s) (raiseG 55 6 (updState 0 u)) := (lu.then (raiseG_leaves 55 6 _ lw) (by decide)).slotKept
  refine .of_eq ((exec_taken (op := 0x55) h rfl).trans (congrArg Host.Outcome.next body)) ⟨⟨?_, ?_, ?_, ?_⟩, ?_, ?_, ?_⟩
  · rw [grant_bus]; rfl
  · rw [grant_bus]; exact k.tag
  · rw [grant_bus]; rfl
  · rw [grant_bus]; rfl
  · rw [grant_upd, doneWith_upd, raiseG_upd, wu]
  · rw [grant_upd, doneWith_upd, raiseG_upd, wu]; exact um
  · exact (isPend_congr (congrArg Irq.pend (grant_irq _)) 886).trans pd

/-- A rollback with no session open and a previous slot that was confirmed. -/
theorem updRollbackBody_closed {s : State} {p : Packet} {h : SlotHdr} (e : p.params = []) (st : s.upd.st = 0 ∨ s.upd.st = 6 ∨ s.upd.st = 7)
    (i : inactive s = some h) (ok : s.upd.prevOk = true) : updRollbackBody p s = if h.svn < arcnt s.otp.shd then reject 0x12 s
      else if !updStates s then rejectOpen s
      else grant (doneWith [] (raiseG 55 10 (wantJournal { s with upd := { s.upd with nextB := !s.upd.bootedB } }))) := by
  unfold updRollbackBody
  rw [if_neg (by rw [e]; simp), if_neg (by rcases st with x | x | x <;> rw [x] <;> decide), if_neg (by omega), i]
  exact if_neg (by rw [ok]; decide)

theorem updRollback_names {s : State} {p : Packet} {h : SlotHdr} (t : Takes false p s) (e : p.params = []) (run : s.glob.st = .run)
    (st : s.upd.st = 0 ∨ s.upd.st = 6 ∨ s.upd.st = 7) (i : inactive s = some h) (ok : s.upd.prevOk = true) (svn : arcnt s.otp.shd ≤ h.svn) :
    Ends (.updRollback p) s (fun t => SlotShows 3 0 [] p t ∧ t.upd.nextB = !s.upd.bootedB ∧ isPend t 890 = true) := by
  obtain ⟨u, hu⟩ : ∃ u : State, u = wantJournal { taken 0x55 p s with upd := { s.upd with nextB := !s.upd.bootedB } } := ⟨_, rfl⟩
  have ub : u.bus = (taken 0x55 p s).bus := by rw [hu]; rfl
  have un : u.upd.nextB = !s.upd.bootedB := by rw [hu]; rfl
  have on : anvilOn u = true := by rw [hu]; exact (taken_anvil 0x55 p.tag s).trans (takes_anvil t)
  have ug : (taken 0x55 p s).glob = s.glob := taken_only _ _ _ .glob (by decide)
  have body : updRollbackBody p (taken 0x55 p s) = grant (doneWith [] (raiseG 55 10 u)) := by
    rw [hu]
    exact (updRollbackBody_closed (s := taken 0x55 p s) e st i ok).trans ((if_neg (Nat.not_lt.mpr svn)).trans
      (if_neg (by unfold updStates; rw [ug, run]; decide)))
  have k : SlotKept (taken 0x55 p s) (raiseG 55 10 u) := SlotKept.trans (.of_eq ub) (raiseG_leaves (l := []) 55 10 u (.refl _ _)).slotKept
  refine .of_eq ((exec_taken (op := 0x55) t rfl).trans (congrArg Host.Outcome.next body)) ⟨⟨?_, ?_, ?_, ?_⟩, ?_, ?_⟩
  · rw [grant_bus]; rfl
  · rw [grant_bus]; exact k.tag
  · rw [grant_bus]; rfl
  · rw [grant_bus]; rfl
  · rw [grant_upd, doneWith_upd, raiseG_upd]; exact un
  · exact (isPend_congr (congrArg Irq.pend (grant_irq _)) 890).trans (isPend_raiseG_self on 55 10)

/-- The journal says fell back, and there is no configuration part to erase. -/
theorem fallBack_written {s : State} (fw : fwOn s = true) (sl : s.fl.slot = some .journal) (j : s.upd.jact = .fell) (cfg : s.upd.cfgNew = 0)
    (lb : Landable s (206 + (jrnSecond s.upd).toNat)) (ro : readOnly 206 s = false) : Ends (.flashSlotDone true) s (fun t =>
      t.upd.st = 7 ∧ t.upd.fell = false ∧ t.upd.man = none ∧ t.upd.want = none ∧ isPend t 889 = true ∧ t.rl = s.rl) := by
  obtain ⟨x, o, e⟩ := exec_journalDone fw sl lb ro
  have xu : x.upd = s.upd := o .upd (by decide)
  have xr : x.rl = s.rl := o .rl (by decide)
  have xg : x.glob = s.glob := o .glob (by decide)
  have xo : x.otp = s.otp := o .otp (by decide)
  obtain ⟨u, hu⟩ : ∃ u : Upd, u = writeJournal { x.upd with st := 7, fell := false, man := none, want := none } := ⟨_, rfl⟩
  have uu : u.st = 7 ∧ u.fell = false ∧ u.man = none ∧ u.want = none ∧ u.cfgNew = 0 := by
    rw [hu]
    unfold writeJournal
    split <;> exact ⟨rfl, rfl, rfl, rfl, (congrArg Upd.cfgNew xu).trans cfg⟩
  obtain ⟨v, hv⟩ : ∃ v : State, v = { x with upd := { u with jact := .none } } := ⟨_, rfl⟩
  have vu : v.upd = { u with jact := .none } := by rw [hv]
  have vr : v.rl = s.rl := by rw [hv]; exact xr
  have on : anvilOn v = true := by
    rw [hv]
    show anvilOn x = true
    unfold anvilOn
    rw [xg, xo]
    exact fwOn_anvil fw
  have lw : Leaves [] v (logUpdate v) := logUpdate_leaves v (.refl _ _)
  have l : Leaves [] v (raiseG 55 9 (logUpdate v)) := raiseG_leaves 55 9 _ lw
  have wu : (raiseG 55 9 (logUpdate v)).upd = { u with jact := .none } := (show (raiseG 55 9 (logUpdate v)).upd = v.upd from l.same .upd (by decide)).trans vu
  have wr : (raiseG 55 9 (logUpdate v)).rl = s.rl := (show (raiseG 55 9 (logUpdate v)).rl = v.rl from l.same .rl (by decide)).trans vr
  have pd := isPend_raiseG_self (lw.anvilOn.trans on) 55 9
  have done : journalDone x = raiseG 55 9 (logUpdate v) := by
    have d : journalDone x = fellEnd { x with upd := u } := by
      unfold journalDone
      rw [show x.upd.jact = .fell from (congrArg Upd.jact xu).trans j, hu]
      rfl
    rw [d, hv]
    unfold fellEnd
    rw [hv] at wu
    exact if_pos ((congrArg Upd.cfgNew wu).trans uu.2.2.2.2)
  generalize raiseG 55 9 (logUpdate v) = w at wu wr pd done
  rw [done, journalShut_idle (by rw [wu]; exact uu.2.2.2.1)] at e
  refine .of_eq e ⟨?_, ?_, ?_, ?_, ?_, ?_⟩
  · rw [grant_upd, wu]; exact uu.1
  · rw [grant_upd, wu]; exact uu.2.1
  · rw [grant_upd, wu]; exact uu.2.2.1
  · rw [grant_upd, wu]; exact uu.2.2.2.1
  · exact (isPend_congr (congrArg Irq.pend (grant_irq _)) 889).trans pd
  · rw [grant_rl]; exact wr

/-- Settles O57: each command by its checks, each end of the journal by what it leaves of the engine. -/
theorem updateActivation : Obligations.UpdateActivation := by
  unfold Obligations.UpdateActivation
  refine ⟨?_, ?_, ?_, ?_, fun s fw sl j st f lb ro => confirmation_written fw sl j st f lb ro,
    fun s m fw c man a run ro => tconfExpire_confirms fw c man a run ro, fun s on fl st f => ttrialExpire_falls on fl st f,
    fun s p h e run lo hi => updRollback_cancels h e run lo hi, fun s p h t e run st i ok svn => updRollback_names t e run st i ok svn, ?_,
    fun s fw sl j cfg lb ro => fallBack_written fw sl j cfg lb ro, ?_⟩
  · intro s h st
    exact ⟨cancelKey (ackAccess s), (exec_onPage (p := 0x59) (f := activateBit) h rfl).trans (congrArg Host.Outcome.next (if_pos st)), ⟨rfl, rfl⟩,
      by simp [only_iff, cancelKey, ackAccess, disarm]⟩
  · intro s h st
    have on : anvilOn (cancelKey (ackAccess s)) = true := anvilOn_served h
    obtain ⟨g, -, o⟩ := buserr_spec 0 on
    have e : exec .updctlActivate s = .next (buserr 0 (cancelKey (ackAccess s))) := (exec_onPage (p := 0x59) (f := activateBit) h rfl).trans (congrArg Host.Outcome.next (if_neg st))
    refine .of_eq e ⟨o .upd (by decide), o .rl (by decide), ?_⟩
    rw [g]
    show (setBit s.glob.buserr 0 true).getLsbD 0 = true
    simp [setBit]
  · intro s p h e c run ro
    obtain ⟨u, k⟩ := confirm_wants (s := slotBusy (taken 0x54 p s)) ro
    refine .of_eq (updConfirm_confirms h e c run) ⟨k.cstat, k.tag, ?_, ?_, ?_⟩
    · rw [u]
    · rw [u]
    · rw [u]; exact mayConfirm_state c
  · intro s p h e c
    refine Ends.slotEnd (op := 0x54) (body := fun s => if p.params ≠ [] then reject 0x01 s else if !mayConfirm s then reject 0x02 s
      else if !updStates s then rejectOpen s else confirm (slotBusy s)) h rfl ?_
    have uq : (taken 0x54 p s).seq = s.seq := taken_only _ _ _ .seq (by decide)
    have c' : mayConfirm (taken 0x54 p s) = false := by unfold mayConfirm at c ⊢; rw [taken_upd, uq]; exact c
    exact (if_neg (by rw [e]; simp)).trans (if_pos (by rw [c']; rfl))
  · intro s p h t e st i ok svn
    exact Ends.slotEnd (op := 0x55) (body := updRollbackBody p) t rfl ((updRollbackBody_closed (s := taken 0x55 p s) e st i ok).trans (if_pos svn))
  · intro s p h e c run j ro
    obtain ⟨u, b1, b2, b3, b4⟩ := confirm_lost (s := slotBusy (taken 0x54 p s)) ro j rfl
    refine .of_eq (updConfirm_confirms h e c run) ⟨⟨b1, b3, b2, b4⟩, ?_, ?_⟩
    · rw [u]; exact mayConfirm_state c
    · rw [u]; exact j

end Sys2Proof
end

section
/-! What a boot puts into the registers. -/

namespace Sys2Proof

open Sys2Proof.Machine

/-- A STOP whose reverse sequence has ended, on the way to a system reset; there is no configuration bank. -/
def stopToReset : State := { inRun with glob.st := .stop, glob.pendRst := some .key, seq.phase := 4, rl := {}, fl.cfgA := none, fl.cfgB := none }

/-- Refutes O6: the boot commit's apply step finds the reverse sequence at its end and carries out the system reset, which clears the CFGNONE that was
raised just before. -/
theorem not_bootContents : ¬ Obligations.BootContents := by
  unfold Obligations.BootContents
  intro h
  obtain ⟨-, -, h, -⟩ := h
  obtain ⟨raised, -⟩ := h stopToReset (by decide +kernel) (by decide +kernel)
  have cleared : isPend (loadBank stopToReset) (16 * 53 + 2) = false := by decide +kernel
  exact absurd raised (by rw [cleared]; decide)

end Sys2Proof
end

section
/-! SUPPORT. The interrupt controller: what delivery and assignment leave of its registers. -/

namespace Sys2Proof.Machine

open Sys2Proof

/-- From `s` to `t` outputs have acted and assignments have moved; the pending bits, masks, routes and OVR stand. -/
structure Delivers (s t : State) : Prop where
  only : Only [.irq, .bus, .clk] s t
  now : t.clk.now = s.clk.now
  pend : t.irq.pend = s.irq.pend
  mask : t.irq.mask = s.irq.mask
  route : t.irq.route = s.irq.route
  ovr : t.irq.ovr = s.irq.ovr

theorem Delivers.refl (s : State) : Delivers s s := ⟨.refl _ _, rfl, rfl, rfl, rfl, rfl⟩

theorem Delivers.trans {s t u : State} (h : Delivers s t) (g : Delivers t u) : Delivers s u :=
  ⟨h.only.trans g.only, g.now.trans h.now, g.pend.trans h.pend, g.mask.trans h.mask, g.route.trans h.route, g.ovr.trans h.ovr⟩

theorem Delivers.glob {s t : State} (h : Delivers s t) : t.glob = s.glob := h.only .glob (by decide)

theorem Delivers.isPend {s t : State} (h : Delivers s t) (k : Nat) : isPend t k = isPend s k := isPend_congr h.pend k

theorem Delivers.isMasked {s t : State} (h : Delivers s t) (k : Nat) : isMasked t k = isMasked s k := by
  unfold Machine.isMasked maskOfG
  rw [h.glob, h.mask]

theorem Delivers.routeOf {s t : State} (h : Delivers s t) (k : Nat) : routeOf t k = routeOf s k := by
  unfold Machine.routeOf
  rw [h.route]

theorem Delivers.takesTurn {s t : State} (h : Delivers s t) (k : Nat) : takesTurn t k = takesTurn s k := by
  unfold Machine.takesTurn
  rw [h.routeOf, h.isPend, h.isMasked]

theorem Delivers.rrmask {s t : State} (h : Delivers s t) : rrmask t = rrmask s := by
  unfold Machine.rrmask
  rw [pl_congr (h.only .regs (by decide))]

theorem foldl_delivers {α : Type} (f : State → α → State) (h : ∀ s x, Delivers s (f s x)) (l : List α) (s : State) : Delivers s (l.foldl f s) := by
  induction l generalizing s with
  | nil => exact .refl s
  | cons x l ih => exact (h s x).trans (ih _)

/-! The outputs. They leave the assignments too. -/

/-- From `s` to `t` outputs have acted, and nothing else. -/
def Acts (s t : State) : Prop := Delivers s t ∧ t.irq.asg = s.irq.asg

theorem Acts.refl (s : State) : Acts s s := ⟨.refl s, rfl⟩
theorem Acts.trans {s t u : State} (h : Acts s t) (g : Acts t u) : Acts s u := ⟨h.1.trans g.1, g.2.trans h.2⟩

theorem foldl_acts {α : Type} (f : State → α → State) (h : ∀ s x, Acts s (f s x)) (l : List α) (s : State) : Acts s (l.foldl f s) := by
  induction l generalizing s with
  | nil => exact .refl s
  | cons x l ih => exact (h s x).trans (ih _)

theorem onDelivered_acts (t : Nat) (s : State) : Acts s (onDelivered t s) := by
  unfold onDelivered
  dsimp only
  split
  · exact .refl s
  · split <;> split <;> exact ⟨⟨by simp [only_iff, arm], rfl, rfl, rfl, rfl, rfl⟩, rfl⟩

theorem settleAlert_acts (s : State) : Acts s (settleAlert s) := by
  unfold settleAlert
  split
  · exact ⟨⟨by simp [only_iff], rfl, rfl, rfl, rfl, rfl⟩, rfl⟩
  · exact .refl s

theorem notifyDue_acts (s0 s : State) : Acts s (notifyDue s0 s) := by
  unfold notifyDue
  split
  · exact ⟨⟨by simp [only_iff], rfl, rfl, rfl, rfl, rfl⟩, rfl⟩
  · exact .refl s

theorem afterIrq_acts (s0 : State) (l : List Nat) (s : State) : Acts s (afterIrq s0 l s) := by
  unfold afterIrq
  refine Acts.trans (foldl_acts _ (fun s x => ?_) _ s) ((settleAlert_acts _).trans (notifyDue_acts s0 _))
  split
  · split
    · exact .refl s
    · exact onDelivered_acts _ s
  · exact .refl s

/-! The assignments of class S (R380). -/

theorem assign_delivers (k : Nat) (s : State) : Delivers s (assign k s) := by
  unfold assign
  split
  · exact .refl s
  · exact ⟨by simp [only_iff], rfl, rfl, rfl, rfl, rfl⟩

theorem unassign_delivers (k : Nat) (s : State) : Delivers s (unassign k s) := ⟨by simp [only_iff, unassign], rfl, rfl, rfl, rfl, rfl⟩

theorem takeBack_delivers (t : Nat) (s : State) : Delivers s (takeBack t s) := by
  unfold takeBack
  dsimp only
  split
  · exact .refl s
  · exact ⟨by simp [only_iff, disarm], rfl, rfl, rfl, rfl, rfl⟩

theorem assignNow_delivers (l : List Nat) (s : State) : Delivers s (assignNow l s) := by
  unfold assignNow
  dsimp only
  split
  · exact .refl s
  · refine Delivers.trans ?_ (foldl_delivers _ (fun s' x => ?_) _ _)
    · refine Delivers.trans ?_ (foldl_delivers _ (fun s' x => assign_delivers x s') _ _)
      exact ⟨by simp [only_iff], rfl, rfl, rfl, rfl, rfl⟩
    · split
      · split
        · exact .refl _
        · exact takeBack_delivers _ _
      · exact .refl _

theorem reassign_delivers (l : List Nat) (s : State) : Delivers s (reassign l s) := by
  refine Delivers.trans (foldl_delivers _ (fun s' x => ?_) l s) (assignNow_delivers l _)
  split
  · exact .refl _
  · exact unassign_delivers x _

/-- After a change of its registers, what the controller does about it. -/
theorem settled_delivers (s0 : State) (l : List Nat) (s : State) : Delivers s (afterIrq s0 l (reassign l s)) :=
  (reassign_delivers l s).trans (afterIrq_acts s0 l _).1

/-- A source of class F that is pending and not masked is delivered to its target. -/
theorem deliveredTo_static {s : State} {k : Nat} (f : s.glob.floor = false) (p : isPend s k = true) (m : isMasked s k = false) (r : (routeOf s k).toNat ≤ 4) :
    deliveredTo s k = some (routeOf s k).toNat := by
  unfold deliveredTo targetOf
  rw [p, m, f, if_pos (by decide), if_neg (by decide)]
  exact if_pos r

theorem deliveredTo_masked {s : State} {k : Nat} (m : isMasked s k = true) : deliveredTo s k = none := by
  unfold deliveredTo
  rw [m]
  exact if_neg (by simp)

/-! Who takes which turn. -/

theorem rrFind_spec {m : Nat} : ∀ n i, i < 5 → ∀ t, rrFind m i n = some t → t < 5 ∧ m / 2 ^ t % 2 = 1
  | 0, _, _, _, h => by cases h
  | n + 1, i, hi, t, h => by
    unfold rrFind at h
    split at h
    · next c =>
      cases h
      exact ⟨hi, c⟩
    · exact rrFind_spec n _ (Nat.mod_lt _ (by decide)) t h

theorem rrFind_some {m : Nat} (h : m < 32) (n : m ≠ 0) {i : Nat} (hi : i < 5) : (rrFind m i 5).isSome = true := by
  have all : ∀ m < 32, m ≠ 0 → ∀ i < 5, (rrFind m i 5).isSome = true := by decide
  exact all m h n i hi

/-- The assignment of a source stands on a bit of RRMASK. -/
def Assigned (m k : Nat) (s : State) : Prop := mget 0 s.irq.asg k ≠ 0 ∧ m / 2 ^ (mget 0 s.irq.asg k - 1) % 2 = 1

/-- A source whose turn it is takes a target of RRMASK; any other's turn leaves it what it has. -/
theorem assign_assigned {m k x : Nat} {s : State} (hm : rrmask s = m) (h32 : m < 32) (h0 : m ≠ 0) (t : takesTurn s k = true)
    (h : x = k ∨ Assigned m k s) : Assigned m k (assign x s) := by
  obtain ⟨a, ha⟩ := Option.isSome_iff_exists.mp (rrFind_some h32 h0 (Nat.mod_lt s.irq.rrnext (show 0 < 5 by decide)))
  obtain ⟨-, bit⟩ := rrFind_spec 5 _ (Nat.mod_lt _ (by decide)) a ha
  have e : (assign x s).irq.asg = if takesTurn s x then mput 0 s.irq.asg x (a + 1) else s.irq.asg := by
    unfold assign
    rw [hm, ha]
  unfold Assigned at h ⊢
  rw [e]
  by_cases c : x = k
  · subst c
    rw [t, if_pos rfl, mget_mput_same]
    exact ⟨Nat.succ_ne_zero _, bit⟩
  · have h' := h.resolve_left c
    split
    · rw [mget_mput_other _ _ (fun y => c y.symm)]
      exact h'
    · exact h'

theorem foldl_assign {m k : Nat} (h32 : m < 32) (h0 : m ≠ 0) : ∀ (l : List Nat) (s : State), rrmask s = m → takesTurn s k = true → k ∈ l ∨ Assigned m k s →
    Assigned m k (l.foldl (fun s x => assign x s) s)
  | [], _, _, _, h => h.resolve_left (by simp)
  | x :: l, s, hm, t, h => by
    have d := assign_delivers x s
    refine foldl_assign h32 h0 l _ (d.rrmask.trans hm) ((d.takesTurn k).trans t) ?_
    rcases h with h | h
    · rcases List.mem_cons.mp h with h | h
      · exact .inr (assign_assigned hm h32 h0 t (.inl h.symm))
      · exact .inl h
    · exact .inr (assign_assigned hm h32 h0 t (.inr h))

theorem mem_insertSrc {x y : Nat} {l : List Nat} : y ∈ insertSrc x l ↔ y = x ∨ y ∈ l := by
  induction l with
  | nil => simp [insertSrc]
  | cons z l ih =>
    unfold insertSrc
    split
    · next e => subst e; simp
    · split
      · simp
      · rw [List.mem_cons, ih, List.mem_cons]
        tauto

theorem mem_foldl_insertSrc {y : Nat} (l : List Nat) (l0 : List Nat) : y ∈ l.foldl (fun l x => insertSrc x l) l0 ↔ y ∈ l ∨ y ∈ l0 := by
  induction l generalizing l0 with
  | nil => simp
  | cons x l ih =>
    rw [List.foldl_cons, ih, mem_insertSrc, List.mem_cons]
    tauto

/-- Where no assignment was made in this 1 µs yet, a source that waits for its turn takes it. -/
theorem assignNow_assigns {m k : Nat} {s : State} {l : List Nat} (hm : rrmask s = m) (h32 : m < 32) (h0 : m ≠ 0) (old : s.irq.rrSrcs = [])
    (hk : k ∈ l) (t : takesTurn s k = true) (a : mget 0 s.irq.asg k = 0) : Assigned m k (assignNow l s) := by
  have hn : k ∈ l.filter (fun x => takesTurn s x && decide (mget 0 s.irq.asg x = 0)) := List.mem_filter.mpr ⟨hk, by rw [t, a]; rfl⟩
  have go : ¬((l.filter (fun x => takesTurn s x && decide (mget 0 s.irq.asg x = 0))).isEmpty = true ∨ rrmask s = 0) := by
    rintro (x | x)
    · rw [List.isEmpty_iff.mp x] at hn
      cases hn
    · exact h0 (hm.symm.trans x)
  unfold assignNow
  dsimp only
  rw [if_neg go, old, ite_self, List.foldl_nil]
  refine foldl_assign h32 h0 _ _ ?_ ?_ (.inl ((mem_foldl_insertSrc _ _).mpr (.inl hn)))
  · exact hm
  · exact t

theorem mem_of_mget_ne {α : Type} {d : α} {m : Map α} {k : Nat} (h : mget d m k ≠ d) : (k, mget d m k) ∈ m := by
  induction m with
  | nil => exact absurd rfl h
  | cons x m ih =>
    obtain ⟨j, v⟩ := x
    unfold mget at h ⊢
    split
    · next e => rw [e]; exact List.mem_cons_self
    · next e =>
      rw [if_neg e] at h
      exact List.mem_cons_of_mem _ (ih h)

theorem mem_pendingSources {s : State} {k : Nat} (h : isPend s k = true) : k ∈ pendingSources s := by
  have bit : (mget 0 s.irq.pend (k / 16)).getLsbD (k % 16) = true := h
  have ne : mget 0 s.irq.pend (k / 16) ≠ 0 := fun e => by rw [e] at bit; simp at bit
  refine List.mem_flatten.mpr ⟨_, List.mem_map.mpr ⟨_, mem_of_mget_ne ne, rfl⟩, ?_⟩
  refine List.mem_filter.mpr ⟨?_, bit⟩
  unfold groupSources
  exact List.mem_map.mpr ⟨k % 16, List.mem_range.mpr (by omega), by omega⟩

end Sys2Proof.Machine
end

section
/-! What a host write of one byte does, and the interrupt registers (R8, R27, R28, R174, R179, R347, R353 to R386). -/

namespace Sys2Proof.Machine

open Sys2Proof

/-! Bytes of a staging copy. -/

theorem writeStaging_locked {s : State} {p : Nat} (h : pageLocked s p = true) (o : Nat) (v : Byte) : writeStaging p o v s = berrRorsv s := if_pos h

theorem writeStaging_byte {s : State} {p o : Nat} {v b : Byte} {bad : Bool} (l : pageLocked s p = false) (w : wideField p o = none) (f : byteFields p o ≠ [])
    (m : mergeByte (byteFields p o) (fun _ => true) (sg s (stKey s p o)) v = (b, bad)) :
    writeStaging p o v s = if bad then berrRsvenc (putStg (stKey s p o) [b] s) else putStg (stKey s p o) [b] s := by
  have f' : (byteFields p o).isEmpty = false := by
    cases x : byteFields p o with
    | nil => exact absurd x f
    | cons => rfl
  unfold writeStaging
  rw [if_neg (by rw [l]; decide), w]
  dsimp only
  rw [f', if_neg Bool.false_ne_true, m]

/-- A byte of a field of several offsets. -/
theorem writeStaging_wide {s : State} {p o : Nat} {v : Byte} {f : Fd} (l : pageLocked s p = false) (w : wideField p o = some f) :
    writeStaging p o v s = holdByte (key p f.off) f.len (key p o) v
      (fun n s => if f.legal (n % 2 ^ f.w) then putStg (key p f.off) (leBytes f.len (n % 2 ^ f.w)) s else berrRsvenc s) s := by
  unfold writeStaging
  rw [if_neg (by rw [l]; decide), w]

/-! Held bytes. -/

theorem find_minsert {l : List (Nat × Byte)} {k j : Nat} {v : Byte} :
    (minsert k v l).find? (fun h => decide (h.1 = j)) = if j = k then some (k, v) else l.find? (fun h => decide (h.1 = j)) := by
  induction l with
  | nil => by_cases e : j = k <;> simp [minsert, e, eq_comm]
  | cons x t ih =>
    obtain ⟨a, b⟩ := x
    unfold minsert
    split
    · by_cases e : j = k
      · subst e; simp
      · rw [List.find?_cons_of_neg (by simpa using fun h => e h.symm), if_neg e]
    · split
      · next _ e' =>
        subst e'
        by_cases e : j = k
        · subst e; simp
        · rw [List.find?_cons_of_neg (by simpa using fun h => e h.symm), if_neg e, List.find?_cons_of_neg (by simpa using fun h => e h.symm)]
      · next lt ne =>
        by_cases e : j = a
        · subst e
          rw [if_neg (fun h => ne h.symm)]
          simp
        · rw [List.find?_cons_of_neg (by simpa using fun h => e h.symm), ih, List.find?_cons_of_neg (by simpa using fun h => e h.symm)]

theorem heldAt_minsert (k j : Nat) (v : Byte) (s : State) :
    heldAt (setHeld (minsert k v s.regs.held) s) j = if j = k then some v else heldAt s j := by
  unfold heldAt setHeld
  dsimp only
  rw [find_minsert]
  split <;> rfl

/-- The first of two bytes is held. -/
theorem holdByte_first {s : State} {k a i : Nat} (v : Byte) (done : Nat → State → State) (h : a = k ∧ i = k + 1 ∨ a = k + 1 ∧ i = k) (n : heldAt s i = none) :
    holdByte k 2 a v done s = setHeld (minsert a v s.regs.held) s := by
  have miss : heldAt (setHeld (minsert a v s.regs.held) s) i = none := by
    rw [heldAt_minsert, if_neg (by omega)]
    exact n
  have e : ((List.range 2).map (fun j => heldAt (setHeld (minsert a v s.regs.held) s) (k + j))).all Option.isSome = false := by
    rcases h with ⟨-, rfl⟩ | ⟨-, rfl⟩ <;> simp [List.range_succ, miss]
  unfold holdByte
  dsimp only
  rw [e]
  exact if_neg Bool.false_ne_true

/-- The second has both take effect, and neither is held any more. -/
theorem holdByte_second {s : State} {k : Nat} {u : Byte} (v : Byte) (done : Nat → State → State) (h : heldAt s k = some u) :
    holdByte k 2 (k + 1) v done s = done (leNat [u, v])
      (setHeld ((minsert (k + 1) v s.regs.held).filter (fun h => !decide (k ≤ h.1 ∧ h.1 < k + 2))) s) := by
  have b0 : heldAt (setHeld (minsert (k + 1) v s.regs.held) s) k = some u := by
    rw [heldAt_minsert, if_neg (by omega)]
    exact h
  have b1 : heldAt (setHeld (minsert (k + 1) v s.regs.held) s) (k + 1) = some v := by rw [heldAt_minsert, if_pos rfl]
  have bs : (List.range 2).map (fun j => heldAt (setHeld (minsert (k + 1) v s.regs.held) s) (k + j)) = [some u, some v] := by
    simp [List.range_succ, b0, b1]
  unfold holdByte
  dsimp only
  rw [bs]
  rfl

theorem heldAt_filtered {s : State} {k j : Nat} {l : List (Nat × Byte)} (h : k ≤ j ∧ j < k + 2) :
    heldAt (setHeld (l.filter (fun h => !decide (k ≤ h.1 ∧ h.1 < k + 2))) s) j = none := by
  unfold heldAt setHeld
  dsimp only
  rw [List.find?_eq_none.mpr, Option.map_none]
  intro x hx
  have y := (List.mem_filter.mp hx).2
  simp only [Bool.not_eq_true', decide_eq_false_iff_not] at y
  simp only [decide_eq_true_eq]
  rintro rfl
  exact y h

/-! Fields that need a session. -/

/-- The byte belongs to an LK field. -/
def lkByte (p o : Nat) : Bool :=
  match wideField p o with
  | some f => decide (f.acc = .lk)
  | none => !(byteFields p o).isEmpty && (byteFields p o).any (fun f => decide (f.acc = .lk))

theorem lkByte_of {p o : Nat} (hp : p < 256) (ho : o < 224)
    (h : (fieldsOf p).any (fun f => decide (f.acc = .lk ∧ f.off ≤ o ∧ o < f.off + f.len)) = true) :
    lkByte p o = true ∧ (p = 0x24 ∨ p = 0x32 ∨ p = 0x4C ∧ o ≠ 9) := by
  have pages : ∀ p < 256, p ∉ [0x24, 0x32, 0x4C] → (fieldsOf p).all (fun f => decide (f.acc ≠ .lk)) = true := by decide +kernel
  have bytes : ∀ p ∈ [0x24, 0x32, 0x4C], ∀ o < 224, (fieldsOf p).any (fun f => decide (f.acc = .lk ∧ f.off ≤ o ∧ o < f.off + f.len)) = true →
      lkByte p o = true ∧ (p = 0x4C → o ≠ 9) := by decide +kernel
  by_cases m : p ∈ [0x24, 0x32, 0x4C]
  · obtain ⟨l, n⟩ := bytes p m o ho h
    refine ⟨l, ?_⟩
    simp only [List.mem_cons, List.not_mem_nil, or_false] at m
    rcases m with m | m | m
    · exact .inl m
    · exact .inr (.inl m)
    · exact .inr (.inr ⟨m, n m⟩)
  · obtain ⟨f, hf, k⟩ := List.any_eq_true.mp h
    have x := List.all_eq_true.mp (pages p hp m) f hf
    simp only [decide_eq_true_eq] at k x
    exact absurd k.1 x

theorem lkGate_closed {s : State} (l : s.bus.level = 0) (f : State → State) : lkGate f s = berrLkdeny s := if_pos l

theorem writeTable_closed {s : State} {p o : Nat} (k : lkByte p o = true) (l : s.bus.level = 0) (v : Byte) : writeTable p o v s = berrLkdeny s := by
  unfold lkByte at k
  unfold writeTable
  cases w : wideField p o with
  | some f =>
    rw [w] at k
    exact (if_pos (of_decide_eq_true k)).trans (lkGate_closed l _)
  | none =>
    rw [w] at k
    dsimp only at k ⊢
    rw [Bool.and_eq_true, Bool.not_eq_true'] at k
    rw [k.1, k.2, if_neg Bool.false_ne_true, if_pos rfl]
    exact lkGate_closed l _

theorem write24_closed {s : State} (l : s.bus.level = 0) (o : Nat) (v : Byte) : write24 o v s = writeTable 0x24 o v s :=
  (if_neg fun x => x.2.1 l).trans (if_neg fun x => x.2.1 l)

theorem writePlain_closed {s : State} {p o : Nat} (k : lkByte p o = true) (hp : p = 0x24 ∨ p = 0x32 ∨ p = 0x4C ∧ o ≠ 9) (l : s.bus.level = 0) (v : Byte) :
    writePlain p o v s = berrLkdeny s := by
  rw [← writeTable_closed k l v]
  rcases hp with rfl | rfl | ⟨rfl, n⟩
  · simp [writePlain, write24_closed l]
  · simp [writePlain]
  · simp [writePlain, n]

/-- What a write leaves that sets a bit of BUSERR alone. -/
theorem buserr_acked {s : State} (h : Served s) (b : Nat) : (buserr b (cancelKey (ackAccess s))).regs = s.regs ∧ (buserr b (cancelKey (ackAccess s))).bus.nack = false ∧
    (buserr b (cancelKey (ackAccess s))).glob = { s.glob with keyArmed := false, buserr := setBit s.glob.buserr b true } ∧
    (s.glob.buserr.getLsbD b = false → isPend (buserr b (cancelKey (ackAccess s))) (16 * 56 + 12) = true) ∧
    Only ([.glob] ++ raiseParts) s (buserr b (cancelKey (ackAccess s))) := by
  have on : anvilOn (cancelKey (ackAccess s)) = true := anvilOn_served h
  obtain ⟨g, p, o⟩ := buserr_spec b on
  have bk := (buserr_leaves b (cancelKey (ackAccess s)) (.refl _ _)).busKept
  refine ⟨o .regs (by decide), (congrArg (fun b : Bus => b.nack) bk :), g, p, Only.trans ?_ o⟩
  simp [only_iff, raiseParts, cancelKey, ackAccess, disarm]

end Sys2Proof.Machine

namespace Sys2Proof

open Sys2Proof.Machine

section
variable {s : State} {o : Byte} {v : Byte}

/-- A write that only sets a bit of BUSERR. -/
theorem write_refused {b : Nat} (h : Served s) (k : pecOn s = false) (ho : o.toNat < 0xE0)
    (e : writeReg s.regs.page.toNat o.toNat v (ackAccess s) = buserr b (cancelKey (ackAccess s))) :
    Ends (.registerWrite ⟨o, .writeByte, 0, [v], .none⟩) s (fun t => t.regs = s.regs ∧ t.bus.nack = false ∧
      t.glob = { s.glob with keyArmed := false, buserr := setBit s.glob.buserr b true } ∧
      (s.glob.buserr.getLsbD b = false → isPend t (16 * 56 + 12) = true) ∧ Only ([.glob] ++ raiseParts) s t) :=
  .of_eq ((exec_writeByte h k ho v).trans (congrArg Host.Outcome.next e)) (buserr_acked h b)

/-- A write to a staging copy. -/
theorem exec_writeStaging (h : Served s) (k : pecOn s = false) (g : stagedPages.contains s.regs.page.toNat = true) (ho : o.toNat < 0x60) :
    exec (.registerWrite ⟨o, .writeByte, 0, [v], .none⟩) s = .next (writeStaging s.regs.page.toNat o.toNat v (cancelKey (ackAccess s))) :=
  (exec_writeByte h k (by omega) v).trans (congrArg Host.Outcome.next ((writeReg_staged (s := ackAccess s) h.2 g v).trans (if_pos ho)))

end

/-! The interrupt registers. -/

/-- What the controller leaves of an acknowledged access. -/
theorem delivers_acked {s x t : State} (h : Delivers x t) (o : Only [.irq, .bus, .glob, .clk] s x) : Only [.irq, .bus, .glob, .clk] s t :=
  o.trans (h.only.weaken (by decide))

theorem ack_irq (s : State) : (cancelKey (ackAccess s)).irq = s.irq := rfl

theorem ack_changes (s : State) (q : Irq) : Only [.irq, .bus, .glob, .clk] s { cancelKey (ackAccess s) with irq := q } := by
  simp [only_iff, cancelKey, ackAccess, disarm]

theorem pendWrite_clears {s : State} (h : Served s) (g : Fin 64) (v : Word) : Ends (.pendWrite g v) s (fun t =>
    pendOf t g.val = pendOf s g.val &&& (v ||| sameTick s g.val) ∧ (∀ h, h < 64 → h ≠ g.val → pendOf t h = pendOf s h) ∧
    t.irq.ovr = (if pendOf s g.val &&& ~~~v &&& ~~~(sameTick s g.val) &&& mget 0xFFFF s.irq.late g.val ≠ 0 then setBit s.irq.ovr g.val true else s.irq.ovr) ∧
    t.irq.mask = s.irq.mask ∧ t.irq.route = s.irq.route ∧ Only [.irq, .bus, .glob, .clk] s t) := by
  obtain ⟨gone, hg⟩ : ∃ gone, gone = pendOf s g.val &&& ~~~v &&& ~~~(sameTick s g.val) := ⟨_, rfl⟩
  obtain ⟨x, hx⟩ : ∃ x : State, x = { cancelKey (ackAccess s) with irq := { s.irq with
    pend := mput 0 s.irq.pend g.val (pendOf s g.val &&& ~~~gone)
    ovr := if decide (gone &&& mget 0xFFFF s.irq.late g.val ≠ 0) then setBit s.irq.ovr g.val true else s.irq.ovr } } := ⟨_, rfl⟩
  have e : pendWord g.val v (cancelKey (ackAccess s)) = afterIrq (cancelKey (ackAccess s)) (groupSources g.val) (reassign (groupSources g.val) x) := by
    rw [hx, hg]
    rfl
  have xp : x.irq.pend = mput 0 s.irq.pend g.val (pendOf s g.val &&& ~~~gone) := by rw [hx]
  have xo : x.irq.ovr = if gone &&& mget 0xFFFF s.irq.late g.val ≠ 0 then setBit s.irq.ovr g.val true else s.irq.ovr := by
    rw [hx]
    by_cases c : gone &&& mget 0xFFFF s.irq.late g.val ≠ 0
    · exact (if_pos (decide_eq_true c)).trans (if_pos c).symm
    · exact (if_neg (by rw [decide_eq_false c]; decide)).trans (if_neg c).symm
  have xm : x.irq.mask = s.irq.mask := by rw [hx]
  have xr : x.irq.route = s.irq.route := by rw [hx]
  have o : Only [.irq, .bus, .glob, .clk] s x := by rw [hx]; exact ack_changes s _
  clear hx
  have d := settled_delivers (cancelKey (ackAccess s)) (groupSources g.val) x
  refine .of_eq ((exec_onPage (p := 0x50 + g.val / 32) (f := pendWord g.val v) h rfl).trans (congrArg Host.Outcome.next e)) ?_
  generalize afterIrq (cancelKey (ackAccess s)) (groupSources g.val) (reassign (groupSources g.val) x) = t at d
  refine ⟨?_, fun j _ hj => ?_, d.ovr.trans ?_, d.mask.trans xm, d.route.trans xr, delivers_acked d o⟩
  · unfold pendOf at hg ⊢
    rw [d.pend, xp, mget_mput_same, hg]
    refine BitVec.eq_of_getLsbD_eq fun i hi => ?_
    simp only [pendOf, BitVec.getLsbD_and, BitVec.getLsbD_or, BitVec.getLsbD_not, hi, decide_true, Bool.true_and]
    cases (mget 0 s.irq.pend g.val).getLsbD i <;> cases v.getLsbD i <;> simp
  · unfold pendOf
    rw [d.pend, xp, mget_mput_other _ _ hj]
  · rw [xo, hg]

/-- MASKg takes its value, and the controller acts on it. -/
theorem exec_maskWrite {s : State} (h : Served s) (g : Fin 64) (v : Word) : ∃ t, exec (.maskWrite g v) s = .next t ∧
    Delivers { cancelKey (ackAccess s) with irq := { s.irq with mask := mput 0xFFFF s.irq.mask g.val v } } t :=
  ⟨_, exec_onPage (p := 0x50 + g.val / 32) (f := maskWord g.val v) h rfl, settled_delivers _ _ _⟩

theorem masked_written {s t : State} {g : Fin 64} {v : Word} (h : Served s)
    (d : Delivers { cancelKey (ackAccess s) with irq := { s.irq with mask := mput 0xFFFF s.irq.mask g.val v } } t) (b : Fin 16) :
    isMasked t (16 * g.val + b.val) = v.getLsbD b.val := by
  rw [d.isMasked]
  show (!s.glob.floor && (mget 0xFFFF (mput 0xFFFF s.irq.mask g.val v) ((16 * g.val + b.val) / 16)).getLsbD ((16 * g.val + b.val) % 16)) = _
  rw [h.2, show (16 * g.val + b.val) / 16 = g.val by omega, show (16 * g.val + b.val) % 16 = b.val by omega, mget_mput_same]
  rfl

/-- Two routes of a route byte. -/
theorem routeWrite_sets {s : State} (h : Served s) (q : Fin 4) (o : Fin 128) {v : Byte} (lo : routeReserved (v.toNat % 16) = false)
    (hi : routeReserved (v.toNat / 16) = false) : Ends (.routeWrite q o v) s (fun t =>
    (routeOf t (256 * q.val + 2 * o.val)).toNat = v.toNat % 16 ∧ (routeOf t (256 * q.val + 2 * o.val + 1)).toNat = v.toNat / 16 ∧ t.irq.pend = s.irq.pend ∧
    t.irq.mask = s.irq.mask ∧ Only [.irq, .bus, .glob, .clk] s t) := by
  obtain ⟨a, ha⟩ : ∃ a, a = 256 * q.val + 2 * o.val := ⟨_, rfl⟩
  obtain ⟨x, hx⟩ : ∃ x : State, x = { cancelKey (ackAccess s) with
      irq := { s.irq with route := mput 0 (mput 0 s.irq.route a (BitVec.ofNat 4 (v.toNat % 16))) (a + 1) (BitVec.ofNat 4 (v.toNat / 16))
                          asg := mput 0 (mput 0 s.irq.asg a 0) (a + 1) 0 } } := ⟨_, rfl⟩
  have e : routeByte q.val o.val v (cancelKey (ackAccess s)) = afterIrq (cancelKey (ackAccess s)) [a, a + 1] (reassign [a, a + 1] x) := by
    rw [hx, ha]
    exact if_neg (by rw [lo, hi]; decide)
  have xr : x.irq.route = mput 0 (mput 0 s.irq.route a (BitVec.ofNat 4 (v.toNat % 16))) (a + 1) (BitVec.ofNat 4 (v.toNat / 16)) := by rw [hx]
  have xp : x.irq.pend = s.irq.pend := by rw [hx]
  have xm : x.irq.mask = s.irq.mask := by rw [hx]
  have xo : Only [.irq, .bus, .glob, .clk] s x := by rw [hx]; exact ack_changes s _
  clear hx
  have d := settled_delivers (cancelKey (ackAccess s)) [a, a + 1] x
  refine .of_eq ((exec_onPage (p := 0x52 + q.val) (f := routeByte q.val o.val v) h rfl).trans (congrArg Host.Outcome.next e)) ?_
  generalize afterIrq (cancelKey (ackAccess s)) [a, a + 1] (reassign [a, a + 1] x) = t at d
  have small := v.isLt
  rw [← ha]
  refine ⟨?_, ?_, d.pend.trans xp, d.mask.trans xm, delivers_acked d xo⟩
  · unfold routeOf
    rw [d.route, xr, mget_mput_other _ _ (by omega), mget_mput_same, BitVec.toNat_ofNat]
    omega
  · unfold routeOf
    rw [d.route, xr, mget_mput_same, BitVec.toNat_ofNat]
    omega

theorem routeWrite_refused {s : State} (h : Served s) (q : Fin 4) (o : Fin 128) {v : Byte}
    (bad : routeReserved (v.toNat % 16) = true ∨ routeReserved (v.toNat / 16) = true) :
    Ends (.routeWrite q o v) s (fun t => t.irq.route = s.irq.route ∧ t.glob.buserr.getLsbD 1 = true) := by
  have e : routeByte q.val o.val v (cancelKey (ackAccess s)) = berrRsvenc (cancelKey (ackAccess s)) := if_pos (by simpa using bad)
  obtain ⟨-, -, g, -⟩ := buserr_acked h 1
  have l := buserr_leaves 1 (cancelKey (ackAccess s)) (.refl _ _)
  have q' : (unmarked (buserr 1 (cancelKey (ackAccess s)))).irq = (unmarked (cancelKey (ackAccess s))).irq := l.marked .irq (by decide)
  refine .of_eq ((exec_onPage (p := 0x52 + q.val) (f := routeByte q.val o.val v) h rfl).trans (congrArg Host.Outcome.next e)) ⟨?_, ?_⟩
  · exact (congrArg Irq.route q' : (unmarked (buserr 1 (cancelKey (ackAccess s)))).irq.route = (unmarked (cancelKey (ackAccess s))).irq.route)
  · show (buserr 1 (cancelKey (ackAccess s))).glob.buserr.getLsbD 1 = true
    rw [g]
    simp [setBit]

/-! RRMASK. -/

theorem rrmask_field : byteFields 0x56 0 = [⟨0, 1, 0, 5, .rw, 1, []⟩] := by decide

/-- RRMASK takes a value of its five bits. -/
theorem rrmask_written {v : Byte} (h : v.toNat < 32) (u : State) : rrmask (plainByte 0x56 0 v u) = v.toNat ∧
    Only [.regs] u (plainByte 0x56 0 v u) := by
  have m : mergeByte (byteFields 0x56 0) (fun _ => true) (pl u (key 0x56 0)) v = (putBits (pl u (key 0x56 0)) 0 5 (v.toNat / 2 ^ 0 % 2 ^ 5), false) := by
    rw [rrmask_field]
    rfl
  rw [plainByte_of m]
  refine ⟨?_, by simp [only_iff, putPlain]⟩
  unfold rrmask rdBits
  rw [pl_putPlain_same]
  have old := (pl u (key 0x56 0)).isLt
  unfold putBits
  rw [BitVec.toNat_ofNat]
  omega

/-- The state in which RRMASK's sources take their turns. -/
def rrmaskSet (v : Byte) (s : State) : State :=
  { plainByte 0x56 0 v (cancelKey (ackAccess s)) with irq := { (plainByte 0x56 0 v (cancelKey (ackAccess s))).irq with
      rrBase := (plainByte 0x56 0 v (cancelKey (ackAccess s))).irq.rrnext, rrSrcs := [] } }

theorem exec_rrmaskWrite {s : State} (h : Served s) (v : Byte) : ∃ t, exec (.rrmaskWrite v) s = .next t ∧
    Delivers (assignNow (pendingSources s) (rrmaskSet v s)) t ∧ t.irq.asg = (assignNow (pendingSources s) (rrmaskSet v s)).irq.asg := by
  obtain ⟨d, a⟩ := afterIrq_acts (cancelKey (ackAccess s)) (pendingSources s) (assignNow (pendingSources s) (rrmaskSet v s))
  exact ⟨_, exec_onPage (p := 0x56) (f := rrmaskByte v) h rfl, d, a⟩

theorem rrmaskSet_spec {s : State} {v : Byte} (hv : v.toNat < 32) : rrmask (rrmaskSet v s) = v.toNat ∧ (rrmaskSet v s).irq.pend = s.irq.pend ∧
    (rrmaskSet v s).irq.mask = s.irq.mask ∧ (rrmaskSet v s).irq.route = s.irq.route ∧ (rrmaskSet v s).irq.asg = s.irq.asg ∧ (rrmaskSet v s).glob.floor = s.glob.floor ∧
    Only [.regs, .irq, .bus, .glob, .clk] s (rrmaskSet v s) := by
  obtain ⟨m, o⟩ := rrmask_written hv (cancelKey (ackAccess s))
  have q : (plainByte 0x56 0 v (cancelKey (ackAccess s))).irq = s.irq := o .irq (by decide)
  have g : (plainByte 0x56 0 v (cancelKey (ackAccess s))).glob.floor = s.glob.floor :=
    (congrArg (fun g : Glob => g.floor) (show (plainByte 0x56 0 v (cancelKey (ackAccess s))).glob = (cancelKey (ackAccess s)).glob from o .glob (by decide)) :)
  unfold rrmaskSet
  refine ⟨m, (congrArg Irq.pend q :), (congrArg Irq.mask q :), (congrArg Irq.route q :), (congrArg Irq.asg q :), g, Only.trans ?_ (Only.trans (o.weaken (by decide)) ?_)⟩
  · simp [only_iff, cancelKey, ackAccess, disarm]
  · simp [only_iff]

theorem rrmaskWrite_assigns {s : State} {v : Byte} {k : Nat} (h : Served s) (hv : v.toNat < 32) (v0 : v ≠ 0) (p : isPend s k = true) (m : isMasked s k = false)
    (r : routeOf s k = 8) (a : mget 0 s.irq.asg k = 0) : Ends (.rrmaskWrite v) s (fun t =>
    mget 0 t.irq.asg k ≠ 0 ∧ v.getLsbD (mget 0 t.irq.asg k - 1) = true ∧ t.irq.pend = s.irq.pend) := by
  obtain ⟨t, e, d, ta⟩ := exec_rrmaskWrite h v
  obtain ⟨xm, xp, xk, xr, xa, xf, -⟩ := rrmaskSet_spec (s := s) hv
  have turn : takesTurn (rrmaskSet v s) k = true := by
    have r' : routeOf (rrmaskSet v s) k = 8 := (congrArg (fun m => mget 0 m k) xr).trans r
    have p' : isPend (rrmaskSet v s) k = true := (isPend_congr xp k).trans p
    have m' : isMasked (rrmaskSet v s) k = false := by
      unfold isMasked maskOfG at m ⊢
      rw [xf, xk]
      exact m
    unfold takesTurn
    rw [r', p', m']
    rfl
  have n0 : v.toNat ≠ 0 := fun x => v0 (BitVec.eq_of_toNat_eq x)
  obtain ⟨ne, bit⟩ := assignNow_assigns (l := pendingSources s) xm hv n0 rfl (mem_pendingSources p) turn ((congrArg (fun m => mget 0 m k) xa).trans a)
  refine .of_eq e ?_
  rw [ta]
  refine ⟨ne, ?_, d.pend.trans ((assignNow_delivers _ _).pend.trans xp)⟩
  rw [BitVec.getLsbD, Nat.testBit_eq_decide_div_mod_eq]
  exact decide_eq_true bit

theorem rrmaskWrite_takes {s : State} {v : Byte} (h : Served s) (hv : v.toNat < 32) : Ends (.rrmaskWrite v) s (fun t =>
    (pl t (key 0x56 0)).toNat % 32 = v.toNat ∧ Only [.regs, .irq, .bus, .glob, .clk] s t) := by
  obtain ⟨t, e, d, -⟩ := exec_rrmaskWrite h v
  obtain ⟨xm, -, -, -, -, -, o⟩ := rrmaskSet_spec (s := s) hv
  have dd := (assignNow_delivers (pendingSources s) (rrmaskSet v s)).trans d
  refine .of_eq e ⟨?_, o.trans (dd.only.weaken (by decide))⟩
  have m : rrmask t = v.toNat := dd.rrmask.trans xm
  unfold rrmask rdBits at m
  rwa [Nat.pow_zero, Nat.div_one] at m

/-- The test sources that a byte names are raised. -/
theorem foldl_raiseW (v : Byte) (i : Nat) : ∀ (l : List Nat) (s : State), anvilOn s = true → s.glob.st = .run →
    Leaves [] s (l.foldl (fun s b => if v.getLsbD b then raiseW (1008 + 8 * i + b) s else s) s) ∧
    ∀ b, b ∈ l → v.getLsbD b = true → isPend (l.foldl (fun s b => if v.getLsbD b then raiseW (1008 + 8 * i + b) s else s) s) (1008 + 8 * i + b) = true
  | [], s, _, _ => ⟨.refl _ _, fun _ h => absurd h (by simp)⟩
  | c :: l, s, on, st => by
    have one : Leaves [] s (if v.getLsbD c then raiseW (1008 + 8 * i + c) s else s) ∧
        (v.getLsbD c = true → isPend (if v.getLsbD c then raiseW (1008 + 8 * i + c) s else s) (1008 + 8 * i + c) = true) := by
      rw [raiseW_run _ st]
      refine ⟨.ite (fun _ => raise_leaves _ _ (.refl _ _)) fun _ => .refl _ _, fun h => ?_⟩
      rw [if_pos h]
      exact (raise_raised _ s on).marked _ (by simp)
    rw [List.foldl_cons]
    generalize (if v.getLsbD c then raiseW (1008 + 8 * i + c) s else s) = x at one
    obtain ⟨l', p⟩ := foldl_raiseW v i l x (one.1.anvilOn.trans on) (one.1.st.trans st)
    refine ⟨one.1.then l' (by decide), fun b hb hv => ?_⟩
    rcases List.mem_cons.mp hb with hb | hb
    · subst hb
      exact l'.pend (one.2 hv)
    · exact p b hb hv

/-- The firmware clears a source delivered to it. -/
theorem fwIntService_clears {s : State} {k : Fin 1024} (fw : fwOn s = true) (d : deliveredTo s k.val = some 4) (w : logWaits s k.val = false) :
    Ends (.fwIntService k) s (fun t => isPend t k.val = false ∧ (∀ j, j < 1024 → j ≠ k.val → isPend t j = isPend s j) ∧ t.irq.ovr = s.irq.ovr ∧
      Only [.irq, .clk, .bus] s t) := by
  obtain ⟨x, hx⟩ : ∃ x : State, x = { s with irq := { s.irq with pend := mput 0 s.irq.pend (k.val / 16) (setBit (pendOf s (k.val / 16)) (k.val % 16) false) } } := ⟨_, rfl⟩
  have e : exec (.fwIntService k) s = .next (afterIrq s [k.val] (unassign k.val x)) := by
    rw [hx]
    exact congrArg Host.Outcome.next ((if_pos (by rw [fw, d]; rfl)).trans (if_neg (by rw [w]; decide)))
  have dl : Delivers x (afterIrq s [k.val] (unassign k.val x)) := (unassign_delivers _ x).trans (afterIrq_acts s _ _).1
  have ox : Only [.irq, .clk, .bus] s x := by rw [hx]; simp [only_iff]
  have same (j : Nat) (h : j / 16 = k.val / 16) : isPend x j = (setBit (pendOf s (k.val / 16)) (k.val % 16) false).getLsbD (j % 16) := by
    rw [hx]
    unfold isPend pendOf
    rw [h, mget_mput_same]
  refine .of_eq e ⟨?_, fun j _ n => ?_, dl.ovr.trans (by rw [hx]), ox.trans (dl.only.weaken (by decide))⟩
  · rw [dl.isPend, same _ rfl]
    simp [setBit]
  · rw [dl.isPend]
    by_cases c : j / 16 = k.val / 16
    · rw [same j c]
      unfold isPend
      rw [c, getLsbD_setBit_other (by omega)]
    · rw [hx]
      unfold isPend pendOf
      rw [mget_mput_other _ _ c]

/-! The clauses of one byte. -/

theorem stagingWrite_stored {s : State} {o v b : Byte} (h : Served s) (k : pecOn s = false) (g : stagedPages.contains s.regs.page.toNat = true) (ho : o.toNat < 0x60)
    (w : wideField s.regs.page.toNat o.toNat = none) (f : byteFields s.regs.page.toNat o.toNat ≠ []) (l : pageLocked s s.regs.page.toNat = false)
    (m : mergeByte (byteFields s.regs.page.toNat o.toNat) (fun _ => true) (sg s (stKey s s.regs.page.toNat o.toNat)) v = (b, false)) :
    exec (.registerWrite ⟨o, .writeByte, 0, [v], .none⟩) s = .next (putStg (stKey s s.regs.page.toNat o.toNat) [b] (cancelKey (ackAccess s))) :=
  (exec_writeStaging h k g ho).trans (congrArg Host.Outcome.next ((writeStaging_byte (s := cancelKey (ackAccess s)) l w f m).trans (if_neg Bool.false_ne_true)))

theorem putStg_acked (s : State) (a : Nat) (bs : List Byte) : Only [.regs, .glob, .bus, .clk] s (putStg a bs (cancelKey (ackAccess s))) := by
  simp [only_iff, putStg, cancelKey, ackAccess, disarm]

/-- Page 0x20 holds one byte for each rail. -/
theorem page20_bytes : ∀ r < 32, wideField 0x20 r = none ∧ byteFields 0x20 r = [⟨r, 1, 0, 8, .st, 0, []⟩] := by decide +kernel

theorem page20_merges {r : Nat} (h : r < 32) (old v : Byte) : byteFields 0x20 r ≠ [] ∧ mergeByte (byteFields 0x20 r) (fun _ => true) old v = (v, false) := by
  rw [(page20_bytes r h).2]
  exact ⟨List.cons_ne_nil _ _, mergeByte_whole (show Acc.st ≠ Acc.sc by decide) rfl rfl rfl old⟩

/-- The first byte of a field of two offsets is held. -/
theorem stagingWrite_held {s : State} {o v : Byte} {f : Fd} {i : Nat} (h : Served s) (k : pecOn s = false) (g : stagedPages.contains s.regs.page.toNat = true)
    (ho : o.toNat < 0x60) (l : pageLocked s s.regs.page.toNat = false) (w : wideField s.regs.page.toNat o.toNat = some f) (len : f.len = 2)
    (at_ : o.toNat = f.off ∧ i = f.off + 1 ∨ o.toNat = f.off + 1 ∧ i = f.off) (n : heldAt s (key s.regs.page.toNat i) = none) :
    Ends (.registerWrite ⟨o, .writeByte, 0, [v], .none⟩) s (fun t =>
      t.regs = { s.regs with held := minsert (key s.regs.page.toNat o.toNat) v s.regs.held } ∧ Only [.regs, .glob, .bus, .clk] s t) := by
  have e : writeStaging s.regs.page.toNat o.toNat v (cancelKey (ackAccess s)) =
      setHeld (minsert (key s.regs.page.toNat o.toNat) v s.regs.held) (cancelKey (ackAccess s)) := by
    refine (writeStaging_wide (s := cancelKey (ackAccess s)) l w).trans ?_
    rw [len]
    refine holdByte_first (s := cancelKey (ackAccess s)) v _ ?_ n
    unfold key
    omega
  exact .of_eq ((exec_writeStaging h k g ho).trans (congrArg Host.Outcome.next e)) ⟨rfl, by simp [only_iff, setHeld, cancelKey, ackAccess, disarm]⟩

/-- The second byte of a field of two offsets: both take effect. -/
theorem stagingWrite_pair {s : State} {o v u : Byte} {f : Fd} (h : Served s) (k : pecOn s = false) (g : stagedPages.contains s.regs.page.toNat = true)
    (ho : o.toNat < 0x60) (l : pageLocked s s.regs.page.toNat = false) (w : wideField s.regs.page.toNat o.toNat = some f) (len : f.len = 2) (w16 : f.w = 16)
    (at_ : o.toNat = f.off + 1) (held : heldAt s (key s.regs.page.toNat f.off) = some u) (legal : f.legal (leNat [u, v]) = true) :
    Ends (.registerWrite ⟨o, .writeByte, 0, [v], .none⟩) s (fun t =>
      sg t (key s.regs.page.toNat f.off) = u ∧ sg t (key s.regs.page.toNat o.toNat) = v ∧ heldAt t (key s.regs.page.toNat f.off) = none ∧
      heldAt t (key s.regs.page.toNat o.toNat) = none ∧ t.regs.live = s.regs.live ∧ Only [.regs, .glob, .bus, .clk] s t) := by
  obtain ⟨a, ha⟩ : ∃ a, a = key s.regs.page.toNat f.off := ⟨_, rfl⟩
  have next : key s.regs.page.toNat o.toNat = a + 1 := by
    rw [ha, at_]
    unfold key
    omega
  obtain ⟨x, hx⟩ : ∃ x : State, x = setHeld ((minsert (a + 1) v s.regs.held).filter (fun h => !decide (a ≤ h.1 ∧ h.1 < a + 2))) (cancelKey (ackAccess s)) := ⟨_, rfl⟩
  have small : leNat [u, v] % 2 ^ 16 = leNat [u, v] := Nat.mod_eq_of_lt (leNat_pair u v)
  have bytes : leBytes 2 (leNat [u, v]) = [u, v] := by
    have hu := u.isLt
    have hv := v.isLt
    simp only [leBytes, leNat, List.cons.injEq, and_true]
    constructor <;> apply BitVec.eq_of_toNat_eq <;> rw [BitVec.toNat_ofNat] <;> omega
  have e : writeStaging s.regs.page.toNat o.toNat v (cancelKey (ackAccess s)) = putStg a [u, v] x := by
    refine (writeStaging_wide (s := cancelKey (ackAccess s)) l w).trans ?_
    rw [next, ← ha, len, w16]
    refine (holdByte_second v _ (ha ▸ held)).trans ?_
    rw [small, legal, if_pos rfl, bytes, hx]
    rfl
  have n0 (j : Nat) (hj : a ≤ j ∧ j < a + 2) : heldAt (putStg a [u, v] x) j = none := by
    rw [hx]
    exact heldAt_filtered (s := cancelKey (ackAccess s)) hj
  refine .of_eq ((exec_writeStaging h k g ho).trans (congrArg Host.Outcome.next e)) ?_
  rw [next, ← ha]
  refine ⟨?_, ?_, n0 a (by omega), n0 (a + 1) (by omega), by rw [hx]; rfl, ?_⟩
  · exact (rget_rput_other (by omega) _ _).trans (rget_rput_same ..)
  · exact rget_rput_same ..
  · rw [hx]
    simp [only_iff, putStg, setHeld, cancelKey, ackAccess, disarm]

/-- A locked staging copy and the live copy take no write. -/
theorem stagingWrite_refused {s : State} {o v : Byte} (h : Served s) (g : stagedPages.contains s.regs.page.toNat = true) (ho : o.toNat < 0xE0)
    (c : o.toNat < 0x60 ∧ pageLocked s s.regs.page.toNat = true ∨ 0x80 ≤ o.toNat) : writeReg s.regs.page.toNat o.toNat v (ackAccess s) = buserr 0 (cancelKey (ackAccess s)) := by
  refine (writeReg_staged (s := ackAccess s) h.2 g v).trans ?_
  rcases c with ⟨c, l⟩ | c
  · exact (if_pos c).trans (writeStaging_locked (s := cancelKey (ackAccess s)) l _ _)
  · exact (if_neg (by omega)).trans (if_neg (by omega))

/-- Outside a session an LK field takes no write. -/
theorem lkWrite_refused {s : State} {o v : Byte} (h : Served s) (ho : o.toNat < 0xE0) (l : s.bus.level = 0)
    (lk : (fieldsOf s.regs.page.toNat).any (fun f => decide (f.acc = .lk ∧ f.off ≤ o.toNat ∧ o.toNat < f.off + f.len)) = true) :
    writeReg s.regs.page.toNat o.toNat v (ackAccess s) = buserr 2 (cancelKey (ackAccess s)) := by
  obtain ⟨b, pg⟩ := lkByte_of s.regs.page.isLt ho lk
  have st : allocated s.regs.page.toNat = true ∧ ¬(s.regs.page.toNat = 0 ∧ o.toNat = 6) ∧ stagedPages.contains s.regs.page.toNat = false := by
    rcases pg with x | x | ⟨x, -⟩ <;> rw [x] <;> exact ⟨by decide, by simp, by decide⟩
  exact (writeReg_plain (s := ackAccess s) h.2 st.1 st.2.1 st.2.2 v).trans (writePlain_closed (s := cancelKey (ackAccess s)) b pg l v)

/-- In a session one does, and SESSTMO runs anew. -/
theorem lkWrite_stored {s : State} {v : Byte} (h : Served s) (k : pecOn s = false) (lv : s.bus.level ≠ 0) (pg : s.regs.page = 0x24) (v0 : v ≠ 0) :
    Ends (.registerWrite ⟨0x04, .writeByte, 0, [v], .none⟩) s (fun t => t.regs = (putPlain (key 0x24 4) [v] s).regs ∧ t.glob.buserr = s.glob.buserr ∧
      Armed (sec (10 * (pl s (key 0x4C 5)).toNat)) .sesstmo s t ∧ Only [.regs, .glob, .bus, .clk] s t) := by
  obtain ⟨u, hu⟩ : ∃ u, u = cancelKey (ackAccess s) := ⟨_, rfl⟩
  have page : s.regs.page.toNat = 0x24 := by rw [pg]; rfl
  have fields : wideField 0x24 4 = none ∧ byteFields 0x24 4 = [⟨4, 1, 0, 8, .lk, 50, [(1, 255)]⟩] := by decide
  have legal : Fd.legal ⟨4, 1, 0, 8, .lk, 50, [(1, 255)]⟩ v.toNat = true := by
    have n : v.toNat ≠ 0 := fun x => v0 (BitVec.eq_of_toNat_eq x)
    have hv := v.isLt
    simp only [Fd.legal, List.isEmpty_cons, List.any_cons, List.any_nil, Bool.false_or, Bool.or_false, Bool.and_eq_true, decide_eq_true_eq]
    omega
  have gate : writeTable 0x24 4 v u = lkGate (plainByte 0x24 4 v) u := by
    unfold writeTable
    rw [fields.1, fields.2]
    rfl
  have same : write24 4 v u = writeTable 0x24 4 v u := by
    unfold write24
    dsimp only
    rw [if_neg (by simp), if_neg (by simp)]
  have open_ : lkGate (plainByte 0x24 4 v) u = arm (sec (10 * (pl s (key 0x4C 5)).toNat)) .sesstmo (putPlain (key 0x24 4) [v] u) := by
    have lu : u.bus.level ≠ 0 := by rw [hu]; exact lv
    have p : pl (putPlain (key 0x24 4) [v] u) (key 0x4C 5) = pl s (key 0x4C 5) := by
      rw [hu]
      exact rget_rput_other (by decide) _ _
    unfold lkGate
    rw [if_neg lu, plainByte_of (by rw [fields.2]; exact mergeByte_whole (by decide) rfl rfl legal _)]
    exact (if_neg lu).trans (by rw [p])
  have e : writeReg s.regs.page.toNat 4 v (ackAccess s) = arm (sec (10 * (pl s (key 0x4C 5)).toNat)) .sesstmo (putPlain (key 0x24 4) [v] u) := by
    rw [page, writeReg_plain (s := ackAccess s) h.2 (by decide) (by decide) (by decide) v, ← hu, ← open_, ← gate, ← same]
    rfl
  refine .of_eq ((exec_writeByte (o := 0x04) h k (by decide) v).trans (congrArg Host.Outcome.next e)) ⟨?_, ?_, ?_, ?_⟩
  · rw [hu]; rfl
  · rw [hu]; rfl
  · rw [hu]
    exact arm_arms _ _ _
  · rw [hu]
    simp [only_iff, arm, putPlain, cancelKey, ackAccess, disarm]

/-- A packet on 0xE0 that passes the bus's own checks. -/
theorem packetWrite_gate {s : State} {w : BusWrite} {op tag len : Byte} {ps : List Byte} (h : packetsTaken s = true) (c : w.code = 0xE0) (b : w.proto = .block)
    (d : w.data = op :: tag :: len :: ps) (n0 : w.count ≠ 0) (n64 : w.count ≤ 64) (free : slotFree s = true) (pec : pecFails s w.pec = false) :
    exec (.registerWrite w) s = .next (match packetCommand op ⟨w.count, tag, len, ps⟩ s with
      | some c => runNext c (takeSlot op tag (ackAccess { s with free := s.free + 1 }))
      | none => packet op false ⟨w.count, tag, len, ps⟩ (fun s => reject 0xF0 s) s) := by
  have up : Served s := by
    simp only [packetsTaken, Bool.and_eq_true, Bool.not_eq_true'] at h
    exact ⟨h.1.1, h.2⟩
  have e : writeCode w s = writePacket w s := by
    have lst : listed w.code = true := by rw [c]; decide
    have den : floorDenies s w.code = false := by simp [floorDenies, up.2]
    unfold writeCode
    rw [lst, den, if_neg (by decide), c]
    rfl
  have p : writePacket w s = packetGate w.count (fun s =>
      if pecFails s w.pec then pecError (nackAccess s)
      else match w.data with
      | op :: tag :: len :: params =>
        (match packetCommand op ⟨w.count, tag, len, params⟩ s with
         | some c => runNext c (takeSlot op tag (ackAccess { s with free := s.free + 1 }))
         | none => packet op false ⟨w.count, tag, len, params⟩ (fun s => reject 0xF0 s) s)
      | l => packet (l.getD 0 0) false ⟨w.count, l.getD 1 0, 0xFF, []⟩ (fun s => s) s) s :=
    (if_neg (by rw [h]; decide)).trans (if_neg (by rw [b]; decide))
  refine (exec_write up w).trans (congrArg Host.Outcome.next (e.trans (p.trans ?_)))
  refine (if_neg (by omega)).trans ((if_neg (by rw [free]; decide)).trans ((if_neg (by rw [pec]; decide)).trans ?_))
  rw [d]

/-- An unlisted opcode is rejected. -/
theorem packet_unlisted {s : State} {op : Byte} {p : Packet} (h : packetsTaken s = true) (n64 : p.n ≤ 64) (n : p.n = p.len.toNat + 3) (free : slotFree s = true) :
    packet op false p (fun s => reject 0xF0 s) s = reject 0xF0 (taken op p s) := by
  have run : (if p.n ≠ p.len.toNat + 3 then reject 0xF1 (taken op p s) else if false && decide ((taken op p s).bus.level = 0) then reject 0xF2 (taken op p s)
      else reject 0xF0 (taken op p s)) = reject 0xF0 (taken op p s) := (if_neg (by rw [n]; simp)).trans (if_neg (by simp))
  unfold packet
  rw [if_neg (by rw [h]; decide)]
  split
  · exact run
  · exact (if_neg (by omega)).trans ((if_neg (by rw [free]; decide)).trans run)

/-- Settles O45: a written byte by its page and its fields, and the interrupt registers by what delivery leaves. -/
theorem registerWrites : Obligations.RegisterWrites := by
  unfold Obligations.RegisterWrites
  refine ⟨?_, ?_, ?_, ?_, ?_, fun s o v u f h k g ho l w len w16 a hd lg => stagingWrite_pair h k g ho l w len w16 a hd lg, ?_, ?_, ?_, ?_, ?_,
    fun s g v h => pendWrite_clears h g v, ?_, ?_, ?_, fun s q o v h lo hi => routeWrite_sets h q o lo hi, fun s q o v h bad => routeWrite_refused h q o bad,
    fun s v k h hv v0 _ p m r a => rrmaskWrite_assigns h hv v0 p m r a, fun s v h hv => rrmaskWrite_takes h hv, ?_, ?_, ?_, ?_,
    fun s k fw d w => fwIntService_clears fw d w, ?_⟩
  · intro s o v b h k g ho w f l m
    exact .of_eq (stagingWrite_stored h k g ho w f l m) ⟨rfl, rfl, rfl, rfl, putStg_acked _ _ _⟩
  · intro s o v b h k g ho w f l m
    have e := (exec_writeStaging h k g ho).trans (congrArg Host.Outcome.next ((writeStaging_byte (s := cancelKey (ackAccess s)) l w f m).trans (if_pos rfl)))
    have on : anvilOn (putStg (stKey s s.regs.page.toNat o.toNat) [b] (cancelKey (ackAccess s))) = true := anvilOn_served h
    obtain ⟨gl, p, ox⟩ := buserr_spec 1 on
    exact .of_eq e ⟨ox .regs (by decide), gl, p, ((putStg_acked s _ _).weaken (by decide)).trans (ox.weaken (by decide))⟩
  · intro s r v h k pg l
    have page : s.regs.page.toNat = 0x20 := by rw [pg]; rfl
    have code : (BitVec.ofNat 8 r.val).toNat = r.val := by
      rw [BitVec.toNat_ofNat]
      omega
    obtain ⟨ne, m⟩ := page20_merges r.isLt (sg s (key 0x20 r.val)) v
    have e := stagingWrite_stored (o := BitVec.ofNat 8 r.val) (v := v) (b := v) h k (by rw [page]; decide) (by rw [code]; omega)
      (by rw [page, code]; exact (page20_bytes r.val r.isLt).1) (by rw [page, code]; exact ne) (by rw [page]; exact l) (by rw [page, code]; exact m)
    rw [page, code] at e
    exact .of_eq e ⟨rget_rput_same .., rfl⟩
  · intro s o v h k g ho c
    exact write_refused h k ho (stagingWrite_refused h g ho c)
  · intro s o v f i h k g ho l w len at_ n
    exact stagingWrite_held h k g ho l w len at_ n
  · intro s o v h k ho l lk
    exact write_refused h k ho (lkWrite_refused h ho l lk)
  · intro s v h k lv pg v0
    exact lkWrite_stored h k lv pg v0
  · intro s o v h k ho a
    refine write_refused h k ho (writeReg_unallocated (s := ackAccess s) a (fun x => ?_) v)
    rw [x.1] at a
    exact absurd a (by decide)
  · intro s w op tag len ps c h code b d n0 n64 free pec pc
    have e := packetWrite_gate h code b d n0 n64 free pec
    rw [pc] at e
    exact .of_eq e ⟨rfl, rfl, rfl, rfl, rfl, rfl, by simp [only_iff, runNext, takeSlot, ackAccess]⟩
  · intro s w op tag len ps h code b d n64 n free pec pc
    have e := packetWrite_gate h code b d (by omega) n64 free pec
    rw [pc] at e
    exact .of_eq (e.trans (congrArg Host.Outcome.next (packet_unlisted h n64 n free))) ⟨rfl, rfl, rfl, rfl⟩
  · intro s g v h
    obtain ⟨t, e, d⟩ := exec_maskWrite h g v
    refine .of_eq e ⟨?_, fun j _ hj => ?_, d.pend, d.route, delivers_acked d (ack_changes s _)⟩
    · unfold maskOfG
      rw [d.mask]
      exact mget_mput_same ..
    · unfold maskOfG
      rw [d.mask]
      exact mget_mput_other _ _ hj _
  · intro s g v b h p m r
    obtain ⟨t, e, d⟩ := exec_maskWrite h g v
    have rt : routeOf t (16 * g.val + b.val) = routeOf s (16 * g.val + b.val) := d.routeOf _
    refine .of_eq e ?_
    rw [← rt]
    exact deliveredTo_static ((congrArg (fun g : Glob => g.floor) d.glob).trans h.2) ((d.isPend _).trans p) ((masked_written h d b).trans m) (rt ▸ r)
  · intro s g v b h m
    obtain ⟨t, e, d⟩ := exec_maskWrite h g v
    exact .of_eq e (deliveredTo_masked ((masked_written h d b).trans m))
  · intro s i v h
    exact .of_eq (exec_onPage (p := 0x56) (f := ovrclrByte i.val v) h rfl) ⟨rfl, ⟨rfl, rfl⟩, by simp [only_iff, ovrclrByte, cancelKey, ackAccess, disarm]⟩
  · intro s i v h
    exact .of_eq (exec_onPage (p := 0x56) (f := wlclrByte i.val v) h rfl) ⟨rfl, ⟨rfl, rfl⟩, by simp [only_iff, wlclrByte, cancelKey, ackAccess, disarm]⟩
  · intro s i v b h st bit
    obtain ⟨l, p⟩ := foldl_raiseW v i.val (List.range 8) (cancelKey (ackAccess s)) (anvilOn_served h) st
    exact .of_eq (exec_onPage (p := 0x56) (f := testtrigByte i.val v) h rfl) ⟨p b.val (List.mem_range.mpr b.isLt) bit, l.same .rl (by decide)⟩
  · intro s q a
    exact congrArg Host.Outcome.next (if_neg (by rw [a]; decide))
  · intro s k n
    exact congrArg Host.Outcome.next (if_neg (by simp [n]))

end Sys2Proof
end
